-- ==== Sys2Proof/Word.lean ====
section
/-!
DEFINITION. Word.lean: the register word and the byte of the ICX-5120 (00_scope.md R11: every BAR2 register is 32 bits).
-/
namespace Sys2Proof

/-- A BAR2 register word. -/
abbrev Word := BitVec 32

/-- A byte of user data, of a record or of a message. -/
abbrev Byte := BitVec 8

end Sys2Proof
end

