-- ==== Sys2Proof/Syntax.lean ====
section
/-!
DEFINITION. Syntax.lean: the commands the block takes, one constructor per row of spec/opcode_table.json, and the
records their operands are made of. A command is something that reaches the block from outside (a register write, an
NVMe or management command, a message on a link, an edge on a pin) or something that comes about inside it (a timer
that expires, a conversion or a read that ends). What the world outside the model decides (a measured temperature, a
received flit, a verdict of a part that is only named) is an operand.
-/
namespace Sys2Proof

/-- An NVMe command as a controller takes it (06 Table 6.6): the controller, whether it came tunnelled through NVMe-MI
(then its agent is 5), its submission queue, identifier, namespace, command dwords 3 and 10 to 15, the data the host
transfers with it (empty where the direction is to the host), and the types of the SGL descriptors that point at it, none
where PRPs do. -/
structure Sqe where
  ctrl : Fin 4
  mi : Bool
  sq : Nat
  cid : Nat
  nsid : Nat
  cdw3 : Word
  cdw10 : Word
  cdw11 : Word
  cdw12 : Word
  cdw13 : Word
  cdw14 : Word
  cdw15 : Word
  data : List Byte
  sgl : Option (List Nat)
  deriving DecidableEq, Repr

/-- Where an access goes (05 R144, 06 Table 6.1): an offset in the Icxis register file, or an offset in BAR0 of the controller that makes it. -/
inductive BusAt where
  | bar2 (off : Nat)
  | bar0 (off : Nat)
  deriving DecidableEq, Repr

/-- A read: where, and how many bits wide. -/
structure ReadAt where
  off : BusAt
  bits : Nat
  deriving DecidableEq, Repr

/-- A configuration request (03 R86, 06 R177): the controller, the dword's offset, and for a write the word with its byte enables. -/
structure CfgReq where
  ctrl : Fin 4
  off : Nat
  write : Option (Word × Fin 16)
  deriving DecidableEq, Repr

/-- What the link partner supports (06 R173, R174): its highest rate (0 to 5: 64, 32, 16, 8, 5 and 2.5 GT/s) and FLIT mode. -/
structure Partner where
  rate : Fin 6
  flit : Bool
  deriving DecidableEq, Repr

/-- What an operation of a Sleeve is for (13, "Operations"): the program of a member of a row, the erase of a member of a freed band or
of a block a sanitize erases, the read of a sector a host waits for, a sample page of a THRESH_RECAL (22 R740), or none of these. -/
inductive OpFor where
  | other
  | sample
  | program (stripe row member : Nat)
  | erase (band member : Nat)
  | sanitize (block : Nat)
  | read (id sector : Nat)
  deriving DecidableEq, Repr

/-- A block on a Jalyen link (14 R498): the two bits of its sync header in the order sent (0 then 1 before data, 1 then 0 before an ordered set),
and its 16 bytes, those of a data block scrambled. -/
structure Block where
  sync : Bool × Bool
  bytes : List Byte
  deriving DecidableEq, Repr

/-- What reading the three copies of a metadata sector finds (11 R398, 12 R437): the SSA of copy 0, the copies whose CRC or format fails, those
with a lower JSEQ, GEN or SEQ than another, and whether valid copies of the highest differ. -/
structure MetaFinding where
  ssa : Nat
  bad : List (Fin 3)
  old : List (Fin 3)
  differ : Bool
  deriving DecidableEq, Repr

/-- What recovery finds on flash: logical sectors (NSID, LSA) of which two durable copies differ (11 R407), and metadata copies that fail or differ. -/
structure FlashFound where
  clashes : List (Nat × Nat)
  metas : List MetaFinding
  deriving DecidableEq, Repr

/-- How a mailbox message comes (22 R731): a controller writes GO of its mailbox, or the management port brings a vendor-defined message of
type 0x7F, its bytes from the message type on. -/
inductive MbReq where
  | go (ctrl : Fin 4)
  | mctp (bytes : List Byte)
  deriving DecidableEq, Repr

/-- The command of spec/opcode_table.json. -/
inductive Instr where
  /-- REGISTER_WRITE (R15). A host, Belfry or firmware write to a BAR2 register that has no behaviour of its own is applied by its access code in receipt order. -/
  | registerWrite (agent : Fin 8) (off : BusAt) (bits : Nat) (data : Nat)
  /-- GBL_ACCESS_VIOL_CLEAR (R150). Writing 1 to GBL_ACCESS_VIOL_CTL.VALID clears VALID, COUNT and the recorded violation. -/
  | gblAccessViolClear (agent : Fin 8) (data : Word) (violation : Option (Nat × Fin 8 × Nat))
  /-- SPLIT_COUNTER_LO_READ (R351). A read of a _LO half of a 64-bit counter returns bits 31:0 and latches bits 63:32 for the same agent. -/
  | splitCounterLoRead (agent : Fin 8) (off : ReadAt)
  /-- BEGIN (R152). FIT_CMD BEGIN in IDLE opens a fitting, makes the writer owner, snapshots every RWF register and increments FIT_ID. -/
  | beginFitting (agent : Fin 8)
  /-- COMMIT (R159). FIT_CMD COMMIT by the owner clamps the staged values, runs the checks, and either installs them and starts adoption or rolls back, producing a clamp report. -/
  | commitFitting (agent : Fin 8)
  /-- ABORT (R152). FIT_CMD ABORT by the owner or the Belfry discards the staged writes and returns the fitting to IDLE with RESULT ABORTED. -/
  | abortFitting (agent : Fin 8)
  /-- RWF_STAGE_WRITE (R153). A write to an RWF register is staged when made by the owner of an OPEN fitting, and otherwise discarded and recorded as a violation. -/
  | rwfStageWrite (agent : Fin 8) (off : Nat) (data : Word)
  /-- FIT_TIMEOUT_WRITE (R157). A write of FIT_TIMEOUT.IDLE_MS is clamped and takes effect at once, possibly ending an open fitting whose idle time already exceeds it. -/
  | fitTimeoutWrite (agent : Fin 8) (data : Word)
  /-- FIT_IDLE_TIMEOUT (R157). An open fitting with no owner activity for IDLE_MS is abandoned with RESULT TIMED_OUT. -/
  | fitIdleTimeout
  /-- FIT_ADOPT (R161). At a block's safe point one adoption class takes its committed values, its FIT_PENDING bit clears, and the fitting ends ADOPTED when none remain. -/
  | fitAdopt (cls : Fin 11)
  /-- EVT_ROUTE_WRITE (R166). A write of an event route register stores each controller half, keeping the old half and recording kind 5 when it names an out-of-range vector. -/
  | evtRouteWrite (agent : Fin 8) (source : Fin 2112) (reg : Fin 3) (data : Word)
  /-- EVT_STATUS_CLEAR (R18). A W1C write to EVT_STATUS clears status bits, except where an occurrence arrives in the same clock. -/
  | evtStatusClear (agent : Fin 8) (w : Fin 66) (data : Word) (arriving : Word)
  /-- EVT_MASK_WRITE (R168). A write of EVT_MASK stores the mask and delivers any source whose pending rises from 0 to 1 by the unmasking. -/
  | evtMaskWrite (agent : Fin 8) (w : Fin 66) (data : Word)
  /-- EVT_FORCE_WRITE (R169). Writing 1 to EVT_FORCE sets a source's status as if it had occurred, delivering to hosts but never to the Belfry or FTL cluster. -/
  | evtForceWrite (agent : Fin 8) (w : Fin 66) (data : Word)
  /-- VAUX_RISE (R78). VAUX rising through 3.135 V performs an aux reset and starts a full start-up. -/
  | vauxRise
  /-- SYS_RST_ACCEPT (R79). SYS_RST_N low for 2,000 Belfry clocks is accepted; with the main domain running the window is flushed, PWR_KILL_N asserted and an aux reset performed. -/
  | sysRstAccept
  /-- PERST_ASSERT (R176). PERST_x_N low resets every controller of that port with port-reset scope. -/
  | perstAssert (port : Fin 2)
  /-- PERST_DEASSERT (R86). PERST_x_N deasserted starts link training on the port within 1 ms. -/
  | perstDeassert (port : Fin 2)
  /-- PCIE_HOT_RESET (R176). A hot reset or link down on one link resets only the controller of that link with port-reset scope. -/
  | pcieHotReset (ctrl : Fin 4)
  /-- CONTROLLER_RESET (R80). CC.EN written from 1 to 0 resets one controller's NVMe state, leaving other controllers, takes and the dirty window untouched. -/
  | controllerReset (ctrl : Fin 4)
  /-- FUNCTION_LEVEL_RESET (R80). A Function Level Reset performs a controller reset of that function. -/
  | functionLevelReset (ctrl : Fin 4)
  /-- CC_EN_SET (R87). CC.EN written to 1 sets CSTS.RDY within 5 ms once PHASE has reached RECOVERY. -/
  | ccEnSet (ctrl : Fin 4) (asqs acqs : Fin 4096)
  /-- CC_SHN_WRITE (R206). A shutdown notification sets CSTS.SHST to 10b once all posted writes are durable and the journal tail is written. -/
  | ccShnWrite (ctrl : Fin 4) (shn : Fin 4)
  /-- NVM_SUBSYSTEM_RESET (R81). An NVM Subsystem Reset closes the gate, drains the window by the hardware flush, writes the journal tail and performs a warm restart. -/
  | nvmSubsystemReset (ctrl : Fin 4)
  /-- FTL_WATCHDOG_EXPIRY (R82). Expiry of the FTL cluster watchdog causes a warm restart marked JOURNAL_SUSPECT whose recovery uses the hem-page tier. -/
  | ftlWatchdogExpiry
  /-- BELFRY_WATCHDOG_EXPIRY (R42). Expiry of the Belfry watchdog restarts the Belfry from its boot ROM without resetting the main domain. -/
  | belfryWatchdogExpiry
  /-- PHASE_ROM (R83). The boot ROM reads the OTP identity row, decodes the lifecycle, samples BOOT_SEL and chooses the Belfry firmware slot. -/
  | phaseRom (bootSel : Fin 4)
  /-- BELFRY_FW_LOAD (R98). The Belfry firmware is read, hashed, verified and measured into register 1. -/
  | belfryFwLoad
  /-- IMAGE_LOAD (R133). The Dailaquin image is read, checked, clamped and cross-checked from the trial or active slot, falling back to the other slot or to no image. -/
  | imageLoad
  /-- RAIL_STAGE_START (R63). The Belfry enables the next rail stage once the previous stage reports POWER_GOOD and 0.5 ms has passed. -/
  | railStageStart
  /-- RAIL_STAGE_TIMEOUT (R66). A stage not good within 20 ms, or MAIN_PG not high within 5 ms, removes the rails, records the rail and schedules a retry or asserts PWR_KILL_N. -/
  | railStageTimeout (rail : Fin 10) (status : Fin 65536)
  /-- RAIL_RETRY (R66). One second after a rail failure the Belfry retries the power-up sequence once. -/
  | railRetry
  /-- MAIN_PG_FALL (R70). MAIN_PG falling in Run is treated as a loss of input power: gate closed, power-loss flush, PWR_KILL_N asserted and the event recorded. -/
  | mainPgFall (rail status : Fin 65536)
  /-- POWER_DOWN_STAGE (R68). In an orderly power-down the Belfry removes the next stage once the previous stage's rails are below 10 %. -/
  | powerDownStage
  /-- MAIN_INIT (R84). With the main domain released, PLLs lock, SRAM is repaired and cleared, PCIe configuration is set and DRAM and Jalyen training start. -/
  | mainInit (failedLanes : List (Fin 16))
  /-- MAIN_FW_LOAD (R98). The main firmware is read, verified, measured into register 3 and started on the FTL cluster. -/
  | mainFwLoad
  /-- MICROCODE_LOAD (R483). The base microcode image is verified, measured and loaded into all 64 control stores, repeating check 5 if another slot loaded. -/
  | microcodeLoad
  /-- TRAINING_END (R84). Start-up leaves phase TRAINING when DRAM and Jalyen training have completed or their windows have ended. -/
  | trainingEnd
  /-- ENUMERATE (R560). The device identifies the bridge of every populated link, checks it against the image and enumerates its dies. -/
  | enumerate (identities : List (Fin 512 × List Byte)) (present : List (Fin 512 × Fin 32)) (pending : List (Fin 512 × Fin 32))
  /-- MANTLE_START (R664). In phase MANTLE the strings are connected, loop slots start and the first energy estimate and dirty-window limit are computed. -/
  | mantleStart (codes : List (Nat × Nat × Nat))
  /-- RECOVERY (R404). The map is recovered by the first applicable tier, then the counter restarts, namespaces reconcile, sanitize resumes, takes are sealed and a checkpoint starts. -/
  | recovery (badGenerations : List Nat) (clashes : FlashFound)
  /-- READY (R410). Namespaces become ready once takes are sealed and any sanitize has completed. -/
  | ready
  /-- BOOT_WATCHDOG_EXPIRY (R89). PHASE not reaching RECOVERY within 2.0 s of MAIN_INIT counts a failed boot attempt and causes a warm restart. -/
  | bootWatchdogExpiry
  /-- TRIAL_CONFIRM (R110). A trial configuration running 30 s after CSTS.RDY without failure is confirmed and its ARB counts raised. -/
  | trialConfirm
  /-- GET_VERSION (R100). The SPDM responder answers GET_VERSION with versions 1.0 to 1.2. -/
  | getVersion (req : List Byte)
  /-- GET_CAPABILITIES (R100). The SPDM responder reports CERT_CAP, CHAL_CAP and signed measurements. -/
  | getCapabilities (req : List Byte)
  /-- NEGOTIATE_ALGORITHMS (R100). The SPDM responder selects ECDSA P-384 and SHA-384. -/
  | negotiateAlgorithms (req : List Byte)
  /-- GET_DIGESTS (R100). The SPDM responder returns the digests of its certificate chains. -/
  | getDigests (req : List Byte)
  /-- GET_CERTIFICATE (R100). The SPDM responder returns a portion of the device identity or alias chain by offset and length. -/
  | getCertificate (req : List Byte)
  /-- CHALLENGE (R100). The SPDM responder returns CHALLENGE_AUTH signed by the alias key. -/
  | challenge (req : List Byte)
  /-- GET_MEASUREMENTS (R101). The SPDM responder returns the measurement register values current when the request arrived, signed by the alias key. -/
  | getMeasurements (req : List Byte)
  /-- SPDM_UNSUPPORTED_REQUEST (R100). Any other SPDM request is answered with ERROR UnsupportedRequest. -/
  | spdmUnsupportedRequest (req : List Byte)
  /-- FIRMWARE_IMAGE_DOWNLOAD (R106). A Firmware Image Download places a portion of a package in the controller's Download buffer. -/
  | firmwareImageDownload (c : Sqe)
  /-- FIRMWARE_COMMIT_REPLACE (R108). Firmware Commit action 000b verifies the package and writes its components to the inactive slots without marking a trial. -/
  | firmwareCommitReplace (c : Sqe)
  /-- FIRMWARE_COMMIT_ACTIVATE (R108). Firmware Commit action 001b or 010b writes and reads back the inactive slots, marks them trial and completes with Activation Requires NVM Subsystem Reset. -/
  | firmwareCommitActivate (c : Sqe)
  /-- RCV_STATUS (R113). In recovery mode the Belfry returns PHASE, lifecycle, slots and last error. -/
  | rcvStatus
  /-- RCV_WRITE (R113). In recovery mode the Belfry stores 1 to 1,024 package bytes at an offset. -/
  | rcvWrite (offset : Nat) (data : List Byte)
  /-- RCV_COMMIT (R113). In recovery mode the Belfry checks the received package and stages it in the inactive slots as a trial. -/
  | rcvCommit (length : Nat)
  /-- RCV_BOOT (R113). In recovery mode the Belfry starts a boot with BOOT_SEL treated as 0b00. -/
  | rcvBoot
  /-- OWN_TAKE (R94). The Belfry burns OWNER_HASH0 and then LIFECYCLE OWNED for a device in OPEN. -/
  | ownTake (r : MbReq)
  /-- OWN_TRANSFER (R94). With the active owner's signature the Belfry burns the next owner hash and revokes the previous one. -/
  | ownTransfer (r : MbReq)
  /-- RETIRE (R94). The Belfry burns WRAP_SEED to all ones, LIFECYCLE to RETIRED, and performs a warm restart. -/
  | retire (r : MbReq)
  /-- SQ_TAIL_DOORBELL (R178). A submission queue tail doorbell write makes new commands available to the controller's arbiter. -/
  | sqTailDoorbell (ctrl : Fin 4) (queue : Nat) (tail : Nat)
  /-- CQ_HEAD_DOORBELL (R178). A completion queue head doorbell write frees completion queue entries. -/
  | cqHeadDoorbell (ctrl : Fin 4) (queue : Nat) (head : Nat)
  /-- COMMAND_FETCH (R183). A controller fetches the next command under weighted round robin with the admin queue first. -/
  | commandFetch (ctrl : Fin 4) (cid : Nat)
  /-- CREATE_IO_SQ (R182). Create I/O Submission Queue establishes a physically contiguous submission queue. -/
  | createIoSq (c : Sqe)
  /-- CREATE_IO_CQ (R182). Create I/O Completion Queue establishes a physically contiguous completion queue. -/
  | createIoCq (c : Sqe)
  /-- DELETE_IO_SQ (R195). Delete I/O Submission Queue removes a submission queue. -/
  | deleteIoSq (c : Sqe)
  /-- DELETE_IO_CQ (R195). Delete I/O Completion Queue removes a completion queue. -/
  | deleteIoCq (c : Sqe)
  /-- IDENTIFY (R181). Identify returns controller or namespace data for the supported CNS values. -/
  | identify (c : Sqe)
  /-- ABORT_COMMAND (R197). Abort ends a fetched command whose data transfer has not begun, and otherwise reports it not aborted. -/
  | abortCommand (c : Sqe)
  /-- ASYNCHRONOUS_EVENT_REQUEST (R171). An Asynchronous Event Request is held outstanding until an event completes it. -/
  | asynchronousEventRequest (c : Sqe)
  /-- NAMESPACE_DELETE (R194). Namespace Management Delete deallocates a stored namespace the image does not name, or all such with NSID FFFFFFFFh. -/
  | namespaceDelete (c : Sqe)
  /-- NAMESPACE_CREATE (R194). Namespace Management Create completes with Invalid Field in Command. -/
  | namespaceCreate (c : Sqe)
  /-- SANITIZE_BLOCK_ERASE (R213). Sanitize Block Erase erases every user-data block and writes fresh metadata keeping each namespace's identity. -/
  | sanitizeBlockErase (c : Sqe)
  /-- SANITIZE_CRYPTO_ERASE (R213). Sanitize Crypto Erase replaces every named slot's key by the two-phase procedure and deallocates every block. -/
  | sanitizeCryptoErase (c : Sqe)
  /-- SANITIZE_EXIT_FAILURE_MODE (R215). Sanitize Exit Failure Mode leaves the sanitize failure state. -/
  | sanitizeExitFailureMode (c : Sqe)
  /-- SANITIZE_OVERWRITE (R211). Sanitize Overwrite completes with Invalid Field in Command. -/
  | sanitizeOverwrite (c : Sqe)
  /-- NVME_MI_SEND (R234). NVMe-MI Send carries an in-band request to the management endpoint with the issuing controller as agent. -/
  | nvmeMiSend (c : Sqe)
  /-- NVME_MI_RECEIVE (R234). NVMe-MI Receive returns the management endpoint's in-band response. -/
  | nvmeMiReceive (c : Sqe)
  /-- GET_LOG_SUPPORTED_PAGES (R221). Get Log Page 00h returns the supported log pages. -/
  | getLogSupportedPages (c : Sqe)
  /-- GET_LOG_ERROR_INFORMATION (R196). Get Log Page 01h returns the 256-entry Error Information log. -/
  | getLogErrorInformation (c : Sqe)
  /-- GET_LOG_SMART_HEALTH (R222). Get Log Page 02h returns SMART / Health Information for the whole subsystem. -/
  | getLogSmartHealth (c : Sqe)
  /-- GET_LOG_FIRMWARE_SLOT (R111). Get Log Page 03h returns the Firmware Slot Information log. -/
  | getLogFirmwareSlot (c : Sqe)
  /-- GET_LOG_CHANGED_NAMESPACES (R194). Get Log Page 04h returns the Changed Namespace List. -/
  | getLogChangedNamespaces (c : Sqe)
  /-- GET_LOG_COMMANDS_EFFECTS (R223). Get Log Page 05h returns the Commands Supported and Effects log. -/
  | getLogCommandsEffects (c : Sqe)
  /-- GET_LOG_SANITIZE_STATUS (R214). Get Log Page 81h returns sanitize progress. -/
  | getLogSanitizeStatus (c : Sqe)
  /-- GET_LOG_CLAMP_REPORT (R140). Get Log Page 0xC1 returns the clamp report selected by its Log Specific Field. -/
  | getLogClampReport (c : Sqe)
  /-- GET_LOG_STRIPE_HEALTH (R458). Get Log Page 0xC2 returns the stripe health summary, link entries or event entries. -/
  | getLogStripeHealth (c : Sqe)
  /-- GET_LOG_MANTLE_THERMAL (R686). Get Log Page 0xC3 returns the Mantle and thermal status page. -/
  | getLogMantleThermal (c : Sqe)
  /-- GET_LOG_TAKE_DIRECTORY (R293). Get Log Page 0xC4 returns take entries or stream slot entries. -/
  | getLogTakeDirectory (c : Sqe)
  /-- GET_LOG_LIFETIME_HISTOGRAMS (R749). Get Log Page 0xC0 returns lifetime counters, histograms, event records or trip records. -/
  | getLogLifetimeHistograms (c : Sqe)
  /-- SET_ARBITRATION (R183). Set Features 01h sets the controller's arbitration burst and weights. -/
  | setArbitration (c : Sqe)
  /-- SET_PS_RUN (R691). Set Features 02h PS0 removes the PS1 meters within 1 ms of its completion. -/
  | setPsRun (c : Sqe)
  /-- SET_PS_CAPPED (R691). Set Features 02h PS1 applies the write and read meters that cap power at 60 W. -/
  | setPsCapped (c : Sqe)
  /-- ENTER_DOZE (R692). Set Features 02h PS2 passes the checks of R690, posts its completion and begins entry into Doze. -/
  | enterDoze (c : Sqe)
  /-- ENTER_SLEEP (R692). Set Features 02h PS3 passes the checks of R690, posts its completion and begins entry into Sleep. -/
  | enterSleep (c : Sqe)
  /-- ENTER_DEEP_SLEEP (R692). Set Features 02h PS4 passes the checks of R690, posts its completion and begins entry into Deep Sleep. -/
  | enterDeepSleep (c : Sqe)
  /-- SET_TEMPERATURE_THRESHOLD (R716). Set Features 04h sets a composite temperature threshold that raises a SMART event when crossed. -/
  | setTemperatureThreshold (c : Sqe)
  /-- SET_ERROR_RECOVERY (R216). Set Features 05h accepts TLER 0 only. -/
  | setErrorRecovery (c : Sqe)
  /-- SET_NUMBER_OF_QUEUES (R182). Set Features 07h grants the lesser of the requested queues and IOQ_PAIRS. -/
  | setNumberOfQueues (c : Sqe)
  /-- SET_INTERRUPT_COALESCING (R185). Set Features 08h configures interrupt coalescing of completion-queue vectors. -/
  | setInterruptCoalescing (c : Sqe)
  /-- SET_INTERRUPT_VECTOR_CONFIG (R185). Set Features 09h configures one completion-queue vector. -/
  | setInterruptVectorConfig (c : Sqe)
  /-- SET_WRITE_ATOMICITY (R216). Set Features 0Ah accepts DN 0 only. -/
  | setWriteAtomicity (c : Sqe)
  /-- SET_ASYNC_EVENT_CONFIG (R216). Set Features 0Bh selects which critical warnings and notices raise asynchronous events. -/
  | setAsyncEventConfig (c : Sqe)
  /-- SET_HOST_THERMAL_MANAGEMENT (R714). Set Features 10h sets TMT1 and TMT2 until the next main reset. -/
  | setHostThermalManagement (c : Sqe)
  /-- SET_MANTLE_STATE (R683). Set Features 0xC0 validates and restores the Mantle state blob for matching strings. -/
  | setMantleState (c : Sqe)
  /-- SET_DIRTY_WINDOW (R218). Set Features 0xC1 sets or removes the host ceiling of the dirty window. -/
  | setDirtyWindow (c : Sqe)
  /-- SET_THERMAL_POLICY (R219). Set Features 0xC2 runs a fitting that stages WARN_C, ENFORCE_C, RESTART and GRACE_MS. -/
  | setThermalPolicy (c : Sqe)
  /-- SET_STEEPLE_ROLE (R220). Set Features 0xC3 runs a fitting that stages the Steeple role. -/
  | setSteepleRole (c : Sqe)
  /-- GET_FEATURES (R216). Get Features returns the current, default, saved or capability value of a supported feature. -/
  | getFeatures (c : Sqe)
  /-- GET_MANTLE_STATE (R217). Get Features 0xC0 returns the current 4,096-byte Mantle state blob. -/
  | getMantleState (c : Sqe)
  /-- WRITE (R21). A Write command is fetched, waits for overlaps and chunks, and passes its sectors through the single-pass write path. -/
  | write (c : Sqe)
  /-- READ (R203). A Read returns for each block the newest write completed before its fetch, from a staging copy or from flash. -/
  | read (c : Sqe) (failing : List (Nat × Fin 3)) (unrebuilt : List Nat) (late : List Nat)
  /-- FLUSH (R200). Flush completes when every write posted before its fetch is in a durable stripe. -/
  | flush (c : Sqe)
  /-- WRITE_ZEROES (R207). Write Zeroes deallocates or zeroes a range, ordered as a write. -/
  | writeZeroes (c : Sqe)
  /-- DATASET_MANAGEMENT (R207). Dataset Management Deallocate deallocates up to 256 ranges, ordered as a write. -/
  | datasetManagement (c : Sqe)
  /-- VERIFY (R195). Verify performs the full read checks without transferring data. -/
  | verify (c : Sqe) (failing : List (Nat × Fin 3)) (unrebuilt : List Nat)
  /-- SHRED (R209). Shred deallocates its ranges and destroys every physical copy by relocating and erasing the affected bands. -/
  | shred (c : Sqe)
  /-- FRAME_WRITE (R253). A Frame Write segment is stamped, sequenced and written into its take's clip or ring. -/
  | frameWrite (c : Sqe)
  /-- FRAME_SEGMENT_TIMEOUT (R256). A frame in flight whose next segment is not fetched within 1 s is abandoned. -/
  | frameSegmentTimeout
  /-- TAKE_NOT_RECORDING_REPLY (R251). A frame for an ARMED take without a ring is completed with 0x84 no sooner than 1 µs after its stamp. -/
  | takeNotRecordingReply
  /-- TAKE_OPEN (R242). Take Open checks its header and descriptors, assigns slots, allocates units and rings, and completes when the directory entry and clip headers are durable. -/
  | takeOpen (c : Sqe)
  /-- TAKE_CLOSE_NOW (R282). Take Close ACTION 0 moves the take to CLOSING at its fetch time and completes when it is CLOSED. -/
  | takeCloseNow (c : Sqe)
  /-- TAKE_CLOSE_AT_TIME (R283). Take Close ACTION 1 schedules the close point at CLOSE_TIME. -/
  | takeCloseAtTime (c : Sqe)
  /-- TAKE_DELETE (R284). Take Close ACTION 2 deallocates every unit of a CLOSED take and removes it from the directory. -/
  | takeDelete (c : Sqe)
  /-- TRIGGER_START (R274). Trigger START moves ARMED takes to RECORDING at T, immediately or scheduled. -/
  | triggerStart (c : Sqe)
  /-- TRIGGER_STOP (R274). Trigger STOP moves ARMED or RECORDING takes to CLOSING with close point T. -/
  | triggerStop (c : Sqe)
  /-- TRIGGER_MARK (R274). Trigger MARK adds a mark with time T to every clip index of a recording take. -/
  | triggerMark (c : Sqe)
  /-- SCHEDULED_TRIGGER_FIRE (R273). A scheduled trigger fires when the device's timebase reaches T. -/
  | scheduledTriggerFire
  /-- CLOSE_POINT_REACHED (R282). At a scheduled close point the take moves to CLOSING and its descriptors up to that point are consumed. -/
  | closePointReached
  /-- TRIG_IN_EDGE (R270). An accepted TRIG_IN edge is a START, or a STOP under PIN_STOP, at the edge time. -/
  | trigInEdge (rising : Bool) (held : Nat) (age : Fin 201)
  /-- TRIG_OUT_PULSE_END (R275). TRIG_OUT returns inactive 1 µs after its leading edge. -/
  | trigOutPulseEnd
  /-- TAK_DMA_PI_WRITE (R260). A write of TAK_DMA_PI by the owning host sets the producer index, possibly making the channel ACTIVE or faulting it for overrun. -/
  | takDmaPiWrite (agent : Fin 8) (d : Fin 64) (pi : Word) (flush : Option Nat)
  /-- TAK_DMA_RESUME (R268). TAK_DMA_CTL.RESUME restarts a PAUSED or FAULT channel at its consumed index. -/
  | takDmaResume (agent : Fin 8) (d : Fin 64) (data : Word)
  /-- DMA_MAX_WAIT_EXPIRY (R261). A channel whose oldest descriptor has waited MAX_WAIT_US becomes ACTIVE. -/
  | dmaMaxWaitExpiry (d : Fin 64)
  /-- DMA_DESCRIPTOR_ARRIVAL (R259). A fetched frame descriptor arrives, the frame is stamped and its payload read requested. -/
  | dmaDescriptorArrival (d : Fin 64) (desc : List Byte)
  /-- DMA_READBACK_COMPLETE (R266). The read-back of the consumed index completes, acknowledging the batch's frames or faulting the channel. -/
  | dmaReadbackComplete (d : Fin 64) (value : Nat) (error : Bool)
  /-- DMA_COALESCE_TIMER (R266). Ten microseconds after the first unsignalled acknowledgement the engine queues the channel's MSI-X write. -/
  | dmaCoalesceTimer (d : Fin 64)
  /-- HOST_DATA_ARRIVAL (R352). PCIe completion data for a write read request arrives into the ingress pool. -/
  | hostDataArrival (cmd : Nat) (block : Nat) (data : List Byte) (pi : List Byte) (result : Fin 3)
  /-- CHUNK_GRANT (R29). The admission gate grants a waiting chunk request in class and age order when occupancy plus the chunk fits the limit and tokens allow. -/
  | chunkGrant
  /-- BULK_PROMOTION (R362). A BULK request waiting 20 ms joins REALTIME in arrival order. -/
  | bulkPromotion
  /-- SECTOR_ENCRYPTED (R573). A cipher lane completes a sector's encryption and envelope and hands it to stage 5. -/
  | sectorEncrypted (lane : Fin 16) (cmd : Nat) (pick : Nat) (fault : Option Bool)
  /-- STAGING_COPY_ACCEPTED (R21). A sector's DRAM staging copy is accepted by its channel write queue, and a write-back command completes when all its sectors are so. -/
  | stagingCopyAccepted (cmd : Nat)
  /-- STRIPE_CLOSE_TIMER (R360). A stripe awaited by a durability wait is closed with fill 200 µs after the wait begins. -/
  | stripeCloseTimer (stripe : Nat)
  /-- GOVERNOR_TICK (R30). Every 1 ms the governor computes the candidate from its terms and updates the limit in force. -/
  | governorTick
  /-- DEGRADED_EXIT (R35). After the energy term stays at or above 320 MiB for 1 s Mantle leaves DEGRADED. -/
  | degradedExit
  /-- MNT_PFI_FALL (R674). MNT_PFI falls below its threshold and the loss filter starts. -/
  | mntPfiFall
  /-- LOSS_REPORT (R674). MNT_PFI low for FILTER_NS reports a loss of input power, closing the gate, switching slot 1 on and starting the power-loss flush. -/
  | lossReport
  /-- POWER_RESTORED (R674). MNT_PFI high for 10 ms reports input power restored without changing a running flush. -/
  | powerRestored
  /-- COOL_FLUSH_DEADLINE (R39). A cool flush not complete 400 ms after TRIP ends with PWR_KILL_N asserted. -/
  | coolFlushDeadline
  /-- REPLICA_REALIGN (R44). Every 1 µs each timebase replica is realigned from the Steeple domain. -/
  | replicaRealign
  /-- JOURNAL_PAGE_TIMER (R395). A journal page is written 1 ms after its first entry if not full earlier. -/
  | journalPageTimer
  /-- CHECKPOINT_DURABLE (R396). A checkpoint generation becomes durable when all three root copies are confirmed, allowing erase of bands freed a generation earlier. -/
  | checkpointDurable
  /-- FINE_TABLE_WAIT_PROCEED (R385). A command waiting for fine tables proceeds in arrival order once enough tables are free. -/
  | fineTableWaitProceed
  /-- GARBAGE_COLLECTION_RELOCATE (R400). The device relocates mapped sectors of a victim band into new stripes with new SEQ and RELOC_RUN entries. -/
  | garbageCollectionRelocate (work : Fin 5) (lane : Fin 16) (pick : Nat) (failing : List (Nat × Fin 3)) (unrebuilt : List Nat)
  /-- SLOW_CLASSIFY_TICK (R447). Every 1 ms the per-personality median is taken and links are classed SLOW or held. -/
  | slowClassifyTick
  /-- SLOW_PROBE (R449). Every 10 s each SLOW link is probed with 16 native programs and readmitted after enough normal ones. -/
  | slowProbe (link : Fin 512) (latencies : List Nat)
  /-- READ_HEDGE_TIMEOUT (R440). A member read not returned after 5 ms starts a degraded read of the sector in parallel. -/
  | readHedgeTimeout (read : Nat) (sector : Nat) (first : Bool)
  /-- AUDIT_STRIPE (R452). The audit reads every member of a stripe, verifies tags and CRCs, recomputes parity and acts on the findings. -/
  | auditStripe (mismatch : List (Nat × Nat)) (failing : List (Nat × Bool))
  /-- OPERATION_REQUEST (R461). A requester queues an operation descriptor for a die, possibly raising a suspend request. -/
  | operationRequest (link : Fin 512) (die : Fin 32) (entry : Fin 16) (block page planes : Nat) (first count pages : Fin 9) (slc : Bool) (cls : Fin 4) (buffer : Nat) (why : OpFor)
  /-- OPERATION_START (R462). When a die is free the Sleeve starts the highest-class oldest descriptor, loading a record and binding it to a context. -/
  | operationStart (sleeve : Fin 64)
  /-- OPERATION_END (R463). An END word ends the operation, frees the record and die and returns the REPORT result to the requester. -/
  | operationEnd (sleeve : Fin 64) (op : Nat) (rebuilt : Bool)
  /-- NOP (R464). A NOP control word issues with no effect. -/
  | nop (sleeve : Fin 64)
  /-- CMD (R545). A CMD word sends N command cycles as one CYCLES capsule. -/
  | cmd (sleeve : Fin 64)
  /-- ADDR (R545). An ADDR word sends N address cycles from IMM or registers. -/
  | addr (sleeve : Fin 64)
  /-- DOUT_RAW (R545). DOUT RAW sends scratch bytes as DATA_OUT capsules. -/
  | doutRaw (sleeve : Fin 64)
  /-- DOUT_IMAGE (R478). DOUT IMAGE builds, LDPC-encodes and sends a plane's page image. -/
  | doutImage (sleeve : Fin 64)
  /-- DIN_RAW (R545). DIN RAW requests AUX bytes into scratch with a DATA_IN_REQ. -/
  | dinRaw (sleeve : Fin 64)
  /-- DIN_IMAGE (R479). DIN IMAGE requests a plane's page image and hard-decodes its requested sectors. -/
  | dinImage (sleeve : Fin 64)
  /-- DIN_SOFT (R479). DIN SOFT stores a soft strobe for the undecoded sectors. -/
  | dinSoft (sleeve : Fin 64)
  /-- STATUS (R545). A STATUS word sends a STATUS_REQ and places the status byte in DST. -/
  | statusWord (sleeve : Fin 64)
  /-- WAIT (R469). A WAIT word releases the context until a masked condition, a fault or an admitted attention. -/
  | wait (sleeve : Fin 64)
  /-- WAIT_END (R469). A waiting record's condition holds, STOPCAUSE is set and the record is rebound to a context. -/
  | waitEnd (sleeve : Fin 64) (op : Nat)
  /-- TIMER_ARM_WATCHDOG (R471). TIMER SUBOP 0 arms the record's watchdog. -/
  | timerArmWatchdog (sleeve : Fin 64)
  /-- TIMER_STOP_WATCHDOG (R471). TIMER SUBOP 1 stops the record's watchdog. -/
  | timerStopWatchdog (sleeve : Fin 64)
  /-- TIMER_ARM_POLL (R471). TIMER SUBOP 2 arms the poll timer with AUX × 0.1 µs. -/
  | timerArmPoll (sleeve : Fin 64)
  /-- POLL_TIMER_EXPIRY (R471). An armed poll timer expires once, satisfying a WAIT on POLL. -/
  | pollTimerExpiry (sleeve : Fin 64) (op : Nat)
  /-- SLEEVE_WATCHDOG_EXPIRY (R471). A record's watchdog expires and fault WDOG becomes pending. -/
  | sleeveWatchdogExpiry (sleeve : Fin 64) (op : Nat)
  /-- MOVI (R464). ALU MOVI loads an immediate into DST and sets flags. -/
  | movi (sleeve : Fin 64)
  /-- ADD (R464). ALU ADD sums SA and SB into DST. -/
  | addWord (sleeve : Fin 64)
  /-- ADDI (R464). ALU ADDI adds an immediate to SA. -/
  | addi (sleeve : Fin 64)
  /-- SUB (R464). ALU SUB subtracts SB from SA. -/
  | sub (sleeve : Fin 64)
  /-- AND (R464). ALU AND combines SA and SB bitwise. -/
  | andWord (sleeve : Fin 64)
  /-- OR (R464). ALU OR combines SA and SB bitwise. -/
  | orWord (sleeve : Fin 64)
  /-- XOR (R464). ALU XOR combines SA and SB bitwise. -/
  | xorWord (sleeve : Fin 64)
  /-- SHLI (R464). ALU SHLI shifts SA left by an immediate. -/
  | shli (sleeve : Fin 64)
  /-- SHRI (R464). ALU SHRI shifts SA right by an immediate. -/
  | shri (sleeve : Fin 64)
  /-- ANDI (R464). ALU ANDI ANDs SA with an immediate. -/
  | andi (sleeve : Fin 64)
  /-- ORI (R464). ALU ORI ORs SA with an immediate. -/
  | ori (sleeve : Fin 64)
  /-- CMP (R464). ALU CMP compares SA and SB setting flags only. -/
  | cmp (sleeve : Fin 64)
  /-- CMPI (R464). ALU CMPI compares SA with an immediate setting flags only. -/
  | cmpi (sleeve : Fin 64)
  /-- LOAD_PERSONALITY (R464). LOAD SUBOP 0 reads 4 bytes of the personality's PTABLE into DST. -/
  | loadPersonality (sleeve : Fin 64)
  /-- LOAD_SCRATCH (R464). LOAD SUBOP 1 reads 4 bytes of scratch into DST. -/
  | loadScratch (sleeve : Fin 64)
  /-- LOAD_CONTEXT_STATE (R464). LOAD SUBOP 2 reads a context state item into DST. -/
  | loadContextState (sleeve : Fin 64)
  /-- STORE (R464). STORE writes SB to scratch. -/
  | store (sleeve : Fin 64)
  /-- BRANCH_JUMP (R464). BRANCH jump transfers control when COND holds. -/
  | branchJump (sleeve : Fin 64)
  /-- BRANCH_CALL (R464). BRANCH call pushes the return address and transfers control when COND holds. -/
  | branchCall (sleeve : Fin 64)
  /-- BRANCH_RETURN (R464). BRANCH return pops the return address when COND holds. -/
  | branchReturn (sleeve : Fin 64)
  /-- REPORT_OK (R481). REPORT OK records a successful result with its detail word. -/
  | reportOk (sleeve : Fin 64)
  /-- REPORT_FAIL (R481). REPORT FAIL records a failed result with its detail word. -/
  | reportFail (sleeve : Fin 64)
  /-- REPORT_INTERRUPTED (R481). REPORT INTERRUPTED records an interrupted result. -/
  | reportInterrupted (sleeve : Fin 64)
  /-- YIELD (R476). YIELD marks the die suspended, pauses the watchdog and starts the queued reads for it. -/
  | yield (sleeve : Fin 64)
  /-- DECODE_HARD (R479). DECODE SUBOP 0 hard-decodes the sectors not yet decoded. -/
  | decodeHard (sleeve : Fin 64)
  /-- DECODE_SOFT (R479). DECODE SUBOP 1 soft-decodes the undecoded sectors with the strobes collected. -/
  | decodeSoft (sleeve : Fin 64)
  /-- DECODE_COMPLETE (R479). The LDPC pool finishes a decode, satisfying a WAIT on DECODE. -/
  | decodeComplete (sleeve : Fin 64) (op : Nat) (good : List (Nat × Nat))
  /-- TRAP (R473). A TRAP word raises fault TRAP with its code. -/
  | trap (sleeve : Fin 64)
  /-- END (R463). An END word ends the operation, faulting NO_REPORT if no REPORT preceded it. -/
  | endWord (sleeve : Fin 64)
  /-- ILLEGAL_WORD (R465). Fetching an illegal control word raises fault ILLEGAL_WORD with no effect. -/
  | illegalWord (sleeve : Fin 64) (ecc : Fin 3)
  /-- MICROCODE_PATCH (R484). Microcode Patch checks the patch and crosses the named Sleeves over one by one, then extends register 7. -/
  | microcodePatch (c : Sqe)
  /-- CROSSOVER_TIMEOUT (R485). A record not crossed over 10 ms after the patch words are written takes fault ABORT. -/
  | crossoverTimeout (sleeve : Fin 64)
  /-- JL_BLOCK_LOCK_ACQUIRE (R500). A receiver acquires block lock at the first SYNC ordered set. -/
  | jlBlockLockAcquire (link : Fin 512)
  /-- JL_BLOCK_LOCK_LOSS (R500). Eight bad sync headers in 64 blocks lose block lock, sending an ACTIVE link to RETRAIN and others to DETECT. -/
  | jlBlockLockLoss (link : Fin 512)
  /-- TS1 (R504). A received TS1 advances training, equalization preset requests, or begins RETRAIN when ACTIVE. -/
  | jlTs1 (link : Fin 512) (ts : Block)
  /-- TS2 (R504). A received TS2 carries credits and replay depth and advances CONFIG toward ACTIVE or a speed change. -/
  | jlTs2 (link : Fin 512) (ts : Block)
  /-- START (R513). A received START resets the scrambler and begins the flit stream in ACTIVE. -/
  | jlStart (link : Fin 512)
  /-- PARK (R525). A received PARK pair confirms a park and both ends enter electrical idle. -/
  | jlPark (link : Fin 512)
  /-- JL_ELECTRICAL_IDLE_EXIT (R526). The partner leaving electrical idle takes a PARKED link through a fast RETRAIN to ACTIVE. -/
  | jlElectricalIdleExit (link : Fin 512)
  /-- JL_STATE_TIMEOUT (R504). ALIGN, CONFIG or RETRAIN exceeding its limit moves the link to DETECT or EQUALIZE. -/
  | jlStateTimeout (link : Fin 512)
  /-- JL_EQUALIZE_STEP (R508). Each millisecond of the preset sweep adapts, measures the eye and moves to the next bridge preset or concludes. -/
  | jlEqualizeStep (link : Fin 512) (eyeW eyeH ctle dfe : Fin 256)
  /-- JL_SPEED_CHANGE_IDLE_END (R506). After 2 µs of electrical idle each end changes rate and enters ALIGN with EQ set. -/
  | jlSpeedChangeIdleEnd (link : Fin 512)
  /-- JL_TRAINING_WINDOW_EXPIRY (R511). A link not ACTIVE at the end of its 200 ms training window enters DOWN with cause 7. -/
  | jlTrainingWindowExpiry (link : Fin 512)
  /-- JL_DOWN_RETRY (R511). Every 1 s a DOWN link attempts a full training from DETECT. -/
  | jlDownRetry (link : Fin 512)
  /-- JL_DOWN_RETIRE (R512). A link DOWN for 60 s, or 8 times in 24 h, is retired by the Belfry. -/
  | jlDownRetire (link : Fin 512)
  /-- JL_FLIT_RECEIVE (R517). A received flit is accepted, discarded as duplicate or bad with a NAK, and its ACK and credits taken. -/
  | jlFlitReceive (link : Fin 512) (flit : List Block)
  /-- JL_REPLAY_TIMEOUT (R520). An ACK not advancing for the rate's replay timeout replays from the oldest unacknowledged flit. -/
  | jlReplayTimeout (link : Fin 512)
  /-- JL_CTL_RETRAIN (R538). JL_CTL.RETRAIN starts a fast RETRAIN of an ACTIVE link. -/
  | jlCtlRetrain (agent : Fin 8) (link : Fin 512)
  /-- JL_CTL_RETRAIN_FULL (R511). JL_CTL.RETRAIN_FULL starts a full training from DETECT of an ACTIVE link. -/
  | jlCtlRetrainFull (agent : Fin 8) (link : Fin 512)
  /-- JL_MARGIN_START (R528). JL_MARGIN_CTL.START begins a margin-sampler measurement on an ACTIVE link. -/
  | jlMarginStart (agent : Fin 8) (link : Fin 512) (data : Word)
  /-- JL_MARGIN_ABORT (R528). JL_MARGIN_CTL.ABORT ends a measurement with VALID clear. -/
  | jlMarginAbort (agent : Fin 8) (link : Fin 512) (data : Word)
  /-- JL_MARGIN_DONE (R528). A margin measurement completes its dwell and reports DONE, VALID and its error count. -/
  | jlMarginDone (link : Fin 512) (errors : Nat)
  /-- JL_TEST_START (R532). JL_TEST_CTL.START on an ISOLATED idle link enters TEST with the selected loopback mode. -/
  | jlTestStart (agent : Fin 8) (link : Fin 512) (data : Word)
  /-- JL_TEST_STOP (R533). JL_TEST_CTL.STOP ends the test with 2 µs of idle and the link trains from DETECT. -/
  | jlTestStop (agent : Fin 8) (link : Fin 512) (data : Word) (locked : Bool) (errors : Nat)
  /-- DATA_IN (R547). A DATA_IN capsule delivers read bytes for its RTAG, ending the tag at LAST. -/
  | dataIn (link : Fin 512)
  /-- STATUS_RESP (R547). A STATUS_RESP delivers a status byte for its RTAG. -/
  | statusResp (link : Fin 512)
  /-- EDGE (R551). An EDGE capsule sets READY or BUSY latches of listed dies whose EPOCH matches the device count. -/
  | edgeCapsule (link : Fin 512)
  /-- TEMP (R557). A TEMP capsule updates the bridge temperature and applies the bridge thresholds. -/
  | tempCapsule (link : Fin 512)
  /-- ERROR (R555). An ERROR capsule faults the operation holding the named die or starts a training, per its code. -/
  | errorCapsule (link : Fin 512)
  /-- MGMT_RESP (R558). A MGMT_RESP answers an IDENTIFY, SET_IF or TEMP_NOW request. -/
  | mgmtResp (link : Fin 512)
  /-- JL_REPLY_TIMEOUT (R553). A reply not complete 500 µs after its request faults BRIDGE and quarantines the tag. -/
  | jlReplyTimeout (link : Fin 512)
  /-- JL_TEMP_STALE (R557). No TEMP for 50 ms on an ACTIVE link sets TEMP_STALE and takes the bridge at BRIDGE_ENFORCE_C. -/
  | jlTempStale (link : Fin 512)
  /-- KEY_LOAD_LOAD (R588). Key Load OP LOAD unwraps a host key under ECDH and installs it in the slot by the two-phase procedure. -/
  | keyLoadLoad (c : Sqe)
  /-- KEY_LOAD_GENERATE (R588). Key Load OP GENERATE installs a key from the key generator in the slot. -/
  | keyLoadGenerate (c : Sqe)
  /-- KEY_LOAD_CLEAR (R590). Key Load OP CLEAR zeroizes an unnamed slot and retires its records. -/
  | keyLoadClear (c : Sqe)
  /-- KEY_RECORD_DURABLE (R593). A key-slot NOR record becomes durable and the next step of a key change or reservation proceeds. -/
  | keyRecordDurable (slot : Fin 1024)
  /-- ENTROPY_HEALTH_FAIL (R585). A failed health test sets ENTROPY_FAULT and stops the key generator. -/
  | entropyHealthFail
  /-- MASKING_RESEED (R584). Every 1 ms the masking generator is reseeded. -/
  | maskingReseed
  /-- DRAM_REFRESH_TICK (R614). At a refresh opportunity the controller refreshes a bank, forcing one that owes 8. -/
  | dramRefreshTick (ch : Fin 24) (due : Fin 32) (busy : List (Fin 32))
  /-- DRAM_MR4_POLL (R614). Every 16 ms the controller reads MR4 and derates refresh. -/
  | dramMr4Poll (ch : Fin 24) (mr4 : Fin 32)
  /-- DRAM_WCK2DQI_TRACK (R617). Every 4 ms the WCK2DQI oscillator runs and write timing is adjusted on drift. -/
  | dramWck2dqiTrack (ch : Fin 24) (drift edges : Fin 256)
  /-- DRAM_READ_RETURN (R608). A DRAM line read returns and is decoded, corrected with write-back, or marked uncorrectable. -/
  | dramReadReturn (addr : Nat) (sub : Bool) (outcome : Fin 3) (symbol : Fin 36) (copy : Option Nat) (resend : Bool)
  /-- DRAM_LINE_REBUILD_TIMEOUT (R609). A map line not rebuilt within 1 s causes a warm restart using the hem-page tier. -/
  | dramLineRebuildTimeout
  /-- DRAM_SCRUB_READ (R621). The scrubber issues its next read when the read queue is idle or the pass falls behind. -/
  | dramScrubRead (ch : Fin 24) (idle : Bool) (outcome : Fin 3) (symbol : Fin 36)
  /-- DRAM_TRAINING_FAIL (R616). A channel failing its second start-up training is retired and a warm restart made. -/
  | dramTrainingFail (ch : Fin 24)
  /-- WRITE_DATA (R626). ECC test WRITE_DATA writes DRC_TEST_DATA to a region 7 line leaving check bytes. -/
  | writeData
  /-- WRITE_CHECK (R626). ECC test WRITE_CHECK writes DRC_TEST_CHECK leaving data. -/
  | writeCheck
  /-- WRITE_BOTH (R626). ECC test WRITE_BOTH writes data with computed check bytes. -/
  | writeBoth
  /-- READ_RAW (R626). ECC test READ_RAW returns data and check bytes as stored. -/
  | readRaw
  /-- DRC_TEST_READ (R626). ECC test READ returns the line as a demand read with outcome and symbol. -/
  | drcTestRead (outcome : Fin 3) (symbol : Fin 36)
  /-- MNT_SAMPLE_INSTANT (R640). At its sample instant a slot requests conversions, or skips the period when its previous work has not ended. -/
  | mntSampleInstant (slot : Fin 4)
  /-- MNT_PERIOD_COMPUTE (R645). With its conversions done a slot runs observer, feedback, duty application, prediction, integral and profile. -/
  | mntPeriodCompute (slot : Fin 4) (codes : List (Fin 16384)) (wait : Nat)
  /-- CHARGE_LIMITED_TIMER (R653). Slot 0 in HEADROOM for 2 s enters CHARGE_LIMITED, and out of HEADROOM for 1 s leaves it. -/
  | chargeLimitedTimer
  /-- MNT_LOOP_BYPASS_WRITE (R654). A Belfry write of MNT_LOOP_CTL.BYPASS bypasses or restores the slot at its next period start. -/
  | mntLoopBypassWrite (agent : Fin 8) (slot : Fin 4) (data : Word)
  /-- MNT_TARGET_WRITE (R643). A host write of MNT_TARGET sets the target of slot 2 or 3, and is discarded for slots 0 and 1. -/
  | mntTargetWrite (agent : Fin 8) (slot : Fin 4) (data : Word)
  /-- MNT_LOOP_FLAGS_CLEAR (R651). A W1C write clears sticky loop flags. -/
  | mntLoopFlagsClear (agent : Fin 8) (slot : Fin 4) (data arriving : Word)
  /-- MNT_FAULT_N_FALL (R656). MNT_FAULT_N low drives every MNT_PWM pin low within 100 ns and sets FORCED. -/
  | mntFaultNFall
  /-- MNT_FAULT_N_RELEASE (R656). After MNT_FAULT_N has been high for 1 µs the pins resume at each slot's next period. -/
  | mntFaultNRelease
  /-- MNT_TRC_ARM (R658). MNT_TRC_CTL.ARM arms a slot's trace buffer at index 0. -/
  | mntTrcArm (agent : Fin 8) (slot : Fin 4) (data : Word)
  /-- MNT_TRC_TRIGGER (R658). MNT_TRC_CTL.TRIGGER is trigger source 0 of the trace buffer. -/
  | mntTrcTrigger (agent : Fin 8) (slot : Fin 4) (data : Word)
  /-- MNT_TRC_STOP (R658). MNT_TRC_CTL.STOP stops recording and sets DONE. -/
  | mntTrcStop (agent : Fin 8) (slot : Fin 4) (data : Word)
  /-- MNT_STRING_SAMPLE (R666). Every 100 µs each string's voltage and current are sampled and its charge counted. -/
  | mntStringSample (codes : List (Fin 16384 × Fin 16384))
  /-- MNT_TEMP_SAMPLE (R666). Every 10 ms each string's temperature is sampled. -/
  | mntTempSample (codes : List (Fin 16384))
  /-- MNT_ENERGY_COMPUTE (R670). Every 1 ms the estimator computes e_use from the counting strings. -/
  | mntEnergyCompute
  /-- MNT_CHARGE_CONTROL (R672). Every 1 ms the charge control sets slot 0's target by charge phase. -/
  | mntChargeControl
  /-- MNT_LEARN_START (R678). MNT_LEARN_CTL.START marks a learning discharge of a string pending and excludes it from e_use. -/
  | mntLearnStart (agent : Fin 8) (data : Word)
  /-- MNT_LEARN_ABORT (R679). MNT_LEARN_CTL.ABORT aborts a running learning discharge. -/
  | mntLearnAbort (agent : Fin 8) (data : Word)
  /-- LEARN_DISCHARGE_BEGIN (R678). Once its conditions hold the Belfry opens the string's connect path and switches its learning load on. -/
  | learnDischargeBegin
  /-- LEARN_DISCHARGE_END (R678). When the string is empty or reaches SoC 0.50 the load goes off and the string rests. -/
  | learnDischargeEnd
  /-- LEARN_REST_END (R678). After the rest the SoC is read, capacity learned and the connect path closed for recharge. -/
  | learnRestEnd
  /-- LEARN_RECHARGE_DONE (R678). The string regaining its starting SoC ends the exclusion. -/
  | learnRechargeDone
  /-- COMPAT_RECORD_WRITE (R684). In ICX-1280 mode the Belfry writes a cycle and impedance record to the NOR. -/
  | compatRecordWrite (learning : Bool)
  /-- POWER_OFF (R692). Power Off passes the checks, drains the device and removes the main rails, then the Belfry halts. -/
  | powerOff (c : Sqe)
  /-- ENTRY_DRAIN_DONE (R693). With commands complete, the window drained, seals and tail written, entry parks links and gates power. -/
  | entryDrainDone
  /-- ENTRY_GATING_DONE (R693). Step 4 of entry ends and the target state is reached, or exit begins at once for a latched wake. -/
  | entryGatingDone
  /-- WAKE_N_LOW (R695). WAKE_N low for 1 µs wakes the device from any state, Off included. -/
  | wakeNLow
  /-- MGMT_MESSAGE_WAKE (R695). An NVMe-MI Admin Command message wakes the device from Doze, Sleep or Deep Sleep. -/
  | mgmtMessageWake
  /-- OFF_MGMT_TRANSACTION (R695). In Off a management transaction to the endpoint address starts the Belfry alone. -/
  | offMgmtTransaction
  /-- OFF_BELFRY_HALT (R695). Ten seconds after the last management message in Off the Belfry halts again. -/
  | offBelfryHalt
  /-- WAKE_TIMER_EXPIRY (R695). The wake timer expires WAKE_TIMER_S after entry and wakes the device. -/
  | wakeTimerExpiry
  /-- EXIT_COMPLETE (R700). An exit reaches Run, raises source 1,752 and controllers resume fetching. -/
  | exitComplete (failedLanes : List (Fin 16)) (codes : List (Nat × Nat × Nat))
  /-- THM_SENSOR_RESULT (R706). Every 64 µs a junction result is compared with the thresholds and the thermal states and throttle request updated. -/
  | thmSensorResult (raw : Fin 1048576) (temp : Int) (volt : Fin 3)
  /-- THM_RATE_TICK (R707). Every 16 ms the rate of rise is computed and the rise states updated. -/
  | thmRateTick
  /-- GRACE_EXPIRY (R712). At the end of a grace interval the lesser level is enforced by metering chunk grants. -/
  | graceExpiry
  /-- TRIP_RESTART (R721). After cooling, a passing self-test and any acknowledgement the Belfry restarts the main domain from phase IMAGE. -/
  | tripRestart
  /-- SENSOR_SELF_TEST (R721). Every 10 s after a trip the Belfry runs the diode and converter self-test. -/
  | sensorSelfTest (pass : Bool)
  /-- TRIP_RECORD_WRITE (R720). After the main rails fall the Belfry writes one trip record to the NOR. -/
  | tripRecordWrite
  /-- FAN_CHECK (R723). Each second each fan's speed is measured and a stalled fan faulted. -/
  | fanCheck (pulses : List Nat)
  /-- FAULT_CLEAR (R66). The mailbox message clears a latched rail fault. -/
  | faultClear (r : MbReq)
  /-- TRIP_ACK (R721). The mailbox message acknowledges a trip for the restart. -/
  | tripAck (r : MbReq)
  /-- MAINT_REQUEST (R738). The mailbox message requests a maintenance activity, starting it or leaving it waiting. -/
  | maintRequest (r : MbReq)
  /-- MAINT_CANCEL (R742). The mailbox message cancels a running or waiting activity. -/
  | maintCancel (r : MbReq)
  /-- LINK_ISOLATE (R736). The mailbox message makes a link ISOLATED unless a stripe would exceed its parity. -/
  | linkIsolate (r : MbReq)
  /-- LINK_RETURN (R735). The mailbox message trains and identifies an isolated link and returns it to service. -/
  | linkReturn (r : MbReq)
  /-- LINK_RETIRE (R534). The mailbox message retires a link, faulting its operations and powering its SerDes down. -/
  | linkRetire (r : MbReq)
  /-- SLEEVE_BYPASS (R489). The mailbox message bypasses a Sleeve, aborting its non-array-busy records and making its links BYPASSED. -/
  | sleeveBypass (r : MbReq)
  /-- SLEEVE_RETURN (R490). The mailbox message reloads a bypassed Sleeve and sets its dies NEEDS_RESET. -/
  | sleeveReturn (r : MbReq)
  /-- LANE_BYPASS (R579). The mailbox message takes a cipher lane out of service after its current sector. -/
  | laneBypass (r : MbReq)
  /-- LANE_TEST (R578). The mailbox message runs the known-answer test on an out-of-service lane. -/
  | laneTest (r : MbReq) (pass : Bool)
  /-- LANE_RETURN (R579). The mailbox message returns a lane to service. -/
  | laneReturn (r : MbReq)
  /-- LOOP_BYPASS (R654). The mailbox message bypasses a Mantle loop slot. -/
  | loopBypass (r : MbReq)
  /-- LOOP_RETURN (R654). The mailbox message restores a bypassed loop slot. -/
  | loopReturn (r : MbReq)
  /-- PORT_RESET (R734). The mailbox message resets the other PCIe port with the scope of PERST_x_N. -/
  | portReset (r : MbReq)
  /-- CHANNEL_RETIRE (R627). The mailbox message records a DRAM channel to retire at the next main reset. -/
  | channelRetire (r : MbReq)
  /-- CHANNEL_RETURN (R627). The mailbox message records a retired channel to return at the next main reset. -/
  | channelReturn (r : MbReq)
  /-- LOG_READ (R732). The mailbox message returns up to 7 event records from a sequence number. -/
  | logRead (r : MbReq)
  /-- SCHEDULING_PASS (R738). Every 1 s and at each request the Belfry starts due maintenance activities not excluded, by priority and age. -/
  | schedulingPass (norFails : List (Nat × Bool))
  /-- MAINT_ACTIVITY_END (R742). A maintenance activity completes, producing an event record and source 1,779. -/
  | maintActivityEnd (activity : Fin 10) (resource : Nat)
  /-- MARGIN_MEASUREMENT (R744). An ageing measurement is taken and the margin plan adjusted when a trigger holds. -/
  | marginMeasurement
  /-- COUNTERS_RECORD_WRITE (R747). Every 10 min, at Off and after the rails fall, the Belfry writes the counters record alternately to copies A and B. -/
  | countersRecordWrite
  /-- STP_UP_LOCK_ACQUIRED (R327). The UP receiver acquires symbol lock after 64 valid commas. -/
  | stpUpLockAcquired
  /-- STP_DN_LOCK_ACQUIRED (R327). The DN receiver acquires symbol lock. -/
  | stpDnLockAcquired
  /-- STP_UP_LOCK_LOST (R344). UP symbol lock lost enters HOLDOVER_HEAD and reports a chain break. -/
  | stpUpLockLost (violations : Nat)
  /-- STP_DN_LOCK_LOST (R344). DN symbol lock lost raises source 1,761 and reports a break with PORT 1. -/
  | stpDnLockLost (violations : Nat)
  /-- STP_TIME (R332). A received TIME message updates the offset and drives the timebase, entering or leaving LOCKED, HOLDOVER or a heal. -/
  | stpTime (msg : List Byte)
  /-- STP_DELAY_REQ (R329). A received DELAY_REQ is answered with DELAY_RESP within 2 µs. -/
  | stpDelayReq (msg : List Byte) (turn : Fin 2001)
  /-- STP_DELAY_RESP (R331). A received DELAY_RESP updates the hop delay mean and sets UP_CAL after 1,024 exchanges. -/
  | stpDelayResp (msg : List Byte)
  /-- STP_TRIGGER (R343). A new broadcast TRIGGER is applied or scheduled as a Steeple trigger and forwarded. -/
  | stpTrigger (msg : List Byte)
  /-- STP_TAKE_OPEN (R343). A new TAKE_OPEN broadcast starts takes waiting under JOIN_CHAIN. -/
  | stpTakeOpen (msg : List Byte)
  /-- STP_TAKE_CLOSE (R343). A new TAKE_CLOSE broadcast schedules a STOP for joined takes. -/
  | stpTakeClose (msg : List Byte)
  /-- STP_CAL (R340). A member installs a received CAL calendar offset. -/
  | stpCal (msg : List Byte)
  /-- STP_STATUS (R350). A received STATUS is forwarded up and counted in membership by a head. -/
  | stpStatus (msg : List Byte)
  /-- STP_TIME_SEND (R329). Every 10 µs a device with a time source sends TIME on DN. -/
  | stpTimeSend
  /-- STP_DELAY_REQ_SEND (R329). Every 10 µs a device with UP lock sends DELAY_REQ. -/
  | stpDelayReqSend
  /-- STP_CAL_SEND (R340). Every 100 ms the head sends CAL. -/
  | stpCalSend
  /-- STP_STATUS_SEND (R350). Every 100 ms a member sends STATUS up. -/
  | stpStatusSend
  /-- STP_BROADCAST_REPEAT (R341). The head repeats a broadcast at 20 µs and then every 100 ms with REPEAT until its time passes. -/
  | stpBroadcastRepeat
  /-- STP_ACQUIRE_TIMEOUT (R336). With ROLE 0 and no valid TIME for 100 ms in ACQUIRE the device enters HEAD. -/
  | stpAcquireTimeout
  /-- STP_SLEW_COMPLETE (R347). The slew removes the offset and the device proceeds to LOCKED. -/
  | stpSlewComplete
  /-- STP_REF_PPS_EDGE (R339). An accepted REF_PPS edge aligns the head's second boundary. -/
  | stpRefPpsEdge
  /-- STP_REF_PPS_LOSS (R339). No accepted REF_PPS edge for 1.1 s clears REF_PPS_LOCK and the head continues on its oscillator. -/
  | stpRefPpsLoss
  /-- STP_REF_10M_LOSS (R339). No REF_10M edge for 1 µs clears REF_10M_LOCK and the PLL returns to STP_OSC_IN. -/
  | stpRef10mLoss
  /-- STP_CAL_CTL_WRITE (R340). A write of STP_CAL_CTL on a head installs the calendar offset and UTC offset together. -/
  | stpCalCtlWrite (agent : Fin 8) (data : Word)
  /-- MI_READ_DATA_STRUCTURE (R232). NVMe-MI Read Data Structure returns a management data structure. -/
  | miReadDataStructure (nmd0 : Word) (nmd1 : Word)
  /-- MI_SUBSYSTEM_HEALTH_POLL (R232). NVM Subsystem Health Status Poll returns temperature and critical warnings. -/
  | miSubsystemHealthPoll (nmd0 : Word) (nmd1 : Word)
  /-- MI_CONTROLLER_HEALTH_POLL (R232). Controller Health Status Poll returns each controller's health. -/
  | miControllerHealthPoll (nmd0 : Word) (nmd1 : Word)
  /-- MI_CONFIGURATION_SET (R232). Configuration Set changes bus frequency or MCTP transmission unit. -/
  | miConfigurationSet (nmd0 : Word) (nmd1 : Word)
  /-- MI_CONFIGURATION_GET (R232). Configuration Get returns bus frequency or transmission unit. -/
  | miConfigurationGet (nmd0 : Word) (nmd1 : Word)
  /-- MI_VPD_READ (R232). VPD Read returns 256 B built from OTP identity and BOARD_ID. -/
  | miVpdRead (nmd0 : Word) (nmd1 : Word)
  /-- MI_VPD_WRITE (R232). VPD Write completes with Invalid Command Opcode. -/
  | miVpdWrite (nmd0 : Word) (nmd1 : Word) (data : List Byte)
  /-- MI_RESET (R232). NVMe-MI Reset performs an NVM Subsystem Reset. -/
  | miReset (nmd0 : Word) (nmd1 : Word)
  /-- MI_SHUTDOWN (R232). NVMe-MI Shutdown acts as a normal shutdown notification on every controller. -/
  | miShutdown (nmd0 : Word) (nmd1 : Word)
  /-- MI_ADMIN_COMMAND (R233). An NVMe-MI Admin Command message executes an allowed admin command as agent 5, or fails when the main domain is down. -/
  | miAdminCommand (op : Fin 256) (c : Sqe)
  /-- FITTING_STAGE (R226). Fitting OP STAGE stages 1 to 512 entries in the open fitting. -/
  | fittingStage (c : Sqe)
  /-- FITTING_BEGIN (R226). Fitting OP BEGIN opens a fitting with the issuer as owner. -/
  | fittingBegin (c : Sqe)
  /-- FITTING_COMMIT (R228). Fitting OP COMMIT commits the open fitting and completes when COMMITTING ends. -/
  | fittingCommit (c : Sqe)
  /-- FITTING_ABORT (R226). Fitting OP ABORT abandons the open fitting. -/
  | fittingAbort (c : Sqe)
  /-- FITTING_BEGIN_STAGE_COMMIT (R226). Fitting OP 0x4 begins, stages its entries and commits in one command. -/
  | fittingBeginStageCommit (c : Sqe)
  /-- FITTING_REPORT (R229). Fitting Report returns the fitting registers and, to the owner, the staged entries. -/
  | fittingReport (c : Sqe)
  /-- INVALID_COMMAND_OPCODE (R195). A fetched admin or I/O command with an opcode not in Table 6.6, Namespace Attachment included, completes with Invalid Command Opcode. -/
  | invalidCommandOpcode (c : Sqe)
  /-- MAILBOX_UNSUPPORTED_OPCODE (R732). A mailbox GO whose request opcode is not in Table 22.2 receives a response with STATUS 1. -/
  | mailboxUnsupportedOpcode (r : MbReq)
  /-- PCIE_LINK_UP (R174). A port's PCIe link completes training at the highest common rate not above MAX_RATE and raises the link-state source. -/
  | pcieLinkUp (ctrl : Fin 4) (rate : Partner) (lanes : Fin 5)
  /-- CONFIGURATION_REQUEST (R86). A PCIe configuration request is answered with Request Retry Status until MAIN_INIT completes, and from retained state in Deep Sleep. -/
  | configurationRequest (port : CfgReq)
  /-- VAUX_FALL (R61). VAUX leaving its range removes the Belfry, wake logic and pull-ups, so PWR_KILL_N reads low and nothing runs until VAUX rises again. -/
  | vauxFall
  /-- MNT_PFI_RISE (R674). MNT_PFI rising above its threshold cancels a running loss filter and starts the 10 ms restore timer. -/
  | mntPfiRise
  /-- STP_REF_10M_LOCK (R339). After 1 ms of lock to REF_10M the head's Steeple PLL sets REF_10M_LOCK, also on the reference's return. -/
  | stpRef10mLock
  /-- STP_MEMBER_TIMEOUT (R350). A UID whose last STATUS is older than 300 ms drops out of STP_MEMBERS.COUNT and source 1,767 is raised. -/
  | stpMemberTimeout
  /-- ENTROPY_FAULT_CLEAR (R585). The entropy fault clears when 1,024 consecutive health-test windows pass, and the key generator serves again. -/
  | entropyFaultClear (windows : Nat)
  /-- DRAM_RETRAIN_DONE (R618). A channel retrain ends after at most 1.5 ms, releasing held queues, or on failure is repeated from the start-up procedure or fails the channel. -/
  | dramRetrainDone (ch : Fin 24) (ok : Bool)
  /-- ENUMERATE_DIE_DEADLINE (R561). A die whose enumeration steps have not completed 90 ms after phase ENUMERATE began is made absent. -/
  | enumerateDieDeadline
  deriving DecidableEq, Repr

end Sys2Proof
end

