-- ==== Sys2Proof/Decode.lean ====
section
/-!
DEFINITION. Decode.lean: the command a word spells by the bits of spec/opcode_table.json. The table gives no row any
bits (its commands are operations of the block's ports, not words), so no word spells a command.
-/
namespace Sys2Proof

/-- No row of the table has bits: no word of any width spells a command. -/
def decodeTableWord (_nbits _w : Nat) : Option Instr := none

end Sys2Proof
end

