-- ==== Sys2Proof/Config.lean ====
section
/-!
DEFINITION. Config.lean: what the manual names and does not restate, or leaves open. Every constant is opaque with no
body: a statement holds whatever it is.
-/
namespace Sys2Proof.Config

/-- SHA-384 (03 R98 names the standard and does not restate it; log entry 13). -/
opaque sha384 : List Byte → BitVec 384

/-- ECDSA P-384 verification of a signature over a SHA-384 digest under a public key (03 R104; log entry 13). -/
opaque ecdsaVerify : (pubkey : List Byte) → (digest : BitVec 384) → (sig : List Byte) → Bool

/-- ECDSA P-384 signature made with the alias key derived from DEVID_SEED and measurement register 1 (03 R100; log
entry 13). -/
opaque aliasSign : (seed : List Word) → (meas1 : BitVec 384) → List Byte → List Byte

/-- The digest of the boot ROM (03 Table 3.8, register 0; log entry 13). -/
opaque bootRomDigest : BitVec 384

/-- The tag of AES-256-GCM over a sector payload (16 Table 16.1): key, IV, additional data, plaintext (log entry 13). -/
opaque gcmTag : (key iv aad plain : List Byte) → List Byte

/-- The ciphertext of AES-256-GCM (16 Table 16.1; log entry 13). -/
opaque gcmCipher : (key iv aad plain : List Byte) → List Byte

/-- The parity an LDPC code of 13 Table 13.7 gives a payload with its envelope (13 R478; log entry 29). -/
opaque ldpcParity : (code : Nat) → List Byte → List Byte

/-- A page image the model does not hold the contents of: a probe or other page that is no member of a stripe, by operation and plane (log entry 29). -/
opaque otherImage : (operation plane k : Nat) → BitVec 8

/-- The block and page of the k-th sample page a THRESH_RECAL reads on a die (22 R740 does not say which 16 pages; log entry 51). -/
opaque samplePage : (link die k : Nat) → Nat × Nat

/-- FLBAS bit 4 of a namespace whose format has metadata (06 R187; how a host chooses it is not stated; log entry 45). -/
opaque flbasExtended : (nsid : Nat) → Bool

/-- What a capability of PCIe Base 6.0 that the manual names without giving its fields reads as (06 Table 6.2; log entry 23). -/
opaque pcieWord : (off : Nat) → Word

/-- The public key of the owner whose SHA-384 is in OWNER_HASH (16 Table 16.4 check 5 verifies a bare signature; how the device
comes by the key is not stated; log entry 21). -/
opaque ownerKey : (hash : BitVec 384) → List Byte

/-- What the key generator serves: the i-th request of n bytes (16 R584; log entry 2). -/
opaque keyBytes : (n i : Nat) → List Byte

/-- The public point of an ECDH P-384 private key, uncompressed (16 R586; log entry 13). -/
opaque ecdhPublic : (priv : List Byte) → List Byte

/-- The x coordinate of an ECDH P-384 product (16 R588; log entry 13). -/
opaque ecdhShared : (priv pub : List Byte) → List Byte

/-- HKDF-SHA-384 of RFC 5869 (16 R588; log entry 13). -/
opaque hkdf : (ikm salt info : List Byte) → (len : Nat) → List Byte

/-- AES-KW of RFC 3394 (16 R588; log entry 13). -/
opaque aesKwWrap : (kek key : List Byte) → List Byte

/-- The unwrap of AES-KW with its integrity check (log entry 13). -/
opaque aesKwUnwrap : (kek wrapped : List Byte) → Option (List Byte)

/-- The fields of the 128-byte header of a fine table: NSID, unit, entries set (11 R382, which gives no layout; log entry 61). -/
opaque fineHeader : (nsid unit count : Nat) → List Byte

/-- The 24 bytes of a stripe in the stripe table (11 Table 11.2, which gives no layout; log entry 61). -/
opaque stripeEntry : (band firstRow rows state valid seqMin seqMax : Nat) → List Byte

/-- The 256 bytes of a band in the band table (11 Table 11.2, which gives no layout; log entry 61). -/
opaque bandEntry : (members : List (Nat × Nat × Nat)) → (state : Nat) → (erases : List Nat) → (programmed : Nat) → List Byte

/-- The 32 bytes of a namespace in the stored namespace table: NSID, size, base, and its other fields as an NS_SET entry packs them (11 Table
11.7, which gives no layout; log entry 61). -/
opaque nsEntry : (nsid units base fields : Nat) → List Byte

/-- The take directory as of its n-th change, as its metadata sector holds it (12, "Metadata mirroring", which gives no layout; log entry 61). -/
opaque takeDirSector : (n : Nat) → List Byte

/-- The root certificate of the device identity chain in the NOR (03 R100, R102; log entry 35). -/
opaque rootCert : List Byte

/-- The rest of the chain in the NOR: intermediate and device identity certificate (03 R100, R102; log entry 35). -/
opaque identityCerts : List Byte

/-- The alias certificate, made from DEVID_SEED and measurement register 1 (03 R100; log entry 35). -/
opaque aliasCert : (seed : List Word) → (meas1 : BitVec 384) → List Byte

/-- The CTExponent of the SPDM CAPABILITIES response (03 R100; log entry 35). -/
opaque ctExponent : Nat

/-- The 256 bytes VPD Read returns, built from the OTP identity row and BOARD_ID (06 R232, which gives no layout; log entry 40). -/
opaque vpdByte : (identity : List Byte) → (boardId : Nat) → (i : Nat) → Byte

/-- A byte of an NVMe-MI data structure the manual does not lay out: type, port, controller, position (06 R232; log entry 40). -/
opaque miStructure : (dtyp port ctrl i : Nat) → Byte

/-- A value the manual leaves open, 32 bits: the n-th one the run meets (log entry 2). -/
opaque freeWord : Nat → Word

end Sys2Proof.Config
end

