-- ==== Sys2Proof/Machine/RegMap.lean ====
section
/-!
DEFINITION. Machine/RegMap.lean: the BAR2 register file as data (05_register_space_fittings_and_events.md R145, and
the offset and field tables of every chapter). For every register its offset (a function of its indices where it is
repeated), for every field its place, and one descriptor per register: which bits a write sets, clears or stages
(00_scope.md Table 0.3), what it holds after its reset, and which reset that is.
Names are the manual's: Reg.THM_STATUS is an offset, Reg.THM_STATUS_STATE a field of the register there.
-/
namespace Sys2Proof.Machine

/-- A field of a register: the register's BAR2 offset, the field's lowest bit and its width. -/
structure Field where
  off : Nat
  lsb : Nat
  width : Nat
  deriving DecidableEq, Repr

/-- A register or a repeated register. Offsets are base + i * stride1 + j * stride2, i < count1, j < count2.
The masks are those of the access codes of 00_scope.md Table 0.3 (a bit in none of them is RO or reserved). -/
structure RegDesc where
  base : Nat
  stride1 : Nat
  count1 : Nat
  stride2 : Nat
  count2 : Nat
  rw : Nat
  w1c : Nat
  rwf : Nat
  reset : Nat
  /-- true: resets at aux reset; false: at main reset. -/
  aux : Bool
  deriving DecidableEq, Repr

namespace Reg

/-- BEL_BOOT_STATUS (R114, Table 3.14). -/
def BEL_BOOT_STATUS : Nat := 0x01C01000
def BEL_BOOT_STATUS_ERROR : Field := ⟨BEL_BOOT_STATUS, 24, 8⟩
def BEL_BOOT_STATUS_BELFRY_MISMATCH : Field := ⟨BEL_BOOT_STATUS, 11, 1⟩
def BEL_BOOT_STATUS_NO_IMAGE : Field := ⟨BEL_BOOT_STATUS, 10, 1⟩
def BEL_BOOT_STATUS_STRAP_WARN : Field := ⟨BEL_BOOT_STATUS, 9, 1⟩
def BEL_BOOT_STATUS_TRIAL : Field := ⟨BEL_BOOT_STATUS, 8, 1⟩
def BEL_BOOT_STATUS_ATTEMPTS : Field := ⟨BEL_BOOT_STATUS, 4, 4⟩
def BEL_BOOT_STATUS_PHASE : Field := ⟨BEL_BOOT_STATUS, 0, 4⟩
/-- BEL_LIFECYCLE (R114, Table 3.15). -/
def BEL_LIFECYCLE : Nat := 0x01C01004
def BEL_LIFECYCLE_STEPPING : Field := ⟨BEL_LIFECYCLE, 8, 8⟩
def BEL_LIFECYCLE_OWN_INCOMPLETE : Field := ⟨BEL_LIFECYCLE, 7, 1⟩
def BEL_LIFECYCLE_ACTIVE_OWNER : Field := ⟨BEL_LIFECYCLE, 4, 3⟩
def BEL_LIFECYCLE_STATE : Field := ⟨BEL_LIFECYCLE, 0, 4⟩
/-- BEL_MEAS_DATA (R114, Table 3.16). -/
def BEL_MEAS_DATA (i : Nat) (w : Nat) : Nat := 0x01C01100 + 0x40 * i + 0x4 * w
def BEL_MEAS_DATA_BYTES (i : Nat) (w : Nat) : Field := ⟨BEL_MEAS_DATA i w, 0, 32⟩
/-- BEL_IMAGE_STATUS (R143, Table 4.20). -/
def BEL_IMAGE_STATUS : Nat := 0x01C01008
def BEL_IMAGE_STATUS_CHECK : Field := ⟨BEL_IMAGE_STATUS, 24, 8⟩
def BEL_IMAGE_STATUS_CLAMP_COUNT : Field := ⟨BEL_IMAGE_STATUS, 13, 11⟩
def BEL_IMAGE_STATUS_OVERFLOW : Field := ⟨BEL_IMAGE_STATUS, 12, 1⟩
def BEL_IMAGE_STATUS_FALLBACK : Field := ⟨BEL_IMAGE_STATUS, 11, 1⟩
def BEL_IMAGE_STATUS_SIGNER : Field := ⟨BEL_IMAGE_STATUS, 8, 2⟩
def BEL_IMAGE_STATUS_SLOT : Field := ⟨BEL_IMAGE_STATUS, 4, 2⟩
/-- BEL_IMAGE_VERSION (R143, Table 4.21). -/
def BEL_IMAGE_VERSION : Nat := 0x01C0100C
def BEL_IMAGE_VERSION_VERSION : Field := ⟨BEL_IMAGE_VERSION, 0, 32⟩
/-- BEL_IMAGE_ID_LO (R143, Table 4.21). -/
def BEL_IMAGE_ID_LO : Nat := 0x01C01010
def BEL_IMAGE_ID_LO_ID : Field := ⟨BEL_IMAGE_ID_LO, 0, 32⟩
/-- BEL_IMAGE_ID_HI (R143, Table 4.21). -/
def BEL_IMAGE_ID_HI : Nat := 0x01C01014
def BEL_IMAGE_ID_HI_ID : Field := ⟨BEL_IMAGE_ID_HI, 0, 32⟩
/-- GBL_ID (R151, Table 5.5). -/
def GBL_ID : Nat := 0x00000000
def GBL_ID_PART : Field := ⟨GBL_ID, 16, 16⟩
def GBL_ID_STEPPING : Field := ⟨GBL_ID, 8, 8⟩
/-- GBL_UID_LO (R151, Table 5.5). -/
def GBL_UID_LO : Nat := 0x00000004
def GBL_UID_LO_UID : Field := ⟨GBL_UID_LO, 0, 32⟩
/-- GBL_UID_HI (R151, Table 5.5). -/
def GBL_UID_HI : Nat := 0x00000008
def GBL_UID_HI_UID : Field := ⟨GBL_UID_HI, 0, 32⟩
/-- GBL_FW_VERSION (R151, Table 5.5). -/
def GBL_FW_VERSION : Nat := 0x0000000C
def GBL_FW_VERSION_VERSION : Field := ⟨GBL_FW_VERSION, 0, 32⟩
/-- GBL_POP (R151, Table 5.5). -/
def GBL_POP : Nat := 0x00000010
def GBL_POP_CONTROLLERS : Field := ⟨GBL_POP, 24, 3⟩
def GBL_POP_CHANNELS : Field := ⟨GBL_POP, 16, 5⟩
def GBL_POP_LINKS : Field := ⟨GBL_POP, 0, 10⟩
/-- GBL_AGENT (R151, Table 5.5). -/
def GBL_AGENT : Nat := 0x00000014
def GBL_AGENT_AGENT : Field := ⟨GBL_AGENT, 0, 3⟩
/-- GBL_SCRATCH (R151, Table 5.5). -/
def GBL_SCRATCH : Nat := 0x00000020
def GBL_SCRATCH_DATA : Field := ⟨GBL_SCRATCH, 0, 32⟩
/-- GBL_ACCESS_VIOL (R151, Table 5.6). -/
def GBL_ACCESS_VIOL : Nat := 0x00000018
def GBL_ACCESS_VIOL_KIND : Field := ⟨GBL_ACCESS_VIOL, 29, 3⟩
def GBL_ACCESS_VIOL_AGENT : Field := ⟨GBL_ACCESS_VIOL, 26, 3⟩
def GBL_ACCESS_VIOL_OFFSET : Field := ⟨GBL_ACCESS_VIOL, 0, 26⟩
/-- GBL_ACCESS_VIOL_CTL (R151, Table 5.6). -/
def GBL_ACCESS_VIOL_CTL : Nat := 0x0000001C
def GBL_ACCESS_VIOL_CTL_VALID : Field := ⟨GBL_ACCESS_VIOL_CTL, 31, 1⟩
def GBL_ACCESS_VIOL_CTL_COUNT : Field := ⟨GBL_ACCESS_VIOL_CTL, 0, 16⟩
/-- FIT_CMD (R152, Table 5.7). -/
def FIT_CMD : Nat := 0x00000040
def FIT_CMD_OP : Field := ⟨FIT_CMD, 0, 4⟩
/-- FIT_STATUS (R152, Table 5.7). -/
def FIT_STATUS : Nat := 0x00000044
def FIT_STATUS_CHECK : Field := ⟨FIT_STATUS, 24, 8⟩
def FIT_STATUS_CLAMPS : Field := ⟨FIT_STATUS, 12, 12⟩
def FIT_STATUS_OWNER : Field := ⟨FIT_STATUS, 8, 4⟩
def FIT_STATUS_RESULT : Field := ⟨FIT_STATUS, 4, 4⟩
def FIT_STATUS_OVERFLOW : Field := ⟨FIT_STATUS, 3, 1⟩
def FIT_STATUS_STATE : Field := ⟨FIT_STATUS, 0, 3⟩
/-- FIT_ID (R152, Table 5.7). -/
def FIT_ID : Nat := 0x00000048
def FIT_ID_ID : Field := ⟨FIT_ID, 0, 32⟩
/-- FIT_STAGED (R152, Table 5.7). -/
def FIT_STAGED : Nat := 0x0000004C
def FIT_STAGED_COUNT : Field := ⟨FIT_STAGED, 0, 13⟩
/-- FIT_PENDING (R152, Table 5.7). -/
def FIT_PENDING : Nat := 0x00000050
def FIT_PENDING_CLASS : Field := ⟨FIT_PENDING, 0, 11⟩
/-- FIT_TIMEOUT (R152, Table 5.7). -/
def FIT_TIMEOUT : Nat := 0x00000054
def FIT_TIMEOUT_IDLE_MS : Field := ⟨FIT_TIMEOUT, 0, 16⟩
/-- EVT_ROUTE_A (R165, Table 5.14). -/
def EVT_ROUTE_A (n : Nat) : Nat := 0x02000000 + 0x10 * n
def EVT_ROUTE_A_EN1 (n : Nat) : Field := ⟨EVT_ROUTE_A n, 31, 1⟩
def EVT_ROUTE_A_VEC1 (n : Nat) : Field := ⟨EVT_ROUTE_A n, 16, 11⟩
def EVT_ROUTE_A_EN0 (n : Nat) : Field := ⟨EVT_ROUTE_A n, 15, 1⟩
def EVT_ROUTE_A_VEC0 (n : Nat) : Field := ⟨EVT_ROUTE_A n, 0, 11⟩
/-- EVT_ROUTE_B (R165, Table 5.14). -/
def EVT_ROUTE_B (n : Nat) : Nat := 0x02000004 + 0x10 * n
/-- EVT_ROUTE_C (R165, Table 5.14). -/
def EVT_ROUTE_C (n : Nat) : Nat := 0x02000008 + 0x10 * n
def EVT_ROUTE_C_FTL (n : Nat) : Field := ⟨EVT_ROUTE_C n, 5, 1⟩
def EVT_ROUTE_C_BELFRY (n : Nat) : Field := ⟨EVT_ROUTE_C n, 4, 1⟩
def EVT_ROUTE_C_AEN (n : Nat) : Field := ⟨EVT_ROUTE_C n, 0, 4⟩
/-- EVT_STATUS (R165, Table 5.14). -/
def EVT_STATUS (w : Nat) : Nat := 0x02010000 + 0x4 * w
def EVT_STATUS_STATUS (w : Nat) : Field := ⟨EVT_STATUS w, 0, 32⟩
/-- EVT_MASK (R165, Table 5.14). -/
def EVT_MASK (w : Nat) : Nat := 0x02010200 + 0x4 * w
def EVT_MASK_MASK (w : Nat) : Field := ⟨EVT_MASK w, 0, 32⟩
/-- EVT_FORCE (R165, Table 5.14). -/
def EVT_FORCE (w : Nat) : Nat := 0x02010400 + 0x4 * w
def EVT_FORCE_FORCE (w : Nat) : Field := ⟨EVT_FORCE w, 0, 32⟩
/-- EVT_SUMMARY0 (R165, Table 5.14). -/
def EVT_SUMMARY0 : Nat := 0x00000100
def EVT_SUMMARY0_GROUP : Field := ⟨EVT_SUMMARY0, 0, 32⟩
/-- EVT_SUMMARY1 (R165, Table 5.14). -/
def EVT_SUMMARY1 : Nat := 0x00000104
def EVT_SUMMARY1_GROUP32 : Field := ⟨EVT_SUMMARY1, 0, 1⟩
/-- TAK_STATUS (R294, Table 7.15). -/
def TAK_STATUS : Nat := 0x01500000
def TAK_STATUS_TRIG_ACTION : Field := ⟨TAK_STATUS, 22, 2⟩
def TAK_STATUS_TRIG_SRC : Field := ⟨TAK_STATUS, 19, 3⟩
def TAK_STATUS_FULL : Field := ⟨TAK_STATUS, 18, 1⟩
def TAK_STATUS_NS_PRESENT : Field := ⟨TAK_STATUS, 17, 1⟩
def TAK_STATUS_OPEN_TAKES : Field := ⟨TAK_STATUS, 8, 5⟩
def TAK_STATUS_OPEN_STREAMS : Field := ⟨TAK_STATUS, 0, 5⟩
/-- TAK_FREE_UNITS (R294, Table 7.15). -/
def TAK_FREE_UNITS : Nat := 0x01500004
def TAK_FREE_UNITS_UNITS : Field := ⟨TAK_FREE_UNITS, 0, 32⟩
/-- TAK_LAST_TRIG_LO (R294, Table 7.15). -/
def TAK_LAST_TRIG_LO : Nat := 0x01500008
def TAK_LAST_TRIG_LO_TIME : Field := ⟨TAK_LAST_TRIG_LO, 0, 32⟩
/-- TAK_LAST_TRIG_HI (R294, Table 7.15). -/
def TAK_LAST_TRIG_HI : Nat := 0x0150000C
def TAK_LAST_TRIG_HI_TIME : Field := ⟨TAK_LAST_TRIG_HI, 0, 32⟩
/-- TAK_DEF_CFG (R294, Table 7.15). -/
def TAK_DEF_CFG : Nat := 0x01500010
def TAK_DEF_CFG_HOST_TIME : Field := ⟨TAK_DEF_CFG, 24, 1⟩
def TAK_DEF_CFG_TRIGGER_SRC : Field := ⟨TAK_DEF_CFG, 21, 3⟩
def TAK_DEF_CFG_STREAMS_MAX : Field := ⟨TAK_DEF_CFG, 16, 5⟩
def TAK_DEF_CFG_PRETRIGGER_S : Field := ⟨TAK_DEF_CFG, 0, 10⟩
/-- TAK_DEF_FRAME_MAX (R294, Table 7.15). -/
def TAK_DEF_FRAME_MAX : Nat := 0x01500014
def TAK_DEF_FRAME_MAX_BYTES : Field := ⟨TAK_DEF_FRAME_MAX, 0, 32⟩
/-- TAK_STREAM (R294, Table 7.15). -/
def TAK_STREAM (t : Nat) : Nat := 0x01500100 + 0x4 * t
def TAK_STREAM_IN_FLIGHT (t : Nat) : Field := ⟨TAK_STREAM t, 16, 16⟩
def TAK_STREAM_CHANNEL (t : Nat) : Field := ⟨TAK_STREAM t, 4, 6⟩
def TAK_STREAM_MODE (t : Nat) : Field := ⟨TAK_STREAM t, 3, 1⟩
def TAK_STREAM_STATE (t : Nat) : Field := ⟨TAK_STREAM t, 0, 3⟩
/-- TAK_DMA_PI (R294, Table 7.15). -/
def TAK_DMA_PI (d : Nat) : Nat := 0x01501000 + 0x10 * d
def TAK_DMA_PI_PI (d : Nat) : Field := ⟨TAK_DMA_PI d, 0, 32⟩
/-- TAK_DMA_CI (R294, Table 7.15). -/
def TAK_DMA_CI (d : Nat) : Nat := 0x01501004 + 0x10 * d
def TAK_DMA_CI_CI (d : Nat) : Field := ⟨TAK_DMA_CI d, 0, 32⟩
/-- TAK_DMA_CTL (R294, Table 7.15). -/
def TAK_DMA_CTL (d : Nat) : Nat := 0x01501008 + 0x10 * d
def TAK_DMA_CTL_RESUME (d : Nat) : Field := ⟨TAK_DMA_CTL d, 0, 1⟩
/-- TAK_DMA_STAT (R294, Table 7.15). -/
def TAK_DMA_STAT (d : Nat) : Nat := 0x0150100C + 0x10 * d
def TAK_DMA_STAT_FILL (d : Nat) : Field := ⟨TAK_DMA_STAT d, 15, 17⟩
def TAK_DMA_STAT_CTRL (d : Nat) : Field := ⟨TAK_DMA_STAT d, 12, 2⟩
def TAK_DMA_STAT_PRIORITY (d : Nat) : Field := ⟨TAK_DMA_STAT d, 8, 3⟩
def TAK_DMA_STAT_FAULT (d : Nat) : Field := ⟨TAK_DMA_STAT d, 4, 4⟩
def TAK_DMA_STAT_STATE (d : Nat) : Field := ⟨TAK_DMA_STAT d, 0, 3⟩
/-- STP_STATUS (R351, Table 9.6). -/
def STP_STATUS : Nat := 0x01800000
def STP_STATUS_HOP : Field := ⟨STP_STATUS, 20, 12⟩
def STP_STATUS_HEAL_REFUSED : Field := ⟨STP_STATUS, 16, 1⟩
def STP_STATUS_CHAIN_END : Field := ⟨STP_STATUS, 15, 1⟩
def STP_STATUS_CAL_VALID : Field := ⟨STP_STATUS, 14, 1⟩
def STP_STATUS_REF_10M_LOCK : Field := ⟨STP_STATUS, 13, 1⟩
def STP_STATUS_REF_PPS_LOCK : Field := ⟨STP_STATUS, 12, 1⟩
def STP_STATUS_DN_CAL : Field := ⟨STP_STATUS, 11, 1⟩
def STP_STATUS_UP_CAL : Field := ⟨STP_STATUS, 10, 1⟩
def STP_STATUS_DN_LOCK : Field := ⟨STP_STATUS, 9, 1⟩
def STP_STATUS_UP_LOCK : Field := ⟨STP_STATUS, 8, 1⟩
def STP_STATUS_ROLE : Field := ⟨STP_STATUS, 4, 2⟩
def STP_STATUS_STATE : Field := ⟨STP_STATUS, 0, 3⟩
/-- STP_TIME_LO (R351, Table 9.6). -/
def STP_TIME_LO : Nat := 0x01800004
def STP_TIME_LO_NS : Field := ⟨STP_TIME_LO, 0, 32⟩
/-- STP_TIME_HI (R351, Table 9.6). -/
def STP_TIME_HI : Nat := 0x01800008
def STP_TIME_HI_NS : Field := ⟨STP_TIME_HI, 0, 32⟩
/-- STP_UNC (R351, Table 9.6). -/
def STP_UNC : Nat := 0x0180000C
def STP_UNC_PS : Field := ⟨STP_UNC, 0, 32⟩
/-- STP_OFFSET (R351, Table 9.6). -/
def STP_OFFSET : Nat := 0x01800010
def STP_OFFSET_PS : Field := ⟨STP_OFFSET, 0, 32⟩
/-- STP_HOP_DELAY (R351, Table 9.6). -/
def STP_HOP_DELAY : Nat := 0x01800014
def STP_HOP_DELAY_PS : Field := ⟨STP_HOP_DELAY, 0, 32⟩
/-- STP_MEMBERS (R351, Table 9.6). -/
def STP_MEMBERS : Nat := 0x01800018
def STP_MEMBERS_COUNT : Field := ⟨STP_MEMBERS, 0, 12⟩
/-- STP_HEAD_UID_LO (R351, Table 9.6). -/
def STP_HEAD_UID_LO : Nat := 0x0180001C
def STP_HEAD_UID_LO_UID : Field := ⟨STP_HEAD_UID_LO, 0, 32⟩
/-- STP_HEAD_UID_HI (R351, Table 9.6). -/
def STP_HEAD_UID_HI : Nat := 0x01800020
def STP_HEAD_UID_HI_UID : Field := ⟨STP_HEAD_UID_HI, 0, 32⟩
/-- STP_CAL_LO (R351, Table 9.6). -/
def STP_CAL_LO : Nat := 0x01800024
def STP_CAL_LO_OFFSET : Field := ⟨STP_CAL_LO, 0, 32⟩
/-- STP_CAL_HI (R351, Table 9.6). -/
def STP_CAL_HI : Nat := 0x01800028
def STP_CAL_HI_OFFSET : Field := ⟨STP_CAL_HI, 0, 32⟩
/-- STP_CAL_CTL (R351, Table 9.6). -/
def STP_CAL_CTL : Nat := 0x0180002C
def STP_CAL_CTL_VALID : Field := ⟨STP_CAL_CTL, 31, 1⟩
def STP_CAL_CTL_UTC_OFFSET : Field := ⟨STP_CAL_CTL, 0, 7⟩
/-- STP_CFG (R351, Table 9.6). -/
def STP_CFG : Nat := 0x01800030
def STP_CFG_OSC_PPB : Field := ⟨STP_CFG, 16, 9⟩
def STP_CFG_REF : Field := ⟨STP_CFG, 2, 2⟩
def STP_CFG_ROLE : Field := ⟨STP_CFG, 0, 2⟩
/-- STP_RIG_ID (R351, Table 9.6). -/
def STP_RIG_ID : Nat := 0x01800034
def STP_RIG_ID_ID : Field := ⟨STP_RIG_ID, 0, 32⟩
/-- STP_COUNT (R351, Table 9.6). -/
def STP_COUNT : Nat := 0x01800038
def STP_COUNT_LATE : Field := ⟨STP_COUNT, 16, 16⟩
def STP_COUNT_BREAKS : Field := ⟨STP_COUNT, 0, 16⟩
/-- STP_ERR (R351, Table 9.6). -/
def STP_ERR : Nat := 0x0180003C
def STP_ERR_CRC_ERR : Field := ⟨STP_ERR, 16, 16⟩
def STP_ERR_CODE_ERR : Field := ⟨STP_ERR, 0, 16⟩
/-- STR_DW_STATUS (R375, Table 10.5). -/
def STR_DW_STATUS : Nat := 0x01408000
def STR_DW_STATUS_BINDING : Field := ⟨STR_DW_STATUS, 30, 2⟩
def STR_DW_STATUS_GATE_CLOSED : Field := ⟨STR_DW_STATUS, 29, 1⟩
def STR_DW_STATUS_CLOSE_CAUSE : Field := ⟨STR_DW_STATUS, 27, 2⟩
def STR_DW_STATUS_DEGRADED : Field := ⟨STR_DW_STATUS, 26, 1⟩
def STR_DW_STATUS_WRITE_THROUGH : Field := ⟨STR_DW_STATUS, 25, 1⟩
def STR_DW_STATUS_THERMAL_TERM : Field := ⟨STR_DW_STATUS, 24, 1⟩
def STR_DW_STATUS_METERING : Field := ⟨STR_DW_STATUS, 23, 1⟩
def STR_DW_STATUS_LEARN_EXCL : Field := ⟨STR_DW_STATUS, 22, 1⟩
def STR_DW_STATUS_LEARN_STRING : Field := ⟨STR_DW_STATUS, 20, 2⟩
/-- STR_DW_OCC (R375, Table 10.5). -/
def STR_DW_OCC : Nat := 0x01408004
def STR_DW_OCC_MIB : Field := ⟨STR_DW_OCC, 0, 32⟩
/-- STR_DW_LIMIT (R375, Table 10.5). -/
def STR_DW_LIMIT : Nat := 0x01408008
def STR_DW_LIMIT_MIB : Field := ⟨STR_DW_LIMIT, 0, 32⟩
/-- STR_DW_CAND (R375, Table 10.5). -/
def STR_DW_CAND : Nat := 0x0140800C
def STR_DW_CAND_MIB : Field := ⟨STR_DW_CAND, 0, 32⟩
/-- STR_DW_T_ENERGY (R375, Table 10.5). -/
def STR_DW_T_ENERGY : Nat := 0x01408010
def STR_DW_T_ENERGY_MIB : Field := ⟨STR_DW_T_ENERGY, 0, 32⟩
/-- STR_DW_T_THERMAL (R375, Table 10.5). -/
def STR_DW_T_THERMAL : Nat := 0x01408014
def STR_DW_T_THERMAL_MIB : Field := ⟨STR_DW_T_THERMAL, 0, 32⟩
/-- STR_DW_T_STAGING (R375, Table 10.5). -/
def STR_DW_T_STAGING : Nat := 0x01408018
def STR_DW_T_STAGING_MIB : Field := ⟨STR_DW_T_STAGING, 0, 32⟩
/-- STR_DW_T_HOST (R375, Table 10.5). -/
def STR_DW_T_HOST : Nat := 0x0140801C
def STR_DW_T_HOST_MIB : Field := ⟨STR_DW_T_HOST, 0, 32⟩
/-- STR_DW_GAP (R375, Table 10.5). -/
def STR_DW_GAP : Nat := 0x01408020
def STR_DW_GAP_MIB : Field := ⟨STR_DW_GAP, 0, 32⟩
/-- STR_DW_CFG (R375, Table 10.5). -/
def STR_DW_CFG : Nat := 0x01408024
def STR_DW_CFG_STAGING_GIB : Field := ⟨STR_DW_CFG, 0, 10⟩
/-- STR_DW_FLUSH_RATE (R375, Table 10.5). -/
def STR_DW_FLUSH_RATE : Nat := 0x01408028
def STR_DW_FLUSH_RATE_MBPS : Field := ⟨STR_DW_FLUSH_RATE, 0, 32⟩
/-- STR_DW_COOL_RATE (R375, Table 10.5). -/
def STR_DW_COOL_RATE : Nat := 0x0140802C
def STR_DW_COOL_RATE_MBPS : Field := ⟨STR_DW_COOL_RATE, 0, 32⟩
/-- STR_DW_FIXED (R375, Table 10.5). -/
def STR_DW_FIXED : Nat := 0x01408030
def STR_DW_FIXED_US : Field := ⟨STR_DW_FIXED, 0, 16⟩
/-- STR_ADM_METER (R375, Table 10.5). -/
def STR_ADM_METER : Nat := 0x01408034
def STR_ADM_METER_MBPS : Field := ⟨STR_ADM_METER, 0, 32⟩
/-- STR_ADM_REFUSALS (R375, Table 10.5). -/
def STR_ADM_REFUSALS : Nat := 0x01408038
def STR_ADM_REFUSALS_COUNT : Field := ⟨STR_ADM_REFUSALS, 0, 32⟩
/-- STR_ADM_WAIT (R375, Table 10.5). -/
def STR_ADM_WAIT : Nat := 0x0140803C
def STR_ADM_WAIT_US : Field := ⟨STR_ADM_WAIT, 0, 32⟩
/-- STR_ADM_GRANTED (R375, Table 10.5). -/
def STR_ADM_GRANTED (r : Nat) : Nat := 0x01408040 + 0x4 * r
def STR_ADM_GRANTED_MIB (r : Nat) : Field := ⟨STR_ADM_GRANTED r, 0, 32⟩
/-- STR_SEQ_LO (R375, Table 10.5). -/
def STR_SEQ_LO : Nat := 0x01408060
def STR_SEQ_LO_SEQ : Field := ⟨STR_SEQ_LO, 0, 32⟩
/-- STR_SEQ_HI (R375, Table 10.5). -/
def STR_SEQ_HI : Nat := 0x01408064
def STR_SEQ_HI_SEQ : Field := ⟨STR_SEQ_HI, 0, 32⟩
/-- FTL_STATUS (R417, Table 11.12). -/
def FTL_STATUS : Nat := 0x01480000
def FTL_STATUS_TIER : Field := ⟨FTL_STATUS, 30, 2⟩
def FTL_STATUS_PREV_GEN : Field := ⟨FTL_STATUS, 29, 1⟩
def FTL_STATUS_REINSTATED : Field := ⟨FTL_STATUS, 28, 1⟩
def FTL_STATUS_FINE_WAIT : Field := ⟨FTL_STATUS, 27, 1⟩
def FTL_STATUS_FOLDING : Field := ⟨FTL_STATUS, 26, 1⟩
def FTL_STATUS_GC_URGENT : Field := ⟨FTL_STATUS, 25, 1⟩
def FTL_STATUS_SPARE_EXHAUSTED : Field := ⟨FTL_STATUS, 24, 1⟩
/-- FTL_RECOVERY_MS (R417, Table 11.12). -/
def FTL_RECOVERY_MS : Nat := 0x01480004
def FTL_RECOVERY_MS_MS : Field := ⟨FTL_RECOVERY_MS, 0, 32⟩
/-- FTL_CP_GEN (R417, Table 11.12). -/
def FTL_CP_GEN : Nat := 0x01480008
def FTL_CP_GEN_GEN : Field := ⟨FTL_CP_GEN, 0, 32⟩
/-- FTL_CP_AGE_MS (R417, Table 11.12). -/
def FTL_CP_AGE_MS : Nat := 0x0148000C
def FTL_CP_AGE_MS_MS : Field := ⟨FTL_CP_AGE_MS, 0, 32⟩
/-- FTL_FINE_FREE (R417, Table 11.12). -/
def FTL_FINE_FREE : Nat := 0x01480010
def FTL_FINE_FREE_TABLES : Field := ⟨FTL_FINE_FREE, 0, 32⟩
/-- FTL_FINE_TOTAL (R417, Table 11.12). -/
def FTL_FINE_TOTAL : Nat := 0x01480014
def FTL_FINE_TOTAL_TABLES : Field := ⟨FTL_FINE_TOTAL, 0, 32⟩
/-- FTL_UNITS (R417, Table 11.12). -/
def FTL_UNITS : Nat := 0x01480018
def FTL_UNITS_UNITS : Field := ⟨FTL_UNITS, 0, 32⟩
/-- FTL_BANDS (R417, Table 11.12). -/
def FTL_BANDS : Nat := 0x0148001C
def FTL_BANDS_FREE : Field := ⟨FTL_BANDS, 0, 22⟩
/-- FTL_STRIPES (R417, Table 11.12). -/
def FTL_STRIPES : Nat := 0x01480020
def FTL_STRIPES_USED : Field := ⟨FTL_STRIPES, 0, 26⟩
/-- FTL_GC_MBPS (R417, Table 11.12). -/
def FTL_GC_MBPS : Nat := 0x01480024
def FTL_GC_MBPS_MBPS : Field := ⟨FTL_GC_MBPS, 0, 32⟩
/-- FTL_WAF (R417, Table 11.12). -/
def FTL_WAF : Nat := 0x01480028
def FTL_WAF_MILLI : Field := ⟨FTL_WAF, 0, 32⟩
/-- FTL_SPARE_UNITS (R417, Table 11.12). -/
def FTL_SPARE_UNITS : Nat := 0x0148002C
def FTL_SPARE_UNITS_UNITS : Field := ⟨FTL_SPARE_UNITS, 0, 32⟩
/-- FTL_LOST (R417, Table 11.12). -/
def FTL_LOST : Nat := 0x01480030
def FTL_LOST_REINSTATED : Field := ⟨FTL_LOST, 16, 16⟩
def FTL_LOST_SECTORS : Field := ⟨FTL_LOST, 0, 16⟩
/-- FTL_SEQ_CEIL_LO (R417, Table 11.12). -/
def FTL_SEQ_CEIL_LO : Nat := 0x01480034
def FTL_SEQ_CEIL_LO_SEQ : Field := ⟨FTL_SEQ_CEIL_LO, 0, 32⟩
/-- FTL_SEQ_CEIL_HI (R417, Table 11.12). -/
def FTL_SEQ_CEIL_HI : Nat := 0x01480038
def FTL_SEQ_CEIL_HI_SEQ : Field := ⟨FTL_SEQ_CEIL_HI, 0, 32⟩
/-- STR_STATUS (R459, Table 12.11). -/
def STR_STATUS : Nat := 0x01400000
def STR_STATUS_REBUILD : Field := ⟨STR_STATUS, 31, 1⟩
def STR_STATUS_AUDIT : Field := ⟨STR_STATUS, 30, 1⟩
def STR_STATUS_LOST : Field := ⟨STR_STATUS, 29, 1⟩
def STR_STATUS_EXPOSED : Field := ⟨STR_STATUS, 28, 1⟩
def STR_STATUS_REDUCED : Field := ⟨STR_STATUS, 27, 1⟩
def STR_STATUS_NONSLOW_LOW : Field := ⟨STR_STATUS, 26, 1⟩
def STR_STATUS_OPEN_BANDS : Field := ⟨STR_STATUS, 0, 8⟩
/-- STR_POLICY (R459, Table 12.11). -/
def STR_POLICY : Nat := 0x01400004
def STR_POLICY_PARITY : Field := ⟨STR_POLICY, 8, 2⟩
def STR_POLICY_WIDTH : Field := ⟨STR_POLICY, 0, 6⟩
/-- STR_META_GROUPS_LO (R459, Table 12.11). -/
def STR_META_GROUPS_LO : Nat := 0x01400008
def STR_META_GROUPS_LO_GROUPS : Field := ⟨STR_META_GROUPS_LO, 0, 32⟩
/-- STR_META_GROUPS_HI (R459, Table 12.11). -/
def STR_META_GROUPS_HI : Nat := 0x0140000C
def STR_META_GROUPS_HI_GROUPS : Field := ⟨STR_META_GROUPS_HI, 0, 32⟩
/-- STR_LINKS (R459, Table 12.11). -/
def STR_LINKS : Nat := 0x01400010
def STR_LINKS_IN_SERVICE : Field := ⟨STR_LINKS, 20, 10⟩
def STR_LINKS_SLOW : Field := ⟨STR_LINKS, 10, 10⟩
def STR_LINKS_RETIRED : Field := ⟨STR_LINKS, 0, 10⟩
/-- STR_STRIPES (R459, Table 12.11). -/
def STR_STRIPES : Nat := 0x01400014
def STR_STRIPES_EXPOSED : Field := ⟨STR_STRIPES, 16, 16⟩
def STR_STRIPES_LOST : Field := ⟨STR_STRIPES, 0, 16⟩
/-- STR_AUDIT (R459, Table 12.11). -/
def STR_AUDIT : Nat := 0x01400018
def STR_AUDIT_PROGRESS : Field := ⟨STR_AUDIT, 16, 16⟩
def STR_AUDIT_PASSES : Field := ⟨STR_AUDIT, 0, 16⟩
/-- STR_RBLD_RATE (R459, Table 12.11). -/
def STR_RBLD_RATE : Nat := 0x0140001C
def STR_RBLD_RATE_MBPS : Field := ⟨STR_RBLD_RATE, 0, 32⟩
/-- STR_RBLD_REMAIN (R459, Table 12.11). -/
def STR_RBLD_REMAIN : Nat := 0x01400020
def STR_RBLD_REMAIN_MIB : Field := ⟨STR_RBLD_REMAIN, 0, 32⟩
/-- STR_COUNT_REBUILT (R459, Table 12.11). -/
def STR_COUNT_REBUILT : Nat := 0x01400024
def STR_COUNT_REBUILT_SECTORS : Field := ⟨STR_COUNT_REBUILT, 0, 32⟩
/-- STR_COUNT_MISMATCH (R459, Table 12.11). -/
def STR_COUNT_MISMATCH : Nat := 0x01400028
def STR_COUNT_MISMATCH_COUNT : Field := ⟨STR_COUNT_MISMATCH, 0, 32⟩
/-- STR_LINK (R459, Table 12.11). -/
def STR_LINK (n : Nat) : Nat := 0x01401000 + 0x4 * n
def STR_LINK_AVG_PROG_US (n : Nat) : Field := ⟨STR_LINK n, 16, 16⟩
def STR_LINK_COUNT (n : Nat) : Field := ⟨STR_LINK n, 7, 9⟩
def STR_LINK_SLOW_HOLD (n : Nat) : Field := ⟨STR_LINK n, 6, 1⟩
def STR_LINK_STATE (n : Nat) : Field := ⟨STR_LINK n, 0, 3⟩
/-- SLV_STATUS (R492, Table 13.11). -/
def SLV_STATUS (s : Nat) : Nat := 0x00800000 + 0x4000 * s
def SLV_STATUS_BYPASSED (s : Nat) : Field := ⟨SLV_STATUS s, 31, 1⟩
def SLV_STATUS_CROSSING (s : Nat) : Field := ⟨SLV_STATUS s, 30, 1⟩
def SLV_STATUS_FLUSH (s : Nat) : Field := ⟨SLV_STATUS s, 29, 1⟩
def SLV_STATUS_PTABLE_BAD (s : Nat) : Field := ⟨SLV_STATUS s, 28, 1⟩
def SLV_STATUS_RECORDS (s : Nat) : Field := ⟨SLV_STATUS s, 16, 10⟩
def SLV_STATUS_LINKS (s : Nat) : Field := ⟨SLV_STATUS s, 0, 8⟩
/-- SLV_VERSION (R492, Table 13.11). -/
def SLV_VERSION (s : Nat) : Nat := 0x00800004 + 0x4000 * s
def SLV_VERSION_VERSION (s : Nat) : Field := ⟨SLV_VERSION s, 0, 32⟩
/-- SLV_BASE_VERSION (R492, Table 13.11). -/
def SLV_BASE_VERSION (s : Nat) : Nat := 0x00800008 + 0x4000 * s
def SLV_BASE_VERSION_VERSION (s : Nat) : Field := ⟨SLV_BASE_VERSION s, 0, 32⟩
/-- SLV_XOVER (R492, Table 13.11). -/
def SLV_XOVER (s : Nat) : Nat := 0x0080000C + 0x4000 * s
def SLV_XOVER_PENDING (s : Nat) : Field := ⟨SLV_XOVER s, 12, 10⟩
def SLV_XOVER_ABORTED (s : Nat) : Field := ⟨SLV_XOVER s, 0, 12⟩
/-- SLV_FAULT (R492, Table 13.11). -/
def SLV_FAULT (s : Nat) : Nat := 0x00800010 + 0x4000 * s
def SLV_FAULT_CODE (s : Nat) : Field := ⟨SLV_FAULT s, 24, 8⟩
def SLV_FAULT_LINK (s : Nat) : Field := ⟨SLV_FAULT s, 13, 3⟩
def SLV_FAULT_DIE (s : Nat) : Field := ⟨SLV_FAULT s, 8, 5⟩
def SLV_FAULT_CONTEXT (s : Nat) : Field := ⟨SLV_FAULT s, 0, 6⟩
/-- SLV_FAULT_PC (R492, Table 13.11). -/
def SLV_FAULT_PC (s : Nat) : Nat := 0x00800014 + 0x4000 * s
def SLV_FAULT_PC_TRAP (s : Nat) : Field := ⟨SLV_FAULT_PC s, 16, 16⟩
def SLV_FAULT_PC_PC (s : Nat) : Field := ⟨SLV_FAULT_PC s, 0, 13⟩
/-- SLV_COUNT_FAULT (R492, Table 13.11). -/
def SLV_COUNT_FAULT (s : Nat) : Nat := 0x00800018 + 0x4000 * s
def SLV_COUNT_FAULT_COUNT (s : Nat) : Field := ⟨SLV_COUNT_FAULT s, 0, 32⟩
/-- SLV_COUNT_RETRY (R492, Table 13.11). -/
def SLV_COUNT_RETRY (s : Nat) : Nat := 0x0080001C + 0x4000 * s
def SLV_COUNT_RETRY_COUNT (s : Nat) : Field := ⟨SLV_COUNT_RETRY s, 0, 32⟩
/-- SLV_COUNT_SOFT (R492, Table 13.11). -/
def SLV_COUNT_SOFT (s : Nat) : Nat := 0x00800020 + 0x4000 * s
def SLV_COUNT_SOFT_COUNT (s : Nat) : Field := ⟨SLV_COUNT_SOFT s, 0, 32⟩
/-- SLV_COUNT_ECC (R492, Table 13.11). -/
def SLV_COUNT_ECC (s : Nat) : Nat := 0x00800024 + 0x4000 * s
def SLV_COUNT_ECC_COUNT (s : Nat) : Field := ⟨SLV_COUNT_ECC s, 0, 32⟩
/-- SLV_LIVE_WORDS (R492, Table 13.11). -/
def SLV_LIVE_WORDS (s : Nat) : Nat := 0x00800028 + 0x4000 * s
def SLV_LIVE_WORDS_WORDS (s : Nat) : Field := ⟨SLV_LIVE_WORDS s, 0, 14⟩
/-- SLV_CTX (R492, Table 13.11). -/
def SLV_CTX (s : Nat) (c : Nat) : Nat := 0x00800100 + 0x4000 * s + 0x4 * c
def SLV_CTX_STATE (s : Nat) (c : Nat) : Field := ⟨SLV_CTX s c, 29, 3⟩
def SLV_CTX_CLASS (s : Nat) (c : Nat) : Field := ⟨SLV_CTX s c, 25, 2⟩
def SLV_CTX_DIE (s : Nat) (c : Nat) : Field := ⟨SLV_CTX s c, 20, 5⟩
def SLV_CTX_ENTRY (s : Nat) (c : Nat) : Field := ⟨SLV_CTX s c, 16, 4⟩
def SLV_CTX_PC (s : Nat) (c : Nat) : Field := ⟨SLV_CTX s c, 0, 13⟩
/-- SLV_DIE (R492, Table 13.11). -/
def SLV_DIE (s : Nat) (d : Nat) : Nat := 0x00800200 + 0x4000 * s + 0x4 * d
def SLV_DIE_STATE (s : Nat) (d : Nat) : Field := ⟨SLV_DIE s d, 29, 3⟩
def SLV_DIE_READY (s : Nat) (d : Nat) : Field := ⟨SLV_DIE s d, 28, 1⟩
def SLV_DIE_BUSY (s : Nat) (d : Nat) : Field := ⟨SLV_DIE s d, 27, 1⟩
def SLV_DIE_SUSPENDS (s : Nat) (d : Nat) : Field := ⟨SLV_DIE s d, 20, 4⟩
def SLV_DIE_WDOG (s : Nat) (d : Nat) : Field := ⟨SLV_DIE s d, 4, 16⟩
def SLV_DIE_ENTRY (s : Nat) (d : Nat) : Field := ⟨SLV_DIE s d, 0, 4⟩
/-- JL_STATE (R538, Table 14.11). -/
def JL_STATE (n : Nat) : Nat := 0x01000000 + 0x1000 * n
def JL_STATE_STATE (n : Nat) : Field := ⟨JL_STATE n, 28, 4⟩
def JL_STATE_RATE (n : Nat) : Field := ⟨JL_STATE n, 26, 2⟩
def JL_STATE_RATE_MAX (n : Nat) : Field := ⟨JL_STATE n, 24, 2⟩
def JL_STATE_CEILING (n : Nat) : Field := ⟨JL_STATE n, 22, 2⟩
def JL_STATE_BLOCK_LOCK (n : Nat) : Field := ⟨JL_STATE n, 21, 1⟩
def JL_STATE_PARTNER_RATES (n : Nat) : Field := ⟨JL_STATE n, 16, 3⟩
def JL_STATE_LAST_CAUSE (n : Nat) : Field := ⟨JL_STATE n, 8, 8⟩
def JL_STATE_DOWN_ENTRIES (n : Nat) : Field := ⟨JL_STATE n, 0, 8⟩
/-- JL_CTL (R538, Table 14.11). -/
def JL_CTL (n : Nat) : Nat := 0x01000004 + 0x1000 * n
def JL_CTL_RETRAIN_FULL (n : Nat) : Field := ⟨JL_CTL n, 1, 1⟩
def JL_CTL_RETRAIN (n : Nat) : Field := ⟨JL_CTL n, 0, 1⟩
/-- JL_PARTNER (R538, Table 14.11). -/
def JL_PARTNER (n : Nat) : Nat := 0x01000008 + 0x1000 * n
def JL_PARTNER_REPLAY_DEPTH (n : Nat) : Field := ⟨JL_PARTNER n, 24, 8⟩
def JL_PARTNER_VERSION (n : Nat) : Field := ⟨JL_PARTNER n, 16, 8⟩
def JL_PARTNER_VC0_CREDITS (n : Nat) : Field := ⟨JL_PARTNER n, 8, 7⟩
def JL_PARTNER_VC1_CREDITS (n : Nat) : Field := ⟨JL_PARTNER n, 0, 7⟩
/-- JL_EQ (R538, Table 14.11). -/
def JL_EQ (n : Nat) : Nat := 0x0100000C + 0x1000 * n
def JL_EQ_TX_PRESET (n : Nat) : Field := ⟨JL_EQ n, 24, 3⟩
def JL_EQ_PARTNER_PRESET (n : Nat) : Field := ⟨JL_EQ n, 20, 3⟩
def JL_EQ_CTLE (n : Nat) : Field := ⟨JL_EQ n, 8, 5⟩
def JL_EQ_DFE1 (n : Nat) : Field := ⟨JL_EQ n, 0, 8⟩
/-- JL_EYE (R538, Table 14.11). -/
def JL_EYE (n : Nat) : Nat := 0x01000010 + 0x1000 * n
def JL_EYE_EYE_W (n : Nat) : Field := ⟨JL_EYE n, 24, 8⟩
def JL_EYE_EYE_H (n : Nat) : Field := ⟨JL_EYE n, 16, 8⟩
def JL_EYE_COUNT (n : Nat) : Field := ⟨JL_EYE n, 0, 16⟩
/-- JL_CREDIT (R538, Table 14.11). -/
def JL_CREDIT (n : Nat) : Nat := 0x01000014 + 0x1000 * n
def JL_CREDIT_UNACKED (n : Nat) : Field := ⟨JL_CREDIT n, 24, 8⟩
def JL_CREDIT_VC0_AVAIL (n : Nat) : Field := ⟨JL_CREDIT n, 16, 7⟩
def JL_CREDIT_VC1_AVAIL (n : Nat) : Field := ⟨JL_CREDIT n, 8, 7⟩
/-- JL_ERR_CRC (R538, Table 14.11). -/
def JL_ERR_CRC (n : Nat) : Nat := 0x01000018 + 0x1000 * n
def JL_ERR_CRC_COUNT (n : Nat) : Field := ⟨JL_ERR_CRC n, 0, 32⟩
/-- JL_ERR_REPLAY (R538, Table 14.11). -/
def JL_ERR_REPLAY (n : Nat) : Nat := 0x0100001C + 0x1000 * n
def JL_ERR_REPLAY_REPLAYS (n : Nat) : Field := ⟨JL_ERR_REPLAY n, 16, 16⟩
def JL_ERR_REPLAY_NAKS (n : Nat) : Field := ⟨JL_ERR_REPLAY n, 0, 16⟩
/-- JL_ERR_RETRAIN (R538, Table 14.11). -/
def JL_ERR_RETRAIN (n : Nat) : Nat := 0x01000020 + 0x1000 * n
def JL_ERR_RETRAIN_FAST (n : Nat) : Field := ⟨JL_ERR_RETRAIN n, 16, 16⟩
def JL_ERR_RETRAIN_FULL (n : Nat) : Field := ⟨JL_ERR_RETRAIN n, 8, 8⟩
def JL_ERR_RETRAIN_FALLBACKS (n : Nat) : Field := ⟨JL_ERR_RETRAIN n, 0, 8⟩
/-- JL_MARGIN_CTL (R538, Table 14.11). -/
def JL_MARGIN_CTL (n : Nat) : Nat := 0x01000024 + 0x1000 * n
def JL_MARGIN_CTL_START (n : Nat) : Field := ⟨JL_MARGIN_CTL n, 31, 1⟩
def JL_MARGIN_CTL_ABORT (n : Nat) : Field := ⟨JL_MARGIN_CTL n, 30, 1⟩
def JL_MARGIN_CTL_DWELL_LOG2 (n : Nat) : Field := ⟨JL_MARGIN_CTL n, 24, 6⟩
def JL_MARGIN_CTL_V_OFFSET (n : Nat) : Field := ⟨JL_MARGIN_CTL n, 16, 8⟩
def JL_MARGIN_CTL_T_OFFSET (n : Nat) : Field := ⟨JL_MARGIN_CTL n, 8, 8⟩
/-- JL_MARGIN_RES (R538, Table 14.11). -/
def JL_MARGIN_RES (n : Nat) : Nat := 0x01000028 + 0x1000 * n
def JL_MARGIN_RES_DONE (n : Nat) : Field := ⟨JL_MARGIN_RES n, 31, 1⟩
def JL_MARGIN_RES_VALID (n : Nat) : Field := ⟨JL_MARGIN_RES n, 30, 1⟩
def JL_MARGIN_RES_ERRORS (n : Nat) : Field := ⟨JL_MARGIN_RES n, 0, 30⟩
/-- JL_TEST_CTL (R538, Table 14.11). -/
def JL_TEST_CTL (n : Nat) : Nat := 0x0100002C + 0x1000 * n
def JL_TEST_CTL_START (n : Nat) : Field := ⟨JL_TEST_CTL n, 31, 1⟩
def JL_TEST_CTL_STOP (n : Nat) : Field := ⟨JL_TEST_CTL n, 30, 1⟩
def JL_TEST_CTL_RATE (n : Nat) : Field := ⟨JL_TEST_CTL n, 8, 2⟩
def JL_TEST_CTL_MODE (n : Nat) : Field := ⟨JL_TEST_CTL n, 0, 3⟩
/-- JL_TEST_RES (R538, Table 14.11). -/
def JL_TEST_RES (n : Nat) : Nat := 0x01000030 + 0x1000 * n
def JL_TEST_RES_RUNNING (n : Nat) : Field := ⟨JL_TEST_RES n, 31, 1⟩
def JL_TEST_RES_LOCK (n : Nat) : Field := ⟨JL_TEST_RES n, 30, 1⟩
def JL_TEST_RES_ERRORS (n : Nat) : Field := ⟨JL_TEST_RES n, 0, 30⟩
/-- JL_TRAIN_US (R538, Table 14.11). -/
def JL_TRAIN_US (n : Nat) : Nat := 0x01000034 + 0x1000 * n
def JL_TRAIN_US_US (n : Nat) : Field := ⟨JL_TRAIN_US n, 0, 32⟩
/-- JL_BRIDGE_STATUS (R568, Table 15.11). -/
def JL_BRIDGE_STATUS (n : Nat) : Nat := 0x01000100 + 0x1000 * n
def JL_BRIDGE_STATUS_ENUM_DONE (n : Nat) : Field := ⟨JL_BRIDGE_STATUS n, 31, 1⟩
def JL_BRIDGE_STATUS_ENUM_FAIL (n : Nat) : Field := ⟨JL_BRIDGE_STATUS n, 30, 1⟩
def JL_BRIDGE_STATUS_ID_CHANGED (n : Nat) : Field := ⟨JL_BRIDGE_STATUS n, 29, 1⟩
def JL_BRIDGE_STATUS_TEMP_STALE (n : Nat) : Field := ⟨JL_BRIDGE_STATUS n, 28, 1⟩
def JL_BRIDGE_STATUS_FAIL_CHECK (n : Nat) : Field := ⟨JL_BRIDGE_STATUS n, 24, 4⟩
def JL_BRIDGE_STATUS_LAST_ERROR (n : Nat) : Field := ⟨JL_BRIDGE_STATUS n, 16, 8⟩
def JL_BRIDGE_STATUS_QUARANTINED (n : Nat) : Field := ⟨JL_BRIDGE_STATUS n, 8, 8⟩
/-- JL_BRIDGE_ID (R568, Table 15.11). -/
def JL_BRIDGE_ID (n : Nat) : Nat := 0x01000104 + 0x1000 * n
def JL_BRIDGE_ID_VENDOR (n : Nat) : Field := ⟨JL_BRIDGE_ID n, 16, 16⟩
def JL_BRIDGE_ID_PART (n : Nat) : Field := ⟨JL_BRIDGE_ID n, 0, 16⟩
/-- JL_BRIDGE_INFO (R568, Table 15.11). -/
def JL_BRIDGE_INFO (n : Nat) : Nat := 0x01000108 + 0x1000 * n
def JL_BRIDGE_INFO_REVISION (n : Nat) : Field := ⟨JL_BRIDGE_INFO n, 24, 8⟩
def JL_BRIDGE_INFO_DIES (n : Nat) : Field := ⟨JL_BRIDGE_INFO n, 16, 6⟩
def JL_BRIDGE_INFO_CES (n : Nat) : Field := ⟨JL_BRIDGE_INFO n, 8, 4⟩
def JL_BRIDGE_INFO_CHANNELS (n : Nat) : Field := ⟨JL_BRIDGE_INFO n, 4, 4⟩
def JL_BRIDGE_INFO_IF_MODES (n : Nat) : Field := ⟨JL_BRIDGE_INFO n, 0, 3⟩
/-- JL_BRIDGE_SERIAL_LO (R568, Table 15.11). -/
def JL_BRIDGE_SERIAL_LO (n : Nat) : Nat := 0x0100010C + 0x1000 * n
def JL_BRIDGE_SERIAL_LO_SERIAL (n : Nat) : Field := ⟨JL_BRIDGE_SERIAL_LO n, 0, 32⟩
/-- JL_BRIDGE_SERIAL_HI (R568, Table 15.11). -/
def JL_BRIDGE_SERIAL_HI (n : Nat) : Nat := 0x01000110 + 0x1000 * n
def JL_BRIDGE_SERIAL_HI_SERIAL (n : Nat) : Field := ⟨JL_BRIDGE_SERIAL_HI n, 0, 32⟩
/-- JL_DIE_WIRED (R568, Table 15.11). -/
def JL_DIE_WIRED (n : Nat) : Nat := 0x01000114 + 0x1000 * n
def JL_DIE_WIRED_DIES (n : Nat) : Field := ⟨JL_DIE_WIRED n, 0, 32⟩
/-- JL_DIE_PRESENT (R568, Table 15.11). -/
def JL_DIE_PRESENT (n : Nat) : Nat := 0x01000118 + 0x1000 * n
def JL_DIE_PRESENT_DIES (n : Nat) : Field := ⟨JL_DIE_PRESENT n, 0, 32⟩
/-- JL_BRIDGE_TEMP (R568, Table 15.11). -/
def JL_BRIDGE_TEMP (n : Nat) : Nat := 0x0100011C + 0x1000 * n
def JL_BRIDGE_TEMP_MAX (n : Nat) : Field := ⟨JL_BRIDGE_TEMP n, 16, 16⟩
def JL_BRIDGE_TEMP_TEMP (n : Nat) : Field := ⟨JL_BRIDGE_TEMP n, 0, 16⟩
/-- JL_CAP_ERR (R568, Table 15.11). -/
def JL_CAP_ERR (n : Nat) : Nat := 0x01000120 + 0x1000 * n
def JL_CAP_ERR_ERRORS (n : Nat) : Field := ⟨JL_CAP_ERR n, 16, 16⟩
def JL_CAP_ERR_TIMEOUTS (n : Nat) : Field := ⟨JL_CAP_ERR n, 0, 16⟩
/-- CPH_STATUS (R600, Table 16.9). -/
def CPH_STATUS : Nat := 0x00400000
def CPH_STATUS_ENTROPY_FAULT : Field := ⟨CPH_STATUS, 31, 1⟩
def CPH_STATUS_LOADKEY_VALID : Field := ⟨CPH_STATUS, 30, 1⟩
def CPH_STATUS_KEY_BUSY : Field := ⟨CPH_STATUS, 29, 1⟩
def CPH_STATUS_LAST_SLOT : Field := ⟨CPH_STATUS, 16, 10⟩
def CPH_STATUS_IN_SERVICE : Field := ⟨CPH_STATUS, 0, 16⟩
/-- CPH_KL_COUNT (R600, Table 16.9). -/
def CPH_KL_COUNT : Nat := 0x00400004
def CPH_KL_COUNT_COUNT : Field := ⟨CPH_KL_COUNT, 0, 32⟩
/-- CPH_AUTH_FAIL (R600, Table 16.9). -/
def CPH_AUTH_FAIL : Nat := 0x00400008
def CPH_AUTH_FAIL_COUNT : Field := ⟨CPH_AUTH_FAIL, 0, 32⟩
/-- CPH_ENTROPY (R600, Table 16.9). -/
def CPH_ENTROPY : Nat := 0x0040000C
def CPH_ENTROPY_FAILS : Field := ⟨CPH_ENTROPY, 16, 16⟩
def CPH_ENTROPY_RESEEDS : Field := ⟨CPH_ENTROPY, 0, 16⟩
/-- CPH_LOADKEY (R600, Table 16.9). -/
def CPH_LOADKEY (w : Nat) : Nat := 0x00400100 + 0x4 * w
def CPH_LOADKEY_BYTES (w : Nat) : Field := ⟨CPH_LOADKEY w, 0, 32⟩
/-- CPH_LOADKEY_SIG (R600, Table 16.9). -/
def CPH_LOADKEY_SIG (v : Nat) : Nat := 0x00400180 + 0x4 * v
def CPH_LOADKEY_SIG_BYTES (v : Nat) : Field := ⟨CPH_LOADKEY_SIG v, 0, 32⟩
/-- CPH_LANE_STATUS (R600, Table 16.9). -/
def CPH_LANE_STATUS (l : Nat) : Nat := 0x00410000 + 0x1000 * l
def CPH_LANE_STATUS_STATE (l : Nat) : Field := ⟨CPH_LANE_STATUS l, 30, 2⟩
def CPH_LANE_STATUS_KAT_PASS (l : Nat) : Field := ⟨CPH_LANE_STATUS l, 29, 1⟩
def CPH_LANE_STATUS_LENGTH_ERR (l : Nat) : Field := ⟨CPH_LANE_STATUS l, 28, 1⟩
def CPH_LANE_STATUS_FAULTS (l : Nat) : Field := ⟨CPH_LANE_STATUS l, 0, 16⟩
/-- CPH_LANE_SECTORS (R600, Table 16.9). -/
def CPH_LANE_SECTORS (l : Nat) : Nat := 0x00410004 + 0x1000 * l
def CPH_LANE_SECTORS_COUNT (l : Nat) : Field := ⟨CPH_LANE_SECTORS l, 0, 32⟩
/-- CPH_SLOT_STATE (R600, Table 16.9). -/
def CPH_SLOT_STATE (k : Nat) : Nat := 0x00480000 + 0x10 * k
def CPH_SLOT_STATE_GEN (k : Nat) : Field := ⟨CPH_SLOT_STATE k, 16, 16⟩
def CPH_SLOT_STATE_NAMED (k : Nat) : Field := ⟨CPH_SLOT_STATE k, 4, 1⟩
def CPH_SLOT_STATE_HOST_SALT (k : Nat) : Field := ⟨CPH_SLOT_STATE k, 3, 1⟩
def CPH_SLOT_STATE_STATE (k : Nat) : Field := ⟨CPH_SLOT_STATE k, 0, 3⟩
/-- CPH_SLOT_SALT (R600, Table 16.9). -/
def CPH_SLOT_SALT (k : Nat) : Nat := 0x00480004 + 0x10 * k
def CPH_SLOT_SALT_SALT (k : Nat) : Field := ⟨CPH_SLOT_SALT k, 0, 32⟩
/-- CPH_SLOT_INV_LO (R600, Table 16.9). -/
def CPH_SLOT_INV_LO (k : Nat) : Nat := 0x00480008 + 0x10 * k
def CPH_SLOT_INV_LO_COUNT (k : Nat) : Field := ⟨CPH_SLOT_INV_LO k, 0, 32⟩
/-- CPH_SLOT_INV_HI (R600, Table 16.9). -/
def CPH_SLOT_INV_HI (k : Nat) : Nat := 0x0048000C + 0x10 * k
def CPH_SLOT_INV_HI_COUNT (k : Nat) : Field := ⟨CPH_SLOT_INV_HI k, 0, 32⟩
/-- DRC_STATUS (R632, Table 17.6). -/
def DRC_STATUS (ch : Nat) : Nat := 0x00200000 + 0x8000 * ch
def DRC_STATUS_STATE (ch : Nat) : Field := ⟨DRC_STATUS ch, 29, 3⟩
def DRC_STATUS_TRACK_LIMIT (ch : Nat) : Field := ⟨DRC_STATUS ch, 28, 1⟩
def DRC_STATUS_DERATED (ch : Nat) : Field := ⟨DRC_STATUS ch, 27, 1⟩
def DRC_STATUS_RETRAINS (ch : Nat) : Field := ⟨DRC_STATUS ch, 8, 8⟩
/-- DRC_CFG (R632, Table 17.6). -/
def DRC_CFG (ch : Nat) : Nat := 0x00200004 + 0x8000 * ch
def DRC_CFG_RATE (ch : Nat) : Field := ⟨DRC_CFG ch, 30, 2⟩
def DRC_CFG_CH_GIB (ch : Nat) : Field := ⟨DRC_CFG ch, 24, 6⟩
def DRC_CFG_RANKS (ch : Nat) : Field := ⟨DRC_CFG ch, 22, 2⟩
def DRC_CFG_GRAIN_LOG2 (ch : Nat) : Field := ⟨DRC_CFG ch, 16, 5⟩
def DRC_CFG_STARVE_NS (ch : Nat) : Field := ⟨DRC_CFG ch, 0, 16⟩
/-- DRC_ECC_CORR (R632, Table 17.6). -/
def DRC_ECC_CORR (ch : Nat) : Nat := 0x00200008 + 0x8000 * ch
def DRC_ECC_CORR_COUNT (ch : Nat) : Field := ⟨DRC_ECC_CORR ch, 0, 32⟩
/-- DRC_ECC_UNCORR (R632, Table 17.6). -/
def DRC_ECC_UNCORR (ch : Nat) : Nat := 0x0020000C + 0x8000 * ch
def DRC_ECC_UNCORR_COUNT (ch : Nat) : Field := ⟨DRC_ECC_UNCORR ch, 0, 32⟩
/-- DRC_ERR_ADDR (R632, Table 17.6). -/
def DRC_ERR_ADDR (ch : Nat) : Nat := 0x00200010 + 0x8000 * ch
def DRC_ERR_ADDR_LINE (ch : Nat) : Field := ⟨DRC_ERR_ADDR ch, 0, 32⟩
/-- DRC_ERR_INFO (R632, Table 17.6). -/
def DRC_ERR_INFO (ch : Nat) : Nat := 0x00200014 + 0x8000 * ch
def DRC_ERR_INFO_KIND (ch : Nat) : Field := ⟨DRC_ERR_INFO ch, 30, 2⟩
def DRC_ERR_INFO_REGION (ch : Nat) : Field := ⟨DRC_ERR_INFO ch, 27, 3⟩
def DRC_ERR_INFO_SOURCE (ch : Nat) : Field := ⟨DRC_ERR_INFO ch, 25, 2⟩
def DRC_ERR_INFO_REMAPPED (ch : Nat) : Field := ⟨DRC_ERR_INFO ch, 24, 1⟩
def DRC_ERR_INFO_SYMBOL (ch : Nat) : Field := ⟨DRC_ERR_INFO ch, 0, 6⟩
/-- DRC_QUEUE (R632, Table 17.6). -/
def DRC_QUEUE (ch : Nat) : Nat := 0x00200018 + 0x8000 * ch
def DRC_QUEUE_READS (ch : Nat) : Field := ⟨DRC_QUEUE ch, 24, 8⟩
def DRC_QUEUE_WRITES (ch : Nat) : Field := ⟨DRC_QUEUE ch, 16, 8⟩
def DRC_QUEUE_DRAIN (ch : Nat) : Field := ⟨DRC_QUEUE ch, 15, 1⟩
/-- DRC_REFRESH (R632, Table 17.6). -/
def DRC_REFRESH (ch : Nat) : Nat := 0x0020001C + 0x8000 * ch
def DRC_REFRESH_OWED_MAX (ch : Nat) : Field := ⟨DRC_REFRESH ch, 24, 8⟩
def DRC_REFRESH_MR4 (ch : Nat) : Field := ⟨DRC_REFRESH ch, 16, 5⟩
def DRC_REFRESH_FORCED (ch : Nat) : Field := ⟨DRC_REFRESH ch, 0, 16⟩
/-- DRC_TRACK (R632, Table 17.6). -/
def DRC_TRACK (ch : Nat) : Nat := 0x00200020 + 0x8000 * ch
def DRC_TRACK_WRITE (ch : Nat) : Field := ⟨DRC_TRACK ch, 24, 8⟩
def DRC_TRACK_READ (ch : Nat) : Field := ⟨DRC_TRACK ch, 16, 8⟩
def DRC_TRACK_ADJUSTS (ch : Nat) : Field := ⟨DRC_TRACK ch, 0, 16⟩
/-- DRC_TRAIN_US (R632, Table 17.6). -/
def DRC_TRAIN_US (ch : Nat) : Nat := 0x00200024 + 0x8000 * ch
def DRC_TRAIN_US_US (ch : Nat) : Field := ⟨DRC_TRAIN_US ch, 0, 32⟩
/-- DRC_SCRUB (R632, Table 17.6). -/
def DRC_SCRUB (ch : Nat) : Nat := 0x00200028 + 0x8000 * ch
def DRC_SCRUB_PROGRESS (ch : Nat) : Field := ⟨DRC_SCRUB ch, 16, 16⟩
def DRC_SCRUB_PASSES (ch : Nat) : Field := ⟨DRC_SCRUB ch, 0, 16⟩
/-- DRC_MAP (R632, Table 17.6). -/
def DRC_MAP : Nat := 0x00204000
def DRC_MAP_CHANNELS : Field := ⟨DRC_MAP, 24, 5⟩
def DRC_MAP_PASR_MASK : Field := ⟨DRC_MAP, 8, 8⟩
/-- DRC_RETIRED (R632, Table 17.6). -/
def DRC_RETIRED : Nat := 0x00204004
def DRC_RETIRED_CHANNELS : Field := ⟨DRC_RETIRED, 0, 24⟩
/-- DRC_REMAP_STATUS (R632, Table 17.6). -/
def DRC_REMAP_STATUS : Nat := 0x00204008
def DRC_REMAP_STATUS_DROPPED : Field := ⟨DRC_REMAP_STATUS, 16, 16⟩
def DRC_REMAP_STATUS_USED : Field := ⟨DRC_REMAP_STATUS, 0, 6⟩
/-- DRC_REMAP_LO (R632, Table 17.6). -/
def DRC_REMAP_LO (e : Nat) : Nat := 0x00204100 + 0x8 * e
def DRC_REMAP_LO_LINE (e : Nat) : Field := ⟨DRC_REMAP_LO e, 0, 32⟩
/-- DRC_REMAP_HI (R632, Table 17.6). -/
def DRC_REMAP_HI (e : Nat) : Nat := 0x00204104 + 0x8 * e
def DRC_REMAP_HI_VALID (e : Nat) : Field := ⟨DRC_REMAP_HI e, 31, 1⟩
def DRC_REMAP_HI_CHANNEL (e : Nat) : Field := ⟨DRC_REMAP_HI e, 0, 5⟩
/-- DRC_TEST_CTL (R632, Table 17.6). -/
def DRC_TEST_CTL : Nat := 0x00204200
def DRC_TEST_CTL_CMD : Field := ⟨DRC_TEST_CTL, 0, 3⟩
/-- DRC_TEST_ADDR_LO (R632, Table 17.6). -/
def DRC_TEST_ADDR_LO : Nat := 0x00204204
def DRC_TEST_ADDR_LO_ADDR : Field := ⟨DRC_TEST_ADDR_LO, 0, 32⟩
/-- DRC_TEST_ADDR_HI (R632, Table 17.6). -/
def DRC_TEST_ADDR_HI : Nat := 0x00204208
def DRC_TEST_ADDR_HI_ADDR : Field := ⟨DRC_TEST_ADDR_HI, 0, 32⟩
/-- DRC_TEST_DATA (R632, Table 17.6). -/
def DRC_TEST_DATA (i : Nat) : Nat := 0x00204210 + 0x4 * i
def DRC_TEST_DATA_BYTES (i : Nat) : Field := ⟨DRC_TEST_DATA i, 0, 32⟩
/-- DRC_TEST_CHECK (R632, Table 17.6). -/
def DRC_TEST_CHECK (j : Nat) : Nat := 0x00204250 + 0x4 * j
def DRC_TEST_CHECK_BYTES (j : Nat) : Field := ⟨DRC_TEST_CHECK j, 0, 32⟩
/-- DRC_TEST_RES (R632, Table 17.6). -/
def DRC_TEST_RES : Nat := 0x00204258
def DRC_TEST_RES_DONE : Field := ⟨DRC_TEST_RES, 31, 1⟩
def DRC_TEST_RES_REFUSED : Field := ⟨DRC_TEST_RES, 30, 1⟩
def DRC_TEST_RES_OUTCOME : Field := ⟨DRC_TEST_RES, 28, 2⟩
def DRC_TEST_RES_SYMBOL : Field := ⟨DRC_TEST_RES, 22, 6⟩
/-- MNT_PLANT (R662, Table 18.6). -/
def MNT_PLANT (s : Nat) (w : Nat) : Nat := 0x00104000 + 0x800 * s + 0x4 * w
def MNT_PLANT_WORD (s : Nat) (w : Nat) : Field := ⟨MNT_PLANT s w, 0, 32⟩
/-- MNT_LOOP_STATUS (R662, Table 18.6). -/
def MNT_LOOP_STATUS (s : Nat) : Nat := 0x00104300 + 0x800 * s
def MNT_LOOP_STATUS_STATE (s : Nat) : Field := ⟨MNT_LOOP_STATUS s, 29, 3⟩
def MNT_LOOP_STATUS_HEADROOM (s : Nat) : Field := ⟨MNT_LOOP_STATUS s, 28, 1⟩
def MNT_LOOP_STATUS_CHARGE_LIMITED (s : Nat) : Field := ⟨MNT_LOOP_STATUS s, 27, 1⟩
def MNT_LOOP_STATUS_FORCED (s : Nat) : Field := ⟨MNT_LOOP_STATUS s, 26, 1⟩
def MNT_LOOP_STATUS_MAP_WARN (s : Nat) : Field := ⟨MNT_LOOP_STATUS s, 25, 1⟩
def MNT_LOOP_STATUS_FAULT (s : Nat) : Field := ⟨MNT_LOOP_STATUS s, 22, 3⟩
/-- MNT_LOOP_FLAGS (R662, Table 18.6). -/
def MNT_LOOP_FLAGS (s : Nat) : Nat := 0x00104304 + 0x800 * s
def MNT_LOOP_FLAGS_FORCED (s : Nat) : Field := ⟨MNT_LOOP_FLAGS s, 7, 1⟩
def MNT_LOOP_FLAGS_ADC_RAIL (s : Nat) : Field := ⟨MNT_LOOP_FLAGS s, 6, 1⟩
def MNT_LOOP_FLAGS_OVERRUN (s : Nat) : Field := ⟨MNT_LOOP_FLAGS s, 5, 1⟩
def MNT_LOOP_FLAGS_PROF_SAT (s : Nat) : Field := ⟨MNT_LOOP_FLAGS s, 4, 1⟩
def MNT_LOOP_FLAGS_INT_SAT (s : Nat) : Field := ⟨MNT_LOOP_FLAGS s, 3, 1⟩
def MNT_LOOP_FLAGS_EST_SAT (s : Nat) : Field := ⟨MNT_LOOP_FLAGS s, 2, 1⟩
def MNT_LOOP_FLAGS_OUT_SAT (s : Nat) : Field := ⟨MNT_LOOP_FLAGS s, 0, 2⟩
/-- MNT_LOOP_CTL (R662, Table 18.6). -/
def MNT_LOOP_CTL (s : Nat) : Nat := 0x00104308 + 0x800 * s
def MNT_LOOP_CTL_BYPASS (s : Nat) : Field := ⟨MNT_LOOP_CTL s, 0, 1⟩
/-- MNT_TARGET (R662, Table 18.6). -/
def MNT_TARGET (s : Nat) : Nat := 0x0010430C + 0x800 * s
def MNT_TARGET_VALUE (s : Nat) : Field := ⟨MNT_TARGET s, 0, 32⟩
/-- MNT_DUTY_LIM (R662, Table 18.6). -/
def MNT_DUTY_LIM (s : Nat) : Nat := 0x00104310 + 0x800 * s
def MNT_DUTY_LIM_MAX (s : Nat) : Field := ⟨MNT_DUTY_LIM s, 16, 16⟩
def MNT_DUTY_LIM_MIN (s : Nat) : Field := ⟨MNT_DUTY_LIM s, 0, 16⟩
/-- MNT_PWM_CFG (R662, Table 18.6). -/
def MNT_PWM_CFG (s : Nat) : Nat := 0x00104314 + 0x800 * s
def MNT_PWM_CFG_SAMPLE_OFS (s : Nat) : Field := ⟨MNT_PWM_CFG s, 16, 16⟩
def MNT_PWM_CFG_DEADTIME (s : Nat) : Field := ⟨MNT_PWM_CFG s, 0, 8⟩
/-- MNT_DUTY (R662, Table 18.6). -/
def MNT_DUTY (s : Nat) : Nat := 0x00104318 + 0x800 * s
def MNT_DUTY_D1 (s : Nat) : Field := ⟨MNT_DUTY s, 16, 16⟩
def MNT_DUTY_D0 (s : Nat) : Field := ⟨MNT_DUTY s, 0, 16⟩
/-- MNT_SETPOINT (R662, Table 18.6). -/
def MNT_SETPOINT (s : Nat) : Nat := 0x0010431C + 0x800 * s
def MNT_SETPOINT_RS (s : Nat) : Field := ⟨MNT_SETPOINT s, 0, 32⟩
/-- MNT_LATENCY (R662, Table 18.6). -/
def MNT_LATENCY (s : Nat) : Nat := 0x00104320 + 0x800 * s
def MNT_LATENCY_MAX (s : Nat) : Field := ⟨MNT_LATENCY s, 16, 16⟩
def MNT_LATENCY_LAST (s : Nat) : Field := ⟨MNT_LATENCY s, 0, 16⟩
/-- MNT_PERIODS (R662, Table 18.6). -/
def MNT_PERIODS (s : Nat) : Nat := 0x00104324 + 0x800 * s
def MNT_PERIODS_COUNT (s : Nat) : Field := ⟨MNT_PERIODS s, 0, 32⟩
/-- MNT_OVERRUNS (R662, Table 18.6). -/
def MNT_OVERRUNS (s : Nat) : Nat := 0x00104328 + 0x800 * s
def MNT_OVERRUNS_COUNT (s : Nat) : Field := ⟨MNT_OVERRUNS s, 0, 32⟩
/-- MNT_SAT_PERIODS (R662, Table 18.6). -/
def MNT_SAT_PERIODS (s : Nat) : Nat := 0x0010432C + 0x800 * s
def MNT_SAT_PERIODS_COUNT (s : Nat) : Field := ⟨MNT_SAT_PERIODS s, 0, 32⟩
/-- MNT_XHAT (R662, Table 18.6). -/
def MNT_XHAT (s : Nat) (i : Nat) : Nat := 0x00104330 + 0x800 * s + 0x4 * i
def MNT_XHAT_VALUE (s : Nat) (i : Nat) : Field := ⟨MNT_XHAT s i, 0, 32⟩
/-- MNT_Z (R662, Table 18.6). -/
def MNT_Z (s : Nat) : Nat := 0x00104350 + 0x800 * s
def MNT_Z_VALUE (s : Nat) : Field := ⟨MNT_Z s, 0, 32⟩
/-- MNT_TRC_CTL (R662, Table 18.6). -/
def MNT_TRC_CTL (s : Nat) : Nat := 0x00104354 + 0x800 * s
def MNT_TRC_CTL_ARM (s : Nat) : Field := ⟨MNT_TRC_CTL s, 31, 1⟩
def MNT_TRC_CTL_TRIGGER (s : Nat) : Field := ⟨MNT_TRC_CTL s, 30, 1⟩
def MNT_TRC_CTL_STOP (s : Nat) : Field := ⟨MNT_TRC_CTL s, 29, 1⟩
def MNT_TRC_CTL_TRIG_SRC (s : Nat) : Field := ⟨MNT_TRC_CTL s, 26, 3⟩
def MNT_TRC_CTL_MODE (s : Nat) : Field := ⟨MNT_TRC_CTL s, 24, 2⟩
def MNT_TRC_CTL_DECIM (s : Nat) : Field := ⟨MNT_TRC_CTL s, 20, 4⟩
def MNT_TRC_CTL_POST (s : Nat) : Field := ⟨MNT_TRC_CTL s, 0, 14⟩
/-- MNT_TRC_SEL0 (R662, Table 18.6). -/
def MNT_TRC_SEL0 (s : Nat) : Nat := 0x00104358 + 0x800 * s
def MNT_TRC_SEL0_NODES (s : Nat) : Field := ⟨MNT_TRC_SEL0 s, 0, 32⟩
/-- MNT_TRC_SEL1 (R662, Table 18.6). -/
def MNT_TRC_SEL1 (s : Nat) : Nat := 0x0010435C + 0x800 * s
def MNT_TRC_SEL1_NODES (s : Nat) : Field := ⟨MNT_TRC_SEL1 s, 0, 32⟩
/-- MNT_TRC_STATUS (R662, Table 18.6). -/
def MNT_TRC_STATUS (s : Nat) : Nat := 0x00104360 + 0x800 * s
def MNT_TRC_STATUS_RUNNING (s : Nat) : Field := ⟨MNT_TRC_STATUS s, 31, 1⟩
def MNT_TRC_STATUS_TRIGGERED (s : Nat) : Field := ⟨MNT_TRC_STATUS s, 30, 1⟩
def MNT_TRC_STATUS_DONE (s : Nat) : Field := ⟨MNT_TRC_STATUS s, 29, 1⟩
def MNT_TRC_STATUS_WRAPPED (s : Nat) : Field := ⟨MNT_TRC_STATUS s, 28, 1⟩
def MNT_TRC_STATUS_TRIG_INDEX (s : Nat) : Field := ⟨MNT_TRC_STATUS s, 14, 14⟩
def MNT_TRC_STATUS_INDEX (s : Nat) : Field := ⟨MNT_TRC_STATUS s, 0, 14⟩
/-- MNT_STATUS (R687, Table 19.9). -/
def MNT_STATUS : Nat := 0x00102000
def MNT_STATUS_LOSS : Field := ⟨MNT_STATUS, 31, 1⟩
def MNT_STATUS_PFI_LOW : Field := ⟨MNT_STATUS, 30, 1⟩
def MNT_STATUS_DEGRADED : Field := ⟨MNT_STATUS, 29, 1⟩
def MNT_STATUS_STORE_EMPTY : Field := ⟨MNT_STATUS, 28, 1⟩
def MNT_STATUS_RESTORED : Field := ⟨MNT_STATUS, 27, 1⟩
def MNT_STATUS_COMPAT : Field := ⟨MNT_STATUS, 26, 1⟩
def MNT_STATUS_LEARN_STRING : Field := ⟨MNT_STATUS, 24, 2⟩
def MNT_STATUS_LEARN_STATE : Field := ⟨MNT_STATUS, 22, 2⟩
def MNT_STATUS_CONNECTED : Field := ⟨MNT_STATUS, 18, 4⟩
def MNT_STATUS_FAULTED : Field := ⟨MNT_STATUS, 14, 4⟩
def MNT_STATUS_UNRESTED : Field := ⟨MNT_STATUS, 10, 4⟩
def MNT_STATUS_CHG_PHASE : Field := ⟨MNT_STATUS, 8, 2⟩
/-- MNT_EUSE (R687, Table 19.9). -/
def MNT_EUSE : Nat := 0x00102004
def MNT_EUSE_MJ : Field := ⟨MNT_EUSE, 0, 32⟩
/-- MNT_CHG_TARGET (R687, Table 19.9). -/
def MNT_CHG_TARGET : Nat := 0x00102008
def MNT_CHG_TARGET_MA : Field := ⟨MNT_CHG_TARGET, 0, 32⟩
/-- MNT_PFI_CFG (R687, Table 19.9). -/
def MNT_PFI_CFG : Nat := 0x0010200C
def MNT_PFI_CFG_FILTER_NS : Field := ⟨MNT_PFI_CFG, 0, 16⟩
/-- MNT_LOSS_TIME_LO (R687, Table 19.9). -/
def MNT_LOSS_TIME_LO : Nat := 0x00102010
def MNT_LOSS_TIME_LO_NS : Field := ⟨MNT_LOSS_TIME_LO, 0, 32⟩
/-- MNT_LOSS_TIME_HI (R687, Table 19.9). -/
def MNT_LOSS_TIME_HI : Nat := 0x00102014
def MNT_LOSS_TIME_HI_NS : Field := ⟨MNT_LOSS_TIME_HI, 0, 32⟩
/-- MNT_LEARN_CTL (R687, Table 19.9). -/
def MNT_LEARN_CTL : Nat := 0x00102018
def MNT_LEARN_CTL_START : Field := ⟨MNT_LEARN_CTL, 31, 1⟩
def MNT_LEARN_CTL_ABORT : Field := ⟨MNT_LEARN_CTL, 30, 1⟩
def MNT_LEARN_CTL_STRING : Field := ⟨MNT_LEARN_CTL, 0, 2⟩
/-- MNT_STR_VI (R687, Table 19.9). -/
def MNT_STR_VI (s : Nat) : Nat := 0x00102100 + 0x40 * s
def MNT_STR_VI_MV (s : Nat) : Field := ⟨MNT_STR_VI s, 16, 16⟩
def MNT_STR_VI_I (s : Nat) : Field := ⟨MNT_STR_VI s, 0, 16⟩
/-- MNT_STR_SOC (R687, Table 19.9). -/
def MNT_STR_SOC (s : Nat) : Nat := 0x00102104 + 0x40 * s
def MNT_STR_SOC_SOC (s : Nat) : Field := ⟨MNT_STR_SOC s, 16, 16⟩
def MNT_STR_SOC_TEMP (s : Nat) : Field := ⟨MNT_STR_SOC s, 0, 16⟩
/-- MNT_STR_CAP (R687, Table 19.9). -/
def MNT_STR_CAP (s : Nat) : Nat := 0x00102108 + 0x40 * s
def MNT_STR_CAP_MC (s : Nat) : Field := ⟨MNT_STR_CAP s, 0, 32⟩
/-- MNT_STR_R (R687, Table 19.9). -/
def MNT_STR_R (s : Nat) : Nat := 0x0010210C + 0x40 * s
def MNT_STR_R_UOHM (s : Nat) : Field := ⟨MNT_STR_R s, 0, 32⟩
/-- MNT_STR_CYCLES (R687, Table 19.9). -/
def MNT_STR_CYCLES (s : Nat) : Nat := 0x00102110 + 0x40 * s
def MNT_STR_CYCLES_MILLI (s : Nat) : Field := ⟨MNT_STR_CYCLES s, 0, 32⟩
/-- MNT_STR_LEARN (R687, Table 19.9). -/
def MNT_STR_LEARN (s : Nat) : Nat := 0x00102114 + 0x40 * s
def MNT_STR_LEARN_COUNT (s : Nat) : Field := ⟨MNT_STR_LEARN s, 16, 16⟩
def MNT_STR_LEARN_REJECTS (s : Nat) : Field := ⟨MNT_STR_LEARN s, 8, 8⟩
def MNT_STR_LEARN_LAST (s : Nat) : Field := ⟨MNT_STR_LEARN s, 4, 4⟩
def MNT_STR_LEARN_FAULT (s : Nat) : Field := ⟨MNT_STR_LEARN s, 0, 4⟩
/-- MNT_STR_ENERGY (R687, Table 19.9). -/
def MNT_STR_ENERGY (s : Nat) : Nat := 0x00102118 + 0x40 * s
def MNT_STR_ENERGY_MJ (s : Nat) : Field := ⟨MNT_STR_ENERGY s, 0, 32⟩
/-- PWR_STATUS (R703, Table 20.10). -/
def PWR_STATUS : Nat := 0x00100000
def PWR_STATUS_STATE : Field := ⟨PWR_STATUS, 29, 3⟩
def PWR_STATUS_TARGET : Field := ⟨PWR_STATUS, 26, 3⟩
def PWR_STATUS_PHASE : Field := ⟨PWR_STATUS, 24, 2⟩
def PWR_STATUS_STEP : Field := ⟨PWR_STATUS, 21, 3⟩
def PWR_STATUS_PS : Field := ⟨PWR_STATUS, 18, 3⟩
def PWR_STATUS_CAPPED : Field := ⟨PWR_STATUS, 17, 1⟩
def PWR_STATUS_REFUSE : Field := ⟨PWR_STATUS, 10, 3⟩
/-- PWR_CFG (R703, Table 20.10). -/
def PWR_CFG : Nat := 0x00100004
def PWR_CFG_AVS : Field := ⟨PWR_CFG, 9, 1⟩
def PWR_CFG_DOZE_PARK : Field := ⟨PWR_CFG, 8, 1⟩
def PWR_CFG_WAKE_MASK : Field := ⟨PWR_CFG, 0, 7⟩
/-- PWR_WAKE_TIMER (R703, Table 20.10). -/
def PWR_WAKE_TIMER : Nat := 0x00100008
def PWR_WAKE_TIMER_S : Field := ⟨PWR_WAKE_TIMER, 0, 32⟩
/-- PWR_LAST_WAKE (R703, Table 20.10). -/
def PWR_LAST_WAKE : Nat := 0x0010000C
def PWR_LAST_WAKE_PENDING : Field := ⟨PWR_LAST_WAKE, 16, 9⟩
def PWR_LAST_WAKE_ABORT_POINT : Field := ⟨PWR_LAST_WAKE, 8, 2⟩
def PWR_LAST_WAKE_FROM : Field := ⟨PWR_LAST_WAKE, 4, 3⟩
def PWR_LAST_WAKE_SOURCE : Field := ⟨PWR_LAST_WAKE, 0, 4⟩
/-- PWR_LAST_WAKE_TIME_LO (R703, Table 20.10). -/
def PWR_LAST_WAKE_TIME_LO : Nat := 0x00100010
def PWR_LAST_WAKE_TIME_LO_NS : Field := ⟨PWR_LAST_WAKE_TIME_LO, 0, 32⟩
/-- PWR_LAST_WAKE_TIME_HI (R703, Table 20.10). -/
def PWR_LAST_WAKE_TIME_HI : Nat := 0x00100014
def PWR_LAST_WAKE_TIME_HI_NS : Field := ⟨PWR_LAST_WAKE_TIME_HI, 0, 32⟩
/-- PWR_VCORE (R703, Table 20.10). -/
def PWR_VCORE : Nat := 0x00100018
def PWR_VCORE_MV : Field := ⟨PWR_VCORE, 0, 16⟩
/-- PWR_ASSIST (R703, Table 20.10). -/
def PWR_ASSIST : Nat := 0x0010001C
def PWR_ASSIST_RET : Field := ⟨PWR_ASSIST, 4, 2⟩
def PWR_ASSIST_WA : Field := ⟨PWR_ASSIST, 2, 2⟩
def PWR_ASSIST_RA : Field := ⟨PWR_ASSIST, 0, 2⟩
/-- PWR_COUNT (R703, Table 20.10). -/
def PWR_COUNT : Nat := 0x00100020
def PWR_COUNT_ENTRIES : Field := ⟨PWR_COUNT, 16, 16⟩
def PWR_COUNT_ABANDONED : Field := ⟨PWR_COUNT, 0, 16⟩
/-- PWR_ENTRY_US (R703, Table 20.10). -/
def PWR_ENTRY_US : Nat := 0x00100024
def PWR_ENTRY_US_US : Field := ⟨PWR_ENTRY_US, 0, 32⟩
/-- PWR_EXIT_US (R703, Table 20.10). -/
def PWR_EXIT_US : Nat := 0x00100028
def PWR_EXIT_US_US : Field := ⟨PWR_EXIT_US, 0, 32⟩
/-- THM_STATUS (R726, Table 21.8). -/
def THM_STATUS : Nat := 0x00101000
def THM_STATUS_STATE : Field := ⟨THM_STATUS, 29, 3⟩
def THM_STATUS_RISE : Field := ⟨THM_STATUS, 27, 2⟩
def THM_STATUS_SENSOR_FAULT : Field := ⟨THM_STATUS, 26, 1⟩
def THM_STATUS_COOL_FLUSH : Field := ⟨THM_STATUS, 25, 1⟩
def THM_STATUS_TERM : Field := ⟨THM_STATUS, 24, 1⟩
def THM_STATUS_FAN_FAULT : Field := ⟨THM_STATUS, 20, 4⟩
/-- THM_TEMP (R726, Table 21.8). -/
def THM_TEMP : Nat := 0x00101004
def THM_TEMP_PEAK : Field := ⟨THM_TEMP, 16, 16⟩
def THM_TEMP_TEMP : Field := ⟨THM_TEMP, 0, 16⟩
/-- THM_RATE (R726, Table 21.8). -/
def THM_RATE : Nat := 0x00101008
def THM_RATE_RATE : Field := ⟨THM_RATE, 0, 16⟩
/-- THM_THROTTLE (R726, Table 21.8). -/
def THM_THROTTLE : Nat := 0x0010100C
def THM_THROTTLE_REQUEST : Field := ⟨THM_THROTTLE, 30, 2⟩
def THM_THROTTLE_ENFORCED : Field := ⟨THM_THROTTLE, 28, 2⟩
def THM_THROTTLE_HCTM : Field := ⟨THM_THROTTLE, 26, 2⟩
def THM_THROTTLE_GRACE_LEFT : Field := ⟨THM_THROTTLE, 0, 16⟩
/-- THM_WARN_C (R726, Table 21.8). -/
def THM_WARN_C : Nat := 0x00101010
def THM_WARN_C_C : Field := ⟨THM_WARN_C, 0, 8⟩
/-- THM_ENFORCE_C (R726, Table 21.8). -/
def THM_ENFORCE_C : Nat := 0x00101014
def THM_ENFORCE_C_C : Field := ⟨THM_ENFORCE_C, 0, 8⟩
/-- THM_GRACE (R726, Table 21.8). -/
def THM_GRACE : Nat := 0x00101018
def THM_GRACE_MS : Field := ⟨THM_GRACE, 0, 16⟩
/-- THM_POLICY (R726, Table 21.8). -/
def THM_POLICY : Nat := 0x0010101C
def THM_POLICY_RESTART : Field := ⟨THM_POLICY, 0, 1⟩
/-- THM_BRIDGE (R726, Table 21.8). -/
def THM_BRIDGE : Nat := 0x00101020
def THM_BRIDGE_ENFORCE_C : Field := ⟨THM_BRIDGE, 8, 8⟩
def THM_BRIDGE_WARN_C : Field := ⟨THM_BRIDGE, 0, 8⟩
/-- THM_COOL_LINKS (R726, Table 21.8). -/
def THM_COOL_LINKS : Nat := 0x00101024
def THM_COOL_LINKS_LINKS : Field := ⟨THM_COOL_LINKS, 0, 10⟩
/-- THM_HCTM (R726, Table 21.8). -/
def THM_HCTM : Nat := 0x00101028
def THM_HCTM_TMT1 : Field := ⟨THM_HCTM, 16, 16⟩
def THM_HCTM_TMT2 : Field := ⟨THM_HCTM, 0, 16⟩
/-- THM_COUNT (R726, Table 21.8). -/
def THM_COUNT : Nat := 0x0010102C
def THM_COUNT_WARN : Field := ⟨THM_COUNT, 16, 16⟩
def THM_COUNT_ENFORCED : Field := ⟨THM_COUNT, 0, 16⟩
/-- THM_SENSOR (R726, Table 21.8). -/
def THM_SENSOR : Nat := 0x00101030
def THM_SENSOR_FAULT : Field := ⟨THM_SENSOR, 28, 4⟩
def THM_SENSOR_RAW : Field := ⟨THM_SENSOR, 0, 20⟩
/-- THM_HOT_BRIDGE (R726, Table 21.8). -/
def THM_HOT_BRIDGE : Nat := 0x00101034
def THM_HOT_BRIDGE_TEMP : Field := ⟨THM_HOT_BRIDGE, 16, 16⟩
def THM_HOT_BRIDGE_LINK : Field := ⟨THM_HOT_BRIDGE, 0, 9⟩
/-- THM_FAN (R726, Table 21.8). -/
def THM_FAN (f : Nat) : Nat := 0x00101040 + 0x4 * f
def THM_FAN_FAULT (f : Nat) : Field := ⟨THM_FAN f, 31, 1⟩
def THM_FAN_RPM (f : Nat) : Field := ⟨THM_FAN f, 0, 16⟩
/-- BEL_TRIP_STATUS (R727, Table 21.9). -/
def BEL_TRIP_STATUS : Nat := 0x01C01018
def BEL_TRIP_STATUS_STATE : Field := ⟨BEL_TRIP_STATUS, 29, 3⟩
def BEL_TRIP_STATUS_TRIPS_1H : Field := ⟨BEL_TRIP_STATUS, 26, 3⟩
def BEL_TRIP_STATUS_KIND : Field := ⟨BEL_TRIP_STATUS, 24, 2⟩
def BEL_TRIP_STATUS_ACKED : Field := ⟨BEL_TRIP_STATUS, 16, 1⟩
def BEL_TRIP_STATUS_BELOW85_MS : Field := ⟨BEL_TRIP_STATUS, 0, 16⟩
/-- BEL_MB_CTL (R751, Table 22.14). -/
def BEL_MB_CTL (c : Nat) : Nat := 0x01C00000 + 0x400 * c
def BEL_MB_CTL_GO (c : Nat) : Field := ⟨BEL_MB_CTL c, 0, 1⟩
/-- BEL_MB_STATUS (R751, Table 22.14). -/
def BEL_MB_STATUS (c : Nat) : Nat := 0x01C00004 + 0x400 * c
def BEL_MB_STATUS_STATE (c : Nat) : Field := ⟨BEL_MB_STATUS c, 30, 2⟩
def BEL_MB_STATUS_LOST (c : Nat) : Field := ⟨BEL_MB_STATUS c, 29, 1⟩
def BEL_MB_STATUS_RESP_BYTES (c : Nat) : Field := ⟨BEL_MB_STATUS c, 0, 16⟩
/-- BEL_MB_REQ (R751, Table 22.14). -/
def BEL_MB_REQ (c : Nat) (w : Nat) : Nat := 0x01C00100 + 0x400 * c + 0x4 * w
def BEL_MB_REQ_BYTES (c : Nat) (w : Nat) : Field := ⟨BEL_MB_REQ c w, 0, 32⟩
/-- BEL_MB_RESP (R751, Table 22.14). -/
def BEL_MB_RESP (c : Nat) (v : Nat) : Nat := 0x01C00200 + 0x400 * c + 0x4 * v
def BEL_MB_RESP_BYTES (c : Nat) (v : Nat) : Field := ⟨BEL_MB_RESP c v, 0, 32⟩
/-- BEL_OTP_SEL (R751, Table 22.14). -/
def BEL_OTP_SEL : Nat := 0x01C0101C
def BEL_OTP_SEL_WORD : Field := ⟨BEL_OTP_SEL, 0, 7⟩
/-- BEL_OTP_DATA (R751, Table 22.14). -/
def BEL_OTP_DATA : Nat := 0x01C01020
def BEL_OTP_DATA_DATA : Field := ⟨BEL_OTP_DATA, 0, 32⟩
/-- BEL_MCTP_IANA (R751, Table 22.14). -/
def BEL_MCTP_IANA : Nat := 0x01C01024
def BEL_MCTP_IANA_ID : Field := ⟨BEL_MCTP_IANA, 0, 32⟩
/-- BEL_MAINT_RUN (R751, Table 22.14). -/
def BEL_MAINT_RUN : Nat := 0x01C01028
def BEL_MAINT_RUN_ACTIVE : Field := ⟨BEL_MAINT_RUN, 1, 9⟩
/-- BEL_MAINT_WAIT (R751, Table 22.14). -/
def BEL_MAINT_WAIT : Nat := 0x01C0102C
def BEL_MAINT_WAIT_WAITING : Field := ⟨BEL_MAINT_WAIT, 1, 9⟩
/-- BEL_PLAN (R751, Table 22.14). -/
def BEL_PLAN : Nat := 0x01C01030
def BEL_PLAN_PERCENT_USED : Field := ⟨BEL_PLAN, 24, 8⟩
def BEL_PLAN_GEN : Field := ⟨BEL_PLAN, 16, 8⟩
def BEL_PLAN_VCORE_FLOOR_MV : Field := ⟨BEL_PLAN, 0, 16⟩
/-- BEL_HEALTH (R751, Table 22.14). -/
def BEL_HEALTH : Nat := 0x01C01034
def BEL_HEALTH_RESTARTS : Field := ⟨BEL_HEALTH, 16, 16⟩
def BEL_HEALTH_NOR_ERRORS : Field := ⟨BEL_HEALTH, 0, 16⟩
/-- BEL_LOG_SEQ_LO (R751, Table 22.14). -/
def BEL_LOG_SEQ_LO : Nat := 0x01C01038
def BEL_LOG_SEQ_LO_SEQ : Field := ⟨BEL_LOG_SEQ_LO, 0, 32⟩
/-- BEL_LOG_SEQ_HI (R751, Table 22.14). -/
def BEL_LOG_SEQ_HI : Nat := 0x01C0103C
def BEL_LOG_SEQ_HI_SEQ : Field := ⟨BEL_LOG_SEQ_HI, 0, 32⟩
/-- BEL_MAINT_CFG0 (R751, Table 22.14). -/
def BEL_MAINT_CFG0 : Nat := 0x01C01040
def BEL_MAINT_CFG0_SCRUB_HOURS : Field := ⟨BEL_MAINT_CFG0, 16, 16⟩
def BEL_MAINT_CFG0_AUDIT_DAYS : Field := ⟨BEL_MAINT_CFG0, 0, 16⟩
/-- BEL_MAINT_CFG1 (R751, Table 22.14). -/
def BEL_MAINT_CFG1 : Nat := 0x01C01044
def BEL_MAINT_CFG1_LINK_RECAL_MIN : Field := ⟨BEL_MAINT_CFG1, 16, 16⟩
def BEL_MAINT_CFG1_RETENTION_DAYS : Field := ⟨BEL_MAINT_CFG1, 0, 16⟩
/-- BEL_MAINT_CFG2 (R751, Table 22.14). -/
def BEL_MAINT_CFG2 : Nat := 0x01C01048
def BEL_MAINT_CFG2_CHECKPOINT_S : Field := ⟨BEL_MAINT_CFG2, 16, 16⟩
def BEL_MAINT_CFG2_THRESH_RECAL_H : Field := ⟨BEL_MAINT_CFG2, 0, 16⟩
/-- BEL_MAINT_CFG3 (R751, Table 22.14). -/
def BEL_MAINT_CFG3 : Nat := 0x01C0104C
def BEL_MAINT_CFG3_DURING_TAKE : Field := ⟨BEL_MAINT_CFG3, 16, 1⟩
def BEL_MAINT_CFG3_LEARN_DAYS : Field := ⟨BEL_MAINT_CFG3, 0, 16⟩
end Reg

/-- Descriptors, part 1, in the order of the chapters. -/
def regDescs1 : List RegDesc := [
  ⟨0x01C01000, 0x0, 1, 0x0, 1, 0x0, 0x0, 0x0, 0x0, true⟩,
  ⟨0x01C01004, 0x0, 1, 0x0, 1, 0x0, 0x0, 0x0, 0x0, true⟩,
  ⟨0x01C01100, 0x40, 16, 0x4, 12, 0x0, 0x0, 0x0, 0x0, true⟩,
  ⟨0x01C01008, 0x0, 1, 0x0, 1, 0x0, 0x0, 0x0, 0x30, true⟩,
  ⟨0x01C0100C, 0x0, 1, 0x0, 1, 0x0, 0x0, 0x0, 0x0, true⟩,
  ⟨0x01C01010, 0x0, 1, 0x0, 1, 0x0, 0x0, 0x0, 0x0, true⟩,
  ⟨0x01C01014, 0x0, 1, 0x0, 1, 0x0, 0x0, 0x0, 0x0, true⟩,
  ⟨0x00000000, 0x0, 1, 0x0, 1, 0x0, 0x0, 0x0, 0x51201100, false⟩,
  ⟨0x00000004, 0x0, 1, 0x0, 1, 0x0, 0x0, 0x0, 0x0, false⟩,
  ⟨0x00000008, 0x0, 1, 0x0, 1, 0x0, 0x0, 0x0, 0x0, false⟩,
  ⟨0x0000000C, 0x0, 1, 0x0, 1, 0x0, 0x0, 0x0, 0x0, false⟩,
  ⟨0x00000010, 0x0, 1, 0x0, 1, 0x0, 0x0, 0x0, 0x0, false⟩,
  ⟨0x00000014, 0x0, 1, 0x0, 1, 0x0, 0x0, 0x0, 0x0, false⟩,
  ⟨0x00000020, 0x0, 1, 0x0, 1, 0xFFFFFFFF, 0x0, 0x0, 0x0, false⟩,
  ⟨0x00000018, 0x0, 1, 0x0, 1, 0x0, 0x0, 0x0, 0x0, false⟩,
  ⟨0x0000001C, 0x0, 1, 0x0, 1, 0x0, 0x80000000, 0x0, 0x0, false⟩,
  ⟨0x00000040, 0x0, 1, 0x0, 1, 0x0, 0x0, 0x0, 0x0, false⟩,
  ⟨0x00000044, 0x0, 1, 0x0, 1, 0x0, 0x0, 0x0, 0xF00, false⟩,
  ⟨0x00000048, 0x0, 1, 0x0, 1, 0x0, 0x0, 0x0, 0x0, false⟩,
  ⟨0x0000004C, 0x0, 1, 0x0, 1, 0x0, 0x0, 0x0, 0x0, false⟩,
  ⟨0x00000050, 0x0, 1, 0x0, 1, 0x0, 0x0, 0x0, 0x0, false⟩,
  ⟨0x00000054, 0x0, 1, 0x0, 1, 0xFFFF, 0x0, 0x0, 0x2710, false⟩,
  ⟨0x02000000, 0x10, 2112, 0x0, 1, 0x87FF87FF, 0x0, 0x0, 0x0, false⟩,
  ⟨0x02000004, 0x10, 2112, 0x0, 1, 0xFFFFFFFF, 0x0, 0x0, 0x0, false⟩,
  ⟨0x02000008, 0x10, 2112, 0x0, 1, 0xF, 0x0, 0x0, 0x30, false⟩,
  ⟨0x02010000, 0x4, 66, 0x0, 1, 0x0, 0xFFFFFFFF, 0x0, 0x0, false⟩,
  ⟨0x02010200, 0x4, 66, 0x0, 1, 0xFFFFFFFF, 0x0, 0x0, 0x0, false⟩,
  ⟨0x02010400, 0x4, 66, 0x0, 1, 0x0, 0x0, 0x0, 0x0, false⟩,
  ⟨0x00000100, 0x0, 1, 0x0, 1, 0x0, 0x0, 0x0, 0x0, false⟩,
  ⟨0x00000104, 0x0, 1, 0x0, 1, 0x0, 0x0, 0x0, 0x0, false⟩,
  ⟨0x01500000, 0x0, 1, 0x0, 1, 0x0, 0x0, 0x0, 0x0, false⟩,
  ⟨0x01500004, 0x0, 1, 0x0, 1, 0x0, 0x0, 0x0, 0x0, false⟩,
  ⟨0x01500008, 0x0, 1, 0x0, 1, 0x0, 0x0, 0x0, 0x0, false⟩,
  ⟨0x0150000C, 0x0, 1, 0x0, 1, 0x0, 0x0, 0x0, 0x0, false⟩,
  ⟨0x01500010, 0x0, 1, 0x0, 1, 0x0, 0x0, 0x1FF03FF, 0xF00000, false⟩,
  ⟨0x01500014, 0x0, 1, 0x0, 1, 0x0, 0x0, 0xFFFFFFFF, 0x40000000, false⟩,
  ⟨0x01500100, 0x4, 16, 0x0, 1, 0x0, 0x0, 0x0, 0x0, false⟩,
  ⟨0x01501000, 0x10, 64, 0x0, 1, 0xFFFFFFFF, 0x0, 0x0, 0x0, false⟩,
  ⟨0x01501004, 0x10, 64, 0x0, 1, 0x0, 0x0, 0x0, 0x0, false⟩,
  ⟨0x01501008, 0x10, 64, 0x0, 1, 0x0, 0x0, 0x0, 0x0, false⟩]

/-- Descriptors, part 2, in the order of the chapters. -/
def regDescs2 : List RegDesc := [
  ⟨0x0150100C, 0x10, 64, 0x0, 1, 0x0, 0x0, 0x0, 0x0, false⟩,
  ⟨0x01800000, 0x0, 1, 0x0, 1, 0x0, 0x0, 0x0, 0x1, false⟩,
  ⟨0x01800004, 0x0, 1, 0x0, 1, 0x0, 0x0, 0x0, 0x0, false⟩,
  ⟨0x01800008, 0x0, 1, 0x0, 1, 0x0, 0x0, 0x0, 0x0, false⟩,
  ⟨0x0180000C, 0x0, 1, 0x0, 1, 0x0, 0x0, 0x0, 0xFFFFFFFF, false⟩,
  ⟨0x01800010, 0x0, 1, 0x0, 1, 0x0, 0x0, 0x0, 0x0, false⟩,
  ⟨0x01800014, 0x0, 1, 0x0, 1, 0x0, 0x0, 0x0, 0x0, false⟩,
  ⟨0x01800018, 0x0, 1, 0x0, 1, 0x0, 0x0, 0x0, 0x0, false⟩,
  ⟨0x0180001C, 0x0, 1, 0x0, 1, 0x0, 0x0, 0x0, 0x0, false⟩,
  ⟨0x01800020, 0x0, 1, 0x0, 1, 0x0, 0x0, 0x0, 0x0, false⟩,
  ⟨0x01800024, 0x0, 1, 0x0, 1, 0xFFFFFFFF, 0x0, 0x0, 0x0, false⟩,
  ⟨0x01800028, 0x0, 1, 0x0, 1, 0xFFFFFFFF, 0x0, 0x0, 0x0, false⟩,
  ⟨0x0180002C, 0x0, 1, 0x0, 1, 0x8000007F, 0x0, 0x0, 0x0, false⟩,
  ⟨0x01800030, 0x0, 1, 0x0, 1, 0x0, 0x0, 0x1FF000F, 0x1F40000, false⟩,
  ⟨0x01800034, 0x0, 1, 0x0, 1, 0x0, 0x0, 0xFFFFFFFF, 0x0, false⟩,
  ⟨0x01800038, 0x0, 1, 0x0, 1, 0x0, 0x0, 0x0, 0x0, false⟩,
  ⟨0x0180003C, 0x0, 1, 0x0, 1, 0x0, 0x0, 0x0, 0x0, false⟩,
  ⟨0x01408000, 0x0, 1, 0x0, 1, 0x0, 0x0, 0x0, 0x20000000, false⟩,
  ⟨0x01408004, 0x0, 1, 0x0, 1, 0x0, 0x0, 0x0, 0x0, false⟩,
  ⟨0x01408008, 0x0, 1, 0x0, 1, 0x0, 0x0, 0x0, 0x0, false⟩,
  ⟨0x0140800C, 0x0, 1, 0x0, 1, 0x0, 0x0, 0x0, 0x0, false⟩,
  ⟨0x01408010, 0x0, 1, 0x0, 1, 0x0, 0x0, 0x0, 0x40, false⟩,
  ⟨0x01408014, 0x0, 1, 0x0, 1, 0x0, 0x0, 0x0, 0xFFFFFFFF, false⟩,
  ⟨0x01408018, 0x0, 1, 0x0, 1, 0x0, 0x0, 0x0, 0x0, false⟩,
  ⟨0x0140801C, 0x0, 1, 0x0, 1, 0x0, 0x0, 0x0, 0xFFFFFFFF, false⟩,
  ⟨0x01408020, 0x0, 1, 0x0, 1, 0x0, 0x0, 0x0, 0x40, false⟩,
  ⟨0x01408024, 0x0, 1, 0x0, 1, 0x0, 0x0, 0x3FF, 0x40, false⟩,
  ⟨0x01408028, 0x0, 1, 0x0, 1, 0x0, 0x0, 0x0, 0x0, false⟩,
  ⟨0x0140802C, 0x0, 1, 0x0, 1, 0x0, 0x0, 0x0, 0x0, false⟩,
  ⟨0x01408030, 0x0, 1, 0x0, 1, 0x0, 0x0, 0x0, 0x0, false⟩,
  ⟨0x01408034, 0x0, 1, 0x0, 1, 0x0, 0x0, 0x0, 0x0, false⟩,
  ⟨0x01408038, 0x0, 1, 0x0, 1, 0x0, 0x0, 0x0, 0x0, false⟩,
  ⟨0x0140803C, 0x0, 1, 0x0, 1, 0x0, 0x0, 0x0, 0x0, false⟩,
  ⟨0x01408040, 0x4, 5, 0x0, 1, 0x0, 0x0, 0x0, 0x0, false⟩,
  ⟨0x01408060, 0x0, 1, 0x0, 1, 0x0, 0x0, 0x0, 0x0, false⟩,
  ⟨0x01408064, 0x0, 1, 0x0, 1, 0x0, 0x0, 0x0, 0x0, false⟩,
  ⟨0x01480000, 0x0, 1, 0x0, 1, 0x0, 0x0, 0x0, 0x0, false⟩,
  ⟨0x01480004, 0x0, 1, 0x0, 1, 0x0, 0x0, 0x0, 0x0, false⟩,
  ⟨0x01480008, 0x0, 1, 0x0, 1, 0x0, 0x0, 0x0, 0x0, false⟩,
  ⟨0x0148000C, 0x0, 1, 0x0, 1, 0x0, 0x0, 0x0, 0x0, false⟩]

/-- Descriptors, part 3, in the order of the chapters. -/
def regDescs3 : List RegDesc := [
  ⟨0x01480010, 0x0, 1, 0x0, 1, 0x0, 0x0, 0x0, 0x0, false⟩,
  ⟨0x01480014, 0x0, 1, 0x0, 1, 0x0, 0x0, 0x0, 0x0, false⟩,
  ⟨0x01480018, 0x0, 1, 0x0, 1, 0x0, 0x0, 0x0, 0x0, false⟩,
  ⟨0x0148001C, 0x0, 1, 0x0, 1, 0x0, 0x0, 0x0, 0x0, false⟩,
  ⟨0x01480020, 0x0, 1, 0x0, 1, 0x0, 0x0, 0x0, 0x0, false⟩,
  ⟨0x01480024, 0x0, 1, 0x0, 1, 0x0, 0x0, 0x0, 0x0, false⟩,
  ⟨0x01480028, 0x0, 1, 0x0, 1, 0x0, 0x0, 0x0, 0x3E8, false⟩,
  ⟨0x0148002C, 0x0, 1, 0x0, 1, 0x0, 0x0, 0x0, 0x0, false⟩,
  ⟨0x01480030, 0x0, 1, 0x0, 1, 0x0, 0x0, 0x0, 0x0, false⟩,
  ⟨0x01480034, 0x0, 1, 0x0, 1, 0x0, 0x0, 0x0, 0x0, false⟩,
  ⟨0x01480038, 0x0, 1, 0x0, 1, 0x0, 0x0, 0x0, 0x0, false⟩,
  ⟨0x01400000, 0x0, 1, 0x0, 1, 0x0, 0x0, 0x0, 0x0, false⟩,
  ⟨0x01400004, 0x0, 1, 0x0, 1, 0x0, 0x0, 0x33F, 0x220, false⟩,
  ⟨0x01400008, 0x0, 1, 0x0, 1, 0x0, 0x0, 0xFFFFFFFF, 0xFFFFFFFF, false⟩,
  ⟨0x0140000C, 0x0, 1, 0x0, 1, 0x0, 0x0, 0xFFFFFFFF, 0xFFFFFFFF, false⟩,
  ⟨0x01400010, 0x0, 1, 0x0, 1, 0x0, 0x0, 0x0, 0x0, false⟩,
  ⟨0x01400014, 0x0, 1, 0x0, 1, 0x0, 0x0, 0x0, 0x0, false⟩,
  ⟨0x01400018, 0x0, 1, 0x0, 1, 0x0, 0x0, 0x0, 0x0, false⟩,
  ⟨0x0140001C, 0x0, 1, 0x0, 1, 0xFFFFFFFF, 0x0, 0x0, 0xFA0, false⟩,
  ⟨0x01400020, 0x0, 1, 0x0, 1, 0x0, 0x0, 0x0, 0x0, false⟩,
  ⟨0x01400024, 0x0, 1, 0x0, 1, 0x0, 0x0, 0x0, 0x0, false⟩,
  ⟨0x01400028, 0x0, 1, 0x0, 1, 0x0, 0x0, 0x0, 0x0, false⟩,
  ⟨0x01401000, 0x4, 512, 0x0, 1, 0x0, 0x0, 0x0, 0x0, false⟩,
  ⟨0x00800000, 0x4000, 64, 0x0, 1, 0x0, 0x0, 0x0, 0x0, false⟩,
  ⟨0x00800004, 0x4000, 64, 0x0, 1, 0x0, 0x0, 0x0, 0x0, false⟩,
  ⟨0x00800008, 0x4000, 64, 0x0, 1, 0x0, 0x0, 0x0, 0x0, false⟩,
  ⟨0x0080000C, 0x4000, 64, 0x0, 1, 0x0, 0x0, 0x0, 0x0, false⟩,
  ⟨0x00800010, 0x4000, 64, 0x0, 1, 0x0, 0x0, 0x0, 0x0, false⟩,
  ⟨0x00800014, 0x4000, 64, 0x0, 1, 0x0, 0x0, 0x0, 0x0, false⟩,
  ⟨0x00800018, 0x4000, 64, 0x0, 1, 0x0, 0x0, 0x0, 0x0, false⟩,
  ⟨0x0080001C, 0x4000, 64, 0x0, 1, 0x0, 0x0, 0x0, 0x0, false⟩,
  ⟨0x00800020, 0x4000, 64, 0x0, 1, 0x0, 0x0, 0x0, 0x0, false⟩,
  ⟨0x00800024, 0x4000, 64, 0x0, 1, 0x0, 0x0, 0x0, 0x0, false⟩,
  ⟨0x00800028, 0x4000, 64, 0x0, 1, 0x0, 0x0, 0x0, 0x0, false⟩,
  ⟨0x00800100, 0x4000, 64, 0x4, 64, 0x0, 0x0, 0x0, 0x0, false⟩,
  ⟨0x00800200, 0x4000, 64, 0x4, 256, 0x0, 0x0, 0x0, 0x0, false⟩,
  ⟨0x01000000, 0x1000, 512, 0x0, 1, 0x0, 0x0, 0x0, 0xC000000, false⟩,
  ⟨0x01000004, 0x1000, 512, 0x0, 1, 0x0, 0x0, 0x0, 0x0, false⟩,
  ⟨0x01000008, 0x1000, 512, 0x0, 1, 0x0, 0x0, 0x0, 0x0, false⟩,
  ⟨0x0100000C, 0x1000, 512, 0x0, 1, 0x0, 0x0, 0x0, 0x2000000, false⟩]

/-- Descriptors, part 4, in the order of the chapters. -/
def regDescs4 : List RegDesc := [
  ⟨0x01000010, 0x1000, 512, 0x0, 1, 0x0, 0x0, 0x0, 0x0, false⟩,
  ⟨0x01000014, 0x1000, 512, 0x0, 1, 0x0, 0x0, 0x0, 0x0, false⟩,
  ⟨0x01000018, 0x1000, 512, 0x0, 1, 0x0, 0x0, 0x0, 0x0, false⟩,
  ⟨0x0100001C, 0x1000, 512, 0x0, 1, 0x0, 0x0, 0x0, 0x0, false⟩,
  ⟨0x01000020, 0x1000, 512, 0x0, 1, 0x0, 0x0, 0x0, 0x0, false⟩,
  ⟨0x01000024, 0x1000, 512, 0x0, 1, 0x3FFFFF00, 0x0, 0x0, 0x14000000, false⟩,
  ⟨0x01000028, 0x1000, 512, 0x0, 1, 0x0, 0x0, 0x0, 0x0, false⟩,
  ⟨0x0100002C, 0x1000, 512, 0x0, 1, 0x307, 0x0, 0x0, 0x0, false⟩,
  ⟨0x01000030, 0x1000, 512, 0x0, 1, 0x0, 0x0, 0x0, 0x0, false⟩,
  ⟨0x01000034, 0x1000, 512, 0x0, 1, 0x0, 0x0, 0x0, 0x0, false⟩,
  ⟨0x01000100, 0x1000, 512, 0x0, 1, 0x0, 0x0, 0x0, 0x0, false⟩,
  ⟨0x01000104, 0x1000, 512, 0x0, 1, 0x0, 0x0, 0x0, 0x0, false⟩,
  ⟨0x01000108, 0x1000, 512, 0x0, 1, 0x0, 0x0, 0x0, 0x0, false⟩,
  ⟨0x0100010C, 0x1000, 512, 0x0, 1, 0x0, 0x0, 0x0, 0x0, false⟩,
  ⟨0x01000110, 0x1000, 512, 0x0, 1, 0x0, 0x0, 0x0, 0x0, false⟩,
  ⟨0x01000114, 0x1000, 512, 0x0, 1, 0x0, 0x0, 0x0, 0x0, false⟩,
  ⟨0x01000118, 0x1000, 512, 0x0, 1, 0x0, 0x0, 0x0, 0x0, false⟩,
  ⟨0x0100011C, 0x1000, 512, 0x0, 1, 0x0, 0x0, 0x0, 0x80008000, false⟩,
  ⟨0x01000120, 0x1000, 512, 0x0, 1, 0x0, 0x0, 0x0, 0x0, false⟩,
  ⟨0x00400000, 0x0, 1, 0x0, 1, 0x0, 0x0, 0x0, 0x0, false⟩,
  ⟨0x00400004, 0x0, 1, 0x0, 1, 0x0, 0x0, 0x0, 0x0, false⟩,
  ⟨0x00400008, 0x0, 1, 0x0, 1, 0x0, 0x0, 0x0, 0x0, false⟩,
  ⟨0x0040000C, 0x0, 1, 0x0, 1, 0x0, 0x0, 0x0, 0x0, false⟩,
  ⟨0x00400100, 0x4, 25, 0x0, 1, 0x0, 0x0, 0x0, 0x0, false⟩,
  ⟨0x00400180, 0x4, 24, 0x0, 1, 0x0, 0x0, 0x0, 0x0, false⟩,
  ⟨0x00410000, 0x1000, 16, 0x0, 1, 0x0, 0x0, 0x0, 0x0, false⟩,
  ⟨0x00410004, 0x1000, 16, 0x0, 1, 0x0, 0x0, 0x0, 0x0, false⟩,
  ⟨0x00480000, 0x10, 1024, 0x0, 1, 0x0, 0x0, 0x0, 0x0, false⟩,
  ⟨0x00480004, 0x10, 1024, 0x0, 1, 0x0, 0x0, 0x0, 0x0, false⟩,
  ⟨0x00480008, 0x10, 1024, 0x0, 1, 0x0, 0x0, 0x0, 0x0, false⟩,
  ⟨0x0048000C, 0x10, 1024, 0x0, 1, 0x0, 0x0, 0x0, 0x0, false⟩,
  ⟨0x00200000, 0x8000, 24, 0x0, 1, 0x0, 0x0, 0x0, 0x0, false⟩,
  ⟨0x00200004, 0x8000, 24, 0x0, 1, 0x0, 0x0, 0x0, 0x0, false⟩,
  ⟨0x00200008, 0x8000, 24, 0x0, 1, 0x0, 0x0, 0x0, 0x0, false⟩,
  ⟨0x0020000C, 0x8000, 24, 0x0, 1, 0x0, 0x0, 0x0, 0x0, false⟩,
  ⟨0x00200010, 0x8000, 24, 0x0, 1, 0x0, 0x0, 0x0, 0x0, false⟩,
  ⟨0x00200014, 0x8000, 24, 0x0, 1, 0x0, 0x0, 0x0, 0x3F, false⟩,
  ⟨0x00200018, 0x8000, 24, 0x0, 1, 0x0, 0x0, 0x0, 0x0, false⟩,
  ⟨0x0020001C, 0x8000, 24, 0x0, 1, 0x0, 0x0, 0x0, 0x0, false⟩,
  ⟨0x00200020, 0x8000, 24, 0x0, 1, 0x0, 0x0, 0x0, 0x0, false⟩]

/-- Descriptors, part 5, in the order of the chapters. -/
def regDescs5 : List RegDesc := [
  ⟨0x00200024, 0x8000, 24, 0x0, 1, 0x0, 0x0, 0x0, 0x0, false⟩,
  ⟨0x00200028, 0x8000, 24, 0x0, 1, 0x0, 0x0, 0x0, 0x0, false⟩,
  ⟨0x00204000, 0x0, 1, 0x0, 1, 0x0, 0x0, 0x0, 0x0, false⟩,
  ⟨0x00204004, 0x0, 1, 0x0, 1, 0x0, 0x0, 0x0, 0x0, false⟩,
  ⟨0x00204008, 0x0, 1, 0x0, 1, 0x0, 0x0, 0x0, 0x0, false⟩,
  ⟨0x00204100, 0x8, 32, 0x0, 1, 0x0, 0x0, 0x0, 0x0, false⟩,
  ⟨0x00204104, 0x8, 32, 0x0, 1, 0x0, 0x0, 0x0, 0x0, false⟩,
  ⟨0x00204200, 0x0, 1, 0x0, 1, 0x0, 0x0, 0x0, 0x0, false⟩,
  ⟨0x00204204, 0x0, 1, 0x0, 1, 0xFFFFFFFF, 0x0, 0x0, 0x0, false⟩,
  ⟨0x00204208, 0x0, 1, 0x0, 1, 0xFFFFFFFF, 0x0, 0x0, 0x0, false⟩,
  ⟨0x00204210, 0x4, 16, 0x0, 1, 0xFFFFFFFF, 0x0, 0x0, 0x0, false⟩,
  ⟨0x00204250, 0x4, 2, 0x0, 1, 0xFFFFFFFF, 0x0, 0x0, 0x0, false⟩,
  ⟨0x00204258, 0x0, 1, 0x0, 1, 0x0, 0x0, 0x0, 0xFC00000, false⟩,
  ⟨0x00104000, 0x800, 4, 0x4, 192, 0x0, 0x0, 0xFFFFFFFF, 0x0, false⟩,
  ⟨0x00104300, 0x800, 4, 0x0, 1, 0x0, 0x0, 0x0, 0x0, false⟩,
  ⟨0x00104304, 0x800, 4, 0x0, 1, 0x0, 0xFF, 0x0, 0x0, false⟩,
  ⟨0x00104308, 0x800, 4, 0x0, 1, 0x1, 0x0, 0x0, 0x0, false⟩,
  ⟨0x0010430C, 0x800, 4, 0x0, 1, 0xFFFFFFFF, 0x0, 0x0, 0x0, false⟩,
  ⟨0x00104310, 0x800, 4, 0x0, 1, 0xFFFFFFFF, 0x0, 0x0, 0xF3330000, false⟩,
  ⟨0x00104314, 0x800, 4, 0x0, 1, 0xFFFF00FF, 0x0, 0x0, 0x80, false⟩,
  ⟨0x00104318, 0x800, 4, 0x0, 1, 0x0, 0x0, 0x0, 0x0, false⟩,
  ⟨0x0010431C, 0x800, 4, 0x0, 1, 0x0, 0x0, 0x0, 0x0, false⟩,
  ⟨0x00104320, 0x800, 4, 0x0, 1, 0x0, 0x0, 0x0, 0x0, false⟩,
  ⟨0x00104324, 0x800, 4, 0x0, 1, 0x0, 0x0, 0x0, 0x0, false⟩,
  ⟨0x00104328, 0x800, 4, 0x0, 1, 0x0, 0x0, 0x0, 0x0, false⟩,
  ⟨0x0010432C, 0x800, 4, 0x0, 1, 0x0, 0x0, 0x0, 0x0, false⟩,
  ⟨0x00104330, 0x800, 4, 0x4, 8, 0x0, 0x0, 0x0, 0x0, false⟩,
  ⟨0x00104350, 0x800, 4, 0x0, 1, 0x0, 0x0, 0x0, 0x0, false⟩,
  ⟨0x00104354, 0x800, 4, 0x0, 1, 0x1FF03FFF, 0x0, 0x0, 0x0, false⟩,
  ⟨0x00104358, 0x800, 4, 0x0, 1, 0xFFFFFFFF, 0x0, 0x0, 0x0, false⟩,
  ⟨0x0010435C, 0x800, 4, 0x0, 1, 0xFFFFFFFF, 0x0, 0x0, 0x0, false⟩,
  ⟨0x00104360, 0x800, 4, 0x0, 1, 0x0, 0x0, 0x0, 0x0, false⟩,
  ⟨0x00102000, 0x0, 1, 0x0, 1, 0x0, 0x0, 0x0, 0x0, false⟩,
  ⟨0x00102004, 0x0, 1, 0x0, 1, 0x0, 0x0, 0x0, 0x0, false⟩,
  ⟨0x00102008, 0x0, 1, 0x0, 1, 0x0, 0x0, 0x0, 0x0, false⟩,
  ⟨0x0010200C, 0x0, 1, 0x0, 1, 0xFFFF, 0x0, 0x0, 0x7D0, false⟩,
  ⟨0x00102010, 0x0, 1, 0x0, 1, 0x0, 0x0, 0x0, 0x0, false⟩,
  ⟨0x00102014, 0x0, 1, 0x0, 1, 0x0, 0x0, 0x0, 0x0, false⟩,
  ⟨0x00102018, 0x0, 1, 0x0, 1, 0x3, 0x0, 0x0, 0x0, false⟩,
  ⟨0x00102100, 0x40, 4, 0x0, 1, 0x0, 0x0, 0x0, 0x0, false⟩]

/-- Descriptors, part 6, in the order of the chapters. -/
def regDescs6 : List RegDesc := [
  ⟨0x00102104, 0x40, 4, 0x0, 1, 0x0, 0x0, 0x0, 0x0, false⟩,
  ⟨0x00102108, 0x40, 4, 0x0, 1, 0x0, 0x0, 0x0, 0x0, false⟩,
  ⟨0x0010210C, 0x40, 4, 0x0, 1, 0x0, 0x0, 0x0, 0x0, false⟩,
  ⟨0x00102110, 0x40, 4, 0x0, 1, 0x0, 0x0, 0x0, 0x0, false⟩,
  ⟨0x00102114, 0x40, 4, 0x0, 1, 0x0, 0x0, 0x0, 0x0, false⟩,
  ⟨0x00102118, 0x40, 4, 0x0, 1, 0x0, 0x0, 0x0, 0x0, false⟩,
  ⟨0x00100000, 0x0, 1, 0x0, 1, 0x0, 0x0, 0x0, 0x0, false⟩,
  ⟨0x00100004, 0x0, 1, 0x0, 1, 0x0, 0x0, 0x37F, 0x37F, false⟩,
  ⟨0x00100008, 0x0, 1, 0x0, 1, 0x0, 0x0, 0xFFFFFFFF, 0x0, false⟩,
  ⟨0x0010000C, 0x0, 1, 0x0, 1, 0x0, 0x0, 0x0, 0x0, true⟩,
  ⟨0x00100010, 0x0, 1, 0x0, 1, 0x0, 0x0, 0x0, 0x0, true⟩,
  ⟨0x00100014, 0x0, 1, 0x0, 1, 0x0, 0x0, 0x0, 0x0, true⟩,
  ⟨0x00100018, 0x0, 1, 0x0, 1, 0x0, 0x0, 0x0, 0x0, false⟩,
  ⟨0x0010001C, 0x0, 1, 0x0, 1, 0x0, 0x0, 0x0, 0x5, false⟩,
  ⟨0x00100020, 0x0, 1, 0x0, 1, 0x0, 0x0, 0x0, 0x0, false⟩,
  ⟨0x00100024, 0x0, 1, 0x0, 1, 0x0, 0x0, 0x0, 0x0, false⟩,
  ⟨0x00100028, 0x0, 1, 0x0, 1, 0x0, 0x0, 0x0, 0x0, false⟩,
  ⟨0x00101000, 0x0, 1, 0x0, 1, 0x0, 0x0, 0x0, 0x0, false⟩,
  ⟨0x00101004, 0x0, 1, 0x0, 1, 0x0, 0x0, 0x0, 0x80008000, false⟩,
  ⟨0x00101008, 0x0, 1, 0x0, 1, 0x0, 0x0, 0x0, 0x0, false⟩,
  ⟨0x0010100C, 0x0, 1, 0x0, 1, 0x0, 0x0, 0x0, 0x0, false⟩,
  ⟨0x00101010, 0x0, 1, 0x0, 1, 0x0, 0x0, 0xFF, 0x5F, false⟩,
  ⟨0x00101014, 0x0, 1, 0x0, 1, 0x0, 0x0, 0xFF, 0x69, false⟩,
  ⟨0x00101018, 0x0, 1, 0x0, 1, 0x0, 0x0, 0xFFFF, 0x1388, false⟩,
  ⟨0x0010101C, 0x0, 1, 0x0, 1, 0x0, 0x0, 0x1, 0x1, false⟩,
  ⟨0x00101020, 0x0, 1, 0x0, 1, 0x0, 0x0, 0xFFFF, 0x5F55, false⟩,
  ⟨0x00101024, 0x0, 1, 0x0, 1, 0x0, 0x0, 0x3FF, 0x80, false⟩,
  ⟨0x00101028, 0x0, 1, 0x0, 1, 0x0, 0x0, 0x0, 0x0, false⟩,
  ⟨0x0010102C, 0x0, 1, 0x0, 1, 0x0, 0x0, 0x0, 0x0, false⟩,
  ⟨0x00101030, 0x0, 1, 0x0, 1, 0x0, 0x0, 0x0, 0x0, false⟩,
  ⟨0x00101034, 0x0, 1, 0x0, 1, 0x0, 0x0, 0x0, 0x80000000, false⟩,
  ⟨0x00101040, 0x4, 4, 0x0, 1, 0x0, 0x0, 0x0, 0x0, false⟩,
  ⟨0x01C01018, 0x0, 1, 0x0, 1, 0x0, 0x0, 0x0, 0x0, true⟩,
  ⟨0x01C00000, 0x400, 4, 0x0, 1, 0x0, 0x0, 0x0, 0x0, true⟩,
  ⟨0x01C00004, 0x400, 4, 0x0, 1, 0x0, 0x0, 0x0, 0x0, true⟩,
  ⟨0x01C00100, 0x400, 4, 0x4, 64, 0xFFFFFFFF, 0x0, 0x0, 0x0, true⟩,
  ⟨0x01C00200, 0x400, 4, 0x4, 128, 0x0, 0x0, 0x0, 0x0, true⟩,
  ⟨0x01C0101C, 0x0, 1, 0x0, 1, 0x7F, 0x0, 0x0, 0x0, true⟩,
  ⟨0x01C01020, 0x0, 1, 0x0, 1, 0x0, 0x0, 0x0, 0x0, true⟩,
  ⟨0x01C01024, 0x0, 1, 0x0, 1, 0x0, 0x0, 0x0, 0xF1B5, true⟩]

/-- Descriptors, part 7, in the order of the chapters. -/
def regDescs7 : List RegDesc := [
  ⟨0x01C01028, 0x0, 1, 0x0, 1, 0x0, 0x0, 0x0, 0x0, true⟩,
  ⟨0x01C0102C, 0x0, 1, 0x0, 1, 0x0, 0x0, 0x0, 0x0, true⟩,
  ⟨0x01C01030, 0x0, 1, 0x0, 1, 0x0, 0x0, 0x0, 0x0, true⟩,
  ⟨0x01C01034, 0x0, 1, 0x0, 1, 0x0, 0x0, 0x0, 0x0, true⟩,
  ⟨0x01C01038, 0x0, 1, 0x0, 1, 0x0, 0x0, 0x0, 0x0, true⟩,
  ⟨0x01C0103C, 0x0, 1, 0x0, 1, 0x0, 0x0, 0x0, 0x0, true⟩,
  ⟨0x01C01040, 0x0, 1, 0x0, 1, 0x0, 0x0, 0xFFFFFFFF, 0x18001E, false⟩,
  ⟨0x01C01044, 0x0, 1, 0x0, 1, 0x0, 0x0, 0xFFFFFFFF, 0x3C005A, false⟩,
  ⟨0x01C01048, 0x0, 1, 0x0, 1, 0x0, 0x0, 0xFFFFFFFF, 0xA00A8, false⟩,
  ⟨0x01C0104C, 0x0, 1, 0x0, 1, 0x0, 0x0, 0x1FFFF, 0x5A, false⟩]

/-- Every register of the file. -/
def regDescs : List RegDesc :=
  regDescs1 ++ regDescs2 ++ regDescs3 ++ regDescs4 ++ regDescs5 ++ regDescs6 ++ regDescs7

/-- The offset is one of the descriptor's registers. -/
def RegDesc.holds (d : RegDesc) (off : Nat) : Bool :=
  let r := off - d.base
  if d.count1 = 1 && d.count2 = 1 then off == d.base
  else if off < d.base then false
  else if d.count2 = 1 then r % d.stride1 == 0 && r / d.stride1 < d.count1
  else r / d.stride1 < d.count1 && r % d.stride1 % d.stride2 == 0 && r % d.stride1 / d.stride2 < d.count2

/-- The descriptor of the register at an offset; none where the offset is unassigned (00_scope.md R14). -/
def regDesc (off : Nat) : Option RegDesc := regDescs.find? (fun d => d.holds off)

/-- The MANTLE_PLANT slot block word at byte b of the block, every field at its default (04 Table 4.11). -/
def plantDefault (b : Nat) : Word :=
  if b = 0x00 then 0x01010100 else if b = 0x04 then 0x180000FA else if b = 0x0C then 0xFFFFFFFF
  else if b = 0x10 ∨ b = 0x14 ∨ b = 0x18 then 1 else 0

/-- What the register at an offset holds after its reset; 0 where the offset is unassigned. -/
def resetWord (off : Nat) : Word :=
  if 0x00104000 ≤ off ∧ off < 0x00106000 ∧ (off - 0x00104000) % 0x800 < 0x300 then plantDefault ((off - 0x00104000) % 0x800)
  else match regDesc off with
  | some d => BitVec.ofNat 32 d.reset
  | none => 0

/-- The bits of a register that a fitting stages (access code RWF); every other bit of such a register is reserved
(05 R153). -/
def isRwf (off : Nat) : Bool :=
  match regDesc off with
  | some d => d.rwf != 0
  | none => false

/-- A register field that mirrors a field of an image record (04 Table 4.2, rows whose values a fitting changes; 05 R151):
the field, the record type, the byte offset and the size in the record body. -/
structure ImgField where
  field : Field
  ty : Nat
  off : Nat
  size : Nat
  deriving DecidableEq, Repr

/-- Every such field but the MANTLE_PLANT words, which mirror their block word for word (18 R662). -/
def imgFields : List ImgField := [
  ⟨Reg.STR_DW_CFG_STAGING_GIB, 0x50, 6, 2⟩,
  ⟨Reg.STR_POLICY_PARITY, 0x20, 1, 1⟩,
  ⟨Reg.STR_POLICY_WIDTH, 0x20, 0, 1⟩,
  ⟨Reg.STR_META_GROUPS_LO_GROUPS, 0x20, 8, 4⟩,
  ⟨Reg.THM_WARN_C_C, 0x70, 0, 1⟩,
  ⟨Reg.THM_ENFORCE_C_C, 0x70, 1, 1⟩,
  ⟨Reg.THM_GRACE_MS, 0x70, 2, 2⟩,
  ⟨Reg.THM_POLICY_RESTART, 0x70, 4, 1⟩,
  ⟨Reg.THM_BRIDGE_WARN_C, 0x70, 5, 1⟩,
  ⟨Reg.THM_BRIDGE_ENFORCE_C, 0x70, 6, 1⟩,
  ⟨Reg.THM_COOL_LINKS_LINKS, 0x70, 8, 2⟩,
  ⟨Reg.PWR_CFG_WAKE_MASK, 0x80, 0, 2⟩,
  ⟨Reg.PWR_CFG_DOZE_PARK, 0x80, 2, 1⟩,
  ⟨Reg.PWR_CFG_AVS, 0x80, 3, 1⟩,
  ⟨Reg.PWR_WAKE_TIMER_S, 0x80, 4, 4⟩,
  ⟨Reg.STP_CFG_ROLE, 0x90, 0, 1⟩,
  ⟨Reg.STP_CFG_REF, 0x90, 1, 1⟩,
  ⟨Reg.STP_RIG_ID_ID, 0x90, 4, 4⟩,
  ⟨Reg.STP_CFG_OSC_PPB, 0x90, 8, 2⟩,
  ⟨Reg.TAK_DEF_CFG_PRETRIGGER_S, 0xA0, 0, 2⟩,
  ⟨Reg.TAK_DEF_CFG_STREAMS_MAX, 0xA0, 2, 1⟩,
  ⟨Reg.TAK_DEF_CFG_TRIGGER_SRC, 0xA0, 3, 1⟩,
  ⟨Reg.TAK_DEF_FRAME_MAX_BYTES, 0xA0, 4, 4⟩,
  ⟨Reg.TAK_DEF_CFG_HOST_TIME, 0xA0, 8, 1⟩,
  ⟨Reg.BEL_MAINT_CFG0_AUDIT_DAYS, 0xC0, 0, 2⟩,
  ⟨Reg.BEL_MAINT_CFG0_SCRUB_HOURS, 0xC0, 2, 2⟩,
  ⟨Reg.BEL_MAINT_CFG1_RETENTION_DAYS, 0xC0, 4, 2⟩,
  ⟨Reg.BEL_MAINT_CFG1_LINK_RECAL_MIN, 0xC0, 6, 2⟩,
  ⟨Reg.BEL_MAINT_CFG2_THRESH_RECAL_H, 0xC0, 8, 2⟩,
  ⟨Reg.BEL_MAINT_CFG2_CHECKPOINT_S, 0xC0, 10, 2⟩,
  ⟨Reg.BEL_MAINT_CFG3_LEARN_DAYS, 0xC0, 12, 2⟩,
  ⟨Reg.BEL_MAINT_CFG3_DURING_TAKE, 0xC0, 14, 1⟩]

/-- The adoption class of the RWF register at an offset (05 Table 5.10). -/
def adoptClass (off : Nat) : Option Nat :=
  if 0x00104000 ≤ off ∧ off < 0x00106000 then
    (if isRwf off then some (2 + (off - 0x00104000) / 0x800) else none)
  else if off = Reg.STR_DW_CFG then some 0
  else if off = Reg.STR_POLICY ∨ off = Reg.STR_META_GROUPS_LO ∨ off = Reg.STR_META_GROUPS_HI then some 1
  else if 0x00101010 ≤ off ∧ off ≤ 0x00101024 then some 6
  else if off = Reg.PWR_CFG ∨ off = Reg.PWR_WAKE_TIMER then some 7
  else if off = Reg.STP_CFG ∨ off = Reg.STP_RIG_ID then some 8
  else if off = Reg.TAK_DEF_CFG ∨ off = Reg.TAK_DEF_FRAME_MAX then some 9
  else if Reg.BEL_MAINT_CFG0 ≤ off ∧ off ≤ Reg.BEL_MAINT_CFG3 then some 10
  else none

end Sys2Proof.Machine
end

