-- ==== Sys2Proof/Machine/State.lean ====
section
/-!
DEFINITION. Machine/State.lean: everything the manual gives the block, as plain data, the reasons a command can stop,
and the state right after reset. Register fields that software reads live in `regs`, the BAR2 register file; the
sub-structures hold what the manual gives the block beside it.
-/
namespace Sys2Proof.Machine

/-- A sparse table by number: keys strictly rising, no entry equal to what an unlisted key reads as. -/
abbrev SMap (V : Type) := List (Nat × V)

/-- Why the block stops. -/
inductive Fault where
  /-- Raised by no command: a command of this block always leaves a state. Safe. -/
  | stuck
  deriving DecidableEq, Repr

/-- Why a command has no meaning. -/
inductive Refusal where
  /-- Raised by an arm of exec whose command has no meaning yet. Safe. -/
  | notModelled (mnemonic : String)
  deriving DecidableEq, Repr

/-! ### Configuration image (04) -/

/-- A record of the configuration in force: its type, its ordinal among its type in the image, the fields that differ
from their defaults (by byte offset in the body) and, for a FLASH_PERSONALITY, its PTABLE. -/
structure Rec where
  ty : Nat
  inst : Nat
  vals : SMap Nat
  ptable : List Byte
  deriving DecidableEq, Repr

/-- An entry of a clamp report (04 Table 4.17). -/
structure ClampEntry where
  recordType : Nat
  inst : Nat
  location : Nat
  width : Nat
  lsb : Nat
  reason : Nat
  origin : Nat
  written : Nat
  applied : Nat
  deriving DecidableEq, Repr

/-- A clamp report (04 Table 4.16). -/
structure ClampReport where
  generation : Nat
  entries : List ClampEntry
  source : Nat
  overflow : Bool
  fallback : Bool
  noImage : Bool
  rollback : Bool
  slot : Nat
  refused : Nat
  check : Nat
  refuseCause : Nat
  checkType : Nat
  checkInstance : Nat
  imageVersion : Nat
  fitting : Nat
  imageId : Nat
  timeMs : Nat
  deriving DecidableEq, Repr

/-- The configuration: the records in force, whether an image is in force, and the three reports kept (04 R139, R140). -/
structure Image where
  cfg : List Rec
  inForce : Bool
  reports : Nat
  newest : Option ClampReport
  lastLoad : Option ClampReport
  lastCommit : Option ClampReport
  /-- Personalities (type codes) made unusable by R136. -/
  unusable : List Nat
  /-- The RAIL table in force, PMBus address and page of each rail: that of the first load after the aux reset (04 R120, R135). -/
  rails : Option (List (Nat × Nat))
  deriving DecidableEq, Repr

/-! ### Fittings and events (05) -/

/-- The open fitting: staged writes by offset, the snapshot of the committed RWF values that differ from their reset,
the time of the owner's last write, and the committed values still in force in blocks that have not adopted (R161). -/
structure Fit where
  staged : SMap Word
  snapshot : SMap Word
  lastActivity : Nat
  held : SMap Word
  deriving DecidableEq, Repr

/-- What event delivery has put out: MSI-X writes queued (controller, vector), sources delivered to the Belfry and to
the FTL cluster. -/
structure EvtOut where
  msix : List (Nat × Nat)
  belfry : List Nat
  ftl : List Nat
  deriving DecidableEq, Repr

/-! ### Start-up, trust and the board (02, 03) -/

/-- A component as a NOR slot holds it: its bytes, its version and security version, and its signature block with the
digest of the bytes the signature covers (03 R104). -/
structure SlotRec where
  present : Bool
  body : List Byte
  version : Nat
  svn : Nat
  sigType : Nat
  pubkey : List Byte
  sig : List Byte
  signed : BitVec 384
  digest : BitVec 384
  deriving DecidableEq, Repr

/-- What the boot state record says of one component kind (03 R102). -/
structure BootKind where
  active : Nat
  previous : Option Nat
  trial : Option Nat
  attempts : Nat
  deriving DecidableEq, Repr

/-- A Firmware Commit in progress (03 R109): its command, whether it marks a trial, the package, and the kinds the package holds. -/
structure CommitOp where
  cmd : Sqe
  trial : Bool
  buf : List Byte
  kinds : List Nat
  deriving DecidableEq, Repr

/-- Start-up, lifecycle, firmware slots and their update. -/
structure Boot where
  otp : SMap Word
  meas : SMap (BitVec 384)
  seq : Nat
  kinds : List BootKind
  slots : SMap SlotRec
  journalSuspect : Bool
  bootSel : Nat
  belfrySlotLatch : Nat
  belfryHalted : Bool
  phaseSince : Nat
  auxResetAt : Nat
  mainInitAt : Nat
  rdyAt : Option Nat
  recoveryBuf : SMap Byte
  fails : Nat
  onPrevious : Bool
  /-- The image load has run since the last main reset. -/
  loaded : Bool
  /-- The slot the running component of each kind was loaded from. -/
  running : SMap Nat
  /-- The END_REASON a take not closed gets at the next recovery (07 R288), of the last interruption after a recovery. -/
  lastEnd : Nat
  commit : Option CommitOp
  deriving DecidableEq, Repr

/-- Rails, pins and the orderly sequences of the board interface (02). -/
structure Board where
  vaux : Bool
  pwrKill : Bool
  thermTrip : Bool
  mainPg : Bool
  sysRst : Bool
  perst : List Bool
  mainRunning : Bool
  railStage : Nat
  railSince : Nat
  /-- When every rail of stage 5 reported POWER_GOOD (02 R63, R66). -/
  railDone : Option Nat
  /-- PWR_KILL_N was asserted while a power-up was in progress: no further enable is issued (02 R67). -/
  railsAbandoned : Bool
  /-- The VDD_CORE set-point in mV that VOUT_COMMAND gave last; 0 while the rail is off (02 R59). -/
  vcore : Nat
  /-- BEL_SPI_CLK, BEL_SPI_CS_N, BEL_SPI_IO and BEL_SPI_RESET_N are in high impedance: SPI release (03 R83). -/
  spiReleased : Bool
  railRetryAt : Option Nat
  railRetried : Bool
  railFault : Option Nat
  downStage : Nat
  pfiLow : Bool
  pfiSince : Nat
  /-- The loss in hand has been reported and its restoration not yet. -/
  pfiReport : Bool
  faultN : Bool
  faultNSince : Nat
  pulses : List (Nat × Nat)
  trigInLast : Option Nat
  belGpio : Nat
  deriving DecidableEq, Repr

/-! ### Host ports and NVMe (06) -/

/-- A submission queue. -/
structure Sq where
  size : Nat
  head : Nat
  tail : Nat
  cq : Nat
  prio : Nat
  deriving DecidableEq, Repr

/-- A completion queue. -/
structure Cq where
  size : Nat
  head : Nat
  tail : Nat
  vector : Nat
  ien : Bool
  deriving DecidableEq, Repr

/-- An asynchronous event waiting for a request: type, information and log page. -/
structure Aen where
  ty : Nat
  info : Nat
  page : Nat
  deriving DecidableEq, Repr

/-- An entry of the Error Information log: error count, queue, command, status and namespace. -/
structure ErrEntry where
  count : Nat
  sq : Nat
  cid : Nat
  sct : Nat
  sc : Nat
  nsid : Nat
  deriving DecidableEq, Repr

/-- The PCIe function of a controller (06 R177, R178): FLIT mode of its link; the writable bits of its configuration space by dword; how the
last configuration request was answered (none yet, Request Retry Status, or the word); MSI-X Enable and Function Mask, the vectors unmasked in
the table, the address and data words of the table by dword, the pending bits; the level of INTA. -/
structure Pcie where
  flit : Bool
  words : SMap Word
  answer : Option (Option Word)
  functionMask : Bool
  msixEnabled : Bool
  vecOpen : List Nat
  table : SMap Word
  pba : List Nat
  inta : Bool
  deriving DecidableEq, Repr

/-- A function after a reset that reaches its configuration space; vectors are masked and MSI-X disabled, as PCIe has them (PRESUMED, log entry 23). -/
def Pcie.reset : Pcie where
  flit := false
  words := []
  answer := none
  functionMask := false
  msixEnabled := false
  vecOpen := []
  table := []
  pba := []
  inta := false

/-- One controller and its PCIe link. `cc`, `aqa`, `asq`, `acq`, `intMask`: the NVMe registers of those names, of CC the bits that are not
EN and SHN; `coal`: the completions gathered for a vector, how many and since when (R185). -/
structure Ctrl where
  linkUp : Bool
  linkRate : Nat
  linkWidth : Nat
  training : Bool
  pcie : Pcie
  cc : Word
  aqa : Word
  asq : Nat
  acq : Nat
  intMask : Word
  coal : SMap (Nat × Nat)
  en : Bool
  rdy : Bool
  shn : Nat
  shst : Nat
  cfs : Bool
  sqs : SMap Sq
  cqs : SMap Cq
  numQueues : Nat
  aers : List Nat
  aenQueue : List Aen
  withheld : List Nat
  arbitration : Nat
  coalescing : Nat
  vecConfig : SMap Nat
  asyncConfig : Nat
  errLog : List ErrEntry
  errCount : Nat
  changedNs : List Nat
  download : List (Nat × List Byte)
  miResponse : List Byte
  /-- Weighted round robin: credits left of the high, medium and low class, the queue last served in each class (urgent 0, high 1,
  medium 2, low 3), the queue in its burst and commands taken in it. -/
  credits : List Nat
  lastQ : SMap Nat
  burst : Nat × Nat
  deriving DecidableEq, Repr

/-- A completion posted (06 R196, R202, R754). -/
structure Cpl where
  ctrl : Nat
  mi : Bool
  sq : Nat
  cid : Nat
  sct : Nat
  sc : Nat
  dnr : Bool
  crd : Nat
  dw0 : Nat
  dw1 : Nat
  data : List Byte
  deriving DecidableEq, Repr

/-- A command fetched and not yet completed: its fetch order and whether its data transfer has begun. -/
structure Out where
  ctrl : Nat
  sq : Nat
  cid : Nat
  order : Nat
  started : Bool
  abortable : Bool
  deriving DecidableEq, Repr

/-- A namespace of the stored table (04 R129, 06 R194): its size and place in the coarse map in 2 MiB units, and whether
the image in force names it. -/
structure Ns where
  nsid : Nat
  lbaFormat : Nat
  piType : Nat
  keySlot : Nat
  take : Bool
  units : Nat
  base : Nat
  attached : Bool
  deriving DecidableEq, Repr

/-- Sanitize (06 R211 to R215): the action in progress (0 none, 2 Block Erase, 4 Crypto Erase), progress in 1/65,536, the failure
state, the status of the log page (0 never, 1 succeeded, 2 in progress, 3 failed) with the CDW10 of its command, every block Block Erase is
to erase and those it has yet to, an erase that failed, the key slots to get a key and those yet to, and when it began. -/
structure Sanitize where
  action : Nat
  progress : Nat
  failed : Bool
  status : Nat
  cdw10 : Nat
  every : List (Nat × Nat × Nat)
  blocks : List (Nat × Nat × Nat)
  bad : Bool
  slots : List Nat
  keys : Nat
  since : Nat
  deriving DecidableEq, Repr

/-- The NVM subsystem. -/
structure Nvme where
  ctrls : SMap Ctrl
  cpls : List Cpl
  outs : List Out
  fetchSeq : Nat
  nss : List Ns
  sanitize : Sanitize
  tempOver : Option Nat
  tempUnder : Nat
  tempOverIn : Bool
  tempUnderIn : Bool
  miFreq : Nat
  miUnit : Nat
  miReplies : List (List (List Byte))
  fetchStopped : Bool
  /-- Admin commands that wait for SEQs to be assignable (06 R194, 16 R590): 0 Namespace Management, 2 Key Load. -/
  seqWaits : List (Nat × Sqe)
  deriving DecidableEq, Repr

def Ctrl.portReset : Ctrl where
  linkUp := false
  linkRate := 0
  linkWidth := 0
  training := false
  pcie := Pcie.reset
  cc := 0
  aqa := 0
  asq := 0
  acq := 0
  intMask := 0
  coal := []
  en := false
  rdy := false
  shn := 0
  shst := 0
  cfs := false
  sqs := []
  cqs := []
  numQueues := 0
  aers := []
  aenQueue := []
  withheld := []
  arbitration := 0
  coalescing := 0
  vecConfig := []
  asyncConfig := 0
  errLog := []
  errCount := 0
  changedNs := []
  download := []
  miResponse := []
  credits := [0, 0, 0]
  lastQ := []
  burst := (0, 0)

/-! ### The write path, the window, stripes and the map (01, 10, 11, 12) -/

/-- A sector with its envelope (10 Table 10.1): NSID and logical sector of ADDR (for NSID 0, `lsa` is KIND + 16 × COPY),
SEQ, PI, payload in clear, and the key slot and key generation it is encrypted under. -/
structure Sector where
  nsid : Nat
  lsa : Nat
  seq : Nat
  pi : List Byte
  payload : List Byte
  slot : Nat
  gen : Nat
  deriving DecidableEq, Repr

/-- A sector at a data-area position of a stripe: the command that placed it, its version (11 R391), whether its RUN is RESENT, the source of a
relocated sector, whether a staging copy is held, and whether its bytes count in the window. -/
structure Placed where
  sec : Sector
  owner : Nat
  version : Nat
  resent : Bool
  source : Option Nat
  staged : Bool
  window : Bool
  deriving DecidableEq, Repr

/-- A map entry (11 Table 11.4). -/
structure Entry where
  ty : Nat
  flags : Nat
  nsid : Nat
  lsa : Nat
  count : Nat
  aux : Nat
  seq : Nat
  deriving DecidableEq, Repr

/-- A coarse slot claimed in an open stripe (11 R383): first position, namespace and unit, and the command that fills it. -/
structure CoarseSlot where
  off : Nat
  nsid : Nat
  unit : Nat
  owner : Nat
  deriving DecidableEq, Repr

/-- A stripe. `state`: 0 open, 1 closed and not yet durable, 2 durable, 3 never durable (12 R430). `flags`: bit 0 SEAL,
bit 1 closed by a flush, bit 2 last of the band. Program confirmations and failures are (row, member) pairs, and so are the members
every flit of which the link layer has acknowledged (01 R22). -/
structure Stripe where
  id : Nat
  band : Nat
  firstRow : Nat
  rows : Nat
  state : Nat
  flags : Nat
  next : Nat
  runs : Nat
  data : SMap (Option Placed)
  slots : List CoarseSlot
  entries : List Entry
  confirmed : List (Nat × Nat)
  failed : List (Nat × Nat)
  acked : List (Nat × Nat)
  deps : List Nat
  cpSeq : Nat
  cpGen : Nat
  /-- The SEQ of the first sector of its hem page. -/
  hemSeq : Nat
  deriving DecidableEq, Repr

/-- A band: personality type code, geometry, members (link, die, block) with data members first, then P, then Q; `kind`:
0 host, 1 relocation, 2 to 4 metadata copy 0 to 2; `state`: 0 open, 1 closed, 2 freed and awaiting erase, 3 erased. -/
structure Band where
  id : Nat
  pers : Nat
  width : Nat
  parity : Nat
  members : List (Nat × Nat × Nat)
  kind : Nat
  state : Nat
  nextRow : Nat
  stop : Bool
  freedGen : Nat
  openedAt : Nat
  erased : List Nat
  deriving DecidableEq, Repr

/-- A multi-plane block: erase count, `state` 0 free, 1 in use, 2 freed and awaiting erase, 3 retired, 4 probe; and the
stripes in which it failed reads, with the times. -/
structure Blk where
  erases : Nat
  state : Nat
  fails : List (Nat × Nat)
  deriving DecidableEq, Repr

/-- An entry of the coarse map (11 Table 11.1); the fine table holds the SSA of each sector that is not deallocated. -/
inductive MapEnt where
  | dealloc
  | coarse (ssa : Nat)
  | fine (table : SMap Nat)
  deriving DecidableEq, Repr

/-- An atomic unit of a write whose commit marker has not entered the pending queue (11 R393). -/
structure AUnit where
  owner : Nat
  nsid : Nat
  lsa : Nat
  count : Nat
  ssas : List Nat
  seqFirst : Nat
  seqLast : Nat
  complete : Bool
  deriving DecidableEq, Repr

/-- A journal page (11 Table 11.6) with the copies confirmed. -/
structure JPage where
  jseq : Nat
  entries : List Entry
  tail : Bool
  cpGen : Nat
  copies : List Nat
  deriving DecidableEq, Repr

/-- What a metadata sector holds (12, "Metadata mirroring"): a journal page; the root of a checkpoint generation, a sector of the coarse map (part 0), a
fine table (1), a sector of the stripe table (2) or of the band table (3), a directory page (level 0) or an index page (1) of it (11 R396); sector i of
the stored namespace table or of the configuration copy; or the take directory as of its n-th change. -/
inductive MetaOf where
  | journal (jseq : Nat)
  | root (gen : Nat)
  | nsTable (i : Nat)
  | takeDir (n : Nat)
  | config (i : Nat)
  | mapSec (part i : Nat)
  | dirPage (level i : Nat)
  deriving DecidableEq, Repr

/-- A metadata sector: the SSA of copy 0 (none while no triple can take it), what it holds, its JSEQ, GEN or envelope SEQ (R398, R437), its
payload, and when it was placed. Copy c lies at the SSA of copy 0 plus c × 2^18 (R434). -/
structure MetaSec where
  ssa : Option Nat
  of : MetaOf
  order : Nat
  payload : List Byte
  since : Nat
  deriving DecidableEq, Repr

/-- A checkpoint generation (11 Table 11.7) with the map, the versions of its sectors and the namespace table it records. -/
structure Checkpoint where
  gen : Nat
  cpSeq : Nat
  seqCeil : Nat
  jseqStart : Nat
  map : SMap MapEnt
  nss : List Ns
  durable : Bool
  usable : Bool
  startedAt : Nat
  durableAt : Nat
  time : Nat
  digest : BitVec 384
  /-- Stripes that were not yet durable, or whose changes the journal did not yet hold, when the generation was taken (11 R396). -/
  late : List Nat
  deriving DecidableEq, Repr

/-- A Shred waiting for its erases (06 R209). -/
structure ShredOp where
  cmd : Sqe
  bands : List Nat
  gen : Nat
  residue : Bool
  deriving DecidableEq, Repr


/-- The counters of the stripe health page that survive restarts (12 Table 12.7) and its event list (Table 12.9). -/
structure Health where
  generation : Nat
  rebuilt : SMap Nat
  unreadable : SMap Nat
  disagree : SMap Nat
  mismatches : Nat
  auditPasses : Nat
  auditLastEnd : Nat
  metaRewrites : Nat
  programFails : Nat
  resent : Nat
  linkFails : SMap Nat
  linkReads : SMap Nat
  slowEntries : SMap Nat
  events : List (List Nat)
  deriving DecidableEq, Repr

/-- The flush in charge: its class (0 none, 1 power loss, 2 cool, 3 warm restart), when it began, whether it ends with a TAIL page and, once
written, that page's JSEQ, the cool set, what follows it (0 PWR_KILL_N, 1 the main reset of a warm restart, 2 PWR_KILL_N and an aux
reset), and whether that restart is marked JOURNAL_SUSPECT. -/
structure Flush where
  kind : Nat
  since : Nat
  tailDue : Bool
  tail : Option Nat
  links : List Nat
  next : Nat
  suspect : Bool
  deriving DecidableEq, Repr

def Flush.none : Flush := ⟨0, 0, false, .none, [], 0, false⟩

/-- Flash translation. -/
structure Ftl where
  map : SMap MapEnt
  jmap : SMap MapEnt
  seqNext : Nat
  seqCeil : Nat
  ceilPending : Bool
  stripes : List Stripe
  bands : List Band
  blocks : SMap Blk
  nextStripe : Nat
  nextBand : Nat
  everProgrammed : Bool
  pendingQ : List Entry
  units : List AUnit
  /-- TRIM entries whose SEQ an atomic unit still uncommitted may lie below (11 R406). -/
  trims : List Entry
  /-- Bands below this one have their BAND_OPEN in the journal. -/
  bandsJournaled : Nat
  page : List Entry
  pageSince : Nat
  pages : List JPage
  jseq : Nat
  cps : List Checkpoint
  cpStart : Nat
  /-- A checkpoint is to start once none runs (11 R397). -/
  cpWanted : Bool
  /-- The number of the fine table a unit has in the checkpoints, plus 1 (11 R381). -/
  fineNum : SMap Nat
  unreadable : List (Nat × Nat)
  disagree : List (Nat × Nat)
  shreds : List ShredOp
  flush : Flush
  health : Health
  rebuildStripes : List Nat
  /-- The most sectors the rebuild in progress has had to move at one time. -/
  rebuildTotal : Nat
  /-- The 100 ms over which STR_RBLD_RATE is averaged: their start, the bytes written in them (12 R445). -/
  rebuildAt : Nat
  rebuildBytes : Nat
  auditNext : Nat
  auditRunning : Bool
  absentDies : List (Nat × Nat)
  spareAtStart : Option Nat
  fineWaitSeq : Nat
  linkProg : SMap Nat
  linkCount : SMap Nat
  linkAvg : SMap Nat
  medians : SMap Nat
  probes : SMap Nat
  probeTurn : SMap Nat
  gcRunning : Bool
  /-- Metadata sectors still referred to, in the order of their writing. -/
  metas : List MetaSec
  /-- The journal extent in use: the SSA of its copy 0, the positions used, the extent that follows once it is named (11 R394). -/
  extent : Option Nat
  extentUsed : Nat
  extentNext : Option Nat
  /-- Changes of the take directory that were written. -/
  takeDir : Nat
  configCopy : Option (BitVec 384)
  deriving DecidableEq, Repr

/-- What a command of the write path is for. -/
inductive WKind where
  | write
  | frame
  | pull
  | take
  deriving DecidableEq, Repr

/-- A command on the write path. `src`: controller 0 to 3, 4 the DMA engine (then `cid` is the channel), 5 the take service
(then `cid` is the take). `lsas` are its sectors in order, `arrived` the data come and not yet taken by a lane, `places` the
positions of the sectors assembled. `wt` is R370's choice, made when its first chunk is reserved; `readyAt` is when its last sector was
accepted; `mute`: a flush began before it was all assembled, and no completion is posted for it (01 R34). -/
structure WCmd where
  id : Nat
  src : Nat
  sqe : Sqe
  kind : WKind
  nsid : Nat
  lsas : List Nat
  fua : Bool
  fineWait : Option Nat
  keyWait : Bool
  asked : Nat
  granted : Nat
  fetched : Nat
  wt : Option Bool
  arrived : SMap (Option (List Byte × List Byte))
  places : List Nat
  accepted : Nat
  reservedInv : Bool
  seqFirst : Nat
  ended : Bool
  stream : Nat
  tag : Nat
  frameSeq : Nat
  last : Bool
  index : Nat
  readyAt : Nat
  mute : Bool
  deriving DecidableEq, Repr

/-- The verdict of the parts on one sector: it reads good, or fails with a cause (0 LDPC, 1 envelope, 2 tag), and, where it has
to be rebuilt, whether some reconstruction passes its checks. -/
structure Verdict where
  failing : List (Nat × Fin 3)
  unrebuilt : List Nat
  late : List Nat
  deriving DecidableEq, Repr

/-- Where a logical sector of a read comes from: synthesized bytes, or a sector of the namespace. -/
inductive ReadSrc where
  | synth (payload pi : List Byte)
  | sector (lsa : Nat)
  deriving DecidableEq, Repr

/-- A sector of a read as its member gives it: payload, protection information, and its outcome: 0 good, 1 unreadable (0xA0),
2 copies disagree (0xA1), 3 deallocated, 4 key absent (0x95). -/
structure RdSector where
  payload : List Byte
  pi : List Byte
  code : Nat
  ssa : Nat
  deriving DecidableEq, Repr

/-- A read kept open: for sectors whose member has not returned (12 R440), the sectors as of its fetch, those still out, and those a degraded read
was started for; with none out, for the read meter (20 R691); `held`, for an entry of the map that is being rebuilt (17 R609): what it will read. -/
structure RdCmd where
  id : Nat
  sqe : Sqe
  verify : Bool
  got : List RdSector
  late : List Nat
  hedged : List Nat
  since : Nat
  held : Option (Verdict × List ReadSrc)
  deriving DecidableEq, Repr

/-- A deallocation waiting its turn (06 R204, 11 R385): `kind` 0 Write Zeroes, 1 Dataset Management, 2 Shred, 3 the take
service's own (nothing to complete), 4 Take Delete; its ranges in sectors; its place among those that wait for fine tables. -/
structure TrimCmd where
  id : Nat
  kind : Nat
  sqe : Sqe
  nsid : Nat
  ranges : List (Nat × Nat)
  fineWait : Option Nat
  wt : Bool
  deriving DecidableEq, Repr

/-- A chunk request waiting at the gate (10 R361). -/
structure ChunkReq where
  cmd : Nat
  bytes : Nat
  realtime : Bool
  since : Nat
  order : Nat
  deriving DecidableEq, Repr

/-- A wait for durability (06 R200, R206; 10 R360): a Flush, a shutdown notification, or a write-through write; the stripes
it waits for. -/
structure DurWait where
  kind : Nat
  cmd : Sqe
  stripes : List Nat
  since : Nat
  deriving DecidableEq, Repr

/-- The admission gate and the governor. Occupancy is in bytes; `cands` are the last 101 candidates, newest first; `falls`
are the intervals of R33 in progress, oldest first: start, energy term, occupancy, string excluded; `draining`: a fall of the limit
closed the gate, and the window flushes until it reopens (R32). -/
structure Window where
  occ : Nat
  waiting : List ChunkReq
  chunkSeq : Nat
  tokens : Nat
  tokensAt : Nat
  /-- The read meter of PS1 (20 R691): what its bucket held, and when. -/
  readTokens : Nat
  readTokensAt : Nat
  refused : Bool
  hard : Nat
  limitReady : Bool
  quietOpen : Bool
  cands : List Nat
  ceiling : Nat
  falls : List (List Nat)
  draining : Bool
  clearSince : Option Nat
  ingress : SMap Nat
  grants : SMap Nat
  deriving DecidableEq, Repr

/-- A completion status: status code type and code, DNR, and CRD. -/
structure Status where
  sct : Nat
  sc : Nat
  dnr : Bool
  crd : Nat
  deriving DecidableEq, Repr

/-- Commands of the data path. `stuck`: sectors that left stage 4 and found no assembly space, each in its cipher lane: lane, command,
sector (10 R356). -/
structure Path where
  stuck : List (Nat × Nat × Placed)
  writes : List WCmd
  reads : List RdCmd
  trims : List TrimCmd
  waits : List DurWait
  done : List WCmd
  failed : List (WCmd × Status)
  nextId : Nat
  unitsWritten : Nat
  unitsRead : Nat
  hostReads : Nat
  hostWrites : Nat
  /-- Bytes programmed to flash, user bytes written and bytes relocated in the last minute: when, then the three counts, newest first. -/
  marks : List (Nat × Nat × Nat × Nat)
  deriving DecidableEq, Repr

/-! ### Cipher lanes and key slots (16) -/

/-- A key slot: state of Table 16.2, key, salt, invocation counter, generation, highest durable reservation, whether the
salt came with a Key Load, and whether a RESERVE record is on its way. -/
structure KeySlot where
  state : Nat
  key : List Byte
  salt : Word
  inv : Nat
  gen : Nat
  reserved : Nat
  claimed : Nat
  hostSalt : Bool
  reserveDue : Bool
  deriving DecidableEq, Repr

/-- A key-slot record of the NOR (Table 16.5), with whether its CRC is valid. -/
structure KeyRec where
  ty : Nat
  live : Bool
  slot : Nat
  gen : Nat
  salt : Word
  inv : Nat
  wrapped : List Byte
  valid : Bool
  deriving DecidableEq, Repr

/-- A key change in progress: the command that asked for it (none for crypto erase and R591), slot, step of R593 being
written (0 waiting for TRIMs, 1 KEY, 2 COMMIT, 3 retirement), the new key. -/
structure KeyOp where
  cmd : Option Sqe
  slot : Nat
  step : Nat
  key : List Byte
  salt : Word
  hostSalt : Bool
  clear : Bool
  trims : List Nat
  deriving DecidableEq, Repr

/-- The cipher engine. -/
structure Cph where
  slots : SMap KeySlot
  recs : List KeyRec
  half : Nat
  epoch : Nat
  used : Nat
  ops : List KeyOp
  held : SMap (List Nat)
  loadPriv : List Byte
  passWindows : Nat
  deriving DecidableEq, Repr

/-! ### Takes (07, 08) -/

/-- The stream descriptor of a Take Open (07 Table 7.3). -/
structure StreamDesc where
  mode : Nat
  channel : Nat
  channels : Nat
  priority : Nat
  rate : Nat
  ringBase : Nat
  statusBase : Nat
  consAddr : Nat
  ringEntries : Nat
  highWm : Nat
  lowWm : Nat
  maxWait : Nat
  vector : Nat
  coalesce : Nat
  name : List Byte
  deriving DecidableEq, Repr

/-- A record of a clip or ring (08 Table 8.3): KIND, FLAGS, first sector within the clip's units, sectors, LENGTH, SEQ,
STAMP, HOST_TIME, PAYLOAD_CRC, PATH, QUEUE, the body of a chain record, and whether the record is whole on its path. -/
structure ClipRec where
  kind : Nat
  flags : Nat
  off : Nat
  sectors : Nat
  length : Nat
  seq : Nat
  stamp : Nat
  hostTime : Nat
  crc : Nat
  path : Nat
  queue : Nat
  body : List Nat
  whole : Bool
  deriving DecidableEq, Repr

/-- An event of a clip's index (08 Table 8.5): TYPE, SOURCE, TIME, the sector of its chain record (none for a MARK), UNC_PS. -/
structure ClipEvent where
  ty : Nat
  source : Nat
  time : Nat
  recAt : Option Nat
  unc : Nat
  deriving DecidableEq, Repr

/-- An index segment with its place (08 R304, R305): clip sector, sectors, first frame, frames, events, and whether its content
has been sent to the write path. -/
structure Seg where
  off : Nat
  sectors : Nat
  first : Nat
  frames : Nat
  events : List ClipEvent
  sent : Bool
  deriving DecidableEq, Repr

/-- A clip: descriptor, stream slot, units of the clip in chain order and of the ring in ring order, ring records and position (sectors,
never wrapping), records in stream order, events of the open index segment, segments placed, write position in sectors, next
SEQ, SEQ of frame 0, and the counts of its slot. `ended` is its length in bytes once its last parts are placed. -/
structure Clip where
  desc : StreamDesc
  slot : Nat
  units : List Nat
  ring : List Nat
  ringRecs : List ClipRec
  ringPos : Nat
  recs : List ClipRec
  events : List ClipEvent
  segs : List Seg
  pos : Nat
  nextSeq : Nat
  firstSeq : Nat
  acked : Nat
  lastStamp : Nat
  abandoned : Nat
  refused : Nat
  payload : Nat
  discard : Nat
  chainRecs : Bool
  markRecs : Bool
  limit : Bool
  segtab : Nat
  ended : Nat
  deriving DecidableEq, Repr

/-- What is scheduled for a take: time, action (0 START, 1 STOP, 2 MARK, 3 Take Close), source (0 Steeple, 1 host, 2 TRIG_IN), chain
close, and the NOTE of a Take Close. -/
structure Sched where
  time : Nat
  action : Nat
  source : Nat
  chainClose : Bool
  note : List Byte
  deriving DecidableEq, Repr

/-- A take of the directory (07 Table 7.12), its clips in descriptor order, the controller that opened it, the commands that wait for
its opening and its end; `sealing`: 0 no, 1 last parts on their way, 2 headers on their way, 3 done. -/
structure Take where
  num : Nat
  dirSlot : Nat
  state : Nat
  reason : Nat
  ring : Bool
  joinChain : Bool
  joined : Bool
  pinStop : Bool
  pinEdges : Nat
  hostTime : Bool
  pretrigger : Nat
  frameMax : Nat
  trigSrc : Nat
  rigTake : Nat
  openTime : Nat
  startTime : Nat
  closeTime : Nat
  rigId : Nat
  steepleState : Nat
  fwVersion : Nat
  cfgDigest : BitVec 384
  name : List Byte
  user : List Byte
  note : List Byte
  clips : List Clip
  sched : List Sched
  chainBreak : Bool
  ctrl : Nat
  openCmd : Option Sqe
  closeCmds : List Sqe
  sealing : Nat
  /-- T and source of the last MARK that met the take ARMED: a START at that T comes before it (R274). -/
  mark : Option (Nat × Nat)
  /-- The END_REASON of the STOP that closed a take never triggered: a START at its T comes before it (R274). -/
  stopBy : Nat
  /-- The change of the take directory that entered the take. -/
  dirAt : Nat
  deriving DecidableEq, Repr

/-- A frame in flight on a stream (07 R254): slot, tag (in pull mode the free-running index of its descriptor and its channel),
the descriptor's TAG, SEQ, payload length, payload bytes of the segments fetched, when the last was fetched, its stamp, the payload come so far, its
segments on the write path, the write-through choice, the LAST segment's command while it waits, the rewrite of its first
sector: 0 none, 1 on its way, 2 done; and whether its commands are still answered (R287). In pull mode: the payload bytes the engine has
requested, and its reassembly buffer (R264): bytes come that the write path has not taken. -/
structure InFlight where
  slot : Nat
  tag : Nat
  dtag : Nat
  chan : Option Nat
  seq : Nat
  length : Nat
  taken : Nat
  since : Nat
  stamp : Nat
  buf : List Byte
  segs : List Nat
  wt : Option Bool
  lastCmd : Option Sqe
  fix : Nat
  answers : Bool
  asked : Nat
  held : List Byte
  deriving DecidableEq, Repr

/-- A descriptor of a DMA ring (07 Table 7.7) with the time it was produced. -/
structure DmaDesc where
  addr : Nat
  length : Nat
  flags : Nat
  hostTime : Nat
  tag : Nat
  deriving DecidableEq, Repr

/-- A status record written or to be written (07 Table 7.8): channel, index of its descriptor, TAG, STATUS, INDEX, STAMP, and (not
written) the payload bytes it acknowledges. -/
structure StatusRec where
  channel : Nat
  index : Nat
  tag : Nat
  status : Nat
  frame : Nat
  stamp : Nat
  bytes : Nat
  deriving DecidableEq, Repr

/-- A DMA channel beside its registers: the slot and take it serves, its rings' and its consumed index's addresses, its ring's thresholds, the
batches of descriptors produced and not consumed (how many, when), the index past the last FLUSH descriptor, descriptors fetched and consumed, outcomes not yet in order, status
records to be written, those whose read-back is out with the value written, acknowledgements not signalled and the time of the first. -/
structure Dma where
  take : Nat
  slot : Nat
  vector : Nat
  coalesce : Nat
  ringBase : Nat
  statusBase : Nat
  consAddr : Nat
  entries : Nat
  highWm : Nat
  lowWm : Nat
  maxWait : Nat
  produced : List (Nat × Nat)
  flushTo : Option Nat
  fetched : Nat
  consumed : Nat
  outcomes : List (Nat × StatusRec)
  next : List StatusRec
  batch : List StatusRec
  wrote : Option Nat
  unsignalled : Nat
  unsignalledAt : Nat
  deriving DecidableEq, Repr

/-- A frame that waits a microsecond for its refusal (07 R251): its slot, its stamp, and the commands of its segments, FIRST first, or, in
pull mode, its channel, the index of its descriptor and the descriptor. -/
structure Reply where
  slot : Nat
  stamp : Nat
  cmds : List Sqe
  pull : Option (Nat × Nat × DmaDesc)
  deriving DecidableEq, Repr

/-- A write of the DMA engine to host memory through a controller (07 R258). -/
structure HostWrite where
  ctrl : Nat
  addr : Nat
  bytes : List Byte
  deriving DecidableEq, Repr

/-- The take service: the directory, frames in flight, DMA channels in use, what the DMA engine wrote to host memory, newest last, frames
that wait for their refusal, the engine's rotation (the channel that had the last turn), and the channels it fetched frames for, newest
first. -/
structure Takes where
  dir : List Take
  nextTake : Nat
  generation : Nat
  inflight : List InFlight
  dmas : SMap (Option Dma)
  hostWrites : List HostWrite
  replies : List Reply
  discardTotal : Nat
  rotation : Nat
  recent : List Nat
  deriving DecidableEq, Repr

/-! ### Steeple timebase (09) and lifetime records (22) -/

/-- An event record of the lifetime log (22 Table 22.11); `data` are the values Table 22.12 lists, in its order. -/
structure EventRec where
  seq : Nat
  time : Nat
  auxMs : Nat
  ty : Nat
  severity : Nat
  data : List Nat
  deriving DecidableEq, Repr

/-- A trip record (21 Table 21.4): its fields in order, signed ones as 16-bit codes. -/
structure TripRec where
  kind : Nat
  cause : Nat
  seq : Nat
  time : Nat
  trigger : Nat
  peak : Nat
  rate : Nat
  link : Nat
  bridge : Nat
  cool : Nat
  flush : Nat
  flushUs : Nat
  occ : Nat
  undurable : Nat
  deriving DecidableEq, Repr

/-- A copy of the counters record in the NOR (22 R747): sequence number, counters, histograms, activity positions. -/
structure CtrCopy where
  seq : Nat
  counters : SMap Nat
  hist : SMap Nat
  positions : SMap Nat
  deriving DecidableEq, Repr

/-- The lifetime region and what feeds it: event records, their SEQ, the counters of 22 Table 22.9 by offset, the histograms of
Table 22.10 by 32 × index + bin; trip records newest first; links and DRAM channels recorded as retired, remap entries (channel, line)
and rail faults; copies A and B of the counters record; when seconds and minutes were last counted, and when the block erase counts of
histogram 4 were; the peak occupancy since. -/
structure Life where
  events : List EventRec
  seq : Nat
  counters : SMap Nat
  hist : SMap Nat
  trips : List TripRec
  links : List Nat
  channels : List Nat
  remaps : List (Nat × Nat)
  rails : List Nat
  copyA : Option CtrCopy
  copyB : Option CtrCopy
  secAt : Nat
  minAt : Nat
  wearAt : Option Nat
  occPeak : Nat
  deriving DecidableEq, Repr

/-- A broadcast the head originated and repeats (09 R341): its TYPE and payload, its time, when it was last sent, how often. -/
structure Cast where
  ty : Nat
  pay : List Byte
  time : Nat
  sentAt : Nat
  count : Nat
  deriving DecidableEq, Repr

/-- The Steeple timebase: its value `base` at model time `baseAt`, in units of 2^-16 ns, running at 1 + `slew` ppm, and what
the rules of 09 remember. -/
structure Stp where
  base : Int
  baseAt : Nat
  slew : Int
  /-- Twice the one-way delay of the latest exchanges, newest first, in 2^-16 ns. -/
  delays : List Int
  lockRun : Nat
  unlockRun : Nat
  breakAt : Nat
  uncBreak : Nat
  slewEnd : Nat
  acquireAt : Nat
  timeAt : Option Nat
  healing : Bool
  members : List (Nat × Nat)
  seen : List (Nat × Nat)
  bcast : Nat
  casts : List Cast
  calStaged : Nat
  /-- STP_CAL_CTL has been written on a head since main reset (R340). -/
  calWritten : Bool
  ppsAt : Option Nat
  txSeq : SMap Nat
  /-- What went out of the ports (0 UP, 1 DN), each message as its bytes on the line (Tables 9.1 and 9.3), without K27.7 and K29.7. -/
  sent : List (Nat × List Byte)
  established : Bool
  dnCount : Nat
  deriving DecidableEq, Repr

/-! ### Sleeves (13) -/

/-- A control word (13 Table 13.3). -/
abbrev CtlWord := BitVec 192

/-- An operation descriptor (13, "Operations"): its identifier, link, die, entry index, block, page, plane mask, first sector and count
per plane, pages, SLC mode, priority class, buffer handle, what it is for, and when it was queued. -/
structure OpDesc where
  id : Nat
  link : Nat
  die : Nat
  entry : Nat
  block : Nat
  page : Nat
  planes : Nat
  first : Nat
  count : Nat
  pages : Nat
  slc : Bool
  cls : Nat
  buffer : Nat
  why : OpFor
  since : Nat
  deriving DecidableEq, Repr

/-- An operation record (13, "Structure"): program counter, V0 to V15, flags, call stack, context held, when the next word may issue (in
quarters of a nanosecond); the mask and WFLAGS of the WAIT it is in; STOPCAUSE; its timers (watchdog: nanoseconds left at `wdogFrom`,
running, paused); a pending fault, FAULT_CODE, whether it is in its fault handler, the faulting address; its REPORT (0 OK, 1 FAIL,
2 INTERRUPTED) and whether it has ended; the array-busy mark, the same at an ABORT, when the mark was last set, when it was first set, when
the last status byte came; suspensions; the flush attention; DIN IMAGE words; strobes; decodes in progress (soft, the sectors worked
on), sectors (plane, sector) decoded and failed; the bytes of its first DIN RAW; whether it is a RESET of its own; whether it has crossed
over; the planes whose page image it has sent. -/
structure OpRec where
  desc : OpDesc
  pc : Nat
  regs : List Word
  z : Bool
  n : Bool
  c : Bool
  stack : List Nat
  ctx : Option Nat
  readyAt : Nat
  wait : Option (Nat × Nat)
  stop : Nat
  wdogOn : Bool
  wdogPaused : Bool
  wdogLeft : Nat
  wdogFrom : Nat
  pollAt : Option Nat
  pollDone : Bool
  fault : Option Nat
  faultCode : Nat
  handler : Bool
  faultPc : Nat
  report : Option (Nat × Word)
  ended : Bool
  arrayBusy : Bool
  abortBusy : Bool
  begun : Nat
  confirmAt : Option Nat
  statusAt : Nat
  suspends : Nat
  suspended : Bool
  readers : List Nat
  flushAtt : Bool
  dins : Nat
  strobes : List Nat
  softUsed : Bool
  decoding : List (Bool × List (Nat × Nat))
  decoded : List (Nat × Nat)
  failed : List (Nat × Nat)
  rawFirst : Option (List Byte)
  reset : Bool
  crossed : Bool
  planesOut : List Nat
  deriving DecidableEq, Repr

/-- A die behind a link as its Sleeve holds it: NEEDS_RESET, consecutive RESET runs that failed, the edge latches, the EPOCH count. -/
structure DieSt where
  needsReset : Bool
  resetFails : Nat
  ready : Bool
  busy : Bool
  epoch : Nat
  deriving DecidableEq, Repr

/-- A microcode image (13 Table 13.8). -/
structure Micro where
  kind : Nat
  version : Nat
  baseVersion : Nat
  faultEntry : Nat
  entries : List Nat
  ranges : List (Nat × Nat)
  release : List (Nat × Nat)
  resume : List (Nat × Nat)
  words : List CtlWord
  deriving DecidableEq, Repr

/-- A crossover in progress (13 R485): the patch, when its words were written. -/
structure Xover where
  patch : Micro
  since : Nat
  deriving DecidableEq, Repr

/-- A Sleeve: its control store (none: the word is not live), addresses whose word has an uncorrectable error, the entry list and fault
handler in force, scratch, queued descriptors oldest first, records, the images in force (base first), a crossover, and the scheduler's
rotation: the link and the context that issued last. -/
structure Sleeve where
  store : SMap (Option CtlWord)
  bad : List Nat
  entries : List Nat
  faultEntry : Nat
  scratch : SMap Byte
  queue : List OpDesc
  recs : List OpRec
  images : List Micro
  xover : Option Xover
  lastLink : Nat
  lastCtx : Nat
  deriving DecidableEq, Repr

/-- A Microcode Patch in progress: its command, the digest of its component, the patch, the Sleeves still to cross over, operations ended by
ABORT. -/
structure PatchOp where
  cmd : Sqe
  digest : BitVec 384
  patch : Micro
  left : List Nat
  aborted : Nat
  deriving DecidableEq, Repr

/-- The Sleeves, the dies by 32 × link + die, the next operation's identifier, the patch in progress. -/
structure Slvs where
  sleeves : SMap Sleeve
  dies : SMap DieSt
  nextOp : Nat
  patch : Option PatchOp
  deriving DecidableEq, Repr

/-! ### Jalyen links (14, 15) -/

/-- A capsule to be sent: its die (none for MGMT), virtual channel, the bytes still to be sent, whether some have been, and the member of a row
(stripe, row, member) whose image ends with it. -/
structure TxCap where
  die : Option Nat
  vc : Nat
  bytes : List Byte
  begun : Bool
  member : Option (Nat × Nat × Nat)
  deriving DecidableEq, Repr

/-- A DATA flit sent and not acknowledged: SEQ, virtual channel, payload, and the members whose last flit it is. -/
structure Flit where
  seq : Nat
  vc : Nat
  payload : List Byte
  ends : List (Nat × Nat × Nat)
  deriving DecidableEq, Repr

/-- A tag in use (15 R553): its number, die, operation, what it asked for (0 raw, 1 image, 2 soft strobe, 3 status, 4 MGMT), bytes asked for
and received, where they go (a scratch address or a register), whether its reply has begun, and when it was issued. -/
structure Tag where
  tag : Nat
  die : Nat
  op : Nat
  kind : Nat
  count : Nat
  got : Nat
  dst : Nat
  begun : Bool
  since : Nat
  deriving DecidableEq, Repr

/-- A Jalyen link beside its registers. Training: when its state was entered, when the training began and its window ends, whether it began
from DETECT and after a park, EQ in force, runs of TS1 and TS2 received and of TS2 with SPEED_CHANGE, the end of the idle of a speed
change, the preset sweep (step, best product with its preset and eye), whether the sweep has succeeded, and the rate the link was last ACTIVE at. Link layer: the next SEQ, the SEQ
expected, the last ACK taken and when, unacknowledged flits, capsules not sent, the last capsule of each die (channel and SEQ), the last
CR_SUM taken and the flits freed per channel, an outstanding NAK, the replay in progress, what is awaited (2 START, 1 the first flit after it, 0 nothing). Capsules:
partly received ones, whole ones, tags. What the rules remember: RETRAIN entries, CRC failures, DOWN entries and since when; the identity
held and when one was asked for; a park in progress; when the last TEMP came, the bridge thresholds crossed and the stripe state before HELD; a margin measurement; a recalibration.
Blocks (14 R498, R499): the states of the transmit and the receive scrambler, the channel of the next credit return, and the blocks of the
newest flit sent, as they go on the line. -/
structure Lnk where
  scrTx : BitVec 23
  scrRx : BitVec 23
  crTurn : Nat
  wire : List Block
  since : Nat
  trainAt : Nat
  window : Option Nat
  full : Bool
  parkedBefore : Bool
  eq : Bool
  tsRun : Nat
  ts2Run : Nat
  scRun : Nat
  idleEnd : Option Nat
  sweep : Nat
  best : Nat × Nat × Nat × Nat
  sweepOk : Bool
  lastRate : Nat
  txSeq : Nat
  rxSeq : Nat
  acked : Nat
  ackAt : Nat
  unacked : List Flit
  capq : List TxCap
  dieLast : SMap (Option (Nat × Nat))
  crLast : Nat × Nat
  freed : Nat × Nat
  nakOut : Bool
  replaySeq : Nat
  replayRuns : Nat
  replayEnd : Nat
  resync : Nat
  rx0 : List Byte
  rx1 : List Byte
  inbox : List (List Byte)
  tags : List Tag
  quarantined : List Nat
  retrains : List Nat
  crcTimes : List Nat
  downs : List Nat
  downSince : Option Nat
  downRetryAt : Nat
  identity : Option (List Byte)
  identAt : Option Nat
  parkAt : Option Nat
  tempAt : Nat
  /-- A TEMP has arrived since the link's last START. -/
  tempSeen : Bool
  warm : Bool
  hot : Bool
  heldFrom : Nat
  margin : Option Nat
  recal : Bool
  enumPending : List Nat
  /-- LINK_RETURN or SLEEVE_RETURN: the link enters service once its dies are present. -/
  returning : Bool
  deriving DecidableEq, Repr

def Sleeve.empty : Sleeve := ⟨[], [], [], 0, [], [], [], [], none, 0, 0⟩
def DieSt.init : DieSt := ⟨false, 0, false, false, 0⟩

/-- The seed of a scrambler (14 R499). -/
def scrSeed : BitVec 23 := 0x7FFFFF#23

def Lnk.init : Lnk where
  scrTx := scrSeed
  scrRx := scrSeed
  crTurn := 0
  wire := []
  since := 0
  trainAt := 0
  window := none
  full := false
  parkedBefore := false
  eq := false
  tsRun := 0
  ts2Run := 0
  scRun := 0
  idleEnd := none
  sweep := 0
  best := (0, 0, 0, 0)
  sweepOk := false
  lastRate := 3
  txSeq := 0
  rxSeq := 0
  acked := 511
  ackAt := 0
  unacked := []
  capq := []
  dieLast := []
  crLast := (0, 0)
  freed := (0, 0)
  nakOut := false
  replaySeq := 0
  replayRuns := 0
  replayEnd := 0
  resync := 0
  rx0 := []
  rx1 := []
  inbox := []
  tags := []
  quarantined := []
  retrains := []
  crcTimes := []
  downs := []
  downSince := none
  downRetryAt := 0
  identity := none
  identAt := none
  parkAt := none
  tempAt := 0
  tempSeen := false
  warm := false
  hot := false
  heldFrom := 0
  margin := none
  recal := false
  enumPending := []
  returning := false

/-- Power states beside their registers (20): wakes latched while a state is being entered (bit k is code k), when the entry began, the
operational state before it, when the exit began, when step 4 ended, doorbells written in Deep Sleep (controller, queue, tail), ports
whose reset waits for Run, the last management message in Off with the Belfry started, Steeple idle on both ports. -/
structure Pwr where
  latched : Nat
  entryAt : Nat
  fromPs : Nat
  exitAt : Nat
  steadyAt : Nat
  timerDone : Bool
  doorbells : List (Nat × Nat × Nat)
  portResets : List Nat
  offMgmt : Option Nat
  wakeAt : Nat
  /-- A change of the PS1 meters that is due, and when. -/
  capDue : Option Bool
  capAt : Nat
  /-- The JSEQ of the TAIL page of the entry in hand. -/
  tail : Option Nat
  /-- The Steeple time of the first wake latched. -/
  latchTime : Nat
  deriving DecidableEq, Repr

/-! ### Thermal monitor (21) -/

/-- The thermal monitor beside its registers: results of the last 1.016 s newest first, the raw code and how often in a row it came, the
thermal states held (WARN, ENFORCE, RISE_WARN, RISE_ENFORCE), the TMT levels held, thresholds newly adopted; a grace interval (its end,
its level); enforcement begun and its time before; the trip in hand (its record so far, when it began) and whether PWR_KILL_N has ended it;
what the restart waits for: a trip pending, the acknowledgement, the self-test's outcome and when it ran, since when the junction is below
85 °C, the times of trips; the times and counts SMART reports, in nanoseconds; the fans' stall times; when the last result came. -/
structure Thm where
  recent : List Int
  raw : Nat
  rawRun : Nat
  warn : Bool
  enf : Bool
  riseW : Bool
  riseE : Bool
  tmt1 : Bool
  tmt2 : Bool
  fresh : Bool
  grace : Option (Nat × Nat)
  enfAt : Option Nat
  enfNs : Nat
  trip : Option TripRec
  tripAt : Nat
  killed : Bool
  waiting : Bool
  acked : Bool
  selfTest : Option Bool
  selfAt : Nat
  below : Option Nat
  tripTimes : List Nat
  warnNs : Nat
  critNs : Nat
  tmt1N : Nat
  tmt1Ns : Nat
  tmt2N : Nat
  tmt2Ns : Nat
  fans : SMap Nat
  lastAt : Nat
  /-- The sensor fault in hand, a cause of Table 21.1; kept until a self-test passes. -/
  fault : Nat
  /-- The restart waits for an acknowledgement. -/
  ackDue : Bool
  /-- The last sensor result, in 1/16 °C; the Belfry keeps it while the main domain is off. -/
  last : Option Int
  deriving DecidableEq, Repr

/-! ### DRAM (17) -/

/-- A line in a DRAM queue (17 R610): the line, when it was queued, and the 72 bytes a write brings where the model holds them. -/
structure DrReq where
  line : Nat
  since : Nat
  data : Option (List Byte)
  deriving DecidableEq, Repr

/-- A DRAM channel beside its registers: times of corrected lines of the last hour, corrected lines with their times, times of uncorrectable lines,
a retrain in progress (when it began, how many have failed), when the last one ran, one wanted; refreshes owed per bank (8 is none, 0 eight
ahead, 16 eight owed); the scrub's pass: when it began, its next line among those it reads; times TRACK_LIMIT was set; failures of its start-up training; its read and its write queue, oldest
first, whether a drain is in progress, and the row open in each bank (R610, R611). -/
structure DrCh where
  corr : List Nat
  lines : List (Nat × Nat)
  unc : List Nat
  retrain : Option Nat
  tries : Nat
  last : Option Nat
  want : Bool
  owed : SMap Nat
  passAt : Option Nat
  pass : Nat
  limits : List Nat
  fails : Nat
  reads : List DrReq
  writes : List DrReq
  drain : Bool
  openRows : SMap Nat
  deriving DecidableEq, Repr

/-- The DRAM: its channels, the lines of region 7 written in ECC test mode (by system address div 64: 64 data bytes, 8 check bytes), map lines being
rebuilt (channel, line, since); the staging copies (SSA, 4 KiB slot of the staging region); the regions of which RECOVERY has written every line (R619). -/
structure Dram where
  chans : SMap DrCh
  lines : SMap (List Byte)
  rebuilds : List (Nat × Nat × Nat)
  copies : List (Nat × Nat)
  written : List Nat
  deriving DecidableEq, Repr

def DrCh.init : DrCh := ⟨[], [], [], none, 0, none, false, [], none, 0, [], 0, [], [], false, []⟩

/-! ### Mantle (18, 19) -/

/-- A loop slot beside its registers: estimate before and after correction, innovation, measurements, outputs before and after their limits,
integral, feed-forward, set-point; profile position, rate and acceleration in 2^-32 LSB; saturated and unsaturated periods in a row, skips in
a row, railed conversions in a row per measurement; when its work ends; a sample taken and not yet computed (when, in Mantle clocks); since when
in HEADROOM and since when out of it; a bypass or return that waits for the period start; its trace: recording,
samples left after the trigger, periods since the last sample, samples since arming, the samples. -/
structure Loop where
  xh : List Int
  xc : List Int
  nu : List Int
  y : List Int
  u : List Int
  d : List Nat
  z : Int
  f : Int
  rs : Int
  r : Int
  v : Int
  a : Int
  fresh : Bool
  satRun : Nat
  freeRun : Nat
  skips : Nat
  rails : List Nat
  workEnd : Nat
  sampled : Option Nat
  headAt : Option Nat
  outAt : Nat
  change : Option Bool
  recording : Bool
  post : Option Nat
  decim : Nat
  taken : Nat
  samples : SMap (List Nat)
  /-- The Mantle clock at which the present carrier period began. -/
  carrierAt : Nat
  /-- The carrier step at which the high side of outputs 0 and 1 falls in the present period (18 R637, R638). -/
  fall : List Nat
  deriving DecidableEq, Repr

/-- A string of the store beside its registers: Q_s, its impedance table; SoC when it was last set (in units of 10^-9), the charge since
and in all (mA × 100 µs); voltage, current and temperature; the samples of the last millisecond; at rest since when its current is small, whether
it has been; charge discharged and not yet counted in its cycles; the partial cycle in progress: SoC and charge at its rest point, whether
disqualified, lowest and highest temperature; since when a fault condition holds (sensor, voltage, temperature); rejections in a row below half; when
it was last learned, with its impedance then; empty under load; counting at the loss report; when it was last sampled. -/
structure Str where
  q : Nat
  rt : List Nat
  soc : Nat
  count : Int
  total : Int
  mv : Int
  ma : Int
  temp : Int
  hist : List (Int × Int)
  restAt : Option Nat
  disch : Nat
  cycle : Option (Nat × Int × Bool × Int × Int)
  railAt : Option Nat
  overAt : Option Nat
  hotAt : Option Nat
  rejects : Nat
  learnt : Option (Nat × Nat)
  empty : Bool
  counted : Bool
  sampledAt : Nat
  deriving DecidableEq, Repr

/-- A learning discharge (19 R678): when its state was entered, SoC and charge at step 3, whether disqualified, lowest and highest temperature, whether the
load is on. -/
structure Learn where
  since : Nat
  soc : Nat
  total : Int
  bad : Bool
  tmin : Int
  tmax : Int
  load : Bool
  deriving DecidableEq, Repr

/-- Mantle: slots, strings, the discharge in hand, the occupancy at the loss, when the millisecond of slot 1's HEADROOM began is in its slot; the compatibility record of
the NOR (sequence number; per string its cycles and impedance table) and when it was written; the last code of each channel of the converter. -/
structure Mnt where
  loops : SMap Loop
  strs : SMap Str
  learn : Option Learn
  lossOcc : Nat
  lossAt : Nat
  compat : Option (Nat × List (Nat × List Nat))
  compatAt : Option Nat
  codes : SMap Nat
  deriving DecidableEq, Repr

def Loop.init : Loop where
  xh := List.replicate 8 0
  xc := List.replicate 8 0
  nu := List.replicate 4 0
  y := List.replicate 4 0
  u := [0, 0]
  carrierAt := 0
  fall := [0, 0]
  d := [0, 0]
  z := 0
  f := 0
  rs := 0
  r := 0
  v := 0
  a := 0
  fresh := true
  satRun := 0
  freeRun := 0
  skips := 0
  rails := [0, 0, 0, 0]
  workEnd := 0
  sampled := none
  headAt := none
  outAt := 0
  change := none
  recording := false
  post := none
  decim := 0
  taken := 0
  samples := []

def Str.init : Str where
  q := 0
  rt := []
  soc := 0
  count := 0
  total := 0
  mv := 0
  ma := 0
  temp := 400
  hist := []
  restAt := none
  disch := 0
  cycle := none
  railAt := none
  overAt := none
  hotAt := none
  rejects := 0
  learnt := none
  empty := false
  counted := false
  sampledAt := 0

/-! ### Maintenance (22) -/

/-- A maintenance activity that runs or waits: its code of 22 Table 22.4, its resource, since when it waits or runs, running, stopped by a flush or an entry or a
take (R741), asked for by a request. -/
structure Act where
  code : Nat
  res : Nat
  since : Nat
  running : Bool
  paused : Bool
  asked : Bool
  deriving DecidableEq, Repr

/-- Maintenance and the margin plan: the activities that run or wait; when each (2^32 × code + resource) last ended; positions; recalibration periods in force where they differ
(minutes, by link) and good recalibrations in a row; threshold periods in force where they differ (hours, by link) and since when the link
is below its value; the first AVS reference and when one was last taken; when the last pass was; the last mailbox opcode; the retry counts of the reads
of the last 7 days, newest first (when, 32 × link + die, retries); since when the junction has been between 60 °C and 70 °C; the strings whose
capacity was last found low. -/
structure Maint where
  acts : List Act
  began : SMap Nat
  positions : SMap Nat
  recal : SMap Nat
  recalGood : SMap Nat
  thresh : SMap Nat
  threshSince : SMap Nat
  avsFirst : Option Nat
  avsAt : Nat
  passAt : Nat
  lastOp : Nat
  retries : List (Nat × Nat × Nat)
  avsSince : Option Nat
  lowQ : List Nat
  deriving DecidableEq, Repr

/-! ### The management port (03 SPDM responder, recovery mode) -/

/-- The management port: the SPDM connection (0 none, 1 version, 2 capabilities, 3 algorithms agreed), its transcripts (the negotiation, the digests and
certificates read, the measurements), and the messages sent. -/
structure Mgmt where
  stage : Nat
  vca : List Byte
  certs : List Byte
  meas : List Byte
  sent : List (List Byte)
  deriving DecidableEq, Repr

def Thm.init : Thm where
  recent := []
  raw := 0
  rawRun := 0
  warn := false
  enf := false
  riseW := false
  riseE := false
  tmt1 := false
  tmt2 := false
  fresh := false
  grace := none
  enfAt := none
  enfNs := 0
  trip := none
  tripAt := 0
  killed := false
  waiting := false
  acked := false
  selfTest := none
  selfAt := 0
  below := none
  tripTimes := []
  warnNs := 0
  critNs := 0
  tmt1N := 0
  tmt1Ns := 0
  tmt2N := 0
  tmt2Ns := 0
  fans := []
  lastAt := 0
  fault := 0
  ackDue := false
  last := none

/-- The state of the block. -/
structure State where
  pending : List Instr
  now : Nat
  fresh : Nat
  regs : SMap Word
  latches : SMap Word
  /-- What the last read of each agent returned, as wide as the read. -/
  reads : SMap Nat
  /-- Log pages 0xC2 and 0xC3 as last read, by 4 × page + Log Specific Field: the GENERATION returned and the rest. -/
  pages : SMap (Nat × List Byte)
  fit : Fit
  evt : EvtOut
  image : Image
  boot : Boot
  board : Board
  nvme : Nvme
  life : Life
  stp : Stp
  win : Window
  path : Path
  ftl : Ftl
  cph : Cph
  takes : Takes
  pwr : Pwr
  slv : Slvs
  links : SMap Lnk
  thm : Thm
  dram : Dram
  mnt : Mnt
  maint : Maint
  port : Mgmt
  deriving DecidableEq, Repr

/-! ### What each part holds after reset -/

def Stp.init : Stp where
  base := 0
  baseAt := 0
  slew := 0
  delays := []
  lockRun := 0
  unlockRun := 0
  breakAt := 0
  uncBreak := 0
  slewEnd := 0
  acquireAt := 0
  timeAt := none
  healing := false
  members := []
  seen := []
  bcast := 0
  casts := []
  calStaged := 0
  calWritten := false
  ppsAt := none
  txSeq := []
  sent := []
  established := false
  dnCount := 0

def Window.init : Window where
  occ := 0
  waiting := []
  chunkSeq := 0
  tokens := 67108864
  tokensAt := 0
  readTokens := 67108864
  readTokensAt := 0
  refused := false
  hard := 0
  limitReady := false
  quietOpen := true
  cands := []
  ceiling := 0
  falls := []
  draining := false
  clearSince := none
  ingress := []
  grants := []

def Path.init : Path where
  stuck := []
  writes := []
  reads := []
  trims := []
  waits := []
  done := []
  failed := []
  nextId := 1
  unitsWritten := 0
  unitsRead := 0
  hostReads := 0
  hostWrites := 0
  marks := []

def Health.init : Health where
  generation := 0
  rebuilt := []
  unreadable := []
  disagree := []
  mismatches := 0
  auditPasses := 0
  auditLastEnd := 0
  metaRewrites := 0
  programFails := 0
  resent := 0
  linkFails := []
  linkReads := []
  slowEntries := []
  events := []

def Ftl.init : Ftl where
  map := []
  jmap := []
  seqNext := 0
  seqCeil := 0
  ceilPending := false
  stripes := []
  bands := []
  blocks := []
  nextStripe := 0
  nextBand := 0
  everProgrammed := false
  pendingQ := []
  units := []
  trims := []
  bandsJournaled := 0
  page := []
  pageSince := 0
  pages := []
  jseq := 0
  cps := []
  cpStart := 0
  cpWanted := false
  fineNum := []
  unreadable := []
  disagree := []
  shreds := []
  flush := Flush.none
  health := Health.init
  rebuildStripes := []
  rebuildTotal := 0
  rebuildAt := 0
  rebuildBytes := 0
  auditNext := 0
  auditRunning := false
  absentDies := []
  spareAtStart := none
  fineWaitSeq := 0
  linkProg := []
  linkCount := []
  linkAvg := []
  medians := []
  probes := []
  probeTurn := []
  gcRunning := false
  metas := []
  extent := none
  extentUsed := 0
  extentNext := none
  takeDir := 0
  configCopy := none

def Cph.init : Cph where
  slots := []
  recs := []
  half := 0
  epoch := 0
  used := 64
  ops := []
  held := []
  loadPriv := []
  passWindows := 0

def Takes.init : Takes where
  dir := []
  nextTake := 1
  generation := 0
  inflight := []
  dmas := []
  hostWrites := []
  replies := []
  discardTotal := 0
  rotation := 0
  recent := []

/-- Right after reset: VAUX has come up, nothing has run (03 R84 phase ROM). Every register holds the value RegMap
gives it. Where the manual gives no value the log entries name the one taken. -/
def State.reset : State where
  pending := []
  now := 0
  fresh := 0
  regs := []
  latches := []
  reads := []
  pages := []
  fit := ⟨[], [], 0, []⟩
  evt := ⟨[], [], []⟩
  image := ⟨[], false, 0, none, none, none, [], none⟩
  boot := {
    otp := [(0, 0x00115120), (3, 1)], meas := [], seq := 0,
    kinds := List.replicate 4 ⟨0, none, none, 0⟩, slots := [], journalSuspect := false,
    bootSel := 0, belfrySlotLatch := 0, belfryHalted := false,
    phaseSince := 0, auxResetAt := 0, mainInitAt := 0, rdyAt := none,
    recoveryBuf := [], fails := 0, onPrevious := false, loaded := false, running := [], lastEnd := 5, commit := none }
  board := {
    vaux := true, pwrKill := true, thermTrip := false, mainPg := false, sysRst := false, perst := [true, true],
    mainRunning := false, railStage := 0, railSince := 0, railDone := none, railsAbandoned := false, vcore := 0, spiReleased := false,
    railRetryAt := none, railRetried := false, railFault := none,
    downStage := 0, pfiLow := false, pfiSince := 0, pfiReport := false, faultN := true, faultNSince := 0,
    pulses := [], trigInLast := none, belGpio := 0 }
  nvme := {
    ctrls := [], cpls := [], outs := [], fetchSeq := 0, nss := [], sanitize := ⟨0, 0, false, 0, 0, [], [], false, [], 0, 0⟩,
    tempOver := none, tempUnder := 0, tempOverIn := false, tempUnderIn := false, miFreq := 100, miUnit := 64,
    miReplies := [], fetchStopped := false, seqWaits := [] }
  life := ⟨[], 0, [], [], [], [], [], [], [], none, none, 0, 0, none, 0⟩
  stp := Stp.init
  win := Window.init
  path := Path.init
  ftl := Ftl.init
  cph := Cph.init
  takes := Takes.init
  pwr := ⟨0, 0, 0, 0, 0, false, [], [], none, 0, none, 0, none, 0⟩
  slv := ⟨[], [], 1, none⟩
  links := []
  thm := Thm.init
  dram := ⟨[], [], [], [], []⟩
  mnt := ⟨[], [], none, 0, 0, none, none, []⟩
  maint := ⟨[], [], [], [], [], [], [], none, 0, 0, 0, [], none, []⟩
  port := ⟨0, [], [], [], []⟩

end Sys2Proof.Machine
end

