-- ==== Sys2Proof/Machine/Bytes.lean ====
section
/-!
DEFINITION. Machine/Bytes.lean: byte order, CRC-32C and the sparse tables the state is made of.
-/
namespace Sys2Proof.Machine

/-! ### Sparse tables -/

/-- What key k reads as in a sparse table whose unlisted keys read as d. -/
def mapGet {V : Type} (d : Nat → V) : SMap V → Nat → V
  | [], k => d k
  | (a, v) :: m, k => if k = a then v else mapGet d m k

/-- Writes v at key k, keeping the canonical form: keys rising, no entry equal to what it would read as unlisted. -/
def mapSet {V : Type} [DecidableEq V] (d : Nat → V) (m : SMap V) (k : Nat) (v : V) : SMap V :=
  (m.filter fun (e : Nat × V) => e.1 < k) ++ ((if v = d k then [] else [(k, v)]) ++ m.filter fun (e : Nat × V) => k < e.1)

/-- The canonical form: every key above b, keys rising, no entry equal to its unlisted value. -/
def mapWfFrom {V : Type} [DecidableEq V] (d : Nat → V) : Nat → SMap V → Bool
  | _, [] => true
  | b, (a, v) :: m => decide (b ≤ a) && decide (v ≠ d a) && mapWfFrom d (a + 1) m

/-- The canonical form of a sparse table. -/
def mapWf {V : Type} [DecidableEq V] (d : Nat → V) (m : SMap V) : Bool := mapWfFrom d 0 m

/-! ### Bytes -/

/-- The byte at index i of a list of bytes; 0 past its end. -/
def byteAt (b : List Byte) (i : Nat) : Nat := (b.getD i 0).toNat

/-- The little-endian integer of n bytes from index off. -/
def leAt (b : List Byte) (off : Nat) : Nat → Nat
  | 0 => 0
  | n + 1 => byteAt b off + 256 * leAt b (off + 1) n

/-- n bytes of v, least significant first. -/
def leBytes : Nat → Nat → List Byte
  | 0, _ => []
  | n + 1, v => BitVec.ofNat 8 v :: leBytes n (v / 256)

/-- n bytes of v, most significant first. -/
def beBytes (n v : Nat) : List Byte := (leBytes n v).reverse

/-- n bytes from index off. -/
def slice (b : List Byte) (off n : Nat) : List Byte := (b.drop off).take n

/-- Bytes followed by zeros to n bytes. -/
def padTo (n : Nat) (b : List Byte) : List Byte := b ++ List.replicate (n - b.length) 0

/-- One step of CRC-32C over one bit, reflected polynomial 0x82F6_3B78. -/
def crcBit (c : BitVec 32) : BitVec 32 :=
  if c.getLsbD 0 then (c >>> 1) ^^^ 0x82F63B78#32 else c >>> 1

/-- One byte of CRC-32C. -/
def crcByte (c : BitVec 32) (b : Byte) : BitVec 32 :=
  crcBit (crcBit (crcBit (crcBit (crcBit (crcBit (crcBit (crcBit (c ^^^ b.setWidth 32))))))))

/-- CRC-32C: polynomial 0x1EDC_6F41 reflected, initial value and final XOR 0xFFFF_FFFF (04 Records; 08 R298). -/
def crc32c (b : List Byte) : Nat := ((b.foldl crcByte 0xFFFFFFFF#32) ^^^ 0xFFFFFFFF#32).toNat

/-- The bytes of a SHA-384 value, first byte first. -/
def digestBytes (d : BitVec 384) : List Byte := beBytes 48 d.toNat

/-- Adds up to a ceiling: counters that saturate. -/
def satAdd (top a b : Nat) : Nat := min top (a + b)

/-- The two's complement reading of a w-bit number. -/
def signed (w v : Nat) : Int := if v % 2 ^ w < 2 ^ (w - 1) then (v % 2 ^ w : Int) else (v % 2 ^ w : Int) - 2 ^ w

/-- The w-bit two's complement code of an integer. -/
def toCode (w : Nat) (i : Int) : Nat := (i % (2 ^ w : Int)).toNat

/-- Replaces the element at index i by its image. -/
def modAt {α : Type} (l : List α) (i : Nat) (f : α → α) : List α :=
  match l, i with
  | [], _ => []
  | x :: xs, 0 => f x :: xs
  | x :: xs, i + 1 => x :: modAt xs i f

/-- Saturating conversion of a condition into a bit. -/
def bit (b : Bool) : Nat := if b then 1 else 0

/-- Ceiling of a quotient. -/
def ceilDiv (a b : Nat) : Nat := (a + b - 1) / b

end Sys2Proof.Machine
end

