-- ==== Sys2Proof/Machine/Image.lean ====
section
/-!
DEFINITION. Machine/Image.lean: the Dailaquin image (04_dailaquin_image.md): its field tables, the clamping of a field,
the refusal conditions, the record rules, the cross-field checks, and the values of the configuration in force.
-/
namespace Sys2Proof.Machine

/-! ### Field tables (04 Tables 4.4 to 4.14) -/

/-- The kinds of limit of 04 Table 4.3. -/
inductive Limit where
  | any
  | range (lo hi : Nat)
  | step (lo hi st : Nat)
  | set (members : List Nat)
  | bitmap (defined : Nat)
  | code (ranges : List (Nat × Nat))
  deriving DecidableEq, Repr

/-- A field of a record: byte offset, size in bytes, limit and default. -/
structure FieldSpec where
  off : Nat
  size : Nat
  limit : Limit
  dflt : Nat
  deriving DecidableEq, Repr

def boardSpecs : List FieldSpec :=
  [⟨0, 4, .any, 0⟩, ⟨4, 1, .range 0 1, 0⟩, ⟨5, 1, .range 0 4, 0⟩, ⟨6, 1, .range 1 4, 2⟩, ⟨7, 1, .bitmap 3, 3⟩,
   ⟨8, 2, .range 620 820, 620⟩, ⟨10, 2, .range 620 820, 820⟩] ++
  (List.range 10).flatMap fun i => [⟨12 + 2 * i, 1, .range 0x08 0x77, 0x08⟩, ⟨13 + 2 * i, 1, .range 0 31, 0⟩]

def linkGroupSpecs : List FieldSpec :=
  [⟨0, 1, .code [(0, 63), (0xFF, 0xFF)], 0⟩, ⟨1, 1, .range 0 15, 0⟩, ⟨2, 1, .range 1 2, 1⟩, ⟨3, 1, .code [(0, 2)], 0⟩,
   ⟨4, 1, .range 1 32, 32⟩, ⟨5, 1, .range 1 8, 8⟩] ++
  (List.range 64).map fun i => ⟨8 + i, 1, .any, 0⟩

def personalitySpecs : List FieldSpec :=
  [⟨0x00, 8, .any, 0⟩, ⟨0x08, 8, .any, 0⟩, ⟨0x10, 1, .code [(0, 1)], 0⟩, ⟨0x11, 1, .range 1 4, 3⟩,
   ⟨0x12, 2, .step 400 3600 200, 1600⟩, ⟨0x14, 4, .step 8192 32768 4096, 16384⟩, ⟨0x18, 2, .range 0 8192, 2048⟩,
   ⟨0x1A, 1, .range 1 8, 4⟩, ⟨0x1C, 2, .range 64 4096, 1536⟩, ⟨0x1E, 2, .step 0 16384 4, 0⟩,
   ⟨0x20, 4, .range 256 65536, 2048⟩, ⟨0x24, 2, .range 100 20000, 3000⟩, ⟨0x26, 2, .range 1000 50000, 15000⟩,
   ⟨0x28, 2, .range 10 1000, 100⟩, ⟨0x2A, 2, .range 0 5000, 200⟩, ⟨0x2C, 2, .range 10 2000, 137⟩,
   ⟨0x2E, 2, .range 0 64, 16⟩] ++
  (List.range 16).map fun i => ⟨0x30 + 2 * i, 2, .code [(0, 8191), (0xFFFF, 0xFFFF)], 0xFFFF⟩

def stripeSpecs : List FieldSpec :=
  [⟨0, 1, .range 4 32, 32⟩, ⟨1, 1, .range 1 2, 2⟩, ⟨2, 1, .range 4 50, 7⟩, ⟨4, 2, .range 0 256, 32⟩,
   ⟨8, 8, .any, 0xFFFFFFFFFFFFFFFF⟩]

def namespaceSpecs : List FieldSpec :=
  [⟨0, 4, .range 1 256, 1⟩, ⟨4, 1, .code [(0, 4)], 0⟩, ⟨5, 1, .range 0 3, 0⟩, ⟨6, 1, .range 0 1, 0⟩, ⟨8, 4, .any, 0⟩,
   ⟨12, 2, .range 0 1023, 0⟩]

def portSpecs : List FieldSpec :=
  [⟨0, 1, .range 0 1, 0⟩, ⟨1, 1, .range 0 1, 1⟩, ⟨2, 1, .range 0 1, 0⟩, ⟨3, 1, .code [(0, 3)], 0⟩,
   ⟨4, 2, .range 1 1024, 1024⟩, ⟨8, 4, .range 2 65536, 65536⟩, ⟨12, 2, .range 1 2048, 2048⟩, ⟨14, 1, .code [(0, 3)], 3⟩,
   ⟨15, 1, .code [(0, 1)], 0⟩, ⟨16, 2, .any, 0⟩, ⟨18, 2, .any, 0⟩]

def dramSpecs : List FieldSpec :=
  [⟨0, 2, .set [6400, 7500, 8533], 8533⟩, ⟨2, 1, .set [4, 6, 8, 12, 16, 24, 32], 8⟩, ⟨3, 1, .range 1 2, 1⟩,
   ⟨4, 1, .range 8 16, 12⟩, ⟨6, 2, .range 8 512, 64⟩, ⟨8, 2, .range 100 10000, 2000⟩]

/-- The fields of the MANTLE_PLANT block of one slot, at offset 0x300 * slot. -/
def plantSlotSpecs (slot : Nat) : List FieldSpec :=
  let o := 0x300 * slot
  [⟨o, 1, .range 0 1, 0⟩, ⟨o + 1, 1, .range 1 8, 1⟩, ⟨o + 2, 1, .range 1 4, 1⟩, ⟨o + 3, 1, .range 1 2, 1⟩,
   ⟨o + 4, 2, .range 250 500, 250⟩, ⟨o + 6, 1, .code [(0, 2)], 0⟩, ⟨o + 7, 1, .range 8 30, 24⟩,
   ⟨o + 8, 2, .bitmap 0xFFF, 0⟩, ⟨o + 10, 2, .bitmap 0xFFF, 0⟩] ++
  ((List.range 4).map fun j => ⟨o + 12 + j, 1, .code [(0, 15), (0xFF, 0xFF)], 0xFF⟩) ++
  [⟨o + 16, 4, .range 1 2147483647, 1⟩, ⟨o + 20, 4, .range 1 2147483647, 1⟩, ⟨o + 24, 4, .range 1 2147483647, 1⟩,
   ⟨o + 28, 2, .any, 0⟩] ++
  (List.range 164).map fun j => ⟨o + 0x20 + 4 * j, 4, .any, 0⟩

def plantSpecs : List FieldSpec := (List.range 4).flatMap plantSlotSpecs

/-- The fields of one string block of MANTLE_STORE, at 8 + 32 * s. -/
def stringSpecs (s : Nat) : List FieldSpec :=
  let o := 8 + 32 * s
  [⟨o, 1, .code [(0, 2)], 0⟩, ⟨o + 1, 1, .range 1 64, 1⟩, ⟨o + 4, 4, .range 1000 4000000000, 1000⟩,
   ⟨o + 8, 2, .range 1000 60000, 1000⟩, ⟨o + 10, 2, .range 1000 60000, 1000⟩, ⟨o + 12, 4, .range 100 10000000, 100000⟩,
   ⟨o + 16, 4, .range 100 60000, 100⟩, ⟨o + 20, 4, .range 100 200000, 100⟩,
   ⟨o + 24, 1, .code [(0, 15), (0xFF, 0xFF)], 0xFF⟩, ⟨o + 25, 1, .code [(0, 15), (0xFF, 0xFF)], 0xFF⟩,
   ⟨o + 26, 1, .code [(0, 15), (0xFF, 0xFF)], 0xFF⟩]

def storeSpecs : List FieldSpec :=
  [⟨0, 1, .range 1 4, 1⟩, ⟨1, 1, .range 10 100, 20⟩, ⟨2, 2, .range 30 150, 100⟩, ⟨4, 2, .range 10000 36000, 12000⟩] ++
  (List.range 4).flatMap stringSpecs

def thermalSpecs : List FieldSpec :=
  [⟨0, 1, .range 60 105, 95⟩, ⟨1, 1, .range 65 110, 105⟩, ⟨2, 2, .range 500 60000, 5000⟩, ⟨4, 1, .code [(0, 1)], 1⟩,
   ⟨5, 1, .range 60 100, 85⟩, ⟨6, 1, .range 65 110, 95⟩, ⟨8, 2, .range 16 512, 128⟩]

def powerSpecs : List FieldSpec :=
  [⟨0, 2, .bitmap 0x7F, 0x7F⟩, ⟨2, 1, .range 0 1, 1⟩, ⟨3, 1, .range 0 1, 1⟩, ⟨4, 4, .range 0 86400, 0⟩]

def steepleSpecs : List FieldSpec :=
  [⟨0, 1, .code [(0, 3)], 0⟩, ⟨1, 1, .code [(0, 3)], 0⟩, ⟨4, 4, .any, 0⟩, ⟨8, 2, .range 10 500, 500⟩]

def takeSpecs : List FieldSpec :=
  [⟨0, 2, .range 0 600, 0⟩, ⟨2, 1, .range 1 16, 16⟩, ⟨3, 1, .bitmap 7, 7⟩, ⟨4, 4, .range 64 1073741824, 1073741824⟩,
   ⟨8, 1, .range 0 1, 0⟩]

def cipherSpecs : List FieldSpec := [⟨0, 1, .range 32 62, 40⟩, ⟨1, 1, .bitmap 7, 7⟩, ⟨2, 1, .code [(0, 1)], 0⟩]

def maintSpecs : List FieldSpec :=
  [⟨0, 2, .range 1 365, 30⟩, ⟨2, 2, .range 1 720, 24⟩, ⟨4, 2, .range 7 365, 90⟩, ⟨6, 2, .range 1 1440, 60⟩,
   ⟨8, 2, .range 1 720, 168⟩, ⟨10, 2, .range 1 300, 10⟩, ⟨12, 2, .range 7 365, 90⟩, ⟨14, 1, .range 0 1, 0⟩]

/-- The fields of a record type; none for a type outside 04 Table 4.2. -/
def fieldSpecs (ty : Nat) : List FieldSpec :=
  if ty = 0x01 then boardSpecs else if ty = 0x02 then linkGroupSpecs
  else if 0x10 ≤ ty ∧ ty ≤ 0x1F then personalitySpecs
  else if ty = 0x20 then stripeSpecs else if ty = 0x30 then namespaceSpecs else if ty = 0x40 then portSpecs
  else if ty = 0x50 then dramSpecs else if ty = 0x60 then plantSpecs else if ty = 0x61 then storeSpecs
  else if ty = 0x70 then thermalSpecs else if ty = 0x80 then powerSpecs else if ty = 0x90 then steepleSpecs
  else if ty = 0xA0 then takeSpecs else if ty = 0xB0 then cipherSpecs else if ty = 0xC0 then maintSpecs else []

/-- The defined length of a record type (04 Table 4.2), PTABLE apart. -/
def definedLength (ty : Nat) : Nat :=
  if ty = 0x01 then 32 else if ty = 0x02 then 72 else if 0x10 ≤ ty ∧ ty ≤ 0x1F then 80 else if ty = 0x20 then 16
  else if ty = 0x30 then 24 else if ty = 0x40 then 20 else if ty = 0x50 then 12 else if ty = 0x60 then 3072
  else if ty = 0x61 then 136 else if ty = 0x70 then 12 else if ty = 0x80 then 8 else if ty = 0x90 then 12
  else if ty = 0xA0 then 12 else if ty = 0xB0 then 4 else if ty = 0xC0 then 16 else 0

/-- Most instances of a record type that are kept (04 Table 4.2, R121). -/
def instanceLimit (ty : Nat) : Nat := if ty = 0x02 then 65 else if ty = 0x30 then 256 else if ty = 0x40 then 2 else 1

def isPersonality (ty : Nat) : Bool := 0x10 ≤ ty && ty ≤ 0x1F

/-- The default of the field at an offset of a record of type ty. -/
def fieldDefault (ty off : Nat) : Nat :=
  match (fieldSpecs ty).find? (fun f => f.off == off) with
  | some f => f.dflt
  | none => 0

/-! ### Clamping (04 R124, Table 4.3) -/

def inRanges (rs : List (Nat × Nat)) (v : Nat) : Bool := rs.any fun r => r.1 ≤ v && v ≤ r.2

/-- The largest member below v, or the smallest member. -/
def setBelow (ms : List Nat) (v : Nat) : Nat :=
  match (ms.filter (· < v)).max? with
  | some m => m
  | none => (ms.min?).getD 0

/-- The clamped value of a field and, where it was adjusted, the reason of the last adjustment (04 Table 4.18). -/
def clampValue (l : Limit) (dflt v : Nat) : Nat × Option Nat :=
  match l with
  | .any => (v, none)
  | .bitmap m => (v &&& m, none)
  | .range lo hi => if v < lo then (lo, some 1) else if hi < v then (hi, some 2) else (v, none)
  | .step lo hi st =>
    let r := if v < lo then (lo, some 1) else if hi < v then (hi, some 2) else (v, none)
    let d := r.1 / st * st
    if d = r.1 then r else (d, some 3)
  | .set ms => if ms.contains v then (v, none) else (setBelow ms v, some 4)
  | .code rs => if inRanges rs v then (v, none) else (dflt, some 4)

/-! ### The value of a field of the configuration in force -/

def Rec.get (r : Rec) (off : Nat) : Nat := mapGet (fieldDefault r.ty) r.vals off

def cfgFind (cfg : List Rec) (ty inst : Nat) : Option Rec := cfg.find? fun r => r.ty == ty && r.inst == inst

/-- The value of a field of record inst of type ty; its default where there is no such record (04 R123). -/
def cfgGet (cfg : List Rec) (ty inst off : Nat) : Nat :=
  match cfgFind cfg ty inst with
  | some r => r.get off
  | none => fieldDefault ty off

def recsOf (cfg : List Rec) (ty : Nat) : List Rec := cfg.filter fun r => r.ty == ty

/-- The record lists link n. -/
def Rec.listsLink (r : Rec) (n : Nat) : Bool := (r.get (8 + n / 8)).testBit (n % 8)

/-- The LINK_GROUP record of a populated link (04 R127); none for an unpopulated one. -/
def groupOf (cfg : List Rec) (n : Nat) : Option Rec :=
  (recsOf cfg 0x02).find? fun r => r.get 0 != 0xFF && r.listsLink n

def populated (cfg : List Rec) (n : Nat) : Bool := (groupOf cfg n).isSome

/-- The FLASH_PERSONALITY record a populated link's group names. -/
def personalityOf (cfg : List Rec) (n : Nat) : Option Rec :=
  match groupOf cfg n with
  | some g => cfgFind cfg (0x10 + g.get 1) 0
  | none => none

def linksPopulated (cfg : List Rec) : Nat := ((List.range 512).filter (populated cfg)).length

/-- Data bytes of one die of a personality. -/
def dieBytes (p : Rec) : Nat := p.get 0x1A * p.get 0x20 * p.get 0x1C * p.get 0x14

/-- Raw bytes behind a link. -/
def linkRaw (cfg : List Rec) (n : Nat) : Nat :=
  match groupOf cfg n, personalityOf cfg n with
  | some g, some p => g.get 4 * dieBytes p
  | _, _ => 0

def rawBytes (cfg : List Rec) : Nat := ((List.range 512).map (linkRaw cfg)).sum

/-- User capacity in 2 MiB units (11 R380). -/
def userUnits (cfg : List Rec) : Nat :=
  let w := cfgGet cfg 0x20 0 0
  let p := cfgGet cfg 0x20 0 1
  rawBytes cfg * (w - p) * (100 - cfgGet cfg 0x20 0 2) / (w * 100 * 2097152)

/-- The map reserve in GiB (04 after Table 4.10). -/
def mapReserveGib (cfg : List Rec) : Nat := 8 + ceilDiv (8 * userUnits cfg) 1073741824

/-- Usable DRAM in eighths of a GiB with n channels in service: n * CH_GIB * 7/8 GiB, kept exact (04 Table 4.10, 17 R628). -/
def usableDramEighths (n : Nat) (cfg : List Rec) : Nat := n * cfgGet cfg 0x50 0 2 * 7

/-- Controllers that exist (04 Table 4.9): port p has its first controller when enabled, its second when bifurcated.
A port without a record takes the defaults. -/
def portRec (cfg : List Rec) (p : Nat) : Option Rec := (recsOf cfg 0x40).find? fun r => r.get 0 == p

def portGet (cfg : List Rec) (p off : Nat) : Nat :=
  match portRec cfg p with
  | some r => r.get off
  | none => fieldDefault 0x40 off

def controllerExists (cfg : List Rec) (c : Nat) : Bool :=
  portGet cfg (c / 2) 1 == 1 && (c % 2 == 0 || portGet cfg (c / 2) 2 == 1)

/-! ### Framing and refusal (04 R116, R117) -/

/-- A record frame: its type, LENGTH, offset in the image, body and CRC as stored. -/
structure Frame where
  ty : Nat
  length : Nat
  pos : Nat
  body : List Byte
  crc : Nat
  deriving DecidableEq, Repr

/-- Steps through n frames from offset o of an image of length len; none when a frame runs past len or does not end
exactly there. -/
def framesFrom (b : List Byte) (len : Nat) : Nat → Nat → Option (List Frame)
  | 0, o => if o = len then some [] else none
  | n + 1, o =>
    if o + 8 ≤ len then
      let l := leAt b (o + 2) 2
      if o + 8 + l ≤ len then
        match framesFrom b len n (o + 8 + l) with
        | some fs => some (⟨leAt b o 2, l, o, slice b (o + 4) l, leAt b (o + 4 + l) 4⟩ :: fs)
        | none => none
      else none
    else none

def frameCrcOk (b : List Byte) (f : Frame) : Bool := crc32c (slice b f.pos (4 + f.length)) == f.crc

/-- Who signed: 0 unsigned, 1 Korernath root, 2 active owner, 3 another key. -/
def signerOf (root owner : Option (BitVec 384)) (sigType : Nat) (pubkey : List Byte) : Nat :=
  if sigType = 0 then 0
  else
    let h := some (Config.sha384 pubkey)
    if h = root then 1 else if h = owner then 2 else 3

/-- Set bits of a thermometer count. -/
def thermoCount (v : Nat) : Nat := ((List.range 64).filter fun i => v.testBit i).length

/-- What R117 needs of the device: root hash, active owner hash, lifecycle, ARB_IMAGE count. -/
structure TrustIn where
  root : Option (BitVec 384)
  owner : Option (BitVec 384)
  lifecycle : Nat
  arb : Nat
  deriving DecidableEq, Repr

/-- A block is signed by the key a hash names; one key can be both root and active owner. -/
def signedBy (h : Option (BitVec 384)) (sigType : Nat) (pubkey : List Byte) : Bool := sigType != 0 && h == some (Config.sha384 pubkey)

/-- 03 Table 3.6: the signers accepted for a component kind (0 Belfry firmware, 1 main firmware, 2 microcode, 3 image) in a
lifecycle state (0 MANUFACTURE, 1 OPEN, 3 OWNED, 7 RETIRED). A signer other than unsigned has a signature that verifies. -/
def signerAccepted (kind : Nat) (t : TrustIn) (sigType : Nat) (pubkey : List Byte) : Bool :=
  if kind ≤ 1 then signedBy t.root sigType pubkey
  else if t.lifecycle = 0 then true
  else if t.lifecycle = 1 then kind != 2 || sigType == 0 || signedBy t.root sigType pubkey
  else if t.lifecycle = 3 then signedBy t.owner sigType pubkey
  else false

/-- Bytes as erased NOR reads them past what was written (R117). -/
def erasedTo (b : List Byte) (n : Nat) : List Byte := b ++ List.replicate (n - b.length) 0xFF

/-- The first condition of R117 that holds, as its cause code; 0 when none holds. -/
def refuseCause (b0 : List Byte) (t : TrustIn) : Nat :=
  let h := erasedTo b0 512
  let len := leAt h 8 4
  let cnt := leAt h 6 2
  if leAt h 0 4 ≠ 0x4E514C44 ∨ leAt h 4 2 ≠ 1 ∨ leAt h 12 4 ≠ 0x5120 then 2
  else if len < 520 ∨ 524288 < len ∨ len % 4 ≠ 0 ∨ cnt < 1 ∨ 1024 < cnt then 1
  else
    let b := erasedTo b0 len
    if slice b 0x20 48 ≠ digestBytes (Config.sha384 (slice b 0x200 (len - 0x200))) then 3
    else match framesFrom b len cnt 0x200 with
      | none => 1
      | some fs =>
        if fs.any (fun f => f.length % 4 != 0) then 1
        else if fs.any (fun f => !frameCrcOk b f) then 3
        else
          let st := byteAt b 0x15
          if 1 < st then 4
          else if st = 1 ∧ ¬ Config.ecdsaVerify (slice b 0x50 97) (Config.sha384 (slice b 0 0xB4)) (slice b 0xB4 96) then 4
          else if ¬ signerAccepted 3 t st (slice b 0x50 97) then 5
          else if 64 < byteAt b 0x14 ∨ byteAt b 0x14 < t.arb then 6
          else 0

/-! ### Records of an accepted image (04 R121, R122, R127) -/

/-- What the record loop has kept so far: the records, the ordinal of each type seen, the entries of the report. -/
structure LoadAcc where
  recs : List Rec
  seen : SMap Nat
  entries : List ClampEntry
  deriving DecidableEq, Repr

def recordEntry (f : Frame) (inst reason applied : Nat) : ClampEntry := ⟨f.ty, inst, f.pos, 0, 0, reason, 0, f.length, applied⟩

/-- The fields of one record body clamped: the values that differ from their defaults and the entries. `skip` names the
ignored fields of R127. -/
def clampFields (ty inst len : Nat) (body : List Byte) (skip : Nat → Bool) : List FieldSpec → SMap Nat × List ClampEntry
  | [] => ([], [])
  | f :: fs =>
    let r := clampFields ty inst len body skip fs
    if skip f.off || len < f.off + f.size then r
    else
      let v := leAt body f.off f.size
      let c := clampValue f.limit f.dflt v
      let vals := if c.1 = f.dflt then r.1 else (f.off, c.1) :: r.1
      match c.2 with
      | some reason => (vals, ⟨ty, inst, f.off, 8 * f.size, 0, reason, 0, v, c.1⟩ :: r.2)
      | none => (vals, r.2)

/-- Keeps or drops one record frame and clamps its fields. -/
def loadRecord (a : LoadAcc) (f : Frame) : LoadAcc :=
  let ord := mapGet (fun _ => 0) a.seen f.ty
  let a1 := { a with seen := mapSet (fun _ => 0) a.seen f.ty (ord + 1) }
  if definedLength f.ty = 0 then { a1 with entries := a1.entries ++ [recordEntry f ord 5 0] }
  else if instanceLimit f.ty ≤ ord then
    { a1 with entries := a1.entries ++ [recordEntry f ord (if instanceLimit f.ty = 1 then 6 else 7) 0] }
  else
    -- R127: the ignored fields of GROUP 0xFF; R122: LINKS is one field of 64 bytes
    let skip : Nat → Bool := fun o => f.ty == 2 && ((byteAt f.body 0 == 0xFF && 1 ≤ o && o ≤ 5) || (f.length < 72 && 8 ≤ o))
    let cf := clampFields f.ty ord f.length f.body skip (fieldSpecs f.ty)
    if isPersonality f.ty then
      let want := mapGet (fieldDefault f.ty) cf.1 0x1E
      let have' := f.length - 80
      let pl := if f.length < 80 + want then have' else want
      let short := f.length < 80 + want
      let es := if pl < want then cf.2.filter (fun e => e.location != 0x1E) else cf.2
      let vals := mapSet (fieldDefault f.ty) cf.1 0x1E pl
      let extra := if short then [recordEntry f ord 8 (80 + pl)]
        else if 80 + want < f.length then [recordEntry f ord 9 (80 + want)] else []
      { a1 with recs := a1.recs ++ [⟨f.ty, ord, vals, slice f.body 80 pl⟩], entries := a1.entries ++ es ++ extra }
    else
      let dl := definedLength f.ty
      let extra := if f.length < dl then [recordEntry f ord 8 dl] else if dl < f.length then [recordEntry f ord 9 dl] else []
      { a1 with recs := a1.recs ++ [⟨f.ty, ord, cf.1, []⟩], entries := a1.entries ++ cf.2 ++ extra }

def loadRecords (fs : List Frame) : LoadAcc := fs.foldl loadRecord ⟨[], [], []⟩

/-! ### Cross-field checks (04 R131, Table 4.15) -/

/-- A failing check: its number and the record it reports. -/
structure CheckFail where
  check : Nat
  ty : Nat
  inst : Nat
  deriving DecidableEq, Repr

/-- The first element that satisfies p together with an earlier one. -/
def laterOf (p : Rec → Rec → Bool) : List Rec → List Rec → Option Rec
  | _, [] => none
  | before, r :: rs => if before.any (fun q => p q r) then some r else laterOf p (before ++ [r]) rs

def check1 (cfg : List Rec) : Option CheckFail :=
  let missing (ty : Nat) : Bool := (recsOf cfg ty).isEmpty
  if missing 1 then some ⟨1, 1, 0⟩ else if missing 0x20 then some ⟨1, 0x20, 0⟩ else if missing 0x50 then some ⟨1, 0x50, 0⟩
  else if missing 0x60 then some ⟨1, 0x60, 0⟩ else if missing 0x61 then some ⟨1, 0x61, 0⟩
  else if (recsOf cfg 2).all (fun r => r.get 0 == 0xFF) then some ⟨1, 2, 0⟩
  else if (cfg.filter fun r => isPersonality r.ty).isEmpty then some ⟨1, 0x10, 0⟩ else none

/-- Links in order; the first listed in no record or in a second record. -/
def check2 (cfg : List Rec) : Option CheckFail :=
  (List.range 512).findSome? fun n =>
    match (recsOf cfg 2).filter (fun r => r.listsLink n) with
    | [] => some ⟨2, 2, 0xFFFF⟩
    | [_] => none
    | _ :: r :: _ => some ⟨2, 2, r.inst⟩

def check3 (cfg : List Rec) : Option CheckFail :=
  (laterOf (fun a b => a.get 0 == b.get 0) [] (recsOf cfg 2)).map fun r => ⟨3, 2, r.inst⟩

def realGroups (cfg : List Rec) : List Rec := (recsOf cfg 2).filter fun r => r.get 0 != 0xFF

def check4 (cfg : List Rec) : Option CheckFail :=
  ((realGroups cfg).find? fun r => (cfgFind cfg (0x10 + r.get 1) 0).isNone).map fun r => ⟨4, 2, r.inst⟩

/-- The personalities that groups name, by ascending type. -/
def namedPersonalities (cfg : List Rec) : List Rec :=
  (List.range 16).filterMap fun k =>
    if (realGroups cfg).any (fun g => g.get 1 == k) then cfgFind cfg (0x10 + k) 0 else none

/-- Check 5 for one personality: a mandatory ENTRY absent, or an ENTRY not in the microcode's entry list. -/
def check5Fails (entries : List Nat) (p : Rec) : Bool :=
  [0, 5, 7, 8, 12, 13, 14].any (fun i => p.get (0x30 + 2 * i) == 0xFFFF) ||
  (List.range 16).any (fun i => p.get (0x30 + 2 * i) != 0xFFFF && !entries.contains (p.get (0x30 + 2 * i)))

def check5 (cfg : List Rec) (entries : List Nat) : Option CheckFail :=
  ((namedPersonalities cfg).find? (check5Fails entries)).map fun p => ⟨5, p.ty, 0⟩

def check6 (cfg : List Rec) : Option CheckFail :=
  match (namedPersonalities cfg).find? (fun p => 512 * 1073741824 < dieBytes p) with
  | some p => some ⟨6, p.ty, 0⟩
  | none => ((realGroups cfg).find? fun g => g.get 4 < g.get 5).map fun g => ⟨6, 2, g.inst⟩

/-- The personality codes named by the populated links of a Sleeve. -/
def sleevePersonalities (cfg : List Rec) (s : Nat) : List Nat :=
  ((List.range 8).filterMap fun i => (groupOf cfg (8 * s + i)).map (fun g => g.get 1)).eraseDups

def sleevePtable (cfg : List Rec) (s : Nat) : Nat :=
  ((sleevePersonalities cfg s).map fun k => cfgGet cfg (0x10 + k) 0 0x1E).sum

def check7 (cfg : List Rec) : Option CheckFail :=
  (List.range 64).findSome? fun s =>
    if 65536 < sleevePtable cfg s then
      (List.range 8).findSome? fun i => (groupOf cfg (8 * s + i)).map fun g => ⟨7, 2, g.inst⟩
    else none

def check8 (cfg : List Rec) : Option CheckFail :=
  ((realGroups cfg).find? fun g => cfgGet cfg 0x20 0 1 < g.get 2).map fun g => ⟨8, 2, g.inst⟩

def groupLinks (g : Rec) : Nat := ((List.range 512).filter g.listsLink).length

def check9 (cfg : List Rec) : Option CheckFail :=
  if ((realGroups cfg).map fun g => min (groupLinks g) (g.get 2)).sum < cfgGet cfg 0x20 0 0 then some ⟨9, 0x20, 0⟩ else none

def check10 (cfg : List Rec) : Option CheckFail :=
  if ((realGroups cfg).filter fun g => (cfgGet cfg 0x20 0 8).testBit (g.get 0) && 0 < groupLinks g).length < 3
  then some ⟨10, 0x20, 0⟩ else none

def check11 (cfg : List Rec) : Option CheckFail :=
  if linksPopulated cfg < cfgGet cfg 0x70 0 8 then some ⟨11, 0x70, 0⟩ else none

def check12 (cfg : List Rec) : Option CheckFail :=
  let ns := recsOf cfg 0x30
  let conflict (a b : Rec) : Bool :=
    a.get 0 == b.get 0 || a.get 12 == b.get 12 || (a.get 6 == 1 && b.get 6 == 1) || (a.get 8 == 0 && b.get 8 == 0)
  match laterOf conflict [] ns with
  | some r => some ⟨12, 0x30, r.inst⟩
  | none => (ns.find? fun r => r.get 6 == 1 && 3 ≤ r.get 4).map fun r => ⟨12, 0x30, r.inst⟩

/-- The record at which the running sum of sizes first exceeds the user capacity. -/
def check13Go (cap : Nat) : Nat → List Rec → Option CheckFail
  | _, [] => none
  | t, r :: rs => if cap < t + r.get 8 then some ⟨13, 0x30, r.inst⟩ else check13Go cap (t + r.get 8) rs

def check13 (cfg : List Rec) : Option CheckFail := check13Go (userUnits cfg) 0 (recsOf cfg 0x30)

def check14 (n : Nat) (cfg : List Rec) : Option CheckFail :=
  if usableDramEighths n cfg < 8 * (mapReserveGib cfg + cfgGet cfg 0x20 0 4 + cfgGet cfg 0x50 0 6) then some ⟨14, 0x50, 0⟩ else none

def check15 (cfg : List Rec) : Option CheckFail :=
  let ps := recsOf cfg 0x40
  match laterOf (fun a b => a.get 0 == b.get 0) [] ps with
  | some r => some ⟨15, 0x40, r.inst⟩
  | none => (laterOf (fun a b => a.get 1 == 0 && b.get 1 == 0) [] ps).map fun r => ⟨15, 0x40, r.inst⟩

def check16 (cfg : List Rec) : Option CheckFail :=
  let rails := (List.range 10).map fun i => (cfgGet cfg 1 0 (12 + 2 * i), cfgGet cfg 1 0 (13 + 2 * i))
  if cfgGet cfg 1 0 10 < cfgGet cfg 1 0 8 ∨ rails.eraseDups.length < 10 then some ⟨16, 1, 0⟩ else none

def plantGet (cfg : List Rec) (slot off : Nat) : Nat := cfgGet cfg 0x60 0 (0x300 * slot + off)

/-- Output pins of an enabled slot, over the outputs below N_OUT. -/
def slotPins (cfg : List Rec) (slot : Nat) : Nat :=
  if plantGet cfg slot 0 = 1 then
    (plantGet cfg slot 8 ||| (if plantGet cfg slot 3 = 2 then plantGet cfg slot 10 else 0)) % 4096
  else 0

def check17 (cfg : List Rec) : Option CheckFail :=
  let en (s : Nat) : Bool := plantGet cfg s 0 == 1
  let share := [(0, 1), (0, 2), (0, 3), (1, 2), (1, 3), (2, 3)].any fun (a, b) => slotPins cfg a &&& slotPins cfg b != 0
  let empty := (List.range 4).any fun s =>
    en s && (plantGet cfg s 8 % 4096 == 0 || (plantGet cfg s 3 == 2 && plantGet cfg s 10 % 4096 == 0))
  if !en 0 || !en 1 || share || empty then some ⟨17, 0x60, 0⟩ else none

def storeGet (cfg : List Rec) (s off : Nat) : Nat := cfgGet cfg 0x61 0 (8 + 32 * s + off)

def check18 (cfg : List Rec) : Option CheckFail :=
  if (List.range (cfgGet cfg 0x61 0 0)).any fun s =>
    storeGet cfg s 8 ≤ storeGet cfg s 10 || storeGet cfg s 24 == 0xFF || storeGet cfg s 25 == 0xFF
  then some ⟨18, 0x61, 0⟩ else none

def check19 (cfg : List Rec) : Option CheckFail :=
  if cfgGet cfg 0x70 0 1 ≤ cfgGet cfg 0x70 0 0 ∨ cfgGet cfg 0x70 0 6 ≤ cfgGet cfg 0x70 0 5 then some ⟨19, 0x70, 0⟩ else none

/-- The lowest failing check, with n DRAM channels in service. -/
def runChecks (n : Nat) (cfg : List Rec) (entries : List Nat) : Option CheckFail :=
  check1 cfg <|> check2 cfg <|> check3 cfg <|> check4 cfg <|> check5 cfg entries <|> check6 cfg <|> check7 cfg <|>
  check8 cfg <|> check9 cfg <|> check10 cfg <|> check11 cfg <|> check12 cfg <|> check13 cfg <|> check14 n cfg <|>
  check15 cfg <|> check16 cfg <|> check17 cfg <|> check18 cfg <|> check19 cfg

/-- The outcome of one slot: refused with a cause, failed at a check, or applied. -/
inductive SlotResult where
  | refused (cause : Nat)
  | failed (c : CheckFail) (entries : List ClampEntry)
  | applied (cfg : List Rec) (entries : List ClampEntry)
  deriving DecidableEq, Repr

/-- One slot of the loading procedure (04 Loading), with n DRAM channels in service. -/
def trySlot (n : Nat) (b0 : List Byte) (t : TrustIn) (entries : List Nat) : SlotResult :=
  let c := refuseCause b0 t
  if c ≠ 0 then .refused c
  else
    let len := leAt b0 8 4
    let b := erasedTo b0 len
    match framesFrom b len (leAt b0 6 2) 0x200 with
    | none => .refused 1
    | some fs =>
      let a := loadRecords fs
      match runChecks n a.recs entries with
      | some f => .failed f (a.entries.map fun e => { e with origin := 1 })
      | none => .applied a.recs a.entries

/-! ### The applied stream (04 R138) -/

/-- Bytes of a record body: every field at its applied value, reserved bytes zero, PTABLE after them. -/
def Rec.body (r : Rec) : List Byte :=
  let put (b : List Byte) (f : FieldSpec) : List Byte := b.take f.off ++ leBytes f.size (r.get f.off) ++ b.drop (f.off + f.size)
  (fieldSpecs r.ty).foldl put (List.replicate (definedLength r.ty) 0) ++ r.ptable

def Rec.frame (r : Rec) : List Byte :=
  let h := leBytes 2 r.ty ++ leBytes 2 r.body.length ++ r.body
  h ++ leBytes 4 (crc32c h)

/-- Instances of one type in the order the stream gives them: by GROUP, NSID or PORT. -/
def insertRec (r : Rec) : List Rec → List Rec
  | [] => [r]
  | x :: xs => if r.get 0 < x.get 0 then r :: x :: xs else x :: insertRec r xs

def sortRecs (l : List Rec) : List Rec := l.foldl (fun acc r => insertRec r acc) []

/-- The records of the stream: present ones, absent optional single-instance ones at their defaults, a PORT record for
each port without one. -/
def streamRecs (cfg : List Rec) : List Rec :=
  let one (ty : Nat) : List Rec := recsOf cfg ty
  let opt (ty : Nat) : List Rec := if (one ty).isEmpty then [⟨ty, 0, [], []⟩] else one ty
  let ports := one 0x40 ++ (if (portRec cfg 0).isNone then [⟨0x40, 0, [], []⟩] else []) ++
    (if (portRec cfg 1).isNone then [⟨0x40, 0, [(0, 1)], []⟩] else [])
  one 1 ++ sortRecs (one 2) ++ (List.range 16).flatMap (fun k => one (0x10 + k)) ++ one 0x20 ++ sortRecs (one 0x30) ++
  sortRecs ports ++ one 0x50 ++ one 0x60 ++ one 0x61 ++ opt 0x70 ++ opt 0x80 ++ opt 0x90 ++ opt 0xA0 ++ opt 0xB0 ++ opt 0xC0

def appliedStream (cfg : List Rec) : List Byte := (streamRecs cfg).flatMap Rec.frame

end Sys2Proof.Machine
end

