-- ==== Sys2Proof/Machine/Operands.lean ====
section
/-!
DEFINITION. Machine/Operands.lean: the operand forms of the commands: bit fields of a register word and of a command dword (00 R9), and the
agent a command acts as (05 R148, 06 R226).
-/
namespace Sys2Proof

/-- The agent of a command (06 R226, R233). -/
def Sqe.agent (c : Sqe) : Nat := if c.mi then 5 else c.ctrl.val

end Sys2Proof

namespace Sys2Proof.Machine

/-- Bits lsb to lsb + width - 1 of a word. -/
def bitsOf (w : Word) (lsb width : Nat) : Nat := w.toNat / 2 ^ lsb % 2 ^ width

/-- The word with the bits of a field replaced. -/
def putBits (w : Word) (lsb width v : Nat) : Word :=
  (w &&& ~~~(BitVec.ofNat 32 ((2 ^ width - 1) * 2 ^ lsb))) ||| BitVec.ofNat 32 (v % 2 ^ width * 2 ^ lsb)

/-- Bits lsb to lsb + width - 1 of a command dword. -/
def dwBits (w : Word) (lsb width : Nat) : Nat := bitsOf w lsb width

end Sys2Proof.Machine
end

