-- ==== Sys2Proof/Machine/Ops.lean ====
section
/-!
DEFINITION. Machine/Ops.lean: the operations every command is made of: reading and writing a register field, time, free
values, the values of RWF registers in force, completions and asynchronous events.
-/

namespace Sys2Proof.Machine

/-! ### Registers -/

/-- The word a register holds (00 R14: an unassigned offset holds 0). -/
def State.reg (s : State) (off : Nat) : Word := mapGet resetWord s.regs off

def State.setReg (s : State) (off : Nat) (w : Word) : State := { s with regs := mapSet resetWord s.regs off w }

/-- The value of a register field. -/
def State.rd (s : State) (f : Field) : Nat := bitsOf (s.reg f.off) f.lsb f.width

/-- The state with a register field set; a value too wide keeps its low bits. -/
def State.wr (s : State) (f : Field) (v : Nat) : State := s.setReg f.off (putBits (s.reg f.off) f.lsb f.width v)

/-- A register field that counts up and saturates. -/
def State.bump (s : State) (f : Field) : State := s.wr f (satAdd (2 ^ f.width - 1) (s.rd f) 1)

/-- A register field that counts up by n and saturates. -/
def State.bumpBy (s : State) (f : Field) (n : Nat) : State := s.wr f (satAdd (2 ^ f.width - 1) (s.rd f) n)

/-- A field of a 32-bit two's complement register. -/
def State.rdSigned (s : State) (f : Field) : Int := signed f.width (s.rd f)

def State.wrSigned (s : State) (f : Field) (i : Int) : State := s.wr f (toCode f.width i)

/-- A pair of _LO and _HI registers as one 64-bit number; the high half goes to the register, not to a reader's latch. -/
def State.wr64 (s : State) (lo hi : Nat) (v : Nat) : State :=
  (s.setReg lo (BitVec.ofNat 32 v)).setReg hi (BitVec.ofNat 32 (v / 2 ^ 32))

def State.rd64 (s : State) (lo hi : Nat) : Nat := (s.reg lo).toNat + 2 ^ 32 * (s.reg hi).toNat

/-- The word of an RWF register in force in its block (05 R161): the one kept from before the commit until the block's
class adopts, then the committed one. -/
def State.inForce (s : State) (off : Nat) : Word :=
  match s.fit.held.find? (fun e => e.1 == off) with
  | some e => e.2
  | none => s.reg off

/-- A field of an RWF register in force in its block. -/
def State.force (s : State) (f : Field) : Nat := bitsOf (s.inForce f.off) f.lsb f.width

/-! ### Time and open values -/

/-- Milliseconds since aux reset. -/
def State.auxMs (s : State) : Nat := (s.now - s.boot.auxResetAt) / 1000000

/-- A value the manual leaves open, and the state with the next one in turn (log entry 2). -/
def State.free (s : State) : Word × State := (Config.freeWord s.fresh, { s with fresh := s.fresh + 1 })

/-! ### The configuration in force -/

/-- A field of the configuration in force, through the records (04); fields a fitting changes are read with `force`. -/
def State.cfg (s : State) (ty inst off : Nat) : Nat := cfgGet s.image.cfg ty inst off

/-- The controller exists under the PORT records in force; without an image each port has one at x16 (03 R90). -/
def State.hasCtrl (s : State) (c : Nat) : Bool := controllerExists s.image.cfg c

/-- The BEL_BOOT_STATUS phase. -/
def State.phase (s : State) : Nat := s.rd Reg.BEL_BOOT_STATUS_PHASE

def State.setPhase (s : State) (p : Nat) : State :=
  { s.wr Reg.BEL_BOOT_STATUS_PHASE p with boot := { s.boot with phaseSince := s.now } }

/-! ### OTP (03 R91, R92) -/

def State.otpWord (s : State) (w : Nat) : Word := mapGet (fun _ => 0) s.boot.otp w

/-- Burning sets bits and clears none (03: a bit can only change from 0 to 1). -/
def State.burn (s : State) (w : Nat) (v : Word) : State :=
  { s with boot := { s.boot with otp := mapSet (fun _ => 0) s.boot.otp w (s.otpWord w ||| v) } }

/-- Bytes off to off + n - 1 of the OTP identity row, off and n multiples of 4. -/
def State.otpBytes (s : State) (off n : Nat) : List Byte :=
  (List.range (n / 4)).flatMap fun i => leBytes 4 (s.otpWord (off / 4 + i)).toNat

/-- LIFECYCLE as decoded (03 R92): a value not listed is RETIRED. -/
def State.lifecycle (s : State) : Nat :=
  let v := bitsOf (s.otpWord 3) 0 4
  if v = 0 ∨ v = 1 ∨ v = 3 then v else 7

/-- OWNER_HASH i as a number, byte 0 most significant. -/
def hashOf (b : List Byte) : BitVec 384 := BitVec.ofNat 384 (b.foldl (fun a x => a * 256 + x.toNat) 0)

def State.ownerHash (s : State) (i : Nat) : BitVec 384 := hashOf (s.otpBytes (0x50 + 48 * i) 48)

/-- The lowest-numbered owner hash that is non-zero and not revoked. -/
def State.activeOwner (s : State) : Option Nat :=
  (List.range 4).find? fun i => s.ownerHash i != 0 && !(s.otpWord 4).getLsbD i

def State.rootHash (s : State) : BitVec 384 := hashOf (s.otpBytes 0x20 48)

/-- The thermometer count of an ARB field: kind 0 Belfry, 1 main, 2 microcode, 3 image. -/
def State.arb (s : State) (kind : Nat) : Nat :=
  thermoCount ((s.otpWord (0x44 + 2 * kind)).toNat + 2 ^ 32 * (s.otpWord (0x45 + 2 * kind)).toNat)

def State.trust (s : State) : TrustIn :=
  ⟨some s.rootHash, s.activeOwner.map s.ownerHash, s.lifecycle, s.arb 3⟩

/-! ### Measurement registers (03 Measured boot) -/

def State.measReg (s : State) (i : Nat) : BitVec 384 := mapGet (fun _ => 0) s.boot.meas i

/-- Extends measurement register i with a digest: SHA-384 of the register followed by the digest. -/
def State.extend (s : State) (i : Nat) (d : BitVec 384) : State :=
  let v := Config.sha384 (digestBytes (s.measReg i) ++ digestBytes d)
  { s with boot := { s.boot with meas := mapSet (fun _ => 0) s.boot.meas i v } }

/-! ### Controllers and completions (06) -/

def State.ctrl (s : State) (c : Nat) : Ctrl := mapGet (fun _ => Ctrl.portReset) s.nvme.ctrls c

def State.setCtrl (s : State) (c : Nat) (x : Ctrl) : State :=
  { s with nvme := { s.nvme with ctrls := mapSet (fun _ => Ctrl.portReset) s.nvme.ctrls c x } }

def stOk : Status := ⟨0, 0x00, false, 0⟩
def stInvalidOpcode : Status := ⟨0, 0x01, true, 0⟩
def stInvalidField : Status := ⟨0, 0x02, true, 0⟩
def stDataTransfer : Status := ⟨0, 0x04, false, 0⟩
def stAbortRequested : Status := ⟨0, 0x07, false, 0⟩
def stInvalidLogPage : Status := ⟨0, 0x09, true, 0⟩
def stInvalidNs : Status := ⟨0, 0x0B, true, 0⟩
def stSequence : Status := ⟨0, 0x0C, false, 0⟩
def stNotSaveable : Status := ⟨0, 0x0D, true, 0⟩
def stSanitizing : Status := ⟨0, 0x1D, false, 0⟩
def stSanitizeFailed : Status := ⟨0, 0x1C, true, 0⟩
def stWriteProtected : Status := ⟨0, 0x20, true, 0⟩
def stLbaRange : Status := ⟨0, 0x80, true, 0⟩
/-- Namespace Not Ready with CRD 1 (03 R88). -/
def stNotReady : Status := ⟨0, 0x82, false, 1⟩
def stInvalidSlot : Status := ⟨1, 0x06, true, 0⟩
def stInvalidImage : Status := ⟨1, 0x07, true, 0⟩
def stNeedsReset : Status := ⟨1, 0x10, true, 0⟩
def stQueueId : Status := ⟨1, 0x01, true, 0⟩
def stQueueSize : Status := ⟨1, 0x02, true, 0⟩
def stCqInvalid : Status := ⟨1, 0x00, true, 0⟩
def stQueueDeletion : Status := ⟨1, 0x0C, true, 0⟩
def stAerLimit : Status := ⟨1, 0x05, true, 0⟩
def stSglType : Status := ⟨0, 0x11, true, 0⟩
def stSqDeleted : Status := ⟨0, 0x08, true, 0⟩
def stGuard : Status := ⟨2, 0x82, true, 0⟩
def stAppTag : Status := ⟨2, 0x83, true, 0⟩
def stRefTag : Status := ⟨2, 0x84, true, 0⟩
/-- A vendor status (06 R230): status code type 7h. -/
def stVendor (code : Nat) (dnr : Bool) : Status := ⟨7, code, dnr, 0⟩

def State.modCtrl (s : State) (c : Nat) (f : Ctrl → Ctrl) : State := s.setCtrl c (f (s.ctrl c))
def State.modPcie (s : State) (c : Nat) (f : Pcie → Pcie) : State := s.modCtrl c fun k => { k with pcie := f k.pcie }

/-- Queues the MSI-X write of a vector of controller c (05 R170): nothing where MSI-X is disabled; held in the pending bits while the function
or the vector is masked. -/
def State.msix (s : State) (c vec : Nat) : State :=
  let p := (s.ctrl c).pcie
  if !p.msixEnabled then s
  else if p.functionMask || !p.vecOpen.contains vec then s.modPcie c fun x => { x with pba := if x.pba.contains vec then x.pba else x.pba ++ [vec] }
  else { s with evt := { s.evt with msix := s.evt.msix ++ [(c, vec)] } }

/-- Vectors held in the pending bits and masked no longer are sent, in ascending number. -/
def State.sendPending (s : State) (c : Nat) : State :=
  let p := (s.ctrl c).pcie
  if !p.msixEnabled || p.functionMask then s
  else
    let go := (List.range 2048).filter fun v => p.pba.contains v && p.vecOpen.contains v
    let s1 := s.modPcie c fun x => { x with pba := x.pba.filter fun v => !go.contains v }
    { s1 with evt := { s1.evt with msix := s1.evt.msix ++ go.map fun v => (c, v) } }

/-- Interrupt Coalescing asks a vector of an I/O queue to gather completions: a threshold and a time are set, and its Coalescing Disable is 0. -/
def Ctrl.gathers (k : Ctrl) (q vec : Nat) : Bool :=
  q != 0 && k.coalescing % 256 != 0 && k.coalescing / 256 % 256 != 0 && mapGet (fun _ => 0) k.vecConfig vec % 2 == 0

/-- A completion queue with interrupts enabled has a new entry (06 R185): INTA where MSI-X is disabled; else its vector, at once, or gathered
with others until the aggregation threshold of feature 08h is reached or the aggregation time has passed. -/
def State.cqSignal (s : State) (c q vec : Nat) : State :=
  let k := s.ctrl c
  if !k.pcie.msixEnabled then s.modPcie c fun x => { x with inta := true }
  else if !k.gathers q vec then s.msix c vec
  else
    let x := mapGet (fun _ => (0, 0)) k.coal vec
    if k.coalescing % 256 + 1 ≤ x.1 + 1 then (s.modCtrl c fun y => { y with coal := mapSet (fun _ => (0, 0)) y.coal vec (0, 0) }).msix c vec
    else s.modCtrl c fun y => { y with coal := mapSet (fun _ => (0, 0)) y.coal vec (x.1 + 1, if x.1 = 0 then s.now else x.2) }

/-- Vectors whose aggregation time, in units of 100 µs, has passed are sent (log entry 44). -/
def State.coalesceDue (s : State) : State :=
  (List.range 4).foldl (fun t c =>
    let k := t.ctrl c
    (k.coal.filter fun e => e.2.1 != 0 && e.2.2 + 100000 * (k.coalescing / 256 % 256) ≤ t.now).foldl (fun u e =>
      (u.modCtrl c fun y => { y with coal := mapSet (fun _ => (0, 0)) y.coal e.1 (0, 0) }).msix c e.1) t) s

/-! ### Responses of the management endpoint (06 R231) -/

/-- A message as MCTP packets of at most a transmission unit of payload: version 1, null endpoint identifiers, SOM and EOM, the packet sequence
number (DSP0236, PRESUMED, log entry 9). -/
def mctpPackets (unit : Nat) (msg : List Byte) : List (List Byte) :=
  let n := max 1 (ceilDiv msg.length unit)
  (List.range n).map fun k =>
    leBytes 1 1 ++ leBytes 1 0 ++ leBytes 1 0 ++ leBytes 1 ((if k = 0 then 0x80 else 0) + (if k + 1 = n then 0x40 else 0) + 16 * (k % 4)) ++
      slice msg (unit * k) unit

/-- A response message of NVMe-MI (type 4 with its integrity check) for an NVMe-MI command (1) or an admin command (2). -/
def State.miMessage (s : State) (kind : Nat) (body : List Byte) : State :=
  let m := leBytes 1 0x84 ++ leBytes 1 (0x80 + 8 * kind) ++ leBytes 2 0 ++ body
  { s with nvme := { s.nvme with miReplies := s.nvme.miReplies ++ [mctpPackets s.nvme.miUnit (m ++ leBytes 4 (crc32c m))] } }

/-- A command is outstanding: fetched, and neither completed nor ended by a reset of its controller. A command over NVMe-MI has no queue. -/
def State.outstanding (s : State) (mi : Bool) (c sq cid : Nat) : Bool :=
  mi || s.nvme.outs.any fun o => o.ctrl == c && o.sq == sq && o.cid == cid

/-- The completion queue entry an admin command's response over NVMe-MI carries: dwords 0, 1 and 3. -/
def Cpl.miBody (x : Cpl) : List Byte :=
  leBytes 4 0 ++ leBytes 4 x.dw0 ++ leBytes 4 x.dw1 ++ leBytes 4 (x.cid + 131072 * x.sc + 33554432 * x.sct + 2147483648 * bit x.dnr) ++ x.data

/-- Posts a completion to queue sq of controller c, signals its completion queue, and drops the command from the
outstanding ones; a command that is not outstanding gets none (03 R80). -/
def State.post (s : State) (x : Cpl) : State :=
  if !s.outstanding x.mi x.ctrl x.sq x.cid then s else
  let s1 := { s with nvme := { s.nvme with
    cpls := s.nvme.cpls ++ [x],
    outs := s.nvme.outs.filter fun o => !(o.ctrl == x.ctrl && o.sq == x.sq && o.cid == x.cid) } }
  if x.mi then s1.miMessage 2 x.miBody
  else
    let k := s1.ctrl x.ctrl
    let q := match k.sqs.find? (fun e => e.1 == x.sq) with | some e => e.2.cq | none => 0
    match k.cqs.find? (fun e => e.1 == q) with
    | some e =>
      let cq := { e.2 with tail := if e.2.size ≤ e.2.tail + 1 then 0 else e.2.tail + 1 }
      let s2 := s1.setCtrl x.ctrl { k with cqs := k.cqs.map fun f => if f.1 == q then (q, cq) else f }
      if cq.ien then s2.cqSignal x.ctrl q cq.vector else s2
    | none => if q = 0 then s1.cqSignal x.ctrl 0 0 else s1

/-- Records a failure in the Error Information log of the controller, newest first, 256 entries (06 R196). -/
def State.logError (s : State) (c : Nat) (sq cid sct sc nsid : Nat) : State :=
  let k := s.ctrl c
  s.setCtrl c { k with errCount := k.errCount + 1, errLog := (⟨k.errCount + 1, sq, cid, sct, sc, nsid⟩ :: k.errLog).take 256 }

/-- Completes a command with a status, completion dwords 0 and 1, and data to the host; a failure is logged. -/
def State.complete (s : State) (c : Sqe) (st : Status) (dw0 dw1 : Nat) (data : List Byte) : State :=
  let s1 := if st.sct = 0 ∧ st.sc = 0 || !s.outstanding c.mi c.ctrl.val c.sq c.cid then s else s.logError c.ctrl.val c.sq c.cid st.sct st.sc c.nsid
  s1.post ⟨c.ctrl.val, c.mi, c.sq, c.cid, st.sct, st.sc, st.dnr, st.crd, dw0, dw1, data⟩

/-- Ends a command that its host no longer waits for as a command of its own (06 R195, R197): the completion says so, and is logged as a failure. -/
def State.postEnded (s : State) (c sq cid : Nat) (st : Status) : State :=
  (s.logError c sq cid st.sct st.sc 0).post ⟨c, false, sq, cid, st.sct, st.sc, st.dnr, st.crd, 0, 0, []⟩

/-- Completes a command with a status and nothing else. -/
def State.fail (s : State) (c : Sqe) (st : Status) : State := s.complete c st 0 0 []

/-- Completes a command successfully with nothing else. -/
def State.succeed (s : State) (c : Sqe) : State := s.complete c stOk 0 0 []

/-! ### Asynchronous events (05 R171, 06) -/

/-- Completion dword 0 of an asynchronous event. -/
def aenDw0 (a : Aen) : Nat := a.ty + 256 * a.info + 65536 * a.page

/-- Delivers an asynchronous event at controller c: completes an outstanding request and withholds further events of the
page; where none is outstanding the event waits for one; where the page is withheld nothing is sent (R171). -/
def State.aen (s : State) (c : Nat) (a : Aen) : State :=
  let k := s.ctrl c
  if k.withheld.contains a.page || k.aenQueue.any (fun b => b.page == a.page) then s
  else match k.aers with
    | cid :: rest =>
      (s.setCtrl c { k with aers := rest, withheld := k.withheld ++ [a.page] }).post
        ⟨c, false, 0, cid, 0, 0, false, 0, aenDw0 a, 0, []⟩
    | [] => s.setCtrl c { k with aenQueue := k.aenQueue ++ [a] }

/-- Controllers that exist, in ascending number. -/
def State.ctrls (s : State) : List Nat := (List.range 4).filter s.hasCtrl

/-- The SMART / Health asynchronous event of a critical warning bit, at controllers whose feature 0Bh enables it. -/
def State.smartAen (s : State) (bit info : Nat) : State :=
  s.ctrls.foldl (fun t c => if (t.ctrl c).asyncConfig.testBit bit then t.aen c ⟨1, info, 0x02⟩ else t) s

end Sys2Proof.Machine
end

