-- ==== Sys2Proof/Machine/Blocks.lean ====
section
/-!
DEFINITION. Machine/Blocks.lean: what goes on a Jalyen link: 130-bit blocks (14 R498), the scrambler (R499), and flits as bytes (Tables 14.6,
14.7).
-/
namespace Sys2Proof.Machine

/-! ### Blocks (R498) -/

def isDataBlock (b : Block) : Bool := b.sync == (false, true)
def isSetBlock (b : Block) : Bool := b.sync == (true, false)

/-- The bits of bytes in transmission order: byte 0 first, each byte bit 0 first. -/
def wireBits (b : List Byte) : List Bool := b.flatMap fun x => (List.range 8).map fun i => x.getLsbD i

/-- The bytes of bits in transmission order. -/
def wireBytes : List Bool → List Byte
  | b0 :: b1 :: b2 :: b3 :: b4 :: b5 :: b6 :: b7 :: l =>
    BitVec.ofNat 8 (bit b0 + 2 * bit b1 + 4 * bit b2 + 8 * bit b3 + 16 * bit b4 + 32 * bit b5 + 64 * bit b6 + 128 * bit b7) :: wireBytes l
  | _ => []

/-- The 130 bits of a block in the order sent. -/
def blockBits (b : Block) : List Bool := [b.sync.1, b.sync.2] ++ wireBits b.bytes

/-- An ordered set as a block. -/
def setBlock (b : List Byte) : Block := ⟨(true, false), b⟩

/-! ### Scrambling (R499) -/

/-- The scrambler advances over one payload bit: x^23 + x^21 + x^16 + x^8 + x^5 + x^2 + 1. -/
def scrNext (s : BitVec 23) : BitVec 23 :=
  let fb := ((s.getLsbD 22 ^^ s.getLsbD 20) ^^ (s.getLsbD 15 ^^ s.getLsbD 7)) ^^ (s.getLsbD 4 ^^ s.getLsbD 1)
  (s <<< 1) ||| (if fb then 1 else 0)

/-- Bits scrambled, or descrambled, from a state on, with the state after them. -/
def scramble : BitVec 23 → List Bool → List Bool × BitVec 23
  | s, [] => ([], s)
  | s, b :: l => let r := scramble (scrNext s) l; ((b ^^ s.getLsbD 22) :: r.1, r.2)

/-- The four data blocks of a flit, scrambled (R513), and the state after them. -/
def flitBlocks (s : BitVec 23) (flit : List Byte) : List Block × BitVec 23 :=
  let r := scramble s (wireBits flit)
  ((List.range 4).map fun b => ⟨(false, true), slice (wireBytes r.1) (16 * b) 16⟩, r.2)

/-- The flit in four data blocks, descrambled, and the state after them. -/
def blocksFlit (s : BitVec 23) (l : List Block) : List Byte × BitVec 23 :=
  let r := scramble s (wireBits (l.flatMap fun b => b.bytes))
  (wireBytes r.1, r.2)

/-! ### Flits (Tables 14.6, 14.7) -/

/-- A flit: header, payload, CRC. -/
def flitBytes (header : Nat) (payload : List Byte) : List Byte :=
  let b := leBytes 4 header ++ padTo 56 payload
  b ++ leBytes 4 (crc32c b)

/-- A flit header: SEQ, ACK, NAK, CR_VC, CR_SUM, VC, KIND. -/
def flitHeader (seq ack : Nat) (nak : Bool) (crVc crSum vc kind : Nat) : Nat :=
  seq + 2 ^ 9 * ack + 2 ^ 18 * bit nak + 2 ^ 19 * crVc + 2 ^ 20 * crSum + 2 ^ 27 * vc + 2 ^ 28 * kind

end Sys2Proof.Machine
end

