-- ==== Sys2Proof/Machine/Flags.lean ====
section
/-!
DEFINITION. Machine/Flags.lean: the status flags: event sources with their status, mask and routes (05 R164 to R172), access violations, the
records and counters of the lifetime log, and the conditions other chapters look at.
-/
namespace Sys2Proof.Machine

/-! ### Event sources (05 R164 to R172) -/

/-- 05 Table 5.15. -/
def logPageOf (src : Nat) : Nat :=
  if src ≤ 1535 ∨ (1704 ≤ src ∧ src ≤ 1719) then 0xC2
  else if 1720 ≤ src ∧ src ≤ 1759 then 0xC3
  else if (1552 ≤ src ∧ src ≤ 1631) ∨ (1760 ≤ src ∧ src ≤ 1775) then 0xC4
  else if 1792 ≤ src ∧ src ≤ 1799 then 0xC1
  else 0xC0

def statusOff (src : Nat) : Nat := 0x02010000 + 4 * (src / 32)
def maskOff (src : Nat) : Nat := 0x02010200 + 4 * (src / 32)

def State.evtStatus (s : State) (src : Nat) : Bool := (s.reg (statusOff src)).getLsbD (src % 32)
def State.evtMask (s : State) (src : Nat) : Bool := (s.reg (maskOff src)).getLsbD (src % 32)

/-- The half of a route entry for controller c: EN and VEC. -/
def State.route (s : State) (src c : Nat) : Bool × Nat :=
  let h := bitsOf (s.reg (0x02000000 + 0x10 * src + 4 * (c / 2))) (16 * (c % 2)) 16
  (h.testBit 15, h % 2048)

/-- Delivers a source once to each destination enabled in its route: every MSI-X write in ascending controller number,
then the asynchronous events (R168, R172). -/
def State.deliver (s : State) (src : Nat) : State :=
  let s1 := s.ctrls.foldl (fun t c => if (s.route src c).1 then t.msix c (s.route src c).2 else t) s
  let aenBits := s.reg (0x02000008 + 0x10 * src)
  s1.ctrls.foldl (fun t c => if aenBits.getLsbD c then t.aen c ⟨7, src / 64, logPageOf src⟩ else t) s1

/-- Sets the status bit of a source. -/
def State.setStatus (s : State) (src : Nat) : State :=
  s.setReg (statusOff src) (s.reg (statusOff src) ||| BitVec.ofNat 32 (2 ^ (src % 32)))

/-- A source occurs (R168, R169): with status 0 it is set, delivered to the Belfry and the FTL cluster, and, unmasked, to
the hosts; with status 1 nothing is delivered again. -/
def State.raise (s : State) (src : Nat) : State :=
  if s.evtStatus src then s
  else
    let s1 := s.setStatus src
    let s2 := { s1 with evt := { s1.evt with belfry := s1.evt.belfry ++ [src], ftl := s1.evt.ftl ++ [src] } }
    if s.evtMask src then s2 else s2.deliver src

/-- Raises several sources in order. -/
def State.raiseAll (s : State) (l : List Nat) : State := l.foldl State.raise s

/-- Raises a source where a condition holds. -/
def State.raiseIf (s : State) (c : Bool) (src : Nat) : State := if c then s.raise src else s

/-! ### Access violations (05 R150) -/

/-- Records an access violation: the first since VALID was cleared is kept, every one is counted, source 1,796. -/
def State.violation (s : State) (kind agent off : Nat) : State :=
  let s1 := s.bump Reg.GBL_ACCESS_VIOL_CTL_COUNT
  let s2 := if s.rd Reg.GBL_ACCESS_VIOL_CTL_VALID = 1 then s1
    else (((s1.wr Reg.GBL_ACCESS_VIOL_KIND kind).wr Reg.GBL_ACCESS_VIOL_AGENT agent).wr Reg.GBL_ACCESS_VIOL_OFFSET off).wr
      Reg.GBL_ACCESS_VIOL_CTL_VALID 1
  s2.raise 1796

/-! ### The lifetime log (22 R748, R750) -/

/-- The Steeple time in units of 2^-16 ns (09): the timebase runs at 1 + slew ppm of the model clock. -/
def State.steepleFrac (s : State) : Int :=
  s.stp.base + ((s.now : Int) - s.stp.baseAt) * 65536 * (1000000 + s.stp.slew) / 1000000

/-- The Steeple time in whole nanoseconds. -/
def State.steepleTime (s : State) : Nat := (s.steepleFrac / 65536).toNat

/-- GENERATION of the page counts each change of it. -/
def Life.changed (l : Life) : Life := { l with counters := mapSet (fun _ => 0) l.counters 0 (mapGet (fun _ => 0) l.counters 0 + 1) }

/-- Writes an event record: SEQ one higher than the last, the Steeple time or 0 when none was established; the ring keeps
258,048; severity 3 raises source 1,782. -/
def State.record (s : State) (ty severity : Nat) (data : List Nat) : State :=
  let n := s.life.seq + 1
  let r : EventRec := ⟨n, if s.stp.established then s.steepleTime else 0, s.auxMs, ty, severity, data⟩
  let s1 := { s with life := { s.life with events := (r :: s.life.events).take 258048, seq := n }.changed }
  let s2 := s1.wr64 Reg.BEL_LOG_SEQ_LO Reg.BEL_LOG_SEQ_HI n
  if severity = 3 then s2.raise 1782 else s2

/-- A counter of 22 Table 22.9 rises by n. -/
def State.tally (s : State) (off n : Nat) : State :=
  if n = 0 then s
  else { s with life := { s.life with counters := mapSet (fun _ => 0) s.life.counters off (mapGet (fun _ => 0) s.life.counters off + n) }.changed }

/-- A count kept beside those of Table 22.9, which the lifetime log does not show. -/
def State.note (s : State) (off n : Nat) : State :=
  { s with life := { s.life with counters := mapSet (fun _ => 0) s.life.counters off (mapGet (fun _ => 0) s.life.counters off + n) } }

/-- A counter of 22 Table 22.9 that keeps the greatest value. -/
def State.tallyMax (s : State) (off n : Nat) : State := s.tally off (n - mapGet (fun _ => 0) s.life.counters off)

/-- A histogram of 22 Table 22.10 takes an entry; bin 31 takes every higher value. -/
def State.histAdd (s : State) (index value : Nat) : State :=
  let k := 32 * index + min value 31
  { s with life := { s.life with hist := mapSet (fun _ => 0) s.life.hist k (mapGet (fun _ => 0) s.life.hist k + 1) }.changed }

/-! ### Which accesses the register file answers -/

/-- The main domain runs and its registers answer: not in reset, Deep Sleep or Off (05 R147, 20 R698). -/
def State.mainUp (s : State) : Bool :=
  s.board.mainRunning && s.rd Reg.PWR_STATUS_STATE != 3 && s.rd Reg.PWR_STATUS_STATE != 4

def inBelfryWindow (off : Nat) : Bool := 0x01C00000 ≤ off && off < 0x02000000

/-- The register file answers an access of an agent at an offset (05 R147, 20 R698): the Belfry window while VAUX is up, elsewhere
while the main domain is up; the Belfry itself reaches every register it holds power for. -/
def State.answers (s : State) (off : Nat) : Bool := (inBelfryWindow off && s.board.vaux) || s.mainUp

/-! ### Maintenance activities as other chapters see them (22 R737, R741) -/

/-- RESOURCE of a whole pass (22 Table 22.2). -/
def wholePass : Nat := 0xFFFFFFFF

/-- An activity of a code that holds a resource runs. -/
def State.actRuns (s : State) (code res : Nat) : Bool := s.maint.acts.any fun a => a.code == code && a.res == res && a.running

/-- An activity of a code that holds a resource waits, or has stopped. -/
def State.actHeld (s : State) (code res : Nat) : Bool := s.maint.acts.any fun a => a.code == code && a.res == res && !a.running

/-- A take is open and keeps the activities that wait for takes from going on (R741). -/
def State.takesHold (s : State) : Bool := s.force Reg.BEL_MAINT_CFG3_DURING_TAKE == 0 && s.takes.dir.any fun t => t.state != 4

end Sys2Proof.Machine
end

