-- ==== Sys2Proof/Machine/Cipher.lean ====
section
/-!
DEFINITION. Machine/Cipher.lean: cipher lanes and key slots (16_cipher_engine.md): the sector operation, invocation
counters and their reservations, the key-slot records of the NOR, lane faults, and the entropy source.
-/
namespace Sys2Proof.Machine

/-! ### Key slots (16 R580 to R583) -/

def KeySlot.empty : KeySlot := ⟨0, [], 0, 0, 0, 0, 0, false, false⟩

def State.keySlot (s : State) (k : Nat) : KeySlot := mapGet (fun _ => KeySlot.empty) s.cph.slots k

def State.setKeySlot (s : State) (k : Nat) (x : KeySlot) : State :=
  { s with cph := { s.cph with slots := mapSet (fun _ => KeySlot.empty) s.cph.slots k x } }

/-- A namespace of the stored table names the slot. -/
def State.slotNamed (s : State) (k : Nat) : Bool := s.nvme.nss.any fun n => n.keySlot == k

/-- The limit L of a slot: 2^CIPHER_POLICY.INV_LIMIT_LOG2. -/
def State.invLimit (s : State) : Nat := 2 ^ s.cfg 0xB0 0 0

/-- The state a slot holding a key has at a counter value (16 Table 16.2; DEDUCED, log entry 14: a threshold is passed when
the counter reaches it, as the worked example of 16 counts). -/
def slotStateAt (limit inv : Nat) : Nat :=
  if limit ≤ inv then 4 else if limit - limit / 64 ≤ inv then 3 else if limit - limit / 16 ≤ inv then 2 else 1

/-- Raises 1,648, 1,649 or 1,650 for a slot, which LAST_SLOT shows. -/
def State.slotEvent (s : State) (k src : Nat) : State := (s.wr Reg.CPH_STATUS_LAST_SLOT k).raise src

/-- A slot takes the state its counter gives it, with the sources of R583. -/
def State.slotAdvance (s : State) (k : Nat) : State :=
  let x := s.keySlot k
  if x.state = 0 ∨ 5 ≤ x.state then s
  else
    let n := slotStateAt s.invLimit x.inv
    let s1 := s.setKeySlot k { x with state := n }
    let s2 := if n ≠ x.state ∧ n = 2 then s1.slotEvent k 1648 else s1
    let s3 := if n ≠ x.state ∧ n = 3 then s2.slotEvent k 1649 else s2
    if n ≠ x.state ∧ n = 4 then s3.slotEvent k 1649 else s3

/-- Invocations reserved for a write of n sectors (16 R581): none where the reservation would carry the counter past
L − L/64. -/
def State.claimInv (s : State) (k n : Nat) : Option State :=
  let x := s.keySlot k
  if s.invLimit - s.invLimit / 64 < x.inv + x.claimed + n then none
  else some (s.setKeySlot k { x with claimed := x.claimed + n })

/-- Gives back invocations reserved and not used. -/
def State.unclaimInv (s : State) (k n : Nat) : State :=
  let x := s.keySlot k
  s.setKeySlot k { x with claimed := x.claimed - n }

/-- The slot holds a key that DECRYPT and VERIFY can use. -/
def KeySlot.readable (x : KeySlot) : Bool := 1 ≤ x.state && x.state ≤ 4

/-- An ENCRYPT under the slot may run now (16 R580, R583, R595): for a write or for relocation; the counter below its
highest durable reservation and below L. -/
def State.encryptReady (s : State) (k : Nat) (reloc : Bool) : Bool :=
  let x := s.keySlot k
  (x.state == 1 || x.state == 2 || (x.state == 3 && (reloc || 0 < x.claimed))) && x.inv < x.reserved && x.inv < s.invLimit

/-- Counts one ENCRYPT (16 R583, R595): for a write it uses a reserved invocation; past the reservation minus 2^19 a RESERVE
record is asked for. -/
def State.countEncrypt (s : State) (k : Nat) (reloc : Bool) : State :=
  let x := s.keySlot k
  let y := { x with inv := x.inv + 1, claimed := if reloc then x.claimed else x.claimed - 1,
                    reserveDue := x.reserveDue || x.reserved < x.inv + 1 + 2 ^ 19 }
  (s.setKeySlot k y).slotAdvance k

/-! ### The sector operation (16 R569, R570) -/

/-- The IV: the slot's SALT then the SEQ, each most significant byte first. -/
def gcmIv (salt : Word) (seq : Nat) : List Byte := beBytes 4 salt.toNat ++ beBytes 8 seq

/-- ADDR of an envelope (10 Table 10.1). -/
def envAddr (x : Sector) : Nat := if x.nsid = 0 then x.lsa else x.lsa % 2 ^ 48 + 2 ^ 48 * x.nsid

/-- Envelope bytes 0x00 to 0x0F, the additional authenticated data. -/
def envAad (x : Sector) : List Byte := leBytes 8 (envAddr x) ++ leBytes 8 x.seq

/-- The tag of a sector: GCM under its slot's key, or the CRC of 12 Table 12.1 where it holds no user data. -/
def sectorTag (key : List Byte) (salt : Word) (x : Sector) : List Byte :=
  if x.nsid = 0 then leBytes 4 (crc32c (x.payload ++ envAad x ++ x.pi)) ++ List.replicate 12 0
  else Config.gcmTag key (gcmIv salt x.seq) (envAad x) x.payload

/-- The 48-byte envelope of a sector (10 Table 10.1, 12 Table 12.1). -/
def envelope (key : List Byte) (salt : Word) (x : Sector) : List Byte := envAad x ++ x.pi ++ sectorTag key salt x

/-- The lengths of a request fit 16 Table 16.1. -/
def gcmLengthsOk (key : List Byte) (x : Sector) : Bool := key.length == 32 && x.payload.length == 4096 && x.pi.length == 16

/-! ### Lanes (16 R573 to R579) -/

/-- A lane is in service. -/
def State.laneOk (s : State) (l : Nat) : Bool := s.rd (Reg.CPH_LANE_STATUS_STATE l) == 0

/-- Bit l of CPH_STATUS.IN_SERVICE follows the lane's state. -/
def State.setLane (s : State) (l st : Nat) : State :=
  let s1 := s.wr (Reg.CPH_LANE_STATUS_STATE l) st
  let m := s1.rd Reg.CPH_STATUS_IN_SERVICE
  let cleared := if m.testBit l then m - 2 ^ l else m
  s1.wr Reg.CPH_STATUS_IN_SERVICE (if st = 0 then cleared + 2 ^ l else cleared)

/-- A lane processes a sector of a slot: counted, and its round keys are among the last four the lane holds (16 R575). -/
def State.laneUse (s : State) (l k : Nat) : State :=
  let h := mapGet (fun _ => []) s.cph.held l
  let h2 := (k :: h.filter (fun (x : Nat) => x != k)).take 4
  let s1 := s.wr (Reg.CPH_LANE_SECTORS_COUNT l) (s.rd (Reg.CPH_LANE_SECTORS_COUNT l) + 1)
  { s1 with cph := { s1.cph with held := mapSet (fun _ => []) s1.cph.held l h2 } }

/-- A parity check fails in a lane (16 R577): its result is discarded, it enters FAULTED, source 1,632 + l. -/
def State.laneFault (s : State) (l : Nat) : State :=
  ((s.bump (Reg.CPH_LANE_STATUS_FAULTS l)).setLane l 3).raise (1632 + l)

/-- The known-answer test of a lane (16 R578): a lane that passes is in service, one that fails stays FAULTED. -/
def State.laneKat (s : State) (l : Nat) (pass : Bool) : State :=
  (s.wr (Reg.CPH_LANE_STATUS_KAT_PASS l) (bit pass)).setLane l (if pass then 0 else 3)

/-- A tag mismatch that two lanes found is counted (16 R572). -/
def State.authFail (s : State) : State := s.bump Reg.CPH_AUTH_FAIL_COUNT

/-! ### Entropy (16 R584, R585) -/

def State.entropyFault (s : State) : Bool := s.rd Reg.CPH_STATUS_ENTROPY_FAULT == 1

/-- Bytes from the key generator. -/
def State.genBytes (s : State) (n : Nat) : List Byte × State := (Config.keyBytes n s.fresh, { s with fresh := s.fresh + 1 })

/-- A failed health-test window (16 R585). -/
def State.entropyFail (s : State) : State :=
  let s1 := (s.bump Reg.CPH_ENTROPY_FAILS).wr Reg.CPH_STATUS_ENTROPY_FAULT 1
  { s1 with cph := { s1.cph with passWindows := 0 } }.raise 1651

/-- ENTROPY_HEALTH_FAIL. -/
def execEntropyHealthFail (s : State) : Host.Outcome State Fault Refusal :=
  .next (if s.mainUp then s.entropyFail else s)

/-- n consecutive health-test windows have passed; at 1,024 the fault clears (16 R585). -/
def State.entropyPass (s : State) (n : Nat) : State :=
  if s.entropyFault then
    let k := s.cph.passWindows + n
    let s1 := { s with cph := { s.cph with passWindows := k } }
    if 1024 ≤ k then s1.wr Reg.CPH_STATUS_ENTROPY_FAULT 0 else s1
  else s

/-- ENTROPY_FAULT_CLEAR: `windows` consecutive windows have passed since the last failure. -/
def execEntropyFaultClear (windows : Nat) (s : State) : Host.Outcome State Fault Refusal :=
  .next (if s.mainUp then s.entropyPass windows else s)

/-- MASKING_RESEED (16 R584): counted modulo 65,536; while the fault holds the generator goes on without reseeding. -/
def State.maskingReseed (s : State) : State :=
  if s.entropyFault then s else s.wr Reg.CPH_ENTROPY_RESEEDS (s.rd Reg.CPH_ENTROPY_RESEEDS + 1)

def execMaskingReseed (s : State) : Host.Outcome State Fault Refusal :=
  .next (if s.mainUp then s.maskingReseed else s)

/-! ### The load key pair (16 R586) -/

/-- UNIQUE_ID, byte 0 first. -/
def State.uniqueId (s : State) : List Byte := slice (s.otpBytes 0 16) 4 8

/-- DEVID_SEED (03 Table 3.4). -/
def State.devidSeed (s : State) : List Word := (List.range 8).map fun i => s.otpWord (0x4C + i)

/-- A signature by the SPDM alias key (03 R100). -/
def State.signAlias (s : State) (msg : List Byte) : List Byte := Config.aliasSign s.devidSeed (s.measReg 1) msg

/-- Bytes laid into consecutive 32-bit registers from an offset, byte 4w of the list in bits 7:0 of register w. -/
def State.putWords (s : State) (off : Nat) (n : Nat) (b : List Byte) : State :=
  (List.range n).foldl (fun t w => t.setReg (off + 4 * w) (BitVec.ofNat 32 (leAt b (4 * w) 4))) s

/-- A fresh load key pair is generated and published with its signature; with the entropy fault it cannot be, and
LOADKEY_VALID is clear. -/
def State.newLoadKey (s : State) : State :=
  if s.entropyFault then s.wr Reg.CPH_STATUS_LOADKEY_VALID 0
  else
    let (priv, s1) := s.genBytes 48
    let pub := Config.ecdhPublic priv
    let sig := s1.signAlias (pub ++ s1.uniqueId ++ leBytes 4 (s1.rd Reg.CPH_KL_COUNT_COUNT))
    let s2 := (s1.putWords (Reg.CPH_LOADKEY 0) 25 (pub.take 97)).putWords (Reg.CPH_LOADKEY_SIG 0) 24 (sig.take 96)
    { s2.wr Reg.CPH_STATUS_LOADKEY_VALID 1 with cph := { s2.cph with loadPriv := priv } }

/-! ### Key-slot records in the NOR (16 R592 to R596) -/

/-- WRAP_SEED (03 Table 3.4). -/
def State.wrapSeed (s : State) : List Byte := s.otpBytes 0x150 32

/-- ASCII bytes. -/
def ascii (t : String) : List Byte := t.toList.map fun c => BitVec.ofNat 8 c.toNat

/-- The record key (16, "Keeping keys across power loss"). -/
def State.recordKey (s : State) : List Byte := Config.hkdf s.wrapSeed [] (ascii "ICXKR" ++ s.uniqueId) 32


/-- Appends a record to the half in use. -/
def State.putKeyRec (s : State) (r : KeyRec) : State :=
  { s with cph := { s.cph with recs := s.cph.recs ++ [r], used := s.cph.used + 96 } }

/-- Retires the KEY records of a slot with a GEN below one: LIVE, SALT and WRAPPED programmed to 0 (16 R593). -/
def State.retireKeys (s : State) (k below : Nat) : State :=
  { s with cph := { s.cph with recs := s.cph.recs.map fun (r : KeyRec) =>
      if r.slot == k && r.ty == 1 && r.gen < below then { r with live := false, salt := 0, wrapped := List.replicate 40 0 } else r } }

/-- The GEN in force of a slot: the highest GEN of a live valid KEY record that a live valid COMMIT record names. -/
def genInForce (recs : List KeyRec) (k : Nat) : Option KeyRec :=
  let ok := recs.filter fun r => r.slot == k && r.ty == 1 && r.live && r.valid &&
    recs.any fun c => c.slot == k && c.ty == 2 && c.live && c.valid && c.gen == r.gen
  ok.foldl (fun best r => match best with | some b => if b.gen < r.gen then some r else best | none => some r) none

/-- The highest durable reservation of a GEN, from its KEY or RESERVE records (16 R595). -/
def reservationOf (recs : List KeyRec) (k gen : Nat) : Nat :=
  (recs.filter fun r => r.slot == k && r.gen == gen && r.valid && (r.ty == 1 || r.ty == 3)).foldl (fun m r => max m r.inv) 0

/-- The records that compaction writes for one slot in force: KEY, COMMIT and RESERVE (16 R596). -/
def compactRecs (recs : List KeyRec) (k : Nat) : List KeyRec :=
  match genInForce recs k with
  | some r => [{ r with inv := 2 ^ 20 }, ⟨2, true, k, r.gen, 0, 0, [], true⟩, ⟨3, true, k, r.gen, 0, reservationOf recs k r.gen, [], true⟩]
  | none => []

/-- With less than 256 KiB free in the half in use, and no key change under way (log entry 22), the slots in force move to the other half, EPOCH
rises, and the old half is erased (16 R596). -/
def State.compactKeys (s : State) : State :=
  if s.cph.used + 262144 ≤ 2097152 || !s.cph.ops.isEmpty then s
  else
    let recs := (List.range 1024).flatMap (compactRecs s.cph.recs)
    { s with cph := { s.cph with recs := recs, half := 1 - s.cph.half, epoch := s.cph.epoch + 1, used := 64 + 96 * recs.length } }

/-- One slot is resolved at start-up (16 R594). -/
def State.resolveSlot (s : State) (k : Nat) : State :=
  match genInForce s.cph.recs k with
  | none =>
    let s1 := { s with cph := { s.cph with recs := s.cph.recs.map fun (r : KeyRec) => if r.slot == k && r.ty == 1 then { r with live := false, salt := 0, wrapped := List.replicate 40 0 } else r } }
    s1.setKeySlot k KeySlot.empty
  | some r =>
    let s1 := { s with cph := { s.cph with recs := s.cph.recs.map fun (x : KeyRec) =>
      if x.slot == k && x.ty == 1 && x.gen != r.gen then { x with live := false, salt := 0, wrapped := List.replicate 40 0 } else x } }
    let res := reservationOf s.cph.recs k r.gen
    match Config.aesKwUnwrap s.recordKey r.wrapped with
    | some key => (s1.setKeySlot k ⟨1, key, r.salt, res, r.gen, res, 0, false, true⟩).slotAdvance k
    | none => (s1.setKeySlot k ⟨6, [], r.salt, res, r.gen, res, 0, false, false⟩).slotEvent k 1650

/-- The slots that any record names, in ascending order, are resolved (16 R594); the others are EMPTY. -/
def State.resolveKeys (s : State) : State :=
  let ks := (List.range 1024).filter fun k => s.cph.recs.any fun r => r.slot == k
  ks.foldl State.resolveSlot { s with cph := { s.cph with slots := [] } }

/-- Installs a new key in a slot: counter 0, GEN one higher (16 R590, R593). -/
def State.installKey (s : State) (k : Nat) (key : List Byte) (salt : Word) (hostSalt : Bool) : State :=
  let x := s.keySlot k
  s.setKeySlot k ⟨1, key, salt, 0, x.gen + 1, 2 ^ 20, x.claimed, hostSalt, false⟩

/-- A RESERVE record of a slot is durable: the reservation rises by 2^20 (16 R595). -/
def State.reserveDurable (s : State) (k : Nat) : State :=
  let x := s.keySlot k
  if x.reserveDue then
    let r := x.reserved + 2 ^ 20
    let s1 := s.putKeyRec ⟨3, true, k, x.gen, 0, r, [], true⟩
    (s1.setKeySlot k { x with reserved := r, reserveDue := r < x.inv + 2 ^ 19 }).compactKeys
  else s

end Sys2Proof.Machine
end

