-- ==== Sys2Proof/Machine/Fitting.lean ====
section
/-!
DEFINITION. Machine/Fitting.lean: fittings (05 R152 to R163): begin, staging, commit with its clamps and checks, abort,
abandonment, and the adoption of a class.
-/
namespace Sys2Proof.Machine

/-- The state of a fitting as FIT_STATUS.STATE codes it. -/
def fitIdle : Nat := 0
def fitOpen : Nat := 1
def fitAdopting : Nat := 3

/-- Ends the fitting in progress with a RESULT: staged writes discarded, STATE IDLE, no owner. -/
def State.fitEnd (s : State) (result : Nat) : State :=
  let s1 := ((s.wr Reg.FIT_STATUS_STATE fitIdle).wr Reg.FIT_STATUS_OWNER 0xF).wr Reg.FIT_STATUS_RESULT result
  { s1.wr Reg.FIT_STAGED_COUNT 0 with fit := { s1.fit with staged := [], snapshot := [] } }

/-- BEGIN (05 Table 5.8): accepted in IDLE, from any agent; elsewhere refused as violation kind 4. -/
def State.fitBegin (s : State) (agent : Nat) : State :=
  if s.rd Reg.FIT_STATUS_STATE ≠ fitIdle then s.violation 4 agent Reg.FIT_CMD
  else
    let s1 := s.wr Reg.FIT_ID_ID (s.rd Reg.FIT_ID_ID + 1)
    let s2 := (((s1.wr Reg.FIT_STATUS_STATE fitOpen).wr Reg.FIT_STATUS_OWNER agent).wr Reg.FIT_STATUS_RESULT 0).wr
      Reg.FIT_STATUS_OVERFLOW 0
    { s2.wr Reg.FIT_STAGED_COUNT 0 with
      fit := { s2.fit with staged := [], snapshot := s.regs.filter (fun e => isRwf e.1), lastActivity := s.now } }

/-- The agent may ABORT: the owner, or the Belfry for a fitting of any agent. -/
def State.fitMayAbort (s : State) (agent : Nat) : Bool :=
  s.rd Reg.FIT_STATUS_STATE == fitOpen && (s.rd Reg.FIT_STATUS_OWNER == agent || agent == 4)

/-- The agent owns the open fitting. -/
def State.fitOwns (s : State) (agent : Nat) : Bool :=
  s.rd Reg.FIT_STATUS_STATE == fitOpen && s.rd Reg.FIT_STATUS_OWNER == agent

/-- ABORT (05 Table 5.8), raising source 1,795. -/
def State.fitAbort (s : State) (agent : Nat) : State :=
  if s.fitMayAbort agent then (s.fitEnd 3).raise 1795 else s.violation 4 agent Reg.FIT_CMD

/-- A field of an RWF register: its place in the register and the image field whose range it has. -/
structure RwfField where
  lsb : Nat
  width : Nat
  ty : Nat
  off : Nat
  spec : FieldSpec
  deriving DecidableEq, Repr

/-- The fields of the RWF register at an offset. -/
def rwfFields (off : Nat) : List RwfField :=
  if 0x00104000 ≤ off ∧ off < 0x00106000 then
    let slot := (off - 0x00104000) / 0x800
    let b := (off - 0x00104000) % 0x800
    (plantSlotSpecs slot).filterMap fun f =>
      let o := f.off - 0x300 * slot
      if o / 4 = b / 4 then some ⟨8 * (o % 4), 8 * f.size, 0x60, f.off, f⟩ else none
  else if off = Reg.STR_META_GROUPS_LO ∨ off = Reg.STR_META_GROUPS_HI then [⟨0, 32, 0x20, 8, ⟨8, 4, .any, 0xFFFFFFFF⟩⟩]
  else
    (imgFields.filter fun f => f.field.off == off).filterMap fun f =>
      match (fieldSpecs f.ty).find? (fun p => p.off == f.off) with
      | some p => some ⟨f.field.lsb, f.field.width, f.ty, f.off, p⟩
      | none => none

/-- A word with the reserved bits of the RWF register at an offset 0 (00 R13). -/
def rwfBits (off : Nat) (w : Word) : Word :=
  (rwfFields off).foldl (fun a f => putBits a f.lsb f.width (bitsOf w f.lsb f.width)) 0

/-- A write to an RWF register (05 R153, R156): staged by the owner of an open fitting, its reserved bits ignored (00 R13); a 4,097th
register sets OVERFLOW and is discarded; every other write is discarded and recorded as Table 5.3 gives. -/
def State.fitStage (s : State) (agent off : Nat) (w : Word) : State :=
  if s.rd Reg.FIT_STATUS_STATE ≠ fitOpen then s.violation 2 agent off
  else if s.rd Reg.FIT_STATUS_OWNER ≠ agent then s.violation 3 agent off
  else
    let s1 := { s with fit := { s.fit with lastActivity := s.now } }
    let present := s.fit.staged.any (fun e => e.1 == off)
    if !present && 4096 ≤ s.fit.staged.length then s1.wr Reg.FIT_STATUS_OVERFLOW 1
    else
      -- a staged write is kept even where its value is 0: the list is sorted by offset and holds every staged register
      let rest := s.fit.staged.filter (fun e => e.1 != off)
      let st := rest.filter (fun e => e.1 < off) ++ [(off, rwfBits off w)] ++ rest.filter (fun e => off < e.1)
      { s1.wr Reg.FIT_STAGED_COUNT st.length with fit := { s1.fit with staged := st } }

/-! ### Commit (05 R159, R160) -/

/-- A staged word clamped field by field (04 Table 4.3), reserved bits 0, with the report entries of the fitting. -/
def clampWord (off : Nat) (w : Word) : Word × List ClampEntry :=
  (rwfFields off).foldl (fun a f =>
    let v := bitsOf w f.lsb f.width
    let c := clampValue f.spec.limit f.spec.dflt v
    let e := match c.2 with
      | some r => [⟨0xFFFF, 0, off, f.width, f.lsb, r, 0, v, c.1⟩]
      | none => []
    (putBits a.1 f.lsb f.width c.1, a.2 ++ e)) (0, [])

/-- A record of the configuration with one field set; the record is added where it is absent. -/
def cfgSet (cfg : List Rec) (ty inst off v : Nat) : List Rec :=
  match cfgFind cfg ty inst with
  | some _ => cfg.map fun r => if r.ty == ty && r.inst == inst then { r with vals := mapSet (fieldDefault ty) r.vals off v } else r
  | none => cfg ++ [⟨ty, inst, mapSet (fieldDefault ty) [] off v, []⟩]

/-- The configuration with the values of RWF registers in place of the image's, for the registers listed. -/
def overlay (cfg : List Rec) (word : Nat → Word) (offs : List Nat) : List Rec :=
  let c1 := offs.foldl (fun c off =>
    if off = Reg.STR_META_GROUPS_LO ∨ off = Reg.STR_META_GROUPS_HI then c
    else (rwfFields off).foldl (fun c f => cfgSet c f.ty 0 f.off (bitsOf (word off) f.lsb f.width)) c) cfg
  cfgSet c1 0x20 0 8 ((word Reg.STR_META_GROUPS_LO).toNat + 2 ^ 32 * (word Reg.STR_META_GROUPS_HI).toNat)

/-- The checks of 04 Table 4.15 that involve a field of the register at an offset (04 R132). -/
def checksOf (off : Nat) : List Nat :=
  if off = Reg.STR_DW_CFG then [14]
  else if off = Reg.STR_POLICY then [8, 9, 13, 14]
  else if off = Reg.STR_META_GROUPS_LO ∨ off = Reg.STR_META_GROUPS_HI then [10]
  else if 0x00104000 ≤ off ∧ off < 0x00106000 then [17]
  else if off = Reg.THM_COOL_LINKS then [11]
  else if off = Reg.THM_WARN_C ∨ off = Reg.THM_ENFORCE_C ∨ off = Reg.THM_BRIDGE then [19]
  else []

/-- DRAM channel ch is in service (17 R627: a retirement takes effect at a main reset). -/
def State.chanUp (s : State) (ch : Nat) : Bool := !(s.rd Reg.DRC_RETIRED_CHANNELS).testBit ch

/-- The DRAM channels in service, ascending, and how many they are. -/
def State.chans (s : State) : List Nat := (List.range 24).filter s.chanUp
def State.chansUp (s : State) : Nat := s.chans.length

/-- One check by its number, with `chans` DRAM channels in service; the checks a fitting can involve. -/
def oneCheck (chans : Nat) (cfg : List Rec) (n : Nat) : Option CheckFail :=
  if n = 8 then check8 cfg else if n = 9 then check9 cfg else if n = 10 then check10 cfg else if n = 11 then check11 cfg
  else if n = 13 then check13 cfg else if n = 14 then check14 chans cfg else if n = 17 then check17 cfg else if n = 19 then check19 cfg
  else none

/-- The RWF registers outside the MANTLE_PLANT blocks. -/
def plainRwf : List Nat :=
  [Reg.STR_DW_CFG, Reg.STR_POLICY, Reg.STR_META_GROUPS_LO, Reg.STR_META_GROUPS_HI, Reg.THM_WARN_C, Reg.THM_ENFORCE_C,
   Reg.THM_GRACE, Reg.THM_POLICY, Reg.THM_BRIDGE, Reg.THM_COOL_LINKS]

/-- The first words of each MANTLE_PLANT block: the ones check 17 reads. -/
def plantHeads : List Nat := (List.range 4).flatMap fun s => [0x00104000 + 0x800 * s, 0x00104008 + 0x800 * s]

/-- Keeps a clamp report: GENERATION counts, source 1,797, the asynchronous event of 04 R142. -/
def State.report (s : State) (r : ClampReport) (isLoad isCommitRun : Bool) : State :=
  let g := s.image.reports + 1
  let r := { r with generation := g, entries := r.entries.take 1024, overflow := 1024 < r.entries.length, timeMs := s.auxMs }
  let im := { s.image with
    reports := g
    newest := if isCommitRun then s.image.newest else some r
    lastLoad := if isLoad then some r else s.image.lastLoad
    lastCommit := if isCommitRun then some r else s.image.lastCommit }
  let s1 := { s with image := im }.raise 1797
  if !r.entries.isEmpty || r.fallback || r.noImage || r.rollback then
    s1.ctrls.foldl (fun t c => t.aen c ⟨7, 1797 / 64, 0xC1⟩) s1
  else s1

/-- A MANTLE slot that is bypassed counts as adopted at the commit (05 R162). -/
def State.classBypassed (s : State) (cls : Nat) : Bool :=
  2 ≤ cls && cls ≤ 5 && s.rd (Reg.MNT_LOOP_STATUS_STATE (cls - 2)) == 3

/-- The bits of FIT_PENDING for a list of classes. -/
def classBits (l : List Nat) : Nat := l.foldl (fun a c => a ||| 2 ^ c) 0

/-- Ends the fitting when no class is pending (05 R161). -/
def State.fitSettle (s : State) : State :=
  if s.rd Reg.FIT_PENDING_CLASS = 0 then (s.fitEnd 1).raise 1793 else s

/-- What a report says of the image in force (04 Table 4.16): its slot (0xFF none), IMAGE_VERSION and IMAGE_ID. -/
def State.imageSlot (s : State) : Nat := if s.image.inForce then s.rd Reg.BEL_IMAGE_STATUS_SLOT else 0xFF
def State.imageVersion (s : State) : Nat := s.rd Reg.BEL_IMAGE_VERSION_VERSION
def State.imageId (s : State) : Nat := s.rd64 Reg.BEL_IMAGE_ID_LO Reg.BEL_IMAGE_ID_HI

/-- Class STRIPE is adopted at the commit (Table 5.10, 12 R427): a band whose WIDTH or PARITY differs from the committed values opens no further
stripe, and is closed when its open stripe closes, at once where it has none. -/
def State.stopStaleBands (s : State) : State :=
  let busy (b : Band) : Bool := s.ftl.stripes.any fun st => st.band == b.id && st.state == 0
  let stale (b : Band) : Bool := b.state == 0 && (b.parity != s.rd Reg.STR_POLICY_PARITY ||
    (if b.kind < 2 then b.width != s.rd Reg.STR_POLICY_WIDTH else s.rd Reg.STR_POLICY_WIDTH < b.width))
  let bands := s.ftl.bands.map fun (b : Band) => if stale b then { b with stop := true, state := bit (!busy b) } else b
  ({ s with ftl := { s.ftl with bands := bands } } : State).wr Reg.STR_STATUS_OPEN_BANDS (bands.filter fun b => b.state == 0).length

/-- COMMIT by the owner (05 R159): clamp, check, install and start adoption, or roll back; in either case a report. -/
def State.fitRun (s : State) : State :=
  let id := s.rd Reg.FIT_ID_ID
  let staged := s.fit.staged
  let clamped := staged.map fun e => (e.1, clampWord e.1 e.2)
  let entries := clamped.flatMap fun e => e.2.2
  let word (off : Nat) : Word := match clamped.find? (fun e => e.1 == off) with | some e => e.2.1 | none => s.reg off
  let offs := staged.map (fun e => e.1)
  let cfg := overlay s.image.cfg word (plainRwf ++ plantHeads ++ offs)
  let checks := (List.range 20).filter fun n => offs.any fun o => (checksOf o).contains n
  let bad := checks.findSome? (oneCheck s.chansUp cfg)
  let base : ClampReport := ⟨0, entries, 3, false, false, false, false, s.imageSlot, 0, 0, 0, 0xFFFF, 0xFFFF, s.imageVersion, id, s.imageId, 0⟩
  let owner := s.rd Reg.FIT_STATUS_OWNER
  let s0 := s.wr Reg.FIT_STATUS_CLAMPS (min 4095 entries.length)
  match bad with
  | some f =>
    let s1 := (s0.wr Reg.FIT_STATUS_CHECK f.check).fitEnd 2
    let s2 := s1.report { base with entries := entries.map (fun e => { e with origin := 1 }), rollback := true, check := f.check } false false
    (s2.record 0x04 0 [id, owner, 2, entries.length]).raise 1794
  | none =>
    let classes := (offs.filterMap adoptClass).eraseDups
    let later := classes.filter fun c => c != 1 && c != 7 && c != 9
    let held : SMap Word := (offs.filter fun o => match adoptClass o with | some c => later.contains c | none => false).map fun o => (o, s.inForce o)
    let s1a := clamped.foldl (fun t e => t.setReg e.1 e.2.1) s0
    let s1 := if classes.contains 1 then s1a.stopStaleBands else s1a
    let obj := leBytes 4 id ++ clamped.flatMap fun e => leBytes 4 e.1 ++ leBytes 4 e.2.1.toNat
    let s2 := (s1.extend 9 (Config.sha384 obj)).wr Reg.FIT_STATUS_CHECK 0
    let s3 := { (s2.wr Reg.FIT_STATUS_STATE fitAdopting).wr Reg.FIT_STAGED_COUNT 0 with
      fit := { s2.fit with staged := [], snapshot := [], held := (s2.fit.held.filter fun (e : Nat × Word) => !held.any fun (h : Nat × Word) => h.1 == e.1) ++ held } }
    let s4 := s3.wr Reg.FIT_PENDING_CLASS (classBits (later.filter fun c => !s.classBypassed c))
    let s5 := (s4.report base false false).raise 1792
    ((s5.record 0x04 0 [id, owner, 1, entries.length]).tally 0xAC 1).fitSettle

/-- COMMIT (05 Table 5.8, R156): an overflowed fitting is aborted with RESULT OVERFLOW. -/
def State.fitCommit (s : State) (agent : Nat) : State :=
  if !s.fitOwns agent then s.violation 4 agent Reg.FIT_CMD
  else if s.rd Reg.FIT_STATUS_OVERFLOW = 1 then (s.fitEnd 6).raise 1795
  else s.fitRun

/-- Drops the kept values of a class: its committed values are in force. -/
def State.fitRelease (s : State) (cls : Nat) : State :=
  { s with fit := { s.fit with held := s.fit.held.filter fun e => adoptClass e.1 != some cls } }

/-- One class reaches its safe point (05 R161): its committed values are in force and its FIT_PENDING bit clears. -/
def State.fitAdoptClass (s : State) (cls : Nat) : State :=
  if (s.rd Reg.FIT_PENDING_CLASS).testBit cls then
    let s1 := (s.fitRelease cls).wr Reg.FIT_PENDING_CLASS (s.rd Reg.FIT_PENDING_CLASS - 2 ^ cls)
    s1.fitSettle
  else s

/-- A class has not reached its safe point. -/
def State.fitPending (s : State) (cls : Nat) : Bool := (s.rd Reg.FIT_PENDING_CLASS).testBit cls

/-- Abandons an open fitting (05 R157) with a RESULT, raising source 1,795. -/
def State.fitAbandon (s : State) (result : Nat) : State :=
  if s.rd Reg.FIT_STATUS_STATE = fitOpen then (s.fitEnd result).raise 1795 else s

/-- The idle time of an open fitting has reached IDLE_MS (05 Table 5.9). -/
def State.fitIdleDue (s : State) : Bool :=
  s.rd Reg.FIT_STATUS_STATE == fitOpen && s.fit.lastActivity + s.rd Reg.FIT_TIMEOUT_IDLE_MS * 1000000 ≤ s.now

/-- A fitting of its own for a command (05 R158): begin, one staged write a register, commit. -/
def State.fitSelf (s : State) (agent : Nat) (writes : List (Nat × Word)) : State :=
  (writes.foldl (fun t e => t.fitStage agent e.1 e.2) (s.fitBegin agent)).fitCommit agent

end Sys2Proof.Machine
end

