-- ==== Sys2Proof/Machine/Gate.lean ====
section
/-!
DEFINITION. Machine/Gate.lean: the admission gate and the dirty-window governor (01 R29 to R38, 10 R352 to R374).
-/
namespace Sys2Proof.Machine

def mib : Nat := 1048576

/-- A field's register set for the window; `modWin` changes the gate's own state. -/
def State.modWin (s : State) (f : Window → Window) : State := { s with win := f s.win }

/-! ### Occupancy, gap, closing and opening (R31, R32, R33) -/

def State.limitMib (s : State) : Nat := s.rd Reg.STR_DW_LIMIT_MIB
def State.gateClosed (s : State) : Bool := s.rd Reg.STR_DW_STATUS_GATE_CLOSED == 1
def State.degraded (s : State) : Bool := s.rd Reg.STR_DW_STATUS_DEGRADED == 1

/-- The gap of R31 for a limit, in MiB (10 R369). -/
def gapMib (limit : Nat) : Nat := max 64 (limit / 16)

/-- Occupancy is at or below the limit minus the gap. -/
def State.belowGap (s : State) : Bool := s.win.occ ≤ (s.limitMib - gapMib s.limitMib) * mib

/-- The gate closes: GATE_CLOSED, source 1,720 at the change. -/
def State.shutGate (s : State) : State :=
  if s.gateClosed then s else (s.wr Reg.STR_DW_STATUS_GATE_CLOSED 1).raise 1720

/-- The gate opens: source 1,721, but not where it opens because the first limit has been computed. The intervals of R33 that run are
recorded, one for each fall. -/
def State.openGate (s : State) : State :=
  if !s.gateClosed then s
  else
    let quiet := s.win.quietOpen
    let s1 := (s.wr Reg.STR_DW_STATUS_GATE_CLOSED 0).modWin fun w => { w with refused := false, quietOpen := false }
    let s2 := if quiet then s1 else s1.raise 1721
    s2.win.falls.foldl (fun t f => match f with
      | from_ :: rest =>
        let ms := (t.now - from_) / 1000000
        ((t.record 0x05 1 (ms :: rest)).tally 0x98 1).tallyMax 0x9C ms
      | [] => t) (s2.modWin fun w => { w with falls := [], draining := false })

/-- The gate reopens where R31 lets it: no closure of R372 in force, a limit computed, occupancy at or below the limit minus
the gap. -/
def State.reopenGate (s : State) : State :=
  if s.gateClosed && s.win.hard == 0 && s.win.limitReady && (!s.win.refused || s.belowGap) then s.openGate else s

/-- A closure of R372: input power lost (1), TRIP (2), warm restart (3). The cause shown is the first one's. -/
def State.hardClose (s : State) (cause : Nat) : State :=
  let s1 := s.shutGate
  let s2 := if s1.win.hard = 0 then s1.wr Reg.STR_DW_STATUS_CLOSE_CAUSE cause else s1
  s2.modWin fun w => { w with hard := if w.hard = 0 then cause else w.hard }

/-- Occupancy falls by n bytes, and the gate may reopen. -/
def State.occDrop (s : State) (n : Nat) : State := (s.modWin fun w => { w with occ := w.occ - n }).reopenGate

/-! ### The meter (R364) -/

/-- The bucket holds what it held and what has flowed in since, at most 64 MiB. -/
def State.tokensNow (s : State) : Nat :=
  min 67108864 (s.win.tokens + s.rd Reg.STR_ADM_METER_MBPS * (s.now - s.win.tokensAt) / 1000)

/-- The metered rate changes; the bucket is full whenever metering begins. -/
def State.setMeter (s : State) (mbps : Nat) : State :=
  let was := s.rd Reg.STR_ADM_METER_MBPS
  let t := if was = 0 then 67108864 else s.tokensNow
  ((s.wr Reg.STR_ADM_METER_MBPS mbps).wr Reg.STR_DW_STATUS_METERING (bit (mbps != 0))).modWin
    fun w => { w with tokens := t, tokensAt := s.now }

/-! ### The read meter of PS1 (20 R691) -/

/-- Read data is metered at 100,000 MB/s by a bucket of the same form. -/
def State.readTokensNow (s : State) : Nat := min 67108864 (s.win.readTokens + 100000 * (s.now - s.win.readTokensAt) / 1000)

/-- The meters are removed, or put in force with full buckets. -/
def State.setCapped (s : State) (b : Bool) : State :=
  (s.wr Reg.PWR_STATUS_CAPPED (bit b)).modWin fun w => { w with readTokens := 67108864, readTokensAt := s.now }

/-- Bytes read: those of a host are there to be taken; what maintenance reads counts too (log entry 118). -/
def State.readCharge (s : State) (n : Nat) : State :=
  if s.rd Reg.PWR_STATUS_CAPPED = 1 then s.modWin fun w => { w with readTokens := s.readTokensNow - n, readTokensAt := s.now } else s

/-- A host's read of n bytes may be returned: the bucket holds them, and no read waits for it already. -/
def State.readMay (s : State) (n : Nat) : Bool :=
  s.rd Reg.PWR_STATUS_CAPPED != 1 || (decide (n ≤ s.readTokensNow) && !s.path.reads.any fun r => r.held.isNone && r.late.isEmpty)

/-! ### Chunk requests (R361 to R363) -/

/-- The next chunk request of a command with bytes unreserved: min(B, 2 MiB), at most one waiting (R361). -/
def State.askChunk (s : State) (c : WCmd) (realtime : Bool) : State :=
  let left := 4096 * c.lsas.length - c.granted
  if left = 0 ∨ s.win.waiting.any (fun r => r.cmd == c.id) then s
  else s.modWin fun w => { w with
    waiting := w.waiting ++ [⟨c.id, min left 2097152, realtime, s.now, w.chunkSeq⟩], chunkSeq := w.chunkSeq + 1 }

/-- Request a is served before b: REALTIME before BULK, then the older (R362). -/
def ChunkReq.before (a b : ChunkReq) : Bool :=
  if a.realtime != b.realtime then a.realtime
  else if a.since ≠ b.since then a.since < b.since else a.order < b.order

/-- The request the gate serves next. -/
def nextReq : List ChunkReq → Option ChunkReq
  | [] => none
  | r :: l => match nextReq l with
    | some b => if b.before r then some b else some r
    | none => some r

/-- A command of the write path by its number. -/
def State.wcmd (s : State) (id : Nat) : Option WCmd := s.path.writes.find? fun c => c.id == id

def State.modPath (s : State) (f : Path → Path) : State := { s with path := f s.path }

/-- Bytes programmed, written by users and relocated, for FTL_WAF and FTL_GC_MBPS (11 Table 11.12); a minute's worth is kept. -/
def State.moved (s : State) (flash user gc : Nat) : State :=
  s.modPath fun p => { p with marks := ((s.now, flash, user, gc) :: p.marks).filter fun m => s.now < m.1 + 60000000000 }

def State.modW (s : State) (id : Nat) (f : WCmd → WCmd) : State :=
  s.modPath fun p => { p with writes := p.writes.map fun c => if c.id == id then f c else c }

/-- STR_DW_STATUS.WRITE_THROUGH: some write-through command is outstanding (R370). -/
def State.showWt (s : State) : State :=
  s.wr Reg.STR_DW_STATUS_WRITE_THROUGH (bit (s.path.writes.any fun c => c.wt == some true && !c.ended))

/-- A chunk is granted: occupancy rises, tokens fall, the command's next request is made at once; its write-through choice is
made at its first chunk (R370). -/
def State.grant (s : State) (r : ChunkReq) (c : WCmd) : State :=
  let s1 := s.modWin fun w => { w with
    occ := w.occ + r.bytes
    waiting := w.waiting.filter fun (x : ChunkReq) => x.cmd != r.cmd
    tokens := s.tokensNow - r.bytes
    tokensAt := s.now
    grants := mapSet (fun _ => 0) w.grants c.src (mapGet (fun _ => 0) w.grants c.src + r.bytes) }
  let s2 := s1.modW c.id fun x => { x with granted := x.granted + r.bytes, wt := match x.wt with | some b => some b | none => some s.degraded }
  let s3 := match s2.wcmd c.id with
    | some c2 => s2.askChunk c2 (c.kind != WKind.write)
    | none => s2
  let s4 := { s3 with life := { s3.life with occPeak := max s3.life.occPeak s3.win.occ } }
  s4.showWt

/-- The gate decides on the request next in order (R29, R31, R363, R364): granted where it fits the limit and the bucket
holds its size; nothing in a low power state, while one is entered, or before the first limit after it (20 R692, R700); waiting for tokens; refused where it does not fit, which closes the gate. -/
def State.chunkGrant (s : State) : State :=
  if s.gateClosed || s.nvme.fetchStopped || !s.win.limitReady then s
  else match nextReq s.win.waiting with
    | none => s
    | some r => match s.wcmd r.cmd with
      | none => s.modWin fun w => { w with waiting := w.waiting.filter fun (x : ChunkReq) => x.cmd != r.cmd }
      | some c =>
        if s.limitMib * mib < s.win.occ + r.bytes then
          ((s.bump Reg.STR_ADM_REFUSALS_COUNT).modWin fun w => { w with refused := true }).shutGate
        else if s.rd Reg.STR_ADM_METER_MBPS ≠ 0 ∧ s.tokensNow < r.bytes then s
        else s.grant r c

/-- CHUNK_GRANT: the gate takes its next decision. -/
def execChunkGrant (s : State) : Host.Outcome State Fault Refusal :=
  .next (if s.mainUp then s.chunkGrant else s)

/-- BULK requests that have waited 20 ms join REALTIME in the place their arrival gives (R362). -/
def State.promote (s : State) : State :=
  s.modWin fun w => { w with waiting := w.waiting.map fun (r : ChunkReq) => { r with realtime := r.realtime || r.since + 20000000 ≤ s.now } }

def execBulkPromotion (s : State) : Host.Outcome State Fault Refusal :=
  .next (if s.mainUp then s.promote else s)

/-- A requester is ended (R365): its waiting request is withdrawn, and its chunks not fetched leave occupancy. -/
def State.withdraw (s : State) (id : Nat) : State :=
  let s1 := s.modWin fun w => { w with waiting := w.waiting.filter fun (x : ChunkReq) => x.cmd != id }
  match s1.wcmd id with
  | some c => (s1.modW id fun x => { x with granted := x.fetched }).occDrop (c.granted - c.fetched)
  | none => s1

/-! ### The limit (R30, R366 to R369) -/

/-- Links in a stripe state (12 Table 12.2). -/
def State.linksIn (s : State) (st : Nat) : List Nat := (List.range 512).filter fun n => s.rd (Reg.STR_LINK_STATE n) == st

/-- Trained rate of a link in GT/s (14: code 0 is 16, 1 is 8, 2 is 4). -/
def State.linkGts (s : State) (n : Nat) : Nat :=
  match s.rd (Reg.JL_STATE_RATE n) with
  | 0 => 16
  | 1 => 8
  | _ => 4

/-- Dies behind a link that answer. -/
def State.linkDies (s : State) (n : Nat) : Nat :=
  match groupOf s.image.cfg n with
  | some g => g.get 4 - (s.ftl.absentDies.filter fun d => d.1 == n).length
  | none => 0

def minOf (l : List Nat) : Nat := match l with | [] => 0 | x :: xs => xs.foldl min x
def maxOf (l : List Nat) : Nat := l.foldl max 0

/-- The personalities behind a list of links. -/
def State.persOf (s : State) (links : List Nat) : List Rec := links.filterMap fun n => personalityOf s.image.cfg n

/-- WIDTH and PARITY in force. -/
def State.width (s : State) : Nat := s.force Reg.STR_POLICY_WIDTH
def State.parity (s : State) : Nat := s.force Reg.STR_POLICY_PARITY

/-- A flash rate divided by f = 1.01172 × WIDTH / (WIDTH − PARITY) × 1.01, rounded down (R366). -/
def userRate (rate width parity : Nat) : Nat := rate * (10000000 * (width - parity)) / (10218372 * width)

/-- r_flush in MB/s. -/
def State.rFlush (s : State) : Nat :=
  let ls := s.linksIn 1
  let lRate := (ls.map fun n => 1654 * s.linkGts n).sum / 16
  let dRate := (ls.map s.linkDies).sum * minOf ((s.persOf ls).map fun p => p.get 0x2C)
  userRate (min lRate dRate) s.width s.parity

/-- t_fixed in µs. -/
def State.tFixed (s : State) : Nat := 2 * maxOf ((s.persOf (s.linksIn 1)).map fun p => p.get 0x24) + 10000

/-- The energy term in MiB from the usable energy in mJ (R366): 64 while loop slot 1 is bypassed (R367). -/
def State.energyTerm (s : State) : Nat :=
  if s.rd (Reg.MNT_LOOP_STATUS_STATE 1) = 3 then 64
  else
    let m := s.cfg 0x61 0 1
    let w := s.cfg 0x61 0 2
    let d := (s.rd Reg.MNT_EUSE_MJ * 1000 * (100 - m) - s.tFixed * 100 * w) * s.rFlush / (100 * w)
    max (d / mib) 64

/-- The thermal term is in effect: WARN or higher, or RISE_WARN or higher (R368). -/
def State.thermalOn (s : State) : Bool := s.rd Reg.THM_STATUS_STATE != 0 || s.rd Reg.THM_STATUS_RISE != 0

/-- r_cool in MB/s. -/
def State.rCool (s : State) : Nat :=
  let ls := s.linksIn 1
  let n := min (s.force Reg.THM_COOL_LINKS_LINKS) ls.length
  let lCool := n * 1654 * minOf (ls.map s.linkGts) / 16
  let dCool := n * minOf (ls.map s.linkDies) * minOf ((s.persOf ls).map fun p => p.get 0x2C)
  userRate (min lCool dCool) s.width s.parity

def State.thermalTerm (s : State) : Nat := s.rCool * 360000 / mib

/-- No bound. -/
def noBound : Nat := 0xFFFFFFFF

/-- The terms of a candidate: energy, thermal, staging, host ceiling, in MiB. -/
def State.terms (s : State) : List Nat :=
  [s.energyTerm, if s.thermalOn then s.thermalTerm else noBound, s.force Reg.STR_DW_CFG_STAGING_GIB * 1024,
   if s.win.ceiling = 0 then noBound else s.win.ceiling]

/-- The lowest code of the least term. -/
def bindingOf (l : List Nat) : Nat := l.findIdx fun x => x == minOf l

/-- The limit from candidates, newest first: the least of the newest and the 100 before it (R30). -/
def limitOf (cands : List Nat) : Nat := minOf (cands.take 101)

/-- Mantle enters DEGRADED (R35): sources and the SMART asynchronous event of 06 R202. -/
def State.enterDegraded (s : State) : State :=
  if s.degraded then s
  else (((s.wr Reg.STR_DW_STATUS_DEGRADED 1).wr Reg.MNT_STATUS_DEGRADED 1).raise 1723).smartAen 4 0

/-- One computation of the governor: terms, candidate, limit, gap, and what follows for the gate and for DEGRADED. -/
def State.governorTick (s : State) : State :=
  let t := s.terms
  let cand := minOf t
  let cands := (cand :: s.win.cands).take 101
  let limit := limitOf cands
  let old := s.limitMib
  let s1 := (((((s.wr Reg.STR_DW_T_ENERGY_MIB (t.getD 0 0)).wr Reg.STR_DW_T_THERMAL_MIB (t.getD 1 0)).wr Reg.STR_DW_T_STAGING_MIB (t.getD 2 0)).wr
    Reg.STR_DW_T_HOST_MIB (t.getD 3 0)).wr Reg.STR_DW_CAND_MIB cand).wr Reg.STR_DW_STATUS_BINDING (bindingOf t)
  let s2 := (((s1.wr Reg.STR_DW_LIMIT_MIB limit).wr Reg.STR_DW_GAP_MIB (gapMib limit)).wr Reg.STR_DW_FLUSH_RATE_MBPS s.rFlush).wr
    Reg.STR_DW_FIXED_US s.tFixed
  let s3 := (s2.wr Reg.STR_DW_STATUS_THERMAL_TERM (bit s.thermalOn)).wr Reg.STR_DW_COOL_RATE_MBPS (if s.thermalOn then s.rCool else 0)
  let s4 := s3.modWin fun w => { w with cands := cands, limitReady := true, clearSince := if (t.getD 0 0) < 320 then none else match w.clearSince with | some x => some x | none => some s.now }
  -- a fall of the limit below occupancy closes the gate (R32); caused by the energy term it starts an interval (R33)
  let fell := limit < old && limit * mib < s4.win.occ
  let s5 := if fell then (s4.modWin fun w => { w with refused := true, draining := true }).shutGate else s4
  let s6 := if fell && bindingOf t == 0 then
      (s5.modWin fun w => { w with falls := w.falls ++ [[s.now, (t.getD 0 0), w.occ, if s.rd Reg.STR_DW_STATUS_LEARN_EXCL = 1 then s.rd Reg.STR_DW_STATUS_LEARN_STRING else 0xFF]] }).raise 1722
    else s5
  let s7 := if (t.getD 0 0) < 256 then s6.enterDegraded else s6
  s7.reopenGate

/-- GOVERNOR_TICK, every 1 ms; the candidate is the safe point of class GOVERNOR (05 R161). -/
def execGovernorTick (s : State) : Host.Outcome State Fault Refusal :=
  .next (if s.mainUp then (s.fitAdoptClass 0).governorTick else s)

/-- DEGRADED_EXIT: the energy term has been at or above 320 MiB for 1 s without interruption (R35). -/
def State.degradedExit (s : State) : State :=
  match s.win.clearSince with
  | some t =>
    if s.degraded && t + 1000000000 ≤ s.now then
      ((s.wr Reg.STR_DW_STATUS_DEGRADED 0).wr Reg.MNT_STATUS_DEGRADED 0).raise 1724
    else s
  | none => s

def execDegradedExit (s : State) : Host.Outcome State Fault Refusal :=
  .next (if s.mainUp then s.degradedExit else s)

end Sys2Proof.Machine
end

