-- ==== Sys2Proof/Machine/Flash.lean ====
section
/-!
DEFINITION. Machine/Flash.lean: where data lies: link states (12 R423), bands and their members (12 R424, R425), stripes,
their data area, hem pages and closing (11 R376 to R392), and the placing of sectors.
-/
namespace Sys2Proof.Machine

def State.modFtl (s : State) (f : Ftl → Ftl) : State := { s with ftl := f s.ftl }

/-! ### Health counters (12 Tables 12.7 to 12.9) -/

def State.modHealth (s : State) (f : Health → Health) : State :=
  s.modFtl fun t => { t with health := { f t.health with generation := t.health.generation + 1 } }

def bumpAt (m : SMap Nat) (k n : Nat) : SMap Nat := mapSet (fun _ => 0) m k (mapGet (fun _ => 0) m k + n)

/-- An event entry of 12 Table 12.9, newest first, 256 kept: type, member, link, stripe, NSID, LSA. -/
def State.stripeEvent (s : State) (ty member link stripe nsid lsa : Nat) : State :=
  s.modHealth fun h => { h with events := ([s.steepleTime, ty, member, link, stripe, nsid, lsa] :: h.events).take 256 }

/-! ### Link states (12 Table 12.2) -/

def State.linkState (s : State) (n : Nat) : Nat := s.rd (Reg.STR_LINK_STATE n)

/-- A link takes a state: its state source, 1,709 where the count of SLOW links changes, 1,710 where the count of IN_SERVICE
links crosses 160 (R423, R449). -/
def State.setLink (s : State) (n st : Nat) : State :=
  if s.linkState n = st then s
  else
    let inA := (s.linksIn 1).length
    let slowA := (s.linksIn 2).length
    let s1 := (s.wr (Reg.STR_LINK_STATE n) st).raise (2 * n + 1)
    let inB := (s1.linksIn 1).length
    let s2 := s1.raiseIf ((s1.linksIn 2).length != slowA) 1709
    let s3 := s2.wr Reg.STR_STATUS_NONSLOW_LOW (bit (inB < 160))
    s3.raiseIf ((160 ≤ inA && inB < 160) || (inA < 160 && 160 ≤ inB)) 1710

/-- The link is DOWN (14 Table 14.4). -/
def State.linkDown (s : State) (n : Nat) : Bool := (mapGet (fun _ => Lnk.init) s.links n).downSince.isSome

/-- The link's members count as missing (12, "Missing members and degraded reads"; 14 R511). -/
def State.linkMissing (s : State) (n : Nat) : Bool := 4 ≤ s.linkState n || s.linkDown n

/-- A member (link, die, block) is missing. -/
def State.memberMissing (s : State) (m : Nat × Nat × Nat) : Bool :=
  s.linkMissing m.1 || s.ftl.absentDies.contains (m.1, m.2.1)

/-! ### Geometry (11) -/

/-- The FLASH_PERSONALITY of a type code. -/
def State.pers (s : State) (ty : Nat) : Rec :=
  match cfgFind s.image.cfg ty 0 with
  | some r => r
  | none => ⟨ty, 0, [], []⟩

/-- Sectors of a program unit. -/
def persSu (p : Rec) : Nat := p.get 0x1A * p.get 0x14 / 4096

/-- Pages of a block. -/
def persRows (p : Rec) : Nat := p.get 0x1C

def State.su (s : State) (b : Band) : Nat := persSu (s.pers b.pers)
def Band.dm (b : Band) : Nat := b.width - b.parity

/-- Data sectors of a row. -/
def State.per (s : State) (b : Band) : Nat := b.dm * s.su b

/-- Data rows the stripe may have: 127, and room for the hem page in the band (R377). -/
def State.maxRows (s : State) (b : Band) (st : Stripe) : Nat := min 127 (persRows (s.pers b.pers) - st.firstRow - 1)

/-- Data-area positions of a stripe. -/
def State.capacity (s : State) (b : Band) (st : Stripe) : Nat := s.maxRows b st * s.per b

/-- An SSA (R378). -/
def ssaOf (stripe off : Nat) : Nat := stripe * 2 ^ 18 + off
def ssaStripe (a : Nat) : Nat := a / 2 ^ 18
def ssaOff (a : Nat) : Nat := a % 2 ^ 18

/-- The row and the data member of a position. -/
def State.rowOf (s : State) (b : Band) (off : Nat) : Nat := off / s.per b
def State.memberOf (s : State) (b : Band) (off : Nat) : Nat := off % s.per b / s.su b

def State.stripe (s : State) (i : Nat) : Option Stripe := s.ftl.stripes.find? fun t => t.id == i
def State.band (s : State) (i : Nat) : Option Band := s.ftl.bands.find? fun b => b.id == i

def State.modStripe (s : State) (i : Nat) (f : Stripe → Stripe) : State :=
  s.modFtl fun t => { t with stripes := t.stripes.map fun x => if x.id == i then f x else x }

def State.modBand (s : State) (i : Nat) (f : Band → Band) : State :=
  s.modFtl fun t => { t with bands := t.bands.map fun x => if x.id == i then f x else x }

/-- The position of a stripe. -/
def Stripe.posAt (st : Stripe) (off : Nat) : Option Placed := mapGet (fun _ => none) st.data off

/-- The sector an SSA names. -/
def State.placed (s : State) (ssa : Nat) : Option Placed :=
  match s.stripe (ssaStripe ssa) with
  | some st => st.posAt (ssaOff ssa)
  | none => none

/-! ### Blocks -/

def blkKey (link die block : Nat) : Nat := (link * 32 + die) * 65536 + block

def State.blk (s : State) (m : Nat × Nat × Nat) : Blk := mapGet (fun _ => ⟨0, 0, []⟩) s.ftl.blocks (blkKey m.1 m.2.1 m.2.2)

def State.setBlk (s : State) (m : Nat × Nat × Nat) (b : Blk) : State :=
  s.modFtl fun t => { t with blocks := mapSet (fun _ => ⟨0, 0, []⟩) t.blocks (blkKey m.1 m.2.1 m.2.2) b }

/-- The free block of a die with the fewest erases, the lowest on a tie, with its erases. -/
def State.bestBlock (s : State) (p : Rec) (link die : Nat) : Option (Nat × Nat) :=
  (List.range (p.get 0x20)).foldl (fun best k =>
    let x := s.blk (link, die, k)
    if x.state ≠ 0 then best
    else match best with
      | some b => if x.erases < b.1 then some (x.erases, k) else best
      | none => some (x.erases, k)) none

/-- Dies of a link that answer and are in no open band. -/
def State.idleDies (s : State) (link : Nat) : List Nat :=
  match groupOf s.image.cfg link with
  | none => []
  | some g => (List.range (g.get 4)).filter fun d =>
      !s.ftl.absentDies.contains (link, d) && !s.ftl.bands.any fun b => b.state == 0 && b.members.any fun m => m.1 == link && m.2.1 == d

/-- The die a band takes on a link: in no open band, the fewest erases on its least-worn free block, the lower on a tie. -/
def State.bestDie (s : State) (p : Rec) (link : Nat) : Option (Nat × Nat × Nat) :=
  ((s.idleDies link).foldl (fun (best : Option (Nat × Nat × Nat)) d => match s.bestBlock p link d with
    | none => best
    | some (e, k) => match best with
      | some b => if e < b.1 then some (e, d, k) else best
      | none => some (e, d, k)) none)

/-! ### Opening a band (12 R424, R425) -/

/-- Inserts by a key, keeping equal keys in their order. -/
def insertByKey {α : Type} (key : α → Nat) (x : α) : List α → List α
  | [] => [x]
  | y :: l => if key x < key y then x :: y :: l else y :: insertByKey key x l

/-- Sorts by a key, equal keys keeping their order. -/
def sortByKey {α : Type} (key : α → Nat) (l : List α) : List α := l.foldl (fun acc x => insertByKey key x acc) []

/-- One pass of the member choice with a per-Sleeve cap: (link, group, limit) in order. -/
def choosePass (width cap : Nat) (cand : List (Nat × Nat × Nat)) : List (Nat × Nat × Nat) :=
  cand.foldl (fun ch l =>
    if ch.length < width ∧ (ch.filter fun c => c.2.1 == l.2.1).length < l.2.2 ∧ (ch.filter fun c => c.1 / 8 == l.1 / 8).length < cap
    then ch ++ [l] else ch) []

/-- The members chosen: the cap rises from PARITY to 8 until WIDTH links are chosen. -/
def chooseMembers (width parity : Nat) (cand : List (Nat × Nat × Nat)) : Option (List Nat) :=
  (List.range (9 - parity)).findSome? fun i =>
    let ch := choosePass width (parity + i) cand
    if ch.length = width then some (ch.map fun c => c.1) else none

/-- Open-band members on a link. -/
def State.openOn (s : State) (n : Nat) : Nat :=
  ((s.ftl.bands.filter fun b => b.state == 0).map fun b => (b.members.filter fun m => m.1 == n).length).sum

/-- The links that may take a new band: those IN_SERVICE; during a cool flush the cool set (21 R717). -/
def State.bandBase (s : State) : List Nat := if 2 ≤ s.ftl.flush.kind then s.ftl.flush.links else s.linksIn 1

/-- The links of a personality that may take a new band, ordered as R425 orders them. -/
def State.bandLinks (s : State) (ty : Nat) (skip : List Nat) : List (Nat × Nat × Nat) :=
  let ls := s.bandBase.filter fun n => !skip.contains n && !s.linkDown n && (match groupOf s.image.cfg n with | some g => 0x10 + g.get 1 == ty | none => false) &&
    (s.bestDie (s.pers ty) n).isSome
  let sorted := sortByKey (fun n => (s.openOn n * 2 ^ 64 + mapGet (fun _ => 0) s.ftl.linkProg n) * 512 + n) ls
  sorted.filterMap fun n => match groupOf s.image.cfg n with | some g => some (n, g.get 0, g.get 2) | none => none

/-- The personality a new band takes: the one whose eligible links hold the most dies outside open bands, the lower type on a
tie. -/
def State.bandPers (s : State) : Option Nat :=
  let tys := (s.bandBase.filterMap fun n => match groupOf s.image.cfg n with | some g => some (0x10 + g.get 1) | none => none).eraseDups
  let scored := (sortByKey id tys).map fun ty => (((s.bandLinks ty []).map fun l => (s.idleDies l.1).length).sum, ty)
  (scored.foldl (fun (best : Option (Nat × Nat)) c => match best with | some b => if b.1 < c.1 then some c else best | none => some c) none).map fun c => c.2

/-- The members a band formed now would have. -/
def State.formMembers (s : State) (ty : Nat) : Option (List (Nat × Nat × Nat)) :=
  match chooseMembers s.width s.parity (s.bandLinks ty []) with
  | none => none
  | some ls => ls.mapM fun n => match s.bestDie (s.pers ty) n with | some b => some (n, b.2.1, b.2.2) | none => none

/-- A band is opened on members given. -/
def State.addBand (s : State) (ty : Nat) (ms : List (Nat × Nat × Nat)) (kind : Nat) : State :=
  let b : Band := ⟨s.ftl.nextBand, ty, ms.length, s.parity, ms, kind, 0, 0, false, 0, s.now, []⟩
  let s1 := ms.foldl (fun t m => t.setBlk m { t.blk m with state := 1 }) s
  let s2 := s1.modFtl fun t => { t with bands := t.bands ++ [b], nextBand := t.nextBand + 1 }
  s2.wr Reg.STR_STATUS_OPEN_BANDS (s2.ftl.bands.filter fun x => x.state == 0).length

/-- Opens a band of a kind, where one can be formed and the tables have room (11 R379). -/
def State.openBand (s : State) (kind : Nat) : Option State :=
  if 2097152 ≤ s.ftl.bands.length then none
  else match s.bandPers with
    | none => none
    | some ty => match s.formMembers ty with
      | none => none
      | some ms =>
        some (s.addBand ty ms kind)

/-- H of R424: host bands kept open. -/
def State.hostBands (s : State) : Nat :=
  let pu := maxOf ((s.persOf ((List.range 512).filter (populated s.image.cfg))).map fun p => p.get 0x1A * p.get 0x14)
  min 128 (31457280 / ((1 + s.parity) * pu) - 16)

/-- Opens host bands while fewer than H are open and a band can be formed. -/
def State.fillBands : Nat → State → State
  | 0, s => s
  | n + 1, s =>
    if s.hostBands ≤ (s.ftl.bands.filter fun b => b.state == 0 && b.kind == 0).length then s
    else match s.openBand 0 with
      | some t => t.fillBands n
      | none => s

/-! ### Hem pages and runs (11 R390 to R392) -/

/-- The position p at offset off continues a run entry that ended at the position before: one write, consecutive sectors,
inside one atomic unit of 16 MiB. -/
def runContinues (e : Entry) (owner ver : Nat) (stripe off : Nat) (p : Placed) (lastOwner : Nat) : Bool :=
  p.sec.nsid != 0 && p.sec.nsid == e.nsid && p.owner == lastOwner && owner == lastOwner && p.sec.lsa == e.lsa + e.count &&
  ssaOf stripe off == e.aux + e.count && p.sec.lsa % 4096 != 0 && (e.flags == bit p.resent) &&
  (if p.source.isSome then e.ty == 2 && e.seq == ver else e.ty == 1)

/-- The RUN and RELOC_RUN entries of a stripe's data, in data-area order. -/
def buildRuns (stripe : Nat) : List (Nat × Option Placed) → Option (Entry × Nat) → List Entry
  | [], some (e, _) => [e]
  | [], none => []
  | (off, some p) :: l, cur =>
    if p.sec.nsid = 0 then (match cur with | some (e, _) => e :: buildRuns stripe l none | none => buildRuns stripe l none)
    else
      let fresh : Entry := ⟨if p.source.isSome then 2 else 1, bit p.resent, p.sec.nsid, p.sec.lsa, 1, ssaOf stripe off,
        if p.source.isSome then p.version else p.sec.seq⟩
      match cur with
      | some (e, o) =>
        if runContinues e p.owner p.version stripe off p o then buildRuns stripe l (some ({ e with count := e.count + 1 }, o))
        else e :: buildRuns stripe l (some (fresh, p.owner))
      | none => buildRuns stripe l (some (fresh, p.owner))
  | (_, none) :: l, cur => buildRuns stripe l cur

/-- The version of every host sector becomes the SEQ of its RUN (R391). -/
def setVersions (stripe : Nat) (runs : List Entry) (data : SMap (Option Placed)) : SMap (Option Placed) :=
  data.map fun e => match e.2 with
    | some p =>
      let a := ssaOf stripe e.1
      match runs.find? fun r => r.aux ≤ a && a < r.aux + r.count && r.ty == 1 with
      | some r => if p.source.isNone && !p.resent then (e.1, some { p with version := r.seq }) else e
      | none => e
    | none => e

/-- Entries a hem page holds (R390). -/
def State.hemCapacity (s : State) (b : Band) : Nat := (s.per b * 4096 - 512) / 32

/-- The fill sector of a position (12 R421). -/
def fillSector (seq : Nat) : Placed :=
  ⟨⟨0, 0, seq, List.replicate 16 0, List.replicate 4096 0, 0, 0⟩, 0, seq, false, none, false, false⟩

/-- Fills the empty positions below n, each with the next SEQ. -/
def fillData (n : Nat) : Nat → SMap (Option Placed) → Nat → SMap (Option Placed) × Nat
  | 0, d, seq => (d, seq)
  | k + 1, d, seq =>
    let off := n - (k + 1)
    match mapGet (fun _ => none) d off with
    | some _ => fillData n k d seq
    | none => fillData n k (mapSet (fun _ => none) d off (some (fillSector seq))) (seq + 1)

/-- The newest durable checkpoint. -/
def State.newestCp (s : State) : Option Checkpoint := (s.ftl.cps.filter fun c => c.durable).getLast?

/-- A coarse slot of the stripe is not complete. -/
def Stripe.slotOpen (st : Stripe) (c : CoarseSlot) : Bool := (List.range 512).any fun k => (st.posAt (c.off + k)).isNone

/-- Closes a stripe (R377): fills its current data row, builds its hem page with its runs and as many pending entries as
fit; every hem sector takes a SEQ. The band goes on at the row after the hem page, or closes where no stripe fits or it
takes no further stripe. A stripe without data is dropped. -/
def State.closeOne (s : State) (i flags : Nat) : State :=
  match s.stripe i with
  | none => s
  | some st => match s.band st.band with
    | none => s
    | some b =>
      if st.state ≠ 0 then s
      else if st.next = 0 then s.modFtl fun t => { t with stripes := t.stripes.filter fun x => x.id != i }
      else
        let rows := ceilDiv st.next (s.per b)
        let (data, seq) := fillData (rows * s.per b) (rows * s.per b) st.data s.ftl.seqNext
        let runs := buildRuns i data none
        let room := s.hemCapacity b - runs.length
        let pend := s.ftl.pendingQ.take room
        let used := st.firstRow + rows + 1
        let last := b.stop || persRows (s.pers b.pers) < used + 2
        let cp := s.newestCp
        let st2 := { st with
          rows := rows + 1, state := 1, flags := flags ||| (if last then 4 else 0), next := rows * s.per b,
          data := setVersions i runs data, slots := st.slots.filter st.slotOpen, entries := runs ++ pend,
          cpSeq := (cp.map fun c => c.cpSeq).getD 0, cpGen := (cp.map fun c => c.gen).getD 0, hemSeq := seq }
        let s1 := (s.modStripe i fun _ => st2).modFtl fun t => { t with
          pendingQ := t.pendingQ.drop room, seqNext := seq + s.per b, everProgrammed := true }
        let s2 := s1.modBand st.band fun x => { x with nextRow := used, state := if last then 1 else 0 }
        let bytes := (rows + 1) * b.width * s.su b * 4096
        let s3 := (s2.moved bytes 0 0).tally 0x48 bytes
        s3.wr Reg.STR_STATUS_OPEN_BANDS (s3.ftl.bands.filter fun x => x.state == 0).length

/-- The stripes closed with a stripe: those of a metadata triple close in step (12 R434). -/
def State.inStep (s : State) (i : Nat) : List Nat :=
  match (s.stripe i).bind fun st => s.band st.band with
  | some b => if 2 ≤ b.kind then [i + 2 - b.kind, i + 3 - b.kind, i + 4 - b.kind] else [i]
  | none => []

/-- Closes a stripe (R377). -/
def State.closeStripe (s : State) (i flags : Nat) : State := (s.inStep i).foldl (fun (t : State) k => t.closeOne k flags) s

/-- The open stripe of a band. -/
def State.openStripe (s : State) (band : Nat) : Option Stripe := s.ftl.stripes.find? fun t => t.band == band && t.state == 0

/-- The open stripe of a band, begun where it has none and the stripe table has room (R376, R379). -/
def State.beginStripe (s : State) (b : Band) : Option (State × Stripe) :=
  match s.openStripe b.id with
  | some st => some (s, st)
  | none =>
    if 33554432 ≤ s.ftl.stripes.length ∨ b.stop ∨ b.state ≠ 0 then none
    else
      let st : Stripe := ⟨s.ftl.nextStripe, b.id, b.nextRow, 0, 0, 0, 0, 0, [], [], [], [], [], [], [], 0, 0, 0⟩
      some (s.modFtl fun t => { t with stripes := t.stripes ++ [st], nextStripe := t.nextStripe + 1 }, st)

/-- One band takes no further stripe; its open stripe is closed, and with no open stripe it closes now. -/
def State.stopOne (s : State) (i flags : Nat) : State :=
  let s1 := s.modBand i fun b => { b with stop := true }
  match s1.openStripe i with
  | some st =>
    if st.next = 0 then (s1.closeOne st.id flags).modBand i fun b => { b with state := if b.state = 0 then 1 else b.state }
    else s1.closeOne st.id flags
  | none => s1.modBand i fun b => { b with state := if b.state = 0 then 1 else b.state }

/-- A band takes no further stripe (12 R426, R427); the bands of a metadata triple stop together. -/
def State.stopBand (s : State) (i flags : Nat) : State :=
  match s.band i with
  | some b => (if 2 ≤ b.kind then [i + 2 - b.kind, i + 3 - b.kind, i + 4 - b.kind] else [i]).foldl (fun (t : State) k => t.stopOne k flags) s
  | none => s

/-! ### Placing sectors (11 R383, 12 R429) -/

/-- The coarse slot of a command for a unit. -/
def State.slotFor (s : State) (owner nsid unit : Nat) : Option (Stripe × CoarseSlot) :=
  s.ftl.stripes.findSome? fun st => if st.state = 0 then (st.slots.find? fun c => c.owner == owner && c.nsid == nsid && c.unit == unit).map fun c => (st, c) else none

/-- Positions of the open stripe of a band not yet claimed. -/
def State.room (s : State) (b : Band) : Nat :=
  match s.openStripe b.id with
  | some st => s.capacity b st - st.next
  | none => min 127 (persRows (s.pers b.pers) - b.nextRow - 1) * s.per b

/-- Open bands of a kind there may be: H host bands, 16 relocation bands (12 R424). -/
def State.mayOpen (s : State) (kind : Nat) : Bool :=
  (s.ftl.bands.filter fun b => b.state == 0 && b.kind == kind).length < (if kind = 0 then s.hostBands else 16)

/-- Rotates a list to begin at index n. -/
def rotate {α : Type} (l : List α) (n : Nat) : List α := l.drop (n % l.length) ++ l.take (n % l.length)

/-- The bands of a kind that take sectors, from the one picked on; a stopped one goes on with the stripe it has open (R427). -/
def State.takers (s : State) (kind pick : Nat) : List Band :=
  rotate (s.ftl.bands.filter fun b => b.kind == kind && b.state == 0 && (!b.stop || (s.openStripe b.id).isSome)) pick

/-- A band with room for n positions: an open one from the pick on; else a new one; else, of an open band with too little
room, the stripe is closed with fill and its next stripe taken. -/
def State.bandWithRoom (s : State) (kind pick n : Nat) : Option (State × Band) :=
  match (s.takers kind pick).find? fun b => n ≤ s.room b with
  | some b => some (s, b)
  | none => match (if s.mayOpen kind then s.openBand kind else none) with
    | some t => match t.ftl.bands.getLast? with
      | some b => if n ≤ t.room b then some (t, b) else none
      | none => none
    | none => match s.takers kind pick with
      | b :: _ => match s.openStripe b.id with
        | some st =>
          let t := s.closeStripe st.id 0
          match t.band b.id with
          | some b2 => if b2.state = 0 ∧ n ≤ t.room b2 then some (t, b2) else none
          | none => none
        | none => none
      | [] => none

/-- Puts a sector at a position of an open stripe; a run that does not go on counts one more. -/
def State.putAt (s : State) (i off : Nat) (p : Placed) : State :=
  s.modStripe i fun st =>
    let joins := match (if off = 0 then none else st.posAt (off - 1)) with
      | some q => q.owner == p.owner && q.sec.nsid == p.sec.nsid && q.sec.lsa + 1 == p.sec.lsa && q.resent == p.resent && q.source.isSome == p.source.isSome
      | none => false
    { st with data := mapSet (fun _ => none) st.data off (some p), runs := st.runs + (if joins then 0 else 1) }

/-- After a placement the stripe is closed where all its data rows are full, or where its runs and the pending entries would
exceed its hem page (R377). -/
def State.closeIfFull (s : State) (i : Nat) : State :=
  match s.stripe i with
  | none => s
  | some st => match s.band st.band with
    | none => s
    | some b =>
      if st.state = 0 ∧ (s.capacity b st ≤ st.data.length ∨ s.hemCapacity b < st.runs + s.ftl.pendingQ.length + 1) then s.closeStripe i 0 else s

/-! ### The stripe buffer (01 R22, R48; 10 R355, R356; 12 R429)

A member takes one program unit of the buffer, the measure R424 divides the assembly space by (log entry 52). -/

def assemblyBytes : Nat := 41943040
def reconstructBytes : Nat := 4194304
def reserveBytes : Nat := 4194304

/-- Bytes of a member in the stripe buffer. -/
def State.memberBytes (s : State) (b : Band) : Nat := s.su b * 4096

/-- A row that holds a sector, or is the hem row of a closed stripe. -/
def State.rowBegun (s : State) (b : Band) (st : Stripe) (r : Nat) : Bool :=
  (st.state != 0 && r + 1 == st.rows) || (List.range (s.per b)).any fun k => (st.posAt (r * s.per b + k)).isSome

/-- A member of a row is in the stripe buffer: begun (P and Q with their row), and neither carried whole by its link, nor confirmed or failed
(R22, R429). -/
def State.inBuffer (s : State) (b : Band) (st : Stripe) (r m : Nat) : Bool :=
  !(st.acked.contains (r, m) || st.confirmed.contains (r, m) || st.failed.contains (r, m)) &&
  (if m < b.dm && !(st.state != 0 && r + 1 == st.rows) then (List.range (s.su b)).any fun k => (st.posAt (r * s.per b + m * s.su b + k)).isSome
   else s.rowBegun b st r)

/-- A member of a stripe a power-loss or cool flush closed that holds only fill, parity or hem page: the flush reserve holds it (R355). -/
def State.inReserve (s : State) (b : Band) (st : Stripe) (r m : Nat) : Bool :=
  st.flags.testBit 1 && (b.dm ≤ m || r + 1 == st.rows ||
    (List.range (s.su b)).all fun k => match st.posAt (r * s.per b + m * s.su b + k) with | some p => p.owner == 0 | none => true)

/-- The members of a stripe in the buffer. -/
def State.buffered (s : State) (b : Band) (st : Stripe) : List (Nat × Nat) :=
  (List.range (if st.state = 0 then ceilDiv st.next (s.per b) else st.rows)).flatMap fun r =>
    (List.range b.width).filterMap fun m => if s.inBuffer b st r m then some (r, m) else none

/-- Bytes of the buffer in use for assembly, and of its flush reserve. -/
def State.bufferUsed (s : State) (reserve : Bool) : Nat :=
  (s.ftl.stripes.map fun st => match s.band st.band with
    | some b => if 2 ≤ st.state then 0 else ((s.buffered b st).filter fun x => s.inReserve b st x.1 x.2 == reserve).length * s.memberBytes b
    | none => 0).sum

/-- Assembly space has room for the sector that goes to a position: for its member, and for P and Q where it begins the row. -/
def State.assemblyRoom (s : State) (b : Band) (st : Stripe) (off : Nat) : Bool :=
  let r := s.rowOf b off
  let new := bit (!s.inBuffer b st r (s.memberOf b off)) + (if s.rowBegun b st r then 0 else b.parity)
  new == 0 || s.bufferUsed false + new * s.memberBytes b ≤ assemblyBytes

/-- A position of a stripe may take a sector: assembly space has room; a re-sent sector comes from DRAM and waits for none (log entry 52). -/
def State.mayPut (s : State) (i off : Nat) (p : Placed) : Bool :=
  p.resent || match s.stripe i with
  | some st => (match s.band st.band with | some b => s.assemblyRoom b st off | none => false)
  | none => false

/-- Assembles a sector (stage 5) in a host (0) or relocation (1) band: into its unit's coarse slot where the command covers
the whole unit, claiming the slot at the unit's first sector; else at the next free position. Answers its SSA, or nothing
where no stripe can take it or assembly space has no room (R356, R379). -/
def State.assemble (s : State) (kind pick : Nat) (coarse : Bool) (p : Placed) : Option (State × Nat) :=
  let unit := p.sec.lsa / 512
  match (if coarse then s.slotFor p.owner p.sec.nsid unit else none) with
  | some (st, c) =>
    let off := c.off + p.sec.lsa % 512
    if s.mayPut st.id off p then some ((s.putAt st.id off p).closeIfFull st.id, ssaOf st.id off) else none
  | none =>
    let want := if coarse && p.sec.lsa % 512 == 0 then 512 else 1
    let got := match s.bandWithRoom kind pick want with
      | some x => some (x, want)
      | none => if want = 1 then none else (s.bandWithRoom kind pick 1).map fun x => (x, 1)
    match got with
    | none => none
    | some ((s1, b), n) => match s1.beginStripe b with
      | none => none
      | some (s2, st) =>
        let off := st.next
        let s3 := s2.modStripe st.id fun x => { x with
          next := x.next + n, slots := if n = 512 then x.slots ++ [⟨off, p.sec.nsid, unit, p.owner⟩] else x.slots }
        if s3.mayPut st.id off p then some ((s3.putAt st.id off p).closeIfFull st.id, ssaOf st.id off) else none

/-- The next SEQ, where it lies below the ceiling in force (R353, R389). -/
def State.takeSeq (s : State) : Option (Nat × State) :=
  if s.ftl.seqNext < s.ftl.seqCeil then some (s.ftl.seqNext, s.modFtl fun t => { t with seqNext := t.seqNext + 1 }) else none

end Sys2Proof.Machine
end

