-- ==== Sys2Proof/Machine/Meta.lean ====
section
/-!
DEFINITION. Machine/Meta.lean: metadata (12 R434 to R437): triples of bands, the sectors written into them in three copies, the bytes of
journal pages and checkpoint roots (11 Tables 11.4, 11.6, 11.7), journal extents (11 R394), and when a metadata sector is durable.
-/
namespace Sys2Proof.Machine

/-! ### Bytes (11 Tables 11.4, 11.6, 11.7) -/

/-- A map entry of 32 bytes. -/
def Entry.bytes (e : Entry) : List Byte :=
  leBytes 1 e.ty ++ leBytes 1 e.flags ++ leBytes 2 e.nsid ++ leBytes 6 e.lsa ++ leBytes 2 0 ++ leBytes 4 e.count ++ leBytes 8 e.aux ++ leBytes 8 e.seq

/-- A journal page. -/
def JPage.bytes (j : JPage) : List Byte :=
  let page (crc : Nat) : List Byte :=
    let b := leBytes 4 0x4A584349 ++ leBytes 2 1 ++ leBytes 2 j.entries.length ++ leBytes 8 j.jseq ++ leBytes 8 j.cpGen ++ leBytes 4 (bit j.tail) ++
      leBytes 4 crc ++ List.replicate 32 0 ++ j.entries.flatMap Entry.bytes
    b ++ List.replicate (4096 - b.length) 0
  page (crc32c (page 0))

/-- A checkpoint root that names its index pages. -/
def Checkpoint.rootBytes (c : Checkpoint) (extent units nsTable : Nat) (index : List Nat) : List Byte :=
  let head := leBytes 4 0x52584349 ++ leBytes 2 1 ++ leBytes 2 index.length ++ leBytes 8 c.gen ++ leBytes 8 c.cpSeq ++ leBytes 8 c.seqCeil ++ leBytes 8 c.jseqStart ++
    leBytes 8 extent ++ leBytes 8 units ++ leBytes 8 c.time ++ digestBytes c.digest ++ leBytes 8 nsTable ++ leBytes 8 0 ++ index.flatMap (leBytes 8)
  let b := head ++ List.replicate (4092 - head.length) 0
  b ++ leBytes 4 (crc32c b)

/-- A directory or index page: 32 bytes of header, of which the magic and the CRC are given (their places here are DESIGN CHOICE, log entry 61), and 508 SSAs. -/
def dirBytes (ssas : List Nat) : List Byte :=
  let page (crc : Nat) : List Byte := leBytes 4 0x44584349 ++ List.replicate 24 0 ++ leBytes 4 crc ++ (ssas.take 508).flatMap (leBytes 8)
  page (crc32c (page 0))

/-- A coarse map entry (11 Table 11.1); `num` is the number of the unit's fine table. -/
def mapWord (num : Nat) : MapEnt → Nat
  | .dealloc => 0
  | .coarse a => 2 ^ 62 + 2 ^ 14 * a
  | .fine _ => 2 ^ 63 + 2 ^ 14 * num

/-- A sector a checkpoint is made of. -/
def MetaOf.isPage : MetaOf → Bool
  | .mapSec _ _ => true
  | .dirPage _ _ => true
  | .nsTable _ => true
  | _ => false

/-! ### Opening a triple (12 R434, R435) -/

/-- Group g may hold metadata copies. -/
def State.metaGroup (s : State) (g : Nat) : Bool :=
  (if g < 32 then s.force Reg.STR_META_GROUPS_LO_GROUPS else s.force Reg.STR_META_GROUPS_HI_GROUPS).testBit (g % 32)

/-- dm_meta of R435. -/
def State.dmMeta (s : State) : Nat :=
  let per (g : Nat) : Nat :=
    let ls := (s.linksIn 1).filterMap fun n => match groupOf s.image.cfg n with | some r => if r.get 0 = g then some (r.get 2) else none | none => none
    min ls.length (maxOf ls)
  min (s.width - s.parity) (((List.range 64).filter s.metaGroup).map per).sum

/-- The first n candidates (link, group, GROUP_LIMIT) in their order beside the ones taken, every group within its limit. -/
def pickLimited (n : Nat) (taken cand : List (Nat × Nat × Nat)) : List (Nat × Nat × Nat) :=
  cand.foldl (fun ch l => if ch.length < n ∧ ((taken ++ ch).filter fun c => c.2.1 == l.2.1).length < l.2.2 then ch ++ [l] else ch) []

/-- Indices at which three rotations of the data members lie in three groups. -/
def groupsApart (d : List (Nat × Nat × Nat)) (a b : Nat) : Nat :=
  let grp (m : Nat) : Nat := (d.getD (m % d.length) (0, 0, 0)).2.1
  ((List.range d.length).filter fun m => grp m != grp (m + a) && grp m != grp (m + b) && grp (m + a) != grp (m + b)).length

/-- The rotations of copies 1 and 2 that keep the three links of the most indices in three groups; at every index the three links differ. -/
def bestShift (d : List (Nat × Nat × Nat)) : Nat × Nat :=
  ((List.range d.length).flatMap fun a => (List.range d.length).map fun b => (a, b)).foldl
    (fun (best : Nat × Nat) x => if x.1 = 0 ∨ x.2 = 0 ∨ x.1 = x.2 ∨ groupsApart d x.1 x.2 ≤ groupsApart d best.1 best.2 then best else x) (1, 2)

/-- The links of a triple's bands: the data members of copy 0, the rotations of copies 1 and 2, the parity members. -/
structure TripleLinks where
  data : List (Nat × Nat × Nat)
  shift : Nat × Nat
  par : List (Nat × Nat × Nat)
  deriving DecidableEq, Repr

/-- The links a triple of a personality formed now would have (log entry 62). -/
def State.tripleLinks (s : State) (ty : Nat) : Option TripleLinks :=
  let cand := s.bandLinks ty []
  let d := sortByKey (fun (l : Nat × Nat × Nat) => l.2.1) (pickLimited s.dmMeta [] (cand.filter fun l => s.metaGroup l.2.1))
  let p := pickLimited s.parity d (cand.filter fun l => !d.contains l)
  if d.length < 3 ∨ d.length < s.dmMeta ∨ p.length < s.parity then none else some ⟨d, bestShift d, p⟩

/-- Opens one band of a triple on links given, each on the die that a band takes there. -/
def State.openOn3 (s : State) (ty kind : Nat) (links : List (Nat × Nat × Nat)) : Option State :=
  match links.mapM fun l => (s.bestDie (s.pers ty) l.1).map fun b => (l.1, b.2.1, b.2.2) with
  | none => none
  | some ms => some (s.addBand ty ms kind)

/-- Opens a metadata triple where one can be formed. -/
def State.openTriple (s : State) : Option State :=
  if 2097152 < s.ftl.bands.length + 3 then none
  else match s.bandPers with
    | none => none
    | some ty => match s.tripleLinks ty with
      | none => none
      | some t => (((s.openOn3 ty 2 (t.data ++ t.par)).bind fun u => u.openOn3 ty 3 (rotate t.data t.shift.1 ++ t.par))).bind
          fun u => u.openOn3 ty 4 (rotate t.data t.shift.2 ++ t.par)

/-! ### Placing metadata (R434) -/

/-- The first band of the triple that takes sectors. -/
def State.triple (s : State) : Option Band :=
  s.ftl.bands.find? fun b => b.kind == 2 && b.state == 0 && (!b.stop || (s.openStripe b.id).isSome)

/-- The stripes of a triple begin in step: their identifiers follow one another. -/
def State.beginTriple (s : State) (b : Band) : Option (State × Stripe) :=
  match s.beginStripe b with
  | none => none
  | some (s1, st) => match s1.band (b.id + 1), s1.band (b.id + 2) with
    | some b1, some b2 => match s1.beginStripe b1 with
      | some (s2, _) => match s2.beginStripe b2 with
        | some (s3, _) => some (s3, st)
        | none => none
      | none => none
    | _, _ => none

/-- The first stripe of a new triple with room for `n` sectors. -/
def State.freshTriple (s : State) (n : Nat) : Option (State × Stripe) :=
  match s.openTriple with
  | some u => (u.triple.bind u.beginTriple).bind fun x =>
      match x.1.band x.2.band with
      | some b => if n ≤ x.1.room b then some x else none
      | none => none
  | none => none

/-- The open stripe of a band closed, with fill (R377). -/
def State.closeOpen (s : State) (b : Nat) : State :=
  match s.openStripe b with
  | some st => s.closeStripe st.id 0
  | none => s

/-- A triple's open stripe with room for n positions: the open one; else, closed with fill, the triple's next; else a new triple's. -/
def State.tripleRoom (s : State) (n : Nat) : Option (State × Stripe) :=
  match s.triple with
  | none => s.freshTriple n
  | some b =>
    if n ≤ s.room b then s.beginTriple b
    else match (s.closeOpen b.id).triple with
      | some b2 =>
        if n ≤ (s.closeOpen b.id).room b2 then (s.closeOpen b.id).beginTriple b2
        else ((s.closeOpen b.id).stopBand b2.id 0).freshTriple n
      | none => (s.closeOpen b.id).freshTriple n

/-- The three copies of a metadata sector, one SEQ for all, at a position of a triple's stripes i, i + 1 and i + 2 (12 Table 12.1). -/
def State.putCopies (s : State) (i off : Nat) (payload : List Byte) : State :=
  let q := s.ftl.seqNext
  let copy (c : Nat) : Placed := ⟨⟨0, 2 + 16 * c, q, List.replicate 16 0, payload, 0, 0⟩, 0, q, false, none, false, false⟩
  ([0, 1, 2].foldl (fun (t : State) c => t.putAt (i + c) off (copy c)) s).modFtl fun f => { f with seqNext := q + 1 }

/-- The same position of the three stripes holds a fill sector. -/
def State.putFill3 (s : State) (i off : Nat) : State :=
  [0, 1, 2].foldl (fun (t : State) c => (t.putAt (i + c) off (fillSector t.ftl.seqNext)).modFtl fun f => { f with seqNext := f.seqNext + 1 }) s

/-- Positions of a program unit after position `off`: filled, so that the members go to their links (R428; log entry 61). -/
def State.fillUnit (s : State) (i off : Nat) : State :=
  match (s.stripe i).bind fun st => s.band st.band with
  | none => s
  | some b => ((List.range (s.su b - 1 - off % s.su b)).map fun k => off + 1 + k).foldl (fun (t : State) o => t.putFill3 i o) s

/-- Claims n positions of a triple's stripes; answers the SSA of the first in copy 0. -/
def State.claim3 (s : State) (n : Nat) : Option (State × Nat) :=
  match s.tripleRoom n with
  | none => none
  | some (s1, st) => match s1.band st.band, s1.stripe st.id with
    | some b, some now =>
      let off := now.next
      let upto := ceilDiv (off + n) (s1.su b) * s1.su b
      some ([0, 1, 2].foldl (fun (t : State) c => t.modStripe (st.id + c) fun x => { x with next := max (off + n) upto }) s1, ssaOf st.id off)
    | _, _ => none

/-- The extent in use can take a page: its stripes are open and positions are left. -/
def State.extentOpen (s : State) : Bool :=
  s.ftl.extentUsed < 512 && (match s.ftl.extent with | some a => (match s.stripe (ssaStripe a) with | some st => st.state == 0 | none => false) | none => false)

/-- Has an extent to write the next page into: the one in use, the next one named, or a fresh one (R394). -/
def State.readyExtent (s : State) : Option State :=
  if s.extentOpen then some s
  else
    let named := s.modFtl fun f => { f with extent := f.extentNext, extentUsed := 0, extentNext := none }
    if named.extentOpen then some named
    else (s.claim3 512).map fun x => x.1.modFtl fun f => { f with extent := some x.2, extentUsed := 0, extentNext := none }

/-- Positions of the extent used once a page more is written and its program unit filled. -/
def State.extentAfter (s : State) : Nat :=
  match s.ftl.extent with
  | none => 0
  | some a => match (s.stripe (ssaStripe a)).bind fun st => s.band st.band with
    | none => 0
    | some b => min 512 ((ssaOff a + s.ftl.extentUsed) / s.su b * s.su b + s.su b - ssaOff a)

/-- Writes a metadata sector: a journal page into its extent, anything else at the triple's next position. Without a triple that can take it
it waits. -/
def State.placeMeta (s : State) (m : MetaSec) : State × MetaSec :=
  match m.of with
  | .journal _ => match s.readyExtent with
    | none => (s, m)
    | some s1 => match s1.ftl.extent with
      | none => (s, m)
      | some a =>
        let off := ssaOff a + s1.ftl.extentUsed
        let after := s1.extentAfter
        let s2 := ((s1.putCopies (ssaStripe a) off m.payload).fillUnit (ssaStripe a) off).modFtl fun f => { f with extentUsed := after }
        ((s2.closeIfFull (ssaStripe a)), { m with ssa := some (ssaOf (ssaStripe a) off) })
  | .root _ => match s.claim3 1 with
    | none => (s, m)
    | some (s1, a) => ((((s1.putCopies (ssaStripe a) (ssaOff a) m.payload).fillUnit (ssaStripe a) (ssaOff a)).closeIfFull (ssaStripe a)), { m with ssa := some a })
  | _ => match s.claim3 1 with
    | none => (s, m)
    | some (s1, a) =>
      ((((s1.putCopies (ssaStripe a) (ssaOff a) m.payload).fillUnit (ssaStripe a) (ssaOff a)).closeIfFull (ssaStripe a)),
        { m with ssa := some a, order := s1.ftl.seqNext })

/-- A metadata sector joins those held, placed where a triple can take it. -/
def State.putMeta (s : State) (of : MetaOf) (order : Nat) (payload : List Byte) : State :=
  let r := s.placeMeta ⟨none, of, order, payload, s.now⟩
  r.1.modFtl fun f => { f with metas := f.metas ++ [r.2] }

/-- Metadata sectors that wait for a triple are placed, in their order. -/
def State.placeMetas (s : State) : State :=
  if s.ftl.metas.all fun m => m.ssa.isSome then s
  else
    let r := s.ftl.metas.foldl (fun (a : State × List MetaSec) m =>
      if m.ssa.isSome then (a.1, a.2 ++ [m]) else let x := a.1.placeMeta m; (x.1, a.2 ++ [x.2])) (s, [])
    r.1.modFtl fun f => { f with metas := r.2 }

/-! ### Durability (R395, R436) -/

/-- The program of the member that holds a position is confirmed, or counts so: its stripe has lost no more members than its PARITY. -/
def State.unitDone (s : State) (a : Nat) : Bool :=
  match s.stripe (ssaStripe a) with
  | none => true
  | some st => match s.band st.band with
    | none => true
    | some b =>
      let x := (s.rowOf b (ssaOff a), s.memberOf b (ssaOff a))
      st.state == 2 || st.confirmed.contains x || (st.failed.contains x && ((st.failed.map fun f => f.2).eraseDups).length ≤ b.parity)

/-- The copies of a metadata sector that are confirmed. -/
def State.metaCopies (s : State) (m : MetaSec) : List Nat :=
  match m.ssa with
  | none => []
  | some a => [0, 1, 2].filter fun c => s.unitDone (a + c * 2 ^ 18)

/-- The journal pages with the copies confirmed so far. -/
def State.pageCopies (s : State) (j : JPage) : JPage :=
  match s.ftl.metas.find? fun m => m.of == .journal j.jseq with
  | some m => { j with copies := [0, 1, 2].filter fun c => j.copies.contains c || (s.metaCopies m).contains c }
  | none => j

/-- Confirmations reach the journal: a page with its three copies is durable, and the highest SEQ_CEIL of a durable page is in force (R389). -/
def State.metaSettle (s : State) : State :=
  let s1 := s.placeMetas
  let pages := s1.ftl.pages.map s1.pageCopies
  let ceil := maxOf ((pages.filter fun j => 3 ≤ j.copies.length).flatMap fun j => (j.entries.filter fun e => e.ty == 0x14).map fun e => e.aux)
  s1.modFtl fun f => { f with
    pages := pages
    seqCeil := max f.seqCeil ceil
    ceilPending := if f.seqCeil < ceil then false else f.ceilPending }

/-- A root has its three copies confirmed (R396). -/
def State.rootConfirmed (s : State) (gen : Nat) : Bool :=
  s.ftl.metas.any fun m => m.of == .root gen && (s.metaCopies m).length == 3

/-- A metadata sector lies in a stripe. -/
def MetaSec.inStripe (m : MetaSec) (i : Nat) : Bool :=
  match m.ssa with | some a => ssaStripe a ≤ i && i ≤ ssaStripe a + 2 | none => false

/-- A stripe holds a metadata sector other than a journal page or root, placed 200 µs ago, whose durability its stripes' closing brings (log entry 61). -/
def State.metaAwaited (s : State) (i : Nat) : Bool :=
  s.ftl.metas.any fun m => m.inStripe i && m.since + 200000 ≤ s.now && (match m.of with | .journal _ => false | .root _ => false | _ => true)

/-- Stripes that hold a metadata sector still referred to stay (R437). -/
def State.metaHolds (s : State) (b : Band) : Bool :=
  2 ≤ b.kind && s.ftl.stripes.any fun st => st.band == b.id && s.ftl.metas.any fun m => m.inStripe st.id

/-- What a durable checkpoint no longer refers to is dropped: journal pages no longer needed, roots of generations not kept, and of the other
metadata all but the newest of its kind. -/
def State.pruneMetas (s : State) : State :=
  let keep (m : MetaSec) (later : List MetaSec) : Bool := match m.of with
    | .journal j => s.ftl.pages.any fun p => p.jseq == j
    | .root g => s.ftl.cps.any fun c => c.gen == g
    | .nsTable i => !later.any fun x => x.of == .nsTable i
    | .takeDir _ => !later.any fun x => match x.of with | .takeDir _ => true | _ => false
    | .config i => !later.any fun x => x.of == .config i
    -- a generation kept may name the one before the newest
    | of => !later.any fun x => x.of == of && x.order ≤ minOf (s.ftl.cps.map fun c => c.gen)
  let ms := (s.ftl.metas.zip (List.range s.ftl.metas.length)).filterMap fun x => if keep x.1 (s.ftl.metas.drop (x.2 + 1)) then some x.1 else none
  s.modFtl fun f => { f with metas := ms }

/-! ### Copies that differ (11 R398, 12 R437) -/

/-- The metadata sector a finding is about. -/
def State.metaAt (s : State) (x : MetaFinding) : Option MetaSec := s.ftl.metas.find? fun m => m.ssa == some x.ssa

/-- The copies of a finding that do not win: those whose CRC or format fails, those that carry a lower JSEQ, GEN or SEQ than another. -/
def metaLosers (x : MetaFinding) : List (Fin 3) := [0, 1, 2].filter fun c => x.bad.contains c || x.old.contains c

/-- A metadata sector of which no copy is left is not read: a journal page is missing, a root does not validate. -/
def State.metaLost (s : State) (x : MetaFinding) : State :=
  match s.metaAt x with
  | none => s
  | some m =>
    if (metaLosers x).length < 3 then s
    else s.modFtl fun f => { f with
      metas := f.metas.filter fun y => y.ssa != some x.ssa
      pages := f.pages.filter fun j => m.of != .journal j.jseq
      cps := f.cps.map fun (c : Checkpoint) => if m.of == .root c.gen ||
          (m.of.isPage && m.order ≤ c.gen && !f.metas.any fun y => y.of == m.of && m.order < y.order && y.order ≤ c.gen) then { c with usable := false } else c }

/-- The losing copies are rewritten, the winner's content as a new triple; copies of equal JSEQ, GEN or SEQ that differ lose to copy 0 and
raise source 1,712. -/
def State.metaRewrite (s : State) (x : MetaFinding) : State :=
  match s.metaAt x with
  | none => s
  | some m =>
    let n := if x.differ then 2 else (metaLosers x).length
    if n = 0 ∨ (metaLosers x).length = 3 then s
    else ((s.putMeta m.of m.order m.payload).modHealth fun h => { h with metaRewrites := h.metaRewrites + n }).raiseIf x.differ 1712

/-- After a recovery dropped the stripes open at the interruption, what they held of the take directory and the configuration copy is written
again; a checkpoint writes the rest. -/
def State.remeta (s : State) : State :=
  (s.ftl.metas.filter fun m => (match m.ssa with | some a => (s.stripe (ssaStripe a)).isNone | none => false) &&
    (match m.of with | .takeDir _ => true | .config _ => true | _ => false)).foldl (fun (t : State) m => t.putMeta m.of m.order m.payload) s

/-- The configuration copy: the image in force, written at each load that differs from the last one written (12, "Metadata mirroring"). -/
def State.putConfigCopy (s : State) (body : List Byte) : State :=
  let d := Config.sha384 body
  if !s.image.inForce || s.ftl.configCopy == some d then s
  else ((List.range (ceilDiv body.length 4096)).foldl (fun (t : State) i => t.putMeta (.config i) 0 (padTo 4096 (slice body (4096 * i) 4096))) s).modFtl
    fun f => { f with configCopy := some d }

end Sys2Proof.Machine
end

