-- ==== Sys2Proof/Machine/Queues.lean ====
section
/-!
DEFINITION. Machine/Queues.lean: the DRAM as the controllers see it (17): the address space, the read and write queues with their drains and
scheduling (R610 to R612), and staging copies (10 R357, R358).
-/
namespace Sys2Proof.Machine

def State.modDram (s : State) (f : Dram → Dram) : State := { s with dram := f s.dram }

/-! ### The address space (R603, R604) -/

def State.drch (s : State) (ch : Nat) : DrCh := mapGet (fun _ => DrCh.init) s.dram.chans ch
def State.modDrch (s : State) (ch : Nat) (f : DrCh → DrCh) : State :=
  s.modDram fun d => { d with chans := mapSet (fun _ => DrCh.init) d.chans ch (f (s.drch ch)) }

/-- Usable DRAM in bytes. -/
def State.usableDram (s : State) : Nat := usableDramEighths s.chansUp s.image.cfg * 134217728

/-- The sizes of regions 0 to 6 in bytes (Table 17.2). -/
def State.regionSizes (s : State) : List Nat :=
  let gib := 1073741824
  [768 * mib, ceilDiv (8 * userUnits s.image.cfg) gib * gib, 768 * mib, 512 * mib, s.cfg 0x20 0 4 * gib, 6 * gib, s.force Reg.STR_DW_CFG_STAGING_GIB * gib]

/-- Where the first n regions end. -/
def State.regionEnd (s : State) (n : Nat) : Nat := ((s.regionSizes.take n)).sum

/-- The region a system address lies in; none beyond the usable DRAM. -/
def State.regionOf (s : State) (a : Nat) : Option Nat :=
  if s.usableDram ≤ a then none else some (((List.range 7).find? fun k => a < s.regionEnd (k + 1)).getD 7)

/-- The exclusive or of the 5-bit fields of a number below 2^60. -/
def xorFields (q : Nat) : Nat := (List.range 12).foldl (fun x i => x ^^^ (q / 2 ^ (5 * i) % 32)) 0

/-- Channel index among c channels, and channel data address, of a system address with grains of g bytes (R604). -/
def dramPlace (c g a : Nat) : Nat × Nat :=
  let n := a / g
  let q := n / c
  ((n % c + xorFields q) % c, q * g + a % g)

/-- Bank group, bank, rank, row and line within the row of a channel's line. -/
def dramCell (ranks line : Nat) : Nat × Nat × Nat × Nat × Nat :=
  let slot := line / 28
  (slot % 4, slot / 4 % 4, slot / 16 % ranks, slot / (16 * ranks), line % 28)

/-- The system address of byte 0 of a channel's line: the inverse of `dramPlace`. -/
def dramAddr (c g i line : Nat) : Nat :=
  let ca := 64 * line
  let q := ca / g
  let r := (i + c - xorFields q % c) % c
  (q * c + r) * g + ca % g

def State.grain (s : State) : Nat := 2 ^ s.cfg 0x50 0 4

/-- Channel number and line of a system address. -/
def State.dramLine (s : State) (a : Nat) : Nat × Nat :=
  let p := dramPlace s.chansUp s.grain a
  (s.chans.getD p.1 0, p.2 / 64)

/-- The system address of a line of a channel in service. -/
def State.lineAddr (s : State) (ch line : Nat) : Nat := dramAddr s.chansUp s.grain (s.chans.idxOf ch) line

/-! ### Queues (R610 to R612)

A read waits in its channel's queue until it is served; what it returns is the command that reads. The lines a queue serves while no command
comes are one a channel and idle tick (log entry 33). -/

def readQueueLines : Nat := 64
def writeQueueLines : Nat := 128

/-- DRC_QUEUE of a channel. -/
def State.showQueue (s : State) (ch : Nat) : State :=
  let x := s.drch ch
  ((s.wr (Reg.DRC_QUEUE_READS ch) x.reads.length).wr (Reg.DRC_QUEUE_WRITES ch) x.writes.length).wr (Reg.DRC_QUEUE_DRAIN ch) (bit x.drain)

/-- A write of a line is queued: merged with one queued for the line, whose bytes it replaces; none where the queue is full. -/
def State.queueWrite (s : State) (ch line : Nat) (data : Option (List Byte)) : Option State :=
  let x := s.drch ch
  if x.writes.any fun r => r.line == line then
    some (s.modDrch ch fun y => { y with writes := y.writes.map fun r => if r.line == line then { r with data := data } else r })
  else if writeQueueLines ≤ x.writes.length then none
  else some ((s.modDrch ch fun y => { y with writes := y.writes ++ [⟨line, s.now, data⟩] }).showQueue ch)

/-- The bytes of a queued write that a read of its line returns. -/
def State.forwarded (s : State) (ch line : Nat) : Option DrReq := (s.drch ch).writes.find? fun r => r.line == line

/-- A read of a line is queued, unless a queued write answers it; a full queue holds it off. -/
def State.queueRead (s : State) (ch line : Nat) : State :=
  if (s.forwarded ch line).isSome || readQueueLines ≤ (s.drch ch).reads.length then s
  else (s.modDrch ch fun y => { y with reads := y.reads ++ [⟨line, s.now, none⟩] }).showQueue ch

/-- The bank of a line, over all bank groups and ranks, and its row. -/
def State.lineBank (s : State) (line : Nat) : Nat × Nat :=
  let c := dramCell (s.cfg 0x50 0 3) line
  (c.1 + 4 * c.2.1 + 16 * c.2.2.1, c.2.2.2.1)

/-- A request older than STARVE_NS. -/
def State.starved (s : State) (ch : Nat) (r : DrReq) : Bool := r.since + s.rd (Reg.DRC_CFG_STARVE_NS ch) < s.now

/-- Within a direction: the oldest starved request, else the oldest that hits an open row, else the oldest (R611). -/
def State.pickReq (s : State) (ch : Nat) (q : List DrReq) : Option DrReq :=
  match q.find? (s.starved ch) with
  | some r => some r
  | none => match q.find? fun r => mapGet (fun _ => 0) (s.drch ch).openRows (s.lineBank r.line).1 == (s.lineBank r.line).2 + 1 with
    | some r => some r
    | none => q.head?

/-- Whether writes are served now (R610). -/
def State.draining (s : State) (ch : Nat) : Bool :=
  let x := s.drch ch
  let old (q : List DrReq) : Bool := q.any (s.starved ch)
  let stays := x.drain && !(x.writes.length ≤ 32 && !old x.writes)
  let begins := 96 ≤ x.writes.length || x.reads.isEmpty || old x.writes
  !x.writes.isEmpty && (stays || begins) && !old x.reads

/-- A channel in service serves one request: a write where it drains, one no queued read of its line came before; else a read. A write of region 7
brings its bytes to the line. -/
def State.serveLine (s : State) (ch : Nat) : State :=
  let x := s.drch ch
  if s.rd (Reg.DRC_STATUS_STATE ch) ≠ 1 ∨ (x.reads.isEmpty && x.writes.isEmpty) then s
  else
    let d := s.draining ch
    let served (t : State) (r : DrReq) : State :=
      ((t.modDrch ch fun y => { y with openRows := mapSet (fun _ => 0) y.openRows (s.lineBank r.line).1 ((s.lineBank r.line).2 + 1), drain := d }).showQueue ch)
    if d then
      match s.pickReq ch (x.writes.filter fun r => !x.reads.any fun q => q.line == r.line && q.since ≤ r.since) with
      | some r =>
        let s1 := s.modDrch ch fun y => { y with writes := y.writes.filter fun q => q.line != r.line }
        let s2 := match r.data with
          | some b => s1.modDram fun m => { m with lines := mapSet (fun _ => []) m.lines (s.lineAddr ch r.line / 64) b }
          | none => s1
        served s2 r
      | none => s
    else
      match s.pickReq ch x.reads with
      | some r => served (s.modDrch ch fun y => { y with reads := y.reads.erase r }) r
      | none => s

/-- A channel serves all its queues hold. -/
def State.drainQueues (s : State) (ch : Nat) : State :=
  (List.range ((s.drch ch).reads.length + (s.drch ch).writes.length)).foldl (fun t _ => t.serveLine ch) s

/-- Every channel serves a request. -/
def State.serveDram (s : State) : State :=
  (s.dram.chans.map fun e => e.1).foldl State.serveLine s

/-- A line that returns leaves the read queue. -/
def State.readServed (s : State) (ch line : Nat) : State :=
  match (s.drch ch).reads.find? fun r => r.line == line with
  | some r => (s.modDrch ch fun y => { y with reads := y.reads.erase r }).showQueue ch
  | none => s

/-! ### Staging copies (10 R357, R358) -/

/-- Slots of 4 KiB in use in the staging region: those of the copies still held. -/
def State.stagingInUse (s : State) : List (Nat × Nat) :=
  s.dram.copies.filter fun c => match s.placed c.1 with | some p => p.staged | none => false

/-- The lowest free slot of the staging region, below its size in force (log entry 33). -/
def State.stagingSlot (s : State) : Option Nat :=
  let used := s.stagingInUse.map fun c => c.2
  (List.range (used.length + 1)).find? fun k => !used.contains k && k < s.force Reg.STR_DW_CFG_STAGING_GIB * 262144

/-- The lines of a slot: channel and line. -/
def State.slotLines (s : State) (slot : Nat) : List (Nat × Nat) := (List.range 64).map fun k => s.dramLine (s.regionEnd 6 + 4096 * slot + 64 * k)

/-- The copy of a sector is accepted into the write queues of its channels, where all its lines find room. -/
def State.stageCopy (s : State) (ssa : Nat) : Option State :=
  match s.stagingSlot with
  | none => none
  | some k => ((s.slotLines k).foldl (fun (t : Option State) l => t.bind fun u => u.queueWrite l.1 l.2 none) (some s)).map fun u =>
      u.modDram fun d => { d with copies := s.stagingInUse ++ [(ssa, k)] }

/-- A read of a staging copy is queued, line by line. -/
def State.readCopy (s : State) (ssa : Nat) : State :=
  match s.dram.copies.find? fun c => c.1 == ssa with
  | some c => (s.slotLines c.2).foldl (fun t l => t.queueRead l.1 l.2) s
  | none => s

end Sys2Proof.Machine
end

