-- ==== Sys2Proof/Machine/Map.lean ====
section
/-!
DEFINITION. Machine/Map.lean: the map (11 R381 to R385), the journal (11 R391 to R395), deallocation (11 R411), and the
fine pool.
-/
namespace Sys2Proof.Machine

/-- No location (11 R378). -/
def noSsa : Nat := 0xFFFFFFFFFFFF

/-- The number of a unit of a namespace in the map. -/
def mapKey (nsid unit : Nat) : Nat := nsid * 2 ^ 40 + unit

def entOf (m : SMap MapEnt) (nsid unit : Nat) : MapEnt := mapGet (fun _ => MapEnt.dealloc) m (mapKey nsid unit)

def setEnt (m : SMap MapEnt) (nsid unit : Nat) (e : MapEnt) : SMap MapEnt := mapSet (fun _ => MapEnt.dealloc) m (mapKey nsid unit) e

/-- Entry i of a fine table. -/
def fineAt (t : SMap Nat) (i : Nat) : Nat := mapGet (fun _ => noSsa) t i

/-- The location the map names for a logical sector. -/
def ssaAt (m : SMap MapEnt) (nsid lsa : Nat) : Option Nat :=
  match entOf m nsid (lsa / 512) with
  | .dealloc => none
  | .coarse a => some (a + lsa % 512)
  | .fine t => if fineAt t (lsa % 512) = noSsa then none else some (fineAt t (lsa % 512))

/-- The per-sector locations of an entry; positions of a coarse slot that hold no user data are deallocated (R383). -/
def tableOf (hole : Nat → Bool) : MapEnt → SMap Nat
  | .dealloc => []
  | .coarse a => (List.range 512).filterMap fun i => if hole (a + i) then none else some (i, a + i)
  | .fine t => t

/-- Sets entries of a unit to consecutive locations from index i. -/
def putRun (t : SMap Nat) (i n a : Nat) : SMap Nat :=
  (List.range n).foldl (fun t k => mapSet (fun _ => noSsa) t (i + k) (a + k)) t

/-- An entry with no location left is deallocated (R383). -/
def normEnt (t : SMap Nat) : MapEnt := if t.isEmpty then .dealloc else .fine t

/-- Maps `count` consecutive sectors to consecutive locations: a unit covered whole becomes coarse, any other fine. -/
def writeRun (hole : Nat → Bool) (m : SMap MapEnt) (nsid lsa count a : Nat) : SMap MapEnt :=
  (List.range ((lsa + count + 511) / 512 - lsa / 512)).foldl (fun m k =>
    let unit := lsa / 512 + k
    let lo := max lsa (unit * 512)
    let n := min (lsa + count) (unit * 512 + 512) - lo
    if n = 0 then m
    else if n = 512 then setEnt m nsid unit (.coarse (a + (lo - lsa)))
    else setEnt m nsid unit (normEnt (putRun (tableOf hole (entOf m nsid unit)) (lo % 512) n (a + (lo - lsa))))) m

/-- Deallocates `count` consecutive sectors. -/
def trimRun (hole : Nat → Bool) (m : SMap MapEnt) (nsid lsa count : Nat) : SMap MapEnt :=
  (List.range ((lsa + count + 511) / 512 - lsa / 512)).foldl (fun m k =>
    let unit := lsa / 512 + k
    let lo := max lsa (unit * 512)
    let n := min (lsa + count) (unit * 512 + 512) - lo
    if n = 0 then m
    else if n = 512 then setEnt m nsid unit .dealloc
    else setEnt m nsid unit (normEnt ((List.range n).foldl (fun t i => mapSet (fun _ => noSsa) t (lo % 512 + i) noSsa)
      (tableOf hole (entOf m nsid unit))))) m

/-- The position an SSA names holds no user data. -/
def State.hole (s : State) (a : Nat) : Bool := match s.placed a with | some p => p.sec.nsid == 0 | none => false

/-- The location of a logical sector; a position without user data reads as deallocated. -/
def State.locate (s : State) (nsid lsa : Nat) : Option Nat :=
  match ssaAt s.ftl.map nsid lsa with
  | some a => if s.hole a then none else some a
  | none => none

/-- Runs of consecutive sectors at consecutive locations: (lsa, count, ssa). -/
def runsOf : List (Nat × Nat) → List (Nat × Nat × Nat)
  | [] => []
  | (l, a) :: rest => match runsOf rest with
    | (l2, n, a2) :: more => if l2 = l + 1 ∧ a2 = a + 1 then (l, n + 1, a) :: more else (l, 1, a) :: (l2, n, a2) :: more
    | [] => [(l, 1, a)]

/-- The map after a write of sectors to locations. -/
def State.mapWrite (s : State) (nsid : Nat) (pairs : List (Nat × Nat)) : State :=
  let m := (runsOf pairs).foldl (fun m r => writeRun s.hole m nsid r.1 r.2.1 r.2.2) s.ftl.map
  let hit := fun (u : Nat × Nat) => u.1 == nsid && pairs.any fun p => p.1 == u.2
  s.modFtl fun t => { t with map := m, unreadable := t.unreadable.filter fun u => !hit u, disagree := t.disagree.filter fun u => !hit u }

/-- A sector moves: the entry follows only where it still names the source (R401). -/
def State.mapMove (s : State) (nsid lsa old new : Nat) : State :=
  if ssaAt s.ftl.map nsid lsa = some old then s.modFtl fun t => { t with map := writeRun s.hole t.map nsid lsa 1 new } else s

/-! ### The fine pool (11 R382, R385) -/

def State.fineTotal (s : State) : Nat := s.cfg 0x20 0 4 * 2 ^ 30 / 3200

def State.fineUsed (s : State) : Nat := (s.ftl.map.filter fun e => match e.2 with | .fine _ => true | _ => false).length

def State.fineFree (s : State) : Nat := s.fineTotal - s.fineUsed

/-- Units of a range that a write of it would make fine, or a deallocation of it where `trim`. -/
def State.fineNeeds (s : State) (nsid lsa count : Nat) (trim : Bool) : Nat :=
  ((List.range ((lsa + count + 511) / 512 - lsa / 512)).filter fun k =>
    let unit := lsa / 512 + k
    let whole := lsa ≤ unit * 512 && unit * 512 + 512 ≤ lsa + count
    !whole && (match entOf s.ftl.map nsid unit with | .fine _ => false | .coarse _ => true | .dealloc => !trim)).length

/-! ### The journal (11 R394, R395) -/

/-- The version in force of a sector in a map. -/
def State.versionIn (s : State) (m : SMap MapEnt) (nsid lsa : Nat) : Option Nat :=
  match ssaAt m nsid lsa with
  | some a => (s.placed a).bind fun p => if p.sec.nsid = 0 then none else some p.version
  | none => none

/-- An entry of the journal applied to a map: a RUN where no newer version is in force, a RELOC_RUN where its version is, a TRIM (R396, R405, R406). -/
def State.applyEntry (s : State) (m : SMap MapEnt) (e : Entry) : SMap MapEnt :=
  let put (p : Nat → Bool) : SMap MapEnt :=
    (runsOf (((List.range e.count).filter p).map fun i => (e.lsa + i, e.aux + i))).foldl (fun m r => writeRun s.hole m e.nsid r.1 r.2.1 r.2.2) m
  if e.ty = 1 then put fun i => match s.versionIn m e.nsid (e.lsa + i) with | some v => v ≤ e.seq | none => true
  else if e.ty = 2 then put fun i => s.versionIn m e.nsid (e.lsa + i) == some e.seq
  else if e.ty = 4 then trimRun s.hole m e.nsid e.lsa e.count
  else m

/-- The next extent is claimed, and named by the entry of the page that fills half of the extent in use (R394). -/
def State.nameExtent (s : State) : State × List Entry :=
  match s.readyExtent with
  | none => (s, [])
  | some s1 =>
    if 256 ≤ s1.ftl.extentUsed ∨ s1.extentAfter < 256 then (s1, [])
    else match s1.claim3 512 with
      | some (s2, a) => (s2.modFtl fun f => { f with extentNext := some a }, [⟨0x15, 0, 0, 0, 0, a, 0⟩])
      | none => (s1, [])

/-- Links are populated: without any there is no flash to keep a journal on (03 R90). -/
def State.anyLink (s : State) : Bool := (List.range 512).any fun n => populated s.image.cfg n

/-- Writes the journal page being filled: its entries count as journaled from here, and a SEQ_CEIL takes effect when the page
is durable. A page is written even where it holds nothing when a TAIL is required. -/
def State.writePage (s : State) (tail : Bool) : State :=
  if (s.ftl.page.isEmpty && !tail) || !s.anyLink then s
  else
    let (s1, named) := s.nameExtent
    let j : JPage := ⟨s1.ftl.jseq + 1, s.ftl.page ++ named, tail, (s1.newestCp.map fun c => c.gen).getD 0, []⟩
    let s2 := s1.modFtl fun t => { t with
      pages := t.pages ++ [j], jseq := t.jseq + 1, page := [], jmap := s.ftl.page.foldl s.applyEntry t.jmap }
    s2.putMeta (.journal j.jseq) j.jseq j.bytes

/-- Journals an entry: the page is written when it is full (126 entries). -/
def State.jput (s : State) (e : Entry) : State :=
  let s1 := s.modFtl fun t => { t with page := t.page ++ [e], pageSince := if t.page.isEmpty then s.now else t.pageSince }
  if 126 ≤ s1.ftl.page.length then s1.writePage false else s1

def State.jputs (s : State) (es : List Entry) : State := es.foldl State.jput s

/-- JOURNAL_PAGE_TIMER: 1 ms after its first entry a page not yet full is written. -/
def State.pageTimer (s : State) : State :=
  if !s.ftl.page.isEmpty && s.ftl.pageSince + 1000000 ≤ s.now then s.writePage false else s

def execJournalPageTimer (s : State) : Host.Outcome State Fault Refusal :=
  .next (if s.mainUp then s.pageTimer else s)

/-- Within 2^31 of the ceiling a SEQ_CEIL entry raising it by 2^32 is journaled (R389). -/
def State.raiseCeil (s : State) : State :=
  if s.ftl.ceilPending || s.ftl.seqNext + 2 ^ 31 < s.ftl.seqCeil then s
  else (s.jput ⟨0x14, 0, 0, 0, 0, s.ftl.seqCeil + 2 ^ 32, 0⟩).modFtl fun t => { t with ceilPending := true }

/-- n SEQs may be assigned now. -/
def State.seqRoom (s : State) (n : Nat) : Bool := n == 0 || s.ftl.seqNext + n ≤ s.ftl.seqCeil

/-- An admin command goes on where n SEQs may be assigned; else it waits for them, and is taken up again as time passes. -/
def State.withSeqs (s : State) (kind n : Nat) (c : Sqe) (f : State → State) : State :=
  if s.seqRoom n then f s
  else if s.nvme.seqWaits.any fun x => x.2 == c then s
  else ({ s with nvme := { s.nvme with seqWaits := s.nvme.seqWaits ++ [(kind, c)] } } : State).raiseCeil

/-! ### Deallocation (11 R383, R411) -/

/-- The pending queue takes an entry; past three quarters the open stripe with the most data rows is closed (R392). -/
def State.pend (s : State) (e : Entry) : State :=
  let s1 := s.modFtl fun t => { t with pendingQ := t.pendingQ ++ [e] }
  if 786432 < s1.ftl.pendingQ.length then
    let open1 := s1.ftl.stripes.filter fun x => x.state == 0 && x.next != 0
    match open1.foldl (fun (b : Option Stripe) x => match b with | some y => if y.next < x.next then some x else b | none => some x) none with
    | some st => s1.closeStripe st.id 0
    | none => s1
  else s1

/-- Deallocates a range: one SEQ, the map, a TRIM entry in the pending queue and the journal; nothing where no SEQ may be
assigned. -/
def State.trim (s : State) (nsid lsa count : Nat) : Option State :=
  match s.takeSeq with
  | none => none
  | some (q, s1) =>
    let e : Entry := ⟨4, 0, nsid, lsa, count, 0, q⟩
    let s2 := s1.modFtl fun t => { t with
      map := trimRun s.hole t.map nsid lsa count
      unreadable := t.unreadable.filter fun u => !(u.1 == nsid && lsa ≤ u.2 && u.2 < lsa + count)
      disagree := t.disagree.filter fun u => !(u.1 == nsid && lsa ≤ u.2 && u.2 < lsa + count)
      trims := if t.units.isEmpty then [] else t.trims ++ [e] }
    some (((s2.pend e).jput e).raiseCeil)

/-! ### Namespaces (06 R186, 11 R381) -/

def State.ns (s : State) (nsid : Nat) : Option Ns := s.nvme.nss.find? fun n => n.nsid == nsid

/-! ### Entries that are being rebuilt (17 R609, Table 17.3) -/

/-- The system addresses of the entries a sector is found by: coarse map, fine table, stripe table, band table (17 Table 17.2). -/
def State.entryAddrs (s : State) (nsid lsa : Nat) : List Nat :=
  let coarse := match s.ns nsid with | some n => [s.regionEnd 1 + 8 * (n.base + lsa / 512)] | none => []
  let fine := match mapGet (fun _ => 0) s.ftl.fineNum (mapKey nsid (lsa / 512)) with
    | k + 1 => [s.regionEnd 4 + 3200 * k + 128 + 6 * (lsa % 512)]
    | 0 => []
  let place := match s.locate nsid lsa with
    | some a => (s.regionEnd 2 + 24 * (ssaStripe a % 33554432)) :: (match s.stripe (ssaStripe a) with | some st => [s.regionEnd 3 + 256 * (st.band % 2097152)] | none => [])
    | none => []
  coarse ++ fine ++ place

/-- A command that touches these sectors waits: the line of one of their entries is being rebuilt. -/
def State.entryHeld (s : State) (nsid : Nat) (lsas : List Nat) : Bool :=
  !s.dram.rebuilds.isEmpty && lsas.any fun l => (s.entryAddrs nsid l).any fun a => s.dram.rebuilds.any fun e => (e.1, e.2.1) == s.dramLine a

/-- Sectors of a logical block: 1 in the 4 KiB formats, 4 in the 16 KiB formats (06 Table 6.5). -/
def Ns.spb (n : Ns) : Nat := if 3 ≤ n.lbaFormat then 4 else 1

/-- Bytes of protection information of a block. -/
def Ns.piBytes (n : Ns) : Nat := if n.lbaFormat = 1 then 8 else if n.lbaFormat = 2 ∨ n.lbaFormat = 4 then 16 else 0

/-- Size in logical blocks: NSZE. -/
def Ns.blocks (n : Ns) : Nat := n.units * 512 / n.spb

/-- FLBAS bit 4: the host transfers metadata with each logical block, as an extended LBA (06 R187; log entry 45). -/
def Ns.extended (n : Ns) : Bool := n.piBytes != 0 && Config.flbasExtended n.nsid

/-- The take namespace (07 R235). -/
def State.takeNs (s : State) : Option Ns := s.nvme.nss.find? fun n => n.take && n.attached

end Sys2Proof.Machine
end

