-- ==== Sys2Proof/Machine/Pages.lean ====
section
/-!
DEFINITION. Machine/Pages.lean: the sectors a checkpoint is made of (11 R381, R382, R387, R396): where each stands in the directory, the directory and
index pages, and the root that is written once they are durable (11 R399).
-/
namespace Sys2Proof.Machine

/-! ### Where a sector stands (DESIGN CHOICE, log entry 61: the manual gives no order) -/

/-- Sectors of the coarse map: 8 bytes a unit of user capacity. -/
def State.coarseSectors (s : State) : Nat := ceilDiv (8 * userUnits s.image.cfg) 4096

/-- Sectors of the stripe table (33,554,432 entries of 24 B) and of the band table (2,097,152 of 256 B). -/
def stripeSectors : Nat := 196608
def bandSectors : Nat := 131072

/-- The place of a sector among all: coarse map, fine tables, stripe table, band table. -/
def State.cpSlot (s : State) (part i : Nat) : Nat :=
  if part = 0 then i else if part = 1 then s.coarseSectors + i
  else if part = 2 then s.coarseSectors + s.fineTotal + i else s.coarseSectors + s.fineTotal + stripeSectors + i

/-- The sector at a place. -/
def State.cpSector (s : State) (slot : Nat) : MetaOf :=
  let c := s.coarseSectors
  let f := c + s.fineTotal
  if slot < c then .mapSec 0 slot else if slot < f then .mapSec 1 (slot - c)
  else if slot < f + stripeSectors then .mapSec 2 (slot - f) else .mapSec 3 (slot - f - stripeSectors)

/-- Index pages of a generation. -/
def State.indexCount (s : State) : Nat :=
  max 1 (min 256 (ceilDiv (ceilDiv (s.coarseSectors + s.fineTotal + stripeSectors + bandSectors) 508) 508))

/-! ### Writing them -/

/-- The newest metadata sector of a kind. -/
def State.newestMeta (s : State) (of : MetaOf) : Option MetaSec := s.ftl.metas.reverse.find? fun m => m.of == of

/-- Its SSA. -/
def State.metaSsa (s : State) (of : MetaOf) : Nat := match s.newestMeta of with | some m => m.ssa.getD noSsa | none => noSsa

/-- Writes a sector of generation g where it differs from the newest one of its kind. -/
def State.putPage (s : State) (g : Nat) (x : MetaOf × List Byte) : State :=
  if (s.newestMeta x.1).any fun m => m.payload == x.2 then s else s.putMeta x.1 g x.2

/-- The directory pages that name changed sectors, then the index pages that name them (R396). -/
def State.putDirs (s : State) (g : Nat) (slots : List Nat) : State :=
  let dirs := (slots.map fun x => x / 508).eraseDups
  let s1 := dirs.foldl (fun (t : State) d => t.putPage g (.dirPage 0 d, dirBytes ((List.range 508).map fun k => t.metaSsa (t.cpSector (508 * d + k))))) s
  ((dirs.map fun d => d / 508).eraseDups).foldl (fun (t : State) x =>
    t.putPage g (.dirPage 1 x, dirBytes ((List.range 508).map fun k => t.metaSsa (.dirPage 0 (508 * x + k))))) s1

/-- Every sector of a checkpoint is confirmed in three copies. -/
def State.cpPagesDone (s : State) (c : Checkpoint) : Bool :=
  s.ftl.metas.all fun m => !m.of.isPage || m.since < c.startedAt || (s.metaCopies m).length == 3

/-- The root of the running checkpoint is written once every sector it names, by way of its index pages, is durable. -/
def State.cpRoot (s : State) : State :=
  match s.ftl.cps.find? fun c => !c.durable with
  | none => s
  | some c =>
    if (s.newestMeta (.root c.gen)).isSome || !s.cpPagesDone c then s
    else s.putMeta (.root c.gen) c.gen (c.rootBytes (s.ftl.extent.getD noSsa) (userUnits s.image.cfg) (s.metaSsa (.nsTable 0))
      ((List.range s.indexCount).map fun i => s.metaSsa (.dirPage 1 i)))

end Sys2Proof.Machine
end

