-- ==== Sys2Proof/Machine/Durable.lean ====
section
/-!
DEFINITION. Machine/Durable.lean: confirmation of programs, durable stripes, commit markers, re-sent members, and the
completion of what waits for durability (01 R20 to R24, R36; 06 R198 to R206; 11 R393; 12 R430).
-/
namespace Sys2Proof.Machine

/-! ### What a stripe still waits for -/

/-- The distinct members of a stripe that failed. -/
def Stripe.failedMembers (st : Stripe) : List Nat := (st.failed.map fun f => f.2).eraseDups

/-- A stripe is durable; one that never becomes so counts once the stripes its sectors were re-sent to do. -/
def State.durableN (s : State) : Nat → Nat → Bool
  | 0, _ => false
  | n + 1, i => match s.stripe i with
    | some st => st.state == 2 || (st.state == 3 && st.deps.all fun d => s.durableN n d)
    | none => true

def State.durable (s : State) (i : Nat) : Bool := s.durableN (s.ftl.stripes.length + 1) i

/-- Every program of a closed stripe is confirmed, a failed one counting once its re-sent sectors are durable (R430). -/
def State.allConfirmed (s : State) (st : Stripe) (b : Band) : Bool :=
  st.state == 1 && st.failedMembers.length ≤ b.parity && st.deps.all s.durable &&
  (List.range st.rows).all fun r => (List.range b.width).all fun m => st.confirmed.contains (r, m) || st.failed.contains (r, m)

/-- A stripe's members that are missing or failed (12, "Rebuild"). -/
def State.missingOf (s : State) (st : Stripe) : Nat :=
  match s.band st.band with
  | none => 0
  | some b => ((List.range b.width).filter fun m => st.failedMembers.contains m ||
      (match b.members[m]? with | some x => s.memberMissing x || (s.blk x).state == 3 | none => false)).length

/-- Redundancy left; EXPOSED at 0, REDUCED between 0 and PARITY, LOST below 0. -/
def State.isExposed (s : State) (st : Stripe) : Bool := match s.band st.band with | some b => st.state == 2 && s.missingOf st == b.parity | none => false
def State.isReduced (s : State) (st : Stripe) : Bool := match s.band st.band with | some b => st.state == 2 && 0 < s.missingOf st && s.missingOf st < b.parity | none => false
def State.isLost (s : State) (st : Stripe) : Bool := match s.band st.band with | some b => st.state == 2 && b.parity < s.missingOf st | none => false

/-- The map names a position of the stripe. -/
def State.holdsMapped (s : State) (st : Stripe) : Bool :=
  st.data.any fun e => match e.2 with | some p => p.sec.nsid != 0 && s.locate p.sec.nsid p.sec.lsa == some (ssaOf st.id e.1) | none => false

/-- STR_STATUS.LOST, EXPOSED and REDUCED follow the stripes. -/
def State.showStripes (s : State) : State :=
  ((s.wr Reg.STR_STATUS_LOST (bit (s.ftl.stripes.any fun st => s.isLost st && s.holdsMapped st))).wr
    Reg.STR_STATUS_EXPOSED (bit (s.ftl.stripes.any s.isExposed))).wr Reg.STR_STATUS_REDUCED (bit (s.ftl.stripes.any s.isReduced))

/-! ### Completion of write-path commands -/

/-- A command's data units of 512,000 B as SMART counts them: bytes are kept. -/
def State.countUser (s : State) (n : Nat) : State :=
  ((s.moved 0 n 0).modPath fun p => { p with unitsWritten := p.unitsWritten + n, hostWrites := p.hostWrites + 1 }).tally 0x38 n

/-- The sectors of a command with their locations. -/
def WCmd.pairs (c : WCmd) : List (Nat × Nat) := c.lsas.zip c.places

/-- A command has everything its completion needs (R21, R36, R201): every sector accepted, and under write-through or FUA
every stripe of its sectors durable. -/
def State.finished (s : State) (c : WCmd) : Bool :=
  !c.ended && !c.mute && c.accepted == c.lsas.length && c.places.length == c.lsas.length &&
  (!(c.fua || c.wt == some true) || c.places.all fun a => s.durable (ssaStripe a))

/-- Completes one finished command: the map changes in the same step (R198). A Write posts its completion; a command of the
take service is handed to it. -/
def State.finish (s : State) (c : WCmd) : State :=
  let s1 := (s.mapWrite c.nsid c.pairs).modPath fun p => { p with writes := p.writes.filter fun x => x.id != c.id }
  let s2 := s1.countUser (4096 * c.lsas.length)
  let s3 := match c.kind with
    | .write => s2.complete c.sqe stOk (if c.wt = some true then 0xB0 else 0) 0 []
    | _ => s2.modPath fun p => { p with done := p.done ++ [c] }
  s3.showWt

/-- Completes every finished command, in fetch order. -/
def State.finishAll (s : State) : State := (s.path.writes.filter s.finished).foldl State.finish s

/-- What waits for durability: a Flush completes; a shutdown whose stripes are durable has the journal tail written, and ends
when that page is durable (R200, R206). -/
def State.waitStep (s : State) (w : DurWait) : State :=
  let drop (t : State) := t.modPath fun p => { p with waits := p.waits.filter fun x => x != w }
  if w.kind = 0 then (if w.stripes.all s.durable then (drop s).succeed w.cmd else s)
  else if w.kind = 1 then
    if w.stripes.all s.durable then
      let s1 := (drop s).writePage true
      s1.modPath fun p => { p with waits := p.waits ++ [⟨2, w.cmd, [s1.ftl.jseq], w.since⟩] }
    else s
  else
    if s.ftl.pages.all fun j => !w.stripes.contains j.jseq || 3 ≤ j.copies.length then
      (drop s).setCtrl w.cmd.ctrl.val { s.ctrl w.cmd.ctrl.val with shst := 2 }
    else s

def State.waitsAll (s : State) : State := s.path.waits.foldl State.waitStep s

/-! ### Commit markers (R393) -/

/-- One atomic unit whose sectors are all assembled in durable stripes: its COMMIT enters the pending queue, and the journal
takes its runs and the COMMIT. The map takes the unit where its command ended without a completion (03 R80). -/
def State.commitUnit (s : State) (u : AUnit) : State :=
  if u.complete && u.ssas.all fun a => s.durable (ssaStripe a) then
    let pairs := (List.range u.ssas.length).map fun i => (u.lsa + i, u.ssas.getD i 0)
    let live := s.path.writes.any fun c => c.id == u.owner && !c.ended
    let ended := s.path.writes.any fun c => c.id == u.owner && c.ended
    let s1 := if ended then s.mapWrite u.nsid pairs else s
    let commit : Entry := ⟨3, 0, u.nsid, u.lsa, u.count, u.seqLast, u.seqFirst⟩
    -- what a deallocation has removed meanwhile is no change the journal has to make
    let kept := pairs.filter fun p => !s.ftl.trims.any fun e => e.nsid == u.nsid && e.lsa ≤ p.1 && p.1 < e.lsa + e.count && u.seqFirst < e.seq
    let runs := (runsOf kept).map fun r =>
      (⟨1, 0, u.nsid, r.1, r.2.1, r.2.2, match s.placed r.2.2 with | some p => p.sec.seq | none => u.seqFirst⟩ : Entry)
    let s2 := (s1.pend commit).jputs (runs ++ [commit])
    let s3 := s2.modFtl fun t => { t with units := t.units.filter fun x => x != u, trims := if t.units.length ≤ 1 then [] else t.trims }
    if live then s3
    else s3.modPath fun p => { p with writes := p.writes.filter fun c => !(c.id == u.owner && c.ended && !s3.ftl.units.any fun x => x.owner == c.id) }
  else s

def State.commitUnits (s : State) : State := s.ftl.units.foldl State.commitUnit s

/-! ### A stripe becomes durable (R23) -/

/-- A relocated sector takes over its source's map entry where that still names the source (R401); whole runs keep a unit
coarse. -/
def State.adoptRelocated (s : State) (st : Stripe) : State :=
  (st.entries.filter fun e => e.ty == 2).foldl (fun t e =>
    let src := (List.range e.count).map fun i => match t.placed (e.aux + i) with | some p => p.source | none => none
    let named := (List.range e.count).all fun i => src.getD i none == ssaAt t.ftl.map e.nsid (e.lsa + i) && (src.getD i none).isSome
    if named then (t.modFtl fun f => { f with map := writeRun t.hole f.map e.nsid e.lsa e.count e.aux }).jput e
    else (List.range e.count).foldl (fun u i => match src.getD i none with
      | some o =>
        if ssaAt u.ftl.map e.nsid (e.lsa + i) = some o then
          (u.mapMove e.nsid (e.lsa + i) o (e.aux + i)).jput ⟨2, 0, e.nsid, e.lsa + i, 1, e.aux + i, e.seq⟩
        else u
      | none => u) t) s

/-- The stripe is durable: staging copies are released, occupancy falls (R23), the journal notes it, relocated sectors take
over. -/
def State.becomeDurable (s : State) (st : Stripe) : State :=
  let n := (st.data.filter fun e => match e.2 with | some p => p.window | none => false).length
  let seqMax := maxOf (st.data.filterMap fun e => e.2.map fun p => p.sec.seq)
  let s1 := s.modStripe st.id fun x => { x with
    state := 2
    data := x.data.map fun (e : Nat × Option Placed) => (e.1, e.2.map fun p => { p with staged := false, window := false }) }
  let s2 := (s1.occDrop (4096 * n)).jput ⟨0x10, 0, 0, 0, 0, st.id, seqMax⟩
  s2.adoptRelocated st

/-- A stripe that never becomes durable has its bytes out of the window once the stripes its sectors were re-sent to are durable: what was
not re-sent is wanted no more (R23, R430). -/
def State.releaseNever (s : State) (st : Stripe) : State :=
  let n := (st.data.filter fun e => match e.2 with | some p => p.window | none => false).length
  (s.modStripe st.id fun x => { x with
    data := x.data.map fun (e : Nat × Option Placed) => (e.1, e.2.map fun p => { p with staged := false, window := false }) }).occDrop (4096 * n)

/-- The stripes that never become durable and whose bytes leave the window now. -/
def State.releaseNevers (s : State) : State :=
  (s.ftl.stripes.filter fun st => st.state == 3 && s.durable st.id && st.data.any fun e => match e.2 with | some p => p.window | none => false).foldl
    State.releaseNever s

/-- Every stripe whose programs are all confirmed becomes durable; one may wait for another, so the pass is made as often as
there are stripes. -/
def State.durablePass : Nat → State → State
  | 0, s => s
  | n + 1, s =>
    match s.ftl.stripes.find? fun st => match s.band st.band with | some b => s.allConfirmed st b | none => false with
    | some st => (s.becomeDurable st).durablePass n
    | none => s

/-- The journal notes every band opened since (Table 11.5). -/
def State.journalBands (s : State) : State :=
  if s.ftl.bandsJournaled = s.ftl.nextBand then s
  else
    let new := s.ftl.bands.filter fun b => s.ftl.bandsJournaled ≤ b.id
    (s.jputs (new.map fun b => ⟨0x11, 0, 0, 0, b.id, b.width + 256 * b.parity, 0⟩)).modFtl fun t => { t with bandsJournaled := t.nextBand }

/-- Everything that follows from confirmations: durable stripes, commit markers, completions, waits. -/
def State.settleStripes (s : State) : State :=
  (((s.journalBands.durablePass (s.ftl.stripes.length + 1)).releaseNevers).commitUnits).metaSettle.cpRoot.finishAll.waitsAll.raiseCeil

/-! ### Failed programs (12 R430) -/

/-- A position's sector is wanted: the map names it, or a command on the write path or an atomic unit placed it there. -/
def State.wanted (s : State) (a : Nat) (p : Placed) : Bool :=
  p.sec.nsid != 0 && (ssaAt s.ftl.map p.sec.nsid p.sec.lsa == some a ||
    (s.path.writes.any fun c => c.places.contains a) || (s.ftl.units.any fun u => u.ssas.contains a) ||
    (match p.source with | some o => ssaAt s.ftl.map p.sec.nsid p.sec.lsa == some o | none => false))

def replaceNat (old new : Nat) (l : List Nat) : List Nat := l.map fun x => if x = old then new else x

/-- A sector's bytes count in the window with its new position, no longer with the old (R23). -/
def State.leaveWindow (s : State) (a : Nat) : State :=
  s.modStripe (ssaStripe a) fun st => { st with
    data := st.data.map fun (e : Nat × Option Placed) => if e.1 == ssaOff a then (e.1, e.2.map fun p => { p with staged := false, window := false }) else e }

/-- Re-sends one sector into the open stripe of another band, payload, envelope and SEQ unchanged; the map entry, the command
and the atomic unit follow it. Answers the stripe it went to. -/
def State.resend (s : State) (a : Nat) (p : Placed) : State × List Nat :=
  match s.assemble (if p.source.isSome then 1 else 0) 0 false { p with resent := true } with
  | none => (s, [])
  | some (s1, b) =>
    let s2 := (s1.leaveWindow a).mapMove p.sec.nsid p.sec.lsa a b
    let s3 := s2.modPath fun x => { x with writes := x.writes.map fun c => { c with places := replaceNat a b c.places } }
    let s4 := s3.modFtl fun t => { t with units := t.units.map fun u => { u with ssas := replaceNat a b u.ssas } }
    (s4.modHealth fun h => { h with resent := h.resent + 1 }, [ssaStripe b])

/-- The wanted positions of a list of offsets of a stripe are re-sent. -/
def State.resendAll (s : State) (st : Stripe) (offs : List Nat) : State × List Nat :=
  offs.foldl (fun (a : State × List Nat) off => match st.posAt off with
    | some p => if a.1.wanted (ssaOf st.id off) p then (let r := a.1.resend (ssaOf st.id off) p; (r.1, a.2 ++ r.2)) else a
    | none => a) (s, [])

/-- Retires a block: it holds nothing new, and its failure is counted on its link. -/
def State.retireBlock (s : State) (m : Nat × Nat × Nat) : State := (s.setBlk m { s.blk m with state := 3 }).tally 0x78 1

/-- The program of a member of a row fails, or its link becomes missing before the confirmation (R430). -/
def State.programFail (s : State) (i row m : Nat) : State :=
  match s.stripe i with
  | none => s
  | some st => match s.band st.band with
    | none => s
    | some b =>
      if 2 ≤ st.state ∨ st.failed.contains (row, m) ∨ st.confirmed.contains (row, m) then s
      else
        let mem := b.members.getD m (0, 0, 0)
        let s1 := ((s.retireBlock mem).tally 0x68 1).modHealth fun h => { h with programFails := h.programFails + 1, linkFails := bumpAt h.linkFails mem.1 1 }
        let s2 := s1.stripeEvent 4 m mem.1 i 0 0xFFFFFFFFFFFFFFFF
        -- a failed metadata program raises 1,712 (11 R416)
        let s3 := ((s2.modStripe i fun x => { x with failed := x.failed ++ [(row, m)] }).stopBand b.id 0).raiseIf (2 ≤ b.kind) 1712
        match s3.stripe i with
        | none => s3
        | some st3 =>
          if b.parity < st3.failedMembers.length then
            -- every mapped sector is re-sent, the stripe never becomes durable, and its pending entries go back to the head
            let all := st3.data.map fun e => e.1
            let r := s3.resendAll st3 all
            (r.1.modStripe i fun x => { x with state := 3, deps := x.deps ++ r.2.eraseDups }).modFtl fun t => { t with
              pendingQ := (st3.entries.filter fun e => e.ty == 3 || e.ty == 4) ++ t.pendingQ }
          else if m < b.dm then
            let offs := (List.range (s.su b)).map fun k => row * s.per b + m * s.su b + k
            let r := s3.resendAll st3 offs
            r.1.modStripe i fun x => { x with deps := x.deps ++ r.2.eraseDups }
          else s3

/-- The program of a member is confirmed: only a complete member has been sent (R428). -/
def State.programOk (s : State) (i row m : Nat) : State :=
  match s.stripe i with
  | none => s
  | some st => match s.band st.band with
    | none => s
    | some b =>
      let full := (List.range (s.su b)).all fun k => (st.posAt (row * s.per b + m * s.su b + k)).isSome
      let rowFull := (List.range (s.per b)).all fun k => (st.posAt (row * s.per b + k)).isSome
      if b.width ≤ m ∨ st.confirmed.contains (row, m) ∨ st.failed.contains (row, m) then s
      else if st.state == 1 && row < st.rows || st.state == 0 && ((m < b.dm && full) || rowFull) then
        s.modStripe i fun x => { x with confirmed := x.confirmed ++ [(row, m)] }
      else s

/-- Members of open and unconfirmed stripes on a link, or on one die of it, become missing: each unconfirmed program there fails
(12 R426, R430). -/
def State.loseMembers (s : State) (link : Nat) (die : Option Nat) : State :=
  let hit (b : Band) (m : Nat) : Bool := match b.members[m]? with
    | some x => x.1 == link && (match die with | some d => x.2.1 == d | none => true)
    | none => false
  let s1 := (s.ftl.bands.filter fun b => b.state == 0 && (List.range b.width).any (hit b)).foldl (fun t b => t.stopBand b.id 0) s
  let bad := s1.ftl.stripes.flatMap fun st =>
    if st.state ≠ 1 then [] else match s1.band st.band with
      | some b => (List.range st.rows).flatMap fun r => (List.range b.width).filterMap fun m =>
          if hit b m && !st.confirmed.contains (r, m) && !st.failed.contains (r, m) then some (st.id, r, m) else none
      | none => []
  (bad.foldl (fun t x => t.programFail x.1 x.2.1 x.2.2) s1).settleStripes.showStripes

/-- A link leaves IN_SERVICE for SLOW or HELD: the bands it is open in are closed at their open stripe (R426). -/
def State.closeBandsOf (s : State) (link : Nat) : State :=
  (s.ftl.bands.filter fun b => b.state == 0 && b.members.any fun m => m.1 == link).foldl (fun t b => t.stopBand b.id 0) s

/-- The window flushes because the limit fell below occupancy, and an open stripe holds some of it (01 R32; log entry 53). -/
def State.drains (s : State) (i : Nat) : Bool :=
  s.win.draining && match s.stripe i with
  | some st => st.data.any fun e => match e.2 with | some p => p.window | none => false
  | none => false

/-- STRIPE_CLOSE_TIMER: a stripe that a write-through write, a FUA write, a Flush or a shutdown waits for is closed with fill
200 µs after the wait began (10 R360); one that holds data of a window that drains, at once. -/
def State.awaited (s : State) (i : Nat) : Bool :=
  s.drains i || s.metaAwaited i ||
  (s.path.waits.any fun w => w.kind ≤ 1 && w.stripes.contains i && w.since + 200000 ≤ s.now) ||
  (s.path.writes.any fun c => (c.fua || c.wt == some true) && c.accepted == c.lsas.length && c.readyAt + 200000 ≤ s.now &&
    c.places.any fun a => ssaStripe a == i)

end Sys2Proof.Machine
end

