-- ==== Sys2Proof/Machine/Protect.lean ====
section
/-!
DEFINITION. Machine/Protect.lean: protection information (06 R186 to R192): the guards, the tuple of a logical block, its
generation, its check, and what a deallocated block reads as. The guards' polynomials and the layout of the tuple are those of
NVMe Base 2.0, which the manual names and does not restate (PRESUMED, log entry 15).
-/
namespace Sys2Proof
open Sys2Proof.Machine

/-! ### Fields of an I/O command -/

def Sqe.slba (c : Sqe) : Nat := c.cdw10.toNat + 2 ^ 32 * c.cdw11.toNat
/-- Logical blocks: NLB is 0's based. -/
def Sqe.nlb (c : Sqe) : Nat := bitsOf c.cdw12 0 16 + 1
def Sqe.fua (c : Sqe) : Bool := c.cdw12.getLsbD 30
def Sqe.pract (c : Sqe) : Bool := c.cdw12.getLsbD 29
def Sqe.chkGuard (c : Sqe) : Bool := c.cdw12.getLsbD 28
def Sqe.chkApp (c : Sqe) : Bool := c.cdw12.getLsbD 27
def Sqe.chkRef (c : Sqe) : Bool := c.cdw12.getLsbD 26
def Sqe.appTag (c : Sqe) : Nat := bitsOf c.cdw15 0 16
def Sqe.appMask (c : Sqe) : Nat := bitsOf c.cdw15 16 16
def Sqe.refTag (c : Sqe) : Nat := c.cdw14.toNat + 2 ^ 32 * bitsOf c.cdw3 0 16

end Sys2Proof

namespace Sys2Proof.Machine

/-! ### Guards -/

/-- One bit of CRC-16/T10-DIF, polynomial 0x8BB7, most significant bit first. -/
def crc16Bit (c : BitVec 16) : BitVec 16 := if c.getLsbD 15 then (c <<< 1) ^^^ 0x8BB7#16 else c <<< 1

def crc16Byte (c : BitVec 16) (b : Byte) : BitVec 16 :=
  crc16Bit (crc16Bit (crc16Bit (crc16Bit (crc16Bit (crc16Bit (crc16Bit (crc16Bit (c ^^^ (b.setWidth 16 <<< 8)))))))))

/-- The 16-bit guard. -/
def guard16 (b : List Byte) : Nat := (b.foldl crc16Byte 0).toNat

/-- One bit of CRC-64/NVME, polynomial 0xAD93_D235_94C9_3659 reflected. -/
def crc64Bit (c : BitVec 64) : BitVec 64 := if c.getLsbD 0 then (c >>> 1) ^^^ 0x9A6C9329AC4BCB9B#64 else c >>> 1

def crc64Byte (c : BitVec 64) (b : Byte) : BitVec 64 :=
  crc64Bit (crc64Bit (crc64Bit (crc64Bit (crc64Bit (crc64Bit (crc64Bit (crc64Bit (c ^^^ b.setWidth 64))))))))

/-- The 64-bit guard. -/
def guard64 (b : List Byte) : Nat := ((b.foldl crc64Byte (BitVec.allOnes 64)) ^^^ BitVec.allOnes 64).toNat

/-! ### The tuple of a block -/

/-- Guard, application tag and reference tag. -/
structure Pi where
  guard : Nat
  app : Nat
  ref : Nat
  deriving DecidableEq, Repr

/-- A big-endian number of n bytes at an offset. -/
def beAt (b : List Byte) (off n : Nat) : Nat := (List.range n).foldl (fun a i => a * 256 + byteAt b (off + i)) 0

/-- Bits of the reference tag: 32 with the 16-bit guard, 48 with the 64-bit guard. -/
def Ns.refBits (n : Ns) : Nat := if n.piBytes = 8 then 32 else 48

def Ns.guardOf (n : Ns) (block : List Byte) : Nat := if n.piBytes = 8 then guard16 block else guard64 block

def Ns.readPi (n : Ns) (b : List Byte) : Pi :=
  if n.piBytes = 8 then ⟨beAt b 0 2, beAt b 2 2, beAt b 4 4⟩ else ⟨beAt b 0 8, beAt b 8 2, beAt b 10 6⟩

def Ns.piOut (n : Ns) (p : Pi) : List Byte :=
  if n.piBytes = 8 then beBytes 2 p.guard ++ beBytes 2 p.app ++ beBytes 4 p.ref
  else if n.piBytes = 16 then beBytes 8 p.guard ++ beBytes 2 p.app ++ beBytes 6 p.ref
  else []

/-- The reference tag a command expects for its block i: it rises by the block in types 1 and 2. -/
def Ns.expectRef (n : Ns) (c : Sqe) (i : Nat) : Nat :=
  if n.piType = 3 then c.refTag % 2 ^ n.refBits else (c.refTag + i) % 2 ^ n.refBits

/-- The tuple the device generates for block i under PRACT (R188). -/
def Ns.makePi (n : Ns) (c : Sqe) (i : Nat) (block : List Byte) : List Byte := n.piOut ⟨n.guardOf block, c.appTag, n.expectRef c i⟩

/-- A tuple whose application tag (and, in type 3, reference tag) is all ones is not checked. -/
def Ns.piEscape (n : Ns) (p : Pi) : Bool := p.app == 0xFFFF && (n.piType != 3 || p.ref == 2 ^ n.refBits - 1)

/-- The check of a block's tuple against the command (R188, R189): the status of the first field that fails. -/
def Ns.checkPi (n : Ns) (c : Sqe) (i : Nat) (block pi : List Byte) : Option Status :=
  if n.piBytes = 0 ∨ n.piType = 0 then none
  else
    let p := n.readPi pi
    if n.piEscape p then none
    else if c.chkGuard && p.guard != n.guardOf block then some stGuard
    else if c.chkApp && (p.app &&& c.appMask) != (c.appTag &&& c.appMask) then some stAppTag
    else if c.chkRef && n.piType != 3 && p.ref != n.expectRef c i then some stRefTag
    else none

/-- What a deallocated block's tuple reads as (R192): the guard of its zeros, application tag 0xFFFF, the reference tag the
command expects in types 1 and 2 and all ones otherwise (PRESUMED, log entry 15). -/
def Ns.holePi (n : Ns) (c : Sqe) (i : Nat) : List Byte :=
  n.piOut ⟨n.guardOf (List.replicate (4096 * n.spb) 0), 0xFFFF,
    if n.piType = 1 ∨ n.piType = 2 then n.expectRef c i else 2 ^ n.refBits - 1⟩

/-- The PI field of an envelope: 8 bytes and 8 zeros in format 1, 16 bytes in formats 2 and 4, else zeros (10 Table 10.1). -/
def piField (b : List Byte) : List Byte := (b ++ List.replicate 16 0).take 16

end Sys2Proof.Machine
end

