-- ==== Sys2Proof/Machine/Rebuild.lean ====
section
/-!
DEFINITION. Machine/Rebuild.lean: spare and free bands (11 R402, R415), suspect and retired blocks (12), the rebuild and its
order (12 R443 to R445), and a member's read of one sector (01 R25 to R28, 12 R438 to R441).
-/
namespace Sys2Proof.Machine

/-! ### Good, free and spare blocks -/

/-- Populated links whose group names the personality. -/
def State.linksOf (s : State) (ty : Nat) : List Nat :=
  (List.range 512).filter fun n => match groupOf s.image.cfg n with | some g => 0x10 + g.get 1 == ty | none => false

/-- The link, die and block of a key of the block table. -/
def blkLink (k : Nat) : Nat := k / 65536 / 32
def blkDie (k : Nat) : Nat := k / 65536 % 32

/-- Blocks of a personality in a given set of states, on dies that answer and links not RETIRED. -/
def State.blocksIn (s : State) (ty : Nat) (sts : List Nat) : Nat :=
  (s.ftl.blocks.filter fun e => sts.contains e.2.state && (s.linksOf ty).contains (blkLink e.1) && s.linkState (blkLink e.1) != 6 &&
    !s.ftl.absentDies.contains (blkLink e.1, blkDie e.1)).length

/-- Good multi-plane blocks of a personality. -/
def State.goodBlocks (s : State) (ty : Nat) : Nat :=
  (((s.linksOf ty).filter fun n => s.linkState n != 6).map s.linkDies).sum * (s.pers ty).get 0x20 - s.blocksIn ty [3]

/-- Personalities that populated links name. -/
def State.persTypes (s : State) : List Nat := (List.range 16).filterMap fun k => if (s.linksOf (0x10 + k)).isEmpty then none else some (0x10 + k)

/-- Free bands and bands of R402. -/
def State.freeBands (s : State) : Nat := (s.persTypes.map fun ty => (s.goodBlocks ty - s.blocksIn ty [1, 4]) / s.width).sum
def State.allBands (s : State) : Nat := (s.persTypes.map fun ty => s.goodBlocks ty / s.width).sum

/-- Bytes of a multi-plane block. -/
def blockBytes (p : Rec) : Nat := p.get 0x1A * p.get 0x1C * p.get 0x14

/-- Spare (11 Table 11.10), 0 where it would be below. -/
def State.spareUnits (s : State) : Nat :=
  let raw := (s.persTypes.map fun ty => s.goodBlocks ty * blockBytes (s.pers ty)).sum
  let w := cfgGet s.image.cfg 0x20 0 0
  raw * (w - cfgGet s.image.cfg 0x20 0 1) / (w * 2097152) - userUnits s.image.cfg

/-! ### Rebuild (12 R443 to R445) -/

/-- A member is gone for good: its link RETIRED, its die absent, or its block retired. -/
def State.memberGone (s : State) (m : Nat × Nat × Nat) : Bool :=
  s.linkState m.1 == 6 || s.ftl.absentDies.contains (m.1, m.2.1) || (s.blk m).state == 3

/-- The member that holds a position of a stripe. -/
def State.holder (s : State) (st : Stripe) (off : Nat) : Option (Nat × Nat × Nat) :=
  match s.band st.band with
  | some b => b.members[s.memberOf b off]?
  | none => none

/-- The map names the position. -/
def State.mappedAt (s : State) (st : Stripe) (off : Nat) : Bool :=
  match st.posAt off with
  | some p => p.sec.nsid != 0 && ssaAt s.ftl.map p.sec.nsid p.sec.lsa == some (ssaOf st.id off)
  | none => false

/-- Mapped positions of a stripe. -/
def State.mappedOffs (s : State) (st : Stripe) : List Nat := (st.data.map fun e => e.1).filter (s.mappedAt st)

def State.onGone (s : State) (st : Stripe) (off : Nat) : Bool := match s.holder st off with | some m => s.memberGone m | none => false

def State.hasGone (s : State) (st : Stripe) : Bool := match s.band st.band with | some b => b.members.any s.memberGone | none => false

/-- The work of the rebuild, in the order of R443: (stripe, position). -/
def State.rebuildWork (s : State) : List (Nat × Nat) :=
  let sts := (sortByKey (fun (st : Stripe) => st.id) s.ftl.stripes).filter s.hasGone
  let ex := sts.filter s.isExposed
  let step1 := ex.flatMap fun st => ((s.mappedOffs st).filter (s.onGone st)).map fun o => (st.id, o)
  let step2 := ex.flatMap fun st => ((s.mappedOffs st).filter fun o => !s.onGone st o).map fun o => (st.id, o)
  let step3 := (sts.filter s.isReduced).flatMap fun st => ((s.mappedOffs st).filter (s.onGone st)).map fun o => (st.id, o)
  step1 ++ step2 ++ step3

def State.rebuilding (s : State) : Bool := s.rd Reg.STR_STATUS_REBUILD == 1

/-- STR_RBLD_REMAIN follows the work left; with none left the rebuild ends (R443). -/
def State.rebuildSettle (s : State) : State :=
  if !s.rebuilding then s
  else
    let n := s.rebuildWork.length
    let s1 := (s.modFtl fun f => { f with rebuildTotal := if n = 0 then 0 else max f.rebuildTotal n }).wr Reg.STR_RBLD_REMAIN_MIB (n * 4096 / mib)
    if n = 0 then ((s1.wr Reg.STR_STATUS_REBUILD 0).stripeEvent 8 0xFF 0xFFFF 0xFFFFFFFF 0 0xFFFFFFFFFFFFFFFF).raise 1708 else s1

/-- A link, die or block is gone: a rebuild starts, or its stripes join the one running. -/
def State.startRebuild (s : State) : State :=
  let s1 := s.showStripes
  let s2 := if s1.rebuilding then s1
    else ((s1.wr Reg.STR_STATUS_REBUILD 1).stripeEvent 7 0xFF 0xFFFF 0xFFFFFFFF 0 0xFFFFFFFFFFFFFFFF).raise 1708
  s2.rebuildSettle

/-- Something is missing for good: with work for it a rebuild starts, or its stripes join the one running (R443, R445). -/
def State.checkRebuild (s : State) : State := if s.rebuildWork.isEmpty then s.showStripes.rebuildSettle else s.startRebuild

/-- A stripe lost more members than its parity covers: an event for each one newly LOST (12 Table 12.9). -/
def State.noteLost (s old : State) : State :=
  (s.ftl.stripes.filter fun st => s.isLost st && !old.isLost st).foldl (fun t st => t.stripeEvent 9 0xFF 0xFFFF st.id 0 0xFFFFFFFFFFFFFFFF) s

/-- A block is retired in service: it holds nothing new; with mapped sectors on it a rebuild starts. -/
def State.retireLive (s : State) (m : Nat × Nat × Nat) : State :=
  let s1 := s.retireBlock m
  let held := s.ftl.stripes.any fun st => match s.band st.band with
    | some b => b.members.contains m && (s.mappedOffs st).any fun o => s.holder st o == some m
    | none => false
  (if held then s1.startRebuild else s1.showStripes).noteLost s

/-- A read met a failing member: its block is suspect, and three distinct stripes within 24 h retire it. -/
def State.suspect (s : State) (m : Nat × Nat × Nat) (stripe : Nat) : State :=
  let b := s.blk m
  let kept := (b.fails.filter fun f => s.now < f.2 + 86400000000000 && f.1 != stripe) ++ [(stripe, s.now)]
  let s1 := s.setBlk m { b with fails := kept }
  if 3 ≤ kept.length ∧ b.state ≠ 3 then s1.retireLive m else s1

/-- The program of a member fails: with mapped sectors on the retired block a rebuild starts (R430, R443). -/
def State.memberFailed (s : State) (i row m : Nat) : State := ((s.programFail i row m).checkRebuild).noteLost s

/-- Members on a link, or on one die of it, become missing; the blocks retired for it may start a rebuild (R430, R443). -/
def State.membersLost (s : State) (link : Nat) (die : Option Nat) (old : State) : State := ((s.loseMembers link die).checkRebuild).noteLost old

/-- The rebuild may write n bytes more now: STR_RBLD_RATE MB/s over each 100 ms (R445). -/
def State.rebuildOk (s : State) (n : Nat) : Bool :=
  s.rd Reg.STR_RBLD_RATE_MBPS == 0 || s.ftl.rebuildAt + 100000000 ≤ s.now || s.ftl.rebuildBytes + n ≤ s.rd Reg.STR_RBLD_RATE_MBPS * 100000

/-- The rebuild wrote n bytes. -/
def State.rebuildWrote (s : State) (n : Nat) : State :=
  s.modFtl fun f => if f.rebuildAt + 100000000 ≤ s.now then { f with rebuildAt := s.now, rebuildBytes := n } else { f with rebuildBytes := f.rebuildBytes + n }

/-! ### One sector of a read -/

/-- A sector rebuilt from the other members (R438): source 1,705 and its counts. -/
def State.countRebuilt (s : State) (nsid link : Nat) : State :=
  ((s.bump Reg.STR_COUNT_REBUILT_SECTORS).modHealth fun h => { h with rebuilt := bumpAt h.rebuilt nsid 1, linkReads := bumpAt h.linkReads link 1 }).raise 1705

/-- A sector that cannot be rebuilt (R439, R441): source 1,706. -/
def State.countUnreadable (s : State) (st : Stripe) (member link nsid lsa : Nat) : State :=
  ((s.modHealth fun h => { h with unreadable := bumpAt h.unreadable nsid 1 }).stripeEvent 2 member link st.id nsid lsa).raise 1706


/-- One sector at an SSA as its read returns it (01 R25 to R28): from its staging copy, else from its member, else rebuilt;
`i` is its index in the verdict. Answers its outcome (0 good, 1 unreadable). -/
def State.readAt (s : State) (v : Verdict) (i : Nat) (ssa : Nat) (p : Placed) : State × Nat :=
  let fail := v.failing.find? fun f => f.1 == i
  let s0 := match fail with | some f => if f.2.val = 2 then s.authFail else s | none => s
  if p.staged then (s0.readCopy ssa, if fail.isSome then 1 else 0)
  else match s.stripe (ssaStripe ssa) with
    | none => (s0, 1)
    | some st => match s.holder st (ssaOff ssa) with
      | none => (s0, 1)
      | some m =>
        let k := s.keySlot p.sec.slot
        let keyGone := p.sec.nsid != 0 && k.gen != p.sec.gen
        let mi := match s.band st.band with | some b => s.memberOf b (ssaOff ssa) | none => 0xFF
        let missing := s.memberMissing m || st.failedMembers.contains mi || (s.blk m).state == 3
        if !missing && fail.isNone && !keyGone then (s0.tally 0x50 4096, 0)
        else
          let s1 := if missing then s0 else s0.suspect m st.id
          let beyond := s.isLost st || (match s.band st.band with | some b => b.parity < s.missingOf st + (if missing then 0 else 1) | none => true)
          if beyond || keyGone || v.unrebuilt.contains i then (s1.countUnreadable st mi m.1 p.sec.nsid p.sec.lsa, 1)
          else (s1.countRebuilt p.sec.nsid m.1, 0)

/-! ### Garbage collection (11 R402): when it runs, what it moves next -/

def State.gcStart (s : State) : Nat := max 64 (s.allBands / 64)
def State.gcUrgent (s : State) : Nat := max 32 (s.allBands / 128)

/-- Garbage collection starts and ends by the count of free bands; urgency raises source 1,714. -/
def State.gcDecide (s : State) : State :=
  let f := s.freeBands
  let s1 := s.modFtl fun t => { t with gcRunning := f ≤ s.gcStart }
  if f < s.gcUrgent ∧ s1.rd Reg.FTL_STATUS_GC_URGENT = 0 then (s1.wr Reg.FTL_STATUS_GC_URGENT 1).raise 1714
  else if s.gcStart < f then s1.wr Reg.FTL_STATUS_GC_URGENT 0 else s1

/-- A band opened since the last look may start garbage collection. -/
def State.gcLook (s : State) : State := if s.ftl.bandsJournaled = s.ftl.nextBand then s else s.gcDecide

/-- The map still names something a relocation has not moved out of a stripe: positions mapped with no copy on its way. -/
def State.movable (s : State) (st : Stripe) : List Nat :=
  (s.mappedOffs st).filter fun o => !s.ftl.stripes.any fun x => x.state < 2 && x.data.any fun e => match e.2 with
    | some p => p.source == some (ssaOf st.id o)
    | none => false

def State.stripesOf (s : State) (b : Band) : List Stripe := s.ftl.stripes.filter fun st => st.band == b.id

def State.validOf (s : State) (b : Band) : Nat := ((s.stripesOf b).map fun st => (s.mappedOffs st).length).sum

/-- A slot with no invocation left keeps garbage collection from the bands of its namespaces (16 R582). -/
def State.exhaustedIn (s : State) (b : Band) : Bool :=
  (s.stripesOf b).any fun st => (s.mappedOffs st).any fun o => match st.posAt o with
    | some p => (match s.ns p.sec.nsid with | some n => (s.keySlot n.keySlot).state == 4 | none => false)
    | none => false

/-- The victim: among closed bands, those with a REDUCED stripe first, the fewest valid sectors (R402, R444). -/
def State.victim (s : State) : Option Band :=
  let cand := s.ftl.bands.filter fun b => b.state == 1 && b.kind ≤ 1 && !s.exhaustedIn b && (s.stripesOf b).all fun st => 2 ≤ st.state
  let red := cand.filter fun b => (s.stripesOf b).any s.isReduced
  (sortByKey s.validOf (if red.isEmpty then cand else red)).head?

/-- The first position of a band still to be moved. -/
def State.firstMovable (s : State) (b : Band) : Option Nat :=
  (s.stripesOf b).findSome? fun st => ((s.movable st).head?).map fun o => ssaOf st.id o

/-- While garbage collection is urgent, relocation stripes are filled before host stripes: where a sector is to move and a relocation band can take it,
no host sector goes to stage 5 (11 R402). -/
def State.gcFirst (s : State) : Bool :=
  s.rd Reg.FTL_STATUS_GC_URGENT == 1 && (match s.victim with | some b => (s.firstMovable b).isSome | none => false) && (s.bandWithRoom 1 0 1).isSome

end Sys2Proof.Machine
end

