-- ==== Sys2Proof/Machine/Path.lean ====
section
/-!
DEFINITION. Machine/Path.lean: the write path from fetch to completion (01 R20 to R24; 06 R179, R189, R196 to R207; 10 R352 to
R365; 11 R383, R385; 16 R569 to R581), deallocations, Flush, and the ends a write can come to.
-/
namespace Sys2Proof.Machine

/-! ### What every I/O command passes first -/

/-- The controller takes commands. -/
def State.ctrlRuns (s : State) (c : Nat) : Bool := s.mainUp && (s.ctrl c).rdy && !s.nvme.fetchStopped

/-- The device acts on a command: a controller that takes commands, or took this one before fetching stopped (20 R692); the management endpoint
while the main domain is up. -/
def State.acts (s : State) (c : Sqe) : Bool :=
  if c.mi then s.mainUp
  else s.ctrlRuns c.ctrl.val || (s.mainUp && (s.ctrl c.ctrl.val).rdy && s.nvme.outs.any fun o => o.ctrl == c.ctrl.val && o.sq == c.sq && o.cid == c.cid)

/-- I/O commands are answered without effect: PHASE RECOVERY (03 R88, 06 R215), sanitize in progress (R214), its failure state (R215; log entry 23), or
an SGL descriptor that is no Data Block, Segment or Last Segment (R185). -/
def State.ioGate (s : State) (c : Sqe) : Option Status :=
  if s.phase < 0xB then some stNotReady
  else if s.nvme.sanitize.action ≠ 0 then some stSanitizing
  else if s.nvme.sanitize.failed then some stSanitizeFailed
  else match c.sgl with
    | some l => if l.any fun t => t != 0 && t != 2 && t != 3 then some stSglType else none
    | none => none

/-- Vendor commands are refused in RETIRED or without an image (06 R225). -/
def State.vendorGate (s : State) : Option Status :=
  if s.lifecycle = 7 ∨ s.rd Reg.BEL_BOOT_STATUS_NO_IMAGE = 1 then some stSequence else none

/-- The namespace a command names, where it is exposed: RETIRED exposes none (03 R97). -/
def State.nsOf (s : State) (c : Sqe) : Option Ns :=
  match s.ns c.nsid with
  | some n => if n.attached && s.lifecycle != 7 then some n else none
  | none => none

/-- A range of logical blocks lies in the namespace. -/
def Ns.holds (n : Ns) (slba count : Nat) : Bool := slba + count ≤ n.blocks

/-- The sectors of a range of blocks. -/
def Ns.sectors (n : Ns) (slba count : Nat) : List Nat := (List.range (count * n.spb)).map fun i => slba * n.spb + i

/-- A fetched command is outstanding; its fetch order is the model's order of commands. -/
def State.fetched (s : State) (c : Sqe) : State :=
  if s.nvme.outs.any fun o => o.ctrl == c.ctrl.val && o.sq == c.sq && o.cid == c.cid then s
  else { s with nvme := { s.nvme with
    outs := s.nvme.outs ++ [⟨c.ctrl.val, c.sq, c.cid, s.nvme.fetchSeq, false, true⟩]
    fetchSeq := s.nvme.fetchSeq + 1 } }

/-- A fetched command may not be aborted (R197). -/
def State.noAbort (s : State) (c : Sqe) : State :=
  { s with nvme := { s.nvme with outs := s.nvme.outs.map fun (o : Out) =>
      if o.ctrl == c.ctrl.val && o.sq == c.sq && o.cid == c.cid then { o with abortable := false } else o } }

/-- When an admin command may run: any time (Identify, Get Log Page, Get Features, Abort, which a sanitize leaves, R214); not during a sanitize, but
in its failure state (those NVMe Base 2.0 allows there, log entry 23); or only outside both; a vendor command, which also R225 may refuse; Microcode Patch, for
which 13 R484 names the answer to a sanitize in progress. -/
inductive AdminKind where
  | always
  | service
  | plain
  | vendor
  | patch
  deriving DecidableEq, Repr

/-- What an admin command is turned away with before anything of its own: a sanitize (R214, R215), SGLs, which only I/O commands may use (R185), the gate
of R225. -/
def State.adminRefused (s : State) (c : Sqe) (kind : AdminKind) : Option Status :=
  if s.nvme.sanitize.action ≠ 0 ∧ kind ≠ .always ∧ kind ≠ .patch then some stSanitizing
  else if s.nvme.sanitize.failed && kind != .always && kind != .service then some stSanitizeFailed
  else if c.sgl.isSome && !c.mi then some stInvalidField
  else if kind = .vendor ∨ kind = .patch then s.vendorGate
  else none

/-- An admin command that the controller takes (or the management endpoint): turned away by `no`, or carried out. -/
def State.adminOr (s : State) (c : Sqe) (kind : AdminKind) (no : State → Status → State) (f : State → State) : State :=
  if !s.acts c then s
  else
    let s1 := if c.mi then s else s.fetched c
    match s.adminRefused c kind with
    | some st => no s1 st
    | none => f s1

def State.admin (s : State) (c : Sqe) (kind : AdminKind) (f : State → State) : State := s.adminOr c kind (fun t st => t.fail c st) f

/-! ### Overlaps (R204) -/

/-- The ranges of a write, in sectors. -/
def WCmd.ranges (c : WCmd) : List (Nat × Nat) := (runsOf (c.lsas.map fun l => (l, l))).map fun r => (r.1, r.2.1)

def rangesMeet (a b : List (Nat × Nat)) : Bool := a.any fun x => b.any fun y => x.1 < y.1 + y.2 && y.1 < x.1 + x.2

/-- A command fetched earlier and not yet completed overlaps the ranges. -/
def State.blocked (s : State) (id nsid : Nat) (rs : List (Nat × Nat)) : Bool :=
  (s.path.writes.any fun w => w.id < id && w.nsid == nsid && rangesMeet w.ranges rs) ||
  (s.path.trims.any fun t => t.id < id && t.nsid == nsid && rangesMeet t.ranges rs)

/-! ### Fine tables (11 R385) -/

/-- Fine tables a write may still take. -/
def State.needsOf (s : State) (w : WCmd) : Nat := (w.ranges.map fun r => s.fineNeeds w.nsid r.1 r.2 false).sum

/-- Free tables not promised to writes that have proceeded. -/
def State.fineAvail (s : State) : Nat :=
  s.fineFree - ((s.path.writes.filter fun w => w.asked != 0 && !w.ended).map s.needsOf).sum

def State.fineWaiting (s : State) : Bool := (s.path.writes.any fun w => w.fineWait.isSome) || (s.path.trims.any fun t => t.fineWait.isSome)

def State.showFineWait (s : State) : State := s.wr Reg.FTL_STATUS_FINE_WAIT (bit s.fineWaiting)

/-- A command that needs n tables may take them now. -/
def State.fineOk (s : State) (n : Nat) : Bool := n == 0 || (n ≤ s.fineAvail && !s.fineWaiting)

def State.modTrim (s : State) (id : Nat) (f : TrimCmd → TrimCmd) : State :=
  s.modPath fun p => { p with trims := p.trims.map fun t => if t.id == id then f t else t }

/-! ### The take directory -/

def State.modTakes (s : State) (f : Takes → Takes) : State := { s with takes := f s.takes }

/-- An entry of the take directory changes: GENERATION counts it (07 R293). -/
def State.dirTouch (s : State) : State := s.modTakes fun t => { t with generation := t.generation + 1 }

/-- A change of the directory that its sectors hold: they are written. -/
def State.dirChange (s : State) : State :=
  let n := s.ftl.takeDir + 1
  (s.dirTouch.modFtl fun f => { f with takeDir := n }).putMeta (.takeDir n) 0 (padTo 4096 (Config.takeDirSector n))

def State.takeOf (s : State) (num : Nat) : Option Take := s.takes.dir.find? fun t => t.num == num

/-! ### Deallocations (06 R207, 11 R411) -/

/-- The bands that hold a copy of a sector of the ranges (11 R412). -/
def State.bandsHolding (s : State) (nsid : Nat) (rs : List (Nat × Nat)) : List Nat :=
  (s.ftl.bands.filter fun b => b.state != 3 && s.ftl.stripes.any fun st => st.band == b.id && st.data.any fun e => match e.2 with
    | some p => p.sec.nsid == nsid && rangesMeet [(p.sec.lsa, 1)] rs
    | none => false).map fun b => b.id

/-- After its ranges are deallocated a Shred waits for the bands that hold copies to be relocated and erased (R209): they take
no further stripe. With no copy left it completes. -/
def State.shredStart (s : State) (t : TrimCmd) : State :=
  let bands := s.bandsHolding t.nsid t.ranges
  if bands.isEmpty then s.succeed t.sqe
  else (bands.foldl (fun u b => u.stopBand b 0) s).modFtl fun f => { f with shreds := f.shreds ++ [⟨t.sqe, bands, 0, false⟩] }

/-- Bytes of a clip's records that were recorded while ARMED: with a Delete they are ring bytes discarded (R280; DEDUCED, log entry 64). -/
def Clip.ringBytes (c : Clip) : Nat := 4096 * ((c.recs.filter fun r => r.flags.testBit 1).map fun r => r.sectors).sum

/-- A take's units are deallocated: it leaves the directory (07 R284). -/
def State.takeGone (s : State) (c : Sqe) : State :=
  match s.takeOf (leAt c.data 0 4) with
  | none => s.fail c (stVendor 0x80 true)
  | some t =>
    let n := (t.clips.map Clip.ringBytes).sum
    (((s.modTakes fun x => { x with dir := x.dir.filter (fun y => y.num != t.num), discardTotal := x.discardTotal + n }).tally 0x60 n).dirChange).succeed c

/-- A deallocation takes effect: one SEQ a range; then it completes, a Write Zeroes fetched while DEGRADED as write-through. -/
def State.trimNow (s : State) (t : TrimCmd) : State :=
  let r := t.ranges.foldl (fun (o : Option State) x => match o with | some u => u.trim t.nsid x.1 x.2 | none => none) (some s)
  match r with
  | none => s
  | some s1 =>
    let s2 := (s1.modPath fun p => { p with trims := p.trims.filter fun x => x.id != t.id }).showFineWait
    if t.kind = 2 then s2.shredStart t
    else if t.kind = 3 then s2
    else if t.kind = 4 then s2.takeGone t.sqe
    else s2.complete t.sqe stOk (if t.wt then 0xB0 else 0) 0 []

def State.trimNeeds (s : State) (t : TrimCmd) : Nat := (t.ranges.map fun r => s.fineNeeds t.nsid r.1 r.2 true).sum

/-- A deallocation goes on where it may: no earlier overlap, no entry of its sectors being rebuilt (17 R609), and the tables it needs (R385). -/
def State.trimGo (s : State) (t : TrimCmd) : State :=
  if t.fineWait.isSome || s.blocked t.id t.nsid t.ranges || s.entryHeld t.nsid (t.ranges.flatMap fun r => List.range' r.1 r.2) then s
  else if s.fineOk (s.trimNeeds t) then s.trimNow t
  else ((s.modTrim t.id fun x => { x with fineWait := some s.ftl.fineWaitSeq }).modFtl fun f => { f with fineWaitSeq := f.fineWaitSeq + 1 }).showFineWait.raise 1711

/-- A write goes on to its first chunk request where it may: no earlier overlap, no entry of its sectors being rebuilt, its key slot not being changed
since before its fetch (16 R590), and the tables it needs. -/
def State.writeGo (s : State) (w : WCmd) : State :=
  if w.asked ≠ 0 || w.ended || w.fineWait.isSome || s.blocked w.id w.nsid w.ranges || s.entryHeld w.nsid w.lsas then s
  else if w.keyWait && (match s.ns w.nsid with | some n => (s.keySlot n.keySlot).state == 5 | none => false) then s
  else if s.fineOk (s.needsOf w) then (s.modW w.id fun x => { x with asked := 1 }).askChunk w (w.kind != WKind.write)
  else ((s.modW w.id fun x => { x with fineWait := some s.ftl.fineWaitSeq }).modFtl fun f => { f with fineWaitSeq := f.fineWaitSeq + 1 }).showFineWait.raise 1711

/-- Commands that wait go on, in the order of their fetch. -/
def State.progress (s : State) : State :=
  let ids := sortByKey id (s.path.writes.map (fun w => w.id) ++ s.path.trims.map fun t => t.id)
  ids.foldl (fun u i => match u.wcmd i with
    | some w => u.writeGo w
    | none => match u.path.trims.find? fun t => t.id == i with
      | some t => u.trimGo t
      | none => u) s

/-! ### Coarse slots cut by a stripe close (11 R383) -/

/-- The sectors of an incomplete coarse slot move to a coarse slot of another stripe where no fine table is free. -/
def State.moveSlot (s : State) (st : Stripe) (c : CoarseSlot) : State :=
  if s.fineFree ≠ 0 then s
  else (List.range 512).foldl (fun t k => match st.posAt (c.off + k) with
    | some p =>
      if p.owner == c.owner && p.sec.nsid == c.nsid && p.sec.lsa / 512 == c.unit then
        match t.assemble 0 0 true { p with resent := true } with
        | some (u, b) =>
          let a := ssaOf st.id (c.off + k)
          ((u.leaveWindow a).modPath fun x => { x with writes := x.writes.map fun w => { w with places := replaceNat a b w.places } }).modFtl fun f =>
            { f with units := f.units.map fun x => { x with ssas := replaceNat a b x.ssas } }
        | none => t
      else t
    | none => t) s

def State.coarseMoves (s : State) : State :=
  (s.ftl.stripes.filter fun st => st.state != 0 && !st.slots.isEmpty).foldl (fun t st =>
    (st.slots.foldl (fun u c => u.moveSlot st c) t).modStripe st.id fun x => { x with slots := [] }) s

/-- What follows any change of the write path: coarse slots cut, durable stripes, completions, then the commands that waited. -/
def State.settle (s : State) : State := s.coarseMoves.gcLook.settleStripes.progress.rebuildSettle.showStripes

/-! ### How a write ends without success -/

/-- Bytes a requester holds in the ingress pool. -/
def State.ingressOf (s : State) (r : Nat) : Nat := mapGet (fun _ => 0) s.win.ingress r

def State.ingressAdd (s : State) (r n : Nat) : State := s.modWin fun w => { w with ingress := mapSet (fun _ => 0) w.ingress r (s.ingressOf r + n) }
def State.ingressSub (s : State) (r n : Nat) : State := s.modWin fun w => { w with ingress := mapSet (fun _ => 0) w.ingress r (s.ingressOf r - n) }

/-- Space for n more bytes of a requester: its own 512 KiB, then the 512 KiB that goes to whoever asks (10 R352). -/
def State.ingressRoom (s : State) (r n : Nat) : Bool :=
  let excess (x : Nat) : Nat := x - 524288
  excess (s.ingressOf r + n) + ((((List.range 5).filter fun i => i != r).map fun i => excess (s.ingressOf i)).sum) ≤ 524288

/-- A write leaves the path (R365): its waiting request, its bytes not assembled, its invocations not used. A failed one leaves
no atomic unit; one ended by a reset leaves those whose sectors have all reached stage 5, and stays outstanding until they
are resolved (03 R80). -/
def State.dropWrite (s : State) (c : WCmd) (reset : Bool) : State :=
  let s1 := s.withdraw c.id
  let held := c.fetched - 4096 * c.places.length
  let stuck := (s.path.stuck.filter fun x => x.2.1 == c.id).length
  let s2 := ((s1.ingressSub c.src (held - 4096 * stuck)).occDrop held).modPath fun p => { p with stuck := p.stuck.filter fun x => x.2.1 != c.id }
  let s3 := if c.reservedInv then (match s2.ns c.nsid with | some n => s2.unclaimInv n.keySlot (c.lsas.length - c.places.length - stuck) | none => s2) else s2
  let s4 := s3.modFtl fun f => { f with units := f.units.filter fun u => u.owner != c.id || (reset && u.complete) }
  let s5 := if reset && s4.ftl.units.any (fun u => u.owner == c.id) then s4.modW c.id fun x => { x with ended := true, arrived := [], fineWait := none }
    else s4.modPath fun p => { p with writes := p.writes.filter fun x => x.id != c.id }
  s5.showFineWait.showWt

/-- A write fails with a status (R196, R199); the take service hears of its own. -/
def State.failWrite (s : State) (c : WCmd) (st : Status) : State :=
  let s1 := s.dropWrite c false
  let s2 := match c.kind with
    | .write => s1.fail c.sqe st
    | _ => s1.modPath fun p => { p with failed := p.failed ++ [(c, st)] }
  s2.progress

/-! ### Fetching a Write -/

/-- A write that needs space while spare is 0 (11 R416). -/
def State.needsSpace (s : State) (nsid : Nat) (lsas : List Nat) : Bool :=
  (lsas.any fun l => (s.locate nsid l).isNone) && s.spareUnits == 0

/-- A new command of the write path. -/
def State.newWrite (s : State) (kind : WKind) (src : Nat) (c : Sqe) (nsid : Nat) (lsas : List Nat) (fua : Bool) : WCmd :=
  { id := s.path.nextId, src := src, sqe := c, kind := kind, nsid := nsid, lsas := lsas, fua := fua, fineWait := none,
    keyWait := match s.ns nsid with | some n => (s.keySlot n.keySlot).state == 5 | none => false,
    asked := 0, granted := 0, fetched := 0, wt := none, arrived := [], places := [], accepted := 0, reservedInv := false,
    seqFirst := 0, ended := false, stream := 0, tag := 0, frameSeq := 0, last := false, index := 0, readyAt := 0, mute := false }

def State.addWrite (s : State) (w : WCmd) : State :=
  (s.modPath fun p => { p with writes := p.writes ++ [w], nextId := p.nextId + 1 }).writeGo w

/-- The status a Write is turned away with, in order. -/
def State.writeRefused (s : State) (c : Sqe) : Option Status :=
  match s.ioGate c with
  | some st => some st
  | none => match s.nsOf c with
    | none => some stInvalidNs
    | some n =>
      if n.take then some stWriteProtected
      else if 16777216 < c.nlb * n.spb * 4096 then some stInvalidField
      else if !n.holds c.slba c.nlb then some stLbaRange
      else if (s.keySlot n.keySlot).state = 0 ∨ (s.keySlot n.keySlot).state = 6 then some (stVendor 0x95 true)
      else if s.needsSpace c.nsid (n.sectors c.slba c.nlb) then some (stVendor 0xA4 true)
      else none

/-- WRITE (06 R184, R204; 10 R361): fetched, checked, and on its way to its first chunk request. -/
def State.writeCmd (s : State) (c : Sqe) : State :=
  let s1 := s.fetched c
  match s.writeRefused c, s.nsOf c with
  | some st, _ => s1.fail c st
  | none, some n => s1.addWrite (s1.newWrite .write c.ctrl.val c c.nsid (n.sectors c.slba c.nlb) c.fua)
  | none, none => s1

def execWrite (c : Sqe) (s : State) : Host.Outcome State Fault Refusal :=
  .next (if s.acts c then s.writeCmd c else s)

/-! ### Data arriving (10 R352, stage 3) -/

/-- Tuples of a block as the envelope carries them: generated under PRACT, else as the host sent them. -/
def Ns.blockPi (n : Ns) (c : Sqe) (i : Nat) (block pi : List Byte) : List Byte :=
  if n.piBytes = 0 then [] else if c.pract && n.piType != 0 then n.makePi c i block else pi

/-- A data request of a controller ended poisoned or in error (R179): its source, and what Advanced Error Reporting keeps: Poisoned TLP Received, and for an
error reported as correctable Advisory Non-Fatal Error (bits of PCIe Base 6.0, PRESUMED, log entry 23). -/
def State.aerReport (s : State) (c result : Nat) : State :=
  let or1 (m : SMap Word) (off : Nat) (b : Nat) : SMap Word := mapSet (fun _ => 0) m off (mapGet (fun _ => 0) m off ||| BitVec.ofNat 32 (2 ^ b))
  (s.modPcie c fun x => { x with words := or1 (if result = 1 then or1 x.words 0x110 13 else x.words) 0x104 12 }).raise (1536 + 4 * c + result)

/-- The data of a logical block of a Write arrives: `result` 0 good, 1 and 2 poisoned or in error, as a correctable and as an
uncorrectable error (R179). With extended LBAs the metadata follows the block's data in `host` (R187). Of several blocks that fail the check the first to
arrive gives the status (DESIGN CHOICE, log entry 46: the manual does not say which is first where blocks arrive out of order). -/
def State.arriveWrite (s : State) (w : WCmd) (block : Nat) (host sep : List Byte) (result : Nat) : State :=
  match s.ns w.nsid with
  | none => s
  | some n =>
    let size := 4096 * n.spb
    let first := block * n.spb
    let data := if n.extended then host.take size else host
    let pi := if n.extended then (host.drop size).take n.piBytes else sep
    if w.ended ∨ w.lsas.length < first + n.spb ∨ w.granted < (block + 1) * size ∨ first < w.places.length ∨
        (mapGet (fun _ => none) w.arrived first).isSome ∨ !s.ingressRoom w.src size then s
    else if result ≠ 0 then (s.aerReport w.src result).failWrite w stDataTransfer
    else
      match (if w.sqe.pract then none else n.checkPi w.sqe block data pi) with
      | some st => s.failWrite w st
      | none =>
        let p := piField (n.blockPi w.sqe block data pi)
        let s1 := s.modW w.id fun x => { x with
          fetched := x.fetched + size
          arrived := (List.range n.spb).foldl (fun m k => mapSet (fun _ => none) m (first + k) (some (slice data (4096 * k) 4096, p))) x.arrived }
        s1.ingressAdd w.src size

/-! ### Stage 4 and 5 -/

/-- Sectors of a command that go on without a gap from one, inside its 16 MiB region (11 R393). -/
def unitRun : List Nat → Nat → Nat
  | [], _ => 0
  | l :: rest, want => if l = want ∧ l % 4096 ≠ 0 then 1 + unitRun rest (want + 1) else 0

/-- The atomic unit of a command takes its next sector. -/
def State.unitAdd (s : State) (w : WCmd) (i lsa seq ssa : Nat) : State :=
  match s.ftl.units.find? fun u => u.owner == w.id && !u.complete && u.lsa + u.ssas.length == lsa with
  | some u => s.modFtl fun f => { f with units := f.units.map fun x =>
      if x == u then { u with ssas := u.ssas ++ [ssa], seqLast := seq, complete := u.ssas.length + 1 == u.count } else x }
  | none =>
    let n := 1 + unitRun (w.lsas.drop (i + 1)) (lsa + 1)
    s.modFtl fun f => { f with units := f.units ++ [⟨w.id, w.nsid, lsa, n, [ssa], seq, seq, n == 1⟩] }

/-- The command covers the whole map unit of a sector. -/
def WCmd.coversUnit (w : WCmd) (lsa : Nat) : Bool := (w.lsas.filter fun l => l / 512 == lsa / 512).length == 512

/-- Stage 5: a sector that has left stage 4 is assembled into a stripe; nothing where no stripe or assembly space has room. -/
def State.placeSector (s : State) (w : WCmd) (pick : Nat) (p : Placed) : Option State :=
  let i := w.places.length
  ((s.fillBands 128).assemble 0 pick (w.coversUnit p.sec.lsa) p).map fun r =>
    ((r.1.modW w.id fun x => { x with
      places := x.places ++ [r.2]
      fetched := max x.fetched (4096 * (i + 1))
      seqFirst := if i = 0 then p.sec.seq else x.seqFirst }).unitAdd w i p.sec.lsa p.sec.seq r.2).settle

/-- A lane that holds a sector stage 5 had no room for: the sector is assembled where it now has (R356). -/
def State.unstick (s : State) (pick : Nat) (x : Nat × Nat × Placed) : State :=
  let s1 := s.modPath fun p => { p with stuck := p.stuck.filter fun y => y.1 != x.1 }
  match s1.wcmd x.2.1 with
  | none => s1
  | some w => (s1.placeSector w pick x.2.2).getD s

/-- A write whose protection information is checked and whose data the requester's own ingress space can hold enters stage 4 when all of it
has passed stage 3, so that none of a failing one does (01, after Table 1.2; log entry 54). -/
def WCmd.waitsCheck (w : WCmd) (n : Ns) : Bool :=
  w.kind == .write && n.piType != 0 && !w.sqe.pract && 4096 * w.lsas.length ≤ 524288 && w.places.isEmpty && w.arrived.length != w.lsas.length

/-- A lane takes the next sector of a command (10 R353; 16 R569 to R581): at the first sector the invocations of all are
reserved; then the sector takes its SEQ, is encrypted, and is assembled into a stripe. It is not taken while its slot may
not encrypt, no SEQ may be assigned, or relocation comes first (11 R402); where stage 5 has no room for it, it stays in the lane, which takes no other (R356), and its
command's next sector waits for it. `fault`: a parity check of the lane failed, and whether the
lane then passes its known-answer test; the sector runs again on another lane. -/
def State.encryptNext (s : State) (lane : Nat) (w : WCmd) (pick : Nat) (fault : Option Bool) : State :=
  match s.path.stuck.find? fun x => x.1 == lane with
  | some x => s.unstick pick x
  | none =>
  let i := w.places.length
  match s.ns w.nsid, mapGet (fun _ => none) w.arrived i with
  | some n, some (payload, pi) =>
    if w.ended ∨ !s.laneOk lane ∨ w.granted < 4096 * (i + 1) ∨ (s.path.stuck.any fun x => x.2.1 == w.id) ∨ w.waitsCheck n ∨ s.gcFirst then s
    else
      let k := n.keySlot
      match (if w.reservedInv then some s else (s.claimInv k w.lsas.length).map fun t => t.modW w.id fun x => { x with reservedInv := true }) with
      | none => s.failWrite w (stVendor 0x91 true)
      | some s1 => match fault with
        | some pass => (s1.laneFault lane).laneKat lane pass
        | none =>
          if payload.length ≠ 4096 ∨ pi.length ≠ 16 then
            (s1.wr (Reg.CPH_LANE_STATUS_LENGTH_ERR lane) 1).failWrite { w with reservedInv := true } (stVendor 0x90 true)
          else if !s1.encryptReady k false then s1
          else match s1.takeSeq with
            | none => s1.raiseCeil
            | some (q, s2) =>
              let lsa := w.lsas.getD i 0
              let p : Placed := ⟨⟨w.nsid, lsa, q, pi, payload, k, (s.keySlot k).gen⟩, w.id, q, false, none, false, true⟩
              let s3 := (((s2.modW w.id fun x => { x with arrived := mapSet (fun _ => none) x.arrived i none }).countEncrypt k false).laneUse lane k).ingressSub w.src 4096
              match s3.raiseCeil.placeSector w pick p with
              | none => s3.raiseCeil.modPath fun x => { x with stuck := x.stuck ++ [(lane, w.id, p)] }
              | some s4 => s4
  | _, _ => s

/-- The DRAM copy of the next assembled sector is accepted into its channels' write queues (R21, stage 6b); without room there it waits. -/
def State.acceptCopy (s : State) (w : WCmd) : State :=
  match w.places[w.accepted]? with
  | none => s
  | some a => match (match s.stripe (ssaStripe a) with | some st => if st.state = 2 then some s else s.stageCopy a | none => some s) with
   | none => s
   | some s0 =>
    let s1 := s0.modStripe (ssaStripe a) fun st => if st.state = 2 then st else { st with
      data := st.data.map fun (e : Nat × Option Placed) => if e.1 == ssaOff a then (e.1, e.2.map fun p => { p with staged := true }) else e }
    let s2 := s1.modW w.id fun x => { x with accepted := x.accepted + 1, readyAt := s.now }
    s2.settle

/-! ### Fine tables free -/

/-- The command that has waited longest for fine tables. -/
def State.firstFine (s : State) : Option Nat :=
  let l := (s.path.writes.filterMap fun w => w.fineWait.map fun q => (q, w.id)) ++ s.path.trims.filterMap fun t => t.fineWait.map fun q => (q, t.id)
  ((sortByKey (fun (x : Nat × Nat) => x.1) l).head?).map fun x => x.2

/-- FINE_TABLE_WAIT_PROCEED: the first command proceeds when the tables it needs are free (R385). -/
def State.fineProceed (s : State) : State :=
  match s.firstFine with
  | none => s
  | some i => match s.wcmd i with
    | some w => if s.needsOf w ≤ s.fineAvail then ((s.modW i fun x => { x with fineWait := none, asked := 1 }).askChunk w (w.kind != WKind.write)).showFineWait else s
    | none => match s.path.trims.find? fun t => t.id == i with
      | some t => if s.trimNeeds t ≤ s.fineAvail then ((s.modTrim i fun x => { x with fineWait := none }).trimNow { t with fineWait := none }).showFineWait.progress else s
      | none => s

/-! ### Write Zeroes, Dataset Management, Shred -/

/-- A deallocation joins the commands of the path and goes on where it may. -/
def State.queueTrim (s : State) (kind : Nat) (c : Sqe) (nsid : Nat) (ranges : List (Nat × Nat)) : State :=
  let t : TrimCmd := ⟨s.path.nextId, kind, c, nsid, ranges, none, s.degraded && kind == 0⟩
  (s.modPath fun p => { p with trims := p.trims ++ [t], nextId := p.nextId + 1 }).trimGo t

def State.addTrim (s : State) (kind : Nat) (c : Sqe) (ranges : List (Nat × Nat)) : State := (s.queueTrim kind c c.nsid ranges).settle

/-- The ranges of a Dataset Management list: 16 bytes each, length at byte 4, starting LBA at byte 8. -/
def rangeList (d : List Byte) (n : Nat) : List (Nat × Nat) := (List.range n).map fun i => (leAt d (16 * i + 8) 8, leAt d (16 * i + 4) 4)

/-- Ranges in sectors; those of length 0 fall away. -/
def Ns.sectorRanges (n : Ns) (l : List (Nat × Nat)) : List (Nat × Nat) := (l.filter fun r => r.2 != 0).map fun r => (r.1 * n.spb, r.2 * n.spb)

/-- The checks of a deallocation of ranges of blocks. -/
def State.rangesRefused (s : State) (c : Sqe) (l : List (Nat × Nat)) : Option Status :=
  match s.ioGate c with
  | some st => some st
  | none => match s.nsOf c with
    | none => some stInvalidNs
    | some n =>
      if n.take then some stWriteProtected
      else if l.any fun r => !n.holds r.1 r.2 then some stLbaRange
      else none

def State.dealloc (s : State) (kind : Nat) (c : Sqe) (l : List (Nat × Nat)) : State :=
  let s1 := s.fetched c
  match s.rangesRefused c l, s.nsOf c with
  | some st, _ => s1.fail c st
  | none, some n => s1.addTrim kind c (n.sectorRanges l)
  | none, none => s1

/-- DATASET_MANAGEMENT: up to 256 ranges; without the Deallocate attribute nothing is done (06 Table 6.6). -/
def State.datasetMgmt (s : State) (c : Sqe) : State :=
  s.dealloc 1 c (if c.cdw11.getLsbD 2 then rangeList c.data (bitsOf c.cdw10 0 8 + 1) else [])

/-- SHRED (R208): more than 4 GiB in all, or CDW11 bit 2 clear, is an invalid field. -/
def State.shred (s : State) (c : Sqe) : State :=
  let l := rangeList c.data (bitsOf c.cdw10 0 8 + 1)
  match s.vendorGate with
  | some st => (s.fetched c).fail c st
  | none => match s.rangesRefused c [], s.nsOf c with
    | none, some n =>
      if !c.cdw11.getLsbD 2 ∨ 4294967296 < ((l.map fun r => r.2).sum) * n.spb * 4096 then (s.fetched c).fail c stInvalidField
      else s.dealloc 2 c l
    | _, _ => s.dealloc 2 c l

/-! ### Flush (R200) -/

/-- Stripes that are not durable and hold data of completed writes. -/
def State.undurable (s : State) : List Nat :=
  (s.ftl.stripes.filter fun st => st.state != 2 && st.data.any fun e => match e.2 with
    | some p => p.window && p.sec.nsid != 0 && !s.path.writes.any fun w => w.id == p.owner
    | none => false).map fun st => st.id

/-- FLUSH: waits for every write whose completion was posted before its fetch. -/
def State.flushCmd (s : State) (c : Sqe) : State :=
  let s1 := s.fetched c
  match s.ioGate c with
  | some st => s1.fail c st
  | none =>
    if c.nsid ≠ 0xFFFFFFFF ∧ (s.nsOf c).isNone then s1.fail c stInvalidNs
    else (s1.modPath fun p => { p with waits := p.waits ++ [⟨0, c, s.undurable, s.now⟩] }).settle

def execFlush (c : Sqe) (s : State) : Host.Outcome State Fault Refusal :=
  .next (if s.acts c then s.flushCmd c else s)

/-! ### Reads (01 R25 to R28; 06 R188, R190, R192, R203) -/


/-- One sector of a read: its payload and tuple, and its outcome. -/
def State.readSector (s : State) (v : Verdict) (n : Ns) (i : Nat) (src : ReadSrc) : State × RdSector :=
  match src with
  | .synth b p => (s, ⟨b, p, 0, noSsa⟩)
  | .sector lsa =>
    if s.ftl.unreadable.contains (n.nsid, lsa) then (s, ⟨[], [], 1, noSsa⟩)
    else if s.ftl.disagree.contains (n.nsid, lsa) then (s, ⟨[], [], 2, noSsa⟩)
    else match s.locate n.nsid lsa with
      | none => (s, ⟨List.replicate 4096 0, [], 3, noSsa⟩)
      | some a => match s.placed a with
        | none => (s, ⟨[], [], 1, a⟩)
        | some p =>
          if !(s.keySlot n.keySlot).readable && (s.keySlot n.keySlot).state != 5 then (s, ⟨[], [], 4, a⟩)
          else
            let r := s.readAt v i a p
            (r.1, ⟨p.sec.payload, p.sec.pi, r.2, a⟩)

/-- The sectors of a read, in order. -/
def State.readSectors (s : State) (v : Verdict) (n : Ns) : Nat → List ReadSrc → State × List RdSector
  | _, [] => (s, [])
  | i, x :: l =>
    let r := s.readSector v n i x
    let t := r.1.readSectors v n (i + 1) l
    (t.1, r.2 :: t.2)

/-- The status of a failed sector outcome. -/
def readStatus (code : Nat) : Option Status :=
  if code = 1 then some (stVendor 0xA0 true) else if code = 2 then some (stVendor 0xA1 true)
  else if code = 4 then some (stVendor 0x95 true) else none

/-- A block of a read: its status, its bytes, its tuple. -/
def Ns.readBlock (n : Ns) (c : Sqe) (i : Nat) (secs : List RdSector) : Option Status × List Byte × List Byte :=
  let data := secs.flatMap fun x => x.payload
  match secs.findSome? fun x => readStatus x.code with
  | some st => (some st, [], [])
  | none =>
    let pi := if n.piBytes = 0 then [] else if secs.all fun x => x.code == 3 then n.holePi c i else ((secs.headD ⟨[], [], 0, 0⟩).pi).take n.piBytes
    (n.checkPi c i data pi, data, pi)

/-- The blocks of a read, in order: the first failing status, or the data and the tuples. -/
def Ns.readBlocks (n : Ns) (c : Sqe) (secs : List RdSector) : Nat → Nat → Option Status × List Byte × List Byte
  | 0, _ => (none, [], [])
  | k + 1, i =>
    match n.readBlock c i ((secs.drop (i * n.spb)).take n.spb) with
    | (some st, _, _) => (some st, [], [])
    | (none, d, p) => match n.readBlocks c secs k (i + 1) with
      | (some st, _, _) => (some st, [], [])
      | (none, d2, p2) => (none, d ++ d2, p ++ p2)

/-- Where the SMART count of media and data integrity errors is kept (a NVMe Base 2.0 field, PRESUMED, log entry 42): reads that returned 0xA0 or
0xA1, and sectors found lost. -/
def mediaErrors : Nat := 0x200

/-- What a read transfers: the data, then the tuples of a separate metadata buffer; with extended LBAs each block with its tuple after it (R187). -/
def Ns.transfer (n : Ns) (blocks : Nat) (d p : List Byte) : List Byte :=
  if n.extended && !p.isEmpty then (List.range blocks).flatMap fun i => slice d (4096 * n.spb * i) (4096 * n.spb) ++ slice p (n.piBytes * i) n.piBytes
  else d ++ p

/-- A read completes: with its first failing block's status; else with the data, and its tuples unless PRACT strips them. -/
def State.finishRead (s : State) (c : Sqe) (n : Ns) (verify : Bool) (secs : List RdSector) : State :=
  match n.readBlocks c secs c.nlb 0 with
  | (some st, _, _) => (if st = stVendor 0xA0 st.dnr ∨ st = stVendor 0xA1 st.dnr then s.note mediaErrors 1 else s).fail c st
  | (none, d, p) =>
    let s1 := if verify then s else (s.modPath fun x => { x with unitsRead := x.unitsRead + d.length, hostReads := x.hostReads + 1 }).tally 0x40 d.length
    s1.complete c stOk 0 0 (if verify then [] else n.transfer c.nlb d (if c.pract && n.piType != 0 then [] else p))

/-- A read whose sectors are there: its data is returned as the read meter allows (20 R691); a Verify returns none. -/
def State.giveRead (s : State) (c : Sqe) (n : Ns) (verify : Bool) (secs : List RdSector) : State :=
  let bytes := 4096 * secs.length
  if verify then s.finishRead c n verify secs
  else if s.readMay bytes then (s.readCharge bytes).finishRead c n verify secs
  else s.modPath fun p => { p with reads := p.reads ++ [⟨p.nextId, c, verify, secs, [], [], s.now, none⟩], nextId := p.nextId + 1 }

/-- What a Read or Verify is turned away with. -/
def State.readRefused (s : State) (c : Sqe) : Option Status :=
  match s.ioGate c with
  | some st => some st
  | none => match s.nsOf c with
    | none => some stInvalidNs
    | some n =>
      if 16777216 < c.nlb * n.spb * 4096 then some stInvalidField
      else if !n.holds c.slba c.nlb then some stLbaRange
      else none

/-- A read is carried out: late members keep it open (12 R440). -/
def State.startRead (s : State) (c : Sqe) (n : Ns) (v : Verdict) (verify : Bool) (srcs : List ReadSrc) : State :=
  let r := s.readSectors v n 0 srcs
  let late := v.late.filter fun i => match r.2[i]? with
    | some x => x.code == 0 && (match s.placed x.ssa with | some p => !p.staged | none => false)
    | none => false
  if late.isEmpty then r.1.giveRead c n verify r.2
  else r.1.modPath fun p => { p with reads := p.reads ++ [⟨p.nextId, c, verify, r.2, late, [], s.now, none⟩], nextId := p.nextId + 1 }

/-- Its sectors of the namespace. -/
def readLsas (srcs : List ReadSrc) : List Nat := srcs.filterMap fun x => match x with | .sector l => some l | .synth _ _ => none

/-- A Read or Verify whose sectors come from `src`; it waits while an entry of theirs is being rebuilt (17 R609). -/
def State.readCmd (s : State) (c : Sqe) (v : Verdict) (verify : Bool) (src : Nat → ReadSrc) : State :=
  let s1 := s.fetched c
  match s.readRefused c, s.nsOf c with
  | some st, _ => s1.fail c st
  | none, none => s1
  | none, some n =>
    let srcs := (n.sectors c.slba c.nlb).map src
    if s.entryHeld n.nsid (readLsas srcs) then
      s1.modPath fun p => { p with reads := p.reads ++ [⟨p.nextId, c, verify, [], [], [], s.now, some (v, srcs)⟩], nextId := p.nextId + 1 }
    else s1.startRead c n v verify srcs

/-- A read that is kept open goes on where it may: what it waited for has been rebuilt, or the meter has filled enough for it. -/
def State.readGo (s : State) (r : RdCmd) : State :=
  let out := s.modPath fun p => { p with reads := p.reads.filter fun x => x.id != r.id }
  match s.nsOf r.sqe with
  | none => if r.late.isEmpty then out.fail r.sqe stInvalidNs else s
  | some n => match r.held with
    | some (v, srcs) => if s.entryHeld n.nsid (readLsas srcs) then s else out.startRead r.sqe n v r.verify srcs
    | none =>
      if r.late.isEmpty && (s.rd Reg.PWR_STATUS_CAPPED != 1 || decide (4096 * r.got.length ≤ s.readTokensNow)) then
        (out.readCharge (4096 * r.got.length)).finishRead r.sqe n r.verify r.got
      else s

/-- Reads that are kept open go on, in the order of their fetch; the meter's keep theirs. -/
def State.readsGo (s : State) : State :=
  let open' := s.path.reads.filter fun r => r.late.isEmpty
  let metered := (open'.filter fun r => r.held.isNone).take 1
  (metered ++ open'.filter fun r => r.held.isSome).foldl State.readGo s

/-- A member's read returns (or its reconstruction does) for a sector still out: when none is left the read completes. -/
def State.readReturn (s : State) (id i : Nat) (code : Nat) : State :=
  match s.path.reads.find? fun r => r.id == id with
  | none => s
  | some r =>
    if !r.late.contains i then s
    else
      let r2 := { r with late := r.late.filter (fun x => x != i), got := modAt r.got i fun x => { x with code := code } }
      let s1 := s.modPath fun p => { p with reads := p.reads.map fun x => if x.id == id then r2 else x }
      if r2.late.isEmpty then
        let s2 := s1.modPath fun p => { p with reads := p.reads.filter fun x => x.id != id }
        match s2.nsOf r.sqe with
        | some n => s2.giveRead r.sqe n r.verify r2.got
        | none => s2.fail r.sqe stInvalidNs
      else s1

/-- A member's read ends late with its own data, good or failing its checks; failing, the sector is rebuilt or unreadable. -/
def State.lateEnd (s : State) (id i : Nat) (good rebuilt : Bool) : State :=
  match s.path.reads.find? fun r => r.id == id with
  | none => s
  | some r => match r.got[i]? with
    | none => s
    | some x => match s.placed x.ssa with
      | none => s.readReturn id i 1
      | some p =>
        if good then s.readReturn id i 0
        else
          let v : Verdict := ⟨[(i, 0)], if rebuilt then [] else [i], []⟩
          let t := s.readAt v i x.ssa p
          t.1.readReturn id i t.2

/-- READ_HEDGE_TIMEOUT (R440): 5 ms after a member's read was issued a degraded read of the same sector starts; `win` says that
its result is the first to pass its checks. -/
def State.hedge (s : State) (id i : Nat) (win : Bool) : State :=
  match s.path.reads.find? fun r => r.id == id with
  | none => s
  | some r =>
    if !r.late.contains i || s.now < r.since + 5000000 then s
    else if win then
      let link := match r.got[i]? with
        | some x => (match s.stripe (ssaStripe x.ssa) with | some st => (match s.holder st (ssaOff x.ssa) with | some m => m.1 | none => 0xFFFF) | none => 0xFFFF)
        | none => 0xFFFF
      (s.countRebuilt r.sqe.nsid link).readReturn id i 0
    else s.modPath fun p => { p with reads := p.reads.map fun x => if x.id == id then { x with hedged := x.hedged ++ [i] } else x }

def execReadHedgeTimeout (read : Nat) (sector : Nat) (first : Bool) (s : State) : Host.Outcome State Fault Refusal :=
  .next (if s.mainUp then s.hedge read sector first else s)

end Sys2Proof.Machine
end

