-- ==== Sys2Proof/Machine/Container.lean ====
section
/-!
DEFINITION. Machine/Container.lean: the geometry of the take namespace's volume (08 R315, R316), where a clip's sectors lie, and the
bytes of the parts of a clip: header, records, index segments, segment table, trailer (08 R296 to R308).
-/
namespace Sys2Proof.Machine

/-! ### Geometry (R315) -/

/-- The geometry of the view of a namespace of `vol` blocks of 4,096 bytes. -/
structure Geometry where
  vol : Nat
  cc0 : Nat
  fatLen : Nat
  heap : Nat
  cc : Nat
  bmCl : Nat
  deriving DecidableEq, Repr

def roundUp (a b : Nat) : Nat := ceilDiv a b * b

def geometry (vol : Nat) : Geometry :=
  let cc0 := (vol - 512) / 512
  let fatLen := roundUp (ceilDiv (4 * (cc0 + 2)) 4096) 512
  let heap := 512 + fatLen
  let cc := (vol - heap) / 512
  ⟨vol, cc0, fatLen, heap, cc, ceilDiv (ceilDiv cc 8) 2097152⟩

def Geometry.upcase (g : Geometry) : Nat := 2 + g.bmCl
def Geometry.root (g : Geometry) : Nat := 3 + g.bmCl
def Geometry.takedir (g : Geometry) (slot : Nat) : Nat := 9 + g.bmCl + slot
def Geometry.firstAlloc (g : Geometry) : Nat := 65545 + g.bmCl
def Geometry.lba (g : Geometry) (c : Nat) : Nat := g.heap + 512 * (c - 2)
/-- Units the take service may allocate: clusters first_alloc to cc + 1 (R316). -/
def Geometry.allocatable (g : Geometry) : Nat := g.cc + 2 - g.firstAlloc

/-- The geometry of the take namespace. -/
def State.geom (s : State) : Geometry := geometry (match s.takeNs with | some n => n.blocks | none => 0)

/-! ### Where a clip's sectors lie -/

/-- The logical sector of sector `off` of a chain of units. -/
def unitLsa (g : Geometry) (units : List Nat) (off : Nat) : Nat := g.lba (units.getD (off / 512) 2) + off % 512

/-- The logical sector of a ring position (positions do not wrap; units do). -/
def ringLsa (g : Geometry) (ring : List Nat) (off : Nat) : Nat := g.lba (ring.getD (off / 512 % ring.length) 2) + off % 512

/-- The logical sectors of a record in the clip, and in the ring. -/
def Clip.recLsas (c : Clip) (g : Geometry) (r : ClipRec) : List Nat := (List.range r.sectors).map fun k => unitLsa g c.units (r.off + k)
def Clip.ringLsas (c : Clip) (g : Geometry) (r : ClipRec) : List Nat := (List.range r.sectors).map fun k => ringLsa g c.ring (r.off + k)

/-! ### Bytes -/

/-- Padded to whole sectors. -/
def padSector (b : List Byte) : List Byte := padTo (roundUp b.length 4096) b

/-- The sectors of padded bytes. -/
def sectorsOf (b : List Byte) : List (List Byte) := (List.range (ceilDiv b.length 4096)).map fun k => padTo 4096 (slice b (4096 * k) 4096)

def allOnes64 : Nat := 0xFFFFFFFFFFFFFFFF

/-- A sector of 4,092 bytes of fields with the CRC-32C of all of them in its last four. -/
def crcSector (b : List Byte) : List Byte := let x := padTo 4092 b; x ++ leBytes 4 (crc32c x)

/-- Bits of the clip header's FLAGS. -/
def Take.headerFlags (t : Take) : Nat := bit t.ring + 2 * bit t.hostTime + 4 * bit t.joined

/-- The frame records of a clip, in order. -/
def Clip.frames (c : Clip) : List ClipRec := c.recs.filter fun r => r.kind == 1

/-- The clip header (Table 8.2) in a HEADER_STATE. -/
def clipHeader (uid : List Byte) (nsid : Nat) (t : Take) (c : Clip) (idx state : Nat) : List Byte :=
  crcSector (leBytes 4 0x43584349 ++ leBytes 2 1 ++ leBytes 2 state ++ uid ++ leBytes 4 nsid ++ leBytes 4 t.num ++ leBytes 8 t.rigTake ++
    leBytes 4 t.rigId ++ leBytes 1 idx ++ leBytes 1 t.clips.length ++ leBytes 1 c.desc.mode ++ leBytes 1 t.headerFlags ++
    leBytes 4 t.frameMax ++ leBytes 4 c.desc.rate ++ leBytes 8 t.openTime ++ leBytes 8 (if state = 1 then 0 else t.startTime) ++
    leBytes 8 c.firstSeq ++ leBytes 8 (match c.frames.head? with | some r => r.stamp | none => 0) ++ leBytes 2 t.pretrigger ++
    leBytes 1 t.steepleState ++ [0] ++ leBytes 4 t.fwVersion ++ digestBytes t.cfgDigest ++ padTo 32 (t.name.take 32) ++
    padTo 16 (c.desc.name.take 16) ++ padTo 64 (t.user.take 64))

/-- The 64-byte record header (Table 8.3). -/
def recordHeader (takeNum idx : Nat) (r : ClipRec) : List Byte :=
  let b := leBytes 4 0x46584349 ++ leBytes 2 r.kind ++ leBytes 2 r.flags ++ leBytes 4 r.sectors ++ leBytes 4 r.length ++ leBytes 8 r.seq ++
    leBytes 8 r.stamp ++ leBytes 8 r.hostTime ++ leBytes 4 r.crc ++ leBytes 4 takeNum ++ leBytes 1 idx ++ leBytes 1 r.path ++
    leBytes 2 r.queue ++ leBytes 8 0
  b ++ leBytes 4 (crc32c b)

/-- The body of a chain record (Table 8.4): PORT, ROLE_AFTER, DRIFT_PPB, UNC_PS, OFFSET_PS, SLEW_END. -/
def chainBody (v : List Nat) : List Byte :=
  leBytes 1 (v.getD 0 0) ++ leBytes 1 (v.getD 1 0) ++ leBytes 2 0 ++ leBytes 4 (v.getD 2 0) ++ leBytes 8 (v.getD 3 0) ++
    leBytes 8 (v.getD 4 0) ++ leBytes 8 (v.getD 5 0)

/-- A record of one sector that carries no frame, or an abandoned frame's first sector. -/
def plainRecord (takeNum idx : Nat) (r : ClipRec) : List Byte :=
  padTo 4096 (recordHeader takeNum idx r ++ (if r.body.isEmpty then [] else chainBody r.body))

/-- A frame's record flag. -/
def ClipRec.has (r : ClipRec) (b : Nat) : Bool := r.flags.testBit b

/-- A frame entry of an index segment. -/
def frameEntry (r : ClipRec) : List Byte :=
  leBytes 8 (4096 * r.off + 2 ^ 63 * bit (r.has 0) + 2 ^ 62 * bit (r.has 1)) ++ leBytes 8 r.stamp ++ leBytes 4 r.crc ++ leBytes 4 r.length

/-- An event entry of an index segment. -/
def eventEntry (e : ClipEvent) : List Byte :=
  leBytes 1 e.ty ++ leBytes 1 e.source ++ leBytes 6 0 ++ leBytes 8 e.time ++
    leBytes 8 (match e.recAt with | some o => 4096 * o | none => allOnes64) ++ leBytes 8 e.unc

/-- Sectors of an index segment. -/
def segSectors (frames events : Nat) : Nat := ceilDiv (64 + 24 * frames + 32 * events) 4096

/-- An index segment (Table 8.5) in its full padded size. -/
def Clip.segBytes (c : Clip) (k : Nat) (g : Seg) : List Byte :=
  let frames := (c.frames.drop g.first).take g.frames
  let prev := if k = 0 then allOnes64 else match c.segs[k - 1]? with | some p => 4096 * p.off | none => allOnes64
  let head (crc : Nat) := leBytes 4 0x49584349 ++ leBytes 2 1 ++ leBytes 2 0 ++ leBytes 4 g.sectors ++ leBytes 4 k ++ leBytes 8 g.first ++
    leBytes 4 g.frames ++ leBytes 4 g.events.length ++ leBytes 8 prev ++ leBytes 4 crc ++ leBytes 20 0
  let body := frames.flatMap frameEntry ++ g.events.flatMap eventEntry
  padTo (4096 * g.sectors) (head (crc32c (head 0 ++ body)) ++ body)

/-- The segment table (Table 8.6), padded. -/
def Clip.segTable (c : Clip) : List Byte :=
  let head (crc : Nat) := leBytes 4 0x53584349 ++ leBytes 2 1 ++ leBytes 2 0 ++ leBytes 4 c.segs.length ++ leBytes 4 crc ++ leBytes 48 0
  let body := c.segs.flatMap fun g => leBytes 8 (4096 * g.off)
  padSector (head (crc32c (head 0 ++ body)) ++ body)

/-- What MANIFEST_DIGEST covers: the sealed header, every index segment, the segment table. -/
def manifest (uid : List Byte) (nsid : Nat) (t : Take) (c : Clip) (idx : Nat) : List Byte :=
  clipHeader uid nsid t c idx 3 ++ (List.range c.segs.length).flatMap (fun k => match c.segs[k]? with | some g => c.segBytes k g | none => []) ++ c.segTable

/-- Payload bytes of frames not abandoned, and how many were abandoned. -/
def Clip.goodBytes (c : Clip) : Nat := ((c.frames.filter fun r => !r.has 0).map fun r => r.length).sum
def Clip.badFrames (c : Clip) : Nat := (c.frames.filter fun r => r.has 0).length

/-- The trailer (Table 8.7). -/
def trailer (uid : List Byte) (nsid : Nat) (t : Take) (c : Clip) (idx : Nat) : List Byte :=
  let fs := c.frames
  crcSector (leBytes 4 0x54584349 ++ leBytes 2 1 ++ leBytes 1 t.reason ++
    leBytes 1 (bit c.chainRecs + 2 * bit (fs.any fun r => r.has 3) + 4 * bit c.markRecs + 8 * bit c.limit) ++ leBytes 8 t.closeTime ++
    leBytes 8 fs.length ++ leBytes 8 c.badFrames ++ leBytes 8 c.goodBytes ++ leBytes 8 c.discard ++
    leBytes 8 (match fs.head? with | some r => r.stamp | none => 0) ++ leBytes 8 (match fs.getLast? with | some r => r.stamp | none => 0) ++
    leBytes 8 (4096 * c.segtab) ++ leBytes 4 c.segs.length ++ leBytes 4 0 ++ leBytes 8 c.ended ++
    digestBytes (Config.sha384 (manifest uid nsid t c idx)) ++ padTo 32 (t.note.take 32))

/-- Sectors of a frame's record (07 R237). -/
def recSectors (len : Nat) : Nat := ceilDiv (64 + len) 4096

/-- Units of a stream's pre-trigger ring (07 R277). -/
def ringUnits (rate pre frameMax : Nat) : Nat :=
  if pre = 0 then 0 else max (ceilDiv (rate * 1000000 * pre) 2097152) (2 * ceilDiv (4096 * recSectors frameMax) 2097152)

end Sys2Proof.Machine
end

