-- ==== Sys2Proof/Machine/Takes.lean ====
section
/-!
DEFINITION. Machine/Takes.lean: the take service (07, 08): units, records, rings, frames, triggers, closing and sealing.
-/
namespace Sys2Proof.Machine

/-! ### The directory -/

/-- Changes a take without a change of its directory entry's own fields. -/
def State.modTake (s : State) (num : Nat) (f : Take → Take) : State :=
  s.modTakes fun x => { x with dir := x.dir.map fun t => if t.num == num then f t else t }

def State.modClip (s : State) (num i : Nat) (f : Clip → Clip) : State := s.modTake num fun t => { t with clips := modAt t.clips i f }

/-- A take is open: ARMED, RECORDING or CLOSING (Table 7.1). -/
def Take.isOpen (t : Take) : Bool := t.state != 4

def State.openTakes (s : State) : List Take := s.takes.dir.filter Take.isOpen
def State.openStreams (s : State) : Nat := (s.openTakes.map fun t => t.clips.length).sum

/-- The take and clip of a stream slot. -/
def State.slotClip (s : State) (slot : Nat) : Option (Take × Nat × Clip) :=
  s.openTakes.findSome? fun t => (List.range t.clips.length).findSome? fun i => match t.clips[i]? with
    | some c => if c.slot = slot then some (t, i, c) else none
    | none => none

/-- The status of a frame whose slot has no open take: TAKE_CLOSING where the directory holds a CLOSED take of the slot, else TAKE_NOT_OPEN
(Table 7.5; DEDUCED, log entry 65). -/
def State.noTake (s : State) (slot : Nat) : Status :=
  stVendor (if s.takes.dir.any fun t => t.state == 4 && t.clips.any fun c => c.slot == slot then 0x8A else 0x80) true

/-- A take enters a state: every slot's change sets source 1,616 + t (R240). -/
def State.takeState (s : State) (num st : Nat) : State :=
  match s.takeOf num with
  | none => s
  | some t => ((s.modTake num fun x => { x with state := st }).dirChange).raiseAll (t.clips.map fun c => 1616 + c.slot)

/-- An event at the take's stamps: a command of the take service's own. -/
def ownSqe : Sqe := ⟨0, false, 0, 0, 0, 0, 0, 0, 0, 0, 0, 0, [], none⟩

/-! ### Units (R236, R243, R286, R316) -/

/-- Units held by clips and rings. -/
def State.heldUnits (s : State) : List Nat := s.takes.dir.flatMap fun t => t.clips.flatMap fun c => (c.units ++ c.ring).eraseDups

def State.freeUnits (s : State) : Nat := if s.takeNs.isNone then 0 else s.geom.allocatable - s.heldUnits.eraseDups.length

/-- The lowest clusters from `cur` that are not held: at most k, looking at `fuel` clusters. -/
def pickFree (held : List Nat) : Nat → Nat → Nat → List Nat
  | 0, _, _ => []
  | _ + 1, _, 0 => []
  | fuel + 1, cur, k + 1 => if held.contains cur then pickFree held fuel (cur + 1) (k + 1) else cur :: pickFree held fuel (cur + 1) k

/-- k free units, the lowest ones (log entry 16). -/
def State.pickUnits (s : State) (k : Nat) : Option (List Nat) :=
  if s.freeUnits < k then none else some (pickFree s.heldUnits (k + s.heldUnits.length) s.geom.firstAlloc k)

/-- Free units beyond the close reserves of the open streams: three each (R309). -/
def State.unreserved (s : State) : Nat := s.freeUnits - 3 * s.openStreams

/-! ### Writes of the take service (10: a requester of class REALTIME) -/

/-- A write of the take service: `purpose` 0 header opened, 1 header started, 2 header sealed, 3 index segment, 4 segment table, 5 trailer,
6 chain or mark record, 7 first sector of an abandoned frame, 8 first sector of a frame with its payload CRC. It completes when
durable. In formats 1 and 2 every sector has a generated tuple, under PI_TYPE 0 too (R238; DESIGN CHOICE, log entry 60: a write with PRACT 1
generates none there). -/
def State.takeWrite (s : State) (purpose num idx : Nat) (lsas : List Nat) (secs : List (List Byte)) (wt : Option Bool) (fua : Bool) : State :=
  match s.takeNs with
  | none => s
  | some n =>
    let pi (lsa : Nat) (b : List Byte) := piField (n.piOut ⟨n.guardOf b, 0, lsa % 2 ^ 32⟩)
    let w := s.newWrite .take 5 ownSqe n.nsid lsas fua
    s.addWrite { w with
      tag := purpose, frameSeq := num, stream := idx, wt := wt
      arrived := (List.range secs.length).map fun i => let b := secs.getD i []; (i, some (b, pi (lsas.getD i 0) b)) }

/-- Writes of a take still on the path, of the purposes p says. -/
def State.takeBusy (s : State) (num : Nat) (p : Nat → Bool) : Bool :=
  s.path.writes.any fun w => w.kind == WKind.take && w.frameSeq == num && p w.tag

def State.takeNsid (s : State) : Nat := match s.takeNs with | some n => n.nsid | none => 0

/-- Writes a clip's header in a state (R299). -/
def State.writeHeader (s : State) (num i state : Nat) : State :=
  match s.takeOf num with
  | none => s
  | some t => match t.clips[i]? with
    | none => s
    | some c => s.takeWrite (state - 1) num i [unitLsa s.geom c.units 0] [clipHeader s.uniqueId s.takeNsid t c i state] none true

def State.writeHeaders (s : State) (num state : Nat) : State :=
  match s.takeOf num with
  | none => s
  | some t => (List.range t.clips.length).foldl (fun u i => u.writeHeader num i state) s

/-- Deallocates sectors of the take namespace, after the writes before it that touch them (R204, R207). -/
def State.takeTrim (s : State) (lsas : List Nat) : State :=
  if lsas.isEmpty then s else s.queueTrim 3 ownSqe s.takeNsid ((runsOf (lsas.map fun l => (l, l))).map fun r => (r.1, r.2.1))

/-! ### Space in a clip and in a ring -/

/-- Takes n sectors at the end of a clip, allocating the units they need; the close reserve serves only sealing, and index segments
for which no other unit is left. -/
def State.clipGrow (s : State) (num i n : Nat) (reserve : Bool) : Option (State × Nat) :=
  match s.takeOf num with
  | none => none
  | some t => match t.clips[i]? with
    | none => none
    | some c =>
      let need := ceilDiv (c.pos + n) 512 - c.units.length
      if need = 0 then some (s.modClip num i fun x => { x with pos := x.pos + n }, c.pos)
      else if !reserve && s.unreserved < need then none
      else match s.pickUnits need with
        | none => none
        | some us => some (s.modClip num i fun x => { x with pos := x.pos + n, units := x.units ++ us }, c.pos)

def State.modFrames (s : State) (f : InFlight → InFlight) : State := s.modTakes fun t => { t with inflight := t.inflight.map f }

def State.frameOf (s : State) (slot seq : Nat) : Option InFlight := s.takes.inflight.find? fun f => f.slot == slot && f.seq == seq

/-- Changes the record of a SEQ, in the clip or the ring. -/
def Clip.modRec (c : Clip) (seq : Nat) (f : ClipRec → ClipRec) : Clip :=
  let g (r : ClipRec) := if r.kind == 1 && r.seq == seq then f r else r
  { c with recs := c.recs.map g, ringRecs := c.ringRecs.map g }

/-- The record of a SEQ with its sectors. -/
def Clip.recOf (c : Clip) (g : Geometry) (seq : Nat) : Option (ClipRec × List Nat) :=
  match c.recs.find? fun r => r.kind == 1 && r.seq == seq with
  | some r => some (r, c.recLsas g r)
  | none => (c.ringRecs.find? fun r => r.kind == 1 && r.seq == seq).map fun r => (r, c.ringLsas g r)

/-! ### Outcomes of frames -/

/-- What a frame is told: its status, its index where recorded, and whether under write-through. In pull mode it is the outcome of its
descriptor. -/
def State.dmaOutcome (s : State) (d idx : Nat) (r : StatusRec) : State :=
  s.modTakes fun t => { t with dmas := t.dmas.map fun e => if e.1 == d then (d, e.2.map fun x => { x with outcomes := x.outcomes ++ [(idx, r)] }) else e }

/-- The status word of a status record (Table 7.8). -/
def statusWord (st : Status) (wt : Bool) : Nat := st.sc + 256 * st.sct + 2 ^ 15 * bit wt

/-- Ends every command of a frame that is still waiting, with a status; its writes leave the path (10 R365). -/
def State.endSegments (s : State) (f : InFlight) (st : Status) : State :=
  let s1 := f.segs.foldl (fun u id => match u.wcmd id with
    | some w =>
      let v := u.dropWrite w false
      if f.answers && f.chan.isNone then v.fail w.sqe st else v
    | none => u) s
  match f.lastCmd with
  | some c => if f.answers then s1.fail c st else s1
  | none => s1

/-- A frame is no longer in flight. -/
def State.dropFrame (s : State) (f : InFlight) : State :=
  s.modTakes fun t => { t with inflight := t.inflight.filter fun x => !(x.slot == f.slot && x.seq == f.seq) }

/-- The outcome of a pull frame that is not recorded. -/
def State.pullRefused (s : State) (f : InFlight) (st : Status) : State :=
  match f.chan with
  | some d => if f.answers then s.dmaOutcome d f.tag ⟨d, f.tag, f.dtag, statusWord st (f.wt == some true), 0xFFFFFFFF, f.stamp % 2 ^ 32, 0⟩ else s
  | none => s

/-- A frame in flight is abandoned (R249, R302): its commands end with a status, its record keeps its place with ABANDONED set, its
payload is deallocated, and its first sector is written again. -/
def State.abandon (s : State) (f : InFlight) (st : Status) : State :=
  let s1 := ((s.endSegments f st).pullRefused f st).dropFrame f
  match s1.slotClip f.slot with
  | none => s1
  | some (t, i, _) =>
    let s2 := (s1.modClip t.num i fun c => { (c.modRec f.seq fun r => { r with flags := r.flags ||| 1, crc := 0, whole := true }) with abandoned := c.abandoned + 1 }).dirTouch
    match s2.takeOf t.num with
    | none => s2
    | some t2 => match t2.clips[i]? with
      | none => s2
      | some c => match c.recOf s2.geom f.seq with
        | none => s2
        | some (r, lsas) =>
          (s2.takeTrim (lsas.drop 1)).takeWrite 7 t.num i (lsas.take 1) [plainRecord t.num i r] none true

/-! ### The pre-trigger ring (R278, R280, R311) -/

/-- Records leave the ring: deallocated, their bytes counted; a frame of theirs still in flight ends. -/
def State.discardRecs (s : State) (num i : Nat) (rs : List ClipRec) : State :=
  match s.takeOf num with
  | none => s
  | some t => match t.clips[i]? with
    | none => s
    | some c =>
      let n := 4096 * (rs.map fun r => r.sectors).sum
      let s1 := rs.foldl (fun u r => match u.frameOf c.slot r.seq with
        | some f => if r.kind = 1 then (((u.endSegments f (stVendor 0x85 true)).pullRefused f (stVendor 0x85 true)).dropFrame f) else u
        | none => u) s
      let s2 := s1.takeTrim (rs.flatMap fun r => c.ringLsas s.geom r)
      let s3 := s2.modClip num i fun x => { x with ringRecs := x.ringRecs.filter fun r => !rs.contains r, discard := x.discard + n }
      let s4 := (s3.modTakes fun x => { x with discardTotal := x.discardTotal + n }).tally 0x60 n
      if rs.isEmpty then s4 else s4.dirTouch

/-- Takes n sectors at the end of a ring: every record in a unit about to be entered again is discarded first. -/
def State.ringGrow (s : State) (num i n : Nat) : Option (State × Nat) :=
  match s.takeOf num with
  | none => none
  | some t => match t.clips[i]? with
    | none => none
    | some c =>
      let size := c.ring.length
      let entering := (List.range (ceilDiv (c.ringPos + n) 512 - ceilDiv c.ringPos 512)).map fun k => ceilDiv c.ringPos 512 + k
      let gone := c.ringRecs.filter fun r => entering.any fun k => size ≤ k && (k - size) * 512 < r.off + r.sectors && r.off < (k - size) * 512 + 512
      some ((s.discardRecs num i gone).modClip num i fun x => { x with ringPos := x.ringPos + n }, c.ringPos)

/-! ### Closing (R274, R282, R286) -/

/-- A clip's last record is taken back, and with it an index segment that it completed. -/
def Clip.dropLast (c : Clip) (r : ClipRec) : Clip :=
  let frames := c.frames.length - 1
  let gone := c.segs.filter fun g => frames < g.first + g.frames
  { c with
    recs := c.recs.dropLast, pos := r.off, nextSeq := r.seq, segs := c.segs.filter (fun g => g.first + g.frames ≤ frames)
    events := (gone.flatMap fun g => g.events) ++ c.events, refused := c.refused + 1 }

/-- A frame whose stamp is at or after a close point that came late is refused, and its record taken back; one that a later record follows keeps its
place, abandoned. -/
def State.unrecordOne (s : State) (num i : Nat) (r : ClipRec) : State :=
  match (s.takeOf num).bind fun k => k.clips[i]? with
  | none => s
  | some c => match s.frameOf c.slot r.seq with
    | none => s
    | some f =>
      let st := stVendor 0x8A true
      if c.recs.getLast? = some r then
        ((((((s.endSegments f st).pullRefused f st).dropFrame f).takeTrim (c.recLsas s.geom r)).modClip num i fun x => x.dropLast r)).dirTouch
      else s.abandon f st

/-- The frames in flight of a clip stamped at or after its close point. -/
def State.unrecord (s : State) (num i t : Nat) : State :=
  match (s.takeOf num).bind fun k => k.clips[i]? with
  | none => s
  | some c => (c.recs.filter fun r => r.kind == 1 && t ≤ r.stamp && (s.frameOf c.slot r.seq).isSome).reverse.foldl (fun u r => u.unrecordOne num i r) s

/-- A take moves to CLOSING with a close point and an END_REASON; an ARMED take stopped by a trigger was never triggered. -/
def State.closeTake (s : State) (num t reason : Nat) : State :=
  match s.takeOf num with
  | none => s
  | some k =>
    if k.state ≠ 1 ∧ k.state ≠ 2 then s
    else
      let never := k.state = 1 ∧ (reason = 2 ∨ reason = 3)
      let s1 := (s.modTake num fun x => { x with closeTime := t, reason := if never then 9 else reason, stopBy := if never then reason else 0, sched := [] }).takeState num 3
      (List.range k.clips.length).foldl (fun u i => u.unrecord num i t) s1

/-- TAKE_FULL where the free units less the close reserves have come to nothing: every open take closes at a point (R286). The takes that a recovery
seals have their close points already. -/
def State.takeFull (s : State) (point : Nat) : State :=
  if s.phase < 0xB then s else s.openTakes.foldl (fun u t => u.closeTake t.num point 4) (s.wr Reg.TAK_STATUS_FULL 1)

/-- Whether a change has met TAKE_FULL; the close point is the moment, for a frame the nanosecond after its stamp (log entry 66). -/
def State.fullCheck (s : State) (point : Nat) : State := if s.unreserved = 0 && !s.openTakes.isEmpty then s.takeFull point else s

/-- TAK_STATUS.FULL stays until the free units exceed the close reserve of one stream. -/
def State.fullClear (s : State) : State := if s.rd Reg.TAK_STATUS_FULL = 1 ∧ 3 < s.freeUnits then s.wr Reg.TAK_STATUS_FULL 0 else s

/-! ### Index segments (08 R305, R306, R309, R312) -/

/-- Places a complete index segment with the events given. The close reserve serves only sealing: a segment for which no other unit is left has met
TAKE_FULL, and is placed when its clip is sealed. -/
def State.placeSeg (s : State) (num i : Nat) (events : List ClipEvent) : State :=
  let k := segSectors 65536 events.length
  let add (u : State) (off sectors : Nat) : State := u.modClip num i fun c =>
    { c with segs := c.segs ++ [⟨off, sectors, 65536 * c.segs.length, 65536, events, false⟩], events := [] }
  match s.clipGrow num i k false with
  | some (s1, off) => add s1 off k
  | none => (add s 0 0).takeFull s.steepleTime

/-- A complete segment is placed directly after its last frame's record. -/
def State.segDue (s : State) (num i : Nat) : State :=
  match (s.takeOf num).bind fun t => t.clips[i]? with
  | some c => if c.ring.isEmpty && 65536 * (c.segs.length + 1) ≤ c.nextSeq - c.firstSeq then s.placeSeg num i c.events else s
  | none => s

/-- The segments that found no unit are placed, of the close reserve. -/
def State.placeMissing (s : State) (num i : Nat) : State :=
  match (s.takeOf num).bind fun t => t.clips[i]? with
  | none => s
  | some c => (List.range c.segs.length).foldl (fun u k => match c.segs[k]? with
      | some g =>
        if g.sectors ≠ 0 then u
        else
          let n := segSectors g.frames g.events.length
          match u.clipGrow num i n true with
          | some (v, off) => v.modClip num i fun x => { x with segs := modAt x.segs k fun y => { y with off := off, sectors := n } }
          | none => u
      | none => u) s

/-! ### Records -/

/-- The timebase is in holdover or slewing (09 R346). -/
def State.inHoldover (s : State) : Bool := 4 ≤ s.rd Reg.STP_STATUS_STATE

/-- A record joins a clip or, while ARMED with a ring, its ring; answers the record as it was placed and its sectors. A clip that cannot take it
has met TAKE_FULL. -/
def State.addRec (s : State) (num i : Nat) (r : ClipRec) : Option (State × ClipRec × List Nat) :=
  match s.takeOf num with
  | none => none
  | some t =>
    let flags := if t.state = 1 then r.flags ||| 2 else r.flags
    let next (c : Clip) : Nat := if r.kind = 1 then c.nextSeq + 1 else c.nextSeq
    if t.state = 1 && t.ring then
      match s.ringGrow num i r.sectors with
      | none => none
      | some (s1, off) =>
        let x := { r with off := off, flags := flags }
        let s2 := s1.modClip num i fun c => { c with ringRecs := c.ringRecs ++ [x], nextSeq := next c }
        ((s2.takeOf num).bind fun t2 => t2.clips[i]?).map fun c => (s2, x, c.ringLsas s2.geom x)
    else
      match s.clipGrow num i r.sectors false with
      | none => none
      | some (s1, off) =>
        let x := { r with off := off, flags := flags }
        let s2 := s1.modClip num i fun c => { c with recs := c.recs ++ [x], nextSeq := next c }
        ((s2.takeOf num).bind fun t2 => t2.clips[i]?).map fun c => (s2, x, c.recLsas s2.geom x)

/-! ### Frames of equal stamp (R248) -/

/-- The order of frames with equal stamps: controller, then submission queue or channel. -/
def ClipRec.rank (r : ClipRec) : Nat := r.path % 4 * 65536 + r.queue

/-- Nothing of a frame's payload has come yet: its record may still change places. -/
def State.untouched (s : State) (slot seq : Nat) : Bool := match s.frameOf slot seq with
  | some f => f.buf.isEmpty && f.held.isEmpty && f.segs.all fun id => match s.wcmd id with | some w => w.arrived.isEmpty && w.places.isEmpty | none => false
  | none => false

/-- A frame in flight, and its segments on the write path, take another SEQ and other sectors. -/
def State.moveFrame (s : State) (slot old new : Nat) (lsas : List Nat) : State :=
  (s.modFrames fun f => if f.slot == slot && f.seq == old then { f with seq := new } else f).modPath fun p => { p with
    writes := p.writes.map fun w => if (w.kind == WKind.frame || w.kind == WKind.pull) && w.stream == slot && w.frameSeq == old then
      { w with frameSeq := new, lsas := (lsas.drop w.index).take w.lsas.length } else w }

/-- The newest record moves ahead of records of the same stamp and a higher rank directly before it; answers the record in its place. -/
def State.bubble : Nat → Nat → Nat → ClipRec → State → State × ClipRec
  | 0, _, _, r, s => (s, r)
  | n + 1, num, i, r, s => match (s.takeOf num).bind fun t => t.clips[i]? with
    | none => (s, r)
    | some c =>
      let inRing := c.ringRecs.contains r
      match ((if inRing then c.ringRecs else c.recs).takeWhile fun x => x != r).getLast? with
      | none => (s, r)
      | some p =>
        if p.kind == 1 && p.stamp == r.stamp && p.off + p.sectors == r.off && r.rank < p.rank && s.untouched c.slot p.seq then
          let r2 := { r with off := p.off, seq := p.seq }
          let p2 := { p with off := p.off + r.sectors, seq := r.seq }
          let swap (l : List ClipRec) : List ClipRec := l.map fun x => if x == p then r2 else if x == r then p2 else x
          let lsas := if inRing then c.ringLsas s.geom p2 else c.recLsas s.geom p2
          State.bubble n num i r2 ((s.modClip num i fun x => { x with recs := swap x.recs, ringRecs := swap x.ringRecs }).moveFrame c.slot p.seq p2.seq lsas)
        else (s, r)

/-! ### A frame begins -/

/-- The frame limit of a clip (R307): a STOP one nanosecond after the last frame's stamp, whatever the sources. -/
def State.limitCheck (s : State) (num i stamp : Nat) : State :=
  match (s.takeOf num).bind fun t => t.clips[i]? with
  | some c =>
    if c.ring.isEmpty && c.nextSeq - c.firstSeq == 4294967295 then (s.modClip num i fun x => { x with limit := true }).closeTake num (stamp + 1) 4 else s
  | none => s

/-- A frame takes its place: SEQ, record, and a frame in flight. -/
def State.beginFrame (s : State) (num i : Nat) (length stamp hostTime path queue tag dtag : Nat) (timeValid : Bool) (chan : Option Nat) : Option (State × InFlight) :=
  match s.takeOf num with
  | none => none
  | some t => match t.clips[i]? with
    | none => none
    | some c =>
      let flags := 4 * bit (t.hostTime && timeValid) + 16 * bit s.inHoldover
      let r : ClipRec := ⟨1, flags, 0, recSectors length, length, c.nextSeq, stamp, if t.hostTime && timeValid then hostTime else 0, 0, path, queue, [], false⟩
      match s.addRec num i r with
      | none => none
      | some (s0, r1, _) =>
        let (s1, r2) := State.bubble (c.recs.length + c.ringRecs.length) num i r1 s0.dirTouch
        let f : InFlight := ⟨c.slot, tag, dtag, chan, r2.seq, length, 0, s.now, stamp, [], [], none, none, 0, true, 0, []⟩
        let s2 := (s1.modTakes fun x => { x with inflight := x.inflight ++ [f] }).segDue num i
        some ((s2.limitCheck num i stamp).fullCheck (stamp + 1), f)

/-- The frame index reported: the low 32 bits of SEQ for a frame of the ring, else SEQ − FIRST_SEQ (08 R313). -/
def reportedIndex (c : Clip) (seq : Nat) : Nat :=
  match (c.recs ++ c.ringRecs).find? fun r => r.kind == 1 && r.seq == seq with
  | some r => if r.has 1 then seq % 2 ^ 32 else seq - c.firstSeq
  | none => seq % 2 ^ 32

/-! ### Segments on the write path (R253 to R257) -/

/-- First and last sector of a record that payload bytes `from` to `upto` − 1 touch; the first segment takes the header too. -/
def segFirst (offset : Nat) : Nat := if offset = 0 then 0 else (64 + offset) / 4096
def segLast (upto : Nat) : Nat := (64 + upto - 1) / 4096

/-- A segment of a frame becomes a command of the write path: `index` is its first sector in the record, `tag` where in the payload it
ends. -/
def State.addSegment (s : State) (f : InFlight) (kind : WKind) (src : Nat) (c : Sqe) (offset upto : Nat) (last : Bool) (fua : Bool) : State :=
  match s.slotClip f.slot with
  | none => s
  | some (_, _, cl) => match cl.recOf s.geom f.seq with
    | none => s
    | some (_, lsas) =>
      let a := segFirst offset
      let w := s.newWrite kind src c s.takeNsid ((lsas.drop a).take (segLast upto + 1 - a)) fua
      let w2 := { w with stream := f.slot, frameSeq := f.seq, index := a, tag := upto, last := last, wt := f.wt }
      let s1 := s.modFrames fun x => if x.slot == f.slot && x.seq == f.seq then
        { x with segs := x.segs ++ [w.id], taken := upto, since := s.now } else x
      s1.addWrite w2

/-- The bytes of a record as far as they have come, from the header on. -/
def frameBytes (takeNum idx : Nat) (r : ClipRec) (buf : List Byte) : List Byte := recordHeader takeNum idx r ++ buf

/-- Data of a segment arrives, in the order of the payload; the sectors it completes are ready for a lane. `result` as for a Write;
answers nothing where the segment cannot take data now. -/
def State.arriveFrame (s : State) (w : WCmd) (data : List Byte) : State :=
  match s.frameOf w.stream w.frameSeq, s.slotClip w.stream, s.takeNs with
  | some f, some (t, i, c), some n => match c.recOf s.geom f.seq with
    | none => s
    | some (r0, _) =>
      let from0 := if w.index = 0 then 0 else 4096 * w.index - 64
      let room := w.tag - f.buf.length
      let buf := f.buf ++ data.take room
      let wt := match f.wt with | some b => some b | none => w.wt
      let r := { r0 with flags := r0.flags ||| (8 * bit (wt == some true)), crc := if buf.length = f.length then crc32c buf else 0 }
      -- sectors of the segment now whole: their bytes have come, or the segment ends in them
      let upTo := if buf.length = w.tag then w.lsas.length else (64 + buf.length) / 4096 - w.index
      let bytes := frameBytes t.num i r buf
      let had := w.fetched / 4096
      let now := upTo - had
      if buf.length < from0 ∨ w.granted < 4096 * upTo ∨ !s.ingressRoom w.src (4096 * now) ∨ room = 0 then s
      else
        let add := (List.range now).map fun k => had + k
        let s1 := s.modW w.id fun x => { x with
          fetched := 4096 * (had + now)
          wt := wt
          arrived := add.foldl (fun m k =>
            let b := padTo 4096 (slice bytes (4096 * (w.index + k)) 4096)
            mapSet (fun _ => none) m k (some (b, piField (n.piOut ⟨n.guardOf b, 0, w.lsas.getD k 0 % 2 ^ 32⟩)))) x.arrived }
        let s2 := s1.modFrames fun x => if x.slot == f.slot && x.seq == f.seq then { x with buf := buf, wt := wt } else x
        (s2.modClip t.num i fun x => x.modRec f.seq fun y => { y with flags := r.flags, crc := r.crc }).ingressAdd w.src (4096 * now)
  | _, _, _ => s

/-- A frame is whole (R257): its record counts, its LAST segment's command or its descriptor is answered. -/
def State.frameWhole (s : State) (f : InFlight) : State :=
  match s.slotClip f.slot with
  | none => s.dropFrame f
  | some (t, i, c) =>
    let s1 := (s.dropFrame f).modClip t.num i fun x => { (x.modRec f.seq fun r => { r with whole := true }) with
      acked := if f.chan.isNone then x.acked + 1 else x.acked
      lastStamp := if f.chan.isNone then f.stamp else x.lastStamp
      payload := if f.chan.isNone then x.payload + f.length else x.payload }
    let wt := f.wt == some true
    match f.chan with
    | some d => if f.answers then s1.dmaOutcome d f.tag ⟨d, f.tag, f.dtag, statusWord stOk wt, reportedIndex c f.seq, f.stamp % 2 ^ 32, f.length⟩ else s1
    | none => match f.lastCmd with
      | some q => if f.answers then s1.complete q stOk (if wt then 0xB0 else 0) (reportedIndex c f.seq) [] else s1
      | none => s1

/-- Sources by number: 0 Steeple, 1 host, 2 TRIG_IN. -/
def Take.accepts (t : Take) (source : Nat) : Bool := t.trigSrc.testBit source

/-- No STOP at or before a frame's stamp can come any more (R250): the clock is past the stamp, and past the latest edge that TRIG_IN may
still report, 203 ns, where its next edge would be a STOP (log entry 67). -/
def State.frameSure (s : State) (f : InFlight) : Bool :=
  let pin := match s.slotClip f.slot with | some (t, _, _) => t.state == 2 && t.pinStop && t.accepts 2 && t.pinEdges == 1 | none => false
  decide (f.stamp + (if pin then 203 else 0) < s.steepleTime)

/-- Every segment of a frame is accepted: a record of more than one sector has its first sector written again with the payload
CRC (log entry 17); then the frame is whole, as soon as its place is sure. -/
def State.frameSettle (s : State) (f : InFlight) : State :=
  if !(f.taken = f.length ∧ f.segs.isEmpty ∧ f.buf.length = f.length ∧ s.frameSure f) then s
  else if recSectors f.length = 1 ∨ f.fix = 2 then s.frameWhole f
  else if f.fix = 1 then s
  else match s.slotClip f.slot with
    | none => s
    | some (t, i, c) => match c.recOf s.geom f.seq with
      | none => s
      | some (r, lsas) =>
        let s1 := s.modFrames fun x => if x.slot == f.slot && x.seq == f.seq then { x with fix := 1 } else x
        s1.takeWrite 8 t.num f.slot (lsas.take 1) [padTo 4096 (slice (frameBytes t.num i r f.buf) 0 4096)] f.wt false

/-! ### START (R274, R279, R312) -/

/-- The events of one segment: 4,096 at most; a chain event beyond stands only as its chain record (R306). -/
def segEvents (evs : List (Nat × ClipEvent)) (k : Nat) : List ClipEvent := (((evs.filter fun e => e.1 / 65536 == k).map fun e => e.2).take 4096)

/-- Places the complete segments of the kept records with the events of their chain records. -/
def placeKept (num i : Nat) (evs : List (Nat × ClipEvent)) : Nat → Nat → State → State
  | 0, _, s => s
  | n + 1, k, s => placeKept num i evs n (k + 1) (s.placeSeg num i (segEvents evs k))

/-- The events of chain records with the number of frames before each. -/
def chainEvents : List ClipRec → Nat → List (Nat × ClipEvent)
  | [], _ => []
  | r :: l, n =>
    if r.kind = 2 ∨ r.kind = 3 then (n, ⟨r.kind, r.body.getD 0 0, r.stamp, some r.off, r.body.getD 3 0⟩) :: chainEvents l n
    else chainEvents l (n + 1)

/-- The ring becomes the beginning of its clip: records stamped at or after `keep` stay in place, the older are discarded, units left
with none are free again. -/
def State.ringToClip (s : State) (num i keep : Nat) : State :=
  match (s.takeOf num).bind fun t => t.clips[i]? with
  | none => s
  | some c =>
    let kept := c.ringRecs.dropWhile fun r => r.stamp < keep
    let old := c.ringRecs.take (c.ringRecs.length - kept.length)
    let s1 := s.discardRecs num i old
    match kept.head? with
    | none => s1.modClip num i fun x => { x with ring := [], pos := 512, firstSeq := x.nextSeq }
    | some r0 =>
      let first := r0.off / 512
      let run := (List.range ((c.ringPos - 1) / 512 + 1 - first)).map fun k => c.ring.getD ((first + k) % c.ring.length) 2
      let recs := kept.map fun (r : ClipRec) => { r with off := 512 + r.off - 512 * first }
      let seq := match (kept.filter fun r => r.kind == 1).head? with | some r => r.seq | none => c.nextSeq
      let evs := chainEvents recs 0
      let whole := (c.nextSeq - seq) / 65536
      let s2 := s1.modClip num i fun x => { x with
        units := x.units ++ run, ring := [], ringRecs := [], recs := recs, pos := 512 + c.ringPos - 512 * first, firstSeq := seq
        chainRecs := x.chainRecs || !evs.isEmpty }
      let s3 := placeKept num i evs whole 0 s2
      (s3.modClip num i fun x => { x with events := segEvents evs whole }).dirTouch

/-- TRIG_OUT becomes active at a time, for 1 µs; pulses that overlap merge (R275). -/
def State.pulse (s : State) (start : Nat) : State := { s with board := { s.board with pulses := s.board.pulses ++ [(start, start + 1000)] } }

/-- A pulse is being driven. -/
def State.trigOut (s : State) : Bool := s.board.pulses.any fun p => p.1 ≤ s.now

/-- The level of the TRIG_OUT pin: the active level is bit 1 of BOARD.TRIG_POLARITY (R275). -/
def State.trigOutLevel (s : State) : Bool := s.trigOut == (s.cfg 0x01 0 7).testBit 1

/-- Model time at which the Steeple timebase reaches t, taking the timebase at its rate of a nanosecond a nanosecond. -/
def State.modelTime (s : State) (t : Nat) : Nat := s.now + t - s.steepleTime

/-! ### Frames given to the take service -/

/-- What becomes of a frame (Table 7.5), by the state of its take and its stamp. -/
inductive Outcome where
  | record
  | wait
  | refuse (st : Status)
  deriving DecidableEq, Repr

def State.frameOutcome (s : State) (slot length stamp : Nat) : Outcome :=
  match s.slotClip slot with
  | none => .refuse (s.noTake slot)
  | some (t, _, _) =>
    if t.reason = 4 ∨ s.rd Reg.TAK_STATUS_FULL = 1 then .refuse (stVendor 0x86 true)
    else if t.frameMax < length then .refuse (stVendor 0x81 true)
    else if t.state = 1 then (if t.ring then .record else .wait)
    else if t.state = 2 then .record
    else if stamp < t.closeTime then .record
    else .refuse (stVendor 0x8A true)

def State.countRefused (s : State) (slot : Nat) : State :=
  match s.slotClip slot with
  | some (t, i, _) => (s.modClip t.num i fun c => { c with refused := c.refused + 1 }).dirTouch
  | none => s

/-- The bytes of a Frame Write's payload this segment reaches (R253). -/
def segEnd (c : Sqe) : Nat := c.cdw12.toNat + min (4 * c.cdw10.toNat) (c.cdw13.toNat - c.cdw12.toNat)

/-- The segment's checks of R255 against its frame: OFFSET, LENGTH and LAST agree. -/
def segSequenceOk (c : Sqe) (taken length : Nat) : Bool :=
  c.cdw12.toNat == taken && c.cdw13.toNat == length && c.cdw11.getLsbD 5 == (segEnd c == length)

/-- A FIRST segment whose frame is to be recorded: the frame begins, and the segment goes on the write path, or its sequence is
wrong and the frame is abandoned. -/
def State.acceptFirst (s : State) (c : Sqe) (stamp : Nat) : State :=
  let slot := dwBits c.cdw11 0 4
  match s.slotClip slot with
  | none => s.fail c (s.noTake slot)
  | some (t, i, _) =>
    let host := c.cdw14.toNat + 2 ^ 32 * c.cdw15.toNat
    match s.beginFrame t.num i c.cdw13.toNat stamp host c.ctrl.val c.sq (dwBits c.cdw11 16 16) 0 (c.cdw11.getLsbD 6) none with
    | none => ((s.takeFull stamp).fail c (stVendor 0x86 true)).countRefused slot
    | some (s1, f) =>
      if segSequenceOk c 0 c.cdw13.toNat then s1.addSegment f .frame c.ctrl.val c 0 (segEnd c) (c.cdw11.getLsbD 5) false
      else (s1.abandon f (stVendor 0x85 true)).fail c (stVendor 0x85 true)

/-- The frame in flight a segment names. -/
def State.frameTagged (s : State) (slot tag : Nat) : Option InFlight :=
  s.takes.inflight.find? fun f => f.slot == slot && f.chan.isNone && f.tag == tag

/-- A later segment of a frame in flight: it continues its frame, or the frame is abandoned. -/
def State.continueFrame (s : State) (c : Sqe) : State :=
  match s.frameTagged (dwBits c.cdw11 0 4) (dwBits c.cdw11 16 16) with
  | none => s.fail c (stVendor 0x85 true)
  | some f =>
    if segSequenceOk c f.taken f.length then s.addSegment f .frame c.ctrl.val c f.taken (segEnd c) (c.cdw11.getLsbD 5) false
    else (s.abandon f (stVendor 0x85 true)).fail c (stVendor 0x85 true)

/-- The outcome of a descriptor that begins no frame. -/
def State.descOutcome (s : State) (d idx : Nat) (q : DmaDesc) (st : Status) (stamp : Nat) : State :=
  s.dmaOutcome d idx ⟨d, idx, q.tag, statusWord st false, 0xFFFFFFFF, stamp % 2 ^ 32, 0⟩

/-- A descriptor's frame is to be recorded: it begins, and its payload read is one command of the write path. -/
def State.acceptPull (s : State) (slot d idx : Nat) (q : DmaDesc) (stamp : Nat) : State :=
  match s.slotClip slot with
  | none => s.descOutcome d idx q (s.noTake slot) stamp
  | some (t, i, _) =>
    match s.beginFrame t.num i q.length stamp q.hostTime (t.ctrl + 4) d idx q.tag (q.flags.testBit 0) (some d) with
    | none => ((s.takeFull stamp).descOutcome d idx q (stVendor 0x86 true) stamp).countRefused slot
    | some (s1, f) => s1.addSegment f .pull 4 ownSqe 0 q.length true false

/-- A frame that waited for a START, with the segments that joined it. -/
def State.acceptReply (s : State) (r : Reply) : State :=
  match r.cmds, r.pull with
  | c :: rest, _ => rest.foldl State.continueFrame (s.acceptFirst c r.stamp)
  | [], some (d, idx, q) => s.acceptPull r.slot d idx q r.stamp
  | [], none => s

/-- The order of waiting frames: by stamp, then by rank (R248). -/
def Reply.order (r : Reply) : Nat := r.stamp * 2 ^ 18 + (match r.cmds, r.pull with
  | c :: _, _ => c.ctrl.val * 65536 + c.sq
  | [], some (d, _, _) => d
  | [], none => 0)

/-- An ARMED take moves to RECORDING at T. Frames that waited since T are recorded. -/
def State.startArmed (s : State) (k : Take) (t : Nat) : State :=
  let s1 := (s.modTake k.num fun x => { x with startTime := t }).takeState k.num 2
  let keep := t - k.pretrigger * 1000000000
  let s2 := if k.ring then (List.range k.clips.length).foldl (fun u i => u.ringToClip k.num i keep) s1 else s1
  let s3 := s2.writeHeaders k.num 2
  let mine := s3.takes.replies.filter fun r => k.clips.any (fun c => c.slot == r.slot) && t ≤ r.stamp
  let s4 := s3.modTakes fun x => { x with replies := x.replies.filter fun r => !mine.contains r }
  (sortByKey Reply.order mine).foldl State.acceptReply s4

/-! ### Chain and mark records (08 R303, R306) -/

/-- A record of one sector that carries no frame, in every path of a take's clip. -/
def State.plainRec (s : State) (num i kind stamp : Nat) (body : List Nat) : State :=
  let r : ClipRec := ⟨kind, 16 * bit (s.inHoldover && kind != 4), 0, 1, if kind = 4 then 0 else 0x40, allOnes64, stamp, 0, 0, 0, 0, body, true⟩
  match s.addRec num i r with
  | none => s
  | some (s1, x, lsas) => (s1.takeWrite 6 num i lsas [plainRecord num i x] none true).fullCheck s1.steepleTime

/-- MARK in RECORDING: a mark in every clip's open segment, or a mark record where its event table is full. -/
def State.markTake (s : State) (num t source : Nat) : State :=
  match s.takeOf num with
  | none => s
  | some k => (List.range k.clips.length).foldl (fun u i =>
      match (u.takeOf num).bind fun x => x.clips[i]? with
      | none => u
      | some c =>
        if c.events.length < 4096 then u.modClip num i fun x => { x with events := x.events ++ [⟨1, 2 ^ source, t, none, 0⟩] }
        else (u.plainRec num i 4 t []).modClip num i fun x => { x with markRecs := true }) s

/-- A chain break (kind 2) or heal (3) the Steeple block reports: a chain record in every open clip, an event where the table has
room. `body`: PORT, ROLE_AFTER, DRIFT_PPB, UNC_PS, OFFSET_PS, SLEW_END. -/
def State.chainRecord (s : State) (kind stamp : Nat) (body : List Nat) : State :=
  (s.openTakes.filter fun t => t.sealing == 0).foldl (fun u t =>
    (List.range t.clips.length).foldl (fun v i =>
      match (v.takeOf t.num).bind fun x => x.clips[i]? with
      | none => v
      | some c =>
        let off := c.pos
        let v1 := v.plainRec t.num i kind stamp body
        let placed := match (v1.takeOf t.num).bind fun x => x.clips[i]? with | some c1 => c1.pos != c.pos | none => false
        if (t.state = 1 && t.ring) || !placed then v1
        else v1.modClip t.num i fun x => { x with
          chainRecs := true
          events := if x.events.length < 4096 then x.events ++ [⟨kind, body.getD 0 0, stamp, some off, body.getD 3 0⟩] else x.events })
      ((u.modTake t.num fun x => { x with chainBreak := x.chainBreak || kind == 2 }).dirTouch)) s

/-! ### Triggers (R269 to R276) -/

/-- A take that a STOP at T closed before it was triggered: a START at the same T comes before that STOP (R274). -/
def Take.reopens (t : Take) (time : Nat) : Bool := t.state == 3 && t.stopBy != 0 && t.startTime == 0 && t.closeTime == time && t.sealing == 0

/-- A START may move the take: a take opened with JOIN_CHAIN stays ARMED until its broadcast has come (R245). -/
def Take.startable (t : Take) (time : Nat) : Bool := (t.state == 1 || t.reopens time) && !(t.joinChain && !t.joined)

/-- An action does something to a take now: a START to an ARMED one, a MARK to a RECORDING one, a STOP to either; a START or
MARK at the close point of the same T still applies first. -/
def Take.takesAction (t : Take) (action time : Nat) : Bool :=
  if action = 0 then t.startable time
  else if action = 1 then t.state == 1 || t.state == 2
  else t.state == 2 || (t.state == 3 && t.startTime != 0 && t.closeTime == time && t.sealing == 0)

/-- START at T: then a MARK and a STOP of the same T that came before it apply. -/
def State.startTake (s : State) (num t : Nat) : State :=
  match s.takeOf num with
  | none => s
  | some k =>
    if !k.startable t then s
    else
      let s1 := (if k.state = 1 then s else s.modTake num fun x => { x with reason := 0, closeTime := 0, stopBy := 0 }).startArmed k t
      let s2 := match k.mark with
        | some (m, source) => if m = t then s1.markTake num t source else s1
        | none => s1
      if k.state = 1 then s2 else s2.closeTake num t k.stopBy

/-- TAK_LAST_TRIG and TAK_STATUS hold the last trigger applied. -/
def State.lastTrigger (s : State) (action source t : Nat) : State :=
  ((s.wr64 Reg.TAK_LAST_TRIG_LO Reg.TAK_LAST_TRIG_HI t).wr Reg.TAK_STATUS_TRIG_SRC (2 ^ source)).wr Reg.TAK_STATUS_TRIG_ACTION action

/-- A trigger acts on a take (R274): START drives TRIG_OUT, from T + 30 ns for a scheduled or Steeple trigger, from now otherwise.
`reason` is the END_REASON of a STOP. A MARK that meets the take ARMED is kept for a START of the same T. -/
def State.applyTrigger (s : State) (num action source t reason : Nat) (lead : Bool) : State :=
  match s.takeOf num with
  | none => s
  | some k =>
    if !k.takesAction action t then
      (if action = 2 && (k.state == 1 || k.reopens t) then s.modTake num fun x => { x with mark := some (t, source) } else s)
    else
      let s1 := s.lastTrigger action source t
      if action = 0 then (s1.pulse (if lead then max s.now (s.modelTime t + 30) else s.now)).startTake num t
      else if action = 1 then s1.closeTake num t reason
      else s1.markTake num t source

/-- Order of actions at one T: START, MARK, STOP, close. -/
def actionRank (a : Nat) : Nat := if a = 0 then 0 else if a = 2 then 1 else 2

/-- Fires what is due on the takes, in the order of T: scheduled triggers, each raising source 1,765, and scheduled closes. -/
def State.fireOne (s : State) (num : Nat) (x : Sched) : State :=
  let s1 := s.modTake num fun t => { t with sched := t.sched.erase x }
  if x.action = 3 then
    let live := match s.takeOf num with | some t => t.state == 1 || t.state == 2 | none => false
    if live then (s1.modTake num fun t => { t with note := x.note }).closeTake num x.time 1 else s1
  else (s1.applyTrigger num x.action x.source x.time (if x.chainClose then 3 else 2) true).raise 1765

def State.dueList (s : State) (closes : Bool) : List (Nat × Sched) :=
  let l := s.openTakes.flatMap fun t => (t.sched.filter fun x => x.time ≤ s.steepleTime && (closes || x.action != 3)).map fun x => (t.num, x)
  sortByKey (fun (p : Nat × Sched) => p.2.time * 4 + actionRank p.2.action) l

def State.fireDue (s : State) : State := (s.dueList true).foldl (fun u p => u.fireOne p.1 p.2) s

/-- A scheduled T is acceptable (R272): 10 µs to 86,400 s after the device's time. -/
def State.schedTimeOk (s : State) (t : Nat) : Bool := s.steepleTime + 10000 ≤ t && t ≤ s.steepleTime + 86400000000000

def Take.pendingTriggers (t : Take) : Nat := (t.sched.filter fun x => x.action != 3).length

/-- A Steeple trigger for the takes that `p` selects: applied where its time has come, scheduled otherwise (09 R343) where fewer than 4
scheduled triggers are pending (R272). -/
def State.steepleTrigger (s : State) (p : Take → Bool) (action t : Nat) (chainClose : Bool) : State :=
  let late := t ≤ s.steepleTime
  let s1 := if late then s.wr Reg.STP_COUNT_LATE (satAdd 65535 (s.rd Reg.STP_COUNT_LATE) 1) else s
  (s1.openTakes.filter p).foldl (fun u k =>
    if late then u.applyTrigger k.num action 0 u.steepleTime (if chainClose then 3 else 2) true
    else if k.pendingTriggers < 4 then u.modTake k.num fun x => { x with sched := x.sched ++ [⟨t, action, 0, chainClose, []⟩] }
    else u) s1

/-! ### Sealing (08 R308; R282) -/

/-- Channels of a take. -/
def Take.channels (t : Take) : List Nat := t.clips.flatMap fun c => if c.desc.mode = 1 then (List.range c.desc.channels).map fun j => c.desc.channel + j else []

def State.dma (s : State) (d : Nat) : Option Dma := mapGet (fun _ => none) s.takes.dmas d
def State.setDma (s : State) (d : Nat) (x : Option Dma) : State := s.modTakes fun t => { t with dmas := mapSet (fun _ => none) t.dmas d x }
def State.modDma (s : State) (d : Nat) (f : Dma → Dma) : State := match s.dma d with | some x => s.setDma d (some (f x)) | none => s

/-- A channel has nothing left: every descriptor produced before the close point is consumed and its status written and read back
(R282). -/
def State.dmaDone (s : State) (t : Take) (d : Nat) : Bool := match s.dma d with
  | some x => x.consumed == x.fetched && (x.produced.all fun p => t.closeTime ≤ s.steepleTime - (s.now - p.2)) && x.next.isEmpty && x.wrote.isNone
  | none => true

/-- A take has no frame in flight or waiting, and its channels are drained. -/
def State.drained (s : State) (t : Take) : Bool :=
  !(s.takes.inflight.any fun f => t.clips.any fun c => c.slot == f.slot) &&
  !(s.takes.replies.any fun r => t.clips.any fun c => c.slot == r.slot) && t.channels.all (s.dmaDone t)

/-- Sends the contents of index segments whose frames are all whole. -/
def State.sendSegs (s : State) (num i : Nat) : State :=
  match (s.takeOf num).bind fun t => t.clips[i]? with
  | none => s
  | some c => (List.range c.segs.length).foldl (fun u k => match c.segs[k]? with
      | none => u
      | some g =>
        if g.sent || g.sectors == 0 || !((c.frames.drop g.first).take g.frames).all (fun r => r.whole) then u
        else
          let lsas := (List.range g.sectors).map fun j => unitLsa s.geom c.units (g.off + j)
          (u.takeWrite 3 num i lsas (sectorsOf (c.segBytes k g)) none true).modClip num i fun x => { x with segs := modAt x.segs k fun y => { y with sent := true } }) s

/-- The ring frames of a take that no trigger started are discarded when it is sealed, and the clip has no ring (R280). -/
def State.sealRing (s : State) (num i : Nat) (c : Clip) : State :=
  if c.ring.isEmpty then s
  else (s.discardRecs num i c.ringRecs).modClip num i fun x => { x with ring := [], pos := 512, firstSeq := x.nextSeq }

/-- The final index segment: the frames no full segment covers (R308). -/
def State.lastSeg (s : State) (num i : Nat) (c : Clip) : State :=
  let left := c.frames.length - 65536 * c.segs.length
  let n := segSectors left c.events.length
  match s.clipGrow num i n true with
  | some (v, off) => v.modClip num i fun (x : Clip) =>
      { x with segs := x.segs ++ [⟨off, n, 65536 * x.segs.length, left, x.events, false⟩], events := [] }
  | none => s

/-- Places and sends a clip's final index segment, segment table and trailer. A take that never started has no records of its ring. -/
def State.sealClip (s : State) (num i : Nat) : State :=
  match s.takeOf num with
  | none => s
  | some t => match t.clips[i]? with
    | none => s
    | some c0 =>
      let s00 := (s.sealRing num i c0).placeMissing num i
      match (s00.takeOf num).bind fun x => x.clips[i]? with
      | none => s00
      | some c =>
        let s1 := s00.lastSeg num i c
        match s1.clipGrow num i (ceilDiv (64 + 8 * (c.segs.length + 1)) 4096) true with
        | none => s1
        | some (s2, tab) => match s2.clipGrow num i 1 true with
          | none => s2
          | some (s3, tr) =>
            let s4 := s3.modClip num i fun x => { x with segtab := tab, ended := 4096 * (tr + 1) }
            match s4.takeOf num with
            | none => s4
            | some t2 => match t2.clips[i]? with
              | none => s4
              | some c2 =>
                let lsa (o : Nat) := unitLsa s4.geom c2.units o
                let tabBytes := sectorsOf c2.segTable
                let s5 := (s4.sendSegs num i).takeWrite 4 num i ((List.range tabBytes.length).map fun k => lsa (tab + k)) tabBytes none true
                s5.takeWrite 5 num i [lsa tr] [trailer s4.uniqueId s4.takeNsid t2 c2 i] none true

/-- The take is CLOSED: its channels are unused again, the command that waits for its end completes. -/
def State.closed (s : State) (t : Take) : State :=
  let s1 := (s.writeHeaders t.num 3).takeState t.num 4
  let s2 := t.channels.foldl (fun u d => (u.setDma d none).setReg (Reg.TAK_DMA_STAT d) 0) s1
  let s3 := s2.modTake t.num fun x => { x with closeCmds := [], sealing := 3 }
  let frames := ((match s3.takeOf t.num with | some x => x | none => t).clips.map fun (c : Clip) => c.frames.length).sum
  t.closeCmds.foldl (fun u c => u.complete c stOk (frames % 2 ^ 32) 0 []) s3

/-- The change n of the take directory, or a later one, is durable: the stripes of its three copies are. -/
def State.dirDurable (s : State) (n : Nat) : Bool :=
  (s.ftl.takeDir != 0 && !s.ftl.metas.any fun m => match m.of with | .takeDir k => n ≤ k | _ => false) ||
  s.ftl.metas.any fun m => match m.of, m.ssa with
    | .takeDir k, some a => n ≤ k && (s.metaCopies m).length == 3 && (List.range 3).all (fun c => match s.stripe (ssaStripe a + c) with | some st => st.state == 2 | none => true)
    | _, _ => false

/-- Moves a take's opening and sealing on. -/
def State.takeStep (s : State) (num : Nat) : State :=
  match s.takeOf num with
  | none => s
  | some t =>
    let s1 := if t.isOpen then (List.range t.clips.length).foldl (fun u i => u.sendSegs num i) s else s
    let s2 := match t.openCmd with
      | some c =>
        if s1.takeBusy num (fun p => p == 0) || !s1.dirDurable t.dirAt then s1
        else (s1.modTake num fun x => { x with openCmd := none }).complete c stOk num (t.clips.foldl (fun (a : Nat) (x : Clip) => a ||| 2 ^ x.slot) 0) []
      | none => s1
    match s2.takeOf num with
    | none => s2
    | some t2 =>
      if t2.state = 3 ∧ t2.sealing = 0 ∧ t2.closeTime ≤ s2.steepleTime ∧ s2.drained t2 then
        (List.range t2.clips.length).foldl (fun u i => u.sealClip num i) (s2.modTake num fun x => { x with sealing := 1 })
      else if t2.state = 3 ∧ t2.sealing = 1 ∧ !s2.takeBusy num (fun p => p != 2) then s2.closed t2
      else s2

/-! ### What the write path hands over -/

/-- A command of the take service has completed on the write path. -/
def State.takeDone (s : State) (w : WCmd) : State :=
  match w.kind with
  | .take =>
    if w.tag = 8 then
      match s.takes.inflight.find? fun f => f.slot == w.stream && f.fix == 1 && s.takes.dir.any (fun t => t.num == w.frameSeq) &&
          (match s.slotClip f.slot with | some (_, _, c) => (match c.recOf s.geom f.seq with | some (_, l) => l.head? == w.lsas.head? | none => false) | none => false) with
      | some f => (s.modFrames fun x => if x.slot == f.slot && x.seq == f.seq then { x with fix := 2 } else x).frameSettle { f with fix := 2 }
      | none => s
    else s
  | _ => match s.frameOf w.stream w.frameSeq with
    | none => s
    | some f =>
      let segs := f.segs.filter fun x => x != w.id
      let f2 := { f with segs := segs, lastCmd := if w.last && f.chan.isNone then some w.sqe else f.lastCmd }
      let s1 := s.modFrames fun x => if x.slot == f.slot && x.seq == f.seq then f2 else x
      let s2 := if w.last || f.chan.isSome || !f.answers then s1 else s1.complete w.sqe stOk (if w.wt == some true then 0xB0 else 0) 0 []
      s2.frameSettle f2

/-- A Take Open whose headers cannot be written opens nothing: its slots' states change, its frames, its waiting frames and its channels end. -/
def State.openFailed (s : State) (t : Take) (c : Sqe) (st : Status) : State :=
  let slots := t.clips.map fun (k : Clip) => k.slot
  let s1 := (s.takes.inflight.filter fun f => slots.contains f.slot).foldl (fun u f => ((u.endSegments f st).dropFrame f)) s
  let s2 := (s1.takes.replies.filter fun r => slots.contains r.slot).foldl (fun u r => r.cmds.foldl (fun v q => v.fail q st) u) s1
  let s3 := t.channels.foldl (fun u d => (u.setDma d none).setReg (Reg.TAK_DMA_STAT d) 0) s2
  let mapped := t.clips.flatMap fun (k : Clip) => (k.recs.flatMap (k.recLsas s.geom)) ++ (k.ringRecs.flatMap (k.ringLsas s.geom)) ++ [unitLsa s.geom k.units 0]
  let s4 := (s3.modTakes fun k => { k with
    dir := k.dir.filter (fun y => y.num != t.num), replies := k.replies.filter fun r => !slots.contains r.slot }).takeTrim mapped
  (s4.dirChange.raiseAll (slots.map fun k => 1616 + k)).fail c st

/-- A command of the take service has failed on the write path: a frame's is abandoned with its status, a Take Open whose headers cannot
be written opens nothing. -/
def State.takeFailed (s : State) (x : WCmd × Status) : State :=
  let w := x.1
  let st := x.2
  match w.kind with
  | .take =>
    if w.tag = 0 then match s.takeOf w.frameSeq with
      | some t => match t.openCmd with
        | some c => s.openFailed t c st
        | none => s
      | none => s
    else s
  | _ => match s.frameOf w.stream w.frameSeq with
    | none => s
    | some f =>
      let s1 := if f.chan.isNone && f.answers then s.fail w.sqe st else s
      s1.abandon { f with segs := f.segs.filter fun y => y != w.id } st

/-- Frames in flight whose place has become sure are whole. -/
def State.framesSettle (s : State) : State :=
  s.takes.inflight.foldl (fun u f => match u.frameOf f.slot f.seq with | some g => u.frameSettle g | none => u) s

/-- What the write path has completed and failed reaches the take service; takes go on; due triggers have fired before. -/
def State.takeSettle (s : State) : State :=
  let s1 := s.path.done.foldl State.takeDone (s.modPath fun p => { p with done := [] })
  let s2 := s1.path.failed.foldl State.takeFailed (s1.modPath fun p => { p with failed := [] })
  ((s2.takes.dir.map fun t => t.num).foldl State.takeStep s2.framesSettle).fullClear

/-- Everything that follows a change: the write path's consequences, then the take service's. -/
def State.settleAll (s : State) : State := s.settle.takeSettle

end Sys2Proof.Machine
end

