-- ==== Sys2Proof/Machine/Restart.lean ====
section
/-!
DEFINITION. Machine/Restart.lean: the resets of the whole device (03 R78 to R82, 02 R62 to R70), the assertion of PWR_KILL_N, and the
end of a flush in charge (10 R372, R373; 11 R393, R395; 21 R717): seal stripes, the TAIL page, and what follows.
-/
namespace Sys2Proof.Machine

def State.modBoot (s : State) (f : Boot → Boot) : State := { s with boot := f s.boot }
def State.modBoard (s : State) (f : Board → Board) : State := { s with board := f s.board }
def State.modLife (s : State) (f : Life → Life) : State := { s with life := f s.life }
def State.modThm (s : State) (f : Thm → Thm) : State := { s with thm := f s.thm }
def State.modMaint (s : State) (f : Maint → Maint) : State := { s with maint := f s.maint }

/-! ### Main reset -/

/-- A register that main reset does not touch. -/
def auxReg (off : Nat) : Bool := match regDesc off with | some d => d.aux | none => inBelfryWindow off

/-- What flash translation finds after a main reset: what flash holds, and what firmware keeps in its metadata; every table in
DRAM or SRAM is empty, no staging copy is left, and a journal page or checkpoint not yet written is gone. -/
def Ftl.afterReset (f : Ftl) (metaCopies : MetaSec → List Nat) : Ftl :=
  { Ftl.init with
    seqNext := f.seqNext
    seqCeil := f.seqCeil
    stripes := f.stripes.map fun (st : Stripe) => { st with
      data := st.data.map fun (e : Nat × Option Placed) => (e.1, e.2.map fun p => { p with staged := false, window := false }) }
    bands := f.bands
    blocks := f.blocks
    nextStripe := f.nextStripe
    nextBand := f.nextBand
    bandsJournaled := f.nextBand
    everProgrammed := f.everProgrammed
    pages := f.pages.filter fun j => !j.copies.isEmpty
    jseq := f.jseq
    cps := f.cps.filter fun c => c.durable
    unreadable := f.unreadable
    disagree := f.disagree
    health := f.health
    spareAtStart := f.spareAtStart
    metas := f.metas.filter fun m => !(metaCopies m).isEmpty
    takeDir := f.takeDir
    fineNum := f.fineNum
    configCopy := f.configCopy }

/-- The counts of the data path that SMART reports last over resets. -/
def Path.afterReset (p : Path) : Path :=
  { Path.init with nextId := p.nextId, unitsWritten := p.unitsWritten, unitsRead := p.unitsRead, hostReads := p.hostReads, hostWrites := p.hostWrites }

/-- The thermal monitor after a main reset: the sensor's faults and the trip a restart waits for are the Belfry's (21 R708, R721). -/
def Thm.afterReset (t : Thm) : Thm :=
  { Thm.init with
    raw := t.raw
    rawRun := t.rawRun
    trip := t.trip
    tripAt := t.tripAt
    killed := t.killed
    waiting := t.waiting
    acked := t.acked
    selfTest := t.selfTest
    selfAt := t.selfAt
    below := t.below
    tripTimes := t.tripTimes
    warnNs := t.warnNs
    critNs := t.critNs
    tmt1N := t.tmt1N
    tmt1Ns := t.tmt1Ns
    tmt2N := t.tmt2N
    tmt2Ns := t.tmt2Ns
    lastAt := t.lastAt
    fault := t.fault
    ackDue := t.ackDue
    last := t.last }

/-- The part of the NVM subsystem that a main reset leaves: what has been posted, the stored namespaces, a sanitize, and the settings of
the management endpoint, which is the Belfry's. Every controller sees its link go down. -/
def Nvme.afterReset (v : Nvme) : Nvme :=
  { v with ctrls := [], outs := [], fetchStopped := false, seqWaits := [], tempOver := none, tempUnder := 0, tempOverIn := false, tempUnderIn := false }

/-- Retirements recorded take effect at a main reset (17 R627). -/
def State.showChannels (s : State) : State :=
  let l := s.life.channels
  let s1 := (s.wr Reg.DRC_RETIRED_CHANNELS (l.foldl (fun a c => a ||| 2 ^ c) 0)).wr Reg.DRC_MAP_CHANNELS (24 - l.length)
  l.foldl (fun t c => t.wr (Reg.DRC_STATUS_STATE c) 5) s1

/-- What interrupts the takes from here, once the last recovery has sealed those before (07 R288). -/
def State.noteEnd (s : State) (reason : Nat) : State :=
  if s.rd Reg.FTL_STATUS_TIER ≠ 0 then s.modBoot fun b => { b with lastEnd := reason } else s

/-- The position of each activity that has one (22 R741): the audit's next stripe, the scrub's next line of each channel. -/
def State.activityPositions (s : State) : SMap Nat :=
  let a := mapSet (fun _ => 0) s.maint.positions (2 ^ 32 + 0xFFFFFFFF) s.ftl.auditNext
  s.dram.chans.foldl (fun m e => mapSet (fun _ => 0) m (3 * 2 ^ 32 + e.1) e.2.pass) a

/-- Main reset: every block on the main rails, with its registers and SRAM. The Belfry, its SRAM, measurement registers 0 to 2 and the NOR
are untouched. -/
def State.mainReset (s : State) : State :=
  let s0 := s.tally 0x20 1
  let s1 : State := { s0 with
    regs := s0.regs.filter fun (e : Nat × Word) => auxReg e.1
    latches := s0.latches.filter fun (e : Nat × Word) => inBelfryWindow (e.1 / 8)
    fit := ⟨[], [], 0, []⟩
    evt := ⟨[], [], []⟩
    boot := { s0.boot with
      meas := s0.boot.meas.filter fun (e : Nat × BitVec 384) => e.1 < 3
      rdyAt := none
      loaded := false }
    board := { s0.board with mainRunning := false, pulses := [], pfiSince := s0.now, pfiReport := false }
    nvme := s0.nvme.afterReset
    stp := { Stp.init with baseAt := s0.now, acquireAt := s0.now }
    win := Window.init
    path := s0.path.afterReset
    ftl := s0.ftl.afterReset s0.metaCopies
    cph := { Cph.init with recs := s0.cph.recs, half := s0.cph.half, epoch := s0.cph.epoch, used := s0.cph.used }
    takes := { Takes.init with dir := s0.takes.dir, nextTake := s0.takes.nextTake, generation := s0.takes.generation, discardTotal := s0.takes.discardTotal }
    pwr := ⟨0, 0, 0, 0, 0, false, [], [], none, 0, none, 0, none, 0⟩
    slv := ⟨[], [], s0.slv.nextOp, none⟩
    links := []
    thm := s0.thm.afterReset
    dram := ⟨[], [], [], [], []⟩
    mnt := { s0.mnt with loops := [], strs := [], learn := none, lossOcc := 0, codes := [] }
    maint := { s0.maint with acts := [], positions := s0.activityPositions } }
  s1.showChannels

/-- The restart after a flush, or at once where nothing is to be flushed: a main reset with the rails up, resumed at phase MAIN_INIT (R81). -/
def State.warmReset (s : State) (suspect : Bool) : State :=
  let s1 := if suspect then s.modBoot fun b => { b with journalSuspect := true, seq := b.seq + 1 } else s
  let s2 := ((s1.tally 0xA4 1).noteEnd 7).mainReset
  (s2.modBoot fun b => { b with mainInitAt := s.now }).setPhase 4

/-- PWR_KILL_N is asserted: every main regulator turns off. A power-up in progress is abandoned (02 R67). -/
def Board.killed (b : Board) : Board :=
  { b with
    pwrKill := true
    mainPg := false
    railsAbandoned := b.railsAbandoned || (!b.mainRunning && (b.railStage != 0 || b.railRetryAt.isSome))
    railStage := 0
    railDone := none
    vcore := 0
    railRetryAt := none
    downStage := 0 }

/-- The rails fall, and with them all that a main reset clears. -/
def State.rails0 (s : State) : State := if s.board.mainRunning then s.mainReset.modBoard Board.killed else s.modBoard Board.killed

/-- Sectors whose writes have completed and that no durable stripe holds. -/
def State.undurableSectors (s : State) : Nat :=
  ((s.ftl.stripes.filter fun st => !s.durable st.id).map fun st => (st.data.filter fun e => match e.2 with
    | some p => p.sec.nsid != 0 && p.source.isNone && ssaAt s.ftl.map p.sec.nsid p.sec.lsa == some (ssaOf st.id e.1)
    | none => false).length).sum

/-- The trip in hand is closed: how its flush ended, when, and what it left (21 Table 21.4). -/
def State.tripKilled (s : State) (how : Nat) : State :=
  match s.thm.trip with
  | some r =>
    if s.thm.killed then s
    else s.modThm fun t => { t with
      killed := true, trip := some { r with flush := how, flushUs := (s.now - t.tripAt) / 1000, undurable := s.undurableSectors } }
  | none => s

/-- PWR_KILL_N is asserted: `how` is the FLUSH code of a trip record, if there is a trip (0 completed, 1 deadline, 2 not run, 3 cut by HARD). A
flush cut short is counted. -/
def State.kill (s : State) (how : Nat) : State :=
  let s1 := s.tripKilled how
  let s2 := if how ≠ 0 && s.ftl.flush.kind != 0 then s1.tally 0x30 1 else s1
  (s2.noteEnd (if s.thm.trip.isSome then 8 else 5)).rails0

/-! ### Aux reset (03 R78) -/

/-- At start-up the counters are those of the newer copy of the counters record (22 R747). -/
def State.loadCounters (s : State) : State :=
  let newer := match s.life.copyA, s.life.copyB with
    | some a, some b => some (if a.seq < b.seq then b else a)
    | some a, none => some a
    | none, some b => some b
    | none, none => none
  match newer with
  | some c => (s.modLife fun l => { l with counters := c.counters, hist := c.hist }).modMaint fun m => { m with positions := c.positions }
  | none => s.modLife fun l => { l with counters := [], hist := [] }

/-- An aux reset cuts a Firmware Commit short (03 R108, R109): the inactive slots it was writing hold what their digests do not match, and are
found so at the next boot. -/
def Boot.commitCut (b : Boot) : Boot :=
  match b.commit with
  | none => b
  | some o =>
    let hit (i : Nat) : Bool := o.kinds.any fun k => i == 2 * k + (1 - (b.kinds.getD k ⟨0, none, none, 0⟩).active)
    { b with commit := none, slots := b.slots.filter fun e => !hit e.1 }

/-- The whole device, the Belfry included; the OTP and the NOR stay. THERM_TRIP_N is released (21 R719), PWR_KILL_N is held low until the Belfry
is ready. -/
def State.auxReset (s : State) : State :=
  let s1 := (s.mainReset.loadCounters).modBoot Boot.commitCut
  let s2 : State := { s1 with
    regs := []
    latches := []
    image := ⟨[], false, 0, none, none, none, [], none⟩
    boot := { s1.boot with
      meas := [], belfrySlotLatch := 0, belfryHalted := false, auxResetAt := s1.now, mainInitAt := 0,
      recoveryBuf := [], running := [] }
    board := { s1.board with
      vaux := true, pwrKill := true, thermTrip := false, mainPg := false, railStage := 0, railDone := none, railsAbandoned := false, vcore := 0,
      spiReleased := false, railRetryAt := none, railRetried := false, railFault := none, downStage := 0, belGpio := 0 }
    nvme := { s1.nvme with miFreq := 100, miUnit := 64, miReplies := [] }
    thm := { s1.thm with waiting := false, acked := false, selfTest := none, below := none, tripTimes := [], trip := none, killed := false }
    maint := { s1.maint with recal := [], recalGood := [], thresh := [], threshSince := [], passAt := 0, lastOp := 0 }
    port := ⟨0, [], [], [], []⟩ }
  (((s2.modLife fun l => { l with secAt := s.now, minAt := s.now }).tally 0x18 1).showChannels).setPhase 0

/-! ### The end of a flush in charge -/

/-- A granted chunk is not yet in the stripe buffer. -/
def State.flushBusy (s : State) : Bool := s.path.writes.any fun w => 4096 * w.places.length < w.granted

/-- One seal stripe: a fill row and a hem page with SEAL set (11 R393), on a band of the cool set in a cool flush. -/
def State.sealStripe (s : State) : Option State :=
  match s.bandWithRoom 0 0 1 with
  | none => none
  | some (s1, b) => match s1.beginStripe b with
    | none => none
    | some (s2, st) => some ((s2.modStripe st.id fun x => { x with next := 1 }).closeStripe st.id 3)

/-- Seal stripes until the pending queue is empty. -/
def State.sealAll : Nat → State → State
  | 0, s => s
  | n + 1, s => if s.ftl.pendingQ.isEmpty then s else match s.sealStripe with | some t => t.sealAll n | none => s

/-- What follows the flush in charge. -/
def State.flushEnd (s : State) : State :=
  let f := s.ftl.flush
  if f.next = 1 then s.warmReset f.suspect
  else if f.next = 2 then (s.kill 0).auxReset
  else s.kill 0

/-- Moves the flush in charge on: granted data into stripes, open stripes closed with fill, seal stripes, the TAIL page where there is
to be one, the end. -/
def State.flushStep (s : State) : State :=
  if s.ftl.flush.kind = 0 ∨ s.flushBusy then s
  else
    let s1 := (s.ftl.stripes.filter fun st => st.state == 0 && st.next != 0).foldl (fun t st => t.closeStripe st.id 2) s
    if s1.ftl.stripes.any fun st => st.state == 1 then s1
    else if !s1.ftl.pendingQ.isEmpty then s1.sealAll (s1.ftl.pendingQ.length + 1)
    else if !s1.ftl.flush.tailDue then s1.flushEnd
    else match s1.ftl.flush.tail with
      | none =>
        let s2 := s1.writePage true
        s2.modFtl fun t => { t with flush := { t.flush with tail := some t.jseq } }
      | some _ => if s1.ftl.pages.all fun j => 3 ≤ j.copies.length then s1.flushEnd else s1

end Sys2Proof.Machine
end

