-- ==== Sys2Proof/Machine/Dma.lean ====
section
/-!
DEFINITION. Machine/Dma.lean: the DMA engine of pull streams (07 R258 to R268, R287) and the arrival of host data.
-/
namespace Sys2Proof.Machine

/-! ### States of a channel (Table 7.15) -/

def State.dmaState (s : State) (d : Nat) : Nat := s.rd (Reg.TAK_DMA_STAT_STATE d)
def State.setDmaState (s : State) (d st : Nat) : State := s.wr (Reg.TAK_DMA_STAT_STATE d) st

/-- Fill: PI − CI modulo 2^32 (R260). -/
def State.fill (s : State) (d : Nat) : Nat := (s.rd (Reg.TAK_DMA_PI_PI d) + 2 ^ 32 - s.rd (Reg.TAK_DMA_CI_CI d)) % 2 ^ 32

/-- Descriptors produced and not fetched. -/
def State.unfetched (s : State) (d : Nat) (x : Dma) : Nat := (s.rd (Reg.TAK_DMA_PI_PI d) + 2 ^ 32 - x.fetched) % 2 ^ 32

/-- A channel runs: neither unused, PAUSED nor in FAULT. -/
def State.dmaRuns (s : State) (d : Nat) : Bool := (s.dma d).isSome && s.dmaState d != 5 && s.dmaState d != 6

/-- The frame a channel is fetching. -/
def State.dmaBusy (s : State) (d : Nat) : Option InFlight := s.takes.inflight.find? fun f => f.chan == some d && f.buf.length != f.length

/-- The channel waits at the gate for a chunk: its frame has data left and none granted for it. -/
def State.dmaWaits (s : State) (d : Nat) : Bool := match s.dmaBusy d with
  | some f => s.path.writes.any fun w => f.segs.contains w.id && w.granted ≤ w.fetched
  | none => false

/-- A FLUSH descriptor produced is not consumed yet. -/
def Dma.flushing (x : Dma) : Bool := match x.flushTo with
  | some f => let left := (f + 2 ^ 32 - x.consumed) % 2 ^ 32; left != 0 && left ≤ 65536
  | none => false

/-- The conditions of R261 but the watermarks: the oldest descriptor has waited, a FLUSH, a closing take. -/
def State.dmaUrgent (s : State) (d : Nat) (x : Dma) : Bool :=
  (1 ≤ s.fill d && x.maxWait != 0 && (x.produced.head?.any fun p => p.2 + x.maxWait * 1000 ≤ s.now)) || x.flushing ||
    (match s.takeOf x.take with | some t => t.state == 3 | none => false)

/-- ACTIVE under R261, keeping its previous state between the watermarks. -/
def State.dmaActive (s : State) (d : Nat) : Bool := match s.dma d with
  | none => false
  | some x => s.dmaUrgent d x || x.highWm ≤ s.fill d || (s.dmaState d != 1 && x.lowWm < s.fill d)

def State.dmaPriority (s : State) (d : Nat) : Nat := s.rd (Reg.TAK_DMA_STAT_PRIORITY d)

/-- Channels the engine may fetch for (R262, R265): running, ACTIVE, with a frame or a descriptor to fetch, not waiting for a chunk. -/
def State.dmaReady (s : State) : List Nat := (List.range 64).filter fun d =>
  s.dmaRuns d && s.dmaActive d && !s.dmaWaits d &&
    ((s.dmaBusy d).isSome || (match s.dma d with | some x => s.unfetched d x != 0 | none => false))

/-- The channel the engine fetches for: the highest priority; of equals the one it was last fetching a frame for, then in turn after the last. -/
def State.dmaChosen (s : State) : Option Nat :=
  let l := s.dmaReady
  let top := maxOf (l.map s.dmaPriority)
  let eq := l.filter fun d => s.dmaPriority d == top
  let turn := (eq.filter fun d => s.takes.rotation < d) ++ eq.filter fun d => d ≤ s.takes.rotation
  match (s.takes.recent.filter fun d => eq.contains d).find? fun d => (s.dmaBusy d).isSome with
  | some d => some d
  | none => turn.head?

/-- The payload bytes of a frame that its granted chunks still take, after its header (R264, R265). -/
def State.grantLeft (s : State) (f : InFlight) : Nat :=
  maxOf (f.segs.map fun id => match s.wcmd id with | some w => 4096 * (w.index + w.granted / 4096) - 64 - f.buf.length | none => 0)

/-- The write path takes the data of a channel's reassembly buffer, as far as its granted chunks and the ingress pool reach; then the engine
requests up to 32 KiB more of the frame (R263, R264). -/
def State.dmaFeed (s : State) (f : InFlight) : State :=
  let n := min f.held.length (s.grantLeft f)
  let s1 := match (f.segs.filterMap s.wcmd).head? with
    | some w => if n = 0 then s else s.arriveFrame w (f.held.take n)
    | none => s
  match s1.frameOf f.slot f.seq with
  | none => s1
  | some g =>
    let used := g.buf.length - f.buf.length
    s1.modFrames fun x => if x.slot == f.slot && x.seq == f.seq then { x with held := x.held.drop used, asked := min x.length (x.buf.length + 32768) } else x

/-- The engine serves the channel it has chosen; a frame fetched whole lets the next channel have its turn. No other channel's read requests
are issued and no other's data is taken (R263). -/
def State.dmaServe : Nat → State → State
  | 0, s => s
  | n + 1, s => match s.dmaChosen with
    | none => s
    | some d => match s.dmaBusy d with
      | none => s
      | some f =>
        let s1 := s.dmaFeed f
        if s1.takes.inflight = s.takes.inflight then s else State.dmaServe n s1

/-- The states of running channels follow (Table 7.15). -/
def State.showDma (s : State) : State :=
  (List.range 64).foldl (fun u d =>
    if !s.dmaRuns d then u
    else
      let st := if s.dmaWaits d then 4 else if (s.dmaBusy d).isSome && s.dmaChosen != some d then 3 else if s.dmaActive d || (s.dmaBusy d).isSome then 2 else 1
      u.setDmaState d st) s

/-- A channel enters FAULT (R268). -/
def State.dmaFault (s : State) (d code : Nat) : State := ((s.setDmaState d 6).wr (Reg.TAK_DMA_STAT_FAULT d) code).raise (1552 + d)

/-! ### Host memory of a channel (R258, R259) -/

/-- Where a descriptor, by its free-running index, and its status record lie in the channel's rings. -/
def Dma.descAddr (x : Dma) (index : Nat) : Nat := x.ringBase + 32 * (index % x.entries)
def Dma.statusAddr (x : Dma) (index : Nat) : Nat := x.statusBase + 16 * (index % x.entries)

/-- The 16 bytes of a status record (Table 7.8). -/
def StatusRec.layout (r : StatusRec) : List Byte := leBytes 4 r.tag ++ leBytes 2 r.status ++ leBytes 2 0 ++ leBytes 4 r.frame ++ leBytes 4 r.stamp

/-- The writes of a batch through the channel's controller: its status records, then the consumed index that covers them. -/
def State.batchWrites (s : State) (d : Nat) (x : Dma) : List HostWrite :=
  let c := s.rd (Reg.TAK_DMA_STAT_CTRL d)
  (x.next.map fun (r : StatusRec) => ⟨c, x.statusAddr r.index, r.layout⟩) ++ [⟨c, x.consAddr, leBytes 8 x.consumed⟩]

/-! ### Status records (R266) -/

/-- Takes n descriptors from the oldest batches. -/
def takeProduced (n : Nat) : List (Nat × Nat) → List (Nat × Nat)
  | [] => []
  | (k, t) :: l => if k = 0 then takeProduced n l else if n = 0 then (k, t) :: l else if n < k then (k - n, t) :: l else takeProduced (n - k) l

/-- Outcomes in ring order become status records to be written: their descriptors are consumed. -/
def State.dmaOrder : Nat → Nat → State → State
  | 0, _, s => s
  | n + 1, d, s => match s.dma d with
    | none => s
    | some x => match x.outcomes.find? fun o => o.1 == x.consumed with
      | some o => dmaOrder n d (s.setDma d (some { x with
          consumed := (x.consumed + 1) % 2 ^ 32, produced := takeProduced 1 x.produced, next := x.next ++ [o.2]
          outcomes := x.outcomes.filter fun y => y != o }))
      | none => s

/-- With no read-back out the batch is written and the consumed index that covers it published; a PAUSED channel's CI stands at the descriptors
consumed (R287). -/
def State.dmaPump (s : State) (d : Nat) : State :=
  match s.dma d with
  | none => s
  | some x0 =>
    let s1 := State.dmaOrder (x0.outcomes.length + 1) d s
    match s1.dma d with
    | none => s1
    | some x =>
      if s1.dmaState d = 5 then s1.wr (Reg.TAK_DMA_CI_CI d) x.consumed
      else if x.wrote.isSome || x.next.isEmpty || (s1.dmaState d == 6 && s1.rd (Reg.TAK_DMA_STAT_FAULT d) == 1) then s1
      else
        let s2 := s1.modTakes fun t => { t with hostWrites := t.hostWrites ++ s1.batchWrites d x }
        s2.setDma d (some { x with batch := x.next, next := [], wrote := some x.consumed })

def State.dmaPumpAll (s : State) : State := (s.takes.dmas.map fun e => e.1).foldl State.dmaPump s

/-- Everything that follows a change: the data path, the take service, the DMA engine; then the flush in charge goes on. -/
def State.settleDma (s : State) : State := (State.dmaServe 65 (s.settleAll.dmaPumpAll).takeSettle).showDma.flushStep

/-- Queues the channel's MSI-X write. -/
def State.dmaSignal (s : State) (d : Nat) (x : Dma) : State :=
  let c := match s.takeOf x.take with | some t => t.ctrl | none => 0
  (s.setDma d (some { x with unsignalled := 0 })).msix c x.vector

/-- DMA_READBACK_COMPLETE: the value written, and no error, acknowledges the batch; anything else is FAULT 1. -/
def State.readback (s : State) (d value : Nat) (error : Bool) : State :=
  match s.dma d with
  | none => s
  | some x => match x.wrote with
    | none => s
    | some v =>
      if error ∨ value ≠ v then s.dmaFault d 1
      else
        let good := x.batch.filter fun r => r.status % 2048 == 0
        let s1 := s.wr (Reg.TAK_DMA_CI_CI d) v
        let s2 := match s1.slotClip x.slot with
          | some (t, i, _) => s1.modClip t.num i fun c => { c with
              acked := c.acked + good.length, payload := c.payload + (good.map fun (r : StatusRec) => r.bytes).sum
              refused := c.refused, lastStamp := match c.frames.getLast? with | some r => max c.lastStamp r.stamp | none => c.lastStamp }
          | none => s1
        let x2 := { x with batch := [], wrote := none, unsignalled := x.unsignalled + x.batch.length, unsignalledAt := if x.unsignalled = 0 then s.now else x.unsignalledAt }
        let s3 := s2.setDma d (some x2)
        (if x2.coalesce ≤ x2.unsignalled then s3.dmaSignal d x2 else s3).settleDma

def execDmaReadbackComplete (d : Fin 64) (value : Nat) (error : Bool) (s : State) : Host.Outcome State Fault Refusal :=
  .next (if s.mainUp then s.readback d.val value error else s)

/-- DMA_COALESCE_TIMER: 10 µs after the first unsignalled acknowledgement. -/
def State.coalesceTimer (s : State) (d : Nat) : State :=
  match s.dma d with
  | some x => if x.unsignalled ≠ 0 ∧ x.unsignalledAt + 10000 ≤ s.now then s.dmaSignal d x else s
  | none => s

def execDmaCoalesceTimer (d : Fin 64) (s : State) : Host.Outcome State Fault Refusal :=
  .next (if s.mainUp then s.coalesceTimer d.val else s)

/-! ### Producer index, RESUME, wait (R260, R261, R268, R287) -/

/-- TAK_DMA_PI_WRITE: `flush` is the index past the last of the new descriptors that has FLUSH set (host memory is not the device's). -/
def State.piWrite (s : State) (agent d pi : Nat) (flush : Option Nat) : State :=
  match s.dma d with
  | none => s
  | some x =>
    if s.rd (Reg.TAK_DMA_STAT_CTRL d) ≠ agent then s
    else
      let old := s.rd (Reg.TAK_DMA_PI_PI d)
      let s1 := s.wr (Reg.TAK_DMA_PI_PI d) pi
      let n := (pi + 2 ^ 32 - old) % 2 ^ 32
      let s2 := s1.setDma d (some { x with
        produced := if n = 0 then x.produced else x.produced ++ [(n, s.now)], flushTo := match flush with | some f => some f | none => x.flushTo })
      if x.entries < s2.fill d then s2.dmaFault d 6 else s2.showDma

def execTakDmaPiWrite (agent : Fin 8) (d : Fin 64) (pi : Word) (flush : Option Nat) (s : State) : Host.Outcome State Fault Refusal :=
  .next (if s.mainUp then s.fireDue.piWrite agent.val d.val pi.toNat flush else s)

/-- TAK_DMA_RESUME: a PAUSED or FAULT channel goes on at CI; status records not acknowledged are written again. -/
def State.dmaResume (s : State) (d : Nat) : State :=
  match s.dma d with
  | none => s
  | some x =>
    if s.dmaState d ≠ 5 ∧ s.dmaState d ≠ 6 then s
    else
      let n := (s.rd (Reg.TAK_DMA_PI_PI d) + 2 ^ 32 - x.consumed) % 2 ^ 32
      let x2 := { x with
        next := x.batch ++ x.next, batch := [], wrote := none
        produced := if (x.produced.map fun p => p.1).sum = n then x.produced else if n = 0 then [] else [(n, s.now)] }
      let s1 := ((s.setDma d (some x2)).wr (Reg.TAK_DMA_STAT_FAULT d) 0).setDmaState d 1
      if x.entries < s1.fill d then s1.dmaFault d 6 else s1.settleDma

def execTakDmaResume (_agent : Fin 8) (d : Fin 64) (data : Word) (s : State) : Host.Outcome State Fault Refusal :=
  .next (if s.mainUp && data.getLsbD 0 then s.dmaResume d.val else s)

/-- DMA_MAX_WAIT_EXPIRY: the channel's state follows the time its oldest descriptor has waited. -/
def execDmaMaxWaitExpiry (_d : Fin 64) (s : State) : Host.Outcome State Fault Refusal :=
  .next (if s.mainUp then s.showDma else s)

/-! ### Descriptors (R259, R267) -/

/-- The fields of a descriptor's 32 bytes (Table 7.7). -/
def readDesc (b : List Byte) : DmaDesc := ⟨leAt b 0 8, leAt b 8 4, leAt b 12 2, leAt b 16 8, leAt b 24 4⟩

/-- Refusals a frame of either mode meets beside Table 7.5: no key (06 R199), no spare space (11 R416). -/
def State.frameGate (s : State) (length : Nat) : Option Status :=
  match s.takeNs with
  | none => some (stVendor 0x80 true)
  | some n =>
    if (s.keySlot n.keySlot).state = 0 ∨ (s.keySlot n.keySlot).state = 6 then some (stVendor 0x95 true)
    else if s.spareUnits = 0 ∧ length ≠ 0 then some (stVendor 0xA4 true)
    else none

/-- DMA_DESCRIPTOR_ARRIVAL: the descriptor of the channel the engine has chosen. -/
def State.descriptor (s : State) (d : Nat) (b : List Byte) : State :=
  match s.dma d with
  | none => s
  | some x =>
    if s.dmaChosen ≠ some d ∨ (s.dmaBusy d).isSome ∨ s.unfetched d x = 0 then s
    else
      let q := readDesc b
      let idx := x.fetched
      let s1 := (s.setDma d (some { x with fetched := (x.fetched + 1) % 2 ^ 32 })).modTakes fun t => { t with
        rotation := d, recent := d :: t.recent.filter fun e => e != d }
      let stamp := s.steepleTime
      match s1.frameOutcome x.slot q.length stamp with
      | .refuse st => (s1.descOutcome d idx q st stamp).countRefused x.slot
      | o =>
        if q.length < 64 ∨ q.addr % 4 ≠ 0 then (s1.descOutcome d idx q stInvalidField stamp).countRefused x.slot
        else match o with
          | .wait => s1.modTakes fun t => { t with replies := t.replies ++ [⟨x.slot, stamp, [], some (d, idx, q)⟩] }
          | _ => match s1.frameGate q.length with
            | some st => (s1.descOutcome d idx q st stamp).countRefused x.slot
            | none => s1.acceptPull x.slot d idx q stamp

def execDmaDescriptorArrival (d : Fin 64) (desc : List Byte) (s : State) : Host.Outcome State Fault Refusal :=
  .next (if s.mainUp then (s.fireDue.descriptor d.val desc).settleDma else s)

/-! ### Host data (R352, R179, R267) -/

/-- Data the engine requested of a pull frame reaches its reassembly buffer. -/
def State.arrivePull (s : State) (f : InFlight) (data : List Byte) : State :=
  s.modFrames fun x => if x.slot == f.slot && x.seq == f.seq then
    { x with held := x.held ++ data.take (x.asked - (x.buf.length + x.held.length)) } else x

/-- HOST_DATA_ARRIVAL: of a Write the data of a logical block; of a frame its next bytes. In error, a Write fails, a frame is
abandoned, and a pull channel enters FAULT with code 3. -/
def State.hostData (s : State) (cmd block : Nat) (data pi : List Byte) (result : Nat) : State :=
  match s.wcmd cmd with
  | none => s
  | some w => match w.kind with
    | .write => s.arriveWrite w block data pi result
    | .take => s
    | _ =>
      match s.frameOf w.stream w.frameSeq with
      | none => s
      | some f =>
        if result = 0 then (if f.chan.isSome then s.arrivePull f data else s.arriveFrame w data)
        else
          let src := match f.chan with | some d => s.rd (Reg.TAK_DMA_STAT_CTRL d) | none => w.src
          let s1 := (s.aerReport src result).abandon f stDataTransfer
          match f.chan with
          | some d => s1.dmaFault d 3
          | none => s1

def execHostDataArrival (cmd : Nat) (block : Nat) (data : List Byte) (pi : List Byte) (result : Fin 3) (s : State) : Host.Outcome State Fault Refusal :=
  .next (if s.mainUp then (s.hostData cmd block data pi result.val).settleDma else s)

/-! ### Resets of the owning controller (R287) -/

/-- A port or controller reset: frames of the controller stay where all their data has reached stage 5, else they are abandoned, and none
is answered; its pull channels pause with CI at the descriptors consumed. -/
def State.takesReset (s : State) (c : Nat) : State :=
  let mine (u : State) (f : InFlight) : Bool := match f.chan with
    | some d => u.rd (Reg.TAK_DMA_STAT_CTRL d) == c
    | none => match u.slotClip f.slot with
      | some (_, _, cl) => (cl.recOf u.geom f.seq).any fun r => r.1.path == c
      | none => false
  let s1 := (s.takes.inflight.filter (mine s)).foldl (fun u f =>
    let staged := f.taken == f.length && f.buf.length == f.length && f.segs.all fun id => match u.wcmd id with | some w => w.places.length == w.lsas.length | none => true
    if staged then
      if f.chan.isSome then u
      else u.modFrames fun x => if x.slot == f.slot && x.seq == f.seq then { x with answers := false } else x
    else if f.chan.isSome then u.abandon f stAbortRequested else u.abandon { f with answers := false } stAbortRequested) s
  let lost (r : Reply) : Bool := match r.cmds, r.pull with
    | q :: _, _ => q.ctrl.val == c
    | [], some (d, _, _) => s1.rd (Reg.TAK_DMA_STAT_CTRL d) == c
    | [], none => false
  let s1a := (s1.takes.replies.filter lost).foldl (fun u r => match r.pull with
    | some (d, idx, q) => u.descOutcome d idx q stAbortRequested r.stamp
    | none => u) s1
  let s2 := s1a.modTakes fun t => { t with replies := t.replies.filter fun r => !lost r }
  ((List.range 64).filter fun d => (s2.dma d).isSome && s2.rd (Reg.TAK_DMA_STAT_CTRL d) == c).foldl (fun u d =>
    let v := match u.dma d with | some x => State.dmaOrder (x.outcomes.length + 1) d u | none => u
    match v.dma d with
    | some x => ((v.setDma d (some { x with next := x.batch ++ x.next, batch := [], wrote := none })).wr (Reg.TAK_DMA_CI_CI d) x.consumed).setDmaState d 5
    | none => v) s2

end Sys2Proof.Machine
end

