-- ==== Sys2Proof/Machine/Keys.lean ====
section
/-!
DEFINITION. Machine/Keys.lean: Key Load (16 R586 to R591), the two-phase key change of R593, and the RESERVE records of R595.
-/
namespace Sys2Proof.Machine

/-! ### A key change in progress (R590, R593) -/

def State.modCph (s : State) (f : Cph → Cph) : State := { s with cph := f s.cph }

def State.keyOp (s : State) (k : Nat) : Option KeyOp := s.cph.ops.find? fun o => o.slot == k
def State.setKeyOp (s : State) (o : KeyOp) : State := s.modCph fun c => { c with ops := c.ops.map fun x => if x.slot == o.slot then o else x }
def State.dropKeyOp (s : State) (k : Nat) : State := s.modCph fun c => { c with ops := c.ops.filter fun x => x.slot != k }

/-- CPH_STATUS.KEY_BUSY. -/
def State.showKeyBusy (s : State) : State := s.wr Reg.CPH_STATUS_KEY_BUSY (bit (!s.cph.ops.isEmpty))

/-- Deallocates every block of a namespace (R590, 06 R213); answers the SEQ of its TRIM entry. -/
def State.trimAll (s : State) (n : Ns) : Option (Nat × State) :=
  match s.takeSeq with
  | none => none
  | some (q, _) => (s.trim n.nsid 0 (n.units * 512)).map fun t => (q, t)

/-- The TRIM entries of SEQs are durable: in no journal page being filled, and every page that holds one has its three copies. -/
def State.trimsDurable (s : State) (qs : List Nat) : Bool :=
  let holds (es : List Entry) : Bool := es.any fun e => e.ty == 4 && qs.contains e.seq
  !holds s.ftl.page && s.ftl.pages.all fun j => !holds j.entries || 3 ≤ j.copies.length

/-- Old KEY records of a slot stand in the NOR. -/
def State.oldKeys (s : State) (k below : Nat) : Bool := s.cph.recs.any fun r => r.slot == k && r.ty == 1 && r.live && r.gen < below

/-- A key change ends: its command completes with the slot's GEN, writes that waited go on. -/
def State.keyOpEnd (s : State) (o : KeyOp) : State :=
  let s1 := (s.dropKeyOp o.slot).showKeyBusy
  let s2 := match o.cmd with
    | some c => s1.complete c stOk (s1.keySlot o.slot).gen 0 []
    | none => s1
  s2.compactKeys.progress

/-- Every record of a slot is retired and the slot holds nothing (CLEAR); its GEN is kept (log entry 22). -/
def State.clearSlot (s : State) (k : Nat) : State :=
  let g := (s.keySlot k).gen
  ((s.retireKeys k (g + 1)).modCph fun c => { c with recs := c.recs.map fun (r : KeyRec) => if r.slot == k then { r with live := false } else r }).setKeySlot k
    { KeySlot.empty with gen := g }

/-- A record of a key change is durable: KEY, then COMMIT, then the retirement of the old record (R593). -/
def State.keyOpStep (s : State) (o : KeyOp) : State :=
  let g := (s.keySlot o.slot).gen + 1
  if o.clear then (s.clearSlot o.slot).keyOpEnd o
  else if o.step = 0 ∧ !s.trimsDurable o.trims then s
  else if o.step ≤ 1 then
    (s.putKeyRec ⟨1, true, o.slot, g, o.salt, 2 ^ 20, Config.aesKwWrap s.recordKey o.key, true⟩).setKeyOp { o with step := 2 }
  else if o.step = 2 then
    let s1 := s.putKeyRec ⟨2, true, o.slot, g, 0, 0, [], true⟩
    let s2 := s1.installKey o.slot o.key o.salt o.hostSalt
    if s2.oldKeys o.slot g then s2.setKeyOp { o with step := 3 } else s2.keyOpEnd o
  else (s.retireKeys o.slot (s.keySlot o.slot).gen).keyOpEnd o

/-- KEY_RECORD_DURABLE: the record the slot waits for has reached the NOR. -/
def State.keyRecordDurable (s : State) (k : Nat) : State :=
  match s.keyOp k with
  | some o => s.keyOpStep o
  | none => s.reserveDurable k

/-- Begins a key change with no TRIM to wait for. -/
def State.beginKeyOp (s : State) (o : KeyOp) : State :=
  let x := s.keySlot o.slot
  ((s.setKeySlot o.slot { x with state := 5 }).modCph fun c => { c with ops := c.ops ++ [o] }).showKeyBusy

/-- The salt of a new key: the host's where SALT_SRC says so and one is given, else from the key generator. -/
def State.newSalt (s : State) (host : Option Word) : Word × State :=
  match (if s.cfg 0xB0 0 2 = 1 then host else none) with
  | some w => (w, s)
  | none => let (b, t) := s.genBytes 4; (BitVec.ofNat 32 (leAt b 0 4), t)

/-- A slot named by a namespace new from the image and EMPTY is filled as by a GENERATE (R591); where the key generator cannot
serve, it stays EMPTY. -/
def State.fillSlot (s : State) (k : Nat) : State :=
  if (s.keySlot k).state ≠ 0 ∨ s.entropyFault then s
  else
    let (key, s1) := s.genBytes 32
    let (salt, s2) := s1.newSalt none
    s2.beginKeyOp ⟨none, k, 1, key, salt, false, false, []⟩

/-! ### Key Load (R587 to R590) -/

/-- The path a command was issued on has its bit in KEY_PATHS. -/
def State.keyPath (s : State) (c : Sqe) : Bool :=
  let b := if c.mi then 2 else c.ctrl.val / 2
  (s.cfg 0xB0 0 1).testBit b

/-- The fields of Table 16.3. -/
def klSlot (c : Sqe) : Nat := leAt c.data 0 2
def klOp (c : Sqe) : Nat := leAt c.data 2 1
def klReplace (c : Sqe) : Bool := (leAt c.data 3 1).testBit 0

/-- A LOAD or GENERATE replaces the key of a slot that namespaces name. -/
def State.klReplaces (s : State) (c : Sqe) : Bool := klOp c != 2 && (s.keySlot (klSlot c)).state != 0 && s.slotNamed (klSlot c)

/-- The signature of a Key Load verifies under the active owner's key. -/
def State.klSigned (s : State) (c : Sqe) : Bool :=
  leAt c.data 0x0D 1 == 1 && match s.activeOwner with
    | some i => Config.ecdsaVerify (Config.ownerKey (s.ownerHash i)) (Config.sha384 (slice c.data 0 0xA0)) (slice c.data 0xA0 96)
    | none => false

/-- A take is open on a namespace that names the slot. -/
def State.takeOnSlot (s : State) (k : Nat) : Bool :=
  !s.openTakes.isEmpty && match s.takeNs with | some n => n.keySlot == k | none => false

/-- The key a LOAD unwraps. -/
def State.klUnwrap (s : State) (c : Sqe) : Option (List Byte) :=
  let pub := Config.ecdhPublic s.cph.loadPriv
  let z := Config.ecdhShared s.cph.loadPriv (slice c.data 0x10 97)
  let kek := Config.hkdf z (digestBytes (Config.sha384 pub))
    (ascii "ICXKL" ++ s.uniqueId ++ leBytes 2 (klSlot c) ++ leBytes 4 (s.rd Reg.CPH_KL_COUNT_COUNT)) 32
  Config.aesKwUnwrap kek (slice c.data 0x74 40)

/-- The checks of R587 and Table 16.4, in order. -/
def State.klRefused (s : State) (c : Sqe) : Option Status :=
  let k := klSlot c
  let x := s.keySlot k
  let op := klOp c
  if c.cdw10 ≠ 64 then some stInvalidField
  else if !s.keyPath c then some (stVendor 0x93 true)
  else if 1023 < k ∨ 2 < op then some stInvalidField
  else if op = 0 ∧ leAt c.data 0x0C 1 ≠ 32 then some (stVendor 0x90 true)
  else if leAt c.data 8 4 ≠ s.rd Reg.CPH_KL_COUNT_COUNT then some (stVendor 0x98 false)
  else if s.lifecycle = 3 && !s.klSigned c then some (stVendor 0x96 true)
  else if x.state = 5 || (op != 2 && x.state != 0 && !klReplace c) || (op == 2 && s.slotNamed k) then some (stVendor 0x94 true)
  else if s.nvme.sanitize.action != 0 || !s.cph.ops.isEmpty || s.rd Reg.FIT_STATUS_STATE == 2 || (s.klReplaces c && s.takeOnSlot k) then some stSequence
  else if (op = 0 ∧ s.rd Reg.CPH_STATUS_LOADKEY_VALID = 0) ∨ ((op = 1 ∨ (op = 0 ∧ s.cfg 0xB0 0 2 ≠ 1)) ∧ s.entropyFault) then some (stVendor 0x97 false)
  else if op = 0 ∧ (s.klUnwrap c).isNone then some (stVendor 0x92 true)
  else none

/-- The blocks of the namespaces a replaced slot serves are deallocated first. -/
def State.klTrims (s : State) (c : Sqe) : State × List Nat :=
  if s.klReplaces c then
    (s.nvme.nss.filter fun n => n.keySlot == klSlot c).foldl (fun (a : State × List Nat) n => match a.1.trimAll n with
      | some (q, t) => (t, a.2 ++ [q])
      | none => a) (s, [])
  else (s, [])

/-- An accepted Key Load: UPDATING, KL_COUNT, a fresh load key pair; a CLEAR has only its retirement to wait for. -/
def State.keyLoadGo (s : State) (c : Sqe) : State :=
  let k := klSlot c
  let (key, s1) := if klOp c = 0 then ((s.klUnwrap c).getD [], s) else if klOp c = 1 then s.genBytes 32 else ([], s)
  let (salt, s2) := if klOp c = 2 then ((0 : Word), s1) else s1.newSalt (some (BitVec.ofNat 32 (leAt c.data 4 4)))
  let (s3, qs) := s2.klTrims c
  let s4 := s3.beginKeyOp ⟨some c, k, if qs.isEmpty then 1 else 0, key, salt, s.cfg 0xB0 0 2 = 1, klOp c == 2, qs⟩
  (s4.wr Reg.CPH_KL_COUNT_COUNT (s.rd Reg.CPH_KL_COUNT_COUNT + 1)).newLoadKey

/-- Key Load, of the OP a row names; not abortable. A refused one changes no slot and raises source 1,650. -/
def State.keyLoad (s : State) (c : Sqe) : State :=
  let s1 := s.noAbort c
  match s.klRefused c with
  | some st => (s1.slotEvent (klSlot c % 1024) 1650).fail c st
  | none => s1.withSeqs 2 (if s.klReplaces c then (s.nvme.nss.filter fun n => n.keySlot == klSlot c).length else 0) c fun t => t.keyLoadGo c

def execKeyLoadLoad (c : Sqe) (s : State) : Host.Outcome State Fault Refusal :=
  .next (s.admin c .vendor fun t => (t.keyLoad c).settleDma)

/-- KEY_LOAD_GENERATE. -/
def execKeyLoadGenerate (c : Sqe) (s : State) : Host.Outcome State Fault Refusal :=
  .next (s.admin c .vendor fun t => (t.keyLoad c).settleDma)

/-- KEY_LOAD_CLEAR. -/
def execKeyLoadClear (c : Sqe) (s : State) : Host.Outcome State Fault Refusal :=
  .next (s.admin c .vendor fun t => (t.keyLoad c).settleDma)

end Sys2Proof.Machine
end

