-- ==== Sys2Proof/Machine/Wake.lean ====
section
/-!
DEFINITION. Machine/Wake.lean: wake sources (20 R694, R695).
-/
namespace Sys2Proof.Machine

def State.modPwr (s : State) (f : Pwr → Pwr) : State := { s with pwr := f s.pwr }

def State.pwrState (s : State) : Nat := s.rd Reg.PWR_STATUS_STATE
def State.pwrPhase (s : State) : Nat := s.rd Reg.PWR_STATUS_PHASE

/-- A wake code is enabled: a host command always, WAKE_N always in Off, the others by their bit of WAKE_MASK in force. -/
def State.wakeEnabled (s : State) (code : Nat) : Bool :=
  code == 8 || (code == 1 && (s.pwrState == 4 || (s.pwrPhase == 1 && s.rd Reg.PWR_STATUS_TARGET == 4))) || (s.force Reg.PWR_CFG_WAKE_MASK).testBit (code - 1)

/-- A wake code wakes from a state (Table 20.4). -/
def wakesFrom (code st : Nat) : Bool := if st = 4 then code == 1 else if st = 3 then code != 5 else st != 0

/-- The lowest code of a set of codes. -/
def lowestCode (set : Nat) : Nat := ((List.range 9).find? fun k => k != 0 && set.testBit k).getD 0

/-- PWR_LAST_WAKE and its time: SOURCE the lowest code, PENDING every code. -/
def State.noteWake (s : State) (set fromSt abortPoint time : Nat) : State :=
  let s1 := ((s.wr Reg.PWR_LAST_WAKE_SOURCE (lowestCode set)).wr Reg.PWR_LAST_WAKE_PENDING set).wr Reg.PWR_LAST_WAKE_FROM fromSt
  (s1.wr Reg.PWR_LAST_WAKE_ABORT_POINT abortPoint).wr64 Reg.PWR_LAST_WAKE_TIME_LO Reg.PWR_LAST_WAKE_TIME_HI time

/-- The exit to Run begins, for wakes that came at a Steeple time. -/
def State.beginExit (s : State) (set time : Nat) : State :=
  let s1 := s.noteWake set s.pwrState 0 time
  ((s1.wr Reg.PWR_STATUS_PHASE 2).wr Reg.PWR_STATUS_TARGET 0).modPwr fun p => { p with exitAt := s.now, latched := 0, wakeAt := s.now }

/-- A wake is latched while a state is being entered. -/
def State.latchWake (s : State) (code : Nat) : State :=
  s.modPwr fun p => { p with latched := p.latched ||| 2 ^ code, latchTime := if p.latched = 0 then s.steepleTime else p.latchTime }

/-- A wake occurs: latched while a state is being entered, an exit from a steady low state, nothing in Run. Off is left only by
the Belfry's own start (20 R695). -/
def State.wake (s : State) (code : Nat) : State :=
  if !s.wakeEnabled code then s
  else if s.pwrPhase = 1 then (if wakesFrom code (s.rd Reg.PWR_STATUS_TARGET) then s.latchWake code else s)
  else if s.pwrPhase = 0 ∧ s.pwrState ≠ 4 ∧ wakesFrom code s.pwrState then s.beginExit (2 ^ code) s.steepleTime
  else if s.pwrPhase = 2 ∧ s.pwr.wakeAt = s.now then
    -- wakes that occur together
    s.noteWake (s.rd Reg.PWR_LAST_WAKE_PENDING ||| 2 ^ code) (s.rd Reg.PWR_LAST_WAKE_FROM) 0 s.steepleTime
  else s

/-- A message on the management port in Off keeps the Belfry running for 10 s more (R695). -/
def State.noteMgmt (s : State) : State := s.modPwr fun p => { p with offMgmt := p.offMgmt.map fun _ => s.now }

end Sys2Proof.Machine
end

