-- ==== Sys2Proof/Machine/Nvme.lean ====
section
/-!
DEFINITION. Machine/Nvme.lean: queues, doorbells and arbitration (06 R178, R182, R183), the admin commands that are not a feature, a log
page or a vendor command (06 R181, R194, R195, R197, R211 to R215), and a controller's enable (03 R87). Layouts and statuses the chapter
takes from NVMe Base 2.0 without restating them are PRESUMED (log entry 23).
-/
namespace Sys2Proof.Machine

/-! ### Doorbells (R178) -/

/-- An asynchronous event for a doorbell write NVMe calls an error: an unknown queue (0) or a value out of range (1). -/
def State.badDoorbell (s : State) (c info : Nat) : State := s.aen c ⟨0, info, 0x01⟩

def modEntry {α : Type} (m : SMap α) (k : Nat) (f : α → α) : SMap α := m.map fun e => if e.1 == k then (k, f e.2) else e

/-- The admin queues exist while the controller is enabled, with the sizes of AQA. -/
def Ctrl.hasSq (k : Ctrl) (q : Nat) : Option Sq := (k.sqs.find? fun e => e.1 == q).map fun e => e.2

/-- SQ_TAIL_DOORBELL: new commands are available to the arbiter; in a low power state, or while one is entered, it is a wake, and in
Deep Sleep the doorbell is kept for the exit (20 R699). -/
def State.sqDoorbell (s : State) (c q tail : Nat) : State :=
  if s.pwrState = 3 then (s.modPwr fun p => { p with doorbells := p.doorbells ++ [(c, q, tail)] }).wake 8
  else match (s.ctrl c).hasSq q with
    | none => s.badDoorbell c 0
    | some x =>
      if x.size ≤ tail then s.badDoorbell c 1
      else (s.modCtrl c fun k => { k with sqs := modEntry k.sqs q fun y => { y with tail := tail } }).wake 8

def execSqTailDoorbell (ctrl : Fin 4) (queue : Nat) (tail : Nat) (s : State) : Host.Outcome State Fault Refusal :=
  .next (if s.board.mainRunning && s.hasCtrl ctrl.val && (s.ctrl ctrl.val).en then s.sqDoorbell ctrl.val queue tail else s)

/-- INTA stays asserted while a completion queue with interrupts enabled has entries the host has not taken (R185). -/
def Ctrl.settleInta (k : Ctrl) : Ctrl := { k with
  pcie := { k.pcie with inta := k.pcie.inta && k.cqs.any fun e => e.2.ien && e.2.head != e.2.tail } }

/-- CQ_HEAD_DOORBELL: the entries before the new head are free. -/
def State.cqDoorbell (s : State) (c q head : Nat) : State :=
  match (s.ctrl c).cqs.find? fun e => e.1 == q with
  | none => s.badDoorbell c 0
  | some e =>
    if e.2.size ≤ head then s.badDoorbell c 1
    else s.modCtrl c fun k => Ctrl.settleInta { k with cqs := modEntry k.cqs q fun y => { y with head := head } }

def execCqHeadDoorbell (ctrl : Fin 4) (queue : Nat) (head : Nat) (s : State) : Host.Outcome State Fault Refusal :=
  .next (if s.mainUp && s.hasCtrl ctrl.val && (s.ctrl ctrl.val).en then s.cqDoorbell ctrl.val queue head else s)

/-! ### Arbitration (R183) -/

/-- Queues of a priority class with commands waiting, I/O queues only. -/
def Ctrl.ready (k : Ctrl) (prio : Nat) : List Nat := (k.sqs.filter fun e => e.1 != 0 && e.2.prio == prio && e.2.head != e.2.tail).map fun e => e.1

/-- The next queue of a class after the one last served. -/
def Ctrl.turn (k : Ctrl) (prio : Nat) : Option Nat :=
  let l := k.ready prio
  match l.find? fun q => mapGet (fun _ => 0) k.lastQ prio < q with
  | some q => some q
  | none => l.head?

/-- A class's weight: HPW, MPW or LPW of the Arbitration feature, plus 1. -/
def Ctrl.weight (k : Ctrl) (cls : Nat) : Nat := k.arbitration / 2 ^ (if cls = 1 then 24 else if cls = 2 then 16 else 8) % 256 + 1

/-- The burst: 2^AB commands of one queue, without a limit where AB is 7. -/
def Ctrl.burstFull (k : Ctrl) : Bool := k.arbitration % 8 != 7 && 2 ^ (k.arbitration % 8) ≤ k.burst.2

/-- The weighted class served next, refilling the credits where no class with commands has any left. -/
def Ctrl.weighted (k : Ctrl) : Option (Nat × Ctrl) :=
  let live := [1, 2, 3].filter fun c => !(k.ready c).isEmpty
  if live.isEmpty then none
  else match live.find? fun c => 0 < k.credits.getD (c - 1) 0 with
    | some c => some (c, k)
    | none => some (live.headD 1, { k with credits := [k.weight 1, k.weight 2, k.weight 3] })

/-- The I/O queue served. -/
def Ctrl.chooseIo (k : Ctrl) : Option (Nat × Ctrl) :=
  match (if !(k.ready 0).isEmpty then some (0, k) else k.weighted) with
  | none => none
  | some (c, k1) =>
    let same := (k1.ready c).contains k1.burst.1 && k1.burst.2 != 0 && !k1.burstFull
    match (if same then some k1.burst.1 else k1.turn c) with
    | none => none
    | some q => some (q, { k1 with
        lastQ := mapSet (fun _ => 0) k1.lastQ c q
        burst := (q, if same then k1.burst.2 + 1 else 1)
        credits := if c = 0 then k1.credits else modAt k1.credits (c - 1) fun n => n - 1 })

/-- The queue the arbiter serves: admin, urgent, then the weighted classes; a queue goes on through its burst while its class is the one
served. -/
def Ctrl.choose (k : Ctrl) : Option (Nat × Ctrl) :=
  match k.hasSq 0 with
  | some a => if a.head != a.tail then some (0, k) else k.chooseIo
  | none => k.chooseIo

/-- COMMAND_FETCH: the head of the chosen queue advances past a command with the identifier `cid`, which is then outstanding; what it does
is its own row's. Controllers fetch nothing while fetching is stopped (20 R692). -/
def State.fetch (s : State) (c cid : Nat) : State :=
  match (s.ctrl c).choose with
  | none => s
  | some (q, k) =>
    let s1 := s.setCtrl c { k with sqs := modEntry k.sqs q fun x => { x with head := if x.size ≤ x.head + 1 then 0 else x.head + 1 } }
    { s1 with nvme := { s1.nvme with
      outs := s1.nvme.outs ++ [⟨c, q, cid, s1.nvme.fetchSeq, false, true⟩]
      fetchSeq := s1.nvme.fetchSeq + 1 } }

def execCommandFetch (ctrl : Fin 4) (cid : Nat) (s : State) : Host.Outcome State Fault Refusal :=
  .next (if s.ctrlRuns ctrl.val then s.fetch ctrl.val cid else s)

/-! ### Queue management (R182, R195) -/

/-- The largest queue, in entries, and the queue pairs of a controller. -/
def State.maxDepth (s : State) (c : Nat) : Nat := portGet s.image.cfg (c / 2) 8
def State.ioqPairs (s : State) (c : Nat) : Nat := portGet s.image.cfg (c / 2) 4

/-- Granted queues of feature 07h, 0's based: submission in bits 15:0, completion in bits 31:16. -/
def State.queueGrant (s : State) (c : Nat) : Nat :=
  let g := (s.ctrl c).numQueues
  if g = 0 then (s.ioqPairs c - 1) * 65537 else g - 1

def State.maxSq (s : State) (c : Nat) : Nat := s.queueGrant c % 65536 + 1
def State.maxCq (s : State) (c : Nat) : Nat := s.queueGrant c / 65536 + 1

def stVector : Status := ⟨1, 0x08, true, 0⟩

/-- Checks of a queue's identifier and size. -/
def State.queueBad (s : State) (c : Sqe) (most : Nat) (used : Bool) : Option Status :=
  let qid := dwBits c.cdw10 0 16
  let size := dwBits c.cdw10 16 16 + 1
  if qid = 0 ∨ most < qid ∨ used then some stQueueId
  else if size < 2 ∨ s.maxDepth c.ctrl.val < size then some stQueueSize
  else if !c.cdw11.getLsbD 0 then some stInvalidField
  else none

/-- CREATE_IO_CQ: physically contiguous only. -/
def State.createCq (s : State) (c : Sqe) : State :=
  let k := s.ctrl c.ctrl.val
  let qid := dwBits c.cdw10 0 16
  match s.queueBad c (s.maxCq c.ctrl.val) (k.cqs.any fun e => e.1 == qid) with
  | some st => s.fail c st
  | none =>
    if portGet s.image.cfg (c.ctrl.val / 2) 12 ≤ dwBits c.cdw11 16 16 then s.fail c stVector
    else (s.setCtrl c.ctrl.val { k with cqs := k.cqs ++ [(qid, ⟨dwBits c.cdw10 16 16 + 1, 0, 0, dwBits c.cdw11 16 16, c.cdw11.getLsbD 1⟩)] }).succeed c

def execCreateIoCq (c : Sqe) (s : State) : Host.Outcome State Fault Refusal :=
  .next (if c.mi then s else s.admin c .service fun t => t.createCq c)

/-- CREATE_IO_SQ: physically contiguous, with a completion queue that exists. -/
def State.createSq (s : State) (c : Sqe) : State :=
  let k := s.ctrl c.ctrl.val
  let qid := dwBits c.cdw10 0 16
  let cq := dwBits c.cdw11 16 16
  match s.queueBad c (s.maxSq c.ctrl.val) (k.sqs.any fun e => e.1 == qid) with
  | some st => s.fail c st
  | none =>
    if cq = 0 ∨ !(k.cqs.any fun e => e.1 == cq) then s.fail c stCqInvalid
    else (s.setCtrl c.ctrl.val { k with sqs := k.sqs ++ [(qid, ⟨dwBits c.cdw10 16 16 + 1, 0, 0, cq, dwBits c.cdw11 1 2⟩)] }).succeed c

def execCreateIoSq (c : Sqe) (s : State) : Host.Outcome State Fault Refusal :=
  .next (if c.mi then s else s.admin c .service fun t => t.createSq c)

/-- Ends what is outstanding on a submission queue with Command Aborted due to SQ Deletion (08h): its writes, which change no block (R199), and what
waits of it leave the path; its frames are refused. -/
def State.dropQueue (s : State) (c q : Nat) : State :=
  let on (x : Sqe) : Bool := !x.mi && x.ctrl.val == c && x.sq == q
  let s1 := (s.path.writes.filter fun w => (w.kind == WKind.write || w.kind == WKind.frame) && on w.sqe).foldl (fun t w => t.failWrite w stSqDeleted) s
  let framed (o : Out) : Bool := s.path.writes.any fun w => w.kind == WKind.frame && on w.sqe && w.sqe.cid == o.cid
  let s2 := (s1.nvme.outs.filter fun o => o.ctrl == c && o.sq == q && !framed o).foldl (fun t o => t.postEnded c q o.cid stSqDeleted) s1
  (s2.modTakes fun t => { t with replies := t.replies.filter fun r => !r.cmds.any on }).modPath fun p => { p with
    reads := p.reads.filter fun r => !on r.sqe
    trims := p.trims.filter fun t => t.kind == 3 || !on t.sqe
    waits := p.waits.filter fun w => !(w.kind == 0 && on w.cmd) }

/-- DELETE_IO_SQ. -/
def State.deleteSq (s : State) (c : Sqe) : State :=
  let k := s.ctrl c.ctrl.val
  let qid := dwBits c.cdw10 0 16
  if qid = 0 ∨ !(k.sqs.any fun e => e.1 == qid) then s.fail c stQueueId
  else ((s.dropQueue c.ctrl.val qid).modCtrl c.ctrl.val fun x => { x with sqs := x.sqs.filter fun e => e.1 != qid }).succeed c

def execDeleteIoSq (c : Sqe) (s : State) : Host.Outcome State Fault Refusal :=
  .next (if c.mi then s else s.admin c .service fun t => (t.deleteSq c).settleDma)

/-- DELETE_IO_CQ: refused while a submission queue uses it. -/
def State.deleteCq (s : State) (c : Sqe) : State :=
  let k := s.ctrl c.ctrl.val
  let qid := dwBits c.cdw10 0 16
  if qid = 0 ∨ !(k.cqs.any fun e => e.1 == qid) then s.fail c stQueueId
  else if k.sqs.any fun e => e.2.cq == qid then s.fail c stQueueDeletion
  else (s.setCtrl c.ctrl.val (Ctrl.settleInta { k with cqs := k.cqs.filter fun e => e.1 != qid })).succeed c

def execDeleteIoCq (c : Sqe) (s : State) : Host.Outcome State Fault Refusal :=
  .next (if c.mi then s else s.admin c .service fun t => t.deleteCq c)

/-! ### Asynchronous Event Request, Abort -/

/-- ASYNCHRONOUS_EVENT_REQUEST: completed at once by the first event that waits, else held, 16 at most (AERL). -/
def State.aer (s : State) (c : Sqe) : State :=
  let k := s.ctrl c.ctrl.val
  match k.aenQueue with
  | a :: rest =>
    (s.setCtrl c.ctrl.val { k with aenQueue := rest, withheld := k.withheld ++ [a.page] }).post ⟨c.ctrl.val, false, 0, c.cid, 0, 0, false, 0, aenDw0 a, 0, []⟩
  | [] => if 16 ≤ k.aers.length then s.fail c stAerLimit else s.setCtrl c.ctrl.val { k with aers := k.aers ++ [c.cid] }

def execAsynchronousEventRequest (c : Sqe) (s : State) : Host.Outcome State Fault Refusal :=
  .next (if c.mi then s else s.admin c .service fun t => t.aer c)

/-- A command is being carried out elsewhere than on the path, after its data came. -/
def State.underway (s : State) (same : Sqe → Bool) : Bool :=
  s.ftl.shreds.any (fun o => same o.cmd) || (s.cph.ops.any fun o => match o.cmd with | some q => same q | none => false) ||
  (match s.slv.patch with | some o => same o.cmd | none => false) || s.nvme.seqWaits.any (fun x => same x.2) ||
  s.takes.dir.any fun t => (match t.openCmd with | some q => same q | none => false) || t.closeCmds.any same

/-- A command aborted: it leaves the path, and its completion says so. One whose own row has not run yet leaves nothing behind. -/
def State.abortOne (s : State) (c sq cid : Nat) : Option State :=
  let k := s.ctrl c
  let st (t : State) : State := t.postEnded c sq cid stAbortRequested
  if sq = 0 ∧ k.aers.contains cid then some (st (s.setCtrl c { k with aers := k.aers.filter fun x => x != cid }))
  else match s.nvme.outs.find? fun o => o.ctrl == c && o.sq == sq && o.cid == cid with
    | none => none
    | some o =>
      let same (q : Sqe) : Bool := !q.mi && q.ctrl.val == c && q.sq == sq && q.cid == cid
      if !o.abortable || o.started then none
      else match s.path.writes.find? fun w => (w.kind == WKind.write || w.kind == WKind.frame) && same w.sqe with
        | some w =>
          if w.granted ≠ 0 ∨ w.ended then none
          else if w.kind = WKind.write then some (st (s.dropWrite w false)).progress
          else some (s.failWrite w stAbortRequested)
        | none => match s.path.trims.find? fun t => same t.sqe with
          | some t =>
            -- the range list of the other two has been transferred
            if t.kind ≠ 0 then none
            else some (st ((s.modPath fun p => { p with trims := p.trims.filter fun x => x.id != t.id }).showFineWait)).progress
          | none => match s.path.waits.find? fun w => w.kind == 0 && same w.cmd with
            | some w => some (st (s.modPath fun p => { p with waits := p.waits.filter fun x => x != w }))
            | none =>
              let alone (r : Reply) : Bool := match r.cmds with | [q] => same q | _ => false
              let joined (r : Reply) : Bool := r.cmds.any same
              if s.takes.replies.any alone then some (st (s.modTakes fun t => { t with replies := t.replies.filter fun r => !alone r }))
              else if s.takes.replies.any joined then none
              else if s.path.reads.any fun r => same r.sqe then some (st (s.modPath fun p => { p with reads := p.reads.filter fun r => !same r.sqe }))
              else if s.underway same then none
              else some (st s)

/-- ABORT_COMMAND (R197): completion dword 0 bit 0 says the command was not aborted. -/
def State.abortCmd (s : State) (c : Sqe) : State :=
  match s.abortOne c.ctrl.val (dwBits c.cdw10 0 16) (dwBits c.cdw10 16 16) with
  | some t => t.complete c stOk 0 0 []
  | none => s.complete c stOk 1 0 []

def execAbortCommand (c : Sqe) (s : State) : Host.Outcome State Fault Refusal :=
  .next (if c.mi then s else s.admin c .always fun t => (t.abortCmd c).settleDma)

/-! ### Identify (R177 to R181, R186 to R192; 20 R689) -/

/-- Upper-case hex digits of a byte. -/
def hexByte (b : Byte) : List Byte :=
  let d (n : Nat) : Byte := BitVec.ofNat 8 (if n < 10 then 48 + n else 55 + n)
  [d (b.toNat / 16), d (b.toNat % 16)]

/-- UNIQUE_ID as 16 hex digits, byte 7 first. -/
def State.uidHex (s : State) : List Byte := s.uniqueId.reverse.flatMap hexByte

def padSpaces (n : Nat) (b : List Byte) : List Byte := (b ++ List.replicate n 0x20).take n

/-- A number in decimal. -/
def decimal (n : Nat) : List Byte := (Nat.toDigits 10 n).map fun c => BitVec.ofNat 8 c.toNat

/-- A version word: major, minor and patch from byte 0. -/
def versionText (v : Word) : List Byte :=
  decimal (bitsOf v 0 8) ++ [0x2E] ++ decimal (bitsOf v 8 8) ++ [0x2E] ++ decimal (bitsOf v 16 8)

/-- Bytes with fields placed at offsets, in ascending order; the gaps are 0. -/
def layout (n : Nat) (fields : List (Nat × List Byte)) : List Byte :=
  padTo n (fields.foldl (fun b f => padTo f.1 b ++ f.2) [])

/-- The power state descriptor of a state (20 Table 20.2). -/
def powerDesc (mp nops enlat exlat low : Nat) : List Byte :=
  layout 32 [(0, leBytes 2 mp), (3, leBytes 1 (2 * nops)), (4, leBytes 4 enlat), (8, leBytes 4 exlat),
    (12, leBytes 4 (low * 0x01010101))]

/-- Identify Controller (Table 6.4; 03 R88, R106; 20 Table 20.2). -/
def State.identifyCtrl (s : State) (c : Nat) : List Byte :=
  layout 4096 [
    (0, leBytes 2 0x1F1C), (2, leBytes 2 (portGet s.image.cfg (c / 2) 0x10)), (4, s.uidHex ++ padSpaces 4 []),
    (24, padSpaces 40 (ascii "KORERNATH ICX-5120")), (64, padSpaces 8 (versionText (s.reg Reg.GBL_FW_VERSION))),
    (72, leBytes 1 6), (76, leBytes 1 3), (77, leBytes 1 12), (78, leBytes 2 (1 + c)), (80, leBytes 4 0x00020000),
    (84, leBytes 4 4000000), (88, leBytes 4 10000000), (92, leBytes 4 0x300), (128, leBytes 2 1),
    (256, leBytes 2 0x004C), (258, leBytes 1 7), (259, leBytes 1 15), (260, leBytes 1 4), (261, leBytes 1 6), (262, leBytes 1 255),
    (263, leBytes 1 4), (264, leBytes 1 1), (266, leBytes 2 (s.rd Reg.THM_WARN_C_C + 273)), (268, leBytes 2 388), (319, leBytes 1 1),
    (328, leBytes 4 0x20000003), (512, leBytes 1 0x66), (513, leBytes 1 0x44), (516, leBytes 4 256), (520, leBytes 2 0x009C),
    (526, leBytes 2 4095), (528, leBytes 2 4095), (530, leBytes 1 1), (536, leBytes 4 1),
    (768, padTo 256 (ascii "nqn.2023-04.com.korernath:icx5120:" ++ s.uidHex)),
    (2048, powerDesc 12000 0 0 0 0 ++ powerDesc 6000 0 0 0 1 ++ powerDesc 4000 1 3000000 50 0 ++ powerDesc 900 1 3000000 8000 0 ++
      powerDesc 160 1 3000000 400000 0)]

/-- The five LBA formats of Table 6.5: metadata size, LBADS, RP. -/
def lbaFormats : List Byte :=
  ([(0, 12, 0), (8, 12, 1), (16, 12, 1), (0, 14, 0), (16, 14, 0)] : List (Nat × Nat × Nat)).flatMap fun f => leBytes 2 f.1 ++ leBytes 1 f.2.1 ++ leBytes 1 f.2.2

/-- Identify Namespace (R186, R187, R191, R192). -/
def Ns.identify (n : Ns) : List Byte :=
  let g := if n.spb = 4 then 127 else 511
  let a := if n.spb = 4 then 1023 else 4095
  layout 4096 [
    (0, leBytes 8 n.blocks), (8, leBytes 8 n.blocks), (16, leBytes 8 n.blocks), (24, leBytes 1 2), (25, leBytes 1 4),
    (26, leBytes 1 (n.lbaFormat + 16 * bit n.extended)),
    (27, leBytes 1 3), (28, leBytes 1 0x17), (29, leBytes 1 n.piType), (30, leBytes 1 1), (33, leBytes 1 0x19), (34, leBytes 2 a),
    (36, leBytes 2 a), (44, leBytes 2 a), (64, leBytes 2 g), (66, leBytes 2 g), (72, leBytes 2 g), (128, lbaFormats)]

/-- Extended LBA Formats: storage tag size 0, the guard of each format (R186). -/
def identifyNvmNs : List Byte := layout 4096 [(12, ([0, 0, 2, 0, 2] : List Nat).flatMap fun g => leBytes 4 (g * 128))]

/-- The I/O Command Set Independent Identify Namespace data: shared, and ready from phase READY (03 R88). -/
def State.identifyIndep (s : State) : List Byte := layout 4096 [(1, leBytes 1 1), (14, leBytes 1 (bit (s.phase == 0xB)))]

/-- Namespaces exposed, in ascending identifier. -/
def State.exposed (s : State) : List Ns := sortByKey (fun (n : Ns) => n.nsid) (s.nvme.nss.filter fun n => n.attached && s.lifecycle != 7)

/-- The active namespace list above an identifier. -/
def State.nsList (s : State) (above : Nat) : List Byte :=
  layout 4096 [(0, (((s.exposed.filter fun n => above < n.nsid).take 1024).flatMap fun n => leBytes 4 n.nsid))]

/-- IDENTIFY: the data of a CNS value. -/
def State.identify (s : State) (c : Sqe) : State :=
  let cns := dwBits c.cdw10 0 8
  let ofNs (f : Ns → List Byte) : State := match s.nsOf c with
    | some n => s.complete c stOk 0 0 (f n)
    | none => s.fail c stInvalidNs
  let ok (b : List Byte) : State := s.complete c stOk 0 0 b
  if cns = 0 then (if c.nsid = 0xFFFFFFFF then s.fail c stInvalidNs else ofNs Ns.identify)
  else if cns = 1 then ok (s.identifyCtrl c.ctrl.val)
  else if cns = 2 ∨ cns = 7 then (if 0xFFFFFFFE ≤ c.nsid then s.fail c stInvalidNs else ok (s.nsList c.nsid))
  else if cns = 3 then ofNs fun _ => layout 4096 []
  else if cns = 5 then ofNs fun _ => identifyNvmNs
  else if cns = 6 then ok (layout 4096 [])
  else if cns = 8 then ofNs fun _ => s.identifyIndep
  else s.fail c stInvalidField

def execIdentify (c : Sqe) (s : State) : Host.Outcome State Fault Refusal := .next (s.admin c .always fun t => t.identify c)

/-! ### Namespace Management (R194) -/

/-- A change of the namespace set: listed at every controller, noticed where feature 0Bh asks for it. -/
def State.nsChanged (s : State) (nsid : Nat) : State :=
  s.ctrls.foldl (fun t c =>
    let k := t.ctrl c
    let t1 := t.setCtrl c { k with changedNs := if k.changedNs.contains nsid then k.changedNs else k.changedNs ++ [nsid] }
    if k.asyncConfig.testBit 8 then t1.aen c ⟨2, 0, 0x04⟩ else t1) s

/-- A namespace leaves the stored table: one TRIM over it, then the NS_SET entry that deletes it (11 R411). -/
def State.nsDelete (s : State) (n : Ns) : State :=
  match s.trimAll n with
  | none => s
  | some (_, s1) =>
    let s2 := s1.jput ⟨0x13, 0, n.nsid, 0, n.units, n.base, 2 ^ 64 - 1⟩
    let s3 : State := { s2 with nvme := { s2.nvme with nss := s2.nvme.nss.filter fun x => x.nsid != n.nsid } }
    (s3.modFtl fun f => { f with cpWanted := true }).nsChanged n.nsid

/-- NAMESPACE_DELETE. -/
def State.nsDeleteCmd (s : State) (c : Sqe) : State :=
  if c.nsid = 0xFFFFFFFF then
    let l := s.nvme.nss.filter fun n => !n.attached
    s.withSeqs 0 l.length c fun t => (l.foldl State.nsDelete t).complete c stOk l.length 0 []
  else match s.ns c.nsid with
    | none => s.fail c stInvalidNs
    | some n => if n.attached then s.fail c (stVendor 0xA2 true) else s.withSeqs 0 1 c fun t => (t.nsDelete n).succeed c

def execNamespaceDelete (c : Sqe) (s : State) : Host.Outcome State Fault Refusal :=
  .next (s.admin c .plain fun t => (t.nsDeleteCmd c).settleDma)

/-- NAMESPACE_CREATE. -/
def execNamespaceCreate (c : Sqe) (s : State) : Host.Outcome State Fault Refusal :=
  .next (s.admin c .plain fun t => t.fail c stInvalidField)

/-- INVALID_COMMAND_OPCODE. -/
def execInvalidCommandOpcode (c : Sqe) (s : State) : Host.Outcome State Fault Refusal :=
  .next (s.admin c .plain fun t => t.fail c stInvalidOpcode)

/-! ### Sanitize (R211 to R215; 16 R597) -/

def State.modSan (s : State) (f : Sanitize → Sanitize) : State := { s with nvme := { s.nvme with sanitize := f s.nvme.sanitize } }

/-- Every I/O command in hand, and every admin command that waits to change the namespaces, ends with Sanitize In Progress. -/
def State.sanStop (s : State) : State :=
  let s1 := (s.path.writes.filter fun w => !w.ended).foldl (fun t w => t.failWrite w stSanitizing) s
  let cmds := (s1.path.trims.filter fun t => t.kind != 3).map (fun x => x.sqe) ++ s1.path.reads.map (fun x => x.sqe) ++
    (s1.path.waits.filter fun w => w.kind == 0).map (fun w => w.cmd) ++ s1.ftl.shreds.map (fun x => x.cmd) ++ s1.nvme.seqWaits.map (fun x => x.2)
  let s2 := cmds.foldl (fun t q => t.fail q stSanitizing) s1
  let s3 := ({ s2 with nvme := { s2.nvme with seqWaits := [] } } : State).modFtl fun f => { f with shreds := [] }
  (s3.modPath fun p => { p with trims := [], reads := [], waits := p.waits.filter fun w => w.kind != 0, writes := p.writes.filter fun w => w.ended }).showFineWait

/-- No take is left, and numbering starts again (07 R239; log entry 24). -/
def State.emptyTakes (s : State) : State := s.modTakes fun t => { t with dir := [], nextTake := 1, generation := t.generation + 1 }

/-- Every namespace with every block deallocated: the map, the lists of sectors lost, the directory. -/
def State.emptyVolume (s : State) : State :=
  (s.modFtl fun f => { f with map := [], jmap := [], units := [], trims := [], unreadable := [], disagree := [], pendingQ := [],
                              rebuildStripes := [] }).emptyTakes

/-- The blocks that hold user data: the members of host and relocation bands, and blocks freed or retired that no erase has cleared since,
leaving out the members of metadata bands. -/
def State.userBlocks (s : State) : List (Nat × Nat × Nat) :=
  let members (p : Nat → Bool) : List (Nat × Nat × Nat) := (s.ftl.bands.filter fun b => p b.kind).flatMap fun b => b.members
  let lone := (s.ftl.blocks.filter fun e => e.2.state == 2 || e.2.state == 3).map fun e => (e.1 / 2097152, e.1 / 65536 % 32, e.1 % 65536)
  (members (fun k => k ≤ 1) ++ lone.filter fun m => !(members fun k => 1 < k).contains m).eraseDups

/-- Block Erase starts, or starts again with the blocks it first found (R215): the bands leave the tables, their blocks await erase. -/
def State.sanBlocks (s : State) : State :=
  let l := if s.nvme.sanitize.every.isEmpty then s.userBlocks else s.nvme.sanitize.every
  let s1 := l.foldl (fun t m => if (t.blk m).state = 3 then t else t.setBlk m { t.blk m with state := 2 }) s.emptyVolume
  let keep := s.ftl.bands.filter fun b => 1 < b.kind
  let s2 := s1.modFtl fun f => { f with bands := keep, stripes := f.stripes.filter fun st => keep.any fun b => b.id == st.band }
  s2.modSan fun x => { x with every := l, blocks := l }

/-- Crypto Erase starts: every slot a namespace names is to get a new key. -/
def State.sanKeys (s : State) : State :=
  let l := (List.range 1024).filter s.slotNamed
  s.modSan fun x => { x with slots := l, keys := l.length }

/-- The work of a sanitize begins from its start (R215). -/
def State.sanBegin (s : State) : State :=
  let s1 := s.modSan fun x => { x with progress := 0, status := 2, since := s.now, bad := false, failed := false, blocks := [], slots := [], keys := 0 }
  if s.nvme.sanitize.action = 2 then s1.sanBlocks else s1.sanKeys

/-- The sanitize ends; a checkpoint follows (11 R397). -/
def State.sanEnd (s : State) (ok : Bool) : State :=
  (s.modFtl fun f => { f with cpWanted := f.cpWanted || ok }).modSan fun x => { x with action := 0, progress := 65535, status := if ok then 1 else 3, failed := !ok, every := [], blocks := [], slots := [], keys := 0 }

/-- Fresh metadata: the journal goes on, and a checkpoint records the empty map, durable at once: nothing else is in progress. -/
def State.freshMeta (s : State) : State :=
  let g := maxOf (s.ftl.cps.map fun c => c.gen) + 1
  (s.modFtl fun f => { f with page := [], cps := [{
    gen := g, cpSeq := f.seqNext, seqCeil := f.seqCeil, jseqStart := f.jseq + 1, map := [], nss := s.nvme.nss, durable := true,
    usable := true, startedAt := s.now, durableAt := s.now, time := s.steepleTime, digest := s.measReg 5, late := [] }] }).wr Reg.FTL_CP_GEN_GEN g

/-- New keys for the slots that wait, from the key generator, with a new salt from it too. -/
def State.sanNewKeys (s : State) : State :=
  if s.entropyFault then s
  else (s.nvme.sanitize.slots.foldl (fun t k =>
    let (key, t1) := t.genBytes 32
    let (b, t2) := t1.genBytes 4
    t2.beginKeyOp ⟨none, k, 1, key, BitVec.ofNat 32 (leAt b 0 4), false, false, []⟩) s).modSan fun x => { x with slots := [] }

/-- A sanitize goes on: Block Erase until every block is erased; Crypto Erase until every key is replaced, then every block is
deallocated. The key generator has 1 s to serve. -/
def State.sanStep (s : State) : State :=
  let x := s.nvme.sanitize
  if x.action = 2 then
    let done := x.every.length - x.blocks.length
    if x.blocks.isEmpty then s.freshMeta.sanEnd (!x.bad) else s.modSan fun y => { y with progress := done * 65536 / max 1 x.every.length }
  else if x.action = 4 then
    if !x.slots.isEmpty ∧ s.entropyFault ∧ x.since + 1000000000 ≤ s.now then s.sanEnd false
    else
      let s1 := s.sanNewKeys
      if s1.nvme.sanitize.slots.isEmpty && s1.cph.ops.isEmpty then
        let l := s1.nvme.nss
        let r := l.foldl (fun (o : Option State) n => match o with | some t => (t.trimAll n).map fun p => p.2 | none => none) (some s1)
        match r with
        | some s2 => s2.emptyTakes.sanEnd true
        | none => s1.raiseCeil
      else s1.modSan fun y => { y with progress := (y.keys - y.slots.length - s1.cph.ops.length) * 65536 / max 1 y.keys }
  else s

/-- An erase of a block for Block Erase ends; a block that fails is retired, and the sanitize cannot complete. -/
def State.sanErase (s : State) (m : Nat × Nat × Nat) (ok : Bool) : State :=
  if s.nvme.sanitize.action = 2 ∧ s.nvme.sanitize.blocks.contains m then
    let x := s.blk m
    let s1 := if ok then (if x.state = 3 then s else s.setBlk m ⟨x.erases + 1, 0, []⟩).tally 0x58 1
      else (if x.state = 3 then s else s.retireBlock m).tally 0x70 1
    (s1.modSan fun y => { y with blocks := y.blocks.filter fun b => b != m, bad := y.bad || !ok }).sanStep
  else s

/-- The checks of R211 and R212. -/
def State.sanRefused (s : State) (c : Sqe) : Option Status :=
  if c.cdw10.getLsbD 9 then some stInvalidField
  else if !s.openTakes.isEmpty || s.rd Reg.FIT_STATUS_STATE != 0 then some stSequence
  else none

/-- A sanitize starts: its command completes, and the operation goes on by itself. -/
def State.sanitize (s : State) (c : Sqe) (action : Nat) : State :=
  match s.sanRefused c with
  | some st => s.fail c st
  | none =>
    let s1 := (s.succeed c).sanStop
    ((s1.modSan fun x => { x with action := action, cdw10 := c.cdw10.toNat, every := [] }).sanBegin).sanStep

def execSanitizeBlockErase (c : Sqe) (s : State) : Host.Outcome State Fault Refusal :=
  .next (s.admin c .service fun t => (t.sanitize c 2).settleDma)

def execSanitizeCryptoErase (c : Sqe) (s : State) : Host.Outcome State Fault Refusal :=
  .next (s.admin c .service fun t => (t.sanitize c 4).settleDma)

/-- SANITIZE_EXIT_FAILURE_MODE. -/
def State.sanExit (s : State) (c : Sqe) : State :=
  match s.sanRefused c with
  | some st => s.fail c st
  | none => (s.modSan fun x => { x with failed := false }).succeed c

def execSanitizeExitFailureMode (c : Sqe) (s : State) : Host.Outcome State Fault Refusal :=
  .next (s.admin c .service fun t => t.sanExit c)

/-- SANITIZE_OVERWRITE. -/
def execSanitizeOverwrite (c : Sqe) (s : State) : Host.Outcome State Fault Refusal :=
  .next (s.admin c .service fun t => t.fail c stInvalidField)

/-! ### Enable and shutdown (03 R87; 06 R206) -/

/-- The admin queues of a controller as AQA gives them. -/
def adminQueues (k : Ctrl) (asqs acqs : Nat) : Ctrl :=
  { k with sqs := [(0, ⟨asqs + 1, 0, 0, 0, 0⟩)], cqs := [(0, ⟨acqs + 1, 0, 0, 0, true⟩)] }

/-- A controller becomes ready once PHASE has reached RECOVERY; a controller at a port whose link waits for its image also answers with no
image at all (03 R90). -/
def State.showReady (s : State) : State :=
  if s.phase < 0xA || 0xC ≤ s.phase then s
  else (List.range 4).foldl (fun t c => if (t.ctrl c).en && !(t.ctrl c).rdy && t.hasCtrl c then
    let t1 := t.modCtrl c fun k => { k with rdy := true }
    if t1.boot.rdyAt.isNone then { t1 with boot := { t1.boot with rdyAt := some t1.now } } else t1 else t) s

/-- CC_EN_SET: CC.EN written from 0 to 1, with AQA.ASQS and AQA.ACQS. -/
def State.enable (s : State) (c asqs acqs : Nat) : State :=
  let k := s.ctrl c
  if k.en then s
  else (s.setCtrl c { adminQueues k asqs acqs with
    en := true, shn := 0, shst := 0, aqa := BitVec.ofNat 32 (asqs + 65536 * acqs) }).showReady

def execCcEnSet (ctrl : Fin 4) (asqs acqs : Fin 4096) (s : State) : Host.Outcome State Fault Refusal :=
  .next (if s.mainUp && s.hasCtrl ctrl.val then s.enable ctrl.val asqs.val acqs.val else s)

/-- A command of no queue, for the waits of a controller. -/
def ctrlSqe (c : Fin 4) : Sqe := { ownSqe with ctrl := c }

/-- CC_SHN_WRITE: a normal (1) or abrupt (2) notification waits for what has been acknowledged, then for the journal tail. -/
def State.shutdown (s : State) (c : Fin 4) (shn : Nat) : State :=
  if shn = 0 ∨ 2 < shn then s.modCtrl c.val fun k => { k with shn := shn }
  else
    let s1 := s.modCtrl c.val fun k => { k with shn := shn, shst := 1 }
    s1.modPath fun p => { p with waits := p.waits ++ [⟨1, ctrlSqe c, s1.undurable, s1.now⟩] }

def execCcShnWrite (ctrl : Fin 4) (shn : Fin 4) (s : State) : Host.Outcome State Fault Refusal :=
  .next (if s.mainUp && s.hasCtrl ctrl.val then (s.shutdown ctrl shn.val).settleDma else s)

/-- KEY_RECORD_DURABLE; a sanitize that waits for key changes goes on. -/
def execKeyRecordDurable (slot : Fin 1024) (s : State) : Host.Outcome State Fault Refusal :=
  .next (if s.mainUp then (s.keyRecordDurable slot.val).settleDma.sanStep else s)

end Sys2Proof.Machine
end

