-- ==== Sys2Proof/Machine/Parity.lean ====
section
/-!
DEFINITION. Machine/Parity.lean: parity bytes (12 R420, R432, R433): arithmetic in GF(2^8) with the reducing polynomial 0x11D, P and
Q of a row, and the reconstruction of up to two missing members. The parity members of a stripe in the state carry what these
functions give of its data.
-/
namespace Sys2Proof.Machine

/-- Multiplication by g = 0x02. -/
def gdouble (a : Byte) : Byte := if a.getLsbD 7 then (a <<< 1) ^^^ 0x1D#8 else a <<< 1

/-- The carry-less product modulo 0x11D, over the bits of b from bit n - 1 down. -/
def gmulBits (a b : Byte) : Nat → Byte
  | 0 => 0
  | n + 1 => gdouble (gmulBits a (b >>> 1) n) ^^^ (if b.getLsbD 0 then a else 0)

def gmul (a b : Byte) : Byte := gmulBits a b 8

/-- g to the power i. -/
def gpow : Nat → Byte
  | 0 => 1
  | i + 1 => gdouble (gpow i)

/-- The inverse of a non-zero byte: its 254th power. -/
def ginv (a : Byte) : Byte :=
  let a2 := gmul a a
  let a4 := gmul a2 a2
  let a8 := gmul a4 a4
  let a16 := gmul a8 a8
  let a32 := gmul a16 a16
  let a64 := gmul a32 a32
  let a128 := gmul a64 a64
  gmul a128 (gmul a64 (gmul a32 (gmul a16 (gmul a8 (gmul a4 a2)))))

def gdiv (a b : Byte) : Byte := gmul a (ginv b)

/-- P of the bytes of the data members at one position. -/
def parityP (d : List Byte) : Byte := d.foldl (fun x y => x ^^^ y) 0

/-- Q of the bytes of the data members from index i on. -/
def parityQFrom : Nat → List Byte → Byte
  | _, [] => 0
  | i, x :: l => gmul (gpow i) x ^^^ parityQFrom (i + 1) l

def parityQ (d : List Byte) : Byte := parityQFrom 0 d

/-- The bytes of the members present, a missing one as 0: what ps and qs of R433 are computed over. -/
def present (d : List (Option Byte)) : List Byte := d.map fun x => x.getD 0

def synP (p : Byte) (d : List (Option Byte)) : Byte := p ^^^ parityP (present d)
def synQ (q : Byte) (d : List (Option Byte)) : Byte := q ^^^ parityQ (present d)

/-- One data member x missing, with P present. -/
def rebuildP (p : Byte) (d : List (Option Byte)) : Byte := synP p d

/-- One data member x missing, P missing, Q present. -/
def rebuildQ (q : Byte) (x : Nat) (d : List (Option Byte)) : Byte := gdiv (synQ q d) (gpow x)

/-- Data members x and y missing. -/
def rebuildTwo (p q : Byte) (x y : Nat) (d : List (Option Byte)) : Byte × Byte :=
  let ps := synP p d
  let dx := gdiv (synQ q d ^^^ gmul (gpow y) ps) (gpow x ^^^ gpow y)
  (dx, ps ^^^ dx)

/-! ### Hem pages (11 R390, Table 11.3) -/

/-- The lowest and highest SEQ of a stripe's data sectors. -/
def Stripe.seqMin (st : Stripe) : Nat := st.data.foldl (fun m e => match e.2 with | some p => min m p.sec.seq | none => m) (2 ^ 64 - 1)
def Stripe.seqMax (st : Stripe) : Nat := maxOf (st.data.filterMap fun e => e.2.map fun p => p.sec.seq)

/-- The hem page of a closed stripe: header and entries. -/
def Stripe.hemBytes (st : Stripe) (b : Band) : List Byte :=
  let es := st.entries.flatMap Entry.bytes
  let head (crc : Nat) : List Byte :=
    padTo 256 (leBytes 4 0x48584349 ++ leBytes 2 1 ++ leBytes 1 b.width ++ leBytes 1 b.parity ++ leBytes 4 st.id ++ leBytes 4 b.id ++ leBytes 2 st.firstRow ++
      leBytes 1 st.rows ++ leBytes 1 st.flags ++ leBytes 4 st.entries.length ++ leBytes 8 st.seqMin ++ leBytes 8 st.seqMax ++ leBytes 8 st.cpSeq ++
      leBytes 8 st.cpGen ++ leBytes 4 (crc32c es) ++ leBytes 4 crc) ++
    padTo 256 (b.members.flatMap fun m => leBytes 2 m.1 ++ leBytes 1 m.2.1 ++ [0] ++ leBytes 4 m.2.2)
  head (crc32c (head 0)) ++ es

/-- Sector k of the hem page, with its envelope. -/
def Stripe.hemSector (st : Stripe) (b : Band) (k : Nat) : Sector :=
  ⟨0, 1, st.hemSeq + k, List.replicate 16 0, padTo 4096 (slice (st.hemBytes b) (4096 * k) 4096), 0, 0⟩

/-- The sector a member of a row holds at a place: of the data area, or of the hem page in the last row of a closed stripe. -/
def State.sectorAt (s : State) (b : Band) (st : Stripe) (row k : Nat) : Option Sector :=
  if st.state ≠ 0 ∧ row + 1 = st.rows then some (st.hemSector b k) else (st.posAt (row * s.per b + k)).map fun p => p.sec

/-! ### Page images (R418, R420) -/

/-- Byte k of the image of data member m in a row of a stripe, data or hem: sector payloads, then the envelopes, both as `enc` gives them for a
sector (the payload as it is stored, the envelope). -/
def State.imageByte (s : State) (b : Band) (st : Stripe) (row m plane k : Nat) (enc : Sector → List Byte × List Byte) : Byte :=
  let page := (s.pers b.pers).get 0x14
  let spp := page / 4096
  let at1 (sec : Nat) : Option Sector := s.sectorAt b st row (m * s.su b + plane * spp + sec)
  if k < page then (match at1 (k / 4096) with | some x => (enc x).1.getD (k % 4096) 0 | none => 0)
  else if k < page + 48 * spp then (match at1 ((k - page) / 48) with | some x => (enc x).2.getD ((k - page) % 48) 0 | none => 0)
  else 0

/-- The column of data member bytes at one position of a row. -/
def State.column (s : State) (b : Band) (st : Stripe) (row plane k : Nat) (enc : Sector → List Byte × List Byte) : List Byte :=
  (List.range b.dm).map fun m => s.imageByte b st row m plane k enc

/-- What the P and Q members of a row hold at one position. -/
def State.rowP (s : State) (b : Band) (st : Stripe) (row plane k : Nat) (enc : Sector → List Byte × List Byte) : Byte := parityP (s.column b st row plane k enc)
def State.rowQ (s : State) (b : Band) (st : Stripe) (row plane k : Nat) (enc : Sector → List Byte × List Byte) : Byte := parityQ (s.column b st row plane k enc)

/-- Byte k of the image of member m of a row: of data, of P, of Q. -/
def State.memberByte (s : State) (b : Band) (st : Stripe) (row m plane k : Nat) (enc : Sector → List Byte × List Byte) : Byte :=
  if m < b.dm then s.imageByte b st row m plane k enc
  else if m = b.dm then s.rowP b st row plane k enc else s.rowQ b st row plane k enc

end Sys2Proof.Machine
end

