-- ==== Sys2Proof/Machine/Steeple.lean ====
section
/-!
DEFINITION. Machine/Steeple.lean: the Steeple chain (09): locks, messages, the carrying of time, roles and states, references,
broadcasts, membership.
-/
namespace Sys2Proof.Machine

def State.modStp (s : State) (f : Stp → Stp) : State := { s with stp := f s.stp }

def State.stpState (s : State) : Nat := s.rd Reg.STP_STATUS_STATE
def State.role (s : State) : Nat := s.force Reg.STP_CFG_ROLE
def State.hop (s : State) : Nat := s.rd Reg.STP_STATUS_HOP
def State.uid (s : State) : Nat := leAt s.uniqueId 0 8

/-- The state of the block by name (Table 9.4). -/
def stpOff : Nat := 0
def stpAcquire : Nat := 1
def stpHead : Nat := 2
def stpLocked : Nat := 3
def stpHoldoverHead : Nat := 4
def stpHoldover : Nat := 5
def stpSlewing : Nat := 6

/-- The ports run: not with ROLE 3, not in Deep Sleep or Off (R336, 20 R699). -/
def State.stpPorts (s : State) : Bool := s.role != 3 && s.pwrState != 3 && s.pwrState != 4
/-- The UP receiver is used: not with ROLE 1 either. -/
def State.stpUp (s : State) : Bool := s.stpPorts && s.role != 1

/-! ### Time (R331 to R334) -/

/-- Fixes the timebase at its value now, so that its rate can change without a step. -/
def State.rebase (s : State) : State := s.modStp fun x => { x with base := s.steepleFrac, baseAt := s.now }

/-- Adds to the timebase, in 2^-16 ns. -/
def State.stepTime (s : State) (d : Int) : State := (s.rebase).modStp fun x => { x with base := x.base + d }

/-- The bound of the device's own time against the head in ps (R334, R345); while SLEWING the value at the heal stays (log entry 19). -/
def State.stpUnc (s : State) : Nat :=
  let st := s.stpState
  if st = stpHead then 0
  else if st = stpLocked then 2000 + 100 * s.hop
  else if st = stpHoldoverHead ∨ st = stpHoldover then
    min 0xFFFFFFFF (s.stp.uncBreak + s.force Reg.STP_CFG_OSC_PPB * (s.steepleTime - s.stp.breakAt) / 1000000)
  else if st = stpSlewing then s.stp.uncBreak
  else 0xFFFFFFFF

/-- 2^-16 ns in ps, rounded down. -/
def toPs (f : Int) : Int := f * 1000 / 65536

def clampI (lo hi x : Int) : Int := max lo (min hi x)

/-- The mean one-way delay in 2^-16 ns (the list holds twice each delay). -/
def State.hopDelay (s : State) : Int := if s.stp.delays.isEmpty then 0 else s.stp.delays.sum / (2 * s.stp.delays.length)

/-- STP_MEMBERS.COUNT: distinct UIDs heard in the last 300 ms, on a head; a change raises 1,767. -/
def State.countMembers (s : State) : State :=
  let live := s.stp.members.filter fun m => s.now < m.2 + 300000000
  let n := if s.stpState = stpHead ∨ s.stpState = stpHoldoverHead then min 4095 live.length else 0
  let s1 := (s.modStp fun x => { x with members := live }).wr Reg.STP_MEMBERS_COUNT n
  s1.raiseIf (s.rd Reg.STP_MEMBERS_COUNT != n) 1767

/-- A state is entered: the members counted are those of a head (R350). -/
def State.setStp (s : State) (st : Nat) : State := (s.wr Reg.STP_STATUS_STATE st).countMembers

/-- The head whose time the device carries. -/
def State.headUid (s : State) : Nat := s.rd64 Reg.STP_HEAD_UID_LO Reg.STP_HEAD_UID_HI
def State.setHeadUid (s : State) (u : Nat) : State := s.wr64 Reg.STP_HEAD_UID_LO Reg.STP_HEAD_UID_HI u

/-- A break (R344, R346): HOLDOVER_HEAD or HOLDOVER is entered, counted, reported to the take service with PORT 0. -/
def State.enterHoldover (s : State) (st : Nat) : State :=
  let unc := s.stpUnc
  let t := s.steepleTime
  let s1 := (s.rebase).modStp fun x => { x with breakAt := t, uncBreak := unc, slew := 0, lockRun := 0, unlockRun := 0, healing := false }
  let s2 := ((s1.setStp st).bump Reg.STP_COUNT_BREAKS).chainRecord 2 t [0, bit (st == stpHoldoverHead), s.force Reg.STP_CFG_OSC_PPB, unc, 0, 0]
  let s3 := if st = stpHoldoverHead then s2.setHeadUid s.uid else s2
  s3.raise 1762

/-- A heal a device in holdover takes part in (R348). -/
def State.reportHeal (s : State) (unc : Nat) (offset : Int) (slewEnd : Nat) (uidBefore uidNow : Nat) : State :=
  let s1 := s.chainRecord 3 s.steepleTime [0, 0, 0, unc, toCode 64 (toPs offset), slewEnd]
  (s1.raise 1763).raiseIf (uidBefore != uidNow) 1764

/-- The time is established (22 event records carry it from then on). -/
def State.establish (s : State) : State := s.modStp fun x => { x with established := true }

def State.toLocked (s : State) : State :=
  ((s.setStp stpLocked).modStp fun x => { x with slew := 0, healing := false, lockRun := 0, unlockRun := 0 }).establish

/-- The device is the top of a chain: hop 0, its own UID, no heal refused, no chain end. -/
def State.topOfChain (s : State) : State :=
  (((s.wr Reg.STP_STATUS_HOP 0).setHeadUid s.uid).wr Reg.STP_STATUS_HEAL_REFUSED 0).wr Reg.STP_STATUS_CHAIN_END 0

/-- HEAD is entered with time going on (R338); the calendar relation stands only if it was written here since main reset (R340). -/
def State.toHead (s : State) : State :=
  let s1 := ((s.rebase).setStp stpHead).topOfChain
  let s2 := if s.stp.calWritten then s1 else s1.wr Reg.STP_STATUS_CAL_VALID 0
  s2.modStp fun x => { x with slew := 0, established := true, healing := false, lockRun := 0 }

/-! ### Messages (R328 to R330) -/

/-- A message on the line: the header of Table 9.1, the payload, the CRC over both (R328). -/
def stpBytes (ty seq hop flags : Nat) (pay : List Byte) : List Byte :=
  let m := leBytes 1 ty ++ leBytes 1 pay.length ++ leBytes 2 seq ++ leBytes 2 (hop % 4096) ++ leBytes 2 flags ++ pay
  m ++ leBytes 4 (crc32c m)

/-- A time in 2^-16 ns as ns and fraction (T1, T2, T3 of Table 9.3). -/
def timeBytes (f : Int) : List Byte := leBytes 8 (f / 65536).toNat ++ leBytes 2 (f % 65536).toNat

/-- Sends a message: the port's count rises with each. -/
def State.send (s : State) (port ty flags : Nat) (hop : Nat) (pay : List Byte) : State :=
  let n := mapGet (fun _ => 0) s.stp.txSeq port
  s.modStp fun x => { x with
    txSeq := mapSet (fun _ => 0) x.txSeq port ((n + 1) % 65536), sent := x.sent ++ [(port, stpBytes ty n hop flags pay)] }

/-- A received message: HOP, FLAGS, payload; nothing where framing, CRC or TYPE is wrong. -/
structure StpIn where
  ty : Nat
  hop : Nat
  flags : Nat
  pay : List Byte
  deriving DecidableEq, Repr

def parseMsg (m : List Byte) : Option StpIn :=
  let len := byteAt m 1
  let ty := byteAt m 0
  if m.length ≠ 12 + len ∨ 52 < len ∨ leAt m (8 + len) 4 ≠ crc32c (m.take (8 + len)) ∨ ty = 0 ∨ 8 < ty then none
  else some ⟨ty, leAt m 4 2 % 4096, leAt m 6 2, slice m 8 len⟩

/-- A message of a type arrives on a port with symbol lock: a bad one is counted and discarded; `f` says what a good one does. -/
def State.onMsg (s : State) (ty : Nat) (up : Bool) (m : List Byte) (f : StpIn → State) : State :=
  if !s.mainUp || !s.stpPorts || (up && (!s.stpUp || s.rd Reg.STP_STATUS_UP_LOCK = 0)) || (!up && s.rd Reg.STP_STATUS_DN_LOCK = 0) then s
  else match parseMsg m with
    | none => s.bump Reg.STP_ERR_CRC_ERR
    | some x => if x.ty = ty then f x else s

/-- A time with its fraction, in 2^-16 ns. -/
def timeAt (b : List Byte) (off : Nat) : Nat := leAt b off 8 * 65536 + leAt b (off + 8) 2

/-! ### Symbol lock (R327, R344) -/

/-- STP_UP_LOCK_ACQUIRED. -/
def execStpUpLockAcquired (s : State) : Host.Outcome State Fault Refusal :=
  .next (if s.mainUp && s.stpUp then s.wr Reg.STP_STATUS_UP_LOCK 1 else s)

/-- STP_DN_LOCK_ACQUIRED. -/
def execStpDnLockAcquired (s : State) : Host.Outcome State Fault Refusal :=
  .next (if s.mainUp && s.stpPorts then s.wr Reg.STP_STATUS_DN_LOCK 1 else s)

/-- UP loses symbol lock: UP_CAL is cleared; a device in LOCKED, SLEWING or HOLDOVER becomes the head of its segment. -/
def State.upLost (s : State) : State :=
  if s.rd Reg.STP_STATUS_UP_LOCK = 0 then s
  else
    let s1 := ((s.wr Reg.STP_STATUS_UP_LOCK 0).wr Reg.STP_STATUS_UP_CAL 0).modStp fun x => { x with delays := [] }
    let s2 := s1.raise 1760
    if s.stpState = stpLocked ∨ s.stpState = stpSlewing ∨ s.stpState = stpHoldover then s2.enterHoldover stpHoldoverHead
    else if s.stp.healing then
      -- the heal did not come to LOCKED: a head carries its own time again
      let s3 := s2.modStp fun x => { x with healing := false, lockRun := 0 }
      if s.stpState = stpHead then s3.topOfChain else if s.stpState = stpHoldoverHead then s3.setHeadUid s.uid else s3
    else s2

/-- STP_UP_LOCK_LOST; `violations` code and disparity errors were seen. -/
def execStpUpLockLost (violations : Nat) (s : State) : Host.Outcome State Fault Refusal :=
  .next (if s.mainUp then ((s.bumpBy Reg.STP_ERR_CODE_ERR violations).upLost).settleDma else s)

/-- DN loses symbol lock: reported with PORT 1; the device's time is unaffected. -/
def State.dnLost (s : State) : State :=
  if s.rd Reg.STP_STATUS_DN_LOCK = 0 then s
  else
    let s1 := ((s.wr Reg.STP_STATUS_DN_LOCK 0).wr Reg.STP_STATUS_DN_CAL 0).modStp fun x => { x with dnCount := 0 }
    let role := bit (s.stpState == stpHead || s.stpState == stpHoldoverHead)
    (s1.raise 1761).chainRecord 2 s.steepleTime [1, role, 0, s.stpUnc, 0, 0]

def execStpDnLockLost (violations : Nat) (s : State) : Host.Outcome State Fault Refusal :=
  .next (if s.mainUp then ((s.bumpBy Reg.STP_ERR_CODE_ERR violations).dnLost).settleDma else s)

/-! ### Delay (R331) -/

/-- STP_DELAY_REQ_SEND: every 10 µs while UP has symbol lock. -/
def execStpDelayReqSend (s : State) : Host.Outcome State Fault Refusal :=
  .next (if s.mainUp && s.stpUp && s.rd Reg.STP_STATUS_UP_LOCK == 1 then s.send 0 2 0 s.hop (timeBytes s.steepleFrac) else s)

/-- STP_DELAY_REQ: answered within 2 µs, `turn` ns after its arrival. The device below has calibrated once 1,024 exchanges were
answered (log entry 19). -/
def State.delayReq (s : State) (turn : Nat) (x : StpIn) : State :=
  let t2 := s.steepleFrac
  let s1 := (s.send 1 3 0 s.hop (slice x.pay 0 10 ++ timeBytes t2 ++ timeBytes (t2 + 65536 * turn))).modStp fun y => { y with dnCount := y.dnCount + 1 }
  if 1024 ≤ s1.stp.dnCount then s1.wr Reg.STP_STATUS_DN_CAL 1 else s1

def execStpDelayReq (msg : List Byte) (turn : Fin 2001) (s : State) : Host.Outcome State Fault Refusal :=
  .next (s.onMsg 2 false msg (s.delayReq turn.val))

/-- STP_DELAY_RESP: one more exchange in the mean of the latest 1,024. -/
def State.delayResp (s : State) (x : StpIn) : State :=
  let t1 : Int := timeAt x.pay 0
  let t2 : Int := timeAt x.pay 10
  let t3 : Int := timeAt x.pay 20
  let d2 := (s.steepleFrac - t1) - (t3 - t2)
  let s1 := s.modStp fun y => { y with delays := (d2 :: y.delays).take 1024 }
  if s1.stp.delays.length < 1024 then s1
  else
    let s2 := s1.wr Reg.STP_HOP_DELAY_PS (clampI 0 0xFFFFFFFF (toPs s1.hopDelay)).toNat
    if s.rd Reg.STP_STATUS_UP_CAL = 1 then s2 else (s2.wr Reg.STP_STATUS_UP_CAL 1).raise 1768

def execStpDelayResp (msg : List Byte) (s : State) : Host.Outcome State Fault Refusal :=
  .next (s.onMsg 3 true msg s.delayResp)

/-! ### TIME (R332, R333, R344, R347) -/

/-- STP_TIME_SEND: a head and every device whose UP has a time source, a segment head included; never at hop 4,095 (R337). -/
def State.timeSend (s : State) : State :=
  let st := s.stpState
  if s.stpPorts && stpHead ≤ st && s.rd Reg.STP_STATUS_CHAIN_END == 0 then
    s.send 1 1 (bit (stpHoldoverHead ≤ st)) s.hop (timeBytes s.steepleFrac ++ leBytes 1 st ++ [0] ++ leBytes 4 s.stpUnc ++ leBytes 8 s.headUid)
  else s

def execStpTimeSend (s : State) : Host.Outcome State Fault Refusal := .next (if s.mainUp then s.timeSend else s)

/-- The part of the offset one TIME message removes while the loop tracks: 2π × 100 Hz × 10 µs (DESIGN CHOICE, log entry 19). -/
def loopStep (offset : Int) : Int := offset * 62832 / 10000000

/-- The place in the chain a TIME message gives: one hop below its sender, under its head (R332, R337). -/
def State.below (s : State) (uid hop : Nat) : State :=
  ((s.wr Reg.STP_STATUS_HOP hop).setHeadUid uid).wr Reg.STP_STATUS_CHAIN_END (bit (hop == 4095))

/-- A slew of 200 ppm that removes an offset: its length in ns. -/
def slewLength (offset : Int) : Nat := 5000 * ((offset.natAbs + 65535) / 65536)

/-- The timebase runs 200 ppm fast or slow until an offset is removed. -/
def State.slewBy (s : State) (offset : Int) : State :=
  (s.rebase).modStp fun x => { x with slew := if 0 ≤ offset then 200 else -200, slewEnd := s.now + slewLength offset }

/-- A device that is no head any more uses no reference (R339). -/
def State.dropRefs (s : State) : State :=
  let pps := s.stpState == stpHead && (s.force Reg.STP_CFG_REF).testBit 0
  let ten := s.stpState == stpHead && (s.force Reg.STP_CFG_REF).testBit 1
  let s1 := if pps then s else (s.wr Reg.STP_STATUS_REF_PPS_LOCK 0).modStp fun x => { x with ppsAt := none }
  if ten then s1 else s1.wr Reg.STP_STATUS_REF_10M_LOCK 0

/-- The timebase brought to the upstream time (R347): a step with no take open, a slew of 200 ppm with one, neither past 1 s. A heal
out of HOLDOVER_HEAD is reported, with the device's time at the end of the slew (R348). -/
def State.heal (s : State) (offset : Int) (uid hop : Nat) : State :=
  let open1 := !s.openTakes.isEmpty
  let unc := s.stpUnc
  let before := s.headUid
  let held := s.stpState == stpHoldoverHead
  let big := 65536 * 1000000000 < offset ∨ offset < -(65536 * 1000000000)
  if open1 ∧ big then s.wr Reg.STP_STATUS_HEAL_REFUSED 1
  else
    let mark (t : State) := (t.wr Reg.STP_STATUS_HEAL_REFUSED 0).modStp fun x => { x with healing := true, lockRun := 0 }
    if !open1 then
      let s1 := mark ((s.stepTime offset).below uid hop)
      if held then s1.reportHeal unc offset s1.steepleTime before uid else s1
    else
      let len := slewLength offset
      let ends := ((s.steepleTime : Int) + len + (if 0 ≤ offset then 1 else -1) * (len / 5000 : Nat)).toNat
      let s1 := (mark ((((s.slewBy offset).setStp stpSlewing).dropRefs).below uid hop)).modStp fun x => { x with uncBreak := unc }
      if held then s1.reportHeal unc offset ends before uid else s1

/-- A TIME message of the device above, with UP_CAL set. -/
def State.follow (s : State) (x : StpIn) : State :=
  let tx : Int := timeAt x.pay 0
  let offset := tx + s.hopDelay - s.steepleFrac
  let uid := leAt x.pay 16 8
  let hop := min 4095 (x.hop + 1)
  let s1 := s.wr Reg.STP_OFFSET_PS (toCode 32 (clampI (-2147483648) 2147483647 (toPs offset)))
  let st := s.stpState
  let near := offset.natAbs ≤ 65536
  let far := 4 * 65536 < offset.natAbs
  let track (t : State) := t.stepTime (loopStep offset)
  if st = stpOff ∨ (st = stpHead ∧ s.role ≠ 0) then s1
  else if (st = stpAcquire ∨ st = stpHoldoverHead ∨ st = stpHead) ∧ !s.stp.healing then s1.heal offset uid hop
  else if st = stpAcquire ∨ st = stpHoldoverHead ∨ st = stpHead ∨ st = stpSlewing then
    -- after the step or the slew: LOCKED once |offset| has been 1 ns or less for 100 messages (R333)
    let s0 := s1.below uid hop
    if s.stp.slew ≠ 0 then s0
    else
      let s2 := (track s0).modStp fun y => { y with lockRun := if near then y.lockRun + 1 else 0 }
      if 100 ≤ s2.stp.lockRun then s2.toLocked.dropRefs else s2
  else
    let s2 := (track s1).below uid hop
    if st = stpLocked then
      if x.flags.testBit 0 then s2.enterHoldover stpHoldover
      else
        let s3 := s2.modStp fun y => { y with unlockRun := if far then y.unlockRun + 1 else 0 }
        if 10 ≤ s3.stp.unlockRun then ((s3.setStp stpAcquire).modStp fun y => { y with unlockRun := 0, healing := false, acquireAt := s.now }).heal offset uid hop
        else s3
    else -- HOLDOVER: leaves with the first TIME without HOLDOVER
      if x.flags.testBit 0 then s2
      else (s2.toLocked).reportHeal s.stpUnc offset s.steepleTime s.headUid uid

/-- STP_TIME. -/
def State.timeMsg (s : State) (x : StpIn) : State :=
  let s1 := s.modStp fun y => { y with timeAt := some s.now }
  if s.rd Reg.STP_STATUS_UP_CAL = 0 then s1 else (s1.follow x).settleDma

def execStpTime (msg : List Byte) (s : State) : Host.Outcome State Fault Refusal :=
  .next (s.onMsg 1 true msg s.timeMsg)

/-- STP_SLEW_COMPLETE: the slew has removed the offset; LOCKED follows under R333. -/
def State.slewDone (s : State) : State :=
  if s.stp.slew ≠ 0 ∧ s.stp.slewEnd ≤ s.now then (s.rebase).modStp fun x => { x with slew := 0 } else s

def execStpSlewComplete (s : State) : Host.Outcome State Fault Refusal := .next (if s.mainUp then s.slewDone else s)

/-- STP_ACQUIRE_TIMEOUT (R336): ROLE 0 with no valid TIME for 100 ms in ACQUIRE. -/
def State.acquireTimeout (s : State) : State :=
  let since := match s.stp.timeAt with | some t => max t s.stp.acquireAt | none => s.stp.acquireAt
  if s.stpState = stpAcquire ∧ s.role = 0 ∧ since + 100000000 ≤ s.now then s.toHead else s

def execStpAcquireTimeout (s : State) : Host.Outcome State Fault Refusal := .next (if s.mainUp then s.acquireTimeout else s)

/-- Adoption of a role (R335, R336, R338) and of the references: no step of the device's time. A device leaving HEAD acquires. -/
def State.adoptRole (s : State) : State :=
  let r := s.role
  let was := s.rd Reg.STP_STATUS_ROLE
  let s1 := s.wr Reg.STP_STATUS_ROLE r
  let st := s.stpState
  let acquire (t : State) := ((t.rebase).setStp stpAcquire).modStp fun x => { x with slew := 0, healing := false, lockRun := 0, acquireAt := s.now, timeAt := none }
  let noUp (t : State) := ((t.wr Reg.STP_STATUS_UP_LOCK 0).wr Reg.STP_STATUS_UP_CAL 0).modStp fun x => { x with delays := [] }
  let s2 :=
    if r = 3 then
      if st = stpOff then s1
      else (((noUp ((s1.rebase).setStp stpOff)).wr Reg.STP_STATUS_DN_LOCK 0).wr Reg.STP_STATUS_DN_CAL 0).wr Reg.STP_STATUS_CAL_VALID 0
        |>.modStp fun x => { x with slew := 0, healing := false, dnCount := 0 }
    else if r = 1 then
      if st = stpHead ∧ !s.stp.healing then noUp s1 else (noUp s1).toHead
    else if st = stpOff then acquire s1
    else if st = stpHead ∧ r ≠ was then acquire s1
    else s1
  s2.dropRefs

/-! ### Broadcasts (R341 to R343) -/

/-- A device has received a broadcast before; it remembers the last 64. -/
def State.seenBefore (s : State) (uid id : Nat) : Bool := s.stp.seen.contains (uid, id)
def State.remember (s : State) (uid id : Nat) : State := s.modStp fun x => { x with seen := ((uid, id) :: x.seen).take 64 }

/-- Forwards a message out of the opposite port, unchanged but for the port's own count and, downward, the sender's hop. -/
def State.forward (s : State) (port : Nat) (x : StpIn) : State := s.send port x.ty x.flags (if port = 1 then s.hop else x.hop) x.pay

/-- The payload of a TRIGGER and of a TAKE_OPEN or TAKE_CLOSE this head originates (Table 9.3). -/
def State.triggerCast (s : State) (action t rig id : Nat) : List Byte :=
  leBytes 4 id ++ leBytes 1 action ++ [0, 0, 0] ++ leBytes 8 t ++ leBytes 8 rig ++ leBytes 8 s.uid
def State.takeCast (s : State) (t rig id : Nat) : List Byte := leBytes 4 id ++ [0, 0, 0, 0] ++ leBytes 8 t ++ leBytes 8 rig ++ leBytes 8 s.uid

/-- A new broadcast is sent, and kept to be repeated. -/
def State.originate (s : State) (ty : Nat) (body : Nat → List Byte) (time : Nat) : State :=
  let id := (s.stp.bcast + 1) % 2 ^ 32
  ((s.modStp fun x => { x with bcast := id }).send 1 ty 0 s.hop (body id)).modStp fun x => { x with
    casts := x.casts ++ [⟨ty, body id, time, s.now, 1⟩] }

/-- STP_BROADCAST_REPEAT: three times 20 µs apart, then every 100 ms with REPEAT until its time has passed. -/
def State.castOne (s : State) (c : Cast) : State :=
  let due := c.sentAt + (if c.count < 3 then 20000 else 100000000) ≤ s.now
  if 3 ≤ c.count ∧ c.time ≤ s.steepleTime then s.modStp fun x => { x with casts := x.casts.filter fun y => y != c }
  else if due then
    (s.send 1 c.ty (if c.count < 3 then 0 else 2) s.hop c.pay).modStp fun x => { x with
      casts := x.casts.map fun y => if y == c then { y with sentAt := s.now, count := y.count + 1 } else y }
  else s

def execStpBroadcastRepeat (s : State) : Host.Outcome State Fault Refusal :=
  .next (if s.mainUp && s.stpPorts then s.stp.casts.foldl State.castOne s else s)

/-- STP_TRIGGER: forwarded; new, it is a Steeple trigger at T for the takes with its RIG_TAKE_ID, or for every take. -/
def State.triggerMsg (s : State) (x : StpIn) : State :=
  let id := leAt x.pay 0 4
  let action := byteAt x.pay 4
  let t := leAt x.pay 8 8
  let rig := leAt x.pay 16 8
  let uid := leAt x.pay 24 8
  let s1 := s.forward 1 x
  if s.seenBefore uid id then s1
  else
    let p (k : Take) := k.accepts 0 && (rig == 0 || k.rigTake == rig)
    ((((s1.remember uid id).wake 5).fireDue).steepleTrigger p action t false).settleDma

def execStpTrigger (msg : List Byte) (s : State) : Host.Outcome State Fault Refusal := .next (s.onMsg 4 true msg s.triggerMsg)

/-- STP_TAKE_OPEN: takes waiting under JOIN_CHAIN adopt the identity, and its start is a Steeple START (07 R245). -/
def State.takeOpenMsg (s : State) (x : StpIn) : State :=
  let id := leAt x.pay 0 4
  let t := leAt x.pay 8 8
  let rig := leAt x.pay 16 8
  let uid := leAt x.pay 24 8
  let s1 := s.forward 1 x
  if s.seenBefore uid id then s1
  else
    let s2 := ((s1.remember uid id).wake 5).fireDue
    let mine := (s2.openTakes.filter fun k => k.joinChain && !k.joined && k.state == 1).map fun k => k.num
    let s3 := mine.foldl (fun u n => (u.modTake n fun k => { k with rigTake := rig, joined := true }).dirChange) s2
    if t = 0 then s3.settleDma
    else (s3.steepleTrigger (fun k => mine.contains k.num && k.accepts 0) 0 t false).settleDma

def execStpTakeOpen (msg : List Byte) (s : State) : Host.Outcome State Fault Refusal := .next (s.onMsg 5 true msg s.takeOpenMsg)

/-- STP_TAKE_CLOSE: a STOP at its time for every take that joined the chain take. -/
def State.takeCloseMsg (s : State) (x : StpIn) : State :=
  let id := leAt x.pay 0 4
  let t := leAt x.pay 8 8
  let rig := leAt x.pay 16 8
  let uid := leAt x.pay 24 8
  let s1 := s.forward 1 x
  if s.seenBefore uid id then s1
  else (((s1.remember uid id).fireDue).steepleTrigger (fun k => k.joined && k.rigTake == rig) 1 t true).settleDma

def execStpTakeClose (msg : List Byte) (s : State) : Host.Outcome State Fault Refusal := .next (s.onMsg 6 true msg s.takeCloseMsg)

/-! ### Calendar (R340) -/

/-- Installs the calendar relation. -/
def State.installCal (s : State) (offset utc valid : Nat) : State :=
  let s1 := s.wr64 Reg.STP_CAL_LO Reg.STP_CAL_HI offset
  (((s1.wr Reg.STP_CAL_CTL_UTC_OFFSET utc).wr Reg.STP_CAL_CTL_VALID valid).wr Reg.STP_STATUS_CAL_VALID valid).modStp fun x => { x with calStaged := offset }

/-- STP_CAL: a member installs what it receives, and forwards it. -/
def State.calMsg (s : State) (x : StpIn) : State :=
  let off := leAt x.pay 0 8
  let b := byteAt x.pay 8
  let s1 := s.forward 1 x
  if s.stpState = stpHead ∨ s.stpState = stpOff then s1 else s1.installCal off (b % 128) (b / 128 % 2)

def execStpCal (msg : List Byte) (s : State) : Host.Outcome State Fault Refusal := .next (s.onMsg 7 true msg s.calMsg)

/-- STP_CAL_SEND: every 100 ms by the head. -/
def execStpCalSend (s : State) : Host.Outcome State Fault Refusal :=
  .next (if s.mainUp && s.stpPorts && s.stpState == stpHead then
    s.send 1 7 0 s.hop (leBytes 8 (s.rd64 Reg.STP_CAL_LO Reg.STP_CAL_HI) ++ leBytes 1 (s.rd Reg.STP_CAL_CTL_UTC_OFFSET + 128 * s.rd Reg.STP_STATUS_CAL_VALID)) else s)

/-- STP_CAL_CTL_WRITE: on a head installs the staged offset and the written UTC offset together; discarded otherwise. -/
def State.calWrite (s : State) (data : Word) : State :=
  if s.stpState = stpHead then (s.installCal s.stp.calStaged (bitsOf data 0 7) (bitsOf data 31 1)).modStp fun x => { x with calWritten := true } else s

def execStpCalCtlWrite (_agent : Fin 8) (data : Word) (s : State) : Host.Outcome State Fault Refusal :=
  .next (if s.mainUp then s.calWrite data else s)

/-- A write of STP_CAL_LO or STP_CAL_HI is staged. -/
def State.calStage (s : State) (hi : Bool) (data : Word) : State :=
  s.modStp fun x => { x with calStaged := if hi then x.calStaged % 2 ^ 32 + 2 ^ 32 * data.toNat else x.calStaged / 2 ^ 32 * 2 ^ 32 + data.toNat }

/-! ### Membership (R350) -/

/-- STP_STATUS: forwarded up, and counted by a head. -/
def State.statusMsg (s : State) (x : StpIn) : State :=
  let uid := leAt x.pay 0 8
  let s1 := if s.stpUp && s.stpState != stpHead then s.forward 0 x else s
  (s1.modStp fun y => { y with members := (y.members.filter fun m => m.1 != uid) ++ [(uid, s.now)] }).countMembers

def execStpStatus (msg : List Byte) (s : State) : Host.Outcome State Fault Refusal := .next (s.onMsg 8 false msg s.statusMsg)

/-- STP_MEMBER_TIMEOUT. -/
def execStpMemberTimeout (s : State) : Host.Outcome State Fault Refusal := .next (if s.mainUp then s.countMembers else s)

/-- STP_STATUS_SEND: every 100 ms by every device but the head. -/
def execStpStatusSend (s : State) : Host.Outcome State Fault Refusal :=
  .next (if s.mainUp && s.stpUp && s.stpState != stpHead && s.stpState != stpOff then
    s.send 0 8 0 s.hop (leBytes 8 s.uid ++ leBytes 4 (s.inForce Reg.STP_RIG_ID).toNat ++ leBytes 1 s.stpState ++ leBytes 1 s.openTakes.length ++ [0, 0] ++
      leBytes 4 (s.rd Reg.STP_OFFSET_PS) ++ leBytes 4 s.stpUnc) else s)

/-! ### External reference (R339) -/

/-- REF_PPS is selected on a head. -/
def State.usesPps (s : State) : Bool := s.stpState == stpHead && !s.stp.healing && (s.force Reg.STP_CFG_REF).testBit 0
def State.uses10m (s : State) : Bool := s.stpState == stpHead && (s.force Reg.STP_CFG_REF).testBit 1

/-- The distance of the time from the nearest second, in 2^-16 ns. -/
def secondError (t : Int) : Int :=
  let sec : Int := 65536 * 1000000000
  let r := t % sec
  if 2 * r < sec then -r else sec - r

/-- STP_REF_PPS_EDGE: the first aligns the nearest second boundary, by a step with no take open and by a slew otherwise, after which an
edge within 5 ns locks; a later one is accepted within 100 ns of a boundary, and the boundary follows it (log entry 19). -/
def State.ppsEdge (s : State) : State :=
  if !s.usesPps then s
  else
    let e := secondError s.steepleFrac
    let locked := s.rd Reg.STP_STATUS_REF_PPS_LOCK == 1
    if locked && 100 * 65536 < e.natAbs then s
    else
      let s1 := s.modStp fun x => { x with ppsAt := some s.now }
      if locked || s.openTakes.isEmpty || e.natAbs ≤ 5 * 65536 then (s1.wr Reg.STP_STATUS_REF_PPS_LOCK 1).stepTime e else s1.slewBy e

def execStpRefPpsEdge (s : State) : Host.Outcome State Fault Refusal := .next (if s.mainUp then s.ppsEdge else s)

/-- STP_REF_PPS_LOSS: no accepted edge for 1.1 s. -/
def State.ppsLoss (s : State) : State :=
  match s.stp.ppsAt with
  | some t => if s.rd Reg.STP_STATUS_REF_PPS_LOCK = 1 ∧ t + 1100000000 ≤ s.now then ((s.wr Reg.STP_STATUS_REF_PPS_LOCK 0).modStp fun x => { x with ppsAt := none }).raise 1766 else s
  | none => s

def execStpRefPpsLoss (s : State) : Host.Outcome State Fault Refusal := .next (if s.mainUp then s.ppsLoss else s)

/-- STP_REF_10M_LOCK: after 1 ms of lock. -/
def execStpRef10mLock (s : State) : Host.Outcome State Fault Refusal :=
  .next (if s.mainUp && s.uses10m then s.wr Reg.STP_STATUS_REF_10M_LOCK 1 else s)

/-- STP_REF_10M_LOSS: no edge for 1 µs; the PLL returns to STP_OSC_IN. -/
def execStpRef10mLoss (s : State) : Host.Outcome State Fault Refusal :=
  .next (if s.mainUp && s.rd Reg.STP_STATUS_REF_10M_LOCK == 1 then (s.wr Reg.STP_STATUS_REF_10M_LOCK 0).raise 1766 else s)

/-- REPLICA_REALIGN (01 R44): every replica agrees with the Steeple domain's time within 4 ns; the model has the one time, so nothing
changes. -/
def execReplicaRealign (s : State) : Host.Outcome State Fault Refusal := .next s

end Sys2Proof.Machine
end

