-- ==== Sys2Proof/Machine/TakeCmds.lean ====
section
/-!
DEFINITION. Machine/TakeCmds.lean: the commands of the take service (07): Frame Write, Take Open, Take Close, Trigger, TRIG_IN, and what
time brings about for takes.
-/
namespace Sys2Proof.Machine

/-! ### Frame Write (R253 to R257) -/

/-- Frames in flight on a slot, those that wait for a START or their refusal among them (R254). -/
def State.inFlightOn (s : State) (slot : Nat) : Nat :=
  (s.takes.inflight.filter fun f => f.slot == slot).length + (s.takes.replies.filter fun r => r.slot == slot).length

/-- The waiting frame a segment names. -/
def State.replyTagged (s : State) (slot tag : Nat) : Option Reply := s.takes.replies.find? fun r => r.slot == slot && (match r.cmds with
  | c :: _ => dwBits c.cdw11 16 16 == tag
  | [] => false)

/-- Checks of the command alone. -/
def frameFieldsOk (c : Sqe) : Bool :=
  1 ≤ c.cdw10.toNat && c.cdw10.toNat ≤ 4194304 && c.cdw12.toNat % 4 == 0 && !(c.cdw11.getLsbD 4 && c.cdw12 != 0) && 64 ≤ c.cdw13.toNat

/-- A FIRST segment: refused, kept waiting a microsecond, or its frame begins. -/
def State.firstSegment (s : State) (c : Sqe) : State :=
  let slot := dwBits c.cdw11 0 4
  let len := c.cdw13.toNat
  let stamp := s.steepleTime
  match s.frameOutcome slot len stamp with
  | .refuse st => (s.fail c st).countRefused slot
  | o =>
    if (s.frameTagged slot (dwBits c.cdw11 16 16)).isSome || (s.replyTagged slot (dwBits c.cdw11 16 16)).isSome then s.fail c (stVendor 0x85 true)
    else if 1024 ≤ s.inFlightOn slot then s.fail c (stVendor 0x87 false)
    else match o with
      | .wait =>
        if segSequenceOk c 0 len then s.modTakes fun t => { t with replies := t.replies ++ [⟨slot, stamp, [c], none⟩] }
        else (s.fail c (stVendor 0x85 true)).countRefused slot
      | _ => match s.frameGate len with
        | some st => (s.fail c st).countRefused slot
        | none => s.acceptFirst c stamp

/-- A later segment: it continues its frame, joins one that waits, or its frame ends with FRAME_SEQUENCE. -/
def State.nextSegment (s : State) (c : Sqe) : State :=
  let slot := dwBits c.cdw11 0 4
  match s.slotClip slot with
  | none => s.fail c (s.noTake slot)
  | some _ => match s.replyTagged slot (dwBits c.cdw11 16 16) with
    | none => s.continueFrame c
    | some r =>
      let taken := maxOf (r.cmds.map segEnd)
      let length := match r.cmds with | q :: _ => q.cdw13.toNat | [] => 0
      let swap (l : List Sqe) : State := s.modTakes fun t => { t with replies := t.replies.map fun x => if x == r then { x with cmds := l } else x }
      if segSequenceOk c taken length then swap (r.cmds ++ [c])
      else
        let s1 := s.modTakes fun t => { t with replies := t.replies.filter fun x => x != r }
        ((r.cmds ++ [c]).foldl (fun u q => u.fail q (stVendor 0x85 true)) s1).countRefused slot

def State.frameWrite (s : State) (c : Sqe) : State :=
  let s1 := s.fetched c
  match (match s.ioGate c with | some st => some st | none => s.vendorGate) with
  | some st => s1.fail c st
  | none => match s.nsOf c with
    | none => s1.fail c stInvalidNs
    | some n =>
      if !n.take then s1.fail c stInvalidNs
      else if !frameFieldsOk c then s1.fail c stInvalidField
      else if c.cdw11.getLsbD 4 then s1.firstSegment c else s1.nextSegment c

/-- FRAME_WRITE. -/
def execFrameWrite (c : Sqe) (s : State) : Host.Outcome State Fault Refusal :=
  .next (if s.acts c then (s.fireDue.frameWrite c).settleDma else s)

/-- FRAME_SEGMENT_TIMEOUT (R256): 1 s after the last segment's fetch a frame not complete is abandoned. -/
def State.frameTimeouts (s : State) : State :=
  (s.takes.inflight.filter fun f => f.chan.isNone && f.taken != f.length && f.since + 1000000000 ≤ s.now).foldl (fun u f => u.abandon f (stVendor 0x85 true)) s

def execFrameSegmentTimeout (s : State) : Host.Outcome State Fault Refusal :=
  .next (if s.mainUp then s.fireDue.frameTimeouts.settleDma else s)

/-- What a waiting frame is refused with: TAKE_CLOSING where its take has come to close at or before its stamp. -/
def State.replyStatus (s : State) (r : Reply) : Status := match s.slotClip r.slot with
  | some (t, _, _) => if t.state = 3 ∧ t.startTime ≠ 0 ∧ t.closeTime ≤ r.stamp then stVendor 0x8A true else stVendor 0x84 false
  | none => s.noTake r.slot

/-- TAKE_NOT_RECORDING_REPLY (R251): frames whose stamp is 1 µs past are refused, with 0x84. -/
def State.notRecording (s : State) : State :=
  let due := s.takes.replies.filter fun r => r.stamp + 1000 ≤ s.steepleTime
  let s1 := s.modTakes fun t => { t with replies := t.replies.filter fun r => !due.contains r }
  due.foldl (fun u r =>
    let st := s.replyStatus r
    let v := match r.pull with
      | some (d, idx, q) => u.descOutcome d idx q st r.stamp
      | none => r.cmds.foldl (fun w c => w.fail c st) u
    v.countRefused r.slot) s1

def execTakeNotRecordingReply (s : State) : Host.Outcome State Fault Refusal :=
  .next (if s.mainUp then s.fireDue.notRecording.settleDma else s)

/-! ### Take Open (R242 to R245) -/

/-- A stream descriptor (Table 7.3). -/
def readStream (b : List Byte) (off : Nat) : StreamDesc :=
  ⟨byteAt b off, byteAt b (off + 1), byteAt b (off + 2), byteAt b (off + 3), leAt b (off + 4) 4, leAt b (off + 8) 8, leAt b (off + 16) 8,
   leAt b (off + 24) 8, leAt b (off + 32) 4, leAt b (off + 36) 2, leAt b (off + 38) 2, leAt b (off + 40) 4, leAt b (off + 44) 2,
   leAt b (off + 46) 2, slice b (off + 48) 16⟩

def isPow2 (n : Nat) : Bool := (List.range 32).any fun k => 2 ^ k == n

/-- Table 7.3's addresses of channel j of a pull stream: its descriptor ring, its status ring, its consumed index. -/
def StreamDesc.addrs (d : StreamDesc) (j : Nat) : Nat × Nat × Nat :=
  (d.ringBase + 32 * d.ringEntries * j, d.statusBase + 16 * d.ringEntries * j, d.consAddr + 8 * j)

/-- The ranges of Table 7.3; in push mode only MODE and RATE_MBPS count. -/
def streamOk (d : StreamDesc) (vectors : Nat) : Bool :=
  d.mode ≤ 1 && 1 ≤ d.rate && d.rate ≤ 200000 &&
  (d.mode == 0 || (1 ≤ d.channels && d.channels ≤ 4 && d.channel + d.channels ≤ 64 && d.priority ≤ 7 && d.ringBase % 64 == 0 &&
    d.statusBase % 64 == 0 && d.consAddr % 8 == 0 && isPow2 d.ringEntries && 64 ≤ d.ringEntries && d.ringEntries ≤ 65536 &&
    1 ≤ d.highWm && d.highWm < d.ringEntries && d.lowWm < d.highWm && d.maxWait ≤ 100000 && d.vector < vectors && 1 ≤ d.coalesce && d.coalesce ≤ 1024))

/-- A Take Open as its data give it, with the defaults in force taken. -/
structure OpenReq where
  flags : Nat
  pre : Nat
  frameMax : Nat
  trig : Nat
  rig : Nat
  start : Nat
  hostTime : Bool
  name : List Byte
  user : List Byte
  streams : List StreamDesc
  deriving DecidableEq, Repr

def State.readOpen (s : State) (b : List Byte) : OpenReq :=
  let flags := leAt b 0 4
  let n := leAt b 4 2
  let pre := leAt b 6 2
  let fm := leAt b 8 4
  let tr := byteAt b 12
  let ht := flags / 8 % 4
  ⟨flags, if pre = 0xFFFF then s.force Reg.TAK_DEF_CFG_PRETRIGGER_S else pre, if fm = 0 then s.force Reg.TAK_DEF_FRAME_MAX_BYTES else fm,
   if tr = 0 then s.force Reg.TAK_DEF_CFG_TRIGGER_SRC else tr, leAt b 16 8, leAt b 24 8,
   if ht = 0 then s.force Reg.TAK_DEF_CFG_HOST_TIME == 1 else ht == 2, slice b 32 32, slice b 64 64,
   (List.range (min n 16)).map fun i => readStream b (256 + 64 * i)⟩

/-- Fields outside their ranges and the combinations R242 excludes. TRIGGER_SRC with a bit of 7:3 set is outside its range (DESIGN CHOICE, log
entry 58: Table 7.2 names bits 2:0 and does not call the others reserved). -/
def openFieldsOk (c : Sqe) (r : OpenReq) (vectors : Nat) : Bool :=
  let b := c.data
  let n := leAt b 4 2
  let pre := leAt b 6 2
  let fm := leAt b 8 4
  let immediate := r.flags.testBit 0
  1 ≤ n && n ≤ 16 && c.cdw10.toNat == 64 + 16 * n && (pre ≤ 600 || pre == 0xFFFF) && (fm == 0 || (64 ≤ fm && fm ≤ 1073741824)) &&
  byteAt b 12 ≤ 7 && r.flags / 8 % 4 != 3 && r.streams.all (fun d => streamOk d vectors) &&
  !(immediate && (r.pre != 0 || r.start != 0 || r.flags.testBit 1))

/-- The DMA channels the streams name. -/
def OpenReq.chans (r : OpenReq) : List Nat := r.streams.flatMap fun d => if d.mode = 1 then (List.range d.channels).map fun j => d.channel + j else []

/-- Units a take needs at its open: its rings, and four a stream (R243). -/
def OpenReq.ringTotal (r : OpenReq) : Nat := (r.streams.map fun d => ringUnits d.rate r.pre r.frameMax).sum

/-- What a Take Open is refused with, in the order of R235, R242, R243. A channel that two of its own descriptors name is refused as one that
belongs to an open stream (DESIGN CHOICE, log entry 59: the manual is silent). -/
def State.openRefused (s : State) (c : Sqe) (r : OpenReq) : Option Status :=
  if s.takeNs.isNone then some (stVendor 0x89 true)
  else if s.phase < 0xB then some stNotReady
  else if !openFieldsOk c r (portGet s.image.cfg (c.ctrl.val / 2) 12) then some stInvalidField
  else if s.force Reg.TAK_DEF_CFG_STREAMS_MAX < s.openStreams + r.streams.length then some (stVendor 0x82 true)
  else if r.chans.any (fun d => (s.dma d).isSome) ∨ r.chans.eraseDups.length ≠ r.chans.length then some (stVendor 0x8B true)
  else if 65536 ≤ s.takes.dir.length ∨ s.freeUnits < r.ringTotal + 4 * r.streams.length then some (stVendor 0x83 true)
  else if (r.flags.testBit 2 && s.stpState != stpHead) || (r.flags.testBit 1 && s.role == 3) then some (stVendor 0x88 true)
  else if r.start ≠ 0 ∧ (!s.schedTimeOk r.start ∨ (r.flags.testBit 2 && decide (r.start < s.steepleTime + 2000000))) then some (stVendor 0x88 true)
  else none

/-- The lowest free stream slots. -/
def State.freeSlots (s : State) (n : Nat) : List Nat :=
  let used := s.openTakes.flatMap fun t => t.clips.map fun (c : Clip) => c.slot
  ((List.range 16).filter fun k => !used.contains k).take n

/-- STEEPLE_STATE of a clip header (09). -/
def State.headerSteeple (s : State) : Nat :=
  let st := s.stpState
  if st ≤ 1 then 0 else if st = stpHead then 1 else if st = stpLocked then 2 else 3

/-- A clip at its open: its header unit, its ring. -/
def newClip (d : StreamDesc) (slot header : Nat) (ring : List Nat) : Clip :=
  { desc := d, slot := slot, units := [header], ring := ring, ringRecs := [], ringPos := 0, recs := [], events := [], segs := [], pos := 1,
    nextSeq := 0, firstSeq := 0, acked := 0, lastStamp := 0, abandoned := 0, refused := 0, payload := 0, discard := 0,
    chainRecs := false, markRecs := false, limit := false, segtab := 0, ended := 0 }

/-- The clips of a take: each takes its header unit and its ring from the units chosen. -/
def newClips (pre frameMax : Nat) : List StreamDesc → List Nat → List Nat → List Clip
  | d :: ds, slot :: slots, u :: us =>
    let k := ringUnits d.rate pre frameMax
    newClip d slot u (us.take k) :: newClips pre frameMax ds slots (us.drop k)
  | _, _, _ => []

/-- The lowest directory slot not held (08 R319). -/
def State.freeDirSlot (s : State) : Nat :=
  ((List.range (s.takes.dir.length + 1)).find? fun k => !s.takes.dir.any fun t => t.dirSlot == k).getD 0

/-- The channels of a stream are set up; indices begin at 0 (log entry 18). -/
def State.openChannels (s : State) (num : Nat) (c : Sqe) (slot : Nat) (d : StreamDesc) : State :=
  if d.mode = 0 then s
  else (List.range d.channels).foldl (fun u j =>
    let k := d.channel + j
    let a := d.addrs j
    let x : Dma := ⟨num, slot, d.vector, d.coalesce, a.1, a.2.1, a.2.2, d.ringEntries, d.highWm, d.lowWm, d.maxWait, [], none, 0, 0, [], [], [], none, 0, 0⟩
    let u1 := ((u.setDma k (some x)).setReg (Reg.TAK_DMA_STAT k) 0).setReg (Reg.TAK_DMA_PI k) 0
    (((u1.setReg (Reg.TAK_DMA_CI k) 0).wr (Reg.TAK_DMA_STAT_CTRL k) c.ctrl.val).wr (Reg.TAK_DMA_STAT_PRIORITY k) d.priority).setDmaState k 1) s

/-- Opens a take: slots, units, directory entry, headers; started at once, at START_TIME, or by a trigger. -/
def State.doOpen (s : State) (c : Sqe) (r : OpenReq) : State :=
  let num := s.takes.nextTake
  let slots := s.freeSlots r.streams.length
  match s.pickUnits (r.ringTotal + r.streams.length) with
  | none => s.fail c (stVendor 0x83 true)
  | some us =>
    let now := s.steepleTime
    let clips := newClips r.pre r.frameMax r.streams slots us
    let t : Take := {
      num := num, dirSlot := s.freeDirSlot, state := 1, reason := 0, ring := r.pre != 0, joinChain := r.flags.testBit 1, joined := false,
      pinStop := r.flags.testBit 5, pinEdges := 0, hostTime := r.hostTime, pretrigger := r.pre, frameMax := r.frameMax, trigSrc := r.trig,
      rigTake := r.rig, openTime := now, startTime := 0, closeTime := 0, rigId := (s.inForce Reg.STP_RIG_ID).toNat,
      steepleState := s.headerSteeple, fwVersion := (s.reg Reg.GBL_FW_VERSION).toNat, cfgDigest := s.measReg 5, name := r.name, user := r.user,
      note := [], clips := clips, sched := if r.start = 0 then [] else [⟨r.start, 0, 1, false, []⟩], chainBreak := false, ctrl := c.ctrl.val,
      openCmd := some c, closeCmds := [], sealing := 0, mark := none, stopBy := 0, dirAt := 0 }
    let s0 := (s.modTakes fun x => { x with dir := x.dir ++ [t], nextTake := num + 1 }).dirChange
    let s1 := s0.modTake num fun x => { x with dirAt := s0.ftl.takeDir }
    let s2 := (clips.foldl (fun u k => u.openChannels num c k.slot k.desc) s1).writeHeaders num 1
    let s3 := s2.raiseAll (clips.map fun k => 1616 + k.slot)
    let s4 := if r.flags.testBit 2 then s3.originate 5 (s3.takeCast r.start r.rig) r.start else s3
    let s5 := if r.flags.testBit 0 then s4.startTake num now else s4
    s5.fullCheck now

/-- TAKE_OPEN. -/
def State.takeOpen (s : State) (c : Sqe) : State :=
  let r := s.readOpen c.data
  match s.openRefused c r with
  | some st => s.fail c st
  | none => (s.noAbort c).doOpen c r

def execTakeOpen (c : Sqe) (s : State) : Host.Outcome State Fault Refusal :=
  .next (s.fireDue.admin c .vendor fun t => (t.takeOpen c).settleDma)

/-! ### Take Close (R281 to R285) -/

/-- The take a Take Close names, while it is open. -/
def State.openTakeOf (s : State) (num : Nat) : Option Take := match s.takeOf num with | some t => if t.isOpen then some t else none | none => none

/-- Data length and broadcast: CDW10 is 16, and only a head broadcasts. -/
def State.closeRefused (s : State) (c : Sqe) : Option Status :=
  if c.cdw10.toNat ≠ 16 then some stInvalidField
  else if (byteAt c.data 5).testBit 0 && s.stpState != stpHead then some (stVendor 0x88 true)
  else none

/-- The chain take-close broadcast (09 R342): at the close point, or 2 ms after the fetch where that is later. -/
def State.closeBroadcast (s : State) (c : Sqe) (t : Take) (point : Nat) : State :=
  if (byteAt c.data 5).testBit 0 then
    let at1 := max point (s.steepleTime + 2000000)
    s.originate 6 (s.takeCast at1 t.rigTake) at1
  else s

/-- TAKE_CLOSE_NOW: completes when the take is CLOSED. -/
def State.closeNow (s : State) (c : Sqe) : State :=
  match s.closeRefused c, s.openTakeOf (leAt c.data 0 4) with
  | some st, _ => s.fail c st
  | none, none => s.fail c (stVendor 0x80 true)
  | none, some t =>
    let live := t.state = 1 ∨ t.state = 2
    let s1 := (s.noAbort c).modTake t.num fun x => { x with closeCmds := x.closeCmds ++ [c], note := if live then slice c.data 16 32 else x.note }
    (s1.closeBroadcast c t s.steepleTime).closeTake t.num s.steepleTime 1

def execTakeCloseNow (c : Sqe) (s : State) : Host.Outcome State Fault Refusal :=
  .next (s.fireDue.admin c .vendor fun t => (t.closeNow c).settleDma)

/-- TAKE_CLOSE_AT_TIME: completes when scheduled. -/
def State.closeAt (s : State) (c : Sqe) : State :=
  let time := leAt c.data 8 8
  match s.closeRefused c, s.openTakeOf (leAt c.data 0 4) with
  | some st, _ => s.fail c st
  | none, none => s.fail c (stVendor 0x80 true)
  | none, some t =>
    if !s.schedTimeOk time then s.fail c (stVendor 0x88 true)
    else
      let s1 := s.modTake t.num fun x => { x with sched := x.sched ++ [⟨time, 3, 1, false, slice c.data 16 32⟩] }
      (s1.closeBroadcast c t time).succeed c

def execTakeCloseAtTime (c : Sqe) (s : State) : Host.Outcome State Fault Refusal :=
  .next (s.fireDue.admin c .vendor fun t => (t.closeAt c).settleDma)

/-- TAKE_DELETE: every unit of a CLOSED take is deallocated, after the commands before it that touch them; then the take leaves the directory (R284). -/
def State.takeDelete (s : State) (c : Sqe) : State :=
  match s.closeRefused c, s.takeOf (leAt c.data 0 4) with
  | some st, _ => s.fail c st
  | none, none => s.fail c (stVendor 0x80 true)
  | none, some t =>
    if t.isOpen then s.fail c stSequence
    else (s.noAbort c).queueTrim 4 c s.takeNsid (t.clips.flatMap fun (k : Clip) => k.units.map fun u => (s.geom.lba u, 512))

def execTakeDelete (c : Sqe) (s : State) : Host.Outcome State Fault Refusal :=
  .next (s.fireDue.admin c .vendor fun t => (t.takeDelete c).settleDma)

/-! ### Trigger (R271, R272) -/

/-- The takes a Trigger command is for. -/
def State.trigTakes (s : State) (c : Sqe) : List Take :=
  let n := c.cdw11.toNat
  s.openTakes.filter fun t => (n == 0xFFFFFFFF || t.num == n) && t.accepts 1

/-- A broadcast trigger of a RIG_TAKE_ID is for a take: that of its own identity, or every one where it is 0 (09 R341). -/
def castTo (rig : Nat) (k : Take) : Bool := k.accepts 0 && (rig == 0 || k.rigTake == rig)

/-- What a Trigger is refused with: it changes nothing. The limit of R272 counts for every take the trigger would be scheduled on. -/
def State.trigRefused (s : State) (c : Sqe) : Option Status :=
  let t := c.cdw13.toNat + 2 ^ 32 * c.cdw14.toNat
  let timed := c.cdw12.getLsbD 2
  let cast := c.cdw12.getLsbD 3
  let rej := some (stVendor 0x88 true)
  let rig := match s.openTakeOf c.cdw11.toNat with | some k => k.rigTake | none => 0
  let given (k : Take) : Bool := if cast then castTo rig k else (c.cdw11.toNat == 0xFFFFFFFF || k.num == c.cdw11.toNat) && k.accepts 1
  if cast && !timed then some stInvalidField
  else if c.cdw11.toNat ≠ 0xFFFFFFFF ∧ (s.openTakeOf c.cdw11.toNat).isNone then rej
  else if cast && s.stpState != stpHead then rej
  else if timed && !s.schedTimeOk t then rej
  else if cast && t < s.steepleTime + 2000000 then rej
  else if timed && s.openTakes.any fun k => given k && 4 ≤ k.pendingTriggers then rej
  else none

/-- A Trigger with an action: broadcast and applied as a Steeple trigger, scheduled, or applied at its fetch time. -/
def State.trigger (s : State) (c : Sqe) (action : Nat) : State :=
  match s.trigRefused c with
  | some st => s.fail c st
  | none =>
    let t := c.cdw13.toNat + 2 ^ 32 * c.cdw14.toNat
    if c.cdw12.getLsbD 3 then
      let rig := match s.openTakeOf c.cdw11.toNat with | some k => k.rigTake | none => 0
      let p (k : Take) := castTo rig k
      let n := (s.openTakes.filter p).length
      ((s.originate 4 (s.triggerCast action t rig) t).steepleTrigger p action t false).complete c stOk n 0 []
    else
      let ks := s.trigTakes c
      if c.cdw12.getLsbD 2 then
        (ks.foldl (fun u k => u.modTake k.num fun x => { x with sched := x.sched ++ [⟨t, action, 1, false, []⟩] }) s).complete c stOk ks.length 0 []
      else
        let now := s.steepleTime
        let hit := ks.filter fun k => k.takesAction action now
        (ks.foldl (fun u k => u.applyTrigger k.num action 1 now 2 false) s).complete c stOk hit.length 0 []

def State.triggerCmd (s : State) (c : Sqe) (action : Nat) : State :=
  s.fireDue.admin c .vendor fun t => ((t.noAbort c).trigger c action).settleDma

def execTriggerStart (c : Sqe) (s : State) : Host.Outcome State Fault Refusal := .next (s.triggerCmd c 0)
def execTriggerStop (c : Sqe) (s : State) : Host.Outcome State Fault Refusal := .next (s.triggerCmd c 1)
def execTriggerMark (c : Sqe) (s : State) : Host.Outcome State Fault Refusal := .next (s.triggerCmd c 2)

/-! ### Time and pins -/

/-- SCHEDULED_TRIGGER_FIRE: triggers whose T the timebase has reached. -/
def execScheduledTriggerFire (s : State) : Host.Outcome State Fault Refusal :=
  .next (if s.mainUp then (((s.dueList false).foldl (fun u p => u.fireOne p.1 p.2) s).settleDma) else s)

/-- CLOSE_POINT_REACHED: with everything due before it, a scheduled close moves its take to CLOSING. -/
def execClosePointReached (s : State) : Host.Outcome State Fault Refusal :=
  .next (if s.mainUp then s.fireDue.settleDma else s)

/-- TRIG_IN_EDGE (R270): an edge `age` ns ago whose new level has held for `held` ns. -/
def State.trigInEdge (s : State) (rising : Bool) (held age : Nat) : State :=
  let active := (s.cfg 0x01 0 7).testBit 0
  let early := match s.board.trigInLast with | some t => decide (s.now < t + 1000000 + age) | none => false
  if rising != active || held < 20 || early then s
  else
    let t := (s.steepleTime - age) / 4 * 4
    let s1 := ({ s with board := { s.board with trigInLast := some (s.now - age) } } : State).wake 7
    if !s1.mainUp then s1
    else
      (s1.fireDue.openTakes.filter fun k => k.openTime ≤ t).foldl (fun u k =>
        let v := u.modTake k.num fun x => { x with pinEdges := x.pinEdges + 1 }
        if !k.accepts 2 then v
        else if k.pinEdges = 0 then v.applyTrigger k.num 0 2 t 2 false
        else if k.pinEdges = 1 ∧ k.pinStop then v.applyTrigger k.num 1 2 t 2 false
        else v) s1.fireDue

def execTrigInEdge (rising : Bool) (held : Nat) (age : Fin 201) (s : State) : Host.Outcome State Fault Refusal :=
  .next (let t := s.trigInEdge rising held age.val; if t.mainUp then t.settleDma else t)

/-- TRIG_OUT_PULSE_END. -/
def execTrigOutPulseEnd (s : State) : Host.Outcome State Fault Refusal :=
  .next { s with board := { s.board with pulses := s.board.pulses.filter fun p => s.now < p.2 } }

end Sys2Proof.Machine
end

