-- ==== Sys2Proof/Machine/Translate.lean ====
section
/-!
DEFINITION. Machine/Translate.lean: checkpoints and the erase of freed bands (11 R396 to R403), journal pages becoming durable,
relocation in all its uses (11 R384, R400 to R403, R413; 12 R443, R455), slow links (12 R446 to R450), and the audit (12 R451 to
R456).
-/
namespace Sys2Proof.Machine

/-! ### Bands that are empty -/

/-- The band is closed and nothing needs it any more: no map entry, none that the journal has yet to move, no atomic unit. -/
def State.bandEmpty (s : State) (b : Band) : Bool :=
  b.state == 1 && !s.metaHolds b && s.ftl.stripes.all fun st => st.band != b.id ||
    (2 ≤ st.state && (st.state == 2 || s.durable st.id) && st.data.all fun e => match e.2 with
      | some p => p.sec.nsid == 0 || (ssaAt s.ftl.map p.sec.nsid p.sec.lsa != some (ssaOf st.id e.1) &&
          ssaAt s.ftl.jmap p.sec.nsid p.sec.lsa != some (ssaOf st.id e.1) &&
          !s.ftl.units.any fun u => u.ssas.contains (ssaOf st.id e.1))
      | none => true)

/-- The generation of the next checkpoint. -/
def State.nextGen (s : State) : Nat := maxOf (s.ftl.cps.map fun c => c.gen) + 1

/-- Bands that hold no mapped sector are freed by BAND_FREE entries naming the next generation (R403); their blocks await
erase. -/
def State.freeBandsNow (s : State) : State :=
  (s.ftl.bands.filter s.bandEmpty).foldl (fun t b =>
    let t1 := (t.jput ⟨0x12, 0, 0, 0, b.id, t.nextGen, 0⟩).modBand b.id fun x => { x with state := 2, freedGen := t.nextGen, erased := [] }
    b.members.foldl (fun u m => if (u.blk m).state = 1 then u.setBlk m { u.blk m with state := 2 } else u) t1) s

/-! ### Checkpoints -/

def State.cpRunning (s : State) : Bool := s.ftl.cps.any fun c => !c.durable

/-- Stripes with a change that the journal does not hold yet. -/
def State.lateStripes (s : State) : List Nat :=
  (((s.ftl.stripes.filter fun st => st.state != 2).map fun st => st.id) ++ (s.ftl.units.flatMap fun u => u.ssas.map ssaStripe) ++
    ((s.ftl.page.filter fun e => e.ty == 1 || e.ty == 2).map fun e => ssaStripe e.aux)).eraseDups

/-- The number a unit's fine table has in the checkpoints; tables new since take the lowest free numbers (DESIGN CHOICE, log entry 61). -/
def State.fineNumbers (s : State) (m : SMap MapEnt) : SMap Nat :=
  let keys := m.filterMap fun e => match e.2 with | .fine _ => some e.1 | _ => none
  let kept := s.ftl.fineNum.filter fun e => keys.contains e.1
  (keys.filter fun k => !kept.any fun e => e.1 == k).foldl (fun (l : SMap Nat) k =>
    match (List.range (l.length + 1)).find? fun i => !l.any fun e => e.2 == i + 1 with
    | some i => mapSet (fun _ => 0) l k (i + 1)
    | none => l) kept

/-- Part 0: the sectors of the coarse map that hold an entry. -/
def State.coarsePages (s : State) (m : SMap MapEnt) : List (MetaOf × List Byte) :=
  let words : SMap Nat := m.foldl (fun l e => match s.ns (e.1 / 2 ^ 40) with
    | some n => mapSet (fun _ => 0) l (n.base + e.1 % 2 ^ 40) (mapWord (mapGet (fun _ => 0) s.ftl.fineNum e.1 - 1) e.2)
    | none => l) []
  ((words.map fun e => e.1 / 512).eraseDups).map fun i => (.mapSec 0 i, (List.range 512).flatMap fun k => leBytes 8 (mapGet (fun _ => 0) words (512 * i + k)))

/-- Part 1: the fine tables (11 R382), each in a sector. -/
def State.finePages (s : State) (m : SMap MapEnt) : List (MetaOf × List Byte) :=
  m.filterMap fun e => match e.2 with
    | .fine t => some (.mapSec 1 (mapGet (fun _ => 0) s.ftl.fineNum e.1 - 1),
        padTo 4096 ((padTo 128 (Config.fineHeader (e.1 / 2 ^ 40) (e.1 % 2 ^ 40) t.length)).take 128 ++ (List.range 512).flatMap fun i => leBytes 6 (fineAt t i)))
    | _ => none

/-- The 24 bytes of a stripe in the stripe table (11 Table 11.2). -/
def State.stripeEntry (s : State) (st : Stripe) : List Byte :=
  (padTo 24 (Config.stripeEntry st.band st.firstRow st.rows st.state (s.mappedOffs st).length (minOf (st.data.filterMap fun e => e.2.map fun p => p.sec.seq))
    (maxOf (st.data.filterMap fun e => e.2.map fun p => p.sec.seq)))).take 24

/-- Part 2: the stripe table, a stripe at its identifier modulo the table's size. -/
def State.stripePages (s : State) : List (MetaOf × List Byte) :=
  let at1 (k : Nat) : List Byte := match s.ftl.stripes.find? fun st => st.id % 33554432 == k with | some st => s.stripeEntry st | none => List.replicate 24 0
  ((s.ftl.stripes.flatMap fun st => let k := st.id % 33554432; [24 * k / 4096, (24 * k + 23) / 4096]).eraseDups).map fun i =>
    let a := 4096 * i / 24
    (.mapSec 2 i, slice ((List.range 172).flatMap fun j => at1 (a + j)) (4096 * i - 24 * a) 4096)

/-- Part 3: the band table. -/
def State.bandPages (s : State) : List (MetaOf × List Byte) :=
  let at1 (k : Nat) : List Byte := match s.ftl.bands.find? fun b => b.id % 2097152 == k with
    | some b => (padTo 256 (Config.bandEntry b.members b.state (b.members.map fun m => (s.blk m).erases) b.openedAt)).take 256
    | none => List.replicate 256 0
  ((s.ftl.bands.map fun b => b.id % 2097152 / 16).eraseDups).map fun i => (.mapSec 3 i, (List.range 16).flatMap fun k => at1 (16 * i + k))

/-- Every sector of the map and the tables that holds something, and those that did and hold nothing now. -/
def State.mapPages (s : State) (m : SMap MapEnt) : List (MetaOf × List Byte) :=
  let l := s.coarsePages m ++ s.finePages m ++ s.stripePages ++ s.bandPages
  let old := (s.ftl.metas.filterMap fun x => match x.of with | .mapSec p i => some (MetaOf.mapSec p i) | _ => none).eraseDups
  l ++ (old.filter fun o => !l.any fun x => x.1 == o).map fun o => (o, List.replicate 4096 0)

/-- Writes what changed since the generation before, with the pages that name it (R396). -/
def State.putMap (s : State) (g : Nat) (m : SMap MapEnt) : State :=
  let s1 := s.modFtl fun f => { f with fineNum := s.fineNumbers m }
  let l := (s1.mapPages m).filter fun x => !(s1.newestMeta x.1).any fun y => y.payload == x.2
  (l.foldl (fun (t : State) x => t.putPage g x) s1).putDirs g (l.filterMap fun x => match x.1 with | .mapSec p i => some (s1.cpSlot p i) | _ => none)

/-- The stored namespace table, two sectors. -/
def State.putNsTable (s : State) : State :=
  let ns := (sortByKey (fun (n : Ns) => n.nsid) s.nvme.nss).flatMap fun n => Config.nsEntry n.nsid n.units n.base (n.lbaFormat + 8 * n.piType + 64 * bit n.take + 256 * n.keySlot)
  (s.putMeta (.nsTable 0) 0 (padTo 4096 (ns.take 4096))).putMeta (.nsTable 1) 0 (padTo 4096 (slice ns 4096 4096))

/-- A checkpoint starts (R396, R397): it records the map as the journal has recorded it. While one runs the next waits for it, and source 1,712 is
raised. -/
def State.startCheckpoint (s : State) : State :=
  if s.cpRunning then (if s.ftl.cpWanted then s else (s.modFtl fun f => { f with cpWanted := true }).raise 1712)
  else
    let s1 := s.freeBandsNow
    let c : Checkpoint := {
      gen := s1.nextGen, cpSeq := s1.ftl.seqNext, seqCeil := s1.ftl.seqCeil, jseqStart := s1.ftl.jseq + 1, map := s1.ftl.jmap,
      nss := s1.nvme.nss, durable := false, usable := true, startedAt := s1.now, durableAt := 0, time := s1.steepleTime, digest := s1.measReg 5,
      late := s1.lateStripes }
    ((((s1.modFtl fun f => { f with cps := f.cps ++ [c], cpStart := s1.now, cpWanted := false }).putMap c.gen c.map).putNsTable).settleStripes)

/-- A checkpoint that something asked for starts when none runs. -/
def State.cpGo (s : State) : State := if s.ftl.cpWanted && !s.cpRunning && s.mainUp then s.startCheckpoint else s

/-- The root of the running checkpoint is confirmed in three copies: the generation is durable, and the one before it stays as the
fallback of R404; journal pages before both, and metadata it no longer refers to, are dropped. -/
def State.cpDurable (s : State) : State :=
  match s.ftl.cps.find? fun c => !c.durable && s.rootConfirmed c.gen with
  | none => s
  | some c =>
    let s1 := s.modFtl fun f => { f with cps := ((f.cps.filter fun x => x.durable).drop ((f.cps.filter fun x => x.durable).length - 1)) ++ [{ c with durable := true, durableAt := s.now }] }
    let keep := minOf (s1.ftl.cps.map fun x => x.jseqStart)
    let s2 := (s1.modFtl fun f => { f with pages := f.pages.filter fun j => keep ≤ j.jseq }).pruneMetas
    let s3 := s2.wr Reg.FTL_CP_GEN_GEN c.gen
    if s3.ftl.shreds.isEmpty then s3.cpGo else s3.startCheckpoint

/-- A freed band may be erased: the generation after the one that freed it is durable (R403). -/
def State.mayErase (s : State) (b : Band) : Bool :=
  b.state == 2 && (match s.newestCp with | some c => b.freedGen < c.gen | none => false)

/-- The bands whose members are all erased leave the tables, with their stripes. -/
def State.dropErased (s : State) (b : Band) : State :=
  s.modFtl fun f => { f with bands := f.bands.filter fun x => x.id != b.id, stripes := f.stripes.filter fun st => st.band != b.id }

/-- Shreds whose bands have all been erased complete (06 R209, R210). -/
def State.shredSettle (s : State) : State :=
  s.ftl.shreds.foldl (fun t (o : ShredOp) =>
    if o.bands.all fun i => (t.band i).isNone then
      (t.modFtl fun f => { f with shreds := f.shreds.filter fun x => x != o }).complete o.cmd (if o.residue then stVendor 0xA3 true else stOk) 0 0 []
    else t) s

/-- An erase of a member of a freed band ends: the block is free, or, failing, retired; a Shred that waits for it notes the
residue (R210). -/
def State.eraseEnd (s : State) (band member : Nat) (ok : Bool) : State :=
  match s.band band with
  | none => s
  | some b => match b.members[member]? with
    | none => s
    | some m =>
      if !s.mayErase b || b.erased.contains member then s
      else
        let x := s.blk m
        let s1 := if ok then (s.setBlk m ⟨x.erases + 1, 0, []⟩).tally 0x58 1 else (s.retireBlock m).tally 0x70 1
        let shredded := s1.ftl.shreds.any fun o => o.bands.contains band
        let s2 := if ok || !shredded then s1
          else (s1.modFtl fun f => { f with shreds := f.shreds.map fun (o : ShredOp) => if o.bands.contains band then { o with residue := true } else o }).record 0x06 2 [m.1, m.2.1, m.2.2]
        let s3 := s2.modBand band fun y => { y with erased := y.erased ++ [member] }
        if (List.range b.width).all fun i => i == member || b.erased.contains i then (s3.dropErased b).shredSettle else s3

/-- A Shred whose bands hold nothing mapped any more has them freed and starts a checkpoint (11 R412). -/
def State.shredGo (s : State) : State :=
  if s.ftl.shreds.isEmpty then s
  else
    let s1 := s.freeBandsNow
    if s1.cpRunning || !(s1.ftl.shreds.any fun o => o.bands.any fun i => match s1.band i with | some b => b.state == 2 && !s1.mayErase b | none => false) then s1
    else s1.startCheckpoint


/-! ### Relocation (R400, R401, R455) -/

/-- The block a sector belongs to, located whole: its bytes. -/
def State.blockBytesOf (s : State) (n : Ns) (lsa : Nat) : Option (List Byte) :=
  let l := (List.range n.spb).map fun k => (s.locate n.nsid (lsa / n.spb * n.spb + k)).bind s.placed
  if l.all fun x => x.isSome then some (l.flatMap fun x => match x with | some p => p.sec.payload | none => []) else none

/-- The guard of a sector agrees with its block (R455); a block not located whole is not compared. -/
def State.guardOk (s : State) (p : Placed) : Bool :=
  match s.ns p.sec.nsid with
  | none => true
  | some n =>
    if n.piBytes = 0 ∨ n.piType = 0 then true
    else match s.blockBytesOf n p.sec.lsa with
      | some b => (n.readPi p.sec.pi).guard == n.guardOf b
      | none => true

/-- A mapped sector that cannot be rebuilt is mapped as unreadable (R455). -/
def State.mapUnreadable (s : State) (nsid lsa : Nat) : State :=
  s.modFtl fun f => { f with map := trimRun s.hole f.map nsid lsa 1, unreadable := f.unreadable ++ [(nsid, lsa)] }

/-- One mapped sector is relocated: read, decrypted and verified, its guard compared, encrypted again under a new SEQ, assembled
into a relocation stripe. It waits while its slot may not encrypt, no SEQ may be assigned, or no stripe has room. -/
def State.relocate (s : State) (lane : Nat) (pick : Nat) (v : Verdict) (ssa : Nat) : State :=
  match s.placed ssa with
  | none => s
  | some p =>
    if ssaAt s.ftl.map p.sec.nsid p.sec.lsa ≠ some ssa then s
    else
      let v2 : Verdict := if s.guardOk p then v else ⟨[(0, 0)], [0], []⟩
      let (s1, code) := s.readAt v2 0 ssa p
      if code ≠ 0 then s1.mapUnreadable p.sec.nsid p.sec.lsa
      else match s1.ns p.sec.nsid with
        | none => s1
        | some n =>
          if !s1.laneOk lane || !s1.encryptReady n.keySlot true then s1
          else match s1.takeSeq with
            | none => s1.raiseCeil
            | some (q, s2) =>
              let k := s2.keySlot n.keySlot
              let np : Placed := ⟨{ p.sec with seq := q, slot := n.keySlot, gen := k.gen }, 0, p.version, false, some ssa, false, false⟩
              match s2.assemble 1 pick false np with
              | none => s1
              | some (s3, _) =>
                let s4 := (s3.countEncrypt n.keySlot true).laneUse lane n.keySlot
                (((s4.readCharge 4096).moved 0 0 4096).raiseCeil.settle).freeBandsNow.shredGo

/-! ### Folding (R384) -/

/-- Fine units, least recently written first: (key, newest SEQ). -/
def State.foldUnit (s : State) : Option (Nat × Nat) :=
  let l := s.ftl.map.filterMap fun e => match e.2 with
    | .fine t => some (e.1, maxOf (t.filterMap fun x => (s.placed x.2).map fun p => p.version))
    | _ => none
  ((sortByKey (fun (x : Nat × Nat) => x.2) l).head?).map fun x => (x.1 / 2 ^ 40, x.1 % 2 ^ 40)

/-- Folding starts below 1/16 of the pool and goes on until more than 1/8 is free. -/
def State.foldDecide (s : State) : State :=
  if s.fineFree * 16 < s.fineTotal then s.wr Reg.FTL_STATUS_FOLDING 1
  else if s.fineTotal < s.fineFree * 8 then s.wr Reg.FTL_STATUS_FOLDING 0 else s

/-- One position of a fold: its sector read, verified and encrypted again, or a sector of NSID 0 where it is deallocated. -/
def State.foldAt (s : State) (lane : Nat) (v : Verdict) (n : Ns) (unit stripe off i : Nat) : Option State :=
  match s.takeSeq with
  | none => none
  | some (q, s1) => match s1.locate n.nsid (unit * 512 + i) with
    | none => some (s1.putAt stripe off (fillSector q))
    | some a => match s1.placed a with
      | none => none
      | some p =>
        let (s2, code) := s1.readAt v i a p
        if code ≠ 0 || !s2.encryptReady n.keySlot true then none
        else
          let np : Placed := ⟨{ p.sec with seq := q, slot := n.keySlot, gen := (s2.keySlot n.keySlot).gen }, 0, p.version, false, some a, false, false⟩
          some (((s2.putAt stripe off np).countEncrypt n.keySlot true).laneUse lane n.keySlot)

/-- A fold relocates a fine unit's 512 sectors into one coarse slot. -/
def State.fold (s : State) (lane pick : Nat) (v : Verdict) (nsid unit : Nat) : State :=
  match s.ns nsid with
  | none => s
  | some n => match s.bandWithRoom 1 pick 512 with
    | none => s
    | some (s1, b) => match s1.beginStripe b with
      | none => s
      | some (s2, st) =>
        let off := st.next
        let s3 := s2.modStripe st.id fun x => { x with next := x.next + 512 }
        let r := (List.range 512).foldl (fun (o : Option State) i => match o with
          | some t => t.foldAt lane v n unit st.id (off + i) i
          | none => none) (some s3)
        match r with
        | some t => ((((t.readCharge (512 * 4096)).moved 0 0 (512 * 4096)).closeIfFull st.id).raiseCeil.settle).freeBandsNow
        | none => s

/-! ### What is relocated next -/

/-- A band is due for retention refresh (R413): closed, older than MAINTENANCE.RETENTION_DAYS. -/
def State.aged (s : State) (b : Band) : Bool :=
  b.state == 1 && b.kind ≤ 1 && b.openedAt + s.force Reg.BEL_MAINT_CFG1_RETENTION_DAYS * 86400000000000 < s.now && (s.firstMovable b).isSome

/-- A band whose RETENTION activity runs (22 R737), not held up by a take. -/
def State.agedBand (s : State) : Option Band :=
  if s.takesHold then none else s.ftl.bands.find? fun b => s.actRuns 7 b.id && (s.firstMovable b).isSome

/-- The next sector of a kind of work: 0 garbage collection, 1 folding (handled by the unit), 2 rebuild, 3 Shred, 4 what the audit
or retry steps asked for, then retention refresh. -/
def State.nextMove (s : State) (work : Nat) : Option Nat :=
  if work = 0 then (if s.ftl.gcRunning then (match s.victim with | some b => s.firstMovable b | none => none) else none)
  else if work = 2 then
    (if s.rebuilding then (s.rebuildWork.find? fun w => match s.stripe w.1 with | some st => (s.movable st).contains w.2 && !s.actHeld 2 st.band | none => false).map fun w => ssaOf w.1 w.2 else none)
  else if work = 3 then s.ftl.shreds.findSome? fun o => o.bands.findSome? fun i => match s.band i with | some b => s.firstMovable b | none => none
  else if work = 4 then
    (match s.ftl.rebuildStripes.findSome? fun i => match s.stripe i with | some st => ((s.movable st).head?).map fun o => ssaOf st.id o | none => none with
    | some a => some a
    | none => match s.agedBand with | some b => s.firstMovable b | none => none)
  else none

/-- What a rebuild's move wrote counts against its rate (12 R445). -/
def State.rebuildMoved (s old : State) : State := if s.ftl.seqNext = old.ftl.seqNext then s else s.rebuildWrote 4096

/-- GARBAGE_COLLECTION_RELOCATE: the next sector of a kind of work moves (a whole unit where it folds). -/
def State.relocateNext (s : State) (work lane pick : Nat) (v : Verdict) : State :=
  let s1 := s.gcDecide.foldDecide
  if work = 1 then
    (if s1.rd Reg.FTL_STATUS_FOLDING = 1 then (match s1.foldUnit with | some u => (s1.fold lane pick v u.1 u.2).foldDecide | none => s1) else s1)
  else match s1.nextMove work with
    | some a =>
      if work = 2 then (if s1.rebuildOk 4096 then (s1.relocate lane pick v a).rebuildMoved s1 else s1) else s1.relocate lane pick v a
    | none => s1.freeBandsNow.shredGo.rebuildSettle

/-! ### Slow links (12 R446 to R450) -/

/-- The average of a link, in 2^-16 µs. -/
def State.linkAvg (s : State) (n : Nat) : Nat := mapGet (fun _ => 0) s.ftl.linkAvg n

/-- The median of a sorted list; of an even count, the mean of the middle two. -/
def medianOf (l : List Nat) : Nat :=
  let x := sortByKey id l
  if l.length % 2 = 1 then x.getD (l.length / 2) 0 else (x.getD (l.length / 2 - 1) 0 + x.getD (l.length / 2) 0) / 2

/-- Links whose averages enter a personality's median (R447). -/
def State.medianLinks (s : State) (ty : Nat) : List Nat :=
  (s.linksOf ty).filter fun n => (s.linkState n == 1 || s.linkState n == 2) && 16 ≤ mapGet (fun _ => 0) s.ftl.linkCount n

def State.persOfLink (s : State) (n : Nat) : Nat := match groupOf s.image.cfg n with | some g => 0x10 + g.get 1 | none => 0

/-- The median that counts for a link: none while fewer than 8 links contribute. -/
def State.medianFor (s : State) (n : Nat) : Option Nat :=
  if (s.medianLinks (s.persOfLink n)).length < 8 then none else some (mapGet (fun _ => 0) s.ftl.medians (s.persOfLink n))

/-- The personality could form a band without the link (R448). -/
def State.bandWithout (s : State) (n : Nat) : Bool :=
  (chooseMembers s.width s.parity (s.bandLinks (s.persOfLink n) [n])).isSome

/-- A link is classed SLOW (R447). -/
def State.slowNow (s : State) (n : Nat) : State :=
  let s1 := ((s.wr (Reg.STR_LINK_COUNT n) 0).wr (Reg.STR_LINK_SLOW_HOLD n) 0).setLink n 2
  let s2 := (s1.modHealth fun h => { h with slowEntries := bumpAt h.slowEntries n 1 }).stripeEvent 5 0xFF n 0xFFFFFFFF 0 0xFFFFFFFFFFFFFFFF
  s2.closeBandsOf n

/-- A flush is in charge: classification is frozen (R446). -/
def State.flushing (s : State) : Bool := s.ftl.flush.kind != 0

/-- The latency of a confirmed program enters its link's average and, in service, its count. -/
def State.noteLatency (s : State) (n us : Nat) : State :=
  if s.flushing then s
  else
    let c := mapGet (fun _ => 0) s.ftl.linkCount n
    let avg := if c = 0 then us * 65536 else (s.linkAvg n * 15 + us * 65536) / 16
    let s1 := ((s.histAdd 2 (us / 100)).modFtl fun f => { f with linkCount := bumpAt f.linkCount n 1, linkAvg := mapSet (fun _ => 0) f.linkAvg n avg }).wr
      (Reg.STR_LINK_AVG_PROG_US n) (min 65535 (avg / 65536))
    if s.linkState n ≠ 1 then s1
    else
      let over15 := match s1.medianFor n with | some m => decide (3 * m < 2 * avg) | none => false
      let cnt := if over15 then s1.rd (Reg.STR_LINK_COUNT n) + 1 else 0
      let s2 := s1.wr (Reg.STR_LINK_COUNT n) (min 256 cnt)
      if 64 ≤ cnt then (if s2.bandWithout n then s2.slowNow n else s2.wr (Reg.STR_LINK_SLOW_HOLD n) 1) else s2

/-- SLOW_CLASSIFY_TICK, every 1 ms: medians are taken, and a held classification is applied where a band could be formed. -/
def State.slowTick (s : State) : State :=
  if s.flushing then s
  else
    let s1 := s.modFtl fun f => { f with medians := (s.persTypes.foldl (fun m ty => mapSet (fun _ => 0) m ty (medianOf ((s.medianLinks ty).map s.linkAvg))) f.medians) }
    ((List.range 512).filter fun n => s1.rd (Reg.STR_LINK_SLOW_HOLD n) == 1 && s1.linkState n == 1).foldl
      (fun t n => if t.bandWithout n then t.slowNow n else t) s1

/-- The probe block of a die: the one it has, else its free block with the fewest erases. -/
def State.probeBlock (s : State) (link die : Nat) : Option Nat :=
  match (s.ftl.probes.find? fun e => e.1 / 65536 == link * 32 + die) with
  | some e => some (e.1 % 65536)
  | none => (s.bestBlock (s.pers (s.persOfLink link)) link die).map fun b => b.2

/-- Erases a probe block and returns it to the free blocks. -/
def State.probeErase (s : State) (key : Nat) : State :=
  let m := (blkLink key, blkDie key, key % 65536)
  (s.setBlk m ⟨(s.blk m).erases + 1, 0, []⟩).modFtl fun f => { f with probes := f.probes.filter fun e => e.1 != key }

/-- One probe program of a SLOW link (R449): on the next die in turn, in its probe block, normal or not by its latency. -/
def State.probeOne (s : State) (n us : Nat) : State :=
  if s.linkState n ≠ 2 then s
  else if s.ftl.seqCeil < s.ftl.seqNext + persSu (s.pers (s.persOfLink n)) then s.raiseCeil
  else
    let dies := max 1 (s.linkDies n)
    let die := mapGet (fun _ => 0) s.ftl.probeTurn n % dies
    match s.probeBlock n die with
    | none => s
    | some k =>
      let key := blkKey n die k
      let p := s.pers (s.persOfLink n)
      let pages := mapGet (fun _ => 0) s.ftl.probes key + 1
      let s1 := (s.setBlk (n, die, k) { s.blk (n, die, k) with state := 4 }).modFtl fun f => { f with
        probes := mapSet (fun _ => 0) f.probes key pages
        probeTurn := bumpAt f.probeTurn n 1
        seqNext := f.seqNext + persSu p }
      let s2 := ((s1.moved (persSu p * 4096) 0 0).tally 0x48 (persSu p * 4096)).noteLatency n us
      let s3 := if persRows p ≤ pages then s2.probeErase key else s2
      match s3.medianFor n with
      | none => s3
      | some m =>
        let cnt := if 2 * (us * 65536) ≤ 3 * m then s3.rd (Reg.STR_LINK_COUNT n) + 1 else 0
        let s4 := s3.wr (Reg.STR_LINK_COUNT n) (min 256 cnt)
        if 256 ≤ cnt then
          let s5 := ((s4.modFtl fun f => { f with linkAvg := mapSet (fun _ => 0) f.linkAvg n m }).wr (Reg.STR_LINK_AVG_PROG_US n) (min 65535 (m / 65536))).wr (Reg.STR_LINK_COUNT n) 0
          let s6 := (s5.setLink n 1).stripeEvent 6 0xFF n 0xFFFFFFFF 0 0xFFFFFFFFFFFFFFFF
          (s6.ftl.probes.filter fun e => blkLink e.1 == n).foldl (fun t e => t.probeErase e.1) s6
        else s4

/-! ### The audit (12 R451 to R456) -/

/-- Stripes the audit covers: durable, outside open bands, in ascending identifier. -/
def State.auditList (s : State) : List Stripe :=
  sortByKey (fun (st : Stripe) => st.id) (s.ftl.stripes.filter fun st => st.state == 2 && (match s.band st.band with | some b => b.state != 0 | none => false))

/-- The stripe's mapped sectors are to be relocated. -/
def State.askMove (s : State) (i : Nat) : State := s.modFtl fun f => { f with rebuildStripes := f.rebuildStripes ++ (if f.rebuildStripes.contains i then [] else [i]) }

/-- A pass ends: counted, with its end. -/
def State.auditEnd (s : State) : State :=
  let s1 := s.modHealth fun h => { h with auditPasses := h.auditPasses + 1, auditLastEnd := s.steepleTime }
  (((s1.modFtl fun f => { f with auditNext := 0, auditRunning := false }).wr Reg.STR_STATUS_AUDIT 0).wr Reg.STR_AUDIT_PROGRESS 0).wr
    Reg.STR_AUDIT_PASSES (min 65535 s1.ftl.health.auditPasses)

/-- What the audit of one stripe finds, acted on as Table 12.3 gives: members P or Q that disagree, by row; failing data positions,
each with whether its reconstruction passes. -/
def State.auditFind (s : State) (st : Stripe) (b : Band) (mismatch : List (Nat × Nat)) (failing : List (Nat × Bool)) : State :=
  let freed := b.state == 2
  let s : State := s.readCharge (4096 * st.data.length)
  let s1 := if s.isExposed st then s else mismatch.foldl (fun t x =>
    (((t.bump Reg.STR_COUNT_MISMATCH_COUNT).modHealth fun h => { h with mismatches := h.mismatches + 1 }).stripeEvent 1 x.2
      (match b.members[x.2]? with | some m => m.1 | none => 0xFFFF) st.id 0 0xFFFFFFFFFFFFFFFF).raise 1704) s
  let s2 := failing.foldl (fun t x =>
    let m := (s.holder st x.1).getD (0xFFFF, 0, 0)
    match st.posAt x.1 with
    | none => t
    | some p =>
      let t1 := t.suspect m st.id
      if x.2 then t1.countRebuilt p.sec.nsid m.1 else t1.countUnreadable st (s.memberOf b x.1) m.1 p.sec.nsid p.sec.lsa) s1
  let found := (!s.isExposed st && !mismatch.isEmpty) || !failing.isEmpty
  if found && !freed then s2.askMove st.id else s2

/-- The next stripe of a whole pass, once its turn at the even rate has come (R451); one the rebuild is relocating is left for later, one whose
band a RETENTION relocates is waited for. -/
def State.auditPass (s : State) (a : Act) (mismatch : List (Nat × Nat)) (failing : List (Nat × Bool)) : State :=
  let all := s.auditList
  match all.find? fun st => s.ftl.auditNext ≤ st.id with
  | none => if s.ftl.auditRunning then s.auditEnd else s
  | some st => match s.band st.band with
    | none => s
    | some b =>
      let before := (all.filter fun x => x.id < st.id).length
      let turn := a.since + before * (s.force Reg.BEL_MAINT_CFG0_AUDIT_DAYS * 86400000000000) / max 1 all.length
      if s.actRuns 7 b.id || (!a.asked && s.now < turn) then s
      else
        let s1 := (s.modFtl fun f => { f with auditNext := st.id + 1, auditRunning := true }).wr Reg.STR_STATUS_AUDIT 1
        let s2 := s1.wr Reg.STR_AUDIT_PROGRESS (min 65535 ((before + 1) * 65536 / max 1 all.length))
        let s3 := if s.rebuilding && s.hasGone st then s2 else s2.auditFind st b mismatch failing
        if all.any fun x => st.id < x.id then s3 else s3.auditEnd

/-- AUDIT_STRIPE (R451 to R453): a step of the AUDIT activity that runs: of a whole pass, or of one stripe. -/
def State.audit (s : State) (mismatch : List (Nat × Nat)) (failing : List (Nat × Bool)) : State :=
  match s.maint.acts.find? fun a => a.code == 1 && a.running with
  | none => s
  | some a =>
    if s.takesHold then s
    else if a.res = wholePass then s.auditPass a mismatch failing
    else match s.auditList.find? fun st => st.id == a.res with
      | none => s
      | some st => match s.band st.band with
        | some b => if s.rebuilding && s.hasGone st then s else s.auditFind st b mismatch failing
        | none => s

end Sys2Proof.Machine
end

