-- ==== Sys2Proof/Machine/PathCmds.lean ====
section
/-!
DEFINITION. Machine/PathCmds.lean: the commands of the write path, of flash translation and of stripe care, with what follows
from each for the write path and the take service.
-/
namespace Sys2Proof.Machine

/-- SECTOR_ENCRYPTED. -/
def execSectorEncrypted (lane : Fin 16) (cmd : Nat) (pick : Nat) (fault : Option Bool) (s : State) : Host.Outcome State Fault Refusal :=
  .next (if s.mainUp then (match s.wcmd cmd with | some w => (s.encryptNext lane.val w pick fault).settleDma | none => s) else s)

/-- STRIPE_CLOSE_TIMER. -/
def execStripeCloseTimer (stripe : Nat) (s : State) : Host.Outcome State Fault Refusal :=
  .next (if s.mainUp && s.awaited stripe then (s.closeStripe stripe 0).settleDma else s)

/-- FINE_TABLE_WAIT_PROCEED. -/
def execFineTableWaitProceed (s : State) : Host.Outcome State Fault Refusal :=
  .next (if s.mainUp then s.fineProceed.settleDma else s)

/-- WRITE_ZEROES (R207). -/
def execWriteZeroes (c : Sqe) (s : State) : Host.Outcome State Fault Refusal :=
  .next (if s.acts c then (s.dealloc 0 c [(c.slba, c.nlb)]).settleDma else s)

/-- DATASET_MANAGEMENT (R207). -/
def execDatasetManagement (c : Sqe) (s : State) : Host.Outcome State Fault Refusal :=
  .next (if s.acts c then (s.datasetMgmt c).settleDma else s)

/-- SHRED (R208, R209). -/
def execShred (c : Sqe) (s : State) : Host.Outcome State Fault Refusal :=
  .next (if s.acts c then (s.shred c).settleDma else s)

/-- CHECKPOINT_DURABLE. -/
def execCheckpointDurable (s : State) : Host.Outcome State Fault Refusal :=
  .next (if s.mainUp then s.cpDurable.settleDma else s)

/-- GARBAGE_COLLECTION_RELOCATE. -/
def execGarbageCollectionRelocate (work : Fin 5) (lane : Fin 16) (pick : Nat) (failing : List (Nat × Fin 3)) (unrebuilt : List Nat) (s : State) : Host.Outcome State Fault Refusal :=
  .next (if s.mainUp then (s.relocateNext work.val lane.val pick ⟨failing, unrebuilt, []⟩).settleDma else s)

/-- AUDIT_STRIPE. -/
def execAuditStripe (mismatch : List (Nat × Nat)) (failing : List (Nat × Bool)) (s : State) : Host.Outcome State Fault Refusal :=
  .next (if s.mainUp then (s.audit mismatch failing).settleDma else s)

/-- SLOW_CLASSIFY_TICK. -/
def execSlowClassifyTick (s : State) : Host.Outcome State Fault Refusal :=
  .next (if s.mainUp then s.slowTick.settleDma else s)

/-- SLOW_PROBE: 16 probe programs of a SLOW link, with their latencies in µs. -/
def execSlowProbe (link : Fin 512) (latencies : List Nat) (s : State) : Host.Outcome State Fault Refusal :=
  .next (if s.mainUp && !s.flushing then ((latencies.take 16).foldl (fun t us => t.probeOne link.val us) s).settleDma else s)

end Sys2Proof.Machine
end

