-- ==== Sys2Proof/Machine/Link.lean ====
section
/-!
DEFINITION. Machine/Link.lean: what a Jalyen link sends (14 R513 to R524; 15 R539 to R545, R553, R558): capsules, tags, and the flits
that carry the capsules as far as credits and unacknowledged flits allow; the last flit of a member waits for its staging copies (17 R613).
-/
namespace Sys2Proof.Machine

def State.modSlv (s : State) (f : Slvs → Slvs) : State := { s with slv := f s.slv }
def State.sleeve (s : State) (i : Nat) : Sleeve := mapGet (fun _ => Sleeve.empty) s.slv.sleeves i
def State.setSleeve (s : State) (i : Nat) (x : Sleeve) : State := s.modSlv fun v => { v with sleeves := mapSet (fun _ => Sleeve.empty) v.sleeves i x }
def State.modSleeve (s : State) (i : Nat) (f : Sleeve → Sleeve) : State := s.setSleeve i (f (s.sleeve i))

def State.lnk (s : State) (n : Nat) : Lnk := mapGet (fun _ => Lnk.init) s.links n
def State.setLnk (s : State) (n : Nat) (x : Lnk) : State := { s with links := mapSet (fun _ => Lnk.init) s.links n x }
def State.modLnk (s : State) (n : Nat) (f : Lnk → Lnk) : State := s.setLnk n (f (s.lnk n))

/-- A die behind a link as its Sleeve holds it. -/
def State.die (s : State) (n d : Nat) : DieSt := mapGet (fun _ => DieSt.init) s.slv.dies (32 * n + d)
def State.modDie (s : State) (n d : Nat) (f : DieSt → DieSt) : State :=
  s.modSlv fun v => { v with dies := mapSet (fun _ => DieSt.init) v.dies (32 * n + d) (f (s.die n d)) }

/-- The physical state of a link (14 Table 14.4) and its trained rate. -/
def State.jlState (s : State) (n : Nat) : Nat := s.rd (Reg.JL_STATE_STATE n)
def State.jlRate (s : State) (n : Nat) : Nat := s.rd (Reg.JL_STATE_RATE n)
def State.jlActive (s : State) (n : Nat) : Bool := s.jlState n == 5

/-! ### Capsules (15 Tables 15.1, 15.2) -/

/-- A capsule: TYPE, FLAGS, LEN, the four ARGS bytes, payload. -/
def capsule (ty flags : Nat) (args : List Nat) (payload : List Byte) : List Byte :=
  leBytes 1 ty ++ leBytes 1 flags ++ leBytes 2 payload.length ++ (args.take 4).flatMap (leBytes 1) ++ payload

/-- The ARGS of a die capsule: DIE, GAP. -/
def dieArgs (die gap : Nat) : List Nat := [die, gap % 256, gap / 256 % 16, 0]

/-- The virtual channel of a class's die capsules (R542). -/
def classVc (cls : Nat) : Nat := if cls ≤ 1 then 1 else 0

/-! ### Sending (R514, R519, R523, R524, R542) -/

/-- Credits available on a channel. -/
def State.credit (s : State) (n vc : Nat) : Nat := if vc = 1 then s.rd (Reg.JL_CREDIT_VC1_AVAIL n) else s.rd (Reg.JL_CREDIT_VC0_AVAIL n)

def State.setCredit (s : State) (n vc v : Nat) : State :=
  if vc = 1 then s.wr (Reg.JL_CREDIT_VC1_AVAIL n) (min 127 v) else s.wr (Reg.JL_CREDIT_VC0_AVAIL n) (min 127 v)

/-- A capsule waits while an earlier capsule of its die is unsent, or its die's last capsule went by the other channel in a flit no ACK
covers yet (R542). -/
def Lnk.blocked (x : Lnk) (earlier : List TxCap) (c : TxCap) : Bool :=
  match c.die with
  | none => false
  | some d => !c.begun && ((earlier.any fun e => e.die == some d) || match mapGet (fun _ => none) x.dieLast d with
      | some (vc, q) => vc != c.vc && x.unacked.any fun f => f.seq == q
      | none => false)

/-- The next capsule of a channel that may be sent: its index. A capsule already begun goes on first. -/
def Lnk.nextCap (x : Lnk) (vc : Nat) : Option Nat :=
  match x.capq.findIdx? (fun c => c.vc == vc && c.begun) with
  | some i => some i
  | none => (List.range x.capq.length).find? fun i => match x.capq[i]? with
      | some c => c.vc == vc && !x.blocked (x.capq.take i) c
      | none => false

/-- A flit in the making: the link, the bytes it carries, the members it ends. -/
structure FlitFill where
  lnk : Lnk
  bytes : List Byte
  ends : List (Nat × Nat × Nat)
  deriving DecidableEq, Repr

/-- Fills the payload of the flit with number `seq`: capsules of a channel as they may be sent, up to `room` bytes. A flit whose payload is
not full ends at a capsule's end. The last flit of a member that is held back waits (17 R613). -/
def fillFlit (held : Nat × Nat × Nat → Bool) (vc seq : Nat) : Nat → FlitFill → Nat → FlitFill
  | 0, a, _ => a
  | fuel + 1, a, room =>
    let x := a.lnk
    if room = 0 then a
    else match x.nextCap vc with
      | none => a
      | some i => match x.capq[i]? with
        | none => a
        | some c =>
          if c.bytes.length ≤ room then
            if c.member.any held then a
            else
              let last := match c.die with | some d => mapSet (fun _ => none) x.dieLast d (some (vc, seq)) | none => x.dieLast
              fillFlit held vc seq fuel ⟨{ x with capq := x.capq.eraseIdx i, dieLast := last }, a.bytes ++ c.bytes, a.ends ++ c.member.toList⟩ (room - c.bytes.length)
          else ⟨{ x with capq := modAt x.capq i fun (y : TxCap) => { y with bytes := y.bytes.drop room, begun := true } }, a.bytes ++ c.bytes.take room, a.ends⟩

/-- A flit goes on the line (R513, R516): the header with the ACK, and the credits freed on one channel, VC0 and VC1 in turn; the four blocks,
scrambled. -/
def State.putFlit (s : State) (n kind seq vc : Nat) (nak : Bool) (payload : List Byte) : State :=
  let x := s.lnk n
  let r := flitBlocks x.scrTx (flitBytes (flitHeader seq ((x.rxSeq + 511) % 512) nak x.crTurn (if x.crTurn = 1 then x.freed.2 else x.freed.1) vc kind) payload)
  s.modLnk n fun y => { y with scrTx := r.2, wire := r.1, crTurn := 1 - x.crTurn }

/-- An IDLE flit: what a link sends while it has nothing else (log entry 63). -/
def State.idleFlit (s : State) (n : Nat) (nak : Bool) : State := s.putFlit n 0 (s.lnk n).txSeq 0 nak []

/-- A sector of a data member has not been accepted as a staging copy yet (17 R613). -/
def State.memberHeld (s : State) (x : Nat × Nat × Nat) : Bool :=
  match s.stripe x.1 with
  | none => false
  | some st => match s.band st.band with
    | none => false
    | some b => s.path.writes.any fun w => (w.places.drop w.accepted).any fun a =>
        ssaStripe a == x.1 && s.rowOf b (ssaOff a) == x.2.1 && s.memberOf b (ssaOff a) == x.2.2

/-- Sends one new DATA flit where there is one: VC1 before VC0, with a credit of its channel, below 128 unacknowledged. -/
def State.sendFlit (s : State) (n : Nat) : Option State :=
  let x := s.lnk n
  if 128 ≤ x.unacked.length then none
  else
    let pick := [1, 0].find? fun vc => 0 < s.credit n vc && (x.nextCap vc).isSome
    match pick with
    | none => none
    | some vc =>
      let r := fillFlit s.memberHeld vc x.txSeq (x.capq.length + 1) ⟨x, [], []⟩ 56
      if r.bytes.isEmpty then none
      else
        let y := { r.lnk with unacked := r.lnk.unacked ++ [⟨x.txSeq, vc, padTo 56 r.bytes, r.ends⟩], txSeq := (x.txSeq + 1) % 512,
                              ackAt := if x.unacked.isEmpty then s.now else x.ackAt }
        some ((((s.setLnk n y).setCredit n vc (s.credit n vc - 1)).wr (Reg.JL_CREDIT_UNACKED n) (min 255 y.unacked.length)).putFlit n 1 x.txSeq vc false r.bytes)

def State.pumpFlits : Nat → State → Nat → State
  | 0, s, _ => s
  | fuel + 1, s, n => match s.sendFlit n with | some t => pumpFlits fuel t n | none => s

/-- Sends what may be sent: an ACTIVE link whose bridge has sent its START. -/
def State.pump (s : State) (n : Nat) : State := if s.jlActive n && (s.lnk n).resync != 2 then State.pumpFlits 256 s n else s

/-- A capsule to be sent joins the others; `member`: the member of a row whose image ends with it. -/
def State.sendCapFor (s : State) (n : Nat) (die : Option Nat) (vc : Nat) (bytes : List Byte) (member : Option (Nat × Nat × Nat)) : State :=
  (s.modLnk n fun x => { x with capq := x.capq ++ [⟨die, vc, bytes, false, member⟩] }).pump n

def State.sendCap (s : State) (n : Nat) (die : Option Nat) (vc : Nat) (bytes : List Byte) : State := s.sendCapFor n die vc bytes none

/-! ### Tags (R553) -/

/-- The lowest tag neither in use nor quarantined. -/
def Lnk.freeTag (x : Lnk) : Option Nat := (List.range 256).find? fun t => !x.quarantined.contains t && !x.tags.any fun g => g.tag == t

def State.addTag (s : State) (n : Nat) (g : Tag) : State := s.modLnk n fun x => { x with tags := x.tags ++ [g] }

/-- A MGMT request (R558): no die, VC1. Where no tag is free it is not sent. -/
def State.mgmt (s : State) (n mop : Nat) (payload : List Byte) : State :=
  match (s.lnk n).freeTag with
  | none => s
  | some t => (s.addTag n ⟨t, 255, 0, 4, 0, 0, mop, false, s.now⟩).sendCap n none 1 (capsule 0x08 0 [mop, t, 0, 0] payload)

/-- SET_IF for one die (Table 15.5). -/
def State.setIf (s : State) (n d mode rate : Nat) : State :=
  s.mgmt n 2 (leBytes 4 (2 ^ d) ++ leBytes 1 mode ++ leBytes 1 0 ++ leBytes 2 rate)

/-- A die's interface is set to its personality's mode and rate (R561, R562). -/
def State.setIfPers (s : State) (n d : Nat) : State :=
  match personalityOf s.image.cfg n with
  | some p => s.setIf n d (p.get 0x10 + 1) (p.get 0x12)
  | none => s

/-! ### The staging copy that a link waited for -/

/-- Links whose last flit of a member was held back go on. -/
def State.pumpHeld (s : State) : State :=
  ((s.links.filter fun e => e.2.capq.any fun c => c.member.isSome).map fun e => e.1).foldl State.pump s

/-- STAGING_COPY_ACCEPTED. -/
def execStagingCopyAccepted (cmd : Nat) (s : State) : Host.Outcome State Fault Refusal :=
  .next (if s.mainUp then (match s.wcmd cmd with | some w => (s.acceptCopy w).pumpHeld.settleDma | none => s) else s)

end Sys2Proof.Machine
end

