-- ==== Sys2Proof/Machine/Sleeve.lean ====
section
/-!
DEFINITION. Machine/Sleeve.lean: operations of a Sleeve (13 R460 to R463, R467 to R477, R485 to R491): descriptors and records, contexts,
faults, suspension, the flush attention, what an operation's end means to who asked for it, and crossover.
-/
namespace Sys2Proof.Machine

/-! ### Personalities (04 Table 4.6, 13 Table 13.7) -/

/-- A field of the PTABLE header; beyond PTABLE_LEN, or out of its range, its default (log entry 27). -/
def ptField (p : Rec) (off lo hi dflt : Nat) : Nat :=
  if p.get 0x1E < off + 1 then dflt else let v := leAt p.ptable off 1; if lo ≤ v ∧ v ≤ hi then v else dflt

/-- FORMAT of the PTABLE header. -/
def ptFormat (p : Rec) : Nat := if p.get 0x1E < 2 then 1 else leAt p.ptable 0 2

/-- Parity bytes of a codeword. -/
def ldpcParity (p : Rec) : Nat := 256 + 64 * ptField p 2 0 3 3
def softReads (p : Rec) : Nat := ptField p 3 0 2 2
def suspMaxProg (p : Rec) : Nat := ptField p 0x0C 0 15 4
def suspMaxErase (p : Rec) : Nat := ptField p 0x0D 0 15 8

/-- Sectors of a page. -/
def pageSectors (p : Rec) : Nat := p.get 0x14 / 4096

/-- A personality that cannot be used: its spare bytes hold less than envelopes and parities, or its PTABLE has another FORMAT (R478). -/
def ptableBad (p : Rec) : Bool := ptFormat p != 1 || p.get 0x18 < (48 + ldpcParity p) * pageSectors p

/-- ENTRY i, where it is present. -/
def entryOf (p : Rec) (i : Nat) : Option Nat := let v := p.get (0x30 + 2 * i); if v = 0xFFFF then none else some v

def hasSuspend (p : Rec) : Bool := (entryOf p 10).isSome && (entryOf p 11).isSome

/-! ### Control words (Table 13.3) -/

def CtlWord.bits (w : CtlWord) (lsb width : Nat) : Nat := w.toNat / 2 ^ lsb % 2 ^ width
def CtlWord.op (w : CtlWord) : Nat := w.bits 184 8
def CtlWord.cyc (w : CtlWord) : Nat := w.bits 172 12
def CtlWord.cond (w : CtlWord) : Nat := w.bits 168 4
def CtlWord.wflags (w : CtlWord) : Nat := w.bits 160 8
def CtlWord.target (w : CtlWord) : Nat := w.bits 144 13
def CtlWord.dst (w : CtlWord) : Nat := w.bits 140 4
def CtlWord.sa (w : CtlWord) : Nat := w.bits 136 4
def CtlWord.sb (w : CtlWord) : Nat := w.bits 132 4
def CtlWord.subop (w : CtlWord) : Nat := w.bits 128 4
def CtlWord.imm (w : CtlWord) : Nat := w.bits 64 64
def CtlWord.imm32 (w : CtlWord) : Word := BitVec.ofNat 32 w.imm
def CtlWord.aux (w : CtlWord) : Nat := w.bits 32 32
def CtlWord.suspOk (w : CtlWord) : Bool := w.wflags.testBit 7
def CtlWord.flushOk (w : CtlWord) : Bool := w.wflags.testBit 6
def CtlWord.arraySet (w : CtlWord) : Bool := w.wflags.testBit 5
def CtlWord.arrayClr (w : CtlWord) : Bool := w.wflags.testBit 4
def CtlWord.clrEdge (w : CtlWord) : Bool := w.wflags.testBit 3

/-- Byte i of IMM. -/
def CtlWord.immByte (w : CtlWord) (i : Nat) : Byte := BitVec.ofNat 8 (w.imm / 256 ^ i)

/-- SUBOP values an opcode has: those below the number given (log entry 28). -/
def subops (op : Nat) : Nat := match op with
  | 0x03 => 2
  | 0x04 => 3
  | 0x05 => 2
  | 0x07 => 3
  | 0x08 => 13
  | 0x09 => 3
  | 0x0B => 3
  | 0x0C => 3
  | 0x0E => 2
  | _ => 16

/-- A legal word (R465; a SUBOP or a cycle count the table does not give is illegal, log entry 28). -/
def CtlWord.legal (w : CtlWord) : Bool :=
  w.op ≤ 0x10 && w.cyc != 0 && w.wflags % 8 == 0 && w.bits 157 3 == 0 && w.bits 0 32 == 0 && w.subop < subops w.op &&
  (if w.op = 1 ∨ w.op = 2 then 1 ≤ w.aux % 16 && w.aux % 16 ≤ 8 else true) &&
  (if w.op = 4 ∧ w.subop = 2 then w.imm % 4 == 1 || w.imm % 4 == 2 else true)

/-- The word sends cycles to the die. -/
def CtlWord.sends (w : CtlWord) : Bool := 1 ≤ w.op && w.op ≤ 5

/-! ### Records -/

def State.opRec (s : State) (i id : Nat) : Option OpRec := (s.sleeve i).recs.find? fun r => r.desc.id == id

def State.modRec (s : State) (i id : Nat) (f : OpRec → OpRec) : State :=
  s.modSleeve i fun x => { x with recs := x.recs.map fun (r : OpRec) => if r.desc.id == id then f r else r }

/-- A record by its operation's number alone: its Sleeve. -/
def State.sleeveOfOp (s : State) (id : Nat) : Option Nat := (List.range 64).find? fun i => (s.opRec i id).isSome

def OpRec.v (r : OpRec) (k : Nat) : Word := r.regs.getD k 0
def OpRec.setV (r : OpRec) (k : Nat) (w : Word) : OpRec := { r with regs := modAt r.regs k fun (_ : Word) => w }

/-- An operation that programs, and one that erases (its array work). -/
def OpDesc.programs (d : OpDesc) : Bool := d.entry == 5 || d.entry == 6 || d.entry == 7
def OpDesc.erases (d : OpDesc) : Bool := d.entry == 8 || d.entry == 9
def OpDesc.reads (d : OpDesc) : Bool := d.entry ≤ 4

def State.opPers (s : State) (n : Nat) : Rec := match personalityOf s.image.cfg n with | some p => p | none => ⟨0x10, 0, [], []⟩

/-- Records of a link. -/
def State.linkRecs (s : State) (n : Nat) : List OpRec := (s.sleeve (n / 8)).recs.filter fun r => r.desc.link == n

/-- The record that holds a die: not one that only reads while the die is suspended. -/
def State.holderOf (s : State) (n d : Nat) : Option OpRec :=
  (s.linkRecs n).find? fun r => r.desc.die == d && !(s.linkRecs n).any fun o => o.readers.contains r.desc.id

/-- A ready record: neither waiting nor ended. -/
def OpRec.ready (r : OpRec) : Bool := r.wait.isNone && !r.ended

/-- Free contexts of link l of a Sleeve, lowest first. -/
def Sleeve.freeCtx (x : Sleeve) (l : Nat) : Option Nat :=
  (List.range 8).findSome? fun k => if x.recs.any fun r => r.ctx == some (8 * l + k) then none else some (8 * l + k)

/-- Binds ready records to free contexts of their links, by class, then age (R467). -/
def bindAll : List Nat → Sleeve → Sleeve
  | [], x => x
  | id :: l, x => match x.recs.find? fun r => r.desc.id == id with
    | none => bindAll l x
    | some r => match x.freeCtx (r.desc.link % 8) with
      | none => bindAll l x
      | some c => bindAll l { x with recs := x.recs.map fun (o : OpRec) => if o.desc.id == id then { o with ctx := some c } else o }

def State.bind (s : State) (i : Nat) : State :=
  s.modSleeve i fun x =>
    let want := x.recs.filter fun r => r.ready && r.ctx.isNone
    bindAll ((sortByKey (fun (r : OpRec) => r.desc.cls * 2 ^ 64 + r.desc.id) want).map fun r => r.desc.id) x

/-! ### What an operation was for -/

/-- A read whose retries passed half of RETRY_STEPS names its block for retention refresh: its stripes are to be moved (R481, 11 R413). -/
def State.refreshBlock (s : State) (m : Nat × Nat × Nat) : State :=
  let bands := s.ftl.bands.filter fun b => b.members.contains m
  ((s.ftl.stripes.filter fun st => bands.any fun b => b.id == st.band).map fun st => st.id).foldl State.askMove s

/-- The retry count of a read, kept for 7 days (22 R743, R745), and its histogram; reads that are not host reads are marked by 2^20. -/
def State.noteRetry (s : State) (d : OpDesc) (count : Nat) : State :=
  let key := 32 * d.link + d.die + (match d.why with | .read _ _ => 0 | _ => 1048576)
  let s1 := s.histAdd 3 count
  { s1 with maint := { s1.maint with retries := (s.now, key, count) :: s1.maint.retries.filter fun e => s.now < e.1 + 604800000000000 } }

/-- The requester receives the result of an operation: 0 OK, 1 FAIL, 2 INTERRUPTED; `us` is a program's latency. An interrupted program
counts as failed; an interrupted erase is to be asked for again. -/
def State.deliverOp (s : State) (d : OpDesc) (result us : Nat) (rebuilt : Bool) : State :=
  match d.why with
  | .other => s
  | .sample => s
  | .program st row m =>
    if result = 0 then
      let bytes := persSu (s.opPers d.link) * 4096
      ((s.modFtl fun f => { f with linkProg := bumpAt f.linkProg d.link bytes }).programOk st row m).noteLatency d.link us
    else s.memberFailed st row m
  | .erase b m => if result = 2 then s else s.eraseEnd b m (result == 0)
  | .sanitize b => if result = 2 then s else s.sanErase (d.link, d.die, b) (result == 0)
  | .read id sec => s.lateEnd id sec (result == 0) rebuilt


/-- A die becomes absent: its members are missing, a rebuild starts (R443, R474, 15 R564). -/
def State.dieAbsent (s : State) (n d : Nat) : State :=
  if s.ftl.absentDies.contains (n, d) then s
  else
    let s1 := s.modFtl fun f => { f with absentDies := f.absentDies ++ [(n, d)] }
    let s2 := s1.setReg (Reg.JL_DIE_PRESENT n) (s1.reg (Reg.JL_DIE_PRESENT n) &&& ~~~(BitVec.ofNat 32 (2 ^ d)))
    let s3 := if s2.reg (Reg.JL_DIE_PRESENT n) != s.reg (Reg.JL_DIE_PRESENT n) then s2.raise (2 * n + 1) else s2
    ((s3.membersLost n (some d) s).startRebuild).raise (1025 + 8 * (n / 8))

/-- A die is to be reset before anything else runs on it. -/
def State.dieNeedsReset (s : State) (n d : Nat) : State :=
  if (s.die n d).needsReset then s else (s.modDie n d fun x => { x with needsReset := true }).raise (1025 + 8 * (n / 8))

/-! ### Faults (R472 to R474) -/

/-- Nanoseconds left on a record's watchdog. -/
def State.wdogLeft (s : State) (r : OpRec) : Nat := if r.wdogOn && !r.wdogPaused then r.wdogLeft - (s.now - r.wdogFrom) else r.wdogLeft

/-- A fault met in the fault handler: the Sleeve ends the operation, FAIL with the fault's code, and the die is to be reset. -/
def State.hardEnd (s : State) (i : Nat) (r : OpRec) (code : Nat) : State :=
  let s1 := s.modRec i r.desc.id fun x => { x with report := some (1, BitVec.ofNat 32 code), ended := true, ctx := none, wait := none, fault := none, faultCode := code, abortBusy := if code = 11 then x.arrayBusy else x.abortBusy }
  s1.dieNeedsReset r.desc.link r.desc.die

/-- Takes a fault at a word boundary or at the end of a WAIT: FAULT_CODE, the faulting address, the fault handler, source 1,024 + 8s. -/
def State.takeFault (s : State) (i id code pc : Nat) : State :=
  match s.opRec i id with
  | none => s
  | some r =>
    if r.ended then s
    else if r.handler then s.hardEnd i r code
    else
      let sl := s.sleeve i
      let s1 := s.modRec i id fun x => { x with handler := true, faultCode := code, faultPc := pc, fault := none, pc := sl.faultEntry, wait := none, decoding := [], abortBusy := if code = 11 then x.arrayBusy else x.abortBusy, crossed := x.crossed || code == 11 }
      let s2 := (((s1.wr (Reg.SLV_FAULT_CODE i) code).wr (Reg.SLV_FAULT_LINK i) (r.desc.link % 8)).wr (Reg.SLV_FAULT_DIE i) r.desc.die).wr
        (Reg.SLV_FAULT_CONTEXT i) (r.ctx.getD (8 * (r.desc.link % 8)))
      ((s2.wr (Reg.SLV_FAULT_PC_PC i) pc).bump (Reg.SLV_COUNT_FAULT_COUNT i)).raise (1024 + 8 * i) |>.bind i

/-- A fault arrives: pending on a record in a WAIT until the WAIT ends, taken at once at a word boundary otherwise. -/
def State.pendFault (s : State) (i id code : Nat) : State :=
  match s.opRec i id with
  | none => s
  | some r =>
    if r.ended then s
    else if r.wait.isSome then s.modRec i id fun x => { x with fault := if x.fault.isSome then x.fault else some code }
    else s.takeFault i id code r.pc

/-- Every operation in flight on a link takes a fault; with `reset`, its die is to be reset. -/
def State.faultLink (s : State) (n code : Nat) (reset : Bool) : State :=
  (s.linkRecs n).foldl (fun t r =>
    let t1 := t.pendFault (n / 8) r.desc.id code
    if reset then t1.dieNeedsReset n r.desc.die else t1) s

/-! ### Suspension (R475, R476) -/

/-- A class 1 descriptor is queued for a die. -/
def State.readQueued (s : State) (n d : Nat) : Bool := (s.sleeve (n / 8)).queue.any fun q => q.link == n && q.die == d && q.cls == 1

/-- A suspend request stands on a record. -/
def State.suspendDue (s : State) (r : OpRec) : Bool :=
  let p := s.opPers r.desc.link
  let e := r.desc.entry
  s.readQueued r.desc.link r.desc.die && r.arrayBusy && !r.suspended && (e == 5 || e == 6 || e == 8 || e == 9) && hasSuspend p &&
  r.begun + 1000 * p.get 0x2A ≤ s.now && r.suspends < (if r.desc.erases then suspMaxErase p else suspMaxProg p)

/-! ### Waits (R469, R470) -/

/-- What ends a WAIT, as STOPCAUSE codes it (log entry 31), in the order tested: the mask's conditions, a fault, an attention. -/
def State.waitCause (s : State) (r : OpRec) : Option Nat :=
  match r.wait with
  | none => none
  | some (mask, wf) =>
    let d := s.die r.desc.link r.desc.die
    let holds (k : Nat) : Bool := mask.testBit k && (match k with
      | 0 => d.ready
      | 1 => d.busy
      | 2 => r.pollDone
      | 3 => r.decoding.isEmpty
      | _ => r.readers.isEmpty)
    match (List.range 5).find? holds with
    | some k => some k
    | none =>
      if r.fault.isSome then some 5
      else if wf.testBit 7 && s.suspendDue r then some 6
      else if wf.testBit 6 && r.flushAtt then some 7
      else none

/-- WAIT_END: the cause is kept, the latch cleared, and the record goes on, or takes its fault. A fault pending is taken whatever ended the
WAIT: the record is at a word boundary. -/
def State.waitEnd (s : State) (i id : Nat) : State :=
  match s.opRec i id with
  | none => s
  | some r => match s.waitCause r with
    | none => s
    | some k =>
      let s1 := if k = 0 then s.modDie r.desc.link r.desc.die fun x => { x with ready := false }
        else if k = 1 then s.modDie r.desc.link r.desc.die fun x => { x with busy := false } else s
      let s2 := s1.modRec i id fun x => { x with wait := none, stop := k, flushAtt := if k = 7 then false else x.flushAtt }
      match r.fault with
      | some c => s2.takeFault i id c r.pc
      | none => s2.bind i

/-! ### Crossover (R485, R486) -/

/-- Removes addresses of ranges from the live words. -/
def releaseWords (m : SMap (Option CtlWord)) (ranges : List (Nat × Nat)) : SMap (Option CtlWord) :=
  m.filter fun e => !ranges.any fun r => r.1 ≤ e.1 && e.1 < r.1 + r.2

/-- Writes the words of an image at its ranges, in order. -/
def writeWords : List (Nat × Nat) → List CtlWord → SMap (Option CtlWord) → SMap (Option CtlWord)
  | [], _, m => m
  | (a, n) :: rs, ws, m =>
    writeWords rs (ws.drop n) ((List.range n).foldl (fun y k => mapSet (fun _ => none) y (a + k) ws[k]?) m)

/-- SLV_LIVE_WORDS follows the store. -/
def State.showLive (s : State) (i : Nat) : State := s.wr (Reg.SLV_LIVE_WORDS_WORDS i) (s.sleeve i).store.length

/-- The resume table's new address of an old one. -/
def Micro.resumeAt (m : Micro) (pc : Nat) : Option Nat := (m.resume.find? fun e => e.1 == pc).map fun e => e.2

/-- A record crosses: it continues at the resume table's new address, or takes ABORT in the new code. -/
def State.crossRec (s : State) (i id : Nat) : State :=
  match (s.sleeve i).xover with
  | none => s
  | some x => match s.opRec i id with
    | none => s
    | some r =>
      if r.crossed || r.ended then s
      else match x.patch.resumeAt r.pc with
        | some a => s.modRec i id fun y => { y with pc := a, crossed := true }
        | none =>
          let s1 := (s.modRec i id fun y => { y with crossed := true }).bump (Reg.SLV_XOVER_ABORTED i)
          (s1.modSlv fun v => { v with patch := v.patch.map fun (o : PatchOp) => { o with aborted := o.aborted + 1 } }).pendFault i id 11

/-- A Sleeve begins to cross over: words written and live, entries and fault handler the patch's, waiting records at once. -/
def State.crossBegin (s : State) (i : Nat) (m : Micro) : State :=
  let sl := s.sleeve i
  let s1 := s.setSleeve i { sl with
    store := writeWords m.ranges m.words sl.store, entries := m.entries, faultEntry := m.faultEntry, xover := some ⟨m, s.now⟩,
    recs := sl.recs.map fun (r : OpRec) => { r with crossed := false } }
  let s2 := ((s1.wr (Reg.SLV_XOVER_ABORTED i) 0).wr (Reg.SLV_STATUS_CROSSING i) 1).showLive i
  (sl.recs.filter fun r => r.wait.isSome).foldl (fun t r => t.crossRec i r.desc.id) s2

/-- A bypassed Sleeve takes the patch at once. -/
def State.crossBypassed (s : State) (i : Nat) (m : Micro) : State :=
  let sl := s.sleeve i
  let s1 := s.setSleeve i { sl with store := releaseWords (writeWords m.ranges m.words sl.store) m.release, entries := m.entries, faultEntry := m.faultEntry, images := sl.images ++ [m] }
  (s1.wr (Reg.SLV_VERSION_VERSION i) m.version).showLive i

/-- Every record has crossed: the RELEASE words are no longer live, SLV_VERSION, source 1,029 + 8s. -/
def State.crossEnd (s : State) (i : Nat) (m : Micro) : State :=
  let s1 := s.modSleeve i fun x => { x with store := releaseWords x.store m.release, xover := none, images := x.images ++ [m] }
  (((s1.wr (Reg.SLV_STATUS_CROSSING i) 0).wr (Reg.SLV_VERSION_VERSION i) m.version).showLive i).raise (1029 + 8 * i)

/-- Records not yet crossed over. -/
def Sleeve.uncrossed (x : Sleeve) : Nat := if x.xover.isSome then (x.recs.filter fun r => !r.crossed && !r.ended).length else 0

/-- The patch goes on: the Sleeve in hand ends when its records have crossed, the next begins; after the last, register 7 is extended and the
command completes. -/
def State.patchStep : Nat → State → State
  | 0, s => s
  | fuel + 1, s => match s.slv.patch with
    | none => s
    | some o => match o.left with
      | [] => ((s.extend 7 o.digest).modSlv fun v => { v with patch := none }).complete o.cmd stOk o.aborted 0 []
      | i :: rest =>
        let drop (t : State) : State := t.modSlv fun v => { v with patch := v.patch.map fun (y : PatchOp) => { y with left := rest } }
        match (s.sleeve i).xover with
        | some x => if (s.sleeve i).uncrossed = 0 then patchStep fuel (drop (s.crossEnd i x.patch)) else s
        | none =>
          if s.rd (Reg.SLV_STATUS_BYPASSED i) = 1 then patchStep fuel (drop (s.crossBypassed i o.patch))
          else patchStep fuel (s.crossBegin i o.patch)

def State.patchGo (s : State) : State := s.patchStep 200

/-- CROSSOVER_TIMEOUT: 10 ms after its words were written, a record not crossed takes ABORT. -/
def State.crossTimeout (s : State) (i : Nat) : State :=
  match (s.sleeve i).xover with
  | none => s
  | some x =>
    if s.now < x.since + 10000000 then s
    else
      let late := (s.sleeve i).recs.filter fun r => !r.crossed && !r.ended
      (late.foldl (fun t r =>
        let t1 := (t.modRec i r.desc.id fun y => { y with crossed := true }).bump (Reg.SLV_XOVER_ABORTED i)
        (t1.modSlv fun v => { v with patch := v.patch.map fun (o : PatchOp) => { o with aborted := o.aborted + 1 } }).pendFault i r.desc.id 11) s).patchGo

/-! ### Operations (R461 to R463) -/

/-- Queues a descriptor; a parked link leaves its park when it starts (R526). -/
def State.request (s : State) (d : OpDesc) : State :=
  (s.modSleeve (d.link / 8) fun x => { x with queue := x.queue ++ [{ d with id := s.slv.nextOp, since := s.now }] }).modSlv fun v => { v with nextOp := v.nextOp + 1 }

/-- A fresh record (R462). -/
def newRec (d : OpDesc) (pc now : Nat) (reset : Bool) : OpRec where
  desc := d
  pc := pc
  regs := [BitVec.ofNat 32 d.die, BitVec.ofNat 32 d.block, BitVec.ofNat 32 d.page,
    BitVec.ofNat 32 (d.planes % 256 + 256 * bit d.slc + 4096 * (d.cls % 4) + 65536 * (d.entry % 16)),
    BitVec.ofNat 32 (d.first % 256 + 256 * (d.count % 256)), BitVec.ofNat 32 (if d.entry = 2 then d.pages else 1), BitVec.ofNat 32 d.buffer,
    BitVec.ofNat 32 d.id] ++ List.replicate 8 0
  z := false
  n := false
  c := false
  stack := []
  ctx := none
  readyAt := 4 * now
  wait := none
  stop := 0
  wdogOn := false
  wdogPaused := false
  wdogLeft := 0
  wdogFrom := 0
  pollAt := none
  pollDone := false
  fault := none
  faultCode := 0
  handler := false
  faultPc := 0
  report := none
  ended := false
  arrayBusy := false
  abortBusy := false
  begun := 0
  confirmAt := none
  statusAt := 0
  suspends := 0
  suspended := false
  readers := []
  flushAtt := false
  dins := 0
  strobes := []
  softUsed := false
  decoding := []
  decoded := []
  failed := []
  rawFirst := none
  reset := reset
  crossed := true
  planesOut := []

/-- Dies of a link array-busy with programs or erases. -/
def State.busyDies (s : State) (n : Nat) : Nat :=
  ((s.linkRecs n).filter fun r => (r.desc.programs || r.desc.erases) && !r.ended).length

/-- The link lets one more die be busy: half of its dies, rounded up, while its bridge is warm (21 R722). -/
def State.warmRoom (s : State) (n : Nat) : Bool :=
  !(s.lnk n).warm || s.busyDies n < ((match groupOf s.image.cfg n with | some g => g.get 4 | none => 0) + 1) / 2

/-- A descriptor may start now. -/
def State.startable (s : State) (d : OpDesc) : Bool :=
  let n := d.link
  let p := s.opPers n
  let free := match s.holderOf n d.die with
    | none => true
    | some r => r.suspended && r.readers.contains d.id && !(s.linkRecs n).any fun o => r.readers.contains o.desc.id
  s.rd (Reg.SLV_STATUS_BYPASSED (n / 8)) == 0 && (s.jlActive n || s.jlState n == 6) && (s.lnk n).identAt.isNone && !(s.lnk n).recal &&
  (s.linkRecs n).length < 64 && ((s.linkRecs n).filter fun r => r.desc.die == d.die).length < 2 && free &&
  !s.ftl.absentDies.contains (n, d.die) && !ptableBad p && (entryOf p d.entry).isSome && (!(d.programs || d.erases) || s.warmRoom n)

/-- Starts a record. -/
def State.startRec (s : State) (d : OpDesc) (reset : Bool) : State :=
  match entryOf (s.opPers d.link) d.entry with
  | none => s
  | some pc => (s.modSleeve (d.link / 8) fun x => { x with recs := x.recs ++ [newRec d pc s.now reset] }).bind (d.link / 8)

/-- The RESET a die needs, ahead of every queued descriptor, after SET_IF mode 0 (R474, 15 R562). -/
def State.startReset (s : State) (n d : Nat) : State :=
  let s1 := (s.setIf n d 0 0).modSlv fun v => { v with nextOp := v.nextOp + 1 }
  s1.startRec ⟨s.slv.nextOp, n, d, 13, 0, 0, 0, 0, 1, 1, false, 1, 0, .other, s.now⟩ true

/-- OPERATION_START: of the descriptors whose die can start, the highest class, then the oldest. -/
def State.opStart (s : State) (i : Nat) : State :=
  let can := (s.sleeve i).queue.filter s.startable
  match sortByKey (fun (d : OpDesc) => d.cls * 2 ^ 64 + d.id) can with
  | [] => s
  | d :: _ =>
    if (s.die d.link d.die).needsReset && (s.holderOf d.link d.die).isNone then
      if (entryOf (s.opPers d.link) 13).isSome then s.startReset d.link d.die else s
    else
      let s1 := s.modSleeve i fun x => { x with queue := x.queue.filter fun q => q.id != d.id }
      -- every run of RESET is preceded by SET_IF mode 0 (15 R562)
      if d.entry = 13 then (s1.setIf d.link d.die 0 0).startRec d true else s1.startRec d false

/-- A reader has ended: the record whose die it read no longer waits for it. -/
def State.readerDone (s : State) (i id : Nat) : State :=
  s.modSleeve i fun x => { x with recs := x.recs.map fun (r : OpRec) => { r with readers := r.readers.filter fun k => k != id } }

/-- A RESET has ended: OK restores the personality's interface; two failures in a row make the die absent. -/
def State.resetEnd (s : State) (n d : Nat) (ok : Bool) : State :=
  if ok then (s.modDie n d fun x => { x with needsReset := false, resetFails := 0 }).setIfPers n d
  else
    let s1 := s.modDie n d fun x => { x with resetFails := x.resetFails + 1 }
    if 2 ≤ (s1.die n d).resetFails then s1.dieAbsent n d else s1

/-- An operation ended by ABORT (R487, R489): from a bypassed Sleeve it is reported missing, that is failed; a program whose die was
array-busy is reported FAIL after a reset; anything else starts again. -/
def State.abortEnd (s : State) (r : OpRec) (rebuilt : Bool) : State :=
  let d := r.desc
  if s.rd (Reg.SLV_STATUS_BYPASSED (d.link / 8)) = 1 then s.deliverOp d 1 0 rebuilt
  else
    let s1 := if r.abortBusy && (d.programs || d.erases) then s.dieNeedsReset d.link d.die else s
    if r.abortBusy && d.programs then s1.deliverOp d 1 0 rebuilt else s1.modSleeve (d.link / 8) fun x => { x with queue := d :: x.queue }

/-- The end of a record: the record is freed, the requester receives its result. -/
def State.opEnd (s : State) (i id : Nat) (rebuilt : Bool) : State :=
  match s.opRec i id with
  | none => s
  | some r =>
    if !r.ended then s
    else
      let d := r.desc
      let result := match r.report with | some x => x.1 | none => 1
      let s0 := (s.modSleeve i fun x => { x with recs := x.recs.filter fun o => o.desc.id != id }).readerDone i id
      let s1 := s0.raiseIf (result == 1) (1026 + 8 * i)
      let p := s.opPers d.link
      let retried := d.reads && result == 0 && decide (p.get 0x2E < 2 * (r.dins - 1))
      let s2a := if d.reads && result == 0 then s1.noteRetry d (r.dins - 1) else s1
      let s2 := if retried then (s2a.raise (1027 + 8 * i)).refreshBlock (d.link, d.die, d.block) else s2a
      let us := match r.confirmAt with | some t => (r.statusAt - t) / 1000 | none => 0
      let s3 := if r.reset then s2.resetEnd d.link d.die (result == 0)
        else if r.faultCode = 11 then s2.abortEnd r rebuilt
        else s2.deliverOp d result us rebuilt
      (s3.bind i).patchGo

/-! ### Flushes (R477) -/

/-- A flush begins: queued class 3 descriptors are reported INTERRUPTED, records whose die is array-busy with an erase get the attention. -/
def State.slvFlush (s : State) : State :=
  (List.range 64).foldl (fun t i =>
    let out := (t.sleeve i).queue.filter fun d => d.cls == 3
    let t1 := t.modSleeve i fun x => { x with queue := x.queue.filter fun d => d.cls != 3, recs := x.recs.map fun (r : OpRec) => if r.arrayBusy && r.desc.erases && !r.ended then { r with flushAtt := true } else r }
    out.foldl (fun u d => u.deliverOp d 2 0 true) t1) s

/-! ### Bypass (R489, R490) -/

/-- Bypass: nothing starts; records whose die is array-busy run on, every other one takes ABORT; queued descriptors are missing; source
1,030 + 8s. -/
def State.slvBypass (s : State) (i : Nat) : State :=
  let s1 := (s.wr (Reg.SLV_STATUS_BYPASSED i) 1).raise (1030 + 8 * i)
  let out := (s1.sleeve i).queue
  let s2 := s1.modSleeve i fun x => { x with queue := [] }
  let s3 := ((s2.sleeve i).recs.filter fun r => !r.arrayBusy).foldl (fun t r => t.pendFault i r.desc.id 11) s2
  out.foldl (fun t d => t.deliverOp d 1 0 true) s3

/-- Loads the images of a Sleeve in order into an empty store. -/
def loadImages (ms : List Micro) : SMap (Option CtlWord) :=
  ms.foldl (fun m x => releaseWords (writeWords x.ranges x.words m) x.release) []

/-- Return: the store from the images in force, every die NEEDS_RESET, source 1,030 + 8s. -/
def State.slvReturn (s : State) (i : Nat) : State :=
  let x := s.sleeve i
  let s1 := (s.setSleeve i { x with store := loadImages x.images, bad := [] }).showLive i
  let s2 := (List.range 8).foldl (fun t l => match groupOf t.image.cfg (8 * i + l) with
    | none => t
    | some g => (List.range (g.get 4)).foldl (fun u d => if u.ftl.absentDies.contains (8 * i + l, d) then u else u.dieNeedsReset (8 * i + l) d) t) s1
  (s2.wr (Reg.SLV_STATUS_BYPASSED i) 0).raise (1030 + 8 * i)

end Sys2Proof.Machine
end

