-- ==== Sys2Proof/Machine/Jalyen.lean ====
section
/-!
DEFINITION. Machine/Jalyen.lean: the physical and link layers of Jalyen links (14): states and training, flits received,
acknowledgement and replay, parking, fallback, margins, test and retirement.
-/
namespace Sys2Proof.Machine

/-- GT/s of a rate code. -/
def gtsOf (rate : Nat) : Nat := if rate = 0 then 16 else if rate = 1 then 8 else 4

/-- A flit in half nanoseconds (R515). -/
def flitHalfNs (rate : Nat) : Nat := if rate = 0 then 65 else if rate = 1 then 130 else 260

/-- A margin measurement ends early: DONE set, VALID clear (R528). -/
def State.marginAbort (s : State) (n : Nat) : State :=
  if (s.lnk n).margin.isSome then
    ((s.modLnk n fun x => { x with margin := none }).wr (Reg.JL_MARGIN_RES_DONE n) 1).wr (Reg.JL_MARGIN_RES_VALID n) 0
  else s

/-- The target rate (R507). -/
def State.targetRate (s : State) (n : Nat) : Nat :=
  let lim := max (match groupOf s.image.cfg n with | some g => g.get 3 | none => 2) (s.rd (Reg.JL_STATE_CEILING n))
  let partner := s.rd (Reg.JL_STATE_PARTNER_RATES n)
  ((List.range 3).find? fun c => lim ≤ c && partner.testBit (2 - c)).getD 2

/-! ### What the device sends in training (Tables 14.2 to 14.4) -/

def syncSet : List Byte := [0x00, 0xFF, 0, 0xFF, 0, 0xFF, 0, 0xFF, 0, 0xFF, 0, 0xFF, 0, 0xFF, 0, 0xFF]
def startSetBytes : List Byte := 0xE1 :: List.replicate 15 0x55
def parkSetBytes : List Byte := List.replicate 16 0x66

/-- The TS1 (`id` 0x1E) or TS2 (0x2D) of the device in the state a link is in. -/
def State.tsBytes (s : State) (n id : Nat) : List Byte :=
  let x := s.lnk n
  let st := s.jlState n
  let two := id = 0x2D
  let change := decide (two ∧ st = 3 ∧ s.jlRate n = 2 ∧ s.targetRate n < 2)
  let asks := decide (st = 4)
  let flags := bit change + 2 * bit (x.eq && !(st == 4 && x.sweepOk)) + 4 * bit (decide (st = 6)) + 8 * bit (decide (st = 9)) + 16 * bit asks + 32 * bit (decide (st = 6))
  let preset := if x.sweep < 16 then x.sweep / 2 else x.best.2.1
  let b := [id, 7, s.targetRate n, flags, s.rd (Reg.JL_EQ_TX_PRESET n) + (if asks then 16 * preset else 0), (if two then 96 else 0), (if two then 24 else 0), 1,
    (if two then 128 else 0), 0, 0, 0, 0, 0, 0].map (BitVec.ofNat 8)
  b ++ [b.foldl (fun a y => a ^^^ y) 0]

/-- The ordered sets a link sends over and over in a state of its training: SYNC and TS1, in CONFIG SYNC and TS2, as in RETRAIN after 8 valid TS1 (log
entry 26); those that begin a far-end loopback; none in a near-end one. -/
def State.showSets (s : State) (n : Nat) : State :=
  let st := s.jlState n
  let far := st == 9 && s.rd (Reg.JL_TEST_CTL_MODE n) == 2
  if st = 3 ∨ (st = 6 ∧ 8 ≤ (s.lnk n).tsRun) then s.modLnk n fun x => { x with wire := [setBlock syncSet, setBlock (s.tsBytes n 0x2D)] }
  else if st = 1 ∨ st = 2 ∨ st = 4 ∨ st = 6 ∨ far then s.modLnk n fun x => { x with wire := [setBlock syncSet, setBlock (s.tsBytes n 0x1E)] }
  else if st = 9 then s.modLnk n fun x => { x with wire := [] }
  else s

/-- A link enters a state: its state source is raised at a change (R537). -/
def State.setJl (s : State) (n st : Nat) : State :=
  let s1 := if s.jlState n = 5 ∧ st ≠ 5 then s.marginAbort n else s
  let s2 := s1.modLnk n fun x => { x with since := s.now, tsRun := 0, ts2Run := 0, scRun := 0 }
  (if s.jlState n = st then s2 else (s2.wr (Reg.JL_STATE_STATE n) st).raise (2 * n + 1)).showSets n

/-- Discards the buffers of a link and frees its tags. -/
def State.clearLink (s : State) (n : Nat) : State :=
  let s1 := s.modLnk n fun x =>
    { x with
      unacked := [], capq := [], dieLast := [], nakOut := false, replayRuns := 0, replayEnd := 0, rx0 := [], rx1 := [], inbox := [], tags := [],
      quarantined := [], parkAt := none, identAt := none, crLast := (0, 0), freed := (0, 0) }
  ((((s1.wr (Reg.JL_CREDIT_UNACKED n) 0).wr (Reg.JL_CREDIT_VC0_AVAIL n) 0).wr (Reg.JL_CREDIT_VC1_AVAIL n) 0).wr
    (Reg.JL_BRIDGE_STATUS_QUARANTINED n) 0)

/-- What a training from DETECT discards (15 R556): buffers, tags, latches, EPOCH counts; operations in flight take LINK. -/
def State.detectReset (s : State) (n : Nat) : State :=
  let s1 := (s.clearLink n).modLnk n fun x => { x with txSeq := 0, rxSeq := 0, acked := 511 }
  let s2 := (List.range 32).foldl (fun t d => t.modDie n d fun y => { y with ready := false, busy := false, epoch := 0 }) s1
  s2.faultLink n 6 true

/-- DETECT is entered again within a training. -/
def State.backToDetect (s : State) (n : Nat) : State :=
  ((s.modLnk n fun x => { x with eq := false, idleEnd := none, sweepOk := false }).setJl n 1 |>.wr (Reg.JL_STATE_RATE n) 2).wr (Reg.JL_STATE_BLOCK_LOCK n) 0

/-- A training from DETECT begins, with a window that ends at `window` (R510, R511). -/
def State.toDetect (s : State) (n window : Nat) (parked : Bool) : State :=
  let s1 := (s.detectReset n).modLnk n fun x => { x with trainAt := s.now, window := some window, full := true, parkedBefore := parked }
  s1.backToDetect n

/-- The rate ceiling falls by one rate (R506, R508, R531). -/
def State.lowerCeiling (s : State) (n : Nat) : State :=
  if s.rd (Reg.JL_STATE_CEILING n) < 2 then
    ((s.wr (Reg.JL_STATE_CEILING n) (s.rd (Reg.JL_STATE_CEILING n) + 1)).bump (Reg.JL_ERR_RETRAIN_FALLBACKS n)).raise (2 * n)
  else s

/-- DOWN (R511): buffers discarded, operations take LINK, members missing; the first entry since the link was last ACTIVE starts its time
DOWN (log entry 26). -/
def State.enterDown (s : State) (n cause : Nat) : State :=
  let x := s.lnk n
  let s1 := ((s.clearLink n).setJl n 8).wr (Reg.JL_STATE_RATE n) 3
  let s2 := ((s1.wr (Reg.JL_STATE_LAST_CAUSE n) cause).bump (Reg.JL_STATE_DOWN_ENTRIES n)).wr (Reg.JL_STATE_BLOCK_LOCK n) 0
  let fresh := x.downSince.isNone
  let s3 := s2.modLnk n fun y =>
    { y with
      window := none, downRetryAt := s.now + 1000000000,
      downSince := if fresh then some s.now else y.downSince,
      downs := if fresh then s.now :: (y.downs.filter fun t => s.now < t + 86400000000000) else y.downs }
  let s4 := (s3.faultLink n 6 true).raise (2 * n)
  if fresh then s4.membersLost n none s else s4

/-- A full retrain of a link from DETECT. -/
def State.fullRetrain (s : State) (n : Nat) (parked : Bool) : State :=
  (s.bump (Reg.JL_ERR_RETRAIN_FULL n)).toDetect n (s.now + 200000000) parked

/-- R531: at 4 GT/s DOWN with cause 4, above it a lower ceiling and a full retrain. -/
def State.rateFallback (s : State) (n : Nat) : State :=
  let s1 := s.modLnk n fun x => { x with crcTimes := [], retrains := [] }
  if s.jlRate n = 2 then s1.enterDown n 4
  else ((s1.lowerCeiling n).wr (Reg.JL_STATE_LAST_CAUSE n) 4).fullRetrain n false

/-- RETRAIN is entered (R521, R526, R538). Its causes of R500 and R521 raise the error source, and three within 60 s fall back. -/
def State.enterRetrain (s : State) (n cause : Nat) : State :=
  let s1 := ((s.setJl n 6).wr (Reg.JL_STATE_LAST_CAUSE n) cause).bump (Reg.JL_ERR_RETRAIN_FAST n)
  let counted := cause = 1 ∨ cause = 2 ∨ cause = 3 ∨ cause = 8
  let s2 := s1.modLnk n fun x =>
    { x with
      trainAt := s.now, full := false, resync := 2, nakOut := false, parkAt := none,
      retrains := if counted then s.now :: (x.retrains.filter fun t => s.now < t + 60000000000) else x.retrains }
  if counted then
    let s3 := s2.raise (2 * n)
    if 3 ≤ (s3.lnk n).retrains.length then s3.rateFallback n else s3
  else s2

/-- TS1 or TS2 sent since the state was entered: 130-bit blocks, every 32nd a SYNC. -/
def State.tsSent (s : State) (n : Nat) : Nat :=
  let blocks := (s.now - (s.lnk n).since) * gtsOf (s.jlRate n) / 130
  blocks - (blocks + 31) / 32

/-- A link that is on its way back into service (22 R735) enters it, HELD while its bridge is too hot (21 R722). -/
def State.returnDone (s : State) (n : Nat) : State :=
  if (s.lnk n).returning then
    let hot := (s.lnk n).hot
    (s.modLnk n fun x => { x with returning := false, heldFrom := if hot then 1 else x.heldFrom }).setLink n (if hot then 3 else 1)
  else s

/-- ACTIVE is entered (R513, R516; 15 R557, R564): after a training from DETECT that follows enumeration IDENTIFY goes first. -/
def State.toActive (s : State) (n resync : Nat) : State :=
  let x := s.lnk n
  let s1 := (s.setJl n 5).wr (Reg.JL_TRAIN_US_US n) ((s.now - x.trainAt) / 1000)
  let ident := x.full && s.rd (Reg.JL_BRIDGE_STATUS_ENUM_DONE n) == 1
  let s2 := s1.modLnk n fun y =>
    { y with
      scrTx := scrSeed, wire := [setBlock startSetBytes],
      ackAt := s.now, resync := resync, tempSeen := false, tempAt := if x.full then s.now else y.tempAt, downSince := none, window := none, full := false, lastRate := s.jlRate n,
      identAt := if ident then some s.now else none }
  let s3 := if ident then s2.mgmt n 1 [] else s2
  -- a populated link whose personality is usable enters service when its training completes (12 Table 12.2, 04 R136)
  let usable := match groupOf s.image.cfg n with | some g => !s.image.unusable.contains (0x10 + g.get 1) | none => false
  let s4 := if s3.linkState n = 0 && usable then s3.setLink n 1 else if x.returning && !ident then s3.returnDone n else s3
  s4.pump n

/-! ### Ordered sets (Tables 14.2, 14.3) -/

/-- A TS1 or TS2 whose CHECK holds. -/
def tsValid (id : Nat) (ts : List Byte) : Bool :=
  ts.length == 16 && byteAt ts 0 == id && (ts.take 15).foldl (fun a b => a ^^^ b) 0 == ts.getD 15 0

/-- JL_BLOCK_LOCK_ACQUIRE: the first SYNC. -/
def State.lockAcquire (s : State) (n : Nat) : State :=
  if s.jlState n = 1 then ((s.wr (Reg.JL_STATE_BLOCK_LOCK n) 1).modLnk n fun x => { x with eq := false }).setJl n 2
  else if 2 ≤ s.jlState n ∧ s.jlState n ≤ 6 then s.wr (Reg.JL_STATE_BLOCK_LOCK n) 1 else s

def execJlBlockLockAcquire (link : Fin 512) (s : State) : Host.Outcome State Fault Refusal :=
  .next (if s.mainUp then s.lockAcquire link.val else s)

/-- DETECT from within a training, or a training of its own where none has a window. -/
def State.failToDetect (s : State) (n : Nat) : State :=
  if (s.lnk n).window.isSome then s.backToDetect n else s.toDetect n (s.now + 200000000) false

/-- JL_BLOCK_LOCK_LOSS (R500). -/
def State.lockLoss (s : State) (n : Nat) : State :=
  let s1 := s.wr (Reg.JL_STATE_BLOCK_LOCK n) 0
  if s.jlState n = 5 then s1.enterRetrain n 2
  else if 2 ≤ s.jlState n ∧ s.jlState n ≤ 6 then s1.failToDetect n else s

def execJlBlockLockLoss (link : Fin 512) (s : State) : Host.Outcome State Fault Refusal :=
  .next (if s.mainUp then s.lockLoss link.val else s)

/-- TS1 (R504, R508, R509, R521): a valid one counts toward ALIGN and RETRAIN, carries the bridge's preset request in EQUALIZE, and takes an
ACTIVE link into RETRAIN. -/
def State.ts1 (s : State) (n : Nat) (ts : List Byte) : State :=
  if !tsValid 0x1E ts then s.modLnk n fun x => { x with tsRun := 0 }
  else
    let flags := byteAt ts 3
    let s1 := s.wr (Reg.JL_STATE_PARTNER_RATES n) (byteAt ts 1 % 8)
    let s2 := s1.modLnk n fun x => { x with tsRun := x.tsRun + 1 }
    match s.jlState n with
    | 2 =>
      if 8 ≤ (s2.lnk n).tsRun ∧ 16 ≤ s2.tsSent n then
        (if (s.lnk n).eq ∧ s.jlRate n < 2 then (s2.modLnk n fun x => { x with sweep := 0, best := (0, 0, 0, 0), sweepOk := false }).setJl n 4 else s2.setJl n 3)
      else s2
    | 4 =>
      let s3 := (if flags.testBit 4 then s2.wr (Reg.JL_EQ_TX_PRESET n) (byteAt ts 4 / 16 % 8) else s2).showSets n
      if (s.lnk n).sweepOk ∧ !flags.testBit 1 then s3.setJl n 3 else s3
    | 5 => s2.enterRetrain n 8
    | 6 => s2.showSets n
    | _ => s2

def execJlTs1 (link : Fin 512) (ts : Block) (s : State) : Host.Outcome State Fault Refusal :=
  .next (if s.mainUp && isSetBlock ts then s.ts1 link.val ts.bytes else s)

/-- TS2 (R502, R506, R524): the bridge's offer sets the credits and both sums; four with SPEED_CHANGE begin the speed change, eight end the
training. -/
def State.ts2 (s : State) (n : Nat) (ts : List Byte) : State :=
  if !tsValid 0x2D ts then s.modLnk n fun x => { x with ts2Run := 0, scRun := 0 }
  else if s.jlState n ≠ 3 ∧ s.jlState n ≠ 6 then s
  else
    let s1 := (s.wr (Reg.JL_STATE_PARTNER_RATES n) (byteAt ts 1 % 8)).wr (Reg.JL_PARTNER_REPLAY_DEPTH n) (byteAt ts 8)
    let s2 := ((s1.wr (Reg.JL_PARTNER_VERSION n) (byteAt ts 7)).wr (Reg.JL_PARTNER_VC0_CREDITS n) (byteAt ts 5 % 128)).wr
      (Reg.JL_PARTNER_VC1_CREDITS n) (byteAt ts 6 % 128)
    let s3 := (s2.setCredit n 0 (byteAt ts 5)).setCredit n 1 (byteAt ts 6)
    let sc := (byteAt ts 3).testBit 0
    let s4 := s3.modLnk n fun x => { x with crLast := (0, 0), freed := (0, 0), ts2Run := x.ts2Run + 1, scRun := if sc then x.scRun + 1 else 0 }
    let x := s4.lnk n
    let change := s.jlState n = 3 ∧ s.jlRate n = 2 ∧ s4.targetRate n < 2
    if change then
      (if 4 ≤ x.scRun ∧ 4 ≤ s4.tsSent n ∧ x.idleEnd.isNone then s4.modLnk n fun y => { y with idleEnd := some (s.now + 2000) } else s4)
    else if 8 ≤ x.ts2Run ∧ 16 ≤ s4.tsSent n then s4.toActive n 2
    else s4

def execJlTs2 (link : Fin 512) (ts : Block) (s : State) : Host.Outcome State Fault Refusal :=
  .next (if s.mainUp && isSetBlock ts then s.ts2 link.val ts.bytes else s)

/-- START: the flit stream begins after it; the receive scrambler is at its seed. -/
def State.startSet (s0 : State) (n : Nat) : State :=
  let s := s0.modLnk n fun x => { x with scrRx := scrSeed }
  if s.jlState n = 5 then (if (s.lnk n).resync = 2 then (s.modLnk n fun x => { x with resync := 1, tempSeen := false }).pump n else s)
  else if (s.jlState n = 3 ∨ s.jlState n = 6) ∧ 8 ≤ (s.lnk n).ts2Run then s.toActive n 1
  else s

def execJlStart (link : Fin 512) (s : State) : Host.Outcome State Fault Refusal := .next (if s.mainUp then s.startSet link.val else s)

/-! ### Parking (R525, R526) -/

/-- Nothing is in flight on a link. -/
def State.linkIdle (s : State) (n : Nat) : Bool :=
  let x := s.lnk n
  (s.linkRecs n).isEmpty && x.unacked.isEmpty && x.capq.isEmpty && x.inbox.isEmpty && x.rx0.isEmpty && x.rx1.isEmpty && x.tags.isEmpty

/-- The device sends PARK on an idle ACTIVE link. -/
def State.parkLink (s : State) (n : Nat) : State :=
  if s.jlActive n && s.linkIdle n && (s.lnk n).parkAt.isNone then
    s.modLnk n fun x => { x with parkAt := some s.now, wire := [setBlock parkSetBytes, setBlock parkSetBytes] } else s

/-- PARK twice from the bridge: both ends hold electrical idle; while parked `tempAt` holds the time counted toward R557. A recalibration goes on from its park. -/
def State.parked (s : State) (n : Nat) : State :=
  if s.jlActive n && (s.lnk n).parkAt.isSome then
    let s1 := (s.modLnk n fun x => { x with parkAt := none, tempAt := s.now - x.tempAt }).setJl n 7
    if (s.lnk n).recal then
      (((s1.modLnk n fun x => { x with recal := false }).wr (Reg.JL_STATE_CEILING n) 0).wr (Reg.JL_STATE_LAST_CAUSE n) 6).fullRetrain n true
    else s1
  else s

def execJlPark (link : Fin 512) (s : State) : Host.Outcome State Fault Refusal := .next (if s.mainUp then s.parked link.val else s)

/-- A parked link leaves its park. -/
def State.leavePark (s : State) (n : Nat) : State := if s.jlState n = 7 then (s.modLnk n fun x => { x with tempAt := s.now - x.tempAt }).enterRetrain n 9 else s

def execJlElectricalIdleExit (link : Fin 512) (s : State) : Host.Outcome State Fault Refusal :=
  .next (if s.mainUp then s.leavePark link.val else s)

/-- A recalibration (R530): the link parks first, as soon as nothing is in flight on it. -/
def State.recalLink (s : State) (n : Nat) : State :=
  if s.jlActive n then (s.modLnk n fun x => { x with recal := true }).parkLink n else s

/-- A recalibration waiting for its park goes on. -/
def State.recalGo (s : State) (n : Nat) : State := if (s.lnk n).recal then s.parkLink n else s

/-- A flush begins (R536): parked links leave their park; a full retrain at a rate trained before completes as a fast RETRAIN. -/
def State.jlFlush (s : State) : State :=
  (List.range 512).foldl (fun t n =>
    let x := t.lnk n
    if t.jlState n = 7 then t.leavePark n
    else if 1 ≤ t.jlState n ∧ t.jlState n ≤ 4 ∧ x.lastRate < 3 ∧ x.downSince.isNone then
      ((t.wr (Reg.JL_STATE_RATE n) x.lastRate).enterRetrain n 6).modLnk n fun y => { y with full := true, window := none }
    else t) s

/-! ### Limits and training (R504, R506, R508, R511, R512) -/

/-- JL_STATE_TIMEOUT: a state past its limit. -/
def State.jlTimeout (s : State) (n : Nat) : State :=
  let past (ns : Nat) : Bool := (s.lnk n).since + ns ≤ s.now
  match s.jlState n with
  | 2 => if past 2000000 then (if s.jlRate n < 2 then (s.lowerCeiling n).failToDetect n else s.failToDetect n) else s
  | 3 => if past 2000000 then (if s.jlRate n < 2 then (s.lowerCeiling n).failToDetect n else s.failToDetect n) else s
  | 4 => if past 24000000 then ((s.raise (2 * n)).lowerCeiling n).failToDetect n else s
  | 6 =>
    if past 100000 then
      (if s.jlRate n = 2 then s.enterDown n 7
       else ((s.modLnk n fun x => { x with sweep := 0, best := (0, 0, 0, 0), sweepOk := false, eq := true }).setJl n 4).wr (Reg.JL_STATE_LAST_CAUSE n) 7)
    else s
  | _ => s

def execJlStateTimeout (link : Fin 512) (s : State) : Host.Outcome State Fault Refusal :=
  .next (if s.mainUp then s.jlTimeout link.val else s)

/-- JL_EQUALIZE_STEP: a millisecond of the sweep. Even steps adapt, odd steps measure the eye at the preset in hand; the 16th concludes. -/
def State.eqStep (s : State) (n eyeW eyeH ctle dfe : Nat) : State :=
  let x := s.lnk n
  if s.jlState n ≠ 4 ∨ x.sweepOk ∨ 16 ≤ x.sweep ∨ s.now < x.since + (x.sweep + 1) * 1000000 then s
  else
    let best := if x.sweep % 2 = 1 ∧ x.best.1 < eyeW * eyeH then (eyeW * eyeH, x.sweep / 2, eyeW, eyeH) else x.best
    let s1 := s.modLnk n fun y => { y with sweep := y.sweep + 1, best := best }
    let s2 := if x.sweep % 2 = 0 then (s1.wr (Reg.JL_EQ_CTLE n) (min 31 ctle)).wr (Reg.JL_EQ_DFE1 n) dfe else s1
    if x.sweep ≠ 15 then s2.showSets n
    else
      let s3 := ((s2.wr (Reg.JL_EQ_PARTNER_PRESET n) best.2.1).wr (Reg.JL_EYE_EYE_W n) best.2.2.1).wr (Reg.JL_EYE_EYE_H n) best.2.2.2
      let s4 := (if s3.rd (Reg.JL_STATE_LAST_CAUSE n) = 6 then s3.histAdd 7 best.2.2.1 else s3).bump (Reg.JL_EYE_COUNT n)
      if 22 ≤ best.2.2.1 ∧ 25 ≤ best.2.2.2 then (s4.modLnk n fun y => { y with sweepOk := true }).showSets n
      else ((s4.raise (2 * n)).lowerCeiling n).failToDetect n

def execJlEqualizeStep (link : Fin 512) (eyeW eyeH ctle dfe : Fin 256) (s : State) : Host.Outcome State Fault Refusal :=
  .next (if s.mainUp then s.eqStep link.val eyeW.val eyeH.val ctle.val dfe.val else s)

/-- JL_SPEED_CHANGE_IDLE_END. -/
def State.speedChange (s : State) (n : Nat) : State :=
  match (s.lnk n).idleEnd with
  | none => s
  | some t =>
    if s.now < t ∨ s.jlState n ≠ 3 then s
    else ((s.modLnk n fun x => { x with idleEnd := none, eq := true }).wr (Reg.JL_STATE_RATE n) (s.targetRate n)).setJl n 2

def execJlSpeedChangeIdleEnd (link : Fin 512) (s : State) : Host.Outcome State Fault Refusal :=
  .next (if s.mainUp then s.speedChange link.val else s)

/-- JL_TRAINING_WINDOW_EXPIRY. -/
def State.windowEnd (s : State) (n : Nat) : State :=
  match (s.lnk n).window with
  | none => s
  | some t => if s.now < t ∨ s.jlActive n then s else s.enterDown n 7

def execJlTrainingWindowExpiry (link : Fin 512) (s : State) : Host.Outcome State Fault Refusal :=
  .next (if s.mainUp then (s.windowEnd link.val).settleDma else s)

/-- JL_DOWN_RETRY. -/
def State.downRetry (s : State) (n : Nat) : State :=
  if s.jlState n = 8 ∧ (s.lnk n).downRetryAt ≤ s.now then s.toDetect n (s.now + 200000000) false else s

def execJlDownRetry (link : Fin 512) (s : State) : Host.Outcome State Fault Refusal := .next (if s.mainUp then s.downRetry link.val else s)

/-- A link is retired (R534): buffers discarded, operations take LINK, SerDes down; members gone for good, a rebuild follows. -/
def State.retireLink (s : State) (n cause : Nat) : State :=
  let s1 := (((s.clearLink n).faultLink n 6 false).setJl n 10).wr (Reg.JL_STATE_RATE n) 3
  let s2 := (s1.setLink n 6).modLnk n fun x => { x with window := none, downSince := none }
  ((s2.record 0x0C 2 [n, cause]).membersLost n none s).startRebuild

/-- JL_DOWN_RETIRE (R512). -/
def State.downRetire (s : State) (n : Nat) : State :=
  let x := s.lnk n
  let long := match x.downSince with | some t => decide (t + 60000000000 ≤ s.now) | none => false
  let often := 8 ≤ (x.downs.filter fun t => s.now < t + 86400000000000).length
  if s.linkState n = 6 ∨ !(long || often) then s else s.retireLink n (s.rd (Reg.JL_STATE_LAST_CAUSE n))

def execJlDownRetire (link : Fin 512) (s : State) : Host.Outcome State Fault Refusal :=
  .next (if s.mainUp then (s.downRetire link.val).settleDma else s)

/-! ### Flits received (R513 to R524, R541) -/

/-- LEN is in range for a capsule type the device accepts (15 Table 15.2); a MGMT_RESP other than OK may carry nothing. -/
def capsuleOk (ty len mop status : Nat) : Bool :=
  match ty with
  | 0x41 => 1 ≤ len && len ≤ 4096
  | 0x42 => len == 0
  | 0x43 => len % 2 == 0 && 2 ≤ len && len ≤ 64
  | 0x44 => len == 0
  | 0x45 => len == 0
  | 0x46 => (mop == 1 && len == 256) || (mop == 2 && len == 0) || (mop == 3 && len == 2) || (status != 0 && len == 0)
  | _ => false

/-- Cuts a channel's bytes into capsules: what is left over, whole capsules, whether a framing error was met. A 0x00 where a capsule would
begin ends it. -/
def cutCapsules : Nat → List Byte → List (List Byte) → List Byte × List (List Byte) × Bool
  | 0, b, acc => (b, acc, false)
  | fuel + 1, b, acc =>
    if b.isEmpty || byteAt b 0 == 0 then ([], acc, false)
    else if b.length < 8 then (b, acc, false)
    else
      let len := leAt b 2 2
      if !capsuleOk (byteAt b 0) len (byteAt b 5) (byteAt b 6) then ([], acc, true)
      else if b.length < 8 + len then (b, acc, false)
      else cutCapsules fuel (b.drop (8 + len)) (acc ++ [b.take (8 + len)])

/-- Replays from the oldest unacknowledged flit (R520); the fourth in a row with the same SEQ is RETRAIN. -/
def State.replay (s : State) (n : Nat) : State :=
  let x := s.lnk n
  match x.unacked with
  | [] => s
  | f :: _ =>
    let runs := if x.replayRuns ≠ 0 ∧ x.replaySeq = f.seq then x.replayRuns + 1 else 1
    let s1 := (s.bump (Reg.JL_ERR_REPLAY_REPLAYS n)).modLnk n fun y =>
      { y with
        replaySeq := f.seq, replayRuns := runs, ackAt := s.now, replayEnd := s.now + (x.unacked.length * flitHalfNs (s.jlRate n) + 1) / 2 }
    if 4 ≤ runs then (s1.modLnk n fun y => { y with replayRuns := 0 }).enterRetrain n 1
    else x.unacked.foldl (fun t u => t.putFlit n 1 u.seq u.vc false u.payload) s1

/-- Members every flit of which the link layer has carried: the stripe buffer needs them no more (01 R22). -/
def State.membersAcked (s : State) (l : List (Nat × Nat × Nat)) : State :=
  l.foldl (fun t e => t.modStripe e.1 fun st => { st with acked := if st.acked.contains e.2 then st.acked else st.acked ++ [e.2] }) s

/-- Takes an ACK: flits it covers are released. -/
def State.takeAck (s : State) (n k : Nat) : State :=
  if k = 0 then s
  else
    let gone := (s.lnk n).unacked.take k
    let s1 := s.modLnk n fun x =>
      { x with
        unacked := x.unacked.drop k, acked := (x.acked + k) % 512, ackAt := s.now, replayRuns := 0,
        dieLast := x.dieLast.map fun (e : Nat × Option (Nat × Nat)) => match e.2 with
          | some (vc, q) => if gone.any fun f => f.seq == q then (e.1, some (vc, 512)) else e
          | none => e }
    (s1.wr (Reg.JL_CREDIT_UNACKED n) (min 255 (s1.lnk n).unacked.length)).membersAcked (gone.flatMap fun f => f.ends)

/-- Takes a credit return: the increase of the sum modulo 128. -/
def State.takeCredit (s : State) (n vc sum : Nat) : State :=
  let l := (s.lnk n).crLast
  let inc := (sum + 128 - (if vc = 1 then l.2 else l.1)) % 128
  (s.setCredit n vc (s.credit n vc + inc)).modLnk n fun x => { x with crLast := if vc = 1 then (l.1, sum) else (sum, l.2) }

/-- Sends a NAK unless one is outstanding. -/
def State.sendNak (s : State) (n : Nat) : State :=
  if (s.lnk n).nakOut then s else ((s.modLnk n fun x => { x with nakOut := true }).bump (Reg.JL_ERR_REPLAY_NAKS n)).idleFlit n true

/-- A flit that fails its CRC. -/
def State.badFlit (s : State) (n : Nat) : State :=
  let s1 := (s.bump (Reg.JL_ERR_CRC_COUNT n)).modLnk n fun x => { x with crcTimes := s.now :: (x.crcTimes.filter fun t => s.now < t + 1000000000) }
  if 1000 < (s1.lnk n).crcTimes.length then s1.rateFallback n else s1.sendNak n

/-- Bytes of an accepted DATA flit enter their channel's stream; the buffer they held is free again at once. A framing error starts a
training from DETECT (R541). -/
def State.feed (s : State) (n vc : Nat) (payload : List Byte) : State :=
  let x := s.lnk n
  let old := if vc = 1 then x.rx1 else x.rx0
  let r := cutCapsules 64 (old ++ payload) []
  let s1 := s.modLnk n fun y =>
    { y with
      rx0 := if vc = 1 then y.rx0 else r.1, rx1 := if vc = 1 then r.1 else y.rx1, inbox := y.inbox ++ r.2.1,
      freed := if vc = 1 then (y.freed.1, (y.freed.2 + 1) % 128) else ((y.freed.1 + 1) % 128, y.freed.2) }
  if r.2.2 then (s1.raise (2 * n)).fullRetrain n false else s1

/-- A flit received. -/
def State.flitIn (s : State) (n : Nat) (f : List Byte) : State :=
  let x := s.lnk n
  if !s.jlActive n || x.resync == 2 || f.length != 64 then s
  else if crc32c (f.take 60) != leAt f 60 4 then s.badFlit n
  else
    let h := leAt f 0 4
    let kind := h / 2 ^ 28 % 4
    let seq := h % 512
    let ack := h / 2 ^ 9 % 512
    let acks := (ack + 512 - x.acked) % 512
    if 2 ≤ kind ∨ 2 ^ 30 ≤ h then s.enterRetrain n 3
    else if x.unacked.length < acks then s.enterRetrain n 3
    else
      let vc := h / 2 ^ 27 % 2
      let s1 := (s.takeAck n acks).takeCredit n (h / 2 ^ 19 % 2) (h / 2 ^ 20 % 128)
      let s2 := s1.modLnk n fun y => { y with resync := 0 }
      -- after START each end replays from the ACK of its partner's first flit; a NAK during a replay names no earlier point (R520, R522)
      let s3 := if x.resync = 1 then s2.replay n
        else if h.testBit 18 ∧ (s2.lnk n).replayEnd ≤ s.now then s2.replay n else s2
      let s4 := if !s3.jlActive n then s3
        else if kind = 0 then s3
        else if seq = x.rxSeq then ((s3.modLnk n fun y => { y with rxSeq := (seq + 1) % 512, nakOut := false, parkAt := none }).feed n vc (slice f 4 56))
        else if (x.rxSeq + 512 - seq) % 512 ≤ 256 then s3
        else s3.sendNak n
      let s5 := s4.pump n
      (if s5.jlActive n && (s5.lnk n).txSeq == x.txSeq then s5.idleFlit n false else s5).recalGo n

/-- JL_FLIT_RECEIVE: four data blocks of an ACTIVE link whose bridge has sent START are a flit, descrambled (R499, R513). -/
def State.flitBlocksIn (s : State) (n : Nat) (l : List Block) : State :=
  let x := s.lnk n
  if !s.jlActive n || x.resync == 2 || l.length != 4 || !(l.all fun b => !isSetBlock b && b.bytes.length == 16) then s
  else
    let r := blocksFlit x.scrRx l
    let s1 := s.modLnk n fun y => { y with scrRx := r.2 }
    -- a block whose sync header is 00 or 11 is none of the flit's: the flit is not intact
    if l.all isDataBlock then s1.flitIn n r.1 else s1.badFlit n

def execJlFlitReceive (link : Fin 512) (flit : List Block) (s : State) : Host.Outcome State Fault Refusal :=
  .next (if s.mainUp then s.flitBlocksIn link.val flit else s)

/-- JL_REPLAY_TIMEOUT: no ACK progress for 2, 3 or 5 µs. -/
def State.replayTimeout (s : State) (n : Nat) : State :=
  let lim := if s.jlRate n = 0 then 2000 else if s.jlRate n = 1 then 3000 else 5000
  if s.jlActive n && !(s.lnk n).unacked.isEmpty && (s.lnk n).ackAt + lim ≤ s.now then s.replay n else s

def execJlReplayTimeout (link : Fin 512) (s : State) : Host.Outcome State Fault Refusal :=
  .next (if s.mainUp then s.replayTimeout link.val else s)

/-! ### Registers written (Table 14.11) -/

/-- JL_CTL_RETRAIN. -/
def execJlCtlRetrain (_agent : Fin 8) (link : Fin 512) (s : State) : Host.Outcome State Fault Refusal :=
  .next (if s.mainUp && s.jlActive link.val then s.enterRetrain link.val 5 else s)

/-- JL_CTL_RETRAIN_FULL. -/
def execJlCtlRetrainFull (_agent : Fin 8) (link : Fin 512) (s : State) : Host.Outcome State Fault Refusal :=
  .next (if s.mainUp && s.jlActive link.val then (s.wr (Reg.JL_STATE_LAST_CAUSE link.val) 5).fullRetrain link.val false else s)

/-- A two's complement byte stored as the nearer end of a range. -/
def clampByte (v : Nat) (lo hi : Int) : Nat := let i := signed 8 v; toCode 8 (max lo (min hi i))

/-- The fields of JL_MARGIN_CTL that are stored. -/
def State.marginStore (s : State) (n : Nat) (data : Word) : State :=
  ((s.wr (Reg.JL_MARGIN_CTL_DWELL_LOG2 n) (max 16 (min 36 (bitsOf data 24 6)))).wr (Reg.JL_MARGIN_CTL_V_OFFSET n) (clampByte (bitsOf data 16 8) (-100) 100)).wr
    (Reg.JL_MARGIN_CTL_T_OFFSET n) (clampByte (bitsOf data 8 8) (-32) 31)

/-- JL_MARGIN_START: a measurement begins on an ACTIVE link. -/
def State.marginStart (s : State) (n : Nat) (data : Word) : State :=
  let s1 := s.marginStore n data
  if s1.jlActive n then (s1.modLnk n fun x => { x with margin := some s.now }).setReg (Reg.JL_MARGIN_RES n) 0 else s1

def execJlMarginStart (_agent : Fin 8) (link : Fin 512) (data : Word) (s : State) : Host.Outcome State Fault Refusal :=
  .next (if s.mainUp then s.marginStart link.val data else s)

def execJlMarginAbort (_agent : Fin 8) (link : Fin 512) (data : Word) (s : State) : Host.Outcome State Fault Refusal :=
  .next (if s.mainUp then (s.marginStore link.val data).marginAbort link.val else s)

/-- JL_MARGIN_DONE: 2^DWELL_LOG2 bits have passed. -/
def State.marginDone (s : State) (n errors : Nat) : State :=
  match (s.lnk n).margin with
  | none => s
  | some t =>
    if s.now * gtsOf (s.jlRate n) < t * gtsOf (s.jlRate n) + 2 ^ s.rd (Reg.JL_MARGIN_CTL_DWELL_LOG2 n) then s
    else (((s.modLnk n fun x => { x with margin := none }).wr (Reg.JL_MARGIN_RES_DONE n) 1).wr (Reg.JL_MARGIN_RES_VALID n) 1).wr
      (Reg.JL_MARGIN_RES_ERRORS n) (min (2 ^ 30 - 1) errors)

def execJlMarginDone (link : Fin 512) (errors : Nat) (s : State) : Host.Outcome State Fault Refusal :=
  .next (if s.mainUp then s.marginDone link.val errors else s)

/-- RATE and MODE of JL_TEST_CTL as stored. -/
def State.testStore (s : State) (n : Nat) (data : Word) : State :=
  (s.wr (Reg.JL_TEST_CTL_RATE n) (min 2 (bitsOf data 8 2))).wr (Reg.JL_TEST_CTL_MODE n) (if bitsOf data 0 3 ≤ 2 then bitsOf data 0 3 else 0)

/-- JL_TEST_START (R532). -/
def State.testStart (s : State) (n : Nat) (data : Word) : State :=
  let s1 := s.testStore n data
  if s1.linkState n = 4 ∧ s1.jlActive n ∧ (s1.linkRecs n).isEmpty ∧ s1.rd (Reg.JL_TEST_CTL_MODE n) ≠ 0 then
    ((s1.setJl n 9).wr (Reg.JL_STATE_RATE n) (s1.rd (Reg.JL_TEST_CTL_RATE n))).setReg (Reg.JL_TEST_RES n) (BitVec.ofNat 32 (2 ^ 31))
  else s1

def execJlTestStart (_agent : Fin 8) (link : Fin 512) (data : Word) (s : State) : Host.Outcome State Fault Refusal :=
  .next (if s.mainUp then s.testStart link.val data else s)

/-- JL_TEST_STOP (R533): `locked` and `errors` are what the checker came to; the link trains from DETECT. -/
def State.testStop (s : State) (n : Nat) (data : Word) (locked : Bool) (errors : Nat) : State :=
  let s1 := s.testStore n data
  if s1.jlState n = 9 then
    let s2 := ((s1.wr (Reg.JL_TEST_RES_RUNNING n) 0).wr (Reg.JL_TEST_RES_LOCK n) (bit locked)).wr (Reg.JL_TEST_RES_ERRORS n) (if locked then min (2 ^ 30 - 1) errors else 0)
    s2.toDetect n (s.now + 200000000) false
  else s1

def execJlTestStop (_agent : Fin 8) (link : Fin 512) (data : Word) (locked : Bool) (errors : Nat) (s : State) : Host.Outcome State Fault Refusal :=
  .next (if s.mainUp then s.testStop link.val data locked errors else s)

/-! ### A die at enumeration (15 R561) -/

/-- A die found absent at enumeration. -/
def State.enumAbsent (s : State) (n d : Nat) : State :=
  if s.ftl.absentDies.contains (n, d) then s else s.modFtl fun f => { f with absentDies := f.absentDies ++ [(n, d)] }

/-- A die found present. -/
def State.enumPresent (s : State) (n d : Nat) : State :=
  s.setReg (Reg.JL_DIE_PRESENT n) (s.reg (Reg.JL_DIE_PRESENT n) ||| BitVec.ofNat 32 (2 ^ d))

/-- Enumeration of a link has ended once no die is pending. -/
def State.enumDone (s : State) (n : Nat) : State := if (s.lnk n).enumPending.isEmpty then s.wr (Reg.JL_BRIDGE_STATUS_ENUM_DONE n) 1 else s

/-- The steps of R561 have ended for a die: present or absent. -/
def State.enumDie (s : State) (n d : Nat) (present : Bool) : State :=
  if !(s.lnk n).enumPending.contains d then s
  else
    let s1 := s.modLnk n fun x => { x with enumPending := x.enumPending.filter fun k => k != d }
    ((if present then s1.enumPresent n d else s1.enumAbsent n d).raiseIf present (2 * n + 1)).enumDone n

end Sys2Proof.Machine
end

