-- ==== Sys2Proof/Machine/Words.lean ====
section
/-!
DEFINITION. Machine/Words.lean: what a Sleeve's sequencer issues and what each control word does (13 R464 to R472, R475 to R481, 15 R545),
the timers, and the start and end of operations.
-/
namespace Sys2Proof.Machine

/-! ### Issue (R466 to R468) -/

/-- Taps of a request: `kind` 0 raw, 1 image, 2 soft strobe, 3 status. A record goes on only when the raw, strobe or status reply it asked
for has come (log entry 25). -/
def State.replyOut (s : State) (r : OpRec) : Bool :=
  (s.lnk r.desc.link).tags.any fun g => g.op == r.desc.id && (g.kind == 0 || g.kind == 2 || g.kind == 3)

/-- The word at a record's program counter, where it is live and readable. -/
def Sleeve.fetch (x : Sleeve) (r : OpRec) : Option CtlWord := if x.bad.contains r.pc then none else mapGet (fun _ => none) x.store r.pc

/-- The channel a word's capsules travel on (R542). -/
def CtlWord.vc (w : CtlWord) (cls : Nat) : Nat := if w.op = 5 then 1 else classVc cls

/-- A word stalls: it sends cycles, and its link is not ACTIVE, has no credit, or has no tag for its reply. -/
def State.stalled (s : State) (r : OpRec) (w : CtlWord) : Bool :=
  let n := r.desc.link
  w.sends && (!s.jlActive n || (s.lnk n).resync == 2 || (s.lnk n).identAt.isSome || s.credit n (w.vc r.desc.cls) == 0 ||
    ((w.op == 4 || w.op == 5) && (s.lnk n).freeTag.isNone))

/-- A bound record whose CYC has elapsed and whose word does not stall. -/
def State.mayIssue (s : State) (i : Nat) (r : OpRec) : Bool :=
  r.ctx.isSome && r.ready && r.readyAt ≤ 4 * s.now && !s.replyOut r && (match (s.sleeve i).fetch r with | some w => !s.stalled r w | none => true)

/-- The record whose word issues next: the highest class, then links in turn, then contexts in turn. -/
def State.nextIssue (s : State) (i : Nat) : Option OpRec :=
  let x := s.sleeve i
  let key (r : OpRec) : Nat := r.desc.cls * 1024 + ((r.desc.link % 8 + 7 - x.lastLink) % 8) * 64 + (r.ctx.getD 0 + 63 - x.lastCtx) % 64
  (sortByKey key (x.recs.filter fun r => s.mayIssue i r)).head?

/-- A word issues: the program counter, CYC, the rotation, and its WFLAGS. -/
def State.issued (s : State) (i : Nat) (r : OpRec) (w : CtlWord) : State :=
  let s1 := s.modSleeve i fun x => { x with lastLink := r.desc.link % 8, lastCtx := r.ctx.getD 0 }
  let s2 := s1.modRec i r.desc.id fun x => { x with pc := (r.pc + 1) % 8192, readyAt := 4 * s.now + 5 * w.cyc }
  let s3 := if w.arraySet then s2.modRec i r.desc.id fun x =>
      { x with
        arrayBusy := true, begun := s.now, confirmAt := if x.confirmAt.isSome then x.confirmAt else some s.now, suspended := false, wdogPaused := false,
        wdogFrom := if x.wdogPaused then s.now else x.wdogFrom }
    else if w.arrayClr then s2.modRec i r.desc.id fun x => { x with arrayBusy := false } else s2
  if w.clrEdge then s3.modDie r.desc.link r.desc.die fun d => { d with ready := false, busy := false, epoch := if w.sends then (d.epoch + 1) % 256 else d.epoch }
  else s3

/-- A fault a word raises: taken at the boundary after it, its address the word's. -/
def State.wordFault (s : State) (i : Nat) (r : OpRec) (code : Nat) : State := s.takeFault i r.desc.id code r.pc

/-- The next word of a Sleeve issues where it is a legal word of this opcode and variant (16: of every variant). -/
def State.issue (s : State) (i op sub : Nat) (f : State → OpRec → CtlWord → State) : State :=
  if !s.mainUp then s
  else match s.nextIssue i with
    | none => s
    | some r => match (s.sleeve i).fetch r with
      | none => s
      | some w => if w.legal && w.op == op && (sub == 16 || w.subop == sub) then f (s.issued i r w) r w else s

/-- ILLEGAL_WORD: the next word is not live, or illegal, or (`ecc` 2) has an uncorrectable error; `ecc` 1: a corrected one. -/
def State.illegalWord (s : State) (i ecc : Nat) : State :=
  if !s.mainUp then s
  else match s.nextIssue i with
    | none => s
    | some r =>
      if ecc = 1 then (s.bump (Reg.SLV_COUNT_ECC_COUNT i)).raise (1028 + 8 * i)
      else
        let s1 := if ecc = 2 ∧ !(s.sleeve i).bad.contains r.pc then s.modSleeve i fun x => { x with bad := x.bad ++ [r.pc] } else s
        if (s1.sleeve i).bad.contains r.pc then s1.wordFault i r 2
        else match (s1.sleeve i).fetch r with
          | none => s1.wordFault i r 3
          | some w => if w.legal then s1 else s1.wordFault i r 1

def execIllegalWord (sleeve : Fin 64) (ecc : Fin 3) (s : State) : Host.Outcome State Fault Refusal := .next (s.illegalWord sleeve.val ecc.val)

/-! ### Words that send cycles (15 Table 15.3) -/

/-- Sends a die capsule of a record. -/
def State.dieCapFor (s : State) (r : OpRec) (w : CtlWord) (ty flags : Nat) (payload : List Byte) (member : Option (Nat × Nat × Nat)) : State :=
  s.sendCapFor r.desc.link (some r.desc.die) (w.vc r.desc.cls) (capsule ty flags (dieArgs r.desc.die w.cyc) payload) member

def State.dieCap (s : State) (r : OpRec) (w : CtlWord) (ty flags : Nat) (payload : List Byte) : State := s.dieCapFor r w ty flags payload none

def CtlWord.edgeFlag (w : CtlWord) : Nat := bit w.clrEdge

/-- Bytes 0 to 3 of SA, then of SB. -/
def regBytes (r : OpRec) (w : CtlWord) : List Byte := leBytes 4 (r.v w.sa).toNat ++ leBytes 4 (r.v w.sb).toNat

def immBytes (w : CtlWord) (n : Nat) : List Byte := (List.range n).map w.immByte

/-- DATA_OUT capsules of at most 4,096 bytes: FIRST on the first, LAST on the last; `member`: the member of a row whose image they end. -/
def State.dataOutFor (s : State) (r : OpRec) (w : CtlWord) (bytes : List Byte) (member : Option (Nat × Nat × Nat)) : State :=
  let n := ceilDiv bytes.length 4096
  (List.range n).foldl (fun t k =>
    t.dieCapFor r w 0x02 ((if k = 0 then w.edgeFlag + 4 else 0) + (if k + 1 = n then 8 else 0)) (slice bytes (4096 * k) 4096)
      (if k + 1 = n then member else none)) s

def State.dataOut (s : State) (r : OpRec) (w : CtlWord) (bytes : List Byte) : State := s.dataOutFor r w bytes none

/-- A request with a tag. -/
def State.dieReq (s : State) (r : OpRec) (w : CtlWord) (kind count dst : Nat) (payload : Nat → List Byte) (ty : Nat) : State :=
  match (s.lnk r.desc.link).freeTag with
  | none => s
  | some t => (s.addTag r.desc.link ⟨t, r.desc.die, r.desc.id, kind, count, 0, dst, false, s.now⟩).dieCap r w ty w.edgeFlag (payload t)

/-- DATA_IN_REQ. -/
def State.dataInReq (s : State) (r : OpRec) (w : CtlWord) (kind count dst : Nat) : State :=
  s.dieReq r w kind count dst (fun t => leBytes 2 count ++ leBytes 1 t ++ leBytes 1 0) 0x03

def State.scratchByte (s : State) (i a : Nat) : Byte := mapGet (fun _ => 0) (s.sleeve i).scratch a
def State.setScratch (s : State) (i a : Nat) (b : List Byte) : State :=
  s.modSleeve i fun x => { x with scratch := (List.range b.length).foldl (fun m k => mapSet (fun _ => 0) m (a + k) (b.getD k 0)) x.scratch }

/-- Bytes of scratch, 16,384 in all. -/
def inScratch (a n : Nat) : Bool := a + n ≤ 16384

def State.cmdWord (i : Nat) (t : State) (r : OpRec) (w : CtlWord) : State :=
  let _ := i
  t.dieCap r w 0x01 w.edgeFlag (immBytes w (w.aux % 16))

def State.addrWord (t : State) (r : OpRec) (w : CtlWord) : State :=
  let n := w.aux % 16
  t.dieCap r w 0x01 (w.edgeFlag + 2) (if w.aux.testBit 4 then (regBytes r w).take n else immBytes w n)

def State.doutRaw (i : Nat) (t : State) (r : OpRec) (w : CtlWord) : State :=
  let a := (r.v w.sa).toNat
  if inScratch a w.aux then t.dataOut r w ((List.range w.aux).map fun k => t.scratchByte i (a + k)) else t.wordFault i r 9

/-- How a sector is stored: its payload encrypted (in clear without user data), its envelope. -/
def State.sealedSector (s : State) (x : Sector) : List Byte × List Byte :=
  let k := s.keySlot x.slot
  let pay := if x.nsid = 0 then x.payload else Config.gcmCipher k.key (gcmIv k.salt x.seq) (envAad x) x.payload
  (pay, envelope k.key k.salt x)

/-- The page image of a plane before its parity. -/
def State.plainImage (s : State) (d : OpDesc) (plane k : Nat) : Byte :=
  match d.why with
  | .program st row m => match s.stripe st with
    | some x => match s.band x.band with
      | some b => s.memberByte b x row m plane k s.sealedSector
      | none => Config.otherImage d.id plane k
    | none => Config.otherImage d.id plane k
  | _ => Config.otherImage d.id plane k

/-- What DOUT IMAGE sends for a plane: payloads, envelopes, the LDPC parities, zeros to the end of SPARE_BYTES (R478). -/
def State.pageImage (s : State) (d : OpDesc) (plane : Nat) : List Byte :=
  let p := s.opPers d.link
  let page := p.get 0x14
  let n := pageSectors p
  let body := (List.range (page + 48 * n)).map fun k => s.plainImage d plane k
  let par := (List.range n).flatMap fun q => padTo (ldpcParity p) (Config.ldpcParity (ptField p 2 0 3 3) (slice body (4096 * q) 4096 ++ slice body (page + 48 * q) 48))
  (padTo (page + p.get 0x18) (body ++ par)).take (page + p.get 0x18)

/-- The member of a row whose image is complete once a plane more is sent. -/
def OpRec.memberDone (r : OpRec) (plane : Nat) : Option (Nat × Nat × Nat) :=
  match r.desc.why with
  | .program st row m => if (List.range 8).all fun p => !r.desc.planes.testBit p || p == plane || r.planesOut.contains p then some (st, row, m) else none
  | _ => none

/-- DOUT IMAGE: the page image of a plane. -/
def State.doutImage (t : State) (r : OpRec) (w : CtlWord) : State :=
  let plane := (r.v w.sa).toNat
  (t.modRec (r.desc.link / 8) r.desc.id fun x => { x with planesOut := plane :: x.planesOut }).dataOutFor r w (t.pageImage r.desc plane) (r.memberDone plane)

def State.dinRaw (i : Nat) (t : State) (r : OpRec) (w : CtlWord) : State :=
  let a := (r.v w.sa).toNat
  if inScratch a w.aux && 1 ≤ w.aux && w.aux ≤ 65535 then t.dataInReq r w 0 w.aux a else t.wordFault i r 9

/-- The sectors an operation's V4 asks for, in each plane of its mask: (plane, sector). -/
def OpRec.requested (r : OpRec) : List (Nat × Nat) :=
  ((List.range 8).filter fun p => r.desc.planes.testBit p).flatMap fun p =>
    (List.range (bitsOf (r.v 4) 8 8)).map fun k => (p, bitsOf (r.v 4) 0 8 + k)

def OpRec.undecoded (r : OpRec) : List (Nat × Nat) := r.requested.filter fun x => !r.decoded.contains x

/-- Bytes of a plane's page with its spare area. -/
def State.imageLen (s : State) (n : Nat) : Nat := let p := s.opPers n; p.get 0x14 + p.get 0x18

/-- DIN IMAGE (R479, R480): a retry where it is not the first; past RETRY_STEPS, RANGE. -/
def State.dinImage (i : Nat) (t : State) (r : OpRec) (w : CtlWord) : State :=
  let plane := (r.v w.sa).toNat
  if (t.opPers r.desc.link).get 0x2E < r.dins then t.wordFault i r 9
  else
    let s1 := if r.dins = 0 then t else t.bump (Reg.SLV_COUNT_RETRY_COUNT i)
    let s2 := s1.modRec i r.desc.id fun x => { x with dins := x.dins + 1, decoding := x.decoding ++ [(false, r.undecoded.filter fun q => q.1 == plane)] }
    s2.dataInReq r w 1 (t.imageLen r.desc.link) plane

/-- DIN SOFT: strobe 1 or 2; past SOFT_READS, RANGE. -/
def State.dinSoft (i : Nat) (t : State) (r : OpRec) (w : CtlWord) : State :=
  if softReads (t.opPers r.desc.link) ≤ r.strobes.length then t.wordFault i r 9
  else (t.modRec i r.desc.id fun x => { x with strobes := x.strobes ++ [w.imm % 4] }).dataInReq r w 2 (t.imageLen r.desc.link) (r.v w.sa).toNat

/-- STATUS: the byte comes to DST with its STATUS_RESP. -/
def State.statusWordIssue (t : State) (r : OpRec) (w : CtlWord) : State :=
  t.dieReq r w 3 1 w.dst (fun g => [w.immByte 0] ++ leBytes 1 (bit (w.subop == 0)) ++ leBytes 1 g ++ leBytes 1 0) 0x04

/-! ### WAIT, timers (R469, R471) -/

/-- WAIT: the record leaves its context; under a crossover it crosses here. -/
def State.waitWord (i : Nat) (t : State) (r : OpRec) (w : CtlWord) : State :=
  let s1 := t.modRec i r.desc.id fun x => { x with wait := some (w.aux % 32, w.wflags), ctx := none }
  ((s1.crossRec i r.desc.id).bind i).patchGo

def State.armWatchdog (i : Nat) (t : State) (r : OpRec) (w : CtlWord) : State :=
  let p := t.opPers r.desc.link
  let us := match w.imm % 4 with
    | 0 => p.get 0x28
    | 1 => p.get 0x24
    | 2 => p.get 0x26
    | _ => w.aux
  t.modRec i r.desc.id fun x => { x with wdogOn := true, wdogLeft := 1000 * us, wdogFrom := t.now }

def State.stopWatchdog (i : Nat) (t : State) (r : OpRec) : State := t.modRec i r.desc.id fun x => { x with wdogOn := false, wdogLeft := 0 }

def State.armPoll (i : Nat) (t : State) (r : OpRec) (w : CtlWord) : State :=
  t.modRec i r.desc.id fun x => { x with pollAt := some (t.now + 100 * w.aux), pollDone := false }

/-! ### Arithmetic (Table 13.4; log entry 30) -/

/-- A result goes to a register with its flags. -/
def State.aluTo (i : Nat) (t : State) (r : OpRec) (w : CtlWord) (res : Word) (carry write : Bool) : State :=
  t.modRec i r.desc.id fun x =>
    let y := if write then x.setV w.dst res else x
    { y with z := res == 0, n := res.getLsbD 31, c := carry }

def aluAdd (a b : Word) : Word × Bool := (a + b, decide (2 ^ 32 ≤ a.toNat + b.toNat))
def aluSub (a b : Word) : Word × Bool := (a - b, decide (a.toNat < b.toNat))
/-- The last bit shifted out; a shift of 32 or more leaves 0. -/
def aluShl (a : Word) (k : Nat) : Word × Bool := if 32 < k then (0, false) else (a <<< k, k != 0 && a.getLsbD (32 - k))
def aluShr (a : Word) (k : Nat) : Word × Bool := if 32 < k then (0, false) else (a >>> k, k != 0 && a.getLsbD (k - 1))

/-- One ALU word of SUBOP `sub`: f of SA and of SB or IMM. -/
def State.alu (s : State) (i sub : Nat) (imm write : Bool) (f : Word → Word → Word × Bool) : State :=
  s.issue i 0x08 sub fun t r w =>
    let res := f (r.v w.sa) (if imm then w.imm32 else r.v w.sb)
    State.aluTo i t r w res.1 res.2 write

/-! ### Memory (LOAD, STORE; R473 RANGE) -/

/-- Sets a register without touching the flags. -/
def State.setReg16 (i : Nat) (t : State) (r : OpRec) (k : Nat) (v : Word) : State := t.modRec i r.desc.id fun x => x.setV k v

/-- SA + IMM[15:0]. -/
def loadAddr (r : OpRec) (w : CtlWord) : Nat := ((r.v w.sa) + BitVec.ofNat 32 (w.imm % 65536)).toNat

def State.loadPers (i : Nat) (t : State) (r : OpRec) (w : CtlWord) : State :=
  let p := t.opPers r.desc.link
  let a := loadAddr r w
  if a + 4 ≤ p.get 0x1E then State.setReg16 i t r w.dst (BitVec.ofNat 32 (leAt p.ptable a 4)) else t.wordFault i r 9

def State.loadScratch (i : Nat) (t : State) (r : OpRec) (w : CtlWord) : State :=
  let a := loadAddr r w
  if inScratch a 4 then State.setReg16 i t r w.dst (BitVec.ofNat 32 (leAt ((List.range 4).map fun k => t.scratchByte i (a + k)) 0 4)) else t.wordFault i r 9

/-- Context state items; an item the manual does not give reads as a free value. -/
def State.loadCtx (i : Nat) (t : State) (r : OpRec) (w : CtlWord) : State :=
  let d := t.die r.desc.link r.desc.die
  match w.imm % 16 with
  | 0 => State.setReg16 i t r w.dst (BitVec.ofNat 32 r.stop)
  | 1 => State.setReg16 i t r w.dst (BitVec.ofNat 32 r.faultCode)
  | 2 => State.setReg16 i t r w.dst (BitVec.ofNat 32 r.suspends)
  | 3 => State.setReg16 i t r w.dst (BitVec.ofNat 32 (r.dins - 1))
  | 4 => State.setReg16 i t r w.dst (BitVec.ofNat 32 (bit d.ready + 2 * bit d.busy))
  | 5 => State.setReg16 i t r w.dst (BitVec.ofNat 32 (t.wdogLeft r / 1000))
  | _ => let v := t.free; State.setReg16 i v.2 r w.dst v.1

def State.storeWord (i : Nat) (t : State) (r : OpRec) (w : CtlWord) : State :=
  let a := loadAddr r w
  if inScratch a 4 then t.setScratch i a (leBytes 4 (r.v w.sb).toNat) else t.wordFault i r 9

/-! ### Branches (Table 13.5) -/

def State.condHolds (s : State) (r : OpRec) (c : Nat) : Bool :=
  match c with
  | 0 => true
  | 1 => r.z
  | 2 => !r.z
  | 3 => r.n
  | 4 => !r.n
  | 5 => r.undecoded.isEmpty
  | 6 => r.undecoded.any fun x => r.failed.contains x
  | 7 => r.stop == 0 || r.stop == 1
  | 8 => r.stop == 2
  | 9 => r.stop == 6
  | 10 => r.stop == 7
  | 11 => r.stop == 3 || r.stop == 4
  | 12 => hasSuspend (s.opPers r.desc.link)
  | 13 => (r.v 3).getLsbD 8
  | 14 => r.c
  | _ => false

def Sleeve.live (x : Sleeve) (a : Nat) : Bool := (mapGet (fun _ => none) x.store a).isSome

/-- Goes to an address, where its word is live. -/
def State.goTo (i : Nat) (t : State) (r : OpRec) (a : Nat) : State :=
  if (t.sleeve i).live a then t.modRec i r.desc.id fun x => { x with pc := a } else t.wordFault i r 3

def State.jumpWord (i : Nat) (t : State) (r : OpRec) (w : CtlWord) : State := if t.condHolds r w.cond then State.goTo i t r w.target else t

def State.callWord (i : Nat) (t : State) (r : OpRec) (w : CtlWord) : State :=
  if !t.condHolds r w.cond then t
  else if 4 ≤ r.stack.length then t.wordFault i r 4
  else State.goTo i (t.modRec i r.desc.id fun x => { x with stack := ((r.pc + 1) % 8192) :: x.stack }) r w.target

def State.returnWord (i : Nat) (t : State) (r : OpRec) (w : CtlWord) : State :=
  if !t.condHolds r w.cond then t
  else match r.stack with
    | [] => t.wordFault i r 4
    | a :: rest => State.goTo i (t.modRec i r.desc.id fun x => { x with stack := rest }) r a

/-! ### REPORT, YIELD, DECODE, END -/

def State.reportWord (i res : Nat) (t : State) (r : OpRec) (w : CtlWord) : State :=
  t.modRec i r.desc.id fun x => { x with report := some (res, r.v w.sa) }

/-- YIELD (R476): the die is suspended, the watchdog paused, and the class 1 descriptors queued for it, at most 16, may run. -/
def State.yieldWord (i : Nat) (t : State) (r : OpRec) : State :=
  let rs := (((t.sleeve i).queue.filter fun q => q.link == r.desc.link && q.die == r.desc.die && q.cls == 1).take 16).map fun q => q.id
  t.modRec i r.desc.id fun x => { x with suspended := true, suspends := x.suspends + 1, wdogPaused := true, wdogLeft := t.wdogLeft r, readers := rs }

/-- DECODE: the sectors not yet decoded again. -/
def State.decodeWord (i : Nat) (soft : Bool) (t : State) (r : OpRec) : State :=
  let s1 := if soft then t.bump (Reg.SLV_COUNT_SOFT_COUNT i) else t
  s1.modRec i r.desc.id fun x => { x with decoding := x.decoding ++ [(soft, r.undecoded)], softUsed := x.softUsed || soft }

/-- DECODE_COMPLETE: the oldest decode in progress whose data have come ends; `good` are the sectors of it that decoded. -/
def State.decodeDone (s : State) (i op : Nat) (good : List (Nat × Nat)) : State :=
  match s.opRec i op with
  | none => s
  | some r =>
    let out := ((s.lnk r.desc.link).tags.filter fun g => g.op == op && g.kind == 1).length
    match r.decoding with
    | [] => s
    | (_, work) :: rest =>
      if r.decoding.length ≤ out then s
      else
        let ok := work.filter good.contains
        let bad := work.filter fun x => !good.contains x
        s.modRec i op fun x => { x with decoding := rest, decoded := x.decoded ++ (ok.filter fun q => !x.decoded.contains q), failed := (x.failed ++ bad).eraseDups }

/-- END: NO_REPORT without a REPORT; otherwise the record has ended. -/
def State.endWordIssue (i : Nat) (t : State) (r : OpRec) : State :=
  match r.report with
  | none => t.wordFault i r 8
  | some _ => ((t.modRec i r.desc.id fun x => { x with ended := true, ctx := none }).bind i).patchGo

/-! ### The commands -/

def execNop (sleeve : Fin 64) (s : State) : Host.Outcome State Fault Refusal := .next (s.issue sleeve.val 0x00 16 fun t _ _ => t)
def execCmd (sleeve : Fin 64) (s : State) : Host.Outcome State Fault Refusal := .next (s.issue sleeve.val 0x01 16 (State.cmdWord sleeve.val))
def execAddr (sleeve : Fin 64) (s : State) : Host.Outcome State Fault Refusal := .next (s.issue sleeve.val 0x02 16 State.addrWord)
def execDoutRaw (sleeve : Fin 64) (s : State) : Host.Outcome State Fault Refusal := .next (s.issue sleeve.val 0x03 0 (State.doutRaw sleeve.val))
def execDoutImage (sleeve : Fin 64) (s : State) : Host.Outcome State Fault Refusal := .next (s.issue sleeve.val 0x03 1 State.doutImage)
def execDinRaw (sleeve : Fin 64) (s : State) : Host.Outcome State Fault Refusal := .next (s.issue sleeve.val 0x04 0 (State.dinRaw sleeve.val))
def execDinImage (sleeve : Fin 64) (s : State) : Host.Outcome State Fault Refusal := .next (s.issue sleeve.val 0x04 1 (State.dinImage sleeve.val))
def execDinSoft (sleeve : Fin 64) (s : State) : Host.Outcome State Fault Refusal := .next (s.issue sleeve.val 0x04 2 (State.dinSoft sleeve.val))
def execStatusWord (sleeve : Fin 64) (s : State) : Host.Outcome State Fault Refusal := .next (s.issue sleeve.val 0x05 16 State.statusWordIssue)
def execWait (sleeve : Fin 64) (s : State) : Host.Outcome State Fault Refusal := .next (s.issue sleeve.val 0x06 16 (State.waitWord sleeve.val))

def execTimerArmWatchdog (sleeve : Fin 64) (s : State) : Host.Outcome State Fault Refusal := .next (s.issue sleeve.val 0x07 0 (State.armWatchdog sleeve.val))
def execTimerStopWatchdog (sleeve : Fin 64) (s : State) : Host.Outcome State Fault Refusal :=
  .next (s.issue sleeve.val 0x07 1 fun t r _ => State.stopWatchdog sleeve.val t r)
def execTimerArmPoll (sleeve : Fin 64) (s : State) : Host.Outcome State Fault Refusal := .next (s.issue sleeve.val 0x07 2 (State.armPoll sleeve.val))

def execMovi (sleeve : Fin 64) (s : State) : Host.Outcome State Fault Refusal := .next (s.alu sleeve.val 0 true true fun _ b => (b, false))
def execAddWord (sleeve : Fin 64) (s : State) : Host.Outcome State Fault Refusal := .next (s.alu sleeve.val 1 false true aluAdd)
def execAddi (sleeve : Fin 64) (s : State) : Host.Outcome State Fault Refusal := .next (s.alu sleeve.val 2 true true aluAdd)
def execSub (sleeve : Fin 64) (s : State) : Host.Outcome State Fault Refusal := .next (s.alu sleeve.val 3 false true aluSub)
def execAndWord (sleeve : Fin 64) (s : State) : Host.Outcome State Fault Refusal := .next (s.alu sleeve.val 4 false true fun a b => (a &&& b, false))
def execOrWord (sleeve : Fin 64) (s : State) : Host.Outcome State Fault Refusal := .next (s.alu sleeve.val 5 false true fun a b => (a ||| b, false))
def execXorWord (sleeve : Fin 64) (s : State) : Host.Outcome State Fault Refusal := .next (s.alu sleeve.val 6 false true fun a b => (a ^^^ b, false))
def execShli (sleeve : Fin 64) (s : State) : Host.Outcome State Fault Refusal := .next (s.alu sleeve.val 7 true true fun a b => aluShl a b.toNat)
def execShri (sleeve : Fin 64) (s : State) : Host.Outcome State Fault Refusal := .next (s.alu sleeve.val 8 true true fun a b => aluShr a b.toNat)
def execAndi (sleeve : Fin 64) (s : State) : Host.Outcome State Fault Refusal := .next (s.alu sleeve.val 9 true true fun a b => (a &&& b, false))
def execOri (sleeve : Fin 64) (s : State) : Host.Outcome State Fault Refusal := .next (s.alu sleeve.val 10 true true fun a b => (a ||| b, false))
def execCmp (sleeve : Fin 64) (s : State) : Host.Outcome State Fault Refusal := .next (s.alu sleeve.val 11 false false aluSub)
def execCmpi (sleeve : Fin 64) (s : State) : Host.Outcome State Fault Refusal := .next (s.alu sleeve.val 12 true false aluSub)

def execLoadPersonality (sleeve : Fin 64) (s : State) : Host.Outcome State Fault Refusal := .next (s.issue sleeve.val 0x09 0 (State.loadPers sleeve.val))
def execLoadScratch (sleeve : Fin 64) (s : State) : Host.Outcome State Fault Refusal := .next (s.issue sleeve.val 0x09 1 (State.loadScratch sleeve.val))
def execLoadContextState (sleeve : Fin 64) (s : State) : Host.Outcome State Fault Refusal := .next (s.issue sleeve.val 0x09 2 (State.loadCtx sleeve.val))
def execStore (sleeve : Fin 64) (s : State) : Host.Outcome State Fault Refusal := .next (s.issue sleeve.val 0x0A 16 (State.storeWord sleeve.val))
def execBranchJump (sleeve : Fin 64) (s : State) : Host.Outcome State Fault Refusal := .next (s.issue sleeve.val 0x0B 0 (State.jumpWord sleeve.val))
def execBranchCall (sleeve : Fin 64) (s : State) : Host.Outcome State Fault Refusal := .next (s.issue sleeve.val 0x0B 1 (State.callWord sleeve.val))
def execBranchReturn (sleeve : Fin 64) (s : State) : Host.Outcome State Fault Refusal := .next (s.issue sleeve.val 0x0B 2 (State.returnWord sleeve.val))
def execReportOk (sleeve : Fin 64) (s : State) : Host.Outcome State Fault Refusal := .next (s.issue sleeve.val 0x0C 0 (State.reportWord sleeve.val 0))
def execReportFail (sleeve : Fin 64) (s : State) : Host.Outcome State Fault Refusal := .next (s.issue sleeve.val 0x0C 1 (State.reportWord sleeve.val 1))
def execReportInterrupted (sleeve : Fin 64) (s : State) : Host.Outcome State Fault Refusal := .next (s.issue sleeve.val 0x0C 2 (State.reportWord sleeve.val 2))
def execYield (sleeve : Fin 64) (s : State) : Host.Outcome State Fault Refusal := .next (s.issue sleeve.val 0x0D 16 fun t r _ => State.yieldWord sleeve.val t r)
def execDecodeHard (sleeve : Fin 64) (s : State) : Host.Outcome State Fault Refusal := .next (s.issue sleeve.val 0x0E 0 fun t r _ => State.decodeWord sleeve.val false t r)
def execDecodeSoft (sleeve : Fin 64) (s : State) : Host.Outcome State Fault Refusal := .next (s.issue sleeve.val 0x0E 1 fun t r _ => State.decodeWord sleeve.val true t r)

def execDecodeComplete (sleeve : Fin 64) (op : Nat) (good : List (Nat × Nat)) (s : State) : Host.Outcome State Fault Refusal :=
  .next (if s.mainUp then s.decodeDone sleeve.val op good else s)

/-- TRAP: its code is kept. -/
def execTrap (sleeve : Fin 64) (s : State) : Host.Outcome State Fault Refusal :=
  .next (s.issue sleeve.val 0x0F 16 fun t r w => (t.wordFault sleeve.val r 10).wr (Reg.SLV_FAULT_PC_TRAP sleeve.val) (w.imm % 65536))

def execEndWord (sleeve : Fin 64) (s : State) : Host.Outcome State Fault Refusal := .next (s.issue sleeve.val 0x10 16 fun t r _ => State.endWordIssue sleeve.val t r)

def execWaitEnd (sleeve : Fin 64) (op : Nat) (s : State) : Host.Outcome State Fault Refusal :=
  .next (if s.mainUp then s.waitEnd sleeve.val op else s)

/-- POLL_TIMER_EXPIRY. -/
def State.pollExpiry (s : State) (i op : Nat) : State :=
  match s.opRec i op with
  | none => s
  | some r => match r.pollAt with
    | some t => if t ≤ s.now then s.modRec i op fun x => { x with pollAt := none, pollDone := true } else s
    | none => s

def execPollTimerExpiry (sleeve : Fin 64) (op : Nat) (s : State) : Host.Outcome State Fault Refusal :=
  .next (if s.mainUp then s.pollExpiry sleeve.val op else s)

/-- SLEEVE_WATCHDOG_EXPIRY: fault WDOG is pending. -/
def State.slvWatchdog (s : State) (i op : Nat) : State :=
  match s.opRec i op with
  | none => s
  | some r => if r.wdogOn && !r.wdogPaused && s.wdogLeft r == 0 then (s.modRec i op fun x => { x with wdogOn := false }).pendFault i op 5 else s

def execSleeveWatchdogExpiry (sleeve : Fin 64) (op : Nat) (s : State) : Host.Outcome State Fault Refusal :=
  .next (if s.mainUp then s.slvWatchdog sleeve.val op else s)

/-- OPERATION_REQUEST: a descriptor joins its die's queue; a parked link leaves its park. -/
def State.opRequest (s : State) (d : OpDesc) : State :=
  if populated s.image.cfg d.link then (s.request d).leavePark d.link else s

def execOperationRequest (link : Fin 512) (die : Fin 32) (entry : Fin 16) (block page planes : Nat) (first count pages : Fin 9) (slc : Bool) (cls : Fin 4)
    (buffer : Nat) (why : OpFor) (s : State) : Host.Outcome State Fault Refusal :=
  .next (if s.mainUp then s.opRequest ⟨0, link.val, die.val, entry.val, block, page, planes, first.val, count.val, pages.val, slc, cls.val, buffer, why, 0⟩ else s)

def execOperationStart (sleeve : Fin 64) (s : State) : Host.Outcome State Fault Refusal :=
  .next (if s.mainUp then s.opStart sleeve.val else s)

/-- The identity a die gave: the first 8 bytes of the first DIN RAW of its IDENTIFY agree with the personality's (15 R561). -/
def State.idMatches (s : State) (r : OpRec) : Bool :=
  let p := s.opPers r.desc.link
  match r.rawFirst with
  | some b => 8 ≤ b.length && (leAt b 0 8 ^^^ p.get 0x00) &&& p.get 0x08 == 0
  | none => false

/-- What the end of a RESET or an IDENTIFY says of a die whose enumeration is not complete (15 R561). -/
def State.enumStep (s : State) (r : OpRec) : State :=
  let n := r.desc.link
  let ok := match r.report with | some x => x.1 == 0 | none => false
  if !r.ended || !(s.lnk n).enumPending.contains r.desc.die || !(r.desc.entry == 13 || r.desc.entry == 14) then s
  else if !ok then s.enumDie n r.desc.die false
  else if r.desc.entry = 13 then s
  else if s.idMatches r then (s.setIfPers n r.desc.die).enumDie n r.desc.die true else s.enumDie n r.desc.die false

/-- OPERATION_END: the requester has its result, and what follows from it happens. -/
def execOperationEnd (sleeve : Fin 64) (op : Nat) (rebuilt : Bool) (s : State) : Host.Outcome State Fault Refusal :=
  .next (if s.mainUp then
    match s.opRec sleeve.val op with
    | none => s
    | some r => (((s.opEnd sleeve.val op rebuilt).enumStep r).settleDma.recalGo r.desc.link).sanStep
    else s)

def execCrossoverTimeout (sleeve : Fin 64) (s : State) : Host.Outcome State Fault Refusal :=
  .next (if s.mainUp then s.crossTimeout sleeve.val else s)

end Sys2Proof.Machine
end

