-- ==== Sys2Proof/Machine/Capsules.lean ====
section
/-!
DEFINITION. Machine/Capsules.lean: what the device does with each capsule a bridge sends, reply timeouts, bridge temperatures, enumeration
and the identity check after a training (15 R547 to R564; 21 R722).
-/
namespace Sys2Proof.Machine

/-- The oldest whole capsule of a link where it has TYPE `ty`, and the state without it. -/
def State.nextCapsule (s : State) (n ty : Nat) : Option (List Byte × State) :=
  match (s.lnk n).inbox with
  | [] => none
  | c :: rest => if byteAt c 0 = ty then some (c, s.modLnk n fun x => { x with inbox := rest }) else none

/-- The capsule's command: nothing where the oldest capsule is of another type. -/
def State.onCapsule (s : State) (n ty : Nat) (f : State → List Byte → State) : State :=
  if !s.mainUp then s
  else match s.nextCapsule n ty with
    | none => s
    | some r => f r.2 r.1

def State.dropTag (s : State) (n tag : Nat) : State := s.modLnk n fun x => { x with tags := x.tags.filter fun g => g.tag != tag }

/-- A tag is quarantined; at 64 a training from DETECT starts (R553). -/
def State.quarantine (s : State) (n tag : Nat) : State :=
  let s1 := (s.dropTag n tag).modLnk n fun x => { x with quarantined := x.quarantined ++ [tag] }
  let k := (s1.lnk n).quarantined.length
  let s2 := s1.wr (Reg.JL_BRIDGE_STATUS_QUARANTINED n) k
  if 64 ≤ k then s2.fullRetrain n false else s2

/-- A reply that does not fit its request: BRIDGE on the operation, its tag quarantined (R554). -/
def State.badReply (s : State) (n : Nat) (g : Tag) : State := (s.pendFault (n / 8) g.op 7).quarantine n g.tag

/-- DATA_IN (R547, R554). -/
def State.dataIn (s : State) (n : Nat) (c : List Byte) : State :=
  match (s.lnk n).tags.find? fun g => g.tag == byteAt c 4 && g.kind ≤ 2 with
  | none => s
  | some g =>
    let flags := byteAt c 1
    let b := c.drop 8
    let got := g.got + b.length
    if flags.testBit 2 && g.begun then s.badReply n g
    else if g.count < got ∨ (flags.testBit 3 ∧ got ≠ g.count) then s.badReply n g
    else
      let i := n / 8
      let s1 := if g.kind = 0 then s.setScratch i (g.dst + g.got) b else s
      let s2 := if g.kind = 0 then s1.modRec i g.op fun r => { r with rawFirst := if r.rawFirst.isNone || g.got != 0 then some ((r.rawFirst.getD []) ++ b) else r.rawFirst } else s1
      if flags.testBit 3 then s2.dropTag n g.tag
      else s2.modLnk n fun x => { x with tags := x.tags.map fun (y : Tag) => if y.tag == g.tag then { y with got := got, begun := true } else y }

def execDataIn (link : Fin 512) (s : State) : Host.Outcome State Fault Refusal :=
  .next (s.onCapsule link.val 0x41 fun t c => t.dataIn link.val c)

/-- STATUS_RESP: the byte to DST, Z and N from it. -/
def State.statusResp (s : State) (n : Nat) (c : List Byte) : State :=
  match (s.lnk n).tags.find? fun g => g.tag == byteAt c 4 && g.kind == 3 with
  | none => s
  | some g =>
    let v := byteAt c 5
    (s.dropTag n g.tag).modRec (n / 8) g.op fun r =>
      let y := r.setV g.dst (BitVec.ofNat 32 v)
      { y with z := v == 0, n := v.testBit 7, statusAt := s.now }

def execStatusResp (link : Fin 512) (s : State) : Host.Outcome State Fault Refusal :=
  .next (s.onCapsule link.val 0x42 fun t c => t.statusResp link.val c)

/-- EDGE: the latch of each listed die whose EPOCH is the device's count (R551). -/
def State.edge (s : State) (n : Nat) (c : List Byte) : State :=
  let kind := byteAt c 5
  (List.range ((c.length - 8) / 2)).foldl (fun t k =>
    let d := byteAt c (8 + 2 * k)
    if d < 32 ∧ byteAt c (9 + 2 * k) = (t.die n d).epoch then
      (if kind = 0 then t.modDie n d fun x => { x with ready := true } else if kind = 1 then t.modDie n d fun x => { x with busy := true } else t)
    else t) s

def execEdgeCapsule (link : Fin 512) (s : State) : Host.Outcome State Fault Refusal :=
  .next (s.onCapsule link.val 0x43 fun t c => t.edge link.val c)

/-! ### Temperature (R557, 21 R722) -/

/-- A threshold with 3 °C of hysteresis, in 1/16 °C. -/
def crossed (was : Bool) (t16 : Int) (limit : Nat) : Bool := if was then decide (16 * ((limit : Int) - 3) < t16) else decide (16 * (limit : Int) ≤ t16)

/-- Acts on a bridge temperature: at WARN_C its Sleeve limits the link's busy dies, at ENFORCE_C the link is HELD and its bands close; back
below, it returns to what it was. Each crossing raises 1,750. -/
def State.bridgeTemp (s : State) (n : Nat) (t16 : Int) : State :=
  let x := s.lnk n
  let warm := crossed x.warm t16 (s.force Reg.THM_BRIDGE_WARN_C)
  let hot := crossed x.hot t16 (s.force Reg.THM_BRIDGE_ENFORCE_C)
  let s1 := (s.modLnk n fun y => { y with warm := warm, hot := hot }).raiseIf (warm != x.warm || hot != x.hot) 1750
  let st := s.linkState n
  if hot && !x.hot && (st == 1 || st == 2) then ((s1.modLnk n fun y => { y with heldFrom := st }).setLink n 3).closeBandsOf n
  else if !hot && x.hot && st == 3 then s1.setLink n (if x.heldFrom = 0 then 1 else x.heldFrom)
  else s1

/-- TEMP. -/
def State.tempIn (s : State) (n : Nat) (c : List Byte) : State :=
  let t := leAt c 4 2
  let v := signed 16 t
  let s1 := (s.modLnk n fun x => { x with tempAt := s.now, tempSeen := true }).wr (Reg.JL_BRIDGE_STATUS_TEMP_STALE n) 0
  let s2 := s1.wr (Reg.JL_BRIDGE_TEMP_TEMP n) t
  let s3 := if signed 16 (s2.rd (Reg.JL_BRIDGE_TEMP_MAX n)) < v then s2.wr (Reg.JL_BRIDGE_TEMP_MAX n) t else s2
  s3.bridgeTemp n v

def execTempCapsule (link : Fin 512) (s : State) : Host.Outcome State Fault Refusal :=
  .next (s.onCapsule link.val 0x44 fun t c => (t.tempIn link.val c).settleDma)

/-- JL_TEMP_STALE: no TEMP for 50 ms on an ACTIVE link. -/
def State.tempStale (s : State) (n : Nat) : State :=
  if s.jlActive n && (s.lnk n).tempAt + 50000000 ≤ s.now && s.rd (Reg.JL_BRIDGE_STATUS_TEMP_STALE n) == 0 then
    ((s.wr (Reg.JL_BRIDGE_STATUS_TEMP_STALE n) 1).raise (2 * n)).bridgeTemp n (16 * (s.force Reg.THM_BRIDGE_ENFORCE_C : Int))
  else s

def execJlTempStale (link : Fin 512) (s : State) : Host.Outcome State Fault Refusal :=
  .next (if s.mainUp then (s.tempStale link.val).settleDma else s)

/-! ### Errors and timeouts (R553, R555) -/

/-- ERROR: counted; it ends the tag it names; codes 2, 3, 4 are BRIDGE on the operation holding the die, any other a training from DETECT. -/
def State.errorIn (s : State) (n : Nat) (c : List Byte) : State :=
  let code := byteAt c 4
  let die := byteAt c 5
  let tag := byteAt c 6
  let s1 := ((s.bump (Reg.JL_CAP_ERR_ERRORS n)).wr (Reg.JL_BRIDGE_STATUS_LAST_ERROR n) code).raise (2 * n)
  let s2 := if tag = 255 then s1 else s1.dropTag n tag
  if 2 ≤ code ∧ code ≤ 4 then (match s2.holderOf n die with | some r => s2.pendFault (n / 8) r.desc.id 7 | none => s2)
  else s2.fullRetrain n false

def execErrorCapsule (link : Fin 512) (s : State) : Host.Outcome State Fault Refusal :=
  .next (s.onCapsule link.val 0x45 fun t c => t.errorIn link.val c)

/-- Dies of a link below DIES_PER_PACKAGE. -/
def State.linkDieList (s : State) (n : Nat) : List Nat := match groupOf s.image.cfg n with | some g => List.range (g.get 4) | none => []

/-- The identity is another one, or none came (R564): every die is absent. -/
def State.idChanged (s : State) (n : Nat) : State :=
  let s1 := ((s.modLnk n fun x => { x with identAt := none }).wr (Reg.JL_BRIDGE_STATUS_ID_CHANGED n) 1).raise (2 * n)
  (s.linkDieList n).foldl (fun t d => t.dieAbsent n d) s1

/-- The identity after a training from DETECT (R564). -/
def State.postIdentity (s : State) (n : Nat) (id : List Byte) : State :=
  let x := s.lnk n
  let old := x.identity.getD []
  if old.take 0x18 != id.take 0x18 || slice old 0x20 0x20 != slice id 0x20 0x20 then s.idChanged n
  else
    let s1 := s.modLnk n fun y => { y with identAt := none, identity := some id }
    let s2 := if byteAt old 0x18 ≠ byteAt id 0x18 ∨ !x.parkedBefore then
        (s.linkDieList n).foldl (fun t d => if t.ftl.absentDies.contains (n, d) then t else t.dieNeedsReset n d) s1
      else s1
    (if (s.linkDieList n).any fun d => !s2.ftl.absentDies.contains (n, d) then s2.returnDone n else s2).pump n

/-- MGMT_RESP. Only an IDENTIFY's answer has an effect beyond ending its tag. -/
def State.mgmtResp (s : State) (n : Nat) (c : List Byte) : State :=
  match (s.lnk n).tags.find? fun g => g.tag == byteAt c 4 && g.kind == 4 with
  | none => s
  | some g =>
    let s1 := s.dropTag n g.tag
    if g.dst = 1 ∧ (s1.lnk n).identAt.isSome then (if byteAt c 6 = 0 ∧ c.length = 264 then s1.postIdentity n (c.drop 8) else s1.idChanged n) else s1

def execMgmtResp (link : Fin 512) (s : State) : Host.Outcome State Fault Refusal :=
  .next (s.onCapsule link.val 0x46 fun t c => (t.mgmtResp link.val c).settleDma)

/-- JL_REPLY_TIMEOUT: 500 µs for a die capsule's reply, 10 ms for a MGMT_RESP. -/
def State.replyTimeout (s : State) (n : Nat) : State :=
  let late := (s.lnk n).tags.filter fun g => g.since + (if g.kind = 4 then 10000000 else 500000) ≤ s.now
  late.foldl (fun t g =>
    if !(t.lnk n).tags.any fun y => y.tag == g.tag then t
    else
      let t1 := (t.bump (Reg.JL_CAP_ERR_TIMEOUTS n)).raise (2 * n)
      let t2 := if g.kind = 4 then (if g.dst = 1 ∧ (t1.lnk n).identAt.isSome then t1.idChanged n else t1) else t1.pendFault (n / 8) g.op 7
      t2.quarantine n g.tag) s

def execJlReplyTimeout (link : Fin 512) (s : State) : Host.Outcome State Fault Refusal :=
  .next (if s.mainUp then (s.replyTimeout link.val).settleDma else s)

/-! ### Enumeration (R560 to R563) -/

/-- The first check of Table 15.7 that fails; 0 none. -/
def State.enumCheck (s : State) (n : Nat) (id : Option (List Byte)) : Nat :=
  match id with
  | none => 1
  | some b =>
    if !s.jlActive n || b.length != 256 then 1
    else if byteAt b 5 ≠ 1 then 2
    else match groupOf s.image.cfg n, personalityOf s.image.cfg n with
      | some g, some p =>
        if byteAt b 7 ≠ g.get 5 then 3
        else if !((byteAt b 9).testBit 0 && (byteAt b 9).testBit (p.get 0x10 + 1)) then 4
        else if leAt b 0x0A 2 < p.get 0x12 then 5 else 0
      | _, _ => 1

/-- The bridge's registers from its identity. -/
def State.showIdentity (s : State) (n : Nat) (b : List Byte) : State :=
  let s1 := ((s.wr (Reg.JL_BRIDGE_ID_VENDOR n) (leAt b 0 2)).wr (Reg.JL_BRIDGE_ID_PART n) (leAt b 2 2)).wr (Reg.JL_BRIDGE_INFO_REVISION n) (byteAt b 4)
  let s2 := ((s1.wr (Reg.JL_BRIDGE_INFO_DIES n) (byteAt b 6)).wr (Reg.JL_BRIDGE_INFO_CES n) (byteAt b 7)).wr (Reg.JL_BRIDGE_INFO_CHANNELS n) (byteAt b 8)
  let s3 := (s2.wr (Reg.JL_BRIDGE_INFO_IF_MODES n) (byteAt b 9)).setReg (Reg.JL_DIE_WIRED n) (BitVec.ofNat 32 (leAt b 0x0C 4))
  (s3.setReg (Reg.JL_BRIDGE_SERIAL_LO n) (BitVec.ofNat 32 (leAt b 0x10 4))).setReg (Reg.JL_BRIDGE_SERIAL_HI n) (BitVec.ofNat 32 (leAt b 0x14 4))

/-- A link's identity has come, or none (R560): a failed link has no die. -/
def State.enumLink (s : State) (n : Nat) (id : Option (List Byte)) : State :=
  let k := s.enumCheck n id
  if k ≠ 0 then
    let s1 := ((s.wr (Reg.JL_BRIDGE_STATUS_ENUM_FAIL n) 1).wr (Reg.JL_BRIDGE_STATUS_FAIL_CHECK n) k).raise (2 * n)
    let s2 := (s.linkDieList n).foldl (fun t d => t.enumAbsent n d) s1
    (s2.wr Reg.BEL_BOOT_STATUS_ERROR 0x07).enumDone n
  else
    let b := id.getD []
    let wired := leAt b 0x0C 4
    let s1 := (s.showIdentity n b).modLnk n fun x => { x with identity := some b, enumPending := (s.linkDieList n).filter fun d => wired.testBit d }
    ((s.linkDieList n).filter fun d => !wired.testBit d).foldl (fun t d => t.enumAbsent n d) s1 |>.enumDone n

/-- The identity of every populated link, or zeros (R563). -/
def State.identities (s : State) : List Byte :=
  ((List.range 512).filter (populated s.image.cfg)).flatMap fun n => padTo 256 ((s.lnk n).identity.getD [])

/-- ENUMERATE_DIE_DEADLINE: 90 ms after phase ENUMERATE began, a die whose steps have not completed is absent. -/
def State.enumDeadline (s : State) : State :=
  if s.phase = 8 ∧ s.boot.phaseSince + 90000000 ≤ s.now then
    (List.range 512).foldl (fun t n => (t.lnk n).enumPending.foldl (fun u d => u.enumDie n d false) t) s
  else s

end Sys2Proof.Machine
end

