-- ==== Sys2Proof/Machine/Mantle.lean ====
section
/-!
DEFINITION. Machine/Mantle.lean: the Mantle loop slots (18): states, the loop equations, the profile generator, saturation and
headroom, bypass, faults and the trace buffers.
-/
namespace Sys2Proof.Machine

def State.modMnt (s : State) (f : Mnt → Mnt) : State := { s with mnt := f s.mnt }
def State.loop (s : State) (i : Nat) : Loop := mapGet (fun _ => Loop.init) s.mnt.loops i
def State.setLoop (s : State) (i : Nat) (x : Loop) : State := s.modMnt fun m => { m with loops := mapSet (fun _ => Loop.init) m.loops i x }
def State.modLoop (s : State) (i : Nat) (f : Loop → Loop) : State := s.setLoop i (f (s.loop i))

def State.loopState (s : State) (i : Nat) : Nat := s.rd (Reg.MNT_LOOP_STATUS_STATE i)
def State.lossReported (s : State) : Bool := s.rd Reg.MNT_STATUS_LOSS == 1

/-- Mantle clocks (2.5 ns) since the main reset. -/
def State.mantleClock (s : State) : Nat := (s.now - s.boot.mainInitAt) * 2 / 5

/-! ### The MANTLE_PLANT block in force (R662) -/

/-- An unsigned field of the block of a slot: its byte offset and size; a field does not cross a word. -/
def State.plantN (s : State) (i off size : Nat) : Nat := bitsOf (s.inForce (Reg.MNT_PLANT i (off / 4))) (8 * (off % 4)) (8 * size)

/-- A coefficient of the block. -/
def State.plantC (s : State) (i off : Nat) : Int := signed 32 (s.inForce (Reg.MNT_PLANT i (off / 4))).toNat

/-- Elements 0 to n - 1 of row r of a matrix of c columns at a base. -/
def State.plantRow (s : State) (i base c r n : Nat) : List Int := (List.range n).map fun j => s.plantC i (base + 4 * (r * c + j))

/-! ### Formats (R644) -/

def sigMin : Int := -2147483648
def sigMax : Int := 2147483647

/-- A signal sum saturated to the signal range. -/
def sat (x : Int) : Int := max sigMin (min sigMax x)

/-- The sum of products of a row. -/
def rowSum (row v : List Int) : Int := ((row.zip v).map fun p => p.1 * p.2).sum

/-- An accumulator rounded to a signal: half added, shifted right toward minus infinity, saturated. -/
def roundRow (frac : Nat) (x : Int) : Int := sat ((x + 2 ^ (frac - 1)) / 2 ^ frac)

/-- A row product. -/
def dot (frac : Nat) (row v : List Int) : Int := roundRow frac (rowSum row v)

/-! ### Flags and the trace buffer (R651, R658) -/

/-- The 64 bytes of a trace sample (Table 18.2) kept as its nodes, PERIOD, LATENCY, FLAGS and CLOCK; zeros where there is none. -/
def traceBytes (l : List Nat) : List Byte :=
  ((List.range 9).flatMap fun k => leBytes 4 (l.getD k 0)) ++ leBytes 2 (l.getD 9 0) ++ leBytes 2 (l.getD 10 0) ++ leBytes 8 (l.getD 11 0) ++ List.replicate 16 0

/-- A word of the trace buffer of a slot: sample i lies at 64 i (R659, 05 R145). -/
def State.traceWord (s : State) (i off : Nat) : Word :=
  BitVec.ofNat 32 (leAt (traceBytes (mapGet (fun _ => []) (s.loop i).samples (off / 64))) (off % 64) 4)

/-- Nodes of a trace sample, and its PERIOD, LATENCY, FLAGS and CLOCK. -/
def State.traceSample (s : State) (i latency conds clock : Nat) : List Nat :=
  let x := s.loop i
  let node (c : Nat) : Nat :=
    if 0x01 ≤ c ∧ c ≤ 0x08 then toCode 32 (x.xh.getD (c - 1) 0)
    else if 0x09 ≤ c ∧ c ≤ 0x10 then toCode 32 (x.xc.getD (c - 9) 0)
    else if 0x11 ≤ c ∧ c ≤ 0x14 then toCode 32 (x.y.getD (c - 0x11) 0)
    else if c = 0x15 then toCode 32 x.z
    else if c = 0x16 then toCode 32 x.f
    else if c = 0x17 then toCode 32 (x.nu.getD 0 0)
    else if c = 0x18 ∨ c = 0x19 then toCode 32 (x.u.getD (c - 0x18) 0)
    else if c = 0x1A ∨ c = 0x1B then x.d.getD (c - 0x1A) 0
    else if c = 0x1C then toCode 32 x.rs
    else if c = 0x1D then toCode 32 (x.v / 65536)
    else if c = 0x1E then toCode 32 (x.a / 65536)
    else if c = 0x1F then (s.reg (Reg.MNT_TARGET i)).toNat
    else if 0x20 ≤ c ∧ c ≤ 0x2F then mapGet (fun _ => 0) s.mnt.codes (c - 0x20)
    else 0
  let sel (k : Nat) : Nat := bitsOf (s.reg (if k < 4 then Reg.MNT_TRC_SEL0 i else Reg.MNT_TRC_SEL1 i)) (8 * (k % 4)) 8
  ((List.range 8).map fun k => node (sel k)) ++ [s.rd (Reg.MNT_PERIODS_COUNT i), latency, conds, clock]

def State.trcMode (s : State) (i : Nat) : Nat := let m := s.rd (Reg.MNT_TRC_CTL_MODE i); if m = 3 then 0 else m
def State.trcSrc (s : State) (i : Nat) : Nat := let m := s.rd (Reg.MNT_TRC_CTL_TRIG_SRC i); if 5 ≤ m then 0 else m

/-- Recording ends: DONE. -/
def State.trcDone (s : State) (i : Nat) : State :=
  ((s.wr (Reg.MNT_TRC_STATUS_RUNNING i) 0).wr (Reg.MNT_TRC_STATUS_DONE i) 1).modLoop i fun x => { x with recording := false, post := none }

/-- A trigger of a source: taken in MODE 1 by an armed buffer that is not already recording POST samples. -/
def State.trcTrigger (s : State) (i src : Nat) : State :=
  if (s.loop i).recording && s.trcMode i == 1 && s.trcSrc i == src && s.rd (Reg.MNT_TRC_STATUS_TRIGGERED i) == 0 then
    let s1 := (s.wr (Reg.MNT_TRC_STATUS_TRIGGERED i) 1).wr (Reg.MNT_TRC_STATUS_TRIG_INDEX i) (s.rd (Reg.MNT_TRC_STATUS_INDEX i))
    let post := s.rd (Reg.MNT_TRC_CTL_POST i)
    if post = 0 then s1.trcDone i else s1.modLoop i fun x => { x with post := some post }
  else s

/-- The period's sample, in the periods DECIM takes. -/
def State.trcRecord (s : State) (i latency conds clock : Nat) : State :=
  let x := s.loop i
  if !x.recording || s.trcMode i == 0 then s
  else
    let next := (x.decim + 1) % 2 ^ s.rd (Reg.MNT_TRC_CTL_DECIM i)
    if x.decim ≠ 0 then s.modLoop i fun y => { y with decim := next }
    else
      let k := s.rd (Reg.MNT_TRC_STATUS_INDEX i)
      let sample := s.traceSample i latency conds clock
      let s1 := s.modLoop i fun y => { y with
        decim := next, taken := y.taken + 1, samples := mapSet (fun _ => []) y.samples k sample, post := y.post.map fun n => n - 1 }
      let s2 := s1.wr (Reg.MNT_TRC_STATUS_INDEX i) (k + 1)
      let s3 := if k = 16383 then s2.wr (Reg.MNT_TRC_STATUS_WRAPPED i) 1 else s2
      if (s.trcMode i = 1 ∧ x.post = some 1) ∨ (s.trcMode i = 2 ∧ x.taken = 16383) then s3.trcDone i else s3

/-- Flags set: those that rise raise source 1,728 + 2s and are trigger source 1. -/
def State.loopFlags (s : State) (i bits : Nat) : State :=
  let old := s.reg (Reg.MNT_LOOP_FLAGS i)
  let new := old ||| BitVec.ofNat 32 bits
  if new = old then s else ((s.setReg (Reg.MNT_LOOP_FLAGS i) new).raise (1728 + 2 * i)).trcTrigger i 1

/-! ### Pulse-width modulation (R634, R635, R637, R638) -/

/-- Steps of a carrier period: 6,400,000 / PWM_KHZ, rounded. A Mantle clock is 16 steps. -/
def carrierSteps (khz : Nat) : Nat := (2 * 6400000 + khz) / (2 * khz)

def State.carrier (s : State) (i : Nat) : Nat := carrierSteps (s.plantN i 4 2)

/-- The step at which a duty has the high side fall. -/
def onStep (d p : Nat) : Nat := d * p / 65536

/-- The carrier step a slot's period has reached. -/
def State.carrierStep (s : State) (i : Nat) : Nat := 16 * (s.mantleClock - (s.loop i).carrierAt)

/-- A carrier period begins: its duties place the falling edges. -/
def State.carrierStart (s : State) (i clock : Nat) : State :=
  s.modLoop i fun x => { x with carrierAt := clock, fall := x.d.map fun d => onStep d (s.carrier i) }

/-- The falling edge after a duty computed at step t: one already taken stays; one placed at a step already passed is taken at once (R638). -/
def fallAt (t old new : Nat) : Nat := if old ≤ t then old else max t new

/-- The steps a single high-side pin, a pair's high side, and its low side are high (R637); empty where the first is not below the second. -/
def singleSpan (fall : Nat) : Nat × Nat := (0, fall)
def highSpan (dt fall : Nat) : Nat × Nat := (dt, fall)
def lowSpan (dt p fall : Nat) : Nat × Nat := (fall + dt, p)

/-- What a pin of an OUT_MAP entry carries: MNT_PWM are pins 0 to 7, FAN_PWM 8 to 11 (R634). -/
def pinSpan (map pin dt p fall : Nat) : Option (Nat × Nat) :=
  let pwm := (List.range 8).filter fun k => map.testBit k
  if !map.testBit pin then none
  else if 8 ≤ pin then some (singleSpan fall)
  else match pwm with
    | [_] => some (singleSpan fall)
    | hi :: lo :: _ => if pin = hi then some (highSpan dt fall) else if pin = lo then some (lowSpan dt p fall) else none
    | [] => none

/-- A slot drives its pins: in RUN and in BYPASSED, and not while MNT_FAULT_N holds the MNT_PWM pins low (R635, R641, R656). -/
def State.drives (s : State) (i pin : Nat) : Bool :=
  2 ≤ s.loopState i && (8 ≤ pin || (s.board.faultN && s.rd (Reg.MNT_LOOP_STATUS_FORCED i) == 0))

/-- The steps of the present carrier period in which a pin is high, for the outputs that drive it. -/
def State.pinSpans (s : State) (pin : Nat) : List (Nat × Nat × Nat) :=
  (List.range 4).flatMap fun i => (List.range (s.plantN i 3 1)).filterMap fun o =>
    if s.drives i pin then
      (pinSpan (s.plantN i (8 + 2 * o) 2) pin (s.rd (Reg.MNT_PWM_CFG_DEADTIME i)) (s.carrier i) ((s.loop i).fall.getD o 0)).map fun x => (i, x)
    else none

/-- The level of an MNT_PWM (0 to 7) or FAN_PWM (8 to 11) pin now. -/
def State.pinHigh (s : State) (pin : Nat) : Bool :=
  s.board.mainRunning && (s.pinSpans pin).any fun x => x.2.1 ≤ s.carrierStep x.1 && s.carrierStep x.1 < x.2.2

/-! ### States (R641 to R643, R652 to R655) -/

/-- HEADROOM ends. -/
def State.headroomEnd (s : State) (i : Nat) : State :=
  if s.rd (Reg.MNT_LOOP_STATUS_HEADROOM i) = 0 then s
  else (s.wr (Reg.MNT_LOOP_STATUS_HEADROOM i) 0).modLoop i fun x => { x with headAt := none, outAt := s.now, satRun := 0, freeRun := 0 }

/-- OFF: no pin driven, nothing computed; HEADROOM and CHARGE_LIMITED end. -/
def State.loopOff (s : State) (i : Nat) : State :=
  let s1 := (s.headroomEnd i).wr (Reg.MNT_LOOP_STATUS_STATE i) 0
  let s2 := (s1.wr (Reg.MNT_DUTY_D0 i) 0).wr (Reg.MNT_DUTY_D1 i) 0
  let s3 := s2.modLoop i fun x => { x with d := [0, 0], sampled := none, change := none }
  if s3.rd (Reg.MNT_LOOP_STATUS_CHARGE_LIMITED i) = 1 then (s3.wr (Reg.MNT_LOOP_STATUS_CHARGE_LIMITED i) 0).raise 1739 else s3

/-- RUN, or STANDBY for slot 1 before a loss: from OFF or BYPASSED with every estimate and the integral at 0 and the profile to start at
measurement 0 (R642). -/
def State.loopStart (s : State) (i : Nat) : State :=
  let st := if i = 1 ∧ !s.lossReported then 1 else 2
  let fromRest := s.loopState i = 0 ∨ s.loopState i = 3
  let s1 := s.wr (Reg.MNT_LOOP_STATUS_STATE i) st
  if fromRest then s1.modLoop i fun x => { x with
    xh := List.replicate 8 0, xc := List.replicate 8 0, z := 0, r := 0, v := 0, a := 0, fresh := true, satRun := 0, freeRun := 0, skips := 0, rails := [0, 0, 0, 0], sampled := none }
  else s1

/-- Output duties applied at once (R638). -/
def State.applyDuty (s : State) (i : Nat) (d : List Nat) : State :=
  let t := s.carrierStep i
  let p := s.carrier i
  ((s.wr (Reg.MNT_DUTY_D0 i) (d.getD 0 0)).wr (Reg.MNT_DUTY_D1 i) (d.getD 1 0)).modLoop i fun x => { x with
    d := d
    fall := (List.range 2).map fun o => fallAt t (x.fall.getD o 0) (onStep (d.getD o 0) p) }

/-- MNT_FAULT_N holds the pins of a slot low. -/
def State.loopForced (s : State) (i : Nat) : Bool := s.rd (Reg.MNT_LOOP_STATUS_FORCED i) == 1

/-- The duty a bypassed slot carries: SAFE_DUTY; slot 0 carries 0 in phase FULL (R673). -/
def State.safeDuty (s : State) (i : Nat) : Nat := if i = 0 ∧ s.rd Reg.MNT_STATUS_CHG_PHASE = 3 then 0 else s.plantN i 0x1C 2

def State.safeDuties (s : State) (i : Nat) : List Nat :=
  (List.range 2).map fun o => if s.loopForced i || s.plantN i 3 1 ≤ o then 0 else s.safeDuty i

/-- BYPASSED, with its cause; HEADROOM ends; trigger source 4. -/
def State.loopBypass (s : State) (i cause : Nat) : State :=
  let s1 := (((s.headroomEnd i).wr (Reg.MNT_LOOP_STATUS_STATE i) 3).wr (Reg.MNT_LOOP_STATUS_FAULT i) cause).wr (Reg.MNT_LOOP_CTL_BYPASS i) 1
  let s2 := (s1.modLoop i fun x => { x with change := none }).applyDuty i (s1.safeDuties i)
  (s2.raise (1729 + 2 * i)).trcTrigger i 4

/-- A bypass or a return asked for takes effect at a period start (R654); a return takes the values committed meanwhile (05 R162). -/
def State.loopChange (s : State) (i : Nat) : State :=
  match (s.loop i).change with
  | none => s
  | some true => if s.loopState i = 1 ∨ s.loopState i = 2 then s.loopBypass i 3 else s.modLoop i fun x => { x with change := none }
  | some false =>
    let s1 := s.modLoop i fun x => { x with change := none }
    if s.loopState i = 3 then ((s1.fitRelease (2 + i)).loopStart i).raise (1729 + 2 * i) else s1

/-- A write of BYPASS by the Belfry (R654). -/
def State.bypassWrite (s : State) (i : Nat) (b : Bool) : State :=
  (s.wr (Reg.MNT_LOOP_CTL_BYPASS i) (bit b)).modLoop i fun x => { x with change := some b }

/-- Pins a slot's outputs ask for beyond what R634 drives. -/
def tooManyPins (map : Nat) : Bool := map / 256 % 16 == 0 && 2 < ((List.range 8).filter fun k => map.testBit k).length

/-- MAP_WARN (R634, R640). -/
def State.mapWarn (s : State) (i : Nat) : Bool :=
  ((List.range (s.plantN i 2 1)).any fun j => s.plantN i (12 + j) 1 == 0xFF) || ((List.range (s.plantN i 3 1)).any fun o => tooManyPins (s.plantN i (8 + 2 * o) 2))

/-! ### Adoption (R657, R650) -/

/-- A fitting of a slot's class is adopted: estimates at or above the new N_STATES are 0, the rate and acceleration within the new limits, the
slot starts or stops as ENABLE says. -/
def State.adoptMantle (s : State) (i : Nat) : State :=
  let n := s.plantN i 1 1
  let vmax : Int := s.plantN i 0x10 4 * 65536
  let amax : Int := s.plantN i 0x14 4 * 256
  let cut (l : List Int) : List Int := (List.range 8).map fun k => if k < n then l.getD k 0 else 0
  let s1 := s.modLoop i fun x => { x with xh := cut x.xh, xc := cut x.xc, v := max (-vmax) (min vmax x.v), a := max (-amax) (min amax x.a), sampled := none, workEnd := 0 }
  let en := s.plantN i 0 1 = 1
  if !en ∧ s.loopState i ≠ 0 then s1.loopOff i
  else if en ∧ s.loopState i = 0 ∧ !(i = 0 ∧ s.lossReported) then s1.loopStart i
  else s1

/-! ### The sample instant (R640, R648, R655) -/

/-- The period begins, SAMPLE_OFS Mantle clocks before its sample instant: a fitting of the slot's class is adopted (05 R161), a change asked for, pins
that resume, the carrier. -/
def State.periodStart (s0 : State) (i : Nat) : State :=
  let s := if s0.fitPending (2 + i) then (s0.fitAdoptClass (2 + i)).adoptMantle i else s0
  let s1 := if s.loopForced i && s.board.faultN then s.wr (Reg.MNT_LOOP_STATUS_FORCED i) 0 else s
  (s1.loopChange i).carrierStart i (s.mantleClock - s.rd (Reg.MNT_PWM_CFG_SAMPLE_OFS i))

/-- Slot 1's first period begins no earlier than 100 ns after the pins of slot 0 have fallen at a loss report (R635). -/
def State.tooEarly (s : State) (i : Nat) : Bool :=
  i == 1 && s.lossReported && decide (2 * s.now < 2 * s.mnt.lossAt + 200 + 5 * s.rd (Reg.MNT_PWM_CFG_SAMPLE_OFS i))

/-- The sample instant of a slot: its conversions requested, or the period skipped where its previous work has not ended. -/
def State.sampleInstant (s0 : State) (i : Nat) : State :=
  let s := s0.periodStart i
  if s0.tooEarly i then s0
  else if s.loopState i = 0 then s
  else
    let x := s.loop i
    if x.sampled.isSome ∨ s.mantleClock < x.workEnd then
      let s1 := ((s.bump (Reg.MNT_OVERRUNS_COUNT i)).modLoop i fun y => { y with skips := y.skips + 1 }).loopFlags i 32
      if 16 ≤ x.skips + 1 ∧ (s.loopState i = 1 ∨ s.loopState i = 2) then s1.loopBypass i 1 else s1
    else
      let s1 := s.modLoop i fun y => { y with sampled := some s.mantleClock, skips := 0 }
      if s.mapWarn i then s1.wr (Reg.MNT_LOOP_STATUS_MAP_WARN i) 1 else s1

def execMntSampleInstant (slot : Fin 4) (s : State) : Host.Outcome State Fault Refusal :=
  .next (if s.mainUp then s.sampleInstant slot.val else s)

/-! ### The profile generator (R649) -/

def signOf (x : Int) : Int := if 0 < x then 1 else if x < 0 then -1 else 0

/-- Position, rate and acceleration after a period in which the generator advances toward a target. -/
def profileStep (vmax amax jmax target r v a : Int) : Int × Int × Int :=
  let t := target * 4294967296
  let e := t - r
  let vt := signOf e * min vmax (Nat.sqrt (2 * amax * |e|).toNat : Int)
  let al := min (max (vt - v) (-amax)) amax
  let a1 := a + min (max (al - a) (-jmax)) jmax
  let v1 := min (max (v + a1) (-vmax)) vmax
  let r1 := r + v1
  if e = 0 ∨ signOf (t - r1) ≠ signOf e then (t, 0, 0) else (r1, v1, a1)

/-! ### The loop equations (R645, R647) -/

/-- Latency of output o in Mantle clocks. -/
def latency (m n o wait : Nat) : Nat := 100 * m + 6 * (2 * m * n + (o + 1) * (n + 2)) + 296 + wait

/-- The time of the prediction after the last output. -/
def predictTime (n p : Nat) : Nat := 2 * (n + p + 1) + 20

/-- A computation of a slot from the codes of its measurements; `wait` is the time its conversions queued. -/
structure LoopOut where
  next : Loop
  conds : Nat
  rail : Bool
  satAny : Bool
  deriving DecidableEq, Repr

/-- The limits a duty has: MAX below MIN acts as MIN. -/
def State.dutyLim (s : State) (i : Nat) : Nat × Nat :=
  let lo := s.rd (Reg.MNT_DUTY_LIM_MIN i)
  (lo, max lo (s.rd (Reg.MNT_DUTY_LIM_MAX i)))

/-- One period of a slot: the observer, and in RUN the outputs, in STANDBY duty 0, in BYPASSED SAFE_DUTY. -/
def State.loopCompute (s : State) (i : Nat) (codes : List Nat) : LoopOut :=
  let x := s.loop i
  let st := s.loopState i
  let n := s.plantN i 1 1
  let m := s.plantN i 2 1
  let p := s.plantN i 3 1
  let frac := s.plantN i 7 1
  let mapped (j : Nat) : Bool := s.plantN i (12 + j) 1 != 0xFF
  let y : List Int := (List.range 4).map fun j => if j < m ∧ mapped j then 4 * (codes.getD j 0 : Int) else 0
  let railed (j : Nat) : Bool := decide (j < m) && mapped j && (codes.getD j 0 == 0 || codes.getD j 0 == 16383)
  -- observer
  let nuRaw : List Int := (List.range m).map fun j => y.getD j 0 - dot frac (s.plantRow i 0x160 8 j n) x.xh
  let nu := nuRaw.map sat
  let xcRaw : List Int := (List.range n).map fun k => x.xh.getD k 0 + dot frac (s.plantRow i 0x1E0 4 k m) nu
  let xc := xcRaw.map sat
  -- set-point and feed-forward
  let r0 : Int := if x.fresh then y.getD 0 0 * 4294967296 else x.r
  let v0 : Int := if x.fresh then 0 else x.v
  let a0 : Int := if x.fresh then 0 else x.a
  let rsRaw := (r0 + 2147483648) / 4294967296
  let rs := sat rsRaw
  let mode := s.plantN i 6 1
  let f : Int := if mode = 1 then y.getD (m - 1) 0 else if mode = 2 then sat (a0 / 65536) else 0
  -- outputs
  let lim := s.dutyLim i
  let u : List Int := if st = 2 then (List.range p).map fun o =>
      sat (- dot frac (s.plantRow i 0x260 8 o n) xc + dot frac [s.plantC i (0x2A0 + 4 * o)] [x.z] + dot frac [s.plantC i (0x2A8 + 4 * o)] [f])
    else []
  let clamp (v : Int) : Nat := (min (max v lim.1) lim.2).toNat
  let satO (o : Nat) : Bool := match u[o]? with | some v => (clamp v : Int) != v | none => false
  let hold : Bool := 2 ≤ i && s.thm.trip.isSome
  let d : List Nat := (List.range 2).map fun o =>
    if p ≤ o || s.loopForced i then 0
    else if st = 2 then (if hold then lim.2 else match u[o]? with | some v => clamp v | none => 0)
    else if st = 3 then s.safeDuty i else 0
  let satAny := (List.range p).any satO
  let frozen := satAny || s.loopForced i
  let dApp : List Int := (List.range p).map fun o => (d.getD o 0 : Int)
  let xhRaw : List Int := (List.range n).map fun k =>
    if frozen && 2 ≤ n && k == n - 1 then xc.getD k 0
    else (rowSum (s.plantRow i 0x20 8 k n) xc + rowSum (s.plantRow i 0x120 2 k p) dApp + 2 ^ (frac - 1)) / 2 ^ frac
  let xh := xhRaw.map sat
  let zRaw : Int := if st = 2 ∧ !frozen then x.z + rs - y.getD 0 0 else if st = 1 then 0 else x.z
  let z := sat zRaw
  -- the profile
  let head := s.rd (Reg.MNT_LOOP_STATUS_HEADROOM i) == 1
  let target := signed 32 (s.reg (Reg.MNT_TARGET i)).toNat
  let q : Int × Int × Int :=
    if st = 3 then (r0, v0, a0)
    else if head then (r0, 0, 0)
    else profileStep (s.plantN i 0x10 4 * 65536) (s.plantN i 0x14 4 * 256) (s.plantN i 0x18 4) target r0 v0 a0
  let anyRail := (List.range 4).any railed
  let conds := (bit (satO 0)) + 2 * (bit (satO 1)) + 4 * (bit (nuRaw != nu || xcRaw != xc || xhRaw != xh)) + 8 * (bit (zRaw != z)) +
    16 * (bit (st != 3 && rsRaw != rs)) + 64 * (bit anyRail) + 128 * (bit (s.loopForced i))
  let rails := (List.range 4).map fun j => if railed j then x.rails.getD j 0 + 1 else 0
  { next := { x with
      xh := xh ++ List.replicate (8 - n) 0
      xc := xc ++ List.replicate (8 - n) 0
      nu := nu ++ List.replicate (4 - m) 0
      y := y
      u := u
      d := d
      z := z
      f := f
      rs := rs
      r := q.1
      v := q.2.1
      a := q.2.2
      fresh := if st = 3 then x.fresh else false
      rails := rails
      satRun := if st = 2 then (if satAny then x.satRun + 1 else 0) else x.satRun
      freeRun := if st = 2 then (if satAny then 0 else x.freeRun + 1) else x.freeRun
      sampled := none }
    conds := conds + 512 * bit frozen
    rail := rails.any fun k => decide (1024 ≤ k)
    satAny := satAny }

/-- The store can no longer hold the bus (19 R675): STORE_EMPTY, PWR_KILL_N with the outcome of R39, and the record of it. -/
def State.storeEmpty (s : State) : State :=
  if s.rd Reg.MNT_STATUS_STORE_EMPTY = 1 then s
  else ((s.wr Reg.MNT_STATUS_STORE_EMPTY 1).record 0x0D 3 [s.mnt.lossOcc, (s.mnt.strs.filter fun e => e.2.counted).length]).kill 1

/-- A period's results shown in the registers, the flags, HEADROOM, the trace. -/
def State.periodCompute (s : State) (i : Nat) (codes : List Nat) (wait : Nat) : State :=
  match (s.loop i).sampled with
  | none => s
  | some clock =>
    let o := s.loopCompute i codes
    let n := s.plantN i 1 1
    let m := s.plantN i 2 1
    let p := s.plantN i 3 1
    let lat := latency m n (p - 1) wait
    let chans := (List.range m).foldl (fun (c : SMap Nat) j => let ch := s.plantN i (12 + j) 1; if ch < 16 then mapSet (fun _ => 0) c ch (codes.getD j 0) else c) s.mnt.codes
    let s1 := (s.modMnt fun x => { x with codes := chans }).setLoop i { o.next with workEnd := clock + lat + predictTime n p }
    let s2 := (s1.applyDuty i o.next.d).wr (Reg.MNT_SETPOINT_RS i) (toCode 32 o.next.rs)
    let s3 := (s2.wr (Reg.MNT_LATENCY_LAST i) lat).wr (Reg.MNT_LATENCY_MAX i) (max lat (s2.rd (Reg.MNT_LATENCY_MAX i)))
    let s4 := s3.wr (Reg.MNT_PERIODS_COUNT i) (s3.rd (Reg.MNT_PERIODS_COUNT i) + 1)
    let s5 := if o.satAny then s4.bump (Reg.MNT_SAT_PERIODS_COUNT i) else s4
    let s6 := (List.range 8).foldl (fun t k => t.wr (Reg.MNT_XHAT_VALUE i k) (toCode 32 (o.next.xh.getD k 0))) (s5.wr (Reg.MNT_Z_VALUE i) (toCode 32 o.next.z))
    -- headroom (R652)
    let head := s6.rd (Reg.MNT_LOOP_STATUS_HEADROOM i) == 1
    let enter := !head && 8 ≤ o.next.satRun
    let s7 := if enter then (s6.wr (Reg.MNT_LOOP_STATUS_HEADROOM i) 1).modLoop i fun x => { x with headAt := some s.now, v := 0, a := 0 } else s6
    let s8 := if head && 64 ≤ o.next.freeRun then s7.headroomEnd i else s7
    let conds := o.conds + 256 * s8.rd (Reg.MNT_LOOP_STATUS_HEADROOM i) + 1024 * s.loopState i
    let s9 := s8.trcRecord i lat conds clock
    let s10 := s9.loopFlags i (o.conds % 256)
    let s11 := if enter then (s10.raise 1738).trcTrigger i 2 else s10
    let s12 := if o.rail && (s.loopState i == 1 || s.loopState i == 2) then s11.loopBypass i 2 else s11
    match (s12.loop 1).headAt with
    | some t => if i = 1 ∧ s12.lossReported ∧ t + 1000000 ≤ s.now then s12.storeEmpty else s12
    | none => s12

/-- MNT_PERIOD_COMPUTE: the codes of the slot's measurements are there; `wait` is how long they queued, in Mantle clocks. -/
def execMntPeriodCompute (slot : Fin 4) (codes : List (Fin 16384)) (wait : Nat) (s : State) : Host.Outcome State Fault Refusal :=
  .next (if s.mainUp then s.periodCompute slot.val (codes.map fun c => c.val) wait else s)

/-! ### CHARGE_LIMITED (R653) -/

def State.chargeTimer (s : State) : State :=
  let x := s.loop 0
  let limited := s.rd (Reg.MNT_LOOP_STATUS_CHARGE_LIMITED 0) == 1
  match x.headAt with
  | some t => if !limited && t + 2000000000 ≤ s.now then (s.wr (Reg.MNT_LOOP_STATUS_CHARGE_LIMITED 0) 1).raise 1739 else s
  | none => if limited && x.outAt + 1000000000 ≤ s.now then (s.wr (Reg.MNT_LOOP_STATUS_CHARGE_LIMITED 0) 0).raise 1739 else s

def execChargeLimitedTimer (s : State) : Host.Outcome State Fault Refusal := .next (if s.mainUp then s.chargeTimer else s)

/-! ### Writes (R643, R651, R654, R658) -/

/-- A write of MNT_LOOP_CTL: agents other than 4 discarded. -/
def State.loopCtlWrite (s : State) (agent i : Nat) (data : Word) : State := if agent = 4 then s.bypassWrite i (data.getLsbD 0) else s

def execMntLoopBypassWrite (agent : Fin 8) (slot : Fin 4) (data : Word) (s : State) : Host.Outcome State Fault Refusal :=
  .next (if s.answers (Reg.MNT_LOOP_CTL slot.val) then s.loopCtlWrite agent.val slot.val data else s)

/-- A write of MNT_TARGET: the host's for slots 0 and 1 is discarded; slot 1's target is fixed. -/
def State.targetWrite (s : State) (agent i : Nat) (data : Word) : State :=
  if i = 1 ∨ (i = 0 ∧ agent ≤ 3) ∨ (i = 0 ∧ agent = 5) then s else s.setReg (Reg.MNT_TARGET i) data

def execMntTargetWrite (agent : Fin 8) (slot : Fin 4) (data : Word) (s : State) : Host.Outcome State Fault Refusal :=
  .next (if s.answers (Reg.MNT_TARGET slot.val) then s.targetWrite agent.val slot.val data else s)

/-- A W1C write of MNT_LOOP_FLAGS; a condition arriving in the same clock stays (00 R18). -/
def State.loopFlagsClear (s : State) (i : Nat) (data arriving : Word) : State :=
  let keep := data &&& ~~~arriving
  (s.setReg (Reg.MNT_LOOP_FLAGS i) (s.reg (Reg.MNT_LOOP_FLAGS i) &&& ~~~(keep &&& 0xFF#32))).loopFlags i (arriving &&& 0xFF#32).toNat

def execMntLoopFlagsClear (_agent : Fin 8) (slot : Fin 4) (data arriving : Word) (s : State) : Host.Outcome State Fault Refusal :=
  .next (if s.answers (Reg.MNT_LOOP_FLAGS slot.val) then s.loopFlagsClear slot.val data arriving else s)

/-- ARM: recording begins at index 0. -/
def State.trcArm (s : State) (i : Nat) : State :=
  let s1 := s.setReg (Reg.MNT_TRC_STATUS i) 0x80000000#32
  s1.modLoop i fun x => { x with recording := true, post := none, decim := 0, taken := 0 }

/-- STOP: recording ends with DONE. -/
def State.trcStop (s : State) (i : Nat) : State := s.trcDone i

/-- A write of MNT_TRC_CTL: its fields, then what its write-only bits ask for. -/
def State.trcWrite (s : State) (i : Nat) (data : Word) : State :=
  let s1 := s.setReg (Reg.MNT_TRC_CTL i) (data &&& 0x1FF03FFF#32)
  let s2 := if data.getLsbD 31 then s1.trcArm i else s1
  let s3 := if data.getLsbD 30 then s2.trcTrigger i 0 else s2
  if data.getLsbD 29 then s3.trcStop i else s3

/-- MNT_TRC_ARM: a write of MNT_TRC_CTL with ARM set. -/
def execMntTrcArm (_agent : Fin 8) (slot : Fin 4) (data : Word) (s : State) : Host.Outcome State Fault Refusal :=
  .next (if s.answers (Reg.MNT_TRC_CTL slot.val) then s.trcWrite slot.val (data ||| 0x80000000#32) else s)

/-- MNT_TRC_TRIGGER: a write with TRIGGER set. -/
def execMntTrcTrigger (_agent : Fin 8) (slot : Fin 4) (data : Word) (s : State) : Host.Outcome State Fault Refusal :=
  .next (if s.answers (Reg.MNT_TRC_CTL slot.val) then s.trcWrite slot.val (data ||| 0x40000000#32) else s)

/-- MNT_TRC_STOP: a write with STOP set. -/
def execMntTrcStop (_agent : Fin 8) (slot : Fin 4) (data : Word) (s : State) : Host.Outcome State Fault Refusal :=
  .next (if s.answers (Reg.MNT_TRC_CTL slot.val) then s.trcWrite slot.val (data ||| 0x20000000#32) else s)

/-! ### MNT_FAULT_N (R656) -/

/-- MNT_FAULT_N falls: every pin low at once, every slot FORCED, source 1,742. -/
def State.faultFall (s : State) : State :=
  let s1 := s.modBoard fun b => { b with faultN := false, faultNSince := s.now }
  let s2 := (List.range 4).foldl (fun t i => ((t.wr (Reg.MNT_LOOP_STATUS_FORCED i) 1).applyDuty i [0, 0]).loopFlags i 128) s1
  s2.raise 1742

def execMntFaultNFall (s : State) : Host.Outcome State Fault Refusal := .next (if s.mainUp then s.faultFall else s.modBoard fun b => { b with faultN := false, faultNSince := s.now })

/-- MNT_FAULT_N has been high for 1 µs: the pins resume at each slot's next period start. -/
def execMntFaultNRelease (s : State) : Host.Outcome State Fault Refusal := .next (s.modBoard fun b => { b with faultN := true, faultNSince := s.now })

end Sys2Proof.Machine
end

