-- ==== Sys2Proof/Machine/Energy.lean ====
section
/-!
DEFINITION. Machine/Energy.lean: the strings of the store (19): samples, state of charge, usable energy, charge control, end of
discharge, learning, impedance and string faults. Voltages are held in mV, currents in mA, charge in mA × 100 µs, states of
charge in 10^-9, temperatures in 1/16 °C (log entry 50).
-/
namespace Sys2Proof.Machine

/-! ### Strings -/

/-- The string is fitted. -/
def State.fitted (s : State) (k : Nat) : Bool := s.image.inForce && k < s.cfg 0x61 0 0

def State.strings (s : State) : List Nat := (List.range 4).filter s.fitted

/-- A field of a string block of MANTLE_STORE (04 Table 4.13). -/
def State.strCfg (s : State) (k off : Nat) : Nat := storeGet s.image.cfg k off
def State.chem (s : State) (k : Nat) : Nat := s.strCfg k 0
def State.capRated (s : State) (k : Nat) : Nat := s.strCfg k 4
def State.vFull (s : State) (k : Nat) : Nat := s.strCfg k 8
def State.vEmpty (s : State) (k : Nat) : Nat := s.strCfg k 10
def State.rInit (s : State) (k : Nat) : Nat := s.strCfg k 12
def State.iChg (s : State) (k : Nat) : Nat := s.strCfg k 16
def State.iDis (s : State) (k : Nat) : Nat := s.strCfg k 20

/-- Before learning: 80 % of CAP_RATED_MC, and twice R_INIT_UOHM everywhere (R671). -/
def State.strStart (s : State) (k : Nat) : Str := { Str.init with q := s.capRated k * 4 / 5, rt := List.replicate 33 (2 * s.rInit k) }

def State.str (s : State) (k : Nat) : Str := match s.mnt.strs.find? fun e => e.1 == k with | some e => e.2 | none => s.strStart k

def State.setStr (s : State) (k : Nat) (x : Str) : State :=
  s.modMnt fun m => { m with strs := (m.strs.filter fun (e : Nat × Str) => e.1 < k) ++ [(k, x)] ++ (m.strs.filter fun (e : Nat × Str) => k < e.1) }

def State.modStr (s : State) (k : Nat) (f : Str → Str) : State := s.setStr k (f (s.str k))

def State.maskBit (s : State) (f : Field) (k : Nat) : Bool := (s.rd f).testBit k
def State.setMaskBit (s : State) (f : Field) (k : Nat) (b : Bool) : State :=
  s.wr f (if b then s.rd f ||| 2 ^ k else if (s.rd f).testBit k then s.rd f - 2 ^ k else s.rd f)

def State.connected (s : State) (k : Nat) : Bool := s.maskBit Reg.MNT_STATUS_CONNECTED k
def State.strFaulted (s : State) (k : Nat) : Bool := s.maskBit Reg.MNT_STATUS_FAULTED k
def State.unrested (s : State) (k : Nat) : Bool := s.maskBit Reg.MNT_STATUS_UNRESTED k

/-- A line of BEL_GPIO. -/
def State.gpio (s : State) (k : Nat) (b : Bool) : State :=
  s.modBoard fun x => { x with belGpio := if b then x.belGpio ||| 2 ^ k else if x.belGpio.testBit k then x.belGpio - 2 ^ k else x.belGpio }

/-- The connect path of a string closes or opens. -/
def State.connect (s : State) (k : Nat) (b : Bool) : State := (s.setMaskBit Reg.MNT_STATUS_CONNECTED k b).gpio k b

/-! ### Table 19.1 -/

/-- Normalized open-circuit voltage, per mille, at 0 %, 10 %, ... 100 %. -/
def ocvTable (chem : Nat) : List Nat :=
  if chem = 1 then [0, 375, 483, 542, 583, 625, 683, 750, 817, 892, 1000]
  else if chem = 2 then [0, 500, 564, 600, 627, 655, 682, 718, 764, 836, 1000]
  else [0, 100, 200, 300, 400, 500, 600, 700, 800, 900, 1000]

def billion : Int := 1000000000

/-- u of a state of charge, both in 10^-9, by linear interpolation. -/
def uOfSoc (chem : Nat) (soc : Nat) : Nat :=
  let k := min 9 (soc / 100000000)
  let t (i : Nat) : Nat := (ocvTable chem).getD i 1000
  t k * 1000000 + (t (k + 1) - t k) * 1000000 * (soc - k * 100000000) / 100000000

/-- The state of charge at a u, clamped to 0 and 1 (R667). -/
def socOfU (chem : Nat) (u : Int) : Nat :=
  let v := (max 0 (min billion u)).toNat
  let t (i : Nat) : Nat := (ocvTable chem).getD i 1000
  let k := ((List.range 10).find? fun i => v ≤ t (i + 1) * 1000000).getD 9
  k * 100000000 + (v - t k * 1000000) * 100000000 / ((t (k + 1) - t k) * 1000000)

/-- The integral of u from 0 to a state of charge, in 10^-9. -/
def uIntegral (chem : Nat) (soc : Nat) : Nat :=
  ((List.range 10).map fun k =>
    let lo := k * 100000000
    if soc ≤ lo then 0
    else
      let hi := min soc (lo + 100000000)
      (uOfSoc chem lo + uOfSoc chem hi) * (hi - lo) / 2000000000).sum

/-! ### Senses (R665) -/

def codeMv (code : Nat) : Int := code * 60000 / 16384
/-- The current of a code: charge positive, I_FS = 1.25 × the greater limit. -/
def State.codeMa (s : State) (k code : Nat) : Int := Int.tdiv (((code : Int) - 8192) * 60 * (max (s.iChg k) (s.iDis k))) 327680
/-- The temperature of a code, 1/16 °C. -/
def codeTemp (code : Nat) : Int := ((code : Int) * 19200 - 131072000) / 163840

/-! ### State of charge and impedance (R667 to R669, R680) -/

/-- The state of charge now. -/
def State.socNow (s : State) (k : Nat) : Nat :=
  let x := s.str k
  if s.chem k = 0 then x.soc else (max 0 (min billion ((x.soc : Int) + x.count * 100000 / (max 1 x.q : Nat)))).toNat

/-- The entry of the impedance table in force: nearest SoC point, present temperature bin. -/
def State.rIndex (s : State) (k : Nat) : Nat :=
  let t := (s.str k).temp
  11 * (if t < 240 then 0 else if t ≤ 560 then 1 else 2) + min 10 ((s.socNow k + 50000000) / 100000000)

/-- R_s in µΩ. -/
def State.rNow (s : State) (k : Nat) : Nat := (s.str k).rt.getD (s.rIndex k) 0

/-- v_ocv in mV. -/
def State.vOcv (s : State) (k : Nat) : Int := (s.str k).mv - Int.tdiv ((s.str k).ma * s.rNow k) 1000000

/-- SoC from Table 19.1. -/
def State.socFromOcv (s : State) (k : Nat) : Nat :=
  socOfU (s.chem k) ((s.vOcv k - s.vEmpty k) * billion / ((s.vFull k - s.vEmpty k : Nat) : Int))

def restNs (chem : Nat) : Nat := if chem = 0 then 60000000000 else 1800000000000

/-- The string is at rest: its current has stayed at or below 0.5 % of I_DIS_MAX_MA for the rest time. -/
def State.atRest (s : State) (k : Nat) : Bool := match (s.str k).restAt with | some t => t + restNs (s.chem k) ≤ s.now | none => false

/-- Empty under load (R670): the open-circuit voltage has come down to V_EMPTY_MV. -/
def State.emptyUnderLoad (s : State) (k : Nat) : Bool :=
  (s.str k).mv ≤ s.vEmpty k - Int.tdiv (|(s.str k).ma| * s.rNow k) 1000000

/-- The string of the learning discharge, and the exclusion of R367. -/
def State.learnState (s : State) : Nat := s.rd Reg.MNT_STATUS_LEARN_STATE
def State.learnString (s : State) : Nat := s.rd Reg.MNT_STATUS_LEARN_STRING
def State.excluded (s : State) (k : Nat) : Bool := s.rd Reg.STR_DW_STATUS_LEARN_EXCL == 1 && s.rd Reg.STR_DW_STATUS_LEARN_STRING == k

/-- The string counts toward e_use (19, Usable energy). -/
def State.counts (s : State) (k : Nat) : Bool := s.fitted k && !s.strFaulted k && s.connected k && !s.excluded k

/-! ### Learning (R676 to R679) -/

/-- The exclusion begins or ends. -/
def State.exclude (s : State) (k : Nat) (b : Bool) : State := (s.wr Reg.STR_DW_STATUS_LEARN_EXCL (bit b)).wr Reg.STR_DW_STATUS_LEARN_STRING k

/-- A learning ends with its outcome: 1 accepted, 2 rejected, 3 disqualified, 4 aborted. -/
def State.learnLast (s : State) (k v : Nat) : State := s.wr (Reg.MNT_STR_LEARN_LAST k) v

/-- The path of an aborted or ended discharge closes, unless a fault opened it. -/
def State.reconnect (s : State) (k : Nat) : State :=
  let f := s.rd (Reg.MNT_STR_LEARN_FAULT k)
  if f = 2 ∨ f = 3 then s else s.connect k true

/-- Aborts a running discharge (R679): the load goes off; the path closes and the string recharges, but at a loss report the path stays open. A
pending one is dropped. -/
def State.learnAbort (s : State) (loss : Bool) : State :=
  let k := s.learnString
  if s.learnState = 1 then
    if loss then s else ((s.wr Reg.MNT_STATUS_LEARN_STATE 0).exclude k false).learnLast k 4
  else if s.learnState = 2 then
    let s1 := ((s.gpio (4 + k) false).learnLast k 4).modMnt fun m => { m with learn := m.learn.map fun (l : Learn) => { l with load := false, bad := true } }
    let s2 := s1.modStr k fun x => { x with cycle := x.cycle.map fun c => (c.1, c.2.1, true, c.2.2.2) }
    if loss then s2 else (s2.reconnect k).wr Reg.MNT_STATUS_LEARN_STATE 3
  else s

/-- A string fault (R681): it stops counting, its cause is recorded, source 1,740; its discharge is aborted. -/
def State.strFault (s : State) (k cause : Nat) : State :=
  if s.strFaulted k then s
  else
    let s1 := ((s.setMaskBit Reg.MNT_STATUS_FAULTED k true).wr (Reg.MNT_STR_LEARN_FAULT k) cause).modStr k fun x => { x with cycle := none }
    let s2 := if cause = 2 ∨ cause = 3 then s1.connect k false else s1
    (if s2.learnState = 2 ∧ s2.learnString = k then s2.learnAbort false else s2).raise 1740

/-- A measured capacity of a qualified cycle: accepted within 50 % to 120 % of CAP_RATED_MC, else rejected; the third rejection below half in a row
is a fault (R677, R681). -/
def State.learnCapacity (s : State) (k qm : Nat) : State :=
  let cap := s.capRated k
  if cap ≤ 2 * qm ∧ 10 * qm ≤ 12 * cap then
    let s1 := s.modStr k fun x => { x with q := ((x.q : Int) + Int.tdiv ((qm : Int) - x.q) 4).toNat, rejects := 0, learnt := some (s.now, s.rNow k) }
    (s1.bump (Reg.MNT_STR_LEARN_COUNT k)).learnLast k 1
  else
    let n := if 2 * qm < cap then (s.str k).rejects + 1 else 0
    let s1 := ((s.modStr k fun x => { x with rejects := n }).bump (Reg.MNT_STR_LEARN_REJECTS k)).learnLast k 2
    if 3 ≤ n then s1.strFault k 4 else s1

/-- Table 19.2 by temperature: below 10 °C, above 45 °C, a span above 10 °C. -/
def tempBad (lo hi : Int) : Bool := lo < 160 || 720 < hi || 160 < hi - lo

/-- A rest point of a string: the cycle since the last one ends, and one begins (R676; strings 0 to 2). -/
def State.restPoint (s : State) (k : Nat) (first : Bool) : State :=
  let soc := s.socNow k
  let x := s.str k
  let s1 := match x.cycle with
    | some (a, tot, bad, lo, hi) =>
      let d := if a ≤ soc then soc - a else a - soc
      if !first || 3 ≤ k || d < 300000000 then s
      else if bad || tempBad lo hi then s.learnLast k 3
      else s.learnCapacity k ((x.total - tot).natAbs * 100000 / d)
    | none => s
  if s1.strFaulted k then s1 else s1.modStr k fun y => { y with cycle := some (soc, y.total, false, y.temp, y.temp) }

/-! ### Samples (R666) -/

/-- R_meas of a current step within the last millisecond, from the oldest sample that shows one. -/
def State.rMeas (s : State) (k : Nat) (mv ma : Int) : Option Nat :=
  match (s.str k).hist.reverse.find? fun h => s.iDis k ≤ 10 * (ma - h.2).natAbs with
  | some h =>
    let r := Int.tdiv ((mv - h.1) * 1000000) (ma - h.2)
    if 0 < r ∧ s.rInit k ≤ 10 * r ∧ r ≤ 50 * s.rInit k then some r.toNat else none
  | none => none

/-- The impedance entry in force moves by an eighth of the difference (R680); an entry above ten times R_INIT_UOHM is a fault. -/
def State.learnR (s : State) (k r : Nat) : State :=
  let i := s.rIndex k
  let s1 := s.modStr k fun x => { x with rt := modAt x.rt i fun e => ((e : Int) + Int.tdiv ((r : Int) - e) 8).toNat }
  if (s1.str k).rt.any fun e => 10 * s.rInit k < e then s1.strFault k 5 else s1

/-- Since when a condition holds. -/
def sinceWhen (cond : Bool) (now : Nat) (old : Option Nat) : Option Nat := if cond then some (old.getD now) else none

def heldFor (t : Option Nat) (now ns : Nat) : Bool := match t with | some x => x + ns ≤ now | none => false

/-- The registers of a string. -/
def State.showStr (s : State) (k : Nat) : State :=
  let x := s.str k
  let s1 := (s.wr (Reg.MNT_STR_VI_MV k) (min 65535 x.mv.toNat)).wr (Reg.MNT_STR_VI_I k) (toCode 16 (max (-32768) (min 32767 (Int.tdiv x.ma 10))))
  (s1.wr (Reg.MNT_STR_SOC_SOC k) (s.socNow k / 100000)).wr (Reg.MNT_STR_SOC_TEMP k) (toCode 16 x.temp)

/-- Discharged charge counted in thousandths of Q_s (R677). -/
def State.countCycles (s : State) (k : Nat) : State :=
  let x := s.str k
  let unit := 10 * max 1 x.q
  (s.wr (Reg.MNT_STR_CYCLES_MILLI k) (s.rd (Reg.MNT_STR_CYCLES_MILLI k) + x.disch / unit)).modStr k fun y => { y with disch := y.disch % unit }

/-- One sample of a string: voltage and current (R666 to R669, R676, R680, R681). -/
def State.sampleStr (s : State) (k : Nat) (cv ci : Nat) : State :=
  let x := s.str k
  let start := x.sampledAt = 0
  let mv := codeMv cv
  let ma := s.codeMa k ci
  let rm := if start then none else s.rMeas k mv ma
  let small := 1000 * ma.natAbs ≤ 5 * s.iDis k
  let wasRest := s.atRest k && !start
  -- Table 19.2: rate, and a sample gap above 10 ms
  let own := s.learnState = 2 ∧ s.learnString = k
  let fast := decide (s.iChg k < 2 * ma) || (if own then decide ((s.iDis k : Int) < -ma) else decide ((s.iDis k : Int) < -2 * ma))
  let gap := !start && x.sampledAt + 10000000 < s.now
  let s1 := s.setStr k { x with
    mv := mv
    ma := ma
    count := x.count + ma
    total := x.total + ma
    hist := if rm.isSome then [(mv, ma)] else ((mv, ma) :: x.hist).take 10
    restAt := sinceWhen small s.now x.restAt
    disch := x.disch + (-ma).toNat
    cycle := x.cycle.map fun c => (c.1, c.2.1, c.2.2.1 || fast || gap, min c.2.2.2.1 x.temp, max c.2.2.2.2 x.temp)
    railAt := sinceWhen (cv == 0 || cv == 16383 || ci == 0 || ci == 16383) s.now x.railAt
    sampledAt := s.now }
  let s2 := if own then s1.modMnt fun m => { m with learn := m.learn.map fun (l : Learn) => { l with
      bad := l.bad || fast || gap
      tmin := min l.tmin x.temp
      tmax := max l.tmax x.temp } } else s1
  -- state of charge
  let rest := s2.atRest k
  let s3 := if s.chem k = 0 || start || rest then
      let soc := s2.socFromOcv k
      s2.modStr k fun y => { y with soc := soc, count := 0 }
    else s2
  let s4 := if rest then (if s3.unrested k then s3.setMaskBit Reg.MNT_STATUS_UNRESTED k false else s3).restPoint k (!wasRest) else s3
  let s5 := match rm with | some r => s4.learnR k r | none => s4
  let s6 := s5.modStr k fun y => { y with overAt := sinceWhen (decide (105 * (s5.vFull k : Int) < 100 * s5.vOcv k)) s.now y.overAt }
  let s7 := if heldFor (s6.str k).railAt s.now 100000000 then s6.strFault k 1 else s6
  let s8 := if heldFor (s7.str k).overAt s.now 10000000 then s7.strFault k 2 else s7
  (s8.countCycles k).showStr k

/-- After a loss report a connected string that is empty under load is disconnected; when every string that counted is empty the store is (R675). -/
def State.emptyStrings (s : State) : State :=
  if !s.lossReported then s
  else
    let gone := s.strings.filter fun k => s.connected k && s.emptyUnderLoad k
    let s1 := gone.foldl (fun t k => (t.connect k false).modStr k fun x => { x with empty := true }) s
    if s1.strings.all fun k => !(s1.str k).counted || (s1.str k).empty then s1.storeEmpty else s1

/-- The learning discharge sees its string end (R678 step 4). -/
def State.stringSamples (s : State) (codes : List (Nat × Nat)) : State :=
  let s1 := s.strings.foldl (fun t k => match codes[k]? with
    | some c =>
      let ch (off code : Nat) (m : SMap Nat) : SMap Nat := if s.strCfg k off < 16 then mapSet (fun _ => 0) m (s.strCfg k off) code else m
      (t.modMnt fun m => { m with codes := ch 25 c.2 (ch 24 c.1 m.codes) }).sampleStr k c.1 c.2
    | none => t) s
  s1.emptyStrings

/-- MNT_STRING_SAMPLE, every 100 µs: the codes of ADC_V and ADC_I of each string, from string 0 on. -/
def execMntStringSample (codes : List (Fin 16384 × Fin 16384)) (s : State) : Host.Outcome State Fault Refusal :=
  .next (if s.mainUp then s.stringSamples (codes.map fun c => (c.1.val, c.2.val)) else s)

/-- A string's temperature (R666, R681 cause 3). -/
def State.sampleTemp (s : State) (k code : Nat) : State :=
  let t := if s.strCfg k 26 = 0xFF then 400 else codeTemp code
  let s1 := s.modStr k fun x => { x with temp := t, hotAt := sinceWhen (decide (1040 < t)) s.now x.hotAt }
  let s2 := if s.strCfg k 26 < 16 then s1.modMnt fun m => { m with codes := mapSet (fun _ => 0) m.codes (s.strCfg k 26) code } else s1
  let s3 := if heldFor (s2.str k).hotAt s.now 1000000000 then s2.strFault k 3 else s2
  s3.showStr k

/-- MNT_TEMP_SAMPLE, every 10 ms: the codes of ADC_T of each string. -/
def execMntTempSample (codes : List (Fin 16384)) (s : State) : Host.Outcome State Fault Refusal :=
  .next (if s.mainUp then s.strings.foldl (fun t k => match codes[k]? with | some c => t.sampleTemp k c.val | none => t) s else s)

/-! ### Usable energy (R670) -/

/-- e_s in µJ, before the factor 0.90; negative where the whole flush power leaves nothing. -/
def State.strEnergy (s : State) (k : Nat) : Int :=
  let soc := s.socNow k - (if s.unrested k then 50000000 else 0)
  let ve := s.vEmpty k
  -- voltage drop at the end-of-discharge current, µV: (W × 1000 / (0.9 × V_EMPTY_MV)) × R_s
  let drop : Nat := s.cfg 0x61 0 2 * 10000 * s.rNow k / (9 * max 1 ve)
  let x : Int := ve * soc + ((s.vFull k - ve) * uIntegral (s.chem k) soc : Nat) - (drop * soc / 1000 : Nat)
  (s.str k).q * x / billion

/-- The estimate: e_use and each string's share, in mJ. -/
def State.energyCompute (s : State) : State :=
  let share (k : Nat) : Int := if s.counts k then max 0 (s.strEnergy k) else 0
  let total : Int := (s.strings.map share).sum
  let s1 := (List.range 4).foldl (fun t k => t.wr (Reg.MNT_STR_ENERGY_MJ k) (if s.fitted k then (share k * 9 / 10 / 1000).toNat else 0)) s
  s1.wr Reg.MNT_EUSE_MJ (total * 9 / 10 / 1000).toNat

def execMntEnergyCompute (s : State) : Host.Outcome State Fault Refusal :=
  -- a take that opened ends a discharge that waits for takes at its next step (22 R741)
  .next (if s.mainUp then (if s.takesHold && s.learnState == 2 then s.learnAbort false else s).energyCompute else s)

/-! ### Charge control (R672) -/

def State.connectedStrings (s : State) : List Nat := s.strings.filter s.connected
def State.iFs0 (s : State) : Nat := (s.strings.map s.iChg).sum

/-- A connected string's terminal voltage has reached V_FULL_MV + i × R. -/
def State.taperNow (s : State) : Bool :=
  s.connectedStrings.any fun k => s.vFull k + Int.tdiv ((s.str k).ma * s.rNow k) 1000000 ≤ (s.str k).mv

/-- One millisecond of the charge control: phase, I_T, slot 0's target. It is off while slot 0 is. -/
def State.chargeControl (s : State) : State :=
  if s.loopState 0 = 0 then s.wr Reg.MNT_STATUS_CHG_PHASE 0
  else
    let ks := s.connectedStrings
    let phase := s.rd Reg.MNT_STATUS_CHG_PHASE
    let low := ks.any fun k => 100 * s.vOcv k < 98 * s.vFull k
    let taper := s.taperNow
    let current := (ks.map fun k => (s.str k).ma).sum
    let next := if phase = 1 then (if taper then 2 else 1)
      else if phase = 2 then (if 100 * current < 5 * s.iFs0 then 3 else 2)
      else if low then 1 else if phase = 0 ∧ taper then 2 else phase
    let full := (ks.map s.iChg).sum
    let prev := if phase = 2 then s.rd Reg.MNT_CHG_TARGET_MA else full
    let base := if next = 1 then full else if next = 2 then (if taper then prev * 7 / 8 else prev) else 0
    let excess := (ks.map fun k => ((s.str k).ma - s.iChg k).toNat).sum
    let it := base - excess
    let s1 := (s.wr Reg.MNT_STATUS_CHG_PHASE next).wr Reg.MNT_CHG_TARGET_MA it
    -- at the end of charge every connected string is full
    let s2 := if next = 3 ∧ phase ≠ 3 then ks.foldl (fun t k => (t.modStr k fun x => { x with soc := 1000000000, count := 0 }).showStr k) s1 else s1
    let fs := max 1 s.iFs0
    -- round(65,536 × (0.100 + I_T / I_FS0) / 1.200)
    let s3 := s2.setReg (Reg.MNT_TARGET 0) (BitVec.ofNat 32 ((2 * 65536 * (fs + 10 * it) + 12 * fs) / (24 * fs)))
    if s3.loopState 0 = 3 then s3.applyDuty 0 (s3.safeDuties 0) else s3

def execMntChargeControl (s : State) : Host.Outcome State Fault Refusal := .next (if s.mainUp then s.chargeControl else s)

/-! ### The learning discharge (R678) -/

/-- START: the discharge of a string is marked pending and the string excluded. -/
def State.learnStart (s : State) (k : Nat) : State :=
  if s.learnState ≠ 0 ∨ !s.fitted k ∨ s.lossReported then s
  else ((s.wr Reg.MNT_STATUS_LEARN_STATE 1).wr Reg.MNT_STATUS_LEARN_STRING k).exclude k true

/-- A write of MNT_LEARN_CTL: STRING stored; START and ABORT by agent 4 only. -/
def State.learnWrite (s : State) (agent : Nat) (data : Word) : State :=
  let s1 := s.wr Reg.MNT_LEARN_CTL_STRING (bitsOf data 0 2)
  if agent ≠ 4 then s1
  else
    let s2 := if data.getLsbD 31 then s1.learnStart (bitsOf data 0 2) else s1
    if data.getLsbD 30 then s2.learnAbort false else s2

/-- MNT_LEARN_START: a write of MNT_LEARN_CTL with START. -/
def execMntLearnStart (agent : Fin 8) (data : Word) (s : State) : Host.Outcome State Fault Refusal :=
  .next (if s.answers Reg.MNT_LEARN_CTL then s.learnWrite agent.val (data ||| 0x80000000#32) else s)

/-- MNT_LEARN_ABORT: a write of MNT_LEARN_CTL with ABORT. -/
def execMntLearnAbort (agent : Fin 8) (data : Word) (s : State) : Host.Outcome State Fault Refusal :=
  .next (if s.answers Reg.MNT_LEARN_CTL then s.learnWrite agent.val (data ||| 0x40000000#32) else s)

/-- Step 2 of R678: occupancy within the limit the exclusion leaves, no take open unless DURING_TAKE, no loss, charge full, the string at rest. -/
def State.learnReady (s : State) : Bool :=
  s.win.occ ≤ s.limitMib * mib && (s.openTakes.isEmpty || s.force Reg.BEL_MAINT_CFG3_DURING_TAKE == 1) && !s.lossReported &&
  s.rd Reg.MNT_STATUS_CHG_PHASE == 3 && s.atRest s.learnString

/-- LEARN_DISCHARGE_BEGIN (step 3): the path opens, the load goes on, source 1,741. -/
def State.learnBegin (s : State) : State :=
  let k := s.learnString
  if s.learnState ≠ 1 ∨ !s.learnReady ∨ s.strFaulted k then s
  else
    let x := s.str k
    let s1 := ((s.connect k false).gpio (4 + k) true).wr Reg.MNT_STATUS_LEARN_STATE 2
    (s1.modMnt fun m => { m with learn := some ⟨s.now, s.socNow k, x.total, false, x.temp, x.temp, true⟩ }).raise 1741

def execLearnDischargeBegin (s : State) : Host.Outcome State Fault Refusal := .next (if s.mainUp then s.learnBegin else s)

/-- LEARN_DISCHARGE_END (steps 4 and 5): string 3 at empty under load, strings 0 to 2 at SoC 0.50; the load goes off. -/
def State.learnEnd (s : State) : State :=
  let k := s.learnString
  match s.mnt.learn with
  | some l =>
    if s.learnState = 2 ∧ l.load ∧ (if k = 3 then s.emptyUnderLoad k else s.socNow k ≤ 500000000) then
      (s.gpio (4 + k) false).modMnt fun m => { m with learn := some { l with load := false, since := s.now } }
    else s
  | none => s

def execLearnDischargeEnd (s : State) : Host.Outcome State Fault Refusal := .next (if s.mainUp then s.learnEnd else s)

/-- LEARN_REST_END (steps 5 and 6): after the rest string 3's capacity is measured; the path closes and the string recharges. A string 0 to 2 has
ended its partial cycle at the rest point. -/
def State.learnRest (s : State) : State :=
  let k := s.learnString
  match s.mnt.learn with
  | some l =>
    if s.learnState = 2 ∧ !l.load ∧ s.atRest k then
      let soc := s.socNow k
      let s1 := if k ≠ 3 then s
        else if l.bad ∨ tempBad l.tmin l.tmax ∨ 50000000 < soc then s.learnLast k 3
        else s.learnCapacity k (((s.str k).total - l.total).natAbs * 100000 / (1000000000 - soc))
      (s1.reconnect k).wr Reg.MNT_STATUS_LEARN_STATE 3
    else s
  | none => s

def execLearnRestEnd (s : State) : Host.Outcome State Fault Refusal := .next (if s.mainUp then s.learnRest else s)

/-- LEARN_RECHARGE_DONE (step 7): the exclusion ends, source 1,741. -/
def State.learnDone (s : State) : State :=
  let k := s.learnString
  match s.mnt.learn with
  | some l =>
    if s.learnState = 3 ∧ l.soc ≤ s.socNow k then
      (((s.wr Reg.MNT_STATUS_LEARN_STATE 0).exclude k false).modMnt fun m => { m with learn := none }).raise 1741
    else s
  | none => s

def execLearnRechargeDone (s : State) : Host.Outcome State Fault Refusal := .next (if s.mainUp then s.learnDone else s)

/-! ### Phase MANTLE and the compatibility record (R664, R684) -/

/-- COMPAT_RECORD_WRITE: in ICX-1280 mode a record of cycles and impedance goes to the NOR, after a learning event at once, otherwise at most once
in 10 min. -/
def State.compatWrite (s : State) (learning : Bool) : State :=
  let due : Bool := match s.mnt.compatAt with | some t => decide (t + 600000000000 ≤ s.now) | none => true
  if s.rd Reg.MNT_STATUS_COMPAT == 1 && (learning || due) then
    let n := match s.mnt.compat with | some c => c.1 + 1 | none => 1
    s.modMnt fun m => { m with compat := some (n, (List.range 4).map fun k => (s.rd (Reg.MNT_STR_CYCLES_MILLI k), (s.str k).rt)), compatAt := some s.now }
  else s

def execCompatRecordWrite (learning : Bool) (s : State) : Host.Outcome State Fault Refusal := .next (s.compatWrite learning)

/-- The cycles and impedance of the compatibility record apply at phase MANTLE. -/
def State.compatApply (s : State) : State :=
  match s.mnt.compat with
  | some c =>
    if s.rd Reg.MNT_STATUS_COMPAT = 1 then
      s.strings.foldl (fun t k => match c.2[k]? with
        | some (cyc, rt) => (t.modStr k fun x => { x with rt := rt }).wr (Reg.MNT_STR_CYCLES_MILLI k) cyc
        | none => t) s
    else s
  | none => s

/-- Slots start: those enabled enter RUN, slot 1 STANDBY (Table 18.1). -/
def State.startSlots (s : State) : State :=
  (List.range 4).foldl (fun t i => if t.plantN i 0 1 = 1 ∧ t.loopState i = 0 ∧ !(i = 0 ∧ t.lossReported) then t.loopStart i else t) s

/-- Strings connect, CHEM 1 and 2 are UNRESTED, SoC is taken, slots start, the first estimate and the first limit are computed. -/
def State.mantleStart (s : State) (codes : List (Nat × Nat × Nat)) : State :=
  let s1 := s.strings.foldl (fun t k => (((t.setStr k (t.strStart k)).gpio (4 + k) false).connect k (!t.strFaulted k)).setMaskBit Reg.MNT_STATUS_UNRESTED k (t.chem k != 0)) s
  let s2 := s1.compatApply
  let s3 := s2.strings.foldl (fun t k => match codes[k]? with | some c => (t.sampleTemp k c.2.2).sampleStr k c.1 c.2.1 | none => t) s2
  (s3.startSlots.energyCompute).governorTick

end Sys2Proof.Machine
end

