-- ==== Sys2Proof/Machine/Flush.lean ====
section
/-!
DEFINITION. Machine/Flush.lean: the flushes begin (01 R34, 10 R372, 03 R79 to R82, 21 R717): loss of input power and its report (19 R674),
MAIN_PG, warm restarts, SYS_RST_N, the deadline of a cool flush.
-/
namespace Sys2Proof.Machine

/-! ### Trial slots (03 R103, R111, R112) -/

/-- A boot state record is written: its sequence number is one higher. -/
def State.bootRecord (s : State) (f : Nat → BootKind → BootKind) : State :=
  s.modBoot fun b => { b with seq := b.seq + 1, kinds := (List.range 4).map fun k => f k (b.kinds.getD k ⟨0, none, none, 0⟩) }

def State.kind (s : State) (k : Nat) : BootKind := s.boot.kinds.getD k ⟨0, none, none, 0⟩

/-- The trial slot of a kind is the one that runs. -/
def State.trialRuns (s : State) (k : Nat) : Bool := (s.kind k).trial == some (mapGet (fun _ => 2) s.boot.running k)

/-- A trial of some kind is in hand: during start-up any marked one, later one that runs. -/
def State.trialAny (s : State) : Bool := (List.range 4).any fun k => (s.kind k).trial.isSome && (decide (s.phase < 0xA) || s.trialRuns k)

/-- Reverts the trial kinds listed to the slots they had, and records each (R111). -/
def State.revert (s : State) (ks : List Nat) : State :=
  let hit := ks.filter fun k => (s.kind k).trial.isSome
  if hit.isEmpty then s
  else
    let s1 := s.bootRecord fun k x => if hit.contains k then { x with trial := none, attempts := 0 } else x
    -- the Firmware Slot Information log then reports the slot reverted to
    let back (b : Boot) : Boot := { b with running := b.running.map fun e => if hit.contains e.1 then (e.1, (b.kinds.getD e.1 ⟨0, none, none, 0⟩).active) else e }
    hit.foldl (fun t k => (t.record 0x03 2 [k, (t.kind k).active]).tally 0xA8 1) (s1.modBoot back)

/-- A trial attempt has failed: counted, and after the third failure every trial kind reverts. -/
def State.trialFail (s : State) : State :=
  if !s.trialAny then s
  else
    let s1 := s.bootRecord fun _ x => if x.trial.isSome then { x with attempts := x.attempts + 1 } else x
    let s2 := s1.wr Reg.BEL_BOOT_STATUS_ATTEMPTS (min 3 (maxOf (s1.boot.kinds.map fun x => x.attempts)))
    if s2.boot.kinds.any fun x => x.trial.isSome && 3 ≤ x.attempts then s2.revert [0, 1, 2, 3] else s2

/-! ### A flush begins -/

/-- No completion is posted for data that was not in the stripe buffer when the gate closed. -/
def State.muteWrites (s : State) : State :=
  s.modPath fun p => { p with writes := p.writes.map fun (c : WCmd) => if c.places.length < c.lsas.length then { c with mute := true } else c }

/-- An entry to a low power state ends where a flush begins (20 Table 20.8). -/
def State.entryEnds (s : State) : State :=
  if s.pwrPhase = 1 then (((s.wr Reg.PWR_STATUS_PHASE 0).wr Reg.PWR_STATUS_TARGET (s.pwrState)).wr Reg.PWR_STATUS_STEP 0).modPwr fun p => { p with latched := 0, capDue := none }
  else s

/-- Each maintenance activity stops at its next step (22 R741); a learning discharge is aborted. -/
def State.maintStop (s : State) (which : Act → Bool) : State :=
  s.modMaint fun m => { m with acts := m.acts.map fun (a : Act) => if which a then { a with running := false, paused := true } else a }

/-- The cool set (21 R717): the lowest bridge temperatures among IN_SERVICE links, then among SLOW ones; one that has not reported since its START after
those that have; the lower number on a tie. -/
def State.coolSet (s : State) : List Nat :=
  let key (n : Nat) : Nat := if (s.lnk n).tempSeen then (s.rdSigned (Reg.JL_BRIDGE_TEMP_TEMP n) + 65536).toNat else 2 ^ 20
  ((sortByKey (fun n => key n * 512 + n) (s.linksIn 1)) ++ (sortByKey (fun n => key n * 512 + n) (s.linksIn 2))).take (s.force Reg.THM_COOL_LINKS_LINKS)

/-- A flush begins, with the gate closed for its cause (1 loss of input power, 2 TRIP, 3 warm restart). Where one is in charge it stays in charge, and only
what follows it can change. A cool flush, and the flush of a warm restart, which has its sequence (03 R81), choose the cool set, close every open stripe on
its own links, and open further ones on the cool set alone. -/
def State.beginFlush (s : State) (f : Flush) (cause : Nat) : State :=
  let s1 := s.hardClose cause
  if s.ftl.flush.kind ≠ 0 then
    let old := s.ftl.flush.next
    s1.modFtl fun t => { t with flush := { t.flush with next := if f.next = 2 ∨ old = 2 then 2 else if f.next = 0 then 0 else old } }
  else
    let s2 := ((s1.muteWrites.entryEnds).maintStop fun _ => true).learnAbort (decide (f.kind = 1) && s1.lossReported)
    let s3 := s2.modFtl fun t => { t with flush := { f with since := s.now, links := if f.kind = 1 then [] else s.coolSet } }
    let s4 := if f.kind = 1 then s3.tally 0x28 1 else s3
    let s5 := if f.kind = 1 then s4 else (s4.ftl.bands.filter fun b => b.state == 0).foldl (fun t b => t.stopBand b.id 2) s4
    (s5.slvFlush.jlFlush).settleDma

/-- The power-loss flush. -/
def State.lossFlush (s : State) (next : Nat) : State := s.beginFlush ⟨1, 0, true, none, [], next, false⟩ 1

/-- The flush of a warm restart: with the journal tail where firmware runs. -/
def State.warmFlush (s : State) (tail suspect : Bool) : State := s.beginFlush ⟨3, 0, tail, none, [], 1, suspect⟩ 3

/-- The device is in Run or leaving it: the window may hold data. -/
def State.inRun (s : State) : Bool := s.pwrState == 0

/-! ### Loss of input power (19 R674, R675; 18 R643) -/

def execMntPfiFall (s : State) : Host.Outcome State Fault Refusal :=
  .next (if s.board.pfiLow then s else s.modBoard fun b => { b with pfiLow := true, pfiSince := s.now })

def execMntPfiRise (s : State) : Host.Outcome State Fault Refusal :=
  .next (if s.board.pfiLow then s.modBoard fun b => { b with pfiLow := false, pfiSince := s.now } else s)

/-- Slots and strings at a loss report: slot 0 OFF, slot 1 in RUN, the strings that count noted, learning aborted, no cycle qualifies. -/
def State.mantleLoss (s : State) : State :=
  let s1 := (s.wr Reg.MNT_STATUS_LOSS 1).wr64 Reg.MNT_LOSS_TIME_LO Reg.MNT_LOSS_TIME_HI s.steepleTime
  let s2 := s1.strings.foldl (fun t k => t.modStr k fun x => { x with counted := s.counts k, empty := false, cycle := x.cycle.map fun c => (c.1, c.2.1, true, c.2.2.2) }) s1
  let s3 := ((s2.modMnt fun m => { m with lossOcc := s.win.occ, lossAt := s.now }).loopOff 0).wr Reg.MNT_STATUS_CHG_PHASE 0
  let s4 := if s3.loopState 1 = 1 then s3.loopStart 1 else s3
  let s5 := (List.range 4).foldl (fun t i => t.trcTrigger i 3) s4
  s5.learnAbort true

/-- LOSS_REPORT: MNT_PFI has been below its threshold for FILTER_NS. -/
def State.lossReport (s : State) : State :=
  let due := s.board.pfiLow && !s.board.pfiReport && s.board.mainRunning && s.board.pfiSince + s.rd Reg.MNT_PFI_CFG_FILTER_NS ≤ s.now + 25
  if !due then s
  else
    let s1 := ((s.modBoard fun b => { b with pfiReport := true }).mantleLoss).raise 1736
    if !s.inRun then (s1.record 0x0F 1 [s.pwrState, 1]).kill 0
    else
      let s2 := s1.lossFlush 0
      if s2.strings.all fun k => !(s2.str k).counted then s2.storeEmpty else s2

def execLossReport (s : State) : Host.Outcome State Fault Refusal := .next s.lossReport

/-- POWER_RESTORED: MNT_PFI has been above its threshold for 10 ms; no flush changes (R373). -/
def State.powerRestored (s : State) : State :=
  if s.board.pfiReport && !s.board.pfiLow && s.board.pfiSince + 10000000 ≤ s.now then
    (s.modBoard fun b => { b with pfiReport := false }).raise 1737
  else s

def execPowerRestored (s : State) : Host.Outcome State Fault Refusal := .next s.powerRestored

/-- COOL_FLUSH_DEADLINE: 400 ms after TRIP PWR_KILL_N is asserted (R39). -/
def State.coolDeadline (s : State) : State :=
  if s.thm.trip.isSome && !s.thm.killed && s.ftl.flush.kind != 0 && s.thm.tripAt + 400000000 ≤ s.now then s.kill 1 else s

def execCoolFlushDeadline (s : State) : Host.Outcome State Fault Refusal := .next s.coolDeadline

/-! ### MAIN_PG, warm restarts, SYS_RST_N -/

/-- MAIN_PG_FALL (02 R70): in Run with no loss reported it is a loss of input power; the rail PMBus names is recorded. The fall that an orderly
power-down brings (02 R68) is none. -/
def State.mainPgFall (s : State) (rail status : Nat) : State :=
  let s1 := s.modBoard fun b => { b with mainPg := false }
  if !s.board.mainPg || !s.board.mainRunning || !s.inRun || s.lossReported || s.board.downStage != 0 then s1
  else (s1.record 0x02 3 [rail, status]).lossFlush 0

def execMainPgFall (rail status : Fin 65536) (s : State) : Host.Outcome State Fault Refusal := .next (s.mainPgFall rail.val status.val)

/-- NVM_SUBSYSTEM_RESET (R80 to R82): a warm restart with the journal tail. -/
def State.nssr (s : State) : State := if s.mainUp then s.warmFlush true false else s

def execNvmSubsystemReset (ctrl : Fin 4) (s : State) : Host.Outcome State Fault Refusal :=
  .next (if s.hasCtrl ctrl.val then s.nssr else s)

/-- FTL_WATCHDOG_EXPIRY (R80, R82, R111): a warm restart marked JOURNAL_SUSPECT, without the tail. -/
def execFtlWatchdogExpiry (s : State) : Host.Outcome State Fault Refusal :=
  .next (if s.mainUp then s.trialFail.warmFlush false true else s)

/-- SYS_RST_ACCEPT (R79): low for 2,000 Belfry clocks. While the main domain runs the window is flushed first; then PWR_KILL_N, then the aux reset. -/
def State.sysRst (s : State) : State :=
  if !s.board.vaux then s
  else if s.board.mainRunning && s.inRun then s.lossFlush 2
  else if s.board.mainRunning then (s.kill 0).auxReset
  else s.auxReset

def execSysRstAccept (s : State) : Host.Outcome State Fault Refusal := .next s.sysRst

end Sys2Proof.Machine
end

