-- ==== Sys2Proof/Machine/Dram.lean ====
section
/-!
DEFINITION. Machine/Dram.lean: the DRAM (17): inline ECC, what a read that returns leads to, refresh, tracking, scrubbing, start-up
training, ECC test mode.
-/
namespace Sys2Proof.Machine

/-! ### Inline ECC (R606 to R608) -/

/-- Multiplication in GF(2^16) modulo 0x1_100B. -/
def gfMul (a b : Nat) : Nat :=
  (List.range 16).foldl (fun r k =>
    let i := 15 - k
    let r2 := 2 * r
    let r3 := if r2.testBit 16 then r2 ^^^ 0x1100B else r2
    if b.testBit i then r3 ^^^ a else r3) 0

/-- Powers of α = 2. -/
def gfPow (n : Nat) : Nat := (List.range n).foldl (fun x _ => gfMul x 2) 1

/-- The data symbol s of a 64-byte line: the 16 bits DQ(s mod 16) carries in beats 16 (s div 16) on, the earliest in bit 0; beat t carries
bytes 2t and 2t + 1 (log entry 33). -/
def lineSymbol (b : List Byte) (s : Nat) : Nat :=
  ((List.range 16).map fun k => if (leAt b (2 * (16 * (s / 16) + k)) 2).testBit (s % 16) then 2 ^ k else 0).sum

/-- The generator polynomial without its leading coefficient, x^3 first. -/
def rsGen : List Nat :=
  let mul (p : List Nat) (r : Nat) : List Nat := (List.range (p.length + 1)).map fun i =>
    (p.getD i 0) ^^^ (if i = 0 then 0 else gfMul r (p.getD (i - 1) 0))
  (((mul (mul (mul (mul [1] 1) 2) 4) 8)).drop 1)

/-- The four check symbols of 32 data symbols, x^3 first. -/
def rsCheck (data : List Nat) : List Nat :=
  data.foldl (fun r d =>
    let f := d ^^^ r.getD 0 0
    (List.range 4).map fun i => r.getD (i + 1) 0 ^^^ gfMul f (rsGen.getD i 0)) [0, 0, 0, 0]

/-- The 8 check bytes of a line. -/
def checkBytes (b : List Byte) : List Byte := (rsCheck ((List.range 32).map (lineSymbol b))).flatMap fun x => leBytes 2 x

/-- The codeword of a line and its check bytes. -/
def codeword (b chk : List Byte) : List Nat := (List.range 32).map (lineSymbol b) ++ (List.range 4).map fun i => leAt chk (2 * i) 2

/-- Syndrome j of a codeword: its value at α^j. -/
def syndrome (w : List Nat) (j : Nat) : Nat := w.foldl (fun a x => gfMul a (gfPow j) ^^^ x) 0

/-- What the decoder makes of a codeword: clean, or the one symbol in error and the error, or uncorrectable. -/
inductive Decoded where
  | clean
  | corrected (symbol error : Nat)
  | uncorrectable
  deriving DecidableEq, Repr

def rsDecode (w : List Nat) : Decoded :=
  let y := (List.range 4).map (syndrome w)
  let at' (j : Nat) : Nat := y.getD j 0
  if y.all fun x => x == 0 then .clean
  else if at' 0 = 0 then .uncorrectable
  else match (List.range 36).find? fun s => (List.range 3).all fun j => at' (j + 1) == gfMul (at' j) (gfPow (35 - s)) with
    | some s => .corrected s (at' 0)
    | none => .uncorrectable

/-- A line with the bits of an error in one data symbol changed back. -/
def fixLine (b : List Byte) (s e : Nat) : List Byte :=
  if 32 ≤ s then b
  else (List.range 64).map fun i =>
    let t := i / 2
    let dq := s % 16
    let hit := decide (t / 16 = s / 16 ∧ dq / 8 = i % 2 ∧ e.testBit (t % 16))
    if hit then (b.getD i 0) ^^^ BitVec.ofNat 8 (2 ^ (dq % 8)) else b.getD i 0

/-! ### Channels fail (R628) -/

/-- A channel is recorded as retired (22 Table 22.12 record 0x0B; cause 1 start-up training, 2 retrain, 3 uncorrectable lines, 4 a request,
5 returned). -/
def State.recordChannel (s : State) (ch cause : Nat) : State :=
  ((s.modLife fun l => { l with channels := if l.channels.contains ch then l.channels else l.channels ++ [ch] }).record 0x0B 2 [ch, cause])

/-- A channel's state changes: its state source. -/
def State.setDrState (s : State) (ch st : Nat) : State :=
  if s.rd (Reg.DRC_STATUS_STATE ch) = st then s else (s.wr (Reg.DRC_STATUS_STATE ch) st).raise (1657 + 2 * ch)

/-- A channel fails in service: a warm restart whose recovery uses the hem-page tier, unless a flush is in charge. -/
def State.channelFail (s : State) (ch cause : Nat) : State :=
  let s1 := s.setDrState ch 6
  let s2 := if s.life.channels.length < 4 then s1.recordChannel ch cause else s1
  if s2.ftl.flush.kind = 1 ∨ s2.ftl.flush.kind = 2 then s2 else s2.warmFlush false true

/-! ### A read returns (R608, R609, R622) -/

def State.remapped (s : State) (ch line : Nat) : Bool :=
  (List.range 32).any fun e => s.rd (Reg.DRC_REMAP_HI_VALID e) == 1 && s.rd (Reg.DRC_REMAP_HI_CHANNEL e) == ch && s.rd (Reg.DRC_REMAP_LO_LINE e) == line

/-- An entry of the remap table installed, without a record. -/
def State.putRemap (s : State) (ch line : Nat) : State :=
  let e := s.rd Reg.DRC_REMAP_STATUS_USED
  ((((s.wr (Reg.DRC_REMAP_LO_LINE e) line).wr (Reg.DRC_REMAP_HI_CHANNEL e) ch).wr (Reg.DRC_REMAP_HI_VALID e) 1).wr Reg.DRC_REMAP_STATUS_USED (e + 1)).raise
    (1657 + 2 * ch)

/-- A remap candidate (R622, R623). -/
def State.remapLine (s : State) (ch line : Nat) : State :=
  if s.remapped ch line then s
  else if 32 ≤ s.rd Reg.DRC_REMAP_STATUS_USED then (s.bump Reg.DRC_REMAP_STATUS_DROPPED).record 0x0A 1 [ch, line, 0]
  else
    let s1 := s.putRemap ch line
    let s2 := if s1.rd (Reg.DRC_ERR_ADDR_LINE ch) = line then s1.wr (Reg.DRC_ERR_INFO_REMAPPED ch) 1 else s1
    (s2.modLife fun l => { l with remaps := l.remaps ++ [(ch, line)] }).record 0x0A 1 [ch, line, 1]

/-- DRC_ERR_ADDR and DRC_ERR_INFO of an error. -/
def State.noteDramError (s : State) (ch line kind region src symbol : Nat) : State :=
  ((((((s.wr (Reg.DRC_ERR_ADDR_LINE ch) line).wr (Reg.DRC_ERR_INFO_KIND ch) kind).wr (Reg.DRC_ERR_INFO_REGION ch) region).wr (Reg.DRC_ERR_INFO_SOURCE ch) src).wr
    (Reg.DRC_ERR_INFO_REMAPPED ch) 0).wr (Reg.DRC_ERR_INFO_SYMBOL ch) symbol).raise (1656 + 2 * ch)

/-- A corrected line: counted, and a remap candidate at its second correction, a second or more after the first, within 24 h. -/
def State.dramCorrected (s : State) (ch line region src symbol : Nat) : State :=
  let x := s.drch ch
  let s1 := (s.bump (Reg.DRC_ECC_CORR_COUNT ch)).noteDramError ch line 1 region src symbol
  let corr := s.now :: (x.corr.filter fun t => s.now < t + 3600000000000)
  let old := x.lines.filter fun e => s.now < e.2 + 86400000000000
  let again := old.any fun e => e.1 == line && e.2 + 1000000000 ≤ s.now
  let s2 := s1.modDrch ch fun y => { y with corr := corr, lines := old ++ [(line, s.now)], want := y.want || 16 ≤ corr.length }
  -- the corrected line is written back, unless a newer write is queued (R608)
  let s3 := if (s.forwarded ch line).isSome then s2 else (s2.queueWrite ch line none).getD s2
  if again && region ≤ 4 then s3.remapLine ch line else s3

/-- What an uncorrectable line of a region leads to (Table 17.3): `copy` is the sector of a staging copy, `resend` that the read was for a re-send. -/
def State.dramLost (s : State) (ch line region : Nat) (copy : Option Nat) (resend : Bool) : State :=
  if region = 0 then (if s.ftl.flush.kind = 0 then s.warmFlush false true else s)
  else if region ≤ 4 then s.modDram fun d => { d with rebuilds := d.rebuilds ++ [(ch, line, s.now)] }
  else match copy with
    | none => s
    | some a => match s.placed a with
      | none => s
      | some p =>
        if resend then
          if ssaAt s.ftl.map p.sec.nsid p.sec.lsa = some a then s.mapUnreadable p.sec.nsid p.sec.lsa else s
        else if region = 6 then s.modStripe (ssaStripe a) fun st =>
          { st with data := st.data.map fun (e : Nat × Option Placed) => if e.1 == ssaOff a then (e.1, e.2.map fun q => { q with staged := false }) else e }
        else s

/-- An uncorrectable line. -/
def State.dramUncorrectable (s : State) (ch line region src : Nat) (copy : Option Nat) (resend : Bool) : State :=
  let x := s.drch ch
  let unc := s.now :: (x.unc.filter fun t => s.now < t + 1000000000)
  let s1 := (s.bump (Reg.DRC_ECC_UNCORR_COUNT ch)).noteDramError ch line 2 region src 0x3F
  let s2 := (s1.modDrch ch fun y => { y with unc := unc }).record 0x09 2 [ch, line, region]
  let s3 := s2.dramLost ch line region copy resend
  if 64 ≤ unc.length && s3.rd (Reg.DRC_STATUS_STATE ch) == 1 then s3.channelFail ch 3 else s3

/-- A line is read: `src` 0 demand, 1 scrub, 2 sub-line write; `outcome` 0 clean, 1 corrected, 2 uncorrectable. A line that was being rebuilt and
reads good has been rebuilt, and is a remap candidate. -/
def State.dramRead (s : State) (ch line src outcome symbol : Nat) (copy : Option Nat) (resend : Bool) : State :=
  let region := (s.regionOf (s.lineAddr ch line)).getD 7
  if s.remapped ch line then s
  else if outcome = 2 then s.dramUncorrectable ch line region src copy resend
  else
    let mine (e : Nat × Nat × Nat) : Bool := e.1 == ch && e.2.1 == line
    let s1 := if s.dram.rebuilds.any mine then (s.modDram fun d => { d with rebuilds := d.rebuilds.filter fun e => !mine e }).remapLine ch line else s
    if outcome = 1 then s1.dramCorrected ch line region src symbol else s1

/-- A region that RECOVERY fills holds nothing to read before it has (R619). -/
def State.lineWritten (s : State) (a : Nat) : Bool := match s.regionOf a with | some r => 5 ≤ r || s.dram.written.contains r | none => false

/-- A line returns: from a queued write where one is queued for it (R612), else from the part. A sub-line write goes on with the merged line. -/
def State.lineReturn (s : State) (addr src outcome symbol : Nat) (copy : Option Nat) (resend : Bool) : State :=
  let l := s.dramLine addr
  if !s.lineWritten addr then s
  else if (s.forwarded l.1 l.2).isSome then s
  else
    let s1 := (s.readServed l.1 l.2).dramRead l.1 l.2 src outcome symbol copy resend
    if src = 2 ∧ outcome ≠ 2 then (s1.queueWrite l.1 l.2 none).getD s1 else s1

/-- DRAM_READ_RETURN: a demand read (0) or the read of a sub-line write (1) at a system address. -/
def execDramReadReturn (addr : Nat) (sub : Bool) (outcome : Fin 3) (symbol : Fin 36) (copy : Option Nat) (resend : Bool) (s : State) :
    Host.Outcome State Fault Refusal :=
  .next (if s.mainUp && decide (addr < s.usableDram) && s.rd (Reg.DRC_STATUS_STATE (s.dramLine addr).1) == 1 then
    (s.lineReturn addr (if sub then 2 else 0) outcome.val symbol.val copy resend).settleDma else s)

/-- DRAM_LINE_REBUILD_TIMEOUT: 1 s without a rebuild. -/
def State.rebuildTimeout (s : State) : State :=
  if s.dram.rebuilds.any (fun e => e.2.2 + 1000000000 ≤ s.now) && s.ftl.flush.kind == 0 then s.warmFlush false true else s

def execDramLineRebuildTimeout (s : State) : Host.Outcome State Fault Refusal := .next (if s.mainUp then s.rebuildTimeout else s)

/-! ### Refresh (R614, R615) -/

/-- DRAM_REFRESH_TICK: bank `due` comes to owe one more; the controller refreshes a bank that owes 8, else one without a queued request, ahead
by 8 at most. -/
def State.refreshTick (s : State) (ch due : Nat) (busy : List (Fin 32)) : State :=
  if s.rd (Reg.DRC_STATUS_STATE ch) ≠ 1 then s
  else
    let banks := 16 * s.cfg 0x50 0 3
    let owed (m : SMap Nat) (b : Nat) : Nat := mapGet (fun _ => 8) m b
    let m0 := (s.drch ch).owed
    let m := if due < banks then mapSet (fun _ => 8) m0 due (min 16 (owed m0 due + 1)) else m0
    let forced := (List.range banks).find? fun b => owed m b == 16
    let queued (b : Nat) : Bool := ((s.drch ch).reads ++ (s.drch ch).writes).any fun r => (s.lineBank r.line).1 == b
    let free := (List.range banks).filter fun b => !busy.any (fun x => x.val == b) && !queued b && owed m b != 0
    let best := free.foldl (fun (a : Option Nat) b => match a with | some k => if owed m k < owed m b then some b else a | none => some b) none
    let m2 := match (match forced with | some b => some b | none => best) with
      | some b => mapSet (fun _ => 8) m b (owed m b - 1)
      | none => m
    let s1 := s.modDrch ch fun y => { y with owed := m2 }
    let s2 := if forced.isSome then s1.bump (Reg.DRC_REFRESH_FORCED ch) else s1
    s2.wr (Reg.DRC_REFRESH_OWED_MAX ch) (maxOf ((List.range banks).map fun b => owed m2 b - 8))

def execDramRefreshTick (ch : Fin 24) (due : Fin 32) (busy : List (Fin 32)) (s : State) : Host.Outcome State Fault Refusal :=
  .next (if s.mainUp then s.refreshTick ch.val due.val busy else s)

/-- DRAM_MR4_POLL. Refresh rates above the base one are codes 0x0A to 0x0F and 0x1F, the last above the upper operating limit (JESD209-5B;
log entry 33). -/
def State.mr4Poll (s : State) (ch mr4 : Nat) : State :=
  if s.rd (Reg.DRC_STATUS_STATE ch) ≠ 1 then s
  else
    let above := 10 ≤ mr4 ∧ mr4 ≤ 15 ∨ mr4 = 31
    ((s.wr (Reg.DRC_REFRESH_MR4 ch) mr4).wr (Reg.DRC_STATUS_DERATED ch) (bit (decide above))).raiseIf (mr4 == 31) (1656 + 2 * ch)

def execDramMr4Poll (ch : Fin 24) (mr4 : Fin 32) (s : State) : Host.Outcome State Fault Refusal :=
  .next (if s.mainUp then s.mr4Poll ch.val mr4.val else s)

/-! ### Tracking (R617) -/

/-- A timing adjustment in UI/64, held in 8 bits. -/
def addTrack (now : Nat) (d : Int) : Nat := toCode 8 (max (-128) (min 127 (signed 8 now + d)))

/-- DRAM_WCK2DQI_TRACK: `drift` is the oscillator's result, `edges` the steps read sampling has taken from the data edges since. At ±16 TRACK_LIMIT sets. -/
def State.track (s : State) (ch : Nat) (drift edges : Int) : State :=
  if s.rd (Reg.DRC_STATUS_STATE ch) ≠ 1 then s
  else
    let adj := 2 ≤ drift.natAbs
    let s1 := if adj then (s.wr (Reg.DRC_TRACK_WRITE ch) (addTrack (s.rd (Reg.DRC_TRACK_WRITE ch)) drift)).bump (Reg.DRC_TRACK_ADJUSTS ch) else s
    let s2 := (s1.wr (Reg.DRC_TRACK_READ ch) (addTrack (s1.rd (Reg.DRC_TRACK_READ ch)) edges)).bumpBy (Reg.DRC_TRACK_ADJUSTS ch) edges.natAbs
    let far (f : Field) : Bool := 16 ≤ (signed 8 (s2.rd f)).natAbs
    if (far (Reg.DRC_TRACK_WRITE ch) || far (Reg.DRC_TRACK_READ ch)) && s2.rd (Reg.DRC_STATUS_TRACK_LIMIT ch) == 0 then
      let old := (s.drch ch).limits.filter fun t => s.now < t + 86400000000000
      let s3 := ((s2.wr (Reg.DRC_STATUS_TRACK_LIMIT ch) 1).modDrch ch fun y => { y with want := true, limits := s.now :: old }).raise (1656 + 2 * ch)
      -- set twice within 24 h (22 Table 22.6)
      if old.isEmpty then s3 else s3.record 0x12 2 [6, ch, old.length, old.length + 1]
    else s2

def execDramWck2dqiTrack (ch : Fin 24) (drift edges : Fin 256) (s : State) : Host.Outcome State Fault Refusal :=
  .next (if s.mainUp then s.track ch.val (signed 8 drift.val) (signed 8 edges.val) else s)

/-! ### Retraining (R618) -/

/-- A channel may be retrained: in service, none other being retrained, none of its own within 10 min. -/
def State.mayRetrain (s : State) (ch : Nat) : Bool :=
  s.rd (Reg.DRC_STATUS_STATE ch) == 1 && (s.chans.all fun c => (s.drch c).retrain.isNone) &&
  (match (s.drch ch).last with | some t => decide (t + 600000000000 ≤ s.now) | none => true)

/-- A retrain begins. -/
def State.retrainStart (s : State) (ch : Nat) : State :=
  ((s.bump (Reg.DRC_STATUS_RETRAINS ch)).modDrch ch fun y => { y with retrain := some s.now, tries := 0, want := false, last := some s.now }).setDrState ch 2

/-- A retrain ends, or fails: repeated once from the start-up procedure, then a channel failure. -/
def State.retrainDone (s : State) (ch : Nat) (ok : Bool) : State :=
  match (s.drch ch).retrain with
  | none => s
  | some t =>
    if ok then
      let s1 := (s.modDrch ch fun y => { y with retrain := none, corr := [] }).wr (Reg.DRC_TRAIN_US_US ch) ((s.now - t) / 1000)
      (((s1.wr (Reg.DRC_TRACK_WRITE ch) 0).wr (Reg.DRC_TRACK_READ ch) 0).wr (Reg.DRC_STATUS_TRACK_LIMIT ch) 0).setDrState ch 1
    else
      let s1 := s.raise (1656 + 2 * ch)
      if (s.drch ch).tries = 0 then s1.modDrch ch fun y => { y with tries := 1 }
      else ((s1.modDrch ch fun y => { y with retrain := none }).channelFail ch 2)

/-! ### Scrubbing (R620, R621) -/

/-- Lines of regions 0 to 4 on a channel. -/
def State.scrubLines (s : State) (ch : Nat) : Nat :=
  let c := s.chansUp
  let g := s.grain
  let e := s.regionEnd 5
  let full := e / (c * g)
  (full + (if s.lineAddr ch (full * g / 64) < e then 1 else 0)) * (g / 64)

/-- The period of a pass in nanoseconds. -/
def State.scrubNs (s : State) : Nat := s.force Reg.BEL_MAINT_CFG0_SCRUB_HOURS * 3600000000000

/-- DRAM_SCRUB_READ: the next line of the pass, no earlier than its even rate; where the read queue is not idle only once the pass has fallen
more than 1 % behind. -/
def State.scrubRead (s : State) (ch : Nat) (idle : Bool) (outcome symbol : Nat) : State :=
  if s.phase ≠ 0xB ∨ !s.actRuns 3 ch ∨ s.rd (Reg.DRC_STATUS_STATE ch) ≠ 1 then s
  else
    let n := s.scrubLines ch
    let x := s.drch ch
    let t0 := x.passAt.getD s.now
    let due := t0 + x.pass * s.scrubNs / n
    let behind := t0 + (x.pass * 100 + n) * s.scrubNs / (100 * n) < s.now
    if n = 0 ∨ s.now < due ∨ !((idle && x.reads.isEmpty) || behind) then s
    else
      let s1 := s.dramRead ch x.pass 1 outcome symbol none false
      let k := x.pass + 1
      if k = n then ((s1.modDrch ch fun y => { y with pass := 0, passAt := some (t0 + s.scrubNs) }).wr (Reg.DRC_SCRUB_PROGRESS ch) 0).bump (Reg.DRC_SCRUB_PASSES ch)
      else (s1.modDrch ch fun y => { y with pass := k, passAt := some t0 }).wr (Reg.DRC_SCRUB_PROGRESS ch) (k * 65536 / n)

def execDramScrubRead (ch : Fin 24) (idle : Bool) (outcome : Fin 3) (symbol : Fin 36) (s : State) : Host.Outcome State Fault Refusal :=
  .next (if s.mainUp && s.chanUp ch.val then (s.scrubRead ch.val idle outcome.val symbol.val).settleDma else s)

/-! ### Start-up training (R616) -/

/-- DRAM_TRAINING_FAIL: the first failure trains the channel once more; at the second it is recorded as retired and a warm restart made, unless four are
retired already. -/
def State.trainingFail (s : State) (ch : Nat) : State :=
  if !s.chanUp ch || s.rd (Reg.DRC_STATUS_STATE ch) != 0 || s.phase < 5 || 7 < s.phase then s
  else
    let s1 := s.raise (1656 + 2 * ch)
    if (s.drch ch).fails = 0 then s1.modDrch ch fun y => { y with fails := 1 }
    else if 4 ≤ s.life.channels.length then (s1.wr Reg.BEL_BOOT_STATUS_ERROR 0x06).setDrState ch 6
    else ((s1.setDrState ch 6).recordChannel ch 1).wr Reg.BEL_BOOT_STATUS_ERROR 0x06 |>.warmFlush false false

def execDramTrainingFail (ch : Fin 24) (s : State) : Host.Outcome State Fault Refusal := .next (if s.mainUp then s.trainingFail ch.val else s)

/-- The channels whose training has passed enter service (phase TRAINING ends). -/
def State.dramTrained (s : State) : State :=
  s.chans.foldl (fun t ch => if t.rd (Reg.DRC_STATUS_STATE ch) = 0 then
    (t.wr (Reg.DRC_TRAIN_US_US ch) ((t.now - t.boot.mainInitAt) / 1000)).setDrState ch 1 else t) s

/-- DRC_CFG as the image in force gives it, and the remap entries recorded, installed again for channels in service (R623). -/
def State.dramInit (s : State) : State :=
  let rate := s.cfg 0x50 0 0
  let code := if rate = 6400 then 0 else if rate = 7500 then 1 else 2
  let s1 := (List.range 24).foldl (fun t ch =>
    ((((t.wr (Reg.DRC_CFG_RATE ch) code).wr (Reg.DRC_CFG_CH_GIB ch) (s.cfg 0x50 0 2)).wr (Reg.DRC_CFG_RANKS ch) (s.cfg 0x50 0 3)).wr (Reg.DRC_CFG_GRAIN_LOG2 ch)
      (s.cfg 0x50 0 4)).wr (Reg.DRC_CFG_STARVE_NS ch) (s.cfg 0x50 0 8)) s.showChannels
  (s.life.remaps.take 32).foldl (fun t r => if t.chanUp r.1 && !t.remapped r.1 r.2 then t.putRemap r.1 r.2 else t) s1

/-- Segments that hold a line of regions 0 to 4 (R625): DRC_MAP.PASR_MASK. -/
def State.pasrMask (s : State) : Nat :=
  let ranks := s.cfg 0x50 0 3
  let rows := s.cfg 0x50 0 2 * 1073741824 / (2048 * 16 * ranks)
  let last := maxOf (s.chans.map fun ch => s.scrubLines ch - 1) / 28 / (16 * ranks)
  2 ^ (last / (rows / 8) + 1) - 1

/-! ### ECC test mode (R626) -/

/-- The system address of the test line. -/
def State.testLine (s : State) : Nat := s.rd64 Reg.DRC_TEST_ADDR_LO Reg.DRC_TEST_ADDR_HI / 64

def State.testData (s : State) : List Byte := (List.range 16).flatMap fun i => leBytes 4 (s.reg (Reg.DRC_TEST_DATA i)).toNat
def State.testCheck (s : State) : List Byte := (List.range 2).flatMap fun j => leBytes 4 (s.reg (Reg.DRC_TEST_CHECK j)).toNat

/-- The 64 data bytes and 8 check bytes of a line of region 7, as a queued write brings them or as stored; none before they are written. -/
def State.storedLine (s : State) (n : Nat) : Option (List Byte) :=
  let l := s.dramLine (64 * n)
  match s.forwarded l.1 l.2 with
  | some r => r.data
  | none => if mapGet (fun _ => []) s.dram.lines n = [] then none else some (mapGet (fun _ => []) s.dram.lines n)

/-- 72 bytes that nothing determines (log entry 34). -/
def State.freeBytes (s : State) : State × List Byte :=
  (List.range 18).foldl (fun (a : State × List Byte) _ => let r := a.1.free; (r.2, a.2 ++ leBytes 4 r.1.toNat)) (s, [])

/-- The result of a test command: `symbol` is 0x3F where none was corrected. -/
def State.testResult (s : State) (refused : Bool) (outcome symbol : Nat) : State :=
  (((s.wr Reg.DRC_TEST_RES_DONE 1).wr Reg.DRC_TEST_RES_REFUSED (bit refused)).wr Reg.DRC_TEST_RES_OUTCOME outcome).wr Reg.DRC_TEST_RES_SYMBOL symbol

def State.inTestRegion (s : State) : Bool := s.regionOf (64 * s.testLine) == some 7

/-- The bytes of the line TEST names, what was never written open. -/
def State.lineOrFree (s : State) : State × List Byte :=
  match s.storedLine s.testLine with
  | some b => (s, b)
  | none => s.freeBytes

/-- A write command: on a line of region 7 alone. It joins the write queue of its channel, or, while that is full, goes to the line at once. What
it does not write of a line never written is open. -/
def State.testWrite (s : State) (f : List Byte → List Byte) : State :=
  if s.inTestRegion then
    let l := s.dramLine (64 * s.testLine)
    let old := s.lineOrFree
    let b := f old.2
    let s1 := match old.1.queueWrite l.1 l.2 (some b) with
      | some t => t
      | none => old.1.modDram fun d => { d with lines := mapSet (fun _ => []) d.lines s.testLine b }
    s1.testResult false 0 0x3F
  else s.testResult true 0 0x3F

def execWriteData (s : State) : Host.Outcome State Fault Refusal :=
  .next (if s.mainUp then s.testWrite fun b => s.testData ++ b.drop 64 else s)

def execWriteCheck (s : State) : Host.Outcome State Fault Refusal :=
  .next (if s.mainUp then s.testWrite fun b => b.take 64 ++ s.testCheck else s)

def execWriteBoth (s : State) : Host.Outcome State Fault Refusal :=
  .next (if s.mainUp then s.testWrite fun _ => s.testData ++ checkBytes s.testData else s)

/-- The words of DRC_TEST_DATA and DRC_TEST_CHECK from 72 bytes. -/
def State.showLine (s : State) (b : List Byte) : State := (s.putWords (Reg.DRC_TEST_DATA 0) 16 (b.take 64)).putWords (Reg.DRC_TEST_CHECK 0) 2 (b.drop 64)

/-- Words of a line the model does not hold: open values (log entry 34). -/
def State.freeLine (s : State) : State :=
  (List.range 18).foldl (fun t i =>
    let r := t.free
    r.2.setReg (if i < 16 then Reg.DRC_TEST_DATA i else Reg.DRC_TEST_CHECK (i - 16)) r.1) s

/-- READ_RAW: data and check bytes as stored. -/
def State.readRaw (s : State) : State :=
  (match (if s.inTestRegion then s.storedLine s.testLine else none) with | some b => s.showLine b | none => s.freeLine).testResult false 0 0x3F

def execReadRaw (s : State) : Host.Outcome State Fault Refusal := .next (if s.mainUp then s.readRaw else s)

/-- What a READ of the line `b` answers for what decoding it gives. -/
def State.testDecoded (s : State) (b : List Byte) : Decoded → State
  | .clean => (s.showLine b).testResult false 0 0x3F
  | .corrected k e => (s.showLine (fixLine (b.take 64) k e ++ checkBytes (fixLine (b.take 64) k e))).testResult false 1 k
  | .uncorrectable => s.freeLine.testResult false 2 0x3F

/-- A READ of a line the model does not hold: its bytes are open, its outcome is the part's. -/
def State.openRead (s : State) (outcome symbol : Nat) : State :=
  s.freeLine.testResult false outcome (if outcome = 1 then symbol else 0x3F)

/-- READ: the line as a demand read returns it; where the model does not hold it the outcome is that of the part. -/
def State.testRead (s : State) (outcome symbol : Nat) : State :=
  if s.inTestRegion then
    match s.storedLine s.testLine with
    | some b => s.testDecoded b (rsDecode (codeword (b.take 64) (b.drop 64)))
    | none => s.openRead outcome symbol
  else s.openRead outcome symbol

def execDrcTestRead (outcome : Fin 3) (symbol : Fin 36) (s : State) : Host.Outcome State Fault Refusal :=
  .next (if s.mainUp then s.testRead outcome.val symbol.val else s)

end Sys2Proof.Machine
end

