-- ==== Sys2Proof/Machine/Package.lean ====
section
/-!
DEFINITION. Machine/Package.lean: firmware packages (03 R104, R105), the NOR slots of the four component kinds, microcode images (13 R482),
and Firmware Commit's run of an image (04 R137). Kinds: 0 Belfry firmware, 1 main firmware, 2 microcode, 3 Dailaquin image.
-/
namespace Sys2Proof.Machine

/-! ### Packages -/

/-- A component of a package: kind, body, VERSION, SVN. -/
structure Comp where
  kind : Nat
  body : List Byte
  version : Nat
  svn : Nat
  deriving DecidableEq, Repr

/-- A package: its components and signature block, and the digest the signature covers. -/
structure Pkg where
  comps : List Comp
  sigType : Nat
  pubkey : List Byte
  sig : List Byte
  signed : BitVec 384
  deriving DecidableEq, Repr

/-! ### The NOR (R102) -/

/-- What a region of the NOR holds. -/
inductive NorUse where
  | directory (copy : Nat)
  | bootRecords
  | mantleRecord
  | certificates
  | slot (kind slot : Nat)
  | keyRecords
  | lifetimeLog
  | reserved
  deriving DecidableEq, Repr

/-- A region of the NOR: byte offset, size, contents. -/
structure NorRegion where
  offset : Nat
  size : Nat
  use : NorUse
  deriving DecidableEq, Repr

/-- The regions of the 64 MiB NOR (Table 3.10). -/
def norLayout : List NorRegion :=
  [⟨0x00000000, 0x10000, .directory 0⟩, ⟨0x00010000, 0x10000, .directory 1⟩, ⟨0x00020000, 0x20000, .bootRecords⟩,
   ⟨0x00040000, 0x40000, .mantleRecord⟩, ⟨0x00080000, 0x80000, .certificates⟩,
   ⟨0x00100000, 0x400000, .slot 0 0⟩, ⟨0x00500000, 0x400000, .slot 0 1⟩, ⟨0x00900000, 0xC00000, .slot 1 0⟩, ⟨0x01500000, 0xC00000, .slot 1 1⟩,
   ⟨0x02100000, 0x200000, .slot 2 0⟩, ⟨0x02300000, 0x200000, .slot 2 1⟩, ⟨0x02500000, 0x100000, .slot 3 0⟩, ⟨0x02600000, 0x100000, .slot 3 1⟩,
   ⟨0x02700000, 0x400000, .keyRecords⟩, ⟨0x02B00000, 0x1000000, .lifetimeLog⟩, ⟨0x03B00000, 0x500000, .reserved⟩]

/-- The region of a firmware slot. -/
def slotRegion (kind slot : Nat) : NorRegion := (norLayout.find? fun r => r.use == .slot kind slot).getD ⟨0, 0, .reserved⟩

/-- Most bytes of a component's body (Table 3.11): what its slot holds, and 512 KiB for an image. -/
def compMax (kind : Nat) : Nat := if kind = 3 then 524288 else (slotRegion kind 0).size

/-- Descriptor i; none where it is malformed. -/
def readComp (b : List Byte) (len count i : Nat) : Option Comp :=
  let o := 0x40 + 32 * i
  let ty := leAt b o 2
  let off := leAt b (o + 4) 4
  let size := leAt b (o + 8) 4
  let svn := byteAt b (o + 0x10)
  if ty < 1 ∨ 4 < ty ∨ off % 4096 ≠ 0 ∨ off < 0x40 + 32 * count ∨ len < off + size + 256 ∨ compMax (ty - 1) < size ∨ 64 < svn then none
  else some ⟨ty - 1, slice b off size, leAt b (o + 12) 4, svn⟩

/-- The package in a buffer; none where the header, a descriptor or LENGTH is malformed, PART is another, or two descriptors have one TYPE. -/
def readPkg (buf : List Byte) : Option Pkg :=
  let count := leAt buf 6 2
  let len := leAt buf 8 4
  if leAt buf 0 4 ≠ 0x50584349 ∨ leAt buf 4 2 ≠ 1 ∨ count < 1 ∨ 4 < count ∨ leAt buf 12 4 ≠ 0x5120 ∨ buf.length < len ∨ len < 0x40 + 32 * count + 256 then none
  else
    let b := buf.take len
    let comps := (List.range count).filterMap (readComp b len count)
    if comps.length ≠ count ∨ (comps.map fun c => c.kind).eraseDups.length ≠ count then none
    else
      let sb := b.drop (len - 256)
      some ⟨comps, leAt sb 0 2, slice sb 4 97, slice sb 0x68 96, Config.sha384 (b.take (len - 256))⟩

/-- A signature block is unsigned, or signed and verifies. -/
def sigOk (sigType : Nat) (pubkey sig : List Byte) (signed : BitVec 384) : Bool :=
  sigType == 0 || (sigType == 1 && Config.ecdsaVerify pubkey signed sig)

/-- An image's header names the SVN of its descriptor (04 R119). -/
def Comp.svnOk (c : Comp) : Bool := c.kind != 3 || byteAt c.body 0x14 == c.svn

/-- A package that R105 and 04 R119 do not refuse. -/
def State.acceptPkg (s : State) (buf : List Byte) : Option Pkg :=
  match readPkg buf with
  | none => none
  | some p =>
    let ok := sigOk p.sigType p.pubkey p.sig p.signed &&
      p.comps.all fun c => signerAccepted c.kind s.trust p.sigType p.pubkey && s.arb c.kind ≤ c.svn && c.svnOk
    if ok then some p else none

/-! ### The NOR slots -/

def State.slotRec (s : State) (kind slot : Nat) : Option SlotRec :=
  match s.boot.slots.find? fun e => e.1 == 2 * kind + slot with
  | some e => if e.2.present then some e.2 else none
  | none => none

def State.slotBody (s : State) (kind slot : Nat) : List Byte := match s.slotRec kind slot with | some r => r.body | none => []

/-- The slot a boot uses of a kind: the trial slot, else the active one, or the previous one once the confirmed configuration has failed
three boots (R112). -/
def State.chosenSlot (s : State) (k : Nat) : Nat :=
  let x := s.kind k
  x.trial.getD (if s.boot.onPrevious then x.previous.getD x.active else x.active)

/-- Why a firmware slot cannot run, as BEL_BOOT_STATUS.ERROR codes it: 0 it can, 1 signature or signer, 2 digest. -/
def State.slotError (s : State) (k slot : Nat) : Nat :=
  match s.slotRec k slot with
  | none => 2
  | some r =>
    if Config.sha384 r.body ≠ r.digest then 2
    else if !sigOk r.sigType r.pubkey r.sig r.signed || !signerAccepted k s.trust r.sigType r.pubkey || r.svn < s.arb k then 1
    else 0

/-- Writes a component of a package into a NOR slot. -/
def State.writeSlot (s : State) (p : Pkg) (c : Comp) : State :=
  let slot := 1 - (s.kind c.kind).active
  let r : SlotRec := ⟨true, c.body, c.version, c.svn, p.sigType, p.pubkey, p.sig, p.signed, Config.sha384 c.body⟩
  s.modBoot fun b => { b with slots := (b.slots.filter fun e => e.1 < 2 * c.kind + slot) ++ [(2 * c.kind + slot, r)] ++ b.slots.filter fun e => 2 * c.kind + slot < e.1 }

/-- Marks the slots of a package's components as the trial slots. -/
def State.markTrial (s : State) (p : Pkg) : State :=
  s.bootRecord fun k x => if p.comps.any fun c => c.kind == k then { x with trial := some (1 - x.active), attempts := 0 } else x

/-! ### Microcode images (13 R482, R483) -/

/-- The next 8-byte boundary. -/
def up8 (n : Nat) : Nat := (n + 7) / 8 * 8

/-- Pairs of 2-byte numbers. -/
def readPairs (b : List Byte) (o n : Nat) : List (Nat × Nat) := (List.range n).map fun i => (leAt b (o + 4 * i) 2, leAt b (o + 4 * i + 2) 2)

/-- A microcode image; none where its header is not one, or it is a base image that R483 does not describe. -/
def readMicro (b : List Byte) : Option Micro :=
  let kind := leAt b 6 2
  let ne := leAt b 0x12 2
  let nr := leAt b 0x14 2
  let nl := leAt b 0x16 2
  let nm := leAt b 0x18 2
  let nw := leAt b 0x1C 4
  let len := leAt b 0x20 4
  let o1 := 0x40 + 2 * ne
  let o2 := up8 o1
  let o3 := up8 (o2 + 4 * nr)
  let o4 := up8 (o3 + 4 * nl)
  let o5 := up8 (o4 + 4 * nm)
  let ranges := readPairs b o2 nr
  if leAt b 0 4 ≠ 0x55584349 ∨ leAt b 4 2 ≠ 1 ∨ 1 < kind ∨ ne < 1 ∨ 1024 < ne ∨ nr < 1 ∨ 64 < nr ∨ 64 < nl ∨ 4096 < nm ∨ nw < 1 ∨ 8192 < nw ∨
      nw ≠ (ranges.map fun r => r.2).sum ∨ b.length < len ∨ len < o5 + 24 * nw then none
  else if kind = 0 ∧ (nr ≠ 1 ∨ (ranges.getD 0 (0, 0)).1 ≠ 0 ∨ nl ≠ 0 ∨ nm ≠ 0) then none
  else some {
    kind := kind, version := leAt b 8 4, baseVersion := leAt b 12 4, faultEntry := leAt b 0x10 2,
    entries := (List.range ne).map fun i => leAt b (0x40 + 2 * i) 2, ranges := ranges, release := readPairs b o3 nl, resume := readPairs b o4 nm,
    words := (List.range nw).map fun i => BitVec.ofNat 192 (leAt b (o5 + 24 * i) 24) }

/-- The base image of a microcode body. -/
def readBase (b : List Byte) : Option Micro := (readMicro b).bind fun m => if m.kind = 0 then some m else none

/-- The entry list of a microcode body; empty where it is no base image. -/
def entriesOf (b : List Byte) : List Nat := match readBase b with | some m => m.entries | none => []

/-! ### The image run of a commit (04 R137) -/

/-- Runs the loading procedure on the image of a package, without applying it: the report, and whether the image would load. The entries of an image
that would load have ORIGIN 0 (DESIGN CHOICE, log entry 57). -/
def State.commitRun (s : State) (p : Pkg) : Option (ClampReport × Bool) :=
  match p.comps.find? fun c => c.kind == 3 with
  | none => none
  | some im =>
    let micro := match p.comps.find? fun c => c.kind == 2 with | some c => c.body | none => s.slotBody 2 (s.chosenSlot 2)
    let base : ClampReport := ⟨0, [], 4, false, false, false, false, s.imageSlot, 0, 0, 0, 0, 0, s.imageVersion, 0, s.imageId, 0⟩
    match trySlot (24 - s.life.channels.length) im.body s.trust (entriesOf micro) with
    | .refused c => some ({ base with refuseCause := c, refused := 2 ^ (1 - (s.kind 3).active) }, false)
    | .failed f es => some ({ base with entries := es, check := f.check, checkType := f.ty, checkInstance := f.inst }, false)
    | .applied _ es => some ({ base with entries := es }, true)

/-- Every slot a package was written to reads back with the digest of its component (R108). -/
def State.readsBack (s : State) (p : Pkg) : Bool :=
  p.comps.all fun c => Config.sha384 (s.slotBody c.kind (1 - (s.kind c.kind).active)) == Config.sha384 c.body

/-- R108 for an accepted package: the image run, the slots written and read back, and where `trial` the trial mark; false where the image does not load
or a slot does not read back. -/
def State.installPkg (s : State) (p : Pkg) (trial : Bool) : State × Bool :=
  let r := match s.commitRun p with
    | none => (s, true)
    | some (rep, ok) => (s.report rep false true, ok)
  if !r.2 then r
  else
    let s1 := p.comps.foldl (fun t c => t.writeSlot p c) r.1
    if s1.readsBack p then (if trial then s1.markTrial p else s1, true) else (s1, false)

end Sys2Proof.Machine
end

