-- ==== Sys2Proof/Machine/Boot.lean ====
section
/-!
DEFINITION. Machine/Boot.lean: start-up from VAUX to phase MANTLE (03 Table 3.3), the rails (02 R63 to R67), the watchdogs, and the confirmation
and reversion of trial slots (03 R89, R99, R110 to R112).
-/
namespace Sys2Proof.Machine

/-! ### VAUX -/

/-- The Belfry runs its firmware: VAUX is in range, it is past its boot ROM and, in Off, a management transaction has started it. -/
def State.belfryRuns (s : State) : Bool :=
  s.board.vaux && !s.boot.belfryHalted && s.phase != 0 && s.phase != 1 && s.phase != 0xD && (s.pwrState != 4 || s.pwr.offMgmt.isSome)

/-- VAUX_RISE: aux reset, and a full start-up. -/
def execVauxRise (s : State) : Host.Outcome State Fault Refusal := .next (if s.board.vaux then s else s.auxReset)

/-- VAUX_FALL (02 R61): PWR_KILL_N reads low, so the main rails fall with no flush, and nothing runs. -/
def State.vauxFall (s : State) : State :=
  let s1 := if s.board.mainRunning then s.kill 2 else s
  s1.modBoard fun b => { b.killed with vaux := false }

def execVauxFall (s : State) : Host.Outcome State Fault Refusal := .next (if s.board.vaux then s.vauxFall else s)

/-! ### Phase ROM -/

/-- BEL_BOOT_STATUS.TRIAL and ATTEMPTS. -/
def State.showTrial (s : State) : State :=
  let n := if s.trialAny then maxOf (s.boot.kinds.map fun x => x.attempts) else s.boot.fails
  (s.wr Reg.BEL_BOOT_STATUS_TRIAL (bit ((List.range 4).any s.trialRuns))).wr Reg.BEL_BOOT_STATUS_ATTEMPTS (min 3 n)

def State.bootError (s : State) (e : Nat) : State := s.wr Reg.BEL_BOOT_STATUS_ERROR e

/-- WRAP_SEED is all ones. -/
def State.seedErased (s : State) : Bool := (List.range 8).all fun i => s.otpWord (0x54 + i) == 0xFFFFFFFF

/-- An interrupted retirement is completed (R96). -/
def State.completeRetire (s : State) : State := if s.seedErased && s.lifecycle != 7 then s.burn 3 7 else s

/-- The object of measurement register 0 beside the boot ROM: PART, STEPPING, LIFECYCLE, VENDOR_ROOT_HASH and the active owner hash. With no
active owner, 48 zero bytes stand for its hash (DESIGN CHOICE, log entry 55). -/
def State.identityObject (s : State) : List Byte :=
  (s.otpBytes 0 4).take 3 ++ s.otpBytes 0xC 4 ++ s.otpBytes 0x20 48 ++
    match s.activeOwner with | some i => s.otpBytes (0x50 + 48 * i) 48 | none => List.replicate 48 0

/-- PHASE_ROM (R83, R96, R98): BOOT_SEL sampled, an interrupted retirement completed, registers 0 and 2 extended. In the object of register 2
BOOT_SEL and each slot number take one byte (DESIGN CHOICE, log entry 55). SPI release leaves the BEL_SPI pins in high impedance. -/
def State.phaseRom (s : State) (sel : Nat) : State :=
  if !s.board.vaux || s.phase != 0 then s
  else
    let s1 := (s.modBoot fun b => { b with bootSel := sel }).wr Reg.BEL_BOOT_STATUS_STRAP_WARN (bit (sel == 3))
    if sel = 2 then (s1.modBoard fun b => { b with spiReleased := true }).setPhase 0xD
    else
      let s2 := s1.completeRetire
      let s3 := (s2.extend 0 Config.bootRomDigest).extend 0 (Config.sha384 s2.identityObject)
      let slots := (List.range 4).flatMap fun k => leBytes 1 (s3.chosenSlot k)
      let s4 := s3.extend 2 (Config.sha384 (leBytes 1 sel ++ slots))
      ((s4.modBoot fun b => { b with belfrySlotLatch := s4.chosenSlot 0 }).showTrial).setPhase 1

def execPhaseRom (bootSel : Fin 4) (s : State) : Host.Outcome State Fault Refusal := .next (s.phaseRom bootSel.val)

/-! ### Firmware loads -/

/-- Chooses the slot a kind loads from: a trial slot that fails its check is reverted at once (R111). Answers the slot where it can run. -/
def State.loadSlot (s : State) (k : Nat) : State × Option Nat :=
  let e := s.slotError k (s.chosenSlot k)
  if e = 0 then (s, some (s.chosenSlot k))
  else
    let s1 := s.bootError e
    if (s.kind k).trial.isSome then
      let s2 := (s1.revert [k]).showTrial
      let e2 := s2.slotError k (s2.chosenSlot k)
      if e2 = 0 then (s2, some (s2.chosenSlot k)) else (s2.bootError e2, none)
    else (s1, none)

/-- The component of a slot is loaded and measured. -/
def State.ran (s : State) (k slot meas : Nat) : State :=
  ((s.extend meas (Config.sha384 (s.slotBody k slot))).modBoot fun b => { b with running := mapSet (fun _ => 2) b.running k slot }).showTrial

/-- BELFRY_FW_LOAD: verified, measured into register 1 and started; with no firmware that runs the Belfry stays in its boot ROM. Where a trial
slot failed its check, the latch of R99 takes the slot reverted to, which then differs from the choice register 2 was extended with
(DESIGN CHOICE, log entry 55). -/
def State.belfryLoad (s : State) : State :=
  if !s.board.vaux || s.boot.belfryHalted || s.phase != 1 then s
  else match s.loadSlot 0 with
    | (s1, none) => s1
    | (s1, some slot) =>
      let s2 := (s1.ran 0 slot 1).modBoot fun b => { b with belfrySlotLatch := slot }
      s2.setPhase (if s.boot.bootSel = 1 then 0xC else 2)

def execBelfryFwLoad (s : State) : Host.Outcome State Fault Refusal := .next s.belfryLoad

/-- MAIN_FW_LOAD: verified, measured into register 3, started on the FTL cluster. -/
def State.mainLoad (s : State) : State :=
  if !s.belfryRuns || s.phase != 5 then s
  else match s.loadSlot 1 with
    | (s1, none) => s1
    | (s1, some slot) =>
      let v := match s1.slotRec 1 slot with | some r => r.version | none => 0
      ((s1.ran 1 slot 3).setReg Reg.GBL_FW_VERSION (BitVec.ofNat 32 v)).setPhase 6

def execMainFwLoad (s : State) : Host.Outcome State Fault Refusal := .next s.mainLoad

/-- Every Sleeve starts on a base image. -/
def State.loadMicro (s : State) (m : Micro) : State :=
  (List.range 64).foldl (fun t i =>
    let t1 := t.setSleeve i { Sleeve.empty with store := loadImages [m], entries := m.entries, faultEntry := m.faultEntry, images := [m] }
    ((t1.wr (Reg.SLV_VERSION_VERSION i) m.version).wr (Reg.SLV_BASE_VERSION_VERSION i) m.version).showLive i) s

/-- Personalities a microcode cannot serve, or whose spare bytes do not hold the parity (04 R136, 13 R478): their links are not brought into
service. -/
def State.showUnusable (s : State) (entries : List Nat) : State :=
  let named := namedPersonalities s.image.cfg
  let bad5 := named.filter (check5Fails entries)
  let bad := named.filter fun p => check5Fails entries p || ptableBad p
  let s1 : State := { s with image := { s.image with unusable := bad.map fun p => p.ty } }
  let s2 := if bad5.isEmpty then s1 else s1.wr Reg.BEL_IMAGE_STATUS_CHECK 5
  (List.range 512).foldl (fun t n => match groupOf t.image.cfg n with
    | some g =>
      let ty := 0x10 + g.get 1
      let t1 := if t.image.unusable.contains ty && t.linkState n == 1 then t.setLink n 0 else t
      if (named.filter ptableBad).any (fun p => p.ty == ty) && t1.rd (Reg.SLV_STATUS_PTABLE_BAD (n / 8)) == 0 then
        (t1.wr (Reg.SLV_STATUS_PTABLE_BAD (n / 8)) 1).raise (1031 + 8 * (n / 8))
      else t1
    | none => t) s2

/-- MICROCODE_LOAD: the base image verified, measured into register 6 and loaded into the control stores. In RETIRED, where every microcode is
refused, start-up goes on without one, so that the device still serves what R97 lists (DEDUCED, log entry 56). -/
def State.microLoad (s : State) : State :=
  if !s.belfryRuns || s.phase != 6 then s
  else if s.lifecycle = 7 then s.setPhase 7
  else match s.loadSlot 2 with
    | (s1, none) => s1
    | (s1, some slot) => match readBase (s1.slotBody 2 slot) with
      | none => s1.bootError 2
      | some m => (((s1.ran 2 slot 6).loadMicro m).showUnusable m.entries).setPhase 7

def execMicrocodeLoad (s : State) : Host.Outcome State Fault Refusal := .next s.microLoad

/-! ### The image (04 R133 to R143) -/

/-- What the loading procedure has found so far: the report, the trial slot to be reverted, and the image that applies. -/
structure ImgLoad where
  rep : ClampReport
  revert : Bool
  applied : Option (Nat × List Rec)
  deriving DecidableEq, Repr

/-- One slot of the procedure. -/
def State.imageSlotTry (s : State) (entries : List Nat) (a : ImgLoad) (slot : Nat) : ImgLoad :=
  if a.applied.isSome then a
  else
    let trial := (s.kind 3).trial == some slot
    match trySlot s.chansUp (s.slotBody 3 slot) s.trust entries with
    | .refused c => { a with revert := a.revert || trial, rep := { a.rep with refused := a.rep.refused ||| 2 ^ slot, refuseCause := c } }
    | .failed f es => { a with
        revert := a.revert || trial
        rep := { a.rep with entries := a.rep.entries ++ es, check := f.check, checkType := f.ty, checkInstance := f.inst } }
    | .applied cfg es => { a with applied := some (slot, cfg), rep := { a.rep with entries := a.rep.entries ++ es } }

/-- The slots in the order of the procedure; once the confirmed configuration has failed three boots, the previous slot first (R112). -/
def State.imageOrder (s : State) : List Nat :=
  let x := s.kind 3
  match x.trial with
  | some t => [t, x.active]
  | none => if s.boot.onPrevious then x.previous.toList ++ [x.active] else x.active :: x.previous.toList

/-- The registers an image loads (00 R16): every field the image gives, the coefficients, and the set-point of slot 1 (18 R643). -/
def State.applyRegs (s : State) (cfg : List Rec) : State :=
  let s0 := s.wr Reg.STR_META_GROUPS_HI_GROUPS (cfgGet cfg 0x20 0 8 / 2 ^ 32)
  let s1 := imgFields.foldl (fun t f => t.wr f.field (cfgGet cfg f.ty 0 f.off)) s0
  let plant := ((cfgFind cfg 0x60 0).getD ⟨0x60, 0, [], []⟩).body
  let s2 := (List.range 4).foldl (fun t i => (List.range 172).foldl (fun u w => u.setReg (Reg.MNT_PLANT i w) (BitVec.ofNat 32 (leAt plant (0x300 * i + 4 * w) 4))) t) s1
  (s2.wr (Reg.MNT_TARGET_VALUE 1) ((cfgGet cfg 0x61 0 4 * 65536 + 20000) / 40000)).wr Reg.MNT_STATUS_COMPAT (cfgGet cfg 0x01 0 4)

/-- The image registers of the Belfry window (Tables 4.20, 4.21). -/
def State.showImage (s : State) (r : ClampReport) (signer : Nat) : State :=
  let s1 := ((s.wr Reg.BEL_IMAGE_STATUS_CHECK r.check).wr Reg.BEL_IMAGE_STATUS_CLAMP_COUNT (min 1024 r.entries.length)).wr Reg.BEL_IMAGE_STATUS_OVERFLOW
    (bit (decide (1024 < r.entries.length)))
  let s2 := ((s1.wr Reg.BEL_IMAGE_STATUS_FALLBACK (bit r.fallback)).wr Reg.BEL_IMAGE_STATUS_SIGNER signer).wr Reg.BEL_IMAGE_STATUS_SLOT (min 3 r.slot)
  (s2.wr Reg.BEL_IMAGE_VERSION_VERSION r.imageVersion).wr64 Reg.BEL_IMAGE_ID_LO Reg.BEL_IMAGE_ID_HI r.imageId

/-- Raises an ARB count to an SVN (R110). -/
def State.burnArb (s : State) (k svn : Nat) : State :=
  let v := 2 ^ svn - 1
  (s.burn (0x44 + 2 * k) (BitVec.ofNat 32 v)).burn (0x45 + 2 * k) (BitVec.ofNat 32 (v / 2 ^ 32))

/-- The trial slot of a kind becomes the active one, the former the previous one. -/
def confirmed (x : BootKind) : BootKind :=
  match x.trial with
  | some t => ⟨t, some x.active, none, 0⟩
  | none => x

/-- The ARB count of a kind follows its active component. -/
def State.burnActive (s : State) (k : Nat) : State := match s.slotRec k (s.kind k).active with | some r => s.burnArb k r.svn | none => s

/-- The RAIL table of a configuration: PMBus address and page of each rail (Table 4.4). -/
def railTable (cfg : List Rec) : List (Nat × Nat) := (List.range 10).map fun i => (cfgGet cfg 1 0 (12 + 2 * i), cfgGet cfg 1 0 (13 + 2 * i))

/-- A configuration comes into force at a main reset, its RAIL table only at the first load after an aux reset (R120, R135); a stored namespace is
attached where the image names it, and without an image none is presented (03 R90). -/
def State.useConfig (s : State) (cfg : List Rec) (inForce : Bool) : State :=
  let named (n : Ns) : Ns := { n with attached := (recsOf cfg 0x30).any fun r => r.get 0 == n.nsid }
  { s with
    image := { s.image with cfg := cfg, inForce := inForce, unusable := [], rails := some (s.image.rails.getD (railTable cfg)) }
    nvme := { s.nvme with nss := s.nvme.nss.map named } }

/-- An image applies: the configuration, its registers, the measurements, and the confirmation of a trial image. -/
def State.applyImage (s : State) (slot : Nat) (cfg : List Rec) : State :=
  let b := s.slotBody 3 slot
  let s1 := s.useConfig cfg true
  let s2 := (s1.applyRegs cfg).wr Reg.BEL_BOOT_STATUS_NO_IMAGE 0
  let s3 := (s2.extend 4 (Config.sha384 (b.take (leAt b 8 4)))).extend 5 (Config.sha384 (appliedStream cfg))
  let s4 := s3.modBoot fun x => { x with running := mapSet (fun _ => 2) x.running 3 slot }
  if (s4.kind 3).trial = some slot then ((s4.bootRecord fun k x => if k = 3 then confirmed x else x).burnActive 3).showTrial else s4

/-- Start-up goes on without an image (R90). -/
def State.noImage (s : State) : State :=
  (((s.useConfig [] false).applyRegs []).wr Reg.BEL_BOOT_STATUS_NO_IMAGE 1).bootError 5

/-- The image load of a start-up (`source` 1) or a warm restart (2). CHECK_TYPE and CHECK_INSTANCE of a report whose CHECK is 0 are 0 (DESIGN
CHOICE, log entry 57). -/
def State.imageRun (s : State) (source : Nat) : State :=
  let order := s.imageOrder
  let base : ClampReport := ⟨0, [], source, false, false, false, false, 0xFF, 0, 0, 0, 0, 0, 0, 0, 0, 0⟩
  let a := order.foldl (s.imageSlotTry (entriesOf (s.slotBody 2 (s.chosenSlot 2)))) ⟨base, false, none⟩
  let s0 := if a.revert then (s.revert [3]).showTrial else s
  let s1 := s0.modBoot fun b => { b with loaded := true }
  match a.applied with
  | some (slot, cfg) =>
    let b := s.slotBody 3 slot
    let r := { a.rep with fallback := some slot != order.head?, slot := slot, imageVersion := leAt b 0x10 4, imageId := leAt b 0x18 8 }
    ((s1.applyImage slot cfg).showImage r (signerOf s.trust.root s.trust.owner (byteAt b 0x15) (slice b 0x50 97))).report r true false
  | none =>
    let r := { a.rep with fallback := true, noImage := true }
    ((s1.noImage).showImage r 0).report r true false

/-- IMAGE_LOAD: phase IMAGE, or before MAIN_INIT of a warm restart (R135). -/
def State.imageLoad (s : State) : State :=
  if !s.belfryRuns then s
  else if s.phase = 2 then (s.imageRun 1).setPhase 3
  else if s.phase = 4 ∧ !s.boot.loaded ∧ !s.board.mainRunning then s.imageRun 2
  else s

def execImageLoad (s : State) : Host.Outcome State Fault Refusal := .next s.imageLoad

/-! ### Rails (02 R63, R66, R67) -/

/-- A stage's rails are enabled; VDD_CORE starts at 0.70 V (Table 2.8). -/
def Board.stageOn (b : Board) (k now : Nat) : Board := { b with railStage := k, railSince := now, vcore := if k = 3 then 700 else b.vcore }

/-- No enable is issued: a stage is on its way down, a retry or a fault waits, or the sequence has been abandoned (R66, R67). -/
def Board.railsHeld (b : Board) : Bool := b.downStage != 0 || b.railRetryAt.isSome || b.railFault.isSome || b.railsAbandoned

/-- RAIL_STAGE_START: every rail of the stage in progress reports POWER_GOOD, and, no sooner than 0.5 ms after its start, the next stage starts; the
first releases PWR_KILL_N. After stage 5 none is left to start: the stage is complete. -/
def State.railStart (s : State) : State :=
  let b := s.board
  if !s.belfryRuns || s.phase != 3 || b.railsHeld then s
  else if b.railStage = 0 then s.modBoard fun x => { x.stageOn 1 s.now with pwrKill := false }
  else if b.pwrKill then s
  else if b.railStage = 5 then s.modBoard fun x => { x with railDone := some (x.railDone.getD s.now) }
  else if b.railSince + 500000 ≤ s.now then s.modBoard fun x => x.stageOn (x.railStage + 1) s.now
  else s

def execRailStageStart (s : State) : Host.Outcome State Fault Refusal := .next s.railStart

/-- A stage is not good 20 ms after its start, or MAIN_PG not high 5 ms after stage 5 was (R66). -/
def Board.railsLate (b : Board) (now : Nat) : Bool :=
  b.railStage != 0 && (match b.railDone with | some t => decide (t + 5000000 ≤ now) | none => decide (b.railSince + 20000000 ≤ now))

/-- RAIL_STAGE_TIMEOUT: the failing rail is recorded and the stages start to come down in reverse order; a first failure is retried after 1 s, a second
one is latched. Once PWR_KILL_N is asserted there is no sequence to fail (R67). -/
def State.railTimeout (s : State) (rail status : Nat) : State :=
  let b := s.board
  if !s.belfryRuns || s.phase != 3 || b.pwrKill || b.railsHeld || !b.railsLate s.now then s
  else
    let s1 := ((s.record 0x01 3 [rail, status]).bootError 3).modLife fun l => { l with rails := l.rails ++ [rail] }
    if b.railRetried then s1.modBoard fun x => { x with downStage := x.railStage, railDone := none, railFault := some rail }
    else s1.modBoard fun x => { x with downStage := x.railStage, railDone := none, railRetried := true, railRetryAt := some (s.now + 1000000000) }

def execRailStageTimeout (rail : Fin 10) (status : Fin 65536) (s : State) : Host.Outcome State Fault Refusal := .next (s.railTimeout rail.val status.val)

/-- RAIL_RETRY: 1 s after the failure, with every rail down. -/
def State.railRetry (s : State) : State :=
  match s.board.railRetryAt with
  | some t =>
    if s.belfryRuns && s.phase == 3 && t ≤ s.now && s.board.downStage == 0 && !s.board.pwrKill then
      s.modBoard fun b => { b.stageOn 1 s.now with railRetryAt := none }
    else s
  | none => s

def execRailRetry (s : State) : Host.Outcome State Fault Refusal := .next s.railRetry

/-! ### MAIN_INIT to MANTLE -/

/-- Links recorded as retired stay down; every populated other one trains from DETECT in its window (14 R510). -/
def State.startLinks (s : State) : State :=
  (List.range 512).foldl (fun t n =>
    if !populated t.image.cfg n then t
    else if t.life.links.contains n then (t.setJl n 10).setLink n 6
    else t.toDetect n (s.now + 200000000) false) s

/-- From the end of MAIN_INIT every link of a port whose PERST is released trains (R85). -/
def State.portsTrain (s : State) : State :=
  (List.range 4).foldl (fun t c =>
    if t.hasCtrl c && !t.board.perst.getD (c / 2) true then t.setCtrl c { t.ctrl c with training := true } else t) s

/-- The SRAM assists (20 Table 20.5). -/
def State.setAssists (s : State) (ra wa ret : Nat) : State := ((s.wr Reg.PWR_ASSIST_RA ra).wr Reg.PWR_ASSIST_WA wa).wr Reg.PWR_ASSIST_RET ret

/-- VCORE_MIN_MV and VCORE_MAX_MV. -/
def State.vcoreMin (s : State) : Nat := max (s.cfg 0x01 0 8) (mapGet (fun _ => 0) s.life.counters 0xB8)
def State.vcoreMax (s : State) : Nat := s.cfg 0x01 0 0xA

/-- VOUT_COMMAND of VDD_CORE over PMBus (02 R59). -/
def State.setVcore (s : State) (mv : Nat) : State := (s.wr Reg.PWR_VCORE_MV mv).modBoard fun b => { b with vcore := mv }

/-- The lowest set-point, a multiple of 5 mV, that is not below a limit. -/
def up5 (mv : Nat) : Nat := (mv + 4) / 5 * 5

/-- Run: 0.70 V where AVS is 0, else a set-point the manual leaves to adaptive scaling, a multiple of 5 mV within its limits (a free value); the
assists follow the voltage. -/
def State.vcoreRun (s : State) : State :=
  let r : Nat × State := if s.force Reg.PWR_CFG_AVS = 0 then (700, s)
    else let (w, s1) := s.free; (max (up5 s.vcoreMin) (min (s.vcoreMax / 5 * 5) (w.toNat / 5 * 5)), s1)
  let a := if 700 ≤ r.1 then 1 else 2
  (r.2.setVcore r.1).setAssists a a 0

/-- MAIN_INIT: at start-up MAIN_PG is high, every rail of stage 5 being good. The main domain starts; lanes run their known-answer tests, DRAM and
links train, the key slots are resolved. -/
def State.mainInit (s : State) (failed : List (Fin 16)) : State :=
  let railsUp := s.phase == 3 && s.board.railDone.isSome && !s.board.railsHeld
  if !s.belfryRuns || !s.boot.loaded || s.board.pwrKill || s.board.mainRunning || !(railsUp || s.phase == 4) then s
  else
    let s1 := (s.modBoard fun b => { b with mainPg := true, mainRunning := true, railRetried := false }).modBoot fun b => { b with mainInitAt := s.now }
    let s2 := (s1.setPhase 4).dramInit
    let s3 := (List.range 16).foldl (fun t l => t.laneKat l (!failed.any fun f => f.val == l)) s2
    ((((s3.startLinks).resolveKeys).newLoadKey).adoptRole.vcoreRun.setPhase 5).portsTrain

def execMainInit (failedLanes : List (Fin 16)) (s : State) : Host.Outcome State Fault Refusal := .next (s.mainInit failedLanes)

/-- DRAM training has ended on every channel in service. -/
def State.dramReady (s : State) : Bool := s.chans.all fun ch => s.rd (Reg.DRC_STATUS_STATE ch) != 6

/-- Every populated link is ACTIVE, or its window has ended. -/
def State.linksReady (s : State) : Bool :=
  (List.range 512).all fun n => !populated s.image.cfg n || s.life.links.contains n || s.jlActive n || (s.lnk n).window.isNone || s.boot.mainInitAt + 200000000 ≤ s.now

/-- TRAINING_END: phase TRAINING ends. -/
def State.trainingEnd (s : State) : State :=
  if s.mainUp && s.phase == 7 && s.dramReady && s.linksReady then s.dramTrained.setPhase 8 else s

def execTrainingEnd (s : State) : Host.Outcome State Fault Refusal := .next s.trainingEnd

/-- Phase ENUMERATE ends when no die is pending; the identities are measured into register 8 (R98, 15 R563). -/
def State.enumEnd (s : State) : State :=
  if s.phase = 8 ∧ (List.range 512).all fun n => (s.lnk n).enumPending.isEmpty then (s.extend 8 (Config.sha384 s.identities)).setPhase 9 else s

/-- ENUMERATE: the identity of each populated link, and the dies whose steps have completed; those named as pending go on. -/
def State.enumerate (s : State) (ids : List (Fin 512 × List Byte)) (present pending : List (Fin 512 × Fin 32)) : State :=
  if !s.mainUp || s.phase != 8 then s
  else
    let links := (List.range 512).filter fun n => populated s.image.cfg n && s.rd (Reg.JL_BRIDGE_STATUS_ENUM_DONE n) == 0
    let s1 := links.foldl (fun t n => t.enumLink n ((ids.find? fun e => e.1.val == n).map fun e => e.2)) s
    let s2 := links.foldl (fun t n => (t.lnk n).enumPending.foldl (fun u d =>
      if pending.any fun e => e.1.val == n && e.2.val == d then u else u.enumDie n d (present.any fun e => e.1.val == n && e.2.val == d)) t) s1
    s2.enumEnd

def execEnumerate (identities : List (Fin 512 × List Byte)) (present pending : List (Fin 512 × Fin 32)) (s : State) : Host.Outcome State Fault Refusal :=
  .next (s.enumerate identities present pending)

/-- ENUMERATE_DIE_DEADLINE: 90 ms after phase ENUMERATE began, a die whose steps have not completed is absent. -/
def execEnumerateDieDeadline (s : State) : Host.Outcome State Fault Refusal := .next (if s.mainUp then s.enumDeadline.enumEnd else s)

/-- MANTLE_START: the strings, the slots, the first energy estimate and limit; start-up goes on to RECOVERY, where controllers become ready (R87). -/
def execMantleStart (codes : List (Nat × Nat × Nat)) (s : State) : Host.Outcome State Fault Refusal :=
  .next (if s.mainUp && s.phase == 9 then (((s.mantleStart codes).modBoot fun b => { b with fails := 0 }).showTrial.setPhase 0xA).showReady else s)

/-! ### Watchdogs and trials -/

/-- The previous slots may be tried: some kind has one, and none is below its ARB count (R112). -/
def State.mayGoBack (s : State) : Bool :=
  (List.range 4).any (fun k => (s.kind k).previous.isSome) &&
  (List.range 4).all fun k => match (s.kind k).previous with
    | some p => (match s.slotRec k p with | some r => s.arb k ≤ r.svn | none => false)
    | none => true

/-- A failed boot attempt of a confirmed configuration (R112): after three, the previous slots; after three of those, HALTED. Where the previous slots may
not be tried (none, or one below its ARB count) HALTED follows the third failure at once (DESIGN CHOICE, log entry 55). -/
def State.bootFail (s : State) : State :=
  let n := s.boot.fails + 1
  let s1 := (s.modBoot fun b => { b with fails := n }).showTrial
  if n < 3 then s1.warmFlush false false
  else if !s.boot.onPrevious && s.mayGoBack then ((s1.modBoot fun b => { b with fails := 0, onPrevious := true }).warmFlush false false)
  else ((s1.kill 2).modBoot fun b => { b with bootSel := 1 }).setPhase 0xE

/-- BOOT_WATCHDOG_EXPIRY: RECOVERY not reached 2.0 s after MAIN_INIT began. -/
def State.bootWatchdog (s : State) : State :=
  if !s.belfryRuns || !s.board.mainRunning || s.phase < 4 || 9 < s.phase || s.now < s.boot.mainInitAt + 2000000000 then s
  else
    let s1 := s.bootError 4
    if s1.trialAny then (s1.trialFail.showTrial).warmFlush false false else s1.bootFail

def execBootWatchdogExpiry (s : State) : Host.Outcome State Fault Refusal := .next s.bootWatchdog.settleDma

/-- TRIAL_CONFIRM: 30 s after CSTS.RDY with no watchdog expiry, the trial slots that run become active and the ARB counts follow (R110, and the burn that
a loss of power left undone). A trial marked since and not yet booted is not confirmed. -/
def State.trialConfirm (s : State) : State :=
  match s.boot.rdyAt with
  | none => s
  | some t =>
    if !s.belfryRuns || s.now < t + 30000000000 || s.boot.onPrevious then s
    else
      let s1 := if (List.range 3).any s.trialRuns then s.bootRecord fun k x => if k < 3 ∧ s.trialRuns k then confirmed x else x else s
      ((List.range 3).foldl State.burnActive s1).showTrial

def execTrialConfirm (s : State) : Host.Outcome State Fault Refusal := .next s.trialConfirm

/-- The digest check of a restarted Belfry (R99). -/
def State.belfryCheck (s : State) : State :=
  let d := Config.sha384 (s.slotBody 0 s.boot.belfrySlotLatch)
  if Config.sha384 (List.replicate 48 0 ++ digestBytes d) = s.measReg 1 then s
  else (s.modBoot fun b => { b with belfryHalted := true }).wr Reg.BEL_BOOT_STATUS_BELFRY_MISMATCH 1

/-- Mailbox requests not yet served are lost (22 R733). -/
def State.loseRequests (s : State) : State :=
  (List.range 4).foldl (fun t c => if t.rd (Reg.BEL_MB_STATUS_STATE c) = 1 then (t.wr (Reg.BEL_MB_STATUS_STATE c) 0).wr (Reg.BEL_MB_STATUS_LOST c) 1 else t) s

/-- The part of a Belfry restart that stands whether its firmware runs again or not: counted, an attempt of a trial, a fitting of its own
abandoned (05 R157), requests lost. -/
def State.belfryDown (s : State) : State :=
  let s1 := (((s.trialFail.showTrial).record 0x13 2 [s.phase, s.maint.lastOp]).tally 0xA0 1).loseRequests
  let own := s1.rd Reg.FIT_STATUS_OWNER
  let s2 := if own = 4 ∨ own = 5 then s1.fitAbandon 5 else s1
  s2.modBoot fun b => { b with rdyAt := b.rdyAt.map fun _ => s.now }

/-- BELFRY_WATCHDOG_EXPIRY (R42, R99): the Belfry restarts alone; RESERVE records fallen due are written before it serves anything (16 R595), and
source 1,777 is raised once it runs. -/
def State.belfryWatchdog (s : State) : State :=
  if !s.belfryRuns then s
  else
    let s1 := s.belfryDown.belfryCheck
    if s1.boot.belfryHalted then s1 else ((List.range 1024).foldl State.reserveDurable s1).raise 1777

def execBelfryWatchdogExpiry (s : State) : Host.Outcome State Fault Refusal := .next s.belfryWatchdog.settleDma

end Sys2Proof.Machine
end

