-- ==== Sys2Proof/Machine/Ports.lean ====
section
/-!
DEFINITION. Machine/Ports.lean: the PCIe ports and the resets of a port and of a controller (03 R80, R85, R86; 06 R173 to R176).
-/
namespace Sys2Proof

/-- The command of a controller that has been reset: it is carried on, and no completion is posted for it. -/
def Sqe.orphan (c : Sqe) (ctrl : Nat) : Sqe := if c.ctrl.val = ctrl ∧ !c.mi then { c with sq := 65536 } else c

end Sys2Proof

namespace Sys2Proof.Machine

/-! ### Controller reset -/

/-- The NVMe state of a controller after a controller reset: queues, requests, features. The link, the configuration space, the MSI-X table, the
admin queue registers, the Download buffer and the log of errors stay. -/
def Ctrl.nvmeReset (k : Ctrl) : Ctrl :=
  { Ctrl.portReset with
    linkUp := k.linkUp
    linkRate := k.linkRate
    linkWidth := k.linkWidth
    training := k.training
    pcie := { k.pcie with inta := false }
    aqa := k.aqa
    asq := k.asq
    acq := k.acq
    errLog := k.errLog
    errCount := k.errCount
    changedNs := k.changedNs
    download := k.download }

/-- Commands of controller c still carried on lose their completion. -/
def State.orphans (s : State) (c : Nat) : State :=
  let mine (q : Sqe) : Bool := q.ctrl.val == c && !q.mi
  let s1 : State := { s with nvme := { s.nvme with outs := s.nvme.outs.filter fun o => o.ctrl != c } }
  let s2 := s1.modFtl fun f => { f with shreds := f.shreds.map fun (o : ShredOp) => { o with cmd := o.cmd.orphan c } }
  let s3 := s2.modCph fun x => { x with ops := x.ops.map fun (o : KeyOp) => { o with cmd := o.cmd.map fun q => q.orphan c } }
  let s4 := s3.modSlv fun v => { v with patch := v.patch.map fun (o : PatchOp) => { o with cmd := o.cmd.orphan c } }
  let s4a := s4.modBoot fun b => { b with commit := b.commit.map fun (o : CommitOp) => { o with cmd := o.cmd.orphan c } }
  let s5 := s4a.modTakes fun t => { t with dir := t.dir.map fun (x : Take) =>
    { x with openCmd := x.openCmd.map fun q => q.orphan c, closeCmds := x.closeCmds.filter fun q => !mine q } }
  s5.modPath fun p => { p with
    reads := p.reads.filter fun r => !mine r.sqe
    trims := p.trims.filter fun t => t.kind == 3 || !mine t.sqe
    waits := p.waits.filter fun w => !mine w.cmd }

/-- The mailbox of a controller loses its response (22 R733). -/
def State.dropResponse (s : State) (c : Nat) : State :=
  if s.rd (Reg.BEL_MB_STATUS_STATE c) = 2 then (s.wr (Reg.BEL_MB_STATUS_STATE c) 0).wr (Reg.BEL_MB_STATUS_RESP_BYTES c) 0 else s

/-- What every reset of a controller does (R80): its writes end resolved or dropped, what it holds of takes and fittings is let go. -/
def State.ctrlGone (s : State) (c : Nat) : State :=
  let s1 := s.takesReset c
  let s2 := (s1.path.writes.filter fun w => w.kind == .write && w.src == c && !w.ended).foldl (fun t w => t.dropWrite w true) s1
  let s3 := ((s2.orphans c).dropResponse c)
  if s3.rd Reg.FIT_STATUS_OWNER = c then s3.fitAbandon 5 else s3

/-- CONTROLLER_RESET: CC.EN from 1 to 0. -/
def State.ctrlReset (s : State) (c : Nat) : State := ((s.ctrlGone c).modCtrl c Ctrl.nvmeReset).settleDma

def execControllerReset (ctrl : Fin 4) (s : State) : Host.Outcome State Fault Refusal :=
  .next (if s.mainUp && (s.ctrl ctrl.val).en then s.ctrlReset ctrl.val else s)

/-- FUNCTION_LEVEL_RESET: a controller reset (03 Table 3.1): NVMe state of one controller, and nothing outside it. -/
def execFunctionLevelReset (ctrl : Fin 4) (s : State) : Host.Outcome State Fault Refusal :=
  .next (if s.mainUp && s.hasCtrl ctrl.val then s.ctrlReset ctrl.val else s)

/-! ### Port reset -/

/-- A port reset clears the EN and AEN bits of controller c in every route entry (05 R167). -/
def State.clearRoutes (s : State) (c : Nat) : State :=
  (s.regs.filter fun e => 0x02000000 ≤ e.1 && e.1 < 0x02000000 + 0x10 * 2112).foldl (fun t e =>
    if e.1 % 16 = 4 * (c / 2) then t.setReg e.1 (putBits e.2 (16 * (c % 2) + 15) 1 0)
    else if e.1 % 16 = 8 then t.setReg e.1 (putBits e.2 c 1 0)
    else t) s

/-- A port reset of one controller: its routes are cleared; its link goes down and, unless PERST holds it, trains again. -/
def State.portResetCtrl (s : State) (c : Nat) : State :=
  let up := (s.ctrl c).linkUp
  let s1 := ((s.ctrlGone c).setCtrl c { Ctrl.portReset with training := s.board.perst.getD (c / 2) true == false }).clearRoutes c
  (s1.raiseIf up (1536 + 4 * c)).settleDma

/-- The controllers of a port that exist. -/
def State.portCtrls (s : State) (p : Nat) : List Nat := [2 * p, 2 * p + 1].filter s.hasCtrl

/-- A port reset of every controller of a port. -/
def State.portReset (s : State) (p : Nat) : State := (s.portCtrls p).foldl State.portResetCtrl s

/-- PERST_ASSERT: a port reset in Run; in a low power state, or on the way out of one, when Run is reached (20 R695, R702); a wake either way. -/
def State.perstLow (s : State) (p : Nat) : State :=
  if s.board.perst.getD p true then s
  else
    let s1 := s.modBoard fun b => { b with perst := modAt b.perst p fun _ => true }
    if !s1.mainUp && s1.pwrState != 3 then s1
    else if s1.pwrState = 0 then (s1.portReset p).wake (2 + p)
    else (s1.modPwr fun x => { x with portResets := if x.portResets.contains p then x.portResets else x.portResets ++ [p] }).wake (2 + p)

def execPerstAssert (port : Fin 2) (s : State) : Host.Outcome State Fault Refusal := .next (s.perstLow port.val)

/-- PERST_DEASSERT: the port trains, once MAIN_INIT is complete (R85, R86). -/
def State.perstHigh (s : State) (p : Nat) : State :=
  let s1 := s.modBoard fun b => { b with perst := modAt b.perst p fun _ => false }
  if s1.mainUp && 5 ≤ s1.phase then (s1.portCtrls p).foldl (fun t c => t.modCtrl c fun k => { k with training := !k.linkUp }) s1 else s1

def execPerstDeassert (port : Fin 2) (s : State) : Host.Outcome State Fault Refusal := .next (s.perstHigh port.val)

/-- PCIE_HOT_RESET: a hot reset or link down on one link (R176). -/
def execPcieHotReset (ctrl : Fin 4) (s : State) : Host.Outcome State Fault Refusal :=
  .next (if s.mainUp && s.hasCtrl ctrl.val then s.portResetCtrl ctrl.val else s)

/-! ### Links -/

/-- Most lanes of a controller's link, as an exponent of 2: x16, or x8 with BIFURCATE (R175). -/
def State.laneLimit (s : State) (c : Nat) : Nat := if portGet s.image.cfg (c / 2) 2 = 1 then 3 else 4

/-- PCIE_LINK_UP: training ends at the highest rate both support and not above MAX_RATE (codes 0 64 GT/s to 3 8 GT/s, 4 5.0, 5 2.5), at the partner's width
where the port has as many lanes (R174, R175); in FLIT mode at 64 GT/s, and below it where the partner supports it (R173). -/
def State.pcieUp (s : State) (c : Nat) (partner : Partner) (lanes : Nat) : State :=
  let k := s.ctrl c
  if !s.mainUp || s.phase < 5 || !s.hasCtrl c || s.board.perst.getD (c / 2) true || k.linkUp then s
  else
    let rate := max partner.rate.val (portGet s.image.cfg (c / 2) 3)
    let x := { k with
      linkUp := true, training := false, linkRate := rate, linkWidth := 2 ^ min lanes (s.laneLimit c),
      pcie := { k.pcie with flit := rate == 0 || partner.flit } }
    (s.setCtrl c x).raise (1536 + 4 * c)

def execPcieLinkUp (ctrl : Fin 4) (rate : Partner) (lanes : Fin 5) (s : State) : Host.Outcome State Fault Refusal :=
  .next (s.pcieUp ctrl.val rate lanes.val)

end Sys2Proof.Machine
end

