-- ==== Sys2Proof/Machine/Events.lean ====
section
/-!
DEFINITION. Machine/Events.lean: writes to the event registers (05 R165 to R169, R18) and to the access violation
registers (05 R150).
-/
namespace Sys2Proof.Machine

/-- One half of a route register written (05 R166): kept as before where EN is 1, the controller exists and VEC is at or
above its vector count. -/
def routeHalfKept (cfg : List Rec) (c h : Nat) : Bool :=
  h.testBit 15 && controllerExists cfg c && portGet cfg (c / 2) 12 ≤ h % 2048

/-- A write of EVT_ROUTE_A, _B or _C of a source (reg 0, 1, 2). Reserved bits are not stored. -/
def State.routeWrite (s : State) (agent src reg : Nat) (w : Word) : State :=
  let off := 0x02000000 + 0x10 * src + 4 * reg
  if reg = 2 then s.setReg off (BitVec.ofNat 32 (bitsOf w 0 4 + 0x30))
  else
    let old := s.reg off
    let lo := bitsOf w 0 16 &&& 0x87FF
    let hi := bitsOf w 16 16 &&& 0x87FF
    let keepLo := routeHalfKept s.image.cfg (2 * reg) lo
    let keepHi := routeHalfKept s.image.cfg (2 * reg + 1) hi
    let v := (if keepLo then bitsOf old 0 16 else lo) + 65536 * (if keepHi then bitsOf old 16 16 else hi)
    let s1 := s.setReg off (BitVec.ofNat 32 v)
    let s2 := if keepLo then s1.violation 5 agent off else s1
    if keepHi then s2.violation 5 agent off else s2

def execEvtRouteWrite (agent : Fin 8) (source : Fin 2112) (reg : Fin 3) (data : Word) (s : State) : Host.Outcome State Fault Refusal :=
  .next (if s.answers 0x02000000 then s.routeWrite agent.val source.val reg.val data else s)

/-- A W1C write of EVT_STATUS[w]; the bits of `arriving` are sources that occur in the same clock (00 R18): a set bit of
theirs stays set, a clear one rises. -/
def State.statusClear (s : State) (w : Nat) (data arriving : Word) : State :=
  let off := Reg.EVT_STATUS w
  let s1 := s.setReg off (s.reg off &&& ~~~(data &&& ~~~arriving))
  (List.range 32).foldl (fun t j => if arriving.getLsbD j then t.raise (32 * w + j) else t) s1

def execEvtStatusClear (_agent : Fin 8) (w : Fin 66) (data arriving : Word) (s : State) : Host.Outcome State Fault Refusal :=
  .next (if s.answers (Reg.EVT_STATUS w.val) then s.statusClear w.val data arriving else s)

/-- A write of EVT_MASK[w]: every source whose pending rises by the unmasking is delivered to the hosts (R168). -/
def State.maskWrite (s : State) (w : Nat) (data : Word) : State :=
  let old := s.reg (Reg.EVT_MASK w)
  let st := s.reg (Reg.EVT_STATUS w)
  (List.range 32).foldl (fun t j => if old.getLsbD j && !data.getLsbD j && st.getLsbD j then t.deliver (32 * w + j) else t)
    (s.setReg (Reg.EVT_MASK w) data)

def execEvtMaskWrite (_agent : Fin 8) (w : Fin 66) (data : Word) (s : State) : Host.Outcome State Fault Refusal :=
  .next (if s.answers (Reg.EVT_MASK w.val) then s.maskWrite w.val data else s)

/-- A status set through EVT_FORCE: delivered to the hosts alone, and only where it rises (R169). -/
def State.force1 (s : State) (src : Nat) : State :=
  if s.evtStatus src then s
  else
    let s1 := s.setStatus src
    if s.evtMask src then s1 else s1.deliver src

def State.forceWrite (s : State) (w : Nat) (data : Word) : State :=
  (List.range 32).foldl (fun t j => if data.getLsbD j then t.force1 (32 * w + j) else t) s

def execEvtForceWrite (_agent : Fin 8) (w : Fin 66) (data : Word) (s : State) : Host.Outcome State Fault Refusal :=
  .next (if s.answers (Reg.EVT_FORCE w.val) then s.forceWrite w.val data else s)

/-- Writing 1 to GBL_ACCESS_VIOL_CTL.VALID clears VALID, COUNT and the recorded violation; a violation in the same clock
is the new first one (05 R150, R18). -/
def State.violClear (s : State) (data : Word) (viol : Option (Nat × Fin 8 × Nat)) : State :=
  let s1 := if data.getLsbD 31 then (s.setReg Reg.GBL_ACCESS_VIOL_CTL 0).setReg Reg.GBL_ACCESS_VIOL 0 else s
  match viol with
  | some (k, a, o) => s1.violation k a.val o
  | none => s1

def execGblAccessViolClear (_agent : Fin 8) (data : Word) (violation : Option (Nat × Fin 8 × Nat)) (s : State) : Host.Outcome State Fault Refusal :=
  .next (if s.answers Reg.GBL_ACCESS_VIOL_CTL then s.violClear data violation else s)

end Sys2Proof.Machine
end

