-- ==== Sys2Proof/Machine/Recovery.lean ====
section
/-!
DEFINITION. Machine/Recovery.lean: phase RECOVERY (03 R87; 11 R404 to R410): the map by the first tier that applies, the sequence counter, the
namespaces (04 R129, R755), an interrupted sanitize, the takes (07 R288 to R290), and phase READY.
-/
namespace Sys2Proof.Machine

/-! ### What flash holds -/

/-- Durable stripes whose hem page can be read, if need be after reconstruction. -/
def State.hemStripes (s : State) : List Stripe := s.ftl.stripes.filter fun st => st.state == 2 && !s.isLost st

/-- Volume on which no band has been programmed (R404). -/
def State.blank (s : State) : Bool := !s.ftl.everProgrammed && s.ftl.pages.isEmpty && s.ftl.cps.isEmpty

/-- The generation recovery uses, and whether it is the one before the newest; `bad` names those that do not validate. -/
def State.chooseCp (s : State) (bad : List Nat) : Option (Checkpoint × Bool) :=
  let ok (c : Checkpoint) : Bool := c.usable && !bad.contains c.gen
  match (s.ftl.cps.filter fun c => c.durable).reverse with
  | [] => none
  | c :: rest =>
    if ok c then some (c, false)
    else match rest with
      | d :: _ => if ok d then some (d, true) else none
      | [] => none

/-- Journal pages from JSEQ j on, as far as they follow each other. -/
def journalFrom (pages : List JPage) : Nat → Nat → List JPage
  | 0, _ => []
  | n + 1, j => match pages.find? fun p => p.jseq == j with
    | some p => p :: journalFrom pages n (j + 1)
    | none => []

/-- The journal of a generation where it reaches a TAIL page that is the newest page written. -/
def State.intactJournal (s : State) (c : Checkpoint) : Option (List JPage) :=
  let l := journalFrom s.ftl.pages s.ftl.pages.length c.jseqStart
  match l.getLast? with
  | some p => if p.tail && s.ftl.pages.all fun q => q.jseq ≤ p.jseq then some l else none
  | none => none

/-! ### Tiers 2 and 3 (R405 to R408) -/

/-- A COMMIT among the entries covers a sector of a SEQ. -/
def committed (es : List Entry) (nsid lsa seq : Nat) : Bool :=
  es.any fun e => e.ty == 3 && e.nsid == nsid && e.lsa ≤ lsa && lsa < e.lsa + e.count && e.seq ≤ seq && seq ≤ e.aux

/-- A TRIM among the entries has removed a version of a sector. -/
def trimmed (es : List Entry) (nsid lsa version : Nat) : Bool :=
  es.any fun e => e.ty == 4 && e.nsid == nsid && e.lsa ≤ lsa && lsa < e.lsa + e.count && version < e.seq

/-- What the rules of a tier go by: the entries of every hem page that can be read, whether tier 3, and the highest CP_SEQ of any hem header. -/
structure HemRules where
  es : List Entry
  full : Bool
  below : Nat
  deriving DecidableEq, Repr

/-- Sector i of a RUN or RELOC_RUN is eligible (R406, R408). -/
def State.eligible (s : State) (h : HemRules) (e : Entry) (i : Nat) : Bool :=
  match s.placed (e.aux + i) with
  | none => false
  | some p =>
    (e.ty == 2 || committed h.es e.nsid (e.lsa + i) p.sec.seq || (h.full && p.sec.seq < h.below)) && !trimmed h.es e.nsid (e.lsa + i) e.seq

/-- Sector i of an entry takes effect against the version in force. -/
def State.applies (s : State) (h : HemRules) (m : SMap MapEnt) (e : Entry) (i : Nat) : Bool :=
  match s.versionIn m e.nsid (e.lsa + i) with
  | none => e.ty == 1 || h.full
  | some v => if e.ty = 2 ∧ !h.full then v == e.seq else v ≤ e.seq

/-- The place of an entry in the order of application: a TRIM's SEQ, a run's first SEQ. -/
def State.entryOrder (s : State) (e : Entry) : Nat :=
  if e.ty = 2 then (match s.placed e.aux with | some p => p.sec.seq | none => e.seq) else e.seq

/-- One entry of a hem page applied to a map; with the changes made, as journal entries. -/
def State.applyHem (s : State) (h : HemRules) (a : SMap MapEnt × List Entry) (e : Entry) : SMap MapEnt × List Entry :=
  if e.ty = 4 then
    let l := (List.range e.count).filter fun i => match s.versionIn a.1 e.nsid (e.lsa + i) with | some v => v < e.seq | none => false
    let rs := runsOf (l.map fun i => (e.lsa + i, e.lsa + i))
    (rs.foldl (fun m r => trimRun s.hole m e.nsid r.1 r.2.1) a.1, a.2 ++ rs.map fun r => ⟨4, 0, e.nsid, r.1, r.2.1, 0, e.seq⟩)
  else if e.ty = 1 ∨ e.ty = 2 then
    let l := (List.range e.count).filter fun i => s.eligible h e i && s.applies h a.1 e i
    let rs := runsOf (l.map fun i => (e.lsa + i, e.aux + i))
    (rs.foldl (fun m r => writeRun s.hole m e.nsid r.1 r.2.1 r.2.2) a.1, a.2 ++ rs.map fun r => ⟨e.ty, e.flags, e.nsid, r.1, r.2.1, r.2.2, e.seq⟩)
  else a

/-- A map recovered from the hem pages of stripes, on a base. -/
def State.fromHems (s : State) (base : SMap MapEnt) (sts : List Stripe) (full : Bool) : SMap MapEnt × List Entry :=
  let h : HemRules := ⟨s.hemStripes.flatMap fun st => st.entries, full, maxOf (sts.map fun st => st.cpSeq)⟩
  (sortByKey s.entryOrder (sts.flatMap fun st => st.entries)).foldl (s.applyHem h) (base, [])

/-- Sectors of RUNs in the map with no surviving COMMIT (R408). -/
def State.reinstated (s : State) (m : SMap MapEnt) (sts : List Stripe) : Nat :=
  let es := sts.flatMap fun st => st.entries
  ((es.filter fun e => e.ty == 1).map fun e => ((List.range e.count).filter fun i =>
    ssaAt m e.nsid (e.lsa + i) == some (e.aux + i) &&
    (match s.placed (e.aux + i) with | some p => !committed es e.nsid (e.lsa + i) p.sec.seq | none => false)).length).sum

/-! ### The journal's namespace entries -/

/-- An NS_SET entry applied to a namespace table. -/
def applyNs (l : List Ns) (e : Entry) : List Ns :=
  if e.ty ≠ 0x13 then l
  else
    let rest := l.filter fun n => n.nsid != e.nsid
    if e.seq = 2 ^ 64 - 1 then rest
    else rest ++ [⟨e.nsid, e.seq % 8, e.seq / 8 % 8, e.seq / 256 % 1024, e.seq / 64 % 2 == 1, e.count, e.aux, false⟩]

/-- The NS_SET entry of a namespace. -/
def nsEntry (n : Ns) : Entry := ⟨0x13, 0, n.nsid, 0, n.units, n.base, n.lbaFormat + 8 * n.piType + 64 * bit n.take + 256 * n.keySlot⟩

/-! ### Sectors lost (R409) -/

/-- Host sectors of an atomic unit that some page of a band open at the loss holds, with no durable commit marker. -/
structure LostUnit where
  owner : Nat
  nsid : Nat
  region : Nat
  deriving DecidableEq, Repr

/-- Positions of a stripe whose program is confirmed. -/
def State.programmed (s : State) (st : Stripe) : List Placed :=
  match s.band st.band with
  | none => []
  | some b => st.data.filterMap fun e => match e.2 with
    | some p => if st.confirmed.contains (s.rowOf b e.1, s.memberOf b e.1) then some p else none
    | none => none

def State.lostUnits (s : State) (es : List Entry) : List LostUnit :=
  ((s.ftl.stripes.filter fun st => st.state ≤ 1).flatMap fun st => (s.programmed st).filterMap fun p =>
    if p.sec.nsid = 0 ∨ p.source.isSome ∨ committed es p.sec.nsid p.sec.lsa p.sec.seq then none else some ⟨p.owner, p.sec.nsid, p.sec.lsa / 4096⟩).eraseDups

/-- The logical sectors of a unit on flash. -/
def State.unitSectors (s : State) (u : LostUnit) : List Nat :=
  (s.ftl.stripes.flatMap fun st => (if st.state ≤ 1 then s.programmed st else st.data.filterMap fun e => e.2).filterMap fun p =>
    if p.owner = u.owner ∧ p.sec.nsid = u.nsid ∧ p.sec.lsa / 4096 = u.region ∧ p.source.isNone then some p.sec.lsa else none).eraseDups

/-- Thousands rounded up, in n bits, saturating. -/
def thousands (n v : Nat) : Nat := min (2 ^ n - 1) (ceilDiv v 1000)

/-- Counts and records the sectors lost, and closes what the loss left open. -/
def State.countLost (s : State) (es : List Entry) : State :=
  let us := (s.lostUnits es).map fun u => (u, sortByKey id (s.unitSectors u))
  let s1 := us.foldl (fun t u => (runsOf (u.2.map fun l => (l, l))).foldl (fun v r => v.record 0x08 3 [u.1.nsid, r.1, r.2.1]) t) s
  let lost := (us.map fun u => u.2.length).sum
  let s2 := (s1.note mediaErrors lost).wr Reg.FTL_LOST_SECTORS (thousands 16 lost)
  (s2.modFtl fun f => { f with
    stripes := f.stripes.filter fun st => 2 ≤ st.state
    bands := f.bands.map fun (b : Band) => if b.state = 0 then { b with state := 1, stop := true } else b }).wr Reg.STR_STATUS_OPEN_BANDS 0

/-! ### Copies that disagree (R407) -/

/-- Two durable copies of a sector carry equal SEQ. -/
def State.twoCopies (s : State) (nsid lsa : Nat) : Bool :=
  let seqs := s.hemStripes.flatMap fun st => st.data.filterMap fun e => match e.2 with
    | some p => if p.sec.nsid = nsid ∧ p.sec.lsa = lsa ∧ nsid ≠ 0 then some p.sec.seq else none
    | none => none
  seqs.eraseDups.length < seqs.length

/-- Neither copy is mapped; reads complete with 0xA1 until the sector is written or deallocated. -/
def State.clash (s : State) (x : Nat × Nat) : State :=
  if !s.twoCopies x.1 x.2 || s.ftl.disagree.contains x then s
  else
    let q := maxOf (s.hemStripes.flatMap fun st => st.data.filterMap fun e => e.2.bind fun p => if p.sec.nsid = x.1 ∧ p.sec.lsa = x.2 then some p.sec.seq else none)
    let s1 := s.modFtl fun f => { f with map := trimRun s.hole f.map x.1 x.2 1, disagree := f.disagree ++ [x] }
    (s1.record 0x07 3 [x.1, x.2, q]).raise 1707

/-! ### The map -/

/-- What a tier recovers: the tier, the map, the journal entries of changes made, the namespace table, reinstated sectors. -/
structure Recovered where
  tier : Nat
  map : SMap MapEnt
  changes : List Entry
  nss : List Ns
  reinstated : Nat
  deriving DecidableEq, Repr

/-- The first tier whose condition holds (R404, Table 11.9). -/
def State.recovered (s : State) (bad : List Nat) : Recovered :=
  if s.blank then ⟨1, [], [], s.nvme.nss, 0⟩
  else match s.chooseCp bad with
    | none =>
      let r := s.fromHems [] s.hemStripes true
      ⟨3, r.1, r.2, s.nvme.nss, s.reinstated r.1 s.hemStripes⟩
    | some (c, _) =>
      match (if s.boot.journalSuspect then none else s.intactJournal c) with
      | some l =>
        let es := l.flatMap fun p => p.entries
        ⟨1, es.foldl s.applyEntry c.map, [], es.foldl applyNs c.nss, 0⟩
      | none =>
        let r := s.fromHems c.map (s.hemStripes.filter fun st => c.cpSeq < st.seqMax || c.late.contains st.id) false
        ⟨2, r.1, r.2, c.nss, 0⟩

/-- The value the counter restarts at (R389). -/
def State.restartSeq (s : State) (tier : Nat) : Nat :=
  if tier = 3 then maxOf (s.ftl.stripes.map Stripe.seqMax) + 2 ^ 32 else s.ftl.seqCeil

/-- The journal goes on with the changes recovery made and the new ceiling, which it waits for (log entry 36). -/
def State.restartCounter (s : State) (tier : Nat) (changes : List Entry) : State :=
  let q := s.restartSeq tier
  let s0 := s.modFtl fun f => { f with seqNext := q }
  let s1 := ((s0.jputs changes).jput ⟨0x14, 0, 0, 0, 0, q + 2 ^ 32, 0⟩).writePage false
  s1.modFtl fun f => { f with
    pages := f.pages.map fun (p : JPage) => { p with copies := [0, 1, 2] }
    seqNext := max q f.seqNext, seqCeil := q + 2 ^ 32, ceilPending := false, jmap := f.map }

/-- The map, the counter and the counts of a recovery. -/
def State.recoverMap (s : State) (bad : List Nat) (found : FlashFound) : State :=
  let r := s.recovered bad
  let es := s.hemStripes.flatMap fun st => st.entries
  let prev := match s.chooseCp bad with | some (_, p) => p && r.tier != 3 | none => false
  let s1 := s.modFtl fun f => { f with
    map := r.map, cps := f.cps.map fun (c : Checkpoint) => if bad.contains c.gen then { c with usable := false } else c }
  let s2 := (found.clashes.foldl State.clash ({ s1 with nvme := { s1.nvme with nss := r.nss } } : State)).countLost es
  let s3 := ((s2.wr Reg.FTL_STATUS_TIER r.tier).wr Reg.FTL_STATUS_PREV_GEN (bit prev)).wr Reg.FTL_STATUS_REINSTATED (bit (0 < r.reinstated))
  let s4 := (s3.wr Reg.FTL_LOST_REINSTATED (thousands 16 r.reinstated)).raiseIf (r.tier != 1) 1713
  let s5 := if s4.boot.journalSuspect then s4.modBoot fun b => { b with journalSuspect := false, seq := b.seq + 1 } else s4
  let s6 := if s5.ftl.spareAtStart.isNone then s5.modFtl fun f => { f with spareAtStart := some s5.spareUnits } else s5
  let s7 := match s6.newestCp with | some c => s6.wr Reg.FTL_CP_GEN_GEN c.gen | none => s6
  (found.metas.foldl State.metaRewrite (s7.restartCounter r.tier r.changes)).remeta.putConfigCopy (s.slotBody 3 s.imageSlot)

/-! ### Namespaces (04 R129, R755) -/

/-- Units that no namespace holds. -/
def State.freeCap (s : State) : Nat := userUnits s.image.cfg - (s.nvme.nss.map fun n => n.units).sum

/-- A range meets no namespace but the one left out: the range that a growing namespace itself holds counts as free (DESIGN CHOICE, log entry 57). -/
def State.rangeFree (s : State) (skip base n : Nat) : Bool :=
  base + n ≤ userUnits s.image.cfg && s.nvme.nss.all fun x => x.nsid == skip || x.base + x.units ≤ base || base + n ≤ x.base

/-- The lowest base whose free run holds n units. -/
def State.lowestBase (s : State) (skip n : Nat) : Option Nat :=
  (sortByKey id (0 :: s.nvme.nss.map fun x => x.base + x.units)).find? fun b => s.rangeFree skip b n

/-- A namespace's entry changes, and an NS_SET journals it. -/
def State.putNs (s : State) (n : Ns) : State :=
  if s.nvme.nss.contains n then s
  else
    let known := s.nvme.nss.any fun x => x.nsid == n.nsid
    let swap (x : Ns) : Ns := if x.nsid = n.nsid then n else x
    let l := if known then s.nvme.nss.map swap else s.nvme.nss ++ [n]
    let s1 : State := { s with nvme := { s.nvme with nss := l } }
    s1.jput (nsEntry n)

/-- The other namespaces move toward base 0, in ascending base order; answers where the free run begins. -/
def State.compactNs (s : State) (skip : Nat) : State × Nat :=
  (sortByKey (fun (n : Ns) => n.base) (s.nvme.nss.filter fun n => n.nsid != skip)).foldl
    (fun (a : State × Nat) n => (a.1.putNs { n with base := a.2 }, a.2 + n.units)) (s, 0)

/-- Places a namespace that is to have n units. -/
def State.placeNs (s : State) (x : Ns) (n : Nat) : State :=
  let stored := s.nvme.nss.any fun y => y.nsid == x.nsid
  if stored && s.rangeFree x.nsid x.base n then s.putNs { x with units := n }
  else match s.lowestBase x.nsid n with
    | some b => s.putNs { x with units := n, base := b }
    | none => let (s1, b) := s.compactNs x.nsid; s1.putNs { x with units := n, base := b }

/-- A STORED_STATE entry of the load's report. -/
def storedState (inst off width written applied : Nat) : ClampEntry := ⟨0x30, inst, off, width, 0, 0x0A, 0, written, applied⟩

/-- One NAMESPACE record of the image against the stored table. -/
def State.reconcileOne (s : State) (r : Rec) : State × List ClampEntry :=
  let id := r.get 0
  let want := r.get 8
  match s.nvme.nss.find? fun n => n.nsid == id with
  | some n =>
    let differ (off width stored : Nat) : List ClampEntry := if r.get off = stored then [] else [storedState r.inst off width (r.get off) stored]
    let size := if want = 0 then n.units + s.freeCap else max n.units (min want (n.units + s.freeCap))
    let es := differ 4 8 n.lbaFormat ++ differ 5 8 n.piType ++ (if want = 0 ∨ size = want then [] else [storedState r.inst 8 32 want size]) ++
      differ 12 16 n.keySlot
    let n2 := { n with take := r.get 6 == 1, attached := true }
    (if size = n.units then s.putNs n2 else s.placeNs n2 size, es)
  | none =>
    let size := if want = 0 then s.freeCap else min want s.freeCap
    let es := if want = 0 ∨ size = want then [] else [storedState r.inst 8 32 want size]
    if size = 0 then (s, es)
    else ((s.placeNs ⟨id, r.get 4, r.get 5, r.get 12, r.get 6 == 1, 0, 0, true⟩ size).fillSlot (r.get 12), es)

/-- The entries join the report of the load (R139): at most 1,024, CLAMP_COUNT and OVERFLOW follow; GENERATION and TIME_MS stay those of the load
(DESIGN CHOICE, log entry 57). -/
def State.appendReport (s : State) (es : List ClampEntry) : State :=
  match s.image.lastLoad with
  | none => s
  | some r =>
    if es.isEmpty then s
    else
      let all := r.entries ++ es
      let r2 := { r with entries := all.take 1024, overflow := r.overflow || decide (1024 < all.length) }
      let im := { s.image with lastLoad := some r2, newest := if s.image.newest = some r then some r2 else s.image.newest }
      let s1 : State := { s with image := im }
      let s2 := (s1.wr Reg.BEL_IMAGE_STATUS_CLAMP_COUNT r2.entries.length).wr Reg.BEL_IMAGE_STATUS_OVERFLOW (bit r2.overflow)
      if r.entries.isEmpty && !r.fallback && !r.noImage && !r.rollback then s2.ctrls.foldl (fun t c => t.aen c ⟨7, 1797 / 64, 0xC1⟩) s2 else s2

/-- Reconciliation: ascending NSID, the namespace of NSZE_UNITS 0 last; a stored one that no record names is attached to no controller. -/
def State.reconcile (s : State) : State :=
  let rs := sortRecs (recsOf s.image.cfg 0x30)
  let order := rs.filter (fun r => r.get 8 != 0) ++ rs.filter fun r => r.get 8 == 0
  let s1 : State := { s with nvme := { s.nvme with nss := s.nvme.nss.map fun (n : Ns) => { n with attached := false } } }
  let (s2, es) := order.foldl (fun (a : State × List ClampEntry) r => let (t, e) := a.1.reconcileOne r; (t, a.2 ++ e)) (s1, [])
  s2.appendReport es

/-! ### Takes (07 R288, R289) -/

/-- Every sector of a list is mapped: its write was in a durable stripe and committed. -/
def State.allMapped (s : State) (lsas : List Nat) : Bool := lsas.all fun l => (s.locate s.takeNsid l).isSome

/-- A record is wholly durable: every sector of it, of an abandoned one the first. -/
def State.wholly (s : State) (place : ClipRec → List Nat) (r : ClipRec) : Bool := s.allMapped (if r.flags.testBit 0 then (place r).take 1 else place r)

/-- The records of a clip after an interruption (R288, R310): none after the last that is wholly durable; before it, one that is not wholly durable is
abandoned. -/
def State.survivors (s : State) (place : ClipRec → List Nat) (rs : List ClipRec) : List ClipRec :=
  (rs.reverse.dropWhile fun r => !s.wholly place r).reverse.map fun r =>
    if s.wholly place r then { r with whole := true } else { r with flags := r.flags ||| 1, crc := 0, body := [], whole := true }

/-- The stored bytes of a mapped sector. -/
def State.storedSector (s : State) (lsa : Nat) : Option (List Byte) := ((s.locate s.takeNsid lsa).bind s.placed).map fun p => p.sec.payload

/-- The first sector of a kept record is written again where it does not hold what it should: an abandoned record's (R302; the rest of it is
deallocated), or a frame's without its payload CRC (log entry 17). -/
def State.mendRecord (s : State) (num i : Nat) (place : ClipRec → List Nat) (r : ClipRec) : State :=
  let stored := ((place r).head?.bind s.storedSector).getD []
  let want := if r.flags.testBit 0 then plainRecord num i r else recordHeader num i r ++ stored.drop 64
  let s1 := if r.flags.testBit 0 then s.takeTrim (((place r).drop 1).filter fun l => (s.locate s.takeNsid l).isSome) else s
  if want = stored then s1 else s1.takeWrite 7 num i ((place r).take 1) [want] none true

/-- One clip: its records, its complete index segments, the end of what it holds. -/
def State.recoverClip (s : State) (num i : Nat) : State :=
  match (s.takeOf num).bind fun t => t.clips[i]? with
  | none => s
  | some c =>
    let place (r : ClipRec) := c.recLsas s.geom r
    let ringPlace (r : ClipRec) := c.ringLsas s.geom r
    let recs := s.survivors place c.recs
    let ring := s.survivors ringPlace c.ringRecs
    let frames := (recs.filter fun r => r.kind == 1).length
    let segs := (c.segs.filter fun g => g.frames == 65536 && g.first + g.frames ≤ frames).map fun (g : Seg) =>
      { g with sent := g.sent && s.allMapped ((List.range g.sectors).map fun k => unitLsa s.geom c.units (g.off + k)) }
    let freed := (c.segs.filter fun g => !(g.frames == 65536 && g.first + g.frames ≤ frames)).flatMap fun g => g.events
    let stop := maxOf ([if (s.takeOf num).any (fun t => t.ring) then 512 else 1] ++ (recs.map fun r => r.off + r.sectors) ++ segs.map fun g => g.off + g.sectors)
    let ringEnd := maxOf (ring.map fun r => r.off + r.sectors)
    let gone := (c.recs.filter fun r => !recs.any fun q => q.off == r.off).flatMap place ++
      (c.ringRecs.filter fun r => !ring.any fun q => q.off == r.off).flatMap ringPlace
    let s1 := (s.takeTrim (gone.filter fun l => (s.locate s.takeNsid l).isSome)).modClip num i fun x => { x with
      recs := recs, ringRecs := ring, segs := segs, pos := stop
      ringPos := if ring.isEmpty then x.ringPos else ringEnd
      events := (freed ++ x.events).filter fun e => match e.recAt with | some o => o < stop | none => true
      nextSeq := maxOf ([x.firstSeq] ++ ((recs ++ ring).filter fun r => r.kind == 1).map fun r => r.seq + 1)
      abandoned := ((recs ++ ring).filter fun r => r.kind == 1 && r.has 0).length
      units := x.units.take (max 1 (ceilDiv stop 512)) }
    ring.foldl (fun t r => t.mendRecord num i ringPlace r) (recs.foldl (fun t r => t.mendRecord num i place r) s1)

/-- The stamps of a take's records. -/
def Take.stamps (t : Take) : List Nat := t.clips.flatMap fun c => (c.recs ++ c.ringRecs).map fun r => r.stamp

/-- One take not CLOSED at the interruption is sealed (R288); one ARMED from its ring (R289). The close point of one that had none is the stamp of the
last record kept (log entry 68). -/
def State.recoverTake (s : State) (num : Nat) : State :=
  match s.takeOf num with
  | none => s
  | some t0 =>
    let armed := t0.state == 1
    let s1 := (List.range t0.clips.length).foldl (fun u i => u.recoverClip num i) s
    let last := match s1.takeOf num with | some t => maxOf t.stamps | none => 0
    let s2 := if armed && t0.ring then (List.range t0.clips.length).foldl (fun u i => u.ringToClip num i (last - t0.pretrigger * 1000000000)) s1 else s1
    let s3 := s2.modTake num fun x => { x with
      sched := [], closeCmds := [], openCmd := none, sealing := 1
      reason := if armed then 6 else s.boot.lastEnd
      closeTime := if t0.state = 3 then x.closeTime else last }
    (List.range t0.clips.length).foldl (fun u i => u.sealClip num i) (if t0.state = 3 then s3.dirChange else s3.takeState num 3)

/-- A take whose Take Open had not completed was never opened; every other open one is sealed. -/
def State.recoverTakes (s : State) : State :=
  let lost := s.takes.dir.filter fun t => t.state != 4 && t.openCmd.isSome
  let headers := (lost.flatMap fun t => t.clips.map fun (c : Clip) => unitLsa s.geom c.units 0).filter fun l => (s.locate s.takeNsid l).isSome
  let s1 := (s.modTakes fun x => { x with dir := x.dir.filter fun t => t.state == 4 || t.openCmd.isNone }).takeTrim headers
  (s1.openTakes.map fun t => t.num).foldl State.recoverTake s1

/-! ### The command -/

/-- An interrupted sanitize starts again (R215). -/
def State.resumeSanitize (s : State) : State := if s.nvme.sanitize.action = 0 then s else s.sanBegin.sanStep

/-- RECOVERY: the map, the counter, the namespaces, a sanitize, the takes, and the first checkpoint, in the order of R410. -/
def State.recovery (s : State) (bad : List Nat) (found : FlashFound) : State :=
  if !s.mainUp || s.phase != 0xA || s.rd Reg.FTL_STATUS_TIER != 0 then s
  else
    let s1 := ((((found.metas.foldl State.metaLost s).recoverMap bad found).reconcile.resumeSanitize).recoverTakes).startCheckpoint.showStripes
    let s2 := if s1.rebuildWork.isEmpty then s1 else s1.startRebuild
    -- firmware writes every line of regions 0 to 4 that the recovery did not fill (17 R619)
    (s2.modDram fun d => { d with written := [0, 1, 2, 3, 4] }).settleDma

def execRecovery (badGenerations : List Nat) (clashes : FlashFound) (s : State) : Host.Outcome State Fault Refusal :=
  .next (s.recovery badGenerations clashes)

/-- Recovery has run, every take is sealed, no sanitize and no key change of a new namespace is left (R410, 06 R215, 16 R591). -/
def State.mayBeReady (s : State) : Bool :=
  s.phase == 0xA && s.rd Reg.FTL_STATUS_TIER != 0 && s.openTakes.isEmpty && s.nvme.sanitize.action == 0 && s.cph.ops.isEmpty

/-- READY: namespaces become ready; FTL_RECOVERY_MS holds how long the recovery took. -/
def State.becomeReady (s : State) : State :=
  if s.mainUp && s.mayBeReady then (s.wr Reg.FTL_RECOVERY_MS_MS ((s.now - s.boot.phaseSince) / 1000000)).setPhase 0xB else s

def execReady (s : State) : Host.Outcome State Fault Refusal := .next s.becomeReady

end Sys2Proof.Machine
end

