-- ==== Sys2Proof/Machine/Mailbox.lean ====
section
/-!
DEFINITION. Machine/Mailbox.lean: the Belfry's mailboxes and the same messages over the management port (22 R731 to R733): request, response,
and the lifecycle messages (03 R94 to R96). The framing of a vendor-defined message is PRESUMED (log entry 37).
-/
namespace Sys2Proof.Machine

/-! ### Messages (Table 22.1) -/

/-- A request: OPCODE, FLAGS, TAG, LEN, arguments, and who sent it. -/
structure MbMsg where
  op : Nat
  flags : Nat
  tag : Nat
  len : Nat
  args : List Byte
  agent : Nat
  deriving DecidableEq, Repr

/-- An answer: STATUS, DETAIL, data. -/
structure MbAns where
  status : Nat
  detail : Nat
  data : List Byte
  deriving DecidableEq, Repr

def mbOk : MbAns := ⟨0, 0, []⟩
def mbInvalid : MbAns := ⟨2, 0, []⟩
def mbState : MbAns := ⟨3, 0, []⟩
def mbRisk : MbAns := ⟨5, 0, []⟩
def mbAuth : MbAns := ⟨6, 0, []⟩

/-- The type byte and the enterprise number of a vendor-defined message. -/
def State.ianaHead (s : State) : List Byte := 0x7F :: beBytes 4 (s.rd Reg.BEL_MCTP_IANA_ID)

/-- The bytes of a request: of mailbox c the 256 bytes of BEL_MB_REQ, of a message those after its head. -/
def State.mbBytes (s : State) (r : MbReq) : List Byte :=
  match r with
  | .go c => (List.range 64).flatMap fun w => leBytes 4 (s.reg (Reg.BEL_MB_REQ c.val w)).toNat
  | .mctp b => if b.take 5 = s.ianaHead then b.drop 5 else []

def State.mbMsg (s : State) (r : MbReq) : MbMsg :=
  let b := s.mbBytes r
  ⟨leAt b 0 2, leAt b 2 2, leAt b 4 4, leAt b 8 4, slice b 16 (leAt b 8 4), match r with | .go c => c.val | .mctp _ => 5⟩

/-- A response is posted: STATE 2 and source 1,776 for a mailbox, a message on the management port. -/
def State.mbRespond (s : State) (r : MbReq) (m : MbMsg) (a : MbAns) : State :=
  let b := leBytes 2 m.op ++ leBytes 2 a.status ++ leBytes 4 m.tag ++ leBytes 4 a.data.length ++ leBytes 4 a.detail ++ a.data
  match r with
  | .go c =>
    let s1 := (List.range 128).foldl (fun t v => t.setReg (Reg.BEL_MB_RESP c.val v) (BitVec.ofNat 32 (leAt b (4 * v) 4))) s
    ((s1.wr (Reg.BEL_MB_STATUS_STATE c.val) 2).wr (Reg.BEL_MB_STATUS_RESP_BYTES c.val) b.length).raise 1776
  | .mctp _ => { s with port := { s.port with sent := s.port.sent ++ [s.ianaHead ++ b] } }

/-- Recovery mode, in which only the messages of Table 3.13 are served. -/
def State.recoveryMode (s : State) : Bool := s.phase == 0xC || s.phase == 0xE

/-- A GO write discards an unread response and clears LOST. -/
def State.mbGo (s : State) (r : MbReq) : State :=
  match r with
  | .go c => ((s.wr (Reg.BEL_MB_STATUS_STATE c.val) 1).wr (Reg.BEL_MB_STATUS_LOST c.val) 0).wr (Reg.BEL_MB_STATUS_RESP_BYTES c.val) 0
  | .mctp _ => s

/-- The live operations of Table 22.3, whose outcome an event record keeps. -/
def liveOp (op : Nat) : Bool := 0x28 ≤ op && op ≤ 0x3D

/-- Serves a message of one opcode; a message of another is another command's. While the Belfry does not serve, a request stays pending.
`f` answers. -/
def State.mbServe (s : State) (r : MbReq) (mine : Nat → Bool) (f : State → MbMsg → State × MbAns) : State :=
  let m := s.mbMsg r
  if !s.board.vaux || !mine m.op then s
  else if !s.belfryRuns || s.recoveryMode then s.mbGo r
  else
    let s0 := match r with | .go _ => s | .mctp _ => s.noteMgmt
    let s1 := (s0.mbGo r).modMaint fun x => { x with lastOp := m.op }
    let a := if 240 < m.len then (s1, mbInvalid) else f s1 m
    let s2 := if liveOp m.op then a.1.record 0x11 1 [m.op, leAt m.args 0 2, a.2.status, m.agent] else a.1
    s2.mbRespond r m a.2

/-- The opcodes of Table 22.2. -/
def mbOpcodes : List Nat :=
  [0x10, 0x11, 0x12, 0x18, 0x19, 0x20, 0x21, 0x28, 0x29, 0x2A, 0x2C, 0x2D, 0x30, 0x31, 0x32, 0x34, 0x35, 0x38, 0x3C, 0x3D, 0x40]

/-- MAILBOX_UNSUPPORTED_OPCODE: an opcode that is not in the table. -/
def execMailboxUnsupportedOpcode (r : MbReq) (s : State) : Host.Outcome State Fault Refusal :=
  .next (s.mbServe r (fun op => !mbOpcodes.contains op) fun t _ => (t, ⟨1, 0, []⟩))

/-! ### Lifecycle (03 R94 to R96) -/

/-- Burns 32-bit words from a word of the OTP row on. -/
def State.burnBytes (s : State) (w : Nat) (b : List Byte) : State :=
  (List.range (b.length / 4)).foldl (fun t i => t.burn (w + i) (BitVec.ofNat 32 (leAt b (4 * i) 4))) s

/-- The hash of an owner's public key. -/
def keyHash (pubkey : List Byte) : BitVec 384 := Config.sha384 pubkey

def State.burnOwner (s : State) (i : Nat) (h : BitVec 384) : State := s.burnBytes (0x14 + 12 * i) (digestBytes h)

/-- A burn of OWNER_HASH0 was cut short (R96): BEL_LIFECYCLE.OWN_INCOMPLETE. -/
def State.ownIncomplete (s : State) : Bool := s.lifecycle == 1 && s.ownerHash 0 != 0

/-- OWN_TAKE: in OPEN only; a burn cut short is completed only with a key whose hash has no bit clear where OWNER_HASH0 has one set. -/
def State.ownTake (s : State) (args : List Byte) : State × MbAns :=
  let h := keyHash (slice args 0 97)
  if args.length < 97 then (s, mbInvalid)
  else if s.lifecycle ≠ 1 ∨ s.ownerHash 0 &&& h ≠ s.ownerHash 0 then (s, mbState)
  else ((s.burnOwner 0 h).burn 3 3, mbOk)

def execOwnTake (r : MbReq) (s : State) : Host.Outcome State Fault Refusal := .next (s.mbServe r (fun op => op == 0x10) fun t m => t.ownTake m.args)

/-- A signature by the active owner. -/
def State.ownerSigned (s : State) (msg sig : List Byte) : Bool :=
  match s.activeOwner with
  | some i => Config.ecdsaVerify (Config.ownerKey (s.ownerHash i)) (Config.sha384 msg) sig
  | none => false

/-- OWN_TRANSFER: in OWNED, with an OWNER_HASH left (R95) and the active owner's signature; the next hash is burnt, then the previous
one revoked. -/
def State.ownTransfer (s : State) (args : List Byte) : State × MbAns :=
  let h := keyHash (slice args 0 97)
  if args.length < 193 then (s, mbInvalid)
  else if s.lifecycle ≠ 3 then (s, mbState)
  else match (List.range 4).find? fun i => s.ownerHash i == 0 with
    | none => (s, mbState)
    | some n =>
      if !s.ownerSigned (digestBytes h ++ s.uniqueId) (slice args 97 96) then (s, mbAuth)
      else
        let old := s.activeOwner.getD 0
        ((s.burnOwner n h).burn 4 (BitVec.ofNat 32 (2 ^ old)), mbOk)

def execOwnTransfer (r : MbReq) (s : State) : Host.Outcome State Fault Refusal :=
  .next (s.mbServe r (fun op => op == 0x11) fun t m => t.ownTransfer m.args)

/-- RETIRE: from OPEN, or from OWNED with the active owner's signature. -/
def State.retireDevice (s : State) (args : List Byte) : State × MbAns :=
  if s.lifecycle ≠ 1 ∧ s.lifecycle ≠ 3 then (s, mbState)
  else if s.lifecycle = 3 ∧ args.length < 96 then (s, mbInvalid)
  else if s.lifecycle = 3 ∧ !s.ownerSigned (ascii "RETIRE" ++ s.uniqueId) (slice args 0 96) then (s, mbAuth)
  else (((List.range 8).foldl (fun t i => t.burn (0x54 + i) 0xFFFFFFFF) s).burn 3 7, mbOk)

/-- RETIRE, and the warm restart that follows its response. -/
def State.retire (s : State) (r : MbReq) : State :=
  let s1 := s.mbServe r (fun op => op == 0x12) fun t m => t.retireDevice m.args
  if s.lifecycle ≠ 7 ∧ s1.lifecycle = 7 ∧ s1.board.mainRunning then (s1.warmFlush true false).settleDma else s1

def execRetire (r : MbReq) (s : State) : Host.Outcome State Fault Refusal := .next (s.retire r)

/-! ### Rail faults -/

/-- FAULT_CLEAR (02 R66): the latched rail fault clears, and start-up may go on. -/
def State.faultClear (s : State) : State × MbAns :=
  if s.board.railFault.isNone then (s, mbState) else (s.modBoard fun b => { b with railFault := none, railRetried := false }, mbOk)

def execFaultClear (r : MbReq) (s : State) : Host.Outcome State Fault Refusal := .next (s.mbServe r (fun op => op == 0x18) fun t _ => t.faultClear)

end Sys2Proof.Machine
end

