-- ==== Sys2Proof/Machine/Firmware.lean ====
section
/-!
DEFINITION. Machine/Firmware.lean: firmware update over NVMe (03 R106 to R109), the messages of recovery mode (03 R113), and Microcode Patch (13 R484
to R488).
-/
namespace Sys2Proof.Machine

/-! ### Download and Commit -/

/-- The bytes of portions placed in a buffer; what no portion covers reads as zero. -/
def assembled (l : List (Nat × List Byte)) : List Byte :=
  let n := maxOf (l.map fun p => p.1 + p.2.length)
  l.foldl (fun b p => b.take p.1 ++ p.2 ++ b.drop (p.1 + p.2.length)) (List.replicate n 0)

/-- FIRMWARE_IMAGE_DOWNLOAD: NUMD dwords (0's based) at OFST dwords. -/
def State.download (s : State) (c : Sqe) : State :=
  let n := 4 * (c.cdw10.toNat + 1)
  (s.modCtrl c.ctrl.val fun k => { k with download := k.download ++ [(4 * c.cdw11.toNat, padTo n (c.data.take n))] }).succeed c

def execFirmwareImageDownload (c : Sqe) (s : State) : Host.Outcome State Fault Refusal := .next (s.admin c .plain fun t => t.download c)

/-- The commit slot is 0 or names the inactive main firmware slot (R107); ignored where the package has no main firmware. -/
def State.commitSlotOk (s : State) (p : Pkg) (fs : Nat) : Bool :=
  !(p.comps.any fun c => c.kind == 1) || fs == 0 || fs == 2 - (s.kind 1).active

/-- Firmware Commit of the Download buffer; `trial` marks the slots as trial slots. While one is in progress another gets Command Sequence Error
(R109); one accepted goes on until the Belfry has written and read back its slots. -/
def State.fwCommit (s : State) (c : Sqe) (trial : Bool) : State :=
  let buf := assembled (s.ctrl c.ctrl.val).download
  if s.boot.commit.isSome then s.fail c stSequence
  else match s.acceptPkg buf with
  | none => s.fail c stInvalidImage
  | some p =>
    if !s.commitSlotOk p (dwBits c.cdw10 0 3) then s.fail c stInvalidSlot
    else s.modBoot fun b => { b with commit := some ⟨c, trial, buf, p.comps.map fun x => x.kind⟩ }

/-- The Firmware Commit in progress ends (R108): the image run, the slots, the trial mark, its completion. -/
def State.commitEnd (s : State) : State :=
  match s.boot.commit with
  | none => s
  | some o =>
    if !s.belfryRuns then s
    else
      let s0 := s.modBoot fun b => { b with commit := none }
      match s0.acceptPkg o.buf with
      | none => s0.fail o.cmd stInvalidImage
      | some p =>
        let r := s0.installPkg p o.trial
        if !r.2 then r.1.fail o.cmd stInvalidImage
        else
          let s1 := r.1.modCtrl o.cmd.ctrl.val fun k => { k with download := [] }
          if o.trial then s1.fail o.cmd stNeedsReset else s1.succeed o.cmd

/-- FIRMWARE_COMMIT_REPLACE: action 000b; 011b and above are refused. -/
def execFirmwareCommitReplace (c : Sqe) (s : State) : Host.Outcome State Fault Refusal :=
  let ca := dwBits c.cdw10 3 3
  .next (if ca = 1 ∨ ca = 2 then s else s.admin c .plain fun t => if ca = 0 then t.fwCommit c false else t.fail c stInvalidField)

/-- FIRMWARE_COMMIT_ACTIVATE: actions 001b and 010b. -/
def execFirmwareCommitActivate (c : Sqe) (s : State) : Host.Outcome State Fault Refusal :=
  let ca := dwBits c.cdw10 3 3
  .next (if ca = 1 ∨ ca = 2 then s.admin c .plain fun t => t.fwCommit c true else s)

/-! ### Recovery mode (R113; the bytes of its messages are log entry 37) -/

/-- Sends a recovery message's response. -/
def State.rcvAnswer (s : State) (code : Nat) (b : List Byte) : State :=
  { s with port := { s.port with sent := s.port.sent ++ [s.ianaHead ++ leBytes 1 code ++ b] } }

/-- A recovery message is served only in recovery mode. -/
def State.rcv (s : State) (f : State → State) : State := if s.belfryRuns && s.recoveryMode then f s else s

/-- A bit for each component kind. -/
def kindBits (f : Nat → Bool) : Nat := ((List.range 4).map fun k => if f k then 2 ^ k else 0).sum

/-- RCV_STATUS: PHASE, lifecycle, active and trial slots, last error. -/
def execRcvStatus (s : State) : Host.Outcome State Fault Refusal :=
  .next (s.rcv fun t => t.rcvAnswer 1 (([t.phase, t.lifecycle, kindBits fun k => (t.kind k).active == 1, kindBits fun k => (t.kind k).trial.isSome,
    t.rd Reg.BEL_BOOT_STATUS_ERROR] : List Nat).flatMap (leBytes 1)))

/-- RCV_WRITE: 1 to 1,024 bytes at an offset; status 0 stored, 2 refused. -/
def State.rcvWrite (s : State) (offset : Nat) (data : List Byte) : State :=
  if data.isEmpty ∨ 1024 < data.length then s.rcvAnswer 2 [2]
  else
    let m := (List.range data.length).foldl (fun m i => mapSet (fun _ => (0 : Byte)) m (offset + i) (data.getD i 0)) s.boot.recoveryBuf
    (s.modBoot fun b => { b with recoveryBuf := m }).rcvAnswer 2 [0]

def execRcvWrite (offset : Nat) (data : List Byte) (s : State) : Host.Outcome State Fault Refusal := .next (s.rcv fun t => t.rcvWrite offset data)

/-- RCV_COMMIT: the package is checked as R105 describes and staged as a trial. The response is the status of the check, 0 or 7, and after 0 the result
of R108: 10h, or 7 where the image does not load or a slot does not read back (log entry 37). -/
def State.rcvCommit (s : State) (length : Nat) : State :=
  let buf := (List.range length).map fun i => mapGet (fun _ => (0 : Byte)) s.boot.recoveryBuf i
  match s.acceptPkg buf with
  | none => s.rcvAnswer 3 (leBytes 1 7)
  | some p =>
    let r := s.installPkg p true
    let e := if r.2 then 0x10 else 7
    r.1.rcvAnswer 3 (leBytes 1 0 ++ leBytes 1 e)

def execRcvCommit (length : Nat) (s : State) : Host.Outcome State Fault Refusal := .next (s.rcv fun t => t.rcvCommit length)

/-- RCV_BOOT: a boot with BOOT_SEL treated as 0b00, from phase IMAGE on (log entry 38). -/
def execRcvBoot (s : State) : Host.Outcome State Fault Refusal :=
  .next (s.rcv fun t => ((t.rcvAnswer 4 [0]).modBoot fun b => { b with bootSel := 0, fails := 0, onPrevious := false }).setPhase 2)

/-! ### Microcode Patch -/

/-- Addresses of a list of ranges. -/
def rangeAddrs (l : List (Nat × Nat)) : List Nat := l.flatMap fun r => (List.range r.2).map fun i => r.1 + i

/-- A Sleeve that is not bypassed cannot take the patch (R484). -/
def State.patchBad (s : State) (i : Nat) (m : Micro) : Bool :=
  let sl := s.sleeve i
  let live (st : SMap (Option CtlWord)) (a : Nat) : Bool := (mapGet (fun _ => none) st a).isSome
  let after := releaseWords (writeWords m.ranges m.words sl.store) m.release
  let needs := (sleevePersonalities s.image.cfg i).flatMap fun k => (List.range 16).filterMap fun e =>
    let a := cfgGet s.image.cfg (0x10 + k) 0 (0x30 + 2 * e)
    if a = 0xFFFF then none else some a
  m.baseVersion != s.rd (Reg.SLV_VERSION_VERSION i) || (m.ranges.any fun r => 0x2000 < r.1 + r.2) || (rangeAddrs m.ranges).any (live sl.store) ||
    (needs.any fun a => !m.entries.contains a) || (m.resume.any fun e => !live after e.2) || !live after m.faultEntry

/-- The package of a Microcode Patch: one component, microcode, a patch. -/
def State.patchOf (s : State) (c : Sqe) : Option (Micro × List Byte) :=
  match s.acceptPkg (c.data.take (4 * c.cdw10.toNat)) with
  | some p => match p.comps with
    | [x] => if x.kind = 2 then (readMicro x.body).bind fun m => if m.kind = 1 then some (m, x.body) else none else none
    | _ => none
  | none => none

/-- MICROCODE_PATCH: checked, then the named Sleeves cross over one after another; the command completes after the last. -/
def State.microPatch (s : State) (c : Sqe) : State :=
  let mask := c.cdw12.toNat + 2 ^ 32 * c.cdw13.toNat
  let named := (List.range 64).filter mask.testBit
  if 524288 < c.cdw10.toNat then s.fail c stInvalidField
  else match s.patchOf c with
    | none => s.fail c stInvalidImage
    | some (m, body) =>
      if named.isEmpty then s.fail c stInvalidField
      else if s.slv.patch.isSome || s.nvme.sanitize.action != 0 then s.fail c stSequence
      else if named.any fun i => s.rd (Reg.SLV_STATUS_BYPASSED i) == 0 && s.patchBad i m then s.fail c stInvalidImage
      else ((s.noAbort c).modSlv fun v => { v with patch := some ⟨c, Config.sha384 body, m, named, 0⟩ }).patchGo

/-- A sanitize in progress is answered by the command's own check: R484 names Command Sequence Error. -/
def execMicrocodePatch (c : Sqe) (s : State) : Host.Outcome State Fault Refusal :=
  .next (s.admin c .patch fun t => (t.microPatch c).settleDma)

end Sys2Proof.Machine
end

