-- ==== Sys2Proof/Machine/Spdm.lean ====
section
/-!
DEFINITION. Machine/Spdm.lean: the SPDM responder on the management port (03 R100, R101). The bytes of SPDM messages are those of DMTF DSP0274 1.2, which
the manual names and does not restate (PRESUMED, log entry 35).
-/
namespace Sys2Proof.Machine

def State.modPort (s : State) (f : Mgmt → Mgmt) : State := { s with port := f s.port }

/-- Sends an SPDM message: MCTP message type 5. -/
def State.spdmSend (s : State) (b : List Byte) : State := s.noteMgmt.modPort fun p => { p with sent := p.sent ++ [0x05 :: b] }

/-- The request codes the responder serves. -/
def spdmCodes : List Nat := [0x84, 0xE1, 0xE3, 0x81, 0x82, 0x83, 0xE0]

/-- The request code of a message. -/
def spdmCode (req : List Byte) : Nat := byteAt req 1

/-- ERROR with a code, in the version of the request. -/
def State.spdmError (s : State) (req : List Byte) (code data : Nat) : State :=
  s.spdmSend (req.take 1 ++ [0x7F] ++ leBytes 1 code ++ leBytes 1 data)

/-- A request of a code is served while the Belfry runs: in a version it supports, and once the connection has come far enough. -/
def State.spdm (s : State) (req : List Byte) (code stage : Nat) (f : State → State) : State :=
  if !s.belfryRuns || spdmCode req != code then s
  else if !(decide (0x10 ≤ byteAt req 0) && decide (byteAt req 0 ≤ 0x12)) then s.spdmError req 0x41 0
  else if s.port.stage < stage then s.spdmError req 0x04 0
  else f s

/-! ### The negotiation -/

/-- GET_VERSION: versions 1.0 to 1.2; the connection begins anew. -/
def State.spdmVersion (s : State) (req : List Byte) : State :=
  let rsp : List Byte := [0x10, 0x04, 0, 0, 0, 3, 0x00, 0x10, 0x00, 0x11, 0x00, 0x12]
  (s.modPort fun p => { p with stage := 1, vca := req ++ rsp, certs := [], meas := [] }).spdmSend rsp

def execGetVersion (req : List Byte) (s : State) : Host.Outcome State Fault Refusal := .next (s.spdm req 0x84 0 fun t => t.spdmVersion req)

/-- GET_CAPABILITIES: CERT_CAP, CHAL_CAP, MEAS_CAP 10b; messages of at most 4,096 B. -/
def State.spdmCapabilities (s : State) (req : List Byte) : State :=
  let rsp := req.take 1 ++ [0x61, 0, 0, 0] ++ leBytes 1 Config.ctExponent ++ [0, 0] ++ leBytes 4 0x16 ++
    (if byteAt req 0 = 0x12 then leBytes 4 4096 ++ leBytes 4 4096 else [])
  (s.modPort fun p => { p with stage := max 2 p.stage, vca := p.vca ++ req ++ rsp }).spdmSend rsp

def execGetCapabilities (req : List Byte) (s : State) : Host.Outcome State Fault Refusal := .next (s.spdm req 0xE1 1 fun t => t.spdmCapabilities req)

/-- NEGOTIATE_ALGORITHMS: ECDSA P-384 and SHA-384, where the request offers them. -/
def State.spdmAlgorithms (s : State) (req : List Byte) : State :=
  let asym := if (byteAt req 8).testBit 7 then 0x80 else 0
  let hash := if (byteAt req 12).testBit 1 then 0x02 else 0
  let spec := byteAt req 6 % 2
  let rsp := req.take 1 ++ [0x63, 0, 0] ++ leBytes 2 36 ++ leBytes 1 spec ++ [0] ++ leBytes 4 (4 * spec) ++ leBytes 4 asym ++ leBytes 4 hash ++ List.replicate 16 0
  (s.modPort fun p => { p with stage := if asym != 0 && hash != 0 then 3 else p.stage, vca := p.vca ++ req ++ rsp }).spdmSend rsp

def execNegotiateAlgorithms (req : List Byte) (s : State) : Host.Outcome State Fault Refusal :=
  .next (s.spdm req 0xE3 2 fun t => t.spdmAlgorithms req)

/-! ### Certificates -/

/-- A certificate chain as SPDM gives it: its length, the hash of the root certificate, the certificates. -/
def chainOf (certs : List Byte) : List Byte := leBytes 2 (52 + certs.length) ++ [0, 0] ++ digestBytes (Config.sha384 Config.rootCert) ++ certs

/-- Slot 0: the device identity chain; slot 1: with the alias certificate after it. -/
def State.certChain (s : State) (slot : Nat) : List Byte :=
  chainOf (Config.rootCert ++ Config.identityCerts ++ if slot = 0 then [] else Config.aliasCert s.devidSeed (s.measReg 1))

/-- GET_DIGESTS. -/
def State.spdmDigests (s : State) (req : List Byte) : State :=
  let rsp := req.take 1 ++ [0x01, 0, 0x03] ++ digestBytes (Config.sha384 (s.certChain 0)) ++ digestBytes (Config.sha384 (s.certChain 1))
  (s.modPort fun p => { p with certs := p.certs ++ req ++ rsp, meas := [] }).spdmSend rsp

def execGetDigests (req : List Byte) (s : State) : Host.Outcome State Fault Refusal := .next (s.spdm req 0x81 3 fun t => t.spdmDigests req)

/-- GET_CERTIFICATE: a portion by offset and length, in a message of at most 4,096 B. -/
def State.spdmCertificate (s : State) (req : List Byte) : State :=
  let slot := byteAt req 2 % 16
  let off := leAt req 4 2
  let chain := s.certChain slot
  if 1 < slot ∨ chain.length ≤ off then s.spdmError req 0x01 0
  else
    let part := slice chain off (min 4088 (leAt req 6 2))
    let rsp := req.take 1 ++ [0x02] ++ leBytes 1 slot ++ [0] ++ leBytes 2 part.length ++ leBytes 2 (chain.length - off - part.length) ++ part
    (s.modPort fun p => { p with certs := p.certs ++ req ++ rsp, meas := [] }).spdmSend rsp

def execGetCertificate (req : List Byte) (s : State) : Host.Outcome State Fault Refusal := .next (s.spdm req 0x82 3 fun t => t.spdmCertificate req)

/-! ### Measurements (Table 3.8) -/

/-- The DMTF value type of a measurement. -/
def measType (index : Nat) : Nat :=
  if index = 1 then 0 else if index = 9 then 2 else if index = 3 ∨ index = 5 ∨ index = 6 ∨ index = 10 then 3 else 1

/-- A measurement block: index 1 to 10 is register index − 1, as a digest. -/
def State.measBlock (s : State) (index : Nat) : List Byte :=
  leBytes 1 index ++ [0x01] ++ leBytes 2 51 ++ leBytes 1 (measType index) ++ leBytes 2 48 ++ digestBytes (s.measReg (index - 1))

def State.allBlocks (s : State) : List Byte := (List.range 10).flatMap fun i => s.measBlock (i + 1)

/-- The context a signature is made over: the prefix of version 1.2, then the hash of the transcript. -/
def signContext (version : Nat) (context : List Byte) (h : BitVec 384) : List Byte :=
  (if version = 0x12 then ((List.replicate 4 (ascii "dmtf-spdm-v1.2.*")).flatten ++ List.replicate (36 - context.length) 0 ++ context) else []) ++ digestBytes h

/-- n bytes the manual leaves open: a nonce. -/
def State.nonce : Nat → State → List Byte × State
  | 0, s => ([], s)
  | n + 1, s => let (w, s1) := s.free; let (b, s2) := State.nonce n s1; (leBytes 4 w.toNat ++ b, s2)

/-- CHALLENGE: CHALLENGE_AUTH signed by the alias key. -/
def State.spdmChallenge (s : State) (req : List Byte) : State :=
  let slot := byteAt req 2 % 16
  if 1 < slot then s.spdmError req 0x01 0
  else
    let (nonce, s1) := s.nonce 8
    let summary := if byteAt req 3 = 0 then [] else digestBytes (Config.sha384 s1.allBlocks)
    let body := req.take 1 ++ [0x03] ++ leBytes 1 slot ++ [0x03] ++ digestBytes (Config.sha384 (s1.certChain slot)) ++ nonce ++ summary ++ [0, 0]
    let h := Config.sha384 (s1.port.vca ++ s1.port.certs ++ req ++ body)
    let rsp := body ++ s1.signAlias (signContext (byteAt req 0) (ascii "responder-challenge_auth signing") h)
    (s1.modPort fun p => { p with certs := [], meas := [] }).spdmSend rsp

def execChallenge (req : List Byte) (s : State) : Host.Outcome State Fault Refusal := .next (s.spdm req 0x83 3 fun t => t.spdmChallenge req)

/-- GET_MEASUREMENTS: operation 0 the number of indices, 1 to 10 one of them, 0xFF all ten; signed by the alias key where asked for. -/
def State.spdmMeasurements (s : State) (req : List Byte) : State :=
  let op := byteAt req 3
  let wantsSig := (byteAt req 2).testBit 0
  let slot := if wantsSig then byteAt req 36 % 16 else 0
  if 1 < slot ∨ (10 < op ∧ op ≠ 0xFF) then s.spdmError req 0x01 0
  else
    let blocks := if op = 0 then [] else if op = 0xFF then s.allBlocks else s.measBlock op
    let count := if op = 0 then 0 else if op = 0xFF then 10 else 1
    let (nonce, s1) := s.nonce 8
    let body := req.take 1 ++ [0x60] ++ leBytes 1 (if op = 0 then 10 else 0) ++ leBytes 1 slot ++ leBytes 1 count ++ leBytes 3 blocks.length ++ blocks ++ nonce ++ [0, 0]
    let l := s1.port.meas ++ req ++ body
    if wantsSig then
      let h := Config.sha384 ((if byteAt req 0 = 0x12 then s1.port.vca else []) ++ l)
      (s1.modPort fun p => { p with meas := [] }).spdmSend (body ++ s1.signAlias (signContext (byteAt req 0) (ascii "responder-measurements signing") h))
    else (s1.modPort fun p => { p with meas := l }).spdmSend body

def execGetMeasurements (req : List Byte) (s : State) : Host.Outcome State Fault Refusal := .next (s.spdm req 0xE0 3 fun t => t.spdmMeasurements req)

/-- SPDM_UNSUPPORTED_REQUEST: ERROR UnsupportedRequest. -/
def execSpdmUnsupportedRequest (req : List Byte) (s : State) : Host.Outcome State Fault Refusal :=
  .next (if s.belfryRuns && !spdmCodes.contains (spdmCode req) then s.spdmError req 0x07 (spdmCode req) else s)

end Sys2Proof.Machine
end

