-- ==== Sys2Proof/Machine/Power.lean ====
section
/-!
DEFINITION. Machine/Power.lean: the power states (20): the commands that enter them, the steps of an entry and its abandonment, wakes,
exits, voltages and assists, the meters of PS1; and what a nanosecond without a command does.
-/
namespace Sys2Proof.Machine

/-! ### The write meter (R691, 10 R364, 21 R713) -/

/-- The rate the meter runs at: the least of those in force, 0 for none. -/
def State.meterRate (s : State) : Nat :=
  let cap := if s.rd Reg.PWR_STATUS_CAPPED = 1 then 80000 else 0
  let level := s.rd Reg.THM_THROTTLE_ENFORCED
  let heat := if level = 1 then 120000 else if level = 2 then 40000 else 0
  if cap = 0 then heat else if heat = 0 then cap else min cap heat

def State.showMeter (s : State) : State := if s.rd Reg.STR_ADM_METER_MBPS = s.meterRate then s else s.setMeter s.meterRate

/-- A change of the PS1 meters takes effect at its moment. -/
def State.capStep (s : State) : State :=
  match s.pwr.capDue with
  | some b => if s.pwr.capAt ≤ s.now then ((s.setCapped b).modPwr fun p => { p with capDue := none }).showMeter else s
  | none => s

/-- PS0 and PS1: at a moment the manual leaves open, within 1 ms of the completion. -/
def State.setPs (s : State) (c : Sqe) (ps : Nat) : State :=
  let (w, s1) := (s.succeed c).free
  ((s1.wr Reg.PWR_STATUS_PS ps).modPwr fun p => { p with capDue := some (ps == 1), capAt := s.now + w.toNat % 1000001 }).capStep

/-- What a Set Features 02h passes first: Save and WH must be clear (R689, 06 R216). -/
def psRefused (c : Sqe) : Option Status :=
  if c.cdw10.getLsbD 31 then some stNotSaveable else if dwBits c.cdw11 5 3 ≠ 0 ∨ 4 < dwBits c.cdw11 0 5 then some stInvalidField else none

def State.psCmd (s : State) (c : Sqe) (f : State → State) : State :=
  s.admin c .service fun t => match psRefused c with | some st => t.fail c st | none => f t

def execSetPsRun (c : Sqe) (s : State) : Host.Outcome State Fault Refusal := .next (s.psCmd c fun t => t.setPs c 0)

def execSetPsCapped (c : Sqe) (s : State) : Host.Outcome State Fault Refusal := .next (s.psCmd c fun t => t.setPs c 1)

/-! ### Entry (R690, R692) -/

/-- The cause that refuses an entry. -/
def State.entryRefused (s : State) : Option Nat :=
  if !s.openTakes.isEmpty then some 1
  else if s.rd Reg.FIT_STATUS_STATE ≠ 0 then some 2
  else if s.nvme.sanitize.action ≠ 0 ∨ !s.cph.ops.isEmpty ∨ s.slv.patch.isSome ∨ s.boot.commit.isSome then some 3
  else if s.pwrPhase = 1 then some 4
  else none

/-- An entry to a state (1 Doze to 4 Off) begins once its command has completed; Get Features then returns its power state. -/
def State.enterLow (s : State) (c : Sqe) (target ps : Nat) : State :=
  match s.entryRefused with
  | some k => (s.wr Reg.PWR_STATUS_REFUSE k).fail c stSequence
  | none =>
    let s1 := ((((s.succeed c).wr Reg.PWR_STATUS_TARGET target).wr Reg.PWR_STATUS_PHASE 1).wr Reg.PWR_STATUS_STEP 1).wr Reg.PWR_STATUS_PS ps
    let s2 := s1.modPwr fun p => { p with latched := 0, entryAt := s.now, fromPs := s.rd Reg.PWR_STATUS_PS, tail := none }
    { s2 with nvme := { s2.nvme with fetchStopped := true } }

def execEnterDoze (c : Sqe) (s : State) : Host.Outcome State Fault Refusal := .next (s.psCmd c fun t => t.enterLow c 1 2)

def execEnterSleep (c : Sqe) (s : State) : Host.Outcome State Fault Refusal := .next (s.psCmd c fun t => t.enterLow c 2 3)

def execEnterDeepSleep (c : Sqe) (s : State) : Host.Outcome State Fault Refusal := .next (s.psCmd c fun t => t.enterLow c 3 4)

/-- Power Off: a vendor command, with no data, not abortable. -/
def execPowerOff (c : Sqe) (s : State) : Host.Outcome State Fault Refusal :=
  .next (s.admin c .vendor fun t => (t.noAbort c).enterLow c 4 (t.rd Reg.PWR_STATUS_PS))

/-! ### Voltages and assists (R696) -/

/-- Doze, Sleep and Deep Sleep: the assists first, then the voltage. -/
def State.vcoreLow (s : State) (target : Nat) : State :=
  if target = 1 then (s.setAssists 2 2 0).setVcore (max 660 (up5 s.vcoreMin))
  else (s.setAssists 0 0 1).setVcore (max 620 (up5 s.vcoreMin))

/-! ### The steps of an entry (Table 20.3, R694) -/

def State.pwrTarget (s : State) : Nat := s.rd Reg.PWR_STATUS_TARGET
def State.pwrStep (s : State) : Nat := s.rd Reg.PWR_STATUS_STEP
def State.setPwrStep (s : State) (k : Nat) : State := s.wr Reg.PWR_STATUS_STEP k

/-- An outstanding write that only waits for a chunk the gate does not grant now. -/
def State.gateHeld (s : State) (o : Out) : Bool :=
  s.path.writes.any fun w => w.src == o.ctrl && w.sqe.sq == o.sq && w.sqe.cid == o.cid && !w.ended &&
    decide (w.granted < 4096 * w.lsas.length) && 4096 * w.places.length == w.granted

/-- Step 1 is done: outstanding commands have completed, but for event requests and writes the gate holds. -/
def State.entryIdle (s : State) : Bool :=
  !s.flushBusy && s.path.reads.isEmpty && s.path.trims.isEmpty &&
    s.nvme.outs.all fun o => (o.sq == 0 && (s.ctrl o.ctrl).aers.contains o.cid) || s.gateHeld o

/-- Step 2: open stripes closed with fill, seal stripes until the pending queue is empty, the TAIL page; the flag says that all of it is durable. -/
def State.entryDrain (s : State) : State × Bool :=
  let s1 := (s.ftl.stripes.filter fun st => st.state == 0 && st.next != 0).foldl (fun t st => t.closeStripe st.id 0) s
  if s1.ftl.stripes.any fun st => st.state == 1 then (s1, false)
  else if !s1.ftl.pendingQ.isEmpty then (s1.sealAll (s1.ftl.pendingQ.length + 1), false)
  else match s1.pwr.tail with
    | none =>
      let s2 := s1.writePage true
      (s2.modPwr fun p => { p with tail := some s2.ftl.jseq }, false)
    | some _ => (s1, s1.ftl.pages.all fun j => 3 ≤ j.copies.length)

/-- Step 3: idle links park; for Doze only with DOZE_PARK. The flag says that none is left active. -/
def State.entryPark (s : State) : State × Bool :=
  if s.pwrTarget = 1 ∧ s.force Reg.PWR_CFG_DOZE_PARK = 0 then (s, true)
  else
    let s1 := (List.range 512).foldl State.parkLink s
    (s1, (List.range 512).all fun n => s1.jlState n != 5 && s1.jlState n != 6)

/-- Parked links are unparked. -/
def State.unparkAll (s : State) : State := (List.range 512).foldl State.leavePark s

/-- The DRAM channels in a state enter another; those that enter self-refresh drain their queues first (17 R624). -/
def State.dramMove (s : State) (old new : Nat) : State :=
  s.chans.foldl (fun t ch => if t.rd (Reg.DRC_STATUS_STATE ch) = old then (if new = 1 then t else t.drainQueues ch).setDrState ch new else t) s

/-- The links are powered down. -/
def State.linksOff (s : State) : State :=
  (List.range 512).foldl (fun t n => if t.jlState n = 0 ∨ t.jlState n = 10 then t else (((t.clearLink n).setJl n 0).wr (Reg.JL_STATE_RATE n) 3)) s

/-- Step 4 begins. -/
def State.gateBegin (s : State) : State :=
  let s1 := s.setPwrStep 4
  match s.pwrTarget with
  | 1 => s1.vcoreLow 1
  | 2 => (s1.dramMove 1 3).vcoreLow 2
  | 3 => ((((List.range 4).foldl State.loopOff s1).linksOff).dramMove 1 4).vcoreLow 3
  | _ => s1.modBoard fun b => { b with downStage := 5 }

/-- Doze or Sleep is abandoned at an abort point: as if the command had not been issued. -/
def State.abandonEntry (s : State) (point : Nat) : State :=
  let s1 := s.noteWake s.pwr.latched s.pwrTarget point s.pwr.latchTime
  let s2 := (((s1.wr Reg.PWR_STATUS_PHASE 0).wr Reg.PWR_STATUS_TARGET 0).setPwrStep 0).wr Reg.PWR_STATUS_PS s.pwr.fromPs
  let s3 := s2.modPwr fun p => { p with latched := 0, tail := none }
  ((({ s3 with nvme := { s3.nvme with fetchStopped := false } } : State).unparkAll).bump Reg.PWR_COUNT_ABANDONED).raise 1753

/-- At an abort point: abandonment of Doze or Sleep where a wake is latched, else the next step. -/
def State.abortPoint (s : State) (k : Nat) (next : State → State) : State :=
  if s.pwrTarget ≤ 2 ∧ s.pwr.latched ≠ 0 then s.abandonEntry k else next s

/-- Step 2 begins: maintenance pauses, and for Deep Sleep and Off a learning discharge is aborted. -/
def State.drainBegin (s : State) : State :=
  let s1 := (s.setPwrStep 2).maintStop fun _ => true
  if 3 ≤ s.pwrTarget then s1.learnAbort false else s1

/-- An entry goes on, as far as it can. -/
def State.entryStep : Nat → State → State
  | 0, s => s
  | fuel + 1, s =>
    if s.pwrPhase ≠ 1 then s
    else match s.pwrStep with
      | 1 => if s.entryIdle then State.entryStep fuel (s.abortPoint 1 State.drainBegin) else s
      | 2 =>
        let (t, done) := s.entryDrain
        if done then State.entryStep fuel (t.abortPoint 2 fun u => u.setPwrStep 3) else t
      | 3 =>
        let (t, done) := s.entryPark
        if done then t.abortPoint 3 State.gateBegin else t
      | _ => s

/-- ENTRY_DRAIN_DONE. -/
def execEntryDrainDone (s : State) : Host.Outcome State Fault Refusal := .next ((s.entryStep 3).settleDma)

/-! ### The target state is reached -/

/-- The counters record goes to the older copy (22 R747). -/
def State.writeCounters (s : State) : State :=
  let seqOf (c : Option CtrCopy) : Nat := match c with | some x => x.seq | none => 0
  let a := seqOf s.life.copyA
  let b := seqOf s.life.copyB
  let rec' : CtrCopy := ⟨max a b + 1, s.life.counters, s.life.hist, s.activityPositions⟩
  s.modLife fun l => if a ≤ b then { l with copyA := some rec' } else { l with copyB := some rec' }

/-- Off is left for a start-up with the scope of an aux reset (R700), for a wake at a Steeple time. -/
def State.offWake (s : State) (time : Nat) : State := (s.auxReset).noteWake 2 4 0 time

/-- Off: the Belfry writes the counters and the Off record and halts; the wake logic holds PWR_KILL_N. -/
def State.offReached (s : State) : State :=
  let s1 := ((s.record 0x0E 0 []).writeCounters).rails0
  let s2 := ((s1.wr Reg.PWR_STATUS_STATE 4).wr Reg.PWR_STATUS_TARGET 4).modPwr fun p => { p with steadyAt := s.now }
  if s.pwr.latched ≠ 0 then s2.offWake s.pwr.latchTime else s2

/-- Doze, Sleep or Deep Sleep; the exit begins at once for a latched wake. -/
def State.lowReached (s : State) (target : Nat) : State :=
  let s1 := (((s.wr Reg.PWR_STATUS_STATE target).wr Reg.PWR_STATUS_PHASE 0).setPwrStep 0).wr Reg.PWR_ENTRY_US_US ((s.now - s.pwr.entryAt) / 1000)
  let s2 := ((s1.bump Reg.PWR_COUNT_ENTRIES).modPwr fun p => { p with steadyAt := s.now, timerDone := false, tail := none }).raise 1752
  if s.pwr.latched ≠ 0 then s2.beginExit s.pwr.latched s.pwr.latchTime else s2

/-- ENTRY_GATING_DONE: step 4 ends; for Off once the last stage of rails is down. -/
def State.gatingDone (s : State) : State :=
  if s.pwrPhase ≠ 1 ∨ s.pwrStep ≠ 4 then s
  else if s.pwrTarget = 4 then (if s.board.downStage = 0 then s.offReached else s)
  else s.lowReached s.pwrTarget

def execEntryGatingDone (s : State) : Host.Outcome State Fault Refusal := .next s.gatingDone

/-- POWER_DOWN_STAGE (02 R68): the rails of the stage coming down are below 10 % of their set-points, and the next one, in reverse order, starts down:
on the way to Off, or after a rail failure (R66), whose second leaves PWR_KILL_N asserted. -/
def State.stageDown (s : State) : State :=
  let b := s.board
  let off := s.pwrPhase == 1 && s.pwrStep == 4 && s.pwrTarget == 4
  let failed := s.phase == 3 && !b.mainRunning
  if b.downStage = 0 ∨ !(off || failed) then s
  else s.modBoard fun x => { x with
    downStage := x.downStage - 1
    railStage := x.downStage - 1
    vcore := if x.downStage ≤ 3 then 0 else x.vcore
    pwrKill := x.pwrKill || (failed && x.downStage == 1 && x.railFault.isSome) }

def execPowerDownStage (s : State) : Host.Outcome State Fault Refusal := .next s.stageDown

/-! ### Wakes (R695) -/

/-- WAKE_N_LOW: low for 1 µs. A restart after a trip takes it as its acknowledgement (21 R721). -/
def State.wakeLow (s : State) : State :=
  let s1 := if s.thm.waiting || s.thm.trip.isSome then s.modThm fun t => { t with acked := true } else s
  if !s.board.vaux then s1
  else if s.pwrState = 4 then s1.offWake s.steepleTime
  else s1.wake 1

def execWakeNLow (s : State) : Host.Outcome State Fault Refusal := .next s.wakeLow

/-- MGMT_MESSAGE_WAKE: an NVMe-MI Admin Command message. -/
def execMgmtMessageWake (s : State) : Host.Outcome State Fault Refusal := .next (if s.board.mainRunning then s.wake 4 else s)

/-- OFF_MGMT_TRANSACTION: the Belfry starts alone. -/
def execOffMgmtTransaction (s : State) : Host.Outcome State Fault Refusal :=
  .next (if s.board.vaux && s.pwrState == 4 then s.modPwr fun p => { p with offMgmt := some s.now } else s)

/-- OFF_BELFRY_HALT: 10 s after the last management message. -/
def State.offHalt (s : State) : State :=
  match s.pwr.offMgmt with
  | some t => if t + 10000000000 ≤ s.now then s.modPwr fun p => { p with offMgmt := none } else s
  | none => s

def execOffBelfryHalt (s : State) : Host.Outcome State Fault Refusal := .next s.offHalt

/-- WAKE_TIMER_EXPIRY: WAKE_TIMER_S seconds, within 10 ms, after step 4 ended, once; during an entry the timer does not run. -/
def State.wakeTimer (s : State) : State :=
  let t := s.force Reg.PWR_WAKE_TIMER_S
  let low := s.pwrPhase == 0 && 1 ≤ s.pwrState && s.pwrState ≤ 3
  if low && t != 0 && !s.pwr.timerDone && s.pwr.steadyAt + t * 1000000000 ≤ s.now + 10000000 then
    (s.modPwr fun p => { p with timerDone := true }).wake 6
  else s

def execWakeTimerExpiry (s : State) : Host.Outcome State Fault Refusal := .next s.wakeTimer

/-! ### Exits (R697, R700) -/

/-- A register Deep Sleep keeps (Table 20.6): committed RWF values; routes, masks and status of events; the DRAM's training and remap; each link's presets,
ceiling and stripe state; firmware's own; the estimator's strings; and the blocks that run on. -/
def keptDeep (off : Nat) : Bool :=
  auxReg off || isRwf off || decide (0x02000000 ≤ off) || (0x00100000 ≤ off && off < 0x00102000) || (0x00200000 ≤ off && off < 0x00300000) ||
  (0x01480000 ≤ off && off < 0x01490000) || (Reg.STR_LINK 0 ≤ off && off < Reg.STR_LINK 512) || off == Reg.MNT_STATUS ||
  (Reg.MNT_STR_VI 0 ≤ off && off < Reg.MNT_STR_VI 4) || off == Reg.GBL_FW_VERSION ||
  (0x01000000 ≤ off && off < 0x01200000 && [Reg.JL_STATE 0, Reg.JL_EQ 0, Reg.JL_BRIDGE_STATUS 0].contains (0x01000000 + off % 0x1000))

/-- The Sleeves reload their control stores: the base image, then the patches in force. -/
def State.reloadSleeves (s : State) (before : State) : State :=
  before.slv.sleeves.foldl (fun t e =>
    let x := e.2
    let t1 := t.setSleeve e.1 { Sleeve.empty with store := loadImages x.images, entries := x.entries, faultEntry := x.faultEntry, images := x.images }
    let last := match x.images.getLast? with | some m => m.version | none => 0
    let base := match x.images.head? with | some m => m.version | none => 0
    (((t1.wr (Reg.SLV_VERSION_VERSION e.1) last).wr (Reg.SLV_BASE_VERSION_VERSION e.1) base).wr (Reg.SLV_STATUS_BYPASSED e.1)
      (before.rd (Reg.SLV_STATUS_BYPASSED e.1))).showLive e.1) s

/-- The estimator resumes from what it has learned, takes SoC again and treats CHEM 1 and 2 strings as UNRESTED (19 R682); slots restart. -/
def State.mantleResume (s : State) (codes : List (Nat × Nat × Nat)) : State :=
  let s1 := s.strings.foldl (fun t k =>
    let x := t.str k
    let t1 := t.setStr k { t.strStart k with q := x.q, rt := x.rt, disch := x.disch, rejects := x.rejects, learnt := x.learnt }
    ((t1.gpio (4 + k) false).connect k (!t.strFaulted k)).setMaskBit Reg.MNT_STATUS_UNRESTED k (t.chem k != 0)) (s.wr Reg.MNT_STATUS_CHG_PHASE 0)
  let s2 := s1.strings.foldl (fun t k => match codes[k]? with | some c => (t.sampleTemp k c.2.2).sampleStr k c.1 c.2.1 | none => t) s1
  (s2.startSlots.energyCompute).governorTick

/-- Links train from DETECT, in the window of start-up; their dies stay in service unless the bridge reports otherwise (15 R564). -/
def State.linksUp (s : State) : State :=
  (List.range 512).foldl (fun t n => if populated t.image.cfg n && t.jlState n != 10 then t.toDetect n (s.now + 200000000) true else t) s

/-- The exit from Deep Sleep (Table 20.7): what is not kept is at its reset value; stores, keys, lanes, links, slots and Steeple start again. -/
def State.deepExit (s0 : State) (failed : List (Fin 16)) (codes : List (Nat × Nat × Nat)) : State :=
  let s := s0.rebase
  let s1 : State := { s with
    regs := s.regs.filter fun (e : Nat × Word) => keptDeep e.1
    latches := s.latches.filter fun (e : Nat × Word) => inBelfryWindow (e.1 / 8)
    win := { Window.init with waiting := s.win.waiting, chunkSeq := s.win.chunkSeq, ceiling := s.win.ceiling, grants := s.win.grants, occ := s.win.occ }
    cph := { Cph.init with recs := s.cph.recs, half := s.cph.half, epoch := s.cph.epoch, used := s.cph.used }
    slv := { s.slv with sleeves := [] }
    links := s.links.map fun (e : Nat × Lnk) => (e.1, { Lnk.init with identity := e.2.identity, enumPending := e.2.enumPending })
    dram := { s.dram with lines := [], copies := [] }
    mnt := { s.mnt with loops := [], learn := none, lossOcc := 0, codes := [] }
    stp := { Stp.init with base := s.stp.base, baseAt := s.stp.baseAt, established := s.stp.established, bcast := s.stp.bcast, acquireAt := s.now } }
  let s2 := ((s1.reloadSleeves s).dramMove 4 1).linksUp
  let s3 := (List.range 16).foldl (fun t l => t.laneKat l (!failed.any fun f => f.val == l)) s2
  (((s3.resolveKeys).newLoadKey).adoptRole).mantleResume codes

/-- The exit from Doze or Sleep: links unparked, DRAM out of self-refresh. -/
def State.lightExit (s : State) : State := ((s.dramMove 3 1).unparkAll).modWin fun w => { w with limitReady := false }

/-- EXIT_COMPLETE: Run is reached; fetching resumes, in the power state in force before the command (PRESUMED, NVMe Base 2.0). Doorbells written in Deep
Sleep are applied, port resets that waited follow. `failed` are the lanes whose known-answer test failed, `codes` the strings' first samples, both for Deep
Sleep. -/
def State.exitDone (s : State) (failed : List (Fin 16)) (codes : List (Nat × Nat × Nat)) : State :=
  if s.pwrPhase ≠ 2 then s
  else
    let s1 := if s.pwrState = 3 then s.deepExit failed codes else s.lightExit
    let s2 := (((s1.wr Reg.PWR_STATUS_STATE 0).wr Reg.PWR_STATUS_TARGET 0).wr Reg.PWR_STATUS_PHASE 0).wr Reg.PWR_STATUS_PS s.pwr.fromPs
    let s3 := (s2.wr Reg.PWR_EXIT_US_US ((s.now - s.pwr.exitAt) / 1000)).vcoreRun.showMeter
    let s4 := (({ s3 with nvme := { s3.nvme with fetchStopped := false } } : State).modPwr fun p => { p with doorbells := [], portResets := [] }).raise 1752
    let s5 := s.pwr.doorbells.foldl (fun t d => t.sqDoorbell d.1 d.2.1 d.2.2) s4
    s.pwr.portResets.foldl State.portReset s5

def execExitComplete (failedLanes : List (Fin 16)) (codes : List (Nat × Nat × Nat)) (s : State) : Host.Outcome State Fault Refusal :=
  .next (s.exitDone failedLanes codes).settleDma

end Sys2Proof.Machine
end

