-- ==== Sys2Proof/Machine/Thermal.lean ====
section
/-!
DEFINITION. Machine/Thermal.lean: the thermal monitor (21): sensor results and faults, thermal states, the throttle request and its
enforcement, host-controlled thermal management, TRIP and HARD, the restart after a trip, fans. Temperatures are in 1/16 °C.
-/
namespace Sys2Proof.Machine

/-- The result the monitor takes for the junction, as the register shows it. -/
def State.junction (s : State) : Int := s.rdSigned Reg.THM_TEMP_TEMP

/-- The composite temperature of a result, in kelvin (06 R222). -/
def kelvin (v : Int) : Int := v / 16 + 273

/-! ### The hottest bridge -/

/-- Links whose bridge has reported a temperature. -/
def State.reported (s : State) : List Nat := (List.range 512).filter fun n => s.rd (Reg.JL_BRIDGE_TEMP_TEMP n) != 0x8000

/-- The hottest bridge: its temperature and link. -/
def State.hotBridge (s : State) : Option (Int × Nat) :=
  (s.reported.map fun n => (s.rdSigned (Reg.JL_BRIDGE_TEMP_TEMP n), n)).foldl (fun (best : Option (Int × Nat)) x =>
    match best with | some b => if b.1 < x.1 then some x else best | none => some x) none

/-! ### The throttle (R711 to R715) -/

/-- The level enforced changes: source 1,748 where it begins or rises. -/
def State.setEnforced (s : State) (level : Nat) : State :=
  let old := s.rd Reg.THM_THROTTLE_ENFORCED
  if level = old then s
  else
    let s1 := s.wr Reg.THM_THROTTLE_ENFORCED level
    let s2 := s1.raiseIf (decide (old < level)) 1748
    let s3 := if old = 0 then (s2.bump Reg.THM_COUNT_ENFORCED).modThm fun t => { t with enfAt := some s.now }
      else if level = 0 then s2.modThm fun t => { t with enfAt := none, enfNs := t.enfNs + (match t.enfAt with | some x => s.now - x | none => 0) }
      else s2
    s3.showMeter

/-- The level TMT1 and TMT2 set. -/
def Thm.hctm (t : Thm) : Nat := if t.tmt2 then 2 else if t.tmt1 then 1 else 0

/-- The throttle request of the states in force. -/
def Thm.request (t : Thm) : Nat := maxOf [if t.enf || t.riseE then 2 else if t.warn || t.riseW then 1 else 0, t.hctm]

/-- THM_STATUS of the states in force. -/
def State.showStates (s : State) : State :=
  let st := s.rd Reg.THM_STATUS_STATE
  let t := s.thm
  let s1 := if 3 ≤ st then s else s.wr Reg.THM_STATUS_STATE (if t.enf then 2 else if t.warn then 1 else 0)
  let s2 := s1.wr Reg.THM_STATUS_RISE (if t.riseE then 2 else if t.riseW then 1 else 0)
  s2.wr Reg.THM_STATUS_TERM (bit s2.thermalOn)

/-- The request and what follows it: a rise begins a grace interval, a fall lowers enforcement at once, a level of TMT1 or TMT2 is enforced at once. -/
def State.throttle (s : State) : State :=
  let req := s.thm.request
  let old := s.rd Reg.THM_THROTTLE_REQUEST
  let h := s.thm.hctm
  let s1 := (s.wr Reg.THM_THROTTLE_REQUEST req).wr Reg.THM_THROTTLE_HCTM h
  let s2 := if old < req then (s1.raise 1748).modThm fun t => { t with grace := some (s.now + s.force Reg.THM_GRACE_MS * 1000000, req) } else s1
  let s3 := if old = 0 ∧ 0 < req then s2.smartAen 1 1 else s2
  s3.setEnforced (max (min req (s.rd Reg.THM_THROTTLE_ENFORCED)) h)

/-- GRACE_EXPIRY: the lesser of the level that began the interval and the request now. -/
def State.graceEnd (s : State) : State :=
  match s.thm.grace with
  | some (t, level) =>
    if t ≤ s.now then
      let s1 := s.modThm fun x => { x with grace := none }
      s1.setEnforced (max (s.rd Reg.THM_THROTTLE_ENFORCED) (min level (s.rd Reg.THM_THROTTLE_REQUEST)))
    else s
  | none => s

def execGraceExpiry (s : State) : Host.Outcome State Fault Refusal := .next (if s.board.mainRunning then s.graceEnd else s)

/-! ### TRIP and HARD (R717 to R720) -/


/-- The trips of the last hour. -/
def State.tripsHour (s : State) : List Nat := s.thm.tripTimes.filter fun t => s.now < t + 3600000000000

/-- TRIP: the record begins, THERM_TRIP_N falls; in Run the cool flush; in a low power state, or while the rails come up (DEDUCED, log entry 56),
PWR_KILL_N. -/
def State.trip (s : State) (v : Int) : State :=
  let cool := if s.inRun then s.coolSet else []
  let hot := s.hotBridge.getD (-32768, 0)
  let seq := (match s.life.trips with | r :: _ => r.seq | [] => 0) + 1
  let r : TripRec := ⟨1, s.thm.fault, seq, s.steepleTime, toCode 16 v, toCode 16 v, s.rd Reg.THM_RATE_RATE, hot.2, toCode 16 hot.1, cool.length, 2, 0, s.win.occ / mib, 0⟩
  let times := s.now :: s.tripsHour
  let s1 := s.modThm fun t =>
    { t with
      trip := some r, tripAt := s.now, killed := false, waiting := true, acked := false, selfTest := none, grace := none, tripTimes := times,
      ackDue := s.force Reg.THM_POLICY_RESTART == 1 || 3 ≤ times.length }
  let s2a := (s1.modBoard fun b => { b with thermTrip := true }).tally 0x88 1
  let s2 := if s.board.mainRunning then (s2a.wr Reg.THM_STATUS_STATE 3).wr Reg.THM_STATUS_TERM 1 else s2a
  let s3 := (List.range 2).foldl (fun t k => if t.loopState (k + 2) = 2 then t.applyDuty (k + 2) ((List.range 2).map fun o => if o < t.plantN (k + 2) 3 1 && !t.loopForced (k + 2) then (t.dutyLim (k + 2)).2 else 0) else t) s2
  if !s.board.mainRunning then s3.kill 2
  else if !s.inRun then (s3.record 0x0F 1 [s.pwrState, 2]).kill 2
  else s3.beginFlush ⟨2, 0, false, none, cool, 0, false⟩ 2

/-- HARD: PWR_KILL_N at once; FLUSH is 2 in the result that reached TRIP, 3 during a flush. -/
def State.hard (s : State) (same : Bool) : State :=
  let s1 := (s.modThm fun t => { t with trip := t.trip.map fun (r : TripRec) => { r with kind := 2 } }).tally 0x8C 1
  if s1.board.mainRunning then (s1.wr Reg.THM_STATUS_STATE 4).kill (if same then 2 else 3)
  else if s1.board.railStage ≠ 0 then s1.kill 2
  else s1

/-- The thresholds of TRIP and HARD for a result. -/
def State.tripCheck (s : State) (v : Int) : State :=
  let new := (s.board.mainRunning || s.board.railStage != 0) && s.thm.trip.isNone && 1840 ≤ v
  let s1 := if new then s.trip v else s
  let s2 := s1.modThm fun t => { t with trip := t.trip.map fun (r : TripRec) => { r with peak := toCode 16 (max v (signed 16 r.peak)) } }
  match s2.thm.trip with
  | some r => if 2000 ≤ v ∧ r.kind = 1 then s2.hard new else s2
  | none => s2

/-! ### Sensor results (R705 to R710, R715, R716) -/

/-- The fault of a result: `volt` says that the diode's voltage was out of its range (1 too high, 2 too low). -/
def Thm.faultOf (t : Thm) (volt run : Nat) (temp : Int) : Nat :=
  if t.fault ≠ 0 then t.fault
  else if volt = 1 then 1 else if volt = 2 then 2 else if 31250 ≤ run then 3 else if temp < -640 ∨ 2400 < temp then 4 else 0

/-- A threshold with its hysteresis of 3 °C; none of it where the threshold is newly adopted. -/
def heldAt (fresh was : Bool) (v limit : Int) : Bool := if was && !fresh then decide (limit - 48 ≤ v) else decide (limit ≤ v)

/-- The same in whole kelvin, for TMT1 and TMT2; 0 disables. -/
def heldKelvin (was : Bool) (k : Int) (limit : Nat) : Bool := limit != 0 && (if was then decide ((limit : Int) - 3 ≤ k) else decide ((limit : Int) ≤ k))

/-- Histogram 4 recomputed, once a day: blocks by their erase counts (22 Table 22.10). -/
def State.countWear (s : State) : State :=
  let due := match s.life.wearAt with | some t => decide (t + 86400000000000 ≤ s.now) | none => true
  if !due || !s.board.mainRunning then s
  else s.modLife fun l => { l with
    wearAt := some s.now
    hist := (List.range 32).foldl (fun h b => mapSet (fun _ => 0) h (128 + b) (s.ftl.blocks.filter fun e => min 31 (e.2.erases / 256) == b).length) l.hist }

/-- Seconds and minutes counted in the lifetime log since they last were (22 Tables 22.9, 22.10). -/
def State.countTime (s : State) (v : Int) : State :=
  let sec := (s.now - s.life.secAt) / 1000000000
  let s1 := if sec = 0 then s
    else ((((s.modLife fun l => { l with secAt := l.secAt + 1000000000 * sec }).tally 0x10 sec).tally 0x08 (if s.board.mainRunning then sec else 0)).tally 0x90
      (if s.board.mainRunning && s.degraded then sec else 0))
  let bin (t : Int) : Nat := ((t / 16 + 20) / 5).toNat
  if s.now < s1.life.minAt + 60000000000 then s1
  else
    let s2 := (s1.countWear.modLife fun l => { l with minAt := l.minAt + 60000000000, occPeak := s.win.occ }).histAdd 0 (bin v)
    if !s.board.mainRunning then s2
    else
      let s3 := match s.hotBridge with | some h => s2.histAdd 1 (bin h.1) | none => s2
      let s4 := if s.limitMib = 0 then s3 else s3.histAdd 5 (s.life.occPeak * 32 / (s.limitMib * mib))
      s4.histAdd 6 (s.rd Reg.STR_DW_T_ENERGY_MIB / 4096)

/-- What a result changes in the main domain: the registers, the states, the throttle, the times SMART reports, the thresholds of feature 04h. -/
def State.resultMain (s : State) (v : Int) (dt : Nat) : State :=
  let t := s.thm
  let s1 := s.wr Reg.THM_TEMP_TEMP (toCode 16 v)
  let s2 := if s.rd Reg.THM_TEMP_PEAK = 0x8000 ∨ s.rdSigned Reg.THM_TEMP_PEAK < v then s1.wr Reg.THM_TEMP_PEAK (toCode 16 v) else s1
  let s3 := (((s2.wr Reg.THM_SENSOR_RAW t.raw).wr Reg.THM_SENSOR_FAULT t.fault).wr Reg.THM_STATUS_SENSOR_FAULT (bit (t.fault != 0))).raiseIf
    (t.fault != 0 && s.rd Reg.THM_SENSOR_FAULT == 0) 1749
  let k := kelvin v
  let warn := heldAt t.fresh t.warn v (16 * s.force Reg.THM_WARN_C_C)
  let enf := heldAt t.fresh t.enf v (16 * s.force Reg.THM_ENFORCE_C_C)
  let tmt1 := heldKelvin t.tmt1 k (s.rd Reg.THM_HCTM_TMT1)
  let tmt2 := heldKelvin t.tmt2 k (s.rd Reg.THM_HCTM_TMT2)
  let s4 := s3.modThm fun x =>
    { x with
      recent := (v :: x.recent).take 15875, warn := warn, enf := enf, tmt1 := tmt1, tmt2 := tmt2, fresh := false,
      warnNs := if ((s.force Reg.THM_WARN_C_C + 273 : Nat) : Int) ≤ k then x.warnNs + dt else x.warnNs,
      critNs := if 388 ≤ k then x.critNs + dt else x.critNs,
      -- entries into, and time in, enforcement set by TMT1 and by TMT2 (R716)
      tmt1N := if tmt1 && !t.tmt1 then x.tmt1N + 1 else x.tmt1N,
      tmt2N := if tmt2 && !t.tmt2 then x.tmt2N + 1 else x.tmt2N,
      tmt1Ns := if t.tmt1 then x.tmt1Ns + dt else x.tmt1Ns,
      tmt2Ns := if t.tmt2 then x.tmt2Ns + dt else x.tmt2Ns }
  let s5 := if warn && !t.warn then s4.bump Reg.THM_COUNT_WARN else s4
  let s6 := (s5.raiseIf (warn != t.warn) 1744).raiseIf (enf != t.enf) 1745
  let over' := match s.nvme.tempOver with | some x => decide ((x : Int) ≤ k) | none => false
  let under := s.nvme.tempUnder != 0 && decide (k ≤ s.nvme.tempUnder)
  let s7 : State := { s6 with nvme := { s6.nvme with tempOverIn := over', tempUnderIn := under } }
  let s8 := if (over' && !s.nvme.tempOverIn) || (under && !s.nvme.tempUnderIn) then s7.smartAen 1 1 else s7
  s8.showStates.throttle

/-- A fitting of class THERMAL is adopted at the next result (05 R161): its thresholds are compared afresh. -/
def State.adoptThermal (s : State) : State := if s.fitPending 6 then (s.fitAdoptClass 6).modThm fun t => { t with fresh := true } else s

/-- THM_SENSOR_RESULT: every 64 µs in every state but Off: the raw code, the result, and whether the diode's voltage was in range. A fault makes
every result 115.0 °C until a self-test passes. -/
def State.sensorResult (s : State) (raw : Nat) (temp : Int) (volt : Nat) : State :=
  if !s.board.vaux || s.pwrState == 4 then s
  else
    let run := if s.thm.rawRun ≠ 0 ∧ s.thm.raw = raw then s.thm.rawRun + 1 else 1
    let fault := s.thm.faultOf volt run temp
    let v : Int := if fault ≠ 0 then 1840 else temp
    let dt := s.now - s.thm.lastAt
    let s1 := s.modThm fun t =>
      { t with raw := raw, rawRun := run, fault := fault, lastAt := s.now, last := some v, below := if v < 1360 then some (t.below.getD s.now) else none }
    let s2 := s1.countTime v
    let s2a := s2.modMaint fun m => { m with avsSince := if s.pwrState = 0 && s.mainUp && decide (960 ≤ v ∧ v ≤ 1120) then some (m.avsSince.getD s.now) else none }
    let s3 := if s2a.board.mainRunning then s2a.adoptThermal.resultMain v dt else s2a
    s3.tripCheck v

def execThmSensorResult (raw : Fin 1048576) (temp : Int) (volt : Fin 3) (s : State) : Host.Outcome State Fault Refusal :=
  .next (s.sensorResult raw.val temp volt.val).settleDma

/-- THM_RATE_TICK: the rate of rise in 1/250 of 1/16 °C/s, once 1.016 s of results are there. -/
def State.rateTick (s : State) : State :=
  let l := s.thm.recent
  if l.length < 15875 then s
  else
    let d := (l.take 250).sum - ((l.drop 15625).take 250).sum
    let at' (c : Int) : Int := c * 16 * 250
    let t := s.thm
    let e := if t.riseE then decide (at' 3 < d) else decide (at' 5 < d)
    let w := if t.riseW then decide (at' 1 < d) else decide (at' 2 < d)
    let s1 := (s.wr Reg.THM_RATE_RATE (toCode 16 (max (-32768) (min 32767 (d / 250))))).modThm fun x => { x with riseE := e, riseW := w }
    let s2 := if w && !t.riseW then s1.bump Reg.THM_COUNT_WARN else s1
    ((s2.raiseIf (w != t.riseW) 1746).raiseIf (e != t.riseE) 1747).showStates.throttle

def execThmRateTick (s : State) : Host.Outcome State Fault Refusal := .next (if s.board.mainRunning then s.rateTick else s)

/-! ### After a trip (R720, R721) -/

/-- TRIP_RECORD_WRITE: the main rails are off. -/
def State.tripWrite (s : State) : State :=
  match s.thm.trip with
  | some r =>
    if s.thm.killed && s.belfryRuns then
      ((s.modLife fun l => { l with trips := (r :: l.trips).take 64 }.changed).wr Reg.BEL_TRIP_STATUS_KIND r.kind).modThm fun t => { t with trip := none, killed := false }
    else s
  | none => s

def execTripRecordWrite (s : State) : Host.Outcome State Fault Refusal := .next s.tripWrite

/-- SENSOR_SELF_TEST: every 10 s after a trip until it passes; a pass ends a sensor fault. -/
def State.selfTest (s : State) (pass : Bool) : State :=
  let t := s.thm
  if !s.belfryRuns || !t.waiting || s.board.mainRunning || t.selfTest == some true || (t.selfTest.isSome && s.now < t.selfAt + 10000000000) then s
  else s.modThm fun x => { x with selfTest := some pass, selfAt := s.now, fault := if pass then 0 else x.fault, rawRun := if pass then 0 else x.rawRun }

def execSensorSelfTest (pass : Bool) (s : State) : Host.Outcome State Fault Refusal := .next (s.selfTest pass)

/-- The junction has been below 85 °C for 10 s. -/
def State.cooled (s : State) : Bool := match s.thm.below with | some t => t + 10000000000 ≤ s.now | none => false

/-- TRIP_RESTART: from phase IMAGE. -/
def State.tripRestart (s : State) : State :=
  let t := s.thm
  if s.belfryRuns && t.waiting && t.trip.isNone && !s.board.mainRunning && s.cooled && t.selfTest == some true && (!t.ackDue || t.acked) then
    ((s.modThm fun x => { x with waiting := false, acked := false, ackDue := false }).modBoard fun b =>
      { b with thermTrip := false, railRetried := false, railFault := none, railsAbandoned := false }).setPhase 2
  else s

def execTripRestart (s : State) : Host.Outcome State Fault Refusal := .next s.tripRestart

/-- TRIP_ACK, opcode 0x19: kept when it comes early; refused where no trip is pending. -/
def State.tripAck (s : State) : State × MbAns := if s.thm.waiting then (s.modThm fun t => { t with acked := true }, mbOk) else (s, mbState)

def execTripAck (r : MbReq) (s : State) : Host.Outcome State Fault Refusal := .next (s.mbServe r (fun op => op == 0x19) fun t _ => t.tripAck)

/-- BEL_TRIP_STATUS (R727, Table 21.9). -/
def State.tripStatus (s : State) : Nat × Nat × Nat :=
  let t := s.thm
  let st := if !t.waiting then 0 else if !s.cooled then 1 else if t.selfTest != some true then 3 else if t.ackDue && !t.acked then 2 else 1
  (st, min 7 s.tripsHour.length, min 65535 (match t.below with | some b => (s.now - b) / 1000000 | none => 0))

/-! ### Fans (R723) -/

/-- The duty on FAN_PWM[f]: that of the output whose map names it. -/
def State.fanDuty (s : State) (f : Nat) : Nat :=
  maxOf ((List.range 4).flatMap fun i => (List.range 2).map fun o =>
    if o < s.plantN i 3 1 && (s.plantN i (8 + 2 * o) 2).testBit (8 + f) then s.rd (if o = 0 then Reg.MNT_DUTY_D0 i else Reg.MNT_DUTY_D1 i) else 0)

/-- One fan after a second with a number of pulses. -/
def State.fanOne (s : State) (f pulses : Nat) : State :=
  if s.cfg 0x01 0 5 ≤ f then s
  else
    let rpm := pulses * 60 / max 1 (s.cfg 0x01 0 6)
    let run := if 16384 ≤ s.fanDuty f ∧ rpm < 300 then mapGet (fun _ => 0) s.thm.fans f + 1 else 0
    let bad := 3 ≤ run
    let s1 := ((s.wr (Reg.THM_FAN_RPM f) (min 65535 rpm)).wr (Reg.THM_FAN_FAULT f) (bit bad)).modThm fun t => { t with fans := mapSet (fun _ => 0) t.fans f run }
    (s1.setMaskBit Reg.THM_STATUS_FAN_FAULT f bad).raiseIf (bad && s.rd (Reg.THM_FAN_FAULT f) == 0) 1751

/-- FAN_CHECK: the pulses of each fan in the second past. -/
def execFanCheck (pulses : List Nat) (s : State) : Host.Outcome State Fault Refusal :=
  .next (if s.mainUp then (List.range 4).foldl (fun t f => t.fanOne f (pulses.getD f 0)) s else s)

end Sys2Proof.Machine
end

