-- ==== Sys2Proof/Machine/Maint.lean ====
section
/-!
DEFINITION. Machine/Maint.lean: the maintenance activities of the Belfry, their exclusion and their scheduling (22 R737 to R742), and the margin plan
(22 R743 to R745).
-/
namespace Sys2Proof.Machine

/-! ### Resources and exclusion (Table 22.4) -/

/-- PRIORITY of an activity, 1 first. -/
def actPriority (code : Nat) : Nat := [10, 6, 1, 7, 3, 4, 8, 5, 2, 9].getD code 10

/-- The activities that wait for takes while DURING_TAKE is 0. -/
def waitsForTakes (code : Nat) : Bool := code == 1 || code == 7 || code == 9

/-- The stripe an audit is at: that of its resource, or the next of a whole pass. -/
def State.auditStripeOf (s : State) (a : Act) : Option Stripe :=
  if a.res = wholePass then s.auditList.find? fun st => s.ftl.auditNext ≤ st.id else s.stripe a.res

/-- The band an AUDIT, a REBUILD or a RETENTION holds. -/
def State.actBand (s : State) (a : Act) : Option Nat := if a.code = 1 then (s.auditStripeOf a).map fun st => st.band else some a.res

/-- Two activities exclude each other on the same resource. -/
def State.excludes (s : State) (a b : Act) : Bool :=
  let bandWork (c : Nat) : Bool := c == 1 || c == 2 || c == 7
  let pair (x y : Nat) : Bool := (a.code == x && b.code == y) || (a.code == y && b.code == x)
  if bandWork a.code && bandWork b.code && a.code != b.code then
    (match s.actBand a, s.actBand b with | some x, some y => x == y | _, _ => false)
  else if pair 3 4 then a.res == b.res
  else if pair 4 4 || pair 8 8 || pair 9 9 then true
  else if pair 5 6 then a.res == b.res
  else if pair 5 5 then a.res / 8 == b.res / 8
  else false

/-- The running activities one has to wait for. A REBUILD never waits for an AUDIT (R739); a whole pass of the AUDIT passes over the stripes of a rebuild (R453)
and waits at a stripe, not as a whole; a retrain waits for the step of a scrub alone (R752). -/
def State.blockers (s : State) (a : Act) : List Act :=
  s.maint.acts.filter fun b => b.running && s.excludes a b && !(a.code == 2 && b.code == 1) && !(a.code == 1 && a.res == wholePass) && !(a.code == 4 && b.code == 3)

/-! ### Records (R742) -/

/-- An event record of an activity: kind 0 start, 1 end, 2 wait, 3 cancel, and the activity waited on. -/
def State.actRecord (s : State) (a : Act) (kind on : Nat) : State := s.record 0x10 0 [a.code, a.res, kind, on]

def State.dropAct (s : State) (code res : Nat) : State :=
  s.modMaint fun m => { m with acts := m.acts.filter fun x => !(x.code == code && x.res == res) }

/-- An activity ends or is cancelled. -/
def State.endAct (s : State) (a : Act) (kind : Nat) : State := ((s.dropAct a.code a.res).actRecord a kind 0).raise 1779

def State.findAct (s : State) (code res : Nat) : Option Act := s.maint.acts.find? fun a => a.code == code && a.res == res

/-- An activity of a code on a resource ends, if it is there. -/
def State.endActOf (s : State) (code res : Nat) : State := match s.findAct code res with | some a => s.endAct a 1 | none => s

/-! ### What an activity does when it starts -/

/-- A scrub pass begins, at its stored position. -/
def State.scrubStart (s : State) (ch : Nat) : State :=
  let k := mapGet (fun _ => 0) s.maint.positions (3 * 2 ^ 32 + ch)
  let n := s.scrubLines ch
  let k1 := if k < n then k else 0
  (s.modDrch ch fun y => { y with pass := k1, passAt := if k1 = 0 then none else some (s.now - k1 * s.scrubNs / max 1 n) }).modMaint fun m =>
    { m with positions := mapSet (fun _ => 0) m.positions (3 * 2 ^ 32 + ch) 0 }

/-- A whole pass of the audit begins, at its stored position. -/
def State.auditStart (s : State) : State :=
  let key := 2 ^ 32 + wholePass
  ((s.modFtl fun f => { f with auditNext := mapGet (fun _ => 0) s.maint.positions key, auditRunning := true }).wr Reg.STR_STATUS_AUDIT 1).modMaint fun m =>
    { m with positions := mapSet (fun _ => 0) m.positions key 0 }

/-- A band whose relocation was asked for. -/
def State.moveBand (s : State) (band : Nat) : State := ((s.ftl.stripes.filter fun st => st.band == band).map fun st => st.id).foldl State.askMove s

/-- A THRESH_RECAL reads 16 sample pages of each present die of the link in class 3 (R740). -/
def State.threshReads (s : State) (n : Nat) : State :=
  let p := s.opPers n
  let dies := match groupOf s.image.cfg n with
    | some g => (List.range (g.get 4)).filter fun d => !s.ftl.absentDies.contains (n, d)
    | none => []
  (dies.flatMap fun d => (List.range 16).map fun k => (d, k)).foldl (fun t x =>
    let a := Config.samplePage n x.1 x.2
    t.request ⟨0, n, x.1, 0, a.1 % p.get 0x20, a.2 % p.get 0x1C, 1, 0, 1, 1, false, 3, 0, .sample, 0⟩) s

/-- Reads of a THRESH_RECAL of the link that have not ended. -/
def State.threshOut (s : State) (n : Nat) : Bool :=
  ((s.sleeve (n / 8)).queue.any fun d => d.link == n && d.why == .sample) || ((s.sleeve (n / 8)).recs.any fun r => r.desc.link == n && r.desc.why == .sample)

/-- An activity starts: its record, source 1,778, its first step. -/
def State.startAct (s : State) (a : Act) : State :=
  let s1 := s.modMaint fun m => { m with
    acts := m.acts.map fun (x : Act) => if x.code == a.code && x.res == a.res then { x with running := true, paused := false, since := s.now } else x
    began := mapSet (fun _ => 0) m.began (2 ^ 32 * a.code + a.res) s.now }
  let s2 := (s1.actRecord a 0 0).raise 1778
  match a.code with
  | 1 => if a.res = wholePass then s2.auditStart else s2
  | 3 => s2.scrubStart a.res
  | 4 => s2.retrainStart a.res
  | 5 => s2.recalLink a.res
  | 6 => s2.threshReads a.res
  | 7 => if a.asked then s2.moveBand a.res else s2
  | 8 => s2.startCheckpoint
  | 9 =>
    let s3 := s2.learnStart a.res
    -- a discharge that waits for the occupancy is recorded as waiting on the dirty window (R752)
    if s3.limitMib * mib < s3.win.occ then s3.actRecord a 2 0 else s3
  | _ => s2

/-- Whether nothing but other activities keeps one from starting. -/
def State.canStart (s : State) (a : Act) : Bool :=
  !(waitsForTakes a.code && s.takesHold) &&
    match a.code with
    | 4 => s.mayRetrain a.res
    | 5 => s.jlActive a.res
    | 8 => !s.cpRunning
    | 9 => s.learnState == 0 && !s.lossReported
    | _ => true

/-! ### What is due (R737) -/

def State.lastBegan (s : State) (code res : Nat) : Option Nat := (s.maint.began.find? fun e => e.1 == 2 ^ 32 * code + res).map fun e => e.2

/-- A period in nanoseconds has passed since an activity last began, or since a time where it never did. -/
def State.periodPast (s : State) (code res base period : Nat) : Bool := decide ((s.lastBegan code res).getD base + period ≤ s.now)

def dayNs : Nat := 86400000000000

/-- The recalibration period of a link and the threshold period of a link, in nanoseconds (R744). -/
def State.recalNs (s : State) (n : Nat) : Nat := mapGet (fun _ => s.force Reg.BEL_MAINT_CFG1_LINK_RECAL_MIN) s.maint.recal n * 60000000000
def State.threshNs (s : State) (n : Nat) : Nat := mapGet (fun _ => s.force Reg.BEL_MAINT_CFG2_THRESH_RECAL_H) s.maint.thresh n * 3600000000000

/-- Resources of an activity that are due. -/
def State.dueOf (s : State) (code : Nat) : List Nat :=
  let base := s.boot.mainInitAt
  match code with
  | 1 => if s.lastBegan 1 wholePass = none ∨ s.periodPast 1 wholePass 0 (s.force Reg.BEL_MAINT_CFG0_AUDIT_DAYS * dayNs) then [wholePass] else []
  | 2 => if s.rebuilding then ((s.rebuildWork.filterMap fun w => (s.stripe w.1).map fun st => st.band).eraseDups) else []
  | 3 => s.chans.filter s.chanUp
  | 4 => s.chans.filter fun ch => (s.drch ch).want
  | 5 => (List.range 512).filter fun n => s.jlActive n && s.periodPast 5 n base (s.recalNs n)
  | 6 => (List.range 512).filter fun n => s.jlActive n && s.linkState n != 6 && s.periodPast 6 n base (s.threshNs n)
  | 7 => (s.ftl.bands.filter s.aged).map fun b => b.id
  | 8 => if s.ftl.cpStart + s.force Reg.BEL_MAINT_CFG2_CHECKPOINT_S * 1000000000 ≤ s.now then [0] else []
  | 9 =>
    let p := s.force Reg.BEL_MAINT_CFG3_LEARN_DAYS * dayNs
    s.strings.filter fun k => if k = 3 then s.periodPast 9 k 0 p
      else s.periodPast 9 k 0 p && (match (s.str k).learnt with | some l => decide (l.1 + p ≤ s.now) | none => true)
  | _ => []

/-- Activities that come due are added to those that wait. -/
def State.addActs (s : State) (l : List (Nat × Nat)) (asked : Bool) : State :=
  s.modMaint fun m => { m with
    acts := m.acts ++ (l.filter fun x => !(m.acts.any fun a => a.code == x.1 && a.res == x.2)).map fun x => ⟨x.1, x.2, s.now, false, false, asked⟩ }

/-! ### A scheduling pass (R738) -/

/-- Activities can run: in Run with nothing beginning or ending it, no flush in charge. -/
def State.maintRuns (s : State) : Bool := s.mainUp && s.phase == 0xB && s.pwrState == 0 && s.pwrPhase == 0 && s.ftl.flush.kind == 0

/-- Stopped activities go on once the cause has gone; a LEARN that stopped is ended (R741). -/
def State.resumeActs (s : State) : State :=
  let hold := s.takesHold
  let s1 := (s.maint.acts.filter fun a => a.code == 9 && a.paused).foldl (fun t a => t.endAct a 1) s
  s1.modMaint fun m => { m with acts := m.acts.map fun (a : Act) =>
    if a.running && waitsForTakes a.code && hold then { a with running := false, paused := true }
    else if a.paused && !(waitsForTakes a.code && hold) then { a with running := true, paused := false }
    else a }

/-- One waiting activity in its turn: started, or left waiting, with its records where it newly waits. -/
def State.tryAct (s : State) (old : List Act) (a : Act) : State :=
  let isNew := !(old.any fun b => b.code == a.code && b.res == a.res)
  match s.blockers a with
  | b :: _ => if isNew then (((s.actRecord a 2 b.code).actRecord b 2 0).raise 1780) else s
  | [] =>
    if !s.canStart a then (if isNew then s.actRecord a 2 0 else s)
    else
      -- a retrain that finds a scrub running waits for its step (R752)
      match s.maint.acts.find? fun b => a.code == 4 && b.code == 3 && b.res == a.res && b.running with
      | some b => (((s.actRecord a 2 3).actRecord b 2 0).raise 1780).startAct a
      | none => s.startAct a

/-- The waiting activities, in order of priority, then of age. -/
def State.waitingActs (s : State) : List Act :=
  sortByKey (fun (a : Act) => actPriority a.code * 2 ^ 80 + a.since) (s.maint.acts.filter fun a => !a.running && !a.paused)

/-- BEL_MAINT_RUN and BEL_MAINT_WAIT (Table 22.14): bit a for activity a. -/
def State.actMask (s : State) (running : Bool) : Nat :=
  (List.range 10).foldl (fun m c => if s.maint.acts.any fun a => a.code == c && a.running == running then m ||| 2 ^ c else m) 0

/-- A recalibration that is due for a link that is DOWN is skipped for that period (14 R536). -/
def State.skipRecal (s : State) : State :=
  ((List.range 512).filter fun n => s.jlState n == 8 && s.periodPast 5 n s.boot.mainInitAt (s.recalNs n)).foldl
    (fun t n => t.modMaint fun m => { m with began := mapSet (fun _ => 0) m.began (2 ^ 32 * 5 + n) s.now }) s

/-- A scheduling pass: MAINTENANCE's fitted values apply (05 Table 5.11), stopped activities go on, due and waiting ones start. `old` are the activities
already recorded as waiting. -/
def State.schedule (s : State) (old : List Act) : State :=
  if !s.maintRuns then s
  else
    let s0 := ((s.fitAdoptClass 10).resumeActs).skipRecal.sanStep
    -- a checkpoint that is due while one runs waits for it (11 R397)
    let s1 := if s0.cpRunning && !(s0.dueOf 8).isEmpty then s0.startCheckpoint else s0
    let due := (List.range 10).flatMap fun c => (s1.dueOf c).map fun r => (c, r)
    let s2 := s1.addActs due false
    s2.waitingActs.foldl (fun t a => t.tryAct old a) s2

/-- NOR programs and erases that failed their verify since the last pass (R748): each is counted, recorded with its NOR offset and its operation (0
program, 1 erase; log entry 51), and raises 1,783; it is repeated at the next record position. -/
def State.norErrors (s : State) (fails : List (Nat × Bool)) : State :=
  fails.foldl (fun t e => ((t.bump Reg.BEL_HEALTH_NOR_ERRORS).record 0x14 2 [e.1, bit e.2]).raise 1783) s

/-- SCHEDULING_PASS: each second. -/
def execSchedulingPass (norFails : List (Nat × Bool)) (s : State) : Host.Outcome State Fault Refusal :=
  .next (if s.belfryRuns && s.maint.passAt + 990000000 ≤ s.now then
    (((s.norErrors norFails).modMaint fun m => { m with passAt := s.now }).schedule s.maint.acts).settleDma else s)

/-! ### MAINT_REQUEST and MAINT_CANCEL -/

/-- The resources a request names; none where they are not of the activity's kind. -/
def State.askedRes (s : State) (code res : Nat) : Option (List Nat) :=
  if res = wholePass then
    match code with
    | 1 => some [wholePass]
    | 2 => some (s.dueOf 2)
    | 3 => some (s.chans.filter s.chanUp)
    | 4 => some (s.chans.filter s.chanUp)
    | 5 => some ((List.range 512).filter s.jlActive)
    | 6 => some ((List.range 512).filter s.jlActive)
    | 7 => some (s.dueOf 7)
    | 8 => some [0]
    | 9 => some s.strings
    | _ => none
  else
    let ok : Bool := match code with
      | 1 => (s.stripe res).isSome
      | 2 => (s.band res).isSome
      | 3 => decide (res < 24) && s.chanUp res
      | 4 => decide (res < 24) && s.chanUp res
      | 5 => decide (res < 512) && populated s.image.cfg res
      | 6 => decide (res < 512) && populated s.image.cfg res
      | 7 => (s.band res).isSome
      | 8 => res == 0
      | 9 => decide (res < 4) && s.fitted res
      | _ => false
    if ok then some [res] else none

/-- MAINT_REQUEST: the activity is added and a pass made; DETAIL and STATUS say whether it started. -/
def State.maintRequest (s : State) (code res : Nat) : State × MbAns :=
  match s.askedRes code res with
  | none => (s, mbInvalid)
  | some l =>
    let s2 := (s.addActs (l.map fun r => (code, r)) true).schedule s.maint.acts
    if l.any fun r => s2.actHeld code r then (s2, ⟨4, 1, []⟩) else (s2, mbOk)

def execMaintRequest (r : MbReq) (s : State) : Host.Outcome State Fault Refusal :=
  .next ((s.mbServe r (fun op => op == 0x20) fun t m => t.maintRequest (byteAt m.args 0) (leAt m.args 4 4)).settleDma)

/-- An activity that is cancelled: its record, and what it leaves undone. -/
def State.cancelAct (s : State) (a : Act) : State :=
  let s1 := s.endAct a 3
  match a.code with
  | 1 => if a.res = wholePass then (s1.modFtl fun f => { f with auditNext := 0, auditRunning := false }).wr Reg.STR_STATUS_AUDIT 0 else s1
  | 4 => s1.modDrch a.res fun y => { y with want := false }
  | 5 => s1.modLnk a.res fun x => { x with recal := false }
  | 9 => if a.running then s1.learnAbort false else s1
  | _ => s1

/-- MAINT_CANCEL. -/
def State.maintCancel (s : State) (code res : Nat) : State × MbAns :=
  if code = 0 ∨ 9 < code then (s, mbInvalid)
  else
    let l := s.maint.acts.filter fun a => a.code == code && (a.res == res || res == wholePass)
    if l.isEmpty then (s, mbState) else (l.foldl State.cancelAct s, mbOk)

def execMaintCancel (r : MbReq) (s : State) : Host.Outcome State Fault Refusal :=
  .next ((s.mbServe r (fun op => op == 0x21) fun t m => t.maintCancel (byteAt m.args 0) (leAt m.args 4 4)).settleDma)

/-! ### The margin plan (R743 to R745) -/

/-- A change of the plan: GEN, its record (trigger, resource, old and new value), source 1,781. -/
def State.planChange (s : State) (trigger res old new : Nat) : State := ((s.tally 0xB4 1).record 0x12 1 [trigger, res, old, new]).raise 1781

/-- The eye a recalibration of a link measured (Table 22.6, row 2). -/
def State.eyePlan (s : State) (n : Nat) : State :=
  let base := s.force Reg.BEL_MAINT_CFG1_LINK_RECAL_MIN
  let cur := mapGet (fun _ => base) s.maint.recal n
  let setRecal (t : State) (v : Nat) : State := (t.modMaint fun m => { m with recal := mapSet (fun _ => base) m.recal n v }).planChange 2 n cur v
  if s.rd (Reg.JL_EYE_EYE_W n) < 28 ∨ s.rd (Reg.JL_EYE_EYE_H n) < 32 then
    let s1 := s.modMaint fun m => { m with recalGood := mapSet (fun _ => 0) m.recalGood n 0 }
    let v := max (cur / 2) (max 1 (base / 8))
    if v < cur then setRecal s1 v else s1
  else if 28 < s.rd (Reg.JL_EYE_EYE_W n) ∧ 32 < s.rd (Reg.JL_EYE_EYE_H n) then
    let g := mapGet (fun _ => 0) s.maint.recalGood n + 1
    let s1 := s.modMaint fun m => { m with recalGood := mapSet (fun _ => 0) m.recalGood n (min g 4) }
    if 4 ≤ g ∧ cur ≠ base then setRecal s1 base else s1
  else s.modMaint fun m => { m with recalGood := mapSet (fun _ => 0) m.recalGood n 0 }

/-- RETRY_STEPS of a link's personality. -/
def State.retrySteps (s : State) (n : Nat) : Nat := (s.pers (s.persOfLink n)).get 0x2E

/-- Retry counts of a die (32 × link + die) over a time; `host` keeps host reads alone. -/
def State.retriesOf (s : State) (die ns : Nat) (host : Bool) : List Nat :=
  (s.maint.retries.filter fun e => s.now < e.1 + ns && (e.2.1 == die || (!host && e.2.1 == die + 1048576))).map fun e => e.2.2

/-- Dies with reads of the last 7 days. -/
def State.retryDies (s : State) : List Nat := (s.maint.retries.map fun e => e.2.1 % 1048576).eraseDups

/-- The links one of whose dies needs more than RETRY_STEPS / 4 retries on average over 24 h. -/
def State.retryHigh (s : State) (n : Nat) : Bool :=
  s.retryDies.any fun d => d / 32 == n &&
    (let l := s.retriesOf d dayNs false
     !l.isEmpty && s.retrySteps n * l.length < 4 * l.sum)

/-- Table 22.6, row 3, for one link: halved at most once in its own period. -/
def State.threshPlan (s : State) (n : Nat) : State :=
  let base := s.force Reg.BEL_MAINT_CFG2_THRESH_RECAL_H
  let cur := mapGet (fun _ => base) s.maint.thresh n
  let since := mapGet (fun _ => 0) s.maint.threshSince n
  let setTo (v : Nat) : State := (s.modMaint fun m => { m with
    thresh := mapSet (fun _ => base) m.thresh n v, threshSince := mapSet (fun _ => 0) m.threshSince n s.now }).planChange 3 n cur v
  if s.retryHigh n then
    let v := max 1 (cur / 2)
    if v < cur ∧ (cur = base ∨ since + dayNs ≤ s.now) then setTo v
    else if cur = base then s else s.modMaint fun m => { m with threshSince := mapSet (fun _ => 0) m.threshSince n (max since (s.now - dayNs + 1)) }
  else if cur ≠ base ∧ since + 7 * dayNs ≤ s.now then setTo base
  else s

/-- The AVS reference (rows 1 of Tables 22.5 and 22.6): once a day, after 10 min between 60 °C and 70 °C. -/
def State.avsPlan (s : State) : State :=
  let steady := match s.maint.avsSince with | some t => decide (t + 600000000000 ≤ s.now) | none => false
  if !steady || s.force Reg.PWR_CFG_AVS == 0 || (s.maint.avsFirst.isSome && s.now < s.maint.avsAt + dayNs) then s
  else
    let ref := s.rd Reg.PWR_VCORE_MV
    let s1 := s.modMaint fun m => { m with avsFirst := some (m.avsFirst.getD ref), avsAt := s.now }
    let first := s.maint.avsFirst.getD ref
    let old := mapGet (fun _ => 0) s.life.counters 0xB8
    let new := min s.vcoreMax (max old (ref - 20) / 5 * 5)
    if first + 15 ≤ ref ∧ old < new then
      let s2 := (s1.tallyMax 0xB8 new).planChange 1 0 old new
      if s2.rd Reg.PWR_VCORE_MV < new then s2.wr Reg.PWR_VCORE_MV new else s2
    else s1

/-- The strings (rows 4 and 5): impedance risen by a quarter asks for a LEARN; a capacity below 70 % is recorded once. -/
def State.strPlan (s : State) (k : Nat) : State :=
  let risen := match (s.str k).learnt with | some l => decide (0 < l.2 ∧ 5 * l.2 ≤ 4 * s.rNow k) | none => false
  let s1 := if risen && (s.findAct 9 k).isNone then (s.addActs [(9, k)] false).planChange 4 k (match (s.str k).learnt with | some l => l.2 | none => 0) (s.rNow k) else s
  let low := 10 * (s.str k).q < 7 * s.capRated k
  let known := s.maint.lowQ.contains k
  if low && !known then (s1.modMaint fun m => { m with lowQ := m.lowQ ++ [k] }).record 0x12 2 [5, k, s.capRated k, (s.str k).q]
  else if !low && known then s1.modMaint fun m => { m with lowQ := m.lowQ.filter fun x => x != k }
  else s1

/-- The 99th percentile of a list by nearest rank. -/
def percentile99 (l : List Nat) : Nat := (sortByKey id l).getD ((99 * l.length + 99) / 100 - 1) 0

/-- Percentage Used (R745): h is RETRY_STEPS / 2. -/
def State.percentNow (s : State) : Nat :=
  maxOf (s.retryDies.map fun d => if s.retrySteps (d / 32) = 0 then 0
    else min 255 (200 * percentile99 (s.retriesOf d (7 * dayNs) true) / s.retrySteps (d / 32)))

/-- PERCENT_USED as last computed (22 Table 22.9); an increase raises 1,782. -/
def State.percentPlan (s : State) : State :=
  let p := s.percentNow
  let old := mapGet (fun _ => 0) s.life.counters 0xB0
  if p = old then s
  else ({ s with life := { s.life with counters := mapSet (fun _ => 0) s.life.counters 0xB0 p }.changed }).raiseIf (old < p) 1782

/-- MARGIN_MEASUREMENT: the measurements that are due, and what follows from them. -/
def State.margin (s : State) : State :=
  let links := (s.retryDies.map fun d => d / 32) ++ s.maint.thresh.map fun e => e.1
  let s1 := links.eraseDups.foldl State.threshPlan s.avsPlan
  (s1.strings.foldl State.strPlan s1).percentPlan

def execMarginMeasurement (s : State) : Host.Outcome State Fault Refusal := .next (if s.mainUp && s.belfryRuns then s.margin else s)

/-! ### The end of an activity (R742) -/

/-- The work of a running activity is done. -/
def State.actDone (s : State) (a : Act) : Bool :=
  match a.code with
  | 1 => a.res != wholePass || !s.ftl.auditRunning
  | 2 => s.rebuildWork.all fun w => (s.stripe w.1).map (fun st => st.band) != some a.res
  | 3 => (s.drch a.res).pass == 0 && (match (s.drch a.res).passAt with | some t => decide (a.since < t) | none => false)
  | 4 => (s.drch a.res).retrain.isNone
  | 5 => s.jlActive a.res && !(s.lnk a.res).recal
  | 6 => !s.threshOut a.res
  | 7 => match s.band a.res with | some b => (s.firstMovable b).isNone | none => true
  | 8 => !s.cpRunning
  | 9 => s.learnState == 0
  | _ => true

/-- MAINT_ACTIVITY_END: a running activity whose work is done ends; a recalibration's eye enters the margin plan. -/
def State.maintEnd (s : State) (code res : Nat) : State :=
  match s.findAct code res with
  | none => s
  | some a =>
    if a.running && s.actDone a then
      let s1 := s.endAct a 1
      if code = 5 then s1.eyePlan res else s1
    else s

def execMaintActivityEnd (activity : Fin 10) (resource : Nat) (s : State) : Host.Outcome State Fault Refusal :=
  .next (if s.mainUp && s.belfryRuns then (s.maintEnd activity.val resource).settleDma else s)

/-- DRAM_RETRAIN_DONE (17 R618): with the retrain its activity ends. -/
def State.retrainEnd (s : State) (ch : Nat) (ok : Bool) : State :=
  let was := (s.drch ch).retrain.isSome
  let s1 := s.retrainDone ch ok
  if was && (s1.drch ch).retrain.isNone then s1.endActOf 4 ch else s1

def execDramRetrainDone (ch : Fin 24) (ok : Bool) (s : State) : Host.Outcome State Fault Refusal :=
  .next (if s.mainUp then (s.retrainEnd ch.val ok).settleDma else s)

/-- COUNTERS_RECORD_WRITE (R747). -/
def execCountersRecordWrite (s : State) : Host.Outcome State Fault Refusal := .next (if s.belfryRuns then s.writeCounters else s)

end Sys2Proof.Machine
end

