-- ==== Sys2Proof/Machine/Live.lean ====
section
/-!
DEFINITION. Machine/Live.lean: the live operations of the mailbox (22 R734 to R736, Table 22.3) and LOG_READ. Operations act on the main domain and are
refused with STATUS 3 while it does not answer.
-/
namespace Sys2Proof.Machine

/-- An operation on a part named by its first argument, in range or STATUS 2. -/
def State.live (s : State) (arg limit : Nat) (f : State → State × MbAns) : State × MbAns :=
  if limit ≤ arg then (s, mbInvalid) else if !s.mainUp then (s, mbState) else f s

/-- With this state some stripe that holds a mapped sector would miss more members than its PARITY (R736). -/
def State.exceedsParity (s : State) : Bool :=
  s.ftl.stripes.any fun st => s.holdsMapped st && (match s.band st.band with | some b => b.parity < s.missingOf st | none => false)

/-! ### Links -/

/-- A LINK_RECAL that runs on the link ends at its next step (R752). -/
def State.endRecal (s : State) (n : Nat) : State := (s.modLnk n fun x => { x with recal := false }).endActOf 5 n

/-- LINK_ISOLATE. -/
def State.linkIsolate (s : State) (n : Nat) : State × MbAns :=
  if !(s.linkState n == 1 || s.linkState n == 2) || 8 ≤ (s.linksIn 4).length then (s, mbState)
  else if (s.wr (Reg.STR_LINK_STATE n) 4).exceedsParity then (s, mbRisk)
  else
    let s1 := (s.endRecal n).setLink n 4
    (s1.membersLost n none s, mbOk)

def execLinkIsolate (r : MbReq) (s : State) : Host.Outcome State Fault Refusal :=
  .next ((s.mbServe r (fun op => op == 0x28) fun t m => t.live (leAt m.args 0 2) 512 fun u => u.linkIsolate (leAt m.args 0 2)).settleDma)

/-- A link on its way back trains from DETECT (R735). -/
def State.linkBack (s : State) (n : Nat) : State := (s.modLnk n fun x => { x with returning := true }).toDetect n (s.now + 200000000) false

/-- LINK_RETURN. -/
def State.linkReturn (s : State) (n : Nat) : State × MbAns := if s.linkState n ≠ 4 then (s, mbState) else (s.linkBack n, mbOk)

def execLinkReturn (r : MbReq) (s : State) : Host.Outcome State Fault Refusal :=
  .next ((s.mbServe r (fun op => op == 0x29) fun t m => t.live (leAt m.args 0 2) 512 fun u => u.linkReturn (leAt m.args 0 2)).settleDma)

/-- LINK_RETIRE (14 R534). -/
def State.linkRetire (s : State) (n : Nat) : State × MbAns :=
  if s.linkState n = 0 ∨ s.linkState n = 6 then (s, mbState) else ((s.endRecal n).retireLink n 5, mbOk)

def execLinkRetire (r : MbReq) (s : State) : Host.Outcome State Fault Refusal :=
  .next ((s.mbServe r (fun op => op == 0x2A) fun t m => t.live (leAt m.args 0 2) 512 fun u => u.linkRetire (leAt m.args 0 2)).settleDma)

/-! ### Sleeves -/

/-- The links of a Sleeve that its bypass takes out: those in service, SLOW or HELD. -/
def State.slvLinks (s : State) (i : Nat) : List Nat := ((List.range 8).map fun l => 8 * i + l).filter fun n => 1 ≤ s.linkState n && s.linkState n ≤ 3

/-- SLEEVE_BYPASS: `force` carries it out although stripes would be LOST. -/
def State.sleeveBypass (s : State) (i : Nat) (forced : Bool) : State × MbAns :=
  if (List.range 64).any fun k => s.rd (Reg.SLV_STATUS_BYPASSED k) == 1 then (s, mbState)
  else
    let links := s.slvLinks i
    if !forced && (links.foldl (fun t n => t.wr (Reg.STR_LINK_STATE n) 5) s).exceedsParity then (s, mbRisk)
    else
      let s1 := links.foldl (fun t n => (t.endRecal n).setLink n 5) (s.slvBypass i)
      (links.foldl (fun t n => t.membersLost n none s) s1, mbOk)

def execSleeveBypass (r : MbReq) (s : State) : Host.Outcome State Fault Refusal :=
  .next ((s.mbServe r (fun op => op == 0x2C) fun t m => t.live (byteAt m.args 0) 64 fun u => u.sleeveBypass (byteAt m.args 0) (m.flags.testBit 0)).settleDma)

/-- SLEEVE_RETURN: its store is loaded again, then each of its links returns. -/
def State.sleeveReturn (s : State) (i : Nat) : State × MbAns :=
  if s.rd (Reg.SLV_STATUS_BYPASSED i) ≠ 1 then (s, mbState)
  else
    let links := ((List.range 8).map fun l => 8 * i + l).filter fun n => s.linkState n == 5
    (links.foldl State.linkBack (s.slvReturn i), mbOk)

def execSleeveReturn (r : MbReq) (s : State) : Host.Outcome State Fault Refusal :=
  .next ((s.mbServe r (fun op => op == 0x2D) fun t m => t.live (byteAt m.args 0) 64 fun u => u.sleeveReturn (byteAt m.args 0)).settleDma)

/-! ### Cipher lanes (16 R578, R579) -/

/-- LANE_BYPASS: a FAULTED lane is out of service already and stays FAULTED. -/
def State.laneBypass (s : State) (l : Nat) : State × MbAns :=
  if 8 ≤ ((List.range 16).filter fun k => !s.laneOk k).length then (s, mbRisk) else if s.laneOk l then (s.setLane l 1, mbOk) else (s, mbOk)

def execLaneBypass (r : MbReq) (s : State) : Host.Outcome State Fault Refusal :=
  .next ((s.mbServe r (fun op => op == 0x30) fun t m => t.live (byteAt m.args 0) 16 fun u => u.laneBypass (byteAt m.args 0)).settleDma)

/-- LANE_TEST: the known-answer test with its outcome; a lane that fails is FAULTED, one that passes stays out of service. -/
def State.laneTest (s : State) (l : Nat) (pass : Bool) : State × MbAns :=
  if s.laneOk l then (s, mbState)
  else
    let st := s.rd (Reg.CPH_LANE_STATUS_STATE l)
    ((s.laneKat l pass).setLane l (if pass then st else 3), ⟨0, bit pass, []⟩)

def execLaneTest (r : MbReq) (pass : Bool) (s : State) : Host.Outcome State Fault Refusal :=
  .next ((s.mbServe r (fun op => op == 0x31) fun t m => t.live (byteAt m.args 0) 16 fun u => u.laneTest (byteAt m.args 0) pass).settleDma)

/-- LANE_RETURN: a lane that failed its test is not placed in service. -/
def State.laneReturn (s : State) (l : Nat) : State × MbAns :=
  if s.rd (Reg.CPH_LANE_STATUS_STATE l) = 1 then (s.setLane l 0, mbOk) else (s, mbState)

def execLaneReturn (r : MbReq) (s : State) : Host.Outcome State Fault Refusal :=
  .next ((s.mbServe r (fun op => op == 0x32) fun t m => t.live (byteAt m.args 0) 16 fun u => u.laneReturn (byteAt m.args 0)).settleDma)

/-! ### Mantle slots, ports, DRAM channels -/

def execLoopBypass (r : MbReq) (s : State) : Host.Outcome State Fault Refusal :=
  .next (s.mbServe r (fun op => op == 0x34) fun t m => t.live (byteAt m.args 0) 4 fun u => (u.bypassWrite (byteAt m.args 0) true, mbOk))

/-- LOOP_RETURN: of a slot that is BYPASSED. -/
def State.loopReturn (s : State) (i : Nat) : State × MbAns := if s.loopState i ≠ 3 then (s, mbState) else (s.bypassWrite i false, mbOk)

def execLoopReturn (r : MbReq) (s : State) : Host.Outcome State Fault Refusal :=
  .next (s.mbServe r (fun op => op == 0x35) fun t m => t.live (byteAt m.args 0) 4 fun u => u.loopReturn (byteAt m.args 0))

/-- PORT_RESET: not of the requester's own port. -/
def State.portResetMsg (s : State) (p agent : Nat) : State × MbAns := if agent < 4 ∧ agent / 2 = p then (s, mbState) else (s.portReset p, mbOk)

def execPortReset (r : MbReq) (s : State) : Host.Outcome State Fault Refusal :=
  .next ((s.mbServe r (fun op => op == 0x38) fun t m => t.live (byteAt m.args 0) 2 fun u => u.portResetMsg (byteAt m.args 0) m.agent).settleDma)

/-- CHANNEL_RETIRE (17 R627): fewer than four retired, and check 14 passes with one channel fewer; recorded for the next main reset. -/
def State.channelRetire (s : State) (ch : Nat) : State × MbAns :=
  let l := s.life.channels
  if l.contains ch ∨ 4 ≤ l.length ∨ !(check14 (24 - l.length - 1) s.image.cfg).isNone then (s, mbState) else (s.recordChannel ch 4, mbOk)

def execChannelRetire (r : MbReq) (s : State) : Host.Outcome State Fault Refusal :=
  .next (s.mbServe r (fun op => op == 0x3C) fun t m =>
    if 24 ≤ byteAt m.args 0 then (t, mbInvalid) else t.channelRetire (byteAt m.args 0))

/-- CHANNEL_RETURN: recorded for the next main reset. -/
def State.channelReturn (s : State) (ch : Nat) : State × MbAns :=
  if s.life.channels.contains ch then
    (((s.modLife fun l => { l with channels := l.channels.filter fun c => c != ch }).record 0x0B 2 [ch, 5]), mbOk)
  else (s, mbState)

def execChannelReturn (r : MbReq) (s : State) : Host.Outcome State Fault Refusal :=
  .next (s.mbServe r (fun op => op == 0x3D) fun t m =>
    if 24 ≤ byteAt m.args 0 then (t, mbInvalid) else t.channelReturn (byteAt m.args 0))

/-! ### LOG_READ -/

/-- An event record's 64 bytes (Table 22.11). Each value of DATA takes 8 bytes, in the order of Table 22.12 (DESIGN CHOICE, log entry 39). -/
def EventRec.bytes (e : EventRec) : List Byte :=
  let b := leBytes 8 e.seq ++ leBytes 8 e.time ++ leBytes 4 e.auxMs ++ leBytes 2 e.ty ++ leBytes 1 e.severity ++ leBytes 1 0 ++
    padTo 36 ((e.data.flatMap fun v => leBytes 8 v).take 36)
  b ++ leBytes 4 (crc32c b)

/-- LOG_READ: up to COUNT records from FIRST_SEQ on, oldest first. -/
def State.logRead (s : State) (first count : Nat) : MbAns :=
  if count = 0 ∨ 7 < count then mbInvalid
  else ⟨0, 0, (((s.life.events.reverse).filter fun e => first ≤ e.seq).take count).flatMap EventRec.bytes⟩

def execLogRead (r : MbReq) (s : State) : Host.Outcome State Fault Refusal :=
  .next (s.mbServe r (fun op => op == 0x40) fun t m => (t, t.logRead (leAt m.args 0 8) (byteAt m.args 8)))

end Sys2Proof.Machine
end

