-- ==== Sys2Proof/Machine/Features.lean ====
section
/-!
DEFINITION. Machine/Features.lean: Set Features and Get Features (06 R216 to R220; 21 R714, R716), the Mantle state blob (19 R682, R683). Bit places of the
features NVMe Base 2.0 defines are its own (PRESUMED, log entry 23).
-/
namespace Sys2Proof.Machine

/-! ### Set Features -/

/-- The features of Table 6.7. -/
def featureIds : List Nat := [0x01, 0x02, 0x04, 0x05, 0x07, 0x08, 0x09, 0x0A, 0x0B, 0x10, 0xC0, 0xC1, 0xC2, 0xC3]

/-- What every Set Features passes first: a feature the device has (any Set Features row takes one it has not, R216), and Save, which is not supported. -/
def State.setFeature (s : State) (c : Sqe) (f : State → State) : State :=
  s.admin c .service fun t =>
    if !featureIds.contains (dwBits c.cdw10 0 8) then t.fail c stInvalidField
    else if c.cdw10.getLsbD 31 then t.fail c stNotSaveable
    else f t

/-- Arbitration: AB, LPW, MPW and HPW; the credits start anew. -/
def State.setArbitration (s : State) (c : Sqe) : State :=
  (s.modCtrl c.ctrl.val fun k => { k with
    arbitration := (c.cdw11 &&& 0xFFFFFF07#32).toNat
    credits := [0, 0, 0] }).succeed c

def execSetArbitration (c : Sqe) (s : State) : Host.Outcome State Fault Refusal := .next (s.setFeature c fun t => t.setArbitration c)

/-- WCTEMP in kelvin (Table 6.4). -/
def State.wctemp (s : State) : Nat := s.rd Reg.THM_WARN_C_C + 273

/-- Temperature Threshold: TMPSEL 0 alone; THSEL 0 is the over threshold, 1 the under threshold. -/
def State.setTempThreshold (s : State) (c : Sqe) : State :=
  let v := dwBits c.cdw11 0 16
  if dwBits c.cdw11 16 4 ≠ 0 ∨ 1 < dwBits c.cdw11 20 2 then s.fail c stInvalidField
  else if dwBits c.cdw11 20 2 = 0 then ({ s with nvme := { s.nvme with tempOver := some v } } : State).succeed c
  else ({ s with nvme := { s.nvme with tempUnder := v } } : State).succeed c

def execSetTemperatureThreshold (c : Sqe) (s : State) : Host.Outcome State Fault Refusal := .next (s.setFeature c fun t => t.setTempThreshold c)

/-- Error Recovery: TLER 0 and DULBE 0 only. -/
def State.setErrorRecovery (s : State) (c : Sqe) : State := if dwBits c.cdw11 0 17 ≠ 0 then s.fail c stInvalidField else s.succeed c

def execSetErrorRecovery (c : Sqe) (s : State) : Host.Outcome State Fault Refusal := .next (s.setFeature c fun t => t.setErrorRecovery c)

/-- Number of Queues (R182): the lesser of what is asked for and IOQ_PAIRS, before any I/O queue exists. -/
def State.setQueues (s : State) (c : Sqe) : State :=
  let k := s.ctrl c.ctrl.val
  let nsq := dwBits c.cdw11 0 16
  let ncq := dwBits c.cdw11 16 16
  if nsq = 0xFFFF ∨ ncq = 0xFFFF then s.fail c stInvalidField
  else if k.sqs.any (fun e => e.1 != 0) || k.cqs.any fun e => e.1 != 0 then s.fail c stSequence
  else
    let most := s.ioqPairs c.ctrl.val - 1
    let g := min nsq most + 65536 * min ncq most
    (s.setCtrl c.ctrl.val { k with numQueues := g + 1 }).complete c stOk g 0 []

def execSetNumberOfQueues (c : Sqe) (s : State) : Host.Outcome State Fault Refusal := .next (s.setFeature c fun t => t.setQueues c)

def execSetInterruptCoalescing (c : Sqe) (s : State) : Host.Outcome State Fault Refusal :=
  .next (s.setFeature c fun t => (t.modCtrl c.ctrl.val fun k => { k with coalescing := dwBits c.cdw11 0 16 }).succeed c)

/-- Interrupt Vector Configuration: CD of one vector of the controller. -/
def State.setVector (s : State) (c : Sqe) : State :=
  let iv := dwBits c.cdw11 0 16
  if portGet s.image.cfg (c.ctrl.val / 2) 12 ≤ iv then s.fail c stInvalidField
  else (s.modCtrl c.ctrl.val fun k => { k with vecConfig := mapSet (fun _ => 0) k.vecConfig iv (dwBits c.cdw11 16 1) }).succeed c

def execSetInterruptVectorConfig (c : Sqe) (s : State) : Host.Outcome State Fault Refusal := .next (s.setFeature c fun t => t.setVector c)

/-- Write Atomicity Normal: DN 0 only. -/
def State.setAtomicity (s : State) (c : Sqe) : State := if c.cdw11.getLsbD 0 then s.fail c stInvalidField else s.succeed c

def execSetWriteAtomicity (c : Sqe) (s : State) : Host.Outcome State Fault Refusal := .next (s.setFeature c fun t => t.setAtomicity c)

/-- Asynchronous Event Configuration: the critical warnings (bits 7:0), Namespace Attribute (8) and Firmware Activation (9) notices. -/
def execSetAsyncEventConfig (c : Sqe) (s : State) : Host.Outcome State Fault Refusal :=
  .next (s.setFeature c fun t => (t.modCtrl c.ctrl.val fun k => { k with asyncConfig := dwBits c.cdw11 0 10 }).succeed c)

/-- TMT1 and TMT2 (21 R714): 0, or 333 K to 388 K, TMT1 below TMT2. -/
def State.setHctm (s : State) (c : Sqe) : State :=
  let t1 := dwBits c.cdw11 16 16
  let t2 := dwBits c.cdw11 0 16
  let ok (t : Nat) : Bool := t == 0 || (333 ≤ t && t ≤ 388)
  if !ok t1 || !ok t2 || (t1 != 0 && t2 != 0 && t2 ≤ t1) then s.fail c stInvalidField
  else ((s.wr Reg.THM_HCTM_TMT1 t1).wr Reg.THM_HCTM_TMT2 t2).succeed c

def execSetHostThermalManagement (c : Sqe) (s : State) : Host.Outcome State Fault Refusal := .next (s.setFeature c fun t => t.setHctm c)

/-- The host ceiling in MiB (R218). -/
def State.setCeiling (s : State) (c : Sqe) : State :=
  let v := c.cdw11.toNat
  if v = 0 ∨ (256 ≤ v ∧ v ≤ 786432) then ({ s with win := { s.win with ceiling := v } } : State).succeed c else s.fail c stInvalidField

def execSetDirtyWindow (c : Sqe) (s : State) : Host.Outcome State Fault Refusal := .next (s.setFeature c fun t => t.setCeiling c)

/-- A command that runs as a fitting of its own (05 R158); rolled back, it completes with Invalid Field where `rollback` says so. -/
def State.asFitting (s : State) (c : Sqe) (writes : List (Nat × Word)) : State :=
  if s.rd Reg.FIT_STATUS_STATE ≠ 0 then s.fail c stSequence
  else
    let s1 := s.fitSelf c.agent writes
    if s1.rd Reg.FIT_STATUS_RESULT = 2 then s1.fail c stInvalidField else s1.succeed c

/-- Thermal Policy (R219): WARN_C, ENFORCE_C, RESTART and GRACE_MS. -/
def State.setThermal (s : State) (c : Sqe) : State :=
  s.asFitting c [
    (Reg.THM_WARN_C, putBits (s.reg Reg.THM_WARN_C) Reg.THM_WARN_C_C.lsb Reg.THM_WARN_C_C.width (dwBits c.cdw11 0 8)),
    (Reg.THM_ENFORCE_C, putBits (s.reg Reg.THM_ENFORCE_C) Reg.THM_ENFORCE_C_C.lsb Reg.THM_ENFORCE_C_C.width (dwBits c.cdw11 8 8)),
    (Reg.THM_GRACE, putBits (s.reg Reg.THM_GRACE) 0 16 (dwBits c.cdw12 0 16)),
    (Reg.THM_POLICY, putBits (s.reg Reg.THM_POLICY) 0 1 (dwBits c.cdw11 16 1))]

def execSetThermalPolicy (c : Sqe) (s : State) : Host.Outcome State Fault Refusal := .next (s.setFeature c fun t => t.setThermal c)

/-- Steeple Role (R220). -/
def State.setRole (s : State) (c : Sqe) : State := s.asFitting c [(Reg.STP_CFG, putBits (s.reg Reg.STP_CFG) 0 2 (dwBits c.cdw11 0 2))]

def execSetSteepleRole (c : Sqe) (s : State) : Host.Outcome State Fault Refusal := .next (s.setFeature c fun t => t.setRole c)

/-! ### The Mantle state blob (19 R682, R683) -/

/-- DESC: the string's fields of Table 4.13. -/
def State.strDesc (s : State) (k : Nat) : List Byte :=
  leBytes 1 (s.chem k) ++ leBytes 1 (s.strCfg k 1) ++ leBytes 2 0 ++ leBytes 4 (s.capRated k) ++ leBytes 2 (s.vFull k) ++ leBytes 2 (s.vEmpty k) ++ leBytes 4 (s.rInit k)

/-- A string block (Table 19.5). -/
def State.strBlock (s : State) (k : Nat) : List Byte :=
  let x := s.str k
  let age := match x.learnt with | some l => min 0xFFFFFFFE ((s.now - l.1) / 1000000000) | none => 0xFFFFFFFF
  layout 512 [(0, s.strDesc k), (16, leBytes 4 x.q), (20, leBytes 4 (s.rd (Reg.MNT_STR_CYCLES_MILLI k))), (24, leBytes 4 age),
    (28, leBytes 2 (s.rd (Reg.MNT_STR_LEARN_COUNT k))), (30, leBytes 2 (s.rd (Reg.MNT_STR_LEARN_REJECTS k))),
    (32, (List.range 33).flatMap fun i => leBytes 4 (x.rt.getD i 0)), (0xA4, leBytes 4 (bit x.learnt.isSome))]

/-- The blob as it is saved now. -/
def State.blob (s : State) : List Byte :=
  let b := layout 4092 [(0, leBytes 4 0x4D584349), (4, leBytes 2 1), (6, leBytes 1 (s.cfg 0x61 0 0)), (7, leBytes 1 (s.rd Reg.MNT_STATUS_COMPAT)), (8, s.uniqueId),
    (16, leBytes 8 s.steepleTime), (0x100, (List.range 4).flatMap fun k => if s.fitted k then s.strBlock k else List.replicate 512 0)]
  b ++ leBytes 4 (crc32c b)

/-- A blob that R683 accepts. -/
def State.blobOk (s : State) (b : List Byte) : Bool :=
  leAt b 0 4 == 0x4D584349 && leAt b 4 2 == 1 && slice b 8 8 == s.uniqueId && leAt b 0xFFC 4 == crc32c (padTo 4092 (b.take 4092))

/-- The strings a blob restores: fitted, with the DESC in force, its reserved bytes 2 and 3 left aside (00 R10). -/
def State.blobStrings (s : State) (b : List Byte) : List Nat :=
  s.strings.filter fun k => slice b (0x100 + 0x200 * k) 2 ++ [0, 0] ++ slice b (0x104 + 0x200 * k) 12 == s.strDesc k

/-- Restores one string. The impedance at the last learning is not in the blob: the one restored stands for it. -/
def State.blobString (s : State) (b : List Byte) (k : Nat) : State :=
  let o := 0x100 + 0x200 * k
  let cap := s.capRated k
  let age := leAt b (o + 24) 4
  let s1 := s.modStr k fun x => { x with q := max (cap / 2) (min (cap * 6 / 5) (leAt b (o + 16) 4)), rt := (List.range 33).map fun i => leAt b (o + 32 + 4 * i) 4 }
  let s2 := s1.modStr k fun x => { x with learnt := if age = 0xFFFFFFFF then none else some (s.now - age * 1000000000, s1.rNow k) }
  ((s2.wr (Reg.MNT_STR_CYCLES_MILLI k) (leAt b (o + 20) 4)).wr (Reg.MNT_STR_LEARN_COUNT k) (leAt b (o + 28) 2)).wr (Reg.MNT_STR_LEARN_REJECTS k) (min 255 (leAt b (o + 30) 2))

/-- Set Features 0xC0. -/
def State.setMantle (s : State) (c : Sqe) : State :=
  if !s.blobOk c.data then s.fail c (stVendor 0xB1 true)
  else if s.learnState = 1 ∨ s.learnState = 2 ∨ s.learnState = 3 ∨ s.lossReported then s.fail c stSequence
  else
    let l := s.blobStrings c.data
    let s1 := (l.foldl (fun t k => t.blobString c.data k) s).wr Reg.MNT_STATUS_RESTORED 1
    (s1.compatWrite true).complete c stOk (classBits l) 0 []

def execSetMantleState (c : Sqe) (s : State) : Host.Outcome State Fault Refusal := .next (s.setFeature c fun t => t.setMantle c)

/-! ### Get Features -/

/-- The values of a feature in force, or its defaults (what the next main reset leaves): completion dwords 0 and 1, and data. None for a feature the device does not have. -/
def State.feature (s : State) (c : Sqe) (dflt : Bool) : Option (Nat × Nat × List Byte) :=
  let k := s.ctrl c.ctrl.val
  let word (cur d : Nat) : Option (Nat × Nat × List Byte) := some (if dflt then d else cur, 0, [])
  match dwBits c.cdw10 0 8 with
  | 0x01 => word k.arbitration 0
  | 0x02 => word (s.rd Reg.PWR_STATUS_PS) 0
  | 0x04 => if dwBits c.cdw11 16 4 ≠ 0 ∨ 1 < dwBits c.cdw11 20 2 then none
    else if dwBits c.cdw11 20 2 = 0 then word (s.nvme.tempOver.getD s.wctemp) s.wctemp else word s.nvme.tempUnder 0
  | 0x05 => word 0 0
  | 0x07 => word (s.queueGrant c.ctrl.val) ((s.ioqPairs c.ctrl.val - 1) * 65537)
  | 0x08 => word k.coalescing 0
  | 0x09 => if portGet s.image.cfg (c.ctrl.val / 2) 12 ≤ dwBits c.cdw11 0 16 then none
    else word (dwBits c.cdw11 0 16 + 65536 * mapGet (fun _ => 0) k.vecConfig (dwBits c.cdw11 0 16)) (dwBits c.cdw11 0 16)
  | 0x0A => word 0 0
  | 0x0B => word k.asyncConfig 0
  | 0x10 => word (65536 * s.rd Reg.THM_HCTM_TMT1 + s.rd Reg.THM_HCTM_TMT2) 0
  | 0xC0 => some (0, 0, s.blob)
  | 0xC1 => word s.win.ceiling 0
  | 0xC2 =>
    let v (t : Nat → Nat) : Nat × Nat × List Byte := (t 0 + 256 * t 1 + 65536 * t 2, t 3, [])
    some (if dflt then v fun i => [s.cfg 0x70 0 0, s.cfg 0x70 0 1, s.cfg 0x70 0 4, s.cfg 0x70 0 2].getD i 0
      else v fun i => [s.rd Reg.THM_WARN_C_C, s.rd Reg.THM_ENFORCE_C_C, s.rd Reg.THM_POLICY_RESTART, s.rd Reg.THM_GRACE_MS].getD i 0)
  | 0xC3 => word (s.rd Reg.STP_CFG_ROLE) (s.cfg 0x90 0 0)
  | _ => none

/-- Get Features: Select 00b current, 01b default, 10b saved (nothing is saveable: the default), 11b capabilities (changeable, not saveable). -/
def State.getFeature (s : State) (c : Sqe) : State :=
  let sel := dwBits c.cdw10 8 3
  match s.feature c (sel == 1 || sel == 2) with
  | none => s.fail c stInvalidField
  | some v => if 3 < sel then s.fail c stInvalidField else if sel = 3 then s.complete c stOk 4 0 [] else s.complete c stOk v.1 v.2.1 v.2.2

def execGetFeatures (c : Sqe) (s : State) : Host.Outcome State Fault Refusal := .next (s.admin c .always fun t => t.getFeature c)

/-- Get Features of feature 0xC0. -/
def State.getMantle (s : State) (c : Sqe) : State := s.getFeature { c with cdw10 := (c.cdw10 &&& 0xFFFFFF00#32) ||| 0xC0#32 }

def execGetMantleState (c : Sqe) (s : State) : Host.Outcome State Fault Refusal := .next (s.admin c .always fun t => t.getMantle c)

end Sys2Proof.Machine
end

