-- ==== Sys2Proof/Machine/FitCmds.lean ====
section
/-!
DEFINITION. Machine/FitCmds.lean: the commands of a fitting: register writes (05 R152, R153, R157) and the NVMe commands Fitting and Fitting Report
(06 R226 to R229). A write of FIT_CMD is a wake (20 R694): it also wakes a Deep Sleep, in which it is discarded.
-/
namespace Sys2Proof

/-- The entries of a Fitting: offset and value. -/
def Sqe.fitEntries (c : Sqe) : List (Nat × Word) :=
  (List.range (c.cdw10.toNat / 2)).map fun i => (Machine.leAt c.data (8 * i) 4, BitVec.ofNat 32 (Machine.leAt c.data (8 * i + 4) 4))

/-- The count of entries does not suit the operation, or CDW10 is odd. -/
def Sqe.fitCountBad (c : Sqe) (op : Nat) : Bool :=
  let n := c.cdw10.toNat / 2
  c.cdw10.getLsbD 0 || (if op = 0 ∨ op = 4 then n = 0 || decide (512 < n) else n != 0)

end Sys2Proof

namespace Sys2Proof.Machine

/-! ### Register writes -/

/-- COMMIT with what class POWER does at once: adaptive scaling begins or ends in Run, and a wake timer restarts (05 Table 5.10). -/
def State.commit (s : State) (agent : Nat) : State :=
  let offs := s.fit.staged.map fun e => e.1
  let s1 := s.fitCommit agent
  if !s.fitOwns agent || s.rd Reg.FIT_STATUS_OVERFLOW == 1 || s1.rd Reg.FIT_STATUS_RESULT == 2 then s1
  else
    let s2 := if offs.contains Reg.PWR_CFG && s.pwrState == 0 then s1.vcoreRun else s1
    if offs.contains Reg.PWR_WAKE_TIMER then s2.modPwr fun p => { p with steadyAt := s.now } else s2

/-- A write of FIT_CMD, from the owner a sign of activity (05 Table 5.9): carried out where the register file answers, and a wake where a low power state is held or entered. -/
def State.fitCmdWrite (s : State) (agent : Nat) (f : State → State) : State :=
  let touch (t : State) : State := if t.fitOwns agent then { t with fit := { t.fit with lastActivity := t.now } } else t
  let s1 := if s.answers Reg.FIT_CMD then touch (f s) else s
  if s.board.mainRunning then s1.wake 8 else s1

/-- BEGIN: a write of FIT_CMD OP 0x1. -/
def execBeginFitting (agent : Fin 8) (s : State) : Host.Outcome State Fault Refusal := .next (s.fitCmdWrite agent.val fun t => t.fitBegin agent.val)

/-- COMMIT: a write of FIT_CMD OP 0x2. -/
def execCommitFitting (agent : Fin 8) (s : State) : Host.Outcome State Fault Refusal := .next (s.fitCmdWrite agent.val fun t => t.commit agent.val)

/-- ABORT: a write of FIT_CMD OP 0x3. -/
def execAbortFitting (agent : Fin 8) (s : State) : Host.Outcome State Fault Refusal := .next (s.fitCmdWrite agent.val fun t => t.fitAbort agent.val)

/-- RWF_STAGE_WRITE: a write to an RWF register; at another offset nothing is staged. -/
def execRwfStageWrite (agent : Fin 8) (off : Nat) (data : Word) (s : State) : Host.Outcome State Fault Refusal :=
  .next (if s.answers off && isRwf off then s.fitStage agent.val off data else s)

/-- FIT_TIMEOUT_WRITE: IDLE_MS stored within 100 to 60,000, in effect at once (05 Table 5.7, R157). -/
def State.fitTimeoutWrite (s : State) (data : Word) : State :=
  let s1 := s.wr Reg.FIT_TIMEOUT_IDLE_MS (max 100 (min 60000 (bitsOf data 0 16)))
  if s1.fitIdleDue then s1.fitAbandon 4 else s1

def execFitTimeoutWrite (_agent : Fin 8) (data : Word) (s : State) : Host.Outcome State Fault Refusal :=
  .next (if s.answers Reg.FIT_TIMEOUT then s.fitTimeoutWrite data else s)

/-- FIT_IDLE_TIMEOUT: an open fitting whose idle time has reached IDLE_MS is abandoned with RESULT TIMED_OUT. -/
def execFitIdleTimeout (s : State) : Host.Outcome State Fault Refusal :=
  .next (if s.fitIdleDue then s.fitAbandon 4 else s)

/-! ### Fitting (Table 6.10) -/

/-- The operation is refused (R227): by the state of the fitting, its owner, or the identifier expected. -/
def State.fitRefused (s : State) (c : Sqe) (op : Nat) : Bool :=
  if op = 1 ∨ op = 4 then s.rd Reg.FIT_STATUS_STATE != 0
  else !s.fitOwns c.agent || s.rd Reg.FIT_ID_ID != c.cdw13.toNat

/-- The first entry that names no RWF register. -/
def badEntry (l : List (Nat × Word)) : Option Nat := (List.range l.length).find? fun i => match l[i]? with | some e => e.1 % 4 != 0 || !isRwf e.1 | none => true

/-- Stages entries for an agent. -/
def State.fitStageAll (s : State) (agent : Nat) (l : List (Nat × Word)) : State := l.foldl (fun t e => t.fitStage agent e.1 e.2) s

/-- Completes a Fitting: dword 1 is FIT_ID, whatever the status (R226). -/
def State.fitDone (s : State) (c : Sqe) (st : Status) (dw0 : Nat) : State := s.complete c st dw0 (s.rd Reg.FIT_ID_ID) []

/-- A Fitting that is not turned away before its operation is looked at. -/
def State.fittingOr (s : State) (c : Sqe) (f : State → State) : State := s.adminOr c .vendor (fun t st => t.fitDone c st 0) f

/-- A Fitting with an operation: dword 0 of one accepted is FIT_STATUS. -/
def State.fitting (s : State) (c : Sqe) (op : Nat) (f : State → State) : State :=
  s.fittingOr c fun t =>
    if c.fitCountBad op then t.fitDone c stInvalidField 0
    else if t.fitRefused c op then t.fitDone c stSequence 0
    else match badEntry c.fitEntries with
      | some i => t.fitDone c stInvalidField i
      | none =>
        let u := f t
        u.fitDone c stOk (u.reg Reg.FIT_STATUS).toNat

/-- STAGE; a command whose OP is reserved is this row's too and completes with Invalid Field. -/
def State.fittingStage (s : State) (c : Sqe) : State :=
  if 4 < dwBits c.cdw12 0 4 then s.fittingOr c fun t => t.fitDone c stInvalidField 0
  else s.fitting c 0 fun t => t.fitStageAll c.agent c.fitEntries

def execFittingStage (c : Sqe) (s : State) : Host.Outcome State Fault Refusal := .next (s.fittingStage c)

def execFittingBegin (c : Sqe) (s : State) : Host.Outcome State Fault Refusal := .next (s.fitting c 1 fun t => t.fitBegin c.agent)

def execFittingCommit (c : Sqe) (s : State) : Host.Outcome State Fault Refusal := .next (s.fitting c 2 fun t => t.commit c.agent)

def execFittingAbort (c : Sqe) (s : State) : Host.Outcome State Fault Refusal := .next (s.fitting c 3 fun t => t.fitAbort c.agent)

/-- OP 0x4: BEGIN, STAGE, COMMIT in one command. -/
def execFittingBeginStageCommit (c : Sqe) (s : State) : Host.Outcome State Fault Refusal :=
  .next (s.fitting c 4 fun t => ((t.fitBegin c.agent).fitStageAll c.agent c.fitEntries).commit c.agent)

/-! ### Fitting Report (R229) -/

/-- Table 6.11 for an agent. -/
def State.fitReport (s : State) (agent : Nat) : List Byte :=
  let ents := if s.fitOwns agent then s.fit.staged else []
  layout 0x40 [(0, leBytes 4 (s.reg Reg.FIT_STATUS).toNat), (4, leBytes 4 (s.rd Reg.FIT_ID_ID)), (8, leBytes 4 (s.reg Reg.FIT_STAGED).toNat),
    (12, leBytes 4 (s.reg Reg.FIT_PENDING).toNat), (16, leBytes 4 (s.reg Reg.FIT_TIMEOUT).toNat), (20, leBytes 1 agent), (22, leBytes 2 ents.length)] ++
  ents.flatMap fun e => leBytes 4 e.1 ++ leBytes 4 e.2.toNat

/-- Fitting Report: at most 8,208 dwords. -/
def State.fitReportCmd (s : State) (c : Sqe) : State :=
  if 8208 < c.cdw10.toNat then s.fail c stInvalidField
  else s.complete c stOk 0 0 (padTo (4 * c.cdw10.toNat) ((s.fitReport c.agent).take (4 * c.cdw10.toNat)))

def execFittingReport (c : Sqe) (s : State) : Host.Outcome State Fault Refusal := .next (s.admin c .plain fun t => t.fitReportCmd c)

end Sys2Proof.Machine
end

