-- ==== Sys2Proof/Machine/Views.lean ====
section
/-!
DEFINITION. Machine/Views.lean: what a read of the register file returns (05 R147 to R149, R154; 00 R12 to R15). A register whose value is derived
from the rest of the state has its value here; every other one returns its word of `regs`.
-/
namespace Sys2Proof.Machine

/-- A word made of fields: (lowest bit, width, value). -/
def packWord (l : List (Nat × Nat × Nat)) : Word := l.foldl (fun w f => putBits w f.1 f.2.1 f.2.2) 0

/-- A value that saturates in a field. -/
def satTo (w v : Nat) : Nat := min (2 ^ w - 1) v

/-! ### Global and event registers -/

/-- GBL_POP. -/
def State.popWord (s : State) : Word := packWord [(24, 3, s.ctrls.length), (16, 5, s.chansUp), (0, 10, linksPopulated s.image.cfg)]

/-- Some source from 64 g to 64 g + 63 is pending. -/
def State.groupPending (s : State) (g : Nat) : Bool :=
  [2 * g, 2 * g + 1].any fun w => (s.reg (Reg.EVT_STATUS w) &&& ~~~(s.reg (Reg.EVT_MASK w))) != 0

/-- EVT_SUMMARY0. -/
def State.summaryWord (s : State) : Word := BitVec.ofNat 32 (((List.range 32).filter s.groupPending).map fun g => 2 ^ g).sum

/-! ### Take service -/

def State.takStatus (s : State) : Word :=
  putBits (putBits (putBits (s.reg Reg.TAK_STATUS) 17 1 (bit s.takeNs.isSome)) 8 5 s.openTakes.length) 0 5 s.openStreams

/-- Frames in flight on a slot, those that wait for a START or their refusal among them (07 R254). -/
def State.framesIn (s : State) (slot : Nat) : Nat := (s.takes.inflight.filter fun f => f.slot == slot).length + (s.takes.replies.filter fun r => r.slot == slot).length

/-- TAK_STREAM[t]. -/
def State.streamWord (s : State) (t : Nat) : Word :=
  match s.slotClip t with
  | some (k, _, c) => packWord [(16, 16, s.framesIn t), (4, 6, if c.desc.mode = 1 then c.desc.channel else 0), (3, 1, c.desc.mode), (0, 3, k.state)]
  | none => 0

/-- TAK_DMA_STAT[d]: FILL is PI minus CI modulo 2^32. -/
def State.dmaStat (s : State) (d : Nat) : Word :=
  putBits (s.reg (Reg.TAK_DMA_STAT d)) 15 17 (min 65536 (s.reg (Reg.TAK_DMA_PI d) - s.reg (Reg.TAK_DMA_CI d)).toNat)

/-! ### Gate, stripes and translation -/

/-- STR_ADM_WAIT: the age of the oldest waiting chunk request, µs. -/
def State.admWait (s : State) : Nat := satTo 32 (maxOf (s.win.waiting.map fun r => (s.now - r.since) / 1000))

/-- Bytes of a kind moved within a time, in nanoseconds. -/
def State.marksIn (s : State) (ns : Nat) (f : Nat × Nat × Nat × Nat → Nat) : Nat := ((s.path.marks.filter fun m => s.now < m.1 + ns).map f).sum

/-- FTL_GC_MBPS. -/
def State.gcMbps (s : State) : Nat := satTo 32 (s.marksIn 1000000000 (fun m => m.2.2.2) / 1000000)

/-- FTL_WAF. -/
def State.waf (s : State) : Nat :=
  let u := s.marksIn 60000000000 fun m => m.2.2.1
  if u = 0 then 1000 else satTo 32 (s.marksIn 60000000000 (fun m => m.2.1) * 1000 / u)

/-- FTL_CP_AGE_MS of the newest durable generation; 0 where there is none. -/
def State.cpAge (s : State) : Nat :=
  match s.ftl.cps.filter fun c => c.durable && c.gen % 2 ^ 32 == s.rd Reg.FTL_CP_GEN_GEN with
  | c :: _ => satTo 32 ((s.now - c.durableAt) / 1000000)
  | [] => 0

/-- STR_LINKS. -/
def State.linksWord (s : State) : Word :=
  packWord [(20, 10, (s.linksIn 1).length), (10, 10, (s.linksIn 2).length), (0, 10, (s.linksIn 6).length)]

/-- STR_STRIPES. -/
def State.stripesWord (s : State) : Word :=
  packWord [(16, 16, satTo 16 (s.ftl.stripes.filter s.isExposed).length), (0, 16, satTo 16 (s.ftl.stripes.filter s.isLost).length)]

/-! ### Sleeves -/

def State.slvStatus (s : State) (i : Nat) : Word :=
  let recs := (s.sleeve i).recs
  let links := ((List.range 8).filter fun l => s.linkState (8 * i + l) != 0 && s.linkState (8 * i + l) != 5).map fun l => 2 ^ l
  putBits (putBits (putBits (s.reg (Reg.SLV_STATUS i)) 29 1 (bit (recs.any fun r => r.flushAtt))) 16 10 recs.length) 0 8 links.sum

/-- SLV_XOVER: records not yet crossed over. -/
def State.xoverWord (s : State) (i : Nat) : Word :=
  let x := s.sleeve i
  putBits (s.reg (Reg.SLV_XOVER i)) 12 10 (if x.xover.isSome then (x.recs.filter fun r => !r.crossed && !r.ended).length else 0)

/-- SLV_CTX[c] (13 R468): the record a context holds; in cycle until its CYC has elapsed, then ready, or stalled. -/
def State.ctxWord (s : State) (i c : Nat) : Word :=
  match (s.sleeve i).recs.find? fun r => r.ctx == some c with
  | none => 0
  | some r =>
    let st := if 4 * s.now < r.readyAt then 2 else
      match (s.sleeve i).fetch r with
      | some w => if s.stalled r w then 3 else 1
      | none => 1
    packWord [(29, 3, st), (25, 2, r.desc.cls), (20, 5, r.desc.die), (16, 4, r.desc.entry), (0, 13, r.pc)]

/-- Watchdog remaining, µs. -/
def State.wdogUs (s : State) (r : OpRec) : Nat :=
  if !r.wdogOn then 0 else satTo 16 ((if r.wdogPaused then r.wdogLeft else r.wdogLeft - (s.now - r.wdogFrom)) / 1000)

/-- A die of a link is there. -/
def State.diePresent (s : State) (n d : Nat) : Bool :=
  s.linkState n != 0 && (match groupOf s.image.cfg n with | some g => decide (d < g.get 4) | none => false) && !s.ftl.absentDies.contains (n, d)

/-- SLV_DIE[d] of Sleeve i: die d mod 32 of link d div 32. -/
def State.dieWord (s : State) (i d : Nat) : Word :=
  let n := 8 * i + d / 32
  let k := d % 32
  let x := s.die n k
  let latch := [(28, 1, bit x.ready), (27, 1, bit x.busy)]
  if !s.diePresent n k then packWord [(29, 3, 5)]
  else if x.needsReset then packWord ((29, 3, 4) :: latch)
  else match s.holderOf n k with
    | none => packWord ((29, 3, 0) :: latch)
    | some r => packWord ((29, 3, if r.suspended then 3 else if r.arrayBusy then 2 else 1) :: latch ++
        [(20, 4, satTo 4 r.suspends), (4, 16, s.wdogUs r), (0, 4, r.desc.entry)])

/-- JL_STATE: RATE_MAX is that of the link's group. -/
def State.jlWord (s : State) (n : Nat) : Word :=
  match groupOf s.image.cfg n with
  | some g => putBits (s.reg (Reg.JL_STATE n)) 24 2 (g.get 3)
  | none => s.reg (Reg.JL_STATE n)

/-! ### Key slots and DRAM -/

def State.slotWord (s : State) (k : Nat) : Word :=
  let x := s.keySlot k
  packWord [(16, 16, x.gen), (4, 1, bit (s.slotNamed k)), (3, 1, bit x.hostSalt), (0, 3, x.state)]

def State.dramMapWord (s : State) : Word := packWord [(24, 5, s.chansUp), (8, 8, if s.image.inForce then s.pasrMask else 0)]

/-! ### Thermal, Belfry -/

/-- THM_THROTTLE: grace remaining, ms, rounded up so that any grace left reads at least 1. -/
def State.throttleWord (s : State) : Word :=
  putBits (s.reg Reg.THM_THROTTLE) 0 16 (match s.thm.grace with | some g => satTo 16 (ceilDiv (g.1 - s.now) 1000000) | none => 0)

/-- THM_HOT_BRIDGE: 0x8000 where no bridge has reported. -/
def State.hotWord (s : State) : Word :=
  match s.hotBridge with
  | some h => packWord [(16, 16, toCode 16 h.1), (0, 9, h.2)]
  | none => packWord [(16, 16, 0x8000)]

def State.tripWord (s : State) : Word :=
  let t := s.tripStatus
  putBits (packWord [(29, 3, t.1), (26, 3, t.2.1), (16, 1, bit s.thm.acked), (0, 16, t.2.2)]) 24 2 (s.rd Reg.BEL_TRIP_STATUS_KIND)

/-- BEL_LIFECYCLE. -/
def State.lifeWord (s : State) : Word :=
  packWord [(8, 8, bitsOf (s.otpWord 0) 16 8), (7, 1, bit s.ownIncomplete), (4, 3, s.activeOwner.getD 7), (0, 4, s.lifecycle)]

/-- The words of DEVID_SEED and WRAP_SEED. -/
def otpSecret (w : Nat) : Bool := 0x4C ≤ w && w < 0x5C

/-- BEL_OTP_DATA (03 R91): DEVID_SEED and WRAP_SEED read 0. -/
def State.otpData (s : State) : Word :=
  let w := s.rd Reg.BEL_OTP_SEL_WORD
  if otpSecret w then 0 else s.otpWord w

/-- BEL_MEAS_DATA[i][w]. -/
def State.measWord (s : State) (i w : Nat) : Word := BitVec.ofNat 32 (leAt (digestBytes (s.measReg i)) (4 * w) 4)

def State.ctr (s : State) (off : Nat) : Nat := mapGet (fun _ => 0) s.life.counters off

def State.planWord (s : State) : Word := packWord [(24, 8, s.ctr 0xB0), (16, 8, s.ctr 0xB4), (0, 16, s.ctr 0xB8)]

def State.healthWord (s : State) : Word := putBits (s.reg Reg.BEL_HEALTH) 16 16 (satTo 16 (s.ctr 0xA0))

/-! ### The value of a register -/

/-- Index of an offset in a repeated register: base, stride, count. -/
def indexIn (off base stride count : Nat) : Option Nat :=
  if base ≤ off ∧ (off - base) % stride = 0 ∧ (off - base) / stride < count then some ((off - base) / stride) else none

/-- Low and high half of a derived 64-bit counter. -/
def loHalf (v : Nat) : Word := BitVec.ofNat 32 v
def hiHalf (v : Nat) : Word := BitVec.ofNat 32 (v / 2 ^ 32)

/-- The single derived registers. -/
def State.viewOne (s : State) (off : Nat) : Option Word :=
  if off = Reg.GBL_ID then some (packWord [(16, 16, bitsOf (s.otpWord 0) 0 16), (8, 8, bitsOf (s.otpWord 0) 16 8)])
  else if off = Reg.GBL_UID_LO then some (loHalf (leAt s.uniqueId 0 8))
  else if off = Reg.GBL_UID_HI then some (hiHalf (leAt s.uniqueId 0 8))
  else if off = Reg.GBL_POP then some s.popWord
  else if off = Reg.EVT_SUMMARY0 then some s.summaryWord
  else if off = Reg.EVT_SUMMARY1 then some (BitVec.ofNat 32 (bit (s.groupPending 32)))
  else if off = Reg.TAK_STATUS then some s.takStatus
  else if off = Reg.TAK_FREE_UNITS then some (BitVec.ofNat 32 s.freeUnits)
  else if off = Reg.STP_TIME_LO then some (loHalf s.steepleTime)
  else if off = Reg.STP_UNC then some (BitVec.ofNat 32 s.stpUnc)
  else if off = Reg.STR_DW_OCC then some (BitVec.ofNat 32 (ceilDiv s.win.occ mib))
  else if off = Reg.STR_ADM_WAIT then some (BitVec.ofNat 32 s.admWait)
  else if off = Reg.STR_SEQ_LO then some (loHalf s.ftl.seqNext)
  else if off = Reg.STR_LINKS then some s.linksWord
  else if off = Reg.STR_STRIPES then some s.stripesWord
  else if off = Reg.FTL_STATUS then some (putBits (s.reg Reg.FTL_STATUS) 24 1 (bit (s.ftl.spareAtStart.isSome && s.spareUnits == 0)))
  else if off = Reg.FTL_CP_AGE_MS then some (BitVec.ofNat 32 s.cpAge)
  else if off = Reg.FTL_FINE_FREE then some (BitVec.ofNat 32 s.fineFree)
  else if off = Reg.FTL_FINE_TOTAL then some (BitVec.ofNat 32 s.fineTotal)
  else if off = Reg.FTL_UNITS then some (BitVec.ofNat 32 (userUnits s.image.cfg))
  else if off = Reg.FTL_BANDS then some (packWord [(0, 22, satTo 22 s.freeBands)])
  else if off = Reg.FTL_STRIPES then some (packWord [(0, 26, satTo 26 s.ftl.stripes.length)])
  else if off = Reg.FTL_GC_MBPS then some (BitVec.ofNat 32 s.gcMbps)
  else if off = Reg.FTL_WAF then some (BitVec.ofNat 32 s.waf)
  else if off = Reg.FTL_SPARE_UNITS then some (BitVec.ofNat 32 s.spareUnits)
  else if off = Reg.FTL_SEQ_CEIL_LO then some (loHalf s.ftl.seqCeil)
  else if off = Reg.STR_DW_T_STAGING then some (BitVec.ofNat 32 (s.force Reg.STR_DW_CFG_STAGING_GIB * 1024))
  else if off = Reg.STR_AUDIT then some (putBits (s.reg Reg.STR_AUDIT) 0 16 (satTo 16 s.ftl.health.auditPasses))
  else none

/-- More of them: DRAM, Mantle, thermal, Belfry. -/
def State.viewTwo (s : State) (off : Nat) : Option Word :=
  if off = Reg.DRC_MAP then some s.dramMapWord
  else if off = Reg.MNT_STATUS then some (putBits (s.reg Reg.MNT_STATUS) 30 1 (bit s.board.pfiLow))
  else if off = Reg.THM_STATUS then some (putBits (s.reg Reg.THM_STATUS) 25 1 (bit (s.ftl.flush.kind == 2)))
  else if off = Reg.THM_THROTTLE then some s.throttleWord
  else if off = Reg.THM_HOT_BRIDGE then some s.hotWord
  else if off = Reg.BEL_TRIP_STATUS then some s.tripWord
  else if off = Reg.BEL_LIFECYCLE then some s.lifeWord
  else if off = Reg.BEL_OTP_DATA then some s.otpData
  else if off = Reg.BEL_MAINT_RUN then some (BitVec.ofNat 32 (s.actMask true))
  else if off = Reg.BEL_MAINT_WAIT then some (BitVec.ofNat 32 (s.actMask false))
  else if off = Reg.BEL_PLAN then some s.planWord
  else if off = Reg.BEL_HEALTH then some s.healthWord
  else if off = Reg.BEL_LOG_SEQ_LO then some (loHalf s.life.seq)
  else none

/-- The repeated derived registers: take service and gate. -/
def State.viewTake (s : State) (off : Nat) : Option Word :=
  match indexIn off (Reg.TAK_STREAM 0) 4 16, indexIn off (Reg.TAK_DMA_STAT 0) 0x10 64, indexIn off (Reg.STR_ADM_GRANTED 0) 4 5 with
  | some t, _, _ => some (s.streamWord t)
  | _, some d, _ => some (s.dmaStat d)
  | _, _, some r => some (BitVec.ofNat 32 (mapGet (fun _ => 0) s.win.grants r / mib))
  | _, _, _ => none

/-- The Sleeves, whose windows lie 0x4000 apart. -/
def State.viewSleeve (s : State) (off : Nat) : Option Word :=
  let i := (off - 0x00800000) / 0x4000
  let o := off - 0x4000 * i
  if off < 0x00800000 ∨ 0x00900000 ≤ off then none
  else if o = Reg.SLV_STATUS 0 then some (s.slvStatus i)
  else if o = Reg.SLV_XOVER 0 then some (s.xoverWord i)
  else match indexIn o (Reg.SLV_CTX 0 0) 4 64, indexIn o (Reg.SLV_DIE 0 0) 4 256 with
    | some c, _ => some (s.ctxWord i c)
    | _, some d => some (s.dieWord i d)
    | _, _ => none

/-- Links, key slots. -/
def State.viewLink (s : State) (off : Nat) : Option Word :=
  match indexIn off (Reg.JL_STATE 0) 0x1000 512, indexIn off (Reg.CPH_SLOT_STATE 0) 0x10 1024, indexIn off (Reg.CPH_SLOT_SALT 0) 0x10 1024,
    indexIn off (Reg.CPH_SLOT_INV_LO 0) 0x10 1024 with
  | some n, _, _, _ => some (s.jlWord n)
  | _, some k, _, _ => some (s.slotWord k)
  | _, _, some k, _ => some (s.keySlot k).salt
  | _, _, _, some k => some (loHalf (s.keySlot k).inv)
  | _, _, _, _ => none

/-- Strings, measurement registers. -/
def State.viewStr (s : State) (off : Nat) : Option Word :=
  let i := (off - 0x01C01100) / 0x40
  match indexIn off (Reg.MNT_STR_CAP 0) 0x40 4, indexIn off (Reg.MNT_STR_R 0) 0x40 4, indexIn (off - 0x40 * i) (Reg.BEL_MEAS_DATA 0 0) 4 12 with
  | some k, _, _ => some (BitVec.ofNat 32 (if s.fitted k then (s.str k).q else 0))
  | _, some k, _ => some (BitVec.ofNat 32 (if s.fitted k then s.rNow k else 0))
  | _, _, some w => if 0x01C01100 ≤ off ∧ off < 0x01C01500 then some (s.measWord i w) else none
  | _, _, _ =>
    if 0x03000000 ≤ off ∧ off < 0x03400000 then some (s.traceWord ((off - 0x03000000) / 0x100000) ((off - 0x03000000) % 0x100000)) else none

/-- The repeated derived registers. -/
def State.viewMany (s : State) (off : Nat) : Option Word :=
  if 0x00800000 ≤ off ∧ off < 0x00900000 then s.viewSleeve off
  else match s.viewTake off, s.viewLink off with
    | some w, _ => some w
    | _, some w => some w
    | _, _ => s.viewStr off

/-- The committed or current value of the register at an offset, whoever reads it. -/
def State.valueAt (s : State) (off : Nat) : Word :=
  match s.viewOne off, s.viewTwo off, s.viewMany off with
  | some w, _, _ => w
  | _, some w, _ => w
  | _, _, some w => w
  | _, _, _ => s.reg off

/-! ### 64-bit counters read by halves -/

/-- The _LO registers whose read latches the _HI half for the agent that reads (05 to 22, "a read latches bits 63:32"). -/
def latching (off : Nat) : Bool :=
  off == Reg.STP_TIME_LO || off == Reg.STR_SEQ_LO || off == Reg.FTL_SEQ_CEIL_LO || off == Reg.MNT_LOSS_TIME_LO || off == Reg.PWR_LAST_WAKE_TIME_LO ||
  off == Reg.BEL_LOG_SEQ_LO || (indexIn off (Reg.CPH_SLOT_INV_LO 0) 0x10 1024).isSome

/-- Bits 63:32 of such a counter now. -/
def State.highNow (s : State) (lo : Nat) : Word :=
  if lo = Reg.STP_TIME_LO then hiHalf s.steepleTime
  else if lo = Reg.STR_SEQ_LO then hiHalf s.ftl.seqNext
  else if lo = Reg.FTL_SEQ_CEIL_LO then hiHalf s.ftl.seqCeil
  else if lo = Reg.BEL_LOG_SEQ_LO then hiHalf s.life.seq
  else match indexIn lo (Reg.CPH_SLOT_INV_LO 0) 0x10 1024 with
    | some k => hiHalf (s.keySlot k).inv
    | none => s.reg (lo + 4)

/-- The latch of an agent for a _HI register. -/
def latchKey (agent hi : Nat) : Nat := 8 * hi + agent

/-- An agent makes accesses: a controller that does not exist under the PORT record in force, and the reserved number, make none (05 R148). -/
def State.accesses (s : State) (agent : Nat) : Bool := if agent ≤ 3 then s.hasCtrl agent else agent != 7

/-! ### A read -/

/-- What a read by an agent returns: all ones where the register file does not answer; the agent's number at GBL_AGENT; the staged value of an RWF
register to the owner of the open fitting (R154); a latched high half. -/
def State.readWord (s : State) (agent off : Nat) : Word :=
  if off % 4 ≠ 0 ∨ !s.answers off then 0xFFFFFFFF
  else if off = Reg.GBL_AGENT then BitVec.ofNat 32 agent
  else if isRwf off && s.fitOwns agent then
    match s.fit.staged.find? fun e => e.1 == off with
    | some e => e.2
    | none => s.reg off
  else if 4 ≤ off && latching (off - 4) then mapGet (fun _ => 0) s.latches (latchKey agent off)
  else s.valueAt off

/-- What a read of an agent returned is kept. -/
def State.keepRead (s : State) (agent v : Nat) : State := { s with reads := mapSet (fun _ => 0) s.reads agent v }

/-- A read of a _LO half latches its _HI half for the agent. -/
def State.latchRead (s : State) (agent off : Nat) : State :=
  if s.answers off && latching off then { s with latches := mapSet (fun _ => 0) s.latches (latchKey agent (off + 4)) (s.highNow off) } else s

/-- A read of 32 bits at a multiple of 4, or of 64 at a multiple of 8, the low register first, so that its _HI half is the one just latched; any
other returns all ones (in 64 bits where it is that wide, else in 32) and is recorded as violation kind 1 (00 R11, R12; 05 R147, R150). -/
def State.busRead (s : State) (agent off bits : Nat) : State :=
  if !s.accesses agent then s
  else if bits = 32 ∧ off % 4 = 0 then (s.keepRead agent (s.readWord agent off).toNat).latchRead agent off
  else if bits = 64 ∧ off % 8 = 0 then
    let s1 := s.latchRead agent off
    (s1.keepRead agent ((s.readWord agent off).toNat + 2 ^ 32 * (s1.readWord agent (off + 4)).toNat)).latchRead agent (off + 4)
  else
    let s1 := s.keepRead agent (if bits = 64 then 2 ^ 64 - 1 else 2 ^ 32 - 1)
    if s.mainUp then s1.violation 1 agent off else s1

end Sys2Proof.Machine
end

