-- ==== Sys2Proof/Machine/Registers.lean ====
section
/-!
DEFINITION. Machine/Registers.lean: writes of the register file (00 R11 to R18; 05 R147, R150, R155) and the adoption of a fitting (05 R161, R162).
-/
namespace Sys2Proof.Machine

/-! ### Writes by the access codes (00 Table 0.3) -/

/-- A write of a register without a behaviour of its own: RW bits are set, W1C bits written 1 are cleared, every other bit stays. -/
def State.plainWrite (s : State) (off : Nat) (data : Word) : State :=
  match regDesc off with
  | none => s
  | some d =>
    let rw := BitVec.ofNat 32 d.rw
    let w1c := BitVec.ofNat 32 d.w1c
    s.setReg off (((s.reg off &&& ~~~rw) ||| (data &&& rw)) &&& ~~~(data &&& w1c))

/-! ### Blocks with behaviours of their own -/

/-- Global block and events. -/
def State.writeGlobal (s : State) (agent off : Nat) (data : Word) : Option State :=
  if off = Reg.FIT_CMD then
    let op := bitsOf data 0 4
    some (s.fitCmdWrite agent fun t =>
      if op = 1 then t.fitBegin agent else if op = 2 then t.commit agent else if op = 3 then t.fitAbort agent else t.violation 4 agent off)
  else if off = Reg.FIT_TIMEOUT then some (s.fitTimeoutWrite data)
  else if off = Reg.GBL_ACCESS_VIOL_CTL then some (s.violClear data none)
  else if 0x02000000 ≤ off ∧ off < 0x02000000 + 0x10 * 2112 then
    some (if off % 16 = 12 then s else s.routeWrite agent ((off - 0x02000000) / 16) (off % 16 / 4) data)
  else match indexIn off (Reg.EVT_STATUS 0) 4 66, indexIn off (Reg.EVT_MASK 0) 4 66, indexIn off (Reg.EVT_FORCE 0) 4 66 with
    | some w, _, _ => some (s.statusClear w data 0)
    | _, some w, _ => some (s.maskWrite w data)
    | _, _, some w => some (s.forceWrite w data)
    | _, _, _ => none

/-- Take service and Steeple. A producer index written here names no FLUSH descriptor (log entry 41). -/
def State.writeTake (s : State) (agent off : Nat) (data : Word) : Option State :=
  match indexIn off (Reg.TAK_DMA_PI 0) 0x10 64, indexIn off (Reg.TAK_DMA_CTL 0) 0x10 64 with
  | some d, _ => some (s.fireDue.piWrite agent d data.toNat none)
  | _, some d => some (if data.getLsbD 0 then s.dmaResume d else s)
  | _, _ =>
    if off = Reg.STP_CAL_LO then some (s.calStage false data)
    else if off = Reg.STP_CAL_HI then some (s.calStage true data)
    else if off = Reg.STP_CAL_CTL then some (s.calWrite data)
    else none

/-- JL_CTL: RETRAIN_FULL over RETRAIN; both ignored unless the link is ACTIVE. -/
def State.jlCtlWrite (s : State) (n : Nat) (data : Word) : State :=
  if !s.jlActive n then s
  else if data.getLsbD 1 then (s.wr (Reg.JL_STATE_LAST_CAUSE n) 5).fullRetrain n false
  else if data.getLsbD 0 then s.enterRetrain n 5
  else s

/-- JL_MARGIN_CTL: its fields, START, ABORT. -/
def State.marginWrite (s : State) (n : Nat) (data : Word) : State :=
  let s1 := if data.getLsbD 31 then s.marginStart n data else s.marginStore n data
  if data.getLsbD 30 then s1.marginAbort n else s1

/-- JL_TEST_CTL: its fields, START, STOP; what the checker came to is open here (log entry 41). -/
def State.testCtlWrite (s : State) (n : Nat) (data : Word) : State :=
  let s1 := if data.getLsbD 31 then s.testStart n data else s.testStore n data
  if data.getLsbD 30 then
    let (a, s2) := s1.free
    let (b, s3) := s2.free
    s3.testStop n data (a.getLsbD 0) b.toNat
  else s1

def State.writeLink (s : State) (off : Nat) (data : Word) : Option State :=
  match indexIn off (Reg.JL_CTL 0) 0x1000 512, indexIn off (Reg.JL_MARGIN_CTL 0) 0x1000 512, indexIn off (Reg.JL_TEST_CTL 0) 0x1000 512 with
  | some n, _, _ => some (s.jlCtlWrite n data)
  | _, some n, _ => some (s.marginWrite n data)
  | _, _, some n => some (s.testCtlWrite n data)
  | _, _, _ => none

/-- DRC_TEST_CTL.CMD (17 R626): the outcome of a READ outside region 7 is open here (log entry 41). -/
def State.testCmdWrite (s : State) (data : Word) : State :=
  match bitsOf data 0 3 with
  | 1 => s.testWrite fun b => s.testData ++ b.drop 64
  | 2 => s.testWrite fun b => b.take 64 ++ s.testCheck
  | 3 => s.testWrite fun _ => s.testData ++ checkBytes s.testData
  | 4 => s.readRaw
  | 5 =>
    let (a, s1) := s.free
    let (b, s2) := s1.free
    s2.testRead (a.toNat % 3) (b.toNat % 36)
  | _ => s

/-- Mantle: loop slots, the loss filter, learning. -/
def State.writeMantle (s : State) (agent off : Nat) (data : Word) : Option State :=
  let slot (base : Nat) : Option Nat := indexIn off base 0x800 4
  if off = Reg.MNT_PFI_CFG then some (if agent = 4 then s.wr Reg.MNT_PFI_CFG_FILTER_NS (max 200 (min 20000 (bitsOf data 0 16))) else s)
  else if off = Reg.MNT_LEARN_CTL then some (s.learnWrite agent data)
  else match slot (Reg.MNT_LOOP_FLAGS 0), slot (Reg.MNT_LOOP_CTL 0), slot (Reg.MNT_TARGET 0), slot (Reg.MNT_TRC_CTL 0) with
    | some i, _, _, _ => some (s.loopFlagsClear i data 0)
    | _, some i, _, _ => some (s.loopCtlWrite agent i data)
    | _, _, some i, _ => some (s.targetWrite agent i data)
    | _, _, _, some i => some (s.trcWrite i data)
    | _, _, _, _ => none

/-- The mailboxes: written by their own agent alone (22 R731); GO leaves the request for the command that serves its opcode. -/
def State.writeMailbox (s : State) (agent off : Nat) (data : Word) : Option State :=
  if 0x01C00000 ≤ off ∧ off < 0x01C01000 then
    let c := (off - 0x01C00000) / 0x400
    if agent ≠ c then some s
    else if off = Reg.BEL_MB_CTL c then
      some (if data.getLsbD 0 then match c with
        | 0 => s.mbGo (.go 0)
        | 1 => s.mbGo (.go 1)
        | 2 => s.mbGo (.go 2)
        | _ => s.mbGo (.go 3) else s)
    else none
  else none

/-- A 32-bit write that the register file takes. -/
def State.applyWrite (s : State) (agent off : Nat) (data : Word) : State :=
  if isRwf off then s.fitStage agent off data
  else
    let own := (s.writeGlobal agent off data).or ((s.writeTake agent off data).or ((s.writeLink off data).or
      ((s.writeMantle agent off data).or (s.writeMailbox agent off data))))
    match own with
    | some t => t
    | none => if off = Reg.DRC_TEST_CTL then s.testCmdWrite data else s.plainWrite off data

/-! ### A write -/

/-- A 32-bit write at an aligned offset; discarded where the register file does not answer, a write of FIT_CMD there being a wake still. -/
def State.write32 (s : State) (agent off : Nat) (data : Word) : State :=
  if s.answers off then s.applyWrite agent off data
  else if off = Reg.FIT_CMD then s.fitCmdWrite agent id
  else s

/-- A write of 32 bits at a multiple of 4, or of 64 at a multiple of 8, low register first; any other is discarded and recorded as violation kind 1 (00 R11,
R12). -/
def State.busWrite (s : State) (agent off bits data : Nat) : State :=
  if !s.accesses agent then s
  else if bits = 32 ∧ off % 4 = 0 then s.write32 agent off (BitVec.ofNat 32 data)
  else if bits = 64 ∧ off % 8 = 0 then (s.write32 agent off (BitVec.ofNat 32 data)).write32 agent (off + 4) (BitVec.ofNat 32 (data / 2 ^ 32))
  else if s.mainUp then s.violation 1 agent off
  else s

/-! ### FIT_ADOPT -/

/-- A class reaches its safe point (05 Table 5.10): its committed values are in force, with what its block does on adopting them. -/
def State.adopt (s : State) (cls : Nat) : State :=
  if !s.fitPending cls then s
  else
    let s1 := s.fitAdoptClass cls
    if 2 ≤ cls ∧ cls ≤ 5 then s1.adoptMantle (cls - 2)
    else if cls = 6 then s1.modThm fun t => { t with fresh := true }
    else if cls = 8 then s1.adoptRole
    else s1

def execFitAdopt (cls : Fin 11) (s : State) : Host.Outcome State Fault Refusal := .next (if s.mainUp then s.adopt cls.val else s)

end Sys2Proof.Machine
end

