-- ==== Sys2Proof/Machine/Bus.lean ====
section
/-!
DEFINITION. Machine/Bus.lean: what a controller's function answers: its configuration space (06 R177, Tables 6.1 and 6.2), BAR0 with the NVMe registers, the
doorbells, the MSI-X table and the pending bits (R178, R181, Table 6.3), and BAR2, the register file (00 R11, R12; 05 R147, R148, R150). The places of fields
that PCIe Base 6.0 and NVMe Base 2.0 define are theirs, and where a capability stands is the model's choice (log entry 23).
-/
namespace Sys2Proof.Machine

/-! ### Configuration space -/

/-- A field of the PORT record of a controller's port. -/
def State.portOf (s : State) (c off : Nat) : Nat := portGet s.image.cfg (c / 2) off

/-- The capabilities in their order: offset, identifier, version (0 for those of the first 256 bytes). Power Management, MSI-X, PCI Express; Advanced Error
Reporting, Device Serial Number, Secondary PCI Express, Data Link Feature, Physical Layer 16.0, Lane Margining, Physical Layer 32.0 and 64.0, Flit Logging. -/
def pciCaps : List (Nat × Nat × Nat) :=
  [(0x40, 0x01, 0), (0x50, 0x11, 0), (0x70, 0x10, 0), (0x100, 0x0001, 2), (0x150, 0x0003, 1), (0x160, 0x0019, 1), (0x190, 0x0025, 1), (0x1A0, 0x0026, 1),
   (0x1D0, 0x0027, 1), (0x220, 0x002A, 1), (0x260, 0x0031, 1), (0x280, 0x0032, 1)]

/-- The capability that follows one, in its list; 0 ends it. -/
def nextCap (off : Nat) : Nat := ((pciCaps.find? fun x => off < x.1 && (x.1 < 0x100) == (off < 0x100)).map fun x => x.1).getD 0

/-- The header of a capability, without the register its first dword may hold in bits 31:16. -/
def capHead (x : Nat × Nat × Nat) : Nat := if x.1 < 0x100 then x.2.1 + 256 * nextCap x.1 else x.2.1 + 65536 * x.2.2 + 1048576 * nextCap x.1

/-- Writable bits of a dword of configuration space. -/
def cfgRw (off : Nat) : Word :=
  match off with
  | 0x04 => 0x00000546
  | 0x0C => 0x000000FF
  | 0x10 => 0xFFFE0000
  | 0x14 => 0xFFFFFFFF
  | 0x18 => 0xFC000000
  | 0x1C => 0xFFFFFFFF
  | 0x3C => 0x000000FF
  | 0x44 => 0x00000003
  | 0x78 => 0x000079FF
  | 0x80 => 0x000000C3
  | 0x98 => 0x00001000
  | 0xA0 => 0x0000000F
  | 0x108 => 0x07FFF030
  | 0x10C => 0x07FFF030
  | 0x114 => 0x0000F1C1
  | _ => 0

/-- Bits of a dword that a 1 written clears: device status, and the two status registers of Advanced Error Reporting. -/
def cfgW1c (off : Nat) : Word := if off = 0x78 then 0x000F0000 else if off = 0x104 ∨ off = 0x110 then 0xFFFFFFFF else 0

/-- What the writable bits hold after a reset of the function. -/
def cfgInit (off : Nat) : Word := if off = 0x78 then 0x00002810 else if off = 0x10C then 0x00462030 else if off = 0x114 then 0x00002000 else 0

/-- The kept bits of a dword. -/
def Pcie.word (p : Pcie) (off : Nat) : Word := match p.words.find? fun e => e.1 == off with | some e => e.2 | none => cfgInit off

/-- The bits of a dword that are not kept: Table 6.1 and the values of Table 6.2. -/
def State.cfgFixed (s : State) (c off : Nat) : Nat :=
  let k := s.ctrl c
  let speed (rate : Nat) : Nat := 6 - rate
  match off with
  | 0x00 => 0x51201F1C
  | 0x04 => 0x00100000 + 0x00080000 * bit k.pcie.inta
  | 0x08 => s.rd Reg.GBL_ID_STEPPING + 0x01080200
  | 0x10 => 4
  | 0x18 => 4
  | 0x2C => s.portOf c 0x10 + 65536 * s.portOf c 0x12
  | 0x34 => 0x40
  | 0x3C => 0x0100
  | 0x40 => 0x00030000
  | 0x44 => 0x00000008
  | 0x50 => 65536 * (s.portOf c 0x0C - 1) + 0x40000000 * bit k.pcie.functionMask + 0x80000000 * bit k.pcie.msixEnabled
  | 0x54 => 0x00010000
  | 0x58 => 0x00018000
  | 0x70 => 0x00020000
  | 0x74 => 0x10008020 + s.portOf c 0x0E
  | 0x7C => speed (s.portOf c 3) + 16 * 2 ^ s.laneLimit c + 0x800 + 0x01000000 * (c / 2)
  | 0x80 => if k.linkUp then 65536 * speed k.linkRate + 1048576 * k.linkWidth else 0
  | 0x94 => 0x00030000
  | 0x9C => 0x7E - 2 ^ (7 - s.portOf c 3) * (2 ^ s.portOf c 3 - 1)
  | 0x154 => leAt s.uniqueId 0 4
  | 0x158 => leAt s.uniqueId 4 4
  | _ => if 0x160 ≤ off ∧ off < 0x2A0 ∧ !(pciCaps.any fun x => x.1 == off) then (Config.pcieWord off).toNat else 0

/-- A dword of configuration space as it reads. -/
def State.cfgWord (s : State) (c off : Nat) : Word :=
  let head := match pciCaps.find? fun x => x.1 == off with | some x => capHead x | none => 0
  BitVec.ofNat 32 (s.cfgFixed c off + head) ||| (s.ctrl c).pcie.word off

/-- The bytes a write of a dword enables. -/
def byteMask (be : Fin 16) : Word := BitVec.ofNat 32 (((List.range 4).map fun i => if be.val.testBit i then 255 * 256 ^ i else 0).sum)

/-- A configuration write: the writable bits, MSI-X Enable and Function Mask, which send what they held back, and Initiate Function Level Reset. -/
def State.cfgWrite (s : State) (c off : Nat) (data : Word) (be : Fin 16) : State :=
  let m := byteMask be
  let p := (s.ctrl c).pcie
  let rw := cfgRw off &&& m
  let v := ((p.word off &&& ~~~rw) ||| (data &&& rw)) &&& ~~~(data &&& m &&& cfgW1c off)
  let s1 := if cfgRw off = 0 ∧ cfgW1c off = 0 then s else s.modPcie c fun x => { x with words := (x.words.filter fun e => e.1 != off) ++ [(off, v)] }
  if off = 0x50 ∧ m.getLsbD 31 then (s1.modPcie c fun x => { x with msixEnabled := data.getLsbD 31, functionMask := data.getLsbD 30 }).sendPending c
  else if off = 0x78 ∧ m.getLsbD 15 ∧ data.getLsbD 15 ∧ s.mainUp then s1.ctrlReset c
  else s1

/-- CONFIGURATION_REQUEST (03 R86, 20 R698): Request Retry Status until MAIN_INIT is complete, a successful completion from then on, in Deep Sleep from
retained state; a controller that does not exist answers nothing. `answer` is how the last one was answered. -/
def State.configRequest (s : State) (r : CfgReq) : State :=
  let c := r.ctrl.val
  if !s.hasCtrl c || !s.board.mainRunning then s
  else if s.phase < 5 then s.modPcie c fun x => { x with answer := some none }
  else match r.write with
    | none => s.modPcie c fun x => { x with answer := some (some (s.cfgWord c r.off)) }
    | some (w, be) => (s.modPcie c fun x => { x with answer := some (some 0) }).cfgWrite c r.off w be

def execConfigurationRequest (port : CfgReq) (s : State) : Host.Outcome State Fault Refusal := .next (s.configRequest port)

/-! ### BAR0 -/

/-- CAP (Table 6.3). -/
def State.cap (s : State) (c : Nat) : Nat := (s.portOf c 8 - 1) + 0x10000 + 0x20000 + 0x1000000 * 120 + 2 ^ 36 + 2 ^ 37 + 2 ^ 54

/-- CC and CSTS. -/
def Ctrl.ccWord (k : Ctrl) : Word := k.cc ||| BitVec.ofNat 32 (bit k.en + 16384 * k.shn)
def Ctrl.csts (k : Ctrl) : Word := BitVec.ofNat 32 (bit k.rdy + 2 * bit k.cfs + 4 * k.shst)

/-- The dword of BAR0 at a multiple of 4: NVMe registers, MSI-X table, pending bits; any other, a doorbell among them, reads as 0. -/
def State.bar0Word (s : State) (c off : Nat) : Word :=
  let k := s.ctrl c
  let v := (off - 0x10000) / 16
  match off with
  | 0x00 => BitVec.ofNat 32 (s.cap c)
  | 0x04 => BitVec.ofNat 32 (s.cap c / 2 ^ 32)
  | 0x08 => 0x00020000
  | 0x0C => k.intMask
  | 0x10 => k.intMask
  | 0x14 => k.ccWord
  | 0x1C => k.csts
  | 0x24 => k.aqa
  | 0x28 => BitVec.ofNat 32 k.asq
  | 0x2C => BitVec.ofNat 32 (k.asq / 2 ^ 32)
  | 0x30 => BitVec.ofNat 32 k.acq
  | 0x34 => BitVec.ofNat 32 (k.acq / 2 ^ 32)
  | _ =>
    if 0x10000 ≤ off ∧ v < s.portOf c 0x0C ∧ off < 0x18000 then
      (if off % 16 = 12 then BitVec.ofNat 32 (bit (!k.pcie.vecOpen.contains v)) else mapGet (fun _ => 0) k.pcie.table (off - 0x10000))
    else if 0x18000 ≤ off ∧ off < 0x18100 then BitVec.ofNat 32 (((List.range 32).map fun i => if k.pcie.pba.contains (8 * (off - 0x18000) + i) then 2 ^ i else 0).sum)
    else 0

/-- A write of CC: EN from 0 to 1 enables with the queues of AQA, from 1 to 0 is a controller reset; SHN is a shutdown notification. -/
def State.ccWrite (s : State) (c : Fin 4) (w : Word) : State :=
  let k := s.ctrl c.val
  let s1 := if w.getLsbD 0 && !k.en then s.enable c.val (bitsOf k.aqa 0 12) (bitsOf k.aqa 16 12) else if !w.getLsbD 0 && k.en then s.ctrlReset c.val else s
  let s2 := if bitsOf w 14 2 = (s1.ctrl c.val).shn then s1 else (s1.shutdown c (bitsOf w 14 2)).settleDma
  s2.modCtrl c.val fun x => { x with cc := w &&& 0x00FF3FF0 }

/-- A dword written to the MSI-X table: address and data words are kept, Vector Control masks and unmasks; what was pending is sent. -/
def State.msixWrite (s : State) (c off : Nat) (w : Word) : State :=
  let v := off / 16
  if off % 16 = 12 then
    (s.modPcie c fun x => { x with vecOpen := if w.getLsbD 0 then x.vecOpen.filter fun y => y != v else if x.vecOpen.contains v then x.vecOpen else x.vecOpen ++ [v] }).sendPending c
  else s.modPcie c fun x => { x with table := mapSet (fun _ => 0) x.table off w }

/-- The half of a 64-bit number a dword replaces. -/
def setHalf (x : Nat) (hi : Bool) (w : Word) : Nat := if hi then x % 2 ^ 32 + 2 ^ 32 * w.toNat else x / 2 ^ 32 * 2 ^ 32 + w.toNat

/-- A doorbell write (R178): tail of submission queue y at 0x1000 + 8y, head of completion queue y at 0x1004 + 8y, for y up to IOQ_PAIRS. -/
def State.doorbell (s : State) (c off : Nat) (w : Word) : State :=
  let y := (off - 0x1000) / 8
  let v := bitsOf w 0 16
  if s.ioqPairs c < y ∨ !(s.ctrl c).en then s
  else if off % 8 = 0 then s.sqDoorbell c y v
  else if s.mainUp then s.cqDoorbell c y v
  else s

/-- A dword written to BAR0; a write elsewhere than to a register is discarded. In Deep Sleep doorbells alone are taken (20 R698). -/
def State.bar0Write (s : State) (c : Fin 4) (off : Nat) (w : Word) : State :=
  let n := c.val
  if 0x1000 ≤ off ∧ off < 0x10000 then s.doorbell n off w
  else if !s.mainUp then s
  else match off with
    | 0x0C => s.modCtrl n fun k => { k with intMask := k.intMask ||| w }
    | 0x10 => s.modCtrl n fun k => { k with intMask := k.intMask &&& ~~~w }
    | 0x14 => s.ccWrite c w
    | 0x20 => if w = 0x4E564D65 then s.nssr else s
    | 0x24 => s.modCtrl n fun k => { k with aqa := w &&& 0x0FFF0FFF }
    | 0x28 => s.modCtrl n fun k => { k with asq := setHalf k.asq false (w &&& 0xFFFFF000) }
    | 0x2C => s.modCtrl n fun k => { k with asq := setHalf k.asq true w }
    | 0x30 => s.modCtrl n fun k => { k with acq := setHalf k.acq false (w &&& 0xFFFFF000) }
    | 0x34 => s.modCtrl n fun k => { k with acq := setHalf k.acq true w }
    | _ => if 0x10000 ≤ off ∧ off < 0x18000 ∧ (off - 0x10000) / 16 < s.portOf n 0x0C then s.msixWrite n (off - 0x10000) w else s

/-- BAR0 of a controller answers: the controller exists and the main domain runs, Deep Sleep included (20 R698). -/
def State.bar0Up (s : State) (agent : Nat) : Bool := decide (agent < 4) && s.hasCtrl agent && s.board.mainRunning

/-- A read of BAR0 of 32 bits at a multiple of 4 or of 64 at a multiple of 8; any other reads as 0. -/
def State.bar0Read (s : State) (agent off bits : Nat) : State :=
  if !s.bar0Up agent then s
  else if bits = 32 ∧ off % 4 = 0 then s.keepRead agent (s.bar0Word agent off).toNat
  else if bits = 64 ∧ off % 8 = 0 then s.keepRead agent ((s.bar0Word agent off).toNat + 2 ^ 32 * (s.bar0Word agent (off + 4)).toNat)
  else s.keepRead agent 0

/-- A write of BAR0 by the controller whose function it is. -/
def State.bar0Bus (s : State) (agent off bits data : Nat) : State :=
  if !s.bar0Up agent then s
  else
    let c : Fin 4 := Fin.ofNat 4 agent
    if bits = 32 ∧ off % 4 = 0 then s.bar0Write c off (BitVec.ofNat 32 data)
    else if bits = 64 ∧ off % 8 = 0 then (s.bar0Write c off (BitVec.ofNat 32 data)).bar0Write c (off + 4) (BitVec.ofNat 32 (data / 2 ^ 32))
    else s

/-! ### Accesses -/

/-- SPLIT_COUNTER_LO_READ: a read by an agent; at an offset that is no split counter's it is a plain read. -/
def execSplitCounterLoRead (agent : Fin 8) (off : ReadAt) (s : State) : Host.Outcome State Fault Refusal :=
  .next (match off.off with
    | .bar2 o => s.busRead agent.val o off.bits
    | .bar0 o => s.bar0Read agent.val o off.bits)

def execRegisterWrite (agent : Fin 8) (off : BusAt) (bits data : Nat) (s : State) : Host.Outcome State Fault Refusal :=
  .next (match off with
    | .bar2 o => s.busWrite agent.val o bits data
    | .bar0 o => s.bar0Bus agent.val o bits data)

end Sys2Proof.Machine
end

