-- ==== Sys2Proof/Machine/Logs.lean ====
section
/-!
DEFINITION. Machine/Logs.lean: Get Log Page (06 R221 to R223, Table 6.8; 04 R140; 07 R293; 12 R458; 19 R686; 21 R725; 22 R749). The layouts of the
pages NVMe Base 2.0 gives are PRESUMED (log entry 23).
-/
namespace Sys2Proof

/-- Log Specific Field. -/
def Sqe.lsf (c : Sqe) : Nat := Machine.dwBits c.cdw10 8 7

/-- Retain Asynchronous Event. -/
def Sqe.rae (c : Sqe) : Bool := c.cdw10.getLsbD 15

/-- Bytes asked for: NUMD dwords, 0's based. -/
def Sqe.logBytes (c : Sqe) : Nat := 4 * (Machine.dwBits c.cdw10 16 16 + 65536 * Machine.dwBits c.cdw11 0 16 + 1)

/-- Where in the page. -/
def Sqe.logOffset (c : Sqe) : Nat := c.cdw12.toNat + 2 ^ 32 * c.cdw13.toNat

/-- The whole subsystem is named. -/
def Sqe.wholeDevice (c : Sqe) : Bool := c.nsid == 0 || c.nsid == 0xFFFFFFFF

end Sys2Proof

namespace Sys2Proof.Machine

/-! ### The part every page shares -/

/-- A page's bytes for the command's offset and length: an offset that is no multiple of 4 or lies past the page is refused; the data ends with the
page (log entry 42). With Retain Asynchronous Event clear, further events of the page are no longer withheld (05 R171). -/
def State.givePage (s : State) (c : Sqe) (page : Nat) (body : List Byte) : State :=
  if c.logOffset % 4 ≠ 0 ∨ body.length < c.logOffset then s.fail c stInvalidField
  else
    let s1 := if c.rae then s else s.modCtrl c.ctrl.val fun k => { k with withheld := k.withheld.filter fun p => p != page }
    s1.complete c stOk 0 0 (slice body c.logOffset c.logBytes)

/-- A page of the whole subsystem: any other NSID is refused (R221). -/
def State.givePageAll (s : State) (c : Sqe) (page : Nat) (body : State → List Byte) : State :=
  if c.wholeDevice then s.givePage c page (body s) else s.fail c stInvalidField

/-- Get Log Page runs like every admin command, also during a sanitize (R214). -/
def State.getLog (s : State) (c : Sqe) (f : State → State) : State := s.admin c .always f

/-- GENERATION of a page whose contents are partly derived: at least `least`; one more, and an open number beyond, where the rest differs from what was
last read; what it was where nothing differs (log entry 43). -/
def State.pageGen (s : State) (page lsf least : Nat) (body : List Byte) : Nat × State :=
  let prev := maxOf ((s.pages.filter fun e => e.1 / 4 == page).map fun e => e.2.1)
  let same := match s.pages.find? fun e => e.1 == 4 * page + lsf with | some e => e.2.2 == body | none => true
  let (w, s1) := s.free
  let g := if same && decide (least ≤ prev) then prev else max least (prev + 1 + w.toNat % 65536)
  (g % 2 ^ 32, { s1 with pages := mapSet (fun _ => (0, [])) s1.pages (4 * page + lsf) (g, body) })

/-! ### Pages of NVMe Base 2.0 -/

/-- The log page identifiers of Table 6.8. -/
def logPages : List Nat := [0x00, 0x01, 0x02, 0x03, 0x04, 0x05, 0x81, 0xC0, 0xC1, 0xC2, 0xC3, 0xC4]

/-- GET_LOG_SUPPORTED_PAGES; an identifier that is no page of Table 6.8 is answered here too. -/
def State.logSupported (s : State) (c : Sqe) : State :=
  if !logPages.contains (dwBits c.cdw10 0 8) then s.fail c stInvalidLogPage
  else s.givePageAll c 0 fun _ => (List.range 256).flatMap fun p => leBytes 4 (bit (logPages.contains p))

def execGetLogSupportedPages (c : Sqe) (s : State) : Host.Outcome State Fault Refusal := .next (s.getLog c fun t => t.logSupported c)

/-- An Error Information entry. -/
def ErrEntry.bytes (e : ErrEntry) : List Byte :=
  layout 64 [(0, leBytes 8 e.count), (8, leBytes 2 e.sq), (10, leBytes 2 e.cid), (12, leBytes 2 (2 * (e.sc + 256 * e.sct))), (14, leBytes 2 0xFFFF),
    (24, leBytes 4 e.nsid)]

/-- GET_LOG_ERROR_INFORMATION: 256 entries, newest first (R196). -/
def execGetLogErrorInformation (c : Sqe) (s : State) : Host.Outcome State Fault Refusal :=
  .next (s.getLog c fun t => t.givePageAll c 0x01 fun u => padTo 16384 ((u.ctrl c.ctrl.val).errLog.flatMap ErrEntry.bytes))

/-- Available spare, percent of the spare at the first start (11 Table 11.10). -/
def State.availableSpare (s : State) : Nat :=
  match s.ftl.spareAtStart with
  | some n => if n = 0 then 100 else min 100 (100 * s.spareUnits / n)
  | none => 100

/-- The critical warning bits (R222). -/
def State.criticalWarning (s : State) : Nat :=
  bit (decide (s.availableSpare < 10)) + 2 * bit (s.thm.warn || s.thm.riseW) + 4 * bit (s.ftl.stripes.any s.isLost) + 16 * bit s.degraded

/-- The composite temperature, in kelvin; open before the first sensor result. -/
def State.composite (s : State) (open' : Nat) : Nat := match s.thm.last with | some v => (kelvin v).toNat | none => open' % 65536

/-- The SMART / Health page. Controller busy time and unsafe shutdowns have no source in the manual: free values (log entry 42). -/
def State.smartBody (s : State) (busy unsafeN temp : Nat) : List Byte :=
  let t := s.thm
  layout 512 [(0, leBytes 1 s.criticalWarning), (1, leBytes 2 (s.composite temp)), (3, leBytes 1 s.availableSpare), (4, leBytes 1 10),
    (5, leBytes 1 (s.ctr 0xB0)), (32, leBytes 16 (ceilDiv s.path.unitsRead 512000)), (48, leBytes 16 (ceilDiv s.path.unitsWritten 512000)),
    (64, leBytes 16 s.path.hostReads), (80, leBytes 16 s.path.hostWrites), (96, leBytes 16 busy), (112, leBytes 16 (s.ctr 0x18)),
    (128, leBytes 16 (s.ctr 0x08 / 3600)), (144, leBytes 16 unsafeN), (160, leBytes 16 (s.ctr mediaErrors)),
    (176, leBytes 16 ((List.range 4).map fun c => (s.ctrl c).errCount).sum), (192, leBytes 4 (t.warnNs / 60000000000)),
    (196, leBytes 4 (t.critNs / 60000000000)), (216, leBytes 4 t.tmt1N), (220, leBytes 4 t.tmt2N), (224, leBytes 4 (t.tmt1Ns / 1000000000)),
    (228, leBytes 4 (t.tmt2Ns / 1000000000))]

/-- GET_LOG_SMART_HEALTH. -/
def State.logSmart (s : State) (c : Sqe) : State :=
  let (a, s1) := s.free
  let (b, s2) := s1.free
  let (d, s3) := s2.free
  s3.givePageAll c 0x02 fun t => t.smartBody a.toNat b.toNat d.toNat

def execGetLogSmartHealth (c : Sqe) (s : State) : Host.Outcome State Fault Refusal := .next (s.getLog c fun t => t.logSmart c)

/-- The revision of the main firmware in a slot. -/
def State.slotRevision (s : State) (slot : Nat) : List Byte :=
  match s.slotRec 1 slot with
  | some r => padSpaces 8 (versionText (BitVec.ofNat 32 r.version))
  | none => List.replicate 8 0

/-- GET_LOG_FIRMWARE_SLOT (03 R106, R108, R111): the slot the running firmware was loaded from, a trial slot that does not run yet, and both
revisions. -/
def State.fwSlotBody (s : State) : List Byte :=
  let k := s.kind 1
  let run := mapGet (fun _ => 2) s.boot.running 1
  let next := match k.trial with | some t => if t = run then 0 else t + 1 | none => 0
  layout 512 [(0, leBytes 1 ((if run < 2 then run else k.active) + 1 + 16 * next)), (8, s.slotRevision 0), (16, s.slotRevision 1)]

def execGetLogFirmwareSlot (c : Sqe) (s : State) : Host.Outcome State Fault Refusal :=
  .next (s.getLog c fun t => t.givePageAll c 0x03 State.fwSlotBody)

/-- GET_LOG_CHANGED_NAMESPACES: the namespaces changed since the page was last read; more than 1,024 read as FFFFFFFFh. -/
def State.logChanged (s : State) (c : Sqe) : State :=
  let l := sortByKey id (s.ctrl c.ctrl.val).changedNs
  let s1 := s.givePageAll c 0x04 fun _ => padTo 4096 (if 1024 < l.length then leBytes 4 0xFFFFFFFF else l.flatMap (leBytes 4))
  if c.wholeDevice ∧ !c.rae then s1.modCtrl c.ctrl.val fun k => { k with changedNs := [] } else s1

def execGetLogChangedNamespaces (c : Sqe) (s : State) : Host.Outcome State Fault Refusal := .next (s.getLog c fun t => t.logChanged c)

/-- The effects of an admin opcode (R223): supported, LBCC (bit 1), NCC (bit 2), CSE 001b (bits 18:16). -/
def adminEffect (op : Nat) : Nat :=
  if op = 0x84 then 0x10007
  else if op = 0x0D then 7
  else if [0x00, 0x01, 0x02, 0x04, 0x05, 0x06, 0x08, 0x09, 0x0A, 0x0C, 0x10, 0x11, 0x1D, 0x1E, 0xC1, 0xC5, 0xC8, 0xC9, 0xCC, 0xCD, 0xCE, 0xD1].contains op then 1
  else 0

/-- The effects of an I/O opcode. -/
def ioEffect (op : Nat) : Nat :=
  if [0x01, 0x08, 0x09, 0x81, 0x85].contains op then 3 else if [0x00, 0x02, 0x0C].contains op then 1 else 0

/-- GET_LOG_COMMANDS_EFFECTS. -/
def effectsBody : List Byte :=
  padTo 4096 ((List.range 256).flatMap (fun op => leBytes 4 (adminEffect op)) ++ (List.range 256).flatMap fun op => leBytes 4 (ioEffect op))

def execGetLogCommandsEffects (c : Sqe) (s : State) : Host.Outcome State Fault Refusal :=
  .next (s.getLog c fun t => t.givePageAll c 0x05 fun _ => effectsBody)

/-- The Block Erase estimate (R215), in seconds: the slowest populated personality. -/
def State.eraseEstimate (s : State) : Nat :=
  ceilDiv (maxOf (s.persTypes.map fun ty => (s.pers ty).get 0x20 * (s.pers ty).get 0x26)) 1000000

/-- GET_LOG_SANITIZE_STATUS (R214, R215); whether data was written since the last sanitize (Global Data Erased) is open. -/
def State.logSanitize (s : State) (c : Sqe) : State :=
  let (g, s1) := s.sanStep.free
  let x := s1.nvme.sanitize
  let none32 := leBytes 4 0xFFFFFFFF
  s1.givePageAll c 0x81 fun t =>
    layout 512 [(0, leBytes 2 (if x.action = 0 then 65535 else x.progress)), (2, leBytes 2 (x.status + 256 * bit (g.getLsbD 0))), (4, leBytes 4 x.cdw10),
      (8, none32), (12, leBytes 4 t.eraseEstimate), (16, leBytes 4 2), (20, none32), (24, none32), (28, none32)]

def execGetLogSanitizeStatus (c : Sqe) (s : State) : Host.Outcome State Fault Refusal := .next (s.getLog c fun t => (t.logSanitize c).settleDma)

/-! ### 0xC0 Lifetime Histograms (22 R749) -/

/-- The header of a list of entries. -/
def listHeader (gen count : Nat) : List Byte := padTo 64 (leBytes 4 gen ++ leBytes 4 count)

/-- Table 22.9. -/
def State.countersBody (s : State) : List Byte :=
  let c (off n : Nat) : Nat × List Byte := (off, leBytes n (s.ctr off))
  layout 512 ([c 0 4, c 0x08 8, c 0x10 8, c 0x18 8, c 0x20 8, c 0x28 8, c 0x30 8, c 0x38 8, c 0x40 8, c 0x48 8, c 0x50 8, c 0x58 8, c 0x60 8, c 0x68 8, c 0x70 8,
    c 0x78 8, (0x80, leBytes 2 s.life.links.length), (0x82, leBytes 1 s.life.channels.length), (0x83, leBytes 1 s.life.remaps.length)] ++
    [c 0x88 4, c 0x8C 4, c 0x90 8, c 0x98 4, c 0x9C 4, c 0xA0 4, c 0xA4 4, c 0xA8 4, c 0xAC 4, c 0xB0 1, c 0xB4 4, c 0xB8 2])

/-- A bin of Table 22.10. -/
def State.histBin (s : State) (index b : Nat) : Nat := mapGet (fun _ => 0) s.life.hist (32 * index + b)

def State.histBody (s : State) : List Byte :=
  listHeader (s.ctr 0) 8 ++ (List.range 8).flatMap fun i => (List.range 32).flatMap fun b => leBytes 8 (s.histBin i b)

def State.eventsBody (s : State) : List Byte :=
  let l := s.life.events.take 256
  padTo 16448 (listHeader (s.ctr 0) l.length ++ l.flatMap EventRec.bytes)

/-- A trip record (Table 21.4). -/
def TripRec.bytes (t : TripRec) : List Byte :=
  let b := layout 124 [(0, leBytes 4 0x51584349), (4, leBytes 2 1), (6, leBytes 1 t.kind), (7, leBytes 1 t.cause), (8, leBytes 8 t.seq), (16, leBytes 8 t.time),
    (0x18, leBytes 2 t.trigger), (0x1A, leBytes 2 t.peak), (0x1C, leBytes 2 t.rate), (0x1E, leBytes 2 t.link), (0x20, leBytes 2 t.bridge),
    (0x22, leBytes 2 t.cool), (0x24, leBytes 1 t.flush), (0x28, leBytes 4 t.flushUs), (0x2C, leBytes 4 t.occ), (0x30, leBytes 4 t.undurable)]
  b ++ leBytes 4 (crc32c b)

def State.tripsBody (s : State) : List Byte :=
  let l := s.life.trips.take 64
  padTo 8256 (listHeader (s.ctr 0) l.length ++ l.flatMap TripRec.bytes)

/-- GET_LOG_LIFETIME_HISTOGRAMS. -/
def State.logLifetime (s : State) (c : Sqe) : State :=
  match c.lsf with
  | 0 => s.givePageAll c 0xC0 State.countersBody
  | 1 => s.givePageAll c 0xC0 State.histBody
  | 2 => s.givePageAll c 0xC0 State.eventsBody
  | 3 => s.givePageAll c 0xC0 State.tripsBody
  | _ => s.fail c stInvalidField

def execGetLogLifetimeHistograms (c : Sqe) (s : State) : Host.Outcome State Fault Refusal := .next (s.getLog c fun t => t.logLifetime c)

/-! ### 0xC1 Clamp Report (04 R139 to R141) -/

def ClampEntry.bytes (e : ClampEntry) : List Byte :=
  leBytes 2 e.recordType ++ leBytes 2 e.inst ++ leBytes 4 e.location ++ leBytes 1 e.width ++ leBytes 1 e.lsb ++ leBytes 1 e.reason ++ leBytes 1 e.origin ++
    leBytes 4 0 ++ leBytes 8 e.written ++ leBytes 8 e.applied

/-- A report, with room for 1,024 entries. -/
def ClampReport.bytes (r : ClampReport) : List Byte :=
  layout 32832 [(0, leBytes 4 r.generation), (4, leBytes 2 r.entries.length), (6, leBytes 1 r.source),
    (7, leBytes 1 (bit r.overflow + 2 * bit r.fallback + 4 * bit r.noImage + 8 * bit r.rollback)), (8, leBytes 1 r.slot), (9, leBytes 1 r.refused),
    (10, leBytes 1 r.check), (11, leBytes 1 r.refuseCause), (12, leBytes 2 r.checkType), (14, leBytes 2 r.checkInstance), (16, leBytes 4 r.imageVersion),
    (20, leBytes 4 r.fitting), (24, leBytes 8 r.imageId), (32, leBytes 4 r.timeMs), (64, r.entries.flatMap ClampEntry.bytes)]

/-- GET_LOG_CLAMP_REPORT (Table 4.19); a report not yet produced reads as zeros. -/
def State.logClamp (s : State) (c : Sqe) : State :=
  let give (r : Option ClampReport) : State := s.givePageAll c 0xC1 fun _ => match r with | some x => x.bytes | none => List.replicate 32832 0
  match c.lsf with
  | 0 => give s.image.newest
  | 1 => give s.image.lastLoad
  | 2 => give s.image.lastCommit
  | _ => s.fail c stInvalidField

def execGetLogClampReport (c : Sqe) (s : State) : Host.Outcome State Fault Refusal := .next (s.getLog c fun t => t.logClamp c)

/-! ### 0xC2 Stripe Health (12 R458) -/

/-- Units of 1/65,536 of the rebuild in progress; 0 where none is. -/
def State.rebuildProgress (s : State) : Nat :=
  let n := s.ftl.rebuildTotal
  if n = 0 then 0 else min 65535 ((n - s.rebuildWork.length) * 65536 / n)

/-- Table 12.7 after GENERATION; the three counts of a namespace where one is named. -/
def State.summaryBody (s : State) (nsid : Nat) : List Byte :=
  let h := s.ftl.health
  let of (m : SMap Nat) : Nat := if nsid = 0xFFFFFFFF then (m.map fun e => e.2).sum else mapGet (fun _ => 0) m nsid
  let count (p : Stripe → Bool) : Nat := (s.ftl.stripes.filter p).length
  let r (f : Field) : Nat := s.rd f
  layout 512 [
    (4, leBytes 4 (r Reg.STR_STATUS_REBUILD + 2 * r Reg.STR_STATUS_AUDIT + 4 * r Reg.STR_STATUS_LOST + 8 * r Reg.STR_STATUS_EXPOSED + 16 * r Reg.STR_STATUS_NONSLOW_LOW)),
    (8, leBytes 4 nsid), (0x0C, leBytes 2 (linksPopulated s.image.cfg)), (0x0E, leBytes 2 (s.linksIn 1).length), (0x10, leBytes 2 (s.linksIn 2).length),
    (0x12, leBytes 2 (s.linksIn 6).length), (0x14, leBytes 1 ((List.range 64).filter fun i => s.rd (Reg.SLV_STATUS_BYPASSED i) == 1).length),
    (0x18, leBytes 4 (count s.isReduced)), (0x1C, leBytes 4 (count s.isExposed)), (0x20, leBytes 4 (count s.isLost)), (0x28, leBytes 8 (of h.rebuilt)),
    (0x30, leBytes 8 (of h.unreadable)), (0x38, leBytes 8 (of h.disagree)), (0x40, leBytes 8 h.mismatches), (0x48, leBytes 8 h.auditPasses),
    (0x50, leBytes 4 (r Reg.STR_AUDIT_PROGRESS)), (0x54, leBytes 4 s.rebuildProgress), (0x58, leBytes 8 h.auditLastEnd),
    (0x60, leBytes 8 (if s.rebuilding then 4096 * s.rebuildWork.length else 0)), (0x68, leBytes 8 h.metaRewrites), (0x70, leBytes 8 h.programFails),
    (0x78, leBytes 8 h.resent)]

/-- Table 12.8. -/
def State.linkEntry (s : State) (n : Nat) : List Byte :=
  let h := s.ftl.health
  let group := match groupOf s.image.cfg n with | some g => g.get 0 | none => 0xFF
  let open' := (s.ftl.bands.filter fun b => b.state == 0 && b.members.any fun m => m.1 == n).length
  let retired := (s.ftl.blocks.filter fun e => blkLink e.1 == n && e.2.state == 3).length
  layout 32 [(0, leBytes 2 n), (2, leBytes 1 (s.linkState n)), (3, leBytes 1 group), (4, leBytes 4 (s.linkAvg n / 65536)),
    (8, leBytes 4 (mapGet (fun _ => 0) s.ftl.medians (s.persOfLink n) / 65536)), (12, leBytes 2 (s.rd (Reg.STR_LINK_COUNT n))),
    (14, leBytes 2 (min 65535 (mapGet (fun _ => 0) h.slowEntries n))), (16, leBytes 4 (mapGet (fun _ => 0) h.linkFails n)),
    (20, leBytes 4 (mapGet (fun _ => 0) h.linkReads n)), (24, leBytes 2 open'), (26, leBytes 2 retired)]

/-- Table 12.9: time, type, member, link, stripe, namespace, LSA. -/
def eventEntryBytes (e : List Nat) : List Byte :=
  let v (i : Nat) : Nat := e.getD i 0
  layout 32 [(0, leBytes 8 (v 0)), (8, leBytes 1 (v 1)), (9, leBytes 1 (v 2)), (10, leBytes 2 (v 3)), (12, leBytes 4 (v 4)), (16, leBytes 4 (v 5)), (24, leBytes 8 (v 6))]

/-- A structure of the page with its GENERATION. -/
def State.giveHealth (s : State) (c : Sqe) (body : List Byte) : State :=
  let (g, s1) := s.pageGen 0xC2 c.lsf s.ftl.health.generation (body.drop 4)
  s1.givePage c 0xC2 (leBytes 4 g ++ body.drop 4)

/-- GET_LOG_STRIPE_HEALTH. -/
def State.logHealth (s : State) (c : Sqe) : State :=
  let ev := s.ftl.health.events.take 256
  match c.lsf with
  | 0 => if c.wholeDevice then s.giveHealth c (s.summaryBody 0xFFFFFFFF)
    else if c.nsid ≤ 256 then s.giveHealth c (s.summaryBody c.nsid) else s.fail c stInvalidField
  | 1 => if c.wholeDevice then s.giveHealth c (listHeader 0 512 ++ (List.range 512).flatMap s.linkEntry) else s.fail c stInvalidField
  | 2 => if c.wholeDevice then s.giveHealth c (padTo 8256 (listHeader 0 ev.length ++ ev.flatMap eventEntryBytes)) else s.fail c stInvalidField
  | _ => s.fail c stInvalidField

def execGetLogStripeHealth (c : Sqe) (s : State) : Host.Outcome State Fault Refusal := .next (s.getLog c fun t => t.logHealth c)

/-! ### 0xC3 Mantle and Thermal Status (19 Table 19.7, 21 Table 21.6) -/

/-- Registers in turn. -/
def State.regBytes (s : State) (offs : List Nat) : List Byte := offs.flatMap fun o => leBytes 4 (s.valueAt o).toNat

/-- The page after GENERATION. -/
def State.statusBody (s : State) : List Byte :=
  let strings := (List.range 4).flatMap fun k => s.regBytes ((List.range 7).map fun i => Reg.MNT_STR_VI k + 4 * i) ++ leBytes 4 0
  let slots := (List.range 4).flatMap fun i => s.regBytes [Reg.MNT_LOOP_STATUS i, Reg.MNT_LOOP_FLAGS i]
  layout 1020 [
    (0, s.regBytes [Reg.MNT_STATUS, Reg.MNT_EUSE, Reg.STR_DW_T_ENERGY, Reg.MNT_CHG_TARGET]),
    (0x014, leBytes 8 (s.rd64 Reg.MNT_LOSS_TIME_LO Reg.MNT_LOSS_TIME_HI)), (0x01C, slots), (0x03C, strings),
    (0x1FC, s.regBytes [Reg.THM_STATUS, Reg.THM_TEMP, Reg.THM_RATE, Reg.THM_THROTTLE, Reg.THM_HOT_BRIDGE, Reg.THM_COUNT]),
    (0x214, leBytes 8 ((s.thm.enfNs + (match s.thm.enfAt with | some a => s.now - a | none => 0)) / 1000000)),
    (0x21C, s.regBytes ((List.range 4).map fun f => Reg.THM_FAN f)),
    (0x22C, match s.life.trips.head? with | some t => t.bytes | none => [])]

/-- GET_LOG_MANTLE_THERMAL. -/
def State.logStatus (s : State) (c : Sqe) : State :=
  if !c.wholeDevice then s.fail c stInvalidField
  else
    let b := s.statusBody
    let (g, s1) := s.pageGen 0xC3 0 0 b
    s1.givePage c 0xC3 (leBytes 4 g ++ b)

def execGetLogMantleThermal (c : Sqe) (s : State) : Host.Outcome State Fault Refusal := .next (s.getLog c fun t => t.logStatus c)

/-! ### 0xC4 Take Directory (07 R293) -/

/-- Table 7.11. -/
def State.dirHeader (s : State) : List Byte :=
  layout 64 [(0, leBytes 4 s.takes.generation), (4, leBytes 4 s.takes.dir.length), (8, leBytes 4 s.takes.nextTake), (12, leBytes 1 s.openTakes.length),
    (13, leBytes 1 s.openStreams), (16, leBytes 8 (2097152 * s.freeUnits)), (24, leBytes 8 s.takes.discardTotal)]

/-- Table 7.12. -/
def Take.entry (t : Take) : List Byte :=
  let sum (f : Clip → Nat) : Nat := (t.clips.map f).sum
  layout 128 [(0, leBytes 4 t.num), (4, leBytes 1 t.state), (5, leBytes 1 t.reason), (6, leBytes 1 t.clips.length),
    (7, leBytes 1 (bit t.joined + 2 * bit t.ring + 4 * bit t.chainBreak)), (8, leBytes 8 t.rigTake), (16, leBytes 8 t.openTime), (24, leBytes 8 t.startTime),
    (32, leBytes 8 t.closeTime), (40, leBytes 8 (sum fun c => c.frames.length)), (48, leBytes 8 (sum Clip.goodBytes)), (56, leBytes 8 (sum fun c => c.discard)),
    (64, leBytes 4 (sum fun c => c.abandoned)), (68, leBytes 4 (sum fun c => c.refused)), (72, padTo 32 (t.name.take 32))]

/-- Table 7.13. -/
def State.slotEntry (s : State) (i : Nat) : List Byte :=
  match s.slotClip i with
  | none => layout 64 [(0, leBytes 1 i)]
  | some (t, _, c) =>
    layout 64 [(0, leBytes 1 i), (1, leBytes 1 t.state), (2, leBytes 1 c.desc.mode), (3, leBytes 1 (if c.desc.mode = 1 then c.desc.channel else 0xFF)),
      (4, leBytes 4 t.num), (8, leBytes 8 c.acked), (16, leBytes 4 (s.framesIn i)), (20, leBytes 4 c.abandoned), (24, leBytes 4 c.refused),
      (28, leBytes 4 c.ringRecs.length), (32, leBytes 8 c.lastStamp), (40, leBytes 8 c.payload), (48, leBytes 8 c.discard)]

/-- GET_LOG_TAKE_DIRECTORY. -/
def State.logTakes (s : State) (c : Sqe) : State :=
  match c.lsf with
  | 0 => s.givePageAll c 0xC4 fun t => t.dirHeader ++ (sortByKey (fun (x : Take) => x.num) t.takes.dir).flatMap Take.entry
  | 1 => s.givePageAll c 0xC4 fun t => t.dirHeader ++ (List.range 16).flatMap t.slotEntry
  | _ => s.fail c stInvalidField

def execGetLogTakeDirectory (c : Sqe) (s : State) : Host.Outcome State Fault Refusal := .next (s.getLog c fun t => t.logTakes c)

end Sys2Proof.Machine
end

