-- ==== Sys2Proof/Machine/Mi.lean ====
section
/-!
DEFINITION. Machine/Mi.lean: NVMe-MI on the management port and in-band (06 R231 to R234). The formats of NVMe-MI 1.2 are PRESUMED (log entry 9); VPD and the
data structures the manual does not lay out are opaque (log entry 40).
-/
namespace Sys2Proof.Machine

/-! ### The NVMe-MI commands (R232) -/

/-- A response: status (0 success, 2 internal error, 3 invalid command opcode, 4 invalid parameter), NVMe Management Response, data. -/
structure MiAns where
  status : Nat
  resp : Nat
  data : List Byte

def miOk (resp : Nat) (data : List Byte) : MiAns := ⟨0, resp, data⟩
def miBadOpcode : MiAns := ⟨3, 0, []⟩
def miBadParam : MiAns := ⟨4, 0, []⟩

/-- The bytes of a response after its message header. -/
def MiAns.bytes (a : MiAns) : List Byte := leBytes 1 a.status ++ leBytes 3 a.resp ++ a.data

/-- Controllers that the subsystem has. -/
def State.miCtrls (s : State) : List Nat := s.ctrls

/-- Read NVMe-MI Data Structure: DTYP 0 subsystem information, 1 port information, 2 controller list, 3 controller information, 4 optional commands. -/
def State.miReadStructure (s : State) (nmd0 : Word) : MiAns :=
  let dtyp := bitsOf nmd0 24 8
  let port := bitsOf nmd0 16 8
  let ctrl := bitsOf nmd0 0 16
  let opaque' : MiAns := miOk 32 ((List.range 32).map fun i => Config.miStructure dtyp port ctrl i)
  if dtyp = 0 then miOk 32 (layout 32 [(0, leBytes 1 2), (1, leBytes 1 1), (2, leBytes 1 2)])
  else if dtyp = 1 then (if port ≤ 2 then opaque' else miBadParam)
  else if dtyp = 2 then
    let l := s.miCtrls.filter fun c => ctrl ≤ 1 + c
    miOk (2 + 2 * l.length) (leBytes 2 l.length ++ l.flatMap fun c => leBytes 2 (1 + c))
  else if dtyp = 3 then (if s.miCtrls.any fun c => 1 + c == ctrl then opaque' else miBadParam)
  else if dtyp = 4 then opaque'
  else miBadParam

/-- CTEMP of a poll: whole °C; 127 and above 7Fh, -60 and below C4h, nothing yet 80h. -/
def State.miTemp (s : State) : Nat :=
  match s.thm.last with
  | none => 0x80
  | some v => toCode 8 (max (-60) (min 127 (v / 16)))

/-- CSTS.RDY and CSTS.CFS of a controller. -/
def State.miCsts (s : State) (c : Nat) : Nat := bit (s.ctrl c).rdy + 2 * bit (s.ctrl c).cfs

/-- NVM Subsystem Health Status Poll: a critical warning is an inverted bit; both PCIe links; percentage used; the composite controller status. -/
def State.miSubsystemPoll (s : State) : MiAns :=
  let up (p : Nat) : Bool := (s.ctrl (2 * p)).linkUp
  let csts := (s.miCtrls.map s.miCsts).foldl (fun a c => a ||| c) 0
  miOk 0 (layout 8 [(0, leBytes 1 (0x20 + 0x10 + 8 * bit (up 0) + 4 * bit (up 1))), (1, leBytes 1 (255 - s.criticalWarning)), (2, leBytes 1 s.miTemp),
    (3, leBytes 1 (s.ctr 0xB0)), (4, leBytes 2 csts)])

/-- Controller Health Status Poll: an entry for each controller from SCTLID on, at most MAXRENT + 1. -/
def State.miControllerPoll (s : State) (nmd0 : Word) (temp : Nat) : MiAns :=
  let l := (s.miCtrls.filter fun c => bitsOf nmd0 0 16 ≤ 1 + c).take (bitsOf nmd0 16 8 + 1)
  miOk (65536 * l.length) (l.flatMap fun c => layout 16 [(0, leBytes 2 (1 + c)), (2, leBytes 2 (s.miCsts c)), (4, leBytes 2 (s.composite temp)), (6, leBytes 1 (s.ctr 0xB0)),
    (7, leBytes 1 s.availableSpare), (8, leBytes 1 s.criticalWarning)])

/-- Configuration Set: 01h the frequency (1 is 100 kHz, 2 is 400 kHz, 3 is 1 MHz), 03h the MCTP transmission unit, 64 to 250. -/
def State.miConfigSet (s : State) (nmd0 nmd1 : Word) : State × MiAns :=
  let cid := bitsOf nmd0 0 8
  let f := bitsOf nmd0 8 4
  let u := bitsOf nmd1 0 16
  if cid = 1 ∧ 1 ≤ f ∧ f ≤ 3 then ({ s with nvme := { s.nvme with miFreq := [100, 400, 1000].getD (f - 1) 100 } }, miOk 0 [])
  else if cid = 3 ∧ 64 ≤ u ∧ u ≤ 250 then ({ s with nvme := { s.nvme with miUnit := u } }, miOk 0 [])
  else (s, miBadParam)

/-- Configuration Get. -/
def State.miConfigGet (s : State) (nmd0 : Word) : MiAns :=
  match bitsOf nmd0 0 8 with
  | 1 => miOk (if s.nvme.miFreq = 1000 then 3 else if s.nvme.miFreq = 400 then 2 else 1) []
  | 3 => miOk s.nvme.miUnit []
  | _ => miBadParam

/-- The 256 bytes of VPD, from the OTP identity and BOARD_ID. -/
def State.vpd (s : State) : List Byte := (List.range 256).map fun i => Config.vpdByte (s.otpBytes 0 16) (s.cfg 0x01 0 0) i

/-- VPD Read: DOFST and DLEN inside the 256 bytes. -/
def State.miVpdRead (s : State) (nmd0 nmd1 : Word) : MiAns :=
  let off := bitsOf nmd0 0 16
  let n := bitsOf nmd1 0 16
  if 256 < off + n then miBadParam else miOk 0 (slice s.vpd off n)

/-- Shutdown: CC.SHN 01b on every controller (06 R206). -/
def State.miShutdown (s : State) : State :=
  if s.mainUp then ((List.range 4).foldl (fun t c => if t.hasCtrl c then t.shutdown (Fin.ofNat 4 c) 1 else t) s).settleDma else s

/-- The endpoint's answer to an NVMe-MI command, and what it does but for a Reset, which follows the answer. -/
def State.miServe (s : State) (op : Nat) (nmd0 nmd1 : Word) : State × MiAns :=
  match op with
  | 0x00 => (s, s.miReadStructure nmd0)
  | 0x01 => (s, s.miSubsystemPoll)
  | 0x02 =>
    let (w, s1) := s.free
    (s1, s1.miControllerPoll nmd0 w.toNat)
  | 0x03 => s.miConfigSet nmd0 nmd1
  | 0x04 => (s, s.miConfigGet nmd0)
  | 0x05 => (s, s.miVpdRead nmd0 nmd1)
  | 0x07 => (s, miOk 0 [])
  | 0x0C => (s.miShutdown, miOk 0 [])
  | _ => (s, miBadOpcode)

/-! ### On the management port -/

/-- The endpoint answers while the Belfry runs its firmware outside recovery mode. -/
def State.miAnswers (s : State) : Bool := s.board.vaux && s.belfryRuns && !s.recoveryMode

def State.miReply (s : State) (kind : Nat) (a : MiAns) : State := s.miMessage kind a.bytes

/-- An NVMe-MI command as the management port brings it; it wakes nothing (20 Table 20.4). -/
def State.miCmd (s : State) (op : Nat) (nmd0 nmd1 : Word) : State :=
  if !s.miAnswers then s
  else
    let r := s.noteMgmt.miServe op nmd0 nmd1
    r.1.miReply 1 r.2

def execMiReadDataStructure (nmd0 nmd1 : Word) (s : State) : Host.Outcome State Fault Refusal := .next (s.miCmd 0x00 nmd0 nmd1)

def execMiSubsystemHealthPoll (nmd0 nmd1 : Word) (s : State) : Host.Outcome State Fault Refusal := .next (s.miCmd 0x01 nmd0 nmd1)

def execMiControllerHealthPoll (nmd0 nmd1 : Word) (s : State) : Host.Outcome State Fault Refusal := .next (s.miCmd 0x02 nmd0 nmd1)

def execMiConfigurationSet (nmd0 nmd1 : Word) (s : State) : Host.Outcome State Fault Refusal := .next (s.miCmd 0x03 nmd0 nmd1)

def execMiConfigurationGet (nmd0 nmd1 : Word) (s : State) : Host.Outcome State Fault Refusal := .next (s.miCmd 0x04 nmd0 nmd1)

def execMiVpdRead (nmd0 nmd1 : Word) (s : State) : Host.Outcome State Fault Refusal := .next (s.miCmd 0x05 nmd0 nmd1)

/-- MI_VPD_WRITE: Invalid Command Opcode, whatever it carries. -/
def execMiVpdWrite (nmd0 nmd1 : Word) (_data : List Byte) (s : State) : Host.Outcome State Fault Refusal := .next (s.miCmd 0x06 nmd0 nmd1)

/-- MI_RESET: an NVM Subsystem Reset (03 R82). -/
def execMiReset (nmd0 nmd1 : Word) (s : State) : Host.Outcome State Fault Refusal :=
  .next (if s.miAnswers then (s.miCmd 0x07 nmd0 nmd1).nssr else s)

def execMiShutdown (nmd0 nmd1 : Word) (s : State) : Host.Outcome State Fault Refusal := .next (s.miCmd 0x0C nmd0 nmd1)

/-! ### Tunnelled admin commands (R233) -/

/-- The state a command leaves. -/
def afterCmd (o : Host.Outcome State Fault Refusal) (s : State) : State := match o with | .next t => t | _ => s

/-- Get Log Page by its identifier. -/
def miLog (c : Sqe) (s : State) : Host.Outcome State Fault Refusal :=
  match dwBits c.cdw10 0 8 with
  | 0x01 => execGetLogErrorInformation c s
  | 0x02 => execGetLogSmartHealth c s
  | 0x03 => execGetLogFirmwareSlot c s
  | 0x04 => execGetLogChangedNamespaces c s
  | 0x05 => execGetLogCommandsEffects c s
  | 0x81 => execGetLogSanitizeStatus c s
  | 0xC0 => execGetLogLifetimeHistograms c s
  | 0xC1 => execGetLogClampReport c s
  | 0xC2 => execGetLogStripeHealth c s
  | 0xC3 => execGetLogMantleThermal c s
  | 0xC4 => execGetLogTakeDirectory c s
  | _ => execGetLogSupportedPages c s

/-- Power Management by its state. -/
def miPower (c : Sqe) (s : State) : Host.Outcome State Fault Refusal :=
  match dwBits c.cdw11 0 5 with
  | 1 => execSetPsCapped c s
  | 2 => execEnterDoze c s
  | 3 => execEnterSleep c s
  | 4 => execEnterDeepSleep c s
  | _ => execSetPsRun c s

/-- Set Features by its identifier; another is no feature (R216). -/
def miSetFeature (c : Sqe) (s : State) : Host.Outcome State Fault Refusal :=
  match dwBits c.cdw10 0 8 with
  | 0x01 => execSetArbitration c s
  | 0x02 => miPower c s
  | 0x04 => execSetTemperatureThreshold c s
  | 0x05 => execSetErrorRecovery c s
  | 0x07 => execSetNumberOfQueues c s
  | 0x08 => execSetInterruptCoalescing c s
  | 0x09 => execSetInterruptVectorConfig c s
  | 0x0A => execSetWriteAtomicity c s
  | 0x0B => execSetAsyncEventConfig c s
  | 0x10 => execSetHostThermalManagement c s
  | 0xC0 => execSetMantleState c s
  | 0xC1 => execSetDirtyWindow c s
  | 0xC2 => execSetThermalPolicy c s
  | 0xC3 => execSetSteepleRole c s
  | _ => .next (s.setFeature c fun t => t.fail c stInvalidField)

/-- Firmware Commit by its action. -/
def miCommit (c : Sqe) (s : State) : Host.Outcome State Fault Refusal :=
  let ca := dwBits c.cdw10 3 3
  if ca = 1 ∨ ca = 2 then execFirmwareCommitActivate c s else execFirmwareCommitReplace c s

/-- Sanitize by its action; a reserved one is an invalid field. -/
def miSanitize (c : Sqe) (s : State) : Host.Outcome State Fault Refusal :=
  match dwBits c.cdw10 0 3 with
  | 1 => execSanitizeExitFailureMode c s
  | 2 => execSanitizeBlockErase c s
  | 3 => execSanitizeOverwrite c s
  | 4 => execSanitizeCryptoErase c s
  | _ => .next (s.admin c .service fun t => t.fail c stInvalidField)

/-- Namespace Management by its selection: 1 deletes; everything else is refused as Create is. -/
def miNamespace (c : Sqe) (s : State) : Host.Outcome State Fault Refusal :=
  if dwBits c.cdw10 0 4 = 1 then execNamespaceDelete c s else execNamespaceCreate c s

/-- Fitting by its operation. -/
def miFitting (c : Sqe) (s : State) : Host.Outcome State Fault Refusal :=
  match dwBits c.cdw12 0 4 with
  | 1 => execFittingBegin c s
  | 2 => execFittingCommit c s
  | 3 => execFittingAbort c s
  | 4 => execFittingBeginStageCommit c s
  | _ => execFittingStage c s

/-- Key Load, where KEY_PATHS bit 2 lets the management port load keys. -/
def miKeyLoad (c : Sqe) (s : State) : Host.Outcome State Fault Refusal :=
  if !s.keyPath c then .next (s.admin c .plain fun t => t.fail c stInvalidOpcode)
  else match klOp c with
    | 1 => execKeyLoadGenerate c s
    | 2 => execKeyLoadClear c s
    | _ => execKeyLoadLoad c s

/-- The admin commands of R233; every other opcode is refused. -/
def miAdmin (op : Nat) (c : Sqe) (s : State) : Host.Outcome State Fault Refusal :=
  match op with
  | 0x02 => miLog c s
  | 0x06 => execIdentify c s
  | 0x09 => miSetFeature c s
  | 0x0A => execGetFeatures c s
  | 0x0D => miNamespace c s
  | 0x10 => miCommit c s
  | 0x11 => execFirmwareImageDownload c s
  | 0x84 => miSanitize c s
  | 0xC9 => miFitting c s
  | 0xCD => miKeyLoad c s
  | 0xCE => execFittingReport c s
  | _ => execInvalidCommandOpcode c s

/-- MI_ADMIN_COMMAND: a wake in a low power state (20 Table 20.4 code 4); executed as agent 5 against the controller it names; answered with Internal Error
while the main domain is down. A controller that does not exist is an invalid parameter. -/
def State.miAdminCmd (s : State) (op : Nat) (c : Sqe) : State :=
  if !s.miAnswers then s
  else
    let s1 := s.noteMgmt.wake 4
    if !s1.mainUp then s1.miReply 2 ⟨2, 0, []⟩
    else if !s1.hasCtrl c.ctrl.val then s1.miReply 2 miBadParam
    else afterCmd (miAdmin op { c with mi := true } s1) s1

def execMiAdminCommand (op : Fin 256) (c : Sqe) (s : State) : Host.Outcome State Fault Refusal := .next (s.miAdminCmd op.val c)

/-! ### In-band (R234) -/

/-- NVME_MI_SEND: the request of CDW11 to CDW13 is served with the issuing controller as agent; its response is kept for NVMe-MI Receive. Completion dword 0
holds its status and the NVMe Management Response. While the Belfry does not run there is no response, and the command stays outstanding (01 R42). -/
def State.miSend (s : State) (c : Sqe) : State :=
  if !s.belfryRuns then s
  else
  let op := dwBits c.cdw11 0 8
  let r := s.miServe op c.cdw12 c.cdw13
  let s1 := r.1.modCtrl c.ctrl.val fun k => { k with miResponse := r.2.bytes }
  let s2 := s1.complete c stOk (r.2.status + 256 * r.2.resp) 0 []
  if op = 7 then s2.nssr else s2

def execNvmeMiSend (c : Sqe) (s : State) : Host.Outcome State Fault Refusal := .next (if c.mi then s else s.admin c .service fun t => t.miSend c)

/-- NVME_MI_RECEIVE. -/
def State.miReceive (s : State) (c : Sqe) : State :=
  if !s.belfryRuns then s
  else
  let b := (s.ctrl c.ctrl.val).miResponse
  s.complete c stOk (leAt b 0 1 + 256 * leAt b 1 3) 0 b

def execNvmeMiReceive (c : Sqe) (s : State) : Host.Outcome State Fault Refusal :=
  .next (if c.mi then s else s.admin c .service fun t => t.miReceive c)

end Sys2Proof.Machine
end

