-- ==== Sys2Proof/Machine/Upcase.lean ====
section
/-!
DEFINITION. Machine/Upcase.lean: the recommended up-case table of the exFAT specification in its compressed form (08 R319), 5,836 bytes with
TableChecksum 0xE619D30D (PRESUMED, log entry 20).
-/
namespace Sys2Proof.Machine

/-- A stretch of the table: (0, c, n) is n characters from c on, (1, c, n) is n pairs c, c, c + 2, c + 2 and so on, (2, n, _) is the mark
0xFFFF with a count of characters that map to themselves. -/
def upcaseWords (x : Nat × Nat × Nat) : List Nat :=
  if x.1 = 0 then (List.range x.2.2).map fun i => x.2.1 + i
  else if x.1 = 1 then (List.range x.2.2).flatMap fun i => [x.2.1 + 2 * i, x.2.1 + 2 * i]
  else [0xFFFF, x.2.1]

def upcasePart0 : List (Nat × Nat × Nat) := [
  (0, 0, 97), (0, 65, 26), (0, 123, 101), (0, 192, 23), (0, 247, 1), (0, 216, 7), (0, 376, 1), (1, 256, 24),
  (0, 304, 3), (0, 306, 1), (1, 308, 2), (0, 312, 2), (0, 313, 1), (1, 315, 7), (0, 329, 2), (0, 330, 1),
  (1, 332, 22), (0, 376, 2), (0, 377, 1), (1, 379, 2), (0, 383, 1), (0, 579, 1), (0, 385, 2), (0, 386, 1),
  (0, 388, 1), (0, 388, 1), (0, 390, 2), (0, 391, 1), (0, 393, 3), (0, 395, 1), (0, 397, 5), (0, 401, 1),
  (0, 403, 2), (0, 502, 1), (0, 406, 3), (0, 408, 1), (0, 573, 1), (0, 411, 3), (0, 544, 1), (0, 415, 2),
  (0, 416, 1), (1, 418, 2), (0, 422, 2), (0, 423, 1), (0, 425, 4), (0, 428, 1), (0, 430, 2), (0, 431, 1),
  (0, 433, 3), (0, 435, 1), (0, 437, 1), (0, 437, 1), (0, 439, 2), (0, 440, 1), (0, 442, 3), (0, 444, 1),
  (0, 446, 1), (0, 503, 1), (0, 448, 6), (0, 452, 1)]

def upcasePart1 : List (Nat × Nat × Nat) := [
  (0, 455, 2), (0, 455, 1), (0, 458, 2), (0, 458, 1), (1, 461, 8), (0, 398, 1), (1, 478, 9), (0, 496, 3),
  (0, 497, 1), (0, 500, 1), (0, 500, 1), (0, 502, 3), (0, 504, 1), (1, 506, 19), (0, 544, 3), (0, 546, 1),
  (1, 548, 8), (0, 564, 6), (0, 11365, 1), (0, 571, 1), (0, 571, 1), (0, 573, 1), (0, 11366, 1), (0, 575, 3),
  (0, 577, 1), (0, 579, 4), (0, 582, 1), (1, 584, 4), (0, 592, 3), (0, 385, 1), (0, 390, 1), (0, 597, 1),
  (0, 393, 2), (0, 600, 1), (0, 399, 1), (0, 602, 1), (0, 400, 1), (0, 604, 4), (0, 403, 1), (0, 609, 2),
  (0, 404, 1), (0, 612, 4), (0, 407, 1), (0, 406, 1), (0, 618, 1), (0, 11362, 1), (0, 620, 3), (0, 412, 1),
  (0, 624, 2), (0, 413, 1), (0, 627, 2), (0, 415, 1), (0, 630, 7), (0, 11364, 1), (0, 638, 2), (0, 422, 1),
  (0, 641, 2), (0, 425, 1), (0, 644, 4), (0, 430, 1)]

def upcasePart2 : List (Nat × Nat × Nat) := [
  (0, 580, 1), (0, 433, 2), (0, 581, 1), (0, 653, 5), (0, 439, 1), (0, 659, 232), (0, 1021, 3), (0, 894, 46),
  (0, 902, 1), (0, 904, 3), (0, 944, 1), (0, 913, 17), (0, 931, 1), (0, 931, 9), (0, 908, 1), (0, 910, 2),
  (0, 975, 10), (0, 984, 1), (1, 986, 11), (0, 1008, 2), (0, 1017, 1), (0, 1011, 5), (0, 1015, 1), (0, 1017, 2),
  (0, 1018, 1), (0, 1020, 52), (0, 1040, 32), (0, 1024, 16), (1, 1120, 17), (0, 1154, 9), (0, 1162, 1), (1, 1164, 26),
  (0, 1216, 2), (0, 1217, 1), (1, 1219, 6), (0, 1216, 1), (1, 1232, 34), (0, 1300, 77), (0, 1329, 38), (2, 6134, 1),
  (0, 11363, 1), (0, 7550, 131), (0, 7680, 1), (1, 7682, 74), (0, 7830, 11), (0, 7840, 1), (1, 7842, 44), (0, 7930, 6),
  (0, 7944, 8), (0, 7944, 8), (0, 7960, 6), (0, 7958, 10), (0, 7976, 8), (0, 7976, 8), (0, 7992, 8), (0, 7992, 8),
  (0, 8008, 6), (0, 8006, 11), (0, 8025, 1), (0, 8018, 1)]

def upcasePart3 : List (Nat × Nat × Nat) := [
  (0, 8027, 1), (0, 8020, 1), (0, 8029, 1), (0, 8022, 1), (0, 8031, 1), (0, 8024, 8), (0, 8040, 8), (0, 8040, 8),
  (0, 8122, 2), (0, 8136, 4), (0, 8154, 2), (0, 8184, 2), (0, 8170, 2), (0, 8186, 2), (0, 8062, 2), (0, 8072, 8),
  (0, 8072, 8), (0, 8088, 8), (0, 8088, 8), (0, 8104, 8), (0, 8104, 8), (0, 8120, 2), (0, 8114, 1), (0, 8124, 1),
  (0, 8116, 24), (0, 8131, 1), (0, 8141, 3), (0, 8152, 2), (0, 8146, 14), (0, 8168, 2), (0, 8162, 3), (0, 8172, 1),
  (0, 8166, 22), (0, 8179, 1), (0, 8189, 337), (0, 8498, 1), (0, 8527, 33), (0, 8544, 16), (0, 8576, 4), (0, 8579, 1),
  (2, 843, 1), (0, 9398, 26), (2, 1862, 1), (0, 11264, 47), (0, 11359, 2), (0, 11360, 1), (0, 11362, 6), (0, 11367, 1),
  (1, 11369, 2), (0, 11373, 9), (0, 11381, 1), (0, 11383, 10), (0, 11392, 1), (1, 11394, 49), (0, 11492, 28), (0, 4256, 38),
  (2, 53787, 1), (0, 65313, 26), (0, 65371, 164), (0, 65535, 1)]

/-- The table as the up-case cluster holds it. -/
def upcaseTable : List Byte := ((upcasePart0 ++ upcasePart1 ++ upcasePart2 ++ upcasePart3).flatMap upcaseWords).flatMap (leBytes 2)

end Sys2Proof.Machine
end

