-- ==== Sys2Proof/Machine/Volume.lean ====
section
/-!
DEFINITION. Machine/Volume.lean: the read-only exFAT view of the take namespace, computed as it is read (08 R314 to R324), and the read
commands. The layout of exFAT structures is that of the exFAT specification, which the manual names (PRESUMED, log entry 20).
-/
namespace Sys2Proof.Machine

/-! ### Checksums of exFAT -/

/-- A 16-bit sum rotated right before each byte. -/
def rot16 (c : Nat) (b : Nat) : Nat := ((c % 2) * 32768 + c / 2 + b) % 65536

/-- A 32-bit sum rotated right before each byte. -/
def rot32 (c : Nat) (b : Nat) : Nat := ((c % 2) * 2147483648 + c / 2 + b) % 4294967296

/-- TableChecksum of the up-case table. -/
def tableChecksum (b : List Byte) : Nat := b.foldl (fun a x => rot32 a x.toNat) 0

/-- SetChecksum of a directory entry set: every byte but its own two. -/
def setChecksum (b : List Byte) : Nat := ((b.take 2) ++ b.drop 4).foldl (fun a x => rot16 a x.toNat) 0

/-! ### Boot region (R317) -/

/-- Block 0 (Table 8.8). -/
def bootSector (g : Geometry) (serial : Nat) : List Byte :=
  let head := [0xEB, 0x76, 0x90] ++ ascii "EXFAT   " ++ List.replicate 53 0 ++ leBytes 8 0 ++ leBytes 8 g.vol ++ leBytes 4 512 ++
    leBytes 4 g.fatLen ++ leBytes 4 g.heap ++ leBytes 4 g.cc ++ leBytes 4 g.root ++ leBytes 4 serial ++ leBytes 2 0x0100 ++
    leBytes 2 0 ++ [12, 9, 1, 0x80, 0xFF] ++ List.replicate 7 0 ++ List.replicate 390 0xF4 ++ leBytes 2 0xAA55
  padTo 4096 head

def extendedBoot : List Byte := List.replicate 4092 0 ++ leBytes 4 0xAA550000

/-- The boot checksum over blocks 0 to 10 without VolumeFlags and PercentInUse, repeated through the sector. -/
def bootChecksum (g : Geometry) (serial : Nat) : List Byte :=
  let b0 := bootSector g serial
  let b := b0.take 106 ++ slice b0 108 4 ++ b0.drop 113 ++ (List.replicate 8 extendedBoot).flatten ++ List.replicate 8192 0
  let sum := b.foldl (fun a x => rot32 a x.toNat) 0
  (List.replicate 1024 (leBytes 4 sum)).flatten

def bootBlock (g : Geometry) (serial k : Nat) : List Byte :=
  if k = 0 then bootSector g serial else if k ≤ 8 then extendedBoot else if k = 11 then bootChecksum g serial else List.replicate 4096 0

/-! ### FAT and bitmap (R318) -/

/-- CLOSED takes, the only ones the view shows. -/
def State.closedTakes (s : State) : List Take := s.takes.dir.filter fun t => t.state == 4

/-- Every cluster chain of the view. -/
def State.chains (s : State) (g : Geometry) : List (List Nat) :=
  [(List.range g.bmCl).map fun k => 2 + k, [g.upcase], (List.range 6).map fun k => g.root + k] ++
  (s.closedTakes.map fun t => [g.takedir t.dirSlot]) ++ s.closedTakes.flatMap fun t => t.clips.map fun (c : Clip) => c.units

/-- The entry after cluster e in a chain. -/
def nextIn (e : Nat) : List Nat → Option Nat
  | [] => none
  | [x] => if x = e then some 0xFFFFFFFF else none
  | x :: y :: l => if x = e then some y else nextIn e (y :: l)

def fatEntry (chains : List (List Nat)) (e : Nat) : Nat :=
  if e = 0 then 0xFFFFFFF8 else if e = 1 then 0xFFFFFFFF else (chains.findSome? (nextIn e)).getD 0

def fatSector (chains : List (List Nat)) (k : Nat) : List Byte := (List.range 1024).flatMap fun i => leBytes 4 (fatEntry chains (1024 * k + i))

/-- Sector k of the bitmap: bit i of the whole is cluster 2 + i. -/
def bitmapSector (chains : List (List Nat)) (k : Nat) : List Byte :=
  (List.range 4096).map fun b => BitVec.ofNat 8 ((List.range 8).foldl (fun a i =>
    if chains.any fun c => c.contains (2 + 8 * (4096 * k + b) + i) then a + 2 ^ i else a) 0)

/-! ### Timestamps (R322, 09 R340) -/

/-- Year, month and day of a count of days since 1970-01-01. -/
def civil (days : Nat) : Nat × Nat × Nat :=
  let z := days + 719468
  let era := z / 146097
  let doe := z % 146097
  let yoe := (doe - doe / 1460 + doe / 36524 - doe / 146096) / 365
  let doy := doe - (365 * yoe + yoe / 4 - yoe / 100)
  let mp := (5 * doy + 2) / 153
  let d := doy - (153 * mp + 2) / 5 + 1
  let m := if mp < 10 then mp + 3 else mp - 9
  (yoe + era * 400 + (if m ≤ 2 then 1 else 0), m, d)

/-- A timestamp: the 32-bit stamp, the 10 ms increments, the UtcOffset byte. Without a calendar relation it is 1980-01-01 00:00:00 with
UtcOffset invalid. -/
def State.exfatTime (s : State) (t : Nat) : Nat × Nat × Nat :=
  if s.rd Reg.STP_STATUS_CAL_VALID = 0 then (33 * 65536, 0, 0)
  else
    let utc := s.rd Reg.STP_CAL_CTL_UTC_OFFSET
    let off := signed 64 (s.rd64 Reg.STP_CAL_LO Reg.STP_CAL_HI)
    let ns := ((t : Int) + off + signed 7 utc * 900000000000).toNat
    let secs := ns / 1000000000
    let (y, m, d) := civil (secs / 86400)
    let r := secs % 86400
    ((y - 1980) % 128 * 2 ^ 25 + m * 2 ^ 21 + d * 2 ^ 16 + r / 3600 * 2 ^ 11 + r / 60 % 60 * 2 ^ 5 + r % 60 / 2,
     r % 2 * 100 + ns % 1000000000 / 10000000, 128 + utc)

/-! ### Names (R322) -/

/-- A name component: up to the first 0x00, every byte exFAT forbids replaced, a final space or full stop too. -/
def component (b : List Byte) : List Byte :=
  let x := (b.takeWhile fun c => c != 0).map fun c =>
    if c.toNat < 0x20 ∨ 0x7F ≤ c.toNat ∨ (ascii "\"*/:<>?\\|").contains c then 0x5F else c
  match x.getLast? with
  | some c => if c.toNat = 0x20 ∨ c.toNat = 0x2E then x.dropLast ++ [0x5F] else x
  | none => x

def digits (n width : Nat) : List Byte :=
  let d := ascii (toString n)
  List.replicate (width - d.length) 0x30 ++ d

def takeDirName (t : Take) : List Byte :=
  let n := component t.name
  ascii "T" ++ digits t.num 6 ++ (if n.isEmpty then [] else ascii "_" ++ n)

def clipName (c : Clip) (i : Nat) : List Byte :=
  let n := component c.desc.name
  ascii "S" ++ digits i 2 ++ (if n.isEmpty then [] else ascii "_" ++ n) ++ ascii ".ICXC"

def upper (c : Byte) : Byte := if 0x61 ≤ c.toNat ∧ c.toNat ≤ 0x7A then c - 0x20 else c

/-- NameHash: over the up-cased UTF-16 name. -/
def nameHash (n : List Byte) : Nat := (n.flatMap fun c => [(upper c).toNat, 0]).foldl rot16 0

/-! ### Directory entries (R319 to R321, Table 8.9) -/

/-- A File Name entry. -/
def nameEntry (n : List Byte) (k : Nat) : List Byte :=
  [0xC1, 0] ++ padTo 30 (((n.drop (15 * k)).take 15).flatMap fun c => [c, 0])

/-- A File entry set: File, Stream Extension, File Names; checksummed. -/
def State.entrySet (s : State) (name : List Byte) (attrs created modified first len : Nat) : List Byte :=
  let (cs, c10, cu) := s.exfatTime created
  let (ms, m10, mu) := s.exfatTime modified
  let names := ceilDiv name.length 15
  let file (sum : Nat) := [0x85] ++ leBytes 1 (1 + names) ++ leBytes 2 sum ++ leBytes 2 attrs ++ leBytes 2 0 ++ leBytes 4 cs ++ leBytes 4 ms ++
    leBytes 4 ms ++ leBytes 1 c10 ++ leBytes 1 m10 ++ leBytes 1 cu ++ leBytes 1 mu ++ leBytes 1 mu ++ List.replicate 7 0
  let stream := [0xC0, 0x01, 0] ++ leBytes 1 name.length ++ leBytes 2 (nameHash name) ++ leBytes 2 0 ++ leBytes 8 len ++ leBytes 4 0 ++
    leBytes 4 first ++ leBytes 8 len
  let rest := stream ++ (List.range names).flatMap (nameEntry name)
  file (setChecksum (file 0 ++ rest)) ++ rest

/-- An entry of a type and nothing else. -/
def blankEntry (ty : Nat) : List Byte := padTo 32 (leBytes 1 ty)

/-- Fills a set up to n bytes with File Name entries whose InUse is clear. -/
def fillSet (n : Nat) (b : List Byte) : List Byte := b ++ (List.replicate ((n - b.length) / 32) (blankEntry 0x41)).flatten

/-- A directory slot: 160 bytes of the root directory. -/
def State.rootSlot (s : State) (g : Geometry) (slot : Nat) : List Byte :=
  match s.closedTakes.find? fun t => t.dirSlot == slot with
  | some t => fillSet 160 (s.entrySet (takeDirName t) 0x0011 t.openTime t.closeTime (g.takedir slot) 2097152)
  | none => (([0x05, 0x40, 0x41, 0x41, 0x41] : List Nat).map blankEntry).flatten

/-- A clip's 128 bytes of its take's directory. -/
def State.clipSlot (s : State) (t : Take) (i : Nat) : List Byte :=
  match t.clips[i]? with
  | some c => fillSet 128 (s.entrySet (clipName c i) 0x0001 t.openTime t.closeTime (c.units.headD 0) c.ended)
  | none => (([0x05, 0x40, 0x41, 0x41] : List Nat).map blankEntry).flatten

/-- Upper-case hexadecimal digits of a 32-bit number. -/
def hex8 (n : Nat) : List Byte := (List.range 8).map fun i =>
  let d := n / 16 ^ (7 - i) % 16
  BitVec.ofNat 8 (if d < 10 then 0x30 + d else 0x37 + d)

/-- The first 96 bytes of the root directory: bitmap, up-case table, volume label. -/
def State.rootHead (s : State) (g : Geometry) : List Byte :=
  let up := upcaseTable
  let label := ascii "ICX" ++ hex8 (leAt s.uniqueId 0 4)
  padTo 20 [0x81, 0] ++ leBytes 4 2 ++ leBytes 8 (ceilDiv g.cc 8) ++
  [0x82, 0, 0, 0] ++ leBytes 4 (tableChecksum up) ++ List.replicate 12 0 ++ leBytes 4 g.upcase ++ leBytes 8 up.length ++
  padTo 32 ([0x83] ++ leBytes 1 label.length ++ label.flatMap fun c => [c, 0])

/-- Sector k of the root directory. -/
def State.rootSector (s : State) (g : Geometry) (k : Nat) : List Byte :=
  let o := 4096 * k
  -- the slots the sector meets, once each
  let lo := if o < 96 then 0 else (o - 96) / 160
  let body := if 10485856 ≤ o then [] else (List.range 27).flatMap fun i => if lo + i < 65536 then s.rootSlot g (lo + i) else []
  let all := if o < 96 then s.rootHead g ++ body else body.drop ((o - 96) % 160)
  padTo 4096 (all.take 4096)

/-- Sector k of a take's directory cluster. -/
def State.takedirSector (s : State) (slot k : Nat) : List Byte :=
  match s.closedTakes.find? fun t => t.dirSlot == slot with
  | some t => if k = 0 then padTo 4096 ((List.range 16).flatMap fun i => s.clipSlot t i) else List.replicate 4096 0
  | none => List.replicate 4096 0

/-! ### The view (R315 to R323) -/

def State.volumeSerial (s : State) (nsid : Nat) : Nat := crc32c (s.uniqueId ++ leBytes 4 nsid)

/-- What a sector of the take namespace reads as where it is a view sector. -/
def State.viewSector (s : State) (nsid lba : Nat) : Option (List Byte) :=
  let g := s.geom
  let c := 2 + (lba - g.heap) / 512
  let k := (lba - g.heap) % 512
  if g.heap ≤ lba ∧ g.firstAlloc ≤ c then none
  else if g.cc + 1 < g.firstAlloc then some (List.replicate 4096 0)
  else if lba < 12 then some (bootBlock g (s.volumeSerial nsid) lba)
  else if lba < 24 then some (bootBlock g (s.volumeSerial nsid) (lba - 12))
  else if lba < 512 then some (List.replicate 4096 0)
  else if lba < g.heap then some (fatSector (s.chains g) (lba - 512))
  else if c < g.upcase then some (bitmapSector (s.chains g) (512 * (c - 2) + k))
  else if c = g.upcase then some (padTo 4096 (slice upcaseTable (4096 * k) 4096))
  else if c < g.takedir 0 then some (s.rootSector g (512 * (c - g.root) + k))
  else some (s.takedirSector (c - g.takedir 0) k)

/-- Where a sector of a read comes from: of the take namespace the view's sectors are computed, with protection information as the take
service would write it (R324). -/
def State.readSrc (s : State) (n : Ns) (lsa : Nat) : ReadSrc :=
  if n.take then match s.viewSector n.nsid lsa with
    | some b => .synth b (piField (n.piOut ⟨n.guardOf b, 0, lsa % 2 ^ 32⟩))
    | none => .sector lsa
  else .sector lsa

/-- READ and VERIFY. -/
def State.readVerify (s : State) (c : Sqe) (v : Verdict) (verify : Bool) : State :=
  match s.nsOf c with
  | some n => s.readCmd c v verify (s.readSrc n)
  | none => s.readCmd c v verify fun l => .sector l

def execRead (c : Sqe) (failing : List (Nat × Fin 3)) (unrebuilt : List Nat) (late : List Nat) (s : State) : Host.Outcome State Fault Refusal :=
  .next (if s.acts c then (s.readVerify c ⟨failing, unrebuilt, late⟩ false).settleDma else s)

def execVerify (c : Sqe) (failing : List (Nat × Fin 3)) (unrebuilt : List Nat) (s : State) : Host.Outcome State Fault Refusal :=
  .next (if s.acts c then (s.readVerify c ⟨failing, unrebuilt, []⟩ true).settleDma else s)

end Sys2Proof.Machine
end

