-- ==== Sys2Proof/Machine/Dispatch.lean ====
section
/-!
DEFINITION. Machine/Dispatch.lean: one arm per command of spec/opcode_table.json.
-/
namespace Sys2Proof.Machine

def exec (i : Instr) (s : State) : Host.Outcome State Fault Refusal :=
  match i with
  | .registerWrite agent off bits data => Sys2Proof.Machine.execRegisterWrite agent off bits data s
  | .gblAccessViolClear agent data violation => Sys2Proof.Machine.execGblAccessViolClear agent data violation s
  | .splitCounterLoRead agent off => Sys2Proof.Machine.execSplitCounterLoRead agent off s
  | .beginFitting agent => Sys2Proof.Machine.execBeginFitting agent s
  | .commitFitting agent => Sys2Proof.Machine.execCommitFitting agent s
  | .abortFitting agent => Sys2Proof.Machine.execAbortFitting agent s
  | .rwfStageWrite agent off data => Sys2Proof.Machine.execRwfStageWrite agent off data s
  | .fitTimeoutWrite agent data => Sys2Proof.Machine.execFitTimeoutWrite agent data s
  | .fitIdleTimeout => Sys2Proof.Machine.execFitIdleTimeout s
  | .fitAdopt cls => Sys2Proof.Machine.execFitAdopt cls s
  | .evtRouteWrite agent source reg data => Sys2Proof.Machine.execEvtRouteWrite agent source reg data s
  | .evtStatusClear agent w data arriving => Sys2Proof.Machine.execEvtStatusClear agent w data arriving s
  | .evtMaskWrite agent w data => Sys2Proof.Machine.execEvtMaskWrite agent w data s
  | .evtForceWrite agent w data => Sys2Proof.Machine.execEvtForceWrite agent w data s
  | .vauxRise => Sys2Proof.Machine.execVauxRise s
  | .sysRstAccept => Sys2Proof.Machine.execSysRstAccept s
  | .perstAssert port => Sys2Proof.Machine.execPerstAssert port s
  | .perstDeassert port => Sys2Proof.Machine.execPerstDeassert port s
  | .pcieHotReset ctrl => Sys2Proof.Machine.execPcieHotReset ctrl s
  | .controllerReset ctrl => Sys2Proof.Machine.execControllerReset ctrl s
  | .functionLevelReset ctrl => Sys2Proof.Machine.execFunctionLevelReset ctrl s
  | .ccEnSet ctrl asqs acqs => Sys2Proof.Machine.execCcEnSet ctrl asqs acqs s
  | .ccShnWrite ctrl shn => Sys2Proof.Machine.execCcShnWrite ctrl shn s
  | .nvmSubsystemReset ctrl => Sys2Proof.Machine.execNvmSubsystemReset ctrl s
  | .ftlWatchdogExpiry => Sys2Proof.Machine.execFtlWatchdogExpiry s
  | .belfryWatchdogExpiry => Sys2Proof.Machine.execBelfryWatchdogExpiry s
  | .phaseRom bootSel => Sys2Proof.Machine.execPhaseRom bootSel s
  | .belfryFwLoad => Sys2Proof.Machine.execBelfryFwLoad s
  | .imageLoad => Sys2Proof.Machine.execImageLoad s
  | .railStageStart => Sys2Proof.Machine.execRailStageStart s
  | .railStageTimeout rail status => Sys2Proof.Machine.execRailStageTimeout rail status s
  | .railRetry => Sys2Proof.Machine.execRailRetry s
  | .mainPgFall rail status => Sys2Proof.Machine.execMainPgFall rail status s
  | .powerDownStage => Sys2Proof.Machine.execPowerDownStage s
  | .mainInit failedLanes => Sys2Proof.Machine.execMainInit failedLanes s
  | .mainFwLoad => Sys2Proof.Machine.execMainFwLoad s
  | .microcodeLoad => Sys2Proof.Machine.execMicrocodeLoad s
  | .trainingEnd => Sys2Proof.Machine.execTrainingEnd s
  | .enumerate identities present pending => Sys2Proof.Machine.execEnumerate identities present pending s
  | .mantleStart codes => Sys2Proof.Machine.execMantleStart codes s
  | .recovery badGenerations clashes => Sys2Proof.Machine.execRecovery badGenerations clashes s
  | .ready => Sys2Proof.Machine.execReady s
  | .bootWatchdogExpiry => Sys2Proof.Machine.execBootWatchdogExpiry s
  | .trialConfirm => Sys2Proof.Machine.execTrialConfirm s
  | .getVersion req => Sys2Proof.Machine.execGetVersion req s
  | .getCapabilities req => Sys2Proof.Machine.execGetCapabilities req s
  | .negotiateAlgorithms req => Sys2Proof.Machine.execNegotiateAlgorithms req s
  | .getDigests req => Sys2Proof.Machine.execGetDigests req s
  | .getCertificate req => Sys2Proof.Machine.execGetCertificate req s
  | .challenge req => Sys2Proof.Machine.execChallenge req s
  | .getMeasurements req => Sys2Proof.Machine.execGetMeasurements req s
  | .spdmUnsupportedRequest req => Sys2Proof.Machine.execSpdmUnsupportedRequest req s
  | .firmwareImageDownload c => Sys2Proof.Machine.execFirmwareImageDownload c s
  | .firmwareCommitReplace c => Sys2Proof.Machine.execFirmwareCommitReplace c s
  | .firmwareCommitActivate c => Sys2Proof.Machine.execFirmwareCommitActivate c s
  | .rcvStatus => Sys2Proof.Machine.execRcvStatus s
  | .rcvWrite offset data => Sys2Proof.Machine.execRcvWrite offset data s
  | .rcvCommit length => Sys2Proof.Machine.execRcvCommit length s
  | .rcvBoot => Sys2Proof.Machine.execRcvBoot s
  | .ownTake r => Sys2Proof.Machine.execOwnTake r s
  | .ownTransfer r => Sys2Proof.Machine.execOwnTransfer r s
  | .retire r => Sys2Proof.Machine.execRetire r s
  | .sqTailDoorbell ctrl queue tail => Sys2Proof.Machine.execSqTailDoorbell ctrl queue tail s
  | .cqHeadDoorbell ctrl queue head => Sys2Proof.Machine.execCqHeadDoorbell ctrl queue head s
  | .commandFetch ctrl cid => Sys2Proof.Machine.execCommandFetch ctrl cid s
  | .createIoSq c => Sys2Proof.Machine.execCreateIoSq c s
  | .createIoCq c => Sys2Proof.Machine.execCreateIoCq c s
  | .deleteIoSq c => Sys2Proof.Machine.execDeleteIoSq c s
  | .deleteIoCq c => Sys2Proof.Machine.execDeleteIoCq c s
  | .identify c => Sys2Proof.Machine.execIdentify c s
  | .abortCommand c => Sys2Proof.Machine.execAbortCommand c s
  | .asynchronousEventRequest c => Sys2Proof.Machine.execAsynchronousEventRequest c s
  | .namespaceDelete c => Sys2Proof.Machine.execNamespaceDelete c s
  | .namespaceCreate c => Sys2Proof.Machine.execNamespaceCreate c s
  | .sanitizeBlockErase c => Sys2Proof.Machine.execSanitizeBlockErase c s
  | .sanitizeCryptoErase c => Sys2Proof.Machine.execSanitizeCryptoErase c s
  | .sanitizeExitFailureMode c => Sys2Proof.Machine.execSanitizeExitFailureMode c s
  | .sanitizeOverwrite c => Sys2Proof.Machine.execSanitizeOverwrite c s
  | .nvmeMiSend c => Sys2Proof.Machine.execNvmeMiSend c s
  | .nvmeMiReceive c => Sys2Proof.Machine.execNvmeMiReceive c s
  | .getLogSupportedPages c => Sys2Proof.Machine.execGetLogSupportedPages c s
  | .getLogErrorInformation c => Sys2Proof.Machine.execGetLogErrorInformation c s
  | .getLogSmartHealth c => Sys2Proof.Machine.execGetLogSmartHealth c s
  | .getLogFirmwareSlot c => Sys2Proof.Machine.execGetLogFirmwareSlot c s
  | .getLogChangedNamespaces c => Sys2Proof.Machine.execGetLogChangedNamespaces c s
  | .getLogCommandsEffects c => Sys2Proof.Machine.execGetLogCommandsEffects c s
  | .getLogSanitizeStatus c => Sys2Proof.Machine.execGetLogSanitizeStatus c s
  | .getLogClampReport c => Sys2Proof.Machine.execGetLogClampReport c s
  | .getLogStripeHealth c => Sys2Proof.Machine.execGetLogStripeHealth c s
  | .getLogMantleThermal c => Sys2Proof.Machine.execGetLogMantleThermal c s
  | .getLogTakeDirectory c => Sys2Proof.Machine.execGetLogTakeDirectory c s
  | .getLogLifetimeHistograms c => Sys2Proof.Machine.execGetLogLifetimeHistograms c s
  | .setArbitration c => Sys2Proof.Machine.execSetArbitration c s
  | .setPsRun c => Sys2Proof.Machine.execSetPsRun c s
  | .setPsCapped c => Sys2Proof.Machine.execSetPsCapped c s
  | .enterDoze c => Sys2Proof.Machine.execEnterDoze c s
  | .enterSleep c => Sys2Proof.Machine.execEnterSleep c s
  | .enterDeepSleep c => Sys2Proof.Machine.execEnterDeepSleep c s
  | .setTemperatureThreshold c => Sys2Proof.Machine.execSetTemperatureThreshold c s
  | .setErrorRecovery c => Sys2Proof.Machine.execSetErrorRecovery c s
  | .setNumberOfQueues c => Sys2Proof.Machine.execSetNumberOfQueues c s
  | .setInterruptCoalescing c => Sys2Proof.Machine.execSetInterruptCoalescing c s
  | .setInterruptVectorConfig c => Sys2Proof.Machine.execSetInterruptVectorConfig c s
  | .setWriteAtomicity c => Sys2Proof.Machine.execSetWriteAtomicity c s
  | .setAsyncEventConfig c => Sys2Proof.Machine.execSetAsyncEventConfig c s
  | .setHostThermalManagement c => Sys2Proof.Machine.execSetHostThermalManagement c s
  | .setMantleState c => Sys2Proof.Machine.execSetMantleState c s
  | .setDirtyWindow c => Sys2Proof.Machine.execSetDirtyWindow c s
  | .setThermalPolicy c => Sys2Proof.Machine.execSetThermalPolicy c s
  | .setSteepleRole c => Sys2Proof.Machine.execSetSteepleRole c s
  | .getFeatures c => Sys2Proof.Machine.execGetFeatures c s
  | .getMantleState c => Sys2Proof.Machine.execGetMantleState c s
  | .write c => Sys2Proof.Machine.execWrite c s
  | .read c failing unrebuilt late => Sys2Proof.Machine.execRead c failing unrebuilt late s
  | .flush c => Sys2Proof.Machine.execFlush c s
  | .writeZeroes c => Sys2Proof.Machine.execWriteZeroes c s
  | .datasetManagement c => Sys2Proof.Machine.execDatasetManagement c s
  | .verify c failing unrebuilt => Sys2Proof.Machine.execVerify c failing unrebuilt s
  | .shred c => Sys2Proof.Machine.execShred c s
  | .frameWrite c => Sys2Proof.Machine.execFrameWrite c s
  | .frameSegmentTimeout => Sys2Proof.Machine.execFrameSegmentTimeout s
  | .takeNotRecordingReply => Sys2Proof.Machine.execTakeNotRecordingReply s
  | .takeOpen c => Sys2Proof.Machine.execTakeOpen c s
  | .takeCloseNow c => Sys2Proof.Machine.execTakeCloseNow c s
  | .takeCloseAtTime c => Sys2Proof.Machine.execTakeCloseAtTime c s
  | .takeDelete c => Sys2Proof.Machine.execTakeDelete c s
  | .triggerStart c => Sys2Proof.Machine.execTriggerStart c s
  | .triggerStop c => Sys2Proof.Machine.execTriggerStop c s
  | .triggerMark c => Sys2Proof.Machine.execTriggerMark c s
  | .scheduledTriggerFire => Sys2Proof.Machine.execScheduledTriggerFire s
  | .closePointReached => Sys2Proof.Machine.execClosePointReached s
  | .trigInEdge rising held age => Sys2Proof.Machine.execTrigInEdge rising held age s
  | .trigOutPulseEnd => Sys2Proof.Machine.execTrigOutPulseEnd s
  | .takDmaPiWrite agent d pi flush => Sys2Proof.Machine.execTakDmaPiWrite agent d pi flush s
  | .takDmaResume agent d data => Sys2Proof.Machine.execTakDmaResume agent d data s
  | .dmaMaxWaitExpiry d => Sys2Proof.Machine.execDmaMaxWaitExpiry d s
  | .dmaDescriptorArrival d desc => Sys2Proof.Machine.execDmaDescriptorArrival d desc s
  | .dmaReadbackComplete d value error => Sys2Proof.Machine.execDmaReadbackComplete d value error s
  | .dmaCoalesceTimer d => Sys2Proof.Machine.execDmaCoalesceTimer d s
  | .hostDataArrival cmd block data pi result => Sys2Proof.Machine.execHostDataArrival cmd block data pi result s
  | .chunkGrant => Sys2Proof.Machine.execChunkGrant s
  | .bulkPromotion => Sys2Proof.Machine.execBulkPromotion s
  | .sectorEncrypted lane cmd pick fault => Sys2Proof.Machine.execSectorEncrypted lane cmd pick fault s
  | .stagingCopyAccepted cmd => Sys2Proof.Machine.execStagingCopyAccepted cmd s
  | .stripeCloseTimer stripe => Sys2Proof.Machine.execStripeCloseTimer stripe s
  | .governorTick => Sys2Proof.Machine.execGovernorTick s
  | .degradedExit => Sys2Proof.Machine.execDegradedExit s
  | .mntPfiFall => Sys2Proof.Machine.execMntPfiFall s
  | .lossReport => Sys2Proof.Machine.execLossReport s
  | .powerRestored => Sys2Proof.Machine.execPowerRestored s
  | .coolFlushDeadline => Sys2Proof.Machine.execCoolFlushDeadline s
  | .replicaRealign => Sys2Proof.Machine.execReplicaRealign s
  | .journalPageTimer => Sys2Proof.Machine.execJournalPageTimer s
  | .checkpointDurable => Sys2Proof.Machine.execCheckpointDurable s
  | .fineTableWaitProceed => Sys2Proof.Machine.execFineTableWaitProceed s
  | .garbageCollectionRelocate work lane pick failing unrebuilt => Sys2Proof.Machine.execGarbageCollectionRelocate work lane pick failing unrebuilt s
  | .slowClassifyTick => Sys2Proof.Machine.execSlowClassifyTick s
  | .slowProbe link latencies => Sys2Proof.Machine.execSlowProbe link latencies s
  | .readHedgeTimeout read sector first => Sys2Proof.Machine.execReadHedgeTimeout read sector first s
  | .auditStripe mismatch failing => Sys2Proof.Machine.execAuditStripe mismatch failing s
  | .operationRequest link die entry block page planes first count pages slc cls buffer why => Sys2Proof.Machine.execOperationRequest link die entry block page planes first count pages slc cls buffer why s
  | .operationStart sleeve => Sys2Proof.Machine.execOperationStart sleeve s
  | .operationEnd sleeve op rebuilt => Sys2Proof.Machine.execOperationEnd sleeve op rebuilt s
  | .nop sleeve => Sys2Proof.Machine.execNop sleeve s
  | .cmd sleeve => Sys2Proof.Machine.execCmd sleeve s
  | .addr sleeve => Sys2Proof.Machine.execAddr sleeve s
  | .doutRaw sleeve => Sys2Proof.Machine.execDoutRaw sleeve s
  | .doutImage sleeve => Sys2Proof.Machine.execDoutImage sleeve s
  | .dinRaw sleeve => Sys2Proof.Machine.execDinRaw sleeve s
  | .dinImage sleeve => Sys2Proof.Machine.execDinImage sleeve s
  | .dinSoft sleeve => Sys2Proof.Machine.execDinSoft sleeve s
  | .statusWord sleeve => Sys2Proof.Machine.execStatusWord sleeve s
  | .wait sleeve => Sys2Proof.Machine.execWait sleeve s
  | .waitEnd sleeve op => Sys2Proof.Machine.execWaitEnd sleeve op s
  | .timerArmWatchdog sleeve => Sys2Proof.Machine.execTimerArmWatchdog sleeve s
  | .timerStopWatchdog sleeve => Sys2Proof.Machine.execTimerStopWatchdog sleeve s
  | .timerArmPoll sleeve => Sys2Proof.Machine.execTimerArmPoll sleeve s
  | .pollTimerExpiry sleeve op => Sys2Proof.Machine.execPollTimerExpiry sleeve op s
  | .sleeveWatchdogExpiry sleeve op => Sys2Proof.Machine.execSleeveWatchdogExpiry sleeve op s
  | .movi sleeve => Sys2Proof.Machine.execMovi sleeve s
  | .addWord sleeve => Sys2Proof.Machine.execAddWord sleeve s
  | .addi sleeve => Sys2Proof.Machine.execAddi sleeve s
  | .sub sleeve => Sys2Proof.Machine.execSub sleeve s
  | .andWord sleeve => Sys2Proof.Machine.execAndWord sleeve s
  | .orWord sleeve => Sys2Proof.Machine.execOrWord sleeve s
  | .xorWord sleeve => Sys2Proof.Machine.execXorWord sleeve s
  | .shli sleeve => Sys2Proof.Machine.execShli sleeve s
  | .shri sleeve => Sys2Proof.Machine.execShri sleeve s
  | .andi sleeve => Sys2Proof.Machine.execAndi sleeve s
  | .ori sleeve => Sys2Proof.Machine.execOri sleeve s
  | .cmp sleeve => Sys2Proof.Machine.execCmp sleeve s
  | .cmpi sleeve => Sys2Proof.Machine.execCmpi sleeve s
  | .loadPersonality sleeve => Sys2Proof.Machine.execLoadPersonality sleeve s
  | .loadScratch sleeve => Sys2Proof.Machine.execLoadScratch sleeve s
  | .loadContextState sleeve => Sys2Proof.Machine.execLoadContextState sleeve s
  | .store sleeve => Sys2Proof.Machine.execStore sleeve s
  | .branchJump sleeve => Sys2Proof.Machine.execBranchJump sleeve s
  | .branchCall sleeve => Sys2Proof.Machine.execBranchCall sleeve s
  | .branchReturn sleeve => Sys2Proof.Machine.execBranchReturn sleeve s
  | .reportOk sleeve => Sys2Proof.Machine.execReportOk sleeve s
  | .reportFail sleeve => Sys2Proof.Machine.execReportFail sleeve s
  | .reportInterrupted sleeve => Sys2Proof.Machine.execReportInterrupted sleeve s
  | .yield sleeve => Sys2Proof.Machine.execYield sleeve s
  | .decodeHard sleeve => Sys2Proof.Machine.execDecodeHard sleeve s
  | .decodeSoft sleeve => Sys2Proof.Machine.execDecodeSoft sleeve s
  | .decodeComplete sleeve op good => Sys2Proof.Machine.execDecodeComplete sleeve op good s
  | .trap sleeve => Sys2Proof.Machine.execTrap sleeve s
  | .endWord sleeve => Sys2Proof.Machine.execEndWord sleeve s
  | .illegalWord sleeve ecc => Sys2Proof.Machine.execIllegalWord sleeve ecc s
  | .microcodePatch c => Sys2Proof.Machine.execMicrocodePatch c s
  | .crossoverTimeout sleeve => Sys2Proof.Machine.execCrossoverTimeout sleeve s
  | .jlBlockLockAcquire link => Sys2Proof.Machine.execJlBlockLockAcquire link s
  | .jlBlockLockLoss link => Sys2Proof.Machine.execJlBlockLockLoss link s
  | .jlTs1 link ts => Sys2Proof.Machine.execJlTs1 link ts s
  | .jlTs2 link ts => Sys2Proof.Machine.execJlTs2 link ts s
  | .jlStart link => Sys2Proof.Machine.execJlStart link s
  | .jlPark link => Sys2Proof.Machine.execJlPark link s
  | .jlElectricalIdleExit link => Sys2Proof.Machine.execJlElectricalIdleExit link s
  | .jlStateTimeout link => Sys2Proof.Machine.execJlStateTimeout link s
  | .jlEqualizeStep link eyeW eyeH ctle dfe => Sys2Proof.Machine.execJlEqualizeStep link eyeW eyeH ctle dfe s
  | .jlSpeedChangeIdleEnd link => Sys2Proof.Machine.execJlSpeedChangeIdleEnd link s
  | .jlTrainingWindowExpiry link => Sys2Proof.Machine.execJlTrainingWindowExpiry link s
  | .jlDownRetry link => Sys2Proof.Machine.execJlDownRetry link s
  | .jlDownRetire link => Sys2Proof.Machine.execJlDownRetire link s
  | .jlFlitReceive link flit => Sys2Proof.Machine.execJlFlitReceive link flit s
  | .jlReplayTimeout link => Sys2Proof.Machine.execJlReplayTimeout link s
  | .jlCtlRetrain agent link => Sys2Proof.Machine.execJlCtlRetrain agent link s
  | .jlCtlRetrainFull agent link => Sys2Proof.Machine.execJlCtlRetrainFull agent link s
  | .jlMarginStart agent link data => Sys2Proof.Machine.execJlMarginStart agent link data s
  | .jlMarginAbort agent link data => Sys2Proof.Machine.execJlMarginAbort agent link data s
  | .jlMarginDone link errors => Sys2Proof.Machine.execJlMarginDone link errors s
  | .jlTestStart agent link data => Sys2Proof.Machine.execJlTestStart agent link data s
  | .jlTestStop agent link data locked errors => Sys2Proof.Machine.execJlTestStop agent link data locked errors s
  | .dataIn link => Sys2Proof.Machine.execDataIn link s
  | .statusResp link => Sys2Proof.Machine.execStatusResp link s
  | .edgeCapsule link => Sys2Proof.Machine.execEdgeCapsule link s
  | .tempCapsule link => Sys2Proof.Machine.execTempCapsule link s
  | .errorCapsule link => Sys2Proof.Machine.execErrorCapsule link s
  | .mgmtResp link => Sys2Proof.Machine.execMgmtResp link s
  | .jlReplyTimeout link => Sys2Proof.Machine.execJlReplyTimeout link s
  | .jlTempStale link => Sys2Proof.Machine.execJlTempStale link s
  | .keyLoadLoad c => Sys2Proof.Machine.execKeyLoadLoad c s
  | .keyLoadGenerate c => Sys2Proof.Machine.execKeyLoadGenerate c s
  | .keyLoadClear c => Sys2Proof.Machine.execKeyLoadClear c s
  | .keyRecordDurable slot => Sys2Proof.Machine.execKeyRecordDurable slot s
  | .entropyHealthFail => Sys2Proof.Machine.execEntropyHealthFail s
  | .maskingReseed => Sys2Proof.Machine.execMaskingReseed s
  | .dramRefreshTick ch due busy => Sys2Proof.Machine.execDramRefreshTick ch due busy s
  | .dramMr4Poll ch mr4 => Sys2Proof.Machine.execDramMr4Poll ch mr4 s
  | .dramWck2dqiTrack ch drift edges => Sys2Proof.Machine.execDramWck2dqiTrack ch drift edges s
  | .dramReadReturn addr sub outcome symbol copy resend => Sys2Proof.Machine.execDramReadReturn addr sub outcome symbol copy resend s
  | .dramLineRebuildTimeout => Sys2Proof.Machine.execDramLineRebuildTimeout s
  | .dramScrubRead ch idle outcome symbol => Sys2Proof.Machine.execDramScrubRead ch idle outcome symbol s
  | .dramTrainingFail ch => Sys2Proof.Machine.execDramTrainingFail ch s
  | .writeData => Sys2Proof.Machine.execWriteData s
  | .writeCheck => Sys2Proof.Machine.execWriteCheck s
  | .writeBoth => Sys2Proof.Machine.execWriteBoth s
  | .readRaw => Sys2Proof.Machine.execReadRaw s
  | .drcTestRead outcome symbol => Sys2Proof.Machine.execDrcTestRead outcome symbol s
  | .mntSampleInstant slot => Sys2Proof.Machine.execMntSampleInstant slot s
  | .mntPeriodCompute slot codes wait => Sys2Proof.Machine.execMntPeriodCompute slot codes wait s
  | .chargeLimitedTimer => Sys2Proof.Machine.execChargeLimitedTimer s
  | .mntLoopBypassWrite agent slot data => Sys2Proof.Machine.execMntLoopBypassWrite agent slot data s
  | .mntTargetWrite agent slot data => Sys2Proof.Machine.execMntTargetWrite agent slot data s
  | .mntLoopFlagsClear agent slot data arriving => Sys2Proof.Machine.execMntLoopFlagsClear agent slot data arriving s
  | .mntFaultNFall => Sys2Proof.Machine.execMntFaultNFall s
  | .mntFaultNRelease => Sys2Proof.Machine.execMntFaultNRelease s
  | .mntTrcArm agent slot data => Sys2Proof.Machine.execMntTrcArm agent slot data s
  | .mntTrcTrigger agent slot data => Sys2Proof.Machine.execMntTrcTrigger agent slot data s
  | .mntTrcStop agent slot data => Sys2Proof.Machine.execMntTrcStop agent slot data s
  | .mntStringSample codes => Sys2Proof.Machine.execMntStringSample codes s
  | .mntTempSample codes => Sys2Proof.Machine.execMntTempSample codes s
  | .mntEnergyCompute => Sys2Proof.Machine.execMntEnergyCompute s
  | .mntChargeControl => Sys2Proof.Machine.execMntChargeControl s
  | .mntLearnStart agent data => Sys2Proof.Machine.execMntLearnStart agent data s
  | .mntLearnAbort agent data => Sys2Proof.Machine.execMntLearnAbort agent data s
  | .learnDischargeBegin => Sys2Proof.Machine.execLearnDischargeBegin s
  | .learnDischargeEnd => Sys2Proof.Machine.execLearnDischargeEnd s
  | .learnRestEnd => Sys2Proof.Machine.execLearnRestEnd s
  | .learnRechargeDone => Sys2Proof.Machine.execLearnRechargeDone s
  | .compatRecordWrite learning => Sys2Proof.Machine.execCompatRecordWrite learning s
  | .powerOff c => Sys2Proof.Machine.execPowerOff c s
  | .entryDrainDone => Sys2Proof.Machine.execEntryDrainDone s
  | .entryGatingDone => Sys2Proof.Machine.execEntryGatingDone s
  | .wakeNLow => Sys2Proof.Machine.execWakeNLow s
  | .mgmtMessageWake => Sys2Proof.Machine.execMgmtMessageWake s
  | .offMgmtTransaction => Sys2Proof.Machine.execOffMgmtTransaction s
  | .offBelfryHalt => Sys2Proof.Machine.execOffBelfryHalt s
  | .wakeTimerExpiry => Sys2Proof.Machine.execWakeTimerExpiry s
  | .exitComplete failedLanes codes => Sys2Proof.Machine.execExitComplete failedLanes codes s
  | .thmSensorResult raw temp volt => Sys2Proof.Machine.execThmSensorResult raw temp volt s
  | .thmRateTick => Sys2Proof.Machine.execThmRateTick s
  | .graceExpiry => Sys2Proof.Machine.execGraceExpiry s
  | .tripRestart => Sys2Proof.Machine.execTripRestart s
  | .sensorSelfTest pass => Sys2Proof.Machine.execSensorSelfTest pass s
  | .tripRecordWrite => Sys2Proof.Machine.execTripRecordWrite s
  | .fanCheck pulses => Sys2Proof.Machine.execFanCheck pulses s
  | .faultClear r => Sys2Proof.Machine.execFaultClear r s
  | .tripAck r => Sys2Proof.Machine.execTripAck r s
  | .maintRequest r => Sys2Proof.Machine.execMaintRequest r s
  | .maintCancel r => Sys2Proof.Machine.execMaintCancel r s
  | .linkIsolate r => Sys2Proof.Machine.execLinkIsolate r s
  | .linkReturn r => Sys2Proof.Machine.execLinkReturn r s
  | .linkRetire r => Sys2Proof.Machine.execLinkRetire r s
  | .sleeveBypass r => Sys2Proof.Machine.execSleeveBypass r s
  | .sleeveReturn r => Sys2Proof.Machine.execSleeveReturn r s
  | .laneBypass r => Sys2Proof.Machine.execLaneBypass r s
  | .laneTest r pass => Sys2Proof.Machine.execLaneTest r pass s
  | .laneReturn r => Sys2Proof.Machine.execLaneReturn r s
  | .loopBypass r => Sys2Proof.Machine.execLoopBypass r s
  | .loopReturn r => Sys2Proof.Machine.execLoopReturn r s
  | .portReset r => Sys2Proof.Machine.execPortReset r s
  | .channelRetire r => Sys2Proof.Machine.execChannelRetire r s
  | .channelReturn r => Sys2Proof.Machine.execChannelReturn r s
  | .logRead r => Sys2Proof.Machine.execLogRead r s
  | .schedulingPass norFails => Sys2Proof.Machine.execSchedulingPass norFails s
  | .maintActivityEnd activity resource => Sys2Proof.Machine.execMaintActivityEnd activity resource s
  | .marginMeasurement => Sys2Proof.Machine.execMarginMeasurement s
  | .countersRecordWrite => Sys2Proof.Machine.execCountersRecordWrite s
  | .stpUpLockAcquired => Sys2Proof.Machine.execStpUpLockAcquired s
  | .stpDnLockAcquired => Sys2Proof.Machine.execStpDnLockAcquired s
  | .stpUpLockLost violations => Sys2Proof.Machine.execStpUpLockLost violations s
  | .stpDnLockLost violations => Sys2Proof.Machine.execStpDnLockLost violations s
  | .stpTime msg => Sys2Proof.Machine.execStpTime msg s
  | .stpDelayReq msg turn => Sys2Proof.Machine.execStpDelayReq msg turn s
  | .stpDelayResp msg => Sys2Proof.Machine.execStpDelayResp msg s
  | .stpTrigger msg => Sys2Proof.Machine.execStpTrigger msg s
  | .stpTakeOpen msg => Sys2Proof.Machine.execStpTakeOpen msg s
  | .stpTakeClose msg => Sys2Proof.Machine.execStpTakeClose msg s
  | .stpCal msg => Sys2Proof.Machine.execStpCal msg s
  | .stpStatus msg => Sys2Proof.Machine.execStpStatus msg s
  | .stpTimeSend => Sys2Proof.Machine.execStpTimeSend s
  | .stpDelayReqSend => Sys2Proof.Machine.execStpDelayReqSend s
  | .stpCalSend => Sys2Proof.Machine.execStpCalSend s
  | .stpStatusSend => Sys2Proof.Machine.execStpStatusSend s
  | .stpBroadcastRepeat => Sys2Proof.Machine.execStpBroadcastRepeat s
  | .stpAcquireTimeout => Sys2Proof.Machine.execStpAcquireTimeout s
  | .stpSlewComplete => Sys2Proof.Machine.execStpSlewComplete s
  | .stpRefPpsEdge => Sys2Proof.Machine.execStpRefPpsEdge s
  | .stpRefPpsLoss => Sys2Proof.Machine.execStpRefPpsLoss s
  | .stpRef10mLoss => Sys2Proof.Machine.execStpRef10mLoss s
  | .stpCalCtlWrite agent data => Sys2Proof.Machine.execStpCalCtlWrite agent data s
  | .miReadDataStructure nmd0 nmd1 => Sys2Proof.Machine.execMiReadDataStructure nmd0 nmd1 s
  | .miSubsystemHealthPoll nmd0 nmd1 => Sys2Proof.Machine.execMiSubsystemHealthPoll nmd0 nmd1 s
  | .miControllerHealthPoll nmd0 nmd1 => Sys2Proof.Machine.execMiControllerHealthPoll nmd0 nmd1 s
  | .miConfigurationSet nmd0 nmd1 => Sys2Proof.Machine.execMiConfigurationSet nmd0 nmd1 s
  | .miConfigurationGet nmd0 nmd1 => Sys2Proof.Machine.execMiConfigurationGet nmd0 nmd1 s
  | .miVpdRead nmd0 nmd1 => Sys2Proof.Machine.execMiVpdRead nmd0 nmd1 s
  | .miVpdWrite nmd0 nmd1 data => Sys2Proof.Machine.execMiVpdWrite nmd0 nmd1 data s
  | .miReset nmd0 nmd1 => Sys2Proof.Machine.execMiReset nmd0 nmd1 s
  | .miShutdown nmd0 nmd1 => Sys2Proof.Machine.execMiShutdown nmd0 nmd1 s
  | .miAdminCommand op c => Sys2Proof.Machine.execMiAdminCommand op c s
  | .fittingStage c => Sys2Proof.Machine.execFittingStage c s
  | .fittingBegin c => Sys2Proof.Machine.execFittingBegin c s
  | .fittingCommit c => Sys2Proof.Machine.execFittingCommit c s
  | .fittingAbort c => Sys2Proof.Machine.execFittingAbort c s
  | .fittingBeginStageCommit c => Sys2Proof.Machine.execFittingBeginStageCommit c s
  | .fittingReport c => Sys2Proof.Machine.execFittingReport c s
  | .invalidCommandOpcode c => Sys2Proof.Machine.execInvalidCommandOpcode c s
  | .mailboxUnsupportedOpcode r => Sys2Proof.Machine.execMailboxUnsupportedOpcode r s
  | .pcieLinkUp ctrl rate lanes => Sys2Proof.Machine.execPcieLinkUp ctrl rate lanes s
  | .configurationRequest port => Sys2Proof.Machine.execConfigurationRequest port s
  | .vauxFall => Sys2Proof.Machine.execVauxFall s
  | .mntPfiRise => Sys2Proof.Machine.execMntPfiRise s
  | .stpRef10mLock => Sys2Proof.Machine.execStpRef10mLock s
  | .stpMemberTimeout => Sys2Proof.Machine.execStpMemberTimeout s
  | .entropyFaultClear windows => Sys2Proof.Machine.execEntropyFaultClear windows s
  | .dramRetrainDone ch ok => Sys2Proof.Machine.execDramRetrainDone ch ok s
  | .enumerateDieDeadline => Sys2Proof.Machine.execEnumerateDieDeadline s

end Sys2Proof.Machine
end

