-- ==== Sys2Proof/Machine/Idle.lean ====
section
/-!
DEFINITION. Machine/Idle.lean: what a step does when no command waits (log entry 1).
-/
namespace Sys2Proof.Machine

/-- Admin commands that wait for SEQs are taken up again. -/
def State.retrySeqs (s : State) : State :=
  if s.nvme.seqWaits.isEmpty || !s.mainUp || !s.seqRoom 1 then s
  else (s.nvme.seqWaits.foldl (fun (t : State) x => match x.1 with
    | 0 => t.nsDeleteCmd x.2
    | _ => t.keyLoad x.2) { s with nvme := { s.nvme with seqWaits := [] } }).settleDma

/-- What waits for the time alone on the data path goes on: frames in flight whose place becomes sure, takes past their close point, deallocations
of the take service that wait for SEQs. -/
def State.takeIdle (s : State) : State :=
  if s.mainUp && (!s.takes.inflight.isEmpty || !s.path.trims.isEmpty || s.openTakes.any fun t => t.state == 3) then s.settleDma else s

/-- Reads that are kept open for the meter, or for an entry of the map, go on. -/
def State.readsIdle (s : State) : State := if s.mainUp && s.path.reads.any fun r => r.late.isEmpty then s.readsGo.settleDma else s

/-- A nanosecond passes: a change of the meters that is due takes effect, vectors whose aggregation time has passed are sent, commands that waited
for SEQs go on, a Firmware Commit in progress ends, frames and takes that waited for the time go on, a checkpoint
that was asked for starts, reads that waited for the read meter or for a rebuilt entry of the map go on, each DRAM channel serves a request of its queues. -/
def State.idle (s : State) : State := ({ s with now := s.now + 1 } : State).capStep.coalesceDue.retrySeqs.commitEnd.takeIdle.readsIdle.cpGo.serveDram

end Sys2Proof.Machine
end

