-- ==== Sys2Proof/Safety.lean ====
section
/-!
DEFINITION. Safety.lean: what counts as a safe run, in the terms the statements use: the OTP keeps every burnt bit, an
OWNED device does not become OPEN again, and the block neither faults nor refuses; and the conditions on a state that
statements share.
-/
namespace Sys2Proof.Machine.Safety

/-- Every bit of `o` is burnt in the OTP (03: a bit can only change from 0 to 1). -/
def otpHolds (o : Nat → Word) (s : State) : Prop := ∀ w, o w &&& s.otpWord w = o w

/-- The lifecycle may go on from one value to another: OPEN to OWNED to RETIRED and no other way (03 R92). -/
def lifecycleMay (a b : Nat) : Bool := a == b || a == 0 || (a == 1 && (b == 3 || b == 7)) || (a == 3 && b == 7)

/-- The main domain runs in state Run and no power transition is under way (20). -/
abbrev inRun (s : State) : Prop := s.board.mainRunning = true ∧ s.pwrState = 0 ∧ s.pwrPhase = 0

/-- A 32-bit write reaches a register that is not RWF and that no block gives a behaviour of its own (00 Table 0.3). -/
abbrev plainWriteTo (s : State) (agent off : Nat) (data : Word) : Prop :=
  isRwf off = false ∧ s.writeGlobal agent off data = none ∧ s.writeTake agent off data = none ∧ s.writeLink off data = none ∧
    s.writeMantle agent off data = none ∧ s.writeMailbox agent off data = none ∧ off ≠ Reg.DRC_TEST_CTL

/-- A command is outstanding on its queue, or came over NVMe-MI, which has no queue (06). -/
abbrev awaited (s : State) (c : Sqe) : Prop := s.outstanding c.mi c.ctrl.val c.sq c.cid = true

/-- What a completion says of a command: its controller, queue and identifier, and its status. -/
abbrev Answers (x : Cpl) (c : Sqe) (sct sc : Nat) : Prop :=
  x.ctrl = c.ctrl.val ∧ x.mi = c.mi ∧ x.sq = c.sq ∧ x.cid = c.cid ∧ x.sct = sct ∧ x.sc = sc

/-! ### Sleeves (13) -/

/-- The word that issues next on Sleeve i is the legal word w, of opcode `op`, of record r, which its number names. -/
abbrev wordNext (s : State) (i : Nat) (r : OpRec) (w : CtlWord) (op : Nat) : Prop :=
  s.mainUp = true ∧ s.nextIssue i = some r ∧ s.opRec i r.desc.id = some r ∧ r.regs.length = 16 ∧ (s.sleeve i).fetch r = some w ∧
    w.legal = true ∧ w.op = op

/-- A record past a word: the next address, CYC cycles of 1.25 ns, and what ARRAY_SET and ARRAY_CLR do (13 R466, Table 13.3). -/
def afterIssue (r : OpRec) (w : CtlWord) (now : Nat) : OpRec :=
  let x := { r with pc := (r.pc + 1) % 8192, readyAt := 4 * now + 5 * w.cyc }
  if w.arraySet then
    { x with
      arrayBusy := true, begun := now, confirmAt := if r.confirmAt.isSome then r.confirmAt else some now, suspended := false, wdogPaused := false,
      wdogFrom := if r.wdogPaused then now else r.wdogFrom }
  else if w.arrayClr then { x with arrayBusy := false }
  else x

/-- Of all records only the one of this number has changed, and nothing outside the Sleeves has. -/
def onlyRec (s t : State) (i id : Nat) : Prop :=
  (∀ k, k ≠ id → t.opRec i k = s.opRec i k) ∧ (∀ j, j ≠ i → t.sleeve j = s.sleeve j) ∧ t = { s with slv := t.slv }

/-- A word has run on record r: the record is x, and no other record and nothing outside the Sleeves has changed. -/
def wordRan (s : State) (i : Nat) (r : OpRec) (c : Instr) (x : OpRec) : Prop :=
  ∃ t, exec c s = .next t ∧ t.opRec i r.desc.id = some x ∧ onlyRec s t i r.desc.id

/-- An ALU word has run: its result and its flags. -/
def aluRan (s : State) (i : Nat) (r : OpRec) (w : CtlWord) (c : Instr) (write : Bool) (res : Word) (carry : Bool) : Prop :=
  wordRan s i r c { afterIssue r w s.now with
    regs := if write then modAt r.regs w.dst (fun _ => res) else r.regs, z := res == 0, n := res.getLsbD 31, c := carry }

/-- A fault has been taken by record r (13 R472 to R474): into the fault handler, or, met in it, the end of the operation, FAIL with the fault's
code, its die to be reset. -/
def faultRan (s : State) (i : Nat) (r : OpRec) (c : Instr) (code : Nat) : Prop :=
  ∃ t x, exec c s = .next t ∧ t.opRec i r.desc.id = some x ∧ x.faultCode = code ∧
    (r.handler = false → x.handler = true ∧ x.faultPc = r.pc ∧ x.pc = (s.sleeve i).faultEntry ∧ t.rd (Reg.SLV_FAULT_CODE i) = code ∧
      t.evtStatus (1024 + 8 * i) = true) ∧
    (r.handler = true → x.ended = true ∧ x.report = some (1, BitVec.ofNat 32 code) ∧ (t.die r.desc.link r.desc.die).needsReset = true)

/-- The capsule a word sends: to its record's die, on the channel of its class. -/
def sent (s : State) (r : OpRec) (w : CtlWord) (ty flags : Nat) (payload : List Byte) : State :=
  s.sendCapFor r.desc.link (some r.desc.die) (w.vc r.desc.cls) (capsule ty flags (dieArgs r.desc.die w.cyc) payload) none

/-! ### NVMe commands (06) -/

/-- An admin command runs: its controller takes it, and nothing turns it away first (06 R185, R214, R215, R225). -/
abbrev runs (s : State) (c : Sqe) (kind : AdminKind) : Prop := s.acts c = true ∧ s.adminRefused c kind = none

/-- The state a command runs on: it is outstanding. -/
def begun (s : State) (c : Sqe) : State := if c.mi then s else s.fetched c

/-- The completion of a command. -/
def cpl (c : Sqe) (st : Status) (dw0 dw1 : Nat) (data : List Byte) : Cpl :=
  ⟨c.ctrl.val, c.mi, c.sq, c.cid, st.sct, st.sc, st.dnr, st.crd, dw0, dw1, data⟩

/-- Nothing but the NVM subsystem and the interrupt writes queued has changed. -/
def onlyNvme (s t : State) : Prop := t = { s with evt := { s.evt with msix := t.evt.msix }, nvme := t.nvme }

/-- A completion is posted and signalled, and nothing else has changed but the commands outstanding. -/
def completed (s t : State) (x : Cpl) : Prop :=
  t.nvme.cpls = s.nvme.cpls ++ [x] ∧ onlyNvme s t ∧
    t.nvme = { s.nvme with
      ctrls := t.nvme.ctrls, cpls := t.nvme.cpls, outs := t.nvme.outs, fetchSeq := t.nvme.fetchSeq, miReplies := t.nvme.miReplies } ∧
    ∀ k, t.ctrl k = { s.ctrl k with
      cqs := (t.ctrl k).cqs, errLog := (t.ctrl k).errLog, errCount := (t.ctrl k).errCount, coal := (t.ctrl k).coal, pcie := (t.ctrl k).pcie }

/-- A command completes so and does nothing else. -/
def answered (s : State) (i : Instr) (x : Cpl) : Prop := ∃ t, exec i s = .next t ∧ completed s t x

/-- A command has left the state u and completes on it. -/
def endsOn (s : State) (i : Instr) (u : State) (x : Cpl) : Prop := ∃ t, exec i s = .next t ∧ completed u t x

/-- A command completes so, does nothing else, and what waited for the path or a channel is served. -/
def settled (s : State) (i : Instr) (x : Cpl) : Prop := ∃ u, exec i s = .next (State.settleDma u) ∧ completed s u x

/-- A log page is given: the bytes asked for from its body b, its asynchronous events withheld no longer unless they are to be retained; an offset that is no
multiple of 4 or lies past the page is an invalid field (06 R221). -/
def page (s : State) (i : Instr) (c : Sqe) (id : Nat) (b : List Byte) : Prop :=
  if c.logOffset % 4 = 0 ∧ c.logOffset ≤ b.length then
    ∃ t, exec i s = .next t ∧ t.nvme.cpls = s.nvme.cpls ++ [cpl c stOk 0 0 (slice b c.logOffset c.logBytes)] ∧
      (t.ctrl c.ctrl.val).withheld = (if c.rae then (s.ctrl c.ctrl.val).withheld else (s.ctrl c.ctrl.val).withheld.filter fun p => p != id)
  else ∃ t, exec i s = .next t ∧ t.nvme.cpls = s.nvme.cpls ++ [cpl c stInvalidField 0 0 []]

/-! ### The Belfry's messages (22 R731 to R733) -/

/-- A request whose opcode is `op` is served: the Belfry runs and is not in recovery mode. -/
abbrev mbServes (s : State) (r : MbReq) (op : Nat) : Prop := s.belfryRuns = true ∧ s.recoveryMode = false ∧ (s.mbMsg r).op = op

/-- The state a request acts on: its GO is taken, it is the last opcode served, and a message keeps an Off Belfry running. -/
def mbBegun (s : State) (r : MbReq) (op : Nat) : State :=
  ((match r with | .go _ => s | .mctp _ => s.noteMgmt).mbGo r).modMaint fun x => { x with lastOp := op }

/-- The bytes of a response: OPCODE, STATUS, TAG, LEN, DETAIL, data (Table 22.1). -/
def mbBytes (m : MbMsg) (a : MbAns) : List Byte :=
  leBytes 2 m.op ++ leBytes 2 a.status ++ leBytes 4 m.tag ++ leBytes 4 a.data.length ++ leBytes 4 a.detail ++ a.data

/-- A response stands: STATE 2, its length and its words with source 1,776 in a mailbox, or a message sent on the management port. -/
def responded (s t : State) (r : MbReq) (m : MbMsg) (a : MbAns) : Prop :=
  match r with
  | .go c => t.rd (Reg.BEL_MB_STATUS_STATE c.val) = 2 ∧ t.rd (Reg.BEL_MB_STATUS_RESP_BYTES c.val) = (mbBytes m a).length % 65536 ∧ t.evtStatus 1776 = true ∧
      ∀ v, v < 128 → t.reg (Reg.BEL_MB_RESP c.val v) = BitVec.ofNat 32 (leAt (mbBytes m a) (4 * v) 4)
  | .mctp _ => t.port.sent = s.port.sent ++ [s.ianaHead ++ mbBytes m a]

/-- A request is answered so, and nothing in the OTP or on the board has changed. -/
def mbAnswered (s : State) (i : Instr) (r : MbReq) (a : MbAns) : Prop :=
  ∃ t, exec i s = .next t ∧ responded s t r (s.mbMsg r) a ∧ t.boot = s.boot ∧ t.board = s.board

/-- A live operation that has left state w is recorded and answered. -/
def liveDone (s : State) (r : MbReq) (op : Nat) (w : State) (a : MbAns) : State :=
  (w.record 0x11 1 [op, leAt (s.mbMsg r).args 0 2, a.status, (s.mbMsg r).agent]).mbRespond r (s.mbMsg r) a

end Sys2Proof.Machine.Safety
end

