-- ==== Sys2Proof/Certificates/Slice0/Obligations.lean ====
section
/-!
DEFINITION. Certificates/Slice0/Obligations.lean: the statements about the model, each with the rule of spec/ it formalises.
-/

open Sys2Proof
open Sys2Proof.Machine

/-- For every command c, queue rest and state s, the step of s with c in front of rest is exec c on s with the queue rest
(log entry 1: the queue is the model's own). -/
def Obligations.StepRunsFrontCommand : Prop :=
  ∀ (c : Instr) (rest : List Instr) (s : State), step { s with pending := c :: rest } = exec c { s with pending := rest }

/-- The model's choice of log entry 1: on an empty queue a step advances the model clock by one nanosecond and leaves the
queue empty and the OTP as it was. -/
def Obligations.EmptyQueueLetsTimePass : Prop :=
  ∀ s : State, s.pending = [] → ∃ t, step s = .next t ∧ t.now = s.now + 1 ∧ t.pending = [] ∧ t.boot.otp = s.boot.otp

/-- No command faults or refuses in any state; a command takes nothing from the queue that waits behind it and advances
the model clock by nothing. -/
def Obligations.CommandsNeverStop : Prop :=
  ∀ (c : Instr) (s : State), ∃ t, exec c s = .next t ∧ t.pending = s.pending ∧ t.now = s.now

/-- Whatever OTP bits hold before a step hold after it: for every set o of bits, if every bit of o is burnt in s and a
step of s answers next t, every bit of o is burnt in t (03: a bit can only change from 0 to 1). -/
def Obligations.OtpBitsNeverClear : Prop :=
  ∀ (o : Nat → Word) (s t : State), Safety.otpHolds o s → step s = .next t → Safety.otpHolds o t

/-- State.reset holds the OTP bits it is shipped with (log entry 5: DEVICE_ID and an OPEN device; the model's choice):
LIFECYCLE decodes as OPEN and no bit outside words 0 and 3 is burnt. -/
def Obligations.ResetOtpHolds : Prop :=
  Safety.otpHolds (fun w => if w = 0 then 0x00115120 else if w = 3 then 1 else 0) State.reset ∧ State.reset.lifecycle = 1 ∧
  ∀ w, w ≠ 0 → w ≠ 3 → State.reset.otpWord w = 0

/-- Where LIFECYCLE reads as a value of Table 3.5 other than the one every unlisted value decodes to, a step leaves it or
advances it: from OPEN to OWNED or RETIRED, from OWNED to RETIRED, and never back. -/
def Obligations.LifecycleOnlyAdvances : Prop :=
  ∀ s t : State, s.lifecycle ≠ 7 → step s = .next t → Safety.lifecycleMay s.lifecycle t.lifecycle = true

/-- In Run, BEGIN by any agent with FIT_STATUS.STATE IDLE gives a next state in which STATE is OPEN, OWNER the agent,
RESULT 0, OVERFLOW 0, FIT_ID one higher (modulo 2^32), nothing is staged, the snapshot holds every RWF register, and
every other register and part of the state is as before. In any other STATE the fitting is as before and the write is
recorded as a violation. -/
def Obligations.FittingBegins : Prop :=
  ∀ (a : Fin 8) (s : State), Safety.inRun s →
    (s.rd Reg.FIT_STATUS_STATE = 0 → ∃ t, exec (.beginFitting a) s = .next t ∧
      t.rd Reg.FIT_STATUS_STATE = 1 ∧ t.rd Reg.FIT_STATUS_OWNER = a.val ∧ t.rd Reg.FIT_STATUS_RESULT = 0 ∧
      t.rd Reg.FIT_STATUS_OVERFLOW = 0 ∧ t.rd Reg.FIT_ID_ID = (s.rd Reg.FIT_ID_ID + 1) % 2 ^ 32 ∧ t.rd Reg.FIT_STAGED_COUNT = 0 ∧
      t.fit.staged = [] ∧ t.fit.snapshot = s.regs.filter (fun e => isRwf e.1) ∧
      (∀ o, o ≠ Reg.FIT_STATUS → o ≠ Reg.FIT_ID → o ≠ Reg.FIT_STAGED → t.reg o = s.reg o) ∧
      t = { s with regs := t.regs, fit := t.fit }) ∧
    (s.rd Reg.FIT_STATUS_STATE ≠ 0 → ∃ t, exec (.beginFitting a) s = .next t ∧
      t.rd Reg.GBL_ACCESS_VIOL_CTL_VALID = 1 ∧ t.fit.staged = s.fit.staged ∧ t.reg Reg.FIT_STATUS = s.reg Reg.FIT_STATUS ∧
      t.reg Reg.FIT_ID = s.reg Reg.FIT_ID)

/-- In Run: a write of the owner of an OPEN fitting to an RWF register is staged under its offset, its reserved bits 0, in
place of an earlier one and changes no register but FIT_STAGED; with 4,096 other registers staged it sets OVERFLOW and
is discarded; a write while no fitting is open, or of another agent, stages nothing, changes no RWF register and is
recorded as a violation; a write to an offset that is no RWF register stages nothing. -/
def Obligations.FittingStages : Prop :=
  ∀ (a : Fin 8) (off : Nat) (w : Word) (s : State), Safety.inRun s →
    (isRwf off = true → s.fitOwns a.val = true → (s.fit.staged.any fun e => e.1 == off) = true ∨ s.fit.staged.length < 4096 →
      ∃ t, exec (.rwfStageWrite a off w) s = .next t ∧ (off, rwfBits off w) ∈ t.fit.staged ∧
        (∀ e ∈ t.fit.staged, e.1 = off → e.2 = rwfBits off w) ∧ (∀ e ∈ s.fit.staged, e.1 ≠ off → e ∈ t.fit.staged) ∧
        (∀ o, o ≠ Reg.FIT_STAGED → t.reg o = s.reg o) ∧ t = { s with regs := t.regs, fit := t.fit }) ∧
    (isRwf off = true → s.fitOwns a.val = true → (s.fit.staged.any fun e => e.1 == off) = false → 4096 ≤ s.fit.staged.length →
      ∃ t, exec (.rwfStageWrite a off w) s = .next t ∧ t.rd Reg.FIT_STATUS_OVERFLOW = 1 ∧ t.fit.staged = s.fit.staged) ∧
    (isRwf off = true → s.fitOwns a.val = false →
      ∃ t, exec (.rwfStageWrite a off w) s = .next t ∧ t.fit = s.fit ∧ t.rd Reg.GBL_ACCESS_VIOL_CTL_VALID = 1 ∧
        ∀ o, isRwf o = true → t.reg o = s.reg o) ∧
    (isRwf off = false → exec (.rwfStageWrite a off w) s = .next s)

/-- In Run: ABORT of an open fitting by its owner, or by the Belfry, ends it with RESULT ABORTED; when its idle time has
reached IDLE_MS it ends with RESULT TIMED_OUT, and before that nothing happens. Ended, STATE is IDLE, nothing is
staged, event source 1,795 has its status set and no RWF register has changed. ABORT by any other agent leaves the
fitting as it is. -/
def Obligations.FittingEnds : Prop :=
  ∀ (a : Fin 8) (s : State), Safety.inRun s →
    (s.fitMayAbort a.val = true → ∃ t, exec (.abortFitting a) s = .next t ∧ t.rd Reg.FIT_STATUS_STATE = 0 ∧
      t.rd Reg.FIT_STATUS_RESULT = 3 ∧ t.fit.staged = [] ∧ t.evtStatus 1795 = true ∧ ∀ o, isRwf o = true → t.reg o = s.reg o) ∧
    (s.fitMayAbort a.val = false → ∃ t, exec (.abortFitting a) s = .next t ∧ t.fit.staged = s.fit.staged ∧
      t.reg Reg.FIT_STATUS = s.reg Reg.FIT_STATUS ∧ t.rd Reg.GBL_ACCESS_VIOL_CTL_VALID = 1) ∧
    (s.fitIdleDue = true → ∃ t, exec .fitIdleTimeout s = .next t ∧ t.rd Reg.FIT_STATUS_STATE = 0 ∧
      t.rd Reg.FIT_STATUS_RESULT = 4 ∧ t.fit.staged = [] ∧ t.evtStatus 1795 = true ∧ ∀ o, isRwf o = true → t.reg o = s.reg o) ∧
    (s.fitIdleDue = false → exec .fitIdleTimeout s = .next s)

/-- In Run a write of FIT_TIMEOUT stores the value of its low 16 bits within 100 to 60,000. Where that makes the idle time
of an open fitting due, the fitting ends with RESULT TIMED_OUT in the same command; elsewhere no other register
changes. -/
def Obligations.FittingTimeoutIsClamped : Prop :=
  ∀ (a : Fin 8) (w : Word) (s : State), Safety.inRun s → ∃ t, exec (.fitTimeoutWrite a w) s = .next t ∧
    t.rd Reg.FIT_TIMEOUT_IDLE_MS = max 100 (min 60000 (bitsOf w 0 16)) ∧
    (s.rd Reg.FIT_STATUS_STATE = 1 → s.fit.lastActivity + max 100 (min 60000 (bitsOf w 0 16)) * 1000000 ≤ s.now →
      t.rd Reg.FIT_STATUS_STATE = 0 ∧ t.rd Reg.FIT_STATUS_RESULT = 4) ∧
    (s.rd Reg.FIT_STATUS_STATE ≠ 1 → ∀ o, o ≠ Reg.FIT_TIMEOUT → t.reg o = s.reg o)

/-- In Run: COMMIT of a fitting with OVERFLOW set ends it with RESULT OVERFLOW and no RWF register changed; COMMIT by an
agent that does not own the open fitting leaves it as it is. COMMIT of a fitting that staged one register whose checks
pass gives that register its clamped value and extends measurement register 9 with the object of R160. -/
def Obligations.FittingCommits : Prop :=
  ∀ (a : Fin 8) (s : State), Safety.inRun s →
    (s.fitOwns a.val = true → s.rd Reg.FIT_STATUS_OVERFLOW = 1 → ∃ t, exec (.commitFitting a) s = .next t ∧
      t.rd Reg.FIT_STATUS_STATE = 0 ∧ t.rd Reg.FIT_STATUS_RESULT = 6 ∧ t.fit.staged = [] ∧
      ∀ o, isRwf o = true → t.reg o = s.reg o) ∧
    (s.fitOwns a.val = false → ∃ t, exec (.commitFitting a) s = .next t ∧ t.fit.staged = s.fit.staged ∧
      t.reg Reg.FIT_STATUS = s.reg Reg.FIT_STATUS) ∧
    (∀ (off : Nat) (w : Word), s.fitOwns a.val = true → s.rd Reg.FIT_STATUS_OVERFLOW = 0 → isRwf off = true →
      off ≠ Reg.PWR_CFG → checksOf off = [] → s.fit.staged = [(off, w)] →
      ∃ t, exec (.commitFitting a) s = .next t ∧ t.fit.staged = [] ∧ t.reg off = (clampWord off w).1 ∧
        t.measReg 9 = Config.sha384 (digestBytes (s.measReg 9) ++ digestBytes (Config.sha384
          (leBytes 4 (s.rd Reg.FIT_ID_ID) ++ (leBytes 4 off ++ leBytes 4 (clampWord off w).1.toNat)))))

/-- In Run, FIT_ADOPT of a class whose FIT_PENDING bit is set drops the kept earlier values of that class and of no other,
so that its committed values are in force; the bit clears, and where no class remains pending the fitting ends with
RESULT ADOPTED and STATE IDLE. For a class that is not pending nothing happens. -/
def Obligations.FittingAdopts : Prop :=
  ∀ (cls : Fin 11) (s : State), Safety.inRun s →
    (s.fitPending cls.val = true → ∃ t, exec (.fitAdopt cls) s = .next t ∧
      t.fit.held = s.fit.held.filter (fun e => adoptClass e.1 != some cls.val) ∧
      t.rd Reg.FIT_PENDING_CLASS = s.rd Reg.FIT_PENDING_CLASS - 2 ^ cls.val ∧
      (s.rd Reg.FIT_PENDING_CLASS = 2 ^ cls.val → t.rd Reg.FIT_STATUS_STATE = 0 ∧ t.rd Reg.FIT_STATUS_RESULT = 1)) ∧
    (s.fitPending cls.val = false → exec (.fitAdopt cls) s = .next s)

/-- An aligned 32-bit write, by an agent that makes accesses, to a register that answers, is not RWF and has no behaviour
of its own: a W1C bit written 1 is cleared, an RW bit takes the value written, every other bit stays; no other
register and no other part of the state changes. -/
def Obligations.RegisterWriteFollowsAccessCodes : Prop :=
  ∀ (a : Fin 8) (off data : Nat) (d : RegDesc) (s : State), s.accesses a.val = true → off % 4 = 0 → s.answers off = true →
    regDesc off = some d → Safety.plainWriteTo s a.val off (BitVec.ofNat 32 data) →
    ∃ t, exec (.registerWrite a (.bar2 off) 32 data) s = .next t ∧
      (∀ j, j < 32 → (t.reg off).getLsbD j =
        if d.w1c.testBit j && data.testBit j then false else if d.rw.testBit j then data.testBit j else (s.reg off).getLsbD j) ∧
      (∀ o, o ≠ off → t.reg o = s.reg o) ∧ t = { s with regs := t.regs }

/-- Where the main domain answers, a write that is neither 32 bits at a multiple of 4 nor 64 bits at a multiple of 8
changes no register but the two of GBL_ACCESS_VIOL and the status of source 1,796; if VALID was 0 the kind, the agent
and the offset recorded are those of this access; VALID is 1. -/
def Obligations.MisalignedWriteIsDiscarded : Prop :=
  ∀ (a : Fin 8) (off bits data : Nat) (s : State), s.accesses a.val = true → s.mainUp = true →
    ¬(bits = 32 ∧ off % 4 = 0) → ¬(bits = 64 ∧ off % 8 = 0) →
    ∃ t, exec (.registerWrite a (.bar2 off) bits data) s = .next t ∧ t.rd Reg.GBL_ACCESS_VIOL_CTL_VALID = 1 ∧
      (s.rd Reg.GBL_ACCESS_VIOL_CTL_VALID = 0 → t.rd Reg.GBL_ACCESS_VIOL_KIND = 1 ∧
        t.rd Reg.GBL_ACCESS_VIOL_AGENT = a.val ∧ t.rd Reg.GBL_ACCESS_VIOL_OFFSET = off % 2 ^ 26) ∧
      (∀ o, o ≠ Reg.GBL_ACCESS_VIOL → o ≠ Reg.GBL_ACCESS_VIOL_CTL → o ≠ statusOff 1796 → t.reg o = s.reg o) ∧
      t = { s with regs := t.regs, evt := t.evt, nvme := t.nvme }

/-- Where the register answers: writing 1 to GBL_ACCESS_VIOL_CTL.VALID clears both violation registers, a violation in the
same clock is recorded as the new first one, and a write of 0 to it changes nothing. A read at a _LO half of a split
counter latches the high half for the same agent, so that its next read of the _HI half returns the bits of the same
moment, and changes nothing else. -/
def Obligations.ViolationClearAndSplitRead : Prop :=
  (∀ (a : Fin 8) (w : Word) (s : State), s.answers Reg.GBL_ACCESS_VIOL_CTL = true →
    (w.getLsbD 31 = true → ∃ t, exec (.gblAccessViolClear a w none) s = .next t ∧ t.reg Reg.GBL_ACCESS_VIOL = 0 ∧
      t.reg Reg.GBL_ACCESS_VIOL_CTL = 0 ∧ t = { s with regs := t.regs }) ∧
    (∀ (k : Nat) (b : Fin 8) (o : Nat), w.getLsbD 31 = true → ∃ t, exec (.gblAccessViolClear a w (some (k, b, o))) s = .next t ∧
      t.rd Reg.GBL_ACCESS_VIOL_KIND = k % 8 ∧ t.rd Reg.GBL_ACCESS_VIOL_AGENT = b.val ∧
      t.rd Reg.GBL_ACCESS_VIOL_OFFSET = o % 2 ^ 26 ∧ t.rd Reg.GBL_ACCESS_VIOL_CTL_COUNT = 1) ∧
    (w.getLsbD 31 = false → exec (.gblAccessViolClear a w none) s = .next s)) ∧
  ∀ (a : Fin 8) (off : Nat) (s : State), off % 4 = 0 → s.accesses a.val = true → s.answers off = true → latching off = true →
    ∃ t, exec (.splitCounterLoRead a ⟨.bar2 off, 32⟩) s = .next t ∧ mapGet (fun _ => 0) t.reads a.val = (s.readWord a.val off).toNat ∧
      mapGet (fun _ => 0) t.latches (latchKey a.val (off + 4)) = s.highNow off ∧
      t = { s with reads := t.reads, latches := t.latches }

/-- EVT_STATUS_CLEAR leaves each bit of its word that was set and not written 1, and each bit whose source arrives in the
same clock; every other bit of the word is 0. Two clears of the same bits one after the other leave what one leaves. -/
def Obligations.EventStatusClearAndArrival : Prop :=
  ∀ (a : Fin 8) (w : Fin 66) (data arriving : Word) (s : State), s.answers (Reg.EVT_STATUS w.val) = true →
    (∃ t, exec (.evtStatusClear a w data arriving) s = .next t ∧ ∀ j, j < 32 → t.evtStatus (32 * w.val + j) =
      (arriving.getLsbD j || (s.evtStatus (32 * w.val + j) && !data.getLsbD j))) ∧
    (∃ t, exec (.evtStatusClear a w data 0) s = .next t ∧ exec (.evtStatusClear a w data 0) t = .next t ∧
      ∀ o, o ≠ Reg.EVT_STATUS w.val → t.reg o = s.reg o)

/-- A source that occurs with status 0 is delivered once to the Belfry and to the FTL cluster whatever its mask; with
status 1 it is not delivered again and nothing changes. EVT_FORCE sets the status of every source written 1 and leaves
what was delivered to the Belfry and the FTL cluster as it was. -/
def Obligations.EventDeliveryToBelfryAndFtl : Prop :=
  (∀ (src : Nat) (s : State),
    (s.evtStatus src = false → (s.raise src).evt.belfry = s.evt.belfry ++ [src] ∧ (s.raise src).evt.ftl = s.evt.ftl ++ [src]) ∧
    (s.evtStatus src = true → s.raise src = s)) ∧
  ∀ (a : Fin 8) (w : Fin 66) (data : Word) (s : State), s.answers (Reg.EVT_FORCE w.val) = true →
    ∃ t, exec (.evtForceWrite a w data) s = .next t ∧ t.evt.belfry = s.evt.belfry ∧ t.evt.ftl = s.evt.ftl ∧
      (∀ j, j < 32 → t.evtStatus (32 * w.val + j) = (s.evtStatus (32 * w.val + j) || data.getLsbD j)) ∧
      (∀ o, o ≠ Reg.EVT_STATUS w.val → t.reg o = s.reg o) ∧ t = { s with regs := t.regs, evt := t.evt, nvme := t.nvme }

/-- EVT_MASK_WRITE stores the mask and changes no other register; where no set status bit is unmasked by it nothing else
changes either. EVT_ROUTE_WRITE of EVT_ROUTE_A or _B stores each controller half with its reserved bits 0, but keeps
the half before it where EN is 1, the controller exists and VEC is at or above its vector count; EVT_ROUTE_C takes the
AEN bits. -/
def Obligations.EventMaskAndRouteWrites : Prop :=
  (∀ (a : Fin 8) (w : Fin 66) (data : Word) (s : State), s.answers (Reg.EVT_MASK w.val) = true →
    (∃ t, exec (.evtMaskWrite a w data) s = .next t ∧ t.reg (Reg.EVT_MASK w.val) = data ∧
      (∀ o, o ≠ Reg.EVT_MASK w.val → t.reg o = s.reg o) ∧ t = { s with regs := t.regs, evt := t.evt, nvme := t.nvme }) ∧
    (s.reg (Reg.EVT_MASK w.val) &&& ~~~data &&& s.reg (Reg.EVT_STATUS w.val) = 0 →
      exec (.evtMaskWrite a w data) s = .next (s.setReg (Reg.EVT_MASK w.val) data))) ∧
  ∀ (a : Fin 8) (src : Fin 2112) (r : Fin 3) (data : Word) (s : State), s.answers 0x02000000 = true →
    ∃ t, exec (.evtRouteWrite a src r data) s = .next t ∧
      (r.val < 2 → ∀ h : Fin 2, bitsOf (t.reg (0x02000000 + 0x10 * src.val + 4 * r.val)) (16 * h.val) 16 =
        if routeHalfKept s.image.cfg (2 * r.val + h.val) (bitsOf data (16 * h.val) 16 &&& 0x87FF)
        then bitsOf (s.reg (0x02000000 + 0x10 * src.val + 4 * r.val)) (16 * h.val) 16
        else bitsOf data (16 * h.val) 16 &&& 0x87FF) ∧
      (r.val = 2 → bitsOf (t.reg (0x02000008 + 0x10 * src.val)) 0 4 = bitsOf data 0 4 ∧
        ∀ o, o ≠ 0x02000008 + 0x10 * src.val → t.reg o = s.reg o)

/-- With the Belfry running (or VAUX up, before it does) and the phase its own: PHASE_ROM goes to BELFRY_FW, or to SPI
release where BOOT_SEL is 2; a Belfry firmware, main firmware or base microcode that checks is measured and goes to
IMAGE (recovery mode where BOOT_SEL is 1), MICROCODE and TRAINING; IMAGE_LOAD goes to RAILS; MAIN_INIT to MAIN_FW;
TRAINING_END to ENUMERATE; MANTLE_START to RECOVERY; READY to READY. -/
def Obligations.StartupPhasesAdvance : Prop :=
  ∀ s : State,
    (∀ sel : Fin 4, s.board.vaux = true → s.phase = 0 → ∃ t, exec (.phaseRom sel) s = .next t ∧
      t.phase = (if sel.val = 2 then 0xD else 1) ∧ t.boot.bootSel = sel.val) ∧
    (s.board.vaux = true → s.boot.belfryHalted = false → s.phase = 1 → s.slotError 0 (s.chosenSlot 0) = 0 →
      ∃ t, exec .belfryFwLoad s = .next t ∧ t.phase = (if s.boot.bootSel = 1 then 0xC else 2) ∧
        t.measReg 1 = Config.sha384 (digestBytes (s.measReg 1) ++ digestBytes (Config.sha384 (s.slotBody 0 (s.chosenSlot 0))))) ∧
    (s.belfryRuns = true → s.phase = 2 → ∃ t, exec .imageLoad s = .next t ∧ t.phase = 3) ∧
    (∀ failed : List (Fin 16), s.belfryRuns = true → s.boot.loaded = true → s.board.pwrKill = false →
      s.board.mainRunning = false → s.phase = 4 → ∃ t, exec (.mainInit failed) s = .next t ∧ t.phase = 5) ∧
    (s.belfryRuns = true → s.phase = 5 → s.slotError 1 (s.chosenSlot 1) = 0 → ∃ t, exec .mainFwLoad s = .next t ∧ t.phase = 6 ∧
      t.measReg 3 = Config.sha384 (digestBytes (s.measReg 3) ++ digestBytes (Config.sha384 (s.slotBody 1 (s.chosenSlot 1))))) ∧
    (s.belfryRuns = true → s.phase = 6 → s.slotError 2 (s.chosenSlot 2) = 0 →
      (readBase (s.slotBody 2 (s.chosenSlot 2))).isSome = true → ∃ t, exec .microcodeLoad s = .next t ∧ t.phase = 7) ∧
    (s.mainUp = true → s.phase = 7 → s.dramReady = true → s.linksReady = true →
      ∃ t, exec .trainingEnd s = .next t ∧ t.phase = 8) ∧
    (∀ codes : List (Nat × Nat × Nat), s.mainUp = true → s.phase = 9 →
      ∃ t, exec (.mantleStart codes) s = .next t ∧ t.phase = 0xA ∧ t.boot.fails = 0) ∧
    (s.mainUp = true → s.mayBeReady = true → ∃ t, exec .ready s = .next t ∧ t.phase = 0xB)

/-- In phase RAILS, with no failure standing: RAIL_STAGE_START enables the first stage at once and the next one once 0.5
ms has passed, and no sooner; a stage that is not good 20 ms after its start, or MAIN_PG not high 5 ms after stage 5
was good, starts the stages down from the one reached and records the rail: the first time a retry is due 1 s later,
the second time the failure is latched; sooner nothing happens. RAIL_RETRY that is due with every stage down starts
the sequence again from the first stage. -/
def Obligations.RailStagesFollowTheirTimes : Prop :=
  ∀ s : State, s.belfryRuns = true → s.phase = 3 →
    (s.board.railStage = 0 → s.board.railsHeld = false →
      ∃ t, exec .railStageStart s = .next t ∧ t.board.railStage = 1 ∧ t.board.pwrKill = false ∧ t = { s with board := t.board }) ∧
    (0 < s.board.railStage → s.board.railStage < 5 → s.board.railsHeld = false → s.board.pwrKill = false →
      (s.board.railSince + 500000 ≤ s.now → ∃ t, exec .railStageStart s = .next t ∧ t.board.railStage = s.board.railStage + 1 ∧
        t.board.railSince = s.now ∧ t = { s with board := t.board }) ∧
      (s.now < s.board.railSince + 500000 → exec .railStageStart s = .next s)) ∧
    (0 < s.board.railStage → s.board.railStage < 5 ∨ s.board.railDone = none → s.board.railsHeld = false → s.board.pwrKill = false →
      ∀ (rail : Fin 10) (status : Fin 65536),
      ((match s.board.railDone with | some d => d + 5000000 ≤ s.now | none => s.board.railSince + 20000000 ≤ s.now) →
      ∃ t, exec (.railStageTimeout rail status) s = .next t ∧ t.board.downStage = s.board.railStage ∧ t.rd Reg.BEL_BOOT_STATUS_ERROR = 3 ∧
        t.life.rails = s.life.rails ++ [rail.val] ∧
        (s.board.railRetried = false → t.board.railRetryAt = some (s.now + 1000000000) ∧ t.board.railFault = none) ∧
        (s.board.railRetried = true → t.board.railFault = some rail.val ∧ t.board.railRetryAt = none)) ∧
      ((match s.board.railDone with | some d => s.now < d + 5000000 | none => s.now < s.board.railSince + 20000000) →
        exec (.railStageTimeout rail status) s = .next s)) ∧
    (∀ due, s.board.railRetryAt = some due →
      (due ≤ s.now → s.board.downStage = 0 → s.board.pwrKill = false → ∃ t, exec .railRetry s = .next t ∧ t.board.railStage = 1 ∧ t.board.railRetryAt = none ∧ t = { s with board := t.board }) ∧
      (s.now < due → exec .railRetry s = .next s))

/-- VAUX rising on a device without it performs an aux reset: VAUX up, phase ROM, no image in force, no measurement; VAUX
falling takes the rails with it. MAIN_PG falling is recorded; in an orderly power-down, and after a rail failure, the
next lower stage is removed. PFI_N falling or rising is recorded with its time, once; FAULT_N released is recorded; at
the end of a TRIG_OUT pulse the pulses that are over are gone and every other stays. -/
def Obligations.SupplyAndPins : Prop :=
  ∀ s : State,
    (s.board.vaux = false → ∃ t, exec .vauxRise s = .next t ∧ t.board.vaux = true ∧ t.phase = 0 ∧ t.image.inForce = false ∧ t.boot.meas = []) ∧
    (s.board.vaux = true → ∃ t, exec .vauxFall s = .next t ∧ t.board.vaux = false ∧ t.board.pwrKill = true ∧ t.board.mainPg = false ∧
      t.board.railStage = 0) ∧
    (∀ rail status : Fin 65536, s.board.mainPg = false →
      ∃ t, exec (.mainPgFall rail status) s = .next t ∧ t = { s with board := { s.board with mainPg := false } }) ∧
    (0 < s.board.downStage → (s.pwrPhase = 1 ∧ s.pwrStep = 4 ∧ s.pwrTarget = 4) ∨ (s.phase = 3 ∧ s.board.mainRunning = false) →
      ∃ t, exec .powerDownStage s = .next t ∧
      t.board.downStage = s.board.downStage - 1 ∧ t.board.railStage = s.board.downStage - 1 ∧ t = { s with board := t.board }) ∧
    (s.board.pfiLow = false → exec .mntPfiFall s = .next { s with board := { s.board with pfiLow := true, pfiSince := s.now } }) ∧
    (s.board.pfiLow = true → exec .mntPfiRise s = .next { s with board := { s.board with pfiLow := false, pfiSince := s.now } } ∧
      exec .mntPfiFall s = .next s) ∧
    (∃ t, exec .mntFaultNRelease s = .next t ∧ t.board.faultN = true ∧ t.board.faultNSince = s.now ∧ t = { s with board := t.board }) ∧
    (∃ t, exec .trigOutPulseEnd s = .next t ∧ (∀ p, p ∈ t.board.pulses ↔ p ∈ s.board.pulses ∧ s.now < p.2) ∧ t = { s with board := t.board })

/-- PERST_DEASSERT records the pin and, once MAIN_INIT is complete, trains every controller of the port whose link is
down. A configuration request is answered with Request Retry Status before MAIN_INIT is complete, and a read with the
dword of configuration space after. A link that comes up takes the lower of the two rates, no more lanes than the port
gives, FLIT mode at 64 GT/s or where the partner supports it, and its state source occurs. CC.EN set to 1 enables the
controller, and its CSTS.RDY is 1 in phases RECOVERY and READY and not before. A Function Level Reset is the reset of
one controller. -/
def Obligations.PortsAndControllersComeUp : Prop :=
  ∀ s : State,
    (∀ p : Fin 2, ∃ t, exec (.perstDeassert p) s = .next t ∧ t.board.perst = modAt s.board.perst p.val (fun _ => false) ∧
      (s.mainUp = true → 5 ≤ s.phase → ∀ c ∈ s.portCtrls p.val, (t.ctrl c).training = !(s.ctrl c).linkUp) ∧
      t = { s with board := t.board, nvme := t.nvme }) ∧
    (∀ r : CfgReq, s.hasCtrl r.ctrl.val = true → s.board.mainRunning = true → r.write = none → ∃ t, exec (.configurationRequest r) s = .next t ∧
      (t.ctrl r.ctrl.val).pcie.answer = some (if s.phase < 5 then none else some (s.cfgWord r.ctrl.val r.off)) ∧ t = { s with nvme := t.nvme }) ∧
    (∀ (c : Fin 4) (p : Partner) (lanes : Fin 5), s.mainUp = true → 5 ≤ s.phase → s.hasCtrl c.val = true →
      s.board.perst.getD (c.val / 2) true = false → (s.ctrl c.val).linkUp = false →
      exec (.pcieLinkUp c p lanes) s = .next ((s.setCtrl c.val { s.ctrl c.val with
        linkUp := true, training := false, linkRate := max p.rate.val (portGet s.image.cfg (c.val / 2) 3),
        linkWidth := 2 ^ min lanes.val (if portGet s.image.cfg (c.val / 2) 2 = 1 then 3 else 4),
        pcie := { (s.ctrl c.val).pcie with flit := max p.rate.val (portGet s.image.cfg (c.val / 2) 3) == 0 || p.flit } }).raise (1536 + 4 * c.val))) ∧
    (∀ (c : Fin 4) (a b : Fin 4096), s.mainUp = true → s.hasCtrl c.val = true → (s.ctrl c.val).en = false → (s.ctrl c.val).rdy = false →
      ∃ t, exec (.ccEnSet c a b) s = .next t ∧ (t.ctrl c.val).en = true ∧
        (t.ctrl c.val).rdy = (decide (0xA ≤ s.phase) && decide (s.phase < 0xC)) ∧ t = { s with nvme := t.nvme, boot := t.boot }) ∧
    (∀ c : Fin 4, s.mainUp = true → s.hasCtrl c.val = true →
      exec (.functionLevelReset c) s = .next ((s.ctrlGone c.val).modCtrl c.val Ctrl.nvmeReset).settleDma)

/-- With the main domain answering and the controller existing: PERST_ASSERT in Run resets every controller of its port; a
hot reset and a controller reset (CC.EN 1) reset their one controller; an NVM Subsystem Reset begins a flush with the
journal tail for a warm restart; the FTL watchdog counts against a trial and begins a flush whose recovery suspects
the journal; the Belfry watchdog restarts the Belfry alone; the boot watchdog does nothing before its 2.0 s, and after
them, with start-up between MAIN_INIT and MANTLE, counts an attempt of a trial, or of the confirmed configuration
where there is no trial, and restarts; a shutdown notification of 1 or 2 shows SHST 01b. SYS_RST with the main domain
down is an aux reset, and in Run begins a loss flush that ends in one; without VAUX it does nothing. -/
def Obligations.ResetsAndWatchdogsRun : Prop :=
  ∀ s : State,
    (∀ p : Fin 2, Safety.inRun s → s.board.perst.getD p.val true = false → exec (.perstAssert p) s = .next
      ((State.portReset { s with board := { s.board with perst := modAt s.board.perst p.val fun _ => true } } p.val).wake (2 + p.val))) ∧
    (∀ c : Fin 4, s.mainUp = true → s.hasCtrl c.val = true → exec (.pcieHotReset c) s = .next (s.portResetCtrl c.val)) ∧
    (∀ c : Fin 4, s.mainUp = true → (s.ctrl c.val).en = true →
      exec (.controllerReset c) s = .next ((s.ctrlGone c.val).modCtrl c.val Ctrl.nvmeReset).settleDma) ∧
    (∀ c : Fin 4, s.mainUp = true → s.hasCtrl c.val = true →
      exec (.nvmSubsystemReset c) s = .next (s.beginFlush ⟨3, 0, true, none, [], 1, false⟩ 3)) ∧
    (s.mainUp = true → exec .ftlWatchdogExpiry s = .next (s.trialFail.beginFlush ⟨3, 0, false, none, [], 1, true⟩ 3)) ∧
    (s.belfryRuns = true → s.belfryDown.belfryCheck.boot.belfryHalted = false → exec .belfryWatchdogExpiry s = .next
      (((List.range 1024).foldl State.reserveDurable s.belfryDown.belfryCheck).raise 1777).settleDma) ∧
    (s.now < s.boot.mainInitAt + 2000000000 → exec .bootWatchdogExpiry s = .next s.settleDma) ∧
    (s.belfryRuns = true → s.board.mainRunning = true → 4 ≤ s.phase → s.phase ≤ 9 → s.boot.mainInitAt + 2000000000 ≤ s.now →
      exec .bootWatchdogExpiry s = .next (if (s.bootError 4).trialAny
        then ((s.bootError 4).trialFail.showTrial).beginFlush ⟨3, 0, false, none, [], 1, false⟩ 3 else (s.bootError 4).bootFail).settleDma) ∧
    (∀ (c : Fin 4) (shn : Fin 4), s.mainUp = true → s.hasCtrl c.val = true → shn.val = 1 ∨ shn.val = 2 →
      exec (.ccShnWrite c shn) s = .next (s.shutdown c shn.val).settleDma ∧ ((s.shutdown c shn.val).ctrl c.val).shst = 1 ∧
      ((s.shutdown c shn.val).ctrl c.val).shn = shn.val) ∧
    (s.board.vaux = true → s.board.mainRunning = false → exec .sysRstAccept s = .next s.auxReset) ∧
    (s.board.vaux = true → s.board.mainRunning = true → s.inRun = true → exec .sysRstAccept s = .next (s.lossFlush 2)) ∧
    (s.board.vaux = false → exec .sysRstAccept s = .next s)

/-- TRIAL_CONFIRM before its 30 s changes nothing; at or after them, with the Belfry running on the newest slots, the
trial slot of every component that runs from it becomes its active slot and the active one its previous; a trial not
yet booted stays one. ENUMERATE with every populated link identified and no die pending ends phase ENUMERATE. RECOVERY
recovers the map by the first tier that applies and goes on with namespaces, sanitize, takes and a checkpoint, and
leaves every line of regions 0 to 4 of the DRAM written; after recovery has named its tier it changes nothing. -/
def Obligations.BootTrialsAndRecovery : Prop :=
  ∀ s : State,
    (∀ r, s.boot.rdyAt = some r → s.now < r + 30000000000 → exec .trialConfirm s = .next s) ∧
    (∀ r, s.boot.rdyAt = some r → r + 30000000000 ≤ s.now → s.belfryRuns = true → s.boot.onPrevious = false →
      ∃ t, exec .trialConfirm s = .next t ∧ ∀ k, k < 3 → t.kind k = if s.trialRuns k then confirmed (s.kind k) else s.kind k) ∧
    (s.mainUp = true → s.phase = 8 →
      ((List.range 512).filter fun n => populated s.image.cfg n && s.rd (Reg.JL_BRIDGE_STATUS_ENUM_DONE n) == 0) = [] →
      ((List.range 512).all fun n => (s.lnk n).enumPending.isEmpty) = true →
      (∃ t, exec (.enumerate [] [] []) s = .next t ∧ t.phase = 9 ∧
        t.measReg 8 = Config.sha384 (digestBytes (s.measReg 8) ++ digestBytes (Config.sha384 s.identities)))) ∧
    (s.mainUp = true → exec .enumerateDieDeadline s = .next s.enumDeadline.enumEnd) ∧
    (∀ (bad : List Nat) (found : FlashFound), s.mainUp = true → s.phase = 0xA →
      (s.rd Reg.FTL_STATUS_TIER ≠ 0 → exec (.recovery bad found) s = .next s) ∧
      (s.rd Reg.FTL_STATUS_TIER = 0 → ∃ t, exec (.recovery bad found) s = .next t.settleDma ∧ t.dram.written = [0, 1, 2, 3, 4] ∧
        ∃ u, t = u.modDram (fun d => { d with written := [0, 1, 2, 3, 4] }) ∧
        (u = (((((found.metas.foldl State.metaLost s).recoverMap bad found).reconcile.resumeSanitize).recoverTakes).startCheckpoint.showStripes) ∨
         u = (((((found.metas.foldl State.metaLost s).recoverMap bad found).reconcile.resumeSanitize).recoverTakes).startCheckpoint.showStripes).startRebuild)))

/-- Where the word that issues next on a Sleeve is a legal ALU word of record r: the record goes past the word and through
CYC; DST takes the result of the word (CMP and CMPI write none); Z says the result is 0, N is its bit 31, C is the
carry out of an addition, the borrow of a subtraction, the last bit shifted out, else 0 (log entry 30); shifts of 32
and more leave 0. No other record, and nothing outside the Sleeves, changes. -/
def Obligations.AluWordsCompute : Prop :=
  ∀ (i : Fin 64) (s : State) (r : OpRec) (w : CtlWord), Safety.wordNext s i.val r w 0x08 →
    (w.subop = 0 → Safety.aluRan s i.val r w (.movi i) true w.imm32 false) ∧
    (w.subop = 1 → Safety.aluRan s i.val r w (.addWord i) true (r.v w.sa + r.v w.sb) (decide (2 ^ 32 ≤ (r.v w.sa).toNat + (r.v w.sb).toNat))) ∧
    (w.subop = 2 → Safety.aluRan s i.val r w (.addi i) true (r.v w.sa + w.imm32) (decide (2 ^ 32 ≤ (r.v w.sa).toNat + w.imm32.toNat))) ∧
    (w.subop = 3 → Safety.aluRan s i.val r w (.sub i) true (r.v w.sa - r.v w.sb) (decide ((r.v w.sa).toNat < (r.v w.sb).toNat))) ∧
    (w.subop = 4 → Safety.aluRan s i.val r w (.andWord i) true (r.v w.sa &&& r.v w.sb) false) ∧
    (w.subop = 5 → Safety.aluRan s i.val r w (.orWord i) true (r.v w.sa ||| r.v w.sb) false) ∧
    (w.subop = 6 → Safety.aluRan s i.val r w (.xorWord i) true (r.v w.sa ^^^ r.v w.sb) false) ∧
    (w.subop = 7 → Safety.aluRan s i.val r w (.shli i) true (r.v w.sa <<< w.imm32.toNat)
      (decide (w.imm32.toNat ≠ 0) && decide (w.imm32.toNat ≤ 32) && (r.v w.sa).getLsbD (32 - w.imm32.toNat))) ∧
    (w.subop = 8 → Safety.aluRan s i.val r w (.shri i) true (r.v w.sa >>> w.imm32.toNat)
      (decide (w.imm32.toNat ≠ 0) && decide (w.imm32.toNat ≤ 32) && (r.v w.sa).getLsbD (w.imm32.toNat - 1))) ∧
    (w.subop = 9 → Safety.aluRan s i.val r w (.andi i) true (r.v w.sa &&& w.imm32) false) ∧
    (w.subop = 10 → Safety.aluRan s i.val r w (.ori i) true (r.v w.sa ||| w.imm32) false) ∧
    (w.subop = 11 → Safety.aluRan s i.val r w (.cmp i) false (r.v w.sa - r.v w.sb) (decide ((r.v w.sa).toNat < (r.v w.sb).toNat))) ∧
    (w.subop = 12 → Safety.aluRan s i.val r w (.cmpi i) false (r.v w.sa - w.imm32) (decide ((r.v w.sa).toNat < w.imm32.toNat)))

/-- Where such a word issues: LOAD puts the word of the personality table, of scratch or of the context item at DST,
without flags; STORE writes four scratch bytes; out of range either takes fault RANGE (9). A branch whose condition
holds goes to its target, CALL pushing the next address on a stack of 4, RETURN popping it, or takes NOT_LIVE (3) or
STACK (4); a condition that fails lets the record go on. REPORT keeps its result and SA; YIELD suspends the die,
pauses the watchdog and admits the class 1 descriptors queued for it; DECODE begins a decode of what is not decoded
yet; TRAP takes fault TRAP (10) and keeps its code. END ends the operation with its report, its context free; with no
report it takes fault NO_REPORT (8). -/
def Obligations.MemoryAndBranchWordsRun : Prop :=
  ∀ (i : Fin 64) (s : State) (r : OpRec) (w : CtlWord),
    (Safety.wordNext s i.val r w 0x09 →
      (w.subop = 0 → (loadAddr r w + 4 ≤ (s.opPers r.desc.link).get 0x1E → Safety.wordRan s i.val r (.loadPersonality i)
          ((Safety.afterIssue r w s.now).setV w.dst (BitVec.ofNat 32 (leAt (s.opPers r.desc.link).ptable (loadAddr r w) 4)))) ∧
        ((s.opPers r.desc.link).get 0x1E < loadAddr r w + 4 → Safety.faultRan s i.val r (.loadPersonality i) 9)) ∧
      (w.subop = 1 → (loadAddr r w + 4 ≤ 16384 → Safety.wordRan s i.val r (.loadScratch i)
          ((Safety.afterIssue r w s.now).setV w.dst (BitVec.ofNat 32 (leAt ((List.range 4).map fun k => s.scratchByte i.val (loadAddr r w + k)) 0 4)))) ∧
        (16384 < loadAddr r w + 4 → Safety.faultRan s i.val r (.loadScratch i) 9)) ∧
      (w.subop = 2 → (w.imm % 16 = 0 → Safety.wordRan s i.val r (.loadContextState i) ((Safety.afterIssue r w s.now).setV w.dst (BitVec.ofNat 32 r.stop))) ∧
        (w.imm % 16 = 1 → Safety.wordRan s i.val r (.loadContextState i) ((Safety.afterIssue r w s.now).setV w.dst (BitVec.ofNat 32 r.faultCode))) ∧
        (w.imm % 16 = 2 → Safety.wordRan s i.val r (.loadContextState i) ((Safety.afterIssue r w s.now).setV w.dst (BitVec.ofNat 32 r.suspends))) ∧
        (w.imm % 16 = 3 → Safety.wordRan s i.val r (.loadContextState i) ((Safety.afterIssue r w s.now).setV w.dst (BitVec.ofNat 32 (r.dins - 1)))) ∧
        ∃ t v, exec (.loadContextState i) s = .next t ∧ t.opRec i.val r.desc.id = some ((Safety.afterIssue r w s.now).setV w.dst v))) ∧
    (Safety.wordNext s i.val r w 0x0A →
      (loadAddr r w + 4 ≤ 16384 → ∃ t, exec (.store i) s = .next t ∧ t.opRec i.val r.desc.id = some (Safety.afterIssue r w s.now) ∧
        (∀ a, t.scratchByte i.val a = if loadAddr r w ≤ a ∧ a < loadAddr r w + 4 then (leBytes 4 (r.v w.sb).toNat).getD (a - loadAddr r w) 0
          else s.scratchByte i.val a) ∧ t = { s with slv := t.slv }) ∧
      (16384 < loadAddr r w + 4 → Safety.faultRan s i.val r (.store i) 9)) ∧
    (Safety.wordNext s i.val r w 0x0B →
      (w.subop = 0 → (s.condHolds r w.cond = false → Safety.wordRan s i.val r (.branchJump i) (Safety.afterIssue r w s.now)) ∧
        (s.condHolds r w.cond = true → (s.sleeve i.val).live w.target = true →
          Safety.wordRan s i.val r (.branchJump i) { Safety.afterIssue r w s.now with pc := w.target }) ∧
        (s.condHolds r w.cond = true → (s.sleeve i.val).live w.target = false → Safety.faultRan s i.val r (.branchJump i) 3)) ∧
      (w.subop = 1 → s.condHolds r w.cond = true → (r.stack.length < 4 → (s.sleeve i.val).live w.target = true →
          Safety.wordRan s i.val r (.branchCall i) { Safety.afterIssue r w s.now with pc := w.target, stack := ((r.pc + 1) % 8192) :: r.stack }) ∧
        (4 ≤ r.stack.length → Safety.faultRan s i.val r (.branchCall i) 4)) ∧
      (w.subop = 2 → s.condHolds r w.cond = true → (∀ a rest, r.stack = a :: rest → (s.sleeve i.val).live a = true →
          Safety.wordRan s i.val r (.branchReturn i) { Safety.afterIssue r w s.now with pc := a, stack := rest }) ∧
        (r.stack = [] → Safety.faultRan s i.val r (.branchReturn i) 4))) ∧
    (Safety.wordNext s i.val r w 0x0C →
      (w.subop = 0 → Safety.wordRan s i.val r (.reportOk i) { Safety.afterIssue r w s.now with report := some (0, r.v w.sa) }) ∧
      (w.subop = 1 → Safety.wordRan s i.val r (.reportFail i) { Safety.afterIssue r w s.now with report := some (1, r.v w.sa) }) ∧
      (w.subop = 2 → Safety.wordRan s i.val r (.reportInterrupted i) { Safety.afterIssue r w s.now with report := some (2, r.v w.sa) })) ∧
    (Safety.wordNext s i.val r w 0x0D → ∃ x, Safety.wordRan s i.val r (.yield i) x ∧ x.suspended = true ∧ x.wdogPaused = true ∧
      x.suspends = r.suspends + 1 ∧ x.wdogLeft = s.wdogLeft r ∧ x.readers.length ≤ 16 ∧ ∀ k, k ∈ x.readers → ∃ q ∈ (s.sleeve i.val).queue,
        q.id = k ∧ q.link = r.desc.link ∧ q.die = r.desc.die ∧ q.cls = 1) ∧
    (Safety.wordNext s i.val r w 0x0E →
      (w.subop = 0 → Safety.wordRan s i.val r (.decodeHard i) { Safety.afterIssue r w s.now with decoding := r.decoding ++ [(false, r.undecoded)] }) ∧
      (w.subop = 1 → ∃ t, exec (.decodeSoft i) s = .next t ∧ t.opRec i.val r.desc.id = some
        { Safety.afterIssue r w s.now with decoding := r.decoding ++ [(true, r.undecoded)], softUsed := true } ∧
        t.rd (Reg.SLV_COUNT_SOFT_COUNT i.val) = min (2 ^ 32 - 1) (s.rd (Reg.SLV_COUNT_SOFT_COUNT i.val) + 1))) ∧
    (Safety.wordNext s i.val r w 0x0F → Safety.faultRan s i.val r (.trap i) 10 ∧
      ∃ t, exec (.trap i) s = .next t ∧ t.rd (Reg.SLV_FAULT_PC_TRAP i.val) = w.imm % 65536) ∧
    (Safety.wordNext s i.val r w 0x10 →
      (r.report = none → Safety.faultRan s i.val r (.endWord i) 8) ∧
      (r.report ≠ none → s.slv.patch = none → ∃ t, exec (.endWord i) s = .next t ∧
        t.opRec i.val r.desc.id = some { Safety.afterIssue r w s.now with ended := true, ctx := none } ∧ t = { s with slv := t.slv }))

/-- Where such a word issues: CMD and ADDR send one capsule of type 0x01 with the bytes of IMM, or of SA and SB; DOUT RAW
sends scratch bytes and DOUT IMAGE the page image of a plane in DATA_OUT capsules; DIN and STATUS take the lowest free
tag and send their request with it; NOP changes its record alone. DIN IMAGE past RETRY_STEPS, DIN SOFT past SOFT_READS
and a RAW range outside scratch take fault RANGE (9). WAIT leaves the context with its mask and flags; ready records
are then given contexts. The watchdog is armed with the personality's time of its kind or AUX microseconds, or
stopped; the poll timer is armed with AUX times 100 ns. A poll timer or a watchdog that is over sets its condition, or
makes fault WDOG (5) pending; sooner nothing happens. -/
def Obligations.DieWordsSendCapsules : Prop :=
  ∀ (i : Fin 64) (s : State) (r : OpRec) (w : CtlWord),
    (Safety.wordNext s i.val r w 0x00 → Safety.wordRan s i.val r (.nop i) (Safety.afterIssue r w s.now)) ∧
    (Safety.wordNext s i.val r w 0x01 → exec (.cmd i) s = .next (Safety.sent (s.issued i.val r w) r w 0x01 (bit w.clrEdge) (immBytes w (w.aux % 16)))) ∧
    (Safety.wordNext s i.val r w 0x02 → exec (.addr i) s = .next (Safety.sent (s.issued i.val r w) r w 0x01 (bit w.clrEdge + 2)
      (if w.aux.testBit 4 then (leBytes 4 (r.v w.sa).toNat ++ leBytes 4 (r.v w.sb).toNat).take (w.aux % 16) else immBytes w (w.aux % 16)))) ∧
    (Safety.wordNext s i.val r w 0x03 →
      (w.subop = 0 → (1 ≤ w.aux → w.aux ≤ 4096 → (r.v w.sa).toNat + w.aux ≤ 16384 → exec (.doutRaw i) s = .next (Safety.sent (s.issued i.val r w) r w 0x02
          (bit w.clrEdge + 4 + 8) ((List.range w.aux).map fun k => s.scratchByte i.val ((r.v w.sa).toNat + k)))) ∧
        ((r.v w.sa).toNat + w.aux ≤ 16384 → exec (.doutRaw i) s = .next ((s.issued i.val r w).dataOut r w
          ((List.range w.aux).map fun k => s.scratchByte i.val ((r.v w.sa).toNat + k)))) ∧
        (16384 < (r.v w.sa).toNat + w.aux → Safety.faultRan s i.val r (.doutRaw i) 9)) ∧
      (w.subop = 1 → exec (.doutImage i) s = .next (((s.issued i.val r w).modRec (r.desc.link / 8) r.desc.id fun x =>
          { x with planesOut := (r.v w.sa).toNat :: x.planesOut }).dataOutFor r w
        (State.pageImage ((s.issued i.val r w).modRec (r.desc.link / 8) r.desc.id fun x => { x with planesOut := (r.v w.sa).toNat :: x.planesOut })
          r.desc (r.v w.sa).toNat) (r.memberDone (r.v w.sa).toNat)))) ∧
    (Safety.wordNext s i.val r w 0x04 →
      (w.subop = 0 → (1 ≤ w.aux → w.aux ≤ 65535 → (r.v w.sa).toNat + w.aux ≤ 16384 → ∃ g, (s.lnk r.desc.link).freeTag = some g ∧
          exec (.dinRaw i) s = .next (Safety.sent ((s.issued i.val r w).addTag r.desc.link ⟨g, r.desc.die, r.desc.id, 0, w.aux, 0, (r.v w.sa).toNat, false, s.now⟩)
            r w 0x03 (bit w.clrEdge) (leBytes 2 w.aux ++ leBytes 1 g ++ leBytes 1 0))) ∧
        (16384 < (r.v w.sa).toNat + w.aux → Safety.faultRan s i.val r (.dinRaw i) 9)) ∧
      (w.subop = 1 → (r.dins ≤ (s.opPers r.desc.link).get 0x2E → ∃ (t : State) (g : Nat) (x : OpRec), exec (.dinImage i) s = .next (Safety.sent (t.addTag r.desc.link
            ⟨g, r.desc.die, r.desc.id, 1, s.imageLen r.desc.link, 0, (r.v w.sa).toNat, false, s.now⟩) r w 0x03 (bit w.clrEdge)
            (leBytes 2 (s.imageLen r.desc.link) ++ leBytes 1 g ++ leBytes 1 0)) ∧ (s.lnk r.desc.link).freeTag = some g ∧
          t.opRec i.val r.desc.id = some x ∧ x.dins = r.dins + 1) ∧
        ((s.opPers r.desc.link).get 0x2E < r.dins → Safety.faultRan s i.val r (.dinImage i) 9)) ∧
      (w.subop = 2 → (r.strobes.length < softReads (s.opPers r.desc.link) → ∃ (t : State) (g : Nat) (x : OpRec), exec (.dinSoft i) s = .next (Safety.sent (t.addTag r.desc.link
            ⟨g, r.desc.die, r.desc.id, 2, s.imageLen r.desc.link, 0, (r.v w.sa).toNat, false, s.now⟩) r w 0x03 (bit w.clrEdge)
            (leBytes 2 (s.imageLen r.desc.link) ++ leBytes 1 g ++ leBytes 1 0)) ∧ (s.lnk r.desc.link).freeTag = some g ∧
          t.opRec i.val r.desc.id = some x ∧ x.strobes = r.strobes ++ [w.imm % 4]) ∧
        (softReads (s.opPers r.desc.link) ≤ r.strobes.length → Safety.faultRan s i.val r (.dinSoft i) 9))) ∧
    (Safety.wordNext s i.val r w 0x05 → ∃ g, (s.lnk r.desc.link).freeTag = some g ∧
      exec (.statusWord i) s = .next (Safety.sent ((s.issued i.val r w).addTag r.desc.link ⟨g, r.desc.die, r.desc.id, 3, 1, 0, w.dst, false, s.now⟩)
        r w 0x04 (bit w.clrEdge) ([w.immByte 0] ++ leBytes 1 (bit (w.subop == 0)) ++ leBytes 1 g ++ leBytes 1 0))) ∧
    (Safety.wordNext s i.val r w 0x06 → ∃ u : State, exec (.wait i) s = .next (u.bind i.val).patchGo ∧ ((s.sleeve i.val).xover = none → ∃ x, u.opRec i.val r.desc.id = some x ∧
      x.wait = some (w.aux % 32, w.wflags) ∧ x.ctx = none ∧ x.pc = (r.pc + 1) % 8192)) ∧
    (Safety.wordNext s i.val r w 0x07 →
      (w.subop = 0 → Safety.wordRan s i.val r (.timerArmWatchdog i) { Safety.afterIssue r w s.now with
        wdogOn := true, wdogFrom := s.now, wdogLeft := 1000 * (match w.imm % 4 with
          | 0 => (s.opPers r.desc.link).get 0x28 | 1 => (s.opPers r.desc.link).get 0x24 | 2 => (s.opPers r.desc.link).get 0x26 | _ => w.aux) }) ∧
      (w.subop = 1 → Safety.wordRan s i.val r (.timerStopWatchdog i) { Safety.afterIssue r w s.now with wdogOn := false, wdogLeft := 0 }) ∧
      (w.subop = 2 → Safety.wordRan s i.val r (.timerArmPoll i) { Safety.afterIssue r w s.now with pollAt := some (s.now + 100 * w.aux), pollDone := false })) ∧
    (s.mainUp = true → s.opRec i.val r.desc.id = some r →
      (∀ k, s.waitCause r = some k → r.fault = none → ∃ t x, exec (.waitEnd i r.desc.id) s = .next t ∧ t.opRec i.val r.desc.id = some x ∧ x.wait = none ∧
        x.stop = k ∧ x.pc = r.pc ∧ t = { s with slv := t.slv }) ∧
      (∀ k c, s.waitCause r = some k → r.fault = some c → c < 256 → r.ended = false → Safety.faultRan s i.val r (.waitEnd i r.desc.id) c) ∧
      (s.waitCause r = none → exec (.waitEnd i r.desc.id) s = .next s) ∧
      (∀ p, r.pollAt = some p → (p ≤ s.now → Safety.wordRan s i.val r (.pollTimerExpiry i r.desc.id) { r with pollAt := none, pollDone := true }) ∧
        (s.now < p → exec (.pollTimerExpiry i r.desc.id) s = .next s)) ∧
      (r.wdogOn = true → r.wdogPaused = false → r.ended = false →
        (r.wdogLeft ≤ s.now - r.wdogFrom → (r.wait = none → Safety.faultRan s i.val r (.sleeveWatchdogExpiry i r.desc.id) 5) ∧
          (r.wait.isSome = true → r.fault = none → Safety.wordRan s i.val r (.sleeveWatchdogExpiry i r.desc.id) { r with wdogOn := false, fault := some 5 })) ∧
        (s.now - r.wdogFrom < r.wdogLeft → exec (.sleeveWatchdogExpiry i r.desc.id) s = .next s)))

/-- OPERATION_REQUEST for a populated link queues the descriptor under the next number at its Sleeve. OPERATION_START
starts, of the descriptors that can start, one of the highest class and lowest number, at the entry point of its
operation, and takes it out of the queue; with none it changes nothing. OPERATION_END of a record that has ended
delivers its result; of another, or of none, it delivers nothing. DECODE_COMPLETE moves the sectors that decoded out
of the oldest decode in progress. CROSSOVER_TIMEOUT before its 10 ms does nothing. A word that is not live, illegal or
with an uncorrectable error takes fault 3, 1 or 2; a corrected error is counted. -/
def Obligations.OperationsRunOnSleeves : Prop :=
  ∀ (i : Fin 64) (s : State), s.mainUp = true →
    (∀ (n : Fin 512) (die : Fin 32) (e : Fin 16) (block page planes : Nat) (first count pages : Fin 9) (slc : Bool) (cls : Fin 4) (buffer : Nat) (why : OpFor),
      (populated s.image.cfg n.val = true → ∃ t : State, exec (.operationRequest n die e block page planes first count pages slc cls buffer why) s = .next (t.leavePark n.val) ∧
        (t.sleeve (n.val / 8)).queue = (s.sleeve (n.val / 8)).queue ++
          [⟨s.slv.nextOp, n.val, die.val, e.val, block, page, planes, first.val, count.val, pages.val, slc, cls.val, buffer, why, s.now⟩] ∧
        t.slv.nextOp = s.slv.nextOp + 1 ∧ t = { s with slv := t.slv }) ∧
      (populated s.image.cfg n.val = false → exec (.operationRequest n die e block page planes first count pages slc cls buffer why) s = .next s)) ∧
    ((∀ q ∈ (s.sleeve i.val).queue, s.startable q = false) → exec (.operationStart i) s = .next s) ∧
    ((∃ q ∈ (s.sleeve i.val).queue, s.startable q = true) → (∀ q ∈ (s.sleeve i.val).queue, q.link / 8 = i.val ∧ (s.die q.link q.die).needsReset = false ∧ s.opRec i.val q.id = none) →
      ∃ d t pc c, exec (.operationStart i) s = .next t ∧ d ∈ (s.sleeve i.val).queue ∧ s.startable d = true ∧
        (∀ q ∈ (s.sleeve i.val).queue, s.startable q = true → d.cls * 2 ^ 64 + d.id ≤ q.cls * 2 ^ 64 + q.id) ∧
        (∀ q, q ∈ (t.sleeve i.val).queue ↔ q ∈ (s.sleeve i.val).queue ∧ q.id ≠ d.id) ∧ entryOf (s.opPers d.link) d.entry = some pc ∧
        t.opRec i.val d.id = some { newRec d pc s.now (d.entry == 13) with ctx := c } ∧ (d.entry ≠ 13 → t = { s with slv := t.slv })) ∧
    (∀ (op : Nat) (b : Bool), (s.opRec i.val op = none → exec (.operationEnd i op b) s = .next s) ∧
      (∀ r, s.opRec i.val op = some r → (r.ended = false → exec (.operationEnd i op b) s = .next ((s.settleDma.recalGo r.desc.link).sanStep)) ∧
        (r.ended = true → ∃ u : State, exec (.operationEnd i op b) s = .next (((u.patchGo.enumStep r).settleDma.recalGo r.desc.link).sanStep) ∧
          (r.desc.why = .other → r.report.map Prod.fst = some 0 → r.reset = false → r.faultCode ≠ 11 → r.desc.reads = false →
            u.opRec i.val op = none ∧ u = { s with slv := u.slv })))) ∧
    (∀ (op : Nat) (good : List (Nat × Nat)) (r : OpRec) (soft : Bool) (work : List (Nat × Nat)) (rest : List (Bool × List (Nat × Nat))),
      s.opRec i.val op = some r → r.decoding = (soft, work) :: rest →
      ((s.lnk r.desc.link).tags.filter fun g => g.op == op && g.kind == 1).length < r.decoding.length →
      ∃ t x, exec (.decodeComplete i op good) s = .next t ∧ t.opRec i.val op = some x ∧ x.decoding = rest ∧
        (∀ q, q ∈ x.decoded ↔ q ∈ r.decoded ∨ (q ∈ work ∧ q ∈ good)) ∧ (∀ q, q ∈ x.failed ↔ q ∈ r.failed ∨ (q ∈ work ∧ q ∉ good)) ∧
        t = { s with slv := t.slv }) ∧
    (∀ x, (s.sleeve i.val).xover = some x → (s.now < x.since + 10000000 → exec (.crossoverTimeout i) s = .next s) ∧
      (x.since + 10000000 ≤ s.now → (∀ r ∈ (s.sleeve i.val).recs, r.crossed = true ∨ r.ended = true) → exec (.crossoverTimeout i) s = .next s.patchGo) ∧
      (x.since + 10000000 ≤ s.now → ∀ r, ((s.sleeve i.val).recs.filter fun r => !r.crossed && !r.ended) = [r] → exec (.crossoverTimeout i) s = .next
        ((((s.modRec i.val r.desc.id fun y => { y with crossed := true }).bump (Reg.SLV_XOVER_ABORTED i.val)).modSlv fun v =>
          { v with patch := v.patch.map fun o => { o with aborted := o.aborted + 1 } }).pendFault i.val r.desc.id 11).patchGo)) ∧
    (∀ r, s.nextIssue i.val = some r → s.opRec i.val r.desc.id = some r →
      (∀ w, (s.sleeve i.val).fetch r = some w →
        (w.legal = true → exec (.illegalWord i 0) s = .next s) ∧
        (w.legal = false → Safety.faultRan s i.val r (.illegalWord i 0) 1) ∧
        (∃ t, exec (.illegalWord i 1) s = .next t ∧ t.rd (Reg.SLV_COUNT_ECC_COUNT i.val) = min (2 ^ 32 - 1) (s.rd (Reg.SLV_COUNT_ECC_COUNT i.val) + 1) ∧
          t.evtStatus (1028 + 8 * i.val) = true)) ∧
      Safety.faultRan s i.val r (.illegalWord i 2) 2 ∧
      ((s.sleeve i.val).bad.contains r.pc = false → (s.sleeve i.val).fetch r = none → Safety.faultRan s i.val r (.illegalWord i 0) 3))

/-- A submission tail doorbell of an enabled controller stores the tail of a queue it names, within its size, and a
completion head doorbell the head; one that names no queue or a value out of range is an error event. In Deep Sleep
the submission doorbell is kept for the exit. COMMAND_FETCH takes a command of the admin queue first, then of the
urgent queues, then of the weighted classes, and makes it outstanding. Create I/O Completion Queue and Create I/O
Submission Queue, whose identifier, size, vector or completion queue is good, add the queue, empty, and complete; else
they complete with the status of what is wrong. Delete I/O Submission Queue leaves no queue of that identifier, and
Delete I/O Completion Queue neither, unless a submission queue uses it. -/
def Obligations.QueueCommandsKeepTheQueues : Prop :=
  (∀ (k : Fin 4) (q n : Nat) (x : Sq) (s : State), Safety.inRun s → s.hasCtrl k.val = true → (s.ctrl k.val).en = true →
      (s.ctrl k.val).hasSq q = some x →
      (n < x.size → ∃ t, exec (.sqTailDoorbell k q n) s = .next t ∧ (t.ctrl k.val).hasSq q = some { x with tail := n } ∧
        (∀ p, p ≠ q → (t.ctrl k.val).hasSq p = (s.ctrl k.val).hasSq p) ∧ (∀ j, j ≠ k.val → t.ctrl j = s.ctrl j) ∧ Safety.onlyNvme s t) ∧
      (x.size ≤ n → exec (.sqTailDoorbell k q n) s = .next (s.aen k.val ⟨0, 1, 1⟩))) ∧
  (∀ (k : Fin 4) (q n : Nat) (s : State), s.board.mainRunning = true → s.hasCtrl k.val = true → (s.ctrl k.val).en = true → s.pwrState = 3 →
      ∃ t, exec (.sqTailDoorbell k q n) s = .next t ∧ t.pwr.doorbells = s.pwr.doorbells ++ [(k.val, q, n)] ∧ t.nvme = s.nvme) ∧
  (∀ (k : Fin 4) (q n : Nat) (e : Nat × Cq) (s : State), s.mainUp = true → s.hasCtrl k.val = true → (s.ctrl k.val).en = true →
      (s.ctrl k.val).cqs.find? (fun e => e.1 == q) = some e →
      (n < e.2.size → ∃ t, exec (.cqHeadDoorbell k q n) s = .next t ∧ (q, { e.2 with head := n }) ∈ (t.ctrl k.val).cqs ∧
        (t.ctrl k.val).sqs = (s.ctrl k.val).sqs ∧ (∀ j, j ≠ k.val → t.ctrl j = s.ctrl j) ∧ Safety.onlyNvme s t) ∧
      (e.2.size ≤ n → exec (.cqHeadDoorbell k q n) s = .next (s.aen k.val ⟨0, 1, 1⟩))) ∧
  (∀ (k : Fin 4) (cid : Nat) (s : State), s.ctrlRuns k.val = true →
      (∀ a, (s.ctrl k.val).hasSq 0 = some a → a.head ≠ a.tail ∨ ∃ p, p < 4 ∧ (s.ctrl k.val).ready p ≠ []) → ((s.ctrl k.val).hasSq 0).isSome = true →
      ∃ t q, exec (.commandFetch k cid) s = .next t ∧ t.nvme.outs = s.nvme.outs ++ [⟨k.val, q, cid, s.nvme.fetchSeq, false, true⟩] ∧
        t.nvme.fetchSeq = s.nvme.fetchSeq + 1 ∧
        (∀ a, (s.ctrl k.val).hasSq 0 = some a → a.head ≠ a.tail → q = 0) ∧
        (∀ a, (s.ctrl k.val).hasSq 0 = some a → a.head = a.tail → (s.ctrl k.val).ready 0 ≠ [] → q ∈ (s.ctrl k.val).ready 0) ∧
        (∀ j, j ≠ k.val → t.ctrl j = s.ctrl j)) ∧
  ∀ (c : Sqe) (s : State), c.mi = false → Safety.runs s c .service →
    let k := c.ctrl.val
    let qid := dwBits c.cdw10 0 16
    let size := dwBits c.cdw10 16 16 + 1
    (1 ≤ qid → qid ≤ s.maxCq k → ((s.ctrl k).cqs.any fun e => e.1 == qid) = false → 2 ≤ size → size ≤ s.maxDepth k → c.cdw11.getLsbD 0 = true →
      dwBits c.cdw11 16 16 < portGet s.image.cfg (k / 2) 12 →
      ∃ (t : State) (y : Cq), exec (.createIoCq c) s = .next t ∧ (qid, y) ∈ (t.ctrl k).cqs ∧ y.size = size ∧ y.head = 0 ∧
        y.vector = dwBits c.cdw11 16 16 ∧ y.ien = c.cdw11.getLsbD 1 ∧ (t.ctrl k).sqs = (s.ctrl k).sqs ∧
        t.nvme.cpls = s.nvme.cpls ++ [Safety.cpl c stOk 0 0 []] ∧ Safety.onlyNvme s t) ∧
    (1 ≤ qid → qid ≤ s.maxSq k → ((s.ctrl k).sqs.any fun e => e.1 == qid) = false → 2 ≤ size → size ≤ s.maxDepth k → c.cdw11.getLsbD 0 = true →
      dwBits c.cdw11 16 16 ≠ 0 → ((s.ctrl k).cqs.any fun e => e.1 == dwBits c.cdw11 16 16) = true →
      ∃ t, exec (.createIoSq c) s = .next t ∧
        (t.ctrl k).sqs = (s.ctrl k).sqs ++ [(qid, ⟨size, 0, 0, dwBits c.cdw11 16 16, dwBits c.cdw11 1 2⟩)] ∧
        t.nvme.cpls = s.nvme.cpls ++ [Safety.cpl c stOk 0 0 []] ∧ Safety.onlyNvme s t) ∧
    (qid = 0 → Safety.answered s (.createIoCq c) (Safety.cpl c stQueueId 0 0 []) ∧
      Safety.answered s (.createIoSq c) (Safety.cpl c stQueueId 0 0 []) ∧ Safety.answered s (.deleteIoCq c) (Safety.cpl c stQueueId 0 0 [])) ∧
    (1 ≤ qid → ((s.ctrl k).cqs.any fun e => e.1 == qid) = true →
      (((s.ctrl k).sqs.any fun e => e.2.cq == qid) = true → Safety.answered s (.deleteIoCq c) (Safety.cpl c stQueueDeletion 0 0 [])) ∧
      (((s.ctrl k).sqs.any fun e => e.2.cq == qid) = false → ∃ t, exec (.deleteIoCq c) s = .next t ∧
        ((t.ctrl k).cqs.any fun e => e.1 == qid) = false ∧ (t.ctrl k).sqs = (s.ctrl k).sqs ∧
        t.nvme.cpls = s.nvme.cpls ++ [Safety.cpl c stOk 0 0 []])) ∧
    (1 ≤ qid → ((s.ctrl k).sqs.any fun e => e.1 == qid) = true → ∃ u, exec (.deleteIoSq c) s = .next (State.settleDma u) ∧
      ((u.ctrl k).sqs.any fun e => e.1 == qid) = false)

/-- Identify completes with the data of its CNS: a namespace that is exposed, the controller, the list of active
namespaces; a namespace that is not exposed is Invalid Namespace and another CNS Invalid Field. Get Features completes
with the value of the feature, with 4 in dword 0 for its capabilities, and with Invalid Field for a feature the device
does not have. An Asynchronous Event Request waits, completes at once with the oldest event that waits, or is the
seventeenth and is refused. Abort of an Asynchronous Event Request ends it; of a command that is not outstanding, or
may not be aborted, it sets dword 0 bit 0. Namespace Management Create completes with Invalid Field and an opcode the
device does not have with Invalid Command Opcode. -/
def Obligations.AdminQueriesAnswer : Prop :=
  ∀ (c : Sqe) (s : State),
    (Safety.runs s c .always →
      (dwBits c.cdw10 0 8 = 0 → c.nsid ≠ 0xFFFFFFFF → ∀ n, s.nsOf c = some n → Safety.answered s (.identify c) (Safety.cpl c stOk 0 0 n.identify)) ∧
      (dwBits c.cdw10 0 8 = 0 → s.nsOf c = none → Safety.answered s (.identify c) (Safety.cpl c stInvalidNs 0 0 [])) ∧
      (dwBits c.cdw10 0 8 = 1 → Safety.answered s (.identify c) (Safety.cpl c stOk 0 0 (s.identifyCtrl c.ctrl.val))) ∧
      (dwBits c.cdw10 0 8 = 2 → c.nsid < 0xFFFFFFFE → Safety.answered s (.identify c) (Safety.cpl c stOk 0 0 (s.nsList c.nsid))) ∧
      (dwBits c.cdw10 0 8 = 8 → ∀ n, s.nsOf c = some n → Safety.answered s (.identify c) (Safety.cpl c stOk 0 0 s.identifyIndep)) ∧
      (8 < dwBits c.cdw10 0 8 → Safety.answered s (.identify c) (Safety.cpl c stInvalidField 0 0 [])) ∧
      (featureIds.contains (dwBits c.cdw10 0 8) = false → Safety.answered s (.getFeatures c) (Safety.cpl c stInvalidField 0 0 [])) ∧
      (∀ v, s.feature c (dwBits c.cdw10 8 3 == 1 || dwBits c.cdw10 8 3 == 2) = some v →
        (dwBits c.cdw10 8 3 < 3 → Safety.answered s (.getFeatures c) (Safety.cpl c stOk v.1 v.2.1 v.2.2)) ∧
        (dwBits c.cdw10 8 3 = 3 → Safety.answered s (.getFeatures c) (Safety.cpl c stOk 4 0 []))) ∧
      (dwBits c.cdw10 0 8 = 0xC1 → dwBits c.cdw10 8 3 = 0 → Safety.answered s (.getFeatures c) (Safety.cpl c stOk s.win.ceiling 0 [])) ∧
      (dwBits c.cdw10 8 3 = 0 → Safety.answered s (.getMantleState c) (Safety.cpl c stOk 0 0 s.blob)) ∧
      (c.mi = false → c.sq = 0 → dwBits c.cdw10 0 16 = 0 → dwBits c.cdw10 16 16 ≠ c.cid →
        (s.ctrl c.ctrl.val).aers.contains (dwBits c.cdw10 16 16) = true →
        ∃ u l, exec (.abortCommand c) s = .next (State.settleDma u) ∧ u.nvme.cpls = l ++ [Safety.cpl c stOk 0 0 []] ∧
          (u.ctrl c.ctrl.val).aers = (s.ctrl c.ctrl.val).aers.filter fun x => x != dwBits c.cdw10 16 16) ∧
      (c.mi = false → (dwBits c.cdw10 0 16, dwBits c.cdw10 16 16) ≠ (c.sq, c.cid) → dwBits c.cdw10 0 16 ≠ 0 →
        (∀ o ∈ s.nvme.outs, o.ctrl = c.ctrl.val → o.sq = dwBits c.cdw10 0 16 → o.cid = dwBits c.cdw10 16 16 → o.abortable = false) →
        ∃ u, exec (.abortCommand c) s = .next (State.settleDma u) ∧ Safety.completed s u (Safety.cpl c stOk 1 0 []))) ∧
    (Safety.runs s c .plain → Safety.answered s (.namespaceCreate c) (Safety.cpl c stInvalidField 0 0 []) ∧
      Safety.answered s (.invalidCommandOpcode c) (Safety.cpl c stInvalidOpcode 0 0 [])) ∧
    (Safety.runs s c .service → c.mi = false → c.sq = 0 →
      (∀ a rest, (s.ctrl c.ctrl.val).aenQueue = a :: rest → ∃ t, exec (.asynchronousEventRequest c) s = .next t ∧
        t.nvme.cpls = s.nvme.cpls ++ [Safety.cpl c stOk (a.ty + 256 * a.info + 65536 * a.page) 0 []] ∧ (t.ctrl c.ctrl.val).aenQueue = rest ∧
        (t.ctrl c.ctrl.val).withheld = (s.ctrl c.ctrl.val).withheld ++ [a.page] ∧ Safety.onlyNvme s t) ∧
      ((s.ctrl c.ctrl.val).aenQueue = [] →
        ((s.ctrl c.ctrl.val).aers.length < 16 → ∃ t, exec (.asynchronousEventRequest c) s = .next t ∧
          (t.ctrl c.ctrl.val).aers = (s.ctrl c.ctrl.val).aers ++ [c.cid] ∧ t.nvme.cpls = s.nvme.cpls ∧ Safety.onlyNvme s t) ∧
        (16 ≤ (s.ctrl c.ctrl.val).aers.length → Safety.answered s (.asynchronousEventRequest c) (Safety.cpl c stAerLimit 0 0 []))))

/-- A Sanitize that asks for No-Deallocate is an invalid field, and one while a take or a fitting is open a sequence
error; each does nothing. A Block Erase or a Crypto Erase that starts completes, ends the commands in hand, and begins
its work from the start: a Block Erase leaves no mapping, no take and only bands of metadata, and a Crypto Erase has
every key slot that a namespace names to replace. Exit Failure Mode leaves the failure state; Overwrite is an invalid
field. While a sanitize is in progress Set Features, queue management and the firmware commands complete with Sanitize
In Progress. Delete of an attached namespace is refused with vendor status A2h, of one that does not exist with
Invalid Namespace; else it leaves no namespace of that identifier. -/
def Obligations.SanitizeAndNamespaceDeletion : Prop :=
  ∀ (c : Sqe) (s : State),
    (Safety.runs s c .service →
      (c.cdw10.getLsbD 9 = true → Safety.settled s (.sanitizeBlockErase c) (Safety.cpl c stInvalidField 0 0 []) ∧
        Safety.settled s (.sanitizeCryptoErase c) (Safety.cpl c stInvalidField 0 0 []) ∧
        Safety.answered s (.sanitizeExitFailureMode c) (Safety.cpl c stInvalidField 0 0 [])) ∧
      (c.cdw10.getLsbD 9 = false → s.openTakes ≠ [] ∨ s.rd Reg.FIT_STATUS_STATE ≠ 0 →
        Safety.settled s (.sanitizeBlockErase c) (Safety.cpl c stSequence 0 0 []) ∧
        Safety.settled s (.sanitizeCryptoErase c) (Safety.cpl c stSequence 0 0 []) ∧
        Safety.answered s (.sanitizeExitFailureMode c) (Safety.cpl c stSequence 0 0 [])) ∧
      (c.cdw10.getLsbD 9 = false → s.openTakes = [] → s.rd Reg.FIT_STATUS_STATE = 0 →
        (∃ u, exec (.sanitizeBlockErase c) s = .next (State.settleDma (State.sanStep u)) ∧ u.nvme.sanitize.action = 2 ∧ u.nvme.sanitize.status = 2 ∧
          u.nvme.sanitize.progress = 0 ∧ u.nvme.sanitize.cdw10 = c.cdw10.toNat ∧ u.ftl.map = [] ∧ u.takes.dir = [] ∧ u.takes.nextTake = 1 ∧
          u.path.reads = [] ∧ u.path.trims = [] ∧ u.nvme.seqWaits = [] ∧ (∀ b ∈ u.ftl.bands, 1 < b.kind) ∧
          ∀ m ∈ u.nvme.sanitize.blocks, (u.blk m).state = 2 ∨ (u.blk m).state = 3) ∧
        (∃ u, exec (.sanitizeCryptoErase c) s = .next (State.settleDma (State.sanStep u)) ∧ u.nvme.sanitize.action = 4 ∧ u.nvme.sanitize.status = 2 ∧
          u.nvme.sanitize.progress = 0 ∧ u.nvme.sanitize.cdw10 = c.cdw10.toNat ∧ u.path.reads = [] ∧ u.path.trims = [] ∧ u.nvme.seqWaits = [] ∧
          u.nvme.sanitize.slots = (List.range 1024).filter u.slotNamed) ∧
        ∃ t, exec (.sanitizeExitFailureMode c) s = .next t ∧ t.nvme.sanitize = { s.nvme.sanitize with failed := false } ∧
          t.nvme.cpls = s.nvme.cpls ++ [Safety.cpl c stOk 0 0 []] ∧ Safety.onlyNvme s t) ∧
      Safety.answered s (.sanitizeOverwrite c) (Safety.cpl c stInvalidField 0 0 [])) ∧
    (s.acts c = true → s.nvme.sanitize.action ≠ 0 → c.mi = false →
      (∀ i ∈ [.setArbitration c, .setNumberOfQueues c, .setDirtyWindow c, .setThermalPolicy c, .createIoCq c, .createIoSq c, .deleteIoCq c, .namespaceCreate c,
        .sanitizeOverwrite c, .firmwareImageDownload c, .asynchronousEventRequest c, .nvmeMiSend c, .fittingReport c, .deleteIoSq c, .namespaceDelete c,
        .sanitizeBlockErase c, .sanitizeCryptoErase c, .keyLoadLoad c], Safety.answered s i (Safety.cpl c stSanitizing 0 0 []))) ∧
    (Safety.runs s c .plain → c.nsid ≠ 0xFFFFFFFF →
      (s.ns c.nsid = none → Safety.settled s (.namespaceDelete c) (Safety.cpl c stInvalidNs 0 0 [])) ∧
      (∀ n, s.ns c.nsid = some n → n.attached = true → Safety.settled s (.namespaceDelete c) (Safety.cpl c (stVendor 0xA2 true) 0 0 [])) ∧
      (∀ n, s.ns c.nsid = some n → n.attached = false → s.seqRoom 1 = true →
        ∃ u, exec (.namespaceDelete c) s = .next (State.settleDma u) ∧ (u.nvme.nss.any fun x => x.nsid == c.nsid) = false))

/-- A Set Features of a feature the device does not have is an invalid field, and one that asks to save is not saveable.
Arbitration, the temperature thresholds, Interrupt Coalescing, the vector configuration, the asynchronous event
configuration, the host thresholds, the host ceiling of the dirty window store their values within their ranges;
Number of Queues grants the lesser of what is asked for and the device has; error recovery and write atomicity take 0
alone. Thermal Policy and Steeple Role run as a fitting of their own. A Mantle state blob that is not good is refused,
and a good one restores the strings whose description is in force. -/
def Obligations.SetFeaturesStoreTheirValues : Prop :=
  ∀ (c : Sqe) (s : State), Safety.runs s c .service →
    let k := c.ctrl.val
    let d := c.cdw11
    let rows : List Instr := [.setArbitration c, .setTemperatureThreshold c, .setErrorRecovery c, .setNumberOfQueues c, .setInterruptCoalescing c,
      .setInterruptVectorConfig c, .setWriteAtomicity c, .setAsyncEventConfig c, .setHostThermalManagement c, .setDirtyWindow c, .setThermalPolicy c,
      .setSteepleRole c, .setMantleState c]
    let stored (i : Instr) (dw0 : Nat) (P : State → Prop) : Prop :=
      ∃ t, exec i s = .next t ∧ t.nvme.cpls = s.nvme.cpls ++ [Safety.cpl c stOk dw0 0 []] ∧ P t
    let bad (i : Instr) : Prop := Safety.answered s i (Safety.cpl c stInvalidField 0 0 [])
    (featureIds.contains (dwBits c.cdw10 0 8) = false → ∀ i ∈ rows, bad i) ∧
    (featureIds.contains (dwBits c.cdw10 0 8) = true → c.cdw10.getLsbD 31 = true → ∀ i ∈ rows, Safety.answered s i (Safety.cpl c stNotSaveable 0 0 [])) ∧
    (featureIds.contains (dwBits c.cdw10 0 8) = true → c.cdw10.getLsbD 31 = false →
      stored (.setArbitration c) 0 (fun t => (t.ctrl k).arbitration = (d &&& 0xFFFFFF07).toNat ∧ (t.ctrl k).weight 1 = dwBits d 24 8 + 1 ∧
        Safety.onlyNvme s t) ∧
      (dwBits d 16 4 = 0 → dwBits d 20 2 = 0 → stored (.setTemperatureThreshold c) 0 fun t => t.nvme.tempOver = some (dwBits d 0 16) ∧ t.nvme.tempUnder = s.nvme.tempUnder) ∧
      (dwBits d 16 4 = 0 → dwBits d 20 2 = 1 → stored (.setTemperatureThreshold c) 0 fun t => t.nvme.tempUnder = dwBits d 0 16 ∧ t.nvme.tempOver = s.nvme.tempOver) ∧
      (dwBits d 16 4 ≠ 0 ∨ 2 ≤ dwBits d 20 2 → bad (.setTemperatureThreshold c)) ∧
      (dwBits d 0 17 = 0 → Safety.answered s (.setErrorRecovery c) (Safety.cpl c stOk 0 0 [])) ∧ (dwBits d 0 17 ≠ 0 → bad (.setErrorRecovery c)) ∧
      (d.getLsbD 0 = false → Safety.answered s (.setWriteAtomicity c) (Safety.cpl c stOk 0 0 [])) ∧ (d.getLsbD 0 = true → bad (.setWriteAtomicity c)) ∧
      (dwBits d 0 16 ≠ 0xFFFF → dwBits d 16 16 ≠ 0xFFFF →
        ((s.ctrl k).sqs.any fun e => e.1 != 0) = false → ((s.ctrl k).cqs.any fun e => e.1 != 0) = false →
        let g := min (dwBits d 0 16) (s.ioqPairs k - 1) + 65536 * min (dwBits d 16 16) (s.ioqPairs k - 1)
        stored (.setNumberOfQueues c) g fun t => (t.ctrl k).numQueues = g + 1 ∧ Safety.onlyNvme s t) ∧
      (dwBits d 0 16 = 0xFFFF → bad (.setNumberOfQueues c)) ∧
      stored (.setInterruptCoalescing c) 0 (fun t => (t.ctrl k).coalescing = dwBits d 0 16 ∧ Safety.onlyNvme s t) ∧
      (dwBits d 0 16 < portGet s.image.cfg (k / 2) 12 → stored (.setInterruptVectorConfig c) 0 fun t =>
        mapGet (fun _ => 0) (t.ctrl k).vecConfig (dwBits d 0 16) = dwBits d 16 1 ∧
        ∀ v, v ≠ dwBits d 0 16 → mapGet (fun _ => 0) (t.ctrl k).vecConfig v = mapGet (fun _ => 0) (s.ctrl k).vecConfig v) ∧
      (portGet s.image.cfg (k / 2) 12 ≤ dwBits d 0 16 → bad (.setInterruptVectorConfig c)) ∧
      stored (.setAsyncEventConfig c) 0 (fun t => (t.ctrl k).asyncConfig = dwBits d 0 10 ∧ Safety.onlyNvme s t) ∧
      (333 ≤ dwBits d 16 16 → dwBits d 16 16 < dwBits d 0 16 → dwBits d 0 16 ≤ 388 → stored (.setHostThermalManagement c) 0 fun t =>
        t.rd Reg.THM_HCTM_TMT1 = dwBits d 16 16 ∧ t.rd Reg.THM_HCTM_TMT2 = dwBits d 0 16) ∧
      (dwBits d 16 16 ≠ 0 → dwBits d 0 16 ≠ 0 → dwBits d 0 16 ≤ dwBits d 16 16 → bad (.setHostThermalManagement c)) ∧
      (388 < dwBits d 0 16 → bad (.setHostThermalManagement c)) ∧
      (d.toNat = 0 ∨ (256 ≤ d.toNat ∧ d.toNat ≤ 786432) → stored (.setDirtyWindow c) 0 fun t => t.win = { s.win with ceiling := d.toNat }) ∧
      (0 < d.toNat → d.toNat < 256 ∨ 786432 < d.toNat → bad (.setDirtyWindow c)) ∧
      (s.rd Reg.FIT_STATUS_STATE ≠ 0 → Safety.answered s (.setThermalPolicy c) (Safety.cpl c stSequence 0 0 []) ∧
        Safety.answered s (.setSteepleRole c) (Safety.cpl c stSequence 0 0 [])) ∧
      (s.rd Reg.FIT_STATUS_STATE = 0 →
        (∃ u : State, u = (Safety.begun s c).fitSelf c.agent [(Reg.STP_CFG, putBits (s.reg Reg.STP_CFG) 0 2 (dwBits d 0 2))] ∧
          exec (.setSteepleRole c) s = .next (if u.rd Reg.FIT_STATUS_RESULT = 2 then u.fail c stInvalidField else u.succeed c)) ∧
        ∃ (u : State) (a b g p : Word), u = (Safety.begun s c).fitSelf c.agent [(Reg.THM_WARN_C, a), (Reg.THM_ENFORCE_C, b), (Reg.THM_GRACE, g), (Reg.THM_POLICY, p)] ∧
          bitsOf g 0 16 = dwBits c.cdw12 0 16 ∧ bitsOf p 0 1 = dwBits d 16 1 ∧
          exec (.setThermalPolicy c) s = .next (if u.rd Reg.FIT_STATUS_RESULT = 2 then u.fail c stInvalidField else u.succeed c)) ∧
      (s.blobOk c.data = false → Safety.answered s (.setMantleState c) (Safety.cpl c (stVendor 0xB1 true) 0 0 [])) ∧
      (s.blobOk c.data = true → s.learnState = 2 → Safety.answered s (.setMantleState c) (Safety.cpl c stSequence 0 0 [])) ∧
      (s.blobOk c.data = true → s.learnState = 0 → s.lossReported = false →
        stored (.setMantleState c) (classBits (s.blobStrings c.data)) fun t => t.rd Reg.MNT_STATUS_RESTORED = 1 ∧
          ∀ j ∈ s.blobStrings c.data, (t.str j).q = max (s.capRated j / 2) (min (s.capRated j * 6 / 5) (leAt c.data (0x100 + 0x200 * j + 16) 4))))

/-- Get Log Page of a page with no per-namespace form refuses another NSID, and an identifier of no page is Invalid Log
Page. The pages are given from their bodies: 256 entries of the error log of the controller, SMART / Health from the
counters and the last sensor result, both firmware slots, the namespaces changed (forgotten once read), the commands
supported, the Sanitize Status (65,535 where none is in progress), the four structures of the lifetime log, the three
clamp reports, the stripe health and the Mantle and thermal status under a GENERATION, the take directory and the
stream slots. Events of the page are no longer withheld unless they are to be retained. The values the chapters leave
open (controller busy time, unsafe shutdowns, the temperature before the first result, GENERATION) are free. -/
def Obligations.LogPagesGiveTheirBodies : Prop :=
  ∀ (c : Sqe) (s : State), Safety.runs s c .always →
    let whole : List Instr := [.getLogErrorInformation c, .getLogSmartHealth c, .getLogFirmwareSlot c, .getLogCommandsEffects c, .getLogMantleThermal c]
    let body (o : Option ClampReport) : List Byte := match o with | some x => x.bytes | none => List.replicate 32832 0
    (c.wholeDevice = false → ∀ i ∈ whole, ∃ t, exec i s = .next t ∧ t.nvme.cpls = s.nvme.cpls ++ [Safety.cpl c stInvalidField 0 0 []]) ∧
    (logPages.contains (dwBits c.cdw10 0 8) = false → Safety.answered s (.getLogSupportedPages c) (Safety.cpl c stInvalidLogPage 0 0 [])) ∧
    (c.wholeDevice = true →
      (logPages.contains (dwBits c.cdw10 0 8) = true → Safety.page s (.getLogSupportedPages c) c 0
        ((List.range 256).flatMap fun p => leBytes 4 (bit (logPages.contains p)))) ∧
      Safety.page s (.getLogErrorInformation c) c 1 (padTo 16384 ((s.ctrl c.ctrl.val).errLog.flatMap ErrEntry.bytes)) ∧
      (∃ busy unsafeShutdowns temp, Safety.page s (.getLogSmartHealth c) c 2 (s.smartBody busy unsafeShutdowns temp)) ∧
      Safety.page s (.getLogFirmwareSlot c) c 3 s.fwSlotBody ∧
      (∃ b, Safety.page s (.getLogChangedNamespaces c) c 4 b ∧
        ((s.ctrl c.ctrl.val).changedNs.length ≤ 1024 → b = padTo 4096 ((sortByKey id (s.ctrl c.ctrl.val).changedNs).flatMap (leBytes 4)))) ∧
      (c.rae = false → ∃ t, exec (.getLogChangedNamespaces c) s = .next t ∧ (t.ctrl c.ctrl.val).changedNs = []) ∧
      Safety.page s (.getLogCommandsEffects c) c 5 effectsBody ∧
      (s.nvme.sanitize.action = 0 → c.logOffset = 0 → 2 ≤ c.logBytes → ∃ u b, exec (.getLogSanitizeStatus c) s = .next (State.settleDma u) ∧
        u.nvme.cpls = s.nvme.cpls ++ [Safety.cpl c stOk 0 0 b] ∧ leAt b 0 2 = 65535) ∧
      (c.lsf = 0 → Safety.page s (.getLogLifetimeHistograms c) c 0xC0 s.countersBody) ∧
      (c.lsf = 1 → Safety.page s (.getLogLifetimeHistograms c) c 0xC0 s.histBody) ∧
      (c.lsf = 2 → Safety.page s (.getLogLifetimeHistograms c) c 0xC0 s.eventsBody) ∧
      (c.lsf = 3 → Safety.page s (.getLogLifetimeHistograms c) c 0xC0 s.tripsBody) ∧
      (c.lsf = 0 → Safety.page s (.getLogClampReport c) c 0xC1 (body s.image.newest)) ∧
      (c.lsf = 1 → Safety.page s (.getLogClampReport c) c 0xC1 (body s.image.lastLoad)) ∧
      (c.lsf = 2 → Safety.page s (.getLogClampReport c) c 0xC1 (body s.image.lastCommit)) ∧
      (c.lsf = 0 → ∃ g, Safety.page s (.getLogStripeHealth c) c 0xC2 (leBytes 4 g ++ (s.summaryBody 0xFFFFFFFF).drop 4)) ∧
      (∃ g, Safety.page s (.getLogMantleThermal c) c 0xC3 (leBytes 4 g ++ s.statusBody)) ∧
      (c.lsf = 0 → Safety.page s (.getLogTakeDirectory c) c 0xC4 (s.dirHeader ++ (sortByKey (fun (x : Take) => x.num) s.takes.dir).flatMap Take.entry)) ∧
      (c.lsf = 1 → Safety.page s (.getLogTakeDirectory c) c 0xC4 (s.dirHeader ++ (List.range 16).flatMap s.slotEntry))) ∧
    (c.lsf = 0 → c.wholeDevice = false → c.nsid ≤ 256 → ∃ g, Safety.page s (.getLogStripeHealth c) c 0xC2 (leBytes 4 g ++ (s.summaryBody c.nsid).drop 4)) ∧
    (3 < c.lsf → ∀ i ∈ [.getLogLifetimeHistograms c, .getLogClampReport c, .getLogStripeHealth c, .getLogTakeDirectory c],
      Safety.answered s i (Safety.cpl c stInvalidField 0 0 []))

/-- While the Belfry runs outside recovery mode, every NVMe-MI command on the management port is answered with one
response message: the data structure, the health polls, the configuration and the VPD read give their data,
Configuration Set stores the frequency or the transmission unit it may, VPD Write is an invalid opcode, Shutdown
begins the shutdown of every controller, and Reset is answered and then resets the NVM subsystem. A tunnelled admin
command wakes a low power state and runs as that admin command over the management port; with the main domain down it
is an internal error, for a controller that does not exist an invalid parameter, and for another opcode an invalid
opcode. While the endpoint does not answer nothing happens. In-band, NVMe-MI Send keeps the response that NVMe-MI
Receive returns; while the Belfry is halted neither completes. -/
def Obligations.ManagementEndpointAnswers : Prop :=
  (∀ (a b : Word) (d : List Byte) (c : Sqe) (op : Fin 256) (s : State), s.miAnswers = false →
    ∀ i ∈ [.miReadDataStructure a b, .miSubsystemHealthPoll a b, .miControllerHealthPoll a b, .miConfigurationSet a b, .miConfigurationGet a b, .miVpdRead a b,
      .miVpdWrite a b d, .miReset a b, .miShutdown a b, .miAdminCommand op c], exec i s = .next s) ∧
  (∀ (a b : Word) (d : List Byte) (s : State), s.miAnswers = true →
    let said (i : Instr) (u : State) (r : MiAns) : Prop := exec i s = .next (u.miMessage 1 r.bytes)
    said (.miReadDataStructure a b) s.noteMgmt (s.miReadStructure a) ∧
    said (.miSubsystemHealthPoll a b) s.noteMgmt s.miSubsystemPoll ∧
    (∃ w u, said (.miControllerHealthPoll a b) u (s.miControllerPoll a w) ∧ u = { s.noteMgmt with fresh := s.fresh + 1 }) ∧
    (bitsOf a 0 8 = 1 → bitsOf a 8 4 = 2 → said (.miConfigurationSet a b) { s.noteMgmt with nvme := { s.nvme with miFreq := 400 } } (miOk 0 [])) ∧
    (bitsOf a 0 8 = 3 → 64 ≤ bitsOf b 0 16 → bitsOf b 0 16 ≤ 250 →
      said (.miConfigurationSet a b) { s.noteMgmt with nvme := { s.nvme with miUnit := bitsOf b 0 16 } } (miOk 0 [])) ∧
    (bitsOf a 0 8 = 3 → bitsOf b 0 16 < 64 ∨ 250 < bitsOf b 0 16 → said (.miConfigurationSet a b) s.noteMgmt miBadParam) ∧
    (bitsOf a 0 8 = 3 → said (.miConfigurationGet a b) s.noteMgmt (miOk s.nvme.miUnit [])) ∧
    (bitsOf a 0 16 + bitsOf b 0 16 ≤ 256 → said (.miVpdRead a b) s.noteMgmt (miOk 0 (slice s.vpd (bitsOf a 0 16) (bitsOf b 0 16)))) ∧
    (256 < bitsOf a 0 16 + bitsOf b 0 16 → said (.miVpdRead a b) s.noteMgmt miBadParam) ∧
    said (.miVpdWrite a b d) s.noteMgmt miBadOpcode ∧
    said (.miShutdown a b) s.noteMgmt.miShutdown (miOk 0 []) ∧
    exec (.miReset a b) s = .next (s.noteMgmt.miMessage 1 (miOk 0 []).bytes).nssr ∧
    ∃ (t : State) (m : List Byte), exec (.miVpdWrite a b d) s = .next t ∧ t.nvme.miReplies = s.nvme.miReplies ++ [mctpPackets s.nvme.miUnit m] ∧
      leAt m 0 1 = 0x84 ∧ leAt m 4 1 = 3 ∧ leAt m (m.length - 4) 4 = crc32c (m.take (m.length - 4))) ∧
  (∀ (op : Fin 256) (c : Sqe) (s : State), s.miAnswers = true →
    let v := s.noteMgmt.wake 4
    let r := { c with mi := true }
    (s.mainUp = false → exec (.miAdminCommand op c) s = .next (v.miMessage 2 (MiAns.bytes ⟨2, 0, []⟩))) ∧
    (s.mainUp = true → s.hasCtrl c.ctrl.val = false → exec (.miAdminCommand op c) s = .next (v.miMessage 2 miBadParam.bytes)) ∧
    (s.mainUp = true → s.hasCtrl c.ctrl.val = true →
      (op.val = 0x06 → exec (.miAdminCommand op c) s = exec (.identify r) v) ∧ (op.val = 0x0A → exec (.miAdminCommand op c) s = exec (.getFeatures r) v) ∧
      (op.val = 0x11 → exec (.miAdminCommand op c) s = exec (.firmwareImageDownload r) v) ∧ (op.val = 0xCE → exec (.miAdminCommand op c) s = exec (.fittingReport r) v) ∧
      (op.val = 0x02 → dwBits c.cdw10 0 8 = 0x02 → exec (.miAdminCommand op c) s = exec (.getLogSmartHealth r) v) ∧
      (op.val ∉ [0x02, 0x06, 0x09, 0x0A, 0x0D, 0x10, 0x11, 0x84, 0xC9, 0xCD, 0xCE] → exec (.miAdminCommand op c) s = exec (.invalidCommandOpcode r) v))) ∧
  ∀ (c : Sqe) (s : State), c.mi = false → Safety.runs s c .service →
    (s.belfryRuns = false → exec (.nvmeMiSend c) s = .next (Safety.begun s c) ∧ exec (.nvmeMiReceive c) s = .next (Safety.begun s c)) ∧
    (s.belfryRuns = true →
      (dwBits c.cdw11 0 8 = 1 → ∃ t, exec (.nvmeMiSend c) s = .next t ∧ (t.ctrl c.ctrl.val).miResponse = s.miSubsystemPoll.bytes ∧
        t.nvme.cpls = s.nvme.cpls ++ [Safety.cpl c stOk (s.miSubsystemPoll.status + 256 * s.miSubsystemPoll.resp) 0 []] ∧ Safety.onlyNvme s t) ∧
      Safety.answered s (.nvmeMiReceive c) (Safety.cpl c stOk (leAt (s.ctrl c.ctrl.val).miResponse 0 1 + 256 * leAt (s.ctrl c.ctrl.val).miResponse 1 3) 0
        (s.ctrl c.ctrl.val).miResponse))

/-- Firmware Image Download adds its portion to the buffer of its controller. A Firmware Commit is a sequence error while
one is in progress, an invalid image where the package is not good, an invalid slot where the slot may not take it;
else it is in progress, with the kinds it writes, until the Belfry has done it. A reserved action is an invalid field.
In recovery mode RCV_STATUS answers, RCV_WRITE stores 1 to 1,024 bytes, RCV_COMMIT answers 7 for a package that is not
good, and RCV_BOOT starts again at phase IMAGE; outside recovery mode they do nothing. Microcode Patch that is too
long, not good, for no Sleeve, or against another patch or a sanitize in progress is refused and changes nothing; else
the Sleeves named are to cross over. -/
def Obligations.FirmwareUpdateCommands : Prop :=
  (∀ (c : Sqe) (s : State), Safety.runs s c .plain →
    let buf := assembled (s.ctrl c.ctrl.val).download
    let ca := dwBits c.cdw10 3 3
    (∃ t, exec (.firmwareImageDownload c) s = .next t ∧ (t.ctrl c.ctrl.val).download = (s.ctrl c.ctrl.val).download ++
        [(4 * c.cdw11.toNat, padTo (4 * (c.cdw10.toNat + 1)) (c.data.take (4 * (c.cdw10.toNat + 1))))] ∧
      t.nvme.cpls = s.nvme.cpls ++ [Safety.cpl c stOk 0 0 []] ∧ Safety.onlyNvme s t) ∧
    (3 ≤ ca → Safety.answered s (.firmwareCommitReplace c) (Safety.cpl c stInvalidField 0 0 [])) ∧
    ∀ i, (ca = 0 ∧ i = Instr.firmwareCommitReplace c) ∨ ((ca = 1 ∨ ca = 2) ∧ i = Instr.firmwareCommitActivate c) →
      (s.boot.commit.isSome = true → Safety.answered s i (Safety.cpl c stSequence 0 0 [])) ∧
      (s.boot.commit = none →
        (s.acceptPkg buf = none → Safety.answered s i (Safety.cpl c stInvalidImage 0 0 [])) ∧
        (∀ p, s.acceptPkg buf = some p →
          (s.commitSlotOk p (dwBits c.cdw10 0 3) = false → Safety.answered s i (Safety.cpl c stInvalidSlot 0 0 [])) ∧
          (s.commitSlotOk p (dwBits c.cdw10 0 3) = true → ∃ t, exec i s = .next t ∧ t.nvme.cpls = s.nvme.cpls ∧
            t.boot = { s.boot with commit := some ⟨c, ca != 0, buf, p.comps.map fun x => x.kind⟩ })))) ∧
  (∀ (off len : Nat) (d : List Byte) (s : State), s.belfryRuns = false ∨ s.recoveryMode = false →
    ∀ i ∈ [.rcvStatus, .rcvWrite off d, .rcvCommit len, .rcvBoot], exec i s = .next s) ∧
  (∀ (off len : Nat) (d : List Byte) (s : State), s.belfryRuns = true → s.recoveryMode = true →
    (∃ t b, exec .rcvStatus s = .next t ∧ t.port.sent = s.port.sent ++ [s.ianaHead ++ leBytes 1 1 ++ b] ∧ leAt b 0 1 = s.phase % 256 ∧
      leAt b 4 1 = s.rd Reg.BEL_BOOT_STATUS_ERROR % 256 ∧ t = { s with port := t.port }) ∧
    (1 ≤ d.length → d.length ≤ 1024 → ∃ t, exec (.rcvWrite off d) s = .next t ∧ t.port.sent = s.port.sent ++ [s.ianaHead ++ leBytes 1 2 ++ [0]] ∧
      (∀ a, mapGet (fun _ => 0) t.boot.recoveryBuf a = if off ≤ a ∧ a < off + d.length then d.getD (a - off) 0 else mapGet (fun _ => 0) s.boot.recoveryBuf a)) ∧
    (d = [] ∨ 1024 < d.length → ∃ t, exec (.rcvWrite off d) s = .next t ∧ t.port.sent = s.port.sent ++ [s.ianaHead ++ leBytes 1 2 ++ [2]] ∧
      t.boot = s.boot) ∧
    (s.acceptPkg ((List.range len).map fun i => mapGet (fun _ => (0 : Byte)) s.boot.recoveryBuf i) = none →
      ∃ t, exec (.rcvCommit len) s = .next t ∧ t.port.sent = s.port.sent ++ [s.ianaHead ++ leBytes 1 3 ++ leBytes 1 7] ∧ t.boot.slots = s.boot.slots) ∧
    (∃ t, exec .rcvBoot s = .next t ∧ t.phase = 2 ∧ t.boot.bootSel = 0 ∧ t.port.sent = s.port.sent ++ [s.ianaHead ++ leBytes 1 4 ++ [0]])) ∧
  ∀ (c : Sqe) (s : State), Safety.runs s c .patch →
    let named := (List.range 64).filter (c.cdw12.toNat + 2 ^ 32 * c.cdw13.toNat).testBit
    (524288 < c.cdw10.toNat → Safety.settled s (.microcodePatch c) (Safety.cpl c stInvalidField 0 0 [])) ∧
    (c.cdw10.toNat ≤ 524288 →
      (s.patchOf c = none → Safety.settled s (.microcodePatch c) (Safety.cpl c stInvalidImage 0 0 [])) ∧
      (∀ m body, s.patchOf c = some (m, body) →
        (named = [] → Safety.settled s (.microcodePatch c) (Safety.cpl c stInvalidField 0 0 [])) ∧
        (named ≠ [] → s.slv.patch.isSome = true ∨ s.nvme.sanitize.action ≠ 0 → Safety.settled s (.microcodePatch c) (Safety.cpl c stSequence 0 0 [])) ∧
        (named ≠ [] → s.slv.patch = none → s.nvme.sanitize.action = 0 →
          ((∃ i ∈ named, s.rd (Reg.SLV_STATUS_BYPASSED i) = 0 ∧ s.patchBad i m = true) →
            Safety.settled s (.microcodePatch c) (Safety.cpl c stInvalidImage 0 0 [])) ∧
          ((∀ i ∈ named, s.rd (Reg.SLV_STATUS_BYPASSED i) = 0 → s.patchBad i m = false) →
            ∃ u, exec (.microcodePatch c) s = .next (State.settleDma (State.patchGo u)) ∧ u.slv.patch = some ⟨c, Config.sha384 body, m, named, 0⟩ ∧
              (∀ j, u.sleeve j = s.sleeve j) ∧ u.nvme.cpls = s.nvme.cpls))))

/-- A Fitting whose count of entries does not suit its operation is an invalid field; one the state, the owner or the
expected identifier does not allow is a sequence error; one with an entry that names no RWF register is an invalid
field with the number of the entry in dword 0. In each case nothing else happens and dword 1 is FIT_ID. Else the
operation is carried out and dword 0 is FIT_STATUS: Begin leaves an OPEN fitting of its agent under a new identifier;
Stage, Commit, Abort and the three in one do what a register write of the agent does. A reserved operation is an
invalid field. Fitting Report returns its header and the staged entries of its own agent. -/
def Obligations.FittingCommandsRunTheFitting : Prop :=
  ∀ (c : Sqe) (s : State),
    let b := Safety.begun s c
    let bad (i : Instr) (st : Status) (dw0 : Nat) : Prop := Safety.answered s i (Safety.cpl c st dw0 (s.rd Reg.FIT_ID_ID) [])
    let done (i : Instr) (u : State) : Prop := exec i s = .next (u.complete c stOk (u.reg Reg.FIT_STATUS).toNat (u.rd Reg.FIT_ID_ID) [])
    (Safety.runs s c .vendor →
      (∀ (op : Nat) (i : Instr), (op, i) ∈ [(1, Instr.fittingBegin c), (2, .fittingCommit c), (3, .fittingAbort c), (4, .fittingBeginStageCommit c)] ∨
          (op = 0 ∧ dwBits c.cdw12 0 4 = 0 ∧ i = .fittingStage c) →
        (c.fitCountBad op = true → bad i stInvalidField 0) ∧
        (c.fitCountBad op = false → s.fitRefused c op = true → bad i stSequence 0) ∧
        (∀ n, c.fitCountBad op = false → s.fitRefused c op = false → badEntry c.fitEntries = some n → bad i stInvalidField n)) ∧
      (4 < dwBits c.cdw12 0 4 → bad (.fittingStage c) stInvalidField 0) ∧
      (c.cdw10 = 0 → s.rd Reg.FIT_STATUS_STATE = 0 → ∃ t, exec (.fittingBegin c) s = .next t ∧ t.rd Reg.FIT_STATUS_STATE = 1 ∧
        t.rd Reg.FIT_STATUS_OWNER = c.agent % 16 ∧ t.rd Reg.FIT_ID_ID = (s.rd Reg.FIT_ID_ID + 1) % 2 ^ 32 ∧ t.fit.staged = [] ∧
        t.nvme.cpls = s.nvme.cpls ++ [Safety.cpl c stOk (t.reg Reg.FIT_STATUS).toNat (t.rd Reg.FIT_ID_ID) []]) ∧
      (c.cdw10 = 0 → s.fitOwns c.agent = true → s.rd Reg.FIT_ID_ID = c.cdw13.toNat →
        done (.fittingCommit c) (b.commit c.agent) ∧ done (.fittingAbort c) ((b.fitEnd 3).raise 1795)) ∧
      (c.fitCountBad 0 = false → dwBits c.cdw12 0 4 = 0 → s.fitOwns c.agent = true → s.rd Reg.FIT_ID_ID = c.cdw13.toNat → badEntry c.fitEntries = none →
        done (.fittingStage c) (b.fitStageAll c.agent c.fitEntries) ∧
        (s.fit.staged = [] → ∃ t, exec (.fittingStage c) s = .next t ∧ ∀ off, (t.fit.staged.any fun e => e.1 == off) = c.fitEntries.any fun e => e.1 == off)) ∧
      (c.fitCountBad 4 = false → s.rd Reg.FIT_STATUS_STATE = 0 → badEntry c.fitEntries = none →
        done (.fittingBeginStageCommit c) (((b.fitBegin c.agent).fitStageAll c.agent c.fitEntries).commit c.agent))) ∧
    (s.acts c = true → s.nvme.sanitize.action ≠ 0 → bad (.fittingCommit c) stSanitizing 0) ∧
    (Safety.runs s c .plain →
      (8208 < c.cdw10.toNat → Safety.answered s (.fittingReport c) (Safety.cpl c stInvalidField 0 0 [])) ∧
      (c.cdw10.toNat ≤ 8208 → ∃ d, Safety.answered s (.fittingReport c) (Safety.cpl c stOk 0 0 d) ∧ d.length = 4 * c.cdw10.toNat ∧
        (2 ≤ c.cdw10.toNat → leAt d 0 4 = (s.reg Reg.FIT_STATUS).toNat ∧ leAt d 4 4 = s.rd Reg.FIT_ID_ID)))

/-- A Key Load that R587 refuses completes with its status, changes no slot but raises source 1,650 for it. One accepted
of a slot no namespace names makes the slot UPDATING and counts KL_COUNT; it completes when its record is durable. A
KEY_RECORD_DURABLE of a slot with no change in progress and none due changes nothing but the queue's progress. A
failed health-test window sets ENTROPY_FAULT, counts and raises 1,651; 1,024 windows passed in a row clear the fault;
a reseed counts while there is no fault. -/
def Obligations.KeyLoadAndEntropy : Prop :=
  (∀ (c : Sqe) (s : State) (i : Instr), Safety.runs s c .vendor → i ∈ [.keyLoadLoad c, .keyLoadGenerate c, .keyLoadClear c] →
    (∀ st, s.klRefused c = some st → ∃ u v : State, exec i s = .next (State.settleDma (v.fail c st)) ∧ v = u.slotEvent (klSlot c % 1024) 1650 ∧
      u = (Safety.begun s c).noAbort c ∧ v.cph = s.cph) ∧
    (s.klRefused c = none → s.klReplaces c = false → ∃ u, exec i s = .next (State.settleDma u) ∧ (u.keySlot (klSlot c)).state = 5 ∧
      (u.keySlot (klSlot c)).key = (s.keySlot (klSlot c)).key ∧ (∀ k, k ≠ klSlot c → u.keySlot k = s.keySlot k) ∧
      u.rd Reg.CPH_KL_COUNT_COUNT = (s.rd Reg.CPH_KL_COUNT_COUNT + 1) % 2 ^ 32 ∧ u.nvme.cpls = s.nvme.cpls ∧
      ∃ o, u.cph.ops = s.cph.ops ++ [o] ∧ o.cmd = some c ∧ o.slot = klSlot c ∧ o.clear = (klOp c == 2))) ∧
  ∀ s : State, s.mainUp = true →
    (∀ (k : Fin 1024) (o : KeyOp), s.keyOp k.val = some o → o.slot = k.val → o.clear = false → o.step = 2 → s.oldKeys k.val ((s.keySlot k.val).gen + 1) = true →
      ∃ u, exec (.keyRecordDurable k) s = .next (State.sanStep (State.settleDma u)) ∧ (u.keySlot k.val).key = o.key ∧
        (u.keySlot k.val).salt = o.salt ∧ (u.keySlot k.val).gen = (s.keySlot k.val).gen + 1 ∧ (u.keySlot k.val).state = 1 ∧ (u.keySlot k.val).inv = 0) ∧
    (∃ t, exec .entropyHealthFail s = .next t ∧ t.entropyFault = true ∧ t.evtStatus 1651 = true ∧ t.cph.passWindows = 0 ∧
      t.rd Reg.CPH_ENTROPY_FAILS = min 65535 (s.rd Reg.CPH_ENTROPY_FAILS + 1)) ∧
    (∀ n, s.entropyFault = true → ∃ t, exec (.entropyFaultClear n) s = .next t ∧ t.entropyFault = decide (s.cph.passWindows + n < 1024) ∧
      t.cph.passWindows = s.cph.passWindows + n) ∧
    (∀ n, s.entropyFault = false → exec (.entropyFaultClear n) s = .next s) ∧
    (s.entropyFault = true → exec .maskingReseed s = .next s) ∧
    (s.entropyFault = false → ∃ t, exec .maskingReseed s = .next t ∧ t.rd Reg.CPH_ENTROPY_RESEEDS = (s.rd Reg.CPH_ENTROPY_RESEEDS + 1) % 65536 ∧
      t = { s with regs := t.regs })

/-- Before READY every I/O command completes with Namespace Not Ready, during a sanitize with Sanitize In Progress, in its
failure state with Sanitize Failed, and for a namespace that is not exposed with Invalid Namespace. A Write of the
take namespace is write-protected, one longer than 16 MiB an invalid field, one past the end an LBA error; one that
may run joins the writes, in sectors, and asks for its first chunk. A Flush joins the waits with the stripes that hold
data of completed writes. A Read of sectors that hold nothing returns zeros and a Verify of them nothing; one of a
sector listed as unreadable fails with A0h. Write Zeroes and Dataset Management join the deallocations with their
ranges in sectors. A Shred without its attribute, or of more than 4 GiB, is an invalid field, and before an image or
in RETIRED a sequence error. -/
def Obligations.IoCommandsCheckAndRun : Prop :=
  ∀ (c : Sqe) (s : State), s.acts c = true →
    let quick : List Instr := [.write c, .flush c]
    let slow (f : List (Nat × Fin 3)) (u l : List Nat) : List Instr := [.read c f u l, .verify c f u, .writeZeroes c, .datasetManagement c]
    let both (st : Status) : Prop := (∀ i ∈ quick, Safety.answered s i (Safety.cpl c st 0 0 [])) ∧
      ∀ f u l, ∀ i ∈ slow f u l, Safety.settled s i (Safety.cpl c st 0 0 [])
    (s.phase < 0xB → both stNotReady) ∧
    (0xB ≤ s.phase → s.nvme.sanitize.action ≠ 0 → both stSanitizing) ∧
    (0xB ≤ s.phase → s.nvme.sanitize.action = 0 → s.nvme.sanitize.failed = true → both stSanitizeFailed) ∧
    (s.ioGate c = none → c.nsid ≠ 0xFFFFFFFF → s.nsOf c = none → both stInvalidNs) ∧
    (∀ st, s.vendorGate = some st → Safety.settled s (.shred c) (Safety.cpl c stSequence 0 0 [])) ∧
    (s.ioGate c = none → ∀ n, s.nsOf c = some n →
      (n.take = true → Safety.answered s (.write c) (Safety.cpl c stWriteProtected 0 0 []) ∧
        Safety.settled s (.writeZeroes c) (Safety.cpl c stWriteProtected 0 0 []) ∧ Safety.settled s (.datasetManagement c) (Safety.cpl c stWriteProtected 0 0 [])) ∧
      (n.take = false → 16777216 < c.nlb * n.spb * 4096 → Safety.answered s (.write c) (Safety.cpl c stInvalidField 0 0 [])) ∧
      (n.take = false → c.nlb * n.spb * 4096 ≤ 16777216 → n.holds c.slba c.nlb = false → Safety.answered s (.write c) (Safety.cpl c stLbaRange 0 0 [])) ∧
      (s.writeRefused c = none → ∃ (u : State) (w : WCmd), exec (.write c) s = .next (State.writeGo u w) ∧ u.path.writes = s.path.writes ++ [w] ∧ w.id = s.path.nextId ∧
        w.kind = .write ∧ w.src = c.ctrl.val ∧ w.sqe = c ∧ w.lsas = n.sectors c.slba c.nlb ∧ w.fua = c.fua ∧ w.granted = 0 ∧
        u.path.nextId = s.path.nextId + 1 ∧ u.nvme.cpls = s.nvme.cpls) ∧
      (∃ u, exec (.flush c) s = .next (State.settle u) ∧ u.path.waits = s.path.waits ++ [⟨0, c, s.undurable, s.now⟩] ∧ u.nvme.cpls = s.nvme.cpls) ∧
      (n.take = false → c.nlb * n.spb * 4096 ≤ 16777216 → n.holds c.slba c.nlb = true → s.entryHeld n.nsid (n.sectors c.slba c.nlb) = true →
        ∀ f g l, (∃ u, exec (.read c f g l) s = .next (State.settleDma u) ∧ u.nvme.cpls = s.nvme.cpls ∧ u.path.reads.length = s.path.reads.length + 1) ∧
          ∃ u, exec (.verify c f g) s = .next (State.settleDma u) ∧ u.nvme.cpls = s.nvme.cpls ∧ u.path.reads.length = s.path.reads.length + 1) ∧
      (n.take = false → n.piBytes = 0 → c.nlb * n.spb * 4096 ≤ 16777216 → n.holds c.slba c.nlb = true → s.entryHeld n.nsid (n.sectors c.slba c.nlb) = false →
        s.readMay (4096 * (c.nlb * n.spb)) = true →
        (∀ l ∈ n.sectors c.slba c.nlb, s.locate n.nsid l = none ∧ s.ftl.unreadable.contains (n.nsid, l) = false ∧ s.ftl.disagree.contains (n.nsid, l) = false) →
        ∀ f g l, (∃ u, exec (.read c f g l) s = .next (State.settleDma u) ∧
            u.nvme.cpls = s.nvme.cpls ++ [Safety.cpl c stOk 0 0 (List.replicate (4096 * (c.nlb * n.spb)) 0)]) ∧
          ∃ u, exec (.verify c f g) s = .next (State.settleDma u) ∧ u.nvme.cpls = s.nvme.cpls ++ [Safety.cpl c stOk 0 0 []]) ∧
      (n.take = false → n.spb = 1 → c.nlb = 1 → n.holds c.slba 1 = true → s.entryHeld n.nsid [c.slba] = false → s.readMay 4096 = true → s.ftl.unreadable.contains (n.nsid, c.slba) = true →
        ∀ f g l, ∃ u, exec (.read c f g l) s = .next (State.settleDma u) ∧ u.nvme.cpls = s.nvme.cpls ++ [Safety.cpl c (stVendor 0xA0 true) 0 0 []]) ∧
      (n.take = false → n.holds c.slba c.nlb = true → c.nlb ≠ 0 → ∃ u t, exec (.writeZeroes c) s = .next (State.settleDma (State.settle (State.trimGo u t))) ∧
        u.path.trims = s.path.trims ++ [t] ∧ t.kind = 0 ∧ t.sqe = c ∧ t.nsid = c.nsid ∧ t.ranges = [(c.slba * n.spb, c.nlb * n.spb)] ∧ t.wt = s.degraded ∧
        u.nvme.cpls = s.nvme.cpls) ∧
      (n.take = false → c.cdw11.getLsbD 2 = true → ((rangeList c.data (bitsOf c.cdw10 0 8 + 1)).all fun r => n.holds r.1 r.2) = true →
        ∃ u t, exec (.datasetManagement c) s = .next (State.settleDma (State.settle (State.trimGo u t))) ∧ u.path.trims = s.path.trims ++ [t] ∧ t.kind = 1 ∧
        t.ranges = ((rangeList c.data (bitsOf c.cdw10 0 8 + 1)).filter fun r => r.2 != 0).map (fun r => (r.1 * n.spb, r.2 * n.spb))) ∧
      (s.vendorGate = none → n.take = false → c.cdw11.getLsbD 2 = false → Safety.settled s (.shred c) (Safety.cpl c stInvalidField 0 0 [])) ∧
      (s.vendorGate = none → n.take = false → c.cdw11.getLsbD 2 = true →
        ((rangeList c.data (bitsOf c.cdw10 0 8 + 1)).map fun r => r.2).sum * n.spb * 4096 ≤ 4294967296 →
        ((rangeList c.data (bitsOf c.cdw10 0 8 + 1)).all fun r => n.holds r.1 r.2) = true →
        ∃ u t, exec (.shred c) s = .next (State.settleDma (State.settle (State.trimGo u t))) ∧ u.path.trims = s.path.trims ++ [t] ∧ t.kind = 2 ∧ t.sqe = c))

/-- CHUNK_GRANT with the gate open takes the request next in order: what fits the limit and the tokens is granted and
counts into occupancy, what does not fit is counted as a refusal and closes the gate with occupancy unchanged, what
only lacks tokens waits. A BULK request that has waited 20 ms becomes REALTIME and nothing else changes. GOVERNOR_TICK
shows the least term as the candidate, the least of the newest 101 candidates as the limit, and the gap that follows.
DEGRADED_EXIT clears DEGRADED once the energy term has been high for 1 s and raises 1,724, and not sooner. -/
def Obligations.GateGrantsAndGovernorLimits : Prop :=
  ∀ s : State, s.mainUp = true →
    (∀ (r : ChunkReq) (w : WCmd), s.gateClosed = false → s.nvme.fetchStopped = false → s.win.limitReady = true → nextReq s.win.waiting = some r →
      s.wcmd r.cmd = some w →
      (s.win.occ + r.bytes ≤ s.limitMib * mib → s.rd Reg.STR_ADM_METER_MBPS = 0 ∨ r.bytes ≤ s.tokensNow → w.id = r.cmd →
        ∃ t, exec .chunkGrant s = .next t ∧ t.win.occ = s.win.occ + r.bytes ∧ t.gateClosed = false ∧
          (∃ x, t.wcmd r.cmd = some x ∧ x.granted = w.granted + r.bytes ∧ x.lsas = w.lsas) ∧ t.ftl = s.ftl ∧ t.nvme = s.nvme) ∧
      (s.limitMib * mib < s.win.occ + r.bytes →
        ∃ t, exec .chunkGrant s = .next t ∧ t.win.occ = s.win.occ ∧ t.gateClosed = true ∧ t.win.refused = true ∧ t.win.waiting = s.win.waiting ∧
          t.path = s.path ∧ t.evtStatus 1720 = true) ∧
      (s.win.occ + r.bytes ≤ s.limitMib * mib → s.rd Reg.STR_ADM_METER_MBPS ≠ 0 → s.tokensNow < r.bytes → exec .chunkGrant s = .next s)) ∧
    (s.gateClosed = true → exec .chunkGrant s = .next s) ∧
    (∃ t, exec .bulkPromotion s = .next t ∧ t = { s with win := { s.win with waiting := t.win.waiting } } ∧ t.win.waiting.length = s.win.waiting.length ∧
      ∀ (i : Nat) (r : ChunkReq), s.win.waiting[i]? = some r →
        t.win.waiting[i]? = some { r with realtime := r.realtime || decide (r.since + 20000000 ≤ s.now) }) ∧
    ((s.rd Reg.FIT_PENDING_CLASS).testBit 0 = false → ∃ t, exec .governorTick s = .next t ∧
      t.rd Reg.STR_DW_CAND_MIB = minOf s.terms % 2 ^ 32 ∧ t.rd Reg.STR_DW_LIMIT_MIB = limitOf (minOf s.terms :: s.win.cands) % 2 ^ 32 ∧
      t.rd Reg.STR_DW_GAP_MIB = max 64 (limitOf (minOf s.terms :: s.win.cands) / 16) % 2 ^ 32 ∧ t.win.limitReady = true ∧ t.win.occ = s.win.occ ∧
      t.win.cands = (minOf s.terms :: s.win.cands).take 101 ∧ t.path = s.path ∧ t.ftl = s.ftl ∧
      (s.energyTerm < 256 → t.degraded = true) ∧ (256 ≤ s.energyTerm → t.degraded = s.degraded) ∧
      (limitOf (minOf s.terms :: s.win.cands) < s.limitMib → limitOf (minOf s.terms :: s.win.cands) * mib < s.win.occ →
        limitOf (minOf s.terms :: s.win.cands) < 2 ^ 32 → t.gateClosed = true)) ∧
    (∀ since, s.win.clearSince = some since →
      (s.degraded = true → since + 1000000000 ≤ s.now → ∃ t, exec .degradedExit s = .next t ∧ t.degraded = false ∧ t.rd Reg.MNT_STATUS_DEGRADED = 0 ∧
        t.evtStatus 1724 = true) ∧
      (s.now < since + 1000000000 → exec .degradedExit s = .next s))

/-- Data of a logical block of a Write is kept for its sectors and counts as fetched; in error the write fails with Data
Transfer Error. A lane in service encrypts the next sector under the next SEQ and counts the invocation; a lane whose
check fails is FAULTED, or back in service where it then passes its test, and the sector stays; a lane out of service
takes nothing. A staging copy accepted counts for its command. A stripe awaited for 200 µs is closed and no other is.
A journal page 1 ms old is written with its entries and the next number. Commands of the flash translation with
nothing to do do nothing; with something they move the sector chosen. An audited stripe that disagrees counts each
mismatch and raises 1,704. While a flush is in charge links are not classified. A read that is 5 ms late and hedged
first is complete for that sector. -/
def Obligations.PathEventsMoveTheWrite : Prop :=
  ∀ s : State, s.mainUp = true →
    (∀ (cmd block : Nat) (data pi : List Byte) (w : WCmd) (n : Ns), s.wcmd cmd = some w → w.id = cmd → w.kind = .write → s.ns w.nsid = some n → w.ended = false →
      block * n.spb + n.spb ≤ w.lsas.length → (block + 1) * (4096 * n.spb) ≤ w.granted → w.places.length ≤ block * n.spb →
      mapGet (fun _ => none) w.arrived (block * n.spb) = none → s.ingressRoom w.src (4096 * n.spb) = true →
      (n.piBytes = 0 → ∃ u, exec (.hostDataArrival cmd block data pi 0) s = .next (State.settleDma u) ∧
        (∃ x, u.wcmd cmd = some x ∧ x.fetched = w.fetched + 4096 * n.spb ∧
          ∀ k, k < n.spb → (mapGet (fun _ => none) x.arrived (block * n.spb + k)).map (fun e => e.1) = some (slice data (4096 * k) 4096)) ∧
        u = { s with path := u.path, win := u.win }) ∧
      (∀ r : Fin 3, r.val ≠ 0 → ∃ u, exec (.hostDataArrival cmd block data pi r) s = .next (State.settleDma (State.failWrite u w stDataTransfer)) ∧
        u.evtStatus (1536 + 4 * w.src + r.val) = true ∧ u.path = s.path)) ∧
    (∀ (lane : Fin 16) (cmd pick : Nat) (fault : Option Bool) (w : WCmd) (n : Ns) (payload pi : List Byte), s.wcmd cmd = some w → w.id = cmd →
      (s.path.stuck.find? fun x => x.1 == lane.val) = none → s.ns w.nsid = some n → mapGet (fun _ => none) w.arrived w.places.length = some (payload, pi) →
      (s.laneOk lane.val = false → exec (.sectorEncrypted lane cmd pick fault) s = .next s.settleDma) ∧
      (s.laneOk lane.val = true → w.ended = false → 4096 * (w.places.length + 1) ≤ w.granted → (s.path.stuck.any fun x => x.2.1 == w.id) = false →
        w.waitsCheck n = false → w.reservedInv = true →
        (∀ pass, fault = some pass → ∃ u, exec (.sectorEncrypted lane cmd pick fault) s = .next (State.settleDma u) ∧ u.laneOk lane.val = pass ∧
          u.path = s.path ∧ u.ftl = s.ftl) ∧
        (fault = none → payload.length = 4096 → pi.length = 16 → s.encryptReady n.keySlot false = true → s.ftl.seqNext + 2 ^ 31 + 1 < s.ftl.seqCeil →
          ∃ (u : State) (p : Placed), exec (.sectorEncrypted lane cmd pick fault) s = .next (State.settleDma (match State.placeSector u w pick p with
              | some v => v
              | none => State.modPath u fun x => { x with stuck := x.stuck ++ [(lane.val, w.id, p)] })) ∧
            p.sec.seq = s.ftl.seqNext ∧ p.sec.payload = payload ∧ p.sec.pi = pi ∧ p.sec.lsa = w.lsas.getD w.places.length 0 ∧ p.sec.nsid = w.nsid ∧ p.sec.slot = n.keySlot ∧
            u.ftl.seqNext = s.ftl.seqNext + 1 ∧ (u.keySlot n.keySlot).inv = (s.keySlot n.keySlot).inv + 1))) ∧
    (∀ cmd, s.wcmd cmd = none → exec (.stagingCopyAccepted cmd) s = .next s) ∧
    (∀ (cmd a : Nat) (w : WCmd), s.wcmd cmd = some w → w.id = cmd → w.places[w.accepted]? = some a → (∃ st, s.stripe (ssaStripe a) = some st ∧ st.state = 2) →
      ∃ u, exec (.stagingCopyAccepted cmd) s = .next (State.settleDma (State.pumpHeld (State.settle u))) ∧
        (∃ x, u.wcmd cmd = some x ∧ x.accepted = w.accepted + 1) ∧ u.ftl.map = s.ftl.map) ∧
    (∀ i, (s.awaited i = false → exec (.stripeCloseTimer i) s = .next s) ∧
      (s.awaited i = true → exec (.stripeCloseTimer i) s = .next (s.closeStripe i 0).settleDma)) ∧
    (s.ftl.page ≠ [] → s.ftl.pageSince + 1000000 ≤ s.now → s.anyLink = true → ∃ (u : State) (j : JPage),
      exec .journalPageTimer s = .next (u.putMeta (.journal j.jseq) j.jseq j.bytes) ∧ u.ftl.jseq = j.jseq ∧ u.ftl.page = [] ∧
        (∀ e ∈ s.ftl.page, e ∈ j.entries) ∧ j ∈ u.ftl.pages) ∧
    (s.now < s.ftl.pageSince + 1000000 ∨ s.ftl.page = [] → exec .journalPageTimer s = .next s) ∧
    ((∀ c ∈ s.ftl.cps, c.durable = true) → exec .checkpointDurable s = .next s.settleDma) ∧
    (∀ c, (s.ftl.cps.find? fun x => !x.durable && s.rootConfirmed x.gen) = some c → s.ftl.shreds = [] →
      ∃ u, exec .checkpointDurable s = .next (State.settleDma u) ∧ u.rd Reg.FTL_CP_GEN_GEN = c.gen % 2 ^ 32 ∧
        { c with durable := true, durableAt := s.now } ∈ u.ftl.cps ∧ u.ftl.cps.length ≤ 2) ∧
    (s.firstFine = none → exec .fineTableWaitProceed s = .next s.settleDma) ∧
    (∀ (i : Nat) (w : WCmd), s.firstFine = some i → s.wcmd i = some w → s.needsOf w ≤ s.fineAvail → ∃ u, exec .fineTableWaitProceed s = .next (State.settleDma u) ∧
      ∀ x, u.wcmd i = some x → x.fineWait = none ∧ x.asked = 1) ∧
    (∀ (work : Fin 5) (lane : Fin 16) (pick : Nat) (failing : List (Nat × Fin 3)) (g : List Nat), work.val ≠ 1 →
      (∀ a, s.gcDecide.foldDecide.nextMove work.val = some a →
        (work.val ≠ 2 → exec (.garbageCollectionRelocate work lane pick failing g) s = .next (s.gcDecide.foldDecide.relocate lane.val pick ⟨failing, g, []⟩ a).settleDma) ∧
        (work.val = 2 → s.gcDecide.foldDecide.rebuildOk 4096 = true → exec (.garbageCollectionRelocate work lane pick failing g) s =
          .next ((s.gcDecide.foldDecide.relocate lane.val pick ⟨failing, g, []⟩ a).rebuildMoved s.gcDecide.foldDecide).settleDma) ∧
        (work.val = 2 → s.gcDecide.foldDecide.rebuildOk 4096 = false → exec (.garbageCollectionRelocate work lane pick failing g) s = .next s.gcDecide.foldDecide.settleDma)) ∧
      (s.gcDecide.foldDecide.nextMove work.val = none →
        exec (.garbageCollectionRelocate work lane pick failing g) s = .next s.gcDecide.foldDecide.freeBandsNow.shredGo.rebuildSettle.settleDma)) ∧
    (s.flushing = true → exec .slowClassifyTick s = .next s.settleDma ∧ ∀ link l, exec (.slowProbe link l) s = .next s) ∧
    (s.flushing = false → (∀ n, n < 512 → s.rd (Reg.STR_LINK_SLOW_HOLD n) = 0) → ∃ u, exec .slowClassifyTick s = .next (State.settleDma u) ∧
      u = { s with ftl := { s.ftl with medians := u.ftl.medians } }) ∧
    (∀ (link : Fin 512) (l : List Nat), s.flushing = false → s.linkState link.val ≠ 2 → exec (.slowProbe link l) s = .next s.settleDma) ∧
    (∀ m f, (s.maint.acts.find? fun a => a.code == 1 && a.running) = none → exec (.auditStripe m f) s = .next s.settleDma) ∧
    (∀ (a : Act) (m : List (Nat × Nat)) (st : Stripe) (b : Band), (s.maint.acts.find? fun a => a.code == 1 && a.running) = some a → s.takesHold = false →
      a.res = wholePass → a.asked = true → (s.auditList.find? fun x => s.ftl.auditNext ≤ x.id) = some st → s.band st.band = some b →
      s.actRuns 7 b.id = false → s.rebuilding = false → s.isExposed st = false → m ≠ [] →
      ∃ u, exec (.auditStripe m []) s = .next (State.settleDma u) ∧ u.ftl.health.mismatches = s.ftl.health.mismatches + m.length ∧ u.evtStatus 1704 = true) ∧
    (∀ (id i : Nat) (win : Bool) (r : RdCmd), (s.path.reads.find? fun x => x.id == id) = some r →
      (r.late.contains i = false ∨ s.now < r.since + 5000000 → exec (.readHedgeTimeout id i win) s = .next s) ∧
      (r.late.contains i = true → r.since + 5000000 ≤ s.now → win = false → ∃ t, exec (.readHedgeTimeout id i win) s = .next t ∧
        t = { s with path := { s.path with reads := t.path.reads } } ∧ ∃ x ∈ t.path.reads, x.id = id ∧ x.hedged = r.hedged ++ [i]))

/-- Each acts once what is due has fired. A Take Open that is refused completes with its status (with no take namespace
89h) and opens nothing; one that is not, adds a take ARMED with the next number, at the device's time, which completes
when its headers and entry are durable. A Take Close of a take that is not open is 80h; Close Now moves the take to
CLOSING with END_REASON 1 and completes when it is CLOSED; Close At Time is refused outside 10 µs to 86,400 s, else
scheduled and completed. A Take Delete of an open take is a sequence error, of one that does not exist 80h; of a
CLOSED take its units are deallocated before it leaves the directory. -/
def Obligations.TakesOpenCloseAndGo : Prop :=
  ∀ (c : Sqe) (s : State),
    let f := s.fireDue
    let num := leAt c.data 0 4
    let r := f.readOpen c.data
    let refused (i : Instr) (st : Status) : Prop := ∃ u, exec i s = .next (State.settleDma u) ∧ Safety.completed f u (Safety.cpl c st 0 0 [])
    Safety.runs f c .vendor →
    (∀ st, f.openRefused c r = some st → refused (.takeOpen c) st) ∧
    (f.takeNs = none → refused (.takeOpen c) (stVendor 0x89 true)) ∧
    (f.openRefused c r = none → r.flags.testBit 0 = false → r.flags.testBit 2 = false → (f.pickUnits (r.ringTotal + r.streams.length)).isSome = true →
      ∃ u, exec (.takeOpen c) s = .next (State.settleDma (State.fullCheck u f.steepleTime)) ∧ u.takes.nextTake = f.takes.nextTake + 1 ∧
        u.takes.dir.length = f.takes.dir.length + 1 ∧ ∃ t ∈ u.takes.dir, t.num = f.takes.nextTake ∧ t.state = 1 ∧ t.openTime = f.steepleTime ∧ t.openCmd = some c ∧
          t.pretrigger = r.pre ∧ t.frameMax = r.frameMax ∧ t.trigSrc = r.trig ∧ t.rigTake = r.rig ∧ t.name = r.name) ∧
    (c.cdw10.toNat ≠ 16 → ∀ i ∈ [.takeCloseNow c, .takeCloseAtTime c, .takeDelete c], refused i stInvalidField) ∧
    (f.closeRefused c = none →
      (f.openTakeOf num = none → refused (.takeCloseNow c) (stVendor 0x80 true) ∧ refused (.takeCloseAtTime c) (stVendor 0x80 true)) ∧
      (f.takeOf num = none → refused (.takeDelete c) (stVendor 0x80 true)) ∧
      (∀ t, f.openTakeOf num = some t → refused (.takeDelete c) stSequence) ∧
      (∀ t, f.openTakeOf num = some t → (byteAt c.data 5).testBit 0 = false → t.state = 1 ∨ t.state = 2 →
        ∃ (u : State) (k : Take), exec (.takeCloseNow c) s = .next (State.settleDma u) ∧ u.takeOf num = some k ∧ k.state = 3 ∧ k.closeTime = f.steepleTime ∧ k.reason = 1 ∧
          k.closeCmds = t.closeCmds ++ [c] ∧ k.note = slice c.data 16 32 ∧ k.sched = []) ∧
      (∀ t, f.openTakeOf num = some t → f.schedTimeOk (leAt c.data 8 8) = false → refused (.takeCloseAtTime c) (stVendor 0x88 true)) ∧
      (∀ t, f.openTakeOf num = some t → f.schedTimeOk (leAt c.data 8 8) = true → (byteAt c.data 5).testBit 0 = false →
        ∃ (u : State) (k : Take), exec (.takeCloseAtTime c) s = .next (State.settleDma u) ∧ u.nvme.cpls = f.nvme.cpls ++ [Safety.cpl c stOk 0 0 []] ∧ u.takeOf num = some k ∧
          k = { t with sched := t.sched ++ [⟨leAt c.data 8 8, 3, 1, false, slice c.data 16 32⟩] }) ∧
      (∀ t, f.takeOf num = some t → t.isOpen = false → ∃ u x, exec (.takeDelete c) s = .next (State.settleDma (State.trimGo u x)) ∧
        u.path.trims = f.path.trims ++ [x] ∧ x.kind = 4 ∧ x.sqe = c ∧ x.ranges = t.clips.flatMap (fun (k : Clip) => k.units.map fun v => (f.geom.lba v, 512)) ∧
        u.takes = f.takes ∧ u.nvme.cpls = f.nvme.cpls))

/-- A Trigger that R272 refuses changes nothing. One with a time is scheduled on the takes it is for, and completes with
their count. A START at once moves an ARMED take on, records itself as the last trigger of source host and drives
TRIG_OUT for 1 µs; a STOP at once closes an ARMED or RECORDING take at the device's time (END_REASON 2, or 9 for one
never triggered); a MARK at once on a RECORDING take puts a mark into its segment. Each completes with the count of
takes it acted on. A scheduled trigger that is due fires and raises 1,765; a close point that is due closes its take.
An edge of TRIG_IN of the other polarity, too short, or within 1 ms of the last does nothing; an accepted edge is a
START of source TRIG_IN for an ARMED take. -/
def Obligations.TriggersActOnTakes : Prop :=
  (∀ (c : Sqe) (s : State),
    let f := s.fireDue
    let time := c.cdw13.toNat + 2 ^ 32 * c.cdw14.toNat
    Safety.runs f c .vendor →
    (∀ i ∈ [.triggerStart c, .triggerStop c, .triggerMark c],
      (∀ st, f.trigRefused c = some st → ∃ u, exec i s = .next (State.settleDma u) ∧ Safety.completed f u (Safety.cpl c st 0 0 [])) ∧
      (f.trigRefused c = none → c.cdw12.getLsbD 3 = false → f.trigTakes c = [] →
        ∃ u, exec i s = .next (State.settleDma u) ∧ Safety.completed f u (Safety.cpl c stOk 0 0 []))) ∧
    (f.trigRefused c = none → c.cdw12.getLsbD 3 = false → c.cdw12.getLsbD 2 = true →
      ∀ (a : Nat) (i : Instr), (a, i) ∈ [(0, Instr.triggerStart c), (1, .triggerStop c), (2, .triggerMark c)] →
      ∃ u, exec i s = .next (State.settleDma u) ∧ u.nvme.cpls = f.nvme.cpls ++ [Safety.cpl c stOk (f.trigTakes c).length 0 []] ∧
        u.takes.dir.length = f.takes.dir.length ∧ ∀ k ∈ f.trigTakes c, { k with sched := k.sched ++ [⟨time, a, 1, false, []⟩] } ∈ u.takes.dir ∨
          2 ≤ (f.takes.dir.filter fun x => x.num == k.num).length) ∧
    (∀ k, f.trigRefused c = none → c.cdw12.getLsbD 3 = false → c.cdw12.getLsbD 2 = false → f.trigTakes c = [k] → f.takeOf k.num = some k → k.joinChain = false →
      (k.state = 1 → ∃ (u : State) (x : Take), exec (.triggerStart c) s = .next (State.settleDma (u.complete c stOk 1 0 [])) ∧ u.takeOf k.num = some x ∧
        x.startTime = f.steepleTime ∧ x.state ≠ 1 ∧ u.rd Reg.TAK_STATUS_TRIG_ACTION = 0 ∧ u.rd Reg.TAK_STATUS_TRIG_SRC = 2 ∧
        u.rd64 Reg.TAK_LAST_TRIG_LO Reg.TAK_LAST_TRIG_HI = f.steepleTime % 2 ^ 64 ∧ u.board.pulses = f.board.pulses ++ [(f.now, f.now + 1000)]) ∧
      (k.state = 1 ∨ k.state = 2 → ∃ (u : State) (x : Take), exec (.triggerStop c) s = .next (State.settleDma (u.complete c stOk 1 0 [])) ∧ u.takeOf k.num = some x ∧ x.state = 3 ∧
        x.closeTime = f.steepleTime ∧ x.reason = (if k.state = 1 then 9 else 2) ∧ u.rd Reg.TAK_STATUS_TRIG_ACTION = 1) ∧
      (∀ cl, k.state = 2 → k.clips = [cl] → cl.events.length < 4096 → ∃ (u : State) (x : Take), exec (.triggerMark c) s = .next (State.settleDma (u.complete c stOk 1 0 [])) ∧
        u.takeOf k.num = some x ∧ x.clips = [{ cl with events := cl.events ++ [⟨1, 2, f.steepleTime, none, 0⟩] }] ∧ u.rd Reg.TAK_STATUS_TRIG_ACTION = 2))) ∧
  ∀ s : State, s.mainUp = true →
    (s.dueList false = [] → exec .scheduledTriggerFire s = .next s.settleDma) ∧
    (∀ p, s.dueList false = [p] → p.2.action ≠ 3 → ∃ u, exec .scheduledTriggerFire s = .next (State.settleDma u) ∧ u.evtStatus 1765 = true) ∧
    (s.dueList true = [] → exec .closePointReached s = .next s.settleDma) ∧
    (∀ n x k, s.dueList true = [(n, x)] → x.action = 3 → s.takeOf n = some k → k.state = 1 ∨ k.state = 2 → ∃ (u : State) (y : Take), exec .closePointReached s = .next (State.settleDma u) ∧
      u.takeOf n = some y ∧ y.state = 3 ∧ y.closeTime = x.time ∧ y.reason = 1 ∧ y.note = x.note) ∧
    (∀ (up : Bool) (held : Nat) (age : Fin 201),
      (up ≠ (s.cfg 0x01 0 7).testBit 0 ∨ held < 20 → exec (.trigInEdge up held age) s = .next s.settleDma) ∧
      (∀ t, s.board.trigInLast = some t → s.now < t + 1000000 + age.val → exec (.trigInEdge up held age) s = .next s.settleDma) ∧
      (∀ k, Safety.inRun s → up = (s.cfg 0x01 0 7).testBit 0 → 20 ≤ held → s.board.trigInLast = none → s.dueList true = [] → s.openTakes = [k] → s.takeOf k.num = some k →
        k.state = 1 → k.joinChain = false → k.accepts 2 = true → k.pinEdges = 0 → k.openTime ≤ (s.steepleTime - age.val) / 4 * 4 →
        ∃ (u : State) (x : Take), exec (.trigInEdge up held age) s = .next (State.settleDma u) ∧ u.board.trigInLast = some (s.now - age.val) ∧ u.takeOf k.num = some x ∧ x.pinEdges = 1 ∧
          x.startTime = (s.steepleTime - age.val) / 4 * 4 ∧ u.rd Reg.TAK_STATUS_TRIG_SRC = 4 ∧ u.board.pulses = s.board.pulses ++ [(s.now, s.now + 1000)]))

/-- A Frame Write that is gated, for another namespace or out of its ranges is refused. A FIRST segment of a slot with no
open take, of a full volume, longer than FRAME_MAX, or at or after the close point is refused with the status of Table
7.5 and counted; with an open take that records, its frame begins with its length at the device's time; with an ARMED
take without a ring it waits. A FIRST segment with the tag of a frame in flight, and a later segment of none, are
sequence errors (85h). With nothing overdue FRAME_SEGMENT_TIMEOUT and TAKE_NOT_RECORDING_REPLY do nothing; a frame
that has waited 1 µs is refused. -/
def Obligations.FramesAreTakenOrRefused : Prop :=
  (∀ (c : Sqe) (s : State), s.acts c = true →
    let f := s.fireDue
    let slot := dwBits c.cdw11 0 4
    let len := c.cdw13.toNat
    let tag := dwBits c.cdw11 16 16
    let refused (st : Status) : Prop := ∃ u, exec (.frameWrite c) s = .next (State.settleDma u) ∧ u.nvme.cpls = f.nvme.cpls ++ [Safety.cpl c st 0 0 []] ∧ u.path = f.path ∧
      u.takes.inflight = f.takes.inflight ∧ u.takes.replies = f.takes.replies
    (∀ st, f.ioGate c = some st → refused st) ∧
    (f.ioGate c = none → ∀ st, f.vendorGate = some st → refused st) ∧
    (f.ioGate c = none → f.vendorGate = none → (∀ n, f.nsOf c = some n → n.take = false) → refused stInvalidNs) ∧
    (f.ioGate c = none → f.vendorGate = none → ∀ n, f.nsOf c = some n → n.take = true →
      (frameFieldsOk c = false → refused stInvalidField) ∧
      (frameFieldsOk c = true → c.cdw11.getLsbD 4 = true →
        (f.slotClip slot = none → refused (f.noTake slot)) ∧
        (∀ t i cl, f.slotClip slot = some (t, i, cl) →
          (t.reason = 4 ∨ f.rd Reg.TAK_STATUS_FULL = 1 → refused (stVendor 0x86 true)) ∧
          (t.reason ≠ 4 → f.rd Reg.TAK_STATUS_FULL ≠ 1 → t.frameMax < len → refused (stVendor 0x81 true)) ∧
          (t.reason ≠ 4 → f.rd Reg.TAK_STATUS_FULL ≠ 1 → len ≤ t.frameMax → t.state = 3 → t.closeTime ≤ f.steepleTime → refused (stVendor 0x8A true))) ∧
        (∀ st, f.frameOutcome slot len f.steepleTime ≠ .refuse st) →
          ((f.frameTagged slot tag).isSome = true → refused (stVendor 0x85 true)) ∧
          ((f.frameTagged slot tag) = none → (f.replyTagged slot tag) = none → f.inFlightOn slot < 1024 →
            (f.frameOutcome slot len f.steepleTime = .wait → segSequenceOk c 0 len = true → ∃ u, exec (.frameWrite c) s = .next (State.settleDma u) ∧
              u.takes.replies = f.takes.replies ++ [⟨slot, f.steepleTime, [c], none⟩] ∧ u.nvme.cpls = f.nvme.cpls ∧ u.path = f.path) ∧
            (f.frameOutcome slot len f.steepleTime = .record → f.frameGate len = none → segSequenceOk c 0 len = true →
              ∀ t i cl, f.slotClip slot = some (t, i, cl) → ∀ u fr, (f.fetched c).beginFrame t.num i len f.steepleTime (c.cdw14.toNat + 2 ^ 32 * c.cdw15.toNat) c.ctrl.val c.sq tag 0
                  (c.cdw11.getLsbD 6) none = some (u, fr) →
                exec (.frameWrite c) s = .next (State.settleDma (u.addSegment fr .frame c.ctrl.val c 0 (segEnd c) (c.cdw11.getLsbD 5) false)) ∧
                fr.slot = cl.slot ∧ fr.tag = tag ∧ fr.length = len ∧ fr.stamp = f.steepleTime ∧ fr.taken = 0))) ∧
      (frameFieldsOk c = true → c.cdw11.getLsbD 4 = false →
        (f.slotClip slot = none → refused (f.noTake slot)) ∧
        ((f.slotClip slot).isSome = true → f.replyTagged slot tag = none → f.frameTagged slot tag = none → refused (stVendor 0x85 true))))) ∧
  ∀ s : State, s.mainUp = true →
    let f := s.fireDue
    ((∀ x ∈ f.takes.inflight, x.chan.isSome = true ∨ x.taken = x.length ∨ f.now < x.since + 1000000000) → exec .frameSegmentTimeout s = .next f.settleDma) ∧
    (∀ x, (f.takes.inflight.filter fun y => y.chan.isNone && y.taken != y.length && y.since + 1000000000 ≤ f.now) = [x] →
      exec .frameSegmentTimeout s = .next (f.abandon x (stVendor 0x85 true)).settleDma) ∧
    ((∀ r ∈ f.takes.replies, f.steepleTime < r.stamp + 1000) → exec .takeNotRecordingReply s = .next f.settleDma) ∧
    (∀ r c t i cl, f.takes.replies = [r] → r.stamp + 1000 ≤ f.steepleTime → r.cmds = [c] → r.pull = none → Safety.awaited f c → f.slotClip r.slot = some (t, i, cl) → t.state = 1 →
      ∃ u, exec .takeNotRecordingReply s = .next (State.settleDma u) ∧ u.takes.replies = [] ∧ u.nvme.cpls = f.nvme.cpls ++ [Safety.cpl c (stVendor 0x84 false) 0 0 []])

/-- TAK_DMA_PI from the controller of the channel stores the index and adds the new descriptors; from another agent, and
for a channel unused, it does nothing; a fill above the ring is FAULT 6. A descriptor for a channel the engine has not
chosen is not taken; one that is refused advances the fetch. A read-back of the value written publishes the consumed
index; an error or another value is FAULT 1 and the consumed index stays. 10 µs after the first unsignalled
acknowledgement the channel is signalled, not sooner. RESUME of a channel PAUSED or in FAULT takes it to IDLE with no
fault, and of another does nothing. The state shown follows Table 7.15. -/
def Obligations.DmaChannelsFollowTheirRings : Prop :=
  ∀ (d : Fin 64) (s : State), s.mainUp = true →
    let f := s.fireDue
    let faults (i : Instr) (v : State) (code : Nat) : Prop := ∃ t, exec i s = .next t ∧ t.dmaState d.val = 6 ∧ t.rd (Reg.TAK_DMA_STAT_FAULT d.val) = code ∧
      t.evtStatus (1552 + d.val) = true ∧ t.rd (Reg.TAK_DMA_CI_CI d.val) = v.rd (Reg.TAK_DMA_CI_CI d.val)
    (∀ (a : Fin 8) (pi : Word) (fl : Option Nat),
      (f.dma d.val = none → exec (.takDmaPiWrite a d pi fl) s = .next f) ∧
      (∀ x, f.dma d.val = some x →
        (f.rd (Reg.TAK_DMA_STAT_CTRL d.val) ≠ a.val → exec (.takDmaPiWrite a d pi fl) s = .next f) ∧
        (f.rd (Reg.TAK_DMA_STAT_CTRL d.val) = a.val →
          ((pi.toNat + 2 ^ 32 - f.rd (Reg.TAK_DMA_CI_CI d.val)) % 2 ^ 32 ≤ x.entries → ∃ t y, exec (.takDmaPiWrite a d pi fl) s = .next t ∧
            t.rd (Reg.TAK_DMA_PI_PI d.val) = pi.toNat ∧ t.dma d.val = some y ∧ y.fetched = x.fetched ∧ y.consumed = x.consumed ∧
            (pi.toNat ≠ f.rd (Reg.TAK_DMA_PI_PI d.val) →
              y.produced = x.produced ++ [((pi.toNat + 2 ^ 32 - f.rd (Reg.TAK_DMA_PI_PI d.val)) % 2 ^ 32, f.now)])) ∧
          (x.entries < (pi.toNat + 2 ^ 32 - f.rd (Reg.TAK_DMA_CI_CI d.val)) % 2 ^ 32 → faults (.takDmaPiWrite a d pi fl) f 6)))) ∧
    (∀ b : List Byte,
      (f.dmaChosen ≠ some d.val → exec (.dmaDescriptorArrival d b) s = .next f.settleDma) ∧
      (∀ x st, f.dma d.val = some x → f.dmaChosen = some d.val → f.dmaBusy d.val = none → f.unfetched d.val x ≠ 0 →
        f.frameOutcome x.slot (leAt b 24 4) f.steepleTime = .refuse st →
        ∃ (u : State) (y : Dma), exec (.dmaDescriptorArrival d b) s = .next (State.settleDma u) ∧ u.dma d.val = some y ∧ y.fetched = (x.fetched + 1) % 2 ^ 32 ∧
          y.outcomes.length = x.outcomes.length + 1 ∧ u.path = f.path)) ∧
    (∀ (v : Nat) (e : Bool),
      (s.dma d.val = none → exec (.dmaReadbackComplete d v e) s = .next s ∧ exec (.dmaCoalesceTimer d) s = .next s) ∧
      (∀ x, s.dma d.val = some x →
        (x.wrote = none → exec (.dmaReadbackComplete d v e) s = .next s) ∧
        (∀ w, x.wrote = some w →
          (e = true ∨ v ≠ w → faults (.dmaReadbackComplete d v e) s 1) ∧
          (e = false → v = w → ∃ u y, exec (.dmaReadbackComplete d v e) s = .next (State.settleDma u) ∧ u.rd (Reg.TAK_DMA_CI_CI d.val) = w % 2 ^ 32 ∧
            u.dma d.val = some y ∧ y.batch = [] ∧ y.wrote = none)) ∧
        (x.unsignalled ≠ 0 → x.unsignalledAt + 10000 ≤ s.now → ∃ t y, exec (.dmaCoalesceTimer d) s = .next t ∧ t.dma d.val = some y ∧ y = { x with unsignalled := 0 }) ∧
        (x.unsignalled = 0 ∨ s.now < x.unsignalledAt + 10000 → exec (.dmaCoalesceTimer d) s = .next s))) ∧
    (∀ (a : Fin 8) (w : Word),
      (w.getLsbD 0 = false ∨ s.dma d.val = none ∨ (s.dmaState d.val ≠ 5 ∧ s.dmaState d.val ≠ 6) → exec (.takDmaResume a d w) s = .next s) ∧
      (∀ x, w.getLsbD 0 = true → s.dma d.val = some x → s.dmaState d.val = 5 ∨ s.dmaState d.val = 6 → s.fill d.val ≤ x.entries →
        ∃ u y, exec (.takDmaResume a d w) s = .next (State.settleDma u) ∧ u.dmaState d.val = 1 ∧ u.rd (Reg.TAK_DMA_STAT_FAULT d.val) = 0 ∧ u.dma d.val = some y ∧
          y.next = x.batch ++ x.next ∧ y.wrote = none)) ∧
    ∃ t, exec (.dmaMaxWaitExpiry d) s = .next t ∧ t = { s with regs := t.regs } ∧
      (s.dmaRuns d.val = true → t.dmaState d.val = if s.dmaWaits d.val then 4 else if (s.dmaBusy d.val).isSome && s.dmaChosen != some d.val then 3
        else if s.dmaActive d.val || (s.dmaBusy d.val).isSome then 2 else 1) ∧
      (s.dmaRuns d.val = false → t.dmaState d.val = s.dmaState d.val)

/-- A request with another opcode, or without VAUX, does nothing; while the Belfry does not serve it stays pending; one
longer than 240 B is answered STATUS 2; one of an opcode outside Table 22.2 STATUS 1. OWN_TAKE burns the hash of the
owner's key and lifecycle OWNED, in OPEN alone and not over a bit already burnt; OWN_TRANSFER burns the next hash and
revokes the one before, with the owner's signature alone; RETIRE burns RETIRED and the seed. FAULT_CLEAR clears the
latched rail fault. LOG_READ gives up to COUNT records from FIRST_SEQ on. -/
def Obligations.MailboxServesItsMessages : Prop :=
  ∀ (r : MbReq) (s : State),
    let m := s.mbMsg r
    let h := keyHash (slice m.args 0 97)
    (∀ (op : Nat) (i : Instr), (op, i) ∈ [(0x10, Instr.ownTake r), (0x11, .ownTransfer r), (0x12, .retire r), (0x18, .faultClear r), (0x40, .logRead r)] →
      (s.board.vaux = false ∨ m.op ≠ op → exec i s = .next s) ∧
      (s.board.vaux = true → m.op = op → s.belfryRuns = false ∨ s.recoveryMode = true → exec i s = .next (s.mbGo r)) ∧
      (Safety.mbServes s r op → 240 < m.len → Safety.mbAnswered s i r mbInvalid)) ∧
    (Safety.mbServes s r m.op → mbOpcodes.contains m.op = false → m.len ≤ 240 → Safety.mbAnswered s (.mailboxUnsupportedOpcode r) r ⟨1, 0, []⟩) ∧
    (mbOpcodes.contains m.op = true → exec (.mailboxUnsupportedOpcode r) s = .next s) ∧
    (Safety.mbServes s r 0x10 → m.len ≤ 240 →
      (m.args.length < 97 → Safety.mbAnswered s (.ownTake r) r mbInvalid) ∧
      (97 ≤ m.args.length → s.lifecycle ≠ 1 ∨ s.ownerHash 0 &&& h ≠ s.ownerHash 0 → Safety.mbAnswered s (.ownTake r) r mbState) ∧
      (97 ≤ m.args.length → s.lifecycle = 1 → s.ownerHash 0 &&& h = s.ownerHash 0 → ∃ t, exec (.ownTake r) s = .next t ∧ Safety.responded s t r m mbOk ∧
        t.lifecycle = 3 ∧ (∀ j, j < 12 → t.otpWord (0x14 + j) = s.otpWord (0x14 + j) ||| BitVec.ofNat 32 (leAt (digestBytes h) (4 * j) 4)) ∧
        ∀ w, w ≠ 3 → w < 0x14 ∨ 0x20 ≤ w → t.otpWord w = s.otpWord w)) ∧
    (Safety.mbServes s r 0x11 → m.len ≤ 240 →
      (m.args.length < 193 → Safety.mbAnswered s (.ownTransfer r) r mbInvalid) ∧
      (193 ≤ m.args.length → s.lifecycle ≠ 3 ∨ (∀ n, n < 4 → s.ownerHash n ≠ 0) → Safety.mbAnswered s (.ownTransfer r) r mbState) ∧
      (193 ≤ m.args.length → s.lifecycle = 3 → ∀ n, n < 4 → s.ownerHash n = 0 → (∀ k, k < n → s.ownerHash k ≠ 0) →
        let signed := s.ownerSigned (digestBytes h ++ s.uniqueId) (slice m.args 97 96)
        (signed = false → Safety.mbAnswered s (.ownTransfer r) r mbAuth) ∧
        (∀ old, signed = true → s.activeOwner = some old → ∃ t, exec (.ownTransfer r) s = .next t ∧ Safety.responded s t r m mbOk ∧
          (∀ j, j < 12 → t.otpWord (0x14 + 12 * n + j) = s.otpWord (0x14 + 12 * n + j) ||| BitVec.ofNat 32 (leAt (digestBytes h) (4 * j) 4)) ∧
          t.otpWord 4 = s.otpWord 4 ||| BitVec.ofNat 32 (2 ^ old) ∧
          ∀ w, w ≠ 4 → w < 0x14 + 12 * n ∨ 0x20 + 12 * n ≤ w → t.otpWord w = s.otpWord w))) ∧
    (Safety.mbServes s r 0x12 → m.len ≤ 240 →
      let signed := s.ownerSigned (ascii "RETIRE" ++ s.uniqueId) (slice m.args 0 96)
      (s.lifecycle ≠ 1 → s.lifecycle ≠ 3 → Safety.mbAnswered s (.retire r) r mbState) ∧
      (s.lifecycle = 3 → m.args.length < 96 → Safety.mbAnswered s (.retire r) r mbInvalid) ∧
      (s.lifecycle = 3 → 96 ≤ m.args.length → signed = false → Safety.mbAnswered s (.retire r) r mbAuth) ∧
      (s.lifecycle = 1 ∨ (s.lifecycle = 3 ∧ 96 ≤ m.args.length ∧ signed = true) → ∃ t, Safety.responded s t r m mbOk ∧ t.lifecycle = 7 ∧
        (∀ j, j < 8 → t.otpWord (0x54 + j) = 0xFFFFFFFF) ∧
        exec (.retire r) s = .next (if s.board.mainRunning then State.settleDma (State.warmFlush t true false) else t))) ∧
    (Safety.mbServes s r 0x18 → m.len ≤ 240 →
      (s.board.railFault = none → Safety.mbAnswered s (.faultClear r) r mbState) ∧
      (s.board.railFault ≠ none → ∃ t, exec (.faultClear r) s = .next t ∧ Safety.responded s t r m mbOk ∧ t.board = { s.board with railFault := none, railRetried := false })) ∧
    (Safety.mbServes s r 0x40 → m.len ≤ 240 →
      let first := leAt m.args 0 8
      let count := byteAt m.args 8
      (count = 0 ∨ 7 < count → Safety.mbAnswered s (.logRead r) r mbInvalid) ∧
      (0 < count → count ≤ 7 → Safety.mbAnswered s (.logRead r) r
        ⟨0, 0, (((s.life.events.reverse).filter fun e => first ≤ e.seq).take count).flatMap EventRec.bytes⟩))

/-- Each is recorded and answered: STATUS 2 for a part that does not exist, 3 while the main domain is down or where the
part's state does not allow it, 5 where a stripe would miss more than its parity. LINK_ISOLATE leaves the link
ISOLATED, LINK_RETURN trains it from DETECT, LINK_RETIRE retires it. SLEEVE_BYPASS leaves the Sleeve's links BYPASSED,
SLEEVE_RETURN returns the Sleeve. A lane is bypassed (not the ninth), tested with its known answer, and returned; a
loop is bypassed and returned; a DRAM channel is retired (not the fifth) and returned at the next main reset. -/
def Obligations.LiveOperationsTakePartsOutAndBack : Prop :=
  ∀ (r : MbReq) (s : State),
    let m := s.mbMsg r
    let f (op : Nat) : State := Safety.mbBegun s r op
    let k := byteAt m.args 0
    let n := leAt m.args 0 2
    -- answered on state w with a, the path settled
    let live (op : Nat) (i : Instr) (w : State) (a : MbAns) : Prop := exec i s = .next (State.settleDma (Safety.liveDone s r op w a))
    let quiet (op : Nat) (i : Instr) (w : State) (a : MbAns) : Prop := exec i s = .next (Safety.liveDone s r op w a)
    m.len ≤ 240 →
    (∀ (op limit arg : Nat) (i : Instr), (op, limit, arg, i) ∈ [(0x28, 512, n, Instr.linkIsolate r), (0x29, 512, n, .linkReturn r), (0x2A, 512, n, .linkRetire r),
        (0x2C, 64, k, .sleeveBypass r), (0x2D, 64, k, .sleeveReturn r), (0x30, 16, k, .laneBypass r), (0x31, 16, k, .laneTest r true), (0x32, 16, k, .laneReturn r)] →
      Safety.mbServes s r op → (limit ≤ arg → live op i (f op) mbInvalid) ∧ (arg < limit → s.mainUp = false → live op i (f op) mbState)) ∧
    (∀ (op limit : Nat) (i : Instr), (op, limit, i) ∈ [(0x34, 4, Instr.loopBypass r), (0x35, 4, .loopReturn r)] →
      Safety.mbServes s r op → (limit ≤ k → quiet op i (f op) mbInvalid) ∧ (k < limit → s.mainUp = false → quiet op i (f op) mbState)) ∧
    (Safety.mbServes s r 0x3C → 24 ≤ k → quiet 0x3C (.channelRetire r) (f 0x3C) mbInvalid) ∧ (Safety.mbServes s r 0x3D → 24 ≤ k → quiet 0x3D (.channelReturn r) (f 0x3D) mbInvalid) ∧
    (n < 512 → s.mainUp = true →
      (Safety.mbServes s r 0x28 →
        ((s.linkState n ≠ 1 ∧ s.linkState n ≠ 2) ∨ 8 ≤ (s.linksIn 4).length → live 0x28 (.linkIsolate r) (f 0x28) mbState) ∧
        (s.linkState n = 1 ∨ s.linkState n = 2 → (s.linksIn 4).length < 8 → (State.wr (f 0x28) (Reg.STR_LINK_STATE n) 4).exceedsParity = true →
          live 0x28 (.linkIsolate r) (f 0x28) mbRisk) ∧
        (s.linkState n = 1 ∨ s.linkState n = 2 → (s.linksIn 4).length < 8 → (State.wr (f 0x28) (Reg.STR_LINK_STATE n) 4).exceedsParity = false →
          ∃ v : State, live 0x28 (.linkIsolate r) (State.membersLost v n none (f 0x28)) mbOk ∧ v.linkState n = 4 ∧ v.evtStatus (2 * n + 1) = true ∧
            ∀ j, j < 512 → j ≠ n → v.linkState j = s.linkState j)) ∧
      (Safety.mbServes s r 0x29 →
        (s.linkState n ≠ 4 → live 0x29 (.linkReturn r) (f 0x29) mbState) ∧
        (s.linkState n = 4 → ∃ v : State, live 0x29 (.linkReturn r) v mbOk ∧ v.jlState n = 1 ∧ v.jlRate n = 2 ∧ v.rd (Reg.JL_STATE_BLOCK_LOCK n) = 0)) ∧
      (Safety.mbServes s r 0x2A →
        (s.linkState n = 0 ∨ s.linkState n = 6 → live 0x2A (.linkRetire r) (f 0x2A) mbState) ∧
        (s.linkState n ≠ 0 → s.linkState n ≠ 6 → ∃ v : State,
          live 0x2A (.linkRetire r) (State.startRebuild ((v.record 0x0C 2 [n, 5]).membersLost n none ((f 0x2A).endRecal n))) mbOk ∧ v.linkState n = 6 ∧
            (v.lnk n).window = none ∧ (v.lnk n).downSince = none))) ∧
    (k < 64 → s.mainUp = true →
      (Safety.mbServes s r 0x2C →
        let links := s.slvLinks k
        ((∃ j, j < 64 ∧ s.rd (Reg.SLV_STATUS_BYPASSED j) = 1) → live 0x2C (.sleeveBypass r) (f 0x2C) mbState) ∧
        ((∀ j, j < 64 → s.rd (Reg.SLV_STATUS_BYPASSED j) ≠ 1) → m.flags.testBit 0 = false →
          (links.foldl (fun t j => State.wr t (Reg.STR_LINK_STATE j) 5) (f 0x2C)).exceedsParity = true → live 0x2C (.sleeveBypass r) (f 0x2C) mbRisk) ∧
        ((∀ j, j < 64 → s.rd (Reg.SLV_STATUS_BYPASSED j) ≠ 1) →
          m.flags.testBit 0 = true ∨ (links.foldl (fun t j => State.wr t (Reg.STR_LINK_STATE j) 5) (f 0x2C)).exceedsParity = false →
          ∃ v : State, live 0x2C (.sleeveBypass r) (links.foldl (fun t j => State.membersLost t j none (f 0x2C)) v) mbOk ∧ (∀ j ∈ links, v.linkState j = 5) ∧
            ((s.sleeve k).queue = [] → (s.sleeve k).recs = [] → v.rd (Reg.SLV_STATUS_BYPASSED k) = 1))) ∧
      (Safety.mbServes s r 0x2D →
        (s.rd (Reg.SLV_STATUS_BYPASSED k) ≠ 1 → live 0x2D (.sleeveReturn r) (f 0x2D) mbState) ∧
        (s.rd (Reg.SLV_STATUS_BYPASSED k) = 1 → ∃ v : State,
          live 0x2D (.sleeveReturn r) ((((List.range 8).map fun l => 8 * k + l).filter fun j => s.linkState j == 5).foldl State.linkBack v) mbOk ∧
            v.rd (Reg.SLV_STATUS_BYPASSED k) = 0 ∧ v.evtStatus (1030 + 8 * k) = true))) ∧
    (k < 16 → s.mainUp = true →
      (Safety.mbServes s r 0x30 →
        (8 ≤ ((List.range 16).filter fun l => !s.laneOk l).length → live 0x30 (.laneBypass r) (f 0x30) mbRisk) ∧
        (((List.range 16).filter fun l => !s.laneOk l).length < 8 → ∃ v : State, live 0x30 (.laneBypass r) v mbOk ∧
          v.rd (Reg.CPH_LANE_STATUS_STATE k) = (if s.laneOk k then 1 else s.rd (Reg.CPH_LANE_STATUS_STATE k)) ∧
          (s.laneOk k = true → (v.rd Reg.CPH_STATUS_IN_SERVICE).testBit k = false))) ∧
      (∀ pass : Bool, Safety.mbServes s r 0x31 →
        (s.laneOk k = true → live 0x31 (.laneTest r pass) (f 0x31) mbState) ∧
        (s.laneOk k = false → ∃ v : State, live 0x31 (.laneTest r pass) v ⟨0, bit pass, []⟩ ∧ v.rd (Reg.CPH_LANE_STATUS_KAT_PASS k) = bit pass ∧
          v.rd (Reg.CPH_LANE_STATUS_STATE k) = if pass then s.rd (Reg.CPH_LANE_STATUS_STATE k) else 3)) ∧
      (Safety.mbServes s r 0x32 →
        (s.rd (Reg.CPH_LANE_STATUS_STATE k) ≠ 1 → live 0x32 (.laneReturn r) (f 0x32) mbState) ∧
        (s.rd (Reg.CPH_LANE_STATUS_STATE k) = 1 → ∃ v : State, live 0x32 (.laneReturn r) v mbOk ∧ v.laneOk k = true ∧ (v.rd Reg.CPH_STATUS_IN_SERVICE).testBit k = true))) ∧
    (k < 4 → s.mainUp = true →
      (Safety.mbServes s r 0x34 → ∃ v : State, quiet 0x34 (.loopBypass r) v mbOk ∧ v.rd (Reg.MNT_LOOP_CTL_BYPASS k) = 1 ∧ (v.loop k).change = some true) ∧
      (Safety.mbServes s r 0x35 →
        (s.loopState k ≠ 3 → quiet 0x35 (.loopReturn r) (f 0x35) mbState) ∧
        (s.loopState k = 3 → ∃ v : State, quiet 0x35 (.loopReturn r) v mbOk ∧ v.rd (Reg.MNT_LOOP_CTL_BYPASS k) = 0 ∧ (v.loop k).change = some false))) ∧
    (k < 24 →
      (Safety.mbServes s r 0x3C →
        (k ∈ s.life.channels ∨ 4 ≤ s.life.channels.length → quiet 0x3C (.channelRetire r) (f 0x3C) mbState) ∧
        (k ∉ s.life.channels → s.life.channels.length < 4 → check14 (23 - s.life.channels.length) s.image.cfg ≠ none → quiet 0x3C (.channelRetire r) (f 0x3C) mbState) ∧
        (k ∉ s.life.channels → s.life.channels.length < 4 → check14 (23 - s.life.channels.length) s.image.cfg = none →
          ∃ v : State, quiet 0x3C (.channelRetire r) v mbOk ∧ v.life.channels = s.life.channels ++ [k])) ∧
      (Safety.mbServes s r 0x3D →
        (k ∉ s.life.channels → quiet 0x3D (.channelReturn r) (f 0x3D) mbState) ∧
        (k ∈ s.life.channels → ∃ v : State, quiet 0x3D (.channelReturn r) v mbOk ∧ v.life.channels = s.life.channels.filter fun c => c != k)))

/-- MAINT_REQUEST of a resource of no kind is STATUS 2; else the activity is added and a pass made, answered STATUS 4 with
DETAIL 1 where one asked for stays held. MAINT_CANCEL of no such activity is STATUS 3; else the activities are gone
and each is recorded. A scheduling pass runs once a second: NOR failures are counted, and a pass that may not run
starts nothing. An activity whose work is not done does not end; one that is done leaves with an end record and source
1,779. A margin measurement raises the adaptive VDD_CORE floor once a day, and computes PERCENT_USED. The counters
record replaces the older of its two copies. -/
def Obligations.MaintenanceActivitiesRunInTurn : Prop :=
  ∀ s : State,
    (∀ r : MbReq, (s.mbMsg r).len ≤ 240 →
      let m := s.mbMsg r
      let code := byteAt m.args 0
      let res := leAt m.args 4 4
      (Safety.mbServes s r 0x20 →
        let f := Safety.mbBegun s r 0x20
        (f.askedRes code res = none → exec (.maintRequest r) s = .next (State.settleDma (State.mbRespond f r m mbInvalid))) ∧
        (∀ l, f.askedRes code res = some l → ∃ v w : State, exec (.maintRequest r) s = .next (State.settleDma (State.mbRespond w r m (if l.any fun q => w.actHeld code q then ⟨4, 1, []⟩ else mbOk))) ∧
          w = v.schedule s.maint.acts ∧ (∀ q ∈ l, ∃ a ∈ v.maint.acts, a.code = code ∧ a.res = q) ∧ (∀ a ∈ s.maint.acts, a ∈ v.maint.acts) ∧
          (s.maintRuns = false → w = v))) ∧
      (Safety.mbServes s r 0x21 →
        let f := Safety.mbBegun s r 0x21
        (code = 0 ∨ 9 < code → exec (.maintCancel r) s = .next (State.settleDma (State.mbRespond f r m mbInvalid))) ∧
        (1 ≤ code → code ≤ 9 → (∀ a ∈ s.maint.acts, a.code ≠ code ∨ (a.res ≠ res ∧ res ≠ wholePass)) →
          exec (.maintCancel r) s = .next (State.settleDma (State.mbRespond f r m mbState))) ∧
        (∀ a ∈ s.maint.acts, 1 ≤ code → code ≤ 9 → a.code = code → a.res = res ∨ res = wholePass → ∃ v : State,
          exec (.maintCancel r) s = .next (State.settleDma (State.mbRespond v r m mbOk)) ∧ v.evtStatus 1779 = true ∧
            ∀ b ∈ v.maint.acts, b ∈ s.maint.acts ∧ (b.code ≠ code ∨ (b.res ≠ res ∧ res ≠ wholePass))))) ∧
    (∀ fails : List (Nat × Bool),
      (s.belfryRuns = false ∨ s.now < s.maint.passAt + 990000000 → exec (.schedulingPass fails) s = .next s) ∧
      (s.belfryRuns = true → s.maint.passAt + 990000000 ≤ s.now → ∃ v : State, exec (.schedulingPass fails) s = .next (State.settleDma (State.schedule v s.maint.acts)) ∧
        v.maint = { s.maint with passAt := s.now } ∧ v.rd Reg.BEL_HEALTH_NOR_ERRORS = min (2 ^ Reg.BEL_HEALTH_NOR_ERRORS.width - 1) (s.rd Reg.BEL_HEALTH_NOR_ERRORS + fails.length) ∧
        (fails ≠ [] → v.evtStatus 1783 = true) ∧ v.life.seq = s.life.seq + fails.length ∧ (s.maintRuns = false → State.schedule v s.maint.acts = v))) ∧
    (∀ (a : Fin 10) (res : Nat), s.mainUp = true → s.belfryRuns = true →
      (s.findAct a.val res = none → exec (.maintActivityEnd a res) s = .next s.settleDma) ∧
      (∀ x, s.findAct a.val res = some x → x.running = false ∨ s.actDone x = false → exec (.maintActivityEnd a res) s = .next s.settleDma) ∧
      (∀ x, s.findAct a.val res = some x → x.running = true → s.actDone x = true → ∃ v : State,
        exec (.maintActivityEnd a res) s = .next (State.settleDma (if a.val = 5 then State.eyePlan v res else v)) ∧ v.findAct a.val res = none ∧ v.evtStatus 1779 = true ∧
          v.life.seq = s.life.seq + 1 ∧ v.maint.acts = s.maint.acts.filter fun y => !(y.code == a.val && y.res == res))) ∧
    (s.mainUp = false ∨ s.belfryRuns = false → exec .marginMeasurement s = .next s) ∧
    (s.mainUp = true → s.belfryRuns = true → s.maint.retries = [] → s.maint.thresh = [] → s.strings = [] →
      (s.maint.avsSince = none → ∃ t, exec .marginMeasurement s = .next t ∧ mapGet (fun _ => 0) t.life.counters 0xB0 = 0 ∧ t.maint = s.maint) ∧
      (∀ since ref first : Nat, s.maint.avsSince = some since → since + 600000000000 ≤ s.now → s.force Reg.PWR_CFG_AVS ≠ 0 →
        (s.maint.avsFirst = none ∨ s.maint.avsAt + dayNs ≤ s.now) → ref = s.rd Reg.PWR_VCORE_MV → first = s.maint.avsFirst.getD ref →
        ∃ t, exec .marginMeasurement s = .next t ∧ t.maint = { s.maint with avsFirst := some first, avsAt := s.now } ∧
          mapGet (fun _ => 0) t.life.counters 0xB8 =
            (let old := mapGet (fun _ => 0) s.life.counters 0xB8
             let new := min s.vcoreMax (max old (ref - 20) / 5 * 5)
             if first + 15 ≤ ref ∧ old < new then new else old))) ∧
    (s.belfryRuns = true →
      let seqOf (c : Option CtrCopy) : Nat := match c with | some x => x.seq | none => 0
      let a := seqOf s.life.copyA
      let b := seqOf s.life.copyB
      ∃ (t : State) (x : CtrCopy), exec .countersRecordWrite s = .next t ∧ x.seq = max a b + 1 ∧ x.counters = s.life.counters ∧ x.hist = s.life.hist ∧
        t = { s with life := t.life } ∧ (a ≤ b → t.life.copyA = some x ∧ t.life.copyB = s.life.copyB) ∧ (b < a → t.life.copyB = some x ∧ t.life.copyA = s.life.copyA)) ∧
    (s.belfryRuns = false → exec .countersRecordWrite s = .next s)

/-- A result is stored in every state but Off, a faulted sensor giving 115.0 °C; in Run it sets THM_TEMP and the states by
their thresholds and 3 °C of hysteresis. A result of 115 °C trips: while the rails come up PWR_KILL_N falls, in Run
the cool flush begins; both lower THERM_TRIP_N. The end of a grace interval enforces the lesser of its level and the
request. The rate of rise appears once 15,875 results are there. The trip record is written once the rails are off;
the self-test repeats every 10 s until it passes; the restart from phase IMAGE needs the record, 10 s below 85 °C, a
passed test and, where due, TRIP_ACK. Three checks in a row of a fan below 300 rpm are its fault. -/
def Obligations.ThermalStatesTripsAndFans : Prop :=
  ∀ s : State,
    let result (raw : Fin 1048576) (temp : Int) (volt : Fin 3) : Instr := .thmSensorResult raw temp volt
    let fault (raw : Fin 1048576) (temp : Int) (volt : Fin 3) : Nat := s.thm.faultOf volt.val (if s.thm.rawRun ≠ 0 ∧ s.thm.raw = raw.val then s.thm.rawRun + 1 else 1) temp
    (∀ raw temp volt,
      (s.board.vaux = false ∨ s.pwrState = 4 → exec (result raw temp volt) s = .next s.settleDma) ∧
      (s.board.vaux = true → s.pwrState ≠ 4 → s.board.mainRunning = false → s.board.railStage = 0 → s.thm.trip = none → ∃ v : State,
        exec (result raw temp volt) s = .next (State.settleDma v) ∧ v.thm.raw = raw.val ∧ v.thm.fault = fault raw temp volt ∧ v.thm.lastAt = s.now ∧
          v.thm.last = some (if fault raw temp volt = 0 then temp else 1840) ∧ v.regs = s.regs ∧ v.board = s.board) ∧
      (s.board.vaux = true → s.pwrState = 0 → s.board.mainRunning = true → s.thm.trip = none → s.fitPending 6 = false → fault raw temp volt = 0 → temp < 1840 → ∃ v : State,
        exec (result raw temp volt) s = .next (State.settleDma v) ∧ v.rdSigned Reg.THM_TEMP_TEMP = temp ∧ v.rd Reg.THM_SENSOR_RAW = raw.val ∧ v.thm.recent = (temp :: s.thm.recent).take 15875 ∧
          v.thm.warn = (if s.thm.warn && !s.thm.fresh then decide (16 * (s.force Reg.THM_WARN_C_C : Int) - 48 ≤ temp) else decide (16 * (s.force Reg.THM_WARN_C_C : Int) ≤ temp)) ∧
          v.thm.enf = (if s.thm.enf && !s.thm.fresh then decide (16 * (s.force Reg.THM_ENFORCE_C_C : Int) - 48 ≤ temp) else decide (16 * (s.force Reg.THM_ENFORCE_C_C : Int) ≤ temp)) ∧
          v.thm.trip = none) ∧
      (s.board.vaux = true → s.pwrState ≠ 4 → s.board.mainRunning = false → s.board.railStage ≠ 0 → s.thm.trip = none → fault raw temp volt = 0 → 1840 ≤ temp → temp < 2000 → ∃ v : State,
        exec (result raw temp volt) s = .next (State.settleDma v) ∧ v.thm.trip.isSome = true ∧ v.thm.waiting = true ∧ v.board.thermTrip = true ∧ v.board.pwrKill = true) ∧
      (s.board.vaux = true → s.pwrState = 0 → s.board.mainRunning = true → s.thm.trip = none → s.fitPending 6 = false → fault raw temp volt = 0 → 1840 ≤ temp → temp < 2000 →
        ∃ (w : State) (cool : List Nat) (g : Thm → Thm), exec (result raw temp volt) s = .next (State.settleDma (State.modThm (State.beginFlush w ⟨2, 0, false, none, cool, 0, false⟩ 2) g)) ∧
          w.thm.trip.isSome = true ∧ w.thm.waiting = true ∧ w.board.thermTrip = true ∧ w.rd Reg.THM_STATUS_STATE = 3 ∧
          mapGet (fun _ => 0) w.life.counters 0x88 = mapGet (fun _ => 0) s.life.counters 0x88 + 1)) ∧
    (s.board.mainRunning = false ∨ (∀ g, s.thm.grace = some g → s.now < g.1) → exec .graceExpiry s = .next s) ∧
    (∀ g, s.board.mainRunning = true → s.thm.grace = some g → g.1 ≤ s.now → ∃ t, exec .graceExpiry s = .next t ∧ t.thm.grace = none ∧
      t.rd Reg.THM_THROTTLE_ENFORCED = max (s.rd Reg.THM_THROTTLE_ENFORCED) (min g.2 (s.rd Reg.THM_THROTTLE_REQUEST)) ∧ t.rd Reg.THM_THROTTLE_REQUEST = s.rd Reg.THM_THROTTLE_REQUEST) ∧
    (s.board.mainRunning = false ∨ s.thm.recent.length < 15875 → exec .thmRateTick s = .next s) ∧
    (s.board.mainRunning = true → 15875 ≤ s.thm.recent.length →
      let d : Int := (s.thm.recent.take 250).sum - ((s.thm.recent.drop 15625).take 250).sum
      ∃ t, exec .thmRateTick s = .next t ∧ t.rdSigned Reg.THM_RATE_RATE = max (-32768) (min 32767 (d / 250)) ∧
        t.thm.riseE = (if s.thm.riseE then decide (12000 < d) else decide (20000 < d)) ∧ t.thm.riseW = (if s.thm.riseW then decide (4000 < d) else decide (8000 < d)) ∧
        t.thm.recent = s.thm.recent) ∧
    (s.thm.trip = none ∨ s.thm.killed = false ∨ s.belfryRuns = false → exec .tripRecordWrite s = .next s) ∧
    (∀ r, s.thm.trip = some r → s.thm.killed = true → s.belfryRuns = true → ∃ t, exec .tripRecordWrite s = .next t ∧ t.life.trips = (r :: s.life.trips).take 64 ∧
      t.rd Reg.BEL_TRIP_STATUS_KIND = r.kind % 4 ∧ t.thm = { s.thm with trip := none, killed := false }) ∧
    (∀ pass : Bool,
      (s.belfryRuns = false ∨ s.thm.waiting = false ∨ s.board.mainRunning = true ∨ s.thm.selfTest = some true ∨ (s.thm.selfTest ≠ none ∧ s.now < s.thm.selfAt + 10000000000) →
        exec (.sensorSelfTest pass) s = .next s) ∧
      (s.belfryRuns = true → s.thm.waiting = true → s.board.mainRunning = false → s.thm.selfTest ≠ some true → s.thm.selfTest = none ∨ s.thm.selfAt + 10000000000 ≤ s.now →
        ∃ t, exec (.sensorSelfTest pass) s = .next t ∧ t.thm.selfTest = some pass ∧ t.thm.selfAt = s.now ∧ t.thm.fault = (if pass then 0 else s.thm.fault) ∧ t = { s with thm := t.thm })) ∧
    (let ready := s.belfryRuns = true ∧ s.thm.waiting = true ∧ s.thm.trip = none ∧ s.board.mainRunning = false ∧ s.cooled = true ∧ s.thm.selfTest = some true ∧
        (s.thm.ackDue = false ∨ s.thm.acked = true);
      (¬ ready → exec .tripRestart s = .next s) ∧
      (ready → ∃ t, exec .tripRestart s = .next t ∧ t.phase = 2 ∧ t.thm = { s.thm with waiting := false, acked := false, ackDue := false } ∧ t.board.thermTrip = false ∧
        t.board.railFault = none ∧ t.board.railsAbandoned = false)) ∧
    (∀ r : MbReq, Safety.mbServes s r 0x19 → (s.mbMsg r).len ≤ 240 →
      (s.thm.waiting = false → Safety.mbAnswered s (.tripAck r) r mbState) ∧
      (s.thm.waiting = true → ∃ t, exec (.tripAck r) s = .next t ∧ Safety.responded s t r (s.mbMsg r) mbOk ∧ t.thm = { s.thm with acked := true })) ∧
    (∀ pulses : List Nat,
      (s.mainUp = false → exec (.fanCheck pulses) s = .next s) ∧
      (s.mainUp = true → ∃ t, exec (.fanCheck pulses) s = .next t ∧ ∀ f, f < 4 → f < s.cfg 0x01 0 5 →
        let rpm := pulses.getD f 0 * 60 / max 1 (s.cfg 0x01 0 6)
        let run := if 16384 ≤ s.fanDuty f ∧ rpm < 300 then mapGet (fun _ => 0) s.thm.fans f + 1 else 0
        t.rd (Reg.THM_FAN_RPM f) = min 65535 rpm ∧ mapGet (fun _ => 0) t.thm.fans f = run ∧ t.rd (Reg.THM_FAN_FAULT f) = (if 3 ≤ run then 1 else 0) ∧
          (3 ≤ run → s.rd (Reg.THM_FAN_FAULT f) = 0 → t.evtStatus 1751 = true)))

/-- A Set Features of power management with Save is not saveable; with a workload hint or a state above 4 it is Invalid
Field. PS0 and PS1 complete with success and change PWR_STATUS.PS, the meters within 1 ms. An entry to Doze, Sleep,
Deep Sleep or Off is a Command Sequence Error, with its cause in REFUSE and nothing else changed, while a take is
open, a fitting, sanitize, key, patch or commit operation runs, or another entry does; else it completes with success,
then phase 1 step 1 of its target begins and fetching stops. -/
def Obligations.PowerCommandsSetOrEnterAState : Prop :=
  ∀ (c : Sqe) (s : State),
    let f := Safety.begun s c
    (Safety.runs s c .service →
      (∀ st, psRefused c = some st → ∀ i ∈ [.setPsRun c, .setPsCapped c, .enterDoze c, .enterSleep c, .enterDeepSleep c], Safety.answered s i (Safety.cpl c st 0 0 [])) ∧
      (psRefused c = none →
        (∀ (ps : Nat) (i : Instr), (ps, i) ∈ [(0, Instr.setPsRun c), (1, .setPsCapped c)] → ∃ t, exec i s = .next t ∧ t.nvme.cpls = s.nvme.cpls ++ [Safety.cpl c stOk 0 0 []] ∧
          t.rd Reg.PWR_STATUS_PS = ps ∧ t.pwrState = s.pwrState ∧ t.pwrPhase = s.pwrPhase ∧ t.fresh = s.fresh + 1 ∧ s.now ≤ t.pwr.capAt ∧ t.pwr.capAt ≤ s.now + 1000000 ∧
          (t.pwr.capDue = some (ps == 1) ∨ (t.pwr.capDue = none ∧ t.pwr.capAt = s.now ∧ t.rd Reg.PWR_STATUS_CAPPED = ps))) ∧
        (∀ (target ps : Nat) (i : Instr), (target, ps, i) ∈ [(1, 2, Instr.enterDoze c), (2, 3, .enterSleep c), (3, 4, .enterDeepSleep c)] →
          (∀ k, f.entryRefused = some k → ∃ t, exec i s = .next t ∧ t.nvme.cpls = s.nvme.cpls ++ [Safety.cpl c stSequence 0 0 []] ∧ t.rd Reg.PWR_STATUS_REFUSE = k ∧
            t.pwrPhase = s.pwrPhase ∧ t.rd Reg.PWR_STATUS_PS = s.rd Reg.PWR_STATUS_PS ∧ t.pwr = s.pwr) ∧
          (f.entryRefused = none → ∃ t, exec i s = .next t ∧ t.nvme.cpls = s.nvme.cpls ++ [Safety.cpl c stOk 0 0 []] ∧ t.pwrTarget = target ∧ t.pwrPhase = 1 ∧ t.pwrStep = 1 ∧
            t.rd Reg.PWR_STATUS_PS = ps ∧ t.pwrState = s.pwrState ∧ t.pwr.latched = 0 ∧ t.pwr.entryAt = s.now ∧ t.pwr.fromPs = s.rd Reg.PWR_STATUS_PS ∧ t.nvme.fetchStopped = true)))) ∧
    (Safety.runs s c .vendor →
      (∀ k, f.entryRefused = some k → ∃ t, exec (.powerOff c) s = .next t ∧ t.nvme.cpls = s.nvme.cpls ++ [Safety.cpl c stSequence 0 0 []] ∧ t.rd Reg.PWR_STATUS_REFUSE = k ∧ t.pwr = s.pwr) ∧
      (f.entryRefused = none → ∃ t, exec (.powerOff c) s = .next t ∧ t.nvme.cpls = s.nvme.cpls ++ [Safety.cpl c stOk 0 0 []] ∧ t.pwrTarget = 4 ∧ t.pwrPhase = 1 ∧ t.pwrStep = 1 ∧
        t.rd Reg.PWR_STATUS_PS = s.rd Reg.PWR_STATUS_PS ∧ t.pwr.latched = 0 ∧ t.nvme.fetchStopped = true))

/-- Outside an entry ENTRY_DRAIN_DONE and ENTRY_GATING_DONE do nothing. A wake latched at the first abort point of Doze or
Sleep abandons the entry with 1,753; else draining begins. Gating that ends reaches the target state with 1,752, Off
once its rails are down; a latched wake begins the exit at once. An enabled wake does nothing in Run, is latched in an
entry, and in a low state begins the exit with its code in PWR_LAST_WAKE. The Belfry runs on in Off for 10 s after a
management message. An exit ends in Run with the power state from before, then doorbells and port resets that waited
are applied. A loss report waits for FILTER_NS and begins the power-loss flush in Run; it ends 10 ms after power is
back. A cool flush past 400 ms ends in PWR_KILL_N. -/
def Obligations.PowerEntriesWakesExitsAndLoss : Prop :=
  ∀ s : State,
    (s.pwrPhase ≠ 1 ∨ (s.pwrStep = 1 ∧ s.entryIdle = false) → exec .entryDrainDone s = .next s.settleDma) ∧
    (s.pwrPhase = 1 → s.pwrStep = 1 → s.entryIdle = true →
      (s.pwrTarget ≤ 2 → s.pwr.latched ≠ 0 → ∃ w : State, exec .entryDrainDone s = .next (State.settleDma (State.raise (State.bump w.unparkAll Reg.PWR_COUNT_ABANDONED) 1753)) ∧
        w.pwrPhase = 0 ∧ w.pwrTarget = 0 ∧ w.pwrStep = 0 ∧ w.rd Reg.PWR_STATUS_PS = s.pwr.fromPs % 8 ∧ w.pwr.latched = 0 ∧ w.nvme.fetchStopped = false ∧
        w.rd Reg.PWR_LAST_WAKE_SOURCE = lowestCode s.pwr.latched ∧ w.rd Reg.PWR_LAST_WAKE_ABORT_POINT = 1) ∧
      (2 < s.pwrTarget ∨ s.pwr.latched = 0 → ∃ w : State, exec .entryDrainDone s = .next (State.settleDma (State.entryStep 2 w)) ∧ w.pwrPhase = 1 ∧ w.pwrStep = 2 ∧
        ∀ a ∈ w.maint.acts, a.running = false ∧ a.paused = true)) ∧
    (s.pwrPhase = 1 → s.pwrStep = 3 → s.pwrTarget = 1 → s.force Reg.PWR_CFG_DOZE_PARK = 0 → s.pwr.latched = 0 → ∃ w : State, exec .entryDrainDone s = .next (State.settleDma w) ∧
      w.pwrStep = 4 ∧ w.board.vcore = max 660 (up5 s.vcoreMin) ∧ w.pwrPhase = 1) ∧
    (s.pwrPhase ≠ 1 ∨ s.pwrStep ≠ 4 ∨ (s.pwrTarget = 4 ∧ s.board.downStage ≠ 0) → exec .entryGatingDone s = .next s) ∧
    (s.pwrPhase = 1 → s.pwrStep = 4 →
      (s.pwrTarget ≠ 4 → ∃ t, exec .entryGatingDone s = .next t ∧ t.pwrState = s.pwrTarget ∧ t.evtStatus 1752 = true ∧ t.pwr.steadyAt = s.now ∧ t.pwrStep = 0 ∧
        (s.pwr.latched = 0 → t.pwrPhase = 0) ∧ (s.pwr.latched ≠ 0 → t.pwrPhase = 2 ∧ t.rd Reg.PWR_LAST_WAKE_PENDING = s.pwr.latched % 512 ∧ t.rd Reg.PWR_LAST_WAKE_FROM = s.pwrTarget)) ∧
      (s.pwrTarget = 4 → s.board.downStage = 0 → s.pwr.latched = 0 → ∃ t, exec .entryGatingDone s = .next t ∧ t.pwrState = 4 ∧ t.board.pwrKill = true ∧ t.pwr.steadyAt = s.now)) ∧
    (∀ (code : Nat) (i : Instr), (code, i) ∈ [(1, Instr.wakeNLow), (4, .mgmtMessageWake)] → s.board.vaux = true → s.board.mainRunning = true → s.thm.waiting = false → s.thm.trip = none →
      (s.pwrState = 0 → s.pwrPhase = 0 → exec i s = .next s) ∧
      ((s.force Reg.PWR_CFG_WAKE_MASK).testBit (code - 1) = true →
        (1 ≤ s.pwrState → s.pwrState ≤ 3 → s.pwrPhase = 0 → ∃ t, exec i s = .next t ∧ t.pwrPhase = 2 ∧ t.pwrTarget = 0 ∧ t.rd Reg.PWR_LAST_WAKE_SOURCE = code ∧
          t.rd Reg.PWR_LAST_WAKE_PENDING = 2 ^ code ∧ t.rd Reg.PWR_LAST_WAKE_FROM = s.pwrState ∧ t.rd64 Reg.PWR_LAST_WAKE_TIME_LO Reg.PWR_LAST_WAKE_TIME_HI = s.steepleTime % 2 ^ 64 ∧
          t.pwr.exitAt = s.now) ∧
        (s.pwrPhase = 1 → 1 ≤ s.pwrTarget → s.pwrTarget ≤ 3 → ∃ t, exec i s = .next t ∧ t.pwr.latched = s.pwr.latched ||| 2 ^ code ∧ t = { s with pwr := t.pwr }))) ∧
    (s.board.mainRunning = false → exec .mgmtMessageWake s = .next s) ∧
    (s.board.vaux = false → s.thm.waiting = false → s.thm.trip = none → exec .wakeNLow s = .next s) ∧
    (s.board.vaux = true → s.pwrState = 4 → s.thm.waiting = false → s.thm.trip = none → exec .wakeNLow s = .next (s.offWake s.steepleTime)) ∧
    (s.board.vaux = false ∨ s.pwrState ≠ 4 → exec .offMgmtTransaction s = .next s) ∧
    (s.board.vaux = true → s.pwrState = 4 → ∃ t, exec .offMgmtTransaction s = .next t ∧ t = { s with pwr := { s.pwr with offMgmt := some s.now } }) ∧
    ((∀ t, s.pwr.offMgmt = some t → s.now < t + 10000000000) → exec .offBelfryHalt s = .next s) ∧
    (∀ t, s.pwr.offMgmt = some t → t + 10000000000 ≤ s.now → ∃ u, exec .offBelfryHalt s = .next u ∧ u = { s with pwr := { s.pwr with offMgmt := none } }) ∧
    (let due := s.pwrPhase = 0 ∧ 1 ≤ s.pwrState ∧ s.pwrState ≤ 3 ∧ s.force Reg.PWR_WAKE_TIMER_S ≠ 0 ∧ s.pwr.timerDone = false ∧
        s.pwr.steadyAt + s.force Reg.PWR_WAKE_TIMER_S * 1000000000 ≤ s.now + 10000000;
      (¬ due → exec .wakeTimerExpiry s = .next s) ∧
      (due → (s.force Reg.PWR_CFG_WAKE_MASK).testBit 5 = true → ∃ t, exec .wakeTimerExpiry s = .next t ∧ t.pwrPhase = 2 ∧ t.rd Reg.PWR_LAST_WAKE_SOURCE = 6 ∧ t.pwr.timerDone = true)) ∧
    (∀ (lanes : List (Fin 16)) (codes : List (Nat × Nat × Nat)),
      (s.pwrPhase ≠ 2 → exec (.exitComplete lanes codes) s = .next s.settleDma) ∧
      (s.pwrPhase = 2 → ∃ v : State, exec (.exitComplete lanes codes) s =
          .next (State.settleDma (s.pwr.portResets.foldl State.portReset (s.pwr.doorbells.foldl (fun t d => State.sqDoorbell t d.1 d.2.1 d.2.2) v))) ∧
        v.pwrState = 0 ∧ v.pwrPhase = 0 ∧ v.pwrTarget = 0 ∧ v.rd Reg.PWR_STATUS_PS = s.pwr.fromPs % 8 ∧ v.nvme.fetchStopped = false ∧ v.evtStatus 1752 = true ∧
        v.pwr.doorbells = [] ∧ v.pwr.portResets = [])) ∧
    (let due := s.board.pfiLow = true ∧ s.board.pfiReport = false ∧ s.board.mainRunning = true ∧ s.board.pfiSince + s.rd Reg.MNT_PFI_CFG_FILTER_NS ≤ s.now + 25;
      (¬ due → exec .lossReport s = .next s) ∧
      (due → ∃ w : State, w.board.pfiReport = true ∧ w.rd Reg.MNT_STATUS_LOSS = 1 ∧
        (s.pwrState = 0 → w.evtStatus 1736 = true ∧ exec .lossReport s =
          .next (let l := State.lossFlush w 0; if l.strings.all fun k => !(l.str k).counted then State.storeEmpty l else l)) ∧
        (s.pwrState ≠ 0 → exec .lossReport s = .next (State.kill w 0)))) ∧
    (s.board.pfiReport = false ∨ s.board.pfiLow = true ∨ s.now < s.board.pfiSince + 10000000 → exec .powerRestored s = .next s) ∧
    (s.board.pfiReport = true → s.board.pfiLow = false → s.board.pfiSince + 10000000 ≤ s.now → ∃ t, exec .powerRestored s = .next t ∧ t.board = { s.board with pfiReport := false } ∧
      t.evtStatus 1737 = true ∧ t.ftl = s.ftl ∧ t.win = s.win) ∧
    (s.thm.trip = none ∨ s.thm.killed = true ∨ s.ftl.flush.kind = 0 ∨ s.now < s.thm.tripAt + 400000000 → exec .coolFlushDeadline s = .next s) ∧
    (s.thm.trip ≠ none → s.thm.killed = false → s.ftl.flush.kind ≠ 0 → s.thm.tripAt + 400000000 ≤ s.now → ∃ t, exec .coolFlushDeadline s = .next t ∧ t.board.pwrKill = true ∧
      t.board.mainPg = false ∧ t.board.railStage = 0)

/-- Slot 1 has no period in the 100 ns after a loss report. At a sample instant a carrier period begins with its falling
edges placed; an OFF slot does no more, one whose work has not ended counts an overrun, sets its flag and is BYPASSED
at the sixteenth skip in a row, another requests its conversions. A computation shows its duties, prediction,
set-point and latency, and an output in RUN stays within the duty limits. The high and the low side of a pair are
never high together. CHARGE_LIMITED begins 2 s after slot 0 entered HEADROOM and ends 1 s after it left. BYPASS is the
Belfry's to write; the hosts do not write the targets of slots 0 and 1; W1C clears flags but not those arriving; ARM,
TRIGGER and STOP act on the trace; MNT_FAULT_N forces every slot to duty 0. -/
def Obligations.MantleLoopsSampleComputeAndStop : Prop :=
  (∀ (i : Fin 4) (s : State),
    (s.mainUp = false → exec (.mntSampleInstant i) s = .next s ∧ (∀ codes wait, exec (.mntPeriodCompute i codes wait) s = .next s) ∧ exec .chargeLimitedTimer s = .next s ∧
      ∃ t, exec .mntFaultNFall s = .next t ∧ t.board.faultN = false ∧ t = { s with board := t.board }) ∧
    (s.mainUp = true → s.tooEarly i.val = true → exec (.mntSampleInstant i) s = .next s) ∧
    (s.mainUp = true → s.tooEarly i.val = false → s.fitPending (2 + i.val) = false → s.loopForced i.val = false → (s.loop i.val).change = none →
      (s.loopState i.val = 0 → ∃ t, exec (.mntSampleInstant i) s = .next t ∧ (t.loop i.val).fall = (s.loop i.val).d.map (fun d => d * s.carrier i.val / 65536) ∧
        (t.loop i.val).carrierAt = s.mantleClock - s.rd (Reg.MNT_PWM_CFG_SAMPLE_OFS i.val) ∧ t = { s with mnt := t.mnt }) ∧
      (s.loopState i.val ≠ 0 → (s.loop i.val).sampled.isSome = true ∨ s.mantleClock < (s.loop i.val).workEnd → ∃ t, exec (.mntSampleInstant i) s = .next t ∧
        t.rd (Reg.MNT_OVERRUNS_COUNT i.val) = min (2 ^ (Reg.MNT_OVERRUNS_COUNT i.val).width - 1) (s.rd (Reg.MNT_OVERRUNS_COUNT i.val) + 1) ∧
        (t.reg (Reg.MNT_LOOP_FLAGS i.val)).getLsbD 5 = true ∧ (t.loop i.val).sampled = (s.loop i.val).sampled ∧
        t.loopState i.val = (if 15 ≤ (s.loop i.val).skips ∧ (s.loopState i.val = 1 ∨ s.loopState i.val = 2) then 3 else s.loopState i.val) ∧
        (15 ≤ (s.loop i.val).skips → s.loopState i.val = 1 ∨ s.loopState i.val = 2 → t.rd (Reg.MNT_LOOP_STATUS_FAULT i.val) = 1)) ∧
      (s.loopState i.val ≠ 0 → (s.loop i.val).sampled = none → (s.loop i.val).workEnd ≤ s.mantleClock → ∃ t, exec (.mntSampleInstant i) s = .next t ∧
        (t.loop i.val).sampled = some s.mantleClock ∧ (t.loop i.val).skips = 0 ∧ t.loopState i.val = s.loopState i.val)) ∧
    (s.mainUp = true → ∀ (codes : List (Fin 16384)) (wait : Nat),
      ((s.loop i.val).sampled = none → exec (.mntPeriodCompute i codes wait) s = .next s) ∧
      (∀ clock, (s.loop i.val).sampled = some clock → s.lossReported = false →
        let o := s.loopCompute i.val (codes.map fun c => c.val)
        let n := s.plantN i.val 1 1
        let p := s.plantN i.val 3 1
        let lat := latency (s.plantN i.val 2 1) n (p - 1) wait
        o.rail = false → ∃ t, exec (.mntPeriodCompute i codes wait) s = .next t ∧ t.rd (Reg.MNT_PERIODS_COUNT i.val) = (s.rd (Reg.MNT_PERIODS_COUNT i.val) + 1) % 2 ^ (Reg.MNT_PERIODS_COUNT i.val).width ∧
          t.rd (Reg.MNT_LATENCY_LAST i.val) = lat % 2 ^ (Reg.MNT_LATENCY_LAST i.val).width ∧ t.rdSigned (Reg.MNT_SETPOINT_RS i.val) = o.next.rs ∧
          t.rdSigned (Reg.MNT_Z_VALUE i.val) = o.next.z ∧ (t.loop i.val).sampled = none ∧ (t.loop i.val).workEnd = clock + lat + 2 * (n + p + 1) + 20 ∧
          (t.loop i.val).xh = o.next.xh ∧ (t.loop i.val).d = o.next.d ∧
          (∀ k, k < 2 → k < p → s.loopState i.val = 2 → s.loopForced i.val = false →
            (s.dutyLim i.val).1 ≤ o.next.d.getD k 0 ∧ o.next.d.getD k 0 ≤ (s.dutyLim i.val).2) ∧
          (s.loopState i.val = 2 → o.satAny = true → o.next.z = sat (s.loop i.val).z))) ∧
    (∀ (agent : Fin 8) (data : Word),
      (s.answers (Reg.MNT_LOOP_CTL i.val) = false ∨ agent.val ≠ 4 → exec (.mntLoopBypassWrite agent i data) s = .next s) ∧
      (s.answers (Reg.MNT_LOOP_CTL i.val) = true → agent.val = 4 → ∃ t, exec (.mntLoopBypassWrite agent i data) s = .next t ∧
        t.rd (Reg.MNT_LOOP_CTL_BYPASS i.val) = bit (data.getLsbD 0) ∧ (t.loop i.val).change = some (data.getLsbD 0) ∧ t.loopState i.val = s.loopState i.val) ∧
      (s.answers (Reg.MNT_TARGET i.val) = false ∨ i.val = 1 ∨ (i.val = 0 ∧ (agent.val ≤ 3 ∨ agent.val = 5)) → exec (.mntTargetWrite agent i data) s = .next s) ∧
      (s.answers (Reg.MNT_TARGET i.val) = true → i.val ≠ 1 → i.val ≠ 0 ∨ agent.val = 4 ∨ 6 ≤ agent.val → ∃ t, exec (.mntTargetWrite agent i data) s = .next t ∧
        t.reg (Reg.MNT_TARGET i.val) = data ∧ t = { s with regs := t.regs }) ∧
      (∀ arriving : Word, s.answers (Reg.MNT_LOOP_FLAGS i.val) = true → ∃ t, exec (.mntLoopFlagsClear agent i data arriving) s = .next t ∧
        t.reg (Reg.MNT_LOOP_FLAGS i.val) = (s.reg (Reg.MNT_LOOP_FLAGS i.val) &&& ~~~(data &&& ~~~arriving &&& 0xFF#32)) ||| (arriving &&& 0xFF#32)) ∧
      (∀ x, x ∈ [Instr.mntTrcArm agent i data, .mntTrcTrigger agent i data, .mntTrcStop agent i data] → s.answers (Reg.MNT_TRC_CTL i.val) = false → exec x s = .next s) ∧
      (∀ arriving, s.answers (Reg.MNT_LOOP_FLAGS i.val) = false → exec (.mntLoopFlagsClear agent i data arriving) s = .next s) ∧
      (s.answers (Reg.MNT_TRC_CTL i.val) = true →
        (data.getLsbD 30 = false → data.getLsbD 29 = false → ∃ t, exec (.mntTrcArm agent i data) s = .next t ∧ (t.loop i.val).recording = true ∧ (t.loop i.val).taken = 0 ∧
          t.reg (Reg.MNT_TRC_STATUS i.val) = 0x80000000#32) ∧
        (data.getLsbD 31 = false → data.getLsbD 29 = false → ∃ t u : State, exec (.mntTrcTrigger agent i data) s = .next t ∧
          u = State.setReg s (Reg.MNT_TRC_CTL i.val) (data &&& 0x1FF03FFF#32) ∧
          ((s.loop i.val).recording = true → u.trcMode i.val = 1 → u.trcSrc i.val = 0 → s.rd (Reg.MNT_TRC_STATUS_TRIGGERED i.val) = 0 →
            t.rd (Reg.MNT_TRC_STATUS_TRIGGERED i.val) = 1 ∧ t.rd (Reg.MNT_TRC_STATUS_TRIG_INDEX i.val) = s.rd (Reg.MNT_TRC_STATUS_INDEX i.val) ∧
            ((t.loop i.val).recording = decide (u.rd (Reg.MNT_TRC_CTL_POST i.val) ≠ 0))) ∧
          ((s.loop i.val).recording = false ∨ u.trcMode i.val ≠ 1 ∨ u.trcSrc i.val ≠ 0 → t = u)) ∧
        ∃ t, exec (.mntTrcStop agent i data) s = .next t ∧ (t.loop i.val).recording = false ∧ t.rd (Reg.MNT_TRC_STATUS_DONE i.val) = 1 ∧ t.rd (Reg.MNT_TRC_STATUS_RUNNING i.val) = 0))) ∧
  (∀ s : State, s.mainUp = true →
    (∀ t, (s.loop 0).headAt = some t → s.rd (Reg.MNT_LOOP_STATUS_CHARGE_LIMITED 0) = 1 ∨ s.now < t + 2000000000 → exec .chargeLimitedTimer s = .next s) ∧
    (∀ t, (s.loop 0).headAt = some t → s.rd (Reg.MNT_LOOP_STATUS_CHARGE_LIMITED 0) = 0 → t + 2000000000 ≤ s.now → ∃ u, exec .chargeLimitedTimer s = .next u ∧
      u.rd (Reg.MNT_LOOP_STATUS_CHARGE_LIMITED 0) = 1 ∧ u.evtStatus 1739 = true) ∧
    ((s.loop 0).headAt = none → s.rd (Reg.MNT_LOOP_STATUS_CHARGE_LIMITED 0) = 1 → (s.loop 0).outAt + 1000000000 ≤ s.now → ∃ u, exec .chargeLimitedTimer s = .next u ∧
      u.rd (Reg.MNT_LOOP_STATUS_CHARGE_LIMITED 0) = 0 ∧ u.evtStatus 1739 = true) ∧
    ((s.loop 0).headAt = none → s.rd (Reg.MNT_LOOP_STATUS_CHARGE_LIMITED 0) = 0 ∨ s.now < (s.loop 0).outAt + 1000000000 → exec .chargeLimitedTimer s = .next s) ∧
    ∃ t, exec .mntFaultNFall s = .next t ∧ t.board.faultN = false ∧ t.evtStatus 1742 = true ∧
      ∀ i, i < 4 → t.loopForced i = true ∧ t.rd (Reg.MNT_DUTY_D0 i) = 0 ∧ t.rd (Reg.MNT_DUTY_D1 i) = 0 ∧ (t.loop i).d = [0, 0] ∧ (t.reg (Reg.MNT_LOOP_FLAGS i)).getLsbD 7 = true) ∧
  ∀ (map hi lo dt p fall : Nat), hi < lo → lo < 8 → ((List.range 8).filter fun k => map.testBit k) = [hi, lo] →
    pinSpan map hi dt p fall = some (dt, fall) ∧ pinSpan map lo dt p fall = some (fall + dt, p) ∧
      ∀ step, ¬ ((dt ≤ step ∧ step < fall) ∧ (fall + dt ≤ step ∧ step < p))

/-- A sample stores each string's voltage and current and counts its charge; a temperature sample its temperature. The
estimate shows each string's share and the sum of those that count, less a tenth. Charge control is off with slot 0,
goes from bulk to taper where a string reaches its voltage, and to full below 5 % of full scale, where every connected
string is full. START by the Belfry alone marks a learning of a fitted string pending and excludes it; ABORT ends a
pending one and sends a running one to its recharge. The discharge begins when the charge is full, the string rests
and the window fits; its load goes off at its end; after the rest the path closes and it recharges; back at its charge
the exclusion ends, with 1,741 at both ends. The compatibility record is written in ICX-1280 mode after a learning, or
once in 10 min. -/
def Obligations.StringsAreSampledChargedAndLearnt : Prop :=
  ∀ s : State,
    let k := s.learnString
    (s.mainUp = false → ∀ i ∈ [.mntStringSample [], .mntTempSample [], .mntEnergyCompute, .mntChargeControl, .learnDischargeBegin, .learnDischargeEnd, .learnRestEnd, .learnRechargeDone],
      exec i s = .next s) ∧
    (s.mainUp = true →
      (∀ codes : List (Fin 16384 × Fin 16384), s.lossReported = false → ∃ t, exec (.mntStringSample codes) s = .next t ∧
        ∀ j ∈ s.strings, ∀ c, codes[j]? = some c → (t.str j).mv = c.1.val * 60000 / 16384 ∧ (t.str j).ma = s.codeMa j c.2.val ∧
          (t.str j).total = (s.str j).total + s.codeMa j c.2.val ∧ (t.str j).sampledAt = s.now ∧ t.rd (Reg.MNT_STR_VI_MV j) = c.1.val * 60000 / 16384) ∧
      (∀ codes : List (Fin 16384), ∃ t, exec (.mntTempSample codes) s = .next t ∧
        ∀ j ∈ s.strings, ∀ c, codes[j]? = some c → (t.str j).temp = if s.strCfg j 26 = 0xFF then 400 else codeTemp c.val) ∧
      (s.takesHold = false ∨ s.learnState ≠ 2 → ∃ t, exec .mntEnergyCompute s = .next t ∧
        let share (j : Nat) : Int := if s.counts j then max 0 (s.strEnergy j) else 0
        (∀ j, j < 4 → t.rd (Reg.MNT_STR_ENERGY_MJ j) = (if s.fitted j then (share j * 9 / 10 / 1000).toNat % 2 ^ 32 else 0)) ∧
        t.rd Reg.MNT_EUSE_MJ = ((s.strings.map share).sum * 9 / 10 / 1000).toNat % 2 ^ 32 ∧ t = { s with regs := t.regs }) ∧
      (s.loopState 0 = 0 → ∃ t, exec .mntChargeControl s = .next t ∧ t.rd Reg.MNT_STATUS_CHG_PHASE = 0 ∧ t = { s with regs := t.regs }) ∧
      (s.loopState 0 ≠ 0 →
        let current := (s.connectedStrings.map fun j => (s.str j).ma).sum
        (s.rd Reg.MNT_STATUS_CHG_PHASE = 1 → ∃ t, exec .mntChargeControl s = .next t ∧ t.rd Reg.MNT_STATUS_CHG_PHASE = if s.taperNow then 2 else 1) ∧
        (s.rd Reg.MNT_STATUS_CHG_PHASE = 2 → ∃ t, exec .mntChargeControl s = .next t ∧ t.rd Reg.MNT_STATUS_CHG_PHASE = (if 100 * current < 5 * (s.iFs0 : Int) then 3 else 2) ∧
          (100 * current < 5 * (s.iFs0 : Int) → ∀ j ∈ s.connectedStrings, (t.str j).soc = 1000000000 ∧ (t.str j).count = 0))) ∧
      (let ready := s.learnState = 1 ∧ s.learnReady = true ∧ s.strFaulted k = false;
        (¬ ready → exec .learnDischargeBegin s = .next s) ∧
        (ready → ∃ t, exec .learnDischargeBegin s = .next t ∧ t.learnState = 2 ∧ t.learnString = k ∧ t.connected k = false ∧ t.board.belGpio.testBit (4 + k) = true ∧ t.evtStatus 1741 = true ∧
          t.mnt.learn = some ⟨s.now, s.socNow k, (s.str k).total, false, (s.str k).temp, (s.str k).temp, true⟩)) ∧
      (s.mnt.learn = none → ∀ i ∈ [.learnDischargeEnd, .learnRestEnd, .learnRechargeDone], exec i s = .next s) ∧
      (∀ l, s.mnt.learn = some l →
        (let ends := s.learnState = 2 ∧ l.load = true ∧ (if k = 3 then s.emptyUnderLoad k = true else s.socNow k ≤ 500000000);
          (¬ ends → exec .learnDischargeEnd s = .next s) ∧
          (ends → ∃ t, exec .learnDischargeEnd s = .next t ∧ t.mnt.learn = some { l with load := false, since := s.now } ∧ t.board.belGpio.testBit (4 + k) = false ∧ t.regs = s.regs)) ∧
        (let rested := s.learnState = 2 ∧ l.load = false ∧ s.atRest k = true;
          (¬ rested → exec .learnRestEnd s = .next s) ∧
          (rested → ∃ t, exec .learnRestEnd s = .next t ∧ t.learnState = 3 ∧ (k ≠ 3 → t.mnt = s.mnt ∧ (s.rd (Reg.MNT_STR_LEARN_FAULT k) = 0 → t.connected k = true)) ∧
            (k = 3 → l.bad = true → t.rd (Reg.MNT_STR_LEARN_LAST 3) = 3))) ∧
        (let full := s.learnState = 3 ∧ l.soc ≤ s.socNow k;
          (¬ full → exec .learnRechargeDone s = .next s) ∧
          (full → ∃ t, exec .learnRechargeDone s = .next t ∧ t.learnState = 0 ∧ t.excluded k = false ∧ t.mnt.learn = none ∧ t.evtStatus 1741 = true)))) ∧
    (∀ (a : Fin 8) (data : Word),
      (s.answers Reg.MNT_LEARN_CTL = false → exec (.mntLearnStart a data) s = .next s ∧ exec (.mntLearnAbort a data) s = .next s) ∧
      (s.answers Reg.MNT_LEARN_CTL = true →
        (a.val ≠ 4 → ∀ i ∈ [.mntLearnStart a data, .mntLearnAbort a data], ∃ t, exec i s = .next t ∧ t.rd Reg.MNT_LEARN_CTL_STRING = bitsOf data 0 2 ∧
          t.learnState = s.learnState ∧ t = { s with regs := t.regs }) ∧
        (a.val = 4 → data.getLsbD 30 = false → s.learnState = 0 → s.fitted (bitsOf data 0 2) = true → s.lossReported = false → ∃ t, exec (.mntLearnStart a data) s = .next t ∧
          t.learnState = 1 ∧ t.learnString = bitsOf data 0 2 ∧ t.excluded (bitsOf data 0 2) = true) ∧
        (a.val = 4 → data.getLsbD 31 = false →
          (s.learnState = 0 ∨ s.learnState = 3 → ∃ t, exec (.mntLearnAbort a data) s = .next t ∧ t.learnState = s.learnState ∧ t.mnt = s.mnt) ∧
          (s.learnState = 1 → ∃ t, exec (.mntLearnAbort a data) s = .next t ∧ t.learnState = 0 ∧ t.excluded k = false ∧ t.rd (Reg.MNT_STR_LEARN_LAST k) = 4) ∧
          (s.learnState = 2 → ∃ t, exec (.mntLearnAbort a data) s = .next t ∧ t.learnState = 3 ∧ t.rd (Reg.MNT_STR_LEARN_LAST k) = 4 ∧ t.board.belGpio.testBit (4 + k) = false ∧
            ∀ l, t.mnt.learn = some l → l.load = false ∧ l.bad = true)))) ∧
    ∀ learning : Bool,
      (s.rd Reg.MNT_STATUS_COMPAT = 0 ∨ (learning = false ∧ ∃ t, s.mnt.compatAt = some t ∧ s.now < t + 600000000000) → exec (.compatRecordWrite learning) s = .next s) ∧
      (s.rd Reg.MNT_STATUS_COMPAT = 1 → learning = true ∨ s.mnt.compatAt = none → ∃ t c, exec (.compatRecordWrite learning) s = .next t ∧ t.mnt.compat = some c ∧
        c.2 = (List.range 4).map (fun j => (s.rd (Reg.MNT_STR_CYCLES_MILLI j), (s.str j).rt)) ∧ t.mnt.compatAt = some s.now ∧
        c.1 = match s.mnt.compat with | some x => x.1 + 1 | none => 1)

/-- A corrected line is counted, its address, kind and symbol shown, with the channel's error source; an uncorrectable one
likewise, and one of the map regions waits for its rebuild, whose second without an end is a warm restart. A queued
write answers a read. A refresh tick keeps every bank within 8 owed and 8 ahead, and is counted as forced only where a
bank owed 8. MR4 shows its code and derating. Tracking adjusts from two steps on, and at 16 sets TRACK_LIMIT and asks
for a retrain. A scrub read runs at its pace and moves the pass. A first training failure trains once more; a second
retires the channel. A retrain that ends returns the channel to service. A test command outside region 7 is refused;
within it the line written is what is read back, corrected where one symbol is wrong. -/
def Obligations.DramReadsRefreshTracksAndTests : Prop :=
  ∀ s : State,
    (s.mainUp = false → ∀ i ∈ [.dramReadReturn 0 false 0 0 none false, .dramLineRebuildTimeout, .dramRefreshTick 0 0 [], .dramMr4Poll 0 0, .dramWck2dqiTrack 0 0 0,
      .dramScrubRead 0 true 0 0, .dramTrainingFail 0, .dramRetrainDone 0 true, .writeData, .writeCheck, .writeBoth, .readRaw, .drcTestRead 0 0], exec i s = .next s) ∧
    (s.mainUp = true →
      (∀ (a : Nat) (sub : Bool) (outcome : Fin 3) (symbol : Fin 36) (copy : Option Nat) (resend : Bool),
        let l := s.dramLine a
        let i : Instr := .dramReadReturn a sub outcome symbol copy resend
        (s.usableDram ≤ a ∨ s.rd (Reg.DRC_STATUS_STATE l.1) ≠ 1 → exec i s = .next s) ∧
        (a < s.usableDram → s.rd (Reg.DRC_STATUS_STATE l.1) = 1 →
          (s.lineWritten a = false ∨ (s.forwarded l.1 l.2).isSome = true → exec i s = .next s.settleDma) ∧
          (s.lineWritten a = true → s.forwarded l.1 l.2 = none → s.remapped l.1 l.2 = false → s.dram.rebuilds = [] →
            let region := (s.regionOf (s.lineAddr l.1 l.2)).getD 7
            let shown (v : State) (kind sym : Nat) : Prop := v.rd (Reg.DRC_ERR_ADDR_LINE l.1) = l.2 % 2 ^ 32 ∧ v.rd (Reg.DRC_ERR_INFO_KIND l.1) = kind ∧
              v.rd (Reg.DRC_ERR_INFO_SOURCE l.1) = (if sub then 2 else 0) ∧ v.rd (Reg.DRC_ERR_INFO_SYMBOL l.1) = sym ∧ v.evtStatus (1656 + 2 * l.1) = true
            (outcome.val = 1 → ∃ v : State, exec i s = .next (State.settleDma v) ∧ shown v 1 symbol.val ∧
              v.rd (Reg.DRC_ECC_CORR_COUNT l.1) = min (2 ^ (Reg.DRC_ECC_CORR_COUNT l.1).width - 1) (s.rd (Reg.DRC_ECC_CORR_COUNT l.1) + 1)) ∧
            (outcome.val = 2 → region ≠ 0 → copy = none → ((s.drch l.1).unc.filter fun t => s.now < t + 1000000000).length < 63 → ∃ v : State,
              exec i s = .next (State.settleDma v) ∧ shown v 2 0x3F ∧ v.dram.rebuilds = (if region ≤ 4 then [(l.1, l.2, s.now)] else []) ∧
              v.rd (Reg.DRC_ECC_UNCORR_COUNT l.1) = min (2 ^ (Reg.DRC_ECC_UNCORR_COUNT l.1).width - 1) (s.rd (Reg.DRC_ECC_UNCORR_COUNT l.1) + 1))))) ∧
      ((∀ e ∈ s.dram.rebuilds, s.now < e.2.2 + 1000000000) ∨ s.ftl.flush.kind ≠ 0 → exec .dramLineRebuildTimeout s = .next s) ∧
      (∀ e ∈ s.dram.rebuilds, e.2.2 + 1000000000 ≤ s.now → s.ftl.flush.kind = 0 → exec .dramLineRebuildTimeout s = .next (s.warmFlush false true)) ∧
      (∀ (ch : Fin 24),
        let up := s.rd (Reg.DRC_STATUS_STATE ch.val) = 1
        (¬ up → (∀ due busy, exec (.dramRefreshTick ch due busy) s = .next s) ∧ (∀ m, exec (.dramMr4Poll ch m) s = .next s) ∧ ∀ d e, exec (.dramWck2dqiTrack ch d e) s = .next s) ∧
        (up → ∀ (due : Fin 32) (busy : List (Fin 32)),
          let banks := 16 * s.cfg 0x50 0 3
          let owed (t : State) (b : Nat) : Nat := mapGet (fun _ => 8) (t.drch ch.val).owed b
          (∀ b, b < banks → owed s b ≤ 16) → ∃ t, exec (.dramRefreshTick ch due busy) s = .next t ∧ (∀ b, b < banks → owed t b ≤ 16) ∧
            t.rd (Reg.DRC_REFRESH_OWED_MAX ch.val) = maxOf ((List.range banks).map fun b => owed t b - 8) ∧
            ((∀ b, b < banks → owed s b < 15) → t.rd (Reg.DRC_REFRESH_FORCED ch.val) = s.rd (Reg.DRC_REFRESH_FORCED ch.val)) ∧
            (∀ b, b < banks → owed t b ≤ owed s b + 1)) ∧
        (up → ∀ m : Fin 32, ∃ t, exec (.dramMr4Poll ch m) s = .next t ∧ t.rd (Reg.DRC_REFRESH_MR4 ch.val) = m.val ∧
          t.rd (Reg.DRC_STATUS_DERATED ch.val) = (if (10 ≤ m.val ∧ m.val ≤ 15) ∨ m.val = 31 then 1 else 0) ∧ (m.val = 31 → t.evtStatus (1656 + 2 * ch.val) = true) ∧
          t.rd (Reg.DRC_REFRESH_FORCED ch.val) = s.rd (Reg.DRC_REFRESH_FORCED ch.val)) ∧
        (up → ∀ d e : Fin 256,
          let w := s.rd (Reg.DRC_TRACK_WRITE ch.val)
          let r := s.rd (Reg.DRC_TRACK_READ ch.val)
          let w1 := if 2 ≤ (signed 8 d.val).natAbs then addTrack w (signed 8 d.val) else w
          let r1 := addTrack r (signed 8 e.val)
          let far := 16 ≤ (signed 8 w1).natAbs ∨ 16 ≤ (signed 8 r1).natAbs
          ∃ t, exec (.dramWck2dqiTrack ch d e) s = .next t ∧ t.rd (Reg.DRC_TRACK_WRITE ch.val) = w1 ∧ t.rd (Reg.DRC_TRACK_READ ch.val) = r1 ∧
            (far → t.rd (Reg.DRC_STATUS_TRACK_LIMIT ch.val) = 1 ∧
              (s.rd (Reg.DRC_STATUS_TRACK_LIMIT ch.val) = 0 → (t.drch ch.val).want = true ∧ t.evtStatus (1656 + 2 * ch.val) = true)) ∧
            (¬ far → t.drch ch.val = s.drch ch.val ∧ t.rd (Reg.DRC_STATUS_TRACK_LIMIT ch.val) = s.rd (Reg.DRC_STATUS_TRACK_LIMIT ch.val))) ∧
        (∀ (idle : Bool) (outcome : Fin 3) (symbol : Fin 36),
          let n := s.scrubLines ch.val
          let x := s.drch ch.val
          let t0 := x.passAt.getD s.now
          let runs := s.phase = 0xB ∧ s.actRuns 3 ch.val = true ∧ up
          (s.chanUp ch.val = false → exec (.dramScrubRead ch idle outcome symbol) s = .next s) ∧
          (s.chanUp ch.val = true → ¬ runs ∨ n = 0 ∨ s.now < t0 + x.pass * s.scrubNs / n → exec (.dramScrubRead ch idle outcome symbol) s = .next s.settleDma) ∧
          (s.chanUp ch.val = true → runs → n ≠ 0 → t0 + x.pass * s.scrubNs / n ≤ s.now → idle = true → x.reads = [] → outcome.val = 0 → s.dram.rebuilds = [] → ∃ v : State,
            exec (.dramScrubRead ch idle outcome symbol) s = .next (State.settleDma v) ∧ (v.drch ch.val).pass = (if x.pass + 1 = n then 0 else x.pass + 1) ∧
            (x.pass + 1 = n → v.rd (Reg.DRC_SCRUB_PASSES ch.val) = min 65535 (s.rd (Reg.DRC_SCRUB_PASSES ch.val) + 1) ∧ (v.drch ch.val).passAt = some (t0 + s.scrubNs)) ∧
            (x.pass + 1 ≠ n → v.rd (Reg.DRC_SCRUB_PROGRESS ch.val) = (x.pass + 1) * 65536 / n % 65536 ∧ (v.drch ch.val).passAt = some t0))) ∧
        (let training := s.chanUp ch.val = true ∧ s.rd (Reg.DRC_STATUS_STATE ch.val) = 0 ∧ 5 ≤ s.phase ∧ s.phase ≤ 7;
          (¬ training → exec (.dramTrainingFail ch) s = .next s) ∧
          (training → (s.drch ch.val).fails = 0 → ∃ t, exec (.dramTrainingFail ch) s = .next t ∧ (t.drch ch.val).fails = 1 ∧ t.evtStatus (1656 + 2 * ch.val) = true ∧ t.life = s.life) ∧
          (training → (s.drch ch.val).fails ≠ 0 → 4 ≤ s.life.channels.length → ∃ t, exec (.dramTrainingFail ch) s = .next t ∧ t.rd (Reg.DRC_STATUS_STATE ch.val) = 6 ∧
            t.rd Reg.BEL_BOOT_STATUS_ERROR = 6 ∧ t.life = s.life) ∧
          (training → (s.drch ch.val).fails ≠ 0 → s.life.channels.length < 4 → ∃ w : State, exec (.dramTrainingFail ch) s = .next (State.warmFlush w false false) ∧
            ch.val ∈ w.life.channels ∧ w.rd (Reg.DRC_STATUS_STATE ch.val) = 6)) ∧
        ((s.drch ch.val).retrain = none → ∀ ok, exec (.dramRetrainDone ch ok) s = .next s.settleDma) ∧
        (∀ t, (s.drch ch.val).retrain = some t → (∀ a ∈ s.maint.acts, a.code ≠ 4) →
          (∃ v : State, exec (.dramRetrainDone ch true) s = .next (State.settleDma v) ∧ (v.drch ch.val).retrain = none ∧ v.rd (Reg.DRC_STATUS_STATE ch.val) = 1 ∧
            v.rd (Reg.DRC_TRACK_WRITE ch.val) = 0 ∧ v.rd (Reg.DRC_TRACK_READ ch.val) = 0 ∧ v.rd (Reg.DRC_STATUS_TRACK_LIMIT ch.val) = 0) ∧
          ((s.drch ch.val).tries = 0 → ∃ v : State, exec (.dramRetrainDone ch false) s = .next (State.settleDma v) ∧ (v.drch ch.val).retrain = some t ∧ (v.drch ch.val).tries = 1 ∧
            v.evtStatus (1656 + 2 * ch.val) = true))) ∧
      -- ECC test mode
      (let result (t : State) (refused outcome symbol : Nat) : Prop := t.rd Reg.DRC_TEST_RES_DONE = 1 ∧ t.rd Reg.DRC_TEST_RES_REFUSED = refused ∧
        t.rd Reg.DRC_TEST_RES_OUTCOME = outcome ∧ t.rd Reg.DRC_TEST_RES_SYMBOL = symbol;
        (s.inTestRegion = false → ∀ i ∈ [.writeData, .writeCheck, .writeBoth], ∃ t, exec i s = .next t ∧ result t 1 0 0x3F ∧ t.dram = s.dram) ∧
        (s.inTestRegion = true →
          (∃ t, exec .writeBoth s = .next t ∧ result t 0 0 0x3F ∧ t.storedLine s.testLine = some (s.testData ++ checkBytes s.testData)) ∧
          (∀ b, s.storedLine s.testLine = some b →
            (∃ t, exec .writeData s = .next t ∧ result t 0 0 0x3F ∧ t.storedLine s.testLine = some (s.testData ++ b.drop 64)) ∧
            (∃ t, exec .writeCheck s = .next t ∧ result t 0 0 0x3F ∧ t.storedLine s.testLine = some (b.take 64 ++ s.testCheck)) ∧
            (∃ t, exec .readRaw s = .next t ∧ result t 0 0 0x3F ∧ t.dram = s.dram ∧ (∀ k, k < 16 → t.reg (Reg.DRC_TEST_DATA k) = BitVec.ofNat 32 (leAt (b.take 64) (4 * k) 4)) ∧
              ∀ k, k < 2 → t.reg (Reg.DRC_TEST_CHECK k) = BitVec.ofNat 32 (leAt (b.drop 64) (4 * k) 4)) ∧
            (∀ (outcome : Fin 3) (symbol : Fin 36),
              (rsDecode (codeword (b.take 64) (b.drop 64)) = .clean → ∃ t, exec (.drcTestRead outcome symbol) s = .next t ∧ result t 0 0 0x3F ∧
                ∀ k, k < 16 → t.reg (Reg.DRC_TEST_DATA k) = BitVec.ofNat 32 (leAt (b.take 64) (4 * k) 4)) ∧
              (∀ k e, rsDecode (codeword (b.take 64) (b.drop 64)) = .corrected k e → ∃ t, exec (.drcTestRead outcome symbol) s = .next t ∧ result t 0 1 k ∧
                ∀ j, j < 16 → t.reg (Reg.DRC_TEST_DATA j) = BitVec.ofNat 32 (leAt ((fixLine (b.take 64) k e ++ checkBytes (fixLine (b.take 64) k e)).take 64) (4 * j) 4)) ∧
              (rsDecode (codeword (b.take 64) (b.drop 64)) = .uncorrectable → ∃ t, exec (.drcTestRead outcome symbol) s = .next t ∧ result t 0 2 0x3F))) ∧
          (s.storedLine s.testLine = none → (∃ t, exec .readRaw s = .next t ∧ result t 0 0 0x3F) ∧
            ∀ (outcome : Fin 3) (symbol : Fin 36), ∃ t, exec (.drcTestRead outcome symbol) s = .next t ∧ result t 0 outcome.val (if outcome.val = 1 then symbol.val else 0x3F) ∧ t.dram = s.dram))))

/-- The first SYNC takes a link from DETECT to ALIGN; loss of lock takes a training back to DETECT and an ACTIVE link into
RETRAIN. Eight valid TS1 with sixteen sent lead from ALIGN to CONFIG or EQUALIZE; TS2 bring the bridge's credits, and
eight with sixteen sent make the link ACTIVE. START begins the flit stream. PARK parks an ACTIVE link, a recalibration
trains it anew; an electrical idle's exit is a RETRAIN. Each state has its limit: ALIGN and CONFIG 2 ms, EQUALIZE 24
ms, RETRAIN 100 µs. The sweep measures eight presets and passes at 22 by 25. A training window that ends is DOWN,
retried after 1 s and retired after 60 s or eight entries in 24 h. JL_CTL begins a RETRAIN or a training from DETECT. -/
def Obligations.LinkTrainingFollowsItsOrderedSets : Prop :=
  ∀ (n : Fin 512) (s : State),
    let x := s.lnk n.val
    let state := s.jlState n.val
    let few := (x.retrains.filter fun t => s.now < t + 60000000000).length < 2
    -- a training from DETECT, with its window
    let detects (i : Instr) : Prop := ∃ t, exec i s = .next t ∧ t.jlState n.val = 1 ∧ t.jlRate n.val = 2 ∧ t.rd (Reg.JL_STATE_BLOCK_LOCK n.val) = 0 ∧ (t.lnk n.val).window = some (s.now + 200000000)
    let restarts (i : Instr) : Prop := ∃ t, exec i s = .next t ∧ t.jlState n.val = 1 ∧ t.jlRate n.val = 2 ∧ t.rd (Reg.JL_STATE_BLOCK_LOCK n.val) = 0
    let retrains (i : Instr) (cause : Nat) : Prop := ∃ t, exec i s = .next t ∧ t.jlState n.val = 6 ∧ t.rd (Reg.JL_STATE_LAST_CAUSE n.val) = cause ∧ (t.lnk n.val).resync = 2 ∧ (t.lnk n.val).trainAt = s.now
    let down (w : State) : State := if x.downSince.isNone then w.membersLost n.val none s else w
    let isDown (w : State) (cause : Nat) : Prop := w.evtStatus (2 * n.val) = true ∧ (s.linkRecs n.val = [] → w.jlState n.val = 8 ∧ w.jlRate n.val = 3 ∧ w.rd (Reg.JL_STATE_LAST_CAUSE n.val) = cause)
    (s.mainUp = false → ∀ (b : Block) (i : Instr), i ∈ [.jlBlockLockAcquire n, .jlBlockLockLoss n, .jlTs1 n b, .jlTs2 n b, .jlStart n, .jlPark n, .jlElectricalIdleExit n, .jlStateTimeout n,
      .jlEqualizeStep n 0 0 0 0, .jlSpeedChangeIdleEnd n, .jlTrainingWindowExpiry n, .jlDownRetry n, .jlDownRetire n, .jlCtlRetrain 4 n, .jlCtlRetrainFull 4 n] → exec i s = .next s) ∧
    (s.mainUp = true →
      (state = 1 → ∃ t, exec (.jlBlockLockAcquire n) s = .next t ∧ t.jlState n.val = 2 ∧ t.rd (Reg.JL_STATE_BLOCK_LOCK n.val) = 1 ∧ t.evtStatus (2 * n.val + 1) = true) ∧
      (2 ≤ state → state ≤ 6 → ∃ t, exec (.jlBlockLockAcquire n) s = .next t ∧ t.jlState n.val = state ∧ t.rd (Reg.JL_STATE_BLOCK_LOCK n.val) = 1) ∧
      (state = 0 ∨ 6 < state → exec (.jlBlockLockAcquire n) s = .next s) ∧
      (state ≤ 1 ∨ 6 < state → exec (.jlBlockLockLoss n) s = .next s) ∧
      (state = 5 → few → retrains (.jlBlockLockLoss n) 2) ∧
      (2 ≤ state → state ≤ 6 → state ≠ 5 → restarts (.jlBlockLockLoss n) ∧ (x.window = none → detects (.jlBlockLockLoss n))) ∧
      (∀ b : Block,
        (isSetBlock b = false → exec (.jlTs1 n b) s = .next s ∧ exec (.jlTs2 n b) s = .next s) ∧
        (isSetBlock b = true → tsValid 0x1E b.bytes = false → ∃ t, exec (.jlTs1 n b) s = .next t ∧ t.lnk n.val = { x with tsRun := 0 } ∧ t = { s with links := t.links }) ∧
        (isSetBlock b = true → tsValid 0x1E b.bytes = true →
          (state = 2 → x.tsRun < 7 ∨ s.tsSent n.val < 16 → ∃ t, exec (.jlTs1 n b) s = .next t ∧ t.jlState n.val = 2 ∧ t.lnk n.val = { x with tsRun := x.tsRun + 1 } ∧
            t.rd (Reg.JL_STATE_PARTNER_RATES n.val) = byteAt b.bytes 1 % 8) ∧
          (state = 2 → 7 ≤ x.tsRun → 16 ≤ s.tsSent n.val → ∃ t, exec (.jlTs1 n b) s = .next t ∧ t.jlState n.val = (if x.eq = true ∧ s.jlRate n.val < 2 then 4 else 3) ∧
            t.evtStatus (2 * n.val + 1) = true ∧ (t.lnk n.val).tsRun = 0) ∧
          (state = 5 → few → retrains (.jlTs1 n b) 8)) ∧
        (isSetBlock b = true → tsValid 0x2D b.bytes = false → ∃ t, exec (.jlTs2 n b) s = .next t ∧ t.lnk n.val = { x with ts2Run := 0, scRun := 0 } ∧ t = { s with links := t.links }) ∧
        (isSetBlock b = true → tsValid 0x2D b.bytes = true →
          (state ≠ 3 → state ≠ 6 → exec (.jlTs2 n b) s = .next s) ∧
          (state = 6 ∨ (state = 3 ∧ s.jlRate n.val ≠ 2) →
            (x.ts2Run < 7 ∨ s.tsSent n.val < 16 → ∃ t, exec (.jlTs2 n b) s = .next t ∧ t.jlState n.val = state ∧ (t.lnk n.val).ts2Run = x.ts2Run + 1 ∧
              t.rd (Reg.JL_PARTNER_VC0_CREDITS n.val) = byteAt b.bytes 5 % 128 ∧ t.rd (Reg.JL_CREDIT_VC0_AVAIL n.val) = min 127 (byteAt b.bytes 5) ∧
              t.rd (Reg.JL_CREDIT_VC1_AVAIL n.val) = min 127 (byteAt b.bytes 6) ∧ t.rd (Reg.JL_PARTNER_REPLAY_DEPTH n.val) = byteAt b.bytes 8) ∧
            (7 ≤ x.ts2Run → 16 ≤ s.tsSent n.val → ∃ t, exec (.jlTs2 n b) s = .next t ∧ t.jlState n.val = 5 ∧ (t.lnk n.val).resync = 2 ∧ (t.lnk n.val).window = none ∧
              (t.lnk n.val).downSince = none)))) ∧
      (state = 5 → x.resync = 2 → ∃ w : State, exec (.jlStart n) s = .next (State.pump w n.val) ∧ (w.lnk n.val).resync = 1 ∧ (w.lnk n.val).scrRx = scrSeed ∧ w.jlState n.val = 5) ∧
      (state = 3 ∨ state = 6 → 8 ≤ x.ts2Run → x.full = false → ∃ w : State, exec (.jlStart n) s = .next (State.pump w n.val) ∧ w.jlState n.val = 5 ∧ (w.lnk n.val).resync = 1 ∧
        (w.lnk n.val).scrRx = scrSeed) ∧
      ((state = 5 ∧ x.resync ≠ 2) ∨ ((state = 3 ∨ state = 6) ∧ x.ts2Run < 8) ∨ (state ≠ 5 ∧ state ≠ 3 ∧ state ≠ 6) → ∃ t, exec (.jlStart n) s = .next t ∧
        t.lnk n.val = { x with scrRx := scrSeed } ∧ t = { s with links := t.links }) ∧
      (state ≠ 5 ∨ x.parkAt = none → exec (.jlPark n) s = .next s) ∧
      (state = 5 → x.parkAt ≠ none →
        (x.recal = false → ∃ t, exec (.jlPark n) s = .next t ∧ t.jlState n.val = 7 ∧ (t.lnk n.val).parkAt = none ∧ t.evtStatus (2 * n.val + 1) = true) ∧
        (x.recal = true → detects (.jlPark n))) ∧
      (state ≠ 7 → exec (.jlElectricalIdleExit n) s = .next s) ∧ (state = 7 → retrains (.jlElectricalIdleExit n) 9) ∧
      (state ≠ 5 → exec (.jlCtlRetrain 4 n) s = .next s ∧ exec (.jlCtlRetrainFull 4 n) s = .next s) ∧
      (∀ a : Fin 8, state = 5 → retrains (.jlCtlRetrain a n) 5 ∧ detects (.jlCtlRetrainFull a n)) ∧
      -- limits
      (state ≤ 1 ∨ state = 5 ∨ 6 < state → exec (.jlStateTimeout n) s = .next s) ∧
      (∀ lim : Nat, (state = 2 ∧ lim = 2000000) ∨ (state = 3 ∧ lim = 2000000) ∨ (state = 4 ∧ lim = 24000000) →
        (s.now < x.since + lim → exec (.jlStateTimeout n) s = .next s) ∧ (x.since + lim ≤ s.now → restarts (.jlStateTimeout n))) ∧
      (state = 6 →
        (s.now < x.since + 100000 → exec (.jlStateTimeout n) s = .next s) ∧
        (x.since + 100000 ≤ s.now → s.jlRate n.val ≠ 2 → ∃ t, exec (.jlStateTimeout n) s = .next t ∧ t.jlState n.val = 4 ∧ t.rd (Reg.JL_STATE_LAST_CAUSE n.val) = 7 ∧
          (t.lnk n.val).eq = true ∧ (t.lnk n.val).sweep = 0) ∧
        (x.since + 100000 ≤ s.now → s.jlRate n.val = 2 → ∃ w : State, exec (.jlStateTimeout n) s = .next (down w) ∧ isDown w 7)) ∧
      -- equalization and the speed change
      (∀ (w h c d : Fin 256),
        let best := if x.sweep % 2 = 1 ∧ x.best.1 < w.val * h.val then (w.val * h.val, x.sweep / 2, w.val, h.val) else x.best
        (state ≠ 4 ∨ x.sweepOk = true ∨ 16 ≤ x.sweep ∨ s.now < x.since + (x.sweep + 1) * 1000000 → exec (.jlEqualizeStep n w h c d) s = .next s) ∧
        (state = 4 → x.sweepOk = false → x.since + (x.sweep + 1) * 1000000 ≤ s.now →
          (x.sweep < 15 → ∃ t, exec (.jlEqualizeStep n w h c d) s = .next t ∧ t.lnk n.val = { x with sweep := x.sweep + 1, best := best, wire := [setBlock syncSet, setBlock (State.tsBytes t n.val 0x1E)] } ∧ t.jlState n.val = 4 ∧
            (x.sweep % 2 = 0 → t.rd (Reg.JL_EQ_CTLE n.val) = min 31 c.val ∧ t.rd (Reg.JL_EQ_DFE1 n.val) = d.val)) ∧
          (x.sweep = 15 → 22 ≤ best.2.2.1 → 25 ≤ best.2.2.2 → ∃ t, exec (.jlEqualizeStep n w h c d) s = .next t ∧ (t.lnk n.val).sweepOk = true ∧ t.jlState n.val = 4 ∧
            t.rd (Reg.JL_EYE_EYE_W n.val) = best.2.2.1 % 256 ∧ t.rd (Reg.JL_EYE_EYE_H n.val) = best.2.2.2 % 256) ∧
          (x.sweep = 15 → best.2.2.1 < 22 ∨ best.2.2.2 < 25 → restarts (.jlEqualizeStep n w h c d)))) ∧
      ((∀ t, x.idleEnd = some t → s.now < t ∨ state ≠ 3) → exec (.jlSpeedChangeIdleEnd n) s = .next s) ∧
      (∀ t, x.idleEnd = some t → t ≤ s.now → state = 3 → ∃ u, exec (.jlSpeedChangeIdleEnd n) s = .next u ∧ u.jlState n.val = 2 ∧ u.jlRate n.val = s.targetRate n.val ∧ (u.lnk n.val).eq = true ∧
        (u.lnk n.val).idleEnd = none) ∧
      -- DOWN
      ((∀ t, x.window = some t → s.now < t ∨ state = 5) → exec (.jlTrainingWindowExpiry n) s = .next s.settleDma) ∧
      (∀ t, x.window = some t → t ≤ s.now → state ≠ 5 → ∃ w : State, exec (.jlTrainingWindowExpiry n) s = .next (State.settleDma (down w)) ∧ isDown w 7) ∧
      (state ≠ 8 ∨ s.now < x.downRetryAt → exec (.jlDownRetry n) s = .next s) ∧ (state = 8 → x.downRetryAt ≤ s.now → detects (.jlDownRetry n)) ∧
      (let gone := s.linkState n.val ≠ 6 ∧ ((∃ t, x.downSince = some t ∧ t + 60000000000 ≤ s.now) ∨ 8 ≤ (x.downs.filter fun t => s.now < t + 86400000000000).length);
        (¬ gone → exec (.jlDownRetire n) s = .next s.settleDma) ∧
        (gone → ∃ v : State, exec (.jlDownRetire n) s =
            .next (State.settleDma (State.startRebuild ((v.record 0x0C 2 [n.val, s.rd (Reg.JL_STATE_LAST_CAUSE n.val)]).membersLost n.val none s))) ∧
          v.linkState n.val = 6 ∧ (v.lnk n.val).window = none ∧ (v.lnk n.val).downSince = none)))

/-- Four blocks of an ACTIVE link whose partner has sent START, no ordered set among them, are a flit; anything else is
ignored. A flit whose CRC fails, or with a sync header of 00 or 11, is counted and answered with one NAK; one with a
reserved header, or an ACK of what was not sent, takes the link into RETRAIN. A DATA flit in sequence is accepted, and
its whole capsules are delivered; a repeat is dropped; one from ahead is answered with a NAK. Without ACK progress for
2, 3 or 5 µs the unacknowledged flits are replayed, and the fourth replay in a row from one flit is a RETRAIN. A
margin measurement stores its clamped offsets, runs for 2^DWELL_LOG2 bits and shows its errors; ABORT leaves it done
and not valid. Test mode begins on an ISOLATED ACTIVE link alone and ends in a training from DETECT. -/
def Obligations.LinkLayerFlitsReplayMarginAndTest : Prop :=
  ∀ (n : Fin 512) (s : State),
    let x := s.lnk n.val
    let state := s.jlState n.val
    (s.mainUp = false → ∀ (i : Instr), i ∈ [.jlFlitReceive n [], .jlReplayTimeout n, .jlMarginStart 4 n 0, .jlMarginAbort 4 n 0, .jlMarginDone n 0, .jlTestStart 4 n 0, .jlTestStop 4 n 0 false 0] →
      exec i s = .next s) ∧
    (s.mainUp = true →
      (∀ l : List Block,
        let r := blocksFlit x.scrRx l
        let f := r.1
        let h := leAt f 0 4
        let seq := h % 512
        let acks := (h / 512 % 512 + 512 - x.acked) % 512
        let flit := state = 5 ∧ x.resync ≠ 2 ∧ l.length = 4 ∧ (∀ b ∈ l, isSetBlock b = false ∧ b.bytes.length = 16)
        let intact := ∀ b ∈ l, isDataBlock b = true
        (¬ flit → exec (.jlFlitReceive n l) s = .next s) ∧
        (flit → f.length = 64 →
          (¬ intact ∨ crc32c (f.take 60) ≠ leAt f 60 4 → (x.crcTimes.filter fun t => s.now < t + 1000000000).length < 1000 → ∃ t, exec (.jlFlitReceive n l) s = .next t ∧
            t.rd (Reg.JL_ERR_CRC_COUNT n.val) = min (2 ^ (Reg.JL_ERR_CRC_COUNT n.val).width - 1) (s.rd (Reg.JL_ERR_CRC_COUNT n.val) + 1) ∧ (t.lnk n.val).nakOut = true ∧
            (t.lnk n.val).rxSeq = x.rxSeq ∧ (t.lnk n.val).inbox = x.inbox ∧ t.jlState n.val = 5 ∧
            (x.nakOut = false → t.rd (Reg.JL_ERR_REPLAY_NAKS n.val) = min (2 ^ (Reg.JL_ERR_REPLAY_NAKS n.val).width - 1) (s.rd (Reg.JL_ERR_REPLAY_NAKS n.val) + 1)) ∧
            (x.nakOut = true → t.rd (Reg.JL_ERR_REPLAY_NAKS n.val) = s.rd (Reg.JL_ERR_REPLAY_NAKS n.val))) ∧
          (intact → crc32c (f.take 60) = leAt f 60 4 →
            (2 ^ 29 ≤ h ∨ x.unacked.length < acks → (x.retrains.filter fun t => s.now < t + 60000000000).length < 2 → ∃ t, exec (.jlFlitReceive n l) s = .next t ∧ t.jlState n.val = 6 ∧
              t.rd (Reg.JL_STATE_LAST_CAUSE n.val) = 3 ∧ (t.lnk n.val).rxSeq = x.rxSeq) ∧
            (h < 2 ^ 29 → acks ≤ x.unacked.length → x.resync = 0 → h.testBit 18 = false →
              let vc := h / 2 ^ 27 % 2
              let cut := cutCapsules 64 ((if vc = 1 then x.rx1 else x.rx0) ++ slice f 4 56) []
              (h / 2 ^ 28 = 1 → seq = x.rxSeq → cut.2.2 = false → ∃ t, exec (.jlFlitReceive n l) s = .next t ∧ (t.lnk n.val).rxSeq = (seq + 1) % 512 ∧
                (t.lnk n.val).inbox = x.inbox ++ cut.2.1 ∧ (t.lnk n.val).rx0 = (if vc = 1 then x.rx0 else cut.1) ∧ (t.lnk n.val).rx1 = (if vc = 1 then cut.1 else x.rx1) ∧
                (t.lnk n.val).acked = (if acks = 0 then x.acked else (x.acked + acks) % 512) ∧ t.jlState n.val = 5) ∧
              (h / 2 ^ 28 = 0 ∨ (seq ≠ x.rxSeq ∧ (x.rxSeq + 512 - seq) % 512 ≤ 256) → ∃ t, exec (.jlFlitReceive n l) s = .next t ∧ (t.lnk n.val).rxSeq = x.rxSeq ∧
                (t.lnk n.val).inbox = x.inbox ∧ (t.lnk n.val).nakOut = x.nakOut ∧ t.jlState n.val = 5) ∧
              (h / 2 ^ 28 = 1 → seq ≠ x.rxSeq → 256 < (x.rxSeq + 512 - seq) % 512 → ∃ t, exec (.jlFlitReceive n l) s = .next t ∧ (t.lnk n.val).rxSeq = x.rxSeq ∧
                (t.lnk n.val).inbox = x.inbox ∧ (t.lnk n.val).nakOut = true ∧ t.jlState n.val = 5))))) ∧
      (let lim := if s.jlRate n.val = 0 then 2000 else if s.jlRate n.val = 1 then 3000 else 5000;
        (state ≠ 5 ∨ x.unacked = [] ∨ s.now < x.ackAt + lim → exec (.jlReplayTimeout n) s = .next s) ∧
        (∀ f rest, state = 5 → x.unacked = f :: rest → x.ackAt + lim ≤ s.now →
          let runs := if x.replayRuns ≠ 0 ∧ x.replaySeq = f.seq then x.replayRuns + 1 else 1
          (runs < 4 → ∃ t, exec (.jlReplayTimeout n) s = .next t ∧ t.jlState n.val = 5 ∧ (t.lnk n.val).unacked = x.unacked ∧ (t.lnk n.val).replayRuns = runs ∧
            (t.lnk n.val).replaySeq = f.seq ∧ (t.lnk n.val).ackAt = s.now ∧
            t.rd (Reg.JL_ERR_REPLAY_REPLAYS n.val) = min (2 ^ (Reg.JL_ERR_REPLAY_REPLAYS n.val).width - 1) (s.rd (Reg.JL_ERR_REPLAY_REPLAYS n.val) + 1)) ∧
          (4 ≤ runs → (x.retrains.filter fun t => s.now < t + 60000000000).length < 2 → ∃ t, exec (.jlReplayTimeout n) s = .next t ∧ t.jlState n.val = 6 ∧
            t.rd (Reg.JL_STATE_LAST_CAUSE n.val) = 1 ∧ (t.lnk n.val).replayRuns = 0))) ∧
      (∀ (a : Fin 8) (data : Word),
        let stored (t : State) : Prop := t.rd (Reg.JL_MARGIN_CTL_DWELL_LOG2 n.val) = max 16 (min 36 (bitsOf data 24 6)) ∧
          t.rdSigned (Reg.JL_MARGIN_CTL_V_OFFSET n.val) = max (-100) (min 100 (signed 8 (bitsOf data 16 8))) ∧
          t.rdSigned (Reg.JL_MARGIN_CTL_T_OFFSET n.val) = max (-32) (min 31 (signed 8 (bitsOf data 8 8)))
        (∃ t, exec (.jlMarginStart a n data) s = .next t ∧ stored t ∧ (state = 5 → (t.lnk n.val).margin = some s.now ∧ t.reg (Reg.JL_MARGIN_RES n.val) = 0) ∧
          (state ≠ 5 → t.lnk n.val = x ∧ t.reg (Reg.JL_MARGIN_RES n.val) = s.reg (Reg.JL_MARGIN_RES n.val))) ∧
        (∃ t, exec (.jlMarginAbort a n data) s = .next t ∧ stored t ∧ (t.lnk n.val).margin = none ∧
          (x.margin ≠ none → t.rd (Reg.JL_MARGIN_RES_DONE n.val) = 1 ∧ t.rd (Reg.JL_MARGIN_RES_VALID n.val) = 0) ∧
          (x.margin = none → t.reg (Reg.JL_MARGIN_RES n.val) = s.reg (Reg.JL_MARGIN_RES n.val))) ∧
        (let rate := min 2 (bitsOf data 8 2)
          let mode := if bitsOf data 0 3 ≤ 2 then bitsOf data 0 3 else 0;
          (s.linkState n.val = 4 → state = 5 → s.linkRecs n.val = [] → mode ≠ 0 → ∃ t, exec (.jlTestStart a n data) s = .next t ∧ t.jlState n.val = 9 ∧ t.jlRate n.val = rate ∧
            t.rd (Reg.JL_TEST_CTL_RATE n.val) = rate ∧ t.rd (Reg.JL_TEST_CTL_MODE n.val) = mode ∧ t.reg (Reg.JL_TEST_RES n.val) = BitVec.ofNat 32 (2 ^ 31)) ∧
          (s.linkState n.val ≠ 4 ∨ state ≠ 5 ∨ mode = 0 → ∃ t, exec (.jlTestStart a n data) s = .next t ∧ t.jlState n.val = state ∧ t.rd (Reg.JL_TEST_CTL_RATE n.val) = rate ∧
            t.rd (Reg.JL_TEST_CTL_MODE n.val) = mode ∧ t = { s with regs := t.regs }) ∧
          ∀ (locked : Bool) (errors : Nat),
            (state ≠ 9 → ∃ t, exec (.jlTestStop a n data locked errors) s = .next t ∧ t.jlState n.val = state ∧ t.rd (Reg.JL_TEST_CTL_RATE n.val) = rate ∧ t = { s with regs := t.regs }) ∧
            (state = 9 → ∃ t, exec (.jlTestStop a n data locked errors) s = .next t ∧ t.jlState n.val = 1 ∧ (t.lnk n.val).window = some (s.now + 200000000) ∧
              (s.linkRecs n.val = [] → t.rd (Reg.JL_TEST_RES_RUNNING n.val) = 0 ∧ t.rd (Reg.JL_TEST_RES_LOCK n.val) = bit locked ∧
                t.rd (Reg.JL_TEST_RES_ERRORS n.val) = if locked then min (2 ^ 30 - 1) errors else 0)))) ∧
      (∀ errors : Nat,
        (x.margin = none → exec (.jlMarginDone n errors) s = .next s) ∧
        (∀ t, x.margin = some t →
          let due := t * gtsOf (s.jlRate n.val) + 2 ^ s.rd (Reg.JL_MARGIN_CTL_DWELL_LOG2 n.val) ≤ s.now * gtsOf (s.jlRate n.val)
          (¬ due → exec (.jlMarginDone n errors) s = .next s) ∧
          (due → ∃ u, exec (.jlMarginDone n errors) s = .next u ∧ (u.lnk n.val).margin = none ∧ u.rd (Reg.JL_MARGIN_RES_DONE n.val) = 1 ∧ u.rd (Reg.JL_MARGIN_RES_VALID n.val) = 1 ∧
            u.rd (Reg.JL_MARGIN_RES_ERRORS n.val) = min (2 ^ 30 - 1) errors))))

/-- A capsule's command acts on the oldest whole capsule of its link when that is of its TYPE, and takes it; otherwise
nothing happens. DATA_IN of an outstanding tag puts raw data into the scratch and ends the tag with END; one that does
not fit its request quarantines the tag. STATUS_RESP writes the status byte to its register and sets Z and N. EDGE
sets the ready or busy latch of a die whose EPOCH is the device's count. TEMP is shown, and the link's temperature is
stale no longer. ERROR is counted and shown, ends the tag it names, and any code but 2 to 4 brings a training from
DETECT. MGMT_RESP ends its tag. A tag without a reply is quarantined after 500 µs, a management tag after 10 ms. An
ACTIVE link with no TEMP for 50 ms is stale. -/
def Obligations.CapsulesFromABridgeAct : Prop :=
  ∀ (n : Fin 512) (s : State),
    let x := s.lnk n.val
    let i := n.val / 8
    let faults (t : State) : Prop := ∀ g ∈ x.tags, ∀ r, t.opRec i g.op = some r → r.ended = true ∨ r.wait ≠ none
    (s.mainUp = false → ∀ c : Instr, c ∈ [.dataIn n, .statusResp n, .edgeCapsule n, .tempCapsule n, .errorCapsule n, .mgmtResp n, .jlReplyTimeout n, .jlTempStale n] → exec c s = .next s) ∧
    (s.mainUp = true →
      (∀ p : Nat × Instr, p ∈ [(0x41, Instr.dataIn n), (0x42, .statusResp n), (0x43, .edgeCapsule n), (0x44, .tempCapsule n), (0x45, .errorCapsule n), (0x46, .mgmtResp n)] →
        (∀ c rest, x.inbox = c :: rest → byteAt c 0 ≠ p.1) → exec p.2 s = .next s) ∧
      (∀ c rest, x.inbox = c :: rest →
        -- only the capsule has gone
        let taken (t : State) : Prop := t.lnk n.val = { x with inbox := rest } ∧ (∀ m, m ≠ n.val → t.lnk m = s.lnk m) ∧ t = { s with links := t.links }
        let ended (g : Tag) : List Tag := x.tags.filter fun y => y.tag != g.tag
        -- DATA_IN
        (byteAt c 0 = 0x41 →
          let tag := x.tags.find? fun g => g.tag == byteAt c 4 && g.kind ≤ 2
          (tag = none → ∃ t, exec (.dataIn n) s = .next t ∧ taken t) ∧
          (∀ g, tag = some g →
            let got := g.got + (c.length - 8)
            let bad := ((byteAt c 1).testBit 2 = true ∧ g.begun = true) ∨ g.count < got ∨ ((byteAt c 1).testBit 3 = true ∧ got ≠ g.count)
            (bad → faults s → x.quarantined.length < 63 → ∃ t, exec (.dataIn n) s = .next t ∧ t.lnk n.val = { x with inbox := rest, tags := ended g, quarantined := x.quarantined ++ [g.tag] } ∧
              t.rd (Reg.JL_BRIDGE_STATUS_QUARANTINED n.val) = x.quarantined.length + 1) ∧
            (¬ bad → ∃ t, exec (.dataIn n) s = .next t ∧
              t.lnk n.val = { x with inbox := rest, tags := if (byteAt c 1).testBit 3 = true then ended g else x.tags.map fun y => if y.tag == g.tag then { y with got := got, begun := true } else y } ∧
              (g.kind = 0 → (t.sleeve i).scratch = ((s.setScratch i (g.dst + g.got) (c.drop 8)).sleeve i).scratch) ∧
              (g.kind ≠ 0 → (t.sleeve i).scratch = (s.sleeve i).scratch) ∧ t = { s with links := t.links, slv := t.slv }))) ∧
        -- STATUS_RESP
        (byteAt c 0 = 0x42 →
          let tag := x.tags.find? fun g => g.tag == byteAt c 4 && g.kind == 3
          (tag = none → ∃ t, exec (.statusResp n) s = .next t ∧ taken t) ∧
          (∀ g, tag = some g → ∃ t, exec (.statusResp n) s = .next t ∧ t.lnk n.val = { x with inbox := rest, tags := ended g } ∧
            (∀ r, s.opRec i g.op = some r → t.opRec i g.op = some { r with
              regs := modAt r.regs g.dst (fun (_ : Word) => BitVec.ofNat 32 (byteAt c 5)), z := byteAt c 5 == 0, n := (byteAt c 5).testBit 7, statusAt := s.now }) ∧
            (∀ k, k ≠ g.op → t.opRec i k = s.opRec i k) ∧ t = { s with links := t.links, slv := t.slv })) ∧
        -- EDGE
        (byteAt c 0 = 0x43 →
          (c.length < 10 → ∃ t, exec (.edgeCapsule n) s = .next t ∧ taken t) ∧
          (c.length = 10 → byteAt c 8 < 32 →
            let d := byteAt c 8
            ∃ t, exec (.edgeCapsule n) s = .next t ∧ t.lnk n.val = { x with inbox := rest } ∧
              t.die n.val d = (if byteAt c 9 = (s.die n.val d).epoch then
                (if byteAt c 5 = 0 then { s.die n.val d with ready := true } else if byteAt c 5 = 1 then { s.die n.val d with busy := true } else s.die n.val d)
              else s.die n.val d) ∧ t = { s with links := t.links, slv := t.slv })) ∧
        -- TEMP, no limit crossed
        (byteAt c 0 = 0x44 →
          let v := leAt c 4 2
          crossed x.warm (signed 16 v) (s.force Reg.THM_BRIDGE_WARN_C) = x.warm → crossed x.hot (signed 16 v) (s.force Reg.THM_BRIDGE_ENFORCE_C) = x.hot →
            ∃ w : State, exec (.tempCapsule n) s = .next (State.settleDma w) ∧
            w.lnk n.val = { x with inbox := rest, tempAt := s.now, tempSeen := true } ∧ w.rd (Reg.JL_BRIDGE_TEMP_TEMP n.val) = v % 65536 ∧
            w.rd (Reg.JL_BRIDGE_STATUS_TEMP_STALE n.val) = 0 ∧ w = { s with links := w.links, regs := w.regs }) ∧
        -- ERROR
        (byteAt c 0 = 0x45 → s.linkRecs n.val = [] → ∃ t, exec (.errorCapsule n) s = .next t ∧ t.evtStatus (2 * n.val) = true ∧
          t.rd (Reg.JL_CAP_ERR_ERRORS n.val) = min (2 ^ (Reg.JL_CAP_ERR_ERRORS n.val).width - 1) (s.rd (Reg.JL_CAP_ERR_ERRORS n.val) + 1) ∧
          t.rd (Reg.JL_BRIDGE_STATUS_LAST_ERROR n.val) = byteAt c 4 ∧
          (2 ≤ byteAt c 4 → byteAt c 4 ≤ 4 → t.jlState n.val = s.jlState n.val ∧
            (t.lnk n.val).tags = if byteAt c 6 = 255 then x.tags else x.tags.filter fun y => y.tag != byteAt c 6) ∧
          (byteAt c 4 < 2 ∨ 4 < byteAt c 4 → t.jlState n.val = 1 ∧ (t.lnk n.val).tags = [] ∧ (t.lnk n.val).window = some (s.now + 200000000))) ∧
        -- MGMT_RESP that answers no identity wanted
        (byteAt c 0 = 0x46 → x.identAt = none →
          (∃ w : State, exec (.mgmtResp n) s = .next (State.settleDma w) ∧ w = { s with links := w.links } ∧ (∀ m, m ≠ n.val → w.lnk m = s.lnk m) ∧
            w.lnk n.val = { x with inbox := rest, tags := ((x.tags.find? fun g => g.tag == byteAt c 4 && g.kind == 4).map ended).getD x.tags }))) ∧
      -- timeouts
      (let late := x.tags.filter fun g => g.since + (if g.kind = 4 then 10000000 else 500000) ≤ s.now;
        (late = [] → exec (.jlReplyTimeout n) s = .next s.settleDma) ∧
        (∀ g, late = [g] → faults s → x.identAt = none → x.quarantined.length < 63 → ∃ w : State, exec (.jlReplyTimeout n) s = .next (State.settleDma w) ∧
          w.lnk n.val = { x with tags := x.tags.filter (fun y => y.tag != g.tag), quarantined := x.quarantined ++ [g.tag] } ∧ w.evtStatus (2 * n.val) = true ∧
          w.rd (Reg.JL_CAP_ERR_TIMEOUTS n.val) = min (2 ^ (Reg.JL_CAP_ERR_TIMEOUTS n.val).width - 1) (s.rd (Reg.JL_CAP_ERR_TIMEOUTS n.val) + 1))) ∧
      (s.jlState n.val ≠ 5 ∨ s.now < x.tempAt + 50000000 ∨ s.rd (Reg.JL_BRIDGE_STATUS_TEMP_STALE n.val) ≠ 0 → exec (.jlTempStale n) s = .next s.settleDma) ∧
      (s.jlState n.val = 5 → x.tempAt + 50000000 ≤ s.now → s.rd (Reg.JL_BRIDGE_STATUS_TEMP_STALE n.val) = 0 → ∃ w : State, exec (.jlTempStale n) s = .next (State.settleDma w) ∧
        w.rd (Reg.JL_BRIDGE_STATUS_TEMP_STALE n.val) = 1 ∧ w.evtStatus (2 * n.val) = true ∧ (w.lnk n.val).tags = x.tags ∧ (w.lnk n.val).inbox = x.inbox))

/-- A message counts only in the main domain's run, on a port in use with symbol lock; one whose framing, CRC or TYPE is
wrong is counted and discarded, one of another TYPE does nothing. TIME without UP_CAL only notes that it came; LOCKED,
near the head's time and with no HOLDOVER, it corrects the timebase and shows the offset. DELAY_REQ is answered with
its own time and the two times of this device; the 1,024th exchange sets DN_CAL. DELAY_RESP enters the mean, and 1,024
of them set UP_CAL. TRIGGER, TAKE_OPEN and TAKE_CLOSE are forwarded, and act once for their UID and ID. CAL is
forwarded and installed by a member. STATUS is forwarded up and counted. TIME, DELAY_REQ, CAL and STATUS are sent by
the devices whose part it is. -/
def Obligations.SteepleMessagesAct : Prop :=
  ∀ (m : List Byte) (turn : Fin 2001) (s : State),
    let upUsed := s.mainUp = true ∧ s.stpUp = true ∧ s.rd Reg.STP_STATUS_UP_LOCK = 1
    let dnUsed := s.mainUp = true ∧ s.stpPorts = true ∧ s.rd Reg.STP_STATUS_DN_LOCK = 1
    let ups : List (Nat × Instr) := [(1, .stpTime m), (3, .stpDelayResp m)]
    let dns : List (Nat × Instr) := [(2, .stpDelayReq m turn), (4, .stpTrigger m), (5, .stpTakeOpen m), (6, .stpTakeClose m), (7, .stpCal m), (8, .stpStatus m)]
    let onDn := dns.filter fun p => p.1 == 2 || p.1 == 8
    let onUp := ups ++ dns.filter fun p => 4 ≤ p.1 && p.1 ≤ 7
    let count (port : Nat) := mapGet (fun _ => 0) s.stp.txSeq port
    -- one message goes out of a port
    let out (port ty flags hop : Nat) (pay : List Byte) (t : State) : Prop := t.stp.sent = s.stp.sent ++ [(port, stpBytes ty (count port) hop flags pay)] ∧
      mapGet (fun _ => 0) t.stp.txSeq port = (count port + 1) % 65536
    (s.mainUp = false ∨ s.stpPorts = false → ∀ p ∈ ups ++ dns, exec p.2 s = .next s) ∧
    (s.stpUp = false ∨ s.rd Reg.STP_STATUS_UP_LOCK = 0 → ∀ p ∈ onUp, exec p.2 s = .next s) ∧
    (s.rd Reg.STP_STATUS_DN_LOCK = 0 → ∀ p ∈ onDn, exec p.2 s = .next s) ∧
    (parseMsg m = none → (upUsed → ∀ p ∈ onUp, exec p.2 s = .next (s.bump Reg.STP_ERR_CRC_ERR)) ∧ (dnUsed → ∀ p ∈ onDn, exec p.2 s = .next (s.bump Reg.STP_ERR_CRC_ERR))) ∧
    (∀ x, parseMsg m = some x →
      (∀ p ∈ ups ++ dns, x.ty ≠ p.1 → exec p.2 s = .next s) ∧
      (upUsed → x.ty = 1 → s.rd Reg.STP_STATUS_UP_CAL = 0 → ∃ t, exec (.stpTime m) s = .next t ∧ t.stp = { s.stp with timeAt := some s.now } ∧ t = { s with stp := t.stp }) ∧
      (upUsed → x.ty = 1 → s.rd Reg.STP_STATUS_UP_CAL = 1 → s.stpState = 3 →
        let offset : Int := (timeAt x.pay 0 : Int) + s.hopDelay - s.steepleFrac
        offset.natAbs ≤ 262144 → x.flags.testBit 0 = false → ∃ w : State, exec (.stpTime m) s = .next (State.settleDma w) ∧ w.stpState = 3 ∧
          w.steepleFrac = s.steepleFrac + offset * 62832 / 10000000 ∧ w.headUid = leAt x.pay 16 8 ∧ w.hop = min 4095 (x.hop + 1) ∧
          w.rd Reg.STP_OFFSET_PS = toCode 32 (max (-2147483648) (min 2147483647 (toPs offset))) ∧ w.stp.unlockRun = 0 ∧ w.stp.timeAt = some s.now) ∧
      (upUsed → x.ty = 3 →
        let d2 : Int := (s.steepleFrac - (timeAt x.pay 0 : Int)) - ((timeAt x.pay 20 : Int) - (timeAt x.pay 10 : Int))
        ∃ t, exec (.stpDelayResp m) s = .next t ∧ t.stp = { s.stp with delays := (d2 :: s.stp.delays).take 1024 } ∧
          (s.stp.delays.length < 1023 → t = { s with stp := t.stp }) ∧ (1023 ≤ s.stp.delays.length → t.rd Reg.STP_STATUS_UP_CAL = 1 ∧
            (s.rd Reg.STP_STATUS_UP_CAL = 0 → t.evtStatus 1768 = true))) ∧
      (dnUsed → x.ty = 2 → ∃ t, exec (.stpDelayReq m turn) s = .next t ∧
        out 1 3 0 s.hop (slice x.pay 0 10 ++ timeBytes s.steepleFrac ++ timeBytes (s.steepleFrac + 65536 * turn.val)) t ∧ t.stp.dnCount = s.stp.dnCount + 1 ∧
        (1023 ≤ s.stp.dnCount → t.rd Reg.STP_STATUS_DN_CAL = 1) ∧ (s.stp.dnCount < 1023 → t = { s with stp := t.stp })) ∧
      -- broadcasts
      (upUsed → x.ty = 4 → s.seenBefore (leAt x.pay 24 8) (leAt x.pay 0 4) = true →
        ∃ t, exec (.stpTrigger m) s = .next t ∧ out 1 4 x.flags s.hop x.pay t ∧ t = { s with stp := t.stp }) ∧
      (upUsed → x.ty = 5 ∨ x.ty = 6 → s.seenBefore (leAt x.pay 24 8) (leAt x.pay 0 4) = true →
        ∃ t, exec (if x.ty = 5 then .stpTakeOpen m else .stpTakeClose m) s = .next t ∧
          out 1 x.ty x.flags s.hop x.pay t ∧ t = { s with stp := t.stp }) ∧
      (upUsed → x.ty ∈ [4, 5, 6] → s.seenBefore (leAt x.pay 24 8) (leAt x.pay 0 4) = false →
        let t8 := leAt x.pay 8 8
        let rig := leAt x.pay 16 8
        ∃ w : State, out 1 x.ty x.flags s.hop x.pay w ∧ w = { s with stp := w.stp } ∧ w.stp.seen = ((leAt x.pay 24 8, leAt x.pay 0 4) :: s.stp.seen).take 64 ∧
          (x.ty = 4 → exec (.stpTrigger m) s = .next (((w.wake 5).fireDue).steepleTrigger (fun k => k.accepts 0 && (rig == 0 || k.rigTake == rig)) (byteAt x.pay 4) t8 false).settleDma) ∧
          (x.ty = 5 → (w.wake 5).fireDue.openTakes = [] → t8 = 0 → exec (.stpTakeOpen m) s = .next ((w.wake 5).fireDue).settleDma) ∧
          (x.ty = 6 → exec (.stpTakeClose m) s = .next ((w.fireDue).steepleTrigger (fun k => k.joined && k.rigTake == rig) 1 t8 true).settleDma)) ∧
      (upUsed → x.ty = 7 → ∃ t, exec (.stpCal m) s = .next t ∧ out 1 7 x.flags s.hop x.pay t ∧
        (s.stpState = 0 ∨ s.stpState = 2 → t = { s with stp := t.stp }) ∧
        (s.stpState ≠ 0 → s.stpState ≠ 2 → t.rd64 Reg.STP_CAL_LO Reg.STP_CAL_HI = leAt x.pay 0 8 ∧ t.rd Reg.STP_CAL_CTL_UTC_OFFSET = byteAt x.pay 8 % 128 ∧
          t.rd Reg.STP_STATUS_CAL_VALID = byteAt x.pay 8 / 128)) ∧
      (dnUsed → x.ty = 8 →
        let uid := leAt x.pay 0 8
        let live := ((s.stp.members.filter fun k => k.1 != uid) ++ [(uid, s.now)]).filter fun k => s.now < k.2 + 300000000
        ∃ t, exec (.stpStatus m) s = .next t ∧ t.stp.members = live ∧ t.rd Reg.STP_MEMBERS_COUNT = (if s.stpState = 2 ∨ s.stpState = 4 then min 4095 live.length else 0) ∧
          (s.stpUp = true → s.stpState ≠ 2 → out 0 8 x.flags x.hop x.pay t) ∧
          (s.stpUp = false ∨ s.stpState = 2 → t.stp.sent = s.stp.sent))) ∧
    -- what is sent
    (let sends (i : Instr) (may : Prop) (port ty flags hop : Nat) (pay : List Byte) : Prop :=
        (may → ∃ t, exec i s = .next t ∧ out port ty flags hop pay t ∧ t = { s with stp := t.stp }) ∧ (¬ may → exec i s = .next s);
      sends .stpTimeSend (s.mainUp = true ∧ s.stpPorts = true ∧ 2 ≤ s.stpState ∧ s.rd Reg.STP_STATUS_CHAIN_END = 0) 1 1 (if 4 ≤ s.stpState then 1 else 0) s.hop
        (timeBytes s.steepleFrac ++ leBytes 1 s.stpState ++ [0] ++ leBytes 4 s.stpUnc ++ leBytes 8 s.headUid) ∧
      sends .stpDelayReqSend upUsed 0 2 0 s.hop (timeBytes s.steepleFrac) ∧
      sends .stpCalSend (s.mainUp = true ∧ s.stpPorts = true ∧ s.stpState = 2) 1 7 0 s.hop
        (leBytes 8 (s.rd64 Reg.STP_CAL_LO Reg.STP_CAL_HI) ++ leBytes 1 (s.rd Reg.STP_CAL_CTL_UTC_OFFSET + 128 * s.rd Reg.STP_STATUS_CAL_VALID)) ∧
      sends .stpStatusSend (s.mainUp = true ∧ s.stpUp = true ∧ s.stpState ≠ 2 ∧ s.stpState ≠ 0) 0 8 0 s.hop
        (leBytes 8 s.uid ++ leBytes 4 (s.inForce Reg.STP_RIG_ID).toNat ++ leBytes 1 s.stpState ++ leBytes 1 s.openTakes.length ++ [0, 0] ++
          leBytes 4 (s.rd Reg.STP_OFFSET_PS) ++ leBytes 4 s.stpUnc))

/-- Symbol lock is taken by a port in use. Loss of UP lock clears UP_CAL and its delays, raises 1,760, and makes a LOCKED
device the head of its segment: HOLDOVER_HEAD, its own UID, source 1,762, a break counted. Loss of DN lock clears
DN_CAL and raises 1,761. A slew that has removed its offset ends. ROLE 0 that hears no TIME for 100 ms in ACQUIRE
becomes HEAD: hop 0, its own UID, with no step of its time. A head uses the selected references: the first PPS edge
aligns the second, or slews to it while a take is open, an edge further than 100 ns from it while locked is not
accepted, 1.1 s without one loses it; the 10 MHz lock and its loss are shown; losses raise 1,766. The calendar is
written on a head alone. Broadcasts are repeated until their time. Members unheard for 300 ms are counted no more.
Every replica carries the one time. -/
def Obligations.SteepleLocksStatesAndReferences : Prop :=
  ∀ (s : State),
    let st := s.stpState
    let locks := s.mainUp = true ∧ s.stpPorts = true
    (s.mainUp = false → ∀ i : Instr, i ∈ [.stpUpLockAcquired, .stpDnLockAcquired, .stpUpLockLost 0, .stpDnLockLost 0, .stpBroadcastRepeat, .stpAcquireTimeout, .stpSlewComplete, .stpRefPpsEdge,
      .stpRefPpsLoss, .stpRef10mLoss, .stpCalCtlWrite 4 0, .stpRef10mLock, .stpMemberTimeout] → exec i s = .next s) ∧
    exec .replicaRealign s = .next s ∧
    ((s.mainUp = true ∧ s.stpUp = true) → ∃ t, exec .stpUpLockAcquired s = .next t ∧ t.rd Reg.STP_STATUS_UP_LOCK = 1 ∧ t = { s with regs := t.regs }) ∧
    (s.stpUp = false → exec .stpUpLockAcquired s = .next s) ∧
    (locks → ∃ t, exec .stpDnLockAcquired s = .next t ∧ t.rd Reg.STP_STATUS_DN_LOCK = 1 ∧ t = { s with regs := t.regs }) ∧
    (s.stpPorts = false → exec .stpDnLockAcquired s = .next s) ∧
    (s.mainUp = true →
      (∀ v : Nat, ∃ w u : State, exec (.stpUpLockLost v) s = .next (State.settleDma w) ∧ exec (.stpDnLockLost v) s = .next (State.settleDma u) ∧
        w.rd Reg.STP_ERR_CODE_ERR = min (2 ^ Reg.STP_ERR_CODE_ERR.width - 1) (s.rd Reg.STP_ERR_CODE_ERR + v) ∧
        (s.rd Reg.STP_STATUS_UP_LOCK = 0 → w = { s with regs := w.regs } ∧ w.stpState = st) ∧
        (s.rd Reg.STP_STATUS_UP_LOCK = 1 → w.rd Reg.STP_STATUS_UP_LOCK = 0 ∧ w.rd Reg.STP_STATUS_UP_CAL = 0 ∧ w.stp.delays = [] ∧ w.evtStatus 1760 = true ∧
          (st = 3 ∨ st = 5 ∨ st = 6 → w.stpState = 4 ∧ w.headUid = s.uid ∧ w.evtStatus 1762 = true ∧ w.stp.uncBreak = s.stpUnc ∧ w.stp.breakAt = s.steepleTime ∧ w.stp.slew = 0 ∧
            w.steepleFrac = s.steepleFrac ∧ w.rd Reg.STP_COUNT_BREAKS = min (2 ^ Reg.STP_COUNT_BREAKS.width - 1) (s.rd Reg.STP_COUNT_BREAKS + 1)) ∧
          (st = 0 ∨ st = 1 ∨ st = 2 ∨ st = 4 → w.stpState = st ∧ (s.stp.healing = true → w.stp.healing = false ∧
            (st = 2 ∨ st = 4 → w.headUid = s.uid) ∧ (st = 2 → w.hop = 0)))) ∧
        u.stpState = st ∧ u.steepleFrac = s.steepleFrac ∧
        (s.rd Reg.STP_STATUS_DN_LOCK = 0 → u = { s with regs := u.regs }) ∧
        (s.rd Reg.STP_STATUS_DN_LOCK = 1 → u.rd Reg.STP_STATUS_DN_LOCK = 0 ∧ u.rd Reg.STP_STATUS_DN_CAL = 0 ∧ u.stp.dnCount = 0 ∧ u.evtStatus 1761 = true)) ∧
      -- the slew and the acquire limit
      (s.stp.slew = 0 ∨ s.now < s.stp.slewEnd → exec .stpSlewComplete s = .next s) ∧
      (s.stp.slew ≠ 0 → s.stp.slewEnd ≤ s.now → ∃ t, exec .stpSlewComplete s = .next t ∧ t.stp.slew = 0 ∧ t.steepleFrac = s.steepleFrac ∧ t = { s with stp := t.stp }) ∧
      (let heard := match s.stp.timeAt with
          | some t => max t s.stp.acquireAt
          | none => s.stp.acquireAt;
        (st ≠ 1 ∨ s.role ≠ 0 ∨ s.now < heard + 100000000 → exec .stpAcquireTimeout s = .next s) ∧
        (st = 1 → s.role = 0 → heard + 100000000 ≤ s.now → ∃ t, exec .stpAcquireTimeout s = .next t ∧ t.stpState = 2 ∧ t.hop = 0 ∧ t.headUid = s.uid ∧ t.steepleFrac = s.steepleFrac ∧
          t.stp.established = true)) ∧
      -- references
      (let pps := st = 2 ∧ s.stp.healing = false ∧ (s.force Reg.STP_CFG_REF).testBit 0 = true
        let ten := st = 2 ∧ (s.force Reg.STP_CFG_REF).testBit 1 = true
        let e := secondError s.steepleFrac;
        (¬ pps → exec .stpRefPpsEdge s = .next s) ∧
        (pps → s.rd Reg.STP_STATUS_REF_PPS_LOCK = 1 → 6553600 < e.natAbs → exec .stpRefPpsEdge s = .next s) ∧
        (pps → (s.rd Reg.STP_STATUS_REF_PPS_LOCK = 1 ∧ e.natAbs ≤ 6553600) ∨ (s.rd Reg.STP_STATUS_REF_PPS_LOCK = 0 ∧ (s.openTakes = [] ∨ e.natAbs ≤ 327680)) → ∃ t, exec .stpRefPpsEdge s = .next t ∧
          t.rd Reg.STP_STATUS_REF_PPS_LOCK = 1 ∧ t.stp.ppsAt = some s.now ∧ t.steepleFrac = s.steepleFrac + e ∧ t.steepleFrac % 65536000000000 = 0) ∧
        (pps → s.rd Reg.STP_STATUS_REF_PPS_LOCK = 0 → s.openTakes ≠ [] → 327680 < e.natAbs → ∃ t, exec .stpRefPpsEdge s = .next t ∧ t.rd Reg.STP_STATUS_REF_PPS_LOCK = 0 ∧ t.steepleFrac = s.steepleFrac ∧
          t.stp.slew = (if 0 ≤ e then 200 else -200) ∧ t.stp.slewEnd = s.now + 5000 * ((e.natAbs + 65535) / 65536)) ∧
        (s.stp.ppsAt = none ∨ s.rd Reg.STP_STATUS_REF_PPS_LOCK ≠ 1 → exec .stpRefPpsLoss s = .next s) ∧
        (∀ at1, s.stp.ppsAt = some at1 →
          (s.now < at1 + 1100000000 → exec .stpRefPpsLoss s = .next s) ∧
          (s.rd Reg.STP_STATUS_REF_PPS_LOCK = 1 → at1 + 1100000000 ≤ s.now → ∃ t, exec .stpRefPpsLoss s = .next t ∧ t.rd Reg.STP_STATUS_REF_PPS_LOCK = 0 ∧ t.stp.ppsAt = none ∧
            t.evtStatus 1766 = true)) ∧
        (ten → ∃ t, exec .stpRef10mLock s = .next t ∧ t.rd Reg.STP_STATUS_REF_10M_LOCK = 1 ∧ t = { s with regs := t.regs }) ∧ (¬ ten → exec .stpRef10mLock s = .next s) ∧
        (s.rd Reg.STP_STATUS_REF_10M_LOCK = 1 → ∃ t, exec .stpRef10mLoss s = .next t ∧ t.rd Reg.STP_STATUS_REF_10M_LOCK = 0 ∧ t.evtStatus 1766 = true) ∧
        (s.rd Reg.STP_STATUS_REF_10M_LOCK = 0 → exec .stpRef10mLoss s = .next s)) ∧
      -- the calendar
      (∀ (a : Fin 8) (data : Word),
        (st ≠ 2 → exec (.stpCalCtlWrite a data) s = .next s) ∧
        (st = 2 → ∃ t, exec (.stpCalCtlWrite a data) s = .next t ∧ t.rd64 Reg.STP_CAL_LO Reg.STP_CAL_HI = s.stp.calStaged % 2 ^ 64 ∧
          t.rd Reg.STP_CAL_CTL_UTC_OFFSET = bitsOf data 0 7 ∧ t.rd Reg.STP_CAL_CTL_VALID = bitsOf data 31 1 ∧ t.rd Reg.STP_STATUS_CAL_VALID = bitsOf data 31 1 ∧ t.stp = { s.stp with calWritten := true } ∧
          t = { s with regs := t.regs, stp := t.stp })) ∧
      -- broadcasts
      (s.stpPorts = false ∨ s.stp.casts = [] → exec .stpBroadcastRepeat s = .next s) ∧
      (∀ c, s.stpPorts = true → s.stp.casts = [c] →
        (3 ≤ c.count → c.time ≤ s.steepleTime → ∃ t, exec .stpBroadcastRepeat s = .next t ∧ t.stp.casts = [] ∧ t.stp.sent = s.stp.sent) ∧
        ((c.count < 3 ∧ c.sentAt + 20000 ≤ s.now) ∨ (3 ≤ c.count ∧ s.steepleTime < c.time ∧ c.sentAt + 100000000 ≤ s.now) → ∃ t, exec .stpBroadcastRepeat s = .next t ∧
          t.stp.casts = [{ c with sentAt := s.now, count := c.count + 1 }] ∧
          t.stp.sent = s.stp.sent ++ [(1, stpBytes c.ty (mapGet (fun _ => 0) s.stp.txSeq 1) s.hop (if c.count < 3 then 0 else 2) c.pay)]) ∧
        ((c.count < 3 ∧ s.now < c.sentAt + 20000) ∨ (3 ≤ c.count ∧ s.steepleTime < c.time ∧ s.now < c.sentAt + 100000000) → exec .stpBroadcastRepeat s = .next s)) ∧
      -- members
      (let live := s.stp.members.filter fun k => s.now < k.2 + 300000000
        let n := if st = 2 ∨ st = 4 then min 4095 live.length else 0;
        ∃ t, exec .stpMemberTimeout s = .next t ∧ t.stp = { s.stp with members := live } ∧ t.rd Reg.STP_MEMBERS_COUNT = n ∧
          (n ≠ s.rd Reg.STP_MEMBERS_COUNT → t.evtStatus 1767 = true)))

/-- A request is served while the Belfry runs, by the command of its code alone. Its version must be 1.0 to 1.2, else
ERROR VersionMismatch; it must come in its order, else ERROR UnexpectedRequest. GET_VERSION answers 1.0 to 1.2 and
begins the connection anew; GET_CAPABILITIES answers CERT_CAP, CHAL_CAP and MEAS_CAP; NEGOTIATE_ALGORITHMS chooses
ECDSA P-384 and SHA-384 where the request offers them. GET_DIGESTS and GET_CERTIFICATE give the two chains, CHALLENGE
and GET_MEASUREMENTS are signed by the alias key over the transcript; a measurement is a register of the measurement
set. Any other code gets ERROR UnsupportedRequest. The messages' bytes are those of DSP0274 (the model's, PRESUMED,
log entry 35). -/
def Obligations.SpdmResponderAnswers : Prop :=
  ∀ (req : List Byte) (s : State),
    let codes : List (Nat × Nat × Instr) := [(0x84, 0, .getVersion req), (0xE1, 1, .getCapabilities req), (0xE3, 2, .negotiateAlgorithms req), (0x81, 3, .getDigests req), (0x82, 3, .getCertificate req),
      (0x83, 3, .challenge req), (0xE0, 3, .getMeasurements req)]
    let code := byteAt req 1
    let version := byteAt req 0
    let answers (i : Instr) (rsp : List Byte) : Prop := ∃ t, exec i s = .next t ∧ t.port.sent = s.port.sent ++ [0x05 :: rsp] ∧ t.boot = s.boot
    let fails (i : Instr) (c d : Nat) : Prop := ∃ t, exec i s = .next t ∧ t.port = { s.port with sent := s.port.sent ++ [0x05 :: (req.take 1 ++ [0x7F, BitVec.ofNat 8 c, BitVec.ofNat 8 d])] } ∧
      t.boot = s.boot ∧ t.regs = s.regs
    let slot := byteAt req 2 % 16
    (∀ p ∈ codes, s.belfryRuns = false ∨ code ≠ p.1 → exec p.2.2 s = .next s) ∧
    (s.belfryRuns = false ∨ (∃ p ∈ codes, code = p.1) → exec (.spdmUnsupportedRequest req) s = .next s) ∧
    (s.belfryRuns = true → (∀ p ∈ codes, code ≠ p.1) → fails (.spdmUnsupportedRequest req) 0x07 code) ∧
    (s.belfryRuns = true → ∀ p ∈ codes, code = p.1 →
      (version < 0x10 ∨ 0x12 < version → fails p.2.2 0x41 0) ∧ (0x10 ≤ version → version ≤ 0x12 → s.port.stage < p.2.1 → fails p.2.2 0x04 0)) ∧
    (s.belfryRuns = true → 0x10 ≤ version → version ≤ 0x12 →
      (code = 0x84 → answers (.getVersion req) [0x10, 0x04, 0, 0, 0, 3, 0x00, 0x10, 0x00, 0x11, 0x00, 0x12] ∧
        ∃ t, exec (.getVersion req) s = .next t ∧ t.port.stage = 1 ∧ t.port.certs = [] ∧ t.port.meas = [] ∧
          t.port.vca = req ++ [0x10, 0x04, 0, 0, 0, 3, 0x00, 0x10, 0x00, 0x11, 0x00, 0x12]) ∧
      (code = 0xE1 → 1 ≤ s.port.stage →
        let rsp := req.take 1 ++ [0x61, 0, 0, 0] ++ leBytes 1 Config.ctExponent ++ [0, 0, 0x16, 0, 0, 0] ++ if version = 0x12 then [0, 0x10, 0, 0, 0, 0x10, 0, 0] else [];
        answers (.getCapabilities req) rsp ∧ ∃ t, exec (.getCapabilities req) s = .next t ∧ t.port.stage = max 2 s.port.stage ∧ t.port.vca = s.port.vca ++ req ++ rsp) ∧
      (code = 0xE3 → 2 ≤ s.port.stage →
        let asym := (byteAt req 8).testBit 7
        let hash := (byteAt req 12).testBit 1
        let spec := byteAt req 6 % 2
        let rsp := req.take 1 ++ [0x63, 0, 0, 36, 0, BitVec.ofNat 8 spec, 0, BitVec.ofNat 8 (4 * spec), 0, 0, 0, if asym then 0x80 else 0, 0, 0, 0, if hash then 0x02 else 0, 0, 0, 0] ++
          List.replicate 16 0;
        answers (.negotiateAlgorithms req) rsp ∧ ∃ t, exec (.negotiateAlgorithms req) s = .next t ∧ t.port.stage = (if asym = true ∧ hash = true then 3 else s.port.stage)) ∧
      (code = 0x81 → 3 ≤ s.port.stage →
        answers (.getDigests req) (req.take 1 ++ [0x01, 0, 0x03] ++ digestBytes (Config.sha384 (s.certChain 0)) ++ digestBytes (Config.sha384 (s.certChain 1)))) ∧
      (code = 0x82 → 3 ≤ s.port.stage →
        let chain := s.certChain slot
        let off := leAt req 4 2
        (1 < slot ∨ chain.length ≤ off → fails (.getCertificate req) 0x01 0) ∧
        (slot ≤ 1 → off < chain.length →
          let part := (chain.drop off).take (min 4088 (leAt req 6 2))
          answers (.getCertificate req) (req.take 1 ++ [0x02, BitVec.ofNat 8 slot, 0] ++ leBytes 2 part.length ++ leBytes 2 (chain.length - off - part.length) ++ part))) ∧
      (code = 0x83 → 3 ≤ s.port.stage →
        (1 < slot → fails (.challenge req) 0x01 0) ∧
        (slot ≤ 1 → ∃ nonce : List Byte, nonce.length = 32 ∧
          let summary := if byteAt req 3 = 0 then [] else digestBytes (Config.sha384 ((List.range 10).flatMap fun k => s.measBlock (k + 1)))
          let body := req.take 1 ++ [0x03, BitVec.ofNat 8 slot, 0x03] ++ digestBytes (Config.sha384 (s.certChain slot)) ++ nonce ++ summary ++ [0, 0]
          let signed := signContext version (ascii "responder-challenge_auth signing") (Config.sha384 (s.port.vca ++ s.port.certs ++ req ++ body))
          answers (.challenge req) (body ++ s.signAlias signed))) ∧
      (code = 0xE0 → 3 ≤ s.port.stage →
        let op := byteAt req 3
        let sig := (byteAt req 2).testBit 0
        let slot4 := if sig = true then byteAt req 36 % 16 else 0
        (1 < slot4 ∨ (10 < op ∧ op ≠ 0xFF) → fails (.getMeasurements req) 0x01 0) ∧
        (slot4 ≤ 1 → op ≤ 10 ∨ op = 0xFF → ∃ nonce : List Byte, nonce.length = 32 ∧
          let blocks := if op = 0 then [] else if op = 0xFF then (List.range 10).flatMap fun k => s.measBlock (k + 1) else s.measBlock op
          let body := req.take 1 ++ [0x60, if op = 0 then 10 else 0, BitVec.ofNat 8 slot4, if op = 0 then 0 else if op = 0xFF then 10 else 1] ++ leBytes 3 blocks.length ++ blocks ++ nonce ++ [0, 0]
          let signed := signContext version (ascii "responder-measurements signing") (Config.sha384 ((if version = 0x12 then s.port.vca else []) ++ (s.port.meas ++ req ++ body)))
          answers (.getMeasurements req) (if sig = true then body ++ s.signAlias signed else body) ∧
            ∃ t, exec (.getMeasurements req) s = .next t ∧ t.port.meas = if sig = true then [] else s.port.meas ++ req ++ body)))
end

