-- ==== Sys2Proof/Laws/Tables.lean ====
section
/-!
SUPPORT. Laws/Tables.lean: the laws of the sparse tables that hold registers, OTP, DRAM lines and the like: a read after a
write, and that a write keeps the canonical form.
-/
namespace Sys2Proof.Machine

section
variable {V : Type} {d : Nat → V}

/-- A prefix without key j does not change what j reads as. -/
theorem mapGet_append {l r : SMap V} {j : Nat} (h : ∀ e ∈ l, e.1 ≠ j) : mapGet d (l ++ r) j = mapGet d r j := by
  induction l with
  | nil => rfl
  | cons x l ih =>
    rw [List.cons_append, mapGet, if_neg (Ne.symm (h x List.mem_cons_self))]
    exact ih fun e he => h e (List.mem_cons_of_mem x he)

/-- A key below k reads in the entries below k as in the whole table, whatever follows them, if it is not listed after. -/
theorem mapGet_filter_lt {m r : SMap V} {j k : Nat} (hj : j < k) (hr : mapGet d r j = d j) :
    mapGet d ((m.filter fun (e : Nat × V) => e.1 < k) ++ r) j = mapGet d m j := by
  induction m with
  | nil => exact hr
  | cons x m ih =>
    obtain ⟨a, v⟩ := x
    rw [List.filter_cons]
    split
    · rw [List.cons_append, mapGet, mapGet, ih]
    · rename_i h
      rw [ih, mapGet, if_neg]
      intro e
      simp at h
      omega

/-- A key above k reads in the entries above k as in the whole table; a key that is not above it is unlisted there. -/
theorem mapGet_filter_gt {m : SMap V} {j k : Nat} :
    mapGet d (m.filter fun (e : Nat × V) => k < e.1) j = if k < j then mapGet d m j else d j := by
  induction m with
  | nil => split <;> rfl
  | cons x m ih =>
    obtain ⟨a, v⟩ := x
    rw [List.filter_cons]
    split
    · rename_i h
      simp at h
      rw [mapGet, mapGet, ih]
      split
      · rw [if_pos (by omega)]
      · rfl
    · rename_i h
      simp at h
      rw [ih, mapGet]
      split
      · rw [if_neg (by omega)]
      · rfl

variable [DecidableEq V]

/-- Reading after a write: the key written reads as the value, every other key as before. -/
theorem mapGet_mapSet (m : SMap V) (k : Nat) (v : V) (j : Nat) :
    mapGet d (mapSet d m k v) j = if j = k then v else mapGet d m j := by
  have hb : ∀ j, k ≤ j → ∀ e ∈ (m.filter fun (e : Nat × V) => e.1 < k), e.1 ≠ j := by
    intro j hj e he
    have := (List.mem_filter.mp he).2
    simp at this
    omega
  unfold mapSet
  rcases Nat.lt_trichotomy j k with h | h | h
  · rw [mapGet_filter_lt h, if_neg (by omega)]
    rw [mapGet_append, mapGet_filter_gt, if_neg (by omega)]
    intro e he
    split at he
    · simp at he
    · simp at he
      subst he
      exact fun e => by simp at e; omega
  · subst h
    rw [mapGet_append (hb j le_rfl), if_pos rfl]
    split
    · rw [List.nil_append, mapGet_filter_gt, if_neg (by omega)]
      exact Eq.symm ‹_›
    · rw [List.singleton_append, mapGet, if_pos rfl]
  · rw [mapGet_append (hb j h.le), if_neg (show ¬j = k by omega), mapGet_append, mapGet_filter_gt, if_pos h]
    intro e he
    split at he
    · simp at he
    · simp at he
      subst he
      exact fun e => by simp at e; omega

theorem mapWfFrom_cons {b a : Nat} {v : V} {m : SMap V} :
    mapWfFrom d b ((a, v) :: m) = true ↔ b ≤ a ∧ v ≠ d a ∧ mapWfFrom d (a + 1) m = true := by
  simp [mapWfFrom, and_assoc]

theorem mapWfFrom_mono {b c : Nat} {m : SMap V} (h : c ≤ b) (hm : mapWfFrom d b m = true) : mapWfFrom d c m = true := by
  cases m with
  | nil => rfl
  | cons x m =>
    rw [mapWfFrom_cons] at hm ⊢
    exact ⟨h.trans hm.1, hm.2⟩

/-- The canonical form, said of the table as a whole: keys rising, and no entry equal to its unlisted value. -/
theorem mapWfFrom_iff {b : Nat} {m : SMap V} :
    mapWfFrom d b m = true ↔ m.Pairwise (fun x y => x.1 < y.1) ∧ ∀ e ∈ m, b ≤ e.1 ∧ e.2 ≠ d e.1 := by
  induction m generalizing b with
  | nil => simp [mapWfFrom]
  | cons x m ih =>
    obtain ⟨a, v⟩ := x
    rw [mapWfFrom_cons, ih, List.pairwise_cons]
    constructor
    · rintro ⟨h1, h2, h3, h4⟩
      refine ⟨⟨fun e he => (h4 e he).1, h3⟩, fun e he => ?_⟩
      rcases List.mem_cons.mp he with rfl | he
      · exact ⟨h1, h2⟩
      · exact ⟨by have := (h4 e he).1; omega, (h4 e he).2⟩
    · rintro ⟨⟨h1, h2⟩, h3⟩
      exact ⟨(h3 _ List.mem_cons_self).1, (h3 _ List.mem_cons_self).2, h2,
        fun e he => ⟨h1 e he, (h3 e (List.mem_cons_of_mem _ he)).2⟩⟩

/-- A write keeps the canonical form. -/
theorem mapWf_mapSet {m : SMap V} {k : Nat} {v : V} (hm : mapWf d m = true) : mapWf d (mapSet d m k v) = true := by
  unfold mapWf at hm ⊢
  rw [mapWfFrom_iff] at hm ⊢
  obtain ⟨hp, he⟩ := hm
  unfold mapSet
  have hmid : ∀ e ∈ (if v = d k then [] else [(k, v)] : SMap V), e.1 = k ∧ e.2 ≠ d e.1 := by
    intro e h
    split at h
    · simp at h
    · simp at h
      subst h
      exact ⟨rfl, ‹_›⟩
  constructor
  · rw [List.pairwise_append, List.pairwise_append]
    refine ⟨hp.filter _, ⟨?_, hp.filter _, ?_⟩, ?_⟩
    · split <;> simp
    · intro x hx y hy
      have := (List.mem_filter.mp hy).2
      simp at this
      rw [(hmid x hx).1]
      exact this
    · intro x hx y hy
      have h1 := (List.mem_filter.mp hx).2
      simp at h1
      rcases List.mem_append.mp hy with hy | hy
      · rw [(hmid y hy).1]
        exact h1
      · have h2 := (List.mem_filter.mp hy).2
        simp at h2
        omega
  · intro e h
    rcases List.mem_append.mp h with h | h
    · exact he e (List.mem_of_mem_filter h)
    · rcases List.mem_append.mp h with h | h
      · exact ⟨Nat.zero_le _, (hmid e h).2⟩
      · exact he e (List.mem_of_mem_filter h)

/-- Leaving entries out keeps the canonical form. -/
theorem mapWf_filter {m : SMap V} (p : Nat × V → Bool) (hm : mapWf d m = true) : mapWf d (m.filter p) = true := by
  unfold mapWf at hm ⊢
  rw [mapWfFrom_iff] at hm ⊢
  exact ⟨hm.1.filter _, fun e h => hm.2 e (List.mem_of_mem_filter h)⟩

end

end Sys2Proof.Machine
end

