-- ==== Sys2Proof/Laws/Registers.lean ====
section
/-!
SUPPORT. Laws/Registers.lean: reading register fields after writing them.
-/
namespace Sys2Proof.Machine

theorem testBit_bitsOf (w : Word) (l n i : Nat) : (bitsOf w l n).testBit i = (decide (i < n) && w.getLsbD (l + i)) := by
  unfold bitsOf
  rw [Nat.testBit_mod_two_pow, Nat.testBit_div_two_pow, BitVec.getLsbD, Nat.add_comm l i]

theorem getLsbD_putBits {w : Word} {l n v j : Nat} (hj : j < 32) :
    (putBits w l n v).getLsbD j = if l ≤ j ∧ j < l + n then v.testBit (j - l) else w.getLsbD j := by
  unfold putBits
  simp only [BitVec.getLsbD_or, BitVec.getLsbD_and, BitVec.getLsbD_not, BitVec.getLsbD_ofNat, Nat.testBit_mul_two_pow,
    Nat.testBit_two_pow_sub_one, Nat.testBit_mod_two_pow, hj, decide_true, Bool.true_and]
  by_cases h : l ≤ j
  · by_cases h2 : j < l + n
    · rw [if_pos ⟨h, h2⟩]
      simp [h, show j - l < n by omega]
    · rw [if_neg (by omega)]
      simp [show ¬j - l < n by omega]
  · rw [if_neg (by omega)]
    simp [h]

/-- A field reads as the value put there. -/
theorem bitsOf_putBits {w : Word} {l n v : Nat} (h : l + n ≤ 32) : bitsOf (putBits w l n v) l n = v % 2 ^ n := by
  apply Nat.eq_of_testBit_eq
  intro i
  rw [testBit_bitsOf, Nat.testBit_mod_two_pow]
  by_cases hi : i < n
  · rw [getLsbD_putBits (by omega), if_pos (by omega), Nat.add_sub_cancel_left]
  · simp [hi]

/-- A field apart from the one written reads as before. -/
theorem bitsOf_putBits_other {w : Word} {l n v k m : Nat} (h : k + m ≤ l ∨ l + n ≤ k) :
    bitsOf (putBits w l n v) k m = bitsOf w k m := by
  apply Nat.eq_of_testBit_eq
  intro i
  rw [testBit_bitsOf, testBit_bitsOf]
  by_cases hi : i < m
  · by_cases h32 : k + i < 32
    · rw [getLsbD_putBits h32, if_neg (by omega)]
    · rw [BitVec.getLsbD_of_ge _ _ (by omega), BitVec.getLsbD_of_ge _ _ (by omega)]
  · simp [hi]

theorem reg_setReg (s : State) (off : Nat) (w : Word) (o : Nat) : (s.setReg off w).reg o = if o = off then w else s.reg o :=
  mapGet_mapSet _ _ _ _

@[simp] theorem reg_setReg_same (s : State) (off : Nat) (w : Word) : (s.setReg off w).reg off = w := by
  rw [reg_setReg, if_pos rfl]

theorem reg_setReg_other {s : State} {off : Nat} {w : Word} {o : Nat} (h : o ≠ off) : (s.setReg off w).reg o = s.reg o := by
  rw [reg_setReg, if_neg h]

/-- A field written reads as the value, cut to its width. -/
theorem rd_wr {s : State} {f : Field} {v : Nat} (h : f.lsb + f.width ≤ 32) : (s.wr f v).rd f = v % 2 ^ f.width := by
  rw [State.rd, State.wr, reg_setReg_same, bitsOf_putBits h]

/-- A field of another register reads as before. -/
theorem rd_wr_off {s : State} {f g : Field} {v : Nat} (h : g.off ≠ f.off) : (s.wr f v).rd g = s.rd g := by
  rw [State.rd, State.wr, reg_setReg_other h, State.rd]

/-- A field of the same register apart from the one written reads as before. -/
theorem rd_wr_apart {s : State} {f g : Field} {v : Nat} (h : g.lsb + g.width ≤ f.lsb ∨ f.lsb + f.width ≤ g.lsb) :
    (s.wr f v).rd g = s.rd g := by
  rw [State.rd, State.wr, reg_setReg]
  split
  · rw [bitsOf_putBits_other h, State.rd, ‹g.off = f.off›]
  · rfl

theorem reg_wr_other {s : State} {f : Field} {v o : Nat} (h : o ≠ f.off) : (s.wr f v).reg o = s.reg o := by
  rw [State.wr, reg_setReg_other h]

end Sys2Proof.Machine
end

