-- ==== Sys2Proof/Laws/Events.lean ====
section
/-!
SUPPORT. Laws/Events.lean: what interrupts, completions, event sources, violations and records can change: one lemma an
operation.
-/
namespace Sys2Proof.Machine

/-- An MSI-X write touches the interrupt side alone. -/
theorem msix_frame (s : State) (c vec : Nat) : ∃ e n, s.msix c vec = { s with evt := e, nvme := n } := by
  unfold State.msix
  dsimp only
  split
  · exact ⟨s.evt, s.nvme, rfl⟩
  · split
    · exact ⟨s.evt, _, rfl⟩
    · exact ⟨_, s.nvme, rfl⟩

/-- The signal of a completion queue touches the interrupt side alone. -/
theorem cqSignal_frame (s : State) (c q vec : Nat) : ∃ e n, s.cqSignal c q vec = { s with evt := e, nvme := n } := by
  unfold State.cqSignal
  dsimp only
  split
  · exact ⟨s.evt, _, rfl⟩
  · split
    · exact msix_frame s c vec
    · split
      · obtain ⟨e, n, h⟩ := msix_frame (s.modCtrl c fun y => { y with coal := mapSet (fun _ => (0, 0)) y.coal vec (0, 0) }) c vec
        exact ⟨e, n, h⟩
      · exact ⟨s.evt, _, rfl⟩

/-- A completion touches the controllers and the interrupt side alone. -/
theorem post_frame (s : State) (x : Cpl) : ∃ e n, s.post x = { s with evt := e, nvme := n } := by
  unfold State.post
  split
  · exact ⟨s.evt, s.nvme, rfl⟩
  · extract_lets n1 s1 k q
    clear_value q
    split
    · exact ⟨s.evt, _, rfl⟩
    · split
      · rename_i e _
        dsimp only
        split
        · obtain ⟨e2, n, h⟩ := cqSignal_frame (s1.setCtrl x.ctrl { k with cqs := k.cqs.map fun f => if f.1 == q then
            (q, { e.2 with tail := if e.2.size ≤ e.2.tail + 1 then 0 else e.2.tail + 1 }) else f }) x.ctrl q e.2.vector
          exact ⟨e2, n, h⟩
        · exact ⟨s.evt, _, rfl⟩
      · split
        · obtain ⟨e2, n, h⟩ := cqSignal_frame s1 x.ctrl 0 0
          exact ⟨e2, n, h⟩
        · exact ⟨s.evt, _, rfl⟩

/-- An asynchronous event touches the controllers and the interrupt side alone. -/
theorem aen_frame (s : State) (c : Nat) (a : Aen) : ∃ e n, s.aen c a = { s with evt := e, nvme := n } := by
  unfold State.aen
  dsimp only
  split
  · exact ⟨s.evt, s.nvme, rfl⟩
  · split
    · rename_i cid rest _
      obtain ⟨e, n, h⟩ := post_frame
        (s.setCtrl c { s.ctrl c with aers := rest, withheld := (s.ctrl c).withheld ++ [a.page] })
        ⟨c, false, 0, cid, 0, 0, false, 0, aenDw0 a, 0, []⟩
      exact ⟨e, n, h⟩
    · exact ⟨s.evt, _, rfl⟩

/-- A fold of operations that touch the controllers and the interrupt side alone does too. -/
theorem foldl_evt_frame {α : Type} (g : State → α → State)
    (h : ∀ t x, ∃ e n, g t x = { t with evt := e, nvme := n }) (l : List α) (s : State) :
    ∃ e n, l.foldl g s = { s with evt := e, nvme := n } := by
  induction l generalizing s with
  | nil => exact ⟨s.evt, s.nvme, rfl⟩
  | cons x l ih =>
    obtain ⟨e, n, hx⟩ := h s x
    obtain ⟨e2, n2, h2⟩ := ih (g s x)
    refine ⟨e2, n2, ?_⟩
    rw [List.foldl_cons, h2, hx]

/-- The delivery of a source touches the controllers and the interrupt side alone. -/
theorem deliver_frame (s : State) (src : Nat) : ∃ e n, s.deliver src = { s with evt := e, nvme := n } := by
  unfold State.deliver
  dsimp only
  obtain ⟨e, n, h⟩ := foldl_evt_frame (fun t c => if (s.route src c).1 then t.msix c (s.route src c).2 else t) (by
    intro t x
    split
    · exact msix_frame t _ _
    · exact ⟨t.evt, t.nvme, rfl⟩) s.ctrls s
  rw [h]
  obtain ⟨e2, n2, h2⟩ := foldl_evt_frame
    (fun t c => if (s.reg (0x02000008 + 0x10 * src)).getLsbD c then t.aen c ⟨7, src / 64, logPageOf src⟩ else t) (by
    intro t x
    split
    · exact aen_frame t _ _
    · exact ⟨t.evt, t.nvme, rfl⟩) (State.ctrls { s with evt := e, nvme := n }) { s with evt := e, nvme := n }
  exact ⟨e2, n2, h2⟩

/-- A source that occurs changes its status bit, the controllers and the interrupt side, and nothing else. -/
theorem raise_frame (s : State) (src : Nat) :
    ∃ r e n, s.raise src = { s with regs := r, evt := e, nvme := n } ∧
      (∀ o, o ≠ statusOff src → (s.raise src).reg o = s.reg o) ∧
      (s.raise src).reg (statusOff src) = s.reg (statusOff src) ||| BitVec.ofNat 32 (2 ^ (src % 32)) := by
  unfold State.raise
  split
  · rename_i h
    refine ⟨s.regs, s.evt, s.nvme, rfl, fun _ _ => rfl, ?_⟩
    unfold State.evtStatus at h
    apply BitVec.eq_of_getLsbD_eq
    intro i hi
    rw [BitVec.getLsbD_or, BitVec.getLsbD_ofNat, Nat.testBit_two_pow]
    by_cases e : src % 32 = i
    · subst e; simp [h]
    · simp [e]
  · dsimp only
    split
    · refine ⟨_, _, s.nvme, rfl, fun o ho => ?_, ?_⟩
      · exact reg_setReg_other (s := s) ho
      · exact reg_setReg_same s _ _
    · obtain ⟨e, n, h⟩ := deliver_frame { s.setStatus src with
        evt := { (s.setStatus src).evt with belfry := (s.setStatus src).evt.belfry ++ [src], ftl := (s.setStatus src).evt.ftl ++ [src] } } src
      rw [h]
      refine ⟨_, _, _, rfl, fun o ho => ?_, ?_⟩
      · exact reg_setReg_other (s := s) ho
      · exact reg_setReg_same s _ _

theorem raise_reg {s : State} {src o : Nat} (h : o ≠ statusOff src) : (s.raise src).reg o = s.reg o :=
  (raise_frame s src).choose_spec.choose_spec.choose_spec.2.1 o h

theorem raise_rd {s : State} {src : Nat} {f : Field} (h : f.off ≠ statusOff src) : (s.raise src).rd f = s.rd f := by
  rw [State.rd, raise_reg h, State.rd]

/-- The status of a source that occurred is 1. -/
theorem raise_status (s : State) (src : Nat) : (s.raise src).evtStatus src = true := by
  unfold State.evtStatus
  rw [(raise_frame s src).choose_spec.choose_spec.choose_spec.2.2, BitVec.getLsbD_or, BitVec.getLsbD_ofNat,
    Nat.testBit_two_pow_self]
  simp [Nat.mod_lt]

/-- The parts of the state an event source never touches. -/
theorem raise_parts (s : State) (src : Nat) : (s.raise src).fit = s.fit ∧ (s.raise src).image = s.image ∧
    (s.raise src).boot = s.boot ∧ (s.raise src).board = s.board ∧ (s.raise src).life = s.life ∧ (s.raise src).stp = s.stp ∧
    (s.raise src).win = s.win ∧ (s.raise src).path = s.path ∧ (s.raise src).ftl = s.ftl ∧ (s.raise src).cph = s.cph ∧
    (s.raise src).takes = s.takes ∧ (s.raise src).pwr = s.pwr ∧ (s.raise src).slv = s.slv ∧ (s.raise src).links = s.links ∧
    (s.raise src).thm = s.thm ∧ (s.raise src).dram = s.dram ∧ (s.raise src).mnt = s.mnt ∧ (s.raise src).maint = s.maint ∧
    (s.raise src).port = s.port ∧ (s.raise src).now = s.now ∧ (s.raise src).latches = s.latches := by
  obtain ⟨r, e, n, h, -⟩ := raise_frame s src
  rw [h]
  simp

/-- A completed command leaves the registers alone. -/
theorem complete_frame (s : State) (c : Sqe) (st : Status) (dw0 dw1 : Nat) (data : List Byte) :
    ∃ e n, s.complete c st dw0 dw1 data = { s with evt := e, nvme := n } := by
  unfold State.complete
  dsimp only
  split
  · exact post_frame s _
  · obtain ⟨e, n, h⟩ := post_frame (s.logError c.ctrl.val c.sq c.cid st.sct st.sc c.nsid)
      ⟨c.ctrl.val, c.mi, c.sq, c.cid, st.sct, st.sc, st.dnr, st.crd, dw0, dw1, data⟩
    exact ⟨e, n, h⟩

/-- What the lifetime log takes in changes the log, the registers that show it, and, at severity 3, source 1,782. -/
theorem record_frame (s : State) (ty severity : Nat) (data : List Nat) :
    ∃ l r e n, s.record ty severity data = { s with life := l, regs := r, evt := e, nvme := n } := by
  unfold State.record
  dsimp only
  split
  · obtain ⟨r, e, n, h, -⟩ := raise_frame (({ s with
      life := ({ s.life with
        events := (⟨s.life.seq + 1, if s.stp.established then s.steepleTime else 0, s.auxMs, ty, severity, data⟩ ::
          s.life.events).take 258048
        seq := s.life.seq + 1 } : Life).changed } : State).wr64 Reg.BEL_LOG_SEQ_LO Reg.BEL_LOG_SEQ_HI (s.life.seq + 1)) 1782
    rw [h]
    exact ⟨_, _, _, _, rfl⟩
  · exact ⟨_, _, s.evt, s.nvme, rfl⟩

/-- A counter of the lifetime log changes the log alone. -/
theorem tally_frame (s : State) (off n : Nat) : ∃ l, s.tally off n = { s with life := l } := by
  unfold State.tally
  split
  · exact ⟨s.life, rfl⟩
  · exact ⟨_, rfl⟩

end Sys2Proof.Machine
end

