-- ==== Sys2Proof/Laws/State.lean ====
section
/-!
SUPPORT. Laws/State.lean: what each update of State leaves alone, one lemma a field, each true by definition.
-/
namespace Sys2Proof.Machine

@[simp] theorem State.setReg_pending (s : State) (o : Nat) (w : Word) : (s.setReg o w).pending = s.pending := rfl
@[simp] theorem State.setReg_now (s : State) (o : Nat) (w : Word) : (s.setReg o w).now = s.now := rfl
@[simp] theorem State.setReg_fresh (s : State) (o : Nat) (w : Word) : (s.setReg o w).fresh = s.fresh := rfl
@[simp] theorem State.setReg_latches (s : State) (o : Nat) (w : Word) : (s.setReg o w).latches = s.latches := rfl
@[simp] theorem State.setReg_reads (s : State) (o : Nat) (w : Word) : (s.setReg o w).reads = s.reads := rfl
@[simp] theorem State.setReg_pages (s : State) (o : Nat) (w : Word) : (s.setReg o w).pages = s.pages := rfl
@[simp] theorem State.setReg_fit (s : State) (o : Nat) (w : Word) : (s.setReg o w).fit = s.fit := rfl
@[simp] theorem State.setReg_evt (s : State) (o : Nat) (w : Word) : (s.setReg o w).evt = s.evt := rfl
@[simp] theorem State.setReg_image (s : State) (o : Nat) (w : Word) : (s.setReg o w).image = s.image := rfl
@[simp] theorem State.setReg_boot (s : State) (o : Nat) (w : Word) : (s.setReg o w).boot = s.boot := rfl
@[simp] theorem State.setReg_board (s : State) (o : Nat) (w : Word) : (s.setReg o w).board = s.board := rfl
@[simp] theorem State.setReg_nvme (s : State) (o : Nat) (w : Word) : (s.setReg o w).nvme = s.nvme := rfl
@[simp] theorem State.setReg_life (s : State) (o : Nat) (w : Word) : (s.setReg o w).life = s.life := rfl
@[simp] theorem State.setReg_stp (s : State) (o : Nat) (w : Word) : (s.setReg o w).stp = s.stp := rfl
@[simp] theorem State.setReg_win (s : State) (o : Nat) (w : Word) : (s.setReg o w).win = s.win := rfl
@[simp] theorem State.setReg_path (s : State) (o : Nat) (w : Word) : (s.setReg o w).path = s.path := rfl
@[simp] theorem State.setReg_ftl (s : State) (o : Nat) (w : Word) : (s.setReg o w).ftl = s.ftl := rfl
@[simp] theorem State.setReg_cph (s : State) (o : Nat) (w : Word) : (s.setReg o w).cph = s.cph := rfl
@[simp] theorem State.setReg_takes (s : State) (o : Nat) (w : Word) : (s.setReg o w).takes = s.takes := rfl
@[simp] theorem State.setReg_pwr (s : State) (o : Nat) (w : Word) : (s.setReg o w).pwr = s.pwr := rfl
@[simp] theorem State.setReg_slv (s : State) (o : Nat) (w : Word) : (s.setReg o w).slv = s.slv := rfl
@[simp] theorem State.setReg_links (s : State) (o : Nat) (w : Word) : (s.setReg o w).links = s.links := rfl
@[simp] theorem State.setReg_thm (s : State) (o : Nat) (w : Word) : (s.setReg o w).thm = s.thm := rfl
@[simp] theorem State.setReg_dram (s : State) (o : Nat) (w : Word) : (s.setReg o w).dram = s.dram := rfl
@[simp] theorem State.setReg_mnt (s : State) (o : Nat) (w : Word) : (s.setReg o w).mnt = s.mnt := rfl
@[simp] theorem State.setReg_maint (s : State) (o : Nat) (w : Word) : (s.setReg o w).maint = s.maint := rfl
@[simp] theorem State.setReg_port (s : State) (o : Nat) (w : Word) : (s.setReg o w).port = s.port := rfl

@[simp] theorem State.wr_pending (s : State) (f : Field) (v : Nat) : (s.wr f v).pending = s.pending := rfl
@[simp] theorem State.wr_now (s : State) (f : Field) (v : Nat) : (s.wr f v).now = s.now := rfl
@[simp] theorem State.wr_fresh (s : State) (f : Field) (v : Nat) : (s.wr f v).fresh = s.fresh := rfl
@[simp] theorem State.wr_latches (s : State) (f : Field) (v : Nat) : (s.wr f v).latches = s.latches := rfl
@[simp] theorem State.wr_reads (s : State) (f : Field) (v : Nat) : (s.wr f v).reads = s.reads := rfl
@[simp] theorem State.wr_pages (s : State) (f : Field) (v : Nat) : (s.wr f v).pages = s.pages := rfl
@[simp] theorem State.wr_fit (s : State) (f : Field) (v : Nat) : (s.wr f v).fit = s.fit := rfl
@[simp] theorem State.wr_evt (s : State) (f : Field) (v : Nat) : (s.wr f v).evt = s.evt := rfl
@[simp] theorem State.wr_image (s : State) (f : Field) (v : Nat) : (s.wr f v).image = s.image := rfl
@[simp] theorem State.wr_boot (s : State) (f : Field) (v : Nat) : (s.wr f v).boot = s.boot := rfl
@[simp] theorem State.wr_board (s : State) (f : Field) (v : Nat) : (s.wr f v).board = s.board := rfl
@[simp] theorem State.wr_nvme (s : State) (f : Field) (v : Nat) : (s.wr f v).nvme = s.nvme := rfl
@[simp] theorem State.wr_life (s : State) (f : Field) (v : Nat) : (s.wr f v).life = s.life := rfl
@[simp] theorem State.wr_stp (s : State) (f : Field) (v : Nat) : (s.wr f v).stp = s.stp := rfl
@[simp] theorem State.wr_win (s : State) (f : Field) (v : Nat) : (s.wr f v).win = s.win := rfl
@[simp] theorem State.wr_path (s : State) (f : Field) (v : Nat) : (s.wr f v).path = s.path := rfl
@[simp] theorem State.wr_ftl (s : State) (f : Field) (v : Nat) : (s.wr f v).ftl = s.ftl := rfl
@[simp] theorem State.wr_cph (s : State) (f : Field) (v : Nat) : (s.wr f v).cph = s.cph := rfl
@[simp] theorem State.wr_takes (s : State) (f : Field) (v : Nat) : (s.wr f v).takes = s.takes := rfl
@[simp] theorem State.wr_pwr (s : State) (f : Field) (v : Nat) : (s.wr f v).pwr = s.pwr := rfl
@[simp] theorem State.wr_slv (s : State) (f : Field) (v : Nat) : (s.wr f v).slv = s.slv := rfl
@[simp] theorem State.wr_links (s : State) (f : Field) (v : Nat) : (s.wr f v).links = s.links := rfl
@[simp] theorem State.wr_thm (s : State) (f : Field) (v : Nat) : (s.wr f v).thm = s.thm := rfl
@[simp] theorem State.wr_dram (s : State) (f : Field) (v : Nat) : (s.wr f v).dram = s.dram := rfl
@[simp] theorem State.wr_mnt (s : State) (f : Field) (v : Nat) : (s.wr f v).mnt = s.mnt := rfl
@[simp] theorem State.wr_maint (s : State) (f : Field) (v : Nat) : (s.wr f v).maint = s.maint := rfl
@[simp] theorem State.wr_port (s : State) (f : Field) (v : Nat) : (s.wr f v).port = s.port := rfl

@[simp] theorem State.wr64_pending (s : State) (lo hi v : Nat) : (s.wr64 lo hi v).pending = s.pending := rfl
@[simp] theorem State.wr64_now (s : State) (lo hi v : Nat) : (s.wr64 lo hi v).now = s.now := rfl
@[simp] theorem State.wr64_fresh (s : State) (lo hi v : Nat) : (s.wr64 lo hi v).fresh = s.fresh := rfl
@[simp] theorem State.wr64_latches (s : State) (lo hi v : Nat) : (s.wr64 lo hi v).latches = s.latches := rfl
@[simp] theorem State.wr64_reads (s : State) (lo hi v : Nat) : (s.wr64 lo hi v).reads = s.reads := rfl
@[simp] theorem State.wr64_pages (s : State) (lo hi v : Nat) : (s.wr64 lo hi v).pages = s.pages := rfl
@[simp] theorem State.wr64_fit (s : State) (lo hi v : Nat) : (s.wr64 lo hi v).fit = s.fit := rfl
@[simp] theorem State.wr64_evt (s : State) (lo hi v : Nat) : (s.wr64 lo hi v).evt = s.evt := rfl
@[simp] theorem State.wr64_image (s : State) (lo hi v : Nat) : (s.wr64 lo hi v).image = s.image := rfl
@[simp] theorem State.wr64_boot (s : State) (lo hi v : Nat) : (s.wr64 lo hi v).boot = s.boot := rfl
@[simp] theorem State.wr64_board (s : State) (lo hi v : Nat) : (s.wr64 lo hi v).board = s.board := rfl
@[simp] theorem State.wr64_nvme (s : State) (lo hi v : Nat) : (s.wr64 lo hi v).nvme = s.nvme := rfl
@[simp] theorem State.wr64_life (s : State) (lo hi v : Nat) : (s.wr64 lo hi v).life = s.life := rfl
@[simp] theorem State.wr64_stp (s : State) (lo hi v : Nat) : (s.wr64 lo hi v).stp = s.stp := rfl
@[simp] theorem State.wr64_win (s : State) (lo hi v : Nat) : (s.wr64 lo hi v).win = s.win := rfl
@[simp] theorem State.wr64_path (s : State) (lo hi v : Nat) : (s.wr64 lo hi v).path = s.path := rfl
@[simp] theorem State.wr64_ftl (s : State) (lo hi v : Nat) : (s.wr64 lo hi v).ftl = s.ftl := rfl
@[simp] theorem State.wr64_cph (s : State) (lo hi v : Nat) : (s.wr64 lo hi v).cph = s.cph := rfl
@[simp] theorem State.wr64_takes (s : State) (lo hi v : Nat) : (s.wr64 lo hi v).takes = s.takes := rfl
@[simp] theorem State.wr64_pwr (s : State) (lo hi v : Nat) : (s.wr64 lo hi v).pwr = s.pwr := rfl
@[simp] theorem State.wr64_slv (s : State) (lo hi v : Nat) : (s.wr64 lo hi v).slv = s.slv := rfl
@[simp] theorem State.wr64_links (s : State) (lo hi v : Nat) : (s.wr64 lo hi v).links = s.links := rfl
@[simp] theorem State.wr64_thm (s : State) (lo hi v : Nat) : (s.wr64 lo hi v).thm = s.thm := rfl
@[simp] theorem State.wr64_dram (s : State) (lo hi v : Nat) : (s.wr64 lo hi v).dram = s.dram := rfl
@[simp] theorem State.wr64_mnt (s : State) (lo hi v : Nat) : (s.wr64 lo hi v).mnt = s.mnt := rfl
@[simp] theorem State.wr64_maint (s : State) (lo hi v : Nat) : (s.wr64 lo hi v).maint = s.maint := rfl
@[simp] theorem State.wr64_port (s : State) (lo hi v : Nat) : (s.wr64 lo hi v).port = s.port := rfl

@[simp] theorem State.bump_pending (s : State) (f : Field) : (s.bump f).pending = s.pending := rfl
@[simp] theorem State.bump_now (s : State) (f : Field) : (s.bump f).now = s.now := rfl
@[simp] theorem State.bump_fresh (s : State) (f : Field) : (s.bump f).fresh = s.fresh := rfl
@[simp] theorem State.bump_latches (s : State) (f : Field) : (s.bump f).latches = s.latches := rfl
@[simp] theorem State.bump_reads (s : State) (f : Field) : (s.bump f).reads = s.reads := rfl
@[simp] theorem State.bump_pages (s : State) (f : Field) : (s.bump f).pages = s.pages := rfl
@[simp] theorem State.bump_fit (s : State) (f : Field) : (s.bump f).fit = s.fit := rfl
@[simp] theorem State.bump_evt (s : State) (f : Field) : (s.bump f).evt = s.evt := rfl
@[simp] theorem State.bump_image (s : State) (f : Field) : (s.bump f).image = s.image := rfl
@[simp] theorem State.bump_boot (s : State) (f : Field) : (s.bump f).boot = s.boot := rfl
@[simp] theorem State.bump_board (s : State) (f : Field) : (s.bump f).board = s.board := rfl
@[simp] theorem State.bump_nvme (s : State) (f : Field) : (s.bump f).nvme = s.nvme := rfl
@[simp] theorem State.bump_life (s : State) (f : Field) : (s.bump f).life = s.life := rfl
@[simp] theorem State.bump_stp (s : State) (f : Field) : (s.bump f).stp = s.stp := rfl
@[simp] theorem State.bump_win (s : State) (f : Field) : (s.bump f).win = s.win := rfl
@[simp] theorem State.bump_path (s : State) (f : Field) : (s.bump f).path = s.path := rfl
@[simp] theorem State.bump_ftl (s : State) (f : Field) : (s.bump f).ftl = s.ftl := rfl
@[simp] theorem State.bump_cph (s : State) (f : Field) : (s.bump f).cph = s.cph := rfl
@[simp] theorem State.bump_takes (s : State) (f : Field) : (s.bump f).takes = s.takes := rfl
@[simp] theorem State.bump_pwr (s : State) (f : Field) : (s.bump f).pwr = s.pwr := rfl
@[simp] theorem State.bump_slv (s : State) (f : Field) : (s.bump f).slv = s.slv := rfl
@[simp] theorem State.bump_links (s : State) (f : Field) : (s.bump f).links = s.links := rfl
@[simp] theorem State.bump_thm (s : State) (f : Field) : (s.bump f).thm = s.thm := rfl
@[simp] theorem State.bump_dram (s : State) (f : Field) : (s.bump f).dram = s.dram := rfl
@[simp] theorem State.bump_mnt (s : State) (f : Field) : (s.bump f).mnt = s.mnt := rfl
@[simp] theorem State.bump_maint (s : State) (f : Field) : (s.bump f).maint = s.maint := rfl
@[simp] theorem State.bump_port (s : State) (f : Field) : (s.bump f).port = s.port := rfl

@[simp] theorem State.bumpBy_pending (s : State) (f : Field) (n : Nat) : (s.bumpBy f n).pending = s.pending := rfl
@[simp] theorem State.bumpBy_now (s : State) (f : Field) (n : Nat) : (s.bumpBy f n).now = s.now := rfl
@[simp] theorem State.bumpBy_fresh (s : State) (f : Field) (n : Nat) : (s.bumpBy f n).fresh = s.fresh := rfl
@[simp] theorem State.bumpBy_latches (s : State) (f : Field) (n : Nat) : (s.bumpBy f n).latches = s.latches := rfl
@[simp] theorem State.bumpBy_reads (s : State) (f : Field) (n : Nat) : (s.bumpBy f n).reads = s.reads := rfl
@[simp] theorem State.bumpBy_pages (s : State) (f : Field) (n : Nat) : (s.bumpBy f n).pages = s.pages := rfl
@[simp] theorem State.bumpBy_fit (s : State) (f : Field) (n : Nat) : (s.bumpBy f n).fit = s.fit := rfl
@[simp] theorem State.bumpBy_evt (s : State) (f : Field) (n : Nat) : (s.bumpBy f n).evt = s.evt := rfl
@[simp] theorem State.bumpBy_image (s : State) (f : Field) (n : Nat) : (s.bumpBy f n).image = s.image := rfl
@[simp] theorem State.bumpBy_boot (s : State) (f : Field) (n : Nat) : (s.bumpBy f n).boot = s.boot := rfl
@[simp] theorem State.bumpBy_board (s : State) (f : Field) (n : Nat) : (s.bumpBy f n).board = s.board := rfl
@[simp] theorem State.bumpBy_nvme (s : State) (f : Field) (n : Nat) : (s.bumpBy f n).nvme = s.nvme := rfl
@[simp] theorem State.bumpBy_life (s : State) (f : Field) (n : Nat) : (s.bumpBy f n).life = s.life := rfl
@[simp] theorem State.bumpBy_stp (s : State) (f : Field) (n : Nat) : (s.bumpBy f n).stp = s.stp := rfl
@[simp] theorem State.bumpBy_win (s : State) (f : Field) (n : Nat) : (s.bumpBy f n).win = s.win := rfl
@[simp] theorem State.bumpBy_path (s : State) (f : Field) (n : Nat) : (s.bumpBy f n).path = s.path := rfl
@[simp] theorem State.bumpBy_ftl (s : State) (f : Field) (n : Nat) : (s.bumpBy f n).ftl = s.ftl := rfl
@[simp] theorem State.bumpBy_cph (s : State) (f : Field) (n : Nat) : (s.bumpBy f n).cph = s.cph := rfl
@[simp] theorem State.bumpBy_takes (s : State) (f : Field) (n : Nat) : (s.bumpBy f n).takes = s.takes := rfl
@[simp] theorem State.bumpBy_pwr (s : State) (f : Field) (n : Nat) : (s.bumpBy f n).pwr = s.pwr := rfl
@[simp] theorem State.bumpBy_slv (s : State) (f : Field) (n : Nat) : (s.bumpBy f n).slv = s.slv := rfl
@[simp] theorem State.bumpBy_links (s : State) (f : Field) (n : Nat) : (s.bumpBy f n).links = s.links := rfl
@[simp] theorem State.bumpBy_thm (s : State) (f : Field) (n : Nat) : (s.bumpBy f n).thm = s.thm := rfl
@[simp] theorem State.bumpBy_dram (s : State) (f : Field) (n : Nat) : (s.bumpBy f n).dram = s.dram := rfl
@[simp] theorem State.bumpBy_mnt (s : State) (f : Field) (n : Nat) : (s.bumpBy f n).mnt = s.mnt := rfl
@[simp] theorem State.bumpBy_maint (s : State) (f : Field) (n : Nat) : (s.bumpBy f n).maint = s.maint := rfl
@[simp] theorem State.bumpBy_port (s : State) (f : Field) (n : Nat) : (s.bumpBy f n).port = s.port := rfl

@[simp] theorem State.wrSigned_pending (s : State) (f : Field) (i : Int) : (s.wrSigned f i).pending = s.pending := rfl
@[simp] theorem State.wrSigned_now (s : State) (f : Field) (i : Int) : (s.wrSigned f i).now = s.now := rfl
@[simp] theorem State.wrSigned_fresh (s : State) (f : Field) (i : Int) : (s.wrSigned f i).fresh = s.fresh := rfl
@[simp] theorem State.wrSigned_latches (s : State) (f : Field) (i : Int) : (s.wrSigned f i).latches = s.latches := rfl
@[simp] theorem State.wrSigned_reads (s : State) (f : Field) (i : Int) : (s.wrSigned f i).reads = s.reads := rfl
@[simp] theorem State.wrSigned_pages (s : State) (f : Field) (i : Int) : (s.wrSigned f i).pages = s.pages := rfl
@[simp] theorem State.wrSigned_fit (s : State) (f : Field) (i : Int) : (s.wrSigned f i).fit = s.fit := rfl
@[simp] theorem State.wrSigned_evt (s : State) (f : Field) (i : Int) : (s.wrSigned f i).evt = s.evt := rfl
@[simp] theorem State.wrSigned_image (s : State) (f : Field) (i : Int) : (s.wrSigned f i).image = s.image := rfl
@[simp] theorem State.wrSigned_boot (s : State) (f : Field) (i : Int) : (s.wrSigned f i).boot = s.boot := rfl
@[simp] theorem State.wrSigned_board (s : State) (f : Field) (i : Int) : (s.wrSigned f i).board = s.board := rfl
@[simp] theorem State.wrSigned_nvme (s : State) (f : Field) (i : Int) : (s.wrSigned f i).nvme = s.nvme := rfl
@[simp] theorem State.wrSigned_life (s : State) (f : Field) (i : Int) : (s.wrSigned f i).life = s.life := rfl
@[simp] theorem State.wrSigned_stp (s : State) (f : Field) (i : Int) : (s.wrSigned f i).stp = s.stp := rfl
@[simp] theorem State.wrSigned_win (s : State) (f : Field) (i : Int) : (s.wrSigned f i).win = s.win := rfl
@[simp] theorem State.wrSigned_path (s : State) (f : Field) (i : Int) : (s.wrSigned f i).path = s.path := rfl
@[simp] theorem State.wrSigned_ftl (s : State) (f : Field) (i : Int) : (s.wrSigned f i).ftl = s.ftl := rfl
@[simp] theorem State.wrSigned_cph (s : State) (f : Field) (i : Int) : (s.wrSigned f i).cph = s.cph := rfl
@[simp] theorem State.wrSigned_takes (s : State) (f : Field) (i : Int) : (s.wrSigned f i).takes = s.takes := rfl
@[simp] theorem State.wrSigned_pwr (s : State) (f : Field) (i : Int) : (s.wrSigned f i).pwr = s.pwr := rfl
@[simp] theorem State.wrSigned_slv (s : State) (f : Field) (i : Int) : (s.wrSigned f i).slv = s.slv := rfl
@[simp] theorem State.wrSigned_links (s : State) (f : Field) (i : Int) : (s.wrSigned f i).links = s.links := rfl
@[simp] theorem State.wrSigned_thm (s : State) (f : Field) (i : Int) : (s.wrSigned f i).thm = s.thm := rfl
@[simp] theorem State.wrSigned_dram (s : State) (f : Field) (i : Int) : (s.wrSigned f i).dram = s.dram := rfl
@[simp] theorem State.wrSigned_mnt (s : State) (f : Field) (i : Int) : (s.wrSigned f i).mnt = s.mnt := rfl
@[simp] theorem State.wrSigned_maint (s : State) (f : Field) (i : Int) : (s.wrSigned f i).maint = s.maint := rfl
@[simp] theorem State.wrSigned_port (s : State) (f : Field) (i : Int) : (s.wrSigned f i).port = s.port := rfl

@[simp] theorem State.setCtrl_pending (s : State) (c : Nat) (x : Ctrl) : (s.setCtrl c x).pending = s.pending := rfl
@[simp] theorem State.setCtrl_now (s : State) (c : Nat) (x : Ctrl) : (s.setCtrl c x).now = s.now := rfl
@[simp] theorem State.setCtrl_fresh (s : State) (c : Nat) (x : Ctrl) : (s.setCtrl c x).fresh = s.fresh := rfl
@[simp] theorem State.setCtrl_regs (s : State) (c : Nat) (x : Ctrl) : (s.setCtrl c x).regs = s.regs := rfl
@[simp] theorem State.setCtrl_latches (s : State) (c : Nat) (x : Ctrl) : (s.setCtrl c x).latches = s.latches := rfl
@[simp] theorem State.setCtrl_reads (s : State) (c : Nat) (x : Ctrl) : (s.setCtrl c x).reads = s.reads := rfl
@[simp] theorem State.setCtrl_pages (s : State) (c : Nat) (x : Ctrl) : (s.setCtrl c x).pages = s.pages := rfl
@[simp] theorem State.setCtrl_fit (s : State) (c : Nat) (x : Ctrl) : (s.setCtrl c x).fit = s.fit := rfl
@[simp] theorem State.setCtrl_evt (s : State) (c : Nat) (x : Ctrl) : (s.setCtrl c x).evt = s.evt := rfl
@[simp] theorem State.setCtrl_image (s : State) (c : Nat) (x : Ctrl) : (s.setCtrl c x).image = s.image := rfl
@[simp] theorem State.setCtrl_boot (s : State) (c : Nat) (x : Ctrl) : (s.setCtrl c x).boot = s.boot := rfl
@[simp] theorem State.setCtrl_board (s : State) (c : Nat) (x : Ctrl) : (s.setCtrl c x).board = s.board := rfl
@[simp] theorem State.setCtrl_life (s : State) (c : Nat) (x : Ctrl) : (s.setCtrl c x).life = s.life := rfl
@[simp] theorem State.setCtrl_stp (s : State) (c : Nat) (x : Ctrl) : (s.setCtrl c x).stp = s.stp := rfl
@[simp] theorem State.setCtrl_win (s : State) (c : Nat) (x : Ctrl) : (s.setCtrl c x).win = s.win := rfl
@[simp] theorem State.setCtrl_path (s : State) (c : Nat) (x : Ctrl) : (s.setCtrl c x).path = s.path := rfl
@[simp] theorem State.setCtrl_ftl (s : State) (c : Nat) (x : Ctrl) : (s.setCtrl c x).ftl = s.ftl := rfl
@[simp] theorem State.setCtrl_cph (s : State) (c : Nat) (x : Ctrl) : (s.setCtrl c x).cph = s.cph := rfl
@[simp] theorem State.setCtrl_takes (s : State) (c : Nat) (x : Ctrl) : (s.setCtrl c x).takes = s.takes := rfl
@[simp] theorem State.setCtrl_pwr (s : State) (c : Nat) (x : Ctrl) : (s.setCtrl c x).pwr = s.pwr := rfl
@[simp] theorem State.setCtrl_slv (s : State) (c : Nat) (x : Ctrl) : (s.setCtrl c x).slv = s.slv := rfl
@[simp] theorem State.setCtrl_links (s : State) (c : Nat) (x : Ctrl) : (s.setCtrl c x).links = s.links := rfl
@[simp] theorem State.setCtrl_thm (s : State) (c : Nat) (x : Ctrl) : (s.setCtrl c x).thm = s.thm := rfl
@[simp] theorem State.setCtrl_dram (s : State) (c : Nat) (x : Ctrl) : (s.setCtrl c x).dram = s.dram := rfl
@[simp] theorem State.setCtrl_mnt (s : State) (c : Nat) (x : Ctrl) : (s.setCtrl c x).mnt = s.mnt := rfl
@[simp] theorem State.setCtrl_maint (s : State) (c : Nat) (x : Ctrl) : (s.setCtrl c x).maint = s.maint := rfl
@[simp] theorem State.setCtrl_port (s : State) (c : Nat) (x : Ctrl) : (s.setCtrl c x).port = s.port := rfl
@[simp] theorem State.setCtrl_reg (s : State) (c : Nat) (x : Ctrl) (r : Nat) : (s.setCtrl c x).reg r = s.reg r := rfl
@[simp] theorem State.setCtrl_rd (s : State) (c : Nat) (x : Ctrl) (g : Field) : (s.setCtrl c x).rd g = s.rd g := rfl

@[simp] theorem State.modCtrl_pending (s : State) (c : Nat) (f : Ctrl → Ctrl) : (s.modCtrl c f).pending = s.pending := rfl
@[simp] theorem State.modCtrl_now (s : State) (c : Nat) (f : Ctrl → Ctrl) : (s.modCtrl c f).now = s.now := rfl
@[simp] theorem State.modCtrl_fresh (s : State) (c : Nat) (f : Ctrl → Ctrl) : (s.modCtrl c f).fresh = s.fresh := rfl
@[simp] theorem State.modCtrl_regs (s : State) (c : Nat) (f : Ctrl → Ctrl) : (s.modCtrl c f).regs = s.regs := rfl
@[simp] theorem State.modCtrl_latches (s : State) (c : Nat) (f : Ctrl → Ctrl) : (s.modCtrl c f).latches = s.latches := rfl
@[simp] theorem State.modCtrl_reads (s : State) (c : Nat) (f : Ctrl → Ctrl) : (s.modCtrl c f).reads = s.reads := rfl
@[simp] theorem State.modCtrl_pages (s : State) (c : Nat) (f : Ctrl → Ctrl) : (s.modCtrl c f).pages = s.pages := rfl
@[simp] theorem State.modCtrl_fit (s : State) (c : Nat) (f : Ctrl → Ctrl) : (s.modCtrl c f).fit = s.fit := rfl
@[simp] theorem State.modCtrl_evt (s : State) (c : Nat) (f : Ctrl → Ctrl) : (s.modCtrl c f).evt = s.evt := rfl
@[simp] theorem State.modCtrl_image (s : State) (c : Nat) (f : Ctrl → Ctrl) : (s.modCtrl c f).image = s.image := rfl
@[simp] theorem State.modCtrl_boot (s : State) (c : Nat) (f : Ctrl → Ctrl) : (s.modCtrl c f).boot = s.boot := rfl
@[simp] theorem State.modCtrl_board (s : State) (c : Nat) (f : Ctrl → Ctrl) : (s.modCtrl c f).board = s.board := rfl
@[simp] theorem State.modCtrl_life (s : State) (c : Nat) (f : Ctrl → Ctrl) : (s.modCtrl c f).life = s.life := rfl
@[simp] theorem State.modCtrl_stp (s : State) (c : Nat) (f : Ctrl → Ctrl) : (s.modCtrl c f).stp = s.stp := rfl
@[simp] theorem State.modCtrl_win (s : State) (c : Nat) (f : Ctrl → Ctrl) : (s.modCtrl c f).win = s.win := rfl
@[simp] theorem State.modCtrl_path (s : State) (c : Nat) (f : Ctrl → Ctrl) : (s.modCtrl c f).path = s.path := rfl
@[simp] theorem State.modCtrl_ftl (s : State) (c : Nat) (f : Ctrl → Ctrl) : (s.modCtrl c f).ftl = s.ftl := rfl
@[simp] theorem State.modCtrl_cph (s : State) (c : Nat) (f : Ctrl → Ctrl) : (s.modCtrl c f).cph = s.cph := rfl
@[simp] theorem State.modCtrl_takes (s : State) (c : Nat) (f : Ctrl → Ctrl) : (s.modCtrl c f).takes = s.takes := rfl
@[simp] theorem State.modCtrl_pwr (s : State) (c : Nat) (f : Ctrl → Ctrl) : (s.modCtrl c f).pwr = s.pwr := rfl
@[simp] theorem State.modCtrl_slv (s : State) (c : Nat) (f : Ctrl → Ctrl) : (s.modCtrl c f).slv = s.slv := rfl
@[simp] theorem State.modCtrl_links (s : State) (c : Nat) (f : Ctrl → Ctrl) : (s.modCtrl c f).links = s.links := rfl
@[simp] theorem State.modCtrl_thm (s : State) (c : Nat) (f : Ctrl → Ctrl) : (s.modCtrl c f).thm = s.thm := rfl
@[simp] theorem State.modCtrl_dram (s : State) (c : Nat) (f : Ctrl → Ctrl) : (s.modCtrl c f).dram = s.dram := rfl
@[simp] theorem State.modCtrl_mnt (s : State) (c : Nat) (f : Ctrl → Ctrl) : (s.modCtrl c f).mnt = s.mnt := rfl
@[simp] theorem State.modCtrl_maint (s : State) (c : Nat) (f : Ctrl → Ctrl) : (s.modCtrl c f).maint = s.maint := rfl
@[simp] theorem State.modCtrl_port (s : State) (c : Nat) (f : Ctrl → Ctrl) : (s.modCtrl c f).port = s.port := rfl
@[simp] theorem State.modCtrl_reg (s : State) (c : Nat) (f : Ctrl → Ctrl) (r : Nat) : (s.modCtrl c f).reg r = s.reg r := rfl
@[simp] theorem State.modCtrl_rd (s : State) (c : Nat) (f : Ctrl → Ctrl) (g : Field) : (s.modCtrl c f).rd g = s.rd g := rfl

@[simp] theorem State.modPcie_pending (s : State) (c : Nat) (f : Pcie → Pcie) : (s.modPcie c f).pending = s.pending := rfl
@[simp] theorem State.modPcie_now (s : State) (c : Nat) (f : Pcie → Pcie) : (s.modPcie c f).now = s.now := rfl
@[simp] theorem State.modPcie_fresh (s : State) (c : Nat) (f : Pcie → Pcie) : (s.modPcie c f).fresh = s.fresh := rfl
@[simp] theorem State.modPcie_regs (s : State) (c : Nat) (f : Pcie → Pcie) : (s.modPcie c f).regs = s.regs := rfl
@[simp] theorem State.modPcie_latches (s : State) (c : Nat) (f : Pcie → Pcie) : (s.modPcie c f).latches = s.latches := rfl
@[simp] theorem State.modPcie_reads (s : State) (c : Nat) (f : Pcie → Pcie) : (s.modPcie c f).reads = s.reads := rfl
@[simp] theorem State.modPcie_pages (s : State) (c : Nat) (f : Pcie → Pcie) : (s.modPcie c f).pages = s.pages := rfl
@[simp] theorem State.modPcie_fit (s : State) (c : Nat) (f : Pcie → Pcie) : (s.modPcie c f).fit = s.fit := rfl
@[simp] theorem State.modPcie_evt (s : State) (c : Nat) (f : Pcie → Pcie) : (s.modPcie c f).evt = s.evt := rfl
@[simp] theorem State.modPcie_image (s : State) (c : Nat) (f : Pcie → Pcie) : (s.modPcie c f).image = s.image := rfl
@[simp] theorem State.modPcie_boot (s : State) (c : Nat) (f : Pcie → Pcie) : (s.modPcie c f).boot = s.boot := rfl
@[simp] theorem State.modPcie_board (s : State) (c : Nat) (f : Pcie → Pcie) : (s.modPcie c f).board = s.board := rfl
@[simp] theorem State.modPcie_life (s : State) (c : Nat) (f : Pcie → Pcie) : (s.modPcie c f).life = s.life := rfl
@[simp] theorem State.modPcie_stp (s : State) (c : Nat) (f : Pcie → Pcie) : (s.modPcie c f).stp = s.stp := rfl
@[simp] theorem State.modPcie_win (s : State) (c : Nat) (f : Pcie → Pcie) : (s.modPcie c f).win = s.win := rfl
@[simp] theorem State.modPcie_path (s : State) (c : Nat) (f : Pcie → Pcie) : (s.modPcie c f).path = s.path := rfl
@[simp] theorem State.modPcie_ftl (s : State) (c : Nat) (f : Pcie → Pcie) : (s.modPcie c f).ftl = s.ftl := rfl
@[simp] theorem State.modPcie_cph (s : State) (c : Nat) (f : Pcie → Pcie) : (s.modPcie c f).cph = s.cph := rfl
@[simp] theorem State.modPcie_takes (s : State) (c : Nat) (f : Pcie → Pcie) : (s.modPcie c f).takes = s.takes := rfl
@[simp] theorem State.modPcie_pwr (s : State) (c : Nat) (f : Pcie → Pcie) : (s.modPcie c f).pwr = s.pwr := rfl
@[simp] theorem State.modPcie_slv (s : State) (c : Nat) (f : Pcie → Pcie) : (s.modPcie c f).slv = s.slv := rfl
@[simp] theorem State.modPcie_links (s : State) (c : Nat) (f : Pcie → Pcie) : (s.modPcie c f).links = s.links := rfl
@[simp] theorem State.modPcie_thm (s : State) (c : Nat) (f : Pcie → Pcie) : (s.modPcie c f).thm = s.thm := rfl
@[simp] theorem State.modPcie_dram (s : State) (c : Nat) (f : Pcie → Pcie) : (s.modPcie c f).dram = s.dram := rfl
@[simp] theorem State.modPcie_mnt (s : State) (c : Nat) (f : Pcie → Pcie) : (s.modPcie c f).mnt = s.mnt := rfl
@[simp] theorem State.modPcie_maint (s : State) (c : Nat) (f : Pcie → Pcie) : (s.modPcie c f).maint = s.maint := rfl
@[simp] theorem State.modPcie_port (s : State) (c : Nat) (f : Pcie → Pcie) : (s.modPcie c f).port = s.port := rfl
@[simp] theorem State.modPcie_reg (s : State) (c : Nat) (f : Pcie → Pcie) (r : Nat) : (s.modPcie c f).reg r = s.reg r := rfl
@[simp] theorem State.modPcie_rd (s : State) (c : Nat) (f : Pcie → Pcie) (g : Field) : (s.modPcie c f).rd g = s.rd g := rfl

@[simp] theorem State.modSan_pending (s : State) (f : Sanitize → Sanitize) : (s.modSan f).pending = s.pending := rfl
@[simp] theorem State.modSan_now (s : State) (f : Sanitize → Sanitize) : (s.modSan f).now = s.now := rfl
@[simp] theorem State.modSan_fresh (s : State) (f : Sanitize → Sanitize) : (s.modSan f).fresh = s.fresh := rfl
@[simp] theorem State.modSan_regs (s : State) (f : Sanitize → Sanitize) : (s.modSan f).regs = s.regs := rfl
@[simp] theorem State.modSan_latches (s : State) (f : Sanitize → Sanitize) : (s.modSan f).latches = s.latches := rfl
@[simp] theorem State.modSan_reads (s : State) (f : Sanitize → Sanitize) : (s.modSan f).reads = s.reads := rfl
@[simp] theorem State.modSan_pages (s : State) (f : Sanitize → Sanitize) : (s.modSan f).pages = s.pages := rfl
@[simp] theorem State.modSan_fit (s : State) (f : Sanitize → Sanitize) : (s.modSan f).fit = s.fit := rfl
@[simp] theorem State.modSan_evt (s : State) (f : Sanitize → Sanitize) : (s.modSan f).evt = s.evt := rfl
@[simp] theorem State.modSan_image (s : State) (f : Sanitize → Sanitize) : (s.modSan f).image = s.image := rfl
@[simp] theorem State.modSan_boot (s : State) (f : Sanitize → Sanitize) : (s.modSan f).boot = s.boot := rfl
@[simp] theorem State.modSan_board (s : State) (f : Sanitize → Sanitize) : (s.modSan f).board = s.board := rfl
@[simp] theorem State.modSan_life (s : State) (f : Sanitize → Sanitize) : (s.modSan f).life = s.life := rfl
@[simp] theorem State.modSan_stp (s : State) (f : Sanitize → Sanitize) : (s.modSan f).stp = s.stp := rfl
@[simp] theorem State.modSan_win (s : State) (f : Sanitize → Sanitize) : (s.modSan f).win = s.win := rfl
@[simp] theorem State.modSan_path (s : State) (f : Sanitize → Sanitize) : (s.modSan f).path = s.path := rfl
@[simp] theorem State.modSan_ftl (s : State) (f : Sanitize → Sanitize) : (s.modSan f).ftl = s.ftl := rfl
@[simp] theorem State.modSan_cph (s : State) (f : Sanitize → Sanitize) : (s.modSan f).cph = s.cph := rfl
@[simp] theorem State.modSan_takes (s : State) (f : Sanitize → Sanitize) : (s.modSan f).takes = s.takes := rfl
@[simp] theorem State.modSan_pwr (s : State) (f : Sanitize → Sanitize) : (s.modSan f).pwr = s.pwr := rfl
@[simp] theorem State.modSan_slv (s : State) (f : Sanitize → Sanitize) : (s.modSan f).slv = s.slv := rfl
@[simp] theorem State.modSan_links (s : State) (f : Sanitize → Sanitize) : (s.modSan f).links = s.links := rfl
@[simp] theorem State.modSan_thm (s : State) (f : Sanitize → Sanitize) : (s.modSan f).thm = s.thm := rfl
@[simp] theorem State.modSan_dram (s : State) (f : Sanitize → Sanitize) : (s.modSan f).dram = s.dram := rfl
@[simp] theorem State.modSan_mnt (s : State) (f : Sanitize → Sanitize) : (s.modSan f).mnt = s.mnt := rfl
@[simp] theorem State.modSan_maint (s : State) (f : Sanitize → Sanitize) : (s.modSan f).maint = s.maint := rfl
@[simp] theorem State.modSan_port (s : State) (f : Sanitize → Sanitize) : (s.modSan f).port = s.port := rfl
@[simp] theorem State.modSan_reg (s : State) (f : Sanitize → Sanitize) (r : Nat) : (s.modSan f).reg r = s.reg r := rfl
@[simp] theorem State.modSan_rd (s : State) (f : Sanitize → Sanitize) (g : Field) : (s.modSan f).rd g = s.rd g := rfl

@[simp] theorem State.modFtl_pending (s : State) (f : Ftl → Ftl) : (s.modFtl f).pending = s.pending := rfl
@[simp] theorem State.modFtl_now (s : State) (f : Ftl → Ftl) : (s.modFtl f).now = s.now := rfl
@[simp] theorem State.modFtl_fresh (s : State) (f : Ftl → Ftl) : (s.modFtl f).fresh = s.fresh := rfl
@[simp] theorem State.modFtl_regs (s : State) (f : Ftl → Ftl) : (s.modFtl f).regs = s.regs := rfl
@[simp] theorem State.modFtl_latches (s : State) (f : Ftl → Ftl) : (s.modFtl f).latches = s.latches := rfl
@[simp] theorem State.modFtl_reads (s : State) (f : Ftl → Ftl) : (s.modFtl f).reads = s.reads := rfl
@[simp] theorem State.modFtl_pages (s : State) (f : Ftl → Ftl) : (s.modFtl f).pages = s.pages := rfl
@[simp] theorem State.modFtl_fit (s : State) (f : Ftl → Ftl) : (s.modFtl f).fit = s.fit := rfl
@[simp] theorem State.modFtl_evt (s : State) (f : Ftl → Ftl) : (s.modFtl f).evt = s.evt := rfl
@[simp] theorem State.modFtl_image (s : State) (f : Ftl → Ftl) : (s.modFtl f).image = s.image := rfl
@[simp] theorem State.modFtl_boot (s : State) (f : Ftl → Ftl) : (s.modFtl f).boot = s.boot := rfl
@[simp] theorem State.modFtl_board (s : State) (f : Ftl → Ftl) : (s.modFtl f).board = s.board := rfl
@[simp] theorem State.modFtl_nvme (s : State) (f : Ftl → Ftl) : (s.modFtl f).nvme = s.nvme := rfl
@[simp] theorem State.modFtl_life (s : State) (f : Ftl → Ftl) : (s.modFtl f).life = s.life := rfl
@[simp] theorem State.modFtl_stp (s : State) (f : Ftl → Ftl) : (s.modFtl f).stp = s.stp := rfl
@[simp] theorem State.modFtl_win (s : State) (f : Ftl → Ftl) : (s.modFtl f).win = s.win := rfl
@[simp] theorem State.modFtl_path (s : State) (f : Ftl → Ftl) : (s.modFtl f).path = s.path := rfl
@[simp] theorem State.modFtl_ftl (s : State) (f : Ftl → Ftl) : (s.modFtl f).ftl = f s.ftl := rfl
@[simp] theorem State.modFtl_cph (s : State) (f : Ftl → Ftl) : (s.modFtl f).cph = s.cph := rfl
@[simp] theorem State.modFtl_takes (s : State) (f : Ftl → Ftl) : (s.modFtl f).takes = s.takes := rfl
@[simp] theorem State.modFtl_pwr (s : State) (f : Ftl → Ftl) : (s.modFtl f).pwr = s.pwr := rfl
@[simp] theorem State.modFtl_slv (s : State) (f : Ftl → Ftl) : (s.modFtl f).slv = s.slv := rfl
@[simp] theorem State.modFtl_links (s : State) (f : Ftl → Ftl) : (s.modFtl f).links = s.links := rfl
@[simp] theorem State.modFtl_thm (s : State) (f : Ftl → Ftl) : (s.modFtl f).thm = s.thm := rfl
@[simp] theorem State.modFtl_dram (s : State) (f : Ftl → Ftl) : (s.modFtl f).dram = s.dram := rfl
@[simp] theorem State.modFtl_mnt (s : State) (f : Ftl → Ftl) : (s.modFtl f).mnt = s.mnt := rfl
@[simp] theorem State.modFtl_maint (s : State) (f : Ftl → Ftl) : (s.modFtl f).maint = s.maint := rfl
@[simp] theorem State.modFtl_port (s : State) (f : Ftl → Ftl) : (s.modFtl f).port = s.port := rfl
@[simp] theorem State.modFtl_reg (s : State) (f : Ftl → Ftl) (r : Nat) : (s.modFtl f).reg r = s.reg r := rfl
@[simp] theorem State.modFtl_rd (s : State) (f : Ftl → Ftl) (g : Field) : (s.modFtl f).rd g = s.rd g := rfl

@[simp] theorem State.modWin_pending (s : State) (f : Window → Window) : (s.modWin f).pending = s.pending := rfl
@[simp] theorem State.modWin_now (s : State) (f : Window → Window) : (s.modWin f).now = s.now := rfl
@[simp] theorem State.modWin_fresh (s : State) (f : Window → Window) : (s.modWin f).fresh = s.fresh := rfl
@[simp] theorem State.modWin_regs (s : State) (f : Window → Window) : (s.modWin f).regs = s.regs := rfl
@[simp] theorem State.modWin_latches (s : State) (f : Window → Window) : (s.modWin f).latches = s.latches := rfl
@[simp] theorem State.modWin_reads (s : State) (f : Window → Window) : (s.modWin f).reads = s.reads := rfl
@[simp] theorem State.modWin_pages (s : State) (f : Window → Window) : (s.modWin f).pages = s.pages := rfl
@[simp] theorem State.modWin_fit (s : State) (f : Window → Window) : (s.modWin f).fit = s.fit := rfl
@[simp] theorem State.modWin_evt (s : State) (f : Window → Window) : (s.modWin f).evt = s.evt := rfl
@[simp] theorem State.modWin_image (s : State) (f : Window → Window) : (s.modWin f).image = s.image := rfl
@[simp] theorem State.modWin_boot (s : State) (f : Window → Window) : (s.modWin f).boot = s.boot := rfl
@[simp] theorem State.modWin_board (s : State) (f : Window → Window) : (s.modWin f).board = s.board := rfl
@[simp] theorem State.modWin_nvme (s : State) (f : Window → Window) : (s.modWin f).nvme = s.nvme := rfl
@[simp] theorem State.modWin_life (s : State) (f : Window → Window) : (s.modWin f).life = s.life := rfl
@[simp] theorem State.modWin_stp (s : State) (f : Window → Window) : (s.modWin f).stp = s.stp := rfl
@[simp] theorem State.modWin_win (s : State) (f : Window → Window) : (s.modWin f).win = f s.win := rfl
@[simp] theorem State.modWin_path (s : State) (f : Window → Window) : (s.modWin f).path = s.path := rfl
@[simp] theorem State.modWin_ftl (s : State) (f : Window → Window) : (s.modWin f).ftl = s.ftl := rfl
@[simp] theorem State.modWin_cph (s : State) (f : Window → Window) : (s.modWin f).cph = s.cph := rfl
@[simp] theorem State.modWin_takes (s : State) (f : Window → Window) : (s.modWin f).takes = s.takes := rfl
@[simp] theorem State.modWin_pwr (s : State) (f : Window → Window) : (s.modWin f).pwr = s.pwr := rfl
@[simp] theorem State.modWin_slv (s : State) (f : Window → Window) : (s.modWin f).slv = s.slv := rfl
@[simp] theorem State.modWin_links (s : State) (f : Window → Window) : (s.modWin f).links = s.links := rfl
@[simp] theorem State.modWin_thm (s : State) (f : Window → Window) : (s.modWin f).thm = s.thm := rfl
@[simp] theorem State.modWin_dram (s : State) (f : Window → Window) : (s.modWin f).dram = s.dram := rfl
@[simp] theorem State.modWin_mnt (s : State) (f : Window → Window) : (s.modWin f).mnt = s.mnt := rfl
@[simp] theorem State.modWin_maint (s : State) (f : Window → Window) : (s.modWin f).maint = s.maint := rfl
@[simp] theorem State.modWin_port (s : State) (f : Window → Window) : (s.modWin f).port = s.port := rfl
@[simp] theorem State.modWin_reg (s : State) (f : Window → Window) (r : Nat) : (s.modWin f).reg r = s.reg r := rfl
@[simp] theorem State.modWin_rd (s : State) (f : Window → Window) (g : Field) : (s.modWin f).rd g = s.rd g := rfl

@[simp] theorem State.modPath_pending (s : State) (f : Path → Path) : (s.modPath f).pending = s.pending := rfl
@[simp] theorem State.modPath_now (s : State) (f : Path → Path) : (s.modPath f).now = s.now := rfl
@[simp] theorem State.modPath_fresh (s : State) (f : Path → Path) : (s.modPath f).fresh = s.fresh := rfl
@[simp] theorem State.modPath_regs (s : State) (f : Path → Path) : (s.modPath f).regs = s.regs := rfl
@[simp] theorem State.modPath_latches (s : State) (f : Path → Path) : (s.modPath f).latches = s.latches := rfl
@[simp] theorem State.modPath_reads (s : State) (f : Path → Path) : (s.modPath f).reads = s.reads := rfl
@[simp] theorem State.modPath_pages (s : State) (f : Path → Path) : (s.modPath f).pages = s.pages := rfl
@[simp] theorem State.modPath_fit (s : State) (f : Path → Path) : (s.modPath f).fit = s.fit := rfl
@[simp] theorem State.modPath_evt (s : State) (f : Path → Path) : (s.modPath f).evt = s.evt := rfl
@[simp] theorem State.modPath_image (s : State) (f : Path → Path) : (s.modPath f).image = s.image := rfl
@[simp] theorem State.modPath_boot (s : State) (f : Path → Path) : (s.modPath f).boot = s.boot := rfl
@[simp] theorem State.modPath_board (s : State) (f : Path → Path) : (s.modPath f).board = s.board := rfl
@[simp] theorem State.modPath_nvme (s : State) (f : Path → Path) : (s.modPath f).nvme = s.nvme := rfl
@[simp] theorem State.modPath_life (s : State) (f : Path → Path) : (s.modPath f).life = s.life := rfl
@[simp] theorem State.modPath_stp (s : State) (f : Path → Path) : (s.modPath f).stp = s.stp := rfl
@[simp] theorem State.modPath_win (s : State) (f : Path → Path) : (s.modPath f).win = s.win := rfl
@[simp] theorem State.modPath_path (s : State) (f : Path → Path) : (s.modPath f).path = f s.path := rfl
@[simp] theorem State.modPath_ftl (s : State) (f : Path → Path) : (s.modPath f).ftl = s.ftl := rfl
@[simp] theorem State.modPath_cph (s : State) (f : Path → Path) : (s.modPath f).cph = s.cph := rfl
@[simp] theorem State.modPath_takes (s : State) (f : Path → Path) : (s.modPath f).takes = s.takes := rfl
@[simp] theorem State.modPath_pwr (s : State) (f : Path → Path) : (s.modPath f).pwr = s.pwr := rfl
@[simp] theorem State.modPath_slv (s : State) (f : Path → Path) : (s.modPath f).slv = s.slv := rfl
@[simp] theorem State.modPath_links (s : State) (f : Path → Path) : (s.modPath f).links = s.links := rfl
@[simp] theorem State.modPath_thm (s : State) (f : Path → Path) : (s.modPath f).thm = s.thm := rfl
@[simp] theorem State.modPath_dram (s : State) (f : Path → Path) : (s.modPath f).dram = s.dram := rfl
@[simp] theorem State.modPath_mnt (s : State) (f : Path → Path) : (s.modPath f).mnt = s.mnt := rfl
@[simp] theorem State.modPath_maint (s : State) (f : Path → Path) : (s.modPath f).maint = s.maint := rfl
@[simp] theorem State.modPath_port (s : State) (f : Path → Path) : (s.modPath f).port = s.port := rfl
@[simp] theorem State.modPath_reg (s : State) (f : Path → Path) (r : Nat) : (s.modPath f).reg r = s.reg r := rfl
@[simp] theorem State.modPath_rd (s : State) (f : Path → Path) (g : Field) : (s.modPath f).rd g = s.rd g := rfl

@[simp] theorem State.modW_pending (s : State) (i : Nat) (f : WCmd → WCmd) : (s.modW i f).pending = s.pending := rfl
@[simp] theorem State.modW_now (s : State) (i : Nat) (f : WCmd → WCmd) : (s.modW i f).now = s.now := rfl
@[simp] theorem State.modW_fresh (s : State) (i : Nat) (f : WCmd → WCmd) : (s.modW i f).fresh = s.fresh := rfl
@[simp] theorem State.modW_regs (s : State) (i : Nat) (f : WCmd → WCmd) : (s.modW i f).regs = s.regs := rfl
@[simp] theorem State.modW_latches (s : State) (i : Nat) (f : WCmd → WCmd) : (s.modW i f).latches = s.latches := rfl
@[simp] theorem State.modW_reads (s : State) (i : Nat) (f : WCmd → WCmd) : (s.modW i f).reads = s.reads := rfl
@[simp] theorem State.modW_pages (s : State) (i : Nat) (f : WCmd → WCmd) : (s.modW i f).pages = s.pages := rfl
@[simp] theorem State.modW_fit (s : State) (i : Nat) (f : WCmd → WCmd) : (s.modW i f).fit = s.fit := rfl
@[simp] theorem State.modW_evt (s : State) (i : Nat) (f : WCmd → WCmd) : (s.modW i f).evt = s.evt := rfl
@[simp] theorem State.modW_image (s : State) (i : Nat) (f : WCmd → WCmd) : (s.modW i f).image = s.image := rfl
@[simp] theorem State.modW_boot (s : State) (i : Nat) (f : WCmd → WCmd) : (s.modW i f).boot = s.boot := rfl
@[simp] theorem State.modW_board (s : State) (i : Nat) (f : WCmd → WCmd) : (s.modW i f).board = s.board := rfl
@[simp] theorem State.modW_nvme (s : State) (i : Nat) (f : WCmd → WCmd) : (s.modW i f).nvme = s.nvme := rfl
@[simp] theorem State.modW_life (s : State) (i : Nat) (f : WCmd → WCmd) : (s.modW i f).life = s.life := rfl
@[simp] theorem State.modW_stp (s : State) (i : Nat) (f : WCmd → WCmd) : (s.modW i f).stp = s.stp := rfl
@[simp] theorem State.modW_win (s : State) (i : Nat) (f : WCmd → WCmd) : (s.modW i f).win = s.win := rfl
@[simp] theorem State.modW_ftl (s : State) (i : Nat) (f : WCmd → WCmd) : (s.modW i f).ftl = s.ftl := rfl
@[simp] theorem State.modW_cph (s : State) (i : Nat) (f : WCmd → WCmd) : (s.modW i f).cph = s.cph := rfl
@[simp] theorem State.modW_takes (s : State) (i : Nat) (f : WCmd → WCmd) : (s.modW i f).takes = s.takes := rfl
@[simp] theorem State.modW_pwr (s : State) (i : Nat) (f : WCmd → WCmd) : (s.modW i f).pwr = s.pwr := rfl
@[simp] theorem State.modW_slv (s : State) (i : Nat) (f : WCmd → WCmd) : (s.modW i f).slv = s.slv := rfl
@[simp] theorem State.modW_links (s : State) (i : Nat) (f : WCmd → WCmd) : (s.modW i f).links = s.links := rfl
@[simp] theorem State.modW_thm (s : State) (i : Nat) (f : WCmd → WCmd) : (s.modW i f).thm = s.thm := rfl
@[simp] theorem State.modW_dram (s : State) (i : Nat) (f : WCmd → WCmd) : (s.modW i f).dram = s.dram := rfl
@[simp] theorem State.modW_mnt (s : State) (i : Nat) (f : WCmd → WCmd) : (s.modW i f).mnt = s.mnt := rfl
@[simp] theorem State.modW_maint (s : State) (i : Nat) (f : WCmd → WCmd) : (s.modW i f).maint = s.maint := rfl
@[simp] theorem State.modW_port (s : State) (i : Nat) (f : WCmd → WCmd) : (s.modW i f).port = s.port := rfl
@[simp] theorem State.modW_reg (s : State) (i : Nat) (f : WCmd → WCmd) (r : Nat) : (s.modW i f).reg r = s.reg r := rfl
@[simp] theorem State.modW_rd (s : State) (i : Nat) (f : WCmd → WCmd) (g : Field) : (s.modW i f).rd g = s.rd g := rfl

@[simp] theorem State.modCph_pending (s : State) (f : Cph → Cph) : (s.modCph f).pending = s.pending := rfl
@[simp] theorem State.modCph_now (s : State) (f : Cph → Cph) : (s.modCph f).now = s.now := rfl
@[simp] theorem State.modCph_fresh (s : State) (f : Cph → Cph) : (s.modCph f).fresh = s.fresh := rfl
@[simp] theorem State.modCph_regs (s : State) (f : Cph → Cph) : (s.modCph f).regs = s.regs := rfl
@[simp] theorem State.modCph_latches (s : State) (f : Cph → Cph) : (s.modCph f).latches = s.latches := rfl
@[simp] theorem State.modCph_reads (s : State) (f : Cph → Cph) : (s.modCph f).reads = s.reads := rfl
@[simp] theorem State.modCph_pages (s : State) (f : Cph → Cph) : (s.modCph f).pages = s.pages := rfl
@[simp] theorem State.modCph_fit (s : State) (f : Cph → Cph) : (s.modCph f).fit = s.fit := rfl
@[simp] theorem State.modCph_evt (s : State) (f : Cph → Cph) : (s.modCph f).evt = s.evt := rfl
@[simp] theorem State.modCph_image (s : State) (f : Cph → Cph) : (s.modCph f).image = s.image := rfl
@[simp] theorem State.modCph_boot (s : State) (f : Cph → Cph) : (s.modCph f).boot = s.boot := rfl
@[simp] theorem State.modCph_board (s : State) (f : Cph → Cph) : (s.modCph f).board = s.board := rfl
@[simp] theorem State.modCph_nvme (s : State) (f : Cph → Cph) : (s.modCph f).nvme = s.nvme := rfl
@[simp] theorem State.modCph_life (s : State) (f : Cph → Cph) : (s.modCph f).life = s.life := rfl
@[simp] theorem State.modCph_stp (s : State) (f : Cph → Cph) : (s.modCph f).stp = s.stp := rfl
@[simp] theorem State.modCph_win (s : State) (f : Cph → Cph) : (s.modCph f).win = s.win := rfl
@[simp] theorem State.modCph_path (s : State) (f : Cph → Cph) : (s.modCph f).path = s.path := rfl
@[simp] theorem State.modCph_ftl (s : State) (f : Cph → Cph) : (s.modCph f).ftl = s.ftl := rfl
@[simp] theorem State.modCph_cph (s : State) (f : Cph → Cph) : (s.modCph f).cph = f s.cph := rfl
@[simp] theorem State.modCph_takes (s : State) (f : Cph → Cph) : (s.modCph f).takes = s.takes := rfl
@[simp] theorem State.modCph_pwr (s : State) (f : Cph → Cph) : (s.modCph f).pwr = s.pwr := rfl
@[simp] theorem State.modCph_slv (s : State) (f : Cph → Cph) : (s.modCph f).slv = s.slv := rfl
@[simp] theorem State.modCph_links (s : State) (f : Cph → Cph) : (s.modCph f).links = s.links := rfl
@[simp] theorem State.modCph_thm (s : State) (f : Cph → Cph) : (s.modCph f).thm = s.thm := rfl
@[simp] theorem State.modCph_dram (s : State) (f : Cph → Cph) : (s.modCph f).dram = s.dram := rfl
@[simp] theorem State.modCph_mnt (s : State) (f : Cph → Cph) : (s.modCph f).mnt = s.mnt := rfl
@[simp] theorem State.modCph_maint (s : State) (f : Cph → Cph) : (s.modCph f).maint = s.maint := rfl
@[simp] theorem State.modCph_port (s : State) (f : Cph → Cph) : (s.modCph f).port = s.port := rfl
@[simp] theorem State.modCph_reg (s : State) (f : Cph → Cph) (r : Nat) : (s.modCph f).reg r = s.reg r := rfl
@[simp] theorem State.modCph_rd (s : State) (f : Cph → Cph) (g : Field) : (s.modCph f).rd g = s.rd g := rfl

@[simp] theorem State.modSlv_pending (s : State) (f : Slvs → Slvs) : (s.modSlv f).pending = s.pending := rfl
@[simp] theorem State.modSlv_now (s : State) (f : Slvs → Slvs) : (s.modSlv f).now = s.now := rfl
@[simp] theorem State.modSlv_fresh (s : State) (f : Slvs → Slvs) : (s.modSlv f).fresh = s.fresh := rfl
@[simp] theorem State.modSlv_regs (s : State) (f : Slvs → Slvs) : (s.modSlv f).regs = s.regs := rfl
@[simp] theorem State.modSlv_latches (s : State) (f : Slvs → Slvs) : (s.modSlv f).latches = s.latches := rfl
@[simp] theorem State.modSlv_reads (s : State) (f : Slvs → Slvs) : (s.modSlv f).reads = s.reads := rfl
@[simp] theorem State.modSlv_pages (s : State) (f : Slvs → Slvs) : (s.modSlv f).pages = s.pages := rfl
@[simp] theorem State.modSlv_fit (s : State) (f : Slvs → Slvs) : (s.modSlv f).fit = s.fit := rfl
@[simp] theorem State.modSlv_evt (s : State) (f : Slvs → Slvs) : (s.modSlv f).evt = s.evt := rfl
@[simp] theorem State.modSlv_image (s : State) (f : Slvs → Slvs) : (s.modSlv f).image = s.image := rfl
@[simp] theorem State.modSlv_boot (s : State) (f : Slvs → Slvs) : (s.modSlv f).boot = s.boot := rfl
@[simp] theorem State.modSlv_board (s : State) (f : Slvs → Slvs) : (s.modSlv f).board = s.board := rfl
@[simp] theorem State.modSlv_nvme (s : State) (f : Slvs → Slvs) : (s.modSlv f).nvme = s.nvme := rfl
@[simp] theorem State.modSlv_life (s : State) (f : Slvs → Slvs) : (s.modSlv f).life = s.life := rfl
@[simp] theorem State.modSlv_stp (s : State) (f : Slvs → Slvs) : (s.modSlv f).stp = s.stp := rfl
@[simp] theorem State.modSlv_win (s : State) (f : Slvs → Slvs) : (s.modSlv f).win = s.win := rfl
@[simp] theorem State.modSlv_path (s : State) (f : Slvs → Slvs) : (s.modSlv f).path = s.path := rfl
@[simp] theorem State.modSlv_ftl (s : State) (f : Slvs → Slvs) : (s.modSlv f).ftl = s.ftl := rfl
@[simp] theorem State.modSlv_cph (s : State) (f : Slvs → Slvs) : (s.modSlv f).cph = s.cph := rfl
@[simp] theorem State.modSlv_takes (s : State) (f : Slvs → Slvs) : (s.modSlv f).takes = s.takes := rfl
@[simp] theorem State.modSlv_pwr (s : State) (f : Slvs → Slvs) : (s.modSlv f).pwr = s.pwr := rfl
@[simp] theorem State.modSlv_slv (s : State) (f : Slvs → Slvs) : (s.modSlv f).slv = f s.slv := rfl
@[simp] theorem State.modSlv_links (s : State) (f : Slvs → Slvs) : (s.modSlv f).links = s.links := rfl
@[simp] theorem State.modSlv_thm (s : State) (f : Slvs → Slvs) : (s.modSlv f).thm = s.thm := rfl
@[simp] theorem State.modSlv_dram (s : State) (f : Slvs → Slvs) : (s.modSlv f).dram = s.dram := rfl
@[simp] theorem State.modSlv_mnt (s : State) (f : Slvs → Slvs) : (s.modSlv f).mnt = s.mnt := rfl
@[simp] theorem State.modSlv_maint (s : State) (f : Slvs → Slvs) : (s.modSlv f).maint = s.maint := rfl
@[simp] theorem State.modSlv_port (s : State) (f : Slvs → Slvs) : (s.modSlv f).port = s.port := rfl
@[simp] theorem State.modSlv_reg (s : State) (f : Slvs → Slvs) (r : Nat) : (s.modSlv f).reg r = s.reg r := rfl
@[simp] theorem State.modSlv_rd (s : State) (f : Slvs → Slvs) (g : Field) : (s.modSlv f).rd g = s.rd g := rfl

@[simp] theorem State.modSleeve_pending (s : State) (i : Nat) (f : Sleeve → Sleeve) : (s.modSleeve i f).pending = s.pending := rfl
@[simp] theorem State.modSleeve_now (s : State) (i : Nat) (f : Sleeve → Sleeve) : (s.modSleeve i f).now = s.now := rfl
@[simp] theorem State.modSleeve_fresh (s : State) (i : Nat) (f : Sleeve → Sleeve) : (s.modSleeve i f).fresh = s.fresh := rfl
@[simp] theorem State.modSleeve_regs (s : State) (i : Nat) (f : Sleeve → Sleeve) : (s.modSleeve i f).regs = s.regs := rfl
@[simp] theorem State.modSleeve_latches (s : State) (i : Nat) (f : Sleeve → Sleeve) : (s.modSleeve i f).latches = s.latches := rfl
@[simp] theorem State.modSleeve_reads (s : State) (i : Nat) (f : Sleeve → Sleeve) : (s.modSleeve i f).reads = s.reads := rfl
@[simp] theorem State.modSleeve_pages (s : State) (i : Nat) (f : Sleeve → Sleeve) : (s.modSleeve i f).pages = s.pages := rfl
@[simp] theorem State.modSleeve_fit (s : State) (i : Nat) (f : Sleeve → Sleeve) : (s.modSleeve i f).fit = s.fit := rfl
@[simp] theorem State.modSleeve_evt (s : State) (i : Nat) (f : Sleeve → Sleeve) : (s.modSleeve i f).evt = s.evt := rfl
@[simp] theorem State.modSleeve_image (s : State) (i : Nat) (f : Sleeve → Sleeve) : (s.modSleeve i f).image = s.image := rfl
@[simp] theorem State.modSleeve_boot (s : State) (i : Nat) (f : Sleeve → Sleeve) : (s.modSleeve i f).boot = s.boot := rfl
@[simp] theorem State.modSleeve_board (s : State) (i : Nat) (f : Sleeve → Sleeve) : (s.modSleeve i f).board = s.board := rfl
@[simp] theorem State.modSleeve_nvme (s : State) (i : Nat) (f : Sleeve → Sleeve) : (s.modSleeve i f).nvme = s.nvme := rfl
@[simp] theorem State.modSleeve_life (s : State) (i : Nat) (f : Sleeve → Sleeve) : (s.modSleeve i f).life = s.life := rfl
@[simp] theorem State.modSleeve_stp (s : State) (i : Nat) (f : Sleeve → Sleeve) : (s.modSleeve i f).stp = s.stp := rfl
@[simp] theorem State.modSleeve_win (s : State) (i : Nat) (f : Sleeve → Sleeve) : (s.modSleeve i f).win = s.win := rfl
@[simp] theorem State.modSleeve_path (s : State) (i : Nat) (f : Sleeve → Sleeve) : (s.modSleeve i f).path = s.path := rfl
@[simp] theorem State.modSleeve_ftl (s : State) (i : Nat) (f : Sleeve → Sleeve) : (s.modSleeve i f).ftl = s.ftl := rfl
@[simp] theorem State.modSleeve_cph (s : State) (i : Nat) (f : Sleeve → Sleeve) : (s.modSleeve i f).cph = s.cph := rfl
@[simp] theorem State.modSleeve_takes (s : State) (i : Nat) (f : Sleeve → Sleeve) : (s.modSleeve i f).takes = s.takes := rfl
@[simp] theorem State.modSleeve_pwr (s : State) (i : Nat) (f : Sleeve → Sleeve) : (s.modSleeve i f).pwr = s.pwr := rfl
@[simp] theorem State.modSleeve_links (s : State) (i : Nat) (f : Sleeve → Sleeve) : (s.modSleeve i f).links = s.links := rfl
@[simp] theorem State.modSleeve_thm (s : State) (i : Nat) (f : Sleeve → Sleeve) : (s.modSleeve i f).thm = s.thm := rfl
@[simp] theorem State.modSleeve_dram (s : State) (i : Nat) (f : Sleeve → Sleeve) : (s.modSleeve i f).dram = s.dram := rfl
@[simp] theorem State.modSleeve_mnt (s : State) (i : Nat) (f : Sleeve → Sleeve) : (s.modSleeve i f).mnt = s.mnt := rfl
@[simp] theorem State.modSleeve_maint (s : State) (i : Nat) (f : Sleeve → Sleeve) : (s.modSleeve i f).maint = s.maint := rfl
@[simp] theorem State.modSleeve_port (s : State) (i : Nat) (f : Sleeve → Sleeve) : (s.modSleeve i f).port = s.port := rfl
@[simp] theorem State.modSleeve_reg (s : State) (i : Nat) (f : Sleeve → Sleeve) (r : Nat) : (s.modSleeve i f).reg r = s.reg r := rfl
@[simp] theorem State.modSleeve_rd (s : State) (i : Nat) (f : Sleeve → Sleeve) (g : Field) : (s.modSleeve i f).rd g = s.rd g := rfl

@[simp] theorem State.modRec_pending (s : State) (i k : Nat) (f : OpRec → OpRec) : (s.modRec i k f).pending = s.pending := rfl
@[simp] theorem State.modRec_now (s : State) (i k : Nat) (f : OpRec → OpRec) : (s.modRec i k f).now = s.now := rfl
@[simp] theorem State.modRec_fresh (s : State) (i k : Nat) (f : OpRec → OpRec) : (s.modRec i k f).fresh = s.fresh := rfl
@[simp] theorem State.modRec_regs (s : State) (i k : Nat) (f : OpRec → OpRec) : (s.modRec i k f).regs = s.regs := rfl
@[simp] theorem State.modRec_latches (s : State) (i k : Nat) (f : OpRec → OpRec) : (s.modRec i k f).latches = s.latches := rfl
@[simp] theorem State.modRec_reads (s : State) (i k : Nat) (f : OpRec → OpRec) : (s.modRec i k f).reads = s.reads := rfl
@[simp] theorem State.modRec_pages (s : State) (i k : Nat) (f : OpRec → OpRec) : (s.modRec i k f).pages = s.pages := rfl
@[simp] theorem State.modRec_fit (s : State) (i k : Nat) (f : OpRec → OpRec) : (s.modRec i k f).fit = s.fit := rfl
@[simp] theorem State.modRec_evt (s : State) (i k : Nat) (f : OpRec → OpRec) : (s.modRec i k f).evt = s.evt := rfl
@[simp] theorem State.modRec_image (s : State) (i k : Nat) (f : OpRec → OpRec) : (s.modRec i k f).image = s.image := rfl
@[simp] theorem State.modRec_boot (s : State) (i k : Nat) (f : OpRec → OpRec) : (s.modRec i k f).boot = s.boot := rfl
@[simp] theorem State.modRec_board (s : State) (i k : Nat) (f : OpRec → OpRec) : (s.modRec i k f).board = s.board := rfl
@[simp] theorem State.modRec_nvme (s : State) (i k : Nat) (f : OpRec → OpRec) : (s.modRec i k f).nvme = s.nvme := rfl
@[simp] theorem State.modRec_life (s : State) (i k : Nat) (f : OpRec → OpRec) : (s.modRec i k f).life = s.life := rfl
@[simp] theorem State.modRec_stp (s : State) (i k : Nat) (f : OpRec → OpRec) : (s.modRec i k f).stp = s.stp := rfl
@[simp] theorem State.modRec_win (s : State) (i k : Nat) (f : OpRec → OpRec) : (s.modRec i k f).win = s.win := rfl
@[simp] theorem State.modRec_path (s : State) (i k : Nat) (f : OpRec → OpRec) : (s.modRec i k f).path = s.path := rfl
@[simp] theorem State.modRec_ftl (s : State) (i k : Nat) (f : OpRec → OpRec) : (s.modRec i k f).ftl = s.ftl := rfl
@[simp] theorem State.modRec_cph (s : State) (i k : Nat) (f : OpRec → OpRec) : (s.modRec i k f).cph = s.cph := rfl
@[simp] theorem State.modRec_takes (s : State) (i k : Nat) (f : OpRec → OpRec) : (s.modRec i k f).takes = s.takes := rfl
@[simp] theorem State.modRec_pwr (s : State) (i k : Nat) (f : OpRec → OpRec) : (s.modRec i k f).pwr = s.pwr := rfl
@[simp] theorem State.modRec_links (s : State) (i k : Nat) (f : OpRec → OpRec) : (s.modRec i k f).links = s.links := rfl
@[simp] theorem State.modRec_thm (s : State) (i k : Nat) (f : OpRec → OpRec) : (s.modRec i k f).thm = s.thm := rfl
@[simp] theorem State.modRec_dram (s : State) (i k : Nat) (f : OpRec → OpRec) : (s.modRec i k f).dram = s.dram := rfl
@[simp] theorem State.modRec_mnt (s : State) (i k : Nat) (f : OpRec → OpRec) : (s.modRec i k f).mnt = s.mnt := rfl
@[simp] theorem State.modRec_maint (s : State) (i k : Nat) (f : OpRec → OpRec) : (s.modRec i k f).maint = s.maint := rfl
@[simp] theorem State.modRec_port (s : State) (i k : Nat) (f : OpRec → OpRec) : (s.modRec i k f).port = s.port := rfl
@[simp] theorem State.modRec_reg (s : State) (i k : Nat) (f : OpRec → OpRec) (r : Nat) : (s.modRec i k f).reg r = s.reg r := rfl
@[simp] theorem State.modRec_rd (s : State) (i k : Nat) (f : OpRec → OpRec) (g : Field) : (s.modRec i k f).rd g = s.rd g := rfl

@[simp] theorem State.modLnk_pending (s : State) (n : Nat) (f : Lnk → Lnk) : (s.modLnk n f).pending = s.pending := rfl
@[simp] theorem State.modLnk_now (s : State) (n : Nat) (f : Lnk → Lnk) : (s.modLnk n f).now = s.now := rfl
@[simp] theorem State.modLnk_fresh (s : State) (n : Nat) (f : Lnk → Lnk) : (s.modLnk n f).fresh = s.fresh := rfl
@[simp] theorem State.modLnk_regs (s : State) (n : Nat) (f : Lnk → Lnk) : (s.modLnk n f).regs = s.regs := rfl
@[simp] theorem State.modLnk_latches (s : State) (n : Nat) (f : Lnk → Lnk) : (s.modLnk n f).latches = s.latches := rfl
@[simp] theorem State.modLnk_reads (s : State) (n : Nat) (f : Lnk → Lnk) : (s.modLnk n f).reads = s.reads := rfl
@[simp] theorem State.modLnk_pages (s : State) (n : Nat) (f : Lnk → Lnk) : (s.modLnk n f).pages = s.pages := rfl
@[simp] theorem State.modLnk_fit (s : State) (n : Nat) (f : Lnk → Lnk) : (s.modLnk n f).fit = s.fit := rfl
@[simp] theorem State.modLnk_evt (s : State) (n : Nat) (f : Lnk → Lnk) : (s.modLnk n f).evt = s.evt := rfl
@[simp] theorem State.modLnk_image (s : State) (n : Nat) (f : Lnk → Lnk) : (s.modLnk n f).image = s.image := rfl
@[simp] theorem State.modLnk_boot (s : State) (n : Nat) (f : Lnk → Lnk) : (s.modLnk n f).boot = s.boot := rfl
@[simp] theorem State.modLnk_board (s : State) (n : Nat) (f : Lnk → Lnk) : (s.modLnk n f).board = s.board := rfl
@[simp] theorem State.modLnk_nvme (s : State) (n : Nat) (f : Lnk → Lnk) : (s.modLnk n f).nvme = s.nvme := rfl
@[simp] theorem State.modLnk_life (s : State) (n : Nat) (f : Lnk → Lnk) : (s.modLnk n f).life = s.life := rfl
@[simp] theorem State.modLnk_stp (s : State) (n : Nat) (f : Lnk → Lnk) : (s.modLnk n f).stp = s.stp := rfl
@[simp] theorem State.modLnk_win (s : State) (n : Nat) (f : Lnk → Lnk) : (s.modLnk n f).win = s.win := rfl
@[simp] theorem State.modLnk_path (s : State) (n : Nat) (f : Lnk → Lnk) : (s.modLnk n f).path = s.path := rfl
@[simp] theorem State.modLnk_ftl (s : State) (n : Nat) (f : Lnk → Lnk) : (s.modLnk n f).ftl = s.ftl := rfl
@[simp] theorem State.modLnk_cph (s : State) (n : Nat) (f : Lnk → Lnk) : (s.modLnk n f).cph = s.cph := rfl
@[simp] theorem State.modLnk_takes (s : State) (n : Nat) (f : Lnk → Lnk) : (s.modLnk n f).takes = s.takes := rfl
@[simp] theorem State.modLnk_pwr (s : State) (n : Nat) (f : Lnk → Lnk) : (s.modLnk n f).pwr = s.pwr := rfl
@[simp] theorem State.modLnk_slv (s : State) (n : Nat) (f : Lnk → Lnk) : (s.modLnk n f).slv = s.slv := rfl
@[simp] theorem State.modLnk_thm (s : State) (n : Nat) (f : Lnk → Lnk) : (s.modLnk n f).thm = s.thm := rfl
@[simp] theorem State.modLnk_dram (s : State) (n : Nat) (f : Lnk → Lnk) : (s.modLnk n f).dram = s.dram := rfl
@[simp] theorem State.modLnk_mnt (s : State) (n : Nat) (f : Lnk → Lnk) : (s.modLnk n f).mnt = s.mnt := rfl
@[simp] theorem State.modLnk_maint (s : State) (n : Nat) (f : Lnk → Lnk) : (s.modLnk n f).maint = s.maint := rfl
@[simp] theorem State.modLnk_port (s : State) (n : Nat) (f : Lnk → Lnk) : (s.modLnk n f).port = s.port := rfl
@[simp] theorem State.modLnk_reg (s : State) (n : Nat) (f : Lnk → Lnk) (r : Nat) : (s.modLnk n f).reg r = s.reg r := rfl
@[simp] theorem State.modLnk_rd (s : State) (n : Nat) (f : Lnk → Lnk) (g : Field) : (s.modLnk n f).rd g = s.rd g := rfl

@[simp] theorem State.modMnt_pending (s : State) (f : Mnt → Mnt) : (s.modMnt f).pending = s.pending := rfl
@[simp] theorem State.modMnt_now (s : State) (f : Mnt → Mnt) : (s.modMnt f).now = s.now := rfl
@[simp] theorem State.modMnt_fresh (s : State) (f : Mnt → Mnt) : (s.modMnt f).fresh = s.fresh := rfl
@[simp] theorem State.modMnt_regs (s : State) (f : Mnt → Mnt) : (s.modMnt f).regs = s.regs := rfl
@[simp] theorem State.modMnt_latches (s : State) (f : Mnt → Mnt) : (s.modMnt f).latches = s.latches := rfl
@[simp] theorem State.modMnt_reads (s : State) (f : Mnt → Mnt) : (s.modMnt f).reads = s.reads := rfl
@[simp] theorem State.modMnt_pages (s : State) (f : Mnt → Mnt) : (s.modMnt f).pages = s.pages := rfl
@[simp] theorem State.modMnt_fit (s : State) (f : Mnt → Mnt) : (s.modMnt f).fit = s.fit := rfl
@[simp] theorem State.modMnt_evt (s : State) (f : Mnt → Mnt) : (s.modMnt f).evt = s.evt := rfl
@[simp] theorem State.modMnt_image (s : State) (f : Mnt → Mnt) : (s.modMnt f).image = s.image := rfl
@[simp] theorem State.modMnt_boot (s : State) (f : Mnt → Mnt) : (s.modMnt f).boot = s.boot := rfl
@[simp] theorem State.modMnt_board (s : State) (f : Mnt → Mnt) : (s.modMnt f).board = s.board := rfl
@[simp] theorem State.modMnt_nvme (s : State) (f : Mnt → Mnt) : (s.modMnt f).nvme = s.nvme := rfl
@[simp] theorem State.modMnt_life (s : State) (f : Mnt → Mnt) : (s.modMnt f).life = s.life := rfl
@[simp] theorem State.modMnt_stp (s : State) (f : Mnt → Mnt) : (s.modMnt f).stp = s.stp := rfl
@[simp] theorem State.modMnt_win (s : State) (f : Mnt → Mnt) : (s.modMnt f).win = s.win := rfl
@[simp] theorem State.modMnt_path (s : State) (f : Mnt → Mnt) : (s.modMnt f).path = s.path := rfl
@[simp] theorem State.modMnt_ftl (s : State) (f : Mnt → Mnt) : (s.modMnt f).ftl = s.ftl := rfl
@[simp] theorem State.modMnt_cph (s : State) (f : Mnt → Mnt) : (s.modMnt f).cph = s.cph := rfl
@[simp] theorem State.modMnt_takes (s : State) (f : Mnt → Mnt) : (s.modMnt f).takes = s.takes := rfl
@[simp] theorem State.modMnt_pwr (s : State) (f : Mnt → Mnt) : (s.modMnt f).pwr = s.pwr := rfl
@[simp] theorem State.modMnt_slv (s : State) (f : Mnt → Mnt) : (s.modMnt f).slv = s.slv := rfl
@[simp] theorem State.modMnt_links (s : State) (f : Mnt → Mnt) : (s.modMnt f).links = s.links := rfl
@[simp] theorem State.modMnt_thm (s : State) (f : Mnt → Mnt) : (s.modMnt f).thm = s.thm := rfl
@[simp] theorem State.modMnt_dram (s : State) (f : Mnt → Mnt) : (s.modMnt f).dram = s.dram := rfl
@[simp] theorem State.modMnt_mnt (s : State) (f : Mnt → Mnt) : (s.modMnt f).mnt = f s.mnt := rfl
@[simp] theorem State.modMnt_maint (s : State) (f : Mnt → Mnt) : (s.modMnt f).maint = s.maint := rfl
@[simp] theorem State.modMnt_port (s : State) (f : Mnt → Mnt) : (s.modMnt f).port = s.port := rfl
@[simp] theorem State.modMnt_reg (s : State) (f : Mnt → Mnt) (r : Nat) : (s.modMnt f).reg r = s.reg r := rfl
@[simp] theorem State.modMnt_rd (s : State) (f : Mnt → Mnt) (g : Field) : (s.modMnt f).rd g = s.rd g := rfl

@[simp] theorem State.modLoop_pending (s : State) (i : Nat) (f : Loop → Loop) : (s.modLoop i f).pending = s.pending := rfl
@[simp] theorem State.modLoop_now (s : State) (i : Nat) (f : Loop → Loop) : (s.modLoop i f).now = s.now := rfl
@[simp] theorem State.modLoop_fresh (s : State) (i : Nat) (f : Loop → Loop) : (s.modLoop i f).fresh = s.fresh := rfl
@[simp] theorem State.modLoop_regs (s : State) (i : Nat) (f : Loop → Loop) : (s.modLoop i f).regs = s.regs := rfl
@[simp] theorem State.modLoop_latches (s : State) (i : Nat) (f : Loop → Loop) : (s.modLoop i f).latches = s.latches := rfl
@[simp] theorem State.modLoop_reads (s : State) (i : Nat) (f : Loop → Loop) : (s.modLoop i f).reads = s.reads := rfl
@[simp] theorem State.modLoop_pages (s : State) (i : Nat) (f : Loop → Loop) : (s.modLoop i f).pages = s.pages := rfl
@[simp] theorem State.modLoop_fit (s : State) (i : Nat) (f : Loop → Loop) : (s.modLoop i f).fit = s.fit := rfl
@[simp] theorem State.modLoop_evt (s : State) (i : Nat) (f : Loop → Loop) : (s.modLoop i f).evt = s.evt := rfl
@[simp] theorem State.modLoop_image (s : State) (i : Nat) (f : Loop → Loop) : (s.modLoop i f).image = s.image := rfl
@[simp] theorem State.modLoop_boot (s : State) (i : Nat) (f : Loop → Loop) : (s.modLoop i f).boot = s.boot := rfl
@[simp] theorem State.modLoop_board (s : State) (i : Nat) (f : Loop → Loop) : (s.modLoop i f).board = s.board := rfl
@[simp] theorem State.modLoop_nvme (s : State) (i : Nat) (f : Loop → Loop) : (s.modLoop i f).nvme = s.nvme := rfl
@[simp] theorem State.modLoop_life (s : State) (i : Nat) (f : Loop → Loop) : (s.modLoop i f).life = s.life := rfl
@[simp] theorem State.modLoop_stp (s : State) (i : Nat) (f : Loop → Loop) : (s.modLoop i f).stp = s.stp := rfl
@[simp] theorem State.modLoop_win (s : State) (i : Nat) (f : Loop → Loop) : (s.modLoop i f).win = s.win := rfl
@[simp] theorem State.modLoop_path (s : State) (i : Nat) (f : Loop → Loop) : (s.modLoop i f).path = s.path := rfl
@[simp] theorem State.modLoop_ftl (s : State) (i : Nat) (f : Loop → Loop) : (s.modLoop i f).ftl = s.ftl := rfl
@[simp] theorem State.modLoop_cph (s : State) (i : Nat) (f : Loop → Loop) : (s.modLoop i f).cph = s.cph := rfl
@[simp] theorem State.modLoop_takes (s : State) (i : Nat) (f : Loop → Loop) : (s.modLoop i f).takes = s.takes := rfl
@[simp] theorem State.modLoop_pwr (s : State) (i : Nat) (f : Loop → Loop) : (s.modLoop i f).pwr = s.pwr := rfl
@[simp] theorem State.modLoop_slv (s : State) (i : Nat) (f : Loop → Loop) : (s.modLoop i f).slv = s.slv := rfl
@[simp] theorem State.modLoop_links (s : State) (i : Nat) (f : Loop → Loop) : (s.modLoop i f).links = s.links := rfl
@[simp] theorem State.modLoop_thm (s : State) (i : Nat) (f : Loop → Loop) : (s.modLoop i f).thm = s.thm := rfl
@[simp] theorem State.modLoop_dram (s : State) (i : Nat) (f : Loop → Loop) : (s.modLoop i f).dram = s.dram := rfl
@[simp] theorem State.modLoop_maint (s : State) (i : Nat) (f : Loop → Loop) : (s.modLoop i f).maint = s.maint := rfl
@[simp] theorem State.modLoop_port (s : State) (i : Nat) (f : Loop → Loop) : (s.modLoop i f).port = s.port := rfl
@[simp] theorem State.modLoop_reg (s : State) (i : Nat) (f : Loop → Loop) (r : Nat) : (s.modLoop i f).reg r = s.reg r := rfl
@[simp] theorem State.modLoop_rd (s : State) (i : Nat) (f : Loop → Loop) (g : Field) : (s.modLoop i f).rd g = s.rd g := rfl

@[simp] theorem State.modTakes_pending (s : State) (f : Takes → Takes) : (s.modTakes f).pending = s.pending := rfl
@[simp] theorem State.modTakes_now (s : State) (f : Takes → Takes) : (s.modTakes f).now = s.now := rfl
@[simp] theorem State.modTakes_fresh (s : State) (f : Takes → Takes) : (s.modTakes f).fresh = s.fresh := rfl
@[simp] theorem State.modTakes_regs (s : State) (f : Takes → Takes) : (s.modTakes f).regs = s.regs := rfl
@[simp] theorem State.modTakes_latches (s : State) (f : Takes → Takes) : (s.modTakes f).latches = s.latches := rfl
@[simp] theorem State.modTakes_reads (s : State) (f : Takes → Takes) : (s.modTakes f).reads = s.reads := rfl
@[simp] theorem State.modTakes_pages (s : State) (f : Takes → Takes) : (s.modTakes f).pages = s.pages := rfl
@[simp] theorem State.modTakes_fit (s : State) (f : Takes → Takes) : (s.modTakes f).fit = s.fit := rfl
@[simp] theorem State.modTakes_evt (s : State) (f : Takes → Takes) : (s.modTakes f).evt = s.evt := rfl
@[simp] theorem State.modTakes_image (s : State) (f : Takes → Takes) : (s.modTakes f).image = s.image := rfl
@[simp] theorem State.modTakes_boot (s : State) (f : Takes → Takes) : (s.modTakes f).boot = s.boot := rfl
@[simp] theorem State.modTakes_board (s : State) (f : Takes → Takes) : (s.modTakes f).board = s.board := rfl
@[simp] theorem State.modTakes_nvme (s : State) (f : Takes → Takes) : (s.modTakes f).nvme = s.nvme := rfl
@[simp] theorem State.modTakes_life (s : State) (f : Takes → Takes) : (s.modTakes f).life = s.life := rfl
@[simp] theorem State.modTakes_stp (s : State) (f : Takes → Takes) : (s.modTakes f).stp = s.stp := rfl
@[simp] theorem State.modTakes_win (s : State) (f : Takes → Takes) : (s.modTakes f).win = s.win := rfl
@[simp] theorem State.modTakes_path (s : State) (f : Takes → Takes) : (s.modTakes f).path = s.path := rfl
@[simp] theorem State.modTakes_ftl (s : State) (f : Takes → Takes) : (s.modTakes f).ftl = s.ftl := rfl
@[simp] theorem State.modTakes_cph (s : State) (f : Takes → Takes) : (s.modTakes f).cph = s.cph := rfl
@[simp] theorem State.modTakes_takes (s : State) (f : Takes → Takes) : (s.modTakes f).takes = f s.takes := rfl
@[simp] theorem State.modTakes_pwr (s : State) (f : Takes → Takes) : (s.modTakes f).pwr = s.pwr := rfl
@[simp] theorem State.modTakes_slv (s : State) (f : Takes → Takes) : (s.modTakes f).slv = s.slv := rfl
@[simp] theorem State.modTakes_links (s : State) (f : Takes → Takes) : (s.modTakes f).links = s.links := rfl
@[simp] theorem State.modTakes_thm (s : State) (f : Takes → Takes) : (s.modTakes f).thm = s.thm := rfl
@[simp] theorem State.modTakes_dram (s : State) (f : Takes → Takes) : (s.modTakes f).dram = s.dram := rfl
@[simp] theorem State.modTakes_mnt (s : State) (f : Takes → Takes) : (s.modTakes f).mnt = s.mnt := rfl
@[simp] theorem State.modTakes_maint (s : State) (f : Takes → Takes) : (s.modTakes f).maint = s.maint := rfl
@[simp] theorem State.modTakes_port (s : State) (f : Takes → Takes) : (s.modTakes f).port = s.port := rfl
@[simp] theorem State.modTakes_reg (s : State) (f : Takes → Takes) (r : Nat) : (s.modTakes f).reg r = s.reg r := rfl
@[simp] theorem State.modTakes_rd (s : State) (f : Takes → Takes) (g : Field) : (s.modTakes f).rd g = s.rd g := rfl

@[simp] theorem State.modTake_pending (s : State) (n : Nat) (f : Take → Take) : (s.modTake n f).pending = s.pending := rfl
@[simp] theorem State.modTake_now (s : State) (n : Nat) (f : Take → Take) : (s.modTake n f).now = s.now := rfl
@[simp] theorem State.modTake_fresh (s : State) (n : Nat) (f : Take → Take) : (s.modTake n f).fresh = s.fresh := rfl
@[simp] theorem State.modTake_regs (s : State) (n : Nat) (f : Take → Take) : (s.modTake n f).regs = s.regs := rfl
@[simp] theorem State.modTake_latches (s : State) (n : Nat) (f : Take → Take) : (s.modTake n f).latches = s.latches := rfl
@[simp] theorem State.modTake_reads (s : State) (n : Nat) (f : Take → Take) : (s.modTake n f).reads = s.reads := rfl
@[simp] theorem State.modTake_pages (s : State) (n : Nat) (f : Take → Take) : (s.modTake n f).pages = s.pages := rfl
@[simp] theorem State.modTake_fit (s : State) (n : Nat) (f : Take → Take) : (s.modTake n f).fit = s.fit := rfl
@[simp] theorem State.modTake_evt (s : State) (n : Nat) (f : Take → Take) : (s.modTake n f).evt = s.evt := rfl
@[simp] theorem State.modTake_image (s : State) (n : Nat) (f : Take → Take) : (s.modTake n f).image = s.image := rfl
@[simp] theorem State.modTake_boot (s : State) (n : Nat) (f : Take → Take) : (s.modTake n f).boot = s.boot := rfl
@[simp] theorem State.modTake_board (s : State) (n : Nat) (f : Take → Take) : (s.modTake n f).board = s.board := rfl
@[simp] theorem State.modTake_nvme (s : State) (n : Nat) (f : Take → Take) : (s.modTake n f).nvme = s.nvme := rfl
@[simp] theorem State.modTake_life (s : State) (n : Nat) (f : Take → Take) : (s.modTake n f).life = s.life := rfl
@[simp] theorem State.modTake_stp (s : State) (n : Nat) (f : Take → Take) : (s.modTake n f).stp = s.stp := rfl
@[simp] theorem State.modTake_win (s : State) (n : Nat) (f : Take → Take) : (s.modTake n f).win = s.win := rfl
@[simp] theorem State.modTake_path (s : State) (n : Nat) (f : Take → Take) : (s.modTake n f).path = s.path := rfl
@[simp] theorem State.modTake_ftl (s : State) (n : Nat) (f : Take → Take) : (s.modTake n f).ftl = s.ftl := rfl
@[simp] theorem State.modTake_cph (s : State) (n : Nat) (f : Take → Take) : (s.modTake n f).cph = s.cph := rfl
@[simp] theorem State.modTake_pwr (s : State) (n : Nat) (f : Take → Take) : (s.modTake n f).pwr = s.pwr := rfl
@[simp] theorem State.modTake_slv (s : State) (n : Nat) (f : Take → Take) : (s.modTake n f).slv = s.slv := rfl
@[simp] theorem State.modTake_links (s : State) (n : Nat) (f : Take → Take) : (s.modTake n f).links = s.links := rfl
@[simp] theorem State.modTake_thm (s : State) (n : Nat) (f : Take → Take) : (s.modTake n f).thm = s.thm := rfl
@[simp] theorem State.modTake_dram (s : State) (n : Nat) (f : Take → Take) : (s.modTake n f).dram = s.dram := rfl
@[simp] theorem State.modTake_mnt (s : State) (n : Nat) (f : Take → Take) : (s.modTake n f).mnt = s.mnt := rfl
@[simp] theorem State.modTake_maint (s : State) (n : Nat) (f : Take → Take) : (s.modTake n f).maint = s.maint := rfl
@[simp] theorem State.modTake_port (s : State) (n : Nat) (f : Take → Take) : (s.modTake n f).port = s.port := rfl
@[simp] theorem State.modTake_reg (s : State) (n : Nat) (f : Take → Take) (r : Nat) : (s.modTake n f).reg r = s.reg r := rfl
@[simp] theorem State.modTake_rd (s : State) (n : Nat) (f : Take → Take) (g : Field) : (s.modTake n f).rd g = s.rd g := rfl

@[simp] theorem State.modClip_pending (s : State) (n i : Nat) (f : Clip → Clip) : (s.modClip n i f).pending = s.pending := rfl
@[simp] theorem State.modClip_now (s : State) (n i : Nat) (f : Clip → Clip) : (s.modClip n i f).now = s.now := rfl
@[simp] theorem State.modClip_fresh (s : State) (n i : Nat) (f : Clip → Clip) : (s.modClip n i f).fresh = s.fresh := rfl
@[simp] theorem State.modClip_regs (s : State) (n i : Nat) (f : Clip → Clip) : (s.modClip n i f).regs = s.regs := rfl
@[simp] theorem State.modClip_latches (s : State) (n i : Nat) (f : Clip → Clip) : (s.modClip n i f).latches = s.latches := rfl
@[simp] theorem State.modClip_reads (s : State) (n i : Nat) (f : Clip → Clip) : (s.modClip n i f).reads = s.reads := rfl
@[simp] theorem State.modClip_pages (s : State) (n i : Nat) (f : Clip → Clip) : (s.modClip n i f).pages = s.pages := rfl
@[simp] theorem State.modClip_fit (s : State) (n i : Nat) (f : Clip → Clip) : (s.modClip n i f).fit = s.fit := rfl
@[simp] theorem State.modClip_evt (s : State) (n i : Nat) (f : Clip → Clip) : (s.modClip n i f).evt = s.evt := rfl
@[simp] theorem State.modClip_image (s : State) (n i : Nat) (f : Clip → Clip) : (s.modClip n i f).image = s.image := rfl
@[simp] theorem State.modClip_boot (s : State) (n i : Nat) (f : Clip → Clip) : (s.modClip n i f).boot = s.boot := rfl
@[simp] theorem State.modClip_board (s : State) (n i : Nat) (f : Clip → Clip) : (s.modClip n i f).board = s.board := rfl
@[simp] theorem State.modClip_nvme (s : State) (n i : Nat) (f : Clip → Clip) : (s.modClip n i f).nvme = s.nvme := rfl
@[simp] theorem State.modClip_life (s : State) (n i : Nat) (f : Clip → Clip) : (s.modClip n i f).life = s.life := rfl
@[simp] theorem State.modClip_stp (s : State) (n i : Nat) (f : Clip → Clip) : (s.modClip n i f).stp = s.stp := rfl
@[simp] theorem State.modClip_win (s : State) (n i : Nat) (f : Clip → Clip) : (s.modClip n i f).win = s.win := rfl
@[simp] theorem State.modClip_path (s : State) (n i : Nat) (f : Clip → Clip) : (s.modClip n i f).path = s.path := rfl
@[simp] theorem State.modClip_ftl (s : State) (n i : Nat) (f : Clip → Clip) : (s.modClip n i f).ftl = s.ftl := rfl
@[simp] theorem State.modClip_cph (s : State) (n i : Nat) (f : Clip → Clip) : (s.modClip n i f).cph = s.cph := rfl
@[simp] theorem State.modClip_pwr (s : State) (n i : Nat) (f : Clip → Clip) : (s.modClip n i f).pwr = s.pwr := rfl
@[simp] theorem State.modClip_slv (s : State) (n i : Nat) (f : Clip → Clip) : (s.modClip n i f).slv = s.slv := rfl
@[simp] theorem State.modClip_links (s : State) (n i : Nat) (f : Clip → Clip) : (s.modClip n i f).links = s.links := rfl
@[simp] theorem State.modClip_thm (s : State) (n i : Nat) (f : Clip → Clip) : (s.modClip n i f).thm = s.thm := rfl
@[simp] theorem State.modClip_dram (s : State) (n i : Nat) (f : Clip → Clip) : (s.modClip n i f).dram = s.dram := rfl
@[simp] theorem State.modClip_mnt (s : State) (n i : Nat) (f : Clip → Clip) : (s.modClip n i f).mnt = s.mnt := rfl
@[simp] theorem State.modClip_maint (s : State) (n i : Nat) (f : Clip → Clip) : (s.modClip n i f).maint = s.maint := rfl
@[simp] theorem State.modClip_port (s : State) (n i : Nat) (f : Clip → Clip) : (s.modClip n i f).port = s.port := rfl
@[simp] theorem State.modClip_reg (s : State) (n i : Nat) (f : Clip → Clip) (r : Nat) : (s.modClip n i f).reg r = s.reg r := rfl
@[simp] theorem State.modClip_rd (s : State) (n i : Nat) (f : Clip → Clip) (g : Field) : (s.modClip n i f).rd g = s.rd g := rfl

@[simp] theorem State.modDram_pending (s : State) (f : Dram → Dram) : (s.modDram f).pending = s.pending := rfl
@[simp] theorem State.modDram_now (s : State) (f : Dram → Dram) : (s.modDram f).now = s.now := rfl
@[simp] theorem State.modDram_fresh (s : State) (f : Dram → Dram) : (s.modDram f).fresh = s.fresh := rfl
@[simp] theorem State.modDram_regs (s : State) (f : Dram → Dram) : (s.modDram f).regs = s.regs := rfl
@[simp] theorem State.modDram_latches (s : State) (f : Dram → Dram) : (s.modDram f).latches = s.latches := rfl
@[simp] theorem State.modDram_reads (s : State) (f : Dram → Dram) : (s.modDram f).reads = s.reads := rfl
@[simp] theorem State.modDram_pages (s : State) (f : Dram → Dram) : (s.modDram f).pages = s.pages := rfl
@[simp] theorem State.modDram_fit (s : State) (f : Dram → Dram) : (s.modDram f).fit = s.fit := rfl
@[simp] theorem State.modDram_evt (s : State) (f : Dram → Dram) : (s.modDram f).evt = s.evt := rfl
@[simp] theorem State.modDram_image (s : State) (f : Dram → Dram) : (s.modDram f).image = s.image := rfl
@[simp] theorem State.modDram_boot (s : State) (f : Dram → Dram) : (s.modDram f).boot = s.boot := rfl
@[simp] theorem State.modDram_board (s : State) (f : Dram → Dram) : (s.modDram f).board = s.board := rfl
@[simp] theorem State.modDram_nvme (s : State) (f : Dram → Dram) : (s.modDram f).nvme = s.nvme := rfl
@[simp] theorem State.modDram_life (s : State) (f : Dram → Dram) : (s.modDram f).life = s.life := rfl
@[simp] theorem State.modDram_stp (s : State) (f : Dram → Dram) : (s.modDram f).stp = s.stp := rfl
@[simp] theorem State.modDram_win (s : State) (f : Dram → Dram) : (s.modDram f).win = s.win := rfl
@[simp] theorem State.modDram_path (s : State) (f : Dram → Dram) : (s.modDram f).path = s.path := rfl
@[simp] theorem State.modDram_ftl (s : State) (f : Dram → Dram) : (s.modDram f).ftl = s.ftl := rfl
@[simp] theorem State.modDram_cph (s : State) (f : Dram → Dram) : (s.modDram f).cph = s.cph := rfl
@[simp] theorem State.modDram_takes (s : State) (f : Dram → Dram) : (s.modDram f).takes = s.takes := rfl
@[simp] theorem State.modDram_pwr (s : State) (f : Dram → Dram) : (s.modDram f).pwr = s.pwr := rfl
@[simp] theorem State.modDram_slv (s : State) (f : Dram → Dram) : (s.modDram f).slv = s.slv := rfl
@[simp] theorem State.modDram_links (s : State) (f : Dram → Dram) : (s.modDram f).links = s.links := rfl
@[simp] theorem State.modDram_thm (s : State) (f : Dram → Dram) : (s.modDram f).thm = s.thm := rfl
@[simp] theorem State.modDram_dram (s : State) (f : Dram → Dram) : (s.modDram f).dram = f s.dram := rfl
@[simp] theorem State.modDram_mnt (s : State) (f : Dram → Dram) : (s.modDram f).mnt = s.mnt := rfl
@[simp] theorem State.modDram_maint (s : State) (f : Dram → Dram) : (s.modDram f).maint = s.maint := rfl
@[simp] theorem State.modDram_port (s : State) (f : Dram → Dram) : (s.modDram f).port = s.port := rfl
@[simp] theorem State.modDram_reg (s : State) (f : Dram → Dram) (r : Nat) : (s.modDram f).reg r = s.reg r := rfl
@[simp] theorem State.modDram_rd (s : State) (f : Dram → Dram) (g : Field) : (s.modDram f).rd g = s.rd g := rfl

@[simp] theorem State.modDrch_pending (s : State) (ch : Nat) (f : DrCh → DrCh) : (s.modDrch ch f).pending = s.pending := rfl
@[simp] theorem State.modDrch_now (s : State) (ch : Nat) (f : DrCh → DrCh) : (s.modDrch ch f).now = s.now := rfl
@[simp] theorem State.modDrch_fresh (s : State) (ch : Nat) (f : DrCh → DrCh) : (s.modDrch ch f).fresh = s.fresh := rfl
@[simp] theorem State.modDrch_regs (s : State) (ch : Nat) (f : DrCh → DrCh) : (s.modDrch ch f).regs = s.regs := rfl
@[simp] theorem State.modDrch_latches (s : State) (ch : Nat) (f : DrCh → DrCh) : (s.modDrch ch f).latches = s.latches := rfl
@[simp] theorem State.modDrch_reads (s : State) (ch : Nat) (f : DrCh → DrCh) : (s.modDrch ch f).reads = s.reads := rfl
@[simp] theorem State.modDrch_pages (s : State) (ch : Nat) (f : DrCh → DrCh) : (s.modDrch ch f).pages = s.pages := rfl
@[simp] theorem State.modDrch_fit (s : State) (ch : Nat) (f : DrCh → DrCh) : (s.modDrch ch f).fit = s.fit := rfl
@[simp] theorem State.modDrch_evt (s : State) (ch : Nat) (f : DrCh → DrCh) : (s.modDrch ch f).evt = s.evt := rfl
@[simp] theorem State.modDrch_image (s : State) (ch : Nat) (f : DrCh → DrCh) : (s.modDrch ch f).image = s.image := rfl
@[simp] theorem State.modDrch_boot (s : State) (ch : Nat) (f : DrCh → DrCh) : (s.modDrch ch f).boot = s.boot := rfl
@[simp] theorem State.modDrch_board (s : State) (ch : Nat) (f : DrCh → DrCh) : (s.modDrch ch f).board = s.board := rfl
@[simp] theorem State.modDrch_nvme (s : State) (ch : Nat) (f : DrCh → DrCh) : (s.modDrch ch f).nvme = s.nvme := rfl
@[simp] theorem State.modDrch_life (s : State) (ch : Nat) (f : DrCh → DrCh) : (s.modDrch ch f).life = s.life := rfl
@[simp] theorem State.modDrch_stp (s : State) (ch : Nat) (f : DrCh → DrCh) : (s.modDrch ch f).stp = s.stp := rfl
@[simp] theorem State.modDrch_win (s : State) (ch : Nat) (f : DrCh → DrCh) : (s.modDrch ch f).win = s.win := rfl
@[simp] theorem State.modDrch_path (s : State) (ch : Nat) (f : DrCh → DrCh) : (s.modDrch ch f).path = s.path := rfl
@[simp] theorem State.modDrch_ftl (s : State) (ch : Nat) (f : DrCh → DrCh) : (s.modDrch ch f).ftl = s.ftl := rfl
@[simp] theorem State.modDrch_cph (s : State) (ch : Nat) (f : DrCh → DrCh) : (s.modDrch ch f).cph = s.cph := rfl
@[simp] theorem State.modDrch_takes (s : State) (ch : Nat) (f : DrCh → DrCh) : (s.modDrch ch f).takes = s.takes := rfl
@[simp] theorem State.modDrch_pwr (s : State) (ch : Nat) (f : DrCh → DrCh) : (s.modDrch ch f).pwr = s.pwr := rfl
@[simp] theorem State.modDrch_slv (s : State) (ch : Nat) (f : DrCh → DrCh) : (s.modDrch ch f).slv = s.slv := rfl
@[simp] theorem State.modDrch_links (s : State) (ch : Nat) (f : DrCh → DrCh) : (s.modDrch ch f).links = s.links := rfl
@[simp] theorem State.modDrch_thm (s : State) (ch : Nat) (f : DrCh → DrCh) : (s.modDrch ch f).thm = s.thm := rfl
@[simp] theorem State.modDrch_mnt (s : State) (ch : Nat) (f : DrCh → DrCh) : (s.modDrch ch f).mnt = s.mnt := rfl
@[simp] theorem State.modDrch_maint (s : State) (ch : Nat) (f : DrCh → DrCh) : (s.modDrch ch f).maint = s.maint := rfl
@[simp] theorem State.modDrch_port (s : State) (ch : Nat) (f : DrCh → DrCh) : (s.modDrch ch f).port = s.port := rfl
@[simp] theorem State.modDrch_reg (s : State) (ch : Nat) (f : DrCh → DrCh) (r : Nat) : (s.modDrch ch f).reg r = s.reg r := rfl
@[simp] theorem State.modDrch_rd (s : State) (ch : Nat) (f : DrCh → DrCh) (g : Field) : (s.modDrch ch f).rd g = s.rd g := rfl

@[simp] theorem State.modBoot_pending (s : State) (f : Boot → Boot) : (s.modBoot f).pending = s.pending := rfl
@[simp] theorem State.modBoot_now (s : State) (f : Boot → Boot) : (s.modBoot f).now = s.now := rfl
@[simp] theorem State.modBoot_fresh (s : State) (f : Boot → Boot) : (s.modBoot f).fresh = s.fresh := rfl
@[simp] theorem State.modBoot_regs (s : State) (f : Boot → Boot) : (s.modBoot f).regs = s.regs := rfl
@[simp] theorem State.modBoot_latches (s : State) (f : Boot → Boot) : (s.modBoot f).latches = s.latches := rfl
@[simp] theorem State.modBoot_reads (s : State) (f : Boot → Boot) : (s.modBoot f).reads = s.reads := rfl
@[simp] theorem State.modBoot_pages (s : State) (f : Boot → Boot) : (s.modBoot f).pages = s.pages := rfl
@[simp] theorem State.modBoot_fit (s : State) (f : Boot → Boot) : (s.modBoot f).fit = s.fit := rfl
@[simp] theorem State.modBoot_evt (s : State) (f : Boot → Boot) : (s.modBoot f).evt = s.evt := rfl
@[simp] theorem State.modBoot_image (s : State) (f : Boot → Boot) : (s.modBoot f).image = s.image := rfl
@[simp] theorem State.modBoot_boot (s : State) (f : Boot → Boot) : (s.modBoot f).boot = f s.boot := rfl
@[simp] theorem State.modBoot_board (s : State) (f : Boot → Boot) : (s.modBoot f).board = s.board := rfl
@[simp] theorem State.modBoot_nvme (s : State) (f : Boot → Boot) : (s.modBoot f).nvme = s.nvme := rfl
@[simp] theorem State.modBoot_life (s : State) (f : Boot → Boot) : (s.modBoot f).life = s.life := rfl
@[simp] theorem State.modBoot_stp (s : State) (f : Boot → Boot) : (s.modBoot f).stp = s.stp := rfl
@[simp] theorem State.modBoot_win (s : State) (f : Boot → Boot) : (s.modBoot f).win = s.win := rfl
@[simp] theorem State.modBoot_path (s : State) (f : Boot → Boot) : (s.modBoot f).path = s.path := rfl
@[simp] theorem State.modBoot_ftl (s : State) (f : Boot → Boot) : (s.modBoot f).ftl = s.ftl := rfl
@[simp] theorem State.modBoot_cph (s : State) (f : Boot → Boot) : (s.modBoot f).cph = s.cph := rfl
@[simp] theorem State.modBoot_takes (s : State) (f : Boot → Boot) : (s.modBoot f).takes = s.takes := rfl
@[simp] theorem State.modBoot_pwr (s : State) (f : Boot → Boot) : (s.modBoot f).pwr = s.pwr := rfl
@[simp] theorem State.modBoot_slv (s : State) (f : Boot → Boot) : (s.modBoot f).slv = s.slv := rfl
@[simp] theorem State.modBoot_links (s : State) (f : Boot → Boot) : (s.modBoot f).links = s.links := rfl
@[simp] theorem State.modBoot_thm (s : State) (f : Boot → Boot) : (s.modBoot f).thm = s.thm := rfl
@[simp] theorem State.modBoot_dram (s : State) (f : Boot → Boot) : (s.modBoot f).dram = s.dram := rfl
@[simp] theorem State.modBoot_mnt (s : State) (f : Boot → Boot) : (s.modBoot f).mnt = s.mnt := rfl
@[simp] theorem State.modBoot_maint (s : State) (f : Boot → Boot) : (s.modBoot f).maint = s.maint := rfl
@[simp] theorem State.modBoot_port (s : State) (f : Boot → Boot) : (s.modBoot f).port = s.port := rfl
@[simp] theorem State.modBoot_reg (s : State) (f : Boot → Boot) (r : Nat) : (s.modBoot f).reg r = s.reg r := rfl
@[simp] theorem State.modBoot_rd (s : State) (f : Boot → Boot) (g : Field) : (s.modBoot f).rd g = s.rd g := rfl

@[simp] theorem State.modBoard_pending (s : State) (f : Board → Board) : (s.modBoard f).pending = s.pending := rfl
@[simp] theorem State.modBoard_now (s : State) (f : Board → Board) : (s.modBoard f).now = s.now := rfl
@[simp] theorem State.modBoard_fresh (s : State) (f : Board → Board) : (s.modBoard f).fresh = s.fresh := rfl
@[simp] theorem State.modBoard_regs (s : State) (f : Board → Board) : (s.modBoard f).regs = s.regs := rfl
@[simp] theorem State.modBoard_latches (s : State) (f : Board → Board) : (s.modBoard f).latches = s.latches := rfl
@[simp] theorem State.modBoard_reads (s : State) (f : Board → Board) : (s.modBoard f).reads = s.reads := rfl
@[simp] theorem State.modBoard_pages (s : State) (f : Board → Board) : (s.modBoard f).pages = s.pages := rfl
@[simp] theorem State.modBoard_fit (s : State) (f : Board → Board) : (s.modBoard f).fit = s.fit := rfl
@[simp] theorem State.modBoard_evt (s : State) (f : Board → Board) : (s.modBoard f).evt = s.evt := rfl
@[simp] theorem State.modBoard_image (s : State) (f : Board → Board) : (s.modBoard f).image = s.image := rfl
@[simp] theorem State.modBoard_boot (s : State) (f : Board → Board) : (s.modBoard f).boot = s.boot := rfl
@[simp] theorem State.modBoard_board (s : State) (f : Board → Board) : (s.modBoard f).board = f s.board := rfl
@[simp] theorem State.modBoard_nvme (s : State) (f : Board → Board) : (s.modBoard f).nvme = s.nvme := rfl
@[simp] theorem State.modBoard_life (s : State) (f : Board → Board) : (s.modBoard f).life = s.life := rfl
@[simp] theorem State.modBoard_stp (s : State) (f : Board → Board) : (s.modBoard f).stp = s.stp := rfl
@[simp] theorem State.modBoard_win (s : State) (f : Board → Board) : (s.modBoard f).win = s.win := rfl
@[simp] theorem State.modBoard_path (s : State) (f : Board → Board) : (s.modBoard f).path = s.path := rfl
@[simp] theorem State.modBoard_ftl (s : State) (f : Board → Board) : (s.modBoard f).ftl = s.ftl := rfl
@[simp] theorem State.modBoard_cph (s : State) (f : Board → Board) : (s.modBoard f).cph = s.cph := rfl
@[simp] theorem State.modBoard_takes (s : State) (f : Board → Board) : (s.modBoard f).takes = s.takes := rfl
@[simp] theorem State.modBoard_pwr (s : State) (f : Board → Board) : (s.modBoard f).pwr = s.pwr := rfl
@[simp] theorem State.modBoard_slv (s : State) (f : Board → Board) : (s.modBoard f).slv = s.slv := rfl
@[simp] theorem State.modBoard_links (s : State) (f : Board → Board) : (s.modBoard f).links = s.links := rfl
@[simp] theorem State.modBoard_thm (s : State) (f : Board → Board) : (s.modBoard f).thm = s.thm := rfl
@[simp] theorem State.modBoard_dram (s : State) (f : Board → Board) : (s.modBoard f).dram = s.dram := rfl
@[simp] theorem State.modBoard_mnt (s : State) (f : Board → Board) : (s.modBoard f).mnt = s.mnt := rfl
@[simp] theorem State.modBoard_maint (s : State) (f : Board → Board) : (s.modBoard f).maint = s.maint := rfl
@[simp] theorem State.modBoard_port (s : State) (f : Board → Board) : (s.modBoard f).port = s.port := rfl
@[simp] theorem State.modBoard_reg (s : State) (f : Board → Board) (r : Nat) : (s.modBoard f).reg r = s.reg r := rfl
@[simp] theorem State.modBoard_rd (s : State) (f : Board → Board) (g : Field) : (s.modBoard f).rd g = s.rd g := rfl

@[simp] theorem State.modLife_pending (s : State) (f : Life → Life) : (s.modLife f).pending = s.pending := rfl
@[simp] theorem State.modLife_now (s : State) (f : Life → Life) : (s.modLife f).now = s.now := rfl
@[simp] theorem State.modLife_fresh (s : State) (f : Life → Life) : (s.modLife f).fresh = s.fresh := rfl
@[simp] theorem State.modLife_regs (s : State) (f : Life → Life) : (s.modLife f).regs = s.regs := rfl
@[simp] theorem State.modLife_latches (s : State) (f : Life → Life) : (s.modLife f).latches = s.latches := rfl
@[simp] theorem State.modLife_reads (s : State) (f : Life → Life) : (s.modLife f).reads = s.reads := rfl
@[simp] theorem State.modLife_pages (s : State) (f : Life → Life) : (s.modLife f).pages = s.pages := rfl
@[simp] theorem State.modLife_fit (s : State) (f : Life → Life) : (s.modLife f).fit = s.fit := rfl
@[simp] theorem State.modLife_evt (s : State) (f : Life → Life) : (s.modLife f).evt = s.evt := rfl
@[simp] theorem State.modLife_image (s : State) (f : Life → Life) : (s.modLife f).image = s.image := rfl
@[simp] theorem State.modLife_boot (s : State) (f : Life → Life) : (s.modLife f).boot = s.boot := rfl
@[simp] theorem State.modLife_board (s : State) (f : Life → Life) : (s.modLife f).board = s.board := rfl
@[simp] theorem State.modLife_nvme (s : State) (f : Life → Life) : (s.modLife f).nvme = s.nvme := rfl
@[simp] theorem State.modLife_life (s : State) (f : Life → Life) : (s.modLife f).life = f s.life := rfl
@[simp] theorem State.modLife_stp (s : State) (f : Life → Life) : (s.modLife f).stp = s.stp := rfl
@[simp] theorem State.modLife_win (s : State) (f : Life → Life) : (s.modLife f).win = s.win := rfl
@[simp] theorem State.modLife_path (s : State) (f : Life → Life) : (s.modLife f).path = s.path := rfl
@[simp] theorem State.modLife_ftl (s : State) (f : Life → Life) : (s.modLife f).ftl = s.ftl := rfl
@[simp] theorem State.modLife_cph (s : State) (f : Life → Life) : (s.modLife f).cph = s.cph := rfl
@[simp] theorem State.modLife_takes (s : State) (f : Life → Life) : (s.modLife f).takes = s.takes := rfl
@[simp] theorem State.modLife_pwr (s : State) (f : Life → Life) : (s.modLife f).pwr = s.pwr := rfl
@[simp] theorem State.modLife_slv (s : State) (f : Life → Life) : (s.modLife f).slv = s.slv := rfl
@[simp] theorem State.modLife_links (s : State) (f : Life → Life) : (s.modLife f).links = s.links := rfl
@[simp] theorem State.modLife_thm (s : State) (f : Life → Life) : (s.modLife f).thm = s.thm := rfl
@[simp] theorem State.modLife_dram (s : State) (f : Life → Life) : (s.modLife f).dram = s.dram := rfl
@[simp] theorem State.modLife_mnt (s : State) (f : Life → Life) : (s.modLife f).mnt = s.mnt := rfl
@[simp] theorem State.modLife_maint (s : State) (f : Life → Life) : (s.modLife f).maint = s.maint := rfl
@[simp] theorem State.modLife_port (s : State) (f : Life → Life) : (s.modLife f).port = s.port := rfl
@[simp] theorem State.modLife_reg (s : State) (f : Life → Life) (r : Nat) : (s.modLife f).reg r = s.reg r := rfl
@[simp] theorem State.modLife_rd (s : State) (f : Life → Life) (g : Field) : (s.modLife f).rd g = s.rd g := rfl

@[simp] theorem State.modThm_pending (s : State) (f : Thm → Thm) : (s.modThm f).pending = s.pending := rfl
@[simp] theorem State.modThm_now (s : State) (f : Thm → Thm) : (s.modThm f).now = s.now := rfl
@[simp] theorem State.modThm_fresh (s : State) (f : Thm → Thm) : (s.modThm f).fresh = s.fresh := rfl
@[simp] theorem State.modThm_regs (s : State) (f : Thm → Thm) : (s.modThm f).regs = s.regs := rfl
@[simp] theorem State.modThm_latches (s : State) (f : Thm → Thm) : (s.modThm f).latches = s.latches := rfl
@[simp] theorem State.modThm_reads (s : State) (f : Thm → Thm) : (s.modThm f).reads = s.reads := rfl
@[simp] theorem State.modThm_pages (s : State) (f : Thm → Thm) : (s.modThm f).pages = s.pages := rfl
@[simp] theorem State.modThm_fit (s : State) (f : Thm → Thm) : (s.modThm f).fit = s.fit := rfl
@[simp] theorem State.modThm_evt (s : State) (f : Thm → Thm) : (s.modThm f).evt = s.evt := rfl
@[simp] theorem State.modThm_image (s : State) (f : Thm → Thm) : (s.modThm f).image = s.image := rfl
@[simp] theorem State.modThm_boot (s : State) (f : Thm → Thm) : (s.modThm f).boot = s.boot := rfl
@[simp] theorem State.modThm_board (s : State) (f : Thm → Thm) : (s.modThm f).board = s.board := rfl
@[simp] theorem State.modThm_nvme (s : State) (f : Thm → Thm) : (s.modThm f).nvme = s.nvme := rfl
@[simp] theorem State.modThm_life (s : State) (f : Thm → Thm) : (s.modThm f).life = s.life := rfl
@[simp] theorem State.modThm_stp (s : State) (f : Thm → Thm) : (s.modThm f).stp = s.stp := rfl
@[simp] theorem State.modThm_win (s : State) (f : Thm → Thm) : (s.modThm f).win = s.win := rfl
@[simp] theorem State.modThm_path (s : State) (f : Thm → Thm) : (s.modThm f).path = s.path := rfl
@[simp] theorem State.modThm_ftl (s : State) (f : Thm → Thm) : (s.modThm f).ftl = s.ftl := rfl
@[simp] theorem State.modThm_cph (s : State) (f : Thm → Thm) : (s.modThm f).cph = s.cph := rfl
@[simp] theorem State.modThm_takes (s : State) (f : Thm → Thm) : (s.modThm f).takes = s.takes := rfl
@[simp] theorem State.modThm_pwr (s : State) (f : Thm → Thm) : (s.modThm f).pwr = s.pwr := rfl
@[simp] theorem State.modThm_slv (s : State) (f : Thm → Thm) : (s.modThm f).slv = s.slv := rfl
@[simp] theorem State.modThm_links (s : State) (f : Thm → Thm) : (s.modThm f).links = s.links := rfl
@[simp] theorem State.modThm_thm (s : State) (f : Thm → Thm) : (s.modThm f).thm = f s.thm := rfl
@[simp] theorem State.modThm_dram (s : State) (f : Thm → Thm) : (s.modThm f).dram = s.dram := rfl
@[simp] theorem State.modThm_mnt (s : State) (f : Thm → Thm) : (s.modThm f).mnt = s.mnt := rfl
@[simp] theorem State.modThm_maint (s : State) (f : Thm → Thm) : (s.modThm f).maint = s.maint := rfl
@[simp] theorem State.modThm_port (s : State) (f : Thm → Thm) : (s.modThm f).port = s.port := rfl
@[simp] theorem State.modThm_reg (s : State) (f : Thm → Thm) (r : Nat) : (s.modThm f).reg r = s.reg r := rfl
@[simp] theorem State.modThm_rd (s : State) (f : Thm → Thm) (g : Field) : (s.modThm f).rd g = s.rd g := rfl

@[simp] theorem State.modMaint_pending (s : State) (f : Maint → Maint) : (s.modMaint f).pending = s.pending := rfl
@[simp] theorem State.modMaint_now (s : State) (f : Maint → Maint) : (s.modMaint f).now = s.now := rfl
@[simp] theorem State.modMaint_fresh (s : State) (f : Maint → Maint) : (s.modMaint f).fresh = s.fresh := rfl
@[simp] theorem State.modMaint_regs (s : State) (f : Maint → Maint) : (s.modMaint f).regs = s.regs := rfl
@[simp] theorem State.modMaint_latches (s : State) (f : Maint → Maint) : (s.modMaint f).latches = s.latches := rfl
@[simp] theorem State.modMaint_reads (s : State) (f : Maint → Maint) : (s.modMaint f).reads = s.reads := rfl
@[simp] theorem State.modMaint_pages (s : State) (f : Maint → Maint) : (s.modMaint f).pages = s.pages := rfl
@[simp] theorem State.modMaint_fit (s : State) (f : Maint → Maint) : (s.modMaint f).fit = s.fit := rfl
@[simp] theorem State.modMaint_evt (s : State) (f : Maint → Maint) : (s.modMaint f).evt = s.evt := rfl
@[simp] theorem State.modMaint_image (s : State) (f : Maint → Maint) : (s.modMaint f).image = s.image := rfl
@[simp] theorem State.modMaint_boot (s : State) (f : Maint → Maint) : (s.modMaint f).boot = s.boot := rfl
@[simp] theorem State.modMaint_board (s : State) (f : Maint → Maint) : (s.modMaint f).board = s.board := rfl
@[simp] theorem State.modMaint_nvme (s : State) (f : Maint → Maint) : (s.modMaint f).nvme = s.nvme := rfl
@[simp] theorem State.modMaint_life (s : State) (f : Maint → Maint) : (s.modMaint f).life = s.life := rfl
@[simp] theorem State.modMaint_stp (s : State) (f : Maint → Maint) : (s.modMaint f).stp = s.stp := rfl
@[simp] theorem State.modMaint_win (s : State) (f : Maint → Maint) : (s.modMaint f).win = s.win := rfl
@[simp] theorem State.modMaint_path (s : State) (f : Maint → Maint) : (s.modMaint f).path = s.path := rfl
@[simp] theorem State.modMaint_ftl (s : State) (f : Maint → Maint) : (s.modMaint f).ftl = s.ftl := rfl
@[simp] theorem State.modMaint_cph (s : State) (f : Maint → Maint) : (s.modMaint f).cph = s.cph := rfl
@[simp] theorem State.modMaint_takes (s : State) (f : Maint → Maint) : (s.modMaint f).takes = s.takes := rfl
@[simp] theorem State.modMaint_pwr (s : State) (f : Maint → Maint) : (s.modMaint f).pwr = s.pwr := rfl
@[simp] theorem State.modMaint_slv (s : State) (f : Maint → Maint) : (s.modMaint f).slv = s.slv := rfl
@[simp] theorem State.modMaint_links (s : State) (f : Maint → Maint) : (s.modMaint f).links = s.links := rfl
@[simp] theorem State.modMaint_thm (s : State) (f : Maint → Maint) : (s.modMaint f).thm = s.thm := rfl
@[simp] theorem State.modMaint_dram (s : State) (f : Maint → Maint) : (s.modMaint f).dram = s.dram := rfl
@[simp] theorem State.modMaint_mnt (s : State) (f : Maint → Maint) : (s.modMaint f).mnt = s.mnt := rfl
@[simp] theorem State.modMaint_maint (s : State) (f : Maint → Maint) : (s.modMaint f).maint = f s.maint := rfl
@[simp] theorem State.modMaint_port (s : State) (f : Maint → Maint) : (s.modMaint f).port = s.port := rfl
@[simp] theorem State.modMaint_reg (s : State) (f : Maint → Maint) (r : Nat) : (s.modMaint f).reg r = s.reg r := rfl
@[simp] theorem State.modMaint_rd (s : State) (f : Maint → Maint) (g : Field) : (s.modMaint f).rd g = s.rd g := rfl

@[simp] theorem State.modPort_pending (s : State) (f : Mgmt → Mgmt) : (s.modPort f).pending = s.pending := rfl
@[simp] theorem State.modPort_now (s : State) (f : Mgmt → Mgmt) : (s.modPort f).now = s.now := rfl
@[simp] theorem State.modPort_fresh (s : State) (f : Mgmt → Mgmt) : (s.modPort f).fresh = s.fresh := rfl
@[simp] theorem State.modPort_regs (s : State) (f : Mgmt → Mgmt) : (s.modPort f).regs = s.regs := rfl
@[simp] theorem State.modPort_latches (s : State) (f : Mgmt → Mgmt) : (s.modPort f).latches = s.latches := rfl
@[simp] theorem State.modPort_reads (s : State) (f : Mgmt → Mgmt) : (s.modPort f).reads = s.reads := rfl
@[simp] theorem State.modPort_pages (s : State) (f : Mgmt → Mgmt) : (s.modPort f).pages = s.pages := rfl
@[simp] theorem State.modPort_fit (s : State) (f : Mgmt → Mgmt) : (s.modPort f).fit = s.fit := rfl
@[simp] theorem State.modPort_evt (s : State) (f : Mgmt → Mgmt) : (s.modPort f).evt = s.evt := rfl
@[simp] theorem State.modPort_image (s : State) (f : Mgmt → Mgmt) : (s.modPort f).image = s.image := rfl
@[simp] theorem State.modPort_boot (s : State) (f : Mgmt → Mgmt) : (s.modPort f).boot = s.boot := rfl
@[simp] theorem State.modPort_board (s : State) (f : Mgmt → Mgmt) : (s.modPort f).board = s.board := rfl
@[simp] theorem State.modPort_nvme (s : State) (f : Mgmt → Mgmt) : (s.modPort f).nvme = s.nvme := rfl
@[simp] theorem State.modPort_life (s : State) (f : Mgmt → Mgmt) : (s.modPort f).life = s.life := rfl
@[simp] theorem State.modPort_stp (s : State) (f : Mgmt → Mgmt) : (s.modPort f).stp = s.stp := rfl
@[simp] theorem State.modPort_win (s : State) (f : Mgmt → Mgmt) : (s.modPort f).win = s.win := rfl
@[simp] theorem State.modPort_path (s : State) (f : Mgmt → Mgmt) : (s.modPort f).path = s.path := rfl
@[simp] theorem State.modPort_ftl (s : State) (f : Mgmt → Mgmt) : (s.modPort f).ftl = s.ftl := rfl
@[simp] theorem State.modPort_cph (s : State) (f : Mgmt → Mgmt) : (s.modPort f).cph = s.cph := rfl
@[simp] theorem State.modPort_takes (s : State) (f : Mgmt → Mgmt) : (s.modPort f).takes = s.takes := rfl
@[simp] theorem State.modPort_pwr (s : State) (f : Mgmt → Mgmt) : (s.modPort f).pwr = s.pwr := rfl
@[simp] theorem State.modPort_slv (s : State) (f : Mgmt → Mgmt) : (s.modPort f).slv = s.slv := rfl
@[simp] theorem State.modPort_links (s : State) (f : Mgmt → Mgmt) : (s.modPort f).links = s.links := rfl
@[simp] theorem State.modPort_thm (s : State) (f : Mgmt → Mgmt) : (s.modPort f).thm = s.thm := rfl
@[simp] theorem State.modPort_dram (s : State) (f : Mgmt → Mgmt) : (s.modPort f).dram = s.dram := rfl
@[simp] theorem State.modPort_mnt (s : State) (f : Mgmt → Mgmt) : (s.modPort f).mnt = s.mnt := rfl
@[simp] theorem State.modPort_maint (s : State) (f : Mgmt → Mgmt) : (s.modPort f).maint = s.maint := rfl
@[simp] theorem State.modPort_port (s : State) (f : Mgmt → Mgmt) : (s.modPort f).port = f s.port := rfl
@[simp] theorem State.modPort_reg (s : State) (f : Mgmt → Mgmt) (r : Nat) : (s.modPort f).reg r = s.reg r := rfl
@[simp] theorem State.modPort_rd (s : State) (f : Mgmt → Mgmt) (g : Field) : (s.modPort f).rd g = s.rd g := rfl

@[simp] theorem State.modStp_pending (s : State) (f : Stp → Stp) : (s.modStp f).pending = s.pending := rfl
@[simp] theorem State.modStp_now (s : State) (f : Stp → Stp) : (s.modStp f).now = s.now := rfl
@[simp] theorem State.modStp_fresh (s : State) (f : Stp → Stp) : (s.modStp f).fresh = s.fresh := rfl
@[simp] theorem State.modStp_regs (s : State) (f : Stp → Stp) : (s.modStp f).regs = s.regs := rfl
@[simp] theorem State.modStp_latches (s : State) (f : Stp → Stp) : (s.modStp f).latches = s.latches := rfl
@[simp] theorem State.modStp_reads (s : State) (f : Stp → Stp) : (s.modStp f).reads = s.reads := rfl
@[simp] theorem State.modStp_pages (s : State) (f : Stp → Stp) : (s.modStp f).pages = s.pages := rfl
@[simp] theorem State.modStp_fit (s : State) (f : Stp → Stp) : (s.modStp f).fit = s.fit := rfl
@[simp] theorem State.modStp_evt (s : State) (f : Stp → Stp) : (s.modStp f).evt = s.evt := rfl
@[simp] theorem State.modStp_image (s : State) (f : Stp → Stp) : (s.modStp f).image = s.image := rfl
@[simp] theorem State.modStp_boot (s : State) (f : Stp → Stp) : (s.modStp f).boot = s.boot := rfl
@[simp] theorem State.modStp_board (s : State) (f : Stp → Stp) : (s.modStp f).board = s.board := rfl
@[simp] theorem State.modStp_nvme (s : State) (f : Stp → Stp) : (s.modStp f).nvme = s.nvme := rfl
@[simp] theorem State.modStp_life (s : State) (f : Stp → Stp) : (s.modStp f).life = s.life := rfl
@[simp] theorem State.modStp_stp (s : State) (f : Stp → Stp) : (s.modStp f).stp = f s.stp := rfl
@[simp] theorem State.modStp_win (s : State) (f : Stp → Stp) : (s.modStp f).win = s.win := rfl
@[simp] theorem State.modStp_path (s : State) (f : Stp → Stp) : (s.modStp f).path = s.path := rfl
@[simp] theorem State.modStp_ftl (s : State) (f : Stp → Stp) : (s.modStp f).ftl = s.ftl := rfl
@[simp] theorem State.modStp_cph (s : State) (f : Stp → Stp) : (s.modStp f).cph = s.cph := rfl
@[simp] theorem State.modStp_takes (s : State) (f : Stp → Stp) : (s.modStp f).takes = s.takes := rfl
@[simp] theorem State.modStp_pwr (s : State) (f : Stp → Stp) : (s.modStp f).pwr = s.pwr := rfl
@[simp] theorem State.modStp_slv (s : State) (f : Stp → Stp) : (s.modStp f).slv = s.slv := rfl
@[simp] theorem State.modStp_links (s : State) (f : Stp → Stp) : (s.modStp f).links = s.links := rfl
@[simp] theorem State.modStp_thm (s : State) (f : Stp → Stp) : (s.modStp f).thm = s.thm := rfl
@[simp] theorem State.modStp_dram (s : State) (f : Stp → Stp) : (s.modStp f).dram = s.dram := rfl
@[simp] theorem State.modStp_mnt (s : State) (f : Stp → Stp) : (s.modStp f).mnt = s.mnt := rfl
@[simp] theorem State.modStp_maint (s : State) (f : Stp → Stp) : (s.modStp f).maint = s.maint := rfl
@[simp] theorem State.modStp_port (s : State) (f : Stp → Stp) : (s.modStp f).port = s.port := rfl
@[simp] theorem State.modStp_reg (s : State) (f : Stp → Stp) (r : Nat) : (s.modStp f).reg r = s.reg r := rfl
@[simp] theorem State.modStp_rd (s : State) (f : Stp → Stp) (g : Field) : (s.modStp f).rd g = s.rd g := rfl

@[simp] theorem State.modPwr_pending (s : State) (f : Pwr → Pwr) : (s.modPwr f).pending = s.pending := rfl
@[simp] theorem State.modPwr_now (s : State) (f : Pwr → Pwr) : (s.modPwr f).now = s.now := rfl
@[simp] theorem State.modPwr_fresh (s : State) (f : Pwr → Pwr) : (s.modPwr f).fresh = s.fresh := rfl
@[simp] theorem State.modPwr_regs (s : State) (f : Pwr → Pwr) : (s.modPwr f).regs = s.regs := rfl
@[simp] theorem State.modPwr_latches (s : State) (f : Pwr → Pwr) : (s.modPwr f).latches = s.latches := rfl
@[simp] theorem State.modPwr_reads (s : State) (f : Pwr → Pwr) : (s.modPwr f).reads = s.reads := rfl
@[simp] theorem State.modPwr_pages (s : State) (f : Pwr → Pwr) : (s.modPwr f).pages = s.pages := rfl
@[simp] theorem State.modPwr_fit (s : State) (f : Pwr → Pwr) : (s.modPwr f).fit = s.fit := rfl
@[simp] theorem State.modPwr_evt (s : State) (f : Pwr → Pwr) : (s.modPwr f).evt = s.evt := rfl
@[simp] theorem State.modPwr_image (s : State) (f : Pwr → Pwr) : (s.modPwr f).image = s.image := rfl
@[simp] theorem State.modPwr_boot (s : State) (f : Pwr → Pwr) : (s.modPwr f).boot = s.boot := rfl
@[simp] theorem State.modPwr_board (s : State) (f : Pwr → Pwr) : (s.modPwr f).board = s.board := rfl
@[simp] theorem State.modPwr_nvme (s : State) (f : Pwr → Pwr) : (s.modPwr f).nvme = s.nvme := rfl
@[simp] theorem State.modPwr_life (s : State) (f : Pwr → Pwr) : (s.modPwr f).life = s.life := rfl
@[simp] theorem State.modPwr_stp (s : State) (f : Pwr → Pwr) : (s.modPwr f).stp = s.stp := rfl
@[simp] theorem State.modPwr_win (s : State) (f : Pwr → Pwr) : (s.modPwr f).win = s.win := rfl
@[simp] theorem State.modPwr_path (s : State) (f : Pwr → Pwr) : (s.modPwr f).path = s.path := rfl
@[simp] theorem State.modPwr_ftl (s : State) (f : Pwr → Pwr) : (s.modPwr f).ftl = s.ftl := rfl
@[simp] theorem State.modPwr_cph (s : State) (f : Pwr → Pwr) : (s.modPwr f).cph = s.cph := rfl
@[simp] theorem State.modPwr_takes (s : State) (f : Pwr → Pwr) : (s.modPwr f).takes = s.takes := rfl
@[simp] theorem State.modPwr_pwr (s : State) (f : Pwr → Pwr) : (s.modPwr f).pwr = f s.pwr := rfl
@[simp] theorem State.modPwr_slv (s : State) (f : Pwr → Pwr) : (s.modPwr f).slv = s.slv := rfl
@[simp] theorem State.modPwr_links (s : State) (f : Pwr → Pwr) : (s.modPwr f).links = s.links := rfl
@[simp] theorem State.modPwr_thm (s : State) (f : Pwr → Pwr) : (s.modPwr f).thm = s.thm := rfl
@[simp] theorem State.modPwr_dram (s : State) (f : Pwr → Pwr) : (s.modPwr f).dram = s.dram := rfl
@[simp] theorem State.modPwr_mnt (s : State) (f : Pwr → Pwr) : (s.modPwr f).mnt = s.mnt := rfl
@[simp] theorem State.modPwr_maint (s : State) (f : Pwr → Pwr) : (s.modPwr f).maint = s.maint := rfl
@[simp] theorem State.modPwr_port (s : State) (f : Pwr → Pwr) : (s.modPwr f).port = s.port := rfl
@[simp] theorem State.modPwr_reg (s : State) (f : Pwr → Pwr) (r : Nat) : (s.modPwr f).reg r = s.reg r := rfl
@[simp] theorem State.modPwr_rd (s : State) (f : Pwr → Pwr) (g : Field) : (s.modPwr f).rd g = s.rd g := rfl

@[simp] theorem State.note_pending (s : State) (o n : Nat) : (s.note o n).pending = s.pending := rfl
@[simp] theorem State.note_now (s : State) (o n : Nat) : (s.note o n).now = s.now := rfl
@[simp] theorem State.note_fresh (s : State) (o n : Nat) : (s.note o n).fresh = s.fresh := rfl
@[simp] theorem State.note_regs (s : State) (o n : Nat) : (s.note o n).regs = s.regs := rfl
@[simp] theorem State.note_latches (s : State) (o n : Nat) : (s.note o n).latches = s.latches := rfl
@[simp] theorem State.note_reads (s : State) (o n : Nat) : (s.note o n).reads = s.reads := rfl
@[simp] theorem State.note_pages (s : State) (o n : Nat) : (s.note o n).pages = s.pages := rfl
@[simp] theorem State.note_fit (s : State) (o n : Nat) : (s.note o n).fit = s.fit := rfl
@[simp] theorem State.note_evt (s : State) (o n : Nat) : (s.note o n).evt = s.evt := rfl
@[simp] theorem State.note_image (s : State) (o n : Nat) : (s.note o n).image = s.image := rfl
@[simp] theorem State.note_boot (s : State) (o n : Nat) : (s.note o n).boot = s.boot := rfl
@[simp] theorem State.note_board (s : State) (o n : Nat) : (s.note o n).board = s.board := rfl
@[simp] theorem State.note_nvme (s : State) (o n : Nat) : (s.note o n).nvme = s.nvme := rfl
@[simp] theorem State.note_stp (s : State) (o n : Nat) : (s.note o n).stp = s.stp := rfl
@[simp] theorem State.note_win (s : State) (o n : Nat) : (s.note o n).win = s.win := rfl
@[simp] theorem State.note_path (s : State) (o n : Nat) : (s.note o n).path = s.path := rfl
@[simp] theorem State.note_ftl (s : State) (o n : Nat) : (s.note o n).ftl = s.ftl := rfl
@[simp] theorem State.note_cph (s : State) (o n : Nat) : (s.note o n).cph = s.cph := rfl
@[simp] theorem State.note_takes (s : State) (o n : Nat) : (s.note o n).takes = s.takes := rfl
@[simp] theorem State.note_pwr (s : State) (o n : Nat) : (s.note o n).pwr = s.pwr := rfl
@[simp] theorem State.note_slv (s : State) (o n : Nat) : (s.note o n).slv = s.slv := rfl
@[simp] theorem State.note_links (s : State) (o n : Nat) : (s.note o n).links = s.links := rfl
@[simp] theorem State.note_thm (s : State) (o n : Nat) : (s.note o n).thm = s.thm := rfl
@[simp] theorem State.note_dram (s : State) (o n : Nat) : (s.note o n).dram = s.dram := rfl
@[simp] theorem State.note_mnt (s : State) (o n : Nat) : (s.note o n).mnt = s.mnt := rfl
@[simp] theorem State.note_maint (s : State) (o n : Nat) : (s.note o n).maint = s.maint := rfl
@[simp] theorem State.note_port (s : State) (o n : Nat) : (s.note o n).port = s.port := rfl
@[simp] theorem State.note_reg (s : State) (o n : Nat) (r : Nat) : (s.note o n).reg r = s.reg r := rfl
@[simp] theorem State.note_rd (s : State) (o n : Nat) (g : Field) : (s.note o n).rd g = s.rd g := rfl

@[simp] theorem State.extend_pending (s : State) (i : Nat) (d : BitVec 384) : (s.extend i d).pending = s.pending := rfl
@[simp] theorem State.extend_now (s : State) (i : Nat) (d : BitVec 384) : (s.extend i d).now = s.now := rfl
@[simp] theorem State.extend_fresh (s : State) (i : Nat) (d : BitVec 384) : (s.extend i d).fresh = s.fresh := rfl
@[simp] theorem State.extend_regs (s : State) (i : Nat) (d : BitVec 384) : (s.extend i d).regs = s.regs := rfl
@[simp] theorem State.extend_latches (s : State) (i : Nat) (d : BitVec 384) : (s.extend i d).latches = s.latches := rfl
@[simp] theorem State.extend_reads (s : State) (i : Nat) (d : BitVec 384) : (s.extend i d).reads = s.reads := rfl
@[simp] theorem State.extend_pages (s : State) (i : Nat) (d : BitVec 384) : (s.extend i d).pages = s.pages := rfl
@[simp] theorem State.extend_fit (s : State) (i : Nat) (d : BitVec 384) : (s.extend i d).fit = s.fit := rfl
@[simp] theorem State.extend_evt (s : State) (i : Nat) (d : BitVec 384) : (s.extend i d).evt = s.evt := rfl
@[simp] theorem State.extend_image (s : State) (i : Nat) (d : BitVec 384) : (s.extend i d).image = s.image := rfl
@[simp] theorem State.extend_board (s : State) (i : Nat) (d : BitVec 384) : (s.extend i d).board = s.board := rfl
@[simp] theorem State.extend_nvme (s : State) (i : Nat) (d : BitVec 384) : (s.extend i d).nvme = s.nvme := rfl
@[simp] theorem State.extend_life (s : State) (i : Nat) (d : BitVec 384) : (s.extend i d).life = s.life := rfl
@[simp] theorem State.extend_stp (s : State) (i : Nat) (d : BitVec 384) : (s.extend i d).stp = s.stp := rfl
@[simp] theorem State.extend_win (s : State) (i : Nat) (d : BitVec 384) : (s.extend i d).win = s.win := rfl
@[simp] theorem State.extend_path (s : State) (i : Nat) (d : BitVec 384) : (s.extend i d).path = s.path := rfl
@[simp] theorem State.extend_ftl (s : State) (i : Nat) (d : BitVec 384) : (s.extend i d).ftl = s.ftl := rfl
@[simp] theorem State.extend_cph (s : State) (i : Nat) (d : BitVec 384) : (s.extend i d).cph = s.cph := rfl
@[simp] theorem State.extend_takes (s : State) (i : Nat) (d : BitVec 384) : (s.extend i d).takes = s.takes := rfl
@[simp] theorem State.extend_pwr (s : State) (i : Nat) (d : BitVec 384) : (s.extend i d).pwr = s.pwr := rfl
@[simp] theorem State.extend_slv (s : State) (i : Nat) (d : BitVec 384) : (s.extend i d).slv = s.slv := rfl
@[simp] theorem State.extend_links (s : State) (i : Nat) (d : BitVec 384) : (s.extend i d).links = s.links := rfl
@[simp] theorem State.extend_thm (s : State) (i : Nat) (d : BitVec 384) : (s.extend i d).thm = s.thm := rfl
@[simp] theorem State.extend_dram (s : State) (i : Nat) (d : BitVec 384) : (s.extend i d).dram = s.dram := rfl
@[simp] theorem State.extend_mnt (s : State) (i : Nat) (d : BitVec 384) : (s.extend i d).mnt = s.mnt := rfl
@[simp] theorem State.extend_maint (s : State) (i : Nat) (d : BitVec 384) : (s.extend i d).maint = s.maint := rfl
@[simp] theorem State.extend_port (s : State) (i : Nat) (d : BitVec 384) : (s.extend i d).port = s.port := rfl
@[simp] theorem State.extend_reg (s : State) (i : Nat) (d : BitVec 384) (r : Nat) : (s.extend i d).reg r = s.reg r := rfl
@[simp] theorem State.extend_rd (s : State) (i : Nat) (d : BitVec 384) (g : Field) : (s.extend i d).rd g = s.rd g := rfl

end Sys2Proof.Machine
end

