-- ==== Sys2Proof/Laws/Commands.lean ====
section
/-!
SUPPORT. Laws/Commands.lean: what taking up and completing an NVMe command can do: one lemma an operation.
-/
namespace Sys2Proof.Machine

/-- What signals and completions leave of the NVM subsystem: only controllers, completions, outstanding commands and responses change; of a
controller only completion queues, error log, coalescing counts and PCIe state do. -/
def cplRest (s t : State) : Prop :=
  t.nvme = { s.nvme with ctrls := t.nvme.ctrls, cpls := t.nvme.cpls, outs := t.nvme.outs, miReplies := t.nvme.miReplies } ∧
  ∀ k, t.ctrl k = { s.ctrl k with
    cqs := (t.ctrl k).cqs, errLog := (t.ctrl k).errLog, errCount := (t.ctrl k).errCount, coal := (t.ctrl k).coal, pcie := (t.ctrl k).pcie }

theorem cplRest_refl (s : State) : cplRest s s := ⟨rfl, fun _ => rfl⟩

theorem cplRest_trans {s t u : State} (h : cplRest s t) (g : cplRest t u) : cplRest s u := by
  refine ⟨?_, fun k => ?_⟩
  · rw [g.1, h.1]
  · rw [g.2 k, h.2 k]

theorem ctrl_setCtrl (s : State) (c : Nat) (x : Ctrl) (k : Nat) : (s.setCtrl c x).ctrl k = if k = c then x else s.ctrl k :=
  mapGet_mapSet _ _ _ _

theorem cplRest_setCtrl (s : State) (c : Nat) (x : Ctrl)
    (h : x = { s.ctrl c with cqs := x.cqs, errLog := x.errLog, errCount := x.errCount, coal := x.coal, pcie := x.pcie }) :
    cplRest s (s.setCtrl c x) := by
  refine ⟨rfl, fun k => ?_⟩
  rw [ctrl_setCtrl]
  split
  · subst k; exact h
  · rfl

theorem cpls_setCtrl (s : State) (c : Nat) (x : Ctrl) : (s.setCtrl c x).nvme.cpls = s.nvme.cpls := rfl

theorem msix_rest (s : State) (c vec : Nat) : cplRest s (s.msix c vec) ∧ (s.msix c vec).nvme.cpls = s.nvme.cpls := by
  unfold State.msix
  dsimp only
  split
  · exact ⟨cplRest_refl s, rfl⟩
  · split
    · exact ⟨cplRest_setCtrl s c _ rfl, rfl⟩
    · exact ⟨⟨rfl, fun _ => rfl⟩, rfl⟩

theorem cqSignal_rest (s : State) (c q vec : Nat) : cplRest s (s.cqSignal c q vec) ∧ (s.cqSignal c q vec).nvme.cpls = s.nvme.cpls := by
  unfold State.cqSignal
  dsimp only
  split
  · exact ⟨cplRest_setCtrl s c _ rfl, rfl⟩
  · split
    · exact msix_rest s c vec
    · split
      · have h := msix_rest (s.modCtrl c fun y => { y with coal := mapSet (fun _ => (0, 0)) y.coal vec (0, 0) }) c vec
        exact ⟨cplRest_trans (cplRest_setCtrl s c _ rfl) h.1, h.2⟩
      · exact ⟨cplRest_setCtrl s c _ rfl, rfl⟩

/-- A completion posted for an outstanding command is the newest one. -/
theorem post_rest (s : State) (x : Cpl) : cplRest s (s.post x) ∧
    (s.outstanding x.mi x.ctrl x.sq x.cid = true → (s.post x).nvme.cpls = s.nvme.cpls ++ [x]) := by
  unfold State.post
  split
  · rename_i h
    exact ⟨cplRest_refl s, fun g => by simp [g] at h⟩
  · extract_lets n1 s1 k q
    clear_value q
    have h1 : cplRest s s1 := ⟨rfl, fun _ => rfl⟩
    split
    · exact ⟨⟨rfl, fun _ => rfl⟩, fun _ => rfl⟩
    · split
      · rename_i e _
        dsimp only
        have h2 : cplRest s1 (s1.setCtrl x.ctrl { k with cqs := k.cqs.map fun f => if f.1 == q then
            (q, { e.2 with tail := if e.2.size ≤ e.2.tail + 1 then 0 else e.2.tail + 1 }) else f }) := cplRest_setCtrl s1 _ _ rfl
        split
        · have h3 := cqSignal_rest (s1.setCtrl x.ctrl { k with cqs := k.cqs.map fun f => if f.1 == q then
            (q, { e.2 with tail := if e.2.size ≤ e.2.tail + 1 then 0 else e.2.tail + 1 }) else f }) x.ctrl q e.2.vector
          exact ⟨cplRest_trans h1 (cplRest_trans h2 h3.1), fun _ => h3.2⟩
        · exact ⟨cplRest_trans h1 h2, fun _ => rfl⟩
      · split
        · have h3 := cqSignal_rest s1 x.ctrl 0 0
          exact ⟨cplRest_trans h1 h3.1, fun _ => h3.2⟩
        · exact ⟨h1, fun _ => rfl⟩

/-- The completion of a command. -/
def cplOf (c : Sqe) (st : Status) (dw0 dw1 : Nat) (data : List Byte) : Cpl :=
  ⟨c.ctrl.val, c.mi, c.sq, c.cid, st.sct, st.sc, st.dnr, st.crd, dw0, dw1, data⟩

theorem complete_rest (s : State) (c : Sqe) (st : Status) (dw0 dw1 : Nat) (data : List Byte) :
    cplRest s (s.complete c st dw0 dw1 data) ∧
    (s.outstanding c.mi c.ctrl.val c.sq c.cid = true → (s.complete c st dw0 dw1 data).nvme.cpls = s.nvme.cpls ++ [cplOf c st dw0 dw1 data]) := by
  unfold State.complete
  dsimp only
  split
  · exact post_rest s _
  · have h := post_rest (s.logError c.ctrl.val c.sq c.cid st.sct st.sc c.nsid) (cplOf c st dw0 dw1 data)
    exact ⟨cplRest_trans (cplRest_setCtrl s _ _ rfl) h.1, h.2⟩

/-- A completion adds the one completion. -/
theorem complete_cpls {s : State} {c : Sqe} (st : Status) (dw0 dw1 : Nat) (data : List Byte)
    (h : s.outstanding c.mi c.ctrl.val c.sq c.cid = true) :
    (s.complete c st dw0 dw1 data).nvme.cpls = s.nvme.cpls ++ [cplOf c st dw0 dw1 data] := (complete_rest s c st dw0 dw1 data).2 h

/-- A command that has been fetched is outstanding. -/
theorem fetched_outstanding (s : State) (c : Sqe) : (s.fetched c).outstanding c.mi c.ctrl.val c.sq c.cid = true := by
  unfold State.fetched State.outstanding
  split
  · rename_i h
    simp only [Bool.or_eq_true]
    exact Or.inr h
  · simp

/-- Fetching a command adds it to the outstanding ones and changes nothing else. -/
theorem fetched_frame (s : State) (c : Sqe) : ∃ o q, s.fetched c = { s with nvme := { s.nvme with outs := o, fetchSeq := q } } := by
  unfold State.fetched
  split
  · exact ⟨s.nvme.outs, s.nvme.fetchSeq, rfl⟩
  · exact ⟨_, _, rfl⟩

/-- What a command taken up finds: the state, with the command outstanding. -/
def State.taken (s : State) (c : Sqe) : State := if c.mi then s else s.fetched c

theorem taken_outstanding (s : State) (c : Sqe) : (s.taken c).outstanding c.mi c.ctrl.val c.sq c.cid = true := by
  unfold State.taken
  split
  · rename_i h
    unfold State.outstanding
    rw [h]
    rfl
  · exact fetched_outstanding s c

theorem taken_frame (s : State) (c : Sqe) : ∃ o q, s.taken c = { s with nvme := { s.nvme with outs := o, fetchSeq := q } } := by
  unfold State.taken
  split
  · exact ⟨s.nvme.outs, s.nvme.fetchSeq, rfl⟩
  · exact fetched_frame s c

/-- An admin command that nothing turns away is carried out on the state that has taken it up. -/
theorem admin_run {s : State} {c : Sqe} {kind : AdminKind} (f : State → State) (h : s.acts c = true) (hr : s.adminRefused c kind = none) :
    s.admin c kind f = f (s.taken c) := by
  unfold State.admin State.adminOr
  rw [if_neg (by simp [h])]
  dsimp only
  rw [hr]
  rfl

end Sys2Proof.Machine
end

