-- ==== Sys2Proof/Laws/Held.lean ====
section
/-!
SUPPORT. Laws/Held.lean: the part of the state that no command but a burn of the OTP touches - the queue, the clock and the
OTP - and how conditionals and folds keep it.
-/
namespace Sys2Proof.Laws
open Sys2Proof.Machine

/-- The queue, the clock and the OTP. -/
def held (s : State) : List Instr × Nat × SMap Word := (s.pending, s.now, s.boot.otp)

theorem held_fold (s : State) : (s.pending, s.now, s.boot.otp) = held s :=
  congrArg id rfl

theorem held_mk (p now fresh regs latches reads pages fit evt image boot board nvme life stp win path ftl cph takes pwr slv
    links thm dram mnt maint port) :
    held ⟨p, now, fresh, regs, latches, reads, pages, fit, evt, image, boot, board, nvme, life, stp, win, path, ftl, cph,
      takes, pwr, slv, links, thm, dram, mnt, maint, port⟩ = (p, now, boot.otp) :=
  congrArg id rfl

theorem next_inj {a b : State} (h : (Host.Outcome.next a : Host.Outcome State Fault Refusal) = .next b) : a = b := by
  cases h; rfl

theorem held_nvme (s : State) (n : Nvme) : held { s with nvme := n } = held s := rfl

theorem held_ite (c : Prop) [Decidable c] (a b : State) : held (if c then a else b) = if c then held a else held b := by
  split <;> rfl

theorem held_fst_ite {α : Type} (c : Prop) [Decidable c] (a b : State × α) :
    held (if c then a else b).1 = if c then held a.1 else held b.1 := by
  split <;> rfl

theorem held_snd_ite {α : Type} (c : Prop) [Decidable c] (a b : α × State) :
    held (if c then a else b).2 = if c then held a.2 else held b.2 := by
  split <;> rfl

theorem held_foldl {α : Type} (g : State → α → State) (h : ∀ t x, held (g t x) = held t) (l : List α) (s : State) :
    held (l.foldl g s) = held s := by
  induction l generalizing s with
  | nil => rfl
  | cons x l ih => rw [List.foldl_cons, ih, h]

theorem held_foldl_fst {α β : Type} (g : State × β → α → State × β) (h : ∀ t x, held (g t x).1 = held t.1) (l : List α)
    (s : State × β) : held (l.foldl g s).1 = held s.1 := by
  induction l generalizing s with
  | nil => rfl
  | cons x l ih => rw [List.foldl_cons, ih, h]

theorem held_foldl_snd {α β : Type} (g : β × State → α → β × State) (h : ∀ t x, held (g t x).2 = held t.2) (l : List α)
    (s : β × State) : held (l.foldl g s).2 = held s.2 := by
  induction l generalizing s with
  | nil => rfl
  | cons x l ih => rw [List.foldl_cons, ih, h]

theorem held_foldr {α : Type} (g : α → State → State) (h : ∀ t x, held (g x t) = held t) (l : List α) (s : State) :
    held (l.foldr g s) = held s := by
  induction l with
  | nil => rfl
  | cons x l ih => rw [List.foldr_cons, h, ih]

theorem held_foldl_opt {α : Type} (g : Option State → α → Option State) (hn : ∀ x, g none x = none)
    (h : ∀ t x u, g (some t) x = some u → held u = held t) (l : List α) (s u : State) (e : l.foldl g (some s) = some u) :
    held u = held s := by
  induction l generalizing s with
  | nil => cases e; rfl
  | cons x l ih =>
    rw [List.foldl_cons] at e
    cases hx : g (some s) x with
    | none =>
      rw [hx] at e
      have : ∀ l : List α, l.foldl g none = none := fun l => by
        induction l with
        | nil => rfl
        | cons y l ih => rw [List.foldl_cons, hn, ih]
      rw [this] at e
      contradiction
    | some t => rw [hx] at e; rw [ih _ e, h _ _ _ hx]

theorem held_bind {α : Type} {o : Option α} {g : α → Option State} {s t : State} (e : o.bind g = some t)
    (h : ∀ a, o = some a → ∀ u, g a = some u → held u = held s) : held t = held s := by
  rw [Option.bind_eq_some_iff] at e
  obtain ⟨a, ha, hg⟩ := e
  exact h a ha t hg

theorem held_map {α : Type} {o : Option α} {f : α → State} {s t : State} (e : o.map f = some t)
    (h : ∀ a, o = some a → held (f a) = held s) : held t = held s := by
  rw [Option.map_eq_some_iff] at e
  obtain ⟨a, ha, rfl⟩ := e
  exact h a ha

theorem held_getD {o : Option State} {d s : State} (h : ∀ t, o = some t → held t = held s) (hd : held d = held s) :
    held (o.getD d) = held s := by
  cases o with
  | none => exact hd
  | some t => exact h t rfl

theorem held_foldl_bind {α : Type} (g : State → α → Option State) (h : ∀ t x u, g t x = some u → held u = held t)
    (l : List α) {s t : State} (e : l.foldl (fun o x => o.bind fun u => g u x) (some s) = some t) : held t = held s :=
  held_foldl_opt _ (fun _ => rfl) (fun u x v e => h u x v e) l s t e
end Sys2Proof.Laws
end

