-- ==== Sys2Proof/Laws/HeldStore.lean ====
section
/-!
SUPPORT. Laws/HeldStore.lean: what `held` covers, through the operations of
registers, events, the fitting, keys, the gate, flash, the map and the write path.
-/
namespace Sys2Proof.Laws
open Sys2Proof.Machine

theorem setCtrl_held (s : State) (x1 : Nat) (x2 : Ctrl) : held (State.setCtrl s x1 x2) = held s := by
  simp only [State.setCtrl, held_mk, held_fold]

theorem modCtrl_held (s : State) (x1 : Nat) (x2 : Ctrl → Ctrl) : held (State.modCtrl s x1 x2) = held s := by
  simp only [State.modCtrl,
    ↓setCtrl_held]

theorem modPcie_held (s : State) (x1 : Nat) (x2 : Pcie → Pcie) : held (State.modPcie s x1 x2) = held s := by
  simp only [State.modPcie,
    ↓modCtrl_held]

theorem msix_held (s : State) (x1 : Nat) (x2 : Nat) : held (State.msix s x1 x2) = held s := by
  simp only [State.msix, held_mk, held_fold, ↓held_ite, ite_self,
    ↓modPcie_held]

theorem cqSignal_held (s : State) (x1 : Nat) (x2 : Nat) (x3 : Nat) : held (State.cqSignal s x1 x2 x3) = held s := by
  simp only [State.cqSignal, ↓held_ite, ite_self,
    ↓modPcie_held, ↓msix_held, ↓modCtrl_held]

theorem miMessage_held (s : State) (x1 : Nat) (x2 : List Byte) : held (State.miMessage s x1 x2) = held s := by
  simp only [State.miMessage, held_mk, held_fold]

theorem post_held (s : State) (x1 : Cpl) : held (State.post s x1) = held s := by
  simp only [State.post, held_mk, held_fold, ↓held_ite,
    ↓miMessage_held]
  repeat' split
  all_goals try simp only [held_mk, held_fold,
    ↓setCtrl_held, ↓cqSignal_held]

theorem aen_held (s : State) (x1 : Nat) (x2 : Aen) : held (State.aen s x1 x2) = held s := by
  simp only [State.aen, ↓held_ite]
  repeat' split
  all_goals try simp only [
    ↓post_held, ↓setCtrl_held]

theorem setReg_held (s : State) (x1 : Nat) (x2 : Word) : held (State.setReg s x1 x2) = held s := by
  simp only [State.setReg, held_mk, held_fold]

theorem wr_held (s : State) (x1 : Field) (x2 : Nat) : held (State.wr s x1 x2) = held s := by
  simp only [State.wr,
    ↓setReg_held]

theorem bumpBy_held (s : State) (x1 : Field) (x2 : Nat) : held (State.bumpBy s x1 x2) = held s := by
  simp only [State.bumpBy,
    ↓wr_held]

theorem logError_held (s : State) (x1 : Nat) (x2 : Nat) (x3 : Nat) (x4 : Nat) (x5 : Nat) (x6 : Nat) : held
    (State.logError s x1 x2 x3 x4 x5 x6) = held s := by
  simp only [State.logError,
    ↓setCtrl_held]

theorem complete_held (s : State) (x1 : Sqe) (x2 : Status) (x3 : Nat) (x4 : Nat) (x5 : List Byte) : held
    (State.complete s x1 x2 x3 x4 x5) = held s := by
  simp only [State.complete, ↓held_ite, ite_self,
    ↓logError_held, ↓post_held]

theorem succeed_held (s : State) (x1 : Sqe) : held (State.succeed s x1) = held s := by
  simp only [State.succeed,
    ↓complete_held]

theorem setPhase_held (s : State) (x1 : Nat) : held (State.setPhase s x1) = held s := by
  unfold State.setPhase
  rfl

theorem sendPending_held (s : State) (x1 : Nat) : held (State.sendPending s x1) = held s := by
  simp only [State.sendPending, held_mk, held_fold, ↓held_ite, ite_self,
    ↓modPcie_held]

theorem wr64_held (s : State) (x1 : Nat) (x2 : Nat) (x3 : Nat) : held (State.wr64 s x1 x2 x3) = held s := by
  simp only [State.wr64,
    ↓setReg_held]

theorem bump_held (s : State) (x1 : Field) : held (State.bump s x1) = held s := by
  simp only [State.bump,
    ↓wr_held]

theorem free_held (s : State) : held (State.free s).2 = held s := by
  simp only [State.free, held_mk, held_fold]

theorem wrSigned_held (s : State) (x1 : Field) (x2 : ℤ) : held (State.wrSigned s x1 x2) = held s := by
  simp only [State.wrSigned,
    ↓wr_held]

theorem smartAen_held (s : State) (x1 : Nat) (x2 : Nat) : held (State.smartAen s x1 x2) = held s := by
  simp only [State.smartAen, ↓held_ite, ite_self, ↓held_foldl,
    implies_true, ↓aen_held]

theorem coalesceDue_held (s : State) : held (State.coalesceDue s) = held s := by
  simp only [State.coalesceDue,
    ↓held_foldl, implies_true, ↓msix_held, ↓modCtrl_held]

theorem extend_held (s : State) (x1 : Nat) (x2 : BitVec 384) : held (State.extend s x1 x2) = held s := by
  simp only [State.extend, held_mk, held_fold]

theorem fail_held (s : State) (x1 : Sqe) (x2 : Status) : held (State.fail s x1 x2) = held s := by
  simp only [State.fail,
    ↓complete_held]

theorem postEnded_held (s : State) (x1 : Nat) (x2 : Nat) (x3 : Nat) (x4 : Status) : held (State.postEnded s x1 x2 x3
    x4) = held s := by
  simp only [State.postEnded,
    ↓logError_held, ↓post_held]

theorem deliver_held (s : State) (x1 : Nat) : held (State.deliver s x1) = held s := by
  simp only [State.deliver, ↓held_ite, ite_self, ↓held_foldl,
    implies_true, ↓msix_held, ↓aen_held]

theorem setStatus_held (s : State) (x1 : Nat) : held (State.setStatus s x1) = held s := by
  simp only [State.setStatus,
    ↓setReg_held]

theorem raise_held (s : State) (x1 : Nat) : held (State.raise s x1) = held s := by
  simp only [State.raise, held_mk, held_fold, ↓held_ite, ite_self,
    ↓deliver_held, ↓setStatus_held]

theorem record_held (s : State) (x1 : Nat) (x2 : Nat) (x3 : List Nat) : held (State.record s x1 x2 x3) = held s := by
  simp only [State.record, held_mk, held_fold, ↓held_ite, ite_self,
    ↓wr64_held, ↓raise_held]

theorem tally_held (s : State) (x1 : Nat) (x2 : Nat) : held (State.tally s x1 x2) = held s := by
  simp only [State.tally, held_mk, held_fold, ↓held_ite, ite_self]

theorem tallyMax_held (s : State) (x1 : Nat) (x2 : Nat) : held (State.tallyMax s x1 x2) = held s := by
  simp only [State.tallyMax,
    ↓tally_held]

theorem raiseAll_held (s : State) (x1 : List Nat) : held (State.raiseAll s x1) = held s := by
  simp only [State.raiseAll, ↓held_foldl,
    implies_true, ↓raise_held]

theorem note_held (s : State) (x1 : Nat) (x2 : Nat) : held (State.note s x1 x2) = held s := by
  simp only [State.note, held_mk, held_fold]

theorem raiseIf_held (s : State) (x1 : Bool) (x2 : Nat) : held (State.raiseIf s x1 x2) = held s := by
  simp only [State.raiseIf, ↓held_ite, ite_self,
    ↓raise_held]

theorem histAdd_held (s : State) (x1 : Nat) (x2 : Nat) : held (State.histAdd s x1 x2) = held s := by
  simp only [State.histAdd, held_mk, held_fold]

theorem violation_held (s : State) (x1 : Nat) (x2 : Nat) (x3 : Nat) : held (State.violation s x1 x2 x3) = held s := by
  simp only [State.violation, ↓held_ite, ite_self,
    ↓wr_held, ↓raise_held, ↓bump_held]

theorem fitEnd_held (s : State) (x1 : Nat) : held (State.fitEnd s x1) = held s := by
  simp only [State.fitEnd, held_mk, held_fold,
    ↓wr_held]

theorem fitAbort_held (s : State) (x1 : Nat) : held (State.fitAbort s x1) = held s := by
  simp only [State.fitAbort, ↓held_ite, ite_self,
    ↓fitEnd_held, ↓violation_held, ↓raise_held]

theorem fitSettle_held (s : State) : held (State.fitSettle s) = held s := by
  simp only [State.fitSettle, ↓held_ite, ite_self,
    ↓fitEnd_held, ↓raise_held]

theorem report_held (s : State) (x1 : ClampReport) (x2 : Bool) (x3 : Bool) : held (State.report s x1 x2 x3) = held s :=
    by
  simp only [State.report, held_mk, held_fold, ↓held_ite, ite_self, ↓held_foldl,
    implies_true, ↓aen_held, ↓raise_held]

theorem stopStaleBands_held (s : State) : held (State.stopStaleBands s) = held s := by
  simp only [State.stopStaleBands, held_mk, held_fold,
    ↓wr_held]

theorem fitRun_held (s : State) : held (State.fitRun s) = held s := by
  simp only [State.fitRun]
  repeat' split
  all_goals try simp only [held_mk, held_fold, ↓held_foldl,
    implies_true, ↓setReg_held, ↓fitSettle_held, ↓wr_held, ↓extend_held,
    ↓record_held, ↓raise_held, ↓stopStaleBands_held, ↓report_held, ↓fitEnd_held, ↓tally_held]

theorem fitBegin_held (s : State) (x1 : Nat) : held (State.fitBegin s x1) = held s := by
  simp only [State.fitBegin, held_mk, held_fold, ↓held_ite, ite_self,
    ↓wr_held, ↓violation_held]

theorem fitCommit_held (s : State) (x1 : Nat) : held (State.fitCommit s x1) = held s := by
  simp only [State.fitCommit, ↓held_ite, ite_self,
    ↓fitEnd_held, ↓fitRun_held, ↓raise_held,
    ↓violation_held]

theorem fitStage_held (s : State) (x1 : Nat) (x2 : Nat) (x3 : Word) : held (State.fitStage s x1 x2 x3) = held s := by
  simp only [State.fitStage, held_mk, held_fold, ↓held_ite, ite_self,
    ↓wr_held, ↓violation_held]

theorem fitSelf_held (s : State) (x1 : Nat) (x2 : List (Nat × Word)) : held (State.fitSelf s x1 x2) = held s := by
  simp only [State.fitSelf, ↓held_foldl,
    implies_true, ↓fitCommit_held, ↓fitStage_held, ↓fitBegin_held]

theorem fitRelease_held (s : State) (x1 : Nat) : held (State.fitRelease s x1) = held s := by
  simp only [State.fitRelease, held_mk, held_fold]

theorem fitAdoptClass_held (s : State) (x1 : Nat) : held (State.fitAdoptClass s x1) = held s := by
  simp only [State.fitAdoptClass, ↓held_ite, ite_self,
    ↓fitSettle_held, ↓wr_held,
    ↓fitRelease_held]

theorem fitAbandon_held (s : State) (x1 : Nat) : held (State.fitAbandon s x1) = held s := by
  simp only [State.fitAbandon, ↓held_ite, ite_self,
    ↓fitEnd_held, ↓raise_held]

theorem retireKeys_held (s : State) (x1 : Nat) (x2 : Nat) : held (State.retireKeys s x1 x2) = held s := by
  simp only [State.retireKeys, held_mk, held_fold]

theorem compactKeys_held (s : State) : held (State.compactKeys s) = held s := by
  simp only [State.compactKeys, held_mk, held_fold, ↓held_ite, ite_self
    ]

theorem setLane_held (s : State) (x1 : Nat) (x2 : Nat) : held (State.setLane s x1 x2) = held s := by
  simp only [State.setLane,
    ↓wr_held]

theorem setKeySlot_held (s : State) (x1 : Nat) (x2 : KeySlot) : held (State.setKeySlot s x1 x2) = held s := by
  simp only [State.setKeySlot, held_mk, held_fold]

theorem slotEvent_held (s : State) (x1 : Nat) (x2 : Nat) : held (State.slotEvent s x1 x2) = held s := by
  simp only [State.slotEvent,
    ↓wr_held, ↓raise_held]

theorem slotAdvance_held (s : State) (x1 : Nat) : held (State.slotAdvance s x1) = held s := by
  simp only [State.slotAdvance, ↓held_ite, ite_self,
    ↓slotEvent_held, ↓setKeySlot_held]

theorem resolveSlot_held (s : State) (x1 : Nat) : held (State.resolveSlot s x1) = held s := by
  simp only [State.resolveSlot]
  repeat' split
  all_goals try simp only [held_mk, held_fold,
    ↓setKeySlot_held, ↓slotEvent_held, ↓slotAdvance_held]

theorem countEncrypt_held (s : State) (x1 : Nat) (x2 : Bool) : held (State.countEncrypt s x1 x2) = held s := by
  simp only [State.countEncrypt,
    ↓setKeySlot_held, ↓slotAdvance_held]

theorem installKey_held (s : State) (x1 : Nat) (x2 : List Byte) (x3 : Word) (x4 : Bool) : held (State.installKey s x1
    x2 x3 x4) = held s := by
  simp only [State.installKey,
    ↓setKeySlot_held]

theorem laneUse_held (s : State) (x1 : Nat) (x2 : Nat) : held (State.laneUse s x1 x2) = held s := by
  simp only [State.laneUse, held_mk, held_fold,
    ↓wr_held]

theorem authFail_held (s : State) : held (State.authFail s) = held s := by
  simp only [State.authFail,
    ↓bump_held]

theorem unclaimInv_held (s : State) (x1 : Nat) (x2 : Nat) : held (State.unclaimInv s x1 x2) = held s := by
  simp only [State.unclaimInv,
    ↓setKeySlot_held]

theorem laneKat_held (s : State) (x1 : Nat) (x2 : Bool) : held (State.laneKat s x1 x2) = held s := by
  simp only [State.laneKat,
    ↓setLane_held, ↓wr_held]

theorem genBytes_held (s : State) (x1 : Nat) : held (State.genBytes s x1).2 = held s := by
  simp only [State.genBytes, held_mk, held_fold]

theorem putWords_held (s : State) (x1 : Nat) (x2 : Nat) (x3 : List Byte) : held (State.putWords s x1 x2 x3) = held s :=
    by
  simp only [State.putWords, ↓held_foldl,
    implies_true, ↓setReg_held]

theorem newLoadKey_held (s : State) : held (State.newLoadKey s) = held s := by
  simp only [State.newLoadKey, held_mk, held_fold, ↓held_ite, ite_self,
    ↓genBytes_held, ↓wr_held, ↓putWords_held]

theorem putKeyRec_held (s : State) (x1 : KeyRec) : held (State.putKeyRec s x1) = held s := by
  simp only [State.putKeyRec, held_mk, held_fold]

theorem entropyFail_held (s : State) : held (State.entropyFail s) = held s := by
  simp only [State.entropyFail, held_mk, held_fold,
    ↓wr_held, ↓bump_held, ↓raise_held]

theorem resolveKeys_held (s : State) : held (State.resolveKeys s) = held s := by
  simp only [State.resolveKeys, held_mk, held_fold,
    ↓held_foldl, implies_true, ↓resolveSlot_held]

theorem reserveDurable_held (s : State) (x1 : Nat) : held (State.reserveDurable s x1) = held s := by
  simp only [State.reserveDurable, ↓held_ite, ite_self,
    ↓setKeySlot_held, ↓putKeyRec_held,
    ↓compactKeys_held]

theorem claimInv_held (s : State) (x1 : Nat) (x2 : Nat) : ∀ t, State.claimInv s x1 x2 = some t → held t = held s := by
  intro t h
  unfold State.claimInv at h
  repeat' first
    | split at h
    | dsimp only at h
  all_goals try simp only [Option.some.injEq, reduceCtorEq] at h
  all_goals first
    | contradiction
    | obtain ⟨rfl, rfl⟩ := h
    | subst h
    | skip
  all_goals try simp only [
    ↓setKeySlot_held] at *

theorem laneFault_held (s : State) (x1 : Nat) : held (State.laneFault s x1) = held s := by
  simp only [State.laneFault,
    ↓setLane_held, ↓bump_held, ↓raise_held]

theorem entropyPass_held (s : State) (x1 : Nat) : held (State.entropyPass s x1) = held s := by
  simp only [State.entropyPass, held_mk, held_fold, ↓held_ite, ite_self,
    ↓wr_held]

theorem maskingReseed_held (s : State) : held (State.maskingReseed s) = held s := by
  simp only [State.maskingReseed, ↓held_ite, ite_self,
    ↓wr_held]

theorem execMaskingReseed_held (s : State) : ∀ t, execMaskingReseed s = .next t → held t = held s := by
  intro t h
  unfold execMaskingReseed at h
  replace h := next_inj h
  subst h
  simp only [↓held_ite, ite_self,
    ↓maskingReseed_held]

theorem execEntropyFaultClear_held (x0 : Nat) (s : State) : ∀ t,
    execEntropyFaultClear x0 s = .next t → held t = held s := by
  intro t h
  unfold execEntropyFaultClear at h
  replace h := next_inj h
  subst h
  simp only [↓held_ite, ite_self,
    ↓entropyPass_held]

theorem execEntropyHealthFail_held (s : State) : ∀ t, execEntropyHealthFail s = .next t → held t = held s := by
  intro t h
  unfold execEntropyHealthFail at h
  replace h := next_inj h
  subst h
  simp only [↓held_ite, ite_self,
    ↓entropyFail_held]

theorem modWin_held (s : State) (x1 : Window → Window) : held (State.modWin s x1) = held s := by
  simp only [State.modWin, held_mk, held_fold]

theorem openGate_held (s : State) : held (State.openGate s) = held s := by
  unfold State.openGate
  repeat' first
    | simp only [↓held_ite,
        ↓record_held, ↓modWin_held, ↓tally_held, ↓wr_held,
        ↓tallyMax_held, ↓raise_held]
    | intro _
    | split
    | refine (held_foldl _ ?_ _ _).trans ?_
    | refine (held_foldl_fst _ ?_ _ _).trans ?_
    | refine (held_foldl_snd _ ?_ _ _).trans ?_

theorem reopenGate_held (s : State) : held (State.reopenGate s) = held s := by
  simp only [State.reopenGate, ↓held_ite, ite_self,
    ↓openGate_held]

theorem occDrop_held (s : State) (x1 : Nat) : held (State.occDrop s x1) = held s := by
  simp only [State.occDrop,
    ↓modWin_held, ↓reopenGate_held]

theorem askChunk_held (s : State) (x1 : WCmd) (x2 : Bool) : held (State.askChunk s x1 x2) = held s := by
  simp only [State.askChunk, ↓held_ite, ite_self,
    ↓modWin_held]

theorem modPath_held (s : State) (x1 : Path → Path) : held (State.modPath s x1) = held s := by
  simp only [State.modPath, held_mk, held_fold]

theorem modW_held (s : State) (x1 : Nat) (x2 : WCmd → WCmd) : held (State.modW s x1 x2) = held s := by
  simp only [State.modW,
    ↓modPath_held]

theorem showWt_held (s : State) : held (State.showWt s) = held s := by
  simp only [State.showWt,
    ↓wr_held]

theorem grant_held (s : State) (x1 : ChunkReq) (x2 : WCmd) : held (State.grant s x1 x2) = held s := by
  simp only [State.grant, held_mk, held_fold,
    ↓showWt_held]
  repeat' split
  all_goals try simp only [
    ↓askChunk_held, ↓modWin_held, ↓modW_held]

theorem shutGate_held (s : State) : held (State.shutGate s) = held s := by
  simp only [State.shutGate, ↓held_ite, ite_self,
    ↓wr_held, ↓raise_held]

theorem chunkGrant_held (s : State) : held (State.chunkGrant s) = held s := by
  simp only [State.chunkGrant, ↓held_ite]
  repeat' split
  all_goals try simp only [
    ↓modWin_held, ↓bump_held, ↓shutGate_held, ↓grant_held]

theorem execChunkGrant_held (s : State) : ∀ t, execChunkGrant s = .next t → held t = held s := by
  intro t h
  unfold execChunkGrant at h
  replace h := next_inj h
  subst h
  simp only [↓held_ite, ite_self,
    ↓chunkGrant_held]

theorem enterDegraded_held (s : State) : held (State.enterDegraded s) = held s := by
  simp only [State.enterDegraded, ↓held_ite, ite_self,
    ↓smartAen_held, ↓wr_held, ↓raise_held]

theorem governorTick_held (s : State) : held (State.governorTick s) = held s := by
  simp only [State.governorTick, ↓held_ite, ite_self,
    ↓modWin_held, ↓reopenGate_held, ↓wr_held,
    ↓shutGate_held, ↓enterDegraded_held, ↓raise_held]

theorem moved_held (s : State) (x1 : Nat) (x2 : Nat) (x3 : Nat) : held (State.moved s x1 x2 x3) = held s := by
  simp only [State.moved,
    ↓modPath_held]

theorem withdraw_held (s : State) (x1 : Nat) : held (State.withdraw s x1) = held s := by
  simp only [State.withdraw]
  repeat' split
  all_goals try simp only [
    ↓modWin_held, ↓occDrop_held, ↓modW_held]

theorem degradedExit_held (s : State) : held (State.degradedExit s) = held s := by
  simp only [State.degradedExit]
  repeat' split
  all_goals try simp only [
    ↓wr_held, ↓raise_held]

theorem execDegradedExit_held (s : State) : ∀ t, execDegradedExit s = .next t → held t = held s := by
  intro t h
  unfold execDegradedExit at h
  replace h := next_inj h
  subst h
  simp only [↓held_ite, ite_self,
    ↓degradedExit_held]

theorem promote_held (s : State) : held (State.promote s) = held s := by
  simp only [State.promote,
    ↓modWin_held]

theorem hardClose_held (s : State) (x1 : Nat) : held (State.hardClose s x1) = held s := by
  simp only [State.hardClose, ↓held_ite, ite_self,
    ↓modWin_held, ↓wr_held, ↓shutGate_held]

theorem execBulkPromotion_held (s : State) : ∀ t, execBulkPromotion s = .next t → held t = held s := by
  intro t h
  unfold execBulkPromotion at h
  replace h := next_inj h
  subst h
  simp only [↓held_ite, ite_self,
    ↓promote_held]

theorem setMeter_held (s : State) (x1 : Nat) : held (State.setMeter s x1) = held s := by
  simp only [State.setMeter,
    ↓modWin_held, ↓wr_held]

theorem setCapped_held (s : State) (x1 : Bool) : held (State.setCapped s x1) = held s := by
  simp only [State.setCapped,
    ↓modWin_held, ↓wr_held]

theorem readCharge_held (s : State) (x1 : Nat) : held (State.readCharge s x1) = held s := by
  simp only [State.readCharge, ↓held_ite, ite_self,
    ↓modWin_held]

theorem execGovernorTick_held (s : State) : ∀ t, execGovernorTick s = .next t → held t = held s := by
  intro t h
  unfold execGovernorTick at h
  replace h := next_inj h
  subst h
  simp only [↓held_ite, ite_self,
    ↓fitAdoptClass_held, ↓governorTick_held]

theorem setLink_held (s : State) (x1 : Nat) (x2 : Nat) : held (State.setLink s x1 x2) = held s := by
  simp only [State.setLink, ↓held_ite, ite_self,
    ↓wr_held, ↓raiseIf_held, ↓raise_held]

theorem modFtl_held (s : State) (x1 : Ftl → Ftl) : held (State.modFtl s x1) = held s := by
  simp only [State.modFtl, held_mk, held_fold]

theorem modBand_held (s : State) (x1 : Nat) (x2 : Band → Band) : held (State.modBand s x1 x2) = held s := by
  simp only [State.modBand,
    ↓modFtl_held]

theorem modStripe_held (s : State) (x1 : Nat) (x2 : Stripe → Stripe) : held (State.modStripe s x1 x2) = held s := by
  simp only [State.modStripe,
    ↓modFtl_held]

theorem closeOne_held (s : State) (x1 : Nat) (x2 : Nat) : held (State.closeOne s x1 x2) = held s := by
  simp only [State.closeOne]
  repeat' split
  all_goals try simp only [
    ↓wr_held, ↓modBand_held, ↓modStripe_held,
    ↓modFtl_held, ↓moved_held, ↓tally_held]

theorem stopOne_held (s : State) (x1 : Nat) (x2 : Nat) : held (State.stopOne s x1 x2) = held s := by
  simp only [State.stopOne]
  repeat' split
  all_goals try simp only [
    ↓closeOne_held, ↓modBand_held]

theorem putAt_held (s : State) (x1 : Nat) (x2 : Nat) (x3 : Placed) : held (State.putAt s x1 x2 x3) = held s := by
  simp only [State.putAt,
    ↓modStripe_held]

theorem beginStripe_held (s : State) (x1 : Band) : ∀ t y, State.beginStripe s x1 = some (t, y) → held t = held s := by
  intro t y h
  unfold State.beginStripe at h
  repeat' first
    | split at h
    | dsimp only at h
  all_goals try simp only [Option.some.injEq, Prod.mk.injEq, reduceCtorEq] at h
  all_goals first
    | contradiction
    | obtain ⟨rfl, rfl⟩ := h
    | subst h
    | skip
  all_goals try simp only [
    ↓modFtl_held] at *

theorem modHealth_held (s : State) (x1 : Health → Health) : held (State.modHealth s x1) = held s := by
  simp only [State.modHealth,
    ↓modFtl_held]

theorem stripeEvent_held (s : State) (x1 : Nat) (x2 : Nat) (x3 : Nat) (x4 : Nat) (x5 : Nat) (x6 : Nat) : held
    (State.stripeEvent s x1 x2 x3 x4 x5 x6) = held s := by
  simp only [State.stripeEvent,
    ↓modHealth_held]

theorem closeStripe_held (s : State) (x1 : Nat) (x2 : Nat) : held (State.closeStripe s x1 x2) = held s := by
  simp only [State.closeStripe,
    ↓held_foldl, implies_true, ↓closeOne_held]

theorem closeIfFull_held (s : State) (x1 : Nat) : held (State.closeIfFull s x1) = held s := by
  simp only [State.closeIfFull]
  repeat' split
  all_goals try simp only [
    ↓closeStripe_held]

theorem setBlk_held (s : State) (x1 : Nat × Nat × Nat) (x2 : Blk) : held (State.setBlk s x1 x2) = held s := by
  simp only [State.setBlk,
    ↓modFtl_held]

theorem addBand_held (s : State) (x1 : Nat) (x2 : List (Nat × Nat × Nat)) (x3 : Nat) : held (State.addBand s x1 x2 x3)
    = held s := by
  simp only [State.addBand, ↓held_foldl,
    implies_true, ↓setBlk_held, ↓modFtl_held, ↓wr_held]

theorem openBand_held (s : State) (x1 : Nat) : ∀ t, State.openBand s x1 = some t → held t = held s := by
  intro t h
  unfold State.openBand at h
  repeat' first
    | split at h
    | dsimp only at h
  all_goals try simp only [Option.some.injEq, reduceCtorEq] at h
  all_goals first
    | contradiction
    | obtain ⟨rfl, rfl⟩ := h
    | subst h
    | skip
  all_goals try simp only [
    ↓addBand_held] at *

theorem fillBands_held (x0 : Nat) (s : State) : held (State.fillBands x0 s) = held s := by
  induction x0 generalizing s with
  | zero => rfl
  | succ n ih =>
    rw [State.fillBands]
    split
    · rfl
    · split
      · rename_i t h
        rw [ih, openBand_held _ _ _ h]
      · rfl

theorem bandWithRoom_held (s : State) (x1 : Nat) (x2 : Nat) (x3 : Nat) : ∀ t y,
    State.bandWithRoom s x1 x2 x3 = some (t, y) → held t = held s := by
  intro t y h
  unfold State.bandWithRoom at h
  split at h
  · cases h; rfl
  · split at h
    · rename_i u hu
      have e : held u = held s := by
        split at hu
        · exact openBand_held _ _ _ hu
        · contradiction
      split at h
      · split at h
        · cases h; exact e
        · contradiction
      · contradiction
    · split at h
      · split at h
        · dsimp only at h
          split at h
          · split at h
            · cases h; exact closeStripe_held _ _ _
            · contradiction
          · contradiction
        · contradiction
      · contradiction

theorem stopBand_held (s : State) (x1 : Nat) (x2 : Nat) : held (State.stopBand s x1 x2) = held s := by
  simp only [State.stopBand]
  repeat' split
  all_goals try simp only [↓held_foldl,
    implies_true, ↓stopOne_held]

theorem takeSeq_held (s : State) : ∀ y t, State.takeSeq s = some (y, t) → held t = held s := by
  intro y t h
  unfold State.takeSeq at h
  repeat' first
    | split at h
    | dsimp only at h
  all_goals try simp only [Option.some.injEq, Prod.mk.injEq, reduceCtorEq] at h
  all_goals first
    | contradiction
    | obtain ⟨rfl, rfl⟩ := h
    | subst h
    | skip
  all_goals try simp only [
    ↓modFtl_held] at *

theorem assemble_held (s : State) (x1 : Nat) (x2 : Nat) (x3 : Bool) (x4 : Placed) : ∀ t y,
    State.assemble s x1 x2 x3 x4 = some (t, y) → held t = held s := by
  intro t y h
  unfold State.assemble at h
  dsimp only at h
  split at h
  · split at h
    · cases h
      simp only [↓closeIfFull_held, ↓putAt_held]
    · contradiction
  · split at h
    · contradiction
    · rename_i s1 b n hg
      split at h
      · contradiction
      · rename_i s2 st hb
        rw [Option.ite_none_right_eq_some] at h
        replace h := h.2
        · cases h
          simp only [↓closeIfFull_held, ↓putAt_held, ↓modStripe_held]
          rw [beginStripe_held _ _ _ _ hb]
          split at hg
          · rename_i hx
            simp only [Option.some.injEq, Prod.mk.injEq] at hg
            obtain ⟨rfl, -⟩ := hg
            exact bandWithRoom_held _ _ _ _ _ _ hx
          · generalize hw : (if (x3 && x4.sec.lsa % 512 == 0) = true then 512 else 1) = want at hg
            split at hg
            · contradiction
            · rw [Option.map_eq_some_iff] at hg
              obtain ⟨w, hx, he⟩ := hg
              simp only [Prod.mk.injEq] at he
              obtain ⟨rfl, -⟩ := he
              exact bandWithRoom_held _ _ _ _ _ _ hx

theorem pruneMetas_held (s : State) : held (State.pruneMetas s) = held s := by
  simp only [State.pruneMetas,
    ↓modFtl_held]

theorem beginTriple_held (s : State) (x1 : Band) : ∀ t y, State.beginTriple s x1 = some (t, y) → held t = held s := by
  intro t y h
  unfold State.beginTriple at h
  split at h
  · contradiction
  · rename_i s1 st h1
    split at h
    · split at h
      · rename_i s2 st2 h2
        split at h
        · rename_i s3 st3 h3
          cases h
          rw [beginStripe_held _ _ _ _ h3, beginStripe_held _ _ _ _ h2, beginStripe_held _ _ _ _ h1]
        · contradiction
      · contradiction
    · contradiction

theorem metaLost_held (s : State) (x1 : MetaFinding) : held (State.metaLost s x1) = held s := by
  simp only [State.metaLost]
  repeat' split
  all_goals try simp only [
    ↓modFtl_held]

theorem closeOpen_held (s : State) (x1 : Nat) : held (State.closeOpen s x1) = held s := by
  simp only [State.closeOpen]
  repeat' split
  all_goals try simp only [
    ↓closeStripe_held]

theorem openOn3_held (s : State) (x1 : Nat) (x2 : Nat) (x3 : List (Nat × Nat × Nat)) : ∀ t,
    State.openOn3 s x1 x2 x3 = some t → held t = held s := by
  intro t h
  unfold State.openOn3 at h
  split at h
  · contradiction
  · cases h; exact addBand_held _ _ _ _

theorem openTriple_held (s : State) : ∀ t, State.openTriple s = some t → held t = held s := by
  intro t h
  unfold State.openTriple at h
  repeat' split at h
  all_goals first | contradiction | skip
  refine held_bind h fun a ha u hu => (openOn3_held _ _ _ _ _ hu).trans ?_
  exact held_bind ha fun b hb v hv => (openOn3_held _ _ _ _ _ hv).trans (openOn3_held _ _ _ _ _ hb)

theorem freshTriple_held (s : State) (x1 : Nat) : ∀ t y, State.freshTriple s x1 = some (t, y) → held t = held s := by
  intro v z e
  unfold State.freshTriple at e
  split at e
  · rename_i w hw
    rw [Option.bind_eq_some_iff] at e
    obtain ⟨a, ha, e⟩ := e
    split at e
    · split at e
      · cases e
        rw [Option.bind_eq_some_iff] at ha
        obtain ⟨b, -, hb⟩ := ha
        rw [beginTriple_held _ _ _ _ hb, openTriple_held _ _ hw]
      · contradiction
    · contradiction
  · contradiction

theorem tripleRoom_held (s : State) (x1 : Nat) : ∀ t y, State.tripleRoom s x1 = some (t, y) → held t = held s := by
  intro t y h
  unfold State.tripleRoom at h
  split at h
  · exact freshTriple_held _ _ _ _ h
  · split at h
    · exact beginTriple_held _ _ _ _ h
    · split at h
      · split at h
        · rw [beginTriple_held _ _ _ _ h, closeOpen_held]
        · rw [freshTriple_held _ _ _ _ h, stopBand_held, closeOpen_held]
      · rw [freshTriple_held _ _ _ _ h, closeOpen_held]

theorem claim3_held (s : State) (x1 : Nat) : ∀ t y, State.claim3 s x1 = some (t, y) → held t = held s := by
  intro t y h
  unfold State.claim3 at h
  repeat' first
    | split at h
    | dsimp only at h
  all_goals try simp only [Option.some.injEq, Prod.mk.injEq, reduceCtorEq] at h
  all_goals first
    | contradiction
    | obtain ⟨rfl, rfl⟩ := h
    | subst h
    | skip
  all_goals
    try have hh := tripleRoom_held _ _ _ _ ‹State.tripleRoom _ _ = some (_, _)›
    try simp only [↓held_foldl,
      implies_true, ↓modStripe_held] at *
  all_goals try simp_all only []

theorem putFill3_held (s : State) (x1 : Nat) (x2 : Nat) : held (State.putFill3 s x1 x2) = held s := by
  simp only [State.putFill3, ↓held_foldl,
    implies_true, ↓modFtl_held, ↓putAt_held]

theorem fillUnit_held (s : State) (x1 : Nat) (x2 : Nat) : held (State.fillUnit s x1 x2) = held s := by
  simp only [State.fillUnit]
  repeat' split
  all_goals try simp only [↓held_foldl,
    implies_true, ↓putFill3_held]

theorem putCopies_held (s : State) (x1 : Nat) (x2 : Nat) (x3 : List Byte) : held (State.putCopies s x1 x2 x3) = held s
    := by
  simp only [State.putCopies,
    ↓held_foldl, implies_true, ↓modFtl_held, ↓putAt_held]

theorem readyExtent_held (s : State) : ∀ t, State.readyExtent s = some t → held t = held s := by
  intro t h
  unfold State.readyExtent at h
  dsimp only at h
  split at h
  · cases h; rfl
  · split at h
    · cases h; exact modFtl_held _ _
    · refine held_map h fun a ha => ?_
      exact (modFtl_held _ _).trans (claim3_held _ _ _ _ (show _ = some (a.1, a.2) from ha))

theorem placeMeta_held (s : State) (x1 : MetaSec) : held (State.placeMeta s x1).1 = held s := by
  unfold State.placeMeta
  repeat' split
  all_goals
    try have hh := claim3_held _ _ _ _ ‹State.claim3 _ _ = some (_, _)›
    try have hh := readyExtent_held _ _ ‹State.readyExtent _ = some _›
    try simp only [
      ↓fillUnit_held, ↓modFtl_held, ↓putCopies_held,
      ↓closeIfFull_held] at *
  all_goals try simp_all only []

theorem putMeta_held (s : State) (x1 : MetaOf) (x2 : Nat) (x3 : List Byte) : held (State.putMeta s x1 x2 x3) = held s
    := by
  simp only [State.putMeta,
    ↓modFtl_held, ↓placeMeta_held]

theorem metaRewrite_held (s : State) (x1 : MetaFinding) : held (State.metaRewrite s x1) = held s := by
  simp only [State.metaRewrite]
  repeat' split
  all_goals try simp only [
    ↓putMeta_held, ↓raiseIf_held, ↓modHealth_held]

theorem remeta_held (s : State) : held (State.remeta s) = held s := by
  simp only [State.remeta, ↓held_foldl,
    implies_true, ↓putMeta_held]

theorem placeMetas_held (s : State) : held (State.placeMetas s) = held s := by
  simp only [State.placeMetas, ↓held_ite, ↓held_fst_ite, ite_self,
    ↓held_foldl_fst, implies_true, ↓modFtl_held, ↓placeMeta_held]

theorem metaSettle_held (s : State) : held (State.metaSettle s) = held s := by
  simp only [State.metaSettle,
    ↓modFtl_held, ↓placeMetas_held]

theorem putConfigCopy_held (s : State) (x1 : List Byte) : held (State.putConfigCopy s x1) = held s := by
  simp only [State.putConfigCopy, ↓held_ite, ite_self,
    ↓held_foldl, implies_true, ↓putMeta_held, ↓modFtl_held]

theorem modDram_held (s : State) (x1 : Dram → Dram) : held (State.modDram s x1) = held s := by
  simp only [State.modDram, held_mk, held_fold]

theorem modDrch_held (s : State) (x1 : Nat) (x2 : DrCh → DrCh) : held (State.modDrch s x1 x2) = held s := by
  simp only [State.modDrch,
    ↓modDram_held]

theorem showQueue_held (s : State) (x1 : Nat) : held (State.showQueue s x1) = held s := by
  simp only [State.showQueue,
    ↓wr_held]

theorem queueRead_held (s : State) (x1 : Nat) (x2 : Nat) : held (State.queueRead s x1 x2) = held s := by
  simp only [State.queueRead, ↓held_ite, ite_self,
    ↓modDrch_held, ↓showQueue_held]

theorem readCopy_held (s : State) (x1 : Nat) : held (State.readCopy s x1) = held s := by
  simp only [State.readCopy]
  repeat' split
  all_goals try simp only [↓held_foldl,
    implies_true, ↓queueRead_held]

theorem queueWrite_held (s : State) (x1 : Nat) (x2 : Nat) (x3 : Option (List Byte)) : ∀ t,
    State.queueWrite s x1 x2 x3 = some t → held t = held s := by
  intro t h
  unfold State.queueWrite at h
  repeat' first
    | split at h
    | dsimp only at h
  all_goals try simp only [Option.some.injEq, reduceCtorEq] at h
  all_goals first
    | contradiction
    | obtain ⟨rfl, rfl⟩ := h
    | subst h
    | skip
  all_goals try simp only [
    ↓modDrch_held, ↓showQueue_held] at *

theorem stageCopy_held (s : State) (x1 : Nat) : ∀ t, State.stageCopy s x1 = some t → held t = held s := by
  intro t h
  unfold State.stageCopy at h
  split at h
  · contradiction
  · refine held_map h fun a ha => ?_
    rw [modDram_held]
    exact held_foldl_bind _ (fun t x u e => queueWrite_held t _ _ _ u e) _ ha

theorem serveLine_held (s : State) (x1 : Nat) : held (State.serveLine s x1) = held s := by
  simp only [State.serveLine, ↓held_ite]
  repeat' split
  all_goals try simp only [
    ↓modDrch_held, ↓showQueue_held, ↓modDram_held]

theorem serveDram_held (s : State) : held (State.serveDram s) = held s := by
  simp only [State.serveDram,
    ↓held_foldl, implies_true, ↓serveLine_held]

theorem readServed_held (s : State) (x1 : Nat) (x2 : Nat) : held (State.readServed s x1 x2) = held s := by
  simp only [State.readServed]
  repeat' split
  all_goals try simp only [
    ↓modDrch_held, ↓showQueue_held]

theorem drainQueues_held (s : State) (x1 : Nat) : held (State.drainQueues s x1) = held s := by
  simp only [State.drainQueues,
    ↓held_foldl, implies_true, ↓serveLine_held]

theorem nameExtent_held (s : State) : held (State.nameExtent s).1 = held s := by
  unfold State.nameExtent
  repeat' split
  all_goals
    try have hh := claim3_held _ _ _ _ ‹State.claim3 _ _ = some (_, _)›
    try have hh := readyExtent_held _ _ ‹State.readyExtent _ = some _›
    try simp only [
      ↓modFtl_held] at *
  all_goals try simp_all only []

theorem writePage_held (s : State) (x1 : Bool) : held (State.writePage s x1) = held s := by
  simp only [State.writePage, ↓held_ite, ite_self,
    ↓putMeta_held, ↓modFtl_held,
    ↓nameExtent_held]

theorem pageTimer_held (s : State) : held (State.pageTimer s) = held s := by
  simp only [State.pageTimer, ↓held_ite, ite_self,
    ↓writePage_held]

theorem mapWrite_held (s : State) (x1 : Nat) (x2 : List (Nat × Nat)) : held (State.mapWrite s x1 x2) = held s := by
  simp only [State.mapWrite,
    ↓modFtl_held]

theorem jput_held (s : State) (x1 : Entry) : held (State.jput s x1) = held s := by
  simp only [State.jput, ↓held_ite, ite_self,
    ↓modFtl_held, ↓writePage_held]

theorem jputs_held (s : State) (x1 : List Entry) : held (State.jputs s x1) = held s := by
  simp only [State.jputs, ↓held_foldl,
    implies_true, ↓jput_held]

theorem pend_held (s : State) (x1 : Entry) : held (State.pend s x1) = held s := by
  simp only [State.pend, ↓held_ite,
    ↓modFtl_held]
  repeat' split
  all_goals try simp only [
    ↓modFtl_held, ↓closeStripe_held]

theorem raiseCeil_held (s : State) : held (State.raiseCeil s) = held s := by
  simp only [State.raiseCeil, ↓held_ite, ite_self,
    ↓modFtl_held, ↓jput_held]

theorem trim_held (s : State) (x1 : Nat) (x2 : Nat) (x3 : Nat) : ∀ t,
    State.trim s x1 x2 x3 = some t → held t = held s := by
  intro t h
  unfold State.trim at h
  repeat' first
    | split at h
    | dsimp only at h
  all_goals try simp only [Option.some.injEq, reduceCtorEq] at h
  all_goals first
    | contradiction
    | obtain ⟨rfl, rfl⟩ := h
    | subst h
    | skip
  all_goals
    try have hh := takeSeq_held _ _ _ ‹State.takeSeq _ = some (_, _)›
    try simp only [
      ↓pend_held, ↓raiseCeil_held, ↓modFtl_held,
      ↓jput_held] at *
  all_goals try simp_all only []

theorem mapMove_held (s : State) (x1 : Nat) (x2 : Nat) (x3 : Nat) (x4 : Nat) : held (State.mapMove s x1 x2 x3 x4) =
    held s := by
  simp only [State.mapMove, ↓held_ite, ite_self,
    ↓modFtl_held]

theorem execJournalPageTimer_held (s : State) : ∀ t, execJournalPageTimer s = .next t → held t = held s := by
  intro t h
  unfold execJournalPageTimer at h
  replace h := next_inj h
  subst h
  simp only [↓held_ite, ite_self,
    ↓pageTimer_held]

theorem withSeqs_held (s : State) (x1 x2 : Nat) (x3 : Sqe) (f : State → State) (h : ∀ t,
    held (f t) = held t) : held (s.withSeqs x1 x2 x3 f) = held s := by
  unfold State.withSeqs
  split
  · exact h s
  · split
    · rfl
    · exact (raiseCeil_held _).trans rfl

theorem putPage_held (s : State) (x1 : Nat) (x2 : MetaOf × List Byte) : held (State.putPage s x1 x2) = held s := by
  simp only [State.putPage, ↓held_ite, ite_self,
    ↓putMeta_held]

theorem putDirs_held (s : State) (x1 : Nat) (x2 : List Nat) : held (State.putDirs s x1 x2) = held s := by
  simp only [State.putDirs, ↓held_foldl,
    implies_true, ↓putPage_held]

theorem cpRoot_held (s : State) : held (State.cpRoot s) = held s := by
  simp only [State.cpRoot]
  repeat' split
  all_goals try simp only [
    ↓putMeta_held]

theorem waitStep_held (s : State) (x1 : DurWait) : held (State.waitStep s x1) = held s := by
  simp only [State.waitStep, ↓held_ite, ite_self,
    ↓modPath_held, ↓setCtrl_held, ↓writePage_held,
    ↓succeed_held]

theorem releaseNever_held (s : State) (x1 : Stripe) : held (State.releaseNever s x1) = held s := by
  simp only [State.releaseNever,
    ↓modStripe_held, ↓occDrop_held]

theorem journalBands_held (s : State) : held (State.journalBands s) = held s := by
  simp only [State.journalBands, ↓held_ite, ite_self,
    ↓modFtl_held, ↓jputs_held]

theorem showStripes_held (s : State) : held (State.showStripes s) = held s := by
  simp only [State.showStripes,
    ↓wr_held]

theorem commitUnit_held (s : State) (x1 : AUnit) : held (State.commitUnit s x1) = held s := by
  simp only [State.commitUnit, ↓held_ite, ite_self,
    ↓pend_held, ↓mapWrite_held, ↓modFtl_held,
    ↓jputs_held, ↓modPath_held]

theorem retireBlock_held (s : State) (x1 : Nat × Nat × Nat) : held (State.retireBlock s x1) = held s := by
  simp only [State.retireBlock,
    ↓tally_held, ↓setBlk_held]

theorem countUser_held (s : State) (x1 : Nat) : held (State.countUser s x1) = held s := by
  simp only [State.countUser,
    ↓modPath_held, ↓moved_held, ↓tally_held]

theorem finish_held (s : State) (x1 : WCmd) : held (State.finish s x1) = held s := by
  simp only [State.finish,
    ↓showWt_held]
  repeat' split
  all_goals try simp only [
    ↓modPath_held, ↓mapWrite_held,
    ↓countUser_held, ↓complete_held]

theorem finishAll_held (s : State) : held (State.finishAll s) = held s := by
  simp only [State.finishAll,
    ↓held_foldl, implies_true, ↓finish_held]

theorem programOk_held (s : State) (x1 : Nat) (x2 : Nat) (x3 : Nat) : held (State.programOk s x1 x2 x3) = held s := by
  simp only [State.programOk]
  repeat' split
  all_goals try simp only [
    ↓modStripe_held]

theorem adoptRelocated_held (s : State) (x1 : Stripe) : held (State.adoptRelocated s x1) = held s := by
  unfold State.adoptRelocated
  repeat' first
    | simp only [↓held_ite, ite_self,
        ↓modFtl_held, ↓mapMove_held, ↓jput_held]
    | intro _
    | split
    | refine (held_foldl _ ?_ _ _).trans ?_
    | refine (held_foldl_fst _ ?_ _ _).trans ?_
    | refine (held_foldl_snd _ ?_ _ _).trans ?_

theorem becomeDurable_held (s : State) (x1 : Stripe) : held (State.becomeDurable s x1) = held s := by
  simp only [State.becomeDurable,
    ↓modStripe_held, ↓adoptRelocated_held,
    ↓occDrop_held, ↓jput_held]

theorem leaveWindow_held (s : State) (x1 : Nat) : held (State.leaveWindow s x1) = held s := by
  simp only [State.leaveWindow,
    ↓modStripe_held]

theorem releaseNevers_held (s : State) : held (State.releaseNevers s) = held s := by
  simp only [State.releaseNevers,
    ↓held_foldl, implies_true, ↓releaseNever_held]

theorem closeBandsOf_held (s : State) (x1 : Nat) : held (State.closeBandsOf s x1) = held s := by
  simp only [State.closeBandsOf,
    ↓held_foldl, implies_true, ↓stopBand_held]

theorem commitUnits_held (s : State) : held (State.commitUnits s) = held s := by
  simp only [State.commitUnits,
    ↓held_foldl, implies_true, ↓commitUnit_held]

theorem durablePass_held (x0 : Nat) (s : State) : held (State.durablePass x0 s) = held s := by
  induction x0 generalizing s with
  | zero => rfl
  | succ n ih =>
    rw [State.durablePass]
    split
    · rw [ih, becomeDurable_held]
    · rfl

theorem waitsAll_held (s : State) : held (State.waitsAll s) = held s := by
  simp only [State.waitsAll, ↓held_foldl,
    implies_true, ↓waitStep_held]

theorem settleStripes_held (s : State) : held (State.settleStripes s) = held s := by
  simp only [State.settleStripes,
    ↓raiseCeil_held, ↓finishAll_held,
    ↓journalBands_held, ↓cpRoot_held, ↓durablePass_held, ↓releaseNevers_held, ↓commitUnits_held, ↓metaSettle_held,
    ↓waitsAll_held]

theorem resend_held (s : State) (x1 : Nat) (x2 : Placed) : held (State.resend s x1 x2).1 = held s := by
  unfold State.resend
  repeat' split
  all_goals
    try have hh := assemble_held _ _ _ _ _ _ _ ‹State.assemble _ _ _ _ _ = some (_, _)›
    try simp only [
      ↓modFtl_held, ↓mapMove_held, ↓modHealth_held,
      ↓modPath_held, ↓leaveWindow_held] at *
  all_goals try simp_all only []

theorem resendAll_held (s : State) (x1 : Stripe) (x2 : List Nat) : held (State.resendAll s x1 x2).1 = held s := by
  unfold State.resendAll
  repeat' first
    | simp only [↓held_fst_ite, ite_self,
        ↓resend_held]
    | intro _
    | split
    | refine (held_foldl _ ?_ _ _).trans ?_
    | refine (held_foldl_fst _ ?_ _ _).trans ?_
    | refine (held_foldl_snd _ ?_ _ _).trans ?_

theorem programFail_held (s : State) (x1 : Nat) (x2 : Nat) (x3 : Nat) : held (State.programFail s x1 x2 x3) = held s :=
    by
  simp only [State.programFail]
  repeat' split
  all_goals try simp only [
    ↓resendAll_held, ↓raiseIf_held, ↓modStripe_held,
    ↓modFtl_held, ↓modHealth_held, ↓retireBlock_held, ↓stopBand_held, ↓stripeEvent_held, ↓tally_held]

theorem loseMembers_held (s : State) (x1 : Nat) (x2 : Option Nat) : held (State.loseMembers s x1 x2) = held s := by
  simp only [State.loseMembers,
    ↓held_foldl, implies_true, ↓stopBand_held, ↓programFail_held,
    ↓settleStripes_held, ↓showStripes_held]

theorem rebuildSettle_held (s : State) : held (State.rebuildSettle s) = held s := by
  simp only [State.rebuildSettle, ↓held_ite, ite_self,
    ↓modFtl_held, ↓stripeEvent_held,
    ↓wr_held, ↓raise_held]

theorem startRebuild_held (s : State) : held (State.startRebuild s) = held s := by
  simp only [State.startRebuild, ↓held_ite, ite_self,
    ↓showStripes_held, ↓rebuildSettle_held,
    ↓wr_held, ↓stripeEvent_held, ↓raise_held]

theorem checkRebuild_held (s : State) : held (State.checkRebuild s) = held s := by
  simp only [State.checkRebuild, ↓held_ite, ite_self,
    ↓showStripes_held, ↓rebuildSettle_held,
    ↓startRebuild_held]

theorem gcDecide_held (s : State) : held (State.gcDecide s) = held s := by
  simp only [State.gcDecide, ↓held_ite, ite_self,
    ↓modFtl_held, ↓wr_held, ↓raise_held]

theorem gcLook_held (s : State) : held (State.gcLook s) = held s := by
  simp only [State.gcLook, ↓held_ite, ite_self,
    ↓gcDecide_held]

theorem noteLost_held (s : State) (x1 : State) : held (State.noteLost s x1) = held s := by
  simp only [State.noteLost, ↓held_foldl,
    implies_true, ↓stripeEvent_held]

theorem memberFailed_held (s : State) (x1 : Nat) (x2 : Nat) (x3 : Nat) : held (State.memberFailed s x1 x2 x3) = held s
    := by
  simp only [State.memberFailed,
    ↓checkRebuild_held, ↓noteLost_held,
    ↓programFail_held]

theorem rebuildWrote_held (s : State) (x1 : Nat) : held (State.rebuildWrote s x1) = held s := by
  simp only [State.rebuildWrote,
    ↓modFtl_held]

theorem countRebuilt_held (s : State) (x1 : Nat) (x2 : Nat) : held (State.countRebuilt s x1 x2) = held s := by
  simp only [State.countRebuilt,
    ↓modHealth_held, ↓bump_held, ↓raise_held]

theorem retireLive_held (s : State) (x1 : Nat × Nat × Nat) : held (State.retireLive s x1) = held s := by
  simp only [State.retireLive, ↓held_ite, ite_self,
    ↓retireBlock_held, ↓noteLost_held,
    ↓showStripes_held, ↓startRebuild_held]

theorem countUnreadable_held (s : State) (x1 : Stripe) (x2 : Nat) (x3 : Nat) (x4 : Nat) (x5 : Nat) : held
    (State.countUnreadable s x1 x2 x3 x4 x5) = held s := by
  simp only [State.countUnreadable,
    ↓stripeEvent_held, ↓modHealth_held,
    ↓raise_held]

theorem suspect_held (s : State) (x1 : Nat × Nat × Nat) (x2 : Nat) : held (State.suspect s x1 x2) = held s := by
  simp only [State.suspect, ↓held_ite, ite_self,
    ↓retireLive_held, ↓setBlk_held]

theorem readAt_held (s : State) (x1 : Verdict) (x2 : Nat) (x3 : Nat) (x4 : Placed) : held (State.readAt s x1 x2 x3
    x4).1 = held s := by
  simp only [State.readAt, ↓held_fst_ite,

    ↓readCopy_held]
  repeat' split
  all_goals try simp only [
    ↓authFail_held, ↓countUnreadable_held,
    ↓countRebuilt_held, ↓tally_held, ↓suspect_held]

theorem membersLost_held (s : State) (x1 : Nat) (x2 : Option Nat) (x3 : State) : held (State.membersLost s x1 x2 x3) =
    held s := by
  simp only [State.membersLost,
    ↓checkRebuild_held, ↓noteLost_held,
    ↓loseMembers_held]

theorem aerReport_held (s : State) (x1 : Nat) (x2 : Nat) : held (State.aerReport s x1 x2) = held s := by
  simp only [State.aerReport,
    ↓modPcie_held, ↓raise_held]

theorem finishRead_held (s : State) (x1 : Sqe) (x2 : Ns) (x3 : Bool) (x4 : List RdSector) : held (State.finishRead s x1
    x2 x3 x4) = held s := by
  simp only [State.finishRead]
  repeat' split
  all_goals try simp only [
    ↓fail_held, ↓modPath_held, ↓note_held, ↓tally_held,
    ↓complete_held]

theorem giveRead_held (s : State) (x1 : Sqe) (x2 : Ns) (x3 : Bool) (x4 : List RdSector) : held (State.giveRead s x1 x2
    x3 x4) = held s := by
  simp only [State.giveRead, ↓held_ite, ite_self,
    ↓modPath_held, ↓finishRead_held, ↓readCharge_held]

theorem readReturn_held (s : State) (x1 : Nat) (x2 : Nat) (x3 : Nat) : held (State.readReturn s x1 x2 x3) = held s := by
  simp only [State.readReturn]
  repeat' split
  all_goals try simp only [
    ↓fail_held, ↓modPath_held, ↓giveRead_held]

theorem modTrim_held (s : State) (x1 : Nat) (x2 : TrimCmd → TrimCmd) : held (State.modTrim s x1 x2) = held s := by
  simp only [State.modTrim,
    ↓modPath_held]

theorem showFineWait_held (s : State) : held (State.showFineWait s) = held s := by
  simp only [State.showFineWait,
    ↓wr_held]

theorem shredStart_held (s : State) (x1 : TrimCmd) : held (State.shredStart s x1) = held s := by
  simp only [State.shredStart, ↓held_ite, ite_self,
    ↓held_foldl, implies_true, ↓stopBand_held, ↓modFtl_held,
    ↓succeed_held]

theorem modTakes_held (s : State) (x1 : Takes → Takes) : held (State.modTakes s x1) = held s := by
  simp only [State.modTakes, held_mk, held_fold]

theorem dirTouch_held (s : State) : held (State.dirTouch s) = held s := by
  simp only [State.dirTouch,
    ↓modTakes_held]

theorem dirChange_held (s : State) : held (State.dirChange s) = held s := by
  simp only [State.dirChange,
    ↓putMeta_held, ↓modFtl_held,
    ↓dirTouch_held]

theorem takeGone_held (s : State) (x1 : Sqe) : held (State.takeGone s x1) = held s := by
  simp only [State.takeGone]
  repeat' split
  all_goals try simp only [
    ↓fail_held, ↓tally_held, ↓succeed_held,
    ↓modTakes_held, ↓dirChange_held]

theorem trimNow_held (s : State) (x1 : TrimCmd) : held (State.trimNow s x1) = held s := by
  unfold State.trimNow
  dsimp only
  split
  · rfl
  · rename_i s1 h1
    have h2 := held_foldl_opt _ (fun _ => rfl) (fun t x u e => trim_held t _ _ _ u e) _ _ _ h1
    simp only [↓held_ite, ↓complete_held, ↓shredStart_held, ↓takeGone_held, ↓showFineWait_held,
      ↓modPath_held, h2, ite_self]

theorem trimGo_held (s : State) (x1 : TrimCmd) : held (State.trimGo s x1) = held s := by
  simp only [State.trimGo, ↓held_ite, ite_self,
    ↓showFineWait_held, ↓modTrim_held, ↓trimNow_held,
    ↓modFtl_held, ↓raise_held]

theorem writeGo_held (s : State) (x1 : WCmd) : held (State.writeGo s x1) = held s := by
  simp only [State.writeGo, ↓held_ite, ite_self,
    ↓askChunk_held, ↓showFineWait_held, ↓modFtl_held,
    ↓raise_held, ↓modW_held]

theorem progress_held (s : State) : held (State.progress s) = held s := by
  unfold State.progress
  repeat' first
    | simp only [
        ↓writeGo_held, ↓trimGo_held]
    | intro _
    | split
    | refine (held_foldl _ ?_ _ _).trans ?_
    | refine (held_foldl_fst _ ?_ _ _).trans ?_
    | refine (held_foldl_snd _ ?_ _ _).trans ?_

theorem fineProceed_held (s : State) : held (State.fineProceed s) = held s := by
  simp only [State.fineProceed]
  repeat' split
  all_goals try simp only [
    ↓showFineWait_held, ↓modTrim_held, ↓trimNow_held,
    ↓modW_held, ↓progress_held, ↓askChunk_held]

theorem ingressSub_held (s : State) (x1 : Nat) (x2 : Nat) : held (State.ingressSub s x1 x2) = held s := by
  simp only [State.ingressSub,
    ↓modWin_held]

theorem dropWrite_held (s : State) (x1 : WCmd) (x2 : Bool) : held (State.dropWrite s x1 x2) = held s := by
  simp only [State.dropWrite, ↓held_ite, ite_self,
    ↓ingressSub_held,
    ↓showWt_held, ↓showFineWait_held, ↓modFtl_held, ↓modPath_held, ↓withdraw_held, ↓occDrop_held, ↓modW_held]
  repeat' split
  all_goals try simp only [
    ↓ingressSub_held, ↓unclaimInv_held,
    ↓modPath_held, ↓withdraw_held, ↓occDrop_held]

theorem failWrite_held (s : State) (x1 : WCmd) (x2 : Status) : held (State.failWrite s x1 x2) = held s := by
  simp only [State.failWrite,

    ↓progress_held]
  repeat' split
  all_goals try simp only [
    ↓dropWrite_held, ↓fail_held, ↓modPath_held
    ]

theorem queueTrim_held (s : State) (x1 : Nat) (x2 : Sqe) (x3 : Nat) (x4 : List (Nat × Nat)) : held (State.queueTrim s
    x1 x2 x3 x4) = held s := by
  simp only [State.queueTrim,
    ↓modPath_held, ↓trimGo_held]

theorem moveSlot_held (s : State) (x1 : Stripe) (x2 : CoarseSlot) : held (State.moveSlot s x1 x2) = held s := by
  unfold State.moveSlot
  repeat' first
    | simp only [↓held_ite,
        ↓modFtl_held, ↓modPath_held, ↓leaveWindow_held]
    | intro _
    | split
    | refine (held_foldl _ ?_ _ _).trans ?_
    | refine (held_foldl_fst _ ?_ _ _).trans ?_
    | refine (held_foldl_snd _ ?_ _ _).trans ?_
  all_goals
    try have hh := assemble_held _ _ _ _ _ _ _ ‹State.assemble _ _ _ _ _ = some (_, _)›
    try simp only [id_eq, held_mk, held_fold, ↓held_ite, ↓held_fst_ite, ↓held_snd_ite, ite_self, ↓held_foldl,
      ↓held_foldl_fst, ↓held_foldl_snd, ↓held_foldr, implies_true, ↓modFtl_held, ↓modPath_held, ↓leaveWindow_held] at *
  all_goals try simp_all only []

theorem coarseMoves_held (s : State) : held (State.coarseMoves s) = held s := by
  simp only [State.coarseMoves,
    ↓held_foldl, implies_true, ↓modStripe_held, ↓moveSlot_held]

theorem settle_held (s : State) : held (State.settle s) = held s := by
  simp only [State.settle,
    ↓progress_held, ↓rebuildSettle_held,
    ↓showStripes_held, ↓gcLook_held, ↓coarseMoves_held, ↓settleStripes_held]

theorem addTrim_held (s : State) (x1 : Nat) (x2 : Sqe) (x3 : List (Nat × Nat)) : held (State.addTrim s x1 x2 x3) = held
    s := by
  simp only [State.addTrim,
    ↓settle_held, ↓queueTrim_held]

theorem fetched_held (s : State) (x1 : Sqe) : held (State.fetched s x1) = held s := by
  simp only [State.fetched, held_mk, held_fold, ↓held_ite, ite_self]

theorem dealloc_held (s : State) (x1 : Nat) (x2 : Sqe) (x3 : List (Nat × Nat)) : held (State.dealloc s x1 x2 x3) = held
    s := by
  simp only [State.dealloc]
  repeat' split
  all_goals try simp only [
    ↓fail_held, ↓fetched_held, ↓addTrim_held]

theorem datasetMgmt_held (s : State) (x1 : Sqe) : held (State.datasetMgmt s x1) = held s := by
  simp only [State.datasetMgmt,
    ↓dealloc_held]

theorem acceptCopy_held (s : State) (x1 : WCmd) : held (State.acceptCopy s x1) = held s := by
  unfold State.acceptCopy
  split
  · rfl
  · split
    · rfl
    · rename_i s0 h0
      have e : held s0 = held s := by
        split at h0
        · split at h0
          · cases h0; rfl
          · exact stageCopy_held _ _ _ h0
        · cases h0; rfl
      simp only [↓settle_held, ↓modW_held, ↓modStripe_held, e]

theorem noAbort_held (s : State) (x1 : Sqe) : held (State.noAbort s x1) = held s := by
  simp only [State.noAbort, held_mk, held_fold]

theorem hedge_held (s : State) (x1 : Nat) (x2 : Nat) (x3 : Bool) : held (State.hedge s x1 x2 x3) = held s := by
  simp only [State.hedge]
  repeat' split
  all_goals try simp only [
    ↓modPath_held, ↓countRebuilt_held, ↓readReturn_held]

theorem execReadHedgeTimeout_held (x0 : Nat) (x1 : Nat) (x2 : Bool) (s : State) : ∀ t,
    execReadHedgeTimeout x0 x1 x2 s = .next t → held t = held s := by
  intro t h
  unfold execReadHedgeTimeout at h
  replace h := next_inj h
  subst h
  simp only [↓held_ite, ite_self,
    ↓hedge_held]

theorem shred_held (s : State) (x1 : Sqe) : held (State.shred s x1) = held s := by
  simp only [State.shred]
  repeat' split
  all_goals try simp only [
    ↓fail_held, ↓dealloc_held, ↓fetched_held]

theorem addWrite_held (s : State) (x1 : WCmd) : held (State.addWrite s x1) = held s := by
  simp only [State.addWrite,
    ↓modPath_held, ↓writeGo_held]

theorem lateEnd_held (s : State) (x1 : Nat) (x2 : Nat) (x3 : Bool) (x4 : Bool) : held (State.lateEnd s x1 x2 x3 x4) =
    held s := by
  simp only [State.lateEnd]
  repeat' split
  all_goals try simp only [
    ↓readReturn_held, ↓readAt_held]

theorem unitAdd_held (s : State) (x1 : WCmd) (x2 : Nat) (x3 : Nat) (x4 : Nat) (x5 : Nat) : held (State.unitAdd s x1 x2
    x3 x4 x5) = held s := by
  simp only [State.unitAdd]
  repeat' split
  all_goals try simp only [
    ↓modFtl_held]

theorem placeSector_held (s : State) (x1 : WCmd) (x2 : Nat) (x3 : Placed) : ∀ t,
    State.placeSector s x1 x2 x3 = some t → held t = held s := by
  intro t h
  unfold State.placeSector at h
  dsimp only at h
  refine held_map h fun a ha => ?_
  simp only [↓settle_held, ↓unitAdd_held, ↓modW_held]
  rw [assemble_held _ _ _ _ _ _ a.2 (show _ = some (a.1, a.2) from ha), fillBands_held]

theorem unstick_held (s : State) (x1 : Nat) (x2 : Nat × Nat × Placed) : held (State.unstick s x1 x2) = held s := by
  unfold State.unstick
  dsimp only
  split
  · exact modPath_held _ _
  · exact held_getD (fun t ht => (placeSector_held _ _ _ _ _ ht).trans (modPath_held _ _)) rfl

theorem encryptNext_held (s : State) (x1 : Nat) (x2 : WCmd) (x3 : Nat) (x4 : Option Bool) : held (State.encryptNext s
    x1 x2 x3 x4) = held s := by
  unfold State.encryptNext
  split
  · exact unstick_held _ _ _
  dsimp only
  split
  · split
    · rfl
    · split
      · exact failWrite_held _ _ _
      · rename_i s1 h1
        have e1 : held s1 = held s := by
          split at h1
          · cases h1; rfl
          · rw [Option.map_eq_some_iff] at h1
            obtain ⟨t, ht, rfl⟩ := h1
            rw [modW_held, claimInv_held _ _ _ _ ht]
        split
        · rw [laneKat_held, laneFault_held, e1]
        · split
          · rw [failWrite_held, wr_held, e1]
          · split
            · exact e1
            · split
              · rw [raiseCeil_held, e1]
              · rename_i q s2 h2
                have e2 : held s2 = held s := (takeSeq_held _ _ _ h2).trans e1
                split
                · simp only [↓modPath_held, ↓raiseCeil_held, ↓ingressSub_held, ↓laneUse_held,
                    ↓countEncrypt_held, ↓modW_held, e2]
                · rename_i s4 h4
                  rw [placeSector_held _ _ _ _ _ h4]
                  simp only [↓raiseCeil_held, ↓ingressSub_held, ↓laneUse_held, ↓countEncrypt_held,
                    ↓modW_held, e2]
  · rfl

theorem readSector_held (s : State) (x1 : Verdict) (x2 : Ns) (x3 : Nat) (x4 : ReadSrc) : held (State.readSector s x1 x2
    x3 x4).1 = held s := by
  simp only [State.readSector]
  repeat' split
  all_goals try simp only [
    ↓readAt_held]

theorem readSectors_held (s : State) (x1 : Verdict) (x2 : Ns) (x3 : Nat) (x4 : List ReadSrc) : held (State.readSectors
    s x1 x2 x3 x4).1 = held s := by
  induction x4 generalizing s x3 with
  | nil => rfl
  | cons x l ih =>
    rw [State.readSectors]
    dsimp only
    rw [ih, readSector_held]

theorem startRead_held (s : State) (x1 : Sqe) (x2 : Ns) (x3 : Verdict) (x4 : Bool) (x5 : List ReadSrc) : held
    (State.startRead s x1 x2 x3 x4 x5) = held s := by
  simp only [State.startRead, ↓held_ite, ite_self,
    ↓modPath_held, ↓giveRead_held,
    ↓readSectors_held]

theorem readGo_held (s : State) (x1 : RdCmd) : held (State.readGo s x1) = held s := by
  simp only [State.readGo]
  repeat' split
  all_goals try simp only [
    ↓fail_held, ↓modPath_held, ↓finishRead_held,
    ↓startRead_held, ↓readCharge_held]

theorem readsGo_held (s : State) : held (State.readsGo s) = held s := by
  simp only [State.readsGo, ↓held_foldl,
    implies_true, ↓readGo_held]

theorem readCmd_held (s : State) (x1 : Sqe) (x2 : Verdict) (x3 : Bool) (x4 : Nat → ReadSrc) : held (State.readCmd s x1
    x2 x3 x4) = held s := by
  simp only [State.readCmd]
  repeat' split
  all_goals try simp only [
    ↓fail_held, ↓modPath_held, ↓startRead_held,
    ↓fetched_held]

theorem flushCmd_held (s : State) (x1 : Sqe) : held (State.flushCmd s x1) = held s := by
  simp only [State.flushCmd]
  repeat' split
  all_goals try simp only [
    ↓fail_held, ↓modPath_held, ↓fetched_held, ↓settle_held]

theorem execFlush_held (x0 : Sqe) (s : State) : ∀ t, execFlush x0 s = .next t → held t = held s := by
  intro t h
  unfold execFlush at h
  replace h := next_inj h
  subst h
  simp only [↓held_ite, ite_self,
    ↓flushCmd_held]

theorem writeCmd_held (s : State) (x1 : Sqe) : held (State.writeCmd s x1) = held s := by
  simp only [State.writeCmd]
  repeat' split
  all_goals try simp only [
    ↓addWrite_held, ↓fail_held, ↓fetched_held]

theorem ingressAdd_held (s : State) (x1 : Nat) (x2 : Nat) : held (State.ingressAdd s x1 x2) = held s := by
  simp only [State.ingressAdd,
    ↓modWin_held]

theorem execWrite_held (x0 : Sqe) (s : State) : ∀ t, execWrite x0 s = .next t → held t = held s := by
  intro t h
  unfold execWrite at h
  replace h := next_inj h
  subst h
  simp only [↓held_ite, ite_self,
    ↓writeCmd_held]

theorem adminOr_held (s : State) (x1 : Sqe) (x2 : AdminKind) (no : State → Status → State) (f : State → State) (hn : ∀
    t st, held (no t st) = held t) (h : ∀ t, held (f t) = held t) : held (s.adminOr x1 x2 no f) = held s := by
  unfold State.adminOr
  dsimp only
  split
  · rfl
  · have e : held (if x1.mi = true then s else s.fetched x1) = held s := by
      simp only [↓held_ite, ↓fetched_held, ite_self]
    split
    · rw [hn, e]
    · rw [h, e]

theorem admin_held (s : State) (x1 : Sqe) (x2 : AdminKind) (f : State → State) (h : ∀ t,
    held (f t) = held t) : held (s.admin x1 x2 f) = held s := by
  exact adminOr_held _ _ _ _ _ (fun t _ => fail_held t _ _) h

theorem arriveWrite_held (s : State) (x1 : WCmd) (x2 : Nat) (x3 : List Byte) (x4 : List Byte) (x5 : Nat) : held
    (State.arriveWrite s x1 x2 x3 x4 x5) = held s := by
  simp only [State.arriveWrite]
  repeat' split
  all_goals try simp only [
    ↓aerReport_held, ↓ingressAdd_held, ↓failWrite_held,
    ↓modW_held]

end Sys2Proof.Laws
end

