-- ==== Sys2Proof/Laws/HeldTakes.lean ====
section
/-!
SUPPORT. Laws/HeldTakes.lean: what `held` covers, through the operations of
takes, DMA, Mantle and energy.
-/
namespace Sys2Proof.Laws
open Sys2Proof.Machine

theorem dropFrame_held (s : State) (x1 : InFlight) : held (State.dropFrame s x1) = held s := by
  simp only [State.dropFrame,
    ↓modTakes_held]

theorem modTake_held (s : State) (x1 : Nat) (x2 : Take → Take) : held (State.modTake s x1 x2) = held s := by
  simp only [State.modTake,
    ↓modTakes_held]

theorem takeState_held (s : State) (x1 : Nat) (x2 : Nat) : held (State.takeState s x1 x2) = held s := by
  simp only [State.takeState]
  repeat' split
  all_goals try simp only [
    ↓modTake_held, ↓dirChange_held, ↓raiseAll_held]

theorem endSegments_held (s : State) (x1 : InFlight) (x2 : Status) : held (State.endSegments s x1 x2) = held s := by
  unfold State.endSegments
  repeat' first
    | simp only [↓held_ite, ite_self,
        ↓dropWrite_held, ↓fail_held]
    | intro _
    | split
    | refine (held_foldl _ ?_ _ _).trans ?_
    | refine (held_foldl_fst _ ?_ _ _).trans ?_
    | refine (held_foldl_snd _ ?_ _ _).trans ?_

theorem modClip_held (s : State) (x1 : Nat) (x2 : Nat) (x3 : Clip → Clip) : held (State.modClip s x1 x2 x3) = held s :=
    by
  simp only [State.modClip,
    ↓modTake_held]

theorem dmaOutcome_held (s : State) (x1 : Nat) (x2 : Nat) (x3 : StatusRec) : held (State.dmaOutcome s x1 x2 x3) = held
    s := by
  simp only [State.dmaOutcome,
    ↓modTakes_held]

theorem pullRefused_held (s : State) (x1 : InFlight) (x2 : Status) : held (State.pullRefused s x1 x2) = held s := by
  simp only [State.pullRefused]
  repeat' split
  all_goals try simp only [
    ↓dmaOutcome_held]

theorem takeTrim_held (s : State) (x1 : List Nat) : held (State.takeTrim s x1) = held s := by
  simp only [State.takeTrim, ↓held_ite, ite_self,
    ↓queueTrim_held]

theorem takeWrite_held (s : State) (x1 : Nat) (x2 : Nat) (x3 : Nat) (x4 : List Nat) (x5 : List (List Byte)) (x6 :
    Option Bool) (x7 : Bool) : held (State.takeWrite s x1 x2 x3 x4 x5 x6 x7) = held s := by
  simp only [State.takeWrite]
  repeat' split
  all_goals try simp only [
    ↓addWrite_held]

theorem abandon_held (s : State) (x1 : InFlight) (x2 : Status) : held (State.abandon s x1 x2) = held s := by
  simp only [State.abandon]
  repeat' split
  all_goals try simp only [
    ↓modClip_held, ↓dirTouch_held, ↓takeWrite_held,
    ↓takeTrim_held, ↓dropFrame_held, ↓endSegments_held, ↓pullRefused_held]

theorem unrecordOne_held (s : State) (x1 : Nat) (x2 : Nat) (x3 : ClipRec) : held (State.unrecordOne s x1 x2 x3) = held
    s := by
  simp only [State.unrecordOne]
  repeat' split
  all_goals try simp only [
    ↓modClip_held, ↓dirTouch_held, ↓takeTrim_held,
    ↓dropFrame_held, ↓abandon_held, ↓endSegments_held, ↓pullRefused_held]

theorem unrecord_held (s : State) (x1 : Nat) (x2 : Nat) (x3 : Nat) : held (State.unrecord s x1 x2 x3) = held s := by
  simp only [State.unrecord]
  repeat' split
  all_goals try simp only [↓held_foldl,
    implies_true, ↓unrecordOne_held]

theorem closeTake_held (s : State) (x1 : Nat) (x2 : Nat) (x3 : Nat) : held (State.closeTake s x1 x2 x3) = held s := by
  simp only [State.closeTake]
  repeat' split
  all_goals try simp only [↓held_foldl,
    implies_true, ↓modTake_held, ↓takeState_held, ↓unrecord_held]

theorem frameWhole_held (s : State) (x1 : InFlight) : held (State.frameWhole s x1) = held s := by
  simp only [State.frameWhole]
  repeat' split
  all_goals try simp only [
    ↓modClip_held, ↓dmaOutcome_held, ↓dropFrame_held,
    ↓complete_held]

theorem modFrames_held (s : State) (x1 : InFlight → InFlight) : held (State.modFrames s x1) = held s := by
  simp only [State.modFrames,
    ↓modTakes_held]

theorem frameSettle_held (s : State) (x1 : InFlight) : held (State.frameSettle s x1) = held s := by
  simp only [State.frameSettle, ↓held_ite,
    ↓frameWhole_held]
  repeat' split
  all_goals try simp only [
    ↓modFrames_held, ↓takeWrite_held]

theorem framesSettle_held (s : State) : held (State.framesSettle s) = held s := by
  unfold State.framesSettle
  repeat' first
    | simp only [
        ↓frameSettle_held]
    | intro _
    | split
    | refine (held_foldl _ ?_ _ _).trans ?_
    | refine (held_foldl_fst _ ?_ _ _).trans ?_
    | refine (held_foldl_snd _ ?_ _ _).trans ?_

theorem fullClear_held (s : State) : held (State.fullClear s) = held s := by
  simp only [State.fullClear, ↓held_ite, ite_self,
    ↓wr_held]

theorem takeDone_held (s : State) (x1 : WCmd) : held (State.takeDone s x1) = held s := by
  simp only [State.takeDone]
  repeat' split
  all_goals try simp only [
    ↓modFrames_held, ↓frameSettle_held, ↓complete_held]

theorem setDma_held (s : State) (x1 : Nat) (x2 : Option Dma) : held (State.setDma s x1 x2) = held s := by
  simp only [State.setDma,
    ↓modTakes_held]

theorem openFailed_held (s : State) (x1 : Take) (x2 : Sqe) (x3 : Status) : held (State.openFailed s x1 x2 x3) = held s
    := by
  simp only [State.openFailed,
    ↓held_foldl, implies_true, ↓setDma_held, ↓fail_held, ↓setReg_held,
    ↓takeTrim_held, ↓dropFrame_held, ↓endSegments_held, ↓modTakes_held, ↓dirChange_held, ↓raiseAll_held]

theorem takeFailed_held (s : State) (x1 : WCmd × Status) : held (State.takeFailed s x1) = held s := by
  simp only [State.takeFailed]
  repeat' split
  all_goals try simp only [
    ↓openFailed_held, ↓fail_held, ↓abandon_held]

theorem writeHeader_held (s : State) (x1 : Nat) (x2 : Nat) (x3 : Nat) : held (State.writeHeader s x1 x2 x3) = held s :=
    by
  simp only [State.writeHeader]
  repeat' split
  all_goals try simp only [
    ↓takeWrite_held]

theorem writeHeaders_held (s : State) (x1 : Nat) (x2 : Nat) : held (State.writeHeaders s x1 x2) = held s := by
  simp only [State.writeHeaders]
  repeat' split
  all_goals try simp only [↓held_foldl,
    implies_true, ↓writeHeader_held]

theorem closed_held (s : State) (x1 : Take) : held (State.closed s x1) = held s := by
  simp only [State.closed, ↓held_foldl,
    implies_true, ↓setDma_held, ↓modTake_held, ↓setReg_held,
    ↓takeState_held, ↓complete_held, ↓writeHeaders_held]

theorem clipGrow_held (s : State) (x1 : Nat) (x2 : Nat) (x3 : Nat) (x4 : Bool) : ∀ t y,
    State.clipGrow s x1 x2 x3 x4 = some (t, y) → held t = held s := by
  intro t y h
  unfold State.clipGrow at h
  repeat' first
    | split at h
    | dsimp only at h
  all_goals try simp only [Option.some.injEq, Prod.mk.injEq, reduceCtorEq] at h
  all_goals first
    | contradiction
    | obtain ⟨rfl, rfl⟩ := h
    | subst h
    | skip
  all_goals try simp only [
    ↓modClip_held] at *

theorem lastSeg_held (s : State) (x1 : Nat) (x2 : Nat) (x3 : Clip) : held (State.lastSeg s x1 x2 x3) = held s := by
  unfold State.lastSeg
  dsimp only
  split
  · rename_i h
    exact (modClip_held _ _ _ _).trans (clipGrow_held _ _ _ _ _ _ _ h)
  · rfl

theorem placeMissing_held (s : State) (x1 : Nat) (x2 : Nat) : held (State.placeMissing s x1 x2) = held s := by
  unfold State.placeMissing
  split
  · rfl
  · refine held_foldl _ (fun t k => ?_) _ _
    split
    · dsimp only
      split
      · rfl
      · split
        · rename_i h
          exact (modClip_held _ _ _ _).trans (clipGrow_held _ _ _ _ _ _ _ h)
        · rfl
    · rfl

theorem discardRecs_held (s : State) (x1 : Nat) (x2 : Nat) (x3 : List ClipRec) : held (State.discardRecs s x1 x2 x3) =
    held s := by
  unfold State.discardRecs
  repeat' first
    | simp only [↓held_ite, ite_self,
        ↓modClip_held, ↓dirTouch_held, ↓tally_held,
        ↓takeTrim_held, ↓dropFrame_held, ↓endSegments_held, ↓modTakes_held, ↓pullRefused_held]
    | intro _
    | split
    | refine (held_foldl _ ?_ _ _).trans ?_
    | refine (held_foldl_fst _ ?_ _ _).trans ?_
    | refine (held_foldl_snd _ ?_ _ _).trans ?_

theorem sealRing_held (s : State) (x1 : Nat) (x2 : Nat) (x3 : Clip) : held (State.sealRing s x1 x2 x3) = held s := by
  simp only [State.sealRing, ↓held_ite, ite_self,
    ↓modClip_held, ↓discardRecs_held]

theorem sendSegs_held (s : State) (x1 : Nat) (x2 : Nat) : held (State.sendSegs s x1 x2) = held s := by
  unfold State.sendSegs
  repeat' first
    | simp only [↓held_ite, ite_self,
        ↓modClip_held, ↓takeWrite_held]
    | intro _
    | split
    | refine (held_foldl _ ?_ _ _).trans ?_
    | refine (held_foldl_fst _ ?_ _ _).trans ?_
    | refine (held_foldl_snd _ ?_ _ _).trans ?_

theorem sealClip_held (s : State) (x1 : Nat) (x2 : Nat) : held (State.sealClip s x1 x2) = held s := by
  unfold State.sealClip
  dsimp only
  split
  · rfl
  · split
    · rfl
    · split
      · rw [placeMissing_held, sealRing_held]
      · split
        · rw [lastSeg_held, placeMissing_held, sealRing_held]
        · rename_i s2 tab h2
          have e2 := clipGrow_held _ _ _ _ _ _ _ h2
          rw [lastSeg_held, placeMissing_held, sealRing_held] at e2
          split
          · exact e2
          · rename_i s3 tr h3
            have e3 := clipGrow_held _ _ _ _ _ _ _ h3
            rw [e2] at e3
            repeat' split
            all_goals simp only [↓takeWrite_held, ↓sendSegs_held, ↓modClip_held, e3]

theorem takeStep_held (s : State) (x1 : Nat) : held (State.takeStep s x1) = held s := by
  simp only [State.takeStep]
  repeat' split
  all_goals try simp only [↓held_foldl,
    implies_true, ↓sealClip_held, ↓modTake_held, ↓sendSegs_held,
    ↓complete_held, ↓closed_held]

theorem takeSettle_held (s : State) : held (State.takeSettle s) = held s := by
  simp only [State.takeSettle,
    ↓held_foldl, implies_true, ↓modPath_held, ↓takeDone_held,
    ↓fullClear_held, ↓takeStep_held, ↓takeFailed_held, ↓framesSettle_held]

theorem settleAll_held (s : State) : held (State.settleAll s) = held s := by
  simp only [State.settleAll,
    ↓settle_held, ↓takeSettle_held]

theorem ringGrow_held (s : State) (x1 : Nat) (x2 : Nat) (x3 : Nat) : ∀ t y, State.ringGrow s x1 x2 x3 = some (t,
    y) → held t = held s := by
  intro t y h
  unfold State.ringGrow at h
  repeat' first
    | split at h
    | dsimp only at h
  all_goals try simp only [Option.some.injEq, Prod.mk.injEq, reduceCtorEq] at h
  all_goals first
    | contradiction
    | obtain ⟨rfl, rfl⟩ := h
    | subst h
    | skip
  all_goals try simp only [
    ↓modClip_held, ↓discardRecs_held] at *

theorem modDma_held (s : State) (x1 : Nat) (x2 : Dma → Dma) : held (State.modDma s x1 x2) = held s := by
  simp only [State.modDma]
  repeat' split
  all_goals try simp only [
    ↓setDma_held]

theorem takeFull_held (s : State) (x1 : Nat) : held (State.takeFull s x1) = held s := by
  simp only [State.takeFull, ↓held_ite, ite_self, ↓held_foldl,
    implies_true, ↓wr_held, ↓closeTake_held]

theorem addSegment_held (s : State) (x1 : InFlight) (x2 : WKind) (x3 : Nat) (x4 : Sqe) (x5 : Nat) (x6 : Nat) (x7 :
    Bool) (x8 : Bool) : held (State.addSegment s x1 x2 x3 x4 x5 x6 x7 x8) = held s := by
  simp only [State.addSegment]
  repeat' split
  all_goals try simp only [
    ↓modFrames_held, ↓addWrite_held]

theorem addRec_held (s : State) (x1 : Nat) (x2 : Nat) (x3 : ClipRec) : ∀ t y, State.addRec s x1 x2 x3 = some (t,
    y) → held t = held s := by
  intro t y h
  unfold State.addRec at h
  split at h
  · contradiction
  · dsimp only at h
    rw [apply_ite (· = some (t, y))] at h
    split at h
    · split at h
      · contradiction
      · rename_i hg
        rw [Option.map_eq_some_iff] at h
        obtain ⟨a, -, h⟩ := h
        cases h
        exact (modClip_held _ _ _ _).trans (ringGrow_held _ _ _ _ _ _ hg)
    · split at h
      · contradiction
      · rename_i hg
        rw [Option.map_eq_some_iff] at h
        obtain ⟨a, -, h⟩ := h
        cases h
        exact (modClip_held _ _ _ _).trans (clipGrow_held _ _ _ _ _ _ _ hg)

theorem moveFrame_held (s : State) (x1 : Nat) (x2 : Nat) (x3 : Nat) (x4 : List Nat) : held (State.moveFrame s x1 x2 x3
    x4) = held s := by
  simp only [State.moveFrame,
    ↓modPath_held, ↓modFrames_held]

theorem bubble_held (x0 : Nat) (x1 : Nat) (x2 : Nat) (x3 : ClipRec) (s : State) : held (State.bubble x0 x1 x2 x3 s).1 =
    held s := by
  induction x0 generalizing s x3 with
  | zero => rfl
  | succ n ih =>
    rw [State.bubble]
    dsimp only
    repeat' split
    all_goals first | rfl | rw [ih, moveFrame_held, modClip_held]

theorem fullCheck_held (s : State) (x1 : Nat) : held (State.fullCheck s x1) = held s := by
  simp only [State.fullCheck, ↓held_ite, ite_self,
    ↓takeFull_held]

theorem limitCheck_held (s : State) (x1 : Nat) (x2 : Nat) (x3 : Nat) : held (State.limitCheck s x1 x2 x3) = held s := by
  simp only [State.limitCheck]
  repeat' split
  all_goals try simp only [
    ↓modClip_held, ↓closeTake_held]

theorem placeSeg_held (s : State) (x1 : Nat) (x2 : Nat) (x3 : List ClipEvent) : held (State.placeSeg s x1 x2 x3) = held
    s := by
  unfold State.placeSeg
  dsimp only
  split
  · rename_i h
    exact (modClip_held _ _ _ _).trans (clipGrow_held _ _ _ _ _ _ _ h)
  · rw [takeFull_held, modClip_held]

theorem segDue_held (s : State) (x1 : Nat) (x2 : Nat) : held (State.segDue s x1 x2) = held s := by
  simp only [State.segDue]
  repeat' split
  all_goals try simp only [
    ↓placeSeg_held]

theorem beginFrame_held (s : State) (x1 : Nat) (x2 : Nat) (x3 : Nat) (x4 : Nat) (x5 : Nat) (x6 : Nat) (x7 : Nat) (x8 :
    Nat) (x9 : Nat) (x10 : Bool) (x11 : Option Nat) : ∀ t y,
    State.beginFrame s x1 x2 x3 x4 x5 x6 x7 x8 x9 x10 x11 = some (t, y) → held t = held s := by
  intro t y h
  unfold State.beginFrame at h
  repeat' (first | split at h | dsimp only at h)
  all_goals first | contradiction | skip
  all_goals simp only [Option.some.injEq, Prod.mk.injEq] at h
  all_goals obtain ⟨rfl, -⟩ := h
  all_goals rw [fullCheck_held, limitCheck_held, segDue_held, modTakes_held,
    bubble_held, dirTouch_held, addRec_held _ _ _ _ _ _ ‹State.addRec _ _ _ _ = some (_, _)›]

theorem countRefused_held (s : State) (x1 : Nat) : held (State.countRefused s x1) = held s := by
  simp only [State.countRefused]
  repeat' split
  all_goals try simp only [
    ↓modClip_held, ↓dirTouch_held]

theorem descOutcome_held (s : State) (x1 : Nat) (x2 : Nat) (x3 : DmaDesc) (x4 : Status) (x5 : Nat) : held
    (State.descOutcome s x1 x2 x3 x4 x5) = held s := by
  simp only [State.descOutcome,
    ↓dmaOutcome_held]

theorem acceptPull_held (s : State) (x1 : Nat) (x2 : Nat) (x3 : Nat) (x4 : DmaDesc) (x5 : Nat) : held (State.acceptPull
    s x1 x2 x3 x4 x5) = held s := by
  unfold State.acceptPull
  repeat' split
  all_goals
    try have hh := beginFrame_held _ _ _ _ _ _ _ _ _ _ _ _ _ _ ‹State.beginFrame _ _ _ _ _ _ _ _ _ _ _ _ = some (_, _)›
    try simp only [
      ↓countRefused_held, ↓descOutcome_held,
      ↓takeFull_held, ↓addSegment_held] at *
  all_goals try simp_all only []

theorem lastTrigger_held (s : State) (x1 : Nat) (x2 : Nat) (x3 : Nat) : held (State.lastTrigger s x1 x2 x3) = held s :=
    by
  simp only [State.lastTrigger,
    ↓wr_held, ↓wr64_held]

theorem plainRec_held (s : State) (x1 : Nat) (x2 : Nat) (x3 : Nat) (x4 : Nat) (x5 : List Nat) : held (State.plainRec s
    x1 x2 x3 x4 x5) = held s := by
  unfold State.plainRec
  repeat' first
    | simp only [
        ↓takeWrite_held, ↓fullCheck_held]
    | intro _
    | split
    | refine (held_foldl _ ?_ _ _).trans ?_
    | refine (held_foldl_fst _ ?_ _ _).trans ?_
    | refine (held_foldl_snd _ ?_ _ _).trans ?_
  all_goals
    try have hh := addRec_held _ _ _ _ _ _ ‹State.addRec _ _ _ _ = some (_, _)›
    try simp only [id_eq, held_mk, held_fold, ↓held_ite, ↓held_fst_ite, ↓held_snd_ite, ite_self, ↓held_foldl,
      ↓held_foldl_fst, ↓held_foldl_snd, ↓held_foldr, implies_true, ↓takeWrite_held, ↓fullCheck_held] at *
  all_goals try simp_all only []

theorem markTake_held (s : State) (x1 : Nat) (x2 : Nat) (x3 : Nat) : held (State.markTake s x1 x2 x3) = held s := by
  unfold State.markTake
  repeat' first
    | simp only [↓held_ite, ite_self,
        ↓modClip_held, ↓plainRec_held]
    | intro _
    | split
    | refine (held_foldl _ ?_ _ _).trans ?_
    | refine (held_foldl_fst _ ?_ _ _).trans ?_
    | refine (held_foldl_snd _ ?_ _ _).trans ?_

theorem pulse_held (s : State) (x1 : Nat) : held (State.pulse s x1) = held s := by
  simp only [State.pulse, held_mk, held_fold]

theorem acceptFirst_held (s : State) (x1 : Sqe) (x2 : Nat) : held (State.acceptFirst s x1 x2) = held s := by
  unfold State.acceptFirst
  repeat' first
    | simp only [↓held_ite, ite_self,
        ↓fail_held, ↓countRefused_held, ↓abandon_held,
        ↓takeFull_held, ↓addSegment_held]
    | intro _
    | split
    | refine (held_foldl _ ?_ _ _).trans ?_
    | refine (held_foldl_fst _ ?_ _ _).trans ?_
    | refine (held_foldl_snd _ ?_ _ _).trans ?_
  all_goals
    try have hh := beginFrame_held _ _ _ _ _ _ _ _ _ _ _ _ _ _ ‹State.beginFrame _ _ _ _ _ _ _ _ _ _ _ _ = some (_, _)›
    try simp only [id_eq, held_mk, held_fold, ↓held_ite, ↓held_fst_ite, ↓held_snd_ite, ite_self, ↓held_foldl,
      ↓held_foldl_fst, ↓held_foldl_snd, ↓held_foldr, implies_true, ↓fail_held, ↓countRefused_held, ↓abandon_held,
      ↓takeFull_held, ↓addSegment_held] at *
  all_goals try simp_all only []

theorem continueFrame_held (s : State) (x1 : Sqe) : held (State.continueFrame s x1) = held s := by
  simp only [State.continueFrame]
  repeat' split
  all_goals try simp only [
    ↓fail_held, ↓addSegment_held, ↓abandon_held]

theorem acceptReply_held (s : State) (x1 : Reply) : held (State.acceptReply s x1) = held s := by
  simp only [State.acceptReply]
  repeat' split
  all_goals try simp only [↓held_foldl,
    implies_true, ↓continueFrame_held, ↓acceptFirst_held,
    ↓acceptPull_held]

theorem placeKept_held (x0 : Nat) (x1 : Nat) (x2 : List (Nat × ClipEvent)) (x3 : Nat) (x4 : Nat) (s : State) : held
    (placeKept x0 x1 x2 x3 x4 s) = held s := by
  induction x3 generalizing s x4 with
  | zero => rfl
  | succ n ih => rw [placeKept, ih, placeSeg_held]

theorem ringToClip_held (s : State) (x1 : Nat) (x2 : Nat) (x3 : Nat) : held (State.ringToClip s x1 x2 x3) = held s := by
  simp only [State.ringToClip]
  repeat' split
  all_goals try simp only [
    ↓modClip_held, ↓discardRecs_held, ↓dirTouch_held,
    ↓placeKept_held]

theorem startArmed_held (s : State) (x1 : Take) (x2 : Nat) : held (State.startArmed s x1 x2) = held s := by
  simp only [State.startArmed, ↓held_ite, ite_self,
    ↓held_foldl, implies_true, ↓acceptReply_held, ↓ringToClip_held,
    ↓modTake_held, ↓takeState_held, ↓modTakes_held, ↓writeHeaders_held]

theorem startTake_held (s : State) (x1 : Nat) (x2 : Nat) : held (State.startTake s x1 x2) = held s := by
  simp only [State.startTake]
  repeat' split
  all_goals try simp only [
    ↓modTake_held, ↓startArmed_held, ↓markTake_held,
    ↓closeTake_held]

theorem applyTrigger_held (s : State) (x1 : Nat) (x2 : Nat) (x3 : Nat) (x4 : Nat) (x5 : Nat) (x6 : Bool) : held
    (State.applyTrigger s x1 x2 x3 x4 x5 x6) = held s := by
  simp only [State.applyTrigger]
  repeat' split
  all_goals try simp only [
    ↓startTake_held, ↓modTake_held, ↓lastTrigger_held,
    ↓markTake_held, ↓closeTake_held, ↓pulse_held]

theorem fireOne_held (s : State) (x1 : Nat) (x2 : Sched) : held (State.fireOne s x1 x2) = held s := by
  simp only [State.fireOne, ↓held_ite, ite_self,
    ↓modTake_held, ↓closeTake_held, ↓applyTrigger_held,
    ↓raise_held]

theorem chainRecord_held (s : State) (x1 : Nat) (x2 : Nat) (x3 : List Nat) : held (State.chainRecord s x1 x2 x3) = held
    s := by
  unfold State.chainRecord
  repeat' first
    | simp only [↓held_ite, ite_self,
        ↓modClip_held, ↓modTake_held, ↓dirTouch_held,
        ↓plainRec_held]
    | intro _
    | split
    | refine (held_foldl _ ?_ _ _).trans ?_
    | refine (held_foldl_fst _ ?_ _ _).trans ?_
    | refine (held_foldl_snd _ ?_ _ _).trans ?_

theorem fireDue_held (s : State) : held (State.fireDue s) = held s := by
  simp only [State.fireDue, ↓held_foldl,
    implies_true, ↓fireOne_held]

theorem steepleTrigger_held (s : State) (x1 : Take → Bool) (x2 : Nat) (x3 : Nat) (x4 : Bool) : held
    (State.steepleTrigger s x1 x2 x3 x4) = held s := by
  simp only [State.steepleTrigger, ↓held_ite, ite_self,
    ↓held_foldl, implies_true, ↓modTake_held, ↓wr_held,
    ↓applyTrigger_held]

theorem arriveFrame_held (s : State) (x1 : WCmd) (x2 : List Byte) : held (State.arriveFrame s x1 x2) = held s := by
  simp only [State.arriveFrame]
  repeat' split
  all_goals try simp only [
    ↓ingressAdd_held, ↓modClip_held, ↓modFrames_held,
    ↓modW_held]

theorem showChannels_held (s : State) : held (State.showChannels s) = held s := by
  simp only [State.showChannels,
    ↓held_foldl, implies_true, ↓wr_held]

theorem mainReset_held (s : State) : held (State.mainReset s) = held s := by
  simp only [State.mainReset, held_mk, held_fold,
    ↓showChannels_held, ↓tally_held]

theorem modBoard_held (s : State) (x1 : Board → Board) : held (State.modBoard s x1) = held s := by
  simp only [State.modBoard, held_mk, held_fold]

theorem rails0_held (s : State) : held (State.rails0 s) = held s := by
  simp only [State.rails0, ↓held_ite, ite_self,
    ↓mainReset_held, ↓modBoard_held]

theorem modBoot_held (s : State) (f : Boot → Boot) (h : ∀ b, (f b).otp = b.otp) : held (s.modBoot f) = held s := by
  simp only [State.modBoot, held, h]

theorem noteEnd_held (s : State) (x1 : Nat) : held (State.noteEnd s x1) = held s := by
  simp only [State.noteEnd, ↓held_ite, ite_self,
    implies_true, ↓modBoot_held]

theorem modThm_held (s : State) (x1 : Thm → Thm) : held (State.modThm s x1) = held s := by
  simp only [State.modThm, held_mk, held_fold]

theorem tripKilled_held (s : State) (x1 : Nat) : held (State.tripKilled s x1) = held s := by
  simp only [State.tripKilled]
  repeat' split
  all_goals try simp only [
    ↓modThm_held]

theorem kill_held (s : State) (x1 : Nat) : held (State.kill s x1) = held s := by
  simp only [State.kill, ↓held_ite, ite_self,
    ↓tripKilled_held, ↓tally_held, ↓rails0_held,
    ↓noteEnd_held]

theorem sealStripe_held (s : State) : ∀ t, State.sealStripe s = some t → held t = held s := by
  intro t h
  unfold State.sealStripe at h
  repeat' first
    | split at h
    | dsimp only at h
  all_goals try simp only [Option.some.injEq, reduceCtorEq] at h
  all_goals first
    | contradiction
    | obtain ⟨rfl, rfl⟩ := h
    | subst h
    | skip
  all_goals
    try have hh := beginStripe_held _ _ _ _ ‹State.beginStripe _ _ = some (_, _)›
    try have hh := bandWithRoom_held _ _ _ _ _ _ ‹State.bandWithRoom _ _ _ _ = some (_, _)›
    try simp only [
      ↓modStripe_held, ↓closeStripe_held] at *
  all_goals try simp_all only []

theorem sealAll_held (x0 : Nat) (s : State) : held (State.sealAll x0 s) = held s := by
  induction x0 generalizing s with
  | zero => rfl
  | succ n ih =>
    rw [State.sealAll]
    split
    · rfl
    · split
      · rename_i t h
        rw [ih, sealStripe_held _ _ h]
      · rfl

theorem modLife_held (s : State) (x1 : Life → Life) : held (State.modLife s x1) = held s := by
  simp only [State.modLife, held_mk, held_fold]

theorem modMaint_held (s : State) (x1 : Maint → Maint) : held (State.modMaint s x1) = held s := by
  simp only [State.modMaint, held_mk, held_fold]

theorem loadCounters_held (s : State) : held (State.loadCounters s) = held s := by
  simp only [State.loadCounters]
  repeat' split
  all_goals try simp only [
    ↓modLife_held, ↓modMaint_held]

theorem auxReset_held (s : State) : held (State.auxReset s) = held s := by
  have e : held ((s.mainReset.loadCounters).modBoot Boot.commitCut) = held s :=
    (modBoot_held _ _ (fun b => by unfold Boot.commitCut; split <;> rfl)).trans ((loadCounters_held _).trans
        (mainReset_held _))
  unfold State.auxReset
  dsimp only
  rw [setPhase_held, showChannels_held, tally_held, modLife_held]
  exact e

theorem warmReset_held (s : State) (x1 : Bool) : held (State.warmReset s x1) = held s := by
  simp only [State.warmReset, ↓held_ite, ite_self,
    implies_true, ↓modBoot_held, ↓mainReset_held,
    ↓setPhase_held, ↓tally_held, ↓noteEnd_held]

theorem flushEnd_held (s : State) : held (State.flushEnd s) = held s := by
  simp only [State.flushEnd, ↓held_ite, ite_self,
    ↓kill_held, ↓auxReset_held, ↓warmReset_held]

theorem flushStep_held (s : State) : held (State.flushStep s) = held s := by
  simp only [State.flushStep, ↓held_ite,
    ↓held_foldl, implies_true, ↓flushEnd_held,
    ↓closeStripe_held, ↓sealAll_held]
  repeat' split
  all_goals try simp only [↓held_foldl,
    implies_true, ↓flushEnd_held, ↓writePage_held, ↓modFtl_held,
    ↓closeStripe_held]

theorem setDmaState_held (s : State) (x1 : Nat) (x2 : Nat) : held (State.setDmaState s x1 x2) = held s := by
  simp only [State.setDmaState,
    ↓wr_held]

theorem dmaFault_held (s : State) (x1 : Nat) (x2 : Nat) : held (State.dmaFault s x1 x2) = held s := by
  simp only [State.dmaFault,
    ↓wr_held, ↓setDmaState_held, ↓raise_held]

theorem dmaSignal_held (s : State) (x1 : Nat) (x2 : Dma) : held (State.dmaSignal s x1 x2) = held s := by
  simp only [State.dmaSignal,
    ↓setDma_held, ↓msix_held]

theorem dmaOrder_held (x0 : Nat) (x1 : Nat) (s : State) : held (State.dmaOrder x0 x1 s) = held s := by
  induction x0 generalizing s with
  | zero => rfl
  | succ n ih =>
    rw [State.dmaOrder]
    split
    · rfl
    · split
      · rw [ih, setDma_held]
      · rfl

theorem dmaPump_held (s : State) (x1 : Nat) : held (State.dmaPump s x1) = held s := by
  simp only [State.dmaPump]
  repeat' split
  all_goals try simp only [
    ↓setDma_held, ↓dmaOrder_held, ↓wr_held, ↓modTakes_held]

theorem dmaPumpAll_held (s : State) : held (State.dmaPumpAll s) = held s := by
  simp only [State.dmaPumpAll,
    ↓held_foldl, implies_true, ↓dmaPump_held]

theorem dmaFeed_held (s : State) (x1 : InFlight) : held (State.dmaFeed s x1) = held s := by
  simp only [State.dmaFeed]
  repeat' split
  all_goals try simp only [
    ↓modFrames_held, ↓arriveFrame_held]

theorem dmaServe_held (x0 : Nat) (s : State) : held (State.dmaServe x0 s) = held s := by
  induction x0 generalizing s with
  | zero => rfl
  | succ n ih =>
    rw [State.dmaServe]
    repeat' split
    all_goals first | rfl | (dsimp only; split <;> first | rfl | rw [ih, dmaFeed_held])

theorem showDma_held (s : State) : held (State.showDma s) = held s := by
  simp only [State.showDma, ↓held_ite, ite_self, ↓held_foldl,
    implies_true, ↓setDmaState_held]

theorem settleDma_held (s : State) : held (State.settleDma s) = held s := by
  simp only [State.settleDma,
    ↓settleAll_held, ↓dmaServe_held,
    ↓dmaPumpAll_held, ↓flushStep_held, ↓showDma_held, ↓takeSettle_held]

theorem readback_held (s : State) (x1 : Nat) (x2 : Nat) (x3 : Bool) : held (State.readback s x1 x2 x3) = held s := by
  simp only [State.readback]
  repeat' split
  all_goals try simp only [
    ↓modClip_held, ↓setDma_held, ↓settleDma_held,
    ↓dmaFault_held, ↓dmaSignal_held, ↓wr_held]

theorem execDmaReadbackComplete_held (x0 : Fin 64) (x1 : Nat) (x2 : Bool) (s : State) : ∀ t,
    execDmaReadbackComplete x0 x1 x2 s = .next t → held t = held s := by
  intro t h
  unfold execDmaReadbackComplete at h
  replace h := next_inj h
  subst h
  simp only [↓held_ite, ite_self,
    ↓readback_held]

theorem dmaResume_held (s : State) (x1 : Nat) : held (State.dmaResume s x1) = held s := by
  simp only [State.dmaResume]
  repeat' split
  all_goals try simp only [
    ↓setDma_held, ↓settleDma_held, ↓setDmaState_held,
    ↓dmaFault_held, ↓wr_held]

theorem descriptor_held (s : State) (x1 : Nat) (x2 : List Byte) : held (State.descriptor s x1 x2) = held s := by
  simp only [State.descriptor]
  repeat' split
  all_goals try simp only [
    ↓setDma_held, ↓countRefused_held, ↓descOutcome_held,
    ↓modTakes_held, ↓acceptPull_held]

theorem arrivePull_held (s : State) (x1 : InFlight) (x2 : List Byte) : held (State.arrivePull s x1 x2) = held s := by
  simp only [State.arrivePull,
    ↓modFrames_held]

theorem hostData_held (s : State) (x1 : Nat) (x2 : Nat) (x3 : List Byte) (x4 : List Byte) (x5 : Nat) : held
    (State.hostData s x1 x2 x3 x4 x5) = held s := by
  simp only [State.hostData]
  repeat' split
  all_goals try simp only [
    ↓arriveWrite_held, ↓dmaFault_held, ↓arriveFrame_held,
    ↓aerReport_held, ↓arrivePull_held, ↓abandon_held]

theorem execTakDmaResume_held (x0 : Fin 8) (x1 : Fin 64) (x2 : Word) (s : State) : ∀ t,
    execTakDmaResume x0 x1 x2 s = .next t → held t = held s := by
  intro t h
  unfold execTakDmaResume at h
  replace h := next_inj h
  subst h
  simp only [↓held_ite, ite_self,
    ↓dmaResume_held]

theorem takesReset_held (s : State) (x1 : Nat) : held (State.takesReset s x1) = held s := by
  unfold State.takesReset
  repeat' first
    | simp only [↓held_ite, ite_self, ↓held_foldl,
        implies_true, ↓wr_held, ↓modTakes_held, ↓setDma_held,
        ↓dmaOrder_held, ↓descOutcome_held, ↓setDmaState_held, ↓modFrames_held, ↓abandon_held]
    | intro _
    | split
    | refine (held_foldl _ ?_ _ _).trans ?_
    | refine (held_foldl_fst _ ?_ _ _).trans ?_
    | refine (held_foldl_snd _ ?_ _ _).trans ?_

theorem execDmaMaxWaitExpiry_held (x0 : Fin 64) (s : State) : ∀ t,
    execDmaMaxWaitExpiry x0 s = .next t → held t = held s := by
  intro t h
  unfold execDmaMaxWaitExpiry at h
  replace h := next_inj h
  subst h
  simp only [↓held_ite, ite_self,
    ↓showDma_held]

theorem execDmaDescriptorArrival_held (x0 : Fin 64) (x1 : List Byte) (s : State) : ∀ t,
    execDmaDescriptorArrival x0 x1 s = .next t → held t = held s := by
  intro t h
  unfold execDmaDescriptorArrival at h
  replace h := next_inj h
  subst h
  simp only [↓held_ite, ite_self,
    ↓settleDma_held, ↓descriptor_held, ↓fireDue_held]

theorem coalesceTimer_held (s : State) (x1 : Nat) : held (State.coalesceTimer s x1) = held s := by
  simp only [State.coalesceTimer]
  repeat' split
  all_goals try simp only [
    ↓dmaSignal_held]

theorem piWrite_held (s : State) (x1 : Nat) (x2 : Nat) (x3 : Nat) (x4 : Option Nat) : held (State.piWrite s x1 x2 x3
    x4) = held s := by
  simp only [State.piWrite]
  repeat' split
  all_goals try simp only [
    ↓setDma_held, ↓dmaFault_held, ↓wr_held, ↓showDma_held]

theorem execDmaCoalesceTimer_held (x0 : Fin 64) (s : State) : ∀ t,
    execDmaCoalesceTimer x0 s = .next t → held t = held s := by
  intro t h
  unfold execDmaCoalesceTimer at h
  replace h := next_inj h
  subst h
  simp only [↓held_ite, ite_self,
    ↓coalesceTimer_held]

theorem execHostDataArrival_held (x0 : Nat) (x1 : Nat) (x2 : List Byte) (x3 : List Byte) (x4 : Fin 3) (s : State) : ∀
    t, execHostDataArrival x0 x1 x2 x3 x4 s = .next t → held t = held s := by
  intro t h
  unfold execHostDataArrival at h
  replace h := next_inj h
  subst h
  simp only [↓held_ite, ite_self,
    ↓hostData_held, ↓settleDma_held]

theorem execTakDmaPiWrite_held (x0 : Fin 8) (x1 : Fin 64) (x2 : Word) (x3 : Option Nat) (s : State) : ∀ t,
    execTakDmaPiWrite x0 x1 x2 x3 s = .next t → held t = held s := by
  intro t h
  unfold execTakDmaPiWrite at h
  replace h := next_inj h
  subst h
  simp only [↓held_ite, ite_self,
    ↓piWrite_held, ↓fireDue_held]

theorem modMnt_held (s : State) (x1 : Mnt → Mnt) : held (State.modMnt s x1) = held s := by
  simp only [State.modMnt, held_mk, held_fold]

theorem setLoop_held (s : State) (x1 : Nat) (x2 : Loop) : held (State.setLoop s x1 x2) = held s := by
  simp only [State.setLoop,
    ↓modMnt_held]

theorem modLoop_held (s : State) (x1 : Nat) (x2 : Loop → Loop) : held (State.modLoop s x1 x2) = held s := by
  simp only [State.modLoop,
    ↓setLoop_held]

theorem applyDuty_held (s : State) (x1 : Nat) (x2 : List Nat) : held (State.applyDuty s x1 x2) = held s := by
  simp only [State.applyDuty,
    ↓wr_held, ↓modLoop_held]

theorem headroomEnd_held (s : State) (x1 : Nat) : held (State.headroomEnd s x1) = held s := by
  simp only [State.headroomEnd, ↓held_ite, ite_self,
    ↓wr_held, ↓modLoop_held]

theorem trcDone_held (s : State) (x1 : Nat) : held (State.trcDone s x1) = held s := by
  simp only [State.trcDone,
    ↓wr_held, ↓modLoop_held]

theorem trcTrigger_held (s : State) (x1 : Nat) (x2 : Nat) : held (State.trcTrigger s x1 x2) = held s := by
  simp only [State.trcTrigger, ↓held_ite, ite_self,
    ↓trcDone_held, ↓wr_held, ↓modLoop_held]

theorem loopBypass_held (s : State) (x1 : Nat) (x2 : Nat) : held (State.loopBypass s x1 x2) = held s := by
  simp only [State.loopBypass,
    ↓headroomEnd_held, ↓applyDuty_held,
    ↓wr_held, ↓trcTrigger_held, ↓modLoop_held, ↓raise_held]

theorem loopStart_held (s : State) (x1 : Nat) : held (State.loopStart s x1) = held s := by
  simp only [State.loopStart, ↓held_ite, ite_self,
    ↓wr_held, ↓modLoop_held]

theorem loopChange_held (s : State) (x1 : Nat) : held (State.loopChange s x1) = held s := by
  simp only [State.loopChange]
  repeat' split
  all_goals try simp only [
    ↓loopStart_held, ↓loopBypass_held, ↓modLoop_held,
    ↓fitRelease_held, ↓raise_held]

theorem bypassWrite_held (s : State) (x1 : Nat) (x2 : Bool) : held (State.bypassWrite s x1 x2) = held s := by
  simp only [State.bypassWrite,
    ↓wr_held, ↓modLoop_held]

theorem trcArm_held (s : State) (x1 : Nat) : held (State.trcArm s x1) = held s := by
  simp only [State.trcArm,
    ↓setReg_held, ↓modLoop_held]

theorem trcStop_held (s : State) (x1 : Nat) : held (State.trcStop s x1) = held s := by
  simp only [State.trcStop,
    ↓trcDone_held]

theorem trcWrite_held (s : State) (x1 : Nat) (x2 : Word) : held (State.trcWrite s x1 x2) = held s := by
  simp only [State.trcWrite, ↓held_ite, ite_self,
    ↓trcTrigger_held, ↓trcArm_held, ↓trcStop_held,
    ↓setReg_held]

theorem execMntTrcStop_held (x0 : Fin 8) (x1 : Fin 4) (x2 : Word) (s : State) : ∀ t,
    execMntTrcStop x0 x1 x2 s = .next t → held t = held s := by
  intro t h
  unfold execMntTrcStop at h
  replace h := next_inj h
  subst h
  simp only [↓held_ite, ite_self,
    ↓trcWrite_held]

theorem loopFlags_held (s : State) (x1 : Nat) (x2 : Nat) : held (State.loopFlags s x1 x2) = held s := by
  simp only [State.loopFlags, ↓held_ite, ite_self,
    ↓trcTrigger_held, ↓setReg_held,
    ↓raise_held]

theorem loopOff_held (s : State) (x1 : Nat) : held (State.loopOff s x1) = held s := by
  simp only [State.loopOff, ↓held_ite, ite_self,
    ↓headroomEnd_held, ↓wr_held, ↓modLoop_held,
    ↓raise_held]

theorem adoptMantle_held (s : State) (x1 : Nat) : held (State.adoptMantle s x1) = held s := by
  simp only [State.adoptMantle, ↓held_ite, ite_self,
    ↓loopOff_held, ↓loopStart_held,
    ↓modLoop_held]

theorem carrierStart_held (s : State) (x1 : Nat) (x2 : Nat) : held (State.carrierStart s x1 x2) = held s := by
  simp only [State.carrierStart,
    ↓modLoop_held]

theorem periodStart_held (s : State) (x1 : Nat) : held (State.periodStart s x1) = held s := by
  simp only [State.periodStart, ↓held_ite, ite_self,
    ↓loopChange_held, ↓fitAdoptClass_held,
    ↓carrierStart_held, ↓wr_held, ↓adoptMantle_held]

theorem sampleInstant_held (s : State) (x1 : Nat) : held (State.sampleInstant s x1) = held s := by
  simp only [State.sampleInstant, ↓held_ite, ite_self,
    ↓loopFlags_held, ↓periodStart_held,
    ↓loopBypass_held, ↓wr_held, ↓modLoop_held, ↓bump_held]

theorem execMntTrcTrigger_held (x0 : Fin 8) (x1 : Fin 4) (x2 : Word) (s : State) : ∀ t,
    execMntTrcTrigger x0 x1 x2 s = .next t → held t = held s := by
  intro t h
  unfold execMntTrcTrigger at h
  replace h := next_inj h
  subst h
  simp only [↓held_ite, ite_self,
    ↓trcWrite_held]

theorem loopFlagsClear_held (s : State) (x1 : Nat) (x2 : Word) (x3 : Word) : held (State.loopFlagsClear s x1 x2 x3) =
    held s := by
  simp only [State.loopFlagsClear,
    ↓loopFlags_held, ↓setReg_held]

theorem execMntLoopFlagsClear_held (x0 : Fin 8) (x1 : Fin 4) (x2 : Word) (x3 : Word) (s : State) : ∀ t,
    execMntLoopFlagsClear x0 x1 x2 x3 s = .next t → held t = held s := by
  intro t h
  unfold execMntLoopFlagsClear at h
  replace h := next_inj h
  subst h
  simp only [↓held_ite, ite_self,
    ↓loopFlagsClear_held]

theorem storeEmpty_held (s : State) : held (State.storeEmpty s) = held s := by
  simp only [State.storeEmpty, ↓held_ite, ite_self,
    ↓kill_held, ↓record_held, ↓wr_held]

theorem trcRecord_held (s : State) (x1 : Nat) (x2 : Nat) (x3 : Nat) (x4 : Nat) : held (State.trcRecord s x1 x2 x3 x4) =
    held s := by
  simp only [State.trcRecord, ↓held_ite, ite_self,
    ↓trcDone_held, ↓wr_held, ↓modLoop_held]

theorem periodCompute_held (s : State) (x1 : Nat) (x2 : List Nat) (x3 : Nat) : held (State.periodCompute s x1 x2 x3) =
    held s := by
  simp only [State.periodCompute]
  repeat' split
  all_goals try simp only [↓held_ite, ite_self, ↓held_foldl,
    implies_true, ↓loopFlags_held, ↓wr_held, ↓trcRecord_held,
    ↓storeEmpty_held, ↓modMnt_held, ↓trcTrigger_held, ↓modLoop_held, ↓headroomEnd_held, ↓setLoop_held, ↓raise_held,
    ↓applyDuty_held, ↓loopBypass_held, ↓bump_held]

theorem execMntSampleInstant_held (x0 : Fin 4) (s : State) : ∀ t,
    execMntSampleInstant x0 s = .next t → held t = held s := by
  intro t h
  unfold execMntSampleInstant at h
  replace h := next_inj h
  subst h
  simp only [↓held_ite, ite_self,
    ↓sampleInstant_held]

theorem execMntFaultNRelease_held (s : State) : ∀ t, execMntFaultNRelease s = .next t → held t = held s := by
  intro t h
  unfold execMntFaultNRelease at h
  replace h := next_inj h
  subst h
  simp only [
    ↓modBoard_held]

theorem execMntPeriodCompute_held (x0 : Fin 4) (x1 : List (Fin 16384)) (x2 : Nat) (s : State) : ∀ t,
    execMntPeriodCompute x0 x1 x2 s = .next t → held t = held s := by
  intro t h
  unfold execMntPeriodCompute at h
  replace h := next_inj h
  subst h
  simp only [↓held_ite, ite_self,
    ↓periodCompute_held]

theorem targetWrite_held (s : State) (x1 : Nat) (x2 : Nat) (x3 : Word) : held (State.targetWrite s x1 x2 x3) = held s
    := by
  simp only [State.targetWrite, ↓held_ite, ite_self,
    ↓setReg_held]

theorem execMntTargetWrite_held (x0 : Fin 8) (x1 : Fin 4) (x2 : Word) (s : State) : ∀ t,
    execMntTargetWrite x0 x1 x2 s = .next t → held t = held s := by
  intro t h
  unfold execMntTargetWrite at h
  replace h := next_inj h
  subst h
  simp only [↓held_ite, ite_self,
    ↓targetWrite_held]

theorem chargeTimer_held (s : State) : held (State.chargeTimer s) = held s := by
  simp only [State.chargeTimer]
  repeat' split
  all_goals try simp only [
    ↓wr_held, ↓raise_held]

theorem execChargeLimitedTimer_held (s : State) : ∀ t, execChargeLimitedTimer s = .next t → held t = held s := by
  intro t h
  unfold execChargeLimitedTimer at h
  replace h := next_inj h
  subst h
  simp only [↓held_ite, ite_self,
    ↓chargeTimer_held]

theorem faultFall_held (s : State) : held (State.faultFall s) = held s := by
  simp only [State.faultFall,
    ↓held_foldl, implies_true, ↓loopFlags_held, ↓modBoard_held,
    ↓applyDuty_held, ↓wr_held, ↓raise_held]

theorem execMntFaultNFall_held (s : State) : ∀ t, execMntFaultNFall s = .next t → held t = held s := by
  intro t h
  unfold execMntFaultNFall at h
  replace h := next_inj h
  subst h
  simp only [↓held_ite, ite_self,
    ↓faultFall_held, ↓modBoard_held]

theorem execMntTrcArm_held (x0 : Fin 8) (x1 : Fin 4) (x2 : Word) (s : State) : ∀ t,
    execMntTrcArm x0 x1 x2 s = .next t → held t = held s := by
  intro t h
  unfold execMntTrcArm at h
  replace h := next_inj h
  subst h
  simp only [↓held_ite, ite_self,
    ↓trcWrite_held]

theorem loopCtlWrite_held (s : State) (x1 : Nat) (x2 : Nat) (x3 : Word) : held (State.loopCtlWrite s x1 x2 x3) = held s
    := by
  simp only [State.loopCtlWrite, ↓held_ite, ite_self,
    ↓bypassWrite_held]

theorem execMntLoopBypassWrite_held (x0 : Fin 8) (x1 : Fin 4) (x2 : Word) (s : State) : ∀ t,
    execMntLoopBypassWrite x0 x1 x2 s = .next t → held t = held s := by
  intro t h
  unfold execMntLoopBypassWrite at h
  replace h := next_inj h
  subst h
  simp only [↓held_ite, ite_self,
    ↓loopCtlWrite_held]

theorem gpio_held (s : State) (x1 : Nat) (x2 : Bool) : held (State.gpio s x1 x2) = held s := by
  simp only [State.gpio,
    ↓modBoard_held]

theorem learnEnd_held (s : State) : held (State.learnEnd s) = held s := by
  simp only [State.learnEnd]
  repeat' split
  all_goals try simp only [
    ↓gpio_held, ↓modMnt_held]

theorem learnLast_held (s : State) (x1 : Nat) (x2 : Nat) : held (State.learnLast s x1 x2) = held s := by
  simp only [State.learnLast,
    ↓wr_held]

theorem setStr_held (s : State) (x1 : Nat) (x2 : Str) : held (State.setStr s x1 x2) = held s := by
  simp only [State.setStr,
    ↓modMnt_held]

theorem modStr_held (s : State) (x1 : Nat) (x2 : Str → Str) : held (State.modStr s x1 x2) = held s := by
  simp only [State.modStr,
    ↓setStr_held]

theorem setMaskBit_held (s : State) (x1 : Field) (x2 : Nat) (x3 : Bool) : held (State.setMaskBit s x1 x2 x3) = held s
    := by
  simp only [State.setMaskBit,
    ↓wr_held]

theorem connect_held (s : State) (x1 : Nat) (x2 : Bool) : held (State.connect s x1 x2) = held s := by
  simp only [State.connect,
    ↓gpio_held, ↓setMaskBit_held]

theorem exclude_held (s : State) (x1 : Nat) (x2 : Bool) : held (State.exclude s x1 x2) = held s := by
  simp only [State.exclude,
    ↓wr_held]

theorem reconnect_held (s : State) (x1 : Nat) : held (State.reconnect s x1) = held s := by
  simp only [State.reconnect, ↓held_ite, ite_self,
    ↓connect_held]

theorem learnAbort_held (s : State) (x1 : Bool) : held (State.learnAbort s x1) = held s := by
  simp only [State.learnAbort, ↓held_ite, ite_self,
    ↓learnLast_held, ↓exclude_held,
    ↓gpio_held, ↓modMnt_held, ↓wr_held, ↓reconnect_held, ↓modStr_held]

theorem strFault_held (s : State) (x1 : Nat) (x2 : Nat) : held (State.strFault s x1 x2) = held s := by
  simp only [State.strFault, ↓held_ite, ite_self,
    ↓setMaskBit_held, ↓learnAbort_held, ↓wr_held,
    ↓connect_held, ↓modStr_held, ↓raise_held]

theorem learnCapacity_held (s : State) (x1 : Nat) (x2 : Nat) : held (State.learnCapacity s x1 x2) = held s := by
  simp only [State.learnCapacity, ↓held_ite, ite_self,
    ↓learnLast_held, ↓strFault_held,
    ↓modStr_held, ↓bump_held]

theorem learnRest_held (s : State) : held (State.learnRest s) = held s := by
  simp only [State.learnRest]
  repeat' split
  all_goals try simp only [
    ↓learnLast_held, ↓learnCapacity_held, ↓wr_held,
    ↓reconnect_held]

theorem compatApply_held (s : State) : held (State.compatApply s) = held s := by
  unfold State.compatApply
  repeat' first
    | simp only [↓held_ite,
        ↓wr_held, ↓modStr_held]
    | intro _
    | split
    | refine (held_foldl _ ?_ _ _).trans ?_
    | refine (held_foldl_fst _ ?_ _ _).trans ?_
    | refine (held_foldl_snd _ ?_ _ _).trans ?_

theorem energyCompute_held (s : State) : held (State.energyCompute s) = held s := by
  simp only [State.energyCompute,
    ↓held_foldl, implies_true, ↓wr_held]

theorem countCycles_held (s : State) (x1 : Nat) : held (State.countCycles s x1) = held s := by
  simp only [State.countCycles,
    ↓wr_held, ↓modStr_held]

theorem learnR_held (s : State) (x1 : Nat) (x2 : Nat) : held (State.learnR s x1 x2) = held s := by
  simp only [State.learnR, ↓held_ite, ite_self,
    ↓strFault_held, ↓modStr_held]

theorem restPoint_held (s : State) (x1 : Nat) (x2 : Bool) : held (State.restPoint s x1 x2) = held s := by
  simp only [State.restPoint, ↓held_ite, ite_self,

    ↓modStr_held]
  repeat' split
  all_goals try simp only [
    ↓learnLast_held, ↓learnCapacity_held]

theorem showStr_held (s : State) (x1 : Nat) : held (State.showStr s x1) = held s := by
  simp only [State.showStr,
    ↓wr_held]

theorem sampleStr_held (s : State) (x1 : Nat) (x2 : Nat) (x3 : Nat) : held (State.sampleStr s x1 x2 x3) = held s := by
  unfold State.sampleStr
  extract_lets x start mv ma rm small wasRest own fast gap s1 s2 rest soc s3 s4 s5 s6 s7 s8
  have e1 : held s1 = held s := setStr_held _ _ _
  have e2 : held s2 = held s := by simp only [s2, ↓held_ite, ↓modMnt_held, e1, ite_self]
  have e3 : held s3 = held s := by simp only [s3, ↓held_ite, ↓modStr_held, e2, ite_self]
  have e4 : held s4 = held s := by
    simp only [s4, ↓held_ite, ↓restPoint_held, ↓setMaskBit_held, e3, ite_self]
  have e5 : held s5 = held s := by
    clear_value rm
    simp only [s5]
    split
    · rw [learnR_held, e4]
    · exact e4
  have e6 : held s6 = held s := (modStr_held _ _ _).trans e5
  have e7 : held s7 = held s := by simp only [s7, ↓held_ite, ↓strFault_held, e6, ite_self]
  have e8 : held s8 = held s := by simp only [s8, ↓held_ite, ↓strFault_held, e7, ite_self]
  rw [showStr_held, countCycles_held, e8]

theorem sampleTemp_held (s : State) (x1 : Nat) (x2 : Nat) : held (State.sampleTemp s x1 x2) = held s := by
  simp only [State.sampleTemp, ↓held_ite, ite_self,
    ↓showStr_held, ↓strFault_held,
    ↓modMnt_held, ↓modStr_held]

theorem startSlots_held (s : State) : held (State.startSlots s) = held s := by
  simp only [State.startSlots, ↓held_ite, ite_self,
    ↓held_foldl, implies_true, ↓loopStart_held]

theorem mantleStart_held (s : State) (x1 : List (Nat × Nat × Nat)) : held (State.mantleStart s x1) = held s := by
  unfold State.mantleStart
  repeat' first
    | simp only [↓held_foldl,
        implies_true, ↓setStr_held, ↓gpio_held, ↓sampleStr_held,
        ↓sampleTemp_held, ↓startSlots_held, ↓compatApply_held, ↓energyCompute_held, ↓setMaskBit_held, ↓connect_held,
        ↓governorTick_held]
    | intro _
    | split
    | refine (held_foldl _ ?_ _ _).trans ?_
    | refine (held_foldl_fst _ ?_ _ _).trans ?_
    | refine (held_foldl_snd _ ?_ _ _).trans ?_

theorem compatWrite_held (s : State) (x1 : Bool) : held (State.compatWrite s x1) = held s := by
  simp only [State.compatWrite, ↓held_ite, ite_self,
    ↓modMnt_held]

theorem execCompatRecordWrite_held (x0 : Bool) (s : State) : ∀ t,
    execCompatRecordWrite x0 s = .next t → held t = held s := by
  intro t h
  unfold execCompatRecordWrite at h
  replace h := next_inj h
  subst h
  simp only [
    ↓compatWrite_held]

theorem chargeControl_held (s : State) : held (State.chargeControl s) = held s := by
  simp only [State.chargeControl, ↓held_ite, ite_self,
    ↓held_foldl, implies_true, ↓showStr_held, ↓setReg_held,
    ↓applyDuty_held, ↓wr_held, ↓modStr_held]

theorem execMntChargeControl_held (s : State) : ∀ t, execMntChargeControl s = .next t → held t = held s := by
  intro t h
  unfold execMntChargeControl at h
  replace h := next_inj h
  subst h
  simp only [↓held_ite, ite_self,
    ↓chargeControl_held]

theorem learnDone_held (s : State) : held (State.learnDone s) = held s := by
  simp only [State.learnDone]
  repeat' split
  all_goals try simp only [
    ↓exclude_held, ↓modMnt_held, ↓wr_held, ↓raise_held]

theorem execMntEnergyCompute_held (s : State) : ∀ t, execMntEnergyCompute s = .next t → held t = held s := by
  intro t h
  unfold execMntEnergyCompute at h
  replace h := next_inj h
  subst h
  simp only [↓held_ite, ite_self,
    ↓learnAbort_held, ↓energyCompute_held]

theorem learnBegin_held (s : State) : held (State.learnBegin s) = held s := by
  simp only [State.learnBegin, ↓held_ite, ite_self,
    ↓gpio_held, ↓modMnt_held, ↓wr_held,
    ↓connect_held, ↓raise_held]

theorem execLearnDischargeBegin_held (s : State) : ∀ t, execLearnDischargeBegin s = .next t → held t = held s := by
  intro t h
  unfold execLearnDischargeBegin at h
  replace h := next_inj h
  subst h
  simp only [↓held_ite, ite_self,
    ↓learnBegin_held]

theorem learnStart_held (s : State) (x1 : Nat) : held (State.learnStart s x1) = held s := by
  simp only [State.learnStart, ↓held_ite, ite_self,
    ↓wr_held, ↓exclude_held]

theorem learnWrite_held (s : State) (x1 : Nat) (x2 : Word) : held (State.learnWrite s x1 x2) = held s := by
  simp only [State.learnWrite, ↓held_ite, ite_self,
    ↓learnAbort_held, ↓wr_held,
    ↓learnStart_held]

theorem execMntLearnAbort_held (x0 : Fin 8) (x1 : Word) (s : State) : ∀ t,
    execMntLearnAbort x0 x1 s = .next t → held t = held s := by
  intro t h
  unfold execMntLearnAbort at h
  replace h := next_inj h
  subst h
  simp only [↓held_ite, ite_self,
    ↓learnWrite_held]

theorem execLearnDischargeEnd_held (s : State) : ∀ t, execLearnDischargeEnd s = .next t → held t = held s := by
  intro t h
  unfold execLearnDischargeEnd at h
  replace h := next_inj h
  subst h
  simp only [↓held_ite, ite_self,
    ↓learnEnd_held]

theorem execMntLearnStart_held (x0 : Fin 8) (x1 : Word) (s : State) : ∀ t,
    execMntLearnStart x0 x1 s = .next t → held t = held s := by
  intro t h
  unfold execMntLearnStart at h
  replace h := next_inj h
  subst h
  simp only [↓held_ite, ite_self,
    ↓learnWrite_held]

theorem execLearnRestEnd_held (s : State) : ∀ t, execLearnRestEnd s = .next t → held t = held s := by
  intro t h
  unfold execLearnRestEnd at h
  replace h := next_inj h
  subst h
  simp only [↓held_ite, ite_self,
    ↓learnRest_held]

theorem emptyStrings_held (s : State) : held (State.emptyStrings s) = held s := by
  simp only [State.emptyStrings, ↓held_ite, ite_self,
    ↓held_foldl, implies_true, ↓storeEmpty_held, ↓connect_held,
    ↓modStr_held]

theorem stringSamples_held (s : State) (x1 : List (Nat × Nat)) : held (State.stringSamples s x1) = held s := by
  unfold State.stringSamples
  repeat' first
    | simp only [
        ↓sampleStr_held, ↓modMnt_held, ↓emptyStrings_held]
    | intro _
    | split
    | refine (held_foldl _ ?_ _ _).trans ?_
    | refine (held_foldl_fst _ ?_ _ _).trans ?_
    | refine (held_foldl_snd _ ?_ _ _).trans ?_

theorem execMntStringSample_held (x0 : List (Fin 16384 × Fin 16384)) (s : State) : ∀ t,
    execMntStringSample x0 s = .next t → held t = held s := by
  intro t h
  unfold execMntStringSample at h
  replace h := next_inj h
  subst h
  simp only [↓held_ite, ite_self,
    ↓stringSamples_held]

theorem execLearnRechargeDone_held (s : State) : ∀ t, execLearnRechargeDone s = .next t → held t = held s := by
  intro t h
  unfold execLearnRechargeDone at h
  replace h := next_inj h
  subst h
  simp only [↓held_ite, ite_self,
    ↓learnDone_held]

theorem execMntTempSample_held (x0 : List (Fin 16384)) (s : State) : ∀ t,
    execMntTempSample x0 s = .next t → held t = held s := by
  intro t h
  unfold execMntTempSample at h
  replace h := next_inj h
  subst h
  repeat' first
    | simp only [↓held_ite,
        ↓sampleTemp_held]
    | intro _
    | split
    | refine (held_foldl _ ?_ _ _).trans ?_
    | refine admin_held _ _ _ _ ?_
    | refine mbServe_held _ _ _ _ ?_
    | refine withSeqs_held _ _ _ _ _ ?_
    | refine fittingOr_held _ _ _ ?_

theorem modPwr_held (s : State) (x1 : Pwr → Pwr) : held (State.modPwr s x1) = held s := by
  simp only [State.modPwr, held_mk, held_fold]

theorem noteWake_held (s : State) (x1 : Nat) (x2 : Nat) (x3 : Nat) (x4 : Nat) : held (State.noteWake s x1 x2 x3 x4) =
    held s := by
  simp only [State.noteWake,
    ↓wr_held, ↓wr64_held]

theorem beginExit_held (s : State) (x1 : Nat) (x2 : Nat) : held (State.beginExit s x1 x2) = held s := by
  simp only [State.beginExit,
    ↓noteWake_held, ↓modPwr_held, ↓wr_held]

theorem latchWake_held (s : State) (x1 : Nat) : held (State.latchWake s x1) = held s := by
  simp only [State.latchWake,
    ↓modPwr_held]

theorem wake_held (s : State) (x1 : Nat) : held (State.wake s x1) = held s := by
  simp only [State.wake, ↓held_ite, ite_self,
    ↓latchWake_held, ↓beginExit_held, ↓noteWake_held]

theorem noteMgmt_held (s : State) : held (State.noteMgmt s) = held s := by
  simp only [State.noteMgmt,
    ↓modPwr_held]

end Sys2Proof.Laws
end

