-- ==== Sys2Proof/Laws/HeldChain.lean ====
section
/-!
SUPPORT. Laws/HeldChain.lean: what `held` covers, through the operations of
the Steeple chain, take commands, translation, NVMe.
-/
namespace Sys2Proof.Laws
open Sys2Proof.Machine

theorem modStp_held (s : State) (x1 : Stp → Stp) : held (State.modStp s x1) = held s := by
  simp only [State.modStp, held_mk, held_fold]

theorem rebase_held (s : State) : held (State.rebase s) = held s := by
  simp only [State.rebase,
    ↓modStp_held]

theorem slewDone_held (s : State) : held (State.slewDone s) = held s := by
  simp only [State.slewDone, ↓held_ite, ite_self,
    ↓modStp_held, ↓rebase_held]

theorem installCal_held (s : State) (x1 : Nat) (x2 : Nat) (x3 : Nat) : held (State.installCal s x1 x2 x3) = held s := by
  simp only [State.installCal,
    ↓wr64_held, ↓modStp_held, ↓wr_held]

theorem calWrite_held (s : State) (x1 : Word) : held (State.calWrite s x1) = held s := by
  simp only [State.calWrite, ↓held_ite, ite_self,
    ↓installCal_held, ↓modStp_held]

theorem reportHeal_held (s : State) (x1 : Nat) (x2 : ℤ) (x3 : Nat) (x4 : Nat) (x5 : Nat) : held (State.reportHeal s x1
    x2 x3 x4 x5) = held s := by
  simp only [State.reportHeal,
    ↓raiseIf_held, ↓chainRecord_held,
    ↓raise_held]

theorem slewBy_held (s : State) (x1 : ℤ) : held (State.slewBy s x1) = held s := by
  simp only [State.slewBy,
    ↓modStp_held, ↓rebase_held]

theorem stepTime_held (s : State) (x1 : ℤ) : held (State.stepTime s x1) = held s := by
  simp only [State.stepTime,
    ↓modStp_held, ↓rebase_held]

theorem ppsEdge_held (s : State) : held (State.ppsEdge s) = held s := by
  simp only [State.ppsEdge, ↓held_ite, ite_self,
    ↓modStp_held, ↓slewBy_held, ↓wr_held, ↓stepTime_held]

theorem execStpRef10mLock_held (s : State) : ∀ t, execStpRef10mLock s = .next t → held t = held s := by
  intro t h
  unfold execStpRef10mLock at h
  replace h := next_inj h
  subst h
  simp only [↓held_ite, ite_self,
    ↓wr_held]

theorem countMembers_held (s : State) : held (State.countMembers s) = held s := by
  simp only [State.countMembers,
    ↓raiseIf_held, ↓modStp_held, ↓wr_held]

theorem execStpMemberTimeout_held (s : State) : ∀ t, execStpMemberTimeout s = .next t → held t = held s := by
  intro t h
  unfold execStpMemberTimeout at h
  replace h := next_inj h
  subst h
  simp only [↓held_ite, ite_self,
    ↓countMembers_held]

theorem delayResp_held (s : State) (x1 : StpIn) : held (State.delayResp s x1) = held s := by
  simp only [State.delayResp, ↓held_ite, ite_self,
    ↓modStp_held, ↓wr_held, ↓raise_held]

theorem onMsg_held (s : State) (x1 : Nat) (x2 : Bool) (x3 : List Byte) (f : StpIn → State) (h : ∀ x,
    held (f x) = held s) : held (s.onMsg x1 x2 x3 f) = held s := by
  unfold State.onMsg
  repeat' (first | simp only [h, ↓held_ite, ite_self, ↓bump_held] | split)

theorem execStpDelayResp_held (x0 : List Byte) (s : State) : ∀ t,
    execStpDelayResp x0 s = .next t → held t = held s := by
  intro t h
  unfold execStpDelayResp at h
  replace h := next_inj h
  subst h
  simp only [
    implies_true, ↓onMsg_held, ↓delayResp_held]

theorem setHeadUid_held (s : State) (x1 : Nat) : held (State.setHeadUid s x1) = held s := by
  simp only [State.setHeadUid,
    ↓wr64_held]

theorem below_held (s : State) (x1 : Nat) (x2 : Nat) : held (State.below s x1 x2) = held s := by
  simp only [State.below,
    ↓setHeadUid_held, ↓wr_held]

theorem dropRefs_held (s : State) : held (State.dropRefs s) = held s := by
  simp only [State.dropRefs, ↓held_ite, ite_self,
    ↓modStp_held, ↓wr_held]

theorem setStp_held (s : State) (x1 : Nat) : held (State.setStp s x1) = held s := by
  simp only [State.setStp,
    ↓countMembers_held, ↓wr_held]

theorem enterHoldover_held (s : State) (x1 : Nat) : held (State.enterHoldover s x1) = held s := by
  simp only [State.enterHoldover, ↓held_ite, ite_self,
    ↓modStp_held, ↓setHeadUid_held,
    ↓raise_held, ↓rebase_held, ↓chainRecord_held, ↓setStp_held, ↓bump_held]

theorem heal_held (s : State) (x1 : ℤ) (x2 : Nat) (x3 : Nat) : held (State.heal s x1 x2 x3) = held s := by
  simp only [State.heal, ↓held_ite, ite_self,
    ↓stepTime_held, ↓dropRefs_held, ↓modStp_held,
    ↓below_held, ↓slewBy_held, ↓wr_held, ↓reportHeal_held, ↓setStp_held]

theorem establish_held (s : State) : held (State.establish s) = held s := by
  simp only [State.establish,
    ↓modStp_held]

theorem toLocked_held (s : State) : held (State.toLocked s) = held s := by
  simp only [State.toLocked,
    ↓establish_held, ↓modStp_held, ↓setStp_held]

theorem follow_held (s : State) (x1 : StpIn) : held (State.follow s x1) = held s := by
  simp only [State.follow, ↓held_ite, ite_self,
    ↓dropRefs_held, ↓enterHoldover_held, ↓modStp_held,
    ↓toLocked_held, ↓below_held, ↓wr_held, ↓reportHeal_held, ↓heal_held, ↓stepTime_held, ↓setStp_held]

theorem timeMsg_held (s : State) (x1 : StpIn) : held (State.timeMsg s x1) = held s := by
  simp only [State.timeMsg, ↓held_ite, ite_self,
    ↓settleDma_held, ↓modStp_held, ↓follow_held]

theorem remember_held (s : State) (x1 : Nat) (x2 : Nat) : held (State.remember s x1 x2) = held s := by
  simp only [State.remember,
    ↓modStp_held]

theorem send_held (s : State) (x1 : Nat) (x2 : Nat) (x3 : Nat) (x4 : Nat) (x5 : List Byte) : held (State.send s x1 x2
    x3 x4 x5) = held s := by
  simp only [State.send,
    ↓modStp_held]

theorem forward_held (s : State) (x1 : Nat) (x2 : StpIn) : held (State.forward s x1 x2) = held s := by
  simp only [State.forward,
    ↓send_held]

theorem execStpDnLockAcquired_held (s : State) : ∀ t, execStpDnLockAcquired s = .next t → held t = held s := by
  intro t h
  unfold execStpDnLockAcquired at h
  replace h := next_inj h
  subst h
  simp only [↓held_ite, ite_self,
    ↓wr_held]

theorem execStpCalSend_held (s : State) : ∀ t, execStpCalSend s = .next t → held t = held s := by
  intro t h
  unfold execStpCalSend at h
  replace h := next_inj h
  subst h
  simp only [↓held_ite, ite_self,
    ↓send_held]

theorem ppsLoss_held (s : State) : held (State.ppsLoss s) = held s := by
  simp only [State.ppsLoss]
  repeat' split
  all_goals try simp only [
    ↓modStp_held, ↓wr_held, ↓raise_held]

theorem takeCloseMsg_held (s : State) (x1 : StpIn) : held (State.takeCloseMsg s x1) = held s := by
  simp only [State.takeCloseMsg, ↓held_ite, ite_self,
    ↓forward_held, ↓settleDma_held,
    ↓remember_held, ↓fireDue_held, ↓steepleTrigger_held]

theorem execStpTakeClose_held (x0 : List Byte) (s : State) : ∀ t,
    execStpTakeClose x0 s = .next t → held t = held s := by
  intro t h
  unfold execStpTakeClose at h
  replace h := next_inj h
  subst h
  simp only [
    implies_true, ↓takeCloseMsg_held, ↓onMsg_held]

theorem topOfChain_held (s : State) : held (State.topOfChain s) = held s := by
  simp only [State.topOfChain,
    ↓setHeadUid_held, ↓wr_held]

theorem upLost_held (s : State) : held (State.upLost s) = held s := by
  simp only [State.upLost, ↓held_ite, ite_self,
    ↓enterHoldover_held, ↓modStp_held, ↓setHeadUid_held,
    ↓wr_held, ↓topOfChain_held, ↓raise_held]

theorem execStpUpLockLost_held (x0 : Nat) (s : State) : ∀ t, execStpUpLockLost x0 s = .next t → held t = held s := by
  intro t h
  unfold execStpUpLockLost at h
  replace h := next_inj h
  subst h
  simp only [↓held_ite, ite_self,
    ↓settleDma_held, ↓upLost_held, ↓bumpBy_held]

theorem timeSend_held (s : State) : held (State.timeSend s) = held s := by
  simp only [State.timeSend, ↓held_ite, ite_self,
    ↓send_held]

theorem execStpTimeSend_held (s : State) : ∀ t, execStpTimeSend s = .next t → held t = held s := by
  intro t h
  unfold execStpTimeSend at h
  replace h := next_inj h
  subst h
  simp only [↓held_ite, ite_self,
    ↓timeSend_held]

theorem triggerMsg_held (s : State) (x1 : StpIn) : held (State.triggerMsg s x1) = held s := by
  simp only [State.triggerMsg, ↓held_ite, ite_self,
    ↓forward_held, ↓settleDma_held,
    ↓remember_held, ↓fireDue_held, ↓steepleTrigger_held, ↓wake_held]

theorem execStpTrigger_held (x0 : List Byte) (s : State) : ∀ t, execStpTrigger x0 s = .next t → held t = held s := by
  intro t h
  unfold execStpTrigger at h
  replace h := next_inj h
  subst h
  simp only [
    implies_true, ↓triggerMsg_held, ↓onMsg_held]

theorem toHead_held (s : State) : held (State.toHead s) = held s := by
  simp only [State.toHead, ↓held_ite, ite_self,
    ↓modStp_held, ↓wr_held, ↓rebase_held,
    ↓topOfChain_held, ↓setStp_held]

theorem acquireTimeout_held (s : State) : held (State.acquireTimeout s) = held s := by
  simp only [State.acquireTimeout, ↓held_ite, ite_self,
    ↓toHead_held]

theorem execStpCalCtlWrite_held (x0 : Fin 8) (x1 : Word) (s : State) : ∀ t,
    execStpCalCtlWrite x0 x1 s = .next t → held t = held s := by
  intro t h
  unfold execStpCalCtlWrite at h
  replace h := next_inj h
  subst h
  simp only [↓held_ite, ite_self,
    ↓calWrite_held]

theorem statusMsg_held (s : State) (x1 : StpIn) : held (State.statusMsg s x1) = held s := by
  simp only [State.statusMsg, ↓held_ite, ite_self,
    ↓modStp_held, ↓forward_held,
    ↓countMembers_held]

theorem execStpStatus_held (x0 : List Byte) (s : State) : ∀ t, execStpStatus x0 s = .next t → held t = held s := by
  intro t h
  unfold execStpStatus at h
  replace h := next_inj h
  subst h
  simp only [
    implies_true, ↓statusMsg_held, ↓onMsg_held]

theorem takeOpenMsg_held (s : State) (x1 : StpIn) : held (State.takeOpenMsg s x1) = held s := by
  simp only [State.takeOpenMsg, ↓held_ite, ite_self,
    ↓held_foldl, implies_true, ↓settleDma_held, ↓remember_held,
    ↓fireDue_held, ↓modTake_held, ↓steepleTrigger_held, ↓wake_held, ↓forward_held, ↓dirChange_held]

theorem execStpSlewComplete_held (s : State) : ∀ t, execStpSlewComplete s = .next t → held t = held s := by
  intro t h
  unfold execStpSlewComplete at h
  replace h := next_inj h
  subst h
  simp only [↓held_ite, ite_self,
    ↓slewDone_held]

theorem execStpUpLockAcquired_held (s : State) : ∀ t, execStpUpLockAcquired s = .next t → held t = held s := by
  intro t h
  unfold execStpUpLockAcquired at h
  replace h := next_inj h
  subst h
  simp only [↓held_ite, ite_self,
    ↓wr_held]

theorem execStpRefPpsEdge_held (s : State) : ∀ t, execStpRefPpsEdge s = .next t → held t = held s := by
  intro t h
  unfold execStpRefPpsEdge at h
  replace h := next_inj h
  subst h
  simp only [↓held_ite, ite_self,
    ↓ppsEdge_held]

theorem adoptRole_held (s : State) : held (State.adoptRole s) = held s := by
  simp only [State.adoptRole, ↓held_ite, ite_self,
    ↓dropRefs_held, ↓modStp_held, ↓wr_held,
    ↓rebase_held, ↓toHead_held, ↓setStp_held]

theorem execStpDelayReqSend_held (s : State) : ∀ t, execStpDelayReqSend s = .next t → held t = held s := by
  intro t h
  unfold execStpDelayReqSend at h
  replace h := next_inj h
  subst h
  simp only [↓held_ite, ite_self,
    ↓send_held]

theorem execReplicaRealign_held (s : State) : ∀ t, execReplicaRealign s = .next t → held t = held s := by
  intro t h
  unfold execReplicaRealign at h
  replace h := next_inj h
  subst h
  simp only []

theorem execStpStatusSend_held (s : State) : ∀ t, execStpStatusSend s = .next t → held t = held s := by
  intro t h
  unfold execStpStatusSend at h
  replace h := next_inj h
  subst h
  simp only [↓held_ite, ite_self,
    ↓send_held]

theorem castOne_held (s : State) (x1 : Cast) : held (State.castOne s x1) = held s := by
  simp only [State.castOne, ↓held_ite, ite_self,
    ↓modStp_held, ↓send_held]

theorem execStpTakeOpen_held (x0 : List Byte) (s : State) : ∀ t, execStpTakeOpen x0 s = .next t → held t = held s := by
  intro t h
  unfold execStpTakeOpen at h
  replace h := next_inj h
  subst h
  simp only [
    implies_true, ↓onMsg_held, ↓takeOpenMsg_held]

theorem dnLost_held (s : State) : held (State.dnLost s) = held s := by
  simp only [State.dnLost, ↓held_ite, ite_self,
    ↓modStp_held, ↓wr_held, ↓chainRecord_held, ↓raise_held]

theorem execStpDnLockLost_held (x0 : Nat) (s : State) : ∀ t, execStpDnLockLost x0 s = .next t → held t = held s := by
  intro t h
  unfold execStpDnLockLost at h
  replace h := next_inj h
  subst h
  simp only [↓held_ite, ite_self,
    ↓dnLost_held, ↓settleDma_held, ↓bumpBy_held]

theorem execStpTime_held (x0 : List Byte) (s : State) : ∀ t, execStpTime x0 s = .next t → held t = held s := by
  intro t h
  unfold execStpTime at h
  replace h := next_inj h
  subst h
  simp only [
    implies_true, ↓timeMsg_held, ↓onMsg_held]

theorem execStpAcquireTimeout_held (s : State) : ∀ t, execStpAcquireTimeout s = .next t → held t = held s := by
  intro t h
  unfold execStpAcquireTimeout at h
  replace h := next_inj h
  subst h
  simp only [↓held_ite, ite_self,
    ↓acquireTimeout_held]

theorem delayReq_held (s : State) (x1 : Nat) (x2 : StpIn) : held (State.delayReq s x1 x2) = held s := by
  simp only [State.delayReq, ↓held_ite, ite_self,
    ↓modStp_held, ↓send_held, ↓wr_held]

theorem execStpDelayReq_held (x0 : List Byte) (x1 : Fin 2001) (s : State) : ∀ t,
    execStpDelayReq x0 x1 s = .next t → held t = held s := by
  intro t h
  unfold execStpDelayReq at h
  replace h := next_inj h
  subst h
  simp only [
    implies_true, ↓delayReq_held, ↓onMsg_held]

theorem execStpRefPpsLoss_held (s : State) : ∀ t, execStpRefPpsLoss s = .next t → held t = held s := by
  intro t h
  unfold execStpRefPpsLoss at h
  replace h := next_inj h
  subst h
  simp only [↓held_ite, ite_self,
    ↓ppsLoss_held]

theorem originate_held (s : State) (x1 : Nat) (x2 : Nat → List Byte) (x3 : Nat) : held (State.originate s x1 x2 x3) =
    held s := by
  simp only [State.originate,
    ↓modStp_held, ↓send_held]

theorem calStage_held (s : State) (x1 : Bool) (x2 : Word) : held (State.calStage s x1 x2) = held s := by
  simp only [State.calStage,
    ↓modStp_held]

theorem calMsg_held (s : State) (x1 : StpIn) : held (State.calMsg s x1) = held s := by
  simp only [State.calMsg, ↓held_ite, ite_self,
    ↓forward_held, ↓installCal_held]

theorem execStpCal_held (x0 : List Byte) (s : State) : ∀ t, execStpCal x0 s = .next t → held t = held s := by
  intro t h
  unfold execStpCal at h
  replace h := next_inj h
  subst h
  simp only [
    implies_true, ↓calMsg_held, ↓onMsg_held]

theorem execStpBroadcastRepeat_held (s : State) : ∀ t, execStpBroadcastRepeat s = .next t → held t = held s := by
  intro t h
  unfold execStpBroadcastRepeat at h
  replace h := next_inj h
  subst h
  simp only [↓held_ite, ite_self, ↓held_foldl,
    implies_true, ↓castOne_held]

theorem execStpRef10mLoss_held (s : State) : ∀ t, execStpRef10mLoss s = .next t → held t = held s := by
  intro t h
  unfold execStpRef10mLoss at h
  replace h := next_inj h
  subst h
  simp only [↓held_ite, ite_self,
    ↓wr_held, ↓raise_held]

theorem frameTimeouts_held (s : State) : held (State.frameTimeouts s) = held s := by
  simp only [State.frameTimeouts,
    ↓held_foldl, implies_true, ↓abandon_held]

theorem closeBroadcast_held (s : State) (x1 : Sqe) (x2 : Take) (x3 : Nat) : held (State.closeBroadcast s x1 x2 x3) =
    held s := by
  simp only [State.closeBroadcast, ↓held_ite, ite_self,
    ↓originate_held]

theorem takeDelete_held (s : State) (x1 : Sqe) : held (State.takeDelete s x1) = held s := by
  simp only [State.takeDelete]
  repeat' split
  all_goals try simp only [
    ↓fail_held, ↓queueTrim_held, ↓noAbort_held]

theorem closeNow_held (s : State) (x1 : Sqe) : held (State.closeNow s x1) = held s := by
  simp only [State.closeNow]
  repeat' split
  all_goals try simp only [
    ↓fail_held, ↓modTake_held, ↓closeTake_held,
    ↓closeBroadcast_held, ↓noAbort_held]

theorem trigInEdge_held (s : State) (x1 : Bool) (x2 : Nat) (x3 : Nat) : held (State.trigInEdge s x1 x2 x3) = held s :=
    by
  simp only [State.trigInEdge, held_mk, held_fold, ↓held_ite, ite_self,
    ↓held_foldl, implies_true, ↓fireDue_held, ↓modTake_held,
    ↓applyTrigger_held, ↓wake_held]

theorem execTrigOutPulseEnd_held (s : State) : ∀ t, execTrigOutPulseEnd s = .next t → held t = held s := by
  intro t h
  unfold execTrigOutPulseEnd at h
  replace h := next_inj h
  subst h
  simp only [held_mk, held_fold]

theorem trigger_held (s : State) (x1 : Sqe) (x2 : Nat) : held (State.trigger s x1 x2) = held s := by
  simp only [State.trigger]
  repeat' split
  all_goals try simp only [↓held_foldl,
    implies_true, ↓fail_held, ↓modTake_held, ↓steepleTrigger_held,
    ↓applyTrigger_held, ↓complete_held, ↓originate_held]

theorem triggerCmd_held (s : State) (x1 : Sqe) (x2 : Nat) : held (State.triggerCmd s x1 x2) = held s := by
  simp only [State.triggerCmd,
    implies_true, ↓settleDma_held, ↓noAbort_held,
    ↓fireDue_held, ↓trigger_held, ↓admin_held]

theorem execTriggerMark_held (x0 : Sqe) (s : State) : ∀ t, execTriggerMark x0 s = .next t → held t = held s := by
  intro t h
  unfold execTriggerMark at h
  replace h := next_inj h
  subst h
  simp only [
    ↓triggerCmd_held]

theorem nextSegment_held (s : State) (x1 : Sqe) : held (State.nextSegment s x1) = held s := by
  simp only [State.nextSegment]
  repeat' split
  all_goals try simp only [↓held_foldl,
    implies_true, ↓continueFrame_held, ↓fail_held, ↓countRefused_held,
    ↓modTakes_held]

theorem openChannels_held (s : State) (x1 : Nat) (x2 : Sqe) (x3 : Nat) (x4 : StreamDesc) : held (State.openChannels s
    x1 x2 x3 x4) = held s := by
  simp only [State.openChannels, ↓held_ite, ite_self,
    ↓held_foldl, implies_true, ↓setDma_held, ↓setDmaState_held,
    ↓setReg_held, ↓wr_held]

theorem doOpen_held (s : State) (x1 : Sqe) (x2 : OpenReq) : held (State.doOpen s x1 x2) = held s := by
  simp only [State.doOpen]
  repeat' split
  all_goals try simp only [↓held_foldl,
    implies_true, ↓startTake_held, ↓fullCheck_held, ↓modTakes_held,
    ↓modTake_held, ↓dirChange_held, ↓openChannels_held, ↓writeHeaders_held, ↓fail_held, ↓originate_held, ↓raiseAll_held]

theorem notRecording_held (s : State) : held (State.notRecording s) = held s := by
  unfold State.notRecording
  repeat' first
    | simp only [↓held_foldl,
        implies_true, ↓fail_held, ↓countRefused_held, ↓descOutcome_held,
        ↓modTakes_held]
    | intro _
    | split
    | refine (held_foldl _ ?_ _ _).trans ?_
    | refine (held_foldl_fst _ ?_ _ _).trans ?_
    | refine (held_foldl_snd _ ?_ _ _).trans ?_

theorem execTakeNotRecordingReply_held (s : State) : ∀ t, execTakeNotRecordingReply s = .next t → held t = held s := by
  intro t h
  unfold execTakeNotRecordingReply at h
  replace h := next_inj h
  subst h
  simp only [↓held_ite, ite_self,
    ↓settleDma_held, ↓fireDue_held, ↓notRecording_held]

theorem takeOpen_held (s : State) (x1 : Sqe) : held (State.takeOpen s x1) = held s := by
  simp only [State.takeOpen]
  repeat' split
  all_goals try simp only [
    ↓fail_held, ↓noAbort_held, ↓doOpen_held]

theorem execTakeOpen_held (x0 : Sqe) (s : State) : ∀ t, execTakeOpen x0 s = .next t → held t = held s := by
  intro t h
  unfold execTakeOpen at h
  replace h := next_inj h
  subst h
  simp only [
    implies_true, ↓takeOpen_held, ↓settleDma_held, ↓fireDue_held,
    ↓admin_held]

theorem execFrameSegmentTimeout_held (s : State) : ∀ t, execFrameSegmentTimeout s = .next t → held t = held s := by
  intro t h
  unfold execFrameSegmentTimeout at h
  replace h := next_inj h
  subst h
  simp only [↓held_ite, ite_self,
    ↓frameTimeouts_held, ↓settleDma_held, ↓fireDue_held]

theorem firstSegment_held (s : State) (x1 : Sqe) : held (State.firstSegment s x1) = held s := by
  simp only [State.firstSegment]
  repeat' split
  all_goals try simp only [
    ↓fail_held, ↓countRefused_held, ↓modTakes_held,
    ↓acceptFirst_held]

theorem frameWrite_held (s : State) (x1 : Sqe) : held (State.frameWrite s x1) = held s := by
  simp only [State.frameWrite]
  repeat' split
  all_goals try simp only [
    ↓fail_held, ↓nextSegment_held, ↓fetched_held,
    ↓firstSegment_held]

theorem execFrameWrite_held (x0 : Sqe) (s : State) : ∀ t, execFrameWrite x0 s = .next t → held t = held s := by
  intro t h
  unfold execFrameWrite at h
  replace h := next_inj h
  subst h
  simp only [↓held_ite, ite_self,
    ↓settleDma_held, ↓frameWrite_held, ↓fireDue_held]

theorem execClosePointReached_held (s : State) : ∀ t, execClosePointReached s = .next t → held t = held s := by
  intro t h
  unfold execClosePointReached at h
  replace h := next_inj h
  subst h
  simp only [↓held_ite, ite_self,
    ↓settleDma_held, ↓fireDue_held]

theorem execTriggerStart_held (x0 : Sqe) (s : State) : ∀ t, execTriggerStart x0 s = .next t → held t = held s := by
  intro t h
  unfold execTriggerStart at h
  replace h := next_inj h
  subst h
  simp only [
    ↓triggerCmd_held]

theorem execTakeDelete_held (x0 : Sqe) (s : State) : ∀ t, execTakeDelete x0 s = .next t → held t = held s := by
  intro t h
  unfold execTakeDelete at h
  replace h := next_inj h
  subst h
  simp only [
    implies_true, ↓settleDma_held, ↓fireDue_held, ↓takeDelete_held,
    ↓admin_held]

theorem execScheduledTriggerFire_held (s : State) : ∀ t, execScheduledTriggerFire s = .next t → held t = held s := by
  intro t h
  unfold execScheduledTriggerFire at h
  replace h := next_inj h
  subst h
  simp only [↓held_ite, ite_self, ↓held_foldl,
    implies_true, ↓fireOne_held, ↓settleDma_held]

theorem closeAt_held (s : State) (x1 : Sqe) : held (State.closeAt s x1) = held s := by
  simp only [State.closeAt]
  repeat' split
  all_goals try simp only [
    ↓fail_held, ↓modTake_held, ↓succeed_held,
    ↓closeBroadcast_held]

theorem execTakeCloseAtTime_held (x0 : Sqe) (s : State) : ∀ t,
    execTakeCloseAtTime x0 s = .next t → held t = held s := by
  intro t h
  unfold execTakeCloseAtTime at h
  replace h := next_inj h
  subst h
  simp only [
    implies_true, ↓closeAt_held, ↓settleDma_held, ↓fireDue_held,
    ↓admin_held]

theorem execTakeCloseNow_held (x0 : Sqe) (s : State) : ∀ t, execTakeCloseNow x0 s = .next t → held t = held s := by
  intro t h
  unfold execTakeCloseNow at h
  replace h := next_inj h
  subst h
  simp only [
    implies_true, ↓settleDma_held, ↓fireDue_held, ↓closeNow_held,
    ↓admin_held]

theorem execTrigInEdge_held (x0 : Bool) (x1 : Nat) (x2 : Fin 201) (s : State) : ∀ t,
    execTrigInEdge x0 x1 x2 s = .next t → held t = held s := by
  intro t h
  unfold execTrigInEdge at h
  replace h := next_inj h
  subst h
  simp only [↓held_ite, ite_self,
    ↓trigInEdge_held, ↓settleDma_held]

theorem execTriggerStop_held (x0 : Sqe) (s : State) : ∀ t, execTriggerStop x0 s = .next t → held t = held s := by
  intro t h
  unfold execTriggerStop at h
  replace h := next_inj h
  subst h
  simp only [
    ↓triggerCmd_held]

theorem askMove_held (s : State) (x1 : Nat) : held (State.askMove s x1) = held s := by
  simp only [State.askMove,
    ↓modFtl_held]

theorem auditFind_held (s : State) (x1 : Stripe) (x2 : Band) (x3 : List (Nat × Nat)) (x4 : List (Nat × Bool)) : held
    (State.auditFind s x1 x2 x3 x4) = held s := by
  unfold State.auditFind
  repeat' first
    | simp only [↓held_ite, ite_self, ↓held_foldl,
        implies_true, ↓countUnreadable_held, ↓askMove_held,
        ↓countRebuilt_held, ↓stripeEvent_held, ↓modHealth_held, ↓suspect_held, ↓readCharge_held, ↓bump_held,
        ↓raise_held]
    | intro _
    | split
    | refine (held_foldl _ ?_ _ _).trans ?_
    | refine (held_foldl_fst _ ?_ _ _).trans ?_
    | refine (held_foldl_snd _ ?_ _ _).trans ?_

theorem auditEnd_held (s : State) : held (State.auditEnd s) = held s := by
  simp only [State.auditEnd,
    ↓modFtl_held, ↓modHealth_held, ↓wr_held]

theorem auditPass_held (s : State) (x1 : Act) (x2 : List (Nat × Nat)) (x3 : List (Nat × Bool)) : held (State.auditPass
    s x1 x2 x3) = held s := by
  simp only [State.auditPass]
  repeat' split
  all_goals try simp only [
    ↓wr_held, ↓auditEnd_held, ↓modFtl_held,
    ↓auditFind_held]

theorem audit_held (s : State) (x1 : List (Nat × Nat)) (x2 : List (Nat × Bool)) : held (State.audit s x1 x2) = held s
    := by
  simp only [State.audit]
  repeat' split
  all_goals try simp only [
    ↓auditFind_held, ↓auditPass_held]

theorem putMap_held (s : State) (x1 : Nat) (x2 : SMap MapEnt) : held (State.putMap s x1 x2) = held s := by
  simp only [State.putMap, ↓held_foldl,
    implies_true, ↓putPage_held, ↓putDirs_held, ↓modFtl_held]

theorem slowNow_held (s : State) (x1 : Nat) : held (State.slowNow s x1) = held s := by
  simp only [State.slowNow,
    ↓closeBandsOf_held, ↓setLink_held, ↓stripeEvent_held,
    ↓modHealth_held, ↓wr_held]

theorem slowTick_held (s : State) : held (State.slowTick s) = held s := by
  simp only [State.slowTick, ↓held_ite, ite_self, ↓held_foldl,
    implies_true, ↓modFtl_held, ↓slowNow_held]

theorem dropErased_held (s : State) (x1 : Band) : held (State.dropErased s x1) = held s := by
  simp only [State.dropErased,
    ↓modFtl_held]

theorem shredSettle_held (s : State) : held (State.shredSettle s) = held s := by
  simp only [State.shredSettle, ↓held_ite, ite_self,
    ↓held_foldl, implies_true, ↓modFtl_held, ↓complete_held]

theorem eraseEnd_held (s : State) (x1 : Nat) (x2 : Nat) (x3 : Bool) : held (State.eraseEnd s x1 x2 x3) = held s := by
  simp only [State.eraseEnd]
  repeat' split
  all_goals try simp only [
    ↓shredSettle_held, ↓setBlk_held, ↓modBand_held,
    ↓record_held, ↓dropErased_held, ↓modFtl_held, ↓retireBlock_held, ↓tally_held]

theorem freeBandsNow_held (s : State) : held (State.freeBandsNow s) = held s := by
  simp only [State.freeBandsNow, ↓held_ite, ite_self,
    ↓held_foldl, implies_true, ↓setBlk_held, ↓jput_held, ↓modBand_held]

theorem putNsTable_held (s : State) : held (State.putNsTable s) = held s := by
  simp only [State.putNsTable,
    ↓putMeta_held]

theorem startCheckpoint_held (s : State) : held (State.startCheckpoint s) = held s := by
  simp only [State.startCheckpoint, ↓held_ite, ite_self,
    ↓putNsTable_held, ↓modFtl_held,
    ↓freeBandsNow_held, ↓putMap_held, ↓settleStripes_held, ↓raise_held]

theorem shredGo_held (s : State) : held (State.shredGo s) = held s := by
  simp only [State.shredGo, ↓held_ite, ite_self,
    ↓startCheckpoint_held, ↓freeBandsNow_held]

theorem foldDecide_held (s : State) : held (State.foldDecide s) = held s := by
  simp only [State.foldDecide, ↓held_ite, ite_self,
    ↓wr_held]

theorem foldAt_held (s : State) (x1 : Nat) (x2 : Verdict) (x3 : Ns) (x4 : Nat) (x5 : Nat) (x6 : Nat) (x7 : Nat) : ∀ t,
    State.foldAt s x1 x2 x3 x4 x5 x6 x7 = some t → held t = held s := by
  intro t h
  unfold State.foldAt at h
  repeat' first
    | split at h
    | dsimp only at h
  all_goals try simp only [Option.some.injEq, reduceCtorEq] at h
  all_goals first
    | contradiction
    | obtain ⟨rfl, rfl⟩ := h
    | subst h
    | skip
  all_goals
    try have hh := takeSeq_held _ _ _ ‹State.takeSeq _ = some (_, _)›
    try have hh := congrArg (fun p => held p.1) ‹State.readAt _ _ _ _ _ = _›
    try simp only [
      ↓laneUse_held, ↓putAt_held, ↓countEncrypt_held,
      ↓readAt_held] at *
  all_goals try simp_all only []

theorem fold_held (s : State) (x1 : Nat) (x2 : Nat) (x3 : Verdict) (x4 : Nat) (x5 : Nat) : held (State.fold s x1 x2 x3
    x4 x5) = held s := by
  unfold State.fold
  dsimp only
  split
  · rfl
  · split
    · rfl
    · rename_i s1 b h1
      split
      · rfl
      · rename_i s2 st h2
        split
        · rename_i t ht
          simp only [↓freeBandsNow_held, ↓settle_held, ↓raiseCeil_held, ↓closeIfFull_held,
            ↓moved_held]
          rw [readCharge_held,
              held_foldl_opt _ (fun _ => rfl) (fun t x u e => foldAt_held t _ _ _ _ _ _ _ u e) _ _ _ ht,
            modStripe_held, beginStripe_held _ _ _ _ h2, bandWithRoom_held _ _ _ _ _ _ h1]
        · rfl

theorem probeErase_held (s : State) (x1 : Nat) : held (State.probeErase s x1) = held s := by
  simp only [State.probeErase,
    ↓setBlk_held, ↓modFtl_held]

theorem rebuildMoved_held (s : State) (x1 : State) : held (State.rebuildMoved s x1) = held s := by
  simp only [State.rebuildMoved, ↓held_ite, ite_self,
    ↓rebuildWrote_held]

theorem noteLatency_held (s : State) (x1 : Nat) (x2 : Nat) : held (State.noteLatency s x1 x2) = held s := by
  simp only [State.noteLatency, ↓held_ite, ite_self,
    ↓modFtl_held, ↓histAdd_held, ↓wr_held,
    ↓slowNow_held]

theorem cpGo_held (s : State) : held (State.cpGo s) = held s := by
  simp only [State.cpGo, ↓held_ite, ite_self,
    ↓startCheckpoint_held]

theorem cpDurable_held (s : State) : held (State.cpDurable s) = held s := by
  simp only [State.cpDurable]
  repeat' split
  all_goals try simp only [
    ↓cpGo_held, ↓startCheckpoint_held, ↓wr_held,
    ↓modFtl_held, ↓pruneMetas_held]

theorem mapUnreadable_held (s : State) (x1 : Nat) (x2 : Nat) : held (State.mapUnreadable s x1 x2) = held s := by
  simp only [State.mapUnreadable,
    ↓modFtl_held]

theorem relocate_held (s : State) (x1 : Nat) (x2 : Nat) (x3 : Verdict) (x4 : Nat) : held (State.relocate s x1 x2 x3 x4)
    = held s := by
  unfold State.relocate
  repeat' first
    | simp only [↓held_ite,
        ↓laneUse_held, ↓raiseCeil_held, ↓moved_held,
        ↓mapUnreadable_held, ↓countEncrypt_held, ↓shredGo_held, ↓readAt_held, ↓settle_held, ↓readCharge_held,
        ↓freeBandsNow_held]
    | intro _
    | split
    | refine (held_foldl _ ?_ _ _).trans ?_
    | refine (held_foldl_fst _ ?_ _ _).trans ?_
    | refine (held_foldl_snd _ ?_ _ _).trans ?_
  all_goals
    try have hh := assemble_held _ _ _ _ _ _ _ ‹State.assemble _ _ _ _ _ = some (_, _)›
    try have hh := takeSeq_held _ _ _ ‹State.takeSeq _ = some (_, _)›
    try have hh := congrArg (fun p => held p.1) ‹State.readAt _ _ _ _ _ = _›
    try simp only [

      ↓readAt_held] at *
  all_goals try simp_all only []

theorem relocateNext_held (s : State) (x1 : Nat) (x2 : Nat) (x3 : Nat) (x4 : Verdict) : held (State.relocateNext s x1
    x2 x3 x4) = held s := by
  simp only [State.relocateNext, ↓held_ite,

    ↓gcDecide_held, ↓foldDecide_held]
  repeat' split
  all_goals try simp only [
    ↓shredGo_held, ↓relocate_held, ↓rebuildSettle_held,
    ↓rebuildMoved_held, ↓freeBandsNow_held, ↓fold_held, ↓gcDecide_held, ↓foldDecide_held]

theorem probeOne_held (s : State) (x1 : Nat) (x2 : Nat) : held (State.probeOne s x1 x2) = held s := by
  simp only [State.probeOne, ↓held_ite,
    ↓raiseCeil_held]
  repeat' split
  all_goals try simp only [↓held_foldl,
    implies_true, ↓wr_held, ↓setBlk_held,
    ↓noteLatency_held, ↓probeErase_held, ↓modFtl_held, ↓setLink_held, ↓moved_held, ↓stripeEvent_held, ↓tally_held]

theorem execStripeCloseTimer_held (x0 : Nat) (s : State) : ∀ t,
    execStripeCloseTimer x0 s = .next t → held t = held s := by
  intro t h
  unfold execStripeCloseTimer at h
  replace h := next_inj h
  subst h
  simp only [↓held_ite, ite_self,
    ↓closeStripe_held, ↓settleDma_held]

theorem execSlowProbe_held (x0 : Fin 512) (x1 : List Nat) (s : State) : ∀ t,
    execSlowProbe x0 x1 s = .next t → held t = held s := by
  intro t h
  unfold execSlowProbe at h
  replace h := next_inj h
  subst h
  simp only [↓held_ite, ite_self, ↓held_foldl,
    implies_true, ↓probeOne_held, ↓settleDma_held]

theorem execWriteZeroes_held (x0 : Sqe) (s : State) : ∀ t, execWriteZeroes x0 s = .next t → held t = held s := by
  intro t h
  unfold execWriteZeroes at h
  replace h := next_inj h
  subst h
  simp only [↓held_ite, ite_self,
    ↓settleDma_held, ↓dealloc_held]

theorem execSectorEncrypted_held (x0 : Fin 16) (x1 : Nat) (x2 : Nat) (x3 : Option Bool) (s : State) : ∀ t,
    execSectorEncrypted x0 x1 x2 x3 s = .next t → held t = held s := by
  intro t h
  unfold execSectorEncrypted at h
  replace h := next_inj h
  subst h
  repeat' first
    | simp only [↓held_ite,
        ↓settleDma_held, ↓encryptNext_held]
    | intro _
    | split
    | refine (held_foldl _ ?_ _ _).trans ?_
    | refine admin_held _ _ _ _ ?_
    | refine mbServe_held _ _ _ _ ?_
    | refine withSeqs_held _ _ _ _ _ ?_
    | refine fittingOr_held _ _ _ ?_

theorem execShred_held (x0 : Sqe) (s : State) : ∀ t, execShred x0 s = .next t → held t = held s := by
  intro t h
  unfold execShred at h
  replace h := next_inj h
  subst h
  simp only [↓held_ite, ite_self,
    ↓shred_held, ↓settleDma_held]

theorem execCheckpointDurable_held (s : State) : ∀ t, execCheckpointDurable s = .next t → held t = held s := by
  intro t h
  unfold execCheckpointDurable at h
  replace h := next_inj h
  subst h
  simp only [↓held_ite, ite_self,
    ↓cpDurable_held, ↓settleDma_held]

theorem execDatasetManagement_held (x0 : Sqe) (s : State) : ∀ t,
    execDatasetManagement x0 s = .next t → held t = held s := by
  intro t h
  unfold execDatasetManagement at h
  replace h := next_inj h
  subst h
  simp only [↓held_ite, ite_self,
    ↓datasetMgmt_held, ↓settleDma_held]

theorem execAuditStripe_held (x0 : List (Nat × Nat)) (x1 : List (Nat × Bool)) (s : State) : ∀ t,
    execAuditStripe x0 x1 s = .next t → held t = held s := by
  intro t h
  unfold execAuditStripe at h
  replace h := next_inj h
  subst h
  simp only [↓held_ite, ite_self,
    ↓settleDma_held, ↓audit_held]

theorem execGarbageCollectionRelocate_held (x0 : Fin 5) (x1 : Fin 16) (x2 : Nat) (x3 : List (Nat × Fin 3)) (x4 : List
    Nat) (s : State) : ∀ t, execGarbageCollectionRelocate x0 x1 x2 x3 x4 s = .next t → held t = held s := by
  intro t h
  unfold execGarbageCollectionRelocate at h
  replace h := next_inj h
  subst h
  simp only [↓held_ite, ite_self,
    ↓relocateNext_held, ↓settleDma_held]

theorem execSlowClassifyTick_held (s : State) : ∀ t, execSlowClassifyTick s = .next t → held t = held s := by
  intro t h
  unfold execSlowClassifyTick at h
  replace h := next_inj h
  subst h
  simp only [↓held_ite, ite_self,
    ↓slowTick_held, ↓settleDma_held]

theorem execFineTableWaitProceed_held (s : State) : ∀ t, execFineTableWaitProceed s = .next t → held t = held s := by
  intro t h
  unfold execFineTableWaitProceed at h
  replace h := next_inj h
  subst h
  simp only [↓held_ite, ite_self,
    ↓fineProceed_held, ↓settleDma_held]

theorem modCph_held (s : State) (x1 : Cph → Cph) : held (State.modCph s x1) = held s := by
  simp only [State.modCph, held_mk, held_fold]

theorem setKeyOp_held (s : State) (x1 : KeyOp) : held (State.setKeyOp s x1) = held s := by
  simp only [State.setKeyOp,
    ↓modCph_held]

theorem showKeyBusy_held (s : State) : held (State.showKeyBusy s) = held s := by
  simp only [State.showKeyBusy,
    ↓wr_held]

theorem beginKeyOp_held (s : State) (x1 : KeyOp) : held (State.beginKeyOp s x1) = held s := by
  simp only [State.beginKeyOp,
    ↓setKeySlot_held, ↓showKeyBusy_held,
    ↓modCph_held]

theorem newSalt_held (s : State) (x1 : Option Word) : held (State.newSalt s x1).2 = held s := by
  simp only [State.newSalt]
  repeat' split
  all_goals try simp only [
    ↓genBytes_held]

theorem fillSlot_held (s : State) (x1 : Nat) : held (State.fillSlot s x1) = held s := by
  simp only [State.fillSlot, ↓held_ite, ite_self,
    ↓beginKeyOp_held, ↓newSalt_held, ↓genBytes_held]

theorem trimAll_held (s : State) (x1 : Ns) : ∀ y t, State.trimAll s x1 = some (y, t) → held t = held s := by
  intro y t h
  unfold State.trimAll at h
  split at h
  · contradiction
  · rw [Option.map_eq_some_iff] at h
    obtain ⟨u, hu, e⟩ := h
    cases e
    exact trim_held _ _ _ _ _ hu

theorem klTrims_held (s : State) (x1 : Sqe) : held (State.klTrims s x1).1 = held s := by
  unfold State.klTrims
  repeat' first
    | simp only [↓held_fst_ite]
    | intro _
    | split
    | refine (held_foldl _ ?_ _ _).trans ?_
    | refine (held_foldl_fst _ ?_ _ _).trans ?_
    | refine (held_foldl_snd _ ?_ _ _).trans ?_
  all_goals
    try have hh := trimAll_held _ _ _ _ ‹State.trimAll _ _ = some (_, _)›
    try simp only [id_eq, held_mk, held_fold, ↓held_ite, ↓held_fst_ite, ↓held_snd_ite, ite_self, ↓held_foldl,
      ↓held_foldl_fst, ↓held_foldl_snd, ↓held_foldr, implies_true] at *
  all_goals try simp_all only []

theorem clearSlot_held (s : State) (x1 : Nat) : held (State.clearSlot s x1) = held s := by
  simp only [State.clearSlot,
    ↓setKeySlot_held, ↓retireKeys_held,
    ↓modCph_held]

theorem dropKeyOp_held (s : State) (x1 : Nat) : held (State.dropKeyOp s x1) = held s := by
  simp only [State.dropKeyOp,
    ↓modCph_held]

theorem keyOpEnd_held (s : State) (x1 : KeyOp) : held (State.keyOpEnd s x1) = held s := by
  simp only [State.keyOpEnd,
    ↓progress_held, ↓compactKeys_held
    ]
  repeat' split
  all_goals try simp only [
    ↓showKeyBusy_held,
    ↓dropKeyOp_held, ↓complete_held]

theorem keyOpStep_held (s : State) (x1 : KeyOp) : held (State.keyOpStep s x1) = held s := by
  simp only [State.keyOpStep, ↓held_ite, ite_self,
    ↓setKeyOp_held, ↓keyOpEnd_held,
    ↓clearSlot_held, ↓putKeyRec_held, ↓installKey_held, ↓retireKeys_held]

theorem keyRecordDurable_held (s : State) (x1 : Nat) : held (State.keyRecordDurable s x1) = held s := by
  simp only [State.keyRecordDurable]
  repeat' split
  all_goals try simp only [
    ↓reserveDurable_held, ↓keyOpStep_held]

theorem keyLoadGo_held (s : State) (x1 : Sqe) : held (State.keyLoadGo s x1) = held s := by
  simp only [State.keyLoadGo, ↓held_snd_ite, ite_self,
    ↓newLoadKey_held, ↓genBytes_held,
    ↓klTrims_held, ↓beginKeyOp_held, ↓wr_held, ↓newSalt_held]

theorem keyLoad_held (s : State) (x1 : Sqe) : held (State.keyLoad s x1) = held s := by
  simp only [State.keyLoad]
  repeat' split
  all_goals try simp only [
    implies_true, ↓slotEvent_held, ↓fail_held, ↓noAbort_held,
    ↓withSeqs_held, ↓keyLoadGo_held]

theorem execKeyLoadLoad_held (x0 : Sqe) (s : State) : ∀ t, execKeyLoadLoad x0 s = .next t → held t = held s := by
  intro t h
  unfold execKeyLoadLoad at h
  replace h := next_inj h
  subst h
  simp only [
    implies_true, ↓settleDma_held, ↓keyLoad_held, ↓admin_held]

theorem execKeyLoadGenerate_held (x0 : Sqe) (s : State) : ∀ t,
    execKeyLoadGenerate x0 s = .next t → held t = held s := by
  intro t h
  unfold execKeyLoadGenerate at h
  replace h := next_inj h
  subst h
  simp only [
    implies_true, ↓settleDma_held, ↓keyLoad_held, ↓admin_held]

theorem execKeyLoadClear_held (x0 : Sqe) (s : State) : ∀ t, execKeyLoadClear x0 s = .next t → held t = held s := by
  intro t h
  unfold execKeyLoadClear at h
  replace h := next_inj h
  subst h
  simp only [
    implies_true, ↓settleDma_held, ↓keyLoad_held, ↓admin_held]

theorem createSq_held (s : State) (x1 : Sqe) : held (State.createSq s x1) = held s := by
  simp only [State.createSq]
  repeat' split
  all_goals try simp only [
    ↓fail_held, ↓setCtrl_held, ↓succeed_held]

theorem emptyTakes_held (s : State) : held (State.emptyTakes s) = held s := by
  simp only [State.emptyTakes,
    ↓modTakes_held]

theorem badDoorbell_held (s : State) (x1 : Nat) (x2 : Nat) : held (State.badDoorbell s x1 x2) = held s := by
  simp only [State.badDoorbell,
    ↓aen_held]

theorem cqDoorbell_held (s : State) (x1 : Nat) (x2 : Nat) (x3 : Nat) : held (State.cqDoorbell s x1 x2 x3) = held s := by
  simp only [State.cqDoorbell]
  repeat' split
  all_goals try simp only [
    ↓badDoorbell_held, ↓modCtrl_held]

theorem execCqHeadDoorbell_held (x0 : Fin 4) (x1 : Nat) (x2 : Nat) (s : State) : ∀ t,
    execCqHeadDoorbell x0 x1 x2 s = .next t → held t = held s := by
  intro t h
  unfold execCqHeadDoorbell at h
  replace h := next_inj h
  subst h
  simp only [↓held_ite, ite_self,
    ↓cqDoorbell_held]

theorem aer_held (s : State) (x1 : Sqe) : held (State.aer s x1) = held s := by
  simp only [State.aer]
  repeat' split
  all_goals try simp only [
    ↓fail_held, ↓post_held, ↓setCtrl_held]

theorem modSan_held (s : State) (x1 : Sanitize → Sanitize) : held (State.modSan s x1) = held s := by
  simp only [State.modSan, held_mk, held_fold]

theorem sanNewKeys_held (s : State) : held (State.sanNewKeys s) = held s := by
  simp only [State.sanNewKeys, ↓held_ite, ite_self,
    ↓held_foldl, implies_true, ↓genBytes_held, ↓beginKeyOp_held,
    ↓modSan_held]

theorem freshMeta_held (s : State) : held (State.freshMeta s) = held s := by
  simp only [State.freshMeta,
    ↓modFtl_held, ↓wr_held]

theorem sanEnd_held (s : State) (x1 : Bool) : held (State.sanEnd s x1) = held s := by
  simp only [State.sanEnd,
    ↓modFtl_held, ↓modSan_held]

theorem sanStep_held (s : State) : held (State.sanStep s) = held s := by
  unfold State.sanStep
  dsimp only
  split
  · simp only [↓held_ite, ↓sanEnd_held, ↓freshMeta_held, ↓modSan_held, ite_self]
  · split
    · split
      · exact sanEnd_held _ _
      · split
        · split
          · rename_i s2 h2
            rw [sanEnd_held, emptyTakes_held, held_foldl_opt _ (fun _ => rfl) ?_ _ _ _ h2, sanNewKeys_held]
            intro t x u e
            dsimp only at e
            rw [Option.map_eq_some_iff] at e
            obtain ⟨p, hp, rfl⟩ := e
            exact trimAll_held _ _ _ _ hp
          · rw [raiseCeil_held, sanNewKeys_held]
        · exact sanNewKeys_held _
    · rfl

theorem showReady_held (s : State) : held (State.showReady s) = held s := by
  simp only [State.showReady, held_mk, held_fold, ↓held_ite, ite_self,
    ↓held_foldl, implies_true, ↓modCtrl_held]

theorem enable_held (s : State) (x1 : Nat) (x2 : Nat) (x3 : Nat) : held (State.enable s x1 x2 x3) = held s := by
  simp only [State.enable, ↓held_ite, ite_self,
    ↓showReady_held, ↓setCtrl_held]

theorem execCcEnSet_held (x0 : Fin 4) (x1 : Fin 4096) (x2 : Fin 4096) (s : State) : ∀ t,
    execCcEnSet x0 x1 x2 s = .next t → held t = held s := by
  intro t h
  unfold execCcEnSet at h
  replace h := next_inj h
  subst h
  simp only [↓held_ite, ite_self,
    ↓enable_held]

theorem execAsynchronousEventRequest_held (x0 : Sqe) (s : State) : ∀ t,
    execAsynchronousEventRequest x0 s = .next t → held t = held s := by
  intro t h
  unfold execAsynchronousEventRequest at h
  replace h := next_inj h
  subst h
  simp only [↓held_ite, ite_self,
    implies_true, ↓aer_held, ↓admin_held]

theorem nsChanged_held (s : State) (x1 : Nat) : held (State.nsChanged s x1) = held s := by
  simp only [State.nsChanged, ↓held_ite, ite_self,
    ↓held_foldl, implies_true, ↓setCtrl_held, ↓aen_held]

theorem nsDelete_held (s : State) (x1 : Ns) : held (State.nsDelete s x1) = held s := by
  unfold State.nsDelete
  repeat' split
  all_goals
    try have hh := trimAll_held _ _ _ _ ‹State.trimAll _ _ = some (_, _)›
    try simp only [held_mk, held_fold,
      ↓jput_held, ↓nsChanged_held, ↓modFtl_held] at *
  all_goals try simp_all only []

theorem emptyVolume_held (s : State) : held (State.emptyVolume s) = held s := by
  simp only [State.emptyVolume,
    ↓modFtl_held, ↓emptyTakes_held]

theorem nsDeleteCmd_held (s : State) (x1 : Sqe) : held (State.nsDeleteCmd s x1) = held s := by
  simp only [State.nsDeleteCmd, ↓held_ite,
    ↓held_foldl, implies_true, ↓withSeqs_held,
    ↓complete_held, ↓nsDelete_held]
  repeat' split
  all_goals try simp only [
    implies_true, ↓fail_held, ↓withSeqs_held,
    ↓succeed_held, ↓nsDelete_held]

theorem execNamespaceDelete_held (x0 : Sqe) (s : State) : ∀ t,
    execNamespaceDelete x0 s = .next t → held t = held s := by
  intro t h
  unfold execNamespaceDelete at h
  replace h := next_inj h
  subst h
  simp only [
    implies_true, ↓nsDeleteCmd_held, ↓settleDma_held, ↓admin_held]

theorem sanBlocks_held (s : State) : held (State.sanBlocks s) = held s := by
  simp only [State.sanBlocks, ↓held_ite, ite_self,
    ↓held_foldl, implies_true, ↓setBlk_held, ↓modSan_held,
    ↓emptyVolume_held, ↓modFtl_held]

theorem sanKeys_held (s : State) : held (State.sanKeys s) = held s := by
  simp only [State.sanKeys,
    ↓modSan_held]

theorem sanBegin_held (s : State) : held (State.sanBegin s) = held s := by
  simp only [State.sanBegin, ↓held_ite, ite_self,
    ↓sanKeys_held, ↓modSan_held, ↓sanBlocks_held]

theorem sanStop_held (s : State) : held (State.sanStop s) = held s := by
  simp only [State.sanStop, held_mk, held_fold, ↓held_foldl,
    implies_true, ↓failWrite_held, ↓showFineWait_held, ↓modFtl_held,
    ↓fail_held, ↓modPath_held]

theorem sanitize_held (s : State) (x1 : Sqe) (x2 : Nat) : held (State.sanitize s x1 x2) = held s := by
  simp only [State.sanitize]
  repeat' split
  all_goals try simp only [
    ↓fail_held, ↓sanStep_held, ↓modSan_held,
    ↓succeed_held, ↓sanBegin_held, ↓sanStop_held]

theorem execSanitizeBlockErase_held (x0 : Sqe) (s : State) : ∀ t,
    execSanitizeBlockErase x0 s = .next t → held t = held s := by
  intro t h
  unfold execSanitizeBlockErase at h
  replace h := next_inj h
  subst h
  simp only [
    implies_true, ↓sanitize_held, ↓settleDma_held, ↓admin_held]

theorem execNamespaceCreate_held (x0 : Sqe) (s : State) : ∀ t,
    execNamespaceCreate x0 s = .next t → held t = held s := by
  intro t h
  unfold execNamespaceCreate at h
  replace h := next_inj h
  subst h
  simp only [
    implies_true, ↓fail_held, ↓admin_held]

theorem execSanitizeOverwrite_held (x0 : Sqe) (s : State) : ∀ t,
    execSanitizeOverwrite x0 s = .next t → held t = held s := by
  intro t h
  unfold execSanitizeOverwrite at h
  replace h := next_inj h
  subst h
  simp only [
    implies_true, ↓fail_held, ↓admin_held]

theorem sanExit_held (s : State) (x1 : Sqe) : held (State.sanExit s x1) = held s := by
  simp only [State.sanExit]
  repeat' split
  all_goals try simp only [
    ↓fail_held, ↓modSan_held, ↓succeed_held]

theorem execSanitizeExitFailureMode_held (x0 : Sqe) (s : State) : ∀ t,
    execSanitizeExitFailureMode x0 s = .next t → held t = held s := by
  intro t h
  unfold execSanitizeExitFailureMode at h
  replace h := next_inj h
  subst h
  simp only [
    implies_true, ↓sanExit_held, ↓admin_held]

theorem execInvalidCommandOpcode_held (x0 : Sqe) (s : State) : ∀ t,
    execInvalidCommandOpcode x0 s = .next t → held t = held s := by
  intro t h
  unfold execInvalidCommandOpcode at h
  replace h := next_inj h
  subst h
  simp only [
    implies_true, ↓fail_held, ↓admin_held]

theorem execSanitizeCryptoErase_held (x0 : Sqe) (s : State) : ∀ t,
    execSanitizeCryptoErase x0 s = .next t → held t = held s := by
  intro t h
  unfold execSanitizeCryptoErase at h
  replace h := next_inj h
  subst h
  simp only [
    implies_true, ↓sanitize_held, ↓settleDma_held, ↓admin_held]

theorem fetch_held (s : State) (x1 : Nat) (x2 : Nat) : held (State.fetch s x1 x2) = held s := by
  simp only [State.fetch]
  repeat' split
  all_goals try simp only [held_mk, held_fold,
    ↓setCtrl_held]

theorem execCommandFetch_held (x0 : Fin 4) (x1 : Nat) (s : State) : ∀ t,
    execCommandFetch x0 x1 s = .next t → held t = held s := by
  intro t h
  unfold execCommandFetch at h
  replace h := next_inj h
  subst h
  simp only [↓held_ite, ite_self,
    ↓fetch_held]

theorem createCq_held (s : State) (x1 : Sqe) : held (State.createCq s x1) = held s := by
  simp only [State.createCq]
  repeat' split
  all_goals try simp only [
    ↓fail_held, ↓setCtrl_held, ↓succeed_held]

theorem execCreateIoCq_held (x0 : Sqe) (s : State) : ∀ t, execCreateIoCq x0 s = .next t → held t = held s := by
  intro t h
  unfold execCreateIoCq at h
  replace h := next_inj h
  subst h
  simp only [↓held_ite, ite_self,
    implies_true, ↓createCq_held, ↓admin_held]

theorem dropQueue_held (s : State) (x1 : Nat) (x2 : Nat) : held (State.dropQueue s x1 x2) = held s := by
  simp only [State.dropQueue,
    ↓held_foldl, implies_true, ↓modPath_held, ↓failWrite_held,
    ↓postEnded_held, ↓modTakes_held]

theorem deleteSq_held (s : State) (x1 : Sqe) : held (State.deleteSq s x1) = held s := by
  simp only [State.deleteSq, ↓held_ite, ite_self,
    ↓fail_held, ↓dropQueue_held, ↓modCtrl_held,
    ↓succeed_held]

theorem sqDoorbell_held (s : State) (x1 : Nat) (x2 : Nat) (x3 : Nat) : held (State.sqDoorbell s x1 x2 x3) = held s := by
  simp only [State.sqDoorbell, ↓held_ite,
    ↓wake_held,
    ↓modPwr_held]
  repeat' split
  all_goals try simp only [
    ↓wake_held, ↓badDoorbell_held,
    ↓modCtrl_held]

theorem execSqTailDoorbell_held (x0 : Fin 4) (x1 : Nat) (x2 : Nat) (s : State) : ∀ t,
    execSqTailDoorbell x0 x1 x2 s = .next t → held t = held s := by
  intro t h
  unfold execSqTailDoorbell at h
  replace h := next_inj h
  subst h
  simp only [↓held_ite, ite_self,
    ↓sqDoorbell_held]

theorem deleteCq_held (s : State) (x1 : Sqe) : held (State.deleteCq s x1) = held s := by
  simp only [State.deleteCq, ↓held_ite, ite_self,
    ↓fail_held, ↓setCtrl_held, ↓succeed_held]

theorem execDeleteIoCq_held (x0 : Sqe) (s : State) : ∀ t, execDeleteIoCq x0 s = .next t → held t = held s := by
  intro t h
  unfold execDeleteIoCq at h
  replace h := next_inj h
  subst h
  simp only [↓held_ite, ite_self,
    implies_true, ↓deleteCq_held, ↓admin_held]

theorem execKeyRecordDurable_held (x0 : Fin 1024) (s : State) : ∀ t,
    execKeyRecordDurable x0 s = .next t → held t = held s := by
  intro t h
  unfold execKeyRecordDurable at h
  replace h := next_inj h
  subst h
  simp only [↓held_ite, ite_self,
    ↓settleDma_held, ↓keyRecordDurable_held, ↓sanStep_held]

theorem shutdown_held (s : State) (x1 : Fin 4) (x2 : Nat) : held (State.shutdown s x1 x2) = held s := by
  simp only [State.shutdown, ↓held_ite, ite_self,
    ↓modPath_held, ↓modCtrl_held]

theorem execCcShnWrite_held (x0 : Fin 4) (x1 : Fin 4) (s : State) : ∀ t,
    execCcShnWrite x0 x1 s = .next t → held t = held s := by
  intro t h
  unfold execCcShnWrite at h
  replace h := next_inj h
  subst h
  simp only [↓held_ite, ite_self,
    ↓settleDma_held, ↓shutdown_held]

theorem abortOne_held (s : State) (x1 : Nat) (x2 : Nat) (x3 : Nat) : ∀ t,
    State.abortOne s x1 x2 x3 = some t → held t = held s := by
  intro t h
  unfold State.abortOne at h
  repeat' first
    | split at h
    | dsimp only at h
  all_goals try simp only [Option.some.injEq, reduceCtorEq] at h
  all_goals first
    | contradiction
    | obtain ⟨rfl, rfl⟩ := h
    | subst h
    | skip
  all_goals try simp only [
    ↓setCtrl_held, ↓postEnded_held, ↓modTakes_held,
    ↓failWrite_held, ↓showFineWait_held, ↓dropWrite_held, ↓progress_held, ↓modPath_held] at *

theorem identify_held (s : State) (x1 : Sqe) : held (State.identify s x1) = held s := by
  simp only [State.identify, ↓held_ite, ite_self,
    ↓fail_held, ↓complete_held]
  repeat' split
  all_goals try simp only [
    ↓fail_held, ↓complete_held]

theorem execCreateIoSq_held (x0 : Sqe) (s : State) : ∀ t, execCreateIoSq x0 s = .next t → held t = held s := by
  intro t h
  unfold execCreateIoSq at h
  replace h := next_inj h
  subst h
  simp only [↓held_ite, ite_self,
    implies_true, ↓createSq_held, ↓admin_held]

theorem abortCmd_held (s : State) (x1 : Sqe) : held (State.abortCmd s x1) = held s := by
  unfold State.abortCmd
  repeat' split
  all_goals
    try have hh := abortOne_held _ _ _ _ _ ‹State.abortOne _ _ _ _ = some _›
    try simp only [
      ↓complete_held] at *
  all_goals try simp_all only []

theorem execIdentify_held (x0 : Sqe) (s : State) : ∀ t, execIdentify x0 s = .next t → held t = held s := by
  intro t h
  unfold execIdentify at h
  replace h := next_inj h
  subst h
  simp only [
    implies_true, ↓identify_held, ↓admin_held]

theorem execAbortCommand_held (x0 : Sqe) (s : State) : ∀ t, execAbortCommand x0 s = .next t → held t = held s := by
  intro t h
  unfold execAbortCommand at h
  replace h := next_inj h
  subst h
  simp only [↓held_ite, ite_self,
    implies_true, ↓abortCmd_held, ↓settleDma_held, ↓admin_held]

theorem execDeleteIoSq_held (x0 : Sqe) (s : State) : ∀ t, execDeleteIoSq x0 s = .next t → held t = held s := by
  intro t h
  unfold execDeleteIoSq at h
  replace h := next_inj h
  subst h
  simp only [↓held_ite, ite_self,
    implies_true, ↓settleDma_held, ↓deleteSq_held, ↓admin_held]

theorem sanErase_held (s : State) (x1 : Nat × Nat × Nat) (x2 : Bool) : held (State.sanErase s x1 x2) = held s := by
  simp only [State.sanErase, ↓held_ite, ite_self,
    ↓retireBlock_held, ↓setBlk_held, ↓sanStep_held,
    ↓tally_held, ↓modSan_held]

end Sys2Proof.Laws
end

