-- ==== Sys2Proof/Laws/HeldFlash.lean ====
section
/-!
SUPPORT. Laws/HeldFlash.lean: what `held` covers, through the operations of
links, Sleeves, microcode words, capsules, DRAM and the flush.
-/
namespace Sys2Proof.Laws
open Sys2Proof.Machine

theorem setLnk_held (s : State) (x1 : Nat) (x2 : Lnk) : held (State.setLnk s x1 x2) = held s := by
  simp only [State.setLnk, held_mk, held_fold]

theorem modLnk_held (s : State) (x1 : Nat) (x2 : Lnk → Lnk) : held (State.modLnk s x1 x2) = held s := by
  simp only [State.modLnk,
    ↓setLnk_held]

theorem modSlv_held (s : State) (x1 : Slvs → Slvs) : held (State.modSlv s x1) = held s := by
  simp only [State.modSlv, held_mk, held_fold]

theorem modDie_held (s : State) (x1 : Nat) (x2 : Nat) (x3 : DieSt → DieSt) : held (State.modDie s x1 x2 x3) = held s :=
    by
  simp only [State.modDie,
    ↓modSlv_held]

theorem putFlit_held (s : State) (x1 : Nat) (x2 : Nat) (x3 : Nat) (x4 : Nat) (x5 : Bool) (x6 : List Byte) : held
    (State.putFlit s x1 x2 x3 x4 x5 x6) = held s := by
  simp only [State.putFlit,
    ↓modLnk_held]

theorem setCredit_held (s : State) (x1 : Nat) (x2 : Nat) (x3 : Nat) : held (State.setCredit s x1 x2 x3) = held s := by
  simp only [State.setCredit, ↓held_ite, ite_self,
    ↓wr_held]

theorem sendFlit_held (s : State) (x1 : Nat) : ∀ t, State.sendFlit s x1 = some t → held t = held s := by
  intro t h
  unfold State.sendFlit at h
  repeat' first
    | split at h
    | dsimp only at h
  all_goals try simp only [Option.some.injEq, reduceCtorEq] at h
  all_goals first
    | contradiction
    | obtain ⟨rfl, rfl⟩ := h
    | subst h
    | skip
  all_goals try simp only [
    ↓putFlit_held, ↓wr_held, ↓setCredit_held,
    ↓setLnk_held] at *

theorem pumpFlits_held (x0 : Nat) (s : State) (x2 : Nat) : held (State.pumpFlits x0 s x2) = held s := by
  induction x0 generalizing s with
  | zero => rfl
  | succ n ih =>
    rw [State.pumpFlits]
    split
    · rename_i t h
      rw [ih, sendFlit_held _ _ _ h]
    · rfl

theorem addTag_held (s : State) (x1 : Nat) (x2 : Tag) : held (State.addTag s x1 x2) = held s := by
  simp only [State.addTag,
    ↓modLnk_held]

theorem pump_held (s : State) (x1 : Nat) : held (State.pump s x1) = held s := by
  simp only [State.pump, ↓held_ite, ite_self,
    ↓pumpFlits_held]

theorem sendCapFor_held (s : State) (x1 : Nat) (x2 : Option Nat) (x3 : Nat) (x4 : List Byte) (x5 : Option (Nat × Nat ×
    Nat)) : held (State.sendCapFor s x1 x2 x3 x4 x5) = held s := by
  simp only [State.sendCapFor,
    ↓modLnk_held, ↓pump_held]

theorem sendCap_held (s : State) (x1 : Nat) (x2 : Option Nat) (x3 : Nat) (x4 : List Byte) : held (State.sendCap s x1 x2
    x3 x4) = held s := by
  simp only [State.sendCap,
    ↓sendCapFor_held]

theorem mgmt_held (s : State) (x1 : Nat) (x2 : Nat) (x3 : List Byte) : held (State.mgmt s x1 x2 x3) = held s := by
  simp only [State.mgmt]
  repeat' split
  all_goals try simp only [
    ↓addTag_held, ↓sendCap_held]

theorem setSleeve_held (s : State) (x1 : Nat) (x2 : Sleeve) : held (State.setSleeve s x1 x2) = held s := by
  simp only [State.setSleeve,
    ↓modSlv_held]

theorem modSleeve_held (s : State) (x1 : Nat) (x2 : Sleeve → Sleeve) : held (State.modSleeve s x1 x2) = held s := by
  simp only [State.modSleeve,
    ↓setSleeve_held]

theorem idleFlit_held (s : State) (x1 : Nat) (x2 : Bool) : held (State.idleFlit s x1 x2) = held s := by
  simp only [State.idleFlit,
    ↓putFlit_held]

theorem setIf_held (s : State) (x1 : Nat) (x2 : Nat) (x3 : Nat) (x4 : Nat) : held (State.setIf s x1 x2 x3 x4) = held s
    := by
  simp only [State.setIf,
    ↓mgmt_held]

theorem setIfPers_held (s : State) (x1 : Nat) (x2 : Nat) : held (State.setIfPers s x1 x2) = held s := by
  simp only [State.setIfPers]
  repeat' split
  all_goals try simp only [
    ↓setIf_held]

theorem pumpHeld_held (s : State) : held (State.pumpHeld s) = held s := by
  simp only [State.pumpHeld, ↓held_foldl,
    implies_true, ↓pump_held]

theorem execStagingCopyAccepted_held (x0 : Nat) (s : State) : ∀ t,
    execStagingCopyAccepted x0 s = .next t → held t = held s := by
  intro t h
  unfold execStagingCopyAccepted at h
  replace h := next_inj h
  subst h
  repeat' first
    | simp only [↓held_ite,
        ↓settleDma_held, ↓acceptCopy_held, ↓pumpHeld_held]
    | intro _
    | split
    | refine (held_foldl _ ?_ _ _).trans ?_
    | refine admin_held _ _ _ _ ?_
    | refine mbServe_held _ _ _ _ ?_
    | refine withSeqs_held _ _ _ _ _ ?_
    | refine fittingOr_held _ _ _ ?_

theorem deliverOp_held (s : State) (x1 : OpDesc) (x2 : Nat) (x3 : Nat) (x4 : Bool) : held (State.deliverOp s x1 x2 x3
    x4) = held s := by
  simp only [State.deliverOp]
  repeat' split
  all_goals try simp only [
    ↓lateEnd_held, ↓noteLatency_held, ↓modFtl_held,
    ↓programOk_held, ↓memberFailed_held, ↓sanErase_held, ↓eraseEnd_held]

theorem dieNeedsReset_held (s : State) (x1 : Nat) (x2 : Nat) : held (State.dieNeedsReset s x1 x2) = held s := by
  simp only [State.dieNeedsReset, ↓held_ite, ite_self,
    ↓modDie_held, ↓raise_held]

theorem abortEnd_held (s : State) (x1 : OpRec) (x2 : Bool) : held (State.abortEnd s x1 x2) = held s := by
  simp only [State.abortEnd, ↓held_ite, ite_self,
    ↓modSleeve_held, ↓dieNeedsReset_held, ↓deliverOp_held]

theorem bind_held (s : State) (x1 : Nat) : held (State.bind s x1) = held s := by
  simp only [State.bind,
    ↓modSleeve_held]

theorem noteRetry_held (s : State) (x1 : OpDesc) (x2 : Nat) : held (State.noteRetry s x1 x2) = held s := by
  simp only [State.noteRetry, held_mk, held_fold,
    ↓histAdd_held]

theorem modRec_held (s : State) (x1 : Nat) (x2 : Nat) (x3 : OpRec → OpRec) : held (State.modRec s x1 x2 x3) = held s :=
    by
  simp only [State.modRec,
    ↓modSleeve_held]

theorem hardEnd_held (s : State) (x1 : Nat) (x2 : OpRec) (x3 : Nat) : held (State.hardEnd s x1 x2 x3) = held s := by
  simp only [State.hardEnd,
    ↓dieNeedsReset_held, ↓modRec_held]

theorem takeFault_held (s : State) (x1 : Nat) (x2 : Nat) (x3 : Nat) (x4 : Nat) : held (State.takeFault s x1 x2 x3 x4) =
    held s := by
  simp only [State.takeFault]
  repeat' split
  all_goals try simp only [
    ↓bind_held, ↓bump_held, ↓wr_held, ↓modRec_held,
    ↓hardEnd_held, ↓raise_held]

theorem pendFault_held (s : State) (x1 : Nat) (x2 : Nat) (x3 : Nat) : held (State.pendFault s x1 x2 x3) = held s := by
  simp only [State.pendFault]
  repeat' split
  all_goals try simp only [
    ↓takeFault_held, ↓modRec_held]

theorem crossRec_held (s : State) (x1 : Nat) (x2 : Nat) : held (State.crossRec s x1 x2) = held s := by
  simp only [State.crossRec]
  repeat' split
  all_goals try simp only [
    ↓bump_held, ↓pendFault_held, ↓modSlv_held,
    ↓modRec_held]

theorem showLive_held (s : State) (x1 : Nat) : held (State.showLive s x1) = held s := by
  simp only [State.showLive,
    ↓wr_held]

theorem crossBegin_held (s : State) (x1 : Nat) (x2 : Micro) : held (State.crossBegin s x1 x2) = held s := by
  simp only [State.crossBegin,
    ↓held_foldl, implies_true, ↓setSleeve_held, ↓crossRec_held,
    ↓wr_held, ↓showLive_held]

theorem crossBypassed_held (s : State) (x1 : Nat) (x2 : Micro) : held (State.crossBypassed s x1 x2) = held s := by
  simp only [State.crossBypassed,
    ↓setSleeve_held, ↓wr_held, ↓showLive_held]

theorem crossEnd_held (s : State) (x1 : Nat) (x2 : Micro) : held (State.crossEnd s x1 x2) = held s := by
  simp only [State.crossEnd,
    ↓modSleeve_held, ↓wr_held, ↓showLive_held, ↓raise_held]

theorem patchStep_held (x0 : Nat) (s : State) : held (State.patchStep x0 s) = held s := by
  induction x0 generalizing s with
  | zero => rfl
  | succ n ih =>
    rw [State.patchStep]
    split
    · rfl
    · split
      · simp only [↓complete_held, ↓modSlv_held, ↓extend_held]
      · dsimp only
        repeat' split
        all_goals simp only [ih, ↓modSlv_held, ↓crossEnd_held, ↓crossBypassed_held, ↓crossBegin_held]

theorem patchGo_held (s : State) : held (State.patchGo s) = held s := by
  simp only [State.patchGo,
    ↓patchStep_held]

theorem readerDone_held (s : State) (x1 : Nat) (x2 : Nat) : held (State.readerDone s x1 x2) = held s := by
  simp only [State.readerDone,
    ↓modSleeve_held]

theorem refreshBlock_held (s : State) (x1 : Nat × Nat × Nat) : held (State.refreshBlock s x1) = held s := by
  simp only [State.refreshBlock,
    ↓held_foldl, implies_true, ↓askMove_held]

theorem dieAbsent_held (s : State) (x1 : Nat) (x2 : Nat) : held (State.dieAbsent s x1 x2) = held s := by
  simp only [State.dieAbsent, ↓held_ite, ite_self,
    ↓membersLost_held, ↓modFtl_held,
    ↓setReg_held, ↓startRebuild_held, ↓raise_held]

theorem resetEnd_held (s : State) (x1 : Nat) (x2 : Nat) (x3 : Bool) : held (State.resetEnd s x1 x2 x3) = held s := by
  simp only [State.resetEnd, ↓held_ite, ite_self,
    ↓setIfPers_held, ↓dieAbsent_held, ↓modDie_held]

theorem opEnd_held (s : State) (x1 : Nat) (x2 : Nat) (x3 : Bool) : held (State.opEnd s x1 x2 x3) = held s := by
  simp only [State.opEnd]
  repeat' split
  all_goals try simp only [
    ↓patchGo_held, ↓deliverOp_held, ↓resetEnd_held,
    ↓raiseIf_held, ↓abortEnd_held, ↓modSleeve_held, ↓bind_held, ↓refreshBlock_held, ↓noteRetry_held, ↓readerDone_held,
    ↓raise_held]

theorem slvBypass_held (s : State) (x1 : Nat) : held (State.slvBypass s x1) = held s := by
  simp only [State.slvBypass,
    ↓held_foldl, implies_true, ↓deliverOp_held, ↓modSleeve_held,
    ↓pendFault_held, ↓wr_held, ↓raise_held]

theorem slvFlush_held (s : State) : held (State.slvFlush s) = held s := by
  simp only [State.slvFlush, ↓held_foldl,
    implies_true, ↓modSleeve_held, ↓deliverOp_held]

theorem waitEnd_held (s : State) (x1 : Nat) (x2 : Nat) : held (State.waitEnd s x1 x2) = held s := by
  simp only [State.waitEnd]
  repeat' split
  all_goals try simp only [
    ↓bind_held, ↓takeFault_held, ↓modDie_held,
    ↓modRec_held]

theorem request_held (s : State) (x1 : OpDesc) : held (State.request s x1) = held s := by
  simp only [State.request,
    ↓modSleeve_held, ↓modSlv_held]

theorem startRec_held (s : State) (x1 : OpDesc) (x2 : Bool) : held (State.startRec s x1 x2) = held s := by
  simp only [State.startRec]
  repeat' split
  all_goals try simp only [
    ↓modSleeve_held, ↓bind_held]

theorem startReset_held (s : State) (x1 : Nat) (x2 : Nat) : held (State.startReset s x1 x2) = held s := by
  simp only [State.startReset,
    ↓startRec_held, ↓modSlv_held, ↓setIf_held]

theorem faultLink_held (s : State) (x1 : Nat) (x2 : Nat) (x3 : Bool) : held (State.faultLink s x1 x2 x3) = held s := by
  simp only [State.faultLink, ↓held_ite, ite_self,
    ↓held_foldl, implies_true, ↓pendFault_held, ↓dieNeedsReset_held]

theorem crossTimeout_held (s : State) (x1 : Nat) : held (State.crossTimeout s x1) = held s := by
  simp only [State.crossTimeout]
  repeat' split
  all_goals try simp only [↓held_foldl,
    implies_true, ↓patchGo_held, ↓pendFault_held, ↓modSlv_held,
    ↓modRec_held, ↓bump_held]

theorem opStart_held (s : State) (x1 : Nat) : held (State.opStart s x1) = held s := by
  simp only [State.opStart]
  repeat' split
  all_goals try simp only [
    ↓startReset_held, ↓startRec_held, ↓setIf_held,
    ↓modSleeve_held]

theorem slvReturn_held (s : State) (x1 : Nat) : held (State.slvReturn s x1) = held s := by
  unfold State.slvReturn
  repeat' first
    | simp only [↓held_ite, ite_self, ↓held_foldl,
        implies_true, ↓setSleeve_held, ↓dieNeedsReset_held, ↓wr_held,
        ↓showLive_held, ↓raise_held]
    | intro _
    | split
    | refine (held_foldl _ ?_ _ _).trans ?_
    | refine (held_foldl_fst _ ?_ _ _).trans ?_
    | refine (held_foldl_snd _ ?_ _ _).trans ?_

theorem clearLink_held (s : State) (x1 : Nat) : held (State.clearLink s x1) = held s := by
  simp only [State.clearLink,
    ↓modLnk_held, ↓wr_held]

theorem marginAbort_held (s : State) (x1 : Nat) : held (State.marginAbort s x1) = held s := by
  simp only [State.marginAbort, ↓held_ite, ite_self,
    ↓modLnk_held, ↓wr_held]

theorem showSets_held (s : State) (x1 : Nat) : held (State.showSets s x1) = held s := by
  simp only [State.showSets, ↓held_ite, ite_self,
    ↓modLnk_held]

theorem setJl_held (s : State) (x1 : Nat) (x2 : Nat) : held (State.setJl s x1 x2) = held s := by
  simp only [State.setJl, ↓held_ite, ite_self,
    ↓marginAbort_held, ↓modLnk_held, ↓showSets_held,
    ↓wr_held, ↓raise_held]

theorem enterDown_held (s : State) (x1 : Nat) (x2 : Nat) : held (State.enterDown s x1 x2) = held s := by
  simp only [State.enterDown, ↓held_ite, ite_self,
    ↓clearLink_held, ↓setJl_held,
    ↓membersLost_held, ↓modLnk_held, ↓wr_held, ↓faultLink_held, ↓bump_held, ↓raise_held]

theorem backToDetect_held (s : State) (x1 : Nat) : held (State.backToDetect s x1) = held s := by
  simp only [State.backToDetect,
    ↓setJl_held, ↓modLnk_held, ↓wr_held]

theorem detectReset_held (s : State) (x1 : Nat) : held (State.detectReset s x1) = held s := by
  simp only [State.detectReset,
    ↓held_foldl, implies_true, ↓clearLink_held, ↓modLnk_held,
    ↓modDie_held, ↓faultLink_held]

theorem toDetect_held (s : State) (x1 : Nat) (x2 : Nat) (x3 : Bool) : held (State.toDetect s x1 x2 x3) = held s := by
  simp only [State.toDetect,
    ↓modLnk_held, ↓backToDetect_held, ↓detectReset_held]

theorem fullRetrain_held (s : State) (x1 : Nat) (x2 : Bool) : held (State.fullRetrain s x1 x2) = held s := by
  simp only [State.fullRetrain,
    ↓toDetect_held, ↓bump_held]

theorem lowerCeiling_held (s : State) (x1 : Nat) : held (State.lowerCeiling s x1) = held s := by
  simp only [State.lowerCeiling, ↓held_ite, ite_self,
    ↓wr_held, ↓bump_held, ↓raise_held]

theorem rateFallback_held (s : State) (x1 : Nat) : held (State.rateFallback s x1) = held s := by
  simp only [State.rateFallback, ↓held_ite, ite_self,
    ↓fullRetrain_held, ↓enterDown_held,
    ↓lowerCeiling_held, ↓modLnk_held, ↓wr_held]

theorem sendNak_held (s : State) (x1 : Nat) : held (State.sendNak s x1) = held s := by
  simp only [State.sendNak, ↓held_ite, ite_self,
    ↓bump_held, ↓modLnk_held, ↓idleFlit_held]

theorem badFlit_held (s : State) (x1 : Nat) : held (State.badFlit s x1) = held s := by
  simp only [State.badFlit, ↓held_ite, ite_self,
    ↓rateFallback_held, ↓bump_held, ↓modLnk_held,
    ↓sendNak_held]

theorem enterRetrain_held (s : State) (x1 : Nat) (x2 : Nat) : held (State.enterRetrain s x1 x2) = held s := by
  simp only [State.enterRetrain, ↓held_ite, ite_self,
    ↓setJl_held, ↓rateFallback_held,
    ↓bump_held, ↓modLnk_held, ↓wr_held, ↓raise_held]

theorem feed_held (s : State) (x1 : Nat) (x2 : Nat) (x3 : List Byte) : held (State.feed s x1 x2 x3) = held s := by
  simp only [State.feed, ↓held_ite, ite_self,
    ↓fullRetrain_held, ↓modLnk_held, ↓raise_held]

theorem parkLink_held (s : State) (x1 : Nat) : held (State.parkLink s x1) = held s := by
  simp only [State.parkLink, ↓held_ite, ite_self,
    ↓modLnk_held]

theorem recalGo_held (s : State) (x1 : Nat) : held (State.recalGo s x1) = held s := by
  simp only [State.recalGo, ↓held_ite, ite_self,
    ↓parkLink_held]

theorem replay_held (s : State) (x1 : Nat) : held (State.replay s x1) = held s := by
  simp only [State.replay]
  repeat' split
  all_goals try simp only [↓held_foldl,
    implies_true, ↓enterRetrain_held, ↓modLnk_held, ↓putFlit_held,
    ↓bump_held]

theorem membersAcked_held (s : State) (x1 : List (Nat × Nat × Nat)) : held (State.membersAcked s x1) = held s := by
  simp only [State.membersAcked,
    ↓held_foldl, implies_true, ↓modStripe_held]

theorem takeAck_held (s : State) (x1 : Nat) (x2 : Nat) : held (State.takeAck s x1 x2) = held s := by
  simp only [State.takeAck, ↓held_ite, ite_self,
    ↓modLnk_held, ↓membersAcked_held, ↓wr_held]

theorem takeCredit_held (s : State) (x1 : Nat) (x2 : Nat) (x3 : Nat) : held (State.takeCredit s x1 x2 x3) = held s := by
  simp only [State.takeCredit,
    ↓modLnk_held, ↓setCredit_held]

theorem flitIn_held (s : State) (x1 : Nat) (x2 : List Byte) : held (State.flitIn s x1 x2) = held s := by
  simp only [State.flitIn, ↓held_ite, ite_self,
    ↓takeAck_held, ↓enterRetrain_held, ↓modLnk_held,
    ↓feed_held, ↓idleFlit_held, ↓recalGo_held, ↓pump_held, ↓replay_held, ↓sendNak_held, ↓takeCredit_held, ↓badFlit_held]

theorem flitBlocksIn_held (s : State) (x1 : Nat) (x2 : List Block) : held (State.flitBlocksIn s x1 x2) = held s := by
  simp only [State.flitBlocksIn, ↓held_ite, ite_self,
    ↓badFlit_held, ↓flitIn_held, ↓modLnk_held]

theorem execJlFlitReceive_held (x0 : Fin 512) (x1 : List Block) (s : State) : ∀ t,
    execJlFlitReceive x0 x1 s = .next t → held t = held s := by
  intro t h
  unfold execJlFlitReceive at h
  replace h := next_inj h
  subst h
  simp only [↓held_ite, ite_self,
    ↓flitBlocksIn_held]

theorem failToDetect_held (s : State) (x1 : Nat) : held (State.failToDetect s x1) = held s := by
  simp only [State.failToDetect, ↓held_ite, ite_self,
    ↓toDetect_held, ↓backToDetect_held]

theorem parked_held (s : State) (x1 : Nat) : held (State.parked s x1) = held s := by
  simp only [State.parked, ↓held_ite, ite_self,
    ↓setJl_held, ↓fullRetrain_held, ↓modLnk_held, ↓wr_held]

theorem execJlPark_held (x0 : Fin 512) (s : State) : ∀ t, execJlPark x0 s = .next t → held t = held s := by
  intro t h
  unfold execJlPark at h
  replace h := next_inj h
  subst h
  simp only [↓held_ite, ite_self,
    ↓parked_held]

theorem retireLink_held (s : State) (x1 : Nat) (x2 : Nat) : held (State.retireLink s x1 x2) = held s := by
  simp only [State.retireLink,
    ↓clearLink_held, ↓setJl_held,
    ↓membersLost_held, ↓record_held, ↓setLink_held, ↓modLnk_held, ↓startRebuild_held, ↓wr_held, ↓faultLink_held]

theorem testStore_held (s : State) (x1 : Nat) (x2 : Word) : held (State.testStore s x1 x2) = held s := by
  simp only [State.testStore,
    ↓wr_held]

theorem testStart_held (s : State) (x1 : Nat) (x2 : Word) : held (State.testStart s x1 x2) = held s := by
  simp only [State.testStart, ↓held_ite, ite_self,
    ↓setJl_held, ↓wr_held, ↓testStore_held,
    ↓setReg_held]

theorem downRetire_held (s : State) (x1 : Nat) : held (State.downRetire s x1) = held s := by
  simp only [State.downRetire, ↓held_ite, ite_self,
    ↓retireLink_held]

theorem execJlCtlRetrainFull_held (x0 : Fin 8) (x1 : Fin 512) (s : State) : ∀ t,
    execJlCtlRetrainFull x0 x1 s = .next t → held t = held s := by
  intro t h
  unfold execJlCtlRetrainFull at h
  replace h := next_inj h
  subst h
  simp only [↓held_ite, ite_self,
    ↓wr_held, ↓fullRetrain_held]

theorem enumDone_held (s : State) (x1 : Nat) : held (State.enumDone s x1) = held s := by
  simp only [State.enumDone, ↓held_ite, ite_self,
    ↓wr_held]

theorem leavePark_held (s : State) (x1 : Nat) : held (State.leavePark s x1) = held s := by
  simp only [State.leavePark, ↓held_ite, ite_self,
    ↓enterRetrain_held, ↓modLnk_held]

theorem execJlTestStart_held (x0 : Fin 8) (x1 : Fin 512) (x2 : Word) (s : State) : ∀ t,
    execJlTestStart x0 x1 x2 s = .next t → held t = held s := by
  intro t h
  unfold execJlTestStart at h
  replace h := next_inj h
  subst h
  simp only [↓held_ite, ite_self,
    ↓testStart_held]

theorem returnDone_held (s : State) (x1 : Nat) : held (State.returnDone s x1) = held s := by
  simp only [State.returnDone, ↓held_ite, ite_self,
    ↓setLink_held, ↓modLnk_held]

theorem toActive_held (s : State) (x1 : Nat) (x2 : Nat) : held (State.toActive s x1 x2) = held s := by
  simp only [State.toActive, ↓held_ite, ite_self,
    ↓setJl_held, ↓setLink_held, ↓modLnk_held, ↓wr_held,
    ↓returnDone_held, ↓pump_held, ↓mgmt_held]

theorem ts2_held (s : State) (x1 : Nat) (x2 : List Byte) : held (State.ts2 s x1 x2) = held s := by
  simp only [State.ts2, ↓held_ite, ite_self,
    ↓toActive_held, ↓modLnk_held, ↓wr_held,
    ↓setCredit_held]

theorem execJlTs2_held (x0 : Fin 512) (x1 : Block) (s : State) : ∀ t,
    execJlTs2 x0 x1 s = .next t → held t = held s := by
  intro t h
  unfold execJlTs2 at h
  replace h := next_inj h
  subst h
  simp only [↓held_ite, ite_self,
    ↓ts2_held]

theorem enumPresent_held (s : State) (x1 : Nat) (x2 : Nat) : held (State.enumPresent s x1 x2) = held s := by
  simp only [State.enumPresent,
    ↓setReg_held]

theorem windowEnd_held (s : State) (x1 : Nat) : held (State.windowEnd s x1) = held s := by
  simp only [State.windowEnd]
  repeat' split
  all_goals try simp only [
    ↓enterDown_held]

theorem execJlTrainingWindowExpiry_held (x0 : Fin 512) (s : State) : ∀ t,
    execJlTrainingWindowExpiry x0 s = .next t → held t = held s := by
  intro t h
  unfold execJlTrainingWindowExpiry at h
  replace h := next_inj h
  subst h
  simp only [↓held_ite, ite_self,
    ↓settleDma_held, ↓windowEnd_held]

theorem replayTimeout_held (s : State) (x1 : Nat) : held (State.replayTimeout s x1) = held s := by
  simp only [State.replayTimeout, ↓held_ite, ite_self,
    ↓replay_held]

theorem lockLoss_held (s : State) (x1 : Nat) : held (State.lockLoss s x1) = held s := by
  simp only [State.lockLoss, ↓held_ite, ite_self,
    ↓failToDetect_held, ↓enterRetrain_held, ↓wr_held]

theorem ts1_held (s : State) (x1 : Nat) (x2 : List Byte) : held (State.ts1 s x1 x2) = held s := by
  simp only [State.ts1, ↓held_ite,
    ↓modLnk_held
    ]
  repeat' split
  all_goals try simp only [
    ↓setJl_held, ↓enterRetrain_held, ↓modLnk_held,
    ↓showSets_held, ↓wr_held]

theorem execJlCtlRetrain_held (x0 : Fin 8) (x1 : Fin 512) (s : State) : ∀ t,
    execJlCtlRetrain x0 x1 s = .next t → held t = held s := by
  intro t h
  unfold execJlCtlRetrain at h
  replace h := next_inj h
  subst h
  simp only [↓held_ite, ite_self,
    ↓enterRetrain_held]

theorem recalLink_held (s : State) (x1 : Nat) : held (State.recalLink s x1) = held s := by
  simp only [State.recalLink, ↓held_ite, ite_self,
    ↓modLnk_held, ↓parkLink_held]

theorem speedChange_held (s : State) (x1 : Nat) : held (State.speedChange s x1) = held s := by
  simp only [State.speedChange]
  repeat' split
  all_goals try simp only [
    ↓setJl_held, ↓modLnk_held, ↓wr_held]

theorem marginStore_held (s : State) (x1 : Nat) (x2 : Word) : held (State.marginStore s x1 x2) = held s := by
  simp only [State.marginStore,
    ↓wr_held]

theorem marginDone_held (s : State) (x1 : Nat) (x2 : Nat) : held (State.marginDone s x1 x2) = held s := by
  simp only [State.marginDone]
  repeat' split
  all_goals try simp only [
    ↓modLnk_held, ↓wr_held]

theorem jlTimeout_held (s : State) (x1 : Nat) : held (State.jlTimeout s x1) = held s := by
  simp only [State.jlTimeout]
  repeat' split
  all_goals try simp only [
    ↓setJl_held, ↓enterDown_held, ↓modLnk_held, ↓wr_held,
    ↓failToDetect_held, ↓lowerCeiling_held, ↓raise_held]

theorem execJlReplayTimeout_held (x0 : Fin 512) (s : State) : ∀ t,
    execJlReplayTimeout x0 s = .next t → held t = held s := by
  intro t h
  unfold execJlReplayTimeout at h
  replace h := next_inj h
  subst h
  simp only [↓held_ite, ite_self,
    ↓replayTimeout_held]

theorem execJlSpeedChangeIdleEnd_held (x0 : Fin 512) (s : State) : ∀ t,
    execJlSpeedChangeIdleEnd x0 s = .next t → held t = held s := by
  intro t h
  unfold execJlSpeedChangeIdleEnd at h
  replace h := next_inj h
  subst h
  simp only [↓held_ite, ite_self,
    ↓speedChange_held]

theorem testStop_held (s : State) (x1 : Nat) (x2 : Word) (x3 : Bool) (x4 : Nat) : held (State.testStop s x1 x2 x3 x4) =
    held s := by
  simp only [State.testStop, ↓held_ite, ite_self,
    ↓toDetect_held, ↓wr_held, ↓testStore_held]

theorem execJlMarginAbort_held (x0 : Fin 8) (x1 : Fin 512) (x2 : Word) (s : State) : ∀ t,
    execJlMarginAbort x0 x1 x2 s = .next t → held t = held s := by
  intro t h
  unfold execJlMarginAbort at h
  replace h := next_inj h
  subst h
  simp only [↓held_ite, ite_self,
    ↓marginStore_held, ↓marginAbort_held]

theorem execJlTestStop_held (x0 : Fin 8) (x1 : Fin 512) (x2 : Word) (x3 : Bool) (x4 : Nat) (s : State) : ∀ t,
    execJlTestStop x0 x1 x2 x3 x4 s = .next t → held t = held s := by
  intro t h
  unfold execJlTestStop at h
  replace h := next_inj h
  subst h
  simp only [↓held_ite, ite_self,
    ↓testStop_held]

theorem eqStep_held (s : State) (x1 : Nat) (x2 : Nat) (x3 : Nat) (x4 : Nat) (x5 : Nat) : held (State.eqStep s x1 x2 x3
    x4 x5) = held s := by
  simp only [State.eqStep, ↓held_ite, ite_self,
    ↓lowerCeiling_held, ↓bump_held, ↓modLnk_held,
    ↓showSets_held, ↓histAdd_held, ↓wr_held, ↓failToDetect_held, ↓raise_held]

theorem marginStart_held (s : State) (x1 : Nat) (x2 : Word) : held (State.marginStart s x1 x2) = held s := by
  simp only [State.marginStart, ↓held_ite, ite_self,
    ↓modLnk_held, ↓setReg_held,
    ↓marginStore_held]

theorem execJlMarginStart_held (x0 : Fin 8) (x1 : Fin 512) (x2 : Word) (s : State) : ∀ t,
    execJlMarginStart x0 x1 x2 s = .next t → held t = held s := by
  intro t h
  unfold execJlMarginStart at h
  replace h := next_inj h
  subst h
  simp only [↓held_ite, ite_self,
    ↓marginStart_held]

theorem execJlTs1_held (x0 : Fin 512) (x1 : Block) (s : State) : ∀ t,
    execJlTs1 x0 x1 s = .next t → held t = held s := by
  intro t h
  unfold execJlTs1 at h
  replace h := next_inj h
  subst h
  simp only [↓held_ite, ite_self,
    ↓ts1_held]

theorem enumAbsent_held (s : State) (x1 : Nat) (x2 : Nat) : held (State.enumAbsent s x1 x2) = held s := by
  simp only [State.enumAbsent, ↓held_ite, ite_self,
    ↓modFtl_held]

theorem execJlBlockLockLoss_held (x0 : Fin 512) (s : State) : ∀ t,
    execJlBlockLockLoss x0 s = .next t → held t = held s := by
  intro t h
  unfold execJlBlockLockLoss at h
  replace h := next_inj h
  subst h
  simp only [↓held_ite, ite_self,
    ↓lockLoss_held]

theorem lockAcquire_held (s : State) (x1 : Nat) : held (State.lockAcquire s x1) = held s := by
  simp only [State.lockAcquire, ↓held_ite, ite_self,
    ↓setJl_held, ↓modLnk_held, ↓wr_held]

theorem execJlStateTimeout_held (x0 : Fin 512) (s : State) : ∀ t,
    execJlStateTimeout x0 s = .next t → held t = held s := by
  intro t h
  unfold execJlStateTimeout at h
  replace h := next_inj h
  subst h
  simp only [↓held_ite, ite_self,
    ↓jlTimeout_held]

theorem startSet_held (s : State) (x1 : Nat) : held (State.startSet s x1) = held s := by
  simp only [State.startSet, ↓held_ite, ite_self,
    ↓toActive_held, ↓modLnk_held, ↓pump_held]

theorem execJlDownRetire_held (x0 : Fin 512) (s : State) : ∀ t, execJlDownRetire x0 s = .next t → held t = held s := by
  intro t h
  unfold execJlDownRetire at h
  replace h := next_inj h
  subst h
  simp only [↓held_ite, ite_self,
    ↓settleDma_held, ↓downRetire_held]

theorem jlFlush_held (s : State) : held (State.jlFlush s) = held s := by
  simp only [State.jlFlush, ↓held_ite, ite_self, ↓held_foldl,
    implies_true, ↓enterRetrain_held, ↓modLnk_held, ↓leavePark_held,
    ↓wr_held]

theorem enumDie_held (s : State) (x1 : Nat) (x2 : Nat) (x3 : Bool) : held (State.enumDie s x1 x2 x3) = held s := by
  simp only [State.enumDie, ↓held_ite, ite_self,
    ↓raiseIf_held, ↓enumPresent_held, ↓enumAbsent_held,
    ↓modLnk_held, ↓enumDone_held]

theorem execJlBlockLockAcquire_held (x0 : Fin 512) (s : State) : ∀ t,
    execJlBlockLockAcquire x0 s = .next t → held t = held s := by
  intro t h
  unfold execJlBlockLockAcquire at h
  replace h := next_inj h
  subst h
  simp only [↓held_ite, ite_self,
    ↓lockAcquire_held]

theorem execJlStart_held (x0 : Fin 512) (s : State) : ∀ t, execJlStart x0 s = .next t → held t = held s := by
  intro t h
  unfold execJlStart at h
  replace h := next_inj h
  subst h
  simp only [↓held_ite, ite_self,
    ↓startSet_held]

theorem execJlElectricalIdleExit_held (x0 : Fin 512) (s : State) : ∀ t,
    execJlElectricalIdleExit x0 s = .next t → held t = held s := by
  intro t h
  unfold execJlElectricalIdleExit at h
  replace h := next_inj h
  subst h
  simp only [↓held_ite, ite_self,
    ↓leavePark_held]

theorem execJlEqualizeStep_held (x0 : Fin 512) (x1 : Fin 256) (x2 : Fin 256) (x3 : Fin 256) (x4 : Fin 256) (s : State)
    : ∀ t, execJlEqualizeStep x0 x1 x2 x3 x4 s = .next t → held t = held s := by
  intro t h
  unfold execJlEqualizeStep at h
  replace h := next_inj h
  subst h
  simp only [↓held_ite, ite_self,
    ↓eqStep_held]

theorem downRetry_held (s : State) (x1 : Nat) : held (State.downRetry s x1) = held s := by
  simp only [State.downRetry, ↓held_ite, ite_self,
    ↓toDetect_held]

theorem execJlDownRetry_held (x0 : Fin 512) (s : State) : ∀ t, execJlDownRetry x0 s = .next t → held t = held s := by
  intro t h
  unfold execJlDownRetry at h
  replace h := next_inj h
  subst h
  simp only [↓held_ite, ite_self,
    ↓downRetry_held]

theorem execJlMarginDone_held (x0 : Fin 512) (x1 : Nat) (s : State) : ∀ t,
    execJlMarginDone x0 x1 s = .next t → held t = held s := by
  intro t h
  unfold execJlMarginDone at h
  replace h := next_inj h
  subst h
  simp only [↓held_ite, ite_self,
    ↓marginDone_held]

theorem dieCapFor_held (s : State) (x1 : OpRec) (x2 : CtlWord) (x3 : Nat) (x4 : Nat) (x5 : List Byte) (x6 : Option (Nat
    × Nat × Nat)) : held (State.dieCapFor s x1 x2 x3 x4 x5 x6) = held s := by
  simp only [State.dieCapFor,
    ↓sendCapFor_held]

theorem dieCap_held (s : State) (x1 : OpRec) (x2 : CtlWord) (x3 : Nat) (x4 : Nat) (x5 : List Byte) : held (State.dieCap
    s x1 x2 x3 x4 x5) = held s := by
  simp only [State.dieCap,
    ↓dieCapFor_held]

theorem cmdWord_held (x0 : Nat) (s : State) (x2 : OpRec) (x3 : CtlWord) : held (State.cmdWord x0 s x2 x3) = held s := by
  simp only [State.cmdWord,
    ↓dieCap_held]

theorem issued_held (s : State) (x1 : Nat) (x2 : OpRec) (x3 : CtlWord) : held (State.issued s x1 x2 x3) = held s := by
  simp only [State.issued, ↓held_ite, ite_self,
    ↓modSleeve_held, ↓modDie_held, ↓modRec_held]

theorem issue_held (s : State) (x1 x2 x3 : Nat) (f : State → OpRec → CtlWord → State) (h : ∀ t r w,
    held (f t r w) = held t) : held (s.issue x1 x2 x3 f) = held s := by
  unfold State.issue
  repeat' (first | rfl | simp only [h, ↓held_ite, ite_self, ↓issued_held] | split)

theorem execCmd_held (x0 : Fin 64) (s : State) : ∀ t, execCmd x0 s = .next t → held t = held s := by
  intro t h
  unfold execCmd at h
  replace h := next_inj h
  subst h
  simp only [
    implies_true, ↓cmdWord_held, ↓issue_held]

theorem stopWatchdog_held (x0 : Nat) (s : State) (x2 : OpRec) : held (State.stopWatchdog x0 s x2) = held s := by
  simp only [State.stopWatchdog,
    ↓modRec_held]

theorem execTimerStopWatchdog_held (x0 : Fin 64) (s : State) : ∀ t,
    execTimerStopWatchdog x0 s = .next t → held t = held s := by
  intro t h
  unfold execTimerStopWatchdog at h
  replace h := next_inj h
  subst h
  simp only [
    implies_true, ↓issue_held, ↓stopWatchdog_held]

theorem dataOutFor_held (s : State) (x1 : OpRec) (x2 : CtlWord) (x3 : List Byte) (x4 : Option (Nat × Nat × Nat)) : held
    (State.dataOutFor s x1 x2 x3 x4) = held s := by
  simp only [State.dataOutFor,
    ↓held_foldl, implies_true, ↓dieCapFor_held]

theorem dataOut_held (s : State) (x1 : OpRec) (x2 : CtlWord) (x3 : List Byte) : held (State.dataOut s x1 x2 x3) = held
    s := by
  simp only [State.dataOut,
    ↓dataOutFor_held]

theorem decodeWord_held (x0 : Nat) (x1 : Bool) (s : State) (x3 : OpRec) : held (State.decodeWord x0 x1 s x3) = held s
    := by
  simp only [State.decodeWord, ↓held_ite, ite_self,
    ↓bump_held, ↓modRec_held]

theorem execDecodeSoft_held (x0 : Fin 64) (s : State) : ∀ t, execDecodeSoft x0 s = .next t → held t = held s := by
  intro t h
  unfold execDecodeSoft at h
  replace h := next_inj h
  subst h
  simp only [
    implies_true, ↓decodeWord_held, ↓issue_held]

theorem execCrossoverTimeout_held (x0 : Fin 64) (s : State) : ∀ t,
    execCrossoverTimeout x0 s = .next t → held t = held s := by
  intro t h
  unfold execCrossoverTimeout at h
  replace h := next_inj h
  subst h
  simp only [↓held_ite, ite_self,
    ↓crossTimeout_held]

theorem yieldWord_held (x0 : Nat) (s : State) (x2 : OpRec) : held (State.yieldWord x0 s x2) = held s := by
  simp only [State.yieldWord,
    ↓modRec_held]

theorem execOperationStart_held (x0 : Fin 64) (s : State) : ∀ t,
    execOperationStart x0 s = .next t → held t = held s := by
  intro t h
  unfold execOperationStart at h
  replace h := next_inj h
  subst h
  simp only [↓held_ite, ite_self,
    ↓opStart_held]

theorem execYield_held (x0 : Fin 64) (s : State) : ∀ t, execYield x0 s = .next t → held t = held s := by
  intro t h
  unfold execYield at h
  replace h := next_inj h
  subst h
  simp only [
    implies_true, ↓yieldWord_held, ↓issue_held]

theorem pollExpiry_held (s : State) (x1 : Nat) (x2 : Nat) : held (State.pollExpiry s x1 x2) = held s := by
  simp only [State.pollExpiry]
  repeat' split
  all_goals try simp only [
    ↓modRec_held]

theorem wordFault_held (s : State) (x1 : Nat) (x2 : OpRec) (x3 : Nat) : held (State.wordFault s x1 x2 x3) = held s := by
  simp only [State.wordFault,
    ↓takeFault_held]

theorem illegalWord_held (s : State) (x1 : Nat) (x2 : Nat) : held (State.illegalWord s x1 x2) = held s := by
  simp only [State.illegalWord, ↓held_ite]
  repeat' split
  all_goals try simp only [
    ↓wordFault_held, ↓modSleeve_held, ↓bump_held,
    ↓raise_held]

theorem execIllegalWord_held (x0 : Fin 64) (x1 : Fin 3) (s : State) : ∀ t,
    execIllegalWord x0 x1 s = .next t → held t = held s := by
  intro t h
  unfold execIllegalWord at h
  replace h := next_inj h
  subst h
  simp only [
    ↓illegalWord_held]

theorem armWatchdog_held (x0 : Nat) (s : State) (x2 : OpRec) (x3 : CtlWord) : held (State.armWatchdog x0 s x2 x3) =
    held s := by
  simp only [State.armWatchdog,
    ↓modRec_held]

theorem aluTo_held (x0 : Nat) (s : State) (x2 : OpRec) (x3 : CtlWord) (x4 : Word) (x5 : Bool) (x6 : Bool) : held
    (State.aluTo x0 s x2 x3 x4 x5 x6) = held s := by
  simp only [State.aluTo,
    ↓modRec_held]

theorem alu_held (s : State) (x1 : Nat) (x2 : Nat) (x3 : Bool) (x4 : Bool) (x5 : Word → Word → Word × Bool) : held
    (State.alu s x1 x2 x3 x4 x5) = held s := by
  simp only [State.alu,
    implies_true, ↓aluTo_held, ↓issue_held]

theorem execCmpi_held (x0 : Fin 64) (s : State) : ∀ t, execCmpi x0 s = .next t → held t = held s := by
  intro t h
  unfold execCmpi at h
  replace h := next_inj h
  subst h
  simp only [
    ↓alu_held]

theorem goTo_held (x0 : Nat) (s : State) (x2 : OpRec) (x3 : Nat) : held (State.goTo x0 s x2 x3) = held s := by
  simp only [State.goTo, ↓held_ite, ite_self,
    ↓wordFault_held, ↓modRec_held]

theorem jumpWord_held (x0 : Nat) (s : State) (x2 : OpRec) (x3 : CtlWord) : held (State.jumpWord x0 s x2 x3) = held s :=
    by
  simp only [State.jumpWord, ↓held_ite, ite_self,
    ↓goTo_held]

theorem execBranchJump_held (x0 : Fin 64) (s : State) : ∀ t, execBranchJump x0 s = .next t → held t = held s := by
  intro t h
  unfold execBranchJump at h
  replace h := next_inj h
  subst h
  simp only [
    implies_true, ↓issue_held, ↓jumpWord_held]

theorem setReg16_held (x0 : Nat) (s : State) (x2 : OpRec) (x3 : Nat) (x4 : Word) : held (State.setReg16 x0 s x2 x3 x4)
    = held s := by
  simp only [State.setReg16,
    ↓modRec_held]

theorem loadPers_held (x0 : Nat) (s : State) (x2 : OpRec) (x3 : CtlWord) : held (State.loadPers x0 s x2 x3) = held s :=
    by
  simp only [State.loadPers, ↓held_ite, ite_self,
    ↓setReg16_held, ↓wordFault_held]

theorem execLoadPersonality_held (x0 : Fin 64) (s : State) : ∀ t,
    execLoadPersonality x0 s = .next t → held t = held s := by
  intro t h
  unfold execLoadPersonality at h
  replace h := next_inj h
  subst h
  simp only [
    implies_true, ↓issue_held, ↓loadPers_held]

theorem loadScratch_held (x0 : Nat) (s : State) (x2 : OpRec) (x3 : CtlWord) : held (State.loadScratch x0 s x2 x3) =
    held s := by
  simp only [State.loadScratch, ↓held_ite, ite_self,
    ↓setReg16_held, ↓wordFault_held]

theorem loadCtx_held (x0 : Nat) (s : State) (x2 : OpRec) (x3 : CtlWord) : held (State.loadCtx x0 s x2 x3) = held s := by
  simp only [State.loadCtx]
  repeat' split
  all_goals try simp only [
    ↓free_held, ↓setReg16_held]

theorem armPoll_held (x0 : Nat) (s : State) (x2 : OpRec) (x3 : CtlWord) : held (State.armPoll x0 s x2 x3) = held s := by
  simp only [State.armPoll,
    ↓modRec_held]

theorem endWordIssue_held (x0 : Nat) (s : State) (x2 : OpRec) : held (State.endWordIssue x0 s x2) = held s := by
  simp only [State.endWordIssue]
  repeat' split
  all_goals try simp only [
    ↓patchGo_held, ↓wordFault_held, ↓bind_held,
    ↓modRec_held]

theorem execEndWord_held (x0 : Fin 64) (s : State) : ∀ t, execEndWord x0 s = .next t → held t = held s := by
  intro t h
  unfold execEndWord at h
  replace h := next_inj h
  subst h
  simp only [
    implies_true, ↓endWordIssue_held, ↓issue_held]

theorem returnWord_held (x0 : Nat) (s : State) (x2 : OpRec) (x3 : CtlWord) : held (State.returnWord x0 s x2 x3) = held
    s := by
  simp only [State.returnWord, ↓held_ite]
  repeat' split
  all_goals try simp only [
    ↓wordFault_held, ↓goTo_held, ↓modRec_held]

theorem execBranchReturn_held (x0 : Fin 64) (s : State) : ∀ t, execBranchReturn x0 s = .next t → held t = held s := by
  intro t h
  unfold execBranchReturn at h
  replace h := next_inj h
  subst h
  simp only [
    implies_true, ↓returnWord_held, ↓issue_held]

theorem execLoadScratch_held (x0 : Fin 64) (s : State) : ∀ t, execLoadScratch x0 s = .next t → held t = held s := by
  intro t h
  unfold execLoadScratch at h
  replace h := next_inj h
  subst h
  simp only [
    implies_true, ↓loadScratch_held, ↓issue_held]

theorem slvWatchdog_held (s : State) (x1 : Nat) (x2 : Nat) : held (State.slvWatchdog s x1 x2) = held s := by
  simp only [State.slvWatchdog]
  repeat' split
  all_goals try simp only [
    ↓pendFault_held, ↓modRec_held]

theorem waitWord_held (x0 : Nat) (s : State) (x2 : OpRec) (x3 : CtlWord) : held (State.waitWord x0 s x2 x3) = held s :=
    by
  simp only [State.waitWord,
    ↓patchGo_held, ↓bind_held, ↓crossRec_held,
    ↓modRec_held]

theorem reportWord_held (x0 : Nat) (x1 : Nat) (s : State) (x3 : OpRec) (x4 : CtlWord) : held (State.reportWord x0 x1 s
    x3 x4) = held s := by
  simp only [State.reportWord,
    ↓modRec_held]

theorem execReportOk_held (x0 : Fin 64) (s : State) : ∀ t, execReportOk x0 s = .next t → held t = held s := by
  intro t h
  unfold execReportOk at h
  replace h := next_inj h
  subst h
  simp only [
    implies_true, ↓reportWord_held, ↓issue_held]

theorem execLoadContextState_held (x0 : Fin 64) (s : State) : ∀ t,
    execLoadContextState x0 s = .next t → held t = held s := by
  intro t h
  unfold execLoadContextState at h
  replace h := next_inj h
  subst h
  simp only [
    implies_true, ↓loadCtx_held, ↓issue_held]

theorem enumStep_held (s : State) (x1 : OpRec) : held (State.enumStep s x1) = held s := by
  simp only [State.enumStep, ↓held_ite, ite_self,
    ↓setIfPers_held, ↓enumDie_held]

theorem execWait_held (x0 : Fin 64) (s : State) : ∀ t, execWait x0 s = .next t → held t = held s := by
  intro t h
  unfold execWait at h
  replace h := next_inj h
  subst h
  simp only [
    implies_true, ↓issue_held, ↓waitWord_held]

theorem execShri_held (x0 : Fin 64) (s : State) : ∀ t, execShri x0 s = .next t → held t = held s := by
  intro t h
  unfold execShri at h
  replace h := next_inj h
  subst h
  simp only [
    ↓alu_held]

theorem opRequest_held (s : State) (x1 : OpDesc) : held (State.opRequest s x1) = held s := by
  simp only [State.opRequest, ↓held_ite, ite_self,
    ↓leavePark_held, ↓request_held]

theorem execOperationRequest_held (x0 : Fin 512) (x1 : Fin 32) (x2 : Fin 16) (x3 : Nat) (x4 : Nat) (x5 : Nat) (x6 : Fin
    9) (x7 : Fin 9) (x8 : Fin 9) (x9 : Bool) (x10 : Fin 4) (x11 : Nat) (x12 : OpFor) (s : State) : ∀ t,
    execOperationRequest x0 x1 x2 x3 x4 x5 x6 x7 x8 x9 x10 x11 x12 s = .next t → held t = held s := by
  intro t h
  unfold execOperationRequest at h
  replace h := next_inj h
  subst h
  simp only [↓held_ite, ite_self,
    ↓opRequest_held]

theorem addrWord_held (s : State) (x1 : OpRec) (x2 : CtlWord) : held (State.addrWord s x1 x2) = held s := by
  simp only [State.addrWord,
    ↓dieCap_held]

theorem execAddr_held (x0 : Fin 64) (s : State) : ∀ t, execAddr x0 s = .next t → held t = held s := by
  intro t h
  unfold execAddr at h
  replace h := next_inj h
  subst h
  simp only [
    implies_true, ↓issue_held, ↓addrWord_held]

theorem dieReq_held (s : State) (x1 : OpRec) (x2 : CtlWord) (x3 : Nat) (x4 : Nat) (x5 : Nat) (x6 : Nat → List Byte) (x7
    : Nat) : held (State.dieReq s x1 x2 x3 x4 x5 x6 x7) = held s := by
  simp only [State.dieReq]
  repeat' split
  all_goals try simp only [
    ↓dieCap_held, ↓addTag_held]

theorem dataInReq_held (s : State) (x1 : OpRec) (x2 : CtlWord) (x3 : Nat) (x4 : Nat) (x5 : Nat) : held (State.dataInReq
    s x1 x2 x3 x4 x5) = held s := by
  simp only [State.dataInReq,
    ↓dieReq_held]

theorem dinImage_held (x0 : Nat) (s : State) (x2 : OpRec) (x3 : CtlWord) : held (State.dinImage x0 s x2 x3) = held s :=
    by
  simp only [State.dinImage, ↓held_ite, ite_self,
    ↓wordFault_held, ↓dataInReq_held, ↓bump_held,
    ↓modRec_held]

theorem execAddi_held (x0 : Fin 64) (s : State) : ∀ t, execAddi x0 s = .next t → held t = held s := by
  intro t h
  unfold execAddi at h
  replace h := next_inj h
  subst h
  simp only [
    ↓alu_held]

theorem doutRaw_held (x0 : Nat) (s : State) (x2 : OpRec) (x3 : CtlWord) : held (State.doutRaw x0 s x2 x3) = held s := by
  simp only [State.doutRaw, ↓held_ite, ite_self,
    ↓dataOut_held, ↓wordFault_held]

theorem execOrWord_held (x0 : Fin 64) (s : State) : ∀ t, execOrWord x0 s = .next t → held t = held s := by
  intro t h
  unfold execOrWord at h
  replace h := next_inj h
  subst h
  simp only [
    ↓alu_held]

theorem callWord_held (x0 : Nat) (s : State) (x2 : OpRec) (x3 : CtlWord) : held (State.callWord x0 s x2 x3) = held s :=
    by
  simp only [State.callWord, ↓held_ite, ite_self,
    ↓wordFault_held, ↓goTo_held, ↓modRec_held]

theorem execBranchCall_held (x0 : Fin 64) (s : State) : ∀ t, execBranchCall x0 s = .next t → held t = held s := by
  intro t h
  unfold execBranchCall at h
  replace h := next_inj h
  subst h
  simp only [
    implies_true, ↓callWord_held, ↓issue_held]

theorem execXorWord_held (x0 : Fin 64) (s : State) : ∀ t, execXorWord x0 s = .next t → held t = held s := by
  intro t h
  unfold execXorWord at h
  replace h := next_inj h
  subst h
  simp only [
    ↓alu_held]

theorem statusWordIssue_held (s : State) (x1 : OpRec) (x2 : CtlWord) : held (State.statusWordIssue s x1 x2) = held s :=
    by
  simp only [State.statusWordIssue,
    ↓dieReq_held]

theorem execAndi_held (x0 : Fin 64) (s : State) : ∀ t, execAndi x0 s = .next t → held t = held s := by
  intro t h
  unfold execAndi at h
  replace h := next_inj h
  subst h
  simp only [
    ↓alu_held]

theorem execDinImage_held (x0 : Fin 64) (s : State) : ∀ t, execDinImage x0 s = .next t → held t = held s := by
  intro t h
  unfold execDinImage at h
  replace h := next_inj h
  subst h
  simp only [
    implies_true, ↓dinImage_held, ↓issue_held]

theorem execReportFail_held (x0 : Fin 64) (s : State) : ∀ t, execReportFail x0 s = .next t → held t = held s := by
  intro t h
  unfold execReportFail at h
  replace h := next_inj h
  subst h
  simp only [
    implies_true, ↓reportWord_held, ↓issue_held]

theorem dinRaw_held (x0 : Nat) (s : State) (x2 : OpRec) (x3 : CtlWord) : held (State.dinRaw x0 s x2 x3) = held s := by
  simp only [State.dinRaw, ↓held_ite, ite_self,
    ↓wordFault_held, ↓dataInReq_held]

theorem execSub_held (x0 : Fin 64) (s : State) : ∀ t, execSub x0 s = .next t → held t = held s := by
  intro t h
  unfold execSub at h
  replace h := next_inj h
  subst h
  simp only [
    ↓alu_held]

theorem setScratch_held (s : State) (x1 : Nat) (x2 : Nat) (x3 : List Byte) : held (State.setScratch s x1 x2 x3) = held
    s := by
  simp only [State.setScratch,
    ↓modSleeve_held]

theorem storeWord_held (x0 : Nat) (s : State) (x2 : OpRec) (x3 : CtlWord) : held (State.storeWord x0 s x2 x3) = held s
    := by
  simp only [State.storeWord, ↓held_ite, ite_self,
    ↓setScratch_held, ↓wordFault_held]

theorem execDecodeHard_held (x0 : Fin 64) (s : State) : ∀ t, execDecodeHard x0 s = .next t → held t = held s := by
  intro t h
  unfold execDecodeHard at h
  replace h := next_inj h
  subst h
  simp only [
    implies_true, ↓decodeWord_held, ↓issue_held]

theorem execMovi_held (x0 : Fin 64) (s : State) : ∀ t, execMovi x0 s = .next t → held t = held s := by
  intro t h
  unfold execMovi at h
  replace h := next_inj h
  subst h
  simp only [
    ↓alu_held]

theorem execTrap_held (x0 : Fin 64) (s : State) : ∀ t, execTrap x0 s = .next t → held t = held s := by
  intro t h
  unfold execTrap at h
  replace h := next_inj h
  subst h
  simp only [
    implies_true, ↓issue_held, ↓wr_held, ↓wordFault_held]

theorem decodeDone_held (s : State) (x1 : Nat) (x2 : Nat) (x3 : List (Nat × Nat)) : held (State.decodeDone s x1 x2 x3)
    = held s := by
  simp only [State.decodeDone]
  repeat' split
  all_goals try simp only [
    ↓modRec_held]

theorem execDecodeComplete_held (x0 : Fin 64) (x1 : Nat) (x2 : List (Nat × Nat)) (s : State) : ∀ t,
    execDecodeComplete x0 x1 x2 s = .next t → held t = held s := by
  intro t h
  unfold execDecodeComplete at h
  replace h := next_inj h
  subst h
  simp only [↓held_ite, ite_self,
    ↓decodeDone_held]

theorem execTimerArmWatchdog_held (x0 : Fin 64) (s : State) : ∀ t,
    execTimerArmWatchdog x0 s = .next t → held t = held s := by
  intro t h
  unfold execTimerArmWatchdog at h
  replace h := next_inj h
  subst h
  simp only [
    implies_true, ↓issue_held, ↓armWatchdog_held]

theorem execReportInterrupted_held (x0 : Fin 64) (s : State) : ∀ t,
    execReportInterrupted x0 s = .next t → held t = held s := by
  intro t h
  unfold execReportInterrupted at h
  replace h := next_inj h
  subst h
  simp only [
    implies_true, ↓reportWord_held, ↓issue_held]

theorem execDinRaw_held (x0 : Fin 64) (s : State) : ∀ t, execDinRaw x0 s = .next t → held t = held s := by
  intro t h
  unfold execDinRaw at h
  replace h := next_inj h
  subst h
  simp only [
    implies_true, ↓dinRaw_held, ↓issue_held]

theorem execPollTimerExpiry_held (x0 : Fin 64) (x1 : Nat) (s : State) : ∀ t,
    execPollTimerExpiry x0 x1 s = .next t → held t = held s := by
  intro t h
  unfold execPollTimerExpiry at h
  replace h := next_inj h
  subst h
  simp only [↓held_ite, ite_self,
    ↓pollExpiry_held]

theorem execSleeveWatchdogExpiry_held (x0 : Fin 64) (x1 : Nat) (s : State) : ∀ t,
    execSleeveWatchdogExpiry x0 x1 s = .next t → held t = held s := by
  intro t h
  unfold execSleeveWatchdogExpiry at h
  replace h := next_inj h
  subst h
  simp only [↓held_ite, ite_self,
    ↓slvWatchdog_held]

theorem execShli_held (x0 : Fin 64) (s : State) : ∀ t, execShli x0 s = .next t → held t = held s := by
  intro t h
  unfold execShli at h
  replace h := next_inj h
  subst h
  simp only [
    ↓alu_held]

theorem dinSoft_held (x0 : Nat) (s : State) (x2 : OpRec) (x3 : CtlWord) : held (State.dinSoft x0 s x2 x3) = held s := by
  simp only [State.dinSoft, ↓held_ite, ite_self,
    ↓wordFault_held, ↓dataInReq_held, ↓modRec_held]

theorem doutImage_held (s : State) (x1 : OpRec) (x2 : CtlWord) : held (State.doutImage s x1 x2) = held s := by
  simp only [State.doutImage,
    ↓dataOutFor_held, ↓modRec_held]

theorem execDoutImage_held (x0 : Fin 64) (s : State) : ∀ t, execDoutImage x0 s = .next t → held t = held s := by
  intro t h
  unfold execDoutImage at h
  replace h := next_inj h
  subst h
  simp only [
    implies_true, ↓issue_held, ↓doutImage_held]

theorem execOri_held (x0 : Fin 64) (s : State) : ∀ t, execOri x0 s = .next t → held t = held s := by
  intro t h
  unfold execOri at h
  replace h := next_inj h
  subst h
  simp only [
    ↓alu_held]

theorem execAndWord_held (x0 : Fin 64) (s : State) : ∀ t, execAndWord x0 s = .next t → held t = held s := by
  intro t h
  unfold execAndWord at h
  replace h := next_inj h
  subst h
  simp only [
    ↓alu_held]

theorem execDoutRaw_held (x0 : Fin 64) (s : State) : ∀ t, execDoutRaw x0 s = .next t → held t = held s := by
  intro t h
  unfold execDoutRaw at h
  replace h := next_inj h
  subst h
  simp only [
    implies_true, ↓doutRaw_held, ↓issue_held]

theorem execNop_held (x0 : Fin 64) (s : State) : ∀ t, execNop x0 s = .next t → held t = held s := by
  intro t h
  unfold execNop at h
  replace h := next_inj h
  subst h
  simp only [
    implies_true, ↓issue_held]

theorem execTimerArmPoll_held (x0 : Fin 64) (s : State) : ∀ t, execTimerArmPoll x0 s = .next t → held t = held s := by
  intro t h
  unfold execTimerArmPoll at h
  replace h := next_inj h
  subst h
  simp only [
    implies_true, ↓armPoll_held, ↓issue_held]

theorem execOperationEnd_held (x0 : Fin 64) (x1 : Nat) (x2 : Bool) (s : State) : ∀ t,
    execOperationEnd x0 x1 x2 s = .next t → held t = held s := by
  intro t h
  unfold execOperationEnd at h
  replace h := next_inj h
  subst h
  repeat' first
    | simp only [↓held_ite,
        ↓opEnd_held, ↓enumStep_held, ↓settleDma_held,
        ↓recalGo_held, ↓sanStep_held]
    | intro _
    | split
    | refine (held_foldl _ ?_ _ _).trans ?_
    | refine admin_held _ _ _ _ ?_
    | refine mbServe_held _ _ _ _ ?_
    | refine withSeqs_held _ _ _ _ _ ?_
    | refine fittingOr_held _ _ _ ?_

theorem execAddWord_held (x0 : Fin 64) (s : State) : ∀ t, execAddWord x0 s = .next t → held t = held s := by
  intro t h
  unfold execAddWord at h
  replace h := next_inj h
  subst h
  simp only [
    ↓alu_held]

theorem execWaitEnd_held (x0 : Fin 64) (x1 : Nat) (s : State) : ∀ t,
    execWaitEnd x0 x1 s = .next t → held t = held s := by
  intro t h
  unfold execWaitEnd at h
  replace h := next_inj h
  subst h
  simp only [↓held_ite, ite_self,
    ↓waitEnd_held]

theorem execDinSoft_held (x0 : Fin 64) (s : State) : ∀ t, execDinSoft x0 s = .next t → held t = held s := by
  intro t h
  unfold execDinSoft at h
  replace h := next_inj h
  subst h
  simp only [
    implies_true, ↓issue_held, ↓dinSoft_held]

theorem execStore_held (x0 : Fin 64) (s : State) : ∀ t, execStore x0 s = .next t → held t = held s := by
  intro t h
  unfold execStore at h
  replace h := next_inj h
  subst h
  simp only [
    implies_true, ↓storeWord_held, ↓issue_held]

theorem execCmp_held (x0 : Fin 64) (s : State) : ∀ t, execCmp x0 s = .next t → held t = held s := by
  intro t h
  unfold execCmp at h
  replace h := next_inj h
  subst h
  simp only [
    ↓alu_held]

theorem execStatusWord_held (x0 : Fin 64) (s : State) : ∀ t, execStatusWord x0 s = .next t → held t = held s := by
  intro t h
  unfold execStatusWord at h
  replace h := next_inj h
  subst h
  simp only [
    implies_true, ↓statusWordIssue_held, ↓issue_held]

theorem dropTag_held (s : State) (x1 : Nat) (x2 : Nat) : held (State.dropTag s x1 x2) = held s := by
  simp only [State.dropTag,
    ↓modLnk_held]

theorem statusResp_held (s : State) (x1 : Nat) (x2 : List Byte) : held (State.statusResp s x1 x2) = held s := by
  simp only [State.statusResp]
  repeat' split
  all_goals try simp only [
    ↓dropTag_held, ↓modRec_held]

theorem edge_held (s : State) (x1 : Nat) (x2 : List Byte) : held (State.edge s x1 x2) = held s := by
  simp only [State.edge, ↓held_ite, ite_self, ↓held_foldl,
    implies_true, ↓modDie_held]

theorem nextCapsule_held (s : State) (x1 : Nat) (x2 : Nat) : ∀ y t, State.nextCapsule s x1 x2 = some (y,
    t) → held t = held s := by
  intro y t h
  unfold State.nextCapsule at h
  repeat' first
    | split at h
    | dsimp only at h
  all_goals try simp only [Option.some.injEq, Prod.mk.injEq, reduceCtorEq] at h
  all_goals first
    | contradiction
    | obtain ⟨rfl, rfl⟩ := h
    | subst h
    | skip
  all_goals try simp only [
    ↓modLnk_held] at *

theorem onCapsule_held (s : State) (x1 x2 : Nat) (f : State → List Byte → State) (h : ∀ t c,
    held (f t c) = held t) : held (s.onCapsule x1 x2 f) = held s := by
  unfold State.onCapsule
  split
  · rfl
  · split
    · rfl
    · rename_i r hr
      rw [h, nextCapsule_held _ _ _ _ _ hr]

theorem execEdgeCapsule_held (x0 : Fin 512) (s : State) : ∀ t, execEdgeCapsule x0 s = .next t → held t = held s := by
  intro t h
  unfold execEdgeCapsule at h
  replace h := next_inj h
  subst h
  simp only [
    implies_true, ↓edge_held, ↓onCapsule_held]

theorem showIdentity_held (s : State) (x1 : Nat) (x2 : List Byte) : held (State.showIdentity s x1 x2) = held s := by
  simp only [State.showIdentity,
    ↓wr_held, ↓setReg_held]

theorem quarantine_held (s : State) (x1 : Nat) (x2 : Nat) : held (State.quarantine s x1 x2) = held s := by
  simp only [State.quarantine, ↓held_ite, ite_self,
    ↓fullRetrain_held, ↓dropTag_held,
    ↓modLnk_held, ↓wr_held]

theorem badReply_held (s : State) (x1 : Nat) (x2 : Tag) : held (State.badReply s x1 x2) = held s := by
  simp only [State.badReply,
    ↓pendFault_held, ↓quarantine_held]

theorem dataIn_held (s : State) (x1 : Nat) (x2 : List Byte) : held (State.dataIn s x1 x2) = held s := by
  simp only [State.dataIn]
  repeat' split
  all_goals try simp only [
    ↓badReply_held, ↓modLnk_held, ↓modRec_held,
    ↓dropTag_held, ↓setScratch_held]

theorem execDataIn_held (x0 : Fin 512) (s : State) : ∀ t, execDataIn x0 s = .next t → held t = held s := by
  intro t h
  unfold execDataIn at h
  replace h := next_inj h
  subst h
  simp only [
    implies_true, ↓dataIn_held, ↓onCapsule_held]

theorem enumLink_held (s : State) (x1 : Nat) (x2 : Option (List Byte)) : held (State.enumLink s x1 x2) = held s := by
  simp only [State.enumLink, ↓held_ite, ite_self, ↓held_foldl,
    implies_true, ↓showIdentity_held, ↓enumAbsent_held, ↓modLnk_held,
    ↓wr_held, ↓enumDone_held, ↓raise_held]

theorem bridgeTemp_held (s : State) (x1 : Nat) (x2 : ℤ) : held (State.bridgeTemp s x1 x2) = held s := by
  simp only [State.bridgeTemp, ↓held_ite, ite_self,
    ↓raiseIf_held, ↓closeBandsOf_held,
    ↓setLink_held, ↓modLnk_held]

theorem tempIn_held (s : State) (x1 : Nat) (x2 : List Byte) : held (State.tempIn s x1 x2) = held s := by
  simp only [State.tempIn, ↓held_ite, ite_self,
    ↓modLnk_held, ↓bridgeTemp_held, ↓wr_held]

theorem idChanged_held (s : State) (x1 : Nat) : held (State.idChanged s x1) = held s := by
  simp only [State.idChanged,
    ↓held_foldl, implies_true, ↓modLnk_held, ↓wr_held, ↓dieAbsent_held,
    ↓raise_held]

theorem postIdentity_held (s : State) (x1 : Nat) (x2 : List Byte) : held (State.postIdentity s x1 x2) = held s := by
  simp only [State.postIdentity, ↓held_ite, ite_self,
    ↓held_foldl, implies_true, ↓idChanged_held, ↓dieNeedsReset_held,
    ↓modLnk_held, ↓returnDone_held, ↓pump_held]

theorem tempStale_held (s : State) (x1 : Nat) : held (State.tempStale s x1) = held s := by
  simp only [State.tempStale, ↓held_ite, ite_self,
    ↓bridgeTemp_held, ↓wr_held, ↓raise_held]

theorem execJlTempStale_held (x0 : Fin 512) (s : State) : ∀ t, execJlTempStale x0 s = .next t → held t = held s := by
  intro t h
  unfold execJlTempStale at h
  replace h := next_inj h
  subst h
  simp only [↓held_ite, ite_self,
    ↓settleDma_held, ↓tempStale_held]

theorem errorIn_held (s : State) (x1 : Nat) (x2 : List Byte) : held (State.errorIn s x1 x2) = held s := by
  simp only [State.errorIn, ↓held_ite, ite_self,
    ↓wr_held, ↓fullRetrain_held,
    ↓dropTag_held, ↓bump_held, ↓raise_held]
  repeat' split
  all_goals try simp only [
    ↓pendFault_held, ↓wr_held,
    ↓dropTag_held, ↓bump_held, ↓raise_held]

theorem execErrorCapsule_held (x0 : Fin 512) (s : State) : ∀ t, execErrorCapsule x0 s = .next t → held t = held s := by
  intro t h
  unfold execErrorCapsule at h
  replace h := next_inj h
  subst h
  simp only [
    implies_true, ↓errorIn_held, ↓onCapsule_held]

theorem execTempCapsule_held (x0 : Fin 512) (s : State) : ∀ t, execTempCapsule x0 s = .next t → held t = held s := by
  intro t h
  unfold execTempCapsule at h
  replace h := next_inj h
  subst h
  simp only [
    implies_true, ↓settleDma_held, ↓onCapsule_held, ↓tempIn_held]

theorem mgmtResp_held (s : State) (x1 : Nat) (x2 : List Byte) : held (State.mgmtResp s x1 x2) = held s := by
  simp only [State.mgmtResp]
  repeat' split
  all_goals try simp only [
    ↓postIdentity_held, ↓idChanged_held, ↓dropTag_held]

theorem enumDeadline_held (s : State) : held (State.enumDeadline s) = held s := by
  simp only [State.enumDeadline, ↓held_ite, ite_self,
    ↓held_foldl, implies_true, ↓enumDie_held]

theorem execStatusResp_held (x0 : Fin 512) (s : State) : ∀ t, execStatusResp x0 s = .next t → held t = held s := by
  intro t h
  unfold execStatusResp at h
  replace h := next_inj h
  subst h
  simp only [
    implies_true, ↓statusResp_held, ↓onCapsule_held]

theorem replyTimeout_held (s : State) (x1 : Nat) : held (State.replyTimeout s x1) = held s := by
  simp only [State.replyTimeout, ↓held_ite, ite_self,
    ↓held_foldl, implies_true, ↓quarantine_held, ↓pendFault_held,
    ↓idChanged_held, ↓bump_held, ↓raise_held]

theorem execJlReplyTimeout_held (x0 : Fin 512) (s : State) : ∀ t,
    execJlReplyTimeout x0 s = .next t → held t = held s := by
  intro t h
  unfold execJlReplyTimeout at h
  replace h := next_inj h
  subst h
  simp only [↓held_ite, ite_self,
    ↓replyTimeout_held, ↓settleDma_held]

theorem execMgmtResp_held (x0 : Fin 512) (s : State) : ∀ t, execMgmtResp x0 s = .next t → held t = held s := by
  intro t h
  unfold execMgmtResp at h
  replace h := next_inj h
  subst h
  simp only [
    implies_true, ↓settleDma_held, ↓mgmtResp_held, ↓onCapsule_held]

theorem maintStop_held (s : State) (x1 : Act → Bool) : held (State.maintStop s x1) = held s := by
  simp only [State.maintStop,
    ↓modMaint_held]

theorem execMntPfiFall_held (s : State) : ∀ t, execMntPfiFall s = .next t → held t = held s := by
  intro t h
  unfold execMntPfiFall at h
  replace h := next_inj h
  subst h
  simp only [↓held_ite, ite_self,
    ↓modBoard_held]

theorem entryEnds_held (s : State) : held (State.entryEnds s) = held s := by
  simp only [State.entryEnds, ↓held_ite, ite_self,
    ↓modPwr_held, ↓wr_held]

theorem muteWrites_held (s : State) : held (State.muteWrites s) = held s := by
  simp only [State.muteWrites,
    ↓modPath_held]

theorem beginFlush_held (s : State) (x1 : Flush) (x2 : Nat) : held (State.beginFlush s x1 x2) = held s := by
  simp only [State.beginFlush, ↓held_ite, ite_self,
    ↓held_foldl, implies_true, ↓settleDma_held, ↓learnAbort_held,
    ↓maintStop_held, ↓jlFlush_held, ↓slvFlush_held, ↓modFtl_held, ↓muteWrites_held, ↓entryEnds_held, ↓stopBand_held,
    ↓tally_held, ↓hardClose_held]

theorem lossFlush_held (s : State) (x1 : Nat) : held (State.lossFlush s x1) = held s := by
  simp only [State.lossFlush,
    ↓beginFlush_held]

theorem mantleLoss_held (s : State) : held (State.mantleLoss s) = held s := by
  simp only [State.mantleLoss, ↓held_ite, ite_self,
    ↓held_foldl, implies_true, ↓modMnt_held, ↓loopOff_held, ↓wr64_held,
    ↓loopStart_held, ↓learnAbort_held, ↓wr_held, ↓trcTrigger_held, ↓modStr_held]

theorem lossReport_held (s : State) : held (State.lossReport s) = held s := by
  simp only [State.lossReport, ↓held_ite, ite_self,
    ↓modBoard_held, ↓record_held,
    ↓mantleLoss_held, ↓storeEmpty_held, ↓lossFlush_held, ↓kill_held, ↓raise_held]

theorem coolDeadline_held (s : State) : held (State.coolDeadline s) = held s := by
  simp only [State.coolDeadline, ↓held_ite, ite_self,
    ↓kill_held]

theorem sysRst_held (s : State) : held (State.sysRst s) = held s := by
  simp only [State.sysRst, ↓held_ite, ite_self,
    ↓kill_held, ↓auxReset_held, ↓lossFlush_held]

theorem execSysRstAccept_held (s : State) : ∀ t, execSysRstAccept s = .next t → held t = held s := by
  intro t h
  unfold execSysRstAccept at h
  replace h := next_inj h
  subst h
  simp only [
    ↓sysRst_held]

theorem execLossReport_held (s : State) : ∀ t, execLossReport s = .next t → held t = held s := by
  intro t h
  unfold execLossReport at h
  replace h := next_inj h
  subst h
  simp only [
    ↓lossReport_held]

theorem powerRestored_held (s : State) : held (State.powerRestored s) = held s := by
  simp only [State.powerRestored, ↓held_ite, ite_self,
    ↓modBoard_held, ↓raise_held]

theorem execPowerRestored_held (s : State) : ∀ t, execPowerRestored s = .next t → held t = held s := by
  intro t h
  unfold execPowerRestored at h
  replace h := next_inj h
  subst h
  simp only [
    ↓powerRestored_held]

theorem warmFlush_held (s : State) (x1 : Bool) (x2 : Bool) : held (State.warmFlush s x1 x2) = held s := by
  simp only [State.warmFlush,
    ↓beginFlush_held]

theorem bootRecord_held (s : State) (x1 : Nat → BootKind → BootKind) : held (State.bootRecord s x1) = held s := by
  simp only [State.bootRecord,
    implies_true, ↓modBoot_held]

theorem execMntPfiRise_held (s : State) : ∀ t, execMntPfiRise s = .next t → held t = held s := by
  intro t h
  unfold execMntPfiRise at h
  replace h := next_inj h
  subst h
  simp only [↓held_ite, ite_self,
    ↓modBoard_held]

theorem mainPgFall_held (s : State) (x1 : Nat) (x2 : Nat) : held (State.mainPgFall s x1 x2) = held s := by
  simp only [State.mainPgFall, ↓held_ite, ite_self,
    ↓modBoard_held, ↓record_held,
    ↓lossFlush_held]

theorem execCoolFlushDeadline_held (s : State) : ∀ t, execCoolFlushDeadline s = .next t → held t = held s := by
  intro t h
  unfold execCoolFlushDeadline at h
  replace h := next_inj h
  subst h
  simp only [
    ↓coolDeadline_held]

theorem nssr_held (s : State) : held (State.nssr s) = held s := by
  simp only [State.nssr, ↓held_ite, ite_self,
    ↓warmFlush_held]

theorem execNvmSubsystemReset_held (x0 : Fin 4) (s : State) : ∀ t,
    execNvmSubsystemReset x0 s = .next t → held t = held s := by
  intro t h
  unfold execNvmSubsystemReset at h
  replace h := next_inj h
  subst h
  simp only [↓held_ite, ite_self,
    ↓nssr_held]

theorem revert_held (s : State) (x1 : List Nat) : held (State.revert s x1) = held s := by
  simp only [State.revert, ↓held_ite, ite_self, ↓held_foldl,
    implies_true, ↓modBoot_held, ↓record_held, ↓bootRecord_held,
    ↓tally_held]

theorem trialFail_held (s : State) : held (State.trialFail s) = held s := by
  simp only [State.trialFail, ↓held_ite, ite_self,
    ↓bootRecord_held, ↓wr_held, ↓revert_held]

theorem execMainPgFall_held (x0 : Fin 65536) (x1 : Fin 65536) (s : State) : ∀ t,
    execMainPgFall x0 x1 s = .next t → held t = held s := by
  intro t h
  unfold execMainPgFall at h
  replace h := next_inj h
  subst h
  simp only [
    ↓mainPgFall_held]

theorem execFtlWatchdogExpiry_held (s : State) : ∀ t, execFtlWatchdogExpiry s = .next t → held t = held s := by
  intro t h
  unfold execFtlWatchdogExpiry at h
  replace h := next_inj h
  subst h
  simp only [↓held_ite, ite_self,
    ↓warmFlush_held, ↓trialFail_held]

theorem putRemap_held (s : State) (x1 : Nat) (x2 : Nat) : held (State.putRemap s x1 x2) = held s := by
  simp only [State.putRemap,
    ↓wr_held, ↓raise_held]

theorem dramLost_held (s : State) (x1 : Nat) (x2 : Nat) (x3 : Nat) (x4 : Option Nat) (x5 : Bool) : held (State.dramLost
    s x1 x2 x3 x4 x5) = held s := by
  simp only [State.dramLost, ↓held_ite, ite_self,
    ↓warmFlush_held,
    ↓modDram_held]
  repeat' split
  all_goals try simp only [
    ↓modStripe_held, ↓mapUnreadable_held]

theorem freeBytes_held (s : State) : held (State.freeBytes s).1 = held s := by
  simp only [State.freeBytes,
    ↓held_foldl_fst, implies_true, ↓free_held]

theorem lineOrFree_held (s : State) : held (State.lineOrFree s).1 = held s := by
  simp only [State.lineOrFree]
  repeat' split
  all_goals try simp only [
    ↓freeBytes_held]

theorem freeLine_held (s : State) : held (State.freeLine s) = held s := by
  simp only [State.freeLine, ↓held_foldl,
    implies_true, ↓free_held, ↓setReg_held]

theorem showLine_held (s : State) (x1 : List Byte) : held (State.showLine s x1) = held s := by
  simp only [State.showLine,
    ↓putWords_held]

theorem testResult_held (s : State) (x1 : Bool) (x2 : Nat) (x3 : Nat) : held (State.testResult s x1 x2 x3) = held s :=
    by
  simp only [State.testResult,
    ↓wr_held]

theorem readRaw_held (s : State) : held (State.readRaw s) = held s := by
  simp only [State.readRaw,
    ↓testResult_held]
  repeat' split
  all_goals try simp only [
    ↓showLine_held, ↓freeLine_held]

theorem track_held (s : State) (x1 : Nat) (x2 : ℤ) (x3 : ℤ) : held (State.track s x1 x2 x3) = held s := by
  simp only [State.track, ↓held_ite, ite_self,
    ↓record_held, ↓modDrch_held, ↓wr_held, ↓bumpBy_held,
    ↓bump_held, ↓raise_held]

theorem execDramWck2dqiTrack_held (x0 : Fin 24) (x1 : Fin 256) (x2 : Fin 256) (s : State) : ∀ t,
    execDramWck2dqiTrack x0 x1 x2 s = .next t → held t = held s := by
  intro t h
  unfold execDramWck2dqiTrack at h
  replace h := next_inj h
  subst h
  simp only [↓held_ite, ite_self,
    ↓track_held]

theorem openRead_held (s : State) (x1 : Nat) (x2 : Nat) : held (State.openRead s x1 x2) = held s := by
  exact (testResult_held _ _ _ _).trans (freeLine_held _)

theorem testDecoded_held (s : State) (x1 : List Byte) (x2 : Decoded) : held (State.testDecoded s x1 x2) = held s := by
  cases x2 with
  | clean => exact (testResult_held _ _ _ _).trans (showLine_held _ _)
  | corrected k e => exact (testResult_held _ _ _ _).trans (showLine_held _ _)
  | uncorrectable => exact (testResult_held _ _ _ _).trans (freeLine_held _)

theorem testRead_held (s : State) (x1 : Nat) (x2 : Nat) : held (State.testRead s x1 x2) = held s := by
  unfold State.testRead
  split
  · split
    · exact testDecoded_held _ _ _
    · exact openRead_held _ _ _
  · exact openRead_held _ _ _

theorem recordChannel_held (s : State) (x1 : Nat) (x2 : Nat) : held (State.recordChannel s x1 x2) = held s := by
  simp only [State.recordChannel,
    ↓record_held, ↓modLife_held]

theorem setDrState_held (s : State) (x1 : Nat) (x2 : Nat) : held (State.setDrState s x1 x2) = held s := by
  simp only [State.setDrState, ↓held_ite, ite_self,
    ↓wr_held, ↓raise_held]

theorem channelFail_held (s : State) (x1 : Nat) (x2 : Nat) : held (State.channelFail s x1 x2) = held s := by
  simp only [State.channelFail, ↓held_ite, ite_self,
    ↓warmFlush_held, ↓setDrState_held,
    ↓recordChannel_held]

theorem retrainDone_held (s : State) (x1 : Nat) (x2 : Bool) : held (State.retrainDone s x1 x2) = held s := by
  simp only [State.retrainDone]
  repeat' split
  all_goals try simp only [
    ↓channelFail_held, ↓setDrState_held, ↓modDrch_held,
    ↓wr_held, ↓raise_held]

theorem refreshTick_held (s : State) (x1 : Nat) (x2 : Nat) (x3 : List (Fin 32)) : held (State.refreshTick s x1 x2 x3) =
    held s := by
  simp only [State.refreshTick, ↓held_ite, ite_self,
    ↓modDrch_held, ↓wr_held, ↓bump_held]

theorem execDramRefreshTick_held (x0 : Fin 24) (x1 : Fin 32) (x2 : List (Fin 32)) (s : State) : ∀ t,
    execDramRefreshTick x0 x1 x2 s = .next t → held t = held s := by
  intro t h
  unfold execDramRefreshTick at h
  replace h := next_inj h
  subst h
  simp only [↓held_ite, ite_self,
    ↓refreshTick_held]

theorem testWrite_held (s : State) (x1 : List Byte → List Byte) : held (State.testWrite s x1) = held s := by
  unfold State.testWrite
  split
  · dsimp only
    rw [testResult_held]
    split
    · rename_i h
      exact (queueWrite_held _ _ _ _ _ h).trans (lineOrFree_held s)
    · rw [modDram_held, lineOrFree_held]
  · exact testResult_held _ _ _ _

theorem execWriteData_held (s : State) : ∀ t, execWriteData s = .next t → held t = held s := by
  intro t h
  unfold execWriteData at h
  replace h := next_inj h
  subst h
  simp only [↓held_ite, ite_self,
    ↓testWrite_held]

theorem execReadRaw_held (s : State) : ∀ t, execReadRaw s = .next t → held t = held s := by
  intro t h
  unfold execReadRaw at h
  replace h := next_inj h
  subst h
  simp only [↓held_ite, ite_self,
    ↓readRaw_held]

theorem rebuildTimeout_held (s : State) : held (State.rebuildTimeout s) = held s := by
  simp only [State.rebuildTimeout, ↓held_ite, ite_self,
    ↓warmFlush_held]

theorem noteDramError_held (s : State) (x1 : Nat) (x2 : Nat) (x3 : Nat) (x4 : Nat) (x5 : Nat) (x6 : Nat) : held
    (State.noteDramError s x1 x2 x3 x4 x5 x6) = held s := by
  simp only [State.noteDramError,
    ↓wr_held, ↓raise_held]

theorem remapLine_held (s : State) (x1 : Nat) (x2 : Nat) : held (State.remapLine s x1 x2) = held s := by
  simp only [State.remapLine, ↓held_ite, ite_self,
    ↓putRemap_held, ↓record_held,
    ↓modLife_held, ↓wr_held, ↓bump_held]

theorem dramCorrected_held (s : State) (x1 : Nat) (x2 : Nat) (x3 : Nat) (x4 : Nat) (x5 : Nat) : held
    (State.dramCorrected s x1 x2 x3 x4 x5) = held s := by
  unfold State.dramCorrected
  dsimp only
  generalize h : State.modDrch _ _ _ = s2
  have e : held s2 = held s := by
    rw [← h, modDrch_held, noteDramError_held, bump_held]
  have e3 : ∀ c : Prop, ∀ _ : Decidable c, held (if c then s2 else (s2.queueWrite x1 x2 none).getD s2) = held s := by
    intro c _
    rw [held_ite]
    split
    · exact e
    · exact held_getD (fun t ht => (queueWrite_held _ _ _ _ _ ht).trans e) e
  rw [held_ite, remapLine_held, ite_self]
  exact e3 _ _

theorem dramUncorrectable_held (s : State) (x1 : Nat) (x2 : Nat) (x3 : Nat) (x4 : Nat) (x5 : Option Nat) (x6 : Bool) :
    held (State.dramUncorrectable s x1 x2 x3 x4 x5 x6) = held s := by
  simp only [State.dramUncorrectable, ↓held_ite, ite_self,
    ↓channelFail_held, ↓dramLost_held,
    ↓record_held, ↓modDrch_held, ↓noteDramError_held, ↓bump_held]

theorem dramRead_held (s : State) (x1 : Nat) (x2 : Nat) (x3 : Nat) (x4 : Nat) (x5 : Nat) (x6 : Option Nat) (x7 : Bool)
    : held (State.dramRead s x1 x2 x3 x4 x5 x6 x7) = held s := by
  simp only [State.dramRead, ↓held_ite, ite_self,
    ↓dramUncorrectable_held, ↓dramCorrected_held,
    ↓modDram_held, ↓remapLine_held]

theorem lineReturn_held (s : State) (x1 : Nat) (x2 : Nat) (x3 : Nat) (x4 : Nat) (x5 : Option Nat) (x6 : Bool) : held
    (State.lineReturn s x1 x2 x3 x4 x5 x6) = held s := by
  unfold State.lineReturn
  dsimp only
  have e : ∀ a b, held ((s.readServed a b).dramRead a b x2 x3 x4 x5 x6) = held s := fun a b =>
    (dramRead_held _ _ _ _ _ _ _ _).trans (readServed_held _ _ _)
  split
  · rfl
  · split
    · rfl
    · split
      · exact held_getD (fun t ht => (queueWrite_held _ _ _ _ _ ht).trans (e _ _)) (e _ _)
      · exact e _ _

theorem execDramReadReturn_held (x0 : Nat) (x1 : Bool) (x2 : Fin 3) (x3 : Fin 36) (x4 : Option Nat) (x5 : Bool) (s :
    State) : ∀ t, execDramReadReturn x0 x1 x2 x3 x4 x5 s = .next t → held t = held s := by
  intro t h
  unfold execDramReadReturn at h
  replace h := next_inj h
  subst h
  simp only [↓held_ite, ite_self,
    ↓lineReturn_held, ↓settleDma_held]

theorem mr4Poll_held (s : State) (x1 : Nat) (x2 : Nat) : held (State.mr4Poll s x1 x2) = held s := by
  simp only [State.mr4Poll, ↓held_ite, ite_self,
    ↓wr_held, ↓raiseIf_held]

theorem retrainStart_held (s : State) (x1 : Nat) : held (State.retrainStart s x1) = held s := by
  simp only [State.retrainStart,
    ↓setDrState_held, ↓modDrch_held,
    ↓bump_held]

theorem dramTrained_held (s : State) : held (State.dramTrained s) = held s := by
  simp only [State.dramTrained, ↓held_ite, ite_self,
    ↓held_foldl, implies_true, ↓setDrState_held, ↓wr_held]

theorem execDrcTestRead_held (x0 : Fin 3) (x1 : Fin 36) (s : State) : ∀ t,
    execDrcTestRead x0 x1 s = .next t → held t = held s := by
  intro t h
  unfold execDrcTestRead at h
  replace h := next_inj h
  subst h
  simp only [↓held_ite, ite_self,
    ↓testRead_held]

theorem trainingFail_held (s : State) (x1 : Nat) : held (State.trainingFail s x1) = held s := by
  simp only [State.trainingFail, ↓held_ite, ite_self,
    ↓setDrState_held, ↓recordChannel_held,
    ↓warmFlush_held, ↓modDrch_held, ↓wr_held, ↓raise_held]

theorem execDramTrainingFail_held (x0 : Fin 24) (s : State) : ∀ t,
    execDramTrainingFail x0 s = .next t → held t = held s := by
  intro t h
  unfold execDramTrainingFail at h
  replace h := next_inj h
  subst h
  simp only [↓held_ite, ite_self,
    ↓trainingFail_held]

theorem execWriteBoth_held (s : State) : ∀ t, execWriteBoth s = .next t → held t = held s := by
  intro t h
  unfold execWriteBoth at h
  replace h := next_inj h
  subst h
  simp only [↓held_ite, ite_self,
    ↓testWrite_held]

theorem dramInit_held (s : State) : held (State.dramInit s) = held s := by
  simp only [State.dramInit, ↓held_ite, ite_self, ↓held_foldl,
    implies_true, ↓showChannels_held, ↓putRemap_held, ↓wr_held]

theorem execDramLineRebuildTimeout_held (s : State) : ∀ t,
    execDramLineRebuildTimeout s = .next t → held t = held s := by
  intro t h
  unfold execDramLineRebuildTimeout at h
  replace h := next_inj h
  subst h
  simp only [↓held_ite, ite_self,
    ↓rebuildTimeout_held]

theorem scrubRead_held (s : State) (x1 : Nat) (x2 : Bool) (x3 : Nat) (x4 : Nat) : held (State.scrubRead s x1 x2 x3 x4)
    = held s := by
  simp only [State.scrubRead, ↓held_ite, ite_self,
    ↓modDrch_held, ↓wr_held, ↓dramRead_held,
    ↓bump_held]

theorem execWriteCheck_held (s : State) : ∀ t, execWriteCheck s = .next t → held t = held s := by
  intro t h
  unfold execWriteCheck at h
  replace h := next_inj h
  subst h
  simp only [↓held_ite, ite_self,
    ↓testWrite_held]

theorem execDramMr4Poll_held (x0 : Fin 24) (x1 : Fin 32) (s : State) : ∀ t,
    execDramMr4Poll x0 x1 s = .next t → held t = held s := by
  intro t h
  unfold execDramMr4Poll at h
  replace h := next_inj h
  subst h
  simp only [↓held_ite, ite_self,
    ↓mr4Poll_held]

theorem execDramScrubRead_held (x0 : Fin 24) (x1 : Bool) (x2 : Fin 3) (x3 : Fin 36) (s : State) : ∀ t,
    execDramScrubRead x0 x1 x2 x3 s = .next t → held t = held s := by
  intro t h
  unfold execDramScrubRead at h
  replace h := next_inj h
  subst h
  simp only [↓held_ite, ite_self,
    ↓scrubRead_held, ↓settleDma_held]

theorem markTrial_held (s : State) (x1 : Pkg) : held (State.markTrial s x1) = held s := by
  simp only [State.markTrial,
    ↓bootRecord_held]

theorem writeSlot_held (s : State) (x1 : Pkg) (x2 : Comp) : held (State.writeSlot s x1 x2) = held s := by
  simp only [State.writeSlot,
    implies_true, ↓modBoot_held]

theorem installPkg_held (s : State) (x1 : Pkg) (x2 : Bool) : held (State.installPkg s x1 x2).1 = held s := by
  simp only [State.installPkg, ↓held_ite, ↓held_fst_ite, ite_self,
    ↓held_foldl, implies_true, ↓markTrial_held, ↓writeSlot_held
    ]
  repeat' split
  all_goals try simp only [
    ↓report_held]

end Sys2Proof.Laws
end

