-- ==== Sys2Proof/Laws/HeldHost.lean ====
section
/-!
SUPPORT. Laws/HeldHost.lean: what `held` covers, through the operations of
start-up, ports, management, power, thermal, maintenance, features, logs and NVMe-MI.
-/
namespace Sys2Proof.Laws
open Sys2Proof.Machine

theorem portsTrain_held (s : State) : held (State.portsTrain s) = held s := by
  simp only [State.portsTrain, ↓held_ite, ite_self,
    ↓held_foldl, implies_true, ↓setCtrl_held]

theorem startLinks_held (s : State) : held (State.startLinks s) = held s := by
  simp only [State.startLinks, ↓held_ite, ite_self,
    ↓held_foldl, implies_true, ↓setLink_held, ↓setJl_held,
    ↓toDetect_held]

theorem setAssists_held (s : State) (x1 : Nat) (x2 : Nat) (x3 : Nat) : held (State.setAssists s x1 x2 x3) = held s := by
  simp only [State.setAssists,
    ↓wr_held]

theorem setVcore_held (s : State) (x1 : Nat) : held (State.setVcore s x1) = held s := by
  simp only [State.setVcore,
    ↓modBoard_held, ↓wr_held]

theorem vcoreRun_held (s : State) : held (State.vcoreRun s) = held s := by
  simp only [State.vcoreRun, ↓held_snd_ite, ite_self,
    ↓setVcore_held, ↓free_held, ↓setAssists_held]

theorem mainInit_held (s : State) (x1 : List (Fin 16)) : held (State.mainInit s x1) = held s := by
  simp only [State.mainInit, ↓held_ite, ite_self, ↓held_foldl,
    implies_true, ↓newLoadKey_held, ↓modBoot_held, ↓modBoard_held,
    ↓vcoreRun_held, ↓resolveKeys_held, ↓setPhase_held, ↓dramInit_held, ↓portsTrain_held, ↓adoptRole_held,
    ↓startLinks_held, ↓laneKat_held]

theorem execMainInit_held (x0 : List (Fin 16)) (s : State) : ∀ t, execMainInit x0 s = .next t → held t = held s := by
  intro t h
  unfold execMainInit at h
  replace h := next_inj h
  subst h
  simp only [
    ↓mainInit_held]

theorem showImage_held (s : State) (x1 : ClampReport) (x2 : Nat) : held (State.showImage s x1 x2) = held s := by
  simp only [State.showImage,
    ↓wr64_held, ↓wr_held]

theorem trainingEnd_held (s : State) : held (State.trainingEnd s) = held s := by
  simp only [State.trainingEnd, ↓held_ite, ite_self,
    ↓setPhase_held, ↓dramTrained_held]

theorem loseRequests_held (s : State) : held (State.loseRequests s) = held s := by
  simp only [State.loseRequests, ↓held_ite, ite_self,
    ↓held_foldl, implies_true, ↓wr_held]

theorem railRetry_held (s : State) : held (State.railRetry s) = held s := by
  simp only [State.railRetry]
  repeat' split
  all_goals try simp only [
    ↓modBoard_held]

theorem vauxFall_held (s : State) : held (State.vauxFall s) = held s := by
  simp only [State.vauxFall, ↓held_ite, ite_self,
    ↓modBoard_held, ↓kill_held]

theorem execVauxFall_held (s : State) : ∀ t, execVauxFall s = .next t → held t = held s := by
  intro t h
  unfold execVauxFall at h
  replace h := next_inj h
  subst h
  simp only [↓held_ite, ite_self,
    ↓vauxFall_held]

theorem showTrial_held (s : State) : held (State.showTrial s) = held s := by
  simp only [State.showTrial,
    ↓wr_held]

theorem bootError_held (s : State) (x1 : Nat) : held (State.bootError s x1) = held s := by
  simp only [State.bootError,
    ↓wr_held]

theorem loadSlot_held (s : State) (x1 : Nat) : held (State.loadSlot s x1).1 = held s := by
  simp only [State.loadSlot, ↓held_fst_ite, ite_self,
    ↓showTrial_held, ↓revert_held, ↓bootError_held]

theorem ran_held (s : State) (x1 : Nat) (x2 : Nat) (x3 : Nat) : held (State.ran s x1 x2 x3) = held s := by
  simp only [State.ran,
    implies_true, ↓modBoot_held, ↓showTrial_held, ↓extend_held]

theorem mainLoad_held (s : State) : held (State.mainLoad s) = held s := by
  unfold State.mainLoad
  repeat' split
  all_goals
    try have hh := congrArg (fun p => held p.1) ‹State.loadSlot _ _ = _›
    try simp only [
      ↓loadSlot_held, ↓setPhase_held, ↓ran_held,
      ↓setReg_held] at *
  all_goals try simp_all only []

theorem railTimeout_held (s : State) (x1 : Nat) (x2 : Nat) : held (State.railTimeout s x1 x2) = held s := by
  simp only [State.railTimeout, ↓held_ite, ite_self,
    ↓modBoard_held, ↓record_held,
    ↓modLife_held, ↓bootError_held]

theorem railStart_held (s : State) : held (State.railStart s) = held s := by
  simp only [State.railStart, ↓held_ite, ite_self,
    ↓modBoard_held]

theorem execRailStageStart_held (s : State) : ∀ t, execRailStageStart s = .next t → held t = held s := by
  intro t h
  unfold execRailStageStart at h
  replace h := next_inj h
  subst h
  simp only [
    ↓railStart_held]

theorem belfryDown_held (s : State) : held (State.belfryDown s) = held s := by
  simp only [State.belfryDown, ↓held_ite, ite_self,
    implies_true, ↓fitAbandon_held, ↓modBoot_held,
    ↓record_held, ↓trialFail_held, ↓tally_held, ↓loseRequests_held, ↓showTrial_held]

theorem loadMicro_held (s : State) (x1 : Micro) : held (State.loadMicro s x1) = held s := by
  simp only [State.loadMicro,
    ↓held_foldl, implies_true, ↓setSleeve_held, ↓wr_held, ↓showLive_held]

theorem showUnusable_held (s : State) (x1 : List Nat) : held (State.showUnusable s x1) = held s := by
  unfold State.showUnusable
  repeat' first
    | simp only [held_mk, held_fold, ↓held_ite, ite_self,
        ↓setLink_held, ↓wr_held, ↓raise_held]
    | intro _
    | split
    | refine (held_foldl _ ?_ _ _).trans ?_
    | refine (held_foldl_fst _ ?_ _ _).trans ?_
    | refine (held_foldl_snd _ ?_ _ _).trans ?_

theorem microLoad_held (s : State) : held (State.microLoad s) = held s := by
  unfold State.microLoad
  repeat' split
  all_goals
    try have hh := congrArg (fun p => held p.1) ‹State.loadSlot _ _ = _›
    try simp only [
      ↓loadSlot_held, ↓setPhase_held, ↓showUnusable_held,
      ↓loadMicro_held, ↓ran_held, ↓bootError_held] at *
  all_goals try simp_all only []

theorem applyRegs_held (s : State) (x1 : List Rec) : held (State.applyRegs s x1) = held s := by
  simp only [State.applyRegs,
    ↓held_foldl, implies_true, ↓setReg_held, ↓wr_held]

theorem useConfig_held (s : State) (x1 : List Rec) (x2 : Bool) : held (State.useConfig s x1 x2) = held s := by
  simp only [State.useConfig, held_mk, held_fold]

theorem noImage_held (s : State) : held (State.noImage s) = held s := by
  simp only [State.noImage,
    ↓applyRegs_held, ↓wr_held, ↓useConfig_held,
    ↓bootError_held]

theorem execMicrocodeLoad_held (s : State) : ∀ t, execMicrocodeLoad s = .next t → held t = held s := by
  intro t h
  unfold execMicrocodeLoad at h
  replace h := next_inj h
  subst h
  simp only [
    ↓microLoad_held]

theorem belfryLoad_held (s : State) : held (State.belfryLoad s) = held s := by
  unfold State.belfryLoad
  repeat' split
  all_goals
    try have hh := congrArg (fun p => held p.1) ‹State.loadSlot _ _ = _›
    try simp only [
      implies_true, ↓modBoot_held, ↓setPhase_held, ↓ran_held,
      ↓loadSlot_held] at *
  all_goals try simp_all only []

theorem execBelfryFwLoad_held (s : State) : ∀ t, execBelfryFwLoad s = .next t → held t = held s := by
  intro t h
  unfold execBelfryFwLoad at h
  replace h := next_inj h
  subst h
  simp only [
    ↓belfryLoad_held]

theorem bootFail_held (s : State) : held (State.bootFail s) = held s := by
  simp only [State.bootFail, ↓held_ite, ite_self,
    implies_true, ↓modBoot_held, ↓setPhase_held, ↓warmFlush_held,
    ↓kill_held, ↓showTrial_held]

theorem enumEnd_held (s : State) : held (State.enumEnd s) = held s := by
  simp only [State.enumEnd, ↓held_ite, ite_self,
    ↓setPhase_held, ↓extend_held]

theorem bootWatchdog_held (s : State) : held (State.bootWatchdog s) = held s := by
  simp only [State.bootWatchdog, ↓held_ite, ite_self,
    ↓warmFlush_held, ↓bootFail_held,
    ↓showTrial_held, ↓bootError_held, ↓trialFail_held]

theorem execBootWatchdogExpiry_held (s : State) : ∀ t, execBootWatchdogExpiry s = .next t → held t = held s := by
  intro t h
  unfold execBootWatchdogExpiry at h
  replace h := next_inj h
  subst h
  simp only [
    ↓bootWatchdog_held, ↓settleDma_held]

theorem execEnumerateDieDeadline_held (s : State) : ∀ t, execEnumerateDieDeadline s = .next t → held t = held s := by
  intro t h
  unfold execEnumerateDieDeadline at h
  replace h := next_inj h
  subst h
  simp only [↓held_ite, ite_self,
    ↓enumEnd_held, ↓enumDeadline_held]

theorem belfryCheck_held (s : State) : held (State.belfryCheck s) = held s := by
  simp only [State.belfryCheck, ↓held_ite, ite_self,
    implies_true, ↓modBoot_held, ↓wr_held]

theorem belfryWatchdog_held (s : State) : held (State.belfryWatchdog s) = held s := by
  simp only [State.belfryWatchdog, ↓held_ite, ite_self,
    ↓held_foldl, implies_true, ↓reserveDurable_held, ↓belfryDown_held,
    ↓belfryCheck_held, ↓raise_held]

theorem execMantleStart_held (x0 : List (Nat × Nat × Nat)) (s : State) : ∀ t,
    execMantleStart x0 s = .next t → held t = held s := by
  intro t h
  unfold execMantleStart at h
  replace h := next_inj h
  subst h
  simp only [↓held_ite, ite_self,
    implies_true, ↓modBoot_held, ↓mantleStart_held, ↓showReady_held,
    ↓setPhase_held, ↓showTrial_held]

theorem execTrainingEnd_held (s : State) : ∀ t, execTrainingEnd s = .next t → held t = held s := by
  intro t h
  unfold execTrainingEnd at h
  replace h := next_inj h
  subst h
  simp only [
    ↓trainingEnd_held]

theorem execMainFwLoad_held (s : State) : ∀ t, execMainFwLoad s = .next t → held t = held s := by
  intro t h
  unfold execMainFwLoad at h
  replace h := next_inj h
  subst h
  simp only [
    ↓mainLoad_held]

theorem execRailRetry_held (s : State) : ∀ t, execRailRetry s = .next t → held t = held s := by
  intro t h
  unfold execRailRetry at h
  replace h := next_inj h
  subst h
  simp only [
    ↓railRetry_held]

theorem enumerate_held (s : State) (x1 : List (Fin 512 × List Byte)) (x2 : List (Fin 512 × Fin 32)) (x3 : List (Fin 512
    × Fin 32)) : held (State.enumerate s x1 x2 x3) = held s := by
  simp only [State.enumerate, ↓held_ite, ite_self,
    ↓held_foldl, implies_true, ↓enumEnd_held, ↓enumLink_held,
    ↓enumDie_held]

theorem execEnumerate_held (x0 : List (Fin 512 × List Byte)) (x1 : List (Fin 512 × Fin 32)) (x2 : List (Fin 512 × Fin
    32)) (s : State) : ∀ t, execEnumerate x0 x1 x2 s = .next t → held t = held s := by
  intro t h
  unfold execEnumerate at h
  replace h := next_inj h
  subst h
  simp only [
    ↓enumerate_held]

theorem execRailStageTimeout_held (x0 : Fin 10) (x1 : Fin 65536) (s : State) : ∀ t,
    execRailStageTimeout x0 x1 s = .next t → held t = held s := by
  intro t h
  unfold execRailStageTimeout at h
  replace h := next_inj h
  subst h
  simp only [
    ↓railTimeout_held]

theorem execBelfryWatchdogExpiry_held (s : State) : ∀ t, execBelfryWatchdogExpiry s = .next t → held t = held s := by
  intro t h
  unfold execBelfryWatchdogExpiry at h
  replace h := next_inj h
  subst h
  simp only [
    ↓belfryWatchdog_held, ↓settleDma_held]

theorem execVauxRise_held (s : State) : ∀ t, execVauxRise s = .next t → held t = held s := by
  intro t h
  unfold execVauxRise at h
  replace h := next_inj h
  subst h
  simp only [↓held_ite, ite_self,
    ↓auxReset_held]

theorem clearRoutes_held (s : State) (x1 : Nat) : held (State.clearRoutes s x1) = held s := by
  simp only [State.clearRoutes, ↓held_ite, ite_self,
    ↓held_foldl, implies_true, ↓setReg_held]

theorem dropResponse_held (s : State) (x1 : Nat) : held (State.dropResponse s x1) = held s := by
  simp only [State.dropResponse, ↓held_ite, ite_self,
    ↓wr_held]

theorem orphans_held (s : State) (x1 : Nat) : held (State.orphans s x1) = held s := by
  simp only [State.orphans, held_mk, held_fold,
    implies_true, ↓modTakes_held, ↓modBoot_held, ↓modFtl_held,
    ↓modCph_held, ↓modPath_held, ↓modSlv_held]

theorem ctrlGone_held (s : State) (x1 : Nat) : held (State.ctrlGone s x1) = held s := by
  simp only [State.ctrlGone, ↓held_ite, ite_self, ↓held_foldl,
    implies_true, ↓fitAbandon_held, ↓dropWrite_held, ↓orphans_held,
    ↓dropResponse_held, ↓takesReset_held]

theorem portResetCtrl_held (s : State) (x1 : Nat) : held (State.portResetCtrl s x1) = held s := by
  simp only [State.portResetCtrl,
    ↓settleDma_held, ↓raiseIf_held,
    ↓setCtrl_held, ↓clearRoutes_held, ↓ctrlGone_held]

theorem portReset_held (s : State) (x1 : Nat) : held (State.portReset s x1) = held s := by
  simp only [State.portReset,
    ↓held_foldl, implies_true, ↓portResetCtrl_held]

theorem perstLow_held (s : State) (x1 : Nat) : held (State.perstLow s x1) = held s := by
  simp only [State.perstLow, ↓held_ite, ite_self,
    ↓modBoard_held, ↓wake_held, ↓modPwr_held,
    ↓portReset_held]

theorem execPerstAssert_held (x0 : Fin 2) (s : State) : ∀ t, execPerstAssert x0 s = .next t → held t = held s := by
  intro t h
  unfold execPerstAssert at h
  replace h := next_inj h
  subst h
  simp only [
    ↓perstLow_held]

theorem ctrlReset_held (s : State) (x1 : Nat) : held (State.ctrlReset s x1) = held s := by
  simp only [State.ctrlReset,
    ↓modCtrl_held, ↓settleDma_held,
    ↓ctrlGone_held]

theorem execPcieHotReset_held (x0 : Fin 4) (s : State) : ∀ t, execPcieHotReset x0 s = .next t → held t = held s := by
  intro t h
  unfold execPcieHotReset at h
  replace h := next_inj h
  subst h
  simp only [↓held_ite, ite_self,
    ↓portResetCtrl_held]

theorem execControllerReset_held (x0 : Fin 4) (s : State) : ∀ t,
    execControllerReset x0 s = .next t → held t = held s := by
  intro t h
  unfold execControllerReset at h
  replace h := next_inj h
  subst h
  simp only [↓held_ite, ite_self,
    ↓ctrlReset_held]

theorem execFunctionLevelReset_held (x0 : Fin 4) (s : State) : ∀ t,
    execFunctionLevelReset x0 s = .next t → held t = held s := by
  intro t h
  unfold execFunctionLevelReset at h
  replace h := next_inj h
  subst h
  simp only [↓held_ite, ite_self,
    ↓ctrlReset_held]

theorem perstHigh_held (s : State) (x1 : Nat) : held (State.perstHigh s x1) = held s := by
  simp only [State.perstHigh, ↓held_ite, ite_self,
    ↓held_foldl, implies_true, ↓modBoard_held, ↓modCtrl_held]

theorem execPerstDeassert_held (x0 : Fin 2) (s : State) : ∀ t, execPerstDeassert x0 s = .next t → held t = held s := by
  intro t h
  unfold execPerstDeassert at h
  replace h := next_inj h
  subst h
  simp only [
    ↓perstHigh_held]

theorem pcieUp_held (s : State) (x1 : Nat) (x2 : Partner) (x3 : Nat) : held (State.pcieUp s x1 x2 x3) = held s := by
  simp only [State.pcieUp, ↓held_ite, ite_self,
    ↓setCtrl_held, ↓raise_held]

theorem execPcieLinkUp_held (x0 : Fin 4) (x1 : Partner) (x2 : Fin 5) (s : State) : ∀ t,
    execPcieLinkUp x0 x1 x2 s = .next t → held t = held s := by
  intro t h
  unfold execPcieLinkUp at h
  replace h := next_inj h
  subst h
  simp only [
    ↓pcieUp_held]

theorem putNs_held (s : State) (x1 : Ns) : held (State.putNs s x1) = held s := by
  simp only [State.putNs, held_mk, held_fold, ↓held_ite, ite_self,
    ↓jput_held]

theorem compactNs_held (s : State) (x1 : Nat) : held (State.compactNs s x1).1 = held s := by
  simp only [State.compactNs,
    ↓held_foldl_fst, implies_true, ↓putNs_held]

theorem placeNs_held (s : State) (x1 : Ns) (x2 : Nat) : held (State.placeNs s x1 x2) = held s := by
  simp only [State.placeNs, ↓held_ite,
    ↓putNs_held]
  repeat' split
  all_goals try simp only [
    ↓compactNs_held, ↓putNs_held]

theorem reconcileOne_held (s : State) (x1 : Rec) : held (State.reconcileOne s x1).1 = held s := by
  simp only [State.reconcileOne]
  repeat' split
  all_goals try simp only [
    ↓placeNs_held, ↓fillSlot_held, ↓putNs_held]

theorem becomeReady_held (s : State) : held (State.becomeReady s) = held s := by
  simp only [State.becomeReady, ↓held_ite, ite_self,
    ↓setPhase_held, ↓wr_held]

theorem mendRecord_held (s : State) (x1 : Nat) (x2 : Nat) (x3 : ClipRec → List Nat) (x4 : ClipRec) : held
    (State.mendRecord s x1 x2 x3 x4) = held s := by
  simp only [State.mendRecord, ↓held_ite, ite_self,
    ↓takeWrite_held, ↓takeTrim_held]

theorem recoverClip_held (s : State) (x1 : Nat) (x2 : Nat) : held (State.recoverClip s x1 x2) = held s := by
  simp only [State.recoverClip]
  repeat' split
  all_goals try simp only [↓held_foldl,
    implies_true, ↓modClip_held, ↓mendRecord_held, ↓takeTrim_held]

theorem recoverTake_held (s : State) (x1 : Nat) : held (State.recoverTake s x1) = held s := by
  simp only [State.recoverTake]
  repeat' split
  all_goals try simp only [↓held_foldl,
    implies_true, ↓sealClip_held, ↓ringToClip_held, ↓modTake_held,
    ↓takeState_held, ↓recoverClip_held, ↓dirChange_held]

theorem appendReport_held (s : State) (x1 : List ClampEntry) : held (State.appendReport s x1) = held s := by
  simp only [State.appendReport]
  repeat' split
  all_goals try simp only [held_mk, held_fold, ↓held_foldl,
    implies_true, ↓wr_held, ↓aen_held]

theorem execReady_held (s : State) : ∀ t, execReady s = .next t → held t = held s := by
  intro t h
  unfold execReady at h
  replace h := next_inj h
  subst h
  simp only [
    ↓becomeReady_held]

theorem clash_held (s : State) (x1 : Nat × Nat) : held (State.clash s x1) = held s := by
  simp only [State.clash, ↓held_ite, ite_self,
    ↓record_held, ↓modFtl_held, ↓raise_held]

theorem reconcile_held (s : State) : held (State.reconcile s) = held s := by
  simp only [State.reconcile, held_mk, held_fold,
    ↓held_foldl_fst, implies_true, ↓appendReport_held, ↓reconcileOne_held]

theorem countLost_held (s : State) (x1 : List Entry) : held (State.countLost s x1) = held s := by
  simp only [State.countLost,
    ↓held_foldl, implies_true, ↓wr_held, ↓note_held, ↓record_held,
    ↓modFtl_held]

theorem restartCounter_held (s : State) (x1 : Nat) (x2 : List Entry) : held (State.restartCounter s x1 x2) = held s :=
    by
  simp only [State.restartCounter,
    ↓modFtl_held, ↓writePage_held,
    ↓jput_held, ↓jputs_held]

theorem recoverMap_held (s : State) (x1 : List Nat) (x2 : FlashFound) : held (State.recoverMap s x1 x2) = held s := by
  simp only [State.recoverMap,
    ↓held_foldl, implies_true,
    ↓metaRewrite_held, ↓restartCounter_held, ↓remeta_held,
    ↓putConfigCopy_held]
  repeat' split
  all_goals try simp only [held_mk, held_fold, ↓held_foldl,
    implies_true, ↓countLost_held, ↓wr_held,
    ↓raiseIf_held, ↓modBoot_held, ↓modFtl_held, ↓clash_held]

theorem recoverTakes_held (s : State) : held (State.recoverTakes s) = held s := by
  simp only [State.recoverTakes,
    ↓held_foldl, implies_true, ↓takeTrim_held, ↓recoverTake_held,
    ↓modTakes_held]

theorem resumeSanitize_held (s : State) : held (State.resumeSanitize s) = held s := by
  simp only [State.resumeSanitize, ↓held_ite, ite_self,
    ↓sanBegin_held, ↓sanStep_held]

theorem recovery_held (s : State) (x1 : List Nat) (x2 : FlashFound) : held (State.recovery s x1 x2) = held s := by
  simp only [State.recovery, ↓held_ite, ite_self, ↓held_foldl,
    implies_true, ↓settleDma_held, ↓recoverMap_held, ↓metaLost_held,
    ↓recoverTakes_held, ↓startCheckpoint_held, ↓resumeSanitize_held, ↓startRebuild_held, ↓reconcile_held,
    ↓showStripes_held, ↓modDram_held]

theorem execRecovery_held (x0 : List Nat) (x1 : FlashFound) (s : State) : ∀ t,
    execRecovery x0 x1 s = .next t → held t = held s := by
  intro t h
  unfold execRecovery at h
  replace h := next_inj h
  subst h
  simp only [
    ↓recovery_held]

theorem mbGo_held (s : State) (x1 : MbReq) : held (State.mbGo s x1) = held s := by
  simp only [State.mbGo]
  repeat' split
  all_goals try simp only [
    ↓wr_held]

theorem mbRespond_held (s : State) (x1 : MbReq) (x2 : MbMsg) (x3 : MbAns) : held (State.mbRespond s x1 x2 x3) = held s
    := by
  simp only [State.mbRespond]
  repeat' split
  all_goals try simp only [held_mk, held_fold, ↓held_foldl,
    implies_true, ↓setReg_held, ↓wr_held, ↓raise_held]

theorem faultClear_held (s : State) : held (State.faultClear s).1 = held s := by
  simp only [State.faultClear, ↓held_fst_ite, ite_self,
    ↓modBoard_held]

theorem mbServe_held (s : State) (x1 : MbReq) (x2 : Nat → Bool) (f : State → MbMsg → State × MbAns) (h : ∀ t m,
    held (f t m).1 = held t) : held (s.mbServe x1 x2 f) = held s := by
  unfold State.mbServe
  dsimp only
  repeat' split
  all_goals simp only [h, ↓mbRespond_held, ↓record_held, ↓modMaint_held, ↓mbGo_held, ↓noteMgmt_held]

theorem execFaultClear_held (x0 : MbReq) (s : State) : ∀ t, execFaultClear x0 s = .next t → held t = held s := by
  intro t h
  unfold execFaultClear at h
  replace h := next_inj h
  subst h
  simp only [
    implies_true, ↓faultClear_held, ↓mbServe_held]

theorem execMailboxUnsupportedOpcode_held (x0 : MbReq) (s : State) : ∀ t,
    execMailboxUnsupportedOpcode x0 s = .next t → held t = held s := by
  intro t h
  unfold execMailboxUnsupportedOpcode at h
  replace h := next_inj h
  subst h
  simp only [
    implies_true, ↓mbServe_held]

theorem commitEnd_held (s : State) : held (State.commitEnd s) = held s := by
  simp only [State.commitEnd]
  repeat' split
  all_goals try simp only [
    implies_true, ↓modBoot_held, ↓fail_held, ↓installPkg_held,
    ↓modCtrl_held, ↓succeed_held]

theorem rcv_held (s : State) (f : State → State) (h : ∀ t, held (f t) = held t) : held (s.rcv f) = held s := by
  unfold State.rcv
  simp only [h, ↓held_ite, ite_self]

theorem rcvAnswer_held (s : State) (x1 : Nat) (x2 : List Byte) : held (State.rcvAnswer s x1 x2) = held s := by
  simp only [State.rcvAnswer, held_mk, held_fold]

theorem execRcvStatus_held (s : State) : ∀ t, execRcvStatus s = .next t → held t = held s := by
  intro t h
  unfold execRcvStatus at h
  replace h := next_inj h
  subst h
  simp only [
    implies_true, ↓rcvAnswer_held, ↓rcv_held]

theorem fwCommit_held (s : State) (x1 : Sqe) (x2 : Bool) : held (State.fwCommit s x1 x2) = held s := by
  simp only [State.fwCommit, ↓held_ite,
    ↓fail_held]
  repeat' split
  all_goals try simp only [
    implies_true, ↓fail_held, ↓modBoot_held]

theorem execFirmwareCommitReplace_held (x0 : Sqe) (s : State) : ∀ t,
    execFirmwareCommitReplace x0 s = .next t → held t = held s := by
  intro t h
  unfold execFirmwareCommitReplace at h
  replace h := next_inj h
  subst h
  simp only [↓held_ite, ite_self,
    implies_true, ↓fail_held, ↓fwCommit_held, ↓admin_held]

theorem execFirmwareCommitActivate_held (x0 : Sqe) (s : State) : ∀ t,
    execFirmwareCommitActivate x0 s = .next t → held t = held s := by
  intro t h
  unfold execFirmwareCommitActivate at h
  replace h := next_inj h
  subst h
  simp only [↓held_ite, ite_self,
    implies_true, ↓fwCommit_held, ↓admin_held]

theorem rcvWrite_held (s : State) (x1 : Nat) (x2 : List Byte) : held (State.rcvWrite s x1 x2) = held s := by
  simp only [State.rcvWrite, ↓held_ite, ite_self,
    implies_true, ↓modBoot_held, ↓rcvAnswer_held]

theorem download_held (s : State) (x1 : Sqe) : held (State.download s x1) = held s := by
  simp only [State.download,
    ↓modCtrl_held, ↓succeed_held]

theorem microPatch_held (s : State) (x1 : Sqe) : held (State.microPatch s x1) = held s := by
  simp only [State.microPatch, ↓held_ite,
    ↓fail_held]
  repeat' split
  all_goals try simp only [
    ↓patchGo_held, ↓fail_held, ↓modSlv_held, ↓noAbort_held]

theorem execMicrocodePatch_held (x0 : Sqe) (s : State) : ∀ t, execMicrocodePatch x0 s = .next t → held t = held s := by
  intro t h
  unfold execMicrocodePatch at h
  replace h := next_inj h
  subst h
  simp only [
    implies_true, ↓microPatch_held, ↓settleDma_held, ↓admin_held]

theorem rcvCommit_held (s : State) (x1 : Nat) : held (State.rcvCommit s x1) = held s := by
  simp only [State.rcvCommit]
  repeat' split
  all_goals try simp only [
    ↓rcvAnswer_held, ↓installPkg_held]

theorem execFirmwareImageDownload_held (x0 : Sqe) (s : State) : ∀ t,
    execFirmwareImageDownload x0 s = .next t → held t = held s := by
  intro t h
  unfold execFirmwareImageDownload at h
  replace h := next_inj h
  subst h
  simp only [
    implies_true, ↓download_held, ↓admin_held]

theorem execRcvCommit_held (x0 : Nat) (s : State) : ∀ t, execRcvCommit x0 s = .next t → held t = held s := by
  intro t h
  unfold execRcvCommit at h
  replace h := next_inj h
  subst h
  simp only [
    implies_true, ↓rcvCommit_held, ↓rcv_held]

theorem execRcvBoot_held (s : State) : ∀ t, execRcvBoot s = .next t → held t = held s := by
  intro t h
  unfold execRcvBoot at h
  replace h := next_inj h
  subst h
  simp only [
    implies_true, ↓rcv_held, ↓modBoot_held, ↓rcvAnswer_held,
    ↓setPhase_held]

theorem execRcvWrite_held (x0 : Nat) (x1 : List Byte) (s : State) : ∀ t,
    execRcvWrite x0 x1 s = .next t → held t = held s := by
  intro t h
  unfold execRcvWrite at h
  replace h := next_inj h
  subst h
  simp only [
    implies_true, ↓rcvWrite_held, ↓rcv_held]

theorem modPort_held (s : State) (x1 : Mgmt → Mgmt) : held (State.modPort s x1) = held s := by
  simp only [State.modPort, held_mk, held_fold]

theorem spdmSend_held (s : State) (x1 : List Byte) : held (State.spdmSend s x1) = held s := by
  simp only [State.spdmSend,
    ↓noteMgmt_held, ↓modPort_held]

theorem spdmVersion_held (s : State) (x1 : List Byte) : held (State.spdmVersion s x1) = held s := by
  simp only [State.spdmVersion,
    ↓spdmSend_held, ↓modPort_held]

theorem spdmError_held (s : State) (x1 : List Byte) (x2 : Nat) (x3 : Nat) : held (State.spdmError s x1 x2 x3) = held s
    := by
  simp only [State.spdmError,
    ↓spdmSend_held]

theorem spdm_held (s : State) (x1 : List Byte) (x2 x3 : Nat) (f : State → State) (h : ∀ t,
    held (f t) = held t) : held (s.spdm x1 x2 x3 f) = held s := by
  unfold State.spdm
  simp only [h, ↓held_ite, ↓spdmError_held, ite_self]

theorem nonce_held (x0 : Nat) (s : State) : held (State.nonce x0 s).2 = held s := by
  induction x0 generalizing s with
  | zero => rfl
  | succ n ih =>
    rw [State.nonce]
    dsimp only
    rw [ih, free_held]

theorem spdmMeasurements_held (s : State) (x1 : List Byte) : held (State.spdmMeasurements s x1) = held s := by
  simp only [State.spdmMeasurements, ↓held_ite, ite_self,
    ↓spdmSend_held, ↓modPort_held,
    ↓spdmError_held, ↓nonce_held]

theorem execGetMeasurements_held (x0 : List Byte) (s : State) : ∀ t,
    execGetMeasurements x0 s = .next t → held t = held s := by
  intro t h
  unfold execGetMeasurements at h
  replace h := next_inj h
  subst h
  simp only [
    implies_true, ↓spdmMeasurements_held, ↓spdm_held]

theorem spdmAlgorithms_held (s : State) (x1 : List Byte) : held (State.spdmAlgorithms s x1) = held s := by
  simp only [State.spdmAlgorithms,
    ↓spdmSend_held, ↓modPort_held]

theorem execNegotiateAlgorithms_held (x0 : List Byte) (s : State) : ∀ t,
    execNegotiateAlgorithms x0 s = .next t → held t = held s := by
  intro t h
  unfold execNegotiateAlgorithms at h
  replace h := next_inj h
  subst h
  simp only [
    implies_true, ↓spdm_held, ↓spdmAlgorithms_held]

theorem spdmChallenge_held (s : State) (x1 : List Byte) : held (State.spdmChallenge s x1) = held s := by
  simp only [State.spdmChallenge, ↓held_ite, ite_self,
    ↓spdmSend_held, ↓modPort_held,
    ↓spdmError_held, ↓nonce_held]

theorem execChallenge_held (x0 : List Byte) (s : State) : ∀ t, execChallenge x0 s = .next t → held t = held s := by
  intro t h
  unfold execChallenge at h
  replace h := next_inj h
  subst h
  simp only [
    implies_true, ↓spdmChallenge_held, ↓spdm_held]

theorem spdmCapabilities_held (s : State) (x1 : List Byte) : held (State.spdmCapabilities s x1) = held s := by
  simp only [State.spdmCapabilities,
    ↓spdmSend_held, ↓modPort_held]

theorem execGetCapabilities_held (x0 : List Byte) (s : State) : ∀ t,
    execGetCapabilities x0 s = .next t → held t = held s := by
  intro t h
  unfold execGetCapabilities at h
  replace h := next_inj h
  subst h
  simp only [
    implies_true, ↓spdmCapabilities_held, ↓spdm_held]

theorem spdmDigests_held (s : State) (x1 : List Byte) : held (State.spdmDigests s x1) = held s := by
  simp only [State.spdmDigests,
    ↓spdmSend_held, ↓modPort_held]

theorem execGetDigests_held (x0 : List Byte) (s : State) : ∀ t, execGetDigests x0 s = .next t → held t = held s := by
  intro t h
  unfold execGetDigests at h
  replace h := next_inj h
  subst h
  simp only [
    implies_true, ↓spdmDigests_held, ↓spdm_held]

theorem execSpdmUnsupportedRequest_held (x0 : List Byte) (s : State) : ∀ t,
    execSpdmUnsupportedRequest x0 s = .next t → held t = held s := by
  intro t h
  unfold execSpdmUnsupportedRequest at h
  replace h := next_inj h
  subst h
  simp only [↓held_ite, ite_self,
    ↓spdmError_held]

theorem spdmCertificate_held (s : State) (x1 : List Byte) : held (State.spdmCertificate s x1) = held s := by
  simp only [State.spdmCertificate, ↓held_ite, ite_self,
    ↓spdmError_held, ↓spdmSend_held,
    ↓modPort_held]

theorem execGetCertificate_held (x0 : List Byte) (s : State) : ∀ t,
    execGetCertificate x0 s = .next t → held t = held s := by
  intro t h
  unfold execGetCertificate at h
  replace h := next_inj h
  subst h
  simp only [
    implies_true, ↓spdm_held, ↓spdmCertificate_held]

theorem execGetVersion_held (x0 : List Byte) (s : State) : ∀ t, execGetVersion x0 s = .next t → held t = held s := by
  intro t h
  unfold execGetVersion at h
  replace h := next_inj h
  subst h
  simp only [
    implies_true, ↓spdmVersion_held, ↓spdm_held]

theorem setPwrStep_held (s : State) (x1 : Nat) : held (State.setPwrStep s x1) = held s := by
  simp only [State.setPwrStep,
    ↓wr_held]

theorem unparkAll_held (s : State) : held (State.unparkAll s) = held s := by
  simp only [State.unparkAll,
    ↓held_foldl, implies_true, ↓leavePark_held]

theorem abandonEntry_held (s : State) (x1 : Nat) : held (State.abandonEntry s x1) = held s := by
  simp only [State.abandonEntry, held_mk, held_fold,
    ↓noteWake_held, ↓modPwr_held, ↓wr_held,
    ↓unparkAll_held, ↓setPwrStep_held, ↓bump_held, ↓raise_held]

theorem abortPoint_held (s : State) (x1 : Nat) (f : State → State) (h : ∀ t,
    held (f t) = held t) : held (s.abortPoint x1 f) = held s := by
  unfold State.abortPoint
  simp only [h, ↓held_ite, ↓abandonEntry_held, ite_self]

theorem lowReached_held (s : State) (x1 : Nat) : held (State.lowReached s x1) = held s := by
  simp only [State.lowReached, ↓held_ite, ite_self,
    ↓beginExit_held, ↓modPwr_held, ↓wr_held,
    ↓setPwrStep_held, ↓bump_held, ↓raise_held]

theorem offWake_held (s : State) (x1 : Nat) : held (State.offWake s x1) = held s := by
  simp only [State.offWake,
    ↓auxReset_held, ↓noteWake_held]

theorem writeCounters_held (s : State) : held (State.writeCounters s) = held s := by
  simp only [State.writeCounters,
    ↓modLife_held]

theorem offReached_held (s : State) : held (State.offReached s) = held s := by
  simp only [State.offReached, ↓held_ite, ite_self,
    ↓rails0_held, ↓record_held, ↓modPwr_held,
    ↓offWake_held, ↓wr_held, ↓writeCounters_held]

theorem gatingDone_held (s : State) : held (State.gatingDone s) = held s := by
  simp only [State.gatingDone, ↓held_ite, ite_self,
    ↓lowReached_held, ↓offReached_held]

theorem execEntryGatingDone_held (s : State) : ∀ t, execEntryGatingDone s = .next t → held t = held s := by
  intro t h
  unfold execEntryGatingDone at h
  replace h := next_inj h
  subst h
  simp only [
    ↓gatingDone_held]

theorem mantleResume_held (s : State) (x1 : List (Nat × Nat × Nat)) : held (State.mantleResume s x1) = held s := by
  unfold State.mantleResume
  dsimp only
  rw [governorTick_held, energyCompute_held, startSlots_held]
  refine (held_foldl _ ?_ _ _).trans ((held_foldl _ ?_ _ _).trans (wr_held _ _ _))
  · intro t x
    split
    · rw [sampleStr_held, sampleTemp_held]
    · rfl
  · intro t x
    rw [setMaskBit_held, connect_held, gpio_held, setStr_held]

theorem reloadSleeves_held (s : State) (x1 : State) : held (State.reloadSleeves s x1) = held s := by
  simp only [State.reloadSleeves,
    ↓held_foldl, implies_true, ↓setSleeve_held, ↓wr_held, ↓showLive_held]

theorem dramMove_held (s : State) (x1 : Nat) (x2 : Nat) : held (State.dramMove s x1 x2) = held s := by
  simp only [State.dramMove, ↓held_ite, ite_self, ↓held_foldl,
    implies_true, ↓drainQueues_held, ↓setDrState_held]

theorem linksOff_held (s : State) : held (State.linksOff s) = held s := by
  simp only [State.linksOff, ↓held_ite, ite_self, ↓held_foldl,
    implies_true, ↓clearLink_held, ↓setJl_held, ↓wr_held]

theorem vcoreLow_held (s : State) (x1 : Nat) : held (State.vcoreLow s x1) = held s := by
  simp only [State.vcoreLow, ↓held_ite, ite_self,
    ↓setVcore_held, ↓setAssists_held]

theorem gateBegin_held (s : State) : held (State.gateBegin s) = held s := by
  simp only [State.gateBegin]
  repeat' split
  all_goals try simp only [↓held_foldl,
    implies_true, ↓vcoreLow_held, ↓modBoard_held, ↓linksOff_held,
    ↓dramMove_held, ↓loopOff_held, ↓setPwrStep_held]

theorem offHalt_held (s : State) : held (State.offHalt s) = held s := by
  simp only [State.offHalt]
  repeat' split
  all_goals try simp only [
    ↓modPwr_held]

theorem execOffBelfryHalt_held (s : State) : ∀ t, execOffBelfryHalt s = .next t → held t = held s := by
  intro t h
  unfold execOffBelfryHalt at h
  replace h := next_inj h
  subst h
  simp only [
    ↓offHalt_held]

theorem wakeTimer_held (s : State) : held (State.wakeTimer s) = held s := by
  simp only [State.wakeTimer, ↓held_ite, ite_self,
    ↓wake_held, ↓modPwr_held]

theorem execWakeTimerExpiry_held (s : State) : ∀ t, execWakeTimerExpiry s = .next t → held t = held s := by
  intro t h
  unfold execWakeTimerExpiry at h
  replace h := next_inj h
  subst h
  simp only [
    ↓wakeTimer_held]

theorem execOffMgmtTransaction_held (s : State) : ∀ t, execOffMgmtTransaction s = .next t → held t = held s := by
  intro t h
  unfold execOffMgmtTransaction at h
  replace h := next_inj h
  subst h
  simp only [↓held_ite, ite_self,
    ↓modPwr_held]

theorem drainBegin_held (s : State) : held (State.drainBegin s) = held s := by
  simp only [State.drainBegin, ↓held_ite, ite_self,
    ↓learnAbort_held, ↓maintStop_held,
    ↓setPwrStep_held]

theorem linksUp_held (s : State) : held (State.linksUp s) = held s := by
  simp only [State.linksUp, ↓held_ite, ite_self, ↓held_foldl,
    implies_true, ↓toDetect_held]

theorem deepExit_held (s : State) (x1 : List (Fin 16)) (x2 : List (Nat × Nat × Nat)) : held (State.deepExit s x1 x2) =
    held s := by
  simp only [State.deepExit, held_mk, held_fold, ↓held_foldl,
    implies_true, ↓reloadSleeves_held, ↓adoptRole_held, ↓laneKat_held,
    ↓dramMove_held, ↓resolveKeys_held, ↓rebase_held, ↓linksUp_held, ↓newLoadKey_held, ↓mantleResume_held]

theorem lightExit_held (s : State) : held (State.lightExit s) = held s := by
  simp only [State.lightExit,
    ↓modWin_held, ↓dramMove_held,
    ↓unparkAll_held]

theorem showMeter_held (s : State) : held (State.showMeter s) = held s := by
  simp only [State.showMeter, ↓held_ite, ite_self,
    ↓setMeter_held]

theorem exitDone_held (s : State) (x1 : List (Fin 16)) (x2 : List (Nat × Nat × Nat)) : held (State.exitDone s x1 x2) =
    held s := by
  simp only [State.exitDone, held_mk, held_fold, ↓held_ite, ite_self, ↓held_foldl,
    implies_true, ↓vcoreRun_held, ↓sqDoorbell_held, ↓modPwr_held,
    ↓wr_held, ↓raise_held, ↓deepExit_held, ↓lightExit_held, ↓showMeter_held, ↓portReset_held]

theorem execExitComplete_held (x0 : List (Fin 16)) (x1 : List (Nat × Nat × Nat)) (s : State) : ∀ t,
    execExitComplete x0 x1 s = .next t → held t = held s := by
  intro t h
  unfold execExitComplete at h
  replace h := next_inj h
  subst h
  simp only [
    ↓exitDone_held, ↓settleDma_held]

theorem enterLow_held (s : State) (x1 : Sqe) (x2 : Nat) (x3 : Nat) : held (State.enterLow s x1 x2 x3) = held s := by
  unfold State.enterLow
  split
  · rw [fail_held, wr_held]
  · refine (held_nvme _ _).trans ?_
    rw [modPwr_held, wr_held, wr_held, wr_held, wr_held, succeed_held]

theorem psCmd_held (s : State) (x1 : Sqe) (f : State → State) (h : ∀ t,
    held (f t) = held t) : held (s.psCmd x1 f) = held s := by
  unfold State.psCmd
  refine admin_held _ _ _ _ fun t => ?_
  split
  · exact fail_held _ _ _
  · exact h _

theorem execEnterDeepSleep_held (x0 : Sqe) (s : State) : ∀ t, execEnterDeepSleep x0 s = .next t → held t = held s := by
  intro t h
  unfold execEnterDeepSleep at h
  replace h := next_inj h
  subst h
  simp only [
    implies_true, ↓psCmd_held, ↓enterLow_held]

theorem execPowerOff_held (x0 : Sqe) (s : State) : ∀ t, execPowerOff x0 s = .next t → held t = held s := by
  intro t h
  unfold execPowerOff at h
  replace h := next_inj h
  subst h
  simp only [
    implies_true, ↓enterLow_held, ↓noAbort_held, ↓admin_held]

theorem stageDown_held (s : State) : held (State.stageDown s) = held s := by
  simp only [State.stageDown, ↓held_ite, ite_self,
    ↓modBoard_held]

theorem wakeLow_held (s : State) : held (State.wakeLow s) = held s := by
  simp only [State.wakeLow, ↓held_ite, ite_self,
    ↓wake_held, ↓offWake_held, ↓modThm_held]

theorem execWakeNLow_held (s : State) : ∀ t, execWakeNLow s = .next t → held t = held s := by
  intro t h
  unfold execWakeNLow at h
  replace h := next_inj h
  subst h
  simp only [
    ↓wakeLow_held]

theorem entryPark_held (s : State) : held (State.entryPark s).1 = held s := by
  simp only [State.entryPark, ↓held_fst_ite, ite_self,
    ↓held_foldl, implies_true, ↓parkLink_held]

theorem entryDrain_held (s : State) : held (State.entryDrain s).1 = held s := by
  simp only [State.entryDrain, ↓held_fst_ite,
    ↓held_foldl, implies_true, ↓closeStripe_held,
    ↓sealAll_held]
  repeat' split
  all_goals try simp only [↓held_foldl,
    implies_true, ↓closeStripe_held, ↓modPwr_held, ↓writePage_held
    ]

theorem execEnterDoze_held (x0 : Sqe) (s : State) : ∀ t, execEnterDoze x0 s = .next t → held t = held s := by
  intro t h
  unfold execEnterDoze at h
  replace h := next_inj h
  subst h
  simp only [
    implies_true, ↓psCmd_held, ↓enterLow_held]

theorem execEnterSleep_held (x0 : Sqe) (s : State) : ∀ t, execEnterSleep x0 s = .next t → held t = held s := by
  intro t h
  unfold execEnterSleep at h
  replace h := next_inj h
  subst h
  simp only [
    implies_true, ↓psCmd_held, ↓enterLow_held]

theorem entryStep_held (x0 : Nat) (s : State) : held (State.entryStep x0 s) = held s := by
  induction x0 generalizing s with
  | zero => rfl
  | succ n ih =>
    rw [State.entryStep]
    split
    · rfl
    · split
      · split
        · rw [ih, abortPoint_held _ _ _ (fun t => drainBegin_held t)]
        · rfl
      · split
        rename_i t done h
        have e := congrArg (fun p => held p.1) h
        rw [entryDrain_held] at e
        split
        · rw [ih, abortPoint_held _ _ _ (fun t => setPwrStep_held t _), e]
        · exact e.symm
      · split
        rename_i t done h
        have e := congrArg (fun p => held p.1) h
        rw [entryPark_held] at e
        split
        · rw [abortPoint_held _ _ _ (fun t => gateBegin_held t), e]
        · exact e.symm
      · rfl

theorem execEntryDrainDone_held (s : State) : ∀ t, execEntryDrainDone s = .next t → held t = held s := by
  intro t h
  unfold execEntryDrainDone at h
  replace h := next_inj h
  subst h
  simp only [
    ↓settleDma_held, ↓entryStep_held]

theorem capStep_held (s : State) : held (State.capStep s) = held s := by
  simp only [State.capStep]
  repeat' split
  all_goals try simp only [
    ↓modPwr_held, ↓showMeter_held, ↓setCapped_held]

theorem setPs_held (s : State) (x1 : Sqe) (x2 : Nat) : held (State.setPs s x1 x2) = held s := by
  simp only [State.setPs,
    ↓free_held, ↓modPwr_held, ↓wr_held, ↓succeed_held,
    ↓capStep_held]

theorem execSetPsCapped_held (x0 : Sqe) (s : State) : ∀ t, execSetPsCapped x0 s = .next t → held t = held s := by
  intro t h
  unfold execSetPsCapped at h
  replace h := next_inj h
  subst h
  simp only [
    implies_true, ↓setPs_held, ↓psCmd_held]

theorem execPowerDownStage_held (s : State) : ∀ t, execPowerDownStage s = .next t → held t = held s := by
  intro t h
  unfold execPowerDownStage at h
  replace h := next_inj h
  subst h
  simp only [
    ↓stageDown_held]

theorem execSetPsRun_held (x0 : Sqe) (s : State) : ∀ t, execSetPsRun x0 s = .next t → held t = held s := by
  intro t h
  unfold execSetPsRun at h
  replace h := next_inj h
  subst h
  simp only [
    implies_true, ↓setPs_held, ↓psCmd_held]

theorem execMgmtMessageWake_held (s : State) : ∀ t, execMgmtMessageWake s = .next t → held t = held s := by
  intro t h
  unfold execMgmtMessageWake at h
  replace h := next_inj h
  subst h
  simp only [↓held_ite, ite_self,
    ↓wake_held]

theorem adoptThermal_held (s : State) : held (State.adoptThermal s) = held s := by
  simp only [State.adoptThermal, ↓held_ite, ite_self,
    ↓fitAdoptClass_held, ↓modThm_held]

theorem countWear_held (s : State) : held (State.countWear s) = held s := by
  simp only [State.countWear, ↓held_ite, ite_self,
    ↓modLife_held]

theorem countTime_held (s : State) (x1 : ℤ) : held (State.countTime s x1) = held s := by
  simp only [State.countTime, ↓held_ite, ite_self,
    ↓modLife_held, ↓histAdd_held,
    ↓tally_held, ↓countWear_held]
  repeat' split
  all_goals try simp only [
    ↓modLife_held, ↓histAdd_held, ↓tally_held,
    ↓countWear_held]

theorem showStates_held (s : State) : held (State.showStates s) = held s := by
  simp only [State.showStates, ↓held_ite, ite_self,
    ↓wr_held]

theorem setEnforced_held (s : State) (x1 : Nat) : held (State.setEnforced s x1) = held s := by
  simp only [State.setEnforced, ↓held_ite, ite_self,
    ↓raiseIf_held, ↓showMeter_held, ↓wr_held,
    ↓modThm_held, ↓bump_held]

theorem throttle_held (s : State) : held (State.throttle s) = held s := by
  simp only [State.throttle, ↓held_ite, ite_self,
    ↓setEnforced_held, ↓smartAen_held, ↓wr_held,
    ↓modThm_held, ↓raise_held]

theorem resultMain_held (s : State) (x1 : ℤ) (x2 : Nat) : held (State.resultMain s x1 x2) = held s := by
  simp only [State.resultMain, held_mk, held_fold, ↓held_ite, ite_self,
    ↓wr_held, ↓throttle_held, ↓raiseIf_held,
    ↓smartAen_held, ↓showStates_held, ↓modThm_held, ↓bump_held]

theorem hard_held (s : State) (x1 : Bool) : held (State.hard s x1) = held s := by
  simp only [State.hard, ↓held_ite, ite_self,
    ↓tally_held, ↓kill_held, ↓wr_held, ↓modThm_held]

theorem trip_held (s : State) (x1 : ℤ) : held (State.trip s x1) = held s := by
  simp only [State.trip, ↓held_ite, ite_self, ↓held_foldl,
    implies_true, ↓modBoard_held, ↓wr_held, ↓beginFlush_held,
    ↓record_held, ↓kill_held, ↓applyDuty_held, ↓tally_held, ↓modThm_held]

theorem tripCheck_held (s : State) (x1 : ℤ) : held (State.tripCheck s x1) = held s := by
  simp only [State.tripCheck]
  repeat' split
  all_goals try simp only [
    ↓hard_held, ↓trip_held, ↓modThm_held]

theorem sensorResult_held (s : State) (x1 : Nat) (x2 : ℤ) (x3 : Nat) : held (State.sensorResult s x1 x2 x3) = held s :=
    by
  simp only [State.sensorResult, ↓held_ite, ite_self,
    ↓adoptThermal_held, ↓modThm_held,
    ↓resultMain_held, ↓tripCheck_held, ↓countTime_held, ↓modMaint_held]

theorem execThmSensorResult_held (x0 : Fin 1048576) (x1 : ℤ) (x2 : Fin 3) (s : State) : ∀ t,
    execThmSensorResult x0 x1 x2 s = .next t → held t = held s := by
  intro t h
  unfold execThmSensorResult at h
  replace h := next_inj h
  subst h
  simp only [
    ↓sensorResult_held, ↓settleDma_held]

theorem fanOne_held (s : State) (x1 : Nat) (x2 : Nat) : held (State.fanOne s x1 x2) = held s := by
  simp only [State.fanOne, ↓held_ite, ite_self,
    ↓raiseIf_held, ↓setMaskBit_held, ↓wr_held,
    ↓modThm_held]

theorem execFanCheck_held (x0 : List Nat) (s : State) : ∀ t, execFanCheck x0 s = .next t → held t = held s := by
  intro t h
  unfold execFanCheck at h
  replace h := next_inj h
  subst h
  simp only [↓held_ite, ite_self, ↓held_foldl,
    implies_true, ↓fanOne_held]

theorem tripWrite_held (s : State) : held (State.tripWrite s) = held s := by
  simp only [State.tripWrite]
  repeat' split
  all_goals try simp only [
    ↓modLife_held, ↓wr_held, ↓modThm_held]

theorem graceEnd_held (s : State) : held (State.graceEnd s) = held s := by
  simp only [State.graceEnd]
  repeat' split
  all_goals try simp only [
    ↓setEnforced_held, ↓modThm_held]

theorem execTripRecordWrite_held (s : State) : ∀ t, execTripRecordWrite s = .next t → held t = held s := by
  intro t h
  unfold execTripRecordWrite at h
  replace h := next_inj h
  subst h
  simp only [
    ↓tripWrite_held]

theorem tripAck_held (s : State) : held (State.tripAck s).1 = held s := by
  simp only [State.tripAck, ↓held_fst_ite, ite_self,
    ↓modThm_held]

theorem execTripAck_held (x0 : MbReq) (s : State) : ∀ t, execTripAck x0 s = .next t → held t = held s := by
  intro t h
  unfold execTripAck at h
  replace h := next_inj h
  subst h
  simp only [
    implies_true, ↓mbServe_held, ↓tripAck_held]

theorem rateTick_held (s : State) : held (State.rateTick s) = held s := by
  simp only [State.rateTick, ↓held_ite, ite_self,
    ↓throttle_held, ↓raiseIf_held, ↓showStates_held,
    ↓wr_held, ↓modThm_held, ↓bump_held]

theorem execThmRateTick_held (s : State) : ∀ t, execThmRateTick s = .next t → held t = held s := by
  intro t h
  unfold execThmRateTick at h
  replace h := next_inj h
  subst h
  simp only [↓held_ite, ite_self,
    ↓rateTick_held]

theorem selfTest_held (s : State) (x1 : Bool) : held (State.selfTest s x1) = held s := by
  simp only [State.selfTest, ↓held_ite, ite_self,
    ↓modThm_held]

theorem execGraceExpiry_held (s : State) : ∀ t, execGraceExpiry s = .next t → held t = held s := by
  intro t h
  unfold execGraceExpiry at h
  replace h := next_inj h
  subst h
  simp only [↓held_ite, ite_self,
    ↓graceEnd_held]

theorem execSensorSelfTest_held (x0 : Bool) (s : State) : ∀ t, execSensorSelfTest x0 s = .next t → held t = held s := by
  intro t h
  unfold execSensorSelfTest at h
  replace h := next_inj h
  subst h
  simp only [
    ↓selfTest_held]

theorem tripRestart_held (s : State) : held (State.tripRestart s) = held s := by
  simp only [State.tripRestart, ↓held_ite, ite_self,
    ↓modBoard_held, ↓setPhase_held,
    ↓modThm_held]

theorem execTripRestart_held (s : State) : ∀ t, execTripRestart s = .next t → held t = held s := by
  intro t h
  unfold execTripRestart at h
  replace h := next_inj h
  subst h
  simp only [
    ↓tripRestart_held]

theorem planChange_held (s : State) (x1 : Nat) (x2 : Nat) (x3 : Nat) (x4 : Nat) : held (State.planChange s x1 x2 x3 x4)
    = held s := by
  simp only [State.planChange,
    ↓record_held, ↓tally_held, ↓raise_held]

theorem skipRecal_held (s : State) : held (State.skipRecal s) = held s := by
  simp only [State.skipRecal,
    ↓held_foldl, implies_true, ↓modMaint_held]

theorem addActs_held (s : State) (x1 : List (Nat × Nat)) (x2 : Bool) : held (State.addActs s x1 x2) = held s := by
  simp only [State.addActs,
    ↓modMaint_held]

theorem actRecord_held (s : State) (x1 : Act) (x2 : Nat) (x3 : Nat) : held (State.actRecord s x1 x2 x3) = held s := by
  simp only [State.actRecord,
    ↓record_held]

theorem dropAct_held (s : State) (x1 : Nat) (x2 : Nat) : held (State.dropAct s x1 x2) = held s := by
  simp only [State.dropAct,
    ↓modMaint_held]

theorem endAct_held (s : State) (x1 : Act) (x2 : Nat) : held (State.endAct s x1 x2) = held s := by
  simp only [State.endAct,
    ↓actRecord_held, ↓dropAct_held, ↓raise_held]

theorem resumeActs_held (s : State) : held (State.resumeActs s) = held s := by
  simp only [State.resumeActs,
    ↓held_foldl, implies_true, ↓endAct_held, ↓modMaint_held]

theorem auditStart_held (s : State) : held (State.auditStart s) = held s := by
  simp only [State.auditStart,
    ↓modFtl_held, ↓wr_held, ↓modMaint_held]

theorem moveBand_held (s : State) (x1 : Nat) : held (State.moveBand s x1) = held s := by
  simp only [State.moveBand, ↓held_foldl,
    implies_true, ↓askMove_held]

theorem scrubStart_held (s : State) (x1 : Nat) : held (State.scrubStart s x1) = held s := by
  simp only [State.scrubStart,
    ↓modDrch_held, ↓modMaint_held]

theorem threshReads_held (s : State) (x1 : Nat) : held (State.threshReads s x1) = held s := by
  simp only [State.threshReads,
    ↓held_foldl, implies_true, ↓request_held]

theorem startAct_held (s : State) (x1 : Act) : held (State.startAct s x1) = held s := by
  simp only [State.startAct]
  repeat' split
  all_goals try simp only [
    ↓retrainStart_held, ↓learnStart_held,
    ↓scrubStart_held, ↓recalLink_held, ↓auditStart_held, ↓startCheckpoint_held, ↓moveBand_held, ↓threshReads_held,
    ↓actRecord_held, ↓modMaint_held, ↓raise_held]

theorem tryAct_held (s : State) (x1 : List Act) (x2 : Act) : held (State.tryAct s x1 x2) = held s := by
  simp only [State.tryAct]
  repeat' split
  all_goals try simp only [
    ↓actRecord_held, ↓startAct_held, ↓raise_held]

theorem schedule_held (s : State) (x1 : List Act) : held (State.schedule s x1) = held s := by
  simp only [State.schedule, ↓held_ite, ite_self, ↓held_foldl,
    implies_true, ↓tryAct_held, ↓addActs_held, ↓skipRecal_held,
    ↓fitAdoptClass_held, ↓resumeActs_held, ↓startCheckpoint_held, ↓sanStep_held]

theorem maintRequest_held (s : State) (x1 : Nat) (x2 : Nat) : held (State.maintRequest s x1 x2).1 = held s := by
  simp only [State.maintRequest]
  repeat' split
  all_goals try simp only [
    ↓addActs_held, ↓schedule_held]

theorem endActOf_held (s : State) (x1 : Nat) (x2 : Nat) : held (State.endActOf s x1 x2) = held s := by
  simp only [State.endActOf]
  repeat' split
  all_goals try simp only [
    ↓endAct_held]

theorem retrainEnd_held (s : State) (x1 : Nat) (x2 : Bool) : held (State.retrainEnd s x1 x2) = held s := by
  simp only [State.retrainEnd, ↓held_ite, ite_self,
    ↓endActOf_held, ↓retrainDone_held]

theorem execDramRetrainDone_held (x0 : Fin 24) (x1 : Bool) (s : State) : ∀ t,
    execDramRetrainDone x0 x1 s = .next t → held t = held s := by
  intro t h
  unfold execDramRetrainDone at h
  replace h := next_inj h
  subst h
  simp only [↓held_ite, ite_self,
    ↓retrainEnd_held, ↓settleDma_held]

theorem eyePlan_held (s : State) (x1 : Nat) : held (State.eyePlan s x1) = held s := by
  simp only [State.eyePlan, ↓held_ite, ite_self,
    ↓planChange_held, ↓modMaint_held]

theorem maintEnd_held (s : State) (x1 : Nat) (x2 : Nat) : held (State.maintEnd s x1 x2) = held s := by
  simp only [State.maintEnd]
  repeat' split
  all_goals try simp only [
    ↓endAct_held, ↓eyePlan_held]

theorem execMaintActivityEnd_held (x0 : Fin 10) (x1 : Nat) (s : State) : ∀ t,
    execMaintActivityEnd x0 x1 s = .next t → held t = held s := by
  intro t h
  unfold execMaintActivityEnd at h
  replace h := next_inj h
  subst h
  simp only [↓held_ite, ite_self,
    ↓settleDma_held, ↓maintEnd_held]

theorem execCountersRecordWrite_held (s : State) : ∀ t, execCountersRecordWrite s = .next t → held t = held s := by
  intro t h
  unfold execCountersRecordWrite at h
  replace h := next_inj h
  subst h
  simp only [↓held_ite, ite_self,
    ↓writeCounters_held]

theorem threshPlan_held (s : State) (x1 : Nat) : held (State.threshPlan s x1) = held s := by
  simp only [State.threshPlan, ↓held_ite, ite_self,
    ↓planChange_held, ↓modMaint_held]

theorem strPlan_held (s : State) (x1 : Nat) : held (State.strPlan s x1) = held s := by
  simp only [State.strPlan, ↓held_ite, ite_self,
    ↓record_held, ↓addActs_held, ↓planChange_held,
    ↓modMaint_held]

theorem percentPlan_held (s : State) : held (State.percentPlan s) = held s := by
  simp only [State.percentPlan, held_mk, held_fold, ↓held_ite, ite_self,
    ↓raiseIf_held]

theorem cancelAct_held (s : State) (x1 : Act) : held (State.cancelAct s x1) = held s := by
  simp only [State.cancelAct]
  repeat' split
  all_goals try simp only [
    ↓endAct_held, ↓learnAbort_held, ↓modDrch_held,
    ↓wr_held, ↓modFtl_held, ↓modLnk_held]

theorem maintCancel_held (s : State) (x1 : Nat) (x2 : Nat) : held (State.maintCancel s x1 x2).1 = held s := by
  simp only [State.maintCancel, ↓held_fst_ite, ite_self,
    ↓held_foldl, implies_true, ↓cancelAct_held]

theorem norErrors_held (s : State) (x1 : List (Nat × Bool)) : held (State.norErrors s x1) = held s := by
  simp only [State.norErrors,
    ↓held_foldl, implies_true, ↓record_held, ↓bump_held, ↓raise_held]

theorem avsPlan_held (s : State) : held (State.avsPlan s) = held s := by
  simp only [State.avsPlan, ↓held_ite, ite_self,
    ↓wr_held, ↓planChange_held, ↓tallyMax_held,
    ↓modMaint_held]

theorem execMaintRequest_held (x0 : MbReq) (s : State) : ∀ t, execMaintRequest x0 s = .next t → held t = held s := by
  intro t h
  unfold execMaintRequest at h
  replace h := next_inj h
  subst h
  simp only [
    implies_true, ↓mbServe_held, ↓maintRequest_held, ↓settleDma_held]

theorem margin_held (s : State) : held (State.margin s) = held s := by
  simp only [State.margin, ↓held_foldl,
    implies_true, ↓avsPlan_held, ↓strPlan_held, ↓percentPlan_held,
    ↓threshPlan_held]

theorem execMarginMeasurement_held (s : State) : ∀ t, execMarginMeasurement s = .next t → held t = held s := by
  intro t h
  unfold execMarginMeasurement at h
  replace h := next_inj h
  subst h
  simp only [↓held_ite, ite_self,
    ↓margin_held]

theorem execMaintCancel_held (x0 : MbReq) (s : State) : ∀ t, execMaintCancel x0 s = .next t → held t = held s := by
  intro t h
  unfold execMaintCancel at h
  replace h := next_inj h
  subst h
  simp only [
    implies_true, ↓mbServe_held, ↓maintCancel_held, ↓settleDma_held]

theorem execSchedulingPass_held (x0 : List (Nat × Bool)) (s : State) : ∀ t,
    execSchedulingPass x0 s = .next t → held t = held s := by
  intro t h
  unfold execSchedulingPass at h
  replace h := next_inj h
  subst h
  simp only [↓held_ite, ite_self,
    ↓settleDma_held, ↓schedule_held, ↓norErrors_held,
    ↓modMaint_held]

theorem live_held (s : State) (x1 x2 : Nat) (f : State → State × MbAns) (h : ∀ t,
    held (f t).1 = held t) : held (s.live x1 x2 f).1 = held s := by
  unfold State.live
  simp only [h, ↓held_fst_ite, ite_self]

theorem linkBack_held (s : State) (x1 : Nat) : held (State.linkBack s x1) = held s := by
  simp only [State.linkBack,
    ↓toDetect_held, ↓modLnk_held]

theorem sleeveReturn_held (s : State) (x1 : Nat) : held (State.sleeveReturn s x1).1 = held s := by
  simp only [State.sleeveReturn, ↓held_fst_ite, ite_self,
    ↓held_foldl, implies_true, ↓linkBack_held, ↓slvReturn_held]

theorem execSleeveReturn_held (x0 : MbReq) (s : State) : ∀ t, execSleeveReturn x0 s = .next t → held t = held s := by
  intro t h
  unfold execSleeveReturn at h
  replace h := next_inj h
  subst h
  simp only [
    implies_true, ↓mbServe_held, ↓live_held, ↓sleeveReturn_held,
    ↓settleDma_held]

theorem execLogRead_held (x0 : MbReq) (s : State) : ∀ t, execLogRead x0 s = .next t → held t = held s := by
  intro t h
  unfold execLogRead at h
  replace h := next_inj h
  subst h
  simp only [
    implies_true, ↓mbServe_held]

theorem channelReturn_held (s : State) (x1 : Nat) : held (State.channelReturn s x1).1 = held s := by
  simp only [State.channelReturn, ↓held_fst_ite, ite_self,
    ↓record_held, ↓modLife_held]

theorem portResetMsg_held (s : State) (x1 : Nat) (x2 : Nat) : held (State.portResetMsg s x1 x2).1 = held s := by
  simp only [State.portResetMsg, ↓held_fst_ite, ite_self,
    ↓portReset_held]

theorem execPortReset_held (x0 : MbReq) (s : State) : ∀ t, execPortReset x0 s = .next t → held t = held s := by
  intro t h
  unfold execPortReset at h
  replace h := next_inj h
  subst h
  simp only [
    implies_true, ↓mbServe_held, ↓live_held, ↓settleDma_held,
    ↓portResetMsg_held]

theorem linkReturn_held (s : State) (x1 : Nat) : held (State.linkReturn s x1).1 = held s := by
  simp only [State.linkReturn, ↓held_fst_ite, ite_self,
    ↓linkBack_held]

theorem execChannelReturn_held (x0 : MbReq) (s : State) : ∀ t, execChannelReturn x0 s = .next t → held t = held s := by
  intro t h
  unfold execChannelReturn at h
  replace h := next_inj h
  subst h
  simp only [↓held_fst_ite, ite_self,
    implies_true, ↓channelReturn_held, ↓mbServe_held]

theorem laneReturn_held (s : State) (x1 : Nat) : held (State.laneReturn s x1).1 = held s := by
  simp only [State.laneReturn, ↓held_fst_ite, ite_self,
    ↓setLane_held]

theorem laneTest_held (s : State) (x1 : Nat) (x2 : Bool) : held (State.laneTest s x1 x2).1 = held s := by
  simp only [State.laneTest, ↓held_fst_ite, ite_self,
    ↓setLane_held, ↓laneKat_held]

theorem endRecal_held (s : State) (x1 : Nat) : held (State.endRecal s x1) = held s := by
  simp only [State.endRecal,
    ↓endActOf_held, ↓modLnk_held]

theorem sleeveBypass_held (s : State) (x1 : Nat) (x2 : Bool) : held (State.sleeveBypass s x1 x2).1 = held s := by
  simp only [State.sleeveBypass, ↓held_fst_ite, ite_self,
    ↓held_foldl, implies_true, ↓endRecal_held, ↓setLink_held,
    ↓membersLost_held, ↓slvBypass_held]

theorem loopReturn_held (s : State) (x1 : Nat) : held (State.loopReturn s x1).1 = held s := by
  simp only [State.loopReturn, ↓held_fst_ite, ite_self,
    ↓bypassWrite_held]

theorem execLoopReturn_held (x0 : MbReq) (s : State) : ∀ t, execLoopReturn x0 s = .next t → held t = held s := by
  intro t h
  unfold execLoopReturn at h
  replace h := next_inj h
  subst h
  simp only [
    implies_true, ↓mbServe_held, ↓loopReturn_held, ↓live_held]

theorem channelRetire_held (s : State) (x1 : Nat) : held (State.channelRetire s x1).1 = held s := by
  simp only [State.channelRetire, ↓held_fst_ite, ite_self,
    ↓recordChannel_held]

theorem execChannelRetire_held (x0 : MbReq) (s : State) : ∀ t, execChannelRetire x0 s = .next t → held t = held s := by
  intro t h
  unfold execChannelRetire at h
  replace h := next_inj h
  subst h
  simp only [↓held_fst_ite, ite_self,
    implies_true, ↓mbServe_held, ↓channelRetire_held]

theorem execLinkReturn_held (x0 : MbReq) (s : State) : ∀ t, execLinkReturn x0 s = .next t → held t = held s := by
  intro t h
  unfold execLinkReturn at h
  replace h := next_inj h
  subst h
  simp only [
    implies_true, ↓mbServe_held, ↓live_held, ↓settleDma_held,
    ↓linkReturn_held]

theorem linkRetire_held (s : State) (x1 : Nat) : held (State.linkRetire s x1).1 = held s := by
  simp only [State.linkRetire, ↓held_fst_ite, ite_self,
    ↓endRecal_held, ↓retireLink_held]

theorem execLinkRetire_held (x0 : MbReq) (s : State) : ∀ t, execLinkRetire x0 s = .next t → held t = held s := by
  intro t h
  unfold execLinkRetire at h
  replace h := next_inj h
  subst h
  simp only [
    implies_true, ↓linkRetire_held, ↓mbServe_held, ↓live_held,
    ↓settleDma_held]

theorem linkIsolate_held (s : State) (x1 : Nat) : held (State.linkIsolate s x1).1 = held s := by
  simp only [State.linkIsolate, ↓held_fst_ite, ite_self,
    ↓endRecal_held, ↓setLink_held,
    ↓membersLost_held]

theorem execLinkIsolate_held (x0 : MbReq) (s : State) : ∀ t, execLinkIsolate x0 s = .next t → held t = held s := by
  intro t h
  unfold execLinkIsolate at h
  replace h := next_inj h
  subst h
  simp only [
    implies_true, ↓mbServe_held, ↓linkIsolate_held, ↓live_held,
    ↓settleDma_held]

theorem execSleeveBypass_held (x0 : MbReq) (s : State) : ∀ t, execSleeveBypass x0 s = .next t → held t = held s := by
  intro t h
  unfold execSleeveBypass at h
  replace h := next_inj h
  subst h
  simp only [
    implies_true, ↓mbServe_held, ↓live_held, ↓settleDma_held,
    ↓sleeveBypass_held]

theorem laneBypass_held (s : State) (x1 : Nat) : held (State.laneBypass s x1).1 = held s := by
  simp only [State.laneBypass, ↓held_fst_ite, ite_self,
    ↓setLane_held]

theorem execLaneBypass_held (x0 : MbReq) (s : State) : ∀ t, execLaneBypass x0 s = .next t → held t = held s := by
  intro t h
  unfold execLaneBypass at h
  replace h := next_inj h
  subst h
  simp only [
    implies_true, ↓laneBypass_held, ↓mbServe_held, ↓live_held,
    ↓settleDma_held]

theorem execLoopBypass_held (x0 : MbReq) (s : State) : ∀ t, execLoopBypass x0 s = .next t → held t = held s := by
  intro t h
  unfold execLoopBypass at h
  replace h := next_inj h
  subst h
  simp only [
    implies_true, ↓mbServe_held, ↓live_held, ↓bypassWrite_held]

theorem execLaneReturn_held (x0 : MbReq) (s : State) : ∀ t, execLaneReturn x0 s = .next t → held t = held s := by
  intro t h
  unfold execLaneReturn at h
  replace h := next_inj h
  subst h
  simp only [
    implies_true, ↓mbServe_held, ↓live_held, ↓settleDma_held,
    ↓laneReturn_held]

theorem execLaneTest_held (x0 : MbReq) (x1 : Bool) (s : State) : ∀ t,
    execLaneTest x0 x1 s = .next t → held t = held s := by
  intro t h
  unfold execLaneTest at h
  replace h := next_inj h
  subst h
  simp only [
    implies_true, ↓mbServe_held, ↓laneTest_held, ↓live_held,
    ↓settleDma_held]

theorem setFeature_held (s : State) (x1 : Sqe) (f : State → State) (h : ∀ t,
    held (f t) = held t) : held (s.setFeature x1 f) = held s := by
  unfold State.setFeature
  refine admin_held _ _ _ _ fun t => ?_
  simp only [h, ↓held_ite, ↓fail_held, ite_self]

theorem asFitting_held (s : State) (x1 : Sqe) (x2 : List (Nat × Word)) : held (State.asFitting s x1 x2) = held s := by
  simp only [State.asFitting, ↓held_ite, ite_self,
    ↓fitSelf_held, ↓fail_held, ↓succeed_held]

theorem setThermal_held (s : State) (x1 : Sqe) : held (State.setThermal s x1) = held s := by
  simp only [State.setThermal,
    ↓asFitting_held]

theorem execSetThermalPolicy_held (x0 : Sqe) (s : State) : ∀ t,
    execSetThermalPolicy x0 s = .next t → held t = held s := by
  intro t h
  unfold execSetThermalPolicy at h
  replace h := next_inj h
  subst h
  simp only [
    implies_true, ↓setThermal_held, ↓setFeature_held]

theorem execSetInterruptCoalescing_held (x0 : Sqe) (s : State) : ∀ t,
    execSetInterruptCoalescing x0 s = .next t → held t = held s := by
  intro t h
  unfold execSetInterruptCoalescing at h
  replace h := next_inj h
  subst h
  simp only [
    implies_true, ↓setFeature_held, ↓modCtrl_held, ↓succeed_held]

theorem setAtomicity_held (s : State) (x1 : Sqe) : held (State.setAtomicity s x1) = held s := by
  simp only [State.setAtomicity, ↓held_ite, ite_self,
    ↓fail_held, ↓succeed_held]

theorem execSetWriteAtomicity_held (x0 : Sqe) (s : State) : ∀ t,
    execSetWriteAtomicity x0 s = .next t → held t = held s := by
  intro t h
  unfold execSetWriteAtomicity at h
  replace h := next_inj h
  subst h
  simp only [
    implies_true, ↓setAtomicity_held, ↓setFeature_held]

theorem blobString_held (s : State) (x1 : List Byte) (x2 : Nat) : held (State.blobString s x1 x2) = held s := by
  simp only [State.blobString,
    ↓wr_held, ↓modStr_held]

theorem setMantle_held (s : State) (x1 : Sqe) : held (State.setMantle s x1) = held s := by
  simp only [State.setMantle, ↓held_ite, ite_self,
    ↓held_foldl, implies_true, ↓blobString_held, ↓fail_held,
    ↓compatWrite_held, ↓wr_held, ↓complete_held]

theorem execSetMantleState_held (x0 : Sqe) (s : State) : ∀ t, execSetMantleState x0 s = .next t → held t = held s := by
  intro t h
  unfold execSetMantleState at h
  replace h := next_inj h
  subst h
  simp only [
    implies_true, ↓setMantle_held, ↓setFeature_held]

theorem setHctm_held (s : State) (x1 : Sqe) : held (State.setHctm s x1) = held s := by
  simp only [State.setHctm, ↓held_ite, ite_self,
    ↓fail_held, ↓wr_held, ↓succeed_held]

theorem setVector_held (s : State) (x1 : Sqe) : held (State.setVector s x1) = held s := by
  simp only [State.setVector, ↓held_ite, ite_self,
    ↓fail_held, ↓modCtrl_held, ↓succeed_held]

theorem setCeiling_held (s : State) (x1 : Sqe) : held (State.setCeiling s x1) = held s := by
  simp only [State.setCeiling, held_mk, held_fold, ↓held_ite, ite_self,
    ↓fail_held, ↓succeed_held]

theorem execSetDirtyWindow_held (x0 : Sqe) (s : State) : ∀ t, execSetDirtyWindow x0 s = .next t → held t = held s := by
  intro t h
  unfold execSetDirtyWindow at h
  replace h := next_inj h
  subst h
  simp only [
    implies_true, ↓setCeiling_held, ↓setFeature_held]

theorem setTempThreshold_held (s : State) (x1 : Sqe) : held (State.setTempThreshold s x1) = held s := by
  simp only [State.setTempThreshold, held_mk, held_fold, ↓held_ite, ite_self,
    ↓fail_held, ↓succeed_held]

theorem setErrorRecovery_held (s : State) (x1 : Sqe) : held (State.setErrorRecovery s x1) = held s := by
  simp only [State.setErrorRecovery, ↓held_ite, ite_self,
    ↓fail_held, ↓succeed_held]

theorem execSetErrorRecovery_held (x0 : Sqe) (s : State) : ∀ t,
    execSetErrorRecovery x0 s = .next t → held t = held s := by
  intro t h
  unfold execSetErrorRecovery at h
  replace h := next_inj h
  subst h
  simp only [
    implies_true, ↓setErrorRecovery_held, ↓setFeature_held]

theorem setRole_held (s : State) (x1 : Sqe) : held (State.setRole s x1) = held s := by
  simp only [State.setRole,
    ↓asFitting_held]

theorem execSetSteepleRole_held (x0 : Sqe) (s : State) : ∀ t, execSetSteepleRole x0 s = .next t → held t = held s := by
  intro t h
  unfold execSetSteepleRole at h
  replace h := next_inj h
  subst h
  simp only [
    implies_true, ↓setRole_held, ↓setFeature_held]

theorem setArbitration_held (s : State) (x1 : Sqe) : held (State.setArbitration s x1) = held s := by
  simp only [State.setArbitration,
    ↓modCtrl_held, ↓succeed_held]

theorem execSetArbitration_held (x0 : Sqe) (s : State) : ∀ t, execSetArbitration x0 s = .next t → held t = held s := by
  intro t h
  unfold execSetArbitration at h
  replace h := next_inj h
  subst h
  simp only [
    implies_true, ↓setArbitration_held, ↓setFeature_held]

theorem setQueues_held (s : State) (x1 : Sqe) : held (State.setQueues s x1) = held s := by
  simp only [State.setQueues, ↓held_ite, ite_self,
    ↓fail_held, ↓setCtrl_held, ↓complete_held]

theorem execSetNumberOfQueues_held (x0 : Sqe) (s : State) : ∀ t,
    execSetNumberOfQueues x0 s = .next t → held t = held s := by
  intro t h
  unfold execSetNumberOfQueues at h
  replace h := next_inj h
  subst h
  simp only [
    implies_true, ↓setFeature_held, ↓setQueues_held]

theorem getFeature_held (s : State) (x1 : Sqe) : held (State.getFeature s x1) = held s := by
  simp only [State.getFeature]
  repeat' split
  all_goals try simp only [
    ↓fail_held, ↓complete_held]

theorem getMantle_held (s : State) (x1 : Sqe) : held (State.getMantle s x1) = held s := by
  simp only [State.getMantle,
    ↓getFeature_held]

theorem execGetMantleState_held (x0 : Sqe) (s : State) : ∀ t, execGetMantleState x0 s = .next t → held t = held s := by
  intro t h
  unfold execGetMantleState at h
  replace h := next_inj h
  subst h
  simp only [
    implies_true, ↓getMantle_held, ↓admin_held]

theorem execSetHostThermalManagement_held (x0 : Sqe) (s : State) : ∀ t,
    execSetHostThermalManagement x0 s = .next t → held t = held s := by
  intro t h
  unfold execSetHostThermalManagement at h
  replace h := next_inj h
  subst h
  simp only [
    implies_true, ↓setHctm_held, ↓setFeature_held]

theorem execSetAsyncEventConfig_held (x0 : Sqe) (s : State) : ∀ t,
    execSetAsyncEventConfig x0 s = .next t → held t = held s := by
  intro t h
  unfold execSetAsyncEventConfig at h
  replace h := next_inj h
  subst h
  simp only [
    implies_true, ↓setFeature_held, ↓modCtrl_held, ↓succeed_held]

theorem execGetFeatures_held (x0 : Sqe) (s : State) : ∀ t, execGetFeatures x0 s = .next t → held t = held s := by
  intro t h
  unfold execGetFeatures at h
  replace h := next_inj h
  subst h
  simp only [
    implies_true, ↓getFeature_held, ↓admin_held]

theorem execSetInterruptVectorConfig_held (x0 : Sqe) (s : State) : ∀ t,
    execSetInterruptVectorConfig x0 s = .next t → held t = held s := by
  intro t h
  unfold execSetInterruptVectorConfig at h
  replace h := next_inj h
  subst h
  simp only [
    implies_true, ↓setVector_held, ↓setFeature_held]

theorem execSetTemperatureThreshold_held (x0 : Sqe) (s : State) : ∀ t,
    execSetTemperatureThreshold x0 s = .next t → held t = held s := by
  intro t h
  unfold execSetTemperatureThreshold at h
  replace h := next_inj h
  subst h
  simp only [
    implies_true, ↓setTempThreshold_held, ↓setFeature_held]

theorem fitDone_held (s : State) (x1 : Sqe) (x2 : Status) (x3 : Nat) : held (State.fitDone s x1 x2 x3) = held s := by
  simp only [State.fitDone,
    ↓complete_held]

theorem fittingOr_held (s : State) (x1 : Sqe) (f : State → State) (h : ∀ t,
    held (f t) = held t) : held (s.fittingOr x1 f) = held s := by
  exact adminOr_held _ _ _ _ _ (fun t _ => fitDone_held t _ _ _) h

theorem fitting_held (s : State) (x1 : Sqe) (x2 : Nat) (f : State → State) (h : ∀ t,
    held (f t) = held t) : held (s.fitting x1 x2 f) = held s := by
  unfold State.fitting
  refine fittingOr_held _ _ _ fun t => ?_
  dsimp only
  repeat' split
  all_goals simp only [h, ↓fitDone_held]

theorem fitCmdWrite_held (s : State) (x1 : Nat) (f : State → State) (h : ∀ t,
    held (f t) = held t) : held (s.fitCmdWrite x1 f) = held s := by
  unfold State.fitCmdWrite
  dsimp only
  repeat' split
  all_goals first | rfl | simp only [held_mk, held_fold, h, ↓wake_held]

theorem execBeginFitting_held (x0 : Fin 8) (s : State) : ∀ t, execBeginFitting x0 s = .next t → held t = held s := by
  intro t h
  unfold execBeginFitting at h
  replace h := next_inj h
  subst h
  simp only [
    implies_true, ↓fitCmdWrite_held, ↓fitBegin_held]

theorem commit_held (s : State) (x1 : Nat) : held (State.commit s x1) = held s := by
  simp only [State.commit, ↓held_ite, ite_self,
    ↓vcoreRun_held, ↓modPwr_held, ↓fitCommit_held]

theorem execCommitFitting_held (x0 : Fin 8) (s : State) : ∀ t, execCommitFitting x0 s = .next t → held t = held s := by
  intro t h
  unfold execCommitFitting at h
  replace h := next_inj h
  subst h
  simp only [
    implies_true, ↓commit_held, ↓fitCmdWrite_held]

theorem execFittingCommit_held (x0 : Sqe) (s : State) : ∀ t, execFittingCommit x0 s = .next t → held t = held s := by
  intro t h
  unfold execFittingCommit at h
  replace h := next_inj h
  subst h
  simp only [
    implies_true, ↓fitting_held, ↓commit_held]

theorem fitReportCmd_held (s : State) (x1 : Sqe) : held (State.fitReportCmd s x1) = held s := by
  simp only [State.fitReportCmd, ↓held_ite, ite_self,
    ↓fail_held, ↓complete_held]

theorem execFittingReport_held (x0 : Sqe) (s : State) : ∀ t, execFittingReport x0 s = .next t → held t = held s := by
  intro t h
  unfold execFittingReport at h
  replace h := next_inj h
  subst h
  simp only [
    implies_true, ↓fitReportCmd_held, ↓admin_held]

theorem fitStageAll_held (s : State) (x1 : Nat) (x2 : List (Nat × Word)) : held (State.fitStageAll s x1 x2) = held s :=
    by
  simp only [State.fitStageAll,
    ↓held_foldl, implies_true, ↓fitStage_held]

theorem execFittingBeginStageCommit_held (x0 : Sqe) (s : State) : ∀ t,
    execFittingBeginStageCommit x0 s = .next t → held t = held s := by
  intro t h
  unfold execFittingBeginStageCommit at h
  replace h := next_inj h
  subst h
  simp only [
    implies_true, ↓fitting_held, ↓commit_held, ↓fitStageAll_held,
    ↓fitBegin_held]

theorem fittingStage_held (s : State) (x1 : Sqe) : held (State.fittingStage s x1) = held s := by
  simp only [State.fittingStage, ↓held_ite, ite_self,
    implies_true, ↓fitDone_held, ↓fitting_held,
    ↓fitStageAll_held, ↓fittingOr_held]

theorem execFittingStage_held (x0 : Sqe) (s : State) : ∀ t, execFittingStage x0 s = .next t → held t = held s := by
  intro t h
  unfold execFittingStage at h
  replace h := next_inj h
  subst h
  simp only [
    ↓fittingStage_held]

theorem execFitIdleTimeout_held (s : State) : ∀ t, execFitIdleTimeout s = .next t → held t = held s := by
  intro t h
  unfold execFitIdleTimeout at h
  replace h := next_inj h
  subst h
  simp only [↓held_ite, ite_self,
    ↓fitAbandon_held]

theorem execAbortFitting_held (x0 : Fin 8) (s : State) : ∀ t, execAbortFitting x0 s = .next t → held t = held s := by
  intro t h
  unfold execAbortFitting at h
  replace h := next_inj h
  subst h
  simp only [
    implies_true, ↓fitAbort_held, ↓fitCmdWrite_held]

theorem execRwfStageWrite_held (x0 : Fin 8) (x1 : Nat) (x2 : Word) (s : State) : ∀ t,
    execRwfStageWrite x0 x1 x2 s = .next t → held t = held s := by
  intro t h
  unfold execRwfStageWrite at h
  replace h := next_inj h
  subst h
  simp only [↓held_ite, ite_self,
    ↓fitStage_held]

theorem fitTimeoutWrite_held (s : State) (x1 : Word) : held (State.fitTimeoutWrite s x1) = held s := by
  simp only [State.fitTimeoutWrite, ↓held_ite, ite_self,
    ↓fitAbandon_held, ↓wr_held]

theorem execFittingAbort_held (x0 : Sqe) (s : State) : ∀ t, execFittingAbort x0 s = .next t → held t = held s := by
  intro t h
  unfold execFittingAbort at h
  replace h := next_inj h
  subst h
  simp only [
    implies_true, ↓fitting_held, ↓fitAbort_held]

theorem execFittingBegin_held (x0 : Sqe) (s : State) : ∀ t, execFittingBegin x0 s = .next t → held t = held s := by
  intro t h
  unfold execFittingBegin at h
  replace h := next_inj h
  subst h
  simp only [
    implies_true, ↓fitting_held, ↓fitBegin_held]

theorem execFitTimeoutWrite_held (x0 : Fin 8) (x1 : Word) (s : State) : ∀ t,
    execFitTimeoutWrite x0 x1 s = .next t → held t = held s := by
  intro t h
  unfold execFitTimeoutWrite at h
  replace h := next_inj h
  subst h
  simp only [↓held_ite, ite_self,
    ↓fitTimeoutWrite_held]

theorem latchRead_held (s : State) (x1 : Nat) (x2 : Nat) : held (State.latchRead s x1 x2) = held s := by
  simp only [State.latchRead, held_mk, held_fold, ↓held_ite, ite_self
    ]

theorem keepRead_held (s : State) (x1 : Nat) (x2 : Nat) : held (State.keepRead s x1 x2) = held s := by
  simp only [State.keepRead, held_mk, held_fold]

theorem busRead_held (s : State) (x1 : Nat) (x2 : Nat) (x3 : Nat) : held (State.busRead s x1 x2 x3) = held s := by
  simp only [State.busRead, ↓held_ite, ite_self,
    ↓keepRead_held, ↓latchRead_held, ↓violation_held]

theorem statusClear_held (s : State) (x1 : Nat) (x2 : Word) (x3 : Word) : held (State.statusClear s x1 x2 x3) = held s
    := by
  simp only [State.statusClear, ↓held_ite, ite_self,
    ↓held_foldl, implies_true, ↓setReg_held, ↓raise_held]

theorem force1_held (s : State) (x1 : Nat) : held (State.force1 s x1) = held s := by
  simp only [State.force1, ↓held_ite, ite_self,
    ↓deliver_held, ↓setStatus_held]

theorem forceWrite_held (s : State) (x1 : Nat) (x2 : Word) : held (State.forceWrite s x1 x2) = held s := by
  simp only [State.forceWrite, ↓held_ite, ite_self,
    ↓held_foldl, implies_true, ↓force1_held]

theorem execEvtForceWrite_held (x0 : Fin 8) (x1 : Fin 66) (x2 : Word) (s : State) : ∀ t,
    execEvtForceWrite x0 x1 x2 s = .next t → held t = held s := by
  intro t h
  unfold execEvtForceWrite at h
  replace h := next_inj h
  subst h
  simp only [↓held_ite, ite_self,
    ↓forceWrite_held]

theorem violClear_held (s : State) (x1 : Word) (x2 : Option (Nat × Fin 8 × Nat)) : held (State.violClear s x1 x2) =
    held s := by
  simp only [State.violClear]
  repeat' split
  all_goals try simp only [
    ↓violation_held, ↓setReg_held]

theorem routeWrite_held (s : State) (x1 : Nat) (x2 : Nat) (x3 : Nat) (x4 : Word) : held (State.routeWrite s x1 x2 x3
    x4) = held s := by
  simp only [State.routeWrite, ↓held_ite, ite_self,
    ↓violation_held, ↓setReg_held]

theorem execEvtRouteWrite_held (x0 : Fin 8) (x1 : Fin 2112) (x2 : Fin 3) (x3 : Word) (s : State) : ∀ t,
    execEvtRouteWrite x0 x1 x2 x3 s = .next t → held t = held s := by
  intro t h
  unfold execEvtRouteWrite at h
  replace h := next_inj h
  subst h
  simp only [↓held_ite, ite_self,
    ↓routeWrite_held]

theorem maskWrite_held (s : State) (x1 : Nat) (x2 : Word) : held (State.maskWrite s x1 x2) = held s := by
  simp only [State.maskWrite, ↓held_ite, ite_self,
    ↓held_foldl, implies_true, ↓deliver_held, ↓setReg_held]

theorem execEvtStatusClear_held (x0 : Fin 8) (x1 : Fin 66) (x2 : Word) (x3 : Word) (s : State) : ∀ t,
    execEvtStatusClear x0 x1 x2 x3 s = .next t → held t = held s := by
  intro t h
  unfold execEvtStatusClear at h
  replace h := next_inj h
  subst h
  simp only [↓held_ite, ite_self,
    ↓statusClear_held]

theorem execEvtMaskWrite_held (x0 : Fin 8) (x1 : Fin 66) (x2 : Word) (s : State) : ∀ t,
    execEvtMaskWrite x0 x1 x2 s = .next t → held t = held s := by
  intro t h
  unfold execEvtMaskWrite at h
  replace h := next_inj h
  subst h
  simp only [↓held_ite, ite_self,
    ↓maskWrite_held]

theorem execGblAccessViolClear_held (x0 : Fin 8) (x1 : Word) (x2 : Option (Nat × Fin 8 × Nat)) (s : State) : ∀ t,
    execGblAccessViolClear x0 x1 x2 s = .next t → held t = held s := by
  intro t h
  unfold execGblAccessViolClear at h
  replace h := next_inj h
  subst h
  simp only [↓held_ite, ite_self,
    ↓violClear_held]

theorem testCmdWrite_held (s : State) (x1 : Word) : held (State.testCmdWrite s x1) = held s := by
  simp only [State.testCmdWrite]
  repeat' split
  all_goals try simp only [
    ↓testRead_held, ↓free_held, ↓testWrite_held,
    ↓readRaw_held]

theorem writeMantle_held (s : State) (x1 : Nat) (x2 : Nat) (x3 : Word) : ∀ t,
    State.writeMantle s x1 x2 x3 = some t → held t = held s := by
  intro t h
  unfold State.writeMantle at h
  repeat' first
    | split at h
    | dsimp only at h
  all_goals try simp only [Option.some.injEq, reduceCtorEq] at h
  all_goals first
    | contradiction
    | obtain ⟨rfl, rfl⟩ := h
    | subst h
    | skip
  all_goals try simp only [
    ↓learnWrite_held, ↓wr_held, ↓loopCtlWrite_held,
    ↓trcWrite_held, ↓targetWrite_held, ↓loopFlagsClear_held] at *

theorem writeMailbox_held (s : State) (x1 : Nat) (x2 : Nat) (x3 : Word) : ∀ t,
    State.writeMailbox s x1 x2 x3 = some t → held t = held s := by
  intro t h
  unfold State.writeMailbox at h
  repeat' first
    | split at h
    | dsimp only at h
  all_goals try simp only [Option.some.injEq, reduceCtorEq] at h
  all_goals first
    | contradiction
    | obtain ⟨rfl, rfl⟩ := h
    | subst h
    | skip
  all_goals try simp only [
    ↓mbGo_held] at *

theorem jlCtlWrite_held (s : State) (x1 : Nat) (x2 : Word) : held (State.jlCtlWrite s x1 x2) = held s := by
  simp only [State.jlCtlWrite, ↓held_ite, ite_self,
    ↓enterRetrain_held, ↓wr_held,
    ↓fullRetrain_held]

theorem adopt_held (s : State) (x1 : Nat) : held (State.adopt s x1) = held s := by
  simp only [State.adopt, ↓held_ite, ite_self,
    ↓adoptMantle_held, ↓fitAdoptClass_held,
    ↓adoptRole_held, ↓modThm_held]

theorem marginWrite_held (s : State) (x1 : Nat) (x2 : Word) : held (State.marginWrite s x1 x2) = held s := by
  simp only [State.marginWrite, ↓held_ite, ite_self,
    ↓marginStore_held, ↓marginAbort_held,
    ↓marginStart_held]

theorem testCtlWrite_held (s : State) (x1 : Nat) (x2 : Word) : held (State.testCtlWrite s x1 x2) = held s := by
  simp only [State.testCtlWrite, ↓held_ite, ite_self,
    ↓testStop_held, ↓free_held,
    ↓testStart_held, ↓testStore_held]

theorem writeLink_held (s : State) (x1 : Nat) (x2 : Word) : ∀ t,
    State.writeLink s x1 x2 = some t → held t = held s := by
  intro t h
  unfold State.writeLink at h
  repeat' first
    | split at h
    | dsimp only at h
  all_goals try simp only [Option.some.injEq, reduceCtorEq] at h
  all_goals first
    | contradiction
    | obtain ⟨rfl, rfl⟩ := h
    | subst h
    | skip
  all_goals try simp only [
    ↓testCtlWrite_held, ↓marginWrite_held,
    ↓jlCtlWrite_held] at *

theorem writeTake_held (s : State) (x1 : Nat) (x2 : Nat) (x3 : Word) : ∀ t,
    State.writeTake s x1 x2 x3 = some t → held t = held s := by
  intro t h
  unfold State.writeTake at h
  repeat' first
    | split at h
    | dsimp only at h
  all_goals try simp only [Option.some.injEq, reduceCtorEq] at h
  all_goals first
    | contradiction
    | obtain ⟨rfl, rfl⟩ := h
    | subst h
    | skip
  all_goals try simp only [
    ↓calWrite_held, ↓piWrite_held, ↓fireDue_held,
    ↓dmaResume_held, ↓calStage_held] at *

theorem writeGlobal_held (s : State) (x1 : Nat) (x2 : Nat) (x3 : Word) : ∀ t,
    State.writeGlobal s x1 x2 x3 = some t → held t = held s := by
  intro t h
  unfold State.writeGlobal at h
  repeat' first
    | split at h
    | dsimp only at h
  all_goals try simp only [Option.some.injEq, reduceCtorEq] at h
  all_goals first
    | contradiction
    | obtain ⟨rfl, rfl⟩ := h
    | subst h
    | skip
  all_goals try simp only [
    implies_true, ↓fitAbort_held, ↓fitBegin_held, ↓fitTimeoutWrite_held,
    ↓maskWrite_held, ↓statusClear_held, ↓violClear_held, ↓routeWrite_held, ↓fitCmdWrite_held, ↓violation_held,
    ↓forceWrite_held, ↓commit_held] at *

theorem plainWrite_held (s : State) (x1 : Nat) (x2 : Word) : held (State.plainWrite s x1 x2) = held s := by
  simp only [State.plainWrite]
  repeat' split
  all_goals try simp only [
    ↓setReg_held]

theorem applyWrite_held (s : State) (x1 : Nat) (x2 : Nat) (x3 : Word) : held (State.applyWrite s x1 x2 x3) = held s :=
    by
  have ho : ∀ (a b : Option State), (∀ t, a = some t → held t = held s) → (∀ t, b = some t → held t = held s) →
      ∀ t, a.or b = some t → held t = held s := by
    intro a b ha hb t e
    cases a with
    | none => exact hb t e
    | some a => exact ha t e
  unfold State.applyWrite
  dsimp only
  split
  · exact fitStage_held _ _ _ _
  · split
    · rename_i t ht
      exact ho _ _ (writeGlobal_held _ _ _ _) (ho _ _ (writeTake_held _ _ _ _) (ho _ _ (writeLink_held _ _ _)
        (ho _ _ (writeMantle_held _ _ _ _) (writeMailbox_held _ _ _ _)))) t ht
    · split
      · exact testCmdWrite_held _ _
      · exact plainWrite_held _ _ _

theorem write32_held (s : State) (x1 : Nat) (x2 : Nat) (x3 : Word) : held (State.write32 s x1 x2 x3) = held s := by
  simp only [State.write32, id_eq, ↓held_ite, ite_self,
    implies_true, ↓fitCmdWrite_held, ↓applyWrite_held]

theorem execFitAdopt_held (x0 : Fin 11) (s : State) : ∀ t, execFitAdopt x0 s = .next t → held t = held s := by
  intro t h
  unfold execFitAdopt at h
  replace h := next_inj h
  subst h
  simp only [↓held_ite, ite_self,
    ↓adopt_held]

theorem busWrite_held (s : State) (x1 : Nat) (x2 : Nat) (x3 : Nat) (x4 : Nat) : held (State.busWrite s x1 x2 x3 x4) =
    held s := by
  simp only [State.busWrite, ↓held_ite, ite_self,
    ↓violation_held, ↓write32_held]

theorem doorbell_held (s : State) (x1 : Nat) (x2 : Nat) (x3 : Word) : held (State.doorbell s x1 x2 x3) = held s := by
  simp only [State.doorbell, ↓held_ite, ite_self,
    ↓sqDoorbell_held, ↓cqDoorbell_held]

theorem bar0Read_held (s : State) (x1 : Nat) (x2 : Nat) (x3 : Nat) : held (State.bar0Read s x1 x2 x3) = held s := by
  simp only [State.bar0Read, ↓held_ite, ite_self,
    ↓keepRead_held]

theorem execSplitCounterLoRead_held (x0 : Fin 8) (x1 : ReadAt) (s : State) : ∀ t,
    execSplitCounterLoRead x0 x1 s = .next t → held t = held s := by
  intro t h
  unfold execSplitCounterLoRead at h
  replace h := next_inj h
  subst h
  repeat' first
    | simp only [
        ↓busRead_held, ↓bar0Read_held]
    | intro _
    | split
    | refine (held_foldl _ ?_ _ _).trans ?_
    | refine admin_held _ _ _ _ ?_
    | refine mbServe_held _ _ _ _ ?_
    | refine withSeqs_held _ _ _ _ _ ?_
    | refine fittingOr_held _ _ _ ?_

theorem cfgWrite_held (s : State) (x1 : Nat) (x2 : Nat) (x3 : Word) (x4 : Fin 16) : held (State.cfgWrite s x1 x2 x3 x4)
    = held s := by
  simp only [State.cfgWrite, ↓held_ite, ite_self,
    ↓modPcie_held, ↓sendPending_held, ↓ctrlReset_held]

theorem ccWrite_held (s : State) (x1 : Fin 4) (x2 : Word) : held (State.ccWrite s x1 x2) = held s := by
  simp only [State.ccWrite, ↓held_ite, ite_self,
    ↓settleDma_held, ↓enable_held, ↓shutdown_held,
    ↓modCtrl_held, ↓ctrlReset_held]

theorem msixWrite_held (s : State) (x1 : Nat) (x2 : Nat) (x3 : Word) : held (State.msixWrite s x1 x2 x3) = held s := by
  simp only [State.msixWrite, ↓held_ite, ite_self,
    ↓sendPending_held, ↓modPcie_held]

theorem bar0Write_held (s : State) (x1 : Fin 4) (x2 : Nat) (x3 : Word) : held (State.bar0Write s x1 x2 x3) = held s :=
    by
  simp only [State.bar0Write, ↓held_ite,

    ↓doorbell_held]
  repeat' split
  all_goals try simp only [
    ↓ccWrite_held, ↓msixWrite_held, ↓nssr_held,
    ↓modCtrl_held]

theorem bar0Bus_held (s : State) (x1 : Nat) (x2 : Nat) (x3 : Nat) (x4 : Nat) : held (State.bar0Bus s x1 x2 x3 x4) =
    held s := by
  simp only [State.bar0Bus, ↓held_ite, ite_self,
    ↓bar0Write_held]

theorem execRegisterWrite_held (x0 : Fin 8) (x1 : BusAt) (x2 : Nat) (x3 : Nat) (s : State) : ∀ t,
    execRegisterWrite x0 x1 x2 x3 s = .next t → held t = held s := by
  intro t h
  unfold execRegisterWrite at h
  replace h := next_inj h
  subst h
  repeat' first
    | simp only [
        ↓busWrite_held, ↓bar0Bus_held]
    | intro _
    | split
    | refine (held_foldl _ ?_ _ _).trans ?_
    | refine admin_held _ _ _ _ ?_
    | refine mbServe_held _ _ _ _ ?_
    | refine withSeqs_held _ _ _ _ _ ?_
    | refine fittingOr_held _ _ _ ?_

theorem configRequest_held (s : State) (x1 : CfgReq) : held (State.configRequest s x1) = held s := by
  simp only [State.configRequest, ↓held_ite,
    ↓modPcie_held]
  repeat' split
  all_goals try simp only [
    ↓modPcie_held, ↓cfgWrite_held]

theorem execConfigurationRequest_held (x0 : CfgReq) (s : State) : ∀ t,
    execConfigurationRequest x0 s = .next t → held t = held s := by
  intro t h
  unfold execConfigurationRequest at h
  replace h := next_inj h
  subst h
  simp only [
    ↓configRequest_held]

theorem givePage_held (s : State) (x1 : Sqe) (x2 : Nat) (x3 : List Byte) : held (State.givePage s x1 x2 x3) = held s :=
    by
  simp only [State.givePage, ↓held_ite, ite_self,
    ↓fail_held, ↓modCtrl_held, ↓complete_held]

theorem givePageAll_held (s : State) (x1 : Sqe) (x2 : Nat) (x3 : State → List Byte) : held (State.givePageAll s x1 x2
    x3) = held s := by
  simp only [State.givePageAll, ↓held_ite, ite_self,
    ↓fail_held, ↓givePage_held]

theorem logTakes_held (s : State) (x1 : Sqe) : held (State.logTakes s x1) = held s := by
  simp only [State.logTakes]
  repeat' split
  all_goals try simp only [
    ↓givePageAll_held, ↓fail_held]

theorem getLog_held (s : State) (x1 : Sqe) (f : State → State) (h : ∀ t,
    held (f t) = held t) : held (s.getLog x1 f) = held s := by
  exact admin_held _ _ _ _ h

theorem pageGen_held (s : State) (x1 : Nat) (x2 : Nat) (x3 : Nat) (x4 : List Byte) : held (State.pageGen s x1 x2 x3
    x4).2 = held s := by
  simp only [State.pageGen, held_mk, held_fold,
    ↓free_held]

theorem giveHealth_held (s : State) (x1 : Sqe) (x2 : List Byte) : held (State.giveHealth s x1 x2) = held s := by
  simp only [State.giveHealth,
    ↓pageGen_held, ↓givePage_held]

theorem logHealth_held (s : State) (x1 : Sqe) : held (State.logHealth s x1) = held s := by
  simp only [State.logHealth]
  repeat' split
  all_goals try simp only [
    ↓giveHealth_held, ↓fail_held]

theorem execGetLogStripeHealth_held (x0 : Sqe) (s : State) : ∀ t,
    execGetLogStripeHealth x0 s = .next t → held t = held s := by
  intro t h
  unfold execGetLogStripeHealth at h
  replace h := next_inj h
  subst h
  simp only [
    implies_true, ↓getLog_held, ↓logHealth_held]

theorem execGetLogFirmwareSlot_held (x0 : Sqe) (s : State) : ∀ t,
    execGetLogFirmwareSlot x0 s = .next t → held t = held s := by
  intro t h
  unfold execGetLogFirmwareSlot at h
  replace h := next_inj h
  subst h
  simp only [
    implies_true, ↓givePageAll_held, ↓getLog_held]

theorem execGetLogTakeDirectory_held (x0 : Sqe) (s : State) : ∀ t,
    execGetLogTakeDirectory x0 s = .next t → held t = held s := by
  intro t h
  unfold execGetLogTakeDirectory at h
  replace h := next_inj h
  subst h
  simp only [
    implies_true, ↓logTakes_held, ↓getLog_held]

theorem logStatus_held (s : State) (x1 : Sqe) : held (State.logStatus s x1) = held s := by
  simp only [State.logStatus, ↓held_ite, ite_self,
    ↓pageGen_held, ↓fail_held, ↓givePage_held]

theorem logSupported_held (s : State) (x1 : Sqe) : held (State.logSupported s x1) = held s := by
  simp only [State.logSupported, ↓held_ite, ite_self,
    ↓givePageAll_held, ↓fail_held]

theorem execGetLogSupportedPages_held (x0 : Sqe) (s : State) : ∀ t,
    execGetLogSupportedPages x0 s = .next t → held t = held s := by
  intro t h
  unfold execGetLogSupportedPages at h
  replace h := next_inj h
  subst h
  simp only [
    implies_true, ↓logSupported_held, ↓getLog_held]

theorem logSmart_held (s : State) (x1 : Sqe) : held (State.logSmart s x1) = held s := by
  simp only [State.logSmart,
    ↓givePageAll_held, ↓free_held]

theorem execGetLogSmartHealth_held (x0 : Sqe) (s : State) : ∀ t,
    execGetLogSmartHealth x0 s = .next t → held t = held s := by
  intro t h
  unfold execGetLogSmartHealth at h
  replace h := next_inj h
  subst h
  simp only [
    implies_true, ↓logSmart_held, ↓getLog_held]

theorem logLifetime_held (s : State) (x1 : Sqe) : held (State.logLifetime s x1) = held s := by
  simp only [State.logLifetime]
  repeat' split
  all_goals try simp only [
    ↓givePageAll_held, ↓fail_held]

theorem execGetLogErrorInformation_held (x0 : Sqe) (s : State) : ∀ t,
    execGetLogErrorInformation x0 s = .next t → held t = held s := by
  intro t h
  unfold execGetLogErrorInformation at h
  replace h := next_inj h
  subst h
  simp only [
    implies_true, ↓givePageAll_held, ↓getLog_held]

theorem execGetLogCommandsEffects_held (x0 : Sqe) (s : State) : ∀ t,
    execGetLogCommandsEffects x0 s = .next t → held t = held s := by
  intro t h
  unfold execGetLogCommandsEffects at h
  replace h := next_inj h
  subst h
  simp only [
    implies_true, ↓givePageAll_held, ↓getLog_held]

theorem logSanitize_held (s : State) (x1 : Sqe) : held (State.logSanitize s x1) = held s := by
  simp only [State.logSanitize,
    ↓free_held, ↓sanStep_held,
    ↓givePageAll_held]

theorem logClamp_held (s : State) (x1 : Sqe) : held (State.logClamp s x1) = held s := by
  simp only [State.logClamp]
  repeat' split
  all_goals try simp only [
    ↓givePageAll_held, ↓fail_held]

theorem logChanged_held (s : State) (x1 : Sqe) : held (State.logChanged s x1) = held s := by
  simp only [State.logChanged, ↓held_ite, ite_self,
    ↓modCtrl_held, ↓givePageAll_held]

theorem execGetLogClampReport_held (x0 : Sqe) (s : State) : ∀ t,
    execGetLogClampReport x0 s = .next t → held t = held s := by
  intro t h
  unfold execGetLogClampReport at h
  replace h := next_inj h
  subst h
  simp only [
    implies_true, ↓logClamp_held, ↓getLog_held]

theorem execGetLogSanitizeStatus_held (x0 : Sqe) (s : State) : ∀ t,
    execGetLogSanitizeStatus x0 s = .next t → held t = held s := by
  intro t h
  unfold execGetLogSanitizeStatus at h
  replace h := next_inj h
  subst h
  simp only [
    implies_true, ↓settleDma_held, ↓getLog_held, ↓logSanitize_held]

theorem execGetLogChangedNamespaces_held (x0 : Sqe) (s : State) : ∀ t,
    execGetLogChangedNamespaces x0 s = .next t → held t = held s := by
  intro t h
  unfold execGetLogChangedNamespaces at h
  replace h := next_inj h
  subst h
  simp only [
    implies_true, ↓logChanged_held, ↓getLog_held]

theorem execGetLogMantleThermal_held (x0 : Sqe) (s : State) : ∀ t,
    execGetLogMantleThermal x0 s = .next t → held t = held s := by
  intro t h
  unfold execGetLogMantleThermal at h
  replace h := next_inj h
  subst h
  simp only [
    implies_true, ↓getLog_held, ↓logStatus_held]

theorem execGetLogLifetimeHistograms_held (x0 : Sqe) (s : State) : ∀ t,
    execGetLogLifetimeHistograms x0 s = .next t → held t = held s := by
  intro t h
  unfold execGetLogLifetimeHistograms at h
  replace h := next_inj h
  subst h
  simp only [
    implies_true, ↓logLifetime_held, ↓getLog_held]

theorem miPower_held (x0 : Sqe) (s : State) : ∀ t, miPower x0 s = .next t → held t = held s := by
  intro t h
  unfold miPower at h
  split at h
  · exact execSetPsCapped_held _ _ _ h
  · exact execEnterDoze_held _ _ _ h
  · exact execEnterSleep_held _ _ _ h
  · exact execEnterDeepSleep_held _ _ _ h
  · exact execSetPsRun_held _ _ _ h

theorem miSetFeature_held (x0 : Sqe) (s : State) : ∀ t, miSetFeature x0 s = .next t → held t = held s := by
  intro t h
  unfold miSetFeature at h
  repeat' split at h
  all_goals first
    | with_reducible exact execSetMantleState_held _ _ t h
    | with_reducible exact execSetTemperatureThreshold_held _ _ t h
    | with_reducible exact execSetHostThermalManagement_held _ _ t h
    | with_reducible exact execSetSteepleRole_held _ _ t h
    | with_reducible exact execSetWriteAtomicity_held _ _ t h
    | with_reducible exact execSetNumberOfQueues_held _ _ t h
    | with_reducible exact execSetInterruptCoalescing_held _ _ t h
    | with_reducible exact execSetAsyncEventConfig_held _ _ t h
    | with_reducible exact execSetInterruptVectorConfig_held _ _ t h
    | with_reducible exact execSetDirtyWindow_held _ _ t h
    | with_reducible exact miPower_held _ _ t h
    | with_reducible exact execSetThermalPolicy_held _ _ t h
    | with_reducible exact execSetErrorRecovery_held _ _ t h
    | with_reducible exact execSetArbitration_held _ _ t h
    | (replace h := next_inj h; subst h; simp only [
        implies_true, ↓fail_held,
        ↓setFeature_held])
    | (replace h := next_inj h; subst h; refine admin_held _ _ _ _ ?_; intro _; simp only [id_eq, held_mk, held_fold,
        ↓held_ite, ↓held_fst_ite, ↓held_snd_ite, ite_self, ↓held_foldl, ↓held_foldl_fst, ↓held_foldl_snd, ↓held_foldr,
        implies_true, ↓fail_held, ↓setFeature_held])

theorem miLog_held (x0 : Sqe) (s : State) : ∀ t, miLog x0 s = .next t → held t = held s := by
  intro t h
  unfold miLog at h
  repeat' split at h
  all_goals first
    | with_reducible exact execGetLogFirmwareSlot_held _ _ t h
    | with_reducible exact execGetLogClampReport_held _ _ t h
    | with_reducible exact execGetLogCommandsEffects_held _ _ t h
    | with_reducible exact execGetLogTakeDirectory_held _ _ t h
    | with_reducible exact execGetLogErrorInformation_held _ _ t h
    | with_reducible exact execGetLogStripeHealth_held _ _ t h
    | with_reducible exact execGetLogMantleThermal_held _ _ t h
    | with_reducible exact execGetLogSanitizeStatus_held _ _ t h
    | with_reducible exact execGetLogLifetimeHistograms_held _ _ t h
    | with_reducible exact execGetLogSupportedPages_held _ _ t h
    | with_reducible exact execGetLogSmartHealth_held _ _ t h
    | with_reducible exact execGetLogChangedNamespaces_held _ _ t h
    | (replace h := next_inj h; subst h; simp only [id_eq, held_mk, held_fold, ↓held_ite, ↓held_fst_ite, ↓held_snd_ite,
        ite_self, ↓held_foldl, ↓held_foldl_fst, ↓held_foldl_snd, ↓held_foldr, implies_true])
    | (replace h := next_inj h; subst h; refine admin_held _ _ _ _ ?_; intro _; simp only [id_eq, held_mk, held_fold,
        ↓held_ite, ↓held_fst_ite, ↓held_snd_ite, ite_self, ↓held_foldl, ↓held_foldl_fst, ↓held_foldl_snd, ↓held_foldr,
        implies_true])

theorem miReceive_held (s : State) (x1 : Sqe) : held (State.miReceive s x1) = held s := by
  simp only [State.miReceive, ↓held_ite, ite_self,
    ↓complete_held]

theorem execNvmeMiReceive_held (x0 : Sqe) (s : State) : ∀ t, execNvmeMiReceive x0 s = .next t → held t = held s := by
  intro t h
  unfold execNvmeMiReceive at h
  replace h := next_inj h
  subst h
  simp only [↓held_ite, ite_self,
    implies_true, ↓miReceive_held, ↓admin_held]

theorem miReply_held (s : State) (x1 : Nat) (x2 : MiAns) : held (State.miReply s x1 x2) = held s := by
  simp only [State.miReply,
    ↓miMessage_held]

theorem miConfigSet_held (s : State) (x1 : Word) (x2 : Word) : held (State.miConfigSet s x1 x2).1 = held s := by
  simp only [State.miConfigSet, held_mk, held_fold, ↓held_fst_ite, ite_self
    ]

theorem miShutdown_held (s : State) : held (State.miShutdown s) = held s := by
  simp only [State.miShutdown, ↓held_ite, ite_self,
    ↓held_foldl, implies_true, ↓settleDma_held, ↓shutdown_held]

theorem miServe_held (s : State) (x1 : Nat) (x2 : Word) (x3 : Word) : held (State.miServe s x1 x2 x3).1 = held s := by
  simp only [State.miServe]
  repeat' split
  all_goals try simp only [
    ↓miConfigSet_held, ↓free_held, ↓miShutdown_held]

theorem miCmd_held (s : State) (x1 : Nat) (x2 : Word) (x3 : Word) : held (State.miCmd s x1 x2 x3) = held s := by
  simp only [State.miCmd, ↓held_ite, ite_self,
    ↓miServe_held, ↓noteMgmt_held, ↓miReply_held]

theorem execMiVpdWrite_held (x0 : Word) (x1 : Word) (x2 : List Byte) (s : State) : ∀ t,
    execMiVpdWrite x0 x1 x2 s = .next t → held t = held s := by
  intro t h
  unfold execMiVpdWrite at h
  replace h := next_inj h
  subst h
  simp only [
    ↓miCmd_held]

theorem afterCmd_held (x0 : Host.Outcome State Fault Refusal) (s : State) (h : ∀ t,
    x0 = .next t → held t = held s) : held (afterCmd x0 s) = held s := by
  unfold afterCmd
  split
  · exact h _ rfl
  · rfl

theorem miCommit_held (x0 : Sqe) (s : State) : ∀ t, miCommit x0 s = .next t → held t = held s := by
  intro t h
  unfold miCommit at h
  dsimp only at h
  split at h
  · exact execFirmwareCommitActivate_held _ _ _ h
  · exact execFirmwareCommitReplace_held _ _ _ h

theorem miFitting_held (x0 : Sqe) (s : State) : ∀ t, miFitting x0 s = .next t → held t = held s := by
  intro t h
  unfold miFitting at h
  repeat' split at h
  all_goals first
    | with_reducible exact execFittingAbort_held _ _ t h
    | with_reducible exact execFittingCommit_held _ _ t h
    | with_reducible exact execFittingStage_held _ _ t h
    | with_reducible exact execFittingBeginStageCommit_held _ _ t h
    | with_reducible exact execFittingBegin_held _ _ t h
    | (replace h := next_inj h; subst h; simp only [id_eq, held_mk, held_fold, ↓held_ite, ↓held_fst_ite, ↓held_snd_ite,
        ite_self, ↓held_foldl, ↓held_foldl_fst, ↓held_foldl_snd, ↓held_foldr, implies_true])
    | (replace h := next_inj h; subst h; refine admin_held _ _ _ _ ?_; intro _; simp only [id_eq, held_mk, held_fold,
        ↓held_ite, ↓held_fst_ite, ↓held_snd_ite, ite_self, ↓held_foldl, ↓held_foldl_fst, ↓held_foldl_snd, ↓held_foldr,
        implies_true])

theorem miKeyLoad_held (x0 : Sqe) (s : State) : ∀ t, miKeyLoad x0 s = .next t → held t = held s := by
  intro t h
  unfold miKeyLoad at h
  repeat' split at h
  all_goals first
    | with_reducible exact execKeyLoadClear_held _ _ t h
    | with_reducible exact execKeyLoadGenerate_held _ _ t h
    | with_reducible exact execKeyLoadLoad_held _ _ t h
    | (replace h := next_inj h; subst h; simp only [
        implies_true, ↓fail_held, ↓admin_held])
    | (replace h := next_inj h; subst h; refine admin_held _ _ _ _ ?_; intro _; simp only [id_eq, held_mk, held_fold,
        ↓held_ite, ↓held_fst_ite, ↓held_snd_ite, ite_self, ↓held_foldl, ↓held_foldl_fst, ↓held_foldl_snd, ↓held_foldr,
        implies_true, ↓fail_held, ↓admin_held])

theorem miNamespace_held (x0 : Sqe) (s : State) : ∀ t, miNamespace x0 s = .next t → held t = held s := by
  intro t h
  unfold miNamespace at h
  repeat' split at h
  all_goals first
    | with_reducible exact execNamespaceCreate_held _ _ t h
    | with_reducible exact execNamespaceDelete_held _ _ t h
    | (replace h := next_inj h; subst h; simp only [id_eq, held_mk, held_fold, ↓held_ite, ↓held_fst_ite, ↓held_snd_ite,
        ite_self, ↓held_foldl, ↓held_foldl_fst, ↓held_foldl_snd, ↓held_foldr, implies_true])
    | (replace h := next_inj h; subst h; refine admin_held _ _ _ _ ?_; intro _; simp only [id_eq, held_mk, held_fold,
        ↓held_ite, ↓held_fst_ite, ↓held_snd_ite, ite_self, ↓held_foldl, ↓held_foldl_fst, ↓held_foldl_snd, ↓held_foldr,
        implies_true])

theorem miSanitize_held (x0 : Sqe) (s : State) : ∀ t, miSanitize x0 s = .next t → held t = held s := by
  intro t h
  unfold miSanitize at h
  repeat' split at h
  all_goals first
    | with_reducible exact execSanitizeCryptoErase_held _ _ t h
    | with_reducible exact execSanitizeExitFailureMode_held _ _ t h
    | with_reducible exact execSanitizeOverwrite_held _ _ t h
    | with_reducible exact execSanitizeBlockErase_held _ _ t h
    | (replace h := next_inj h; subst h; simp only [
        implies_true, ↓fail_held, ↓admin_held])
    | (replace h := next_inj h; subst h; refine admin_held _ _ _ _ ?_; intro _; simp only [id_eq, held_mk, held_fold,
        ↓held_ite, ↓held_fst_ite, ↓held_snd_ite, ite_self, ↓held_foldl, ↓held_foldl_fst, ↓held_foldl_snd, ↓held_foldr,
        implies_true, ↓fail_held, ↓admin_held])

theorem miAdmin_held (x0 : Nat) (x1 : Sqe) (s : State) : ∀ t, miAdmin x0 x1 s = .next t → held t = held s := by
  intro t h
  unfold miAdmin at h
  repeat' split at h
  all_goals first
    | with_reducible exact miSanitize_held _ _ t h
    | with_reducible exact execIdentify_held _ _ t h
    | with_reducible exact execFittingReport_held _ _ t h
    | with_reducible exact execInvalidCommandOpcode_held _ _ t h
    | with_reducible exact miLog_held _ _ t h
    | with_reducible exact miNamespace_held _ _ t h
    | with_reducible exact execFirmwareImageDownload_held _ _ t h
    | with_reducible exact miFitting_held _ _ t h
    | with_reducible exact miKeyLoad_held _ _ t h
    | with_reducible exact execGetFeatures_held _ _ t h
    | with_reducible exact miCommit_held _ _ t h
    | with_reducible exact miSetFeature_held _ _ t h
    | (replace h := next_inj h; subst h; simp only [id_eq, held_mk, held_fold, ↓held_ite, ↓held_fst_ite, ↓held_snd_ite,
        ite_self, ↓held_foldl, ↓held_foldl_fst, ↓held_foldl_snd, ↓held_foldr, implies_true])
    | (replace h := next_inj h; subst h; refine admin_held _ _ _ _ ?_; intro _; simp only [id_eq, held_mk, held_fold,
        ↓held_ite, ↓held_fst_ite, ↓held_snd_ite, ite_self, ↓held_foldl, ↓held_foldl_fst, ↓held_foldl_snd, ↓held_foldr,
        implies_true])

theorem miAdminCmd_held (s : State) (x1 : Nat) (x2 : Sqe) : held (State.miAdminCmd s x1 x2) = held s := by
  unfold State.miAdminCmd
  dsimp only
  repeat' split
  · rfl
  · rw [miReply_held, wake_held, noteMgmt_held]
  · rw [miReply_held, wake_held, noteMgmt_held]
  rw [afterCmd_held _ _ (miAdmin_held _ _ _), wake_held, noteMgmt_held]

theorem execMiAdminCommand_held (x0 : Fin 256) (x1 : Sqe) (s : State) : ∀ t,
    execMiAdminCommand x0 x1 s = .next t → held t = held s := by
  intro t h
  unfold execMiAdminCommand at h
  replace h := next_inj h
  subst h
  simp only [
    ↓miAdminCmd_held]

theorem execMiReset_held (x0 : Word) (x1 : Word) (s : State) : ∀ t,
    execMiReset x0 x1 s = .next t → held t = held s := by
  intro t h
  unfold execMiReset at h
  replace h := next_inj h
  subst h
  simp only [↓held_ite, ite_self,
    ↓miCmd_held, ↓nssr_held]

theorem miSend_held (s : State) (x1 : Sqe) : held (State.miSend s x1) = held s := by
  simp only [State.miSend, ↓held_ite, ite_self,
    ↓nssr_held, ↓modCtrl_held, ↓miServe_held,
    ↓complete_held]

theorem execMiConfigurationSet_held (x0 : Word) (x1 : Word) (s : State) : ∀ t,
    execMiConfigurationSet x0 x1 s = .next t → held t = held s := by
  intro t h
  unfold execMiConfigurationSet at h
  replace h := next_inj h
  subst h
  simp only [
    ↓miCmd_held]

theorem execMiReadDataStructure_held (x0 : Word) (x1 : Word) (s : State) : ∀ t,
    execMiReadDataStructure x0 x1 s = .next t → held t = held s := by
  intro t h
  unfold execMiReadDataStructure at h
  replace h := next_inj h
  subst h
  simp only [
    ↓miCmd_held]

theorem execNvmeMiSend_held (x0 : Sqe) (s : State) : ∀ t, execNvmeMiSend x0 s = .next t → held t = held s := by
  intro t h
  unfold execNvmeMiSend at h
  replace h := next_inj h
  subst h
  simp only [↓held_ite, ite_self,
    implies_true, ↓miSend_held, ↓admin_held]

theorem execMiConfigurationGet_held (x0 : Word) (x1 : Word) (s : State) : ∀ t,
    execMiConfigurationGet x0 x1 s = .next t → held t = held s := by
  intro t h
  unfold execMiConfigurationGet at h
  replace h := next_inj h
  subst h
  simp only [
    ↓miCmd_held]

theorem execMiVpdRead_held (x0 : Word) (x1 : Word) (s : State) : ∀ t,
    execMiVpdRead x0 x1 s = .next t → held t = held s := by
  intro t h
  unfold execMiVpdRead at h
  replace h := next_inj h
  subst h
  simp only [
    ↓miCmd_held]

theorem execMiShutdown_held (x0 : Word) (x1 : Word) (s : State) : ∀ t,
    execMiShutdown x0 x1 s = .next t → held t = held s := by
  intro t h
  unfold execMiShutdown at h
  replace h := next_inj h
  subst h
  simp only [
    ↓miCmd_held]

theorem execMiControllerHealthPoll_held (x0 : Word) (x1 : Word) (s : State) : ∀ t,
    execMiControllerHealthPoll x0 x1 s = .next t → held t = held s := by
  intro t h
  unfold execMiControllerHealthPoll at h
  replace h := next_inj h
  subst h
  simp only [
    ↓miCmd_held]

theorem execMiSubsystemHealthPoll_held (x0 : Word) (x1 : Word) (s : State) : ∀ t,
    execMiSubsystemHealthPoll x0 x1 s = .next t → held t = held s := by
  intro t h
  unfold execMiSubsystemHealthPoll at h
  replace h := next_inj h
  subst h
  simp only [
    ↓miCmd_held]

theorem readVerify_held (s : State) (x1 : Sqe) (x2 : Verdict) (x3 : Bool) : held (State.readVerify s x1 x2 x3) = held s
    := by
  simp only [State.readVerify]
  repeat' split
  all_goals try simp only [
    ↓readCmd_held]

theorem execRead_held (x0 : Sqe) (x1 : List (Nat × Fin 3)) (x2 : List Nat) (x3 : List Nat) (s : State) : ∀ t,
    execRead x0 x1 x2 x3 s = .next t → held t = held s := by
  intro t h
  unfold execRead at h
  replace h := next_inj h
  subst h
  simp only [↓held_ite, ite_self,
    ↓readVerify_held, ↓settleDma_held]

theorem execVerify_held (x0 : Sqe) (x1 : List (Nat × Fin 3)) (x2 : List Nat) (s : State) : ∀ t,
    execVerify x0 x1 x2 s = .next t → held t = held s := by
  intro t h
  unfold execVerify at h
  replace h := next_inj h
  subst h
  simp only [↓held_ite, ite_self,
    ↓readVerify_held, ↓settleDma_held]

theorem takeIdle_held (s : State) : held (State.takeIdle s) = held s := by
  simp only [State.takeIdle, ↓held_ite, ite_self,
    ↓settleDma_held]

theorem readsIdle_held (s : State) : held (State.readsIdle s) = held s := by
  simp only [State.readsIdle, ↓held_ite, ite_self,
    ↓readsGo_held, ↓settleDma_held]

theorem retrySeqs_held (s : State) : held (State.retrySeqs s) = held s := by
  unfold State.retrySeqs
  repeat' first
    | simp only [held_mk, held_fold, ↓held_ite,
        ↓settleDma_held, ↓nsDeleteCmd_held, ↓keyLoad_held]
    | intro _
    | split
    | refine (held_foldl _ ?_ _ _).trans ?_
    | refine (held_foldl_fst _ ?_ _ _).trans ?_
    | refine (held_foldl_snd _ ?_ _ _).trans ?_

end Sys2Proof.Laws
end

