-- ==== Sys2Proof/Laws/Otp.lean ====
section
/-!
SUPPORT. Laws/Otp.lean: the operations that burn the OTP: they leave the queue and the clock alone and clear no bit.
-/
namespace Sys2Proof.Laws
open Sys2Proof.Machine

/-- The queue and the clock are left alone, and no bit of the OTP clears. -/
def grows (s t : State) : Prop :=
  t.pending = s.pending ∧ t.now = s.now ∧ ∀ w, s.otpWord w &&& t.otpWord w = s.otpWord w

theorem grows_of_held {s t : State} (h : held t = held s) : grows s t := by
  simp only [held, Prod.mk.injEq] at h
  obtain ⟨hp, hn, ho⟩ := h
  refine ⟨hp, hn, fun w => ?_⟩
  rw [State.otpWord, State.otpWord, ho, BitVec.and_self]

theorem grows_refl (s : State) : grows s s := grows_of_held rfl

theorem grows_trans {s t u : State} (h : grows s t) (g : grows t u) : grows s u := by
  refine ⟨g.1.trans h.1, g.2.1.trans h.2.1, fun w => ?_⟩
  have a := h.2.2 w
  have b := g.2.2 w
  rw [← a, BitVec.and_assoc, b]

/-- A held step after a growing one. -/
theorem grows_then {s t u : State} (h : grows s t) (g : held u = held t) : grows s u := grows_trans h (grows_of_held g)

theorem grows_ite {s a b : State} (c : Prop) [Decidable c] (ha : grows s a) (hb : grows s b) :
    grows s (if c then a else b) := by
  split
  · exact ha
  · exact hb

theorem burn_grows (s : State) (w : Nat) (v : Word) : grows s (s.burn w v) := by
  refine ⟨rfl, rfl, fun j => ?_⟩
  simp only [State.otpWord, State.burn]
  rw [mapGet_mapSet]
  split
  · subst j
    ext i hi
    simp
    intro h
    exact Or.inl h
  · exact BitVec.and_self

theorem foldl_grows {α : Type} (g : State → α → State) (h : ∀ t x, grows t (g t x)) (l : List α) (s : State) :
    grows s (l.foldl g s) := by
  induction l generalizing s with
  | nil => exact grows_refl s
  | cons x l ih => exact grows_trans (h s x) (ih _)

theorem burnBytes_grows (s : State) (w : Nat) (b : List Byte) : grows s (s.burnBytes w b) :=
  foldl_grows _ (fun t i => burn_grows t (w + i) _) _ _

theorem burnOwner_grows (s : State) (i : Nat) (h : BitVec 384) : grows s (s.burnOwner i h) := burnBytes_grows _ _ _

theorem burnArb_grows (s : State) (k svn : Nat) : grows s (s.burnArb k svn) := grows_trans (burn_grows _ _ _) (burn_grows _ _ _)

theorem burnActive_grows (s : State) (k : Nat) : grows s (s.burnActive k) := by
  unfold State.burnActive
  split
  · exact burnArb_grows _ _ _
  · exact grows_refl s

theorem completeRetire_grows (s : State) : grows s s.completeRetire := grows_ite _ (burn_grows _ _ _) (grows_refl s)

theorem applyImage_grows (s : State) (slot : Nat) (cfg : List Rec) : grows s (s.applyImage slot cfg) := by
  unfold State.applyImage
  extract_lets b s1 s2 s3 s4
  have e1 : held s1 = held s := useConfig_held _ _ _
  have e2 : held s2 = held s := by rw [wr_held, applyRegs_held, e1]
  have e3 : held s3 = held s := by rw [extend_held, extend_held, e2]
  have e4 : held s4 = held s := by simp only [s4, ↓modBoot_held, implies_true, e3]
  split
  · refine grows_then (grows_trans (grows_of_held ?_) (burnActive_grows _ _)) (showTrial_held _)
    rw [bootRecord_held, e4]
  · exact grows_of_held e4

theorem imageRun_grows (s : State) (source : Nat) : grows s (s.imageRun source) := by
  unfold State.imageRun
  extract_lets order base a s0 s1
  have e0 : held s0 = held s := by
    simp only [s0, ↓held_ite, ↓showTrial_held, ↓revert_held, ite_self]
  have e1 : held s1 = held s := by simp only [s1, ↓modBoot_held, implies_true, e0]
  clear_value s1 a
  split
  · rename_i slot cfg _
    refine grows_then (grows_trans (grows_of_held e1) (applyImage_grows s1 slot cfg)) ?_
    rw [report_held, showImage_held]
  · refine grows_of_held ?_
    rw [report_held, showImage_held, noImage_held, e1]

theorem imageLoad_grows (s : State) : grows s s.imageLoad := by
  unfold State.imageLoad
  repeat' split
  · exact grows_refl s
  · exact grows_then (imageRun_grows s 1) (setPhase_held _ _)
  · exact imageRun_grows s 2
  · exact grows_refl s

theorem phaseRom_grows (s : State) (sel : Nat) : grows s (s.phaseRom sel) := by
  unfold State.phaseRom
  split
  · exact grows_refl s
  · extract_lets s1 s2 s3 slots s4
    have e1 : held s1 = held s := by simp only [s1, ↓wr_held, ↓modBoot_held, implies_true]
    have g2 : grows s s2 := grows_trans (grows_of_held e1) (completeRetire_grows _)
    have g4 : grows s s4 := grows_then g2 (by rw [extend_held, extend_held, extend_held])
    split
    · exact grows_then (grows_of_held e1) (setPhase_held _ _)
    · refine grows_then g4 ?_
      simp only [↓setPhase_held, ↓showTrial_held, ↓modBoot_held, implies_true]

theorem trialConfirm_grows (s : State) : grows s s.trialConfirm := by
  unfold State.trialConfirm
  split
  · exact grows_refl s
  · split
    · exact grows_refl s
    · extract_lets s1
      have e1 : held s1 = held s := by
        simp only [s1, ↓held_ite, ↓bootRecord_held, ite_self]
      exact grows_then (grows_trans (grows_of_held e1) (foldl_grows _ burnActive_grows _ _)) (showTrial_held _)

theorem ownTake_grows (s : State) (args : List Byte) : grows s (s.ownTake args).1 := by
  unfold State.ownTake
  dsimp only
  repeat' split
  · exact grows_refl s
  · exact grows_refl s
  · exact grows_trans (burnOwner_grows _ _ _) (burn_grows _ _ _)

theorem ownTransfer_grows (s : State) (args : List Byte) : grows s (s.ownTransfer args).1 := by
  unfold State.ownTransfer
  dsimp only
  repeat' split
  · exact grows_refl s
  · exact grows_refl s
  · exact grows_refl s
  · exact grows_refl s
  · exact grows_trans (burnOwner_grows _ _ _) (burn_grows _ _ _)

theorem retireDevice_grows (s : State) (args : List Byte) : grows s (s.retireDevice args).1 := by
  unfold State.retireDevice
  repeat' split
  · exact grows_refl s
  · exact grows_refl s
  · exact grows_refl s
  · exact grows_trans (foldl_grows _ (fun t i => burn_grows t _ _) _ _) (burn_grows _ _ _)

theorem mbServe_grows (s : State) (r : MbReq) (mine : Nat → Bool) (f : State → MbMsg → State × MbAns)
    (h : ∀ t m, grows t (f t m).1) : grows s (s.mbServe r mine f) := by
  unfold State.mbServe
  extract_lets m s0 s1 a s2
  have e0 : held s0 = held s := by
    simp only [s0]
    split
    · rfl
    · exact noteMgmt_held _
  have e1 : held s1 = held s := by rw [modMaint_held, mbGo_held, e0]
  have ga : grows s a.1 := by
    simp only [a]
    split
    · exact grows_of_held e1
    · exact grows_trans (grows_of_held e1) (h _ _)
  have g2 : grows s s2 := by
    simp only [s2]
    split
    · exact grows_then ga (record_held _ _ _ _)
    · exact ga
  clear_value s2 a
  repeat' split
  · exact grows_refl s
  · exact grows_of_held (mbGo_held _ _)
  · exact grows_then g2 (mbRespond_held _ _ _ _)

theorem retire_grows (s : State) (r : MbReq) : grows s (s.retire r) := by
  unfold State.retire
  extract_lets s1
  have g1 : grows s s1 := mbServe_grows _ _ _ _ fun t m => retireDevice_grows t _
  split
  · refine grows_then g1 ?_
    rw [settleDma_held, warmFlush_held]
  · exact g1

/-- Passing time leaves the queue and the OTP alone. -/
theorem idle_keeps (s : State) : s.idle.pending = s.pending ∧ s.idle.boot.otp = s.boot.otp := by
  have h : held s.idle = held { s with now := s.now + 1 } := by
    rw [State.idle, serveDram_held, cpGo_held, readsIdle_held, takeIdle_held, commitEnd_held, retrySeqs_held,
      coalesceDue_held, capStep_held]
  simp only [held, Prod.mk.injEq] at h
  exact ⟨h.1, h.2.2⟩

end Sys2Proof.Laws
end

