-- ==== Sys2Proof/Laws/Sleeve.lean ====
section
/-!
SUPPORT. Laws/Sleeve.lean: what issuing a control word and changing a record can do: the record named, its Sleeve and nothing else.
-/
namespace Sys2Proof.Machine

theorem sleeve_modSleeve (s : State) (i : Nat) (f : Sleeve → Sleeve) (j : Nat) :
    (s.modSleeve i f).sleeve j = if j = i then f (s.sleeve i) else s.sleeve j := mapGet_mapSet _ _ _ _

theorem modSleeve_frame (s : State) (i : Nat) (f : Sleeve → Sleeve) : ∃ v, s.modSleeve i f = { s with slv := v } := ⟨_, rfl⟩

@[simp] theorem sleeve_modDie (s : State) (n d : Nat) (f : DieSt → DieSt) (i : Nat) : (s.modDie n d f).sleeve i = s.sleeve i := rfl
@[simp] theorem opRec_modDie (s : State) (n d : Nat) (f : DieSt → DieSt) (i k : Nat) : (s.modDie n d f).opRec i k = s.opRec i k := rfl

theorem die_modDie (s : State) (n d : Nat) (f : DieSt → DieSt) : (s.modDie n d f).die n d = f (s.die n d) := by
  unfold State.die State.modDie State.modSlv
  dsimp only
  rw [mapGet_mapSet, if_pos rfl]
  rfl

theorem find?_map_id {α : Type} {p : α → Bool} {f : α → α} (h : ∀ x, p (f x) = p x) (l : List α) :
    (l.map f).find? p = (l.find? p).map f := by
  induction l with
  | nil => rfl
  | cons a l ih =>
    rw [List.map_cons, List.find?_cons, List.find?_cons, h, ih]
    cases p a <;> rfl

/-- Changing a record changes the record of that number in that Sleeve. -/
theorem opRec_modRec {f : OpRec → OpRec} (hf : ∀ r, (f r).desc = r.desc) (s : State) (i id j k : Nat) :
    (s.modRec i id f).opRec j k = if j = i ∧ k = id then (s.opRec i id).map f else s.opRec j k := by
  unfold State.opRec State.modRec
  rw [sleeve_modSleeve]
  by_cases hj : j = i
  · subst hj
    rw [if_pos rfl]
    dsimp only
    have hp : ∀ x : OpRec, ((if (x.desc.id == id) = true then f x else x).desc.id == k) = (x.desc.id == k) := by
      intro x
      split
      · rw [hf]
      · rfl
    rw [find?_map_id hp]
    by_cases hk : k = id
    · subst hk
      rw [if_pos ⟨rfl, rfl⟩]
      cases h : (s.sleeve j).recs.find? fun r => r.desc.id == k with
      | none => rfl
      | some r =>
        have := List.find?_some h
        simp only [Option.map_some, this, if_true]
    · rw [if_neg (fun h => hk h.2)]
      cases h : (s.sleeve j).recs.find? fun r => r.desc.id == k with
      | none => rfl
      | some r =>
        have := List.find?_some h
        simp only [beq_iff_eq] at this
        rw [Option.map_some, if_neg (by simp [this, hk])]
  · rw [if_neg hj, if_neg (fun h => hj h.1)]

theorem opRec_modRec_same {s : State} {i id : Nat} {r : OpRec} {f : OpRec → OpRec} (h : s.opRec i id = some r) (hf : ∀ r, (f r).desc = r.desc) :
    (s.modRec i id f).opRec i id = some (f r) := by
  rw [opRec_modRec hf, if_pos ⟨rfl, rfl⟩, h]
  rfl

/-- Changing a record leaves the rest of its Sleeve and every other Sleeve. -/
theorem modRec_frame (s : State) (i id : Nat) (f : OpRec → OpRec) :
    (∃ v, s.modRec i id f = { s with slv := v }) ∧ (∀ j, j ≠ i → (s.modRec i id f).sleeve j = s.sleeve j) ∧
    (s.modRec i id f).sleeve i = { s.sleeve i with recs := ((s.modRec i id f).sleeve i).recs } := by
  refine ⟨⟨_, rfl⟩, fun j hj => ?_, ?_⟩
  · unfold State.modRec
    rw [sleeve_modSleeve, if_neg hj]
  · unfold State.modRec
    rw [sleeve_modSleeve, if_pos rfl]

theorem onlyRec_refl (s : State) (i id : Nat) : Safety.onlyRec s s i id := ⟨fun _ _ => rfl, fun _ _ => rfl, rfl⟩

theorem onlyRec_trans {s t u : State} {i id : Nat} (h : Safety.onlyRec s t i id) (g : Safety.onlyRec t u i id) : Safety.onlyRec s u i id := by
  refine ⟨fun k hk => (g.1 k hk).trans (h.1 k hk), fun j hj => (g.2.1 j hj).trans (h.2.1 j hj), ?_⟩
  rw [g.2.2, h.2.2]

theorem onlyRec_modRec {f : OpRec → OpRec} (hf : ∀ r, (f r).desc = r.desc) (s : State) (i id : Nat) :
    Safety.onlyRec s (s.modRec i id f) i id := by
  refine ⟨fun k hk => ?_, (modRec_frame s i id f).2.1, rfl⟩
  rw [opRec_modRec hf, if_neg (fun h => hk h.2)]

theorem onlyRec_modDie (s : State) (n d : Nat) (f : DieSt → DieSt) (i id : Nat) : Safety.onlyRec s (s.modDie n d f) i id :=
  ⟨fun _ _ => rfl, fun _ _ => rfl, rfl⟩

/-- Issuing a word: its record goes past the word, with what its WFLAGS ask; no other record and nothing outside the Sleeves changes. -/
theorem issued_rec {s : State} {i : Nat} {r : OpRec} (w : CtlWord) (h : s.opRec i r.desc.id = some r) :
    (s.issued i r w).opRec i r.desc.id = some (Safety.afterIssue r w s.now) ∧ Safety.onlyRec s (s.issued i r w) i r.desc.id := by
  unfold State.issued Safety.afterIssue
  extract_lets s1 s2 s3 x
  have h1 : s1.opRec i r.desc.id = some r := by
    show (s.modSleeve i _).opRec i r.desc.id = _
    unfold State.opRec
    rw [sleeve_modSleeve, if_pos rfl]
    exact h
  have o1 : Safety.onlyRec s s1 i r.desc.id := by
    refine ⟨fun k _ => ?_, fun j hj => ?_, rfl⟩
    · show (s.modSleeve i _).opRec i k = _
      unfold State.opRec
      rw [sleeve_modSleeve, if_pos rfl]
    · show (s.modSleeve i _).sleeve j = _
      rw [sleeve_modSleeve, if_neg hj]
  have h2 : s2.opRec i r.desc.id = some x := by
    show (s1.modRec i r.desc.id _).opRec i r.desc.id = _
    exact opRec_modRec_same h1 (by intro _; rfl)
  have o2 : Safety.onlyRec s s2 i r.desc.id := onlyRec_trans o1 (onlyRec_modRec (by intro _; rfl) _ _ _)
  clear_value s1 s2
  have h3 : s3.opRec i r.desc.id = some (if w.arraySet then
      { x with
        arrayBusy := true, begun := s.now, confirmAt := if r.confirmAt.isSome then r.confirmAt else some s.now, suspended := false, wdogPaused := false,
        wdogFrom := if r.wdogPaused then s.now else r.wdogFrom } else if w.arrayClr then { x with arrayBusy := false } else x) ∧
      Safety.onlyRec s s3 i r.desc.id := by
    show State.opRec (if w.arraySet = true then _ else _) i r.desc.id = _ ∧ _
    by_cases ha : w.arraySet = true
    · simp only [s3, ha, if_true]
      refine ⟨?_, onlyRec_trans o2 (onlyRec_modRec (by intro _; rfl) _ _ _)⟩
      exact opRec_modRec_same h2 (by intro _; rfl)
    · by_cases hc : w.arrayClr = true
      · simp only [s3, ha, hc, if_true]
        refine ⟨?_, onlyRec_trans o2 (onlyRec_modRec (by intro _; rfl) _ _ _)⟩
        exact opRec_modRec_same h2 (by intro _; rfl)
      · simp only [s3, ha, hc]
        exact ⟨h2, o2⟩
  clear_value s3
  split
  · exact ⟨h3.1, onlyRec_trans h3.2 (onlyRec_modDie _ _ _ _ _ _)⟩
  · exact h3

/-- The next word of a Sleeve runs where it is the word the command names. -/
theorem issue_run {s : State} {i : Nat} {r : OpRec} {w : CtlWord} {op : Nat} (h : Safety.wordNext s i r w op) (sub : Nat)
    (hs : sub = 16 ∨ w.subop = sub) (f : State → OpRec → CtlWord → State) : s.issue i op sub f = f (s.issued i r w) r w := by
  obtain ⟨h1, h2, _, _, h5, h6, h7⟩ := h
  unfold State.issue
  rw [h2]
  dsimp only
  rw [h5]
  dsimp only
  rw [h6, h7]
  rcases hs with hs | hs <;> simp [h1, hs]

/-- A record changed by the word that issued: the record as it went past the word, changed. -/
theorem issued_modRec {s : State} {i : Nat} {r : OpRec} (w : CtlWord) (h : s.opRec i r.desc.id = some r) {f : OpRec → OpRec}
    (hf : ∀ x, (f x).desc = x.desc) : ((s.issued i r w).modRec i r.desc.id f).opRec i r.desc.id = some (f (Safety.afterIssue r w s.now)) ∧
    Safety.onlyRec s ((s.issued i r w).modRec i r.desc.id f) i r.desc.id := by
  refine ⟨?_, onlyRec_trans (issued_rec w h).2 (onlyRec_modRec hf _ _ _)⟩
  exact opRec_modRec_same (issued_rec w h).1 hf

theorem afterIssue_desc (r : OpRec) (w : CtlWord) (now : Nat) : (Safety.afterIssue r w now).desc = r.desc := by
  unfold Safety.afterIssue
  dsimp only
  split <;> [rfl; (split <;> rfl)]

theorem afterIssue_regs (r : OpRec) (w : CtlWord) (now : Nat) : (Safety.afterIssue r w now).regs = r.regs := by
  unfold Safety.afterIssue
  dsimp only
  split <;> [rfl; (split <;> rfl)]

/-- A word whose effect is a change of its record. -/
theorem word_ran {s : State} {i : Nat} {r : OpRec} {w : CtlWord} {op sub : Nat} (h : Safety.wordNext s i r w op) (hs : sub = 16 ∨ w.subop = sub)
    {c : Instr} {f : State → OpRec → CtlWord → State} {g : OpRec → OpRec} (hc : exec c s = .next (s.issue i op sub f))
    (hf : f (s.issued i r w) r w = (s.issued i r w).modRec i r.desc.id g) (hg : ∀ x, (g x).desc = x.desc) :
    Safety.wordRan s i r c (g (Safety.afterIssue r w s.now)) := by
  refine ⟨_, hc, ?_⟩
  rw [issue_run h sub hs, hf]
  exact issued_modRec w h.2.2.1 hg

/-- An ALU word of SUBOP `sub`: result and carry are f of SA and of SB or IMM. -/
theorem alu_ran {s : State} {i : Nat} {r : OpRec} {w : CtlWord} (h : Safety.wordNext s i r w 8) {sub : Nat} (hs : w.subop = sub) {imm write : Bool}
    {f : Word → Word → Word × Bool} {c : Instr} (hc : exec c s = .next (s.alu i sub imm write f)) :
    Safety.aluRan s i r w c write (f (r.v w.sa) (if imm then w.imm32 else r.v w.sb)).1 (f (r.v w.sa) (if imm then w.imm32 else r.v w.sb)).2 := by
  have := word_ran (g := fun x =>
    let y := if write then x.setV w.dst (f (r.v w.sa) (if imm then w.imm32 else r.v w.sb)).1 else x
    { y with
      z := (f (r.v w.sa) (if imm then w.imm32 else r.v w.sb)).1 == 0, n := (f (r.v w.sa) (if imm then w.imm32 else r.v w.sb)).1.getLsbD 31,
      c := (f (r.v w.sa) (if imm then w.imm32 else r.v w.sb)).2 }) h (Or.inr hs) hc rfl (by intro x; cases write <;> rfl)
  unfold Safety.aluRan
  convert this using 1
  cases write
  · simp [afterIssue_regs]
  · simp [OpRec.setV, afterIssue_regs]

/-! ### Binding and faults -/

/-- Records that get a context change in that alone. -/
theorem bindAll_recs (ids : List Nat) (x : Sleeve) : ∃ c : OpRec → Option Nat,
    bindAll ids x = { x with recs := x.recs.map fun r => { r with ctx := c r } } := by
  induction ids generalizing x with
  | nil => exact ⟨fun r => r.ctx, by
    unfold bindAll
    show x = { x with recs := x.recs.map id }
    rw [List.map_id]⟩
  | cons id ids ih =>
    unfold bindAll
    split
    · exact ih x
    · split
      · exact ih x
      · rename_i c _
        obtain ⟨g, hg⟩ := ih { x with recs := x.recs.map fun (o : OpRec) => if o.desc.id == id then { o with ctx := some c } else o }
        refine ⟨fun o => g (if o.desc.id == id then { o with ctx := some c } else o), ?_⟩
        rw [hg]
        congr 1
        rw [List.map_map]
        apply List.map_congr_left
        intro o _
        show ({ (if (o.desc.id == id) = true then { o with ctx := some c } else o) with ctx := _ } : OpRec) = _
        split <;> rfl

/-- Binding changes the contexts of records and nothing else. -/
theorem opRec_bind (s : State) (i k : Nat) : ∃ c : OpRec → Option Nat, (s.bind i).opRec i k = (s.opRec i k).map fun r => { r with ctx := c r } := by
  unfold State.bind State.opRec
  rw [sleeve_modSleeve, if_pos rfl]
  dsimp only
  obtain ⟨c, hc⟩ := bindAll_recs ((sortByKey (fun (r : OpRec) => r.desc.cls * 2 ^ 64 + r.desc.id)
    ((s.sleeve i).recs.filter fun r => r.ready && r.ctx.isNone)).map fun r => r.desc.id) (s.sleeve i)
  refine ⟨c, ?_⟩
  rw [hc]
  exact find?_map_id (by intro _; rfl) _

theorem bind_frame (s : State) (i : Nat) : ∃ v, s.bind i = { s with slv := v } := ⟨_, rfl⟩

theorem sleeve_of_slv {s t : State} (h : t.slv = s.slv) (i : Nat) : t.sleeve i = s.sleeve i := by
  unfold State.sleeve
  rw [h]

theorem opRec_of_slv {s t : State} (h : t.slv = s.slv) (i k : Nat) : t.opRec i k = s.opRec i k := by
  unfold State.opRec
  rw [sleeve_of_slv h]

theorem dieNeedsReset_spec (s : State) (n d : Nat) : ((s.dieNeedsReset n d).die n d).needsReset = true ∧
    ∀ i k, (s.dieNeedsReset n d).opRec i k = s.opRec i k := by
  unfold State.dieNeedsReset
  split
  · exact ⟨‹_›, fun _ _ => rfl⟩
  · have e : ((s.modDie n d fun x => { x with needsReset := true }).raise (1025 + 8 * (n / 8))).slv =
        (s.modDie n d fun x => { x with needsReset := true }).slv := by
      obtain ⟨r, e, n, h, _⟩ := raise_frame (s.modDie n d fun x => { x with needsReset := true }) (1025 + 8 * (n / 8))
      rw [h]
    refine ⟨?_, fun i k => opRec_of_slv e i k⟩
    have : ((s.modDie n d fun x => { x with needsReset := true }).raise (1025 + 8 * (n / 8))).die n d =
        (s.modDie n d fun x => { x with needsReset := true }).die n d := by
      unfold State.die
      rw [e]
    rw [this, die_modDie]

/-- The registers and the event of a fault: SLV_FAULT names it, and source 1,024 + 8s occurs. -/
theorem faultRegs_spec (s : State) (i code link die ctx pc : Nat) (hc : code < 256) :
    ∃ t, t = ((((((s.wr (Reg.SLV_FAULT_CODE i) code).wr (Reg.SLV_FAULT_LINK i) link).wr (Reg.SLV_FAULT_DIE i) die).wr
      (Reg.SLV_FAULT_CONTEXT i) ctx).wr (Reg.SLV_FAULT_PC_PC i) pc).bump (Reg.SLV_COUNT_FAULT_COUNT i)).raise (1024 + 8 * i) ∧
      t.slv = s.slv ∧ t.rd (Reg.SLV_FAULT_CODE i) = code ∧ t.evtStatus (1024 + 8 * i) = true := by
  generalize h4 : (((s.wr (Reg.SLV_FAULT_CODE i) code).wr (Reg.SLV_FAULT_LINK i) link).wr (Reg.SLV_FAULT_DIE i) die).wr
      (Reg.SLV_FAULT_CONTEXT i) ctx = s4
  have c4 : s4.rd (Reg.SLV_FAULT_CODE i) = code := by
    rw [← h4, rd_wr_apart (by simp [Reg.SLV_FAULT_CODE, Reg.SLV_FAULT_CONTEXT]), rd_wr_apart (by simp [Reg.SLV_FAULT_CODE, Reg.SLV_FAULT_DIE]),
      rd_wr_apart (by simp [Reg.SLV_FAULT_CODE, Reg.SLV_FAULT_LINK]), rd_wr (by simp [Reg.SLV_FAULT_CODE])]
    exact Nat.mod_eq_of_lt hc
  have e4 : s4.slv = s.slv := by rw [← h4]; rfl
  generalize h5 : (s4.wr (Reg.SLV_FAULT_PC_PC i) pc).bump (Reg.SLV_COUNT_FAULT_COUNT i) = s5
  have e5 : s5.slv = s4.slv := by rw [← h5]; rfl
  have c5 : s5.rd (Reg.SLV_FAULT_CODE i) = code := by
    rw [← h5, State.bump, rd_wr_off, rd_wr_off, c4]
    · show Reg.SLV_FAULT i ≠ Reg.SLV_FAULT_PC i
      unfold Reg.SLV_FAULT Reg.SLV_FAULT_PC
      omega
    · show Reg.SLV_FAULT i ≠ Reg.SLV_COUNT_FAULT i
      unfold Reg.SLV_FAULT Reg.SLV_COUNT_FAULT
      omega
  obtain ⟨r, e, n, h, _⟩ := raise_frame s5 (1024 + 8 * i)
  refine ⟨_, rfl, ?_, ?_, raise_status _ _⟩
  · rw [h]
    exact e5.trans e4
  · rw [raise_rd, c5]
    show Reg.SLV_FAULT i ≠ _
    unfold Reg.SLV_FAULT statusOff
    omega

/-- A fault met in the fault handler ends the operation, and the die is to be reset. -/
theorem hardEnd_spec {s : State} {i : Nat} {r : OpRec} (code : Nat) (h : s.opRec i r.desc.id = some r) :
    (∃ x, (s.hardEnd i r code).opRec i r.desc.id = some x ∧ x.faultCode = code ∧ x.ended = true ∧ x.report = some (1, BitVec.ofNat 32 code)) ∧
    ((s.hardEnd i r code).die r.desc.link r.desc.die).needsReset = true := by
  unfold State.hardEnd
  dsimp only
  generalize hs1 : s.modRec i r.desc.id _ = s1
  have hd := dieNeedsReset_spec s1 r.desc.link r.desc.die
  refine ⟨⟨{ r with
    report := some (1, BitVec.ofNat 32 code)
    ended := true
    ctx := none
    wait := none
    fault := none
    faultCode := code
    abortBusy := if code = 11 then r.arrayBusy else r.abortBusy }, ?_, rfl, rfl, rfl⟩, hd.1⟩
  rw [hd.2, ← hs1]
  exact opRec_modRec_same h (by intro _; rfl)

/-- Taking a fault: into the fault handler with its code and address, or, in the handler, the end of the operation. -/
theorem takeFault_spec {s : State} {i : Nat} {r : OpRec} (code pc : Nat) (h : s.opRec i r.desc.id = some r) (he : r.ended = false)
    (hc : code < 256) : ∃ x, (s.takeFault i r.desc.id code pc).opRec i r.desc.id = some x ∧ x.faultCode = code ∧
    (r.handler = false → x.handler = true ∧ x.faultPc = pc ∧ x.pc = (s.sleeve i).faultEntry ∧
      (s.takeFault i r.desc.id code pc).rd (Reg.SLV_FAULT_CODE i) = code ∧ (s.takeFault i r.desc.id code pc).evtStatus (1024 + 8 * i) = true) ∧
    (r.handler = true → x.ended = true ∧ x.report = some (1, BitVec.ofNat 32 code) ∧
      ((s.takeFault i r.desc.id code pc).die r.desc.link r.desc.die).needsReset = true) := by
  by_cases hh : r.handler = true
  · have e : s.takeFault i r.desc.id code pc = s.hardEnd i r code := by
      unfold State.takeFault
      rw [h]
      dsimp only
      rw [he, hh]
      rfl
    obtain ⟨⟨x, h1, h2, h3, h4⟩, h5⟩ := hardEnd_spec code h
    exact ⟨x, by rw [e]; exact h1, h2, fun g => absurd (hh.symm.trans g) (by decide), fun _ => ⟨h3, h4, by rw [e]; exact h5⟩⟩
  · have hh' : r.handler = false := by simpa using hh
    have q : ∃ s1 t : State, s1 = s.modRec i r.desc.id (fun x => { x with
        handler := true
        faultCode := code
        faultPc := pc
        fault := none
        pc := (s.sleeve i).faultEntry
        wait := none
        decoding := []
        abortBusy := if code = 11 then x.arrayBusy else x.abortBusy
        crossed := x.crossed || code == 11 }) ∧ s.takeFault i r.desc.id code pc = t.bind i ∧
        t.slv = s1.slv ∧ t.rd (Reg.SLV_FAULT_CODE i) = code ∧ t.evtStatus (1024 + 8 * i) = true := by
      obtain ⟨t, ht, h1, h2, h3⟩ := faultRegs_spec (s.modRec i r.desc.id (fun x => { x with
        handler := true
        faultCode := code
        faultPc := pc
        fault := none
        pc := (s.sleeve i).faultEntry
        wait := none
        decoding := []
        abortBusy := if code = 11 then x.arrayBusy else x.abortBusy
        crossed := x.crossed || code == 11 })) i code (r.desc.link % 8) r.desc.die (r.ctx.getD (8 * (r.desc.link % 8))) pc hc
      refine ⟨_, t, rfl, ?_, h1, h2, h3⟩
      rw [ht]
      unfold State.takeFault
      rw [h]
      dsimp only
      rw [he, hh']
      rfl
    obtain ⟨s1, t, hs1, e, h1, h2, h3⟩ := q
    obtain ⟨c, hb⟩ := opRec_bind t i r.desc.id
    have hr1 := opRec_modRec_same h (i := i) (f := fun x => { x with
        handler := true
        faultCode := code
        faultPc := pc
        fault := none
        pc := (s.sleeve i).faultEntry
        wait := none
        decoding := []
        abortBusy := if code = 11 then x.arrayBusy else x.abortBusy
        crossed := x.crossed || code == 11 }) (by intro _; rfl)
    rw [← hs1, ← opRec_of_slv h1] at hr1
    rw [hr1] at hb
    rw [e]
    exact ⟨_, hb, rfl, fun _ => ⟨rfl, rfl, rfl, h2, h3⟩, fun g => absurd g hh⟩

/-! ### The record whose word issues -/

theorem mem_insertByKey {α : Type} {key : α → Nat} {x y : α} {l : List α} (h : y ∈ insertByKey key x l) : y = x ∨ y ∈ l := by
  induction l with
  | nil => exact Or.inl (by simpa [insertByKey] using h)
  | cons z l ih =>
    unfold insertByKey at h
    split at h
    · rcases List.mem_cons.mp h with h | h
      · exact Or.inl h
      · exact Or.inr h
    · rcases List.mem_cons.mp h with h | h
      · exact Or.inr (h ▸ List.mem_cons_self)
      · rcases ih h with h | h
        · exact Or.inl h
        · exact Or.inr (List.mem_cons_of_mem _ h)

theorem mem_foldl_insert {α : Type} {key : α → Nat} {y : α} (l acc : List α) (h : y ∈ l.foldl (fun acc x => insertByKey key x acc) acc) :
    y ∈ l ∨ y ∈ acc := by
  induction l generalizing acc with
  | nil => exact Or.inr h
  | cons x l ih =>
    rcases ih _ h with h | h
    · exact Or.inl (List.mem_cons_of_mem _ h)
    · rcases mem_insertByKey h with h | h
      · exact Or.inl (h ▸ List.mem_cons_self)
      · exact Or.inr h

/-- Sorting adds nothing. -/
theorem mem_sortByKey {α : Type} {key : α → Nat} {y : α} {l : List α} (h : y ∈ sortByKey key l) : y ∈ l := by
  rcases mem_foldl_insert l [] h with h | h
  · exact h
  · cases h

/-- A record whose word issues may issue: bound, ready, its CYC over, its word not stalled. -/
theorem nextIssue_may {s : State} {i : Nat} {r : OpRec} (h : s.nextIssue i = some r) : s.mayIssue i r = true :=
  (List.mem_filter.mp (mem_sortByKey (List.mem_of_head? h))).2

theorem wordNext_live {s : State} {i : Nat} {r : OpRec} {w : CtlWord} {op : Nat} (h : Safety.wordNext s i r w op) :
    r.ended = false ∧ r.wait = none ∧ s.stalled r w = false := by
  have g := nextIssue_may h.2.1
  unfold State.mayIssue OpRec.ready at g
  rw [h.2.2.2.2.1] at g
  simp only [Bool.and_eq_true, Bool.not_eq_true', Option.isNone_iff_eq_none] at g
  exact ⟨g.1.1.1.2.2, g.1.1.1.2.1, g.2⟩

theorem afterIssue_live (r : OpRec) (w : CtlWord) (now : Nat) :
    (Safety.afterIssue r w now).ended = r.ended ∧ (Safety.afterIssue r w now).handler = r.handler := by
  unfold Safety.afterIssue
  dsimp only
  split <;> [exact ⟨rfl, rfl⟩; (split <;> exact ⟨rfl, rfl⟩)]

/-- Issuing keeps everything of its Sleeve but the rotation and the records. -/
theorem issued_sleeve (s : State) (i : Nat) (r : OpRec) (w : CtlWord) :
    ∃ l c rs, (s.issued i r w).sleeve i = { s.sleeve i with lastLink := l, lastCtx := c, recs := rs } := by
  unfold State.issued
  extract_lets s1 s2 s3
  have h1 : ∃ l c rs, s1.sleeve i = { s.sleeve i with lastLink := l, lastCtx := c, recs := rs } := ⟨r.desc.link % 8, r.ctx.getD 0, _, by
    show (s.modSleeve i _).sleeve i = _
    rw [sleeve_modSleeve, if_pos rfl]⟩
  have h2 : ∃ l c rs, s2.sleeve i = { s.sleeve i with lastLink := l, lastCtx := c, recs := rs } := by
    obtain ⟨l, c, rs, h⟩ := h1
    have := (modRec_frame s1 i r.desc.id fun x => { x with pc := (r.pc + 1) % 8192, readyAt := 4 * s.now + 5 * w.cyc }).2.2
    exact ⟨l, c, _, by show (s1.modRec _ _ _).sleeve i = _; rw [this, h]⟩
  have h3 : ∃ l c rs, s3.sleeve i = { s.sleeve i with lastLink := l, lastCtx := c, recs := rs } := by
    obtain ⟨l, c, rs, h⟩ := h2
    by_cases ha : w.arraySet = true
    · simp only [s3, ha, if_true]
      rw [(modRec_frame s2 i r.desc.id _).2.2, h]
      exact ⟨_, _, _, rfl⟩
    · by_cases hc : w.arrayClr = true
      · simp only [s3, ha, hc, if_true]
        simp only [Bool.false_eq_true, if_false]
        rw [(modRec_frame s2 i r.desc.id _).2.2, h]
        exact ⟨_, _, _, rfl⟩
      · simp only [s3, ha, hc]
        exact ⟨_, _, _, h⟩
  clear_value s3
  split
  · exact h3
  · exact h3

/-- A word whose effect is a fault. -/
theorem fault_ran {s : State} {i : Nat} {r : OpRec} {w : CtlWord} {op sub : Nat} (h : Safety.wordNext s i r w op) (hs : sub = 16 ∨ w.subop = sub)
    {c : Instr} {f : State → OpRec → CtlWord → State} (hc : exec c s = .next (s.issue i op sub f)) {code : Nat}
    (hf : f (s.issued i r w) r w = (s.issued i r w).wordFault i r code) (hcode : code < 256) : Safety.faultRan s i r c code := by
  have hd := afterIssue_desc r w s.now
  have hl := afterIssue_live r w s.now
  obtain ⟨l0, c0, rs0, hsl⟩ := issued_sleeve s i r w
  have ht : (s.issued i r w).opRec i (Safety.afterIssue r w s.now).desc.id = some (Safety.afterIssue r w s.now) := by
    rw [hd]
    exact (issued_rec w h.2.2.1).1
  obtain ⟨x, h1, h2, h3, h4⟩ := takeFault_spec code r.pc ht (hl.1.trans (wordNext_live h).1) hcode
  rw [hd] at h1 h3 h4
  rw [hsl] at h3
  unfold Safety.faultRan
  rw [hc, issue_run h sub hs, hf]
  exact ⟨_, x, rfl, h1, h2, fun g => h3 (hl.2.trans g), fun g => h4 (hl.2.trans g)⟩

/-- A word whose effect is none but to issue. -/
theorem word_only {s : State} {i : Nat} {r : OpRec} {w : CtlWord} {op sub : Nat} (h : Safety.wordNext s i r w op) (hs : sub = 16 ∨ w.subop = sub)
    {c : Instr} {f : State → OpRec → CtlWord → State} (hc : exec c s = .next (s.issue i op sub f))
    (hf : f (s.issued i r w) r w = s.issued i r w) : Safety.wordRan s i r c (Safety.afterIssue r w s.now) := by
  refine ⟨_, hc, ?_⟩
  rw [issue_run h sub hs, hf]
  exact issued_rec w h.2.2.1

theorem issued_opPers {s : State} {i : Nat} {r : OpRec} (w : CtlWord) (h : s.opRec i r.desc.id = some r) (n : Nat) :
    (s.issued i r w).opPers n = s.opPers n := by
  rw [(issued_rec w h).2.2.2]
  rfl

theorem issued_cond {s : State} {i : Nat} {r : OpRec} (w : CtlWord) (h : s.opRec i r.desc.id = some r) (n : Nat) :
    (s.issued i r w).condHolds r n = s.condHolds r n := by
  rw [(issued_rec w h).2.2.2]
  rfl

end Sys2Proof.Machine
end

