-- ==== Sys2Proof/WellFormed.lean ====
section
/-!
DEFINITION. WellFormed.lean: which terms of Instr are commands that can come: operands their type alone leaves too wide, held to the
widths the manual gives them.
-/
namespace Sys2Proof

/-- The size of BAR2 (05 R144). -/
def bar2Bytes : Nat := 0x04000000

/-- An access lies in its space (05 R144, 06 Table 6.1). -/
def BusAt.wf : BusAt → Bool
  | .bar2 off => decide (off < bar2Bytes)
  | .bar0 off => decide (off < 0x20000)

def ReadAt.wf (r : ReadAt) : Bool := r.off.wf && [8, 16, 32, 64].contains r.bits

/-- A configuration request names a dword of the 4,096 bytes. -/
def CfgReq.wf (r : CfgReq) : Bool := decide (r.off < 4096) && r.off % 4 == 0

/-- Identifiers of an NVMe command: 16 bits of queue and command, 32 of namespace. -/
def Sqe.wf (c : Sqe) : Bool := decide (c.sq < 65536) && decide (c.cid < 65536) && decide (c.nsid < 4294967296) && (match c.sgl with | some l => l.all fun t => decide (t < 16) | none => true)

/-- A vendor-defined message carries at least its type, the enterprise number and a request header (22 Table 22.1). -/
def MbReq.wf : MbReq → Bool
  | .go _ => true
  | .mctp b => 21 ≤ b.length

/-- Sense codes are of 14 bits (18 R639). -/
def codesOk (l : List (Nat × Nat × Nat)) : Bool := l.all fun c => decide (c.1 < 16384) && decide (c.2.1 < 16384) && decide (c.2.2 < 16384)

/-- The command's operands are in range. -/
def Instr.wf : Instr → Bool
  | .registerWrite _ off bits data => off.wf && [8, 16, 32, 64].contains bits && decide (data < 2 ^ bits)
  | .gblAccessViolClear _ _ _ => true
  | .splitCounterLoRead _ off => off.wf
  | .beginFitting _ => true
  | .commitFitting _ => true
  | .abortFitting _ => true
  | .rwfStageWrite _ off _ => (off < bar2Bytes && off % 4 == 0)
  | .fitTimeoutWrite _ _ => true
  | .fitIdleTimeout => true
  | .fitAdopt _ => true
  | .evtRouteWrite _ _ _ _ => true
  | .evtStatusClear _ _ _ _ => true
  | .evtMaskWrite _ _ _ => true
  | .evtForceWrite _ _ _ => true
  | .vauxRise => true
  | .sysRstAccept => true
  | .perstAssert _ => true
  | .perstDeassert _ => true
  | .pcieHotReset _ => true
  | .controllerReset _ => true
  | .functionLevelReset _ => true
  | .ccEnSet _ _ _ => true
  | .ccShnWrite _ _ => true
  | .nvmSubsystemReset _ => true
  | .ftlWatchdogExpiry => true
  | .belfryWatchdogExpiry => true
  | .phaseRom _ => true
  | .belfryFwLoad => true
  | .imageLoad => true
  | .railStageStart => true
  | .railStageTimeout _ _ => true
  | .railRetry => true
  | .mainPgFall _ _ => true
  | .powerDownStage => true
  | .mainInit _ => true
  | .mainFwLoad => true
  | .microcodeLoad => true
  | .trainingEnd => true
  | .enumerate identities _ _ => identities.all fun e => e.2.length == 256
  | .mantleStart codes => codesOk codes
  | .recovery _ _ => true
  | .ready => true
  | .bootWatchdogExpiry => true
  | .trialConfirm => true
  | .getVersion _ => true
  | .getCapabilities _ => true
  | .negotiateAlgorithms _ => true
  | .getDigests _ => true
  | .getCertificate _ => true
  | .challenge _ => true
  | .getMeasurements _ => true
  | .spdmUnsupportedRequest _ => true
  | .firmwareImageDownload c => c.wf
  | .firmwareCommitReplace c => c.wf
  | .firmwareCommitActivate c => c.wf
  | .rcvStatus => true
  | .rcvWrite _ _ => true
  | .rcvCommit _ => true
  | .rcvBoot => true
  | .ownTake r => r.wf
  | .ownTransfer r => r.wf
  | .retire r => r.wf
  | .sqTailDoorbell _ queue tail => decide (queue < 65536) && decide (tail < 65536)
  | .cqHeadDoorbell _ queue head => decide (queue < 65536) && decide (head < 65536)
  | .commandFetch _ cid => decide (cid < 65536)
  | .createIoSq c => c.wf
  | .createIoCq c => c.wf
  | .deleteIoSq c => c.wf
  | .deleteIoCq c => c.wf
  | .identify c => c.wf
  | .abortCommand c => c.wf
  | .asynchronousEventRequest c => c.wf
  | .namespaceDelete c => c.wf
  | .namespaceCreate c => c.wf
  | .sanitizeBlockErase c => c.wf
  | .sanitizeCryptoErase c => c.wf
  | .sanitizeExitFailureMode c => c.wf
  | .sanitizeOverwrite c => c.wf
  | .nvmeMiSend c => c.wf
  | .nvmeMiReceive c => c.wf
  | .getLogSupportedPages c => c.wf
  | .getLogErrorInformation c => c.wf
  | .getLogSmartHealth c => c.wf
  | .getLogFirmwareSlot c => c.wf
  | .getLogChangedNamespaces c => c.wf
  | .getLogCommandsEffects c => c.wf
  | .getLogSanitizeStatus c => c.wf
  | .getLogClampReport c => c.wf
  | .getLogStripeHealth c => c.wf
  | .getLogMantleThermal c => c.wf
  | .getLogTakeDirectory c => c.wf
  | .getLogLifetimeHistograms c => c.wf
  | .setArbitration c => c.wf
  | .setPsRun c => c.wf
  | .setPsCapped c => c.wf
  | .enterDoze c => c.wf
  | .enterSleep c => c.wf
  | .enterDeepSleep c => c.wf
  | .setTemperatureThreshold c => c.wf
  | .setErrorRecovery c => c.wf
  | .setNumberOfQueues c => c.wf
  | .setInterruptCoalescing c => c.wf
  | .setInterruptVectorConfig c => c.wf
  | .setWriteAtomicity c => c.wf
  | .setAsyncEventConfig c => c.wf
  | .setHostThermalManagement c => c.wf
  | .setMantleState c => c.wf
  | .setDirtyWindow c => c.wf
  | .setThermalPolicy c => c.wf
  | .setSteepleRole c => c.wf
  | .getFeatures c => c.wf
  | .getMantleState c => c.wf
  | .write c => c.wf
  | .read c _ _ _ => c.wf
  | .flush c => c.wf
  | .writeZeroes c => c.wf
  | .datasetManagement c => c.wf
  | .verify c _ _ => c.wf
  | .shred c => c.wf
  | .frameWrite c => c.wf
  | .frameSegmentTimeout => true
  | .takeNotRecordingReply => true
  | .takeOpen c => c.wf
  | .takeCloseNow c => c.wf
  | .takeCloseAtTime c => c.wf
  | .takeDelete c => c.wf
  | .triggerStart c => c.wf
  | .triggerStop c => c.wf
  | .triggerMark c => c.wf
  | .scheduledTriggerFire => true
  | .closePointReached => true
  | .trigInEdge _ _ _ => true
  | .trigOutPulseEnd => true
  | .takDmaPiWrite _ _ _ _ => true
  | .takDmaResume _ _ _ => true
  | .dmaMaxWaitExpiry _ => true
  | .dmaDescriptorArrival _ desc => desc.length == 32
  | .dmaReadbackComplete _ _ _ => true
  | .dmaCoalesceTimer _ => true
  | .hostDataArrival _ _ _ _ _ => true
  | .chunkGrant => true
  | .bulkPromotion => true
  | .sectorEncrypted _ _ _ _ => true
  | .stagingCopyAccepted _ => true
  | .stripeCloseTimer _ => true
  | .governorTick => true
  | .degradedExit => true
  | .mntPfiFall => true
  | .lossReport => true
  | .powerRestored => true
  | .coolFlushDeadline => true
  | .replicaRealign => true
  | .journalPageTimer => true
  | .checkpointDurable => true
  | .fineTableWaitProceed => true
  | .garbageCollectionRelocate _ _ _ _ _ => true
  | .slowClassifyTick => true
  | .slowProbe _ _ => true
  | .readHedgeTimeout _ _ _ => true
  | .auditStripe _ _ => true
  | .operationRequest _ _ _ _ _ _ _ _ _ _ _ _ _ => true
  | .operationStart _ => true
  | .operationEnd _ _ _ => true
  | .nop _ => true
  | .cmd _ => true
  | .addr _ => true
  | .doutRaw _ => true
  | .doutImage _ => true
  | .dinRaw _ => true
  | .dinImage _ => true
  | .dinSoft _ => true
  | .statusWord _ => true
  | .wait _ => true
  | .waitEnd _ _ => true
  | .timerArmWatchdog _ => true
  | .timerStopWatchdog _ => true
  | .timerArmPoll _ => true
  | .pollTimerExpiry _ _ => true
  | .sleeveWatchdogExpiry _ _ => true
  | .movi _ => true
  | .addWord _ => true
  | .addi _ => true
  | .sub _ => true
  | .andWord _ => true
  | .orWord _ => true
  | .xorWord _ => true
  | .shli _ => true
  | .shri _ => true
  | .andi _ => true
  | .ori _ => true
  | .cmp _ => true
  | .cmpi _ => true
  | .loadPersonality _ => true
  | .loadScratch _ => true
  | .loadContextState _ => true
  | .store _ => true
  | .branchJump _ => true
  | .branchCall _ => true
  | .branchReturn _ => true
  | .reportOk _ => true
  | .reportFail _ => true
  | .reportInterrupted _ => true
  | .yield _ => true
  | .decodeHard _ => true
  | .decodeSoft _ => true
  | .decodeComplete _ _ _ => true
  | .trap _ => true
  | .endWord _ => true
  | .illegalWord _ _ => true
  | .microcodePatch c => c.wf
  | .crossoverTimeout _ => true
  | .jlBlockLockAcquire _ => true
  | .jlBlockLockLoss _ => true
  | .jlTs1 _ ts => ts.bytes.length == 16
  | .jlTs2 _ ts => ts.bytes.length == 16
  | .jlStart _ => true
  | .jlPark _ => true
  | .jlElectricalIdleExit _ => true
  | .jlStateTimeout _ => true
  | .jlEqualizeStep _ _ _ _ _ => true
  | .jlSpeedChangeIdleEnd _ => true
  | .jlTrainingWindowExpiry _ => true
  | .jlDownRetry _ => true
  | .jlDownRetire _ => true
  | .jlFlitReceive _ flit => flit.length == 4 && flit.all (fun b => b.bytes.length == 16)
  | .jlReplayTimeout _ => true
  | .jlCtlRetrain _ _ => true
  | .jlCtlRetrainFull _ _ => true
  | .jlMarginStart _ _ _ => true
  | .jlMarginAbort _ _ _ => true
  | .jlMarginDone _ _ => true
  | .jlTestStart _ _ _ => true
  | .jlTestStop _ _ _ _ _ => true
  | .dataIn _ => true
  | .statusResp _ => true
  | .edgeCapsule _ => true
  | .tempCapsule _ => true
  | .errorCapsule _ => true
  | .mgmtResp _ => true
  | .jlReplyTimeout _ => true
  | .jlTempStale _ => true
  | .keyLoadLoad c => c.wf
  | .keyLoadGenerate c => c.wf
  | .keyLoadClear c => c.wf
  | .keyRecordDurable _ => true
  | .entropyHealthFail => true
  | .maskingReseed => true
  | .dramRefreshTick _ _ _ => true
  | .dramMr4Poll _ _ => true
  | .dramWck2dqiTrack _ _ _ => true
  | .dramReadReturn _ _ _ _ _ _ => true
  | .dramLineRebuildTimeout => true
  | .dramScrubRead _ _ _ _ => true
  | .dramTrainingFail _ => true
  | .writeData => true
  | .writeCheck => true
  | .writeBoth => true
  | .readRaw => true
  | .drcTestRead _ _ => true
  | .mntSampleInstant _ => true
  | .mntPeriodCompute _ _ _ => true
  | .chargeLimitedTimer => true
  | .mntLoopBypassWrite _ _ _ => true
  | .mntTargetWrite _ _ _ => true
  | .mntLoopFlagsClear _ _ _ _ => true
  | .mntFaultNFall => true
  | .mntFaultNRelease => true
  | .mntTrcArm _ _ _ => true
  | .mntTrcTrigger _ _ _ => true
  | .mntTrcStop _ _ _ => true
  | .mntStringSample _ => true
  | .mntTempSample _ => true
  | .mntEnergyCompute => true
  | .mntChargeControl => true
  | .mntLearnStart _ _ => true
  | .mntLearnAbort _ _ => true
  | .learnDischargeBegin => true
  | .learnDischargeEnd => true
  | .learnRestEnd => true
  | .learnRechargeDone => true
  | .compatRecordWrite _ => true
  | .powerOff c => c.wf
  | .entryDrainDone => true
  | .entryGatingDone => true
  | .wakeNLow => true
  | .mgmtMessageWake => true
  | .offMgmtTransaction => true
  | .offBelfryHalt => true
  | .wakeTimerExpiry => true
  | .exitComplete _ codes => codesOk codes
  | .thmSensorResult _ _ _ => true
  | .thmRateTick => true
  | .graceExpiry => true
  | .tripRestart => true
  | .sensorSelfTest _ => true
  | .tripRecordWrite => true
  | .fanCheck _ => true
  | .faultClear r => r.wf
  | .tripAck r => r.wf
  | .maintRequest r => r.wf
  | .maintCancel r => r.wf
  | .linkIsolate r => r.wf
  | .linkReturn r => r.wf
  | .linkRetire r => r.wf
  | .sleeveBypass r => r.wf
  | .sleeveReturn r => r.wf
  | .laneBypass r => r.wf
  | .laneTest r _ => r.wf
  | .laneReturn r => r.wf
  | .loopBypass r => r.wf
  | .loopReturn r => r.wf
  | .portReset r => r.wf
  | .channelRetire r => r.wf
  | .channelReturn r => r.wf
  | .logRead r => r.wf
  | .schedulingPass _ => true
  | .maintActivityEnd _ _ => true
  | .marginMeasurement => true
  | .countersRecordWrite => true
  | .stpUpLockAcquired => true
  | .stpDnLockAcquired => true
  | .stpUpLockLost _ => true
  | .stpDnLockLost _ => true
  | .stpTime msg => (12 ≤ msg.length && msg.length ≤ 64)
  | .stpDelayReq msg _ => (12 ≤ msg.length && msg.length ≤ 64)
  | .stpDelayResp msg => (12 ≤ msg.length && msg.length ≤ 64)
  | .stpTrigger msg => (12 ≤ msg.length && msg.length ≤ 64)
  | .stpTakeOpen msg => (12 ≤ msg.length && msg.length ≤ 64)
  | .stpTakeClose msg => (12 ≤ msg.length && msg.length ≤ 64)
  | .stpCal msg => (12 ≤ msg.length && msg.length ≤ 64)
  | .stpStatus msg => (12 ≤ msg.length && msg.length ≤ 64)
  | .stpTimeSend => true
  | .stpDelayReqSend => true
  | .stpCalSend => true
  | .stpStatusSend => true
  | .stpBroadcastRepeat => true
  | .stpAcquireTimeout => true
  | .stpSlewComplete => true
  | .stpRefPpsEdge => true
  | .stpRefPpsLoss => true
  | .stpRef10mLoss => true
  | .stpCalCtlWrite _ _ => true
  | .miReadDataStructure _ _ => true
  | .miSubsystemHealthPoll _ _ => true
  | .miControllerHealthPoll _ _ => true
  | .miConfigurationSet _ _ => true
  | .miConfigurationGet _ _ => true
  | .miVpdRead _ _ => true
  | .miVpdWrite _ _ _ => true
  | .miReset _ _ => true
  | .miShutdown _ _ => true
  | .miAdminCommand _ c => c.wf
  | .fittingStage c => c.wf
  | .fittingBegin c => c.wf
  | .fittingCommit c => c.wf
  | .fittingAbort c => c.wf
  | .fittingBeginStageCommit c => c.wf
  | .fittingReport c => c.wf
  | .invalidCommandOpcode c => c.wf
  | .mailboxUnsupportedOpcode r => r.wf
  | .pcieLinkUp _ _ _ => true
  | .configurationRequest port => port.wf
  | .vauxFall => true
  | .mntPfiRise => true
  | .stpRef10mLock => true
  | .stpMemberTimeout => true
  | .entropyFaultClear _ => true
  | .dramRetrainDone _ _ => true
  | .enumerateDieDeadline => true

end Sys2Proof
end

