-- ==== Sys2Proof/Tests/Slice0.lean ====
section
/-!
SUPPORT. Tests/Slice0.lean: small tests of one step each: the worked examples of spec/, the well-formedness checks, and, for each
statement with hypotheses, a state and operands that meet them.
-/

namespace Sys2Proof.Tests
open Sys2Proof
open Sys2Proof.Machine

-- One theorem at a time: each waiting thread would hold a stack of its own.
set_option Elab.async false

/-- A device whose main domain runs in state Run. -/
def running : State := { State.reset with board := { State.reset.board with vaux := true, mainRunning := true } }

/-- A running device with an open fitting of agent 1. -/
def fitting1 : State := running.fitBegin 1

/-- A control word of an opcode and a SUBOP: CYC 1, DST 2, SA 0, SB 1, TARGET 5, IMM 4, AUX 4. -/
def word (op sub : Nat) : CtlWord := BitVec.ofNat 192 (op * 2 ^ 184 + 2 ^ 172 + 5 * 2 ^ 144 + 2 * 2 ^ 140 + 2 ^ 132 + sub * 2 ^ 128 + 4 * 2 ^ 64 + 4 * 2 ^ 32)

/-- A record of Sleeve 0 in context 0, at address 0. -/
def rec0 : OpRec := { newRec ⟨7, 0, 0, 1, 0, 0, 1, 0, 1, 1, false, 1, 0, .other, 0⟩ 0 0 false with ctx := some 0, stack := [5] }

/-- Sleeve 0 about to issue a word to an ACTIVE link 0. -/
def atWord (w : CtlWord) : State :=
  ((running.wr (Reg.JL_STATE_STATE 0) 5).wr (Reg.JL_CREDIT_VC1_AVAIL 0) 9).setSleeve 0 { Sleeve.empty with store := [(0, some w), (5, some w)], recs := [rec0] }

/-! ### Well-formedness: one ill-formed term for each check -/

theorem test_wf_access : (Instr.registerWrite 4 (.bar2 0x04000000) 32 0).wf = false ∧ (Instr.registerWrite 4 (.bar0 0x20000) 32 0).wf = false ∧
    (Instr.registerWrite 4 (.bar2 0) 24 0).wf = false ∧ (Instr.registerWrite 4 (.bar2 0) 8 256).wf = false ∧ (Instr.registerWrite 4 (.bar2 4) 32 1).wf = true := by decide

theorem test_wf_read : (Instr.splitCounterLoRead 0 ⟨.bar2 0x04000000, 32⟩).wf = false ∧ (Instr.splitCounterLoRead 0 ⟨.bar2 0, 12⟩).wf = false ∧
    (Instr.splitCounterLoRead 0 ⟨.bar2 2, 32⟩).wf = true := by decide

theorem test_wf_stage : (Instr.rwfStageWrite 4 2 0).wf = false ∧ (Instr.rwfStageWrite 4 0x04000000 0).wf = false := by decide

theorem test_wf_configuration : (Instr.configurationRequest ⟨0, 4096, none⟩).wf = false ∧ (Instr.configurationRequest ⟨0, 2, none⟩).wf = false := by decide

theorem test_wf_commands : (Instr.flush { ownSqe with sq := 65536 }).wf = false ∧ (Instr.flush { ownSqe with cid := 65536 }).wf = false ∧
    (Instr.flush { ownSqe with nsid := 4294967296 }).wf = false ∧ (Instr.flush { ownSqe with sgl := some [16] }).wf = false ∧ (Instr.flush ownSqe).wf = true := by decide

theorem test_wf_queues : (Instr.sqTailDoorbell 0 65536 0).wf = false ∧ (Instr.cqHeadDoorbell 0 0 65536).wf = false ∧ (Instr.commandFetch 0 65536).wf = false := by decide

theorem test_wf_messages : (Instr.logRead (.mctp [0x7F])).wf = false ∧ (Instr.stpTime []).wf = false ∧ (Instr.stpTime (List.replicate 65 0)).wf = false ∧
    (Instr.dmaDescriptorArrival 0 []).wf = false := by decide

theorem test_wf_blocks : (Instr.jlTs1 0 ⟨(true, false), []⟩).wf = false ∧ (Instr.jlFlitReceive 0 []).wf = false ∧
    (Instr.jlFlitReceive 0 (List.replicate 4 ⟨(false, true), []⟩)).wf = false := by decide

theorem test_wf_sensors : (Instr.mantleStart [(16384, 0, 0)]).wf = false ∧ (Instr.exitComplete [] [(0, 0, 16384)]).wf = false ∧ (Instr.enumerate [(0, [])] [] []).wf = false := by decide

/-! ### Worked examples of spec/ -/

/-- 12, "two data members lost": P 0x44, Q 0x83, and members 1 and 3 rebuilt. -/
theorem test_parity_example : parityP [0x11, 0x22, 0x33, 0x44] = 0x44 ∧ parityQ [0x11, 0x22, 0x33, 0x44] = 0x83 ∧
    rebuildTwo 0x44 0x83 1 3 [some 0x11, none, some 0x33, none] = (0x22, 0x44) := by decide +kernel

/-- 15, "a page read on a shared chip enable": the capsule of the confirm byte 0x30. -/
theorem test_capsule_example : capsule 0x01 1 (dieArgs 5 80) [0x30] = [0x01, 0x01, 0x01, 0x00, 0x05, 0x50, 0x00, 0x00, 0x30] := by decide

/-- 17, "locating a coarse map entry": channel 2, line 3,255,176. -/
theorem test_dram_example : dramPlace 24 4096 5000000000 = (2, 208331264) ∧ (208331264 : Nat) / 64 = 3255176 ∧ dramAddr 24 4096 2 3255176 = 5000000000 := by decide

/-- 17, the same line's cell with one rank: slot 116,256, line 8 of row 7,266. -/
theorem test_dram_cell_example : (dramCell 1 3255176).2.2.2 = (7266, 8) := by decide

/-- 04, "an image that commits only after a correction": a set's largest member below, a range's bound. -/
theorem test_clamp_example : clampValue (.set [5500, 6400, 7500, 8533]) 8533 8000 = (7500, some 4) ∧ clampValue (.range 16 512) 64 600 = (512, some 2) := by decide

/-- 07, "a 10 s ring": 73,729 sectors a record, 216,008 units. -/
theorem test_ring_example : recSectors 301989888 = 73729 ∧ ringUnits 45300 10 301989888 = 216008 := by decide

/-- 10, "a smallest-size magazine": r_flush 201,108 MB/s. -/
theorem test_flush_rate_example : userRate 219200 32 2 = 201108 := by decide

/-- 19, Table 19.1: u 0.045 of CHEM 1 is a state of charge of 0.012; CHEM 0 is linear. -/
theorem test_charge_example : socOfU 1 45000000 = 12000000 ∧ socOfU 0 900000000 = 900000000 ∧ uIntegral 0 900000000 = 405000000 := by decide +kernel

/-- 05, "routing the error event of link 300": its route entry, status word and link registers. -/
theorem test_addresses_example : Reg.EVT_STATUS 18 = 0x02010048 ∧ Reg.EVT_MASK 18 = 0x02010248 ∧ (Reg.JL_STATE_STATE 300).off / 0x1000 = 0x0112C000 / 0x1000 := by decide

/-- 14 R499: the first bits of the scrambler from its seed. -/
theorem test_scrambler_starts : (scramble scrSeed (List.replicate 24 false)).1.take 23 = List.replicate 23 true := by decide

/-- CRC-32C of the nine digits: the check value of the iSCSI polynomial that 14 names. -/
theorem test_crc_check : crc32c (ascii "123456789") = 0xE3069283 := by decide +kernel

/-- 13, "a program suspended for a read, and its confirm word". -/
def confirmWord : CtlWord := 0x010500280000000000000000000000100000000100000000#192

theorem test_word_fields : CtlWord.op confirmWord = 1 ∧ CtlWord.cyc confirmWord = 80 ∧ CtlWord.arraySet confirmWord = true ∧ CtlWord.clrEdge confirmWord = true ∧
    CtlWord.imm confirmWord = 0x10 ∧ CtlWord.aux confirmWord = 1 ∧ CtlWord.legal confirmWord = true := by decide

/-- The table gives no row bits. -/
theorem test_no_word_is_a_command : ∀ n : Fin 8, decodeTableWord (8 * n.val) n.val = none := by decide

/-- 08: the recommended up-case table. -/
theorem test_upcase_length : upcaseTable.length = 5836 := by decide +kernel

theorem hyps_EmptyQueueLetsTimePass : State.reset.pending = [] := by decide

theorem hyps_OtpBitsNeverClear : Safety.otpHolds (fun w => State.reset.otpWord w) State.reset ∧
    ∃ t, step State.reset = .next t := ⟨fun _ => BitVec.and_self, _, rfl⟩

theorem hyps_LifecycleOnlyAdvances : State.reset.lifecycle ≠ 7 ∧ ∃ t, step State.reset = .next t := ⟨by decide, _, rfl⟩

theorem hyps_FittingBegins : (Safety.inRun running ∧ running.rd Reg.FIT_STATUS_STATE = 0) ∧
    Safety.inRun fitting1 ∧ fitting1.rd Reg.FIT_STATUS_STATE ≠ 0 := by decide

theorem hyps_FittingStages : isRwf Reg.STR_POLICY = true ∧ isRwf 0 = false ∧ Safety.inRun fitting1 ∧
    fitting1.fitOwns 1 = true ∧ fitting1.fit.staged.length < 4096 ∧ fitting1.fitOwns 2 = false := by decide

theorem hyps_FittingStages_full : ∃ s : State, Safety.inRun s ∧ s.fitOwns 1 = true ∧
    (s.fit.staged.any fun e => e.1 == Reg.STR_POLICY) = false ∧ 4096 ≤ s.fit.staged.length :=
  ⟨{ fitting1 with fit := { fitting1.fit with staged := List.replicate 4096 (0, 0) } }, by decide, by decide,
    List.any_eq_false.mpr fun e he => by rw [List.eq_of_mem_replicate he]; decide, le_of_eq List.length_replicate.symm⟩

theorem hyps_FittingEnds : Safety.inRun fitting1 ∧ fitting1.fitMayAbort 1 = true ∧ fitting1.fitMayAbort 4 = true ∧
    fitting1.fitMayAbort 2 = false ∧ fitting1.fitIdleDue = false ∧
    Safety.inRun { fitting1 with now := 60000000000 } ∧ State.fitIdleDue { fitting1 with now := 60000000000 } = true := by decide

theorem hyps_FittingTimeoutIsClamped : Safety.inRun { fitting1 with now := 100000000 } ∧
    State.rd { fitting1 with now := 100000000 } Reg.FIT_STATUS_STATE = 1 ∧
    ({ fitting1 with now := 100000000 } : State).fit.lastActivity + 100 * 1000000 ≤ 100000000 ∧
    Safety.inRun running ∧ running.rd Reg.FIT_STATUS_STATE ≠ 1 := by decide

theorem hyps_FittingCommits : Safety.inRun fitting1 ∧ fitting1.fitOwns 1 = true ∧ fitting1.fitOwns 2 = false ∧
    fitting1.rd Reg.FIT_STATUS_OVERFLOW = 0 ∧ (fitting1.wr Reg.FIT_STATUS_OVERFLOW 1).fitOwns 1 = true ∧
    Safety.inRun (fitting1.wr Reg.FIT_STATUS_OVERFLOW 1) ∧
    (fitting1.wr Reg.FIT_STATUS_OVERFLOW 1).rd Reg.FIT_STATUS_OVERFLOW = 1 ∧ isRwf Reg.THM_GRACE = true ∧
    Reg.THM_GRACE ≠ Reg.PWR_CFG ∧ checksOf Reg.THM_GRACE = [] ∧ (fitting1.fitStage 1 Reg.THM_GRACE 5).fitOwns 1 = true ∧
    (fitting1.fitStage 1 Reg.THM_GRACE 5).fit.staged = [(Reg.THM_GRACE, 5)] := by decide

theorem hyps_FittingAdopts : Safety.inRun (running.wr Reg.FIT_PENDING_CLASS 1024) ∧
    (running.wr Reg.FIT_PENDING_CLASS 1024).fitPending 10 = true ∧
    (running.wr Reg.FIT_PENDING_CLASS 1024).rd Reg.FIT_PENDING_CLASS = 2 ^ 10 ∧
    (running.wr Reg.FIT_PENDING_CLASS 1024).fitPending 0 = false ∧ running.fitPending 0 = false := by decide

theorem hyps_RegisterWriteFollowsAccessCodes : running.accesses 4 = true ∧ Reg.BEL_OTP_SEL % 4 = 0 ∧
    running.answers Reg.BEL_OTP_SEL = true ∧ (regDesc Reg.BEL_OTP_SEL).isSome = true ∧
    Safety.plainWriteTo running 4 Reg.BEL_OTP_SEL (BitVec.ofNat 32 5) := by decide

theorem hyps_MisalignedWriteIsDiscarded : running.accesses 7 = false ∧ running.accesses 4 = true ∧ running.mainUp = true ∧
    ¬(16 = 32 ∧ 4 % 4 = 0) ∧ ¬(16 = 64 ∧ 4 % 8 = 0) ∧ running.rd Reg.GBL_ACCESS_VIOL_CTL_VALID = 0 := by decide

theorem hyps_ViolationClearAndSplitRead : running.answers Reg.GBL_ACCESS_VIOL_CTL = true ∧
    (0x80000000#32).getLsbD 31 = true ∧ (0#32).getLsbD 31 = false ∧ Reg.BEL_LOG_SEQ_LO % 4 = 0 ∧
    running.accesses 4 = true ∧ running.answers Reg.BEL_LOG_SEQ_LO = true ∧ latching Reg.BEL_LOG_SEQ_LO = true := by decide

theorem hyps_EventStatusClearAndArrival : running.answers (Reg.EVT_STATUS 65) = true := by decide

theorem hyps_EventDeliveryToBelfryAndFtl : running.evtStatus 0 = false ∧ (running.setStatus 2111).evtStatus 2111 = true ∧
    running.answers (Reg.EVT_FORCE 65) = true := by decide

theorem hyps_EventMaskAndRouteWrites : running.answers (Reg.EVT_MASK 65) = true ∧ running.answers 0x02000000 = true ∧
    running.reg (Reg.EVT_MASK 0) &&& ~~~(0 : Word) &&& running.reg (Reg.EVT_STATUS 0) = 0 := by decide

theorem hyps_StartupPhasesAdvance : (∃ s : State, s.board.vaux = true ∧ s.phase = 0) ∧
    (State.setPhase running 2).belfryRuns = true ∧ (State.setPhase running 2).phase = 2 ∧
    (∃ s : State, s.belfryRuns = true ∧ s.boot.loaded = true ∧ s.board.pwrKill = false ∧ s.board.mainRunning = false ∧ s.phase = 4) ∧
    (State.setPhase running 9).mainUp = true ∧ (State.setPhase running 9).phase = 9 :=
  ⟨⟨running, by decide⟩, by decide, by decide,
    ⟨State.setPhase { running with
        board := { running.board with mainRunning := false, pwrKill := false }
        boot := { running.boot with loaded := true } } 4, by decide⟩, by decide, by decide⟩

def atRails (stage : Nat) : State :=
  State.setPhase { running with now := 600000, board := { running.board with mainRunning := false, pwrKill := false, railStage := stage } } 3

theorem hyps_RailStagesFollowTheirTimes : (atRails 0).belfryRuns = true ∧ (atRails 0).phase = 3 ∧ (atRails 0).board.railStage = 0 ∧
    (atRails 0).board.railsHeld = false ∧ (atRails 4).board.pwrKill = false ∧ (atRails 4).board.railSince + 500000 ≤ (atRails 4).now ∧
    (∃ s : State, s.belfryRuns = true ∧ s.phase = 3 ∧ s.board.railStage = 5 ∧ s.board.railsHeld = false ∧ s.board.pwrKill = false ∧
      s.board.railDone = none ∧ s.board.railSince + 20000000 ≤ s.now ∧ s.board.railRetried = true) ∧
    ∃ s : State, s.belfryRuns = true ∧ s.phase = 3 ∧ s.board.railRetryAt = some s.now :=
  ⟨by decide, by decide, by decide, by decide, by decide, by decide,
    ⟨{ atRails 5 with now := 20000000, board := { (atRails 5).board with railRetried := true } }, by decide⟩,
    ⟨{ atRails 0 with board := { (atRails 0).board with railRetryAt := some 600000 } }, by decide⟩⟩

theorem hyps_SupplyAndPins : (∃ s : State, s.board.vaux = false) ∧ running.board.vaux = true ∧ running.board.mainPg = false ∧
    running.board.pfiLow = false ∧ (∃ s : State, s.board.pfiLow = true) ∧
    ∃ s : State, s.pwrPhase = 1 ∧ s.pwrStep = 4 ∧ s.pwrTarget = 4 ∧ 0 < s.board.downStage :=
  ⟨⟨{ running with board := { running.board with vaux := false } }, rfl⟩, by decide, by decide, by decide,
    ⟨{ running with board := { running.board with pfiLow := true } }, rfl⟩,
    ⟨(((State.wr { running with board := { running.board with downStage := 5 } } Reg.PWR_STATUS_PHASE 1).wr Reg.PWR_STATUS_STEP 4).wr
      Reg.PWR_STATUS_TARGET 4), by decide⟩⟩

theorem hyps_PortsAndControllersComeUp : (State.setPhase running 11).mainUp = true ∧ 5 ≤ (State.setPhase running 11).phase ∧
    (State.setPhase running 11).portCtrls 1 ≠ [] ∧ (State.setPhase running 11).hasCtrl 0 = true ∧
    ((State.setPhase running 11).ctrl 0).linkUp = false ∧ ((State.setPhase running 11).ctrl 0).en = false ∧
    ((State.setPhase running 11).ctrl 0).rdy = false ∧
    State.rd { running with board := { running.board with perst := [false, false] } } Reg.FIT_ID_ID = 0 ∧
    ({ running with board := { running.board with perst := [false, false] } } : State).board.perst.getD 0 true = false := by decide

theorem hyps_ResetsAndWatchdogsRun : Safety.inRun running ∧ running.mainUp = true ∧ running.hasCtrl 3 = false ∧ running.hasCtrl 2 = true ∧
    (∃ s : State, s.mainUp = true ∧ (s.ctrl 0).en = true) ∧ (∃ s : State, Safety.inRun s ∧ s.board.perst.getD 1 true = false) ∧
    running.now < running.boot.mainInitAt + 2000000000 ∧ running.inRun = true ∧ (∃ s : State, s.board.vaux = false) ∧
    (∃ s : State, s.board.vaux = true ∧ s.board.mainRunning = false) ∧
    (∃ s : State, s.belfryRuns = true ∧ s.board.mainRunning = true ∧ s.phase = 9 ∧ s.boot.mainInitAt + 2000000000 ≤ s.now) :=
  ⟨by decide, by decide, by decide, by decide, ⟨running.setCtrl 0 { running.ctrl 0 with en := true }, by decide⟩,
    ⟨{ running with board := { running.board with perst := [false, false] } }, by decide⟩, by decide, by decide,
    ⟨{ running with board := { running.board with vaux := false } }, rfl⟩,
    ⟨{ running with board := { running.board with mainRunning := false } }, by decide⟩,
    ⟨State.setPhase { running with now := 2000000000 } 9, by decide⟩⟩

theorem hyps_BootTrialsAndRecovery : (∃ s : State, s.boot.rdyAt = some 0 ∧ s.now < 0 + 30000000000) ∧
    (∃ s : State, s.boot.rdyAt = some 0 ∧ 0 + 30000000000 ≤ s.now ∧ s.belfryRuns = true ∧ s.boot.onPrevious = false) ∧
    (State.setPhase running 8).mainUp = true ∧ (State.setPhase running 8).phase = 8 ∧ (State.setPhase running 10).phase = 0xA ∧
    (State.setPhase running 10).rd Reg.FTL_STATUS_TIER = 0 :=
  ⟨⟨{ running with boot := { running.boot with rdyAt := some 0 } }, by decide⟩,
    ⟨State.setPhase { running with now := 30000000000, boot := { running.boot with rdyAt := some 0 } } 11, by decide⟩,
    by decide, by decide, by decide, by decide⟩

theorem hyps_AluWordsCompute : ∀ k : Fin 13, Safety.wordNext (atWord (word 8 k.val)) 0 rec0 (word 8 k.val) 8 ∧ (word 8 k.val).subop = k.val := by
  decide

theorem hyps_MemoryAndBranchWordsRun :
    (∀ k : Fin 3, Safety.wordNext (atWord (word 9 k.val)) 0 rec0 (word 9 k.val) 9 ∧ (word 9 k.val).subop = k.val ∧
      Safety.wordNext (atWord (word 0x0B k.val)) 0 rec0 (word 0x0B k.val) 0x0B ∧
      Safety.wordNext (atWord (word 0x0C k.val)) 0 rec0 (word 0x0C k.val) 0x0C) ∧
    (∀ k : Fin 2, Safety.wordNext (atWord (word 0x0E k.val)) 0 rec0 (word 0x0E k.val) 0x0E) ∧
    Safety.wordNext (atWord (word 0x0A 0)) 0 rec0 (word 0x0A 0) 0x0A ∧ loadAddr rec0 (word 0x0A 0) + 4 ≤ 16384 ∧
    Safety.wordNext (atWord (word 0x0D 0)) 0 rec0 (word 0x0D 0) 0x0D ∧ Safety.wordNext (atWord (word 0x0F 0)) 0 rec0 (word 0x0F 0) 0x0F ∧
    (atWord (word 0x0B 0)).condHolds rec0 0 = true ∧ ((atWord (word 0x0B 0)).sleeve 0).live 5 = true ∧
    ((atWord (word 0x0B 0)).sleeve 0).live 6 = false ∧ Safety.wordNext (atWord (word 0x10 0)) 0 rec0 (word 0x10 0) 0x10 ∧
    (atWord (word 0x10 0)).slv.patch = none ∧ rec0.stack = [5] :=
  ⟨by decide, by decide, by decide, by decide, by decide, by decide, by decide, by decide, by decide, by decide, by decide, rfl⟩

theorem hyps_DieWordsSendCapsules :
    (∀ k : Fin 8, Safety.wordNext (atWord (word k.val 0)) 0 rec0 (word k.val 0) k.val) ∧
    (∀ k : Fin 2, Safety.wordNext (atWord (word 3 k.val)) 0 rec0 (word 3 k.val) 3) ∧
    (∀ k : Fin 2, Safety.wordNext (atWord (word 4 k.val)) 0 rec0 (word 4 k.val) 4) ∧
    (∀ k : Fin 3, Safety.wordNext (atWord (word 7 k.val)) 0 rec0 (word 7 k.val) 7) ∧
    Safety.wordNext (atWord (word 4 2 ||| BitVec.ofNat 192 (2 ^ 64))) 0 rec0 (word 4 2 ||| BitVec.ofNat 192 (2 ^ 64)) 4 ∧
    (∀ k : Fin 5, ∃ s : State, s.mainUp = true ∧ s.opRec 0 7 = some { rec0 with wait := some (31, 0), pollAt := some 0, pollDone := true, wdogOn := true } ∧
      s.waitCause { rec0 with wait := some (2 ^ k.val, 0), pollDone := true } = (if k.val < 2 then none else some k.val)) :=
  ⟨by decide, by decide, by decide, by decide, by decide, fun _ =>
    ⟨(atWord (word 0 0)).modRec 0 7 fun x => { x with wait := some (31, 0), pollAt := some 0, pollDone := true, wdogOn := true }, by decide +revert⟩⟩

theorem hyps_OperationsRunOnSleeves : (atWord (word 0 0)).mainUp = true ∧ (atWord (word 0 0)).nextIssue 0 = some rec0 ∧
    (atWord (word 0 0)).opRec 0 7 = some rec0 ∧ ((atWord (word 0x11 0)).sleeve 0).fetch rec0 = some (word 0x11 0) ∧ (word 0x11 0).legal = false ∧
    (∃ s : State, s.mainUp = true ∧ s.opRec 0 7 = some { rec0 with ended := true, report := some (0, 0) }) ∧
    (∃ s : State, s.mainUp = true ∧ s.opRec 0 7 = some { rec0 with decoding := [(false, [(0, 0)])] } ∧ (s.lnk 0).tags = []) ∧
    (∃ s : State, s.mainUp = true ∧ (s.sleeve 0).xover = some ⟨⟨0, 0, 0, 0, [], [], [], [], []⟩, 0⟩ ∧ 0 + 10000000 ≤ s.now) :=
  ⟨by decide, by decide, by decide, by decide, by decide,
    ⟨(atWord (word 0 0)).modRec 0 7 fun x => { x with ended := true, report := some (0, 0) }, by decide⟩,
    ⟨(atWord (word 0 0)).modRec 0 7 fun x => { x with decoding := [(false, [(0, 0)])] }, by decide⟩,
    ⟨State.modSleeve { atWord (word 0 0) with now := 10000000 } 0 fun x => { x with xover := some ⟨⟨0, 0, 0, 0, [], [], [], [], []⟩, 0⟩ }, by decide⟩⟩

/-- Controller 0 enabled and ready, with its admin queues of 32 entries, an I/O queue pair 1 and a command waiting in both queues. -/
def hosted : State := State.setCtrl (State.setPhase running 0xB) 0 { Ctrl.portReset with
  en := true, rdy := true, sqs := [(0, ⟨32, 0, 1, 0, 0⟩), (1, ⟨16, 2, 5, 1, 0⟩)], cqs := [(0, ⟨32, 0, 0, 0, true⟩), (1, ⟨16, 0, 3, 1, true⟩)] }

/-- An admin command of controller 0 with three of its dwords. -/
def cmd (d10 d11 d12 : Word) : Sqe := { ownSqe with ctrl := 0, cid := 9, cdw10 := d10, cdw11 := d11, cdw12 := d12 }

theorem hyps_QueueCommandsKeepTheQueues : Safety.inRun hosted ∧ hosted.hasCtrl 0 = true ∧ (hosted.ctrl 0).en = true ∧
    ((hosted.ctrl 0).hasSq 1).isSome = true ∧ ((hosted.ctrl 0).cqs.find? fun e => e.1 == 1).isSome = true ∧ hosted.ctrlRuns 0 = true ∧
    Safety.runs hosted (cmd 0x000F0002 1 0) .service ∧ dwBits (cmd 0x000F0002 1 0).cdw10 0 16 = 2 ∧ 2 ≤ hosted.maxCq 0 ∧ 16 ≤ hosted.maxDepth 0 ∧
    ((hosted.ctrl 0).cqs.any fun e => e.1 == 2) = false ∧ dwBits (cmd 0x000F0002 1 0).cdw11 16 16 < portGet hosted.image.cfg 0 12 ∧
    ((hosted.ctrl 0).cqs.any fun e => e.1 == 1) = true ∧ ((hosted.ctrl 0).sqs.any fun e => e.2.cq == 1) = true :=
  ⟨by decide, by decide, by decide, by decide, by decide, by decide, by decide, by decide, by decide, by decide, by decide, by decide, by decide, by decide⟩

/-- `hosted` with the Asynchronous Event Requests and events given. -/
def eventful (aers : List Nat) (q : List Aen) : State := State.modCtrl hosted 0 fun k => { k with aers := aers, aenQueue := q }

theorem hyps_AdminQueriesAnswer : Safety.runs hosted (cmd 0x01 0 0) .always ∧ dwBits (cmd 0x01 0 0).cdw10 0 8 = 1 ∧
    (hosted.feature (cmd 0xC1 0 0) false).isSome = true ∧ (hosted.feature (cmd 0x110 0 0) true).isSome = true ∧
    featureIds.contains (dwBits (cmd 0x03 0 0).cdw10 0 8) = false ∧ Safety.runs (eventful [7] []) (cmd 0x00070000 0 0) .always ∧
    ((eventful [7] []).ctrl 0).aers.contains (dwBits (cmd 0x00070000 0 0).cdw10 16 16) = true ∧ (cmd 0 0 0).sq = 0 ∧ (cmd 0 0 0).mi = false ∧
    Safety.runs hosted (cmd 0 0 0) .plain ∧ Safety.runs (eventful [7] []) (cmd 0 0 0) .service ∧
    ((eventful [] [⟨2, 0, 4⟩]).ctrl 0).aenQueue = ⟨2, 0, 4⟩ :: [] ∧ 16 ≤ ((eventful (List.range 16) []).ctrl 0).aers.length ∧
    ((hosted.nsOf { cmd 0 0 0 with nsid := 1 }).isSome = false) :=
  ⟨by decide, by decide, by decide, by decide, by decide, by decide, by decide, by decide, by decide, by decide, by decide, by decide, by decide, by decide⟩

theorem hyps_SanitizeAndNamespaceDeletion : Safety.runs hosted (cmd 0x2 0 0) .service ∧ (cmd 0x2 0 0).cdw10.getLsbD 9 = false ∧
    (cmd 0x204 0 0).cdw10.getLsbD 9 = true ∧ hosted.openTakes = [] ∧ hosted.rd Reg.FIT_STATUS_STATE = 0 ∧
    (State.wr hosted Reg.FIT_STATUS_STATE 1).rd Reg.FIT_STATUS_STATE ≠ 0 ∧ (State.modSan hosted fun x => { x with action := 2 }).acts (cmd 0 0 0) = true ∧
    Safety.runs hosted { cmd 0 0 0 with nsid := 3 } .plain ∧ hosted.ns 3 = none ∧
    (∃ s : State, ∃ n, Safety.runs s { cmd 0 0 0 with nsid := 3 } .plain ∧ s.ns 3 = some n ∧ n.attached = false ∧ s.seqRoom 1 = true) :=
  ⟨by decide, by decide, by decide, by decide, by decide, by decide, by decide, by decide, by decide,
    ⟨{ hosted with
        nvme := { hosted.nvme with nss := [⟨3, 0, 1, 0, false, 4, 0, false⟩] }
        ftl := { hosted.ftl with seqCeil := 9, seqNext := 1 } }, ⟨3, 0, 1, 0, false, 4, 0, false⟩, by decide, by decide, by decide, by decide⟩⟩

theorem hyps_SetFeaturesStoreTheirValues : Safety.runs hosted (cmd 0x10 0x01500160 0) .service ∧
    featureIds.contains (dwBits (cmd 0x03 0 0).cdw10 0 8) = false ∧ featureIds.contains (dwBits (cmd 0x80000010 0 0).cdw10 0 8) = true ∧
    (cmd 0x80000010 0 0).cdw10.getLsbD 31 = true ∧ featureIds.contains (dwBits (cmd 0x10 0 0).cdw10 0 8) = true ∧
    333 ≤ dwBits (cmd 0x10 0x01500160 0).cdw11 16 16 ∧ dwBits (cmd 0x10 0x01500160 0).cdw11 16 16 < dwBits (cmd 0x10 0x01500160 0).cdw11 0 16 ∧
    dwBits (0x00100000 : Word) 20 2 = 1 ∧ (State.modCtrl hosted 0 fun k => { k with sqs := k.sqs.take 1, cqs := k.cqs.take 1 }).acts (cmd 7 0 0) = true ∧
    hosted.rd Reg.FIT_STATUS_STATE = 0 ∧ hosted.blobOk [] = false ∧ hosted.learnState = 0 ∧ hosted.lossReported = false ∧
    (∃ s : State, s.learnState = 2) :=
  ⟨by decide, by decide, by decide, by decide, by decide, by decide, by decide, by decide, by decide, by decide, by decide, by decide, by decide,
    ⟨State.wr hosted Reg.MNT_STATUS_LEARN_STATE 2, by decide⟩⟩

theorem hyps_LogPagesGiveTheirBodies : Safety.runs hosted (cmd 0x007F00C1 0 0) .always ∧ (cmd 0x007F00C1 0 0).wholeDevice = true ∧
    ({ cmd 0x007F0002 0 0 with nsid := 1 } : Sqe).wholeDevice = false ∧ logPages.contains (dwBits (cmd 0x06 0 0).cdw10 0 8) = false ∧
    (cmd 0x007F00C1 0 0).lsf = 0 ∧ (cmd 0x007F01C1 0 0).lsf = 1 ∧ (cmd 0x007F02C1 0 0).lsf = 2 ∧ (cmd 0x007F03C0 0 0).lsf = 3 ∧
    3 < (cmd 0x007F04C0 0 0).lsf ∧ (cmd 0x007F0004 0 0).rae = false ∧ hosted.nvme.sanitize.action = 0 ∧ (cmd 0x007F0081 0 0).logOffset = 0 ∧
    2 ≤ (cmd 0x007F0081 0 0).logBytes :=
  ⟨by decide, by decide, by decide, by decide, by decide, by decide, by decide, by decide, by decide, by decide, by decide, by decide, by decide⟩

theorem hyps_ManagementEndpointAnswers : hosted.miAnswers = true ∧ (State.setPhase hosted 0xC).miAnswers = false ∧ hosted.mainUp = true ∧
    hosted.hasCtrl 0 = true ∧ Safety.runs hosted (cmd 0 1 0) .service ∧ hosted.belfryRuns = true ∧ dwBits (cmd 0 1 0).cdw11 0 8 = 1 ∧
    (∃ s : State, s.miAnswers = true ∧ s.mainUp = false) ∧ (∃ s : State, Safety.runs s (cmd 0 1 0) .service ∧ s.belfryRuns = false) ∧
    bitsOf (0x0203 : Word) 0 8 = 3 ∧ 64 ≤ bitsOf (0x80 : Word) 0 16 ∧ 250 < bitsOf (0x100 : Word) 0 16 :=
  ⟨by decide, by decide, by decide, by decide, by decide, by decide, by decide,
    ⟨{ hosted with board := { hosted.board with mainRunning := false } }, by decide⟩,
    ⟨{ hosted with boot := { hosted.boot with belfryHalted := true } }, by decide⟩, by decide, by decide, by decide⟩

theorem hyps_FirmwareUpdateCommands : Safety.runs hosted (cmd 0 0 0) .plain ∧ hosted.acceptPkg (assembled (hosted.ctrl 0).download) = none ∧
    dwBits (cmd 0x18 0 0).cdw10 3 3 = 3 ∧ hosted.boot.commit = none ∧ (State.setPhase hosted 0xC).belfryRuns = true ∧
    (State.setPhase hosted 0xC).recoveryMode = true ∧ hosted.recoveryMode = false ∧
    (∃ s : State, Safety.runs s (cmd 0 0 0) .patch ∧ s.patchOf (cmd 0 0 0) = none) ∧ (524288 < (cmd 0x80001 0 0).cdw10.toNat) :=
  ⟨by decide, by decide, by decide, by decide, by decide, by decide, by decide,
    ⟨State.burn (State.wr hosted Reg.BEL_BOOT_STATUS_NO_IMAGE 0) 3 1, by decide, by decide⟩, by decide⟩

/-- A host controller with an image in force, in OPEN. -/
def vendorHost : State := State.burn (State.wr hosted Reg.BEL_BOOT_STATUS_NO_IMAGE 0) 3 1

/-- `vendorHost` with a fitting of controller 0 open. -/
def vendorFitting : State := State.fitBegin vendorHost 0

/-- One entry, for STR_POLICY. -/
def stagePolicy (op id : Word) : Sqe := { cmd 2 0 op with cdw13 := id, data := leBytes 4 Reg.STR_POLICY ++ leBytes 4 0x1008 }

theorem hyps_FittingCommandsRunTheFitting : Safety.runs vendorHost (cmd 0 0 1) .vendor ∧ (cmd 0 0 1).cdw10 = 0 ∧ (cmd 1 0 1).fitCountBad 1 = true ∧
    (cmd 0 0 2).fitCountBad 2 = false ∧ vendorHost.fitRefused (cmd 0 0 2) 2 = true ∧ vendorHost.rd Reg.FIT_STATUS_STATE = 0 ∧
    vendorFitting.fitOwns (cmd 0 0 2).agent = true ∧ vendorFitting.rd Reg.FIT_ID_ID = ({ cmd 0 0 2 with cdw13 := 1 } : Sqe).cdw13.toNat ∧
    Safety.runs vendorFitting (cmd 0 0 2) .vendor ∧ (stagePolicy 0 1).fitCountBad 0 = false ∧ badEntry (stagePolicy 0 1).fitEntries = none ∧
    (stagePolicy 4 0).fitCountBad 4 = false ∧ vendorFitting.fit.staged = [] ∧ badEntry [(3, 0)] = some 0 ∧ 4 < dwBits (cmd 0 0 5).cdw12 0 4 ∧
    Safety.runs vendorHost (cmd 16 0 0) .plain ∧ (State.modSan vendorHost fun x => { x with action := 2 }).acts (cmd 0 0 2) = true :=
  ⟨by decide, by decide, by decide, by decide, by decide, by decide, by decide, by decide, by decide, by decide, by decide, by decide, by decide, by decide, by decide,
    by decide, by decide⟩

/-- A Key Load over path 0 whose data names slot 5. -/
def keyCmd (op : Nat) : Sqe := { cmd 64 0 0 with data := leBytes 2 5 ++ leBytes 1 op }

/-- A device in OPEN whose image lets controller 0 load keys. -/
def keyHost : State := { vendorHost with image := { vendorHost.image with cfg := cfgSet vendorHost.image.cfg 0xB0 0 1 7 } }

theorem hyps_KeyLoadAndEntropy : Safety.runs vendorHost (cmd 0 0 0) .vendor ∧ vendorHost.klRefused (cmd 0 0 0) = some stInvalidField ∧
    Safety.runs keyHost (keyCmd 1) .vendor ∧ keyHost.klRefused (keyCmd 1) = none ∧ keyHost.klReplaces (keyCmd 1) = false ∧
    vendorHost.mainUp = true ∧ vendorHost.entropyFault = false ∧ (State.entropyFail vendorHost).entropyFault = true ∧
    (∃ s : State, ∃ o, s.mainUp = true ∧ s.keyOp 5 = some o ∧ o.slot = 5 ∧ o.clear = false ∧ o.step = 2 ∧ s.oldKeys 5 ((s.keySlot 5).gen + 1) = true) :=
  ⟨by decide, by decide, by decide, by decide, by decide, by decide, by decide, by decide,
    ⟨{ vendorHost with cph := { vendorHost.cph with ops := [⟨none, 5, 2, [], 0, false, false, []⟩], recs := [⟨1, true, 5, 0, 0, 0, [], true⟩] } },
      ⟨none, 5, 2, [], 0, false, false, []⟩, by decide⟩⟩

/-- `vendorHost` with a namespace 1 of 1,024 blocks in 4 KiB format, key slot 5 active, SEQs to assign. -/
def ioHost : State := { vendorHost with
  nvme := { vendorHost.nvme with nss := [⟨1, 0, 0, 5, false, 2, 0, true⟩] }
  cph := { vendorHost.cph with slots := [(5, ⟨1, List.replicate 32 7, 3, 0, 1, 1048576, 0, false, false⟩)] }
  ftl := { vendorHost.ftl with seqNext := 1, seqCeil := 4294967296, map := [(mapKey 1 0, .fine [(5, 77)])], unreadable := [(1, 6)] } }

/-- A command of namespace 1 for one block. -/
def ioCmd (lba : Nat) : Sqe := { cmd (BitVec.ofNat 32 lba) 0 0 with nsid := 1, sq := 1 }

theorem hyps_IoCommandsCheckAndRun : ioHost.acts (ioCmd 4) = true ∧ ioHost.ioGate (ioCmd 4) = none ∧ (ioHost.nsOf (ioCmd 4)).isSome = true ∧
    (∀ n, ioHost.nsOf (ioCmd 4) = some n → n.take = false ∧ n.piBytes = 0 ∧ n.spb = 1 ∧ n.holds (ioCmd 4).slba (ioCmd 4).nlb = true) ∧ (ioCmd 4).nlb = 1 ∧
    (State.setPhase ioHost 0xA).acts (ioCmd 4) = true ∧ (State.setPhase ioHost 0xA).phase < 0xB ∧ ioHost.vendorGate = none ∧
    ioHost.writeRefused (ioCmd 5) = none ∧ ioHost.entryHeld 1 [4] = false ∧ ioHost.entryHeld 1 [6] = false ∧ ioHost.readMay 4096 = true ∧
    ({ ioHost with dram := { ioHost.dram with rebuilds := [(ioHost.dramLine (ioHost.regionEnd 1)).1, (ioHost.dramLine (ioHost.regionEnd 1)).2, 0] |> fun l => [(l.getD 0 0, l.getD 1 0, 0)] } } : State).entryHeld 1 [4] = true ∧ ioHost.locate 1 4 = none ∧ ioHost.ftl.unreadable.contains (1, (ioCmd 6).slba) = true ∧
    ({ ioCmd 4 with cdw11 := 4 } : Sqe).cdw11.getLsbD 2 = true ∧ ioHost.ftl.unreadable.contains (1, 4) = false :=
  ⟨by decide, by decide, by decide, by decide, by decide, by decide, by decide, by decide, by decide, by decide, by decide, by decide, by decide +kernel, by decide, by decide, by decide, by decide⟩

/-- A write of 4 sectors of namespace 1 that waits at the gate for one chunk. -/
def waiting1 : State := { ioHost with
  path := { ioHost.path with writes := [{ State.newWrite ioHost .write 0 (ioCmd 5) 1 [5, 6, 7, 8] false with id := 3, asked := 1 }] }
  win := { ioHost.win with limitReady := true, waiting := [⟨3, 16384, false, 0, 0⟩], occ := 0 } }

/-- `waiting1` under a limit, in MiB. -/
def limited (mibs : Nat) : State := State.wr (State.wr waiting1 Reg.STR_DW_LIMIT_MIB mibs) Reg.STR_DW_STATUS_GATE_CLOSED 0

theorem hyps_GateGrantsAndGovernorLimits : (limited 64).mainUp = true ∧ (limited 64).gateClosed = false ∧ (limited 64).nvme.fetchStopped = false ∧
    (limited 64).win.limitReady = true ∧ (nextReq (limited 64).win.waiting).isSome = true ∧ ((limited 64).wcmd 3).isSome = true ∧
    (limited 64).win.occ + 16384 ≤ (limited 64).limitMib * mib ∧ (limited 64).rd Reg.STR_ADM_METER_MBPS = 0 ∧
    (limited 0).limitMib * mib < (limited 0).win.occ + 16384 ∧ (limited 0).gateClosed = false ∧
    (State.wr (limited 64) Reg.STR_DW_STATUS_GATE_CLOSED 1).gateClosed = true ∧ ((limited 64).rd Reg.FIT_PENDING_CLASS).testBit 0 = false ∧
    (∃ s : State, s.mainUp = true ∧ s.win.clearSince = some 0 ∧ s.degraded = true ∧ 0 + 1000000000 ≤ s.now) :=
  ⟨by decide, by decide, by decide, by decide, by decide, by decide, by decide, by decide, by decide, by decide, by decide, by decide,
    ⟨State.wr { ioHost with now := 2000000000, win := { ioHost.win with clearSince := some 0 } } Reg.STR_DW_STATUS_DEGRADED 1, by decide⟩⟩

/-- A write whose one sector has arrived, with an active slot and SEQs to assign. -/
def arrived1 : State := { ioHost with path := { ioHost.path with writes := [{ State.newWrite ioHost .write 0 (ioCmd 5) 1 [5] false with
  id := 3, asked := 1, granted := 4096, fetched := 4096, arrived := [(0, some (List.replicate 4096 1, List.replicate 16 0))], reservedInv := true }] } }

theorem hyps_PathEventsMoveTheWrite : (limited 64).mainUp = true ∧ arrived1.mainUp = true ∧ (arrived1.wcmd 3).isSome = true ∧ arrived1.laneOk 0 = true ∧
    (State.setLane arrived1 1 3).laneOk 1 = false ∧ (arrived1.ns 1).isSome = true ∧ arrived1.encryptReady 5 false = true ∧
    arrived1.ftl.seqNext + 2 ^ 31 + 1 < arrived1.ftl.seqCeil ∧ arrived1.ingressRoom 0 4096 = true ∧
    (∃ s : State, s.mainUp = true ∧ ∃ w, s.wcmd 3 = some w ∧ w.kind = .write ∧ 4096 ≤ w.granted ∧ w.places = [] ∧ mapGet (fun _ => none) w.arrived 0 = none) ∧
    arrived1.awaited 0 = false ∧ arrived1.firstFine = none ∧ arrived1.flushing = false ∧ arrived1.linkState 0 ≠ 2 ∧
    (∃ s : State, s.mainUp = true ∧ s.flushing = true) ∧
    (∃ s : State, ∃ r : RdCmd, (s.path.reads.find? fun x => x.id == 1) = some r ∧ r.late.contains 0 = true ∧ r.since + 5000000 ≤ s.now ∧ s.mainUp = true) ∧
    (∃ s : State, s.mainUp = true ∧ s.ftl.page ≠ [] ∧ s.ftl.pageSince + 1000000 ≤ s.now) :=
  ⟨by decide, by decide, by decide, by decide, by decide, by decide, by decide, by decide, by decide,
    ⟨{ arrived1 with path := { arrived1.path with writes := arrived1.path.writes.map fun w => { w with arrived := [] } } }, by decide, _, rfl, by decide, by decide,
      by decide, by decide⟩, by decide, by decide, by decide, by decide,
    ⟨{ ioHost with ftl := { ioHost.ftl with flush := { ioHost.ftl.flush with kind := 1 } } }, by decide, by decide⟩,
    ⟨{ ioHost with now := 5000000, path := { ioHost.path with reads := [⟨1, ioCmd 5, false, [], [0], [], 0, none⟩] } }, ⟨1, ioCmd 5, false, [], [0], [], 0, none⟩, by decide⟩,
    ⟨{ ioHost with now := 1000000, ftl := { ioHost.ftl with page := [⟨4, 0, 1, 0, 1, 0, 1⟩], pageSince := 0 } }, by decide⟩⟩

/-- A stream of push mode, for 100 MB/s, and a clip of it in slot 0. -/
def stream0 : StreamDesc := ⟨0, 0, 0, 0, 100, 0, 0, 0, 0, 0, 0, 0, 0, 0, []⟩
def clip0 : Clip := { newClip stream0 0 9 [] with pos := 1 }

/-- Take 7 of controller 0, in a state, open to every trigger. -/
def take7 (st : Nat) : Take := {
  num := 7, dirSlot := 0, state := st, reason := 0, ring := false, joinChain := false, joined := false, pinStop := true, pinEdges := 0, hostTime := false,
  pretrigger := 0, frameMax := 1048576, trigSrc := 7, rigTake := 0, openTime := 0, startTime := 0, closeTime := 0, rigId := 0, steepleState := 0, fwVersion := 0,
  cfgDigest := 0, name := [], user := [], note := [], clips := [clip0], sched := [], chainBreak := false, ctrl := 0, openCmd := none, closeCmds := [], sealing := 0,
  mark := none, stopBy := 0, dirAt := 0 }

/-- `ioHost` with a take namespace 2 and take 7 in a state. -/
def takeHost (st : Nat) : State := { ioHost with
  now := 4000, nvme := { ioHost.nvme with nss := ioHost.nvme.nss ++ [⟨2, 0, 0, 5, true, 131072, 1024, true⟩] }
  takes := { ioHost.takes with dir := [take7 st], nextTake := 8 } }

/-- A command for take 7, at a time. -/
def takeCmd (time : Nat) : Sqe := { cmd 16 7 0 with nsid := 2, data := leBytes 8 7 ++ leBytes 8 time }

theorem hyps_TakesOpenCloseAndGo : Safety.runs (takeHost 1).fireDue (takeCmd 0) .vendor ∧ (takeHost 1).fireDue.closeRefused (takeCmd 0) = none ∧
    ((takeHost 1).fireDue.openTakeOf 7).isSome = true ∧ ((takeHost 1).fireDue.takeOf (leAt (takeCmd 0).data 0 4)).isSome = true ∧
    (takeHost 1).fireDue.schedTimeOk 0 = false ∧ (takeHost 1).fireDue.schedTimeOk (leAt (takeCmd 1000000).data 8 8) = true ∧
    (byteAt (takeCmd 0).data 5).testBit 0 = false ∧ (take7 4).isOpen = false ∧ ((takeHost 4).fireDue.takeOf 7).isSome = true ∧
    (takeHost 1).fireDue.openRefused (takeCmd 0) ((takeHost 1).fireDue.readOpen (takeCmd 0).data) = some stInvalidField ∧ ioHost.fireDue.takeNs = none :=
  ⟨by decide, by decide, by decide, by decide, by decide, by decide, by decide, by decide, by decide, by decide +kernel, by decide⟩

/-- A Take Open of one push stream. -/
def openCmd : Sqe := { cmd 80 0 0 with nsid := 2, data := leBytes 4 0 ++ leBytes 4 1 ++ leBytes 4 4096 ++ leBytes 244 2 ++ leBytes 4 0 ++ leBytes 60 100 }

theorem hyps_TakesOpenCloseAndGo_open : (State.wr (takeHost 4) Reg.TAK_DEF_CFG_STREAMS_MAX 16).fireDue.openRefused openCmd
      ((State.wr (takeHost 4) Reg.TAK_DEF_CFG_STREAMS_MAX 16).fireDue.readOpen openCmd.data) = none ∧ (takeHost 4).phase = 0xB ∧
    ((takeHost 4).fireDue.pickUnits 1).isSome = true := ⟨by decide +kernel, by decide, by decide +kernel⟩

/-- `takeHost` with something scheduled for take 7. -/
def scheduled (action : Nat) : State := { takeHost 1 with takes := { (takeHost 1).takes with dir := [{ take7 1 with sched := [⟨1000, action, 1, false, []⟩] }] } }

theorem hyps_TriggersActOnTakes : Safety.runs (takeHost 1).fireDue (takeCmd 0) .vendor ∧ (takeHost 1).fireDue.trigRefused (takeCmd 0) = none ∧
    (takeHost 1).fireDue.trigTakes (takeCmd 0) = [take7 1] ∧ (takeHost 1).fireDue.takeOf 7 = some (take7 1) ∧
    (takeHost 1).fireDue.trigRefused { takeCmd 0 with cdw12 := 4 } = some (stVendor 0x88 true) ∧
    (takeHost 1).fireDue.trigRefused { takeCmd 0 with cdw12 := 4, cdw13 := 1000000 } = none ∧ (takeHost 4).fireDue.trigTakes { takeCmd 0 with cdw11 := 0xFFFFFFFF } = [] ∧
    (takeHost 2).fireDue.trigTakes (takeCmd 0) = [take7 2] ∧ (take7 2).clips = [clip0] ∧ clip0.events.length < 4096 ∧
    (scheduled 0).dueList false = [(7, ⟨1000, 0, 1, false, []⟩)] ∧ (scheduled 3).dueList true = [(7, ⟨1000, 3, 1, false, []⟩)] ∧ (scheduled 3).dueList false = [] ∧
    Safety.inRun (takeHost 1) ∧ (takeHost 1).board.trigInLast = none ∧ (takeHost 1).dueList true = [] ∧ (takeHost 1).openTakes = [take7 1] ∧
    (take7 1).accepts 2 = true ∧ (take7 1).openTime ≤ ((takeHost 1).steepleTime - 0) / 4 * 4 :=
  ⟨by decide, by decide, by decide, by decide, by decide, by decide, by decide, by decide, by decide, by decide, by decide, by decide, by decide, by decide, by decide,
    by decide, by decide, by decide, by decide⟩

/-- A whole frame of 4,032 bytes for slot 0: FIRST and LAST. -/
def frameCmd : Sqe := { cmd 1008 0x00050030 0 with nsid := 2, cdw13 := 4032, sq := 1 }

/-- A waiting frame. -/
def frameWaits : State := { takeHost 1 with
  takes := { (takeHost 1).takes with replies := [⟨0, 0, [frameCmd], none⟩] }
  nvme := { (takeHost 1).nvme with outs := [⟨0, 1, 9, 0, false, true⟩] } }

theorem hyps_FramesAreTakenOrRefused : (takeHost 2).acts frameCmd = true ∧ (takeHost 2).fireDue.ioGate frameCmd = none ∧ (takeHost 2).fireDue.vendorGate = none ∧
    (∃ n, (takeHost 2).fireDue.nsOf frameCmd = some n ∧ n.take = true) ∧ frameFieldsOk frameCmd = true ∧ frameCmd.cdw11.getLsbD 4 = true ∧
    (takeHost 2).fireDue.slotClip 0 = some (take7 2, 0, clip0) ∧ (takeHost 2).fireDue.slotClip 1 = none ∧
    (takeHost 2).fireDue.frameOutcome 0 4032 (takeHost 2).steepleTime = .record ∧ (takeHost 1).fireDue.frameOutcome 0 4032 (takeHost 1).steepleTime = .wait ∧
    segSequenceOk frameCmd 0 4032 = true ∧ (takeHost 2).fireDue.frameTagged 0 5 = none ∧ (takeHost 2).fireDue.replyTagged 0 5 = none ∧
    (takeHost 2).fireDue.inFlightOn 0 < 1024 ∧ (State.wr (takeHost 2) Reg.TAK_STATUS_FULL 1).fireDue.rd Reg.TAK_STATUS_FULL = 1 ∧
    frameWaits.mainUp = true ∧ frameWaits.fireDue.takes.replies = [⟨0, 0, [frameCmd], none⟩] ∧ 0 + 1000 ≤ frameWaits.fireDue.steepleTime ∧
    Safety.awaited frameWaits.fireDue frameCmd :=
  ⟨by decide, by decide, by decide, ⟨_, rfl, by decide⟩, by decide, by decide, by decide, by decide, by decide, by decide, by decide, by decide, by decide, by decide, by decide,
    by decide, by decide, by decide, by decide⟩

/-- `takeHost` with channel 3 of take 7, in a state, with one descriptor to fetch and a batch written. -/
def channel3 (st : Nat) (wrote : Option Nat) : State :=
  let x : Dma := ⟨7, 0, 1, 4, 0x10000, 0x20000, 0x30000, 64, 8, 4, 0, [(9, 0)], none, 0, 0, [], [], [], wrote, 1, 0⟩
  let s : State := { takeHost 2 with now := 20000, takes := { (takeHost 2).takes with dmas := [(3, some x)] } }
  State.setDmaState (State.wr (State.wr s (Reg.TAK_DMA_STAT_CTRL 3) 0) (Reg.TAK_DMA_PI_PI 3) 9) 3 st

theorem hyps_DmaChannelsFollowTheirRings : (channel3 1 none).mainUp = true ∧ ((channel3 1 none).fireDue.dma 3).isSome = true ∧
    (channel3 1 none).fireDue.rd (Reg.TAK_DMA_STAT_CTRL 3) = 0 ∧ (takeHost 2).dma 3 = none ∧ (channel3 1 none).fireDue.dmaChosen = some 3 ∧
    (channel3 1 none).fireDue.dmaBusy 3 = none ∧ (∀ x, (channel3 1 none).fireDue.dma 3 = some x → (channel3 1 none).fireDue.unfetched 3 x ≠ 0) ∧
    (channel3 1 none).fireDue.frameOutcome 0 2000000 20000 = .refuse (stVendor 0x81 true) ∧
    (∃ x, (channel3 2 (some 5)).dma 3 = some x ∧ x.wrote = some 5 ∧ x.unsignalled ≠ 0 ∧ x.unsignalledAt + 10000 ≤ (channel3 2 (some 5)).now) ∧
    (channel3 5 none).dmaState 3 = 5 ∧ (channel3 5 none).fill 3 ≤ 64 ∧ (channel3 1 none).dmaRuns 3 = true ∧ (channel3 5 none).dmaRuns 3 = false :=
  ⟨by decide, by decide, by decide, by decide, by decide +kernel, by decide, by decide, by decide, ⟨_, rfl, by decide, by decide, by decide⟩, by decide, by decide, by decide,
    by decide⟩

/-- `vendorHost`, asked over the management port with an opcode and arguments. -/
def request (op : Nat) (args : List Byte) : MbReq := .mctp (vendorHost.ianaHead ++ (leBytes 2 op ++ leBytes 2 0 ++ leBytes 4 7 ++ leBytes 4 args.length ++ leBytes 4 0 ++ args))

/-- `vendorHost` with a lifecycle and owner words burnt. -/
def owned (life : Nat) : State := (State.burn vendorHost 3 (BitVec.ofNat 32 life)).burn 0x14 (BitVec.ofNat 32 (life / 2))

/-! (Whether a signature verifies is opaque: no state can be written out in which it does, and the clauses that ask for it hold whatever it answers.) -/

theorem hyps_MailboxServesItsMessages : Safety.mbServes vendorHost (request 0x10 (leBytes 200 4)) 0x10 ∧ (vendorHost.mbMsg (request 0x10 (leBytes 200 4))).len = 200 ∧
    (vendorHost.mbMsg (request 0x10 (leBytes 200 4))).args.length = 200 ∧ vendorHost.lifecycle = 1 ∧ vendorHost.ownerHash 0 = 0 ∧ (owned 3).lifecycle = 3 ∧
    (owned 3).activeOwner = some 0 ∧ (owned 3).ownerHash 1 = 0 ∧ (owned 3).ownerHash 0 ≠ 0 ∧ mbOpcodes.contains 0x99 = false ∧
    Safety.mbServes vendorHost (request 0x40 (leBytes 9 0)) 0x40 ∧ 240 < (vendorHost.mbMsg (request 0x40 (leBytes 300 0))).len ∧
    (State.setPhase vendorHost 0xC).recoveryMode = true := by decide +kernel

/-- `vendorHost` with link 9 in a state, Sleeve 1 and lane 3 out of service, loop 2 BYPASSED, and DRAM channel 3 retired. -/
def partsOut (link : Nat) : State :=
  let s := { vendorHost with life := { vendorHost.life with channels := [3] } }
  State.wr (State.wr (State.wr (State.wr s (Reg.STR_LINK_STATE 9) link) (Reg.SLV_STATUS_BYPASSED 1) 1) (Reg.CPH_LANE_STATUS_STATE 3) 1) (Reg.MNT_LOOP_STATUS_STATE 2) 3

/-- A request that names part k. -/
def ofPart (op k : Nat) : MbReq := request op (leBytes 4 k)

theorem hyps_LiveOperationsTakePartsOutAndBack : ((partsOut 1).mbMsg (ofPart 0x28 9)).len ≤ 240 ∧ Safety.mbServes (partsOut 1) (ofPart 0x28 9) 0x28 ∧
    leAt ((partsOut 1).mbMsg (ofPart 0x28 9)).args 0 2 = 9 ∧ (partsOut 1).mainUp = true ∧ (partsOut 1).linkState 9 = 1 ∧ (partsOut 4).linkState 9 = 4 ∧
    vendorHost.linkState 9 = 0 ∧ (State.wr (Safety.mbBegun (partsOut 1) (ofPart 0x28 9) 0x28) (Reg.STR_LINK_STATE 9) 4).exceedsParity = false ∧
    (partsOut 1).rd (Reg.SLV_STATUS_BYPASSED 1) = 1 ∧ (partsOut 1).rd (Reg.CPH_LANE_STATUS_STATE 3) = 1 ∧ (partsOut 1).laneOk 2 = true ∧
    (partsOut 1).loopState 2 = 3 ∧ (partsOut 1).loopState 1 ≠ 3 ∧ 3 ∈ (partsOut 1).life.channels ∧ 4 ∉ (partsOut 1).life.channels ∧
    byteAt ((partsOut 1).mbMsg (ofPart 0x3D 3)).args 0 = 3 ∧ check14 22 (partsOut 1).image.cfg = none := by decide +kernel

theorem hyps_LiveOperationsTakePartsOutAndBack_links : ((partsOut 1).linksIn 4).length < 8 := by decide +kernel

theorem hyps_LiveOperationsTakePartsOutAndBack_sleeves : ∀ j, j < 64 → vendorHost.rd (Reg.SLV_STATUS_BYPASSED j) ≠ 1 := by decide +kernel

theorem hyps_LiveOperationsTakePartsOutAndBack_lanes : ((List.range 16).filter fun l => !(partsOut 1).laneOk l).length < 8 := by decide +kernel

/-- `vendorHost` at a time, with a checkpoint asked for, in a running state. -/
def maintHost (ru : Bool) : State := { vendorHost with now := 2000000000000, maint := { vendorHost.maint with acts := [⟨8, 0, 0, ru, false, true⟩] } }

theorem hyps_MaintenanceActivitiesRunInTurn : Safety.mbServes (maintHost false) (request 0x20 (leBytes 8 8)) 0x20 ∧ ((maintHost false).mbMsg (request 0x20 (leBytes 8 8))).len ≤ 240 ∧
    (Safety.mbBegun (maintHost false) (request 0x20 (leBytes 8 8)) 0x20).askedRes 8 0 = some [0] ∧ byteAt ((maintHost false).mbMsg (request 0x20 (leBytes 8 8))).args 0 = 8 ∧
    leAt ((maintHost false).mbMsg (request 0x20 (leBytes 8 8))).args 4 4 = 0 ∧ (Safety.mbBegun (maintHost false) (request 0x20 (leBytes 8 0)) 0x20).askedRes 0 0 = none ∧
    (State.setPhase (maintHost false) 0xA).maintRuns = false ∧ Safety.mbServes (maintHost true) (request 0x21 (leBytes 8 8)) 0x21 ∧
    (maintHost true).mainUp = true ∧ (maintHost true).belfryRuns = true ∧ (maintHost true).maint.passAt + 990000000 ≤ (maintHost true).now ∧
    (maintHost true).findAct 8 0 = some ⟨8, 0, 0, true, false, true⟩ ∧ (maintHost true).actDone ⟨8, 0, 0, true, false, true⟩ = true ∧
    (maintHost false).findAct 8 0 = some ⟨8, 0, 0, false, false, true⟩ ∧ (maintHost true).maint.retries = [] ∧ (maintHost true).maint.thresh = [] ∧
    (maintHost true).strings = [] ∧ (maintHost true).maint.avsSince = none ∧ running.belfryRuns = false := by decide +kernel

/-- `maintHost` steady between 60 °C and 70 °C since time 0, with AVS on. -/
def steady : State := State.wr { maintHost true with maint := { (maintHost true).maint with avsSince := some 0 } } Reg.PWR_CFG_AVS 1

theorem hyps_MaintenanceActivitiesRunInTurn_avs : steady.maint.avsSince = some 0 ∧ 0 + 600000000000 ≤ steady.now ∧ steady.force Reg.PWR_CFG_AVS ≠ 0 ∧ steady.maint.avsFirst = none ∧
    steady.maint.retries = [] ∧ steady.strings = [] := by decide +kernel

/-- `vendorHost` at a time, with grace ending and results of 0 °C in the past; and tripped, its rails off, cool and tested. -/
def warmHost (n : Nat) : State := { vendorHost with now := 2000000000000, thm := { vendorHost.thm with grace := some (5, 2), recent := List.replicate n 0 } }
def trip1 : TripRec := ⟨1, 0, 1, 0, 1840, 1840, 0, 0, 0, 0, 2, 0, 0, 0⟩
def tripped (rec : Option TripRec) (test : Option Bool) : State := { vendorHost with
  now := 2000000000000
  board := { vendorHost.board with mainRunning := false, thermTrip := true }
  thm := { vendorHost.thm with trip := rec, killed := true, waiting := true, selfTest := test, below := some 0, ackDue := false } }

theorem hyps_ThermalStatesTripsAndFans : (warmHost 0).board.vaux = true ∧ (warmHost 0).pwrState = 0 ∧ (warmHost 0).board.mainRunning = true ∧ (warmHost 0).thm.trip = none ∧
    (warmHost 0).fitPending 6 = false ∧ (warmHost 0).thm.faultOf 0 1 500 = 0 ∧ (warmHost 0).thm.faultOf 0 1 1900 = 0 ∧ (warmHost 0).thm.grace = some (5, 2) ∧ 5 ≤ (warmHost 0).now ∧
    (tripped (some trip1) none).thm.trip = some trip1 ∧ (tripped (some trip1) none).thm.killed = true ∧ (tripped (some trip1) none).belfryRuns = true ∧
    (tripped (some trip1) none).board.railStage = 0 ∧ (tripped none (some true)).cooled = true ∧ (tripped none (some true)).thm.waiting = true ∧
    (tripped none (some true)).board.mainRunning = false ∧ (tripped none (some true)).belfryRuns = true ∧ (tripped none (some false)).thm.selfAt + 10000000000 ≤ (tripped none none).now ∧
    Safety.mbServes (tripped none none) (request 0x19 []) 0x19 ∧ vendorHost.thm.waiting = false ∧ vendorHost.mainUp = true := by decide +kernel

theorem hyps_ThermalStatesTripsAndFans_rate : 15875 ≤ (warmHost 15875).thm.recent.length := by
  show 15875 ≤ (List.replicate 15875 (0 : Int)).length
  rw [List.length_replicate]

/-- `atRails` while a stage of the rails comes up: it would trip. -/
theorem hyps_ThermalStatesTripsAndFans_rails : (atRails 2).board.vaux = true ∧ (atRails 2).pwrState ≠ 4 ∧ (atRails 2).board.mainRunning = false ∧
    (atRails 2).board.railStage ≠ 0 ∧ (atRails 2).thm.trip = none ∧ (atRails 2).thm.faultOf 0 1 1900 = 0 := by decide +kernel

theorem hyps_PowerCommandsSetOrEnterAState : Safety.runs vendorHost (cmd 2 0 0) .service ∧ psRefused (cmd 0x80000002 0 0) = some stNotSaveable ∧
    psRefused (cmd 2 5 0) = some stInvalidField ∧ psRefused (cmd 2 2 0) = none ∧ (Safety.begun vendorHost (cmd 2 2 0)).entryRefused = none ∧
    (Safety.begun (takeHost 1) (cmd 2 2 0)).entryRefused = some 1 ∧ Safety.runs (takeHost 1) (cmd 2 2 0) .service ∧ Safety.runs vendorHost (cmd 0 0 0) .vendor :=
  ⟨by decide, by decide, by decide, by decide, by decide +kernel, by decide +kernel, by decide, by decide⟩

/-- `vendorHost` in a power state, phase, target and step, every wake enabled, with wakes latched. -/
def powered (st phase target step latched : Nat) : State :=
  let s : State := { vendorHost with
    now := 2000000000000
    pwr := { vendorHost.pwr with latched := latched, offMgmt := some 5 }
    board := { vendorHost.board with pfiLow := true } }
  State.wr (State.wr (State.wr (State.wr (State.wr (State.wr s Reg.PWR_STATUS_STATE st) Reg.PWR_STATUS_PHASE phase) Reg.PWR_STATUS_TARGET target) Reg.PWR_STATUS_STEP step)
    Reg.PWR_CFG_WAKE_MASK 255) Reg.PWR_WAKE_TIMER_S 1

theorem hyps_PowerEntriesWakesExitsAndLoss : (powered 0 1 2 1 2).pwrPhase = 1 ∧ (powered 0 1 2 1 2).pwrStep = 1 ∧ (powered 0 1 2 1 2).entryIdle = true ∧ (powered 0 1 2 1 2).pwrTarget ≤ 2 ∧
    (powered 0 1 2 1 2).pwr.latched ≠ 0 ∧ (powered 0 1 1 3 0).pwrTarget = 1 ∧ (State.wr (powered 0 1 1 3 0) Reg.PWR_CFG_DOZE_PARK 0).force Reg.PWR_CFG_DOZE_PARK = 0 ∧ (powered 0 1 4 4 0).pwrTarget = 4 ∧
    (powered 0 1 4 4 0).board.downStage = 0 ∧ (powered 2 0 0 0 0).pwrState = 2 ∧ (powered 2 0 0 0 0).pwrPhase = 0 ∧ (powered 2 0 0 0 0).board.mainRunning = true ∧
    ((powered 2 0 0 0 0).force Reg.PWR_CFG_WAKE_MASK).testBit 0 = true ∧ (powered 2 0 0 0 0).thm.trip = none ∧ (powered 4 0 0 0 0).pwrState = 4 ∧ (powered 4 0 0 0 0).board.vaux = true ∧
    (powered 4 0 0 0 0).pwr.offMgmt = some 5 ∧ 5 + 10000000000 ≤ (powered 4 0 0 0 0).now ∧ (powered 2 0 0 0 0).pwr.timerDone = false ∧
    (powered 2 0 0 0 0).pwr.steadyAt + (powered 2 0 0 0 0).force Reg.PWR_WAKE_TIMER_S * 1000000000 ≤ (powered 2 0 0 0 0).now + 10000000 ∧ (powered 2 2 0 0 0).pwrPhase = 2 ∧
    (powered 0 0 0 0 0).board.pfiLow = true ∧ (powered 0 0 0 0 0).board.pfiReport = false ∧
    (powered 0 0 0 0 0).board.pfiSince + (powered 0 0 0 0 0).rd Reg.MNT_PFI_CFG_FILTER_NS ≤ (powered 0 0 0 0 0).now + 25 := by decide +kernel

theorem hyps_PowerEntriesWakesExitsAndLoss_ends : (∃ s : State, s.board.pfiReport = true ∧ s.board.pfiLow = false ∧ s.board.pfiSince + 10000000 ≤ s.now) ∧
    ∃ s : State, s.thm.trip ≠ none ∧ s.thm.killed = false ∧ s.ftl.flush.kind ≠ 0 ∧ s.thm.tripAt + 400000000 ≤ s.now :=
  ⟨⟨{ vendorHost with now := 2000000000000, board := { vendorHost.board with pfiReport := true, pfiLow := false } }, by decide, by decide, by decide⟩,
    ⟨{ tripped (some trip1) none with
        thm := { (tripped (some trip1) none).thm with killed := false, tripAt := 0 }
        ftl := { vendorHost.ftl with flush := { vendorHost.ftl.flush with kind := 2 } } }, by decide, by decide, by decide, by decide⟩⟩

/-- `vendorHost` with slot 2 in a state, its last period sampled or not. -/
def looped (st : Nat) (sampled : Option Nat) (skips : Nat) : State :=
  State.modLoop (State.wr { vendorHost with now := 4000000000 } (Reg.MNT_LOOP_STATUS_STATE 2) st) 2 fun x => { x with sampled := sampled, skips := skips, recording := true }

theorem hyps_MantleLoopsSampleComputeAndStop : (looped 2 none 0).mainUp = true ∧ (looped 2 none 0).tooEarly 2 = false ∧
    (State.wr (looped 2 none 0) Reg.MNT_STATUS_LOSS 1 |>.modMnt fun m => { m with lossAt := 4000000000 }).tooEarly 1 = true ∧ (looped 2 none 0).fitPending 4 = false ∧ (looped 2 none 0).loopForced 2 = false ∧
    ((looped 2 none 0).loop 2).change = none ∧ (looped 2 none 0).loopState 2 = 2 ∧ ((looped 2 none 0).loop 2).workEnd ≤ (looped 2 none 0).mantleClock ∧
    ((looped 2 (some 7) 15).loop 2).sampled.isSome = true ∧ 15 ≤ ((looped 2 (some 7) 15).loop 2).skips ∧ (looped 2 (some 7) 0).lossReported = false ∧
    ((looped 2 (some 7) 0).loopCompute 2 [100]).rail = false ∧ (looped 0 none 0).loopState 2 = 0 ∧ (looped 2 none 0).answers (Reg.MNT_LOOP_CTL 2) = true ∧
    (looped 2 none 0).answers (Reg.MNT_TARGET 2) = true ∧ (looped 2 none 0).answers (Reg.MNT_LOOP_FLAGS 2) = true ∧ (looped 2 none 0).answers (Reg.MNT_TRC_CTL 2) = true ∧
    (State.setReg (looped 2 none 0) (Reg.MNT_TRC_CTL 2) (0x01000000#32 &&& 0x1FF03FFF#32)).trcSrc 2 = 0 ∧ ((List.range 8).filter fun k => (0x0A : Nat).testBit k) = [1, 3] ∧
    ((State.modLoop (looped 2 none 0) 0 fun x => { x with headAt := some 0 }).loop 0).headAt = some 0 ∧ (looped 2 none 0).rd (Reg.MNT_LOOP_STATUS_CHARGE_LIMITED 0) = 0 ∧
    (State.wr (looped 2 none 0) (Reg.MNT_LOOP_STATUS_CHARGE_LIMITED 0) 1).rd (Reg.MNT_LOOP_STATUS_CHARGE_LIMITED 0) = 1 ∧ ((looped 2 none 0).loop 0).outAt + 1000000000 ≤ (looped 2 none 0).now := by decide +kernel

/-- `vendorHost` with one string of CHEM 0 fitted, connected and at rest, in a step of its learning. -/
def strung (learn : Nat) (load : Bool) : State :=
  let s : State := { vendorHost with
    now := 2000000000000
    image := { vendorHost.image with inForce := true, cfg := [⟨0x61, 0, [(0, 1), (2, 100), (12, 4000000), (16, 48000), (18, 24000), (20, 1000), (24, 5000), (28, 9000)], []⟩] }
    mnt := { vendorHost.mnt with strs := [(0, { Str.init with mv := 40000, restAt := some 0, soc := 400000000 })], learn := some ⟨0, 400000000, 0, false, 400, 400, load⟩ } }
  State.wr (State.wr (State.wr s Reg.MNT_STATUS_CHG_PHASE 3) Reg.MNT_STATUS_CONNECTED 1) Reg.MNT_STATUS_LEARN_STATE learn

theorem hyps_StringsAreSampledChargedAndLearnt : (strung 0 true).mainUp = true ∧ (strung 0 true).strings = [0] ∧ (strung 0 true).lossReported = false ∧
    (strung 0 true).takesHold = false ∧ (strung 0 true).loopState 0 = 0 ∧ (State.wr (strung 0 true) (Reg.MNT_LOOP_STATUS_STATE 0) 2).loopState 0 ≠ 0 ∧
    (strung 1 true).learnState = 1 ∧ (strung 1 true).learnReady = true ∧ (strung 1 true).strFaulted 0 = false ∧ (strung 2 true).learnState = 2 ∧
    (strung 2 true).socNow 0 ≤ 500000000 ∧ (strung 2 false).atRest 0 = true ∧ (strung 3 false).learnState = 3 ∧ 400000000 ≤ (strung 3 false).socNow 0 ∧
    (strung 0 true).answers Reg.MNT_LEARN_CTL = true ∧ (strung 0 true).fitted 0 = true ∧ (strung 0 true).learnState = 0 ∧
    (State.wr (strung 0 true) Reg.MNT_STATUS_COMPAT 1).rd Reg.MNT_STATUS_COMPAT = 1 ∧ (strung 0 true).mnt.compatAt = none ∧ running.mainUp = true ∧
    (State.wr (strung 0 true) Reg.MNT_STATUS_CHG_PHASE 1).rd Reg.MNT_STATUS_CHG_PHASE = 1 := by decide +kernel

/-- `vendorHost` with channel 0 in a state, three channel sizes of DRAM, a scrub and (or) a retrain running on it, and line 5 of region 7 written. -/
def drammed (st : Nat) : State :=
  let s : State := { vendorHost with
    now := 2000000000000
    image := { vendorHost.image with cfg := [⟨0x50, 0, [(0, 7500), (2, 16), (3, 1), (4, 12), (8, 500)], []⟩, ⟨0x20, 0, [(4, 1)], []⟩] }
    maint := { vendorHost.maint with acts := [⟨3, 0, 0, true, false, true⟩] }
    dram := { vendorHost.dram with chans := [(0, { DrCh.init with retrain := some 5, passAt := some 0 })], rebuilds := [] } }
  State.wr s (Reg.DRC_STATUS_STATE 0) st

theorem hyps_DramReadsRefreshTracksAndTests : (drammed 1).mainUp = true ∧ 64 < (drammed 1).usableDram ∧ (drammed 1).rd (Reg.DRC_STATUS_STATE ((drammed 1).dramLine 64).1) = 1 ∧
    (drammed 1).forwarded ((drammed 1).dramLine 64).1 ((drammed 1).dramLine 64).2 = none ∧ (drammed 1).remapped 0 1 = false ∧ (drammed 1).dram.rebuilds = [] ∧
    (drammed 1).chanUp 0 = true ∧ (drammed 1).phase = 0xB ∧ (drammed 1).actRuns 3 0 = true ∧ (drammed 1).scrubLines 0 ≠ 0 ∧ ((drammed 1).drch 0).reads = [] ∧
    ((drammed 1).drch 0).retrain = some 5 ∧ ((drammed 1).drch 0).tries = 0 ∧ (∀ a ∈ (drammed 1).maint.acts, a.code ≠ 4) ∧
    (State.setPhase (drammed 0) 7).rd (Reg.DRC_STATUS_STATE 0) = 0 ∧ ((drammed 0).drch 0).fails = 0 ∧ (drammed 1).lineWritten 4000077824 = true ∧ 4000077824 < (drammed 1).usableDram ∧
    (drammed 1).rd (Reg.DRC_STATUS_STATE ((drammed 1).dramLine 4000077824).1) = 1 ∧ (drammed 1).regionOf ((drammed 1).lineAddr 0 1) = some 0 := by decide +kernel

/-- `drammed` with the test address in region 7, and its line stored. -/
def tested (b : List Byte) : State :=
  let s := State.wr64 (drammed 1) Reg.DRC_TEST_ADDR_LO Reg.DRC_TEST_ADDR_HI 100000000000
  { s with dram := { s.dram with lines := [(1562500000, b)] } }

theorem hyps_DramReadsRefreshTracksAndTests_line : (tested (List.replicate 72 0)).inTestRegion = true ∧ (tested (List.replicate 72 0)).testLine = 1562500000 ∧
    (tested (List.replicate 72 0)).storedLine 1562500000 = some (List.replicate 72 0) ∧ rsDecode (codeword (List.replicate 64 0) (List.replicate 8 0)) = .clean ∧
    rsDecode (codeword (1 :: List.replicate 63 0) (List.replicate 8 0)) = .corrected 0 1 ∧ (tested []).storedLine 1562500000 = none ∧
    (drammed 1).inTestRegion = false := by decide +kernel

/-- `vendorHost` with link 9 in a state of its training, trained to lane 16 GT/s before. -/
def linked (st : Nat) (f : Lnk → Lnk) : State :=
  State.modLnk (State.wr { vendorHost with now := 100000000000 } (Reg.JL_STATE_STATE 9) st) 9 fun x => f { x with since := 0, tsRun := 7, ts2Run := 8, window := some 5, downSince := some 1 }

/-- A valid TS1 or TS2, and one that is not. -/
def tsBlock (id : Byte) : Block := setBlock (id :: List.replicate 14 0 ++ [id])

theorem hyps_LinkTrainingFollowsItsOrderedSets : (linked 1 id).mainUp = true ∧ (linked 1 id).jlState 9 = 1 ∧ (((linked 5 id).lnk 9).retrains.filter fun t => (100000000000 : Nat) < t + 60000000000).length < 2 ∧
    isSetBlock (tsBlock 0x1E) = true ∧ tsValid 0x1E (tsBlock 0x1E).bytes = true ∧ tsValid 0x2D (tsBlock 0x1E).bytes = false ∧ tsValid 0x2D (tsBlock 0x2D).bytes = true ∧
    16 ≤ (linked 2 id).tsSent 9 ∧ 7 ≤ ((linked 2 id).lnk 9).tsRun ∧ 7 ≤ ((linked 6 id).lnk 9).ts2Run ∧ ((linked 6 id).lnk 9).full = false ∧
    ((linked 5 fun x => { x with resync := 2, parkAt := some 1 }).lnk 9).resync = 2 ∧ ((linked 5 fun x => { x with resync := 2, parkAt := some 1 }).lnk 9).parkAt ≠ none ∧
    ((linked 5 fun x => { x with recal := true }).lnk 9).recal = true ∧ (linked 7 id).jlState 9 = 7 ∧ ((linked 3 id).lnk 9).since + 2000000 ≤ (linked 3 id).now ∧
    ((linked 4 id).lnk 9).since + (((linked 4 id).lnk 9).sweep + 1) * 1000000 ≤ (linked 4 id).now ∧ ((linked 4 id).lnk 9).sweepOk = false ∧
    ((linked 4 fun x => { x with sweep := 15, best := (2500, 3, 50, 50) }).lnk 9).sweep = 15 ∧ ((linked 3 fun x => { x with idleEnd := some 5 }).lnk 9).idleEnd = some 5 ∧
    ((linked 2 id).lnk 9).window = some 5 ∧ (linked 8 id).jlState 9 = 8 ∧ ((linked 8 id).lnk 9).downRetryAt ≤ (linked 8 id).now ∧ (linked 8 id).linkState 9 ≠ 6 ∧
    ((linked 8 id).lnk 9).downSince = some 1 ∧ 1 + 60000000000 ≤ (linked 8 id).now ∧ (State.wr (linked 6 id) (Reg.JL_STATE_RATE 9) 2).jlRate 9 = 2 ∧ (linked 6 id).jlRate 9 ≠ 2 ∧
    (linked 6 id).linkRecs 9 = [] := by decide +kernel

/-- A DATA flit of SEQ 4 that acknowledges 511, all zeros, with a CRC given, scrambled from the seed; its own CRC is 0x6F9F0F3D. -/
def flitOf (crc : Nat) : List Block := (flitBlocks scrSeed (leBytes 4 0x1003FE04 ++ List.replicate 56 0 ++ leBytes 4 crc)).1

/-- Link 9 ready to take it. -/
def flitHost (f : Lnk → Lnk) : State := linked 5 fun x => f { x with resync := 0, scrRx := scrSeed, rxSeq := 4, acked := 511, unacked := [⟨0, 0, [], []⟩], margin := some 0 }

theorem hyps_LinkLayerFlitsReplayMarginAndTest : (flitHost id).mainUp = true ∧ (flitHost id).jlState 9 = 5 ∧ (flitOf 0).length = 4 ∧
    (∀ b ∈ flitOf 0, isDataBlock b = true ∧ b.bytes.length = 16) ∧ ((flitHost id).lnk 9).unacked ≠ [] ∧ ((flitHost id).lnk 9).margin = some 0 ∧
    ((flitHost id).lnk 9).ackAt + 5000 ≤ (flitHost id).now ∧ (State.wr (flitHost id) (Reg.STR_LINK_STATE 9) 4).linkState 9 = 4 ∧ (flitHost id).linkRecs 9 = [] ∧
    0 * 16 + 2 ^ (flitHost id).rd (Reg.JL_MARGIN_CTL_DWELL_LOG2 9) ≤ (flitHost id).now * 4 := by decide +kernel

theorem hyps_LinkLayerFlitsReplayMarginAndTest_flit : (blocksFlit scrSeed (flitOf 0x6F9F0F3D)).1 = leBytes 4 0x1003FE04 ++ List.replicate 56 0 ++ leBytes 4 0x6F9F0F3D ∧
    crc32c (leBytes 4 0x1003FE04 ++ List.replicate 56 0) = 0x6F9F0F3D ∧ 0x1003FE04 / 2 ^ 28 = 1 ∧ 0x1003FE04 % 512 = 4 ∧ 0x1003FE04 / 512 % 512 = 511 ∧
    (0x1003FE04 : Nat).testBit 18 = false ∧ (cutCapsules 64 (List.replicate 56 0) []).2.2 = false := by decide +kernel

/-- Link 9 ACTIVE with one capsule in and one tag of a kind outstanding. -/
def capsuleIn (kind : Nat) (c : List Byte) : State := linked 5 fun x => { x with inbox := [c], tags := [⟨3, 0, 7, kind, 2, 0, 1, false, 5⟩] }

theorem hyps_CapsulesFromABridgeAct : (capsuleIn 0 [0x41, 8, 0, 0, 3, 0, 0, 0, 1, 2]).mainUp = true ∧
    ((capsuleIn 0 [0x41, 8, 0, 0, 3, 0, 0, 0, 1, 2]).lnk 9).inbox = [[0x41, 8, 0, 0, 3, 0, 0, 0, 1, 2]] ∧
    ((capsuleIn 0 []).lnk 9).tags.find? (fun g => g.tag == byteAt [0x41, 8, 0, 0, 3] 4 && g.kind ≤ 2) = some ⟨3, 0, 7, 0, 2, 0, 1, false, 5⟩ ∧
    (capsuleIn 0 []).opRec 1 7 = none ∧ (capsuleIn 0 []).linkRecs 9 = [] ∧ ((capsuleIn 0 []).lnk 9).quarantined.length < 63 ∧ ((capsuleIn 0 []).lnk 9).identAt = none ∧
    (((capsuleIn 4 []).lnk 9).tags.filter fun g => g.since + (if g.kind = 4 then 10000000 else 500000) ≤ (capsuleIn 4 []).now) = [⟨3, 0, 7, 4, 2, 0, 1, false, 5⟩] ∧
    crossed ((capsuleIn 0 []).lnk 9).warm (signed 16 320) ((capsuleIn 0 []).force Reg.THM_BRIDGE_WARN_C) = ((capsuleIn 0 []).lnk 9).warm ∧
    crossed ((capsuleIn 0 []).lnk 9).hot (signed 16 320) ((capsuleIn 0 []).force Reg.THM_BRIDGE_ENFORCE_C) = ((capsuleIn 0 []).lnk 9).hot ∧
    (capsuleIn 0 []).jlState 9 = 5 ∧ ((capsuleIn 0 []).lnk 9).tempAt + 50000000 ≤ (capsuleIn 0 []).now ∧
    (capsuleIn 0 []).rd (Reg.JL_BRIDGE_STATUS_TEMP_STALE 9) = 0 := by decide +kernel

/-- `vendorHost` as a LOCKED member with symbol lock on both ports. -/
def chained (st : Nat) : State := { vendorHost with stp := { vendorHost.stp with delays := [0], members := [(5, 0)], seen := [(9, 1)] } }
  |>.wr Reg.STP_STATUS_UP_LOCK 1 |>.wr Reg.STP_STATUS_DN_LOCK 1 |>.wr Reg.STP_STATUS_UP_CAL 1 |>.wr Reg.STP_STATUS_STATE st

/-- A message of a type with a payload of zeros but for its UID and ID; crc is its CRC. -/
def stpMsg (ty len crc : Nat) : List Byte := leBytes 1 ty ++ leBytes 1 len ++ [0, 0, 3, 0, 0, 0] ++ List.replicate len 0 ++ leBytes 4 crc

theorem hyps_SteepleMessagesAct : (chained 3).mainUp = true ∧ (chained 3).stpUp = true ∧ (chained 3).stpPorts = true ∧ (chained 3).rd Reg.STP_STATUS_UP_LOCK = 1 ∧
    (chained 3).rd Reg.STP_STATUS_DN_LOCK = 1 ∧ parseMsg [] = none ∧ (chained 3).rd Reg.STP_STATUS_UP_CAL = 1 ∧ (chained 3).stpState = 3 ∧
    ((0 : Int) + (chained 3).hopDelay - (chained 3).steepleFrac).natAbs ≤ 262144 ∧ (chained 3).stp.delays.length < 1023 ∧ (chained 3).stp.dnCount < 1023 ∧
    (chained 3).seenBefore 0 0 = false ∧ (chained 3).seenBefore 9 1 = true ∧ (chained 2).stpState = 2 ∧ ((chained 3).wake 5).fireDue.openTakes = [] ∧
    (chained 3).rd Reg.STP_STATUS_CHAIN_END = 0 := by decide +kernel

theorem hyps_SteepleMessagesAct_message : parseMsg (stpMsg 1 4 2538263778) = some ⟨1, 3, 0, [0, 0, 0, 0]⟩ := by decide +kernel

theorem hyps_SteepleLocksStatesAndReferences : (chained 3).mainUp = true ∧ (chained 3).stpUp = true ∧ (chained 3).stpPorts = true ∧ (chained 3).rd Reg.STP_STATUS_UP_LOCK = 1 ∧
    (chained 3).rd Reg.STP_STATUS_DN_LOCK = 1 ∧ vendorHost.rd Reg.STP_STATUS_UP_LOCK = 0 ∧ (chained 1).stpState = 1 ∧ (chained 1).role = 0 ∧
    (let s : State := { chained 1 with now := 100000000 }; s.stp.timeAt = none ∧ s.stp.acquireAt + 100000000 ≤ s.now) ∧
    (let s : State := { chained 3 with stp := { (chained 3).stp with slew := 200, slewEnd := 0 } }; s.stp.slew ≠ 0 ∧ s.stp.slewEnd ≤ s.now) ∧
    (let s : State := State.wr (chained 2) Reg.STP_CFG_REF 3;
      s.stpState = 2 ∧ (s.force Reg.STP_CFG_REF).testBit 0 = true ∧ (s.force Reg.STP_CFG_REF).testBit 1 = true) ∧
    (secondError (chained 2).steepleFrac).natAbs ≤ 6553600 ∧ (chained 2).openTakes = [] ∧
    ((chained 2).wr Reg.STP_STATUS_REF_10M_LOCK 1).rd Reg.STP_STATUS_REF_10M_LOCK = 1 ∧
    (let s : State := { chained 2 with stp := { (chained 2).stp with casts := [⟨4, [], 5, 0, 1⟩] }, now := 20000 };
      s.stp.casts = [⟨4, [], 5, 0, 1⟩] ∧ 0 + 20000 ≤ s.now) := by decide +kernel

/-- `vendorHost` with an SPDM connection as far as a stage. -/
def spdmHost (stage : Nat) : State := { vendorHost with port := { vendorHost.port with stage := stage } }

theorem hyps_SpdmResponderAnswers : (spdmHost 3).belfryRuns = true ∧ (spdmHost 3).port.stage = 3 ∧ (spdmHost 0).port.stage < 1 ∧ byteAt [0x12, 0x84] 0 = 0x12 ∧ byteAt [0x12, 0x84] 1 = 0x84 ∧
    byteAt [0x12, 0x83, 2] 2 % 16 = 2 ∧ byteAt [0x12, 0xE0, 0, 0xFF] 3 = 0xFF := by decide +kernel

theorem hyps_SpdmResponderAnswers_chain : 0 < ((spdmHost 3).certChain 0).length := by simp [State.certChain, chainOf, leBytes]

end Sys2Proof.Tests
end

section
/-!
PROOFS. Scope: accesses to the register file and W1C status bits (00_scope.md Table 0.3, R11, R12, R18; 05 R150).
-/
namespace Sys2Proof.Machine

/-! ### Tables and registers written twice -/

section
variable {V : Type} [DecidableEq V] {d : Nat → V}

/-- A write leaves the entries below its key. -/
theorem filter_lt_mapSet (m : SMap V) (k : Nat) (v : V) :
    (mapSet d m k v).filter (fun (e : Nat × V) => e.1 < k) = m.filter fun (e : Nat × V) => e.1 < k := by
  have hmid : (if v = d k then [] else [(k, v)] : SMap V).filter (fun (e : Nat × V) => e.1 < k) = [] := by split <;> simp
  rw [mapSet, List.filter_append, List.filter_append, hmid]
  simpa using fun _ _ _ => le_of_lt

/-- A write leaves the entries above its key. -/
theorem filter_gt_mapSet (m : SMap V) (k : Nat) (v : V) :
    (mapSet d m k v).filter (fun (e : Nat × V) => k < e.1) = m.filter fun (e : Nat × V) => k < e.1 := by
  have hmid : (if v = d k then [] else [(k, v)] : SMap V).filter (fun (e : Nat × V) => k < e.1) = [] := by split <;> simp
  rw [mapSet, List.filter_append, List.filter_append, hmid]
  simpa using fun _ _ _ => le_of_lt

/-- Of two writes at one key the later one stays. -/
theorem mapSet_mapSet (m : SMap V) (k : Nat) (v w : V) : mapSet d (mapSet d m k v) k w = mapSet d m k w := by
  rw [mapSet, filter_lt_mapSet, filter_gt_mapSet, mapSet]

end

@[simp] theorem setReg_setReg (s : State) (off : Nat) (v w : Word) : (s.setReg off v).setReg off w = s.setReg off w := by
  simp [State.setReg, mapSet_mapSet]

theorem rd_setReg_other {s : State} {off : Nat} {w : Word} {f : Field} (h : f.off ≠ off) : (s.setReg off w).rd f = s.rd f := by
  rw [State.rd, reg_setReg_other h, State.rd]

/-- Only a write of PWR_STATUS can change which accesses are answered. -/
theorem answers_setReg {s : State} {off : Nat} {w : Word} (h : off ≠ Reg.PWR_STATUS) (o : Nat) :
    (s.setReg off w).answers o = s.answers o := by
  have hrd : (s.setReg off w).rd Reg.PWR_STATUS_STATE = s.rd Reg.PWR_STATUS_STATE := rd_setReg_other (Ne.symm h)
  simp only [State.answers, State.mainUp, State.setReg_board, hrd]

/-! ### A write by the access codes (00 Table 0.3) -/

/-- What a register holds after a write by its access codes. -/
def RegDesc.written (d : RegDesc) (old data : Word) : Word :=
  ((old &&& ~~~BitVec.ofNat 32 d.rw) ||| (data &&& BitVec.ofNat 32 d.rw)) &&& ~~~(data &&& BitVec.ofNat 32 d.w1c)

theorem RegDesc.getLsbD_written (d : RegDesc) (old data : Word) {j : Nat} (hj : j < 32) :
    (d.written old data).getLsbD j =
      if d.w1c.testBit j && data.getLsbD j then false else if d.rw.testBit j then data.getLsbD j else old.getLsbD j := by
  simp only [RegDesc.written, BitVec.getLsbD_and, BitVec.getLsbD_or, BitVec.getLsbD_not, BitVec.getLsbD_ofNat, hj,
    decide_true, Bool.true_and]
  cases d.rw.testBit j <;> simp [Bool.and_comm]

theorem plainWrite_eq {s : State} {off : Nat} {d : RegDesc} (hd : regDesc off = some d) (data : Word) :
    s.plainWrite off data = s.setReg off (d.written (s.reg off) data) := by
  simp only [State.plainWrite, hd, RegDesc.written]

/-- A write that no block takes for itself goes by the access codes. -/
theorem applyWrite_of_plainWriteTo {s : State} {agent off : Nat} {data : Word} (h : Safety.plainWriteTo s agent off data) :
    s.applyWrite agent off data = s.plainWrite off data := by
  obtain ⟨hrwf, hglobal, htake, hlink, hmantle, hmailbox, htest⟩ := h
  simp [State.applyWrite, hrwf, hglobal, htake, hlink, hmantle, hmailbox, htest]

/-! ### An access to BAR2 -/

theorem exec_registerWrite_bar2 (a : Fin 8) (off bits data : Nat) (s : State) :
    exec (.registerWrite a (.bar2 off) bits data) s = .next (s.busWrite a.val off bits data) := rfl

theorem busWrite_aligned32 {s : State} {agent off : Nat} (data : Nat) (hacc : s.accesses agent = true) (hoff : off % 4 = 0)
    (hans : s.answers off = true) : s.busWrite agent off 32 data = s.applyWrite agent off (BitVec.ofNat 32 data) := by
  simp [State.busWrite, State.write32, hacc, hoff, hans]

theorem busWrite_misaligned {s : State} {agent off bits : Nat} (data : Nat) (hacc : s.accesses agent = true)
    (hup : s.mainUp = true) (h32 : ¬(bits = 32 ∧ off % 4 = 0)) (h64 : ¬(bits = 64 ∧ off % 8 = 0)) :
    s.busWrite agent off bits data = s.violation 1 agent off := by
  rw [State.busWrite, hacc, if_neg (by simp), if_neg h32, if_neg h64, if_pos hup]

/-! ### Access violations (05 R150) -/

/-- The state with the place of an access in the violation registers. -/
def State.violationKept (s : State) (kind agent off : Nat) : State :=
  (((s.wr Reg.GBL_ACCESS_VIOL_KIND kind).wr Reg.GBL_ACCESS_VIOL_AGENT agent).wr Reg.GBL_ACCESS_VIOL_OFFSET off).wr
    Reg.GBL_ACCESS_VIOL_CTL_VALID 1

theorem violation_eq (s : State) (kind agent off : Nat) : s.violation kind agent off =
    (if s.rd Reg.GBL_ACCESS_VIOL_CTL_VALID = 1 then s.bump Reg.GBL_ACCESS_VIOL_CTL_COUNT
      else (s.bump Reg.GBL_ACCESS_VIOL_CTL_COUNT).violationKept kind agent off).raise 1796 := rfl

theorem violationKept_reg {s : State} {kind agent off o : Nat} (hv : o ≠ Reg.GBL_ACCESS_VIOL) (hc : o ≠ Reg.GBL_ACCESS_VIOL_CTL) :
    (s.violationKept kind agent off).reg o = s.reg o := by
  rw [State.violationKept, reg_wr_other hc, reg_wr_other hv, reg_wr_other hv, reg_wr_other hv]

theorem violationKept_rd (s : State) (kind agent off : Nat) :
    (s.violationKept kind agent off).rd Reg.GBL_ACCESS_VIOL_CTL_VALID = 1 ∧
    (s.violationKept kind agent off).rd Reg.GBL_ACCESS_VIOL_KIND = kind % 8 ∧
    (s.violationKept kind agent off).rd Reg.GBL_ACCESS_VIOL_AGENT = agent % 8 ∧
    (s.violationKept kind agent off).rd Reg.GBL_ACCESS_VIOL_OFFSET = off % 2 ^ 26 := by
  refine ⟨rd_wr (by decide), ?_, ?_, ?_⟩
  · rw [State.violationKept, rd_wr_off (by decide), rd_wr_apart (by decide), rd_wr_apart (by decide), rd_wr (by decide)]
    rfl
  · rw [State.violationKept, rd_wr_off (by decide), rd_wr_apart (by decide), rd_wr (by decide)]
    rfl
  · rw [State.violationKept, rd_wr_off (by decide), rd_wr (by decide)]
    rfl

/-- A violation changes registers, the controllers and the interrupt side, and nothing else. -/
theorem violation_frame (s : State) (kind agent off : Nat) :
    ∃ r e n, s.violation kind agent off = { s with regs := r, evt := e, nvme := n } := by
  rw [violation_eq]
  split
  · obtain ⟨r, e, n, h, -⟩ := raise_frame (s.bump Reg.GBL_ACCESS_VIOL_CTL_COUNT) 1796
    exact ⟨r, e, n, h⟩
  · obtain ⟨r, e, n, h, -⟩ := raise_frame ((s.bump Reg.GBL_ACCESS_VIOL_CTL_COUNT).violationKept kind agent off) 1796
    exact ⟨r, e, n, h⟩

theorem violation_reg {s : State} {kind agent off o : Nat} (hv : o ≠ Reg.GBL_ACCESS_VIOL) (hc : o ≠ Reg.GBL_ACCESS_VIOL_CTL)
    (hs : o ≠ statusOff 1796) : (s.violation kind agent off).reg o = s.reg o := by
  have hcount : (s.bump Reg.GBL_ACCESS_VIOL_CTL_COUNT).reg o = s.reg o := reg_wr_other hc
  rw [violation_eq, raise_reg hs]
  split
  · exact hcount
  · rw [violationKept_reg hv hc, hcount]

theorem violation_valid (s : State) (kind agent off : Nat) :
    (s.violation kind agent off).rd Reg.GBL_ACCESS_VIOL_CTL_VALID = 1 := by
  rw [violation_eq, raise_rd (by decide)]
  split
  · rename_i hvalid
    rw [State.bump, rd_wr_apart (by decide), hvalid]
  · exact (violationKept_rd _ _ _ _).1

/-- The first violation since VALID was cleared is the one recorded. -/
theorem violation_recorded {s : State} (h : s.rd Reg.GBL_ACCESS_VIOL_CTL_VALID = 0) (kind agent off : Nat) :
    (s.violation kind agent off).rd Reg.GBL_ACCESS_VIOL_KIND = kind % 8 ∧
    (s.violation kind agent off).rd Reg.GBL_ACCESS_VIOL_AGENT = agent % 8 ∧
    (s.violation kind agent off).rd Reg.GBL_ACCESS_VIOL_OFFSET = off % 2 ^ 26 := by
  rw [violation_eq, if_neg (by simp [h]), raise_rd (by decide), raise_rd (by decide), raise_rd (by decide)]
  exact (violationKept_rd _ _ _ _).2

/-! ### Status bits of event sources (00 R18, 05 R168) -/

theorem statusOff_eq (w : Nat) {j : Nat} (hj : j < 32) : statusOff (32 * w + j) = Reg.EVT_STATUS w := by
  unfold statusOff Reg.EVT_STATUS
  omega

theorem evtStatus_eq (s : State) (w : Nat) {j : Nat} (hj : j < 32) :
    s.evtStatus (32 * w + j) = (s.reg (Reg.EVT_STATUS w)).getLsbD j := by
  rw [State.evtStatus, statusOff_eq w hj, show (32 * w + j) % 32 = j by omega]

/-- A source that occurs sets its own status and no other. -/
theorem evtStatus_raise (s : State) (src x : Nat) : (s.raise src).evtStatus x = (s.evtStatus x || src == x) := by
  obtain ⟨_, _, _, -, hother, hsame⟩ := raise_frame s src
  unfold State.evtStatus
  by_cases hoff : statusOff x = statusOff src
  · rw [hoff, hsame, BitVec.getLsbD_or, BitVec.getLsbD_ofNat, Nat.testBit_two_pow]
    have hword : x / 32 = src / 32 := by unfold statusOff at hoff; omega
    have hbit : (src % 32 = x % 32) = (src = x) := by apply propext; omega
    simp [Nat.mod_lt, hbit, beq_eq_decide]
  · have hne : (src == x) = false := beq_false_of_ne fun h => hoff (h ▸ rfl)
    rw [hother _ hoff, hne, Bool.or_false]

/-- Sources that occur one after the other set their own statuses and no other. -/
theorem evtStatus_foldl_raise (p : Nat → Bool) (src : Nat → Nat) (l : List Nat) (s : State) (x : Nat) :
    (l.foldl (fun t j => if p j then t.raise (src j) else t) s).evtStatus x =
      (s.evtStatus x || l.any fun j => p j && src j == x) := by
  induction l generalizing s with
  | nil => simp
  | cons k l ih =>
    rw [List.foldl_cons, ih, List.any_cons]
    cases p k
    · simp
    · simp [evtStatus_raise, Bool.or_assoc]

/-- What a W1C write leaves of a status word: a bit that is written 1 clears, unless its source occurs in the same clock. -/
theorem evtStatus_statusClear (s : State) (w : Nat) (data arriving : Word) {j : Nat} (hj : j < 32) :
    (s.statusClear w data arriving).evtStatus (32 * w + j) =
      (arriving.getLsbD j || (s.evtStatus (32 * w + j) && !data.getLsbD j)) := by
  have harrive : ((List.range 32).any fun k => arriving.getLsbD k && 32 * w + k == 32 * w + j) = arriving.getLsbD j := by
    rw [Bool.eq_iff_iff, List.any_eq_true]
    simp [hj]
  rw [State.statusClear, evtStatus_foldl_raise, harrive, evtStatus_eq _ w hj, reg_setReg_same, evtStatus_eq s w hj]
  simp only [BitVec.getLsbD_and, BitVec.getLsbD_not, hj, decide_true, Bool.true_and]
  cases arriving.getLsbD j <;> simp

/-- With no source occurring in the same clock the write is one of the register. -/
theorem statusClear_quiet (s : State) (w : Nat) (data : Word) :
    s.statusClear w data 0 = s.setReg (Reg.EVT_STATUS w) (s.reg (Reg.EVT_STATUS w) &&& ~~~data) := by
  have hdata : data &&& ~~~(0 : Word) = data := BitVec.and_allOnes
  rw [State.statusClear, hdata]
  simp

/-- A clear of bits that are clear changes nothing more. -/
theorem statusClear_idem (s : State) (w : Nat) (data : Word) :
    (s.statusClear w data 0).statusClear w data 0 = s.statusClear w data 0 := by
  simp only [statusClear_quiet, reg_setReg_same, setReg_setReg, BitVec.and_assoc, BitVec.and_self]

theorem exec_evtStatusClear {a : Fin 8} {w : Fin 66} {s : State} (data arriving : Word)
    (h : s.answers (Reg.EVT_STATUS w.val) = true) :
    exec (.evtStatusClear a w data arriving) s = .next (s.statusClear w.val data arriving) := by
  change execEvtStatusClear a w data arriving s = _
  rw [execEvtStatusClear, if_pos h]

end Sys2Proof.Machine

open Sys2Proof
open Sys2Proof.Machine

/-- Settles O13: the write reaches `State.plainWrite`, which is the write of one register by the masks of its descriptor. -/
theorem registerWriteFollowsAccessCodes : Obligations.RegisterWriteFollowsAccessCodes := by
  intro a off data d s hacc hoff hans hd hplain
  refine ⟨s.setReg off (d.written (s.reg off) (BitVec.ofNat 32 data)), ?_, fun j hj => ?_, fun o ho => reg_setReg_other ho, rfl⟩
  · rw [exec_registerWrite_bar2, busWrite_aligned32 data hacc hoff hans, applyWrite_of_plainWriteTo hplain, plainWrite_eq hd]
  · rw [reg_setReg_same, d.getLsbD_written _ _ hj, BitVec.getLsbD_ofNat, decide_eq_true hj, Bool.true_and]

/-- Settles O14: such a write comes to `State.violation` and to nothing else. -/
theorem misalignedWriteIsDiscarded : Obligations.MisalignedWriteIsDiscarded := by
  intro a off bits data s hacc hup h32 h64
  refine ⟨s.violation 1 a.val off, ?_, violation_valid s 1 a.val off, fun hvalid => ?_,
    fun o hv hc hs => violation_reg hv hc hs, ?_⟩
  · rw [exec_registerWrite_bar2, busWrite_misaligned data hacc hup h32 h64]
  · obtain ⟨hkind, hagent, hoffset⟩ := violation_recorded hvalid 1 a.val off
    exact ⟨hkind, hagent.trans (Nat.mod_eq_of_lt a.isLt), hoffset⟩
  · obtain ⟨r, e, n, h⟩ := violation_frame s 1 a.val off
    rw [h]

/-- Settles O16: a bit survives a clear where it is not written 1 or arrives again, and a clear is idempotent. -/
theorem eventStatusClearAndArrival : Obligations.EventStatusClearAndArrival := by
  intro a w data arriving s hans
  have hpwr : Reg.EVT_STATUS w.val ≠ Reg.PWR_STATUS := by
    unfold Reg.EVT_STATUS Reg.PWR_STATUS
    omega
  have hans' : (s.statusClear w.val data 0).answers (Reg.EVT_STATUS w.val) = true := by
    rw [statusClear_quiet, answers_setReg hpwr, hans]
  refine ⟨⟨_, exec_evtStatusClear data arriving hans, fun j hj => evtStatus_statusClear s w.val data arriving hj⟩,
    _, exec_evtStatusClear data 0 hans, ?_, fun o ho => ?_⟩
  · rw [exec_evtStatusClear data 0 hans', statusClear_idem]
  · rw [statusClear_quiet, reg_setReg_other ho]

end

section
/-!
PROOFS. Scope: the admission gate and the dirty-window governor (01 R29 to R35, 10 R362 to R369).
-/
namespace Sys2Proof.Machine

/-! ### Commands of the write path -/

theorem wcmd_id {s : State} {i : Nat} {w : WCmd} (h : s.wcmd i = some w) : w.id = i := by
  simpa using List.find?_some h

/-- A change of one command that keeps its number is seen at that number. -/
theorem wcmd_modW {s : State} {i : Nat} {w : WCmd} {g : WCmd → WCmd} (h : s.wcmd i = some w) (hg : ∀ x, (g x).id = x.id) :
    (s.modW i g).wcmd i = some (g w) := by
  have hid : ∀ x : WCmd, ((if x.id == i then g x else x).id == i) = (x.id == i) := fun x => by split <;> simp [hg]
  have hfind : (s.modW i g).wcmd i = (s.wcmd i).map fun x => if x.id == i then g x else x := by
    simp only [State.wcmd, State.modW, State.modPath, List.find?_map, Function.comp_def, hid]
  rw [hfind, h, Option.map_some, if_pos (beq_iff_eq.mpr (wcmd_id h))]

/-! ### Granting a chunk -/

theorem askChunk_frame (s : State) (c : WCmd) (rt : Bool) :
    ∃ l n, s.askChunk c rt = { s with win := { s.win with waiting := l, chunkSeq := n } } := by
  unfold State.askChunk
  dsimp only
  split
  · exact ⟨s.win.waiting, s.win.chunkSeq, rfl⟩
  · exact ⟨_, _, rfl⟩

theorem gateClosed_showWt (s : State) : s.showWt.gateClosed = s.gateClosed := by
  rw [State.gateClosed, State.showWt, rd_wr_apart (by decide), State.gateClosed]

/-- A grant counts the chunk into occupancy and for its command (R29). -/
theorem grant_spec {s : State} {r : ChunkReq} {c : WCmd} (h : s.wcmd c.id = some c) :
    (s.grant r c).win.occ = s.win.occ + r.bytes ∧ (s.grant r c).gateClosed = s.gateClosed ∧
    (∃ x, (s.grant r c).wcmd c.id = some x ∧ x.granted = c.granted + r.bytes ∧ x.lsas = c.lsas) ∧
    (s.grant r c).ftl = s.ftl ∧ (s.grant r c).nvme = s.nvme := by
  unfold State.grant
  extract_lets s1 s2 s3 life s4
  have hc : s2.wcmd c.id = some { c with
      granted := c.granted + r.bytes, wt := match c.wt with | some b => some b | none => some s.degraded } :=
    wcmd_modW (s := s1) h fun _ => rfl
  obtain ⟨l, n, h3⟩ : ∃ l n, s3 = { s2 with win := { s2.win with waiting := l, chunkSeq := n } } := by
    simp only [s3, hc]
    exact askChunk_frame _ _ _
  have h4 : s4.showWt.wcmd c.id = s2.wcmd c.id := by
    simp only [s4, h3]
    rfl
  refine ⟨?_, ?_, ⟨_, h4.trans hc, rfl, rfl⟩, ?_, ?_⟩
  · simp only [s4, h3]
    rfl
  · rw [gateClosed_showWt]
    simp only [s4, h3]
    rfl
  · simp only [s4, h3]
    rfl
  · simp only [s4, h3]
    rfl

/-! ### The gate closes -/

/-- The gate closes: it shows so, and nothing of the window or the path changes; a gate that was open raises source 1,720 (R31). -/
theorem shutGate_spec (s : State) : s.shutGate.gateClosed = true ∧ s.shutGate.win = s.win ∧ s.shutGate.path = s.path ∧
    (s.gateClosed = false → s.shutGate.evtStatus 1720 = true) := by
  unfold State.shutGate
  split
  · rename_i hclosed
    exact ⟨hclosed, rfl, rfl, fun hopen => by simp [hclosed] at hopen⟩
  · obtain ⟨-, -, -, -, -, -, hwin, hpath, -⟩ := raise_parts (s.wr Reg.STR_DW_STATUS_GATE_CLOSED 1) 1720
    refine ⟨?_, hwin, hpath, fun _ => raise_status _ _⟩
    rw [State.gateClosed, raise_rd (by decide), rd_wr (by decide)]
    rfl

/-- The gate's decision where nothing holds it up: by the request next in order (R29, R31, R363, R364). -/
theorem chunkGrant_of_open {s : State} {r : ChunkReq} {c : WCmd} (hopen : s.gateClosed = false) (hfetch : s.nvme.fetchStopped = false)
    (hready : s.win.limitReady = true) (hr : nextReq s.win.waiting = some r) (hc : s.wcmd r.cmd = some c) :
    s.chunkGrant =
      if s.limitMib * mib < s.win.occ + r.bytes then
        ((s.bump Reg.STR_ADM_REFUSALS_COUNT).modWin fun w => { w with refused := true }).shutGate
      else if s.rd Reg.STR_ADM_METER_MBPS ≠ 0 ∧ s.tokensNow < r.bytes then s
      else s.grant r c := by
  rw [State.chunkGrant, if_neg (by simp [hopen, hfetch, hready]), hr]
  dsimp only
  rw [hc]

theorem chunkGrant_of_closed {s : State} (h : s.gateClosed = true) : s.chunkGrant = s := by
  rw [State.chunkGrant, if_pos (by simp [h])]

theorem exec_chunkGrant {s : State} (h : s.mainUp = true) : exec .chunkGrant s = .next s.chunkGrant := by
  change Host.Outcome.next (if s.mainUp then s.chunkGrant else s) = _
  rw [if_pos h]

theorem exec_bulkPromotion {s : State} (h : s.mainUp = true) : exec .bulkPromotion s = .next s.promote := by
  change Host.Outcome.next (if s.mainUp then s.promote else s) = _
  rw [if_pos h]

theorem exec_degradedExit {s : State} (h : s.mainUp = true) : exec .degradedExit s = .next s.degradedExit := by
  change Host.Outcome.next (if s.mainUp then s.degradedExit else s) = _
  rw [if_pos h]

/-- The governor's tick, where no value of class GOVERNOR waits to be adopted (05 R161). -/
theorem exec_governorTick {s : State} (h : s.mainUp = true) (hfit : (s.rd Reg.FIT_PENDING_CLASS).testBit 0 = false) :
    exec .governorTick s = .next s.governorTick := by
  change Host.Outcome.next (if s.mainUp then (s.fitAdoptClass 0).governorTick else s) = _
  rw [if_pos h, State.fitAdoptClass, if_neg (by simp [hfit])]

/-! ### What the window's events leave alone -/

/-- These fields read as before, and the path, the translation, occupancy and the candidates stand. -/
structure WindowKept (fs : List Field) (s t : State) : Prop where
  rd : ∀ f ∈ fs, t.rd f = s.rd f
  path : t.path = s.path
  ftl : t.ftl = s.ftl
  occ : t.win.occ = s.win.occ
  cands : t.win.cands = s.win.cands
  limitReady : t.win.limitReady = s.win.limitReady

theorem WindowKept.refl (fs : List Field) (s : State) : WindowKept fs s s := ⟨fun _ _ => rfl, rfl, rfl, rfl, rfl, rfl⟩

theorem WindowKept.trans {fs : List Field} {s t u : State} (h : WindowKept fs s t) (g : WindowKept fs t u) : WindowKept fs s u :=
  ⟨fun f hf => (g.rd f hf).trans (h.rd f hf), g.path.trans h.path, g.ftl.trans h.ftl, g.occ.trans h.occ, g.cands.trans h.cands,
    g.limitReady.trans h.limitReady⟩

theorem WindowKept.mono {fs gs : List Field} {s t : State} (h : WindowKept gs s t) (hsub : fs ⊆ gs) : WindowKept fs s t :=
  ⟨fun f hf => h.rd f (hsub hf), h.path, h.ftl, h.occ, h.cands, h.limitReady⟩

/-- A write of a field apart from these. -/
theorem WindowKept.wr {fs : List Field} (s : State) {g : Field} (v : Nat)
    (h : ∀ f ∈ fs, f.off ≠ g.off ∨ f.lsb + f.width ≤ g.lsb ∨ g.lsb + g.width ≤ f.lsb) : WindowKept fs s (s.wr g v) :=
  ⟨fun f hf => (h f hf).elim (fun hoff => rd_wr_off hoff) fun hapart => rd_wr_apart hapart, rfl, rfl, rfl, rfl, rfl⟩

/-- A change of the gate's own state that leaves occupancy and the candidates. -/
theorem WindowKept.modWin {fs : List Field} (s : State) {g : Window → Window} (hocc : (g s.win).occ = s.win.occ)
    (hcands : (g s.win).cands = s.win.cands) (hready : (g s.win).limitReady = s.win.limitReady) : WindowKept fs s (s.modWin g) :=
  ⟨fun _ _ => rfl, rfl, rfl, hocc, hcands, hready⟩

theorem WindowKept.raise {fs : List Field} (s : State) {src : Nat} (h : ∀ f ∈ fs, f.off ≠ statusOff src) :
    WindowKept fs s (s.raise src) := by
  obtain ⟨-, -, -, -, -, -, hwin, hpath, hftl, -⟩ := raise_parts s src
  exact ⟨fun f hf => raise_rd (h f hf), hpath, hftl, by rw [hwin], by rw [hwin], by rw [hwin]⟩

theorem record_rd {s : State} {ty severity : Nat} {data : List Nat} {f : Field}
    (hlo : f.off ≠ Reg.BEL_LOG_SEQ_LO) (hhi : f.off ≠ Reg.BEL_LOG_SEQ_HI) (hsrc : f.off ≠ statusOff 1782) :
    (s.record ty severity data).rd f = s.rd f := by
  unfold State.record
  dsimp only
  split
  · rw [raise_rd hsrc, State.wr64, rd_setReg_other hhi, rd_setReg_other hlo]
    rfl
  · rw [State.wr64, rd_setReg_other hhi, rd_setReg_other hlo]
    rfl

theorem WindowKept.record {fs : List Field} (s : State) (ty severity : Nat) (data : List Nat)
    (h : ∀ f ∈ fs, f.off ≠ Reg.BEL_LOG_SEQ_LO ∧ f.off ≠ Reg.BEL_LOG_SEQ_HI ∧ f.off ≠ statusOff 1782) :
    WindowKept fs s (s.record ty severity data) := by
  obtain ⟨l, r, e, n, hrec⟩ := record_frame s ty severity data
  refine ⟨fun f hf => ?_, by rw [hrec], by rw [hrec], by rw [hrec], by rw [hrec], by rw [hrec]⟩
  obtain ⟨hlo, hhi, hsrc⟩ := h f hf
  exact record_rd hlo hhi hsrc

theorem WindowKept.tally {fs : List Field} (s : State) (off n : Nat) : WindowKept fs s (s.tally off n) := by
  obtain ⟨l, h⟩ := tally_frame s off n
  rw [h]
  exact ⟨fun _ _ => rfl, rfl, rfl, rfl, rfl, rfl⟩

/-- What a governor's tick shows of the limit. -/
def limitFields : List Field := [Reg.STR_DW_CAND_MIB, Reg.STR_DW_LIMIT_MIB, Reg.STR_DW_GAP_MIB]

/-- The gate opening records the intervals of R33, and leaves the limit and DEGRADED. -/
theorem openGate_kept (s : State) : WindowKept (Reg.STR_DW_STATUS_DEGRADED :: limitFields) s s.openGate := by
  unfold State.openGate
  split
  · exact .refl _ s
  · extract_lets quiet s1 s2
    have h1 : WindowKept (Reg.STR_DW_STATUS_DEGRADED :: limitFields) s s1 :=
      (WindowKept.wr s 0 (by decide)).trans (.modWin _ rfl rfl rfl)
    have h2 : WindowKept (Reg.STR_DW_STATUS_DEGRADED :: limitFields) s s2 := by
      unfold s2
      split
      · exact h1
      · exact h1.trans (.raise _ (by decide))
    refine List.foldlRecOn (motive := WindowKept _ s) _ _ (h2.trans (.modWin _ rfl rfl rfl)) fun t ht f _ => ?_
    cases f with
    | nil => exact ht
    | cons a rest => exact ht.trans (((WindowKept.record t _ _ _ (by decide)).trans (.tally _ _ _)).trans (.tally _ _ _))

theorem reopenGate_kept (s : State) : WindowKept (Reg.STR_DW_STATUS_DEGRADED :: limitFields) s s.reopenGate := by
  unfold State.reopenGate
  split
  · exact openGate_kept s
  · exact .refl _ s

/-- A gate that has refused stays closed while occupancy is above the limit (R31). -/
theorem reopenGate_of_above {s : State} (href : s.win.refused = true) (hocc : s.limitMib * mib < s.win.occ) :
    s.reopenGate = s := by
  have hbelow : s.belowGap = false := by
    have hle : (s.limitMib - gapMib s.limitMib) * mib ≤ s.limitMib * mib := Nat.mul_le_mul_right _ (Nat.sub_le _ _)
    simp only [State.belowGap, decide_eq_false_iff_not]
    omega
  rw [State.reopenGate, if_neg (by simp [href, hbelow])]

/-- An operation on the controllers and the interrupt side leaves the window. -/
theorem smartAen_frame (s : State) (bit info : Nat) : ∃ e n, s.smartAen bit info = { s with evt := e, nvme := n } := by
  unfold State.smartAen
  exact foldl_evt_frame _ (fun t c => by
    split
    · exact aen_frame t _ _
    · exact ⟨t.evt, t.nvme, rfl⟩) _ _

/-- Entering DEGRADED leaves the limit, the gate and the window. -/
theorem enterDegraded_spec (s : State) : s.enterDegraded.degraded = true ∧ s.enterDegraded.win = s.win ∧
    WindowKept (Reg.STR_DW_STATUS_GATE_CLOSED :: limitFields) s s.enterDegraded := by
  unfold State.enterDegraded
  split
  · exact ⟨‹_›, rfl, .refl _ s⟩
  · have hkept : WindowKept (Reg.STR_DW_STATUS_GATE_CLOSED :: limitFields) s
        (((s.wr Reg.STR_DW_STATUS_DEGRADED 1).wr Reg.MNT_STATUS_DEGRADED 1).raise 1723) :=
      ((WindowKept.wr s 1 (by decide)).trans (.wr _ 1 (by decide))).trans (.raise _ (by decide))
    have hdeg : (((s.wr Reg.STR_DW_STATUS_DEGRADED 1).wr Reg.MNT_STATUS_DEGRADED 1).raise 1723).degraded = true := by
      rw [State.degraded, raise_rd (by decide), rd_wr_off (by decide), rd_wr (by decide)]
      rfl
    obtain ⟨-, -, -, -, -, -, hwin, -⟩ := raise_parts ((s.wr Reg.STR_DW_STATUS_DEGRADED 1).wr Reg.MNT_STATUS_DEGRADED 1) 1723
    obtain ⟨e, n, h⟩ := smartAen_frame (((s.wr Reg.STR_DW_STATUS_DEGRADED 1).wr Reg.MNT_STATUS_DEGRADED 1).raise 1723) 4 0
    rw [h]
    exact ⟨hdeg, hwin, hkept.rd, hkept.path, hkept.ftl, hkept.occ, hkept.cands, hkept.limitReady⟩

/-! ### One computation of the governor (R30, R32, R33, R35) -/

/-- The candidates a computation leaves, the newest first (R30). -/
def State.governorCands (s : State) : List Nat := (minOf s.terms :: s.win.cands).take 101

/-- What a computation shows: the terms, the candidate, the limit, the gap and the rates (R30, R366 to R369). -/
def State.governorRegs (s : State) : State :=
  (((((((((((s.wr Reg.STR_DW_T_ENERGY_MIB s.energyTerm).wr Reg.STR_DW_T_THERMAL_MIB (s.terms.getD 1 0)).wr Reg.STR_DW_T_STAGING_MIB
    (s.terms.getD 2 0)).wr Reg.STR_DW_T_HOST_MIB (s.terms.getD 3 0)).wr Reg.STR_DW_CAND_MIB (minOf s.terms)).wr Reg.STR_DW_STATUS_BINDING
    (bindingOf s.terms)).wr Reg.STR_DW_LIMIT_MIB (limitOf s.governorCands)).wr Reg.STR_DW_GAP_MIB (gapMib (limitOf s.governorCands))).wr
    Reg.STR_DW_FLUSH_RATE_MBPS s.rFlush).wr Reg.STR_DW_FIXED_US s.tFixed).wr Reg.STR_DW_STATUS_THERMAL_TERM (bit s.thermalOn)).wr
    Reg.STR_DW_COOL_RATE_MBPS (if s.thermalOn then s.rCool else 0)

/-- The candidate is kept, and the time the energy term has been high (R30, R35). -/
def State.governorShown (s : State) : State := s.governorRegs.modWin fun w => { w with
  cands := s.governorCands, limitReady := true
  clearSince := if s.energyTerm < 320 then none else match w.clearSince with | some x => some x | none => some s.now }

/-- The limit has fallen below occupancy (R32). -/
def State.limitFell (s : State) : Bool :=
  limitOf s.governorCands < s.limitMib && limitOf s.governorCands * mib < s.win.occ

/-- An interval of R33 starts in s, with the energy term, occupancy and the learning string of t. -/
def State.startFall (s t : State) : State :=
  (s.modWin fun w => { w with falls := w.falls ++ [[t.now, t.energyTerm, w.occ,
    if t.rd Reg.STR_DW_STATUS_LEARN_EXCL = 1 then t.rd Reg.STR_DW_STATUS_LEARN_STRING else 0xFF]] }).raise 1722

/-- A fall of the limit below occupancy closes the gate; caused by the energy term it starts an interval (R32, R33). -/
def State.governorShut (s : State) : State :=
  let s5 := if s.limitFell then (s.governorShown.modWin fun w => { w with refused := true, draining := true }).shutGate else s.governorShown
  if s.limitFell && bindingOf s.terms == 0 then s5.startFall s else s5

/-- A field of a whole register reads as written, modulo 2^32. -/
theorem rd_wr_whole {s : State} {f : Field} {v : Nat} (hlsb : f.lsb = 0) (hwidth : f.width = 32) : (s.wr f v).rd f = v % 2 ^ 32 := by
  rw [rd_wr (by omega), hwidth]

theorem limitOf_governorCands (s : State) : limitOf s.governorCands = limitOf (minOf s.terms :: s.win.cands) := by
  rw [State.governorCands, limitOf, List.take_take, Nat.min_self, limitOf]

/-- What a governor's tick shows (R30). -/
theorem governorShown_spec (s : State) :
    s.governorShown.rd Reg.STR_DW_CAND_MIB = minOf s.terms % 2 ^ 32 ∧
    s.governorShown.rd Reg.STR_DW_LIMIT_MIB = limitOf s.governorCands % 2 ^ 32 ∧
    s.governorShown.rd Reg.STR_DW_GAP_MIB = gapMib (limitOf s.governorCands) % 2 ^ 32 ∧
    s.governorShown.gateClosed = s.gateClosed ∧ s.governorShown.degraded = s.degraded := by
  rw [State.gateClosed, State.gateClosed, State.degraded, State.degraded, State.governorShown, State.modWin_rd, State.modWin_rd,
    State.modWin_rd, State.modWin_rd, State.modWin_rd, State.governorRegs]
  simp (disch := decide) only [rd_wr_off, rd_wr_apart, rd_wr_whole, and_self]

/-- The gate closing for a fall leaves what is shown of the limit and DEGRADED. -/
theorem governorShut_kept (s : State) : WindowKept (Reg.STR_DW_STATUS_DEGRADED :: limitFields) s.governorShown s.governorShut := by
  have hshut (t : State) : WindowKept (Reg.STR_DW_STATUS_DEGRADED :: limitFields) t t.shutGate := by
    unfold State.shutGate
    split
    · exact .refl _ t
    · exact (WindowKept.wr t 1 (by decide)).trans (.raise _ (by decide))
  unfold State.governorShut
  extract_lets s5
  have h5 : WindowKept (Reg.STR_DW_STATUS_DEGRADED :: limitFields) s.governorShown s5 := by
    unfold s5
    generalize s.governorShown = t
    split
    · exact (WindowKept.modWin t rfl rfl rfl).trans (hshut _)
    · exact .refl _ t
  clear_value s5
  split
  · exact h5.trans ((WindowKept.modWin s5 rfl rfl rfl).trans (.raise _ (by decide)))
  · exact h5

/-- A fall of the limit below occupancy leaves the gate closed, waiting for occupancy to fall (R32). -/
theorem governorShut_of_fell {s : State} (h : s.limitFell = true) :
    s.governorShut.gateClosed = true ∧ s.governorShut.win.refused = true := by
  unfold State.governorShut
  extract_lets s5
  have h5 : s5.gateClosed = true ∧ s5.win.refused = true := by
    unfold s5
    rw [if_pos h]
    generalize s.governorShown = t
    obtain ⟨hclosed, hwin, -⟩ := shutGate_spec (t.modWin fun w => { w with refused := true, draining := true })
    exact ⟨hclosed, by rw [hwin]; rfl⟩
  clear_value s5
  split
  · exact ⟨by rw [State.gateClosed, State.startFall, raise_rd (by decide)]; exact h5.1,
      by rw [State.startFall, (raise_parts _ _).2.2.2.2.2.2.1]; exact h5.2⟩
  · exact h5

/-- The state before the gate may reopen: DEGRADED entered below 256 MiB (R35). -/
def State.governorDecided (s : State) : State := if s.energyTerm < 256 then s.governorShut.enterDegraded else s.governorShut

theorem governorTick_eq (s : State) : s.governorTick = s.governorDecided.reopenGate := rfl

theorem governorDecided_kept (s : State) : WindowKept limitFields s.governorShown s.governorDecided := by
  have hshut : WindowKept limitFields s.governorShown s.governorShut := (governorShut_kept s).mono (List.subset_cons_self _ _)
  unfold State.governorDecided
  split
  · obtain ⟨-, -, hkept⟩ := enterDegraded_spec s.governorShut
    exact hshut.trans (hkept.mono (List.subset_cons_self _ _))
  · exact hshut

theorem degraded_governorDecided (s : State) :
    s.governorDecided.degraded = if s.energyTerm < 256 then true else s.degraded := by
  unfold State.governorDecided
  split
  · exact (enterDegraded_spec _).1
  · obtain ⟨-, -, -, -, hdegraded⟩ := governorShown_spec s
    rw [← hdegraded, State.degraded, State.degraded, (governorShut_kept s).rd _ List.mem_cons_self]

theorem governorDecided_of_fell {s : State} (h : s.limitFell = true) :
    s.governorDecided.gateClosed = true ∧ s.governorDecided.win.refused = true := by
  obtain ⟨hclosed, hrefused⟩ := governorShut_of_fell h
  unfold State.governorDecided
  split
  · obtain ⟨-, hwin, hkept⟩ := enterDegraded_spec s.governorShut
    exact ⟨by rw [State.gateClosed, hkept.rd _ List.mem_cons_self]; exact hclosed, by rw [hwin, hrefused]⟩
  · exact ⟨hclosed, hrefused⟩

/-- Nothing but the register file has changed. -/
def OnlyRegs (s t : State) : Prop := ∃ r, t = { s with regs := r }

theorem OnlyRegs.wr {s t : State} (h : OnlyRegs s t) (f : Field) (v : Nat) : OnlyRegs s (t.wr f v) := by
  obtain ⟨r, rfl⟩ := h
  exact ⟨_, rfl⟩

/-- The computation leaves the path and occupancy, and the candidate is kept. -/
theorem governorShown_window (s : State) : s.governorShown.win.limitReady = true ∧ s.governorShown.win.occ = s.win.occ ∧
    s.governorShown.win.cands = s.governorCands ∧ s.governorShown.path = s.path ∧ s.governorShown.ftl = s.ftl := by
  obtain ⟨r, h⟩ : OnlyRegs s s.governorRegs := by
    unfold State.governorRegs
    iterate 12 apply OnlyRegs.wr
    exact ⟨s.regs, rfl⟩
  rw [State.governorShown, h]
  exact ⟨rfl, rfl, rfl, rfl, rfl⟩

/-- The tick leaves the limit, the path and occupancy as the computation shows them. -/
theorem governorTick_kept (s : State) : WindowKept limitFields s.governorShown s.governorTick :=
  (governorDecided_kept s).trans ((reopenGate_kept _).mono (List.subset_cons_self _ _))

theorem degraded_governorTick (s : State) : s.governorTick.degraded = if s.energyTerm < 256 then true else s.degraded := by
  rw [governorTick_eq, State.degraded, (reopenGate_kept _).rd _ List.mem_cons_self, ← degraded_governorDecided, State.degraded]

/-- A fall of the limit below occupancy closes the gate (R32). -/
theorem governorTick_gateClosed {s : State} (hfell : s.limitFell = true) (hlimit : limitOf s.governorCands < 2 ^ 32) :
    s.governorTick.gateClosed = true := by
  obtain ⟨hclosed, hrefused⟩ := governorDecided_of_fell hfell
  have hkept := governorDecided_kept s
  have hmib : s.governorDecided.limitMib = limitOf s.governorCands := by
    obtain ⟨-, hshown, -⟩ := governorShown_spec s
    rw [State.limitMib, hkept.rd _ (by decide), hshown, Nat.mod_eq_of_lt hlimit]
  have hocc : s.governorDecided.win.occ = s.win.occ := hkept.occ
  have habove : limitOf s.governorCands * mib < s.win.occ := by
    rw [State.limitFell, Bool.and_eq_true, decide_eq_true_eq, decide_eq_true_eq] at hfell
    exact hfell.2
  rw [governorTick_eq, reopenGate_of_above hrefused (by rw [hmib, hocc]; exact habove), hclosed]

/-! ### DEGRADED ends (R35) -/

theorem degradedExit_of_clear {s : State} {since : Nat} (hsince : s.win.clearSince = some since) (hdeg : s.degraded = true)
    (hdue : since + 1000000000 ≤ s.now) :
    s.degradedExit = ((s.wr Reg.STR_DW_STATUS_DEGRADED 0).wr Reg.MNT_STATUS_DEGRADED 0).raise 1724 := by
  rw [State.degradedExit, hsince]
  dsimp only
  rw [if_pos (by simp [hdeg, hdue])]

theorem degradedExit_early {s : State} {since : Nat} (hsince : s.win.clearSince = some since) (hearly : s.now < since + 1000000000) :
    s.degradedExit = s := by
  rw [State.degradedExit, hsince]
  dsimp only
  rw [if_neg (by simp [hearly])]

end Sys2Proof.Machine

open Sys2Proof
open Sys2Proof.Machine

/-- Settles O39: the gate's decision goes by the request next in order; a tick of the governor is what it shows, the closing
for a fall of the limit, DEGRADED and the reopening, each of which leaves the others' fields. -/
theorem gateGrantsAndGovernorLimits : Obligations.GateGrantsAndGovernorLimits := by
  intro s hup
  refine ⟨fun r w hopen hfetch hready hr hw => ⟨fun hfit htokens hid => ?_, fun hover => ?_, fun hfit hmeter hlack => ?_⟩, fun hclosed => ?_,
    ⟨s.promote, exec_bulkPromotion hup, rfl, List.length_map _, fun i r hr => ?_⟩, fun hfit => ?_, fun since hsince => ⟨fun hdeg hdue => ?_, fun hearly => ?_⟩⟩
  · refine ⟨s.grant r w, ?_, ?_⟩
    · rw [exec_chunkGrant hup, chunkGrant_of_open hopen hfetch hready hr hw, if_neg (by omega), if_neg (by omega)]
    · rw [← hid] at hw ⊢
      rw [← hopen]
      exact grant_spec hw
  · obtain ⟨hclosed, hwin, hpath, hraised⟩ :=
      shutGate_spec ((s.bump Reg.STR_ADM_REFUSALS_COUNT).modWin fun w => { w with refused := true })
    refine ⟨_, by rw [exec_chunkGrant hup, chunkGrant_of_open hopen hfetch hready hr hw, if_pos hover], by rw [hwin]; rfl, hclosed, by rw [hwin]; rfl,
      by rw [hwin]; rfl, by rw [hpath]; rfl, hraised ?_⟩
    rw [State.gateClosed, State.modWin_rd, State.bump, rd_wr_off (by decide)]
    exact hopen
  · rw [exec_chunkGrant hup, chunkGrant_of_open hopen hfetch hready hr hw, if_neg (by omega), if_pos ⟨hmeter, hlack⟩]
  · rw [exec_chunkGrant hup, chunkGrant_of_closed hclosed]
  · simp [State.promote, State.modWin, hr]
  · obtain ⟨hcand, hlimit, hgap, -, -⟩ := governorShown_spec s
    obtain ⟨hready, hocc, hcands, hpath, hftl⟩ := governorShown_window s
    have hkept := governorTick_kept s
    rw [← limitOf_governorCands]
    refine ⟨_, exec_governorTick hup hfit, (hkept.rd _ (by decide)).trans hcand, (hkept.rd _ (by decide)).trans hlimit,
      (hkept.rd _ (by decide)).trans hgap, hkept.limitReady.trans hready, hkept.occ.trans hocc, hkept.cands.trans hcands,
      hkept.path.trans hpath, hkept.ftl.trans hftl, fun hlow => ?_, fun hhigh => ?_,
      fun hfell hover hsmall => governorTick_gateClosed (by simp [State.limitFell, hfell, hover]) hsmall⟩
    · rw [degraded_governorTick, if_pos hlow]
    · rw [degraded_governorTick, if_neg (by omega)]
  · refine ⟨_, by rw [exec_degradedExit hup, degradedExit_of_clear hsince hdeg hdue], ?_, ?_, raise_status _ _⟩
    · rw [State.degraded, raise_rd (by decide), rd_wr_off (by decide), rd_wr (by decide)]
      rfl
    · rw [raise_rd (by decide), rd_wr (by decide)]
      exact Nat.zero_mod _
  · rw [exec_degradedExit hup, degradedExit_early hsince hearly]

end

section
/-!
PROOFS. Scope: what follows a change of the data path leaves the checkpoints and the flush in charge as they were (11 R396, 10 R372);
CHECKPOINT_DURABLE with a further checkpoint asked for.
-/
namespace Sys2Proof.Machine

/-- The checkpoints and the flush in charge. -/
def State.standing (s : State) : List Checkpoint × Flush := (s.ftl.cps, s.ftl.flush)

theorem standing_of_ftl {s t : State} (h : t.ftl = s.ftl) : t.standing = s.standing := by rw [State.standing, h, State.standing]

/-! ### Conditionals, folds and the parts of the state -/

@[simp] theorem standing_ite (c : Prop) [Decidable c] (s t : State) :
    (if c then s else t).standing = if c then s.standing else t.standing := apply_ite State.standing c s t

@[simp] theorem standing_foldl {α : Type} {g : State → α → State} (h : ∀ t x, (g t x).standing = t.standing) (l : List α) (s : State) :
    (l.foldl g s).standing = s.standing := by
  induction l generalizing s with
  | nil => rfl
  | cons x l ih => rw [List.foldl_cons, ih, h]

@[simp] theorem standing_modFtl (s : State) {f : Ftl → Ftl} (hcps : ∀ x, (f x).cps = x.cps) (hflush : ∀ x, (f x).flush = x.flush) :
    (s.modFtl f).standing = s.standing := Prod.ext (hcps s.ftl) (hflush s.ftl)

@[simp] theorem standing_modPath (s : State) (f : Path → Path) : (s.modPath f).standing = s.standing := standing_of_ftl rfl
@[simp] theorem standing_modWin (s : State) (f : Window → Window) : (s.modWin f).standing = s.standing := standing_of_ftl rfl
@[simp] theorem standing_modTakes (s : State) (f : Takes → Takes) : (s.modTakes f).standing = s.standing := standing_of_ftl rfl
@[simp] theorem standing_setCtrl (s : State) (c : Nat) (x : Ctrl) : (s.setCtrl c x).standing = s.standing := standing_of_ftl rfl
@[simp] theorem standing_setKeySlot (s : State) (k : Nat) (x : KeySlot) : (s.setKeySlot k x).standing = s.standing := standing_of_ftl rfl
@[simp] theorem standing_setReg (s : State) (off : Nat) (w : Word) : (s.setReg off w).standing = s.standing := standing_of_ftl rfl
@[simp] theorem standing_wr (s : State) (f : Field) (v : Nat) : (s.wr f v).standing = s.standing := standing_of_ftl rfl

@[simp] theorem standing_tally (s : State) (off n : Nat) : (s.tally off n).standing = s.standing := by
  obtain ⟨l, h⟩ := tally_frame s off n
  exact standing_of_ftl (by rw [h])

@[simp] theorem standing_raise (s : State) (src : Nat) : (s.raise src).standing = s.standing := by
  obtain ⟨r, e, n, h, -⟩ := raise_frame s src
  exact standing_of_ftl (by rw [h])

@[simp] theorem standing_complete (s : State) (c : Sqe) (st : Status) (dw0 dw1 : Nat) (data : List Byte) :
    (s.complete c st dw0 dw1 data).standing = s.standing := by
  obtain ⟨e, n, h⟩ := complete_frame s c st dw0 dw1 data
  exact standing_of_ftl (by rw [h])

@[simp] theorem standing_fail (s : State) (c : Sqe) (st : Status) : (s.fail c st).standing = s.standing := by simp [State.fail]
@[simp] theorem standing_succeed (s : State) (c : Sqe) : (s.succeed c).standing = s.standing := by simp [State.succeed]
@[simp] theorem standing_raiseAll (s : State) (l : List Nat) : (s.raiseAll l).standing = s.standing := by simp [State.raiseAll]

/-! ### The gate and the commands of the write path -/

@[simp] theorem standing_openGate (s : State) : s.openGate.standing = s.standing := standing_of_ftl (openGate_kept s).ftl

@[simp] theorem standing_reopenGate (s : State) : s.reopenGate.standing = s.standing := by simp [State.reopenGate]
@[simp] theorem standing_occDrop (s : State) (n : Nat) : (s.occDrop n).standing = s.standing := by simp [State.occDrop]
@[simp] theorem standing_moved (s : State) (flash user gc : Nat) : (s.moved flash user gc).standing = s.standing := by simp [State.moved]
@[simp] theorem standing_modW (s : State) (i : Nat) (f : WCmd → WCmd) : (s.modW i f).standing = s.standing := by simp [State.modW]
@[simp] theorem standing_modTrim (s : State) (i : Nat) (f : TrimCmd → TrimCmd) : (s.modTrim i f).standing = s.standing := by simp [State.modTrim]
@[simp] theorem standing_showWt (s : State) : s.showWt.standing = s.standing := by simp [State.showWt]
@[simp] theorem standing_showFineWait (s : State) : s.showFineWait.standing = s.standing := by simp [State.showFineWait]
@[simp] theorem standing_askChunk (s : State) (c : WCmd) (rt : Bool) : (s.askChunk c rt).standing = s.standing := by simp [State.askChunk]
@[simp] theorem standing_ingressAdd (s : State) (r n : Nat) : (s.ingressAdd r n).standing = s.standing := by simp [State.ingressAdd]
@[simp] theorem standing_ingressSub (s : State) (r n : Nat) : (s.ingressSub r n).standing = s.standing := by simp [State.ingressSub]
@[simp] theorem standing_unclaimInv (s : State) (k n : Nat) : (s.unclaimInv k n).standing = s.standing := by simp [State.unclaimInv]

@[simp] theorem standing_withdraw (s : State) (i : Nat) : (s.withdraw i).standing = s.standing := by
  unfold State.withdraw
  extract_lets s1
  cases s1.wcmd i <;> simp [s1]

@[simp] theorem standing_dropWrite (s : State) (c : WCmd) (reset : Bool) : (s.dropWrite c reset).standing = s.standing := by
  simp only [State.dropWrite]
  split
  · split <;> simp
  · simp

@[simp] theorem standing_writeGo (s : State) (w : WCmd) : (s.writeGo w).standing = s.standing := by simp [State.writeGo]
@[simp] theorem standing_addWrite (s : State) (w : WCmd) : (s.addWrite w).standing = s.standing := by simp [State.addWrite]
@[simp] theorem standing_countUser (s : State) (n : Nat) : (s.countUser n).standing = s.standing := by simp [State.countUser]
@[simp] theorem standing_mapWrite (s : State) (nsid : Nat) (pairs : List (Nat × Nat)) : (s.mapWrite nsid pairs).standing = s.standing := by
  simp [State.mapWrite]

@[simp] theorem standing_finish (s : State) (c : WCmd) : (s.finish c).standing = s.standing := by
  unfold State.finish
  cases c.kind <;> simp

@[simp] theorem standing_finishAll (s : State) : s.finishAll.standing = s.standing := by simp [State.finishAll]

/-! ### Stripes and bands -/

@[simp] theorem standing_modStripe (s : State) (i : Nat) (f : Stripe → Stripe) : (s.modStripe i f).standing = s.standing := by simp [State.modStripe]
@[simp] theorem standing_modBand (s : State) (i : Nat) (f : Band → Band) : (s.modBand i f).standing = s.standing := by simp [State.modBand]
@[simp] theorem standing_setBlk (s : State) (m : Nat × Nat × Nat) (b : Blk) : (s.setBlk m b).standing = s.standing := by simp [State.setBlk]
@[simp] theorem standing_modHealth (s : State) (f : Health → Health) : (s.modHealth f).standing = s.standing := by simp [State.modHealth]
@[simp] theorem standing_stripeEvent (s : State) (ty member link stripe nsid lsa : Nat) :
    (s.stripeEvent ty member link stripe nsid lsa).standing = s.standing := by simp [State.stripeEvent]

@[simp] theorem standing_closeOne (s : State) (i flags : Nat) : (s.closeOne i flags).standing = s.standing := by
  unfold State.closeOne
  split
  · rfl
  · split
    · rfl
    · simp

@[simp] theorem standing_closeStripe (s : State) (i flags : Nat) : (s.closeStripe i flags).standing = s.standing := by simp [State.closeStripe]
@[simp] theorem standing_addBand (s : State) (ty : Nat) (ms : List (Nat × Nat × Nat)) (kind : Nat) :
    (s.addBand ty ms kind).standing = s.standing := by simp [State.addBand]

theorem standing_openBand (s : State) (kind : Nat) : ∀ t ∈ s.openBand kind, t.standing = s.standing := by
  unfold State.openBand
  split
  · simp
  · split
    · simp
    · split <;> simp

theorem standing_bandWithRoom (s : State) (kind pick n : Nat) : ∀ x ∈ s.bandWithRoom kind pick n, x.1.standing = s.standing := by
  unfold State.bandWithRoom
  split
  · simp
  · split
    next t h =>
      have ht : t.standing = s.standing := standing_openBand s kind t (Option.ite_none_right_eq_some.mp h).2
      split
      · split <;> simp [ht]
      · simp
    next =>
      split
      · split
        · dsimp only
          split
          · split <;> simp
          · simp
        · simp
      · simp

theorem standing_beginStripe (s : State) (b : Band) : ∀ x ∈ s.beginStripe b, x.1.standing = s.standing := by
  unfold State.beginStripe
  split
  · simp
  · split <;> simp

theorem standing_sealStripe (s : State) : ∀ t ∈ s.sealStripe, t.standing = s.standing := by
  unfold State.sealStripe
  split
  · simp
  next s1 b h1 =>
    split
    · simp
    next s2 st h2 => simp [standing_beginStripe _ _ _ h2, standing_bandWithRoom _ _ _ _ _ h1]

@[simp] theorem standing_sealAll (n : Nat) (s : State) : (s.sealAll n).standing = s.standing := by
  induction n generalizing s with
  | zero => rfl
  | succ n ih =>
    unfold State.sealAll
    split
    · rfl
    · split
      next t h => rw [ih, standing_sealStripe s t h]
      next => rfl

/-! ### Triples and the extent -/

theorem standing_openOn3 (s : State) (ty kind : Nat) (links : List (Nat × Nat × Nat)) : ∀ t ∈ s.openOn3 ty kind links, t.standing = s.standing := by
  unfold State.openOn3
  split <;> simp

/-- What two steps that may fail keep, one after the other keeps. -/
theorem standing_bind {α : Type} {o : Option α} {g : α → Option State} {p : α → State} {s : State}
    (ho : ∀ x ∈ o, (p x).standing = s.standing) (hg : ∀ x, ∀ t ∈ g x, t.standing = (p x).standing) :
    ∀ t ∈ o.bind g, t.standing = s.standing := by
  intro t ht
  obtain ⟨x, hx, hgx⟩ := Option.mem_bind_iff.mp ht
  rw [hg x t hgx, ho x hx]

theorem standing_openTriple (s : State) : ∀ t ∈ s.openTriple, t.standing = s.standing := by
  unfold State.openTriple
  split
  · simp
  · split
    · simp
    · split
      · simp
      · exact standing_bind (standing_bind (standing_openOn3 _ _ _ _) fun u => standing_openOn3 u _ _ _) fun u => standing_openOn3 u _ _ _

theorem standing_beginTriple (s : State) (b : Band) : ∀ x ∈ s.beginTriple b, x.1.standing = s.standing := by
  unfold State.beginTriple
  split
  · simp
  next s1 st h1 =>
    split
    · split
      next s2 st2 h2 =>
        split
        next s3 st3 h3 => simp [standing_beginStripe _ _ _ h3, standing_beginStripe _ _ _ h2, standing_beginStripe _ _ _ h1]
        next => simp
      next => simp
    · simp

theorem standing_freshTriple (s : State) (n : Nat) : ∀ x ∈ s.freshTriple n, x.1.standing = s.standing := by
  unfold State.freshTriple
  split
  next u hu =>
    intro x hx
    obtain ⟨y, hy, hx⟩ := Option.mem_bind_iff.mp hx
    obtain ⟨b, -, hy⟩ := Option.mem_bind_iff.mp hy
    have hxy : x = y := by
      split at hx
      · split at hx <;> simp_all
      · simp at hx
    rw [hxy, standing_beginTriple u b y hy, standing_openTriple s u hu]
  next => simp

@[simp] theorem standing_closeOpen (s : State) (b : Nat) : (s.closeOpen b).standing = s.standing := by
  unfold State.closeOpen
  split <;> simp

@[simp] theorem standing_stopOne (s : State) (i flags : Nat) : (s.stopOne i flags).standing = s.standing := by
  unfold State.stopOne
  extract_lets s1
  split <;> simp [s1]

@[simp] theorem standing_stopBand (s : State) (i flags : Nat) : (s.stopBand i flags).standing = s.standing := by
  unfold State.stopBand
  split <;> simp

theorem standing_tripleRoom (s : State) (n : Nat) : ∀ x ∈ s.tripleRoom n, x.1.standing = s.standing := by
  unfold State.tripleRoom
  split
  · exact standing_freshTriple s n
  · split
    · exact standing_beginTriple s _
    · split
      · split
        · simpa using standing_beginTriple (s.closeOpen _) _
        · simpa using standing_freshTriple ((s.closeOpen _).stopBand _ 0) n
      · simpa using standing_freshTriple (s.closeOpen _) n

theorem standing_claim3 (s : State) (n : Nat) : ∀ x ∈ s.claim3 n, x.1.standing = s.standing := by
  unfold State.claim3
  split
  · simp
  next s1 st h1 =>
    split
    · simp [standing_tripleRoom s n _ h1]
    · simp

theorem standing_readyExtent (s : State) : ∀ t ∈ s.readyExtent, t.standing = s.standing := by
  unfold State.readyExtent
  split
  · simp
  · extract_lets named
    have hn : named.standing = s.standing := by simp [named]
    split
    · simp [hn]
    · intro t ht
      obtain ⟨x, hx, rfl⟩ := Option.mem_map.mp ht
      simp [standing_claim3 s 512 x hx]

@[simp] theorem standing_nameExtent (s : State) : s.nameExtent.1.standing = s.standing := by
  unfold State.nameExtent
  split
  · rfl
  next s1 h1 =>
    have hs := standing_readyExtent s s1 h1
    split
    · exact hs
    · split
      next s2 a h2 => simp [standing_claim3 s1 512 _ h2, hs]
      next => exact hs

/-! ### Metadata sectors and the journal -/

@[simp] theorem standing_putAt (s : State) (i off : Nat) (p : Placed) : (s.putAt i off p).standing = s.standing := by simp [State.putAt]
@[simp] theorem standing_putFill3 (s : State) (i off : Nat) : (s.putFill3 i off).standing = s.standing := by simp [State.putFill3]

@[simp] theorem standing_fillUnit (s : State) (i off : Nat) : (s.fillUnit i off).standing = s.standing := by
  unfold State.fillUnit
  split <;> simp

@[simp] theorem standing_putCopies (s : State) (i off : Nat) (payload : List Byte) : (s.putCopies i off payload).standing = s.standing := by
  simp [State.putCopies]

@[simp] theorem standing_closeIfFull (s : State) (i : Nat) : (s.closeIfFull i).standing = s.standing := by
  unfold State.closeIfFull
  split
  · rfl
  · split <;> simp

@[simp] theorem standing_placeMeta (s : State) (m : MetaSec) : (s.placeMeta m).1.standing = s.standing := by
  unfold State.placeMeta
  split
  · split
    · rfl
    next s1 h1 =>
      split
      · rfl
      · simp [standing_readyExtent s s1 h1]
  all_goals
    split
    · rfl
    next s1 a h1 => simp [standing_claim3 s 1 _ h1]

@[simp] theorem standing_putMeta (s : State) (of : MetaOf) (order : Nat) (payload : List Byte) : (s.putMeta of order payload).standing = s.standing := by
  simp [State.putMeta]

@[simp] theorem standing_writePage (s : State) (tail : Bool) : (s.writePage tail).standing = s.standing := by simp [State.writePage]

@[simp] theorem standing_jput (s : State) (e : Entry) : (s.jput e).standing = s.standing := by simp [State.jput]
@[simp] theorem standing_jputs (s : State) (es : List Entry) : (s.jputs es).standing = s.standing := by simp [State.jputs]
@[simp] theorem standing_raiseCeil (s : State) : s.raiseCeil.standing = s.standing := by simp [State.raiseCeil]

@[simp] theorem standing_pend (s : State) (e : Entry) : (s.pend e).standing = s.standing := by
  unfold State.pend
  extract_lets s1
  split
  · split <;> simp [s1]
  · simp [s1]

theorem standing_takeSeq (s : State) : ∀ x ∈ s.takeSeq, x.2.standing = s.standing := by
  unfold State.takeSeq
  split <;> simp

theorem standing_trim (s : State) (nsid lsa count : Nat) : ∀ t ∈ s.trim nsid lsa count, t.standing = s.standing := by
  unfold State.trim
  split
  · simp
  next q s1 h => simp [standing_takeSeq s _ h]

/-! ### Deallocations -/

@[simp] theorem standing_shredStart (s : State) (t : TrimCmd) : (s.shredStart t).standing = s.standing := by simp [State.shredStart]
@[simp] theorem standing_modTake (s : State) (num : Nat) (f : Take → Take) : (s.modTake num f).standing = s.standing := by simp [State.modTake]
@[simp] theorem standing_modClip (s : State) (num i : Nat) (f : Clip → Clip) : (s.modClip num i f).standing = s.standing := by simp [State.modClip]
@[simp] theorem standing_modFrames (s : State) (f : InFlight → InFlight) : (s.modFrames f).standing = s.standing := by simp [State.modFrames]
@[simp] theorem standing_setDma (s : State) (d : Nat) (x : Option Dma) : (s.setDma d x).standing = s.standing := by simp [State.setDma]
@[simp] theorem standing_dirTouch (s : State) : s.dirTouch.standing = s.standing := by simp [State.dirTouch]
@[simp] theorem standing_dirChange (s : State) : s.dirChange.standing = s.standing := by simp [State.dirChange]

@[simp] theorem standing_takeGone (s : State) (c : Sqe) : (s.takeGone c).standing = s.standing := by
  unfold State.takeGone
  split <;> simp

/-- The ranges of a deallocation, one after the other, while none fails. -/
theorem standing_trims (nsid : Nat) (l : List (Nat × Nat)) {s : State} {o : Option State} (ho : ∀ t ∈ o, t.standing = s.standing) :
    ∀ t ∈ l.foldl (fun (o : Option State) x => match o with | some u => u.trim nsid x.1 x.2 | none => none) o, t.standing = s.standing := by
  induction l generalizing o with
  | nil => exact ho
  | cons x l ih =>
    refine ih ?_
    cases o with
    | none => simp
    | some u =>
      intro t ht
      rw [standing_trim u _ _ _ t ht, ho u rfl]

@[simp] theorem standing_trimNow (s : State) (t : TrimCmd) : (s.trimNow t).standing = s.standing := by
  simp only [State.trimNow]
  split
  · rfl
  next s1 h => simp [standing_trims t.nsid t.ranges (s := s) (o := some s) (by simp) s1 h]

@[simp] theorem standing_trimGo (s : State) (t : TrimCmd) : (s.trimGo t).standing = s.standing := by simp [State.trimGo]
@[simp] theorem standing_queueTrim (s : State) (kind : Nat) (c : Sqe) (nsid : Nat) (ranges : List (Nat × Nat)) :
    (s.queueTrim kind c nsid ranges).standing = s.standing := by simp [State.queueTrim]
@[simp] theorem standing_takeTrim (s : State) (lsas : List Nat) : (s.takeTrim lsas).standing = s.standing := by simp [State.takeTrim]

/-! ### Takes -/

@[simp] theorem standing_dropFrame (s : State) (f : InFlight) : (s.dropFrame f).standing = s.standing := by simp [State.dropFrame]
@[simp] theorem standing_dmaOutcome (s : State) (d idx : Nat) (r : StatusRec) : (s.dmaOutcome d idx r).standing = s.standing := by
  simp [State.dmaOutcome]

@[simp] theorem standing_takeWrite (s : State) (purpose num idx : Nat) (lsas : List Nat) (secs : List (List Byte)) (wt : Option Bool) (fua : Bool) :
    (s.takeWrite purpose num idx lsas secs wt fua).standing = s.standing := by
  unfold State.takeWrite
  split <;> simp

@[simp] theorem standing_frameWhole (s : State) (f : InFlight) : (s.frameWhole f).standing = s.standing := by
  unfold State.frameWhole
  split
  · simp
  · dsimp only
    split
    · simp
    · split <;> simp

@[simp] theorem standing_frameSettle (s : State) (f : InFlight) : (s.frameSettle f).standing = s.standing := by
  unfold State.frameSettle
  split
  · rfl
  · split
    · simp
    · split
      · rfl
      · split
        · rfl
        · split <;> simp

@[simp] theorem standing_takeDone (s : State) (w : WCmd) : (s.takeDone w).standing = s.standing := by
  unfold State.takeDone
  split
  · split
    · split <;> simp
    · rfl
  · split <;> simp

@[simp] theorem standing_endSegments (s : State) (f : InFlight) (st : Status) : (s.endSegments f st).standing = s.standing := by
  unfold State.endSegments
  extract_lets s1
  have h1 : s1.standing = s.standing := by
    refine standing_foldl (fun u id => ?_) _ _
    split <;> simp
  split <;> simp [h1]

@[simp] theorem standing_pullRefused (s : State) (f : InFlight) (st : Status) : (s.pullRefused f st).standing = s.standing := by
  unfold State.pullRefused
  split <;> simp

@[simp] theorem standing_openFailed (s : State) (t : Take) (c : Sqe) (st : Status) : (s.openFailed t c st).standing = s.standing := by
  simp [State.openFailed]

@[simp] theorem standing_abandon (s : State) (f : InFlight) (st : Status) : (s.abandon f st).standing = s.standing := by
  unfold State.abandon
  extract_lets s1
  have h1 : s1.standing = s.standing := by simp [s1]
  split
  · exact h1
  · extract_lets s2
    have h2 : s2.standing = s.standing := by simp [s2, h1]
    split
    · exact h2
    · split
      · exact h2
      · split <;> simp [h2]

@[simp] theorem standing_takeFailed (s : State) (x : WCmd × Status) : (s.takeFailed x).standing = s.standing := by
  unfold State.takeFailed
  dsimp only
  split
  · split
    · split
      · split <;> simp
      · rfl
    · rfl
  · split <;> simp

@[simp] theorem standing_fullClear (s : State) : s.fullClear.standing = s.standing := by simp [State.fullClear]

@[simp] theorem standing_sendSegs (s : State) (num i : Nat) : (s.sendSegs num i).standing = s.standing := by
  unfold State.sendSegs
  split
  · rfl
  · refine standing_foldl (fun u k => ?_) _ _
    split <;> simp

theorem standing_clipGrow (s : State) (num i n : Nat) (reserve : Bool) : ∀ x ∈ s.clipGrow num i n reserve, x.1.standing = s.standing := by
  unfold State.clipGrow
  split
  · simp
  · split
    · simp
    · dsimp only
      split
      · simp
      · split
        · simp
        · split <;> simp

@[simp] theorem standing_placeMissing (s : State) (num i : Nat) : (s.placeMissing num i).standing = s.standing := by
  unfold State.placeMissing
  split
  · rfl
  · refine standing_foldl (fun u k => ?_) _ _
    split
    · split
      · rfl
      · dsimp only
        split
        next v off h => simp [standing_clipGrow u _ _ _ _ _ h]
        next => rfl
    · rfl

@[simp] theorem standing_discardRecs (s : State) (num i : Nat) (rs : List ClipRec) : (s.discardRecs num i rs).standing = s.standing := by
  unfold State.discardRecs
  split
  · rfl
  · split
    · rfl
    · extract_lets n s1 s2 s3 s4
      have h1 : s1.standing = s.standing := by
        refine standing_foldl (fun u r => ?_) _ _
        split <;> simp
      have h4 : s4.standing = s.standing := by simp [s4, s3, s2, h1]
      simp [h4]

@[simp] theorem standing_sealRing (s : State) (num i : Nat) (c : Clip) : (s.sealRing num i c).standing = s.standing := by simp [State.sealRing]

@[simp] theorem standing_lastSeg (s : State) (num i : Nat) (c : Clip) : (s.lastSeg num i c).standing = s.standing := by
  unfold State.lastSeg
  dsimp only
  split
  next v off h => simp [standing_clipGrow s _ _ _ _ _ h]
  next => rfl

@[simp] theorem standing_sealClip (s : State) (num i : Nat) : (s.sealClip num i).standing = s.standing := by
  unfold State.sealClip
  split
  · rfl
  · split
    · rfl
    next c0 _ =>
      have h0 : ((s.sealRing num i c0).placeMissing num i).standing = s.standing := by simp
      extract_lets s00
      split
      · exact h0
      next c _ =>
        extract_lets s1
        have h1 : s1.standing = s.standing := by simp [s1, s00]
        split
        · exact h1
        next s2 tab hg2 =>
          have h2 : s2.standing = s.standing := by rw [standing_clipGrow s1 _ _ _ _ _ hg2, h1]
          split
          · exact h2
          next s3 tr hg3 =>
            extract_lets s4
            have h4 : s4.standing = s.standing := by simp [s4, standing_clipGrow s2 _ _ _ _ _ hg3, h2]
            split
            · exact h4
            · split
              · exact h4
              · simp [h4]

@[simp] theorem standing_takeState (s : State) (num st : Nat) : (s.takeState num st).standing = s.standing := by
  unfold State.takeState
  split <;> simp

@[simp] theorem standing_writeHeader (s : State) (num i state : Nat) : (s.writeHeader num i state).standing = s.standing := by
  unfold State.writeHeader
  split
  · rfl
  · split <;> simp

@[simp] theorem standing_writeHeaders (s : State) (num state : Nat) : (s.writeHeaders num state).standing = s.standing := by
  unfold State.writeHeaders
  split <;> simp

@[simp] theorem standing_closed (s : State) (t : Take) : (s.closed t).standing = s.standing := by simp [State.closed]

@[simp] theorem standing_takeStep (s : State) (num : Nat) : (s.takeStep num).standing = s.standing := by
  unfold State.takeStep
  split
  · rfl
  · extract_lets s1 s2
    have h1 : s1.standing = s.standing := by simp [s1]
    have h2 : s2.standing = s.standing := by
      simp only [s2]
      split <;> simp [h1]
    split <;> simp [h2]

@[simp] theorem standing_framesSettle (s : State) : s.framesSettle.standing = s.standing := by
  refine standing_foldl (fun u f => ?_) _ _
  split <;> simp

@[simp] theorem standing_takeSettle (s : State) : s.takeSettle.standing = s.standing := by simp [State.takeSettle]

/-! ### The DMA channels -/

@[simp] theorem standing_setDmaState (s : State) (d st : Nat) : (s.setDmaState d st).standing = s.standing := by simp [State.setDmaState]
@[simp] theorem standing_showDma (s : State) : s.showDma.standing = s.standing := by simp [State.showDma]

@[simp] theorem standing_arriveFrame (s : State) (w : WCmd) (data : List Byte) : (s.arriveFrame w data).standing = s.standing := by
  unfold State.arriveFrame
  split
  · split
    · rfl
    · simp
  · rfl

@[simp] theorem standing_dmaFeed (s : State) (f : InFlight) : (s.dmaFeed f).standing = s.standing := by
  unfold State.dmaFeed
  extract_lets n s1
  have h1 : s1.standing = s.standing := by
    simp only [s1]
    split <;> simp
  split <;> simp [h1]

@[simp] theorem standing_dmaServe (n : Nat) (s : State) : (State.dmaServe n s).standing = s.standing := by
  induction n generalizing s with
  | zero => rfl
  | succ n ih =>
    unfold State.dmaServe
    split
    · rfl
    · split
      · rfl
      · simp [ih]

@[simp] theorem standing_dmaOrder (n d : Nat) (s : State) : (State.dmaOrder n d s).standing = s.standing := by
  induction n generalizing s with
  | zero => rfl
  | succ n ih =>
    unfold State.dmaOrder
    split
    · rfl
    · split <;> simp [ih]

@[simp] theorem standing_dmaPump (s : State) (d : Nat) : (s.dmaPump d).standing = s.standing := by
  unfold State.dmaPump
  split
  · rfl
  · dsimp only
    split <;> simp

@[simp] theorem standing_dmaPumpAll (s : State) : s.dmaPumpAll.standing = s.standing := by simp [State.dmaPumpAll]

/-! ### The rules that settle the path -/

@[simp] theorem standing_showStripes (s : State) : s.showStripes.standing = s.standing := by simp [State.showStripes]
@[simp] theorem standing_rebuildSettle (s : State) : s.rebuildSettle.standing = s.standing := by simp [State.rebuildSettle]

@[simp] theorem standing_progress (s : State) : s.progress.standing = s.standing := by
  refine standing_foldl (fun u i => ?_) _ _
  split
  · simp
  · split <;> simp

@[simp] theorem standing_waitStep (s : State) (w : DurWait) : (s.waitStep w).standing = s.standing := by simp [State.waitStep]
@[simp] theorem standing_waitsAll (s : State) : s.waitsAll.standing = s.standing := by simp [State.waitsAll]

@[simp] theorem standing_cpRoot (s : State) : s.cpRoot.standing = s.standing := by
  unfold State.cpRoot
  split <;> simp

@[simp] theorem standing_placeMetas (s : State) : s.placeMetas.standing = s.standing := by
  unfold State.placeMetas
  split
  · rfl
  · extract_lets r
    have hr : r.1.standing = s.standing := List.foldlRecOn _ _ (motive := fun a : State × List MetaSec => a.1.standing = s.standing) rfl fun a ha m _ => by
      dsimp only
      split
      · exact ha
      · rw [standing_placeMeta, ha]
    simp [hr]

@[simp] theorem standing_metaSettle (s : State) : s.metaSettle.standing = s.standing := by simp [State.metaSettle]
@[simp] theorem standing_commitUnit (s : State) (u : AUnit) : (s.commitUnit u).standing = s.standing := by simp [State.commitUnit]
@[simp] theorem standing_commitUnits (s : State) : s.commitUnits.standing = s.standing := by simp [State.commitUnits]
@[simp] theorem standing_releaseNever (s : State) (st : Stripe) : (s.releaseNever st).standing = s.standing := by simp [State.releaseNever]
@[simp] theorem standing_releaseNevers (s : State) : s.releaseNevers.standing = s.standing := by simp [State.releaseNevers]
@[simp] theorem standing_mapMove (s : State) (nsid lsa old new : Nat) : (s.mapMove nsid lsa old new).standing = s.standing := by simp [State.mapMove]

@[simp] theorem standing_adoptRelocated (s : State) (st : Stripe) : (s.adoptRelocated st).standing = s.standing := by
  refine standing_foldl (fun t e => ?_) _ _
  extract_lets src named
  split
  · simp
  · refine standing_foldl (fun u i => ?_) _ _
    split <;> simp

@[simp] theorem standing_becomeDurable (s : State) (st : Stripe) : (s.becomeDurable st).standing = s.standing := by simp [State.becomeDurable]

@[simp] theorem standing_durablePass (n : Nat) (s : State) : (s.durablePass n).standing = s.standing := by
  induction n generalizing s with
  | zero => rfl
  | succ n ih =>
    unfold State.durablePass
    split <;> simp [ih]

@[simp] theorem standing_journalBands (s : State) : s.journalBands.standing = s.standing := by simp [State.journalBands]
@[simp] theorem standing_settleStripes (s : State) : s.settleStripes.standing = s.standing := by simp [State.settleStripes]
@[simp] theorem standing_gcDecide (s : State) : s.gcDecide.standing = s.standing := by
  unfold State.gcDecide
  extract_lets f s1
  have h1 : s1.standing = s.standing := by simp [s1]
  simp [h1]
@[simp] theorem standing_gcLook (s : State) : s.gcLook.standing = s.standing := by simp [State.gcLook]

theorem standing_assemble (s : State) (kind pick : Nat) (coarse : Bool) (p : Placed) :
    ∀ x ∈ s.assemble kind pick coarse p, x.1.standing = s.standing := by
  unfold State.assemble
  extract_lets unit want got
  split
  · dsimp only
    split <;> simp
  · have hgot : ∀ x ∈ got, x.1.1.standing = s.standing := by
      simp only [got]
      split
      next x hx => simp [standing_bandWithRoom s _ _ _ x hx]
      next =>
        split
        · simp
        · intro x hx
          obtain ⟨y, hy, rfl⟩ := Option.mem_map.mp hx
          exact standing_bandWithRoom s _ _ _ y hy
    clear_value got
    split
    · simp
    next s1 b n =>
      split
      · simp
      next s2 st h2 =>
        dsimp only
        split <;> simp [standing_beginStripe s1 b _ h2, hgot _ rfl]

@[simp] theorem standing_leaveWindow (s : State) (a : Nat) : (s.leaveWindow a).standing = s.standing := by simp [State.leaveWindow]

@[simp] theorem standing_moveSlot (s : State) (st : Stripe) (c : CoarseSlot) : (s.moveSlot st c).standing = s.standing := by
  unfold State.moveSlot
  split
  · rfl
  · refine standing_foldl (fun t k => ?_) _ _
    split
    · split
      · split
        next u b h => simp [standing_assemble t _ _ _ _ _ h]
        next => rfl
      · rfl
    · rfl

@[simp] theorem standing_coarseMoves (s : State) : s.coarseMoves.standing = s.standing := by simp [State.coarseMoves]
@[simp] theorem standing_settle (s : State) : s.settle.standing = s.standing := by simp [State.settle]
@[simp] theorem standing_settleAll (s : State) : s.settleAll.standing = s.standing := by simp [State.settleAll]

/-- settleDma up to its last step, the flush's. -/
def State.settleBeforeFlush (s : State) : State := (State.dmaServe 65 (s.settleAll.dmaPumpAll).takeSettle).showDma

theorem settleDma_eq (s : State) : s.settleDma = s.settleBeforeFlush.flushStep := rfl

@[simp] theorem standing_settleBeforeFlush (s : State) : s.settleBeforeFlush.standing = s.standing := by simp [State.settleBeforeFlush]

/-! ### A checkpoint started -/

@[simp] theorem standing_pruneMetas (s : State) : s.pruneMetas.standing = s.standing := by simp [State.pruneMetas]

@[simp] theorem standing_freeBandsNow (s : State) : s.freeBandsNow.standing = s.standing := by simp [State.freeBandsNow]
@[simp] theorem standing_putNsTable (s : State) : s.putNsTable.standing = s.standing := by simp [State.putNsTable]
@[simp] theorem standing_putPage (s : State) (g : Nat) (x : MetaOf × List Byte) : (s.putPage g x).standing = s.standing := by simp [State.putPage]
@[simp] theorem standing_putDirs (s : State) (g : Nat) (slots : List Nat) : (s.putDirs g slots).standing = s.standing := by simp [State.putDirs]
@[simp] theorem standing_putMap (s : State) (g : Nat) (m : SMap MapEnt) : (s.putMap g m).standing = s.standing := by simp [State.putMap]

/-- A checkpoint asked for with none running adds its generation to those standing. -/
theorem standing_startCheckpoint {s : State} (h : s.cpRunning = false) :
    ∃ d, s.startCheckpoint.standing = (s.standing.1 ++ [d], s.standing.2) := by
  rw [State.startCheckpoint, if_neg (by simp [h])]
  extract_lets s1 d
  have h1 : s1.standing = s.standing := by simp [s1]
  refine ⟨d, ?_⟩
  rw [standing_settleStripes, standing_putNsTable, standing_putMap, ← h1]
  rfl

/-- What stands once checkpoint c is durable: the newest durable one before it, and c. -/
def State.keptWith (s : State) (c : Checkpoint) : List Checkpoint :=
  (s.ftl.cps.filter fun x => x.durable).drop ((s.ftl.cps.filter fun x => x.durable).length - 1) ++ [{ c with durable := true, durableAt := s.now }]

theorem durable_of_mem_keptWith {s : State} {c x : Checkpoint} (h : x ∈ s.keptWith c) : x.durable = true := by
  rcases List.mem_append.mp h with h | h
  · exact (List.mem_filter.mp (List.mem_of_mem_drop h)).2
  · rw [List.mem_singleton.mp h]

/-- The state in which checkpoint c is durable and the next may start. -/
def State.withDurable (s : State) (c : Checkpoint) : State :=
  let s1 := s.modFtl fun f => { f with cps := s.keptWith c }
  let keep := minOf (s1.ftl.cps.map fun x => x.jseqStart)
  ((s1.modFtl fun f => { f with pages := f.pages.filter fun j => keep ≤ j.jseq }).pruneMetas).wr Reg.FTL_CP_GEN_GEN c.gen

theorem cpDurable_eq {s : State} {c : Checkpoint} (hc : (s.ftl.cps.find? fun x => !x.durable && s.rootConfirmed x.gen) = some c) :
    s.cpDurable = if (s.withDurable c).ftl.shreds.isEmpty then (s.withDurable c).cpGo else (s.withDurable c).startCheckpoint := by
  unfold State.cpDurable
  rw [hc]
  rfl

theorem standing_withDurable (s : State) (c : Checkpoint) : (s.withDurable c).standing = (s.keptWith c, s.standing.2) := by
  rw [State.withDurable, standing_wr, standing_pruneMetas]
  rfl

theorem mainUp_withDurable (s : State) (c : Checkpoint) : (s.withDurable c).mainUp = s.mainUp := by
  have hreg : (s.withDurable c).rd Reg.PWR_STATUS_STATE = s.rd Reg.PWR_STATUS_STATE := rd_wr_off (by decide)
  rw [State.mainUp, hreg, State.mainUp]
  rfl

theorem cpRunning_withDurable (s : State) (c : Checkpoint) : (s.withDurable c).cpRunning = false := by
  have hcps : (s.withDurable c).ftl.cps = s.keptWith c := congrArg Prod.fst (standing_withDurable s c)
  rw [State.cpRunning, hcps, List.any_eq_false]
  intro x hx
  simp [durable_of_mem_keptWith hx]

/-- A checkpoint durable while another is asked for starts that one. -/
theorem standing_cpDurable {s : State} {c : Checkpoint} (hc : (s.ftl.cps.find? fun x => !x.durable && s.rootConfirmed x.gen) = some c)
    (hwanted : s.ftl.cpWanted = true) (hup : s.mainUp = true) : ∃ d, s.cpDurable.standing = (s.keptWith c ++ [d], s.standing.2) := by
  have hgo : (s.withDurable c).cpGo = (s.withDurable c).startCheckpoint :=
    if_pos (by simp [cpRunning_withDurable, mainUp_withDurable, hup, show (s.withDurable c).ftl.cpWanted = true from hwanted])
  obtain ⟨d, hd⟩ := standing_startCheckpoint (cpRunning_withDurable s c)
  exact ⟨d, by rw [cpDurable_eq hc, hgo, ite_self, hd, standing_withDurable]⟩

/-! ### Resets: of the checkpoints the durable ones stay -/

@[simp] theorem standing_modBoot (s : State) (f : Boot → Boot) : (s.modBoot f).standing = s.standing := standing_of_ftl rfl
@[simp] theorem standing_modBoard (s : State) (f : Board → Board) : (s.modBoard f).standing = s.standing := standing_of_ftl rfl
@[simp] theorem standing_modLife (s : State) (f : Life → Life) : (s.modLife f).standing = s.standing := standing_of_ftl rfl
@[simp] theorem standing_modThm (s : State) (f : Thm → Thm) : (s.modThm f).standing = s.standing := standing_of_ftl rfl
@[simp] theorem standing_modMaint (s : State) (f : Maint → Maint) : (s.modMaint f).standing = s.standing := standing_of_ftl rfl
@[simp] theorem standing_setPhase (s : State) (p : Nat) : (s.setPhase p).standing = s.standing := standing_of_ftl rfl
@[simp] theorem standing_showChannels (s : State) : s.showChannels.standing = s.standing := by simp [State.showChannels]
@[simp] theorem standing_noteEnd (s : State) (reason : Nat) : (s.noteEnd reason).standing = s.standing := by simp [State.noteEnd]

@[simp] theorem standing_tripKilled (s : State) (how : Nat) : (s.tripKilled how).standing = s.standing := by
  unfold State.tripKilled
  split <;> simp

@[simp] theorem standing_loadCounters (s : State) : s.loadCounters.standing = s.standing := by
  unfold State.loadCounters
  dsimp only
  split <;> simp

theorem standing_mainReset (s : State) : s.mainReset.standing = (s.standing.1.filter fun c => c.durable, Flush.none) := by
  rw [← standing_tally s 0x20 1]
  exact standing_showChannels _

theorem standing_warmReset (s : State) (suspect : Bool) :
    (s.warmReset suspect).standing = (s.standing.1.filter fun c => c.durable, Flush.none) := by
  simp [State.warmReset, standing_mainReset]

/-- A reset adds no checkpoint. -/
theorem cps_mainReset (s : State) : s.mainReset.standing.1.length ≤ s.standing.1.length := by
  rw [standing_mainReset]
  exact List.length_filter_le _ _

theorem cps_warmReset (s : State) (suspect : Bool) : (s.warmReset suspect).standing.1.length ≤ s.standing.1.length := by
  rw [standing_warmReset]
  exact List.length_filter_le _ _

theorem cps_rails0 (s : State) : s.rails0.standing.1.length ≤ s.standing.1.length := by
  unfold State.rails0
  split
  · simpa using cps_mainReset s
  · simp

theorem cps_kill (s : State) (how : Nat) : (s.kill how).standing.1.length ≤ s.standing.1.length :=
  (cps_rails0 _).trans (by simp)

theorem cps_auxReset (s : State) : s.auxReset.standing.1.length ≤ s.standing.1.length := by
  rw [State.auxReset, standing_setPhase, standing_showChannels, standing_tally, standing_modLife]
  refine le_trans (le_of_eq ?_) (cps_mainReset s)
  rw [← standing_loadCounters s.mainReset]
  rfl

theorem cps_flushEnd (s : State) : s.flushEnd.standing.1.length ≤ s.standing.1.length := by
  simp only [State.flushEnd]
  split
  · exact cps_warmReset s _
  · split
    · exact (cps_auxReset _).trans (cps_kill s 0)
    · exact cps_kill s 0

/-- No step of a flush adds a checkpoint. -/
theorem cps_flushStep (s : State) : s.flushStep.standing.1.length ≤ s.standing.1.length := by
  unfold State.flushStep
  split
  · exact le_rfl
  · extract_lets s1
    have h1 : s1.standing = s.standing := by simp [s1]
    rw [← h1]
    split
    · exact le_rfl
    · split
      · simp
      · split
        · exact cps_flushEnd s1
        · split
          · exact le_of_eq (congrArg (fun x => x.1.length) (standing_writePage s1 true))
          · split
            · exact cps_flushEnd s1
            · exact le_rfl

theorem flushStep_of_none {s : State} (h : s.standing.2.kind = 0) : s.flushStep = s := if_pos (.inl h)

theorem cps_settleDma (s : State) : s.settleDma.standing.1.length ≤ s.standing.1.length := by
  rw [settleDma_eq, ← standing_settleBeforeFlush s]
  exact cps_flushStep _

theorem standing_settleDma {s : State} (h : s.standing.2.kind = 0) : s.settleDma.standing = s.standing := by
  rw [← standing_settleBeforeFlush s] at h ⊢
  rw [settleDma_eq, flushStep_of_none h]

/-! ### Three generations after CHECKPOINT_DURABLE -/

/-- A generation of an empty map. -/
def emptyGeneration (gen : Nat) (durable : Bool) : Checkpoint where
  gen := gen
  cpSeq := 0
  seqCeil := 0
  jseqStart := 0
  map := []
  nss := []
  durable := durable
  usable := true
  startedAt := 0
  durableAt := 0
  time := 0
  digest := 0
  late := []

/-- Stripe i, of metadata, durable in the band of its number. -/
def durableStripe (i : Nat) : Stripe := ⟨i, i, 0, 2, 2, 0, 1, 1, [], [], [], [], [], [], [], 0, 0, 0⟩

/-- The band of copy i of the metadata. -/
def copyBand (i : Nat) : Band := ⟨i, 0, 3, 1, [(i, 0, 0), (i + 3, 0, 0), (i + 6, 0, 0)], 2 + i, 0, 2, false, 0, 0, []⟩

/-- Generation 1 is durable, the three copies of the root of generation 2 are too, and a further checkpoint has been asked for meanwhile. -/
def rootConfirmedOneWanted : State :=
  { State.reset with
    board := { State.reset.board with mainRunning := true }
    ftl := { Ftl.init with
      stripes := [0, 1, 2].map durableStripe
      bands := [0, 1, 2].map copyBand
      metas := [⟨some (ssaOf 0 0), .root 2, 2, [], 0⟩]
      cps := [emptyGeneration 1 true, emptyGeneration 2 false]
      cpWanted := true } }

theorem mainUp_rootConfirmedOneWanted : rootConfirmedOneWanted.mainUp = true := by decide

theorem find_rootConfirmedOneWanted :
    (rootConfirmedOneWanted.ftl.cps.find? fun x => !x.durable && rootConfirmedOneWanted.rootConfirmed x.gen) = some (emptyGeneration 2 false) := rfl

theorem exec_checkpointDurable {s : State} (h : s.mainUp = true) : exec .checkpointDurable s = .next s.cpDurable.settleDma := by
  change Host.Outcome.next (if s.mainUp then s.cpDurable.settleDma else s) = _
  rw [if_pos h]

/-- Generations 1, 2 and the one that starts stand, and no flush is in charge. -/
theorem standing_cpDurable_rootConfirmedOneWanted : ∃ d,
    rootConfirmedOneWanted.cpDurable.standing = ([emptyGeneration 1 true, { emptyGeneration 2 false with durable := true }, d], Flush.none) :=
  standing_cpDurable find_rootConfirmedOneWanted rfl mainUp_rootConfirmedOneWanted

end Sys2Proof.Machine

open Sys2Proof
open Sys2Proof.Machine

/-- Refutes O40: its clause of CHECKPOINT_DURABLE bounds the generations by two, but a checkpoint asked for while one ran starts as soon as
that one is durable (11 R397), so that the one before it, it and the one started stand, and settleDma takes none of them away. -/
theorem not_pathEventsMoveTheWrite : ¬ Obligations.PathEventsMoveTheWrite := by
  unfold Obligations.PathEventsMoveTheWrite
  intro h
  have hup := mainUp_rootConfirmedOneWanted
  obtain ⟨-, -, -, -, -, -, -, -, hdurable, -⟩ := h rootConfirmedOneWanted hup
  obtain ⟨u, hu, -, -, hlen⟩ := hdurable _ find_rootConfirmedOneWanted rfl
  obtain ⟨d, hd⟩ := standing_cpDurable_rootConfirmedOneWanted
  have hsame : rootConfirmedOneWanted.cpDurable.settleDma = u.settleDma := by
    rw [exec_checkpointDurable hup] at hu
    exact Host.Outcome.next.inj hu
  have hthree : u.settleDma.standing.1.length = 3 := by
    rw [← hsame, standing_settleDma (by rw [hd]; rfl), hd]
    rfl
  have htwo : u.settleDma.standing.1.length ≤ 2 := (cps_settleDma u).trans hlen
  omega

end

section
/-!
PROOFS. Scope: the bits of the OTP over a step (03 R91, R92).
-/
namespace Sys2Proof.Laws
open Sys2Proof.Machine

/-- No command clears a bit of the OTP: all but the six that burn it leave it alone. -/
theorem exec_grows (s t : State) : ∀ c : Instr, exec c s = .next t → grows s t
  | .registerWrite .., h => grows_of_held (execRegisterWrite_held _ _ _ _ _ t h)
  | .gblAccessViolClear agent data violation, h => grows_of_held (execGblAccessViolClear_held agent data violation s t h)
  | .splitCounterLoRead .., h => grows_of_held (execSplitCounterLoRead_held _ _ _ t h)
  | .beginFitting .., h => grows_of_held (execBeginFitting_held _ _ t h)
  | .commitFitting .., h => grows_of_held (execCommitFitting_held _ _ t h)
  | .abortFitting .., h => grows_of_held (execAbortFitting_held _ _ t h)
  | .rwfStageWrite .., h => grows_of_held (execRwfStageWrite_held _ _ _ _ t h)
  | .fitTimeoutWrite agent data, h => grows_of_held (execFitTimeoutWrite_held agent data s t h)
  | .fitIdleTimeout, h => grows_of_held (execFitIdleTimeout_held _ t h)
  | .fitAdopt .., h => grows_of_held (execFitAdopt_held _ _ t h)
  | .evtRouteWrite .., h => grows_of_held (execEvtRouteWrite_held _ _ _ _ _ t h)
  | .evtStatusClear agent w data arriving, h => grows_of_held (execEvtStatusClear_held agent w data arriving s t h)
  | .evtMaskWrite agent w data, h => grows_of_held (execEvtMaskWrite_held agent w data s t h)
  | .evtForceWrite agent w data, h => grows_of_held (execEvtForceWrite_held agent w data s t h)
  | .vauxRise, h => grows_of_held (execVauxRise_held _ t h)
  | .sysRstAccept, h => grows_of_held (execSysRstAccept_held _ t h)
  | .perstAssert .., h => grows_of_held (execPerstAssert_held _ _ t h)
  | .perstDeassert .., h => grows_of_held (execPerstDeassert_held _ _ t h)
  | .pcieHotReset .., h => grows_of_held (execPcieHotReset_held _ _ t h)
  | .controllerReset .., h => grows_of_held (execControllerReset_held _ _ t h)
  | .functionLevelReset .., h => grows_of_held (execFunctionLevelReset_held _ _ t h)
  | .ccEnSet .., h => grows_of_held (execCcEnSet_held _ _ _ _ t h)
  | .ccShnWrite .., h => grows_of_held (execCcShnWrite_held _ _ _ t h)
  | .nvmSubsystemReset .., h => grows_of_held (execNvmSubsystemReset_held _ _ t h)
  | .ftlWatchdogExpiry, h => grows_of_held (execFtlWatchdogExpiry_held _ t h)
  | .belfryWatchdogExpiry, h => grows_of_held (execBelfryWatchdogExpiry_held _ t h)
  | .phaseRom .., h => next_inj h ▸ phaseRom_grows _ _
  | .belfryFwLoad, h => grows_of_held (execBelfryFwLoad_held _ t h)
  | .imageLoad, h => next_inj h ▸ imageLoad_grows s
  | .railStageStart, h => grows_of_held (execRailStageStart_held _ t h)
  | .railStageTimeout .., h => grows_of_held (execRailStageTimeout_held _ _ _ t h)
  | .railRetry, h => grows_of_held (execRailRetry_held _ t h)
  | .mainPgFall .., h => grows_of_held (execMainPgFall_held _ _ _ t h)
  | .powerDownStage, h => grows_of_held (execPowerDownStage_held _ t h)
  | .mainInit .., h => grows_of_held (execMainInit_held _ _ t h)
  | .mainFwLoad, h => grows_of_held (execMainFwLoad_held _ t h)
  | .microcodeLoad, h => grows_of_held (execMicrocodeLoad_held _ t h)
  | .trainingEnd, h => grows_of_held (execTrainingEnd_held _ t h)
  | .enumerate .., h => grows_of_held (execEnumerate_held _ _ _ _ t h)
  | .mantleStart .., h => grows_of_held (execMantleStart_held _ _ t h)
  | .recovery .., h => grows_of_held (execRecovery_held _ _ _ t h)
  | .ready, h => grows_of_held (execReady_held _ t h)
  | .bootWatchdogExpiry, h => grows_of_held (execBootWatchdogExpiry_held _ t h)
  | .trialConfirm, h => next_inj h ▸ trialConfirm_grows s
  | .getVersion .., h => grows_of_held (execGetVersion_held _ _ t h)
  | .getCapabilities .., h => grows_of_held (execGetCapabilities_held _ _ t h)
  | .negotiateAlgorithms .., h => grows_of_held (execNegotiateAlgorithms_held _ _ t h)
  | .getDigests .., h => grows_of_held (execGetDigests_held _ _ t h)
  | .getCertificate .., h => grows_of_held (execGetCertificate_held _ _ t h)
  | .challenge .., h => grows_of_held (execChallenge_held _ _ t h)
  | .getMeasurements .., h => grows_of_held (execGetMeasurements_held _ _ t h)
  | .spdmUnsupportedRequest .., h => grows_of_held (execSpdmUnsupportedRequest_held _ _ t h)
  | .firmwareImageDownload .., h => grows_of_held (execFirmwareImageDownload_held _ _ t h)
  | .firmwareCommitReplace .., h => grows_of_held (execFirmwareCommitReplace_held _ _ t h)
  | .firmwareCommitActivate .., h => grows_of_held (execFirmwareCommitActivate_held _ _ t h)
  | .rcvStatus, h => grows_of_held (execRcvStatus_held _ t h)
  | .rcvWrite .., h => grows_of_held (execRcvWrite_held _ _ _ t h)
  | .rcvCommit .., h => grows_of_held (execRcvCommit_held _ _ t h)
  | .rcvBoot, h => grows_of_held (execRcvBoot_held _ t h)
  | .ownTake .., h => next_inj h ▸ mbServe_grows _ _ _ _ fun t m => ownTake_grows t m.args
  | .ownTransfer .., h => next_inj h ▸ mbServe_grows _ _ _ _ fun t m => ownTransfer_grows t m.args
  | .retire .., h => next_inj h ▸ retire_grows _ _
  | .sqTailDoorbell .., h => grows_of_held (execSqTailDoorbell_held _ _ _ _ t h)
  | .cqHeadDoorbell .., h => grows_of_held (execCqHeadDoorbell_held _ _ _ _ t h)
  | .commandFetch .., h => grows_of_held (execCommandFetch_held _ _ _ t h)
  | .createIoSq .., h => grows_of_held (execCreateIoSq_held _ _ t h)
  | .createIoCq .., h => grows_of_held (execCreateIoCq_held _ _ t h)
  | .deleteIoSq .., h => grows_of_held (execDeleteIoSq_held _ _ t h)
  | .deleteIoCq .., h => grows_of_held (execDeleteIoCq_held _ _ t h)
  | .identify .., h => grows_of_held (execIdentify_held _ _ t h)
  | .abortCommand .., h => grows_of_held (execAbortCommand_held _ _ t h)
  | .asynchronousEventRequest .., h => grows_of_held (execAsynchronousEventRequest_held _ _ t h)
  | .namespaceDelete .., h => grows_of_held (execNamespaceDelete_held _ _ t h)
  | .namespaceCreate .., h => grows_of_held (execNamespaceCreate_held _ _ t h)
  | .sanitizeBlockErase .., h => grows_of_held (execSanitizeBlockErase_held _ _ t h)
  | .sanitizeCryptoErase .., h => grows_of_held (execSanitizeCryptoErase_held _ _ t h)
  | .sanitizeExitFailureMode .., h => grows_of_held (execSanitizeExitFailureMode_held _ _ t h)
  | .sanitizeOverwrite .., h => grows_of_held (execSanitizeOverwrite_held _ _ t h)
  | .nvmeMiSend .., h => grows_of_held (execNvmeMiSend_held _ _ t h)
  | .nvmeMiReceive .., h => grows_of_held (execNvmeMiReceive_held _ _ t h)
  | .getLogSupportedPages .., h => grows_of_held (execGetLogSupportedPages_held _ _ t h)
  | .getLogErrorInformation .., h => grows_of_held (execGetLogErrorInformation_held _ _ t h)
  | .getLogSmartHealth .., h => grows_of_held (execGetLogSmartHealth_held _ _ t h)
  | .getLogFirmwareSlot .., h => grows_of_held (execGetLogFirmwareSlot_held _ _ t h)
  | .getLogChangedNamespaces .., h => grows_of_held (execGetLogChangedNamespaces_held _ _ t h)
  | .getLogCommandsEffects .., h => grows_of_held (execGetLogCommandsEffects_held _ _ t h)
  | .getLogSanitizeStatus .., h => grows_of_held (execGetLogSanitizeStatus_held _ _ t h)
  | .getLogClampReport .., h => grows_of_held (execGetLogClampReport_held _ _ t h)
  | .getLogStripeHealth .., h => grows_of_held (execGetLogStripeHealth_held _ _ t h)
  | .getLogMantleThermal .., h => grows_of_held (execGetLogMantleThermal_held _ _ t h)
  | .getLogTakeDirectory .., h => grows_of_held (execGetLogTakeDirectory_held _ _ t h)
  | .getLogLifetimeHistograms .., h => grows_of_held (execGetLogLifetimeHistograms_held _ _ t h)
  | .setArbitration .., h => grows_of_held (execSetArbitration_held _ _ t h)
  | .setPsRun .., h => grows_of_held (execSetPsRun_held _ _ t h)
  | .setPsCapped .., h => grows_of_held (execSetPsCapped_held _ _ t h)
  | .enterDoze .., h => grows_of_held (execEnterDoze_held _ _ t h)
  | .enterSleep .., h => grows_of_held (execEnterSleep_held _ _ t h)
  | .enterDeepSleep .., h => grows_of_held (execEnterDeepSleep_held _ _ t h)
  | .setTemperatureThreshold .., h => grows_of_held (execSetTemperatureThreshold_held _ _ t h)
  | .setErrorRecovery .., h => grows_of_held (execSetErrorRecovery_held _ _ t h)
  | .setNumberOfQueues .., h => grows_of_held (execSetNumberOfQueues_held _ _ t h)
  | .setInterruptCoalescing .., h => grows_of_held (execSetInterruptCoalescing_held _ _ t h)
  | .setInterruptVectorConfig .., h => grows_of_held (execSetInterruptVectorConfig_held _ _ t h)
  | .setWriteAtomicity .., h => grows_of_held (execSetWriteAtomicity_held _ _ t h)
  | .setAsyncEventConfig .., h => grows_of_held (execSetAsyncEventConfig_held _ _ t h)
  | .setHostThermalManagement .., h => grows_of_held (execSetHostThermalManagement_held _ _ t h)
  | .setMantleState .., h => grows_of_held (execSetMantleState_held _ _ t h)
  | .setDirtyWindow .., h => grows_of_held (execSetDirtyWindow_held _ _ t h)
  | .setThermalPolicy .., h => grows_of_held (execSetThermalPolicy_held _ _ t h)
  | .setSteepleRole .., h => grows_of_held (execSetSteepleRole_held _ _ t h)
  | .getFeatures .., h => grows_of_held (execGetFeatures_held _ _ t h)
  | .getMantleState .., h => grows_of_held (execGetMantleState_held _ _ t h)
  | .write .., h => grows_of_held (execWrite_held _ _ t h)
  | .read .., h => grows_of_held (execRead_held _ _ _ _ _ t h)
  | .flush .., h => grows_of_held (execFlush_held _ _ t h)
  | .writeZeroes .., h => grows_of_held (execWriteZeroes_held _ _ t h)
  | .datasetManagement .., h => grows_of_held (execDatasetManagement_held _ _ t h)
  | .verify .., h => grows_of_held (execVerify_held _ _ _ _ t h)
  | .shred .., h => grows_of_held (execShred_held _ _ t h)
  | .frameWrite .., h => grows_of_held (execFrameWrite_held _ _ t h)
  | .frameSegmentTimeout, h => grows_of_held (execFrameSegmentTimeout_held _ t h)
  | .takeNotRecordingReply, h => grows_of_held (execTakeNotRecordingReply_held _ t h)
  | .takeOpen .., h => grows_of_held (execTakeOpen_held _ _ t h)
  | .takeCloseNow .., h => grows_of_held (execTakeCloseNow_held _ _ t h)
  | .takeCloseAtTime .., h => grows_of_held (execTakeCloseAtTime_held _ _ t h)
  | .takeDelete .., h => grows_of_held (execTakeDelete_held _ _ t h)
  | .triggerStart .., h => grows_of_held (execTriggerStart_held _ _ t h)
  | .triggerStop .., h => grows_of_held (execTriggerStop_held _ _ t h)
  | .triggerMark .., h => grows_of_held (execTriggerMark_held _ _ t h)
  | .scheduledTriggerFire, h => grows_of_held (execScheduledTriggerFire_held _ t h)
  | .closePointReached, h => grows_of_held (execClosePointReached_held _ t h)
  | .trigInEdge .., h => grows_of_held (execTrigInEdge_held _ _ _ _ t h)
  | .trigOutPulseEnd, h => grows_of_held (execTrigOutPulseEnd_held _ t h)
  | .takDmaPiWrite .., h => grows_of_held (execTakDmaPiWrite_held _ _ _ _ _ t h)
  | .takDmaResume agent d data, h => grows_of_held (execTakDmaResume_held agent d data s t h)
  | .dmaMaxWaitExpiry d, h => grows_of_held (execDmaMaxWaitExpiry_held d s t h)
  | .dmaDescriptorArrival .., h => grows_of_held (execDmaDescriptorArrival_held _ _ _ t h)
  | .dmaReadbackComplete .., h => grows_of_held (execDmaReadbackComplete_held _ _ _ _ t h)
  | .dmaCoalesceTimer .., h => grows_of_held (execDmaCoalesceTimer_held _ _ t h)
  | .hostDataArrival .., h => grows_of_held (execHostDataArrival_held _ _ _ _ _ _ t h)
  | .chunkGrant, h => grows_of_held (execChunkGrant_held _ t h)
  | .bulkPromotion, h => grows_of_held (execBulkPromotion_held _ t h)
  | .sectorEncrypted .., h => grows_of_held (execSectorEncrypted_held _ _ _ _ _ t h)
  | .stagingCopyAccepted .., h => grows_of_held (execStagingCopyAccepted_held _ _ t h)
  | .stripeCloseTimer .., h => grows_of_held (execStripeCloseTimer_held _ _ t h)
  | .governorTick, h => grows_of_held (execGovernorTick_held _ t h)
  | .degradedExit, h => grows_of_held (execDegradedExit_held _ t h)
  | .mntPfiFall, h => grows_of_held (execMntPfiFall_held _ t h)
  | .lossReport, h => grows_of_held (execLossReport_held _ t h)
  | .powerRestored, h => grows_of_held (execPowerRestored_held _ t h)
  | .coolFlushDeadline, h => grows_of_held (execCoolFlushDeadline_held _ t h)
  | .replicaRealign, h => grows_of_held (execReplicaRealign_held _ t h)
  | .journalPageTimer, h => grows_of_held (execJournalPageTimer_held _ t h)
  | .checkpointDurable, h => grows_of_held (execCheckpointDurable_held _ t h)
  | .fineTableWaitProceed, h => grows_of_held (execFineTableWaitProceed_held _ t h)
  | .garbageCollectionRelocate .., h => grows_of_held (execGarbageCollectionRelocate_held _ _ _ _ _ _ t h)
  | .slowClassifyTick, h => grows_of_held (execSlowClassifyTick_held _ t h)
  | .slowProbe .., h => grows_of_held (execSlowProbe_held _ _ _ t h)
  | .readHedgeTimeout .., h => grows_of_held (execReadHedgeTimeout_held _ _ _ _ t h)
  | .auditStripe .., h => grows_of_held (execAuditStripe_held _ _ _ t h)
  | .operationRequest .., h => grows_of_held (execOperationRequest_held _ _ _ _ _ _ _ _ _ _ _ _ _ _ t h)
  | .operationStart .., h => grows_of_held (execOperationStart_held _ _ t h)
  | .operationEnd .., h => grows_of_held (execOperationEnd_held _ _ _ _ t h)
  | .nop .., h => grows_of_held (execNop_held _ _ t h)
  | .cmd .., h => grows_of_held (execCmd_held _ _ t h)
  | .addr .., h => grows_of_held (execAddr_held _ _ t h)
  | .doutRaw .., h => grows_of_held (execDoutRaw_held _ _ t h)
  | .doutImage .., h => grows_of_held (execDoutImage_held _ _ t h)
  | .dinRaw .., h => grows_of_held (execDinRaw_held _ _ t h)
  | .dinImage .., h => grows_of_held (execDinImage_held _ _ t h)
  | .dinSoft .., h => grows_of_held (execDinSoft_held _ _ t h)
  | .statusWord .., h => grows_of_held (execStatusWord_held _ _ t h)
  | .wait .., h => grows_of_held (execWait_held _ _ t h)
  | .waitEnd .., h => grows_of_held (execWaitEnd_held _ _ _ t h)
  | .timerArmWatchdog .., h => grows_of_held (execTimerArmWatchdog_held _ _ t h)
  | .timerStopWatchdog .., h => grows_of_held (execTimerStopWatchdog_held _ _ t h)
  | .timerArmPoll .., h => grows_of_held (execTimerArmPoll_held _ _ t h)
  | .pollTimerExpiry .., h => grows_of_held (execPollTimerExpiry_held _ _ _ t h)
  | .sleeveWatchdogExpiry .., h => grows_of_held (execSleeveWatchdogExpiry_held _ _ _ t h)
  | .movi .., h => grows_of_held (execMovi_held _ _ t h)
  | .addWord .., h => grows_of_held (execAddWord_held _ _ t h)
  | .addi .., h => grows_of_held (execAddi_held _ _ t h)
  | .sub .., h => grows_of_held (execSub_held _ _ t h)
  | .andWord .., h => grows_of_held (execAndWord_held _ _ t h)
  | .orWord .., h => grows_of_held (execOrWord_held _ _ t h)
  | .xorWord .., h => grows_of_held (execXorWord_held _ _ t h)
  | .shli .., h => grows_of_held (execShli_held _ _ t h)
  | .shri .., h => grows_of_held (execShri_held _ _ t h)
  | .andi .., h => grows_of_held (execAndi_held _ _ t h)
  | .ori .., h => grows_of_held (execOri_held _ _ t h)
  | .cmp .., h => grows_of_held (execCmp_held _ _ t h)
  | .cmpi .., h => grows_of_held (execCmpi_held _ _ t h)
  | .loadPersonality .., h => grows_of_held (execLoadPersonality_held _ _ t h)
  | .loadScratch .., h => grows_of_held (execLoadScratch_held _ _ t h)
  | .loadContextState .., h => grows_of_held (execLoadContextState_held _ _ t h)
  | .store .., h => grows_of_held (execStore_held _ _ t h)
  | .branchJump .., h => grows_of_held (execBranchJump_held _ _ t h)
  | .branchCall .., h => grows_of_held (execBranchCall_held _ _ t h)
  | .branchReturn .., h => grows_of_held (execBranchReturn_held _ _ t h)
  | .reportOk .., h => grows_of_held (execReportOk_held _ _ t h)
  | .reportFail .., h => grows_of_held (execReportFail_held _ _ t h)
  | .reportInterrupted .., h => grows_of_held (execReportInterrupted_held _ _ t h)
  | .yield .., h => grows_of_held (execYield_held _ _ t h)
  | .decodeHard .., h => grows_of_held (execDecodeHard_held _ _ t h)
  | .decodeSoft .., h => grows_of_held (execDecodeSoft_held _ _ t h)
  | .decodeComplete .., h => grows_of_held (execDecodeComplete_held _ _ _ _ t h)
  | .trap .., h => grows_of_held (execTrap_held _ _ t h)
  | .endWord .., h => grows_of_held (execEndWord_held _ _ t h)
  | .illegalWord .., h => grows_of_held (execIllegalWord_held _ _ _ t h)
  | .microcodePatch .., h => grows_of_held (execMicrocodePatch_held _ _ t h)
  | .crossoverTimeout .., h => grows_of_held (execCrossoverTimeout_held _ _ t h)
  | .jlBlockLockAcquire .., h => grows_of_held (execJlBlockLockAcquire_held _ _ t h)
  | .jlBlockLockLoss .., h => grows_of_held (execJlBlockLockLoss_held _ _ t h)
  | .jlTs1 .., h => grows_of_held (execJlTs1_held _ _ _ t h)
  | .jlTs2 .., h => grows_of_held (execJlTs2_held _ _ _ t h)
  | .jlStart .., h => grows_of_held (execJlStart_held _ _ t h)
  | .jlPark .., h => grows_of_held (execJlPark_held _ _ t h)
  | .jlElectricalIdleExit .., h => grows_of_held (execJlElectricalIdleExit_held _ _ t h)
  | .jlStateTimeout .., h => grows_of_held (execJlStateTimeout_held _ _ t h)
  | .jlEqualizeStep .., h => grows_of_held (execJlEqualizeStep_held _ _ _ _ _ _ t h)
  | .jlSpeedChangeIdleEnd .., h => grows_of_held (execJlSpeedChangeIdleEnd_held _ _ t h)
  | .jlTrainingWindowExpiry .., h => grows_of_held (execJlTrainingWindowExpiry_held _ _ t h)
  | .jlDownRetry .., h => grows_of_held (execJlDownRetry_held _ _ t h)
  | .jlDownRetire .., h => grows_of_held (execJlDownRetire_held _ _ t h)
  | .jlFlitReceive .., h => grows_of_held (execJlFlitReceive_held _ _ _ t h)
  | .jlReplayTimeout .., h => grows_of_held (execJlReplayTimeout_held _ _ t h)
  | .jlCtlRetrain agent link, h => grows_of_held (execJlCtlRetrain_held agent link s t h)
  | .jlCtlRetrainFull agent link, h => grows_of_held (execJlCtlRetrainFull_held agent link s t h)
  | .jlMarginStart agent link data, h => grows_of_held (execJlMarginStart_held agent link data s t h)
  | .jlMarginAbort agent link data, h => grows_of_held (execJlMarginAbort_held agent link data s t h)
  | .jlMarginDone .., h => grows_of_held (execJlMarginDone_held _ _ _ t h)
  | .jlTestStart agent link data, h => grows_of_held (execJlTestStart_held agent link data s t h)
  | .jlTestStop agent link data locked errors, h => grows_of_held (execJlTestStop_held agent link data locked errors s t h)
  | .dataIn .., h => grows_of_held (execDataIn_held _ _ t h)
  | .statusResp .., h => grows_of_held (execStatusResp_held _ _ t h)
  | .edgeCapsule .., h => grows_of_held (execEdgeCapsule_held _ _ t h)
  | .tempCapsule .., h => grows_of_held (execTempCapsule_held _ _ t h)
  | .errorCapsule .., h => grows_of_held (execErrorCapsule_held _ _ t h)
  | .mgmtResp .., h => grows_of_held (execMgmtResp_held _ _ t h)
  | .jlReplyTimeout .., h => grows_of_held (execJlReplyTimeout_held _ _ t h)
  | .jlTempStale .., h => grows_of_held (execJlTempStale_held _ _ t h)
  | .keyLoadLoad .., h => grows_of_held (execKeyLoadLoad_held _ _ t h)
  | .keyLoadGenerate .., h => grows_of_held (execKeyLoadGenerate_held _ _ t h)
  | .keyLoadClear .., h => grows_of_held (execKeyLoadClear_held _ _ t h)
  | .keyRecordDurable .., h => grows_of_held (execKeyRecordDurable_held _ _ t h)
  | .entropyHealthFail, h => grows_of_held (execEntropyHealthFail_held _ t h)
  | .maskingReseed, h => grows_of_held (execMaskingReseed_held _ t h)
  | .dramRefreshTick .., h => grows_of_held (execDramRefreshTick_held _ _ _ _ t h)
  | .dramMr4Poll .., h => grows_of_held (execDramMr4Poll_held _ _ _ t h)
  | .dramWck2dqiTrack .., h => grows_of_held (execDramWck2dqiTrack_held _ _ _ _ t h)
  | .dramReadReturn .., h => grows_of_held (execDramReadReturn_held _ _ _ _ _ _ _ t h)
  | .dramLineRebuildTimeout, h => grows_of_held (execDramLineRebuildTimeout_held _ t h)
  | .dramScrubRead .., h => grows_of_held (execDramScrubRead_held _ _ _ _ _ t h)
  | .dramTrainingFail .., h => grows_of_held (execDramTrainingFail_held _ _ t h)
  | .writeData, h => grows_of_held (execWriteData_held _ t h)
  | .writeCheck, h => grows_of_held (execWriteCheck_held _ t h)
  | .writeBoth, h => grows_of_held (execWriteBoth_held _ t h)
  | .readRaw, h => grows_of_held (execReadRaw_held _ t h)
  | .drcTestRead .., h => grows_of_held (execDrcTestRead_held _ _ _ t h)
  | .mntSampleInstant .., h => grows_of_held (execMntSampleInstant_held _ _ t h)
  | .mntPeriodCompute .., h => grows_of_held (execMntPeriodCompute_held _ _ _ _ t h)
  | .chargeLimitedTimer, h => grows_of_held (execChargeLimitedTimer_held _ t h)
  | .mntLoopBypassWrite .., h => grows_of_held (execMntLoopBypassWrite_held _ _ _ _ t h)
  | .mntTargetWrite .., h => grows_of_held (execMntTargetWrite_held _ _ _ _ t h)
  | .mntLoopFlagsClear agent slot data arriving, h => grows_of_held (execMntLoopFlagsClear_held agent slot data arriving s t h)
  | .mntFaultNFall, h => grows_of_held (execMntFaultNFall_held _ t h)
  | .mntFaultNRelease, h => grows_of_held (execMntFaultNRelease_held _ t h)
  | .mntTrcArm agent slot data, h => grows_of_held (execMntTrcArm_held agent slot data s t h)
  | .mntTrcTrigger agent slot data, h => grows_of_held (execMntTrcTrigger_held agent slot data s t h)
  | .mntTrcStop agent slot data, h => grows_of_held (execMntTrcStop_held agent slot data s t h)
  | .mntStringSample .., h => grows_of_held (execMntStringSample_held _ _ t h)
  | .mntTempSample .., h => grows_of_held (execMntTempSample_held _ _ t h)
  | .mntEnergyCompute, h => grows_of_held (execMntEnergyCompute_held _ t h)
  | .mntChargeControl, h => grows_of_held (execMntChargeControl_held _ t h)
  | .mntLearnStart .., h => grows_of_held (execMntLearnStart_held _ _ _ t h)
  | .mntLearnAbort .., h => grows_of_held (execMntLearnAbort_held _ _ _ t h)
  | .learnDischargeBegin, h => grows_of_held (execLearnDischargeBegin_held _ t h)
  | .learnDischargeEnd, h => grows_of_held (execLearnDischargeEnd_held _ t h)
  | .learnRestEnd, h => grows_of_held (execLearnRestEnd_held _ t h)
  | .learnRechargeDone, h => grows_of_held (execLearnRechargeDone_held _ t h)
  | .compatRecordWrite .., h => grows_of_held (execCompatRecordWrite_held _ _ t h)
  | .powerOff .., h => grows_of_held (execPowerOff_held _ _ t h)
  | .entryDrainDone, h => grows_of_held (execEntryDrainDone_held _ t h)
  | .entryGatingDone, h => grows_of_held (execEntryGatingDone_held _ t h)
  | .wakeNLow, h => grows_of_held (execWakeNLow_held _ t h)
  | .mgmtMessageWake, h => grows_of_held (execMgmtMessageWake_held _ t h)
  | .offMgmtTransaction, h => grows_of_held (execOffMgmtTransaction_held _ t h)
  | .offBelfryHalt, h => grows_of_held (execOffBelfryHalt_held _ t h)
  | .wakeTimerExpiry, h => grows_of_held (execWakeTimerExpiry_held _ t h)
  | .exitComplete .., h => grows_of_held (execExitComplete_held _ _ _ t h)
  | .thmSensorResult .., h => grows_of_held (execThmSensorResult_held _ _ _ _ t h)
  | .thmRateTick, h => grows_of_held (execThmRateTick_held _ t h)
  | .graceExpiry, h => grows_of_held (execGraceExpiry_held _ t h)
  | .tripRestart, h => grows_of_held (execTripRestart_held _ t h)
  | .sensorSelfTest .., h => grows_of_held (execSensorSelfTest_held _ _ t h)
  | .tripRecordWrite, h => grows_of_held (execTripRecordWrite_held _ t h)
  | .fanCheck .., h => grows_of_held (execFanCheck_held _ _ t h)
  | .faultClear .., h => grows_of_held (execFaultClear_held _ _ t h)
  | .tripAck .., h => grows_of_held (execTripAck_held _ _ t h)
  | .maintRequest .., h => grows_of_held (execMaintRequest_held _ _ t h)
  | .maintCancel .., h => grows_of_held (execMaintCancel_held _ _ t h)
  | .linkIsolate .., h => grows_of_held (execLinkIsolate_held _ _ t h)
  | .linkReturn .., h => grows_of_held (execLinkReturn_held _ _ t h)
  | .linkRetire .., h => grows_of_held (execLinkRetire_held _ _ t h)
  | .sleeveBypass .., h => grows_of_held (execSleeveBypass_held _ _ t h)
  | .sleeveReturn .., h => grows_of_held (execSleeveReturn_held _ _ t h)
  | .laneBypass .., h => grows_of_held (execLaneBypass_held _ _ t h)
  | .laneTest .., h => grows_of_held (execLaneTest_held _ _ _ t h)
  | .laneReturn .., h => grows_of_held (execLaneReturn_held _ _ t h)
  | .loopBypass .., h => grows_of_held (execLoopBypass_held _ _ t h)
  | .loopReturn .., h => grows_of_held (execLoopReturn_held _ _ t h)
  | .portReset .., h => grows_of_held (execPortReset_held _ _ t h)
  | .channelRetire .., h => grows_of_held (execChannelRetire_held _ _ t h)
  | .channelReturn .., h => grows_of_held (execChannelReturn_held _ _ t h)
  | .logRead .., h => grows_of_held (execLogRead_held _ _ t h)
  | .schedulingPass .., h => grows_of_held (execSchedulingPass_held _ _ t h)
  | .maintActivityEnd .., h => grows_of_held (execMaintActivityEnd_held _ _ _ t h)
  | .marginMeasurement, h => grows_of_held (execMarginMeasurement_held _ t h)
  | .countersRecordWrite, h => grows_of_held (execCountersRecordWrite_held _ t h)
  | .stpUpLockAcquired, h => grows_of_held (execStpUpLockAcquired_held _ t h)
  | .stpDnLockAcquired, h => grows_of_held (execStpDnLockAcquired_held _ t h)
  | .stpUpLockLost .., h => grows_of_held (execStpUpLockLost_held _ _ t h)
  | .stpDnLockLost .., h => grows_of_held (execStpDnLockLost_held _ _ t h)
  | .stpTime .., h => grows_of_held (execStpTime_held _ _ t h)
  | .stpDelayReq .., h => grows_of_held (execStpDelayReq_held _ _ _ t h)
  | .stpDelayResp .., h => grows_of_held (execStpDelayResp_held _ _ t h)
  | .stpTrigger .., h => grows_of_held (execStpTrigger_held _ _ t h)
  | .stpTakeOpen .., h => grows_of_held (execStpTakeOpen_held _ _ t h)
  | .stpTakeClose .., h => grows_of_held (execStpTakeClose_held _ _ t h)
  | .stpCal .., h => grows_of_held (execStpCal_held _ _ t h)
  | .stpStatus .., h => grows_of_held (execStpStatus_held _ _ t h)
  | .stpTimeSend, h => grows_of_held (execStpTimeSend_held _ t h)
  | .stpDelayReqSend, h => grows_of_held (execStpDelayReqSend_held _ t h)
  | .stpCalSend, h => grows_of_held (execStpCalSend_held _ t h)
  | .stpStatusSend, h => grows_of_held (execStpStatusSend_held _ t h)
  | .stpBroadcastRepeat, h => grows_of_held (execStpBroadcastRepeat_held _ t h)
  | .stpAcquireTimeout, h => grows_of_held (execStpAcquireTimeout_held _ t h)
  | .stpSlewComplete, h => grows_of_held (execStpSlewComplete_held _ t h)
  | .stpRefPpsEdge, h => grows_of_held (execStpRefPpsEdge_held _ t h)
  | .stpRefPpsLoss, h => grows_of_held (execStpRefPpsLoss_held _ t h)
  | .stpRef10mLoss, h => grows_of_held (execStpRef10mLoss_held _ t h)
  | .stpCalCtlWrite agent data, h => grows_of_held (execStpCalCtlWrite_held agent data s t h)
  | .miReadDataStructure .., h => grows_of_held (execMiReadDataStructure_held _ _ _ t h)
  | .miSubsystemHealthPoll .., h => grows_of_held (execMiSubsystemHealthPoll_held _ _ _ t h)
  | .miControllerHealthPoll .., h => grows_of_held (execMiControllerHealthPoll_held _ _ _ t h)
  | .miConfigurationSet .., h => grows_of_held (execMiConfigurationSet_held _ _ _ t h)
  | .miConfigurationGet .., h => grows_of_held (execMiConfigurationGet_held _ _ _ t h)
  | .miVpdRead .., h => grows_of_held (execMiVpdRead_held _ _ _ t h)
  | .miVpdWrite nmd0 nmd1 data, h => grows_of_held (execMiVpdWrite_held nmd0 nmd1 data s t h)
  | .miReset .., h => grows_of_held (execMiReset_held _ _ _ t h)
  | .miShutdown .., h => grows_of_held (execMiShutdown_held _ _ _ t h)
  | .miAdminCommand .., h => grows_of_held (execMiAdminCommand_held _ _ _ t h)
  | .fittingStage .., h => grows_of_held (execFittingStage_held _ _ t h)
  | .fittingBegin .., h => grows_of_held (execFittingBegin_held _ _ t h)
  | .fittingCommit .., h => grows_of_held (execFittingCommit_held _ _ t h)
  | .fittingAbort .., h => grows_of_held (execFittingAbort_held _ _ t h)
  | .fittingBeginStageCommit .., h => grows_of_held (execFittingBeginStageCommit_held _ _ t h)
  | .fittingReport .., h => grows_of_held (execFittingReport_held _ _ t h)
  | .invalidCommandOpcode .., h => grows_of_held (execInvalidCommandOpcode_held _ _ t h)
  | .mailboxUnsupportedOpcode .., h => grows_of_held (execMailboxUnsupportedOpcode_held _ _ t h)
  | .pcieLinkUp .., h => grows_of_held (execPcieLinkUp_held _ _ _ _ t h)
  | .configurationRequest .., h => grows_of_held (execConfigurationRequest_held _ _ t h)
  | .vauxFall, h => grows_of_held (execVauxFall_held _ t h)
  | .mntPfiRise, h => grows_of_held (execMntPfiRise_held _ t h)
  | .stpRef10mLock, h => grows_of_held (execStpRef10mLock_held _ t h)
  | .stpMemberTimeout, h => grows_of_held (execStpMemberTimeout_held _ t h)
  | .entropyFaultClear .., h => grows_of_held (execEntropyFaultClear_held _ _ t h)
  | .dramRetrainDone .., h => grows_of_held (execDramRetrainDone_held _ _ _ t h)
  | .enumerateDieDeadline, h => grows_of_held (execEnumerateDieDeadline_held _ t h)

/-- A step clears no bit of the OTP: time passing leaves it, a command only burns it. -/
theorem step_keeps_bits {s t : State} (h : step s = .next t) (w : Nat) : s.otpWord w &&& t.otpWord w = s.otpWord w := by
  unfold step at h
  split at h
  · rw [← next_inj h, State.otpWord, State.otpWord, (idle_keeps s).2, BitVec.and_self]
  next c rest _ =>
    obtain ⟨-, -, hbits⟩ := exec_grows _ t c h
    exact hbits w

/-- A field of a word that has lost no bit has lost none. -/
theorem bitsOf_and_of_subset {x y : Word} (h : x &&& y = x) (l n : Nat) : bitsOf x l n &&& bitsOf y l n = bitsOf x l n := by
  refine Nat.eq_of_testBit_eq fun i => ?_
  rw [Nat.testBit_and, testBit_bitsOf, testBit_bitsOf]
  conv_rhs => rw [← h, BitVec.getLsbD_and]
  cases decide (i < n) <;> simp

/-- A lifecycle other than RETIRED is the low 4 bits of OTP word 3 as they stand. -/
theorem lifecycle_eq {s : State} (h : s.lifecycle ≠ 7) : s.lifecycle = bitsOf (s.otpWord 3) 0 4 := by
  unfold State.lifecycle at h ⊢
  dsimp only at h ⊢
  split
  · rfl
  · rename_i hlisted
    exact absurd (if_neg hlisted) h

/-- The low 4 bits of OTP word 3 with more of them burnt: where it was 0, 1 or 3 the lifecycle may go on to what it decodes to. -/
theorem lifecycleMay_of_and_eq : ∀ a < 16, ∀ b < 16, a &&& b = a → a = 0 ∨ a = 1 ∨ a = 3 →
    Safety.lifecycleMay a (if b = 0 ∨ b = 1 ∨ b = 3 then b else 7) = true := by
  decide

end Sys2Proof.Laws

open Sys2Proof
open Sys2Proof.Machine
open Sys2Proof.Laws

/-- Settles O4: each of a step's commands, and time, keeps every burnt bit. -/
theorem otpBitsNeverClear : Obligations.OtpBitsNeverClear := by
  intro o s t hburnt hstep w
  rw [← hburnt w, BitVec.and_assoc, step_keeps_bits hstep w]

/-- Settles O6: no bit of LIFECYCLE clears, and in its code every value with more bits set is later. -/
theorem lifecycleOnlyAdvances : Obligations.LifecycleOnlyAdvances := by
  intro s t hlisted hstep
  have hcode := lifecycle_eq hlisted
  have hmore := bitsOf_and_of_subset (step_keeps_bits hstep 3) 0 4
  have hwidth (u : State) : bitsOf (u.otpWord 3) 0 4 < 16 := Nat.mod_lt _ (by decide)
  have hvalue : bitsOf (s.otpWord 3) 0 4 = 0 ∨ bitsOf (s.otpWord 3) 0 4 = 1 ∨ bitsOf (s.otpWord 3) 0 4 = 3 := by
    by_contra hnone
    exact hlisted (if_neg hnone)
  rw [hcode]
  exact lifecycleMay_of_and_eq _ (hwidth s) _ (hwidth t) hmore hvalue

end

section
/-!
PROOFS. Scope: resets and watchdogs (03 R80 to R82, R89; 01 R42; 06 R176, R206).
-/
namespace Sys2Proof.Machine

/-! ### States in which the main domain answers -/

theorem mainUp_of_inRun {s : State} (h : Safety.inRun s) : s.mainUp = true := by
  obtain ⟨hrunning, hstate, -⟩ := h
  rw [State.pwrState] at hstate
  simp [State.mainUp, hrunning, hstate]

/-! ### One equation a command, where its condition holds -/

/-- PERST_ASSERT in Run on a released pin: a port reset, and a wake. -/
theorem perstLow_of_inRun {s : State} {p : Nat} (hrun : Safety.inRun s) (hpin : s.board.perst.getD p true = false) :
    s.perstLow p = ((s.modBoard fun b => { b with perst := modAt b.perst p fun _ => true }).portReset p).wake (2 + p) := by
  have hup : (s.modBoard fun b => { b with perst := modAt b.perst p fun _ => true }).mainUp = true := mainUp_of_inRun hrun
  have hstate : (s.modBoard fun b => { b with perst := modAt b.perst p fun _ => true }).pwrState = 0 := hrun.2.1
  rw [State.perstLow, if_neg (by rw [hpin]; decide)]
  dsimp only
  rw [if_neg (by simp [hup]), if_pos hstate]

theorem nssr_of_mainUp {s : State} (h : s.mainUp = true) : s.nssr = s.warmFlush true false := by rw [State.nssr, if_pos h]

/-- A restarted Belfry whose firmware passes its check writes the reserve records fallen due and raises source 1,777. -/
theorem belfryWatchdog_of_check {s : State} (hruns : s.belfryRuns = true) (hcheck : s.belfryDown.belfryCheck.boot.belfryHalted = false) :
    s.belfryWatchdog = ((List.range 1024).foldl State.reserveDurable s.belfryDown.belfryCheck).raise 1777 := by
  rw [State.belfryWatchdog, if_neg (by simp [hruns])]
  dsimp only
  rw [if_neg (by simp [hcheck])]

theorem bootWatchdog_early {s : State} (h : s.now < s.boot.mainInitAt + 2000000000) : s.bootWatchdog = s := by
  rw [State.bootWatchdog, if_pos (by simp [h])]

/-- The boot watchdog due between MAIN_INIT and MANTLE: an attempt of a trial, or of the confirmed configuration. -/
theorem bootWatchdog_due {s : State} (hruns : s.belfryRuns = true) (hmain : s.board.mainRunning = true) (hlo : 4 ≤ s.phase)
    (hhi : s.phase ≤ 9) (hdue : s.boot.mainInitAt + 2000000000 ≤ s.now) :
    s.bootWatchdog = if (s.bootError 4).trialAny then ((s.bootError 4).trialFail.showTrial).warmFlush false false else (s.bootError 4).bootFail := by
  rw [State.bootWatchdog, if_neg (by simp [hruns, hmain]; omega)]

/-- A shutdown notification shows SHN, and SHST 01b while it waits. -/
theorem shutdown_ctrl (s : State) (c : Fin 4) {shn : Nat} (h : shn = 1 ∨ shn = 2) :
    ((s.shutdown c shn).ctrl c.val).shst = 1 ∧ ((s.shutdown c shn).ctrl c.val).shn = shn := by
  rw [State.shutdown, if_neg (by omega)]
  have hctrl : (s.modCtrl c.val fun k => { k with shn := shn, shst := 1 }).ctrl c.val = { s.ctrl c.val with shn := shn, shst := 1 } := by
    rw [State.modCtrl, ctrl_setCtrl, if_pos rfl]
  exact ⟨congrArg Ctrl.shst hctrl, congrArg Ctrl.shn hctrl⟩

/-- SYS_RST_N with VAUX: in Run the loss flush that ends in an aux reset; with the main domain down the aux reset at once. -/
theorem sysRst_of_inRun {s : State} (hvaux : s.board.vaux = true) (hmain : s.board.mainRunning = true) (hrun : s.inRun = true) :
    s.sysRst = s.lossFlush 2 := by
  simp [State.sysRst, hvaux, hmain, hrun]

theorem sysRst_of_mainDown {s : State} (hvaux : s.board.vaux = true) (hmain : s.board.mainRunning = false) : s.sysRst = s.auxReset := by
  simp [State.sysRst, hvaux, hmain]

theorem sysRst_of_noVaux {s : State} (h : s.board.vaux = false) : s.sysRst = s := by
  simp [State.sysRst, h]

end Sys2Proof.Machine

open Sys2Proof
open Sys2Proof.Machine

/-- Settles O23: each command under its condition, by what its operation does there. -/
theorem resetsAndWatchdogsRun : Obligations.ResetsAndWatchdogsRun := by
  intro s
  refine ⟨fun p hrun hpin => ?_, fun c hup hctrl => ?_, fun c hup hen => ?_, fun c hup hctrl => ?_, fun hup => ?_, fun hruns hcheck => ?_,
    fun hearly => ?_, fun hruns hmain hlo hhi hdue => ?_, fun c shn hup hctrl hshn => ?_, fun hvaux hmain => ?_, fun hvaux hmain hrun => ?_,
    fun hvaux => ?_⟩
  · exact congrArg Host.Outcome.next (perstLow_of_inRun hrun hpin)
  · exact congrArg Host.Outcome.next (if_pos (by simp [hup, hctrl]))
  · exact congrArg Host.Outcome.next (if_pos (by simp [hup, hen]))
  · exact congrArg Host.Outcome.next ((if_pos hctrl).trans (nssr_of_mainUp hup))
  · exact congrArg Host.Outcome.next (if_pos hup)
  · exact congrArg (fun t => Host.Outcome.next (State.settleDma t)) (belfryWatchdog_of_check hruns hcheck)
  · exact congrArg (fun t => Host.Outcome.next (State.settleDma t)) (bootWatchdog_early hearly)
  · exact congrArg (fun t => Host.Outcome.next (State.settleDma t)) (bootWatchdog_due hruns hmain hlo hhi hdue)
  · exact ⟨congrArg Host.Outcome.next (if_pos (by simp [hup, hctrl])), shutdown_ctrl s c hshn⟩
  · exact congrArg Host.Outcome.next (sysRst_of_mainDown hvaux hmain)
  · exact congrArg Host.Outcome.next (sysRst_of_inRun hvaux hmain hrun)
  · exact congrArg Host.Outcome.next (sysRst_of_noVaux hvaux)

end

section
/-!
PROOFS. Scope: ports and controllers come up (03 R85 to R87; 06 R173 to R175).
-/
namespace Sys2Proof.Machine

/-! ### One controller after another -/

@[simp] theorem ctrl_modCtrl_same (s : State) (c : Nat) (f : Ctrl → Ctrl) : (s.modCtrl c f).ctrl c = f (s.ctrl c) := by
  rw [State.modCtrl, ctrl_setCtrl, if_pos rfl]

theorem ctrl_modCtrl_other {s : State} {c k : Nat} {f : Ctrl → Ctrl} (h : k ≠ c) : (s.modCtrl c f).ctrl k = s.ctrl k := by
  rw [State.modCtrl, ctrl_setCtrl, if_neg h]

/-- What is done to each controller of a list, under one image, is done once to each of them and to no other. -/
theorem ctrl_foldl {g : State → Nat → State} {f : Nat → Ctrl → Ctrl} {im : Image} (himage : ∀ t c, (g t c).image = t.image)
    (hself : ∀ t c, t.image = im → (g t c).ctrl c = f c (t.ctrl c)) (hother : ∀ t c k, k ≠ c → (g t c).ctrl k = t.ctrl k)
    {l : List Nat} (hl : l.Nodup) {s : State} (hs : s.image = im) (k : Nat) :
    (l.foldl g s).ctrl k = if k ∈ l then f k (s.ctrl k) else s.ctrl k := by
  induction l generalizing s with
  | nil => rfl
  | cons c l ih =>
    obtain ⟨hc, hl⟩ := List.nodup_cons.mp hl
    rw [List.foldl_cons, ih hl ((himage s c).trans hs)]
    by_cases hk : k = c
    · subst hk
      rw [if_neg hc, if_pos List.mem_cons_self, hself s k hs]
    · rw [hother s c k hk]
      simp [hk]

/-- A fold of changes of the NVM subsystem and the boot state changes nothing else. -/
theorem foldl_nvme_boot_frame {α : Type} {g : State → α → State} (h : ∀ t x, ∃ n b, g t x = { t with nvme := n, boot := b })
    (l : List α) (s : State) : ∃ n b, l.foldl g s = { s with nvme := n, boot := b } := by
  induction l generalizing s with
  | nil => exact ⟨s.nvme, s.boot, rfl⟩
  | cons x l ih =>
    obtain ⟨n, b, hx⟩ := h s x
    obtain ⟨m, d, hl⟩ := ih (g s x)
    exact ⟨m, d, by rw [List.foldl_cons, hl, hx]⟩

/-! ### PERST released (R85, R86) -/

/-- A link trains where it is down. -/
def Ctrl.trains (k : Ctrl) : Ctrl := { k with training := !k.linkUp }

/-- The links of the controllers listed train where they are down. -/
def State.trainAll (s : State) (l : List Nat) : State := l.foldl (fun t c => t.modCtrl c Ctrl.trains) s

theorem perstHigh_eq (s : State) (p : Nat) : s.perstHigh p =
    if s.mainUp && 5 ≤ s.phase then (s.modBoard fun b => { b with perst := modAt b.perst p fun _ => false }).trainAll (s.portCtrls p)
    else s.modBoard fun b => { b with perst := modAt b.perst p fun _ => false } := rfl

theorem portCtrls_nodup (s : State) (p : Nat) : (s.portCtrls p).Nodup := List.Nodup.filter _ (by simp)

theorem trainAll_training {s : State} {l : List Nat} (hl : l.Nodup) {c : Nat} (hc : c ∈ l) :
    ((s.trainAll l).ctrl c).training = !(s.ctrl c).linkUp := by
  rw [State.trainAll, ctrl_foldl (g := fun t c => t.modCtrl c Ctrl.trains) (f := fun _ => Ctrl.trains) (im := s.image) (fun _ _ => rfl)
    (fun t c _ => ctrl_modCtrl_same t c Ctrl.trains) (fun t c k h => ctrl_modCtrl_other h) hl rfl, if_pos hc, Ctrl.trains]

theorem trainAll_frame (s : State) (l : List Nat) : ∃ n, s.trainAll l = { s with nvme := n } := by
  unfold State.trainAll
  refine List.foldlRecOn (motive := fun t => ∃ n, t = { s with nvme := n }) l _ ⟨s.nvme, rfl⟩ fun t ht c _ => ?_
  obtain ⟨n, rfl⟩ := ht
  exact ⟨_, rfl⟩

/-! ### Controllers enabled (R87) -/

/-- CSTS.RDY is 1. -/
def Ctrl.asReady (k : Ctrl) : Ctrl := { k with rdy := true }

/-- Controller c is ready from now on if it is enabled, and the first one since the last reset notes the time. -/
def State.readyAt (s : State) (c : Nat) : State :=
  if (s.ctrl c).en && !(s.ctrl c).rdy && s.hasCtrl c then
    let t1 := s.modCtrl c Ctrl.asReady
    if t1.boot.rdyAt.isNone then { t1 with boot := { t1.boot with rdyAt := some t1.now } } else t1
  else s

theorem showReady_eq (s : State) :
    s.showReady = if s.phase < 0xA || 0xC ≤ s.phase then s else (List.range 4).foldl State.readyAt s := rfl

/-- What becomes of a controller when those that are enabled become ready. -/
def Ctrl.nowReady (k : Ctrl) (is : Bool) : Ctrl := if k.en && !k.rdy && is then k.asReady else k

theorem ctrl_of_nvme {s t : State} (h : t.nvme = s.nvme) (k : Nat) : t.ctrl k = s.ctrl k := by rw [State.ctrl, h, State.ctrl]

theorem readyAt_self (s : State) (c : Nat) : (s.readyAt c).ctrl c = (s.ctrl c).nowReady (s.hasCtrl c) := by
  unfold State.readyAt Ctrl.nowReady
  split
  · dsimp only
    split
    · exact (ctrl_of_nvme (s := s.modCtrl c Ctrl.asReady) rfl c).trans (ctrl_modCtrl_same s c _)
    · exact ctrl_modCtrl_same s c _
  · rfl

theorem readyAt_other {s : State} {c k : Nat} (h : k ≠ c) : (s.readyAt c).ctrl k = s.ctrl k := by
  unfold State.readyAt
  split
  · dsimp only
    split
    · exact (ctrl_of_nvme (s := s.modCtrl c Ctrl.asReady) rfl k).trans (ctrl_modCtrl_other h)
    · exact ctrl_modCtrl_other h
  · rfl

theorem readyAt_frame (s : State) (c : Nat) : ∃ n b, s.readyAt c = { s with nvme := n, boot := b } := by
  unfold State.readyAt
  split
  · dsimp only
    split
    · exact ⟨_, _, rfl⟩
    · exact ⟨_, s.boot, rfl⟩
  · exact ⟨s.nvme, s.boot, rfl⟩

theorem showReady_frame (s : State) : ∃ n b, s.showReady = { s with nvme := n, boot := b } := by
  rw [showReady_eq]
  split
  · exact ⟨s.nvme, s.boot, rfl⟩
  · exact foldl_nvme_boot_frame readyAt_frame _ _

theorem readyAt_image (s : State) (c : Nat) : (s.readyAt c).image = s.image := by
  obtain ⟨n, b, h⟩ := readyAt_frame s c
  rw [h]

theorem showReady_ctrl (s : State) (c : Fin 4) : s.showReady.ctrl c.val =
    if s.phase < 0xA || 0xC ≤ s.phase then s.ctrl c.val else (s.ctrl c.val).nowReady (s.hasCtrl c.val) := by
  rw [showReady_eq]
  split
  · rfl
  · rw [ctrl_foldl (g := State.readyAt) (f := fun c k => k.nowReady (controllerExists s.image.cfg c)) (im := s.image) readyAt_image
      (fun t c ht => by rw [readyAt_self, State.hasCtrl, ht]) (fun t c k h => readyAt_other h) List.nodup_range rfl,
      if_pos (List.mem_range.mpr c.isLt), State.hasCtrl]

/-- The state in which controller c has its admin queues and EN 1, before readiness shows. -/
def State.enabled (s : State) (c asqs acqs : Nat) : State := s.setCtrl c { adminQueues (s.ctrl c) asqs acqs with
  en := true, shn := 0, shst := 0, aqa := BitVec.ofNat 32 (asqs + 65536 * acqs) }

theorem enable_eq {s : State} {c : Nat} (h : (s.ctrl c).en = false) (asqs acqs : Nat) :
    s.enable c asqs acqs = (s.enabled c asqs acqs).showReady := by
  rw [State.enable, if_neg (by rw [h]; decide)]
  rfl

/-- A controller enabled is ready in phases RECOVERY and READY and not before (R87). -/
theorem enable_ready {s : State} {c : Fin 4} {asqs acqs : Nat} (hctrl : s.hasCtrl c.val = true) (hen : (s.ctrl c.val).en = false)
    (hrdy : (s.ctrl c.val).rdy = false) : ((s.enable c.val asqs acqs).ctrl c.val).en = true ∧
      ((s.enable c.val asqs acqs).ctrl c.val).rdy = (decide (0xA ≤ s.phase) && decide (s.phase < 0xC)) := by
  have hself : (s.enabled c.val asqs acqs).ctrl c.val = { adminQueues (s.ctrl c.val) asqs acqs with
      en := true, shn := 0, shst := 0, aqa := BitVec.ofNat 32 (asqs + 65536 * acqs) } := by
    rw [State.enabled, ctrl_setCtrl, if_pos rfl]
  have hphase : (s.enabled c.val asqs acqs).phase = s.phase := rfl
  have hexists : (s.enabled c.val asqs acqs).hasCtrl c.val = true := hctrl
  have hwaits : (adminQueues (s.ctrl c.val) asqs acqs).rdy = false := hrdy
  rw [enable_eq hen, showReady_ctrl, hself, hphase, hexists]
  split
  · rename_i hnot
    refine ⟨rfl, hwaits.trans (Eq.symm ?_)⟩
    simpa [Nat.not_le, Nat.not_lt, imp_iff_not_or] using hnot
  · rename_i hin
    rw [Ctrl.nowReady, if_pos (by simp [hwaits])]
    obtain ⟨hlo, hhi⟩ : 0xA ≤ s.phase ∧ s.phase < 0xC := by simpa [Nat.not_le, Nat.not_lt] using hin
    exact ⟨rfl, by simp [Ctrl.asReady, hlo, hhi]⟩

/-! ### Configuration requests and links (R86, R173 to R175) -/

/-- A read of configuration space: Request Retry Status before MAIN_INIT is complete, the dword after. -/
theorem configRequest_read {s : State} {r : CfgReq} (hctrl : s.hasCtrl r.ctrl.val = true) (hmain : s.board.mainRunning = true)
    (hread : r.write = none) : s.configRequest r =
      s.modPcie r.ctrl.val fun x => { x with answer := some (if s.phase < 5 then none else some (s.cfgWord r.ctrl.val r.off)) } := by
  rw [State.configRequest, hread]
  dsimp only
  rw [if_neg (by simp [hctrl, hmain])]
  split
  · rfl
  · rfl

theorem pcieUp_of_down {s : State} {c : Nat} (p : Partner) (lanes : Nat) (hup : s.mainUp = true) (hphase : 5 ≤ s.phase)
    (hctrl : s.hasCtrl c = true) (hpin : s.board.perst.getD (c / 2) true = false) (hdown : (s.ctrl c).linkUp = false) :
    s.pcieUp c p lanes = (s.setCtrl c { s.ctrl c with
      linkUp := true, training := false, linkRate := max p.rate.val (portGet s.image.cfg (c / 2) 3)
      linkWidth := 2 ^ min lanes (s.laneLimit c)
      pcie := { (s.ctrl c).pcie with flit := max p.rate.val (portGet s.image.cfg (c / 2) 3) == 0 || p.flit } }).raise (1536 + 4 * c) := by
  rw [State.pcieUp, if_neg (by rw [hup, hctrl, hpin, hdown]; simp; omega)]

end Sys2Proof.Machine

open Sys2Proof
open Sys2Proof.Machine

/-- Settles O22: a released port trains its controllers one after the other; readiness follows the phase. -/
theorem portsAndControllersComeUp : Obligations.PortsAndControllersComeUp := by
  intro s
  refine ⟨fun p => ⟨_, rfl, ?_⟩, fun r hctrl hmain hread => ⟨_, congrArg Host.Outcome.next (configRequest_read hctrl hmain hread), ?_, rfl⟩,
    fun c p lanes hup hphase hctrl hpin hdown => congrArg Host.Outcome.next (pcieUp_of_down p lanes.val hup hphase hctrl hpin hdown),
    fun c a b hup hctrl hen hrdy => ?_, fun c hup hctrl => congrArg Host.Outcome.next (if_pos (by simp [hup, hctrl]))⟩
  · rw [perstHigh_eq]
    split
    · obtain ⟨n, hn⟩ := trainAll_frame (s.modBoard fun b => { b with perst := modAt b.perst p.val fun _ => false }) (s.portCtrls p.val)
      refine ⟨by rw [hn]; rfl, fun _ _ c hc => trainAll_training (portCtrls_nodup s p.val) hc, by rw [hn]; rfl⟩
    · rename_i hnot
      exact ⟨rfl, fun hup hphase => absurd (by simp [hup, hphase]) hnot, rfl⟩
  · rw [State.modPcie, ctrl_modCtrl_same]
  · obtain ⟨hself, hready⟩ := enable_ready (asqs := a.val) (acqs := b.val) hctrl hen hrdy
    refine ⟨s.enable c.val a.val b.val, congrArg Host.Outcome.next (if_pos (by simp [hup, hctrl])), hself, hready, ?_⟩
    obtain ⟨n, d, h⟩ := showReady_frame (s.enabled c.val a.val b.val)
    rw [enable_eq hen, h]
    rfl

end

section
/-!
PROOFS. Scope: start-up phases, measurements, the confirmation of trials, and recovery (03 R83 to R87, R98, R110 to R112; 11 R404).
-/
namespace Sys2Proof.Machine

/-! ### The phase, the measurement registers and the boot state records -/

theorem setPhase_phase (s : State) {p : Nat} (h : p < 16) : (s.setPhase p).phase = p :=
  (rd_wr (by decide)).trans (Nat.mod_eq_of_lt h)

theorem measReg_of_meas {s t : State} (h : t.boot.meas = s.boot.meas) (i : Nat) : t.measReg i = s.measReg i := by
  rw [State.measReg, h, State.measReg]

theorem measReg_extend (s : State) (i : Nat) (d : BitVec 384) :
    (s.extend i d).measReg i = Config.sha384 (digestBytes (s.measReg i) ++ digestBytes d) := by
  unfold State.extend
  exact (mapGet_mapSet _ _ _ _).trans (if_pos rfl)

theorem kind_of_kinds {s t : State} (h : t.boot.kinds = s.boot.kinds) (k : Nat) : t.kind k = s.kind k := by rw [State.kind, h, State.kind]

theorem kind_bootRecord (s : State) (f : Nat → BootKind → BootKind) {k : Nat} (h : k < 4) : (s.bootRecord f).kind k = f k (s.kind k) := by
  simp [State.bootRecord, State.kind, State.modBoot, List.getD_eq_getElem?_getD, h]

@[simp] theorem showTrial_boot (s : State) : s.showTrial.boot = s.boot := rfl

/-! ### Loads (R83) -/

theorem loadSlot_of_good {s : State} {k : Nat} (h : s.slotError k (s.chosenSlot k) = 0) : s.loadSlot k = (s, some (s.chosenSlot k)) := by
  rw [State.loadSlot, if_pos h]

/-- A component that runs has been measured. -/
theorem ran_measReg (s : State) (k slot meas : Nat) : (s.ran k slot meas).measReg meas =
    Config.sha384 (digestBytes (s.measReg meas) ++ digestBytes (Config.sha384 (s.slotBody k slot))) :=
  (measReg_of_meas (s := s.extend meas (Config.sha384 (s.slotBody k slot))) rfl meas).trans (measReg_extend s _ _)

theorem belfryLoad_of_good {s : State} (hvaux : s.board.vaux = true) (hhalt : s.boot.belfryHalted = false) (hphase : s.phase = 1)
    (hslot : s.slotError 0 (s.chosenSlot 0) = 0) : s.belfryLoad =
      ((s.ran 0 (s.chosenSlot 0) 1).modBoot fun b => { b with belfrySlotLatch := s.chosenSlot 0 }).setPhase (if s.boot.bootSel = 1 then 0xC else 2) := by
  rw [State.belfryLoad, if_neg (by simp [hvaux, hhalt, hphase]), loadSlot_of_good hslot]

/-- A main firmware that can run is measured into register 3 and its version shows; the phase goes on. -/
theorem mainLoad_of_good {s : State} (hruns : s.belfryRuns = true) (hphase : s.phase = 5) (hslot : s.slotError 1 (s.chosenSlot 1) = 0) :
    ∃ v, s.mainLoad = ((s.ran 1 (s.chosenSlot 1) 3).setReg Reg.GBL_FW_VERSION v).setPhase 6 := by
  rw [State.mainLoad, if_neg (by simp [hruns, hphase]), loadSlot_of_good hslot]
  exact ⟨_, rfl⟩

/-- Microcode that can run, or a device in RETIRED, takes start-up to TRAINING. -/
theorem microLoad_of_good {s : State} (hruns : s.belfryRuns = true) (hphase : s.phase = 6) (hslot : s.slotError 2 (s.chosenSlot 2) = 0)
    (hbase : (readBase (s.slotBody 2 (s.chosenSlot 2))).isSome = true) : ∃ u, s.microLoad = State.setPhase u 7 := by
  obtain ⟨m, hm⟩ := Option.isSome_iff_exists.mp hbase
  rw [State.microLoad, if_neg (by simp [hruns, hphase])]
  split
  · exact ⟨s, rfl⟩
  · rw [loadSlot_of_good hslot]
    dsimp only
    rw [hm]
    exact ⟨_, rfl⟩

/-! ### PHASE_ROM -/

theorem phaseRom_of_spi {s : State} {sel : Nat} (hvaux : s.board.vaux = true) (hphase : s.phase = 0) (hsel : sel = 2) :
    (s.phaseRom sel).phase = 0xD ∧ (s.phaseRom sel).boot.bootSel = sel := by
  rw [State.phaseRom, if_neg (by simp [hvaux, hphase])]
  dsimp only
  rw [if_pos hsel]
  exact ⟨setPhase_phase _ (by decide), rfl⟩

@[simp] theorem completeRetire_bootSel (s : State) : s.completeRetire.boot.bootSel = s.boot.bootSel := by
  unfold State.completeRetire
  split <;> rfl

theorem phaseRom_of_boot {s : State} {sel : Nat} (hvaux : s.board.vaux = true) (hphase : s.phase = 0) (hsel : sel ≠ 2) :
    (s.phaseRom sel).phase = 1 ∧ (s.phaseRom sel).boot.bootSel = sel := by
  rw [State.phaseRom, if_neg (by simp [hvaux, hphase])]
  extract_lets s1 s2 s3 slots s4
  rw [if_neg hsel]
  exact ⟨setPhase_phase _ (by decide), completeRetire_bootSel s1⟩

/-! ### MAIN_INIT to READY -/

theorem portsTrain_regs (s : State) : s.portsTrain.regs = s.regs := by
  refine List.foldlRecOn (motive := fun (t : State) => t.regs = s.regs) _ _ rfl fun t ht c _ => ?_
  split
  · exact ht
  · exact ht

theorem phase_of_regs {s t : State} (h : t.regs = s.regs) : t.phase = s.phase := by
  rw [State.phase, State.rd, State.reg, h]
  rfl

/-- MAIN_INIT of a warm restart ends in phase MAIN_FW. -/
theorem mainInit_phase {s : State} (failed : List (Fin 16)) (hruns : s.belfryRuns = true) (hloaded : s.boot.loaded = true)
    (hkill : s.board.pwrKill = false) (hmain : s.board.mainRunning = false) (hphase : s.phase = 4) : (s.mainInit failed).phase = 5 := by
  rw [State.mainInit]
  extract_lets railsUp s1 s2
  rw [if_neg (by simp [hruns, hloaded, hkill, hmain, hphase]), phase_of_regs (portsTrain_regs _), setPhase_phase _ (by decide)]

theorem readyAt_fails (s : State) (c : Nat) : (s.readyAt c).boot.fails = s.boot.fails := by
  unfold State.readyAt
  split
  · dsimp only
    split <;> rfl
  · rfl

theorem showReady_fails (s : State) : s.showReady.boot.fails = s.boot.fails := by
  rw [showReady_eq]
  split
  · rfl
  · exact List.foldlRecOn (motive := fun t => t.boot.fails = s.boot.fails) _ _ rfl fun t ht c _ => (readyAt_fails t c).trans ht

theorem showReady_phase (s : State) : s.showReady.phase = s.phase := by
  obtain ⟨n, b, h⟩ := showReady_frame s
  rw [h]
  rfl

end Sys2Proof.Machine

open Sys2Proof
open Sys2Proof.Machine

/-- Settles O19: each command under its condition ends with the phase that it sets; what it loads it has measured before. -/
theorem startupPhasesAdvance : Obligations.StartupPhasesAdvance := by
  intro s
  refine ⟨fun sel hvaux hphase => ?_, fun hvaux hhalt hphase hslot => ?_, fun hruns hphase => ?_, fun failed hruns hloaded hkill hmain hphase => ?_,
    fun hruns hphase hslot => ?_, fun hruns hphase hslot hbase => ?_, fun hup hphase hdram hlinks => ?_, fun codes hup hphase => ?_, fun hup hmay => ?_⟩
  · refine ⟨_, rfl, ?_⟩
    split
    · exact phaseRom_of_spi hvaux hphase ‹_›
    · exact phaseRom_of_boot hvaux hphase ‹_›
  · refine ⟨_, congrArg Host.Outcome.next (belfryLoad_of_good hvaux hhalt hphase hslot), setPhase_phase _ (by split <;> decide), ?_⟩
    exact (measReg_of_meas (s := s.ran 0 (s.chosenSlot 0) 1) rfl 1).trans (ran_measReg s 0 _ 1)
  · refine ⟨(s.imageRun 1).setPhase 3, congrArg Host.Outcome.next ?_, setPhase_phase _ (by decide)⟩
    rw [State.imageLoad, if_neg (by simp [hruns]), if_pos hphase]
  · exact ⟨_, rfl, mainInit_phase failed hruns hloaded hkill hmain hphase⟩
  · obtain ⟨v, hv⟩ := mainLoad_of_good hruns hphase hslot
    exact ⟨_, congrArg Host.Outcome.next hv, setPhase_phase _ (by decide),
      (measReg_of_meas (s := s.ran 1 (s.chosenSlot 1) 3) rfl 3).trans (ran_measReg s 1 _ 3)⟩
  · obtain ⟨u, hu⟩ := microLoad_of_good hruns hphase hslot hbase
    exact ⟨_, congrArg Host.Outcome.next hu, setPhase_phase _ (by decide)⟩
  · exact ⟨s.dramTrained.setPhase 8, congrArg Host.Outcome.next (if_pos (by simp [hup, hphase, hdram, hlinks])), setPhase_phase _ (by decide)⟩
  · refine ⟨_, congrArg Host.Outcome.next (if_pos (by simp [hup, hphase])), ?_, ?_⟩
    · rw [showReady_phase, setPhase_phase _ (by decide)]
    · exact showReady_fails _
  · exact ⟨_, congrArg Host.Outcome.next (if_pos (by simp [hup, hmay])), setPhase_phase _ (by decide)⟩

namespace Sys2Proof.Machine

/-! ### TRIAL_CONFIRM (R110) -/

theorem trialConfirm_early {s : State} {r : Nat} (hr : s.boot.rdyAt = some r) (h : s.now < r + 30000000000) : s.trialConfirm = s := by
  rw [State.trialConfirm, hr]
  exact if_pos (by simp [h])

theorem burnActive_kinds (s : State) (k : Nat) : (s.burnActive k).boot.kinds = s.boot.kinds := by
  unfold State.burnActive
  split <;> rfl

theorem foldl_burnActive_kinds (l : List Nat) (s : State) : (l.foldl State.burnActive s).boot.kinds = s.boot.kinds :=
  List.foldlRecOn (motive := fun t => t.boot.kinds = s.boot.kinds) l _ rfl fun t ht k _ => (burnActive_kinds t k).trans ht

/-- A confirmation that is due confirms the kinds below the image whose trial runs, and no other. -/
theorem trialConfirm_kind {s : State} {r : Nat} (hr : s.boot.rdyAt = some r) (hdue : r + 30000000000 ≤ s.now) (hruns : s.belfryRuns = true)
    (hnewest : s.boot.onPrevious = false) {k : Nat} (hk : k < 3) :
    s.trialConfirm.kind k = if s.trialRuns k then confirmed (s.kind k) else s.kind k := by
  rw [State.trialConfirm, hr]
  dsimp only
  rw [if_neg (by simp [hruns, hnewest, hdue]), kind_of_kinds (showTrial_boot _ ▸ foldl_burnActive_kinds _ _)]
  split
  · rw [kind_bootRecord _ _ (by omega)]
    simp [hk]
  · rename_i hnone
    have hstays : s.trialRuns k = false := by
      simp only [List.any_eq_true, List.mem_range, not_exists, not_and, Bool.not_eq_true] at hnone
      exact hnone k hk
    rw [hstays]
    rfl

/-! ### ENUMERATE and RECOVERY -/

theorem enumEnd_of_none_pending {s : State} (hphase : s.phase = 8)
    (hnone : ((List.range 512).all fun n => (s.lnk n).enumPending.isEmpty) = true) :
    s.enumEnd = (s.extend 8 (Config.sha384 s.identities)).setPhase 9 := if_pos ⟨hphase, hnone⟩

/-- With every populated link identified ENUMERATE does nothing but end the phase. -/
theorem enumerate_of_identified {s : State} (hup : s.mainUp = true) (hphase : s.phase = 8)
    (hlinks : ((List.range 512).filter fun n => populated s.image.cfg n && s.rd (Reg.JL_BRIDGE_STATUS_ENUM_DONE n) == 0) = []) :
    s.enumerate [] [] [] = s.enumEnd := by
  rw [State.enumerate, if_neg (by simp [hup, hphase])]
  dsimp only
  rw [hlinks]
  rfl

/-- What a recovery does up to the rebuild that may follow it (R410). -/
def State.recoveredAll (s : State) (bad : List Nat) (found : FlashFound) : State :=
  ((((found.metas.foldl State.metaLost s).recoverMap bad found).reconcile.resumeSanitize).recoverTakes).startCheckpoint.showStripes

theorem recovery_of_tier {s : State} (bad : List Nat) (found : FlashFound) (h : s.rd Reg.FTL_STATUS_TIER ≠ 0) : s.recovery bad found = s := by
  rw [State.recovery, if_pos (by simp [h])]

theorem recovery_first {s : State} (bad : List Nat) (found : FlashFound) (hup : s.mainUp = true) (hphase : s.phase = 0xA)
    (htier : s.rd Reg.FTL_STATUS_TIER = 0) : s.recovery bad found =
      ((if (s.recoveredAll bad found).rebuildWork.isEmpty then s.recoveredAll bad found else (s.recoveredAll bad found).startRebuild).modDram
        fun d => { d with written := [0, 1, 2, 3, 4] }).settleDma := by
  rw [State.recovery, if_neg (by simp [hup, hphase, htier])]
  rfl

end Sys2Proof.Machine

open Sys2Proof
open Sys2Proof.Machine

/-- Settles O24: the confirmation by its records, ENUMERATE and RECOVERY by their one step. -/
theorem bootTrialsAndRecovery : Obligations.BootTrialsAndRecovery := by
  intro s
  refine ⟨fun r hr hearly => congrArg Host.Outcome.next (trialConfirm_early hr hearly),
    fun r hr hdue hruns hnewest => ⟨_, rfl, fun k hk => trialConfirm_kind hr hdue hruns hnewest hk⟩,
    fun hup hphase hlinks hnone => ?_, fun hup => congrArg Host.Outcome.next (if_pos hup),
    fun bad found hup hphase => ⟨fun htier => congrArg Host.Outcome.next (recovery_of_tier bad found htier), fun htier => ?_⟩⟩
  · refine ⟨_, congrArg Host.Outcome.next ((enumerate_of_identified hup hphase hlinks).trans (enumEnd_of_none_pending hphase hnone)),
      setPhase_phase _ (by decide), ?_⟩
    exact (measReg_of_meas (s := s.extend 8 (Config.sha384 s.identities)) rfl 8).trans (measReg_extend s 8 _)
  · refine ⟨_, congrArg Host.Outcome.next (recovery_first bad found hup hphase htier), rfl, _, rfl, ?_⟩
    split
    · exact .inl rfl
    · exact .inr rfl

end

section
/-!
PROOFS. Scope: the SPDM responder (03 R100, R101).
-/
namespace Sys2Proof.Machine

/-! ### A message sent, and which requests are served -/

theorem spdmSend_eq (s : State) (b : List Byte) :
    s.spdmSend b = { s with pwr := s.noteMgmt.pwr, port := { s.port with sent := s.port.sent ++ [0x05 :: b] } } := rfl

@[simp] theorem leBytes_one (n : Nat) : leBytes 1 n = [BitVec.ofNat 8 n] := rfl

/-- An ERROR response: the sent messages of the port grow by it, and boot state and registers stand. -/
theorem spdmError_spec (s : State) (req : List Byte) (c d : Nat) :
    (s.spdmError req c d).port = { s.port with sent := s.port.sent ++ [0x05 :: (req.take 1 ++ [0x7F, BitVec.ofNat 8 c, BitVec.ofNat 8 d])] } ∧
      (s.spdmError req c d).boot = s.boot ∧ (s.spdmError req c d).regs = s.regs := by
  refine ⟨?_, rfl, rfl⟩
  simp [State.spdmError, spdmSend_eq]

section
variable {s : State} {req : List Byte} {code stage : Nat} {f : State → State}

theorem spdm_silent (h : s.belfryRuns = false ∨ byteAt req 1 ≠ code) : s.spdm req code stage f = s := if_pos (by simpa [spdmCode] using h)

theorem spdm_versionMismatch (hruns : s.belfryRuns = true) (hcode : byteAt req 1 = code) (hversion : byteAt req 0 < 0x10 ∨ 0x12 < byteAt req 0) :
    s.spdm req code stage f = s.spdmError req 0x41 0 := by
  rw [State.spdm, if_neg (by simp [hruns, spdmCode, hcode]), if_pos (by simp; omega)]

theorem spdm_unexpected (hruns : s.belfryRuns = true) (hcode : byteAt req 1 = code) (hlo : 0x10 ≤ byteAt req 0) (hhi : byteAt req 0 ≤ 0x12)
    (hstage : s.port.stage < stage) : s.spdm req code stage f = s.spdmError req 0x04 0 := by
  rw [State.spdm, if_neg (by simp [hruns, spdmCode, hcode]), if_neg (by simp [hlo, hhi]), if_pos hstage]

theorem spdm_served (hruns : s.belfryRuns = true) (hcode : byteAt req 1 = code) (hlo : 0x10 ≤ byteAt req 0) (hhi : byteAt req 0 ≤ 0x12)
    (hstage : stage ≤ s.port.stage) : s.spdm req code stage f = f s := by
  rw [State.spdm, if_neg (by simp [hruns, spdmCode, hcode]), if_neg (by simp [hlo, hhi]), if_neg (by omega)]

end

/-- The commands of the responder: the code each serves, how far the connection must have come, the command. -/
def spdmCommands (req : List Byte) : List (Nat × Nat × Instr) :=
  [(0x84, 0, .getVersion req), (0xE1, 1, .getCapabilities req), (0xE3, 2, .negotiateAlgorithms req), (0x81, 3, .getDigests req), (0x82, 3, .getCertificate req),
    (0x83, 3, .challenge req), (0xE0, 3, .getMeasurements req)]

/-- Each of them is State.spdm with its own answer. -/
theorem exec_spdmCommands (req : List Byte) {p : Nat × Nat × Instr} (hp : p ∈ spdmCommands req) :
    ∃ f : State → State, ∀ s, exec p.2.2 s = .next (s.spdm req p.1 p.2.1 f) := by
  simp only [spdmCommands, List.mem_cons, List.not_mem_nil, or_false] at hp
  rcases hp with rfl | rfl | rfl | rfl | rfl | rfl | rfl
  · exact ⟨fun t => t.spdmVersion req, fun _ => rfl⟩
  · exact ⟨fun t => t.spdmCapabilities req, fun _ => rfl⟩
  · exact ⟨fun t => t.spdmAlgorithms req, fun _ => rfl⟩
  · exact ⟨fun t => t.spdmDigests req, fun _ => rfl⟩
  · exact ⟨fun t => t.spdmCertificate req, fun _ => rfl⟩
  · exact ⟨fun t => t.spdmChallenge req, fun _ => rfl⟩
  · exact ⟨fun t => t.spdmMeasurements req, fun _ => rfl⟩

theorem mem_spdmCodes (req : List Byte) (c : Nat) : c ∈ spdmCodes ↔ ∃ p ∈ spdmCommands req, c = p.1 := by
  simp [spdmCodes, spdmCommands]

/-! ### The bytes of the answers -/

/-- The response to GET_CAPABILITIES. -/
def capabilitiesRsp (req : List Byte) : List Byte :=
  req.take 1 ++ [0x61, 0, 0, 0] ++ leBytes 1 Config.ctExponent ++ [0, 0, 0x16, 0, 0, 0] ++ if byteAt req 0 = 0x12 then [0, 0x10, 0, 0, 0, 0x10, 0, 0] else []

theorem spdmCapabilities_eq (s : State) (req : List Byte) : s.spdmCapabilities req =
    (s.modPort fun p => { p with stage := max 2 p.stage, vca := p.vca ++ req ++ capabilitiesRsp req }).spdmSend (capabilitiesRsp req) := by
  have hrsp : req.take 1 ++ [0x61, 0, 0, 0] ++ leBytes 1 Config.ctExponent ++ [0, 0] ++ leBytes 4 0x16 ++
      (if byteAt req 0 = 0x12 then leBytes 4 4096 ++ leBytes 4 4096 else []) = capabilitiesRsp req := by
    simp [capabilitiesRsp, leBytes]
  rw [State.spdmCapabilities, hrsp]

/-- The response to NEGOTIATE_ALGORITHMS. -/
def algorithmsRsp (req : List Byte) (spec : Nat) (asym hash : Bool) : List Byte :=
  req.take 1 ++ [0x63, 0, 0, 36, 0, BitVec.ofNat 8 spec, 0, BitVec.ofNat 8 (4 * spec), 0, 0, 0, if asym then 0x80 else 0, 0, 0, 0, if hash then 0x02 else 0, 0, 0, 0] ++
    List.replicate 16 0

theorem spdmAlgorithms_eq (s : State) (req : List Byte) :
    let asym := (byteAt req 8).testBit 7
    let hash := (byteAt req 12).testBit 1
    s.spdmAlgorithms req = (s.modPort fun p => { p with
      stage := if asym = true ∧ hash = true then 3 else p.stage
      vca := p.vca ++ req ++ algorithmsRsp req (byteAt req 6 % 2) asym hash }).spdmSend (algorithmsRsp req (byteAt req 6 % 2) asym hash) := by
  intro asym hash
  have hspec : byteAt req 6 % 2 = 0 ∨ byteAt req 6 % 2 = 1 := Nat.mod_two_eq_zero_or_one _
  have hrsp : req.take 1 ++ [0x63, 0, 0] ++ leBytes 2 36 ++ leBytes 1 (byteAt req 6 % 2) ++ [0] ++ leBytes 4 (4 * (byteAt req 6 % 2)) ++
      leBytes 4 (if asym then 0x80 else 0) ++ leBytes 4 (if hash then 0x02 else 0) ++ List.replicate 16 0 =
        algorithmsRsp req (byteAt req 6 % 2) asym hash := by
    generalize byteAt req 6 % 2 = spec at hspec ⊢
    clear_value asym hash
    rcases hspec with rfl | rfl <;> cases asym <;> cases hash <;> simp [algorithmsRsp, leBytes]
  have hstage : ((if asym then 0x80 else 0) != 0 && (if hash then 0x02 else 0) != 0) = (asym && hash) := by
    clear_value asym hash
    cases asym <;> cases hash <;> rfl
  rw [State.spdmAlgorithms, hrsp, hstage]
  simp only [Bool.and_eq_true]

theorem spdmCertificate_eq {s : State} {req : List Byte} (hslot : byteAt req 2 % 16 ≤ 1)
    (hoff : leAt req 4 2 < (s.certChain (byteAt req 2 % 16)).length) :
    let chain := s.certChain (byteAt req 2 % 16)
    let part := (chain.drop (leAt req 4 2)).take (min 4088 (leAt req 6 2))
    let rsp := req.take 1 ++ [0x02, BitVec.ofNat 8 (byteAt req 2 % 16), 0] ++ leBytes 2 part.length ++ leBytes 2 (chain.length - leAt req 4 2 - part.length) ++ part
    s.spdmCertificate req = (s.modPort fun p => { p with certs := p.certs ++ req ++ rsp, meas := [] }).spdmSend rsp := by
  intro chain part rsp
  have hrsp : req.take 1 ++ [0x02] ++ leBytes 1 (byteAt req 2 % 16) ++ [0] ++ leBytes 2 part.length ++ leBytes 2 (chain.length - leAt req 4 2 - part.length) ++ part =
      rsp := by
    simp [rsp]
  rw [State.spdmCertificate, if_neg (by omega), ← hrsp]
  rfl

/-- n free words give 4 n bytes of a nonce and leave all but the count of free values. -/
theorem nonce_spec (n : Nat) (s : State) : (s.nonce n).1.length = 4 * n ∧ ∃ k, (s.nonce n).2 = { s with fresh := k } := by
  induction n generalizing s with
  | zero => exact ⟨rfl, s.fresh, rfl⟩
  | succ n ih =>
    obtain ⟨hlen, k, hk⟩ := ih { s with fresh := s.fresh + 1 }
    refine ⟨?_, k, hk⟩
    change (leBytes 4 _ ++ (State.nonce n { s with fresh := s.fresh + 1 }).1).length = _
    rw [List.length_append, hlen]
    simp only [leBytes, List.length_cons, List.length_nil]
    omega

/-- A request that CHALLENGE refuses. -/
theorem spdmChallenge_refused {s : State} {req : List Byte} (h : 1 < byteAt req 2 % 16) : s.spdmChallenge req = s.spdmError req 0x01 0 := if_pos h

/-- CHALLENGE_AUTH before its signature. -/
def challengeBody (s : State) (req nonce : List Byte) : List Byte :=
  req.take 1 ++ [0x03, BitVec.ofNat 8 (byteAt req 2 % 16), 0x03] ++ digestBytes (Config.sha384 (s.certChain (byteAt req 2 % 16))) ++ nonce ++
    (if byteAt req 3 = 0 then [] else digestBytes (Config.sha384 s.allBlocks)) ++ [0, 0]

/-- What CHALLENGE_AUTH is signed over. -/
def challengeSigned (s : State) (req nonce : List Byte) : List Byte :=
  signContext (byteAt req 0) (ascii "responder-challenge_auth signing") (Config.sha384 (s.port.vca ++ s.port.certs ++ req ++ challengeBody s req nonce))

theorem spdmChallenge_eq {s : State} {req : List Byte} (h : byteAt req 2 % 16 ≤ 1) : ∃ nonce : List Byte, ∃ k, nonce.length = 32 ∧
    s.spdmChallenge req = (({ s with fresh := k } : State).modPort fun p => { p with certs := [], meas := [] }).spdmSend
      (challengeBody s req nonce ++ s.signAlias (challengeSigned s req nonce)) := by
  obtain ⟨hlen, k, hk⟩ := nonce_spec 8 s
  refine ⟨(s.nonce 8).1, k, hlen, ?_⟩
  have hbody : req.take 1 ++ [0x03] ++ leBytes 1 (byteAt req 2 % 16) ++ [0x03] ++ digestBytes (Config.sha384 (s.certChain (byteAt req 2 % 16))) ++ (s.nonce 8).1 ++
      (if byteAt req 3 = 0 then [] else digestBytes (Config.sha384 s.allBlocks)) ++ [0, 0] = challengeBody s req (s.nonce 8).1 := by
    simp [challengeBody]
  rw [State.spdmChallenge, if_neg (by omega), challengeSigned, ← hbody]
  dsimp only
  rw [hk]
  rfl

/-- The blocks GET_MEASUREMENTS asks for. -/
def measBlocks (s : State) (req : List Byte) : List Byte :=
  if byteAt req 3 = 0 then [] else if byteAt req 3 = 0xFF then s.allBlocks else s.measBlock (byteAt req 3)

/-- The slot whose key is to sign MEASUREMENTS. -/
def measSlot (req : List Byte) : Nat := if (byteAt req 2).testBit 0 = true then byteAt req 36 % 16 else 0

/-- MEASUREMENTS before its signature. -/
def measBody (s : State) (req nonce : List Byte) : List Byte :=
  req.take 1 ++ [0x60, if byteAt req 3 = 0 then 10 else 0, BitVec.ofNat 8 (measSlot req),
    if byteAt req 3 = 0 then 0 else if byteAt req 3 = 0xFF then 10 else 1] ++ leBytes 3 (measBlocks s req).length ++ measBlocks s req ++ nonce ++ [0, 0]

/-- What MEASUREMENTS is signed over. -/
def measSigned (s : State) (req nonce : List Byte) : List Byte :=
  signContext (byteAt req 0) (ascii "responder-measurements signing")
    (Config.sha384 ((if byteAt req 0 = 0x12 then s.port.vca else []) ++ (s.port.meas ++ req ++ measBody s req nonce)))

theorem spdmMeasurements_refused {s : State} {req : List Byte} (h : 1 < measSlot req ∨ (10 < byteAt req 3 ∧ byteAt req 3 ≠ 0xFF)) :
    s.spdmMeasurements req = s.spdmError req 0x01 0 := if_pos h

theorem spdmMeasurements_eq {s : State} {req : List Byte} (hslot : measSlot req ≤ 1) (hop : byteAt req 3 ≤ 10 ∨ byteAt req 3 = 0xFF) :
    ∃ nonce : List Byte, ∃ k, nonce.length = 32 ∧ s.spdmMeasurements req = (({ s with fresh := k } : State).modPort fun p => { p with
        meas := if (byteAt req 2).testBit 0 = true then [] else s.port.meas ++ req ++ measBody s req nonce }).spdmSend
      (if (byteAt req 2).testBit 0 = true then measBody s req nonce ++ s.signAlias (measSigned s req nonce) else measBody s req nonce) := by
  obtain ⟨hlen, k, hk⟩ := nonce_spec 8 s
  refine ⟨(s.nonce 8).1, k, hlen, ?_⟩
  have hbody : req.take 1 ++ [0x60] ++ leBytes 1 (if byteAt req 3 = 0 then 10 else 0) ++ leBytes 1 (measSlot req) ++
      leBytes 1 (if byteAt req 3 = 0 then 0 else if byteAt req 3 = 0xFF then 10 else 1) ++ leBytes 3 (measBlocks s req).length ++ measBlocks s req ++ (s.nonce 8).1 ++
        [0, 0] = measBody s req (s.nonce 8).1 := by
    simp only [measBody, leBytes_one, List.append_assoc, List.cons_append, List.nil_append]
    split
    · rfl
    · split <;> rfl
  rw [State.spdmMeasurements]
  dsimp only
  rw [← measSlot, ← measBlocks, if_neg (by omega), measSigned, ← hbody, hk]
  split
  · rfl
  · rfl

end Sys2Proof.Machine

open Sys2Proof
open Sys2Proof.Machine

/-- Settles O59: each command is `State.spdm` with its own answer, whose bytes are those the statement writes out. -/
theorem spdmResponderAnswers : Obligations.SpdmResponderAnswers := by
  intro req s codes code version answers fails slot
  have hcommands {p : Nat × Nat × Instr} (hp : p ∈ codes) := exec_spdmCommands req hp
  have herror (c d : Nat) := spdmError_spec s req c d
  refine ⟨fun p hp hsilent => ?_, fun hsilent => ?_, fun hruns hother => ?_, fun hruns p hp hcode => ⟨fun hbad => ?_, fun hlo hhi hstage => ?_⟩,
    fun hruns hlo hhi => ⟨fun hcode => ?_, fun hcode hstage => ?_, fun hcode hstage => ?_, fun hcode hstage => ?_, fun hcode hstage => ?_,
      fun hcode hstage => ?_, fun hcode hstage => ?_⟩⟩
  · obtain ⟨f, hf⟩ := hcommands hp
    rw [hf, spdm_silent hsilent]
  · refine congrArg Host.Outcome.next (if_neg ?_)
    rw [Bool.and_eq_true, Bool.not_eq_true', List.contains_eq_mem, decide_eq_false_iff_not, mem_spdmCodes req]
    rintro ⟨hruns, hnone⟩
    rcases hsilent with hdown | hserved
    · rw [hruns] at hdown
      exact absurd hdown (by decide)
    · exact hnone hserved
  · refine ⟨_, congrArg Host.Outcome.next (if_pos ?_), herror 0x07 code⟩
    rw [Bool.and_eq_true, Bool.not_eq_true', List.contains_eq_mem, decide_eq_false_iff_not, mem_spdmCodes req]
    exact ⟨hruns, fun ⟨p, hp, heq⟩ => hother p hp heq⟩
  · obtain ⟨f, hf⟩ := hcommands hp
    exact ⟨_, (hf s).trans (congrArg _ (spdm_versionMismatch hruns hcode hbad)), herror 0x41 0⟩
  · obtain ⟨f, hf⟩ := hcommands hp
    exact ⟨_, (hf s).trans (congrArg _ (spdm_unexpected hruns hcode hlo hhi hstage)), herror 0x04 0⟩
  · have hexec : exec (.getVersion req) s = .next (s.spdmVersion req) := congrArg _ (spdm_served hruns hcode hlo hhi (Nat.zero_le _))
    exact ⟨⟨_, hexec, rfl, rfl⟩, _, hexec, rfl, rfl, rfl, rfl⟩
  · have hexec : exec (.getCapabilities req) s = .next (s.spdmCapabilities req) := congrArg _ (spdm_served hruns hcode hlo hhi hstage)
    rw [spdmCapabilities_eq] at hexec
    exact ⟨⟨_, hexec, rfl, rfl⟩, _, hexec, rfl, rfl⟩
  · have hexec : exec (.negotiateAlgorithms req) s = .next (s.spdmAlgorithms req) := congrArg _ (spdm_served hruns hcode hlo hhi hstage)
    rw [spdmAlgorithms_eq] at hexec
    exact ⟨⟨_, hexec, rfl, rfl⟩, _, hexec, rfl⟩
  · have hexec : exec (.getDigests req) s = .next (s.spdmDigests req) := congrArg _ (spdm_served hruns hcode hlo hhi hstage)
    exact ⟨_, hexec, rfl, rfl⟩
  · have hexec : exec (.getCertificate req) s = .next (s.spdmCertificate req) := congrArg _ (spdm_served hruns hcode hlo hhi hstage)
    refine ⟨fun hbad => ⟨_, hexec.trans (congrArg _ (if_pos hbad)), herror 0x01 0⟩, fun hslot hoff => ?_⟩
    rw [spdmCertificate_eq hslot hoff] at hexec
    exact ⟨_, hexec, rfl, rfl⟩
  · have hexec : exec (.challenge req) s = .next (s.spdmChallenge req) := congrArg _ (spdm_served hruns hcode hlo hhi hstage)
    refine ⟨fun hbad => ⟨_, hexec.trans (congrArg _ (spdmChallenge_refused hbad)), herror 0x01 0⟩, fun hslot => ?_⟩
    obtain ⟨nonce, k, hlen, hanswer⟩ := spdmChallenge_eq (s := s) hslot
    exact ⟨nonce, hlen, _, hexec.trans (congrArg _ hanswer), rfl, rfl⟩
  · have hexec : exec (.getMeasurements req) s = .next (s.spdmMeasurements req) := congrArg _ (spdm_served hruns hcode hlo hhi hstage)
    refine ⟨fun hbad => ⟨_, hexec.trans (congrArg _ (spdmMeasurements_refused hbad)), herror 0x01 0⟩, fun hslot hop => ?_⟩
    obtain ⟨nonce, k, hlen, hanswer⟩ := spdmMeasurements_eq (s := s) hslot hop
    have hsent := hexec.trans (congrArg _ hanswer)
    exact ⟨nonce, hlen, ⟨_, hsent, rfl, rfl⟩, _, hsent, rfl⟩

end

section
/-!
PROOFS. Scope: the Belfry's messages (22 R731 to R733) and the lifecycle messages (03 R94 to R96).
-/
namespace Sys2Proof.Machine

/-! ### Responses -/

/-- The words of a table written to registers apart from each other stand there. -/
theorem reg_foldl_setReg {off : Nat → Nat} (hoff : ∀ i j, off i = off j → i = j) (w : Nat → Word) (n : Nat) (s : State) {v : Nat} (hv : v < n) :
    ((List.range n).foldl (fun t v => t.setReg (off v) (w v)) s).reg (off v) = w v := by
  induction n with
  | zero => omega
  | succ n ih =>
    rw [List.range_succ, List.foldl_append, List.foldl_cons, List.foldl_nil, reg_setReg]
    split
    next hlast => rw [hoff v n hlast]
    next hne => exact ih (lt_of_le_of_ne (Nat.lt_succ_iff.mp hv) fun h => hne (h ▸ rfl))

/-- Writes to registers change the register file alone. -/
theorem foldl_setReg_onlyRegs {α : Type} (off : α → Nat) (w : α → Word) (l : List α) (s : State) :
    OnlyRegs s (l.foldl (fun t v => t.setReg (off v) (w v)) s) := by
  refine List.foldlRecOn (motive := OnlyRegs s) l _ ⟨s.regs, rfl⟩ fun t ht v _ => ?_
  obtain ⟨r, rfl⟩ := ht
  exact ⟨_, rfl⟩

/-- A response leaves what registers, the interrupt side, the controllers and the management port do not hold. -/
theorem mbRespond_frame (s : State) (r : MbReq) (m : MbMsg) (a : MbAns) :
    ∃ g e n p, s.mbRespond r m a = { s with regs := g, evt := e, nvme := n, port := p } := by
  unfold State.mbRespond
  extract_lets b
  cases r with
  | mctp _ => exact ⟨s.regs, s.evt, s.nvme, _, rfl⟩
  | go c =>
    obtain ⟨g, hg⟩ := foldl_setReg_onlyRegs (fun v => Reg.BEL_MB_RESP c.val v) (fun v => BitVec.ofNat 32 (leAt b (4 * v) 4)) (List.range 128) s
    dsimp only
    rw [hg]
    obtain ⟨g2, e, n, h, -⟩ := raise_frame
      (((({ s with regs := g } : State).wr (Reg.BEL_MB_STATUS_STATE c.val) 2).wr (Reg.BEL_MB_STATUS_RESP_BYTES c.val) b.length)) 1776
    exact ⟨g2, e, n, s.port, h⟩

theorem mbRespond_parts (s : State) (r : MbReq) (m : MbMsg) (a : MbAns) :
    (s.mbRespond r m a).boot = s.boot ∧ (s.mbRespond r m a).board = s.board := by
  obtain ⟨g, e, n, p, h⟩ := mbRespond_frame s r m a
  rw [h]
  exact ⟨rfl, rfl⟩

/-- What a response on the management port is made of besides the message: the port, and the enterprise number. -/
def SamePort (s u : State) : Prop := u.port = s.port ∧ u.rd Reg.BEL_MCTP_IANA_ID = s.rd Reg.BEL_MCTP_IANA_ID

theorem SamePort.trans {s t u : State} (h : SamePort s t) (g : SamePort t u) : SamePort s u := ⟨g.1.trans h.1, g.2.trans h.2⟩

/-- The registers of a mailbox lie apart: its status, its response, the sources' statuses. -/
theorem mailbox_apart (c : Fin 4) {v : Nat} (hv : v < 128) : Reg.BEL_MB_STATUS c.val ≠ statusOff 1776 ∧
    Reg.BEL_MB_RESP c.val v ≠ Reg.BEL_MB_STATUS c.val ∧ Reg.BEL_MB_RESP c.val v ≠ statusOff 1776 := by
  have hstatus : statusOff 1776 = 0x020100DC := rfl
  rw [hstatus]
  simp only [Reg.BEL_MB_STATUS, Reg.BEL_MB_RESP]
  omega

/-- A response posted stands in its mailbox, or is the last message sent. -/
theorem responded_mbRespond {s u : State} (hport : SamePort s u) {r : MbReq} {a : MbAns} :
    Safety.responded s (u.mbRespond r (s.mbMsg r) a) r (s.mbMsg r) a := by
  obtain ⟨hsent, hiana⟩ := hport
  cases r with
  | mctp b =>
    change u.port.sent ++ [u.ianaHead ++ _] = s.port.sent ++ [s.ianaHead ++ _]
    rw [State.ianaHead, State.ianaHead, hsent, hiana]
    rfl
  | go c =>
    obtain ⟨hstatus, -, -⟩ := mailbox_apart c (v := 0) (by decide)
    refine ⟨?_, ?_, raise_status _ _, fun v hv => ?_⟩
    · exact (raise_rd hstatus).trans ((rd_wr_apart (.inr (by change 0 + 16 ≤ 30; decide))).trans (rd_wr (by change 30 + 2 ≤ 32; decide)))
    · exact (raise_rd hstatus).trans (rd_wr (by change 0 + 16 ≤ 32; decide))
    · obtain ⟨-, hword, hraised⟩ := mailbox_apart c hv
      refine (raise_reg hraised).trans ?_
      rw [reg_wr_other hword, reg_wr_other hword]
      exact reg_foldl_setReg (off := Reg.BEL_MB_RESP c.val) (fun i j h => by simp only [Reg.BEL_MB_RESP] at h; omega)
        (fun v => BitVec.ofNat 32 (leAt (Safety.mbBytes _ a) (4 * v) 4)) 128 u hv

/-! ### Requests served -/

/-- The request is taken: the state its command acts on. -/
theorem mbBegun_frame (s : State) (r : MbReq) (op : Nat) :
    ∃ g p x, Safety.mbBegun s r op = { s with regs := g, pwr := p, maint := x } ∧ SamePort s (Safety.mbBegun s r op) := by
  cases r with
  | mctp b => exact ⟨s.regs, _, _, rfl, rfl, rfl⟩
  | go c =>
    refine ⟨_, s.pwr, _, rfl, rfl, ?_⟩
    have hother : Reg.BEL_MCTP_IANA_ID.off ≠ Reg.BEL_MB_STATUS c.val := by
      have := c.isLt
      simp only [Reg.BEL_MCTP_IANA_ID, Reg.BEL_MCTP_IANA, Reg.BEL_MB_STATUS]
      omega
    exact (rd_wr_off hother).trans ((rd_wr_off hother).trans (rd_wr_off hother))

section
variable {s : State} {r : MbReq} {mine : Nat → Bool} {f : State → MbMsg → State × MbAns}

theorem mbServe_other (h : s.board.vaux = false ∨ mine (s.mbMsg r).op = false) : s.mbServe r mine f = s := by
  unfold State.mbServe
  exact if_pos (by simpa using h)

/-- While the Belfry does not serve, a request stays pending. -/
theorem mbServe_waits (hvaux : s.board.vaux = true) (hmine : mine (s.mbMsg r).op = true) (h : s.belfryRuns = false ∨ s.recoveryMode = true) :
    s.mbServe r mine f = s.mbGo r := by
  unfold State.mbServe
  dsimp only
  rw [if_neg (by simp [hvaux, hmine]), if_pos (by simpa using h)]

theorem vaux_of_belfryRuns (h : s.belfryRuns = true) : s.board.vaux = true := by
  simp only [State.belfryRuns, Bool.and_eq_true] at h
  exact h.1.1.1.1.1

/-- What a request served is answered, and the state that leaves: too long a request is refused unread. -/
def State.mbAnswer (s : State) (r : MbReq) (f : State → MbMsg → State × MbAns) : State × MbAns :=
  if 240 < (s.mbMsg r).len then (Safety.mbBegun s r (s.mbMsg r).op, mbInvalid) else f (Safety.mbBegun s r (s.mbMsg r).op) (s.mbMsg r)

theorem mbServe_served (hruns : s.belfryRuns = true) (hmode : s.recoveryMode = false) (hmine : mine (s.mbMsg r).op = true) :
    s.mbServe r mine f = State.mbRespond
      (if liveOp (s.mbMsg r).op then (s.mbAnswer r f).1.record 0x11 1 [(s.mbMsg r).op, leAt (s.mbMsg r).args 0 2, (s.mbAnswer r f).2.status, (s.mbMsg r).agent]
        else (s.mbAnswer r f).1) r (s.mbMsg r) (s.mbAnswer r f).2 := by
  unfold State.mbServe
  dsimp only
  rw [if_neg (by simp [vaux_of_belfryRuns hruns, hmine]), if_neg (by simp [hruns, hmode])]
  rfl

/-- A request of no live operation is answered by what its command answers. -/
theorem mbServe_answers (hruns : s.belfryRuns = true) (hmode : s.recoveryMode = false) (hmine : mine (s.mbMsg r).op = true)
    (hlive : liveOp (s.mbMsg r).op = false) : s.mbServe r mine f = (s.mbAnswer r f).1.mbRespond r (s.mbMsg r) (s.mbAnswer r f).2 := by
  rw [mbServe_served hruns hmode hmine, if_neg (by rw [hlive]; decide)]

/-- A request refused: the state it was taken in stands, with the refusal posted. -/
theorem mbServe_refused {op : Nat} {a : MbAns} (hserves : Safety.mbServes s r op) (hmine : mine op = true) (hlive : liveOp op = false)
    (ha : s.mbAnswer r f = (Safety.mbBegun s r op, a)) : s.mbServe r mine f = (Safety.mbBegun s r op).mbRespond r (s.mbMsg r) a := by
  obtain ⟨hruns, hmode, hop⟩ := hserves
  subst hop
  rw [mbServe_answers hruns hmode hmine hlive, ha]

/-- A state that has kept the port, the boot state and the board, and a response: an answer and nothing else. -/
theorem mbAnswered_of_mbRespond {i : Instr} {a : MbAns} {w : State} (hport : SamePort s w) (hboot : w.boot = s.boot) (hboard : w.board = s.board)
    (hexec : exec i s = .next (w.mbRespond r (s.mbMsg r) a)) : Safety.mbAnswered s i r a := by
  obtain ⟨hb, hd⟩ := mbRespond_parts w r (s.mbMsg r) a
  exact ⟨_, hexec, responded_mbRespond hport, hb.trans hboot, hd.trans hboard⟩

theorem mbBegun_parts (s : State) (r : MbReq) (op : Nat) :
    SamePort s (Safety.mbBegun s r op) ∧ (Safety.mbBegun s r op).boot = s.boot ∧ (Safety.mbBegun s r op).board = s.board := by
  obtain ⟨g, p, x, h, hport⟩ := mbBegun_frame s r op
  exact ⟨hport, by rw [h], by rw [h]⟩

theorem mbAnswered_of_refused {i : Instr} {op : Nat} {a : MbAns} (hserves : Safety.mbServes s r op) (hmine : mine op = true) (hlive : liveOp op = false)
    (ha : s.mbAnswer r f = (Safety.mbBegun s r op, a)) (hexec : exec i s = .next (s.mbServe r mine f)) : Safety.mbAnswered s i r a := by
  obtain ⟨hport, hboot, hboard⟩ := mbBegun_parts s r op
  exact mbAnswered_of_mbRespond hport hboot hboard (hexec.trans (congrArg _ (mbServe_refused hserves hmine hlive ha)))

/-- A request that is not too long is answered by its command. -/
theorem mbAnswer_of_short {op : Nat} (hop : (s.mbMsg r).op = op) (hlen : (s.mbMsg r).len ≤ 240) :
    s.mbAnswer r f = f (Safety.mbBegun s r op) (s.mbMsg r) := by
  rw [State.mbAnswer, if_neg (by omega), hop]

theorem mbAnswer_of_long {op : Nat} (hop : (s.mbMsg r).op = op) (hlen : 240 < (s.mbMsg r).len) : s.mbAnswer r f = (Safety.mbBegun s r op, mbInvalid) := by
  rw [State.mbAnswer, if_pos hlen, hop]

end

/-! ### Burns -/

/-- Nothing but the boot state has changed. -/
def OnlyBoot (s t : State) : Prop := ∃ b, t = { s with boot := b }

theorem otpWord_burn (s : State) (w : Nat) (v : Word) (k : Nat) : (s.burn w v).otpWord k = if k = w then s.otpWord w ||| v else s.otpWord k :=
  mapGet_mapSet _ _ _ _

theorem onlyBoot_parts {s t : State} (h : OnlyBoot s t) : SamePort s t ∧ t.board = s.board := by
  obtain ⟨b, rfl⟩ := h
  exact ⟨⟨rfl, rfl⟩, rfl⟩

theorem onlyBoot_burn {s t : State} (h : OnlyBoot s t) (w : Nat) (v : Word) : OnlyBoot s (t.burn w v) := by
  obtain ⟨b, rfl⟩ := h
  exact ⟨_, rfl⟩

theorem onlyBoot_foldl_burn (w : Nat → Nat) (v : Nat → Word) (l : List Nat) (s : State) : OnlyBoot s (l.foldl (fun t i => t.burn (w i) (v i)) s) :=
  List.foldlRecOn (motive := OnlyBoot s) l _ ⟨s.boot, rfl⟩ fun _ ht _ _ => onlyBoot_burn ht _ _

/-- Words burnt one after the other, n of them from word w on. -/
theorem otpWord_foldl_burn (w : Nat) (v : Nat → Word) (n : Nat) (s : State) (k : Nat) :
    ((List.range n).foldl (fun t i => t.burn (w + i) (v i)) s).otpWord k =
      if w ≤ k ∧ k < w + n then s.otpWord k ||| v (k - w) else s.otpWord k := by
  induction n with
  | zero => rw [if_neg (by omega)]; rfl
  | succ n ih =>
    rw [List.range_succ, List.foldl_append, List.foldl_cons, List.foldl_nil, otpWord_burn]
    by_cases hk : k = w + n
    · subst hk
      rw [if_pos rfl, if_pos (by omega), ih, if_neg (by omega), Nat.add_sub_cancel_left]
    · rw [if_neg hk, ih]
      exact if_congr (by omega) rfl rfl

theorem leBytes_length (n v : Nat) : (leBytes n v).length = n := by
  induction n generalizing v with
  | zero => rfl
  | succ n ih => rw [leBytes, List.length_cons, ih]

theorem digestBytes_length (h : BitVec 384) : (digestBytes h).length = 48 := by
  rw [digestBytes, beBytes, List.length_reverse, leBytes_length]

/-- The words of an owner's hash burnt: twelve of them, and no other. -/
theorem otpWord_burnOwner (s : State) (i : Nat) (h : BitVec 384) (k : Nat) : (s.burnOwner i h).otpWord k =
    if 0x14 + 12 * i ≤ k ∧ k < 0x14 + 12 * i + 12 then s.otpWord k ||| BitVec.ofNat 32 (leAt (digestBytes h) (4 * (k - (0x14 + 12 * i))) 4) else s.otpWord k := by
  rw [State.burnOwner, State.burnBytes, digestBytes_length]
  exact otpWord_foldl_burn _ _ 12 s k

theorem onlyBoot_burnOwner (s : State) (i : Nat) (h : BitVec 384) : OnlyBoot s (s.burnOwner i h) := onlyBoot_foldl_burn _ _ _ s

theorem bitsOf_or (x y : Word) (l n : Nat) : bitsOf (x ||| y) l n = bitsOf x l n ||| bitsOf y l n := by
  refine Nat.eq_of_testBit_eq fun i => ?_
  rw [Nat.testBit_or, testBit_bitsOf, testBit_bitsOf, testBit_bitsOf, BitVec.getLsbD_or, Bool.and_or_distrib_left]

/-- The lifecycle after a burn of OTP word 3. -/
theorem lifecycle_of_word3 {s t : State} {v : Word} (hlisted : s.lifecycle ≠ 7) (h : t.otpWord 3 = s.otpWord 3 ||| v) :
    t.lifecycle = if s.lifecycle ||| bitsOf v 0 4 = 0 ∨ s.lifecycle ||| bitsOf v 0 4 = 1 ∨ s.lifecycle ||| bitsOf v 0 4 = 3
      then s.lifecycle ||| bitsOf v 0 4 else 7 := by
  rw [Laws.lifecycle_eq hlisted, ← bitsOf_or, ← h]
  rfl

/-! ### The lifecycle messages -/

theorem otpWord_of_boot {s t : State} (h : t.boot = s.boot) (w : Nat) : t.otpWord w = s.otpWord w := by rw [State.otpWord, h, State.otpWord]

theorem lifecycle_of_boot {s t : State} (h : t.boot = s.boot) : t.lifecycle = s.lifecycle := by
  unfold State.lifecycle
  rw [otpWord_of_boot h]

theorem ownTake_good {s : State} {args : List Byte} (hlen : 97 ≤ args.length) (hlife : s.lifecycle = 1)
    (hhash : s.ownerHash 0 &&& keyHash (slice args 0 97) = s.ownerHash 0) :
    s.ownTake args = ((s.burnOwner 0 (keyHash (slice args 0 97))).burn 3 3, mbOk) := by
  rw [State.ownTake, if_neg (by omega), if_neg (by simp [hlife, hhash])]

/-- The next owner hash burnt and the one before revoked. -/
def State.transferred (s : State) (n old : Nat) (h : BitVec 384) : State := (s.burnOwner n h).burn 4 (BitVec.ofNat 32 (2 ^ old))

theorem find_free_owner {s : State} {n : Nat} (hn : n < 4) (hfree : s.ownerHash n = 0) (hbelow : ∀ k, k < n → s.ownerHash k ≠ 0) :
    ((List.range 4).find? fun i => s.ownerHash i == 0) = some n := by
  rw [List.find?_range_eq_some]
  exact ⟨by simpa using hfree, List.mem_range.mpr hn, fun k hk => by simpa using hbelow k hk⟩

theorem ownTransfer_signed {s : State} {args : List Byte} {n : Nat} (hlen : 193 ≤ args.length) (hlife : s.lifecycle = 3)
    (hn : ((List.range 4).find? fun i => s.ownerHash i == 0) = some n) : s.ownTransfer args =
      if s.ownerSigned (digestBytes (keyHash (slice args 0 97)) ++ s.uniqueId) (slice args 97 96)
        then (s.transferred n (s.activeOwner.getD 0) (keyHash (slice args 0 97)), mbOk) else (s, mbAuth) := by
  rw [State.ownTransfer]
  dsimp only
  rw [if_neg (by omega), if_neg (by omega), hn]
  dsimp only
  generalize s.ownerSigned _ _ = signed
  cases signed <;> rfl

/-- The seed erased and the lifecycle RETIRED. -/
def State.retired (s : State) : State := ((List.range 8).foldl (fun t i => t.burn (0x54 + i) 0xFFFFFFFF) s).burn 3 7

theorem onlyBoot_retired (s : State) : OnlyBoot s s.retired := onlyBoot_burn (onlyBoot_foldl_burn _ _ _ s) 3 7

/-- A retirement leaves the lifecycle RETIRED, the seed all ones, and every other word alone. -/
theorem retired_otpWord (s : State) (k : Nat) : s.retired.otpWord k =
    if k = 3 then s.otpWord 3 ||| 7 else if 0x54 ≤ k ∧ k < 0x5C then 0xFFFFFFFF else s.otpWord k := by
  rw [State.retired, otpWord_burn, otpWord_foldl_burn (v := fun _ => 0xFFFFFFFF), otpWord_foldl_burn (v := fun _ => 0xFFFFFFFF)]
  have hones (x : Word) : x ||| 0xFFFFFFFF = 0xFFFFFFFF := BitVec.or_allOnes
  simp only [hones]
  rw [if_neg (show ¬(0x54 ≤ 3 ∧ 3 < 0x54 + 8) by decide)]

theorem ownTake_refused {s : State} {args : List Byte} (hlen : 97 ≤ args.length)
    (h : s.lifecycle ≠ 1 ∨ s.ownerHash 0 &&& keyHash (slice args 0 97) ≠ s.ownerHash 0) : s.ownTake args = (s, mbState) := by
  rw [State.ownTake, if_neg (by omega), if_pos h]

theorem ownTransfer_refused {s : State} {args : List Byte} (hlen : 193 ≤ args.length)
    (h : s.lifecycle ≠ 3 ∨ ∀ n, n < 4 → s.ownerHash n ≠ 0) : s.ownTransfer args = (s, mbState) := by
  rw [State.ownTransfer]
  dsimp only
  rw [if_neg (by omega)]
  split
  · rfl
  · rename_i hlife
    have hnone : ((List.range 4).find? fun i => s.ownerHash i == 0) = none := by
      rw [List.find?_eq_none]
      intro i hi
      simpa using h.resolve_left (by simpa using hlife) i (List.mem_range.mp hi)
    rw [hnone]

theorem retireDevice_good {s : State} {args : List Byte}
    (h : s.lifecycle = 1 ∨ (s.lifecycle = 3 ∧ 96 ≤ args.length ∧ s.ownerSigned (ascii "RETIRE" ++ s.uniqueId) (slice args 0 96) = true)) :
    s.retireDevice args = (s.retired, mbOk) := by
  rw [State.retireDevice]
  rcases h with h | ⟨h, hlen, hsigned⟩
  · rw [if_neg (by omega), if_neg (by omega), if_neg (by omega)]
    rfl
  · rw [if_neg (by omega), if_neg (by omega), if_neg (by simp [hsigned])]
    rfl

/-- RETIRE goes no further than its answer where the lifecycle stays. -/
theorem retire_of_kept {s : State} {r : MbReq}
    (h : (s.mbServe r (fun op => op == 0x12) fun t m => t.retireDevice m.args).lifecycle = s.lifecycle) :
    s.retire r = s.mbServe r (fun op => op == 0x12) fun t m => t.retireDevice m.args := by
  rw [State.retire, if_neg (by rw [h]; tauto)]

/-- The messages whose command this chapter's statement names: the opcode and the command. -/
noncomputable def lifecycleCommands (r : MbReq) : List (Nat × Instr) :=
  [(0x10, .ownTake r), (0x11, .ownTransfer r), (0x12, .retire r), (0x18, .faultClear r), (0x40, .logRead r)]

/-- Each serves its opcode alone; RETIRE does where the lifecycle stays as it is. -/
theorem exec_lifecycleCommands {r : MbReq} {op : Nat} {i : Instr} (h : (op, i) ∈ lifecycleCommands r) : liveOp op = false ∧
    ∃ f, ∀ s : State, (s.mbServe r (fun o => o == op) f).lifecycle = s.lifecycle → exec i s = .next (s.mbServe r (fun o => o == op) f) := by
  simp only [lifecycleCommands, List.mem_cons, List.not_mem_nil, or_false, Prod.mk.injEq] at h
  rcases h with ⟨rfl, rfl⟩ | ⟨rfl, rfl⟩ | ⟨rfl, rfl⟩ | ⟨rfl, rfl⟩ | ⟨rfl, rfl⟩
  · exact ⟨rfl, _, fun s _ => rfl⟩
  · exact ⟨rfl, _, fun s _ => rfl⟩
  · exact ⟨rfl, _, fun s hkept => congrArg Host.Outcome.next (retire_of_kept hkept)⟩
  · exact ⟨rfl, _, fun s _ => rfl⟩
  · exact ⟨rfl, _, fun s _ => rfl⟩

@[simp] theorem mbGo_boot (s : State) (r : MbReq) : (s.mbGo r).boot = s.boot := by cases r <;> rfl

/-! ### Each message, where it is served -/

section
variable {s : State} {r : MbReq}

/-- What a served message whose answer keeps the OTP and the board is refused with. -/
theorem mbAnswered_of_answer {op : Nat} {i : Instr} {f : State → MbMsg → State × MbAns} {a : MbAns} (hserves : Safety.mbServes s r op)
    (hlen : (s.mbMsg r).len ≤ 240) (hlive : liveOp op = false) (ha : f (Safety.mbBegun s r op) (s.mbMsg r) = (Safety.mbBegun s r op, a))
    (hexec : exec i s = .next (s.mbServe r (fun o => o == op) f)) : Safety.mbAnswered s i r a :=
  mbAnswered_of_refused (mine := fun o => o == op) hserves (beq_self_eq_true op) hlive ((mbAnswer_of_short hserves.2.2 hlen).trans ha) hexec

/-- A message served and answered. -/
theorem mbServe_eq {op : Nat} {f : State → MbMsg → State × MbAns} {a : MbAns} {w : State} (hserves : Safety.mbServes s r op)
    (hlen : (s.mbMsg r).len ≤ 240) (hlive : liveOp op = false) (ha : f (Safety.mbBegun s r op) (s.mbMsg r) = (w, a)) :
    s.mbServe r (fun o => o == op) f = w.mbRespond r (s.mbMsg r) a := by
  obtain ⟨hruns, hmode, hop⟩ := hserves
  have hanswer : s.mbAnswer r f = (w, a) := (mbAnswer_of_short hop hlen).trans ha
  rw [mbServe_answers hruns hmode (by rw [hop]; exact beq_self_eq_true op) (by rw [hop]; exact hlive), hanswer]

/-- A served message that changes the boot state alone and answers. -/
theorem mbServe_onlyBoot {op : Nat} {f : State → MbMsg → State × MbAns} {a : MbAns} {w : State} (hserves : Safety.mbServes s r op)
    (hlen : (s.mbMsg r).len ≤ 240) (hlive : liveOp op = false) (ha : f (Safety.mbBegun s r op) (s.mbMsg r) = (w, a))
    (hw : OnlyBoot (Safety.mbBegun s r op) w) : s.mbServe r (fun o => o == op) f = w.mbRespond r (s.mbMsg r) a ∧
      Safety.responded s (w.mbRespond r (s.mbMsg r) a) r (s.mbMsg r) a ∧ (w.mbRespond r (s.mbMsg r) a).board = s.board ∧
      ∀ k, (w.mbRespond r (s.mbMsg r) a).otpWord k = w.otpWord k := by
  obtain ⟨hport, -, hboard⟩ := mbBegun_parts s r op
  obtain ⟨hwport, hwboard⟩ := onlyBoot_parts hw
  obtain ⟨hrboot, hrboard⟩ := mbRespond_parts w r (s.mbMsg r) a
  exact ⟨mbServe_eq hserves hlen hlive ha, responded_mbRespond (hport.trans hwport), hrboard.trans (hwboard.trans hboard), otpWord_of_boot hrboot⟩

/-- What the lifecycle messages go by stands in the state they act on. -/
theorem mbBegun_trust (s : State) (r : MbReq) (op : Nat) : (Safety.mbBegun s r op).lifecycle = s.lifecycle ∧
    (∀ n, (Safety.mbBegun s r op).ownerHash n = s.ownerHash n) ∧ (Safety.mbBegun s r op).activeOwner = s.activeOwner ∧
    (∀ m g, (Safety.mbBegun s r op).ownerSigned m g = s.ownerSigned m g) ∧ (Safety.mbBegun s r op).uniqueId = s.uniqueId ∧
    ∀ k, (Safety.mbBegun s r op).otpWord k = s.otpWord k := by
  obtain ⟨g, p, x, h, -⟩ := mbBegun_frame s r op
  rw [h]
  exact ⟨rfl, fun _ => rfl, rfl, fun _ _ => rfl, rfl, fun _ => rfl⟩

theorem ownTake_served (hserves : Safety.mbServes s r 0x10) (hlen : (s.mbMsg r).len ≤ 240) (hargs : 97 ≤ (s.mbMsg r).args.length) (hlife : s.lifecycle = 1)
    (hhash : s.ownerHash 0 &&& keyHash (slice (s.mbMsg r).args 0 97) = s.ownerHash 0) :
    ∃ t, exec (.ownTake r) s = .next t ∧ Safety.responded s t r (s.mbMsg r) mbOk ∧ t.lifecycle = 3 ∧
      (∀ j, j < 12 → t.otpWord (0x14 + j) = s.otpWord (0x14 + j) |||
        BitVec.ofNat 32 (leAt (digestBytes (keyHash (slice (s.mbMsg r).args 0 97))) (4 * j) 4)) ∧
      ∀ w, w ≠ 3 → w < 0x14 ∨ 0x20 ≤ w → t.otpWord w = s.otpWord w := by
  obtain ⟨hblife, hbhash, -, -, -, hbword⟩ := mbBegun_trust s r 0x10
  obtain ⟨hexec, hresp, -, hword⟩ := mbServe_onlyBoot (f := fun t m => t.ownTake m.args) hserves hlen rfl
    (ownTake_good hargs (hblife.trans hlife) (by rw [hbhash]; exact hhash)) (onlyBoot_burn (onlyBoot_burnOwner _ _ _) _ _)
  have hburnt (k : Nat) := (hword k).trans (otpWord_burn _ _ _ k)
  simp only [otpWord_burnOwner, hbword] at hburnt
  refine ⟨_, congrArg Host.Outcome.next hexec, hresp, ?_, fun j hj => ?_, fun w hw hout => ?_⟩
  · rw [lifecycle_of_word3 (s := s) (v := 3) (by omega) ((hburnt 3).trans (by simp)), hlife]
    decide
  · rw [hburnt, if_neg (by omega), if_pos (by omega), show 0x14 + j - (0x14 + 12 * 0) = j by omega]
  · rw [hburnt, if_neg hw, if_neg (by omega)]

theorem ownTransfer_served {n old : Nat} (hserves : Safety.mbServes s r 0x11) (hlen : (s.mbMsg r).len ≤ 240) (hargs : 193 ≤ (s.mbMsg r).args.length)
    (hlife : s.lifecycle = 3) (hn : n < 4) (hfree : s.ownerHash n = 0) (hbelow : ∀ k, k < n → s.ownerHash k ≠ 0)
    (hsigned : s.ownerSigned (digestBytes (keyHash (slice (s.mbMsg r).args 0 97)) ++ s.uniqueId) (slice (s.mbMsg r).args 97 96) = true)
    (hold : s.activeOwner = some old) : ∃ t, exec (.ownTransfer r) s = .next t ∧ Safety.responded s t r (s.mbMsg r) mbOk ∧
      (∀ j, j < 12 → t.otpWord (0x14 + 12 * n + j) = s.otpWord (0x14 + 12 * n + j) |||
        BitVec.ofNat 32 (leAt (digestBytes (keyHash (slice (s.mbMsg r).args 0 97))) (4 * j) 4)) ∧
      t.otpWord 4 = s.otpWord 4 ||| BitVec.ofNat 32 (2 ^ old) ∧
      ∀ w, w ≠ 4 → w < 0x14 + 12 * n ∨ 0x20 + 12 * n ≤ w → t.otpWord w = s.otpWord w := by
  obtain ⟨hblife, hbhash, hbactive, hbsigned, hbid, hbword⟩ := mbBegun_trust s r 0x11
  have hfound := find_free_owner (s := Safety.mbBegun s r 0x11) hn ((hbhash n).trans hfree) fun k hk => by rw [hbhash]; exact hbelow k hk
  have hgood := (ownTransfer_signed hargs (hblife.trans hlife) hfound).trans (if_pos (by rw [hbsigned, hbid]; exact hsigned))
  rw [hbactive, hold, Option.getD_some] at hgood
  obtain ⟨hexec, hresp, -, hword⟩ := mbServe_onlyBoot (f := fun t m => t.ownTransfer m.args) hserves hlen rfl hgood (onlyBoot_burn (onlyBoot_burnOwner _ _ _) _ _)
  have hburnt (k : Nat) := (hword k).trans (otpWord_burn _ _ _ k)
  simp only [otpWord_burnOwner, hbword] at hburnt
  refine ⟨_, congrArg Host.Outcome.next hexec, hresp, fun j hj => ?_, ?_, fun w hw hout => ?_⟩
  · rw [hburnt, if_neg (by omega), if_pos (by omega), Nat.add_sub_cancel_left]
  · rw [hburnt, if_pos rfl, if_neg (by omega)]
  · rw [hburnt, if_neg hw, if_neg (by omega)]

theorem retire_served (hserves : Safety.mbServes s r 0x12) (hlen : (s.mbMsg r).len ≤ 240)
    (h : s.lifecycle = 1 ∨ (s.lifecycle = 3 ∧ 96 ≤ (s.mbMsg r).args.length ∧
      s.ownerSigned (ascii "RETIRE" ++ s.uniqueId) (slice (s.mbMsg r).args 0 96) = true)) :
    ∃ t, Safety.responded s t r (s.mbMsg r) mbOk ∧ t.lifecycle = 7 ∧ (∀ j, j < 8 → t.otpWord (0x54 + j) = 0xFFFFFFFF) ∧
      exec (.retire r) s = .next (if s.board.mainRunning then State.settleDma (State.warmFlush t true false) else t) := by
  obtain ⟨hblife, -, -, hbsigned, hbid, hbword⟩ := mbBegun_trust s r 0x12
  obtain ⟨hserved, hresp, hboard, hword⟩ := mbServe_onlyBoot (f := fun t m => t.retireDevice m.args) hserves hlen rfl
    (retireDevice_good (by rw [hblife, hbsigned, hbid]; exact h)) (onlyBoot_retired _)
  have hburnt (k : Nat) := (hword k).trans (retired_otpWord _ k)
  simp only [hbword] at hburnt
  have hlisted : s.lifecycle ≠ 7 := by omega
  have hlife : ((Safety.mbBegun s r 0x12).retired.mbRespond r (s.mbMsg r) mbOk).lifecycle = 7 := by
    rw [lifecycle_of_word3 hlisted ((hburnt 3).trans (if_pos rfl))]
    rcases h with h | ⟨h, -⟩ <;> rw [h] <;> decide
  refine ⟨_, hresp, hlife, fun j hj => ?_, congrArg Host.Outcome.next ?_⟩
  · rw [hburnt, if_neg (by omega), if_pos (by omega)]
  · rw [State.retire, hserved]
    simp only [hlife, hboard]
    exact if_congr (by simp [hlisted]) rfl rfl

/-- The latched rail fault cleared (02 R66). -/
def State.railFaultCleared (s : State) : State := s.modBoard fun b => { b with railFault := none, railRetried := false }

theorem railFaultCleared_parts (s : State) :
    SamePort s s.railFaultCleared ∧ s.railFaultCleared.board = { s.board with railFault := none, railRetried := false } := ⟨⟨rfl, rfl⟩, rfl⟩

theorem faultClear_latched {s : State} (h : s.board.railFault ≠ none) : s.faultClear = (s.railFaultCleared, mbOk) := by
  rw [State.faultClear, if_neg (by simpa using h)]
  rfl

theorem faultClear_served (hserves : Safety.mbServes s r 0x18) (hlen : (s.mbMsg r).len ≤ 240) (hfault : s.board.railFault ≠ none) :
    ∃ t, exec (.faultClear r) s = .next t ∧ Safety.responded s t r (s.mbMsg r) mbOk ∧ t.board = { s.board with railFault := none, railRetried := false } := by
  obtain ⟨hport, -, hboard⟩ := mbBegun_parts s r 0x18
  obtain ⟨hcport, hcboard⟩ := railFaultCleared_parts (Safety.mbBegun s r 0x18)
  have hlatched : (Safety.mbBegun s r 0x18).board.railFault ≠ none := by rw [hboard]; exact hfault
  have hserved := mbServe_eq (f := fun t _ => t.faultClear) hserves hlen rfl (faultClear_latched hlatched)
  exact ⟨_, congrArg Host.Outcome.next hserved, responded_mbRespond (hport.trans hcport), by rw [(mbRespond_parts _ _ _ _).2, hcboard, hboard]⟩

/-- An opcode outside Table 22.2 is answered STATUS 1; one in the numbers of the live operations is recorded as they are. -/
theorem unsupported_served (hserves : Safety.mbServes s r (s.mbMsg r).op) (hother : mbOpcodes.contains (s.mbMsg r).op = false)
    (hlen : (s.mbMsg r).len ≤ 240) : Safety.mbAnswered s (.mailboxUnsupportedOpcode r) r ⟨1, 0, []⟩ := by
  obtain ⟨hruns, hmode, -⟩ := hserves
  obtain ⟨hport, hboot, hboard⟩ := mbBegun_parts s r (s.mbMsg r).op
  have hserved := mbServe_served (f := fun t _ => (t, ⟨1, 0, []⟩)) (mine := fun op => !mbOpcodes.contains op) hruns hmode (by rw [hother]; rfl)
  rw [mbAnswer_of_short rfl hlen] at hserved
  refine mbAnswered_of_mbRespond ?_ ?_ ?_ (congrArg Host.Outcome.next hserved)
  · split
    · obtain ⟨l, g, e, n, hrec⟩ := record_frame (Safety.mbBegun s r (s.mbMsg r).op) 0x11 1 [(s.mbMsg r).op, leAt (s.mbMsg r).args 0 2, 1, (s.mbMsg r).agent]
      exact hport.trans ⟨by rw [hrec], record_rd (by decide) (by decide) (by decide)⟩
    · exact hport
  · split
    · obtain ⟨l, g, e, n, hrec⟩ := record_frame (Safety.mbBegun s r (s.mbMsg r).op) 0x11 1 [(s.mbMsg r).op, leAt (s.mbMsg r).args 0 2, 1, (s.mbMsg r).agent]
      rw [hrec]
      exact hboot
    · exact hboot
  · split
    · obtain ⟨l, g, e, n, hrec⟩ := record_frame (Safety.mbBegun s r (s.mbMsg r).op) 0x11 1 [(s.mbMsg r).op, leAt (s.mbMsg r).args 0 2, 1, (s.mbMsg r).agent]
      rw [hrec]
      exact hboard
    · exact hboard

end

end Sys2Proof.Machine

open Sys2Proof
open Sys2Proof.Machine

/-- Settles O45: each message is `State.mbServe` with its own answer, given on the state the request was taken in. -/
theorem mailboxServesItsMessages : Obligations.MailboxServesItsMessages := by
  intro r s m h
  refine ⟨fun op i hi => ?_, unsupported_served, fun hknown => ?_, fun hserves hlen => ?_, fun hserves hlen => ?_, fun hserves hlen => ?_,
    fun hserves hlen => ?_, fun hserves hlen => ?_⟩
  · obtain ⟨hlive, f, hexec⟩ := exec_lifecycleCommands hi
    refine ⟨fun hother => ?_, fun hvaux hop hdown => ?_, fun hserves hlong => ?_⟩
    · have hnone : s.mbServe r (fun o => o == op) f = s := mbServe_other (by simpa using hother)
      rw [hexec s (by rw [hnone]), hnone]
    · have hwaits : s.mbServe r (fun o => o == op) f = s.mbGo r := mbServe_waits hvaux (by simpa using hop) hdown
      rw [hexec s (by rw [hwaits]; exact lifecycle_of_boot (mbGo_boot s r)), hwaits]
    · have hlong := mbAnswer_of_long (f := f) hserves.2.2 hlong
      have hrefused := mbServe_refused (mine := fun o => o == op) hserves (beq_self_eq_true op) hlive hlong
      refine mbAnswered_of_refused (mine := fun o => o == op) hserves (beq_self_eq_true op) hlive hlong (hexec s ?_)
      rw [hrefused]
      exact lifecycle_of_boot ((mbRespond_parts _ _ _ _).1.trans (mbBegun_parts s r op).2.1)
  · exact congrArg Host.Outcome.next (mbServe_other (.inr (by rw [hknown]; rfl)))
  · obtain ⟨hblife, hbhash, -⟩ := mbBegun_trust s r 0x10
    refine ⟨fun hshort => ?_, fun hargs hbad => ?_, fun hargs hlife hhash => ownTake_served hserves hlen hargs hlife hhash⟩
    · exact mbAnswered_of_answer (f := fun t m => t.ownTake m.args) hserves hlen rfl (if_pos hshort) rfl
    · exact mbAnswered_of_answer (f := fun t m => t.ownTake m.args) hserves hlen rfl (ownTake_refused hargs (by rw [hblife, hbhash]; exact hbad)) rfl
  · obtain ⟨hblife, hbhash, -, hbsigned, hbid, -⟩ := mbBegun_trust s r 0x11
    refine ⟨fun hshort => ?_, fun hargs hbad => ?_, fun hargs hlife n hn hfree hbelow =>
      ⟨fun hunsigned => ?_, fun old hsigned hold => ownTransfer_served hserves hlen hargs hlife hn hfree hbelow hsigned hold⟩⟩
    · exact mbAnswered_of_answer (f := fun t m => t.ownTransfer m.args) hserves hlen rfl (if_pos hshort) rfl
    · exact mbAnswered_of_answer (f := fun t m => t.ownTransfer m.args) hserves hlen rfl
        (ownTransfer_refused hargs (by simpa only [hblife, hbhash] using hbad)) rfl
    · have hfound := find_free_owner (s := Safety.mbBegun s r 0x11) hn ((hbhash n).trans hfree) fun k hk => by rw [hbhash]; exact hbelow k hk
      refine mbAnswered_of_answer (f := fun t m => t.ownTransfer m.args) hserves hlen rfl ?_ rfl
      refine (ownTransfer_signed hargs (hblife.trans hlife) hfound).trans (if_neg ?_)
      rw [hbsigned, hbid]
      exact Bool.eq_false_iff.mp hunsigned
  · obtain ⟨hblife, -, -, hbsigned, hbid, -⟩ := mbBegun_trust s r 0x12
    have hkept {a : MbAns} (ha : (Safety.mbBegun s r 0x12).retireDevice m.args = (Safety.mbBegun s r 0x12, a)) : Safety.mbAnswered s (.retire r) r a := by
      have hanswer := (mbAnswer_of_short (f := fun t m => t.retireDevice m.args) hserves.2.2 hlen).trans ha
      refine mbAnswered_of_refused (mine := fun o => o == 0x12) hserves rfl rfl hanswer (congrArg Host.Outcome.next (retire_of_kept ?_))
      rw [mbServe_refused hserves rfl rfl hanswer]
      exact lifecycle_of_boot ((mbRespond_parts _ _ _ _).1.trans (mbBegun_parts s r 0x12).2.1)
    refine ⟨fun hopen howned => hkept ?_, fun howned hshort => hkept ?_, fun howned hargs hunsigned => hkept ?_, fun hmay => retire_served hserves hlen hmay⟩
    · exact if_pos (by rw [hblife]; exact ⟨hopen, howned⟩)
    · rw [State.retireDevice, hblife, if_neg (by omega), if_pos ⟨howned, hshort⟩]
    · rw [State.retireDevice, hblife, if_neg (by omega), if_neg (by omega), if_pos ⟨howned, by rw [hbsigned, hbid]; simpa using hunsigned⟩]
  · refine ⟨fun hnone => ?_, fun hfault => faultClear_served hserves hlen hfault⟩
    refine mbAnswered_of_answer (f := fun t _ => t.faultClear) hserves hlen rfl (if_pos ?_) rfl
    rw [(mbBegun_parts s r 0x18).2.2, hnone]
    rfl
  · have hlife : (Safety.mbBegun s r 0x40).life = s.life := by
      obtain ⟨g, p, x, hb, -⟩ := mbBegun_frame s r 0x40
      rw [hb]
    refine ⟨fun hcount => ?_, fun hlo hhi => ?_⟩
    · exact mbAnswered_of_answer (f := fun t m => (t, t.logRead (leAt m.args 0 8) (byteAt m.args 8))) hserves hlen rfl
        (congrArg (Prod.mk _) (if_pos hcount)) rfl
    · refine mbAnswered_of_answer (f := fun t m => (t, t.logRead (leAt m.args 0 8) (byteAt m.args 8))) hserves hlen rfl (congrArg (Prod.mk _) ?_) rfl
      rw [State.logRead, if_neg (not_or.mpr ⟨hlo.ne', Nat.not_lt.mpr hhi⟩), hlife]

end

section
/-!
PROOFS. Scope: what the completion of a command changes besides the completion (06 R193 to R196).
-/
namespace Sys2Proof.Machine

/-! ### A completion changes the NVM subsystem and the interrupt writes queued -/

theorem onlyNvme_setNvme (s : State) (n : Nvme) : Safety.onlyNvme s { s with nvme := n } := rfl

theorem onlyNvme_refl (s : State) : Safety.onlyNvme s s := rfl

theorem onlyNvme_trans {s t u : State} (h : Safety.onlyNvme s t) (g : Safety.onlyNvme t u) : Safety.onlyNvme s u := by
  unfold Safety.onlyNvme at h g ⊢
  rw [g, h]

theorem onlyNvme_setCtrl (s : State) (c : Nat) (x : Ctrl) : Safety.onlyNvme s (s.setCtrl c x) := rfl

theorem onlyNvme_msix (s : State) (c vec : Nat) : Safety.onlyNvme s (s.msix c vec) := by
  unfold State.msix
  extract_lets p
  split
  · exact onlyNvme_refl s
  · split <;> rfl

theorem onlyNvme_cqSignal (s : State) (c q vec : Nat) : Safety.onlyNvme s (s.cqSignal c q vec) := by
  unfold State.cqSignal
  dsimp only
  split
  · exact onlyNvme_setCtrl s c _
  · split
    · exact onlyNvme_msix s c vec
    · split
      · exact onlyNvme_trans (onlyNvme_setCtrl s c _) (onlyNvme_msix _ c vec)
      · exact onlyNvme_setCtrl s c _

theorem onlyNvme_post (s : State) (x : Cpl) : Safety.onlyNvme s (s.post x) := by
  unfold State.post
  split
  · exact onlyNvme_refl s
  · extract_lets n1 s1 k q
    clear_value q
    split
    · exact onlyNvme_setNvme s _
    · split
      · dsimp only
        split
        · exact onlyNvme_trans (onlyNvme_setNvme s _) (onlyNvme_cqSignal _ _ _ _)
        · exact onlyNvme_setNvme s _
      · split
        · exact onlyNvme_trans (onlyNvme_setNvme s _) (onlyNvme_cqSignal _ _ _ _)
        · exact onlyNvme_setNvme s _

theorem onlyNvme_complete (s : State) (c : Sqe) (st : Status) (dw0 dw1 : Nat) (data : List Byte) :
    Safety.onlyNvme s (s.complete c st dw0 dw1 data) := by
  unfold State.complete
  dsimp only
  split
  · exact onlyNvme_post s _
  · exact onlyNvme_trans (onlyNvme_setCtrl s _ _) (onlyNvme_post _ _)

/-! ### A command taken up and completed -/

/-- Only the commands outstanding, and how many there have been, have changed. -/
def TookUp (s u : State) : Prop := ∃ o q, u = { s with nvme := { s.nvme with outs := o, fetchSeq := q } }

/-- A command outstanding in a state that only took it up completes, and nothing else happens. -/
theorem completed_complete {s u : State} (h : TookUp s u) {c : Sqe} (hout : u.outstanding c.mi c.ctrl.val c.sq c.cid = true)
    (st : Status) (dw0 dw1 : Nat) (data : List Byte) : Safety.completed s (u.complete c st dw0 dw1 data) (Safety.cpl c st dw0 dw1 data) := by
  obtain ⟨⟨hnvme, hctrl⟩, hcpls⟩ := complete_rest u c st dw0 dw1 data
  have honly := onlyNvme_complete u c st dw0 dw1 data
  obtain ⟨o, q, rfl⟩ := h
  refine ⟨hcpls hout, onlyNvme_trans (onlyNvme_setNvme s _) honly, ?_, hctrl⟩
  rw [hnvme]

theorem completed_taken (s : State) (c : Sqe) (st : Status) (dw0 dw1 : Nat) (data : List Byte) :
    Safety.completed s ((s.taken c).complete c st dw0 dw1 data) (Safety.cpl c st dw0 dw1 data) :=
  completed_complete (taken_frame s c) (taken_outstanding s c) st dw0 dw1 data

theorem completed_fetched (s : State) (c : Sqe) (st : Status) (dw0 dw1 : Nat) (data : List Byte) :
    Safety.completed s ((s.fetched c).complete c st dw0 dw1 data) (Safety.cpl c st dw0 dw1 data) :=
  completed_complete (fetched_frame s c) (fetched_outstanding s c) st dw0 dw1 data

end Sys2Proof.Machine
end

section
/-!
PROOFS. Scope: firmware update over NVMe, the messages of recovery mode, Microcode Patch (03 R106 to R113, 13 R484).
-/
namespace Sys2Proof.Machine

/-! ### The parts of the state a command taken up reads -/

section
variable (s : State) (c : Sqe)

theorem taken_ctrl (k : Nat) : (s.taken c).ctrl k = s.ctrl k := by
  obtain ⟨o, q, h⟩ := taken_frame s c
  rw [h]
  rfl

/-- A command taken up changes what is in the NVM subsystem alone: what the firmware update commands go by stands. -/
theorem taken_update : (s.taken c).boot = s.boot ∧ (∀ b, (s.taken c).acceptPkg b = s.acceptPkg b) ∧
    (∀ p f, (s.taken c).commitSlotOk p f = s.commitSlotOk p f) ∧ (s.taken c).nvme.cpls = s.nvme.cpls := by
  obtain ⟨o, q, h⟩ := taken_frame s c
  rw [h]
  exact ⟨rfl, fun _ => rfl, fun _ _ => rfl, rfl⟩

/-- What a Microcode Patch goes by stands too. -/
theorem taken_patch : (s.taken c).patchOf c = s.patchOf c ∧ (s.taken c).slv = s.slv ∧
    (s.taken c).nvme.sanitize = s.nvme.sanitize ∧ (∀ f, (s.taken c).rd f = s.rd f) ∧ ∀ i m, (s.taken c).patchBad i m = s.patchBad i m := by
  obtain ⟨o, q, h⟩ := taken_frame s c
  rw [h]
  exact ⟨rfl, rfl, rfl, fun _ => rfl, fun _ _ => rfl⟩

theorem taken_sleeve (j : Nat) : (s.taken c).sleeve j = s.sleeve j := by
  obtain ⟨o, q, h⟩ := taken_frame s c
  rw [h]
  rfl

end

/-! ### Download and Firmware Commit -/

/-- A portion in the buffer of its controller. -/
def Ctrl.withPortion (k : Ctrl) (c : Sqe) : Ctrl :=
  { k with download := k.download ++ [(4 * c.cdw11.toNat, padTo (4 * (c.cdw10.toNat + 1)) (c.data.take (4 * (c.cdw10.toNat + 1))))] }

theorem download_spec (s : State) (c : Sqe) : (((s.taken c).download c).ctrl c.ctrl.val).download = ((s.ctrl c.ctrl.val).withPortion c).download ∧
    ((s.taken c).download c).nvme.cpls = s.nvme.cpls ++ [Safety.cpl c stOk 0 0 []] ∧ Safety.onlyNvme s ((s.taken c).download c) := by
  have hdone : (s.taken c).download c = ((s.taken c).modCtrl c.ctrl.val fun k => k.withPortion c).complete c stOk 0 0 [] := rfl
  obtain ⟨⟨-, hctrl⟩, hcpls⟩ := complete_rest ((s.taken c).modCtrl c.ctrl.val fun k => k.withPortion c) c stOk 0 0 []
  obtain ⟨o, q, htaken⟩ := taken_frame s c
  rw [hdone]
  refine ⟨?_, (hcpls (taken_outstanding s c)).trans ?_, onlyNvme_trans ?_ (onlyNvme_complete _ _ _ _ _ _)⟩
  · rw [hctrl, ctrl_modCtrl_same, taken_ctrl]
  · exact congrArg (· ++ [Safety.cpl c stOk 0 0 []]) (taken_update s c).2.2.2
  · rw [htaken]
    rfl

section
variable {s : State} {c : Sqe} {trial : Bool}

theorem fwCommit_busy (h : s.boot.commit.isSome = true) : s.fwCommit c trial = s.fail c stSequence := if_pos h

theorem fwCommit_bad (h : s.boot.commit = none) (hbad : s.acceptPkg (assembled (s.ctrl c.ctrl.val).download) = none) :
    s.fwCommit c trial = s.fail c stInvalidImage := by
  unfold State.fwCommit
  dsimp only
  rw [h, hbad]
  rfl

theorem fwCommit_good {p : Pkg} (h : s.boot.commit = none) (hgood : s.acceptPkg (assembled (s.ctrl c.ctrl.val).download) = some p) :
    s.fwCommit c trial = if s.commitSlotOk p (dwBits c.cdw10 0 3) = false then s.fail c stInvalidSlot
      else s.modBoot fun b => { b with commit := some ⟨c, trial, assembled (s.ctrl c.ctrl.val).download, p.comps.map fun x => x.kind⟩ } := by
  unfold State.fwCommit
  dsimp only
  rw [h, hgood]
  dsimp only
  rw [if_neg (by decide)]
  exact if_congr (by simp) rfl rfl

end

/-- Either commit command does the action that is its own. -/
theorem exec_fwCommit {c : Sqe} {s : State} {i : Instr} (hruns : Safety.runs s c .plain)
    (h : (dwBits c.cdw10 3 3 = 0 ∧ i = .firmwareCommitReplace c) ∨ ((dwBits c.cdw10 3 3 = 1 ∨ dwBits c.cdw10 3 3 = 2) ∧ i = .firmwareCommitActivate c)) :
    exec i s = .next ((s.taken c).fwCommit c (dwBits c.cdw10 3 3 != 0)) := by
  rcases h with ⟨hca, rfl⟩ | ⟨hca, rfl⟩
  · refine congrArg Host.Outcome.next ((if_neg (by omega)).trans ((admin_run _ hruns.1 hruns.2).trans ?_))
    rw [if_pos hca, hca]
    rfl
  · refine congrArg Host.Outcome.next ((if_pos hca).trans ((admin_run _ hruns.1 hruns.2).trans ?_))
    rw [show (dwBits c.cdw10 3 3 != 0) = true from bne_iff_ne.mpr (by omega)]

theorem reservedAction_refused {c : Sqe} {s : State} (hruns : Safety.runs s c .plain) (hca : 3 ≤ dwBits c.cdw10 3 3) :
    Safety.answered s (.firmwareCommitReplace c) (Safety.cpl c stInvalidField 0 0 []) := by
  refine ⟨_, congrArg Host.Outcome.next ((if_neg (by omega)).trans ((admin_run _ hruns.1 hruns.2).trans (if_neg (by omega)))), ?_⟩
  exact completed_taken s c _ _ _ _

/-! ### Recovery mode -/

theorem rcv_other {s : State} {f : State → State} (h : s.belfryRuns = false ∨ s.recoveryMode = false) : s.rcv f = s := by
  exact if_neg (by rw [Bool.and_eq_true, not_and_or]; simpa using h)

theorem rcv_served {s : State} {f : State → State} (hruns : s.belfryRuns = true) (hmode : s.recoveryMode = true) : s.rcv f = f s := by
  rw [State.rcv, if_pos (by simp [hruns, hmode])]

/-- Bytes stored one after the other from an address on. -/
def stored (m : SMap Byte) (off : Nat) (d : List Byte) (n : Nat) : SMap Byte :=
  (List.range n).foldl (fun m i => mapSet (fun _ => (0 : Byte)) m (off + i) (d.getD i 0)) m

theorem mapGet_stored (m : SMap Byte) (off : Nat) (d : List Byte) (n a : Nat) :
    mapGet (fun _ => 0) (stored m off d n) a = if off ≤ a ∧ a < off + n then d.getD (a - off) 0 else mapGet (fun _ => 0) m a := by
  unfold stored
  induction n with
  | zero => rw [if_neg (by omega)]; rfl
  | succ n ih =>
    rw [List.range_succ, List.foldl_append, List.foldl_cons, List.foldl_nil, mapGet_mapSet, ih]
    by_cases hlast : a = off + n
    · rw [if_pos hlast, if_pos (by omega), hlast, Nat.add_sub_cancel_left]
    · rw [if_neg hlast]
      exact if_congr (by omega) rfl rfl

theorem rcvWrite_refused {s : State} {d : List Byte} (off : Nat) (h : d = [] ∨ 1024 < d.length) : s.rcvWrite off d = s.rcvAnswer 2 [2] := by
  rw [State.rcvWrite, if_pos (by simpa using h)]

theorem rcvWrite_stored {s : State} {d : List Byte} (off : Nat) (hlo : 1 ≤ d.length) (hhi : d.length ≤ 1024) : s.rcvWrite off d =
    (s.modBoot fun b => { b with recoveryBuf := stored s.boot.recoveryBuf off d d.length }).rcvAnswer 2 [0] := by
  rw [State.rcvWrite, if_neg]
  · rfl
  rintro (hempty | hlong)
  · rw [List.isEmpty_iff] at hempty
    rw [hempty] at hlo
    exact absurd hlo (by decide)
  · omega

theorem rcvCommit_bad {s : State} {len : Nat} (h : s.acceptPkg ((List.range len).map fun i => mapGet (fun _ => (0 : Byte)) s.boot.recoveryBuf i) = none) :
    s.rcvCommit len = s.rcvAnswer 3 (leBytes 1 7) := by
  unfold State.rcvCommit
  dsimp only
  rw [h]

/-! ### Microcode Patch -/

/-- The Sleeves a patch names. -/
def patchSleeves (c : Sqe) : List Nat := (List.range 64).filter (c.cdw12.toNat + 2 ^ 32 * c.cdw13.toNat).testBit

/-- A Sleeve named, not bypassed, cannot take the patch. -/
def State.patchMisfits (s : State) (c : Sqe) (m : Micro) : Bool := (patchSleeves c).any fun i => s.rd (Reg.SLV_STATUS_BYPASSED i) == 0 && s.patchBad i m

section
variable {s : State} {c : Sqe} {m : Micro} {body : List Byte}

theorem microPatch_noPackage (hlen : c.cdw10.toNat ≤ 524288) (h : s.patchOf c = none) : s.microPatch c = s.fail c stInvalidImage := by
  unfold State.microPatch
  dsimp only
  rw [if_neg (by omega), h]

/-- The checks of a patch whose package is good, in order. -/
theorem microPatch_package (hlen : c.cdw10.toNat ≤ 524288) (h : s.patchOf c = some (m, body)) : s.microPatch c =
    if patchSleeves c = [] then s.fail c stInvalidField
    else if s.slv.patch.isSome = true ∨ s.nvme.sanitize.action ≠ 0 then s.fail c stSequence
    else if s.patchMisfits c m = true then s.fail c stInvalidImage
    else ((s.noAbort c).modSlv fun v => { v with patch := some ⟨c, Config.sha384 body, m, patchSleeves c, 0⟩ }).patchGo := by
  unfold State.microPatch
  dsimp only
  rw [if_neg (by omega), h]
  exact if_congr List.isEmpty_iff rfl (if_congr (by simp) rfl rfl)

end

/-- A patch refused is a command completed. -/
theorem settled_of_refused {s : State} {c : Sqe} {st : Status} (hruns : Safety.runs s c .patch)
    (h : (s.taken c).microPatch c = (s.taken c).fail c st) : Safety.settled s (.microcodePatch c) (Safety.cpl c st 0 0 []) := by
  refine ⟨_, congrArg Host.Outcome.next ((admin_run _ hruns.1 hruns.2).trans (congrArg State.settleDma h)), ?_⟩
  exact completed_taken s c _ _ _ _

theorem patchMisfits_eq_true {s : State} {c : Sqe} {m : Micro} :
    s.patchMisfits c m = true ↔ ∃ i ∈ patchSleeves c, s.rd (Reg.SLV_STATUS_BYPASSED i) = 0 ∧ s.patchBad i m = true := by
  simp [State.patchMisfits]

/-- The claims about Firmware Image Download and Firmware Commit. -/
theorem firmwareCommit_settled {c : Sqe} {s : State} {i : Instr} (hruns : Safety.runs s c .plain)
    (hi : (dwBits c.cdw10 3 3 = 0 ∧ i = .firmwareCommitReplace c) ∨ ((dwBits c.cdw10 3 3 = 1 ∨ dwBits c.cdw10 3 3 = 2) ∧ i = .firmwareCommitActivate c)) :
    (s.boot.commit.isSome = true → Safety.answered s i (Safety.cpl c stSequence 0 0 [])) ∧
    (s.boot.commit = none →
      (s.acceptPkg (assembled (s.ctrl c.ctrl.val).download) = none → Safety.answered s i (Safety.cpl c stInvalidImage 0 0 [])) ∧
      (∀ p, s.acceptPkg (assembled (s.ctrl c.ctrl.val).download) = some p →
        (s.commitSlotOk p (dwBits c.cdw10 0 3) = false → Safety.answered s i (Safety.cpl c stInvalidSlot 0 0 [])) ∧
        (s.commitSlotOk p (dwBits c.cdw10 0 3) = true → ∃ t, exec i s = .next t ∧ t.nvme.cpls = s.nvme.cpls ∧
          t.boot = { s.boot with commit := some ⟨c, dwBits c.cdw10 3 3 != 0, assembled (s.ctrl c.ctrl.val).download, p.comps.map fun x => x.kind⟩ }))) := by
  obtain ⟨hboot, haccept, hslot, hcpls⟩ := taken_update s c
  have hexec := exec_fwCommit hruns hi
  have hrefused {st : Status} (h : (s.taken c).fwCommit c (dwBits c.cdw10 3 3 != 0) = (s.taken c).fail c st) :
      Safety.answered s i (Safety.cpl c st 0 0 []) := ⟨_, hexec.trans (congrArg Host.Outcome.next h), completed_taken s c _ _ _ _⟩
  refine ⟨fun hbusy => hrefused (fwCommit_busy (by rw [hboot]; exact hbusy)), fun hfree => ?_⟩
  have hfree' : (s.taken c).boot.commit = none := by rw [hboot]; exact hfree
  refine ⟨fun hbad => hrefused (fwCommit_bad hfree' (by rw [taken_ctrl, haccept]; exact hbad)), fun p hgood => ?_⟩
  have hcommit := fwCommit_good (trial := dwBits c.cdw10 3 3 != 0) hfree' (by rw [taken_ctrl, haccept]; exact hgood)
  rw [hslot, taken_ctrl] at hcommit
  refine ⟨fun hno => hrefused (hcommit.trans (if_pos hno)), fun hok => ?_⟩
  rw [if_neg (by simp [hok])] at hcommit
  exact ⟨_, hexec.trans (congrArg Host.Outcome.next hcommit), hcpls, by rw [State.modBoot_boot, hboot]⟩

end Sys2Proof.Machine

open Sys2Proof
open Sys2Proof.Machine

/-- Settles O35: the commands complete by the first of their checks that fails, and else do their work. -/
theorem firmwareUpdateCommands : Obligations.FirmwareUpdateCommands := by
  refine ⟨fun c s hruns => ⟨?_, reservedAction_refused hruns, fun i hi => firmwareCommit_settled hruns hi⟩, fun off len d s hother i hi => ?_,
    fun off len d s hruns hmode => ?_, fun c s hruns => ?_⟩
  · exact ⟨_, congrArg Host.Outcome.next (admin_run _ hruns.1 hruns.2), download_spec s c⟩
  · simp only [List.mem_cons, List.not_mem_nil, or_false] at hi
    rcases hi with rfl | rfl | rfl | rfl <;> exact congrArg Host.Outcome.next (rcv_other hother)
  · refine ⟨?_, fun hlo hhi => ?_, fun hbad => ?_, fun hbad => ?_, ?_⟩
    · refine ⟨_, _, congrArg Host.Outcome.next (rcv_served hruns hmode), rfl, ?_, ?_, rfl⟩
      · simp [leAt, byteAt]
      · simp [leAt, byteAt]
    · refine ⟨_, congrArg Host.Outcome.next ((rcv_served hruns hmode).trans (rcvWrite_stored off hlo hhi)), rfl, fun a => ?_⟩
      exact mapGet_stored s.boot.recoveryBuf off d d.length a
    · exact ⟨_, congrArg Host.Outcome.next ((rcv_served hruns hmode).trans (rcvWrite_refused off hbad)), rfl, rfl⟩
    · exact ⟨_, congrArg Host.Outcome.next ((rcv_served hruns hmode).trans (rcvCommit_bad hbad)), rfl, rfl⟩
    · exact ⟨_, congrArg Host.Outcome.next (rcv_served hruns hmode), setPhase_phase _ (by decide), rfl, rfl⟩
  · obtain ⟨hpatchOf, hslv, hsan, hrd, hpatchBad⟩ := taken_patch s c
    refine ⟨fun hlong => settled_of_refused hruns (if_pos hlong), fun hlen => ⟨fun hnone => ?_, fun m body hsome => ?_⟩⟩
    · exact settled_of_refused hruns (microPatch_noPackage hlen (hpatchOf.trans hnone))
    have hcheck := microPatch_package hlen (hpatchOf.trans hsome)
    have hmisfits : (s.taken c).patchMisfits c m = s.patchMisfits c m := by simp only [State.patchMisfits, hrd, hpatchBad]
    rw [hslv, hsan, hmisfits] at hcheck
    refine ⟨fun hempty => settled_of_refused hruns (hcheck.trans (if_pos hempty)), fun (hnamed : patchSleeves c ≠ []) hbusy => ?_,
      fun (hnamed : patchSleeves c ≠ []) hfree hidle => ⟨fun hbad => ?_, fun hfit => ?_⟩⟩
    · exact settled_of_refused hruns (hcheck.trans ((if_neg hnamed).trans (if_pos hbusy)))
    · rw [if_neg hnamed, if_neg (by simp [hfree, hidle]), if_pos (patchMisfits_eq_true.mpr hbad)] at hcheck
      exact settled_of_refused hruns hcheck
    · have hnone : ¬s.patchMisfits c m = true := fun h => by
        obtain ⟨i, hi, hlive, hbad⟩ := patchMisfits_eq_true.mp h
        rw [hfit i hi hlive] at hbad
        exact absurd hbad (by decide)
      rw [if_neg hnamed, if_neg (by simp [hfree, hidle]), if_neg hnone] at hcheck
      refine ⟨_, congrArg Host.Outcome.next ((admin_run _ hruns.1 hruns.2).trans (congrArg State.settleDma hcheck)), rfl, fun j => ?_, (taken_update s c).2.2.2⟩
      exact taken_sleeve s c j

end

section
/-!
PROOFS. Scope: the I/O commands, from their fetch to the path or to their completion (06 R184 to R208, R214, R225).
-/
namespace Sys2Proof.Machine

/-! ### A fetched command -/

section
variable (s : State) (c : Sqe)

/-- A fetch leaves everything but the commands outstanding. -/
theorem fetched_parts : (s.fetched c).path = s.path ∧ (s.fetched c).nvme.cpls = s.nvme.cpls ∧ (s.fetched c).ftl = s.ftl ∧
    (∀ nsid lsa, (s.fetched c).locate nsid lsa = s.locate nsid lsa) ∧ (∀ n, (s.fetched c).readMay n = s.readMay n) ∧ (s.fetched c).degraded = s.degraded := by
  obtain ⟨o, q, h⟩ := fetched_frame s c
  rw [h]
  exact ⟨rfl, rfl, rfl, fun _ _ => rfl, fun _ => rfl, rfl⟩

end

/-- A command completes in a state whose NVM subsystem is that of its fetch. -/
theorem complete_cpls_of_fetched {s u : State} {c : Sqe} (h : u.nvme = (s.fetched c).nvme) (st : Status) (dw0 dw1 : Nat) (data : List Byte) :
    (u.complete c st dw0 dw1 data).nvme.cpls = s.nvme.cpls ++ [Safety.cpl c st dw0 dw1 data] := by
  have hout : u.outstanding c.mi c.ctrl.val c.sq c.cid = true := by
    rw [State.outstanding, h]
    exact fetched_outstanding s c
  rw [complete_cpls st dw0 dw1 data hout, h, (fetched_parts s c).2.1]
  rfl

theorem readCharge_nvme (s : State) (n : Nat) : (s.readCharge n).nvme = s.nvme := by
  unfold State.readCharge
  split <;> rfl

theorem tally_nvme (s : State) (off n : Nat) : (s.tally off n).nvme = s.nvme := by
  obtain ⟨l, h⟩ := tally_frame s off n
  rw [h]

/-! ### What turns a command away -/

/-- A command that names a namespace is turned away before its own checks: by the state of the device, or for a namespace that is not exposed. -/
def State.turnsAway (s : State) (c : Sqe) (st : Status) : Prop :=
  s.ioGate c = some st ∨ (s.ioGate c = none ∧ s.nsOf c = none ∧ st = stInvalidNs)

section
variable {s : State} {c : Sqe} {st : Status}

theorem ioGate_notReady (h : s.phase < 0xB) : s.ioGate c = some stNotReady := if_pos h

theorem ioGate_sanitizing (h : 0xB ≤ s.phase) (hsan : s.nvme.sanitize.action ≠ 0) : s.ioGate c = some stSanitizing := by
  rw [State.ioGate, if_neg (by omega), if_pos hsan]

theorem ioGate_sanitizeFailed (h : 0xB ≤ s.phase) (hsan : s.nvme.sanitize.action = 0) (hfailed : s.nvme.sanitize.failed = true) :
    s.ioGate c = some stSanitizeFailed := by
  rw [State.ioGate, if_neg (by omega), if_neg (by simp [hsan]), if_pos hfailed]

theorem vendorGate_status (h : s.vendorGate = some st) : st = stSequence := by
  unfold State.vendorGate at h
  split at h
  · exact (Option.some.inj h).symm
  · cases h

theorem writeRefused_of_turnsAway (h : s.turnsAway c st) : s.writeRefused c = some st := by
  rcases h with h | ⟨h, hns, rfl⟩
  · rw [State.writeRefused, h]
  · rw [State.writeRefused, h, hns]

theorem readRefused_of_turnsAway (h : s.turnsAway c st) : s.readRefused c = some st := by
  rcases h with h | ⟨h, hns, rfl⟩
  · rw [State.readRefused, h]
  · rw [State.readRefused, h, hns]

theorem rangesRefused_of_turnsAway (h : s.turnsAway c st) (l : List (Nat × Nat)) : s.rangesRefused c l = some st := by
  rcases h with h | ⟨h, hns, rfl⟩
  · rw [State.rangesRefused, h]
  · rw [State.rangesRefused, h, hns]

/-! ### A command refused completes -/

theorem writeCmd_refused (h : s.writeRefused c = some st) : s.writeCmd c = (s.fetched c).fail c st := by
  unfold State.writeCmd
  rw [h]

theorem readVerify_refused (h : s.readRefused c = some st) (v : Verdict) (verify : Bool) : s.readVerify c v verify = (s.fetched c).fail c st := by
  unfold State.readVerify State.readCmd
  rw [h]
  split <;> rfl

theorem dealloc_refused {l : List (Nat × Nat)} (h : s.rangesRefused c l = some st) (kind : Nat) : s.dealloc kind c l = (s.fetched c).fail c st := by
  unfold State.dealloc
  rw [h]

theorem answered_of_fail {i : Instr} (h : exec i s = .next ((s.fetched c).fail c st)) : Safety.answered s i (Safety.cpl c st 0 0 []) :=
  ⟨_, h, completed_fetched s c st 0 0 []⟩

theorem settled_of_fail {i : Instr} (h : exec i s = .next (State.settleDma ((s.fetched c).fail c st))) : Safety.settled s i (Safety.cpl c st 0 0 []) :=
  ⟨_, h, completed_fetched s c st 0 0 []⟩

section
variable (hacts : s.acts c = true)
include hacts

theorem exec_write : exec (.write c) s = .next (s.writeCmd c) := congrArg Host.Outcome.next (if_pos hacts)

theorem exec_flush : exec (.flush c) s = .next (s.flushCmd c) := congrArg Host.Outcome.next (if_pos hacts)

theorem exec_read (f : List (Nat × Fin 3)) (u l : List Nat) : exec (.read c f u l) s = .next (s.readVerify c ⟨f, u, l⟩ false).settleDma :=
  congrArg Host.Outcome.next (if_pos hacts)

theorem exec_verify (f : List (Nat × Fin 3)) (u : List Nat) : exec (.verify c f u) s = .next (s.readVerify c ⟨f, u, []⟩ true).settleDma :=
  congrArg Host.Outcome.next (if_pos hacts)

theorem exec_writeZeroes : exec (.writeZeroes c) s = .next (s.dealloc 0 c [(c.slba, c.nlb)]).settleDma := congrArg Host.Outcome.next (if_pos hacts)

theorem exec_datasetManagement : exec (.datasetManagement c) s = .next (s.datasetMgmt c).settleDma := congrArg Host.Outcome.next (if_pos hacts)

theorem exec_shred : exec (.shred c) s = .next (s.shred c).settleDma := congrArg Host.Outcome.next (if_pos hacts)

theorem write_refused (h : s.writeRefused c = some st) : Safety.answered s (.write c) (Safety.cpl c st 0 0 []) :=
  answered_of_fail ((exec_write hacts).trans (congrArg Host.Outcome.next (writeCmd_refused h)))

theorem writeZeroes_refused (h : s.rangesRefused c [(c.slba, c.nlb)] = some st) : Safety.settled s (.writeZeroes c) (Safety.cpl c st 0 0 []) := by
  refine settled_of_fail ((exec_writeZeroes hacts).trans ?_)
  rw [dealloc_refused h]

theorem datasetManagement_refused (h : ∀ l, s.rangesRefused c l = some st) : Safety.settled s (.datasetManagement c) (Safety.cpl c st 0 0 []) := by
  refine settled_of_fail ((exec_datasetManagement hacts).trans ?_)
  rw [State.datasetMgmt, dealloc_refused (h _)]

/-- The commands that settle the path, turned away. -/
theorem slow_turnedAway (h : s.turnsAway c st) (f : List (Nat × Fin 3)) (u l : List Nat) :
    ∀ i ∈ [.read c f u l, .verify c f u, .writeZeroes c, .datasetManagement c], Safety.settled s i (Safety.cpl c st 0 0 []) := by
  have hread := readRefused_of_turnsAway h
  simp only [List.forall_mem_cons, List.not_mem_nil, false_implies, implies_true, and_true]
  refine ⟨settled_of_fail ((exec_read hacts f u l).trans ?_), settled_of_fail ((exec_verify hacts f u).trans ?_),
    writeZeroes_refused hacts (rangesRefused_of_turnsAway h _), datasetManagement_refused hacts (rangesRefused_of_turnsAway h)⟩
  · rw [readVerify_refused hread]
  · rw [readVerify_refused hread]

theorem flush_turnedAway (h : s.turnsAway c st) (hns : s.ioGate c = none → c.nsid ≠ 0xFFFFFFFF) : Safety.answered s (.flush c) (Safety.cpl c st 0 0 []) := by
  refine answered_of_fail ((exec_flush hacts).trans (congrArg Host.Outcome.next ?_))
  unfold State.flushCmd
  rcases h with h | ⟨h, hnone, rfl⟩
  · rw [h]
  · rw [h, hnone]
    exact if_pos ⟨hns h, rfl⟩

end

end

/-! ### Commands that join the path -/

section
variable {s : State} {c : Sqe} {n : Ns}

/-- The checks of a Write of a namespace, in order. -/
theorem writeRefused_eq (hgate : s.ioGate c = none) (hns : s.nsOf c = some n) : s.writeRefused c =
    if n.take then some stWriteProtected
    else if 16777216 < c.nlb * n.spb * 4096 then some stInvalidField
    else if !n.holds c.slba c.nlb then some stLbaRange
    else if (s.keySlot n.keySlot).state = 0 ∨ (s.keySlot n.keySlot).state = 6 then some (stVendor 0x95 true)
    else if s.needsSpace c.nsid (n.sectors c.slba c.nlb) then some (stVendor 0xA4 true)
    else none := by
  rw [State.writeRefused, hgate, hns]

theorem rangesRefused_eq (hgate : s.ioGate c = none) (hns : s.nsOf c = some n) (l : List (Nat × Nat)) : s.rangesRefused c l =
    if n.take then some stWriteProtected else if l.any (fun r => !n.holds r.1 r.2) then some stLbaRange else none := by
  rw [State.rangesRefused, hgate, hns]

theorem rangesRefused_none (hgate : s.ioGate c = none) (hns : s.nsOf c = some n) (htake : n.take = false) {l : List (Nat × Nat)}
    (h : (l.all fun r => n.holds r.1 r.2) = true) : s.rangesRefused c l = none := by
  rw [rangesRefused_eq hgate hns, if_neg (by simp [htake]), if_neg]
  simpa using h

/-- The deallocation a command of a kind asks for. -/
def State.trimOf (s : State) (kind : Nat) (c : Sqe) (n : Ns) (l : List (Nat × Nat)) : TrimCmd :=
  ⟨s.path.nextId, kind, c, c.nsid, n.sectorRanges l, none, s.degraded && kind == 0⟩

/-- The state in which a fetched command's deallocation has joined those of the path. -/
def State.trimJoined (s : State) (c : Sqe) (t : TrimCmd) : State :=
  (s.fetched c).modPath fun p => { p with trims := p.trims ++ [t], nextId := p.nextId + 1 }

theorem trimJoined_parts (s : State) (c : Sqe) (t : TrimCmd) :
    (s.trimJoined c t).path.trims = s.path.trims ++ [t] ∧ (s.trimJoined c t).nvme.cpls = s.nvme.cpls := by
  obtain ⟨hpath, hcpls, -⟩ := fetched_parts s c
  refine ⟨?_, hcpls⟩
  rw [State.trimJoined, State.modPath_path, hpath]

/-- A deallocation that nothing refuses joins those of the path and goes on where it may. -/
theorem dealloc_accepted {kind : Nat} {l : List (Nat × Nat)} (h : s.rangesRefused c l = none) (hns : s.nsOf c = some n) :
    s.dealloc kind c l = State.settle (State.trimGo (s.trimJoined c (s.trimOf kind c n l)) (s.trimOf kind c n l)) := by
  obtain ⟨hpath, -, -, -, -, hdegraded⟩ := fetched_parts s c
  have htrim : (s.fetched c).trimOf kind c n l = s.trimOf kind c n l := by rw [State.trimOf, hpath, hdegraded, State.trimOf]
  unfold State.dealloc
  rw [h, hns, ← htrim]
  rfl

theorem shred_gated {st : Status} (h : s.vendorGate = some st) : s.shred c = (s.fetched c).fail c stSequence := by
  unfold State.shred
  dsimp only
  rw [h, vendorGate_status h]

/-- A Shred that no gate refuses: CDW11 bit 2 and the size, then its ranges. -/
theorem shred_eq (hvendor : s.vendorGate = none) (hgate : s.ioGate c = none) (hns : s.nsOf c = some n) (htake : n.take = false) : s.shred c =
    if !c.cdw11.getLsbD 2 ∨ 4294967296 < ((rangeList c.data (bitsOf c.cdw10 0 8 + 1)).map fun r => r.2).sum * n.spb * 4096
    then (s.fetched c).fail c stInvalidField else s.dealloc 2 c (rangeList c.data (bitsOf c.cdw10 0 8 + 1)) := by
  unfold State.shred
  dsimp only
  rw [hvendor, rangesRefused_none hgate hns htake (l := []) rfl, hns]

/-- The state in which a fetched write has joined those of the path. -/
def State.writeJoined (s : State) (c : Sqe) (w : WCmd) : State :=
  (s.fetched c).modPath fun p => { p with writes := p.writes ++ [w], nextId := p.nextId + 1 }

/-- A Write that nothing refuses joins the writes of the path. -/
theorem writeCmd_accepted (h : s.writeRefused c = none) (hns : s.nsOf c = some n) : ∃ (u : State) (w : WCmd), s.writeCmd c = State.writeGo u w ∧
    u.path.writes = s.path.writes ++ [w] ∧ w.id = s.path.nextId ∧ w.kind = .write ∧ w.src = c.ctrl.val ∧ w.sqe = c ∧
    w.lsas = n.sectors c.slba c.nlb ∧ w.fua = c.fua ∧ w.granted = 0 ∧ u.path.nextId = s.path.nextId + 1 ∧ u.nvme.cpls = s.nvme.cpls := by
  obtain ⟨hpath, hcpls, -⟩ := fetched_parts s c
  refine ⟨s.writeJoined c ((s.fetched c).newWrite .write c.ctrl.val c c.nsid (n.sectors c.slba c.nlb) c.fua), _, ?_,
    congrArg (fun p : Path => p.writes ++ _) hpath, congrArg Path.nextId hpath, rfl, rfl, rfl, rfl, rfl, rfl, congrArg (fun p : Path => p.nextId + 1) hpath, hcpls⟩
  unfold State.writeCmd
  rw [h, hns]
  rfl

/-- A Flush that nothing refuses joins the waits. -/
theorem flushCmd_accepted (hgate : s.ioGate c = none) (hns : s.nsOf c = some n) : ∃ u, s.flushCmd c = State.settle u ∧
    u.path.waits = s.path.waits ++ [⟨0, c, s.undurable, s.now⟩] ∧ u.nvme.cpls = s.nvme.cpls := by
  obtain ⟨hpath, hcpls, -⟩ := fetched_parts s c
  refine ⟨(s.fetched c).modPath fun p => { p with waits := p.waits ++ [⟨0, c, s.undurable, s.now⟩] }, ?_,
    congrArg (fun p : Path => p.waits ++ _) hpath, hcpls⟩
  unfold State.flushCmd
  dsimp only
  rw [hgate, hns]
  exact if_neg (by simp)

/-! ### Reads -/

theorem readRefused_none (hgate : s.ioGate c = none) (hns : s.nsOf c = some n) (hsize : c.nlb * n.spb * 4096 ≤ 16777216)
    (hholds : n.holds c.slba c.nlb = true) : s.readRefused c = none := by
  rw [State.readRefused, hgate, hns]
  dsimp only
  rw [if_neg (by omega), if_neg (by simp [hholds])]

theorem readLsas_sectors (l : List Nat) : readLsas (l.map .sector) = l := by
  induction l with
  | nil => rfl
  | cons x l ih => exact congrArg (x :: ·) ih

/-- A Read or Verify of a namespace that is no take namespace: it is carried out, or kept open while an entry of its sectors is rebuilt. -/
theorem readVerify_eq (hns : s.nsOf c = some n) (htake : n.take = false) (h : s.readRefused c = none) (v : Verdict) (verify : Bool) :
    s.readVerify c v verify = if s.entryHeld n.nsid (n.sectors c.slba c.nlb) = true then
      (s.fetched c).modPath fun p => { p with
        reads := p.reads ++ [⟨p.nextId, c, verify, [], [], [], s.now, some (v, (n.sectors c.slba c.nlb).map .sector)⟩], nextId := p.nextId + 1 }
    else (s.fetched c).startRead c n v verify ((n.sectors c.slba c.nlb).map .sector) := by
  have hsrc : s.readSrc n = .sector := by
    funext l
    rw [State.readSrc, if_neg (by simp [htake])]
  unfold State.readVerify
  rw [hns]
  dsimp only
  unfold State.readCmd
  rw [h, hns, hsrc]
  dsimp only
  rw [readLsas_sectors]

/-- A read kept open. -/
theorem readVerify_held (hns : s.nsOf c = some n) (htake : n.take = false) (h : s.readRefused c = none)
    (hheld : s.entryHeld n.nsid (n.sectors c.slba c.nlb) = true) (v : Verdict) (verify : Bool) :
    (s.readVerify c v verify).nvme.cpls = s.nvme.cpls ∧ (s.readVerify c v verify).path.reads.length = s.path.reads.length + 1 := by
  obtain ⟨hpath, hcpls, -⟩ := fetched_parts s c
  rw [readVerify_eq hns htake h, if_pos hheld]
  refine ⟨hcpls, ?_⟩
  rw [State.modPath_path, hpath]
  exact List.length_append

/-- A read of sectors none of which is on a die that may be late is given at once. -/
theorem startRead_of_noCopy {srcs : List ReadSrc} {secs : List RdSector} {v : Verdict} (hsecs : s.readSectors v n 0 srcs = (s, secs))
    (hcode : ∀ x ∈ secs, x.code ≠ 0) (verify : Bool) : s.startRead c n v verify srcs = s.giveRead c n verify secs := by
  unfold State.startRead
  rw [hsecs]
  dsimp only
  rw [if_pos]
  rw [List.isEmpty_iff, List.filter_eq_nil_iff]
  intro i _
  split
  · rename_i x hx
    simp [hcode x (List.mem_of_getElem? hx)]
  · decide

/-- A sector that holds nothing, read. -/
def holeSector : RdSector := ⟨List.replicate 4096 0, [], 3, noSsa⟩

theorem readSectors_holes (v : Verdict) (l : List Nat)
    (h : ∀ a ∈ l, s.locate n.nsid a = none ∧ s.ftl.unreadable.contains (n.nsid, a) = false ∧ s.ftl.disagree.contains (n.nsid, a) = false) (i : Nat) :
    s.readSectors v n i (l.map .sector) = (s, List.replicate l.length holeSector) := by
  induction l generalizing i with
  | nil => rfl
  | cons a l ih =>
    obtain ⟨⟨hlocate, hread, hagree⟩, hrest⟩ := List.forall_mem_cons.mp h
    have hsector : s.readSector v n i (.sector a) = (s, holeSector) := by
      rw [State.readSector, if_neg (by rw [hread]; decide), if_neg (by rw [hagree]; decide), hlocate]
      rfl
    rw [List.map_cons, State.readSectors, hsector]
    dsimp only
    rw [ih hrest]
    rfl

theorem readBlock_holes (hpi : n.piBytes = 0) (i k : Nat) : n.readBlock c i (List.replicate k holeSector) = (none, List.replicate (4096 * k) 0, []) := by
  have hdata : (List.replicate k holeSector).flatMap (fun x => x.payload) = List.replicate (4096 * k) 0 := by
    rw [List.flatMap_replicate, holeSector, List.flatten_replicate_replicate, Nat.mul_comm]
  have hgood : (List.replicate k holeSector).findSome? (fun x => readStatus x.code) = none := by
    rw [List.findSome?_eq_none_iff]
    intro x hx
    rw [List.eq_of_mem_replicate hx]
    rfl
  unfold Ns.readBlock
  dsimp only
  rw [hgood, hdata, if_pos hpi, Ns.checkPi, if_pos (.inl hpi)]

theorem readBlocks_holes (hpi : n.piBytes = 0) (m k i : Nat) (h : (i + k) * n.spb ≤ m) :
    n.readBlocks c (List.replicate m holeSector) k i = (none, List.replicate (4096 * (k * n.spb)) 0, []) := by
  induction k generalizing i with
  | zero => rw [Nat.zero_mul]; rfl
  | succ k ih =>
    have hblock : ((List.replicate m holeSector).drop (i * n.spb)).take n.spb = List.replicate n.spb holeSector := by
      rw [List.drop_replicate, List.take_replicate, Nat.min_eq_left]
      have : (i + 1) * n.spb ≤ (i + (k + 1)) * n.spb := Nat.mul_le_mul_right _ (by omega)
      rw [Nat.succ_mul] at this
      omega
    rw [Ns.readBlocks, hblock, readBlock_holes hpi, ih (i + 1) (by rw [Nat.add_assoc, Nat.add_comm 1 k]; exact h)]
    dsimp only
    rw [List.replicate_append_replicate, List.append_nil, show 4096 * n.spb + 4096 * (k * n.spb) = 4096 * ((k + 1) * n.spb) by ring]

/-- The state a good read completes in: its bytes counted. -/
def State.readCounted (s : State) (verify : Bool) (d : List Byte) : State :=
  if verify then s else (s.modPath fun x => { x with unitsRead := x.unitsRead + d.length, hostReads := x.hostReads + 1 }).tally 0x40 d.length

theorem readCounted_nvme (s : State) (verify : Bool) (d : List Byte) : (s.readCounted verify d).nvme = s.nvme := by
  unfold State.readCounted
  split
  · rfl
  · exact tally_nvme _ _ _

theorem finishRead_good {verify : Bool} {secs : List RdSector} {d : List Byte} (h : n.readBlocks c secs c.nlb 0 = (none, d, [])) :
    s.finishRead c n verify secs = (s.readCounted verify d).complete c stOk 0 0 (if verify then [] else d) := by
  have hdata : n.transfer c.nlb d (if (c.pract && n.piType != 0) = true then [] else []) = d := by
    rw [ite_self, Ns.transfer, if_neg (by simp), List.append_nil]
  unfold State.finishRead
  rw [h]
  dsimp only
  rw [hdata]
  rfl

/-- What a read returns completes it in a state whose NVM subsystem is that of its fetch. -/
theorem giveRead_cpls {u : State} (hu : u.nvme = (s.fetched c).nvme) {verify : Bool} {secs : List RdSector}
    (hmay : u.readMay (4096 * secs.length) = true) {d : List Byte} (hgood : n.readBlocks c secs c.nlb 0 = (none, d, [])) :
    (u.giveRead c n verify secs).nvme.cpls = s.nvme.cpls ++ [Safety.cpl c stOk 0 0 (if verify then [] else d)] := by
  unfold State.giveRead
  dsimp only
  rw [if_pos hmay, finishRead_good hgood, finishRead_good hgood]
  split
  · exact complete_cpls_of_fetched ((readCounted_nvme _ _ _).trans hu) _ _ _ _
  · exact complete_cpls_of_fetched ((readCounted_nvme _ _ _).trans ((readCharge_nvme _ _).trans hu)) _ _ _ _

theorem sectors_length (n : Ns) (slba count : Nat) : (n.sectors slba count).length = count * n.spb := by
  rw [Ns.sectors, List.length_map, List.length_range]

/-- A read of sectors that hold nothing gives zeros. -/
theorem readVerify_holes (hns : s.nsOf c = some n) (htake : n.take = false) (hread : s.readRefused c = none) (hpi : n.piBytes = 0)
    (hheld : s.entryHeld n.nsid (n.sectors c.slba c.nlb) = false) (hmay : s.readMay (4096 * (c.nlb * n.spb)) = true)
    (h : ∀ a ∈ n.sectors c.slba c.nlb, s.locate n.nsid a = none ∧ s.ftl.unreadable.contains (n.nsid, a) = false ∧ s.ftl.disagree.contains (n.nsid, a) = false)
    (v : Verdict) (verify : Bool) : (s.readVerify c v verify).nvme.cpls =
      s.nvme.cpls ++ [Safety.cpl c stOk 0 0 (if verify then [] else List.replicate (4096 * (c.nlb * n.spb)) 0)] := by
  obtain ⟨-, -, hftl, hlocate, hfmay, -⟩ := fetched_parts s c
  have hsecs := readSectors_holes (s := s.fetched c) (n := n) v (n.sectors c.slba c.nlb) (by simpa only [hftl, hlocate] using h) 0
  rw [sectors_length] at hsecs
  have hcode : ∀ x ∈ List.replicate (c.nlb * n.spb) holeSector, x.code ≠ 0 := fun x hx => by
    rw [List.eq_of_mem_replicate hx]
    decide
  rw [readVerify_eq hns htake hread, if_neg (by simp [hheld]), startRead_of_noCopy hsecs hcode]
  exact giveRead_cpls rfl (by rw [List.length_replicate, hfmay]; exact hmay) (readBlocks_holes hpi _ _ 0 (by rw [Nat.zero_add]))

/-- A sector listed as unreadable, read. -/
def lostSector : RdSector := ⟨[], [], 1, noSsa⟩

/-- A read of one sector listed as unreadable fails with A0h. -/
theorem readVerify_lost (hns : s.nsOf c = some n) (htake : n.take = false) (hread : s.readRefused c = none) (hspb : n.spb = 1) (hnlb : c.nlb = 1)
    (hheld : s.entryHeld n.nsid [c.slba] = false) (hmay : s.readMay 4096 = true) (h : s.ftl.unreadable.contains (n.nsid, c.slba) = true) (v : Verdict) :
    (s.readVerify c v false).nvme.cpls = s.nvme.cpls ++ [Safety.cpl c (stVendor 0xA0 true) 0 0 []] := by
  obtain ⟨-, -, hftl, -, hfmay, -⟩ := fetched_parts s c
  have hone : n.sectors c.slba c.nlb = [c.slba] := by simp [Ns.sectors, hspb, hnlb]
  have hsecs : (s.fetched c).readSectors v n 0 [.sector c.slba] = (s.fetched c, [lostSector]) := by
    simp only [State.readSectors, State.readSector, hftl]
    rw [if_pos h]
    rfl
  have hblocks : n.readBlocks c [lostSector] 1 0 = (some (stVendor 0xA0 true), [], []) := by
    simp only [Ns.readBlocks, hspb]
    rfl
  rw [readVerify_eq hns htake hread, hone, if_neg (by simp [hheld])]
  rw [List.map_cons, List.map_nil, startRead_of_noCopy hsecs (by simp [lostSector])]
  unfold State.giveRead State.finishRead
  rw [hnlb, hblocks]
  dsimp only
  rw [if_neg (by decide), if_pos (by rw [hfmay]; exact hmay)]
  exact complete_cpls_of_fetched (by split <;> exact readCharge_nvme _ _) _ _ _ _

end

end Sys2Proof.Machine

open Sys2Proof
open Sys2Proof.Machine

/-- Settles O38: what turns a command away comes first, then its own checks; else it joins the path or completes with its data. -/
theorem ioCommandsCheckAndRun : Obligations.IoCommandsCheckAndRun := by
  intro c s hacts quick slow both
  have hboth {st : Status} (h : s.turnsAway c st) (hnsid : s.ioGate c = none → c.nsid ≠ 0xFFFFFFFF) : both st := by
    refine ⟨?_, fun f u l => slow_turnedAway hacts h f u l⟩
    simp only [quick, List.forall_mem_cons, List.not_mem_nil, false_implies, implies_true, and_true]
    exact ⟨write_refused hacts (writeRefused_of_turnsAway h), flush_turnedAway hacts h hnsid⟩
  have hgated {st : Status} (h : s.ioGate c = some st) : both st := hboth (.inl h) fun hnone => by rw [h] at hnone; cases hnone
  refine ⟨fun h => hgated (ioGate_notReady h), fun h hsan => hgated (ioGate_sanitizing h hsan),
    fun h hsan hfailed => hgated (ioGate_sanitizeFailed h hsan hfailed), fun hgate hnsid hnone => hboth (.inr ⟨hgate, hnone, rfl⟩) fun _ => hnsid,
    fun st hvendor => settled_of_fail ((exec_shred hacts).trans (by rw [shred_gated hvendor])), fun hgate n hns => ?_⟩
  have hwrite := writeRefused_eq hgate hns
  refine ⟨fun htake => ?_, fun htake hlong => ?_, fun htake hsize hpast => ?_, fun haccepted => ?_, ?_, fun htake hsize hholds hheld f g l => ?_,
    fun htake hpi hsize hholds hheld hmay hholes f g l => ?_, fun htake hspb hnlb hholds hheld hmay hlost f g l => ?_, fun htake hholds hnlb => ?_,
    fun htake hattr hholds => ?_, fun hvendor htake hattr => ?_, fun hvendor htake hattr hsize hholds => ?_⟩
  · have hprotected (l : List (Nat × Nat)) : s.rangesRefused c l = some stWriteProtected := (rangesRefused_eq hgate hns l).trans (if_pos htake)
    exact ⟨write_refused hacts (hwrite.trans (if_pos htake)), writeZeroes_refused hacts (hprotected _), datasetManagement_refused hacts hprotected⟩
  · rw [if_neg (by simp [htake]), if_pos hlong] at hwrite
    exact write_refused hacts hwrite
  · rw [if_neg (by simp [htake]), if_neg (by omega), if_pos (by simp [hpast])] at hwrite
    exact write_refused hacts hwrite
  · obtain ⟨u, w, hcmd, hw⟩ := writeCmd_accepted haccepted hns
    exact ⟨u, w, (exec_write hacts).trans (congrArg Host.Outcome.next hcmd), hw⟩
  · obtain ⟨u, hcmd, hu⟩ := flushCmd_accepted hgate hns
    exact ⟨u, (exec_flush hacts).trans (congrArg Host.Outcome.next hcmd), hu⟩
  · have hopen := readVerify_held hns htake (readRefused_none hgate hns hsize hholds) hheld
    exact ⟨⟨_, exec_read hacts f g l, hopen _ _⟩, _, exec_verify hacts f g, hopen _ _⟩
  · have hzeros := readVerify_holes hns htake (readRefused_none hgate hns hsize hholds) hpi hheld hmay hholes
    exact ⟨⟨_, exec_read hacts f g l, hzeros _ _⟩, _, exec_verify hacts f g, hzeros _ _⟩
  · exact ⟨_, exec_read hacts f g l, readVerify_lost hns htake (readRefused_none hgate hns (by rw [hnlb, hspb]; decide) (hnlb ▸ hholds)) hspb hnlb hheld hmay hlost _⟩
  · have hranges : n.sectorRanges [(c.slba, c.nlb)] = [(c.slba * n.spb, c.nlb * n.spb)] := by simp [Ns.sectorRanges, hnlb]
    have hjoin := dealloc_accepted (kind := 0) (rangesRefused_none hgate hns htake (l := [(c.slba, c.nlb)]) (by simp [hholds])) hns
    obtain ⟨htrims, hcpls⟩ := trimJoined_parts s c (s.trimOf 0 c n [(c.slba, c.nlb)])
    exact ⟨_, _, (exec_writeZeroes hacts).trans (by rw [hjoin]), htrims, rfl, rfl, rfl, hranges, Bool.and_true _, hcpls⟩
  · have hjoin := dealloc_accepted (kind := 1) (rangesRefused_none hgate hns htake hholds) hns
    refine ⟨_, s.trimOf 1 c n (rangeList c.data (bitsOf c.cdw10 0 8 + 1)), (exec_datasetManagement hacts).trans ?_, (trimJoined_parts s c _).1, rfl, rfl⟩
    rw [State.datasetMgmt, if_pos hattr, hjoin]
  · exact settled_of_fail ((exec_shred hacts).trans (by rw [shred_eq hvendor hgate hns htake, if_pos (.inl (by rw [hattr]; rfl))]))
  · have hjoin := dealloc_accepted (kind := 2) (rangesRefused_none hgate hns htake hholds) hns
    refine ⟨_, s.trimOf 2 c n (rangeList c.data (bitsOf c.cdw10 0 8 + 1)), (exec_shred hacts).trans ?_, (trimJoined_parts s c _).1, rfl, rfl⟩
    rw [shred_eq hvendor hgate hns htake, if_neg (not_or.mpr ⟨by rw [hattr]; decide, Nat.not_lt.mpr hsize⟩), hjoin]

end

section
/-!
PROOFS. Scope: the log pages and the bodies they are given from (06 R221 to R223; 04 R140; 07 R293; 12 R458; 19 R686; 21 R725; 22 R749).
-/
namespace Sys2Proof.Machine

/-! ### Taking a command up leaves what the pages show -/

section
variable {s u : State} (h : TookUp s u)
include h

theorem reg_of_tookUp (off : Nat) : u.reg off = s.reg off := by
  obtain ⟨o, q, rfl⟩ := h
  rfl

theorem viewOne_of_tookUp (off : Nat) : u.viewOne off = s.viewOne off := by
  obtain ⟨o, q, rfl⟩ := h
  unfold State.viewOne
  rfl

theorem hotWord_of_tookUp : u.hotWord = s.hotWord := by
  have hbridge : u.hotBridge = s.hotBridge := by obtain ⟨o, q, rfl⟩ := h; rfl
  unfold State.hotWord
  rw [hbridge]

theorem viewTwo_of_tookUp (off : Nat) : u.viewTwo off = s.viewTwo off := by
  have hwords : u.dramMapWord = s.dramMapWord ∧ u.throttleWord = s.throttleWord ∧ u.tripWord = s.tripWord ∧ u.lifeWord = s.lifeWord ∧
      u.otpData = s.otpData ∧ u.planWord = s.planWord ∧ u.healthWord = s.healthWord := by
    obtain ⟨o, q, rfl⟩ := h
    exact ⟨rfl, rfl, rfl, rfl, rfl, rfl, rfl⟩
  have hparts : u.life = s.life ∧ u.board = s.board ∧ u.ftl = s.ftl ∧ ∀ b, u.actMask b = s.actMask b := by
    obtain ⟨o, q, rfl⟩ := h
    exact ⟨rfl, rfl, rfl, fun _ => rfl⟩
  simp only [State.viewTwo, hotWord_of_tookUp h, hwords, hparts, reg_of_tookUp h]

theorem viewTake_of_tookUp (off : Nat) : u.viewTake off = s.viewTake off := by
  have hwords : (∀ t, u.streamWord t = s.streamWord t) ∧ (∀ d, u.dmaStat d = s.dmaStat d) ∧ u.win = s.win := by
    obtain ⟨o, q, rfl⟩ := h
    exact ⟨fun _ => rfl, fun _ => rfl, rfl⟩
  simp only [State.viewTake, hwords]

theorem viewSleeve_of_tookUp (off : Nat) : u.viewSleeve off = s.viewSleeve off := by
  have hwords : (∀ i, u.slvStatus i = s.slvStatus i) ∧ (∀ i, u.xoverWord i = s.xoverWord i) ∧ (∀ i k, u.ctxWord i k = s.ctxWord i k) ∧
      ∀ i d, u.dieWord i d = s.dieWord i d := by
    obtain ⟨o, q, rfl⟩ := h
    exact ⟨fun _ => rfl, fun _ => rfl, fun _ _ => rfl, fun _ _ => rfl⟩
  simp only [State.viewSleeve, hwords]

theorem viewLink_of_tookUp (off : Nat) : u.viewLink off = s.viewLink off := by
  have hwords : (∀ n, u.jlWord n = s.jlWord n) ∧ (∀ k, u.slotWord k = s.slotWord k) ∧ ∀ k, u.keySlot k = s.keySlot k := by
    obtain ⟨o, q, rfl⟩ := h
    exact ⟨fun _ => rfl, fun _ => rfl, fun _ => rfl⟩
  simp only [State.viewLink, hwords]

theorem viewStr_of_tookUp (off : Nat) : u.viewStr off = s.viewStr off := by
  have hwords : (∀ k, u.fitted k = s.fitted k) ∧ (∀ k, u.str k = s.str k) ∧ (∀ k, u.rNow k = s.rNow k) ∧ (∀ i w, u.measWord i w = s.measWord i w) ∧
      ∀ k a, u.traceWord k a = s.traceWord k a := by
    obtain ⟨o, q, rfl⟩ := h
    exact ⟨fun _ => rfl, fun _ => rfl, fun _ => rfl, fun _ _ => rfl, fun _ _ => rfl⟩
  simp only [State.viewStr, hwords]

theorem viewMany_of_tookUp (off : Nat) : u.viewMany off = s.viewMany off := by
  simp only [State.viewMany, viewSleeve_of_tookUp h, viewTake_of_tookUp h, viewLink_of_tookUp h, viewStr_of_tookUp h]

/-- No register shows the commands outstanding. -/
theorem valueAt_of_tookUp (off : Nat) : u.valueAt off = s.valueAt off := by
  simp only [State.valueAt, viewOne_of_tookUp h, viewTwo_of_tookUp h, viewMany_of_tookUp h, reg_of_tookUp h]

theorem statusBody_of_tookUp : u.statusBody = s.statusBody := by
  have hregs (offs : List Nat) : u.regBytes offs = s.regBytes offs := by simp only [State.regBytes, valueAt_of_tookUp h]
  obtain ⟨o, q, rfl⟩ := h
  simp only [State.statusBody, hregs]
  rfl

theorem lifetimeBodies_of_tookUp : u.countersBody = s.countersBody ∧ u.histBody = s.histBody ∧ u.eventsBody = s.eventsBody ∧ u.tripsBody = s.tripsBody := by
  obtain ⟨o, q, rfl⟩ := h
  exact ⟨rfl, rfl, rfl, rfl⟩

theorem directory_of_tookUp : u.dirHeader = s.dirHeader ∧ u.takes = s.takes ∧ u.slotEntry = s.slotEntry := by
  obtain ⟨o, q, rfl⟩ := h
  exact ⟨rfl, rfl, rfl⟩

theorem fwSlotBody_of_tookUp : u.fwSlotBody = s.fwSlotBody := by
  obtain ⟨o, q, rfl⟩ := h
  rfl

theorem summaryBody_of_tookUp (nsid : Nat) : u.summaryBody nsid = s.summaryBody nsid := by
  obtain ⟨o, q, rfl⟩ := h
  rfl

/-- The counter of open values has no part in the SMART / Health page but its three operands. -/
theorem smartBody_of_tookUp (n busy unsafeN temp : Nat) : State.smartBody { u with fresh := n } busy unsafeN temp = s.smartBody busy unsafeN temp := by
  obtain ⟨o, q, rfl⟩ := h
  rfl

end

theorem taken_image (s : State) (c : Sqe) : (s.taken c).image = s.image := by
  obtain ⟨o, q, h⟩ := taken_frame s c
  rw [h]

/-! ### A page given, or refused -/

section
variable {s u t : State} {c : Sqe}

/-- A command completes in a state whose NVM subsystem is that in which it was taken up. -/
theorem complete_cpls_of_taken (hu : u.nvme = (s.taken c).nvme) (st : Status) (dw0 dw1 : Nat) (data : List Byte) :
    (u.complete c st dw0 dw1 data).nvme.cpls = s.nvme.cpls ++ [Safety.cpl c st dw0 dw1 data] := by
  have hout : u.outstanding c.mi c.ctrl.val c.sq c.cid = true := by
    rw [State.outstanding, hu]
    exact taken_outstanding s c
  rw [complete_cpls st dw0 dw1 data hout, hu, (taken_update s c).2.2.2]
  rfl

theorem complete_withheld (s : State) (c : Sqe) (st : Status) (dw0 dw1 : Nat) (data : List Byte) (k : Nat) :
    ((s.complete c st dw0 dw1 data).ctrl k).withheld = (s.ctrl k).withheld := by
  rw [(complete_rest s c st dw0 dw1 data).1.2 k]

/-- A state in which a page's body has been given, as far as the page goes: `Safety.page` of the state a command leaves. -/
def PageGiven (s t : State) (c : Sqe) (id : Nat) (b : List Byte) : Prop :=
  if c.logOffset % 4 = 0 ∧ c.logOffset ≤ b.length then
    t.nvme.cpls = s.nvme.cpls ++ [Safety.cpl c stOk 0 0 (slice b c.logOffset c.logBytes)] ∧
      (t.ctrl c.ctrl.val).withheld = (if c.rae then (s.ctrl c.ctrl.val).withheld else (s.ctrl c.ctrl.val).withheld.filter fun p => p != id)
  else t.nvme.cpls = s.nvme.cpls ++ [Safety.cpl c stInvalidField 0 0 []]

theorem page_of_given {i : Instr} {id : Nat} {b : List Byte} (hexec : exec i s = .next t) (hgiven : PageGiven s t c id b) : Safety.page s i c id b := by
  unfold PageGiven at hgiven
  unfold Safety.page
  split at hgiven
  · rw [if_pos ‹_›]
    exact ⟨t, hexec, hgiven⟩
  · rw [if_neg ‹_›]
    exact ⟨t, hexec, hgiven⟩

theorem ctrl_of_taken_nvme (hu : u.nvme = (s.taken c).nvme) (k : Nat) : u.ctrl k = s.ctrl k := by
  rw [State.ctrl, hu]
  exact taken_ctrl s c k

/-- The one place where a page's offset and length are looked at. -/
theorem pageGiven_givePage (hu : u.nvme = (s.taken c).nvme) (id : Nat) (b : List Byte) : PageGiven s (u.givePage c id b) c id b := by
  unfold PageGiven
  split
  next hin =>
    rw [State.givePage, if_neg (by omega)]
    have hctrl := ctrl_of_taken_nvme hu c.ctrl.val
    split
    · exact ⟨complete_cpls_of_taken hu _ _ _ _, by rw [complete_withheld, hctrl]⟩
    · refine ⟨?_, by rw [complete_withheld, State.modCtrl, ctrl_setCtrl, if_pos rfl, hctrl]⟩
      rw [complete_cpls stOk 0 0 _ (by rw [State.outstanding, State.modCtrl, State.setCtrl, hu]; exact taken_outstanding s c)]
      rw [State.modCtrl, cpls_setCtrl, hu, (taken_update s c).2.2.2]
      rfl
  next hout =>
    rw [State.givePage, if_pos (by omega)]
    exact complete_cpls_of_taken hu _ _ _ _

theorem givePageAll_whole (h : c.wholeDevice = true) (u : State) (id : Nat) (f : State → List Byte) : u.givePageAll c id f = u.givePage c id (f u) := if_pos h

theorem givePageAll_named (h : c.wholeDevice = false) (u : State) (id : Nat) (f : State → List Byte) : u.givePageAll c id f = u.fail c stInvalidField :=
  if_neg (by simp [h])

end

section
variable {s u : State} {c : Sqe} {i : Instr} {f : State → State} (hruns : Safety.runs s c .always)
include hruns

/-- Get Log Page runs on the state that has taken it up. -/
theorem exec_getLog (hexec : exec i s = .next (s.getLog c f)) : exec i s = .next (f (s.taken c)) :=
  hexec.trans (congrArg Host.Outcome.next (admin_run f hruns.1 hruns.2))

theorem page_of_givePage {id : Nat} {b : List Byte} (hexec : exec i s = .next (s.getLog c f)) (hgive : f (s.taken c) = u.givePage c id b)
    (hu : u.nvme = (s.taken c).nvme) : Safety.page s i c id b :=
  page_of_given ((exec_getLog hruns hexec).trans (congrArg _ hgive)) (pageGiven_givePage hu id b)

theorem page_of_givePageAll {id : Nat} {g : State → List Byte} {b : List Byte} (hwhole : c.wholeDevice = true) (hexec : exec i s = .next (s.getLog c f))
    (hgive : f (s.taken c) = u.givePageAll c id g) (hbody : g u = b) (hu : u.nvme = (s.taken c).nvme) : Safety.page s i c id b :=
  page_of_givePage hruns hexec (hgive.trans ((givePageAll_whole hwhole u id g).trans (congrArg _ hbody))) hu

theorem cpls_of_getLog_fail {st : Status} (hexec : exec i s = .next (s.getLog c f)) (hfail : f (s.taken c) = u.fail c st)
    (hu : u.nvme = (s.taken c).nvme) : ∃ t, exec i s = .next t ∧ t.nvme.cpls = s.nvme.cpls ++ [Safety.cpl c st 0 0 []] :=
  ⟨_, (exec_getLog hruns hexec).trans (congrArg _ hfail), complete_cpls_of_taken hu _ _ _ _⟩

theorem answered_of_getLog {st : Status} (hexec : exec i s = .next (s.getLog c f)) (hfail : f (s.taken c) = (s.taken c).fail c st) :
    Safety.answered s i (Safety.cpl c st 0 0 []) :=
  ⟨_, (exec_getLog hruns hexec).trans (congrArg _ hfail), completed_taken s c _ _ _ _⟩

end

/-! ### What each command gives -/

section
variable {s : State} {c : Sqe}

theorem logSupported_listed (h : logPages.contains (dwBits c.cdw10 0 8) = true) :
    s.logSupported c = s.givePageAll c 0 fun _ => (List.range 256).flatMap fun p => leBytes 4 (bit (logPages.contains p)) := if_neg (by simp only [h]; decide)

theorem logSupported_unlisted (h : logPages.contains (dwBits c.cdw10 0 8) = false) : s.logSupported c = s.fail c stInvalidLogPage :=
  if_pos (by simp only [h]; decide)

/-- The state past the three open values of the SMART / Health page. -/
theorem logSmart_eq : ∃ busy unsafeN temp, s.logSmart c = State.givePageAll { s with fresh := s.fresh + 3 } c 0x02 fun t => t.smartBody busy unsafeN temp :=
  ⟨_, _, _, rfl⟩

theorem logLifetime_eq : (c.lsf = 0 → s.logLifetime c = s.givePageAll c 0xC0 State.countersBody) ∧
    (c.lsf = 1 → s.logLifetime c = s.givePageAll c 0xC0 State.histBody) ∧ (c.lsf = 2 → s.logLifetime c = s.givePageAll c 0xC0 State.eventsBody) ∧
    (c.lsf = 3 → s.logLifetime c = s.givePageAll c 0xC0 State.tripsBody) ∧ (3 < c.lsf → s.logLifetime c = s.fail c stInvalidField) := by
  unfold State.logLifetime
  refine ⟨fun h => by rw [h]; rfl, fun h => by rw [h]; rfl, fun h => by rw [h]; rfl, fun h => by rw [h]; rfl, fun h => ?_⟩
  split
  · omega
  · omega
  · omega
  · omega
  · rfl

/-- What a report is given as: zeros where it has not been produced. -/
def reportBytes (r : Option ClampReport) : List Byte := match r with | some x => x.bytes | none => List.replicate 32832 0

theorem logClamp_eq : (c.lsf = 0 → s.logClamp c = s.givePageAll c 0xC1 fun _ => reportBytes s.image.newest) ∧
    (c.lsf = 1 → s.logClamp c = s.givePageAll c 0xC1 fun _ => reportBytes s.image.lastLoad) ∧
    (c.lsf = 2 → s.logClamp c = s.givePageAll c 0xC1 fun _ => reportBytes s.image.lastCommit) ∧ (3 < c.lsf → s.logClamp c = s.fail c stInvalidField) := by
  unfold State.logClamp
  refine ⟨fun h => by rw [h]; rfl, fun h => by rw [h]; rfl, fun h => by rw [h]; rfl, fun h => ?_⟩
  split
  · omega
  · omega
  · omega
  · rfl

theorem logTakes_eq : (c.lsf = 0 → s.logTakes c =
      s.givePageAll c 0xC4 fun t => t.dirHeader ++ (sortByKey (fun (x : Take) => x.num) t.takes.dir).flatMap Take.entry) ∧
    (c.lsf = 1 → s.logTakes c = s.givePageAll c 0xC4 fun t => t.dirHeader ++ (List.range 16).flatMap t.slotEntry) ∧
    (3 < c.lsf → s.logTakes c = s.fail c stInvalidField) := by
  unfold State.logTakes
  refine ⟨fun h => by rw [h]; rfl, fun h => by rw [h]; rfl, fun h => ?_⟩
  split
  · omega
  · omega
  · rfl

/-- A page under a GENERATION is given in a state whose NVM subsystem is as before. -/
theorem giveHealth_eq (body : List Byte) : ∃ (g : Nat) (v : State), v.nvme = s.nvme ∧ s.giveHealth c body = v.givePage c 0xC2 (leBytes 4 g ++ body.drop 4) :=
  ⟨_, (s.pageGen 0xC2 c.lsf s.ftl.health.generation (body.drop 4)).2, rfl, rfl⟩

theorem logHealth_eq : (c.lsf = 0 → c.wholeDevice = true → s.logHealth c = s.giveHealth c (s.summaryBody 0xFFFFFFFF)) ∧
    (c.lsf = 0 → c.wholeDevice = false → c.nsid ≤ 256 → s.logHealth c = s.giveHealth c (s.summaryBody c.nsid)) ∧
    (3 < c.lsf → s.logHealth c = s.fail c stInvalidField) := by
  unfold State.logHealth
  refine ⟨fun h hwhole => by rw [h]; exact if_pos hwhole, fun h hnamed hnsid => by rw [h]; exact (if_neg (by simp [hnamed])).trans (if_pos hnsid), fun h => ?_⟩
  dsimp only
  split
  · omega
  · omega
  · omega
  · rfl

theorem logStatus_whole (h : c.wholeDevice = true) : ∃ (g : Nat) (v : State), v.nvme = s.nvme ∧ s.logStatus c = v.givePage c 0xC3 (leBytes 4 g ++ s.statusBody) :=
  ⟨_, (s.pageGen 0xC3 0 0 s.statusBody).2, rfl, if_neg (by simp [h])⟩

theorem logStatus_named (h : c.wholeDevice = false) : s.logStatus c = s.fail c stInvalidField := if_pos (by simp [h])

/-! ### The namespaces changed -/

theorem length_insertByKey {α : Type} (key : α → Nat) (x : α) (l : List α) : (insertByKey key x l).length = l.length + 1 := by
  induction l with
  | nil => rfl
  | cons y l ih =>
    unfold insertByKey
    split
    · rfl
    · rw [List.length_cons, ih, List.length_cons]

theorem length_foldl_insertByKey {α : Type} (key : α → Nat) (l acc : List α) :
    (l.foldl (fun acc x => insertByKey key x acc) acc).length = acc.length + l.length := by
  induction l generalizing acc with
  | nil => rfl
  | cons x l ih => rw [List.foldl_cons, ih, length_insertByKey, List.length_cons, Nat.add_assoc, Nat.add_comm 1]

theorem length_sortByKey {α : Type} (key : α → Nat) (l : List α) : (sortByKey key l).length = l.length := by
  rw [sortByKey, length_foldl_insertByKey, List.length_nil, Nat.zero_add]

/-- The Changed Namespace List. -/
def changedBody (l : List Nat) : List Byte :=
  padTo 4096 (if 1024 < (sortByKey id l).length then leBytes 4 0xFFFFFFFF else (sortByKey id l).flatMap (leBytes 4))

theorem changedBody_short {l : List Nat} (h : l.length ≤ 1024) : changedBody l = padTo 4096 ((sortByKey id l).flatMap (leBytes 4)) := by
  rw [changedBody, if_neg (by rw [length_sortByKey]; omega)]

/-- The controller forgets the namespaces changed. -/
def State.forgetChanged (s : State) (k : Nat) : State := s.modCtrl k fun x => { x with changedNs := [] }

theorem forgetChanged_changedNs (s : State) (k : Nat) : ((s.forgetChanged k).ctrl k).changedNs = [] := by
  rw [State.forgetChanged, State.modCtrl, ctrl_setCtrl, if_pos rfl]

theorem pageGiven_forgetChanged {t : State} {id : Nat} {b : List Byte} (h : PageGiven s t c id b) : PageGiven s (t.forgetChanged c.ctrl.val) c id b := by
  have hcpls : (t.forgetChanged c.ctrl.val).nvme.cpls = t.nvme.cpls := rfl
  have hwithheld : ((t.forgetChanged c.ctrl.val).ctrl c.ctrl.val).withheld = (t.ctrl c.ctrl.val).withheld := by
    rw [State.forgetChanged, State.modCtrl, ctrl_setCtrl, if_pos rfl]
  unfold PageGiven at h ⊢
  rw [hcpls, hwithheld]
  exact h

theorem logChanged_whole (h : c.wholeDevice = true) : s.logChanged c =
    if c.rae then s.givePage c 0x04 (changedBody (s.ctrl c.ctrl.val).changedNs)
    else (s.givePage c 0x04 (changedBody (s.ctrl c.ctrl.val).changedNs)).forgetChanged c.ctrl.val := by
  unfold State.logChanged
  dsimp only
  rw [givePageAll_whole h, h]
  cases c.rae <;> rfl

/-! ### The Sanitize Status -/

/-- The fields of a layout follow what stands before them. -/
theorem foldl_layout_head (l : List (Nat × List Byte)) (b : List Byte) : ∃ r, l.foldl (fun b f => padTo f.1 b ++ f.2) b = b ++ r := by
  induction l generalizing b with
  | nil => exact ⟨[], (List.append_nil b).symm⟩
  | cons f l ih =>
    obtain ⟨r, hr⟩ := ih (padTo f.1 b ++ f.2)
    exact ⟨_, by rw [List.foldl_cons, hr, padTo, List.append_assoc, List.append_assoc]⟩

theorem layout_head (n : Nat) (f : List Byte) (l : List (Nat × List Byte)) : ∃ r, layout n ((0, f) :: l) = f ++ r := by
  obtain ⟨r, hr⟩ := foldl_layout_head l f
  refine ⟨r ++ List.replicate (n - (f ++ r).length) 0, ?_⟩
  show padTo n (l.foldl (fun b f => padTo f.1 b ++ f.2) f) = _
  rw [hr, padTo, List.append_assoc]

/-- The first two bytes of data that hold them. -/
theorem leAt_slice_head {n : Nat} (h : 2 ≤ n) (r : List Byte) : leAt (slice (leBytes 2 65535 ++ r) 0 n) 0 2 = 65535 := by
  obtain ⟨m, rfl⟩ := Nat.exists_eq_add_of_le' h
  rw [show leBytes 2 65535 = [255, 255] by decide]
  simp [slice, leAt, byteAt]

theorem sanStep_idle (h : s.nvme.sanitize.action = 0) : s.sanStep = s := by
  unfold State.sanStep
  dsimp only
  rw [if_neg (by omega), if_neg (by omega)]

/-- No sanitize in progress: the page starts with 65,535. -/
theorem logSanitize_idle (hidle : s.nvme.sanitize.action = 0) (hwhole : c.wholeDevice = true) :
    ∃ (v : State) (r : List Byte), v.nvme = s.nvme ∧ s.logSanitize c = v.givePage c 0x81 (leBytes 2 65535 ++ r) := by
  unfold State.logSanitize
  rw [sanStep_idle hidle]
  dsimp only
  rw [givePageAll_whole hwhole, if_pos (show s.free.2.nvme.sanitize.action = 0 from hidle)]
  obtain ⟨r, hr⟩ := layout_head 512 (leBytes 2 65535) _
  rw [hr]
  exact ⟨s.free.2, r, rfl, rfl⟩

end

/-! ### The pages that have more to them than their body -/

section
variable {s : State} {c : Sqe} (hruns : Safety.runs s c .always)
include hruns

theorem smartHealth_page (hwhole : c.wholeDevice = true) :
    ∃ busy unsafeN temp, Safety.page s (.getLogSmartHealth c) c 2 (s.smartBody busy unsafeN temp) := by
  obtain ⟨busy, unsafeN, temp, hsmart⟩ := logSmart_eq (s := s.taken c) (c := c)
  exact ⟨busy, unsafeN, temp, page_of_givePageAll hruns hwhole rfl hsmart (smartBody_of_tookUp (taken_frame s c) _ _ _ _) rfl⟩

theorem changedNamespaces_page (hwhole : c.wholeDevice = true) :
    Safety.page s (.getLogChangedNamespaces c) c 4 (changedBody (s.ctrl c.ctrl.val).changedNs) := by
  refine page_of_given (exec_getLog hruns rfl) ?_
  rw [logChanged_whole hwhole, taken_ctrl]
  have hgiven := pageGiven_givePage (u := s.taken c) rfl 4 (changedBody (s.ctrl c.ctrl.val).changedNs)
  split
  · exact hgiven
  · exact pageGiven_forgetChanged hgiven

theorem changedNamespaces_forgotten (hwhole : c.wholeDevice = true) (hrae : c.rae = false) :
    ∃ t, exec (.getLogChangedNamespaces c) s = .next t ∧ (t.ctrl c.ctrl.val).changedNs = [] := by
  refine ⟨_, exec_getLog hruns rfl, ?_⟩
  rw [logChanged_whole hwhole, if_neg (by simp [hrae])]
  exact forgetChanged_changedNs _ _

theorem sanitizeStatus_idle (hwhole : c.wholeDevice = true) (hidle : s.nvme.sanitize.action = 0) (hoff : c.logOffset = 0) (hlen : 2 ≤ c.logBytes) :
    ∃ u b, exec (.getLogSanitizeStatus c) s = .next (State.settleDma u) ∧ u.nvme.cpls = s.nvme.cpls ++ [Safety.cpl c stOk 0 0 b] ∧ leAt b 0 2 = 65535 := by
  obtain ⟨v, r, hv, hlog⟩ := logSanitize_idle (s := s.taken c) (c := c) (by rw [(taken_patch s c).2.2.1]; exact hidle) hwhole
  have hgiven := pageGiven_givePage hv 0x81 (leBytes 2 65535 ++ r)
  rw [PageGiven, if_pos (by simp [hoff]), hoff] at hgiven
  exact ⟨_, _, (exec_getLog hruns rfl).trans (congrArg (fun t => Host.Outcome.next t.settleDma) hlog), hgiven.1, leAt_slice_head hlen r⟩

theorem stripeHealth_page {nsid : Nat} (hlog : (s.taken c).logHealth c = (s.taken c).giveHealth c ((s.taken c).summaryBody nsid)) :
    ∃ g, Safety.page s (.getLogStripeHealth c) c 0xC2 (leBytes 4 g ++ (s.summaryBody nsid).drop 4) := by
  obtain ⟨g, v, hv, hgive⟩ := giveHealth_eq (s := s.taken c) (c := c) ((s.taken c).summaryBody nsid)
  rw [summaryBody_of_tookUp (taken_frame s c)] at hlog hgive
  exact ⟨g, page_of_givePage hruns rfl (hlog.trans hgive) hv⟩

theorem mantleThermal_page (hwhole : c.wholeDevice = true) : ∃ g, Safety.page s (.getLogMantleThermal c) c 0xC3 (leBytes 4 g ++ s.statusBody) := by
  obtain ⟨g, v, hv, hlog⟩ := logStatus_whole (s := s.taken c) hwhole
  rw [statusBody_of_tookUp (taken_frame s c)] at hlog
  exact ⟨g, page_of_givePage hruns rfl hlog hv⟩

end

end Sys2Proof.Machine

open Sys2Proof
open Sys2Proof.Machine

/-- Settles O33: each command is `State.getLog` with its own page, whose body taking the command up does not change. -/
theorem logPagesGiveTheirBodies : Obligations.LogPagesGiveTheirBodies := by
  intro c s hruns whole body
  have htook : TookUp s (s.taken c) := taken_frame s c
  obtain ⟨hlife0, hlife1, hlife2, hlife3, hlife4⟩ := logLifetime_eq (s := s.taken c) (c := c)
  obtain ⟨hclamp0, hclamp1, hclamp2, hclamp4⟩ := logClamp_eq (s := s.taken c) (c := c)
  obtain ⟨htakes0, htakes1, htakes4⟩ := logTakes_eq (s := s.taken c) (c := c)
  obtain ⟨hhealth0, hhealthNs, hhealth4⟩ := logHealth_eq (s := s.taken c) (c := c)
  refine ⟨fun hnamed => ?_, fun hunlisted => answered_of_getLog hruns rfl (logSupported_unlisted hunlisted), fun hwhole => ?_, fun hlsf hnamed hnsid => ?_,
    fun hlsf => ?_⟩
  · simp only [whole, List.forall_mem_cons, List.not_mem_nil, false_implies, implies_true, and_true]
    obtain ⟨busy, unsafeN, temp, hsmart⟩ := logSmart_eq (s := s.taken c) (c := c)
    have hrefused := givePageAll_named hnamed
    exact ⟨cpls_of_getLog_fail hruns rfl (hrefused _ _ _) rfl, cpls_of_getLog_fail hruns rfl (hsmart.trans (hrefused _ _ _)) rfl,
      cpls_of_getLog_fail hruns rfl (hrefused _ _ _) rfl, cpls_of_getLog_fail hruns rfl (hrefused _ _ _) rfl,
      cpls_of_getLog_fail hruns rfl (logStatus_named hnamed) rfl⟩
  · have hall {i : Instr} {f : State → State} {id : Nat} {g : State → List Byte} {b : List Byte} (hexec : exec i s = .next (s.getLog c f))
        (hgive : f (s.taken c) = (s.taken c).givePageAll c id g) (hbody : g (s.taken c) = b) : Safety.page s i c id b :=
      page_of_givePageAll hruns hwhole hexec hgive hbody rfl
    obtain ⟨hcounters, hhist, hevents, htrips⟩ := lifetimeBodies_of_tookUp htook
    obtain ⟨hheader, htakes, hslots⟩ := directory_of_tookUp htook
    have himage := taken_image s c
    refine ⟨fun hlisted => hall rfl (logSupported_listed hlisted) rfl, hall rfl rfl (by rw [taken_ctrl]), smartHealth_page hruns hwhole,
      hall rfl rfl (fwSlotBody_of_tookUp htook), ⟨_, changedNamespaces_page hruns hwhole, changedBody_short⟩, changedNamespaces_forgotten hruns hwhole,
      hall rfl rfl rfl, sanitizeStatus_idle hruns hwhole,
      fun h => hall rfl (hlife0 h) hcounters, fun h => hall rfl (hlife1 h) hhist, fun h => hall rfl (hlife2 h) hevents, fun h => hall rfl (hlife3 h) htrips,
      fun h => hall rfl (hclamp0 h) (by rw [himage]; rfl), fun h => hall rfl (hclamp1 h) (by rw [himage]; rfl),
      fun h => hall rfl (hclamp2 h) (by rw [himage]; rfl), fun h => stripeHealth_page hruns (hhealth0 h hwhole), mantleThermal_page hruns hwhole,
      fun h => hall rfl (htakes0 h) (by rw [hheader, htakes]), fun h => hall rfl (htakes1 h) (by rw [hheader, hslots])⟩
  · exact stripeHealth_page hruns (hhealthNs hlsf hnamed hnsid)
  · simp only [List.forall_mem_cons, List.not_mem_nil, false_implies, implies_true, and_true]
    exact ⟨answered_of_getLog hruns rfl (hlife4 hlsf), answered_of_getLog hruns rfl (hclamp4 hlsf), answered_of_getLog hruns rfl (hhealth4 hlsf),
      answered_of_getLog hruns rfl (htakes4 hlsf)⟩

end

section
/-!
PROOFS. Scope: the event registers and the access violation registers (05 R150, R164 to R172; 00 R18), and a split counter read by halves (00 R12).
-/
namespace Sys2Proof.Machine

/-! ### The delivery of a source -/

theorem onlyNvme_aen (s : State) (c : Nat) (a : Aen) : Safety.onlyNvme s (s.aen c a) := by
  unfold State.aen
  dsimp only
  split
  · exact onlyNvme_refl s
  · split
    · exact onlyNvme_trans (onlyNvme_setCtrl s c _) (onlyNvme_post _ _)
    · exact onlyNvme_setCtrl s c _

theorem onlyNvme_foldl {α : Type} {g : State → α → State} (h : ∀ t x, Safety.onlyNvme t (g t x)) (l : List α) (s : State) :
    Safety.onlyNvme s (l.foldl g s) :=
  List.foldlRecOn l g (onlyNvme_refl s) fun t ht x _ => onlyNvme_trans ht (h t x)

theorem onlyNvme_deliver (s : State) (src : Nat) : Safety.onlyNvme s (s.deliver src) := by
  refine onlyNvme_trans (onlyNvme_foldl (fun t c => ?_) _ _) (onlyNvme_foldl (fun t c => ?_) _ _)
  · split
    · exact onlyNvme_msix t _ _
    · exact onlyNvme_refl t
  · split
    · exact onlyNvme_aen t _ _
    · exact onlyNvme_refl t

/-- Such a change adds nothing to what the Belfry and the FTL cluster were given. -/
theorem given_of_onlyNvme {s t : State} (h : Safety.onlyNvme s t) : t.evt.belfry = s.evt.belfry ∧ t.evt.ftl = s.evt.ftl :=
  ⟨congrArg (fun x => x.evt.belfry) h, congrArg (fun x => x.evt.ftl) h⟩

theorem regs_of_onlyNvme {s t : State} (h : Safety.onlyNvme s t) : t.regs = s.regs := congrArg (fun x => x.regs) h

theorem deliver_regs (s : State) (src : Nat) : (s.deliver src).regs = s.regs := regs_of_onlyNvme (onlyNvme_deliver s src)

theorem reg_of_regs {s t : State} (h : t.regs = s.regs) (o : Nat) : t.reg o = s.reg o := by
  rw [State.reg, h, State.reg]

/-! ### A source occurs, or is forced (R168, R169) -/

theorem raise_of_set {s : State} {src : Nat} (h : s.evtStatus src = true) : s.raise src = s := if_pos h

theorem raise_delivers {s : State} {src : Nat} (h : s.evtStatus src = false) :
    (s.raise src).evt.belfry = s.evt.belfry ++ [src] ∧ (s.raise src).evt.ftl = s.evt.ftl ++ [src] := by
  rw [State.raise, if_neg (by simp [h])]
  dsimp only
  split
  · exact ⟨rfl, rfl⟩
  · generalize hgiven : ({ s.setStatus src with evt := _ } : State) = u
    obtain ⟨hbelfry, hftl⟩ := given_of_onlyNvme (onlyNvme_deliver u src)
    rw [hbelfry, hftl, ← hgiven]
    exact ⟨rfl, rfl⟩

/-- Nothing but registers, the NVM subsystem and the interrupt writes queued has changed. -/
def OnlyHosts (s t : State) : Prop := t = { s with regs := t.regs, evt := { s.evt with msix := t.evt.msix }, nvme := t.nvme }

theorem OnlyHosts.trans {s t u : State} (h : OnlyHosts s t) (g : OnlyHosts t u) : OnlyHosts s u := by
  unfold OnlyHosts at h g ⊢
  rw [g, h]

theorem OnlyHosts.of_onlyNvme {s t : State} (h : Safety.onlyNvme s t) : OnlyHosts s t := by
  unfold OnlyHosts
  rw [h]

theorem OnlyHosts.frame {s t : State} (h : OnlyHosts s t) : t = { s with regs := t.regs, evt := t.evt, nvme := t.nvme } := by
  rw [h]

theorem onlyHosts_setReg (s : State) (off : Nat) (w : Word) : OnlyHosts s (s.setReg off w) := rfl

theorem onlyHosts_force1 (s : State) (src : Nat) : OnlyHosts s (s.force1 src) := by
  unfold State.force1
  split
  · rfl
  · dsimp only
    split
    · exact onlyHosts_setReg s _ _
    · exact (onlyHosts_setReg s _ _).trans (.of_onlyNvme (onlyNvme_deliver _ src))

/-- A status that is forced is set in the register as that of a source that occurs. -/
theorem force1_regs (s : State) (src : Nat) : (s.force1 src).regs = (s.raise src).regs := by
  unfold State.force1 State.raise
  split
  · rfl
  · dsimp only
    split
    · rfl
    · rw [deliver_regs, deliver_regs]

theorem evtStatus_force1 (s : State) (src x : Nat) : (s.force1 src).evtStatus x = (s.evtStatus x || src == x) := by
  rw [← evtStatus_raise, State.evtStatus, reg_of_regs (force1_regs s src), State.evtStatus]

/-- Statuses that are forced one after the other are set, and no other. -/
theorem evtStatus_foldl_force1 (p : Nat → Bool) (src : Nat → Nat) (l : List Nat) (s : State) (x : Nat) :
    (l.foldl (fun t j => if p j then t.force1 (src j) else t) s).evtStatus x = (s.evtStatus x || l.any fun j => p j && src j == x) := by
  induction l generalizing s with
  | nil => simp
  | cons k l ih =>
    rw [List.foldl_cons, ih, List.any_cons]
    cases p k
    · simp
    · simp [evtStatus_force1, Bool.or_assoc]

theorem evtStatus_forceWrite (s : State) (w : Nat) (data : Word) {j : Nat} (hj : j < 32) :
    (s.forceWrite w data).evtStatus (32 * w + j) = (s.evtStatus (32 * w + j) || data.getLsbD j) := by
  have hforced : ((List.range 32).any fun k => data.getLsbD k && 32 * w + k == 32 * w + j) = data.getLsbD j := by
    rw [Bool.eq_iff_iff, List.any_eq_true]
    simp [hj]
  rw [State.forceWrite, evtStatus_foldl_force1, hforced]

theorem onlyHosts_forceWrite (s : State) (w : Nat) (data : Word) : OnlyHosts s (s.forceWrite w data) := by
  refine List.foldlRecOn _ _ (motive := OnlyHosts s) rfl fun t ht j _ => ?_
  split
  · exact ht.trans (onlyHosts_force1 t _)
  · exact ht

theorem forceWrite_reg {s : State} {w o : Nat} (data : Word) (h : o ≠ Reg.EVT_STATUS w) : (s.forceWrite w data).reg o = s.reg o := by
  refine List.foldlRecOn _ _ (motive := fun t => State.reg t o = s.reg o) rfl fun t ht j hj => ?_
  split
  · rw [reg_of_regs (force1_regs t _), raise_reg (by rwa [statusOff_eq w (List.mem_range.mp hj)]), ht]
  · exact ht

/-! ### Masks and routes (R165, R166, R168) -/

theorem onlyNvme_maskWrite (s : State) (w : Nat) (data : Word) : Safety.onlyNvme (s.setReg (Reg.EVT_MASK w) data) (s.maskWrite w data) := by
  refine onlyNvme_foldl (fun t j => ?_) _ _
  split
  · exact onlyNvme_deliver t _
  · exact onlyNvme_refl t

/-- A mask under which no pending source is unmasked is stored and does nothing. -/
theorem maskWrite_quiet {s : State} {w : Nat} {data : Word}
    (h : s.reg (Reg.EVT_MASK w) &&& ~~~data &&& s.reg (Reg.EVT_STATUS w) = 0) : s.maskWrite w data = s.setReg (Reg.EVT_MASK w) data := by
  refine List.foldlRecOn _ _ (motive := fun t => t = s.setReg (Reg.EVT_MASK w) data) rfl fun t ht j hj => ?_
  have hbit := congrArg (fun v : Word => v.getLsbD j) h
  simp only [BitVec.getLsbD_and, BitVec.getLsbD_not, List.mem_range.mp hj, decide_true, Bool.true_and] at hbit
  rw [if_neg (by rw [hbit]; simp), ht]

/-- What a half of a route register holds after a write of a value to it. -/
def routeHalf (cfg : List Rec) (c old v : Nat) : Nat := if routeHalfKept cfg c (v &&& 0x87FF) then old else v &&& 0x87FF

theorem bitsOf_lt (w : Word) (l n : Nat) : bitsOf w l n < 2 ^ n := Nat.mod_lt _ (by positivity)

theorem routeHalf_lt {cfg : List Rec} {c old v : Nat} (h : old < 2 ^ 16) : routeHalf cfg c old v < 2 ^ 16 := by
  unfold routeHalf
  split
  · exact h
  · exact lt_of_le_of_lt Nat.and_le_right (by decide)

/-- Two halves put together read apart. -/
theorem bitsOf_halves {lo hi : Nat} (hlo : lo < 2 ^ 16) (hhi : hi < 2 ^ 16) (h : Fin 2) :
    bitsOf (BitVec.ofNat 32 (lo + 65536 * hi)) (16 * h.val) 16 = if h.val = 0 then lo else hi := by
  have hword : (BitVec.ofNat 32 (lo + 65536 * hi)).toNat = lo + 65536 * hi := by
    rw [BitVec.toNat_ofNat]
    omega
  rw [bitsOf, hword]
  match h with
  | 0 => simp; omega
  | 1 => simp; omega

/-- A route register is none of those a violation writes. -/
theorem violation_route {s : State} {kind agent off src r : Nat} (hsrc : src < 2112) (hr : r < 3) :
    (s.violation kind agent off).reg (0x02000000 + 0x10 * src + 4 * r) = s.reg (0x02000000 + 0x10 * src + 4 * r) :=
  violation_reg (by unfold Reg.GBL_ACCESS_VIOL; omega) (by unfold Reg.GBL_ACCESS_VIOL_CTL; omega) (by unfold statusOff; omega)

theorem routeWrite_halves (s : State) (agent src r : Nat) (data : Word) (hsrc : src < 2112) (hr : r < 2) :
    (s.routeWrite agent src r data).reg (0x02000000 + 0x10 * src + 4 * r) =
      BitVec.ofNat 32 (routeHalf s.image.cfg (2 * r) (bitsOf (s.reg (0x02000000 + 0x10 * src + 4 * r)) 0 16) (bitsOf data 0 16) +
        65536 * routeHalf s.image.cfg (2 * r + 1) (bitsOf (s.reg (0x02000000 + 0x10 * src + 4 * r)) 16 16) (bitsOf data 16 16)) := by
  have hviol (t : State) (p : Bool) : (if p then t.violation 5 agent (0x02000000 + 0x10 * src + 4 * r) else t).reg
      (0x02000000 + 0x10 * src + 4 * r) = t.reg (0x02000000 + 0x10 * src + 4 * r) := by
    split
    · exact violation_route hsrc (by omega)
    · rfl
  rw [State.routeWrite]
  dsimp only
  rw [if_neg (by omega), hviol, hviol, reg_setReg_same]
  rfl

theorem routeWrite_aen (s : State) (agent src : Nat) (data : Word) :
    s.routeWrite agent src 2 data = s.setReg (0x02000008 + 0x10 * src) (BitVec.ofNat 32 (bitsOf data 0 4 + 0x30)) := by
  rw [State.routeWrite]
  dsimp only
  rw [if_pos rfl, show 0x02000000 + 0x10 * src + 4 * 2 = 0x02000008 + 0x10 * src by omega]

/-! ### The violation registers cleared (R150) -/

/-- The violation registers cleared. -/
def State.violCleared (s : State) : State := (s.setReg Reg.GBL_ACCESS_VIOL_CTL 0).setReg Reg.GBL_ACCESS_VIOL 0

theorem violClear_valid {s : State} {data : Word} (h : data.getLsbD 31 = true) : s.violClear data none = s.violCleared := if_pos h

theorem violClear_together {s : State} {data : Word} (h : data.getLsbD 31 = true) (k : Nat) (b : Fin 8) (o : Nat) :
    s.violClear data (some (k, b, o)) = s.violCleared.violation k b.val o := by
  simp only [State.violClear, h, if_true, State.violCleared]

theorem violCleared_ctl (s : State) : s.violCleared.reg Reg.GBL_ACCESS_VIOL_CTL = 0 := by
  rw [State.violCleared, reg_setReg_other (by decide), reg_setReg_same]

/-- Every violation is counted. -/
theorem violation_count (s : State) (kind agent off : Nat) :
    (s.violation kind agent off).rd Reg.GBL_ACCESS_VIOL_CTL_COUNT = satAdd 65535 (s.rd Reg.GBL_ACCESS_VIOL_CTL_COUNT) 1 := by
  have hcount : (s.bump Reg.GBL_ACCESS_VIOL_CTL_COUNT).rd Reg.GBL_ACCESS_VIOL_CTL_COUNT =
      satAdd 65535 (s.rd Reg.GBL_ACCESS_VIOL_CTL_COUNT) 1 := by
    rw [State.bump, rd_wr (by decide)]
    exact Nat.mod_eq_of_lt (Nat.lt_succ_of_le (Nat.min_le_left _ _))
  rw [violation_eq, raise_rd (by decide)]
  split
  · exact hcount
  · rw [State.violationKept, rd_wr_apart (by decide), rd_wr_off (by decide), rd_wr_off (by decide), rd_wr_off (by decide), hcount]

/-! ### A split counter read by halves (R12) -/

theorem busRead_latching {s : State} {agent off : Nat} (hoff : off % 4 = 0) (hacc : s.accesses agent = true) (hans : s.answers off = true)
    (hlatch : latching off = true) : s.busRead agent off 32 =
      { s.keepRead agent (s.readWord agent off).toNat with
        latches := mapSet (fun _ => 0) s.latches (latchKey agent (off + 4)) (s.highNow off) } := by
  rw [State.busRead, if_neg (by simp [hacc]), if_pos ⟨rfl, hoff⟩, State.latchRead, if_pos]
  · rfl
  · rw [hlatch, Bool.and_true]
    exact hans

end Sys2Proof.Machine

open Sys2Proof
open Sys2Proof.Machine

/-- Settles O15: the clear is two register writes, a violation with it finds VALID 0, and the read latches the half it does not return. -/
theorem violationClearAndSplitRead : Obligations.ViolationClearAndSplitRead := by
  refine ⟨fun a w s hans => ?_, fun a off s hoff hacc hans hlatch => ?_⟩
  · have hexec (v : Option (Nat × Fin 8 × Nat)) : exec (.gblAccessViolClear a w v) s = .next (s.violClear w v) := congrArg Host.Outcome.next (if_pos hans)
    refine ⟨fun hw => ?_, fun k b o hw => ?_, fun hw => ?_⟩
    · exact ⟨s.violCleared, by rw [hexec, violClear_valid hw], reg_setReg_same _ _ _, violCleared_ctl s, rfl⟩
    · have hvalid : s.violCleared.rd Reg.GBL_ACCESS_VIOL_CTL_VALID = 0 := congrArg (bitsOf · 31 1) (violCleared_ctl s)
      have hzero : s.violCleared.rd Reg.GBL_ACCESS_VIOL_CTL_COUNT = 0 := congrArg (bitsOf · 0 16) (violCleared_ctl s)
      obtain ⟨hkind, hagent, hoffset⟩ := violation_recorded hvalid k b.val o
      refine ⟨_, by rw [hexec, violClear_together hw], hkind, hagent.trans (Nat.mod_eq_of_lt b.isLt), hoffset, ?_⟩
      rw [violation_count, hzero]
      rfl
    · rw [hexec, State.violClear, hw]
      rfl
  · refine ⟨_, congrArg Host.Outcome.next (busRead_latching hoff hacc hans hlatch), ?_, ?_, rfl⟩
    · exact (mapGet_mapSet _ _ _ _).trans (if_pos rfl)
    · exact (mapGet_mapSet _ _ _ _).trans (if_pos rfl)

/-- Settles O17: what a source is delivered to the hosts with does not reach the two lists, and forcing uses nothing else. -/
theorem eventDeliveryToBelfryAndFtl : Obligations.EventDeliveryToBelfryAndFtl := by
  refine ⟨fun src s => ⟨raise_delivers, raise_of_set⟩, fun a w data s hans => ?_⟩
  have hframe := onlyHosts_forceWrite s w.val data
  exact ⟨_, congrArg Host.Outcome.next (if_pos hans), congrArg (fun x => x.evt.belfry) hframe, congrArg (fun x => x.evt.ftl) hframe,
    fun j hj => evtStatus_forceWrite s w.val data hj, fun o ho => forceWrite_reg data ho, hframe.frame⟩

/-- Settles O18: a mask is stored before anything is delivered, and a route half is kept or stored whatever the other half does. -/
theorem eventMaskAndRouteWrites : Obligations.EventMaskAndRouteWrites := by
  refine ⟨fun a w data s hans => ?_, fun a src r data s hans => ⟨_, congrArg Host.Outcome.next (if_pos hans), fun hr h => ?_, fun hr => ?_⟩⟩
  · have hexec : exec (.evtMaskWrite a w data) s = .next (s.maskWrite w.val data) := congrArg Host.Outcome.next (if_pos hans)
    have hdelivered := onlyNvme_maskWrite s w.val data
    have hreg := reg_of_regs (regs_of_onlyNvme hdelivered)
    refine ⟨⟨_, hexec, ?_, fun o ho => ?_, ((onlyHosts_setReg s _ _).trans (.of_onlyNvme hdelivered)).frame⟩, fun hquiet => ?_⟩
    · rw [hreg, reg_setReg_same]
    · rw [hreg, reg_setReg_other ho]
    · rw [hexec, maskWrite_quiet hquiet]
  · have hlt (l v c : Nat) := routeHalf_lt (cfg := s.image.cfg) (c := c) (v := v)
      (bitsOf_lt (s.reg (0x02000000 + 0x10 * src.val + 4 * r.val)) l 16)
    rw [routeWrite_halves s a.val src.val r.val data src.isLt hr, bitsOf_halves (hlt _ _ _) (hlt _ _ _)]
    match h with
    | 0 => rfl
    | 1 => rfl
  · rw [hr, routeWrite_aen]
    refine ⟨?_, fun o ho => reg_setReg_other ho⟩
    have hlt : bitsOf data 0 4 < 2 ^ 4 := bitsOf_lt data 0 4
    rw [reg_setReg_same, bitsOf, BitVec.toNat_ofNat]
    omega

end

section
/-!
PROOFS. Scope: fittings: BEGIN, staging, and how they end (05 R152 to R157).
-/
namespace Sys2Proof.Machine

/-! ### The registers a fitting writes -/

/-- The registers a fitting writes besides those it installs: its own, those of a violation, the status words of its sources and of an event record,
the open bands and the number of the last event record. -/
def fittingRegs : List Nat := [Reg.FIT_STATUS, Reg.FIT_ID, Reg.FIT_STAGED, Reg.FIT_PENDING, Reg.GBL_ACCESS_VIOL, Reg.GBL_ACCESS_VIOL_CTL,
  statusOff 1792, statusOff 1782, Reg.STR_STATUS, Reg.BEL_LOG_SEQ_LO, Reg.BEL_LOG_SEQ_HI]

theorem rwf_notMem_fittingRegs {o : Nat} (h : isRwf o = true) : o ∉ fittingRegs := by
  have hnone : ∀ x ∈ fittingRegs, isRwf x = false := by decide
  intro hmem
  rw [hnone o hmem] at h
  contradiction

theorem pwrStatus_notMem_fittingRegs : Reg.PWR_STATUS ∉ fittingRegs := by decide

theorem pwrStatus_ne_rwf {o : Nat} (h : isRwf o = true) : Reg.PWR_STATUS ≠ o := by
  rintro rfl
  exact absurd h (by decide)

section
variable {s : State} {o : Nat} (ho : o ∉ fittingRegs)
include ho

theorem wr_outside {f : Field} {v : Nat} (hf : f.off ∈ fittingRegs) : (s.wr f v).reg o = s.reg o :=
  reg_wr_other fun h => ho (h ▸ hf)

theorem raise_outside {src : Nat} (hsrc : statusOff src ∈ fittingRegs) : (s.raise src).reg o = s.reg o :=
  raise_reg fun h => ho (h ▸ hsrc)

theorem violation_outside (kind agent off : Nat) : (s.violation kind agent off).reg o = s.reg o := by
  refine violation_reg ?_ ?_ ?_ <;> rintro rfl <;> exact ho (by decide)

end

theorem violation_fit (s : State) (kind agent off : Nat) : (s.violation kind agent off).fit = s.fit := by
  obtain ⟨r, e, n, h⟩ := violation_frame s kind agent off
  rw [h]

/-- The state with what it holds of a fitting changed. -/
def State.modFit (s : State) (f : Fit → Fit) : State := { s with fit := f s.fit }

@[simp] theorem State.modFit_fit (s : State) (f : Fit → Fit) : (s.modFit f).fit = f s.fit := rfl
@[simp] theorem State.modFit_reg (s : State) (f : Fit → Fit) (o : Nat) : (s.modFit f).reg o = s.reg o := rfl
@[simp] theorem State.modFit_rd (s : State) (f : Fit → Fit) (g : Field) : (s.modFit f).rd g = s.rd g := rfl

/-! ### A write of FIT_CMD in Run -/

theorem wake_of_run {s : State} (hstate : s.pwrState = 0) (hphase : s.pwrPhase = 0) (code : Nat) : s.wake code = s := by
  have hnever : wakesFrom code 0 = false := rfl
  simp [State.wake, hstate, hphase, hnever]

/-- In Run an operation that leaves PWR_STATUS alone runs, and then at most the time of the last activity is noted. -/
theorem fitCmdWrite_of_inRun {s : State} (hrun : Safety.inRun s) (agent : Nat) {f : State → State}
    (hpwr : (f s).reg Reg.PWR_STATUS = s.reg Reg.PWR_STATUS) :
    ∃ n, s.fitCmdWrite agent f = (f s).modFit fun x => { x with lastActivity := n } := by
  obtain ⟨n, htouch⟩ : ∃ n, (if (f s).fitOwns agent then { f s with fit := { (f s).fit with lastActivity := (f s).now } } else f s) =
      (f s).modFit fun x => { x with lastActivity := n } := by
    split
    · exact ⟨_, rfl⟩
    · exact ⟨(f s).fit.lastActivity, rfl⟩
  have hans : s.answers Reg.FIT_CMD = true := by rw [State.answers, mainUp_of_inRun hrun, Bool.or_true]
  have hrd (g : Field) (hg : g.off = Reg.PWR_STATUS) : (f s).rd g = s.rd g := by rw [State.rd, hg, hpwr, State.rd, hg]
  refine ⟨n, ?_⟩
  rw [State.fitCmdWrite]
  dsimp only
  rw [if_pos hans, htouch, if_pos hrun.1]
  exact wake_of_run (s := (f s).modFit _) ((hrd Reg.PWR_STATUS_STATE rfl).trans hrun.2.1) ((hrd Reg.PWR_STATUS_PHASE rfl).trans hrun.2.2) 8

/-! ### BEGIN (Table 5.8) -/

/-- The registers as BEGIN leaves them. -/
def State.fitOpened (s : State) (agent : Nat) : State :=
  (((((s.wr Reg.FIT_ID_ID (s.rd Reg.FIT_ID_ID + 1)).wr Reg.FIT_STATUS_STATE fitOpen).wr Reg.FIT_STATUS_OWNER agent).wr
    Reg.FIT_STATUS_RESULT 0).wr Reg.FIT_STATUS_OVERFLOW 0).wr Reg.FIT_STAGED_COUNT 0

theorem fitBegin_idle {s : State} (h : s.rd Reg.FIT_STATUS_STATE = 0) (agent : Nat) : s.fitBegin agent =
    (s.fitOpened agent).modFit fun x => { x with staged := [], snapshot := s.regs.filter (fun e => isRwf e.1), lastActivity := s.now } := by
  rw [State.fitBegin, if_neg (by simp [h, fitIdle])]
  rfl

theorem fitBegin_busy {s : State} (h : s.rd Reg.FIT_STATUS_STATE ≠ 0) (agent : Nat) : s.fitBegin agent = s.violation 4 agent Reg.FIT_CMD :=
  if_pos h

theorem fitOpened_frame (s : State) (agent : Nat) : OnlyRegs s (s.fitOpened agent) :=
  (((((OnlyRegs.wr ⟨s.regs, rfl⟩ _ _).wr _ _).wr _ _).wr _ _).wr _ _).wr _ _

theorem fitOpened_reg {s : State} {agent o : Nat} (hstatus : o ≠ Reg.FIT_STATUS) (hid : o ≠ Reg.FIT_ID) (hstaged : o ≠ Reg.FIT_STAGED) :
    (s.fitOpened agent).reg o = s.reg o := by
  rw [State.fitOpened, reg_wr_other hstaged, reg_wr_other hstatus, reg_wr_other hstatus, reg_wr_other hstatus, reg_wr_other hstatus,
    reg_wr_other hid]

theorem fitOpened_rd (s : State) (agent : Nat) :
    (s.fitOpened agent).rd Reg.FIT_STATUS_STATE = 1 ∧ (s.fitOpened agent).rd Reg.FIT_STATUS_OWNER = agent % 16 ∧
    (s.fitOpened agent).rd Reg.FIT_STATUS_RESULT = 0 ∧ (s.fitOpened agent).rd Reg.FIT_STATUS_OVERFLOW = 0 ∧
    (s.fitOpened agent).rd Reg.FIT_ID_ID = (s.rd Reg.FIT_ID_ID + 1) % 2 ^ 32 ∧ (s.fitOpened agent).rd Reg.FIT_STAGED_COUNT = 0 := by
  unfold State.fitOpened
  refine ⟨?_, ?_, ?_, ?_, ?_, ?_⟩ <;> simp (disch := decide) only [rd_wr, rd_wr_off, rd_wr_apart] <;> rfl

/-! ### A fitting ends -/

/-- The registers as the end of a fitting leaves them. -/
def State.fitClosed (s : State) (result : Nat) : State :=
  (((s.wr Reg.FIT_STATUS_STATE fitIdle).wr Reg.FIT_STATUS_OWNER 0xF).wr Reg.FIT_STATUS_RESULT result).wr Reg.FIT_STAGED_COUNT 0

theorem fitEnd_eq (s : State) (result : Nat) :
    s.fitEnd result = (s.fitClosed result).modFit fun x => { x with staged := [], snapshot := [] } := rfl

theorem fitEnd_state (s : State) (result : Nat) : (s.fitEnd result).rd Reg.FIT_STATUS_STATE = 0 := by
  rw [fitEnd_eq, State.modFit_rd, State.fitClosed, rd_wr_off (by decide), rd_wr_apart (by decide), rd_wr_apart (by decide), rd_wr (by decide)]
  rfl

theorem fitEnd_result (s : State) (result : Nat) : (s.fitEnd result).rd Reg.FIT_STATUS_RESULT = result % 16 := by
  rw [fitEnd_eq, State.modFit_rd, State.fitClosed, rd_wr_off (by decide), rd_wr (by decide)]
  rfl

theorem fitEnd_reg {s : State} {result o : Nat} (hstatus : o ≠ Reg.FIT_STATUS) (hstaged : o ≠ Reg.FIT_STAGED) :
    (s.fitEnd result).reg o = s.reg o := by
  rw [fitEnd_eq, State.modFit_reg, State.fitClosed, reg_wr_other hstaged, reg_wr_other hstatus, reg_wr_other hstatus, reg_wr_other hstatus]

theorem fitEnd_outside {s : State} {result o : Nat} (ho : o ∉ fittingRegs) : (s.fitEnd result).reg o = s.reg o := by
  refine fitEnd_reg ?_ ?_ <;> rintro rfl <;> exact ho (by decide)

/-- A fitting ended before it installed anything: its RESULT, and source 1,795. -/
def FitDiscarded (s t : State) (result : Nat) : Prop :=
  t.rd Reg.FIT_STATUS_STATE = 0 ∧ t.rd Reg.FIT_STATUS_RESULT = result ∧ t.fit.staged = [] ∧ t.evtStatus 1795 = true ∧
    ∀ o, o ∉ fittingRegs → t.reg o = s.reg o

theorem fitEnd_raise (s : State) {result : Nat} (h : result < 16) : FitDiscarded s ((s.fitEnd result).raise 1795) result := by
  refine ⟨?_, ?_, ?_, raise_status _ _, fun o ho => ?_⟩
  · rw [raise_rd (by decide), fitEnd_state]
  · rw [raise_rd (by decide), fitEnd_result, Nat.mod_eq_of_lt h]
  · rw [(raise_parts _ _).1, fitEnd_eq, State.modFit_fit]
  · rw [raise_outside ho (by decide), fitEnd_outside ho]

theorem fitAbort_allowed {s : State} {agent : Nat} (h : s.fitMayAbort agent = true) : s.fitAbort agent = (s.fitEnd 3).raise 1795 := if_pos h

theorem fitAbort_refused {s : State} {agent : Nat} (h : s.fitMayAbort agent = false) : s.fitAbort agent = s.violation 4 agent Reg.FIT_CMD := by
  rw [State.fitAbort, if_neg (by simp [h])]

theorem fitAbandon_open {s : State} (h : s.rd Reg.FIT_STATUS_STATE = 1) (result : Nat) : s.fitAbandon result = (s.fitEnd result).raise 1795 :=
  if_pos h

theorem fitIdleDue_iff (s : State) : s.fitIdleDue = true ↔
    s.rd Reg.FIT_STATUS_STATE = 1 ∧ s.fit.lastActivity + s.rd Reg.FIT_TIMEOUT_IDLE_MS * 1000000 ≤ s.now := by
  simp [State.fitIdleDue, fitOpen]

/-- A refused write of FIT_CMD: recorded as a violation, the fitting as before. -/
theorem fitCmd_refused {s : State} (hrun : Safety.inRun s) (agent : Nat) {f : State → State} (hf : f s = s.violation 4 agent Reg.FIT_CMD) :
    ∃ t, s.fitCmdWrite agent f = t ∧ t.rd Reg.GBL_ACCESS_VIOL_CTL_VALID = 1 ∧ t.fit.staged = s.fit.staged ∧
      t.reg Reg.FIT_STATUS = s.reg Reg.FIT_STATUS ∧ t.reg Reg.FIT_ID = s.reg Reg.FIT_ID := by
  obtain ⟨n, h⟩ := fitCmdWrite_of_inRun hrun agent (f := f) (by rw [hf]; exact violation_outside pwrStatus_notMem_fittingRegs _ _ _)
  rw [hf] at h
  refine ⟨_, h, violation_valid _ _ _ _, ?_, violation_reg (by decide) (by decide) (by decide), violation_reg (by decide) (by decide) (by decide)⟩
  rw [State.modFit_fit, violation_fit]

/-- A write of FIT_CMD by which the fitting ends with nothing installed. -/
theorem fitCmd_discards {s : State} (hrun : Safety.inRun s) (agent : Nat) {f : State → State} {result : Nat} (hf : FitDiscarded s (f s) result) :
    ∃ t, s.fitCmdWrite agent f = t ∧ FitDiscarded s t result := by
  obtain ⟨-, -, -, -, hreg⟩ := id hf
  obtain ⟨n, h⟩ := fitCmdWrite_of_inRun hrun agent (f := f) (hreg _ pwrStatus_notMem_fittingRegs)
  exact ⟨_, h, hf⟩

/-! ### Staging (R153, R156) -/

/-- What a fitting holds after a write of a word at an offset: its entries in ascending offset. -/
def stagedWith (l : List (Nat × Word)) (off : Nat) (v : Word) : List (Nat × Word) :=
  (l.filter fun e => e.1 != off).filter (fun e => e.1 < off) ++ [(off, v)] ++ (l.filter fun e => e.1 != off).filter fun e => off < e.1

theorem mem_stagedWith {l : List (Nat × Word)} {off : Nat} {v : Word} {e : Nat × Word} :
    e ∈ stagedWith l off v ↔ e = (off, v) ∨ (e ∈ l ∧ e.1 ≠ off) := by
  simp only [stagedWith, List.mem_append, List.mem_filter, List.mem_singleton, bne_iff_ne, decide_eq_true_eq]
  constructor
  · rintro ((⟨⟨h, hne⟩, -⟩ | h) | ⟨⟨h, hne⟩, -⟩)
    · exact .inr ⟨h, hne⟩
    · exact .inl h
    · exact .inr ⟨h, hne⟩
  · rintro (h | ⟨h, hne⟩)
    · exact .inl (.inr h)
    · rcases Nat.lt_or_gt_of_ne hne with hlt | hgt
      · exact .inl (.inl ⟨⟨h, hne⟩, hlt⟩)
      · exact .inr ⟨⟨h, hne⟩, hgt⟩

theorem fitOwns_iff {s : State} {agent : Nat} :
    s.fitOwns agent = true ↔ s.rd Reg.FIT_STATUS_STATE = 1 ∧ s.rd Reg.FIT_STATUS_OWNER = agent := by
  simp [State.fitOwns, fitOpen]

section
variable {s : State} {agent off : Nat} {w : Word}

theorem fitStage_taken (howns : s.fitOwns agent = true)
    (hroom : (s.fit.staged.any fun e => e.1 == off) = true ∨ s.fit.staged.length < 4096) : ∃ n, s.fitStage agent off w =
      (s.wr Reg.FIT_STAGED_COUNT n).modFit fun x => { x with staged := stagedWith s.fit.staged off (rwfBits off w), lastActivity := s.now } := by
  obtain ⟨hopen, howner⟩ := fitOwns_iff.mp howns
  rw [State.fitStage, if_neg (by simp [hopen, fitOpen]), if_neg (by simp [howner])]
  dsimp only
  rw [if_neg (by rcases hroom with h | h <;> simp [h])]
  exact ⟨_, rfl⟩

theorem fitStage_full (howns : s.fitOwns agent = true) (hnew : (s.fit.staged.any fun e => e.1 == off) = false) (hfull : 4096 ≤ s.fit.staged.length) :
    s.fitStage agent off w = (s.modFit fun x => { x with lastActivity := s.now }).wr Reg.FIT_STATUS_OVERFLOW 1 := by
  obtain ⟨hopen, howner⟩ := fitOwns_iff.mp howns
  rw [State.fitStage, if_neg (by simp [hopen, fitOpen]), if_neg (by simp [howner])]
  dsimp only
  rw [if_pos (by simp [hnew, hfull])]
  rfl

theorem fitStage_refused (hother : s.fitOwns agent = false) : ∃ kind, s.fitStage agent off w = s.violation kind agent off := by
  by_cases hopen : s.rd Reg.FIT_STATUS_STATE = 1
  · have howner : s.rd Reg.FIT_STATUS_OWNER ≠ agent := fun h => by simp [fitOwns_iff.mpr ⟨hopen, h⟩] at hother
    exact ⟨3, by rw [State.fitStage, if_neg (by simp [hopen, fitOpen]), if_pos howner]⟩
  · exact ⟨2, if_pos hopen⟩

end

end Sys2Proof.Machine

open Sys2Proof
open Sys2Proof.Machine

/-- Settles O7: in IDLE the registers written are three, and elsewhere BEGIN is a violation and nothing else. -/
theorem fittingBegins : Obligations.FittingBegins := by
  refine fun a s hrun => ⟨fun hidle => ?_, fun hbusy => ?_⟩
  · have hbegin := fitBegin_idle hidle a.val
    obtain ⟨n, h⟩ := fitCmdWrite_of_inRun hrun a.val (f := fun t => t.fitBegin a.val) (by
      rw [hbegin, State.modFit_reg]
      exact fitOpened_reg (by decide) (by decide) (by decide))
    rw [hbegin] at h
    obtain ⟨hstate, howner, hresult, hoverflow, hid, hcount⟩ := fitOpened_rd s a.val
    refine ⟨_, congrArg Host.Outcome.next h, ?_⟩
    simp only [State.modFit_rd, State.modFit_reg]
    refine ⟨hstate, howner.trans (Nat.mod_eq_of_lt (by omega)), hresult, hoverflow, hid, hcount, rfl, rfl, fun o => fitOpened_reg, ?_⟩
    obtain ⟨r, hframe⟩ := fitOpened_frame s a.val
    rw [hframe]
    rfl
  · obtain ⟨t, h, hvalid, hstaged, hstatus, hid⟩ := fitCmd_refused hrun a.val (f := fun t => t.fitBegin a.val) (fitBegin_busy hbusy a.val)
    exact ⟨t, congrArg Host.Outcome.next h, hvalid, hstaged, hstatus, hid⟩

/-- Settles O8: by the branches of `State.fitStage`, the staged list being what it was with one entry in place of those of the offset. -/
theorem fittingStages : Obligations.FittingStages := by
  intro a off w s hrun
  have hexec : exec (.rwfStageWrite a off w) s = .next (if isRwf off then s.fitStage a.val off w else s) := by
    change execRwfStageWrite a off w s = _
    rw [execRwfStageWrite, State.answers, mainUp_of_inRun hrun, Bool.or_true, Bool.true_and]
  refine ⟨fun hrwf howns hroom => ?_, fun hrwf howns hnew hfull => ?_, fun hrwf hother => ?_, fun hrwf => ?_⟩
  · obtain ⟨n, hstage⟩ := fitStage_taken (w := w) howns hroom
    rw [hexec, if_pos hrwf, hstage]
    refine ⟨_, rfl, mem_stagedWith.mpr (.inl rfl), fun e he hoff => ?_, fun e he hoff => ?_,
      fun o ho => reg_wr_other (s := s) ho, rfl⟩
    · rcases mem_stagedWith.mp he with rfl | ⟨-, hne⟩
      · rfl
      · exact absurd hoff hne
    · exact mem_stagedWith.mpr (.inr ⟨he, hoff⟩)
  · rw [hexec, if_pos hrwf, fitStage_full howns hnew hfull]
    exact ⟨_, rfl, rd_wr (by decide), rfl⟩
  · obtain ⟨kind, hstage⟩ := fitStage_refused (off := off) (w := w) hother
    rw [hexec, if_pos hrwf, hstage]
    exact ⟨_, rfl, violation_fit _ _ _ _, violation_valid _ _ _ _,
      fun o ho => violation_outside (rwf_notMem_fittingRegs ho) _ _ _⟩
  · rw [hexec, if_neg (by simp [hrwf])]

/-- Settles O9: each way to end is `State.fitEnd` and source 1,795. -/
theorem fittingEnds : Obligations.FittingEnds := by
  refine fun a s hrun => ⟨fun hmay => ?_, fun hnot => ?_, fun hdue => ?_, fun hearly => ?_⟩
  · have hf : FitDiscarded s (s.fitAbort a.val) 3 := by
      rw [fitAbort_allowed hmay]
      exact fitEnd_raise s (by decide)
    obtain ⟨t, h, hstate, hresult, hstaged, hstatus, hreg⟩ := fitCmd_discards hrun a.val (f := fun t => t.fitAbort a.val) hf
    exact ⟨t, congrArg Host.Outcome.next h, hstate, hresult, hstaged, hstatus, fun o ho => hreg o (rwf_notMem_fittingRegs ho)⟩
  · obtain ⟨t, h, hvalid, hstaged, hstatus, -⟩ := fitCmd_refused hrun a.val (f := fun t => t.fitAbort a.val) (fitAbort_refused hnot)
    exact ⟨t, congrArg Host.Outcome.next h, hstaged, hstatus, hvalid⟩
  · obtain ⟨hstate, hresult, hstaged, hstatus, hreg⟩ := fitEnd_raise s (result := 4) (by decide)
    refine ⟨_, ?_, hstate, hresult, hstaged, hstatus, fun o ho => hreg o (rwf_notMem_fittingRegs ho)⟩
    rw [← fitAbandon_open ((fitIdleDue_iff s).mp hdue).1]
    exact congrArg Host.Outcome.next (if_pos hdue)
  · exact congrArg Host.Outcome.next (if_neg (by simp [hearly]))

end

section
/-!
PROOFS. Scope: fittings: their idle time, COMMIT, and the adoption of a class (05 R156 to R162).
-/
namespace Sys2Proof.Machine

/-! ### FIT_TIMEOUT (Table 5.7, R157) -/

/-- IDLE_MS as a write stores it. -/
def idleMs (w : Word) : Nat := max 100 (min 60000 (bitsOf w 0 16))

theorem idleMs_stored (s : State) (w : Word) : (s.wr Reg.FIT_TIMEOUT_IDLE_MS (idleMs w)).rd Reg.FIT_TIMEOUT_IDLE_MS = idleMs w := by
  rw [rd_wr (by decide)]
  refine Nat.mod_eq_of_lt (lt_of_le_of_lt (b := 60000) ?_ (by decide))
  unfold idleMs
  omega

/-- A write of FIT_TIMEOUT that makes the idle time due ends the fitting; any other is the write of the register. -/
theorem fitTimeoutWrite_due {s : State} {w : Word} (h : (s.wr Reg.FIT_TIMEOUT_IDLE_MS (idleMs w)).fitIdleDue = true) :
    s.fitTimeoutWrite w = ((s.wr Reg.FIT_TIMEOUT_IDLE_MS (idleMs w)).fitEnd 4).raise 1795 :=
  (if_pos h).trans (fitAbandon_open ((fitIdleDue_iff _).mp h).1 4)

theorem fitTimeoutWrite_early {s : State} {w : Word} (h : (s.wr Reg.FIT_TIMEOUT_IDLE_MS (idleMs w)).fitIdleDue = false) :
    s.fitTimeoutWrite w = s.wr Reg.FIT_TIMEOUT_IDLE_MS (idleMs w) :=
  if_neg (by simp [idleMs] at h; simp [h])

/-! ### COMMIT (R156, R159, R160) -/

/-- A commit report writes the status word of source 1,797, and neither the fitting nor what was measured. -/
theorem report_kept (s : State) (r : ClampReport) (isLoad isCommitRun : Bool) :
    (s.report r isLoad isCommitRun).fit = s.fit ∧ (s.report r isLoad isCommitRun).boot = s.boot ∧
      ∀ o, o ≠ statusOff 1797 → (s.report r isLoad isCommitRun).reg o = s.reg o := by
  obtain ⟨im, h⟩ : ∃ im, Safety.onlyNvme (State.raise { s with image := im } 1797) (s.report r isLoad isCommitRun) := by
    unfold State.report
    dsimp only
    split
    · exact ⟨_, onlyNvme_foldl (fun t c => onlyNvme_aen t c _) _ _⟩
    · exact ⟨_, onlyNvme_refl _⟩
  obtain ⟨hfit, -, hboot, -⟩ := raise_parts { s with image := im } 1797
  refine ⟨(congrArg State.fit h).trans hfit, (congrArg State.boot h).trans hboot, fun o ho => ?_⟩
  rw [reg_of_regs (regs_of_onlyNvme h), raise_reg ho]
  rfl

theorem record_outside {s : State} {o : Nat} (ho : o ∉ fittingRegs) (ty severity : Nat) (data : List Nat) :
    (s.record ty severity data).reg o = s.reg o := by
  have hrd : (s.record ty severity data).rd ⟨o, 0, 32⟩ = s.rd ⟨o, 0, 32⟩ := by
    refine record_rd ?_ ?_ ?_ <;> rintro rfl <;> exact ho (by decide)
  have hwhole (t : State) : t.rd ⟨o, 0, 32⟩ = (t.reg o).toNat := by
    rw [State.rd, bitsOf, Nat.pow_zero, Nat.div_one, Nat.mod_eq_of_lt (t.reg o).isLt]
  rw [hwhole, hwhole] at hrd
  exact BitVec.eq_of_toNat_eq hrd

theorem record_parts (s : State) (ty severity : Nat) (data : List Nat) :
    (s.record ty severity data).fit = s.fit ∧ (s.record ty severity data).boot = s.boot := by
  obtain ⟨l, r, e, n, h⟩ := record_frame s ty severity data
  rw [h]
  exact ⟨rfl, rfl⟩

/-- A word in its register; where a policy is committed, bands that do not fit it open no further stripe. -/
def State.fitStored (s : State) (off : Nat) (v : Word) : State :=
  if adoptClass off = some 1 then (s.setReg off v).stopStaleBands else s.setReg off v

/-- The object of R160 for a fitting of one register. -/
def fitObject (id off : Nat) (v : Word) : List Byte := leBytes 4 id ++ (leBytes 4 off ++ leBytes 4 v.toNat)

/-- The object of a commit measured, and STATE ADOPTING. -/
def State.fitMeasured (s : State) (obj : List Byte) : State :=
  (((s.extend 9 (Config.sha384 obj)).wr Reg.FIT_STATUS_CHECK 0).wr Reg.FIT_STATUS_STATE fitAdopting).wr Reg.FIT_STAGED_COUNT 0

/-- What follows the values of a commit: classes pending, a report, source 1,792, an event record and a count; the end where none is pending. -/
def State.fitAnnounced (s : State) (pending : Nat) (r : ClampReport) (data : List Nat) : State :=
  (((((s.wr Reg.FIT_PENDING_CLASS pending).report r false false).raise 1792).record 0x04 0 data).tally 0xAC 1).fitSettle

/-- COMMIT of one register whose checks pass, in its steps. -/
theorem fitRun_one {s : State} {off : Nat} {w : Word} (hstaged : s.fit.staged = [(off, w)]) (hchecks : checksOf off = []) :
    ∃ clamps held pending r data, s.fitRun =
      ((((s.wr Reg.FIT_STATUS_CLAMPS clamps).fitStored off (clampWord off w).1).fitMeasured
        (fitObject (s.rd Reg.FIT_ID_ID) off (clampWord off w).1)).modFit fun x =>
          { x with staged := [], snapshot := [], held := held }).fitAnnounced pending r data := by
  unfold State.fitRun
  extract_lets id staged clamped entries _ offs _ checks bad _ _ s0 classes _ _ s1a s1 obj
  have hclamped : clamped = [(off, clampWord off w)] := congrArg (List.map fun e => (e.1, clampWord e.1 e.2)) hstaged
  have hbad : bad = none := by simp [bad, checks, offs, staged, hstaged, hchecks]
  have hs1 : s1 = s0.fitStored off (clampWord off w).1 := by
    simp [s1, classes, offs, staged, hstaged, s1a, hclamped, State.fitStored]
  have hobj : obj = fitObject (s.rd Reg.FIT_ID_ID) off (clampWord off w).1 := by
    simp [obj, hclamped, id, fitObject]
  rw [hbad, ← hobj]
  refine ⟨min 4095 entries.length, ?_⟩
  rw [← hs1]
  exact ⟨_, _, _, _, rfl⟩

theorem fitStored_reg (s : State) (off : Nat) (v : Word) {o : Nat} (ho : o ∉ fittingRegs) :
    (s.fitStored off v).reg o = if o = off then v else s.reg o := by
  unfold State.fitStored
  split
  · rw [← reg_setReg]
    exact wr_outside ho (by decide)
  · exact reg_setReg s off v o

theorem fitStored_boot (s : State) (off : Nat) (v : Word) : (s.fitStored off v).boot = s.boot := by
  unfold State.fitStored
  split <;> rfl

theorem fitMeasured_reg (s : State) (obj : List Byte) {o : Nat} (ho : o ∉ fittingRegs) : (s.fitMeasured obj).reg o = s.reg o := by
  rw [State.fitMeasured, wr_outside ho (by decide), wr_outside ho (by decide), wr_outside ho (by decide)]
  rfl

theorem fitMeasured_measReg (s : State) (obj : List Byte) :
    (s.fitMeasured obj).measReg 9 = Config.sha384 (digestBytes (s.measReg 9) ++ digestBytes (Config.sha384 obj)) :=
  measReg_extend s 9 _

/-- The end of a fitting with no class pending changes registers of the fitting, the fitting and nothing measured. -/
theorem fitSettle_parts (s : State) : s.fitSettle.boot = s.boot ∧ s.fitSettle.fit.held = s.fit.held ∧
    (s.fit.staged = [] → s.fitSettle.fit.staged = []) ∧ ∀ o, o ∉ fittingRegs → s.fitSettle.reg o = s.reg o := by
  unfold State.fitSettle
  split
  · obtain ⟨hfit, -, hboot, -⟩ := raise_parts (s.fitEnd 1) 1793
    refine ⟨hboot, by rw [hfit]; rfl, fun _ => by rw [hfit]; rfl, fun o ho => ?_⟩
    rw [raise_outside ho (by decide), fitEnd_outside ho]
  · exact ⟨rfl, rfl, id, fun _ _ => rfl⟩

theorem fitAnnounced_parts (s : State) (pending : Nat) (r : ClampReport) (data : List Nat) :
    (s.fitAnnounced pending r data).boot = s.boot ∧ (s.fit.staged = [] → (s.fitAnnounced pending r data).fit.staged = []) ∧
      ∀ o, o ∉ fittingRegs → (s.fitAnnounced pending r data).reg o = s.reg o := by
  unfold State.fitAnnounced
  generalize hreport : (s.wr Reg.FIT_PENDING_CLASS pending).report r false false = u
  obtain ⟨hfit, hboot, hreg⟩ := report_kept (s.wr Reg.FIT_PENDING_CLASS pending) r false false
  obtain ⟨hraiseFit, -, hraiseBoot, -⟩ := raise_parts u 1792
  obtain ⟨hrecordFit, hrecordBoot⟩ := record_parts (u.raise 1792) 0x04 0 data
  obtain ⟨l, htally⟩ := tally_frame ((u.raise 1792).record 0x04 0 data) 0xAC 1
  obtain ⟨hsettleBoot, -, hsettleFit, hsettleReg⟩ := fitSettle_parts (((u.raise 1792).record 0x04 0 data).tally 0xAC 1)
  rw [hreport] at hfit hboot hreg
  have htallyFit : (((u.raise 1792).record 0x04 0 data).tally 0xAC 1).fit = s.fit := by
    rw [htally]
    exact hrecordFit.trans (hraiseFit.trans hfit)
  have htallyBoot : (((u.raise 1792).record 0x04 0 data).tally 0xAC 1).boot = s.boot := by
    rw [htally]
    exact hrecordBoot.trans (hraiseBoot.trans hboot)
  refine ⟨hsettleBoot.trans htallyBoot, fun h => hsettleFit (by rw [htallyFit, h]), fun o ho => ?_⟩
  have htallyReg : (((u.raise 1792).record 0x04 0 data).tally 0xAC 1).reg o = ((u.raise 1792).record 0x04 0 data).reg o := by
    rw [htally]
    rfl
  rw [hsettleReg o ho, htallyReg, record_outside ho, raise_outside ho (by decide), hreg o (fun h => ho (h ▸ by decide)),
    wr_outside ho (by decide)]

/-- COMMIT of one register without checks: the register has its clamped value, the object of R160 is measured, and nothing stays staged. -/
theorem fitRun_installs {s : State} {off : Nat} {w : Word} (hstaged : s.fit.staged = [(off, w)]) (hchecks : checksOf off = []) :
    s.fitRun.fit.staged = [] ∧
    s.fitRun.measReg 9 = Config.sha384 (digestBytes (s.measReg 9) ++
      digestBytes (Config.sha384 (fitObject (s.rd Reg.FIT_ID_ID) off (clampWord off w).1))) ∧
    ∀ o, o ∉ fittingRegs → s.fitRun.reg o = if o = off then (clampWord off w).1 else s.reg o := by
  obtain ⟨clamps, held, pending, r, data, hsteps⟩ := fitRun_one hstaged hchecks
  rw [hsteps]
  generalize hmeasured : ((s.wr Reg.FIT_STATUS_CLAMPS clamps).fitStored off (clampWord off w).1).fitMeasured
    (fitObject (s.rd Reg.FIT_ID_ID) off (clampWord off w).1) = u
  obtain ⟨hboot, hempty, hreg⟩ := fitAnnounced_parts (u.modFit fun x => { x with staged := [], snapshot := [], held := held }) pending r data
  refine ⟨hempty rfl, ?_, fun o ho => ?_⟩
  · have hstored : ((s.wr Reg.FIT_STATUS_CLAMPS clamps).fitStored off (clampWord off w).1).measReg 9 = s.measReg 9 :=
      measReg_of_meas (congrArg Boot.meas (fitStored_boot _ off _)) 9
    rw [measReg_of_meas (congrArg Boot.meas hboot), ← hstored, ← fitMeasured_measReg, hmeasured]
    rfl
  · rw [hreg o ho, State.modFit_reg, ← hmeasured, fitMeasured_reg _ _ ho, fitStored_reg _ _ _ ho, wr_outside ho (by decide)]

/-- COMMIT by an agent that does not own the open fitting. -/
theorem commit_other {s : State} {agent : Nat} (h : s.fitOwns agent = false) : s.commit agent = s.violation 4 agent Reg.FIT_CMD := by
  simp [State.commit, State.fitCommit, h]

theorem commit_overflow {s : State} {agent : Nat} (howns : s.fitOwns agent = true) (h : s.rd Reg.FIT_STATUS_OVERFLOW = 1) :
    s.commit agent = (s.fitEnd 6).raise 1795 := by
  simp [State.commit, State.fitCommit, howns, h]

/-- Where no voltage is adopted at once, a commit does beyond `State.fitRun` at most what a wake timer needs. -/
theorem commit_run {s : State} {agent : Nat} (howns : s.fitOwns agent = true) (h : s.rd Reg.FIT_STATUS_OVERFLOW = 0)
    (hcfg : (s.fit.staged.map fun e => e.1).contains Reg.PWR_CFG = false) : ∃ f, s.commit agent = s.fitRun.modPwr f := by
  have hrun : s.fitCommit agent = s.fitRun := by simp [State.fitCommit, howns, h]
  unfold State.commit
  extract_lets offs s1 s2
  have hs2 : s2 = s1 := if_neg (by rw [show offs.contains Reg.PWR_CFG = false from hcfg, Bool.false_and]; decide)
  rw [hs2]
  have hs1 : s1 = s.fitRun := hrun
  split
  · exact ⟨id, hs1⟩
  · split
    · exact ⟨_, by rw [hs1]⟩
    · exact ⟨id, hs1⟩

/-! ### Adoption (R161) -/

/-- The fitting and the registers of its block are as they were. -/
def FitKept (s t : State) : Prop := t.fit = s.fit ∧ ∀ o, o < 0x100 → t.reg o = s.reg o

theorem FitKept.refl (s : State) : FitKept s s := ⟨rfl, fun _ _ => rfl⟩

theorem FitKept.of_eq {s t u : State} (h : FitKept s t) (hfit : u.fit = t.fit) (hregs : u.regs = t.regs) : FitKept s u :=
  ⟨hfit.trans h.1, fun o ho => (reg_of_regs hregs o).trans (h.2 o ho)⟩

theorem FitKept.setReg {s t : State} (h : FitKept s t) {off : Nat} (hoff : 0x100 ≤ off) (w : Word) : FitKept s (t.setReg off w) :=
  ⟨h.1, fun o ho => (reg_setReg_other (by omega)).trans (h.2 o ho)⟩

theorem FitKept.wr {s t : State} (h : FitKept s t) {f : Field} (hf : 0x100 ≤ f.off) (v : Nat) : FitKept s (t.wr f v) := h.setReg hf _

theorem FitKept.raise {s t : State} (h : FitKept s t) (src : Nat) : FitKept s (t.raise src) :=
  ⟨(raise_parts t src).1.trans h.1, fun o ho => (raise_reg (by unfold statusOff; omega)).trans (h.2 o ho)⟩

theorem FitKept.modStp {s t : State} (h : FitKept s t) (f : Stp → Stp) : FitKept s (t.modStp f) := h.of_eq rfl rfl
theorem FitKept.modThm {s t : State} (h : FitKept s t) (f : Thm → Thm) : FitKept s (t.modThm f) := h.of_eq rfl rfl
theorem FitKept.modLoop {s t : State} (h : FitKept s t) (i : Nat) (f : Loop → Loop) : FitKept s (t.modLoop i f) := h.of_eq rfl rfl

theorem FitKept.ite {s a b : State} {p : Prop} [Decidable p] (ha : FitKept s a) (hb : FitKept s b) : FitKept s (if p then a else b) := by
  split
  · exact ha
  · exact hb

theorem FitKept.rd {s t : State} (h : FitKept s t) {f : Field} (hf : f.off < 0x100) : t.rd f = s.rd f := by
  rw [State.rd, h.2 _ hf, State.rd]

theorem mntLoopStatus_high (i : Nat) : 0x100 ≤ Reg.MNT_LOOP_STATUS i := by unfold Reg.MNT_LOOP_STATUS; omega

theorem mntDuty_high (i : Nat) : 0x100 ≤ Reg.MNT_DUTY i := by unfold Reg.MNT_DUTY; omega

theorem FitKept.headroomEnd {s t : State} (h : FitKept s t) (i : Nat) : FitKept s (t.headroomEnd i) :=
  h.ite ((h.wr (mntLoopStatus_high i) 0).modLoop i _)

theorem FitKept.loopOff {s t : State} (h : FitKept s t) (i : Nat) : FitKept s (t.loopOff i) := by
  have hoff := ((((h.headroomEnd i).wr (f := Reg.MNT_LOOP_STATUS_STATE i) (mntLoopStatus_high i) 0).wr (f := Reg.MNT_DUTY_D0 i)
    (mntDuty_high i) 0).wr (f := Reg.MNT_DUTY_D1 i) (mntDuty_high i) 0).modLoop i fun x => { x with d := [0, 0], sampled := none, change := none }
  exact ((hoff.wr (mntLoopStatus_high i) 0).raise 1739).ite hoff

theorem FitKept.loopStart {s t : State} (h : FitKept s t) (i : Nat) : FitKept s (t.loopStart i) := by
  have hstate (v : Nat) := h.wr (f := Reg.MNT_LOOP_STATUS_STATE i) (mntLoopStatus_high i) v
  exact ((hstate _).modLoop i _).ite (hstate _)

/-- A Mantle slot that adopts leaves the fitting block alone. -/
theorem FitKept.adoptMantle {s t : State} (h : FitKept s t) (i : Nat) : FitKept s (t.adoptMantle i) := by
  unfold State.adoptMantle
  extract_lets n vmax amax cut s1 en
  have hs1 : FitKept s s1 := h.modLoop i _
  exact (hs1.loopOff i).ite ((hs1.loopStart i).ite hs1)

theorem FitKept.countMembers {s t : State} (h : FitKept s t) : FitKept s t.countMembers := by
  unfold State.countMembers
  extract_lets live n s1
  have hs1 : FitKept s s1 := (h.modStp _).wr (by decide) n
  exact (hs1.raise 1767).ite hs1

theorem FitKept.setStp {s t : State} (h : FitKept s t) (st : Nat) : FitKept s (t.setStp st) :=
  (h.wr (f := Reg.STP_STATUS_STATE) (by decide) st).countMembers

theorem FitKept.topOfChain {s t : State} (h : FitKept s t) : FitKept s t.topOfChain := by
  have huid := ((h.wr (f := Reg.STP_STATUS_HOP) (by decide) 0).setReg (off := Reg.STP_HEAD_UID_LO) (by decide) (BitVec.ofNat 32 t.uid)).setReg
    (off := Reg.STP_HEAD_UID_HI) (by decide) (BitVec.ofNat 32 (t.uid / 2 ^ 32))
  exact (huid.wr (f := Reg.STP_STATUS_HEAL_REFUSED) (by decide) 0).wr (f := Reg.STP_STATUS_CHAIN_END) (by decide) 0

theorem FitKept.toHead {s t : State} (h : FitKept s t) : FitKept s t.toHead := by
  have htop := ((h.modStp fun x => { x with base := t.steepleFrac, baseAt := t.now }).setStp stpHead).topOfChain
  exact (htop.ite (htop.wr (f := Reg.STP_STATUS_CAL_VALID) (by decide) 0)).modStp _

theorem FitKept.dropRefs {s t : State} (h : FitKept s t) : FitKept s t.dropRefs := by
  have hpps := h.ite ((h.wr (f := Reg.STP_STATUS_REF_PPS_LOCK) (by decide) 0).modStp fun x => { x with ppsAt := none })
    (p := (t.stpState == stpHead && (t.force Reg.STP_CFG_REF).testBit 0) = true)
  exact hpps.ite (hpps.wr (by decide) 0)

/-- A role that is adopted leaves the fitting block alone. -/
theorem FitKept.adoptRole {s t : State} (h : FitKept s t) : FitKept s t.adoptRole := by
  unfold State.adoptRole
  extract_lets r was s1 st acquire noUp s2
  have hs1 : FitKept s s1 := h.wr (by decide) r
  have hacquire : FitKept s (acquire s1) := ((hs1.modStp _).setStp stpAcquire).modStp _
  have hnoUp {u : State} (hu : FitKept s u) : FitKept s (noUp u) := ((hu.wr (by decide) 0).wr (by decide) 0).modStp _
  have hoff : FitKept s _ := ((((hnoUp ((hs1.modStp fun x => { x with base := s1.steepleFrac, baseAt := s1.now }).setStp stpOff)).wr
    (f := Reg.STP_STATUS_DN_LOCK) (by decide) 0).wr (f := Reg.STP_STATUS_DN_CAL) (by decide) 0).wr
    (f := Reg.STP_STATUS_CAL_VALID) (by decide) 0).modStp fun x => { x with slew := 0, healing := false, dnCount := 0 }
  have hs2 : FitKept s s2 :=
    (hs1.ite hoff).ite (((hnoUp hs1).ite (hnoUp hs1).toHead).ite (hacquire.ite (hacquire.ite hs1)))
  exact hs2.dropRefs

theorem adopt_fitKept {s : State} {cls : Nat} (h : s.fitPending cls = true) : FitKept (s.fitAdoptClass cls) (s.adopt cls) := by
  have hclass := FitKept.refl (s.fitAdoptClass cls)
  unfold State.adopt
  rw [if_neg (by simp [h])]
  exact (hclass.adoptMantle (cls - 2)).ite ((hclass.modThm _).ite (hclass.adoptRole.ite hclass))

theorem fitSettle_pending (s : State) : s.fitSettle.rd Reg.FIT_PENDING_CLASS = s.rd Reg.FIT_PENDING_CLASS := by
  unfold State.fitSettle
  split
  · rw [raise_rd (by decide), State.rd, fitEnd_reg (by decide) (by decide), State.rd]
  · rfl

/-- With no class pending the fitting ends ADOPTED. -/
theorem fitSettle_last {s : State} (h : s.rd Reg.FIT_PENDING_CLASS = 0) :
    s.fitSettle.rd Reg.FIT_STATUS_STATE = 0 ∧ s.fitSettle.rd Reg.FIT_STATUS_RESULT = 1 := by
  rw [State.fitSettle, if_pos h, raise_rd (by decide), raise_rd (by decide)]
  exact ⟨fitEnd_state s 1, fitEnd_result s 1⟩

theorem fitAdoptClass_pending {s : State} {cls : Nat} (h : s.fitPending cls = true) : s.fitAdoptClass cls =
    ((s.fitRelease cls).wr Reg.FIT_PENDING_CLASS (s.rd Reg.FIT_PENDING_CLASS - 2 ^ cls)).fitSettle := if_pos h

theorem fitRelease_pending (s : State) (cls : Nat) :
    ((s.fitRelease cls).wr Reg.FIT_PENDING_CLASS (s.rd Reg.FIT_PENDING_CLASS - 2 ^ cls)).rd Reg.FIT_PENDING_CLASS =
      s.rd Reg.FIT_PENDING_CLASS - 2 ^ cls := by
  rw [rd_wr (by decide)]
  exact Nat.mod_eq_of_lt (lt_of_le_of_lt (Nat.sub_le _ _) (bitsOf_lt _ _ _))

end Sys2Proof.Machine

open Sys2Proof
open Sys2Proof.Machine

/-- Settles O10: the value is stored first, and with it the idle time is due or not. -/
theorem fittingTimeoutIsClamped : Obligations.FittingTimeoutIsClamped := by
  intro a w s hrun
  have hexec : exec (.fitTimeoutWrite a w) s = .next (s.fitTimeoutWrite w) :=
    congrArg Host.Outcome.next (if_pos (by rw [State.answers, mainUp_of_inRun hrun, Bool.or_true]))
  refine ⟨_, hexec, ?_⟩
  have hstored := idleMs_stored s w
  have hdue := fitIdleDue_iff (s.wr Reg.FIT_TIMEOUT_IDLE_MS (idleMs w))
  rw [hstored, rd_wr_off (by decide)] at hdue
  cases hcase : (s.wr Reg.FIT_TIMEOUT_IDLE_MS (idleMs w)).fitIdleDue with
  | true =>
    obtain ⟨hstate, hresult, -⟩ := fitEnd_raise (s.wr Reg.FIT_TIMEOUT_IDLE_MS (idleMs w)) (result := 4) (by decide)
    rw [fitTimeoutWrite_due hcase]
    refine ⟨?_, fun _ _ => ⟨hstate, hresult⟩, fun hopen => absurd (hdue.mp hcase).1 hopen⟩
    rw [raise_rd (by decide), State.rd, fitEnd_reg (by decide) (by decide)]
    exact hstored
  | false =>
    rw [fitTimeoutWrite_early hcase]
    refine ⟨hstored, fun hopen hidle => ?_, fun _ o ho => reg_wr_other ho⟩
    rw [hdue.mpr ⟨hopen, hidle⟩] at hcase
    contradiction

/-- Settles O11: an overflow and a refusal do not come to the values; for one register without checks the steps of the commit are followed. -/
theorem fittingCommits : Obligations.FittingCommits := by
  refine fun a s hrun => ⟨fun howns hover => ?_, fun hother => ?_, fun off w howns hover hrwf hcfg hchecks hstaged => ?_⟩
  · have hf : FitDiscarded s (s.commit a.val) 6 := by
      rw [commit_overflow howns hover]
      exact fitEnd_raise s (by decide)
    obtain ⟨t, h, hstate, hresult, hstaged, -, hreg⟩ := fitCmd_discards hrun a.val (f := fun t => t.commit a.val) hf
    exact ⟨t, congrArg Host.Outcome.next h, hstate, hresult, hstaged, fun o ho => hreg o (rwf_notMem_fittingRegs ho)⟩
  · obtain ⟨t, h, -, hstaged, hstatus, -⟩ := fitCmd_refused hrun a.val (f := fun t => t.commit a.val) (commit_other hother)
    exact ⟨t, congrArg Host.Outcome.next h, hstaged, hstatus⟩
  · obtain ⟨f, hcommit⟩ := commit_run howns hover (by simpa [hstaged] using hcfg.symm)
    obtain ⟨hempty, hmeas, hreg⟩ := fitRun_installs hstaged hchecks
    have hpwr : (s.fitRun.modPwr f).reg Reg.PWR_STATUS = s.reg Reg.PWR_STATUS :=
      (hreg _ pwrStatus_notMem_fittingRegs).trans (if_neg (pwrStatus_ne_rwf hrwf))
    obtain ⟨n, h⟩ := fitCmdWrite_of_inRun hrun a.val (f := fun t => t.commit a.val) (by rw [hcommit, hpwr])
    rw [hcommit] at h
    exact ⟨_, congrArg Host.Outcome.next h, hempty, (hreg off (rwf_notMem_fittingRegs hrwf)).trans (if_pos rfl), hmeas⟩

/-- Settles O12: the class is released and its bit cleared, and what its block does on adopting leaves the fitting block alone. -/
theorem fittingAdopts : Obligations.FittingAdopts := by
  intro cls s hrun
  have hexec : exec (.fitAdopt cls) s = .next (s.adopt cls.val) := congrArg Host.Outcome.next (if_pos (mainUp_of_inRun hrun))
  refine ⟨fun hpending => ⟨_, hexec, ?_⟩, fun hnot => ?_⟩
  · have hkept := adopt_fitKept hpending
    have hreleased := fitRelease_pending s cls.val
    rw [hkept.1, hkept.rd (by decide), hkept.rd (by decide), hkept.rd (by decide), fitAdoptClass_pending hpending]
    refine ⟨(fitSettle_parts _).2.1, (fitSettle_pending _).trans hreleased, fun hlast => fitSettle_last ?_⟩
    rw [hreleased, hlast, Nat.sub_self]
  · rw [hexec, State.adopt, if_pos (by simp [hnot])]

end

section
/-!
PROOFS. Scope: an admin command taken up, refused or carried out, and what the completion queues and the commands outstanding are after a
completion (06 R185, R196, R214, R215).
-/
namespace Sys2Proof.Machine

/-! ### What a completion leaves of the queues -/

/-- A signal changes the coalescing counts and the PCIe state of controllers, and nothing else of the NVM subsystem. -/
def SignalRest (s t : State) : Prop :=
  t.nvme = { s.nvme with ctrls := t.nvme.ctrls } ∧ ∀ k, t.ctrl k = { s.ctrl k with coal := (t.ctrl k).coal, pcie := (t.ctrl k).pcie }

theorem SignalRest.refl (s : State) : SignalRest s s := ⟨rfl, fun _ => rfl⟩

theorem SignalRest.trans {s t u : State} (h : SignalRest s t) (g : SignalRest t u) : SignalRest s u := by
  refine ⟨?_, fun k => ?_⟩
  · rw [g.1, h.1]
  · rw [g.2 k, h.2 k]

theorem SignalRest.setCtrl (s : State) (c : Nat) (x : Ctrl) (h : x = { s.ctrl c with coal := x.coal, pcie := x.pcie }) :
    SignalRest s (s.setCtrl c x) := by
  refine ⟨rfl, fun k => ?_⟩
  rw [ctrl_setCtrl]
  split
  · subst k
    exact h
  · rfl

theorem msix_signalRest (s : State) (c vec : Nat) : SignalRest s (s.msix c vec) := by
  unfold State.msix
  dsimp only
  split
  · exact .refl s
  · split
    · exact .setCtrl s c _ rfl
    · exact ⟨rfl, fun _ => rfl⟩

theorem cqSignal_signalRest (s : State) (c q vec : Nat) : SignalRest s (s.cqSignal c q vec) := by
  unfold State.cqSignal
  dsimp only
  split
  · exact .setCtrl s c _ rfl
  · split
    · exact msix_signalRest s c vec
    · split
      · exact (SignalRest.setCtrl s c _ rfl).trans (msix_signalRest _ c vec)
      · exact .setCtrl s c _ rfl

theorem SignalRest.outs {s t : State} (h : SignalRest s t) : t.nvme.outs = s.nvme.outs := by rw [h.1]
theorem SignalRest.cqs {s t : State} (h : SignalRest s t) (k : Nat) : (t.ctrl k).cqs = (s.ctrl k).cqs := by rw [h.2 k]

/-- A completion queue after a new entry: only its tail moves. -/
def Cq.advance (x : Cq) : Cq := { x with tail := if x.size ≤ x.tail + 1 then 0 else x.tail + 1 }

/-- Every completion queue is as it was but for its tail, where its identifier names it alone; no identifier comes or goes. -/
def CqsKept (l m : SMap Cq) : Prop :=
  m.map Prod.fst = l.map Prod.fst ∧
  ∀ f ∈ l, (∀ e ∈ l, e.1 = f.1 → e = f) → ∃ n, (f.1, { f.2 with tail := n }) ∈ m

theorem CqsKept.refl (l : SMap Cq) : CqsKept l l := ⟨rfl, fun f hf _ => ⟨f.2.tail, hf⟩⟩

theorem CqsKept.advance {l : SMap Cq} {q : Nat} {e : Nat × Cq} (he : l.find? (fun e => e.1 == q) = some e) :
    CqsKept l (l.map fun f => if f.1 == q then (q, e.2.advance) else f) := by
  have hq : e.1 = q := by simpa using List.find?_some he
  refine ⟨?_, fun f hf halone => ?_⟩
  · rw [List.map_map]
    refine List.map_congr_left fun f _ => ?_
    by_cases hfq : f.1 = q <;> simp [hfq]
  · by_cases hfq : f.1 = q
    · obtain rfl : e = f := halone e (List.mem_of_find?_eq_some he) (hq.trans hfq.symm)
      exact ⟨_, List.mem_map.mpr ⟨e, hf, by rw [if_pos (by simp [hfq]), hq]; rfl⟩⟩
    · exact ⟨f.2.tail, List.mem_map.mpr ⟨f, hf, if_neg (by simp [hfq])⟩⟩

theorem cqsKept_setCtrl (s : State) (c : Nat) (x : Ctrl) (h : CqsKept (s.ctrl c).cqs x.cqs) (k : Nat) :
    CqsKept (s.ctrl k).cqs ((s.setCtrl c x).ctrl k).cqs := by
  rw [ctrl_setCtrl]
  split
  · subst k
    exact h
  · exact .refl _

/-- A completion takes its own command from those outstanding, and moves the tail of one completion queue at most. -/
theorem post_queues (s : State) (x : Cpl) :
    (s.post x).nvme.outs = s.nvme.outs.filter (fun o => !(o.ctrl == x.ctrl && o.sq == x.sq && o.cid == x.cid)) ∧
    ∀ k, CqsKept (s.ctrl k).cqs ((s.post x).ctrl k).cqs := by
  unfold State.post
  split
  next hout =>
    refine ⟨(List.filter_eq_self.mpr fun o ho => ?_).symm, fun k => .refl _⟩
    simp only [State.outstanding, Bool.not_eq_true', Bool.or_eq_false_iff, List.any_eq_false] at hout
    exact Bool.not_eq_true' _ ▸ Bool.eq_false_iff.mpr (hout.2 o ho)
  next hout =>
    extract_lets n1 s1 k q
    clear_value q
    split
    · exact ⟨rfl, fun _ => .refl _⟩
    · split
      next e he =>
        have hkept := cqsKept_setCtrl s1 x.ctrl { k with cqs := k.cqs.map fun f => if f.1 == q then (q, e.2.advance) else f } (.advance he)
        dsimp only
        split
        · have hsignal := cqSignal_signalRest (s1.setCtrl x.ctrl { k with cqs := k.cqs.map fun f => if f.1 == q then (q, e.2.advance) else f })
            x.ctrl q e.2.vector
          exact ⟨hsignal.outs, fun j => (hsignal.cqs j).symm ▸ hkept j⟩
        · exact ⟨rfl, hkept⟩
      next =>
        split
        · have hsignal := cqSignal_signalRest s1 x.ctrl 0 0
          exact ⟨hsignal.outs, fun j => (hsignal.cqs j).symm ▸ .refl _⟩
        · exact ⟨rfl, fun _ => .refl _⟩

theorem logError_cqs (s : State) (c sq cid sct sc nsid k : Nat) : ((s.logError c sq cid sct sc nsid).ctrl k).cqs = (s.ctrl k).cqs := by
  rw [State.logError, ctrl_setCtrl]
  split
  · subst k
    rfl
  · rfl

theorem complete_cqs (s : State) (c : Sqe) (st : Status) (dw0 dw1 : Nat) (data : List Byte) (k : Nat) :
    CqsKept (s.ctrl k).cqs ((s.complete c st dw0 dw1 data).ctrl k).cqs := by
  unfold State.complete
  dsimp only
  split
  · exact (post_queues _ _).2 k
  · rw [← logError_cqs s c.ctrl.val c.sq c.cid st.sct st.sc c.nsid k]
    exact (post_queues _ _).2 k

/-! ### A command that nothing turns away -/

section
variable {s : State} {c : Sqe} {kind : AdminKind} {i : Instr} {f : State → State}

theorem exec_admin (hruns : Safety.runs s c kind) (hexec : exec i s = .next (s.admin c kind f)) : exec i s = .next (f (s.taken c)) :=
  hexec.trans (congrArg Host.Outcome.next (admin_run f hruns.1 hruns.2))

/-- A command that has no form over NVMe-MI, from a queue. -/
theorem exec_queued (hmi : c.mi = false) (hruns : Safety.runs s c kind) (hexec : exec i s = .next (if c.mi then s else s.admin c kind f)) :
    exec i s = .next (f (s.taken c)) :=
  exec_admin hruns (hexec.trans (congrArg Host.Outcome.next (if_neg (by simp [hmi]))))

theorem answered_of_admin {st : Status} {dw0 dw1 : Nat} {data : List Byte} (hruns : Safety.runs s c kind)
    (hexec : exec i s = .next (s.admin c kind f)) (hf : f (s.taken c) = (s.taken c).complete c st dw0 dw1 data) :
    Safety.answered s i (Safety.cpl c st dw0 dw1 data) :=
  ⟨_, (exec_admin hruns hexec).trans (congrArg _ hf), completed_taken s c st dw0 dw1 data⟩

theorem settled_of_admin {st : Status} {dw0 dw1 : Nat} {data : List Byte} (hruns : Safety.runs s c kind)
    (hexec : exec i s = .next (s.admin c kind fun t => (f t).settleDma)) (hf : f (s.taken c) = (s.taken c).complete c st dw0 dw1 data) :
    Safety.settled s i (Safety.cpl c st dw0 dw1 data) :=
  ⟨_, (exec_admin hruns hexec).trans (by rw [hf]), completed_taken s c st dw0 dw1 data⟩

theorem answered_of_queued {st : Status} {dw0 dw1 : Nat} {data : List Byte} (hmi : c.mi = false) (hruns : Safety.runs s c kind)
    (hexec : exec i s = .next (if c.mi then s else s.admin c kind f)) (hf : f (s.taken c) = (s.taken c).complete c st dw0 dw1 data) :
    Safety.answered s i (Safety.cpl c st dw0 dw1 data) :=
  ⟨_, (exec_queued hmi hruns hexec).trans (congrArg _ hf), completed_taken s c st dw0 dw1 data⟩

theorem adminOr_run {no : State → Status → State} (hacts : s.acts c = true) (h : s.adminRefused c kind = none) :
    s.adminOr c kind no f = f (s.taken c) := by
  unfold State.adminOr
  rw [if_neg (by simp [hacts]), h]
  rfl

theorem adminOr_refused {no : State → Status → State} {st : Status} (hacts : s.acts c = true) (h : s.adminRefused c kind = some st) :
    s.adminOr c kind no f = no (s.taken c) st := by
  unfold State.adminOr
  rw [if_neg (by simp [hacts]), h]
  rfl

/-- An admin command that is turned away completes with the status of what turns it away. -/
theorem answered_of_refused {st : Status} (hacts : s.acts c = true) (hrefused : s.adminRefused c kind = some st)
    (hexec : exec i s = .next (s.admin c kind f)) : Safety.answered s i (Safety.cpl c st 0 0 []) := by
  rw [State.admin, adminOr_refused hacts hrefused] at hexec
  exact ⟨_, hexec, completed_taken s c st 0 0 []⟩

end

/-! ### A command that stores a value and completes -/

section
variable {s u : State} {c : Sqe} (st : Status) (dw0 dw1 : Nat) (data : List Byte)

/-- A command completes where it is still outstanding and nothing has completed since it was taken up. -/
theorem complete_cpls_of_outs (houts : u.nvme.outs = (s.taken c).nvme.outs) (hcpls : u.nvme.cpls = s.nvme.cpls) :
    (u.complete c st dw0 dw1 data).nvme.cpls = s.nvme.cpls ++ [Safety.cpl c st dw0 dw1 data] := by
  have hout : u.outstanding c.mi c.ctrl.val c.sq c.cid = true := by
    rw [State.outstanding, houts]
    exact taken_outstanding s c
  rw [complete_cpls st dw0 dw1 data hout, hcpls]
  rfl

theorem complete_onlyNvme (h : Safety.onlyNvme s u) : Safety.onlyNvme s (u.complete c st dw0 dw1 data) :=
  onlyNvme_trans h (onlyNvme_complete _ _ _ _ _ _)

end

theorem taken_onlyNvme (s : State) (c : Sqe) : Safety.onlyNvme s (s.taken c) := by
  obtain ⟨o, q, h⟩ := taken_frame s c
  rw [h]
  rfl

theorem taken_cpls (s : State) (c : Sqe) : (s.taken c).nvme.cpls = s.nvme.cpls := (taken_update s c).2.2.2

/-- The state in which a command taken up has changed its controller. -/
def State.ctrlStored (s : State) (c : Sqe) (g : Ctrl → Ctrl) : State := (s.taken c).modCtrl c.ctrl.val g

/-- Such a command completes, and but for what a completion changes its controller is as it changed it. -/
theorem ctrlStored_complete (s : State) (c : Sqe) (g : Ctrl → Ctrl) (st : Status) (dw0 dw1 : Nat) (data : List Byte) :
    ((s.ctrlStored c g).complete c st dw0 dw1 data).nvme.cpls = s.nvme.cpls ++ [Safety.cpl c st dw0 dw1 data] ∧
    Safety.onlyNvme s ((s.ctrlStored c g).complete c st dw0 dw1 data) ∧
    ∃ (cqs : SMap Cq) (log : List ErrEntry) (n : Nat) (coal : SMap (Nat × Nat)) (pcie : Pcie),
      ((s.ctrlStored c g).complete c st dw0 dw1 data).ctrl c.ctrl.val =
        { g (s.ctrl c.ctrl.val) with cqs := cqs, errLog := log, errCount := n, coal := coal, pcie := pcie } ∧
      CqsKept (g (s.ctrl c.ctrl.val)).cqs cqs := by
  have hctrl : (s.ctrlStored c g).ctrl c.ctrl.val = g (s.ctrl c.ctrl.val) := by rw [State.ctrlStored, ctrl_modCtrl_same, taken_ctrl]
  have hrest := (complete_rest (s.ctrlStored c g) c st dw0 dw1 data).1.2 c.ctrl.val
  have hcqs := complete_cqs (s.ctrlStored c g) c st dw0 dw1 data c.ctrl.val
  rw [hctrl] at hrest hcqs
  exact ⟨complete_cpls_of_outs st dw0 dw1 data rfl (taken_cpls s c),
    complete_onlyNvme st dw0 dw1 data (onlyNvme_trans (taken_onlyNvme s c) (onlyNvme_setCtrl _ _ _)), _, _, _, _, _, hrest, hcqs⟩

/-- A completed command leaves the registers, the fitting and the clock. -/
theorem complete_outside (s : State) (c : Sqe) (st : Status) (dw0 dw1 : Nat) (data : List Byte) :
    (∀ o, (s.complete c st dw0 dw1 data).reg o = s.reg o) ∧ (∀ f, (s.complete c st dw0 dw1 data).rd f = s.rd f) ∧
    (s.complete c st dw0 dw1 data).fit = s.fit ∧ (s.complete c st dw0 dw1 data).mnt = s.mnt ∧ (s.complete c st dw0 dw1 data).win = s.win := by
  obtain ⟨e, n, h⟩ := complete_frame s c st dw0 dw1 data
  rw [h]
  exact ⟨fun _ => rfl, fun _ => rfl, rfl, rfl, rfl⟩

theorem taken_reg (s : State) (c : Sqe) (o : Nat) : (s.taken c).reg o = s.reg o := by
  obtain ⟨p, q, h⟩ := taken_frame s c
  rw [h]
  rfl

theorem taken_rd (s : State) (c : Sqe) (f : Field) : (s.taken c).rd f = s.rd f := (taken_patch s c).2.2.2.1 f

/-! ### Numbers in bytes -/

/-- A number written among bytes reads as written, cut to its bytes. -/
theorem leAt_append_leBytes (a r : List Byte) (n v : Nat) : leAt (a ++ (leBytes n v ++ r)) a.length n = v % 256 ^ n := by
  induction n generalizing a v with
  | zero => exact (Nat.mod_one v).symm
  | succ n ih =>
    have hrest := ih (a ++ [BitVec.ofNat 8 v]) (v / 256)
    rw [List.append_assoc, List.length_append] at hrest
    have hbyte : byteAt (a ++ (leBytes (n + 1) v ++ r)) a.length = v % 256 := by simp [byteAt, leBytes]
    rw [leAt, hbyte, Nat.pow_succ', Nat.mod_mul, ← hrest]
    rfl

theorem leAt_leBytes (r : List Byte) (n v : Nat) : leAt (leBytes n v ++ r) 0 n = v % 256 ^ n := leAt_append_leBytes [] r n v

/-! ### A wake (20 R694) -/

theorem noteWake_onlyRegs (s : State) (set fromSt abortPoint time : Nat) : OnlyRegs s (s.noteWake set fromSt abortPoint time) := by
  obtain ⟨r, h⟩ := ((((OnlyRegs.wr ⟨s.regs, rfl⟩ Reg.PWR_LAST_WAKE_SOURCE (lowestCode set)).wr Reg.PWR_LAST_WAKE_PENDING set).wr
    Reg.PWR_LAST_WAKE_FROM fromSt).wr Reg.PWR_LAST_WAKE_ABORT_POINT abortPoint : OnlyRegs s _)
  rw [State.noteWake, h]
  exact ⟨_, rfl⟩

/-- A wake changes what shows the power state and the wakes, and no doorbell kept. -/
theorem wake_frame (s : State) (code : Nat) : ∃ r p, s.wake code = { s with regs := r, pwr := p } ∧ p.doorbells = s.pwr.doorbells := by
  unfold State.wake
  split
  · exact ⟨s.regs, s.pwr, rfl, rfl⟩
  · split
    · split
      · exact ⟨s.regs, _, rfl, rfl⟩
      · exact ⟨s.regs, s.pwr, rfl, rfl⟩
    · split
      · obtain ⟨r, h⟩ := ((noteWake_onlyRegs s (2 ^ code) s.pwrState 0 s.steepleTime).wr Reg.PWR_STATUS_PHASE 2).wr Reg.PWR_STATUS_TARGET 0
        rw [State.beginExit, h]
        exact ⟨r, _, rfl, rfl⟩
      · split
        · obtain ⟨r, h⟩ := noteWake_onlyRegs s (s.rd Reg.PWR_LAST_WAKE_PENDING ||| 2 ^ code) (s.rd Reg.PWR_LAST_WAKE_FROM) 0 s.steepleTime
          exact ⟨r, s.pwr, h, rfl⟩
        · exact ⟨s.regs, s.pwr, rfl, rfl⟩

end Sys2Proof.Machine
end

section
/-!
PROOFS. Scope: Identify, Get Features, Asynchronous Event Request, Abort, and the commands that are always refused (06 R181, R186, R194, R197, R216).
-/
namespace Sys2Proof.Machine

/-! ### What the answers are read from -/

section
variable (s : State) (c : Sqe)

theorem taken_nsOf (d : Sqe) : (s.taken c).nsOf d = s.nsOf d := by
  obtain ⟨o, q, h⟩ := taken_frame s c
  rw [h]
  rfl

theorem taken_identify : (∀ k, (s.taken c).identifyCtrl k = s.identifyCtrl k) ∧ (∀ n, (s.taken c).nsList n = s.nsList n) ∧
    (s.taken c).identifyIndep = s.identifyIndep := by
  obtain ⟨o, q, h⟩ := taken_frame s c
  rw [h]
  exact ⟨fun _ => rfl, fun _ => rfl, rfl⟩

theorem taken_blob : (s.taken c).blob = s.blob := by
  obtain ⟨o, q, h⟩ := taken_frame s c
  rw [h]
  rfl

theorem taken_feature (d : Sqe) (dflt : Bool) : (s.taken c).feature d dflt = s.feature d dflt := by
  obtain ⟨o, q, h⟩ := taken_frame s c
  rw [h]
  rfl

end

/-! ### Identify -/

section
variable {s : State} {c : Sqe}

theorem identify_ns {n : Ns} (hcns : dwBits c.cdw10 0 8 = 0) (hnsid : c.nsid ≠ 0xFFFFFFFF) (hns : s.nsOf c = some n) :
    s.identify c = s.complete c stOk 0 0 n.identify := by
  unfold State.identify
  dsimp only
  rw [if_pos hcns, if_neg hnsid, hns]

theorem identify_noNs (hcns : dwBits c.cdw10 0 8 = 0) (hns : s.nsOf c = none) : s.identify c = s.fail c stInvalidNs := by
  unfold State.identify
  dsimp only
  rw [if_pos hcns, hns, ite_self]

theorem identify_ctrl (hcns : dwBits c.cdw10 0 8 = 1) : s.identify c = s.complete c stOk 0 0 (s.identifyCtrl c.ctrl.val) := by
  unfold State.identify
  dsimp only
  rw [hcns]
  rfl

theorem identify_list (hcns : dwBits c.cdw10 0 8 = 2) (hnsid : c.nsid < 0xFFFFFFFE) : s.identify c = s.complete c stOk 0 0 (s.nsList c.nsid) := by
  unfold State.identify
  dsimp only
  rw [if_neg (by omega), if_neg (by omega), if_pos (.inl hcns), if_neg (by omega)]

theorem identify_indep {n : Ns} (hcns : dwBits c.cdw10 0 8 = 8) (hns : s.nsOf c = some n) : s.identify c = s.complete c stOk 0 0 s.identifyIndep := by
  unfold State.identify
  dsimp only
  rw [hcns, hns]
  rfl

theorem identify_other (hcns : 8 < dwBits c.cdw10 0 8) : s.identify c = s.fail c stInvalidField := by
  unfold State.identify
  dsimp only
  rw [if_neg (by omega), if_neg (by omega), if_neg (by omega), if_neg (by omega), if_neg (by omega), if_neg (by omega), if_neg (by omega)]

/-! ### Get Features -/

theorem feature_unknown (h : featureIds.contains (dwBits c.cdw10 0 8) = false) (dflt : Bool) : s.feature c dflt = none := by
  simp only [featureIds, List.contains_eq_mem, List.mem_cons, List.not_mem_nil, or_false, decide_eq_false_iff_not, not_or] at h
  unfold State.feature
  dsimp only
  split
  iterate 14 (· omega)
  rfl

theorem feature_ceiling (h : dwBits c.cdw10 0 8 = 0xC1) : s.feature c false = some (s.win.ceiling, 0, []) := by
  unfold State.feature
  dsimp only
  rw [h]
  rfl

theorem feature_mantle (h : dwBits c.cdw10 0 8 = 0xC0) (dflt : Bool) : s.feature c dflt = some (0, 0, s.blob) := by
  unfold State.feature
  dsimp only
  rw [h]
  rfl

theorem getFeature_none (h : ∀ dflt, s.feature c dflt = none) : s.getFeature c = s.fail c stInvalidField := by
  unfold State.getFeature
  dsimp only
  rw [h]

/-- A feature the device has: its value, or what may be done with it. -/
theorem getFeature_some {v : Nat × Nat × List Byte} (h : s.feature c (dwBits c.cdw10 8 3 == 1 || dwBits c.cdw10 8 3 == 2) = some v) :
    (dwBits c.cdw10 8 3 < 3 → s.getFeature c = s.complete c stOk v.1 v.2.1 v.2.2) ∧
    (dwBits c.cdw10 8 3 = 3 → s.getFeature c = s.complete c stOk 4 0 []) := by
  unfold State.getFeature
  dsimp only
  rw [h]
  dsimp only
  refine ⟨fun hsel => ?_, fun hsel => ?_⟩
  · rw [if_neg (by omega), if_neg (by omega)]
  · rw [if_neg (by omega), if_pos hsel]

/-- Get Mantle State is Get Features of 0xC0. -/
theorem getMantle_eq : s.getMantle c = s.getFeature { c with cdw10 := putBits c.cdw10 0 8 0xC0 } := rfl

theorem getMantle_current (hsel : dwBits c.cdw10 8 3 = 0) : s.getMantle c = s.complete c stOk 0 0 s.blob := by
  have hid : dwBits (putBits c.cdw10 0 8 0xC0) 0 8 = 0xC0 := bitsOf_putBits (by decide)
  have hkeep : dwBits (putBits c.cdw10 0 8 0xC0) 8 3 = 0 := (bitsOf_putBits_other (by decide)).trans hsel
  obtain ⟨hvalue, -⟩ := getFeature_some (s := s) (c := { c with cdw10 := putBits c.cdw10 0 8 0xC0 }) (feature_mantle hid _)
  exact getMantle_eq.trans (hvalue (hkeep.trans_lt (by decide)))

end

/-! ### Asynchronous Event Request -/

section
variable {s : State} {c : Sqe} (hmi : c.mi = false) (hsq : c.sq = 0)
include hmi hsq

/-- The request that a waiting event completes. -/
theorem aer_waiting {a : Aen} {rest : List Aen} (h : (s.ctrl c.ctrl.val).aenQueue = a :: rest) : s.aer c =
    (s.modCtrl c.ctrl.val fun k => { k with aenQueue := rest, withheld := k.withheld ++ [a.page] }).complete c stOk (aenDw0 a) 0 [] := by
  unfold State.aer
  dsimp only
  rw [h]
  unfold State.complete
  rw [hmi, hsq]
  rfl

omit hmi hsq in
theorem aer_held (h : (s.ctrl c.ctrl.val).aenQueue = []) : s.aer c =
    if 16 ≤ (s.ctrl c.ctrl.val).aers.length then s.fail c stAerLimit
    else s.modCtrl c.ctrl.val fun k => { k with aers := k.aers ++ [c.cid] } := by
  unfold State.aer
  dsimp only
  split
  next hwaits =>
    rw [h] at hwaits
    cases hwaits
  next => rfl

end

/-! ### Abort -/

/-- The end of a request of another identifier leaves a command outstanding, and takes no request from its controller. -/
theorem postEnded_other {s : State} {k sq cid n : Nat} {st : Status} (hne : cid ≠ n) (hout : s.outstanding false k sq n = true) :
    (s.postEnded k sq cid st).outstanding false k sq n = true := by
  simp only [State.outstanding, Bool.false_or, List.any_eq_true] at hout ⊢
  obtain ⟨o, ho, hmatch⟩ := hout
  refine ⟨o, ?_, hmatch⟩
  rw [State.postEnded, (post_queues _ _).1]
  refine List.mem_filter.mpr ⟨ho, ?_⟩
  simp only [Bool.and_eq_true, beq_iff_eq] at hmatch
  simp [hmatch.2, Ne.symm hne]

theorem postEnded_aers (s : State) (k sq cid : Nat) (st : Status) (j : Nat) : ((s.postEnded k sq cid st).ctrl j).aers = (s.ctrl j).aers := by
  have hlog : cplRest s (s.logError k sq cid st.sct st.sc 0) := cplRest_setCtrl s _ _ rfl
  have hpost := (post_rest (s.logError k sq cid st.sct st.sc 0) ⟨k, false, sq, cid, st.sct, st.sc, st.dnr, st.crd, 0, 0, []⟩).1
  rw [State.postEnded, (cplRest_trans hlog hpost).2 j]

section
variable {s : State} {c : Sqe}

theorem abortOne_aer {k cid : Nat} (h : (s.ctrl k).aers.contains cid = true) :
    s.abortOne k 0 cid = some ((s.modCtrl k fun x => { x with aers := x.aers.filter fun n => n != cid }).postEnded k 0 cid stAbortRequested) := by
  unfold State.abortOne
  exact if_pos ⟨rfl, h⟩

/-- No command outstanding under an identifier may be aborted. -/
theorem abortOne_none {k sq cid : Nat} (hsq : sq ≠ 0) (h : ∀ o ∈ s.nvme.outs, o.ctrl = k → o.sq = sq → o.cid = cid → o.abortable = false) :
    s.abortOne k sq cid = none := by
  unfold State.abortOne
  dsimp only
  rw [if_neg (by simp [hsq])]
  split
  · rfl
  next o ho =>
    have hmatch := List.find?_some ho
    simp only [Bool.and_eq_true, beq_iff_eq] at hmatch
    rw [if_pos (by simp [h o (List.mem_of_find?_eq_some ho) hmatch.1.1 hmatch.1.2 hmatch.2])]

/-- The commands outstanding once a command is taken up: at most its own is new. -/
theorem mem_outs_taken {o : Out} (h : o ∈ (s.taken c).nvme.outs) : o ∈ s.nvme.outs ∨ (o.sq = c.sq ∧ o.cid = c.cid) := by
  unfold State.taken State.fetched at h
  split at h
  · exact .inl h
  · split at h
    · exact .inl h
    · rcases List.mem_append.mp h with h | h
      · exact .inl h
      · rw [List.mem_singleton.mp h]
        exact .inr ⟨rfl, rfl⟩

/-- An Asynchronous Event Request aborted: it leaves its controller, and the Abort is outstanding still. -/
theorem abortOne_taken {cid : Nat} (hmi : c.mi = false) (hsq : c.sq = 0) (hne : cid ≠ c.cid) (haer : (s.ctrl c.ctrl.val).aers.contains cid = true) :
    ∃ u : State, (s.taken c).abortOne c.ctrl.val 0 cid = some u ∧ u.outstanding c.mi c.ctrl.val c.sq c.cid = true ∧
      (u.ctrl c.ctrl.val).aers = (s.ctrl c.ctrl.val).aers.filter fun n => n != cid := by
  refine ⟨_, abortOne_aer (by rw [taken_ctrl]; exact haer), ?_, ?_⟩
  · have hout := taken_outstanding s c
    rw [hmi, hsq] at hout ⊢
    exact postEnded_other hne hout
  · rw [postEnded_aers, ctrl_modCtrl_same, taken_ctrl]

end

end Sys2Proof.Machine

open Sys2Proof
open Sys2Proof.Machine

/-- Settles O30: each command completes, on the state that took it up, with what its operands select. -/
theorem adminQueriesAnswer : Obligations.AdminQueriesAnswer := by
  intro c s
  refine ⟨fun hruns => ?_, fun hruns => ⟨answered_of_admin hruns rfl rfl, answered_of_admin hruns rfl rfl⟩, fun hruns hmi hsq => ?_⟩
  · obtain ⟨hctrl, hlist, hindep⟩ := taken_identify s c
    have hid {st : Status} {d : List Byte} (h : (s.taken c).identify c = (s.taken c).complete c st 0 0 d) :
        Safety.answered s (.identify c) (Safety.cpl c st 0 0 d) := answered_of_admin hruns rfl h
    have hget {st : Status} {dw0 dw1 : Nat} {d : List Byte} (h : (s.taken c).getFeature c = (s.taken c).complete c st dw0 dw1 d) :
        Safety.answered s (.getFeatures c) (Safety.cpl c st dw0 dw1 d) := answered_of_admin hruns rfl h
    refine ⟨fun hcns hnsid n hns => hid (identify_ns hcns hnsid ((taken_nsOf s c c).trans hns)),
      fun hcns hns => hid (identify_noNs hcns ((taken_nsOf s c c).trans hns)),
      fun hcns => hid (hctrl c.ctrl.val ▸ identify_ctrl hcns), fun hcns hnsid => hid (hlist c.nsid ▸ identify_list hcns hnsid),
      fun hcns n hns => hid (hindep ▸ identify_indep hcns ((taken_nsOf s c c).trans hns)), fun hcns => hid (identify_other hcns),
      fun hunknown => hget (getFeature_none (feature_unknown hunknown)), fun v hv => ?_, fun hfid hsel => ?_, fun hsel => ?_,
      fun hmi hsq hqid hne haer => ?_, fun hmi hne hqid hkept => ?_⟩
    · obtain ⟨hvalue, hcaps⟩ := getFeature_some ((taken_feature s c c _).trans hv)
      exact ⟨fun hsel => hget (hvalue hsel), fun hsel => hget (hcaps hsel)⟩
    · obtain ⟨hvalue, -⟩ := getFeature_some (s := s.taken c) (c := c) (v := (s.win.ceiling, 0, []))
        (by rw [hsel, taken_feature]; exact feature_ceiling hfid)
      exact hget (hvalue (by omega))
    · exact answered_of_admin hruns rfl (taken_blob s c ▸ getMantle_current hsel)
    · have hrun := exec_queued (i := .abortCommand c) hmi hruns rfl
      obtain ⟨u, habort, hout, haers⟩ := abortOne_taken hmi hsq hne haer
      rw [State.abortCmd, hqid, habort] at hrun
      refine ⟨_, _, hrun, complete_cpls stOk 0 0 [] hout, ?_⟩
      rw [(complete_rest u c stOk 0 0 []).1.2 c.ctrl.val]
      exact haers
    · have hrun := exec_queued (i := .abortCommand c) hmi hruns rfl
      have hnone : (s.taken c).abortOne c.ctrl.val (dwBits c.cdw10 0 16) (dwBits c.cdw10 16 16) = none :=
        abortOne_none hqid fun o ho hk hq hid => (mem_outs_taken ho).elim (fun h => hkept o h hk hq hid)
          fun h => absurd (Prod.ext (hq.symm.trans h.1) (hid.symm.trans h.2)) hne
      rw [State.abortCmd, hnone] at hrun
      exact ⟨_, hrun, completed_taken s c _ _ _ _⟩
  · have hrun := exec_queued (i := .asynchronousEventRequest c) hmi hruns rfl
    refine ⟨fun a rest hqueue => ?_, fun hempty => ⟨fun hroom => ?_, fun hfull => ?_⟩⟩
    · rw [aer_waiting hmi hsq (by rw [taken_ctrl]; exact hqueue)] at hrun
      obtain ⟨hcpls, honly, _, _, _, _, _, hctrl, -⟩ := ctrlStored_complete s c
        (fun k => { k with aenQueue := rest, withheld := k.withheld ++ [a.page] }) stOk (aenDw0 a) 0 []
      exact ⟨_, hrun, hcpls, congrArg Ctrl.aenQueue hctrl, congrArg Ctrl.withheld hctrl, honly⟩
    · rw [aer_held (by rw [taken_ctrl]; exact hempty), taken_ctrl, if_neg (by omega)] at hrun
      refine ⟨_, hrun, ?_, taken_cpls s c, onlyNvme_trans (taken_onlyNvme s c) (onlyNvme_setCtrl _ _ _)⟩
      rw [ctrl_modCtrl_same, taken_ctrl]
    · rw [aer_held (by rw [taken_ctrl]; exact hempty), taken_ctrl, if_pos hfull] at hrun
      exact ⟨_, hrun, completed_taken s c _ _ _ _⟩

end

section
/-!
PROOFS. Scope: doorbells, the fetching of commands, and the creation and deletion of I/O queues (06 R178, R182, R183, R195; 20 R699).
-/
namespace Sys2Proof.Machine

/-! ### Doorbells (R178) -/

/-- A queue of a table after a change of one queue. -/
theorem find_modEntry {α : Type} (m : SMap α) (q p : Nat) (f : α → α) :
    ((modEntry m q f).find? fun e => e.1 == p).map (fun e => e.2) =
      if p = q then ((m.find? fun e => e.1 == q).map fun e => e.2).map f else (m.find? fun e => e.1 == p).map fun e => e.2 := by
  induction m with
  | nil => simp [modEntry]
  | cons e m ih =>
    rw [modEntry, List.map_cons, ← modEntry]
    by_cases hq : e.1 = q
    · rw [if_pos (by simp [hq]), List.find?_cons_of_pos (p := fun e : Nat × α => e.1 == q) (by simp [hq])]
      by_cases hp : p = q
      · rw [List.find?_cons_of_pos (by simp [hp]), if_pos hp]
        rfl
      · rw [List.find?_cons_of_neg (by simp [Ne.symm hp]), List.find?_cons_of_neg (by simp [hq, Ne.symm hp]), ih, if_neg hp, if_neg hp]
    · rw [if_neg (by simp [hq]), List.find?_cons_of_neg (p := fun e : Nat × α => e.1 == q) (by simp [hq])]
      by_cases he : e.1 = p
      · rw [List.find?_cons_of_pos (by simp [he]), List.find?_cons_of_pos (by simp [he]), if_neg fun h => hq (he.trans h)]
      · rw [List.find?_cons_of_neg (by simp [he]), List.find?_cons_of_neg (by simp [he]), ih]

theorem hasSq_modEntry (k : Ctrl) (q p : Nat) (f : Sq → Sq) :
    ({ k with sqs := modEntry k.sqs q f } : Ctrl).hasSq p = if p = q then (k.hasSq q).map f else k.hasSq p := find_modEntry k.sqs q p f

section
variable {s : State} {k : Fin 4} {q n : Nat}

theorem exec_sqTailDoorbell (hrun : s.board.mainRunning = true) (hctrl : s.hasCtrl k.val = true) (hen : (s.ctrl k.val).en = true) :
    exec (.sqTailDoorbell k q n) s = .next (s.sqDoorbell k.val q n) := congrArg Host.Outcome.next (if_pos (by simp [hrun, hctrl, hen]))

theorem exec_cqHeadDoorbell (hup : s.mainUp = true) (hctrl : s.hasCtrl k.val = true) (hen : (s.ctrl k.val).en = true) :
    exec (.cqHeadDoorbell k q n) s = .next (s.cqDoorbell k.val q n) := congrArg Host.Outcome.next (if_pos (by simp [hup, hctrl, hen]))

/-- A submission doorbell in Run. -/
theorem sqDoorbell_run {x : Sq} (hstate : s.pwrState = 0) (hphase : s.pwrPhase = 0) (hx : (s.ctrl k.val).hasSq q = some x) : s.sqDoorbell k.val q n =
    if x.size ≤ n then s.aen k.val ⟨0, 1, 1⟩
    else s.modCtrl k.val fun c => { c with sqs := modEntry c.sqs q fun y => { y with tail := n } } := by
  unfold State.sqDoorbell
  rw [if_neg (by omega), hx]
  dsimp only
  rw [wake_of_run (by exact hstate) (by exact hphase)]
  rfl

/-- A submission doorbell in Deep Sleep. -/
theorem sqDoorbell_deepSleep (hstate : s.pwrState = 3) : (s.sqDoorbell k.val q n).pwr.doorbells = s.pwr.doorbells ++ [(k.val, q, n)] ∧
    (s.sqDoorbell k.val q n).nvme = s.nvme := by
  unfold State.sqDoorbell
  rw [if_pos hstate]
  obtain ⟨r, p, h, hdoorbells⟩ := wake_frame (s.modPwr fun x => { x with doorbells := x.doorbells ++ [(k.val, q, n)] }) 8
  rw [h]
  exact ⟨hdoorbells, rfl⟩

theorem cqDoorbell_found {e : Nat × Cq} (he : ((s.ctrl k.val).cqs.find? fun e => e.1 == q) = some e) : s.cqDoorbell k.val q n =
    if e.2.size ≤ n then s.aen k.val ⟨0, 1, 1⟩
    else s.modCtrl k.val fun c => Ctrl.settleInta { c with cqs := modEntry c.cqs q fun y => { y with head := n } } := by
  unfold State.cqDoorbell
  rw [he]
  rfl

end

/-! ### Arbitration (R183) -/

section
variable {k : Ctrl}

theorem turn_mem {p : Nat} (h : k.ready p ≠ []) : ∃ q, k.turn p = some q ∧ q ∈ k.ready p := by
  unfold Ctrl.turn
  dsimp only
  split
  next q hq => exact ⟨q, rfl, List.mem_of_find?_eq_some hq⟩
  next => exact ⟨_, List.head?_eq_some_head h, List.head_mem h⟩

/-- Some weighted class has commands: the class served has, and at most the credits change. -/
theorem weighted_some {p : Nat} (hp : p ∈ [1, 2, 3]) (h : k.ready p ≠ []) :
    ∃ c k1, k.weighted = some (c, k1) ∧ k1.ready c ≠ [] := by
  have hlive : p ∈ [1, 2, 3].filter fun c => !(k.ready c).isEmpty := List.mem_filter.mpr ⟨hp, by simpa using h⟩
  have hready {c : Nat} (hc : c ∈ [1, 2, 3].filter fun c => !(k.ready c).isEmpty) : k.ready c ≠ [] := by
    simpa using (List.mem_filter.mp hc).2
  unfold Ctrl.weighted
  dsimp only
  generalize [1, 2, 3].filter (fun c => !(k.ready c).isEmpty) = live at hlive hready
  obtain ⟨x, l, rfl⟩ : ∃ x l, live = x :: l := List.exists_cons_of_ne_nil (List.ne_nil_of_mem hlive)
  rw [if_neg (by simp)]
  split
  next c hc => exact ⟨c, k, rfl, hready (List.mem_of_find?_eq_some hc)⟩
  next => exact ⟨x, _, rfl, hready List.mem_cons_self⟩

/-- The class served has commands: one of its queues is served. -/
theorem chooseIo_of_class {c : Nat} {k1 : Ctrl} (hclass : (if !(k.ready 0).isEmpty then some (0, k) else k.weighted) = some (c, k1))
    (h : k1.ready c ≠ []) : ∃ q k2, k.chooseIo = some (q, k2) ∧ q ∈ k1.ready c := by
  unfold Ctrl.chooseIo
  rw [hclass]
  dsimp only
  by_cases hsame : ((k1.ready c).contains k1.burst.1 && k1.burst.2 != 0 && !k1.burstFull) = true
  · rw [if_pos hsame]
    simp only [Bool.and_eq_true] at hsame
    exact ⟨_, _, rfl, List.contains_iff_mem.mp hsame.1.1⟩
  · rw [if_neg hsame]
    obtain ⟨q, hq, hmem⟩ := turn_mem h
    rw [hq]
    exact ⟨q, _, rfl, hmem⟩

theorem chooseIo_urgent (h : k.ready 0 ≠ []) : ∃ q k2, k.chooseIo = some (q, k2) ∧ q ∈ k.ready 0 :=
  chooseIo_of_class (if_pos (by simpa using h)) h

theorem chooseIo_some {p : Nat} (hp : p < 4) (h : k.ready p ≠ []) : ∃ q k2, k.chooseIo = some (q, k2) := by
  by_cases hurgent : k.ready 0 = []
  · have hclass : p ∈ [1, 2, 3] := by
      have hne : p ≠ 0 := fun h0 => h (h0 ▸ hurgent)
      simp only [List.mem_cons, List.not_mem_nil, or_false]
      omega
    obtain ⟨c, k1, hweighted, hready⟩ := weighted_some hclass h
    obtain ⟨q, k2, hchoose, -⟩ := chooseIo_of_class ((if_neg (by simp [hurgent])).trans hweighted) hready
    exact ⟨q, k2, hchoose⟩
  · obtain ⟨q, k2, hchoose, -⟩ := chooseIo_urgent hurgent
    exact ⟨q, k2, hchoose⟩

/-- With commands waiting the arbiter serves a queue: the admin queue first, then an urgent one. -/
theorem choose_some {a : Sq} (ha : k.hasSq 0 = some a) (hwork : a.head ≠ a.tail ∨ ∃ p, p < 4 ∧ k.ready p ≠ []) :
    ∃ q k2, k.choose = some (q, k2) ∧ (a.head ≠ a.tail → q = 0) ∧ (a.head = a.tail → k.ready 0 ≠ [] → q ∈ k.ready 0) := by
  unfold Ctrl.choose
  rw [ha]
  dsimp only
  by_cases hadmin : a.head = a.tail
  · rw [if_neg (by simp [hadmin])]
    by_cases hurgent : k.ready 0 = []
    · obtain ⟨p, hp, hready⟩ := hwork.resolve_left (absurd hadmin)
      obtain ⟨q, k2, hchoose⟩ := chooseIo_some hp hready
      exact ⟨q, k2, hchoose, absurd hadmin, fun _ h => absurd hurgent h⟩
    · obtain ⟨q, k2, hchoose, hmem⟩ := chooseIo_urgent hurgent
      exact ⟨q, k2, hchoose, absurd hadmin, fun _ _ => hmem⟩
  · rw [if_pos (by simp [hadmin])]
    exact ⟨0, k, rfl, fun _ => rfl, fun h => absurd h hadmin⟩

end

theorem fetch_chosen {s : State} {k q : Nat} {k2 : Ctrl} (h : (s.ctrl k).choose = some (q, k2)) (cid : Nat) :
    (s.fetch k cid).nvme.outs = s.nvme.outs ++ [⟨k, q, cid, s.nvme.fetchSeq, false, true⟩] ∧
    (s.fetch k cid).nvme.fetchSeq = s.nvme.fetchSeq + 1 ∧ ∀ j, j ≠ k → (s.fetch k cid).ctrl j = s.ctrl j := by
  unfold State.fetch
  rw [h]
  exact ⟨rfl, rfl, fun j hj => (ctrl_setCtrl _ _ _ _).trans (if_neg hj)⟩

/-! ### The creation and deletion of I/O queues (R182, R195) -/

section
variable {s : State} {c : Sqe}

theorem taken_limits (s : State) (c : Sqe) (k : Nat) : (s.taken c).maxSq k = s.maxSq k ∧ (s.taken c).maxCq k = s.maxCq k ∧
    (s.taken c).maxDepth k = s.maxDepth k ∧ (s.taken c).ioqPairs k = s.ioqPairs k := by
  obtain ⟨o, q, h⟩ := taken_frame s c
  rw [h]
  exact ⟨rfl, rfl, rfl, rfl⟩

/-- A good identifier and a good size, physically contiguous. -/
theorem queueBad_none {most : Nat} {used : Bool} (hlo : 1 ≤ dwBits c.cdw10 0 16) (hmost : dwBits c.cdw10 0 16 ≤ most) (hnew : used = false)
    (hsize : 2 ≤ dwBits c.cdw10 16 16 + 1) (hdepth : dwBits c.cdw10 16 16 + 1 ≤ s.maxDepth c.ctrl.val) (hpc : c.cdw11.getLsbD 0 = true) :
    s.queueBad c most used = none := by
  unfold State.queueBad
  dsimp only
  rw [if_neg (by simp [hnew]; omega), if_neg (by omega), if_neg (by simp [hpc])]

theorem queueBad_zero (h : dwBits c.cdw10 0 16 = 0) (most : Nat) (used : Bool) : s.queueBad c most used = some stQueueId := if_pos (.inl h)

/-- A completion queue as it is created. -/
def newCq (c : Sqe) : Cq := ⟨dwBits c.cdw10 16 16 + 1, 0, 0, dwBits c.cdw11 16 16, c.cdw11.getLsbD 1⟩

/-- A submission queue as it is created. -/
def newSq (c : Sqe) : Sq := ⟨dwBits c.cdw10 16 16 + 1, 0, 0, dwBits c.cdw11 16 16, dwBits c.cdw11 1 2⟩

theorem createCq_good (hgood : s.queueBad c (s.maxCq c.ctrl.val) ((s.ctrl c.ctrl.val).cqs.any fun e => e.1 == dwBits c.cdw10 0 16) = none)
    (hvector : dwBits c.cdw11 16 16 < portGet s.image.cfg (c.ctrl.val / 2) 12) : s.createCq c =
    (s.modCtrl c.ctrl.val fun k => { k with cqs := k.cqs ++ [(dwBits c.cdw10 0 16, newCq c)] }).complete c stOk 0 0 [] := by
  unfold State.createCq
  dsimp only
  rw [hgood]
  exact if_neg (by omega)

theorem createSq_good (hgood : s.queueBad c (s.maxSq c.ctrl.val) ((s.ctrl c.ctrl.val).sqs.any fun e => e.1 == dwBits c.cdw10 0 16) = none)
    (hcq : dwBits c.cdw11 16 16 ≠ 0) (hexists : ((s.ctrl c.ctrl.val).cqs.any fun e => e.1 == dwBits c.cdw11 16 16) = true) : s.createSq c =
    (s.modCtrl c.ctrl.val fun k => { k with sqs := k.sqs ++ [(dwBits c.cdw10 0 16, newSq c)] }).complete c stOk 0 0 [] := by
  unfold State.createSq
  dsimp only
  rw [hgood]
  exact if_neg (by simp [hcq, hexists])

theorem createQueue_zero (h : dwBits c.cdw10 0 16 = 0) : s.createCq c = s.fail c stQueueId ∧ s.createSq c = s.fail c stQueueId ∧
    s.deleteCq c = s.fail c stQueueId := by
  unfold State.createCq State.createSq
  dsimp only
  rw [queueBad_zero h, queueBad_zero h]
  exact ⟨rfl, rfl, if_pos (.inl h)⟩

/-- Delete I/O Completion Queue of a queue there is. -/
theorem deleteCq_eq (hlo : 1 ≤ dwBits c.cdw10 0 16) (hexists : ((s.ctrl c.ctrl.val).cqs.any fun e => e.1 == dwBits c.cdw10 0 16) = true) :
    s.deleteCq c = if ((s.ctrl c.ctrl.val).sqs.any fun e => e.2.cq == dwBits c.cdw10 0 16) = true then s.fail c stQueueDeletion
      else (s.modCtrl c.ctrl.val fun k => Ctrl.settleInta { k with cqs := k.cqs.filter fun e => e.1 != dwBits c.cdw10 0 16 }).complete c stOk 0 0 [] := by
  unfold State.deleteCq
  dsimp only
  rw [if_neg (by simp [hexists]; omega)]
  rfl

theorem deleteSq_eq (hlo : 1 ≤ dwBits c.cdw10 0 16) (hexists : ((s.ctrl c.ctrl.val).sqs.any fun e => e.1 == dwBits c.cdw10 0 16) = true) :
    s.deleteSq c = ((s.dropQueue c.ctrl.val (dwBits c.cdw10 0 16)).modCtrl c.ctrl.val fun k =>
      { k with sqs := k.sqs.filter fun e => e.1 != dwBits c.cdw10 0 16 }).complete c stOk 0 0 [] := by
  unfold State.deleteSq
  dsimp only
  exact if_neg (by simp [hexists]; omega)

theorem any_key_filter {α : Type} (m : SMap α) (q : Nat) : ((m.filter fun e => e.1 != q).any fun e => e.1 == q) = false := by
  simp [List.any_eq_false]

theorem any_key_of_keys {α : Type} {l m : SMap α} (h : m.map Prod.fst = l.map Prod.fst) (q : Nat) : (m.any fun e => e.1 == q) = l.any fun e => e.1 == q := by
  have hkeys (x : SMap α) : (x.any fun e => e.1 == q) = (x.map Prod.fst).any fun n => n == q := by rw [List.any_map]; rfl
  rw [hkeys, hkeys, h]

end

end Sys2Proof.Machine

open Sys2Proof
open Sys2Proof.Machine

/-- Settles O29: a doorbell changes its queue, the arbiter finds a queue where one has work, and a queue command changes the table of its
controller and completes. -/
theorem queueCommandsKeepTheQueues : Obligations.QueueCommandsKeepTheQueues := by
  refine ⟨fun k q n x s hrun hctrl hen hx => ⟨fun hin => ?_, fun hout => ?_⟩, fun k q n s hrun hctrl hen hdeep => ?_,
    fun k q n e s hup hctrl hen he => ⟨fun hin => ?_, fun hout => ?_⟩, fun k cid s hruns hwork hadmin => ?_, fun c s hmi hruns => ?_⟩
  · have hbell := sqDoorbell_run (n := n) hrun.2.1 hrun.2.2 hx
    rw [if_neg (by omega)] at hbell
    refine ⟨_, (exec_sqTailDoorbell hrun.1 hctrl hen).trans (congrArg _ hbell), ?_, fun p hp => ?_, fun j hj => ctrl_modCtrl_other hj, rfl⟩
    · rw [ctrl_modCtrl_same, hasSq_modEntry, if_pos rfl, hx]
      rfl
    · rw [ctrl_modCtrl_same, hasSq_modEntry, if_neg hp]
  · exact (exec_sqTailDoorbell hrun.1 hctrl hen).trans (congrArg _ ((sqDoorbell_run hrun.2.1 hrun.2.2 hx).trans (if_pos hout)))
  · exact ⟨_, exec_sqTailDoorbell hrun hctrl hen, sqDoorbell_deepSleep hdeep⟩
  · have hbell := cqDoorbell_found (n := n) he
    rw [if_neg (by omega)] at hbell
    refine ⟨_, (exec_cqHeadDoorbell hup hctrl hen).trans (congrArg _ hbell), ?_, ?_, fun j hj => ctrl_modCtrl_other hj, rfl⟩
    · rw [ctrl_modCtrl_same]
      exact List.mem_map.mpr ⟨e, List.mem_of_find?_eq_some he, if_pos (List.find?_some he)⟩
    · rw [ctrl_modCtrl_same]
      rfl
  · exact (exec_cqHeadDoorbell hup hctrl hen).trans (congrArg _ ((cqDoorbell_found he).trans (if_pos hout)))
  · obtain ⟨a, ha⟩ := Option.isSome_iff_exists.mp hadmin
    obtain ⟨q, k2, hchoose, hfirst, hurgent⟩ := choose_some ha (hwork a ha)
    obtain ⟨houts, hseq, hother⟩ := fetch_chosen hchoose cid
    refine ⟨_, q, congrArg Host.Outcome.next (if_pos hruns), houts, hseq, fun b hb => ?_, fun b hb => ?_, hother⟩
    · obtain rfl : a = b := Option.some.inj (ha.symm.trans hb)
      exact hfirst
    · obtain rfl : a = b := Option.some.inj (ha.symm.trans hb)
      exact hurgent
  · intro k qid size
    have hctrl := taken_ctrl s c c.ctrl.val
    obtain ⟨hmaxSq, hmaxCq, hdepths, -⟩ := taken_limits s c c.ctrl.val
    have himage := taken_image s c
    have hcreateCq := exec_queued (i := .createIoCq c) hmi hruns rfl
    have hcreateSq := exec_queued (i := .createIoSq c) hmi hruns rfl
    have hdeleteCq := exec_queued (i := .deleteIoCq c) hmi hruns rfl
    have hdeleteSq := exec_queued (i := .deleteIoSq c) hmi hruns rfl
    refine ⟨fun hlo hmost hnew hsize hdepth hpc hvector => ?_, fun hlo hmost hnew hsize hdepth hpc hcq hexists => ?_, fun hzero => ?_,
      fun hlo hexists => ⟨fun hused => ?_, fun hfree => ?_⟩, fun hlo hexists => ?_⟩
    · rw [createCq_good (queueBad_none hlo (hmaxCq.symm ▸ hmost) (hctrl.symm ▸ hnew) hsize (hdepths.symm ▸ hdepth) hpc) (himage.symm ▸ hvector)] at hcreateCq
      obtain ⟨hcpls, honly, cqs, _, _, _, _, hafter, -, hkept⟩ := ctrlStored_complete s c
        (fun k => { k with cqs := k.cqs ++ [(dwBits c.cdw10 0 16, newCq c)] }) stOk 0 0 []
      obtain ⟨n, hmem⟩ := hkept (qid, newCq c) (List.mem_append_right _ (List.mem_singleton.mpr rfl)) fun e he heq =>
        (List.mem_append.mp he).elim (fun h => absurd heq (by simpa using List.any_eq_false.mp hnew e h)) List.mem_singleton.mp
      have hcqs : (State.ctrl _ k).cqs = cqs := congrArg Ctrl.cqs hafter
      exact ⟨_, _, hcreateCq, hcqs.symm ▸ hmem, rfl, rfl, rfl, rfl, (congrArg Ctrl.sqs hafter :), hcpls, honly⟩
    · rw [createSq_good (queueBad_none hlo (hmaxSq.symm ▸ hmost) (hctrl.symm ▸ hnew) hsize (hdepths.symm ▸ hdepth) hpc) hcq (hctrl.symm ▸ hexists)] at hcreateSq
      obtain ⟨hcpls, honly, cqs, _, _, _, _, hafter, -⟩ := ctrlStored_complete s c
        (fun k => { k with sqs := k.sqs ++ [(dwBits c.cdw10 0 16, newSq c)] }) stOk 0 0 []
      exact ⟨_, hcreateSq, (congrArg Ctrl.sqs hafter :), hcpls, honly⟩
    · obtain ⟨hcq, hsq, hdelete⟩ := createQueue_zero (s := s.taken c) hzero
      exact ⟨answered_of_queued hmi hruns rfl hcq, answered_of_queued hmi hruns rfl hsq, answered_of_queued hmi hruns rfl hdelete⟩
    · exact answered_of_queued hmi hruns rfl ((deleteCq_eq hlo (hctrl.symm ▸ hexists)).trans (if_pos (hctrl.symm ▸ hused)))
    · rw [deleteCq_eq hlo (hctrl.symm ▸ hexists), if_neg (by rw [hctrl]; simpa using hfree)] at hdeleteCq
      obtain ⟨hcpls, honly, cqs, _, _, _, _, hafter, hkeys, -⟩ := ctrlStored_complete s c
        (fun k => Ctrl.settleInta { k with cqs := k.cqs.filter fun e => e.1 != dwBits c.cdw10 0 16 }) stOk 0 0 []
      have hcqs : (State.ctrl _ k).cqs = cqs := congrArg Ctrl.cqs hafter
      exact ⟨_, hdeleteCq, hcqs.symm ▸ (any_key_of_keys hkeys qid).trans (any_key_filter _ qid), (congrArg Ctrl.sqs hafter :), hcpls⟩
    · rw [deleteSq_eq hlo (hctrl.symm ▸ hexists)] at hdeleteSq
      refine ⟨_, hdeleteSq, ?_⟩
      rw [(complete_rest _ c stOk 0 0 []).1.2 c.ctrl.val, ctrl_modCtrl_same]
      exact any_key_filter _ _

end

section
/-!
PROOFS. Scope: the NVMe commands Fitting and Fitting Report (06 R226 to R229).
-/
namespace Sys2Proof.Machine

/-! ### The checks of a Fitting (R226, R227) -/

section
variable {s : State} {c : Sqe}

theorem taken_fitting (s : State) (c : Sqe) : (∀ d op, (s.taken c).fitRefused d op = s.fitRefused d op) ∧
    (∀ a, (s.taken c).fitOwns a = s.fitOwns a) ∧ (s.taken c).fit = s.fit ∧ (s.taken c).regs = s.regs := by
  obtain ⟨o, q, h⟩ := taken_frame s c
  rw [h]
  exact ⟨fun _ _ => rfl, fun _ => rfl, rfl, rfl⟩

theorem completed_fitDone (s : State) (c : Sqe) (st : Status) (dw0 : Nat) :
    Safety.completed s ((s.taken c).fitDone c st dw0) (Safety.cpl c st dw0 (s.rd Reg.FIT_ID_ID) []) :=
  taken_rd s c Reg.FIT_ID_ID ▸ completed_taken s c st dw0 _ []

/-- A Fitting in the order of its checks. -/
theorem fitting_run (hruns : Safety.runs s c .vendor) (op : Nat) (f : State → State) : s.fitting c op f =
    if c.fitCountBad op then (s.taken c).fitDone c stInvalidField 0
    else if s.fitRefused c op then (s.taken c).fitDone c stSequence 0
    else (badEntry c.fitEntries).elim ((f (s.taken c)).fitDone c stOk ((f (s.taken c)).reg Reg.FIT_STATUS).toNat)
      fun n => (s.taken c).fitDone c stInvalidField n := by
  rw [State.fitting, State.fittingOr, adminOr_run hruns.1 hruns.2, (taken_fitting s c).1]
  cases badEntry c.fitEntries with
  | none => rfl
  | some n => rfl

/-- A Fitting that passes its checks is carried out. -/
theorem fitting_done (hruns : Safety.runs s c .vendor) {op : Nat} (hcount : c.fitCountBad op = false) (hallowed : s.fitRefused c op = false)
    (hentries : badEntry c.fitEntries = none) (f : State → State) :
    s.fitting c op f = (f (s.taken c)).fitDone c stOk ((f (s.taken c)).reg Reg.FIT_STATUS).toNat := by
  rw [fitting_run hruns, if_neg (by simp [hcount]), if_neg (by simp [hallowed]), hentries, Option.elim_none]

/-- The check of a Fitting that fails first is the one it completes with. -/
theorem fitting_refused (hruns : Safety.runs s c .vendor) {op : Nat} {i : Instr} {f : State → State} (hexec : exec i s = .next (s.fitting c op f)) :
    (c.fitCountBad op = true → Safety.answered s i (Safety.cpl c stInvalidField 0 (s.rd Reg.FIT_ID_ID) [])) ∧
    (c.fitCountBad op = false → s.fitRefused c op = true → Safety.answered s i (Safety.cpl c stSequence 0 (s.rd Reg.FIT_ID_ID) [])) ∧
    (∀ n, c.fitCountBad op = false → s.fitRefused c op = false → badEntry c.fitEntries = some n →
      Safety.answered s i (Safety.cpl c stInvalidField n (s.rd Reg.FIT_ID_ID) [])) := by
  rw [fitting_run hruns] at hexec
  refine ⟨fun hcount => ?_, fun hcount hrefused => ?_, fun n hcount hallowed hentry => ?_⟩
  · rw [if_pos hcount] at hexec
    exact ⟨_, hexec, completed_fitDone s c _ _⟩
  · rw [if_neg (by simp [hcount]), if_pos hrefused] at hexec
    exact ⟨_, hexec, completed_fitDone s c _ _⟩
  · rw [if_neg (by simp [hcount]), if_neg (by simp [hallowed]), hentry] at hexec
    exact ⟨_, hexec, completed_fitDone s c _ _⟩

theorem fittingStage_stages (h : dwBits c.cdw12 0 4 ≤ 4) : s.fittingStage c = s.fitting c 0 fun t => t.fitStageAll c.agent c.fitEntries :=
  if_neg (by omega)

/-- Each operation's own command is a Fitting with that operation. -/
theorem exec_fitting (s : State) {op : Nat} {i : Instr}
    (h : (op, i) ∈ [(1, Instr.fittingBegin c), (2, .fittingCommit c), (3, .fittingAbort c), (4, .fittingBeginStageCommit c)] ∨
      (op = 0 ∧ dwBits c.cdw12 0 4 = 0 ∧ i = .fittingStage c)) : ∃ f, exec i s = .next (s.fitting c op f) := by
  simp only [List.mem_cons, Prod.mk.injEq, List.not_mem_nil, or_false] at h
  obtain (⟨rfl, rfl⟩ | ⟨rfl, rfl⟩ | ⟨rfl, rfl⟩ | ⟨rfl, rfl⟩) | ⟨rfl, hop, rfl⟩ := h
  · exact ⟨_, rfl⟩
  · exact ⟨_, rfl⟩
  · exact ⟨_, rfl⟩
  · exact ⟨_, rfl⟩
  · exact ⟨_, congrArg Host.Outcome.next (fittingStage_stages (by omega))⟩

/-! ### The checks of each operation -/

theorem fitEntries_empty (h : c.cdw10 = 0) : c.fitEntries = [] := by rw [Sqe.fitEntries, h]; rfl

/-- An operation that takes no entries has none. -/
theorem fitCountBad_empty (h : c.cdw10 = 0) {op : Nat} (h0 : op ≠ 0) (h4 : op ≠ 4) : c.fitCountBad op = false := by
  unfold Sqe.fitCountBad
  dsimp only
  rw [h, if_neg (by omega)]
  rfl

theorem fitEntries_length (h : c.fitCountBad 0 = false) : c.fitEntries.length ≤ 512 := by
  rw [Sqe.fitEntries, List.length_map, List.length_range]
  simp [Sqe.fitCountBad] at h
  exact h.2.2

/-- BEGIN is allowed where no fitting is in progress. -/
theorem fitRefused_idle (h : s.rd Reg.FIT_STATUS_STATE = 0) {op : Nat} (hop : op = 1 ∨ op = 4) : s.fitRefused c op = false := by
  rw [State.fitRefused, if_pos hop, h]
  rfl

/-- The owner of the open fitting may go on with it by its identifier. -/
theorem fitRefused_owner (howns : s.fitOwns c.agent = true) (hid : s.rd Reg.FIT_ID_ID = c.cdw13.toNat) {op : Nat} (h1 : op ≠ 1) (h4 : op ≠ 4) :
    s.fitRefused c op = false := by
  rw [State.fitRefused, if_neg (by omega), howns, hid]
  simp

theorem fitMayAbort_owner {agent : Nat} (h : s.fitOwns agent = true) : s.fitMayAbort agent = true := by
  obtain ⟨hopen, howner⟩ := fitOwns_iff.mp h
  simp [State.fitMayAbort, hopen, howner, fitOpen]

end

/-! ### BEGIN -/

/-- A new identifier in an OPEN fitting of the agent, which the completion shows. -/
theorem fitBegin_taken {s : State} {c : Sqe} (h : s.rd Reg.FIT_STATUS_STATE = 0) (agent : Nat) :
    ((s.taken c).fitBegin agent).rd Reg.FIT_STATUS_STATE = 1 ∧ ((s.taken c).fitBegin agent).rd Reg.FIT_STATUS_OWNER = agent % 16 ∧
    ((s.taken c).fitBegin agent).rd Reg.FIT_ID_ID = (s.rd Reg.FIT_ID_ID + 1) % 2 ^ 32 ∧ ((s.taken c).fitBegin agent).fit.staged = [] ∧
    ((s.taken c).fitBegin agent).nvme = (s.taken c).nvme := by
  rw [fitBegin_idle ((taken_rd s c _).trans h)]
  obtain ⟨hstate, howner, -, -, hid, -⟩ := fitOpened_rd (s.taken c) agent
  rw [taken_rd] at hid
  obtain ⟨r, hframe⟩ := fitOpened_frame (s.taken c) agent
  exact ⟨hstate, howner, hid, rfl, by rw [hframe]; rfl⟩

/-! ### STAGE -/

theorem stagedWith_any (l : List (Nat × Word)) (off : Nat) (v : Word) (o : Nat) :
    ((stagedWith l off v).any fun e => e.1 == o) = (off == o || l.any fun e => e.1 == o) := by
  rw [Bool.eq_iff_iff, Bool.or_eq_true, List.any_eq_true, List.any_eq_true]
  constructor
  · rintro ⟨e, he, heo⟩
    rcases mem_stagedWith.mp he with rfl | ⟨he, -⟩
    · exact .inl heo
    · exact .inr ⟨e, he, heo⟩
  · rintro (h | ⟨e, he, heo⟩)
    · exact ⟨(off, v), mem_stagedWith.mpr (.inl rfl), h⟩
    · by_cases hoff : e.1 = off
      · exact ⟨(off, v), mem_stagedWith.mpr (.inl rfl), hoff ▸ heo⟩
      · exact ⟨e, mem_stagedWith.mpr (.inr ⟨he, hoff⟩), heo⟩

theorem stagedWith_length (l : List (Nat × Word)) (off : Nat) (v : Word) : (stagedWith l off v).length ≤ l.length + 1 := by
  have hapart (m : List (Nat × Word)) : (m.filter fun e => e.1 < off).length + (m.filter fun e => off < e.1).length ≤ m.length := by
    induction m with
    | nil => exact Nat.le_refl 0
    | cons e m ih =>
      rw [List.filter_cons, List.filter_cons, List.length_cons]
      rcases Nat.lt_trichotomy e.1 off with h | h | h
      · rw [if_pos (by simpa using h), if_neg (by simp; omega), List.length_cons]
        omega
      · rw [if_neg (by simp; omega), if_neg (by simp; omega)]
        omega
      · rw [if_neg (by simp; omega), if_pos (by simpa using h), List.length_cons]
        omega
  have hless : (l.filter fun e => e.1 != off).length ≤ l.length := List.length_filter_le _ _
  have hsplit := hapart (l.filter fun e => e.1 != off)
  rw [stagedWith, List.length_append, List.length_append, List.length_singleton]
  omega

/-- The owner's entries are all staged where there is room for them. -/
theorem fitStageAll_staged {agent : Nat} (l : List (Nat × Word)) {s : State} (howns : s.fitOwns agent = true)
    (hroom : s.fit.staged.length + l.length ≤ 4096) (o : Nat) :
    ((s.fitStageAll agent l).fit.staged.any fun e => e.1 == o) = ((s.fit.staged.any fun e => e.1 == o) || l.any fun e => e.1 == o) := by
  induction l generalizing s with
  | nil => exact (Bool.or_false _).symm
  | cons e l ih =>
    rw [List.length_cons] at hroom
    obtain ⟨n, hstage⟩ := fitStage_taken (w := e.2) (off := e.1) howns (.inr (by omega))
    have hlength := stagedWith_length s.fit.staged e.1 (rwfBits e.1 e.2)
    have howns' : ((s.fitStage agent e.1 e.2).fitOwns agent) = true := by
      rw [hstage, State.fitOwns, State.modFit_rd, State.modFit_rd, rd_wr_off (by decide), rd_wr_off (by decide)]
      exact howns
    have hstaged : (s.fitStage agent e.1 e.2).fit.staged = stagedWith s.fit.staged e.1 (rwfBits e.1 e.2) := by rw [hstage, State.modFit_fit]
    rw [State.fitStageAll, List.foldl_cons, ← State.fitStageAll, ih howns' (by rw [hstaged]; omega), hstaged, stagedWith_any, List.any_cons,
      Bool.or_comm (e.1 == o), Bool.or_assoc]

/-! ### Fitting Report (R229) -/

/-- The first two fields of a layout, where the second follows the first at once. -/
theorem layout_head_two (n : Nat) (f g : List Byte) (l : List (Nat × List Byte)) :
    ∃ r, layout n ((0, f) :: (f.length, g) :: l) = f ++ (g ++ r) := by
  obtain ⟨r, hr⟩ := foldl_layout_head l (f ++ g)
  have hsecond : padTo f.length f ++ g = f ++ g := by rw [padTo, Nat.sub_self, List.replicate_zero, List.append_nil]
  refine ⟨r ++ List.replicate (n - (f ++ g ++ r).length) 0, ?_⟩
  show padTo n (l.foldl _ (padTo f.length f ++ g)) = _
  rw [hsecond, hr, padTo, List.append_assoc, List.append_assoc, List.append_assoc]

/-- The report begins with FIT_STATUS and FIT_ID. -/
theorem fitReport_head (s : State) (agent : Nat) :
    ∃ r, s.fitReport agent = leBytes 4 (s.reg Reg.FIT_STATUS).toNat ++ (leBytes 4 (s.rd Reg.FIT_ID_ID) ++ r) := by
  obtain ⟨r, hr⟩ := layout_head_two 0x40 (leBytes 4 (s.reg Reg.FIT_STATUS).toNat) (leBytes 4 (s.rd Reg.FIT_ID_ID)) _
  exact ⟨_, (congrArg (· ++ _) hr).trans ((List.append_assoc _ _ _).trans (congrArg _ (List.append_assoc _ _ _)))⟩

/-- Data cut or filled up to a length keeps a head that the length holds. -/
theorem padTo_take_head {n : Nat} {f : List Byte} (h : f.length ≤ n) (r : List Byte) : ∃ q, padTo n ((f ++ r).take n) = f ++ q := by
  rw [padTo, List.take_append, List.take_of_length_le h, List.append_assoc]
  exact ⟨_, rfl⟩

theorem padTo_take_length (n : Nat) (b : List Byte) : (padTo n (b.take n)).length = n := by
  rw [padTo, List.length_append, List.length_replicate]
  exact Nat.add_sub_of_le (List.length_take_le _ _)

end Sys2Proof.Machine

open Sys2Proof
open Sys2Proof.Machine

/-- Settles O36: the checks of a Fitting come in order, and one that passes them does what its operation does and shows FIT_STATUS. -/
theorem fittingCommandsRunTheFitting : Obligations.FittingCommandsRunTheFitting := by
  intro c s b bad done
  refine ⟨fun hruns => ⟨fun op i hop => ?_, fun hreserved => ?_, fun hempty hidle => ?_, fun hempty howns hid => ?_, fun hcount hop howns hid hentries => ?_,
    fun hcount hidle hentries => ?_⟩, fun hacts hsan => ?_, fun hruns => ⟨fun hlong => ?_, fun hlen => ?_⟩⟩
  · obtain ⟨f, hexec⟩ := exec_fitting s hop
    exact fitting_refused hruns hexec
  · exact ⟨_, congrArg Host.Outcome.next ((if_pos hreserved).trans (adminOr_run hruns.1 hruns.2)), completed_fitDone s c _ _⟩
  · have hnone : badEntry c.fitEntries = none := by rw [fitEntries_empty hempty]; rfl
    have hdone := fitting_done hruns (fitCountBad_empty hempty (by decide) (by decide)) (fitRefused_idle (op := 1) hidle (.inl rfl)) hnone
      fun t => t.fitBegin c.agent
    obtain ⟨hstate, howner, hid, hstaged, hnvme⟩ := fitBegin_taken (c := c) hidle c.agent
    obtain ⟨hreg, hrd, hfit, -⟩ := complete_outside ((s.taken c).fitBegin c.agent) c stOk
      (((s.taken c).fitBegin c.agent).reg Reg.FIT_STATUS).toNat (((s.taken c).fitBegin c.agent).rd Reg.FIT_ID_ID) []
    refine ⟨_, congrArg Host.Outcome.next hdone, (hrd _).trans hstate, (hrd _).trans howner, (hrd _).trans hid, by rw [State.fitDone, hfit]; exact hstaged, ?_⟩
    rw [State.fitDone, hreg, hrd]
    exact complete_cpls_of_taken hnvme _ _ _ _
  · have hnone : badEntry c.fitEntries = none := by rw [fitEntries_empty hempty]; rfl
    have hdone {op : Nat} (h1 : op ≠ 1) (h0 : op ≠ 0) (h4 : op ≠ 4) :=
      fitting_done hruns (fitCountBad_empty hempty h0 h4) (fitRefused_owner howns hid h1 h4) hnone
    refine ⟨congrArg Host.Outcome.next (hdone (op := 2) (by decide) (by decide) (by decide) _),
      congrArg Host.Outcome.next ((hdone (op := 3) (by decide) (by decide) (by decide) _).trans ?_)⟩
    rw [fitAbort_allowed (fitMayAbort_owner (((taken_fitting s c).2.1 _).trans howns))]
    rfl
  · have hdone := (fittingStage_stages (s := s) (c := c) (by omega)).trans
      (fitting_done hruns hcount (fitRefused_owner howns hid (by decide) (by decide)) hentries _)
    refine ⟨congrArg Host.Outcome.next hdone, fun hnew => ⟨_, congrArg Host.Outcome.next hdone, fun off => ?_⟩⟩
    obtain ⟨-, htakenOwns, htakenFit, -⟩ := taken_fitting s c
    have hlength := fitEntries_length hcount
    rw [State.fitDone, (complete_outside _ _ _ _ _ _).2.2.1, fitStageAll_staged _ ((htakenOwns _).trans howns) (by rw [htakenFit, hnew, List.length_nil]; omega),
      htakenFit, hnew]
    rfl
  · exact congrArg Host.Outcome.next (fitting_done hruns hcount (fitRefused_idle hidle (.inr rfl)) hentries _)
  · have hrefused : s.adminRefused c .vendor = some stSanitizing := if_pos ⟨hsan, by decide, by decide⟩
    have hdone : s.fitting c 2 (fun t => t.commit c.agent) = (s.taken c).fitDone c stSanitizing 0 := by
      rw [State.fitting, State.fittingOr, adminOr_refused hacts hrefused]
    exact ⟨_, congrArg Host.Outcome.next hdone, completed_fitDone s c _ _⟩
  · exact answered_of_admin hruns rfl (if_pos hlong)
  · refine ⟨_, answered_of_admin hruns rfl (if_neg (by omega)), padTo_take_length _ _, fun htwo => ?_⟩
    obtain ⟨r, hreport⟩ := fitReport_head (s.taken c) c.agent
    rw [taken_reg, taken_rd, ← List.append_assoc] at hreport
    obtain ⟨q, hdata⟩ := padTo_take_head (n := 4 * c.cdw10.toNat) (f := leBytes 4 (s.reg Reg.FIT_STATUS).toNat ++ leBytes 4 (s.rd Reg.FIT_ID_ID))
      (by rw [List.length_append, leBytes_length, leBytes_length]; omega) r
    rw [hreport, hdata, List.append_assoc]
    refine ⟨(leAt_leBytes _ 4 _).trans (Nat.mod_eq_of_lt (BitVec.isLt _)), ?_⟩
    exact (leAt_append_leBytes (leBytes 4 (s.reg Reg.FIT_STATUS).toNat) q 4 _).trans (Nat.mod_eq_of_lt (bitsOf_lt _ _ _))

end

section
/-!
PROOFS. Scope: Set Features and the values it stores (06 R182, R216 to R220; 19 R682, R683).
-/
namespace Sys2Proof.Machine

/-! ### What every Set Features passes first (R216) -/

/-- The commands of Set Features. -/
def setFeatureRows (c : Sqe) : List Instr := [.setArbitration c, .setTemperatureThreshold c, .setErrorRecovery c, .setNumberOfQueues c,
  .setInterruptCoalescing c, .setInterruptVectorConfig c, .setWriteAtomicity c, .setAsyncEventConfig c, .setHostThermalManagement c, .setDirtyWindow c,
  .setThermalPolicy c, .setSteepleRole c, .setMantleState c]

/-- Each of them runs as a Set Features. -/
theorem exec_setFeature {c : Sqe} (s : State) {i : Instr} (h : i ∈ setFeatureRows c) : ∃ f, exec i s = .next (s.setFeature c f) := by
  simp only [setFeatureRows, List.mem_cons, List.not_mem_nil, or_false] at h
  rcases h with rfl | rfl | rfl | rfl | rfl | rfl | rfl | rfl | rfl | rfl | rfl | rfl | rfl
  all_goals exact ⟨_, rfl⟩

section
variable {s : State} {c : Sqe} {i : Instr} {f : State → State} (hruns : Safety.runs s c .service)
include hruns

theorem setFeature_unknown (hid : featureIds.contains (dwBits c.cdw10 0 8) = false) (hexec : exec i s = .next (s.setFeature c f)) :
    Safety.answered s i (Safety.cpl c stInvalidField 0 0 []) :=
  answered_of_admin hruns hexec (if_pos (by simp only [hid]; rfl))

variable (hid : featureIds.contains (dwBits c.cdw10 0 8) = true)
include hid

theorem setFeature_save (hsave : c.cdw10.getLsbD 31 = true) (hexec : exec i s = .next (s.setFeature c f)) :
    Safety.answered s i (Safety.cpl c stNotSaveable 0 0 []) := by
  refine answered_of_admin hruns hexec ?_
  rw [if_neg (by simp only [hid]; decide), if_pos hsave]
  rfl

variable (hsave : c.cdw10.getLsbD 31 = false)
include hsave

theorem setFeature_run (f : State → State) : s.setFeature c f = f (s.taken c) := by
  rw [State.setFeature, admin_run _ hruns.1 hruns.2, if_neg (by simp only [hid]; decide), if_neg (by simp only [hsave]; decide)]

theorem setFeature_answered {st : Status} {dw0 dw1 : Nat} {data : List Byte} (hexec : exec i s = .next (s.setFeature c f))
    (hf : f (s.taken c) = (s.taken c).complete c st dw0 dw1 data) : Safety.answered s i (Safety.cpl c st dw0 dw1 data) :=
  ⟨_, hexec.trans (congrArg Host.Outcome.next ((setFeature_run hruns hid hsave f).trans hf)), completed_taken s c st dw0 dw1 data⟩

/-- One that completes in a state where its command is still to be completed. -/
theorem setFeature_stored {u : State} {dw0 : Nat} {P : State → Prop} (hexec : exec i s = .next (s.setFeature c f))
    (hf : f (s.taken c) = u.complete c stOk dw0 0 []) (houts : u.nvme.outs = (s.taken c).nvme.outs) (hcpls : u.nvme.cpls = s.nvme.cpls)
    (hP : P (u.complete c stOk dw0 0 [])) :
    ∃ t, exec i s = .next t ∧ t.nvme.cpls = s.nvme.cpls ++ [Safety.cpl c stOk dw0 0 []] ∧ P t :=
  ⟨_, hexec.trans (congrArg Host.Outcome.next ((setFeature_run hruns hid hsave f).trans hf)), complete_cpls_of_outs _ _ _ _ houts hcpls, hP⟩

/-- One that changes its controller. -/
theorem setFeature_ctrl {g : Ctrl → Ctrl} {dw0 : Nat} {P : State → Prop} (hexec : exec i s = .next (s.setFeature c f))
    (hf : f (s.taken c) = (s.ctrlStored c g).complete c stOk dw0 0 [])
    (hP : ∀ (t : State) (cqs : SMap Cq) (log : List ErrEntry) (n : Nat) (coal : SMap (Nat × Nat)) (pcie : Pcie), Safety.onlyNvme s t →
      t.ctrl c.ctrl.val = { g (s.ctrl c.ctrl.val) with cqs := cqs, errLog := log, errCount := n, coal := coal, pcie := pcie } → P t) :
    ∃ t, exec i s = .next t ∧ t.nvme.cpls = s.nvme.cpls ++ [Safety.cpl c stOk dw0 0 []] ∧ P t := by
  obtain ⟨-, honly, cqs, log, n, coal, pcie, hctrl, -⟩ := ctrlStored_complete s c g stOk dw0 0 []
  exact setFeature_stored hruns hid hsave hexec hf rfl (taken_cpls s c) (hP _ cqs log n coal pcie honly hctrl)

end

/-! ### The values of the features -/

section
variable {s : State} {c : Sqe}

/-- The weight of the low class is the highest byte of an arbitration value. -/
theorem arbitration_byte (d : Word) : (d &&& 0xFFFFFF07#32).toNat / 2 ^ 24 % 256 = dwBits d 24 8 := by
  have hand : (d &&& 0xFFFFFF07#32).toNat = d.toNat &&& 0xFFFFFF07 := BitVec.toNat_and d _
  have hmask : (0xFFFFFF07 : Nat) >>> 24 = 2 ^ 8 - 1 := rfl
  rw [hand, ← Nat.shiftRight_eq_div_pow, Nat.shiftRight_and_distrib, hmask, Nat.and_two_pow_sub_one_eq_mod, Nat.shiftRight_eq_div_pow]
  exact Nat.mod_mod _ _

theorem setTempThreshold_over (hsel : dwBits c.cdw11 16 4 = 0) (hth : dwBits c.cdw11 20 2 = 0) :
    s.setTempThreshold c = { s with nvme := { s.nvme with tempOver := some (dwBits c.cdw11 0 16) } }.succeed c := by
  unfold State.setTempThreshold
  dsimp only
  rw [if_neg (by omega), if_pos hth]

theorem setTempThreshold_under (hsel : dwBits c.cdw11 16 4 = 0) (hth : dwBits c.cdw11 20 2 = 1) :
    s.setTempThreshold c = { s with nvme := { s.nvme with tempUnder := dwBits c.cdw11 0 16 } }.succeed c := by
  unfold State.setTempThreshold
  dsimp only
  rw [if_neg (by omega), if_neg (by omega)]

theorem setQueues_grant (hsq : dwBits c.cdw11 0 16 ≠ 0xFFFF) (hcq : dwBits c.cdw11 16 16 ≠ 0xFFFF)
    (hnosq : ((s.ctrl c.ctrl.val).sqs.any fun e => e.1 != 0) = false) (hnocq : ((s.ctrl c.ctrl.val).cqs.any fun e => e.1 != 0) = false) (g : Nat)
    (hg : g = min (dwBits c.cdw11 0 16) (s.ioqPairs c.ctrl.val - 1) + 65536 * min (dwBits c.cdw11 16 16) (s.ioqPairs c.ctrl.val - 1)) :
    s.setQueues c = (s.modCtrl c.ctrl.val fun k => { k with numQueues := g + 1 }).complete c stOk g 0 [] := by
  unfold State.setQueues
  dsimp only
  rw [if_neg (by simp [hsq, hcq]), if_neg (by simp only [hnosq, hnocq]; decide), hg]
  rfl

/-- Host thresholds in range and in order are stored. -/
theorem setHctm_stored (h1 : 333 ≤ dwBits c.cdw11 16 16) (h12 : dwBits c.cdw11 16 16 < dwBits c.cdw11 0 16) (h2 : dwBits c.cdw11 0 16 ≤ 388) :
    s.setHctm c = ((s.wr Reg.THM_HCTM_TMT1 (dwBits c.cdw11 16 16)).wr Reg.THM_HCTM_TMT2 (dwBits c.cdw11 0 16)).succeed c :=
  if_neg (by simp; omega)

theorem setHctm_order (h1 : dwBits c.cdw11 16 16 ≠ 0) (h2 : dwBits c.cdw11 0 16 ≠ 0) (h21 : dwBits c.cdw11 0 16 ≤ dwBits c.cdw11 16 16) :
    s.setHctm c = s.fail c stInvalidField := if_pos (by simp [h1, h2, h21])

theorem setHctm_high (h : 388 < dwBits c.cdw11 0 16) : s.setHctm c = s.fail c stInvalidField := if_pos (by simp; omega)

theorem hctm_rd (s : State) {a b : Nat} (ha : a < 2 ^ 16) (hb : b < 2 ^ 16) :
    ((s.wr Reg.THM_HCTM_TMT1 a).wr Reg.THM_HCTM_TMT2 b).rd Reg.THM_HCTM_TMT1 = a ∧
    ((s.wr Reg.THM_HCTM_TMT1 a).wr Reg.THM_HCTM_TMT2 b).rd Reg.THM_HCTM_TMT2 = b := by
  rw [rd_wr_apart (by decide), rd_wr (by decide), rd_wr (by decide)]
  exact ⟨Nat.mod_eq_of_lt ha, Nat.mod_eq_of_lt hb⟩

/-- A command that runs as a fitting of its own where none is in progress. -/
theorem asFitting_idle (h : s.rd Reg.FIT_STATUS_STATE = 0) (l : List (Nat × Word)) : (s.taken c).asFitting c l =
    if ((s.taken c).fitSelf c.agent l).rd Reg.FIT_STATUS_RESULT = 2 then ((s.taken c).fitSelf c.agent l).fail c stInvalidField
    else ((s.taken c).fitSelf c.agent l).succeed c := if_neg (by rw [taken_rd, h]; decide)

theorem asFitting_busy (h : s.rd Reg.FIT_STATUS_STATE ≠ 0) (l : List (Nat × Word)) : (s.taken c).asFitting c l = (s.taken c).fail c stSequence :=
  if_pos (by rwa [taken_rd])

end

/-! ### The Mantle state blob (19 R682, R683) -/

/-- What a sorted table reads after one entry is put in. -/
theorem find_put {α : Type} (m : SMap α) (k j : Nat) (x : α) :
    ((m.filter fun e : Nat × α => e.1 < k) ++ [(k, x)] ++ m.filter fun e : Nat × α => k < e.1).find? (fun e => e.1 == j) =
      if j = k then some (k, x) else m.find? fun e => e.1 == j := by
  have hsame (p : Nat × α → Bool) (hp : ∀ e : Nat × α, e.1 = j → p e = true) : (m.filter p).find? (fun e => e.1 == j) = m.find? fun e => e.1 == j := by
    rw [List.find?_filter]
    congr 1
    funext e
    by_cases he : e.1 = j <;> simp [he, hp]
  have hnone (p : Nat × α → Bool) (hp : ∀ e : Nat × α, e.1 = j → p e = false) : (m.filter p).find? (fun e => e.1 == j) = none := by
    refine List.find?_eq_none.mpr fun e he hj => ?_
    rw [List.mem_filter, hp e (by simpa using hj)] at he
    exact Bool.false_ne_true he.2
  rw [List.find?_append, List.find?_append]
  rcases Nat.lt_trichotomy j k with h | rfl | h
  · rw [hsame _ (by simp; omega), hnone _ (by simp; omega), List.find?_cons_of_neg (by simp; omega), if_neg (by omega)]
    simp
  · rw [hnone _ (by simp), hnone _ (by simp), List.find?_cons_of_pos (by simp), if_pos rfl]
    rfl
  · rw [hnone _ (by simp; omega), hsame _ (by simp; omega), List.find?_cons_of_neg (by simp; omega), if_neg (by omega)]
    simp

/-- The state of a string that has one of its own. -/
def State.ownStr (s : State) (j : Nat) : Option Str := (s.mnt.strs.find? fun e => e.1 == j).map fun e => e.2

theorem str_of_own {s : State} {j : Nat} {x : Str} (h : s.ownStr j = some x) : s.str j = x := by
  obtain ⟨e, he, rfl⟩ := Option.map_eq_some_iff.mp h
  rw [State.str, he]

theorem ownStr_setStr (s : State) (k j : Nat) (x : Str) : (s.setStr k x).ownStr j = if j = k then some x else s.ownStr j := by
  rw [State.ownStr, State.setStr, State.modMnt_mnt, find_put]
  split
  · rfl
  · rfl

/-- The charge a blob gives a string, kept between half and six fifths of its rating. -/
def State.blobCharge (s : State) (b : List Byte) (j : Nat) : Nat :=
  max (s.capRated j / 2) (min (s.capRated j * 6 / 5) (leAt b (0x100 + 0x200 * j + 16) 4))

/-- Restoring one string leaves the NVM subsystem and the image, and every other string's own state. -/
theorem blobString_frame (s : State) (b : List Byte) (k : Nat) : (s.blobString b k).nvme = s.nvme ∧ (s.blobString b k).image = s.image ∧
    ((s.blobString b k).ownStr k).map Str.q = some (s.blobCharge b k) ∧ ∀ j, j ≠ k → (s.blobString b k).ownStr j = s.ownStr j := by
  obtain ⟨x, l, hx, hmnt⟩ : ∃ (x : Str) (l : Option (Nat × Nat)), x.q = s.blobCharge b k ∧
      (s.blobString b k).mnt = ((s.setStr k x).modStr k fun y => { y with learnt := l }).mnt := ⟨_, _, rfl, rfl⟩
  have hown (j : Nat) : (s.blobString b k).ownStr j = ((s.setStr k x).modStr k fun y => { y with learnt := l }).ownStr j := by
    rw [State.ownStr, hmnt, State.ownStr]
  refine ⟨rfl, rfl, ?_, fun j hj => ?_⟩
  · rw [hown, State.modStr, ownStr_setStr, if_pos rfl, str_of_own ((ownStr_setStr _ _ _ _).trans (if_pos rfl))]
    exact congrArg some hx
  · rw [hown, State.modStr, ownStr_setStr, if_neg hj, ownStr_setStr, if_neg hj]

/-- A blob restored string by string. -/
def State.blobRestore (s : State) (b : List Byte) (l : List Nat) : State := l.foldl (fun t k => t.blobString b k) s

theorem blobRestore_frame (b : List Byte) (l : List Nat) (s : State) : (s.blobRestore b l).nvme = s.nvme ∧ (s.blobRestore b l).image = s.image ∧
    ∀ j ∉ l, (s.blobRestore b l).ownStr j = s.ownStr j := by
  induction l generalizing s with
  | nil => exact ⟨rfl, rfl, fun _ _ => rfl⟩
  | cons k l ih =>
    obtain ⟨hnvme, himage, hown⟩ := ih (s.blobString b k)
    obtain ⟨hnvme', himage', -, hown'⟩ := blobString_frame s b k
    exact ⟨hnvme.trans hnvme', himage.trans himage', fun j hj =>
      (hown j (List.not_mem_of_not_mem_cons hj)).trans (hown' j (List.ne_of_not_mem_cons hj))⟩

/-- Each string restored once has the charge of the blob. -/
theorem blobRestore_charge (b : List Byte) {l : List Nat} (hl : l.Nodup) (s : State) :
    ∀ j ∈ l, ((s.blobRestore b l).ownStr j).map Str.q = some (s.blobCharge b j) := by
  induction l generalizing s with
  | nil => exact fun _ h => absurd h List.not_mem_nil
  | cons k l ih =>
    obtain ⟨hk, hl⟩ := List.nodup_cons.mp hl
    obtain ⟨-, himage, hcharge, -⟩ := blobString_frame s b k
    intro j hj
    rcases List.mem_cons.mp hj with rfl | hj
    · exact (congrArg (Option.map Str.q) ((blobRestore_frame b l (s.blobString b j)).2.2 j hk)).trans hcharge
    · exact ih hl (s.blobString b k) j hj

theorem compatWrite_frame (s : State) (b : Bool) : ∃ m, s.compatWrite b = { s with mnt := m } ∧ m.strs = s.mnt.strs := by
  unfold State.compatWrite
  extract_lets due
  split
  · exact ⟨_, rfl, rfl⟩
  · exact ⟨s.mnt, rfl, rfl⟩

theorem blobStrings_nodup (s : State) (b : List Byte) : (s.blobStrings b).Nodup := (List.nodup_range.filter _).filter _

section
variable {s : State} {c : Sqe}

theorem taken_mantle (s : State) (c : Sqe) : (∀ b, (s.taken c).blobOk b = s.blobOk b) ∧ (s.taken c).learnState = s.learnState ∧
    (s.taken c).lossReported = s.lossReported ∧ (∀ b, (s.taken c).blobStrings b = s.blobStrings b) ∧
    (∀ b j, (s.taken c).blobCharge b j = s.blobCharge b j) := by
  obtain ⟨o, q, h⟩ := taken_frame s c
  rw [h]
  exact ⟨fun _ => rfl, rfl, rfl, fun _ => rfl, fun _ _ => rfl⟩

/-- The state in which a good blob has been restored. -/
def State.blobTaken (s : State) (b : List Byte) : State := ((s.blobRestore b (s.blobStrings b)).wr Reg.MNT_STATUS_RESTORED 1).compatWrite true

theorem setMantle_bad (h : s.blobOk c.data = false) : s.setMantle c = s.fail c (stVendor 0xB1 true) := if_pos (by rw [h]; rfl)

theorem setMantle_busy (h : s.blobOk c.data = true) (hlearn : s.learnState = 2) : s.setMantle c = s.fail c stSequence :=
  (if_neg (by rw [h]; decide)).trans (if_pos (.inr (.inl hlearn)))

theorem setMantle_good (h : s.blobOk c.data = true) (hlearn : s.learnState = 0) (hloss : s.lossReported = false) :
    s.setMantle c = (s.blobTaken c.data).complete c stOk (classBits (s.blobStrings c.data)) 0 [] :=
  (if_neg (by rw [h]; decide)).trans (if_neg (by rw [hlearn, hloss]; decide))

theorem blobTaken_frame (s : State) (b : List Byte) : (s.blobTaken b).nvme = s.nvme ∧ (s.blobTaken b).rd Reg.MNT_STATUS_RESTORED = 1 ∧
    ∀ j ∈ s.blobStrings b, ((s.blobTaken b).ownStr j).map Str.q = some (s.blobCharge b j) := by
  obtain ⟨m, hm, hstrs⟩ := compatWrite_frame ((s.blobRestore b (s.blobStrings b)).wr Reg.MNT_STATUS_RESTORED 1) true
  refine ⟨?_, ?_, fun j hj => ?_⟩
  · rw [State.blobTaken, hm]
    exact (blobRestore_frame b _ s).1
  · rw [State.blobTaken, hm]
    exact rd_wr (s := s.blobRestore b (s.blobStrings b)) (f := Reg.MNT_STATUS_RESTORED) (v := 1) (by decide)
  · rw [State.blobTaken, hm, State.ownStr]
    dsimp only
    rw [hstrs]
    exact blobRestore_charge b (blobStrings_nodup s b) s j hj

end

end Sys2Proof.Machine

open Sys2Proof
open Sys2Proof.Machine

/-- Settles O32: a Set Features that passes its checks stores its value, or completes with what is wrong with it. -/
theorem setFeaturesStoreTheirValues : Obligations.SetFeaturesStoreTheirValues := by
  intro c s hruns k d rows stored bad
  refine ⟨fun hid i hi => ?_, fun hid hsave i hi => ?_, fun hid hsave => ?_⟩
  · obtain ⟨f, hexec⟩ := exec_setFeature s hi
    exact setFeature_unknown hruns hid hexec
  · obtain ⟨f, hexec⟩ := exec_setFeature s hi
    exact setFeature_save hruns hid hsave hexec
  have hctrl := taken_ctrl s c k
  obtain ⟨-, -, -, hpairs⟩ := taken_limits s c k
  obtain ⟨hblob, hlearn, hloss, hstrings, hcharge⟩ := taken_mantle s c
  have answer {i : Instr} {f : State → State} {st : Status} {dw0 dw1 : Nat} {data : List Byte} :=
    setFeature_answered (i := i) (f := f) (st := st) (dw0 := dw0) (dw1 := dw1) (data := data) hruns hid hsave
  refine ⟨?arbitration, fun hsel hth => ?overThreshold, fun hsel hth => ?underThreshold, fun hbad => ?noThreshold, fun h => ?recovery, fun h => ?noRecovery,
    fun h => ?atomicity, fun h => ?noAtomicity, fun hsq hcq hnosq hnocq => ?queues, fun h => ?noQueues, ?coalescing, fun h => ?vector,
    fun h => ?noVector, ?events, fun h1 h12 h2 => ?hctm, fun h1 h2 h21 => ?hctmOrder, fun h => ?hctmHigh, fun h => ?ceiling, fun h h' => ?noCeiling,
    fun h => ⟨?thermalBusy, ?roleBusy⟩, fun h => ⟨?role, ?thermal⟩, fun h => ?blobBad, fun h h' => ?blobBusy, fun h h0 hl => ?blobGood⟩
  case arbitration =>
    refine setFeature_ctrl hruns hid hsave rfl rfl fun t _ _ _ _ _ honly hafter => ?_
    have harb : (t.ctrl k).arbitration = (d &&& 0xFFFFFF07#32).toNat := (congrArg Ctrl.arbitration hafter :)
    exact ⟨harb, by rw [Ctrl.weight, harb]; exact congrArg (· + 1) (arbitration_byte d), honly⟩
  case overThreshold =>
    have hrest := (complete_rest ({ s.taken c with nvme := { (s.taken c).nvme with tempOver := some (dwBits d 0 16) } } : State) c stOk 0 0 []).1.1
    refine setFeature_stored hruns hid hsave rfl (setTempThreshold_over hsel hth) rfl (taken_cpls s c) ⟨(congrArg Nvme.tempOver hrest :), ?_⟩
    exact (congrArg Nvme.tempUnder hrest :).trans (by obtain ⟨o, q, ht⟩ := taken_frame s c; rw [ht])
  case underThreshold =>
    have hrest := (complete_rest ({ s.taken c with nvme := { (s.taken c).nvme with tempUnder := dwBits d 0 16 } } : State) c stOk 0 0 []).1.1
    refine setFeature_stored hruns hid hsave rfl (setTempThreshold_under hsel hth) rfl (taken_cpls s c) ⟨(congrArg Nvme.tempUnder hrest :), ?_⟩
    exact (congrArg Nvme.tempOver hrest :).trans (by obtain ⟨o, q, ht⟩ := taken_frame s c; rw [ht])
  case noThreshold => exact answer rfl (if_pos (hbad.imp id id))
  case recovery => exact answer rfl (if_neg (not_not_intro h))
  case noRecovery => exact answer rfl (if_pos h)
  case atomicity => exact answer rfl (if_neg (by rw [h]; decide))
  case noAtomicity => exact answer rfl (if_pos h)
  case queues =>
    refine setFeature_ctrl hruns hid hsave rfl
      (setQueues_grant hsq hcq (by rw [hctrl]; exact hnosq) (by rw [hctrl]; exact hnocq) _ (by rw [hpairs])) fun t _ _ _ _ _ honly hafter => ?_
    exact ⟨(congrArg Ctrl.numQueues hafter :), honly⟩
  case noQueues => exact answer rfl (if_pos (.inl h))
  case coalescing => exact setFeature_ctrl hruns hid hsave rfl rfl fun t _ _ _ _ _ honly hafter => ⟨(congrArg Ctrl.coalescing hafter :), honly⟩
  case vector =>
    have hin : ¬ portGet (s.taken c).image.cfg (k / 2) 12 ≤ dwBits d 0 16 := by rw [taken_image]; omega
    refine setFeature_ctrl hruns hid hsave rfl (if_neg hin) fun t _ _ _ _ _ _ hafter => ?_
    have hcfg : (t.ctrl k).vecConfig = mapSet (fun _ => 0) (s.ctrl k).vecConfig (dwBits d 0 16) (dwBits d 16 1) := (congrArg Ctrl.vecConfig hafter :)
    rw [hcfg]
    exact ⟨(mapGet_mapSet _ _ _ _).trans (if_pos rfl), fun v hv => (mapGet_mapSet _ _ _ _).trans (if_neg hv)⟩
  case noVector => exact answer rfl (if_pos (by rw [taken_image]; exact h))
  case events => exact setFeature_ctrl hruns hid hsave rfl rfl fun t _ _ _ _ _ honly hafter => ⟨(congrArg Ctrl.asyncConfig hafter :), honly⟩
  case hctm =>
    refine setFeature_stored hruns hid hsave rfl (setHctm_stored h1 h12 h2) rfl (taken_cpls s c) ?_
    rw [(complete_outside _ _ _ _ _ _).2.1, (complete_outside _ _ _ _ _ _).2.1]
    exact hctm_rd (s.taken c) (bitsOf_lt _ _ _) (bitsOf_lt _ _ _)
  case hctmOrder => exact answer rfl (setHctm_order h1 h2 h21)
  case hctmHigh => exact answer rfl (setHctm_high h)
  case ceiling =>
    refine setFeature_stored hruns hid hsave rfl (if_pos h) rfl (taken_cpls s c) ?_
    rw [(complete_outside _ _ _ _ _ _).2.2.2.2]
    obtain ⟨o, q, ht⟩ := taken_frame s c
    rw [ht]
  case noCeiling =>
    refine answer rfl (if_neg ?_)
    show ¬(d.toNat = 0 ∨ 256 ≤ d.toNat ∧ d.toNat ≤ 786432)
    omega
  case thermalBusy => exact answer rfl (asFitting_busy h _)
  case roleBusy => exact answer rfl (asFitting_busy h _)
  case role =>
    refine ⟨_, rfl, congrArg Host.Outcome.next ((setFeature_run hruns hid hsave _).trans ?_)⟩
    rw [State.setRole, asFitting_idle h, taken_reg]
    rfl
  case thermal =>
    exact ⟨_, _, _, _, _, rfl, (bitsOf_putBits (by decide)).trans (Nat.mod_eq_of_lt (bitsOf_lt _ _ _)),
      (bitsOf_putBits (by decide)).trans (Nat.mod_eq_of_lt (bitsOf_lt _ _ _)),
      congrArg Host.Outcome.next ((setFeature_run hruns hid hsave _).trans (asFitting_idle h _))⟩
  case blobBad => exact answer rfl (setMantle_bad ((hblob _).trans h))
  case blobBusy => exact answer rfl (setMantle_busy ((hblob _).trans h) (hlearn.trans h'))
  case blobGood =>
    obtain ⟨hnvme, hrestored, hq⟩ := blobTaken_frame (s.taken c) c.data
    rw [← hstrings]
    refine setFeature_stored hruns hid hsave rfl (setMantle_good ((hblob _).trans h) (hlearn.trans h0) (hloss.trans hl))
      (by rw [hnvme]) ((congrArg Nvme.cpls hnvme).trans (taken_cpls s c)) ⟨?_, fun j hj => ?_⟩
    · rw [(complete_outside _ _ _ _ _ _).2.1]
      exact hrestored
    · obtain ⟨x, hx, hxq⟩ := Option.map_eq_some_iff.mp (hq j hj)
      rw [State.ownStr, ← (complete_outside _ c stOk (classBits ((s.taken c).blobStrings c.data)) 0 []).2.2.2.1] at hx
      rw [str_of_own hx, hxq, hcharge]
      rfl

end

section
/-!
PROOFS. Scope: Sanitize, what it turns away, and Namespace Management Delete (06 R194, R211 to R215).
-/
namespace Sys2Proof.Machine

/-! ### The checks of a Sanitize (R211, R212) -/

section
variable {s : State} {c : Sqe}

theorem taken_sanRefused (s : State) (c : Sqe) : (s.taken c).sanRefused c = s.sanRefused c := by
  obtain ⟨o, q, h⟩ := taken_frame s c
  rw [h]
  rfl

theorem sanRefused_noDeallocate (h : c.cdw10.getLsbD 9 = true) : s.sanRefused c = some stInvalidField := if_pos h

theorem sanRefused_open (h : c.cdw10.getLsbD 9 = false) (hopen : s.openTakes ≠ [] ∨ s.rd Reg.FIT_STATUS_STATE ≠ 0) :
    s.sanRefused c = some stSequence := by
  unfold State.sanRefused
  rw [if_neg (by rw [h]; decide), if_pos]
  simpa using hopen

theorem sanRefused_none (h : c.cdw10.getLsbD 9 = false) (hopen : s.openTakes = []) (hfit : s.rd Reg.FIT_STATUS_STATE = 0) : s.sanRefused c = none := by
  unfold State.sanRefused
  rw [if_neg (by rw [h]; decide), if_neg (by simp [hopen, hfit])]

/-- A Sanitize that its checks turn away completes with what is wrong, in each form. -/
theorem sanitize_refused (hruns : Safety.runs s c .service) {st : Status} (h : s.sanRefused c = some st) :
    Safety.settled s (.sanitizeBlockErase c) (Safety.cpl c st 0 0 []) ∧ Safety.settled s (.sanitizeCryptoErase c) (Safety.cpl c st 0 0 []) ∧
    Safety.answered s (.sanitizeExitFailureMode c) (Safety.cpl c st 0 0 []) := by
  have hrefused := (taken_sanRefused s c).trans h
  have hstart (action : Nat) : (s.taken c).sanitize c action = (s.taken c).fail c st := by rw [State.sanitize, hrefused]
  exact ⟨settled_of_admin hruns rfl (hstart 2), settled_of_admin hruns rfl (hstart 4), answered_of_admin hruns rfl (by rw [State.sanExit, hrefused]; rfl)⟩

/-! ### A Sanitize that starts -/

/-- The state in which a sanitize begins: its command completed, the commands in hand ended, its action recorded. -/
def State.sanBegun (s : State) (c : Sqe) (action : Nat) : State :=
  ((((s.taken c).succeed c).sanStop).modSan fun x => { x with action := action, cdw10 := c.cdw10.toNat, every := [] }).sanBegin

theorem sanitize_starts (h : s.sanRefused c = none) (action : Nat) : (s.taken c).sanitize c action = (s.sanBegun c action).sanStep := by
  rw [State.sanitize, taken_sanRefused, h]
  rfl

/-- No command is in hand once a sanitize has ended them. -/
theorem sanStop_none (s : State) : s.sanStop.path.reads = [] ∧ s.sanStop.path.trims = [] ∧ s.sanStop.nvme.seqWaits = [] := ⟨rfl, rfl, rfl⟩

/-- A state as a sanitize of an action begins its work. -/
def State.sanReady (s : State) : State :=
  s.modSan fun x => { x with progress := 0, status := 2, since := s.now, bad := false, failed := false, blocks := [], slots := [], keys := 0 }

theorem sanBegin_blocks (h : s.nvme.sanitize.action = 2) : s.sanBegin = s.sanReady.sanBlocks := if_pos h
theorem sanBegin_keys (h : s.nvme.sanitize.action = 4) : s.sanBegin = s.sanReady.sanKeys := if_neg (by omega)

end

/-! ### The blocks of a Block Erase (R215) -/

/-- A block awaits erase, or is retired. -/
def State.blkWaits (s : State) (m : Nat × Nat × Nat) : Prop := (s.blk m).state = 2 ∨ (s.blk m).state = 3

theorem blkWaits_of_blocks {s t : State} {m : Nat × Nat × Nat} (h : t.ftl.blocks = s.ftl.blocks) (hwaits : s.blkWaits m) : t.blkWaits m := by
  unfold State.blkWaits State.blk at *
  rwa [h]

theorem blk_setBlk (s : State) (m n : Nat × Nat × Nat) (b : Blk) :
    (s.setBlk m b).blk n = if blkKey n.1 n.2.1 n.2.2 = blkKey m.1 m.2.1 m.2.2 then b else s.blk n := mapGet_mapSet _ _ _ _

/-- A block is freed for erase unless it is retired. -/
def State.freeBlk (s : State) (m : Nat × Nat × Nat) : State := if (s.blk m).state = 3 then s else s.setBlk m { s.blk m with state := 2 }

theorem freeBlk_frame (s : State) (m : Nat × Nat × Nat) : ∃ l, s.freeBlk m = s.modFtl fun t => { t with blocks := l } := by
  unfold State.freeBlk
  split
  · exact ⟨s.ftl.blocks, rfl⟩
  · exact ⟨_, rfl⟩

theorem freeBlk_waits (s : State) (m : Nat × Nat × Nat) : (s.freeBlk m).blkWaits m := by
  unfold State.freeBlk
  split
  · exact .inr ‹_›
  · rw [State.blkWaits, blk_setBlk, if_pos rfl]
    exact .inl rfl

theorem freeBlk_keeps {s : State} {n : Nat × Nat × Nat} (h : s.blkWaits n) (m : Nat × Nat × Nat) : (s.freeBlk m).blkWaits n := by
  unfold State.freeBlk
  split
  · exact h
  · rw [State.blkWaits, blk_setBlk]
    split
    · exact .inl rfl
    · exact h

/-- The blocks of a list freed one by one all await erase, and nothing but the table of blocks changes. -/
theorem freeBlks (l : List (Nat × Nat × Nat)) (s : State) : (∃ bs, l.foldl State.freeBlk s = s.modFtl fun t => { t with blocks := bs }) ∧
    (∀ m, s.blkWaits m → (l.foldl State.freeBlk s).blkWaits m) ∧ ∀ m ∈ l, (l.foldl State.freeBlk s).blkWaits m := by
  induction l generalizing s with
  | nil => exact ⟨⟨s.ftl.blocks, rfl⟩, fun _ h => h, fun _ h => absurd h List.not_mem_nil⟩
  | cons m l ih =>
    obtain ⟨⟨bs, hframe⟩, hkeeps, hwaits⟩ := ih (s.freeBlk m)
    obtain ⟨b, hfree⟩ := freeBlk_frame s m
    refine ⟨⟨bs, ?_⟩, fun n h => hkeeps n (freeBlk_keeps h m), fun n hn => ?_⟩
    · rw [List.foldl_cons, hframe, hfree]
      rfl
    · rcases List.mem_cons.mp hn with rfl | hn
      · exact hkeeps n (freeBlk_waits s n)
      · exact hwaits n hn

/-- A Block Erase begins with no mapping, no take, the bands of metadata alone, and its blocks awaiting erase. -/
theorem sanBlocks_begins (s : State) : s.sanBlocks.ftl.map = [] ∧ s.sanBlocks.takes.dir = [] ∧ s.sanBlocks.takes.nextTake = 1 ∧
    s.sanBlocks.path = s.path ∧ s.sanBlocks.nvme = { s.nvme with sanitize := s.sanBlocks.nvme.sanitize } ∧
    s.sanBlocks.nvme.sanitize = { s.nvme.sanitize with every := s.sanBlocks.nvme.sanitize.every, blocks := s.sanBlocks.nvme.sanitize.blocks } ∧
    (∀ b ∈ s.sanBlocks.ftl.bands, 1 < b.kind) ∧ ∀ m ∈ s.sanBlocks.nvme.sanitize.blocks, s.sanBlocks.blkWaits m := by
  unfold State.sanBlocks
  extract_lets l s1 keep s2
  obtain ⟨⟨bs, hframe⟩, -, hwaits⟩ := freeBlks l s.emptyVolume
  have hfreed : s1 = s.emptyVolume.modFtl fun t => { t with blocks := bs } := hframe
  have hwaits : ∀ m ∈ l, s1.blkWaits m := hwaits
  clear_value s1 l
  subst hfreed
  refine ⟨?_, ?_, ?_, ?_, ?_, ?_, fun b hb => ?_, fun m hm => ?_⟩
  iterate 6 (· rfl)
  · simpa using (List.mem_filter.mp hb).2
  · refine blkWaits_of_blocks ?_ (hwaits m hm)
    rfl

/-- A Crypto Erase begins with every key slot that a namespace names to replace. -/
theorem sanKeys_begins (s : State) : s.sanKeys.path = s.path ∧ s.sanKeys.nvme = { s.nvme with sanitize := s.sanKeys.nvme.sanitize } ∧
    s.sanKeys.nvme.sanitize = { s.nvme.sanitize with slots := s.sanKeys.nvme.sanitize.slots, keys := s.sanKeys.nvme.sanitize.keys } ∧
    s.sanKeys.nvme.sanitize.slots = (List.range 1024).filter s.sanKeys.slotNamed := by
  unfold State.sanKeys
  extract_lets l
  have hl : l = (List.range 1024).filter s.slotNamed := rfl
  clear_value l
  exact ⟨rfl, rfl, rfl, hl⟩

/-! ### Commands that a sanitize in progress turns away (R214) -/

/-- The commands turned away are admin commands of a kind that a sanitize in progress does not let through. -/
theorem exec_sanitizeTurnsAway {c : Sqe} (s : State) (hmi : c.mi = false) {i : Instr} (h : i ∈ [Instr.setArbitration c, .setNumberOfQueues c, .setDirtyWindow c, .setThermalPolicy c, .createIoCq c,
  .createIoSq c, .deleteIoCq c, .namespaceCreate c, .sanitizeOverwrite c, .firmwareImageDownload c, .asynchronousEventRequest c, .nvmeMiSend c,
  .fittingReport c, .deleteIoSq c, .namespaceDelete c, .sanitizeBlockErase c, .sanitizeCryptoErase c, .keyLoadLoad c]) :
    ∃ kind f, (kind ≠ .always ∧ kind ≠ .patch) ∧ exec i s = .next (s.admin c kind f) := by
  have service {i : Instr} {f : State → State} (hexec : exec i s = .next (s.admin c .service f)) :
      ∃ kind f, (kind ≠ .always ∧ kind ≠ .patch) ∧ exec i s = .next (s.admin c kind f) := ⟨_, _, by decide, hexec⟩
  have plain {i : Instr} {f : State → State} (hexec : exec i s = .next (s.admin c .plain f)) :
      ∃ kind f, (kind ≠ .always ∧ kind ≠ .patch) ∧ exec i s = .next (s.admin c kind f) := ⟨_, _, by decide, hexec⟩
  have queued {i : Instr} {f : State → State} (hexec : exec i s = .next (if c.mi then s else s.admin c .service f)) :
      ∃ kind f, (kind ≠ .always ∧ kind ≠ .patch) ∧ exec i s = .next (s.admin c kind f) := service (hexec.trans (by rw [hmi]; rfl))
  simp only [List.mem_cons, List.not_mem_nil, or_false] at h
  rcases h with rfl | rfl | rfl | rfl | rfl | rfl | rfl | rfl | rfl | rfl | rfl | rfl | rfl | rfl | rfl | rfl | rfl | rfl
  exacts [service rfl, service rfl, service rfl, service rfl, queued rfl, queued rfl, queued rfl, plain rfl, service rfl, plain rfl, queued rfl,
    queued rfl, plain rfl, queued rfl, plain rfl, service rfl, service rfl, ⟨.vendor, _, by decide, rfl⟩]

/-! ### Namespace Management Delete (R194) -/

theorem aen_nss (s : State) (c : Nat) (a : Aen) : (s.aen c a).nvme.nss = s.nvme.nss := by
  unfold State.aen
  dsimp only
  split
  · rfl
  · split
    · exact (congrArg Nvme.nss (post_rest _ _).1.1 :)
    · rfl

theorem nsChanged_nss (s : State) (n : Nat) : (s.nsChanged n).nvme.nss = s.nvme.nss := by
  unfold State.nsChanged
  refine List.foldlRecOn (motive := fun t : State => t.nvme.nss = s.nvme.nss) _ _ rfl fun t ht k _ => ?_
  dsimp only
  split
  · exact (aen_nss _ _ _).trans ht
  · exact ht

/-- A namespace whose TRIM gets its sequence number is in the table no longer. -/
theorem nsDelete_nss {s : State} (h : s.seqRoom 1 = true) (n : Ns) : ((s.nsDelete n).nvme.nss.any fun x => x.nsid == n.nsid) = false := by
  have hseq : s.ftl.seqNext < s.ftl.seqCeil := of_decide_eq_true h
  obtain ⟨p, hp⟩ : ∃ p, s.trimAll n = some p := by
    unfold State.trimAll State.trim State.takeSeq
    rw [if_pos hseq]
    exact ⟨_, rfl⟩
  rw [State.nsDelete, hp]
  dsimp only
  rw [nsChanged_nss, State.modFtl_nvme]
  refine List.any_eq_false.mpr fun x hx => ?_
  simpa using (List.mem_filter.mp hx).2

theorem taken_namespaces (s : State) (c : Sqe) : (∀ n, (s.taken c).ns n = s.ns n) ∧ ∀ n, (s.taken c).seqRoom n = s.seqRoom n := by
  obtain ⟨o, q, h⟩ := taken_frame s c
  rw [h]
  exact ⟨fun _ => rfl, fun _ => rfl⟩

section
variable {s : State} {c : Sqe} (hnsid : c.nsid ≠ 0xFFFFFFFF)
include hnsid

theorem nsDeleteCmd_none (h : s.ns c.nsid = none) : s.nsDeleteCmd c = s.fail c stInvalidNs := by
  rw [State.nsDeleteCmd, if_neg hnsid, h]

theorem nsDeleteCmd_attached {n : Ns} (h : s.ns c.nsid = some n) (hattached : n.attached = true) :
    s.nsDeleteCmd c = s.fail c (stVendor 0xA2 true) := by
  rw [State.nsDeleteCmd, if_neg hnsid, h]
  exact if_pos hattached

theorem nsDeleteCmd_detached {n : Ns} (h : s.ns c.nsid = some n) (hattached : n.attached = false) (hroom : s.seqRoom 1 = true) :
    s.nsDeleteCmd c = (s.nsDelete n).succeed c := by
  rw [State.nsDeleteCmd, if_neg hnsid, h]
  exact (if_neg (by rw [hattached]; decide)).trans (if_pos hroom)

end

end Sys2Proof.Machine

open Sys2Proof
open Sys2Proof.Machine

/-- Settles O31: the checks of a Sanitize, what one that starts leaves, and what each end of a Delete is. -/
theorem sanitizeAndNamespaceDeletion : Obligations.SanitizeAndNamespaceDeletion := by
  refine fun c s => ⟨fun hruns => ⟨fun hnd => ?_, fun hnd hopen => ?_, fun hnd hopen hfit => ⟨?_, ?_, ?_⟩, ?_⟩, fun hacts hsan hmi i hi => ?_,
    fun hruns hnsid => ⟨fun hns => ?_, fun n hns hattached => ?_, fun n hns hattached hroom => ?_⟩⟩
  · exact sanitize_refused hruns (sanRefused_noDeallocate hnd)
  · exact sanitize_refused hruns (sanRefused_open hnd hopen)
  · have hexec : exec (.sanitizeBlockErase c) s = _ := exec_admin hruns rfl
    rw [sanitize_starts (sanRefused_none hnd hopen hfit)] at hexec
    refine ⟨_, hexec, ?_⟩
    obtain ⟨hreads, htrims, hwaits⟩ := sanStop_none ((s.taken c).succeed c)
    rw [State.sanBegun, sanBegin_blocks rfl]
    obtain ⟨hmap, hdir, hnext, hpath, hnvme, hsan, hbands, hblocks⟩ := sanBlocks_begins
      ((((s.taken c).succeed c).sanStop.modSan fun x => { x with action := 2, cdw10 := c.cdw10.toNat, every := [] }).sanReady)
    rw [hpath]
    exact ⟨(congrArg Sanitize.action hsan :), (congrArg Sanitize.status hsan :), (congrArg Sanitize.progress hsan :), (congrArg Sanitize.cdw10 hsan :),
      hmap, hdir, hnext, hreads, htrims, (congrArg Nvme.seqWaits hnvme :), hbands, hblocks⟩
  · have hexec : exec (.sanitizeCryptoErase c) s = _ := exec_admin hruns rfl
    rw [sanitize_starts (sanRefused_none hnd hopen hfit)] at hexec
    refine ⟨_, hexec, ?_⟩
    obtain ⟨hreads, htrims, hwaits⟩ := sanStop_none ((s.taken c).succeed c)
    rw [State.sanBegun, sanBegin_keys rfl]
    obtain ⟨hpath, hnvme, hsan, hslots⟩ := sanKeys_begins
      ((((s.taken c).succeed c).sanStop.modSan fun x => { x with action := 4, cdw10 := c.cdw10.toNat, every := [] }).sanReady)
    rw [hpath]
    exact ⟨(congrArg Sanitize.action hsan :), (congrArg Sanitize.status hsan :), (congrArg Sanitize.progress hsan :), (congrArg Sanitize.cdw10 hsan :),
      hreads, htrims, (congrArg Nvme.seqWaits hnvme :), hslots⟩
  · have hexec : exec (.sanitizeExitFailureMode c) s = _ := exec_admin hruns rfl
    rw [State.sanExit, taken_sanRefused, sanRefused_none hnd hopen hfit] at hexec
    have hrest := (complete_rest ((s.taken c).modSan fun x => { x with failed := false }) c stOk 0 0 []).1.1
    refine ⟨_, hexec, (congrArg Nvme.sanitize hrest).trans ?_, complete_cpls_of_outs _ _ _ _ rfl (taken_cpls s c),
      complete_onlyNvme _ _ _ _ (onlyNvme_trans (taken_onlyNvme s c) (onlyNvme_setNvme _ _))⟩
    show ({ (s.taken c).nvme.sanitize with failed := false } : Sanitize) = _
    rw [(taken_patch s c).2.2.1]
  · exact answered_of_admin hruns rfl rfl
  · obtain ⟨kind, f, ⟨halways, hpatch⟩, hexec⟩ := exec_sanitizeTurnsAway s hmi hi
    exact answered_of_refused hacts (if_pos ⟨hsan, halways, hpatch⟩) hexec
  · exact settled_of_admin hruns rfl (nsDeleteCmd_none hnsid (((taken_namespaces s c).1 _).trans hns))
  · exact settled_of_admin hruns rfl (nsDeleteCmd_attached hnsid (((taken_namespaces s c).1 _).trans hns) hattached)
  · have hexec : exec (.namespaceDelete c) s = _ := exec_admin hruns rfl
    obtain ⟨htakenNs, htakenRoom⟩ := taken_namespaces s c
    rw [nsDeleteCmd_detached hnsid ((htakenNs _).trans hns) hattached ((htakenRoom _).trans hroom)] at hexec
    refine ⟨_, hexec, ?_⟩
    have hn : n.nsid = c.nsid := by simpa using List.find?_some hns
    rw [State.succeed, (congrArg Nvme.nss (complete_rest _ c stOk 0 0 []).1.1 :), ← hn]
    exact nsDelete_nss ((htakenRoom _).trans hroom) n

end

section
/-!
PROOFS. Scope: NVMe-MI on the management port and in-band (06 R231 to R234; 01 R42).
-/
namespace Sys2Proof.Machine

/-! ### A wake keeps the power state (20 R694) -/

theorem noteWake_rd {f : Field} (hwake : f.off ≠ Reg.PWR_LAST_WAKE) (hlo : f.off ≠ Reg.PWR_LAST_WAKE_TIME_LO) (hhi : f.off ≠ Reg.PWR_LAST_WAKE_TIME_HI)
    (s : State) (set fromSt abortPoint time : Nat) : (s.noteWake set fromSt abortPoint time).rd f = s.rd f := by
  rw [State.noteWake, State.wr64, State.rd, reg_setReg_other hhi, reg_setReg_other hlo, ← State.rd, rd_wr_off (by exact hwake),
    rd_wr_off (by exact hwake), rd_wr_off (by exact hwake), rd_wr_off (by exact hwake)]

theorem wake_state (s : State) (code : Nat) : (s.wake code).rd Reg.PWR_STATUS_STATE = s.rd Reg.PWR_STATUS_STATE := by
  have hnote (set fromSt abortPoint time : Nat) : (s.noteWake set fromSt abortPoint time).rd Reg.PWR_STATUS_STATE = s.rd Reg.PWR_STATUS_STATE :=
    noteWake_rd (by decide) (by decide) (by decide) s set fromSt abortPoint time
  unfold State.wake
  split
  · rfl
  · split
    · split
      · rfl
      · rfl
    · split
      · rw [State.beginExit, State.modPwr_rd, rd_wr_apart (by decide), rd_wr_apart (by decide), hnote]
      · split
        · exact hnote _ _ _ _
        · rfl

/-- A message that wakes leaves whether the main domain is up, and which controllers there are. -/
theorem noteMgmt_wake (s : State) (code : Nat) : (s.noteMgmt.wake code).mainUp = s.mainUp ∧
    ∀ k, (s.noteMgmt.wake code).hasCtrl k = s.hasCtrl k := by
  have hstate := wake_state s.noteMgmt code
  obtain ⟨r, p, h, -⟩ := wake_frame s.noteMgmt code
  rw [State.mainUp, hstate, h]
  exact ⟨rfl, fun _ => rfl⟩

/-! ### On the management port (R231, R232) -/

section
variable {s u : State} {a b : Word} {i : Instr} {op : Nat} {r : MiAns}

/-- An endpoint that does not answer does nothing. -/
theorem miCmd_silent (h : s.miAnswers = false) (op : Nat) (a b : Word) : s.miCmd op a b = s := if_pos (by rw [h]; rfl)

theorem miCmd_answers (h : s.miAnswers = true) (hserve : s.noteMgmt.miServe op a b = (u, r)) : s.miCmd op a b = u.miMessage 1 r.bytes := by
  rw [State.miCmd, if_neg (by rw [h]; decide), hserve]
  rfl

/-- A command that the endpoint serves is answered with one message. -/
theorem said_of_serve (h : s.miAnswers = true) (hexec : exec i s = .next (s.miCmd op a b)) (hserve : s.noteMgmt.miServe op a b = (u, r)) :
    exec i s = .next (u.miMessage 1 r.bytes) := hexec.trans (congrArg Host.Outcome.next (miCmd_answers h hserve))

/-- What the endpoint reads does not depend on the note of the message. -/
theorem noteMgmt_reads (s : State) : (∀ a, s.noteMgmt.miReadStructure a = s.miReadStructure a) ∧ s.noteMgmt.miSubsystemPoll = s.miSubsystemPoll ∧
    (∀ a n w, ({ s.noteMgmt with fresh := n } : State).miControllerPoll a w = s.miControllerPoll a w) ∧ s.noteMgmt.vpd = s.vpd :=
  ⟨fun _ => rfl, rfl, fun _ _ _ => rfl, rfl⟩

theorem miConfigSet_frequency (hid : bitsOf a 0 8 = 1) (hf : bitsOf a 8 4 = 2) :
    s.miConfigSet a b = ({ s with nvme := { s.nvme with miFreq := 400 } }, miOk 0 []) := by
  unfold State.miConfigSet
  dsimp only
  rw [if_pos (by omega), hf]
  rfl

theorem miConfigSet_unit (hid : bitsOf a 0 8 = 3) (hlow : 64 ≤ bitsOf b 0 16) (hhigh : bitsOf b 0 16 ≤ 250) :
    s.miConfigSet a b = ({ s with nvme := { s.nvme with miUnit := bitsOf b 0 16 } }, miOk 0 []) := by
  unfold State.miConfigSet
  dsimp only
  rw [if_neg (by omega), if_pos ⟨hid, hlow, hhigh⟩]

theorem miConfigSet_badUnit (hid : bitsOf a 0 8 = 3) (hunit : bitsOf b 0 16 < 64 ∨ 250 < bitsOf b 0 16) : s.miConfigSet a b = (s, miBadParam) := by
  unfold State.miConfigSet
  dsimp only
  rw [if_neg (by omega), if_neg (by omega)]

theorem miConfigGet_unit (hid : bitsOf a 0 8 = 3) : s.miConfigGet a = miOk s.nvme.miUnit [] := by
  rw [State.miConfigGet, hid]
  rfl

theorem miVpdRead_inside (h : bitsOf a 0 16 + bitsOf b 0 16 ≤ 256) : s.miVpdRead a b = miOk 0 (slice s.vpd (bitsOf a 0 16) (bitsOf b 0 16)) :=
  if_neg (by omega)

theorem miVpdRead_outside (h : 256 < bitsOf a 0 16 + bitsOf b 0 16) : s.miVpdRead a b = miBadParam := if_pos h

end

/-- A message with its check ends with the check of what comes before it. -/
theorem leAt_check (h : List Byte) : leAt (h ++ leBytes 4 (crc32c h)) ((h ++ leBytes 4 (crc32c h)).length - 4) 4 =
    crc32c ((h ++ leBytes 4 (crc32c h)).take ((h ++ leBytes 4 (crc32c h)).length - 4)) := by
  have hlength : (h ++ leBytes 4 (crc32c h)).length - 4 = h.length := by rw [List.length_append, leBytes_length, Nat.add_sub_cancel]
  have hcheck := leAt_append_leBytes h [] 4 (crc32c h)
  rw [List.append_nil] at hcheck
  rw [hlength, List.take_left, hcheck]
  exact Nat.mod_eq_of_lt (BitVec.isLt _)

/-! ### Tunnelled admin commands (R233) -/

section
variable {s : State} {op : Fin 256} {c : Sqe} (hanswers : s.miAnswers = true)
include hanswers

theorem miAdminCommand_down (hup : s.mainUp = false) :
    exec (.miAdminCommand op c) s = .next ((s.noteMgmt.wake 4).miMessage 2 (MiAns.bytes ⟨2, 0, []⟩)) :=
  congrArg Host.Outcome.next ((if_neg (by rw [hanswers]; decide)).trans (if_pos (by rw [(noteMgmt_wake s 4).1, hup]; rfl)))

variable (hup : s.mainUp = true)
include hup

theorem miAdminCommand_noCtrl (hctrl : s.hasCtrl c.ctrl.val = false) :
    exec (.miAdminCommand op c) s = .next ((s.noteMgmt.wake 4).miMessage 2 miBadParam.bytes) := by
  obtain ⟨hwakeUp, hwakeCtrl⟩ := noteMgmt_wake s 4
  refine congrArg Host.Outcome.next ((if_neg (by rw [hanswers]; decide)).trans ((if_neg ?_).trans (if_pos ?_)))
  · rw [hwakeUp, hup]
    decide
  · rw [hwakeCtrl, hctrl]
    rfl

/-- A tunnelled command runs as the admin command of its opcode. -/
theorem miAdminCommand_runs (hctrl : s.hasCtrl c.ctrl.val = true) {i : Instr} {t : State}
    (hopcode : miAdmin op.val { c with mi := true } (s.noteMgmt.wake 4) = exec i (s.noteMgmt.wake 4))
    (hexec : exec i (s.noteMgmt.wake 4) = .next t) : exec (.miAdminCommand op c) s = exec i (s.noteMgmt.wake 4) := by
  obtain ⟨hwakeUp, hwakeCtrl⟩ := noteMgmt_wake s 4
  refine Eq.trans (congrArg Host.Outcome.next ((if_neg (by rw [hanswers]; decide)).trans ((if_neg ?_).trans (if_neg ?_)))) ?_
  · rw [hwakeUp, hup]
    decide
  · rw [hwakeCtrl, hctrl]
    decide
  · rw [hopcode, hexec]
    rfl

end

theorem miAdmin_other {op : Nat} (h : op ∉ [0x02, 0x06, 0x09, 0x0A, 0x0D, 0x10, 0x11, 0x84, 0xC9, 0xCD, 0xCE]) (c : Sqe) (s : State) :
    miAdmin op c s = execInvalidCommandOpcode c s := by
  simp only [List.mem_cons, List.not_mem_nil, or_false, not_or] at h
  unfold miAdmin
  split
  iterate 11 (· omega)
  rfl

/-! ### In-band (R234) -/

section
variable {s : State} {c : Sqe}

theorem taken_belfry (s : State) (c : Sqe) : (s.taken c).belfryRuns = s.belfryRuns ∧ (s.taken c).miSubsystemPoll = s.miSubsystemPoll := by
  obtain ⟨o, q, h⟩ := taken_frame s c
  rw [h]
  exact ⟨rfl, rfl⟩

theorem miSend_halted (h : s.belfryRuns = false) : s.miSend c = s := if_pos (by rw [h]; rfl)
theorem miReceive_halted (h : s.belfryRuns = false) : s.miReceive c = s := if_pos (by rw [h]; rfl)

theorem miSend_poll (h : s.belfryRuns = true) (hop : dwBits c.cdw11 0 8 = 1) : s.miSend c =
    (s.modCtrl c.ctrl.val fun k => { k with miResponse := s.miSubsystemPoll.bytes }).complete c stOk
      (s.miSubsystemPoll.status + 256 * s.miSubsystemPoll.resp) 0 [] := by
  unfold State.miSend
  rw [if_neg (by rw [h]; decide), hop]
  rfl

theorem miReceive_runs (h : s.belfryRuns = true) : s.miReceive c = s.complete c stOk
    (leAt (s.ctrl c.ctrl.val).miResponse 0 1 + 256 * leAt (s.ctrl c.ctrl.val).miResponse 1 3) 0 (s.ctrl c.ctrl.val).miResponse :=
  if_neg (by rw [h]; decide)

end

end Sys2Proof.Machine

open Sys2Proof
open Sys2Proof.Machine

/-- Settles O34: an endpoint that answers serves each command once, and one that does not leaves everything as it is. -/
theorem managementEndpointAnswers : Obligations.ManagementEndpointAnswers := by
  refine ⟨fun a b d c op s hsilent i hi => ?_, fun a b d s hanswers => ?_, fun op c s hanswers => ?_, fun c s hmi hruns => ⟨fun hhalted => ?_, fun hbelfry => ?_⟩⟩
  · have silent {i : Instr} {op : Nat} (hexec : exec i s = .next (s.miCmd op a b)) : exec i s = .next s :=
      hexec.trans (congrArg Host.Outcome.next (miCmd_silent hsilent op a b))
    simp only [List.mem_cons, List.not_mem_nil, or_false] at hi
    rcases hi with rfl | rfl | rfl | rfl | rfl | rfl | rfl | rfl | rfl | rfl
    exacts [silent rfl, silent rfl, silent rfl, silent rfl, silent rfl, silent rfl, silent rfl,
      congrArg Host.Outcome.next (if_neg (by rw [hsilent]; decide)), silent rfl, congrArg Host.Outcome.next (if_pos (by rw [hsilent]; rfl))]
  · intro said
    obtain ⟨hstructure, hpoll, hctrls, hvpd⟩ := noteMgmt_reads s
    have serve {i : Instr} {op : Nat} {u : State} {r : MiAns} := said_of_serve (i := i) (op := op) (u := u) (r := r) (a := a) (b := b) hanswers
    refine ⟨serve rfl (by rw [← hstructure]; rfl), serve rfl (by rw [← hpoll]; rfl), ⟨(Config.freeWord s.fresh).toNat, _, serve rfl ?_, rfl⟩,
      fun hid hf => serve rfl (miConfigSet_frequency hid hf), fun hid hlow hhigh => serve rfl (miConfigSet_unit hid hlow hhigh),
      fun hid hunit => serve rfl (miConfigSet_badUnit hid hunit), fun hid => serve rfl (congrArg _ (miConfigGet_unit hid)),
      fun h => serve rfl ?_, fun h => serve rfl (congrArg _ (miVpdRead_outside h)), serve rfl rfl, serve rfl rfl, ?_,
      _, _, serve rfl rfl, rfl, by decide, by decide, leAt_check _⟩
    · rw [← hctrls a (s.fresh + 1)]
      rfl
    · rw [← hvpd]
      exact congrArg _ (miVpdRead_inside h)
    · exact congrArg Host.Outcome.next ((if_pos hanswers).trans (congrArg State.nssr (miCmd_answers hanswers rfl)))
  · intro v r
    refine ⟨fun hup => miAdminCommand_down hanswers hup, fun hup hctrl => miAdminCommand_noCtrl hanswers hup hctrl, fun hup hctrl => ?_⟩
    have runs {i : Instr} {t : State} := miAdminCommand_runs (op := op) (i := i) (t := t) hanswers hup hctrl
    exact ⟨fun hop => runs (by rw [hop]; rfl) rfl, fun hop => runs (by rw [hop]; rfl) rfl, fun hop => runs (by rw [hop]; rfl) rfl,
      fun hop => runs (by rw [hop]; rfl) rfl, fun hop hpage => runs (by rw [hop, miAdmin, miLog, hpage]; rfl) rfl,
      fun hop => runs (miAdmin_other hop _ _) rfl⟩
  · obtain ⟨htaken, -⟩ := taken_belfry s c
    exact ⟨(exec_queued hmi hruns rfl).trans (congrArg _ (miSend_halted (htaken.trans hhalted))),
      (exec_queued hmi hruns rfl).trans (congrArg _ (miReceive_halted (htaken.trans hhalted)))⟩
  · obtain ⟨htaken, hpoll⟩ := taken_belfry s c
    refine ⟨fun hop => ?_, answered_of_queued hmi hruns rfl ?_⟩
    · have hexec : exec (.nvmeMiSend c) s = _ := exec_queued hmi hruns rfl
      rw [miSend_poll (htaken.trans hbelfry) hop, hpoll] at hexec
      obtain ⟨hcpls, honly, _, _, _, _, _, hafter, -⟩ := ctrlStored_complete s c (fun k => { k with miResponse := s.miSubsystemPoll.bytes }) stOk
        (s.miSubsystemPoll.status + 256 * s.miSubsystemPoll.resp) 0 []
      exact ⟨_, hexec, (congrArg Ctrl.miResponse hafter :), hcpls, honly⟩
    · rw [miReceive_runs (htaken.trans hbelfry), taken_ctrl]

end

section
/-!
PROOFS. Scope: a Frame Write where the directory holds two takes of one number (07 R253): the frame's slot is not the slot it names.
-/
namespace Sys2Proof.Machine

/-- A clip of push mode, for 100 MB/s, in a slot: its header unit is allocated and no frame recorded. -/
def pushClip (slot : Nat) : Clip := newClip ⟨0, 0, 0, 0, 100, 0, 0, 0, 0, 0, 0, 0, 0, 0, []⟩ slot 9 []

/-- Take 7 in a state, with one clip. -/
def takeOnSlot (state slot : Nat) : Take where
  num := 7
  dirSlot := 0
  state := state
  reason := 0
  ring := false
  joinChain := false
  joined := false
  pinStop := false
  pinEdges := 0
  hostTime := false
  pretrigger := 0
  frameMax := 1048576
  trigSrc := 0
  rigTake := 0
  openTime := 0
  startTime := 0
  closeTime := 0
  rigId := 0
  steepleState := 0
  fwVersion := 0
  cfgDigest := 0
  name := []
  user := []
  note := []
  clips := [pushClip slot]
  sched := []
  chainBreak := false
  ctrl := 0
  openCmd := none
  closeCmds := []
  sealing := 0
  mark := none
  stopBy := 0
  dirAt := 0

/-- READY, with one link of flash, controller 0 enabled and a keyed take namespace 2; a CLOSED take 7 of slot 3 stands in the directory before a
RECORDING take 7 of slot 0. -/
def twoTakesOfOneNumber : State :=
  let r := (State.reset.setPhase 0xB).wr Reg.BEL_BOOT_STATUS_NO_IMAGE 0
  let k := r.setCtrl 0 { Ctrl.portReset with en := true, rdy := true }
  { k with
    board := { k.board with mainRunning := true }
    image := { k.image with cfg := [⟨0x02, 0, [(8, 1)], []⟩, ⟨0x10, 0, [], []⟩] }
    nvme := { k.nvme with nss := [⟨2, 0, 0, 5, true, 131072, 1024, true⟩] }
    cph := { k.cph with slots := [(5, ⟨1, List.replicate 32 7, 3, 0, 1, 1048576, 0, false, false⟩)] }
    takes := { k.takes with dir := [takeOnSlot 4 3, takeOnSlot 2 0] } }

/-- A whole frame of 4,032 bytes for slot 0: FIRST and LAST, with tag 5. -/
def frameForSlot0 : Sqe := { ownSqe with cid := 9, sq := 1, nsid := 2, cdw10 := 1008, cdw11 := 0x00050030, cdw13 := 4032 }

theorem twoTakesOfOneNumber_gates : twoTakesOfOneNumber.acts frameForSlot0 = true ∧ twoTakesOfOneNumber.fireDue.ioGate frameForSlot0 = none ∧
    twoTakesOfOneNumber.fireDue.vendorGate = none ∧ twoTakesOfOneNumber.fireDue.nsOf frameForSlot0 = some ⟨2, 0, 0, 5, true, 131072, 1024, true⟩ ∧
    frameFieldsOk frameForSlot0 = true ∧ segSequenceOk frameForSlot0 0 4032 = true := by
  decide

/-- There is spare space, so the frame is not refused for want of any (11 R416). -/
theorem twoTakesOfOneNumber_frameGate : twoTakesOfOneNumber.fireDue.frameGate 4032 = none := by decide +kernel

/-- Slot 0 is the RECORDING take's, which records the frame. -/
theorem twoTakesOfOneNumber_slot : twoTakesOfOneNumber.fireDue.slotClip 0 = some (takeOnSlot 2 0, 0, pushClip 0) ∧
    twoTakesOfOneNumber.fireDue.frameOutcome 0 4032 twoTakesOfOneNumber.fireDue.steepleTime = .record ∧
    twoTakesOfOneNumber.fireDue.frameTagged 0 5 = none ∧ twoTakesOfOneNumber.fireDue.replyTagged 0 5 = none ∧
    twoTakesOfOneNumber.fireDue.inFlightOn 0 < 1024 := by
  decide

/-- The frame begins in the take that the number names first. -/
theorem beginFrame_twoTakesOfOneNumber : (((twoTakesOfOneNumber.fireDue.fetched frameForSlot0).beginFrame 7 0 4032
    twoTakesOfOneNumber.fireDue.steepleTime 0 0 1 5 0 false none).map fun x => x.2.slot) = some 3 := by
  decide +kernel

end Sys2Proof.Machine

open Sys2Proof
open Sys2Proof.Machine

/-- Refutes O43: a frame begins by its take's number, and where the directory holds an earlier take of that number the frame in flight has
the slot of that take's clip, not the slot that was named. -/
theorem not_framesAreTakenOrRefused : ¬ Obligations.FramesAreTakenOrRefused := by
  unfold Obligations.FramesAreTakenOrRefused
  rintro ⟨h, -⟩
  obtain ⟨hacts, hio, hvendor, hns, hfields, hseq⟩ := twoTakesOfOneNumber_gates
  obtain ⟨hclip, hrecord, htag, hreply, hroom⟩ := twoTakesOfOneNumber_slot
  obtain ⟨-, -, -, htake⟩ := h frameForSlot0 twoTakesOfOneNumber hacts
  obtain ⟨-, hfirst, -⟩ := htake hio hvendor _ hns rfl
  have hnone : ¬ twoTakesOfOneNumber.fireDue.slotClip 0 = none := by rw [hclip]; exact Option.some_ne_none _
  have hopen : ∀ t i cl, twoTakesOfOneNumber.fireDue.slotClip 0 = some (t, i, cl) → t = takeOnSlot 2 0 := fun t i cl ht =>
    congrArg Prod.fst (Option.some.inj (ht.symm.trans hclip))
  obtain ⟨-, hnew⟩ := hfirst hfields rfl ⟨fun hn => absurd hn hnone, fun t i cl ht => hopen t i cl ht ▸
    ⟨fun hfull => absurd hfull (by decide), fun _ _ hlong => absurd hlong (by decide), fun _ _ _ hclosing => absurd hclosing (by decide)⟩,
    fun st hst => Outcome.noConfusion (hrecord.symm.trans hst)⟩
  obtain ⟨⟨u, fr⟩, hbegin, hslot3⟩ := Option.map_eq_some_iff.mp beginFrame_twoTakesOfOneNumber
  obtain ⟨-, hrecords⟩ := hnew htag hreply hroom
  obtain ⟨-, hslot0, -⟩ := hrecords hrecord twoTakesOfOneNumber_frameGate hseq _ _ _ hclip u fr hbegin
  exact absurd (hslot3.symm.trans hslot0) (by decide)

end

section
/-!
PROOFS. Scope: what the data path leaves alone of the recording service: the takes, the pins and the last trigger shown.
-/
namespace Sys2Proof.Machine

/-- The fields that show the last trigger (07 Table 7.15), and the power state. -/
def recorderFields : List Field :=
  [Reg.TAK_STATUS_TRIG_ACTION, Reg.TAK_STATUS_TRIG_SRC, Reg.TAK_LAST_TRIG_LO_TIME, Reg.TAK_LAST_TRIG_HI_TIME, Reg.PWR_STATUS_STATE]

/-- What the data path leaves alone of the recording service: the takes, the pins, the last trigger shown and
the power state. -/
def State.recorder (s : State) : Takes × Board × List Nat := (s.takes, s.board, recorderFields.map s.rd)

theorem recorder_of_parts {s t : State} (htakes : t.takes = s.takes) (hboard : t.board = s.board) (hrd : ∀ f ∈ recorderFields, t.rd f = s.rd f) :
    t.recorder = s.recorder := by
  rw [State.recorder, htakes, hboard, List.map_congr_left hrd, State.recorder]

/-! ### Conditionals, folds and the parts of the state -/

@[simp] theorem recorder_ite (c : Prop) [Decidable c] (s t : State) :
    (if c then s else t).recorder = if c then s.recorder else t.recorder := apply_ite State.recorder c s t

@[simp] theorem recorder_foldl {α : Type} {g : State → α → State} (h : ∀ t x, (g t x).recorder = t.recorder) (l : List α) (s : State) :
    (l.foldl g s).recorder = s.recorder := by
  induction l generalizing s with
  | nil => rfl
  | cons x l ih => rw [List.foldl_cons, ih, h]

@[simp] theorem recorder_modFtl (s : State) (f : Ftl → Ftl) : (s.modFtl f).recorder = s.recorder := rfl
@[simp] theorem recorder_modPath (s : State) (f : Path → Path) : (s.modPath f).recorder = s.recorder := rfl
@[simp] theorem recorder_modWin (s : State) (f : Window → Window) : (s.modWin f).recorder = s.recorder := rfl
@[simp] theorem recorder_setKeySlot (s : State) (k : Nat) (x : KeySlot) : (s.setKeySlot k x).recorder = s.recorder := rfl

/-- A field of another register is written. -/
theorem recorder_wr {g : Field} (hg : ∀ f ∈ recorderFields, f.off ≠ g.off) (s : State) (v : Nat) : (s.wr g v).recorder = s.recorder :=
  recorder_of_parts rfl rfl fun f hf => rd_wr_off (hg f hf)

/-- No status register of a source is one of the recorder's. -/
theorem statusOff_recorderFields (src : Nat) : ∀ f ∈ recorderFields, f.off ≠ statusOff src := by
  intro f hf
  have hlow : f.off < 0x02010000 := (by decide : ∀ f ∈ recorderFields, f.off < 0x02010000) f hf
  unfold statusOff
  omega

@[simp] theorem recorder_tally (s : State) (off n : Nat) : (s.tally off n).recorder = s.recorder := by
  obtain ⟨l, h⟩ := tally_frame s off n
  rw [h]
  rfl

@[simp] theorem recorder_raise (s : State) (src : Nat) : (s.raise src).recorder = s.recorder := by
  obtain ⟨-, -, -, hboard, -, -, -, -, -, -, htakes, -⟩ := raise_parts s src
  exact recorder_of_parts htakes hboard fun f hf => raise_rd (statusOff_recorderFields src f hf)

@[simp] theorem recorder_record (s : State) (ty severity : Nat) (data : List Nat) : (s.record ty severity data).recorder = s.recorder := by
  obtain ⟨l, r, e, n, h⟩ := record_frame s ty severity data
  refine recorder_of_parts (by rw [h]) (by rw [h]) fun f hf => record_rd ?_ ?_ (statusOff_recorderFields _ f hf)
  · exact (by decide : ∀ f ∈ recorderFields, f.off ≠ Reg.BEL_LOG_SEQ_LO) f hf
  · exact (by decide : ∀ f ∈ recorderFields, f.off ≠ Reg.BEL_LOG_SEQ_HI) f hf

@[simp] theorem recorder_complete (s : State) (c : Sqe) (st : Status) (dw0 dw1 : Nat) (data : List Byte) :
    (s.complete c st dw0 dw1 data).recorder = s.recorder := by
  obtain ⟨e, n, h⟩ := complete_frame s c st dw0 dw1 data
  rw [h]
  rfl

@[simp] theorem recorder_fail (s : State) (c : Sqe) (st : Status) : (s.fail c st).recorder = s.recorder := by simp [State.fail]
@[simp] theorem recorder_succeed (s : State) (c : Sqe) : (s.succeed c).recorder = s.recorder := by simp [State.succeed]
@[simp] theorem recorder_raiseAll (s : State) (l : List Nat) : (s.raiseAll l).recorder = s.recorder := by simp [State.raiseAll]

/-! ### The gate and the commands of the write path -/

@[simp] theorem recorder_openGate (s : State) : s.openGate.recorder = s.recorder := by
  have hwr := recorder_wr (g := Reg.STR_DW_STATUS_GATE_CLOSED) (by decide)
  unfold State.openGate
  split
  · rfl
  · extract_lets quiet s1 s2
    have h2 : s2.recorder = s.recorder := by simp [s2, s1, hwr]
    refine (recorder_foldl (fun t f => ?_) _ _).trans h2
    split
    · simp [State.tallyMax]
    · rfl

@[simp] theorem recorder_reopenGate (s : State) : s.reopenGate.recorder = s.recorder := by simp [State.reopenGate]
@[simp] theorem recorder_occDrop (s : State) (n : Nat) : (s.occDrop n).recorder = s.recorder := by simp [State.occDrop]
@[simp] theorem recorder_moved (s : State) (flash user gc : Nat) : (s.moved flash user gc).recorder = s.recorder := by simp [State.moved]
@[simp] theorem recorder_modW (s : State) (i : Nat) (f : WCmd → WCmd) : (s.modW i f).recorder = s.recorder := by simp [State.modW]
@[simp] theorem recorder_modTrim (s : State) (i : Nat) (f : TrimCmd → TrimCmd) : (s.modTrim i f).recorder = s.recorder := by simp [State.modTrim]
@[simp] theorem recorder_showWt (s : State) : s.showWt.recorder = s.recorder := by
  simp [State.showWt, recorder_wr (g := Reg.STR_DW_STATUS_WRITE_THROUGH) (by decide)]
@[simp] theorem recorder_showFineWait (s : State) : s.showFineWait.recorder = s.recorder := by
  simp [State.showFineWait, recorder_wr (g := Reg.FTL_STATUS_FINE_WAIT) (by decide)]
@[simp] theorem recorder_askChunk (s : State) (c : WCmd) (rt : Bool) : (s.askChunk c rt).recorder = s.recorder := by simp [State.askChunk]
@[simp] theorem recorder_ingressAdd (s : State) (r n : Nat) : (s.ingressAdd r n).recorder = s.recorder := by simp [State.ingressAdd]
@[simp] theorem recorder_ingressSub (s : State) (r n : Nat) : (s.ingressSub r n).recorder = s.recorder := by simp [State.ingressSub]
@[simp] theorem recorder_unclaimInv (s : State) (k n : Nat) : (s.unclaimInv k n).recorder = s.recorder := by simp [State.unclaimInv]

@[simp] theorem recorder_withdraw (s : State) (i : Nat) : (s.withdraw i).recorder = s.recorder := by
  unfold State.withdraw
  extract_lets s1
  cases s1.wcmd i <;> simp [s1]

@[simp] theorem recorder_dropWrite (s : State) (c : WCmd) (reset : Bool) : (s.dropWrite c reset).recorder = s.recorder := by
  simp only [State.dropWrite]
  split
  · split <;> simp
  · simp

@[simp] theorem recorder_writeGo (s : State) (w : WCmd) : (s.writeGo w).recorder = s.recorder := by simp [State.writeGo]
@[simp] theorem recorder_addWrite (s : State) (w : WCmd) : (s.addWrite w).recorder = s.recorder := by simp [State.addWrite]

/-! ### Stripes and bands -/

@[simp] theorem recorder_modStripe (s : State) (i : Nat) (f : Stripe → Stripe) : (s.modStripe i f).recorder = s.recorder := by simp [State.modStripe]
@[simp] theorem recorder_modBand (s : State) (i : Nat) (f : Band → Band) : (s.modBand i f).recorder = s.recorder := by simp [State.modBand]
@[simp] theorem recorder_setBlk (s : State) (m : Nat × Nat × Nat) (b : Blk) : (s.setBlk m b).recorder = s.recorder := by simp [State.setBlk]
@[simp] theorem recorder_modHealth (s : State) (f : Health → Health) : (s.modHealth f).recorder = s.recorder := by simp [State.modHealth]
@[simp] theorem recorder_stripeEvent (s : State) (ty member link stripe nsid lsa : Nat) :
    (s.stripeEvent ty member link stripe nsid lsa).recorder = s.recorder := by simp [State.stripeEvent]

@[simp] theorem recorder_closeOne (s : State) (i flags : Nat) : (s.closeOne i flags).recorder = s.recorder := by
  unfold State.closeOne
  split
  · rfl
  · split
    · rfl
    · simp [recorder_wr (g := Reg.STR_STATUS_OPEN_BANDS) (by decide)]

@[simp] theorem recorder_closeStripe (s : State) (i flags : Nat) : (s.closeStripe i flags).recorder = s.recorder := by simp [State.closeStripe]
@[simp] theorem recorder_addBand (s : State) (ty : Nat) (ms : List (Nat × Nat × Nat)) (kind : Nat) :
    (s.addBand ty ms kind).recorder = s.recorder := by
  simp [State.addBand, recorder_wr (g := Reg.STR_STATUS_OPEN_BANDS) (by decide)]

theorem recorder_beginStripe (s : State) (b : Band) : ∀ x ∈ s.beginStripe b, x.1.recorder = s.recorder := by
  unfold State.beginStripe
  split
  · simp
  · split <;> simp

/-! ### Triples and the extent -/

theorem recorder_openOn3 (s : State) (ty kind : Nat) (links : List (Nat × Nat × Nat)) : ∀ t ∈ s.openOn3 ty kind links, t.recorder = s.recorder := by
  unfold State.openOn3
  split <;> simp

/-- What two steps that may fail keep, one after the other keeps. -/
theorem recorder_bind {α : Type} {o : Option α} {g : α → Option State} {p : α → State} {s : State}
    (ho : ∀ x ∈ o, (p x).recorder = s.recorder) (hg : ∀ x, ∀ t ∈ g x, t.recorder = (p x).recorder) :
    ∀ t ∈ o.bind g, t.recorder = s.recorder := by
  intro t ht
  obtain ⟨x, hx, hgx⟩ := Option.mem_bind_iff.mp ht
  rw [hg x t hgx, ho x hx]

theorem recorder_openTriple (s : State) : ∀ t ∈ s.openTriple, t.recorder = s.recorder := by
  unfold State.openTriple
  split
  · simp
  · split
    · simp
    · split
      · simp
      · exact recorder_bind (recorder_bind (recorder_openOn3 _ _ _ _) fun u => recorder_openOn3 u _ _ _) fun u => recorder_openOn3 u _ _ _

theorem recorder_beginTriple (s : State) (b : Band) : ∀ x ∈ s.beginTriple b, x.1.recorder = s.recorder := by
  unfold State.beginTriple
  split
  · simp
  next s1 st h1 =>
    split
    · split
      next s2 st2 h2 =>
        split
        next s3 st3 h3 => simp [recorder_beginStripe _ _ _ h3, recorder_beginStripe _ _ _ h2, recorder_beginStripe _ _ _ h1]
        next => simp
      next => simp
    · simp

theorem recorder_freshTriple (s : State) (n : Nat) : ∀ x ∈ s.freshTriple n, x.1.recorder = s.recorder := by
  unfold State.freshTriple
  split
  next u hu =>
    intro x hx
    obtain ⟨y, hy, hx⟩ := Option.mem_bind_iff.mp hx
    obtain ⟨b, -, hy⟩ := Option.mem_bind_iff.mp hy
    have hxy : x = y := by
      split at hx
      · split at hx <;> simp_all
      · simp at hx
    rw [hxy, recorder_beginTriple u b y hy, recorder_openTriple s u hu]
  next => simp

@[simp] theorem recorder_closeOpen (s : State) (b : Nat) : (s.closeOpen b).recorder = s.recorder := by
  unfold State.closeOpen
  split <;> simp

@[simp] theorem recorder_stopOne (s : State) (i flags : Nat) : (s.stopOne i flags).recorder = s.recorder := by
  unfold State.stopOne
  extract_lets s1
  split <;> simp [s1]

@[simp] theorem recorder_stopBand (s : State) (i flags : Nat) : (s.stopBand i flags).recorder = s.recorder := by
  unfold State.stopBand
  split <;> simp

theorem recorder_tripleRoom (s : State) (n : Nat) : ∀ x ∈ s.tripleRoom n, x.1.recorder = s.recorder := by
  unfold State.tripleRoom
  split
  · exact recorder_freshTriple s n
  · split
    · exact recorder_beginTriple s _
    · split
      · split
        · simpa using recorder_beginTriple (s.closeOpen _) _
        · simpa using recorder_freshTriple ((s.closeOpen _).stopBand _ 0) n
      · simpa using recorder_freshTriple (s.closeOpen _) n

theorem recorder_claim3 (s : State) (n : Nat) : ∀ x ∈ s.claim3 n, x.1.recorder = s.recorder := by
  unfold State.claim3
  split
  · simp
  next s1 st h1 =>
    split
    · simp [recorder_tripleRoom s n _ h1]
    · simp

theorem recorder_readyExtent (s : State) : ∀ t ∈ s.readyExtent, t.recorder = s.recorder := by
  unfold State.readyExtent
  split
  · simp
  · extract_lets named
    have hn : named.recorder = s.recorder := by simp [named]
    split
    · simp [hn]
    · intro t ht
      obtain ⟨x, hx, rfl⟩ := Option.mem_map.mp ht
      simp [recorder_claim3 s 512 x hx]

@[simp] theorem recorder_nameExtent (s : State) : s.nameExtent.1.recorder = s.recorder := by
  unfold State.nameExtent
  split
  · rfl
  next s1 h1 =>
    have hs := recorder_readyExtent s s1 h1
    split
    · exact hs
    · split
      next s2 a h2 => simp [recorder_claim3 s1 512 _ h2, hs]
      next => exact hs

/-! ### Metadata sectors and the journal -/

@[simp] theorem recorder_putAt (s : State) (i off : Nat) (p : Placed) : (s.putAt i off p).recorder = s.recorder := by simp [State.putAt]
@[simp] theorem recorder_putFill3 (s : State) (i off : Nat) : (s.putFill3 i off).recorder = s.recorder := by simp [State.putFill3]

@[simp] theorem recorder_fillUnit (s : State) (i off : Nat) : (s.fillUnit i off).recorder = s.recorder := by
  unfold State.fillUnit
  split <;> simp

@[simp] theorem recorder_putCopies (s : State) (i off : Nat) (payload : List Byte) : (s.putCopies i off payload).recorder = s.recorder := by
  simp [State.putCopies]

@[simp] theorem recorder_closeIfFull (s : State) (i : Nat) : (s.closeIfFull i).recorder = s.recorder := by
  unfold State.closeIfFull
  split
  · rfl
  · split <;> simp

@[simp] theorem recorder_placeMeta (s : State) (m : MetaSec) : (s.placeMeta m).1.recorder = s.recorder := by
  unfold State.placeMeta
  split
  · split
    · rfl
    next s1 h1 =>
      split
      · rfl
      · simp [recorder_readyExtent s s1 h1]
  all_goals
    split
    · rfl
    next s1 a h1 => simp [recorder_claim3 s 1 _ h1]

@[simp] theorem recorder_putMeta (s : State) (of : MetaOf) (order : Nat) (payload : List Byte) : (s.putMeta of order payload).recorder = s.recorder := by
  simp [State.putMeta]

@[simp] theorem recorder_writePage (s : State) (tail : Bool) : (s.writePage tail).recorder = s.recorder := by simp [State.writePage]

@[simp] theorem recorder_jput (s : State) (e : Entry) : (s.jput e).recorder = s.recorder := by simp [State.jput]
@[simp] theorem recorder_raiseCeil (s : State) : s.raiseCeil.recorder = s.recorder := by simp [State.raiseCeil]

@[simp] theorem recorder_pend (s : State) (e : Entry) : (s.pend e).recorder = s.recorder := by
  unfold State.pend
  extract_lets s1
  split
  · split <;> simp [s1]
  · simp [s1]

theorem recorder_takeSeq (s : State) : ∀ x ∈ s.takeSeq, x.2.recorder = s.recorder := by
  unfold State.takeSeq
  split <;> simp

theorem recorder_trim (s : State) (nsid lsa count : Nat) : ∀ t ∈ s.trim nsid lsa count, t.recorder = s.recorder := by
  unfold State.trim
  split
  · simp
  next q s1 h => simp [recorder_takeSeq s _ h]

end Sys2Proof.Machine

end

section
/-!
PROOFS. Scope: the rules of the take directory (07): what the writes and deallocations of the take service and the end of a frame leave of the
takes, and how a take closes.
-/
namespace Sys2Proof.Machine

/-! ### Writes and deallocations of the take service -/

@[simp] theorem recorder_takeWrite (s : State) (purpose num idx : Nat) (lsas : List Nat) (secs : List (List Byte)) (wt : Option Bool) (fua : Bool) :
    (s.takeWrite purpose num idx lsas secs wt fua).recorder = s.recorder := by
  unfold State.takeWrite
  split <;> simp

@[simp] theorem recorder_writeHeader (s : State) (num i state : Nat) : (s.writeHeader num i state).recorder = s.recorder := by
  unfold State.writeHeader
  split
  · rfl
  · split <;> simp

@[simp] theorem recorder_writeHeaders (s : State) (num state : Nat) : (s.writeHeaders num state).recorder = s.recorder := by
  unfold State.writeHeaders
  split <;> simp

/-- The ranges of a deallocation, one after the other, while none fails. -/
theorem recorder_trims (nsid : Nat) (l : List (Nat × Nat)) {s : State} {o : Option State} (ho : ∀ t ∈ o, t.recorder = s.recorder) :
    ∀ t ∈ l.foldl (fun (o : Option State) x => match o with | some u => u.trim nsid x.1 x.2 | none => none) o, t.recorder = s.recorder := by
  induction l generalizing o with
  | nil => exact ho
  | cons x l ih =>
    refine ih fun t ht => ?_
    cases o with
    | none => simp at ht
    | some u => rw [recorder_trim u _ _ _ t ht, ho u rfl]

/-- A deallocation of the take service has no effect but on the map. -/
theorem recorder_trimNow {t : TrimCmd} (ht : t.kind = 3) (s : State) : (s.trimNow t).recorder = s.recorder := by
  simp only [State.trimNow, ht]
  split
  · rfl
  next s1 h => simp [recorder_trims t.nsid t.ranges (s := s) (o := some s) (by simp) s1 h]

theorem recorder_trimGo {t : TrimCmd} (ht : t.kind = 3) (s : State) : (s.trimGo t).recorder = s.recorder := by
  simp [State.trimGo, recorder_trimNow ht]

@[simp] theorem recorder_takeTrim (s : State) (lsas : List Nat) : (s.takeTrim lsas).recorder = s.recorder := by
  simp [State.takeTrim, State.queueTrim, recorder_trimGo]

@[simp] theorem recorder_endSegments (s : State) (f : InFlight) (st : Status) : (s.endSegments f st).recorder = s.recorder := by
  unfold State.endSegments
  extract_lets s1
  have h1 : s1.recorder = s.recorder := by
    refine recorder_foldl (fun u id => ?_) _ _
    split <;> simp
  split <;> simp [h1]

/-- An entry of the directory changes and its sectors are written: of the recorder, GENERATION alone. -/
@[simp] theorem recorder_dirChange (s : State) : s.dirChange.recorder = s.dirTouch.recorder := by
  simp only [State.dirChange, recorder_putMeta, recorder_modFtl]

theorem takes_of_recorder {s t : State} (h : t.recorder = s.recorder) : t.takes = s.takes := congrArg (fun x => x.1) h

/-! ### The takes without their clips -/

/-- A take without what its clips hold. -/
def Take.head (t : Take) : Take := { t with clips := [] }

/-- The takes without their clips, the pins, and the last trigger shown. -/
def State.heads (s : State) : List Take × Board × List Nat := (s.takes.dir.map Take.head, s.board, recorderFields.map s.rd)

theorem heads_of_recorder {s t : State} (h : t.recorder = s.recorder) : t.heads = s.heads := by
  obtain ⟨htakes, hrest⟩ := Prod.ext_iff.mp h
  exact Prod.ext (congrArg (fun x : Takes => x.dir.map Take.head) htakes) hrest

theorem heads_of_dir {s t : State} (hdir : t.takes.dir.map Take.head = s.takes.dir.map Take.head) (hrest : t.recorder.2 = s.recorder.2) : t.heads = s.heads :=
  Prod.ext hdir hrest

@[simp] theorem heads_ite (c : Prop) [Decidable c] (s t : State) : (if c then s else t).heads = if c then s.heads else t.heads := apply_ite State.heads c s t

@[simp] theorem heads_foldl {α : Type} {g : State → α → State} (h : ∀ t x, (g t x).heads = t.heads) (l : List α) (s : State) :
    (l.foldl g s).heads = s.heads := by
  induction l generalizing s with
  | nil => rfl
  | cons x l ih => rw [List.foldl_cons, ih, h]

@[simp] theorem heads_modPath (s : State) (f : Path → Path) : (s.modPath f).heads = s.heads := rfl
@[simp] theorem heads_modFrames (s : State) (f : InFlight → InFlight) : (s.modFrames f).heads = s.heads := rfl
@[simp] theorem heads_dirTouch (s : State) : s.dirTouch.heads = s.heads := rfl
@[simp] theorem heads_dropFrame (s : State) (f : InFlight) : (s.dropFrame f).heads = s.heads := rfl
@[simp] theorem heads_dmaOutcome (s : State) (d idx : Nat) (r : StatusRec) : (s.dmaOutcome d idx r).heads = s.heads := rfl
@[simp] theorem heads_dirChange (s : State) : s.dirChange.heads = s.heads :=
  (heads_of_recorder (recorder_dirChange s)).trans (heads_dirTouch s)
@[simp] theorem heads_tally (s : State) (off n : Nat) : (s.tally off n).heads = s.heads := heads_of_recorder (recorder_tally s off n)
@[simp] theorem heads_raise (s : State) (src : Nat) : (s.raise src).heads = s.heads := heads_of_recorder (recorder_raise s src)
@[simp] theorem heads_raiseAll (s : State) (l : List Nat) : (s.raiseAll l).heads = s.heads := heads_of_recorder (recorder_raiseAll s l)
@[simp] theorem heads_takeTrim (s : State) (lsas : List Nat) : (s.takeTrim lsas).heads = s.heads := heads_of_recorder (recorder_takeTrim s lsas)
@[simp] theorem heads_addWrite (s : State) (w : WCmd) : (s.addWrite w).heads = s.heads := heads_of_recorder (recorder_addWrite s w)
@[simp] theorem heads_complete (s : State) (c : Sqe) (st : Status) (dw0 dw1 : Nat) (data : List Byte) :
    (s.complete c st dw0 dw1 data).heads = s.heads := heads_of_recorder (recorder_complete s c st dw0 dw1 data)
@[simp] theorem heads_fail (s : State) (c : Sqe) (st : Status) : (s.fail c st).heads = s.heads := heads_of_recorder (recorder_fail s c st)
@[simp] theorem heads_endSegments (s : State) (f : InFlight) (st : Status) : (s.endSegments f st).heads = s.heads :=
  heads_of_recorder (recorder_endSegments s f st)
@[simp] theorem heads_writeHeaders (s : State) (num state : Nat) : (s.writeHeaders num state).heads = s.heads :=
  heads_of_recorder (recorder_writeHeaders s num state)
@[simp] theorem heads_takeWrite (s : State) (purpose num idx : Nat) (lsas : List Nat) (secs : List (List Byte)) (wt : Option Bool) (fua : Bool) :
    (s.takeWrite purpose num idx lsas secs wt fua).heads = s.heads := heads_of_recorder (recorder_takeWrite s purpose num idx lsas secs wt fua)

@[simp] theorem heads_modClip (s : State) (num i : Nat) (f : Clip → Clip) : (s.modClip num i f).heads = s.heads := by
  refine heads_of_dir ?_ rfl
  refine (List.map_map ..).trans (List.map_congr_left fun t _ => ?_)
  rw [Function.comp_apply]
  split <;> rfl

@[simp] theorem heads_pullRefused (s : State) (f : InFlight) (st : Status) : (s.pullRefused f st).heads = s.heads := by
  unfold State.pullRefused
  split <;> simp

@[simp] theorem heads_abandon (s : State) (f : InFlight) (st : Status) : (s.abandon f st).heads = s.heads := by
  unfold State.abandon
  extract_lets s1
  have h1 : s1.heads = s.heads := by simp [s1]
  split
  · exact h1
  · extract_lets s2
    have h2 : s2.heads = s.heads := by simp [s2, h1]
    split
    · exact h2
    · split
      · exact h2
      · split <;> simp [h2]

@[simp] theorem heads_unrecordOne (s : State) (num i : Nat) (r : ClipRec) : (s.unrecordOne num i r).heads = s.heads := by
  unfold State.unrecordOne
  split
  · rfl
  · split <;> simp

@[simp] theorem heads_unrecord (s : State) (num i t : Nat) : (s.unrecord num i t).heads = s.heads := by
  unfold State.unrecord
  split
  · rfl
  · exact heads_foldl (fun u r => heads_unrecordOne u num i r) _ s

/-! ### A take found in the directory -/

theorem num_of_takeOf {s : State} {n : Nat} {k : Take} (h : s.takeOf n = some k) : k.num = n := by
  have hfound := List.find?_some h
  simpa using hfound

/-- States with the same heads hold the same take of a number, but for its clips. -/
theorem takeOf_of_heads {s t : State} (h : t.heads = s.heads) {n : Nat} {k : Take} (hk : s.takeOf n = some k) :
    ∃ x, t.takeOf n = some x ∧ x.head = k.head := by
  have hdir : t.takes.dir.map Take.head = s.takes.dir.map Take.head := congrArg Prod.fst h
  have hfind (l : List Take) : (l.map Take.head).find? (fun x => x.num == n) = (l.find? fun x => x.num == n).map Take.head := List.find?_map ..
  have heq : (t.takeOf n).map Take.head = (s.takeOf n).map Take.head := by
    rw [State.takeOf, State.takeOf, ← hfind, ← hfind, hdir]
  rw [hk, Option.map_some, Option.map_eq_some_iff] at heq
  exact heq

/-- What a change of a take makes of the take of a number. -/
theorem takeOf_modTake (s : State) (n : Nat) {f : Take → Take} (hf : ∀ t, (f t).num = t.num) (m : Nat) :
    (s.modTake n f).takeOf m = (s.takeOf m).map fun t => if t.num == n then f t else t := by
  refine (List.find?_map ..).trans (congrArg (Option.map _) (List.find?_congr fun t _ => ?_))
  rw [Function.comp_apply]
  split
  · rw [hf]
  · rfl

theorem takeOf_modTake_same {s : State} {n : Nat} {f : Take → Take} {k : Take} (hk : s.takeOf n = some k)
    (hf : ∀ t, (f t).num = t.num := by intro _; rfl) : (s.modTake n f).takeOf n = some (f k) := by
  simp [takeOf_modTake s n hf, hk, num_of_takeOf hk]

/-! ### A take closes -/

/-- What a close of take k writes into a take (07 R274, R282): its close point and its END_REASON; its scheduled triggers fall away. -/
def Take.endedAs (k : Take) (t reason : Nat) (x : Take) : Take :=
  let never := k.state = 1 ∧ (reason = 2 ∨ reason = 3)
  { x with closeTime := t, reason := if never then 9 else reason, stopBy := if never then reason else 0, sched := [] }

theorem closeTake_of_live {s : State} {num : Nat} {k : Take} (hk : s.takeOf num = some k) (hlive : k.state = 1 ∨ k.state = 2) (t reason : Nat) :
    s.closeTake num t reason =
      (List.range k.clips.length).foldl (fun u i => u.unrecord num i t) ((s.modTake num (k.endedAs t reason)).takeState num 3) := by
  rw [State.closeTake, hk]
  exact if_neg (by omega)

/-- A change of state shows in the heads alone. -/
theorem heads_takeState {s : State} {num : Nat} {k : Take} (hk : s.takeOf num = some k) (st : Nat) :
    (s.takeState num st).heads = (s.modTake num fun x => { x with state := st }).heads := by
  rw [State.takeState, hk]
  simp

theorem heads_closeTake {s : State} {num : Nat} {k : Take} (hk : s.takeOf num = some k) (hlive : k.state = 1 ∨ k.state = 2) (t reason : Nat) :
    (s.closeTake num t reason).heads = ((s.modTake num (k.endedAs t reason)).modTake num fun x => { x with state := 3 }).heads := by
  rw [closeTake_of_live hk hlive, heads_foldl fun u i => heads_unrecord u num i t]
  exact heads_takeState (takeOf_modTake_same hk) 3

/-- An ARMED or RECORDING take that closes is CLOSING; what else becomes of it is a matter of its clips. -/
theorem takeOf_closeTake {s : State} {num : Nat} {k : Take} (hk : s.takeOf num = some k) (hlive : k.state = 1 ∨ k.state = 2) (t reason : Nat) :
    ∃ x, (s.closeTake num t reason).takeOf num = some x ∧ x.head = { (k.endedAs t reason k).head with state := 3 } :=
  takeOf_of_heads (heads_closeTake hk hlive t reason)
    (takeOf_modTake_same (takeOf_modTake_same hk))

end Sys2Proof.Machine

end

section
/-!
PROOFS. Scope: Take Open, Take Close and Take Delete (07 R242, R281 to R284).
-/
namespace Sys2Proof.Machine

/-! ### Commands that act once what is due has fired -/

section
variable {s : State} {c : Sqe} {i : Instr} {g : State → State}

theorem exec_fired {f : State → State} (hruns : Safety.runs s.fireDue c .vendor) (hexec : exec i s = .next (s.fireDue.admin c .vendor f)) :
    exec i s = .next (f (s.fireDue.taken c)) := hexec.trans (congrArg Host.Outcome.next (admin_run f hruns.1 hruns.2))

/-- A command that only completes, and what the path does after it. -/
theorem completed_fired {st : Status} {dw0 : Nat} (hruns : Safety.runs s.fireDue c .vendor)
    (hexec : exec i s = .next (s.fireDue.admin c .vendor fun t => (g t).settleDma))
    (hg : g (s.fireDue.taken c) = (s.fireDue.taken c).complete c st dw0 0 []) :
    ∃ u, exec i s = .next (State.settleDma u) ∧ Safety.completed s.fireDue u (Safety.cpl c st dw0 0 []) :=
  ⟨_, (exec_fired hruns hexec).trans (by rw [hg]), completed_taken s.fireDue c st dw0 0 []⟩

theorem exec_takeOpen (hruns : Safety.runs s.fireDue c .vendor) :
    exec (.takeOpen c) s = .next ((s.fireDue.taken c).takeOpen c).settleDma :=
  exec_fired (f := fun t => (t.takeOpen c).settleDma) hruns rfl
theorem exec_takeCloseNow (hruns : Safety.runs s.fireDue c .vendor) :
    exec (.takeCloseNow c) s = .next ((s.fireDue.taken c).closeNow c).settleDma :=
  exec_fired (f := fun t => (t.closeNow c).settleDma) hruns rfl
theorem exec_takeCloseAtTime (hruns : Safety.runs s.fireDue c .vendor) :
    exec (.takeCloseAtTime c) s = .next ((s.fireDue.taken c).closeAt c).settleDma :=
  exec_fired (f := fun t => (t.closeAt c).settleDma) hruns rfl
theorem exec_takeDelete (hruns : Safety.runs s.fireDue c .vendor) :
    exec (.takeDelete c) s = .next ((s.fireDue.taken c).takeDelete c).settleDma :=
  exec_fired (f := fun t => (t.takeDelete c).settleDma) hruns rfl
end

section
variable (s : State) (c : Sqe)

/-- A command taken up finds the takes, the channels and the timebase as they were. -/
theorem taken_takes : (s.taken c).takes = s.takes ∧ (s.taken c).steepleTime = s.steepleTime ∧ (s.taken c).path = s.path ∧
    (s.taken c).geom = s.geom := by
  obtain ⟨o, q, h⟩ := taken_frame s c
  rw [h]
  exact ⟨rfl, rfl, rfl, rfl⟩

theorem taken_openRefused (r : OpenReq) : (s.taken c).openRefused c r = s.openRefused c r ∧ (s.taken c).readOpen c.data = s.readOpen c.data := by
  obtain ⟨o, q, h⟩ := taken_frame s c
  rw [h]
  exact ⟨rfl, rfl⟩

theorem taken_closeRefused : (s.taken c).closeRefused c = s.closeRefused c ∧ (∀ n, (s.taken c).takeOf n = s.takeOf n) ∧
    (∀ n, (s.taken c).openTakeOf n = s.openTakeOf n) ∧ ∀ t, (s.taken c).schedTimeOk t = s.schedTimeOk t := by
  obtain ⟨o, q, h⟩ := taken_frame s c
  rw [h]
  exact ⟨rfl, fun _ => rfl, fun _ => rfl, fun _ => rfl⟩

theorem taken_pickUnits (k : Nat) : ((s.taken c).noAbort c).pickUnits k = s.pickUnits k := by
  obtain ⟨o, q, h⟩ := taken_frame s c
  rw [h]
  rfl
end

/-- An open take of a number is the one the directory holds. -/
theorem openTakeOf_eq_some {s : State} {n : Nat} {t : Take} : s.openTakeOf n = some t ↔ s.takeOf n = some t ∧ t.isOpen = true := by
  unfold State.openTakeOf
  cases s.takeOf n with
  | none => simp
  | some k =>
    rw [Option.ite_none_right_eq_some]
    constructor
    · rintro ⟨hopen, h⟩
      cases h
      exact ⟨rfl, hopen⟩
    · rintro ⟨h, hopen⟩
      cases h
      exact ⟨hopen, rfl⟩

/-! ### Take Open (07 R242, R243) -/

theorem openRefused_of_noNs {s : State} (h : s.takeNs = none) (c : Sqe) (r : OpenReq) : s.openRefused c r = some (stVendor 0x89 true) := by
  rw [State.openRefused, h]
  rfl

theorem takeOpen_refused {s : State} {c : Sqe} {st : Status} (h : s.openRefused c (s.readOpen c.data) = some st) : s.takeOpen c = s.fail c st := by
  rw [State.takeOpen, h]

theorem takeOpen_accepted {s : State} {c : Sqe} (h : s.openRefused c (s.readOpen c.data) = none) :
    s.takeOpen c = (s.noAbort c).doOpen c (s.readOpen c.data) := by
  rw [State.takeOpen, h]

/-- The take that an accepted Take Open adds, with the units chosen for it (07 R243). -/
def State.newTake (s : State) (c : Sqe) (r : OpenReq) (us : List Nat) : Take where
  num := s.takes.nextTake
  dirSlot := s.freeDirSlot
  state := 1
  reason := 0
  ring := r.pre != 0
  joinChain := r.flags.testBit 1
  joined := false
  pinStop := r.flags.testBit 5
  pinEdges := 0
  hostTime := r.hostTime
  pretrigger := r.pre
  frameMax := r.frameMax
  trigSrc := r.trig
  rigTake := r.rig
  openTime := s.steepleTime
  startTime := 0
  closeTime := 0
  rigId := (s.inForce Reg.STP_RIG_ID).toNat
  steepleState := s.headerSteeple
  fwVersion := (s.reg Reg.GBL_FW_VERSION).toNat
  cfgDigest := s.measReg 5
  name := r.name
  user := r.user
  note := []
  clips := newClips r.pre r.frameMax r.streams (s.freeSlots r.streams.length) us
  sched := if r.start = 0 then [] else [⟨r.start, 0, 1, false, []⟩]
  chainBreak := false
  ctrl := c.ctrl.val
  openCmd := some c
  closeCmds := []
  sealing := 0
  mark := none
  stopBy := 0
  dirAt := 0

/-- The directory with a take more, its sectors on their way. -/
def State.addTake (s : State) (t : Take) : State := (s.modTakes fun x => { x with dir := x.dir ++ [t], nextTake := t.num + 1 }).dirChange

/-- The take in the directory, with the sectors that hold it. -/
def State.withTake (s : State) (t : Take) : State := (s.addTake t).modTake t.num fun x => { x with dirAt := (s.addTake t).ftl.takeDir }

/-- The take with its channels set up, its headers on their way and its sources raised. -/
def State.opened (s : State) (c : Sqe) (t : Take) : State :=
  ((t.clips.foldl (fun u k => u.openChannels t.num c k.slot k.desc) (s.withTake t)).writeHeaders t.num 1).raiseAll (t.clips.map fun k => 1616 + k.slot)

/-- An open neither broadcast nor started at once. -/
theorem doOpen_quiet {s : State} {c : Sqe} {r : OpenReq} {us : List Nat} (hus : s.pickUnits (r.ringTotal + r.streams.length) = some us)
    (hnow : r.flags.testBit 0 = false) (hcast : r.flags.testBit 2 = false) :
    s.doOpen c r = (s.opened c (s.newTake c r us)).fullCheck s.steepleTime := by
  rw [State.doOpen]
  dsimp only
  rw [hus]
  dsimp only
  rw [hnow, hcast]
  rfl

/-- Setting up channels leaves the directory and the number of the next take. -/
theorem openChannels_dir (s : State) (num : Nat) (c : Sqe) (slot : Nat) (d : StreamDesc) :
    (s.openChannels num c slot d).takes.dir = s.takes.dir ∧ (s.openChannels num c slot d).takes.nextTake = s.takes.nextTake := by
  unfold State.openChannels
  split
  · exact ⟨rfl, rfl⟩
  · exact List.foldlRecOn (motive := fun u : State => u.takes.dir = s.takes.dir ∧ u.takes.nextTake = s.takes.nextTake) _ _ ⟨rfl, rfl⟩ fun u hu j _ => hu

theorem addTake_takes (s : State) (t : Take) :
    (s.addTake t).takes = { s.takes with dir := s.takes.dir ++ [t], nextTake := t.num + 1, generation := s.takes.generation + 1 } :=
  takes_of_recorder (recorder_dirChange _)

theorem withTake_dir (s : State) (t : Take) :
    (s.withTake t).takes.dir = (s.takes.dir ++ [t]).map (fun x => if x.num == t.num then { x with dirAt := (s.addTake t).ftl.takeDir } else x) ∧
      (s.withTake t).takes.nextTake = t.num + 1 := by
  rw [State.withTake, State.modTake, State.modTakes, addTake_takes]
  exact ⟨rfl, rfl⟩

theorem opened_dir (s : State) (c : Sqe) (t : Take) :
    (s.opened c t).takes.dir = (s.withTake t).takes.dir ∧ (s.opened c t).takes.nextTake = (s.withTake t).takes.nextTake := by
  have hchans := List.foldlRecOn (motive := fun u : State => u.takes.dir = (s.withTake t).takes.dir ∧ u.takes.nextTake = (s.withTake t).takes.nextTake)
    t.clips (fun u k => u.openChannels t.num c k.slot k.desc) ⟨rfl, rfl⟩ fun u hu k _ =>
      ⟨(openChannels_dir u t.num c k.slot k.desc).1.trans hu.1, (openChannels_dir u t.num c k.slot k.desc).2.trans hu.2⟩
  rw [State.opened, takes_of_recorder (recorder_raiseAll _ _), takes_of_recorder (recorder_writeHeaders _ _ _)]
  exact hchans

/-- The directory of an open: one take more, with the sectors it is in. -/
theorem opened_spec (s : State) (c : Sqe) (t : Take) : (s.opened c t).takes.nextTake = t.num + 1 ∧
    (s.opened c t).takes.dir.length = s.takes.dir.length + 1 ∧ ∃ n, { t with dirAt := n } ∈ (s.opened c t).takes.dir := by
  obtain ⟨hdir, hnext⟩ := opened_dir s c t
  obtain ⟨hwith, hwithNext⟩ := withTake_dir s t
  refine ⟨hnext.trans hwithNext, ?_, (s.addTake t).ftl.takeDir, ?_⟩
  · rw [hdir, hwith]
    simp
  · rw [hdir, hwith, List.mem_map]
    exact ⟨t, by simp, by simp⟩

/-! ### Take Close and Take Delete (07 R281 to R284) -/

/-- The deallocation of every unit of a take (07 R284). -/
def State.deletion (s : State) (c : Sqe) (t : Take) : TrimCmd where
  id := s.path.nextId
  kind := 4
  sqe := c
  nsid := s.takeNsid
  ranges := t.clips.flatMap fun (k : Clip) => k.units.map fun u => (s.geom.lba u, 512)
  fineWait := none
  wt := s.degraded && 4 == 0

/-- A deallocation is one of the commands of the path. -/
def State.joined (s : State) (x : TrimCmd) : State := s.modPath fun p => { p with trims := p.trims ++ [x], nextId := p.nextId + 1 }

section
variable {s : State} {c : Sqe} {st : Status} {t : Take}

theorem close_refused (h : s.closeRefused c = some st) : s.closeNow c = s.fail c st ∧ s.closeAt c = s.fail c st ∧ s.takeDelete c = s.fail c st := by
  rw [State.closeNow, State.closeAt, State.takeDelete, h]
  exact ⟨rfl, rfl, rfl⟩

theorem close_unknown (h : s.closeRefused c = none) (hnone : s.openTakeOf (leAt c.data 0 4) = none) :
    s.closeNow c = s.fail c (stVendor 0x80 true) ∧ s.closeAt c = s.fail c (stVendor 0x80 true) := by
  rw [State.closeNow, State.closeAt, h, hnone]
  exact ⟨rfl, rfl⟩

theorem takeDelete_unknown (h : s.closeRefused c = none) (hnone : s.takeOf (leAt c.data 0 4) = none) :
    s.takeDelete c = s.fail c (stVendor 0x80 true) := by
  rw [State.takeDelete, h, hnone]

theorem takeDelete_open (h : s.closeRefused c = none) (ht : s.openTakeOf (leAt c.data 0 4) = some t) : s.takeDelete c = s.fail c stSequence := by
  obtain ⟨htake, hopen⟩ := openTakeOf_eq_some.mp ht
  rw [State.takeDelete, h, htake]
  exact if_pos hopen

theorem takeDelete_closed (h : s.closeRefused c = none) (ht : s.takeOf (leAt c.data 0 4) = some t) (hclosed : t.isOpen = false) :
    s.takeDelete c = ((s.noAbort c).joined (s.deletion c t)).trimGo (s.deletion c t) := by
  rw [State.takeDelete, h, ht]
  exact if_neg (by simp [hclosed])

/-- Close Now of a live take without a broadcast: the command waits with the take, which closes at the device's time. -/
theorem closeNow_live (h : s.closeRefused c = none) (ht : s.openTakeOf (leAt c.data 0 4) = some t) (hcast : (byteAt c.data 5).testBit 0 = false)
    (hlive : t.state = 1 ∨ t.state = 2) :
    s.closeNow c = ((s.noAbort c).modTake (leAt c.data 0 4) fun x => { x with closeCmds := x.closeCmds ++ [c], note := slice c.data 16 32 }).closeTake
      (leAt c.data 0 4) s.steepleTime 1 := by
  rw [State.closeNow, h, ht]
  dsimp only
  rw [num_of_takeOf (openTakeOf_eq_some.mp ht).1]
  rw [State.closeBroadcast, hcast]
  simp only [if_pos hlive]
  rfl

theorem closeAt_outside (h : s.closeRefused c = none) (ht : s.openTakeOf (leAt c.data 0 4) = some t) (htime : s.schedTimeOk (leAt c.data 8 8) = false) :
    s.closeAt c = s.fail c (stVendor 0x88 true) := by
  rw [State.closeAt, h, ht]
  exact if_pos (by simp [htime])

theorem closeAt_scheduled (h : s.closeRefused c = none) (ht : s.openTakeOf (leAt c.data 0 4) = some t) (hcast : (byteAt c.data 5).testBit 0 = false)
    (htime : s.schedTimeOk (leAt c.data 8 8) = true) :
    s.closeAt c = (s.modTake (leAt c.data 0 4) fun x => { x with sched := x.sched ++ [⟨leAt c.data 8 8, 3, 1, false, slice c.data 16 32⟩] }).succeed c := by
  rw [State.closeAt, h, ht]
  dsimp only
  rw [num_of_takeOf (openTakeOf_eq_some.mp ht).1]
  rw [State.closeBroadcast, hcast, if_neg (by simp [htime])]
  rfl
end

theorem takeOf_complete (s : State) (c : Sqe) (st : Status) (dw0 dw1 : Nat) (data : List Byte) (n : Nat) :
    (s.complete c st dw0 dw1 data).takeOf n = s.takeOf n := by
  rw [State.takeOf, takes_of_recorder (recorder_complete s c st dw0 dw1 data), State.takeOf]

/-- A command completes where nothing but a take has changed since it was taken up. -/
theorem complete_cpls_modTake (s : State) (c : Sqe) (n : Nat) (g : Take → Take) (st : Status) (dw0 dw1 : Nat) (data : List Byte) :
    (((s.taken c).modTake n g).complete c st dw0 dw1 data).nvme.cpls = s.nvme.cpls ++ [Safety.cpl c st dw0 dw1 data] :=
  complete_cpls_of_taken (u := (s.taken c).modTake n g) rfl st dw0 dw1 data

end Sys2Proof.Machine

open Sys2Proof
open Sys2Proof.Machine

/-- Settles O41: each command runs on what is due having fired and itself taken up, which leaves the takes, so that it answers by the checks of the
fired state; an open adds one take and its headers, a close leaves the take's head CLOSING, and a Delete queues its units. -/
theorem takesOpenCloseAndGo : Obligations.TakesOpenCloseAndGo := by
  intro c s f num r refused hruns
  obtain ⟨hopenRefused, hread⟩ := taken_openRefused f c r
  obtain ⟨hcloseRefused, htakeOf, hopenTakeOf, hsched⟩ := taken_closeRefused f c
  obtain ⟨htakes, htime, hpath, hgeom⟩ := taken_takes f c
  have hopen (st : Status) (h : f.openRefused c r = some st) : refused (.takeOpen c) st :=
    completed_fired (g := fun t => t.takeOpen c) hruns rfl (takeOpen_refused (by rw [hread]; exact hopenRefused.trans h))
  have hfailNow (st : Status) (h : (f.taken c).closeNow c = (f.taken c).fail c st) : refused (.takeCloseNow c) st :=
    completed_fired (g := fun t => t.closeNow c) hruns rfl h
  have hfailAt (st : Status) (h : (f.taken c).closeAt c = (f.taken c).fail c st) : refused (.takeCloseAtTime c) st :=
    completed_fired (g := fun t => t.closeAt c) hruns rfl h
  have hfailDelete (st : Status) (h : (f.taken c).takeDelete c = (f.taken c).fail c st) : refused (.takeDelete c) st :=
    completed_fired (g := fun t => t.takeDelete c) hruns rfl h
  refine ⟨hopen, fun hns => hopen _ (openRefused_of_noNs hns c r), fun hok hnow hcast hunits => ?_, fun hlen => ?_, fun hclose => ?_⟩
  · obtain ⟨us, hus⟩ := Option.isSome_iff_exists.mp hunits
    obtain ⟨hnext, hlength, n, hmem⟩ := opened_spec ((f.taken c).noAbort c) c (((f.taken c).noAbort c).newTake c r us)
    refine ⟨_, (exec_takeOpen hruns).trans ?_, hnext.trans ?_, hlength.trans ?_, _, hmem, ?_⟩
    · rw [takeOpen_accepted (by rw [hread]; exact hopenRefused.trans hok), hread, doOpen_quiet ((taken_pickUnits f c _).trans hus) hnow hcast]
      exact congrArg (fun p => Host.Outcome.next (State.settleDma (State.fullCheck _ p))) htime
    · exact congrArg (fun x : Takes => x.nextTake + 1) htakes
    · exact congrArg (fun x : Takes => x.dir.length + 1) htakes
    · exact ⟨congrArg (fun x : Takes => x.nextTake) htakes, rfl, htime, rfl, rfl, rfl, rfl, rfl, rfl⟩
  · have hinvalid : (f.taken c).closeRefused c = some stInvalidField := if_pos hlen
    obtain ⟨hnow, hat, hdelete⟩ := close_refused hinvalid
    simp only [List.forall_mem_cons, List.not_mem_nil, false_implies, implies_true, and_true]
    exact ⟨hfailNow _ hnow, hfailAt _ hat, hfailDelete _ hdelete⟩
  · have hclear : (f.taken c).closeRefused c = none := hcloseRefused.trans hclose
    refine ⟨fun hnone => ?_, fun hnone => ?_, fun t ht => ?_, fun t ht hcast hlive => ?_, fun t ht hout => ?_, fun t ht hin hcast => ?_,
      fun t ht hclosed => ?_⟩
    · obtain ⟨hnow, hat⟩ := close_unknown hclear ((hopenTakeOf _).trans hnone)
      exact ⟨hfailNow _ hnow, hfailAt _ hat⟩
    · exact hfailDelete _ (takeDelete_unknown hclear ((htakeOf _).trans hnone))
    · exact hfailDelete _ (takeDelete_open hclear ((hopenTakeOf _).trans ht))
    · have htake : (f.taken c).takeOf num = some t := (htakeOf _).trans (openTakeOf_eq_some.mp ht).1
      obtain ⟨k, hk, hhead⟩ := takeOf_closeTake (takeOf_modTake_same
        (s := (f.taken c).noAbort c) (f := fun x => { x with closeCmds := x.closeCmds ++ [c], note := slice c.data 16 32 }) htake) hlive f.steepleTime 1
      refine ⟨_, k, (exec_takeCloseNow hruns).trans ?_, hk, congrArg Take.state hhead, congrArg Take.closeTime hhead, ?_, congrArg Take.closeCmds hhead,
        congrArg Take.note hhead, congrArg Take.sched hhead⟩
      · rw [closeNow_live hclear ((hopenTakeOf _).trans ht) hcast hlive, htime]
      · exact (congrArg Take.reason hhead).trans (if_neg (by omega))
    · exact hfailAt _ (closeAt_outside hclear ((hopenTakeOf _).trans ht) ((hsched _).trans hout))
    · have htake : (f.taken c).takeOf num = some t := (htakeOf _).trans (openTakeOf_eq_some.mp ht).1
      have hrun := (exec_takeCloseAtTime hruns).trans (congrArg (fun u => Host.Outcome.next (State.settleDma u))
        (closeAt_scheduled hclear ((hopenTakeOf _).trans ht) hcast ((hsched _).trans hin)))
      exact ⟨_, _, hrun, complete_cpls_modTake f c _ _ stOk 0 0 [], (takeOf_complete _ c stOk 0 0 [] _).trans (takeOf_modTake_same htake), rfl⟩
    · have hrun := (exec_takeDelete hruns).trans (congrArg (fun u => Host.Outcome.next (State.settleDma u))
        (takeDelete_closed hclear ((htakeOf _).trans ht) hclosed))
      refine ⟨_, _, hrun, congrArg (fun p : Path => p.trims ++ _) hpath, rfl, rfl, ?_, htakes, taken_cpls f c⟩
      rw [← hgeom]
      rfl

end

section
/-!
PROOFS. Scope: Trigger, the scheduled triggers and close points, and TRIG_IN (07 R269 to R275).
-/
namespace Sys2Proof.Machine

/-! ### Takes that go on -/

/-- A take as an operation leaves it that starts none: of the same number, START and edges; one not ARMED does not become so. -/
def Take.Follows (a b : Take) : Prop := b.num = a.num ∧ b.startTime = a.startTime ∧ b.pinEdges = a.pinEdges ∧ (a.state ≠ 1 → b.state ≠ 1)

theorem Take.Follows.refl (a : Take) : a.Follows a := ⟨rfl, rfl, rfl, id⟩

theorem Take.Follows.trans {a b c : Take} (h : a.Follows b) (g : b.Follows c) : a.Follows c := by
  obtain ⟨hnum, hstart, hedges, hstate⟩ := h
  obtain ⟨gnum, gstart, gedges, gstate⟩ := g
  exact ⟨gnum.trans hnum, gstart.trans hstart, gedges.trans hedges, fun ha => gstate (hstate ha)⟩

/-- Every take goes on, and the pins, the last trigger and the power state stand. -/
structure State.Follows (s t : State) : Prop where
  takes : List.Forall₂ Take.Follows s.heads.1 t.heads.1
  shown : t.heads.2 = s.heads.2

theorem State.Follows.of_heads {s t : State} (h : t.heads = s.heads) : s.Follows t := by
  refine ⟨?_, congrArg Prod.snd h⟩
  rw [h]
  exact List.forall₂_same.mpr fun a _ => .refl a

theorem State.Follows.refl (s : State) : s.Follows s := .of_heads rfl

theorem State.Follows.trans {s t u : State} (h : s.Follows t) (g : t.Follows u) : s.Follows u := by
  refine ⟨?_, g.shown.trans h.shown⟩
  have compose : ∀ {l m n : List Take}, List.Forall₂ Take.Follows l m → List.Forall₂ Take.Follows m n → List.Forall₂ Take.Follows l n := by
    intro l m n hlm
    induction hlm generalizing n with
    | nil => exact id
    | cons hab _ ih =>
      intro hmn
      cases hmn with
      | cons hbc htail => exact .cons (hab.trans hbc) (ih htail)
  exact compose h.takes g.takes

theorem State.Follows.foldl {α : Type} {g : State → α → State} (h : ∀ u x, State.Follows u (g u x)) (l : List α) (s : State) : s.Follows (l.foldl g s) := by
  induction l generalizing s with
  | nil => exact .refl s
  | cons x l ih => exact (h s x).trans (ih _)

/-- A change of takes that each of them survives. -/
theorem State.Follows.modTake (s : State) (num : Nat) {f : Take → Take} (hf : ∀ t : Take, t.head.Follows (f t).head) : s.Follows (s.modTake num f) := by
  refine ⟨?_, rfl⟩
  change List.Forall₂ Take.Follows (s.takes.dir.map Take.head) ((s.takes.dir.map _).map Take.head)
  rw [List.map_map, List.forall₂_map_left_iff, List.forall₂_map_right_iff]
  refine List.forall₂_same.mpr fun t _ => ?_
  rw [Function.comp_apply]
  split
  · exact hf t
  · exact .refl _

/-- The take of a number, found before, is found after. -/
theorem State.Follows.takeOf {s t : State} (h : s.Follows t) {n : Nat} {k : Take} (hk : s.takeOf n = some k) :
    ∃ x, t.takeOf n = some x ∧ k.Follows x := by
  have hdirs : List.Forall₂ (fun a b : Take => a.head.Follows b.head) s.takes.dir t.takes.dir := by
    have htakes := h.takes
    rwa [State.heads, State.heads, List.forall₂_map_left_iff, List.forall₂_map_right_iff] at htakes
  have hfind : ∀ {l m : List Take}, List.Forall₂ (fun a b : Take => a.head.Follows b.head) l m →
      (l.find? fun x => x.num == n) = some k → ∃ x, (m.find? fun x => x.num == n) = some x ∧ k.Follows x := by
    intro l m hlm
    induction hlm with
    | nil => simp
    | @cons a b l m hab _ ih =>
      have hnum : b.num = a.num := hab.1
      rw [List.find?_cons, List.find?_cons, hnum]
      split
      · intro hak
        cases hak
        exact ⟨b, rfl, hab⟩
      · exact ih
  exact hfind hdirs hk

theorem rd_of_shown {s t : State} (h : t.heads.2 = s.heads.2) {f : Field} (hf : f ∈ recorderFields) : t.rd f = s.rd f :=
  List.map_inj_left.mp (congrArg Prod.snd h) f hf

theorem board_of_shown {s t : State} (h : t.heads.2 = s.heads.2) : t.board = s.board := congrArg Prod.fst h

/-! ### Closing and filling up -/

theorem follows_closeTake (s : State) (num t reason : Nat) : s.Follows (s.closeTake num t reason) := by
  by_cases hlive : ∃ k, s.takeOf num = some k ∧ (k.state = 1 ∨ k.state = 2)
  · obtain ⟨k, hk, hlive⟩ := hlive
    refine .trans ?_ (.of_heads (heads_closeTake hk hlive t reason))
    exact (State.Follows.modTake s num (f := k.endedAs t reason) fun x => ⟨rfl, rfl, rfl, id⟩).trans
      (.modTake _ num (f := fun x => { x with state := 3 }) fun x => ⟨rfl, rfl, rfl, fun _ => (by decide : (3 : Nat) ≠ 1)⟩)
  · unfold State.closeTake
    split
    · exact .refl s
    next k hk => rw [if_pos (by by_contra h; exact hlive ⟨k, hk, by omega⟩)]; exact .refl s

theorem follows_takeFull (s : State) (point : Nat) : s.Follows (s.takeFull point) := by
  unfold State.takeFull
  split
  · exact .refl s
  · refine State.Follows.trans (.of_heads ?_) (.foldl (fun (u : State) (x : Take) => follows_closeTake u x.num point 4) _ _)
    refine heads_of_dir rfl (Prod.ext rfl (List.map_congr_left fun f hf => ?_))
    exact ((by decide : ∀ f ∈ recorderFields, f.off ≠ Reg.TAK_STATUS_FULL.off ∨ Reg.TAK_STATUS_FULL.lsb + Reg.TAK_STATUS_FULL.width ≤ f.lsb) f hf).elim
      (fun hoff => rd_wr_off hoff) fun habove => rd_wr_apart (.inr habove)

theorem follows_fullCheck (s : State) (point : Nat) : s.Follows (s.fullCheck point) := by
  unfold State.fullCheck
  split
  · exact follows_takeFull s point
  · exact .refl s

/-! ### Clips, rings and records -/

theorem heads_clipGrow (s : State) (num i n : Nat) (reserve : Bool) : ∀ x ∈ s.clipGrow num i n reserve, x.1.heads = s.heads := by
  unfold State.clipGrow
  split
  · simp
  · split
    · simp
    · dsimp only
      split
      · simp
      · split
        · simp
        · split <;> simp

@[simp] theorem heads_discardRecs (s : State) (num i : Nat) (rs : List ClipRec) : (s.discardRecs num i rs).heads = s.heads := by
  unfold State.discardRecs
  split
  · rfl
  · split
    · rfl
    · extract_lets n s1 s2 s3 s4
      have h1 : s1.heads = s.heads := by
        refine heads_foldl (fun u r => ?_) _ _
        split <;> simp
      have h4 : s4.heads = s.heads := by
        refine (heads_tally _ _ _).trans (Eq.trans (b := s3.heads) rfl ?_)
        simp [s3, s2, h1]
      simp [h4]

theorem heads_ringGrow (s : State) (num i n : Nat) : ∀ x ∈ s.ringGrow num i n, x.1.heads = s.heads := by
  unfold State.ringGrow
  split
  · simp
  · split <;> simp

theorem heads_addRec (s : State) (num i : Nat) (r : ClipRec) : ∀ x ∈ s.addRec num i r, x.1.heads = s.heads := by
  unfold State.addRec
  split
  · simp
  · extract_lets flags next
    split
    · split
      · simp
      next s1 off h =>
        intro x hx
        obtain ⟨c, -, rfl⟩ := Option.mem_map.mp hx
        simp [heads_ringGrow s num i _ _ h]
    · split
      · simp
      next s1 off h =>
        intro x hx
        obtain ⟨c, -, rfl⟩ := Option.mem_map.mp hx
        simp [heads_clipGrow s num i _ _ _ h]

theorem heads_bubble (n num i : Nat) (r : ClipRec) (s : State) : (State.bubble n num i r s).1.heads = s.heads := by
  induction n generalizing r s with
  | zero => rfl
  | succ n ih =>
    unfold State.bubble
    split
    · rfl
    · dsimp only
      split
      · rfl
      · split
        · rw [ih]
          simp [State.moveFrame]
        · rfl

theorem follows_placeSeg (s : State) (num i : Nat) (events : List ClipEvent) : s.Follows (s.placeSeg num i events) := by
  unfold State.placeSeg
  extract_lets k add
  have hadd (u : State) (off sectors : Nat) : (add u off sectors).heads = u.heads := heads_modClip u num i _
  split
  next s1 off h => exact .of_heads ((hadd s1 off k).trans (heads_clipGrow s num i k false _ h))
  next => exact (State.Follows.of_heads (hadd s 0 0)).trans (follows_takeFull _ _)

theorem follows_segDue (s : State) (num i : Nat) : s.Follows (s.segDue num i) := by
  unfold State.segDue
  split
  · split
    · exact follows_placeSeg s num i _
    · exact .refl s
  · exact .refl s

theorem follows_placeKept (num i : Nat) (evs : List (Nat × ClipEvent)) (n k : Nat) (s : State) : s.Follows (placeKept num i evs n k s) := by
  induction n generalizing k s with
  | zero => exact .refl s
  | succ n ih => exact (follows_placeSeg s num i _).trans (ih _ _)

theorem follows_limitCheck (s : State) (num i stamp : Nat) : s.Follows (s.limitCheck num i stamp) := by
  unfold State.limitCheck
  split
  · split
    · exact (State.Follows.of_heads (heads_modClip s num i _)).trans (follows_closeTake _ _ _ _)
    · exact .refl s
  · exact .refl s

theorem follows_plainRec (s : State) (num i kind stamp : Nat) (body : List Nat) : s.Follows (s.plainRec num i kind stamp body) := by
  unfold State.plainRec
  extract_lets r
  split
  · exact .refl s
  next s1 x lsas h => exact (State.Follows.of_heads ((heads_takeWrite ..).trans (heads_addRec s num i r _ h))).trans (follows_fullCheck _ _)

theorem follows_markTake (s : State) (num t source : Nat) : s.Follows (s.markTake num t source) := by
  unfold State.markTake
  split
  · exact .refl s
  · refine .foldl (fun u i => ?_) _ _
    split
    · exact .refl u
    · split
      · exact .of_heads (heads_modClip u num i _)
      · exact (follows_plainRec u num i 4 t []).trans (.of_heads (heads_modClip _ num i _))

theorem follows_ringToClip (s : State) (num i keep : Nat) : s.Follows (s.ringToClip num i keep) := by
  unfold State.ringToClip
  split
  · exact .refl s
  next c _ =>
    extract_lets kept old s1 seq whole
    have h1 : s.Follows s1 := .of_heads (heads_discardRecs s num i old)
    split
    · exact h1.trans (.of_heads (heads_modClip s1 num i _))
    next r0 _ =>
      extract_lets first run recs evs s2 s3
      have h3 : s2.Follows s3 := follows_placeKept num i evs whole 0 s2
      exact (h1.trans (.of_heads (heads_modClip s1 num i _))).trans (h3.trans (.of_heads (heads_modClip s3 num i _)))

/-! ### Frames that waited -/

theorem follows_beginFrame (s : State) (num i length stamp hostTime path queue tag dtag : Nat) (timeValid : Bool) (chan : Option Nat) :
    ∀ x ∈ s.beginFrame num i length stamp hostTime path queue tag dtag timeValid chan, s.Follows x.1 := by
  unfold State.beginFrame
  split
  · simp
  · split
    · simp
    next c _ =>
      extract_lets flags r
      split
      · simp
      next s0 r1 lsas h =>
        split
        next s1 r2 hbubble =>
          have h1 : s1.heads = s.heads := by
            have hbubbled := heads_bubble (c.recs.length + c.ringRecs.length) num i r1 s0.dirTouch
            rw [hbubble] at hbubbled
            exact hbubbled.trans (heads_addRec s num i r _ h)
          extract_lets f s2
          have h2 : s.Follows s2 := (State.Follows.of_heads h1).trans
            (.trans (t := s1.modTakes fun x => { x with inflight := x.inflight ++ [f] }) (.of_heads rfl) (follows_segDue _ num i))
          rintro x ⟨⟩
          exact (h2.trans (follows_limitCheck s2 num i stamp)).trans (follows_fullCheck _ _)

@[simp] theorem heads_addSegment (s : State) (f : InFlight) (kind : WKind) (src : Nat) (c : Sqe) (offset upto : Nat) (last fua : Bool) :
    (s.addSegment f kind src c offset upto last fua).heads = s.heads := by
  unfold State.addSegment
  split
  · rfl
  · split <;> simp

@[simp] theorem heads_countRefused (s : State) (slot : Nat) : (s.countRefused slot).heads = s.heads := by
  unfold State.countRefused
  split <;> simp

theorem follows_acceptFirst (s : State) (c : Sqe) (stamp : Nat) : s.Follows (s.acceptFirst c stamp) := by
  unfold State.acceptFirst
  extract_lets slot host
  split
  · exact .of_heads (heads_fail s c _)
  · split
    · exact (follows_takeFull s stamp).trans (.of_heads (by simp))
    next s1 f h =>
      refine (follows_beginFrame s _ _ _ _ _ _ _ _ _ _ _ _ h).trans (.of_heads ?_)
      split <;> simp

theorem follows_continueFrame (s : State) (c : Sqe) : s.Follows (s.continueFrame c) := by
  refine .of_heads ?_
  unfold State.continueFrame
  split
  · simp
  · split <;> simp

theorem follows_acceptPull (s : State) (slot d idx : Nat) (q : DmaDesc) (stamp : Nat) : s.Follows (s.acceptPull slot d idx q stamp) := by
  unfold State.acceptPull
  split
  · exact .of_heads rfl
  · split
    · exact (follows_takeFull s stamp).trans (.of_heads (by simp [State.descOutcome]))
    next s1 f h => exact (follows_beginFrame s _ _ _ _ _ _ _ _ _ _ _ _ h).trans (.of_heads (by simp))

theorem follows_acceptReply (s : State) (r : Reply) : s.Follows (s.acceptReply r) := by
  unfold State.acceptReply
  split
  · exact (follows_acceptFirst s _ _).trans (.foldl follows_continueFrame _ _)
  · exact follows_acceptPull s _ _ _ _ _
  · exact .refl s

/-! ### START (07 R274) -/

/-- A take moved to RECORDING at T. -/
def State.begunAt (s : State) (num t : Nat) : State := (s.modTake num fun x => { x with startTime := t }).modTake num fun x => { x with state := 2 }

theorem takeOf_begunAt {s : State} {num : Nat} {k : Take} (hk : s.takeOf num = some k) (t : Nat) :
    (s.begunAt num t).takeOf num = some { k with startTime := t, state := 2 } := takeOf_modTake_same (takeOf_modTake_same hk)

theorem follows_startArmed {s : State} {k : Take} (hk : s.takeOf k.num = some k) (t : Nat) : (s.begunAt k.num t).Follows (s.startArmed k t) := by
  unfold State.startArmed
  extract_lets s1 keep s2 s3 mine s4
  have h1 : (s.begunAt k.num t).Follows s1 := .of_heads (heads_takeState (takeOf_modTake_same hk) 2)
  have h2 : s1.Follows s2 := by
    simp only [s2]
    split
    · exact .foldl (fun u i => follows_ringToClip u k.num i keep) _ _
    · exact .refl s1
  have h4 : s2.Follows s4 := (State.Follows.of_heads (heads_writeHeaders s2 k.num 2)).trans (.of_heads rfl)
  exact ((h1.trans h2).trans h4).trans (.foldl follows_acceptReply _ _)

theorem follows_startTake {s : State} {num : Nat} {k : Take} (hk : s.takeOf num = some k) (harmed : k.state = 1) (hchain : k.joinChain = false) (t : Nat) :
    (s.begunAt num t).Follows (s.startTake num t) := by
  obtain rfl := num_of_takeOf hk
  have hstart : k.startable t = true := by simp [Take.startable, harmed, hchain]
  unfold State.startTake
  rw [hk]
  simp only [hstart, harmed, Bool.not_true, Bool.false_eq_true, if_false, if_true]
  have h1 := follows_startArmed hk t
  split
  · split
    · exact h1.trans (follows_markTake _ _ _ _)
    · exact h1
  · exact h1

/-! ### Triggers that act at once (07 R274, R275) -/

/-- The last trigger as it is shown (07 Table 7.15). -/
theorem rd_lastTrigger (s : State) {action source : Nat} (haction : action < 4) (hsource : source < 3) (t : Nat) :
    (s.lastTrigger action source t).rd Reg.TAK_STATUS_TRIG_ACTION = action ∧ (s.lastTrigger action source t).rd Reg.TAK_STATUS_TRIG_SRC = 2 ^ source := by
  constructor
  · rw [State.lastTrigger, rd_wr (by decide)]
    exact Nat.mod_eq_of_lt haction
  · rw [State.lastTrigger, rd_wr_apart (by decide), rd_wr (by decide)]
    exact Nat.mod_eq_of_lt (Nat.pow_lt_pow_right (by decide) hsource)

theorem rd_lastTrigger_power (s : State) (action source t : Nat) : (s.lastTrigger action source t).rd Reg.PWR_STATUS_STATE = s.rd Reg.PWR_STATUS_STATE := by
  rw [State.lastTrigger, rd_wr_off (by decide), rd_wr_off (by decide), State.wr64, rd_setReg_other (by decide), rd_setReg_other (by decide)]

theorem rd64_lastTrigger (s : State) (action source t : Nat) :
    (s.lastTrigger action source t).rd64 Reg.TAK_LAST_TRIG_LO Reg.TAK_LAST_TRIG_HI = t % 2 ^ 64 := by
  have hlo : (s.lastTrigger action source t).reg Reg.TAK_LAST_TRIG_LO = BitVec.ofNat 32 t := by
    rw [State.lastTrigger, reg_wr_other (by decide), reg_wr_other (by decide), State.wr64, reg_setReg_other (by decide), reg_setReg_same]
  have hhi : (s.lastTrigger action source t).reg Reg.TAK_LAST_TRIG_HI = BitVec.ofNat 32 (t / 2 ^ 32) := by
    rw [State.lastTrigger, reg_wr_other (by decide), reg_wr_other (by decide), State.wr64, reg_setReg_same]
  rw [State.rd64, hlo, hhi, BitVec.toNat_ofNat, BitVec.toNat_ofNat]
  omega

/-- The two words of the last trigger's time are fields. -/
theorem rd64_lastTrig (s : State) : s.rd64 Reg.TAK_LAST_TRIG_LO Reg.TAK_LAST_TRIG_HI =
    s.rd Reg.TAK_LAST_TRIG_LO_TIME + 2 ^ 32 * s.rd Reg.TAK_LAST_TRIG_HI_TIME := by
  have hword (w : Word) : bitsOf w 0 32 = w.toNat := by rw [bitsOf, Nat.pow_zero, Nat.div_one, Nat.mod_eq_of_lt w.isLt]
  rw [State.rd64, State.rd, State.rd, ← hword, ← hword]
  rfl

theorem rd64_of_shown {s t : State} (h : t.heads.2 = s.heads.2) :
    t.rd64 Reg.TAK_LAST_TRIG_LO Reg.TAK_LAST_TRIG_HI = s.rd64 Reg.TAK_LAST_TRIG_LO Reg.TAK_LAST_TRIG_HI := by
  rw [rd64_lastTrig, rd64_lastTrig, rd_of_shown h (by decide), rd_of_shown h (by decide)]

/-- The main domain stays up with the pins and the power state. -/
theorem mainUp_of_shown {s t : State} (h : t.heads.2 = s.heads.2) : t.mainUp = s.mainUp := by
  rw [State.mainUp, board_of_shown h, rd_of_shown h (by decide), State.mainUp]

section
variable {s : State} {num : Nat} {k : Take} (hk : s.takeOf num = some k) (source t reason : Nat)
include hk

theorem applyTrigger_start (harmed : k.state = 1) (hchain : k.joinChain = false) :
    s.applyTrigger num 0 source t reason false = ((s.lastTrigger 0 source t).pulse s.now).startTake num t := by
  rw [State.applyTrigger, hk]
  exact if_neg (by simp [Take.takesAction, Take.startable, harmed, hchain])

theorem applyTrigger_stop (hlive : k.state = 1 ∨ k.state = 2) :
    s.applyTrigger num 1 source t reason false = (s.lastTrigger 1 source t).closeTake num t reason := by
  rw [State.applyTrigger, hk]
  exact if_neg (by rcases hlive with h | h <;> simp [Take.takesAction, h])

theorem applyTrigger_mark (hrecording : k.state = 2) :
    s.applyTrigger num 2 source t reason false = (s.lastTrigger 2 source t).markTake num t source := by
  rw [State.applyTrigger, hk]
  exact if_neg (by simp [Take.takesAction, hrecording])

/-- A START at once (R274, R275): the take is no longer ARMED, the trigger is the last one, and TRIG_OUT is driven from now. -/
theorem started_spec (harmed : k.state = 1) (hchain : k.joinChain = false) (hsource : source < 3) :
    ∃ u x, s.applyTrigger num 0 source t reason false = u ∧ u.takeOf num = some x ∧ x.startTime = t ∧ x.state ≠ 1 ∧ x.pinEdges = k.pinEdges ∧
      u.rd Reg.TAK_STATUS_TRIG_ACTION = 0 ∧ u.rd Reg.TAK_STATUS_TRIG_SRC = 2 ^ source ∧
      u.rd64 Reg.TAK_LAST_TRIG_LO Reg.TAK_LAST_TRIG_HI = t % 2 ^ 64 ∧
      u.board = { s.board with pulses := s.board.pulses ++ [(s.now, s.now + 1000)] } ∧ u.mainUp = s.mainUp := by
  have hfollows := follows_startTake (s := (s.lastTrigger 0 source t).pulse s.now) hk harmed hchain t
  obtain ⟨x, hx, -, hstart, hedges, hstate⟩ := hfollows.takeOf (takeOf_begunAt (s := (s.lastTrigger 0 source t).pulse s.now) hk t)
  obtain ⟨haction, hsrc⟩ := rd_lastTrigger s (action := 0) (by decide) hsource t
  have hshown : _ = ((s.lastTrigger 0 source t).pulse s.now).heads.2 := hfollows.shown
  refine ⟨_, x, applyTrigger_start hk source t reason harmed hchain, hx, hstart, hstate (by decide : (2 : Nat) ≠ 1), hedges,
    (rd_of_shown hshown (by decide)).trans haction, (rd_of_shown hshown (by decide)).trans hsrc,
    (rd64_of_shown hshown).trans (rd64_lastTrigger s 0 source t), board_of_shown hshown, ?_⟩
  rw [mainUp_of_shown hshown, State.mainUp, State.mainUp, ← rd_lastTrigger_power s 0 source t]
  rfl

/-- A STOP at once (R274): the take is CLOSING. -/
theorem stopped_spec (hlive : k.state = 1 ∨ k.state = 2) :
    ∃ u x, s.applyTrigger num 1 source t 2 false = u ∧ u.takeOf num = some x ∧ x.state = 3 ∧ x.closeTime = t ∧
      x.reason = (if k.state = 1 then 9 else 2) ∧ u.rd Reg.TAK_STATUS_TRIG_ACTION = 1 := by
  obtain ⟨x, hx, hhead⟩ := takeOf_closeTake (s := s.lastTrigger 1 source t) hk hlive t 2
  have hreason : (k.endedAs t 2 k).reason = (if k.state = 1 then 9 else 2) := by simp [Take.endedAs]
  refine ⟨_, x, applyTrigger_stop hk source t 2 hlive, hx, congrArg Take.state hhead, congrArg Take.closeTime hhead,
    (congrArg Take.reason hhead).trans hreason, ?_⟩
  rw [rd_of_shown (follows_closeTake _ num t 2).shown (by decide), State.lastTrigger, rd_wr (by decide)]
  rfl

/-- A MARK of a take with one clip, whose open segment has room. -/
theorem markTake_single {cl : Clip} (hclips : k.clips = [cl]) (hroom : cl.events.length < 4096) :
    s.markTake num t source = s.modClip num 0 fun x => { x with events := x.events ++ [⟨1, 2 ^ source, t, none, 0⟩] } := by
  rw [State.markTake, hk]
  simp [hclips, hk, hroom]

theorem marked_spec {cl : Clip} (hrecording : k.state = 2) (hclips : k.clips = [cl]) (hroom : cl.events.length < 4096) :
    ∃ u x, s.applyTrigger num 2 source t reason false = u ∧ u.takeOf num = some x ∧
      x.clips = [{ cl with events := cl.events ++ [⟨1, 2 ^ source, t, none, 0⟩] }] ∧ u.rd Reg.TAK_STATUS_TRIG_ACTION = 2 := by
  have hmark : s.applyTrigger num 2 source t reason false =
      (s.lastTrigger 2 source t).modClip num 0 fun x => { x with events := x.events ++ [⟨1, 2 ^ source, t, none, 0⟩] } := by
    rw [applyTrigger_mark hk source t reason hrecording, markTake_single (s := s.lastTrigger 2 source t) hk source t hclips hroom]
  have hclips' : modAt k.clips 0 (fun x => { x with events := x.events ++ [⟨1, 2 ^ source, t, none, 0⟩] }) =
      [{ cl with events := cl.events ++ [⟨1, 2 ^ source, t, none, 0⟩] }] := by
    rw [hclips]
    rfl
  refine ⟨_, _, hmark, takeOf_modTake_same (s := s.lastTrigger 2 source t) hk, hclips', ?_⟩
  rw [rd_of_shown (congrArg Prod.snd (heads_modClip _ num 0 _)) (by decide), State.lastTrigger, rd_wr (by decide)]
  rfl
end

/-! ### The Trigger command (07 R271, R272) -/

/-- The state a Trigger acts on: what is due has fired, and the command is taken up and can no longer be aborted. -/
def State.triggered (s : State) (c : Sqe) : State := (s.fireDue.taken c).noAbort c

section
variable (s : State) (c : Sqe)

theorem triggered_frame : TookUp s.fireDue (s.triggered c) := by
  obtain ⟨o, q, h⟩ := taken_frame s.fireDue c
  rw [State.triggered, h]
  exact ⟨_, q, rfl⟩

theorem noAbort_outstanding (mi : Bool) (k sq cid : Nat) : (s.noAbort c).outstanding mi k sq cid = s.outstanding mi k sq cid := by
  rw [State.outstanding, State.noAbort, List.any_map, State.outstanding]
  refine congrArg (fun p => mi || s.nvme.outs.any p) (funext fun o => ?_)
  rw [Function.comp_apply]
  split <;> rfl

theorem triggered_outstanding : (s.triggered c).outstanding c.mi c.ctrl.val c.sq c.cid = true :=
  (noAbort_outstanding _ c _ _ _ _).trans (taken_outstanding s.fireDue c)

/-- A Trigger finds the takes, the pins and the timebase as the firing left them. -/
theorem triggered_parts : (s.triggered c).takes = s.fireDue.takes ∧ (s.triggered c).board = s.fireDue.board ∧
    (s.triggered c).steepleTime = s.fireDue.steepleTime ∧ (s.triggered c).now = s.fireDue.now ∧
    (s.triggered c).nvme.cpls = s.fireDue.nvme.cpls ∧ (s.triggered c).trigRefused c = s.fireDue.trigRefused c := by
  obtain ⟨o, q, h⟩ := triggered_frame s c
  rw [h]
  exact ⟨rfl, rfl, rfl, rfl, rfl, rfl⟩

variable {s c}

theorem exec_trigger (hruns : Safety.runs s.fireDue c .vendor) {action : Nat} {i : Instr}
    (hi : (action, i) ∈ [(0, Instr.triggerStart c), (1, .triggerStop c), (2, .triggerMark c)]) :
    exec i s = .next ((s.triggered c).trigger c action).settleDma := by
  have hrun (n : Nat) : s.triggerCmd c n = ((s.triggered c).trigger c n).settleDma :=
    admin_run (fun t => ((t.noAbort c).trigger c n).settleDma) hruns.1 hruns.2
  simp only [List.mem_cons, List.not_mem_nil, or_false, Prod.mk.injEq] at hi
  rcases hi with ⟨rfl, rfl⟩ | ⟨rfl, rfl⟩ | ⟨rfl, rfl⟩
  · exact congrArg Host.Outcome.next (hrun 0)
  · exact congrArg Host.Outcome.next (hrun 1)
  · exact congrArg Host.Outcome.next (hrun 2)

theorem trigger_refused {st : Status} (h : s.trigRefused c = some st) (action : Nat) : s.trigger c action = s.fail c st := by
  rw [State.trigger, h]

/-- A trigger with a time joins the scheduled ones of every take it is for. -/
def State.scheduled (s : State) (ks : List Take) (x : Sched) : State :=
  ks.foldl (fun u k => u.modTake k.num fun y => { y with sched := y.sched ++ [x] }) s

theorem trigger_timed (h : s.trigRefused c = none) (hcast : c.cdw12.getLsbD 3 = false) (htimed : c.cdw12.getLsbD 2 = true) (action : Nat) :
    s.trigger c action = (s.scheduled (s.trigTakes c) ⟨c.cdw13.toNat + 2 ^ 32 * c.cdw14.toNat, action, 1, false, []⟩).complete c stOk
      (s.trigTakes c).length 0 [] := by
  rw [State.trigger, h]
  simp only [hcast, htimed]
  rfl

theorem trigger_none (h : s.trigRefused c = none) (hcast : c.cdw12.getLsbD 3 = false) (hks : s.trigTakes c = []) (action : Nat) :
    s.trigger c action = s.complete c stOk 0 0 [] := by
  rw [State.trigger, h]
  simp only [hcast, hks, Bool.false_eq_true, if_false]
  split <;> rfl

/-- A trigger at once for one take that it acts on. -/
theorem trigger_one {k : Take} (h : s.trigRefused c = none) (hcast : c.cdw12.getLsbD 3 = false) (htimed : c.cdw12.getLsbD 2 = false)
    (hks : s.trigTakes c = [k]) {action : Nat} (hacts : k.takesAction action s.steepleTime = true) :
    s.trigger c action = (s.applyTrigger k.num action 1 s.steepleTime 2 false).complete c stOk 1 0 [] := by
  rw [State.trigger, h]
  simp only [hcast, htimed, hks, List.filter_cons, hacts]
  rfl
end

/-- Every take holds the trigger as often as it was named. -/
theorem scheduled_dir (s : State) (ks : List Take) (x : Sched) :
    (s.scheduled ks x).takes.dir = s.takes.dir.map fun y => { y with sched := y.sched ++ List.replicate (ks.filter fun k => k.num == y.num).length x } := by
  induction ks generalizing s with
  | nil => simp [State.scheduled]
  | cons k ks ih =>
    refine (ih (s.modTake k.num fun y => { y with sched := y.sched ++ [x] })).trans ((List.map_map ..).trans (List.map_congr_left fun y _ => ?_))
    rw [Function.comp_apply, List.filter_cons]
    by_cases hy : y.num = k.num
    · simp [hy, List.replicate_succ]
    · simp [hy, Ne.symm hy]

theorem scheduled_nvme (s : State) (ks : List Take) (x : Sched) : (s.scheduled ks x).nvme = s.nvme :=
  List.foldlRecOn (motive := fun u : State => u.nvme = s.nvme) _ _ rfl fun _ hu _ _ => hu

/-- A take the trigger is for holds it once, where no other take has its number. -/
theorem mem_scheduled {s : State} {ks : List Take} (hsub : ks.Sublist s.takes.dir) {k : Take} (hk : k ∈ ks)
    (hone : ¬ 2 ≤ (s.takes.dir.filter fun y => y.num == k.num).length) (x : Sched) :
    { k with sched := k.sched ++ [x] } ∈ (s.scheduled ks x).takes.dir := by
  have hle : (ks.filter fun y => y.num == k.num).length ≤ (s.takes.dir.filter fun y => y.num == k.num).length := (hsub.filter _).length_le
  have hpos : 0 < (ks.filter fun y => y.num == k.num).length := List.length_pos_of_mem (List.mem_filter.mpr ⟨hk, beq_self_eq_true _⟩)
  have hcount : (ks.filter fun y => y.num == k.num).length = 1 := by omega
  rw [scheduled_dir, List.mem_map]
  exact ⟨k, hsub.subset hk, by rw [hcount]; rfl⟩

theorem trigTakes_sublist (s : State) (c : Sqe) : (s.trigTakes c).Sublist s.takes.dir :=
  List.filter_sublist.trans List.filter_sublist

/-! ### What is due (07 R272), and the pin (R270) -/

theorem exec_scheduledTriggerFire {s : State} (hup : s.mainUp = true) :
    exec .scheduledTriggerFire s = .next ((s.dueList false).foldl (fun u p => u.fireOne p.1 p.2) s).settleDma := by
  change Host.Outcome.next (if s.mainUp then _ else s) = _
  rw [if_pos hup]

theorem exec_closePointReached {s : State} (hup : s.mainUp = true) : exec .closePointReached s = .next s.fireDue.settleDma := by
  change Host.Outcome.next (if s.mainUp then s.fireDue.settleDma else s) = _
  rw [if_pos hup]

theorem exec_trigInEdge {s : State} {up : Bool} {held : Nat} {age : Fin 201} (hup : (s.trigInEdge up held age.val).mainUp = true) :
    exec (.trigInEdge up held age) s = .next (s.trigInEdge up held age.val).settleDma := by
  change Host.Outcome.next (if (s.trigInEdge up held age.val).mainUp then _ else _) = _
  rw [if_pos hup]

theorem fireDue_of_none {s : State} (h : s.dueList true = []) : s.fireDue = s := by
  rw [State.fireDue, h]
  rfl

theorem fireOne_raises (s : State) (num : Nat) {x : Sched} (h : x.action ≠ 3) : (s.fireOne num x).evtStatus 1765 = true := by
  rw [State.fireOne]
  dsimp only
  rw [if_neg h]
  exact raise_status _ _

/-- A close point of a live take that is due closes it. -/
theorem fireOne_closes {s : State} {num : Nat} {k : Take} (hk : s.takeOf num = some k) (hlive : k.state = 1 ∨ k.state = 2) {x : Sched} (hx : x.action = 3) :
    s.fireOne num x = ((s.modTake num fun t => { t with sched := t.sched.erase x }).modTake num fun t => { t with note := x.note }).closeTake num x.time 1 := by
  rw [State.fireOne, hk]
  dsimp only
  rw [if_pos hx, if_pos (by simpa using hlive)]

/-- An edge that is not taken: of the other polarity, too short, or too soon after the last. -/
theorem trigInEdge_ignored {s : State} {up : Bool} {held age : Nat} (h : (up ≠ (s.cfg 0x01 0 7).testBit 0 ∨ held < 20) ∨
    ∃ t, s.board.trigInLast = some t ∧ s.now < t + 1000000 + age) : s.trigInEdge up held age = s := by
  refine if_pos ?_
  rcases h with (h | h) | ⟨t, ht, hearly⟩
  · simp only [bne_iff_ne.mpr h, Bool.true_or]
  · simp [h]
  · simp [ht, hearly]

/-- A state in which an edge of TRIG_IN is the last one. -/
def State.edgeAt (s : State) (time : Nat) : State := { s with board := { s.board with trigInLast := some time } }

/-- In Run nothing wakes the device. -/
theorem wake_inRun {s : State} (h : Safety.inRun s) (code : Nat) : s.wake code = s := by
  obtain ⟨-, hstate, hphase⟩ := h
  have hawake : wakesFrom code s.pwrState = false := by rw [hstate]; simp [wakesFrom]
  simp [State.wake, hphase, hawake]

/-- An edge taken in Run, where nothing is due, for one ARMED take that the pin triggers. -/
theorem trigInEdge_starts {s : State} {k : Take} {up : Bool} {held age : Nat} (hrun : Safety.inRun s) (hup : up = (s.cfg 0x01 0 7).testBit 0)
    (hheld : 20 ≤ held) (hlast : s.board.trigInLast = none) (hdue : s.dueList true = []) (hopen : s.openTakes = [k]) (haccepts : k.accepts 2 = true)
    (hedges : k.pinEdges = 0) (hbefore : k.openTime ≤ (s.steepleTime - age) / 4 * 4) :
    s.trigInEdge up held age = ((s.edgeAt (s.now - age)).modTake k.num fun x => { x with pinEdges := x.pinEdges + 1 }).applyTrigger k.num 0 2
      ((s.steepleTime - age) / 4 * 4) 2 false := by
  have hwake : (s.edgeAt (s.now - age)).wake 7 = s.edgeAt (s.now - age) := wake_inRun (s := s.edgeAt (s.now - age)) hrun 7
  have hmain : (s.edgeAt (s.now - age)).mainUp = true := mainUp_of_inRun (s := s.edgeAt (s.now - age)) hrun
  have hfire : (s.edgeAt (s.now - age)).fireDue = s.edgeAt (s.now - age) := fireDue_of_none hdue
  have htakes : (s.edgeAt (s.now - age)).openTakes = [k] := hopen
  unfold State.trigInEdge
  extract_lets active early t board s1
  have hs1 : s1 = s.edgeAt (s.now - age) := hwake
  rw [if_neg (by simp [active, early, hlast, hup]; omega), hs1, if_neg (by simp [hmain]), hfire, htakes]
  simp [t, hbefore, haccepts, hedges]

end Sys2Proof.Machine

open Sys2Proof
open Sys2Proof.Machine

/-- Settles O42: a Trigger acts on what the firing left; an action at once goes by the rule of its take, after which the data path leaves the takes'
heads, the pins and the last trigger shown; an edge of TRIG_IN taken in Run is a START of its own source. -/
theorem triggersActOnTakes : Obligations.TriggersActOnTakes := by
  refine ⟨fun c s => ?_, fun s hup => ?_⟩
  · intro f time hruns
    obtain ⟨htakes, hboard, htime, hnow, hcpls, hrefused⟩ := triggered_parts s c
    have htrigTakes : (s.triggered c).trigTakes c = f.trigTakes c := congrArg (fun x : Takes => (x.dir.filter Take.isOpen).filter _) htakes
    have hcompleted (st : Status) : Safety.completed f ((s.triggered c).complete c st 0 0 []) (Safety.cpl c st 0 0 []) :=
      completed_complete (triggered_frame s c) (triggered_outstanding s c) st 0 0 []
    refine ⟨fun i hi => ?_, fun hok hcast htimed a i hi => ?_, fun k hok hcast htimed hks hk hchain => ?_⟩
    · obtain ⟨a, ha⟩ : ∃ a, (a, i) ∈ [(0, Instr.triggerStart c), (1, .triggerStop c), (2, .triggerMark c)] := by
        simp only [List.mem_cons, List.not_mem_nil, or_false] at hi
        rcases hi with rfl | rfl | rfl <;> simp
      refine ⟨fun st h => ⟨_, (exec_trigger hruns ha).trans ?_, hcompleted st⟩,
        fun hok hcast hnone => ⟨_, (exec_trigger hruns ha).trans ?_, hcompleted stOk⟩⟩
      · rw [trigger_refused (hrefused.trans h)]
        rfl
      · rw [trigger_none (hrefused.trans hok) hcast (htrigTakes.trans hnone)]
    · have hrun := (exec_trigger hruns hi).trans (congrArg (fun u => Host.Outcome.next (State.settleDma u))
        (trigger_timed (hrefused.trans hok) hcast htimed a))
      rw [htrigTakes] at hrun
      have hdir : ((s.triggered c).scheduled (f.trigTakes c) ⟨time, a, 1, false, []⟩).takes.dir =
          (f.scheduled (f.trigTakes c) ⟨time, a, 1, false, []⟩).takes.dir := by
        rw [scheduled_dir, scheduled_dir, htakes]
      refine ⟨_, hrun, ?_, ?_, fun k hk => ?_⟩
      · have hnvme := scheduled_nvme (s.triggered c) (f.trigTakes c) ⟨time, a, 1, false, []⟩
        rw [complete_cpls _ _ _ _ (by rw [State.outstanding, hnvme]; exact triggered_outstanding s c), hnvme, hcpls]
        rfl
      · rw [takes_of_recorder (recorder_complete ..), hdir, scheduled_dir, List.length_map]
      · rw [takes_of_recorder (recorder_complete ..), hdir]
        by_cases htwo : 2 ≤ (f.takes.dir.filter fun x => x.num == k.num).length
        · exact .inr htwo
        · exact .inl (mem_scheduled (trigTakes_sublist f c) hk htwo _)
    · have hk' : (s.triggered c).takeOf k.num = some k := by rw [State.takeOf, htakes]; exact hk
      have hrun {a : Nat} {i : Instr} (hi : (a, i) ∈ [(0, Instr.triggerStart c), (1, .triggerStop c), (2, .triggerMark c)])
          (hacts : k.takesAction a (s.triggered c).steepleTime = true) :
          exec i s = .next (((s.triggered c).applyTrigger k.num a 1 f.steepleTime 2 false).complete c stOk 1 0 []).settleDma := by
        rw [exec_trigger hruns hi, trigger_one (hrefused.trans hok) hcast htimed (htrigTakes.trans hks) hacts, htime]
      refine ⟨fun harmed => ?_, fun hlive => ?_, fun cl hrecording hclips hroom => ?_⟩
      · obtain ⟨u, x, hu, hx, hstart, hstate, -, haction, hsource, hlast, hpins, -⟩ := started_spec hk' 1 f.steepleTime 2 harmed hchain (by decide)
        have hacts : k.takesAction 0 (s.triggered c).steepleTime = true := by simp [Take.takesAction, Take.startable, harmed, hchain]
        refine ⟨u, x, hu ▸ hrun (by simp) hacts, hx, hstart, hstate, haction, hsource, hlast, ?_⟩
        rw [hpins, hboard, hnow]
      · obtain ⟨u, x, hu, hspec⟩ := stopped_spec hk' 1 f.steepleTime hlive
        exact ⟨u, x, hu ▸ hrun (by simp) (by rcases hlive with h | h <;> simp [Take.takesAction, h]), hspec⟩
      · obtain ⟨u, x, hu, hspec⟩ := marked_spec hk' 1 f.steepleTime 2 hrecording hclips hroom
        exact ⟨u, x, hu ▸ hrun (by simp) (by simp [Take.takesAction, hrecording]), hspec⟩
  · refine ⟨fun hnone => ?_, fun p hp hp3 => ⟨_, exec_scheduledTriggerFire hup, ?_⟩, fun hnone => ?_, fun n x k hdue hx hk hlive => ?_,
    fun up held age => ⟨fun h => ?_, fun t ht hearly => ?_, ?_⟩⟩
    · rw [exec_scheduledTriggerFire hup, hnone]
      rfl
    · rw [hp]
      exact fireOne_raises s p.1 hp3
    · rw [exec_closePointReached hup, fireDue_of_none hnone]
    · have hfire : s.fireDue = s.fireOne n x := by rw [State.fireDue, hdue]; rfl
      have hnoted := takeOf_modTake_same (f := fun t => { t with note := x.note }) (takeOf_modTake_same (f := fun t => { t with sched := t.sched.erase x }) hk)
      obtain ⟨y, hy, hhead⟩ := takeOf_closeTake hnoted hlive x.time 1
      rw [← fireOne_closes hk hlive hx, ← hfire] at hy
      exact ⟨_, y, exec_closePointReached hup, hy, congrArg Take.state hhead, congrArg Take.closeTime hhead,
        (congrArg Take.reason hhead).trans (if_neg (by omega)), congrArg Take.note hhead⟩
    · have hsame := trigInEdge_ignored (s := s) (age := age.val) (.inl h)
      rw [exec_trigInEdge (by rw [hsame]; exact hup), hsame]
    · have hsame := trigInEdge_ignored (s := s) (up := up) (held := held) (age := age.val) (.inr ⟨t, ht, hearly⟩)
      rw [exec_trigInEdge (by rw [hsame]; exact hup), hsame]
    · intro k hrun hpol hheld hlast hdue hopen hk harmed hchain haccepts hedges hbefore
      have hedge := trigInEdge_starts hrun hpol hheld hlast hdue hopen haccepts hedges hbefore
      have hcounted := takeOf_modTake_same (s := s.edgeAt (s.now - age.val)) (f := fun x => { x with pinEdges := x.pinEdges + 1 }) hk
      obtain ⟨u, x, hu, hx, hstart, -, hpin, -, hsource, -, hpins, hmain⟩ := started_spec hcounted 2 ((s.steepleTime - age.val) / 4 * 4) 2 harmed hchain
        (by decide)
      rw [hu] at hedge
      have hstays : u.mainUp = true := hmain.trans hup
      exact ⟨u, x, hedge ▸ exec_trigInEdge (hedge.symm ▸ hstays), by rw [hpins]; rfl, hx, by rw [hpin, hedges], hstart, hsource, by rw [hpins]; rfl⟩

end

section
/-!
PROOFS. Scope: what settles the data path leaves the recording service as it was, but for takes deleted.
-/
namespace Sys2Proof.Machine

/-! ### The rules that settle the path -/

@[simp] theorem recorder_setCtrl (s : State) (c : Nat) (x : Ctrl) : (s.setCtrl c x).recorder = s.recorder := rfl

@[simp] theorem recorder_countUser (s : State) (n : Nat) : (s.countUser n).recorder = s.recorder := by
  rw [State.countUser, recorder_tally, recorder_modPath, recorder_moved]

@[simp] theorem recorder_mapWrite (s : State) (nsid : Nat) (pairs : List (Nat × Nat)) : (s.mapWrite nsid pairs).recorder = s.recorder := by
  simp [State.mapWrite]

@[simp] theorem recorder_finish (s : State) (c : WCmd) : (s.finish c).recorder = s.recorder := by
  unfold State.finish
  cases c.kind <;> simp

@[simp] theorem recorder_finishAll (s : State) : s.finishAll.recorder = s.recorder := by simp [State.finishAll]

@[simp] theorem recorder_jputs (s : State) (es : List Entry) : (s.jputs es).recorder = s.recorder := by simp [State.jputs]

theorem recorder_openBand (s : State) (kind : Nat) : ∀ t ∈ s.openBand kind, t.recorder = s.recorder := by
  unfold State.openBand
  split
  · simp
  · split
    · simp
    · split <;> simp

theorem recorder_bandWithRoom (s : State) (kind pick n : Nat) : ∀ x ∈ s.bandWithRoom kind pick n, x.1.recorder = s.recorder := by
  unfold State.bandWithRoom
  split
  · simp
  · split
    next t h =>
      have ht : t.recorder = s.recorder := recorder_openBand s kind t (Option.ite_none_right_eq_some.mp h).2
      split
      · split <;> simp [ht]
      · simp
    next =>
      split
      · split
        · dsimp only
          split
          · split <;> simp
          · simp
        · simp
      · simp

theorem recorder_sealStripe (s : State) : ∀ t ∈ s.sealStripe, t.recorder = s.recorder := by
  unfold State.sealStripe
  split
  · simp
  next s1 b h1 =>
    split
    · simp
    next s2 st h2 => simp [recorder_beginStripe _ _ _ h2, recorder_bandWithRoom _ _ _ _ _ h1]

@[simp] theorem recorder_sealAll (n : Nat) (s : State) : (s.sealAll n).recorder = s.recorder := by
  induction n generalizing s with
  | zero => rfl
  | succ n ih =>
    unfold State.sealAll
    split
    · rfl
    · split
      next t h => rw [ih, recorder_sealStripe s t h]
      next => rfl

theorem recorder_assemble (s : State) (kind pick : Nat) (coarse : Bool) (p : Placed) :
    ∀ x ∈ s.assemble kind pick coarse p, x.1.recorder = s.recorder := by
  unfold State.assemble
  extract_lets unit want got
  split
  · dsimp only
    split <;> simp
  · have hgot : ∀ x ∈ got, x.1.1.recorder = s.recorder := by
      simp only [got]
      split
      next x hx => simp [recorder_bandWithRoom s _ _ _ x hx]
      next =>
        split
        · simp
        · intro x hx
          obtain ⟨y, hy, rfl⟩ := Option.mem_map.mp hx
          exact recorder_bandWithRoom s _ _ _ y hy
    clear_value got
    split
    · simp
    next s1 b n =>
      split
      · simp
      next s2 st h2 =>
        dsimp only
        split <;> simp [recorder_beginStripe s1 b _ h2, hgot _ rfl]

@[simp] theorem recorder_leaveWindow (s : State) (a : Nat) : (s.leaveWindow a).recorder = s.recorder := by simp [State.leaveWindow]

@[simp] theorem recorder_moveSlot (s : State) (st : Stripe) (c : CoarseSlot) : (s.moveSlot st c).recorder = s.recorder := by
  unfold State.moveSlot
  split
  · rfl
  · refine recorder_foldl (fun t k => ?_) _ _
    split
    · split
      · split
        next u b h => simp [recorder_assemble t _ _ _ _ _ h]
        next => rfl
      · rfl
    · rfl

@[simp] theorem recorder_coarseMoves (s : State) : s.coarseMoves.recorder = s.recorder := by simp [State.coarseMoves]

@[simp] theorem recorder_waitStep (s : State) (w : DurWait) : (s.waitStep w).recorder = s.recorder := by simp [State.waitStep]

@[simp] theorem recorder_waitsAll (s : State) : s.waitsAll.recorder = s.recorder := by simp [State.waitsAll]

@[simp] theorem recorder_cpRoot (s : State) : s.cpRoot.recorder = s.recorder := by
  unfold State.cpRoot
  split <;> simp

@[simp] theorem recorder_placeMetas (s : State) : s.placeMetas.recorder = s.recorder := by
  unfold State.placeMetas
  split
  · rfl
  · extract_lets r
    have hr : r.1.recorder = s.recorder := List.foldlRecOn _ _ (motive := fun a : State × List MetaSec => a.1.recorder = s.recorder) rfl fun a ha m _ => by
      dsimp only
      split
      · exact ha
      · rw [recorder_placeMeta, ha]
    simp [hr]

@[simp] theorem recorder_metaSettle (s : State) : s.metaSettle.recorder = s.recorder := by simp [State.metaSettle]

@[simp] theorem recorder_commitUnit (s : State) (u : AUnit) : (s.commitUnit u).recorder = s.recorder := by simp [State.commitUnit]

@[simp] theorem recorder_commitUnits (s : State) : s.commitUnits.recorder = s.recorder := by simp [State.commitUnits]

@[simp] theorem recorder_releaseNever (s : State) (st : Stripe) : (s.releaseNever st).recorder = s.recorder := by simp [State.releaseNever]

@[simp] theorem recorder_releaseNevers (s : State) : s.releaseNevers.recorder = s.recorder := by simp [State.releaseNevers]

@[simp] theorem recorder_mapMove (s : State) (nsid lsa old new : Nat) : (s.mapMove nsid lsa old new).recorder = s.recorder := by simp [State.mapMove]

@[simp] theorem recorder_adoptRelocated (s : State) (st : Stripe) : (s.adoptRelocated st).recorder = s.recorder := by
  refine recorder_foldl (fun t e => ?_) _ _
  extract_lets src named
  split
  · simp
  · refine recorder_foldl (fun u i => ?_) _ _
    split <;> simp

@[simp] theorem recorder_becomeDurable (s : State) (st : Stripe) : (s.becomeDurable st).recorder = s.recorder := by simp [State.becomeDurable]

@[simp] theorem recorder_durablePass (n : Nat) (s : State) : (s.durablePass n).recorder = s.recorder := by
  induction n generalizing s with
  | zero => rfl
  | succ n ih =>
    unfold State.durablePass
    split <;> simp [ih]

@[simp] theorem recorder_journalBands (s : State) : s.journalBands.recorder = s.recorder := by simp [State.journalBands]

@[simp] theorem recorder_settleStripes (s : State) : s.settleStripes.recorder = s.recorder := by simp [State.settleStripes]

@[simp] theorem recorder_gcDecide (s : State) : s.gcDecide.recorder = s.recorder := by
  unfold State.gcDecide
  extract_lets f s1
  have h1 : s1.recorder = s.recorder := by simp [s1]
  simp [h1, recorder_wr (g := Reg.FTL_STATUS_GC_URGENT) (by decide)]

@[simp] theorem recorder_gcLook (s : State) : s.gcLook.recorder = s.recorder := by simp [State.gcLook]

@[simp] theorem recorder_rebuildSettle (s : State) : s.rebuildSettle.recorder = s.recorder := by
  simp [State.rebuildSettle, recorder_wr (g := Reg.STR_RBLD_REMAIN_MIB) (by decide),
    recorder_wr (g := Reg.STR_STATUS_REBUILD) (by decide)]

@[simp] theorem recorder_showStripes (s : State) : s.showStripes.recorder = s.recorder := by
  simp [State.showStripes, recorder_wr (g := Reg.STR_STATUS_LOST) (by decide), recorder_wr (g := Reg.STR_STATUS_EXPOSED) (by decide),
    recorder_wr (g := Reg.STR_STATUS_REDUCED) (by decide)]

end Sys2Proof.Machine

end

section
/-!
PROOFS. Scope: a status record owed on a DMA channel stays owed until it is read back (07 R266); a descriptor whose tag is above FRAME_MAX
(07 R259, R267).
-/
namespace Sys2Proof.Machine

/-! ### A status record that is owed -/

/-- Channel d, where it is set up, has a status record that is still to be written, or one written and not yet read back (07 R266). -/
def State.owes (s : State) (d : Nat) : Prop := ∀ z, s.dma d = some z → z.outcomes ≠ [] ∨ z.next ≠ [] ∨ z.wrote.isSome = true

section
variable {s : State} {d : Nat}

theorem owes_of_dmas {t : State} (ht : t.takes.dmas = s.takes.dmas) (h : s.owes d) : t.owes d := by
  rwa [State.owes, State.dma, ht]

theorem owes_of_recorder {t : State} (ht : t.recorder = s.recorder) (h : s.owes d) : t.owes d := owes_of_dmas (by rw [takes_of_recorder ht]) h

theorem owes_of_none (h : s.dma d = none) : s.owes d := fun z hz => by simp [h] at hz

theorem dma_setDma (s : State) (k : Nat) (x : Option Dma) (d : Nat) : (s.setDma k x).dma d = if d = k then x else s.dma d := mapGet_mapSet _ _ _ _

/-- A channel takes a value that owes a record, or is none. -/
theorem owes_setDma {k : Nat} {x : Option Dma} (hx : k = d → ∀ z, x = some z → z.outcomes ≠ [] ∨ z.next ≠ [] ∨ z.wrote.isSome = true) (h : s.owes d) :
    (s.setDma k x).owes d := by
  intro z hz
  rw [dma_setDma] at hz
  split at hz
  next hk => exact hx hk.symm z hz
  next => exact h z hz

theorem owes_foldl {α : Type} {g : State → α → State} (hg : ∀ t x, State.owes t d → (g t x).owes d) (l : List α) (h : s.owes d) : (l.foldl g s).owes d :=
  List.foldlRecOn (motive := fun t : State => t.owes d) l g h fun t ht x _ => hg t x ht

theorem owes_ite {c : Prop} [Decidable c] {t : State} (h : s.owes d) (ht : t.owes d) : (if c then s else t).owes d := by
  split
  · exact h
  · exact ht

/-! ### Steps that leave the channels -/

theorem owes_wr {f : Field} {v : Nat} (h : s.owes d) : (s.wr f v).owes d := h
theorem owes_setReg {off : Nat} {w : Word} (h : s.owes d) : (s.setReg off w).owes d := h
theorem owes_modFrames {f : InFlight → InFlight} (h : s.owes d) : (s.modFrames f).owes d := h
theorem owes_modClip {num i : Nat} {f : Clip → Clip} (h : s.owes d) : (s.modClip num i f).owes d := h
theorem owes_dropFrame {f : InFlight} (h : s.owes d) : (s.dropFrame f).owes d := h
theorem owes_tally {off n : Nat} (h : s.owes d) : (s.tally off n).owes d := owes_of_recorder (recorder_tally s off n) h
theorem owes_raiseAll {l : List Nat} (h : s.owes d) : (s.raiseAll l).owes d := owes_of_recorder (recorder_raiseAll s l) h
theorem owes_complete {c : Sqe} {st : Status} {dw0 dw1 : Nat} {data : List Byte} (h : s.owes d) : (s.complete c st dw0 dw1 data).owes d :=
  owes_of_recorder (recorder_complete s c st dw0 dw1 data) h
theorem owes_fail {c : Sqe} {st : Status} (h : s.owes d) : (s.fail c st).owes d := owes_of_recorder (recorder_fail s c st) h
theorem owes_succeed {c : Sqe} (h : s.owes d) : (s.succeed c).owes d := owes_of_recorder (recorder_succeed s c) h
theorem owes_dirChange (h : s.owes d) : s.dirChange.owes d := owes_of_recorder (recorder_dirChange s) h
theorem owes_writeGo {w : WCmd} (h : s.owes d) : (s.writeGo w).owes d := owes_of_recorder (recorder_writeGo s w) h
theorem owes_takeWrite {purpose num idx : Nat} {lsas : List Nat} {secs : List (List Byte)} {wt : Option Bool} {fua : Bool} (h : s.owes d) :
    (s.takeWrite purpose num idx lsas secs wt fua).owes d := owes_of_recorder (recorder_takeWrite s purpose num idx lsas secs wt fua) h
theorem owes_writeHeaders {num state : Nat} (h : s.owes d) : (s.writeHeaders num state).owes d :=
  owes_of_recorder (recorder_writeHeaders s num state) h
theorem owes_takeTrim {lsas : List Nat} (h : s.owes d) : (s.takeTrim lsas).owes d := owes_of_recorder (recorder_takeTrim s lsas) h
theorem owes_endSegments {f : InFlight} {st : Status} (h : s.owes d) : (s.endSegments f st).owes d :=
  owes_of_recorder (recorder_endSegments s f st) h

/-! ### Deallocations that end -/

theorem owes_shredStart {t : TrimCmd} (h : s.owes d) : (s.shredStart t).owes d := by
  refine owes_of_recorder ?_ h
  simp [State.shredStart]

theorem owes_takeGone {c : Sqe} (h : s.owes d) : (s.takeGone c).owes d := by
  unfold State.takeGone
  split
  · exact owes_fail h
  · exact owes_succeed (owes_dirChange (owes_tally h))

theorem owes_trimNow {t : TrimCmd} (h : s.owes d) : (s.trimNow t).owes d := by
  simp only [State.trimNow]
  split
  · exact h
  next s1 hs1 =>
    have h1 : s1.owes d := owes_of_recorder (recorder_trims t.nsid t.ranges (s := s) (o := some s) (by simp) s1 hs1) h
    have h2 : ((s1.modPath fun p => { p with trims := p.trims.filter fun x => x.id != t.id }).showFineWait).owes d :=
      owes_of_recorder (recorder_showFineWait _) h1
    exact owes_ite (owes_shredStart h2) (owes_ite h2 (owes_ite (owes_takeGone h2) (owes_complete h2)))

theorem owes_trimGo {t : TrimCmd} (h : s.owes d) : (s.trimGo t).owes d := by
  unfold State.trimGo
  split
  · exact h
  · split
    · exact owes_trimNow h
    · exact owes_of_recorder (by simp) h

theorem owes_progress (h : s.owes d) : s.progress.owes d := by
  refine owes_foldl (fun u i hu => ?_) _ h
  split
  · exact owes_writeGo hu
  · split
    · exact owes_trimGo hu
    · exact hu

theorem owes_settle (h : s.owes d) : s.settle.owes d := by
  have hdurable : s.coarseMoves.gcLook.settleStripes.owes d := owes_of_recorder (by simp) h
  exact owes_of_recorder (s := s.coarseMoves.gcLook.settleStripes.progress) (by simp [State.settle]) (owes_progress hdurable)

/-! ### Takes that go on -/

/-- The value of a key of a map in which that of one key has changed. -/
theorem mapGet_map_at {V : Type} (none1 : V) (f : V → V) (hf : f none1 = none1) (m : SMap V) (k d : Nat) :
    mapGet (fun _ => none1) (m.map fun e => if e.1 == k then (k, f e.2) else e) d =
      if d = k then f (mapGet (fun _ => none1) m d) else mapGet (fun _ => none1) m d := by
  induction m with
  | nil => exact (ite_eq_right_iff.mpr fun _ => hf).symm
  | cons e m ih =>
    obtain ⟨a, v⟩ := e
    by_cases hk : a = k
    · by_cases hd : d = k <;> simp_all [mapGet]
    · by_cases hd : d = a <;> simp_all [mapGet]

/-- An outcome joins those of its channel. -/
theorem dma_dmaOutcome (s : State) (k idx : Nat) (r : StatusRec) (d : Nat) :
    (s.dmaOutcome k idx r).dma d = if d = k then (s.dma d).map fun x => { x with outcomes := x.outcomes ++ [(idx, r)] } else s.dma d :=
  mapGet_map_at none (Option.map fun x : Dma => { x with outcomes := x.outcomes ++ [(idx, r)] }) rfl s.takes.dmas k d

/-- An outcome more is owed. -/
theorem owes_dmaOutcome {k idx : Nat} {r : StatusRec} (h : s.owes d) : (s.dmaOutcome k idx r).owes d := by
  intro z hz
  rw [dma_dmaOutcome] at hz
  split at hz
  · obtain ⟨x, -, rfl⟩ := Option.map_eq_some_iff.mp hz
    simp
  · exact h z hz

theorem owes_pullRefused {f : InFlight} {st : Status} (h : s.owes d) : (s.pullRefused f st).owes d := by
  unfold State.pullRefused
  split
  · split
    · exact owes_dmaOutcome h
    · exact h
  · exact h

theorem owes_abandon {f : InFlight} {st : Status} (h : s.owes d) : (s.abandon f st).owes d := by
  unfold State.abandon
  extract_lets s1
  have h1 : s1.owes d := owes_dropFrame (owes_pullRefused (owes_endSegments h))
  split
  · exact h1
  · extract_lets s2
    have h2 : s2.owes d := h1
    split
    · exact h2
    · split
      · exact h2
      · split
        · exact h2
        · exact owes_takeWrite (owes_takeTrim h2)

theorem owes_frameWhole {f : InFlight} (h : s.owes d) : (s.frameWhole f).owes d := by
  unfold State.frameWhole
  split
  · exact h
  · extract_lets s1 wt
    have h1 : s1.owes d := h
    split
    · exact owes_ite (owes_dmaOutcome h1) h1
    · split
      · exact owes_ite (owes_complete h1) h1
      · exact h1

theorem owes_frameSettle {f : InFlight} (h : s.owes d) : (s.frameSettle f).owes d := by
  unfold State.frameSettle
  split
  · exact h
  · split
    · exact owes_frameWhole h
    · split
      · exact h
      · split
        · exact h
        · split
          · exact h
          · exact owes_takeWrite (owes_modFrames h)

theorem owes_takeDone {w : WCmd} (h : s.owes d) : (s.takeDone w).owes d := by
  unfold State.takeDone
  split
  · split
    · split
      · exact owes_frameSettle (owes_modFrames h)
      · exact h
    · exact h
  · split
    · exact h
    · exact owes_frameSettle (owes_ite (owes_modFrames h) (owes_complete (owes_modFrames h)))

/-- A channel that is set up no longer owes nothing. -/
theorem owes_channelsGone {l : List Nat} (h : s.owes d) : (l.foldl (fun u k => (u.setDma k none).setReg (Reg.TAK_DMA_STAT k) 0) s).owes d :=
  owes_foldl (fun _ _ hu => owes_setReg (owes_setDma (by simp) hu)) l h

theorem owes_openFailed {t : Take} {c : Sqe} {st : Status} (h : s.owes d) : (s.openFailed t c st).owes d := by
  unfold State.openFailed
  extract_lets slots s1 s2 s3 mapped s4
  have h1 : s1.owes d := owes_foldl (fun u f hu => owes_dropFrame (owes_endSegments hu)) _ h
  have h2 : s2.owes d := owes_foldl (fun u r hu => owes_foldl (fun v q hv => owes_fail hv) _ hu) _ h1
  have h3 : s3.owes d := owes_channelsGone h2
  have h4 : s4.owes d := owes_takeTrim h3
  exact owes_fail (owes_raiseAll (owes_dirChange h4))

theorem owes_takeFailed {x : WCmd × Status} (h : s.owes d) : (s.takeFailed x).owes d := by
  unfold State.takeFailed
  dsimp only
  split
  · split
    · split
      · split
        · exact owes_openFailed h
        · exact h
      · exact h
    · exact h
  · split
    · exact h
    · exact owes_abandon (owes_ite (owes_fail h) h)

theorem owes_fullClear (h : s.owes d) : s.fullClear.owes d := owes_ite (owes_wr h) h

theorem owes_sendSegs {num i : Nat} (h : s.owes d) : (s.sendSegs num i).owes d := by
  unfold State.sendSegs
  split
  · exact h
  · refine owes_foldl (fun u k hu => ?_) _ h
    split
    · exact hu
    · exact owes_ite hu (owes_modClip (owes_takeWrite hu))

theorem owes_clipGrow {num i n : Nat} {reserve : Bool} (h : s.owes d) : ∀ x ∈ s.clipGrow num i n reserve, x.1.owes d := by
  unfold State.clipGrow
  split
  · simp
  · split
    · simp
    · dsimp only
      split
      · rintro x ⟨⟩
        exact h
      · split
        · simp
        · split
          · simp
          · rintro x ⟨⟩
            exact h

theorem owes_placeMissing {num i : Nat} (h : s.owes d) : (s.placeMissing num i).owes d := by
  unfold State.placeMissing
  split
  · exact h
  · refine owes_foldl (fun u k hu => ?_) _ h
    split
    · split
      · exact hu
      · dsimp only
        split
        next v off hgrow => exact owes_modClip (owes_clipGrow hu _ hgrow)
        next => exact hu
    · exact hu

theorem owes_discardRecs {num i : Nat} {rs : List ClipRec} (h : s.owes d) : (s.discardRecs num i rs).owes d := by
  unfold State.discardRecs
  split
  · exact h
  · split
    · exact h
    · extract_lets n s1 s2 s3 s4
      have h1 : s1.owes d := by
        refine owes_foldl (fun u r hu => ?_) _ h
        split
        · exact owes_ite (owes_dropFrame (owes_pullRefused (owes_endSegments hu))) hu
        · exact hu
      have h3 : s3.owes d := owes_takeTrim h1
      have h4 : s4.owes d := owes_tally h3
      exact owes_ite h4 h4

theorem owes_sealRing {num i : Nat} {c : Clip} (h : s.owes d) : (s.sealRing num i c).owes d :=
  owes_ite h (owes_discardRecs h)

theorem owes_lastSeg {num i : Nat} {c : Clip} (h : s.owes d) : (s.lastSeg num i c).owes d := by
  unfold State.lastSeg
  dsimp only
  split
  next v off hgrow => exact owes_modClip (owes_clipGrow h _ hgrow)
  next => exact h

theorem owes_sealClip {num i : Nat} (h : s.owes d) : (s.sealClip num i).owes d := by
  unfold State.sealClip
  split
  · exact h
  · split
    · exact h
    next c0 _ =>
      have h0 : ((s.sealRing num i c0).placeMissing num i).owes d := owes_placeMissing (owes_sealRing h)
      extract_lets s00
      split
      · exact h0
      next c _ =>
        extract_lets s1
        have h1 : s1.owes d := owes_lastSeg h0
        split
        · exact h1
        next s2 tab hg2 =>
          have h2 : s2.owes d := owes_clipGrow h1 _ hg2
          split
          · exact h2
          next s3 tr hg3 =>
            extract_lets s4
            have h4 : s4.owes d := owes_clipGrow h2 _ hg3
            split
            · exact h4
            · split
              · exact h4
              · exact owes_takeWrite (owes_takeWrite (owes_sendSegs h4))

theorem owes_takeState {num st : Nat} (h : s.owes d) : (s.takeState num st).owes d := by
  unfold State.takeState
  split
  · exact h
  · exact owes_raiseAll (owes_dirChange h)

theorem owes_closed {t : Take} (h : s.owes d) : (s.closed t).owes d := by
  unfold State.closed
  extract_lets s1 s2 s3 frames
  have h1 : s1.owes d := owes_takeState (owes_writeHeaders h)
  have h3 : s3.owes d := owes_channelsGone h1
  exact owes_foldl (fun u c hu => owes_complete hu) _ h3

theorem owes_takeStep {num : Nat} (h : s.owes d) : (s.takeStep num).owes d := by
  unfold State.takeStep
  split
  · exact h
  · extract_lets s1 s2
    have h1 : s1.owes d := owes_ite (owes_foldl (fun u i hu => owes_sendSegs hu) _ h) h
    have h2 : s2.owes d := by
      simp only [s2]
      split
      · exact owes_ite h1 (owes_complete h1)
      · exact h1
    split
    · exact h2
    · split
      · exact owes_foldl (fun u i hu => owes_sealClip hu) _ h2
      · exact owes_ite (owes_closed h2) h2

theorem owes_framesSettle (h : s.owes d) : s.framesSettle.owes d := by
  refine owes_foldl (fun u f hu => ?_) _ h
  split
  · exact owes_frameSettle hu
  · exact hu

theorem owes_takeSettle (h : s.owes d) : s.takeSettle.owes d := by
  unfold State.takeSettle
  extract_lets s1 s2
  have h1 : s1.owes d := owes_foldl (fun u w hu => owes_takeDone hu) _ h
  have h2 : s2.owes d := owes_foldl (fun u x hu => owes_takeFailed hu) _ h1
  exact owes_fullClear (owes_foldl (fun u n hu => owes_takeStep hu) _ (owes_framesSettle h2))

/-! ### The DMA engine -/

theorem owes_setDmaState {k st : Nat} (h : s.owes d) : (s.setDmaState k st).owes d := h

theorem owes_showDma (h : s.owes d) : s.showDma.owes d := by
  refine owes_foldl (fun u k hu => ?_) _ h
  exact owes_ite hu (owes_setDmaState hu)

theorem owes_arriveFrame {w : WCmd} {data : List Byte} (h : s.owes d) : (s.arriveFrame w data).owes d := by
  unfold State.arriveFrame
  split
  · split
    · exact h
    · dsimp only
      refine owes_ite h (owes_of_recorder (recorder_ingressAdd _ _ _) h)
  · exact h

theorem owes_dmaFeed {f : InFlight} (h : s.owes d) : (s.dmaFeed f).owes d := by
  unfold State.dmaFeed
  extract_lets n s1
  have h1 : s1.owes d := by
    simp only [s1]
    split
    · exact owes_ite h (owes_arriveFrame h)
    · exact h
  split
  · exact h1
  · exact h1

theorem owes_dmaServe {n : Nat} (h : s.owes d) : (State.dmaServe n s).owes d := by
  induction n generalizing s with
  | zero => exact h
  | succ n ih =>
    unfold State.dmaServe
    split
    · exact h
    · split
      · exact h
      · exact owes_ite h (ih (owes_dmaFeed h))

/-- A record leaves the outcomes only to be written. -/
theorem owes_dmaOrder {n k : Nat} (h : s.owes d) : (State.dmaOrder n k s).owes d := by
  induction n generalizing s with
  | zero => exact h
  | succ n ih =>
    unfold State.dmaOrder
    split
    · exact h
    · split
      · refine ih (owes_setDma (fun _ z hz => ?_) h)
        cases hz
        simp
      · exact h

/-- Records to be written leave them only to be read back. -/
theorem owes_dmaPump {k : Nat} (h : s.owes d) : (s.dmaPump k).owes d := by
  unfold State.dmaPump
  split
  · exact h
  · extract_lets s1
    have h1 : s1.owes d := owes_dmaOrder h
    split
    · exact h1
    · refine owes_ite h1 (owes_ite h1 (owes_setDma (fun _ z hz => ?_) (owes_of_dmas rfl h1)))
      cases hz
      simp

theorem owes_dmaPumpAll (h : s.owes d) : s.dmaPumpAll.owes d := owes_foldl (fun _ _ hu => owes_dmaPump hu) _ h

/-! ### The end of a flush, and resets -/

theorem takes_showChannels (s : State) : s.showChannels.takes = s.takes :=
  List.foldlRecOn (motive := fun t : State => t.takes = s.takes) _ _ rfl fun _ ht _ _ => ht

/-- A main reset leaves no channel. -/
theorem dma_mainReset (s : State) (k : Nat) : s.mainReset.dma k = none := by
  have htakes : s.mainReset.takes = { Takes.init with
    dir := (s.tally 0x20 1).takes.dir, nextTake := (s.tally 0x20 1).takes.nextTake, generation := (s.tally 0x20 1).takes.generation,
    discardTotal := (s.tally 0x20 1).takes.discardTotal } := takes_showChannels _
  rw [State.dma, htakes]
  rfl

theorem owes_mainReset (s : State) (d : Nat) : s.mainReset.owes d := owes_of_none (dma_mainReset s d)

theorem owes_warmReset (s : State) (suspect : Bool) (d : Nat) : (s.warmReset suspect).owes d :=
  owes_of_dmas (s := State.mainReset _) rfl (owes_mainReset _ d)

theorem owes_kill {how : Nat} (h : s.owes d) : (s.kill how).owes d := by
  have hrails (t : State) (ht : t.owes d) : t.rails0.owes d := by
    unfold State.rails0
    split
    · exact owes_of_dmas (s := t.mainReset) rfl (owes_mainReset t d)
    · exact owes_of_dmas (s := t) rfl ht
  have htrip : (s.tripKilled how).owes d := by
    unfold State.tripKilled
    split
    · exact owes_ite h (owes_of_dmas rfl h)
    · exact h
  exact hrails _ (owes_ite (owes_of_dmas rfl (owes_ite (owes_tally htrip) htrip)) (owes_ite (owes_tally htrip) htrip))

theorem owes_auxReset (s : State) (d : Nat) : s.auxReset.owes d := by
  have hload : s.mainReset.loadCounters.owes d := by
    refine owes_of_dmas ?_ (owes_mainReset s d)
    unfold State.loadCounters
    dsimp only
    split <;> rfl
  exact owes_of_dmas (t := s.auxReset) (congrArg Takes.dmas ((takes_showChannels _).trans (takes_of_recorder (recorder_tally _ _ _)))) hload

theorem owes_flushEnd (h : s.owes d) : s.flushEnd.owes d :=
  owes_ite (owes_warmReset s _ d) (owes_ite (owes_auxReset _ d) (owes_kill h))

theorem owes_flushStep (h : s.owes d) : s.flushStep.owes d := by
  unfold State.flushStep
  split
  · exact h
  · extract_lets s1
    have h1 : s1.owes d := owes_foldl (fun u st hu => owes_of_recorder (recorder_closeStripe u st.id 2) hu) _ h
    split
    · exact h1
    · split
      · exact owes_of_recorder (recorder_sealAll _ s1) h1
      · split
        · exact owes_flushEnd h1
        · split
          · exact owes_of_recorder (recorder_writePage s1 true) h1
          · exact owes_ite (owes_flushEnd h1) h1

theorem owes_settleDma (h : s.owes d) : s.settleDma.owes d :=
  owes_flushStep (owes_showDma (owes_dmaServe (owes_takeSettle (owes_dmaPumpAll (owes_takeSettle (owes_settle h))))))
end

/-! ### A descriptor whose tag is above FRAME_MAX -/

/-- Pull channel 3 of take 7: nine descriptors are produced, none is fetched and no status record is owed. -/
def pullChannel : Dma where
  take := 7
  slot := 0
  vector := 1
  coalesce := 4
  ringBase := 0x10000
  statusBase := 0x20000
  consAddr := 0x30000
  entries := 64
  highWm := 8
  lowWm := 4
  maxWait := 0
  produced := [(9, 0)]
  flushTo := none
  fetched := 0
  consumed := 0
  outcomes := []
  next := []
  batch := []
  wrote := none
  unsignalled := 0
  unsignalledAt := 0

/-- READY, with take 7 ARMED on slot 0, without a ring, and its channel 3 IDLE above its high watermark. -/
def armedPull : State :=
  let s : State := { twoTakesOfOneNumber with takes := { twoTakesOfOneNumber.takes with dir := [takeOnSlot 1 0], dmas := [(3, some pullChannel)] } }
  (s.wr (Reg.TAK_DMA_PI_PI 3) 9).setDmaState 3 1

/-- A descriptor (Table 7.7) of 64 bytes, within FRAME_MAX, whose tag is 2^21. -/
def highTagDesc : List Byte := leBytes 8 0 ++ leBytes 4 64 ++ leBytes 4 0 ++ leBytes 8 0 ++ leBytes 4 0x200000 ++ leBytes 4 0

theorem armedPull_ready : armedPull.mainUp = true ∧ armedPull.fireDue.dma 3 = some pullChannel ∧ armedPull.fireDue.dmaBusy 3 = none ∧
    armedPull.fireDue.unfetched 3 pullChannel ≠ 0 := by
  decide

theorem armedPull_chosen : armedPull.fireDue.dmaChosen = some 3 := by decide +kernel

/-- Bytes 24 to 27, the tag, taken for a length would be above FRAME_MAX; the length, in bytes 8 to 11, is not. -/
theorem armedPull_outcomes :
    armedPull.fireDue.frameOutcome 0 (leAt highTagDesc 24 4) armedPull.fireDue.steepleTime = .refuse (stVendor 0x81 true) ∧
    armedPull.fireDue.frameOutcome 0 (leAt highTagDesc 8 4) armedPull.fireDue.steepleTime = .wait := by
  decide

/-- The frame waits for a START: its channel owes no status record. -/
theorem armedPull_settled : (((armedPull.fireDue.descriptor 3 highTagDesc).settleDma).dma 3).map (fun z => (z.outcomes, z.next, z.wrote)) = some ([], [], none) := by
  decide +kernel

theorem exec_dmaDescriptorArrival {s : State} (hup : s.mainUp = true) (d : Fin 64) (b : List Byte) :
    exec (.dmaDescriptorArrival d b) s = .next (s.fireDue.descriptor d.val b).settleDma := congrArg Host.Outcome.next (if_pos hup)

end Sys2Proof.Machine

open Sys2Proof
open Sys2Proof.Machine

/-- Refutes O44: the clause of a refused descriptor reads the frame's length where Table 7.7 has its tag. A descriptor with a high tag and a length
within FRAME_MAX is not refused by an ARMED take: its frame waits, and its channel owes no status record, as it would after an outcome. -/
theorem not_dmaChannelsFollowTheirRings : ¬ Obligations.DmaChannelsFollowTheirRings := by
  unfold Obligations.DmaChannelsFollowTheirRings
  intro h
  obtain ⟨hup, hchannel, hidle, hleft⟩ := armedPull_ready
  obtain ⟨-, hdescs, -⟩ := h 3 armedPull hup
  obtain ⟨-, hrefused⟩ := hdescs highTagDesc
  obtain ⟨u, y, hexec, hy, -, houtcomes, -⟩ := hrefused pullChannel _ hchannel armedPull_chosen hidle hleft armedPull_outcomes.1
  have howes : u.owes 3 := by
    intro z hz
    obtain rfl : y = z := Option.some.inj (hy.symm.trans hz)
    exact .inl (List.ne_nil_of_length_eq_add_one houtcomes)
  have hsettled : (armedPull.fireDue.descriptor 3 highTagDesc).settleDma = u.settleDma :=
    Host.Outcome.next.inj ((exec_dmaDescriptorArrival hup 3 highTagDesc).symm.trans hexec)
  obtain ⟨z, hz, hnone⟩ := Option.map_eq_some_iff.mp armedPull_settled
  rw [hsettled] at hz
  rcases owes_settleDma howes z hz with hout | hnext | hwrote
  · exact hout (congrArg (fun x => x.1) hnone)
  · exact hnext (congrArg (fun x => x.2.1) hnone)
  · rw [show z.wrote = none from congrArg (fun x => x.2.2) hnone] at hwrote
    exact Bool.false_ne_true hwrote

end

section
/-!
PROOFS. Scope: a part of the state that the data path leaves alone, said once for every such part: the write path, stripes and bands, triples, the
journal, and the frames, clips and records of the take service up to the close of a take.
-/
namespace Sys2Proof.Machine

/-! ### Parts of the state beside the data path -/

/-- The registers a change of the data path shows in, besides the log's and the status of sources. -/
def pathFields : List Field := [Reg.STR_DW_STATUS_GATE_CLOSED, Reg.STR_DW_STATUS_WRITE_THROUGH, Reg.FTL_STATUS_FINE_WAIT, Reg.STR_STATUS_OPEN_BANDS]

/-- A part of the state in which what the data path is made of does not show: its own components, its registers, completions, the sources 1,711 and
1,721, and the log. -/
structure Beside (α : Type) where
  get : State → α
  modPath : ∀ s f, get (s.modPath f) = get s
  modFtl : ∀ s f, get (s.modFtl f) = get s
  modWin : ∀ s f, get (s.modWin f) = get s
  modTakes : ∀ s f, get (s.modTakes f) = get s
  setKeySlot : ∀ s k x, get (s.setKeySlot k x) = get s
  complete : ∀ s c st dw0 dw1 data, get (s.complete c st dw0 dw1 data) = get s
  tally : ∀ s off n, get (s.tally off n) = get s
  record : ∀ s ty severity data, get (s.record ty severity data) = get s
  raise : ∀ s, ∀ src ∈ [1711, 1721], get (s.raise src) = get s
  wr : ∀ s, ∀ f ∈ pathFields, ∀ v, get (s.wr f v) = get s

namespace Beside
variable {α : Type} (V : Beside α)

@[simp] theorem get_modPath (s : State) (f : Path → Path) : V.get (s.modPath f) = V.get s := V.modPath s f
@[simp] theorem get_modFtl (s : State) (f : Ftl → Ftl) : V.get (s.modFtl f) = V.get s := V.modFtl s f
@[simp] theorem get_modWin (s : State) (f : Window → Window) : V.get (s.modWin f) = V.get s := V.modWin s f
@[simp] theorem get_modTakes (s : State) (f : Takes → Takes) : V.get (s.modTakes f) = V.get s := V.modTakes s f
@[simp] theorem get_tally (s : State) (off n : Nat) : V.get (s.tally off n) = V.get s := V.tally s off n
@[simp] theorem get_record (s : State) (ty severity : Nat) (data : List Nat) : V.get (s.record ty severity data) = V.get s := V.record s ty severity data

@[simp] theorem get_ite (c : Prop) [Decidable c] (s t : State) : V.get (if c then s else t) = if c then V.get s else V.get t := apply_ite V.get c s t

@[simp] theorem get_foldl {β : Type} {g : State → β → State} (h : ∀ t x, V.get (g t x) = V.get t) (l : List β) (s : State) :
    V.get (l.foldl g s) = V.get s := by
  induction l generalizing s with
  | nil => rfl
  | cons x l ih => rw [List.foldl_cons, ih, h]

/-- What two steps that may fail leave alone, one after the other leaves alone. -/
theorem get_bind {β : Type} {o : Option β} {g : β → Option State} {p : β → State} {s : State}
    (ho : ∀ x ∈ o, V.get (p x) = V.get s) (hg : ∀ x, ∀ t ∈ g x, V.get t = V.get (p x)) : ∀ t ∈ o.bind g, V.get t = V.get s := by
  intro t ht
  obtain ⟨x, hx, hgx⟩ := Option.mem_bind_iff.mp ht
  rw [hg x t hgx, ho x hx]

@[simp] theorem get_fail (s : State) (c : Sqe) (st : Status) : V.get (s.fail c st) = V.get s := V.complete ..

/-! ### The gate and the commands of the write path -/

@[simp] theorem get_openGate (s : State) : V.get s.openGate = V.get s := by
  unfold State.openGate
  split
  · rfl
  · extract_lets quiet s1 s2
    have h2 : V.get s2 = V.get s := by simp [s2, s1, V.raise, V.wr _ Reg.STR_DW_STATUS_GATE_CLOSED (by decide)]
    refine (V.get_foldl (fun t f => ?_) _ _).trans ((V.modWin ..).trans h2)
    split
    · simp [State.tallyMax]
    · rfl

@[simp] theorem get_occDrop (s : State) (n : Nat) : V.get (s.occDrop n) = V.get s := by simp [State.occDrop, State.reopenGate]
@[simp] theorem get_moved (s : State) (flash user gc : Nat) : V.get (s.moved flash user gc) = V.get s := V.modPath ..
@[simp] theorem get_modW (s : State) (i : Nat) (f : WCmd → WCmd) : V.get (s.modW i f) = V.get s := V.modPath ..
@[simp] theorem get_modTrim (s : State) (i : Nat) (f : TrimCmd → TrimCmd) : V.get (s.modTrim i f) = V.get s := V.modPath ..
@[simp] theorem get_showWt (s : State) : V.get s.showWt = V.get s := V.wr _ _ (by decide) _
@[simp] theorem get_showFineWait (s : State) : V.get s.showFineWait = V.get s := V.wr _ _ (by decide) _
@[simp] theorem get_askChunk (s : State) (c : WCmd) (rt : Bool) : V.get (s.askChunk c rt) = V.get s := by simp [State.askChunk]
@[simp] theorem get_ingressSub (s : State) (r n : Nat) : V.get (s.ingressSub r n) = V.get s := V.modWin ..
@[simp] theorem get_unclaimInv (s : State) (k n : Nat) : V.get (s.unclaimInv k n) = V.get s := V.setKeySlot ..

@[simp] theorem get_withdraw (s : State) (i : Nat) : V.get (s.withdraw i) = V.get s := by
  unfold State.withdraw
  extract_lets s1
  cases s1.wcmd i <;> simp [s1]

@[simp] theorem get_dropWrite (s : State) (c : WCmd) (reset : Bool) : V.get (s.dropWrite c reset) = V.get s := by
  simp only [State.dropWrite]
  split
  · split <;> simp
  · simp

@[simp] theorem get_addWrite (s : State) (w : WCmd) : V.get (s.addWrite w) = V.get s := by simp [State.addWrite, State.writeGo, V.raise]

/-! ### Stripes, bands and triples -/

@[simp] theorem get_modStripe (s : State) (i : Nat) (f : Stripe → Stripe) : V.get (s.modStripe i f) = V.get s := V.modFtl ..
@[simp] theorem get_modBand (s : State) (i : Nat) (f : Band → Band) : V.get (s.modBand i f) = V.get s := V.modFtl ..
@[simp] theorem get_setBlk (s : State) (m : Nat × Nat × Nat) (b : Blk) : V.get (s.setBlk m b) = V.get s := V.modFtl ..

@[simp] theorem get_closeOne (s : State) (i flags : Nat) : V.get (s.closeOne i flags) = V.get s := by
  unfold State.closeOne
  split
  · rfl
  · split
    · rfl
    · simp [V.wr _ Reg.STR_STATUS_OPEN_BANDS (by decide)]

@[simp] theorem get_closeStripe (s : State) (i flags : Nat) : V.get (s.closeStripe i flags) = V.get s := by simp [State.closeStripe]

@[simp] theorem get_closeOpen (s : State) (b : Nat) : V.get (s.closeOpen b) = V.get s := by
  unfold State.closeOpen
  split <;> simp

@[simp] theorem get_closeIfFull (s : State) (i : Nat) : V.get (s.closeIfFull i) = V.get s := by
  unfold State.closeIfFull
  split
  · rfl
  · split <;> simp

@[simp] theorem get_stopOne (s : State) (i flags : Nat) : V.get (s.stopOne i flags) = V.get s := by
  unfold State.stopOne
  extract_lets s1
  split <;> simp [s1]

@[simp] theorem get_stopBand (s : State) (i flags : Nat) : V.get (s.stopBand i flags) = V.get s := by
  unfold State.stopBand
  split <;> simp

theorem get_beginStripe (s : State) (b : Band) : ∀ x ∈ s.beginStripe b, V.get x.1 = V.get s := by
  unfold State.beginStripe
  split
  · simp
  · split <;> simp

theorem get_openOn3 (s : State) (ty kind : Nat) (links : List (Nat × Nat × Nat)) : ∀ t ∈ s.openOn3 ty kind links, V.get t = V.get s := by
  unfold State.openOn3
  split
  · simp
  · simp [State.addBand, V.wr _ Reg.STR_STATUS_OPEN_BANDS (by decide)]

theorem get_openTriple (s : State) : ∀ t ∈ s.openTriple, V.get t = V.get s := by
  unfold State.openTriple
  split
  · simp
  · split
    · simp
    · split
      · simp
      · exact V.get_bind (V.get_bind (V.get_openOn3 _ _ _ _) fun u => V.get_openOn3 u _ _ _) fun u => V.get_openOn3 u _ _ _

theorem get_beginTriple (s : State) (b : Band) : ∀ x ∈ s.beginTriple b, V.get x.1 = V.get s := by
  unfold State.beginTriple
  split
  · simp
  next s1 st h1 =>
    split
    · split
      next s2 st2 h2 =>
        split
        next s3 st3 h3 => simp [V.get_beginStripe _ _ _ h3, V.get_beginStripe _ _ _ h2, V.get_beginStripe _ _ _ h1]
        next => simp
      next => simp
    · simp

theorem get_freshTriple (s : State) (n : Nat) : ∀ x ∈ s.freshTriple n, V.get x.1 = V.get s := by
  unfold State.freshTriple
  split
  next u hu =>
    intro x hx
    obtain ⟨y, hy, hx⟩ := Option.mem_bind_iff.mp hx
    obtain ⟨b, -, hy⟩ := Option.mem_bind_iff.mp hy
    have hxy : x = y := by
      split at hx
      · split at hx <;> simp_all
      · simp at hx
    rw [hxy, V.get_beginTriple u b y hy, V.get_openTriple s u hu]
  next => simp

theorem get_tripleRoom (s : State) (n : Nat) : ∀ x ∈ s.tripleRoom n, V.get x.1 = V.get s := by
  unfold State.tripleRoom
  split
  · exact V.get_freshTriple s n
  · split
    · exact V.get_beginTriple s _
    · split
      · split
        · simpa using V.get_beginTriple (s.closeOpen _) _
        · simpa using V.get_freshTriple ((s.closeOpen _).stopBand _ 0) n
      · simpa using V.get_freshTriple (s.closeOpen _) n

theorem get_claim3 (s : State) (n : Nat) : ∀ x ∈ s.claim3 n, V.get x.1 = V.get s := by
  unfold State.claim3
  split
  · simp
  next s1 st h1 =>
    split
    · simp [V.get_tripleRoom s n _ h1]
    · simp

theorem get_readyExtent (s : State) : ∀ t ∈ s.readyExtent, V.get t = V.get s := by
  unfold State.readyExtent
  split
  · simp
  · extract_lets named
    have hn : V.get named = V.get s := V.modFtl ..
    split
    · simp [hn]
    · intro t ht
      obtain ⟨x, hx, rfl⟩ := Option.mem_map.mp ht
      simp [V.get_claim3 s 512 x hx]

/-! ### Metadata sectors and the journal -/

@[simp] theorem get_nameExtent (s : State) : V.get s.nameExtent.1 = V.get s := by
  unfold State.nameExtent
  split
  · rfl
  next s1 h1 =>
    have hs := V.get_readyExtent s s1 h1
    split
    · exact hs
    · split
      next s2 a h2 => simp [V.get_claim3 s1 512 _ h2, hs]
      next => exact hs

@[simp] theorem get_putAt (s : State) (i off : Nat) (p : Placed) : V.get (s.putAt i off p) = V.get s := V.get_modStripe ..
@[simp] theorem get_putCopies (s : State) (i off : Nat) (payload : List Byte) : V.get (s.putCopies i off payload) = V.get s := by
  simp [State.putCopies]

@[simp] theorem get_fillUnit (s : State) (i off : Nat) : V.get (s.fillUnit i off) = V.get s := by
  unfold State.fillUnit
  split <;> simp [State.putFill3]

@[simp] theorem get_placeMeta (s : State) (m : MetaSec) : V.get (s.placeMeta m).1 = V.get s := by
  unfold State.placeMeta
  split
  · split
    · rfl
    next s1 h1 =>
      split
      · rfl
      · simp [V.get_readyExtent s s1 h1]
  all_goals
    split
    · rfl
    next s1 a h1 => simp [V.get_claim3 s 1 _ h1]

@[simp] theorem get_putMeta (s : State) (of : MetaOf) (order : Nat) (payload : List Byte) : V.get (s.putMeta of order payload) = V.get s := by
  simp [State.putMeta]

@[simp] theorem get_jput (s : State) (e : Entry) : V.get (s.jput e) = V.get s := by simp [State.jput, State.writePage]

@[simp] theorem get_pend (s : State) (e : Entry) : V.get (s.pend e) = V.get s := by
  unfold State.pend
  extract_lets s1
  split
  · split <;> simp [s1]
  · simp [s1]

theorem get_trim (s : State) (nsid lsa count : Nat) : ∀ t ∈ s.trim nsid lsa count, V.get t = V.get s := by
  unfold State.trim State.takeSeq
  split
  · simp
  next q s1 h =>
    obtain ⟨-, h1⟩ := Option.ite_none_right_eq_some.mp h
    obtain ⟨-, rfl⟩ := Prod.mk.inj (Option.some.inj h1)
    simp [State.raiseCeil]

/-! ### Writes and deallocations of the take service -/

@[simp] theorem get_takeWrite (s : State) (purpose num idx : Nat) (lsas : List Nat) (secs : List (List Byte)) (wt : Option Bool) (fua : Bool) :
    V.get (s.takeWrite purpose num idx lsas secs wt fua) = V.get s := by
  unfold State.takeWrite
  split <;> simp

/-- The ranges of a deallocation, one after the other, while none fails. -/
theorem get_trims (nsid : Nat) (l : List (Nat × Nat)) {s : State} {o : Option State} (ho : ∀ t ∈ o, V.get t = V.get s) :
    ∀ t ∈ l.foldl (fun (o : Option State) x => match o with | some u => u.trim nsid x.1 x.2 | none => none) o, V.get t = V.get s := by
  induction l generalizing o with
  | nil => exact ho
  | cons x l ih =>
    refine ih fun t ht => ?_
    cases o with
    | none => simp at ht
    | some u => rw [V.get_trim u _ _ _ t ht, ho u rfl]

theorem get_trimGo {t : TrimCmd} (ht : t.kind = 3) (s : State) : V.get (s.trimGo t) = V.get s := by
  have hnow : V.get (s.trimNow t) = V.get s := by
    simp only [State.trimNow, ht]
    split
    · rfl
    next s1 h => simp [V.get_trims t.nsid t.ranges (s := s) (o := some s) (by simp) s1 h]
  simp [State.trimGo, hnow, V.raise]

@[simp] theorem get_takeTrim (s : State) (lsas : List Nat) : V.get (s.takeTrim lsas) = V.get s := by
  simp [State.takeTrim, State.queueTrim, V.get_trimGo]

/-! ### Takes, their clips and their frames -/

@[simp] theorem get_modTake (s : State) (num : Nat) (f : Take → Take) : V.get (s.modTake num f) = V.get s := V.modTakes ..
@[simp] theorem get_modClip (s : State) (num i : Nat) (f : Clip → Clip) : V.get (s.modClip num i f) = V.get s := V.get_modTake ..
@[simp] theorem get_dirTouch (s : State) : V.get s.dirTouch = V.get s := V.modTakes ..
@[simp] theorem get_dirChange (s : State) : V.get s.dirChange = V.get s := by simp [State.dirChange]
@[simp] theorem get_dropFrame (s : State) (f : InFlight) : V.get (s.dropFrame f) = V.get s := V.modTakes ..

@[simp] theorem get_pullRefused (s : State) (f : InFlight) (st : Status) : V.get (s.pullRefused f st) = V.get s := by
  unfold State.pullRefused
  split <;> simp [State.dmaOutcome]

@[simp] theorem get_endSegments (s : State) (f : InFlight) (st : Status) : V.get (s.endSegments f st) = V.get s := by
  unfold State.endSegments
  extract_lets s1
  have h1 : V.get s1 = V.get s := by
    refine V.get_foldl (fun u id => ?_) _ _
    split <;> simp
  split <;> simp [h1]

@[simp] theorem get_abandon (s : State) (f : InFlight) (st : Status) : V.get (s.abandon f st) = V.get s := by
  unfold State.abandon
  extract_lets s1
  have h1 : V.get s1 = V.get s := by simp [s1]
  split
  · exact h1
  · extract_lets s2
    have h2 : V.get s2 = V.get s := by simp [s2, h1]
    split
    · exact h2
    · split
      · exact h2
      · split <;> simp [h2]

@[simp] theorem get_unrecord (s : State) (num i t : Nat) : V.get (s.unrecord num i t) = V.get s := by
  have hone (u : State) (r : ClipRec) : V.get (u.unrecordOne num i r) = V.get u := by
    unfold State.unrecordOne
    split
    · rfl
    · split <;> simp
  unfold State.unrecord
  split
  · rfl
  · exact V.get_foldl (fun u r => hone u r) _ _

@[simp] theorem get_discardRecs (s : State) (num i : Nat) (rs : List ClipRec) : V.get (s.discardRecs num i rs) = V.get s := by
  unfold State.discardRecs
  split
  · rfl
  · split
    · rfl
    · extract_lets n s1 s2 s3 s4
      have h1 : V.get s1 = V.get s := by
        refine V.get_foldl (fun u r => ?_) _ _
        split <;> simp
      simp [s4, s3, s2, h1]

theorem get_ringGrow (s : State) (num i n : Nat) : ∀ x ∈ s.ringGrow num i n, V.get x.1 = V.get s := by
  unfold State.ringGrow
  split
  · simp
  · split <;> simp

theorem get_clipGrow (s : State) (num i n : Nat) (reserve : Bool) : ∀ x ∈ s.clipGrow num i n reserve, V.get x.1 = V.get s := by
  unfold State.clipGrow
  split
  · simp
  · split
    · simp
    · dsimp only
      split
      · simp
      · split
        · simp
        · split <;> simp

theorem get_addRec (s : State) (num i : Nat) (r : ClipRec) : ∀ x ∈ s.addRec num i r, V.get x.1 = V.get s := by
  unfold State.addRec
  split
  · simp
  · extract_lets flags next
    split
    · split
      · simp
      next s1 off h =>
        intro x hx
        obtain ⟨c, -, rfl⟩ := Option.mem_map.mp hx
        simp [V.get_ringGrow s num i _ _ h]
    · split
      · simp
      next s1 off h =>
        intro x hx
        obtain ⟨c, -, rfl⟩ := Option.mem_map.mp hx
        simp [V.get_clipGrow s num i _ _ _ h]

end Beside

end Sys2Proof.Machine

end

section
/-!
PROOFS. Scope: the Steeple block's operations one by one (09): registers and fields, the timebase, states, members, messages.
-/
namespace Sys2Proof.Machine

/-! ### Registers and fields -/

/-- A field reads as a value it has room for. -/
theorem rd_wr_fits {s : State} {f : Field} {v : Nat} (h : f.lsb + f.width ≤ 32) (hv : v < 2 ^ f.width) : (s.wr f v).rd f = v := by
  rw [rd_wr h, Nat.mod_eq_of_lt hv]

theorem rd_bumpBy {s : State} {f : Field} {n : Nat} (h : f.lsb + f.width ≤ 32) : (s.bumpBy f n).rd f = min (2 ^ f.width - 1) (s.rd f + n) :=
  rd_wr_fits h (lt_of_le_of_lt (min_le_left _ _) (Nat.sub_lt (by positivity) one_pos))

theorem rd_bump {s : State} {f : Field} (h : f.lsb + f.width ≤ 32) : (s.bump f).rd f = min (2 ^ f.width - 1) (s.rd f + 1) := rd_bumpBy h

theorem rd_wr64 {s : State} {lo hi v : Nat} {f : Field} (hlo : f.off ≠ lo) (hhi : f.off ≠ hi) : (s.wr64 lo hi v).rd f = s.rd f := by
  rw [State.wr64, rd_setReg_other hhi, rd_setReg_other hlo]

theorem rd64_wr64 {s : State} {lo hi v : Nat} (h : lo ≠ hi) : (s.wr64 lo hi v).rd64 lo hi = v % 2 ^ 64 := by
  rw [State.rd64, State.wr64, reg_setReg_same, reg_setReg_other h, reg_setReg_same, BitVec.toNat_ofNat, BitVec.toNat_ofNat]
  omega

theorem rd64_wr {s : State} {lo hi v : Nat} {f : Field} (hlo : lo ≠ f.off) (hhi : hi ≠ f.off) : (s.wr f v).rd64 lo hi = s.rd64 lo hi := by
  rw [State.rd64, reg_wr_other hlo, reg_wr_other hhi, State.rd64]

theorem rd64_raise {s : State} {lo hi src : Nat} (hlo : lo ≠ statusOff src) (hhi : hi ≠ statusOff src) : (s.raise src).rd64 lo hi = s.rd64 lo hi := by
  rw [State.rd64, raise_reg hlo, raise_reg hhi, State.rd64]

/-- No status register of a source lies below 0x0201_0000. -/
theorem statusOff_ne {src o : Nat} (h : o < 0x02010000) : statusOff src ≠ o := by unfold statusOff; omega

theorem evtStatus_wr {s : State} {f : Field} {v src : Nat} (h : statusOff src ≠ f.off) : (s.wr f v).evtStatus src = s.evtStatus src := by
  rw [State.evtStatus, reg_wr_other h, State.evtStatus]

theorem evtStatus_wr64 {s : State} {lo hi v src : Nat} (hlo : statusOff src ≠ lo) (hhi : statusOff src ≠ hi) :
    (s.wr64 lo hi v).evtStatus src = s.evtStatus src := by
  rw [State.evtStatus, State.wr64, reg_setReg_other hhi, reg_setReg_other hlo, State.evtStatus]

@[simp] theorem raise_stp (s : State) (src : Nat) : (s.raise src).stp = s.stp := by
  obtain ⟨_, _, _, h, -⟩ := raise_frame s src
  rw [h]

@[simp] theorem raise_now (s : State) (src : Nat) : (s.raise src).now = s.now := by
  obtain ⟨_, _, _, h, -⟩ := raise_frame s src
  rw [h]

theorem raiseIf_rd {s : State} {c : Bool} {src : Nat} {f : Field} (h : f.off ≠ statusOff src) : (s.raiseIf c src).rd f = s.rd f := by
  cases c
  · rfl
  · exact raise_rd h

@[simp] theorem raiseIf_stp (s : State) (c : Bool) (src : Nat) : (s.raiseIf c src).stp = s.stp := by
  cases c
  · rfl
  · exact raise_stp s src

@[simp] theorem raiseIf_now (s : State) (c : Bool) (src : Nat) : (s.raiseIf c src).now = s.now := by
  cases c
  · rfl
  · exact raise_now s src

/-- n bytes are a number below 256^n. -/
theorem leAt_lt (b : List Byte) (off n : Nat) : leAt b off n < 256 ^ n := by
  induction n generalizing off with
  | zero => exact one_pos
  | succ n ih =>
    have htail := ih (off + 1)
    have hbyte : byteAt b off < 256 := (b.getD off 0).isLt
    rw [leAt, Nat.pow_succ]
    omega

theorem leAt_eight_lt (b : List Byte) (off : Nat) : leAt b off 8 < 2 ^ 64 := leAt_lt b off 8

/-! ### The timebase (R331, R332) -/

theorem steepleFrac_congr {s t : State} (hstp : t.stp = s.stp) (hnow : t.now = s.now) : t.steepleFrac = s.steepleFrac := by
  rw [State.steepleFrac, hstp, hnow, State.steepleFrac]

@[simp] theorem steepleFrac_raise (s : State) (src : Nat) : (s.raise src).steepleFrac = s.steepleFrac :=
  steepleFrac_congr (raise_stp s src) (raise_now s src)

/-- A timebase fixed now reads as its base, at whatever rate it goes on. -/
theorem steepleFrac_fixed {s : State} (h : s.stp.baseAt = s.now) : s.steepleFrac = s.stp.base := by simp [State.steepleFrac, h]

@[simp] theorem stepTime_steepleFrac (s : State) (d : Int) : (s.stepTime d).steepleFrac = s.steepleFrac + d :=
  steepleFrac_fixed (s := s.stepTime d) rfl

/-- A timebase fixed now keeps its time when its rate changes. -/
theorem steepleFrac_rebase_modStp (s : State) {f : Stp → Stp} (hbase : (f s.rebase.stp).base = s.steepleFrac) (hat : (f s.rebase.stp).baseAt = s.now) :
    (s.rebase.modStp f).steepleFrac = s.steepleFrac := (steepleFrac_fixed (s := s.rebase.modStp f) hat).trans hbase

@[simp] theorem slewBy_steepleFrac (s : State) (d : Int) : (s.slewBy d).steepleFrac = s.steepleFrac := steepleFrac_rebase_modStp s rfl rfl

/-! ### The place in the chain (R337, R338) -/

theorem headUid_setHeadUid {s : State} {u : Nat} (h : u < 2 ^ 64) : (s.setHeadUid u).headUid = u := by
  rw [State.headUid, State.setHeadUid, rd64_wr64 (by decide), Nat.mod_eq_of_lt h]

theorem headUid_wr {s : State} {f : Field} {v : Nat} (hlo : Reg.STP_HEAD_UID_LO ≠ f.off) (hhi : Reg.STP_HEAD_UID_HI ≠ f.off) :
    (s.wr f v).headUid = s.headUid := rd64_wr hlo hhi

theorem rd_setHeadUid {s : State} {u : Nat} {f : Field} (hlo : f.off ≠ Reg.STP_HEAD_UID_LO) (hhi : f.off ≠ Reg.STP_HEAD_UID_HI) :
    (s.setHeadUid u).rd f = s.rd f := rd_wr64 hlo hhi

theorem evtStatus_setHeadUid {s : State} {u src : Nat} : (s.setHeadUid u).evtStatus src = s.evtStatus src :=
  evtStatus_wr64 (statusOff_ne (by decide)) (statusOff_ne (by decide))

@[simp] theorem setHeadUid_stp (s : State) (u : Nat) : (s.setHeadUid u).stp = s.stp := rfl

/-- The UNIQUE_ID is eight bytes. -/
theorem uid_lt (s : State) : s.uid < 2 ^ 64 := leAt_eight_lt s.uniqueId 0

theorem uid_of_boot {s t : State} (h : t.boot = s.boot) : t.uid = s.uid := by
  unfold State.uid State.uniqueId State.otpBytes State.otpWord
  rw [h]

theorem topOfChain_headUid (s : State) : s.topOfChain.headUid = s.uid := by
  rw [State.topOfChain, headUid_wr (by decide) (by decide), headUid_wr (by decide) (by decide), headUid_setHeadUid (uid_lt s)]

theorem topOfChain_hop (s : State) : s.topOfChain.hop = 0 := by
  rw [State.topOfChain, State.hop, rd_wr_apart (by decide), rd_wr_apart (by decide), rd_setHeadUid (by decide) (by decide),
    rd_wr_fits (by decide) (by decide)]

/-- The fields of STP_STATUS below CHAIN_END, and other registers, keep what they show. -/
theorem topOfChain_rd {s : State} {f : Field} (hlo : f.off ≠ Reg.STP_HEAD_UID_LO) (hhi : f.off ≠ Reg.STP_HEAD_UID_HI)
    (h : f.off ≠ Reg.STP_STATUS ∨ f.lsb + f.width ≤ 15) : s.topOfChain.rd f = s.rd f := by
  have hwr {t : State} {g : Field} {v : Nat} (hg : g.off = Reg.STP_STATUS) (hlsb : 15 ≤ g.lsb) : (t.wr g v).rd f = t.rd f :=
    h.elim (fun hoff => rd_wr_off (hg ▸ hoff)) fun hlow => rd_wr_apart (.inl (hlow.trans hlsb))
  rw [State.topOfChain, hwr rfl (by decide), hwr rfl (by decide), rd_setHeadUid hlo hhi, hwr rfl (by decide)]

@[simp] theorem topOfChain_stp (s : State) : s.topOfChain.stp = s.stp := rfl
@[simp] theorem topOfChain_now (s : State) : s.topOfChain.now = s.now := rfl

theorem evtStatus_topOfChain {s : State} {src : Nat} : s.topOfChain.evtStatus src = s.evtStatus src := by
  have hoff : statusOff src ≠ Reg.STP_STATUS := statusOff_ne (by decide)
  rw [State.topOfChain, evtStatus_wr hoff, evtStatus_wr hoff, evtStatus_setHeadUid, evtStatus_wr hoff]

/-! ### Members (R350) -/

/-- The members heard in the last 300 ms. -/
def State.liveMembers (s : State) : List (Nat × Nat) := s.stp.members.filter fun m => s.now < m.2 + 300000000

/-- STP_MEMBERS.COUNT as the members heard give it. -/
def State.memberCount (s : State) : Nat := if s.stpState = 2 ∨ s.stpState = 4 then min 4095 s.liveMembers.length else 0

theorem countMembers_eq (s : State) : s.countMembers =
    ((s.modStp fun x => { x with members := s.liveMembers }).wr Reg.STP_MEMBERS_COUNT s.memberCount).raiseIf
      (s.rd Reg.STP_MEMBERS_COUNT != s.memberCount) 1767 := rfl

theorem memberCount_lt (s : State) : s.memberCount < 4096 := by
  unfold State.memberCount
  split <;> omega

@[simp] theorem countMembers_stp (s : State) : s.countMembers.stp = { s.stp with members := s.liveMembers } := by rw [countMembers_eq, raiseIf_stp]; rfl
@[simp] theorem countMembers_now (s : State) : s.countMembers.now = s.now := by rw [countMembers_eq, raiseIf_now]; rfl

theorem countMembers_count (s : State) : s.countMembers.rd Reg.STP_MEMBERS_COUNT = s.memberCount := by
  rw [countMembers_eq, raiseIf_rd (by decide), rd_wr_fits (by decide) (memberCount_lt s)]

theorem countMembers_raises {s : State} (h : s.memberCount ≠ s.rd Reg.STP_MEMBERS_COUNT) : s.countMembers.evtStatus 1767 = true := by
  rw [countMembers_eq, State.raiseIf, if_pos (bne_iff_ne.mpr h.symm)]
  exact raise_status _ _

theorem countMembers_uid (s : State) : s.countMembers.uid = s.uid := by
  rw [countMembers_eq, State.raiseIf]
  split
  · obtain ⟨-, -, hboot, -⟩ := raise_parts ((s.modStp fun x => { x with members := s.liveMembers }).wr Reg.STP_MEMBERS_COUNT s.memberCount) 1767
    exact uid_of_boot hboot
  · rfl

theorem countMembers_rd {s : State} {f : Field} (h : f.off ≠ Reg.STP_MEMBERS) (hs : f.off ≠ statusOff 1767) : s.countMembers.rd f = s.rd f := by
  rw [countMembers_eq, raiseIf_rd hs, rd_wr_off h, State.modStp_rd]

theorem countMembers_status {s : State} {src : Nat} (h : s.evtStatus src = true) : s.countMembers.evtStatus src = true := by
  have hwr : ((s.modStp fun x => { x with members := s.liveMembers }).wr Reg.STP_MEMBERS_COUNT s.memberCount).evtStatus src = true :=
    (evtStatus_wr (statusOff_ne (by decide))).trans h
  rw [countMembers_eq, State.raiseIf]
  split
  · rw [evtStatus_raise, hwr, Bool.true_or]
  · exact hwr

/-! ### States (R335) -/

@[simp] theorem setStp_stp (s : State) (st : Nat) : (s.setStp st).stp = { s.stp with members := s.liveMembers } := countMembers_stp _
@[simp] theorem setStp_now (s : State) (st : Nat) : (s.setStp st).now = s.now := countMembers_now _

theorem setStp_uid (s : State) (st : Nat) : (s.setStp st).uid = s.uid := countMembers_uid _

theorem setStp_state {s : State} {st : Nat} (h : st < 8) : (s.setStp st).stpState = st := by
  rw [State.setStp, State.stpState, countMembers_rd (by decide) (by decide), rd_wr_fits (by decide) h]

theorem setStp_rd {s : State} {st : Nat} {f : Field} (h : f.off ≠ Reg.STP_STATUS ∨ 3 ≤ f.lsb) (hm : f.off ≠ Reg.STP_MEMBERS)
    (hs : f.off ≠ statusOff 1767) : (s.setStp st).rd f = s.rd f := by
  rw [State.setStp, countMembers_rd hm hs]
  exact h.elim (fun hoff => rd_wr_off hoff) fun hlsb => rd_wr_apart (.inr hlsb)

theorem setStp_status {s : State} {st src : Nat} (h : s.evtStatus src = true) : (s.setStp st).evtStatus src = true :=
  countMembers_status ((evtStatus_wr (statusOff_ne (by decide))).trans h)

/-! ### Messages (R328 to R330) -/

/-- A message goes out of a port: the port's count rises, and nothing else of the state changes. -/
theorem send_spec (s : State) (port ty flags hop : Nat) (pay : List Byte) :
    (s.send port ty flags hop pay).stp.sent = s.stp.sent ++ [(port, stpBytes ty (mapGet (fun _ => 0) s.stp.txSeq port) hop flags pay)] ∧
    mapGet (fun _ => 0) (s.send port ty flags hop pay).stp.txSeq port = (mapGet (fun _ => 0) s.stp.txSeq port + 1) % 65536 :=
  ⟨rfl, (mapGet_mapSet ..).trans (if_pos rfl)⟩

end Sys2Proof.Machine

end

section
/-!
PROOFS. Scope: the messages of the Steeple chain (09 R328 to R333, R340, R341, R343, R350).
-/
namespace Sys2Proof.Machine

/-! ### Which messages are taken (R328, R336) -/

/-- A port in use has symbol lock: UP or not, DN. -/
def State.hears (s : State) : Bool → Prop
  | true => s.mainUp = true ∧ s.stpUp = true ∧ s.rd Reg.STP_STATUS_UP_LOCK = 1
  | false => s.mainUp = true ∧ s.stpPorts = true ∧ s.rd Reg.STP_STATUS_DN_LOCK = 1

theorem stpPorts_of_stpUp {s : State} (h : s.stpUp = true) : s.stpPorts = true := (Bool.and_eq_true_iff.mp h).1

/-- A field of one bit that is not 1 is 0. -/
theorem rd_eq_one {s : State} {f : Field} (hw : f.width = 1) (h : s.rd f ≠ 0) : s.rd f = 1 := by
  have hlt := bitsOf_lt (s.reg f.off) f.lsb f.width
  rw [hw] at hlt
  rw [State.rd, hw] at h ⊢
  omega

section
variable {s : State} {ty : Nat} {up : Bool} {m : List Byte} {f : StpIn → State} {x : StpIn}

theorem onMsg_unheard (h : ¬s.hears up) : s.onMsg ty up m f = s := by
  refine if_pos ?_
  by_contra hno
  refine h ?_
  cases up
  · simp only [Bool.false_and, Bool.or_false, Bool.not_false, Bool.true_and, Bool.or_eq_true, Bool.not_eq_true', decide_eq_true_eq, not_or,
      Bool.not_eq_false] at hno
    exact ⟨hno.1.1, hno.1.2, rd_eq_one rfl hno.2⟩
  · simp only [Bool.true_and, Bool.not_true, Bool.false_and, Bool.or_false, Bool.or_eq_true, Bool.not_eq_true', decide_eq_true_eq, not_or,
      Bool.not_eq_false] at hno
    exact ⟨hno.1.1, hno.2.1, rd_eq_one rfl hno.2.2⟩

theorem onMsg_heard (h : s.hears up) : s.onMsg ty up m f =
    (parseMsg m).elim (s.bump Reg.STP_ERR_CRC_ERR) fun x => if x.ty = ty then f x else s := by
  unfold State.onMsg
  rw [if_neg]
  · cases parseMsg m <;> rfl
  · cases up
    · obtain ⟨hmain, hports, hlock⟩ := h
      simp [hmain, hports, hlock]
    · obtain ⟨hmain, hup, hlock⟩ := h
      simp [hmain, hup, hlock, stpPorts_of_stpUp hup]

theorem onMsg_garbled (h : s.hears up) (hm : parseMsg m = none) : s.onMsg ty up m f = s.bump Reg.STP_ERR_CRC_ERR := by
  rw [onMsg_heard h, hm, Option.elim_none]

theorem onMsg_taken (h : s.hears up) (hm : parseMsg m = some x) (hty : x.ty = ty) : s.onMsg ty up m f = f x := by
  rw [onMsg_heard h, hm, Option.elim_some, if_pos hty]

theorem onMsg_otherType (hm : parseMsg m = some x) (hty : x.ty ≠ ty) : s.onMsg ty up m f = s := by
  by_cases h : s.hears up
  · rw [onMsg_heard h, hm, Option.elim_some, if_neg hty]
  · exact onMsg_unheard h

end

/-- The messages of the UP port by TYPE (Table 9.2); the code generator has no room for the tags of these instructions. -/
noncomputable def upMessages (m : List Byte) : List (Nat × Instr) :=
  [(1, .stpTime m), (3, .stpDelayResp m), (4, .stpTrigger m), (5, .stpTakeOpen m), (6, .stpTakeClose m), (7, .stpCal m)]

/-- The messages of the DN port by TYPE. -/
noncomputable def dnMessages (m : List Byte) (turn : Fin 2001) : List (Nat × Instr) := [(2, .stpDelayReq m turn), (8, .stpStatus m)]

theorem exec_upMessage (m : List Byte) (s : State) : ∀ p ∈ upMessages m, ∃ f, exec p.2 s = .next (s.onMsg p.1 true m f) := by
  simp only [upMessages, List.forall_mem_cons]
  exact ⟨⟨_, rfl⟩, ⟨_, rfl⟩, ⟨_, rfl⟩, ⟨_, rfl⟩, ⟨_, rfl⟩, ⟨_, rfl⟩, fun _ h => absurd h List.not_mem_nil⟩

theorem exec_dnMessage (m : List Byte) (turn : Fin 2001) (s : State) :
    ∀ p ∈ dnMessages m turn, ∃ f, exec p.2 s = .next (s.onMsg p.1 false m f) := by
  simp only [dnMessages, List.forall_mem_cons]
  exact ⟨⟨_, rfl⟩, ⟨_, rfl⟩, fun _ h => absurd h List.not_mem_nil⟩

/-- What holds of every message on UP and on DN holds of all, in the order of the statement. -/
theorem forall_messages {m : List Byte} {turn : Fin 2001} {P : Nat × Instr → Prop} (hup : ∀ p ∈ upMessages m, P p) (hdn : ∀ p ∈ dnMessages m turn, P p) :
    ∀ p ∈ [(1, .stpTime m), (3, .stpDelayResp m)] ++ [(2, .stpDelayReq m turn), (4, .stpTrigger m), (5, .stpTakeOpen m), (6, .stpTakeClose m),
      (7, .stpCal m), (8, .stpStatus m)], P p := by
  intro p hp
  have hport : p ∈ upMessages m ∨ p ∈ dnMessages m turn := by
    simp only [upMessages, dnMessages, List.cons_append, List.nil_append, List.mem_cons, List.not_mem_nil, or_false] at hp ⊢
    tauto
  exact hport.elim (hup p) (hdn p)

/-! ### TIME (R332, R333) -/

/-- The offset a TIME message shows. -/
def State.offsetTo (s : State) (x : StpIn) : Int := (timeAt x.pay 0 : Int) + s.hopDelay - s.steepleFrac

/-- STP_OFFSET shows the offset of a TIME message. -/
def State.offsetShown (s : State) (x : StpIn) : State :=
  s.wr Reg.STP_OFFSET_PS (toCode 32 (clampI (-2147483648) 2147483647 (toPs (s.offsetTo x))))

/-- A step of the loop, at the place in the chain a message gives. -/
def State.tracked (s : State) (d : Int) (uid hop : Nat) : State := ((s.stepTime d).below uid hop).modStp fun y => { y with unlockRun := 0 }

/-- A LOCKED device near its upstream takes a step of its loop toward it. -/
theorem follow_near {s : State} {x : StpIn} (hst : s.stpState = 3) (hnear : (s.offsetTo x).natAbs ≤ 262144) (hflag : x.flags.testBit 0 = false) :
    s.follow x = (s.offsetShown x).tracked (loopStep (s.offsetTo x)) (leAt x.pay 16 8) (min 4095 (x.hop + 1)) := by
  unfold State.follow
  extract_lets tx offset uid hop s1 st near far track s0 s2 s2' s3
  have hst3 : st = stpLocked := hst
  have hfar : ¬far := Nat.not_lt.mpr hnear
  have hs3 : s3 = s2'.modStp fun y => { y with unlockRun := 0 } := by simp only [s3, if_neg hfar]
  rw [if_neg (by simp [hst3, stpLocked, stpOff, stpHead]), if_neg (by simp [hst3, stpLocked, stpAcquire, stpHead, stpHoldoverHead]),
    if_neg (by simp [hst3, stpLocked, stpAcquire, stpHead, stpHoldoverHead, stpSlewing]), if_pos hst3, if_neg (by simp [hflag]),
    if_neg (by rw [hs3]; exact Nat.not_succ_le_zero 9), hs3]
  rfl

theorem stpState_modStp (s : State) (f : Stp → Stp) : (s.modStp f).stpState = s.stpState := rfl
theorem hop_modStp (s : State) (f : Stp → Stp) : (s.modStp f).hop = s.hop := rfl
theorem headUid_modStp (s : State) (f : Stp → Stp) : (s.modStp f).headUid = s.headUid := rfl

theorem tracked_stpState (s : State) (d : Int) (uid hop : Nat) : (s.tracked d uid hop).stpState = s.stpState := by
  rw [State.tracked, stpState_modStp, State.below, State.stpState, rd_wr_apart (by decide), rd_setHeadUid (by decide) (by decide),
    rd_wr_apart (by decide)]
  rfl

theorem tracked_steepleFrac (s : State) (d : Int) (uid hop : Nat) : (s.tracked d uid hop).steepleFrac = s.steepleFrac + d :=
  steepleFrac_fixed (s := s.tracked d uid hop) rfl

theorem tracked_headUid {s : State} {d : Int} {uid hop : Nat} (h : uid < 2 ^ 64) : (s.tracked d uid hop).headUid = uid := by
  rw [State.tracked, headUid_modStp, State.below, headUid_wr (by decide) (by decide), headUid_setHeadUid h]

theorem tracked_hop {s : State} {d : Int} {uid hop : Nat} (h : hop < 4096) : (s.tracked d uid hop).hop = hop := by
  rw [State.tracked, hop_modStp, State.below, State.hop, rd_wr_apart (by decide), rd_setHeadUid (by decide) (by decide), rd_wr_fits (by decide) h]

theorem tracked_rd {s : State} {d : Int} {uid hop : Nat} {f : Field} (hlo : f.off ≠ Reg.STP_HEAD_UID_LO) (hhi : f.off ≠ Reg.STP_HEAD_UID_HI)
    (h : f.off ≠ Reg.STP_STATUS) : (s.tracked d uid hop).rd f = s.rd f := by
  rw [State.tracked, State.modStp_rd, State.below, rd_wr_off h, rd_setHeadUid hlo hhi, rd_wr_off h]
  rfl

theorem tracked_stp (s : State) (d : Int) (uid hop : Nat) :
    (s.tracked d uid hop).stp.unlockRun = 0 ∧ (s.tracked d uid hop).stp.timeAt = s.stp.timeAt := ⟨rfl, rfl⟩

theorem toCode_lt (w : Nat) (i : Int) : toCode w i < 2 ^ w := by
  have hpos : (0 : Int) < 2 ^ w := by positivity
  have hlt := Int.emod_lt_of_pos i hpos
  have hnn := Int.emod_nonneg i hpos.ne'
  unfold toCode
  zify
  omega

/-- What a LOCKED device shows after a TIME message near its own time. -/
theorem follow_near_spec {s : State} {x : StpIn} (hst : s.stpState = 3) (hnear : (s.offsetTo x).natAbs ≤ 262144) (hflag : x.flags.testBit 0 = false) :
    (s.follow x).stpState = 3 ∧ (s.follow x).steepleFrac = s.steepleFrac + s.offsetTo x * 62832 / 10000000 ∧
    (s.follow x).headUid = leAt x.pay 16 8 ∧ (s.follow x).hop = min 4095 (x.hop + 1) ∧
    (s.follow x).rd Reg.STP_OFFSET_PS = toCode 32 (max (-2147483648) (min 2147483647 (toPs (s.offsetTo x)))) ∧
    (s.follow x).stp.unlockRun = 0 ∧ (s.follow x).stp.timeAt = s.stp.timeAt := by
  obtain ⟨hrun, htime⟩ := tracked_stp (s.offsetShown x) (loopStep (s.offsetTo x)) (leAt x.pay 16 8) (min 4095 (x.hop + 1))
  rw [follow_near hst hnear hflag]
  refine ⟨?_, tracked_steepleFrac _ _ _ _, tracked_headUid (leAt_lt x.pay 16 8), tracked_hop (by omega), ?_, hrun, htime⟩
  · rw [tracked_stpState, State.offsetShown, State.stpState, rd_wr_off (by decide)]
    exact hst
  · rw [tracked_rd (by decide) (by decide) (by decide)]
    exact rd_wr_fits (by decide) (toCode_lt 32 _)

theorem timeMsg_uncalibrated {s : State} (x : StpIn) (hcal : s.rd Reg.STP_STATUS_UP_CAL = 0) :
    s.timeMsg x = s.modStp fun y => { y with timeAt := some s.now } := if_pos hcal

theorem timeMsg_calibrated {s : State} (x : StpIn) (hcal : s.rd Reg.STP_STATUS_UP_CAL = 1) :
    s.timeMsg x = ((s.modStp fun y => { y with timeAt := some s.now }).follow x).settleDma := if_neg (by rw [hcal]; decide)

/-! ### Delay (R331) -/

/-- Twice the delay an exchange shows. -/
def State.twiceDelay (s : State) (x : StpIn) : Int :=
  (s.steepleFrac - (timeAt x.pay 0 : Int)) - ((timeAt x.pay 20 : Int) - (timeAt x.pay 10 : Int))

/-- The state with one more exchange in the mean. -/
def State.exchanged (s : State) (x : StpIn) : State := s.modStp fun y => { y with delays := (s.twiceDelay x :: y.delays).take 1024 }

theorem exchanged_length (s : State) (x : StpIn) : (s.exchanged x).stp.delays.length = min 1024 (s.stp.delays.length + 1) := List.length_take

/-- STP_HOP_DELAY shows the mean. -/
def State.delayShown (s : State) : State := s.wr Reg.STP_HOP_DELAY_PS (clampI 0 0xFFFFFFFF (toPs s.hopDelay)).toNat

theorem delayResp_eq (s : State) (x : StpIn) : s.delayResp x =
    if (s.exchanged x).stp.delays.length < 1024 then s.exchanged x
    else if s.rd Reg.STP_STATUS_UP_CAL = 1 then (s.exchanged x).delayShown
    else ((s.exchanged x).delayShown.wr Reg.STP_STATUS_UP_CAL 1).raise 1768 := rfl

theorem delayResp_spec (s : State) (x : StpIn) :
    (s.delayResp x).stp = { s.stp with delays := (s.twiceDelay x :: s.stp.delays).take 1024 } ∧
    (s.stp.delays.length < 1023 → s.delayResp x = { s with stp := (s.delayResp x).stp }) ∧
    (1023 ≤ s.stp.delays.length → (s.delayResp x).rd Reg.STP_STATUS_UP_CAL = 1 ∧
      (s.rd Reg.STP_STATUS_UP_CAL = 0 → (s.delayResp x).evtStatus 1768 = true)) := by
  rw [delayResp_eq, exchanged_length]
  split
  next hearly => exact ⟨rfl, fun _ => rfl, fun h => absurd h (by omega)⟩
  next hfull =>
    have hnot : ¬s.stp.delays.length < 1023 := by omega
    split
    next hcal => exact ⟨rfl, fun h => absurd h hnot, fun _ => ⟨(rd_wr_off (by decide)).trans hcal, fun h => absurd (hcal.symm.trans h) one_ne_zero⟩⟩
    next =>
      refine ⟨raise_stp _ _, fun h => absurd h hnot, fun _ => ⟨?_, fun _ => raise_status _ _⟩⟩
      rw [raise_rd (by decide), rd_wr_fits (by decide) (by decide)]

/-- The state after the answer to a DELAY_REQ. -/
def State.answered (s : State) (turn : Nat) (x : StpIn) : State :=
  (s.send 1 3 0 s.hop (slice x.pay 0 10 ++ timeBytes s.steepleFrac ++ timeBytes (s.steepleFrac + 65536 * turn))).modStp fun y => { y with dnCount := y.dnCount + 1 }

theorem delayReq_eq (s : State) (turn : Nat) (x : StpIn) :
    s.delayReq turn x = if 1024 ≤ s.stp.dnCount + 1 then (s.answered turn x).wr Reg.STP_STATUS_DN_CAL 1 else s.answered turn x := rfl

/-- A DELAY_REQ is answered with its own time and the two times of this device; the 1,024th exchange sets DN_CAL. -/
theorem delayReq_spec (s : State) (turn : Nat) (x : StpIn) :
    ((s.delayReq turn x).stp.sent = s.stp.sent ++ [(1, stpBytes 3 (mapGet (fun _ => 0) s.stp.txSeq 1) s.hop 0
        (slice x.pay 0 10 ++ timeBytes s.steepleFrac ++ timeBytes (s.steepleFrac + 65536 * turn)))] ∧
      mapGet (fun _ => 0) (s.delayReq turn x).stp.txSeq 1 = (mapGet (fun _ => 0) s.stp.txSeq 1 + 1) % 65536) ∧
    (s.delayReq turn x).stp.dnCount = s.stp.dnCount + 1 ∧ (1023 ≤ s.stp.dnCount → (s.delayReq turn x).rd Reg.STP_STATUS_DN_CAL = 1) ∧
    (s.stp.dnCount < 1023 → s.delayReq turn x = { s with stp := (s.delayReq turn x).stp }) := by
  have hsent := send_spec s 1 3 0 s.hop (slice x.pay 0 10 ++ timeBytes s.steepleFrac ++ timeBytes (s.steepleFrac + 65536 * turn))
  rw [delayReq_eq]
  split
  next h => exact ⟨hsent, rfl, fun _ => rd_wr_fits (by decide) (by decide), fun hfew => absurd hfew (by omega)⟩
  next h => exact ⟨hsent, rfl, fun hmany => absurd hmany (by omega), fun _ => rfl⟩

/-! ### Broadcasts (R341, R343) -/

/-- The state of a broadcast that is new here, before it acts: forwarded, and remembered. -/
def State.castTaken (s : State) (x : StpIn) : State := (s.forward 1 x).remember (leAt x.pay 24 8) (leAt x.pay 0 4)

section
variable {s : State} {x : StpIn}

theorem triggerMsg_seen (h : s.seenBefore (leAt x.pay 24 8) (leAt x.pay 0 4) = true) : s.triggerMsg x = s.forward 1 x := if_pos h
theorem takeOpenMsg_seen (h : s.seenBefore (leAt x.pay 24 8) (leAt x.pay 0 4) = true) : s.takeOpenMsg x = s.forward 1 x := if_pos h
theorem takeCloseMsg_seen (h : s.seenBefore (leAt x.pay 24 8) (leAt x.pay 0 4) = true) : s.takeCloseMsg x = s.forward 1 x := if_pos h

theorem triggerMsg_new (h : s.seenBefore (leAt x.pay 24 8) (leAt x.pay 0 4) = false) : s.triggerMsg x =
    ((((s.castTaken x).wake 5).fireDue).steepleTrigger (fun k => k.accepts 0 && (leAt x.pay 16 8 == 0 || k.rigTake == leAt x.pay 16 8)) (byteAt x.pay 4)
      (leAt x.pay 8 8) false).settleDma := if_neg (by simp [h])

theorem takeCloseMsg_new (h : s.seenBefore (leAt x.pay 24 8) (leAt x.pay 0 4) = false) : s.takeCloseMsg x =
    (((s.castTaken x).fireDue).steepleTrigger (fun k => k.joined && k.rigTake == leAt x.pay 16 8) 1 (leAt x.pay 8 8) true).settleDma :=
  if_neg (by simp [h])

/-- With no take open and no START nothing is left to do for a TAKE_OPEN. -/
theorem takeOpenMsg_new (h : s.seenBefore (leAt x.pay 24 8) (leAt x.pay 0 4) = false) (hopen : ((s.castTaken x).wake 5).fireDue.openTakes = [])
    (htime : leAt x.pay 8 8 = 0) : s.takeOpenMsg x = ((s.castTaken x).wake 5).fireDue.settleDma := by
  unfold State.takeOpenMsg
  extract_lets id t rig uid s1 s2 mine s3
  have hs2 : s2 = ((s.castTaken x).wake 5).fireDue := rfl
  have hmine : mine = [] := by simp [mine, hs2, hopen]
  have hs3 : s3 = s2 := by simp [s3, hmine]
  rw [if_neg (by simp [uid, id, h]), if_pos htime, hs3, hs2]

end

/-! ### The calendar (R340) and STATUS (R350) -/

theorem rd64_modStp (s : State) (f : Stp → Stp) (lo hi : Nat) : (s.modStp f).rd64 lo hi = s.rd64 lo hi := rfl

theorem installCal_rd64 (s : State) (offset utc valid : Nat) : (s.installCal offset utc valid).rd64 Reg.STP_CAL_LO Reg.STP_CAL_HI = offset % 2 ^ 64 := by
  unfold State.installCal
  rw [rd64_modStp, rd64_wr (by decide) (by decide), rd64_wr (by decide) (by decide), rd64_wr (by decide) (by decide), rd64_wr64 (by decide)]

theorem installCal_rd {s : State} {offset utc valid : Nat} (hutc : utc < 128) (hvalid : valid < 2) :
    (s.installCal offset utc valid).rd Reg.STP_CAL_CTL_UTC_OFFSET = utc ∧ (s.installCal offset utc valid).rd Reg.STP_CAL_CTL_VALID = valid ∧
    (s.installCal offset utc valid).rd Reg.STP_STATUS_CAL_VALID = valid := by
  unfold State.installCal
  refine ⟨?_, ?_, ?_⟩ <;> rw [State.modStp_rd]
  · rw [rd_wr_off (by decide), rd_wr_apart (by decide), rd_wr_fits (by decide) hutc]
  · rw [rd_wr_off (by decide), rd_wr_fits (by decide) hvalid]
  · exact rd_wr_fits (by decide) hvalid

theorem installCal_stp (s : State) (offset utc valid : Nat) : (s.installCal offset utc valid).stp = { s.stp with calStaged := offset } := rfl

/-- On a device that is neither a head nor OFF the relation of a CAL stands after it, and what went out is the message. -/
theorem calMsg_member {s : State} {x : StpIn} (hoff : s.stpState ≠ 0) (hhead : s.stpState ≠ 2) :
    s.calMsg x = (s.forward 1 x).installCal (leAt x.pay 0 8) (byteAt x.pay 8 % 128) (byteAt x.pay 8 / 128 % 2) :=
  if_neg (by simp [stpHead, stpOff, hoff, hhead])

theorem calMsg_other {s : State} {x : StpIn} (h : s.stpState = 0 ∨ s.stpState = 2) : s.calMsg x = s.forward 1 x :=
  if_pos (by simpa [stpHead, stpOff] using h.symm)

theorem calMsg_sent (s : State) (x : StpIn) : (s.calMsg x).stp.sent = (s.forward 1 x).stp.sent ∧ (s.calMsg x).stp.txSeq = (s.forward 1 x).stp.txSeq := by
  by_cases h : s.stpState = 0 ∨ s.stpState = 2
  · rw [calMsg_other h]
    exact ⟨rfl, rfl⟩
  · obtain ⟨hoff, hhead⟩ := not_or.mp h
    rw [calMsg_member hoff hhead, installCal_stp]
    exact ⟨rfl, rfl⟩

theorem calMsg_installs {s : State} {x : StpIn} (hoff : s.stpState ≠ 0) (hhead : s.stpState ≠ 2) :
    (s.calMsg x).rd64 Reg.STP_CAL_LO Reg.STP_CAL_HI = leAt x.pay 0 8 ∧ (s.calMsg x).rd Reg.STP_CAL_CTL_UTC_OFFSET = byteAt x.pay 8 % 128 ∧
    (s.calMsg x).rd Reg.STP_STATUS_CAL_VALID = byteAt x.pay 8 / 128 := by
  have hbyte : byteAt x.pay 8 < 256 := (x.pay.getD 8 0).isLt
  have hvalid : byteAt x.pay 8 / 128 % 2 = byteAt x.pay 8 / 128 := by omega
  rw [calMsg_member hoff hhead, hvalid]
  obtain ⟨hutc, -, hshown⟩ := installCal_rd (s := s.forward 1 x) (offset := leAt x.pay 0 8) (utc := byteAt x.pay 8 % 128)
    (valid := byteAt x.pay 8 / 128) (by omega) (by omega)
  exact ⟨(installCal_rd64 ..).trans (Nat.mod_eq_of_lt (leAt_eight_lt x.pay 0)), hutc, hshown⟩

/-- STATUS on DN: forwarded up by a device with UP in use that is no head. -/
def State.statusForwarded (s : State) (x : StpIn) : State := if s.stpUp && s.stpState != stpHead then s.forward 0 x else s

/-- The sender of a STATUS is heard now. -/
def State.heard (s : State) (uid : Nat) : State :=
  s.modStp fun y => { y with members := (y.members.filter fun k => k.1 != uid) ++ [(uid, s.now)] }

theorem statusMsg_eq (s : State) (x : StpIn) : s.statusMsg x = ((s.statusForwarded x).heard (leAt x.pay 0 8)).countMembers := by
  have hnow : (s.statusForwarded x).now = s.now := by unfold State.statusForwarded; split <;> rfl
  rw [State.heard, hnow]
  rfl

theorem statusForwarded_frame (s : State) (x : StpIn) :
    s.statusForwarded x = { s with stp := { s.stp with sent := (s.statusForwarded x).stp.sent, txSeq := (s.statusForwarded x).stp.txSeq } } := by
  unfold State.statusForwarded
  split <;> rfl

theorem statusForwarded_up {s : State} {x : StpIn} (hup : s.stpUp = true) (hhead : s.stpState ≠ 2) : s.statusForwarded x = s.forward 0 x :=
  if_pos (by simp [hup, stpHead, hhead])

theorem statusForwarded_stays {s : State} {x : StpIn} (h : s.stpUp = false ∨ s.stpState = 2) : s.statusForwarded x = s :=
  if_neg (by rcases h with h | h <;> simp [h, stpHead])

theorem statusMsg_members (s : State) (x : StpIn) :
    (s.statusMsg x).stp.members = (s.heard (leAt x.pay 0 8)).liveMembers ∧
    (s.statusMsg x).rd Reg.STP_MEMBERS_COUNT = (s.heard (leAt x.pay 0 8)).memberCount := by
  rw [statusMsg_eq, statusForwarded_frame, countMembers_count, countMembers_stp]
  exact ⟨rfl, rfl⟩

theorem statusMsg_sent (s : State) (x : StpIn) : (s.statusMsg x).stp.sent = (s.statusForwarded x).stp.sent ∧
    (s.statusMsg x).stp.txSeq = (s.statusForwarded x).stp.txSeq := by
  rw [statusMsg_eq, countMembers_stp]
  exact ⟨rfl, rfl⟩

/-! ### Messages carried out -/

section
variable {m : List Byte} {x : StpIn} {s : State}

/-- Nothing is taken on a port out of use or without symbol lock. -/
theorem exec_upMessage_unheard (h : ¬s.hears true) : ∀ p ∈ upMessages m, exec p.2 s = .next s := fun p hp => by
  obtain ⟨f, hexec⟩ := exec_upMessage m s p hp
  rw [hexec, onMsg_unheard h]

theorem exec_dnMessage_unheard {turn : Fin 2001} (h : ¬s.hears false) : ∀ p ∈ dnMessages m turn, exec p.2 s = .next s := fun p hp => by
  obtain ⟨f, hexec⟩ := exec_dnMessage m turn s p hp
  rw [hexec, onMsg_unheard h]

theorem exec_upMessage_garbled (h : s.hears true) (hm : parseMsg m = none) : ∀ p ∈ upMessages m, exec p.2 s = .next (s.bump Reg.STP_ERR_CRC_ERR) :=
  fun p hp => by
    obtain ⟨f, hexec⟩ := exec_upMessage m s p hp
    rw [hexec, onMsg_garbled h hm]

theorem exec_dnMessage_garbled {turn : Fin 2001} (h : s.hears false) (hm : parseMsg m = none) :
    ∀ p ∈ dnMessages m turn, exec p.2 s = .next (s.bump Reg.STP_ERR_CRC_ERR) := fun p hp => by
  obtain ⟨f, hexec⟩ := exec_dnMessage m turn s p hp
  rw [hexec, onMsg_garbled h hm]

theorem exec_upMessage_otherType (hm : parseMsg m = some x) : ∀ p ∈ upMessages m, x.ty ≠ p.1 → exec p.2 s = .next s := fun p hp hty => by
  obtain ⟨f, hexec⟩ := exec_upMessage m s p hp
  rw [hexec, onMsg_otherType hm hty]

theorem exec_dnMessage_otherType {turn : Fin 2001} (hm : parseMsg m = some x) : ∀ p ∈ dnMessages m turn, x.ty ≠ p.1 → exec p.2 s = .next s :=
  fun p hp hty => by
    obtain ⟨f, hexec⟩ := exec_dnMessage m turn s p hp
    rw [hexec, onMsg_otherType hm hty]

section
variable (hup : s.hears true) (hm : parseMsg m = some x)
include hup hm

theorem exec_stpTime (hty : x.ty = 1) : exec (.stpTime m) s = .next (s.timeMsg x) := congrArg _ (onMsg_taken hup hm hty)
theorem exec_stpDelayResp (hty : x.ty = 3) : exec (.stpDelayResp m) s = .next (s.delayResp x) := congrArg _ (onMsg_taken hup hm hty)
theorem exec_stpTrigger (hty : x.ty = 4) : exec (.stpTrigger m) s = .next (s.triggerMsg x) := congrArg _ (onMsg_taken hup hm hty)
theorem exec_stpTakeOpen (hty : x.ty = 5) : exec (.stpTakeOpen m) s = .next (s.takeOpenMsg x) := congrArg _ (onMsg_taken hup hm hty)
theorem exec_stpTakeClose (hty : x.ty = 6) : exec (.stpTakeClose m) s = .next (s.takeCloseMsg x) := congrArg _ (onMsg_taken hup hm hty)
theorem exec_stpCal (hty : x.ty = 7) : exec (.stpCal m) s = .next (s.calMsg x) := congrArg _ (onMsg_taken hup hm hty)

end

section
variable (hdn : s.hears false) (hm : parseMsg m = some x)
include hdn hm

theorem exec_stpDelayReq (turn : Fin 2001) (hty : x.ty = 2) : exec (.stpDelayReq m turn) s = .next (s.delayReq turn.val x) :=
  congrArg _ (onMsg_taken hdn hm hty)
theorem exec_stpStatus (hty : x.ty = 8) : exec (.stpStatus m) s = .next (s.statusMsg x) := congrArg _ (onMsg_taken hdn hm hty)

end

theorem bit_decide (p : Prop) [Decidable p] : bit (decide p) = if p then 1 else 0 := by simp [bit]

/-- An instruction that sends a message where a condition holds, and does nothing else. -/
theorem sends_of_exec {i : Instr} {c : Bool} {may : Prop} (hc : c = true ↔ may) {port ty flags hop : Nat} {pay : List Byte}
    (hexec : exec i s = .next (if c then s.send port ty flags hop pay else s)) :
    (may → ∃ t, exec i s = .next t ∧ (t.stp.sent = s.stp.sent ++ [(port, stpBytes ty (mapGet (fun _ => 0) s.stp.txSeq port) hop flags pay)] ∧
      mapGet (fun _ => 0) t.stp.txSeq port = (mapGet (fun _ => 0) s.stp.txSeq port + 1) % 65536) ∧ t = { s with stp := t.stp }) ∧
    (¬may → exec i s = .next s) := by
  refine ⟨fun h => ⟨_, hexec.trans (congrArg _ (if_pos (hc.mpr h))), send_spec s port ty flags hop pay, rfl⟩, fun h => ?_⟩
  rw [hexec, if_neg fun hcond => h (hc.mp hcond)]

end

end Sys2Proof.Machine

open Sys2Proof
open Sys2Proof.Machine

/-- Settles O57: `State.onMsg` says which messages are taken; what each does when it is taken, and what is sent, is said by the message's own lemmas. -/
theorem steepleMessagesAct : Obligations.SteepleMessagesAct := by
  unfold Obligations.SteepleMessagesAct
  intro m turn s upUsed dnUsed ups dns onDn onUp count out
  have hups : onUp = upMessages m := rfl
  have hdns : onDn = dnMessages m turn := rfl
  have hforwarded (x : StpIn) : out 1 x.ty x.flags s.hop x.pay (s.forward 1 x) := send_spec s 1 x.ty x.flags s.hop x.pay
  clear_value onUp onDn
  subst hups hdns
  refine ⟨fun h => ?_, fun h => ?_, fun h => ?_, fun hm => ⟨fun h => ?_, fun h => ?_⟩, fun x hm => ⟨?_, ?_, ?_, ?_, ?_, ?_, ?_, ?_, ?_, ?_⟩, ?_, ?_, ?_, ?_⟩
  · refine forall_messages (exec_upMessage_unheard ?_) (exec_dnMessage_unheard ?_)
    · rintro ⟨hmain, hup, -⟩
      simp [hmain, stpPorts_of_stpUp hup] at h
    · rintro ⟨hmain, hports, -⟩
      simp [hmain, hports] at h
  · refine exec_upMessage_unheard ?_
    rintro ⟨-, hup, hlock⟩
    simp [hup, hlock] at h
  · exact exec_dnMessage_unheard fun ⟨_, _, hlock⟩ => absurd (hlock.symm.trans h) one_ne_zero
  · exact exec_upMessage_garbled h hm
  · exact exec_dnMessage_garbled h hm
  · exact forall_messages (exec_upMessage_otherType hm) (exec_dnMessage_otherType hm)
  · intro hup hty hcal
    exact ⟨_, (exec_stpTime hup hm hty).trans (congrArg _ (timeMsg_uncalibrated x hcal)), rfl, rfl⟩
  · intro hup hty hcal hst offset hnear hflag
    obtain ⟨hstate, hfrac, huid, hhop, hoffset, hrun, htime⟩ :=
      follow_near_spec (s := s.modStp fun y => { y with timeAt := some s.now }) (x := x) hst hnear hflag
    exact ⟨_, (exec_stpTime hup hm hty).trans (congrArg _ (timeMsg_calibrated x hcal)), hstate, hfrac, huid, hhop, hoffset, hrun, htime⟩
  · intro hup hty d2
    exact ⟨_, exec_stpDelayResp hup hm hty, delayResp_spec s x⟩
  · intro hdn hty
    exact ⟨_, exec_stpDelayReq hdn hm turn hty, delayReq_spec s turn.val x⟩
  · intro hup hty hseen
    exact ⟨_, (exec_stpTrigger hup hm hty).trans (congrArg _ (triggerMsg_seen hseen)), hty ▸ hforwarded x, rfl⟩
  · intro hup hty hseen
    refine ⟨s.forward 1 x, ?_, hforwarded x, rfl⟩
    rcases hty with hty | hty
    · rw [if_pos hty, exec_stpTakeOpen hup hm hty, takeOpenMsg_seen hseen]
    · rw [if_neg (by omega), exec_stpTakeClose hup hm hty, takeCloseMsg_seen hseen]
  · intro hup hty hnew t8 rig
    refine ⟨s.castTaken x, hforwarded x, rfl, rfl, fun hty => ?_, fun hty hopen htime => ?_, fun hty => ?_⟩
    · rw [exec_stpTrigger hup hm hty, triggerMsg_new hnew]
    · rw [exec_stpTakeOpen hup hm hty, takeOpenMsg_new hnew hopen htime]
    · rw [exec_stpTakeClose hup hm hty, takeCloseMsg_new hnew]
  · intro hup hty
    obtain ⟨hsent, hseq⟩ := calMsg_sent s x
    refine ⟨_, exec_stpCal hup hm hty, ?_, fun h => ?_, fun hoff hhead => calMsg_installs hoff hhead⟩
    · rw [← hty]
      exact ⟨hsent.trans (hforwarded x).1, (congrArg (mapGet _ · 1) hseq).trans (hforwarded x).2⟩
    · rw [calMsg_other h]
      rfl
  · intro hdn hty uid live
    obtain ⟨hmembers, hcount⟩ := statusMsg_members s x
    obtain ⟨hsent, hseq⟩ := statusMsg_sent s x
    refine ⟨_, exec_stpStatus hdn hm hty, hmembers, hcount, fun hup hhead => ?_, fun h => ?_⟩
    · rw [statusForwarded_up hup hhead] at hsent hseq
      obtain ⟨hbytes, htaken⟩ := send_spec s 0 x.ty x.flags x.hop x.pay
      rw [← hty]
      exact ⟨hsent.trans hbytes, (congrArg (mapGet _ · 0) hseq).trans htaken⟩
    · rw [hsent, statusForwarded_stays h]
  · refine sends_of_exec (c := s.mainUp && (s.stpPorts && stpHead ≤ s.stpState && s.rd Reg.STP_STATUS_CHAIN_END == 0)) ?_ ?_
    · simp only [Bool.and_eq_true, decide_eq_true_eq, beq_iff_eq, and_assoc]
      rfl
    · refine congrArg Host.Outcome.next ?_
      rw [State.timeSend, bit_decide]
      cases s.mainUp <;> rfl
  · exact sends_of_exec (c := s.mainUp && s.stpUp && s.rd Reg.STP_STATUS_UP_LOCK == 1) (by simp [upUsed, and_assoc]) rfl
  · exact sends_of_exec (c := s.mainUp && s.stpPorts && s.stpState == stpHead) (by simp [stpHead, and_assoc]) rfl
  · exact sends_of_exec (c := s.mainUp && s.stpUp && s.stpState != stpHead && s.stpState != stpOff) (by simp [stpHead, stpOff, and_assoc]) rfl

end

section
/-!
PROOFS. Scope: symbol lock, breaks, the states, references, the calendar and members of the Steeple chain (09 R326, R327, R334 to R350).
-/
namespace Sys2Proof.Machine

/-! ### What the take service leaves of the Steeple block -/

/-- The registers of the Steeple block (Table 9.5). -/
def steepleRegs : List Nat := (List.range 16).map fun k => Reg.STP_STATUS + 4 * k

theorem steepleRegs_low {o : Nat} (h : o ∈ steepleRegs) : o < 0x02010000 := (by decide : ∀ o ∈ steepleRegs, o < 0x02010000) o h

/-- The Steeple block, its registers, the clock, and the status of the sources of a lost lock. -/
def State.chain (s : State) : Stp × Nat × List Word × List Bool := (s.stp, s.now, steepleRegs.map s.reg, [1760, 1761].map s.evtStatus)

theorem chain_of_parts {s t : State} (hstp : t.stp = s.stp) (hnow : t.now = s.now) (hreg : ∀ o ∈ steepleRegs, t.reg o = s.reg o)
    (hstatus : ∀ x ∈ [1760, 1761], t.evtStatus x = s.evtStatus x) : t.chain = s.chain := by
  rw [State.chain, hstp, hnow, List.map_congr_left hreg, List.map_congr_left hstatus, State.chain]

theorem chain_raise {s : State} {src : Nat} (h : ∀ x ∈ [1760, 1761], src ≠ x) : (s.raise src).chain = s.chain :=
  chain_of_parts (raise_stp s src) (raise_now s src) (fun _ ho => raise_reg (statusOff_ne (steepleRegs_low ho)).symm) fun x hx => by
    rw [evtStatus_raise, beq_false_of_ne (h x hx), Bool.or_false]

theorem chain_wr {s : State} {f : Field} {v : Nat} (hf : f.off < 0x02010000) (h : f.off ∉ steepleRegs) : (s.wr f v).chain = s.chain :=
  chain_of_parts rfl rfl (fun _ ho => reg_wr_other fun heq => h (heq ▸ ho)) fun _ _ => evtStatus_wr (statusOff_ne hf)

theorem chain_wr64 {s : State} {lo hi v : Nat} (hlo : lo < 0x02010000) (hhi : hi < 0x02010000) (h : lo ∉ steepleRegs ∧ hi ∉ steepleRegs) :
    (s.wr64 lo hi v).chain = s.chain := by
  refine chain_of_parts rfl rfl (fun o ho => ?_) fun _ _ => evtStatus_wr64 (statusOff_ne hlo) (statusOff_ne hhi)
  have hother {r : Nat} (hr : r ∉ steepleRegs) : o ≠ r := fun heq => hr (heq ▸ ho)
  exact (reg_setReg_other (hother h.2)).trans (reg_setReg_other (hother h.1))

/-- The log takes in a record; at severity 3 source 1,782 occurs. -/
theorem record_steps (s : State) (ty severity : Nat) (data : List Nat) : ∃ l n, s.record ty severity data =
    if severity = 3 then (State.wr64 { s with life := l } Reg.BEL_LOG_SEQ_LO Reg.BEL_LOG_SEQ_HI n).raise 1782
    else State.wr64 { s with life := l } Reg.BEL_LOG_SEQ_LO Reg.BEL_LOG_SEQ_HI n := ⟨_, _, rfl⟩

theorem chain_record (s : State) (ty severity : Nat) (data : List Nat) : (s.record ty severity data).chain = s.chain := by
  obtain ⟨l, n, hsteps⟩ := record_steps s ty severity data
  have hlogged : (State.wr64 { s with life := l } Reg.BEL_LOG_SEQ_LO Reg.BEL_LOG_SEQ_HI n).chain = s.chain :=
    (chain_wr64 (by decide) (by decide) (by decide)).trans rfl
  rw [hsteps]
  split
  · exact (chain_raise (by decide)).trans hlogged
  · exact hlogged

/-- The Steeple block stands beside the data path. -/
def besideChain : Beside (Stp × Nat × List Word × List Bool) where
  get := State.chain
  modPath _ _ := rfl
  modFtl _ _ := rfl
  modWin _ _ := rfl
  modTakes _ _ := rfl
  setKeySlot _ _ _ := rfl
  complete s c st dw0 dw1 data := by
    obtain ⟨_, _, h⟩ := complete_frame s c st dw0 dw1 data
    rw [h]
    rfl
  tally s off n := by
    obtain ⟨_, h⟩ := tally_frame s off n
    rw [h]
    rfl
  record := chain_record
  raise s src hsrc := chain_raise fun x hx h => by
    subst h
    revert src
    decide
  wr s f hf v :=
    chain_wr ((by decide : ∀ f ∈ pathFields, f.off < 0x02010000) f hf) ((by decide : ∀ f ∈ pathFields, f.off ∉ steepleRegs) f hf)

/-- The Steeple block is as it was, but that the status of a source may have come. -/
structure ChainKept (s t : State) : Prop where
  stp : t.stp = s.stp
  now : t.now = s.now
  reg : ∀ o ∈ steepleRegs, t.reg o = s.reg o
  status : ∀ x ∈ [1760, 1761], s.evtStatus x = true → t.evtStatus x = true

namespace ChainKept

theorem of_chain {s t : State} (h : t.chain = s.chain) : ChainKept s t := by
  obtain ⟨hstp, hrest⟩ := Prod.ext_iff.mp h
  obtain ⟨hnow, hrest⟩ := Prod.ext_iff.mp hrest
  obtain ⟨hreg, hstatus⟩ := Prod.ext_iff.mp hrest
  exact ⟨hstp, hnow, fun o ho => List.map_inj_left.mp hreg o ho, fun x hx hs => (List.map_inj_left.mp hstatus x hx).trans hs⟩

theorem refl (s : State) : ChainKept s s := of_chain rfl

theorem trans {s t u : State} (h : ChainKept s t) (g : ChainKept t u) : ChainKept s u :=
  ⟨g.stp.trans h.stp, g.now.trans h.now, fun o ho => (g.reg o ho).trans (h.reg o ho), fun x hx hs => g.status x hx (h.status x hx hs)⟩

theorem foldl {α : Type} {g : State → α → State} (h : ∀ t x, ChainKept t (g t x)) (l : List α) (s : State) : ChainKept s (l.foldl g s) := by
  induction l generalizing s with
  | nil => exact refl s
  | cons x l ih => exact (h s x).trans (ih _)

theorem raise (s : State) (src : Nat) : ChainKept s (s.raise src) :=
  ⟨raise_stp s src, raise_now s src, fun _ ho => raise_reg (statusOff_ne (steepleRegs_low ho)).symm, fun x _ hs => by
    rw [evtStatus_raise, hs, Bool.true_or]⟩

theorem rd {s t : State} (h : ChainKept s t) {f : Field} (hf : f.off ∈ steepleRegs) : t.rd f = s.rd f := by rw [State.rd, h.reg _ hf, State.rd]

theorem steepleFrac {s t : State} (h : ChainKept s t) : t.steepleFrac = s.steepleFrac := steepleFrac_congr h.stp h.now

theorem takeState (s : State) (num st : Nat) : ChainKept s (s.takeState num st) := by
  unfold State.takeState
  split
  · exact refl s
  · exact trans (of_chain ((besideChain.get_dirChange _).trans (besideChain.get_modTake ..))) (foldl raise _ _)

theorem closeTake (s : State) (num t reason : Nat) : ChainKept s (s.closeTake num t reason) := by
  unfold State.closeTake
  split
  · exact refl s
  · split
    · exact refl s
    · extract_lets never s1
      have hs1 : ChainKept s s1 := (of_chain (besideChain.get_modTake ..)).trans (takeState _ _ _)
      exact hs1.trans (foldl (fun u i => of_chain (besideChain.get_unrecord u num i t)) _ _)

theorem fullCheck (s : State) (point : Nat) : ChainKept s (s.fullCheck point) := by
  unfold State.fullCheck State.takeFull
  split
  · split
    · exact refl s
    · exact (of_chain (chain_wr (by decide) (by decide))).trans (foldl (fun u x => closeTake u _ _ _) _ _)
  · exact refl s

theorem plainRec (s : State) (num i kind stamp : Nat) (body : List Nat) : ChainKept s (s.plainRec num i kind stamp body) := by
  unfold State.plainRec
  extract_lets r
  split
  · exact refl s
  next s1 x lsas h =>
    have hs1 : s1.chain = s.chain := besideChain.get_addRec s num i r _ h
    exact (of_chain ((besideChain.get_takeWrite s1 ..).trans hs1)).trans (fullCheck _ _)

/-- A chain record changes takes, their clips and the path. -/
theorem chainRecord (s : State) (kind stamp : Nat) (body : List Nat) : ChainKept s (s.chainRecord kind stamp body) := by
  refine foldl (fun u t => ?_) _ _
  have htouched (f : Take → Take) : ChainKept u (u.modTake t.num f).dirTouch := of_chain rfl
  refine (htouched _).trans (foldl (fun v i => ?_) _ _)
  split
  · exact refl v
  · extract_lets off v1 placed
    split
    · exact plainRec v _ _ _ _ _
    · exact (plainRec v _ _ _ _ _).trans (of_chain (besideChain.get_modClip ..))

end ChainKept

/-! ### A break (R344, R346) -/

/-- The state of a break before the take service hears of it. -/
def State.broken (s : State) (st : Nat) : State :=
  ((s.rebase.modStp fun x => { x with breakAt := s.steepleTime, uncBreak := s.stpUnc, slew := 0, lockRun := 0, unlockRun := 0, healing := false }).setStp
    st).bump Reg.STP_COUNT_BREAKS

theorem enterHoldover_head (s : State) : ∃ t, ChainKept (s.broken 4) t ∧ s.enterHoldover 4 = (t.setHeadUid s.uid).raise 1762 :=
  ⟨_, ChainKept.chainRecord _ _ _ _, rfl⟩

theorem broken_stp (s : State) (st : Nat) : ∃ l, (s.broken st).stp = { s.stp with
    base := s.steepleFrac, baseAt := s.now, breakAt := s.steepleTime, uncBreak := s.stpUnc, slew := 0, lockRun := 0, unlockRun := 0, healing := false,
    members := l } := by
  rw [State.broken, State.bump_stp, setStp_stp]
  exact ⟨_, rfl⟩

theorem broken_now (s : State) (st : Nat) : (s.broken st).now = s.now := setStp_now _ _

theorem broken_rd {s : State} {st : Nat} {f : Field} (h : f.off ≠ Reg.STP_STATUS ∨ 3 ≤ f.lsb) (hm : f.off ≠ Reg.STP_MEMBERS)
    (hc : f.off ≠ Reg.STP_COUNT) (hs : f.off ≠ statusOff 1767) : (s.broken st).rd f = s.rd f := by
  rw [State.broken, State.bump, rd_wr_off hc, setStp_rd h hm hs]
  rfl

theorem broken_status {s : State} {st src : Nat} (h : s.evtStatus src = true) : (s.broken st).evtStatus src = true :=
  (evtStatus_wr (statusOff_ne (by decide))).trans (setStp_status h)

theorem broken_breaks (s : State) (st : Nat) :
    (s.broken st).rd Reg.STP_COUNT_BREAKS = min (2 ^ Reg.STP_COUNT_BREAKS.width - 1) (s.rd Reg.STP_COUNT_BREAKS + 1) := by
  rw [State.broken, rd_bump (by decide), setStp_rd (by decide) (by decide) (by decide)]
  rfl

theorem broken_state {s : State} {st : Nat} (h : st < 8) : (s.broken st).stpState = st := by
  rw [State.broken, State.stpState, State.bump, rd_wr_off (by decide)]
  exact setStp_state h

/-- The head of a segment after a break: what it shows, and that its time goes on. -/
theorem enterHoldover_shows (s : State) :
    (s.enterHoldover 4).stpState = 4 ∧ (s.enterHoldover 4).headUid = s.uid ∧ (s.enterHoldover 4).evtStatus 1762 = true ∧
    (s.enterHoldover 4).rd Reg.STP_COUNT_BREAKS = min (2 ^ Reg.STP_COUNT_BREAKS.width - 1) (s.rd Reg.STP_COUNT_BREAKS + 1) := by
  obtain ⟨t, ht, hentered⟩ := enterHoldover_head s
  rw [hentered]
  refine ⟨?_, ?_, raise_status _ _, ?_⟩
  · rw [State.stpState, raise_rd (by decide), rd_setHeadUid (by decide) (by decide), ht.rd (by decide)]
    exact broken_state (by decide)
  · rw [State.headUid, rd64_raise (by decide) (by decide)]
    exact headUid_setHeadUid (uid_lt s)
  · rw [raise_rd (by decide), rd_setHeadUid (by decide) (by decide), ht.rd (by decide), broken_breaks]

theorem enterHoldover_stp (s : State) : (s.enterHoldover 4).stp.uncBreak = s.stpUnc ∧ (s.enterHoldover 4).stp.breakAt = s.steepleTime ∧
    (s.enterHoldover 4).stp.slew = 0 ∧ (s.enterHoldover 4).stp.delays = s.stp.delays ∧ (s.enterHoldover 4).steepleFrac = s.steepleFrac := by
  obtain ⟨t, ht, hentered⟩ := enterHoldover_head s
  obtain ⟨l, hbroken⟩ := broken_stp s 4
  have hstp : (s.enterHoldover 4).stp = (s.broken 4).stp := by rw [hentered, raise_stp, setHeadUid_stp, ht.stp]
  have hnow : (s.enterHoldover 4).now = s.now := by
    rw [hentered, raise_now]
    exact ht.now.trans (broken_now s 4)
  rw [steepleFrac_fixed (by rw [hstp, hbroken, hnow]), hstp, hbroken]
  exact ⟨rfl, rfl, rfl, rfl, rfl⟩

theorem enterHoldover_rd {s : State} {f : Field} (hf : f.off ∈ steepleRegs) (h : f.off ≠ Reg.STP_STATUS ∨ 3 ≤ f.lsb) (hm : f.off ≠ Reg.STP_MEMBERS)
    (hc : f.off ≠ Reg.STP_COUNT) (hlo : f.off ≠ Reg.STP_HEAD_UID_LO) (hhi : f.off ≠ Reg.STP_HEAD_UID_HI) :
    (s.enterHoldover 4).rd f = s.rd f := by
  obtain ⟨t, ht, hentered⟩ := enterHoldover_head s
  have hs (src : Nat) : f.off ≠ statusOff src := (statusOff_ne (steepleRegs_low hf)).symm
  rw [hentered, raise_rd (hs _), rd_setHeadUid hlo hhi, ht.rd hf, broken_rd h hm hc (hs _)]

theorem enterHoldover_status {s : State} (h : s.evtStatus 1760 = true) : (s.enterHoldover 4).evtStatus 1760 = true := by
  obtain ⟨t, ht, hentered⟩ := enterHoldover_head s
  rw [hentered, evtStatus_raise, evtStatus_setHeadUid, ht.status 1760 (by decide) (broken_status h), Bool.true_or]

/-! ### Symbol lock lost on UP (R327, R331, R344) -/

/-- UP_LOCK and UP_CAL fall, the delays measured go, and source 1,760 occurs. -/
def State.upCleared (s : State) : State :=
  (((s.wr Reg.STP_STATUS_UP_LOCK 0).wr Reg.STP_STATUS_UP_CAL 0).modStp fun x => { x with delays := [] }).raise 1760

/-- A heal that did not come to LOCKED has ended. -/
def State.healDropped (s : State) : State := s.upCleared.modStp fun x => { x with healing := false, lockRun := 0 }

theorem upCleared_stp (s : State) : s.upCleared.stp = { s.stp with delays := [] } := raise_stp _ _
theorem upCleared_steepleFrac (s : State) : s.upCleared.steepleFrac = s.steepleFrac := steepleFrac_raise _ _

theorem upCleared_uid (s : State) : s.upCleared.uid = s.uid := by
  obtain ⟨-, -, hboot, -⟩ := raise_parts (((s.wr Reg.STP_STATUS_UP_LOCK 0).wr Reg.STP_STATUS_UP_CAL 0).modStp fun x => { x with delays := [] }) 1760
  exact uid_of_boot hboot

theorem upCleared_rd {s : State} {f : Field} (hs : f.off ≠ statusOff 1760) (h : f.off ≠ Reg.STP_STATUS ∨ f.lsb + f.width ≤ 8 ∨ 11 ≤ f.lsb) :
    s.upCleared.rd f = s.rd f := by
  rw [State.upCleared, raise_rd hs, State.modStp_rd]
  rcases h with hoff | hlow | hhigh
  · rw [rd_wr_off hoff, rd_wr_off hoff]
  · rw [rd_wr_apart (.inl (hlow.trans (by decide))), rd_wr_apart (.inl hlow)]
  · rw [rd_wr_apart (f := Reg.STP_STATUS_UP_CAL) (.inr hhigh), rd_wr_apart (f := Reg.STP_STATUS_UP_LOCK) (.inr (le_trans (by decide) hhigh))]

theorem upCleared_lock (s : State) : s.upCleared.rd Reg.STP_STATUS_UP_LOCK = 0 ∧ s.upCleared.rd Reg.STP_STATUS_UP_CAL = 0 := by
  constructor <;> rw [State.upCleared, raise_rd (by decide), State.modStp_rd]
  · rw [rd_wr_apart (by decide), rd_wr_fits (by decide) (by decide)]
  · exact rd_wr_fits (by decide) (by decide)

/-- The bound of a device's time against the head hangs on its state, its hop, OSC_PPB, the last break and the time. -/
theorem stpUnc_congr {s t : State} (hst : t.stpState = s.stpState) (hhop : t.hop = s.hop) (hosc : t.force Reg.STP_CFG_OSC_PPB = s.force Reg.STP_CFG_OSC_PPB)
    (hunc : t.stp.uncBreak = s.stp.uncBreak) (hbreak : t.stp.breakAt = s.stp.breakAt) (htime : t.steepleTime = s.steepleTime) : t.stpUnc = s.stpUnc := by
  rw [State.stpUnc, hst, hhop, hosc, hunc, hbreak, htime, State.stpUnc]

theorem force_of_reg {s t : State} {f : Field} (hfit : t.fit = s.fit) (hreg : t.reg f.off = s.reg f.off) : t.force f = s.force f := by
  rw [State.force, State.inForce, hfit, hreg, State.force, State.inForce]

theorem upCleared_stpUnc (s : State) : s.upCleared.stpUnc = s.stpUnc := by
  have hstp := upCleared_stp s
  refine stpUnc_congr (upCleared_rd (by decide) (by decide)) (upCleared_rd (by decide) (by decide)) (force_of_reg (raise_parts _ 1760).1 ?_)
    (by rw [hstp]) (by rw [hstp]) (congrArg (fun f : Int => (f / 65536).toNat) (upCleared_steepleFrac s))
  rw [State.upCleared, raise_reg (by decide), State.modStp_reg, reg_wr_other (by decide), reg_wr_other (by decide)]

section
variable {s : State}

theorem upLost_unlocked (h : s.rd Reg.STP_STATUS_UP_LOCK = 0) : s.upLost = s := if_pos h

/-- A device that followed UP becomes the head of its segment. -/
theorem upLost_follower (hlock : s.rd Reg.STP_STATUS_UP_LOCK = 1) (hst : s.stpState = 3 ∨ s.stpState = 5 ∨ s.stpState = 6) :
    s.upLost = s.upCleared.enterHoldover 4 :=
  (if_neg (by rw [hlock]; exact one_ne_zero)).trans (if_pos (by simpa [stpLocked, stpSlewing, stpHoldover, or_comm, or_left_comm] using hst))

/-- Any other device keeps its state; a heal begun ends, and a head carries its own time again. -/
theorem upLost_other (hlock : s.rd Reg.STP_STATUS_UP_LOCK = 1) (hst : ¬(s.stpState = 3 ∨ s.stpState = 5 ∨ s.stpState = 6)) : s.upLost =
    if s.stp.healing then
      if s.stpState = 2 then s.healDropped.topOfChain else if s.stpState = 4 then s.healDropped.setHeadUid s.uid else s.healDropped
    else s.upCleared :=
  (if_neg (by rw [hlock]; exact one_ne_zero)).trans (if_neg (by simpa [stpLocked, stpSlewing, stpHoldover, or_comm, or_left_comm] using hst))

theorem upLost_other_rd (hlock : s.rd Reg.STP_STATUS_UP_LOCK = 1) (hst : ¬(s.stpState = 3 ∨ s.stpState = 5 ∨ s.stpState = 6)) {f : Field}
    (hlo : f.off ≠ Reg.STP_HEAD_UID_LO) (hhi : f.off ≠ Reg.STP_HEAD_UID_HI) (h : f.off ≠ Reg.STP_STATUS ∨ f.lsb + f.width ≤ 15) :
    s.upLost.rd f = s.upCleared.rd f := by
  rw [upLost_other hlock hst]
  split
  · split
    · exact topOfChain_rd hlo hhi h
    · split
      · exact rd_setHeadUid hlo hhi
      · rfl
  · rfl

theorem upLost_other_stp (hlock : s.rd Reg.STP_STATUS_UP_LOCK = 1) (hst : ¬(s.stpState = 3 ∨ s.stpState = 5 ∨ s.stpState = 6)) :
    s.upLost.stp.delays = [] ∧ s.upLost.stp.healing = false := by
  have hdropped : s.healDropped.stp = { s.stp with delays := [], healing := false, lockRun := 0 } :=
    congrArg (fun x : Stp => { x with healing := false, lockRun := 0 }) (upCleared_stp s)
  rw [upLost_other hlock hst]
  split
  · split
    · rw [topOfChain_stp, hdropped]
      exact ⟨rfl, rfl⟩
    · split
      · rw [setHeadUid_stp, hdropped]
        exact ⟨rfl, rfl⟩
      · rw [hdropped]
        exact ⟨rfl, rfl⟩
  next hhealing =>
    rw [upCleared_stp]
    exact ⟨rfl, Bool.eq_false_iff.mpr hhealing⟩

theorem upLost_other_status (hlock : s.rd Reg.STP_STATUS_UP_LOCK = 1) (hst : ¬(s.stpState = 3 ∨ s.stpState = 5 ∨ s.stpState = 6)) :
    s.upLost.evtStatus 1760 = true := by
  have hcleared : s.upCleared.evtStatus 1760 = true := raise_status _ _
  rw [upLost_other hlock hst]
  split
  · split
    · exact evtStatus_topOfChain.trans hcleared
    · split
      · exact evtStatus_setHeadUid.trans hcleared
      · exact hcleared
  · exact hcleared

/-- A head that heals no more carries its own identity again. -/
theorem upLost_other_head (hlock : s.rd Reg.STP_STATUS_UP_LOCK = 1) (hhealing : s.stp.healing = true) :
    (s.stpState = 2 ∨ s.stpState = 4 → s.upLost.headUid = s.uid) ∧ (s.stpState = 2 → s.upLost.hop = 0) := by
  have huid : s.healDropped.uid = s.uid := upCleared_uid s
  have hhead (hst : s.stpState = 2) : s.upLost = s.healDropped.topOfChain := by
    rw [upLost_other hlock (by omega), if_pos hhealing, if_pos hst]
  have hsegment (hst : s.stpState = 4) : s.upLost = s.healDropped.setHeadUid s.uid := by
    rw [upLost_other hlock (by omega), if_pos hhealing, if_neg (by omega), if_pos hst]
  refine ⟨fun h => ?_, fun h => ?_⟩
  · rcases h with hst | hst
    · rw [hhead hst, topOfChain_headUid, huid]
    · rw [hsegment hst, headUid_setHeadUid (uid_lt s)]
  · rw [hhead h, topOfChain_hop]

/-- Lock is lost: UP_LOCK, UP_CAL and the delays go, source 1,760 stands, and the violations counted stay. -/
theorem upLost_clears (hlock : s.rd Reg.STP_STATUS_UP_LOCK = 1) :
    s.upLost.rd Reg.STP_STATUS_UP_LOCK = 0 ∧ s.upLost.rd Reg.STP_STATUS_UP_CAL = 0 ∧ s.upLost.stp.delays = [] ∧ s.upLost.evtStatus 1760 = true ∧
    s.upLost.rd Reg.STP_ERR_CODE_ERR = s.rd Reg.STP_ERR_CODE_ERR := by
  obtain ⟨hcleared, hcal⟩ := upCleared_lock s
  have herr : s.upCleared.rd Reg.STP_ERR_CODE_ERR = s.rd Reg.STP_ERR_CODE_ERR := upCleared_rd (by decide) (by decide)
  by_cases hst : s.stpState = 3 ∨ s.stpState = 5 ∨ s.stpState = 6
  · obtain ⟨-, -, -, hdelays, -⟩ := enterHoldover_stp s.upCleared
    have hrd {f : Field} := enterHoldover_rd (s := s.upCleared) (f := f)
    rw [upLost_follower hlock hst, hrd (by decide) (by decide) (by decide) (by decide) (by decide) (by decide),
      hrd (by decide) (by decide) (by decide) (by decide) (by decide) (by decide),
      hrd (by decide) (by decide) (by decide) (by decide) (by decide) (by decide), hdelays, upCleared_stp]
    exact ⟨hcleared, hcal, rfl, enterHoldover_status (raise_status _ _), herr⟩
  · have hrd {f : Field} := upLost_other_rd hlock hst (f := f)
    obtain ⟨hdelays, -⟩ := upLost_other_stp hlock hst
    exact ⟨(hrd (by decide) (by decide) (by decide)).trans hcleared, (hrd (by decide) (by decide) (by decide)).trans hcal, hdelays,
      upLost_other_status hlock hst, (hrd (by decide) (by decide) (by decide)).trans herr⟩

/-- A break on UP: the head of the segment, with the device's own time and identity. -/
theorem upLost_breaks (hlock : s.rd Reg.STP_STATUS_UP_LOCK = 1) (hst : s.stpState = 3 ∨ s.stpState = 5 ∨ s.stpState = 6) :
    s.upLost.stpState = 4 ∧ s.upLost.headUid = s.uid ∧ s.upLost.evtStatus 1762 = true ∧ s.upLost.stp.uncBreak = s.stpUnc ∧
    s.upLost.stp.breakAt = s.steepleTime ∧ s.upLost.stp.slew = 0 ∧ s.upLost.steepleFrac = s.steepleFrac ∧
    s.upLost.rd Reg.STP_COUNT_BREAKS = min (2 ^ Reg.STP_COUNT_BREAKS.width - 1) (s.rd Reg.STP_COUNT_BREAKS + 1) := by
  obtain ⟨hstate, huid, hstatus, hbreaks⟩ := enterHoldover_shows s.upCleared
  obtain ⟨hunc, hat, hslew, -, hfrac⟩ := enterHoldover_stp s.upCleared
  have hbefore : s.upCleared.rd Reg.STP_COUNT_BREAKS = s.rd Reg.STP_COUNT_BREAKS := upCleared_rd (by decide) (by decide)
  have htime : s.upCleared.steepleTime = s.steepleTime := congrArg (fun f : Int => (f / 65536).toNat) (upCleared_steepleFrac s)
  rw [upLost_follower hlock hst, hfrac, hunc, hat, huid, hbreaks, hbefore, upCleared_stpUnc, upCleared_uid, upCleared_steepleFrac, htime]
  exact ⟨hstate, rfl, hstatus, rfl, rfl, hslew, rfl, rfl⟩

end

/-! ### Symbol lock lost on DN (R346) -/

/-- DN_LOCK and DN_CAL fall, the exchanges answered go, and source 1,761 occurs. -/
def State.dnCleared (s : State) : State :=
  (((s.wr Reg.STP_STATUS_DN_LOCK 0).wr Reg.STP_STATUS_DN_CAL 0).modStp fun x => { x with dnCount := 0 }).raise 1761

theorem dnLost_unlocked {s : State} (h : s.rd Reg.STP_STATUS_DN_LOCK = 0) : s.dnLost = s := if_pos h

theorem dnLost_locked {s : State} (h : s.rd Reg.STP_STATUS_DN_LOCK = 1) : ChainKept s.dnCleared s.dnLost := by
  unfold State.dnLost
  rw [if_neg (by rw [h]; exact one_ne_zero)]
  exact ChainKept.chainRecord _ _ _ _

theorem dnLost_clears {s : State} (h : s.rd Reg.STP_STATUS_DN_LOCK = 1) :
    s.dnLost.rd Reg.STP_STATUS_DN_LOCK = 0 ∧ s.dnLost.rd Reg.STP_STATUS_DN_CAL = 0 ∧ s.dnLost.stp.dnCount = 0 ∧ s.dnLost.evtStatus 1761 = true := by
  have hkept := dnLost_locked h
  refine ⟨?_, ?_, ?_, hkept.status 1761 (by decide) (raise_status _ _)⟩
  · rw [hkept.rd (by decide), State.dnCleared, raise_rd (by decide), State.modStp_rd, rd_wr_apart (by decide), rd_wr_fits (by decide) (by decide)]
  · rw [hkept.rd (by decide), State.dnCleared, raise_rd (by decide), State.modStp_rd, rd_wr_fits (by decide) (by decide)]
  · rw [hkept.stp, State.dnCleared, raise_stp]
    rfl

/-- DN has no part in the device's time or state. -/
theorem dnLost_keeps {s : State} : s.dnLost.stpState = s.stpState ∧ s.dnLost.steepleFrac = s.steepleFrac := by
  by_cases h : s.rd Reg.STP_STATUS_DN_LOCK = 0
  · rw [dnLost_unlocked h]
    exact ⟨rfl, rfl⟩
  · have hkept := dnLost_locked (rd_eq_one rfl h)
    constructor
    · rw [State.stpState, hkept.rd (by decide), State.dnCleared, raise_rd (by decide), State.modStp_rd, rd_wr_apart (by decide),
        rd_wr_apart (by decide)]
      rfl
    · rw [hkept.steepleFrac, State.dnCleared, steepleFrac_raise]
      rfl

/-! ### The violations seen with a loss -/

/-- The violations are counted. -/
def State.errored (s : State) (n : Nat) : State := s.bumpBy Reg.STP_ERR_CODE_ERR n

theorem errored_rd {s : State} {n : Nat} {f : Field} (h : f.off ≠ Reg.STP_ERR) : (s.errored n).rd f = s.rd f := rd_wr_off h
theorem errored_stpUnc (s : State) (n : Nat) : (s.errored n).stpUnc = s.stpUnc :=
  stpUnc_congr (errored_rd (by decide)) (errored_rd (by decide)) (force_of_reg rfl (reg_wr_other (by decide))) rfl rfl rfl

/-! ### The slew and the acquire limit (R336, R338, R347) -/

theorem slewDone_none {s : State} (h : s.stp.slew = 0 ∨ s.now < s.stp.slewEnd) : s.slewDone = s := if_neg (by omega)

theorem slewDone_done {s : State} (hslew : s.stp.slew ≠ 0) (hend : s.stp.slewEnd ≤ s.now) :
    s.slewDone = s.rebase.modStp fun x => { x with slew := 0 } := if_pos ⟨hslew, hend⟩

/-- When ACQUIRE last heard TIME, or began. -/
def State.heardAt (s : State) : Nat := match s.stp.timeAt with
  | some t => max t s.stp.acquireAt
  | none => s.stp.acquireAt

theorem acquireTimeout_eq (s : State) :
    s.acquireTimeout = if s.stpState = 1 ∧ s.role = 0 ∧ s.heardAt + 100000000 ≤ s.now then s.toHead else s := rfl

/-- A head that has just been entered, as the chain sees it. -/
def State.headEntered (s : State) : State := (s.rebase.setStp 2).topOfChain

theorem headEntered_shows (s : State) : s.headEntered.stpState = 2 ∧ s.headEntered.hop = 0 ∧ s.headEntered.headUid = s.uid := by
  have huid : (s.rebase.setStp 2).uid = s.uid := setStp_uid s.rebase 2
  refine ⟨?_, topOfChain_hop _, (topOfChain_headUid _).trans huid⟩
  rw [State.headEntered, State.stpState, topOfChain_rd (by decide) (by decide) (by decide)]
  exact setStp_state (by decide)

theorem headEntered_stp (s : State) : s.headEntered.stp = { s.rebase.stp with members := s.rebase.liveMembers } :=
  (topOfChain_stp _).trans (setStp_stp _ _)

theorem headEntered_now (s : State) : s.headEntered.now = s.now := (topOfChain_now _).trans (setStp_now _ _)

/-- The calendar relation stands on a new head only if it was written there. -/
def State.headDated (s : State) : State := if s.stp.calWritten then s.headEntered else s.headEntered.wr Reg.STP_STATUS_CAL_VALID 0

theorem headDated_parts (s : State) : s.headDated.stp = s.headEntered.stp ∧ s.headDated.now = s.headEntered.now := by
  unfold State.headDated
  split
  · exact ⟨rfl, rfl⟩
  · exact ⟨State.wr_stp .., State.wr_now ..⟩

theorem headDated_shows (s : State) : s.headDated.stpState = 2 ∧ s.headDated.hop = 0 ∧ s.headDated.headUid = s.uid := by
  obtain ⟨hstate, hhop, huid⟩ := headEntered_shows s
  unfold State.headDated
  split
  · exact ⟨hstate, hhop, huid⟩
  · rw [State.stpState, State.hop, headUid_wr (by decide) (by decide), rd_wr_apart (by decide), rd_wr_apart (by decide)]
    exact ⟨hstate, hhop, huid⟩

theorem toHead_eq (s : State) :
    s.toHead = s.headDated.modStp fun x => { x with slew := 0, established := true, healing := false, lockRun := 0 } := rfl

/-- HEAD is entered with the device's time going on. -/
theorem toHead_steepleFrac (s : State) : s.toHead.steepleFrac = s.steepleFrac := by
  obtain ⟨hstp, hnow⟩ := headDated_parts s
  rw [toHead_eq, steepleFrac_fixed]
  · rw [State.modStp_stp, hstp, headEntered_stp]
    rfl
  · rw [State.modStp_stp, State.modStp_now, hstp, hnow, headEntered_stp, headEntered_now]
    rfl

theorem toHead_spec (s : State) : s.toHead.stpState = 2 ∧ s.toHead.hop = 0 ∧ s.toHead.headUid = s.uid ∧ s.toHead.steepleFrac = s.steepleFrac ∧
    s.toHead.stp.established = true := by
  obtain ⟨hstate, hhop, huid⟩ := headDated_shows s
  refine ⟨?_, ?_, ?_, toHead_steepleFrac s, rfl⟩ <;> rw [toHead_eq]
  · exact hstate
  · exact hhop
  · exact huid

/-! ### References (R339) -/

/-- The distance from the nearest second takes the time to it. -/
theorem add_secondError (t : Int) : (t + secondError t) % 65536000000000 = 0 := by
  unfold secondError
  extract_lets sec r
  have hsec : sec = 65536000000000 := rfl
  have hr : r = t % 65536000000000 := rfl
  rw [hsec, hr]
  split <;> omega

theorem usesPps_iff (s : State) :
    s.usesPps = true ↔ s.stpState = 2 ∧ s.stp.healing = false ∧ (s.force Reg.STP_CFG_REF).testBit 0 = true := by
  simp [State.usesPps, stpHead, and_assoc]

theorem uses10m_iff (s : State) : s.uses10m = true ↔ s.stpState = 2 ∧ (s.force Reg.STP_CFG_REF).testBit 1 = true := by
  simp [State.uses10m, stpHead]

/-- An edge is accepted: the second is aligned to it. -/
def State.aligned (s : State) : State :=
  ((s.modStp fun x => { x with ppsAt := some s.now }).wr Reg.STP_STATUS_REF_PPS_LOCK 1).stepTime (secondError s.steepleFrac)

theorem ppsEdge_unused {s : State} (h : s.usesPps = false) : s.ppsEdge = s := if_pos (by rw [h]; rfl)

theorem ppsEdge_eq {s : State} (h : s.usesPps = true) : s.ppsEdge =
    if s.rd Reg.STP_STATUS_REF_PPS_LOCK = 1 ∧ 6553600 < (secondError s.steepleFrac).natAbs then s
    else if s.rd Reg.STP_STATUS_REF_PPS_LOCK = 1 ∨ s.openTakes = [] ∨ (secondError s.steepleFrac).natAbs ≤ 327680 then s.aligned
    else (s.modStp fun x => { x with ppsAt := some s.now }).slewBy (secondError s.steepleFrac) := by
  simp [State.ppsEdge, h, State.aligned, or_assoc]

theorem aligned_spec (s : State) : s.aligned.rd Reg.STP_STATUS_REF_PPS_LOCK = 1 ∧ s.aligned.stp.ppsAt = some s.now ∧
    s.aligned.steepleFrac = s.steepleFrac + secondError s.steepleFrac ∧ s.aligned.steepleFrac % 65536000000000 = 0 := by
  have hfrac : s.aligned.steepleFrac = s.steepleFrac + secondError s.steepleFrac := stepTime_steepleFrac _ _
  refine ⟨rd_wr_fits (s := s.modStp fun x => { x with ppsAt := some s.now }) (by decide) (by decide), rfl, hfrac, ?_⟩
  rw [hfrac, add_secondError]

theorem ppsLoss_none {s : State} (h : s.stp.ppsAt = none ∨ s.rd Reg.STP_STATUS_REF_PPS_LOCK ≠ 1) : s.ppsLoss = s := by
  unfold State.ppsLoss
  split
  next t ht => exact if_neg fun hc => h.elim (fun hnone => nomatch ht.symm.trans hnone) fun hlock => hlock hc.1
  · rfl

theorem ppsLoss_some {s : State} {at1 : Nat} (h : s.stp.ppsAt = some at1) : s.ppsLoss =
    if s.rd Reg.STP_STATUS_REF_PPS_LOCK = 1 ∧ at1 + 1100000000 ≤ s.now then
      ((s.wr Reg.STP_STATUS_REF_PPS_LOCK 0).modStp fun x => { x with ppsAt := none }).raise 1766
    else s := by
  unfold State.ppsLoss
  rw [h]

/-! ### The calendar (R340) -/

/-- A state that differs from another in its registers and its Steeple block alone. -/
def OnlySteeple (s t : State) : Prop := ∃ regs stp, t = { s with regs := regs, stp := stp }

namespace OnlySteeple

theorem refl (s : State) : OnlySteeple s s := ⟨_, _, rfl⟩

section
variable {s t : State} (h : OnlySteeple s t)
include h

theorem eq : t = { s with regs := t.regs, stp := t.stp } := by
  obtain ⟨regs, stp, rfl⟩ := h
  rfl

theorem wr {f : Field} {v : Nat} : OnlySteeple s (t.wr f v) := by
  obtain ⟨regs, stp, rfl⟩ := h
  exact ⟨_, _, rfl⟩

theorem wr64 {lo hi v : Nat} : OnlySteeple s (t.wr64 lo hi v) := by
  obtain ⟨regs, stp, rfl⟩ := h
  exact ⟨_, _, rfl⟩

theorem modStp {f : Stp → Stp} : OnlySteeple s (t.modStp f) := by
  obtain ⟨regs, stp, rfl⟩ := h
  exact ⟨_, _, rfl⟩

end

theorem installCal (s : State) (offset utc valid : Nat) : OnlySteeple s (s.installCal offset utc valid) := by
  unfold State.installCal
  exact (refl s).wr64.wr.wr.wr.modStp

end OnlySteeple

theorem calWrite_head {s : State} (data : Word) (h : s.stpState = 2) : s.calWrite data =
    (s.installCal s.stp.calStaged (bitsOf data 0 7) (bitsOf data 31 1)).modStp fun x => { x with calWritten := true } := if_pos h

theorem calWrite_other {s : State} (data : Word) (h : s.stpState ≠ 2) : s.calWrite data = s := if_neg h

theorem calWrite_stp {s : State} (data : Word) (h : s.stpState = 2) : (s.calWrite data).stp = { s.stp with calWritten := true } := by
  rw [calWrite_head data h, State.modStp_stp, installCal_stp]

theorem calWrite_frame {s : State} (data : Word) (h : s.stpState = 2) :
    s.calWrite data = { s with regs := (s.calWrite data).regs, stp := (s.calWrite data).stp } := by
  rw [calWrite_head data h]
  exact (OnlySteeple.installCal ..).modStp.eq

theorem calWrite_rd64 {s : State} (data : Word) (h : s.stpState = 2) : (s.calWrite data).rd64 Reg.STP_CAL_LO Reg.STP_CAL_HI = s.stp.calStaged % 2 ^ 64 := by
  rw [calWrite_head data h, rd64_modStp, installCal_rd64]

theorem calWrite_rd {s : State} (data : Word) (h : s.stpState = 2) : (s.calWrite data).rd Reg.STP_CAL_CTL_UTC_OFFSET = bitsOf data 0 7 ∧
    (s.calWrite data).rd Reg.STP_CAL_CTL_VALID = bitsOf data 31 1 ∧ (s.calWrite data).rd Reg.STP_STATUS_CAL_VALID = bitsOf data 31 1 := by
  rw [calWrite_head data h, State.modStp_rd, State.modStp_rd, State.modStp_rd]
  exact installCal_rd (bitsOf_lt data 0 7) (bitsOf_lt data 31 1)

/-! ### Broadcasts repeated (R341) -/

theorem castOne_passed {s : State} {c : Cast} (hcount : 3 ≤ c.count) (htime : c.time ≤ s.steepleTime) :
    s.castOne c = s.modStp fun x => { x with casts := x.casts.filter fun y => y != c } := if_pos ⟨hcount, htime⟩

/-- A broadcast goes out once more. -/
def State.castAgain (s : State) (c : Cast) : State :=
  (s.send 1 c.ty (if c.count < 3 then 0 else 2) s.hop c.pay).modStp fun x => { x with
    casts := x.casts.map fun y => if y == c then { y with sentAt := s.now, count := y.count + 1 } else y }

theorem castAgain_spec {s : State} {c : Cast} (hcast : s.stp.casts = [c]) :
    (s.castAgain c).stp.casts = [{ c with sentAt := s.now, count := c.count + 1 }] ∧ (s.castAgain c).stp.sent = s.stp.sent ++
      [(1, stpBytes c.ty (mapGet (fun _ => 0) s.stp.txSeq 1) s.hop (if c.count < 3 then 0 else 2) c.pay)] := by
  have hcasts : (s.castAgain c).stp.casts = s.stp.casts.map fun y => if y == c then { y with sentAt := s.now, count := y.count + 1 } else y := rfl
  rw [hcasts, hcast]
  exact ⟨by simp, rfl⟩

theorem castOne_waiting {s : State} {c : Cast} (h : ¬(3 ≤ c.count ∧ c.time ≤ s.steepleTime)) : s.castOne c =
    if c.sentAt + (if c.count < 3 then 20000 else 100000000) ≤ s.now then s.castAgain c else s := if_neg h

/-! ### What the instructions do while the main domain runs -/

/-- With the main domain down nothing of this happens. -/
theorem exec_mainDown {s : State} (hmain : s.mainUp = false) : ∀ i ∈ [Instr.stpUpLockAcquired, .stpDnLockAcquired, .stpUpLockLost 0, .stpDnLockLost 0,
    .stpBroadcastRepeat, .stpAcquireTimeout, .stpSlewComplete, .stpRefPpsEdge, .stpRefPpsLoss, .stpRef10mLoss, .stpCalCtlWrite 4 0, .stpRef10mLock,
    .stpMemberTimeout], exec i s = .next s := by
  have halone {t : State} : Host.Outcome.next (if s.mainUp = true then t else s) = (.next s : Host.Outcome State Fault Refusal) := by simp [hmain]
  have hwith {c : Bool} {t : State} : Host.Outcome.next (if (s.mainUp && c) = true then t else s) = (.next s : Host.Outcome State Fault Refusal) := by
    simp [hmain]
  simp only [List.forall_mem_cons]
  exact ⟨hwith, hwith, halone, halone, hwith, halone, halone, halone, halone, hwith, halone, hwith, halone, fun _ h => absurd h List.not_mem_nil⟩

section
variable {s : State}

theorem exec_stpUpLockAcquired (hmain : s.mainUp = true) (hup : s.stpUp = true) :
    exec .stpUpLockAcquired s = .next (s.wr Reg.STP_STATUS_UP_LOCK 1) := congrArg Host.Outcome.next (if_pos (by rw [hmain, hup]; rfl))
theorem exec_stpUpLockAcquired_unused (hup : s.stpUp = false) : exec .stpUpLockAcquired s = .next s :=
  congrArg Host.Outcome.next (if_neg (by simp [hup]))
theorem exec_stpDnLockAcquired (hmain : s.mainUp = true) (hports : s.stpPorts = true) :
    exec .stpDnLockAcquired s = .next (s.wr Reg.STP_STATUS_DN_LOCK 1) := congrArg Host.Outcome.next (if_pos (by rw [hmain, hports]; rfl))
theorem exec_stpDnLockAcquired_unused (hports : s.stpPorts = false) : exec .stpDnLockAcquired s = .next s :=
  congrArg Host.Outcome.next (if_neg (by simp [hports]))
theorem exec_stpBroadcastRepeat_none (h : s.stpPorts = false ∨ s.stp.casts = []) : exec .stpBroadcastRepeat s = .next s := by
  refine congrArg Host.Outcome.next ?_
  rcases h with h | h <;> simp [h]

section
variable (hmain : s.mainUp = true)
include hmain

theorem exec_stpUpLockLost (v : Nat) : exec (.stpUpLockLost v) s = .next (s.errored v).upLost.settleDma := congrArg Host.Outcome.next (if_pos hmain)
theorem exec_stpDnLockLost (v : Nat) : exec (.stpDnLockLost v) s = .next (s.errored v).dnLost.settleDma := congrArg Host.Outcome.next (if_pos hmain)
theorem exec_stpSlewComplete : exec .stpSlewComplete s = .next s.slewDone := congrArg Host.Outcome.next (if_pos hmain)
theorem exec_stpAcquireTimeout : exec .stpAcquireTimeout s = .next s.acquireTimeout := congrArg Host.Outcome.next (if_pos hmain)
theorem exec_stpRefPpsEdge : exec .stpRefPpsEdge s = .next s.ppsEdge := congrArg Host.Outcome.next (if_pos hmain)
theorem exec_stpRefPpsLoss : exec .stpRefPpsLoss s = .next s.ppsLoss := congrArg Host.Outcome.next (if_pos hmain)
theorem exec_stpCalCtlWrite (a : Fin 8) (data : Word) : exec (.stpCalCtlWrite a data) s = .next (s.calWrite data) :=
  congrArg Host.Outcome.next (if_pos hmain)
theorem exec_stpMemberTimeout : exec .stpMemberTimeout s = .next s.countMembers := congrArg Host.Outcome.next (if_pos hmain)

theorem exec_stpRef10mLock (h : s.uses10m = true) : exec .stpRef10mLock s = .next (s.wr Reg.STP_STATUS_REF_10M_LOCK 1) :=
  congrArg Host.Outcome.next (if_pos (by rw [hmain, h]; rfl))
theorem exec_stpRef10mLoss (h : s.rd Reg.STP_STATUS_REF_10M_LOCK = 1) :
    exec .stpRef10mLoss s = .next ((s.wr Reg.STP_STATUS_REF_10M_LOCK 0).raise 1766) := congrArg Host.Outcome.next (if_pos (by simp [hmain, h]))

/-- The one broadcast a head repeats. -/
theorem exec_stpBroadcastRepeat {c : Cast} (hports : s.stpPorts = true) (hcast : s.stp.casts = [c]) :
    exec .stpBroadcastRepeat s = .next (s.castOne c) := by
  have hrun : exec .stpBroadcastRepeat s = .next (s.stp.casts.foldl State.castOne s) :=
    congrArg Host.Outcome.next (if_pos (by rw [hmain, hports]; rfl))
  rw [hrun, hcast, List.foldl_cons, List.foldl_nil]

end

theorem exec_stpRef10mLock_unused (h : s.uses10m = false) : exec .stpRef10mLock s = .next s := congrArg Host.Outcome.next (if_neg (by simp [h]))
theorem exec_stpRef10mLoss_none (h : s.rd Reg.STP_STATUS_REF_10M_LOCK = 0) : exec .stpRef10mLoss s = .next s :=
  congrArg Host.Outcome.next (if_neg (by simp [h]))

end

end Sys2Proof.Machine

open Sys2Proof
open Sys2Proof.Machine

/-- Settles O58: a chain record leaves the Steeple block as it was (`ChainKept.chainRecord`), so what a break or a loss shows is what its own steps wrote;
the rest is said by the lemmas of each operation. -/
theorem steepleLocksStatesAndReferences : Obligations.SteepleLocksStatesAndReferences := by
  unfold Obligations.SteepleLocksStatesAndReferences
  intro s st locks
  refine ⟨exec_mainDown, rfl, fun ⟨hmain, hup⟩ => ?_, exec_stpUpLockAcquired_unused, fun ⟨hmain, hports⟩ => ?_, exec_stpDnLockAcquired_unused,
    fun hmain => ⟨fun v => ?_, fun h => ?_, fun hslew hend => ?_, ?_, ?_, fun a data => ?_, exec_stpBroadcastRepeat_none, fun c hports hcast => ?_, ?_⟩⟩
  · exact ⟨_, exec_stpUpLockAcquired hmain hup, rd_wr_fits (by decide) (by decide), rfl⟩
  · exact ⟨_, exec_stpDnLockAcquired hmain hports, rd_wr_fits (by decide) (by decide), rfl⟩
  case' refine_3 =>
    have hstate : (s.errored v).stpState = st := errored_rd (by decide)
    have herrors : (s.errored v).rd Reg.STP_ERR_CODE_ERR = min (2 ^ Reg.STP_ERR_CODE_ERR.width - 1) (s.rd Reg.STP_ERR_CODE_ERR + v) := rd_bumpBy (by decide)
    have hbreaks : (s.errored v).rd Reg.STP_COUNT_BREAKS = s.rd Reg.STP_COUNT_BREAKS := errored_rd (by decide)
    have hup : (s.errored v).rd Reg.STP_STATUS_UP_LOCK = s.rd Reg.STP_STATUS_UP_LOCK := errored_rd (by decide)
    have hdn : (s.errored v).rd Reg.STP_STATUS_DN_LOCK = s.rd Reg.STP_STATUS_DN_LOCK := errored_rd (by decide)
    obtain ⟨hdnState, hdnTime⟩ := dnLost_keeps (s := s.errored v)
    refine ⟨_, _, exec_stpUpLockLost hmain v, exec_stpDnLockLost hmain v, ?_, fun h => ?_, fun h => ?_, hdnState.trans hstate, hdnTime,
      fun h => ?_, fun h => dnLost_clears (hdn.trans h)⟩
  · rw [← herrors]
    by_cases hlock : (s.errored v).rd Reg.STP_STATUS_UP_LOCK = 0
    · rw [upLost_unlocked hlock]
    · obtain ⟨-, -, -, -, hcounted⟩ := upLost_clears (rd_eq_one rfl hlock)
      exact hcounted
  · rw [upLost_unlocked (hup.trans h)]
    exact ⟨rfl, hstate⟩
  · have hlock := hup.trans h
    obtain ⟨hcleared, hcal, hdelays, hstatus, -⟩ := upLost_clears hlock
    refine ⟨hcleared, hcal, hdelays, hstatus, fun hst => ?_, fun hst => ⟨?_, fun hhealing => ⟨?_, ?_⟩⟩⟩
    · obtain ⟨hheld, huid, hraised, hunc, hat, hslew, htime, hcount⟩ := upLost_breaks hlock (hstate ▸ hst)
      exact ⟨hheld, huid, hraised, hunc.trans (errored_stpUnc s v), hat, hslew, htime, hbreaks ▸ hcount⟩
    · refine (upLost_other_rd hlock (by omega) (by decide) (by decide) (by decide)).trans ((upCleared_rd (by decide) (by decide)).trans hstate)
    · exact (upLost_other_stp hlock (by omega)).2
    · obtain ⟨huid, hhop⟩ := upLost_other_head hlock hhealing
      exact ⟨fun h => huid (hstate ▸ h), fun h => hhop (hstate ▸ h)⟩
  · rw [dnLost_unlocked (hdn.trans h)]
    rfl
  · rw [exec_stpSlewComplete hmain, slewDone_none h]
  · exact ⟨_, (exec_stpSlewComplete hmain).trans (congrArg _ (slewDone_done hslew hend)), rfl, steepleFrac_rebase_modStp s rfl rfl, rfl⟩
  · intro heard
    have hheard : heard = s.heardAt := rfl
    clear_value heard
    subst hheard
    refine ⟨fun h => ?_, fun hst hrole hdue => ⟨s.toHead, ?_, toHead_spec s⟩⟩
    · rw [exec_stpAcquireTimeout hmain, acquireTimeout_eq, if_neg (by omega)]
    · rw [exec_stpAcquireTimeout hmain, acquireTimeout_eq, if_pos ⟨hst, hrole, hdue⟩]
  · intro pps ten e
    have hpps : s.usesPps = true ↔ pps := usesPps_iff s
    have hten : s.uses10m = true ↔ ten := uses10m_iff s
    clear_value pps ten
    rw [← hpps, ← hten, exec_stpRefPpsEdge hmain, exec_stpRefPpsLoss hmain]
    refine ⟨fun h => ?_, fun h hlock hfar => ?_, fun h haccepted => ⟨_, ?_, aligned_spec s⟩, fun h hlock hopen hfar => ?_, fun h => ?_,
      fun at1 hat => ⟨fun h => ?_, fun hlock hdue => ?_⟩, fun h => ?_, fun h => ?_, fun h => ?_, exec_stpRef10mLoss_none⟩
    · rw [ppsEdge_unused (Bool.eq_false_iff.mpr h)]
    · rw [ppsEdge_eq h, if_pos ⟨hlock, hfar⟩]
    · rw [ppsEdge_eq h, if_neg (by omega), if_pos (by tauto)]
    · refine ⟨_, congrArg _ ((ppsEdge_eq h).trans ((if_neg (by omega)).trans (if_neg ?_))), hlock, slewBy_steepleFrac _ _, rfl, rfl⟩
      rintro (hlocked | hclosed | hnear)
      · omega
      · exact hopen hclosed
      · exact absurd hnear (Nat.not_le.mpr hfar)
    · rw [ppsLoss_none h]
    · rw [ppsLoss_some hat, if_neg (by omega)]
    · refine ⟨_, congrArg _ ((ppsLoss_some hat).trans (if_pos ⟨hlock, hdue⟩)), ?_, ?_, raise_status _ _⟩
      · rw [raise_rd (by decide), State.modStp_rd, rd_wr_fits (by decide) (by decide)]
      · rw [raise_stp]
        rfl
    · exact ⟨_, exec_stpRef10mLock hmain h, rd_wr_fits (by decide) (by decide), rfl⟩
    · exact exec_stpRef10mLock_unused (Bool.eq_false_iff.mpr h)
    · refine ⟨_, exec_stpRef10mLoss hmain h, ?_, raise_status _ _⟩
      rw [raise_rd (by decide), rd_wr_fits (by decide) (by decide)]
  · rw [exec_stpCalCtlWrite hmain]
    refine ⟨fun h => by rw [calWrite_other data h], fun h => ?_⟩
    obtain ⟨hutc, hvalid, hshown⟩ := calWrite_rd data h
    exact ⟨_, rfl, calWrite_rd64 data h, hutc, hvalid, hshown, calWrite_stp data h, calWrite_frame data h⟩
  · rw [exec_stpBroadcastRepeat hmain hports hcast]
    obtain ⟨hcasts, hsent⟩ := castAgain_spec hcast
    refine ⟨fun hcount htime => ?_, fun h => ⟨_, congrArg _ ?_, hcasts, hsent⟩, fun h => ?_⟩
    · rw [castOne_passed hcount htime]
      exact ⟨_, rfl, by simp [hcast], rfl⟩
    · rw [castOne_waiting (by omega), if_pos (by split <;> omega)]
    · rw [castOne_waiting (by omega), if_neg (by split <;> omega)]
  · exact ⟨_, exec_stpMemberTimeout hmain, countMembers_stp s, countMembers_count s, countMembers_raises⟩

end

section
/-!
PROOFS. Scope: the thirteen ALU words of a Sleeve (13 R464, R466, R468, Table 13.4; log entry 30).
-/
namespace Sys2Proof.Machine

/-- A shift by more than 32 is no case of its own: the shift of the word type leaves 0 there too, and the carry says its bound (log entry 30). -/
theorem aluShl_eq (a : Word) (k : Nat) : aluShl a k = (a <<< k, decide (k ≠ 0) && decide (k ≤ 32) && a.getLsbD (32 - k)) := by
  unfold aluShl
  split
  · next h => simp [BitVec.shiftLeft_eq_zero h.le, Nat.not_le.mpr h]
  · next h => simp [Nat.not_lt.mp h, bne, beq_eq_decide]

theorem aluShr_eq (a : Word) (k : Nat) : aluShr a k = (a >>> k, decide (k ≠ 0) && decide (k ≤ 32) && a.getLsbD (k - 1)) := by
  unfold aluShr
  split
  · next h => simp [BitVec.ushiftRight_eq_zero h.le, Nat.not_le.mpr h]
  · next h => simp [Nat.not_lt.mp h, bne, beq_eq_decide]

/-- An ALU word whose operation comes to this result and carry. -/
theorem alu_ran_of {s : State} {i : Nat} {r : OpRec} {w : CtlWord} (h : Safety.wordNext s i r w 8) {sub : Nat} (hs : w.subop = sub)
    {imm write carry : Bool} {f : Word → Word → Word × Bool} {c : Instr} {res : Word} (hc : exec c s = .next (s.alu i sub imm write f))
    (hf : f (r.v w.sa) (if imm then w.imm32 else r.v w.sb) = (res, carry)) : Safety.aluRan s i r w c write res carry := by
  have hran := alu_ran h hs hc
  rwa [hf] at hran

end Sys2Proof.Machine

open Sys2Proof
open Sys2Proof.Machine

/-- Settles O25: each word is `State.alu` with its own operation (`alu_ran`); the two shifts are those of the word type. -/
theorem aluWordsCompute : Obligations.AluWordsCompute := by
  unfold Obligations.AluWordsCompute
  intro i s r w h
  exact ⟨fun hs => alu_ran_of h hs rfl rfl, fun hs => alu_ran_of h hs rfl rfl, fun hs => alu_ran_of h hs rfl rfl,
    fun hs => alu_ran_of h hs rfl rfl, fun hs => alu_ran_of h hs rfl rfl, fun hs => alu_ran_of h hs rfl rfl, fun hs => alu_ran_of h hs rfl rfl,
    fun hs => alu_ran_of h hs rfl (aluShl_eq _ _), fun hs => alu_ran_of h hs rfl (aluShr_eq _ _), fun hs => alu_ran_of h hs rfl rfl,
    fun hs => alu_ran_of h hs rfl rfl, fun hs => alu_ran_of h hs rfl rfl, fun hs => alu_ran_of h hs rfl rfl⟩

end

section
/-!
PROOFS. Scope: what the issue of a word leaves as it was, faults taken and records bound, in the form the words of a Sleeve are proved with
(13 R466 to R474).
-/
namespace Sys2Proof.Machine

/-! ### What a record's change and the issue of a word leave as they were -/

theorem opRec_modSleeve {s : State} {i : Nat} {f : Sleeve → Sleeve} (h : (f (s.sleeve i)).recs = (s.sleeve i).recs) (j k : Nat) :
    (s.modSleeve i f).opRec j k = s.opRec j k := by
  rw [State.opRec, sleeve_modSleeve]
  split
  · next hj => rw [h, hj, State.opRec]
  · rfl

theorem faultEntry_modRec (s : State) (i id : Nat) (f : OpRec → OpRec) :
    ((s.modRec i id f).sleeve i).faultEntry = (s.sleeve i).faultEntry := by
  rw [(modRec_frame s i id f).2.2]

section
variable {s : State} {i : Nat} {r : OpRec} {w : CtlWord} {op : Nat}

theorem wordNext_rec (h : Safety.wordNext s i r w op) : s.opRec i r.desc.id = some r := by
  obtain ⟨-, -, hrec, -⟩ := h
  exact hrec

theorem wordNext_op (h : Safety.wordNext s i r w op) : w.op = op := by
  obtain ⟨-, -, -, -, -, -, hop⟩ := h
  exact hop

/-- What goes past a word: the address, the time it goes on, the array's state and what depends on it. -/
theorem afterIssue_eq (r : OpRec) (w : CtlWord) (now : Nat) : ∃ busy begun confirm suspended paused since, Safety.afterIssue r w now =
    { r with
      pc := (r.pc + 1) % 8192, readyAt := 4 * now + 5 * w.cyc, arrayBusy := busy, begun := begun, confirmAt := confirm, suspended := suspended,
      wdogPaused := paused, wdogFrom := since } := by
  unfold Safety.afterIssue
  dsimp only
  split
  · exact ⟨_, _, _, _, _, _, rfl⟩
  · split
    · exact ⟨_, _, _, _, _, _, rfl⟩
    · exact ⟨_, _, _, _, _, _, rfl⟩

theorem issued_outside (h : Safety.wordNext s i r w op) : s.issued i r w = { s with slv := (s.issued i r w).slv } :=
  (issued_rec w (wordNext_rec h)).2.2.2

theorem issued_now (h : Safety.wordNext s i r w op) : (s.issued i r w).now = s.now := by rw [issued_outside h]

theorem issued_rd (h : Safety.wordNext s i r w op) (f : Field) : (s.issued i r w).rd f = s.rd f := by rw [issued_outside h]; rfl

theorem issued_lnk (h : Safety.wordNext s i r w op) (n : Nat) : (s.issued i r w).lnk n = s.lnk n := by rw [issued_outside h]; rfl

theorem issued_patch (s : State) (i : Nat) (r : OpRec) (w : CtlWord) : (s.issued i r w).slv.patch = s.slv.patch := by
  simp only [State.issued]
  repeat' split
  all_goals rfl

theorem issued_scratchByte (s : State) (i : Nat) (r : OpRec) (w : CtlWord) (a : Nat) : (s.issued i r w).scratchByte i a = s.scratchByte i a := by
  obtain ⟨_, _, _, hsleeve⟩ := issued_sleeve s i r w
  rw [State.scratchByte, hsleeve, State.scratchByte]

theorem issued_live (s : State) (i : Nat) (r : OpRec) (w : CtlWord) (a : Nat) : ((s.issued i r w).sleeve i).live a = (s.sleeve i).live a := by
  obtain ⟨_, _, _, hsleeve⟩ := issued_sleeve s i r w
  rw [hsleeve]
  rfl

theorem issued_queue (s : State) (i : Nat) (r : OpRec) (w : CtlWord) : ((s.issued i r w).sleeve i).queue = (s.sleeve i).queue := by
  obtain ⟨_, _, _, hsleeve⟩ := issued_sleeve s i r w
  rw [hsleeve]

theorem issued_xover (s : State) (i : Nat) (r : OpRec) (w : CtlWord) : ((s.issued i r w).sleeve i).xover = (s.sleeve i).xover := by
  obtain ⟨_, _, _, hsleeve⟩ := issued_sleeve s i r w
  rw [hsleeve]

theorem issued_faultEntry (s : State) (i : Nat) (r : OpRec) (w : CtlWord) :
    ((s.issued i r w).sleeve i).faultEntry = (s.sleeve i).faultEntry := by
  obtain ⟨_, _, _, hsleeve⟩ := issued_sleeve s i r w
  rw [hsleeve]

/-- The command of the word that issues runs the word on the state past its issue. -/
theorem exec_issue (h : Safety.wordNext s i r w op) {sub : Nat} (hs : sub = 16 ∨ w.subop = sub) {c : Instr} {f : State → OpRec → CtlWord → State}
    (hc : exec c s = .next (s.issue i op sub f)) : exec c s = .next (f (s.issued i r w) r w) := by
  rw [hc, issue_run h sub hs]

end

/-! ### Faults (13 R472 to R474) -/

/-- The state after record r of s has taken a fault: `Safety.faultRan` without the command that made it. -/
def FaultTaken (s : State) (i : Nat) (r : OpRec) (code : Nat) (t : State) : Prop :=
  ∃ x, t.opRec i r.desc.id = some x ∧ x.faultCode = code ∧
    (r.handler = false → x.handler = true ∧ x.faultPc = r.pc ∧ x.pc = (s.sleeve i).faultEntry ∧ t.rd (Reg.SLV_FAULT_CODE i) = code ∧
      t.evtStatus (1024 + 8 * i) = true) ∧
    (r.handler = true → x.ended = true ∧ x.report = some (1, BitVec.ofNat 32 code) ∧ (t.die r.desc.link r.desc.die).needsReset = true)

theorem FaultTaken.ran {s t : State} {i : Nat} {r : OpRec} {code : Nat} {c : Instr} (h : FaultTaken s i r code t) (hc : exec c s = .next t) :
    Safety.faultRan s i r c code := by
  obtain ⟨x, hx⟩ := h
  exact ⟨t, x, hc, hx⟩

/-- `takeFault` on a state in which the record has gone on without ending or entering its handler. -/
theorem takeFault_taken {s u : State} {i : Nat} {r y : OpRec} {code : Nat} (hrec : u.opRec i r.desc.id = some y) (hdesc : y.desc = r.desc)
    (hhandler : y.handler = r.handler) (hended : y.ended = false) (hentry : (u.sleeve i).faultEntry = (s.sleeve i).faultEntry) (hcode : code < 256) :
    FaultTaken s i r code (u.takeFault i r.desc.id code r.pc) := by
  rw [← hdesc] at hrec
  have htaken := takeFault_spec code r.pc hrec hended hcode
  rwa [hhandler, hdesc, hentry] at htaken

theorem wordFault_taken {s : State} {i : Nat} {r : OpRec} {w : CtlWord} {op : Nat} (h : Safety.wordNext s i r w op) {code : Nat} (hcode : code < 256) :
    FaultTaken s i r code ((s.issued i r w).wordFault i r code) := by
  obtain ⟨hended, hhandler⟩ := afterIssue_live r w s.now
  exact takeFault_taken (issued_rec w (wordNext_rec h)).1 (afterIssue_desc r w s.now) hhandler (hended.trans (wordNext_live h).1)
    (issued_faultEntry s i r w) hcode

/-- A register field apart from SLV_FAULT.CODE and the event's status may change. -/
theorem FaultTaken.wr {s t : State} {i : Nat} {r : OpRec} {code : Nat} (h : FaultTaken s i r code t) {f : Field} (v : Nat)
    (hcode : Reg.SLV_FAULT i ≠ f.off) (hstatus : statusOff (1024 + 8 * i) ≠ f.off) : FaultTaken s i r code (t.wr f v) := by
  obtain ⟨x, hrec, hfault, hfirst, hsecond⟩ := h
  refine ⟨x, hrec, hfault, fun g => ?_, hsecond⟩
  obtain ⟨hhandler, hpc, hentry, hread, hraised⟩ := hfirst g
  exact ⟨hhandler, hpc, hentry, (rd_wr_off hcode).trans hread, (evtStatus_wr hstatus).trans hraised⟩

/-! ### Binding -/

theorem bindAll_find? {ids : List Nat} {k : Nat} (h : k ∉ ids) (x : Sleeve) :
    (bindAll ids x).recs.find? (fun r => r.desc.id == k) = x.recs.find? fun r => r.desc.id == k := by
  induction ids generalizing x with
  | nil => rfl
  | cons id ids ih =>
    obtain ⟨hid, hids⟩ : k ≠ id ∧ k ∉ ids := by simpa using h
    unfold bindAll
    split
    · exact ih hids x
    · split
      · exact ih hids x
      · next c _ =>
        rw [ih hids, find?_map_id (fun o => by split <;> rfl)]
        cases hr : x.recs.find? fun r => r.desc.id == k with
        | none => rfl
        | some r =>
          have hk : r.desc.id = k := by simpa using List.find?_some hr
          simp [hk, hid]

/-- A record that is not ready is not bound. -/
theorem opRec_bind_of_not_ready {s : State} {i k : Nat} (h : ∀ r ∈ (s.sleeve i).recs, r.desc.id = k → r.ready = false) :
    (s.bind i).opRec i k = s.opRec i k := by
  rw [State.opRec, State.bind, sleeve_modSleeve, if_pos rfl]
  refine bindAll_find? (fun hk => ?_) _
  obtain ⟨r, hr, hid⟩ := List.mem_map.mp hk
  obtain ⟨hmem, hwant⟩ := List.mem_filter.mp (mem_sortByKey hr)
  rw [h r hmem hid] at hwant
  exact Bool.false_ne_true hwant

theorem patchGo_of_none {s : State} (h : s.slv.patch = none) : s.patchGo = s := by
  rw [State.patchGo, State.patchStep, h]

end Sys2Proof.Machine

end

section
/-!
PROOFS. Scope: the words that read and write memory, branch, report, suspend, decode, trap and end (13 Tables 13.4 and 13.5, R464, R473 to R476).
-/
namespace Sys2Proof.Machine

/-! ### Scratch -/

theorem mapGet_foldl_mapSet {V : Type} [DecidableEq V] {d : Nat → V} (g : Nat → V) (a j n : Nat) (m : SMap V) :
    mapGet d ((List.range n).foldl (fun m k => mapSet d m (a + k) (g k)) m) j = if a ≤ j ∧ j < a + n then g (j - a) else mapGet d m j := by
  induction n with
  | zero => rw [if_neg (by omega)]; rfl
  | succ n ih =>
    rw [List.range_succ, List.foldl_append, List.foldl_cons, List.foldl_nil, mapGet_mapSet, ih]
    by_cases hj : j = a + n
    · rw [if_pos hj, if_pos (by omega), hj, Nat.add_sub_cancel_left]
    · simp only [if_neg hj, show (a ≤ j ∧ j < a + (n + 1)) ↔ a ≤ j ∧ j < a + n by omega]

theorem scratchByte_setScratch (s : State) (i a : Nat) (b : List Byte) (j : Nat) :
    (s.setScratch i a b).scratchByte i j = if a ≤ j ∧ j < a + b.length then b.getD (j - a) 0 else s.scratchByte i j := by
  rw [State.scratchByte, State.setScratch, sleeve_modSleeve, if_pos rfl]
  exact mapGet_foldl_mapSet (fun k => b.getD k 0) a j b.length _

theorem opRec_setScratch (s : State) (i a : Nat) (b : List Byte) (j k : Nat) : (s.setScratch i a b).opRec j k = s.opRec j k :=
  opRec_modSleeve rfl j k

section
variable {s : State} {i : Nat} {r : OpRec} {w : CtlWord} {op : Nat}

/-! ### Where a word's address lies in its memory (R473) -/

theorem loadPers_in (h : Safety.wordNext s i r w op) (ha : loadAddr r w + 4 ≤ (s.opPers r.desc.link).get 0x1E) :
    State.loadPers i (s.issued i r w) r w =
      State.setReg16 i (s.issued i r w) r w.dst (BitVec.ofNat 32 (leAt (s.opPers r.desc.link).ptable (loadAddr r w) 4)) := by
  simp [State.loadPers, issued_opPers w (wordNext_rec h), ha]

theorem loadPers_out (h : Safety.wordNext s i r w op) (ha : (s.opPers r.desc.link).get 0x1E < loadAddr r w + 4) :
    State.loadPers i (s.issued i r w) r w = (s.issued i r w).wordFault i r 9 := by
  simp [State.loadPers, issued_opPers w (wordNext_rec h), Nat.not_le.mpr ha]

theorem loadScratch_in (s : State) (i : Nat) (ha : loadAddr r w + 4 ≤ 16384) : State.loadScratch i (s.issued i r w) r w =
    State.setReg16 i (s.issued i r w) r w.dst
      (BitVec.ofNat 32 (leAt ((List.range 4).map fun k => s.scratchByte i (loadAddr r w + k)) 0 4)) := by
  simp only [State.loadScratch, inScratch, ha, issued_scratchByte, decide_true, if_true]

theorem loadScratch_out (t : State) (i : Nat) (ha : 16384 < loadAddr r w + 4) : State.loadScratch i t r w = t.wordFault i r 9 := by
  simp [State.loadScratch, inScratch, Nat.not_le.mpr ha]

theorem storeWord_in (t : State) (i : Nat) (ha : loadAddr r w + 4 ≤ 16384) :
    State.storeWord i t r w = t.setScratch i (loadAddr r w) (leBytes 4 (r.v w.sb).toNat) := by
  simp [State.storeWord, inScratch, ha]

theorem storeWord_out (t : State) (i : Nat) (ha : 16384 < loadAddr r w + 4) : State.storeWord i t r w = t.wordFault i r 9 := by
  simp [State.storeWord, inScratch, Nat.not_le.mpr ha]

/-- Every item of the context state puts some value at DST; a free value takes one from its source (log entry 30). -/
theorem loadCtx_eq (i : Nat) (t : State) (r : OpRec) (w : CtlWord) : ∃ fresh v, State.loadCtx i t r w =
    State.setReg16 i { t with fresh := fresh } r w.dst v := by
  unfold State.loadCtx
  dsimp only
  split
  iterate 6 exact ⟨t.fresh, _, rfl⟩
  exact ⟨t.fresh + 1, _, rfl⟩

theorem loadCtx_ran (h : Safety.wordNext s i r w op) {sub : Nat} (hs : w.subop = sub) {c : Instr}
    (hc : exec c s = .next (s.issue i op sub (State.loadCtx i))) {v : Word}
    (hload : State.loadCtx i (s.issued i r w) r w = State.setReg16 i (s.issued i r w) r w.dst v) :
    Safety.wordRan s i r c ((Safety.afterIssue r w s.now).setV w.dst v) :=
  word_ran (g := fun x => x.setV w.dst v) h (.inr hs) hc hload (by intro _; rfl)

/-! ### Branches -/

/-- A branch to a live address: the record goes on there. -/
theorem goTo_live {t : State} {y : OpRec} {a : Nat} (hrec : t.opRec i r.desc.id = some y) (honly : Safety.onlyRec s t i r.desc.id)
    (hlive : (t.sleeve i).live a = true) :
    (State.goTo i t r a).opRec i r.desc.id = some { y with pc := a } ∧ Safety.onlyRec s (State.goTo i t r a) i r.desc.id := by
  rw [State.goTo, if_pos hlive]
  exact ⟨opRec_modRec_same hrec (by intro _; rfl), onlyRec_trans honly (onlyRec_modRec (by intro _; rfl) t i r.desc.id)⟩

theorem goTo_dead {t : State} {a : Nat} (hlive : (t.sleeve i).live a = false) : State.goTo i t r a = t.wordFault i r 3 := by
  rw [State.goTo, hlive]
  rfl

theorem live_modRec (t : State) (i k : Nat) (f : OpRec → OpRec) (a : Nat) : ((t.modRec i k f).sleeve i).live a = (t.sleeve i).live a := by
  rw [(modRec_frame t i k f).2.2]
  rfl

theorem jumpWord_taken (h : Safety.wordNext s i r w op) (hcond : s.condHolds r w.cond = true) :
    State.jumpWord i (s.issued i r w) r w = State.goTo i (s.issued i r w) r w.target := by
  rw [State.jumpWord, issued_cond w (wordNext_rec h), if_pos hcond]

theorem jumpWord_passed (h : Safety.wordNext s i r w op) (hcond : s.condHolds r w.cond = false) :
    State.jumpWord i (s.issued i r w) r w = s.issued i r w := by
  rw [State.jumpWord, issued_cond w (wordNext_rec h), hcond]
  rfl

theorem callWord_room (h : Safety.wordNext s i r w op) (hcond : s.condHolds r w.cond = true) (hroom : r.stack.length < 4) :
    State.callWord i (s.issued i r w) r w = State.goTo i
      ((s.issued i r w).modRec i r.desc.id fun x => { x with stack := ((r.pc + 1) % 8192) :: x.stack }) r w.target := by
  simp [State.callWord, issued_cond w (wordNext_rec h), hcond, Nat.not_le.mpr hroom]

theorem callWord_full (h : Safety.wordNext s i r w op) (hcond : s.condHolds r w.cond = true) (hfull : 4 ≤ r.stack.length) :
    State.callWord i (s.issued i r w) r w = (s.issued i r w).wordFault i r 4 := by
  simp [State.callWord, issued_cond w (wordNext_rec h), hcond, hfull]

theorem returnWord_pops (h : Safety.wordNext s i r w op) (hcond : s.condHolds r w.cond = true) {a : Nat} {rest : List Nat}
    (hstack : r.stack = a :: rest) : State.returnWord i (s.issued i r w) r w = State.goTo i
      ((s.issued i r w).modRec i r.desc.id fun x => { x with stack := rest }) r a := by
  simp [State.returnWord, issued_cond w (wordNext_rec h), hcond, hstack]

theorem returnWord_empty (h : Safety.wordNext s i r w op) (hcond : s.condHolds r w.cond = true) (hstack : r.stack = []) :
    State.returnWord i (s.issued i r w) r w = (s.issued i r w).wordFault i r 4 := by
  simp [State.returnWord, issued_cond w (wordNext_rec h), hcond, hstack]

/-- A branch word that goes to a live address: the record as a change f of it leaves it, at that address. -/
theorem branch_ran (h : Safety.wordNext s i r w op) {sub : Nat} (hs : sub = 16 ∨ w.subop = sub) {c : Instr} {f : State → OpRec → CtlWord → State}
    (hc : exec c s = .next (s.issue i op sub f)) {g : OpRec → OpRec} {a : Nat} (hg : ∀ x, (g x).desc = x.desc)
    (hf : f (s.issued i r w) r w = State.goTo i ((s.issued i r w).modRec i r.desc.id g) r a) (hlive : (s.sleeve i).live a = true) :
    Safety.wordRan s i r c { g (Safety.afterIssue r w s.now) with pc := a } := by
  obtain ⟨hrec, honly⟩ := issued_modRec w (wordNext_rec h) hg
  refine ⟨_, (exec_issue h hs hc).trans (congrArg _ hf), goTo_live hrec honly ?_⟩
  rw [live_modRec, issued_live, hlive]

/-! ### REPORT, YIELD, END -/

theorem reportWord_ran (h : Safety.wordNext s i r w op) {res : Nat} (hs : w.subop = res) {c : Instr}
    (hc : exec c s = .next (s.issue i op res (State.reportWord i res))) :
    Safety.wordRan s i r c { Safety.afterIssue r w s.now with report := some (res, r.v w.sa) } :=
  word_ran (g := fun x => { x with report := some (res, r.v w.sa) }) h (.inr hs) hc rfl (by intro _; rfl)

/-- The records YIELD admits: the class 1 descriptors queued for the die (R476). -/
theorem mem_yieldReaders {t : State} {k : Nat}
    (hk : k ∈ (((t.sleeve i).queue.filter fun q => q.link == r.desc.link && q.die == r.desc.die && q.cls == 1).take 16).map fun q => q.id) :
    ∃ q ∈ (t.sleeve i).queue, q.id = k ∧ q.link = r.desc.link ∧ q.die = r.desc.die ∧ q.cls = 1 := by
  obtain ⟨q, hq, hid⟩ := List.mem_map.mp hk
  obtain ⟨hmem, hfit⟩ := List.mem_filter.mp (List.mem_of_mem_take hq)
  simp only [Bool.and_eq_true, beq_iff_eq] at hfit
  exact ⟨q, hmem, hid, hfit.1.1, hfit.1.2, hfit.2⟩

/-- END of a record that has reported: ended and unbound, it stays so when others are bound; with no patch under way nothing else follows. -/
theorem endWord_ran (h : Safety.wordNext s i r w op) (hreport : r.report ≠ none) (hpatch : s.slv.patch = none) :
    (State.endWordIssue i (s.issued i r w) r).opRec i r.desc.id = some { Safety.afterIssue r w s.now with ended := true, ctx := none } ∧
    State.endWordIssue i (s.issued i r w) r = { s with slv := (State.endWordIssue i (s.issued i r w) r).slv } := by
  obtain ⟨x, hx⟩ := Option.ne_none_iff_exists'.mp hreport
  have hended : ∀ o ∈ (((s.issued i r w).modRec i r.desc.id fun y => { y with ended := true, ctx := none }).sleeve i).recs,
      o.desc.id = r.desc.id → o.ready = false := by
    intro o ho hid
    rw [State.modRec, sleeve_modSleeve, if_pos rfl] at ho
    obtain ⟨y, -, rfl⟩ := List.mem_map.mp ho
    by_cases hy : y.desc.id = r.desc.id
    · simp [hy, OpRec.ready]
    · simp [hy] at hid
  have hend : State.endWordIssue i (s.issued i r w) r =
      ((s.issued i r w).modRec i r.desc.id fun y => { y with ended := true, ctx := none }).bind i := by
    rw [State.endWordIssue, hx]
    exact patchGo_of_none ((issued_patch s i r w).trans hpatch)
  obtain ⟨hrec, -, -, hframe⟩ := issued_modRec w (wordNext_rec h) (f := fun y => { y with ended := true, ctx := none }) (by intro _; rfl)
  rw [hend]
  refine ⟨(opRec_bind_of_not_ready hended).trans hrec, ?_⟩
  obtain ⟨v, hbind⟩ := bind_frame ((s.issued i r w).modRec i r.desc.id fun y => { y with ended := true, ctx := none }) i
  rw [hbind, hframe]

end

end Sys2Proof.Machine

open Sys2Proof
open Sys2Proof.Machine

/-- Settles O26: a word's command runs the word on the state past its issue (`exec_issue`, `word_ran`, `fault_ran`); what the word does there is said
by its own lemmas. -/
theorem memoryAndBranchWordsRun : Obligations.MemoryAndBranchWordsRun := by
  unfold Obligations.MemoryAndBranchWordsRun
  intro i s r w
  refine ⟨fun h => ⟨fun hs => ⟨fun ha => ?_, fun ha => ?_⟩, fun hs => ⟨fun ha => ?_, fun ha => ?_⟩, fun hs => ?_⟩,
    fun h => ⟨fun ha => ?_, fun ha => ?_⟩,
    fun h => ⟨fun hs => ⟨fun hcond => ?_, fun hcond hlive => ?_, fun hcond hlive => ?_⟩,
      fun hs hcond => ⟨fun hroom hlive => ?_, fun hfull => ?_⟩, fun hs hcond => ⟨fun a rest hstack hlive => ?_, fun hstack => ?_⟩⟩,
    fun h => ⟨fun hs => ?_, fun hs => ?_, fun hs => ?_⟩, fun h => ?_, fun h => ⟨fun hs => ?_, fun hs => ?_⟩, fun h => ?_,
    fun h => ⟨fun hreport => ?_, fun hreport hpatch => ?_⟩⟩
  · exact word_ran h (.inr hs) rfl (loadPers_in h ha) (by intro _; rfl)
  · exact fault_ran h (.inr hs) rfl (loadPers_out h ha) (by decide)
  · exact word_ran h (.inr hs) rfl (loadScratch_in s i ha) (by intro _; rfl)
  · exact fault_ran h (.inr hs) rfl (loadScratch_out _ i ha) (by decide)
  · refine ⟨fun hk => ?_, fun hk => ?_, fun hk => ?_, fun hk => ?_, ?_⟩
    · exact loadCtx_ran h hs rfl (by simp only [State.loadCtx, hk])
    · exact loadCtx_ran h hs rfl (by simp only [State.loadCtx, hk])
    · exact loadCtx_ran h hs rfl (by simp only [State.loadCtx, hk])
    · exact loadCtx_ran h hs rfl (by simp only [State.loadCtx, hk])
    · obtain ⟨fresh, v, hload⟩ := loadCtx_eq i.val (s.issued i r w) r w
      exact ⟨_, v, (exec_issue h (.inr hs) rfl).trans (congrArg _ hload), opRec_modRec_same (issued_rec w (wordNext_rec h)).1 (by intro _; rfl)⟩
  · refine ⟨_, (exec_issue h (.inl rfl) rfl).trans (congrArg _ (storeWord_in _ i ha)), ?_, fun a => ?_, ?_⟩
    · rw [opRec_setScratch, (issued_rec w (wordNext_rec h)).1]
    · rw [scratchByte_setScratch, leBytes_length, issued_scratchByte]
    · rw [issued_outside h]
      rfl
  · exact fault_ran h (.inl rfl) rfl (storeWord_out _ i ha) (by decide)
  · exact word_only h (.inr hs) rfl (jumpWord_passed h hcond)
  · obtain ⟨hrec, honly⟩ := issued_rec w (wordNext_rec h)
    exact ⟨_, (exec_issue h (.inr hs) rfl).trans (congrArg _ (jumpWord_taken h hcond)), goTo_live hrec honly ((issued_live s i r w _).trans hlive)⟩
  · exact fault_ran h (.inr hs) rfl ((jumpWord_taken h hcond).trans (goTo_dead ((issued_live s i r w _).trans hlive))) (by decide)
  · obtain ⟨_, _, _, _, _, _, hafter⟩ := afterIssue_eq r w s.now
    have hran := branch_ran h (.inr hs) (c := .branchCall i) rfl (by intro _; rfl) (callWord_room h hcond hroom) hlive
    simpa [hafter] using hran
  · exact fault_ran h (.inr hs) rfl (callWord_full h hcond hfull) (by decide)
  · exact branch_ran h (.inr hs) rfl (by intro _; rfl) (returnWord_pops h hcond hstack) hlive
  · exact fault_ran h (.inr hs) rfl (returnWord_empty h hcond hstack) (by decide)
  · exact reportWord_ran h hs rfl
  · exact reportWord_ran h hs rfl
  · exact reportWord_ran h hs rfl
  · obtain ⟨_, _, _, _, _, _, hafter⟩ := afterIssue_eq r w s.now
    refine ⟨_, word_ran h (.inl rfl) rfl rfl (by intro _; rfl), rfl, rfl, by simp [hafter], ?_, by simp, fun k hk => ?_⟩
    · rw [issued_outside h]
      rfl
    · rw [← issued_queue s i r w]
      exact mem_yieldReaders hk
  · obtain ⟨_, _, _, _, _, _, hafter⟩ := afterIssue_eq r w s.now
    have hran := word_ran h (.inr hs) (c := .decodeHard i) rfl rfl (by intro _; rfl)
    simpa [hafter] using hran
  · obtain ⟨_, _, _, _, _, _, hafter⟩ := afterIssue_eq r w s.now
    refine ⟨_, exec_issue h (.inr hs) rfl, ?_, ?_⟩
    · refine (opRec_modRec_same ((opRec_of_slv rfl i r.desc.id).trans (issued_rec w (wordNext_rec h)).1) (by intro _; rfl)).trans ?_
      simp [hafter]
    · exact (rd_bump (by simp [Reg.SLV_COUNT_SOFT_COUNT])).trans (by rw [issued_rd h]; rfl)
  · have htrap := (wordFault_taken h (code := 10) (by decide)).wr (f := Reg.SLV_FAULT_PC_TRAP i) (w.imm % 65536)
      (by simp [Reg.SLV_FAULT, Reg.SLV_FAULT_PC_TRAP, Reg.SLV_FAULT_PC]) (statusOff_ne (by simp [Reg.SLV_FAULT_PC_TRAP, Reg.SLV_FAULT_PC]; omega))
    have hexec := exec_issue h (.inl rfl) (c := .trap i) rfl
    exact ⟨htrap.ran hexec, _, hexec, rd_wr_fits (by simp [Reg.SLV_FAULT_PC_TRAP]) (Nat.mod_lt _ (by decide))⟩
  · exact fault_ran h (.inl rfl) rfl (by rw [State.endWordIssue, hreport]) (by decide)
  · exact ⟨_, exec_issue h (.inl rfl) rfl, endWord_ran h hreport hpatch⟩

end

section
/-!
PROOFS. Scope: the words that send cycles to the die, WAIT and the timers (13 R466, R468, R469, R471; 15 R542, R545, R553).
-/
namespace Sys2Proof.Machine

section
variable {s : State} {i : Nat} {r : OpRec} {w : CtlWord} {op : Nat}

/-! ### Data out -/

/-- Data of at most 4,096 bytes go out in one capsule, FIRST and LAST. -/
theorem dataOut_one (t : State) (r : OpRec) (w : CtlWord) {b : List Byte} (hpos : 1 ≤ b.length) (hmax : b.length ≤ 4096) :
    t.dataOut r w b = Safety.sent t r w 0x02 (bit w.clrEdge + 4 + 8) b := by
  have hone : ceilDiv b.length 4096 = 1 := by unfold ceilDiv; omega
  have hall : slice b 0 4096 = b := List.take_of_length_le hmax
  rw [State.dataOut, State.dataOutFor, hone]
  show t.dieCapFor r w 0x02 (w.edgeFlag + 4 + 8) (slice b 0 4096) none = _
  rw [hall]
  rfl

theorem doutRaw_in (s : State) (i : Nat) (r : OpRec) (w : CtlWord) (ha : (r.v w.sa).toNat + w.aux ≤ 16384) :
    State.doutRaw i (s.issued i r w) r w =
      (s.issued i r w).dataOut r w ((List.range w.aux).map fun k => s.scratchByte i ((r.v w.sa).toNat + k)) := by
  simp [State.doutRaw, inScratch, ha, issued_scratchByte]

theorem doutRaw_out (t : State) (i : Nat) (ha : 16384 < (r.v w.sa).toNat + w.aux) : State.doutRaw i t r w = t.wordFault i r 9 := by
  simp [State.doutRaw, inScratch, Nat.not_le.mpr ha]

/-- A page image does not depend on the records of the Sleeves. -/
theorem pageImage_modRec (t : State) (i id : Nat) (f : OpRec → OpRec) (d : OpDesc) (plane : Nat) :
    (t.modRec i id f).pageImage d plane = t.pageImage d plane := rfl

/-! ### Requests with a tag (R553) -/

/-- A word that waits for a tag does not issue without one (R468). -/
theorem wordNext_freeTag (h : Safety.wordNext s i r w op) (hop : op = 4 ∨ op = 5) : ∃ g, (s.lnk r.desc.link).freeTag = some g := by
  cases htag : (s.lnk r.desc.link).freeTag with
  | some g => exact ⟨g, rfl⟩
  | none =>
    obtain ⟨-, -, hgoes⟩ := wordNext_live h
    have hstalls : s.stalled r w = true := by
      rcases hop with hop | hop <;> simp [State.stalled, CtlWord.sends, wordNext_op h, hop, htag]
    exact absurd (hstalls.symm.trans hgoes) (by decide)

theorem dieReq_tagged {t : State} {g : Nat} (htag : (t.lnk r.desc.link).freeTag = some g) (kind count dst : Nat) (payload : Nat → List Byte)
    (ty : Nat) : t.dieReq r w kind count dst payload ty =
      Safety.sent (t.addTag r.desc.link ⟨g, r.desc.die, r.desc.id, kind, count, 0, dst, false, t.now⟩) r w ty (bit w.clrEdge) (payload g) := by
  rw [State.dieReq, htag]
  rfl

theorem dinRaw_in (t : State) (i : Nat) (hpos : 1 ≤ w.aux) (hmax : w.aux ≤ 65535) (ha : (r.v w.sa).toNat + w.aux ≤ 16384) :
    State.dinRaw i t r w = t.dataInReq r w 0 w.aux (r.v w.sa).toNat := by
  simp [State.dinRaw, inScratch, hpos, hmax, ha]

theorem dinRaw_out (t : State) (i : Nat) (ha : 16384 < (r.v w.sa).toNat + w.aux) : State.dinRaw i t r w = t.wordFault i r 9 := by
  simp [State.dinRaw, inScratch, Nat.not_le.mpr ha]

theorem issued_imageLen (h : Safety.wordNext s i r w op) (n : Nat) : (s.issued i r w).imageLen n = s.imageLen n := by
  rw [State.imageLen, issued_opPers w (wordNext_rec h), State.imageLen]

/-- A state on which the request of a DIN goes out: links and clock are those before the word, and its record has changed. -/
def DinReady (s : State) (i : Nat) (r : OpRec) (t : State) (x : OpRec) : Prop :=
  (∀ n, t.lnk n = s.lnk n) ∧ t.now = s.now ∧ t.opRec i r.desc.id = some x

/-- The request of a DIN takes the lowest free tag. -/
theorem DinReady.request {t : State} {x : OpRec} (h : DinReady s i r t x) {g : Nat} (htag : (s.lnk r.desc.link).freeTag = some g) (kind count dst : Nat) :
    t.dataInReq r w kind count dst = Safety.sent (t.addTag r.desc.link ⟨g, r.desc.die, r.desc.id, kind, count, 0, dst, false, s.now⟩) r w 0x03
      (bit w.clrEdge) (leBytes 2 count ++ leBytes 1 g ++ leBytes 1 0) := by
  obtain ⟨hlnk, hnow, -⟩ := h
  rw [State.dataInReq, dieReq_tagged ((congrArg Lnk.freeTag (hlnk _)).trans htag), hnow]

theorem dinReady_issued (h : Safety.wordNext s i r w op) : DinReady s i r (s.issued i r w) (Safety.afterIssue r w s.now) :=
  ⟨issued_lnk h, issued_now h, (issued_rec w (wordNext_rec h)).1⟩

theorem DinReady.bump {t : State} {x : OpRec} (h : DinReady s i r t x) (f : Field) : DinReady s i r (t.bump f) x := h

theorem DinReady.modRec {t : State} {x : OpRec} (h : DinReady s i r t x) {f : OpRec → OpRec} (hf : ∀ x, (f x).desc = x.desc) :
    DinReady s i r (t.modRec i r.desc.id f) (f x) := by
  obtain ⟨hlnk, hnow, hrec⟩ := h
  exact ⟨hlnk, hnow, opRec_modRec_same hrec hf⟩

/-- DIN IMAGE within RETRY_STEPS: counted, then asked for. -/
theorem dinImage_in (h : Safety.wordNext s i r w op) (hdins : r.dins ≤ (s.opPers r.desc.link).get 0x2E) : ∃ t x,
    State.dinImage i (s.issued i r w) r w = t.dataInReq r w 1 (s.imageLen r.desc.link) (r.v w.sa).toNat ∧ DinReady s i r t x ∧ x.dins = r.dins + 1 := by
  obtain ⟨_, _, _, _, _, _, hafter⟩ := afterIssue_eq r w s.now
  have hready : DinReady s i r (if r.dins = 0 then s.issued i r w else (s.issued i r w).bump (Reg.SLV_COUNT_RETRY_COUNT i))
      (Safety.afterIssue r w s.now) := by
    split
    · exact dinReady_issued h
    · exact (dinReady_issued h).bump _
  refine ⟨_, _, ?_, hready.modRec (f := fun x => { x with
    dins := x.dins + 1, decoding := x.decoding ++ [(false, r.undecoded.filter fun q => q.1 == (r.v w.sa).toNat)] }) (by intro _; rfl), ?_⟩
  · simp only [State.dinImage, issued_opPers w (wordNext_rec h), if_neg (Nat.not_lt.mpr hdins), issued_imageLen h]
  · simp [hafter]

theorem dinImage_out (h : Safety.wordNext s i r w op) (hdins : (s.opPers r.desc.link).get 0x2E < r.dins) :
    State.dinImage i (s.issued i r w) r w = (s.issued i r w).wordFault i r 9 := by
  simp [State.dinImage, issued_opPers w (wordNext_rec h), hdins]

/-- DIN SOFT within SOFT_READS. -/
theorem dinSoft_in (h : Safety.wordNext s i r w op) (hreads : r.strobes.length < softReads (s.opPers r.desc.link)) : ∃ t x,
    State.dinSoft i (s.issued i r w) r w = t.dataInReq r w 2 (s.imageLen r.desc.link) (r.v w.sa).toNat ∧ DinReady s i r t x ∧
      x.strobes = r.strobes ++ [w.imm % 4] := by
  obtain ⟨_, _, _, _, _, _, hafter⟩ := afterIssue_eq r w s.now
  refine ⟨_, _, ?_, (dinReady_issued h).modRec (f := fun x => { x with strobes := x.strobes ++ [w.imm % 4] }) (by intro _; rfl), ?_⟩
  · simp only [State.dinSoft, issued_opPers w (wordNext_rec h), if_neg (Nat.not_le.mpr hreads), issued_imageLen h]
  · simp [hafter]

theorem dinSoft_out (h : Safety.wordNext s i r w op) (hreads : softReads (s.opPers r.desc.link) ≤ r.strobes.length) :
    State.dinSoft i (s.issued i r w) r w = (s.issued i r w).wordFault i r 9 := by
  simp [State.dinSoft, issued_opPers w (wordNext_rec h), hreads]

/-! ### WAIT and its end (R469) -/

theorem crossRec_none {t : State} (h : (t.sleeve i).xover = none) (id : Nat) : t.crossRec i id = t := by
  rw [State.crossRec, h]

/-- A record whose WAIT has ended for cause k: the cause is kept, the latch it names cleared. -/
def State.waitOver (s : State) (i : Nat) (r : OpRec) (k : Nat) : State :=
  (if k = 0 then s.modDie r.desc.link r.desc.die fun x => { x with ready := false }
    else if k = 1 then s.modDie r.desc.link r.desc.die fun x => { x with busy := false } else s).modRec i r.desc.id fun x =>
      { x with wait := none, stop := k, flushAtt := if k = 7 then false else x.flushAtt }

theorem waitOver_rec (h : s.opRec i r.desc.id = some r) (k : Nat) : (s.waitOver i r k).opRec i r.desc.id =
    some { r with wait := none, stop := k, flushAtt := if k = 7 then false else r.flushAtt } := by
  refine opRec_modRec_same ?_ (by intro _; rfl)
  repeat' split
  all_goals exact h

theorem waitOver_frame (s : State) (i : Nat) (r : OpRec) (k : Nat) : s.waitOver i r k = { s with slv := (s.waitOver i r k).slv } ∧
    ((s.waitOver i r k).sleeve i).faultEntry = (s.sleeve i).faultEntry := by
  unfold State.waitOver
  rw [faultEntry_modRec]
  repeat' split
  all_goals exact ⟨rfl, rfl⟩

theorem waitEnd_goes {k : Nat} (h : s.opRec i r.desc.id = some r) (hcause : s.waitCause r = some k) (hfault : r.fault = none) :
    s.waitEnd i r.desc.id = (s.waitOver i r k).bind i := by
  simp only [State.waitEnd, h, hcause, hfault]
  rfl

theorem waitEnd_faults {k c : Nat} (h : s.opRec i r.desc.id = some r) (hcause : s.waitCause r = some k) (hfault : r.fault = some c) :
    s.waitEnd i r.desc.id = (s.waitOver i r k).takeFault i r.desc.id c r.pc := by
  simp only [State.waitEnd, h, hcause, hfault]
  rfl

theorem waitEnd_holds (h : s.opRec i r.desc.id = some r) (hcause : s.waitCause r = none) : s.waitEnd i r.desc.id = s := by
  simp only [State.waitEnd, h, hcause]

/-! ### Timers (R471) -/

theorem modRec_wordRan (h : s.opRec i r.desc.id = some r) {c : Instr} {f : OpRec → OpRec} (hf : ∀ x, (f x).desc = x.desc)
    (hc : exec c s = .next (s.modRec i r.desc.id f)) : Safety.wordRan s i r c (f r) :=
  ⟨_, hc, opRec_modRec_same h hf, onlyRec_modRec hf s i r.desc.id⟩

theorem pollExpiry_over {p : Nat} (h : s.opRec i r.desc.id = some r) (hat : r.pollAt = some p) (hover : p ≤ s.now) :
    s.pollExpiry i r.desc.id = s.modRec i r.desc.id fun x => { x with pollAt := none, pollDone := true } := by
  simp [State.pollExpiry, h, hat, hover]

theorem pollExpiry_early {p : Nat} (h : s.opRec i r.desc.id = some r) (hat : r.pollAt = some p) (hearly : s.now < p) :
    s.pollExpiry i r.desc.id = s := by
  simp [State.pollExpiry, h, hat, Nat.not_le.mpr hearly]

theorem slvWatchdog_over (h : s.opRec i r.desc.id = some r) (hon : r.wdogOn = true) (hruns : r.wdogPaused = false)
    (hover : r.wdogLeft ≤ s.now - r.wdogFrom) :
    s.slvWatchdog i r.desc.id = (s.modRec i r.desc.id fun x => { x with wdogOn := false }).pendFault i r.desc.id 5 := by
  simp [State.slvWatchdog, State.wdogLeft, h, hon, hruns, Nat.sub_eq_zero_of_le hover]

theorem slvWatchdog_early (h : s.opRec i r.desc.id = some r) (hon : r.wdogOn = true) (hruns : r.wdogPaused = false)
    (hearly : s.now - r.wdogFrom < r.wdogLeft) : s.slvWatchdog i r.desc.id = s := by
  simp [State.slvWatchdog, State.wdogLeft, h, hon, hruns, Nat.sub_ne_zero_of_lt hearly]

end

/-- A fault that arrives at a word boundary is taken. -/
theorem pendFault_boundary {s : State} {i id : Nat} {r : OpRec} (h : s.opRec i id = some r) (hended : r.ended = false) (hwait : r.wait = none)
    (code : Nat) : s.pendFault i id code = s.takeFault i id code r.pc := by
  simp [State.pendFault, h, hended, hwait]

/-- A fault that arrives in a WAIT is pending, unless one is. -/
theorem pendFault_waiting {s : State} {i id : Nat} {r : OpRec} (h : s.opRec i id = some r) (hended : r.ended = false) (hwait : r.wait.isSome = true)
    (code : Nat) : s.pendFault i id code = s.modRec i id fun x => { x with fault := if x.fault.isSome then x.fault else some code } := by
  simp [State.pendFault, h, hended, hwait]

/-! ### The commands that are no words -/

section
variable {s : State} {i : Fin 64} {id : Nat} (hmain : s.mainUp = true)
include hmain

theorem exec_waitEnd : exec (.waitEnd i id) s = .next (s.waitEnd i.val id) := congrArg _ (if_pos hmain)
theorem exec_pollTimerExpiry : exec (.pollTimerExpiry i id) s = .next (s.pollExpiry i.val id) := congrArg _ (if_pos hmain)
theorem exec_sleeveWatchdogExpiry : exec (.sleeveWatchdogExpiry i id) s = .next (s.slvWatchdog i.val id) := congrArg _ (if_pos hmain)

end

end Sys2Proof.Machine

open Sys2Proof
open Sys2Proof.Machine

/-- Settles O27: a word's command runs the word on the state past its issue; what it sends there, or changes of its record, is said by the word's own
lemmas. The ends of a WAIT and of a timer change one record, or make it take a fault. -/
theorem dieWordsSendCapsules : Obligations.DieWordsSendCapsules := by
  unfold Obligations.DieWordsSendCapsules
  intro i s r w
  refine ⟨fun h => ?_, fun h => ?_, fun h => ?_, fun h => ⟨fun hs => ⟨fun hpos hmax ha => ?_, fun ha => ?_, fun ha => ?_⟩, fun hs => ?_⟩,
    fun h => ⟨fun hs => ⟨fun hpos hmax ha => ?_, fun ha => ?_⟩, fun hs => ⟨fun hdins => ?_, fun hdins => ?_⟩,
      fun hs => ⟨fun hreads => ?_, fun hreads => ?_⟩⟩,
    fun h => ?_, fun h => ?_, fun h => ⟨fun hs => ?_, fun hs => ?_, fun hs => ?_⟩,
    fun hmain hrec => ⟨fun k hcause hfault => ?_, fun k c hcause hfault hc hended => ?_, fun hcause => ?_, fun p hat => ⟨fun hover => ?_, fun hearly => ?_⟩,
      fun hon hruns hended => ⟨fun hover => ⟨fun hwait => ?_, fun hwait hfault => ?_⟩, fun hearly => ?_⟩⟩⟩
  · exact word_only h (.inl rfl) rfl rfl
  · exact (exec_issue h (.inl rfl) rfl).trans rfl
  · exact (exec_issue h (.inl rfl) rfl).trans rfl
  · refine (exec_issue h (.inr hs) rfl).trans (congrArg _ ((doutRaw_in s i r w ha).trans (dataOut_one _ r w ?_ ?_))) <;> simpa
  · exact (exec_issue h (.inr hs) rfl).trans (congrArg _ (doutRaw_in s i r w ha))
  · exact fault_ran h (.inr hs) rfl (doutRaw_out _ i ha) (by decide)
  · rw [pageImage_modRec]
    exact (exec_issue h (.inr hs) rfl).trans rfl
  · obtain ⟨g, htag⟩ := wordNext_freeTag h (.inl rfl)
    exact ⟨g, htag, (exec_issue h (.inr hs) rfl).trans
      (congrArg _ ((dinRaw_in _ i hpos hmax ha).trans ((dinReady_issued h).request htag 0 w.aux _)))⟩
  · exact fault_ran h (.inr hs) rfl (dinRaw_out _ i ha) (by decide)
  · obtain ⟨g, htag⟩ := wordNext_freeTag h (.inl rfl)
    obtain ⟨t, x, hword, hready, hx⟩ := dinImage_in h hdins
    exact ⟨t, g, x, (exec_issue h (.inr hs) rfl).trans (congrArg _ (hword.trans (hready.request htag _ _ _))), htag, hready.2.2, hx⟩
  · exact fault_ran h (.inr hs) rfl (dinImage_out h hdins) (by decide)
  · obtain ⟨g, htag⟩ := wordNext_freeTag h (.inl rfl)
    obtain ⟨t, x, hword, hready, hx⟩ := dinSoft_in h hreads
    exact ⟨t, g, x, (exec_issue h (.inr hs) rfl).trans (congrArg _ (hword.trans (hready.request htag _ _ _))), htag, hready.2.2, hx⟩
  · exact fault_ran h (.inr hs) rfl (dinSoft_out h hreads) (by decide)
  · obtain ⟨g, htag⟩ := wordNext_freeTag h (.inr rfl)
    have hsent := dieReq_tagged (w := w) ((congrArg Lnk.freeTag (issued_lnk h _)).trans htag) 3 1 w.dst
      (fun g => [w.immByte 0] ++ leBytes 1 (bit (w.subop == 0)) ++ leBytes 1 g ++ leBytes 1 0) 0x04
    rw [issued_now h] at hsent
    exact ⟨g, htag, (exec_issue h (.inl rfl) rfl).trans (congrArg _ hsent)⟩
  · obtain ⟨_, _, _, _, _, _, hafter⟩ := afterIssue_eq r w s.now
    refine ⟨((s.issued i r w).modRec i r.desc.id fun x => { x with wait := some (w.aux % 32, w.wflags), ctx := none }).crossRec i r.desc.id,
      (exec_issue h (.inl rfl) rfl).trans rfl, fun hxover => ?_⟩
    obtain ⟨hwaits, -⟩ := issued_modRec w (wordNext_rec h) (f := fun x => { x with wait := some (w.aux % 32, w.wflags), ctx := none }) (by intro _; rfl)
    rw [crossRec_none (by rw [(modRec_frame _ _ _ _).2.2]; exact (issued_xover s i r w).trans hxover)]
    exact ⟨_, hwaits, rfl, rfl, by simp [hafter]⟩
  · have hran := word_ran h (.inr hs) (c := .timerArmWatchdog i) rfl rfl (by intro _; rfl)
    rw [issued_opPers w (wordNext_rec h), issued_now h] at hran
    exact hran
  · have hran := word_ran h (.inr hs) (c := .timerStopWatchdog i) rfl rfl (by intro _; rfl)
    exact hran
  · have hran := word_ran h (.inr hs) (c := .timerArmPoll i) rfl rfl (by intro _; rfl)
    rw [issued_now h] at hran
    exact hran
  · obtain ⟨ctx, hbind⟩ := opRec_bind (s.waitOver i r k) i r.desc.id
    rw [waitOver_rec hrec] at hbind
    refine ⟨_, _, (exec_waitEnd hmain).trans (congrArg _ (waitEnd_goes hrec hcause hfault)), hbind, rfl, rfl, rfl, ?_⟩
    obtain ⟨v, hframe⟩ := bind_frame (s.waitOver i r k) i
    rw [hframe, (waitOver_frame s i r k).1]
  · exact (takeFault_taken (waitOver_rec hrec k) rfl rfl hended (waitOver_frame s i r k).2 hc).ran
      ((exec_waitEnd hmain).trans (congrArg _ (waitEnd_faults hrec hcause hfault)))
  · exact (exec_waitEnd hmain).trans (congrArg _ (waitEnd_holds hrec hcause))
  · exact modRec_wordRan (f := fun x => { x with pollAt := none, pollDone := true }) hrec (by intro _; rfl)
      ((exec_pollTimerExpiry hmain).trans (congrArg _ (pollExpiry_over hrec hat hover)))
  · exact (exec_pollTimerExpiry hmain).trans (congrArg _ (pollExpiry_early hrec hat hearly))
  · have hoff := opRec_modRec_same hrec (f := fun x => { x with wdogOn := false }) (by intro _; rfl)
    exact (takeFault_taken hoff rfl rfl hended (faultEntry_modRec s i r.desc.id _) (by decide)).ran
      ((exec_sleeveWatchdogExpiry hmain).trans (congrArg _ ((slvWatchdog_over hrec hon hruns hover).trans (pendFault_boundary hoff hended hwait 5))))
  · have hoff := opRec_modRec_same hrec (f := fun x => { x with wdogOn := false }) (by intro _; rfl)
    refine ⟨_, (exec_sleeveWatchdogExpiry hmain).trans (congrArg _ ((slvWatchdog_over hrec hon hruns hover).trans (pendFault_waiting hoff hended hwait 5))),
      ?_, onlyRec_trans (onlyRec_modRec (by intro _; rfl) s i r.desc.id) (onlyRec_modRec (by intro _; rfl) _ i r.desc.id)⟩
    rw [opRec_modRec_same hoff (by intro _; rfl)]
    simp [hfault]
  · exact (exec_sleeveWatchdogExpiry hmain).trans (congrArg _ (slvWatchdog_early hrec hon hruns hearly))

end

section
/-!
PROOFS. Scope: operations of a Sleeve queued, started, decoded and ended, and words that cannot run (13 R461 to R463, R467, R472, R474, R480, R486).
-/
namespace Sys2Proof.Machine

/-! ### Sorting by a key -/

section
variable {α : Type} {key : α → Nat}

theorem insertByKey_perm (x : α) (l : List α) : (insertByKey key x l).Perm (x :: l) := by
  induction l with
  | nil => exact .refl _
  | cons y l ih =>
    unfold insertByKey
    split
    · exact .refl _
    · exact (ih.cons y).trans (.swap x y l)

theorem pairwise_insertByKey (x : α) {l : List α} (h : l.Pairwise fun a b => key a ≤ key b) :
    (insertByKey key x l).Pairwise fun a b => key a ≤ key b := by
  induction l with
  | nil => exact List.pairwise_singleton _ x
  | cons y l ih =>
    obtain ⟨hy, hl⟩ := List.pairwise_cons.mp h
    unfold insertByKey
    split
    · next hlt =>
      refine List.pairwise_cons.mpr ⟨fun z hz => ?_, h⟩
      rcases List.mem_cons.mp hz with rfl | hz
      · exact hlt.le
      · exact hlt.le.trans (hy z hz)
    · next hlt =>
      refine List.pairwise_cons.mpr ⟨fun z hz => ?_, ih hl⟩
      rcases mem_insertByKey hz with rfl | hz
      · exact Nat.not_lt.mp hlt
      · exact hy z hz

theorem sortByKey_spec (l : List α) : (sortByKey key l).Perm l ∧ (sortByKey key l).Pairwise fun a b => key a ≤ key b := by
  have hfold : ∀ (l acc : List α), (acc.Pairwise fun a b => key a ≤ key b) →
      (l.foldl (fun acc x => insertByKey key x acc) acc).Perm (l ++ acc) ∧
      (l.foldl (fun acc x => insertByKey key x acc) acc).Pairwise fun a b => key a ≤ key b := by
    intro l
    induction l with
    | nil => exact fun acc h => ⟨.refl _, h⟩
    | cons x l ih =>
      intro acc h
      obtain ⟨hperm, hsorted⟩ := ih _ (pairwise_insertByKey x h)
      exact ⟨hperm.trans (((insertByKey_perm x acc).append_left l).trans List.perm_middle), hsorted⟩
  have hsort := hfold l [] List.Pairwise.nil
  rwa [List.append_nil] at hsort

/-- The first of a sorted list has the lowest key. -/
theorem sortByKey_head {l rest : List α} {d : α} (h : sortByKey key l = d :: rest) : d ∈ l ∧ ∀ q ∈ l, key d ≤ key q := by
  obtain ⟨hperm, hsorted⟩ := sortByKey_spec (key := key) l
  rw [h] at hperm hsorted
  refine ⟨hperm.mem_iff.mp List.mem_cons_self, fun q hq => ?_⟩
  rcases List.mem_cons.mp (hperm.mem_iff.mpr hq) with rfl | hq
  · exact le_rfl
  · exact (List.pairwise_cons.mp hsorted).1 q hq

end

/-! ### What a link sends leaves the Sleeves, the image and the clock -/

/-- At most registers and links have changed. -/
def OnlyLinks (s t : State) : Prop := t = { s with regs := t.regs, links := t.links }

theorem OnlyLinks.trans {s t u : State} (h : OnlyLinks s t) (g : OnlyLinks t u) : OnlyLinks s u := by
  rw [OnlyLinks, g, h]

theorem sendFlit_onlyLinks {s t : State} {n : Nat} (h : s.sendFlit n = some t) : OnlyLinks s t := by
  simp only [State.sendFlit, Option.ite_none_left_eq_some] at h
  obtain ⟨-, h⟩ := h
  split at h
  · cases h
  · split at h
    · cases h
    · cases h
      unfold State.setCredit
      split <;> rfl

theorem pumpFlits_onlyLinks (fuel : Nat) (s : State) (n : Nat) : OnlyLinks s (State.pumpFlits fuel s n) := by
  induction fuel generalizing s with
  | zero => rfl
  | succ fuel ih =>
    rw [State.pumpFlits]
    split
    · next t h => exact (sendFlit_onlyLinks h).trans (ih t)
    · rfl

theorem pump_onlyLinks (s : State) (n : Nat) : OnlyLinks s (s.pump n) := by
  rw [State.pump]
  split
  · exact pumpFlits_onlyLinks 256 s n
  · rfl

theorem mgmt_onlyLinks (s : State) (n mop : Nat) (payload : List Byte) : OnlyLinks s (s.mgmt n mop payload) := by
  rw [State.mgmt]
  split
  · rfl
  · exact OnlyLinks.trans (t := (s.addTag n _).modLnk n _) rfl (pump_onlyLinks _ n)

theorem setIf_onlyLinks (s : State) (n d mode rate : Nat) : OnlyLinks s (s.setIf n d mode rate) := mgmt_onlyLinks s n 2 _

/-! ### Records started and freed (R462, R463, R467) -/

theorem bind_queue (s : State) (i : Nat) : ((s.bind i).sleeve i).queue = (s.sleeve i).queue := by
  rw [State.bind, sleeve_modSleeve, if_pos rfl]
  obtain ⟨c, hbind⟩ := bindAll_recs ((sortByKey (fun (r : OpRec) => r.desc.cls * 2 ^ 64 + r.desc.id)
    ((s.sleeve i).recs.filter fun r => r.ready && r.ctx.isNone)).map fun r => r.desc.id) (s.sleeve i)
  dsimp only
  rw [hbind]

/-- A record starts at its operation's entry point; what it may get at once is a context. -/
theorem startRec_spec {s : State} {i pc : Nat} {d : OpDesc} (hlink : d.link / 8 = i) (hentry : entryOf (s.opPers d.link) d.entry = some pc)
    (hnew : s.opRec i d.id = none) (reset : Bool) : ∃ c, (s.startRec d reset).opRec i d.id = some { newRec d pc s.now reset with ctx := c } ∧
    ((s.startRec d reset).sleeve i).queue = (s.sleeve i).queue ∧ s.startRec d reset = { s with slv := (s.startRec d reset).slv } := by
  have hstart : s.startRec d reset = (s.modSleeve i fun x => { x with recs := x.recs ++ [newRec d pc s.now reset] }).bind i := by
    rw [State.startRec, hentry, hlink]
  have hrec : (s.modSleeve i fun x => { x with recs := x.recs ++ [newRec d pc s.now reset] }).opRec i d.id = some (newRec d pc s.now reset) := by
    rw [State.opRec] at hnew
    rw [State.opRec, sleeve_modSleeve, if_pos rfl, List.find?_append, hnew]
    simp [newRec]
  obtain ⟨c, hbind⟩ := opRec_bind (s.modSleeve i fun x => { x with recs := x.recs ++ [newRec d pc s.now reset] }) i d.id
  rw [hrec] at hbind
  rw [hstart]
  exact ⟨c _, hbind, by rw [bind_queue, sleeve_modSleeve, if_pos rfl], rfl⟩

/-- The queue of a Sleeve without the descriptor of a number. -/
def State.dequeue (s : State) (i id : Nat) : State := s.modSleeve i fun x => { x with queue := x.queue.filter fun q => q.id != id }

theorem dequeue_queue (s : State) (i id : Nat) : ((s.dequeue i id).sleeve i).queue = (s.sleeve i).queue.filter fun q => q.id != id := by
  rw [State.dequeue, sleeve_modSleeve, if_pos rfl]

theorem dequeue_opRec (s : State) (i id k : Nat) : (s.dequeue i id).opRec i k = s.opRec i k := opRec_modSleeve rfl i k

theorem request_queue (s : State) (d : OpDesc) : ((s.request d).sleeve (d.link / 8)).queue =
    (s.sleeve (d.link / 8)).queue ++ [{ d with id := s.slv.nextOp, since := s.now }] :=
  congrArg Sleeve.queue ((sleeve_modSleeve s (d.link / 8) (fun x => { x with queue := x.queue ++ [{ d with id := s.slv.nextOp, since := s.now }] })
    (d.link / 8)).trans (if_pos rfl))

/-- A descriptor that starts: its record is there and it is out of the queue, whatever its link has sent in between. -/
theorem startRec_dequeued {s u : State} {i pc : Nat} {d : OpDesc} (hu : OnlyLinks (s.dequeue i d.id) u) (hlink : d.link / 8 = i)
    (hentry : entryOf (s.opPers d.link) d.entry = some pc) (hnew : s.opRec i d.id = none) (reset : Bool) :
    ∃ c, (u.startRec d reset).opRec i d.id = some { newRec d pc s.now reset with ctx := c } ∧
      ∀ q, q ∈ ((u.startRec d reset).sleeve i).queue ↔ q ∈ (s.sleeve i).queue ∧ q.id ≠ d.id := by
  have hslv : u.slv = (s.dequeue i d.id).slv := by rw [hu]
  have hpers : u.opPers d.link = s.opPers d.link := by rw [hu]; rfl
  have hnow : u.now = s.now := by rw [hu]; rfl
  obtain ⟨c, hrec, hqueue, -⟩ := startRec_spec hlink (hpers ▸ hentry) ((opRec_of_slv hslv i d.id).trans ((dequeue_opRec s i d.id d.id).trans hnew)) reset
  refine ⟨c, hnow ▸ hrec, fun q => ?_⟩
  rw [hqueue, sleeve_of_slv hslv, dequeue_queue, List.mem_filter, bne_iff_ne]

theorem opStart_none {s : State} {i : Nat} (h : ∀ q ∈ (s.sleeve i).queue, s.startable q = false) : s.opStart i = s := by
  have hcan : (s.sleeve i).queue.filter s.startable = [] := List.filter_eq_nil_iff.mpr fun q hq => by simp [h q hq]
  rw [State.opStart, hcan]
  rfl

/-- Of the descriptors that can start one of the highest class and lowest number starts; a RESET after SET_IF mode 0 (15 R562). -/
theorem opStart_first {s : State} {i : Nat} (h : ∃ q ∈ (s.sleeve i).queue, s.startable q = true)
    (hreset : ∀ q ∈ (s.sleeve i).queue, (s.die q.link q.die).needsReset = false) : ∃ d ∈ (s.sleeve i).queue, s.startable d = true ∧
      (∀ q ∈ (s.sleeve i).queue, s.startable q = true → d.cls * 2 ^ 64 + d.id ≤ q.cls * 2 ^ 64 + q.id) ∧
      s.opStart i = if d.entry = 13 then ((s.dequeue i d.id).setIf d.link d.die 0 0).startRec d true else (s.dequeue i d.id).startRec d false := by
  obtain ⟨q, hq, hcan⟩ := h
  obtain ⟨d, rest, hsort⟩ : ∃ d rest, sortByKey (fun (d : OpDesc) => d.cls * 2 ^ 64 + d.id) ((s.sleeve i).queue.filter s.startable) = d :: rest := by
    refine List.exists_cons_of_ne_nil fun hnil => ?_
    have hmem := (sortByKey_spec (key := fun (d : OpDesc) => d.cls * 2 ^ 64 + d.id) _).1.mem_iff.mpr (List.mem_filter.mpr ⟨hq, hcan⟩)
    rw [hnil] at hmem
    cases hmem
  obtain ⟨hmem, hleast⟩ := sortByKey_head hsort
  obtain ⟨hqueued, hd⟩ := List.mem_filter.mp hmem
  refine ⟨d, hqueued, hd, fun q hq hcan => hleast q (List.mem_filter.mpr ⟨hq, hcan⟩), ?_⟩
  simp only [State.opStart, hsort, hreset d hqueued, Bool.false_and, Bool.false_eq_true, if_false]
  rfl

theorem startable_entry {s : State} {d : OpDesc} (h : s.startable d = true) : ∃ pc, entryOf (s.opPers d.link) d.entry = some pc := by
  simp only [State.startable, Bool.and_eq_true] at h
  exact Option.isSome_iff_exists.mp h.1.2

/-- A record freed: of its Sleeve and of those that wait for it. -/
def State.freeRec (s : State) (i id : Nat) : State :=
  (s.modSleeve i fun x => { x with recs := x.recs.filter fun o => o.desc.id != id }).readerDone i id

theorem freeRec_opRec (s : State) (i id : Nat) : (s.freeRec i id).opRec i id = none := by
  simp [State.freeRec, State.readerDone, State.opRec, sleeve_modSleeve]

/-- OPERATION_END of a record that has not ended delivers nothing. -/
theorem opEnd_running {s : State} {i id : Nat} {r : OpRec} (h : s.opRec i id = some r) (hended : r.ended = false) (rebuilt : Bool) :
    s.opEnd i id rebuilt = s ∧ s.enumStep r = s := by
  simp [State.opEnd, State.enumStep, h, hended]

/-- OPERATION_END of a record that has ended: what it delivers, then the patch goes on; an OK of an operation nobody waits for only frees it. -/
theorem opEnd_ended {s : State} {i id : Nat} {r : OpRec} (h : s.opRec i id = some r) (hended : r.ended = true) (rebuilt : Bool) :
    ∃ u : State, s.opEnd i id rebuilt = u.patchGo ∧
      (r.desc.why = .other → r.report.map Prod.fst = some 0 → r.reset = false → r.faultCode ≠ 11 → r.desc.reads = false →
        u = (s.freeRec i id).bind i) := by
  simp only [State.opEnd, h, hended]
  refine ⟨_, rfl, fun hwhy hreport hreset hfault hreads => ?_⟩
  obtain ⟨x, hx, hok⟩ := Option.map_eq_some_iff.mp hreport
  simp only [hx, hok, hreset, hfault, hreads, State.deliverOp, hwhy, State.raiseIf, Bool.false_and, Bool.false_eq_true, if_false]
  rfl

/-! ### Decodes (R467, R480) -/

/-- DECODE_COMPLETE ends the oldest decode in progress whose data have come. -/
theorem decodeDone_spec {s : State} {i op : Nat} {good work : List (Nat × Nat)} {r : OpRec} {soft : Bool} {rest : List (Bool × List (Nat × Nat))}
    (h : s.opRec i op = some r) (hwork : r.decoding = (soft, work) :: rest)
    (hcome : ((s.lnk r.desc.link).tags.filter fun g => g.op == op && g.kind == 1).length < r.decoding.length) :
    ∃ x, (s.decodeDone i op good).opRec i op = some x ∧ x.decoding = rest ∧ (∀ q, q ∈ x.decoded ↔ q ∈ r.decoded ∨ (q ∈ work ∧ q ∈ good)) ∧
      (∀ q, q ∈ x.failed ↔ q ∈ r.failed ∨ (q ∈ work ∧ q ∉ good)) ∧
      s.decodeDone i op good = { s with slv := (s.decodeDone i op good).slv } := by
  have hdone : s.decodeDone i op good = s.modRec i op fun x => { x with
      decoding := rest, decoded := x.decoded ++ ((work.filter good.contains).filter fun q => !x.decoded.contains q),
      failed := (x.failed ++ work.filter fun x => !good.contains x).eraseDups } := by
    rw [hwork] at hcome
    simp only [State.decodeDone, h, hwork, if_neg (Nat.not_le.mpr hcome)]
  rw [hdone]
  refine ⟨_, opRec_modRec_same h (by intro _; rfl), rfl, fun q => ?_, fun q => ?_, rfl⟩
  · simp only [List.mem_append, List.mem_filter, List.contains_iff_mem, Bool.not_eq_true', ← Bool.not_eq_true]
    tauto
  · rw [List.mem_eraseDups, List.mem_append, List.mem_filter]
    simp

/-! ### CROSSOVER_TIMEOUT (R486) -/

/-- The records CROSSOVER_TIMEOUT finds not crossed over. -/
def Sleeve.late (x : Sleeve) : List OpRec := x.recs.filter fun r => !r.crossed && !r.ended

theorem crossTimeout_early {s : State} {i : Nat} {x : Xover} (h : (s.sleeve i).xover = some x) (hearly : s.now < x.since + 10000000) :
    s.crossTimeout i = s := by
  simp [State.crossTimeout, h, hearly]

/-- A late record takes ABORT, and it counts. -/
def State.abortLate (s : State) (i : Nat) (r : OpRec) : State :=
  (((s.modRec i r.desc.id fun y => { y with crossed := true }).bump (Reg.SLV_XOVER_ABORTED i)).modSlv fun v =>
    { v with patch := v.patch.map fun (o : PatchOp) => { o with aborted := o.aborted + 1 } }).pendFault i r.desc.id 11

theorem crossTimeout_late {s : State} {i : Nat} {x : Xover} (h : (s.sleeve i).xover = some x) (hlate : x.since + 10000000 ≤ s.now) :
    s.crossTimeout i = ((s.sleeve i).late.foldl (fun t r => t.abortLate i r) s).patchGo := by
  simp only [State.crossTimeout, h, if_neg (Nat.not_lt.mpr hlate)]
  rfl

/-! ### Words that cannot run (R472) -/

theorem nextIssue_ended {s : State} {i : Nat} {r : OpRec} (h : s.nextIssue i = some r) : r.ended = false := by
  have hmay := nextIssue_may h
  simp only [State.mayIssue, OpRec.ready, Bool.and_eq_true, Bool.not_eq_true'] at hmay
  exact hmay.1.1.1.2.2

theorem fetch_bad {x : Sleeve} {r : OpRec} {w : CtlWord} (h : x.fetch r = some w) : x.bad.contains r.pc = false := by
  rw [Sleeve.fetch, Option.ite_none_left_eq_some] at h
  exact Bool.eq_false_iff.mpr h.1

section
variable {s : State} {i : Nat} {r : OpRec} {w : CtlWord} (hmain : s.mainUp = true) (hnext : s.nextIssue i = some r)
include hmain hnext

theorem illegalWord_fetched (hfetch : (s.sleeve i).fetch r = some w) : s.illegalWord i 0 = if w.legal then s else s.wordFault i r 1 := by
  have hbad := fetch_bad hfetch
  simp [State.illegalWord, hmain, hnext, hfetch, -List.contains_eq_mem, hbad]

theorem illegalWord_dead (hbad : (s.sleeve i).bad.contains r.pc = false) (hfetch : (s.sleeve i).fetch r = none) :
    s.illegalWord i 0 = s.wordFault i r 3 := by
  simp [State.illegalWord, hmain, hnext, hfetch, -List.contains_eq_mem, hbad]

theorem illegalWord_corrected : s.illegalWord i 1 = (s.bump (Reg.SLV_COUNT_ECC_COUNT i)).raise (1028 + 8 * i) := by
  simp [State.illegalWord, hmain, hnext]

/-- A word with an uncorrectable error is bad from then on, and its record takes fault ECC. -/
theorem illegalWord_uncorrectable : ∃ t : State, s.illegalWord i 2 = t.wordFault i r 2 ∧ (∀ k, t.opRec i k = s.opRec i k) ∧
    (t.sleeve i).faultEntry = (s.sleeve i).faultEntry := by
  by_cases hbad : (s.sleeve i).bad.contains r.pc = true
  · refine ⟨s, ?_, fun _ => rfl, rfl⟩
    simp [State.illegalWord, hmain, hnext, -List.contains_eq_mem, hbad]
  · refine ⟨s.modSleeve i fun x => { x with bad := x.bad ++ [r.pc] }, ?_, opRec_modSleeve rfl i, by rw [sleeve_modSleeve, if_pos rfl]⟩
    simp [State.illegalWord, hmain, hnext, -List.contains_eq_mem, hbad, sleeve_modSleeve]

end

/-! ### The commands, where the main domain runs -/

theorem exec_illegalWord (s : State) (i : Fin 64) (ecc : Fin 3) : exec (.illegalWord i ecc) s = .next (s.illegalWord i ecc) := rfl

section
variable {s : State} {i : Fin 64} {op : Nat} (hmain : s.mainUp = true)
include hmain

theorem exec_operationStart : exec (.operationStart i) s = .next (s.opStart i) := congrArg _ (if_pos hmain)
theorem exec_crossoverTimeout : exec (.crossoverTimeout i) s = .next (s.crossTimeout i) := congrArg _ (if_pos hmain)
theorem exec_decodeComplete (good : List (Nat × Nat)) : exec (.decodeComplete i op good) s = .next (s.decodeDone i op good) :=
  congrArg _ (if_pos hmain)

theorem exec_operationEnd_none (h : s.opRec i op = none) (rebuilt : Bool) : exec (.operationEnd i op rebuilt) s = .next s := by
  refine congrArg Host.Outcome.next ((if_pos hmain).trans ?_)
  rw [h]

theorem exec_operationEnd_some {r : OpRec} (h : s.opRec i op = some r) (rebuilt : Bool) : exec (.operationEnd i op rebuilt) s =
    .next (((s.opEnd i op rebuilt).enumStep r).settleDma.recalGo r.desc.link).sanStep := by
  refine congrArg Host.Outcome.next ((if_pos hmain).trans ?_)
  rw [h]

end

end Sys2Proof.Machine

open Sys2Proof
open Sys2Proof.Machine

/-- Settles O28: a request joins its Sleeve's queue, `opStart_first` says which descriptor starts and `startRec_spec` how, the ends of operations,
decodes and crossovers have their own lemmas, and a word that cannot run makes its record take a fault (`takeFault_taken`). -/
theorem operationsRunOnSleeves : Obligations.OperationsRunOnSleeves := by
  unfold Obligations.OperationsRunOnSleeves
  intro i s hmain
  refine ⟨fun n die e block page planes first count pages slc cls buffer why => ⟨fun hpop => ?_, fun hpop => ?_⟩, fun hnone => ?_,
    fun hsome hqueue => ?_, fun op b => ⟨fun hrec => ?_, fun r hrec => ⟨fun hended => ?_, fun hended => ?_⟩⟩,
    fun op good r soft work rest hrec hwork hcome => ?_, fun x hxover => ⟨fun hearly => ?_, fun hlate hall => ?_, fun hlate r hone => ?_⟩,
    fun r hnext hrec => ⟨fun w hfetch => ⟨fun hlegal => ?_, fun hlegal => ?_, ?_⟩, ?_, fun hbad hfetch => ?_⟩⟩
  · exact ⟨s.request ⟨0, n.val, die.val, e.val, block, page, planes, first.val, count.val, pages.val, slc, cls.val, buffer, why, 0⟩,
      congrArg _ ((if_pos hmain).trans (if_pos hpop)), request_queue s _, rfl, rfl⟩
  · exact congrArg _ ((if_pos hmain).trans (if_neg (Bool.eq_false_iff.mp hpop)))
  · exact (exec_operationStart hmain).trans (congrArg _ (opStart_none hnone))
  · obtain ⟨d, hd, hcan, hleast, hstart⟩ := opStart_first hsome fun q hq => (hqueue q hq).2.1
    obtain ⟨hlink, -, hnew⟩ := hqueue d hd
    obtain ⟨pc, hentry⟩ := startable_entry hcan
    by_cases hreset : d.entry = 13
    · obtain ⟨c, hrec, hqueued⟩ := startRec_dequeued (setIf_onlyLinks _ d.link d.die 0 0) hlink hentry hnew true
      refine ⟨d, _, pc, c, (exec_operationStart hmain).trans (congrArg _ (hstart.trans (if_pos hreset))), hd, hcan, hleast, hqueued, hentry, ?_,
        fun hother => absurd hreset hother⟩
      rw [hrec, hreset]
      rfl
    · obtain ⟨c, hrec, hqueued⟩ := startRec_dequeued (s := s) (u := s.dequeue i d.id) rfl hlink hentry hnew false
      refine ⟨d, _, pc, c, (exec_operationStart hmain).trans (congrArg _ (hstart.trans (if_neg hreset))), hd, hcan, hleast, hqueued, hentry, ?_,
        fun _ => ?_⟩
      · rw [hrec, beq_false_of_ne hreset]
      · obtain ⟨-, -, -, hframe⟩ := startRec_spec (s := s.dequeue i d.id) hlink hentry ((dequeue_opRec s i d.id d.id).trans hnew) false
        rw [hframe]
        rfl
  · exact exec_operationEnd_none hmain hrec b
  · obtain ⟨hend, henum⟩ := opEnd_running hrec hended b
    rw [exec_operationEnd_some hmain hrec, hend, henum]
  · obtain ⟨u, hend, hother⟩ := opEnd_ended hrec hended b
    refine ⟨u, by rw [exec_operationEnd_some hmain hrec, hend], fun hwhy hreport hreset hfault hreads => ?_⟩
    obtain ⟨c, hbind⟩ := opRec_bind (s.freeRec i op) i op
    rw [freeRec_opRec] at hbind
    rw [hother hwhy hreport hreset hfault hreads]
    exact ⟨hbind, rfl⟩
  · obtain ⟨x, hdone⟩ := decodeDone_spec (good := good) hrec hwork hcome
    exact ⟨_, x, exec_decodeComplete hmain good, hdone⟩
  · exact (exec_crossoverTimeout hmain).trans (congrArg _ (crossTimeout_early hxover hearly))
  · have hnone : (s.sleeve i).late = [] := List.filter_eq_nil_iff.mpr fun r hr => by rcases hall r hr with h | h <;> simp [h]
    rw [exec_crossoverTimeout hmain, crossTimeout_late hxover hlate, hnone]
    rfl
  · rw [exec_crossoverTimeout hmain, crossTimeout_late hxover hlate, show (s.sleeve i).late = [r] from hone]
    rfl
  · exact (exec_illegalWord s i 0).trans (congrArg _ ((illegalWord_fetched hmain hnext hfetch).trans (if_pos hlegal)))
  · exact (takeFault_taken hrec rfl rfl (nextIssue_ended hnext) rfl (by decide)).ran
      ((exec_illegalWord s i 0).trans (congrArg _ ((illegalWord_fetched hmain hnext hfetch).trans (if_neg (Bool.eq_false_iff.mp hlegal)))))
  · refine ⟨_, (exec_illegalWord s i 1).trans (congrArg _ (illegalWord_corrected hmain hnext)), ?_, raise_status _ _⟩
    rw [raise_rd (Ne.symm (statusOff_ne (by simp [Reg.SLV_COUNT_ECC_COUNT, Reg.SLV_COUNT_ECC]; omega)))]
    exact rd_bump (by simp [Reg.SLV_COUNT_ECC_COUNT])
  · obtain ⟨t, hword, hsame, hentry⟩ := illegalWord_uncorrectable hmain hnext
    exact (takeFault_taken ((hsame _).trans hrec) rfl rfl (nextIssue_ended hnext) hentry (by decide)).ran ((exec_illegalWord s i 2).trans (congrArg _ hword))
  · exact (takeFault_taken hrec rfl rfl (nextIssue_ended hnext) rfl (by decide)).ran
      ((exec_illegalWord s i 0).trans (congrArg _ (illegalWord_dead hmain hnext hbad hfetch)))

end

section
/-!
PROOFS. Scope: a Jalyen link's operations one by one (14 R500 to R512, R521, R525, R526, R534): what each writes and what it leaves.
-/
namespace Sys2Proof.Machine

/-! ### What an operation of a link leaves -/

/-- Two fields share no bit of a register. -/
def Apart (f g : Field) : Prop := f.off ≠ g.off ∨ f.lsb + f.width ≤ g.lsb ∨ g.lsb + g.width ≤ f.lsb

/-- The clock, the records of the Sleeves and, status words aside, every field that shares no bit with those listed are as they were. -/
structure LinkKept (l : List Field) (s t : State) : Prop where
  now : t.now = s.now
  recs : ∀ i, (t.sleeve i).recs = (s.sleeve i).recs
  rd_apart : ∀ f : Field, f.off < 0x02010000 → (∀ g ∈ l, Apart f g) → t.rd f = s.rd f

theorem bitsOf_zero (w : Word) (l : Nat) : bitsOf w l 0 = 0 := Nat.mod_one _

/-- Past the top of a register there is nothing. -/
theorem bitsOf_beyond {w : Word} {l n : Nat} (h : 32 ≤ l) : bitsOf w l n = 0 := by
  rw [bitsOf, Nat.div_eq_of_lt (lt_of_lt_of_le w.isLt (Nat.pow_le_pow_right two_pos h)), Nat.zero_mod]

namespace LinkKept

section
variable {s t u : State} {l m : List Field}

/-- A field of a link's block that the operation does not list. -/
theorem rd (h : LinkKept l s t) {f : Field}
    (hf : f.off < 0x02010000 ∧ ∀ g ∈ l, Apart f g := by
      simp [Apart, Reg.JL_STATE, Reg.JL_STATE_STATE, Reg.JL_STATE_RATE, Reg.JL_STATE_CEILING, Reg.JL_STATE_BLOCK_LOCK, Reg.JL_STATE_PARTNER_RATES,
        Reg.JL_STATE_LAST_CAUSE, Reg.JL_STATE_DOWN_ENTRIES, Reg.JL_PARTNER, Reg.JL_PARTNER_REPLAY_DEPTH, Reg.JL_PARTNER_VERSION,
        Reg.JL_PARTNER_VC0_CREDITS, Reg.JL_PARTNER_VC1_CREDITS, Reg.JL_EQ, Reg.JL_EQ_TX_PRESET, Reg.JL_EQ_PARTNER_PRESET, Reg.JL_EQ_CTLE, Reg.JL_EQ_DFE1,
        Reg.JL_EYE, Reg.JL_EYE_EYE_W, Reg.JL_EYE_EYE_H, Reg.JL_EYE_COUNT, Reg.JL_CREDIT, Reg.JL_CREDIT_UNACKED, Reg.JL_CREDIT_VC0_AVAIL,
        Reg.JL_CREDIT_VC1_AVAIL, Reg.JL_ERR_CRC, Reg.JL_ERR_CRC_COUNT, Reg.JL_ERR_REPLAY, Reg.JL_ERR_REPLAY_REPLAYS, Reg.JL_ERR_REPLAY_NAKS,
        Reg.JL_ERR_RETRAIN, Reg.JL_ERR_RETRAIN_FAST, Reg.JL_ERR_RETRAIN_FULL, Reg.JL_ERR_RETRAIN_FALLBACKS, Reg.JL_MARGIN_CTL,
        Reg.JL_MARGIN_CTL_DWELL_LOG2, Reg.JL_MARGIN_CTL_V_OFFSET, Reg.JL_MARGIN_CTL_T_OFFSET, Reg.JL_MARGIN_RES, Reg.JL_MARGIN_RES_DONE,
        Reg.JL_MARGIN_RES_VALID, Reg.JL_MARGIN_RES_ERRORS, Reg.JL_TEST_CTL, Reg.JL_TEST_CTL_RATE, Reg.JL_TEST_CTL_MODE, Reg.JL_TEST_RES,
        Reg.JL_TEST_RES_RUNNING, Reg.JL_TEST_RES_LOCK, Reg.JL_TEST_RES_ERRORS, Reg.JL_TRAIN_US, Reg.JL_TRAIN_US_US, Reg.JL_BRIDGE_STATUS,
        Reg.JL_BRIDGE_STATUS_QUARANTINED, Reg.STR_LINK, Reg.STR_LINK_STATE, Reg.STR_STATUS, Reg.STR_STATUS_NONSLOW_LOW]
      omega) : t.rd f = s.rd f := h.rd_apart f hf.1 hf.2

theorem refl (s : State) : LinkKept [] s s := ⟨rfl, fun _ => rfl, fun _ _ _ => rfl⟩

theorem mono (h : LinkKept l s t) (hsub : l ⊆ m) : LinkKept m s t := ⟨h.now, h.recs, fun f hoff hf => h.rd_apart f hoff fun g hg => hf g (hsub hg)⟩

theorem trans (h : LinkKept l s t) (g : LinkKept m t u) : LinkKept (l ++ m) s u where
  now := g.now.trans h.now
  recs i := (g.recs i).trans (h.recs i)
  rd_apart f hoff hf := (g.rd_apart f hoff fun x hx => hf x (List.mem_append_right l hx)).trans
    (h.rd_apart f hoff fun x hx => hf x (List.mem_append_left m hx))

/-- An operation that is skipped where its condition fails. -/
theorem ite {c : Prop} [Decidable c] (h : LinkKept l s t) (g : LinkKept l s u) : LinkKept l s (if c then t else u) := by
  split
  · exact h
  · exact g

theorem linkRecs (h : LinkKept l s t) (n : Nat) : t.linkRecs n = s.linkRecs n := by rw [State.linkRecs, h.recs, State.linkRecs]

/-- Parts of the state beside the clock, the Sleeves and the registers may change. -/
theorem of_regs (hnow : t.now = s.now) (hslv : t.slv = s.slv) (hregs : t.regs = s.regs) : LinkKept [] s t where
  now := hnow
  recs i := by rw [sleeve_of_slv hslv]
  rd_apart f _ _ := by simp only [State.rd, State.reg, hregs]

end

variable (s : State)

theorem wr (f : Field) (v : Nat) : LinkKept [f] s (s.wr f v) where
  now := rfl
  recs _ := rfl
  rd_apart _ _ hg := (hg f List.mem_cons_self).elim rd_wr_off rd_wr_apart

theorem bump (f : Field) : LinkKept [f] s (s.bump f) := wr s f _

theorem setReg (o : Nat) (w : Word) : LinkKept [⟨o, 0, 32⟩] s (s.setReg o w) where
  now := rfl
  recs _ := rfl
  rd_apart g _ hg := by
    rw [State.rd, reg_setReg, State.rd]
    split
    · next hoff =>
      obtain hne | hlow | hhigh := hg _ List.mem_cons_self
      · exact absurd hoff hne
      · rw [show g.width = 0 by simp at hlow; omega, bitsOf_zero, bitsOf_zero]
      · rw [bitsOf_beyond hhigh, bitsOf_beyond hhigh]
    · rfl

theorem raise (src : Nat) : LinkKept [] s (s.raise src) where
  now := raise_now s src
  recs i := by obtain ⟨_, _, _, h, -⟩ := raise_frame s src; rw [h]; rfl
  rd_apart f hoff _ := raise_rd (statusOff_ne hoff).symm

theorem setLnk (n : Nat) (x : Lnk) : LinkKept [] s (s.setLnk n x) := of_regs rfl rfl rfl

theorem modLnk (n : Nat) (f : Lnk → Lnk) : LinkKept [] s (s.modLnk n f) := setLnk s n _

theorem raiseIf (c : Bool) (src : Nat) : LinkKept [] s (s.raiseIf c src) := .ite (raise s src) (refl s)

theorem histAdd (i v : Nat) : LinkKept [] s (s.histAdd i v) := of_regs rfl rfl rfl

end LinkKept

/-! ### A link's own part of the state -/

theorem lnk_of_links {s t : State} (h : t.links = s.links) (n : Nat) : t.lnk n = s.lnk n := by rw [State.lnk, h, State.lnk]

theorem lnk_setLnk (s : State) (n : Nat) (x : Lnk) : (s.setLnk n x).lnk n = x := (mapGet_mapSet _ _ _ _).trans (if_pos rfl)

theorem lnk_modLnk (s : State) (n : Nat) (f : Lnk → Lnk) : (s.modLnk n f).lnk n = f (s.lnk n) := lnk_setLnk s n _

@[simp] theorem lnk_wr (s : State) (f : Field) (v n : Nat) : (s.wr f v).lnk n = s.lnk n := rfl
@[simp] theorem lnk_bump (s : State) (f : Field) (n : Nat) : (s.bump f).lnk n = s.lnk n := rfl
@[simp] theorem lnk_setReg (s : State) (o : Nat) (w : Word) (n : Nat) : (s.setReg o w).lnk n = s.lnk n := rfl

@[simp] theorem lnk_raise (s : State) (src n : Nat) : (s.raise src).lnk n = s.lnk n := by
  obtain ⟨_, _, _, h, -⟩ := raise_frame s src
  exact lnk_of_links (by rw [h]) n

@[simp] theorem lnk_raiseIf (s : State) (c : Bool) (src n : Nat) : (s.raiseIf c src).lnk n = s.lnk n := by
  cases c
  · rfl
  · exact lnk_raise s src n

/-! ### States (R500, R537) -/

theorem marginAbort_lnk (s : State) (n : Nat) : (s.marginAbort n).lnk n = { s.lnk n with margin := none } := by
  unfold State.marginAbort
  split
  · rw [lnk_wr, lnk_wr, lnk_modLnk]
  · next h =>
    rw [Option.not_isSome_iff_eq_none] at h
    rw [← h]

theorem marginAbort_kept (s : State) (n : Nat) : LinkKept [Reg.JL_MARGIN_RES_DONE n, Reg.JL_MARGIN_RES_VALID n] s (s.marginAbort n) :=
  .ite (((LinkKept.modLnk s n _).trans (.wr _ _ _)).trans (.wr _ _ _)) ((LinkKept.refl s).mono (List.nil_subset _))

/-- The ordered sets of a state go on the wire, and nothing else changes. -/
theorem showSets_modLnk (s : State) (n : Nat) : ∃ w, s.showSets n = s.modLnk n (fun x => { x with wire := w }) ∨ s.showSets n = s := by
  unfold State.showSets
  dsimp only
  split
  · exact ⟨_, .inl rfl⟩
  · split
    · exact ⟨_, .inl rfl⟩
    · split
      · exact ⟨_, .inl rfl⟩
      · exact ⟨[], .inr rfl⟩

theorem showSets_lnk (s : State) (n : Nat) : ∃ w, (s.showSets n).lnk n = { s.lnk n with wire := w } := by
  obtain ⟨w, h | h⟩ := showSets_modLnk s n
  · exact ⟨w, by rw [h, lnk_modLnk]⟩
  · exact ⟨(s.lnk n).wire, by rw [h]⟩

theorem showSets_kept (s : State) (n : Nat) : LinkKept [] s (s.showSets n) := by
  obtain ⟨w, h | h⟩ := showSets_modLnk s n <;> rw [h]
  · exact .modLnk s n _
  · exact .refl s

theorem showSets_evtStatus (s : State) (n src : Nat) : (s.showSets n).evtStatus src = s.evtStatus src := by
  obtain ⟨w, h | h⟩ := showSets_modLnk s n <;> rw [h]
  rfl

/-- What is done in the state left and at the entry of another, up to the state's number. -/
def State.leaveJl (s : State) (n st : Nat) : State :=
  (if s.jlState n = 5 ∧ st ≠ 5 then s.marginAbort n else s).modLnk n fun x => { x with since := s.now, tsRun := 0, ts2Run := 0, scRun := 0 }

theorem setJl_eq (s : State) (n st : Nat) : s.setJl n st =
    (if s.jlState n = st then s.leaveJl n st else ((s.leaveJl n st).wr (Reg.JL_STATE_STATE n) st).raise (2 * n + 1)).showSets n := rfl

theorem leaveJl_lnk (s : State) (n st : Nat) : ∃ m, (s.leaveJl n st).lnk n =
    { s.lnk n with margin := m, since := s.now, tsRun := 0, ts2Run := 0, scRun := 0 } := by
  unfold State.leaveJl
  split
  · exact ⟨none, by rw [lnk_modLnk, marginAbort_lnk]⟩
  · exact ⟨(s.lnk n).margin, by rw [lnk_modLnk]⟩

theorem leaveJl_kept (s : State) (n st : Nat) : LinkKept [Reg.JL_MARGIN_RES_DONE n, Reg.JL_MARGIN_RES_VALID n] s (s.leaveJl n st) :=
  (LinkKept.ite (marginAbort_kept s n) ((LinkKept.refl s).mono (List.nil_subset _))).trans (.modLnk _ n _)

/-- What entering a state leaves of a link's part: a margin measurement may end, and the state's own counts begin. -/
theorem setJl_lnk (s : State) (n st : Nat) : ∃ m w, (s.setJl n st).lnk n =
    { s.lnk n with margin := m, wire := w, since := s.now, tsRun := 0, ts2Run := 0, scRun := 0 } := by
  obtain ⟨m, hleave⟩ := leaveJl_lnk s n st
  rw [setJl_eq]
  obtain ⟨w, h⟩ := showSets_lnk (if s.jlState n = st then s.leaveJl n st else ((s.leaveJl n st).wr (Reg.JL_STATE_STATE n) st).raise (2 * n + 1)) n
  refine ⟨m, w, h.trans ?_⟩
  split
  · rw [hleave]
  · rw [lnk_raise, lnk_wr, hleave]

theorem setJl_kept (s : State) (n st : Nat) :
    LinkKept [Reg.JL_MARGIN_RES_DONE n, Reg.JL_MARGIN_RES_VALID n, Reg.JL_STATE_STATE n] s (s.setJl n st) := by
  rw [setJl_eq]
  refine LinkKept.trans (l := [_, _, _]) (.ite ?_ ?_) (showSets_kept _ n)
  · exact (leaveJl_kept s n st).mono (by simp)
  · exact ((leaveJl_kept s n st).trans (.wr _ _ _)).trans (.raise _ _)

theorem setJl_status {s : State} {n st : Nat} (h : s.jlState n ≠ st) : (s.setJl n st).evtStatus (2 * n + 1) = true := by
  rw [setJl_eq, if_neg h, showSets_evtStatus]
  exact raise_status _ _

section
variable {n : Fin 512}

theorem setJl_state (s : State) {st : Nat} (h : st < 16) : (s.setJl n st).jlState n = st := by
  rw [setJl_eq, State.jlState, (showSets_kept _ n).rd]
  split
  · next hsame => exact (leaveJl_kept s n st).rd.trans hsame
  · rw [(LinkKept.raise _ _).rd]
    exact rd_wr_fits (f := Reg.JL_STATE_STATE n) (by simp [Reg.JL_STATE_STATE]) h

/-! ### RETRAIN (R521, R526, R538) -/

/-- The causes of R500 and R521, which raise the error source and count toward the fallback. -/
def retrainCounts (cause : Nat) : Bool := decide (cause = 1 ∨ cause = 2 ∨ cause = 3 ∨ cause = 8)

/-- The state a RETRAIN is entered in, before its error source and its fallback. -/
def State.retraining (s : State) (n cause : Nat) : State :=
  (((s.setJl n 6).wr (Reg.JL_STATE_LAST_CAUSE n) cause).bump (Reg.JL_ERR_RETRAIN_FAST n)).modLnk n fun x =>
    { x with
      trainAt := s.now, full := false, resync := 2, nakOut := false, parkAt := none,
      retrains := if cause = 1 ∨ cause = 2 ∨ cause = 3 ∨ cause = 8 then s.now :: (x.retrains.filter fun t => s.now < t + 60000000000) else x.retrains }

theorem retraining_lnk (s : State) (n cause : Nat) : ∃ m w, (s.retraining n cause).lnk n =
    { s.lnk n with
      margin := m, wire := w, since := s.now, tsRun := 0, ts2Run := 0, scRun := 0,
      trainAt := s.now, full := false, resync := 2, nakOut := false, parkAt := none,
      retrains := if cause = 1 ∨ cause = 2 ∨ cause = 3 ∨ cause = 8 then s.now :: ((s.lnk n).retrains.filter fun t => s.now < t + 60000000000)
        else (s.lnk n).retrains } := by
  obtain ⟨m, w, hset⟩ := setJl_lnk s n 6
  exact ⟨m, w, by rw [State.retraining, lnk_modLnk, lnk_bump, lnk_wr, hset]⟩

/-- A RETRAIN whose cause does not count, or that few before it counted, is no fallback. -/
theorem enterRetrain_few {s : State} {n cause : Nat}
    (h : retrainCounts cause = true → ((s.lnk n).retrains.filter fun t => s.now < t + 60000000000).length < 2) :
    s.enterRetrain n cause = (s.retraining n cause).raiseIf (retrainCounts cause) (2 * n) := by
  by_cases hc : cause = 1 ∨ cause = 2 ∨ cause = 3 ∨ cause = 8
  · have hcounts : retrainCounts cause = true := decide_eq_true hc
    have hlen : ¬3 ≤ (((s.retraining n cause).raise (2 * n)).lnk n).retrains.length := by
      obtain ⟨m, w, hlnk⟩ := retraining_lnk s n cause
      rw [lnk_raise, hlnk, if_pos hc, List.length_cons]
      have := h hcounts
      omega
    rw [State.raiseIf, hcounts, if_pos rfl]
    exact (if_pos hc).trans (if_neg hlen)
  · rw [State.raiseIf, show retrainCounts cause = false from decide_eq_false hc]
    exact if_neg hc

/-- A RETRAIN entered for a cause, with what it makes of the link's own part. -/
structure Retrains (s : State) (n cause : Nat) (t : State) : Prop where
  state : t.jlState n = 6
  cause : t.rd (Reg.JL_STATE_LAST_CAUSE n) = cause
  lnk : ∃ m w r, t.lnk n =
    { s.lnk n with
      margin := m, wire := w, since := s.now, tsRun := 0, ts2Run := 0, scRun := 0,
      trainAt := s.now, full := false, resync := 2, nakOut := false, parkAt := none, retrains := r }

theorem enterRetrain_retrains {s : State} {cause : Nat} (hcause : cause < 256)
    (h : retrainCounts cause = true → ((s.lnk n).retrains.filter fun t => s.now < t + 60000000000).length < 2) :
    Retrains s n cause (s.enterRetrain n cause) := by
  have hbump (u : State) (f : Lnk → Lnk) : LinkKept [Reg.JL_ERR_RETRAIN_FAST n] u ((u.bump (Reg.JL_ERR_RETRAIN_FAST n)).modLnk n f) :=
    (LinkKept.bump u _).trans (.modLnk _ n f)
  rw [enterRetrain_few h]
  refine ⟨?_, ?_, ?_⟩
  · exact (LinkKept.raiseIf _ _ _).rd.trans ((hbump _ _).rd.trans ((LinkKept.wr _ _ _).rd.trans (setJl_state s (by decide))))
  · exact (LinkKept.raiseIf _ _ _).rd.trans ((hbump _ _).rd.trans (rd_wr_fits (by simp [Reg.JL_STATE_LAST_CAUSE]) hcause))
  · obtain ⟨m, w, hlnk⟩ := retraining_lnk s n cause
    exact ⟨m, w, _, (lnk_raiseIf _ _ _ _).trans hlnk⟩

/-- What a RETRAIN entered at a time for a cause shows. -/
structure RetrainsAt (now n cause : Nat) (t : State) : Prop where
  state : t.jlState n = 6
  cause : t.rd (Reg.JL_STATE_LAST_CAUSE n) = cause
  resync : (t.lnk n).resync = 2
  trainAt : (t.lnk n).trainAt = now

theorem Retrains.at {s t : State} {n cause : Nat} (h : Retrains s n cause t) : RetrainsAt s.now n cause t := by
  obtain ⟨hstate, hcause, m, w, r, hlnk⟩ := h
  exact ⟨hstate, hcause, by rw [hlnk], by rw [hlnk]⟩

theorem enterRetrain_at {s : State} {now cause : Nat} (hnow : s.now = now) (hcause : cause < 256)
    (h : retrainCounts cause = true → ((s.lnk n).retrains.filter fun t => s.now < t + 60000000000).length < 2) :
    RetrainsAt now n cause (s.enterRetrain n cause) := hnow ▸ (enterRetrain_retrains hcause h).at

/-! ### A training from DETECT (R510, R511; 15 R556) -/

/-- DETECT at 4 GT/s, without lock. -/
structure InDetect (n : Nat) (t : State) : Prop where
  state : t.jlState n = 1
  rate : t.jlRate n = 2
  lock : t.rd (Reg.JL_STATE_BLOCK_LOCK n) = 0

theorem backToDetect_inDetect (s : State) : InDetect n (s.backToDetect n) where
  state := (LinkKept.wr _ _ _).rd.trans ((LinkKept.wr _ _ _).rd.trans (setJl_state _ (by decide)))
  rate := (LinkKept.wr _ _ _).rd.trans (rd_wr_fits (by simp [Reg.JL_STATE_RATE]) (by simp [Reg.JL_STATE_RATE]))
  lock := rd_wr_fits (by simp [Reg.JL_STATE_BLOCK_LOCK]) (by simp [Reg.JL_STATE_BLOCK_LOCK])

theorem backToDetect_window (s : State) (n : Nat) : ((s.backToDetect n).lnk n).window = (s.lnk n).window := by
  obtain ⟨m, w, h⟩ := setJl_lnk (s.modLnk n fun x => { x with eq := false, idleEnd := none, sweepOk := false }) n 1
  rw [State.backToDetect, lnk_wr, lnk_wr, h, lnk_modLnk]

theorem toDetect_inDetect (s : State) (window : Nat) (parked : Bool) : InDetect n (s.toDetect n window parked) := backToDetect_inDetect _

theorem toDetect_window (s : State) (n window : Nat) (parked : Bool) : ((s.toDetect n window parked).lnk n).window = some window := by
  rw [State.toDetect, backToDetect_window, lnk_modLnk]

theorem failToDetect_inDetect (s : State) : InDetect n (s.failToDetect n) := by
  unfold State.failToDetect
  split
  · exact backToDetect_inDetect s
  · exact toDetect_inDetect s _ _

theorem failToDetect_window {s : State} {n : Nat} (h : (s.lnk n).window = none) : ((s.failToDetect n).lnk n).window = some (s.now + 200000000) := by
  rw [State.failToDetect, h]
  exact toDetect_window s n _ false

/-! ### DOWN (R511) -/

theorem clearLink_kept (s : State) (n : Nat) : LinkKept [Reg.JL_CREDIT_UNACKED n, Reg.JL_CREDIT_VC0_AVAIL n, Reg.JL_CREDIT_VC1_AVAIL n,
    Reg.JL_BRIDGE_STATUS_QUARANTINED n] s (s.clearLink n) :=
  ((((LinkKept.modLnk s n _).trans (.wr _ _ _)).trans (.wr _ _ _)).trans (.wr _ _ _)).trans (.wr _ _ _)

/-- No operation of the link is in flight, so none takes a fault. -/
theorem faultLink_none {s : State} {n : Nat} (h : s.linkRecs n = []) (code : Nat) (reset : Bool) : s.faultLink n code reset = s := by
  rw [State.faultLink, h, List.foldl_nil]

/-- DOWN for a cause: the error source, and, where no operation in flight took the fault LINK on the way, the state, rate and cause. -/
structure InDown (s : State) (n cause : Nat) (t : State) : Prop where
  status : t.evtStatus (2 * n) = true
  shown : s.linkRecs n = [] → t.jlState n = 8 ∧ t.jlRate n = 3 ∧ t.rd (Reg.JL_STATE_LAST_CAUSE n) = cause

/-- The state after the entry of DOWN, up to the members that are missing from then on. -/
def State.downShown (s : State) (n cause : Nat) : State :=
  ((((((s.clearLink n).setJl n 8).wr (Reg.JL_STATE_RATE n) 3).wr (Reg.JL_STATE_LAST_CAUSE n) cause).bump (Reg.JL_STATE_DOWN_ENTRIES n)).wr
    (Reg.JL_STATE_BLOCK_LOCK n) 0).modLnk n fun y =>
    { y with
      window := none, downRetryAt := s.now + 1000000000,
      downSince := if (s.lnk n).downSince.isNone then some s.now else y.downSince,
      downs := if (s.lnk n).downSince.isNone then s.now :: (y.downs.filter fun t => s.now < t + 86400000000000) else y.downs }

theorem enterDown_eq (s : State) (n cause : Nat) : s.enterDown n cause =
    if (s.lnk n).downSince.isNone then (((s.downShown n cause).faultLink n 6 true).raise (2 * n)).membersLost n none s
    else ((s.downShown n cause).faultLink n 6 true).raise (2 * n) := rfl

theorem downShown_kept (s : State) (n cause : Nat) : ∃ l, LinkKept l s (s.downShown n cause) := by
  unfold State.downShown
  exact ⟨_, ((((((clearLink_kept s n).trans (setJl_kept _ n 8)).trans (.wr _ _ _)).trans (.wr _ _ _)).trans (.bump _ _)).trans (.wr _ _ _)).trans
    (.modLnk _ n _)⟩

theorem enterDown_inDown (s : State) {cause : Nat} (hcause : cause < 256) :
    InDown s n cause (((s.downShown n cause).faultLink n 6 true).raise (2 * n)) where
  status := raise_status _ _
  shown hnone := by
    obtain ⟨l, hkept⟩ := downShown_kept s n cause
    rw [faultLink_none ((hkept.linkRecs n).trans hnone)]
    unfold State.downShown
    have hlast (u : State) (f : Lnk → Lnk) : LinkKept [Reg.JL_STATE_DOWN_ENTRIES n, Reg.JL_STATE_BLOCK_LOCK n] u
        ((((u.bump (Reg.JL_STATE_DOWN_ENTRIES n)).wr (Reg.JL_STATE_BLOCK_LOCK n) 0).modLnk n f).raise (2 * n)) :=
      (((LinkKept.bump u _).trans (.wr _ _ _)).trans (.modLnk _ n f)).trans (.raise _ _)
    refine ⟨?_, ?_, ?_⟩
    · exact (hlast _ _).rd.trans ((LinkKept.wr _ _ _).rd.trans ((LinkKept.wr _ _ _).rd.trans (setJl_state _ (by decide))))
    · exact (hlast _ _).rd.trans ((LinkKept.wr _ _ _).rd.trans (rd_wr_fits (by simp [Reg.JL_STATE_RATE]) (by simp [Reg.JL_STATE_RATE])))
    · exact (hlast _ _).rd.trans (rd_wr_fits (by simp [Reg.JL_STATE_LAST_CAUSE]) hcause)

/-! ### What a link sends (R513 to R524) -/

/-- Of a link's part at most what it sends has changed. -/
def TxOnly (x y : Lnk) : Prop := y =
  { x with
    scrTx := y.scrTx, crTurn := y.crTurn, wire := y.wire, txSeq := y.txSeq, ackAt := y.ackAt, unacked := y.unacked, capq := y.capq, dieLast := y.dieLast,
    parkAt := y.parkAt }

theorem TxOnly.refl (x : Lnk) : TxOnly x x := rfl

theorem TxOnly.trans {x y z : Lnk} (h : TxOnly x y) (g : TxOnly y z) : TxOnly x z := by
  rw [TxOnly, g, h]

theorem fillFlit_txOnly (held : Nat × Nat × Nat → Bool) (vc seq : Nat) (fuel : Nat) (a : FlitFill) (room : Nat) :
    TxOnly a.lnk (fillFlit held vc seq fuel a room).lnk := by
  induction fuel generalizing a room with
  | zero => exact .refl _
  | succ fuel ih =>
    rw [fillFlit]
    dsimp only
    split
    · exact .refl _
    · split
      · exact .refl _
      · split
        · exact .refl _
        · split
          · split
            · exact .refl _
            · refine TxOnly.trans ?_ (ih _ _)
              rfl
          · rfl

theorem putFlit_lnk (s : State) (n kind seq vc : Nat) (nak : Bool) (payload : List Byte) : ∃ r w c,
    (s.putFlit n kind seq vc nak payload).lnk n = { s.lnk n with scrTx := r, wire := w, crTurn := c } := ⟨_, _, _, lnk_modLnk _ _ _⟩

theorem putFlit_txOnly (s : State) (n kind seq vc : Nat) (nak : Bool) (payload : List Byte) :
    TxOnly (s.lnk n) ((s.putFlit n kind seq vc nak payload).lnk n) := by
  obtain ⟨r, w, c, h⟩ := putFlit_lnk s n kind seq vc nak payload
  rw [h]
  rfl

theorem putFlit_kept (s : State) (n kind seq vc : Nat) (nak : Bool) (payload : List Byte) : LinkKept [] s (s.putFlit n kind seq vc nak payload) :=
  .of_regs rfl rfl rfl

/-- The credit and count fields that sending and acknowledging write. -/
abbrev creditFields (n : Nat) : List Field := [Reg.JL_CREDIT_VC1_AVAIL n, Reg.JL_CREDIT_VC0_AVAIL n, Reg.JL_CREDIT_UNACKED n]

theorem setCredit_kept (s : State) (n vc v : Nat) : LinkKept [Reg.JL_CREDIT_VC1_AVAIL n, Reg.JL_CREDIT_VC0_AVAIL n] s (s.setCredit n vc v) :=
  .ite ((LinkKept.wr s _ _).mono (by simp)) ((LinkKept.wr s _ _).mono (by simp))

@[simp] theorem lnk_setCredit (s : State) (n vc v m : Nat) : (s.setCredit n vc v).lnk m = s.lnk m := by
  unfold State.setCredit
  split <;> rfl

/-- A flit sent: what it changes of its link and of the registers. -/
theorem sendFlit_spec {s t : State} {n : Nat} (h : s.sendFlit n = some t) : TxOnly (s.lnk n) (t.lnk n) ∧ LinkKept (creditFields n) s t := by
  simp only [State.sendFlit, Option.ite_none_left_eq_some] at h
  obtain ⟨-, h⟩ := h
  split at h
  · cases h
  · next vc _ =>
    split at h
    · cases h
    · cases h
      have hfill := fillFlit_txOnly s.memberHeld vc (s.lnk n).txSeq ((s.lnk n).capq.length + 1) ⟨s.lnk n, [], []⟩ 56
      refine ⟨TxOnly.trans ?_ (putFlit_txOnly _ _ _ _ _ _ _),
        (((LinkKept.setLnk s n _).trans (setCredit_kept _ n _ _)).trans (.wr _ _ _)).trans (putFlit_kept _ _ _ _ _ _ _)⟩
      rw [lnk_wr, lnk_setCredit, lnk_setLnk]
      refine hfill.trans ?_
      rfl

theorem pumpFlits_spec (fuel : Nat) (s : State) (n : Nat) :
    TxOnly (s.lnk n) ((State.pumpFlits fuel s n).lnk n) ∧ LinkKept (creditFields n) s (State.pumpFlits fuel s n) := by
  induction fuel generalizing s with
  | zero => exact ⟨.refl _, (LinkKept.refl s).mono (List.nil_subset _)⟩
  | succ fuel ih =>
    rw [State.pumpFlits]
    split
    · next t h =>
      obtain ⟨hfirst, hkept⟩ := sendFlit_spec h
      obtain ⟨hrest, hgo⟩ := ih t
      exact ⟨hfirst.trans hrest, (hkept.trans hgo).mono (by simp)⟩
    · exact ⟨.refl _, (LinkKept.refl s).mono (List.nil_subset _)⟩

theorem pump_spec (s : State) (n : Nat) : TxOnly (s.lnk n) ((s.pump n).lnk n) ∧ LinkKept (creditFields n) s (s.pump n) := by
  unfold State.pump
  split
  · exact pumpFlits_spec 256 s n
  · exact ⟨.refl _, (LinkKept.refl s).mono (List.nil_subset _)⟩

/-- Nothing is sent before the partner's START. -/
theorem pump_unsynced {s : State} {n : Nat} (h : (s.lnk n).resync = 2) : s.pump n = s := if_neg (by simp [h])

/-- A MGMT request made before the partner's START waits. -/
theorem mgmt_unsynced {s : State} {n : Nat} (h : (s.lnk n).resync = 2) (mop : Nat) (payload : List Byte) :
    (∃ g q, (s.mgmt n mop payload).lnk n = { s.lnk n with tags := g, capq := q }) ∧ LinkKept [] s (s.mgmt n mop payload) := by
  rw [State.mgmt]
  split
  · exact ⟨⟨_, _, rfl⟩, .refl s⟩
  · rw [State.sendCap, State.sendCapFor, pump_unsynced (by rw [lnk_modLnk, State.addTag, lnk_modLnk]; exact h)]
    exact ⟨⟨_, _, by rw [lnk_modLnk, State.addTag, lnk_modLnk]⟩, (LinkKept.modLnk s n _).trans (.modLnk _ n _)⟩

/-! ### ACTIVE (R513, R516; 15 R557, R564) -/

theorem setLink_spec (s : State) (n st : Nat) : (∀ m, (s.setLink n st).lnk m = s.lnk m) ∧
    LinkKept [Reg.STR_LINK_STATE n, Reg.STR_STATUS_NONSLOW_LOW] s (s.setLink n st) := by
  unfold State.setLink
  dsimp only
  split
  · exact ⟨fun _ => rfl, (LinkKept.refl s).mono (List.nil_subset _)⟩
  · exact ⟨fun m => by simp, ((((LinkKept.wr s _ _).trans (.raise _ _)).trans (.raiseIf _ _ _)).trans (.wr _ _ _)).trans (.raiseIf _ _ _)⟩

theorem setLink_state (s : State) {st : Nat} (h : st < 8) : (s.setLink n st).linkState n = st := by
  unfold State.setLink
  dsimp only
  split
  · assumption
  · rw [State.linkState, (LinkKept.raiseIf _ _ _).rd, (LinkKept.wr _ _ _).rd, (LinkKept.raiseIf _ _ _).rd, (LinkKept.raise _ _).rd]
    exact rd_wr_fits (by simp [Reg.STR_LINK_STATE]) h

theorem returnDone_spec (s : State) (n : Nat) : (∃ r k, (s.returnDone n).lnk n = { s.lnk n with returning := r, heldFrom := k }) ∧
    LinkKept [Reg.STR_LINK_STATE n, Reg.STR_STATUS_NONSLOW_LOW] s (s.returnDone n) := by
  unfold State.returnDone
  split
  · obtain ⟨hlnk, hkept⟩ := setLink_spec (s.modLnk n fun x => { x with returning := false, heldFrom := if (s.lnk n).hot then 1 else x.heldFrom }) n
      (if (s.lnk n).hot then 3 else 1)
    exact ⟨⟨_, _, by rw [hlnk, lnk_modLnk]⟩, (LinkKept.modLnk s n _).trans hkept⟩
  · exact ⟨⟨_, _, rfl⟩, (LinkKept.refl s).mono (List.nil_subset _)⟩

/-- IDENTIFY goes first: the training came from DETECT and follows enumeration. -/
def State.identifies (s : State) (n : Nat) : Bool := (s.lnk n).full && s.rd (Reg.JL_BRIDGE_STATUS_ENUM_DONE n) == 1

/-- ACTIVE before anything is sent and before the link enters service. -/
def State.activated (s : State) (n resync : Nat) : State :=
  ((s.setJl n 5).wr (Reg.JL_TRAIN_US_US n) ((s.now - (s.lnk n).trainAt) / 1000)).modLnk n fun y =>
    { y with
      scrTx := scrSeed, wire := [setBlock startSetBytes],
      ackAt := s.now, resync := resync, tempSeen := false, tempAt := if (s.lnk n).full then s.now else y.tempAt, downSince := none, window := none,
      full := false, lastRate := s.jlRate n, identAt := if s.identifies n then some s.now else none }

/-- A link that has become ACTIVE enters service: `usable`, its personality is usable; `back`, it was on its way back. -/
def State.intoService (s : State) (n : Nat) (usable back : Bool) : State :=
  if s.linkState n = 0 && usable then s.setLink n 1 else if back then s.returnDone n else s

theorem toActive_eq (s : State) (n resync : Nat) : ∃ usable, s.toActive n resync =
    ((if s.identifies n then (s.activated n resync).mgmt n 1 [] else s.activated n resync).intoService n usable
      ((s.lnk n).returning && !s.identifies n)).pump n := ⟨_, rfl⟩

theorem activated_lnk (s : State) (n resync : Nat) : ((s.activated n resync).lnk n).resync = resync ∧ ((s.activated n resync).lnk n).window = none ∧
    ((s.activated n resync).lnk n).downSince = none ∧ ((s.activated n resync).lnk n).scrRx = (s.lnk n).scrRx := by
  obtain ⟨m, w, h⟩ := setJl_lnk s n 5
  rw [State.activated, lnk_modLnk, lnk_wr, h]
  exact ⟨rfl, rfl, rfl, rfl⟩

theorem activated_state (s : State) (resync : Nat) : (s.activated n resync).jlState n = 5 :=
  (LinkKept.wr _ _ _).rd.trans (setJl_state s (by decide))

theorem intoService_spec (s : State) (n : Nat) (usable back : Bool) :
    (∃ r k, (s.intoService n usable back).lnk n = { s.lnk n with returning := r, heldFrom := k }) ∧
    LinkKept [Reg.STR_LINK_STATE n, Reg.STR_STATUS_NONSLOW_LOW] s (s.intoService n usable back) := by
  unfold State.intoService
  split
  · obtain ⟨hlnk, hkept⟩ := setLink_spec s n 1
    exact ⟨⟨_, _, hlnk n⟩, hkept⟩
  · split
    · exact returnDone_spec s n
    · exact ⟨⟨_, _, rfl⟩, (LinkKept.refl s).mono (List.nil_subset _)⟩

/-- ACTIVE entered, up to what is sent at once: a request for IDENTIFY waits for the partner's START. -/
theorem toActive_spec {s : State} {resync : Nat} (h : (s.lnk n).full = false ∨ resync = 2) : ∃ v : State, s.toActive n resync = v.pump n ∧
    v.jlState n = 5 ∧ (v.lnk n).resync = resync ∧ (v.lnk n).window = none ∧ (v.lnk n).downSince = none ∧ (v.lnk n).scrRx = (s.lnk n).scrRx := by
  obtain ⟨usable, heq⟩ := toActive_eq s n resync
  obtain ⟨hsync, -⟩ := activated_lnk s n resync
  have hident : (∃ g q, (if s.identifies n then (s.activated n resync).mgmt n 1 [] else s.activated n resync).lnk n =
      { (s.activated n resync).lnk n with tags := g, capq := q }) ∧
      LinkKept [] (s.activated n resync) (if s.identifies n then (s.activated n resync).mgmt n 1 [] else s.activated n resync) := by
    split
    · next hid =>
      obtain hfull | rfl := h
      · simp [State.identifies, hfull] at hid
      · exact mgmt_unsynced hsync 1 []
    · exact ⟨⟨_, _, rfl⟩, .refl _⟩
  obtain ⟨⟨g, q, hlnk⟩, hkept⟩ := hident
  obtain ⟨⟨r, k, hserved⟩, hservice⟩ := intoService_spec
    (if s.identifies n then (s.activated n resync).mgmt n 1 [] else s.activated n resync) n usable ((s.lnk n).returning && !s.identifies n)
  refine ⟨_, heq, ?_, ?_⟩
  · exact hservice.rd.trans (hkept.rd.trans (activated_state s resync))
  · rw [hserved, hlnk]
    exact activated_lnk s n resync

end

end Sys2Proof.Machine

end

section
/-!
PROOFS. Scope: the training of a Jalyen link: lock, ordered sets, parks, limits, the sweep and the speed change, DOWN and retirement (14 R500 to R512,
R521, R525, R526, R534).
-/
namespace Sys2Proof.Machine

section
variable {s : State} {n : Fin 512}

/-! ### Block lock (R500, R502) -/

theorem lock_set (s : State) : (s.wr (Reg.JL_STATE_BLOCK_LOCK n) 1).rd (Reg.JL_STATE_BLOCK_LOCK n) = 1 :=
  rd_wr_fits (by simp [Reg.JL_STATE_BLOCK_LOCK]) (by simp [Reg.JL_STATE_BLOCK_LOCK])

/-- The first SYNC in DETECT. -/
theorem lockAcquire_detect (h : s.jlState n = 1) : (s.lockAcquire n).jlState n = 2 ∧ (s.lockAcquire n).rd (Reg.JL_STATE_BLOCK_LOCK n) = 1 ∧
    (s.lockAcquire n).evtStatus (2 * n + 1) = true := by
  rw [show s.lockAcquire n = ((s.wr (Reg.JL_STATE_BLOCK_LOCK n) 1).modLnk n fun x => { x with eq := false }).setJl n 2 from if_pos h]
  refine ⟨setJl_state _ (by decide), (setJl_kept _ n 2).rd.trans (lock_set s), setJl_status ?_⟩
  have hstate : (s.wr (Reg.JL_STATE_BLOCK_LOCK n) 1).jlState n = 1 := (LinkKept.wr s _ _).rd.trans h
  exact fun h2 => absurd (hstate.symm.trans h2) (by decide)

theorem lockAcquire_training (h : 2 ≤ s.jlState n) (h6 : s.jlState n ≤ 6) :
    (s.lockAcquire n).jlState n = s.jlState n ∧ (s.lockAcquire n).rd (Reg.JL_STATE_BLOCK_LOCK n) = 1 := by
  rw [show s.lockAcquire n = s.wr (Reg.JL_STATE_BLOCK_LOCK n) 1 from (if_neg (by omega)).trans (if_pos ⟨h, h6⟩)]
  exact ⟨(LinkKept.wr s _ _).rd, lock_set s⟩

theorem lockAcquire_other (h : s.jlState n = 0 ∨ 6 < s.jlState n) : s.lockAcquire n = s := (if_neg (by omega)).trans (if_neg (by omega))

theorem lockLoss_active (h : s.jlState n = 5) (hfew : ((s.lnk n).retrains.filter fun t => s.now < t + 60000000000).length < 2) :
    RetrainsAt s.now n 2 (s.lockLoss n) := by
  rw [show s.lockLoss n = (s.wr (Reg.JL_STATE_BLOCK_LOCK n) 0).enterRetrain n 2 from if_pos h]
  exact enterRetrain_at rfl (by decide) fun _ => hfew

theorem lockLoss_training (h : 2 ≤ s.jlState n) (h6 : s.jlState n ≤ 6) (h5 : s.jlState n ≠ 5) : InDetect n (s.lockLoss n) ∧
    ((s.lnk n).window = none → ((s.lockLoss n).lnk n).window = some (s.now + 200000000)) := by
  rw [show s.lockLoss n = (s.wr (Reg.JL_STATE_BLOCK_LOCK n) 0).failToDetect n from (if_neg h5).trans (if_pos ⟨h, h6⟩)]
  exact ⟨failToDetect_inDetect _, fun hnone => failToDetect_window hnone⟩

theorem lockLoss_other (h : s.jlState n ≤ 1 ∨ 6 < s.jlState n) : s.lockLoss n = s := (if_neg (by omega)).trans (if_neg (by omega))

/-! ### TS1 (R504, R508, R521) -/

/-- What a valid TS1 changes before the state it comes in is looked at. -/
def State.ts1Counted (s : State) (n : Nat) (ts : List Byte) : State :=
  (s.wr (Reg.JL_STATE_PARTNER_RATES n) (byteAt ts 1 % 8)).modLnk n fun x => { x with tsRun := x.tsRun + 1 }

theorem ts1Counted_lnk (s : State) (n : Nat) (ts : List Byte) : (s.ts1Counted n ts).lnk n = { s.lnk n with tsRun := (s.lnk n).tsRun + 1 } := lnk_modLnk _ _ _

theorem ts1Counted_kept (s : State) (n : Nat) (ts : List Byte) : LinkKept [Reg.JL_STATE_PARTNER_RATES n] s (s.ts1Counted n ts) :=
  (LinkKept.wr s _ _).trans (.modLnk _ n _)

theorem ts1Counted_rates (s : State) (ts : List Byte) : (s.ts1Counted n ts).rd (Reg.JL_STATE_PARTNER_RATES n) = byteAt ts 1 % 8 :=
  rd_wr_fits (by simp [Reg.JL_STATE_PARTNER_RATES]) (Nat.mod_lt _ (by decide))

/-- The ordered sets sent are counted from the entry of the state, at the rate in hand. -/
theorem tsSent_congr {s t : State} {n : Nat} (hnow : t.now = s.now) (hsince : (t.lnk n).since = (s.lnk n).since) (hrate : t.jlRate n = s.jlRate n) :
    t.tsSent n = s.tsSent n := by
  rw [State.tsSent, hnow, hsince, hrate, State.tsSent]

theorem ts1Counted_tsSent (s : State) (ts : List Byte) : (s.ts1Counted n ts).tsSent n = s.tsSent n :=
  tsSent_congr rfl (by rw [ts1Counted_lnk]) (ts1Counted_kept s n ts).rd

variable {ts : List Byte}

theorem ts1_invalid (h : tsValid 0x1E ts = false) : s.ts1 n ts = s.modLnk n fun x => { x with tsRun := 0 } := if_pos (by simp [h])

section
variable (hvalid : tsValid 0x1E ts = true)
include hvalid

/-- In ALIGN eight valid TS1, with sixteen sent, lead on. -/
theorem ts1_align (h : s.jlState n = 2) : s.ts1 n ts =
    if 7 ≤ (s.lnk n).tsRun ∧ 16 ≤ s.tsSent n then
      (if (s.lnk n).eq = true ∧ s.jlRate n < 2 then
        ((s.ts1Counted n ts).modLnk n fun x => { x with sweep := 0, best := (0, 0, 0, 0), sweepOk := false }).setJl n 4
      else (s.ts1Counted n ts).setJl n 3)
    else s.ts1Counted n ts := by
  have hdue : (8 ≤ ((s.ts1Counted n ts).lnk n).tsRun ∧ 16 ≤ (s.ts1Counted n ts).tsSent n) ↔ (7 ≤ (s.lnk n).tsRun ∧ 16 ≤ s.tsSent n) := by
    rw [ts1Counted_lnk, ts1Counted_tsSent]
    exact and_congr_left' (Nat.add_le_add_iff_right (n := 1))
  unfold State.ts1
  rw [if_neg (by simp [hvalid]), h]
  exact if_congr hdue rfl rfl

theorem ts1_alignWaits (h : s.jlState n = 2) (hmore : (s.lnk n).tsRun < 7 ∨ s.tsSent n < 16) : (s.ts1 n ts).jlState n = 2 ∧
    (s.ts1 n ts).lnk n = { s.lnk n with tsRun := (s.lnk n).tsRun + 1 } ∧ (s.ts1 n ts).rd (Reg.JL_STATE_PARTNER_RATES n) = byteAt ts 1 % 8 := by
  rw [ts1_align hvalid h, if_neg (by omega)]
  exact ⟨(ts1Counted_kept s n _).rd.trans h, ts1Counted_lnk s n _, ts1Counted_rates s _⟩

theorem ts1_alignEnds (h : s.jlState n = 2) (hrun : 7 ≤ (s.lnk n).tsRun) (hsent : 16 ≤ s.tsSent n) :
    (s.ts1 n ts).jlState n = (if (s.lnk n).eq = true ∧ s.jlRate n < 2 then 4 else 3) ∧ (s.ts1 n ts).evtStatus (2 * n + 1) = true ∧
    ((s.ts1 n ts).lnk n).tsRun = 0 := by
  have hentry {u : State} {st : Nat} (hu : u.jlState n = 2) (hst : st < 16) (hne : 2 ≠ st) : (u.setJl n st).jlState n = st ∧
      (u.setJl n st).evtStatus (2 * n + 1) = true ∧ ((u.setJl n st).lnk n).tsRun = 0 := by
    obtain ⟨m, w, hlnk⟩ := setJl_lnk u n st
    exact ⟨setJl_state u hst, setJl_status (hu ▸ hne), by rw [hlnk]⟩
  have hstate : (s.ts1Counted n ts).jlState n = 2 := (ts1Counted_kept s n _).rd.trans h
  rw [ts1_align hvalid h, if_pos ⟨hrun, hsent⟩]
  split
  · exact hentry hstate (by decide) (by decide)
  · exact hentry hstate (by decide) (by decide)

theorem ts1_active (h : s.jlState n = 5) (hfew : ((s.lnk n).retrains.filter fun t => s.now < t + 60000000000).length < 2) :
    RetrainsAt s.now n 8 (s.ts1 n ts) := by
  have hretrain : s.ts1 n ts = (s.ts1Counted n ts).enterRetrain n 8 := by
    unfold State.ts1
    rw [if_neg (by simp [hvalid]), h]
    rfl
  rw [hretrain]
  exact enterRetrain_at rfl (by decide) fun _ => by rw [ts1Counted_lnk]; exact hfew

end

/-! ### TS2 (R502, R506, R524) -/

/-- The fields a TS2 brings the bridge's offer to. -/
abbrev offerFields (n : Nat) : List Field := [Reg.JL_STATE_PARTNER_RATES n, Reg.JL_PARTNER_REPLAY_DEPTH n, Reg.JL_PARTNER_VERSION n, Reg.JL_PARTNER_VC0_CREDITS n,
  Reg.JL_PARTNER_VC1_CREDITS n, Reg.JL_CREDIT_VC0_AVAIL n, Reg.JL_CREDIT_VC1_AVAIL n]

/-- The bridge's offer in the registers. -/
def State.offered (s : State) (n : Nat) (ts : List Byte) : State :=
  ((((((s.wr (Reg.JL_STATE_PARTNER_RATES n) (byteAt ts 1 % 8)).wr (Reg.JL_PARTNER_REPLAY_DEPTH n) (byteAt ts 8)).wr (Reg.JL_PARTNER_VERSION n) (byteAt ts 7)).wr
    (Reg.JL_PARTNER_VC0_CREDITS n) (byteAt ts 5 % 128)).wr (Reg.JL_PARTNER_VC1_CREDITS n) (byteAt ts 6 % 128)).wr
    (Reg.JL_CREDIT_VC0_AVAIL n) (min 127 (byteAt ts 5))).wr (Reg.JL_CREDIT_VC1_AVAIL n) (min 127 (byteAt ts 6))

theorem byteAt_lt (b : List Byte) (k : Nat) : byteAt b k < 256 := (b.getD k 0).isLt

theorem offered_kept (s : State) (n : Nat) (ts : List Byte) : LinkKept (offerFields n) s (s.offered n ts) := by
  unfold State.offered
  exact ((((((LinkKept.wr s _ _).trans (.wr _ _ _)).trans (.wr _ _ _)).trans (.wr _ _ _)).trans (.wr _ _ _)).trans (.wr _ _ _)).trans (.wr _ _ _)

theorem offered_rd (s : State) (ts : List Byte) : (s.offered n ts).rd (Reg.JL_PARTNER_VC0_CREDITS n) = byteAt ts 5 % 128 ∧
    (s.offered n ts).rd (Reg.JL_CREDIT_VC0_AVAIL n) = min 127 (byteAt ts 5) ∧
    (s.offered n ts).rd (Reg.JL_CREDIT_VC1_AVAIL n) = min 127 (byteAt ts 6) ∧ (s.offered n ts).rd (Reg.JL_PARTNER_REPLAY_DEPTH n) = byteAt ts 8 := by
  unfold State.offered
  refine ⟨?_, ?_, ?_, ?_⟩
  · rw [(LinkKept.wr _ _ _).rd, (LinkKept.wr _ _ _).rd, (LinkKept.wr _ _ _).rd]
    exact rd_wr_fits (by simp [Reg.JL_PARTNER_VC0_CREDITS]) (Nat.mod_lt _ (by simp))
  · rw [(LinkKept.wr _ _ _).rd]
    exact rd_wr_fits (by simp [Reg.JL_CREDIT_VC0_AVAIL]) (by simp [Reg.JL_CREDIT_VC0_AVAIL])
  · exact rd_wr_fits (by simp [Reg.JL_CREDIT_VC1_AVAIL]) (by simp [Reg.JL_CREDIT_VC1_AVAIL])
  · rw [(LinkKept.wr _ _ _).rd, (LinkKept.wr _ _ _).rd, (LinkKept.wr _ _ _).rd, (LinkKept.wr _ _ _).rd, (LinkKept.wr _ _ _).rd]
    exact rd_wr_fits (by simp [Reg.JL_PARTNER_REPLAY_DEPTH]) (byteAt_lt ts 8)

/-- What a valid TS2 changes in CONFIG and RETRAIN before its count is looked at. -/
def State.ts2Counted (s : State) (n : Nat) (ts : List Byte) : State :=
  (s.offered n ts).modLnk n fun x =>
    { x with crLast := (0, 0), freed := (0, 0), ts2Run := x.ts2Run + 1, scRun := if (byteAt ts 3).testBit 0 then x.scRun + 1 else 0 }

theorem offered_lnk (s : State) (n : Nat) (ts : List Byte) : (s.offered n ts).lnk n = s.lnk n := rfl

theorem ts2Counted_lnk (s : State) (n : Nat) (ts : List Byte) : ∃ r, (s.ts2Counted n ts).lnk n =
    { s.lnk n with crLast := (0, 0), freed := (0, 0), ts2Run := (s.lnk n).ts2Run + 1, scRun := r } :=
  ⟨_, by rw [State.ts2Counted, lnk_modLnk, offered_lnk]⟩

theorem ts2Counted_kept (s : State) (n : Nat) (ts : List Byte) : LinkKept (offerFields n) s (s.ts2Counted n ts) :=
  (offered_kept s n ts).trans (.modLnk _ n _)

theorem ts2Counted_rd (s : State) (n : Nat) (ts : List Byte) (f : Field) : (s.ts2Counted n ts).rd f = (s.offered n ts).rd f := State.modLnk_rd _ _ _ _

theorem ts2Counted_tsSent (s : State) (ts : List Byte) : (s.ts2Counted n ts).tsSent n = s.tsSent n := by
  obtain ⟨r, hlnk⟩ := ts2Counted_lnk s n ts
  exact tsSent_congr (ts2Counted_kept s n ts).now (by rw [hlnk]) (ts2Counted_kept s n ts).rd

theorem ts2_invalid (h : tsValid 0x2D ts = false) : s.ts2 n ts = s.modLnk n fun x => { x with ts2Run := 0, scRun := 0 } := if_pos (by simp [h])

theorem ts2_other (hvalid : tsValid 0x2D ts = true) (h3 : s.jlState n ≠ 3) (h6 : s.jlState n ≠ 6) : s.ts2 n ts = s :=
  (if_neg (by simp [hvalid])).trans (if_pos ⟨h3, h6⟩)

/-- Where no speed change is due, eight TS2 with sixteen sent end the training. -/
theorem ts2_counts (hvalid : tsValid 0x2D ts = true) (h : s.jlState n = 6 ∨ (s.jlState n = 3 ∧ s.jlRate n ≠ 2)) :
    s.ts2 n ts = if 7 ≤ (s.lnk n).ts2Run ∧ 16 ≤ s.tsSent n then (s.ts2Counted n ts).toActive n 2 else s.ts2Counted n ts := by
  obtain ⟨r, hlnk⟩ := ts2Counted_lnk s n ts
  have hdue : (8 ≤ ((s.ts2Counted n ts).lnk n).ts2Run ∧ 16 ≤ (s.ts2Counted n ts).tsSent n) ↔ (7 ≤ (s.lnk n).ts2Run ∧ 16 ≤ s.tsSent n) := by
    rw [hlnk, ts2Counted_tsSent]
    exact and_congr_left' (Nat.add_le_add_iff_right (n := 1))
  have hchange : ¬(s.jlState n = 3 ∧ s.jlRate n = 2 ∧ (s.ts2Counted n ts).targetRate n < 2) := by
    rintro ⟨h3, hrate, -⟩
    omega
  refine (if_neg (by simp [hvalid])).trans ((if_neg (by omega)).trans ((if_neg hchange).trans (if_congr hdue rfl rfl)))

theorem ts2_waits (hvalid : tsValid 0x2D ts = true) (h : s.jlState n = 6 ∨ (s.jlState n = 3 ∧ s.jlRate n ≠ 2))
    (hmore : (s.lnk n).ts2Run < 7 ∨ s.tsSent n < 16) : (s.ts2 n ts).jlState n = s.jlState n ∧ ((s.ts2 n ts).lnk n).ts2Run = (s.lnk n).ts2Run + 1 ∧
    (s.ts2 n ts).rd (Reg.JL_PARTNER_VC0_CREDITS n) = byteAt ts 5 % 128 ∧ (s.ts2 n ts).rd (Reg.JL_CREDIT_VC0_AVAIL n) = min 127 (byteAt ts 5) ∧
    (s.ts2 n ts).rd (Reg.JL_CREDIT_VC1_AVAIL n) = min 127 (byteAt ts 6) ∧ (s.ts2 n ts).rd (Reg.JL_PARTNER_REPLAY_DEPTH n) = byteAt ts 8 := by
  obtain ⟨r, hlnk⟩ := ts2Counted_lnk s n ts
  rw [ts2_counts hvalid h, if_neg (by omega), ts2Counted_rd, ts2Counted_rd, ts2Counted_rd, ts2Counted_rd]
  exact ⟨(ts2Counted_kept s n _).rd, by rw [hlnk], offered_rd s ts⟩

theorem ts2_trained (hvalid : tsValid 0x2D ts = true) (h : s.jlState n = 6 ∨ (s.jlState n = 3 ∧ s.jlRate n ≠ 2)) (hrun : 7 ≤ (s.lnk n).ts2Run)
    (hsent : 16 ≤ s.tsSent n) : (s.ts2 n ts).jlState n = 5 ∧ ((s.ts2 n ts).lnk n).resync = 2 ∧ ((s.ts2 n ts).lnk n).window = none ∧
    ((s.ts2 n ts).lnk n).downSince = none := by
  obtain ⟨v, hactive, hstate, hsync, hwindow, hdown, -⟩ := toActive_spec (n := n) (s := s.ts2Counted n ts) (resync := 2) (.inr rfl)
  rw [ts2_counts hvalid h, if_pos ⟨hrun, hsent⟩, hactive, pump_unsynced hsync]
  exact ⟨hstate, hsync, hwindow, hdown⟩

/-! ### START and PARK (R521, R525, R526) -/

/-- START sets the receive scrambler to its seed, whatever else it does. -/
def State.seeded (s : State) (n : Nat) : State := s.modLnk n fun x => { x with scrRx := scrSeed }

theorem seeded_lnk (s : State) (n : Nat) : (s.seeded n).lnk n = { s.lnk n with scrRx := scrSeed } := lnk_modLnk _ _ _

theorem startSet_active (h : s.jlState n = 5) (hsync : (s.lnk n).resync = 2) : ∃ w : State, s.startSet n = w.pump n ∧ (w.lnk n).resync = 1 ∧
    (w.lnk n).scrRx = scrSeed ∧ w.jlState n = 5 :=
  ⟨(s.seeded n).modLnk n fun x => { x with resync := 1, tempSeen := false }, (if_pos h).trans (if_pos (by rw [lnk_modLnk]; exact hsync)), by rw [lnk_modLnk],
    by rw [lnk_modLnk, seeded_lnk], h⟩

theorem startSet_trained (h : s.jlState n = 3 ∨ s.jlState n = 6) (hrun : 8 ≤ (s.lnk n).ts2Run) (hfull : (s.lnk n).full = false) :
    ∃ w : State, s.startSet n = w.pump n ∧ w.jlState n = 5 ∧ (w.lnk n).resync = 1 ∧ (w.lnk n).scrRx = scrSeed := by
  obtain ⟨v, hactive, hstate, hsync, -, -, hseed⟩ := toActive_spec (n := n) (s := s.seeded n) (resync := 1) (.inl (by rw [seeded_lnk]; exact hfull))
  have htrained : s.startSet n = (s.seeded n).toActive n 1 :=
    (if_neg (show ¬s.jlState n = 5 by omega)).trans (if_pos ⟨h, by rw [lnk_modLnk]; exact hrun⟩)
  exact ⟨v, htrained.trans hactive, hstate, hsync, by rw [hseed, seeded_lnk]⟩

theorem startSet_other (h : (s.jlState n = 5 ∧ (s.lnk n).resync ≠ 2) ∨ ((s.jlState n = 3 ∨ s.jlState n = 6) ∧ (s.lnk n).ts2Run < 8) ∨
    (s.jlState n ≠ 5 ∧ s.jlState n ≠ 3 ∧ s.jlState n ≠ 6)) : s.startSet n = s.seeded n := by
  have hstate : (s.seeded n).jlState n = s.jlState n := rfl
  unfold State.startSet
  change (if (s.seeded n).jlState n = 5 then if ((s.seeded n).lnk n).resync = 2 then _ else s.seeded n
    else if ((s.seeded n).jlState n = 3 ∨ (s.seeded n).jlState n = 6) ∧ 8 ≤ ((s.seeded n).lnk n).ts2Run then _ else s.seeded n) = s.seeded n
  rw [hstate, seeded_lnk]
  split
  · exact if_neg (by dsimp only; omega)
  · exact if_neg (by dsimp only; omega)

theorem jlActive_iff : s.jlActive n = true ↔ s.jlState n = 5 := beq_iff_eq

/-- The state after PARK from the bridge. -/
def State.toPark (s : State) (n : Nat) : State := (s.modLnk n fun x => { x with parkAt := none, tempAt := s.now - x.tempAt }).setJl n 7

theorem parked_other (h : s.jlState n ≠ 5 ∨ (s.lnk n).parkAt = none) : s.parked n = s := by
  refine if_neg ?_
  rw [Bool.and_eq_true, jlActive_iff, Option.isSome_iff_ne_none]
  tauto

theorem parked_eq (h : s.jlState n = 5) (hpark : (s.lnk n).parkAt ≠ none) : s.parked n =
    if (s.lnk n).recal = true then
      ((((s.toPark n).modLnk n fun x => { x with recal := false }).wr (Reg.JL_STATE_CEILING n) 0).wr (Reg.JL_STATE_LAST_CAUSE n) 6).fullRetrain n true
    else s.toPark n :=
  if_pos (by rw [Bool.and_eq_true, jlActive_iff, Option.isSome_iff_ne_none]; exact ⟨h, hpark⟩)

theorem toPark_now (s : State) (n : Nat) : (s.toPark n).now = s.now := (setJl_kept _ n 7).now

theorem toPark_parkAt (s : State) (n : Nat) : ((s.toPark n).lnk n).parkAt = none := by
  obtain ⟨m, w, h⟩ := setJl_lnk (s.modLnk n fun x => { x with parkAt := none, tempAt := s.now - x.tempAt }) n 7
  rw [State.toPark, h, lnk_modLnk]

theorem fullRetrain_inDetect (s : State) (parked : Bool) : InDetect n (s.fullRetrain n parked) := toDetect_inDetect _ _ _

theorem fullRetrain_window (s : State) (n : Nat) (parked : Bool) : ((s.fullRetrain n parked).lnk n).window = some (s.now + 200000000) :=
  toDetect_window _ n _ parked

theorem parked_parks (h : s.jlState n = 5) (hpark : (s.lnk n).parkAt ≠ none) (hrecal : (s.lnk n).recal = false) : (s.parked n).jlState n = 7 ∧
    ((s.parked n).lnk n).parkAt = none ∧ (s.parked n).evtStatus (2 * n + 1) = true := by
  rw [parked_eq h hpark, if_neg (Bool.eq_false_iff.mp hrecal)]
  exact ⟨setJl_state _ (by decide), toPark_parkAt s n, setJl_status fun h7 => absurd (h.symm.trans h7) (by decide)⟩

/-- A recalibration trains the link anew from its park. -/
theorem parked_recalibrates (h : s.jlState n = 5) (hpark : (s.lnk n).parkAt ≠ none) (hrecal : (s.lnk n).recal = true) : InDetect n (s.parked n) ∧
    ((s.parked n).lnk n).window = some (s.now + 200000000) := by
  rw [parked_eq h hpark, if_pos hrecal]
  exact ⟨fullRetrain_inDetect _ _, by rw [fullRetrain_window, State.wr_now, State.wr_now, State.modLnk_now, toPark_now]⟩

theorem leavePark_parked (h : s.jlState n = 7) : RetrainsAt s.now n 9 (s.leavePark n) := by
  rw [show s.leavePark n = (s.modLnk n fun x => { x with tempAt := s.now - x.tempAt }).enterRetrain n 9 from if_pos h]
  exact enterRetrain_at rfl (by decide) fun hcounts => absurd hcounts (by decide)

theorem leavePark_other (h : s.jlState n ≠ 7) : s.leavePark n = s := if_neg h

/-! ### Limits (R504, R506, R508) -/

/-- ALIGN and CONFIG that come to their limit lower the ceiling above 4 GT/s. -/
theorem jlTimeout_training (h : s.jlState n = 2 ∨ s.jlState n = 3) : s.jlTimeout n = if (s.lnk n).since + 2000000 ≤ s.now then
    (if s.jlRate n < 2 then (s.lowerCeiling n).failToDetect n else s.failToDetect n) else s := by
  unfold State.jlTimeout
  obtain h | h := h <;> simp only [h, decide_eq_true_eq]

theorem jlTimeout_equalize (h : s.jlState n = 4) : s.jlTimeout n =
    if (s.lnk n).since + 24000000 ≤ s.now then ((s.raise (2 * n)).lowerCeiling n).failToDetect n else s := by
  unfold State.jlTimeout
  simp only [h, decide_eq_true_eq]

/-- EQUALIZE entered from a RETRAIN that came to its limit above 4 GT/s. -/
def State.reequalized (s : State) (n : Nat) : State :=
  ((s.modLnk n fun x => { x with sweep := 0, best := (0, 0, 0, 0), sweepOk := false, eq := true }).setJl n 4).wr (Reg.JL_STATE_LAST_CAUSE n) 7

theorem jlTimeout_retrain (h : s.jlState n = 6) : s.jlTimeout n = if (s.lnk n).since + 100000 ≤ s.now then
    (if s.jlRate n = 2 then s.enterDown n 7 else s.reequalized n) else s := by
  unfold State.jlTimeout
  simp only [h, decide_eq_true_eq]
  rfl

/-- ALIGN and CONFIG have 2 ms, EQUALIZE 24 ms; past them the training fails to DETECT. -/
theorem jlTimeout_limit {lim : Nat} (h : (s.jlState n = 2 ∧ lim = 2000000) ∨ (s.jlState n = 3 ∧ lim = 2000000) ∨ (s.jlState n = 4 ∧ lim = 24000000)) :
    ∃ u : State, s.jlTimeout n = if (s.lnk n).since + lim ≤ s.now then u.failToDetect n else s := by
  obtain ⟨hst, rfl⟩ | ⟨hst, rfl⟩ | ⟨hst, rfl⟩ := h
  · exact ⟨if s.jlRate n < 2 then s.lowerCeiling n else s, by rw [jlTimeout_training (.inl hst), apply_ite (State.failToDetect · n)]⟩
  · exact ⟨if s.jlRate n < 2 then s.lowerCeiling n else s, by rw [jlTimeout_training (.inr hst), apply_ite (State.failToDetect · n)]⟩
  · exact ⟨_, jlTimeout_equalize hst⟩

theorem jlTimeout_reequalizes (h : s.jlState n = 6) (hpast : (s.lnk n).since + 100000 ≤ s.now) (hrate : s.jlRate n ≠ 2) : (s.jlTimeout n).jlState n = 4 ∧
    (s.jlTimeout n).rd (Reg.JL_STATE_LAST_CAUSE n) = 7 ∧ ((s.jlTimeout n).lnk n).eq = true ∧ ((s.jlTimeout n).lnk n).sweep = 0 := by
  obtain ⟨m, w, hlnk⟩ := setJl_lnk (s.modLnk n fun x => { x with sweep := 0, best := (0, 0, 0, 0), sweepOk := false, eq := true }) n 4
  rw [jlTimeout_retrain h, if_pos hpast, if_neg hrate, State.reequalized, lnk_wr, hlnk, lnk_modLnk]
  exact ⟨(LinkKept.wr _ _ _).rd.trans (setJl_state _ (by decide)),
    rd_wr_fits (by simp [Reg.JL_STATE_LAST_CAUSE]) (by simp [Reg.JL_STATE_LAST_CAUSE]), rfl, rfl⟩

theorem jlTimeout_none (h : s.jlState n ≤ 1 ∨ s.jlState n = 5 ∨ 6 < s.jlState n) : s.jlTimeout n = s := by
  unfold State.jlTimeout
  split
  case h_5 => rfl
  all_goals omega

/-! ### The sweep (R508) and the speed change (R506) -/

/-- The best eye so far, with the one an odd step measured: area, preset, width, height. -/
def Lnk.bestEye (x : Lnk) (w h : Nat) : Nat × Nat × Nat × Nat := if x.sweep % 2 = 1 ∧ x.best.1 < w * h then (w * h, x.sweep / 2, w, h) else x.best

/-- A step of the sweep, before what follows from it. -/
def State.swept (s : State) (n w h c d : Nat) : State :=
  let s1 := s.modLnk n fun y => { y with sweep := y.sweep + 1, best := (s.lnk n).bestEye w h }
  if (s.lnk n).sweep % 2 = 0 then (s1.wr (Reg.JL_EQ_CTLE n) (min 31 c)).wr (Reg.JL_EQ_DFE1 n) d else s1

/-- The end of the sweep: the preset asked of the bridge and the eye it gave. -/
def State.sweepShown (s : State) (n : Nat) (best : Nat × Nat × Nat × Nat) : State :=
  let s1 := ((s.wr (Reg.JL_EQ_PARTNER_PRESET n) best.2.1).wr (Reg.JL_EYE_EYE_W n) best.2.2.1).wr (Reg.JL_EYE_EYE_H n) best.2.2.2
  (if s1.rd (Reg.JL_STATE_LAST_CAUSE n) = 6 then s1.histAdd 7 best.2.2.1 else s1).bump (Reg.JL_EYE_COUNT n)

section
variable {w h c d : Nat}

theorem eqStep_other (hno : s.jlState n ≠ 4 ∨ (s.lnk n).sweepOk = true ∨ 16 ≤ (s.lnk n).sweep ∨ s.now < (s.lnk n).since + ((s.lnk n).sweep + 1) * 1000000) :
    s.eqStep n w h c d = s := if_pos hno

section
variable (hstate : s.jlState n = 4) (hopen : (s.lnk n).sweepOk = false) (hdue : (s.lnk n).since + ((s.lnk n).sweep + 1) * 1000000 ≤ s.now)
include hstate hopen hdue

theorem eqStep_goesOn (hmore : (s.lnk n).sweep < 15) : s.eqStep n w h c d = (s.swept n w h c d).showSets n :=
  (if_neg (by rw [hopen]; simp; omega)).trans (if_pos (by omega))

theorem eqStep_ends (hlast : (s.lnk n).sweep = 15) : s.eqStep n w h c d =
    let best := (s.lnk n).bestEye w h
    let t := (s.swept n w h c d).sweepShown n best
    if 22 ≤ best.2.2.1 ∧ 25 ≤ best.2.2.2 then (t.modLnk n fun y => { y with sweepOk := true }).showSets n
    else ((t.raise (2 * n)).lowerCeiling n).failToDetect n :=
  (if_neg (by rw [hopen]; simp; omega)).trans (if_neg (by omega))

end

theorem swept_lnk (s : State) (n w h c d : Nat) : (s.swept n w h c d).lnk n =
    { s.lnk n with sweep := (s.lnk n).sweep + 1, best := (s.lnk n).bestEye w h } := by
  unfold State.swept
  dsimp only
  split
  · rw [lnk_wr, lnk_wr, lnk_modLnk]
  · rw [lnk_modLnk]

theorem swept_kept (s : State) (n w h c d : Nat) : LinkKept [Reg.JL_EQ_CTLE n, Reg.JL_EQ_DFE1 n] s (s.swept n w h c d) :=
  .ite (((LinkKept.modLnk s n _).trans (.wr _ _ _)).trans (.wr _ _ _)) ((LinkKept.modLnk s n _).mono (List.nil_subset _))

/-- An even step adapts the receiver. -/
theorem swept_adapts (hd : d < 256) (heven : (s.lnk n).sweep % 2 = 0) : (s.swept n w h c d).rd (Reg.JL_EQ_CTLE n) = min 31 c ∧
    (s.swept n w h c d).rd (Reg.JL_EQ_DFE1 n) = d := by
  unfold State.swept
  dsimp only
  rw [if_pos heven]
  refine ⟨?_, rd_wr_fits (by simp [Reg.JL_EQ_DFE1]) hd⟩
  rw [(LinkKept.wr _ _ _).rd]
  exact rd_wr_fits (by simp [Reg.JL_EQ_CTLE]) (by simp [Reg.JL_EQ_CTLE])

theorem tsBytes_modLnk (s : State) (n id : Nat) (wire : List Block) : (s.modLnk n fun x => { x with wire := wire }).tsBytes n id = s.tsBytes n id := by
  unfold State.tsBytes
  rw [lnk_modLnk]
  rfl

/-- What EQUALIZE sends: SYNC and the TS1 of the state it is in. -/
theorem showSets_equalize {t : State} (h : t.jlState n = 4) : (t.showSets n).lnk n =
    { t.lnk n with wire := [setBlock syncSet, setBlock ((t.showSets n).tsBytes n 0x1E)] } := by
  have hsets : t.showSets n = t.modLnk n fun x => { x with wire := [setBlock syncSet, setBlock (t.tsBytes n 0x1E)] } :=
    (if_neg (by omega)).trans (if_pos (by omega))
  rw [hsets, tsBytes_modLnk, lnk_modLnk]

theorem sweepShown_kept (s : State) (n : Nat) (best : Nat × Nat × Nat × Nat) :
    LinkKept [Reg.JL_EQ_PARTNER_PRESET n, Reg.JL_EYE_EYE_W n, Reg.JL_EYE_EYE_H n, Reg.JL_EYE_COUNT n] s (s.sweepShown n best) := by
  unfold State.sweepShown
  exact ((((LinkKept.wr s _ _).trans (.wr _ _ _)).trans (.wr _ _ _)).trans (.ite (.histAdd _ _ _) (.refl _))).trans (.bump _ _)

theorem sweepShown_eye (s : State) (best : Nat × Nat × Nat × Nat) : (s.sweepShown n best).rd (Reg.JL_EYE_EYE_W n) = best.2.2.1 % 256 ∧
    (s.sweepShown n best).rd (Reg.JL_EYE_EYE_H n) = best.2.2.2 % 256 := by
  unfold State.sweepShown
  dsimp only
  rw [(LinkKept.bump _ _).rd, (LinkKept.bump _ _).rd, (LinkKept.ite (.histAdd _ _ _) (.refl _)).rd, (LinkKept.ite (.histAdd _ _ _) (.refl _)).rd]
  refine ⟨?_, rd_wr (by simp [Reg.JL_EYE_EYE_H])⟩
  rw [(LinkKept.wr _ _ _).rd]
  exact rd_wr (by simp [Reg.JL_EYE_EYE_W])

section
variable (hstate : s.jlState n = 4) (hopen : (s.lnk n).sweepOk = false) (hdue : (s.lnk n).since + ((s.lnk n).sweep + 1) * 1000000 ≤ s.now)
include hstate hopen hdue

/-- A step before the last: the link's own part after it, and what an even step adapts. -/
theorem eqStep_step (hd : d < 256) (hmore : (s.lnk n).sweep < 15) : (s.eqStep n w h c d).lnk n =
    { s.lnk n with
      sweep := (s.lnk n).sweep + 1, best := (s.lnk n).bestEye w h, wire := [setBlock syncSet, setBlock ((s.eqStep n w h c d).tsBytes n 0x1E)] } ∧
    (s.eqStep n w h c d).jlState n = 4 ∧
    ((s.lnk n).sweep % 2 = 0 → (s.eqStep n w h c d).rd (Reg.JL_EQ_CTLE n) = min 31 c ∧ (s.eqStep n w h c d).rd (Reg.JL_EQ_DFE1 n) = d) := by
  have hswept : (s.swept n w h c d).jlState n = 4 := (swept_kept s n w h c d).rd.trans hstate
  rw [eqStep_goesOn hstate hopen hdue hmore]
  refine ⟨(showSets_equalize hswept).trans (by rw [swept_lnk]), (showSets_kept _ n).rd.trans hswept, fun heven => ?_⟩
  rw [(showSets_kept _ n).rd, (showSets_kept _ n).rd]
  exact swept_adapts hd heven

theorem eqStep_passes (hlast : (s.lnk n).sweep = 15) (hwide : 22 ≤ ((s.lnk n).bestEye w h).2.2.1) (hhigh : 25 ≤ ((s.lnk n).bestEye w h).2.2.2) :
    ((s.eqStep n w h c d).lnk n).sweepOk = true ∧ (s.eqStep n w h c d).jlState n = 4 ∧
    (s.eqStep n w h c d).rd (Reg.JL_EYE_EYE_W n) = ((s.lnk n).bestEye w h).2.2.1 % 256 ∧
    (s.eqStep n w h c d).rd (Reg.JL_EYE_EYE_H n) = ((s.lnk n).bestEye w h).2.2.2 % 256 := by
  have hsets (u : State) (f : Lnk → Lnk) : LinkKept [] u ((u.modLnk n f).showSets n) := (LinkKept.modLnk u n f).trans (showSets_kept _ n)
  rw [eqStep_ends hstate hopen hdue hlast]
  dsimp only
  rw [if_pos ⟨hwide, hhigh⟩, (hsets _ _).rd, (hsets _ _).rd]
  refine ⟨?_, ?_, sweepShown_eye _ _⟩
  · obtain ⟨wire, hlnk⟩ := showSets_lnk (((s.swept n w h c d).sweepShown n ((s.lnk n).bestEye w h)).modLnk n fun y => { y with sweepOk := true }) n
    rw [hlnk, lnk_modLnk]
  · exact (hsets _ _).rd.trans ((sweepShown_kept _ n _).rd.trans ((swept_kept s n w h c d).rd.trans hstate))

theorem eqStep_fails (hlast : (s.lnk n).sweep = 15) (hsmall : ((s.lnk n).bestEye w h).2.2.1 < 22 ∨ ((s.lnk n).bestEye w h).2.2.2 < 25) :
    InDetect n (s.eqStep n w h c d) := by
  rw [eqStep_ends hstate hopen hdue hlast]
  dsimp only
  rw [if_neg (by omega)]
  exact failToDetect_inDetect _

end

end

theorem targetRate_lt (s : State) (n : Nat) : s.targetRate n < 4 := by
  unfold State.targetRate
  dsimp only
  generalize hfind : (List.range 3).find? _ = found
  cases found with
  | none => decide
  | some c =>
    have hc := List.mem_range.mp (List.mem_of_find?_eq_some hfind)
    exact Nat.lt_succ_of_lt hc

/-- ALIGN entered again at the target rate. -/
def State.atTarget (s : State) (n : Nat) : State :=
  ((s.modLnk n fun x => { x with idleEnd := none, eq := true }).wr (Reg.JL_STATE_RATE n) (s.targetRate n)).setJl n 2

theorem speedChange_none (h : ∀ t, (s.lnk n).idleEnd = some t → s.now < t ∨ s.jlState n ≠ 3) : s.speedChange n = s := by
  unfold State.speedChange
  split
  · rfl
  · next t ht => exact if_pos (h t ht)

theorem speedChange_due {t : Nat} (hidle : (s.lnk n).idleEnd = some t) (hnow : t ≤ s.now) (h : s.jlState n = 3) : s.speedChange n = s.atTarget n := by
  unfold State.speedChange
  rw [hidle]
  exact if_neg (by omega)

theorem atTarget_rate (s : State) : (s.atTarget n).jlRate n = s.targetRate n :=
  (setJl_kept _ n 2).rd.trans (rd_wr_fits (by simp [Reg.JL_STATE_RATE]) (targetRate_lt s n))

theorem atTarget_lnk (s : State) (n : Nat) : ((s.atTarget n).lnk n).eq = true ∧ ((s.atTarget n).lnk n).idleEnd = none := by
  obtain ⟨m, w, h⟩ := setJl_lnk ((s.modLnk n fun x => { x with idleEnd := none, eq := true }).wr (Reg.JL_STATE_RATE n) (s.targetRate n)) n 2
  rw [State.atTarget, h, lnk_wr, lnk_modLnk]
  exact ⟨rfl, rfl⟩

/-! ### The training window, retries and retirement (R510 to R512, R534) -/

theorem windowEnd_none (h : ∀ t, (s.lnk n).window = some t → s.now < t ∨ s.jlState n = 5) : s.windowEnd n = s := by
  unfold State.windowEnd
  split
  · rfl
  · next t ht => exact if_pos (by rw [jlActive_iff]; exact h t ht)

theorem windowEnd_due {t : Nat} (hwindow : (s.lnk n).window = some t) (hnow : t ≤ s.now) (h : s.jlState n ≠ 5) : s.windowEnd n = s.enterDown n 7 := by
  unfold State.windowEnd
  rw [hwindow]
  exact if_neg (by rw [jlActive_iff]; omega)

theorem downRetry_due (h : s.jlState n = 8) (hnow : (s.lnk n).downRetryAt ≤ s.now) : s.downRetry n = s.toDetect n (s.now + 200000000) false := if_pos ⟨h, hnow⟩

theorem downRetry_other (h : s.jlState n ≠ 8 ∨ s.now < (s.lnk n).downRetryAt) : s.downRetry n = s := if_neg (by omega)

/-- What retires a link: DOWN for 60 s, or eight entries of DOWN in 24 h. -/
def State.gone (s : State) (n : Nat) : Prop :=
  s.linkState n ≠ 6 ∧ ((∃ t, (s.lnk n).downSince = some t ∧ t + 60000000000 ≤ s.now) ∨ 8 ≤ ((s.lnk n).downs.filter fun t => s.now < t + 86400000000000).length)

/-- A link retired, up to the record and the members. -/
def State.linkRetired (s : State) (n : Nat) : State :=
  ((((((s.clearLink n).faultLink n 6 false).setJl n 10).wr (Reg.JL_STATE_RATE n) 3).setLink n 6).modLnk n fun x => { x with window := none, downSince := none })

/-- DOWN for 60 s. -/
def State.downLong (s : State) (n : Nat) : Bool := match (s.lnk n).downSince with | some t => decide (t + 60000000000 ≤ s.now) | none => false

theorem downLong_iff (s : State) (n : Nat) : s.downLong n = true ↔ ∃ t, (s.lnk n).downSince = some t ∧ t + 60000000000 ≤ s.now := by
  unfold State.downLong
  cases (s.lnk n).downSince <;> simp

theorem not_gone_iff (s : State) (n : Nat) : (s.linkState n = 6 ∨
    (!(s.downLong n || decide (8 ≤ ((s.lnk n).downs.filter fun t => s.now < t + 86400000000000).length))) = true) ↔ ¬s.gone n := by
  rw [State.gone, ← downLong_iff, Bool.not_eq_true', Bool.or_eq_false_iff, decide_eq_false_iff_not, ← Bool.not_eq_true]
  tauto

theorem downRetire_other (h : ¬s.gone n) : s.downRetire n = s := if_pos ((not_gone_iff s n).mpr h)

theorem downRetire_gone (h : s.gone n) : s.downRetire n =
    (((s.linkRetired n).record 0x0C 2 [n.val, s.rd (Reg.JL_STATE_LAST_CAUSE n)]).membersLost n none s).startRebuild :=
  if_neg fun hno => (not_gone_iff s n).mp hno h

theorem linkRetired_state (s : State) : (s.linkRetired n).linkState n = 6 := setLink_state _ (by decide)

end

/-! ### The commands -/

/-- With the main domain down no link trains. -/
theorem exec_training_mainDown {s : State} (hmain : s.mainUp = false) (n : Fin 512) (b : Block) : ∀ i ∈ [Instr.jlBlockLockAcquire n, .jlBlockLockLoss n, .jlTs1 n b,
    .jlTs2 n b, .jlStart n, .jlPark n, .jlElectricalIdleExit n, .jlStateTimeout n, .jlEqualizeStep n 0 0 0 0, .jlSpeedChangeIdleEnd n,
    .jlTrainingWindowExpiry n, .jlDownRetry n, .jlDownRetire n, .jlCtlRetrain 4 n, .jlCtlRetrainFull 4 n], exec i s = .next s := by
  have halone {t : State} : Host.Outcome.next (if s.mainUp = true then t else s) = (.next s : Host.Outcome State Fault Refusal) := by simp [hmain]
  have hwith {c : Bool} {t : State} : Host.Outcome.next (if (s.mainUp && c) = true then t else s) = (.next s : Host.Outcome State Fault Refusal) := by
    simp [hmain]
  simp only [List.forall_mem_cons]
  exact ⟨halone, halone, hwith, hwith, halone, halone, halone, halone, halone, halone, halone, halone, halone, hwith, hwith,
    fun _ h => absurd h List.not_mem_nil⟩

section
variable {s : State} {n : Fin 512}

/-- A block that is no ordered set is no TS1 and no TS2. -/
theorem exec_ts_data {b : Block} (h : isSetBlock b = false) : exec (.jlTs1 n b) s = .next s ∧ exec (.jlTs2 n b) s = .next s :=
  ⟨congrArg Host.Outcome.next (if_neg (by simp [h])), congrArg Host.Outcome.next (if_neg (by simp [h]))⟩

/-- JL_CTL acts on an ACTIVE link alone. -/
theorem exec_jlCtl_inactive (a : Fin 8) (h : s.jlState n ≠ 5) : exec (.jlCtlRetrain a n) s = .next s ∧ exec (.jlCtlRetrainFull a n) s = .next s := by
  have hactive : ¬(s.mainUp && s.jlActive n) = true := by rw [Bool.and_eq_true, jlActive_iff]; exact fun hboth => h hboth.2
  exact ⟨congrArg _ (if_neg hactive), congrArg _ (if_neg hactive)⟩

section
variable (hmain : s.mainUp = true)
include hmain

theorem exec_jlBlockLockAcquire : exec (.jlBlockLockAcquire n) s = .next (s.lockAcquire n) := congrArg _ (if_pos hmain)
theorem exec_jlBlockLockLoss : exec (.jlBlockLockLoss n) s = .next (s.lockLoss n) := congrArg _ (if_pos hmain)
theorem exec_jlStart : exec (.jlStart n) s = .next (s.startSet n) := congrArg _ (if_pos hmain)
theorem exec_jlPark : exec (.jlPark n) s = .next (s.parked n) := congrArg _ (if_pos hmain)
theorem exec_jlElectricalIdleExit : exec (.jlElectricalIdleExit n) s = .next (s.leavePark n) := congrArg _ (if_pos hmain)
theorem exec_jlStateTimeout : exec (.jlStateTimeout n) s = .next (s.jlTimeout n) := congrArg _ (if_pos hmain)
theorem exec_jlEqualizeStep (w h c d : Fin 256) : exec (.jlEqualizeStep n w h c d) s = .next (s.eqStep n w h c d) := congrArg _ (if_pos hmain)
theorem exec_jlSpeedChangeIdleEnd : exec (.jlSpeedChangeIdleEnd n) s = .next (s.speedChange n) := congrArg _ (if_pos hmain)
theorem exec_jlTrainingWindowExpiry : exec (.jlTrainingWindowExpiry n) s = .next (s.windowEnd n).settleDma := congrArg _ (if_pos hmain)
theorem exec_jlDownRetry : exec (.jlDownRetry n) s = .next (s.downRetry n) := congrArg _ (if_pos hmain)
theorem exec_jlDownRetire : exec (.jlDownRetire n) s = .next (s.downRetire n).settleDma := congrArg _ (if_pos hmain)

theorem exec_jlTs1 {b : Block} (h : isSetBlock b = true) : exec (.jlTs1 n b) s = .next (s.ts1 n b.bytes) := congrArg _ (if_pos (by rw [hmain, h]; rfl))
theorem exec_jlTs2 {b : Block} (h : isSetBlock b = true) : exec (.jlTs2 n b) s = .next (s.ts2 n b.bytes) := congrArg _ (if_pos (by rw [hmain, h]; rfl))

theorem exec_jlCtl_active (a : Fin 8) (h : s.jlState n = 5) : exec (.jlCtlRetrain a n) s = .next (s.enterRetrain n 5) ∧
    exec (.jlCtlRetrainFull a n) s = .next ((s.wr (Reg.JL_STATE_LAST_CAUSE n) 5).fullRetrain n false) := by
  have hactive : (s.mainUp && s.jlActive n) = true := by rw [Bool.and_eq_true, jlActive_iff]; exact ⟨hmain, h⟩
  exact ⟨congrArg _ (if_pos hactive), congrArg _ (if_pos hactive)⟩

end

/-! ### The forms the statement asks for -/

/-- A command that enters a RETRAIN. -/
theorem RetrainsAt.ran {v : State} {cause : Nat} {i : Instr} (h : RetrainsAt s.now n cause v) (hi : exec i s = .next v) :
    ∃ t, exec i s = .next t ∧ t.jlState n = 6 ∧ t.rd (Reg.JL_STATE_LAST_CAUSE n) = cause ∧ (t.lnk n).resync = 2 ∧ (t.lnk n).trainAt = s.now :=
  ⟨v, hi, h.state, h.cause, h.resync, h.trainAt⟩

/-- A command that begins a training from DETECT. -/
theorem InDetect.ran {v : State} {i : Instr} (h : InDetect n v) (hi : exec i s = .next v) (hwindow : (v.lnk n).window = some (s.now + 200000000)) :
    ∃ t, exec i s = .next t ∧ t.jlState n = 1 ∧ t.jlRate n = 2 ∧ t.rd (Reg.JL_STATE_BLOCK_LOCK n) = 0 ∧ (t.lnk n).window = some (s.now + 200000000) :=
  ⟨v, hi, h.state, h.rate, h.lock, hwindow⟩

/-- A command that falls back to DETECT. -/
theorem InDetect.restarted {v : State} {i : Instr} (h : InDetect n v) (hi : exec i s = .next v) :
    ∃ t, exec i s = .next t ∧ t.jlState n = 1 ∧ t.jlRate n = 2 ∧ t.rd (Reg.JL_STATE_BLOCK_LOCK n) = 0 := ⟨v, hi, h.state, h.rate, h.lock⟩

end

end Sys2Proof.Machine

open Sys2Proof
open Sys2Proof.Machine

/-- Settles O54: a link's states are entered by `State.setJl`, and what comes after it leaves what it showed (`LinkKept`); a RETRAIN, a training from DETECT
and DOWN are each described once. -/
theorem linkTrainingFollowsItsOrderedSets : Obligations.LinkTrainingFollowsItsOrderedSets := by
  unfold Obligations.LinkTrainingFollowsItsOrderedSets
  intro n s x state few detects restarts retrains down isDown
  refine ⟨fun hmain b => exec_training_mainDown hmain n b, fun hmain => ?_⟩
  refine ⟨fun h => ?_, fun h2 h6 => ?_, fun h => ?_, fun h => ?_, fun h hfew => ?_, fun h2 h6 h5 => ⟨?_, fun hwindow => ?_⟩,
    fun b => ⟨exec_ts_data, fun hset hbad => ?_, fun hset hvalid => ⟨fun h hmore => ?_, fun h hrun hsent => ?_, fun h hfew => ?_⟩,
      fun hset hbad => ?_, fun hset hvalid => ⟨fun h3 h6 => ?_, fun h => ⟨fun hmore => ?_, fun hrun hsent => ?_⟩⟩⟩,
    fun h hsync => ?_, fun h hrun hfull => ?_, fun h => ?_, fun h => ?_, fun h hpark => ⟨fun hrecal => ?_, fun hrecal => ?_⟩,
    fun h => ?_, fun h => ?_, exec_jlCtl_inactive 4, fun a h => ?_, fun h => ?_, fun lim hlim => ⟨fun hearly => ?_, fun hpast => ?_⟩,
    fun h => ⟨fun hearly => ?_, fun hpast hrate => ?_, fun hpast hrate => ?_⟩,
    fun w h c d => ?_, fun h => ?_, fun t hidle hnow h => ?_, fun h => ?_, fun t hwindow hnow h => ?_, fun h => ?_, fun h hnow => ?_, ?_⟩
  · exact ⟨_, exec_jlBlockLockAcquire hmain, lockAcquire_detect h⟩
  · exact ⟨_, exec_jlBlockLockAcquire hmain, lockAcquire_training h2 h6⟩
  · rw [exec_jlBlockLockAcquire hmain, lockAcquire_other h]
  · rw [exec_jlBlockLockLoss hmain, lockLoss_other h]
  · exact (lockLoss_active h hfew).ran (exec_jlBlockLockLoss hmain)
  · obtain ⟨hdetect, -⟩ := lockLoss_training h2 h6 h5
    exact hdetect.restarted (exec_jlBlockLockLoss hmain)
  · obtain ⟨hdetect, hopened⟩ := lockLoss_training h2 h6 h5
    exact hdetect.ran (exec_jlBlockLockLoss hmain) (hopened hwindow)
  · rw [exec_jlTs1 hmain hset, ts1_invalid hbad]
    exact ⟨_, rfl, lnk_modLnk s n _, rfl⟩
  · exact ⟨_, exec_jlTs1 hmain hset, ts1_alignWaits hvalid h hmore⟩
  · exact ⟨_, exec_jlTs1 hmain hset, ts1_alignEnds hvalid h hrun hsent⟩
  · exact (ts1_active hvalid h hfew).ran (exec_jlTs1 hmain hset)
  · rw [exec_jlTs2 hmain hset, ts2_invalid hbad]
    exact ⟨_, rfl, lnk_modLnk s n _, rfl⟩
  · rw [exec_jlTs2 hmain hset, ts2_other hvalid h3 h6]
  · exact ⟨_, exec_jlTs2 hmain hset, ts2_waits hvalid h hmore⟩
  · exact ⟨_, exec_jlTs2 hmain hset, ts2_trained hvalid h hrun hsent⟩
  · obtain ⟨w, hstart, hshown⟩ := startSet_active h hsync
    exact ⟨w, hstart ▸ exec_jlStart hmain, hshown⟩
  · obtain ⟨w, hstart, hshown⟩ := startSet_trained h hrun hfull
    exact ⟨w, hstart ▸ exec_jlStart hmain, hshown⟩
  · rw [exec_jlStart hmain, startSet_other h]
    exact ⟨_, rfl, seeded_lnk s n, rfl⟩
  · rw [exec_jlPark hmain, parked_other h]
  · exact ⟨_, exec_jlPark hmain, parked_parks h hpark hrecal⟩
  · obtain ⟨hdetect, hopened⟩ := parked_recalibrates h hpark hrecal
    exact hdetect.ran (exec_jlPark hmain) hopened
  · rw [exec_jlElectricalIdleExit hmain, leavePark_other h]
  · exact (leavePark_parked h).ran (exec_jlElectricalIdleExit hmain)
  · obtain ⟨hfast, hfull⟩ := exec_jlCtl_active hmain a h
    exact ⟨(enterRetrain_at rfl (by decide) fun hcounts => absurd hcounts (by decide)).ran hfast,
      (fullRetrain_inDetect _ _).ran hfull (fullRetrain_window _ n false)⟩
  · rw [exec_jlStateTimeout hmain, jlTimeout_none h]
  · obtain ⟨u, hlimit⟩ := jlTimeout_limit hlim
    rw [exec_jlStateTimeout hmain, hlimit, if_neg (Nat.not_le.mpr hearly)]
  · obtain ⟨u, hlimit⟩ := jlTimeout_limit hlim
    refine (failToDetect_inDetect u).restarted ?_
    rw [exec_jlStateTimeout hmain, hlimit, if_pos hpast]
  · rw [exec_jlStateTimeout hmain, jlTimeout_retrain h, if_neg (Nat.not_le.mpr hearly)]
  · exact ⟨_, exec_jlStateTimeout hmain, jlTimeout_reequalizes h hpast hrate⟩
  · have hdown := enterDown_inDown (n := n) s (cause := 7) (by decide)
    refine ⟨_, ?_, hdown.status, hdown.shown⟩
    rw [exec_jlStateTimeout hmain, jlTimeout_retrain h, if_pos hpast, if_pos hrate, enterDown_eq]
  · intro best
    refine ⟨fun hno => ?_, fun hstate hopen hdue => ⟨fun hmore => ?_, fun hlast hwide hhigh => ?_, fun hlast hsmall => ?_⟩⟩
    · rw [exec_jlEqualizeStep hmain, eqStep_other hno]
    · exact ⟨_, exec_jlEqualizeStep hmain w h c d, eqStep_step hstate hopen hdue d.isLt hmore⟩
    · exact ⟨_, exec_jlEqualizeStep hmain w h c d, eqStep_passes hstate hopen hdue hlast hwide hhigh⟩
    · exact (eqStep_fails hstate hopen hdue hlast hsmall).restarted (exec_jlEqualizeStep hmain w h c d)
  · rw [exec_jlSpeedChangeIdleEnd hmain, speedChange_none h]
  · refine ⟨s.atTarget n, ?_, setJl_state _ (by decide), atTarget_rate s, atTarget_lnk s n⟩
    rw [exec_jlSpeedChangeIdleEnd hmain, speedChange_due hidle hnow h]
  · rw [exec_jlTrainingWindowExpiry hmain, windowEnd_none h]
  · have hdown := enterDown_inDown (n := n) s (cause := 7) (by decide)
    refine ⟨_, ?_, hdown.status, hdown.shown⟩
    rw [exec_jlTrainingWindowExpiry hmain, windowEnd_due hwindow hnow h, enterDown_eq]
  · rw [exec_jlDownRetry hmain, downRetry_other h]
  · refine (toDetect_inDetect _ _ _).ran ?_ (toDetect_window s n _ false)
    rw [exec_jlDownRetry hmain, downRetry_due h hnow]
  · refine ⟨fun hno => ?_, fun hgone => ⟨s.linkRetired n, ?_, linkRetired_state s, ?_, ?_⟩⟩
    · rw [exec_jlDownRetire hmain, downRetire_other hno]
    · rw [exec_jlDownRetire hmain, downRetire_gone hgone]
    · rw [State.linkRetired, lnk_modLnk]
    · rw [State.linkRetired, lnk_modLnk]

end

section
/-!
PROOFS. Scope: the link layer of a Jalyen link: flits received, acknowledgement, replay, margin measurements and test mode (14 R513 to R524, R528, R532,
R533, R541).
-/
namespace Sys2Proof.Machine

/-! ### A NAK (R518) -/

section
variable {s : State} {n : Fin 512}

theorem TxOnly.of_nakOut {x : Lnk} (h : x.nakOut = true) : TxOnly { x with nakOut := true } x := by
  cases x
  cases h
  rfl

theorem idleFlit_txOnly (s : State) (n : Nat) (nak : Bool) : TxOnly (s.lnk n) ((s.idleFlit n nak).lnk n) := putFlit_txOnly s n 0 _ 0 nak []

/-- A NAK is outstanding after it was asked for; it goes out with an IDLE flit. -/
theorem sendNak_txOnly (s : State) (n : Nat) : TxOnly { s.lnk n with nakOut := true } ((s.sendNak n).lnk n) := by
  unfold State.sendNak
  split
  · next h => exact .of_nakOut h
  · have hidle := idleFlit_txOnly ((s.modLnk n fun x => { x with nakOut := true }).bump (Reg.JL_ERR_REPLAY_NAKS n)) n true
    rwa [lnk_bump, lnk_modLnk] at hidle

theorem sendNak_kept (s : State) (n : Nat) : LinkKept [Reg.JL_ERR_REPLAY_NAKS n] s (s.sendNak n) :=
  .ite ((LinkKept.refl s).mono (List.nil_subset _)) (((LinkKept.modLnk s n _).trans (.bump _ _)).trans (putFlit_kept _ _ _ _ _ _ _))

theorem sendNak_again (h : (s.lnk n).nakOut = true) : s.sendNak n = s := if_pos h

theorem sendNak_count (h : (s.lnk n).nakOut = false) : (s.sendNak n).rd (Reg.JL_ERR_REPLAY_NAKS n) =
    min (2 ^ (Reg.JL_ERR_REPLAY_NAKS n).width - 1) (s.rd (Reg.JL_ERR_REPLAY_NAKS n) + 1) := by
  rw [State.sendNak, if_neg (Bool.eq_false_iff.mp h), State.idleFlit, (putFlit_kept _ n _ _ _ _ _).rd]
  exact rd_bump (by simp [Reg.JL_ERR_REPLAY_NAKS])

/-! ### A flit that is not intact (R517) -/

/-- The count of a flit that is not intact. -/
def State.crcCounted (s : State) (n : Nat) : State :=
  (s.bump (Reg.JL_ERR_CRC_COUNT n)).modLnk n fun x => { x with crcTimes := s.now :: (x.crcTimes.filter fun t => s.now < t + 1000000000) }

theorem crcCounted_lnk (s : State) (n : Nat) : (s.crcCounted n).lnk n =
    { s.lnk n with crcTimes := s.now :: ((s.lnk n).crcTimes.filter fun t => s.now < t + 1000000000) } := lnk_modLnk _ _ _

theorem crcCounted_kept (s : State) (n : Nat) : LinkKept [Reg.JL_ERR_CRC_COUNT n] s (s.crcCounted n) := (LinkKept.bump s _).trans (.modLnk _ n _)

theorem crcCounted_count (s : State) : (s.crcCounted n).rd (Reg.JL_ERR_CRC_COUNT n) =
    min (2 ^ (Reg.JL_ERR_CRC_COUNT n).width - 1) (s.rd (Reg.JL_ERR_CRC_COUNT n) + 1) := rd_bump (by simp [Reg.JL_ERR_CRC_COUNT])

/-- What is seen of a flit that is not intact, where no thousand came in the second before it. -/
structure FlitNaked (s : State) (n : Nat) (t : State) : Prop where
  counted : t.rd (Reg.JL_ERR_CRC_COUNT n) = min (2 ^ (Reg.JL_ERR_CRC_COUNT n).width - 1) (s.rd (Reg.JL_ERR_CRC_COUNT n) + 1)
  lnk : TxOnly { (s.crcCounted n).lnk n with nakOut := true } (t.lnk n)
  state : t.jlState n = s.jlState n
  first : (s.lnk n).nakOut = false → t.rd (Reg.JL_ERR_REPLAY_NAKS n) =
    min (2 ^ (Reg.JL_ERR_REPLAY_NAKS n).width - 1) (s.rd (Reg.JL_ERR_REPLAY_NAKS n) + 1)
  again : (s.lnk n).nakOut = true → t.rd (Reg.JL_ERR_REPLAY_NAKS n) = s.rd (Reg.JL_ERR_REPLAY_NAKS n)

theorem badFlit_naked (hfew : ((s.lnk n).crcTimes.filter fun t => s.now < t + 1000000000).length < 1000) : FlitNaked s n (s.badFlit n) := by
  have hlen : ¬1000 < ((s.crcCounted n).lnk n).crcTimes.length := by
    rw [crcCounted_lnk, List.length_cons]
    omega
  have hnaks : (s.crcCounted n).rd (Reg.JL_ERR_REPLAY_NAKS n) = s.rd (Reg.JL_ERR_REPLAY_NAKS n) := (crcCounted_kept s n).rd
  rw [show s.badFlit n = (s.crcCounted n).sendNak n from if_neg hlen]
  refine ⟨(sendNak_kept _ n).rd.trans (crcCounted_count s), sendNak_txOnly _ n, (sendNak_kept _ n).rd.trans (crcCounted_kept s n).rd, fun h => ?_, fun h => ?_⟩
  · rw [sendNak_count (by rw [crcCounted_lnk]; exact h), hnaks]
  · rw [sendNak_again (by rw [crcCounted_lnk]; exact h), hnaks]

/-! ### An acknowledgement and a credit return (R519, R524) -/

theorem LinkKept.modStripe (s : State) (i : Nat) (f : Stripe → Stripe) : LinkKept [] s (s.modStripe i f) := .of_regs rfl rfl rfl

theorem membersAcked_spec (s : State) (l : List (Nat × Nat × Nat)) (n : Nat) : (s.membersAcked l).lnk n = s.lnk n ∧ LinkKept [] s (s.membersAcked l) := by
  unfold State.membersAcked
  induction l generalizing s with
  | nil => exact ⟨rfl, .refl s⟩
  | cons e l ih =>
    obtain ⟨hlnk, hkept⟩ := ih (s.modStripe e.1 fun st => { st with acked := if st.acked.contains e.2 then st.acked else st.acked ++ [e.2] })
    exact ⟨hlnk, (LinkKept.modStripe s e.1 _).trans hkept⟩

/-- The flits an ACK covers are released. -/
theorem takeAck_spec (s : State) (n k : Nat) : (∃ u a r d, (s.takeAck n k).lnk n =
    { s.lnk n with acked := (if k = 0 then (s.lnk n).acked else ((s.lnk n).acked + k) % 512), unacked := u, ackAt := a, replayRuns := r, dieLast := d }) ∧
    LinkKept [Reg.JL_CREDIT_UNACKED n] s (s.takeAck n k) := by
  unfold State.takeAck
  split
  · exact ⟨⟨_, _, _, _, rfl⟩, (LinkKept.refl s).mono (List.nil_subset _)⟩
  · dsimp only
    obtain ⟨hlnk, hkept⟩ := membersAcked_spec _ (((s.lnk n).unacked.take k).flatMap fun f => f.ends) n
    exact ⟨⟨_, _, _, _, by rw [hlnk, lnk_wr, lnk_modLnk]⟩, ((LinkKept.modLnk s n _).trans (.wr _ _ _)).trans hkept⟩

theorem takeCredit_spec (s : State) (n vc sum : Nat) : (∃ c, (s.takeCredit n vc sum).lnk n = { s.lnk n with crLast := c }) ∧
    LinkKept [Reg.JL_CREDIT_VC1_AVAIL n, Reg.JL_CREDIT_VC0_AVAIL n] s (s.takeCredit n vc sum) := by
  unfold State.takeCredit
  exact ⟨⟨_, by rw [lnk_modLnk, lnk_setCredit]⟩, (setCredit_kept s n vc _).trans (.modLnk _ n _)⟩

/-! ### Bytes of a DATA flit (R516, R541) -/

/-- The bytes of a flit cut behind what its channel holds: what is left over, whole capsules, a framing error. -/
def Lnk.cut (x : Lnk) (vc : Nat) (payload : List Byte) : List Byte × List (List Byte) × Bool :=
  cutCapsules 64 ((if vc = 1 then x.rx1 else x.rx0) ++ payload) []

/-- The bytes of a DATA flit in their channel's stream. -/
def State.fed (s : State) (n vc : Nat) (payload : List Byte) : State :=
  s.modLnk n fun y =>
    { y with
      rx0 := if vc = 1 then y.rx0 else ((s.lnk n).cut vc payload).1, rx1 := if vc = 1 then ((s.lnk n).cut vc payload).1 else y.rx1,
      inbox := y.inbox ++ ((s.lnk n).cut vc payload).2.1,
      freed := if vc = 1 then (y.freed.1, (y.freed.2 + 1) % 128) else ((y.freed.1 + 1) % 128, y.freed.2) }

theorem fed_kept (s : State) (n vc : Nat) (payload : List Byte) : LinkKept [] s (s.fed n vc payload) := .modLnk s n _

theorem feed_whole {vc : Nat} {payload : List Byte} (h : ((s.lnk n).cut vc payload).2.2 = false) : s.feed n vc payload = s.fed n vc payload :=
  if_neg (Bool.eq_false_iff.mp h)

/-! ### A flit taken (R513 to R524) -/

/-- Flits go out after a flit was taken: new ones, or the ACK in an IDLE flit; a recalibration may park the link. -/
def State.flitAnswered (s : State) (n txSeq : Nat) : State :=
  let s1 := s.pump n
  (if s1.jlActive n && (s1.lnk n).txSeq == txSeq then s1.idleFlit n false else s1).recalGo n

theorem recalGo_spec (s : State) (n : Nat) : TxOnly (s.lnk n) ((s.recalGo n).lnk n) ∧ LinkKept [] s (s.recalGo n) := by
  unfold State.recalGo State.parkLink
  split
  · split
    · exact ⟨by rw [lnk_modLnk]; rfl, .modLnk s n _⟩
    · exact ⟨.refl _, .refl s⟩
  · exact ⟨.refl _, .refl s⟩

theorem flitAnswered_spec (s : State) (n txSeq : Nat) : TxOnly (s.lnk n) ((s.flitAnswered n txSeq).lnk n) ∧ LinkKept (creditFields n) s (s.flitAnswered n txSeq) := by
  obtain ⟨hpump, hkept⟩ := pump_spec s n
  unfold State.flitAnswered
  dsimp only
  split
  · obtain ⟨hrecal, hgo⟩ := recalGo_spec ((s.pump n).idleFlit n false) n
    exact ⟨(hpump.trans (putFlit_txOnly _ n _ _ _ _ _)).trans hrecal, (hkept.trans (putFlit_kept _ n _ _ _ _ _)).trans hgo⟩
  · obtain ⟨hrecal, hgo⟩ := recalGo_spec (s.pump n) n
    exact ⟨hpump.trans hrecal, hkept.trans hgo⟩

/-- The ACK and the credits of a flit taken; its partner has caught up. -/
def State.flitAcked (s : State) (n acks h : Nat) : State :=
  ((s.takeAck n acks).takeCredit n (h / 2 ^ 19 % 2) (h / 2 ^ 20 % 128)).modLnk n fun y => { y with resync := 0 }

theorem flitAcked_spec (s : State) (n acks h : Nat) : (∃ u a r d c, (s.flitAcked n acks h).lnk n =
    { s.lnk n with
      acked := (if acks = 0 then (s.lnk n).acked else ((s.lnk n).acked + acks) % 512), unacked := u, ackAt := a, replayRuns := r, dieLast := d, crLast := c,
      resync := 0 }) ∧ LinkKept (creditFields n) s (s.flitAcked n acks h) := by
  obtain ⟨⟨u, a, r, d, hack⟩, hkept⟩ := takeAck_spec s n acks
  obtain ⟨⟨c, hcredit⟩, hgo⟩ := takeCredit_spec (s.takeAck n acks) n (h / 2 ^ 19 % 2) (h / 2 ^ 20 % 128)
  exact ⟨⟨u, a, r, d, c, by rw [State.flitAcked, lnk_modLnk, hcredit, hack]⟩, ((hkept.trans hgo).trans (.modLnk _ n _)).mono (by simp)⟩

/-- What a flit is worth by its KIND and SEQ: a DATA flit in sequence is accepted, a repeat is dropped, one from ahead is answered with a NAK. -/
def State.flitActed (s : State) (n rxSeq kind seq vc : Nat) (payload : List Byte) : State :=
  if kind = 0 then s
  else if seq = rxSeq then (s.modLnk n fun y => { y with rxSeq := (seq + 1) % 512, nakOut := false, parkAt := none }).feed n vc payload
  else if (rxSeq + 512 - seq) % 512 ≤ 256 then s
  else s.sendNak n

/-- Where nothing is replayed the link is ACTIVE still, and the flit acts. -/
theorem flitActed_of_no_replay {u t : State} {rxSeq kind seq vc txSeq : Nat} {payload : List Byte} (hactive : u.jlActive n = true) (h : t = u) :
    (if (!t.jlActive n) = true then t else t.flitActed n rxSeq kind seq vc payload).flitAnswered n txSeq =
      (u.flitActed n rxSeq kind seq vc payload).flitAnswered n txSeq := by
  rw [h, if_neg (by simp [hactive])]

section
variable {f : List Byte}

/-- The number of flits the ACK of a header covers. -/
def Lnk.acks (x : Lnk) (h : Nat) : Nat := (h / 512 % 512 + 512 - x.acked) % 512

section
variable (hstate : s.jlState n = 5) (hsync : (s.lnk n).resync ≠ 2) (hlen : f.length = 64)
include hstate hsync hlen

theorem flitIn_corrupt (hcrc : crc32c (f.take 60) ≠ leAt f 60 4) : s.flitIn n f = s.badFlit n :=
  (if_neg (by simp [jlActive_iff.mpr hstate, hsync, hlen])).trans (if_pos (by simpa using hcrc))

section
variable (hcrc : crc32c (f.take 60) = leAt f 60 4)
include hcrc

/-- A reserved header, or an ACK of what was not sent. -/
theorem flitIn_refused (h : 2 ^ 29 ≤ leAt f 0 4 ∨ (s.lnk n).unacked.length < (s.lnk n).acks (leAt f 0 4)) : s.flitIn n f = s.enterRetrain n 3 := by
  refine (if_neg (by simp [jlActive_iff.mpr hstate, hsync, hlen])).trans ((if_neg (by simp [hcrc])).trans ?_)
  by_cases hkind : 2 ≤ leAt f 0 4 / 2 ^ 28 % 4 ∨ 2 ^ 30 ≤ leAt f 0 4
  · exact if_pos hkind
  · exact (if_neg hkind).trans (if_pos (h.resolve_left (by omega)))

/-- A flit taken while no START is to be followed by a replay and no NAK asks for one. -/
theorem flitIn_taken (h : leAt f 0 4 < 2 ^ 29) (hacks : (s.lnk n).acks (leAt f 0 4) ≤ (s.lnk n).unacked.length) (hsync0 : (s.lnk n).resync = 0)
    (hnak : (leAt f 0 4).testBit 18 = false) : s.flitIn n f =
      ((s.flitAcked n ((s.lnk n).acks (leAt f 0 4)) (leAt f 0 4)).flitActed n (s.lnk n).rxSeq (leAt f 0 4 / 2 ^ 28) (leAt f 0 4 % 512)
        (leAt f 0 4 / 2 ^ 27 % 2) (slice f 4 56)).flitAnswered n (s.lnk n).txSeq := by
  have hkind : leAt f 0 4 / 2 ^ 28 % 4 = leAt f 0 4 / 2 ^ 28 := by omega
  have hactive : (s.flitAcked n ((s.lnk n).acks (leAt f 0 4)) (leAt f 0 4)).jlActive n = true :=
    jlActive_iff.mpr ((flitAcked_spec s n _ _).2.rd.trans hstate)
  refine (if_neg (by simp [jlActive_iff.mpr hstate, hsync, hlen])).trans ((if_neg (by simp [hcrc])).trans ((if_neg (by omega)).trans
    ((if_neg (Nat.not_lt.mpr hacks)).trans ?_)))
  refine (flitActed_of_no_replay hactive ((if_neg (by omega)).trans (if_neg (by simp [hnak])))).trans ?_
  rw [hkind]

end

end

/-! ### What a flit taken leaves (R516 to R518) -/

/-- What sending does not concern of a link's part. -/
theorem TxOnly.received {x y : Lnk} (h : TxOnly x y) : y.rxSeq = x.rxSeq ∧ y.inbox = x.inbox ∧ y.rx0 = x.rx0 ∧ y.rx1 = x.rx1 ∧ y.acked = x.acked ∧
    y.nakOut = x.nakOut := by
  rw [h]
  exact ⟨rfl, rfl, rfl, rfl, rfl, rfl⟩

/-- A DATA flit in sequence accepted: its bytes are in the stream, and no NAK is outstanding. -/
def State.flitAccepted (s : State) (n seq vc : Nat) (payload : List Byte) : State :=
  (s.modLnk n fun y => { y with rxSeq := (seq + 1) % 512, nakOut := false, parkAt := none }).fed n vc payload

theorem flitAccepted_lnk (s : State) (n seq vc : Nat) (payload : List Byte) : ∃ r, (s.flitAccepted n seq vc payload).lnk n =
    { s.lnk n with
      rxSeq := (seq + 1) % 512, nakOut := false, parkAt := none, inbox := (s.lnk n).inbox ++ ((s.lnk n).cut vc payload).2.1,
      rx0 := if vc = 1 then (s.lnk n).rx0 else ((s.lnk n).cut vc payload).1, rx1 := if vc = 1 then ((s.lnk n).cut vc payload).1 else (s.lnk n).rx1,
      freed := r } := ⟨_, by rw [State.flitAccepted, State.fed, lnk_modLnk, lnk_modLnk]; rfl⟩

theorem flitAccepted_kept (s : State) (n seq vc : Nat) (payload : List Byte) : LinkKept [] s (s.flitAccepted n seq vc payload) :=
  (LinkKept.modLnk s n _).trans (fed_kept _ n vc payload)

section
variable {rxSeq kind seq vc : Nat} {payload : List Byte}

theorem flitActed_accepts (hkind : kind ≠ 0) (hseq : seq = rxSeq) (hcut : ((s.lnk n).cut vc payload).2.2 = false) :
    s.flitActed n rxSeq kind seq vc payload = s.flitAccepted n seq vc payload := by
  rw [State.flitActed, if_neg hkind, if_pos hseq]
  exact feed_whole (by rw [lnk_modLnk]; exact hcut)

theorem flitActed_drops (h : kind = 0 ∨ (seq ≠ rxSeq ∧ (rxSeq + 512 - seq) % 512 ≤ 256)) : s.flitActed n rxSeq kind seq vc payload = s := by
  unfold State.flitActed
  split
  · rfl
  · obtain ⟨hseq, hnear⟩ := h.resolve_left ‹_›
    rw [if_neg hseq, if_pos hnear]

theorem flitActed_naks (hkind : kind ≠ 0) (hseq : seq ≠ rxSeq) (hahead : 256 < (rxSeq + 512 - seq) % 512) :
    s.flitActed n rxSeq kind seq vc payload = s.sendNak n := by
  rw [State.flitActed, if_neg hkind, if_neg hseq, if_neg (Nat.not_le.mpr hahead)]

end

/-! ### Four blocks (R499, R513) -/

/-- Four blocks are a flit: the link is ACTIVE and in step with its partner, and no ordered set is among them. -/
def State.takesFlit (s : State) (n : Nat) (l : List Block) : Prop :=
  s.jlState n = 5 ∧ (s.lnk n).resync ≠ 2 ∧ l.length = 4 ∧ ∀ b ∈ l, isSetBlock b = false ∧ b.bytes.length = 16

/-- The descrambler has gone on past the blocks. -/
def State.descrambled (s : State) (n : Nat) (l : List Block) : State := s.modLnk n fun y => { y with scrRx := (blocksFlit (s.lnk n).scrRx l).2 }

theorem descrambled_lnk (s : State) (n : Nat) (l : List Block) : (s.descrambled n l).lnk n = { s.lnk n with scrRx := (blocksFlit (s.lnk n).scrRx l).2 } :=
  lnk_modLnk _ _ _

theorem descrambled_kept (s : State) (n : Nat) (l : List Block) : LinkKept [] s (s.descrambled n l) := .modLnk s n _

section
variable {l : List Block}

theorem flitBlocksIn_other (h : ¬s.takesFlit n l) : s.flitBlocksIn n l = s := by
  refine if_pos ?_
  by_contra hno
  refine h ?_
  simpa [State.takesFlit, State.jlActive, forall_and, and_assoc] using hno

theorem flitBlocksIn_flit (h : s.takesFlit n l) : s.flitBlocksIn n l =
    if l.all isDataBlock then (s.descrambled n l).flitIn n (blocksFlit (s.lnk n).scrRx l).1 else (s.descrambled n l).badFlit n := by
  refine if_neg ?_
  simpa [State.takesFlit, State.jlActive, forall_and, and_assoc] using h

theorem flitBlocksIn_intact (h : s.takesFlit n l) (hintact : ∀ b ∈ l, isDataBlock b = true) :
    s.flitBlocksIn n l = (s.descrambled n l).flitIn n (blocksFlit (s.lnk n).scrRx l).1 := by
  rw [flitBlocksIn_flit h, if_pos (by simpa using hintact)]

section
variable {f : List Byte} (hflit : s.takesFlit n l) (hf : (blocksFlit (s.lnk n).scrRx l).1 = f) (hlen : f.length = 64)
include hflit hf hlen

/-- A flit whose CRC fails, or with a sync header of no kind. -/
theorem flitBlocksIn_corrupt (hbad : (¬∀ b ∈ l, isDataBlock b = true) ∨ crc32c (f.take 60) ≠ leAt f 60 4)
    (hfew : ((s.lnk n).crcTimes.filter fun t => s.now < t + 1000000000).length < 1000) :
    (s.flitBlocksIn n l).rd (Reg.JL_ERR_CRC_COUNT n) = min (2 ^ (Reg.JL_ERR_CRC_COUNT n).width - 1) (s.rd (Reg.JL_ERR_CRC_COUNT n) + 1) ∧
    ((s.flitBlocksIn n l).lnk n).nakOut = true ∧ ((s.flitBlocksIn n l).lnk n).rxSeq = (s.lnk n).rxSeq ∧
    ((s.flitBlocksIn n l).lnk n).inbox = (s.lnk n).inbox ∧ (s.flitBlocksIn n l).jlState n = 5 ∧
    ((s.lnk n).nakOut = false → (s.flitBlocksIn n l).rd (Reg.JL_ERR_REPLAY_NAKS n) =
      min (2 ^ (Reg.JL_ERR_REPLAY_NAKS n).width - 1) (s.rd (Reg.JL_ERR_REPLAY_NAKS n) + 1)) ∧
    ((s.lnk n).nakOut = true → (s.flitBlocksIn n l).rd (Reg.JL_ERR_REPLAY_NAKS n) = s.rd (Reg.JL_ERR_REPLAY_NAKS n)) := by
  have hin := flitBlocksIn_flit hflit
  obtain ⟨hstate, hsync, -⟩ := hflit
  have hnaked : s.flitBlocksIn n l = (s.descrambled n l).badFlit n := by
    rw [hin, hf]
    split
    · next hall =>
      refine flitIn_corrupt hstate (by rw [descrambled_lnk]; exact hsync) hlen (hbad.resolve_left ?_)
      simpa using hall
    · rfl
  have hnak := badFlit_naked (s := s.descrambled n l) (n := n) (by rw [descrambled_lnk]; exact hfew)
  obtain ⟨hrx, hinbox, -, -, -, hout⟩ := hnak.lnk.received
  have hfirst := hnak.first
  have hagain := hnak.again
  rw [crcCounted_lnk, descrambled_lnk] at hrx hinbox
  rw [descrambled_lnk] at hfirst hagain
  rw [hnaked]
  exact ⟨hnak.counted, hout, hrx, hinbox, hnak.state.trans hstate, hfirst, hagain⟩

section
variable (hintact : ∀ b ∈ l, isDataBlock b = true) (hcrc : crc32c (f.take 60) = leAt f 60 4)
include hintact hcrc

theorem flitBlocksIn_refused (h : 2 ^ 29 ≤ leAt f 0 4 ∨ (s.lnk n).unacked.length < (s.lnk n).acks (leAt f 0 4))
    (hfew : ((s.lnk n).retrains.filter fun t => s.now < t + 60000000000).length < 2) : (s.flitBlocksIn n l).jlState n = 6 ∧
    (s.flitBlocksIn n l).rd (Reg.JL_STATE_LAST_CAUSE n) = 3 ∧ ((s.flitBlocksIn n l).lnk n).rxSeq = (s.lnk n).rxSeq := by
  rw [flitBlocksIn_intact hflit hintact, hf]
  obtain ⟨hstate, hsync, -⟩ := hflit
  have hretrain := enterRetrain_retrains (s := s.descrambled n l) (n := n) (cause := 3) (by decide) fun _ => by rw [descrambled_lnk]; exact hfew
  obtain ⟨m, w, r, hlnk⟩ := hretrain.lnk
  rw [flitIn_refused (s := s.descrambled n l) hstate (by rw [descrambled_lnk]; exact hsync) hlen hcrc (by rw [descrambled_lnk]; exact h)]
  exact ⟨hretrain.state, hretrain.cause, by rw [hlnk, descrambled_lnk]⟩

section
variable (hlow : leAt f 0 4 < 2 ^ 29) (hacks : (s.lnk n).acks (leAt f 0 4) ≤ (s.lnk n).unacked.length) (hsync0 : (s.lnk n).resync = 0)
  (hnak : (leAt f 0 4).testBit 18 = false)
include hlow hacks hsync0 hnak

/-- A flit taken: what it did after its ACK, up to what is sent then. -/
theorem flitBlocksIn_taken : ∃ u : State, LinkKept (creditFields n) s u ∧ (u.lnk n).rxSeq = (s.lnk n).rxSeq ∧ (u.lnk n).inbox = (s.lnk n).inbox ∧
    (u.lnk n).rx0 = (s.lnk n).rx0 ∧ (u.lnk n).rx1 = (s.lnk n).rx1 ∧ (u.lnk n).nakOut = (s.lnk n).nakOut ∧
    (u.lnk n).acked = (if (s.lnk n).acks (leAt f 0 4) = 0 then (s.lnk n).acked else ((s.lnk n).acked + (s.lnk n).acks (leAt f 0 4)) % 512) ∧
    s.flitBlocksIn n l = (u.flitActed n (s.lnk n).rxSeq (leAt f 0 4 / 2 ^ 28) (leAt f 0 4 % 512) (leAt f 0 4 / 2 ^ 27 % 2) (slice f 4 56)).flitAnswered n
      (s.lnk n).txSeq := by
  rw [flitBlocksIn_intact hflit hintact, hf]
  obtain ⟨hstate, hsync, -⟩ := hflit
  obtain ⟨⟨v, a, r, d, c, hlnk⟩, hkept⟩ := flitAcked_spec (s.descrambled n l) n ((s.lnk n).acks (leAt f 0 4)) (leAt f 0 4)
  rw [descrambled_lnk] at hlnk
  have htaken := flitIn_taken (s := s.descrambled n l) hstate (by rw [descrambled_lnk]; exact hsync) hlen hcrc hlow (by rw [descrambled_lnk]; exact hacks)
    (by rw [descrambled_lnk]; exact hsync0) hnak
  rw [descrambled_lnk] at htaken
  exact ⟨_, (descrambled_kept s n l).trans hkept, by rw [hlnk], by rw [hlnk], by rw [hlnk], by rw [hlnk], by rw [hlnk], by rw [hlnk], htaken⟩

/-- A DATA flit in sequence. -/
theorem flitBlocksIn_accepts (hkind : leAt f 0 4 / 2 ^ 28 = 1) (hseq : leAt f 0 4 % 512 = (s.lnk n).rxSeq) {vc : Nat} (hvc : leAt f 0 4 / 2 ^ 27 % 2 = vc)
    {cut : List Byte × List (List Byte) × Bool} (hcut : (s.lnk n).cut vc (slice f 4 56) = cut) (hwhole : cut.2.2 = false) :
    ((s.flitBlocksIn n l).lnk n).rxSeq = (leAt f 0 4 % 512 + 1) % 512 ∧ ((s.flitBlocksIn n l).lnk n).inbox = (s.lnk n).inbox ++ cut.2.1 ∧
    ((s.flitBlocksIn n l).lnk n).rx0 = (if vc = 1 then (s.lnk n).rx0 else cut.1) ∧
    ((s.flitBlocksIn n l).lnk n).rx1 = (if vc = 1 then cut.1 else (s.lnk n).rx1) ∧
    ((s.flitBlocksIn n l).lnk n).acked =
      (if (s.lnk n).acks (leAt f 0 4) = 0 then (s.lnk n).acked else ((s.lnk n).acked + (s.lnk n).acks (leAt f 0 4)) % 512) ∧
    (s.flitBlocksIn n l).jlState n = 5 := by
  obtain ⟨u, hkept, hrx, hinbox, h0, h1, -, hacked, htaken⟩ := flitBlocksIn_taken hflit hf hlen hintact hcrc hlow hacks hsync0 hnak
  obtain ⟨hstate, -⟩ := hflit
  have hucut : (u.lnk n).cut vc (slice f 4 56) = cut := by rw [Lnk.cut, h0, h1]; exact hcut
  rw [hvc, flitActed_accepts (by omega) hseq (by rw [hucut]; exact hwhole)] at htaken
  obtain ⟨r, hlnk⟩ := flitAccepted_lnk u n (leAt f 0 4 % 512) vc (slice f 4 56)
  obtain ⟨hsends, hgo⟩ := flitAnswered_spec (u.flitAccepted n (leAt f 0 4 % 512) vc (slice f 4 56)) n (s.lnk n).txSeq
  obtain ⟨hrx2, hinbox2, h02, h12, hacked2, -⟩ := hsends.received
  rw [hlnk, hucut] at hrx2 hinbox2 h02 h12 hacked2
  rw [htaken, hrx2, hinbox2, h02, h12, hacked2, ← hinbox, ← h0, ← h1]
  exact ⟨rfl, rfl, rfl, rfl, hacked, hgo.rd.trans ((flitAccepted_kept u n _ _ _).rd.trans (hkept.rd.trans hstate))⟩

/-- An IDLE flit, or a repeat of a DATA flit. -/
theorem flitBlocksIn_drops (hdrop : leAt f 0 4 / 2 ^ 28 = 0 ∨
    (leAt f 0 4 % 512 ≠ (s.lnk n).rxSeq ∧ ((s.lnk n).rxSeq + 512 - leAt f 0 4 % 512) % 512 ≤ 256)) :
    ((s.flitBlocksIn n l).lnk n).rxSeq = (s.lnk n).rxSeq ∧ ((s.flitBlocksIn n l).lnk n).inbox = (s.lnk n).inbox ∧
    ((s.flitBlocksIn n l).lnk n).nakOut = (s.lnk n).nakOut ∧ (s.flitBlocksIn n l).jlState n = 5 := by
  obtain ⟨u, hkept, hrx, hinbox, -, -, hnakOut, -, htaken⟩ := flitBlocksIn_taken hflit hf hlen hintact hcrc hlow hacks hsync0 hnak
  obtain ⟨hstate, -⟩ := hflit
  obtain ⟨hsends, hgo⟩ := flitAnswered_spec u n (s.lnk n).txSeq
  obtain ⟨hrx2, hinbox2, -, -, -, hnak2⟩ := hsends.received
  rw [htaken, flitActed_drops hdrop]
  exact ⟨hrx2.trans hrx, hinbox2.trans hinbox, hnak2.trans hnakOut, hgo.rd.trans (hkept.rd.trans hstate)⟩

/-- A DATA flit from ahead. -/
theorem flitBlocksIn_naks (hkind : leAt f 0 4 / 2 ^ 28 = 1) (hseq : leAt f 0 4 % 512 ≠ (s.lnk n).rxSeq)
    (hahead : 256 < ((s.lnk n).rxSeq + 512 - leAt f 0 4 % 512) % 512) :
    ((s.flitBlocksIn n l).lnk n).rxSeq = (s.lnk n).rxSeq ∧ ((s.flitBlocksIn n l).lnk n).inbox = (s.lnk n).inbox ∧
    ((s.flitBlocksIn n l).lnk n).nakOut = true ∧ (s.flitBlocksIn n l).jlState n = 5 := by
  obtain ⟨u, hkept, hrx, hinbox, -, -, -, -, htaken⟩ := flitBlocksIn_taken hflit hf hlen hintact hcrc hlow hacks hsync0 hnak
  obtain ⟨hstate, -⟩ := hflit
  obtain ⟨hsends, hgo⟩ := flitAnswered_spec (u.sendNak n) n (s.lnk n).txSeq
  obtain ⟨hrx2, hinbox2, -, -, -, hnak2⟩ := ((sendNak_txOnly u n).trans hsends).received
  rw [htaken, flitActed_naks (by omega) hseq hahead]
  exact ⟨hrx2.trans hrx, hinbox2.trans hinbox, hnak2, hgo.rd.trans ((sendNak_kept u n).rd.trans (hkept.rd.trans hstate))⟩

end

end

end

end

end

/-! ### Replay (R520) -/

/-- The replays in a row from the flit that begins one, with the one that begins now. -/
def Lnk.runs (x : Lnk) (seq : Nat) : Nat := if x.replayRuns ≠ 0 ∧ x.replaySeq = seq then x.replayRuns + 1 else 1

/-- A replay counted, before its flits go out. -/
def State.replayCounted (s : State) (n seq : Nat) : State :=
  (s.bump (Reg.JL_ERR_REPLAY_REPLAYS n)).modLnk n fun y =>
    { y with
      replaySeq := seq, replayRuns := (s.lnk n).runs seq, ackAt := s.now,
      replayEnd := s.now + ((s.lnk n).unacked.length * flitHalfNs (s.jlRate n) + 1) / 2 }

theorem replayCounted_lnk (s : State) (n seq : Nat) : ∃ e, (s.replayCounted n seq).lnk n =
    { s.lnk n with replaySeq := seq, replayRuns := (s.lnk n).runs seq, ackAt := s.now, replayEnd := e } := ⟨_, lnk_modLnk _ _ _⟩

theorem replayCounted_kept (s : State) (n seq : Nat) : LinkKept [Reg.JL_ERR_REPLAY_REPLAYS n] s (s.replayCounted n seq) :=
  (LinkKept.bump s _).trans (.modLnk _ n _)

theorem replayCounted_count (s : State) (seq : Nat) : (s.replayCounted n seq).rd (Reg.JL_ERR_REPLAY_REPLAYS n) =
    min (2 ^ (Reg.JL_ERR_REPLAY_REPLAYS n).width - 1) (s.rd (Reg.JL_ERR_REPLAY_REPLAYS n) + 1) := rd_bump (by simp [Reg.JL_ERR_REPLAY_REPLAYS])

/-- Flits sent again change what is on the wire alone. -/
theorem resent_spec (s : State) (n : Nat) (l : List Flit) : (∃ r w c, (l.foldl (fun t u => t.putFlit n 1 u.seq u.vc false u.payload) s).lnk n =
    { s.lnk n with scrTx := r, wire := w, crTurn := c }) ∧ LinkKept [] s (l.foldl (fun t u => t.putFlit n 1 u.seq u.vc false u.payload) s) := by
  induction l generalizing s with
  | nil => exact ⟨⟨_, _, _, rfl⟩, .refl s⟩
  | cons u l ih =>
    obtain ⟨r, w, c, hput⟩ := putFlit_lnk s n 1 u.seq u.vc false u.payload
    obtain ⟨⟨r2, w2, c2, hlnk⟩, hkept⟩ := ih (s.putFlit n 1 u.seq u.vc false u.payload)
    exact ⟨⟨r2, w2, c2, by rw [List.foldl_cons, hlnk, hput]⟩, (putFlit_kept s n _ _ _ _ _).trans hkept⟩

/-- The time without ACK progress after which a link replays. -/
def replayLimit (rate : Nat) : Nat := if rate = 0 then 2000 else if rate = 1 then 3000 else 5000

theorem replayTimeout_early (h : s.jlState n ≠ 5 ∨ (s.lnk n).unacked = [] ∨ s.now < (s.lnk n).ackAt + replayLimit (s.jlRate n)) :
    s.replayTimeout n = s := by
  refine if_neg ?_
  rw [Bool.and_eq_true, Bool.and_eq_true, jlActive_iff, Bool.not_eq_true', List.isEmpty_eq_false_iff, decide_eq_true_eq]
  rintro ⟨⟨hstate, hsome⟩, hdue⟩
  obtain h | h | h := h
  · exact h hstate
  · exact hsome h
  · exact absurd hdue (Nat.not_le.mpr h)

section
variable {f : Flit} {rest : List Flit} (hstate : s.jlState n = 5) (hunacked : (s.lnk n).unacked = f :: rest)
  (hdue : (s.lnk n).ackAt + replayLimit (s.jlRate n) ≤ s.now)
include hstate hunacked hdue

theorem replayTimeout_due : s.replayTimeout n =
    if 4 ≤ (s.lnk n).runs f.seq then ((s.replayCounted n f.seq).modLnk n fun y => { y with replayRuns := 0 }).enterRetrain n 1
    else (f :: rest).foldl (fun t u => t.putFlit n 1 u.seq u.vc false u.payload) (s.replayCounted n f.seq) := by
  have hreplay : s.replayTimeout n = s.replay n := by
    refine if_pos ?_
    rw [Bool.and_eq_true, Bool.and_eq_true, jlActive_iff, hunacked, decide_eq_true_eq]
    exact ⟨⟨hstate, rfl⟩, hdue⟩
  rw [hreplay, State.replay, State.replayCounted, hunacked]
  rfl

theorem replayTimeout_replays (hruns : (s.lnk n).runs f.seq < 4) : (s.replayTimeout n).jlState n = 5 ∧
    ((s.replayTimeout n).lnk n).unacked = (s.lnk n).unacked ∧ ((s.replayTimeout n).lnk n).replayRuns = (s.lnk n).runs f.seq ∧
    ((s.replayTimeout n).lnk n).replaySeq = f.seq ∧ ((s.replayTimeout n).lnk n).ackAt = s.now ∧ (s.replayTimeout n).rd (Reg.JL_ERR_REPLAY_REPLAYS n) =
      min (2 ^ (Reg.JL_ERR_REPLAY_REPLAYS n).width - 1) (s.rd (Reg.JL_ERR_REPLAY_REPLAYS n) + 1) := by
  obtain ⟨e, hcounted⟩ := replayCounted_lnk s n f.seq
  obtain ⟨⟨r, w, c, hlnk⟩, hkept⟩ := resent_spec (s.replayCounted n f.seq) n (f :: rest)
  rw [replayTimeout_due hstate hunacked hdue, if_neg (Nat.not_le.mpr hruns), hlnk, hcounted]
  exact ⟨hkept.rd.trans ((replayCounted_kept s n _).rd.trans hstate), rfl, rfl, rfl, rfl, hkept.rd.trans (replayCounted_count s f.seq)⟩

/-- The fourth replay in a row is a RETRAIN. -/
theorem replayTimeout_retrains (hruns : 4 ≤ (s.lnk n).runs f.seq) (hfew : ((s.lnk n).retrains.filter fun t => s.now < t + 60000000000).length < 2) :
    (s.replayTimeout n).jlState n = 6 ∧ (s.replayTimeout n).rd (Reg.JL_STATE_LAST_CAUSE n) = 1 ∧ ((s.replayTimeout n).lnk n).replayRuns = 0 := by
  obtain ⟨e, hcounted⟩ := replayCounted_lnk s n f.seq
  have hretrain := enterRetrain_retrains (s := (s.replayCounted n f.seq).modLnk n fun y => { y with replayRuns := 0 }) (n := n) (cause := 1) (by decide)
    fun _ => by rw [lnk_modLnk, hcounted]; exact hfew
  obtain ⟨m, w, r, hlnk⟩ := hretrain.lnk
  rw [replayTimeout_due hstate hunacked hdue, if_pos hruns]
  exact ⟨hretrain.state, hretrain.cause, by rw [hlnk, lnk_modLnk]⟩

end

/-! ### Margin measurements (R528) -/

theorem signed_toCode {i : Int} (hlo : -128 ≤ i) (hhi : i ≤ 127) : signed 8 (toCode 8 i) = i := by
  unfold signed toCode
  norm_num
  omega

/-- The fields of JL_MARGIN_CTL as they are stored: each the nearer end of its range. -/
def MarginStored (n : Nat) (data : Word) (t : State) : Prop :=
  t.rd (Reg.JL_MARGIN_CTL_DWELL_LOG2 n) = max 16 (min 36 (bitsOf data 24 6)) ∧
  t.rdSigned (Reg.JL_MARGIN_CTL_V_OFFSET n) = max (-100) (min 100 (signed 8 (bitsOf data 16 8))) ∧
  t.rdSigned (Reg.JL_MARGIN_CTL_T_OFFSET n) = max (-32) (min 31 (signed 8 (bitsOf data 8 8)))

theorem MarginStored.of_rd {t u : State} {n : Nat} {data : Word} (h : MarginStored n data t) (hrd : ∀ f : Field, f.off = Reg.JL_MARGIN_CTL n → u.rd f = t.rd f) :
    MarginStored n data u := by
  rw [MarginStored, State.rdSigned, State.rdSigned, hrd _ rfl, hrd _ rfl, hrd _ rfl]
  exact h

theorem clampByte_lt (v : Nat) (lo hi : Int) : clampByte v lo hi < 2 ^ 8 := toCode_lt 8 _

theorem signed_clampByte {v : Nat} {lo hi : Int} (hlo : -128 ≤ lo) (hlh : lo ≤ hi) (hhi : hi ≤ 127) :
    signed 8 (clampByte v lo hi) = max lo (min hi (signed 8 v)) := signed_toCode (by omega) (by omega)

theorem marginStore_kept (s : State) (n : Nat) (data : Word) :
    LinkKept [Reg.JL_MARGIN_CTL_DWELL_LOG2 n, Reg.JL_MARGIN_CTL_V_OFFSET n, Reg.JL_MARGIN_CTL_T_OFFSET n] s (s.marginStore n data) := by
  unfold State.marginStore
  exact ((LinkKept.wr s _ _).trans (.wr _ _ _)).trans (.wr _ _ _)

/-- Nothing but the three fields is written. -/
theorem marginStore_regs (s : State) (n : Nat) (data : Word) : (s.marginStore n data).lnk n = s.lnk n ∧ (s.marginStore n data).now = s.now ∧
    (s.marginStore n data).reg (Reg.JL_MARGIN_RES n) = s.reg (Reg.JL_MARGIN_RES n) := by
  have hoff : Reg.JL_MARGIN_RES n ≠ Reg.JL_MARGIN_CTL n := by simp [Reg.JL_MARGIN_RES, Reg.JL_MARGIN_CTL]
  refine ⟨rfl, rfl, ?_⟩
  rw [State.marginStore, reg_wr_other hoff, reg_wr_other hoff, reg_wr_other hoff]

theorem marginStore_stored (s : State) (data : Word) : MarginStored n data (s.marginStore n data) := by
  refine ⟨?_, ?_, ?_⟩
  · rw [State.marginStore, (LinkKept.wr _ _ _).rd, (LinkKept.wr _ _ _).rd]
    exact rd_wr_fits (by simp [Reg.JL_MARGIN_CTL_DWELL_LOG2]) (by simp [Reg.JL_MARGIN_CTL_DWELL_LOG2])
  · rw [State.marginStore, State.rdSigned, (LinkKept.wr _ _ _).rd, rd_wr_fits (by simp [Reg.JL_MARGIN_CTL_V_OFFSET]) (clampByte_lt _ _ _)]
    exact signed_clampByte (by decide) (by decide) (by decide)
  · rw [State.marginStore, State.rdSigned, rd_wr_fits (by simp [Reg.JL_MARGIN_CTL_T_OFFSET]) (clampByte_lt _ _ _)]
    exact signed_clampByte (by decide) (by decide) (by decide)

theorem marginStart_spec (s : State) (data : Word) : MarginStored n data (s.marginStart n data) ∧
    (s.jlState n = 5 → ((s.marginStart n data).lnk n).margin = some s.now ∧ (s.marginStart n data).reg (Reg.JL_MARGIN_RES n) = 0) ∧
    (s.jlState n ≠ 5 → (s.marginStart n data).lnk n = s.lnk n ∧
      (s.marginStart n data).reg (Reg.JL_MARGIN_RES n) = s.reg (Reg.JL_MARGIN_RES n)) := by
  have hstored := marginStore_stored (n := n) s data
  have hstate : (s.marginStore n data).jlState n = s.jlState n := (marginStore_kept s n data).rd
  by_cases h : s.jlState n = 5
  · rw [State.marginStart, if_pos (jlActive_iff.mpr (hstate.trans h))]
    refine ⟨hstored.of_rd fun f hf => (rd_setReg_other ?_).trans (State.modLnk_rd _ _ _ _), fun _ => ⟨by rw [lnk_setReg, lnk_modLnk], reg_setReg_same _ _ _⟩, fun hno => absurd h hno⟩
    rw [hf]
    simp [Reg.JL_MARGIN_RES, Reg.JL_MARGIN_CTL]
  · rw [State.marginStart, if_neg (by rw [jlActive_iff, hstate]; exact h)]
    obtain ⟨hlnk, -, hres⟩ := marginStore_regs s n data
    exact ⟨hstored, fun hactive => absurd hactive h, fun _ => ⟨hlnk, hres⟩⟩

/-- ABORT of JL_MARGIN_CTL stores the offsets too, and ends a measurement as done and not valid. -/
theorem marginAborted_spec (s : State) (data : Word) : MarginStored n data ((s.marginStore n data).marginAbort n) ∧
    (((s.marginStore n data).marginAbort n).lnk n).margin = none ∧
    ((s.lnk n).margin ≠ none → ((s.marginStore n data).marginAbort n).rd (Reg.JL_MARGIN_RES_DONE n) = 1 ∧
      ((s.marginStore n data).marginAbort n).rd (Reg.JL_MARGIN_RES_VALID n) = 0) ∧
    ((s.lnk n).margin = none → ((s.marginStore n data).marginAbort n).reg (Reg.JL_MARGIN_RES n) = s.reg (Reg.JL_MARGIN_RES n)) := by
  have hstored := marginStore_stored (n := n) s data
  obtain ⟨hlnk, -, hres⟩ := marginStore_regs s n data
  refine ⟨?_, by rw [marginAbort_lnk], fun hruns => ?_, fun hnone => ?_⟩
  · unfold State.marginAbort
    split
    · refine hstored.of_rd fun f hf => ?_
      have hoff : f.off ≠ Reg.JL_MARGIN_RES n := by
        rw [hf]
        simp [Reg.JL_MARGIN_RES, Reg.JL_MARGIN_CTL]
      rw [rd_wr_off hoff, rd_wr_off hoff, State.modLnk_rd]
    · exact hstored
  · rw [State.marginAbort, if_pos (by rw [hlnk, Option.isSome_iff_ne_none]; exact hruns), (LinkKept.wr _ _ _).rd]
    exact ⟨rd_wr_fits (by simp [Reg.JL_MARGIN_RES_DONE]) (by simp [Reg.JL_MARGIN_RES_DONE]),
      rd_wr_fits (by simp [Reg.JL_MARGIN_RES_VALID]) (by simp [Reg.JL_MARGIN_RES_VALID])⟩
  · rw [State.marginAbort, if_neg (by rw [hlnk, hnone]; simp), hres]

/-- 2^DWELL_LOG2 bits have passed since a measurement began. -/
def State.marginDue (s : State) (n began : Nat) : Prop :=
  began * gtsOf (s.jlRate n) + 2 ^ s.rd (Reg.JL_MARGIN_CTL_DWELL_LOG2 n) ≤ s.now * gtsOf (s.jlRate n)

theorem marginDone_none (errors : Nat) (h : (s.lnk n).margin = none) : s.marginDone n errors = s := by
  rw [State.marginDone, h]

theorem marginDone_early (errors : Nat) {began : Nat} (h : (s.lnk n).margin = some began) (hdue : ¬s.marginDue n began) : s.marginDone n errors = s := by
  rw [State.marginDone, h]
  exact if_pos (Nat.not_le.mp hdue)

theorem marginDone_due (errors : Nat) {began : Nat} (h : (s.lnk n).margin = some began) (hdue : s.marginDue n began) :
    ((s.marginDone n errors).lnk n).margin = none ∧ (s.marginDone n errors).rd (Reg.JL_MARGIN_RES_DONE n) = 1 ∧
    (s.marginDone n errors).rd (Reg.JL_MARGIN_RES_VALID n) = 1 ∧ (s.marginDone n errors).rd (Reg.JL_MARGIN_RES_ERRORS n) = min (2 ^ 30 - 1) errors := by
  have hdone : s.marginDone n errors = (((s.modLnk n fun x => { x with margin := none }).wr (Reg.JL_MARGIN_RES_DONE n) 1).wr
      (Reg.JL_MARGIN_RES_VALID n) 1).wr (Reg.JL_MARGIN_RES_ERRORS n) (min (2 ^ 30 - 1) errors) := by
    rw [State.marginDone, h]
    exact if_neg (Nat.not_lt.mpr hdue)
  rw [hdone]
  refine ⟨by rw [lnk_wr, lnk_wr, lnk_wr, lnk_modLnk], ?_, ?_, ?_⟩
  · rw [(LinkKept.wr _ _ _).rd, (LinkKept.wr _ _ _).rd]
    exact rd_wr_fits (by simp [Reg.JL_MARGIN_RES_DONE]) (by simp [Reg.JL_MARGIN_RES_DONE])
  · rw [(LinkKept.wr _ _ _).rd]
    exact rd_wr_fits (by simp [Reg.JL_MARGIN_RES_VALID]) (by simp [Reg.JL_MARGIN_RES_VALID])
  · exact rd_wr_fits (by simp [Reg.JL_MARGIN_RES_ERRORS]) (by simp [Reg.JL_MARGIN_RES_ERRORS])

/-! ### Test mode (R532, R533) -/

/-- MODE of JL_TEST_CTL as it is stored: a reserved value is 0. -/
def testMode (data : Word) : Nat := if bitsOf data 0 3 ≤ 2 then bitsOf data 0 3 else 0

theorem testMode_lt (data : Word) : testMode data < 2 ^ 3 := by
  unfold testMode
  split <;> omega

theorem testStore_kept (s : State) (n : Nat) (data : Word) : LinkKept [Reg.JL_TEST_CTL_RATE n, Reg.JL_TEST_CTL_MODE n] s (s.testStore n data) := by
  unfold State.testStore
  exact (LinkKept.wr s _ _).trans (.wr _ _ _)

theorem testStore_regs (s : State) (n : Nat) (data : Word) : s.testStore n data = { s with regs := (s.testStore n data).regs } := rfl

theorem testStore_stored (s : State) (data : Word) : (s.testStore n data).rd (Reg.JL_TEST_CTL_RATE n) = min 2 (bitsOf data 8 2) ∧
    (s.testStore n data).rd (Reg.JL_TEST_CTL_MODE n) = testMode data := by
  rw [State.testStore, (LinkKept.wr _ _ _).rd]
  exact ⟨rd_wr_fits (by simp [Reg.JL_TEST_CTL_RATE]) (by simp [Reg.JL_TEST_CTL_RATE]), rd_wr_fits (by simp [Reg.JL_TEST_CTL_MODE]) (testMode_lt data)⟩

theorem testStart_starts {data : Word} (hisolated : s.linkState n = 4) (hstate : s.jlState n = 5) (hidle : s.linkRecs n = []) (hmode : testMode data ≠ 0) :
    (s.testStart n data).jlState n = 9 ∧ (s.testStart n data).jlRate n = min 2 (bitsOf data 8 2) ∧
    (s.testStart n data).rd (Reg.JL_TEST_CTL_RATE n) = min 2 (bitsOf data 8 2) ∧ (s.testStart n data).rd (Reg.JL_TEST_CTL_MODE n) = testMode data ∧
    (s.testStart n data).reg (Reg.JL_TEST_RES n) = BitVec.ofNat 32 (2 ^ 31) := by
  obtain ⟨hrate, hstored⟩ := testStore_stored (n := n) s data
  have hbegins : s.testStart n data = (((s.testStore n data).setJl n 9).wr (Reg.JL_STATE_RATE n) ((s.testStore n data).rd (Reg.JL_TEST_CTL_RATE n))).setReg
      (Reg.JL_TEST_RES n) (BitVec.ofNat 32 (2 ^ 31)) := by
    refine if_pos ⟨(testStore_kept s n data).rd.trans hisolated, jlActive_iff.mpr ((testStore_kept s n data).rd.trans hstate), ?_, by rw [hstored]; exact hmode⟩
    rw [(testStore_kept s n data).linkRecs, hidle]
    rfl
  rw [hbegins, hrate, (LinkKept.setReg _ _ _).rd, (LinkKept.setReg _ _ _).rd, (LinkKept.wr _ _ _).rd, (LinkKept.wr _ _ _).rd, (setJl_kept _ n 9).rd, (setJl_kept _ n 9).rd]
  refine ⟨?_, ?_, hrate, hstored, reg_setReg_same _ _ _⟩
  · exact (LinkKept.setReg _ _ _).rd.trans ((LinkKept.wr _ _ _).rd.trans (setJl_state _ (by decide)))
  · exact (LinkKept.setReg _ _ _).rd.trans (rd_wr_fits (by simp [Reg.JL_STATE_RATE]) (by simp [Reg.JL_STATE_RATE]))

theorem testStart_refused {data : Word} (h : s.linkState n ≠ 4 ∨ s.jlState n ≠ 5 ∨ testMode data = 0) : s.testStart n data = s.testStore n data := by
  obtain ⟨-, hstored⟩ := testStore_stored (n := n) s data
  refine if_neg ?_
  rintro ⟨hisolated, hactive, -, hmode⟩
  obtain h | h | h := h
  · exact h ((testStore_kept s n data).rd.symm.trans hisolated)
  · exact h ((testStore_kept s n data).rd.symm.trans (jlActive_iff.mp hactive))
  · exact hmode (hstored.trans h)

theorem testStop_other (data : Word) (locked : Bool) (errors : Nat) (h : s.jlState n ≠ 9) : s.testStop n data locked errors = s.testStore n data := by
  refine if_neg fun hstate => h ?_
  exact (testStore_kept s n data).rd.symm.trans hstate

theorem LinkKept.modDie (s : State) (n d : Nat) (f : DieSt → DieSt) : LinkKept [] s (s.modDie n d f) := ⟨rfl, fun _ => rfl, fun _ _ _ => rfl⟩

theorem diesReset_kept (s : State) (n : Nat) (l : List Nat) (f : DieSt → DieSt) : LinkKept [] s (l.foldl (fun t d => t.modDie n d f) s) := by
  induction l generalizing s with
  | nil => exact .refl s
  | cons d l ih => exact (LinkKept.modDie s n d f).trans (ih _)

/-- A training from DETECT that no operation in flight is faulted by leaves the other registers of the link. -/
theorem toDetect_kept (h : s.linkRecs n = []) (window : Nat) (parked : Bool) :
    LinkKept [Reg.JL_CREDIT_UNACKED n, Reg.JL_CREDIT_VC0_AVAIL n, Reg.JL_CREDIT_VC1_AVAIL n, Reg.JL_BRIDGE_STATUS_QUARANTINED n, Reg.JL_MARGIN_RES_DONE n,
      Reg.JL_MARGIN_RES_VALID n, Reg.JL_STATE_STATE n, Reg.JL_STATE_RATE n, Reg.JL_STATE_BLOCK_LOCK n] s (s.toDetect n window parked) := by
  have hreset : LinkKept [Reg.JL_CREDIT_UNACKED n, Reg.JL_CREDIT_VC0_AVAIL n, Reg.JL_CREDIT_VC1_AVAIL n, Reg.JL_BRIDGE_STATUS_QUARANTINED n] s
      (s.detectReset n) := by
    unfold State.detectReset
    dsimp only
    rw [faultLink_none]
    · exact ((clearLink_kept s n).trans (.modLnk _ n _)).trans (diesReset_kept _ n _ _)
    · exact ((((clearLink_kept s n).trans (.modLnk _ n _)).trans (diesReset_kept _ n _ _)).linkRecs n).trans h
  unfold State.toDetect State.backToDetect
  exact ((((hreset.trans (.modLnk _ n _)).trans (.modLnk _ n _)).trans (setJl_kept _ n 1)).trans (.wr _ _ _)).trans (.wr _ _ _)

/-- The result of a test shown. -/
def State.testShown (s : State) (n : Nat) (locked : Bool) (errors : Nat) : State :=
  ((s.wr (Reg.JL_TEST_RES_RUNNING n) 0).wr (Reg.JL_TEST_RES_LOCK n) (bit locked)).wr (Reg.JL_TEST_RES_ERRORS n) (if locked then min (2 ^ 30 - 1) errors else 0)

theorem testShown_kept (s : State) (n : Nat) (locked : Bool) (errors : Nat) :
    LinkKept [Reg.JL_TEST_RES_RUNNING n, Reg.JL_TEST_RES_LOCK n, Reg.JL_TEST_RES_ERRORS n] s (s.testShown n locked errors) := by
  unfold State.testShown
  exact ((LinkKept.wr s _ _).trans (.wr _ _ _)).trans (.wr _ _ _)

theorem testShown_result (s : State) (locked : Bool) (errors : Nat) : (s.testShown n locked errors).rd (Reg.JL_TEST_RES_RUNNING n) = 0 ∧
    (s.testShown n locked errors).rd (Reg.JL_TEST_RES_LOCK n) = bit locked ∧
    (s.testShown n locked errors).rd (Reg.JL_TEST_RES_ERRORS n) = if locked then min (2 ^ 30 - 1) errors else 0 := by
  unfold State.testShown
  refine ⟨?_, ?_, rd_wr_fits (by simp [Reg.JL_TEST_RES_ERRORS]) (by simp only [Reg.JL_TEST_RES_ERRORS]; split <;> omega)⟩
  · rw [(LinkKept.wr _ _ _).rd, (LinkKept.wr _ _ _).rd]
    exact rd_wr_fits (by simp [Reg.JL_TEST_RES_RUNNING]) (by simp [Reg.JL_TEST_RES_RUNNING])
  · rw [(LinkKept.wr _ _ _).rd]
    exact rd_wr_fits (by simp [Reg.JL_TEST_RES_LOCK]) (by cases locked <;> simp [Reg.JL_TEST_RES_LOCK, bit])

theorem testStop_trains (data : Word) (locked : Bool) (errors : Nat) (h : s.jlState n = 9) : (s.testStop n data locked errors).jlState n = 1 ∧
    ((s.testStop n data locked errors).lnk n).window = some (s.now + 200000000) ∧
    (s.linkRecs n = [] → (s.testStop n data locked errors).rd (Reg.JL_TEST_RES_RUNNING n) = 0 ∧
      (s.testStop n data locked errors).rd (Reg.JL_TEST_RES_LOCK n) = bit locked ∧
      (s.testStop n data locked errors).rd (Reg.JL_TEST_RES_ERRORS n) = if locked then min (2 ^ 30 - 1) errors else 0) := by
  have hstop : s.testStop n data locked errors = ((s.testStore n data).testShown n locked errors).toDetect n (s.now + 200000000) false :=
    if_pos ((testStore_kept s n data).rd.trans h)
  rw [hstop]
  refine ⟨(toDetect_inDetect _ _ _).state, toDetect_window _ n _ false, fun hnone => ?_⟩
  have hkept := toDetect_kept (n := n) ((((testStore_kept s n data).trans (testShown_kept _ n locked errors)).linkRecs n).trans hnone) (s.now + 200000000) false
  rw [hkept.rd, hkept.rd, hkept.rd]
  exact testShown_result _ locked errors

end

/-! ### The commands -/

/-- With the main domain down no flit is taken, nothing is measured and no test begins. -/
theorem exec_linkLayer_mainDown {s : State} (hmain : s.mainUp = false) (n : Fin 512) : ∀ i ∈ [Instr.jlFlitReceive n [], .jlReplayTimeout n, .jlMarginStart 4 n 0,
    .jlMarginAbort 4 n 0, .jlMarginDone n 0, .jlTestStart 4 n 0, .jlTestStop 4 n 0 false 0], exec i s = .next s := by
  have halone {t : State} : Host.Outcome.next (if s.mainUp = true then t else s) = (.next s : Host.Outcome State Fault Refusal) := by simp [hmain]
  simp only [List.forall_mem_cons]
  exact ⟨halone, halone, halone, halone, halone, halone, halone, fun _ h => absurd h List.not_mem_nil⟩

section
variable {s : State} {n : Fin 512} (hmain : s.mainUp = true)
include hmain

theorem exec_jlFlitReceive (l : List Block) : exec (.jlFlitReceive n l) s = .next (s.flitBlocksIn n l) := congrArg _ (if_pos hmain)
theorem exec_jlReplayTimeout : exec (.jlReplayTimeout n) s = .next (s.replayTimeout n) := congrArg _ (if_pos hmain)
theorem exec_jlMarginStart (a : Fin 8) (data : Word) : exec (.jlMarginStart a n data) s = .next (s.marginStart n data) := congrArg _ (if_pos hmain)
theorem exec_jlMarginAbort (a : Fin 8) (data : Word) : exec (.jlMarginAbort a n data) s = .next ((s.marginStore n data).marginAbort n) :=
  congrArg _ (if_pos hmain)
theorem exec_jlMarginDone (errors : Nat) : exec (.jlMarginDone n errors) s = .next (s.marginDone n errors) := congrArg _ (if_pos hmain)
theorem exec_jlTestStart (a : Fin 8) (data : Word) : exec (.jlTestStart a n data) s = .next (s.testStart n data) := congrArg _ (if_pos hmain)
theorem exec_jlTestStop (a : Fin 8) (data : Word) (locked : Bool) (errors : Nat) :
    exec (.jlTestStop a n data locked errors) s = .next (s.testStop n data locked errors) := congrArg _ (if_pos hmain)

end

end Sys2Proof.Machine

open Sys2Proof
open Sys2Proof.Machine

/-- Settles O55: what a flit does by its header is done before anything is sent, and sending leaves what was received (`TxOnly`); replays, measurements and
tests are described one by one. -/
theorem linkLayerFlitsReplayMarginAndTest : Obligations.LinkLayerFlitsReplayMarginAndTest := by
  unfold Obligations.LinkLayerFlitsReplayMarginAndTest
  intro n s x state
  refine ⟨fun hmain => exec_linkLayer_mainDown hmain n, fun hmain => ⟨fun l => ?_, ?_, fun a data => ⟨?_, ?_, ?_⟩, fun errors => ⟨fun hnone => ?_, fun began h => ?_⟩⟩⟩
  · intro r f h seq acks flit intact
    refine ⟨fun hno => ?_, fun hflit hlen => ⟨fun hbad hfew => ⟨_, exec_jlFlitReceive hmain l, flitBlocksIn_corrupt hflit rfl hlen hbad hfew⟩,
      fun hintact hcrc => ⟨fun hrefused hfew => ⟨_, exec_jlFlitReceive hmain l, flitBlocksIn_refused hflit rfl hlen hintact hcrc hrefused hfew⟩,
        fun hlow hacks hsync hnak => ⟨fun hkind hseq hwhole => ?_, fun hdrop => ?_, fun hkind hseq hahead => ?_⟩⟩⟩⟩
    · rw [exec_jlFlitReceive hmain, flitBlocksIn_other hno]
    · exact ⟨_, exec_jlFlitReceive hmain l, flitBlocksIn_accepts hflit rfl hlen hintact hcrc hlow hacks hsync hnak hkind hseq rfl rfl hwhole⟩
    · exact ⟨_, exec_jlFlitReceive hmain l, flitBlocksIn_drops hflit rfl hlen hintact hcrc hlow hacks hsync hnak hdrop⟩
    · exact ⟨_, exec_jlFlitReceive hmain l, flitBlocksIn_naks hflit rfl hlen hintact hcrc hlow hacks hsync hnak hkind hseq hahead⟩
  · intro lim
    refine ⟨fun h => ?_, fun f rest hstate hunacked hdue => ⟨fun hruns => ?_, fun hruns hfew => ?_⟩⟩
    · rw [exec_jlReplayTimeout hmain, replayTimeout_early h]
    · exact ⟨_, exec_jlReplayTimeout hmain, replayTimeout_replays hstate hunacked hdue hruns⟩
    · exact ⟨_, exec_jlReplayTimeout hmain, replayTimeout_retrains hstate hunacked hdue hruns hfew⟩
  · exact ⟨_, exec_jlMarginStart hmain a data, marginStart_spec s data⟩
  · exact ⟨_, exec_jlMarginAbort hmain a data, marginAborted_spec s data⟩
  · intro rate mode
    obtain ⟨hrate, hmode⟩ := testStore_stored (n := n) s data
    refine ⟨fun hisolated hstate hidle hon => ⟨_, exec_jlTestStart hmain a data, testStart_starts hisolated hstate hidle hon⟩, fun hno => ?_,
      fun locked errors => ⟨fun hstate => ?_, fun hstate => ⟨_, exec_jlTestStop hmain a data locked errors, testStop_trains data locked errors hstate⟩⟩⟩
    · rw [exec_jlTestStart hmain, testStart_refused hno]
      exact ⟨_, rfl, (testStore_kept s n data).rd, hrate, hmode, testStore_regs s n data⟩
    · rw [exec_jlTestStop hmain, testStop_other data locked errors hstate]
      exact ⟨_, rfl, (testStore_kept s n data).rd, hrate, testStore_regs s n data⟩
  · rw [exec_jlMarginDone hmain, marginDone_none errors hnone]
  · intro due
    refine ⟨fun hno => ?_, fun hdue => ⟨_, exec_jlMarginDone hmain errors, marginDone_due errors h hdue⟩⟩
    rw [exec_jlMarginDone hmain, marginDone_early errors h hno]

end
